-- ==== Sys2Proof/Word.lean ====
section
/-! DEFINITION. The byte, the unit of every packet, frame and memory of the module. -/

namespace Sys2Proof

/-- One byte. -/
abbrev Byte := BitVec 8

end Sys2Proof
end

