-- ==== Sys2Proof/Syntax.lean ====
section
/-! DEFINITION. The commands the module takes: one constructor for each row of the table of operations and events
(opcode_table.json). A request that arrives over ECP is its packet; an event carries what the module measures or
receives with it. -/

namespace Sys2Proof

/-- The four transports of ECP packets, in the order of their ceiling index (R23). -/
inductive Transport where
  | pcie | spi | mgmt | nhp
  deriving DecidableEq, Repr

/-- An ECP request packet as it arrives (R26). The opcode is the command's own. `chan` is the mailbox pair on PCIe,
the number the environment gives the requester's address and port on MGMT, and the number of the tunnel message on
NHP. `payload` is what the transport's frame holds after the header, so that its length may disagree with `len`. -/
structure Request where
  transport : Transport
  chan : Nat
  version : BitVec 8
  flags : BitVec 8
  tag : BitVec 32
  session : BitVec 16
  len : BitVec 16
  status : BitVec 16
  check : BitVec 16
  payload : List Byte
  deriving DecidableEq, Repr

/-- What a core's round of self-tests measures (R160): oven temperature minus set point in mK, tuning word in units of
0.01 % of full range, RMS servo residual in ps, and for a standby core the standby's time minus module time in ps
and its recomputed stamps of the last second that differ from the issued ones: the stamp unit and the difference in ps. -/
structure CoreMeasure where
  oven : Int
  dco : Nat
  residual : Nat
  peer : Int
  shadow : List (Fin 512 × Int)
  deriving DecidableEq, Repr

/-- What a stamp unit sees of one frame (R61, R62, R96, R99): the tick latched at the word-clock edge by the sampler on the local tick, as
a TAI ns count; the reading of the half-tick phase sampler in ps; the symbol index P within the word; the tick latched by the sampler
clocked 1 ns later; and the word edges since the lane's marker divider started. -/
structure RawStamp where
  tick : Nat
  fine : Nat
  sym : Fin 64
  late : Nat
  word : Nat
  deriving DecidableEq, Repr

/-- The transport of an IEEE 1588 message (R8): Ethernet, or UDP on IPv4 or IPv6 with this port's address and the client's, as the
client's message carries them. -/
inductive PtpPath where
  | ethernet
  | udp4 (own client : BitVec 32)
  | udp6 (own client : BitVec 128)
  deriving DecidableEq, Repr

/-- What a calibration item measures (R208): whether it ended with a result, whether a sensor moved by more than
CAL_TEMP_DELTA during it, the temperature at its sensor at its end in 0.1 °C, its delays in ps (a lane's D_rx and D_tx;
an input's D_evt; the four reference input delays), the standard deviations of its samples in 0.1 ps in the same order,
and for a lane the eye width in mUI, the eye height in mV, the slicer codes and the delay of each tap of its transmit fine-delay line in
0.01 ps (R210). A delay is measured from the CAL IN face, with the leg of the calibration bus in it; a lane's third is the phase of its
quad's CK_LKT against the tick. -/
structure CalMeasure where
  ok : Bool
  moved : Bool
  temp : Int
  delays : List Nat
  sigmas : List Nat
  eyeW : Nat
  eyeH : Nat
  slicer : List Int
  taps : List Nat
  deriving DecidableEq, Repr

/-- A satellite of a solution (R172, R178): its number and constellation, 0 GPS, 1 Galileo and 2 BeiDou, its signals in the solution, and
its residual in ps. -/
structure GnssSat where
  sat : BitVec 8
  system : Fin 3
  signals : BitVec 5
  residual : Int
  deriving DecidableEq, Repr

/-- The solution of a set of satellites: the module time in ps at which the antenna signal of the second's boundary was received, σ in ps,
the satellites with their residuals, and the position of a navigation solution in ECEF mm. -/
structure GnssSolution where
  at_ : Int
  sigma : BitVec 32
  used : List GnssSat
  position : Option (Int × Int × Int)
  deriving DecidableEq, Repr

/-- What the GNSS solver finds for a second (R172 to R186): the GPS system time second, the solution of all satellites, those of the sets
that the residual check tries after it (R178), where the navigation data give it the UTC offset and the leap announcement, and the lowest
prompt C/N0 of the last second by signal and satellite (R176). -/
structure GnssFix where
  second : BitVec 48
  first : GnssSolution
  more : List GnssSolution
  utc : Option (BitVec 16 × Fin 3)
  cn0 : List (Fin 5 × BitVec 8 × BitVec 6)
  deriving DecidableEq, Repr

/-- What an ECC check finds in the cell that a basin offers (R232): a corrected error, or an uncorrectable one, with the bits of the cell's
header that read wrong. -/
inductive CellFault where
  | corrected
  | uncorrectable (flip : BitVec 128)
  deriving DecidableEq, Repr

/-- An upset of the quay's memory, which the next allocation, release or flush finds (R276, R277): the parity of a buffer's count and
state, or the newest entry of an egress queue or of a host receive queue, which then names another buffer. -/
inductive QuayUpset where
  | parity (pool : Fin 4) (index : BitVec 16)
  | portEntry (port : Fin 512) (cls : Fin 8) (pool : Fin 4) (index : BitVec 16)
  | hostEntry (queue : Fin 64) (pool : Fin 4) (index : BitVec 16)
  deriving DecidableEq, Repr

/-- An IEEE 1588 client: its MAC address and the transport that it uses (R8, R123). -/
structure PtpClient where
  mac : BitVec 48
  path : PtpPath
  deriving DecidableEq, Repr

/-- A cell of the acquisition bank (R175): its bin of 500 Hz and its half chip. -/
structure AcqCell where
  bin : Int
  chip : Nat
  deriving DecidableEq, Repr

/-- What a snapshot of duty operation brings (R193): its samples of L1, and the offset that processing found, if any. -/
structure DutyCapture where
  l1 : List Byte
  offset : Option Int
  deriving DecidableEq, Repr

/-- A received frame with its FCS, and whether its PCS or FEC error was uncorrectable (R254). -/
structure Reception where
  bytes : List Byte
  bad : Bool
  deriving DecidableEq, Repr

/-- The reach whose learn request is applied, and whether the entry that its lookup reads is uncorrectable (R291, R293). -/
structure LearnRead where
  reach : Fin 8
  macErr : Bool
  deriving DecidableEq, Repr

/-- The commands of the module, one constructor per row of the table. -/
inductive Instr where
  /-- SESSION_OPEN (R522). Request to open an ECP session: tested in the R522 order, given the lowest free number, and answered OK or CHALLENGE. -/
  | sessionOpen (rq : Request)
  /-- SESSION_PROVE (R31). Ed25519 proof for a session in PROVING: opens the session or frees its number, then sends the final reply to the SESSION_OPEN. -/
  | sessionProve (rq : Request)
  /-- PROOF_TIMEOUT (R31). No SESSION_PROVE arrives within 10 s of CHALLENGE: the number is freed and the SESSION_OPEN ends PROOF_FAILED. -/
  | proofTimeout (n : Fin 16)
  /-- SESSION_CLOSE (R33). Closes the sender's own session or, from ADMIN and above, another named session. -/
  | sessionClose (rq : Request)
  /-- SESSION_IDLE_TIMEOUT (R33). No request arrives on an open session for CMD_SESSION_IDLE, so the session closes. -/
  | sessionIdleTimeout (n : Fin 16)
  /-- SESSION_SET (R50). Changes the notice mask of the session. -/
  | sessionSet (rq : Request)
  /-- UNKNOWN_OPCODE (R51). A request with an opcode number not in the table is answered UNKNOWN_OPCODE. -/
  | unknownOpcode (op : BitVec 16) (rq : Request)
  /-- SPI_READ_TRANSFER (R24). The board controller reads over SPI and receives the oldest waiting packet, or the sync bytes followed by 0x0000. -/
  | spiReadTransfer
  /-- PARAM_READ (R45). Reads 1 to 64 entries of parameter values or shadows. -/
  | paramRead (rq : Request)
  /-- PARAM_WRITE (R46). Writes parameters that have no row of their own: checks every entry, then applies all of them or none. -/
  | paramWrite (rq : Request)
  /-- LCK_SWAP_TIME_WRITE (R330). Writing LCK_SWAP_TIME arms, replaces or cancels a slot-table bank swap of a port. -/
  | lckSwapTimeWrite (rq : Request) (index : BitVec 16) (value : BitVec 64)
  /-- LCK_ADM_ENTRY_WRITE (R329). Writes an administrative slot-table entry of the port selected by the session's LCK_SEL_PORT; held during COPYING. -/
  | lckAdmEntryWrite (rq : Request) (index : BitVec 16) (value : BitVec 64)
  /-- OBS_TAG_SEED_WRITE (R458). Loads each reach's LFSR with the seed XOR the reach number. -/
  | obsTagSeedWrite (rq : Request) (index : BitVec 16) (value : BitVec 64)
  /-- SPD_TAMPER_SRC_CLEAR (R401). W1C write of tamper source bits from a SECURITY session; a bit whose source is still active stays set. -/
  | spdTamperSrcClear (rq : Request) (index : BitVec 16) (value : BitVec 64)
  /-- GNS_ANT_BIAS_WRITE (R173). Sets the antenna bias and restores a bias that was removed after a SHORT. -/
  | gnsAntBiasWrite (rq : Request) (index : BitVec 16) (value : BitVec 64)
  /-- CMD_MGMT_ENABLE_WRITE (R53). Turns the MGMT transport on or off and stops or starts block CMD. -/
  | cmdMgmtEnableWrite (rq : Request) (index : BitVec 16) (value : BitVec 64)
  /-- FAB_COMMIT (R243). Commit of block FAB applies FAB_PACE and sets FAB_VCORE_TARGET, which opens a VCORE transition. -/
  | fabCommit (rq : Request)
  /-- PRT_COMMIT (R250). Commit of block PRT rebuilds ports after validation; changed lanes retrain through the wake sequencer. -/
  | prtCommit (rq : Request)
  /-- TBL_COMMIT (R308). Commit of block TBL applies port groups and PVIDs to later frames. -/
  | tblCommit (rq : Request)
  /-- LCK_COMMIT (R320). Commit of block LCK applies the fibre compensation shadows at one tick. -/
  | lckCommit (rq : Request)
  /-- TBS_COMMIT (R57). Commit of block TBS applies timebase shadows and accepts a pending set of TBS_SET_SEC in FREERUN. -/
  | tbsCommit (rq : Request)
  /-- LNK_COMMIT (R90). Commit of block LNK applies classes, roles and asymmetry; class changes retrain the quad. -/
  | lnkCommit (rq : Request)
  /-- REF_COMMIT (R141). Commit of block REF applies servo bandwidths, LINK ports and external modes. -/
  | refCommit (rq : Request)
  /-- COR_COMMIT (R159). Commit of block COR applies the cross-lock bandwidth. -/
  | corCommit (rq : Request)
  /-- GNS_COMMIT (R181). Commit of block GNS applies enable, position mode and fixed coordinates from the next second. -/
  | gnsCommit (rq : Request)
  /-- EVT_COMMIT (R204). Commit of block EVT clears and restarts changed statistics accumulators. -/
  | evtCommit (rq : Request)
  /-- LAN_COMMIT (R357). Commit of block LAN applies rates, alignment, free references and enables, with retrains and family changes. -/
  | lanCommit (rq : Request)
  /-- SYN_COMMIT (R372). Commit of block SYN acts as SYN_APPLY with mask 0x0F. -/
  | synCommit (rq : Request)
  /-- LOG_COMMIT (R345). Commit of block LOG applies the seal interval, channel enables and rings. -/
  | logCommit (rq : Request)
  /-- ARB_COMMIT (R392). Commit of block ARB applies priorities, quotas and window to the weir. -/
  | arbCommit (rq : Request)
  /-- HIE_COMMIT (R412). Commit of block HIE applies preferred parent ports and NHP port enables. -/
  | hieCommit (rq : Request)
  /-- HST_COMMIT (R480). Commit of block HST applies mailbox bases and sizes and resets changed pairs. -/
  | hstCommit (rq : Request)
  /-- COMMIT_NO_SHADOW (R514). PARAM_COMMIT of a block without COMMIT parameters is answered OK and changes nothing. -/
  | commitNoShadow (block : BitVec 8) (rq : Request)
  /-- SCHEDULED_COMMIT_DUE (R48). The module-time instant of a pending scheduled block commit is reached, and the commit applies. -/
  | scheduledCommitDue (block : Fin 256)
  /-- SYS_INFO (R518). Returns the 32-byte identity reply. -/
  | sysInfo (rq : Request)
  /-- FABRIC_ENABLE (R245). Starts the fabric from DISABLED or DRAINING. -/
  | fabricEnable (rq : Request)
  /-- FABRIC_DISABLE (R245). Sends a RUNNING fabric to DRAINING. -/
  | fabricDisable (rq : Request)
  /-- TBL_SEARCH (R299). Looks up a MAC or Stream key in the masked reaches. -/
  | tblSearch (rq : Request)
  /-- TBL_NEXT (R301). Returns table entries from a cursor as one atomic read. -/
  | tblNext (rq : Request)
  /-- TBL_INSERT (R300). Writes or places a MAC entry in each masked reach. -/
  | tblInsert (rq : Request)
  /-- TBL_DELETE (R299). Removes a key from the masked reaches and waits for the drain fence. -/
  | tblDelete (rq : Request)
  /-- TBL_FLUSH_PORT (R302). Starts a walk that removes the entries of a port in the masked reaches. -/
  | tblFlushPort (rq : Request)
  /-- FLUSH_WALK_END (R302). A flush walk ends: learning resumes and the epoch advances. -/
  | flushWalkEnd (reach : Fin 8)
  /-- TBL_REHASH (R306). Starts or resumes a rebuild of a reach's MAC table under a new seed. -/
  | tblRehash (rq : Request)
  /-- REHASH_WALK_END (R306). A rehash walk passes the last slot (IDLE, DONE) or fails with the stash full (MIXED, ABORTED). -/
  | rehashWalkEnd (reach : Fin 8)
  /-- TBL_STREAM_WRITE (R287). Writes Stream table entries in all eight reaches. -/
  | tblStreamWrite (rq : Request)
  /-- TBL_CLEAR_FLAP (R299). Clears the FLAPPING pin of an entry. -/
  | tblClearFlap (rq : Request)
  /-- DRAIN_FENCE_COMPLETE (R305). The last frame looked up before a command's epoch advance leaves, so TBL_DELETE or TBL_FLUSH_PORT answers DONE. -/
  | drainFenceComplete (reach : Fin 8)
  /-- STREAM_ENTRY_REWRITE (R288). Firmware rewrites an uncorrectable Stream entry copy from the master copy. -/
  | streamEntryRewrite (reach : Fin 8) (sid : BitVec 16)
  /-- REF_ACCEPT (R137). Makes a HELD reference QUALIFIED. -/
  | refAccept (rq : Request)
  /-- CORE_SWITCH (R164). Commands a switch-over to the named core. -/
  | coreSwitch (rq : Request)
  /-- CORE_HEALTH (R162). Returns the health report of a core. -/
  | coreHealth (rq : Request)
  /-- GNS_SNAPSHOT (R190). Starts a raw-sample capture of the GNSS bands. -/
  | gnsSnapshot (rq : Request)
  /-- SNAPSHOT_CAPTURE_DONE (R191). A GNSS capture finishes its delivery and processing and answers DONE. -/
  | snapshotCaptureDone (l1 : List Byte) (l5 : List Byte) (offset : Option Int) (sats : Fin 65)
  /-- EVT_STATS (R206). Returns the statistics of an accumulator and optionally restarts it. -/
  | evtStats (rq : Request)
  /-- CAL_RUN (R216). Starts a calibration run of the given scope. -/
  | calRun (rq : Request)
  /-- CAL_RUN_DONE (R216). A calibration run completes and answers DONE with its payload. -/
  | calRunDone (freq : Int)
  /-- LAN_SLIP (R366). Slips a lane's word boundary on a SLIP_MANUAL quad. -/
  | lanSlip (rq : Request)
  /-- SYN_APPLY (R373). Applies output synthesizer shadows now or at a scheduled instant. -/
  | synApply (rq : Request)
  /-- SYN_APPLY_DUE (R374). The scheduled instant of a synthesizer application is reached, and the output changes at the end of its period. -/
  | synApplyDue
  /-- BAND_CHANGE_END (R374). A synthesizer VCO finishes moving band, and its output resumes. -/
  | bandChangeEnd (syn : Fin 38)
  /-- LASER_SWAP (R369). Requests a planned swap to the spare laser of an engine. -/
  | laserSwap (rq : Request)
  /-- LASER_SWAP_START (R370). At the start instant, the engine's lanes go OFF and the spare is powered. -/
  | laserSwapStart (engine : Fin 32)
  /-- SPARE_ROUTED (R370). The spare reaches power and is routed, and the lanes wake. -/
  | spareRouted (engine : Fin 32)
  /-- LOG_KEY_PUBLIC (R352). Returns the logbook public key and its serial. -/
  | logKeyPublic (rq : Request)
  /-- LIFECYCLE_SET (R397). Changes the life-cycle state with a wipe of bank 31. -/
  | lifecycleSet (rq : Request)
  /-- MASTER_RELEASE (R36). Returns a frozen session or scratchpad master to service. -/
  | masterRelease (rq : Request)
  /-- HIE_TUNNEL (R420). Sends an ECP packet to a worker through the NHP tunnel. -/
  | hieTunnel (rq : Request)
  /-- HIE_FANOUT (R422). Sends an ECP packet to a set of workers. -/
  | hieFanout (rq : Request)
  /-- TUNNEL_TIMEOUT (R420). A tunnel target's final reply has not come within the timeout, or its entry aged out, so the target ends TIMEOUT. -/
  | tunnelTimeout
  /-- HIE_REGISTRY_READ (R417). Returns registry entries from a cursor. -/
  | hieRegistryRead (rq : Request)
  /-- SHUTTER_ENTER (R439). Adds the COMMAND cause and enters shutter mode. -/
  | shutterEnter (rq : Request)
  /-- SHUTTER_LEAVE (R439). Clears COMMAND and requests the switching domains when no other cause remains. -/
  | shutterLeave (rq : Request)
  /-- STICKY_CLEAR (R443). Clears sticky fault bits and optionally the first-fault record. -/
  | stickyClear (rq : Request)
  /-- WEAR_GET (R445). Returns the wear prediction of an object. -/
  | wearGet (rq : Request)
  /-- FAULT_READ (R442). Returns the first-fault record. -/
  | faultRead (rq : Request)
  /-- OBS_SNAPSHOT (R454). Copies the counter set into the snapshot bank now or at a scheduled instant. -/
  | obsSnapshot (rq : Request)
  /-- OBS_SNAPSHOT_DUE (R454). The scheduled snapshot instant is reached, and the copy is made. -/
  | obsSnapshotDue
  /-- OBS_FREEZE (R453). Freezes the counter set or runs it again. -/
  | obsFreeze (rq : Request)
  /-- OBS_TRACE_READ (R462). Returns trace records from a cursor. -/
  | obsTraceRead (rq : Request)
  /-- QUEUE_CREATE (R470). Creates a host ring. -/
  | queueCreate (rq : Request)
  /-- QUEUE_DESTROY (R471). Stops and removes a host ring. -/
  | queueDestroy (rq : Request)
  /-- SET_SEC_ROLLOVER (R57). At the seconds rollover after the commit, a pending TBS_SET_SEC steps module time, or is discarded outside FREERUN. -/
  | setSecRollover
  /-- LEAP_SECOND (R58). At the TAI instant of the announced UTC midnight, TBS_UTC_OFFSET changes and TBS_LEAP returns to 0. -/
  | leapSecond
  /-- BOUND_UPDATE (R69). Every 1 ms the calculator recomputes B_mod and may move TSTATE to HOLDOVER_LATE. -/
  | boundUpdate (ovenDev : Int)
  /-- EXPRESS_START_TEST (R255). At the 128th byte or the frame's end, an express-eligible frame is tested, and its first cell may leave. -/
  | expressStartTest (port : Fin 512) (bytes : List Byte) (ended : Bool) (bad : Bool) (streamErr : Bool) (macErr : Bool) (raw : RawStamp)
  /-- FRAME_RECEIVED (R254). A frame ends on a port: it is checked, looked up, learned from, logged and queued at its inlet, or discarded and counted. -/
  | frameReceived (port : Fin 512) (bytes : List Byte) (bad : Bool) (streamErr : Bool) (macErr : Bool) (raw : RawStamp)
  /-- FRAME_ADMITTED (R224). A frame held in the ingress FIFO by fabric state, sluice or HOLD enters its inlet queue once the bar lifts. -/
  | frameAdmitted (inlet : Fin 64)
  /-- LEARN_APPLY (R294). A held learn request is applied after TBL_LEARN_HOLD: placement, refresh, move or FLAPPING pin. -/
  | learnApply (read : LearnRead)
  /-- AGEING_SWEEP (R297). Every TBL_AGE_TIME a reach removes entries without HIT and clears HIT in the rest. -/
  | ageingSweep (reach : Fin 8)
  /-- SETTLE_SWEEP (R290). Once per second the table engine clears stale RECENT bits and MOVES counts. -/
  | settleSweep (reach : Fin 8)
  /-- FABRIC_STEP (R222). The completion barrier closes on one towpath step: cells move on both stages, and outlets resequence, reassemble and allocate. -/
  | fabricStep (faults : List (Fin 64 × CellFault)) (upsets : List QuayUpset)
  /-- LOST_GAP (R237). No in-order cell for FAB_RESEQ_TIMEOUT steps: the outlet skips to the oldest parked cell. -/
  | lostGap (outlet : Fin 64)
  /-- STEP_RATE_MEASURE (R239). Every 1 ms the module writes the step rate and the speedup. -/
  | stepRateMeasure
  /-- PACE_MARGIN (R242). The speedup has stayed below FAB_MARGIN_LIMIT for FAB_MARGIN_TIME, so the flag and notice are raised. -/
  | paceMargin
  /-- VCORE_MISMATCH (R243). FAB_PACE_NOW has differed from FAB_PACE for 100 ms. -/
  | vcoreMismatch
  /-- DRAIN_COMPLETE (R244). A DRAINING fabric empties and goes to DISABLED, or to OFF in shutter mode. -/
  | drainComplete
  /-- SHUTTER_DRAIN_EXPIRY (R244). FAB_SHUTTER_DRAIN elapses in shutter mode, so the fabric goes OFF and counts FAB_DRAIN_LOST. -/
  | shutterDrainExpiry
  /-- PFC_RECEIVED (R263). A received PFC or PAUSE frame pauses the named classes for its quanta. -/
  | pfcReceived (port : Fin 512) (bytes : List Byte)
  /-- PAUSE_EXPIRY (R263). The pause time of a class ends, and its frames may start. -/
  | pauseExpiry (port : Fin 512) (cls : Fin 8)
  /-- PFC_REPEAT (R262). Half the announced pause time elapses while a pair stays held off, so XOFF is sent again. -/
  | pfcRepeat (port : Fin 512) (cls : Fin 9)
  /-- FRAME_TRANSMIT_START (R253). An egress port starts the next eligible frame by strict priority, gates and the guard band. -/
  | frameTransmitStart (port : Fin 512) (raw : RawStamp)
  /-- TRANSMIT_COMPLETE (R272). A copy's last byte is read, and its entry is released and may free the buffer. -/
  | transmitComplete (port : Fin 512) (underrun : Bool) (parity : Bool)
  /-- PORT_LINK_DOWN (R265). A port goes down: its queues are flushed and its hold-off and pause state is cleared. -/
  | portLinkDown (port : Fin 512) (part : Bool) (upsets : List QuayUpset)
  /-- COPY_LAUNCH (R318). At a lock copy's launch instant S_p, the copy is launched on time, or marked late. -/
  | copyLaunch (port : Fin 512) (pos : Int)
  /-- COPY_ABANDON (R315). A waiting copy's age passes its hold limit, so it is released and counted. -/
  | copyAbandon (port : Fin 512) (queue : Fin 9)
  /-- GATE_CHANGE (R327). A slot-table entry interval or cycle ends, and the port's gates change. -/
  | gateChange (port : Fin 512)
  /-- BANK_SWAP (R330). At the first cycle start at or after LCK_SWAP_TIME, the slot-table banks exchange. -/
  | bankSwap (port : Fin 512)
  /-- BANK_COPY_DONE (R330). The copy of the new operational bank into the administrative bank ends, and held writes apply. -/
  | bankCopyDone (port : Fin 512)
  /-- SEAL (R345). At each multiple of LOG_SEAL_INTERVAL, each enabled channel closes its span with a seal. -/
  | logSeal
  /-- SEAL_SIGNED (R349). The security core finishes the signature, and the seal's six slots pass the producer index. -/
  | sealSigned
  /-- SPILL_MOVE (R341). As ring slots free, spilled slots move to their rings, and the hold clears at LOG_SPILL_RESUME with GAP records. -/
  | spillMove
  /-- KEY_GENERATED (R351). The logbook key pair is ready, and LOG_KEY_STATE becomes PRESENT. -/
  | keyGenerated
  /-- WAKE_ADMITTED (R430). The head request is admitted when the di/dt budget and lane quota allow. -/
  | wakeAdmitted
  /-- RAMP_END (R430). An admitted ramp ends and frees its slope budget. -/
  | rampEnd
  /-- POWER_GOOD (R429). An admitted domain reaches power-good. -/
  | powerGood (dom : Fin 13)
  /-- CDR_LOCK (R360). A lane's CDR locks, and the lane goes to ALIGNING. -/
  | cdrLock (lane : Fin 512) (ppb : Int) (ctle : Fin 49)
  /-- CDR_LOCK_LOSS (R360). A lane loses CDR lock and returns to ACQUIRING. -/
  | cdrLockLoss (lane : Fin 512)
  /-- FRAMING (R360). A lane reaches framing and goes to CALIBRATING or back to UP. -/
  | framing (lane : Fin 512) (g : Fin 66) (found : Fin 64)
  /-- FRAMING_LOSS (R365). A lane loses framing with the CDR locked and goes to REALIGNING, or to ALIGNING from CALIBRATING. -/
  | framingLoss (lane : Fin 512)
  /-- REALIGN_TIMEOUT (R360). LAN_REALIGN_TIME passes without framing, so the lane retrains. -/
  | realignTimeout (lane : Fin 512)
  /-- SLIP_STEP (R364). Firmware slips an aligning SLIP_AUTO lane by one UI. -/
  | slipStep (lane : Fin 512)
  /-- LANE_CAL_ITEM_END (R214). A lane's bring-up calibration item ends, and the lane goes UP. -/
  | laneCalItemEnd (lane : Fin 512) (m : CalMeasure)
  /-- CTLE_STEP (R362). Every 10 ms in ADAPT, the CTLE code moves by at most one step. -/
  | ctleStep (lane : Fin 512) (up : Bool)
  /-- LASER_BIAS_WARN (R368). A laser's bias exceeds OPT_BIAS_WARN, so SWAP_ADVISED is set. -/
  | laserBiasWarn (engine : Fin 32) (laser : Fin 5) (bias : BitVec 16)
  /-- LASER_FAILED (R368). A laser's bias or power crosses the failure line, and its quad's lanes go OFF. -/
  | laserFailed (engine : Fin 32) (laser : Fin 5) (bias : BitVec 16) (powers : List Int)
  /-- SYN_UNLOCK (R377). A synthesizer loses lock and searches again. -/
  | synUnlock (syn : Fin 38)
  /-- TSYNC_SEND (R105). A framed TIME_OUT port sends a TSYNC every 1/LNK_SYNC_RATE s. -/
  | tsyncSend (port : Fin 512) (raw1 : RawStamp)
  /-- TSYNC (R102). A TIME_IN port receives a TSYNC and answers it with TDREQ. -/
  | tsync (port : Fin 512) (body : List Byte) (raw2 : RawStamp) (raw3 : RawStamp)
  /-- TDREQ (R103). A TIME_OUT port receives a TDREQ and answers it with TDRESP. -/
  | tdreq (port : Fin 512) (body : List Byte) (raw4 : RawStamp)
  /-- TDRESP (R106). A TIME_IN port receives a TDRESP, completes the exchange, and accepts or discards it. -/
  | tdresp (port : Fin 512) (body : List Byte)
  /-- RESP_TIMEOUT (R105). A TDRESP has not arrived within LNK_RESP_TIMEOUT, so the exchange is discarded. -/
  | respTimeout (port : Fin 512)
  /-- TCAL (R119). A TCAL request, stamp report or end of run is received during a link asymmetry calibration. -/
  | tcal (port : Fin 512) (body : List Byte)
  /-- DDMTD_AVERAGE (R97). A DDMTD average completes, and the phase and θ(t) are updated. -/
  | ddmtdAverage (port : Fin 512) (firsts : List (Fin 16384)) (runs : List Nat)
  /-- DDMTD_SETTLE (R98). Conditions have held for LNK_DDMTD_SETTLE, so the lane's DDMTD becomes valid. -/
  | ddmtdSettle (port : Fin 512)
  /-- SLIP_HOLD_EXPIRY (R115). LNK_SLIP_HOLD ends on a role-NONE locked port, and B_evt returns to 0. -/
  | slipHoldExpiry (port : Fin 512)
  /-- PTP_SYNC_SEND (R123). A multicast or unicast Sync or Announce is due on an enabled port. -/
  | ptpSyncSend (port : Fin 512) (announce : Bool) (unicast : Option (Nat × Nat)) (tx : RawStamp)
  /-- PTP_UNICAST_REQUEST (R123). A unicast negotiation request is granted or refused. -/
  | ptpUnicastRequest (port : Fin 512) (clock : BitVec 64) (number : BitVec 16) (client : PtpClient) (msg : Fin 16) (period : BitVec 8) (duration : BitVec 32)
  /-- DELAY_REQ (R124). A Delay_Req or Pdelay_Req is received and answered. -/
  | delayReq (port : Fin 512) (msg : List Byte) (client : PtpClient) (rx : RawStamp) (tx : RawStamp)
  /-- GRANT_EXPIRY (R123). A unicast grant reaches its duration and ends. -/
  | grantExpiry (clock : BitVec 64) (number : BitVec 16)
  /-- REFSEL_CHANGE (R138). A new REFSEL value has been stable for REF_PIN_DEBOUNCE and is acted on. -/
  | refselChange (pins : Fin 8)
  /-- GNS_PULSE (R186). The receiver delivers a second's pulse record, used as a reading of reference 0. -/
  | gnsPulse (x : GnssFix) (freq : Int) (osc : Int)
  /-- REF_PPS_EDGE (R130). An external PPS edge arrives and is tested against the activity window. -/
  | refPpsEdge (r : Fin 2) (phi : Int) (osc : Int)
  /-- REF_FREQ_ABSENT (R130). No 10 MHz edge arrives for 1 µs, so the reference becomes ABSENT. -/
  | refFreqAbsent (r : Fin 2)
  /-- ACTIVITY_LOST (R130). REF_ACT_MISS expected edges or pulses are missed, so the reference becomes ABSENT. -/
  | activityLost (r : Fin 7)
  /-- MONITOR_READING (R133). Per-second frequency and phase readings update the qualification state. -/
  | monitorReading (r : Fin 7) (freq : Int) (phi : Int) (osc : Int)
  /-- HOLDOFF_EXPIRY (R136). REF_HOLDOFF passes in QUALIFYING, so the reference becomes QUALIFIED. -/
  | holdoffExpiry (r : Fin 7)
  /-- CONFIRM_EXPIRY (R136). The confirmation time in PHASE_SUSPECT or DISQUALIFIED ends, and the entry test runs. -/
  | confirmExpiry (r : Fin 7)
  /-- WTR_EXPIRY (R140). REF_WTR expires, and the better reference is taken with a pull. -/
  | wtrExpiry
  /-- PULL_END (R145). |φ_rem| falls to REF_PULL_DONE, so TSTATE becomes LOCKED. -/
  | pullEnd
  /-- ACQUIRE_LOCK (R148). The frequency error has stayed within 1 ppb for 10 s, so module time steps and TSTATE becomes LOCKED or UNTRACEABLE. -/
  | acquireLock (sec : BitVec 48) (nano : Fin 1000000000)
  /-- PH_WINDOW_END (R132). REF_PH_WINDOW ends in LOCKED and may align monitor time M. -/
  | phWindowEnd
  /-- CORE_SELF_TEST (R160). Every second each core runs its tests and updates its score and faults. -/
  | coreSelfTest (core : Fin 2) (m : CoreMeasure)
  /-- CK_TB_EDGE_MISSING (R163). The output stage sees a missing edge of the active core, and the gap and switch-over begin. -/
  | ckTbEdgeMissing
  /-- SWITCH_GAP_END (R163). The output stage relocks to the new active core, and the gap ends. -/
  | switchGapEnd
  /-- CORE_RECOVER (R161). A fault cause has been absent for COR_RECOVER_TIME, so the core leaves FAILED. -/
  | coreRecover (core : Fin 2)
  /-- CROSSLOCK_SETTLE (R157). The PEER error has stayed within 20 ps for COR_XLOCK_SETTLE, so the core becomes STANDBY. -/
  | crosslockSettle (core : Fin 2)
  /-- CORE_RETURN (R168). In TSTATE FAULT, the first qualifying core loads from the output stage and becomes ACTIVE. -/
  | coreReturn (core : Fin 2)
  /-- NAV_WORD (R189). A navigation word is decoded and delivered as a record. -/
  | navWord (message : Fin 5) (sat : BitVec 8) (checkOk : Bool) (l5 : Bool) (bits : BitVec 8) (time : BitVec 64) (data : List Byte)
  /-- ANT_BIAS_MEASURE (R173). Every 100 ms the bias current is measured, and a SHORT removes the bias. -/
  | antBiasMeasure (ma : BitVec 16)
  /-- ACQ_CELL_FOUND (R175). An acquisition cell exceeds threshold on two dwells, and a channel is assigned. -/
  | acqCellFound (signal : Fin 5) (sat : BitVec 8) (elev : Fin 91) (cell : AcqCell) (first : Nat) (second : Nat)
  /-- CHANNEL_RELEASE (R176). A channel's C/N0 has stayed below GNS_CN0_MIN for 5 s, so it is released. -/
  | channelRelease (signal : Fin 5) (sat : BitVec 8) (cn0 : BitVec 6)
  /-- DUTY_SNAPSHOT (R193). In duty operation, a processed 20 ms snapshot runs every GNS_DUTY_PERIOD. -/
  | dutySnapshot (capture : DutyCapture)
  /-- EVT_EDGE (R196). An enabled event input receives an edge, which is stamped by the vernier or counted MISSED. -/
  | evtEdge (input : Fin 9) (rising : Bool) (tick : Nat) (code : Fin 513)
  /-- CODE_DENSITY_END (R203). A code-density run of a spare vernier unit finishes, and its table is accepted or rejected. -/
  | codeDensityEnd (input : Fin 9) (hits : List Nat) (oor : Nat) (rms : BitVec 16) (delay : BitVec 32)
  /-- VERNIER_UNIT_CHANGE (R203). After 2 µs without an edge, the calibrated spare unit becomes live. -/
  | vernierUnitChange (input : Fin 9)
  /-- CAL_AUTO_TRIGGER (R215). A sensor moves by more than CAL_TEMP_DELTA, and an automatic item is requested. -/
  | calAutoTrigger (kind : Fin 5) (index : Fin 512) (temp : Int)
  /-- CAL_ITEM_END (R211). A calibration item completes, and new constants apply at one edge. -/
  | calItemEnd (kind : Fin 5) (index : Fin 512) (m : CalMeasure)
  /-- TAP_STEP (R210). Each CAL_TAP_INTERVAL a transmit fine-delay tap moves by at most one step. -/
  | tapStep (lane : Fin 512) (now : BitVec 32) (frac : Fin 100)
  /-- TRIM_STEP (R210). Each second an output-driver trim moves by at most one step. -/
  | trimStep (output : Fin 8) (err : Int)
  /-- PORT_RES_UPDATE (R209). Every 1 ms the module recomputes CAL_PORT_RES. -/
  | portResUpdate (temps : List (Fin 512 × Int))
  /-- ARBITRATION_POINT (R388). At each grant slot, each bank grants the highest-ranked eligible requester and gives wickets. -/
  | arbitrationPoint (faults : List (BitVec 26 × Bool))
  /-- SCRATCHPAD_REQUEST (R387). A master requests a burst of a bank, and the range is checked against R384. -/
  | scratchpadRequest (master : Fin 16) (addr : BitVec 26) (write : Bool) (beats : Fin 64) (data : List Byte)
  /-- TAMPER_DETECT (R401). A tamper source is detected in PD0, and a wipe starts. -/
  | tamperDetect (source : Option (Fin 5)) (active : BitVec 5)
  /-- WIPE_COMPLETE (R400). A wipe of bank 31 completes, and the TAMPER_WIPE notice is sent. -/
  | wipeComplete
  /-- HELLO_SEND (R409). Once per second per NHP port, a HELLO is sent. -/
  | helloSend (port : Fin 512)
  /-- HELLO (R410). A HELLO is received, and the port version and candidate parents are updated. -/
  | hello (port : Fin 512) (msg : List Byte)
  /-- HELLO_SILENCE (R411). No HELLO for 3.5 s, so the port is SILENT. -/
  | helloSilence (port : Fin 512)
  /-- JOIN (R413). A JOIN is relayed or handled by the manager. -/
  | join (port : Fin 512) (msg : List Byte)
  /-- JOIN_RETRY (R414). Every 500 ms in JOINING, the JOIN is repeated. -/
  | joinRetry
  /-- JOIN_TIMEOUT (R414). 2 s pass without a JOIN_ACK, so the module returns to SEEKING. -/
  | joinTimeout
  /-- JOIN_ACK (R413). A JOIN_ACK is received from the parent port. -/
  | joinAck (port : Fin 512) (msg : List Byte)
  /-- LEAVE (R413). A LEAVE frees a worker number or descendant entry. -/
  | leave (port : Fin 512) (msg : List Byte)
  /-- STATUS_SEND (R415). Every 1 s a joined worker sends STATUS. -/
  | statusSend
  /-- STATUS (R415). The manager receives STATUS and refreshes an entry or answers REJOIN. -/
  | status (port : Fin 512) (msg : List Byte)
  /-- CLIENT_REPORT (R416). Unicast grants are reported to the manager, periodically or on change. -/
  | clientReport (received : Option (Fin 512 × List Byte))
  /-- REGISTRY_AGEING (R415). An entry not refreshed for HIE_AGE is removed. -/
  | registryAgeing
  /-- TUNNEL_REQ (R419). A tunnel segment is received, and a reassembled packet is handled as an ECP request. -/
  | tunnelReq (port : Fin 512) (msg : List Byte)
  /-- TUNNEL_REPLY (R419). A tunnelled reply segment is received and relayed or returned. -/
  | tunnelReply (port : Fin 512) (msg : List Byte)
  /-- SEGMENT_TIMEOUT (R419). A segment is missing 100 ms after the first, so the packet is discarded. -/
  | segmentTimeout
  /-- MANAGER_LOST (R423). A worker loses its parent by silence or by HELLO, and enters LOST. -/
  | managerLost
  /-- RESET_N_RELEASE (R432). RESET_N is released, and start-up begins at step 4. -/
  | resetNRelease (pins : Fin 8) (heaterA : Bool)
  /-- RESET_N_ASSERT (R432). RESET_N is driven low, and the module resets. -/
  | resetNAssert
  /-- COMMAND_CHANNEL_READY (R25). 1.2 s after reset release, the command channel is ready and the domains are requested. -/
  | commandChannelReady
  /-- RAIL_LOSS (R428). A rail stays outside its band for 10 µs, with the per-rail effect. -/
  | railLoss (rail : Fin 8) (mv : BitVec 16)
  /-- RAIL_RESTORED (R428). A lost rail has been good for 10 ms, so the module restarts or lanes wake. -/
  | railRestored (rail : Fin 8) (mv : BitVec 16) (pins : Fin 8) (heaterA : Bool)
  /-- DIE_TEMPERATURE (R435). A die temperature crosses the warning, shutter or clear level. -/
  | dieTemperature (die : Fin 6) (temp : BitVec 16)
  /-- WATCHDOG_EXPIRY (R435). The forwarding firmware watchdog expires, so the module enters shutter mode. -/
  | watchdogExpiry (fw : Fin 4)
  /-- SHUTTER_CAUSE_CLEAR (R435). A shutter cause's clear condition is met, and the cause leaves the mask. -/
  | shutterCauseClear (cause : Fin 4)
  /-- SHUTTER_ENTERED (R438). PD6 to PD10 are down, so ENTERING becomes SHUTTER. -/
  | shutterEntered
  /-- SHUTTER_LEFT (R438). PD6 to PD10 are good, so LEAVING becomes NORMAL and the fabric may be re-enabled. -/
  | shutterLeft
  /-- KEEL_FRAME (R437). A frame on a keel port in shutter mode is carried by the keel path or discarded. -/
  | keelFrame (port : Fin 512) (rx : Reception) (raw : RawStamp)
  /-- WEAR_SAMPLE (R444). Hourly wear samples update predictions and may raise WEAR_WARN. -/
  | wearSample (kind : Fin 3) (index : Fin 160) (reading : BitVec 32)
  /-- WINDOW_FRAME (R463). A window frame is sent when it holds 45 records, or 10 µs after its first. -/
  | windowFrame
  /-- DOORBELL (R467). A host write to a ring doorbell advances a host-side index. -/
  | doorbell (g : Nat) (index : BitVec 32)
  /-- HOST_TX_FRAME (R474). The module reads a transmit descriptor's frame, stores it in the quay and queues its copies. -/
  | hostTxFrame (q : Fin 64) (slot : List Byte) (data : Option (List Byte))
  /-- HOST_TX_WRITEBACK (R472). A transmit slot's write-back is written when its frame is finished. -/
  | hostTxWriteback (q : Fin 64)
  /-- HOST_RX_DELIVER (R477). A trapped frame is written into the next posted buffer, and its copy is released. -/
  | hostRxDeliver (q : Fin 64) (slot : List Byte)
  /-- MSIX_INTERRUPT (R469). An MSI-X vector is raised after an index move, at most once per moderation time. -/
  | msixInterrupt (v : Fin 64)
  /-- PCIE_LINK_DOWN (R482). The PCIe link goes down or a function-level reset occurs: rings are destroyed and PCIe sessions close. -/
  | pcieLinkDown
  /-- CORE_PARITY_ERROR (R161). A parity error in a core's time count or servo state is a core fault that starts a switch-over or makes TSTATE FAULT. -/
  | coreParityError (core : Fin 2)
  /-- DOMAIN_POWER_GOOD_LOSS (R435). Power-good of PD6, PD7 or PD8 is lost: the fabric goes OFF, the affected reaches' MAC tables are lost and shutter mode is entered with cause RAIL. -/
  | domainPowerGoodLoss (dom : Fin 13)
  /-- VCORE_TRANSITION_END (R243). The measured VCORE first lies within ±15 mV of the new target, so the transition ends, the VCORE band narrows and FAB_PACE_NOW is updated. -/
  | vcoreTransitionEnd (mv : BitVec 10)
  /-- SLICER_STEP (R210). The background eye scan moves a PAM4 slicer threshold by one code between FEC codewords while LAN_SLICER_AUTO is 1. -/
  | slicerStep (lane : Fin 512) (k : Fin 3) (up : Bool)
  /-- SYN_RELOCK (R377). A synthesizer that lost lock regains it after its search, and an output synthesizer drives its output again. -/
  | synRelock (syn : Fin 38)
  /-- PCIE_LINK_UP (R466). The PCIe link finishes training at some width and speed, and the PCIe transport and rings become usable. -/
  | pcieLinkUp (speed : Fin 6) (width : Fin 9) (mps : BitVec 10)
  deriving DecidableEq, Repr

end Sys2Proof
end

