-- ==== Sys2Proof/Decode.lean ====
section
/-! DEFINITION. The commands that words spell. The table of operations and events gives no row a bit, so no word spells one. -/

namespace Sys2Proof

/-- The command that the word `w` of `nbits` bits spells by the table's bits: none, for no row of the table gives bits. The packets of
ECP requests are bytes of a transport's frame (R23, R26), and are read where the command channel takes them in. -/
def decodeTableWord (_nbits _w : Nat) : Option Instr := none

end Sys2Proof
end

