-- ==== Sys2Proof/Config.lean ====
section
/-! DEFINITION. The free values: what the spec leaves open and the machine nevertheless produces. Each is a constant
without a body, so that nothing can be proved of its value; it is applied to the counter of values drawn so far, or
to the operands it depends on. -/

namespace Sys2Proof.Config

/-- The 256-bit value drawn for a nonce or a key seed: a CHALLENGE nonce (R31), a logbook key (R351). -/
opaque random : Nat → BitVec 256

/-- The frequency offset that an oven without a fitted model takes into holdover, in units of 10^-15 (R153). -/
opaque heldOffset : Nat → BitVec 64

/-- The frequency that the servo's second-order loop of damping 1.0 takes, in units of 10^-15, from its bandwidths for phase and frequency in
mHz, the phase in ps, the frequency in ppt and the frequency it steers by (R141): the spec gives no sampling of the loop. -/
opaque loop : Nat × Nat → Int → Int → Int → BitVec 64

/-- Whether a second of learning yields a fit of the holdover model, and its coefficients (R152). -/
opaque fitReady : Nat → Bool
opaque fitY0 : Nat → BitVec 64
opaque fitD : Nat → BitVec 64
opaque fitC : Nat → BitVec 64
opaque fitYu : Nat → BitVec 32
opaque fitDu : Nat → BitVec 32
opaque fitCu : Nat → BitVec 32
opaque fitTm : Nat → BitVec 32

/-- The uncertainty in ps of a leg of the calibration bus, by the kind and number of its item and the delay it serves; it
stands in the factory certificate (R207, R209). -/
opaque legU : Nat → Nat → Nat → BitVec 16

/-- The delay in ps of the same leg, from the factory certificate (R207). -/
opaque legDelay : Nat → Nat → Nat → BitVec 32

/-- The delay in ps that a CTLE code adds to a lane, from the lane's factory certificate (R362). -/
opaque ctleDelay : Nat → Nat → BitVec 32

/-- Whether two VCO frequencies of a synthesizer, as fractions of its reference, lie in one of its bands (R371, R374). -/
opaque sameBand : Nat → Nat × Nat → Nat × Nat → Bool

/-- The sequence number of a link calibration run (R119). -/
opaque runNumber : Nat → BitVec 16

/-- The firmware core that serves an opcode: 0 to 2 for master 8 to 10 (R395). -/
opaque servedBy : Nat → Fin 3

/-- The firmware core and the location in the detail of an INTERNAL_FAULT (R440). -/
opaque faultPlace : Nat → BitVec 16

/-- The VCO frequency of a timebase synthesizer in kHz (R371). -/
opaque timebaseVco : Nat → BitVec 32

/-- The status written back for a host frame that no port has a copy of (R474). -/
opaque emptyStatus : Nat → BitVec 8

/-- The predicted remaining life of an object in months, its lower bound at 90 % confidence, and whether the step rate of a die rather than
its ring oscillators ends it first: the fit of R444, by the object's kind, index, end of life and samples. -/
opaque wearMonths : Nat → Nat → List Nat → List Nat → BitVec 16
opaque wearLower : Nat → Nat → List Nat → List Nat → BitVec 16
opaque wearByStep : Nat → Nat → List Nat → List Nat → Bool

/-- What OPT_TEC_TEMP and OPT_RX_POWER show, by base address, element and true time: measured, and no row delivers it (R368). -/
opaque telemetry : Nat → Nat → Nat → BitVec 16

/-- Which of BAD_INDEX, BAD_VALUE and BAD_LENGTH refuses a PARAM_READ entry with the count 0 (R45, R52). -/
opaque zeroCount : Fin 3

/-- CMD_VIOL_ADDR after a PARAM_COMMIT of a block above the session's privilege, by the block (R35, R53). -/
opaque commitAddr : Nat → BitVec 24

end Sys2Proof.Config
end

