-- ==== Sys2Proof/Machine/Bytes.lean ====
section
/-! DEFINITION. Byte order and bit fields. Every multi-byte field of a packet, frame, record or descriptor of the
module is big-endian unless a chapter says otherwise (R9); a register's raw value is a natural number below
two to its width, and a signed one is two's complement within that width (R509). -/

namespace Sys2Proof.Machine

/-- The number a string of bytes spells, most significant byte first. -/
def be (bs : List Byte) : Nat :=
  bs.foldl (fun a b => a * 256 + b.toNat) 0

/-- The number a string of bytes spells, least significant byte first. -/
def le (bs : List Byte) : Nat :=
  bs.foldr (fun b a => a * 256 + b.toNat) 0

/-- `n` bytes of `v`, least significant first. -/
def toLe : Nat → Nat → List Byte
  | 0, _ => []
  | n + 1, v => BitVec.ofNat 8 v :: toLe n (v / 256)

/-- `n` bytes of `v`, most significant first. -/
def toBe (n v : Nat) : List Byte := (toLe n v).reverse

/-- `n` zero bytes. -/
def zeros (n : Nat) : List Byte := List.replicate n 0

/-- `n` bytes of a string from byte `i` on. -/
def slice (i n : Nat) (bs : List Byte) : List Byte := (bs.drop i).take n

/-- The big-endian field of `n` bytes that begins at byte `i`. -/
def beAt (i n : Nat) (bs : List Byte) : Nat := be (slice i n bs)

/-- A string with the bytes from `i` on replaced by `new`; it keeps its length where `new` lies inside it. -/
def patch (i : Nat) (new bs : List Byte) : List Byte :=
  bs.take i ++ new ++ bs.drop (i + new.length)

/-- A string cut or filled with zeros to `n` bytes. -/
def fit (n : Nat) (bs : List Byte) : List Byte := (bs ++ zeros n).take n

/-- The bits `hi` down to `lo` of a number. -/
def field (hi lo v : Nat) : Nat := v / 2 ^ lo % 2 ^ (hi + 1 - lo)

/-- Bit `i` of a number, as a truth value. -/
def bit (i v : Nat) : Bool := v.testBit i

/-- The number with bit `i` set. -/
def setBit (i v : Nat) : Nat := v ||| 2 ^ i

/-- The number with bit `i` cleared. -/
def clrBit (i v : Nat) : Nat := if v.testBit i then v - 2 ^ i else v

/-- The number with bit `i` as given. -/
def putBit (i : Nat) (b : Bool) (v : Nat) : Nat := if b then setBit i v else clrBit i v

/-- One or zero. -/
def b2n (b : Bool) : Nat := if b then 1 else 0

/-- The raw two's complement value of an integer in a field of `w` bits, cut to the field. -/
def raw (w : Nat) (x : Int) : Nat := (x % (2 ^ w : Nat)).toNat

/-- The integer a raw two's complement field of `w` bits stands for. -/
def sgn (w v : Nat) : Int := if v < 2 ^ (w - 1) then (v : Int) else (v : Int) - (2 ^ w : Nat)

/-- The integer held to what a signed field of `w` bits can hold. -/
def clampS (w : Nat) (x : Int) : Int :=
  max (-(2 ^ (w - 1) : Nat)) (min x ((2 ^ (w - 1) : Nat) - 1))

/-- The number held to what an unsigned field of `w` bits can hold. -/
def clampU (w v : Nat) : Nat := min v (2 ^ w - 1)

/-- Division rounded up. -/
def ceilDiv (a b : Nat) : Nat := (a + b - 1) / b

/-- Division rounded to the nearest integer, halves away from zero upwards. -/
def roundDiv (a : Int) (b : Nat) : Int := (2 * a + b) / (2 * b : Int)

/-- The positions, lowest first, of the set bits below `n`. -/
def setBits (n v : Nat) : List Nat := (List.range n).filter fun i => v.testBit i

/-- The element at `i`, replaced. -/
def setAt {α : Type} (i : Nat) (x : α) : List α → List α
  | [] => []
  | y :: ys => if i = 0 then x :: ys else y :: setAt (i - 1) x ys

/-- The element at `i`, changed by `f`. -/
def modAt {α : Type} (i : Nat) (f : α → α) : List α → List α
  | [] => []
  | y :: ys => if i = 0 then f y :: ys else y :: modAt (i - 1) f ys

end Sys2Proof.Machine
end

