-- ==== Sys2Proof/Machine/Crypto.lean ====
section
/-! DEFINITION. The published functions the module uses: the CRC-32 of IEEE 802.3 (frame check sequence and SPI
framing, R23), the ones' complement check of R27 and R79, SHA-256 of FIPS 180-4 for seals (R346), and Ed25519 of
RFC 8032 with its SHA-512 for proofs (R31) and seal signatures (R349). -/

namespace Sys2Proof.Machine

/-! ## CRC-32 -/

/-- One bit of the reflected CRC-32 division. -/
def crcBit (c : Nat) : Nat :=
  if c % 2 = 1 then (c / 2) ^^^ 0xEDB88320 else c / 2

/-- One byte of the CRC-32. -/
def crcByte (c : Nat) (b : Byte) : Nat :=
  crcBit (crcBit (crcBit (crcBit (crcBit (crcBit (crcBit (crcBit (c ^^^ b.toNat))))))))

/-- The CRC-32 of a string of bytes. -/
def crc32 (bs : List Byte) : Nat := bs.foldl crcByte 0xFFFFFFFF ^^^ 0xFFFFFFFF

/-- The frame check sequence of a frame's bytes, in the order of transmission. -/
def fcsOf (bs : List Byte) : List Byte := toLe 4 (crc32 bs)

/-- A frame's bytes followed by their frame check sequence. -/
def withFcs (bs : List Byte) : List Byte := bs ++ fcsOf bs

/-- Whether the last four bytes of a frame are its frame check sequence. -/
def fcsGood (f : List Byte) : Bool :=
  decide (4 ≤ f.length) && fcsOf (f.take (f.length - 4)) == f.drop (f.length - 4)

/-! ## Ones' complement sums -/

/-- A carry out of bit 15 added back into bit 0. -/
def foldCarry (v : Nat) : Nat := v % 65536 + v / 65536

/-- The sum of the big-endian 16-bit words of a string; an odd last byte stands in the high half of its word. -/
def sumWords : List Byte → Nat
  | [] => 0
  | [a] => a.toNat * 256
  | a :: b :: r => a.toNat * 256 + b.toNat + sumWords r

/-- The ones' complement sum of a string's words. -/
def onesSum (bs : List Byte) : Nat := foldCarry (foldCarry (sumWords bs))

/-- The check word: the ones' complement of the ones' complement sum (R27, R79). -/
def onesCheck (bs : List Byte) : Nat := 65535 - onesSum bs

/-! ## SHA-2 -/

/-- Right rotation of a word of `w` bits. -/
def rotr (w n x : Nat) : Nat := x / 2 ^ n + x % 2 ^ n * 2 ^ (w - n)

/-- The bits of `b` where `a` is set, of `c` where it is not, in a word of `w` bits. -/
def shaCh (w a b c : Nat) : Nat := (a &&& b) ^^^ ((2 ^ w - 1 - a) &&& c)

/-- The majority of three words. -/
def shaMaj (a b c : Nat) : Nat := (a &&& b) ^^^ (a &&& c) ^^^ (b &&& c)

/-- The rotation counts that tell SHA-256 from SHA-512: two sums over the state and two over the schedule. -/
structure ShaKind where
  w : Nat
  rounds : Nat
  s0 : Nat × Nat × Nat
  s1 : Nat × Nat × Nat
  g0 : Nat × Nat × Nat
  g1 : Nat × Nat × Nat
  k : List Nat
  iv : List Nat

/-- A sum of three rotations. -/
def shaSum (w : Nat) (r : Nat × Nat × Nat) (x : Nat) : Nat := rotr w r.1 x ^^^ rotr w r.2.1 x ^^^ rotr w r.2.2 x

/-- A sum of two rotations and a shift. -/
def shaMix (w : Nat) (r : Nat × Nat × Nat) (x : Nat) : Nat := rotr w r.1 x ^^^ rotr w r.2.1 x ^^^ x / 2 ^ r.2.2

/-- The next word of the schedule, from the last sixteen, newest first. -/
def shaNext (K : ShaKind) (ws : List Nat) : Nat :=
  (shaMix K.w K.g1 (ws.getD 1 0) + ws.getD 6 0 + shaMix K.w K.g0 (ws.getD 14 0) + ws.getD 15 0) % 2 ^ K.w

/-- The schedule, newest word first, `n` words longer. -/
def shaExtend (K : ShaKind) : Nat → List Nat → List Nat
  | 0, ws => ws
  | n + 1, ws => shaExtend K n (shaNext K ws :: ws)

/-- One round, on the eight working words. -/
def shaRound (K : ShaKind) (v : List Nat) (kw : Nat × Nat) : List Nat :=
  let a := v.getD 0 0; let b := v.getD 1 0; let c := v.getD 2 0; let d := v.getD 3 0
  let e := v.getD 4 0; let f := v.getD 5 0; let g := v.getD 6 0; let h := v.getD 7 0
  let t1 := h + shaSum K.w K.s1 e + shaCh K.w e f g + kw.1 + kw.2
  let t2 := shaSum K.w K.s0 a + shaMaj a b c
  [(t1 + t2) % 2 ^ K.w, a, b, c, (d + t1) % 2 ^ K.w, e, f, g]

/-- One block of sixteen words. -/
def shaBlock (K : ShaKind) (h ws : List Nat) : List Nat :=
  let sched := (shaExtend K (K.rounds - 16) ws.reverse).reverse
  let v := (K.k.zip sched).foldl (shaRound K) h
  (h.zip v).map fun p => (p.1 + p.2) % 2 ^ K.w

/-- The words of `n` bytes each of a string. -/
def wordsOf (n : Nat) : Nat → List Byte → List Nat
  | 0, _ => []
  | k + 1, bs => be (bs.take n) :: wordsOf n k (bs.drop n)

/-- The blocks of a padded message, `k` of them. -/
def shaBlocks (K : ShaKind) : Nat → List Byte → List Nat → List Nat
  | 0, _, h => h
  | k + 1, bs, h => shaBlocks K k (bs.drop (K.w * 2)) (shaBlock K h (wordsOf (K.w / 8) 16 bs))

/-- The padded message: a one bit, zeros, and the length in bits. -/
def shaPad (K : ShaKind) (bs : List Byte) : List Byte :=
  let blk := K.w * 2
  let lenBytes := K.w / 4
  let z := (blk - (bs.length + 1 + lenBytes) % blk) % blk
  bs ++ [0x80] ++ zeros z ++ toBe lenBytes (bs.length * 8)

/-- The digest of a message. -/
def shaDigest (K : ShaKind) (bs : List Byte) : List Byte :=
  let p := shaPad K bs
  ((shaBlocks K (p.length / (K.w * 2)) p K.iv).map (toBe (K.w / 8))).flatten

/-- The round constants of SHA-256: the fractional parts of the cube roots of the first 64 primes. -/
def sha256K : List Nat :=
  [0x428A2F98, 0x71374491, 0xB5C0FBCF, 0xE9B5DBA5, 0x3956C25B, 0x59F111F1,
   0x923F82A4, 0xAB1C5ED5, 0xD807AA98, 0x12835B01, 0x243185BE, 0x550C7DC3,
   0x72BE5D74, 0x80DEB1FE, 0x9BDC06A7, 0xC19BF174, 0xE49B69C1, 0xEFBE4786,
   0x0FC19DC6, 0x240CA1CC, 0x2DE92C6F, 0x4A7484AA, 0x5CB0A9DC, 0x76F988DA,
   0x983E5152, 0xA831C66D, 0xB00327C8, 0xBF597FC7, 0xC6E00BF3, 0xD5A79147,
   0x06CA6351, 0x14292967, 0x27B70A85, 0x2E1B2138, 0x4D2C6DFC, 0x53380D13,
   0x650A7354, 0x766A0ABB, 0x81C2C92E, 0x92722C85] ++
  [0xA2BFE8A1, 0xA81A664B, 0xC24B8B70, 0xC76C51A3, 0xD192E819, 0xD6990624,
   0xF40E3585, 0x106AA070, 0x19A4C116, 0x1E376C08, 0x2748774C, 0x34B0BCB5,
   0x391C0CB3, 0x4ED8AA4A, 0x5B9CCA4F, 0x682E6FF3, 0x748F82EE, 0x78A5636F,
   0x84C87814, 0x8CC70208, 0x90BEFFFA, 0xA4506CEB, 0xBEF9A3F7, 0xC67178F2]


/-- The initial hash of SHA-256: the fractional parts of the square roots of the first 8 primes. -/
def sha256Iv : List Nat :=
  [0x6A09E667, 0xBB67AE85, 0x3C6EF372, 0xA54FF53A, 0x510E527F, 0x9B05688C,
   0x1F83D9AB, 0x5BE0CD19]


/-- The round constants of SHA-512: the fractional parts of the cube roots of the first 80 primes. -/
def sha512K : List Nat :=
  [0x428A2F98D728AE22, 0x7137449123EF65CD, 0xB5C0FBCFEC4D3B2F, 0xE9B5DBA58189DBBC,
   0x3956C25BF348B538, 0x59F111F1B605D019, 0x923F82A4AF194F9B, 0xAB1C5ED5DA6D8118,
   0xD807AA98A3030242, 0x12835B0145706FBE, 0x243185BE4EE4B28C, 0x550C7DC3D5FFB4E2,
   0x72BE5D74F27B896F, 0x80DEB1FE3B1696B1, 0x9BDC06A725C71235, 0xC19BF174CF692694,
   0xE49B69C19EF14AD2, 0xEFBE4786384F25E3, 0x0FC19DC68B8CD5B5, 0x240CA1CC77AC9C65,
   0x2DE92C6F592B0275, 0x4A7484AA6EA6E483, 0x5CB0A9DCBD41FBD4, 0x76F988DA831153B5,
   0x983E5152EE66DFAB, 0xA831C66D2DB43210, 0xB00327C898FB213F, 0xBF597FC7BEEF0EE4,
   0xC6E00BF33DA88FC2, 0xD5A79147930AA725, 0x06CA6351E003826F, 0x142929670A0E6E70,
   0x27B70A8546D22FFC, 0x2E1B21385C26C926, 0x4D2C6DFC5AC42AED, 0x53380D139D95B3DF,
   0x650A73548BAF63DE, 0x766A0ABB3C77B2A8, 0x81C2C92E47EDAEE6, 0x92722C851482353B] ++
  [0xA2BFE8A14CF10364, 0xA81A664BBC423001, 0xC24B8B70D0F89791, 0xC76C51A30654BE30,
   0xD192E819D6EF5218, 0xD69906245565A910, 0xF40E35855771202A, 0x106AA07032BBD1B8,
   0x19A4C116B8D2D0C8, 0x1E376C085141AB53, 0x2748774CDF8EEB99, 0x34B0BCB5E19B48A8,
   0x391C0CB3C5C95A63, 0x4ED8AA4AE3418ACB, 0x5B9CCA4F7763E373, 0x682E6FF3D6B2B8A3,
   0x748F82EE5DEFB2FC, 0x78A5636F43172F60, 0x84C87814A1F0AB72, 0x8CC702081A6439EC,
   0x90BEFFFA23631E28, 0xA4506CEBDE82BDE9, 0xBEF9A3F7B2C67915, 0xC67178F2E372532B,
   0xCA273ECEEA26619C, 0xD186B8C721C0C207, 0xEADA7DD6CDE0EB1E, 0xF57D4F7FEE6ED178,
   0x06F067AA72176FBA, 0x0A637DC5A2C898A6, 0x113F9804BEF90DAE, 0x1B710B35131C471B,
   0x28DB77F523047D84, 0x32CAAB7B40C72493, 0x3C9EBE0A15C9BEBC, 0x431D67C49C100D4C,
   0x4CC5D4BECB3E42B6, 0x597F299CFC657E2A, 0x5FCB6FAB3AD6FAEC, 0x6C44198C4A475817]


/-- The initial hash of SHA-512: the fractional parts of the square roots of the first 8 primes. -/
def sha512Iv : List Nat :=
  [0x6A09E667F3BCC908, 0xBB67AE8584CAA73B, 0x3C6EF372FE94F82B, 0xA54FF53A5F1D36F1,
   0x510E527FADE682D1, 0x9B05688C2B3E6C1F, 0x1F83D9ABFB41BD6B, 0x5BE0CD19137E2179]


/-- SHA-256 (FIPS 180-4). -/
def sha256Kind : ShaKind :=
  ⟨32, 64, (2, 13, 22), (6, 11, 25), (7, 18, 3), (17, 19, 10), sha256K, sha256Iv⟩

/-- SHA-512, which Ed25519 uses. -/
def sha512Kind : ShaKind :=
  ⟨64, 80, (28, 34, 39), (14, 18, 41), (1, 8, 7), (19, 61, 6), sha512K, sha512Iv⟩

/-- The SHA-256 digest, 32 bytes. -/
def sha256 (bs : List Byte) : List Byte := shaDigest sha256Kind bs

/-- The SHA-512 digest, 64 bytes. -/
def sha512 (bs : List Byte) : List Byte := shaDigest sha512Kind bs

/-! ## Ed25519 -/

/-- The field prime. -/
def edP : Nat := 2 ^ 255 - 19

/-- The order of the base point. -/
def edL : Nat := 2 ^ 252 + 27742317777372353535851937790883648493

/-- Powers modulo `m`, by repeated squaring over at most `fuel` bits of the exponent. -/
def powMod (m : Nat) : Nat → Nat → Nat → Nat
  | 0, _, _ => 1 % m
  | fuel + 1, b, e =>
    if e = 0 then 1 % m
    else
      let h := powMod m fuel (b * b % m) (e / 2)
      if e % 2 = 1 then h * b % m else h

/-- The inverse in the field. -/
def edInv (x : Nat) : Nat := powMod edP 256 x (edP - 2)

/-- The difference in the field. -/
def edSub (x y : Nat) : Nat := (x + edP - y % edP) % edP

/-- The curve constant: minus 121665 over 121666. -/
def edD : Nat := (edP - 121665) * edInv 121666 % edP

/-- A square root of minus one. -/
def edI : Nat := powMod edP 256 2 ((edP - 1) / 4)

/-- A point in extended coordinates. -/
structure EdPoint where
  x : Nat
  y : Nat
  z : Nat
  t : Nat
  deriving DecidableEq, Repr

/-- The sum of two points. -/
def edAdd (p q : EdPoint) : EdPoint :=
  let a := edSub p.y p.x * edSub q.y q.x % edP
  let b := (p.y + p.x) * (q.y + q.x) % edP
  let c := 2 * p.t * q.t * edD % edP
  let d := 2 * p.z * q.z % edP
  let e := edSub b a; let f := edSub d c; let g := (d + c) % edP; let h := (b + a) % edP
  ⟨e * f % edP, g * h % edP, f * g % edP, e * h % edP⟩

/-- The neutral point. -/
def edZero : EdPoint := ⟨0, 1, 1, 0⟩

/-- A multiple of a point, over at most `fuel` bits of the factor. -/
def edMul : Nat → Nat → EdPoint → EdPoint
  | 0, _, _ => edZero
  | fuel + 1, n, p =>
    if n = 0 then edZero
    else
      let r := edMul fuel (n / 2) (edAdd p p)
      if n % 2 = 1 then edAdd r p else r

/-- Whether two points are the same. -/
def edEq (p q : EdPoint) : Bool :=
  decide (p.x * q.z % edP = q.x * p.z % edP ∧ p.y * q.z % edP = q.y * p.z % edP)

/-- The x coordinate of the point with the given y and sign, if there is one. -/
def edRecover (y sign : Nat) : Option Nat :=
  if edP ≤ y then none
  else
    let u := edSub (y * y % edP) 1
    let v := (edD * (y * y % edP) + 1) % edP
    let x2 := u * edInv v % edP
    if x2 = 0 then (if sign = 1 then none else some 0)
    else
      let r := powMod edP 256 x2 ((edP + 3) / 8)
      let x := if r * r % edP = x2 then r else r * edI % edP
      if x * x % edP = x2 then some (if x % 2 = sign then x else edP - x) else none

/-- The point that 32 bytes encode, if any. -/
def edDecode (bs : List Byte) : Option EdPoint :=
  let n := le bs
  let y := n % 2 ^ 255
  (edRecover y (n / 2 ^ 255 % 2)).map fun x => ⟨x, y, 1, x * y % edP⟩

/-- The 32 bytes that encode a point. -/
def edEncode (p : EdPoint) : List Byte :=
  let zi := edInv p.z
  let x := p.x * zi % edP
  let y := p.y * zi % edP
  toLe 32 (y + x % 2 * 2 ^ 255)

/-- The base point, with y equal to four fifths. -/
def edBase : EdPoint :=
  let y := 4 * edInv 5 % edP
  let x := (edRecover y 0).getD 0
  ⟨x, y, 1, x * y % edP⟩

/-- The secret scalar of a key seed. -/
def edScalar (seed : List Byte) : Nat :=
  let n := le ((sha512 seed).take 32)
  n % 2 ^ 254 / 8 * 8 + 2 ^ 254

/-- The public key of a key seed. -/
def edPublic (seed : List Byte) : List Byte := edEncode (edMul 256 (edScalar seed) edBase)

/-- The Ed25519 signature of a message (RFC 8032). -/
def edSign (seed msg : List Byte) : List Byte :=
  let a := edScalar seed
  let pub := edPublic seed
  let r := le (sha512 ((sha512 seed).drop 32 ++ msg)) % edL
  let rEnc := edEncode (edMul 256 r edBase)
  let k := le (sha512 (rEnc ++ pub ++ msg)) % edL
  rEnc ++ toLe 32 ((r + k * a) % edL)

/-- Whether a signature of a message is valid under a public key (RFC 8032). -/
def edVerify (pub msg sig : List Byte) : Bool :=
  match edDecode pub, edDecode (sig.take 32) with
  | some A, some R =>
    let s := le (sig.drop 32)
    let k := le (sha512 (sig.take 32 ++ pub ++ msg)) % edL
    decide (sig.length = 64) && decide (s < edL) &&
      edEq (edMul 256 s edBase) (edAdd R (edMul 256 k A))
  | _, _ => false

end Sys2Proof.Machine
end

