-- ==== Sys2Proof/Machine/ParamTable.lean ====
section
/-! DEFINITION. The parameter map (22_parameter_map.md, R504 to R516, and the parameter table of each chapter):
the base address of every parameter under its own name, and one row per parameter with its elements, width, kind,
reset value and the values its Meaning cell allows. -/

namespace Sys2Proof.Machine

/-- The kind of a parameter (R11). `reserved` is an address in a row the table marks Reserved (R506). -/
inductive Kind where
  | live | commit | halt | ro | w1c | reserved
  deriving DecidableEq, Repr

/-- One row of a parameter table. `reset` lists the reset values of the elements in index order, its last value
standing for all later elements. `ranges` lists the values the Meaning cell allows, as raw unsigned field values,
both ends included; no range at all allows every value of the width. Where the cell differs from element to
element, `perIndex` lists the ranges of each element instead. Values must be multiples of `step`. -/
structure Param where
  base : Nat
  count : Nat
  width : Nat
  kind : Kind
  reset : List Nat
  ranges : List (Nat × Nat)
  step : Nat
  perIndex : List (List (Nat × Nat))
  deriving DecidableEq, Repr

namespace P

/-- SYS_PRODUCT, 16 bits, RO (R516): Product code of the TK-512. -/
abbrev SYS_PRODUCT : Nat := 0x010000
/-- SYS_ISSUE, 8 bits, RO (R516): Ordering issue; 0xC2 for OVT-TK512-C2. -/
abbrev SYS_ISSUE : Nat := 0x010001
/-- SYS_SERIAL, 64 bits, RO (R516): Module serial number. -/
abbrev SYS_SERIAL : Nat := 0x010002
/-- SYS_FW_VERSION, 32 bits, RO (R516): Bits 31:24 major; bits 23:16 minor; bits 15:0 patch. -/
abbrev SYS_FW_VERSION : Nat := 0x010003
/-- SYS_PARAM_COUNT, 12 bits, RO (R516): Total of the name tables (R505). -/
abbrev SYS_PARAM_COUNT : Nat := 0x010004
/-- SYS_UPTIME, 32 bits, RO (R516): Whole seconds since the last release of RESET_N, counted on CK_AON. -/
abbrev SYS_UPTIME : Nat := 0x010005
/-- SYS_CONFIG_GEN, 32 bits, RO (R516): Configuration generation (R517), wrapping. -/
abbrev SYS_CONFIG_GEN : Nat := 0x010006
/-- SYS_SCRATCH[8], 64 bits, LIVE (R516): Free for host software. No effect on the module. -/
abbrev SYS_SCRATCH : Nat := 0x010008
/-- SYS_PPS_WIDTH[2], 19 bits, LIVE (R496): Pulse width of PPS OUT 0 and 1 in µs, 1 to 500,000. Applies from the next pulse. -/
abbrev SYS_PPS_WIDTH : Nat := 0x010020
/-- SYS_PPS_ENABLE[2], 1 bits, LIVE (R496): 0 = output held low. -/
abbrev SYS_PPS_ENABLE : Nat := 0x010022
/-- SYS_10M_ENABLE[2], 1 bits, LIVE (R496): 0 = output held low. -/
abbrev SYS_10M_ENABLE : Nat := 0x010024
/-- CMD_ECP_VERSIONS, 8 bits, RO (R53): Supported versions. Bit n = version n. -/
abbrev CMD_ECP_VERSIONS : Nat := 0x020000
/-- CMD_SESSION_IDLE, 16 bits, LIVE (R53): Idle close time in s, 1 to 3,600. 0 = never. -/
abbrev CMD_SESSION_IDLE : Nat := 0x020001
/-- CMD_MAX_OUTSTANDING, 6 bits, LIVE (R53): 1 to 32. -/
abbrev CMD_MAX_OUTSTANDING : Nat := 0x020002
/-- CMD_MGMT_ENABLE, 1 bits, LIVE (R53): 0 = MGMT transport off and block CMD stopped. 1 = on. -/
abbrev CMD_MGMT_ENABLE : Nat := 0x020003
/-- CMD_MGMT_UDP_PORT, 16 bits, HALT (R53): UDP port for ECP on MGMT. -/
abbrev CMD_MGMT_UDP_PORT : Nat := 0x020004
/-- CMD_MGMT_IP_MODE, 2 bits, HALT (R53): 0 IPv4; 1 IPv6; 2 both; 3 reserved. -/
abbrev CMD_MGMT_IP_MODE : Nat := 0x020005
/-- CMD_MGMT_IPV4_ADDR, 32 bits, HALT (R53): Module IPv4 address. -/
abbrev CMD_MGMT_IPV4_ADDR : Nat := 0x020006
/-- CMD_MGMT_IPV6_ADDR[2], 64 bits, HALT (R53): Index 0 high half, index 1 low half. -/
abbrev CMD_MGMT_IPV6_ADDR : Nat := 0x020008
/-- CMD_CEILING[4], 2 bits, LIVE (R53): 0 OBSERVE; 1 OPERATE; 2 ADMIN; 3 SECURITY. -/
abbrev CMD_CEILING : Nat := 0x02000C
/-- CMD_SESSION_STATE[16], 2 bits, RO (R53): 0 FREE; 1 OPEN; 2 FROZEN; 3 PROVING. -/
abbrev CMD_SESSION_STATE : Nat := 0x020010
/-- CMD_SESSION_PRIV[16], 2 bits, RO (R53): Privilege, coded as CMD_CEILING. -/
abbrev CMD_SESSION_PRIV : Nat := 0x020020
/-- CMD_SESSION_TRANSPORT[16], 2 bits, RO (R53): 0 PCIe; 1 SPI; 2 MGMT; 3 NHP. -/
abbrev CMD_SESSION_TRANSPORT : Nat := 0x020030
/-- CMD_VIOLATION, 16 bits, W1C (R53): Bit n set: session n + 1 has violated. -/
abbrev CMD_VIOLATION : Nat := 0x020040
/-- CMD_VIOL_OPCODE[16], 16 bits, RO (R53): Opcode of the violation. -/
abbrev CMD_VIOL_OPCODE : Nat := 0x020050
/-- CMD_VIOL_TIME[16], 64 bits, RO (R53): Module time in TAI ns. -/
abbrev CMD_VIOL_TIME : Nat := 0x020060
/-- CMD_VIOL_ADDR[16], 24 bits, RO (R53): First parameter address concerned. 0 for opcode violations. -/
abbrev CMD_VIOL_ADDR : Nat := 0x020070
/-- CMD_FASTPATH_COUNT, 48 bits, RO (R53): Requests answered by the fast path. -/
abbrev CMD_FASTPATH_COUNT : Nat := 0x020080
/-- CMD_REFUSED_COUNT, 48 bits, RO (R53): Replies with status 0x0100 or above. -/
abbrev CMD_REFUSED_COUNT : Nat := 0x020081
/-- CMD_DUP_COUNT, 48 bits, RO (R53): Stored replies resent (R41). -/
abbrev CMD_DUP_COUNT : Nat := 0x020082
/-- CMD_NOTICE_DROP, 48 bits, RO (R53): Notices dropped, all sessions. -/
abbrev CMD_NOTICE_DROP : Nat := 0x020083
/-- FAB_STATE, 2 bits, RO (R248): 0 OFF; 1 DISABLED; 2 RUNNING; 3 DRAINING. -/
abbrev FAB_STATE : Nat := 0x100000
/-- FAB_PACE, 2 bits, COMMIT (R248): 0 ECONOMY; 1 NOMINAL; 2 SPRINT; 3 reserved. -/
abbrev FAB_PACE : Nat := 0x100001
/-- FAB_PACE_NOW, 2 bits, RO (R248): 0 ECONOMY; 1 NOMINAL; 2 SPRINT; 3 BETWEEN (R243). -/
abbrev FAB_PACE_NOW : Nat := 0x100002
/-- FAB_VCORE_TARGET, 10 bits, RO (R248): mV. -/
abbrev FAB_VCORE_TARGET : Nat := 0x100003
/-- FAB_VCORE_MEAS, 10 bits, RO (R248): Measured VCORE, mV. -/
abbrev FAB_VCORE_MEAS : Nat := 0x100004
/-- FAB_STEP_RATE, 32 bits, RO (R248): Steps over the last 1 ms, units of 1,000 steps/s. -/
abbrev FAB_STEP_RATE : Nat := 0x100005
/-- FAB_SPEEDUP, 16 bits, RO (R248): Units of 0.001. -/
abbrev FAB_SPEEDUP : Nat := 0x100006
/-- FAB_SPEEDUP_LOW, 16 bits, RO (R248): Lowest 1 ms speedup since reset, units of 0.001. -/
abbrev FAB_SPEEDUP_LOW : Nat := 0x100007
/-- FAB_SPEEDUP_25C, 16 bits, RO (R248): Speedup scaled to 25 °C at present VCORE, units of 0.001. -/
abbrev FAB_SPEEDUP_25C : Nat := 0x100008
/-- FAB_MARGIN_LIMIT, 11 bits, LIVE (R248): Units of 0.001, 1,000 to 1,300. -/
abbrev FAB_MARGIN_LIMIT : Nat := 0x100009
/-- FAB_MARGIN_TIME, 10 bits, LIVE (R248): ms, 1 to 1,000. -/
abbrev FAB_MARGIN_TIME : Nat := 0x10000A
/-- FAB_BALANCE_D, 2 bits, HALT (R248): Depth difference, 1 to 3; 0 reserved. -/
abbrev FAB_BALANCE_D : Nat := 0x10000B
/-- FAB_BASIN_RESERVE, 4 bits, HALT (R248): Buffers per basin queue, 0 to 8. -/
abbrev FAB_BASIN_RESERVE : Nat := 0x10000C
/-- FAB_RESEQ_RESUME, 8 bits, LIVE (R248): Stall ends at this occupancy, 64 to 255. -/
abbrev FAB_RESEQ_RESUME : Nat := 0x10000D
/-- FAB_RESEQ_TIMEOUT, 16 bits, LIVE (R248): Steps, 128 to 65,535. -/
abbrev FAB_RESEQ_TIMEOUT : Nat := 0x10000E
/-- FAB_SHUTTER_DRAIN, 14 bits, LIVE (R248): µs, 0 to 10,000. -/
abbrev FAB_SHUTTER_DRAIN : Nat := 0x10000F
/-- FAB_FLAGS, 5 bits, W1C (R248): Bit 0 PACE_MARGIN; bit 1 BELOW_LINE; bit 2 VCORE_MISMATCH; bit 3 CELL_FAULT; bit 4 RESEQ_SKIP. -/
abbrev FAB_FLAGS : Nat := 0x100010
/-- FAB_ECC_CORR, 48 bits, RO (R248): Corrected basin ECC errors. -/
abbrev FAB_ECC_CORR : Nat := 0x100011
/-- FAB_ECC_UNCORR, 48 bits, RO (R248): Uncorrectable basin ECC errors. -/
abbrev FAB_ECC_UNCORR : Nat := 0x100012
/-- FAB_HDR_ERR, 48 bits, RO (R248): Cells discarded for HCRC. -/
abbrev FAB_HDR_ERR : Nat := 0x100013
/-- FAB_FAULT_FRAMES, 48 bits, RO (R248): Frames discarded at a lost gap (R237). -/
abbrev FAB_FAULT_FRAMES : Nat := 0x100014
/-- FAB_DRAIN_LOST, 48 bits, RO (R248): Frames lost on entry to OFF (R244). -/
abbrev FAB_DRAIN_LOST : Nat := 0x100015
/-- FAB_ABORT_FRAMES, 48 bits, RO (R248): Frames discarded for ABORT. -/
abbrev FAB_ABORT_FRAMES : Nat := 0x100016
/-- FAB_STEP_COUNT, 64 bits, RO (R248): Steps since the last entry to RUNNING from DISABLED. -/
abbrev FAB_STEP_COUNT : Nat := 0x100017
/-- FAB_BASIN_OCC[64], 14 bits, RO (R248): Cells held per basin. -/
abbrev FAB_BASIN_OCC : Nat := 0x100100
/-- FAB_BASIN_PEAK[64], 14 bits, RO (R248): Highest occupancy since reset. -/
abbrev FAB_BASIN_PEAK : Nat := 0x100140
/-- FAB_RESEQ_OCC[64], 9 bits, RO (R248): Parked cells per outlet. -/
abbrev FAB_RESEQ_OCC : Nat := 0x100180
/-- FAB_RESEQ_PEAK[64], 9 bits, RO (R248): Highest parked count since reset. -/
abbrev FAB_RESEQ_PEAK : Nat := 0x1001C0
/-- FAB_RESEQ_STALLS[64], 48 bits, RO (R248): Entries into stall. -/
abbrev FAB_RESEQ_STALLS : Nat := 0x100200
/-- FAB_RESEQ_SKIPS[64], 48 bits, RO (R248): Gaps declared lost. -/
abbrev FAB_RESEQ_SKIPS : Nat := 0x100240
/-- FAB_SLOT_S1[256], 48 bits, RO (R248): Stage 1 bytes per inlet and category. -/
abbrev FAB_SLOT_S1 : Nat := 0x100400
/-- FAB_SLOT_S2[256], 48 bits, RO (R248): Stage 2 bytes per outlet and category. -/
abbrev FAB_SLOT_S2 : Nat := 0x100500
/-- PRT_EXPRESS_CLASSES, 8 bits, LIVE (R267): Bit c set = class c is an express class. -/
abbrev PRT_EXPRESS_CLASSES : Nat := 0x110000
/-- PRT_EXPRESS_COUNT, 6 bits, RO (R267): Ports with PRT_EXPRESS set, 0 to 32. -/
abbrev PRT_EXPRESS_COUNT : Nat := 0x110001
/-- PRT_SLOW_ON, 10 bits, LIVE (R267): Cells, 4 to 1,023. -/
abbrev PRT_SLOW_ON : Nat := 0x110002
/-- PRT_SLOW_OFF, 10 bits, LIVE (R267): Cells, 0 to 1,022, below PRT_SLOW_ON. -/
abbrev PRT_SLOW_OFF : Nat := 0x110003
/-- PRT_STOP_FREE_ON, 13 bits, LIVE (R267): Shared free cells, 8 to 4,096. -/
abbrev PRT_STOP_FREE_ON : Nat := 0x110004
/-- PRT_STOP_FREE_OFF, 13 bits, LIVE (R267): Shared free cells, 16 to 6,144, above PRT_STOP_FREE_ON. -/
abbrev PRT_STOP_FREE_OFF : Nat := 0x110005
/-- PRT_FIFO_XOFF, 17 bits, LIVE (R267): Bytes, 4,096 to 61,440. -/
abbrev PRT_FIFO_XOFF : Nat := 0x110006
/-- PRT_FIFO_XON, 17 bits, LIVE (R267): Bytes, 0 to 57,344, below PRT_FIFO_XOFF. -/
abbrev PRT_FIFO_XON : Nat := 0x110007
/-- PRT_EGQ_STOP[8], 26 bits, LIVE (R267): Bytes per class, 16,384 to 33,554,432. -/
abbrev PRT_EGQ_STOP : Nat := 0x110008
/-- PRT_EGQ_RESUME[8], 26 bits, LIVE (R267): Bytes per class, below PRT_EGQ_STOP. -/
abbrev PRT_EGQ_RESUME : Nat := 0x110010
/-- PRT_PFC_QUANTA, 16 bits, LIVE (R267): Quanta in XOFF frames, 1 to 0xFFFF. -/
abbrev PRT_PFC_QUANTA : Nat := 0x110018
/-- PRT_HEADROOM_SUM, 32 bits, RO (R267): Bytes (R264). -/
abbrev PRT_HEADROOM_SUM : Nat := 0x110019
/-- PRT_HEADROOM_POOL, 32 bits, RO (R267): Bytes (R264). -/
abbrev PRT_HEADROOM_POOL : Nat := 0x11001A
/-- PRT_FLAGS, 3 bits, W1C (R267): Bit 0 HEADROOM_DEFICIT; bit 1 OVERRUN; bit 2 STOMP_SEEN. -/
abbrev PRT_FLAGS : Nat := 0x11001B
/-- PRT_PCP_MAP[8], 3 bits, LIVE (R267): Class for PCP 0 to 7. -/
abbrev PRT_PCP_MAP : Nat := 0x110020
/-- PRT_LANES[512], 4 bits, COMMIT (R267): 0 not a lowest lane; 1, 2, 4, 8 lanes; others reserved. -/
abbrev PRT_LANES : Nat := 0x110200
/-- PRT_FEC[512], 1 bits, COMMIT (R267): 0 FEC per R249; 1 no FEC (25.78125 Gb/s only). -/
abbrev PRT_FEC : Nat := 0x110400
/-- PRT_MAX_FRAME[512], 14 bits, COMMIT (R267): Bytes, 1,518 to 9,728. -/
abbrev PRT_MAX_FRAME : Nat := 0x110600
/-- PRT_EXPRESS[512], 1 bits, COMMIT (R267): 1 = frames of the port are express-eligible. -/
abbrev PRT_EXPRESS : Nat := 0x110800
/-- PRT_CLASS_SRC[512], 1 bits, LIVE (R267): 0 Stream table; 1 PCP. -/
abbrev PRT_CLASS_SRC : Nat := 0x110A00
/-- PRT_DEFAULT_PCP[512], 3 bits, LIVE (R267): PCP of untagged frames. -/
abbrev PRT_DEFAULT_PCP : Nat := 0x110C00
/-- PRT_FC_MODE[512], 1 bits, COMMIT (R267): 0 PFC; 1 PAUSE. -/
abbrev PRT_FC_MODE : Nat := 0x110E00
/-- PRT_FIBRE_LEN[512], 15 bits, LIVE (R267): m, 0 to 20,000. -/
abbrev PRT_FIBRE_LEN : Nat := 0x111000
/-- PRT_PARTNER_RESP[512], 16 bits, LIVE (R267): ns, 0 to 60,000. -/
abbrev PRT_PARTNER_RESP : Nat := 0x111200
/-- PRT_HEADROOM[512], 32 bits, RO (R267): H_p in bytes. -/
abbrev PRT_HEADROOM : Nat := 0x111400
/-- PRT_LINK_UP[512], 1 bits, RO (R267): 1 = link up. -/
abbrev PRT_LINK_UP : Nat := 0x111600
/-- PRT_RX_FCS_ERR[512], 48 bits, RO (R267): R254. -/
abbrev PRT_RX_FCS_ERR : Nat := 0x111800
/-- PRT_RX_RUNT[512], 48 bits, RO (R267): R254. -/
abbrev PRT_RX_RUNT : Nat := 0x111A00
/-- PRT_RX_OVERSIZE[512], 48 bits, RO (R267): R254. -/
abbrev PRT_RX_OVERSIZE : Nat := 0x111C00
/-- PRT_RX_OVERRUN[512], 48 bits, RO (R267): R260. -/
abbrev PRT_RX_OVERRUN : Nat := 0x111E00
/-- PRT_RX_STOMP[512], 48 bits, RO (R267): Express FCS failures at ingress. -/
abbrev PRT_RX_STOMP : Nat := 0x112000
/-- PRT_TX_STOMP[512], 48 bits, RO (R267): Stomped frames sent. -/
abbrev PRT_TX_STOMP : Nat := 0x112200
/-- PRT_EXPRESS_DEMOTED[512], 48 bits, RO (R267): R255. -/
abbrev PRT_EXPRESS_DEMOTED : Nat := 0x112400
/-- PRT_LINKDOWN_DROP[512], 48 bits, RO (R267): R265. -/
abbrev PRT_LINKDOWN_DROP : Nat := 0x112600
/-- PRT_TX_OVERSIZE[512], 48 bits, RO (R267): R265. -/
abbrev PRT_TX_OVERSIZE : Nat := 0x112800
/-- PRT_PFC_TX_XOFF[4096], 48 bits, RO (R267): XOFF sent per port and class. -/
abbrev PRT_PFC_TX_XOFF : Nat := 0x114000
/-- PRT_PFC_RX_XOFF[4096], 48 bits, RO (R267): XOFF received per port and class. -/
abbrev PRT_PFC_RX_XOFF : Nat := 0x115000
/-- PRT_EGQ_BYTES[4096], 26 bits, RO (R267): Egress queue occupancy, bytes. -/
abbrev PRT_EGQ_BYTES : Nat := 0x116000
/-- BUF_WARN1[5], 10 bits, LIVE (R282): 0.1 %, 100 to 990, below BUF_WARN2. -/
abbrev BUF_WARN1 : Nat := 0x120000
/-- BUF_WARN2[5], 10 bits, LIVE (R282): 0.1 %, 100 to 995, below BUF_STOP. -/
abbrev BUF_WARN2 : Nat := 0x120008
/-- BUF_STOP[5], 10 bits, LIVE (R282): 0.1 %, 100 to 1,000. -/
abbrev BUF_STOP : Nat := 0x120010
/-- BUF_HYST[5], 9 bits, LIVE (R282): 0.1 %, 10 to 500, below BUF_WARN1. -/
abbrev BUF_HYST : Nat := 0x120018
/-- BUF_COUNT[5], 17 bits, RO (R282): N_k. -/
abbrev BUF_COUNT : Nat := 0x120020
/-- BUF_SIZE[4], 14 bits, RO (R282): Buffer size, bytes. -/
abbrev BUF_SIZE : Nat := 0x120028
/-- BUF_HELD[5], 17 bits, RO (R282): H_k. -/
abbrev BUF_HELD : Nat := 0x120030
/-- BUF_PEAK[5], 17 bits, RO (R282): Highest H_k since reset. -/
abbrev BUF_PEAK : Nat := 0x120038
/-- BUF_SIGNALS[5], 3 bits, RO (R282): Bit 0 WARN1; bit 1 WARN2; bit 2 STOP. -/
abbrev BUF_SIGNALS : Nat := 0x120040
/-- BUF_ALLOC[5], 48 bits, RO (R282): Allocations. -/
abbrev BUF_ALLOC : Nat := 0x120048
/-- BUF_SPILL[4], 48 bits, RO (R282): Frames placed in a larger pool (R270). -/
abbrev BUF_SPILL : Nat := 0x120050
/-- BUF_ALLOC_STALL, 48 bits, RO (R282): Entries into allocation stall. -/
abbrev BUF_ALLOC_STALL : Nat := 0x120058
/-- BUF_DOUBLE_FREE, 48 bits, RO (R282): Double frees refused. -/
abbrev BUF_DOUBLE_FREE : Nat := 0x120059
/-- BUF_QUARANTINED, 17 bits, RO (R282): Buffers quarantined. -/
abbrev BUF_QUARANTINED : Nat := 0x12005A
/-- BUF_FLAGS, 4 bits, W1C (R282): Bit 0 DOUBLE_FREE; bit 1 QUARANTINE; bit 2 ALLOC_STALL; bit 3 STOP_SEEN. -/
abbrev BUF_FLAGS : Nat := 0x12005B
/-- BUF_DF_POOL, 2 bits, RO (R282): Pool of the recorded double free. -/
abbrev BUF_DF_POOL : Nat := 0x120060
/-- BUF_DF_INDEX, 16 bits, RO (R282): Buffer index within the pool. -/
abbrev BUF_DF_INDEX : Nat := 0x120061
/-- BUF_DF_AGENT, 16 bits, RO (R282): Agent code (R273). -/
abbrev BUF_DF_AGENT : Nat := 0x120062
/-- BUF_DF_TIME, 64 bits, RO (R282): Module time, TAI ns. -/
abbrev BUF_DF_TIME : Nat := 0x120063
/-- TBL_AGE_TIME, 16 bits, LIVE (R309): s, 10 to 65,535; 0 = no ageing. -/
abbrev TBL_AGE_TIME : Nat := 0x130000
/-- TBL_MOVE_WINDOW, 20 bits, LIVE (R309): µs, 10 to 1,000,000. -/
abbrev TBL_MOVE_WINDOW : Nat := 0x130001
/-- TBL_LEARN_HOLD, 7 bits, LIVE (R309): µs, 1 to 100. -/
abbrev TBL_LEARN_HOLD : Nat := 0x130002
/-- TBL_CUCKOO_MAX, 8 bits, LIVE (R309): Displacements per placement, 8 to 255. -/
abbrev TBL_CUCKOO_MAX : Nat := 0x130003
/-- TBL_NOTICE_GAP, 10 bits, LIVE (R309): ms, 1 to 1,000. -/
abbrev TBL_NOTICE_GAP : Nat := 0x130004
/-- TBL_FLAGS, 4 bits, W1C (R309): Bit 0 LEARN_FAIL; bit 1 FLAPPING_SEEN; bit 2 REHASH_ABORTED; bit 3 STREAM_ECC. -/
abbrev TBL_FLAGS : Nat := 0x130005
/-- TBL_EPOCH[8], 16 bits, RO (R309): Epoch of each reach. -/
abbrev TBL_EPOCH : Nat := 0x130008
/-- TBL_OCCUPANCY[8], 19 bits, RO (R309): Entries, stash included, 0 to 262,152. -/
abbrev TBL_OCCUPANCY : Nat := 0x130010
/-- TBL_STASH_USED[8], 4 bits, RO (R309): 0 to 8. -/
abbrev TBL_STASH_USED : Nat := 0x130018
/-- TBL_SEED[8], 32 bits, RO (R309): Present seed. -/
abbrev TBL_SEED : Nat := 0x130020
/-- TBL_SEED_OLD[8], 32 bits, RO (R309): Seed replaced by the last TBL_REHASH. -/
abbrev TBL_SEED_OLD : Nat := 0x130028
/-- TBL_REHASH_STATE[8], 2 bits, RO (R309): 0 IDLE; 1 RUNNING; 2 MIXED; 3 reserved. -/
abbrev TBL_REHASH_STATE : Nat := 0x130030
/-- TBL_REHASH_CURSOR[8], 19 bits, RO (R309): Next slot of the walk. -/
abbrev TBL_REHASH_CURSOR : Nat := 0x130038
/-- TBL_DISPLACE_SEQ[8], 32 bits, RO (R309): Displacements, wrapping. -/
abbrev TBL_DISPLACE_SEQ : Nat := 0x130040
/-- TBL_FENCE_PENDING[8], 32 bits, RO (R309): Frames holding the oldest pending fence. -/
abbrev TBL_FENCE_PENDING : Nat := 0x130048
/-- TBL_FENCE_AGE[8], 32 bits, RO (R309): µs since the oldest pending fence began. -/
abbrev TBL_FENCE_AGE : Nat := 0x130050
/-- TBL_LEARNS[8], 48 bits, RO (R309): Learns applied. -/
abbrev TBL_LEARNS : Nat := 0x130058
/-- TBL_LEARN_FAIL[8], 48 bits, RO (R309): Learns lost for lack of room. -/
abbrev TBL_LEARN_FAIL : Nat := 0x130060
/-- TBL_LEARN_DROP[8], 48 bits, RO (R309): Requests dropped, learn engine full. -/
abbrev TBL_LEARN_DROP : Nat := 0x130068
/-- TBL_LEARN_STALE[8], 48 bits, RO (R309): Learns older than LAST_STAMP. -/
abbrev TBL_LEARN_STALE : Nat := 0x130070
/-- TBL_LEARN_SUPPR[8], 48 bits, RO (R309): Learns suppressed by a flush. -/
abbrev TBL_LEARN_SUPPR : Nat := 0x130078
/-- TBL_MOVES[8], 48 bits, RO (R309): Station moves. -/
abbrev TBL_MOVES : Nat := 0x130080
/-- TBL_MOVE_REFUSED[8], 48 bits, RO (R309): Moves refused for STATIC or FLAPPING. -/
abbrev TBL_MOVE_REFUSED : Nat := 0x130088
/-- TBL_AGED[8], 48 bits, RO (R309): Entries removed by ageing. -/
abbrev TBL_AGED : Nat := 0x130090
/-- TBL_HAIRPIN[8], 48 bits, RO (R309): Frames sent back out of the ingress port. -/
abbrev TBL_HAIRPIN : Nat := 0x130098
/-- TBL_STREAM_ECC, 48 bits, RO (R309): Uncorrectable Stream entry copies. -/
abbrev TBL_STREAM_ECC : Nat := 0x1300A0
/-- TBL_GEN[8], 1 bits, RO (R309): Generation bit of each reach; complemented at the start of each new TBL_REHASH (R306). -/
abbrev TBL_GEN : Nat := 0x1300A8
/-- TBL_PORT_GROUP[512], 4 bits, COMMIT (R309): Port group 0 to 15. -/
abbrev TBL_PORT_GROUP : Nat := 0x130200
/-- TBL_PVID[512], 12 bits, COMMIT (R309): VID of untagged and priority-tagged frames, 1 to 4,095; 0 reserved. -/
abbrev TBL_PVID : Nat := 0x130400
/-- TBL_LEARN_EN[512], 1 bits, LIVE (R309): 1 = frames of the port are learned from. -/
abbrev TBL_LEARN_EN : Nat := 0x130600
/-- LCK_FLAGS, 4 bits, W1C (R333): Bit 0 SWAP_LATE; bit 1 LATE_SEEN; bit 2 SWITCH_DELAYED; bit 3 GATE_OVERRUN. -/
abbrev LCK_FLAGS : Nat := 0x140000
/-- LCK_MIRROR_HOLD, 14 bits, LIVE (R333): Hold limit of mirror copies, µs, 1 to 10,000. -/
abbrev LCK_MIRROR_HOLD : Nat := 0x140001
/-- LCK_NO_MEMBER, 48 bits, RO (R333): Frames with no copy (R313). -/
abbrev LCK_NO_MEMBER : Nat := 0x140002
/-- LCK_LATE_CAUSE[4], 48 bits, RO (R333): Late copies by cause index (R324). -/
abbrev LCK_LATE_CAUSE : Nat := 0x140004
/-- LCK_SEL_PORT[16], 9 bits, LIVE (R333): Port whose banks the session reaches. -/
abbrev LCK_SEL_PORT : Nat := 0x140010
/-- LCK_ADM_ENTRY[1024], 40 bits, LIVE (R333): Administrative entries of the selected port (R326). -/
abbrev LCK_ADM_ENTRY : Nat := 0x140400
/-- LCK_OPR_ENTRY[1024], 40 bits, RO (R333): Operational entries of the selected port. -/
abbrev LCK_OPR_ENTRY : Nat := 0x140800
/-- LCK_ADM_CYCLE[512], 30 bits, LIVE (R333): Cycle time, ns, 1,000 to 1,000,000,000. -/
abbrev LCK_ADM_CYCLE : Nat := 0x141000
/-- LCK_ADM_BASE[512], 64 bits, LIVE (R333): Base time, TAI ns count. -/
abbrev LCK_ADM_BASE : Nat := 0x141200
/-- LCK_ADM_COUNT[512], 11 bits, LIVE (R333): Entries, 0 to 1,024; 0 = all gates open. -/
abbrev LCK_ADM_COUNT : Nat := 0x141400
/-- LCK_OPR_CYCLE[512], 30 bits, RO (R333): Operational cycle time, ns. -/
abbrev LCK_OPR_CYCLE : Nat := 0x141600
/-- LCK_OPR_BASE[512], 64 bits, RO (R333): Operational base time, TAI ns. -/
abbrev LCK_OPR_BASE : Nat := 0x141800
/-- LCK_OPR_COUNT[512], 11 bits, RO (R333): Operational entries. -/
abbrev LCK_OPR_COUNT : Nat := 0x141A00
/-- LCK_SWAP_TIME[512], 64 bits, LIVE (R333): Swap time, TAI ns. 0 = none pending (R330). -/
abbrev LCK_SWAP_TIME : Nat := 0x141C00
/-- LCK_SWAP_STATE[512], 2 bits, RO (R333): 0 IDLE; 1 PENDING; 2 COPYING; 3 reserved. -/
abbrev LCK_SWAP_STATE : Nat := 0x141E00
/-- LCK_FIBRE_SRC[512], 1 bits, COMMIT (R333): 0 operator; 1 measured (R320). -/
abbrev LCK_FIBRE_SRC : Nat := 0x142000
/-- LCK_FIBRE_COMP[512], 23 bits, COMMIT (R333): C_p in units of 10 ps, 0 to 5,000,000. -/
abbrev LCK_FIBRE_COMP : Nat := 0x142200
/-- LCK_FIBRE_ASYM[512], 32 bits, COMMIT (R333): A of the link in ps, signed. -/
abbrev LCK_FIBRE_ASYM : Nat := 0x142400
/-- LCK_FIBRE_USED[512], 23 bits, RO (R333): C_p in use, units of 10 ps. -/
abbrev LCK_FIBRE_USED : Nat := 0x142600
/-- LCK_TXPATH[512], 32 bits, RO (R333): D_p in ps. -/
abbrev LCK_TXPATH : Nat := 0x142800
/-- LCK_WINDOW[512], 16 bits, RO (R333): Release window in ps (R319). -/
abbrev LCK_WINDOW : Nat := 0x142A00
/-- LCK_RELEASES[512], 48 bits, RO (R333): Lock copies launched on time. -/
abbrev LCK_RELEASES : Nat := 0x142C00
/-- LCK_LATE[512], 48 bits, RO (R333): Late lock copies. -/
abbrev LCK_LATE : Nat := 0x142E00
/-- LCK_COPY_ABANDON[512], 48 bits, RO (R333): Copies abandoned (R315, R324). -/
abbrev LCK_COPY_ABANDON : Nat := 0x143000
/-- LCK_SWITCH_DELAY[512], 48 bits, RO (R333): Copies deferred by a switch-over gap (R331). -/
abbrev LCK_SWITCH_DELAY : Nat := 0x143200
/-- LCK_GATE_OVERRUN[512], 48 bits, RO (R333): Frames started by R328. -/
abbrev LCK_GATE_OVERRUN : Nat := 0x143400
/-- LCK_PORT_FLAGS[512], 1 bits, RO (R333): Bit 0 FIBRE_STALE. -/
abbrev LCK_PORT_FLAGS : Nat := 0x143600
/-- LCK_MC_GROUP[16384], 32 bits, LIVE (R333): Multicast group entry (R311): set 0, limit 100 µs. -/
abbrev LCK_MC_GROUP : Nat := 0x144000
/-- LCK_GROUP[16384], 64 bits, LIVE (R333): Lock group entry (R311): set 2,047, hold 500 ns, limit 100 µs, SEND_LATE. -/
abbrev LCK_GROUP : Nat := 0x148000
/-- LCK_PORTSET[16384], 64 bits, LIVE (R333): Port-set words (R310). Set 2,047 writes refused. -/
abbrev LCK_PORTSET : Nat := 0x14C000
/-- TBS_BOUND_LIMIT, 32 bits, LIVE (R89): Compliance line in ps, 1,000 to 3,600,000,000. -/
abbrev TBS_BOUND_LIMIT : Nat := 0x200000
/-- TBS_UTC_OFFSET, 16 bits, COMMIT (R89): TAI − UTC in s, signed. -/
abbrev TBS_UTC_OFFSET : Nat := 0x200001
/-- TBS_UTC_SOURCE, 2 bits, LIVE (R89): 0 GNSS; 1 operator; 2 upstream NHP; 3 reserved. -/
abbrev TBS_UTC_SOURCE : Nat := 0x200002
/-- TBS_LEAP, 2 bits, COMMIT (R89): 0 none; 1 day of 86,401 s; 2 day of 86,399 s; 3 reserved. The module sets it to 0 after the leap. -/
abbrev TBS_LEAP : Nat := 0x200003
/-- TBS_UTC_VALID, 1 bits, RO (R89): 1 = the named source has supplied the offset. -/
abbrev TBS_UTC_VALID : Nat := 0x200004
/-- TBS_SET_REQ, 1 bits, COMMIT (R89): 1 = apply TBS_SET_SEC at commit (R57). The module sets it to 0 after the commit. -/
abbrev TBS_SET_REQ : Nat := 0x200005
/-- TBS_SET_SEC, 48 bits, COMMIT (R89): Seconds for a set in FREERUN. -/
abbrev TBS_SET_SEC : Nat := 0x200006
/-- TBS_EPOCH, 64 bits, RO (R89): TAI ns count at the last wrap of the low 32 bits. -/
abbrev TBS_EPOCH : Nat := 0x200008
/-- TBS_EPOCH_SEC, 48 bits, RO (R89): Seconds at the last wrap. -/
abbrev TBS_EPOCH_SEC : Nat := 0x200009
/-- TBS_EPOCH_AGE, 32 bits, RO (R89): Low 32 bits of the TAI ns count at the read. -/
abbrev TBS_EPOCH_AGE : Nat := 0x20000A
/-- TBS_GNSS_K, 8 bits, LIVE (R89): K × 16, 16 to 96 (K = 1.0 to 6.0). -/
abbrev TBS_GNSS_K : Nat := 0x200010
/-- TBS_SWITCH_WIDEN, 16 bits, LIVE (R89): B_sw in ps, 0 to 10,000. -/
abbrev TBS_SWITCH_WIDEN : Nat := 0x200011
/-- TBS_FREE_Q, 16 bits, RO (R89): Free-class port term in ps. -/
abbrev TBS_FREE_Q : Nat := 0x200012
/-- TBS_BOUND_NOW, 8 bits, RO (R89): Code of B_mod at the last 1 ms update. -/
abbrev TBS_BOUND_NOW : Nat := 0x200013
/-- TBS_BOUND_PS, 32 bits, RO (R89): B_mod in ps. 0xFFFF_FFFF = no valid bound. -/
abbrev TBS_BOUND_PS : Nat := 0x200014
/-- TBS_DOM_LINK[2], 3 bits, COMMIT (R89): 0 none; 3 to 6 reference index; 1, 2 and 7 reserved. -/
abbrev TBS_DOM_LINK : Nat := 0x200018
/-- TBS_DOM_OFFSET[2], 64 bits, RO (R89): Domain minus module time in ps, signed. -/
abbrev TBS_DOM_OFFSET : Nat := 0x20001A
/-- TBS_DOM_BOUND[2], 8 bits, RO (R89): Bound code of the offset. -/
abbrev TBS_DOM_BOUND : Nat := 0x20001C
/-- TBS_DOM_SELECTED, 2 bits, RO (R89): 0 domain 0; 1 domain 1; 2 neither; 3 reserved. -/
abbrev TBS_DOM_SELECTED : Nat := 0x20001E
/-- TBS_OVW_OFFSET[8], 14 bits, LIVE (R89): Byte offset from the destination MAC. 0 = profile unused; otherwise 14 to 9,716. -/
abbrev TBS_OVW_OFFSET : Nat := 0x200020
/-- TBS_OVW_FORMAT[8], 3 bits, LIVE (R89): Bits 1:0 format: 0 10 bytes; 1 8 bytes; 2 11 bytes; 3 12 bytes. Bit 2 source: 0 ingress; 1 egress. -/
abbrev TBS_OVW_FORMAT : Nat := 0x200028
/-- TBS_PTP_ENABLE, 1 bits, LIVE (R89): 0 = PTP mode changes no frame. -/
abbrev TBS_PTP_ENABLE : Nat := 0x200030
/-- TBS_PTP_SKIP, 48 bits, RO (R89): PTP messages left unchanged (R77). -/
abbrev TBS_PTP_SKIP : Nat := 0x200040
/-- TBS_TRAILER_SKIP, 48 bits, RO (R89): Frames sent without a trailer (R80). -/
abbrev TBS_TRAILER_SKIP : Nat := 0x200041
/-- TBS_OVW_SKIP, 48 bits, RO (R89): Frames sent without an overwrite stamp (R82). -/
abbrev TBS_OVW_SKIP : Nat := 0x200042
/-- TBS_OVER_LIMIT_COUNT, 48 bits, RO (R89): Stamps marked OVER_LIMIT, all ports, receive and transmit. -/
abbrev TBS_OVER_LIMIT_COUNT : Nat := 0x200043
/-- LNK_SYNC_RATE, 8 bits, LIVE (R126): TSYNC per second: 1, 2, 4, 8, 16, 32, 64 or 128. -/
abbrev LNK_SYNC_RATE : Nat := 0x210000
/-- LNK_RESP_TIMEOUT, 8 bits, LIVE (R126): ms, 1 to 100. -/
abbrev LNK_RESP_TIMEOUT : Nat := 0x210001
/-- LNK_RT_JUMP, 16 bits, LIVE (R126): ps, 10 to 10,000. -/
abbrev LNK_RT_JUMP : Nat := 0x210002
/-- LNK_MEAS_N, 9 bits, LIVE (R126): Exchanges, 4 to 256. -/
abbrev LNK_MEAS_N : Nat := 0x210003
/-- LNK_DISCARD_MAX, 5 bits, LIVE (R126): 1 to 16. -/
abbrev LNK_DISCARD_MAX : Nat := 0x210004
/-- LNK_DDMTD_AVG, 4 bits, COMMIT (R126): Averaging of 2^n beats, 0 to 10. -/
abbrev LNK_DDMTD_AVG : Nat := 0x210005
/-- LNK_DDMTD_GLITCH, 11 bits, COMMIT (R126): Helper cycles, 8 to 1,024. -/
abbrev LNK_DDMTD_GLITCH : Nat := 0x210006
/-- LNK_DDMTD_SETTLE, 16 bits, LIVE (R126): ms, 10 to 10,000. -/
abbrev LNK_DDMTD_SETTLE : Nat := 0x210007
/-- LNK_DDMTD_SLEW, 16 bits, LIVE (R126): ps/s, 10 to 10,000. -/
abbrev LNK_DDMTD_SLEW : Nat := 0x210008
/-- LNK_SLIP_WIDEN, 16 bits, LIVE (R126): ps, 0 to 10,000. -/
abbrev LNK_SLIP_WIDEN : Nat := 0x210009
/-- LNK_SLIP_HOLD, 16 bits, LIVE (R126): ms, 0 to 60,000. -/
abbrev LNK_SLIP_HOLD : Nat := 0x21000A
/-- LNK_HOP_MARGIN, 16 bits, LIVE (R126): ps, 0 to 1,000. -/
abbrev LNK_HOP_MARGIN : Nat := 0x21000B
/-- LNK_ASYM_UNCAL_PPM, 14 bits, LIVE (R126): ppm of the one-way delay, 0 to 10,000. -/
abbrev LNK_ASYM_UNCAL_PPM : Nat := 0x21000C
/-- LNK_ACAL_INPUT, 4 bits, LIVE (R126): 0 CAL IN; 1 to 8 EVT IN 0 to 7; 9 to 15 reserved. -/
abbrev LNK_ACAL_INPUT : Nat := 0x21000D
/-- LNK_ACAL_PATH, 32 bits, LIVE (R126): Path delay to that input in ps, signed. -/
abbrev LNK_ACAL_PATH : Nat := 0x21000E
/-- LNK_ACAL_PATH_U, 16 bits, LIVE (R126): Uncertainty of the path delay in ps. -/
abbrev LNK_ACAL_PATH_U : Nat := 0x21000F
/-- LNK_ACAL_N, 16 bits, LIVE (R126): Pulses per run, 16 to 4,096. -/
abbrev LNK_ACAL_N : Nat := 0x210010
/-- LNK_PTP_DOMAIN, 8 bits, LIVE (R126): domainNumber, 0 to 127; 128 to 255 reserved. -/
abbrev LNK_PTP_DOMAIN : Nat := 0x210011
/-- LNK_PTP_PRIO1, 8 bits, LIVE (R126): priority1. -/
abbrev LNK_PTP_PRIO1 : Nat := 0x210012
/-- LNK_PTP_PRIO2, 8 bits, LIVE (R126): priority2. -/
abbrev LNK_PTP_PRIO2 : Nat := 0x210013
/-- LNK_PTP_LOG_SYNC, 4 bits, LIVE (R126): Signed, −7 to 1; reset −4. -/
abbrev LNK_PTP_LOG_SYNC : Nat := 0x210014
/-- LNK_PTP_LOG_ANN, 4 bits, LIVE (R126): Signed, −3 to 3. -/
abbrev LNK_PTP_LOG_ANN : Nat := 0x210015
/-- LNK_PTP_GRANT_MAX, 16 bits, LIVE (R126): s, 10 to 1,000. -/
abbrev LNK_PTP_GRANT_MAX : Nat := 0x210016
/-- LNK_PTP_UNICAST, 13 bits, RO (R126): Clients holding grants, 0 to 4,096. -/
abbrev LNK_PTP_UNICAST : Nat := 0x210017
/-- LNK_PTP_REFUSED, 48 bits, RO (R126): Grants refused (R123). -/
abbrev LNK_PTP_REFUSED : Nat := 0x210018
/-- LNK_CLASS[128], 1 bits, COMMIT (R126): 0 free; 1 locked. -/
abbrev LNK_CLASS : Nat := 0x210080
/-- LNK_ROLE[512], 2 bits, COMMIT (R126): 0 NONE; 1 TIME_IN; 2 TIME_OUT; 3 reserved. -/
abbrev LNK_ROLE : Nat := 0x210200
/-- LNK_ASYM[512], 32 bits, COMMIT (R126): A in ps, signed. Kept in flash (R116). -/
abbrev LNK_ASYM : Nat := 0x210400
/-- LNK_ASYM_RES[512], 16 bits, COMMIT (R126): Time-error term in ps. 0xFFFF = uncalibrated. Kept in flash (R116). -/
abbrev LNK_ASYM_RES : Nat := 0x210600
/-- LNK_STATE[512], 3 bits, RO (R126): 0 DOWN; 1 SYNTONIZING; 2 MEASURING; 3 TRACKING; 4 REMEASURE; 5 to 7 reserved. -/
abbrev LNK_STATE : Nat := 0x210800
/-- LNK_FLAGS[512], 6 bits, RO (R126): Bit 0 ROLE_CONFLICT; bit 1 FREQ_RANGE; bit 2 DDMTD_INVALID; bit 3 SLIP_SUSPECT; bit 4 HOP_LIMIT; bit 5 UNCAL. -/
abbrev LNK_FLAGS : Nat := 0x210A00
/-- LNK_RT[512], 64 bits, RO (R126): Last accepted δ_rt in ps. -/
abbrev LNK_RT : Nat := 0x210C00
/-- LNK_OFFSET[512], 64 bits, RO (R126): θ(t) in ps, signed. TIME_IN ports only. -/
abbrev LNK_OFFSET : Nat := 0x210E00
/-- LNK_BEVT[512], 16 bits, RO (R126): B_evt in ps. -/
abbrev LNK_BEVT : Nat := 0x211000
/-- LNK_DISCARDS[512], 48 bits, RO (R126): Exchanges discarded (R108). -/
abbrev LNK_DISCARDS : Nat := 0x211200
/-- LNK_PHASE[512], 14 bits, RO (R126): Averaged DDMTD phase, units of 2,000/16,384 ps. -/
abbrev LNK_PHASE : Nat := 0x211400
/-- LNK_PTP_PORT_EN[512], 2 bits, LIVE (R126): 0 off; 1 E2E; 2 P2P; 3 reserved. -/
abbrev LNK_PTP_PORT_EN : Nat := 0x211600
/-- REF_TSTATE, 3 bits, RO (R155): 0 FREERUN; 1 ACQUIRE; 2 LOCKED; 3 PULLING; 4 HOLDOVER; 5 HOLDOVER_LATE; 6 UNTRACEABLE; 7 FAULT. -/
abbrev REF_TSTATE : Nat := 0x220000
/-- REF_ACTIVE, 4 bits, RO (R155): Active reference or pull target, 0 to 6; 8 = none. -/
abbrev REF_ACTIVE : Nat := 0x220001
/-- REF_PINS, 3 bits, RO (R155): REFSEL value acted on (R138); 7 with the pins unconnected. -/
abbrev REF_PINS : Nat := 0x220002
/-- REF_TIME_SET, 1 bits, RO (R155): 1 after the first-lock step. -/
abbrev REF_TIME_SET : Nat := 0x220003
/-- REF_PHASE_SLOPE, 14 bits, LIVE (R155): Units of 0.1 ns/s, 1 to 10,000 (0.1 ns/s to 1,000 ns/s). -/
abbrev REF_PHASE_SLOPE : Nat := 0x220004
/-- REF_FREQ_SLOPE, 16 bits, RO (R155): ppt/s. -/
abbrev REF_FREQ_SLOPE : Nat := 0x220005
/-- REF_JUMP_POLICY, 1 bits, LIVE (R155): 0 CONFIRM; 1 HOLD_FOR_COMMAND. -/
abbrev REF_JUMP_POLICY : Nat := 0x220006
/-- REF_CONFIRM_TIME, 16 bits, LIVE (R155): s, 10 to 3,600. -/
abbrev REF_CONFIRM_TIME : Nat := 0x220007
/-- REF_WTR, 16 bits, LIVE (R155): s, 0 to 3,600. -/
abbrev REF_WTR : Nat := 0x220008
/-- REF_DRIFT_FRAC, 7 bits, LIVE (R155): %, 10 to 90. -/
abbrev REF_DRIFT_FRAC : Nat := 0x220009
/-- REF_PIN_DEBOUNCE, 10 bits, LIVE (R155): ms, 1 to 1,000. -/
abbrev REF_PIN_DEBOUNCE : Nat := 0x22000A
/-- REF_PPS_FREERUN, 1 bits, LIVE (R155): 1 = PPS pulses before the first lock (R143). -/
abbrev REF_PPS_FREERUN : Nat := 0x22000B
/-- REF_PH_WINDOW, 16 bits, LIVE (R155): s, 60 to 3,600. -/
abbrev REF_PH_WINDOW : Nat := 0x22000C
/-- REF_PULL_DONE, 14 bits, LIVE (R155): ps, 10 to 10,000. -/
abbrev REF_PULL_DONE : Nat := 0x22000D
/-- REF_ACT_MISS, 4 bits, LIVE (R155): Missed pulses or seconds, 1 to 15. -/
abbrev REF_ACT_MISS : Nat := 0x22000E
/-- REF_PULL_REM, 64 bits, RO (R155): φ_rem in ps, signed. -/
abbrev REF_PULL_REM : Nat := 0x22000F
/-- REF_BW[4], 17 bits, COMMIT (R155): mHz. Index 0 GNSS, 1 to 100; 1 EXT PPS, 10 to 1,000; 2 EXT 10 MHz, 100 to 10,000; 3 LINK, 1,000 to 100,000. -/
abbrev REF_BW : Nat := 0x220010
/-- REF_LINK_PORT[4], 10 bits, COMMIT (R155): Port 0 to 511 for LINK0 to LINK3; 1,023 = none; 512 to 1,022 reserved. -/
abbrev REF_LINK_PORT : Nat := 0x220018
/-- REF_EXT_MODE[2], 2 bits, COMMIT (R155): 0 PPS and 10 MHz; 1 PPS only; 2 10 MHz only; 3 off. -/
abbrev REF_EXT_MODE : Nat := 0x22001C
/-- REF_EXT_BOUND[2], 32 bits, LIVE (R155): Declared bound of the external reference in ps. 0xFFFF_FFFF = none. -/
abbrev REF_EXT_BOUND : Nat := 0x22001E
/-- REF_PRIO[8], 4 bits, LIVE (R155): 1 highest to 15 lowest; 0 = not taken in AUTO. Index 7 accepts only 0. -/
abbrev REF_PRIO : Nat := 0x220020
/-- REF_HOLDOFF[8], 16 bits, LIVE (R155): Units of 0.1 s, 1 to 36,000. Index 7 ignored. -/
abbrev REF_HOLDOFF : Nat := 0x220028
/-- REF_FREQ_ACCEPT[8], 15 bits, LIVE (R155): ppb, 10 to 10,000. -/
abbrev REF_FREQ_ACCEPT : Nat := 0x220030
/-- REF_FREQ_REJECT[8], 15 bits, LIVE (R155): ppb, 20 to 20,000, above accept. -/
abbrev REF_FREQ_REJECT : Nat := 0x220038
/-- REF_PH_ACCEPT[8], 32 bits, LIVE (R155): ps, 1,000 to 1,000,000. -/
abbrev REF_PH_ACCEPT : Nat := 0x220040
/-- REF_PH_REJECT[8], 32 bits, LIVE (R155): ps, 2,000 to 10,000,000, above accept. -/
abbrev REF_PH_REJECT : Nat := 0x220048
/-- REF_QSTATE[8], 3 bits, RO (R155): 0 ABSENT; 1 QUALIFYING; 2 QUALIFIED; 3 PHASE_SUSPECT; 4 HELD; 5 DISQUALIFIED; 6 NOT_CONFIGURED; 7 reserved. -/
abbrev REF_QSTATE : Nat := 0x220050
/-- REF_KIND[8], 2 bits, RO (R155): 0 none; 1 time; 2 frequency-only; 3 reserved. -/
abbrev REF_KIND : Nat := 0x220058
/-- REF_FREQ[8], 32 bits, RO (R155): Fractional frequency in ppt, signed. -/
abbrev REF_FREQ : Nat := 0x220060
/-- REF_PHASE[8], 64 bits, RO (R155): φ_r in ps, signed. -/
abbrev REF_PHASE : Nat := 0x220068
/-- REF_DEV[8], 64 bits, RO (R155): δ_r in ps, signed. -/
abbrev REF_DEV : Nat := 0x220070
/-- REF_BREF[8], 32 bits, RO (R155): B_ref in ps. 0xFFFF_FFFF = none. -/
abbrev REF_BREF : Nat := 0x220078
/-- REF_HOLDOFF_LEFT[8], 16 bits, RO (R155): Units of 0.1 s. -/
abbrev REF_HOLDOFF_LEFT : Nat := 0x220080
/-- REF_WTR_LEFT, 16 bits, RO (R155): s. -/
abbrev REF_WTR_LEFT : Nat := 0x220088
/-- REF_FLAGS, 6 bits, W1C (R155): Bit 0 DRIFT; bit 1 ACTIVE_LOST; bit 2 PHASE_JUMP; bit 3 RETARGET; bit 4 HOLDOVER_ENTERED; bit 5 LATE_ENTERED. -/
abbrev REF_FLAGS : Nat := 0x220089
/-- REF_RESERVED[6], 0 bits, RESERVED (R155): —. -/
abbrev REF_RESERVED : Nat := 0x22008A
/-- REF_HO_Y0[2], 64 bits, RO (R155): y₀ in units of 10⁻¹⁵, signed. -/
abbrev REF_HO_Y0 : Nat := 0x220090
/-- REF_HO_D[2], 64 bits, RO (R155): D in units of 10⁻²¹ per s, signed. -/
abbrev REF_HO_D : Nat := 0x220092
/-- REF_HO_C[2], 64 bits, RO (R155): C in units of 10⁻¹⁵ per K, signed. -/
abbrev REF_HO_C : Nat := 0x220094
/-- REF_HO_YU[2], 32 bits, RO (R155): Fitted y_u, 10⁻¹⁵. -/
abbrev REF_HO_YU : Nat := 0x220096
/-- REF_HO_DU[2], 32 bits, RO (R155): Fitted D_u, 10⁻²¹ per s. -/
abbrev REF_HO_DU : Nat := 0x220098
/-- REF_HO_CU[2], 32 bits, RO (R155): Fitted C_u, 10⁻¹⁵ per K. -/
abbrev REF_HO_CU : Nat := 0x22009A
/-- REF_HO_LEARNED[2], 18 bits, RO (R155): s of LOCKED data in the window, at most 259,200. -/
abbrev REF_HO_LEARNED : Nat := 0x22009C
/-- REF_HO_TMEAN[2], 32 bits, RO (R155): T_m in mK. -/
abbrev REF_HO_TMEAN : Nat := 0x22009E
/-- REF_HO_YU0, 32 bits, LIVE (R155): Pre-learning y_u, 10⁻¹⁵. -/
abbrev REF_HO_YU0 : Nat := 0x2200A0
/-- REF_HO_DU0, 32 bits, LIVE (R155): Pre-learning D_u, 10⁻²¹ per s. -/
abbrev REF_HO_DU0 : Nat := 0x2200A1
/-- REF_HO_CU0, 32 bits, LIVE (R155): Pre-learning C_u, 10⁻¹⁵ per K. -/
abbrev REF_HO_CU0 : Nat := 0x2200A2
/-- REF_DISQ_COUNT[8], 48 bits, RO (R155): Disqualifications of each reference. -/
abbrev REF_DISQ_COUNT : Nat := 0x2200A8
/-- REF_SWLOG_HEAD, 6 bits, RO (R155): Next entry to be written. -/
abbrev REF_SWLOG_HEAD : Nat := 0x2200C0
/-- REF_SWLOG_TIME[64], 64 bits, RO (R155): Module time of the event, TAI ns. -/
abbrev REF_SWLOG_TIME : Nat := 0x220100
/-- REF_SWLOG_INFO[64], 32 bits, RO (R155): Event word (R149). -/
abbrev REF_SWLOG_INFO : Nat := 0x220140
/-- COR_ACTIVE, 1 bits, RO (R169): 0 core A; 1 core B. Same as CORE_ACT. -/
abbrev COR_ACTIVE : Nat := 0x230000
/-- COR_STATE[2], 3 bits, RO (R169): 0 OFF; 1 WARMING; 2 CROSSLOCKING; 3 STANDBY; 4 ACTIVE; 5 FAILED; 6, 7 reserved. -/
abbrev COR_STATE : Nat := 0x230001
/-- COR_SCORE[2], 7 bits, RO (R169): 0 to 100. -/
abbrev COR_SCORE : Nat := 0x230003
/-- COR_MIN_SCORE, 7 bits, LIVE (R169): 0 to 100. -/
abbrev COR_MIN_SCORE : Nat := 0x230005
/-- COR_XLOCK_BW, 16 bits, COMMIT (R169): Hz, 1 to 1,000. -/
abbrev COR_XLOCK_BW : Nat := 0x230006
/-- COR_XLOCK_SETTLE, 16 bits, LIVE (R169): s, 1 to 600. -/
abbrev COR_XLOCK_SETTLE : Nat := 0x230007
/-- COR_RECOVER_TIME, 16 bits, LIVE (R169): s, 10 to 3,600. -/
abbrev COR_RECOVER_TIME : Nat := 0x230008
/-- COR_OVEN_MARG, 16 bits, LIVE (R169): mK, 10 to 1,000. -/
abbrev COR_OVEN_MARG : Nat := 0x230009
/-- COR_OVEN_FAIL, 16 bits, LIVE (R169): mK, 20 to 5,000, above COR_OVEN_MARG. -/
abbrev COR_OVEN_FAIL : Nat := 0x23000A
/-- COR_SHADOW_TOL, 8 bits, LIVE (R169): ps, 1 to 100. -/
abbrev COR_SHADOW_TOL : Nat := 0x23000B
/-- COR_PEER_ERR[2], 32 bits, RO (R169): ps, signed. -/
abbrev COR_PEER_ERR : Nat := 0x23000C
/-- COR_SWITCH_COUNT, 48 bits, RO (R169): Switch-overs since reset. -/
abbrev COR_SWITCH_COUNT : Nat := 0x23000E
/-- COR_LAST_CAUSE, 3 bits, RO (R169): Cause of the last switch-over, coded as in CORE_SWITCHED. -/
abbrev COR_LAST_CAUSE : Nat := 0x23000F
/-- COR_FLAGS, 3 bits, W1C (R169): Bit 0 FAILED_A; bit 1 FAILED_B; bit 2 DISAGREE. -/
abbrev COR_FLAGS : Nat := 0x230010
/-- COR_TEST_RESULT[10], 2 bits, RO (R169): Index 5 × core + test id; coded as in CORE_HEALTH. -/
abbrev COR_TEST_RESULT : Nat := 0x230020
/-- COR_SHADOW_MISMATCH[512], 48 bits, RO (R169): Mismatches per stamp unit. -/
abbrev COR_SHADOW_MISMATCH : Nat := 0x230200
/-- GNS_ENABLE, 1 bits, COMMIT (R194): 0 receiver off; reference 0 NOT_CONFIGURED. -/
abbrev GNS_ENABLE : Nat := 0x240000
/-- GNS_SIGNALS, 5 bits, HALT (R194): Bitmap per R170. -/
abbrev GNS_SIGNALS : Nat := 0x240001
/-- GNS_ANT_BIAS, 2 bits, LIVE (R194): 0 off; 1 3.3 V; 2 5 V; 3 reserved. -/
abbrev GNS_ANT_BIAS : Nat := 0x240002
/-- GNS_ANT_STATUS, 2 bits, RO (R194): 0 UNPOWERED; 1 OK; 2 OPEN; 3 SHORT. -/
abbrev GNS_ANT_STATUS : Nat := 0x240003
/-- GNS_ANT_DELAY, 32 bits, LIVE (R194): ps, signed. -/
abbrev GNS_ANT_DELAY : Nat := 0x240004
/-- GNS_ANT_U, 32 bits, LIVE (R194): ps, 0 to 1,000,000. -/
abbrev GNS_ANT_U : Nat := 0x240005
/-- GNS_TIME_CORR, 32 bits, LIVE (R194): ps, signed. -/
abbrev GNS_TIME_CORR : Nat := 0x240006
/-- GNS_ELEV_MASK, 7 bits, LIVE (R194): Degrees, 0 to 60. -/
abbrev GNS_ELEV_MASK : Nat := 0x240007
/-- GNS_CN0_MIN, 6 bits, LIVE (R194): dB-Hz, 15 to 45. -/
abbrev GNS_CN0_MIN : Nat := 0x240008
/-- GNS_ACQ_DOPPLER, 16 bits, LIVE (R194): Hz, 1,000 to 20,000. -/
abbrev GNS_ACQ_DOPPLER : Nat := 0x240009
/-- GNS_ACQ_THRESH, 5 bits, LIVE (R194): dB, 6 to 24. -/
abbrev GNS_ACQ_THRESH : Nat := 0x24000A
/-- GNS_MIN_SATS, 4 bits, LIVE (R194): 1 to 12. -/
abbrev GNS_MIN_SATS : Nat := 0x24000B
/-- GNS_SIGMA_MAX, 32 bits, LIVE (R194): ps, 1,000 to 1,000,000. -/
abbrev GNS_SIGMA_MAX : Nat := 0x24000C
/-- GNS_POS_MODE, 1 bits, COMMIT (R194): 0 SURVEY; 1 FIXED. -/
abbrev GNS_POS_MODE : Nat := 0x240010
/-- GNS_FIX_X, 64 bits, COMMIT (R194): ECEF mm, signed. -/
abbrev GNS_FIX_X : Nat := 0x240011
/-- GNS_FIX_Y, 64 bits, COMMIT (R194): ECEF mm, signed. -/
abbrev GNS_FIX_Y : Nat := 0x240012
/-- GNS_FIX_Z, 64 bits, COMMIT (R194): ECEF mm, signed. -/
abbrev GNS_FIX_Z : Nat := 0x240013
/-- GNS_SURVEY_TIME, 20 bits, COMMIT (R194): s, 600 to 604,800. -/
abbrev GNS_SURVEY_TIME : Nat := 0x240014
/-- GNS_SURVEY_RESUME, 16 bits, LIVE (R194): s, 0 to 65,535. -/
abbrev GNS_SURVEY_RESUME : Nat := 0x240015
/-- GNS_SURVEY_TOL, 32 bits, LIVE (R194): mm, 100 to 1,000,000. -/
abbrev GNS_SURVEY_TOL : Nat := 0x240016
/-- GNS_SURVEY_STATE, 2 bits, RO (R194): 0 RUNNING; 1 PAUSED; 2 COMPLETE; 3 NONE (FIXED). -/
abbrev GNS_SURVEY_STATE : Nat := 0x240017
/-- GNS_SURVEY_DONE, 20 bits, RO (R194): s accumulated. -/
abbrev GNS_SURVEY_DONE : Nat := 0x240018
/-- GNS_SURVEY_RESTARTS, 48 bits, RO (R194): Restarts by R182. -/
abbrev GNS_SURVEY_RESTARTS : Nat := 0x240019
/-- GNS_SURV_X, 64 bits, RO (R194): Surveyed mean, ECEF mm, signed. -/
abbrev GNS_SURV_X : Nat := 0x24001A
/-- GNS_SURV_Y, 64 bits, RO (R194): Surveyed mean, ECEF mm, signed. -/
abbrev GNS_SURV_Y : Nat := 0x24001B
/-- GNS_SURV_Z, 64 bits, RO (R194): Surveyed mean, ECEF mm, signed. -/
abbrev GNS_SURV_Z : Nat := 0x24001C
/-- GNS_SURV_SIGMA, 32 bits, RO (R194): Standard error of the mean, mm. -/
abbrev GNS_SURV_SIGMA : Nat := 0x24001D
/-- GNS_RING, 8 bits, LIVE (R194): Event ring for records, 0 to 15; 0xFF = none; 16 to 254 reserved, refused with BAD_VALUE. -/
abbrev GNS_RING : Nat := 0x240020
/-- GNS_LAST_PULSE[4], 64 bits, RO (R194): Latest GNS_PULSE, bytes 0 to 31 in index order. -/
abbrev GNS_LAST_PULSE : Nat := 0x240021
/-- GNS_SNAP_OFFSET, 64 bits, RO (R194): ps, signed (R191). -/
abbrev GNS_SNAP_OFFSET : Nat := 0x240028
/-- GNS_SPOOF_TOL, 32 bits, LIVE (R194): ps, 1,000 to 10,000,000. -/
abbrev GNS_SPOOF_TOL : Nat := 0x240029
/-- GNS_SPOOF_ACTION, 1 bits, LIVE (R194): 0 flag only; 1 invalidate pulses. -/
abbrev GNS_SPOOF_ACTION : Nat := 0x24002A
/-- GNS_FLAGS, 3 bits, W1C (R194): Bit 0 SPOOF_SUSPECT; bit 1 ANT_SHORT; bit 2 SURVEY_RESTARTED. -/
abbrev GNS_FLAGS : Nat := 0x24002B
/-- GNS_SHUTTER_DUTY, 1 bits, LIVE (R194): 0 continuous; 1 duty operation. -/
abbrev GNS_SHUTTER_DUTY : Nat := 0x24002C
/-- GNS_DUTY_PERIOD, 16 bits, LIVE (R194): s, 10 to 3,600. -/
abbrev GNS_DUTY_PERIOD : Nat := 0x24002D
/-- GNS_SATS_TRACKED, 7 bits, RO (R194): Channels in use, 0 to 64. -/
abbrev GNS_SATS_TRACKED : Nat := 0x240030
/-- EVT_ENABLE[9], 1 bits, LIVE (R219): 1 = input stamps edges. -/
abbrev EVT_ENABLE : Nat := 0x250000
/-- EVT_MODE[8], 2 bits, LIVE (R219): 0 single-ended; 1 differential (even index only); 2, 3 reserved. -/
abbrev EVT_MODE : Nat := 0x250010
/-- EVT_THRESH[9], 11 bits, LIVE (R219): mV, 100 to 2,000, multiple of 10. -/
abbrev EVT_THRESH : Nat := 0x250018
/-- EVT_EDGE[9], 2 bits, LIVE (R219): 0 rising; 1 falling; 2 both; 3 reserved. -/
abbrev EVT_EDGE : Nat := 0x250028
/-- EVT_RING[9], 8 bits, LIVE (R219): Event ring 0 to 15; 0xFF = none; 16 to 254 reserved, refused with BAD_VALUE. -/
abbrev EVT_RING : Nat := 0x250038
/-- EVT_MISSED[9], 48 bits, RO (R219): Edges in dead time. -/
abbrev EVT_MISSED : Nat := 0x250048
/-- EVT_COUNT[9], 48 bits, RO (R219): Edges stamped. -/
abbrev EVT_COUNT : Nat := 0x250058
/-- EVT_OOR[9], 48 bits, RO (R219): OUT_OF_RANGE conversions. -/
abbrev EVT_OOR : Nat := 0x250068
/-- EVT_RES[9], 16 bits, RO (R219): Residual, ps. -/
abbrev EVT_RES : Nat := 0x250078
/-- EVT_LIVE_UNIT[9], 1 bits, RO (R219): Live unit. -/
abbrev EVT_LIVE_UNIT : Nat := 0x250088
/-- EVT_INL[18], 16 bits, RO (R219): inl_max, 0.1 ps. -/
abbrev EVT_INL : Nat := 0x250098
/-- EVT_SS_RMS[18], 16 bits, RO (R219): Single-shot rms, 0.1 ps. -/
abbrev EVT_SS_RMS : Nat := 0x2500B0
/-- EVT_CD_HITS, 5 bits, LIVE (R219): log2 of hits, 20 to 26. -/
abbrev EVT_CD_HITS : Nat := 0x2500C8
/-- EVT_INL_MAX, 16 bits, LIVE (R219): 0.1 ps, 10 to 1,000. -/
abbrev EVT_INL_MAX : Nat := 0x2500C9
/-- EVT_PAIR_WIN, 20 bits, LIVE (R219): µs, 1 to 1,000,000. -/
abbrev EVT_PAIR_WIN : Nat := 0x2500CA
/-- EVT_FLAGS, 2 bits, W1C (R219): Bit 0 TABLE_REJECTED; bit 1 OUT_OF_RANGE seen. -/
abbrev EVT_FLAGS : Nat := 0x2500CB
/-- EVT_ACC_MODE[8], 2 bits, COMMIT (R219): 0 off; 1 PERIOD; 2 PAIR; 3 PPS. -/
abbrev EVT_ACC_MODE : Nat := 0x2500D0
/-- EVT_ACC_A[8], 4 bits, COMMIT (R219): Input 0 to 8; 9 to 15 reserved. -/
abbrev EVT_ACC_A : Nat := 0x2500D8
/-- EVT_ACC_B[8], 4 bits, COMMIT (R219): Input 0 to 8, used in PAIR. -/
abbrev EVT_ACC_B : Nat := 0x2500E0
/-- EVT_ACC_N[8], 33 bits, COMMIT (R219): Samples, 2 to 2^32. -/
abbrev EVT_ACC_N : Nat := 0x2500E8
/-- EVT_CD_WIDTH[9216], 16 bits, RO (R219): Bin width, 0.001 ps; index 512 × unit + code. -/
abbrev EVT_CD_WIDTH : Nat := 0x251000
/-- CAL_TEMP_DELTA, 8 bits, LIVE (R220): 0.1 °C, 5 to 200. -/
abbrev CAL_TEMP_DELTA : Nat := 0x260000
/-- CAL_AUTO_ENABLE, 1 bits, LIVE (R220): 1 = temperature-triggered runs. -/
abbrev CAL_AUTO_ENABLE : Nat := 0x260001
/-- CAL_AUTO_LANES, 6 bits, LIVE (R220): 1 to 32. -/
abbrev CAL_AUTO_LANES : Nat := 0x260002
/-- CAL_LANE_MS, 10 bits, LIVE (R220): ms per lane item, 5 to 1,000. -/
abbrev CAL_LANE_MS : Nat := 0x260003
/-- CAL_N, 16 bits, LIVE (R220): Samples per item, 16 to 65,535. -/
abbrev CAL_N : Nat := 0x260004
/-- CAL_TEMP_U, 8 bits, LIVE (R220): 0.1 ps/°C, 0 to 100. -/
abbrev CAL_TEMP_U : Nat := 0x260005
/-- CAL_PILOT_LEVEL, 6 bits, LIVE (R220): dB below signal, 15 to 40. -/
abbrev CAL_PILOT_LEVEL : Nat := 0x260006
/-- CAL_TAP_INTERVAL, 10 bits, LIVE (R220): ms, 1 to 1,000. -/
abbrev CAL_TAP_INTERVAL : Nat := 0x260007
/-- CAL_IN_CABLE, 32 bits, LIVE (R220): ps, signed. -/
abbrev CAL_IN_CABLE : Nat := 0x260008
/-- CAL_REF_U, 32 bits, LIVE (R220): ps; 0xFFFF_FFFF = undeclared, TRACE answered NOT_READY. -/
abbrev CAL_REF_U : Nat := 0x260009
/-- CAL_FREQ_SRC, 2 bits, LIVE (R220): 0 none; 1 REF A FREQ; 2 REF B FREQ; 3 reserved. -/
abbrev CAL_FREQ_SRC : Nat := 0x26000A
/-- CAL_TRACE_N, 10 bits, LIVE (R220): Pulses, 10 to 1,000. -/
abbrev CAL_TRACE_N : Nat := 0x26000B
/-- CAL_BUSY, 1 bits, RO (R220): 1 while any item runs. -/
abbrev CAL_BUSY : Nat := 0x26000C
/-- CAL_STARTUP_DONE, 1 bits, RO (R220): R214. -/
abbrev CAL_STARTUP_DONE : Nat := 0x26000D
/-- CAL_FLAGS, 4 bits, W1C (R220): Bit 0 CERT_INVALID; bit 1 TXFD_LIMIT; bit 2 TRIM_LIMIT; bit 3 ITEM_FAILED. -/
abbrev CAL_FLAGS : Nat := 0x26000E
/-- CAL_TRACE_OFFSET, 64 bits, RO (R220): ps, signed. -/
abbrev CAL_TRACE_OFFSET : Nat := 0x260010
/-- CAL_TRACE_FREQ, 32 bits, RO (R220): ppt, signed. -/
abbrev CAL_TRACE_FREQ : Nat := 0x260011
/-- CAL_TRACE_U, 32 bits, RO (R220): ps. -/
abbrev CAL_TRACE_U : Nat := 0x260012
/-- CAL_TRACE_TIME, 64 bits, RO (R220): Module time of the last TRACE, TAI ns. -/
abbrev CAL_TRACE_TIME : Nat := 0x260013
/-- CAL_OUT_TRIM[8], 8 bits, RO (R220): Steps of 5 ps. -/
abbrev CAL_OUT_TRIM : Nat := 0x260020
/-- CAL_OUT_RES[8], 16 bits, RO (R220): ps. -/
abbrev CAL_OUT_RES : Nat := 0x260028
/-- CAL_REFIN_DELAY[4], 32 bits, RO (R220): ps. -/
abbrev CAL_REFIN_DELAY : Nat := 0x260030
/-- CAL_REFIN_RES[4], 16 bits, RO (R220): ps. -/
abbrev CAL_REFIN_RES : Nat := 0x260034
/-- CAL_EVT_DELAY[9], 32 bits, RO (R220): D_evt of the live unit, ps. -/
abbrev CAL_EVT_DELAY : Nat := 0x260040
/-- CAL_DRX[512], 32 bits, RO (R220): D_rx, ps. -/
abbrev CAL_DRX : Nat := 0x261000
/-- CAL_DTX[512], 32 bits, RO (R220): D_tx, ps. -/
abbrev CAL_DTX : Nat := 0x261200
/-- CAL_TXFD[512], 9 bits, RO (R220): Fine-delay tap. -/
abbrev CAL_TXFD : Nat := 0x261400
/-- CAL_EYE_W[512], 10 bits, RO (R220): mUI. -/
abbrev CAL_EYE_W : Nat := 0x261600
/-- CAL_EYE_H[512], 10 bits, RO (R220): mV. -/
abbrev CAL_EYE_H : Nat := 0x261800
/-- CAL_PORT_RES[512], 16 bits, RO (R220): ps. -/
abbrev CAL_PORT_RES : Nat := 0x261A00
/-- CAL_LANE_TCAL[512], 16 bits, RO (R220): T_cal, 0.1 °C, signed. -/
abbrev CAL_LANE_TCAL : Nat := 0x261C00
/-- LAN_REALIGN_TIME, 16 bits, LIVE (R379): µs, 10 to 10,000. -/
abbrev LAN_REALIGN_TIME : Nat := 0x300000
/-- LAN_FAMILY[32], 2 bits, RO (R379): 0 P; 1 N25; 2 N10; 3 reserved. -/
abbrev LAN_FAMILY : Nat := 0x300020
/-- LAN_RATE[128], 3 bits, COMMIT (R379): Rate code of R356; 5 to 7 reserved. -/
abbrev LAN_RATE : Nat := 0x300080
/-- LAN_ALIGN[128], 2 bits, COMMIT (R379): 0 SLIP_AUTO; 1 SLIP_MANUAL; 2 HUNT; 3 reserved. -/
abbrev LAN_ALIGN : Nat := 0x300100
/-- LAN_FREE_REF[128], 1 bits, COMMIT (R379): 0 engine crystal; 1 NOMINAL. -/
abbrev LAN_FREE_REF : Nat := 0x300180
/-- LAN_ENABLE[512], 1 bits, COMMIT (R379): 1 = lane brought up. -/
abbrev LAN_ENABLE : Nat := 0x300200
/-- LAN_STATE[512], 3 bits, RO (R379): 0 OFF; 1 WAKING; 2 ACQUIRING; 3 ALIGNING; 4 CALIBRATING; 5 UP; 6 REALIGNING; 7 reserved. -/
abbrev LAN_STATE : Nat := 0x300400
/-- LAN_CTLE_MODE[512], 1 bits, LIVE (R379): 0 ADAPT; 1 FIXED. -/
abbrev LAN_CTLE_MODE : Nat := 0x300600
/-- LAN_CTLE_SET[512], 6 bits, LIVE (R379): Code 0 to 48, 0.25 dB each. -/
abbrev LAN_CTLE_SET : Nat := 0x300800
/-- LAN_CTLE[512], 6 bits, RO (R379): Code in use. -/
abbrev LAN_CTLE : Nat := 0x300A00
/-- LAN_SLICER_AUTO[512], 1 bits, LIVE (R379): 1 = calibration moves thresholds. -/
abbrev LAN_SLICER_AUTO : Nat := 0x300C00
/-- LAN_SLICER[1536], 8 bits, LIVE (R379): Signed, 0.5 % steps, −64 to +63; index 3 × lane + k. -/
abbrev LAN_SLICER : Nat := 0x301000
/-- LAN_S[512], 6 bits, RO (R379): S of R61. -/
abbrev LAN_S : Nat := 0x301800
/-- LAN_G[512], 7 bits, RO (R379): G of R61, 0 to 65. -/
abbrev LAN_G : Nat := 0x301A00
/-- LAN_SLIPS[512], 48 bits, RO (R379): Slips since reset. -/
abbrev LAN_SLIPS : Nat := 0x301C00
/-- LAN_REALIGNS[512], 48 bits, RO (R379): Returns to framing within LAN_REALIGN_TIME. -/
abbrev LAN_REALIGNS : Nat := 0x301E00
/-- LAN_FEC_CORR[512], 48 bits, RO (R379): Corrected symbols. -/
abbrev LAN_FEC_CORR : Nat := 0x302000
/-- LAN_FEC_UNCORR[512], 48 bits, RO (R379): Uncorrectable codewords. -/
abbrev LAN_FEC_UNCORR : Nat := 0x302200
/-- SYN_BAND_TEMP, 10 bits, LIVE (R380): 0.1 °C, 20 to 1,000. -/
abbrev SYN_BAND_TEMP : Nat := 0x310000
/-- SYN_PENDING, 4 bits, RO (R380): Bit k: application pending for output synthesizer k. -/
abbrev SYN_PENDING : Nat := 0x310001
/-- SYN_FLAGS, 2 bits, W1C (R380): Bit 0 UNLOCK; bit 1 BAND_MISS_SEEN. -/
abbrev SYN_FLAGS : Nat := 0x310002
/-- SYN_OUT_INT[4], 5 bits, COMMIT (R380): N, 20 to 27. -/
abbrev SYN_OUT_INT : Nat := 0x310010
/-- SYN_OUT_FRAC[4], 32 bits, COMMIT (R380): F, below M. -/
abbrev SYN_OUT_FRAC : Nat := 0x310014
/-- SYN_OUT_MOD[4], 32 bits, COMMIT (R380): M, 1 to 2^32 − 1. -/
abbrev SYN_OUT_MOD : Nat := 0x310018
/-- SYN_OUT_DIV[4], 24 bits, COMMIT (R380): D, 10 to 16,777,215 (reset gives 10 MHz). -/
abbrev SYN_OUT_DIV : Nat := 0x31001C
/-- SYN_OUT_PHASE[4], 18 bits, COMMIT (R380): Steps of 1/1,024 VCO period (R375). -/
abbrev SYN_OUT_PHASE : Nat := 0x310020
/-- SYN_OUT_ENABLE[4], 1 bits, LIVE (R380): 1 = CLK OUT k driven. -/
abbrev SYN_OUT_ENABLE : Nat := 0x310024
/-- SYN_STATE[38], 2 bits, RO (R380): 0 OFF; 1 SEARCHING; 2 LOCKED; 3 HOPPING. -/
abbrev SYN_STATE : Nat := 0x310040
/-- SYN_VCO_FREQ[38], 24 bits, RO (R380): kHz. -/
abbrev SYN_VCO_FREQ : Nat := 0x310080
/-- SYN_BAND_HITS[38], 48 bits, RO (R380): Changes served by band memory. -/
abbrev SYN_BAND_HITS : Nat := 0x3100C0
/-- SYN_BAND_MISSES[38], 48 bits, RO (R380): Full searches. -/
abbrev SYN_BAND_MISSES : Nat := 0x310100
/-- OPT_SWAP_NOTICE, 16 bits, LIVE (R381): ms, 100 to 60,000. -/
abbrev OPT_SWAP_NOTICE : Nat := 0x320000
/-- OPT_BIAS_WARN, 8 bits, LIVE (R381): mA, 20 to 150. -/
abbrev OPT_BIAS_WARN : Nat := 0x320001
/-- OPT_BIAS_FAIL, 8 bits, LIVE (R381): mA, 30 to 200, above OPT_BIAS_WARN. -/
abbrev OPT_BIAS_FAIL : Nat := 0x320002
/-- OPT_FLAGS, 2 bits, W1C (R381): Bit 0 SWAP_ADVISED; bit 1 LASER_FAILED. -/
abbrev OPT_FLAGS : Nat := 0x320003
/-- OPT_SPARE_USED[32], 1 bits, RO (R381): 1 = spare in service. -/
abbrev OPT_SPARE_USED : Nat := 0x320020
/-- OPT_TEC_TEMP[32], 16 bits, RO (R381): 0.01 °C, signed. -/
abbrev OPT_TEC_TEMP : Nat := 0x320040
/-- OPT_LASER_STATE[160], 2 bits, RO (R381): 0 SPARE; 1 ACTIVE; 2 FAILED; 3 RETIRED. -/
abbrev OPT_LASER_STATE : Nat := 0x320100
/-- OPT_BIAS[160], 16 bits, RO (R381): 0.01 mA. -/
abbrev OPT_BIAS : Nat := 0x320200
/-- OPT_TX_POWER[512], 16 bits, RO (R381): 0.01 dBm, signed. -/
abbrev OPT_TX_POWER : Nat := 0x320400
/-- OPT_RX_POWER[512], 16 bits, RO (R381): 0.01 dBm, signed. -/
abbrev OPT_RX_POWER : Nat := 0x320600
/-- LOG_FULL_POLICY, 1 bits, LIVE (R355): 0 HOLD; 1 GAP. -/
abbrev LOG_FULL_POLICY : Nat := 0x400000
/-- LOG_SEAL_INTERVAL, 20 bits, COMMIT (R355): µs, 100 to 1,000,000, dividing 1,000,000 (R345). -/
abbrev LOG_SEAL_INTERVAL : Nat := 0x400001
/-- LOG_SPILL_LIMIT, 19 bits, LIVE (R355): Slots, 65,536 to 507,904. -/
abbrev LOG_SPILL_LIMIT : Nat := 0x400002
/-- LOG_SPILL_RESUME, 19 bits, LIVE (R355): Slots, below LOG_SPILL_LIMIT. -/
abbrev LOG_SPILL_RESUME : Nat := 0x400003
/-- LOG_SPILL_USED, 20 bits, RO (R355): Slots held, 0 to 524,288. -/
abbrev LOG_SPILL_USED : Nat := 0x400004
/-- LOG_SPILL_PEAK, 20 bits, RO (R355): Highest since reset. -/
abbrev LOG_SPILL_PEAK : Nat := 0x400005
/-- LOG_HOLD_ACTIVE, 1 bits, RO (R355): 1 while R342 applies. -/
abbrev LOG_HOLD_ACTIVE : Nat := 0x400006
/-- LOG_HOLD_TIME, 64 bits, RO (R355): ns spent under HOLD. -/
abbrev LOG_HOLD_TIME : Nat := 0x400007
/-- LOG_KEY_STATE, 2 bits, RO (R355): 0 ABSENT; 1 GENERATING; 2 PRESENT; 3 reserved. -/
abbrev LOG_KEY_STATE : Nat := 0x400008
/-- LOG_KEY_SERIAL, 16 bits, RO (R355): Serial of the present key; 0 none. -/
abbrev LOG_KEY_SERIAL : Nat := 0x400009
/-- LOG_MARK_LOST, 48 bits, RO (R355): MARK records not written (R343). -/
abbrev LOG_MARK_LOST : Nat := 0x40000A
/-- LOG_FLAGS, 5 bits, W1C (R355): Bit 0 HOLD_SEEN; bit 1 GAP_WRITTEN; bit 2 MERGED_SEEN; bit 3 KEY_ABSENT_SEAL; bit 4 MARK_LOST. -/
abbrev LOG_FLAGS : Nat := 0x40000B
/-- LOG_CH_ENABLE[16], 1 bits, COMMIT (R355): 1 = channel writes records and seals. -/
abbrev LOG_CH_ENABLE : Nat := 0x400010
/-- LOG_RING[16], 8 bits, COMMIT (R355): Logbook ring 0 to 15; 0xFF = none, channel writes nothing; 16 to 254 reserved, refused with BAD_VALUE (R13). -/
abbrev LOG_RING : Nat := 0x400020
/-- LOG_DATA_OFFSET[16], 14 bits, LIVE (R355): Bytes from the destination MAC, 0 to 9,720. -/
abbrev LOG_DATA_OFFSET : Nat := 0x400030
/-- LOG_RECORDS[16], 64 bits, RO (R355): Next record index (R340). -/
abbrev LOG_RECORDS : Nat := 0x400040
/-- LOG_SEAL_SEQ[16], 64 bits, RO (R355): Next seal sequence. -/
abbrev LOG_SEAL_SEQ : Nat := 0x400050
/-- LOG_UNLOGGED[16], 48 bits, RO (R355): Frames forwarded without records under GAP. -/
abbrev LOG_UNLOGGED : Nat := 0x400060
/-- LOG_SEALS_MERGED[16], 48 bits, RO (R355): Seals not written (R343). -/
abbrev LOG_SEALS_MERGED : Nat := 0x400070
/-- LOG_UNROUTED[16], 48 bits, RO (R355): Frames with LOG set on a disabled channel (R335). -/
abbrev LOG_UNROUTED : Nat := 0x400080
/-- SPD_LIFECYCLE, 3 bits, RO (R403): 0 BLANK; 1 PROVISIONED; 2 DEPLOYED; 3 SERVICE; 4 RETIRED; 5 to 7 reserved. -/
abbrev SPD_LIFECYCLE : Nat := 0x410000
/-- SPD_TAMPER_SRC, 5 bits, W1C (R403): Bits per R401. Clearing needs SECURITY. -/
abbrev SPD_TAMPER_SRC : Nat := 0x410001
/-- SPD_TEMP_LOW, 16 bits, RO (R403): 0.1 °C, signed. -/
abbrev SPD_TEMP_LOW : Nat := 0x410002
/-- SPD_TEMP_HIGH, 16 bits, RO (R403): 0.1 °C, signed. -/
abbrev SPD_TEMP_HIGH : Nat := 0x410003
/-- SPD_WIPE_BUSY, 1 bits, RO (R403): 1 while a wipe runs. -/
abbrev SPD_WIPE_BUSY : Nat := 0x410004
/-- SPD_WIPE_COUNT, 48 bits, RO (R403): Wipes since reset. -/
abbrev SPD_WIPE_COUNT : Nat := 0x410005
/-- SPD_WIPE_CAUSE, 3 bits, RO (R403): 0 life-cycle change; 1 TAMPER_N; 2 lid mesh; 3 voltage glitch; 4 clock glitch; 5 temperature; 6 ECC; 7 reserved. -/
abbrev SPD_WIPE_CAUSE : Nat := 0x410006
/-- SPD_WIPE_TIME, 64 bits, RO (R403): Module time of the last wipe, TAI ns. -/
abbrev SPD_WIPE_TIME : Nat := 0x410007
/-- SPD_FLAGS, 3 bits, W1C (R403): Bit 0 ECC_UNCORR; bit 1 VIOLATION; bit 2 WIPED. -/
abbrev SPD_FLAGS : Nat := 0x410008
/-- SPD_ECC_ADDR, 26 bits, RO (R403): Address of the last uncorrectable error. -/
abbrev SPD_ECC_ADDR : Nat := 0x410009
/-- SPD_VIOL, 16 bits, W1C (R403): Bit m: master m has violated. -/
abbrev SPD_VIOL : Nat := 0x410010
/-- SPD_FROZEN, 16 bits, RO (R403): Bit m: master m frozen. -/
abbrev SPD_FROZEN : Nat := 0x410011
/-- SPD_VIOL_ADDR[16], 26 bits, RO (R403): First address of the refused range. -/
abbrev SPD_VIOL_ADDR : Nat := 0x410020
/-- SPD_VIOL_TIME[16], 64 bits, RO (R403): Module time, TAI ns. -/
abbrev SPD_VIOL_TIME : Nat := 0x410030
/-- SPD_VIOL_KIND[16], 2 bits, RO (R403): 0 read outside its banks; 1 write outside its banks or to a read-only area; 2 bank 31 without access; 3 reserved. -/
abbrev SPD_VIOL_KIND : Nat := 0x410040
/-- SPD_ECC_CORR[32], 48 bits, RO (R403): Corrected errors. -/
abbrev SPD_ECC_CORR : Nat := 0x410060
/-- SPD_ECC_UNCORR[32], 48 bits, RO (R403): Uncorrectable errors. -/
abbrev SPD_ECC_UNCORR : Nat := 0x410080
/-- SPD_CONFLICT_B[32], 48 bits, RO (R403): Slots lost to conflicts, per bank. -/
abbrev SPD_CONFLICT_B : Nat := 0x4100A0
/-- SPD_CONFLICT_M[16], 48 bits, RO (R403): Slots lost to conflicts, per master. -/
abbrev SPD_CONFLICT_M : Nat := 0x4100C0
/-- ARB_WINDOW, 8 bits, COMMIT (R404): Grant slots per window, 16 to 255. -/
abbrev ARB_WINDOW : Nat := 0x420000
/-- ARB_QUOTA, 8 bits, COMMIT (R404): Grants per window, 1 to ARB_WINDOW. -/
abbrev ARB_QUOTA : Nat := 0x420001
/-- ARB_QUOTA_EN, 16 bits, COMMIT (R404): Bit m: master m has a quota. -/
abbrev ARB_QUOTA_EN : Nat := 0x420002
/-- ARB_PRIO[16], 4 bits, COMMIT (R404): Rank of master m, higher wins. Must be a permutation (R388). -/
abbrev ARB_PRIO : Nat := 0x420010
/-- ARB_GRANTS[16], 48 bits, RO (R404): Grant slots received. -/
abbrev ARB_GRANTS : Nat := 0x420020
/-- ARB_PREEMPT[16], 48 bits, RO (R404): Preemptions suffered. -/
abbrev ARB_PREEMPT : Nat := 0x420030
/-- ARB_QUOTA_MASKED[16], 48 bits, RO (R404): Slots requested while masked. -/
abbrev ARB_QUOTA_MASKED : Nat := 0x420040
/-- HIE_ENABLE, 1 bits, LIVE (R426): 1 = NHP runs. -/
abbrev HIE_ENABLE : Nat := 0x500000
/-- HIE_ROLE, 1 bits, HALT (R426): 0 MANAGER; 1 WORKER. -/
abbrev HIE_ROLE : Nat := 0x500001
/-- HIE_IDENTITY, 64 bits, RO (R426): Module identity, EUI-64. -/
abbrev HIE_IDENTITY : Nat := 0x500002
/-- HIE_PORT_MAC_BASE, 48 bits, RO (R426): First of 513 source addresses: base + p for port p, and base + 512 for the window port (R463). -/
abbrev HIE_PORT_MAC_BASE : Nat := 0x500003
/-- HIE_VERSIONS, 8 bits, RO (R426): Bit n = NHP version n. -/
abbrev HIE_VERSIONS : Nat := 0x500004
/-- HIE_MANAGER_ID, 64 bits, LIVE (R426): Required Root; 0 = any. -/
abbrev HIE_MANAGER_ID : Nat := 0x500005
/-- HIE_MEMBER_STATE, 3 bits, RO (R426): 0 DETACHED; 1 SEEKING; 2 JOINING; 3 JOINED; 4 LOST; 5 ROOT; 6, 7 reserved. -/
abbrev HIE_MEMBER_STATE : Nat := 0x500006
/-- HIE_DEPTH, 4 bits, RO (R426): 0 to 7; 15 = not joined. -/
abbrev HIE_DEPTH : Nat := 0x500007
/-- HIE_WORKER_NUM, 16 bits, RO (R426): Own worker number. -/
abbrev HIE_WORKER_NUM : Nat := 0x500008
/-- HIE_PARENT_ID, 64 bits, RO (R426): Parent identity. -/
abbrev HIE_PARENT_ID : Nat := 0x500009
/-- HIE_PARENT_PORT, 10 bits, RO (R426): Own port toward the parent; 1,023 = none. -/
abbrev HIE_PARENT_PORT : Nat := 0x50000A
/-- HIE_LOST_TIME, 16 bits, LIVE (R426): ms, 1,500 to 60,000. -/
abbrev HIE_LOST_TIME : Nat := 0x50000B
/-- HIE_AGE, 10 bits, LIVE (R426): s, 3 to 600. -/
abbrev HIE_AGE : Nat := 0x50000C
/-- HIE_REPORT_PERIOD, 10 bits, LIVE (R426): s, 1 to 599, below HIE_AGE. -/
abbrev HIE_REPORT_PERIOD : Nat := 0x50000D
/-- HIE_FANOUT_WINDOW, 9 bits, LIVE (R426): Targets in flight, 1 to 256. -/
abbrev HIE_FANOUT_WINDOW : Nat := 0x50000E
/-- HIE_FLAGS, 6 bits, W1C (R426): Bit 0 MANAGER_LOST; bit 1 PEER_MANAGER; bit 2 DEPTH_LIMIT; bit 3 REG_FULL; bit 4 VERSION_MISMATCH; bit 5 WORKER_LIMIT. -/
abbrev HIE_FLAGS : Nat := 0x50000F
/-- HIE_REG_MODULES, 13 bits, RO (R426): Module entries, the manager's included. -/
abbrev HIE_REG_MODULES : Nat := 0x500010
/-- HIE_REG_CLIENTS, 18 bits, RO (R426): Client entries. -/
abbrev HIE_REG_CLIENTS : Nat := 0x500011
/-- HIE_REG_REFUSED, 48 bits, RO (R426): Client entries refused (R417). -/
abbrev HIE_REG_REFUSED : Nat := 0x500012
/-- HIE_JOINS, 48 bits, RO (R426): JOINs accepted. -/
abbrev HIE_JOINS : Nat := 0x500013
/-- HIE_LEAVES, 48 bits, RO (R426): Entries removed by LEAVE or ageing. -/
abbrev HIE_LEAVES : Nat := 0x500014
/-- HIE_TUNNEL_TIMEOUTS, 48 bits, RO (R426): Tunnel targets timed out. -/
abbrev HIE_TUNNEL_TIMEOUTS : Nat := 0x500015
/-- HIE_RX_DISCARD, 48 bits, RO (R426): NHP frames discarded (R407, R408, R418). -/
abbrev HIE_RX_DISCARD : Nat := 0x500016
/-- HIE_UP_PORT[2], 10 bits, COMMIT (R426): Preferred parent ports; 1,023 = automatic. -/
abbrev HIE_UP_PORT : Nat := 0x500018
/-- HIE_PORT_EN[512], 1 bits, COMMIT (R426): 1 = NHP runs on the port (R406). -/
abbrev HIE_PORT_EN : Nat := 0x500200
/-- HIE_PORT_STATE[512], 2 bits, RO (R426): 0 SILENT; 1 HEARD; 2 INCOMPATIBLE; 3 reserved. -/
abbrev HIE_PORT_STATE : Nat := 0x500400
/-- HIE_PORT_VERSION[512], 2 bits, RO (R426): Version in use; 0 = none. -/
abbrev HIE_PORT_VERSION : Nat := 0x500600
/-- HIE_NEIGHBOUR_ID[512], 64 bits, RO (R426): Identity heard on the port. -/
abbrev HIE_NEIGHBOUR_ID : Nat := 0x500800
/-- PWR_DIDT_BUDGET, 8 bits, LIVE (R448): A/µs on VCORE, 10 to 200. -/
abbrev PWR_DIDT_BUDGET : Nat := 0x600000
/-- PWR_LANE_QUOTA, 7 bits, LIVE (R448): Lane-quota admissions per 1 ms, 1 to 64. -/
abbrev PWR_LANE_QUOTA : Nat := 0x600001
/-- PWR_WAKE_QUEUE_LEN, 11 bits, RO (R448): Requests queued. -/
abbrev PWR_WAKE_QUEUE_LEN : Nat := 0x600002
/-- PWR_WAKE_SLOPE, 8 bits, RO (R448): Slopes of ramps in progress, A/µs. -/
abbrev PWR_WAKE_SLOPE : Nat := 0x600003
/-- PWR_WAKE_ADMITTED, 48 bits, RO (R448): Requests admitted. -/
abbrev PWR_WAKE_ADMITTED : Nat := 0x600004
/-- PWR_WAKE_WAITED, 48 bits, RO (R448): Requests that queued. -/
abbrev PWR_WAKE_WAITED : Nat := 0x600005
/-- PWR_WAKE_MAX_WAIT, 32 bits, RO (R448): Longest wait since reset, µs. -/
abbrev PWR_WAKE_MAX_WAIT : Nat := 0x600006
/-- PWR_SHUTTER_STATE, 2 bits, RO (R448): 0 NORMAL; 1 ENTERING; 2 SHUTTER; 3 LEAVING. -/
abbrev PWR_SHUTTER_STATE : Nat := 0x600008
/-- PWR_SHUTTER_CAUSE, 4 bits, RO (R448): Uncleared causes (R435). -/
abbrev PWR_SHUTTER_CAUSE : Nat := 0x600009
/-- PWR_SHUTTER_ENTRY_CAUSE, 4 bits, RO (R448): Causes at the last entry. -/
abbrev PWR_SHUTTER_ENTRY_CAUSE : Nat := 0x60000A
/-- PWR_SHUTTER_TEMP, 11 bits, RO (R448): Entry temperature, 0.1 °C. -/
abbrev PWR_SHUTTER_TEMP : Nat := 0x60000B
/-- PWR_SHUTTER_TEMP_CLEAR, 11 bits, LIVE (R448): 0.1 °C, 700 to 1,000. -/
abbrev PWR_SHUTTER_TEMP_CLEAR : Nat := 0x60000C
/-- PWR_WDOG_TIME, 10 bits, LIVE (R448): ms, 10 to 1,000. -/
abbrev PWR_WDOG_TIME : Nat := 0x60000D
/-- PWR_RESUME_FABRIC, 1 bits, LIVE (R448): 1 = re-enable the fabric on leaving (R438). -/
abbrev PWR_RESUME_FABRIC : Nat := 0x60000E
/-- PWR_SHUTTER_COUNT, 48 bits, RO (R448): Entries into shutter mode. -/
abbrev PWR_SHUTTER_COUNT : Nat := 0x60000F
/-- PWR_SHUTTER_DISCARD, 48 bits, RO (R448): Frames discarded by R437. -/
abbrev PWR_SHUTTER_DISCARD : Nat := 0x600010
/-- PWR_BOOT_SLOT, 1 bits, RO (R448): 0 slot A; 1 slot B. -/
abbrev PWR_BOOT_SLOT : Nat := 0x600011
/-- PWR_DOMAIN_STATE[13], 2 bits, RO (R448): 0 OFF; 1 QUEUED; 2 WAKING; 3 UP. -/
abbrev PWR_DOMAIN_STATE : Nat := 0x600020
/-- PWR_RAIL_MV[8], 16 bits, RO (R448): Measured rail, mV. -/
abbrev PWR_RAIL_MV : Nat := 0x600030
/-- PWR_RAIL_FAULTS[8], 48 bits, RO (R448): Losses per rail. -/
abbrev PWR_RAIL_FAULTS : Nat := 0x600038
/-- HLT_STICKY, 32 bits, RO (R449): Fault bits (R440). Cleared by STICKY_CLEAR. -/
abbrev HLT_STICKY : Nat := 0x610000
/-- HLT_ALERT_MASK, 32 bits, LIVE (R449): Bits that drive ALERT_N. -/
abbrev HLT_ALERT_MASK : Nat := 0x610001
/-- HLT_FAULT_COUNT, 48 bits, RO (R449): Faults raised since reset. -/
abbrev HLT_FAULT_COUNT : Nat := 0x610002
/-- HLT_TEMP_WARN, 11 bits, LIVE (R449): 0.1 °C, 600 to 1,040. -/
abbrev HLT_TEMP_WARN : Nat := 0x610003
/-- HLT_WEAR_WARN, 7 bits, LIVE (R449): Months, 0 to 120. -/
abbrev HLT_WEAR_WARN : Nat := 0x610004
/-- HLT_WEAR_RO_EOL, 8 bits, LIVE (R449): 0.1 %, 10 to 200. -/
abbrev HLT_WEAR_RO_EOL : Nat := 0x610005
/-- HLT_OVEN_HEAT_MAX, 7 bits, LIVE (R449): %, 50 to 100. -/
abbrev HLT_OVEN_HEAT_MAX : Nat := 0x610006
/-- HLT_DIE_TEMP[6], 16 bits, RO (R449): 0.1 °C, signed. -/
abbrev HLT_DIE_TEMP : Nat := 0x610010
/-- HLT_FIRST_FAULT[4], 64 bits, RO (R449): Record of R442, bytes 0 to 31 in index order. -/
abbrev HLT_FIRST_FAULT : Nat := 0x610018
/-- HLT_WEAR_DIE[6], 16 bits, RO (R449): 90 % bound, months. -/
abbrev HLT_WEAR_DIE : Nat := 0x610020
/-- HLT_WEAR_OVEN[2], 16 bits, RO (R449): 90 % bound, months. -/
abbrev HLT_WEAR_OVEN : Nat := 0x610028
/-- HLT_WEAR_LASER[160], 16 bits, RO (R449): 90 % bound, months. -/
abbrev HLT_WEAR_LASER : Nat := 0x610100
/-- OBS_FROZEN, 1 bits, RO (R465): 1 = counter set frozen. -/
abbrev OBS_FROZEN : Nat := 0x700000
/-- OBS_TAG_ENABLE, 1 bits, LIVE (R465): 1 = tagging on. -/
abbrev OBS_TAG_ENABLE : Nat := 0x700001
/-- OBS_TAG_LOG2, 5 bits, LIVE (R465): k, 8 to 24. -/
abbrev OBS_TAG_LOG2 : Nat := 0x700002
/-- OBS_TAG_SEED, 32 bits, LIVE (R465): LFSR seed (R458). -/
abbrev OBS_TAG_SEED : Nat := 0x700003
/-- OBS_TAG_COUNT, 48 bits, RO (R465): Frames tagged. -/
abbrev OBS_TAG_COUNT : Nat := 0x700004
/-- OBS_TRACE_HEAD, 64 bits, RO (R465): Next trace sequence number. -/
abbrev OBS_TRACE_HEAD : Nat := 0x700005
/-- OBS_TRACE_OLDEST, 64 bits, RO (R465): Oldest record held. -/
abbrev OBS_TRACE_OLDEST : Nat := 0x700006
/-- OBS_TRACE_DROP, 48 bits, RO (R465): Records not written. -/
abbrev OBS_TRACE_DROP : Nat := 0x700007
/-- OBS_WIN_ENABLE, 1 bits, LIVE (R465): 1 = window port sends trace. -/
abbrev OBS_WIN_ENABLE : Nat := 0x700008
/-- OBS_WIN_DST, 48 bits, LIVE (R465): Destination address of window frames. -/
abbrev OBS_WIN_DST : Nat := 0x700009
/-- OBS_WIN_NEXT, 64 bits, RO (R465): Next sequence number to send. -/
abbrev OBS_WIN_NEXT : Nat := 0x70000A
/-- OBS_WIN_SKIPPED, 48 bits, RO (R465): Records not sent. -/
abbrev OBS_WIN_SKIPPED : Nat := 0x70000B
/-- OBS_WIN_FRAMES, 48 bits, RO (R465): Window frames sent. -/
abbrev OBS_WIN_FRAMES : Nat := 0x70000C
/-- OBS_SNAP_SEQ, 32 bits, RO (R465): Snapshots taken. -/
abbrev OBS_SNAP_SEQ : Nat := 0x700010
/-- OBS_SNAP_TIME, 64 bits, RO (R465): Module time of the last copy, TAI ns. -/
abbrev OBS_SNAP_TIME : Nat := 0x700011
/-- OBS_SNAP_PENDING, 64 bits, RO (R465): Scheduled instant, TAI ns; 0 = none. -/
abbrev OBS_SNAP_PENDING : Nat := 0x700012
/-- OBS_OVF[128], 64 bits, W1C (R465): Overflow bits of counters 64w to 64w + 63. -/
abbrev OBS_OVF : Nat := 0x700100
/-- OBS_SNAP_OVF[128], 64 bits, RO (R465): OBS_OVF at the last copy. -/
abbrev OBS_SNAP_OVF : Nat := 0x700200
/-- OBS_SNAP[8192], 48 bits, RO (R465): Counter values at the last copy. -/
abbrev OBS_SNAP : Nat := 0x702000
/-- OBS_CTR[8192], 48 bits, RO (R465): Counter set by index, as R453 presents it. -/
abbrev OBS_CTR : Nat := 0x704000
/-- HST_LINK_SPEED, 3 bits, RO (R483): 0 down; 1 2.5; 2 5; 3 8; 4 16; 5 32 GT/s; 6, 7 reserved. -/
abbrev HST_LINK_SPEED : Nat := 0x710000
/-- HST_LINK_WIDTH, 4 bits, RO (R483): Lanes: 0, 1, 2, 4 or 8. -/
abbrev HST_LINK_WIDTH : Nat := 0x710001
/-- HST_MPS, 10 bits, RO (R483): Max payload size, bytes. -/
abbrev HST_MPS : Nat := 0x710002
/-- HST_FORMATS, 8 bits, RO (R483): Bit n = descriptor format n. -/
abbrev HST_FORMATS : Nat := 0x710003
/-- HST_STATUS_ADDR, 64 bits, LIVE (R483): Status block address, aligned to 4,096; 0 = none. -/
abbrev HST_STATUS_ADDR : Nat := 0x710004
/-- HST_FLAGS, 4 bits, W1C (R483): Bit 0 LINK_DOWN_SEEN; bit 1 DMA_ERROR; bit 2 DMA_FROZEN; bit 3 BYPASS_SEEN. -/
abbrev HST_FLAGS : Nat := 0x710005
/-- HST_DMA_ERR, 48 bits, RO (R483): DMA and doorbell errors. -/
abbrev HST_DMA_ERR : Nat := 0x710006
/-- HST_MBX_BASE[8], 64 bits, COMMIT (R483): Mailbox ring bases, aligned to 4,096. -/
abbrev HST_MBX_BASE : Nat := 0x710008
/-- HST_MBX_SIZE[8], 9 bits, COMMIT (R483): Slots, power of two, 8 to 256. -/
abbrev HST_MBX_SIZE : Nat := 0x710010
/-- HST_TRAP[64], 64 bits, LIVE (R483): Trap entries (R475). -/
abbrev HST_TRAP : Nat := 0x710100
/-- HST_RXQ_MAX[64], 24 bits, LIVE (R483): Bytes, 16,384 to 16,777,215. -/
abbrev HST_RXQ_MAX : Nat := 0x710200
/-- HST_RXQ_BYTES[64], 24 bits, RO (R483): Bytes held in the quay. -/
abbrev HST_RXQ_BYTES : Nat := 0x710240
/-- HST_RXQ_BYPASS[64], 48 bits, RO (R483): Frames not trapped (R476). -/
abbrev HST_RXQ_BYPASS : Nat := 0x710280
/-- HST_RXQ_FLUSHED[64], 48 bits, RO (R483): Frames released by QUEUE_DESTROY. -/
abbrev HST_RXQ_FLUSHED : Nat := 0x7102C0
/-- HST_TX_REFUSED[64], 48 bits, RO (R483): Slots not sent (R474). -/
abbrev HST_TX_REFUSED : Nat := 0x710300
/-- HST_EVT_DROP[16], 48 bits, RO (R483): Event entries discarded. -/
abbrev HST_EVT_DROP : Nat := 0x710340
/-- HST_RING_STATE[168], 2 bits, RO (R483): 0 NONE; 1 ACTIVE; 2 ERROR; 3 reserved. -/
abbrev HST_RING_STATE : Nat := 0x710400

end P

/-- The parameters of block SYS, in address order. -/
def paramsSys : List Param :=
  [⟨P.SYS_PRODUCT, 1, 16, .ro, [1298], [], 1, []⟩,
   ⟨P.SYS_ISSUE, 1, 8, .ro, [194], [], 1, []⟩,
   ⟨P.SYS_SERIAL, 1, 64, .ro, [0], [], 1, []⟩,
   ⟨P.SYS_FW_VERSION, 1, 32, .ro, [0], [], 1, []⟩,
   ⟨P.SYS_PARAM_COUNT, 1, 12, .ro, [3000], [], 1, []⟩,
   ⟨P.SYS_UPTIME, 1, 32, .ro, [0], [], 1, []⟩,
   ⟨P.SYS_CONFIG_GEN, 1, 32, .ro, [0], [], 1, []⟩,
   ⟨P.SYS_SCRATCH, 8, 64, .live, [0], [], 1, []⟩,
   ⟨P.SYS_PPS_WIDTH, 2, 19, .live, [0x186a0], [(1, 500000)], 1, []⟩,
   ⟨P.SYS_PPS_ENABLE, 2, 1, .live, [1], [], 1, []⟩,
   ⟨P.SYS_10M_ENABLE, 2, 1, .live, [1], [], 1, []⟩]

/-- The parameters of block CMD, in address order. -/
def paramsCmd : List Param :=
  [⟨P.CMD_ECP_VERSIONS, 1, 8, .ro, [14], [], 1, []⟩,
   ⟨P.CMD_SESSION_IDLE, 1, 16, .live, [60], [(0, 3600)], 1, []⟩,
   ⟨P.CMD_MAX_OUTSTANDING, 1, 6, .live, [32], [(1, 32)], 1, []⟩,
   ⟨P.CMD_MGMT_ENABLE, 1, 1, .live, [1], [], 1, []⟩,
   ⟨P.CMD_MGMT_UDP_PORT, 1, 16, .halt, [6512], [], 1, []⟩,
   ⟨P.CMD_MGMT_IP_MODE, 1, 2, .halt, [0], [(0, 2)], 1, []⟩,
   ⟨P.CMD_MGMT_IPV4_ADDR, 1, 32, .halt, [0], [], 1, []⟩,
   ⟨P.CMD_MGMT_IPV6_ADDR, 2, 64, .halt, [0], [], 1, []⟩,
   ⟨P.CMD_CEILING, 4, 2, .live, [3, 3, 1, 2], [], 1, []⟩,
   ⟨P.CMD_SESSION_STATE, 16, 2, .ro, [0], [], 1, []⟩,
   ⟨P.CMD_SESSION_PRIV, 16, 2, .ro, [0], [], 1, []⟩,
   ⟨P.CMD_SESSION_TRANSPORT, 16, 2, .ro, [0], [], 1, []⟩,
   ⟨P.CMD_VIOLATION, 1, 16, .w1c, [0], [], 1, []⟩,
   ⟨P.CMD_VIOL_OPCODE, 16, 16, .ro, [0], [], 1, []⟩,
   ⟨P.CMD_VIOL_TIME, 16, 64, .ro, [0], [], 1, []⟩,
   ⟨P.CMD_VIOL_ADDR, 16, 24, .ro, [0], [], 1, []⟩,
   ⟨P.CMD_FASTPATH_COUNT, 1, 48, .ro, [0], [], 1, []⟩,
   ⟨P.CMD_REFUSED_COUNT, 1, 48, .ro, [0], [], 1, []⟩,
   ⟨P.CMD_DUP_COUNT, 1, 48, .ro, [0], [], 1, []⟩,
   ⟨P.CMD_NOTICE_DROP, 1, 48, .ro, [0], [], 1, []⟩]

/-- The parameters of block FAB, in address order. -/
def paramsFab : List Param :=
  [⟨P.FAB_STATE, 1, 2, .ro, [0], [], 1, []⟩,
   ⟨P.FAB_PACE, 1, 2, .commit, [1], [(0, 2)], 1, []⟩,
   ⟨P.FAB_PACE_NOW, 1, 2, .ro, [3], [], 1, []⟩,
   ⟨P.FAB_VCORE_TARGET, 1, 10, .ro, [750], [], 1, []⟩,
   ⟨P.FAB_VCORE_MEAS, 1, 10, .ro, [0], [], 1, []⟩,
   ⟨P.FAB_STEP_RATE, 1, 32, .ro, [0], [], 1, []⟩,
   ⟨P.FAB_SPEEDUP, 1, 16, .ro, [0], [], 1, []⟩,
   ⟨P.FAB_SPEEDUP_LOW, 1, 16, .ro, [65535], [], 1, []⟩,
   ⟨P.FAB_SPEEDUP_25C, 1, 16, .ro, [0], [], 1, []⟩,
   ⟨P.FAB_MARGIN_LIMIT, 1, 11, .live, [1050], [(1000, 1300)], 1, []⟩,
   ⟨P.FAB_MARGIN_TIME, 1, 10, .live, [1], [(1, 1000)], 1, []⟩,
   ⟨P.FAB_BALANCE_D, 1, 2, .halt, [3], [(1, 3)], 1, []⟩,
   ⟨P.FAB_BASIN_RESERVE, 1, 4, .halt, [4], [(0, 8)], 1, []⟩,
   ⟨P.FAB_RESEQ_RESUME, 1, 8, .live, [192], [(64, 255)], 1, []⟩,
   ⟨P.FAB_RESEQ_TIMEOUT, 1, 16, .live, [1024], [(128, 65535)], 1, []⟩,
   ⟨P.FAB_SHUTTER_DRAIN, 1, 14, .live, [100], [(0, 10000)], 1, []⟩,
   ⟨P.FAB_FLAGS, 1, 5, .w1c, [0], [], 1, []⟩,
   ⟨P.FAB_ECC_CORR, 1, 48, .ro, [0], [], 1, []⟩,
   ⟨P.FAB_ECC_UNCORR, 1, 48, .ro, [0], [], 1, []⟩,
   ⟨P.FAB_HDR_ERR, 1, 48, .ro, [0], [], 1, []⟩,
   ⟨P.FAB_FAULT_FRAMES, 1, 48, .ro, [0], [], 1, []⟩,
   ⟨P.FAB_DRAIN_LOST, 1, 48, .ro, [0], [], 1, []⟩,
   ⟨P.FAB_ABORT_FRAMES, 1, 48, .ro, [0], [], 1, []⟩,
   ⟨P.FAB_STEP_COUNT, 1, 64, .ro, [0], [], 1, []⟩,
   ⟨P.FAB_BASIN_OCC, 64, 14, .ro, [0], [], 1, []⟩,
   ⟨P.FAB_BASIN_PEAK, 64, 14, .ro, [0], [], 1, []⟩,
   ⟨P.FAB_RESEQ_OCC, 64, 9, .ro, [0], [], 1, []⟩,
   ⟨P.FAB_RESEQ_PEAK, 64, 9, .ro, [0], [], 1, []⟩,
   ⟨P.FAB_RESEQ_STALLS, 64, 48, .ro, [0], [], 1, []⟩,
   ⟨P.FAB_RESEQ_SKIPS, 64, 48, .ro, [0], [], 1, []⟩,
   ⟨P.FAB_SLOT_S1, 256, 48, .ro, [0], [], 1, []⟩,
   ⟨P.FAB_SLOT_S2, 256, 48, .ro, [0], [], 1, []⟩]

/-- The parameters of block PRT, in address order. -/
def paramsPrt : List Param :=
  [⟨P.PRT_EXPRESS_CLASSES, 1, 8, .live, [192], [], 1, []⟩,
   ⟨P.PRT_EXPRESS_COUNT, 1, 6, .ro, [0], [], 1, []⟩,
   ⟨P.PRT_SLOW_ON, 1, 10, .live, [16], [(4, 1023)], 1, []⟩,
   ⟨P.PRT_SLOW_OFF, 1, 10, .live, [8], [(0, 1022)], 1, []⟩,
   ⟨P.PRT_STOP_FREE_ON, 1, 13, .live, [64], [(8, 4096)], 1, []⟩,
   ⟨P.PRT_STOP_FREE_OFF, 1, 13, .live, [256], [(16, 6144)], 1, []⟩,
   ⟨P.PRT_FIFO_XOFF, 1, 17, .live, [32768], [(4096, 61440)], 1, []⟩,
   ⟨P.PRT_FIFO_XON, 1, 17, .live, [16384], [(0, 57344)], 1, []⟩,
   ⟨P.PRT_EGQ_STOP, 8, 26, .live, [0x40000], [(16384, 33554432)], 1, []⟩,
   ⟨P.PRT_EGQ_RESUME, 8, 26, .live, [0x30000], [], 1, []⟩,
   ⟨P.PRT_PFC_QUANTA, 1, 16, .live, [65535], [(1, 65535)], 1, []⟩,
   ⟨P.PRT_HEADROOM_SUM, 1, 32, .ro, [0], [], 1, []⟩,
   ⟨P.PRT_HEADROOM_POOL, 1, 32, .ro, [0x5f00000], [], 1, []⟩,
   ⟨P.PRT_FLAGS, 1, 3, .w1c, [0], [], 1, []⟩,
   ⟨P.PRT_PCP_MAP, 8, 3, .live, [0, 1, 2, 3, 4, 5, 6, 7], [], 1, []⟩,
   ⟨P.PRT_LANES, 512, 4, .commit, [1], [(0, 0), (1, 1), (2, 2), (4, 4), (8, 8)], 1, []⟩,
   ⟨P.PRT_FEC, 512, 1, .commit, [0], [], 1, []⟩,
   ⟨P.PRT_MAX_FRAME, 512, 14, .commit, [9728], [(1518, 9728)], 1, []⟩,
   ⟨P.PRT_EXPRESS, 512, 1, .commit, [0], [], 1, []⟩,
   ⟨P.PRT_CLASS_SRC, 512, 1, .live, [0], [], 1, []⟩,
   ⟨P.PRT_DEFAULT_PCP, 512, 3, .live, [0], [], 1, []⟩,
   ⟨P.PRT_FC_MODE, 512, 1, .commit, [0], [], 1, []⟩,
   ⟨P.PRT_FIBRE_LEN, 512, 15, .live, [100], [(0, 20000)], 1, []⟩,
   ⟨P.PRT_PARTNER_RESP, 512, 16, .live, [1000], [(0, 60000)], 1, []⟩,
   ⟨P.PRT_HEADROOM, 512, 32, .ro, [0], [], 1, []⟩,
   ⟨P.PRT_LINK_UP, 512, 1, .ro, [0], [], 1, []⟩,
   ⟨P.PRT_RX_FCS_ERR, 512, 48, .ro, [0], [], 1, []⟩,
   ⟨P.PRT_RX_RUNT, 512, 48, .ro, [0], [], 1, []⟩,
   ⟨P.PRT_RX_OVERSIZE, 512, 48, .ro, [0], [], 1, []⟩,
   ⟨P.PRT_RX_OVERRUN, 512, 48, .ro, [0], [], 1, []⟩,
   ⟨P.PRT_RX_STOMP, 512, 48, .ro, [0], [], 1, []⟩,
   ⟨P.PRT_TX_STOMP, 512, 48, .ro, [0], [], 1, []⟩,
   ⟨P.PRT_EXPRESS_DEMOTED, 512, 48, .ro, [0], [], 1, []⟩,
   ⟨P.PRT_LINKDOWN_DROP, 512, 48, .ro, [0], [], 1, []⟩,
   ⟨P.PRT_TX_OVERSIZE, 512, 48, .ro, [0], [], 1, []⟩,
   ⟨P.PRT_PFC_TX_XOFF, 4096, 48, .ro, [0], [], 1, []⟩,
   ⟨P.PRT_PFC_RX_XOFF, 4096, 48, .ro, [0], [], 1, []⟩,
   ⟨P.PRT_EGQ_BYTES, 4096, 26, .ro, [0], [], 1, []⟩]

/-- The parameters of block BUF, in address order. -/
def paramsBuf : List Param :=
  [⟨P.BUF_WARN1, 5, 10, .live, [750], [(100, 990)], 1, []⟩,
   ⟨P.BUF_WARN2, 5, 10, .live, [875], [(100, 995)], 1, []⟩,
   ⟨P.BUF_STOP, 5, 10, .live, [960], [(100, 1000)], 1, []⟩,
   ⟨P.BUF_HYST, 5, 9, .live, [50], [(10, 500)], 1, []⟩,
   ⟨P.BUF_COUNT, 5, 17, .ro, [65536, 16384, 6144, 1536, 0x19600], [], 1, []⟩,
   ⟨P.BUF_SIZE, 4, 14, .ro, [256, 1024, 2432, 9728], [], 1, []⟩,
   ⟨P.BUF_HELD, 5, 17, .ro, [0], [], 1, []⟩,
   ⟨P.BUF_PEAK, 5, 17, .ro, [0], [], 1, []⟩,
   ⟨P.BUF_SIGNALS, 5, 3, .ro, [0], [], 1, []⟩,
   ⟨P.BUF_ALLOC, 5, 48, .ro, [0], [], 1, []⟩,
   ⟨P.BUF_SPILL, 4, 48, .ro, [0], [], 1, []⟩,
   ⟨P.BUF_ALLOC_STALL, 1, 48, .ro, [0], [], 1, []⟩,
   ⟨P.BUF_DOUBLE_FREE, 1, 48, .ro, [0], [], 1, []⟩,
   ⟨P.BUF_QUARANTINED, 1, 17, .ro, [0], [], 1, []⟩,
   ⟨P.BUF_FLAGS, 1, 4, .w1c, [0], [], 1, []⟩,
   ⟨P.BUF_DF_POOL, 1, 2, .ro, [0], [], 1, []⟩,
   ⟨P.BUF_DF_INDEX, 1, 16, .ro, [0], [], 1, []⟩,
   ⟨P.BUF_DF_AGENT, 1, 16, .ro, [0], [], 1, []⟩,
   ⟨P.BUF_DF_TIME, 1, 64, .ro, [0], [], 1, []⟩]

/-- The parameters of block TBL, in address order. -/
def paramsTbl : List Param :=
  [⟨P.TBL_AGE_TIME, 1, 16, .live, [300], [(0, 0), (10, 65535)], 1, []⟩,
   ⟨P.TBL_MOVE_WINDOW, 1, 20, .live, [1000], [(10, 1000000)], 1, []⟩,
   ⟨P.TBL_LEARN_HOLD, 1, 7, .live, [10], [(1, 100)], 1, []⟩,
   ⟨P.TBL_CUCKOO_MAX, 1, 8, .live, [64], [(8, 255)], 1, []⟩,
   ⟨P.TBL_NOTICE_GAP, 1, 10, .live, [100], [(1, 1000)], 1, []⟩,
   ⟨P.TBL_FLAGS, 1, 4, .w1c, [0], [], 1, []⟩,
   ⟨P.TBL_EPOCH, 8, 16, .ro, [0], [], 1, []⟩,
   ⟨P.TBL_OCCUPANCY, 8, 19, .ro, [0], [], 1, []⟩,
   ⟨P.TBL_STASH_USED, 8, 4, .ro, [0], [], 1, []⟩,
   ⟨P.TBL_SEED, 8, 32, .ro, [0], [], 1, []⟩,
   ⟨P.TBL_SEED_OLD, 8, 32, .ro, [0], [], 1, []⟩,
   ⟨P.TBL_REHASH_STATE, 8, 2, .ro, [0], [], 1, []⟩,
   ⟨P.TBL_REHASH_CURSOR, 8, 19, .ro, [0], [], 1, []⟩,
   ⟨P.TBL_DISPLACE_SEQ, 8, 32, .ro, [0], [], 1, []⟩,
   ⟨P.TBL_FENCE_PENDING, 8, 32, .ro, [0], [], 1, []⟩,
   ⟨P.TBL_FENCE_AGE, 8, 32, .ro, [0], [], 1, []⟩,
   ⟨P.TBL_LEARNS, 8, 48, .ro, [0], [], 1, []⟩,
   ⟨P.TBL_LEARN_FAIL, 8, 48, .ro, [0], [], 1, []⟩,
   ⟨P.TBL_LEARN_DROP, 8, 48, .ro, [0], [], 1, []⟩,
   ⟨P.TBL_LEARN_STALE, 8, 48, .ro, [0], [], 1, []⟩,
   ⟨P.TBL_LEARN_SUPPR, 8, 48, .ro, [0], [], 1, []⟩,
   ⟨P.TBL_MOVES, 8, 48, .ro, [0], [], 1, []⟩,
   ⟨P.TBL_MOVE_REFUSED, 8, 48, .ro, [0], [], 1, []⟩,
   ⟨P.TBL_AGED, 8, 48, .ro, [0], [], 1, []⟩,
   ⟨P.TBL_HAIRPIN, 8, 48, .ro, [0], [], 1, []⟩,
   ⟨P.TBL_STREAM_ECC, 1, 48, .ro, [0], [], 1, []⟩,
   ⟨P.TBL_GEN, 8, 1, .ro, [0], [], 1, []⟩,
   ⟨P.TBL_PORT_GROUP, 512, 4, .commit, [0], [], 1, []⟩,
   ⟨P.TBL_PVID, 512, 12, .commit, [1], [(1, 4095)], 1, []⟩,
   ⟨P.TBL_LEARN_EN, 512, 1, .live, [1], [], 1, []⟩]

/-- The parameters of block LCK, in address order. -/
def paramsLck : List Param :=
  [⟨P.LCK_FLAGS, 1, 4, .w1c, [0], [], 1, []⟩,
   ⟨P.LCK_MIRROR_HOLD, 1, 14, .live, [100], [(1, 10000)], 1, []⟩,
   ⟨P.LCK_NO_MEMBER, 1, 48, .ro, [0], [], 1, []⟩,
   ⟨P.LCK_LATE_CAUSE, 4, 48, .ro, [0], [], 1, []⟩,
   ⟨P.LCK_SEL_PORT, 16, 9, .live, [0], [], 1, []⟩,
   ⟨P.LCK_ADM_ENTRY, 1024, 40, .live, [0], [], 1, []⟩,
   ⟨P.LCK_OPR_ENTRY, 1024, 40, .ro, [0], [], 1, []⟩,
   ⟨P.LCK_ADM_CYCLE, 512, 30, .live, [0xf4240], [(1000, 1000000000)], 1, []⟩,
   ⟨P.LCK_ADM_BASE, 512, 64, .live, [0], [], 1, []⟩,
   ⟨P.LCK_ADM_COUNT, 512, 11, .live, [0], [(0, 1024)], 1, []⟩,
   ⟨P.LCK_OPR_CYCLE, 512, 30, .ro, [0xf4240], [], 1, []⟩,
   ⟨P.LCK_OPR_BASE, 512, 64, .ro, [0], [], 1, []⟩,
   ⟨P.LCK_OPR_COUNT, 512, 11, .ro, [0], [], 1, []⟩,
   ⟨P.LCK_SWAP_TIME, 512, 64, .live, [0], [], 1, []⟩,
   ⟨P.LCK_SWAP_STATE, 512, 2, .ro, [0], [], 1, []⟩,
   ⟨P.LCK_FIBRE_SRC, 512, 1, .commit, [0], [], 1, []⟩,
   ⟨P.LCK_FIBRE_COMP, 512, 23, .commit, [0], [(0, 5000000)], 1, []⟩,
   ⟨P.LCK_FIBRE_ASYM, 512, 32, .commit, [0], [], 1, []⟩,
   ⟨P.LCK_FIBRE_USED, 512, 23, .ro, [0], [], 1, []⟩,
   ⟨P.LCK_TXPATH, 512, 32, .ro, [0], [], 1, []⟩,
   ⟨P.LCK_WINDOW, 512, 16, .ro, [0], [], 1, []⟩,
   ⟨P.LCK_RELEASES, 512, 48, .ro, [0], [], 1, []⟩,
   ⟨P.LCK_LATE, 512, 48, .ro, [0], [], 1, []⟩,
   ⟨P.LCK_COPY_ABANDON, 512, 48, .ro, [0], [], 1, []⟩,
   ⟨P.LCK_SWITCH_DELAY, 512, 48, .ro, [0], [], 1, []⟩,
   ⟨P.LCK_GATE_OVERRUN, 512, 48, .ro, [0], [], 1, []⟩,
   ⟨P.LCK_PORT_FLAGS, 512, 1, .ro, [0], [], 1, []⟩,
   ⟨P.LCK_MC_GROUP, 16384, 32, .live, [6400], [], 1, []⟩,
   ⟨P.LCK_GROUP, 16384, 64, .live, [0x3ff807d006400000], [], 1, []⟩,
   ⟨P.LCK_PORTSET, 16384, 64, .live, [0xffffffffffffffff, 0xffffffffffffffff, 0xffffffffffffffff, 0xffffffffffffffff, 0xffffffffffffffff, 0xffffffffffffffff, 0xffffffffffffffff, 0xffffffffffffffff, 0], [], 1, []⟩]

/-- The parameters of block TBS, in address order. -/
def paramsTbs : List Param :=
  [⟨P.TBS_BOUND_LIMIT, 1, 32, .live, [0x186a0], [(1000, 3600000000)], 1, []⟩,
   ⟨P.TBS_UTC_OFFSET, 1, 16, .commit, [0], [], 1, []⟩,
   ⟨P.TBS_UTC_SOURCE, 1, 2, .live, [0], [(0, 2)], 1, []⟩,
   ⟨P.TBS_LEAP, 1, 2, .commit, [0], [(0, 2)], 1, []⟩,
   ⟨P.TBS_UTC_VALID, 1, 1, .ro, [0], [], 1, []⟩,
   ⟨P.TBS_SET_REQ, 1, 1, .commit, [0], [], 1, []⟩,
   ⟨P.TBS_SET_SEC, 1, 48, .commit, [0], [], 1, []⟩,
   ⟨P.TBS_EPOCH, 1, 64, .ro, [0], [], 1, []⟩,
   ⟨P.TBS_EPOCH_SEC, 1, 48, .ro, [0], [], 1, []⟩,
   ⟨P.TBS_EPOCH_AGE, 1, 32, .ro, [0], [], 1, []⟩,
   ⟨P.TBS_GNSS_K, 1, 8, .live, [32], [(16, 96)], 1, []⟩,
   ⟨P.TBS_SWITCH_WIDEN, 1, 16, .live, [50], [(0, 10000)], 1, []⟩,
   ⟨P.TBS_FREE_Q, 1, 16, .ro, [1600], [], 1, []⟩,
   ⟨P.TBS_BOUND_NOW, 1, 8, .ro, [255], [], 1, []⟩,
   ⟨P.TBS_BOUND_PS, 1, 32, .ro, [0xffffffff], [], 1, []⟩,
   ⟨P.TBS_DOM_LINK, 2, 3, .commit, [0], [(0, 0), (3, 6)], 1, []⟩,
   ⟨P.TBS_DOM_OFFSET, 2, 64, .ro, [0], [], 1, []⟩,
   ⟨P.TBS_DOM_BOUND, 2, 8, .ro, [255], [], 1, []⟩,
   ⟨P.TBS_DOM_SELECTED, 1, 2, .ro, [2], [], 1, []⟩,
   ⟨P.TBS_OVW_OFFSET, 8, 14, .live, [0], [(0, 0), (14, 9716)], 1, []⟩,
   ⟨P.TBS_OVW_FORMAT, 8, 3, .live, [0], [], 1, []⟩,
   ⟨P.TBS_PTP_ENABLE, 1, 1, .live, [1], [], 1, []⟩,
   ⟨P.TBS_PTP_SKIP, 1, 48, .ro, [0], [], 1, []⟩,
   ⟨P.TBS_TRAILER_SKIP, 1, 48, .ro, [0], [], 1, []⟩,
   ⟨P.TBS_OVW_SKIP, 1, 48, .ro, [0], [], 1, []⟩,
   ⟨P.TBS_OVER_LIMIT_COUNT, 1, 48, .ro, [0], [], 1, []⟩]

/-- The parameters of block LNK, in address order. -/
def paramsLnk : List Param :=
  [⟨P.LNK_SYNC_RATE, 1, 8, .live, [16], [(1, 1), (2, 2), (4, 4), (8, 8), (16, 16), (32, 32), (64, 64), (128, 128)], 1, []⟩,
   ⟨P.LNK_RESP_TIMEOUT, 1, 8, .live, [10], [(1, 100)], 1, []⟩,
   ⟨P.LNK_RT_JUMP, 1, 16, .live, [100], [(10, 10000)], 1, []⟩,
   ⟨P.LNK_MEAS_N, 1, 9, .live, [16], [(4, 256)], 1, []⟩,
   ⟨P.LNK_DISCARD_MAX, 1, 5, .live, [3], [(1, 16)], 1, []⟩,
   ⟨P.LNK_DDMTD_AVG, 1, 4, .commit, [5], [(0, 10)], 1, []⟩,
   ⟨P.LNK_DDMTD_GLITCH, 1, 11, .commit, [64], [(8, 1024)], 1, []⟩,
   ⟨P.LNK_DDMTD_SETTLE, 1, 16, .live, [100], [(10, 10000)], 1, []⟩,
   ⟨P.LNK_DDMTD_SLEW, 1, 16, .live, [100], [(10, 10000)], 1, []⟩,
   ⟨P.LNK_SLIP_WIDEN, 1, 16, .live, [200], [(0, 10000)], 1, []⟩,
   ⟨P.LNK_SLIP_HOLD, 1, 16, .live, [2000], [(0, 60000)], 1, []⟩,
   ⟨P.LNK_HOP_MARGIN, 1, 16, .live, [10], [(0, 1000)], 1, []⟩,
   ⟨P.LNK_ASYM_UNCAL_PPM, 1, 14, .live, [1000], [(0, 10000)], 1, []⟩,
   ⟨P.LNK_ACAL_INPUT, 1, 4, .live, [0], [(0, 8)], 1, []⟩,
   ⟨P.LNK_ACAL_PATH, 1, 32, .live, [0], [], 1, []⟩,
   ⟨P.LNK_ACAL_PATH_U, 1, 16, .live, [0], [], 1, []⟩,
   ⟨P.LNK_ACAL_N, 1, 16, .live, [64], [(16, 4096)], 1, []⟩,
   ⟨P.LNK_PTP_DOMAIN, 1, 8, .live, [0], [(0, 127)], 1, []⟩,
   ⟨P.LNK_PTP_PRIO1, 1, 8, .live, [128], [], 1, []⟩,
   ⟨P.LNK_PTP_PRIO2, 1, 8, .live, [128], [], 1, []⟩,
   ⟨P.LNK_PTP_LOG_SYNC, 1, 4, .live, [12], [(0, 1), (9, 15)], 1, []⟩,
   ⟨P.LNK_PTP_LOG_ANN, 1, 4, .live, [0], [(0, 3), (13, 15)], 1, []⟩,
   ⟨P.LNK_PTP_GRANT_MAX, 1, 16, .live, [300], [(10, 1000)], 1, []⟩,
   ⟨P.LNK_PTP_UNICAST, 1, 13, .ro, [0], [], 1, []⟩,
   ⟨P.LNK_PTP_REFUSED, 1, 48, .ro, [0], [], 1, []⟩,
   ⟨P.LNK_CLASS, 128, 1, .commit, [0], [], 1, []⟩,
   ⟨P.LNK_ROLE, 512, 2, .commit, [0], [(0, 2)], 1, []⟩,
   ⟨P.LNK_ASYM, 512, 32, .commit, [0], [], 1, []⟩,
   ⟨P.LNK_ASYM_RES, 512, 16, .commit, [65535], [], 1, []⟩,
   ⟨P.LNK_STATE, 512, 3, .ro, [0], [], 1, []⟩,
   ⟨P.LNK_FLAGS, 512, 6, .ro, [0], [], 1, []⟩,
   ⟨P.LNK_RT, 512, 64, .ro, [0], [], 1, []⟩,
   ⟨P.LNK_OFFSET, 512, 64, .ro, [0], [], 1, []⟩,
   ⟨P.LNK_BEVT, 512, 16, .ro, [0], [], 1, []⟩,
   ⟨P.LNK_DISCARDS, 512, 48, .ro, [0], [], 1, []⟩,
   ⟨P.LNK_PHASE, 512, 14, .ro, [0], [], 1, []⟩,
   ⟨P.LNK_PTP_PORT_EN, 512, 2, .live, [0], [(0, 2)], 1, []⟩]

/-- The parameters of block REF, in address order. -/
def paramsRef : List Param :=
  [⟨P.REF_TSTATE, 1, 3, .ro, [0], [], 1, []⟩,
   ⟨P.REF_ACTIVE, 1, 4, .ro, [8], [], 1, []⟩,
   ⟨P.REF_PINS, 1, 3, .ro, [7], [], 1, []⟩,
   ⟨P.REF_TIME_SET, 1, 1, .ro, [0], [], 1, []⟩,
   ⟨P.REF_PHASE_SLOPE, 1, 14, .live, [100], [(1, 10000)], 1, []⟩,
   ⟨P.REF_FREQ_SLOPE, 1, 16, .ro, [1000], [], 1, []⟩,
   ⟨P.REF_JUMP_POLICY, 1, 1, .live, [0], [], 1, []⟩,
   ⟨P.REF_CONFIRM_TIME, 1, 16, .live, [60], [(10, 3600)], 1, []⟩,
   ⟨P.REF_WTR, 1, 16, .live, [300], [(0, 3600)], 1, []⟩,
   ⟨P.REF_DRIFT_FRAC, 1, 7, .live, [50], [(10, 90)], 1, []⟩,
   ⟨P.REF_PIN_DEBOUNCE, 1, 10, .live, [10], [(1, 1000)], 1, []⟩,
   ⟨P.REF_PPS_FREERUN, 1, 1, .live, [0], [], 1, []⟩,
   ⟨P.REF_PH_WINDOW, 1, 16, .live, [600], [(60, 3600)], 1, []⟩,
   ⟨P.REF_PULL_DONE, 1, 14, .live, [100], [(10, 10000)], 1, []⟩,
   ⟨P.REF_ACT_MISS, 1, 4, .live, [2], [(1, 15)], 1, []⟩,
   ⟨P.REF_PULL_REM, 1, 64, .ro, [0], [], 1, []⟩,
   ⟨P.REF_BW, 4, 17, .commit, [10, 100, 1000, 20000], [], 1, [[(1, 100)], [(10, 1000)], [(100, 10000)], [(1000, 100000)]]⟩,
   ⟨P.REF_LINK_PORT, 4, 10, .commit, [1023], [(0, 511), (1023, 1023)], 1, []⟩,
   ⟨P.REF_EXT_MODE, 2, 2, .commit, [3], [], 1, []⟩,
   ⟨P.REF_EXT_BOUND, 2, 32, .live, [0xffffffff], [], 1, []⟩,
   ⟨P.REF_PRIO, 8, 4, .live, [1, 2, 3, 4, 5, 6, 7, 0], [], 1, [[(0, 15)], [(0, 15)], [(0, 15)], [(0, 15)], [(0, 15)], [(0, 15)], [(0, 15)], [(0, 0)]]⟩,
   ⟨P.REF_HOLDOFF, 8, 16, .live, [600, 100, 100, 20, 20, 20, 20, 0], [], 1, [[(1, 36000)], [(1, 36000)], [(1, 36000)], [(1, 36000)], [(1, 36000)], [(1, 36000)], [(1, 36000)], []]⟩,
   ⟨P.REF_FREQ_ACCEPT, 8, 15, .live, [500], [(10, 10000)], 1, []⟩,
   ⟨P.REF_FREQ_REJECT, 8, 15, .live, [2000], [(20, 20000)], 1, []⟩,
   ⟨P.REF_PH_ACCEPT, 8, 32, .live, [50000], [(1000, 1000000)], 1, []⟩,
   ⟨P.REF_PH_REJECT, 8, 32, .live, [0x3d090], [(2000, 10000000)], 1, []⟩,
   ⟨P.REF_QSTATE, 8, 3, .ro, [6], [], 1, []⟩,
   ⟨P.REF_KIND, 8, 2, .ro, [0], [], 1, []⟩,
   ⟨P.REF_FREQ, 8, 32, .ro, [0], [], 1, []⟩,
   ⟨P.REF_PHASE, 8, 64, .ro, [0], [], 1, []⟩,
   ⟨P.REF_DEV, 8, 64, .ro, [0], [], 1, []⟩,
   ⟨P.REF_BREF, 8, 32, .ro, [0xffffffff], [], 1, []⟩,
   ⟨P.REF_HOLDOFF_LEFT, 8, 16, .ro, [0], [], 1, []⟩,
   ⟨P.REF_WTR_LEFT, 1, 16, .ro, [0], [], 1, []⟩,
   ⟨P.REF_FLAGS, 1, 6, .w1c, [0], [], 1, []⟩,
   ⟨P.REF_RESERVED, 6, 0, .reserved, [0], [], 1, []⟩,
   ⟨P.REF_HO_Y0, 2, 64, .ro, [0], [], 1, []⟩,
   ⟨P.REF_HO_D, 2, 64, .ro, [0], [], 1, []⟩,
   ⟨P.REF_HO_C, 2, 64, .ro, [0], [], 1, []⟩,
   ⟨P.REF_HO_YU, 2, 32, .ro, [0], [], 1, []⟩] ++
  [⟨P.REF_HO_DU, 2, 32, .ro, [0], [], 1, []⟩,
   ⟨P.REF_HO_CU, 2, 32, .ro, [0], [], 1, []⟩,
   ⟨P.REF_HO_LEARNED, 2, 18, .ro, [0], [], 1, []⟩,
   ⟨P.REF_HO_TMEAN, 2, 32, .ro, [0], [], 1, []⟩,
   ⟨P.REF_HO_YU0, 1, 32, .live, [0x186a0], [], 1, []⟩,
   ⟨P.REF_HO_DU0, 1, 32, .live, [0x4c4b40], [], 1, []⟩,
   ⟨P.REF_HO_CU0, 1, 32, .live, [10000], [], 1, []⟩,
   ⟨P.REF_DISQ_COUNT, 8, 48, .ro, [0], [], 1, []⟩,
   ⟨P.REF_SWLOG_HEAD, 1, 6, .ro, [0], [], 1, []⟩,
   ⟨P.REF_SWLOG_TIME, 64, 64, .ro, [0], [], 1, []⟩,
   ⟨P.REF_SWLOG_INFO, 64, 32, .ro, [0], [], 1, []⟩]

/-- The parameters of block COR, in address order. -/
def paramsCor : List Param :=
  [⟨P.COR_ACTIVE, 1, 1, .ro, [0], [], 1, []⟩,
   ⟨P.COR_STATE, 2, 3, .ro, [0], [], 1, []⟩,
   ⟨P.COR_SCORE, 2, 7, .ro, [0], [], 1, []⟩,
   ⟨P.COR_MIN_SCORE, 1, 7, .live, [60], [(0, 100)], 1, []⟩,
   ⟨P.COR_XLOCK_BW, 1, 16, .commit, [100], [(1, 1000)], 1, []⟩,
   ⟨P.COR_XLOCK_SETTLE, 1, 16, .live, [10], [(1, 600)], 1, []⟩,
   ⟨P.COR_RECOVER_TIME, 1, 16, .live, [60], [(10, 3600)], 1, []⟩,
   ⟨P.COR_OVEN_MARG, 1, 16, .live, [50], [(10, 1000)], 1, []⟩,
   ⟨P.COR_OVEN_FAIL, 1, 16, .live, [200], [(20, 5000)], 1, []⟩,
   ⟨P.COR_SHADOW_TOL, 1, 8, .live, [4], [(1, 100)], 1, []⟩,
   ⟨P.COR_PEER_ERR, 2, 32, .ro, [0], [], 1, []⟩,
   ⟨P.COR_SWITCH_COUNT, 1, 48, .ro, [0], [], 1, []⟩,
   ⟨P.COR_LAST_CAUSE, 1, 3, .ro, [0], [], 1, []⟩,
   ⟨P.COR_FLAGS, 1, 3, .w1c, [0], [], 1, []⟩,
   ⟨P.COR_TEST_RESULT, 10, 2, .ro, [3], [], 1, []⟩,
   ⟨P.COR_SHADOW_MISMATCH, 512, 48, .ro, [0], [], 1, []⟩]

/-- The parameters of block GNS, in address order. -/
def paramsGns : List Param :=
  [⟨P.GNS_ENABLE, 1, 1, .commit, [1], [], 1, []⟩,
   ⟨P.GNS_SIGNALS, 1, 5, .halt, [31], [], 1, []⟩,
   ⟨P.GNS_ANT_BIAS, 1, 2, .live, [0], [(0, 2)], 1, []⟩,
   ⟨P.GNS_ANT_STATUS, 1, 2, .ro, [0], [], 1, []⟩,
   ⟨P.GNS_ANT_DELAY, 1, 32, .live, [0], [], 1, []⟩,
   ⟨P.GNS_ANT_U, 1, 32, .live, [1000], [(0, 1000000)], 1, []⟩,
   ⟨P.GNS_TIME_CORR, 1, 32, .live, [0], [], 1, []⟩,
   ⟨P.GNS_ELEV_MASK, 1, 7, .live, [10], [(0, 60)], 1, []⟩,
   ⟨P.GNS_CN0_MIN, 1, 6, .live, [25], [(15, 45)], 1, []⟩,
   ⟨P.GNS_ACQ_DOPPLER, 1, 16, .live, [6000], [(1000, 20000)], 1, []⟩,
   ⟨P.GNS_ACQ_THRESH, 1, 5, .live, [12], [(6, 24)], 1, []⟩,
   ⟨P.GNS_MIN_SATS, 1, 4, .live, [4], [(1, 12)], 1, []⟩,
   ⟨P.GNS_SIGMA_MAX, 1, 32, .live, [20000], [(1000, 1000000)], 1, []⟩,
   ⟨P.GNS_POS_MODE, 1, 1, .commit, [0], [], 1, []⟩,
   ⟨P.GNS_FIX_X, 1, 64, .commit, [0], [], 1, []⟩,
   ⟨P.GNS_FIX_Y, 1, 64, .commit, [0], [], 1, []⟩,
   ⟨P.GNS_FIX_Z, 1, 64, .commit, [0], [], 1, []⟩,
   ⟨P.GNS_SURVEY_TIME, 1, 20, .commit, [86400], [(600, 604800)], 1, []⟩,
   ⟨P.GNS_SURVEY_RESUME, 1, 16, .live, [3600], [], 1, []⟩,
   ⟨P.GNS_SURVEY_TOL, 1, 32, .live, [10000], [(100, 1000000)], 1, []⟩,
   ⟨P.GNS_SURVEY_STATE, 1, 2, .ro, [0], [], 1, []⟩,
   ⟨P.GNS_SURVEY_DONE, 1, 20, .ro, [0], [], 1, []⟩,
   ⟨P.GNS_SURVEY_RESTARTS, 1, 48, .ro, [0], [], 1, []⟩,
   ⟨P.GNS_SURV_X, 1, 64, .ro, [0], [], 1, []⟩,
   ⟨P.GNS_SURV_Y, 1, 64, .ro, [0], [], 1, []⟩,
   ⟨P.GNS_SURV_Z, 1, 64, .ro, [0], [], 1, []⟩,
   ⟨P.GNS_SURV_SIGMA, 1, 32, .ro, [0], [], 1, []⟩,
   ⟨P.GNS_RING, 1, 8, .live, [255], [(0, 15), (255, 255)], 1, []⟩,
   ⟨P.GNS_LAST_PULSE, 4, 64, .ro, [0], [], 1, []⟩,
   ⟨P.GNS_SNAP_OFFSET, 1, 64, .ro, [0x8000000000000000], [], 1, []⟩,
   ⟨P.GNS_SPOOF_TOL, 1, 32, .live, [0x186a0], [(1000, 10000000)], 1, []⟩,
   ⟨P.GNS_SPOOF_ACTION, 1, 1, .live, [0], [], 1, []⟩,
   ⟨P.GNS_FLAGS, 1, 3, .w1c, [0], [], 1, []⟩,
   ⟨P.GNS_SHUTTER_DUTY, 1, 1, .live, [0], [], 1, []⟩,
   ⟨P.GNS_DUTY_PERIOD, 1, 16, .live, [60], [(10, 3600)], 1, []⟩,
   ⟨P.GNS_SATS_TRACKED, 1, 7, .ro, [0], [], 1, []⟩]

/-- The parameters of block EVT, in address order. -/
def paramsEvt : List Param :=
  [⟨P.EVT_ENABLE, 9, 1, .live, [0, 0, 0, 0, 0, 0, 0, 0, 1], [], 1, []⟩,
   ⟨P.EVT_MODE, 8, 2, .live, [0], [], 1, [[(0, 1)], [(0, 0)], [(0, 1)], [(0, 0)], [(0, 1)], [(0, 0)], [(0, 1)], [(0, 0)]]⟩,
   ⟨P.EVT_THRESH, 9, 11, .live, [1250], [(100, 2000)], 10, []⟩,
   ⟨P.EVT_EDGE, 9, 2, .live, [0], [(0, 2)], 1, []⟩,
   ⟨P.EVT_RING, 9, 8, .live, [255], [(0, 15), (255, 255)], 1, []⟩,
   ⟨P.EVT_MISSED, 9, 48, .ro, [0], [], 1, []⟩,
   ⟨P.EVT_COUNT, 9, 48, .ro, [0], [], 1, []⟩,
   ⟨P.EVT_OOR, 9, 48, .ro, [0], [], 1, []⟩,
   ⟨P.EVT_RES, 9, 16, .ro, [1600], [], 1, []⟩,
   ⟨P.EVT_LIVE_UNIT, 9, 1, .ro, [0], [], 1, []⟩,
   ⟨P.EVT_INL, 18, 16, .ro, [0], [], 1, []⟩,
   ⟨P.EVT_SS_RMS, 18, 16, .ro, [0], [], 1, []⟩,
   ⟨P.EVT_CD_HITS, 1, 5, .live, [22], [(20, 26)], 1, []⟩,
   ⟨P.EVT_INL_MAX, 1, 16, .live, [100], [(10, 1000)], 1, []⟩,
   ⟨P.EVT_PAIR_WIN, 1, 20, .live, [0x7a120], [(1, 1000000)], 1, []⟩,
   ⟨P.EVT_FLAGS, 1, 2, .w1c, [0], [], 1, []⟩,
   ⟨P.EVT_ACC_MODE, 8, 2, .commit, [0], [], 1, []⟩,
   ⟨P.EVT_ACC_A, 8, 4, .commit, [0], [(0, 8)], 1, []⟩,
   ⟨P.EVT_ACC_B, 8, 4, .commit, [0], [(0, 8)], 1, []⟩,
   ⟨P.EVT_ACC_N, 8, 33, .commit, [1024], [(2, 4294967296)], 1, []⟩,
   ⟨P.EVT_CD_WIDTH, 9216, 16, .ro, [0], [], 1, []⟩]

/-- The parameters of block CAL, in address order. -/
def paramsCal : List Param :=
  [⟨P.CAL_TEMP_DELTA, 1, 8, .live, [40], [(5, 200)], 1, []⟩,
   ⟨P.CAL_AUTO_ENABLE, 1, 1, .live, [1], [], 1, []⟩,
   ⟨P.CAL_AUTO_LANES, 1, 6, .live, [16], [(1, 32)], 1, []⟩,
   ⟨P.CAL_LANE_MS, 1, 10, .live, [20], [(5, 1000)], 1, []⟩,
   ⟨P.CAL_N, 1, 16, .live, [256], [(16, 65535)], 1, []⟩,
   ⟨P.CAL_TEMP_U, 1, 8, .live, [10], [(0, 100)], 1, []⟩,
   ⟨P.CAL_PILOT_LEVEL, 1, 6, .live, [25], [(15, 40)], 1, []⟩,
   ⟨P.CAL_TAP_INTERVAL, 1, 10, .live, [1], [(1, 1000)], 1, []⟩,
   ⟨P.CAL_IN_CABLE, 1, 32, .live, [0], [], 1, []⟩,
   ⟨P.CAL_REF_U, 1, 32, .live, [0xffffffff], [], 1, []⟩,
   ⟨P.CAL_FREQ_SRC, 1, 2, .live, [0], [(0, 2)], 1, []⟩,
   ⟨P.CAL_TRACE_N, 1, 10, .live, [60], [(10, 1000)], 1, []⟩,
   ⟨P.CAL_BUSY, 1, 1, .ro, [0], [], 1, []⟩,
   ⟨P.CAL_STARTUP_DONE, 1, 1, .ro, [0], [], 1, []⟩,
   ⟨P.CAL_FLAGS, 1, 4, .w1c, [0], [], 1, []⟩,
   ⟨P.CAL_TRACE_OFFSET, 1, 64, .ro, [0], [], 1, []⟩,
   ⟨P.CAL_TRACE_FREQ, 1, 32, .ro, [0], [], 1, []⟩,
   ⟨P.CAL_TRACE_U, 1, 32, .ro, [0xffffffff], [], 1, []⟩,
   ⟨P.CAL_TRACE_TIME, 1, 64, .ro, [0], [], 1, []⟩,
   ⟨P.CAL_OUT_TRIM, 8, 8, .ro, [128], [], 1, []⟩,
   ⟨P.CAL_OUT_RES, 8, 16, .ro, [0], [], 1, []⟩,
   ⟨P.CAL_REFIN_DELAY, 4, 32, .ro, [0], [], 1, []⟩,
   ⟨P.CAL_REFIN_RES, 4, 16, .ro, [1600], [], 1, []⟩,
   ⟨P.CAL_EVT_DELAY, 9, 32, .ro, [0], [], 1, []⟩,
   ⟨P.CAL_DRX, 512, 32, .ro, [0], [], 1, []⟩,
   ⟨P.CAL_DTX, 512, 32, .ro, [0], [], 1, []⟩,
   ⟨P.CAL_TXFD, 512, 9, .ro, [256], [], 1, []⟩,
   ⟨P.CAL_EYE_W, 512, 10, .ro, [0], [], 1, []⟩,
   ⟨P.CAL_EYE_H, 512, 10, .ro, [0], [], 1, []⟩,
   ⟨P.CAL_PORT_RES, 512, 16, .ro, [1600], [], 1, []⟩,
   ⟨P.CAL_LANE_TCAL, 512, 16, .ro, [0], [], 1, []⟩]

/-- The parameters of block LAN, in address order. -/
def paramsLan : List Param :=
  [⟨P.LAN_REALIGN_TIME, 1, 16, .live, [100], [(10, 10000)], 1, []⟩,
   ⟨P.LAN_FAMILY, 32, 2, .ro, [0], [], 1, []⟩,
   ⟨P.LAN_RATE, 128, 3, .commit, [0], [(0, 4)], 1, []⟩,
   ⟨P.LAN_ALIGN, 128, 2, .commit, [0], [(0, 2)], 1, []⟩,
   ⟨P.LAN_FREE_REF, 128, 1, .commit, [0], [], 1, []⟩,
   ⟨P.LAN_ENABLE, 512, 1, .commit, [0], [], 1, []⟩,
   ⟨P.LAN_STATE, 512, 3, .ro, [0], [], 1, []⟩,
   ⟨P.LAN_CTLE_MODE, 512, 1, .live, [0], [], 1, []⟩,
   ⟨P.LAN_CTLE_SET, 512, 6, .live, [16], [(0, 48)], 1, []⟩,
   ⟨P.LAN_CTLE, 512, 6, .ro, [0], [], 1, []⟩,
   ⟨P.LAN_SLICER_AUTO, 512, 1, .live, [1], [], 1, []⟩,
   ⟨P.LAN_SLICER, 1536, 8, .live, [0], [(0, 63), (192, 255)], 1, []⟩,
   ⟨P.LAN_S, 512, 6, .ro, [0], [], 1, []⟩,
   ⟨P.LAN_G, 512, 7, .ro, [0], [], 1, []⟩,
   ⟨P.LAN_SLIPS, 512, 48, .ro, [0], [], 1, []⟩,
   ⟨P.LAN_REALIGNS, 512, 48, .ro, [0], [], 1, []⟩,
   ⟨P.LAN_FEC_CORR, 512, 48, .ro, [0], [], 1, []⟩,
   ⟨P.LAN_FEC_UNCORR, 512, 48, .ro, [0], [], 1, []⟩]

/-- The parameters of block SYN, in address order. -/
def paramsSyn : List Param :=
  [⟨P.SYN_BAND_TEMP, 1, 10, .live, [200], [(20, 1000)], 1, []⟩,
   ⟨P.SYN_PENDING, 1, 4, .ro, [0], [], 1, []⟩,
   ⟨P.SYN_FLAGS, 1, 2, .w1c, [0], [], 1, []⟩,
   ⟨P.SYN_OUT_INT, 4, 5, .commit, [24], [(20, 27)], 1, []⟩,
   ⟨P.SYN_OUT_FRAC, 4, 32, .commit, [0], [], 1, []⟩,
   ⟨P.SYN_OUT_MOD, 4, 32, .commit, [1], [(1, 4294967295)], 1, []⟩,
   ⟨P.SYN_OUT_DIV, 4, 24, .commit, [1200], [(10, 16777215)], 1, []⟩,
   ⟨P.SYN_OUT_PHASE, 4, 18, .commit, [0], [], 1, []⟩,
   ⟨P.SYN_OUT_ENABLE, 4, 1, .live, [0], [], 1, []⟩,
   ⟨P.SYN_STATE, 38, 2, .ro, [0], [], 1, []⟩,
   ⟨P.SYN_VCO_FREQ, 38, 24, .ro, [0], [], 1, []⟩,
   ⟨P.SYN_BAND_HITS, 38, 48, .ro, [0], [], 1, []⟩,
   ⟨P.SYN_BAND_MISSES, 38, 48, .ro, [0], [], 1, []⟩]

/-- The parameters of block OPT, in address order. -/
def paramsOpt : List Param :=
  [⟨P.OPT_SWAP_NOTICE, 1, 16, .live, [1000], [(100, 60000)], 1, []⟩,
   ⟨P.OPT_BIAS_WARN, 1, 8, .live, [90], [(20, 150)], 1, []⟩,
   ⟨P.OPT_BIAS_FAIL, 1, 8, .live, [120], [(30, 200)], 1, []⟩,
   ⟨P.OPT_FLAGS, 1, 2, .w1c, [0], [], 1, []⟩,
   ⟨P.OPT_SPARE_USED, 32, 1, .ro, [0], [], 1, []⟩,
   ⟨P.OPT_TEC_TEMP, 32, 16, .ro, [0], [], 1, []⟩,
   ⟨P.OPT_LASER_STATE, 160, 2, .ro, [1, 1, 1, 1, 0], [], 1, []⟩,
   ⟨P.OPT_BIAS, 160, 16, .ro, [0], [], 1, []⟩,
   ⟨P.OPT_TX_POWER, 512, 16, .ro, [0], [], 1, []⟩,
   ⟨P.OPT_RX_POWER, 512, 16, .ro, [0], [], 1, []⟩]

/-- The parameters of block LOG, in address order. -/
def paramsLog : List Param :=
  [⟨P.LOG_FULL_POLICY, 1, 1, .live, [0], [], 1, []⟩,
   ⟨P.LOG_SEAL_INTERVAL, 1, 20, .commit, [1000], [(100, 100), (125, 125), (160, 160), (200, 200), (250, 250), (320, 320), (400, 400), (500, 500), (625, 625), (800, 800), (1000, 1000), (1250, 1250), (1600, 1600), (2000, 2000), (2500, 2500), (3125, 3125), (4000, 4000), (5000, 5000), (6250, 6250), (8000, 8000), (10000, 10000), (12500, 12500), (15625, 15625), (20000, 20000), (25000, 25000), (31250, 31250), (40000, 40000), (50000, 50000), (62500, 62500), (100000, 100000), (125000, 125000), (200000, 200000), (250000, 250000), (500000, 500000), (1000000, 1000000)], 1, []⟩,
   ⟨P.LOG_SPILL_LIMIT, 1, 19, .live, [0x7c000], [(65536, 507904)], 1, []⟩,
   ⟨P.LOG_SPILL_RESUME, 1, 19, .live, [0x60000], [], 1, []⟩,
   ⟨P.LOG_SPILL_USED, 1, 20, .ro, [0], [], 1, []⟩,
   ⟨P.LOG_SPILL_PEAK, 1, 20, .ro, [0], [], 1, []⟩,
   ⟨P.LOG_HOLD_ACTIVE, 1, 1, .ro, [0], [], 1, []⟩,
   ⟨P.LOG_HOLD_TIME, 1, 64, .ro, [0], [], 1, []⟩,
   ⟨P.LOG_KEY_STATE, 1, 2, .ro, [0], [], 1, []⟩,
   ⟨P.LOG_KEY_SERIAL, 1, 16, .ro, [0], [], 1, []⟩,
   ⟨P.LOG_MARK_LOST, 1, 48, .ro, [0], [], 1, []⟩,
   ⟨P.LOG_FLAGS, 1, 5, .w1c, [0], [], 1, []⟩,
   ⟨P.LOG_CH_ENABLE, 16, 1, .commit, [0], [], 1, []⟩,
   ⟨P.LOG_RING, 16, 8, .commit, [255], [(0, 15), (255, 255)], 1, []⟩,
   ⟨P.LOG_DATA_OFFSET, 16, 14, .live, [0], [(0, 9720)], 1, []⟩,
   ⟨P.LOG_RECORDS, 16, 64, .ro, [0], [], 1, []⟩,
   ⟨P.LOG_SEAL_SEQ, 16, 64, .ro, [0], [], 1, []⟩,
   ⟨P.LOG_UNLOGGED, 16, 48, .ro, [0], [], 1, []⟩,
   ⟨P.LOG_SEALS_MERGED, 16, 48, .ro, [0], [], 1, []⟩,
   ⟨P.LOG_UNROUTED, 16, 48, .ro, [0], [], 1, []⟩]

/-- The parameters of block SPD, in address order. -/
def paramsSpd : List Param :=
  [⟨P.SPD_LIFECYCLE, 1, 3, .ro, [0], [], 1, []⟩,
   ⟨P.SPD_TAMPER_SRC, 1, 5, .w1c, [0], [], 1, []⟩,
   ⟨P.SPD_TEMP_LOW, 1, 16, .ro, [65286], [], 1, []⟩,
   ⟨P.SPD_TEMP_HIGH, 1, 16, .ro, [1200], [], 1, []⟩,
   ⟨P.SPD_WIPE_BUSY, 1, 1, .ro, [0], [], 1, []⟩,
   ⟨P.SPD_WIPE_COUNT, 1, 48, .ro, [0], [], 1, []⟩,
   ⟨P.SPD_WIPE_CAUSE, 1, 3, .ro, [0], [], 1, []⟩,
   ⟨P.SPD_WIPE_TIME, 1, 64, .ro, [0], [], 1, []⟩,
   ⟨P.SPD_FLAGS, 1, 3, .w1c, [0], [], 1, []⟩,
   ⟨P.SPD_ECC_ADDR, 1, 26, .ro, [0], [], 1, []⟩,
   ⟨P.SPD_VIOL, 1, 16, .w1c, [0], [], 1, []⟩,
   ⟨P.SPD_FROZEN, 1, 16, .ro, [0], [], 1, []⟩,
   ⟨P.SPD_VIOL_ADDR, 16, 26, .ro, [0], [], 1, []⟩,
   ⟨P.SPD_VIOL_TIME, 16, 64, .ro, [0], [], 1, []⟩,
   ⟨P.SPD_VIOL_KIND, 16, 2, .ro, [0], [], 1, []⟩,
   ⟨P.SPD_ECC_CORR, 32, 48, .ro, [0], [], 1, []⟩,
   ⟨P.SPD_ECC_UNCORR, 32, 48, .ro, [0], [], 1, []⟩,
   ⟨P.SPD_CONFLICT_B, 32, 48, .ro, [0], [], 1, []⟩,
   ⟨P.SPD_CONFLICT_M, 16, 48, .ro, [0], [], 1, []⟩]

/-- The parameters of block ARB, in address order. -/
def paramsArb : List Param :=
  [⟨P.ARB_WINDOW, 1, 8, .commit, [64], [(16, 255)], 1, []⟩,
   ⟨P.ARB_QUOTA, 1, 8, .commit, [48], [(1, 255)], 1, []⟩,
   ⟨P.ARB_QUOTA_EN, 1, 16, .commit, [61440], [], 1, []⟩,
   ⟨P.ARB_PRIO, 16, 4, .commit, [0, 1, 2, 3, 4, 5, 6, 7, 8, 9, 10, 11, 12, 13, 14, 15], [], 1, []⟩,
   ⟨P.ARB_GRANTS, 16, 48, .ro, [0], [], 1, []⟩,
   ⟨P.ARB_PREEMPT, 16, 48, .ro, [0], [], 1, []⟩,
   ⟨P.ARB_QUOTA_MASKED, 16, 48, .ro, [0], [], 1, []⟩]

/-- The parameters of block HIE, in address order. -/
def paramsHie : List Param :=
  [⟨P.HIE_ENABLE, 1, 1, .live, [1], [], 1, []⟩,
   ⟨P.HIE_ROLE, 1, 1, .halt, [1], [], 1, []⟩,
   ⟨P.HIE_IDENTITY, 1, 64, .ro, [0], [], 1, []⟩,
   ⟨P.HIE_PORT_MAC_BASE, 1, 48, .ro, [0], [], 1, []⟩,
   ⟨P.HIE_VERSIONS, 1, 8, .ro, [14], [], 1, []⟩,
   ⟨P.HIE_MANAGER_ID, 1, 64, .live, [0], [], 1, []⟩,
   ⟨P.HIE_MEMBER_STATE, 1, 3, .ro, [0], [], 1, []⟩,
   ⟨P.HIE_DEPTH, 1, 4, .ro, [15], [], 1, []⟩,
   ⟨P.HIE_WORKER_NUM, 1, 16, .ro, [65535], [], 1, []⟩,
   ⟨P.HIE_PARENT_ID, 1, 64, .ro, [0], [], 1, []⟩,
   ⟨P.HIE_PARENT_PORT, 1, 10, .ro, [1023], [], 1, []⟩,
   ⟨P.HIE_LOST_TIME, 1, 16, .live, [3000], [(1500, 60000)], 1, []⟩,
   ⟨P.HIE_AGE, 1, 10, .live, [10], [(3, 600)], 1, []⟩,
   ⟨P.HIE_REPORT_PERIOD, 1, 10, .live, [4], [(1, 599)], 1, []⟩,
   ⟨P.HIE_FANOUT_WINDOW, 1, 9, .live, [64], [(1, 256)], 1, []⟩,
   ⟨P.HIE_FLAGS, 1, 6, .w1c, [0], [], 1, []⟩,
   ⟨P.HIE_REG_MODULES, 1, 13, .ro, [0], [], 1, []⟩,
   ⟨P.HIE_REG_CLIENTS, 1, 18, .ro, [0], [], 1, []⟩,
   ⟨P.HIE_REG_REFUSED, 1, 48, .ro, [0], [], 1, []⟩,
   ⟨P.HIE_JOINS, 1, 48, .ro, [0], [], 1, []⟩,
   ⟨P.HIE_LEAVES, 1, 48, .ro, [0], [], 1, []⟩,
   ⟨P.HIE_TUNNEL_TIMEOUTS, 1, 48, .ro, [0], [], 1, []⟩,
   ⟨P.HIE_RX_DISCARD, 1, 48, .ro, [0], [], 1, []⟩,
   ⟨P.HIE_UP_PORT, 2, 10, .commit, [1023], [(0, 511), (1023, 1023)], 1, []⟩,
   ⟨P.HIE_PORT_EN, 512, 1, .commit, [0], [], 1, []⟩,
   ⟨P.HIE_PORT_STATE, 512, 2, .ro, [0], [], 1, []⟩,
   ⟨P.HIE_PORT_VERSION, 512, 2, .ro, [0], [], 1, []⟩,
   ⟨P.HIE_NEIGHBOUR_ID, 512, 64, .ro, [0], [], 1, []⟩]

/-- The parameters of block PWR, in address order. -/
def paramsPwr : List Param :=
  [⟨P.PWR_DIDT_BUDGET, 1, 8, .live, [60], [(10, 200)], 1, []⟩,
   ⟨P.PWR_LANE_QUOTA, 1, 7, .live, [32], [(1, 64)], 1, []⟩,
   ⟨P.PWR_WAKE_QUEUE_LEN, 1, 11, .ro, [0], [], 1, []⟩,
   ⟨P.PWR_WAKE_SLOPE, 1, 8, .ro, [0], [], 1, []⟩,
   ⟨P.PWR_WAKE_ADMITTED, 1, 48, .ro, [0], [], 1, []⟩,
   ⟨P.PWR_WAKE_WAITED, 1, 48, .ro, [0], [], 1, []⟩,
   ⟨P.PWR_WAKE_MAX_WAIT, 1, 32, .ro, [0], [], 1, []⟩,
   ⟨P.PWR_SHUTTER_STATE, 1, 2, .ro, [0], [], 1, []⟩,
   ⟨P.PWR_SHUTTER_CAUSE, 1, 4, .ro, [0], [], 1, []⟩,
   ⟨P.PWR_SHUTTER_ENTRY_CAUSE, 1, 4, .ro, [0], [], 1, []⟩,
   ⟨P.PWR_SHUTTER_TEMP, 1, 11, .ro, [1050], [], 1, []⟩,
   ⟨P.PWR_SHUTTER_TEMP_CLEAR, 1, 11, .live, [950], [(700, 1000)], 1, []⟩,
   ⟨P.PWR_WDOG_TIME, 1, 10, .live, [100], [(10, 1000)], 1, []⟩,
   ⟨P.PWR_RESUME_FABRIC, 1, 1, .live, [1], [], 1, []⟩,
   ⟨P.PWR_SHUTTER_COUNT, 1, 48, .ro, [0], [], 1, []⟩,
   ⟨P.PWR_SHUTTER_DISCARD, 1, 48, .ro, [0], [], 1, []⟩,
   ⟨P.PWR_BOOT_SLOT, 1, 1, .ro, [0], [], 1, []⟩,
   ⟨P.PWR_DOMAIN_STATE, 13, 2, .ro, [0], [], 1, []⟩,
   ⟨P.PWR_RAIL_MV, 8, 16, .ro, [0], [], 1, []⟩,
   ⟨P.PWR_RAIL_FAULTS, 8, 48, .ro, [0], [], 1, []⟩]

/-- The parameters of block HLT, in address order. -/
def paramsHlt : List Param :=
  [⟨P.HLT_STICKY, 1, 32, .ro, [0], [], 1, []⟩,
   ⟨P.HLT_ALERT_MASK, 1, 32, .live, [0x7fffff], [], 1, []⟩,
   ⟨P.HLT_FAULT_COUNT, 1, 48, .ro, [0], [], 1, []⟩,
   ⟨P.HLT_TEMP_WARN, 1, 11, .live, [1000], [(600, 1040)], 1, []⟩,
   ⟨P.HLT_WEAR_WARN, 1, 7, .live, [6], [(0, 120)], 1, []⟩,
   ⟨P.HLT_WEAR_RO_EOL, 1, 8, .live, [74], [(10, 200)], 1, []⟩,
   ⟨P.HLT_OVEN_HEAT_MAX, 1, 7, .live, [95], [(50, 100)], 1, []⟩,
   ⟨P.HLT_DIE_TEMP, 6, 16, .ro, [0], [], 1, []⟩,
   ⟨P.HLT_FIRST_FAULT, 4, 64, .ro, [0xff00000000000000, 0, 0, 0], [], 1, []⟩,
   ⟨P.HLT_WEAR_DIE, 6, 16, .ro, [65535], [], 1, []⟩,
   ⟨P.HLT_WEAR_OVEN, 2, 16, .ro, [65535], [], 1, []⟩,
   ⟨P.HLT_WEAR_LASER, 160, 16, .ro, [65535], [], 1, []⟩]

/-- The parameters of block OBS, in address order. -/
def paramsObs : List Param :=
  [⟨P.OBS_FROZEN, 1, 1, .ro, [0], [], 1, []⟩,
   ⟨P.OBS_TAG_ENABLE, 1, 1, .live, [0], [], 1, []⟩,
   ⟨P.OBS_TAG_LOG2, 1, 5, .live, [16], [(8, 24)], 1, []⟩,
   ⟨P.OBS_TAG_SEED, 1, 32, .live, [256], [], 1, []⟩,
   ⟨P.OBS_TAG_COUNT, 1, 48, .ro, [0], [], 1, []⟩,
   ⟨P.OBS_TRACE_HEAD, 1, 64, .ro, [0], [], 1, []⟩,
   ⟨P.OBS_TRACE_OLDEST, 1, 64, .ro, [0], [], 1, []⟩,
   ⟨P.OBS_TRACE_DROP, 1, 48, .ro, [0], [], 1, []⟩,
   ⟨P.OBS_WIN_ENABLE, 1, 1, .live, [0], [], 1, []⟩,
   ⟨P.OBS_WIN_DST, 1, 48, .live, [0xffffffffffff], [], 1, []⟩,
   ⟨P.OBS_WIN_NEXT, 1, 64, .ro, [0], [], 1, []⟩,
   ⟨P.OBS_WIN_SKIPPED, 1, 48, .ro, [0], [], 1, []⟩,
   ⟨P.OBS_WIN_FRAMES, 1, 48, .ro, [0], [], 1, []⟩,
   ⟨P.OBS_SNAP_SEQ, 1, 32, .ro, [0], [], 1, []⟩,
   ⟨P.OBS_SNAP_TIME, 1, 64, .ro, [0], [], 1, []⟩,
   ⟨P.OBS_SNAP_PENDING, 1, 64, .ro, [0], [], 1, []⟩,
   ⟨P.OBS_OVF, 128, 64, .w1c, [0], [], 1, []⟩,
   ⟨P.OBS_SNAP_OVF, 128, 64, .ro, [0], [], 1, []⟩,
   ⟨P.OBS_SNAP, 8192, 48, .ro, [0], [], 1, []⟩,
   ⟨P.OBS_CTR, 8192, 48, .ro, [0], [], 1, []⟩]

/-- The parameters of block HST, in address order. -/
def paramsHst : List Param :=
  [⟨P.HST_LINK_SPEED, 1, 3, .ro, [0], [], 1, []⟩,
   ⟨P.HST_LINK_WIDTH, 1, 4, .ro, [0], [], 1, []⟩,
   ⟨P.HST_MPS, 1, 10, .ro, [128], [], 1, []⟩,
   ⟨P.HST_FORMATS, 1, 8, .ro, [6], [], 1, []⟩,
   ⟨P.HST_STATUS_ADDR, 1, 64, .live, [0], [], 4096, []⟩,
   ⟨P.HST_FLAGS, 1, 4, .w1c, [0], [], 1, []⟩,
   ⟨P.HST_DMA_ERR, 1, 48, .ro, [0], [], 1, []⟩,
   ⟨P.HST_MBX_BASE, 8, 64, .commit, [0], [], 4096, []⟩,
   ⟨P.HST_MBX_SIZE, 8, 9, .commit, [16], [(8, 8), (16, 16), (32, 32), (64, 64), (128, 128), (256, 256)], 1, []⟩,
   ⟨P.HST_TRAP, 64, 64, .live, [0], [], 1, []⟩,
   ⟨P.HST_RXQ_MAX, 64, 24, .live, [0x100000], [(16384, 16777215)], 1, []⟩,
   ⟨P.HST_RXQ_BYTES, 64, 24, .ro, [0], [], 1, []⟩,
   ⟨P.HST_RXQ_BYPASS, 64, 48, .ro, [0], [], 1, []⟩,
   ⟨P.HST_RXQ_FLUSHED, 64, 48, .ro, [0], [], 1, []⟩,
   ⟨P.HST_TX_REFUSED, 64, 48, .ro, [0], [], 1, []⟩,
   ⟨P.HST_EVT_DROP, 16, 48, .ro, [0], [], 1, []⟩,
   ⟨P.HST_RING_STATE, 168, 2, .ro, [0], [], 1, []⟩]

/-- The parameters of the block with the number (R504); none for a number the table does not list. -/
def paramsOf : Nat → List Param
  | 0x01 => paramsSys
  | 0x02 => paramsCmd
  | 0x10 => paramsFab
  | 0x11 => paramsPrt
  | 0x12 => paramsBuf
  | 0x13 => paramsTbl
  | 0x14 => paramsLck
  | 0x20 => paramsTbs
  | 0x21 => paramsLnk
  | 0x22 => paramsRef
  | 0x23 => paramsCor
  | 0x24 => paramsGns
  | 0x25 => paramsEvt
  | 0x26 => paramsCal
  | 0x30 => paramsLan
  | 0x31 => paramsSyn
  | 0x32 => paramsOpt
  | 0x40 => paramsLog
  | 0x41 => paramsSpd
  | 0x42 => paramsArb
  | 0x50 => paramsHie
  | 0x60 => paramsPwr
  | 0x61 => paramsHlt
  | 0x70 => paramsObs
  | 0x71 => paramsHst
  | _ => []

/-- The block numbers of R504. -/
def blockNumbers : List Nat :=
  [0x01, 0x02, 0x10, 0x11, 0x12, 0x13, 0x14, 0x20, 0x21, 0x22, 0x23, 0x24, 0x25, 0x26, 0x30, 0x31, 0x32, 0x40, 0x41, 0x42, 0x50, 0x60, 0x61, 0x70, 0x71]

/-- The parameter that holds an address, if one does (R506). -/
def paramAt (addr : Nat) : Option Param :=
  (paramsOf (addr / 65536)).find? fun p => decide (p.base ≤ addr ∧ addr < p.base + p.count)

/-- The reset value of element `i` of a row. The laser states repeat over the five lasers of each engine (R381). -/
def Param.resetAt (p : Param) (i : Nat) : Nat :=
  if p.base = P.OPT_LASER_STATE then p.reset.getD (i % 5) 0
  else p.reset.getD (min i (p.reset.length - 1)) 0

/-- The value element `i` of the parameter with base address `base` takes at reset (R511). -/
def resetOf (base i : Nat) : Nat :=
  match (paramsOf (base / 65536)).find? fun p => p.base == base with
  | some p => p.resetAt i
  | none => 0

/-- Whether a raw value lies in one of the ranges; no range allows every value. -/
def inRanges (rs : List (Nat × Nat)) (v : Nat) : Bool :=
  rs.isEmpty || rs.any fun r => decide (r.1 ≤ v ∧ v ≤ r.2)

/-- The ranges that bind element `i`. -/
def Param.rangesAt (p : Param) (i : Nat) : List (Nat × Nat) :=
  if p.perIndex.isEmpty then p.ranges else p.perIndex.getD i []

/-- The single-value tests of R509: no bit above the width, inside the Meaning cell's range, on its step. -/
def Param.legal (p : Param) (i v : Nat) : Bool :=
  decide (v < 2 ^ p.width) && inRanges (p.rangesAt i) v && decide (v % p.step = 0)

end Sys2Proof.Machine
end

