-- ==== Sys2Proof/Machine/Sparse.lean ====
section
/-! DEFINITION. Sparse data by key: a list of entries with rising keys, holding no entry equal to what an unlisted
key reads as, so that equal contents are equal lists. -/

namespace Sys2Proof.Machine

/-- The value listed for a key, or the default. -/
def look {κ α : Type} [DecidableEq κ] (k : κ) (d : α) : List (κ × α) → α
  | [] => d
  | e :: m => if e.1 = k then e.2 else look k d m

/-- The entries of every other key. -/
def without {κ α : Type} [DecidableEq κ] (k : κ) (m : List (κ × α)) : List (κ × α) :=
  m.filter fun e => !decide (e.1 = k)

/-- The list with an entry put before the first larger key. -/
def place {κ α : Type} (lt : κ → κ → Bool) (k : κ) (v : α) : List (κ × α) → List (κ × α)
  | [] => [(k, v)]
  | e :: m => if lt k e.1 then (k, v) :: e :: m else e :: place lt k v m

/-- The list after the key is given the value `v`, where an unlisted key reads as `d`. -/
def store {κ α : Type} [DecidableEq κ] [DecidableEq α] (lt : κ → κ → Bool) (k : κ) (d v : α)
    (m : List (κ × α)) : List (κ × α) :=
  if v = d then without k m else place lt k v (without k m)

/-- Keys that are plain numbers rise as numbers do. -/
def ltNat (a b : Nat) : Bool := decide (a < b)

/-- Keys that are pairs rise by their first part, then by their second. -/
def ltPair (a b : Nat × Nat) : Bool := decide (a.1 < b.1 ∨ (a.1 = b.1 ∧ a.2 < b.2))

/-- Keys strictly rising. -/
def rising {κ α : Type} (lt : κ → κ → Bool) : List (κ × α) → Bool
  | [] => true
  | e :: m => m.all (fun f => lt e.1 f.1) && rising lt m

/-- The canonical form: rising keys, and no entry equal to what its key reads as when it is not listed. -/
def canonical {κ α : Type} [DecidableEq α] (lt : κ → κ → Bool) (dflt : κ → α) (m : List (κ × α)) : Bool :=
  rising lt m && m.all fun e => !decide (e.2 = dflt e.1)

/-- The element of a plain list found by a number it carries. -/
def findBy {α : Type} (key : α → Nat) (n : Nat) (xs : List α) : Option α :=
  xs.find? fun x => key x == n

/-- The elements that carry the number, changed by `f`. -/
def updBy {α : Type} (key : α → Nat) (n : Nat) (f : α → α) (xs : List α) : List α :=
  xs.map fun x => if key x = n then f x else x

/-- The list without the elements that carry the number. -/
def dropBy {α : Type} (key : α → Nat) (n : Nat) (xs : List α) : List α :=
  xs.filter fun x => !(key x == n)

end Sys2Proof.Machine
end

