-- ==== Sys2Proof/Machine/State.lean ====
section
/-! DEFINITION. The state of the module, as plain data: every register of the parameter map, and beside them the
queues, buffers, timers and records that the chapters of the spec give the module and that no parameter shows. -/

namespace Sys2Proof.Machine

/-- A count of module time in the format of R54, without the sub-nanoseconds, which are 0 at every tick (R55). -/
structure TimeCount where
  sec : Nat
  nano : Nat
  deriving DecidableEq, Repr

/-- An ECP packet the module sends (R26); the length and the header check follow from the rest. -/
structure Packet where
  version : Nat
  flags : Nat
  opcode : Nat
  tag : Nat
  session : Nat
  status : Nat
  payload : List Byte
  deriving DecidableEq, Repr

/-- Where the final reply of a started request goes: the session that sent it, by its own running number so that a
later session of the same number is not taken for it (R43), and the header fields the reply repeats. -/
structure Origin where
  uid : Nat
  transport : Transport
  chan : Nat
  session : Nat
  version : Nat
  opcode : Nat
  tag : Nat
  deriving DecidableEq, Repr

/-- A request that waits for the session's previous request to give its final reply (R39), with its running number among those
that reached the command engine; a request still unread in its ring has the number 0. -/
structure Held where
  op : Nat
  rq : Request
  num : Nat
  deriving DecidableEq, Repr

/-- A final reply kept for a repeated request (R41). -/
structure Stored where
  tag : Nat
  op : Nat
  pkt : Packet
  deriving DecidableEq, Repr

/-- One ECP session (R29). Its state, privilege and transport stand in CMD_SESSION_STATE, CMD_SESSION_PRIV and
CMD_SESSION_TRANSPORT. -/
structure Session where
  num : Nat
  uid : Nat
  transport : Transport
  chan : Nat
  version : Nat
  /-- The notice mask (R50). -/
  mask : Nat
  /-- When the last request arrived, or the release of R36 (R33). -/
  last : Nat
  /-- The nonce of a session in PROVING, and the end of its 10 s (R31). -/
  nonce : List Byte
  proveBy : Nat
  opening : Option Origin
  /-- The tag of a started request that has given neither ACCEPTED nor a final reply (R39). -/
  blocked : Option Nat
  backlog : List Held
  /-- Tag and opcode of the last 32 requests that the session started, oldest first, and the final replies kept of them (R41). -/
  begun : List (Nat × Nat)
  replies : List Stored
  /-- Notices dropped since the last delivered one (R50). -/
  lost : Nat
  deriving DecidableEq, Repr

/-- A packet that waits to be read on SPI or to be written into a reply ring; a notice receives its lost count when
it is delivered (R50). -/
inductive Waiting where
  | reply (p : Packet)
  | notice (uid code time : Nat) (data : List Byte)
  deriving DecidableEq, Repr

/-- What the module puts on its interfaces. -/
inductive Emission where
  /-- A UDP datagram on MGMT to the requester (R23). -/
  | udp (peer : Nat) (bytes : List Byte)
  /-- The bytes of one SPI read transfer (R24). -/
  | spi (bytes : List Byte)
  /-- A posted write to host memory (R468). -/
  | hostWrite (addr : Nat) (bytes : List Byte)
  /-- An MSI-X interrupt (R469). -/
  | msix (vector : Nat)
  /-- A frame sent on a port, destination address to FCS. -/
  | frame (port : Nat) (bytes : List Byte)
  /-- A frame sent on the window port (R463). -/
  | window (bytes : List Byte)
  /-- What the weir answers a scratchpad master: an error, or the data of a completed burst (R385, R393). -/
  | weir (master : Nat) (error : Bool) (data : List Byte)
  deriving DecidableEq, Repr

/-- A host ring (R468). -/
structure Ring where
  g : Nat
  format : Nat
  vector : Nat
  base : Nat
  size : Nat
  bufSize : Nat
  v1 : Nat
  moderation : Nat
  /-- Producer and consumer index, free-running 32-bit counts. -/
  prod : Nat
  cons : Nat
  /-- Whether the module has moved its index since the ring's vector was last raised (R469). -/
  moved : Bool
  deriving DecidableEq, Repr

/-- A stamp as it travels with a frame (R60): the TAI ns count, the sub-nanoseconds, the bound code and the flags. -/
structure Stamp where
  ns : Nat
  sub : Nat
  code : Nat
  flags : Nat
  deriving DecidableEq, Repr

/-- A transmit slot the module has read and not yet written back (R472, R474): its queue, its index, and once its frame
is finished the status and the egress stamp. -/
structure TxSlot where
  num : Nat
  queue : Nat
  index : Nat
  result : Option (Nat × Stamp)
  deriving DecidableEq, Repr

/-- The kinds of wake request, in the order of R430. -/
inductive WakeKind where
  | domain | lane | cal
  deriving DecidableEq, Repr

/-- A wake request in the queue of the wake sequencer (R430). -/
structure WakeReq where
  kind : WakeKind
  num : Nat
  at_ : Nat
  ticket : Option Nat
  deriving DecidableEq, Repr

/-- A ramp in progress: its slope in tenths of an ampere per microsecond, and its end. -/
structure Ramp where
  slope : Nat
  ends : Nat
  deriving DecidableEq, Repr

/-- The wake requests of one opcode that were not all admitted at once (R431). -/
structure Ticket where
  id : Nat
  left : Nat
  deriving DecidableEq, Repr

/-- The power domains and the wake sequencer (R427 to R439). -/
structure Power where
  queue : List WakeReq
  ramps : List Ramp
  /-- When the lane-quota admissions of the last 1 ms took place. -/
  laneAdm : List Nat
  tickets : List Ticket
  nextTicket : Nat
  /-- Rails now lost (R428), by index. -/
  lostRails : List Nat
  /-- Since when VCORE has been within 5 % of its target (R435). -/
  vcoreGood : Option Nat
  /-- When the forwarding firmware last restarted after an expiry of its watchdog (R435). -/
  fwRestart : Nat
  /-- Whether the fabric was RUNNING when shutter mode was entered (R438). -/
  wasRunning : Bool
  /-- RESET_N is high. -/
  resetN : Bool
  /-- REFSEL and whether the heater of oven A draws current, as last seen (R432, R158). -/
  pins : Nat
  heaterA : Bool
  deriving DecidableEq, Repr

/-- The first-fault record (R442) without the bytes that are read at the reply. -/
structure FirstFault where
  fbit : Nat
  tstate : Nat
  core : Nat
  fab : Nat
  time : Nat
  mask : Nat
  detail : Nat
  count : Nat
  deriving DecidableEq, Repr

/-- Where the module stands between reset and service (R432, R434, R428). -/
inductive Phase where
  /-- RESET_N is low, or a rail holds the domains in reset. -/
  | held
  /-- RESET_N is released; the command channel is not yet ready (R25). -/
  | booting
  /-- The command channel is ready. -/
  | ready
  /-- Neither image slot verified (R434). -/
  | failed
  deriving DecidableEq, Repr

/-- A scheduled commit that waits for its instant (R48). -/
structure PendingCommit where
  block : Nat
  due : Nat
  origin : Origin
  deriving DecidableEq, Repr

/-- The command channel (R23 to R53). -/
structure Command where
  sessions : List Session
  nextUid : Nat
  /-- Packets that wait to be read on SPI, oldest first (R24). -/
  spi : List Waiting
  /-- Packets that wait for room in a reply ring, with their mailbox pair, oldest first (R480). -/
  mbx : List (Nat × Waiting)
  /-- Requests left unread in their request ring while 64 packets wait for the pair, or while master 4 is frozen. -/
  unread : List Held
  commits : List PendingCommit
  /-- Counts the requests that have had to wait at the command engine (R39). -/
  arrivals : Nat
  deriving DecidableEq, Repr

/-- A core switch-over gap in progress (R163): when it began, the cores, the cause of R165 and the CORE_SWITCH
requests that wait for its end. -/
structure Gap where
  since : Nat
  fromCore : Nat
  toCore : Nat
  cause : Nat
  waiting : List Origin
  deriving DecidableEq, Repr

/-- What the model holds of one timing core beside its registers (R157 to R168). -/
structure Core where
  count : TimeCount
  /-- Since when the cause of the core's last fault has been absent; none while a failing test stands (R161). -/
  okSince : Option Nat
  /-- Since when the PEER error has stayed within 20 ps (R157). -/
  xlockSince : Option Nat
  /-- Module time of the last test round, and the five measured values (R162). -/
  roundAt : Nat
  measured : List Int
  /-- The frequency corrections that the core's servo applied in the last 10 s of following, newest first, in units of 10^-15 (R153). -/
  applied : List Int
  deriving DecidableEq, Repr

/-- The timing plane: the time counts of the cores and of the output stage, and what is pending on them. -/
structure Timing where
  coreA : Core
  coreB : Core
  out : TimeCount
  gap : Option Gap
  /-- A set of TBS_SET_SEC that waits for the seconds rollover (R57). -/
  setPending : Option Nat
  /-- The TAI second of the announced UTC midnight (R58). -/
  leapAt : Option Nat
  /-- The seconds field at the last rollover that a pending set has seen. -/
  setFrom : Nat
  /-- What module time has been pulled beyond the ticks counted, in units of 10^-7 ps: less than a tick either way (R142, R145). -/
  lead : Int
  /-- When the last pulse left PPS OUT 0 and 1 and PPS_MON (R143). -/
  pulseAt : Option Nat
  /-- When the last switch-over gap ended (R165). -/
  gapEnd : Option Nat
  deriving DecidableEq, Repr

/-- The monitors of one reference (R130 to R136). -/
structure RefMon where
  /-- The anchor, in ps against the monitor oscillator; none while it is discarded. -/
  anchor : Option Int
  /-- When the present qualification state was entered, or its timer restarted. -/
  since : Nat
  /-- The instant of the last accepted reading (R130). -/
  lastGood : Nat
  /-- Whether the PPS (for GNSS the pulse record) and the 10 MHz input are active. -/
  pps : Bool
  mhz : Bool
  /-- Whether the drift warnings of the frequency and of the phase monitor are armed (R134). -/
  armF : Bool
  armP : Bool
  /-- The last valid B_ref of the reference (R129, R146), and the deviation of its last accepted edge in ps (R130). -/
  lastBref : Nat
  lastDev : Int
  deriving DecidableEq, Repr

/-- A switch event that is being put together within a command (R149): what the first change of it was from, its cause, and whether a
pull was retargeted. -/
structure SwitchEvent where
  fromRef : Nat
  cause : Nat
  retarget : Bool
  deriving DecidableEq, Repr

/-- The servo, the holdover growth and the selection timers (R138 to R153). Phases that are pulled are in units of
10^-7 ps, so that REF_PHASE_SLOPE is a whole number of units per nanosecond. -/
structure Servo where
  /-- B_frz, and the instant of the loss it dates from (R68, R146). -/
  frozen : Option Nat
  lossAt : Nat
  /-- The growth up to the last switch-over, in units of 0.5 × 10^-27 ps, and the instant from which the present
  core's growth counts (R166). -/
  hBase : Nat
  hFrom : Nat
  /-- The largest oven temperature deviation since then, in mK. -/
  dT : Nat
  /-- The uncertainties that H uses (R68, R153). -/
  yu : Nat
  du : Nat
  cu : Nat
  /-- The largest bound published in the present pull (R146). -/
  pullMax : Nat
  /-- φ_rem at `phiAt`. -/
  phi : Int
  phiAt : Nat
  /-- The reference the WTR timer runs for, and since when (R140). -/
  wtr : Option (Nat × Nat)
  /-- Module time minus the monitor oscillator at the last reading, and M minus that oscillator (R132), in ps. -/
  modOsc : Int
  mOff : Int
  /-- The start of the present REF_PH_WINDOW and whether the deviation stayed inside accept (R132). -/
  winSince : Nat
  winGood : Bool
  /-- Since when ACQUIRE has followed the present reference (R148). -/
  acqSince : Nat
  /-- The frequency by which the active core's DCO is steered, in units of 10^-15, and when it was last set (R141, R142, R153). -/
  steer : Int
  steerAt : Nat
  /-- The phase last given to the loop, in ps; it is held in REMEASURE (R107, R113). -/
  phaseIn : Int
  /-- The last LOCKED instant t0, and T - T_m of the active oven in mK (R152). -/
  t0 : Nat
  ovenDev : Int
  /-- The core whose uncertainties H uses (R156). -/
  hCore : Nat
  /-- Within a command whose changes make one switch event: none yet, or the event so far (R149). -/
  batch : Option (Option SwitchEvent)
  deriving DecidableEq, Repr

/-- The wear prediction of an object (R444, R445): kind 0 a die, 1 a laser, 2 an oven. -/
structure Wear where
  kind : Nat
  index : Nat
  months : Nat
  lower : Nat
  basis : Nat
  at_ : Nat
  samples : Nat
  /-- The samples, oldest first, kept in flash. -/
  readings : List Nat
  deriving DecidableEq, Repr

/-- What flash holds across a reset (R512, R31, R434, R444). The versions of the image slots that verify are listed;
a slot that does not verify has none. -/
structure Flash where
  serial : Nat
  identity : Nat
  /-- The last serial given to a logbook key (R351). -/
  keyCount : Nat
  macBase : Nat
  imageA : Option Nat
  imageB : Option Nat
  lifecycle : Nat
  operatorKey : Option (List Byte)
  /-- The committed LNK_ASYM and LNK_ASYM_RES by port, raw (R116). -/
  asym : List (Nat × Nat)
  asymRes : List (Nat × Nat)
  /-- Whether the calibration certificate verifies (R207). -/
  certValid : Bool
  wear : List Wear
  deriving DecidableEq, Repr

/-- An exchange of a time link under way at the TIME_IN end (R105): the sequence number and t1 to t3 in units of
2^-16 ns, when the TDREQ was sent, the upstream bound and hop count of its TSYNC, and the averaged phase at t2 (R107). -/
structure Exchange where
  seq : Nat
  t1 : Int
  t2 : Int
  t3 : Int
  sentAt : Nat
  upBound : Nat
  hops : Nat
  top : Nat
  phi : Int
  deriving DecidableEq, Repr

/-- What the model holds of a port's time link beside its registers (R96 to R115). Phases are in units of 2,000 / 2^24 ps, unwrapped;
delays in ps. -/
structure Link where
  port : Nat
  /-- The sequence number of the next TSYNC, and t1 by the sequence number of those not yet answered. -/
  seq : Nat
  sent : List (Nat × Int)
  /-- Since when both conditions of R98 have held, and whether the DDMTD is valid. -/
  goodSince : Option Nat
  valid : Bool
  phase : Int
  /-- Whether the partner's messages have shown the opposite role (R112). -/
  partner : Bool
  exchanges : List Exchange
  /-- The last accepted round trip with the averaged phase at it, φ_k, and θ_k. -/
  lastRt : Option (Int × Int)
  theta : Int
  /-- Accepted round trips of MEASURING or REMEASURE, newest first; the last one before a slip (R114). -/
  history : List Int
  preSlip : Int
  discards : Nat
  /-- Of the last accepted TSYNC and TDRESP: upstream bound, hop count, top identity, sender port term. -/
  upBound : Nat
  hops : Nat
  top : Nat
  sender : Nat
  /-- The end of LNK_SLIP_HOLD on a port with role NONE (R115). -/
  slipUntil : Option Nat
  /-- Whether the marker divider of the tick regenerator runs (R96), and when the last average of the DDMTD completed (R97). -/
  divider : Bool
  avgAt : Option Nat
  /-- The B_evt that a suspected slip leaves until the asymmetry is next calibrated, and whether a calibration waits for its commit (R114,
  R120). -/
  suspect : Nat
  calibrated : Bool
  /-- Whether the partner's last message carried LINK_WIDEN (R112). -/
  widened : Bool
  deriving DecidableEq, Repr

/-- A unicast grant of an IEEE 1588 client (R123): the serving port, the client's port identity, MAC address and transport, the
message type granted, the period and the end of the grant. -/
structure Grant where
  port : Nat
  clock : Nat
  number : Nat
  mac : Nat
  path : PtpPath
  msg : Nat
  period : Int
  ends : Nat
  deriving DecidableEq, Repr

/-- A run of pulses that this module stamps for the TIME_IN end of a link calibration (R119). -/
structure TcalServe where
  port : Nat
  seq : Nat
  count : Nat
  sent : Nat
  deriving DecidableEq, Repr

/-- The link calibration run of this module's own CAL_RUN (R118, R120): the stamps of its own pulses and of the partner's,
by seconds, in units of 2^-16 ns. -/
structure LinkRun where
  port : Nat
  seq : Nat
  count : Nat
  own : List Int
  theirs : List Int
  path : Int
  pathU : Nat
  deriving DecidableEq, Repr

/-- A frame from its lookup to its last release: the fields of its prefix (R228), its bytes from the destination MAC to
the last FCS byte as far as they have been received, and what goes with it. `len` is the prefix length field with its
bit 15. -/
structure Frame where
  id : Nat
  inlet : Nat
  outlet : Nat
  stamp : Stamp
  port : Nat
  sid : Nat
  len : Nat
  kind : Nat
  mode : Nat
  profile : Nat
  dest : Nat
  mirror : Nat
  reach : Nat
  cls : Nat
  epoch : Nat
  express : Bool
  data : List Byte
  ended : Bool
  stomp : Bool
  abort : Bool
  /-- Whether its last four bytes are not carried by its cells: a frame ended at the maximum length (R256). -/
  cut : Bool
  /-- The tag number of a tagged frame (R459). -/
  tag : Option Nat
  /-- The channel and index of its FRAME record (R334, R339). -/
  log : Option (Nat × Nat)
  /-- The request stamp of a host frame (R76): the low 32 bits of the TAI ns count, and the sub-nanoseconds. -/
  request : Option (Nat × Nat)
  /-- The transmit queue of a host frame and the running number of its slot (R474). -/
  slot : Option (Nat × Nat)
  /-- The Stream entry that the lookup read (R283, R288, R304). -/
  entry : Nat
  /-- Whether it has left the module by R305 while cells of it are still on their way to the quay. -/
  gone : Bool
  /-- TSTATE and the active reference at its stamp, as byte 1 of its FRAME record holds them (R337). -/
  timing : Nat
  deriving DecidableEq, Repr

/-- A frame in an inlet queue (R224), in the order of entry, with the payload bytes already put into cells. -/
structure Queued where
  frame : Nat
  taken : Nat
  deriving DecidableEq, Repr

/-- A segment of a cell (R227): the frame it belongs to, its length, and where it begins in the prefix and frame. -/
structure Seg where
  frame : Nat
  at_ : Nat
  len : Nat
  sof : Bool
  eof : Bool
  deriving DecidableEq, Repr

/-- A cell in a basin or parked at an outlet (R227); its payload is the segments' part of their frames. -/
structure Cell where
  basin : Nat
  outlet : Nat
  cls : Nat
  inlet : Nat
  seq : Nat
  segs : List Seg
  express : Bool
  stomp : Bool
  abort : Bool
  /-- Whether an uncorrectable error has been found in it and counted (R232). -/
  faulty : Bool
  deriving DecidableEq, Repr

/-- A SLOW signal that is raised (R259), with the ports of each frame taken for it since (R261). -/
structure Slow where
  outlet : Nat
  cls : Nat
  ports : List Nat
  deriving DecidableEq, Repr

/-- A pair held off at the wire, or a port in PAUSE mode under class 8, when its XOFF was last sent, and the quanta that it
announced (R262). -/
structure HoldOff where
  port : Nat
  cls : Nat
  sentAt : Nat
  quanta : Nat
  deriving DecidableEq, Repr

/-- An express frame that has passed its start test and has not ended on its port: its number, the VID and the Stream entry of its
lookup, and its stamp (R293). -/
structure Receiving where
  port : Nat
  frame : Nat
  vid : Nat
  entry : Nat
  ns : Nat
  deriving DecidableEq, Repr

/-- The reaches' front, the inlets, the fabric and the sluice chain (R221 to R264). A stream of cells has the number
(inlet × 64 + outlet) × 8 + class. -/
structure Fabric where
  frames : List Frame
  nextFrame : Nat
  /-- Frames in the ingress FIFOs that have not entered an inlet queue, in order of arrival. -/
  waiting : List Nat
  queued : List Queued
  /-- Express frames that passed the start test and have not ended. -/
  receiving : List Receiving
  cells : List Cell
  parked : List Cell
  seqOut : List (Nat × Nat)
  expect : List (Nat × Nat)
  /-- The frame in reassembly of each stream (R238). -/
  assembly : List (Nat × Nat)
  /-- Streams that discard segments up to the next SOF (R237). -/
  skipping : List Nat
  /-- Outlets in stall (R236), and the step of the last in-order offer to each outlet (R237). -/
  stall : List Nat
  quiet : List (Nat × Nat)
  /-- Outlets in allocation stall, with the cells that wait for memory (R270). -/
  allocStall : List (Nat × Cell)
  slow : List Slow
  sluice : List Nat
  fifoHold : List Nat
  classStop : List (Nat × Nat)
  off : List HoldOff
  /-- Flow control frames, by port and class, that wait for the end of the frame in transmission; true for XOFF (R262). -/
  owed : List (Nat × Nat × Bool)
  /-- Until when each (port, class) is paused by the partner (R263). -/
  paused : List ((Nat × Nat) × Nat)
  /-- The end of FAB_SHUTTER_DRAIN (R244). -/
  drainBy : Option Nat
  /-- FAB_STEP_COUNT at the last measurement of the step rate, and when it was made (R239). -/
  stepMark : Nat
  stepAt : Nat
  /-- Since when the speedup has been below the margin limit, or above it with its 0.020; whether the notice is armed
  (R242). -/
  lowSince : Option Nat
  highSince : Option Nat
  armed : Bool
  /-- The VCORE band (R243), and whether a transition is open. -/
  bandLow : Nat
  bandHigh : Nat
  moving : Bool
  mismatch : Option Nat
  deriving DecidableEq, Repr

/-- A buffer of the quay that is HELD (R271, R274). -/
structure Buffer where
  pool : Nat
  index : Nat
  count : Nat
  frame : Nat
  /-- Bytes of the frame written so far. -/
  got : Nat
  deriving DecidableEq, Repr

/-- What a lock copy adds to its entry (R317 to R324): T_rel and S_p, and T_rel − C_p which its transmit stamp aims at, in
ps; the LATE_POLICY; the cause when it is late; and whether a switch-over gap deferred it. -/
structure LockCopy where
  rel : Int
  launch : Int
  aim : Int
  abandon : Bool
  late : Option Nat
  deferred : Bool
  deriving DecidableEq, Repr

/-- A copy entry that is not yet released (R268, R272): the port, or the host receive queue and trap entry. -/
structure Copy where
  id : Nat
  frame : Nat
  port : Nat
  cls : Nat
  born : Nat
  bytes : Nat
  /-- The hold limit in ns (R315); none for a unicast copy. -/
  hold : Option Nat
  lock : Option LockCopy
  host : Option (Nat × Nat)
  /-- Whether it travels by the keel frame path, which uses no memory of the quay (R437). -/
  keel : Bool
  /-- The buffer that a damaged entry names in place of its own (R276). -/
  names : Option (Nat × Nat)
  deriving DecidableEq, Repr

/-- A copy in transmission on a port, with its transmit stamp. -/
structure Sending where
  port : Nat
  copy : Nat
  stamp : Stamp
  deriving DecidableEq, Repr

/-- The quay (R268 to R282). A pool's free list is its freed buffers, oldest first, behind the buffers never used. -/
structure Quay where
  unused : List Nat
  freed : List (Nat × Nat)
  buffers : List Buffer
  quarantined : List (Nat × Nat)
  copies : List Copy
  nextCopy : Nat
  sending : List Sending
  /-- Until when a port's last inter-frame gap runs, and whether it follows a lock copy (R322). -/
  gaps : List (Nat × Nat × Bool)
  /-- Buffers whose parity is wrong, not yet found at an allocation or a release (R277). -/
  damaged : List (Nat × Nat)
  deriving DecidableEq, Repr

/-- The lock chamber beside its registers (R320, R326 to R330). -/
structure Lock where
  adm : List ((Nat × Nat) × Nat)
  opr : List ((Nat × Nat) × Nat)
  /-- The gates in force by port, all open where not listed. -/
  gates : List (Nat × Nat)
  /-- Ports with a swap whose time had passed, with module time then. -/
  late : List (Nat × Nat)
  /-- Writes held during a copy, in order: parameter base, port, entry, value. -/
  held : List (Nat × Nat × Nat × Nat)
  /-- The last round trip of each TIME_OUT port accepted in TRACKING, in ps, from which C_p is measured (R320). -/
  measured : List (Nat × Nat)
  deriving DecidableEq, Repr

/-- An entry of a MAC table (R290). `gen` is the stored generation bit (R292). -/
structure MacEntry where
  vid : Nat
  mac : Nat
  static : Bool
  flapping : Bool
  gen : Nat
  hit : Bool
  kind : Nat
  dest : Nat
  moves : Nat
  firstPort : Nat
  lastStamp : Nat
  winStamp : Nat
  recent : Bool
  deriving DecidableEq, Repr

/-- A learn request held by the learn engine of a reach (R293). -/
structure Learn where
  reach : Nat
  vid : Nat
  mac : Nat
  port : Nat
  ns : Nat
  deriving DecidableEq, Repr

/-- A TBL_FLUSH_PORT whose walk runs in the named reaches (R302). -/
structure Flush where
  job : Nat
  reaches : List Nat
  port : Nat
  vid : Option Nat
  static : Bool
  deriving DecidableEq, Repr

/-- A table command that has not answered DONE (R299, R305): the reaches whose walk runs and whose fence has not
completed, and what its reply carries. For a flush, `reaches` are those it names, and `deleted` marks the reaches where a
displacement removed an entry. -/
structure TblJob where
  id : Nat
  origin : Origin
  reaches : List Nat
  walking : List Nat
  fenced : List Nat
  deleted : Nat
  removed : Nat
  deriving DecidableEq, Repr

/-- A drain fence (R305): it waits for the frames of its reach with an id below the mark. -/
structure Fence where
  reach : Nat
  job : Nat
  mark : Nat
  since : Nat
  deriving DecidableEq, Repr

/-- The forwarding tables (R283 to R309). -/
structure Tables where
  mac : List ((Nat × Nat) × Option MacEntry)
  stream : List ((Nat × Nat) × Nat)
  master : List (Nat × Nat)
  /-- Stream entry copies, by reach and id, that read uncorrectable (R288). -/
  bad : List (Nat × Nat)
  learns : List Learn
  flushes : List Flush
  rehash : List (Nat × Origin)
  fences : List Fence
  jobs : List TblJob
  nextJob : Nat
  /-- When a learn failure last sent REHASH_NEEDED, by reach (R296). -/
  noticed : List (Nat × Nat)
  /-- When each reach last made its settle sweep and its ageing sweep (R290, R297). -/
  settled : List (Nat × Nat)
  aged : List (Nat × Nat)
  deriving DecidableEq, Repr

/-- A record or seal on its way into a host ring; a seal that waits for its signature carries its number. -/
structure LogItem where
  chan : Nat
  bytes : List Byte
  signing : Option Nat
  deriving DecidableEq, Repr

/-- A logbook channel (R340 to R349): the chain head, whether the next chain start carries WIPE, the records of the
present span, and the unlogged frames of the span and since the last GAP record with the stamp of the first. -/
structure LogChannel where
  num : Nat
  head : Option (List Byte)
  wiped : Bool
  merged : Bool
  span : List (List Byte)
  unlogged : Nat
  gap : Nat
  gapStamp : Stamp
  deriving DecidableEq, Repr

/-- The logbook engine (R334 to R354). -/
structure Logbook where
  chans : List LogChannel
  /-- The spill area, in arrival order (R341). -/
  spill : List LogItem
  /-- Slots of a ring that its producer index has not passed, in order, with the ring's number g. -/
  staged : List (Nat × LogItem)
  nextSeal : Nat
  /-- For each seal that waits for its signature, what its hash is taken over before its own bytes (R348, R353). -/
  signs : List (Nat × List Byte)
  /-- The interval in force for the next seal, in µs (R354). -/
  sealEvery : Nat
  /-- The instant of the last seal that SEAL wrote, as a module time in ns: each instant has one (R345). -/
  sealAt : Option Nat
  /-- The seed of the signing key, in the shuttered partition (R351), and who waits for it (R398). -/
  key : Option (List Byte)
  keyFor : Option Origin
  holdSince : Option Nat
  deriving DecidableEq, Repr

/-- An entry of the life-cycle record (R396). -/
structure LifeEntry where
  time : Nat
  wipe : Bool
  value : Nat
  session : Nat
  transport : Nat
  deriving DecidableEq, Repr

/-- A life-cycle change that waits for its wipe (R398). -/
structure LifeChange where
  origin : Origin
  target : Nat
  key : List Byte
  deriving DecidableEq, Repr

/-- A wipe of bank 31 (R400): its cause, and the cause of a detection during it (R401). -/
structure Wipe where
  cause : Nat
  again : Option Nat
  change : Option LifeChange
  deriving DecidableEq, Repr

/-- A burst requested of the weir (R387), with the beats already moved. -/
structure Burst where
  master : Nat
  bank : Nat
  write : Bool
  addr : Nat
  beats : Nat
  moved : Nat
  data : List Byte
  deriving DecidableEq, Repr

/-- The window of a bank (R390): slots counted, and the window length and quota in force. -/
structure BankWindow where
  slots : Nat
  window : Nat
  quota : Nat
  deriving DecidableEq, Repr

/-- The scratchpad, the weir and the shuttered partition (R382 to R402). -/
structure Scratchpad where
  /-- The bytes that are not 0, by address. -/
  mem : List Host.Cell
  bursts : List Burst
  windows : List BankWindow
  /-- Grants in the present window by bank and master; the holder of each bank, plus 1; wickets by bank and master. -/
  grants : List ((Nat × Nat) × Nat)
  holder : List (Nat × Nat)
  wickets : List ((Nat × Nat) × Nat)
  wipe : Option Wipe
  life : List LifeEntry
  /-- Tamper sources still active (R401). -/
  active : Nat
  deriving DecidableEq, Repr

/-- What the model holds of a lane beside its registers (R360 to R368): the end of LAN_REALIGN_TIME with S and G at the
loss of framing, and the transmit power at bring-up. -/
structure Lane where
  num : Nat
  realignBy : Option Nat
  s0 : Nat
  g0 : Nat
  power : Int
  /-- Whether its last CDR lock was to a clock beyond 200,000 ppb (R94). -/
  beyond : Bool
  /-- When its CTLE adaptation may take its next step (R362). -/
  ctleAt : Nat
  deriving DecidableEq, Repr

/-- A planned laser swap (R369, R370). -/
structure Swap where
  engine : Nat
  laser : Nat
  origin : Origin
  start : Nat
  downAt : Option Nat
  routed : Bool
  waits : List Nat
  deriving DecidableEq, Repr

/-- An entry of a synthesizer's band memory (R376), the least recently used first: the plan and the temperature. -/
structure Band where
  syn : Nat
  num : Nat
  den : Nat
  temp : Int
  deriving DecidableEq, Repr

/-- A scheduled application of output synthesizer shadows (R373). -/
structure SynJob where
  origin : Origin
  mask : Nat
  due : Nat
  deriving DecidableEq, Repr

/-- Lanes, lasers and synthesizers (R356 to R378). -/
structure Optics where
  lanes : List Lane
  swaps : List Swap
  bands : List Band
  synJobs : List SynJob
  /-- Output synthesizers whose application waits for a band change to end (R378), and the instants T_a (R374). -/
  synWait : List Nat
  synAt : List (Nat × Nat)
  /-- The phase offset of an output synthesizer at its last application, from which it moves to the new one (R375). -/
  synFrom : List (Nat × Nat)
  deriving DecidableEq, Repr

/-- A calibration block or item (R213, R216): kind 0 a lane, 1 the vernier tables and delays of an input, 2 an output,
3 the delay of an input, 4 the reference inputs. -/
structure CalItem where
  kind : Nat
  index : Nat
  deriving DecidableEq, Repr

/-- A CAL_RUN in progress (R216): its items that have not ended, and what its payload counts. -/
structure CalRun where
  origin : Origin
  scope : Nat
  todo : List CalItem
  measured : Nat
  skipped : Nat
  failed : Nat
  worst : Nat
  /-- The samples of a TRACE run, in ps (R212). -/
  samples : List Int
  deriving DecidableEq, Repr

/-- A run record of the certificate store (R212). -/
structure TraceRun where
  offset : Int
  freq : Int
  u : Nat
  time : Nat
  tstate : Nat
  active : Nat
  bound : Nat
  deriving DecidableEq, Repr

/-- The calibration front end beside its registers (R207 to R217). -/
structure Calibration where
  run : Option CalRun
  /-- Blocks that triggered and have not asked for a wake; items that wait in the wake sequencer; automatic items that
  run; and the start-up blocks that have not completed. -/
  triggered : List CalItem
  waiting : List CalItem
  doing : List CalItem
  startup : List CalItem
  /-- By item, the parts of its residuals that do not depend on the temperature, in 0.01 ps (R209). -/
  base : List (CalItem × List Nat)
  /-- T_cal and the present temperature of an item's sensor, in 0.1 °C. -/
  tcal : List (CalItem × Int)
  temp : List (CalItem × Int)
  /-- The D_tx target of a lane, and when its tap last moved (R210). -/
  target : List (Nat × Nat)
  tapAt : List (Nat × Nat)
  trimAt : List (Nat × Nat)
  /-- D_evt by vernier unit, and the inputs whose spare unit is calibrated and waits to become live (R203). -/
  evtDelay : List (Nat × Nat)
  spare : List Nat
  store : List TraceRun
  /-- The calibrated phase of CK_LKT after the tick, by quad, in ps (R208). -/
  lkt : List (Nat × Nat)
  /-- T_cal at the switch die that serves a lane, in 0.1 °C (R213). -/
  tcalDie : List (CalItem × Int)
  /-- The tap table of a lane: the delay of each tap of its transmit fine-delay line, in 0.01 ps (R210). -/
  taps : List (Nat × List Nat)
  /-- The hits by code of a vernier unit's table (R200, R202). -/
  hits : List (Nat × List Nat)
  deriving DecidableEq, Repr

/-- The stamping state of an event input or CAL IN (R196, R198): the instant of its last stamped edge, the edges missed since
its last record, its last stamp in ps, and when it last saw an edge (R203). -/
structure EvtInput where
  num : Nat
  last : Option Nat
  missed : Nat
  stamp : Option Int
  seen : Option Nat
  deriving DecidableEq, Repr

/-- A statistics accumulator (R204 to R206). Samples are in ps; `edgesA` and `edgesB` are edges that wait for a match. -/
structure EvtAcc where
  num : Nat
  done : Bool
  n : Nat
  sum : Int
  sumSq : Nat
  least : Int
  most : Int
  prev : Option Int
  edgesA : List Int
  edgesB : List Int
  unmatched : Nat
  missed : Nat
  deriving DecidableEq, Repr

/-- What the last HELLO on a port said (R410), and when it came. -/
structure Heard where
  port : Nat
  at_ : Nat
  role : Nat
  depth : Nat
  lost : Bool
  root : Nat
  tstate : Nat
  code : Nat
  sender : Nat
  senderPort : Nat
  deriving DecidableEq, Repr

/-- An entry of the descendant table (R418): an identity, its downstream port, the number it was last given, and when it was
last refreshed. -/
structure Descendant where
  id : Nat
  port : Nat
  number : Nat
  at_ : Nat
  deriving DecidableEq, Repr

/-- A registry entry (R417), with the tick of its last refresh beside the module time. -/
structure RegEntry where
  kind : Nat
  depth : Nat
  version : Nat
  tstate : Nat
  id : Nat
  number : Nat
  parent : Nat
  port : Nat
  code : Nat
  flags : Nat
  seen : Nat
  at_ : Nat
  deriving DecidableEq, Repr

/-- A tunnelled packet on its way to a worker: its tunnel id, the worker and the end of its timeout (R420). -/
structure Flight where
  id : Nat
  worker : Nat
  due : Nat
  deriving DecidableEq, Repr

/-- A HIE_TUNNEL or HIE_FANOUT in progress (R420, R422): the targets not yet sent to, those in flight, and the counts of the final
reply. -/
structure Tunnel where
  num : Nat
  origin : Origin
  fan : Bool
  packet : List Byte
  timeout : Nat
  waiting : List Nat
  flights : List Flight
  targets : Nat
  good : Nat
  other : Nat
  timedOut : Nat
  deriving DecidableEq, Repr

/-- A packet that arrives in segments (R419). -/
structure Rebuild where
  port : Nat
  type : Nat
  id : Nat
  peer : Nat
  at_ : Nat
  next : Nat
  bytes : List Byte
  deriving DecidableEq, Repr

/-- A session on a worker opened through the tunnel (R421): the worker, the manager's session and the worker's session number. -/
structure Binding where
  worker : Nat
  uid : Nat
  session : Nat
  deriving DecidableEq, Repr

/-- The hierarchy beside its registers (R405 to R425). -/
structure Hierarchy where
  heard : List Heard
  /-- The second for which the last HELLO was sent, by port. -/
  helloAt : List (Nat × Nat)
  /-- The identity of the manager while joined. -/
  manager : Nat
  /-- When JOINING was entered and when the last JOIN was sent; when the last STATUS and the last full client report were sent. -/
  joinSince : Nat
  joinAt : Nat
  statusAt : Option Nat
  reportAt : Option Nat
  reported : List Grant
  lostSince : Bool
  children : List Descendant
  registry : List RegEntry
  tunnels : List Tunnel
  nextTunnel : Nat
  rebuilds : List Rebuild
  bindings : List Binding
  deriving DecidableEq, Repr

/-- A tracking channel of the GNSS receiver (R175, R176): its signal by the bit of R170, its satellite and the elevation it was assigned
by, the cell in which it was found, by Doppler bin and half chip, and whether its code loop uses the narrow pair. -/
structure GnssChannel where
  signal : Nat
  sat : Nat
  elev : Nat
  bin : Int
  chip : Nat
  narrow : Bool
  deriving DecidableEq, Repr

/-- A snapshot in progress (R190): its length in ms, bands, action, host buffer and first tick. -/
structure Capture where
  origin : Origin
  ms : Nat
  bands : Nat
  action : Nat
  addr : Nat
  start : Nat
  deriving DecidableEq, Repr

/-- The GNSS receiver beside its registers (R170 to R193). -/
structure Gnss where
  channels : List GnssChannel
  /-- Whether a new survey or a change of position mode takes effect at the next second (R181), and the mode in effect. -/
  renew : Bool
  mode : Nat
  /-- The running sums of the survey, and of the squares (R179), in mm. -/
  sumX : Int
  sumY : Int
  sumZ : Int
  squares : Nat
  /-- The seconds without a navigation solution of the present pause, and the positions since it ended (R182). -/
  missed : Nat
  back : List (Int × Int × Int)
  /-- Whether the antenna bias was removed after a SHORT (R173). -/
  biasOff : Bool
  /-- When the last snapshot of duty operation ran (R193). -/
  dutyAt : Nat
  capture : Option Capture
  /-- The signal and satellite that the acquisition bank searches (R175). -/
  search : Nat × Nat
  /-- When the last GNS_PULSE was sent, since the receiver started (R182). -/
  pulseAt : Option Nat
  deriving DecidableEq, Repr

/-- The pending scheduled snapshot of the counter set (R454): its instant in TAI ns, and CLEAR_OVF. -/
structure SnapJob where
  origin : Origin
  due : Nat
  clear : Bool
  deriving DecidableEq, Repr

/-- The module. -/
structure State where
  /-- The operational value of every parameter, by base address and element; an element not listed holds its reset
  value (R511). -/
  regs : List ((Nat × Nat) × Nat)
  /-- The shadows of the COMMIT parameters that differ from their operational values (R47). -/
  shadows : List ((Nat × Nat) × Nat)
  /-- The hidden accumulators of the frozen counter set (R453), by counter index. -/
  hidden : List (Nat × Nat)
  /-- True nanoseconds elapsed. -/
  clock : Nat
  phase : Phase
  /-- When RESET_N was last released, or a rail's return restarted the module. -/
  released : Nat
  /-- Counts the free values drawn so far; the model's own field, not the spec's. -/
  fresh : Nat
  /-- What the module has put on its interfaces, oldest first; the model's own field, not the spec's. -/
  out : List Emission
  /-- The commands that wait, first in, first out. -/
  pending : List Instr
  cmd : Command
  time : Timing
  refs : List RefMon
  servo : Servo
  flash : Flash
  links : List Link
  grants : List Grant
  /-- The next sequence number of the IEEE 1588 messages of a port and type. -/
  ptpSeq : List ((Nat × Nat) × Nat)
  tcal : List TcalServe
  linkRun : Option LinkRun
  fabric : Fabric
  quay : Quay
  lock : Lock
  tables : Tables
  log : Logbook
  pad : Scratchpad
  optics : Optics
  /-- The tagging register of each reach (R458), and when the first record of the window frame in the making was
  written (R463). -/
  tagRegs : List Nat
  windowAt : Option Nat
  cal : Calibration
  evtInputs : List EvtInput
  evtAccs : List EvtAcc
  nhp : Hierarchy
  gnss : Gnss
  obsJob : Option SnapJob
  rings : List Ring
  txSlots : List TxSlot
  nextSlot : Nat
  /-- When each MSI-X vector was last raised (R469). -/
  raised : List (Nat × Nat)
  power : Power
  /-- The first-fault record; none while it is empty (R442). -/
  fault : Option FirstFault
  deriving DecidableEq, Repr

/-- Flash as a module leaves the factory. The spec gives no contents: DESIGN CHOICE, assumption 6. -/
def Flash.factory : Flash := ⟨0, 0, 0, 0, some 0, none, 0, none, [], [], true, []⟩

/-- The module right after reset, RESET_N still low: every parameter at its reset value, every domain OFF (R432, R433, R511). -/
def State.reset : State where
  regs := []
  shadows := []
  hidden := []
  clock := 0
  phase := .held
  released := 0
  fresh := 0
  out := []
  pending := []
  cmd := ⟨[], 0, [], [], [], [], 0⟩
  time := ⟨⟨⟨0, 0⟩, none, none, 0, [], []⟩, ⟨⟨0, 0⟩, none, none, 0, [], []⟩, ⟨0, 0⟩, none, none, none, 0, 0, none, none⟩
  refs := List.replicate 8 ⟨none, 0, 0, false, false, true, true, 0xFFFFFFFF, 0⟩
  servo := ⟨none, 0, 0, 0, 0, 0, 0, 0, 0, 0, 0, none, 0, 0, 0, false, 0, 0, 0, 0, 0, 0, 0, none⟩
  flash := Flash.factory
  links := []
  grants := []
  ptpSeq := []
  tcal := []
  linkRun := none
  fabric := ⟨[], 0, [], [], [], [], [], [], [], [], [], [], [], [], [], [], [], [], [], [], [], none, 0, 0, none, none, true, 750, 750, false,
    some 0⟩
  quay := ⟨[0, 0, 0, 0], [], [], [], [], 0, [], [], []⟩
  lock := ⟨[], [], [], [], [], []⟩
  tables := ⟨[], [], [], [], [], [], [], [], [], 0, [], [], []⟩
  log := ⟨[], [], [], 0, [], 1000, none, none, none, none⟩
  pad := ⟨[], [], List.replicate 32 ⟨0, 64, 48⟩, [], [], [], none, [], 0⟩
  optics := ⟨[], [], [], [], [], [], []⟩
  tagRegs := [0x100, 0x101, 0x102, 0x103, 0x104, 0x105, 0x106, 0x107]
  windowAt := none
  cal := ⟨none, [], [], [], [], [], [], [], [], [], [], [], [], [], [], [], [], []⟩
  evtInputs := []
  evtAccs := []
  nhp := ⟨[], [], 0, 0, 0, none, none, [], false, [], [], [], 0, [], []⟩
  gnss := ⟨[], true, 0, 0, 0, 0, 0, 0, [], false, 0, none, (0, 1), none⟩
  obsJob := none
  rings := []
  txSlots := []
  nextSlot := 0
  raised := []
  power := ⟨[], [], [], [], 0, [], none, 0, false, false, 7, true⟩
  fault := none

/-- Why the module stops with a fault. -/
inductive Fault where
  deriving DecidableEq, Repr

/-- Why a command has no meaning. -/
inductive Refusal where
  /-- Raised by the dispatcher for a command whose meaning is not written yet. Safe: the model stops. -/
  | notModelled (mnemonic : String)
  deriving DecidableEq, Repr

end Sys2Proof.Machine
end

