-- ==== Sys2Proof/Machine/Ops.lean ====
section
/-! DEFINITION. The named operations on the state that every command uses: registers and shadows, counters, module
time, the outbox, sticky faults and notices. -/

namespace Sys2Proof.Machine

/-! ## Registers -/

/-- The operational value of element `i` of the parameter with base `b`. -/
def State.rd (s : State) (b : Nat) (i : Nat := 0) : Nat := look (b, i) (resetOf b i) s.regs

/-- The state with element `i` of the parameter with base `b` given the value `v`. -/
def State.wr (s : State) (b i v : Nat) : State :=
  { s with regs := store ltPair (b, i) (resetOf b i) v s.regs }

/-- A one-bit parameter as a truth value. -/
def State.rdb (s : State) (b : Nat) (i : Nat := 0) : Bool := s.rd b i != 0

/-- A signed parameter of width `w` as an integer. -/
def State.rdS (s : State) (w b : Nat) (i : Nat := 0) : Int := sgn w (s.rd b i)

/-- An integer written to a signed parameter of width `w`, held to what the field can hold. -/
def State.wrS (s : State) (w b i : Nat) (v : Int) : State := s.wr b i (raw w (clampS w v))

/-- Bits of a sticky parameter set. -/
def State.orIn (s : State) (b i m : Nat) : State := s.wr b i (s.rd b i ||| m)

/-- The shadow of element `i` of a COMMIT parameter (R47). -/
def State.shadow (s : State) (b : Nat) (i : Nat := 0) : Nat := look (b, i) (s.rd b i) s.shadows

/-- The shadow of a COMMIT parameter written. -/
def State.wrShadow (s : State) (b i v : Nat) : State :=
  { s with shadows := store ltPair (b, i) (s.rd b i) v s.shadows }

/-- A COMMIT parameter that the module itself changes: the shadow follows at the same tick (R514). -/
def State.wrBoth (s : State) (b i v : Nat) : State :=
  let t := s.wr b i v
  { t with shadows := without (b, i) t.shadows }

/-! ## Counters -/

/-- The counter set (R450): the base of each block parameter in it, the first index and how many. -/
def counterSet : List (Nat × Nat × Nat) :=
  [(P.LAN_FEC_CORR, 0, 512), (P.LAN_FEC_UNCORR, 512, 512), (P.FAB_SLOT_S1, 1024, 256), (P.FAB_SLOT_S2, 1280, 256),
   (P.PRT_RX_FCS_ERR, 1536, 512), (P.PRT_RX_RUNT, 2048, 512), (P.PRT_RX_OVERSIZE, 2560, 512),
   (P.PRT_RX_OVERRUN, 3072, 512), (P.PRT_RX_STOMP, 3584, 512), (P.PRT_TX_STOMP, 4096, 512),
   (P.PRT_EXPRESS_DEMOTED, 4608, 512), (P.PRT_LINKDOWN_DROP, 5120, 512), (P.PRT_TX_OVERSIZE, 5632, 512),
   (P.LCK_RELEASES, 6144, 512), (P.LCK_LATE, 6656, 512), (P.LCK_COPY_ABANDON, 7168, 512),
   (P.LCK_SWITCH_DELAY, 7680, 512)]

/-- The index in the counter set of element `i` of a parameter, if it is one of the set. -/
def counterIndex (b i : Nat) : Option Nat :=
  (counterSet.find? fun c => c.1 == b).map fun c => c.2.1 + i

/-- The parameter and element that index `n` of the counter set names. -/
def counterAt (n : Nat) : Option (Nat × Nat) :=
  (counterSet.find? fun c => decide (c.2.1 ≤ n ∧ n < c.2.1 + c.2.2)).map fun c => (c.1, n - c.2.1)

/-- A counter of the set raised by `n`: a pass over 2^48 - 1 wraps and sets the overflow bit (R451). -/
def State.bumpSet (s : State) (b i c n : Nat) : State :=
  let v := s.rd b i + n
  let t := s.wr b i (v % 2 ^ 48)
  if v < 2 ^ 48 then t else t.wr P.OBS_OVF (c / 64) (setBit (c % 64) (t.rd P.OBS_OVF (c / 64)))

/-- A 48-bit counter raised by `n` (R451). A counter of the set counts in its hidden accumulator while the set is
frozen (R453). -/
def State.count (s : State) (b : Nat) (i : Nat := 0) (n : Nat := 1) : State :=
  match counterIndex b i with
  | none => s.wr b i ((s.rd b i + n) % 2 ^ 48)
  | some c =>
    if s.rd P.OBS_FROZEN = 0 then s.bumpSet b i c n
    else { s with hidden := store ltNat c 0 (look c 0 s.hidden + n) s.hidden }

/-- The configuration generation rises (R517). -/
def State.configUp (s : State) : State := s.wr P.SYS_CONFIG_GEN 0 ((s.rd P.SYS_CONFIG_GEN + 1) % 2 ^ 32)

/-- A high-water mark: the parameter keeps the larger value. -/
def State.peak (s : State) (b i v : Nat) : State := if s.rd b i < v then s.wr b i v else s

/-! ## Time -/

/-- The TAI ns count of a time count: seconds and nanoseconds as one 64-bit integer (R54). -/
def TimeCount.ns (t : TimeCount) : Nat := (t.sec * 1000000000 + t.nano) % 2 ^ 64

/-- A time count one tick later (R55). -/
def TimeCount.tick (t : TimeCount) : TimeCount :=
  if t.nano + 2 < 1000000000 then { t with nano := t.nano + 2 }
  else ⟨(t.sec + 1) % 2 ^ 48, t.nano + 2 - 1000000000⟩

/-- The time count of a number of nanoseconds. -/
def TimeCount.ofNs (n : Nat) : TimeCount := ⟨n / 1000000000 % 2 ^ 48, n % 1000000000⟩

/-- The instant that a TAI seconds field and a nanoseconds field name, as a TAI ns count. -/
def instant (sec nano : Nat) : Nat := sec * 1000000000 + nano

/-- Module time in TAI nanoseconds without the wrap of 64 bits, to compare scheduled instants with. -/
def State.modNs (s : State) : Nat := instant s.time.out.sec s.time.out.nano

/-- Module time, the time of the output stage, as a TAI ns count (R54, R163). -/
def State.now (s : State) : Nat := s.time.out.ns

/-- TSTATE and the active reference or pull target as one byte, as a record's timing byte holds them (R337). -/
def State.timingByte (s : State) : Nat := s.rd P.REF_TSTATE + 8 * s.rd P.REF_ACTIVE

/-! ## Outbox, faults and notices -/

/-- The module puts something on an interface. -/
def State.emit (s : State) (e : Emission) : State := { s with out := s.out ++ [e] }

/-- The monitors of reference `r`. -/
def State.mon (s : State) (r : Nat) : RefMon :=
  s.refs.getD r ⟨none, 0, 0, false, false, true, true, 0xFFFFFFFF, 0⟩

/-- The monitors of reference `r` changed. -/
def State.setMon (s : State) (r : Nat) (f : RefMon → RefMon) : State := { s with refs := modAt r f s.refs }

/-- The state of core `c`. -/
def State.core (s : State) (c : Nat) : Core := if c = 0 then s.time.coreA else s.time.coreB

/-- The state of core `c` changed. -/
def State.setCore (s : State) (c : Nat) (f : Core → Core) : State :=
  if c = 0 then { s with time := { s.time with coreA := f s.time.coreA } }
  else { s with time := { s.time with coreB := f s.time.coreB } }

/-- The servo changed. -/
def State.setServo (s : State) (f : Servo → Servo) : State := { s with servo := f s.servo }

/-- The command channel changed. -/
def State.setCmd (s : State) (f : Command → Command) : State := { s with cmd := f s.cmd }

/-- The power plane changed. -/
def State.setPower (s : State) (f : Power → Power) : State := { s with power := f s.power }

/-- The host ring with global number `g`. -/
def State.ring (s : State) (g : Nat) : Option Ring := findBy Ring.g g s.rings

/-- Ring `g` changed. -/
def State.setRing (s : State) (g : Nat) (f : Ring → Ring) : State := { s with rings := updBy Ring.g g f s.rings }

/-- The TAI second at which an announced leap second takes effect: the UTC midnight that ends the present UTC day, one
second later for a day of 86,401 s and one earlier for a day of 86,399 s (R58). -/
def leapInstant (sec : Nat) (offset : Int) (leap : Nat) : Nat :=
  let utc : Int := (sec : Int) - offset
  ((utc / 86400 + 1) * 86400 + offset + (if leap = 1 then 1 else if leap = 2 then -1 else 0)).toNat

/-- The leap announcement as a source other than the operator gives it, or as a commit applies it (R58). -/
def State.armLeap (s : State) : State :=
  let l := s.rd P.TBS_LEAP
  { s with time := { s.time with
    leapAt := if l = 0 then none else some (leapInstant s.time.out.sec (s.rdS 16 P.TBS_UTC_OFFSET) l) } }

/-- The module announces a leap second of its own accord: the operational value and the shadow change together (R514). -/
def State.announceLeap (s : State) (l : Nat) : State :=
  if s.rd P.TBS_LEAP = l then s else (s.wrBoth P.TBS_LEAP 0 l).armLeap

end Sys2Proof.Machine
end

