-- ==== Sys2Proof/Machine/Flags.lean ====
section
/-! DEFINITION. The arithmetic of stamps and bounds: placing a stamp at the connector face (R61 to R64), the bound code
(R65), the holdover growth and B_mod (R68), and the stamp flags (R72). -/

namespace Sys2Proof.Machine

/-! ## Placing a stamp -/

/-- The symbol period of a rate code (R63, R356) in ps, as an exact fraction: the line symbol rates are 106.25, 53.125,
26.5625, 25.78125 and 10.3125 GBd. -/
def symbolPeriod : Nat → Nat × Nat
  | 0 => (160, 17)
  | 1 => (320, 17)
  | 2 => (640, 17)
  | 3 => (1280, 33)
  | _ => (3200, 33)

/-- The receive and transmit pipeline depths of a rate code, with and without FEC at 25.78125 Gb/s (R63). -/
def pipeline (rate : Nat) (noFec : Bool) : Nat × Nat :=
  match rate with
  | 0 => (160, 40)
  | 1 => (88, 24)
  | 2 => (52, 16)
  | 3 => if noFec then (12, 6) else (44, 14)
  | _ => (10, 6)

/-- A time in ps split into a TAI ns count and sub-nanoseconds, rounded to the nearest 2^-16 ns with halves up and
the carry taken (R64). -/
def splitPs (t : Int) : Nat × Nat :=
  let ns := t / 1000
  let sub := roundDiv ((t % 1000) * 65536) 1000
  if sub = 65536 then (raw 64 (ns + 1), 0) else (raw 64 ns, sub.toNat)

/-- The receive stamp in ps (R61), rounded to 1 ps with halves up (R64). The edge lies an exact fraction of ps after its tick; `syms` is
P + S + G, `depth` N_rx. -/
def rxPs (tickNs : Int) (fine ui : Nat × Nat) (syms depth drx : Nat) : Int :=
  roundDiv ((tickNs * 1000 - drx) * (fine.2 * ui.2) + fine.1 * ui.2 + ((syms : Int) - 64 * depth) * ui.1 * fine.2) (fine.2 * ui.2)

/-- The transmit stamp in ps (R62), rounded to 1 ps with halves up (R64). -/
def txPs (tickNs : Int) (fine ui : Nat × Nat) (sym depth dtx : Nat) : Int :=
  roundDiv ((tickNs * 1000 + dtx) * (fine.2 * ui.2) + fine.1 * ui.2 + ((sym : Int) + 64 * depth) * ui.1 * fine.2) (fine.2 * ui.2)

/-! ## The edge of a locked lane (R96 to R99) -/

/-- The symbols in a marker period of 32 ns, by rate code: the ratio of the tick regenerator's divider (R96). -/
def markerSymbols : Nat → Nat
  | 0 => 3400
  | 1 => 1700
  | 2 => 850
  | 3 => 825
  | _ => 330

/-- The phase of word edge `k` after the local tick, in units of 2,000 / (2^24 × M) ps with M symbols to the marker: the averaged phase of
the recovered tick, and that of the word edge after it, which the word count since the divider started gives (R96, R97). -/
def edgePhase (m : Nat) (avg : Int) (k : Nat) : Nat := ((avg * m + (1024 * k % m * 2 ^ 24 : Nat)) % (m * 2 ^ 24 : Nat)).toNat

/-- The tick of a word edge: within 500 ps of a local tick edge it is taken from the later sampler, one tick on where the phase says so
(R99). -/
def edgeTick (r : RawStamp) (m ph : Nat) : Int :=
  if 4 * ph ≤ m * 2 ^ 24 then (r.late : Int) + 2 else if 3 * (m * 2 ^ 24) ≤ 4 * ph then r.late else r.tick

/-! ## The bound code -/

/-- The code of a bound in ps: the least b with 2^(b/8) at least the bound, 255 above the largest (R65). -/
def boundCode (b : Nat) : Nat :=
  if b ≤ 1 then 0
  else
    let c := Nat.log2 (b ^ 8 - 1) + 1
    if c ≤ 254 then c else 255

/-- Whether a code is beyond a limit in ps, tested on the decoded value (R71). -/
def overLimit (code limit : Nat) : Bool := decide (code = 255 ∨ limit ^ 8 < 2 ^ code)

/-! ## Holdover growth and B_mod -/

/-- The growth of the bound from one instant to another in units of 0.5 × 10^-27 ps (R68): the frequency, drift and
temperature terms. -/
def growthUnits (yu du cu dT dt : Nat) : Nat :=
  2 * yu * dt * 10 ^ 15 + du * dt * dt + 2 * cu * dT * dt * 10 ^ 12

/-- H at an instant in ps, rounded up, with the growth before a switch-over included (R166). -/
def Servo.growth (v : Servo) (t : Nat) : Nat :=
  ceilDiv (v.hBase + growthUnits v.yu v.du v.cu v.dT (t - v.hFrom)) (2 * 10 ^ 27)

/-- φ_rem at an instant, in units of 10^-7 ps: it falls by REF_PHASE_SLOPE (R145). -/
def Servo.phiLeft (v : Servo) (slope t : Nat) : Int :=
  let d : Int := slope * (t - v.phiAt)
  if 0 ≤ v.phi then max 0 (v.phi - d) else min 0 (v.phi + d)

/-- φ_rem now, in units of 10^-7 ps. -/
def State.phiUnits (s : State) : Int := s.servo.phiLeft (s.rd P.REF_PHASE_SLOPE) s.clock

/-- φ_rem now, in ps towards zero; 0 outside PULLING (R149). -/
def State.phiRem (s : State) : Int :=
  if s.rd P.REF_TSTATE = 3 then (if 0 ≤ s.phiUnits then s.phiUnits / 10000000 else -(-s.phiUnits / 10000000)) else 0

/-- The value that stands for no valid bound. -/
abbrev noBound : Nat := 0xFFFFFFFF

/-- B_mod at an instant, by TSTATE (R68, R146); none where there is no valid bound. -/
def State.bMod (s : State) (t : Nat) : Option Nat :=
  let v := s.servo
  match s.rd P.REF_TSTATE with
  | 2 => if s.rd P.REF_BREF (s.rd P.REF_ACTIVE) = noBound then none else some (s.rd P.REF_BREF (s.rd P.REF_ACTIVE))
  | 3 =>
    match v.frozen with
    | some b =>
      if s.rd P.REF_BREF (s.rd P.REF_ACTIVE) = noBound then none
      else
        some (max v.pullMax (max (b + v.growth t)
          (s.rd P.REF_BREF (s.rd P.REF_ACTIVE) + ceilDiv (v.phiLeft (s.rd P.REF_PHASE_SLOPE) t).natAbs 10000000)))
    | none => none
  | 4 | 5 => v.frozen.map fun b => b + v.growth t
  | _ => none

/-- B_mod recomputed for the end of the coming 1 ms and published (R69); the largest value of a pull is kept (R146). -/
def State.refreshBound (s : State) : State :=
  match s.bMod (s.clock + 1000000) with
  | none => (s.wr P.TBS_BOUND_PS 0 noBound).wr P.TBS_BOUND_NOW 0 255
  | some b =>
    let t := (s.wr P.TBS_BOUND_PS 0 (clampU 32 b)).wr P.TBS_BOUND_NOW 0 (boundCode b)
    if s.rd P.REF_TSTATE = 3 then t.setServo fun v => { v with pullMax := b } else t

/-! ## The code and flags of a stamp -/

/-- Whether port `p` lies on a locked-class quad. -/
def State.lockedPort (s : State) (p : Nat) : Bool := s.rd P.LNK_CLASS (p / 4) == 1

/-- Whether a core switch-over gap is open (R163). -/
def State.inGap (s : State) : Bool := s.time.gap.isSome

/-- B_sw (R66). -/
def State.bSw (s : State) : Nat := if s.inGap then s.rd P.TBS_SWITCH_WIDEN else 0

/-- The code of a stamp with the given port and event terms (R66). -/
def State.stampCode (s : State) (bPort bEvt : Nat) : Nat :=
  if s.rd P.TBS_BOUND_PS = noBound then 255 else boundCode (bPort + bEvt + s.bSw + s.rd P.TBS_BOUND_PS)

/-- The flags of a stamp (R72), from its code, its class and its widening. -/
def State.stampFlags (s : State) (code : Nat) (free widened : Bool) : Nat :=
  let d := s.rd P.TBS_DOM_SELECTED
  b2n (overLimit code (s.rd P.TBS_BOUND_LIMIT)) + 2 * b2n s.inGap + 4 * b2n free +
    8 * b2n (s.rd P.REF_TSTATE != 2) + 16 * b2n (decide (d < 2)) + 32 * (if d = 1 then 1 else 0) + 64 * b2n widened

/-- Whether the shared blocks of the timing die have power: they stay up while either core's domain is up (R14). -/
def State.sharedUp (s : State) : Bool := s.rd P.PWR_DOMAIN_STATE 1 == 3 || s.rd P.PWR_DOMAIN_STATE 2 == 3

/-- Whether switching is stopped: in shutter mode, once the fabric has drained (R22, R436, R438). -/
def State.switchStopped (s : State) : Bool := s.rd P.PWR_SHUTTER_STATE != 0 && decide (s.rd P.FAB_STATE ≤ 1)

/-- A stamp of a time in ps with the given bound terms. -/
def State.stampOf (s : State) (t : Int) (bPort bEvt : Nat) (free : Bool) : Stamp :=
  let code := s.stampCode bPort bEvt
  let x := splitPs t
  ⟨x.1, x.2, code, s.stampFlags code free (bEvt != 0)⟩

/-- B_port: the calibration residual of a locked port, TBS_FREE_Q for a free one (R66). -/
def State.bPort (s : State) (p : Nat) : Nat :=
  if s.lockedPort p then s.rd P.CAL_PORT_RES p else s.rd P.TBS_FREE_Q

/-- The rate code of the lanes of port `p`, and whether the port runs without FEC. -/
def State.rateOf (s : State) (p : Nat) : Nat := s.rd P.LAN_RATE (p / 4)

/-- A link record with nothing measured yet. -/
def Link.blank (p : Nat) : Link :=
  ⟨p, 0, [], none, false, 0, false, [], none, 0, [], 0, 0, noBound, 0, 0, 0, none, false, none, 0, false, false⟩

/-- The link record of port `p`. -/
def State.link (s : State) (p : Nat) : Link := (findBy Link.port p s.links).getD (Link.blank p)

/-- The link record of port `p` changed. -/
def State.setLink (s : State) (p : Nat) (f : Link → Link) : State :=
  if (findBy Link.port p s.links).isSome then { s with links := updBy Link.port p f s.links }
  else { s with links := s.links ++ [f (Link.blank p)] }

/-- Whether the stamps of port `p` take the DDMTD phase: locked, with a valid DDMTD (R61, R98). -/
def State.ddmtdRuns (s : State) (p : Nat) : Bool := s.lockedPort p && (s.link p).valid

/-- T_e of a frame received on port `p` (R61, R96 to R99): the tick in ns, and the phase after it as a fraction of ps. -/
def State.rxEdge (s : State) (p : Nat) (r : RawStamp) : Int × Nat × Nat :=
  let m := markerSymbols (s.rateOf p)
  let ph := edgePhase m (s.link p).phase r.word
  if s.ddmtdRuns p then (edgeTick r m ph, 2000 * ph, m * 2 ^ 24) else (r.tick, r.fine, 1)

/-- T_e′ of a frame sent on port `p` (R62): the tick, and after it the calibrated phase of CK_LKT, or the half-tick sampler's reading. -/
def State.txEdge (s : State) (p : Nat) (r : RawStamp) : Int × Nat × Nat :=
  (r.tick, if s.ddmtdRuns p then look (p / 4) 0 s.cal.lkt else r.fine, 1)

/-- The receive stamp of a frame on port `p` in ps (R61). -/
def State.rxTime (s : State) (p : Nat) (r : RawStamp) : Int :=
  rxPs (s.rxEdge p r).1 (s.rxEdge p r).2 (symbolPeriod (s.rateOf p)) (r.sym.val + s.rd P.LAN_S p + s.rd P.LAN_G p)
    (pipeline (s.rateOf p) (s.rdb P.PRT_FEC p)).1 (s.rd P.CAL_DRX p)

/-- The transmit stamp of a frame on port `p` in ps (R62). -/
def State.txTime (s : State) (p : Nat) (r : RawStamp) : Int :=
  txPs (s.txEdge p r).1 (s.txEdge p r).2 (symbolPeriod (s.rateOf p)) r.sym.val
    (pipeline (s.rateOf p) (s.rdb P.PRT_FEC p)).2 (s.rd P.CAL_DTX p)

/-- B_evt of a port's stamps: TBS_FREE_Q while the DDMTD of a locked lane is not valid (R98), else the widening of
R113 to R115. -/
def State.bEvt (s : State) (p : Nat) : Nat :=
  if s.lockedPort p && !(s.link p).valid then s.rd P.TBS_FREE_Q else s.rd P.LNK_BEVT p

/-- LNK_FLAGS of port `p` as it reads: bit DDMTD_INVALID stands while the DDMTD of a locked lane is not valid (R98). -/
def State.linkFlags (s : State) (p : Nat) : Nat := putBit 2 (s.lockedPort p && !(s.link p).valid) (s.rd P.LNK_FLAGS p)

/-- The receive and the transmit stamp of a frame on port `p` (R61, R62, R66). -/
def State.rxMark (s : State) (p : Nat) (r : RawStamp) : Stamp := s.stampOf (s.rxTime p r) (s.bPort p) (s.bEvt p) (!s.lockedPort p)
def State.txMark (s : State) (p : Nat) (r : RawStamp) : Stamp := s.stampOf (s.txTime p r) (s.bPort p) (s.bEvt p) (!s.lockedPort p)

/-- A frame is stamped on port `p`, received or sent: a stamp that is OVER_LIMIT is counted (R60, R71, R89). The code of a stamp does not
depend on its time. -/
def State.stamped (s : State) (p : Nat) : State :=
  if overLimit (s.stampCode (s.bPort p) (s.bEvt p)) (s.rd P.TBS_BOUND_LIMIT) then s.count P.TBS_OVER_LIMIT_COUNT else s

/-- The receive stamp of a frame, taken and counted (R60). -/
def State.rxStamp (s : State) (p : Nat) (r : RawStamp) : State × Stamp := (s.stamped p, s.rxMark p r)

/-- The transmit stamp of a frame, taken and counted (R60). -/
def State.txStamp (s : State) (p : Nat) (r : RawStamp) : State × Stamp := (s.stamped p, s.txMark p r)

/-! ## The reference bound of a LINK (R109) -/

/-- The LINK reference indexes that name port `p` (R127). -/
def State.linkRefs (s : State) (p : Nat) : List Nat := [3, 4, 5, 6].filter fun r => s.rd P.REF_LINK_PORT (r - 3) == p

/-- B_asym of port `p` with its last round trip. -/
def State.bAsym (s : State) (p : Nat) : Nat :=
  if s.rd P.LNK_ASYM_RES p = 0xFFFF then ceilDiv (s.rd P.LNK_ASYM_UNCAL_PPM * s.rd P.LNK_RT p) 2000000
  else s.rd P.LNK_ASYM_RES p

/-- B_hop of the TIME_IN port `p` (R109). -/
def State.bHop (s : State) (p : Nat) : Nat :=
  s.bAsym p + s.bPort p + s.bEvt p + (s.link p).sender + s.rd P.LNK_HOP_MARGIN

/-- The upstream bound and the hop term of port `p`, or no bound (R109). -/
def State.linkBound (s : State) (p : Nat) : Nat :=
  if (s.link p).upBound = noBound then noBound else clampU 32 ((s.link p).upBound + s.bHop p)

/-! ## What the servo steers by (R141, R152, R153) -/

/-- y(t) of the oven of core `c` in units of 10^-15: the offset, the ageing since t0 and the temperature term (R152). -/
def State.ovenY (s : State) (c : Nat) : Int :=
  s.rdS 64 P.REF_HO_Y0 c + s.rdS 64 P.REF_HO_D c * (s.clock - s.servo.t0 : Nat) / 10 ^ 15 +
    s.rdS 64 P.REF_HO_C c * s.servo.ovenDev / 1000

/-- The DCO of the active core is steered as its TSTATE says (R148, R153): without steering in FREERUN, against y(t) in holdover; a
frequency that follows a reference stays as the loop last set it, and in FAULT the output stage keeps the last one. -/
def State.steerNow (s : State) : State :=
  match s.rd P.REF_TSTATE with
  | 0 => s.setServo fun v => { v with steer := 0, steerAt := s.clock }
  | 4 | 5 => s.setServo fun v => { v with steer := -(s.ovenY (s.rd P.COR_ACTIVE)), steerAt := s.clock }
  | _ => s

/-- The bandwidths in mHz at which the loop takes phase and frequency from reference `r` (R141). -/
def State.loopBw (s : State) (r : Nat) : Nat × Nat :=
  let bw (i : Nat) : Nat := s.rd P.REF_BW i
  if r = 0 then (bw 0, bw 0)
  else if r ≤ 2 then
    match s.rd P.REF_EXT_MODE (r - 1) with
    | 0 => (bw 1, bw 2)
    | 1 => (bw 1, bw 1)
    | _ => (bw 2, bw 2)
  else (bw 3, bw 3)

/-- The loop takes a phase in ps and a frequency in ppt from the reference followed (R141, R142): what a second-order loop of damping 1.0
makes of them is a free value, and the frequency changes by no more than REF_FREQ_SLOPE. -/
def State.follow (s : State) (r : Nat) (phase freq : Int) : State :=
  let v := s.servo
  let aim := (Config.loop (s.loopBw r) phase freq v.steer).toInt
  let most : Int := s.rd P.REF_FREQ_SLOPE * (s.clock - v.steerAt) / 1000000
  let next := max (v.steer - most) (min (v.steer + most) aim)
  s.setServo fun v => { v with steer := next, steerAt := s.clock, phaseIn := phase }

/-- A second of following: the correction applied is kept with those of the 10 s before (R153). -/
def State.noteApplied (s : State) : State :=
  s.setCore (s.rd P.COR_ACTIVE) fun c => { c with applied := (s.servo.steer :: c.applied).take 10 }

end Sys2Proof.Machine
end

