-- ==== Sys2Proof/Machine/Reply.lean ====
section
/-! DEFINITION. What the command channel sends: packets, final replies, notices and sticky faults, and the host rings
and NHP frames they travel in. -/

namespace Sys2Proof.Machine

/-! ## Status codes (R52) -/

namespace Status
abbrev OK : Nat := 0x0000
abbrev ACCEPTED : Nat := 0x0001
abbrev DONE : Nat := 0x0002
abbrev DONE_LATE : Nat := 0x0003
abbrev WAKE_QUEUED : Nat := 0x0004
abbrev CHALLENGE : Nat := 0x0005
abbrev PARTIAL : Nat := 0x0006
abbrev BAD_CHECK : Nat := 0x0101
abbrev BAD_VERSION : Nat := 0x0102
abbrev BAD_LENGTH : Nat := 0x0103
abbrev UNKNOWN_OPCODE : Nat := 0x0104
abbrev BAD_SESSION : Nat := 0x0105
abbrev TAG_IN_USE : Nat := 0x0106
abbrev BUSY : Nat := 0x0107
abbrev NO_SESSION : Nat := 0x0108
abbrev PRIVILEGE_VIOLATION : Nat := 0x0201
abbrev SESSION_FROZEN : Nat := 0x0202
abbrev PROOF_FAILED : Nat := 0x0203
abbrev LIFECYCLE_DENIED : Nat := 0x0204
abbrev BAD_ADDRESS : Nat := 0x0301
abbrev BAD_INDEX : Nat := 0x0302
abbrev BAD_VALUE : Nat := 0x0303
abbrev READ_ONLY : Nat := 0x0304
abbrev FIELD_LIVE_BLOCKED : Nat := 0x0305
abbrev NO_SHADOW : Nat := 0x0306
abbrev SHUTTER_ACTIVE : Nat := 0x0401
abbrev NOT_READY : Nat := 0x0402
abbrev IN_PROGRESS : Nat := 0x0403
abbrev NOT_FOUND : Nat := 0x0404
abbrev TABLE_FULL : Nat := 0x0405
abbrev SUPERSEDED : Nat := 0x0406
abbrev ABORTED : Nat := 0x0407
abbrev TIMEOUT : Nat := 0x0408
abbrev INTERNAL_FAULT : Nat := 0x0F01
end Status

/-! ## Opcode numbers (R51) -/

namespace Op
abbrev SESSION_OPEN : Nat := 0x0201
abbrev SESSION_PROVE : Nat := 0x0202
abbrev SESSION_CLOSE : Nat := 0x0203
abbrev SESSION_SET : Nat := 0x0204
abbrev PARAM_READ : Nat := 0x0210
abbrev PARAM_WRITE : Nat := 0x0211
abbrev PARAM_COMMIT : Nat := 0x0212
abbrev NOTICE : Nat := 0x02F0
abbrev SYS_INFO : Nat := 0x0101
abbrev FABRIC_ENABLE : Nat := 0x1001
abbrev FABRIC_DISABLE : Nat := 0x1002
abbrev TBL_SEARCH : Nat := 0x1301
abbrev TBL_NEXT : Nat := 0x1302
abbrev TBL_INSERT : Nat := 0x1303
abbrev TBL_DELETE : Nat := 0x1304
abbrev TBL_FLUSH_PORT : Nat := 0x1305
abbrev TBL_REHASH : Nat := 0x1306
abbrev TBL_STREAM_WRITE : Nat := 0x1307
abbrev TBL_CLEAR_FLAP : Nat := 0x1308
abbrev REF_ACCEPT : Nat := 0x2201
abbrev CORE_SWITCH : Nat := 0x2301
abbrev CORE_HEALTH : Nat := 0x2302
abbrev GNS_SNAPSHOT : Nat := 0x2401
abbrev EVT_STATS : Nat := 0x2501
abbrev CAL_RUN : Nat := 0x2601
abbrev LAN_SLIP : Nat := 0x3001
abbrev SYN_APPLY : Nat := 0x3101
abbrev LASER_SWAP : Nat := 0x3201
abbrev LOG_KEY_PUBLIC : Nat := 0x4001
abbrev LIFECYCLE_SET : Nat := 0x4101
abbrev MASTER_RELEASE : Nat := 0x4201
abbrev HIE_TUNNEL : Nat := 0x5001
abbrev HIE_FANOUT : Nat := 0x5002
abbrev HIE_REGISTRY_READ : Nat := 0x5003
abbrev SHUTTER_ENTER : Nat := 0x6001
abbrev SHUTTER_LEAVE : Nat := 0x6002
abbrev STICKY_CLEAR : Nat := 0x6101
abbrev WEAR_GET : Nat := 0x6102
abbrev FAULT_READ : Nat := 0x6103
abbrev OBS_SNAPSHOT : Nat := 0x7001
abbrev OBS_FREEZE : Nat := 0x7002
abbrev OBS_TRACE_READ : Nat := 0x7003
abbrev QUEUE_CREATE : Nat := 0x7101
abbrev QUEUE_DESTROY : Nat := 0x7102
end Op

/-! ## Packets -/

/-- The number of a transport: its ceiling index (R23) and its code in CMD_SESSION_TRANSPORT (R53). -/
def trCode : Transport → Nat
  | .pcie => 0
  | .spi => 1
  | .mgmt => 2
  | .nhp => 3

/-- The first 14 bytes of a packet header (R26). -/
def Packet.head (p : Packet) : List Byte :=
  toBe 1 p.version ++ toBe 1 p.flags ++ toBe 2 p.opcode ++ toBe 4 p.tag ++ toBe 2 p.session ++
    toBe 2 p.payload.length ++ toBe 2 p.status

/-- The bytes of a packet on the wire, the header check included (R26, R27). -/
def Packet.bytes (p : Packet) : List Byte := p.head ++ toBe 2 (onesCheck p.head) ++ p.payload

/-- The Flags field of a reply: RESP, FINAL as given, TUNNEL on the NHP tunnel (R26). -/
def replyFlags (tr : Transport) (final : Bool) : Nat :=
  1 + (if final then 4 else 0) + (if tr = .nhp then 8 else 0)

/-- A packet in the SPI framing: the sync bytes, the packet and its CRC-32 (R23). -/
def spiFrame (bs : List Byte) : List Byte := [0xEC, 0x9A] ++ bs ++ toBe 4 (crc32 bs)

/-! ## Host memory and rings -/

/-- Whether the scratchpad master with the number is frozen (R393). -/
def State.frozenMaster (s : State) (m : Nat) : Bool := (s.rd P.SPD_FROZEN).testBit m

/-- A 32-bit index advanced (R468). -/
def advance (i n : Nat) : Nat := (i + n) % 2 ^ 32

/-- The slots in use between a producer and a consumer index (R468). -/
def inUse (prod cons : Nat) : Nat := (prod + 2 ^ 32 - cons) % 2 ^ 32

/-- The host address of the slot that index `i` names in a ring with slots of `n` bytes. -/
def Ring.slotAddr (r : Ring) (n i : Nat) : Nat := r.base + i % r.size * n

/-- The module writes its index for ring `g` into the status block (R468) and notes the move for the vector (R469). -/
def State.writeIndex (s : State) (g index : Nat) : State :=
  (if s.rd P.HST_STATUS_ADDR = 0 then s
   else s.emit (.hostWrite (s.rd P.HST_STATUS_ADDR + 4 * g) (toBe 4 index))).setRing g
    fun r => { r with moved := true }

/-- Whether the PCIe link is up. -/
def State.linkUp (s : State) : Bool := s.rd P.HST_LINK_WIDTH != 0

/-- Whether reply ring `n` can take a packet now: the link is up, the ring exists and has room, and master 3 is not
frozen (R468, R480, R482). -/
def State.replyRoom (s : State) (n : Nat) : Bool :=
  match s.ring (164 + n) with
  | some r => s.linkUp && !s.frozenMaster 3 && decide (s.rd P.HST_RING_STATE (164 + n) = 1) &&
      decide (inUse r.prod r.cons < r.size)
  | none => false

/-- A packet written into the next slot of reply ring `n` (R480). -/
def State.writeReply (s : State) (n : Nat) (bs : List Byte) : State :=
  match s.ring (164 + n) with
  | some r =>
    let t := (s.emit (.hostWrite (r.slotAddr 4096 r.prod) bs)).setRing (164 + n)
      fun r => { r with prod := advance r.prod 1 }
    t.writeIndex (164 + n) (advance r.prod 1)
  | none => s

/-! ## NHP frames (R407) -/

/-- The source address of port `p`. -/
def State.portMac (s : State) (p : Nat) : Nat := s.rd P.HIE_PORT_MAC_BASE + p

/-- An NHP frame of the given version and type, padded to the minimum length, with its FCS (R407). -/
def State.nhpFrame (s : State) (p version type hops : Nat) (sender : Nat) (senderPort : Nat) (body : List Byte) :
    List Byte :=
  let f := [0x01, 0x80, 0xC2, 0x00, 0x00, 0x0E] ++ toBe 6 (s.portMac p) ++ [0x88, 0xB5] ++
    toBe 1 version ++ toBe 1 type ++ toBe 2 body.length ++ toBe 8 sender ++ toBe 2 senderPort ++ toBe 1 hops ++ [0] ++
    body
  withFcs (f ++ zeros (60 - f.length))

/-- Whether the lanes of engine 0 or 31 serve the port (R427). -/
def keelPort (p : Nat) : Bool := decide (p < 16 ∨ 496 ≤ p)

/-- Whether NHP runs on port `p` (R406). -/
def State.nhpRuns (s : State) (p : Nat) : Bool :=
  s.rdb P.HIE_ENABLE && s.rdb P.PRT_LINK_UP p &&
    ((s.rd P.LNK_ROLE p != 0 && s.rd P.LNK_CLASS (p / 4) == 1) || s.rdb P.HIE_PORT_EN p) &&
    (s.rd P.PWR_SHUTTER_STATE == 0 || keelPort p)

/-- A message the module itself sends on a port, with hop limit 8, in the version in use there (R407, R409), and stamped as every frame is
(R60). -/
def State.nhpSend (s : State) (p type : Nat) (body : List Byte) : State :=
  if s.nhpRuns p then
    (s.stamped p).emit (.frame p (s.nhpFrame p (s.rd P.HIE_PORT_VERSION p) type 8 (s.rd P.HIE_IDENTITY) p body))
  else s

/-- The segments of a tunnelled packet: the index of each and its bytes (R419). -/
def segments : Nat → Nat → List Byte → List (Nat × List Byte)
  | 0, _, _ => []
  | k + 1, i, bs => (i, bs.take 1024) :: segments k (i + 1) (bs.drop 1024)

/-- The number of segments of a packet. -/
def segmentCount (n : Nat) : Nat := max 1 (ceilDiv n 1024)

/-- The body of a TUNNEL_REQ or TUNNEL_REPLY (R419). -/
def tunnelBody (id peer index count : Nat) (bs : List Byte) : List Byte :=
  toBe 4 id ++ toBe 8 peer ++ toBe 1 (index * 16 + (count - 1)) ++ zeros 3 ++ bs

/-- A packet sent in segments out of a port, as messages of type 0x08 or 0x09 (R419). -/
def State.sendSegments (s : State) (p type id peer : Nat) (bs : List Byte) : State :=
  let n := segmentCount bs.length
  (segments n 0 bs).foldl (fun t seg => t.nhpSend p type (tunnelBody id peer seg.1 n seg.2)) s

/-! ## Delivery -/

/-- A reply handed to its transport: written into its reply ring, queued for SPI, sent on MGMT while that transport is on, or returned
through the tunnel under its tunnel id (R23, R24, R53, R419, R480). -/
def State.deliver (s : State) (tr : Transport) (chan : Nat) (p : Packet) : State :=
  match tr with
  | .spi => s.setCmd fun c => { c with spi := c.spi ++ [.reply p] }
  | .mgmt => if s.rdb P.CMD_MGMT_ENABLE then s.emit (.udp chan p.bytes) else s
  | .nhp =>
    if s.rd P.HIE_PARENT_PORT < 512 then
      s.sendSegments (s.rd P.HIE_PARENT_PORT) 0x09 chan (s.rd P.HIE_IDENTITY) p.bytes
    else s
  | .pcie =>
    if s.replyRoom chan && !(s.cmd.mbx.any fun w => w.1 == chan) then s.writeReply chan p.bytes
    else s.setCmd fun c => { c with mbx := c.mbx ++ [(chan, .reply p)] }

/-- A reply packet sent, with the refusals counted (R53). -/
def State.sendPacket (s : State) (tr : Transport) (chan : Nat) (p : Packet) : State :=
  let t := if 0x100 ≤ p.status then s.count P.CMD_REFUSED_COUNT else s
  t.deliver tr chan p

/-! ## Sessions -/

/-- The open, frozen or proving session with the number. -/
def State.session (s : State) (n : Nat) : Option Session := findBy Session.num n s.cmd.sessions

/-- The session with the running number. -/
def State.sessionUid (s : State) (u : Nat) : Option Session := findBy Session.uid u s.cmd.sessions

/-- The session with the running number, changed. -/
def State.setSession (s : State) (u : Nat) (f : Session → Session) : State :=
  s.setCmd fun c => { c with sessions := updBy Session.uid u f c.sessions }

/-- CMD_SESSION_STATE of session `n` (R53). -/
def State.sessState (s : State) (n : Nat) : Nat := s.rd P.CMD_SESSION_STATE (n - 1)

/-- CMD_SESSION_PRIV of session `n`. -/
def State.sessPriv (s : State) (n : Nat) : Nat := s.rd P.CMD_SESSION_PRIV (n - 1)

/-- The reply packet of a request. One of more than 4,072 bytes does not pass the NHP tunnel: the request is answered BAD_LENGTH (R419). -/
def Origin.packet (o : Origin) (status : Nat) (final : Bool) (payload : List Byte) : Packet :=
  let long := o.transport == .nhp && decide (4056 < payload.length)
  ⟨o.version, replyFlags o.transport final, o.opcode, o.tag, o.session, if long then Status.BAD_LENGTH else status,
    if long then [] else payload⟩

/-- A request of the session starts: of the last 32 that it started, this one included, the final replies are kept (R41). -/
def Session.noteStart (x : Session) (tag op : Nat) : Session :=
  let l := x.begun ++ [(tag, op)]
  let l := l.drop (l.length - 32)
  { x with begun := l, replies := x.replies.filter fun r => l.contains (r.tag, r.op) }

/-- A final reply stored for a repeat of the request, if that is one of the last 32 the session started (R41). -/
def Session.keepReply (x : Session) (tag op : Nat) (p : Packet) : List Stored :=
  if x.begun.contains (tag, op) then (x.replies.filter fun r => !(r.tag == tag && r.op == op)) ++ [⟨tag, op, p⟩] else x.replies

/-- A reply that leaves the request unfinished: ACCEPTED, CHALLENGE or one reply of several (R42). -/
def State.replyPart (s : State) (o : Origin) (status : Nat) (payload : List Byte) : State :=
  if (s.sessionUid o.uid).isSome || o.opcode == Op.SESSION_OPEN then
    s.sendPacket o.transport o.chan (o.packet status false payload)
  else s

/-- ACCEPTED: the session may start its next request (R39, R42). -/
def State.accept (s : State) (o : Origin) : State :=
  (s.replyPart o Status.ACCEPTED []).setSession o.uid fun x =>
    if x.blocked = some o.tag then { x with blocked := none } else x

/-- The final reply of a started request: sent, kept for a repeat (R41), and the session freed for its next request
(R39). The final reply of a command whose session has closed is discarded (R43). -/
def State.finish (s : State) (o : Origin) (status : Nat) (payload : List Byte) : State :=
  match s.sessionUid o.uid with
  | none => s
  | some _ =>
    let p := o.packet status true payload
    (s.sendPacket o.transport o.chan p).setSession o.uid fun x =>
      { x with replies := x.keepReply o.tag o.opcode p,
               blocked := if x.blocked = some o.tag then none else x.blocked }

/-- The final reply to a SESSION_OPEN, which belongs to no session and is never stored (R31). -/
def State.finishOpen (s : State) (o : Origin) (status : Nat) (payload : List Byte) : State :=
  s.sendPacket o.transport o.chan (o.packet status true payload)

/-- A session closes: its number reads FREE, its waiting requests are dropped, and a SESSION_OPEN that still waits for
its proof ends PROOF_FAILED (R31, R33). -/
def State.closeSession (s : State) (n : Nat) : State :=
  match s.session n with
  | none => s
  | some x =>
    let t := s.setCmd fun c => { c with sessions := dropBy Session.num n c.sessions }
    let t := ((t.wr P.CMD_SESSION_STATE (n - 1) 0).wr P.CMD_SESSION_PRIV (n - 1) 0).wr P.CMD_SESSION_TRANSPORT (n - 1) 0
    match x.opening with
    | some o => t.finishOpen o Status.PROOF_FAILED []
    | none => t

/-! ## Notices (R50) -/

/-- The notices that wait for the session with the running number. -/
def State.noticesOf (s : State) (u : Nat) : Nat :=
  let mine : Waiting → Bool := fun w => match w with | .notice v _ _ _ => v == u | .reply _ => false
  (s.cmd.spi.filter mine).length + (s.cmd.mbx.filter fun w => mine w.2).length

/-- The packet of a notice, with the lost count it carries (R50). -/
def noticePacket (x : Session) (code time : Nat) (data : List Byte) : Packet :=
  ⟨x.version, replyFlags x.transport true + 2, Op.NOTICE, 0, x.num, Status.OK,
    toBe 2 code ++ toBe 2 (clampU 16 x.lost) ++ toBe 8 time ++ data⟩

/-- The bytes of a waiting packet as it is delivered, and the state with the session's lost count taken (R50). -/
def State.takeWaiting (s : State) (w : Waiting) : State × List Byte :=
  match w with
  | .reply p => (s, p.bytes)
  | .notice u code time data =>
    match s.sessionUid u with
    | some x => (s.setSession u fun x => { x with lost := 0 }, (noticePacket x code time data).bytes)
    | none => (s, [])

/-- A notice to one session: sent at once where the transport can take it, queued up to 64, else dropped and
counted (R50). -/
def State.noticeTo (s : State) (code : Nat) (data : List Byte) (x : Session) : State :=
  let drop := (s.count P.CMD_NOTICE_DROP).setSession x.uid fun y => { y with lost := y.lost + 1 }
  match x.transport with
  | .mgmt =>
    if s.rdb P.CMD_MGMT_ENABLE then
      (s.emit (.udp x.chan (noticePacket x code s.now data).bytes)).setSession x.uid fun y => { y with lost := 0 }
    else drop
  | .nhp => s
  | .spi =>
    if s.noticesOf x.uid < 64 then
      s.setCmd fun c => { c with spi := c.spi ++ [.notice x.uid code s.now data] }
    else drop
  | .pcie =>
    if s.replyRoom x.chan && !(s.cmd.mbx.any fun w => w.1 == x.chan) then
      (s.writeReply x.chan (noticePacket x code s.now data).bytes).setSession x.uid fun y => { y with lost := 0 }
    else if s.noticesOf x.uid < 64 ∧ (s.cmd.mbx.filter fun w => w.1 == x.chan).length < 64 then
      s.setCmd fun c => { c with mbx := c.mbx ++ [(x.chan, .notice x.uid code s.now data)] }
    else drop

/-- The subscribed sessions of R50: version 2 or 3, not in PROVING, with the bit of the code in their mask. -/
def State.hears (s : State) (code : Nat) (x : Session) : Bool :=
  decide (2 ≤ x.version) && x.mask.testBit code && !(s.sessState x.num == 3)

/-- A notice to every subscribed session (R50). -/
def State.notice (s : State) (code : Nat) (data : List Byte) : State :=
  s.cmd.sessions.foldl (fun t x => if s.hears code x then t.noticeTo code data x else t) s

/-! ## Sticky faults (R440 to R442) -/

/-- The bytes of the first-fault record (R442). -/
def State.faultRecord (s : State) : List Byte :=
  match s.fault with
  | none => [0xFF] ++ zeros 23 ++ toBe 4 (s.rd P.HLT_STICKY) ++ zeros 4
  | some f =>
    toBe 1 f.fbit ++ toBe 1 f.tstate ++ toBe 1 f.core ++ toBe 1 f.fab ++ toBe 8 f.time ++ toBe 4 f.mask ++
      toBe 8 f.detail ++ toBe 4 (s.rd P.HLT_STICKY) ++ toBe 4 f.count

/-- A sticky fault: its bit is set and counted; the first since the record was emptied fills the record and sends one
FIRST_FAULT notice, a later one adds to the mask and the count (R440, R442). -/
def State.sticky (s : State) (n detail : Nat) : State :=
  let t := (s.count P.HLT_FAULT_COUNT).orIn P.HLT_STICKY 0 (2 ^ n)
  match t.fault with
  | some f =>
    { t with fault := some { f with mask := setBit n f.mask, count := (f.count + 1) % 2 ^ 32 } }
  | none =>
    let f : FirstFault :=
      ⟨n, t.rd P.REF_TSTATE, t.rd P.COR_ACTIVE, t.rd P.FAB_STATE, t.now, 2 ^ n, detail % 2 ^ 64, 1⟩
    let t := { t with fault := some f }
    t.notice 11 t.faultRecord

/-- A request ends INTERNAL_FAULT (R52), which raises its sticky fault (R440); the core and location of its detail are not stated. -/
def State.failInternal (s : State) (o : Origin) : State :=
  ({ s with fresh := s.fresh + 1 }.sticky 20 (o.opcode * 65536 + (Config.faultPlace s.fresh).toNat)).finish o
    Status.INTERNAL_FAULT []

/-- ALERT_N is driven low: a sticky bit under the mask, a packet that waits on SPI, or no image that boots (R24, R434,
R441). While RESET_N is low it is released (R433). -/
def State.alertLow (s : State) : Bool :=
  match s.phase with
  | .held => false
  | .failed => true
  | _ => (s.rd P.HLT_STICKY &&& s.rd P.HLT_ALERT_MASK) != 0 || !s.cmd.spi.isEmpty

end Sys2Proof.Machine
end

