-- ==== Sys2Proof/Machine/Refs.lean ====
section
/-! DEFINITION. References, selection and holdover (R127 to R155): the monitors, the qualification state machine, the
selection by REFSEL and AUTO, and the transitions of TSTATE. -/

namespace Sys2Proof.Machine

/-! ## Configuration and kind -/

/-- Whether the configuration supplies an input to reference `r` (R128, R136). -/
def State.refConfigured (s : State) (r : Nat) : Bool :=
  match r with
  | 0 => s.rdb P.GNS_ENABLE
  | 1 | 2 => s.rd P.REF_EXT_MODE (r - 1) != 3
  | 3 | 4 | 5 | 6 =>
    let p := s.rd P.REF_LINK_PORT (r - 3)
    decide (p < 512) && s.lockedPort p && s.rd P.LNK_ROLE p == 1
  | _ => false

/-- The kind of reference `r` (R127): 0 none, 1 time, 2 frequency-only. A LINK is a time reference while its upstream
bound is valid. -/
def State.refKindOf (s : State) (r : Nat) : Nat :=
  if s.refConfigured r then
    match r with
    | 0 => 1
    | 1 | 2 =>
      if s.rd P.REF_EXT_MODE (r - 1) ≤ 1 ∧ s.rd P.REF_EXT_BOUND (r - 1) ≠ noBound then 1 else 2
    | _ => if s.linkBound (s.rd P.REF_LINK_PORT (r - 3)) = noBound then 2 else 1
  else 0

/-- B_ref of an external reference: its declared bound and the calibrated residual of its input path (R67); the inputs
of CAL_REFIN_RES are REF A PPS, REF A FREQ, REF B PPS and REF B FREQ. -/
def State.extBref (s : State) (r : Nat) : Nat :=
  if s.rd P.REF_EXT_BOUND (r - 1) = noBound then noBound
  else clampU 32 (s.rd P.REF_EXT_BOUND (r - 1) + s.rd P.CAL_REFIN_RES (2 * (r - 1)))

/-- B_ref of reference `r` as its configuration and its link make it now (R67): that of GNSS is the last pulse's. -/
def State.brefOf (s : State) (r : Nat) : Nat :=
  if ¬ s.refConfigured r then noBound
  else
    match r with
    | 0 => s.rd P.REF_BREF 0
    | 1 | 2 => s.extBref r
    | _ => s.linkBound (s.rd P.REF_LINK_PORT (r - 3))

/-- B_ref of the reference while it was last a time reference: the present one, or the last valid one (R129). -/
def State.frozenBref (s : State) (r : Nat) : Nat := if s.rd P.REF_BREF r = noBound then (s.mon r).lastBref else s.rd P.REF_BREF r

/-- REF_BREF of reference `r` shown; a valid one is kept for the loss of the reference (R146). -/
def State.showBref (s : State) (r b : Nat) : State :=
  (s.wr P.REF_BREF r b).setMon r fun m => if b = noBound then m else { m with lastBref := b }

/-- Whether activity is present on reference `r` (R130). -/
def State.refPresent (s : State) (r : Nat) : Bool :=
  let m := s.mon r
  match r with
  | 0 => m.pps
  | 1 | 2 =>
    match s.rd P.REF_EXT_MODE (r - 1) with
    | 0 => m.pps && m.mhz
    | 1 => m.pps
    | 2 => m.mhz
    | _ => false
  | 3 | 4 | 5 | 6 =>
    let p := s.rd P.REF_LINK_PORT (r - 3)
    decide (p < 512) && (s.rd P.LNK_STATE p == 3 || s.rd P.LNK_STATE p == 4)
  | _ => false

/-- The qualification state of reference `r` (R136). -/
def State.qstate (s : State) (r : Nat) : Nat := s.rd P.REF_QSTATE r

/-- A reference enters a qualification state: its timer starts, and its anchor is set or discarded as R130 and R133
say. -/
def State.enterQ (s : State) (r q : Nat) : State :=
  let t := (s.wr P.REF_QSTATE r q).setMon r fun m => { m with since := s.clock }
  if q = 0 ∨ q = 6 then t.setMon r fun m => { m with anchor := none }
  else if q = 1 ∨ q = 3 ∨ q = 4 then
    (t.setMon r fun m => { m with anchor := some (s.rdS 64 P.REF_PHASE r + s.servo.modOsc - s.servo.mOff) }).wr P.REF_DEV r 0
  else t

/-! ## Selection -/

/-- Whether reference `r` is QUALIFIED. -/
def State.qualified (s : State) (r : Nat) : Bool := decide (r < 7) && s.qstate r == 2

/-- Whether reference `a` ranks above `b` by the keys of R139. -/
def State.ranksAbove (s : State) (a b : Nat) : Bool :=
  let ka := s.rd P.REF_KIND a; let kb := s.rd P.REF_KIND b
  let pa := s.rd P.REF_PRIO a; let pb := s.rd P.REF_PRIO b
  let ba := s.rd P.REF_BREF a; let bb := s.rd P.REF_BREF b
  if ka != kb then ka == 1
  else if pa != pb then decide (pa < pb)
  else if ba != bb then decide (ba < bb)
  else decide (a < b)

/-- Whether AUTO may take reference `r` (R139). -/
def State.autoCandidate (s : State) (r : Nat) : Bool :=
  let ts := s.rd P.REF_TSTATE
  s.qualified r && s.rd P.REF_PRIO r != 0 &&
    (s.rd P.REF_KIND r == 1 || ts == 0 || ts == 5 || ((ts == 1 || ts == 6) && s.rd P.REF_ACTIVE == r))

/-- The best of a list of references. -/
def State.bestOf (s : State) (rs : List Nat) : Option Nat :=
  rs.foldl (fun b r => match b with
    | none => some r
    | some x => if s.ranksAbove r x then some r else some x) none

/-- The AUTO choice (R139). -/
def State.autoChoice (s : State) : Option Nat := s.bestOf ((List.range 7).filter s.autoCandidate)

/-- Whether the pins select AUTO (R138). -/
def State.isAuto (s : State) : Bool := s.rd P.REF_PINS == 7

/-- The reference the pins or AUTO select, if it may be followed (R138, R139). -/
def State.selected (s : State) : Option Nat :=
  if s.isAuto then s.autoChoice
  else if s.qualified (s.rd P.REF_PINS) then some (s.rd P.REF_PINS) else none

/-! ## Transitions of TSTATE -/

/-- The domain number whose LINK reference is the active one, 2 when none is (R88). -/
def State.domainNow (s : State) : Nat :=
  let a := s.rd P.REF_ACTIVE
  if s.rd P.TBS_DOM_LINK 0 = a ∧ 3 ≤ a ∧ a ≤ 6 then 0
  else if s.rd P.TBS_DOM_LINK 1 = a ∧ 3 ≤ a ∧ a ≤ 6 then 1
  else 2

/-- TSTATE and the active reference set, the selected domain with them (R88). -/
def State.put (s : State) (ts a : Nat) : State :=
  let t := (s.wr P.REF_TSTATE 0 ts).wr P.REF_ACTIVE 0 a
  t.wr P.TBS_DOM_SELECTED 0 t.domainNow

/-- The larger of the fitted and the pre-learning uncertainty until 72 h are learned; the pre-learning value alone
without a fit (R153). The operands are the fitted and the pre-learning parameter. -/
def State.uncertainty (s : State) (c fitted pre : Nat) : Nat :=
  if s.rd P.REF_HO_LEARNED c < 259200 then max (s.rd fitted c) (s.rd pre) else s.rd fitted c

/-- The uncertainties of core `c` taken as those that H uses (R68, R153). -/
def State.takeModel (s : State) (c : Nat) : State :=
  s.setServo fun v => { v with
    hCore := c
    yu := s.uncertainty c P.REF_HO_YU P.REF_HO_YU0
    du := s.uncertainty c P.REF_HO_DU P.REF_HO_DU0
    cu := s.uncertainty c P.REF_HO_CU P.REF_HO_CU0 }

/-- The growth of the bound so far is kept, and goes on with the uncertainties of core `c` and with ΔT from now (R156, R166). -/
def State.modelFrom (s : State) (c : Nat) : State :=
  (s.setServo fun v => { v with hBase := v.hBase + growthUnits v.yu v.du v.cu v.dT (s.clock - v.hFrom), hFrom := s.clock, dT := 0 }).takeModel c

/-- B_frz and Δt start: the active time reference is lost at the instant (R68, R146). -/
def State.freeze (s : State) (lost : Nat) : State :=
  let a := s.rd P.REF_ACTIVE
  let b := s.frozenBref a
  (s.setServo fun v => { v with frozen := if b = noBound then none else some b, lossAt := lost, hBase := 0,
                                hFrom := lost, dT := 0 }).takeModel (s.rd P.COR_ACTIVE)

/-- The mean of the corrections a core's servo applied in the last 10 s of following, in units of 10^-15 (R153); a free value for a core
that has followed nothing for a second. -/
def State.heldOffset (s : State) (c : Nat) : Int :=
  let xs := (s.core c).applied
  if xs = [] then (Config.heldOffset s.fresh).toInt else roundDiv (xs.foldl (· + ·) 0) xs.length

/-- A core without a fitted model goes into holdover with D = 0 and C = 0 and the offset its servo had applied (R153). -/
def State.holdoverModel (s : State) : State :=
  let c := s.rd P.COR_ACTIVE
  if s.rd P.REF_HO_YU c = 0 ∧ s.rd P.REF_HO_DU c = 0 ∧ s.rd P.REF_HO_CU c = 0 then
    { (((s.wrS 64 P.REF_HO_Y0 c (s.heldOffset c)).wr P.REF_HO_D c 0).wr P.REF_HO_C c 0) with fresh := s.fresh + 1 }
  else s

/-- The module enters HOLDOVER, or HOLDOVER_LATE when its bound is already beyond the limit (R148). A core other than the one whose growth
ran so far goes on with its own model (R156). -/
def State.toHoldover (s : State) : State :=
  let t := (s.put 4 8).holdoverModel
  let t := if t.servo.hCore = t.rd P.COR_ACTIVE then t else t.modelFrom (t.rd P.COR_ACTIVE)
  let t := t.orIn P.REF_FLAGS 0 16
  match t.bMod (t.clock + 1000000) with
  | some b => if overLimit (boundCode b) (t.rd P.TBS_BOUND_LIMIT) then (t.wr P.REF_TSTATE 0 5).orIn P.REF_FLAGS 0 32 else t
  | none => t

/-- A pull towards reference `r` by φ_rem, in units of 10^-7 ps, begins (R145). The bound at its start counts among those published
(R146); `again` keeps the largest bound of a pull that is retargeted. -/
def State.pullBy (s : State) (r : Nat) (phi : Int) (again : Bool) : State :=
  let t := (s.put 3 r).setServo fun v => { v with phi := phi, phiAt := s.clock, pullMax := if again then v.pullMax else 0, wtr := none }
  match t.bMod t.clock with
  | some b => t.setServo fun v => { v with pullMax := b }
  | none => t

/-- A pull towards reference `r` begins, with φ_rem its phase (R145). -/
def State.toPulling (s : State) (r : Nat) (again : Bool) : State := s.pullBy r (s.rdS 64 P.REF_PHASE r * 10000000) again

/-- ACQUIRE starts on reference `r`, or starts again on another (R148). -/
def State.toAcquire (s : State) (r : Nat) : State :=
  (s.put 1 r).setServo fun v => { v with acqSince := s.clock }

/-- Module time moves to no reference and no frequency is taken before the first lock (R148). -/
def State.toFreerun (s : State) : State := s.put 0 8

/-- A frequency-only reference is followed with phase build-out (R148). -/
def State.toUntraceable (s : State) (r : Nat) : State := (s.put 6 r).setServo fun v => { v with wtr := none }

/-- M is aligned to module time: the active reference's anchor is set so that its deviation is 0, and every other
anchor is shifted so that its deviation does not change (R132, R133). -/
def State.alignM (s : State) : State :=
  let a := s.rd P.REF_ACTIVE
  let step := s.servo.modOsc - s.servo.mOff
  let t := s.setServo fun v => { v with mOff := v.modOsc }
  let shift (m : RefMon) : RefMon := { m with anchor := m.anchor.map fun x => x - step }
  let t := { t with refs := t.refs.map shift }
  (t.setMon a fun m => { m with anchor := some (s.rdS 64 P.REF_PHASE a) }).wr P.REF_DEV a 0

/-- The module enters LOCKED: M is aligned and a phase window starts (R132, R145). -/
def State.toLocked (s : State) : State :=
  ((s.put 2 (s.rd P.REF_ACTIVE)).alignM).setServo fun v => { v with winSince := s.clock, winGood := true, wtr := none }

/-- The module takes a selected reference while it is in a holdover state or UNTRACEABLE (R144, R148). -/
def State.takeFrom (s : State) (r : Nat) : State :=
  if s.rd P.REF_KIND r = 1 then
    (if s.rdb P.REF_TIME_SET then s.toPulling r false else s.toAcquire r)
  else s.toUntraceable r

/-- The loss of everything followed: HOLDOVER once time was set, FREERUN before (R148, R150). -/
def State.dropAll (s : State) : State := if s.rdb P.REF_TIME_SET then s.toHoldover else s.toFreerun

/-- The WTR timer kept in step with the ranking while LOCKED in AUTO (R140). -/
def State.keepWtr (s : State) : State :=
  let a := s.rd P.REF_ACTIVE
  match s.autoChoice with
  | some r =>
    if s.rd P.REF_TSTATE = 2 ∧ s.isAuto ∧ r ≠ a ∧ s.ranksAbove r a then
      s.setServo fun v => { v with wtr := match v.wtr with
        | some (x, t) => if x = r then some (x, t) else some (r, s.clock)
        | none => some (r, s.clock) }
    else s.setServo fun v => { v with wtr := none }
  | none => s.setServo fun v => { v with wtr := none }

/-- A reference left for another while it is still QUALIFIED is lost at the start of the pull (R146). -/
def State.leftAt (s : State) (a lost : Nat) : Nat := if s.qualified a then s.clock else lost

/-- The transition that the present selection calls for, if any (R138 to R148). `lost` is the instant from which a loss
of the active time reference dates. The event is written afterwards. -/
def State.followSelection (s : State) (lost : Nat) : State :=
  let a := s.rd P.REF_ACTIVE
  match s.rd P.REF_TSTATE with
  | 0 =>
    match s.selected with
    | some r => s.toAcquire r
    | none => s
  | 1 =>
    match s.selected with
    | some r => if r = a then s else s.toAcquire r
    | none => s.toFreerun
  | 2 =>
    if s.isAuto then
      if s.qualified a ∧ s.rd P.REF_KIND a = 1 ∧ s.rd P.REF_PRIO a ≠ 0 then s.keepWtr
      else
        match s.autoChoice with
        | some r => if r = a then s else (s.freeze (s.leftAt a lost)).toPulling r false
        | none => (s.freeze lost).toHoldover
    else
      match s.selected with
      | some r =>
        if s.rd P.REF_KIND r = 1 then (if r = a then s else (s.freeze (s.leftAt a lost)).toPulling r false)
        else (s.freeze lost).toUntraceable r
      | none => (s.freeze lost).toHoldover
  | 3 =>
    let s := if s.qualified a ∧ s.rd P.REF_KIND a ≠ 1 then s.freeze s.clock else s
    if s.isAuto then
      match s.autoChoice with
      | some r =>
        if r = a then s
        else if s.qualified a ∧ s.rd P.REF_KIND a = 1 ∧ s.rd P.REF_PRIO a ≠ 0 ∧ ¬ s.ranksAbove r a then s
        else (s.toPulling r true).orIn P.REF_FLAGS 0 8
      | none => if s.qualified a ∧ s.rd P.REF_KIND a = 1 ∧ s.rd P.REF_PRIO a = 0 then s else s.toHoldover
    else
      match s.selected with
      | some r =>
        if s.rd P.REF_KIND r = 1 then (if r = a then s else (s.toPulling r true).orIn P.REF_FLAGS 0 8)
        else if r = a then s.toUntraceable r
        else (s.toUntraceable r).orIn P.REF_FLAGS 0 8
      | none => s.toHoldover
  | 4 | 5 =>
    match s.selected with
    | some r => s.takeFrom r
    | none => s
  | 6 =>
    match s.selected with
    | some r => if s.rd P.REF_KIND r = 1 then s.takeFrom r else if r = a then s else s.toUntraceable r
    | none => s.dropAll
  | _ => s

/-- The switch event word (R149). -/
def switchWord (fromRef toRef ts cause : Nat) (retarget : Bool) (code : Nat) : Nat :=
  fromRef + toRef * 16 + ts * 256 + cause * 2048 + b2n retarget * 65536 + code * 2 ^ 24

/-- A switch event written into the log, with its REF_STATE notice (R149). -/
def State.switchEvent (s : State) (fromRef cause : Nat) (retarget : Bool) : State :=
  let h := s.rd P.REF_SWLOG_HEAD
  let w := switchWord fromRef (s.rd P.REF_ACTIVE) (s.rd P.REF_TSTATE) cause retarget (s.rd P.TBS_BOUND_NOW)
  let t := ((s.wr P.REF_SWLOG_TIME h s.now).wr P.REF_SWLOG_INFO h w).wr P.REF_SWLOG_HEAD 0 ((h + 1) % 64)
  t.notice 6 (toBe 4 w ++ zeros 4 ++ toBe 8 (raw 64 s.phiRem))

/-- A change within a command whose changes make one event: the first gives what the event is from and its cause (R149). -/
def State.gather (s : State) (e : SwitchEvent) (sofar : Option SwitchEvent) : State :=
  s.setServo fun v => { v with batch := some (some (match sofar with
    | some x => { x with retarget := x.retarget || e.retarget }
    | none => e)) }

/-- The changes that a command makes from here on write one switch event together (R149). -/
def State.openBatch (s : State) : State :=
  if s.servo.batch.isSome then s else s.setServo fun v => { v with batch := some none }

/-- The one switch event of a command's changes written, if there were any (R149). `before` is the state in which the changes began:
changes within others leave the event to those. -/
def State.closeBatch (s before : State) : State :=
  if before.servo.batch.isSome then s
  else
    let t := s.setServo fun v => { v with batch := none }
    match s.servo.batch with
    | some (some e) => t.switchEvent e.fromRef e.cause e.retarget
    | _ => t

/-- What every change of TSTATE or of the active reference brings with it (R148, R149): the bound recomputed, the DCO steered as the new
state says, the flag ACTIVE_LOST when the reference followed before was dropped, the WTR timer stopped outside LOCKED, the last LOCKED
instant noted, the sticky fault of FAULT, one switch event and one notice. `before` is the state the change started from. -/
def State.conclude (s before : State) (cause : Nat) : State :=
  let ts0 := before.rd P.REF_TSTATE; let a0 := before.rd P.REF_ACTIVE
  let ts := s.rd P.REF_TSTATE; let a := s.rd P.REF_ACTIVE
  if ts0 = ts ∧ a0 = a then s
  else
    let t := s.refreshBound
    let t := if ts0 = 2 ∧ ts ≠ 2 then t.setServo fun v => { v with t0 := s.clock } else t
    let t := t.steerNow
    let t := if ts0 = 0 ∨ ts0 = 4 ∨ ts0 = 5 then t.setServo fun v => { v with steerAt := s.clock } else t
    let t := if a0 ≠ 8 ∧ a0 ≠ a ∧ (ts = 0 ∨ ts = 4 ∨ ts = 5) then t.orIn P.REF_FLAGS 0 2 else t
    let t := if ts = 2 then t else t.setServo fun v => { v with wtr := none }
    let t := if ts = 7 ∧ ts0 ≠ 7 then t.sticky 22 (before.rd P.COR_ACTIVE) else t
    let again := decide (ts0 = 3 ∧ (ts = 3 ∨ ts = 6) ∧ a0 ≠ a)
    match t.servo.batch with
    | some sofar => t.gather ⟨a0, cause, again⟩ sofar
    | none => t.switchEvent a0 cause again

/-- The selection is looked at again after something it depends on has changed. -/
def State.reselect (s : State) (cause lost : Nat) : State := ((s.followSelection lost).followSelection lost).conclude s cause

/-! ## Qualification -/

/-- The frequency reading is inside accept (R131). -/
def State.freqInside (s : State) (r : Nat) : Bool :=
  decide ((s.rdS 32 P.REF_FREQ r).natAbs ≤ s.rd P.REF_FREQ_ACCEPT r * 1000)

/-- The frequency reading is beyond reject (R131). -/
def State.freqBeyond (s : State) (r : Nat) : Bool :=
  decide (s.rd P.REF_FREQ_REJECT r * 1000 < (s.rdS 32 P.REF_FREQ r).natAbs)

/-- The deviation is inside the phase accept window; a frequency-only reference has no phase test (R133, R135). -/
def State.devInside (s : State) (r : Nat) : Bool :=
  s.rd P.REF_KIND r != 1 || decide ((s.rdS 64 P.REF_DEV r).natAbs ≤ s.rd P.REF_PH_ACCEPT r)

/-- The deviation is beyond the phase reject window. -/
def State.devBeyond (s : State) (r : Nat) : Bool :=
  s.rd P.REF_KIND r == 1 && decide (s.rd P.REF_PH_REJECT r < (s.rdS 64 P.REF_DEV r).natAbs)

/-- The outcome of the entry test (R135): 0 passes, 1 jumps, 2 fails. -/
def State.entryTest (s : State) (r : Nat) : Nat :=
  if s.freqInside r then
    (if (s.rdS 64 P.REF_PHASE r).natAbs ≤ s.rd P.REF_PH_ACCEPT r ∨ s.rd P.REF_KIND r = 2 ∨ s.rd P.REF_TIME_SET = 0
     then 0 else 1)
  else 2

/-- The entry test made and acted on (R135, R136). -/
def State.tryEntry (s : State) (r : Nat) : State :=
  match s.entryTest r with
  | 0 => s.enterQ r 1
  | 1 => (s.enterQ r (if s.rdb P.REF_JUMP_POLICY then 4 else 3)).orIn P.REF_FLAGS 0 4
  | _ => s

/-- A reference is disqualified, and the selection looked at (R136). -/
def State.disqualify (s : State) (r cause : Nat) : State :=
  ((s.enterQ r 5).count P.REF_DISQ_COUNT r).reselect cause s.clock

/-- A reference becomes QUALIFIED, and the selection looked at (R136). -/
def State.qualify (s : State) (r cause : Nat) : State := (s.enterQ r 2).reselect cause s.clock

/-- A reference loses its activity: ABSENT, its anchor discarded, and the selection looked at; a loss dates from the
last accepted reading (R130, R136). -/
def State.loseRef (s : State) (r cause : Nat) : State :=
  if s.qstate r = 0 ∨ s.qstate r = 6 then s
  else (s.enterQ r 0).reselect cause (s.mon r).lastGood

/-- Configuration and kinds brought up to date after a change (R128, R129, R136): a reference without an input becomes
NOT_CONFIGURED, one that receives an input ABSENT; its B_ref is shown, and a change of kind or of rank is acted on at once (R140). -/
def State.refreshRef (s : State) (r : Nat) : State :=
  let s := s.showBref r (s.brefOf r)
  if s.refConfigured r then
    let t := if s.qstate r = 6 then s.enterQ r 0 else s
    let k := t.refKindOf r
    if t.rd P.REF_KIND r = k then (if t.rd P.REF_TSTATE = 2 then t.keepWtr else t) else (t.wr P.REF_KIND r k).reselect 13 t.clock
  else
    let t := s.wr P.REF_KIND r 0
    if t.qstate r = 6 then t else (t.enterQ r 6).reselect 5 (s.mon r).lastGood

/-- Every reference brought up to date. -/
def State.refreshRefs (s : State) : State := ((List.range 7).foldl State.refreshRef s.openBatch).closeBatch s

/-- The LINK references that name port `p` brought up to date: their B_ref, and their kind with it (R109, R129). -/
def State.linkBref (s : State) (p : Nat) : State := (s.linkRefs p).foldl State.refreshRef s

/-! ## Drift warnings (R134) -/

/-- One drift monitor: a reading at the warning threshold sets DRIFT and sends one REF_DRIFT notice; a reading inside
accept arms the warning again. -/
def State.driftCheck (s : State) (r mon : Nat) (reading : Int) (threshold : Nat) (inside armed : Bool) : State :=
  let arm (b : Bool) (t : State) : State :=
    t.setMon r fun m => if mon = 0 then { m with armF := b } else { m with armP := b }
  if threshold ≤ reading.natAbs ∧ armed then
    arm false ((s.orIn P.REF_FLAGS 0 1).notice 5
      (toBe 1 r ++ toBe 1 mon ++ zeros 2 ++ toBe 8 (raw 64 reading) ++ toBe 4 threshold))
  else if inside then arm true s else s

/-- Both drift monitors of a reference (R134). -/
def State.drift (s : State) (r : Nat) : State :=
  let f := s.rdS 32 P.REF_FREQ r
  let t := s.driftCheck r 0 f (s.rd P.REF_FREQ_REJECT r * 1000 * s.rd P.REF_DRIFT_FRAC / 100) (s.freqInside r) (s.mon r).armF
  if s.rd P.REF_KIND r = 1 then
    t.driftCheck r 1 (t.rdS 64 P.REF_DEV r) (t.rd P.REF_PH_REJECT r * t.rd P.REF_DRIFT_FRAC / 100) (t.devInside r)
      (t.mon r).armP
  else t

/-! ## Learning (R152, R159) -/

/-- One second of LOCKED data for core `c`: the window grows to at most 72 h, and the fit, when one is made, gives the
coefficients and uncertainties; how the fit is made is not stated, so its results are free values. -/
def State.learn (s : State) (c : Nat) : State :=
  let t := s.wr P.REF_HO_LEARNED c (min 259200 (s.rd P.REF_HO_LEARNED c + 1))
  let n := t.fresh
  let t := { t with fresh := n + 1 }
  if Config.fitReady n then
    ((((((t.wr P.REF_HO_Y0 c (Config.fitY0 n).toNat).wr P.REF_HO_D c (Config.fitD n).toNat).wr P.REF_HO_C c
      (Config.fitC n).toNat).wr P.REF_HO_YU c (Config.fitYu n).toNat).wr P.REF_HO_DU c (Config.fitDu n).toNat).wr
      P.REF_HO_CU c (Config.fitCu n).toNat).wr P.REF_HO_TMEAN c (Config.fitTm n).toNat
  else t

/-- The active core learns while LOCKED, and a standby core with it (R152, R159); none while master 15 is frozen (R395). -/
def State.learnAll (s : State) : State :=
  if s.rd P.REF_TSTATE = 2 ∧ ¬ s.frozenMaster 15 then
    let a := s.rd P.COR_ACTIVE
    let t := s.learn a
    if t.rd P.COR_STATE (1 - a) = 3 then t.learn (1 - a) else t
  else s

/-! ## Commands -/

/-- The readings of a second written (R131, R133). -/
def State.writeReading (s : State) (r : Nat) (freq phi osc : Int) : State :=
  let t := s.wrS 32 P.REF_FREQ r freq
  let t := t.setServo fun v => { v with modOsc := osc }
  if t.rd P.REF_KIND r = 1 then
    let t := t.wrS 64 P.REF_PHASE r phi
    match (t.mon r).anchor with
    | some a => t.wrS 64 P.REF_DEV r (phi + osc - t.servo.mOff - a)
    | none => t
  else t

/-- The qualification state machine's answer to a reading (R136). -/
def State.judge (s : State) (r : Nat) : State :=
  match s.qstate r with
  | 0 => if s.refPresent r then s.tryEntry r else s
  | 1 => if s.freqInside r && s.devInside r then s else s.enterQ r 1
  | 2 =>
    if s.freqBeyond r then s.disqualify r 3
    else if s.devBeyond r then s.disqualify r 4
    else s
  | 3 =>
    if ¬ s.freqInside r then s.disqualify r 3
    else if ¬ s.devInside r then s.disqualify r 4
    else s
  | 4 => if s.freqBeyond r then s.disqualify r 3 else s
  | _ => s

/-- The deviation of an edge from the reference's anchor in ps; 0 without an anchor (R130, R133). -/
def State.edgeDev (s : State) (r : Nat) (phi osc : Int) : Int :=
  match (s.mon r).anchor with
  | some a => phi + osc - s.servo.mOff - a
  | none => 0

/-- Whether an edge or a reading of reference `r` counts for its activity (R130): on a PPS input only within the phase reject window. -/
def State.counts (s : State) (r : Nat) (phi osc : Int) : Bool :=
  !((r == 1 || r == 2) && s.rd P.REF_EXT_MODE (r - 1) != 2) || decide ((s.edgeDev r phi osc).natAbs ≤ s.rd P.REF_PH_REJECT r)

/-- The loop takes a second's reading of the reference it follows: the phase where TSTATE is LOCKED or ACQUIRE on a time reference, held on
a link in REMEASURE, else the frequency alone (R113, R141, R145, R148). -/
def State.steered (s : State) (r : Nat) (phi : Int) : State :=
  let ts := s.rd P.REF_TSTATE
  if s.rd P.REF_ACTIVE = r ∧ (ts = 1 ∨ ts = 2 ∨ ts = 3 ∨ ts = 6) then
    let held := decide (3 ≤ r) && s.rd P.LNK_STATE (s.rd P.REF_LINK_PORT (r - 3)) == 4
    let phase := if ts ≠ 2 ∨ s.rd P.REF_KIND r ≠ 1 then 0 else if held then s.servo.phaseIn else phi
    (s.follow r phase (s.rdS 32 P.REF_FREQ r)).noteApplied
  else s

/-- MONITOR_READING (R133): the per-second readings of a reference update its deviation, its warnings and its
qualification. `phi` is reference minus module time, `osc` module time minus the monitor oscillator, both in ps. -/
def State.monitorReading (s : State) (r : Nat) (freq phi osc : Int) : State :=
  if s.qstate r = 6 ∨ ¬ s.sharedUp then s
  else
    let t := if r = 1 ∨ r = 2 then s.setMon r fun m => { m with mhz := m.mhz || s.rd P.REF_EXT_MODE (r - 1) != 1 } else s
    let t := (t.writeReading r freq phi osc).drift r
    let t := if s.counts r phi osc then t.setMon r fun m => { m with lastGood := s.clock, lastDev := s.edgeDev r phi osc } else t
    let t := if t.rd P.REF_ACTIVE = r then
        (t.setServo fun v => { v with winGood := v.winGood && t.devInside r }).learnAll else t
    (t.steered r phi).judge r

def execMonitorReading (r : Fin 7) (freq phi osc : Int) (s : State) : Host.Outcome State Fault Refusal :=
  .next (s.monitorReading r.val freq phi osc)

/-- REF_PPS_EDGE (R130): an edge counts when the reference has no anchor or its deviation lies within the phase reject
window; in ABSENT it makes activity present. -/
def execRefPpsEdge (r : Fin 2) (phi osc : Int) (s : State) : Host.Outcome State Fault Refusal :=
  let r := r.val + 1
  if s.qstate r = 6 ∨ s.rd P.REF_EXT_MODE (r - 1) = 2 ∨ ¬ s.sharedUp then .next s
  else
    if s.counts r phi osc then
      let t := s.setMon r fun m => { m with pps := true, lastGood := s.clock, lastDev := s.edgeDev r phi osc }
      if t.qstate r = 0 ∧ t.refPresent r then
        .next (((t.setServo fun v => { v with modOsc := osc }).wrS 64 P.REF_PHASE r phi).tryEntry r)
      else .next t
    else .next s

/-- REF_FREQ_ABSENT (R130): no edge of the 10 MHz input for 1 µs. -/
def execRefFreqAbsent (r : Fin 2) (s : State) : Host.Outcome State Fault Refusal :=
  let r := r.val + 1
  let t := s.setMon r fun m => { m with mhz := false }
  if s.rd P.REF_EXT_MODE (r - 1) = 1 then .next t else .next (t.loseRef r 5)

/-- When the expected edges, pulses or seconds of a reference that it may miss have passed (R130): an edge of a PPS input is expected at
the whole seconds after the instant at which the deviation of the last one would have been 0. -/
def State.missDue (s : State) (r : Nat) : Nat :=
  let m := s.mon r
  if r = 1 ∨ r = 2 then
    (((m.lastGood + s.rd P.REF_ACT_MISS * 1000000000 : Nat) : Int) + -((-m.lastDev - s.rd P.REF_PH_REJECT r) / 1000)).toNat
  else m.lastGood + s.rd P.REF_ACT_MISS * 1000000000

/-- ACTIVITY_LOST (R130): a GNSS or PPS input whose expected pulses were missed becomes ABSENT; a LINK whose port has
left TRACKING and REMEASURE likewise. -/
def execActivityLost (r : Fin 7) (s : State) : Host.Outcome State Fault Refusal :=
  let r := r.val
  let due : Bool :=
    if 3 ≤ r then !s.refPresent r
    else if r ≠ 0 ∧ s.rd P.REF_EXT_MODE (r - 1) = 2 then !(s.mon r).mhz
    else decide (s.missDue r ≤ s.clock)
  if due then .next ((s.setMon r fun m => { m with pps := false }).loseRef r 5) else .next s

/-- HOLDOFF_EXPIRY (R136): the hold-off of a QUALIFYING reference has passed. -/
def execHoldoffExpiry (r : Fin 7) (s : State) : Host.Outcome State Fault Refusal :=
  let r := r.val
  if s.qstate r = 1 ∧ (s.mon r).since + s.rd P.REF_HOLDOFF r * 100000000 ≤ s.clock then .next (s.qualify r 6)
  else .next s

/-- CONFIRM_EXPIRY (R136): the confirmation time of a PHASE_SUSPECT or DISQUALIFIED reference ends. A test that fails
from DISQUALIFIED is made again a second later. -/
def execConfirmExpiry (r : Fin 7) (s : State) : Host.Outcome State Fault Refusal :=
  let r := r.val
  let conf := s.rd P.REF_CONFIRM_TIME * 1000000000
  let since := (s.mon r).since
  if s.qstate r = 3 ∧ since + max conf (s.rd P.REF_HOLDOFF r * 100000000) ≤ s.clock then .next (s.qualify r 6)
  else if s.qstate r = 5 ∧ since + conf ≤ s.clock then
    let t := s.tryEntry r
    if t.qstate r = 5 then .next (t.setMon r fun m => { m with since := s.clock + 1000000000 - conf }) else .next t
  else .next s

/-- WTR_EXPIRY (R140): the better reference has stayed QUALIFIED and above the active one for REF_WTR. -/
def execWtrExpiry (s : State) : Host.Outcome State Fault Refusal :=
  match s.servo.wtr with
  | some (r, since) =>
    if s.rd P.REF_TSTATE = 2 ∧ s.isAuto ∧ since + s.rd P.REF_WTR * 1000000000 ≤ s.clock then
      if s.autoChoice = some r ∧ s.ranksAbove r (s.rd P.REF_ACTIVE) then .next (((s.freeze s.clock).toPulling r false).conclude s 2)
      else .next s.keepWtr
    else .next s
  | none => .next s

/-- PULL_END (R145): φ_rem has fallen to REF_PULL_DONE, so TSTATE becomes LOCKED. -/
def execPullEnd (s : State) : Host.Outcome State Fault Refusal :=
  if s.rd P.REF_TSTATE = 3 ∧ s.phiUnits.natAbs ≤ s.rd P.REF_PULL_DONE * 10000000 then
    .next ((s.toLocked).conclude s 12)
  else .next s

/-- PH_WINDOW_END (R132): a window spent LOCKED ends; M is aligned when the deviation stayed inside accept. -/
def execPhWindowEnd (s : State) : Host.Outcome State Fault Refusal :=
  if s.rd P.REF_TSTATE = 2 ∧ s.servo.winSince + s.rd P.REF_PH_WINDOW * 1000000000 ≤ s.clock then
    let t := if s.servo.winGood then s.alignM else s
    .next (t.setServo fun v => { v with winSince := s.clock, winGood := true })
  else .next s

/-- REFSEL_CHANGE (R138): a pin value that has been stable for REF_PIN_DEBOUNCE is acted on. -/
def execRefselChange (pins : Fin 8) (s : State) : Host.Outcome State Fault Refusal :=
  let t := s.wr P.REF_PINS 0 pins.val
  .next (t.reselect 0 (s.mon (s.rd P.REF_ACTIVE)).lastGood)

/-- REF_ACCEPT (R137). -/
def refAccept (o : Origin) (p : List Byte) (s : State) : State :=
  let r := beAt 0 1 p
  if 7 < r then s.finish o Status.BAD_VALUE []
  else if r < 7 ∧ s.qstate r = 4 then (s.qualify r 7).finish o Status.OK []
  else s.finish o Status.NOT_FOUND []

/-- BOUND_UPDATE (R69): every 1 ms B_mod is recomputed with the oven's present deviation from its learning mean, the DCO of a module in
holdover is steered against y(t) (R153), and a HOLDOVER whose decoded bound is beyond TBS_BOUND_LIMIT becomes HOLDOVER_LATE (R148). -/
def execBoundUpdate (ovenDev : Int) (s : State) : Host.Outcome State Fault Refusal :=
  let t := (s.setServo fun v => { v with dT := max v.dT ovenDev.natAbs, ovenDev := ovenDev }).refreshBound.steerNow
  if t.rd P.REF_TSTATE = 4 ∧ overLimit (t.rd P.TBS_BOUND_NOW) (t.rd P.TBS_BOUND_LIMIT) then
    .next ((((t.wr P.REF_TSTATE 0 5).orIn P.REF_FLAGS 0 32).followSelection t.clock).conclude t 11)
  else .next t

end Sys2Proof.Machine
end

