-- ==== Sys2Proof/Machine/Links.lean ====
section
/-! DEFINITION. Locked links and time transfer (R90 to R126): the DDMTD, the link state machine, the time-link exchange,
slips, and the IEEE 1588 service. -/

namespace Sys2Proof.Machine

/-! ## Link records -/

/-- A flag of LNK_FLAGS[p] as given. -/
def State.linkFlag (s : State) (p i : Nat) (b : Bool) : State := s.wr P.LNK_FLAGS p (putBit i b (s.rd P.LNK_FLAGS p))

/-! ## Stamps in messages -/

/-- A stamp in units of 2^-16 ns. -/
def Stamp.units (x : Stamp) : Int := (x.ns * 65536 + x.sub : Nat)

/-- The 12-byte stamp field of R101. -/
def Stamp.field (x : Stamp) : List Byte := toBe 6 (x.ns / 1000000000) ++ toBe 4 (x.ns % 1000000000) ++ toBe 2 x.sub

/-- The 12-byte stamp field at byte `i`, in units of 2^-16 ns. -/
def stampAt (i : Nat) (b : List Byte) : Int :=
  ((beAt i 6 b * 1000000000 + beAt (i + 6) 4 b) * 65536 + beAt (i + 10) 2 b : Nat)

/-- Units of 2^-16 ns in ps, to the nearest. -/
def unitsPs (x : Int) : Int := roundDiv (x * 1000) 65536

/-! ## Bounds (R109, R110) -/

/-- TBS_DOM_OFFSET and TBS_DOM_BOUND of the domains carried by port `p` (R87, R110). -/
def State.linkDomains (s : State) (p : Nat) : State :=
  [0, 1].foldl (fun t d =>
    let r := t.rd P.TBS_DOM_LINK d
    if 3 ≤ r ∧ t.rd P.REF_LINK_PORT (r - 3) = p then
      (t.wrS 64 P.TBS_DOM_OFFSET d (-(t.rdS 64 P.LNK_OFFSET p))).wr P.TBS_DOM_BOUND d
        (if t.linkBound p = noBound then 255 else boundCode (t.linkBound p))
    else t) s

/-- B_evt of port `p` set, and the bounds that include it with it (R113). -/
def State.setBevt (s : State) (p v : Nat) : State := (s.wr P.LNK_BEVT p v).linkBref p

/-! ## The link state machine (R112) -/

/-- Whether the port is locked with a role. -/
def State.timeRole (s : State) (p : Nat) : Bool := s.lockedPort p && s.rd P.LNK_ROLE p != 0

/-- The lane of a port is framed: the marker divider starts at its first word edge (R96), and a locked port with a role leaves DOWN. -/
def State.linkFramed (s : State) (p : Nat) : State :=
  let t := s.setLink p fun l => { l with divider := true }
  if t.timeRole p ∧ t.rd P.LNK_STATE p = 0 then t.wr P.LNK_STATE p 1 else t

/-- A link calibration ends ABORTED when its port leaves TRACKING (R118). -/
def State.abortLinkRun (s : State) (p : Nat) : State :=
  match s.linkRun, s.cal.run with
  | some r, some c =>
    if r.port = p then ({ s with linkRun := none, cal := { s.cal with run := none } }).finish c.origin Status.ABORTED [] else s
  | _, _ => s

/-- The link goes DOWN (R112, R116): nothing measured remains, and the references that name the port are lost. -/
def State.linkDown (s : State) (p : Nat) : State :=
  let t := (s.wr P.LNK_STATE p 0).abortLinkRun p
  let t := t.setLink p fun l => { l with
    valid := false, goodSince := none, partner := false, exchanges := [], sent := [], lastRt := none, history := [], discards := 0,
    slipUntil := none, divider := false, avgAt := none, widened := false }
  let t := t.wr P.LNK_BEVT p (t.link p).suspect
  (t.linkRefs p).foldl (fun u r => u.loseRef r 5) t

/-- SYNTONIZING ends once the DDMTD is valid and the partner shows the opposite role. -/
def State.linkAdvance (s : State) (p : Nat) : State :=
  if s.rd P.LNK_STATE p = 1 ∧ (s.link p).valid ∧ (s.link p).partner ∧ ¬ (s.rd P.LNK_FLAGS p).testBit 0 then
    (s.wr P.LNK_STATE p 2).setLink p fun l => { l with history := [] }
  else s

/-- TRACKING is left for REMEASURE (R112 to R114); the B_evt of a suspected slip remains. -/
def State.remeasure (s : State) (p : Nat) : State :=
  let t := ((s.wr P.LNK_STATE p 4).abortLinkRun p).setLink p fun l => { l with
    history := [], discards := 0, preSlip := match l.lastRt with | some x => x.1 | none => 0 }
  t.setBevt p (max (t.rd P.LNK_SLIP_WIDEN) (t.link p).suspect)

/-- A port in TRACKING or REMEASURE that hears a hop count of 8 or more takes no time any more: it measures again, and its LINK reference
is inactive (R111, R112). DEDUCED: assumption 45. -/
def State.hopLimited (s : State) (p : Nat) : State :=
  if s.rd P.LNK_STATE p = 3 ∨ s.rd P.LNK_STATE p = 4 then
    let t := ((s.wr P.LNK_STATE p 2).abortLinkRun p).setLink p fun l => { l with history := [], discards := 0 }
    let t := t.wr P.LNK_BEVT p (t.link p).suspect
    (t.linkRefs p).foldl (fun u r => u.loseRef r 5) t
  else s

/-- A change of S or G on a receive lane of port `p` (R113, R115). -/
def State.linkSlip (s : State) (p : Nat) : State :=
  if s.lockedPort p then
    if s.rd P.LNK_ROLE p = 0 then
      (s.setBevt p (s.rd P.LNK_SLIP_WIDEN)).setLink p fun l => { l with
        slipUntil := some (s.clock + s.rd P.LNK_SLIP_HOLD * 1000000) }
    else if s.rd P.LNK_STATE p = 3 then s.remeasure p
    else if s.rd P.LNK_STATE p = 4 then s.setLink p fun l => { l with history := [] }
    else s
  else s

/-- Insertion into a rising list. -/
def insertInt (x : Int) : List Int → List Int
  | [] => [x]
  | y :: r => if x ≤ y then x :: y :: r else y :: insertInt x r

/-- The median: the middle value, or the mean of the two middle values rounded down. -/
def median (xs : List Int) : Int :=
  let r := xs.foldl (fun a x => insertInt x a) []
  let n := r.length
  if n % 2 = 1 then r.getD (n / 2) 0 else (r.getD (n / 2 - 1) 0 + r.getD (n / 2) 0) / 2

/-- Whether the last LNK_MEAS_N accepted round trips agree: each within LNK_RT_JUMP of their median (R112). -/
def State.consistent (s : State) (h : List Int) : Bool :=
  let n := s.rd P.LNK_MEAS_N
  decide (n ≤ h.length) && (h.take n).all fun x => decide ((x - median (h.take n)).natAbs ≤ s.rd P.LNK_RT_JUMP)

/-- An exchange is discarded (R108). -/
def State.discardExchange (s : State) (p : Nat) : State :=
  let t := (s.count P.LNK_DISCARDS p).setLink p fun l => { l with discards := l.discards + 1 }
  if t.rd P.LNK_STATE p = 3 ∧ t.rd P.LNK_DISCARD_MAX ≤ (t.link p).discards then t.remeasure p else t

/-- The end of MEASURING or REMEASURE once enough exchanges agree (R112, R114). -/
def State.measured (s : State) (p : Nat) : State :=
  let l := s.link p
  if ¬ s.consistent l.history ∨ 8 ≤ l.hops then s
  else if s.rd P.LNK_STATE p = 2 then s.wr P.LNK_STATE p 3
  else if s.rd P.LNK_STATE p = 4 then
    let d := (median (l.history.take (s.rd P.LNK_MEAS_N)) - l.preSlip).natAbs
    let t := s.wr P.LNK_STATE p 3
    if d ≤ s.rd P.LNK_RT_JUMP then t.setBevt p l.suspect
    else
      let b := max l.suspect (clampU 16 (max (s.rd P.LNK_SLIP_WIDEN) (ceilDiv d 2)))
      ((t.linkFlag p 3 true).setLink p fun l => { l with suspect := b }).setBevt p b
  else s

/-- A difference of averaged phases in ps, to the nearest. -/
def phasePs (x : Int) : Int := roundDiv (x * 2000) (2 ^ 24)

/-- A round trip tested by R108 at either end, with the averaged phase at this end's receive stamp: accepted, it joins the history and may
end a measuring state; refused, the exchange is discarded. -/
def State.roundTrip (s : State) (p : Nat) (rt phi : Int) (onAccept : State → State) : State :=
  let l := s.link p
  let inRange := decide (0 ≤ rt ∧ rt ≤ 250000000)
  let steady := match l.lastRt with
    | some (r0, f0) => s.rd P.LNK_STATE p != 3 || decide (((rt - r0) - phasePs (phi - f0)).natAbs ≤ s.rd P.LNK_RT_JUMP)
    | none => true
  if inRange && steady then
    let t := (s.wr P.LNK_RT p rt.toNat).setLink p fun l => { l with
      lastRt := some (rt, phi), discards := 0, history := (rt :: l.history).take 256 }
    (onAccept t).measured p
  else s.discardExchange p

/-- The partner's LINK_WIDEN as its last message carries it (R103, R104): where it rises on a port in TRACKING the partner has had a slip,
and the port measures again (R112). DEDUCED: assumption 45. -/
def State.partnerWiden (s : State) (p : Nat) (w : Bool) : State :=
  let rose := w && !(s.link p).widened
  let t := s.setLink p fun l => { l with widened := w }
  if rose && t.rd P.LNK_STATE p == 3 then t.remeasure p else t

/-! ## DDMTD -/

/-- A beat period of the DDMTD in ns (R97). -/
def beatNs : Nat := 32770

/-- A reading n of a beat unwrapped next to a phase, both in units of 2,000 / 16,384 ps (R97). -/
def unwrapBeat (near : Int) (n : Nat) : Int := near + (((n : Int) - near + 8192) % 16384 - 8192)

/-- The beats of an average unwrapped one after another, summed (R97). -/
def beatSum : Int → Int → List (Fin 16384) → Int
  | _, sum, [] => sum
  | near, sum, n :: rest => beatSum (unwrapBeat near n.val) (sum + unwrapBeat near n.val) rest

/-- The average of 2^LNK_DDMTD_AVG beats in units of 2,000 / 2^24 ps, unwrapped next to the average before (R97). -/
def beatAverage (before : Int) (beats : List (Fin 16384)) : Int :=
  roundDiv (beatSum (roundDiv before 1024) 0 beats * 1024) beats.length

/-- The beat edges among the first samples of runs of equal samples, with the length of each run: those whose run has at least
LNK_DDMTD_GLITCH samples (R97). -/
def beatEdges (glitch : Nat) (firsts : List (Fin 16384)) (runs : List Nat) : List (Fin 16384) :=
  ((firsts.zip runs).filter fun x => decide (glitch ≤ x.2)).map Prod.fst

/-- Whether a switch-over gap lies in the last `span` ns (R165). -/
def State.gapWithin (s : State) (span : Nat) : Bool :=
  s.inGap || match s.time.gapEnd with
    | some t => decide (s.clock < t + span)
    | none => false

/-- θ(t) of port `p` by the phase now (R107); the servo takes it where the port carries the active reference in LOCKED. -/
def State.showTheta (s : State) (p : Nat) : State :=
  let l := s.link p
  match l.lastRt with
  | some x =>
    if s.rd P.LNK_ROLE p = 1 then
      let theta := l.theta + phasePs (l.phase - x.2)
      let t := s.wrS 64 P.LNK_OFFSET p theta
      let a := t.rd P.REF_ACTIVE
      if (t.linkRefs p).contains a && t.rd P.REF_TSTATE == 2 && t.rd P.LNK_STATE p == 3 then t.follow a (-theta) (t.rdS 32 P.REF_FREQ a)
      else t
    else s
  | none => s

/-- DDMTD_AVERAGE (R97, R98, R107): an average of 2^LNK_DDMTD_AVG beats completes. `firsts` holds the count n of helper cycles
at the first sample of each run of equal samples seen, and `runs` the length of the run: only the runs of LNK_DDMTD_GLITCH samples or more
are beat edges. It moves well where the averaged phase has moved by no more than LNK_DDMTD_SLEW since the average before, and the CDR reports lock. An
average that contains a switch-over gap is discarded (R165). -/
def execDdmtdAverage (port : Fin 512) (firsts : List (Fin 16384)) (runs : List Nat) (s : State) : Host.Outcome State Fault Refusal :=
  let p := port.val
  let beats := beatEdges (s.rd P.LNK_DDMTD_GLITCH) firsts runs
  let span := beatNs * 2 ^ s.rd P.LNK_DDMTD_AVG
  if ¬ s.lockedPort p ∨ ¬ (s.link p).divider ∨ beats.length ≠ 2 ^ s.rd P.LNK_DDMTD_AVG ∨ s.gapWithin span then .next s
  else
    let old := s.link p
    let avg := beatAverage old.phase beats
    let slow : Bool := match old.avgAt with
      | some t => decide ((avg - old.phase).natAbs * 2000 * 10 ^ 9 ≤ s.rd P.LNK_DDMTD_SLEW * max span (s.clock - t) * 2 ^ 24)
      | none => false
    let good := slow && decide (2 < s.rd P.LAN_STATE p)
    let t := (s.wr P.LNK_PHASE p (roundDiv avg 1024 % 16384).toNat).setLink p fun l => { l with
      phase := avg, avgAt := some s.clock, valid := l.valid && good,
      goodSince := if good then (match l.goodSince with | some x => some x | none => some s.clock) else none }
    .next ((t.linkBref p).showTheta p)

/-- DDMTD_SETTLE (R98): both conditions have held for LNK_DDMTD_SETTLE. -/
def execDdmtdSettle (port : Fin 512) (s : State) : Host.Outcome State Fault Refusal :=
  let p := port.val
  match (s.link p).goodSince with
  | some t0 =>
    if s.lockedPort p ∧ t0 + s.rd P.LNK_DDMTD_SETTLE * 1000000 ≤ s.clock then
      .next (((s.setLink p fun l => { l with valid := true }).linkBref p).linkAdvance p)
    else .next s
  | none => .next s

/-- SLIP_HOLD_EXPIRY (R115). -/
def execSlipHoldExpiry (port : Fin 512) (s : State) : Host.Outcome State Fault Refusal :=
  let p := port.val
  match (s.link p).slipUntil with
  | some t0 =>
    if t0 ≤ s.clock then .next ((s.setBevt p (s.link p).suspect).setLink p fun l => { l with slipUntil := none }) else .next s
  | none => .next s

/-! ## The exchange (R101 to R111) -/

/-- The hop count this module sends (R102, R111). -/
def State.hopCount (s : State) : Nat :=
  let a := s.rd P.REF_ACTIVE
  if 3 ≤ a ∧ a ≤ 6 then (s.link (s.rd P.REF_LINK_PORT (a - 3))).hops + 1 else 0

/-- The identity at the top of the chain (R102). -/
def State.topIdentity (s : State) : Nat :=
  let a := s.rd P.REF_ACTIVE
  if 3 ≤ a ∧ a ≤ 6 then (s.link (s.rd P.REF_LINK_PORT (a - 3))).top else s.rd P.HIE_IDENTITY

/-- The body of a TSYNC (R102). -/
def State.tsyncBody (s : State) (seq : Nat) (t1 : Stamp) : List Byte :=
  toBe 2 seq ++ toBe 1 (s.rd P.TBS_UTC_VALID + 2 * s.rd P.TBS_LEAP) ++
    toBe 1 (s.rd P.REF_TSTATE + 8 * s.rd P.REF_ACTIVE) ++ t1.field ++ toBe 4 (s.rd P.TBS_BOUND_PS) ++
    toBe 1 (s.rd P.TBS_BOUND_NOW) ++ toBe 1 s.hopCount ++ toBe 2 (s.rd P.TBS_UTC_OFFSET) ++ toBe 8 s.topIdentity

/-- Whether a message of traffic class 7 can leave port `p` now (R101): class 7 is not paused by the partner, its gate is open, and the
port sends no other frame. -/
def State.class7Free (s : State) (p : Nat) : Bool :=
  decide (look (p, 7) 0 s.fabric.paused ≤ s.clock) && (look p 255 s.lock.gates).testBit 7 && !(s.quay.sending.any fun x => x.port == p)

/-- Whether timing messages run on port `p` (R101, R112). -/
def State.timingRuns (s : State) (p : Nat) : Bool :=
  s.nhpRuns p && s.timeRole p && s.rd P.LNK_STATE p != 0 && decide (2 ≤ s.rd P.HIE_PORT_VERSION p)

/-- TSYNC_SEND (R105). -/
def execTsyncSend (port : Fin 512) (raw1 : RawStamp) (s : State) : Host.Outcome State Fault Refusal :=
  let p := port.val
  if s.timingRuns p ∧ s.rd P.LNK_ROLE p = 2 ∧ s.class7Free p then
    let x := s.txMark p raw1
    let seq := (s.link p).seq
    let t := s.nhpSend p 0x10 (s.tsyncBody seq x)
    .next (t.setLink p fun l => { l with
      seq := (seq + 1) % 65536, sent := (l.sent.filter fun y => y.1 != seq) ++ [(seq, x.units)] })
  else .next s

/-- A message of the wrong or of the opposite role seen (R100, R112). ROLE_CONFLICT ends with the next message of the opposite role, and
stays over a link-down: DESIGN CHOICE, assumption 45. -/
def State.roleSeen (s : State) (p : Nat) (opposite : Bool) : State :=
  if opposite then ((s.linkFlag p 0 false).setLink p fun l => { l with partner := true }).linkAdvance p
  else if s.rd P.LNK_STATE p = 1 then s.linkFlag p 0 true else s

/-- The UTC offset and leap announcement of the upstream module taken while the source is upstream NHP and the port is
that of the active reference (R58). -/
def State.upstreamUtc (s : State) (p : Nat) (body : List Byte) : State :=
  let a := s.rd P.REF_ACTIVE
  if s.rd P.TBS_UTC_SOURCE = 2 ∧ 3 ≤ a ∧ a ≤ 6 ∧ s.rd P.REF_LINK_PORT (a - 3) = p ∧ (beAt 2 1 body).testBit 0 then
    ((s.wrBoth P.TBS_UTC_OFFSET 0 (beAt 22 2 body)).wr P.TBS_UTC_VALID 0 1).announceLeap (field 2 1 (beAt 2 1 body))
  else s

/-- TSYNC (R102, R105, R111): the TIME_IN port keeps t1 and t2 and answers with a TDREQ. HOP_LIMIT ends with the next TSYNC whose hop count
is below 8: DESIGN CHOICE, assumption 45. -/
def execTsync (port : Fin 512) (body : List Byte) (raw2 raw3 : RawStamp) (s : State) :
    Host.Outcome State Fault Refusal :=
  let p := port.val
  let s := s.stamped p
  if body.length ≠ 32 then .next (s.count P.HIE_RX_DISCARD)
  else if ¬ s.timingRuns p then .next s
  else if s.rd P.LNK_ROLE p ≠ 1 then .next (s.roleSeen p false)
  else
    let x2 := s.rxMark p raw2
    let t := (s.roleSeen p true).upstreamUtc p body
    let t := if 8 ≤ beAt 21 1 body then (t.linkFlag p 4 true).hopLimited p else t.linkFlag p 4 false
    let x3 := t.txMark p raw3
    let x : Exchange := ⟨beAt 0 2 body, stampAt 4 body, x2.units, x3.units, s.clock, beAt 16 4 body, beAt 21 1 body, beAt 24 8 body,
      (s.link p).phase⟩
    let t := t.setLink p fun l => { l with
      hops := beAt 21 1 body, exchanges := (l.exchanges.filter fun y => y.seq != x.seq) ++ [x] }
    .next (t.nhpSend p 0x11 (toBe 2 (beAt 0 2 body) ++ toBe 1 (b2n (t.bEvt p != 0)) ++ [0] ++ x2.field ++ x3.field))

/-- The round trip that measures the fibre compensation of a TIME_OUT port, taken at each exchange accepted in TRACKING (R320). -/
def State.measureFibre (s : State) (p : Nat) : State :=
  if s.rd P.LNK_STATE p = 3 ∧ (s.link p).discards = 0 then
    { s with lock := { s.lock with measured := (s.lock.measured.filter fun x => x.1 != p) ++ [(p, s.rd P.LNK_RT p)] } }
  else s

/-- TDREQ (R103 to R105): the TIME_OUT port computes its round trip and answers with a TDRESP. -/
def execTdreq (port : Fin 512) (body : List Byte) (raw4 : RawStamp) (s : State) : Host.Outcome State Fault Refusal :=
  let p := port.val
  let s := s.stamped p
  if body.length ≠ 28 then .next (s.count P.HIE_RX_DISCARD)
  else if ¬ s.timingRuns p then .next s
  else if s.rd P.LNK_ROLE p ≠ 2 then .next (s.roleSeen p false)
  else
    let x4 := s.rxMark p raw4
    let t := (s.roleSeen p true).partnerWiden p ((beAt 2 1 body).testBit 0)
    let t := t.nhpSend p 0x12 (toBe 2 (beAt 0 2 body) ++ toBe 1 (b2n (t.bEvt p != 0)) ++ [0] ++ x4.field ++
      toBe 4 (t.bPort p + t.bEvt p))
    match (t.link p).sent.find? fun y => y.1 == beAt 0 2 body with
    | some (seq, t1) =>
      let u := t.setLink p fun l => { l with sent := l.sent.filter fun y => y.1 != seq }
      .next ((u.roundTrip p (unitsPs ((x4.units - t1) - (stampAt 16 body - stampAt 4 body))) (u.link p).phase id).measureFibre p)
    | none => .next (t.discardExchange p)

/-- What an accepted exchange writes at the TIME_IN end: θ and the bounds (R106, R107, R109, R110). The half of δ_rt + A is rounded down:
DEDUCED, assumption 45. -/
def State.acceptExchange (s : State) (p : Nat) (x : Exchange) (rt : Int) (sender : Nat) : State :=
  let ud := (rt + s.rdS 32 P.LNK_ASYM p) / 2
  let theta := unitsPs (x.t2 - x.t1) - ud
  let t := s.wrS 64 P.LNK_OFFSET p theta
  let t := t.setLink p fun l => { l with
    theta := theta, upBound := x.upBound, hops := x.hops, top := x.top, sender := sender }
  ((t.linkBref p).linkDomains p).showTheta p

/-- The exchange with a sequence number is no longer under way. -/
def State.dropExchange (s : State) (p seq : Nat) : State :=
  s.setLink p fun l => { l with exchanges := l.exchanges.filter fun y => y.seq != seq }

/-- TDRESP (R105, R106, R108): the exchange is completed and accepted or discarded; one that is overdue is discarded. A TDRESP whose
sequence number no exchange has takes the oldest one with it, and with none under way it changes nothing: DEDUCED, assumption 45. -/
def execTdresp (port : Fin 512) (body : List Byte) (s : State) : Host.Outcome State Fault Refusal :=
  let p := port.val
  let s := s.stamped p
  if body.length ≠ 20 then .next (s.count P.HIE_RX_DISCARD)
  else if ¬ s.timingRuns p ∨ s.rd P.LNK_ROLE p ≠ 1 then .next s
  else
    let s := s.partnerWiden p ((beAt 2 1 body).testBit 0)
    match (s.link p).exchanges.find? fun x => x.seq == beAt 0 2 body with
    | some x =>
      let t := s.dropExchange p x.seq
      if x.sentAt + s.rd P.LNK_RESP_TIMEOUT * 1000000 < s.clock then .next (t.discardExchange p)
      else
        let rt := unitsPs ((stampAt 4 body - x.t1) - (x.t3 - x.t2))
        .next (t.roundTrip p rt x.phi fun t => t.acceptExchange p x rt (beAt 16 4 body))
    | none =>
      match (s.link p).exchanges with
      | x :: _ => .next ((s.dropExchange p x.seq).discardExchange p)
      | [] => .next s

/-- RESP_TIMEOUT (R105). -/
def execRespTimeout (port : Fin 512) (s : State) : Host.Outcome State Fault Refusal :=
  let p := port.val
  match (s.link p).exchanges.find? fun x => decide (x.sentAt + s.rd P.LNK_RESP_TIMEOUT * 1000000 ≤ s.clock) with
  | some x => .next ((s.dropExchange p x.seq).discardExchange p)
  | none => .next s

/-! ## Link calibration messages (R118, R119) -/

/-- The body of a TCAL (R119). -/
def State.tcalBody (s : State) (seq kind count index : Nat) (stamp : List Byte) : List Byte :=
  toBe 2 seq ++ toBe 1 kind ++ toBe 1 (s.rd P.LNK_ACAL_INPUT) ++ toBe 2 count ++ toBe 2 index ++ stamp ++
    toBe 4 (s.rd P.LNK_ACAL_PATH) ++ toBe 2 (s.rd P.LNK_ACAL_PATH_U) ++ zeros 2

/-- TCAL (R119): a request starts the stamping of pulses for the partner, a report joins this module's run, an end stops
the stamping. -/
def execTcal (port : Fin 512) (body : List Byte) (s : State) : Host.Outcome State Fault Refusal :=
  let p := port.val
  let s := s.stamped p
  if body.length ≠ 28 then .next (s.count P.HIE_RX_DISCARD)
  else if ¬ s.timingRuns p then .next s
  else
    match beAt 2 1 body with
    | 0 =>
      if s.rd P.LNK_ROLE p = 2 then
        .next { s with tcal := dropBy TcalServe.port p s.tcal ++ [⟨p, beAt 0 2 body, beAt 4 2 body, 0⟩] }
      else .next s
    | 1 =>
      match s.linkRun with
      | some r =>
        if r.port = p ∧ r.seq = beAt 0 2 body then
          .next { s with linkRun := some { r with theirs := r.theirs ++ [stampAt 8 body], path := sgn 32 (beAt 20 4 body),
                                                  pathU := beAt 24 2 body } }
        else .next s
      | none => .next s
    | 2 => .next { s with tcal := dropBy TcalServe.port p s.tcal }
    | _ => .next s

/-- A pulse stamped at an input serves the link calibrations that use this input (R118, R119): 0 is CAL IN, 1 to 8 EVT
IN 0 to 7. -/
def State.calPulse (s : State) (input : Nat) (x : Stamp) : State :=
  if s.rd P.LNK_ACAL_INPUT ≠ input ∨ x.flags.testBit 1 then s
  else
    let t := s.tcal.foldl (fun t c =>
      if c.sent < c.count then t.nhpSend c.port 0x13 (t.tcalBody c.seq 1 c.count c.sent x.field) else t) s
    let sent (c : TcalServe) : TcalServe := { c with sent := min c.count (c.sent + 1) }
    let t := { t with tcal := t.tcal.map sent }
    match t.linkRun with
    | some r => if r.own.length < r.count then { t with linkRun := some { r with own := r.own ++ [x.units] } } else t
    | none => t

/-! ## IEEE 1588 service (R122 to R125) -/

/-- clockClass (R125). -/
def State.clockClass (s : State) : Nat :=
  let beyond := overLimit (s.rd P.TBS_BOUND_NOW) (s.rd P.TBS_BOUND_LIMIT)
  match s.rd P.REF_TSTATE with
  | 2 => if beyond then 52 else 6
  | 3 => if beyond then 52 else 7
  | 4 => 7
  | 5 => 52
  | _ => 248

/-- The limits of the clockAccuracy enumeration from 0x17 on, in tenths of a ps (IEEE 1588-2019). -/
def accuracyLimits : List Nat :=
  [10, 25, 100, 250, 1000, 2500, 10000, 25000, 100000, 250000, 1000000, 2500000, 10000000, 25000000, 100000000,
   250000000, 1000000000, 2500000000, 10000000000, 25000000000, 100000000000]

/-- clockAccuracy: the smallest enumeration whose limit is at or above the decoded bound (R125). -/
def clockAccuracy (code : Nat) : Nat :=
  if code = 255 then 0xFE
  else 0x17 + (accuracyLimits.findIdx fun l => decide (2 ^ code * 10 ^ 8 ≤ l ^ 8))

/-- timeSource (R125). -/
def State.timeSource (s : State) : Nat :=
  match s.rd P.REF_ACTIVE with
  | 0 => 0x20
  | 1 | 2 | 3 | 4 | 5 | 6 => 0x90
  | _ => 0xA0

/-- Whether the service runs on port `p` (R122). -/
def State.ptpRuns (s : State) (p : Nat) : Bool :=
  s.rd P.LNK_PTP_PORT_EN p != 0 && s.rdb P.PRT_LINK_UP p && (s.rd P.PWR_SHUTTER_STATE == 0 || keelPort p)

/-- The 34-byte header of an IEEE 1588-2019 message of this module's port `p`: version 2, minor version 1. -/
def State.ptpHeader (s : State) (p type len flags : Nat) (corr : Int) (seq : Nat) (interval : Int) : List Byte :=
  toBe 1 type ++ toBe 1 0x12 ++ toBe 2 len ++ toBe 1 (s.rd P.LNK_PTP_DOMAIN) ++ zeros 1 ++ toBe 2 flags ++
    toBe 8 (raw 64 corr) ++ zeros 4 ++ toBe 8 (s.rd P.HIE_IDENTITY) ++ toBe 2 (p + 1) ++ toBe 2 seq ++
    toBe 1 (match type with | 0 => 0 | 1 => 1 | 9 => 3 | _ => 5) ++ toBe 1 (raw 8 interval)

/-- The 10-byte timestamp of a stamp. -/
def ptpTime (x : Stamp) : List Byte := toBe 6 (x.ns / 1000000000) ++ toBe 4 (x.ns % 1000000000)

/-- The Announce flag field: alternate and unicast bits aside, the leap flags, UTC validity, the PTP timescale and the
traceability flags (R125). -/
def State.ptpFlags (s : State) (unicast : Bool) : Nat :=
  let c := s.clockClass
  let traced := c == 6 || c == 7
  (if unicast then 0x0400 else 0) + (if s.rd P.TBS_LEAP = 1 then 1 else 0) + (if s.rd P.TBS_LEAP = 2 then 2 else 0) +
    4 * s.rd P.TBS_UTC_VALID + 8 + (if traced then 16 else 0) +
    (if traced || s.rd P.REF_TSTATE == 6 then 32 else 0)

/-- The body of an Announce after the header (R125). -/
def State.announceBody (s : State) (x : Stamp) : List Byte :=
  ptpTime x ++ toBe 2 (s.rd P.TBS_UTC_OFFSET) ++ [0] ++ toBe 1 (s.rd P.LNK_PTP_PRIO1) ++ toBe 1 s.clockClass ++
    toBe 1 (clockAccuracy (s.rd P.TBS_BOUND_NOW)) ++ toBe 2 0xFFFF ++ toBe 1 (s.rd P.LNK_PTP_PRIO2) ++
    toBe 8 s.topIdentity ++ toBe 2 s.hopCount ++ toBe 1 s.timeSource

/-- The UDP port of a message: 319 for an event message, 320 for a general one (R74). -/
def udpPort (msg : List Byte) : Nat := if beAt 0 1 msg % 16 ≤ 3 then 319 else 320

/-- A UDP datagram with its checksum field as given. -/
def udpDatagram (msg : List Byte) (check : Nat) : List Byte :=
  toBe 2 (udpPort msg) ++ toBe 2 (udpPort msg) ++ toBe 2 (8 + msg.length) ++ toBe 2 check ++ msg

/-- An IPv4 packet of a message; the UDP checksum is 0x0000 as R77 writes it. The other fields are the model's choice: assumption 81. -/
def ip4Packet (own client : Nat) (msg : List Byte) : List Byte :=
  let head (check : Nat) : List Byte :=
    [0x45, 0] ++ toBe 2 (28 + msg.length) ++ zeros 4 ++ [64, 17] ++ toBe 2 check ++ toBe 4 own ++ toBe 4 client
  head (onesCheck (head 0)) ++ udpDatagram msg 0

/-- An IPv6 packet of a message, with the two bytes that follow it in that transport (R77). The other fields are the model's choice:
assumption 81. -/
def ip6Packet (own client : Nat) (msg : List Byte) : List Byte :=
  let m := msg ++ zeros 2
  let pseudo := toBe 16 own ++ toBe 16 client ++ toBe 4 (8 + m.length) ++ zeros 3 ++ [17]
  let check := onesCheck (pseudo ++ udpDatagram m 0)
  [0x60, 0, 0, 0] ++ toBe 2 (8 + m.length) ++ [17, 64] ++ toBe 16 own ++ toBe 16 client ++
    udpDatagram m (if check = 0 then 0xFFFF else check)

/-- The same transport towards the multicast group of IEEE 1588, that of the peer delay messages where `peer` (R124). -/
def groupPath (peer : Bool) : PtpPath → PtpPath
  | .ethernet => .ethernet
  | .udp4 own _ => .udp4 own (if peer then 0xE000006B else 0xE0000181)
  | .udp6 own _ => .udp6 own (if peer then 0xFF02000000000000000000000000006B else 0xFF0E0000000000000000000000000181)

/-- The MAC address of that group. -/
def groupMac (peer : Bool) : PtpPath → Nat
  | .ethernet => if peer then 0x0180C200000E else 0x011B19000000
  | .udp4 _ _ => if peer then 0x01005E00006B else 0x01005E000181
  | .udp6 _ _ => if peer then 0x33330000006B else 0x333300000181

/-- An IEEE 1588 message sent from port `p` over its transport (R8), and stamped as every frame is (R60). -/
def State.ptpSend (s : State) (p dst : Nat) (path : PtpPath) (msg : List Byte) : State :=
  let body : List Byte := match path with
    | .ethernet => [0x88, 0xF7] ++ msg
    | .udp4 own client => [0x08, 0x00] ++ ip4Packet own.toNat client.toNat msg
    | .udp6 own client => [0x86, 0xDD] ++ ip6Packet own.toNat client.toNat msg
  let f := toBe 6 dst ++ toBe 6 (s.portMac p) ++ body
  (s.stamped p).emit (.frame p (withFcs (f ++ zeros (60 - f.length))))

/-- The next sequence number of a port and message type, and the state with it taken. -/
def State.ptpNext (s : State) (p type : Nat) : State × Nat :=
  let n := look (p, type) 0 s.ptpSeq
  ({ s with ptpSeq := store ltPair (p, type) 0 ((n + 1) % 65536) s.ptpSeq }, n)

/-- PTP_SYNC_SEND (R122 to R125): a multicast or unicast Sync or Announce. `unicast` names the client by its port
identity; nothing is sent to one whose grant has reached its end. The multicast messages leave over Ethernet: DESIGN CHOICE,
assumption 45. -/
def execPtpSyncSend (port : Fin 512) (announce : Bool) (unicast : Option (Nat × Nat)) (tx : RawStamp) (s : State) :
    Host.Outcome State Fault Refusal :=
  let p := port.val
  let type := if announce then 11 else 0
  let go (dst : Nat) (path : PtpPath) (uni : Bool) (interval : Int) : State :=
    let x := s.txMark p tx
    let (t, n) := s.ptpNext p type
    if announce then t.ptpSend p dst path (t.ptpHeader p 11 64 (t.ptpFlags uni) 0 n interval ++ t.announceBody x)
    else t.ptpSend p dst path (t.ptpHeader p 0 44 (if uni then 0x0400 else 0) x.sub n interval ++ ptpTime x)
  if ¬ s.ptpRuns p then .next s
  else
    match unicast with
    | none =>
      .next (go (groupMac false .ethernet) .ethernet false (if announce then s.rdS 4 P.LNK_PTP_LOG_ANN else s.rdS 4 P.LNK_PTP_LOG_SYNC))
    | some (c, n) =>
      match s.grants.find? fun g => g.port == p && g.clock == c && g.number == n && g.msg == type && decide (s.clock < g.ends) with
      | some g => .next (go g.mac g.path true g.period)
      | none => .next s

/-- The clients that hold grants (R123). -/
def clientsOf (gs : List Grant) : List (Nat × Nat) := (gs.map fun g => (g.clock, g.number)).eraseDups

/-- LNK_PTP_UNICAST brought up to date. -/
def State.countClients (s : State) : State := s.wr P.LNK_PTP_UNICAST 0 (min 4096 (clientsOf s.grants).length)

/-- PTP_UNICAST_REQUEST (R123): a request for Sync (0), Announce (11) or Delay_Resp (9) is granted or refused. The answer
is a Signaling message with the GRANT_UNICAST_TRANSMISSION TLV. A request for another message type is answered with duration 0 and counted:
DESIGN CHOICE, assumption 45. -/
def execPtpUnicastRequest (port : Fin 512) (clock : BitVec 64) (number : BitVec 16) (client : PtpClient)
    (msg : Fin 16) (period : BitVec 8) (duration : BitVec 32) (s : State) : Host.Outcome State Fault Refusal :=
  let p := port.val
  let s := s.stamped p
  if ¬ s.ptpRuns p then .next s
  else
    let c := clock.toNat; let n := number.toNat
    let known := (clientsOf s.grants).contains (c, n)
    let ok := (msg.val == 0 || msg.val == 11 || msg.val == 9) && decide (-7 ≤ sgn 8 period.toNat) &&
      (known || decide ((clientsOf s.grants).length < 4096))
    let d := if ok then min duration.toNat (s.rd P.LNK_PTP_GRANT_MAX) else 0
    let (t, q) := s.ptpNext p 12
    let tlv : List Byte := [0x00, 0x05, 0x00, 0x08] ++ toBe 1 (msg.val * 16) ++ toBe 1 period.toNat ++ toBe 4 d ++ [0, 1]
    let t := t.ptpSend p client.mac.toNat client.path (t.ptpHeader p 12 56 0x0400 0 q 0x7F ++ toBe 8 c ++ toBe 2 n ++ tlv)
    if ok then
      let rest := t.grants.filter fun g => !(g.port == p && g.clock == c && g.number == n && g.msg == msg.val)
      let g : Grant := ⟨p, c, n, client.mac.toNat, client.path, msg.val, sgn 8 period.toNat, t.clock + d * 1000000000⟩
      let u : State := { t with grants := rest ++ [g] }
      .next u.countClients
    else .next (t.count P.LNK_PTP_REFUSED)

/-- GRANT_EXPIRY (R123): the grants of a client that have reached their duration end. -/
def execGrantExpiry (clock : BitVec 64) (number : BitVec 16) (s : State) : Host.Outcome State Fault Refusal :=
  let t : State := { s with grants := s.grants.filter fun g =>
    !(g.clock == clock.toNat && g.number == number.toNat && decide (g.ends ≤ s.clock)) }
  .next t.countClients

/-- Whether the client that a Delay_Req names as its source holds a grant for Delay_Resp on port `p` (R123). -/
def State.delayGranted (s : State) (p : Nat) (msg : List Byte) : Bool :=
  s.grants.any fun g => g.port == p && g.clock == beAt 20 8 msg && g.number == beAt 28 2 msg && g.msg == 9 && decide (s.clock < g.ends)

/-- DELAY_REQ (R124): a Delay_Req is answered with a Delay_Resp, in unicast only to a client that holds a grant for it (R123), and a
Pdelay_Req with a one-step Pdelay_Resp. The logMessageInterval of a Delay_Resp is LNK_PTP_LOG_SYNC: DESIGN CHOICE, assumption 45. -/
def execDelayReq (port : Fin 512) (msg : List Byte) (client : PtpClient) (rx tx : RawStamp) (s : State) :
    Host.Outcome State Fault Refusal :=
  let p := port.val
  let s := s.stamped p
  let type := beAt 0 1 msg % 16
  let en := s.rd P.LNK_PTP_PORT_EN p
  if ¬ s.ptpRuns p ∨ msg.length < 44 ∨ beAt 4 1 msg ≠ s.rd P.LNK_PTP_DOMAIN ∨ beAt 1 1 msg % 16 ≠ 2 then .next s
  else
    let uni := (beAt 6 2 msg).testBit 10
    let flags := if uni then 0x0400 else 0
    let corr := sgn 64 (beAt 8 8 msg)
    let dst := if uni then client.mac.toNat else groupMac (type == 2) client.path
    let way := if uni then client.path else groupPath (type == 2) client.path
    let x := s.rxMark p rx
    if type = 1 ∧ en = 1 then
      if uni ∧ ¬ s.delayGranted p msg then .next s
      else
        .next (s.ptpSend p dst way (s.ptpHeader p 9 54 flags (corr - x.sub) (beAt 30 2 msg) (s.rdS 4 P.LNK_PTP_LOG_SYNC) ++
          ptpTime x ++ slice 20 10 msg))
    else if type = 2 ∧ en = 2 then
      .next (s.ptpSend p dst way
        (s.ptpHeader p 3 54 flags (corr + ((s.txMark p tx).units - x.units)) (beAt 30 2 msg) 0x7F ++ zeros 10 ++ slice 20 10 msg))
    else .next s

end Sys2Proof.Machine
end

