-- ==== Sys2Proof/Machine/Frames.lean ====
section
/-! DEFINITION. What the module reads in a frame, and what an insertion mode writes into it at egress (R73 to R82). -/

namespace Sys2Proof.Machine

/-! ## Fields of a frame -/

/-- The destination and the source MAC address. -/
def dstMac (f : List Byte) : Nat := beAt 0 6 f
def srcMac (f : List Byte) : Nat := beAt 6 6 f

/-- Whether a tag protocol identifier is one of IEEE 802.1Q. -/
def isTpid (v : Nat) : Bool := v == 0x8100 || v == 0x88A8

/-- The position of the EtherType after at most two IEEE 802.1Q tags. -/
def etherAt (f : List Byte) : Nat :=
  if isTpid (beAt 12 2 f) then (if isTpid (beAt 16 2 f) then 20 else 16) else 12

/-- The EtherType after at most two tags. -/
def etherType (f : List Byte) : Nat := beAt (etherAt f) 2 f

/-- Whether the frame is a MAC control frame (R251). -/
def isMacControl (f : List Byte) : Bool := beAt 12 2 f == 0x8808

/-- Whether the frame is an NHP frame (R407). -/
def isNhp (f : List Byte) : Bool := beAt 12 2 f == 0x88B5 && dstMac f == 0x0180C200000E

/-- The position of the UDP header in an IPv4 or IPv6 packet, and whether it is IPv6. No IPv6 extension header is followed, and an IPv4
fragment whose offset is not 0 holds no UDP header: DESIGN CHOICE, assumption 81. -/
def udpAt (f : List Byte) : Option (Nat × Bool) :=
  let i := etherAt f + 2
  if etherType f = 0x0800 ∧ beAt (i + 9) 1 f = 17 ∧ beAt i 1 f / 16 = 4 ∧ beAt (i + 6) 2 f % 8192 = 0 then
    some (i + beAt i 1 f % 16 * 4, false)
  else if etherType f = 0x86DD ∧ beAt (i + 6) 1 f = 17 then some (i + 40, true)
  else none

/-- The position of an IEEE 1588 version 2 message, and that of its UDP header with the IP version (R74). -/
def ptpAt (f : List Byte) : Option (Nat × Option (Nat × Bool)) :=
  let v2 (i : Nat) : Bool := beAt (i + 1) 1 f % 16 == 2 && decide (i + 34 ≤ f.length)
  if etherType f = 0x88F7 then
    if v2 (etherAt f + 2) then some (etherAt f + 2, none) else none
  else
    match udpAt f with
    | some (u, six) =>
      let port := beAt (u + 2) 2 f
      if (port = 319 ∨ port = 320) ∧ v2 (u + 8) then some (u + 8, some (u, six)) else none
    | none => none

/-! ## PTP mode -/

/-- A message with an amount added to its correctionField (R75). -/
def addCorrection (i : Nat) (x : Int) (f : List Byte) : List Byte :=
  patch (i + 8) (toBe 8 (raw 64 (sgn 64 (beAt (i + 8) 8 f) + x))) f

/-- The turnaround from a request stamp of 32 bits and sub-nanoseconds to a stamp, in units of 2^-16 ns (R76). -/
def turnaround (tx : Stamp) (ns sub : Nat) : Int :=
  sgn 32 (raw 32 ((tx.ns : Int) - ns)) * 65536 + ((tx.sub : Int) - sub)

/-- The frame with its PTP message changed, or none where PTP mode changes nothing (R75, R76). -/
def ptpChanged (i : Nat) (rx tx : Stamp) (host : Bool) (request : Option (Nat × Nat)) (f : List Byte) :
    Option (List Byte) :=
  let type := beAt i 1 f % 16
  if host then
    let twoStep := (beAt (i + 6) 1 f).testBit 1
    if type = 0 ∧ !twoStep then
      some (addCorrection i tx.sub (patch (i + 34) (toBe 6 (tx.ns / 1000000000) ++ toBe 4 (tx.ns % 1000000000)) f))
    else if type = 3 ∧ !twoStep then
      request.map fun q => addCorrection i (turnaround tx q.1 q.2) f
    else none
  else if type ≤ 3 then some (addCorrection i (tx.units - rx.units) f)
  else none

/-- The two bytes that keep the sum of a string the same after it has been changed: `old` before, `new` after with the
two bytes at position `i` zero. -/
def balance (old new : List Byte) (i : Nat) : List Byte :=
  let d := (onesSum old + (65535 - onesSum new)) % 65535
  if i % 2 = 0 then toBe 2 d else toLe 2 d

/-- PTP mode (R74 to R77): the frame without its FCS as sent, and whether it was skipped for want of the IPv6 bytes. -/
def ptpMode (rx tx : Stamp) (host : Bool) (request : Option (Nat × Nat)) (f : List Byte) : List Byte × Bool :=
  match ptpAt f with
  | none => (f, false)
  | some (i, udp) =>
    match ptpChanged i rx tx host request f with
    | none => (f, false)
    | some g =>
      match udp with
      | none => (g, false)
      | some (u, false) => (patch (u + 6) [0, 0] g, false)
      | some (u, true) =>
        let n := beAt (u + 4) 2 f
        let e := i + beAt (i + 2) 2 f
        if u + n < e + 2 then (f, true)
        else
          let h := patch e [0, 0] g
          (patch e (balance (slice u n f) (slice u n h) (e - u)) h, false)

/-! ## Trailer and overwrite modes -/

/-- The trailer of R78 with its check (R79). -/
def trailer (rx : Stamp) (port : Nat) : List Byte :=
  let b := toBe 4 (rx.ns / 1000000000) ++ toBe 4 (rx.ns % 1000000000) ++ toBe 2 rx.sub ++ toBe 1 rx.code ++
    toBe 1 rx.flags ++ toBe 2 port
  b ++ toBe 2 (onesCheck b)

/-- The stamp bytes of an overwrite format (R81). -/
def overwriteBytes (format : Nat) (x : Stamp) : List Byte :=
  let b := toBe 4 (x.ns / 1000000000) ++ toBe 4 (x.ns % 1000000000) ++ toBe 2 x.sub
  match format % 4 with
  | 0 => b
  | 1 => toBe 8 x.ns
  | 2 => b ++ toBe 1 x.code
  | _ => b ++ toBe 1 x.code ++ toBe 1 x.flags

/-- The bytes that the insertion mode of a frame adds on the way out (R73, R323). -/
def Frame.added (f : Frame) : Nat := if f.mode = 2 then 16 else 0

/-- The frame's stored length. -/
def Frame.size (f : Frame) : Nat := f.data.length

/-- The bytes of a frame as port `p` sends them, FCS aside, with the egress stamp, and the state with what was skipped
counted (R73 to R82). While switching is stopped only PTP mode goes on (R22). -/
def State.inserted (s : State) (p : Nat) (f : Frame) (tx : Stamp) : State × List Byte :=
  let body := f.data.take (f.size - 4)
  match (if s.switchStopped && f.mode != 1 then 0 else f.mode) with
  | 1 =>
    if s.rdb P.TBS_PTP_ENABLE then
      let r := ptpMode f.stamp tx f.slot.isSome f.request body
      (if r.2 then s.count P.TBS_PTP_SKIP else s, r.1)
    else (s, body)
  | 2 =>
    if 9728 < f.size + 16 ∨ s.rd P.PRT_MAX_FRAME p < f.size + 16 then (s.count P.TBS_TRAILER_SKIP, body)
    else (s, body ++ trailer f.stamp f.port)
  | 3 =>
    let off := s.rd P.TBS_OVW_OFFSET f.profile
    let form := s.rd P.TBS_OVW_FORMAT f.profile
    let b := overwriteBytes form (if form.testBit 2 then tx else f.stamp)
    if off = 0 then (s, body)
    else if 14 ≤ off ∧ off + b.length ≤ f.size - 4 then (s, patch off b body)
    else (s.count P.TBS_OVW_SKIP, body)
  | _ => (s, body)

/-- The inverse of the FCS of a string, which a stomped frame is sent with (R256). -/
def stompedFcs (bs : List Byte) : List Byte := (fcsOf bs).map fun b => ~~~ b

end Sys2Proof.Machine
end

