-- ==== Sys2Proof/Machine/Layout.lean ====
section
/-! DEFINITION. Which lanes make which port (R249), the scratchpad's bytes and who may reach them (R384), and the trace
records (R459 to R461). -/

namespace Sys2Proof.Machine

/-! ## Ports and lanes -/

/-- The MAC data rate in Gb/s of a port of `n` lanes at a rate code, 0 for a combination absent from the table
of R249. -/
def portGbps (rate n : Nat) : Nat :=
  match rate, n with
  | 0, 1 => 200 | 0, 2 => 400 | 0, 4 => 800
  | 1, 1 => 100 | 1, 2 => 200 | 1, 4 => 400 | 1, 8 => 800
  | 2, 1 => 50 | 2, 2 => 100 | 2, 4 => 200 | 2, 8 => 400
  | 3, 1 => 25 | 3, 4 => 100
  | 4, 1 => 10 | 4, 4 => 40
  | _, _ => 0

/-- r_p in Gb/s (R249). -/
def State.gbps (s : State) (p : Nat) : Nat := portGbps (s.rateOf p) (s.rd P.PRT_LANES p)

/-- The lanes of port `p`. -/
def State.lanesOf (s : State) (p : Nat) : List Nat := (List.range (s.rd P.PRT_LANES p)).map fun i => p + i

/-- The port that lane `l` belongs to (R249, R360). -/
def State.portOf (s : State) (l : Nat) : Option Nat :=
  [l, l - l % 2, l - l % 4, l - l % 8].find? fun p => decide (l < p + s.rd P.PRT_LANES p)

/-- Whether a port is up. -/
def State.portUp (s : State) (p : Nat) : Bool := s.rdb P.PRT_LINK_UP p

/-- The inlet and outlet of a port, and its reach (R15). -/
def inletOf (p : Nat) : Nat := p / 8
def reachOf (p : Nat) : Nat := p / 64

/-- The ports of an inlet or outlet. -/
def portsOf (o : Nat) : List Nat := (List.range 8).map fun i => 8 * o + i

/-- Nanoseconds rounded up for a number of bytes at a rate in Gb/s; 0 at no rate. -/
def wireNs (bytes gbps : Nat) : Nat := if gbps = 0 then 0 else ceilDiv (bytes * 8) gbps

/-- The spacing g_p of permitted start positions in ps (R319). -/
def State.startGrid (s : State) (p : Nat) : Nat :=
  let r := s.gbps p
  if r = 0 then 1 else if r ≤ 25 then 32000 / r else 64000 / r

/-! ## Scratchpad -/

/-- The bank of a scratchpad address (R382). -/
def bankOf (a : Nat) : Nat := a / 0x200000

/-- A byte of the scratchpad (R383). -/
def State.padByte (s : State) (a : Nat) : Byte := look a 0 s.pad.mem

/-- Bytes of the scratchpad from an address on. -/
def State.padRead (s : State) (a n : Nat) : List Byte := (List.range n).map fun i => s.padByte (a + i)

/-- Bytes written from an address on. -/
def padStore (a : Nat) : List Byte → List Host.Cell → List Host.Cell
  | [], m => m
  | b :: bs, m => padStore (a + 1) bs (store ltNat a 0 b m)

/-- The scratchpad after a string of bytes is written. -/
def State.padWrite (s : State) (a : Nat) (bs : List Byte) : State :=
  { s with pad := { s.pad with mem := padStore a bs s.pad.mem } }

/-- The access table (R384): for a master and a bank, whether it may read and whether it may write. -/
def padAccess (m b : Nat) : Bool × Bool :=
  let rw := (true, true)
  let r := (true, false)
  let none := (false, false)
  let fw := m == 8 || m == 9 || m == 10
  if b ≤ 7 then (if m = 14 then rw else if m = 3 then r else none)
  else if b ≤ 15 then (if m = 13 then rw else if m = 3 ∨ fw then r else none)
  else if b ≤ 19 then (if m = 7 then rw else if m = 1 ∨ fw then r else none)
  else if b ≤ 21 then (if m = 15 then rw else none)
  else if b = 22 then (if m = 12 then rw else none)
  else if b = 23 then (if m = 6 then rw else none)
  else if b = 24 then (if m = 5 then rw else none)
  else if b ≤ 29 then
    (if m = 2 ∨ fw then rw else if m = 4 then (false, true) else if m = 3 then r else none)
  else if b = 30 then (if m = 11 then rw else none)
  else if b = 31 then (if m = 11 ∨ m = 14 ∨ m = 15 then rw else none)
  else none

/-! ## Trace (R459 to R461) -/

/-- The records the trace ring holds, and the scratchpad address of the record with a sequence number. -/
def traceSlots : Nat := 262144
def traceAddr (seq : Nat) : Nat := 16 * 0x200000 + seq % traceSlots * 32

/-- The next record of the trace ring written (R461); counted as dropped while master 7 is frozen (R464). -/
def State.traceWrite (s : State) (r : List Byte) : State :=
  if s.frozenMaster 7 then s.count P.OBS_TRACE_DROP
  else
    let n := s.rd P.OBS_TRACE_HEAD
    let t := (s.padWrite (traceAddr n) r).wr P.OBS_TRACE_HEAD 0 (n + 1)
    let t := if n + 1 ≤ traceSlots then t else t.wr P.OBS_TRACE_OLDEST 0 (n + 1 - traceSlots)
    if t.rdb P.OBS_WIN_ENABLE ∧ t.windowAt = none then { t with windowAt := some t.clock } else t

/-- A trace record's fields that differ from stage to stage (R460). -/
structure TraceAt where
  stage : Nat
  flags : Nat
  stamp : Option Stamp
  unit : Nat
  depth : Nat
  egress : Nat
  deriving DecidableEq, Repr

/-- The bytes of a trace record (R460). -/
def State.traceRecord (s : State) (f : Frame) (n : Nat) (a : TraceAt) : List Byte :=
  let fl := a.flags + 2 * b2n f.stomp + 4 * b2n f.express
  toBe 1 a.stage ++ toBe 1 fl ++ toBe 2 n ++
    (match a.stamp with
     | some x => toBe 8 x.ns ++ toBe 2 x.sub ++ toBe 1 x.code ++ toBe 1 x.flags
     | none => toBe 8 s.now ++ toBe 2 0 ++ toBe 1 255 ++ toBe 1 0) ++
    toBe 2 f.port ++ toBe 2 f.sid ++ toBe 1 a.unit ++ toBe 1 f.cls ++ toBe 2 f.epoch ++ toBe 4 a.depth ++
    toBe 2 a.egress ++ toBe 2 f.size

/-- A tagged frame writes a record (R459). -/
def State.traceEvent (s : State) (f : Frame) (a : TraceAt) : State :=
  match f.tag with
  | some n => s.traceWrite (s.traceRecord f n a)
  | none => s

/-- A tagged frame that is lost writes a record with DROP that names the counter (R459, R460). -/
def State.traceDrop (s : State) (f : Frame) (stage unit counter : Nat) : State :=
  s.traceEvent f ⟨stage, 1, if stage = 0 then some f.stamp else none, unit, counter, 0⟩

end Sys2Proof.Machine
end

