-- ==== Sys2Proof/Machine/Tables.lean ====
section
/-! DEFINITION. The forwarding tables (R283 to R309): lookups, learning, the table commands, fences and walks. -/

namespace Sys2Proof.Machine

/-- The tables changed. -/
def State.setTables (s : State) (f : Tables → Tables) : State := { s with tables := f s.tables }

/-- The fabric part of the state changed. -/
def State.setFab (s : State) (f : Fabric → Fabric) : State := { s with fabric := f s.fabric }

/-! ## Slots and positions (R289, R291) -/

/-- The position of a key in bank `k` under a seed (R289). -/
def bankSlot (seed k vid mac : Nat) : Nat :=
  k * 65536 + crc32 (toBe 4 seed ++ toBe 1 k ++ toBe 2 vid ++ toBe 6 mac) % 65536

/-- The entry in a slot of reach `r`. -/
def State.macAt (s : State) (r i : Nat) : Option MacEntry := look (r, i) none s.tables.mac

/-- A slot of reach `r` written or emptied, with TBL_OCCUPANCY and TBL_STASH_USED kept. -/
def State.macSet (s : State) (r i : Nat) (e : Option MacEntry) : State :=
  let was := b2n (s.macAt r i).isSome
  let t := s.setTables fun x => { x with mac := store ltPair (r, i) none e x.mac }
  let t := t.wr P.TBL_OCCUPANCY r (t.rd P.TBL_OCCUPANCY r + b2n e.isSome - was)
  if i < 262144 then t else t.wr P.TBL_STASH_USED r (t.rd P.TBL_STASH_USED r + b2n e.isSome - was)

/-- The slots of the stash. -/
def stashSlots : List Nat := (List.range 8).map fun i => 262144 + i

/-- The slots a lookup of a key searches (R291). -/
def State.macSlots (s : State) (r vid mac : Nat) : List Nat :=
  let under (seed : Nat) := (List.range 4).map fun k => bankSlot seed k vid mac
  under (s.rd P.TBL_SEED r) ++
    (if s.rd P.TBL_REHASH_STATE r = 0 then [] else under (s.rd P.TBL_SEED_OLD r)) ++ stashSlots

/-- The slot that holds a key in reach `r`, with its entry (R291). -/
def State.macFind (s : State) (r vid mac : Nat) : Option (Nat × MacEntry) :=
  (s.macSlots r vid mac).findSome? fun i =>
    match s.macAt r i with
    | some e => if e.vid = vid ∧ e.mac = mac then some (i, e) else none
    | none => none

/-- Every slot of reach `r` in use, in slot order. -/
def State.macAll (s : State) (r : Nat) : List (Nat × MacEntry) :=
  s.tables.mac.filterMap fun e => if e.1.1 = r then e.2.map fun x => (e.1.2, x) else none

/-- The generation bit that a placement under a seed stores (R292). -/
def State.genUnder (s : State) (r seed : Nat) : Nat :=
  if seed = s.rd P.TBL_SEED r then s.rd P.TBL_GEN r else 1 - s.rd P.TBL_GEN r

/-! ## Placement (R292, R302) -/

/-- Whether a running flush of reach `r` matches an entry (R302). -/
def State.flushMatches (s : State) (r : Nat) (e : MacEntry) : Bool :=
  s.tables.flushes.any fun f =>
    f.reaches.contains r && e.kind == 0 && e.dest == f.port &&
      (match f.vid with | some v => e.vid == v | none => true) && (f.static || !e.static)

/-- An entry written into the first empty position of its banks, one bank left out. -/
def State.placeDirect (s : State) (r seed : Nat) (e : MacEntry) (skip : Nat) : Option State :=
  ((List.range 4).find? fun k => k != skip && (s.macAt r (bankSlot seed k e.vid e.mac)).isNone).map fun k =>
    s.macSet r (bankSlot seed k e.vid e.mac) (some e)

/-- An entry removed instead of moved counts for the flush that matched it, and for its reach (R302, R303). -/
def State.flushCount (s : State) (r : Nat) : State :=
  let one (j : TblJob) : TblJob :=
    if j.walking.contains r then { j with removed := j.removed + 1, deleted := setBit r j.deleted } else j
  s.setTables fun x => { x with jobs := x.jobs.map one }

/-- The displacements of R292, at most `n`; the counts of displacements are kept apart from the table, which is undone
when the placement fails. -/
def State.cuckoo (s : State) (r seed gen : Nat) : Nat → MacEntry → Nat → Nat → State × Bool × Nat
  | 0, carry, _, moved =>
    match stashSlots.find? fun i => (s.macAt r i).isNone with
    | some i => (s.macSet r i (some { carry with gen := gen }), true, moved)
    | none => (s, false, moved)
  | n + 1, carry, b, moved =>
    let i := bankSlot seed b carry.vid carry.mac
    match s.macAt r i with
    | none => (s.macSet r i (some { carry with gen := gen }), true, moved)
    | some y =>
      let t := s.macSet r i (some { carry with gen := gen })
      if t.flushMatches r y then (t.flushCount r, true, moved + 1)
      else
        match t.placeDirect r seed { y with gen := gen } b with
        | some u => (u, true, moved + 1)
        | none => t.cuckoo r seed gen n y ((b + 1) % 4) (moved + 1)

/-- A key placed in reach `r` under a seed (R292): the state, whether it was placed, and the displacements. A failed
placement leaves the table as it was; its displacements stay counted. -/
def State.macPlace (s : State) (r seed : Nat) (e : MacEntry) : State × Bool × Nat :=
  let gen := s.genUnder r seed
  match s.placeDirect r seed { e with gen := gen } 4 with
  | some t => (t, true, 0)
  | none =>
    let x := s.cuckoo r seed gen (s.rd P.TBL_CUCKOO_MAX) { e with gen := gen } 0 0
    let keep := if x.2.1 then x.1 else s
    (keep.wr P.TBL_DISPLACE_SEQ r ((s.rd P.TBL_DISPLACE_SEQ r + x.2.2) % 2 ^ 32), x.2.1, x.2.2)

/-! ## Notices -/

/-- REHASH_NEEDED (R296). -/
def State.rehashNeeded (s : State) (r cause vid mac : Nat) : State :=
  s.notice 0 (toBe 1 r ++ toBe 1 cause ++ zeros 2 ++ toBe 2 vid ++ toBe 6 mac ++ toBe 4 (s.rd P.TBL_OCCUPANCY r) ++
    toBe 1 (s.rd P.TBL_STASH_USED r) ++ zeros 3)

/-- A learn that finds no room (R294, R296). -/
def State.learnFailed (s : State) (r vid mac : Nat) : State :=
  let t := (s.count P.TBL_LEARN_FAIL r).orIn P.TBL_FLAGS 0 1
  let last := (t.tables.noticed.find? fun x => x.1 == r).map fun x => x.2
  let due := match last with | some c => decide (c + t.rd P.TBL_NOTICE_GAP * 1000000 ≤ t.clock) | none => true
  if due then
    (t.setTables fun x => { x with noticed := (x.noticed.filter fun y => y.1 != r) ++ [(r, t.clock)] }).rehashNeeded r 0 vid mac
  else t

/-! ## The lookup (R283) -/

/-- What a lookup finds (R283). -/
structure Lookup where
  vid : Nat
  sid : Nat
  entry : Nat
  kind : Nat
  dest : Nat
  deriving DecidableEq, Repr

/-- A Stream table entry's fields (R285). -/
def streamLog (e : Nat) : Bool := bit 63 e
def streamExpress (e : Nat) : Bool := bit 62 e
def streamNoLearn (e : Nat) : Bool := bit 61 e
def streamInsert (e : Nat) : Nat := field 60 59 e
def streamProfile (e : Nat) : Nat := field 58 56 e
def streamClass (e : Nat) : Nat := field 55 53 e
def streamLock (e : Nat) : Bool := bit 52 e
def streamLockGroup (e : Nat) : Nat := field 51 38 e
def streamMirror (e : Nat) : Nat := if bit 37 e then field 36 28 e else 0xFFFF
def streamChannel (e : Nat) : Nat := field 27 24 e
def streamFlood (e : Nat) : Nat := field 23 10 e

/-- Reach `r` reads its copy of a Stream entry; a copy that reads uncorrectable gives the reset value and is counted
(R288). -/
def State.streamRead (s : State) (r sid : Nat) (err : Bool) : State × Nat :=
  if err || s.tables.bad.contains (r, sid) then
    (((s.setTables fun x => { x with bad := if x.bad.contains (r, sid) then x.bad else x.bad ++ [(r, sid)] }).count
      P.TBL_STREAM_ECC).orIn P.TBL_FLAGS 0 8, 0)
  else (s, look (r, sid) 0 s.tables.stream)

/-- The outer tag's VID, where the frame carries one other than 0 (R283). -/
def tagVid (f : List Byte) : Option Nat :=
  if beAt 12 2 f = 0x8100 ∧ beAt 14 2 f % 4096 ≠ 0 then some (beAt 14 2 f % 4096) else none

/-- An uncorrectable entry that a lookup reads under a key is removed and treated as absent (R291). -/
def State.macLost (s : State) (r vid mac : Nat) (err : Bool) : State :=
  match s.macFind r vid mac with
  | some (i, _) => if err then s.macSet r i none else s
  | none => s

/-- The lookup of a frame that port `p` receives (R283): `streamErr` and `macErr` say that the Stream copy or the MAC entry
read is uncorrectable (R288, R291). -/
def State.lookup (s : State) (p : Nat) (f : List Byte) (streamErr macErr : Bool) : State × Lookup :=
  let r := reachOf p
  let vid := (tagVid f).getD (s.rd P.TBL_PVID p)
  let sid := s.rd P.TBL_PORT_GROUP p * 4096 + vid
  let (t, e) := s.streamRead r sid streamErr
  if streamLock e then (t, ⟨vid, sid, e, 2, streamLockGroup e⟩)
  else
    let t := t.macLost r vid (dstMac f) macErr
    match t.macFind r vid (dstMac f) with
    | none => (t, ⟨vid, sid, e, 1, streamFlood e⟩)
    | some (_, m) => (if m.kind = 0 ∧ m.dest = p then t.count P.TBL_HAIRPIN r else t, ⟨vid, sid, e, m.kind, m.dest⟩)

/-- The traffic class of a frame (R252). -/
def State.frameClass (s : State) (p : Nat) (f : List Byte) (entry : Nat) : Nat :=
  if s.rdb P.PRT_CLASS_SRC p then
    s.rd P.PRT_PCP_MAP (if isTpid (beAt 12 2 f) then beAt 14 2 f / 8192 else s.rd P.PRT_DEFAULT_PCP p)
  else streamClass entry

/-! ## Learning (R293 to R295) -/

/-- The signed difference of two 32-bit stamps (R290). -/
def stampDiff (a b : Nat) : Int := sgn 32 (raw 32 ((a : Int) - b))

/-- A frame asks its reach to learn (R293). -/
def State.learnRequest (s : State) (p : Nat) (f : List Byte) (l : Lookup) (ns : Nat) : State :=
  let r := reachOf p
  if (beAt 6 1 f).testBit 0 || !s.rdb P.TBL_LEARN_EN p || streamNoLearn l.entry then s
  else if (s.tables.learns.filter fun x => x.reach == r).length < 4096 then
    s.setTables fun x => { x with learns := x.learns ++ [⟨r, l.vid, srcMac f, p, ns⟩] }
  else s.count P.TBL_LEARN_DROP r

/-- Whether a running flush suppresses a learn that would give its key to its port (R302). -/
def State.learnSuppressed (s : State) (l : Learn) : Bool :=
  s.tables.flushes.any fun f =>
    f.reaches.contains l.reach && f.port == l.port && (match f.vid with | some v => v == l.vid | none => true)

/-- A station move (R295). -/
def MacEntry.move (e : MacEntry) (p ns window : Nat) : MacEntry :=
  let x := { e with dest := p, kind := 0, lastStamp := ns % 2 ^ 32, recent := true }
  if e.moves = 0 ∨ (window : Int) * 1000 < stampDiff (ns % 2 ^ 32) e.winStamp then
    { x with moves := 1, winStamp := ns % 2 ^ 32, firstPort := p }
  else if e.moves + 1 < 4 then { x with moves := e.moves + 1 }
  else { x with moves := 4, flapping := true, dest := e.firstPort }

/-- A learn applied (R294, R295). -/
def State.applyLearn (s : State) (l : Learn) : State :=
  let r := l.reach
  let ns := l.ns % 2 ^ 32
  match s.macFind r l.vid l.mac with
  | none =>
    if s.learnSuppressed l then s.count P.TBL_LEARN_SUPPR r
    else
      let e : MacEntry := ⟨l.vid, l.mac, false, false, 0, true, 0, l.port, 0, 0, ns, 0, true⟩
      let x := s.macPlace r (s.rd P.TBL_SEED r) e
      if x.2.1 then x.1.count P.TBL_LEARNS r else x.1.learnFailed r l.vid l.mac
  | some (i, e) =>
    let e := { e with hit := true }
    if e.recent ∧ stampDiff ns e.lastStamp < 0 then (s.macSet r i (some e)).count P.TBL_LEARN_STALE r
    else if e.kind = 0 ∧ e.dest = l.port then
      (s.macSet r i (some { e with lastStamp := ns, recent := true })).count P.TBL_LEARNS r
    else if e.static ∨ e.flapping then (s.macSet r i (some e)).count P.TBL_MOVE_REFUSED r
    else if s.learnSuppressed l then s.count P.TBL_LEARN_SUPPR r
    else
      let e' := e.move l.port l.ns (s.rd P.TBL_MOVE_WINDOW)
      let t := (s.macSet r i (some e')).count P.TBL_MOVES r
      if e'.flapping then
        (t.orIn P.TBL_FLAGS 0 2).notice 1 (toBe 1 r ++ zeros 1 ++ toBe 2 l.vid ++ toBe 6 l.mac ++ toBe 2 e'.dest ++
          toBe 2 l.port ++ zeros 2)
      else t

/-- The learn request of a reach that comes next: the earliest stamp, then the lower port (R293). -/
def nextLearn (r : Nat) (ls : List Learn) : Option Learn :=
  (ls.filter fun l => l.reach == r).foldl (fun best l =>
    match best with
    | none => some l
    | some b => if l.ns < b.ns ∨ (l.ns = b.ns ∧ l.port < b.port) then some l else some b) none

/-- LEARN_APPLY (R291, R293, R294): the next held request of a reach is applied once its hold has passed; one older than 1 s is
dropped. `macErr` says that the entry its lookup reads is uncorrectable. -/
def execLearnApply (read : LearnRead) (s : State) : Host.Outcome State Fault Refusal :=
  match nextLearn read.reach.val s.tables.learns with
  | none => .next s
  | some l =>
    if s.modNs < l.ns + s.rd P.TBL_LEARN_HOLD * 1000 then .next s
    else
      let t := s.setTables fun x => { x with learns := x.learns.erase l }
      if l.ns + 1000000000 < s.modNs then .next (t.count P.TBL_LEARN_DROP read.reach.val)
      else .next ((t.macLost l.reach l.vid l.mac read.macErr).applyLearn l)

/-- AGEING_SWEEP (R297): every TBL_AGE_TIME, entries without HIT leave and the others lose HIT. -/
def execAgeingSweep (reach : Fin 8) (s : State) : Host.Outcome State Fault Refusal :=
  let r := reach.val
  if s.rd P.TBL_AGE_TIME = 0 ∨ s.clock < look r 0 s.tables.aged + 1000000000 * s.rd P.TBL_AGE_TIME then .next s
  else
    let t := s.setTables fun x => { x with aged := store ltNat r 0 s.clock x.aged }
    .next ((s.macAll r).foldl (fun t x =>
      if x.2.hit then t.macSet r x.1 (some { x.2 with hit := false })
      else if x.2.static ∨ x.2.flapping then t
      else (t.macSet r x.1 none).count P.TBL_AGED r) t)

/-- An entry after a settle sweep at `now`, the low 32 bits of module time (R290): RECENT and MOVES fall where their stamps lie more than
1 s back. -/
def MacEntry.settle (e : MacEntry) (now : Nat) : MacEntry :=
  if e.flapping then e
  else { e with
    recent := e.recent && !decide (1000000000 < stampDiff now e.lastStamp),
    moves := if 1000000000 < stampDiff now e.winStamp then 0 else e.moves }

/-- SETTLE_SWEEP (R290): once per second of module time. -/
def execSettleSweep (reach : Fin 8) (s : State) : Host.Outcome State Fault Refusal :=
  let r := reach.val
  if s.clock < look r 0 s.tables.settled + 1000000000 then .next s
  else
    let t := s.setTables fun x => { x with settled := store ltNat r 0 s.clock x.settled }
    .next ((s.macAll r).foldl (fun t x => t.macSet r x.1 (some (x.2.settle (s.now % 2 ^ 32)))) t)

/-! ## Epochs and fences (R303, R305) -/

/-- The epoch of reach `r` advances (R303). -/
def State.epochUp (s : State) (r : Nat) : State := s.wr P.TBL_EPOCH r ((s.rd P.TBL_EPOCH r + 1) % 65536)

/-- The frames that still hold a fence (R305). -/
def State.fenceFrames (s : State) (f : Fence) : Nat :=
  (s.fabric.frames.filter fun x => x.reach == f.reach && decide (x.id < f.mark) && x.slot.isNone && !x.gone).length

/-- A fence of a job opened in reach `r` at the epoch advance. -/
def State.openFence (s : State) (r job : Nat) : State :=
  s.setTables fun x => { x with fences := x.fences ++ [⟨r, job, s.fabric.nextFrame, s.clock⟩] }

/-- The oldest pending fence of reach `r`. -/
def State.oldestFence (s : State) (r : Nat) : Option Fence := s.tables.fences.find? fun f => f.reach == r

/-- The final reply of a job: a TBL_DELETE carries its deleted mask, a TBL_FLUSH_PORT its count (R299). -/
def TblJob.reply (j : TblJob) : List Byte :=
  if j.origin.opcode = Op.TBL_DELETE then toBe 1 j.deleted ++ zeros 3 else toBe 4 j.removed ++ zeros 4

/-- A job without a walk or a fence left answers DONE (R305). -/
def State.settleJob (s : State) (id : Nat) : State :=
  match findBy TblJob.id id s.tables.jobs with
  | some j =>
    if j.walking = [] ∧ j.fenced = [] then
      (s.setTables fun x => { x with jobs := dropBy TblJob.id id x.jobs }).finish j.origin Status.DONE j.reply
    else s
  | none => s

/-- Job `id` changed. -/
def State.setJob (s : State) (id : Nat) (f : TblJob → TblJob) : State :=
  s.setTables fun x => { x with jobs := updBy TblJob.id id f x.jobs }

/-- DRAIN_FENCE_COMPLETE (R305): the oldest fence of a reach completes once no frame holds it. -/
def execDrainFenceComplete (reach : Fin 8) (s : State) : Host.Outcome State Fault Refusal :=
  match s.oldestFence reach.val with
  | some f =>
    if s.fenceFrames f = 0 then
      .next (((s.setTables fun x => { x with fences := x.fences.erase f }).setJob f.job fun j =>
        { j with fenced := j.fenced.erase f.reach }).settleJob f.job)
    else .next s
  | none => .next s

/-! ## Records and replies (R290, R299) -/

/-- The 24-byte record of an entry (R290). -/
def State.macRecord (s : State) (r i : Nat) (e : MacEntry) : List Byte :=
  let bank := i / 65536
  let v := 2 ^ 127 + b2n e.static * 2 ^ 126 + b2n e.flapping * 2 ^ 125 + b2n (e.gen == s.rd P.TBL_GEN r) * 2 ^ 124 +
    b2n e.hit * 2 ^ 123 + e.kind * 2 ^ 122 + e.dest * 2 ^ 108 + e.moves * 2 ^ 105 + e.firstPort * 2 ^ 96 +
    e.lastStamp * 2 ^ 64 + e.winStamp * 2 ^ 32 + bank * 2 ^ 29 + i % 65536 * 2 ^ 13 + b2n e.recent * 2 ^ 12
  toBe 2 e.vid ++ toBe 6 e.mac ++ toBe 16 v

/-- The bits of a reach mask. -/
def reachesOf (mask : Nat) : List Nat := setBits 8 mask

/-- TBL_SEARCH (R299). -/
def tblSearch (o : Origin) (p : List Byte) (s : State) : State :=
  let kind := beAt 0 1 p
  let mask := beAt 1 1 p
  if 1 < kind ∨ mask = 0 ∨ (kind = 0 ∧ 4095 < beAt 4 2 p) then s.finish o Status.BAD_VALUE []
  else
    let one (r : Nat) : List Byte :=
      if kind = 0 then
        match s.macFind r (beAt 4 2 p) (beAt 6 6 p) with
        | some (i, e) => toBe 1 r ++ [1] ++ zeros 2 ++ s.macRecord r i e
        | none => toBe 1 r ++ [0] ++ zeros 2 ++ slice 4 8 p ++ zeros 16
      else
        toBe 1 r ++ [1] ++ zeros 2 ++ toBe 2 (beAt 4 2 p) ++ zeros 6 ++
          toBe 8 (look (r, beAt 4 2 p) 0 s.tables.stream) ++ zeros 8
    let rs := reachesOf mask
    s.finish o Status.OK (toBe 1 rs.length ++ zeros 3 ++ (rs.map one).flatten)

/-- The entries of one table of reach `r` from a cursor on, as slot or id and record, at most `n` and one more. -/
def State.tableFrom (s : State) (r kind cursor n : Nat) : List (Nat × List Byte) :=
  if kind = 0 then
    (((s.macAll r).filter fun x => decide (cursor ≤ x.1)).take (n + 1)).map fun x => (x.1, s.macRecord r x.1 x.2)
  else
    ((List.range (n + 1)).map fun i => cursor + i).filterMap fun id =>
      if id < 65536 then
        some (id, toBe 2 id ++ zeros 6 ++ toBe 8 (look (r, id) 0 s.tables.stream) ++ zeros 8)
      else none

/-- TBL_NEXT (R299, R301). -/
def tblNext (o : Origin) (p : List Byte) (s : State) : State :=
  let r := beAt 0 1 p
  let kind := beAt 1 1 p
  let n := beAt 2 2 p
  if 7 < r ∨ 1 < kind ∨ n = 0 ∨ 169 < n then s.finish o Status.BAD_VALUE []
  else
    let found := s.tableFrom r kind (beAt 4 4 p) n
    let next := match found[n]? with | some x => x.1 | none => 0xFFFFFFFF
    let now := found.take n
    s.finish o Status.OK (toBe 4 next ++ toBe 4 (s.rd P.TBL_DISPLACE_SEQ r) ++ toBe 2 now.length ++ zeros 2 ++
      (now.map fun x => x.2).flatten)

/-- The entry that a TBL_INSERT writes (R299, R300). -/
def insertEntry (key result now : Nat) : MacEntry :=
  ⟨field 59 48 key, field 47 0 key, bit 126 result, false, 0, true, field 122 122 result, field 121 108 result, 0, 0,
    now % 2 ^ 32, 0, true⟩

/-- One reach's part of a TBL_INSERT (R300, R303): the state and whether the entry is placed. -/
def State.insertIn (s : State) (r : Nat) (e : MacEntry) : State × Bool :=
  match s.macFind r e.vid e.mac with
  | some (i, old) => ((s.macSet r i (some { e with gen := old.gen })).epochUp r, true)
  | none =>
    let x := s.macPlace r (s.rd P.TBL_SEED r) e
    if x.2.1 then (x.1.epochUp r, true) else ((x.1.orIn P.TBL_FLAGS 0 1).rehashNeeded r 1 e.vid e.mac, false)

/-- TBL_INSERT (R299, R300). -/
def tblInsert (o : Origin) (p : List Byte) (s : State) : State :=
  let mask := beAt 0 1 p
  let result := beAt 12 16 p
  let kind := field 122 122 result
  let dest := field 121 108 result
  if mask = 0 ∨ 4095 < beAt 4 2 p ∨ ¬ bit 127 result ∨ (kind = 0 ∧ 511 < dest) then s.finish o Status.BAD_VALUE []
  else
    let e := insertEntry (beAt 4 8 p) result s.now
    let x := (reachesOf mask).foldl (fun (acc : State × Nat × Nat) r =>
      let y := acc.1.insertIn r e
      if y.2 then (y.1, setBit r acc.2.1, acc.2.2) else (y.1, acc.2.1, setBit r acc.2.2)) (s, 0, 0)
    (if x.2.1 = 0 then x.1 else x.1.configUp).finish o (if x.2.2 = 0 then Status.OK else Status.TABLE_FULL) (toBe 1 x.2.1 ++ toBe 1 x.2.2 ++ zeros 2)

/-- TBL_DELETE (R299, R303, R305): the key leaves the reaches that hold it, whose fences the answer waits for. -/
def tblDelete (o : Origin) (p : List Byte) (s : State) : State :=
  let mask := beAt 0 1 p
  let vid := beAt 4 2 p
  if mask = 0 ∨ 4095 < vid then s.finish o Status.BAD_VALUE []
  else
    let hits := (reachesOf mask).filterMap fun r => (s.macFind r vid (beAt 6 6 p)).map fun x => (r, x.1)
    if hits = [] then s.finish o Status.NOT_FOUND []
    else
      let id := s.tables.nextJob
      let rs := hits.map fun x => x.1
      let t := s.setTables fun x => { x with
        nextJob := id + 1, jobs := x.jobs ++ [⟨id, o, [], [], rs, rs.foldl (fun m r => setBit r m) 0, 0⟩] }
      let t := hits.foldl (fun u x => ((u.macSet x.1 x.2 none).epochUp x.1).openFence x.1 id) t
      t.configUp.accept o

/-- Whether a TBL_FLUSH_PORT or a TBL_REHASH that names reach `r` still runs: it has not answered DONE or ABORTED (R43, R307). -/
def State.walkRuns (s : State) (r : Nat) : Bool :=
  s.tables.jobs.any (fun j => j.reaches.contains r) || s.tables.rehash.any fun x => x.1 == r

/-- TBL_FLUSH_PORT (R299, R302, R307). -/
def tblFlushPort (o : Origin) (p : List Byte) (s : State) : State :=
  let port := beAt 0 2 p
  let flags := beAt 2 1 p
  let mask := beAt 3 1 p
  let vid := beAt 4 2 p
  if s.rd P.PWR_SHUTTER_STATE ≠ 0 then s.finish o Status.SHUTTER_ACTIVE []
  else if mask = 0 ∨ 511 < port ∨ 4095 < vid then s.finish o Status.BAD_VALUE []
  else if (reachesOf mask).any s.walkRuns then s.finish o Status.IN_PROGRESS []
  else
    let id := s.tables.nextJob
    let rs := reachesOf mask
    let t := s.setTables fun x => { x with
      nextJob := id + 1, jobs := x.jobs ++ [⟨id, o, rs, rs, [], 0, 0⟩],
      flushes := x.flushes ++ [⟨id, rs, port, if flags.testBit 0 then some vid else none, flags.testBit 1⟩] }
    t.accept o

/-- FLUSH_WALK_END (R302, R303, R517): the walk of a reach ends, its matching entries are gone, and the epoch advances where the walk
removed something; the first advance of the command raises SYS_CONFIG_GEN. -/
def execFlushWalkEnd (reach : Fin 8) (s : State) : Host.Outcome State Fault Refusal :=
  let r := reach.val
  match s.tables.flushes.find? fun f => f.reaches.contains r with
  | none => .next s
  | some f =>
    let hit := (s.macAll r).filter fun x =>
      x.2.kind == 0 && x.2.dest == f.port && (match f.vid with | some v => x.2.vid == v | none => true) &&
        (f.static || !x.2.static)
    let before := match findBy TblJob.id f.job s.tables.jobs with | some j => bit r j.deleted | none => false
    let first := match findBy TblJob.id f.job s.tables.jobs with
      | some j => (setBits 8 j.deleted).all j.walking.contains
      | none => false
    let t := hit.foldl (fun u x => u.macSet r x.1 none) s
    let t := t.setTables fun x => { x with flushes :=
      (x.flushes.map fun g => if g.job = f.job then { g with reaches := g.reaches.erase r } else g).filter fun g => g.reaches != [] }
    let any := hit != [] || before
    let t := t.setJob f.job fun j => { j with
      walking := j.walking.erase r, removed := j.removed + hit.length, fenced := if any then j.fenced ++ [r] else j.fenced,
      deleted := if any then setBit r j.deleted else j.deleted }
    let t := if any then (t.epochUp r).openFence r f.job else t
    let t := if any && first then t.configUp else t
    .next (t.settleJob f.job)

/-! ## Rehashing (R306, R307) -/

/-- The payload of a finished TBL_REHASH (R306). -/
def State.rehashReply (s : State) (r moved displaced : Nat) : List Byte :=
  toBe 4 moved ++ toBe 4 displaced ++ toBe 4 (s.rd P.TBL_REHASH_CURSOR r) ++ toBe 1 (s.rd P.TBL_STASH_USED r) ++
    toBe 1 (s.rd P.TBL_REHASH_STATE r) ++ zeros 2

/-- TBL_REHASH (R306, R307). -/
def tblRehash (o : Origin) (p : List Byte) (s : State) : State :=
  let r := beAt 0 1 p
  let seed := beAt 4 4 p
  if s.rd P.PWR_SHUTTER_STATE ≠ 0 then s.finish o Status.SHUTTER_ACTIVE []
  else if 7 < r then s.finish o Status.BAD_VALUE []
  else if s.walkRuns r then s.finish o Status.IN_PROGRESS []
  else
    let mixed := s.rd P.TBL_REHASH_STATE r == 2
    if !mixed && seed == s.rd P.TBL_SEED r then s.finish o Status.BAD_VALUE []
    else if mixed && seed != s.rd P.TBL_SEED r then s.finish o Status.NOT_READY []
    else
      let t := if mixed then s else
        (((s.wr P.TBL_SEED_OLD r (s.rd P.TBL_SEED r)).wr P.TBL_SEED r seed).wr P.TBL_GEN r (1 - s.rd P.TBL_GEN r)).wr
          P.TBL_REHASH_CURSOR r 0
      let t := (t.wr P.TBL_REHASH_STATE r 1).setTables fun x => { x with rehash := x.rehash ++ [(r, o)] }
      t.accept o

/-- The walk of a rehash over the slots in order (R306): the entries moved and the displacements so far. It stops at the
slot whose placement fails with the stash full. -/
def State.rehashWalk (s : State) (r : Nat) : List Nat → Nat → Nat → State × Bool × Nat × Nat
  | [], moved, disp => (s.wr P.TBL_REHASH_CURSOR r 262152, true, moved, disp)
  | i :: is, moved, disp =>
    match s.macAt r i with
    | none => s.rehashWalk r is moved disp
    | some e =>
      if i < 262144 ∧ e.gen = s.rd P.TBL_GEN r then s.rehashWalk r is moved disp
      else
        let x := (s.macSet r i none).macPlace r (s.rd P.TBL_SEED r) e
        let t := if x.2.1 then x.1 else x.1.macSet r i (some e)
        if x.2.1 then
          let n := if 262144 ≤ i ∧ (t.macAt r i).isSome then moved else moved + 1
          t.rehashWalk r is n (disp + x.2.2)
        else if 262144 ≤ i then t.rehashWalk r is moved (disp + x.2.2)
        else (t.wr P.TBL_REHASH_CURSOR r i, false, moved, disp + x.2.2)

/-- REHASH_WALK_END (R306). -/
def execRehashWalkEnd (reach : Fin 8) (s : State) : Host.Outcome State Fault Refusal :=
  let r := reach.val
  match s.tables.rehash.find? fun x => x.1 == r with
  | none => .next s
  | some (_, o) =>
    let slots := ((s.macAll r).map fun x => x.1).filter fun i => decide (s.rd P.TBL_REHASH_CURSOR r ≤ i)
    let w := s.rehashWalk r slots 0 0
    let t := w.1.setTables fun x => { x with rehash := x.rehash.filter fun y => y.1 != r }
    if w.2.1 then
      let t := t.wr P.TBL_REHASH_STATE r 0
      .next (t.finish o Status.DONE (t.rehashReply r w.2.2.1 w.2.2.2))
    else
      let t := (t.wr P.TBL_REHASH_STATE r 2).orIn P.TBL_FLAGS 0 4
      .next (t.finish o Status.ABORTED (t.rehashReply r w.2.2.1 w.2.2.2))

/-! ## Stream table and flap commands -/

/-- Whether a Stream entry may be written: no reserved bit set (R287); every MIRROR_PORT and LOCK_GROUP that its field can
hold lies in range. -/
def streamLegal (e : Nat) : Bool := decide (field 9 0 e = 0)

/-- One Stream entry written in all eight copies and in the master copy (R287, R288). -/
def State.streamSet (s : State) (sid e : Nat) : State :=
  s.setTables fun x => { x with
    stream := (List.range 8).foldl (fun m r => store ltPair (r, sid) 0 e m) x.stream,
    master := store ltNat sid 0 e x.master,
    bad := x.bad.filter fun b => b.2 != sid }

/-- TBL_STREAM_WRITE (R287, R303, R395). A reserved bit of its head or of an entry makes it BAD_VALUE. -/
def tblStreamWrite (o : Origin) (p : List Byte) (s : State) : State :=
  let first := beAt 0 2 p
  let count := beAt 2 2 p
  let head := beAt 4 1 p / 2 + beAt 5 3 p
  let fill := (beAt 4 1 p).testBit 0
  let n := if fill then 1 else count
  if !fill && count == 0 then s.finish o Status.BAD_VALUE []
  else
    let total := if fill ∧ count = 0 then 65536 else count
    let entries := (List.range n).map fun i => beAt (8 + 8 * i) 8 p
    if 65536 < first + total || head != 0 || !(entries.all streamLegal) then s.finish o Status.BAD_VALUE []
    else if s.frozenMaster 12 then s.failInternal o
    else
      let t := (List.range total).foldl (fun u i =>
        u.streamSet (first + i) (entries.getD (if fill then 0 else i) 0)) s
      let t := (List.range 8).foldl State.epochUp t
      t.configUp.finish o Status.OK []

/-- TBL_CLEAR_FLAP (R290, R299, R303). -/
def tblClearFlap (o : Origin) (p : List Byte) (s : State) : State :=
  let r := beAt 0 1 p
  if 7 < r ∨ 4095 < beAt 4 2 p then s.finish o Status.BAD_VALUE []
  else
    match s.macFind r (beAt 4 2 p) (beAt 6 6 p) with
    | some (i, e) =>
      if e.flapping then
        ((s.macSet r i (some { e with flapping := false, moves := 0 })).epochUp r).configUp.finish o Status.OK []
      else s.finish o Status.NOT_FOUND []
    | none => s.finish o Status.NOT_FOUND []

/-- STREAM_ENTRY_REWRITE (R288): firmware rewrites an entry copy that read uncorrectable from the master copy, or, while
master 12 is frozen, leaves it as it is (R395). -/
def execStreamEntryRewrite (reach : Fin 8) (sid : BitVec 16) (s : State) : Host.Outcome State Fault Refusal :=
  let k := (reach.val, sid.toNat)
  if s.tables.bad.contains k ∧ ¬ s.frozenMaster 12 then
    .next (s.setTables fun x => { x with
      bad := x.bad.erase k, stream := store ltPair k 0 (look sid.toNat 0 x.master) x.stream })
  else .next s

/-- The MAC table of reach `r` empty, with epoch 0 and state IDLE, as a loss and as a wake of its domain leave it (R303, R308). -/
def State.reachEmpty (s : State) (r : Nat) : State :=
  let t := (s.macAll r).foldl (fun u x => u.macSet r x.1 none) s
  ((t.wr P.TBL_EPOCH r 0).wr P.TBL_REHASH_STATE r 0).wr P.TBL_REHASH_CURSOR r 0

/-- The tables of reach `r` as a loss of its domain leaves them (R308): no entry, epoch 0, state IDLE; its walks and
commands end ABORTED, and its frames no longer hold a fence. -/
def State.reachLost (s : State) (r : Nat) : State :=
  let t := s.reachEmpty r
  let t := t.setTables fun x => { x with learns := x.learns.filter fun l => l.reach != r }
  let jobs := t.tables.jobs.filter fun j => j.walking.contains r || j.fenced.contains r
  let t := jobs.foldl (fun u j =>
    (u.setTables fun x => { x with
      jobs := dropBy TblJob.id j.id x.jobs, fences := dropBy Fence.job j.id x.fences,
      flushes := dropBy Flush.job j.id x.flushes }).finish j.origin Status.ABORTED []) t
  match t.tables.rehash.find? fun x => x.1 == r with
  | some (_, o) =>
    (t.setTables fun x => { x with rehash := x.rehash.filter fun y => y.1 != r }).finish o Status.ABORTED
      (t.rehashReply r 0 0)
  | none => t

/-- A wake of a reach's domain leaves its MAC table empty and restores its Stream copies from the master copy, or to R286 values while
master 12 is frozen (R288, R303, R395). -/
def State.streamRestore (s : State) (r : Nat) : State :=
  let s := s.reachEmpty r
  let keep := s.tables.stream.filter fun e => e.1.1 != r
  let back := if s.frozenMaster 12 then [] else s.tables.master
  s.setTables fun x => { x with
    stream := back.foldl (fun m e => store ltPair (r, e.1) 0 e.2 m) keep, bad := x.bad.filter fun b => b.1 != r }

end Sys2Proof.Machine
end

