-- ==== Sys2Proof/Machine/Logbook.lean ====
section
/-! DEFINITION. The logbook (R334 to R355): records, rings and the spill area, seals and the signing key. -/

namespace Sys2Proof.Machine

/-- The logbook engine changed. -/
def State.setLog (s : State) (f : Logbook → Logbook) : State := { s with log := f s.log }

/-- A channel with nothing written yet. -/
def LogChannel.blank (c : Nat) : LogChannel := ⟨c, none, false, false, [], 0, 0, ⟨0, 0, 0, 0⟩⟩

/-- Channel `c`. -/
def State.chan (s : State) (c : Nat) : LogChannel := (findBy LogChannel.num c s.log.chans).getD (LogChannel.blank c)

/-- Channel `c` changed. -/
def State.setChan (s : State) (c : Nat) (f : LogChannel → LogChannel) : State :=
  if (findBy LogChannel.num c s.log.chans).isSome then s.setLog fun x => { x with chans := updBy LogChannel.num c f x.chans }
  else s.setLog fun x => { x with chans := x.chans ++ [f (LogChannel.blank c)] }

/-- Whether channel `c` writes: enabled, and with a ring named (R341, LOG_RING). -/
def State.chanOn (s : State) (c : Nat) : Bool := s.rdb P.LOG_CH_ENABLE c && decide (s.rd P.LOG_RING c < 16)

/-! ## Slots -/

/-- The 32-byte slots of an item. -/
def LogItem.slots (i : LogItem) : Nat := i.bytes.length / 32

/-- The slots of ring `g` behind its producer index. -/
def State.stagedSlots (s : State) (g : Nat) : Nat :=
  ((s.log.staged.filter fun x => x.1 == g).map fun x => x.2.slots).foldl (· + ·) 0

/-- Whether ring `g` takes `n` more slots: it exists, the link is up and master 3 is not frozen (R341, R482). -/
def State.logRoom (s : State) (g n : Nat) : Bool :=
  match s.ring g with
  | some r =>
    s.linkUp && !s.frozenMaster 3 && s.rd P.HST_RING_STATE g == 1 &&
      decide (inUse r.prod r.cons + s.stagedSlots g + n ≤ r.size)
  | none => false

/-- The slots of an item written to host memory from the ring index `i` on. -/
def State.writeSlots (s : State) (r : Ring) (i : Nat) : Nat → List Byte → State
  | 0, _ => s
  | n + 1, bs => (s.emit (.hostWrite (r.slotAddr 32 i) (bs.take 32))).writeSlots r (advance i 1) n (bs.drop 32)

/-- The producer index of ring `g` passes the slots that are complete (R349, R478). -/
def State.passRing (s : State) (g : Nat) : State :=
  let mine := (s.log.staged.filter fun x => x.1 == g).map fun x => x.2
  let done := mine.takeWhile fun i => i.signing.isNone
  if done = [] then s
  else
    let n := (done.map LogItem.slots).foldl (· + ·) 0
    let rest := mine.drop done.length
    let t := s.setLog fun x => { x with staged := (x.staged.filter fun y => y.1 != g) ++ rest.map fun i => (g, i) }
    match t.ring g with
    | some r => (t.setRing g fun r => { r with prod := advance r.prod n }).writeIndex g (advance r.prod n)
    | none => t

/-- An item takes its slots in ring `g`; a seal that waits for its signature is written when it is signed (R349). -/
def State.stage (s : State) (g : Nat) (i : LogItem) : State :=
  match s.ring g with
  | some r =>
    let t := if i.signing.isNone then s.writeSlots r (advance r.prod (s.stagedSlots g)) i.slots i.bytes else s
    (t.setLog fun x => { x with staged := x.staged ++ [(g, i)] }).passRing g
  | none => s

/-! ## The spill area (R341 to R343) -/

/-- The slots of the spill area, those kept for seals, GAP and MARK records. -/
def spillSlots : Nat := 524288

/-- LOG_SPILL_USED brought up to date. -/
def State.spillCount (s : State) : State :=
  let n := (s.log.spill.map LogItem.slots).foldl (· + ·) 0
  (s.wr P.LOG_SPILL_USED 0 n).peak P.LOG_SPILL_PEAK 0 n

/-- Whether the condition of R342 is raised by the present use: the limit reached, or master 14 frozen (R395). -/
def State.spillFull (s : State) : Bool :=
  s.frozenMaster 14 || decide (s.rd P.LOG_SPILL_LIMIT ≤ s.rd P.LOG_SPILL_USED)

/-- LOG_HOLD_TIME brought up to the present, while the policy is HOLD (R342) and switching runs (R22). -/
def State.holdSettle (s : State) : State :=
  match s.log.holdSince with
  | some t0 =>
    let t := if s.rd P.LOG_FULL_POLICY = 0 ∧ ¬ s.switchStopped then
        s.wr P.LOG_HOLD_TIME 0 ((s.rd P.LOG_HOLD_TIME + (s.clock - t0)) % 2 ^ 64) else s
    t.setLog fun x => { x with holdSince := some s.clock }
  | none => s

/-- HOLD_SEEN is set while the condition of R342 stands under HOLD, after a change of the policy too (R354, R355). -/
def State.holdSeen (s : State) : State :=
  if s.rdb P.LOG_HOLD_ACTIVE ∧ s.rd P.LOG_FULL_POLICY = 0 then s.orIn P.LOG_FLAGS 0 1 else s

/-- The condition of R342 is raised. -/
def State.holdRaise (s : State) : State :=
  if s.rdb P.LOG_HOLD_ACTIVE ∨ ¬ s.spillFull then s
  else
    (s.wr P.LOG_HOLD_ACTIVE 0 1).holdSeen.setLog fun x => { x with holdSince := some s.clock }

/-- An item written to the ring of its channel, or to the spill area while the ring has no room or the spill area holds
something of the channel; the state, and whether there was room (R341, R343). -/
def State.logPut (s : State) (i : LogItem) : State × Bool :=
  let g := 128 + s.rd P.LOG_RING i.chan
  if !(s.log.spill.any fun x => x.chan == i.chan) && s.logRoom g i.slots then (s.stage g i, true)
  else if s.frozenMaster 14 ∨ spillSlots < s.rd P.LOG_SPILL_USED + i.slots then (s, false)
  else (((s.setLog fun x => { x with spill := x.spill ++ [i] }).spillCount).holdRaise, true)

/-! ## Records (R337 to R340) -/

/-- A record joins its channel: its index is taken and it is hashed in the span. -/
def State.appendRecord (s : State) (c : Nat) (bytes : List Byte) : State × Bool :=
  let x := s.logPut ⟨c, bytes, none⟩
  if x.2 then
    ((x.1.wr P.LOG_RECORDS c ((x.1.rd P.LOG_RECORDS c + 1) % 2 ^ 64)).setChan c fun y => { y with span := y.span ++ [bytes] },
      true)
  else x

/-- Bytes 0 to 3 of a record (R337), with its timing byte. -/
def State.recordHead (s : State) (c kind timing : Nat) : List Byte :=
  toBe 1 (c * 16 + kind) ++ toBe 1 timing ++ toBe 2 (s.rd P.LOG_RECORDS c % 65536)

/-- The FRAME record of a frame (R337). The spec gives no value to data bytes that an express frame has not received when
its record is written; they are a free value. -/
def State.frameRecord (s : State) (c : Nat) (f : Frame) : List Byte :=
  let off := s.rd P.LOG_DATA_OFFSET c
  let tail := if f.ended then zeros 8 else toBe 8 ((Config.random s.fresh).toNat % 2 ^ 64)
  s.recordHead c 0 f.timing ++ toBe 8 f.stamp.ns ++ toBe 2 f.stamp.sub ++ toBe 1 f.stamp.code ++ toBe 1 f.stamp.flags ++
    toBe 2 f.port ++ toBe 2 f.sid ++ toBe 2 f.len ++ toBe 1 (b2n (f.ended && decide (f.size < off + 8)) + 2 * b2n f.express) ++
    zeros 1 ++ (f.data.drop off ++ tail).take 8

/-- A GAP record of channel `c`, and its notice (R338, R342). -/
def State.gapRecord (s : State) (c : Nat) : State :=
  let x := s.chan c
  if x.gap = 0 then s
  else
    let bytes := s.recordHead c 1 s.timingByte ++ toBe 8 x.gapStamp.ns ++ toBe 2 x.gapStamp.sub ++ toBe 1 x.gapStamp.code ++ zeros 1 ++
      toBe 4 0xFFFFFFFF ++ zeros 4 ++ toBe 8 x.gap
    let y := s.appendRecord c bytes
    if y.2 then
      ((y.1.setChan c fun z => { z with gap := 0 }).orIn P.LOG_FLAGS 0 2).notice 13
        (toBe 1 c ++ zeros 3 ++ toBe 8 x.gap ++ toBe 8 x.gapStamp.ns)
    else s

/-- The condition of R342 clears when the spill area has fallen to LOG_SPILL_RESUME. -/
def State.holdClear (s : State) : State :=
  if s.rdb P.LOG_HOLD_ACTIVE ∧ ¬ s.frozenMaster 14 ∧ s.rd P.LOG_SPILL_USED ≤ s.rd P.LOG_SPILL_RESUME then
    let t := (s.holdSettle.wr P.LOG_HOLD_ACTIVE 0 0).setLog fun x => { x with holdSince := none }
    (List.range 16).foldl State.gapRecord t
  else s

/-- A frame of a logged stream enters its inlet queue (R334, R335, R342): the state, and the channel and index of its
record. Under GAP while the condition holds the frame is counted instead. -/
def State.logFrame (s : State) (entry : Nat) (f : Frame) : State × Option (Nat × Nat) :=
  let c := streamChannel entry
  if !streamLog entry then (s, none)
  else if !s.rdb P.LOG_CH_ENABLE c then (s.count P.LOG_UNROUTED c, none)
  else if !s.chanOn c then (s, none)
  else
    let unlogged (t : State) : State :=
      (t.count P.LOG_UNLOGGED c).setChan c fun x => { x with
        unlogged := x.unlogged + 1, gap := x.gap + 1, gapStamp := if x.gap = 0 then f.stamp else x.gapStamp }
    if s.rdb P.LOG_HOLD_ACTIVE then (unlogged s, none)
    else
      let n := s.rd P.LOG_RECORDS c
      let x := { s with fresh := s.fresh + 1 }.appendRecord c (s.frameRecord c f)
      if x.2 then (x.1, some (c, n)) else (unlogged x.1, none)

/-- Whether HOLD bars a frame of a stream from its inlet queue (R342). -/
def State.logBars (s : State) (entry : Nat) : Bool :=
  streamLog entry && s.rdb P.LOG_CH_ENABLE (streamChannel entry) && s.rdb P.LOG_HOLD_ACTIVE &&
    s.rd P.LOG_FULL_POLICY == 0

/-- A release mark for a copy of a logged frame (R325, R339). -/
def State.logMark (s : State) (f : Frame) (port kind cause : Nat) (x : Stamp) : State :=
  match f.log with
  | none => s
  | some (c, n) =>
    if !s.chanOn c then s
    else
      let bytes := s.recordHead c 2 s.timingByte ++ toBe 8 x.ns ++ toBe 2 x.sub ++ toBe 1 x.code ++ toBe 1 x.flags ++ toBe 2 port ++
        toBe 2 f.sid ++ toBe 2 f.len ++ toBe 1 kind ++ toBe 1 cause ++ toBe 8 n
      let y := s.appendRecord c bytes
      if y.2 then y.1 else (s.count P.LOG_MARK_LOST).orIn P.LOG_FLAGS 0 16

/-! ## Seals (R345 to R350) -/

/-- Whether a seal written now carries KEY_ABSENT (R351, R395); the bank of the key is refused while a wipe runs (R400). -/
def State.keyAbsent (s : State) : Bool :=
  s.rd P.LOG_KEY_STATE != 2 || s.frozenMaster 11 || s.frozenMaster 14 || s.rdb P.SPD_WIPE_BUSY

/-- Bytes 0 to 63 of a seal of the instant `at_` (R346, R347). -/
def State.sealHead (s : State) (x : LogChannel) (shutter : Bool) (at_ : Nat) : List Byte :=
  let gap := x.unlogged != 0 || x.span.any fun r => beAt 0 1 r % 16 == 1
  let flags := b2n s.keyAbsent + 2 * b2n x.head.isNone + 4 * b2n (x.head.isNone && x.wiped) + 8 * b2n shutter +
    16 * b2n x.merged + 32 * b2n gap
  toBe 1 (x.num * 16 + 3) ++ toBe 1 flags ++ toBe 1 (s.rd P.REF_TSTATE) ++ toBe 1 (s.rd P.REF_ACTIVE) ++
    toBe 8 (s.rd P.LOG_SEAL_SEQ x.num) ++ toBe 8 at_ ++ toBe 4 (s.rd P.TBS_BOUND_PS) ++ toBe 1 (s.rd P.TBS_BOUND_NOW) ++
    toBe 1 (s.rd P.COR_ACTIVE) ++ toBe 2 (if s.keyAbsent then 0 else s.rd P.LOG_KEY_SERIAL) ++ toBe 4 x.span.length ++
    toBe 8 (s.rd P.LOG_RECORDS x.num) ++ toBe 8 x.unlogged ++ zeros 16

/-- Whether a seal of channel `c` finds room (R343). -/
def State.sealRoom (s : State) (c : Nat) : Bool :=
  (!(s.log.spill.any fun x => x.chan == c) && s.logRoom (128 + s.rd P.LOG_RING c) 6) ||
    (!s.frozenMaster 14 && decide (s.rd P.LOG_SPILL_USED + 6 ≤ spillSlots))

/-- A seal of channel `c` (R345 to R349); where there is no room the next one covers its span (R343). -/
def State.writeSeal (s : State) (shutter : Bool) (at_ c : Nat) : State :=
  let x := s.chan c
  if !s.sealRoom c then (s.count P.LOG_SEALS_MERGED c).setChan c fun y => { y with merged := true }
  else
    let head := s.sealHead x shutter at_
    let prev := x.head.getD (zeros 32)
    let input := prev ++ x.span.flatten
    let h := sha256 (input ++ head)
    let id := s.log.nextSeal
    let item : LogItem := ⟨c, head ++ prev ++ h ++ zeros 64, if s.keyAbsent then none else some id⟩
    let t := (s.logPut item).1
    let t := t.setLog fun y => { y with
      nextSeal := id + 1, signs := if s.keyAbsent then y.signs else y.signs ++ [(id, input)] }
    let t := t.setChan c fun y => { y with
      head := if s.frozenMaster 14 then y.head else some h, wiped := false, merged := false, span := [], unlogged := 0 }
    let t := t.wr P.LOG_SEAL_SEQ c ((t.rd P.LOG_SEAL_SEQ c + 1) % 2 ^ 64)
    t.orIn P.LOG_FLAGS 0 (4 * b2n x.merged + 8 * b2n s.keyAbsent)

/-- Every writing channel closes its span, at the instant `at_`. -/
def State.sealAll (s : State) (shutter : Bool) (at_ : Nat) : State :=
  ((List.range 16).filter s.chanOn).foldl (fun t c => t.writeSeal shutter at_ c) s

/-- The last instant that is a multiple of the seal interval (R345). -/
def State.sealInstant (s : State) : Nat := s.modNs - s.modNs % (s.log.sealEvery * 1000)

/-- SEAL (R345, R350): at a multiple of the seal interval, once, outside shutter mode. -/
def execSeal (s : State) : Host.Outcome State Fault Refusal :=
  if s.rd P.PWR_SHUTTER_STATE = 0 ∧ s.modNs < s.sealInstant + 2 ∧ s.log.sealAt ≠ some s.sealInstant then
    .next ((s.sealAll false (s.sealInstant % 2 ^ 64)).setLog fun x => { x with
      sealEvery := s.rd P.LOG_SEAL_INTERVAL, sealAt := some s.sealInstant })
  else .next s

/-- The bytes of a seal that was waiting for its signature replaced, wherever it lies; one that has its slots in a ring is
written there (R349). -/
def State.completeSeal (s : State) (id : Nat) (f : List Byte → List Byte) : State :=
  let one (i : LogItem) : LogItem := if i.signing = some id then { i with bytes := f i.bytes, signing := none } else i
  let at_ := s.log.staged.find? fun x => x.2.signing == some id
  let t := s.setLog fun x => { x with
    spill := x.spill.map one, staged := x.staged.map fun y => (y.1, one y.2),
    signs := x.signs.filter fun y => y.1 != id }
  match at_ with
  | some (g, i) =>
    match t.ring g with
    | some r =>
      let before := ((s.log.staged.filter fun x => x.1 == g).takeWhile fun x => x.2.signing != some id).map fun x => x.2.slots
      (t.writeSlots r (advance r.prod (before.foldl (· + ·) 0)) 6 (f i.bytes)).passRing g
    | none => t
  | none => t

/-- SEAL_SIGNED (R349): the oldest seal that waits is signed. -/
def execSealSigned (s : State) : Host.Outcome State Fault Refusal :=
  match s.log.signs, s.log.key with
  | (id, _) :: _, some k => .next (s.completeSeal id fun b => patch 128 (edSign k (b.take 128)) b)
  | _, _ => .next s

/-- A wipe while seals are being signed (R353): each completes with a zero signature, KEY_ABSENT and key serial 0. -/
def State.voidSeals (s : State) : State :=
  s.log.signs.foldl (fun t x =>
    (t.completeSeal x.1 fun b =>
      let c := patch 26 [0, 0] (patch 1 (toBe 1 (beAt 1 1 b ||| 1)) b)
      patch 96 (sha256 (x.2 ++ c.take 64)) c).orIn P.LOG_FLAGS 0 8) s

/-- The items of the spill area moved to their rings, oldest first; a ring without room keeps the rest of its own (R341). -/
def State.spillMove (s : State) : List LogItem → List Nat → List LogItem → State
  | [], _, kept => s.setLog fun x => { x with spill := kept }
  | i :: is, shut, kept =>
    let g := 128 + s.rd P.LOG_RING i.chan
    if !shut.contains g && s.logRoom g i.slots then (s.stage g i).spillMove is shut kept
    else s.spillMove is (g :: shut) (kept ++ [i])

/-- SPILL_MOVE (R341, R342). -/
def execSpillMove (s : State) : Host.Outcome State Fault Refusal :=
  if s.frozenMaster 3 ∨ s.frozenMaster 14 then .next s
  else .next (((s.spillMove s.log.spill [] []).spillCount).holdClear)

/-! ## The signing key (R351, R352) -/

/-- The key is wanted: on entry to DEPLOYED. -/
def State.keyStart (s : State) (o : Option Origin) : State :=
  (s.wr P.LOG_KEY_STATE 0 1).setLog fun x => { x with keyFor := o }

/-- KEY_GENERATED (R351, R398): the key pair is ready under the next serial; the life-cycle request that asked for it is
answered. -/
def State.keyDone (s : State) : State :=
  if s.rd P.LOG_KEY_STATE = 1 then
    let n := s.flash.keyCount + 1
    let t : State := { s with fresh := s.fresh + 1, flash := { s.flash with keyCount := n } }
    let t := t.setLog fun x => { x with key := some (toBe 32 (Config.random s.fresh).toNat), keyFor := none }
    let t := (t.wr P.LOG_KEY_STATE 0 2).wr P.LOG_KEY_SERIAL 0 (n % 65536)
    match s.log.keyFor with
    | some o => t.finish o Status.OK []
    | none => t
  else s

/-- LOG_KEY_PUBLIC (R352). -/
def logKeyPublic (o : Origin) (_p : List Byte) (s : State) : State :=
  match s.log.key with
  | some k =>
    s.finish o Status.OK (edPublic k ++ toBe 2 (s.rd P.LOG_KEY_SERIAL) ++ toBe 1 (s.rd P.LOG_KEY_STATE) ++ zeros 1)
  | none => s.finish o Status.OK (zeros 34 ++ toBe 1 (s.rd P.LOG_KEY_STATE) ++ zeros 1)

/-- What a wipe of the shuttered partition does to the logbook (R351, R353): the key and the chain heads are gone. -/
def State.logWipe (s : State) : State :=
  let t := s.voidSeals
  let chans := (List.range 16).foldl (fun u c => u.setChan c fun x => { x with head := none, wiped := true }) t
  (chans.setLog fun x => { x with key := none }).wr P.LOG_KEY_SERIAL 0 0

/-- A commit disables channel `c`: one seal closes its chain (R354). -/
def State.closeChannel (s : State) (c : Nat) : State :=
  (s.writeSeal false s.now c).setChan c fun x => { x with head := none }

end Sys2Proof.Machine
end

