-- ==== Sys2Proof/Machine/Chamber.lean ====
section
/-! DEFINITION. The lock chamber's groups, compensation and slot tables (R310 to R330). -/

namespace Sys2Proof.Machine

/-- The lock chamber changed. -/
def State.setLock (s : State) (f : Lock → Lock) : State := { s with lock := f s.lock }

/-! ## Groups and members (R310 to R313) -/

/-- What a group entry says (R311). -/
structure Group where
  self : Bool
  set : Nat
  limit : Nat
  abandon : Bool
  hold : Nat
  deriving DecidableEq, Repr

/-- A multicast group entry read (R311). -/
def mcGroup (e : Nat) : Group := ⟨bit 31 e, field 30 20 e, field 19 6 e, false, 0⟩

/-- A lock group entry read (R311). -/
def lockGroup (e : Nat) : Group := ⟨bit 63 e, field 61 51 e, field 33 20 e, bit 62 e, field 50 34 e⟩

/-- The member ports of a port set: the set bits whose lane is the lowest lane of a port (R310). -/
def State.members (s : State) (set : Nat) : List Nat :=
  ((List.range 8).map fun w => (setBits 64 (s.rd P.LCK_PORTSET (8 * set + w))).map fun n => 64 * w + n).flatten.filter
    fun p => s.rd P.PRT_LANES p != 0

/-! ## Compensation (R318 to R320) -/

/-- D_p of port `p` in ps (R318). -/
def State.txPath (s : State) (p : Nat) : Nat :=
  let ui := symbolPeriod (s.rateOf p)
  let n := (pipeline (s.rateOf p) (s.rdb P.PRT_FEC p)).2
  (roundDiv ((64 * n * ui.1 : Nat) : Int) ui.2).toNat + s.rd P.CAL_DTX p

/-- The release window of port `p` in ps (R319). -/
def State.releaseWindow (s : State) (p : Nat) : Nat :=
  s.startGrid p / 2 + (if s.lockedPort p then 15 else 1600)

/-- C_p in use, in units of 10 ps (R320): measured, it is half of the last round trip and the committed asymmetry. -/
def State.fibreUsed (s : State) (p : Nat) : Nat :=
  if s.rd P.LCK_FIBRE_SRC p = 0 then s.rd P.LCK_FIBRE_COMP p
  else match s.lock.measured.find? fun x => x.1 == p with
    | some x => (roundDiv ((x.2 : Int) + s.rdS 32 P.LCK_FIBRE_ASYM p) 20).toNat
    | none => s.rd P.LCK_FIBRE_COMP p

/-- FIBRE_STALE of port `p` (R320). -/
def State.fibreStale (s : State) (p : Nat) : Bool :=
  s.rd P.LCK_FIBRE_SRC p == 1 &&
    !(s.lockedPort p && s.rd P.LNK_ROLE p == 2 && s.rd P.LNK_STATE p == 3 && s.lock.measured.any fun x => x.1 == p)

/-- LCK_TXPATH and LCK_WINDOW of port `p` brought up to date. -/
def State.refreshPath (s : State) (p : Nat) : State :=
  if s.gbps p = 0 then (s.wr P.LCK_TXPATH p 0).wr P.LCK_WINDOW p 0
  else (s.wr P.LCK_TXPATH p (s.txPath p)).wr P.LCK_WINDOW p (s.releaseWindow p)

/-- What a lock copy for port `p` of a frame with an ingress stamp is launched by (R317, R318). -/
def State.lockCopy (s : State) (p : Nat) (x : Stamp) (g : Group) : LockCopy :=
  let rel := unitsPs x.units + 1000 * g.hold
  let aim := rel - 10 * s.fibreUsed p
  ⟨rel, aim - s.txPath p, aim, g.abandon, none, false⟩

/-! ## Slot tables (R326 to R330) -/

/-- An entry of the administrative and of the operational bank of port `p`. -/
def State.admEntry (s : State) (p i : Nat) : Nat := look (p, i) 0 s.lock.adm
def State.oprEntry (s : State) (p i : Nat) : Nat := look (p, i) 0 s.lock.opr

/-- GATES and INTERVAL of an entry (R326). -/
def entryGates (e : Nat) : Nat := field 39 32 e
def entryNs (e : Nat) : Nat := field 29 0 e

/-- The intervals of one cycle as gates and length: entries in order, those of interval 0 skipped, the gates of the last one that runs to
the end, an entry cut short where the cycle ends (R326, R327). -/
def cycleSlots (cycle : Nat) : List Nat → Nat → Nat → List (Nat × Nat)
  | [], used, last => if used < cycle then [(last, cycle - used)] else []
  | e :: es, used, last =>
    let n := min (entryNs e) (cycle - used)
    (if n = 0 then [] else [(entryGates e, n)]) ++ cycleSlots cycle es (used + n) (if entryNs e = 0 then last else entryGates e)

/-- The operational cycle of port `p`; empty with a count of 0. -/
def State.cycleOf (s : State) (p : Nat) : List (Nat × Nat) :=
  if s.rd P.LCK_OPR_COUNT p = 0 then []
  else cycleSlots (s.rd P.LCK_OPR_CYCLE p) ((List.range (s.rd P.LCK_OPR_COUNT p)).map (s.oprEntry p)) 0 255

/-- The gates at a time within the cycle. -/
def gatesIn : List (Nat × Nat) → Nat → Nat
  | [], _ => 255
  | (g, n) :: r, t => if t < n then g else gatesIn r (t - n)

/-- The gates in force on port `p`, all open where the table says nothing. -/
def State.gatesNow (s : State) (p : Nat) : Nat := look p 255 s.lock.gates

/-- The gates of port `p` by its operational bank at module time (R327). -/
def State.gatesDue (s : State) (p : Nat) : Nat :=
  let c := s.cycleOf p
  if c = [] then 255
  else if s.modNs < s.rd P.LCK_OPR_BASE p then s.gatesNow p
  else gatesIn c ((s.modNs - s.rd P.LCK_OPR_BASE p) % s.rd P.LCK_OPR_CYCLE p)

/-- The open time of class `c` at the front of a list of intervals. -/
def openRun (c : Nat) : List (Nat × Nat) → Nat
  | [] => 0
  | (g, n) :: r => if g.testBit c then n + openRun c r else 0

/-- The intervals from a time on within a list. -/
def dropTime : List (Nat × Nat) → Nat → List (Nat × Nat)
  | [], _ => []
  | (g, n) :: r, t => if t < n then (g, n - t) :: r else dropTime r (t - n)

/-- The longest open run of class `c` over a cycle taken twice (R328). -/
def longestRun (c : Nat) : List (Nat × Nat) → Nat
  | [] => 0
  | e :: r => max (openRun c (e :: r)) (longestRun c r)

/-- How long the gate of class `c` has been open at a time within a list of intervals. -/
def openFor (c : Nat) : List (Nat × Nat) → Nat → Nat → Nat
  | [], _, acc => acc
  | (g, n) :: r, t, acc =>
    if t < n then (if g.testBit c then acc + t else 0) else openFor c r (t - n) (if g.testBit c then acc + n else 0)

/-- Whether a frame of class `c` that needs `need` ns may start by the gates (R328), and whether it starts as an overrun. -/
def State.gateAllows (s : State) (p c need : Nat) : Bool × Bool :=
  let cyc := s.cycleOf p
  if cyc = [] ∨ cyc.all (fun e => e.1.testBit c) then (true, false)
  else
    let base := s.rd P.LCK_OPR_BASE p
    if s.modNs < base then
      if (s.gatesNow p).testBit c then
        (decide (need ≤ base - s.modNs + openRun c (cyc ++ cyc)), false)
      else (false, false)
    else
      let t := (s.modNs - base) % s.rd P.LCK_OPR_CYCLE p
      let left := openRun c (dropTime (cyc ++ cyc) t)
      let longest := longestRun c (cyc ++ cyc)
      if need ≤ left then (true, false)
      else if longest < need ∧ 0 < left ∧ openFor c (cyc ++ cyc) (t + s.rd P.LCK_OPR_CYCLE p) 0 < 2 ∧ longest ≤ left then (true, true)
      else (false, false)

/-- GATE_CHANGE (R327): the gates of a port follow its operational bank. -/
def execGateChange (port : Fin 512) (s : State) : Host.Outcome State Fault Refusal :=
  let p := port.val
  .next (s.setLock fun l => { l with gates := store ltNat p 255 (s.gatesDue p) l.gates })

/-- The first cycle start of port `p` at or after a module time, or that time itself with an operational count of 0
(R330). -/
def State.cycleStart (s : State) (p t : Nat) : Nat :=
  if s.rd P.LCK_OPR_COUNT p = 0 then t
  else
    let base := s.rd P.LCK_OPR_BASE p
    if t ≤ base then base else base + ceilDiv (t - base) (s.rd P.LCK_OPR_CYCLE p) * s.rd P.LCK_OPR_CYCLE p

/-- A nonzero LCK_SWAP_TIME written arms a swap, 0 cancels it; a time not later than module time is late (R330). -/
def State.armSwap (s : State) (p v : Nat) : State :=
  let t := (s.wr P.LCK_SWAP_TIME p v).setLock fun l => { l with late := l.late.filter fun x => x.1 != p }
  let copying := s.rd P.LCK_SWAP_STATE p == 2
  let t := if copying then t else t.wr P.LCK_SWAP_STATE p (if v = 0 then 0 else 1)
  if v ≠ 0 ∧ v ≤ s.modNs then t.setLock fun l => { l with late := l.late ++ [(p, s.modNs)] } else t

/-- The banks of one port taken from one list of entries. -/
def portEntries (p : Nat) (m : List ((Nat × Nat) × Nat)) : List ((Nat × Nat) × Nat) := m.filter fun e => e.1.1 == p

/-- A bank's entries of port `p` replaced. -/
def putEntries (p : Nat) (es m : List ((Nat × Nat) × Nat)) : List ((Nat × Nat) × Nat) :=
  es.foldl (fun m e => store ltPair e.1 0 e.2 m) (m.filter fun e => e.1.1 != p)

/-- BANK_SWAP (R330): the banks of a port exchange once the swap instant has come. -/
def execBankSwap (port : Fin 512) (s : State) : Host.Outcome State Fault Refusal :=
  let p := port.val
  let written := s.rd P.LCK_SWAP_TIME p
  let late := s.lock.late.find? fun x => x.1 == p
  let due := s.cycleStart p (match late with | some x => x.2 | none => written)
  if s.rd P.LCK_SWAP_STATE p ≠ 1 ∨ s.modNs < due then .next s
  else
    let t := s.setLock fun l => { l with
      opr := putEntries p (portEntries p l.adm) l.opr, adm := putEntries p (portEntries p l.opr) l.adm,
      late := l.late.filter fun x => x.1 != p }
    let swap (u : State) (a b : Nat) : State := (u.wr b p (u.rd a p)).wr a p (u.rd b p)
    let t := swap (swap (swap t P.LCK_ADM_CYCLE P.LCK_OPR_CYCLE) P.LCK_ADM_BASE P.LCK_OPR_BASE) P.LCK_ADM_COUNT P.LCK_OPR_COUNT
    let t := ((t.wr P.LCK_SWAP_TIME p 0).wr P.LCK_SWAP_STATE p 2).configUp
    let t := t.setLock fun l => { l with gates := store ltNat p 255 (t.gatesDue p) l.gates }
    if late.isSome then
      .next ((t.orIn P.LCK_FLAGS 0 1).notice 14 (toBe 2 p ++ zeros 6 ++ toBe 8 written ++ toBe 8 t.now))
    else .next t

/-- A write to the administrative bank of port `p`: the entry's base names which (R329). -/
def State.admWrite (s : State) (b p i v : Nat) : State :=
  if b = P.LCK_ADM_ENTRY then s.setLock fun l => { l with adm := store ltPair (p, i) 0 v l.adm } else s.wr b p v

/-- A write to the administrative bank, held while the bank is being copied (R330). -/
def State.admWriteHeld (s : State) (b p i v : Nat) : State :=
  if s.rd P.LCK_SWAP_STATE p = 2 then s.setLock fun l => { l with held := l.held ++ [(b, p, i, v)] }
  else s.admWrite b p i v

/-- BANK_COPY_DONE (R330): the new operational bank has been copied, and held writes apply in order. -/
def execBankCopyDone (port : Fin 512) (s : State) : Host.Outcome State Fault Refusal :=
  let p := port.val
  if s.rd P.LCK_SWAP_STATE p ≠ 2 then .next s
  else
    let t := s.setLock fun l => { l with
      adm := putEntries p (portEntries p l.opr) l.adm, held := l.held.filter fun h => h.2.1 != p }
    let t := ((t.wr P.LCK_ADM_CYCLE p (t.rd P.LCK_OPR_CYCLE p)).wr P.LCK_ADM_BASE p (t.rd P.LCK_OPR_BASE p)).wr
      P.LCK_ADM_COUNT p (t.rd P.LCK_OPR_COUNT p)
    let t := t.wr P.LCK_SWAP_STATE p (if t.rd P.LCK_SWAP_TIME p = 0 then 0 else 1)
    .next ((s.lock.held.filter fun h => h.2.1 == p).foldl (fun u h => u.admWrite h.1 p h.2.2.1 h.2.2.2) t)

end Sys2Proof.Machine
end

