-- ==== Sys2Proof/Machine/Cores.lean ====
section
/-! DEFINITION. The two timing cores (R156 to R169): their states and self-tests, the switch-over gap, and the return of a
repaired core. -/

namespace Sys2Proof.Machine

/-- COR_STATE of core `c` (R157). -/
def State.corState (s : State) (c : Nat) : Nat := s.rd P.COR_STATE c

/-- The result of self-test `id` of core `c`: 0 PASS, 1 MARGINAL, 2 FAIL, 3 NOT_RUN (R160). -/
def State.testResult (s : State) (c id : Nat) : Nat := s.rd P.COR_TEST_RESULT (5 * c + id)

/-- Whether the oven of core `c` tests PASS or MARGINAL. -/
def State.ovenWarm (s : State) (c : Nat) : Bool := decide (s.testResult c 0 ≤ 1)

/-- Whether core `c` may take over: STANDBY with a score of at least COR_MIN_SCORE (R164). -/
def State.mayTakeOver (s : State) (c : Nat) : Bool :=
  s.corState c == 3 && decide (s.rd P.COR_MIN_SCORE ≤ s.rd P.COR_SCORE c)

/-- The health score (R160): 100 less 10, 50 or 20 for each MARGINAL, FAIL or NOT_RUN, not below 0; on the active core
the NOT_RUN of PEER and SHADOW cost nothing. -/
def healthScore (active : Bool) (gs : List Nat) : Nat :=
  let cost (g : Nat) : Nat := if g = 1 then 10 else if g = 2 then 50 else if g = 3 then 20 else 0
  let counted := if active then gs.take 3 else gs
  100 - (counted.map cost).foldl (· + ·) 0

/-- The results of the five self-tests of core `c`, with its score (R160). -/
def State.showTests (s : State) (c : Nat) (gs : List Nat) : State :=
  (((List.range 5).zip gs).foldl (fun u x => u.wr P.COR_TEST_RESULT (5 * c + x.1) x.2) s).wr P.COR_SCORE c
    (healthScore (s.corState c == 4) gs)

/-- Core `c` becomes OFF: it has no test results (R157). -/
def State.noTests (s : State) (c : Nat) : State :=
  (s.showTests c [3, 3, 3, 3, 3]).setCore c fun x => { x with measured := [] }

/-- A core's PEER and SHADOW tests read NOT_RUN once it has become the active one, or has just ceased to be (R160). -/
def State.peerNotRun (s : State) (c : Nat) : State :=
  s.showTests c ((List.range 5).map fun id => if id < 3 then s.testResult c id else 3)

/-- The gap of a switch-over begins (R163). -/
def State.beginSwitch (s : State) (fromCore toCore cause : Nat) (waiting : List Origin) : State :=
  { s with time := { s.time with gap := some ⟨s.clock, fromCore, toCore, cause, waiting⟩ } }

/-- TSTATE becomes FAULT: no core is ACTIVE, and the output stage runs on (R148, R164). -/
def State.toFault (s : State) : State :=
  let t := if s.rd P.REF_TSTATE = 2 then s.freeze s.clock else s
  (t.put 7 8).conclude s 9

/-- The core whose edges the output stage awaits: the one it is to relock to in a gap, else the active one (R163). -/
def State.drives (s : State) (c : Nat) : Bool :=
  match s.time.gap with
  | some g => g.toCore == c
  | none => s.corState c == 4

/-- The gap ends without a switch-over, and the requests that waited for it are answered NOT_READY (R164). -/
def State.abandonSwitch (s : State) : State :=
  let waiting := match s.time.gap with | some g => g.waiting | none => []
  waiting.foldl (fun u o => u.finish o Status.NOT_READY []) { s with time := { s.time with gap := none, gapEnd := some s.clock } }

/-- A fault of core `c` (R161): FAILED, or OFF when its power domain is lost. A fault of the active core starts a switch-over when the
other core may take over, and makes TSTATE FAULT when none can. In a gap, a fault of the core that was to take over ends a commanded
switch-over whose former core still stands, and makes TSTATE FAULT otherwise (R164). -/
def State.coreFault (s : State) (c cause : Nat) : State :=
  let was := s.corState c == 4
  let t := (s.wr P.COR_STATE c (if cause = 1 then 0 else 5)).setCore c fun x => { x with
    okSince := if cause = 2 ∨ cause = 5 then some (s.clock + 2) else none, xlockSince := none }
  let t := if cause = 1 then t.noTests c else t
  let t := (t.orIn P.COR_FLAGS 0 (2 ^ c)).sticky 2 c
  match t.time.gap with
  | none => if was then (if t.mayTakeOver (1 - c) then t.beginSwitch c (1 - c) cause [] else t.toFault) else t
  | some g =>
    if g.toCore = c then (if t.corState g.fromCore = 4 then t.abandonSwitch else t.abandonSwitch.toFault)
    else t

/-- The growth of the bound carried across a switch-over in holdover (R166), with the new core's own model from there on (R156). -/
def State.switchGrowth (s : State) (c : Nat) : State :=
  if s.rd P.REF_TSTATE = 4 ∨ s.rd P.REF_TSTATE = 5 then
    (s.modelFrom c).setServo fun v => { v with hBase := v.hBase + s.rd P.TBS_SWITCH_WIDEN * (2 * 10 ^ 27) }
  else if s.rd P.REF_TSTATE = 3 ∨ s.rd P.REF_TSTATE = 6 then s.modelFrom c
  else s

/-- SWITCH_GAP_END (R163, R165): the new core is ACTIVE; the switch-over is counted, reported and answered. -/
def State.endSwitch (s : State) : State :=
  match s.time.gap with
  | none => s
  | some g =>
    let len := min 8 ((s.clock - g.since) / 2)
    let t := { s with time := { s.time with gap := none, gapEnd := some s.clock } }
    let t := (t.wr P.COR_STATE g.toCore 4).wr P.COR_ACTIVE 0 g.toCore
    let t := (t.setCore g.toCore fun x => { x with count := t.time.out }).peerNotRun g.toCore
    let t := if g.cause = 0 ∧ t.corState g.fromCore = 4 then (t.wr P.COR_STATE g.fromCore 3).peerNotRun g.fromCore else t
    let t := (t.count P.COR_SWITCH_COUNT).wr P.COR_LAST_CAUSE 0 g.cause
    let t := (t.switchGrowth g.toCore).refreshBound.steerNow
    let t := t.sticky 0 (g.fromCore * 65536 + g.toCore * 256 + g.cause)
    let t := t.notice 7 (toBe 1 g.fromCore ++ toBe 1 g.toCore ++ toBe 1 g.cause ++ toBe 1 len ++
      toBe 1 (t.rd P.COR_SCORE g.toCore) ++ zeros 3)
    g.waiting.foldl (fun u o => u.finish o Status.OK []) t

/-- A core becomes ACTIVE in TSTATE FAULT: it loads its count from the output stage, and TSTATE leaves FAULT (R168). -/
def State.coreReturn (s : State) (c : Nat) : State :=
  let t := (s.wr P.COR_STATE c 4).wr P.COR_ACTIVE 0 c
  let t := (t.setCore c fun x => { x with count := t.time.out }).peerNotRun c
  let t := if t.rdb P.REF_TIME_SET then t.toHoldover else t.toFreerun
  (t.followSelection t.clock).conclude s 10

/-- A standby core with a sufficient score becomes ACTIVE while TSTATE is FAULT (R168); core A is looked at first. -/
def State.returnStandby (s : State) : State :=
  if s.rd P.REF_TSTATE = 7 then
    if s.mayTakeOver 0 then s.coreReturn 0 else if s.mayTakeOver 1 then s.coreReturn 1 else s
  else s

/-- CORE_SWITCH (R164, R168). -/
def coreSwitch (o : Origin) (p : List Byte) (s : State) : State :=
  let c := beAt 0 1 p
  if 1 < c then s.finish o Status.BAD_VALUE []
  else
    match s.time.gap with
    | some g =>
      if g.toCore = c then { s with time := { s.time with gap := some { g with waiting := g.waiting ++ [o] } } }
      else s.finish o Status.NOT_READY []
    | none =>
      if s.corState c = 4 then s.finish o Status.OK []
      else if s.rd P.REF_TSTATE ≠ 7 ∧ s.mayTakeOver c then s.beginSwitch (1 - c) c 0 [o]
      else s.finish o Status.NOT_READY []

/-- The health report of a core (R162). -/
def State.healthReport (s : State) (c : Nat) : List Byte :=
  toBe 1 c ++ toBe 1 (s.corState c) ++ toBe 1 (s.rd P.COR_SCORE c) ++ [0] ++ toBe 8 (s.core c).roundAt ++
    ((List.range 5).map fun id =>
      toBe 1 id ++ toBe 1 (s.testResult c id) ++ zeros 2 ++
        toBe 4 (raw 32 (clampS 32 ((s.core c).measured.getD id 0)))).flatten

/-- CORE_HEALTH (R162). -/
def coreHealth (o : Origin) (p : List Byte) (s : State) : State :=
  let c := beAt 0 1 p
  if 1 < c then s.finish o Status.BAD_VALUE [] else s.finish o Status.OK (s.healthReport c)

/-- A test's result from its reading and its two limits (R160). -/
def grade (x marginal fail : Nat) : Nat := if fail < x then 2 else if marginal < x then 1 else 0

/-- The stamp units whose recomputed stamps mismatched: those that differ by more than COR_SHADOW_TOL (R160). -/
def State.shadowMisses (s : State) (m : CoreMeasure) : List Nat :=
  (m.shadow.filter fun x => decide (s.rd P.COR_SHADOW_TOL < x.2.natAbs)).map fun x => x.1.val

/-- The results of a round of tests, in id order; PEER and SHADOW run only on a core that follows another (R160). -/
def State.grades (s : State) (c : Nat) (m : CoreMeasure) : List Nat :=
  let follows := s.corState c == 2 || s.corState c == 3
  [grade m.oven.natAbs (s.rd P.COR_OVEN_MARG) (s.rd P.COR_OVEN_FAIL), grade m.dco 8000 9500, grade m.residual 5 20,
   if follows then grade m.peer.natAbs 20 100 else 3, if follows then grade (s.shadowMisses m).length 0 15 else 3]

/-- The time count of a core that cross-locks: module time with the PEER error, to the nearest tick (R159). -/
def State.followedCount (s : State) (peer : Int) : TimeCount := TimeCount.ofNs (s.modNs + 2 * roundDiv peer 2000).toNat

/-- What a round of tests leads to (R157, R161, R168). -/
def State.afterTests (s : State) (c : Nat) (m : CoreMeasure) : State :=
  let bad := s.testResult c 0 == 2 || s.testResult c 1 == 2
  match s.corState c with
  | 5 => s.setCore c fun x => { x with
      okSince := if bad then none else (match x.okSince with | some t => some t | none => some s.clock) }
  | 0 => s
  | q =>
    if bad then s.coreFault c (if s.testResult c 0 = 2 then 3 else 4)
    else if q = 1 then
      if s.ovenWarm c then
        if s.rd P.REF_TSTATE = 7 then s.coreReturn c
        else if s.corState (1 - c) = 4 then (s.wr P.COR_STATE c 2).setCore c fun x => { x with xlockSince := none }
        else s
      else s
    else if q = 2 ∨ q = 3 then
      let t := s.setCore c fun x => { x with
        count := s.followedCount m.peer
        xlockSince := if m.peer.natAbs ≤ 20 then (match x.xlockSince with | some t => some t | none => some s.clock)
                      else none }
      let t := if q = 3 ∧ 100 < m.peer.natAbs then t.wr P.COR_STATE c 2 else t
      let t := if t.testResult c 3 = 2 then (t.orIn P.COR_FLAGS 0 4).sticky 1 c else t
      t.returnStandby
    else s

/-- CORE_SELF_TEST (R160): a core's round of tests. A core whose domain is down runs none. -/
def State.coreSelfTest (s : State) (core : Fin 2) (m : CoreMeasure) : State :=
  let c := core.val
  if s.corState c = 0 then s
  else
    let gs := s.grades c m
    let misses := s.shadowMisses m
    let follows := s.corState c == 2 || s.corState c == 3
    let t := (s.showTests c gs).setCore c fun x => { x with
      roundAt := s.now, measured := [m.oven, m.dco, m.residual, m.peer.natAbs, misses.length] }
    let t := if follows then (misses.foldl (fun u p => u.count P.COR_SHADOW_MISMATCH p) t).wrS 32 P.COR_PEER_ERR c m.peer else t
    (t.afterTests c m)

/-- CK_TB_EDGE_MISSING (R163): the output stage misses an edge of the active core. -/
def State.edgeMissing (s : State) : State :=
  if s.drives 0 then (s.coreFault 0 2) else if s.drives 1 then (s.coreFault 1 2) else s

/-- CORE_PARITY_ERROR (R161): a parity error in a core's time count or servo state. -/
def State.parityError (s : State) (core : Fin 2) : State :=
  let c := core.val
  if s.corState c = 0 then s
  else if s.corState c = 5 then (s.setCore c fun x => { x with okSince := x.okSince.map fun _ => s.clock + 2 })
  else (s.coreFault c 5)

/-- Whether the cause of a core's fault has been absent for COR_RECOVER_TIME (R157, R161). -/
def State.recovered (s : State) (c : Nat) : Bool :=
  match (s.core c).okSince with
  | some t => decide (t + s.rd P.COR_RECOVER_TIME * 1000000000 ≤ s.clock)
  | none => false

/-- CORE_RECOVER (R161, R167): the cause has been absent for COR_RECOVER_TIME, so the core leaves FAILED. -/
def execCoreRecover (core : Fin 2) (s : State) : Host.Outcome State Fault Refusal :=
  let c := core.val
  if s.corState c = 5 ∧ s.recovered c then
    if s.rd P.REF_TSTATE = 7 then .next (s.coreReturn c)
    else .next (s.wr P.COR_STATE c (if s.ovenWarm c then 2 else 1))
  else .next s

/-- CROSSLOCK_SETTLE (R157): the PEER error has stayed within 20 ps for COR_XLOCK_SETTLE. -/
def execCrosslockSettle (core : Fin 2) (s : State) : Host.Outcome State Fault Refusal :=
  let c := core.val
  match (s.core c).xlockSince with
  | some t0 =>
    if s.corState c = 2 ∧ t0 + s.rd P.COR_XLOCK_SETTLE * 1000000000 ≤ s.clock then
      .next (((s.wr P.COR_STATE c 3).setCore c fun x => { x with count := s.time.out }).returnStandby)
    else .next s
  | none => .next s

/-- CORE_RETURN (R168): in TSTATE FAULT the first core to qualify becomes ACTIVE. -/
def execCoreReturn (core : Fin 2) (s : State) : Host.Outcome State Fault Refusal :=
  let c := core.val
  let ready : Bool := match s.corState c with
    | 5 => s.recovered c
    | 1 => s.ovenWarm c
    | 3 => s.mayTakeOver c
    | _ => false
  if s.rd P.REF_TSTATE = 7 ∧ ready then .next (s.coreReturn c) else .next s

end Sys2Proof.Machine
end

