-- ==== Sys2Proof/Machine/Quay.lean ====
section
/-! DEFINITION. The quay (R268 to R281): pools, allocation, copies, releases, double frees and thresholds. -/

namespace Sys2Proof.Machine

/-- The quay changed. -/
def State.setQuay (s : State) (f : Quay → Quay) : State := { s with quay := f s.quay }

/-! ## Stores and thresholds (R268, R278 to R280) -/

/-- The units of store `k` (R268). -/
def storeCount (k : Nat) : Nat := [65536, 16384, 6144, 1536, 103936].getD k 0

/-- The buffer size of pool `k` (R268). -/
def poolSize (k : Nat) : Nat := [256, 1024, 2432, 9728].getD k 0

/-- One signal of a store after an evaluation (R278). -/
def signalAfter (held count level hyst : Nat) (was : Bool) : Bool :=
  if count * level ≤ held * 1000 then true
  else if held * 1000 ≤ count * (level - hyst) then false
  else was

/-- The signals of store `k` evaluated (R278 to R280). -/
def State.evaluate (s : State) (k : Nat) : State :=
  let was := s.rd P.BUF_SIGNALS k
  let one (i level : Nat) : Nat :=
    if signalAfter (s.rd P.BUF_HELD k) (storeCount k) level (s.rd P.BUF_HYST k) (was.testBit i) then 2 ^ i else 0
  let sig := one 0 (s.rd P.BUF_WARN1 k) + one 1 (s.rd P.BUF_WARN2 k) + one 2 (s.rd P.BUF_STOP k)
  let t := s.wr P.BUF_SIGNALS k sig
  let t := if sig.testBit 2 ∧ ¬ was.testBit 2 then t.orIn P.BUF_FLAGS 0 8 else t
  if sig.testBit 0 ∧ ¬ was.testBit 0 then
    t.notice 3 (toBe 1 k ++ toBe 1 sig ++ zeros 2 ++ toBe 4 (s.rd P.BUF_HELD k) ++ toBe 4 (storeCount k))
  else t

/-- BUF_HELD of store `k` raised. -/
def State.holdUnits (s : State) (k n : Nat) : State :=
  let t := s.wr P.BUF_HELD k (s.rd P.BUF_HELD k + n)
  ((t.peak P.BUF_PEAK k (t.rd P.BUF_HELD k)).count P.BUF_ALLOC k n).evaluate k

/-- BUF_HELD of store `k` lowered. -/
def State.freeUnits (s : State) (k n : Nat) : State := (s.wr P.BUF_HELD k (s.rd P.BUF_HELD k - n)).evaluate k

/-- Whether the quay's pools stop class `c` at every outlet (R279). -/
def State.poolStop (s : State) (c : Nat) : Bool :=
  (List.range 5).any fun k =>
    (s.rd P.BUF_SIGNALS k).testBit 2 ||
      ((s.rd P.BUF_SIGNALS k).testBit 1 && !(s.rd P.PRT_EXPRESS_CLASSES).testBit c)

/-! ## Frames -/

/-- A frame by its id. -/
def State.frame (s : State) (id : Nat) : Option Frame := findBy Frame.id id s.fabric.frames

/-- A frame changed. -/
def State.setFrame (s : State) (id : Nat) (f : Frame → Frame) : State :=
  s.setFab fun x => { x with frames := updBy Frame.id id f x.frames }

/-- A frame leaves the module. -/
def State.dropFrame (s : State) (id : Nat) : State :=
  s.setFab fun x => { x with frames := dropBy Frame.id id x.frames }

/-- Whether bytes of a frame are on their way to the quay: in an inlet, a basin or a resequencer. -/
def State.inFlight (s : State) (id : Nat) : Bool :=
  s.fabric.waiting.contains id || (s.fabric.queued.any fun q => q.frame == id) ||
    (s.fabric.cells ++ s.fabric.parked).any fun c => c.segs.any fun g => g.frame == id

/-- A frame has left the module by R305; what is on its way still crosses the fabric (R281). -/
def State.retire (s : State) (id : Nat) : State :=
  if s.inFlight id then s.setFrame id fun f => { f with gone := true } else s.dropFrame id

/-! ## Egress queues (R259, R268) -/

/-- Whether a port of outlet `o` holds at least the class's stop level, and whether all hold at most its resume level. -/
def State.queueStop (s : State) (o c : Nat) : State :=
  let bytes (p : Nat) : Nat := s.rd P.PRT_EGQ_BYTES (8 * p + c)
  let raised := s.fabric.classStop.contains (o, c)
  if !raised && (portsOf o).any fun p => decide (s.rd P.PRT_EGQ_STOP c ≤ bytes p) then
    s.setFab fun x => { x with classStop := x.classStop ++ [(o, c)] }
  else if raised && (portsOf o).all fun p => decide (bytes p ≤ s.rd P.PRT_EGQ_RESUME c) then
    s.setFab fun x => { x with classStop := x.classStop.filter fun y => y != (o, c) }
  else s

/-- The bytes of an egress queue, or of a host receive queue, changed. -/
def State.queueBytes (s : State) (c : Copy) (f : Nat → Nat) : State :=
  match c.host with
  | some (q, _) => s.wr P.HST_RXQ_BYTES q (f (s.rd P.HST_RXQ_BYTES q))
  | none =>
    let i := 8 * c.port + c.cls
    (s.wr P.PRT_EGQ_BYTES i (f (s.rd P.PRT_EGQ_BYTES i))).queueStop (c.port / 8) c.cls

/-! ## Releases (R271 to R275) -/

/-- A double free (R275): refused, counted, and recorded while DOUBLE_FREE is clear. -/
def State.doubleFree (s : State) (pool index agent : Nat) : State :=
  let t := s.count P.BUF_DOUBLE_FREE
  if (t.rd P.BUF_FLAGS).testBit 0 then t
  else
    let t := (((t.wr P.BUF_DF_POOL 0 pool).wr P.BUF_DF_INDEX 0 index).wr P.BUF_DF_AGENT 0 agent).wr P.BUF_DF_TIME 0 t.now
    (t.orIn P.BUF_FLAGS 0 1).sticky 8 (pool * 2 ^ 32 + index * 2 ^ 16 + agent)

/-- The buffer of a frame. -/
def State.bufferOf (s : State) (id : Nat) : Option Buffer := findBy Buffer.frame id s.quay.buffers

/-- The code of a releasing agent (R273). -/
def agentCode (kind n : Nat) : Nat := kind * 4096 + n

/-- The write-back of a host frame's slot is settled when the copy on its lowest-numbered port is released, by the releasing agent
(R474): the status, and for a copy that was sent its egress stamp. -/
def State.settleSlot (s : State) (c : Copy) (agent : Nat) : State :=
  match (s.frame c.frame).bind fun f => if f.port = c.port then f.slot else none with
  | some (_, n) =>
    let status := match agent / 4096 with | 0 => 0 | 2 => 3 | 3 => 2 | _ => 1
    let x := match s.quay.sending.find? fun x => x.copy == c.id with
      | some x => if status = 0 then x.stamp else ⟨0, 0, 0, 0⟩
      | none => ⟨0, 0, 0, 0⟩
    { s with txSlots := updBy TxSlot.num n (fun t => { t with result := some (status, x) }) s.txSlots }
  | none => s

/-- A copy's entry leaves its queue and is free again (R272). -/
def State.freeEntry (s : State) (c : Copy) (agent : Nat) : State :=
  let t := (s.settleSlot c agent).setQuay fun x => { x with copies := dropBy Copy.id c.id x.copies, sending := dropBy Sending.copy c.id x.sending }
  let t := t.queueBytes c fun n => n - c.bytes
  if c.keel then t else t.freeUnits 4 1

/-- A buffer whose parity fails becomes QUARANTINED: counted, flagged and a sticky fault (R277). -/
def State.noteQuarantine (s : State) (pool index : Nat) : State :=
  let t := s.setQuay fun x => { x with
    damaged := x.damaged.erase (pool, index), freed := x.freed.erase (pool, index), quarantined := x.quarantined ++ [(pool, index)] }
  ((t.wr P.BUF_QUARANTINED 0 (t.rd P.BUF_QUARANTINED + 1)).orIn P.BUF_FLAGS 0 2).sticky 9 (pool * 2 ^ 16 + index)

/-- A HELD buffer whose parity fails at a release (R277): its copies that no port is sending are lost, as link-down losses of their
ports. A copy for a host queue has no port, and its loss is in no counter (assumption 58). -/
def State.quarantine (s : State) (b : Buffer) : State :=
  let lost := s.quay.copies.filter fun c => c.frame == b.frame && !(s.quay.sending.any fun x => x.copy == c.id)
  let t := (s.setQuay fun x => { x with buffers := x.buffers.erase b }).freeUnits b.pool 1
  let t := lost.foldl (fun u c =>
    (if c.host.isNone then u.count P.PRT_LINKDOWN_DROP c.port else u).freeEntry c (agentCode 1 c.port)) (t.noteQuarantine b.pool b.index)
  if t.quay.copies.any fun c => c.frame == b.frame then t else t.retire b.frame

/-- A release that names a buffer by pool and index (R272, R274, R275, R277): a FREE buffer makes it a double free, a quarantined one
ignores it, and one whose parity fails is quarantined. -/
def State.releaseBuffer (s : State) (pool index agent : Nat) : State :=
  match s.quay.buffers.find? fun b => b.pool == pool && b.index == index with
  | some b =>
    if s.quay.damaged.contains (pool, index) then s.quarantine b
    else if 1 < b.count then
      s.setQuay fun x => { x with buffers := x.buffers.map fun y => if y = b then { y with count := y.count - 1 } else y }
    else
      ((s.setQuay fun x => { x with
        buffers := x.buffers.erase b, freed := x.freed ++ [(pool, index)] }).freeUnits pool 1).retire b.frame
  | none =>
    if s.quay.quarantined.contains (pool, index) then s
    else if s.quay.damaged.contains (pool, index) then s.noteQuarantine pool index
    else s.doubleFree pool index agent

/-- A release of a buffer whose frame is named. A frame without a buffer (on the keel path, or with its buffer quarantined) leaves with
its last copy (R277, R437). -/
def State.releaseFrame (s : State) (id agent : Nat) : State :=
  match s.bufferOf id with
  | some b => s.releaseBuffer b.pool b.index agent
  | none => if s.quay.copies.any fun c => c.frame == id then s else s.retire id

/-- A copy is released once (R272): its entry leaves its queue, and the count of the buffer that the entry names falls (R276). -/
def State.releaseCopy (s : State) (c : Copy) (agent : Nat) : State :=
  if s.quay.copies.any fun x => x.id == c.id then
    let t := s.freeEntry c agent
    match c.names with
    | some (k, i) => t.releaseBuffer k i agent
    | none => t.releaseFrame c.frame agent
  else s

/-- The newest copy that matches, with its entry now naming another buffer (R276). -/
def State.damageEntry (s : State) (pick : Copy → Bool) (pool index : Nat) : State :=
  match (s.quay.copies.filter pick).getLast? with
  | some c => s.setQuay fun x => { x with copies := updBy Copy.id c.id (fun y => { y with names := some (pool, index) }) x.copies }
  | none => s

/-- The parity of a buffer goes wrong, until an allocation or a release finds it (R277). -/
def State.spoil (s : State) (pool index : Nat) : State :=
  if index < storeCount pool ∧ ¬ s.quay.quarantined.contains (pool, index) ∧ ¬ s.quay.damaged.contains (pool, index) then
    s.setQuay fun x => { x with damaged := x.damaged ++ [(pool, index)] }
  else s

/-- An upset of the quay's memory. One that names a buffer beyond its pool changes nothing. -/
def State.upset (s : State) : QuayUpset → State
  | .parity k i => s.spoil k.val i.toNat
  | .portEntry p c k i =>
    if i.toNat < storeCount k.val then s.damageEntry (fun x => x.host.isNone && x.port == p.val && x.cls == c.val) k.val i.toNat else s
  | .hostEntry q k i =>
    if i.toNat < storeCount k.val then
      s.damageEntry (fun x => match x.host with | some (y, _) => y == q.val | none => false) k.val i.toNat
    else s

/-! ## Traps (R475, R476) -/

/-- Whether a trap entry matches a frame (R475). -/
def trapHits (e : Nat) (f : Frame) : Bool :=
  bit 63 e &&
    (match field 62 61 e with
     | 0 => etherType f.data == field 15 0 e
     | 1 => dstMac f.data == field 47 0 e
     | 2 => (match udpAt f.data with | some (u, _) => beAt (u + 2) 2 f.data == field 15 0 e | none => false)
     | _ => f.sid == field 15 0 e)

/-- The lowest-numbered trap entry that matches a frame, with its queue (R475). -/
def State.trapOf (s : State) (f : Frame) : Option (Nat × Nat) :=
  if 2 ≤ f.kind ∨ f.slot.isSome then none
  else ((List.range 64).find? fun i => trapHits (s.rd P.HST_TRAP i) f).map fun i => (field 60 55 (s.rd P.HST_TRAP i), i)

/-- Whether receive queue `q` takes a frame (R476). -/
def State.rxQueueTakes (s : State) (q : Nat) (f : Frame) : Bool :=
  match s.ring (64 + q) with
  | some r => decide (f.size ≤ r.bufSize) && decide (s.rd P.HST_RXQ_BYTES q < s.rd P.HST_RXQ_MAX q) && s.linkUp
  | none => false

/-! ## Allocation (R269 to R271, R313 to R317) -/

/-- The copies a frame is given: member port, hold limit in ns, and whether it is a lock copy of the group. -/
structure Member where
  port : Nat
  hold : Option Nat
  lock : Option Group
  host : Option (Nat × Nat)
  deriving DecidableEq, Repr

/-- The copies of a frame by its prefix and the group entry at this instant (R312, R313, R474). -/
def State.groupCopies (s : State) (f : Frame) : List Member :=
  let copies (g : Group) (lock : Bool) : List Member :=
    ((s.members g.set).filter fun p => p != f.port || g.self || f.slot.isSome).map fun p =>
      ⟨p, some (1000 * g.limit), if lock then some g else none, none⟩
  match f.kind with
  | 0 => [⟨f.dest, none, none, none⟩]
  | 1 => copies (mcGroup (s.rd P.LCK_MC_GROUP f.dest)) false
  | _ => copies (lockGroup (s.rd P.LCK_GROUP f.dest)) true

/-- The copies of a frame at allocation, a trap in place of the lookup's copies and the mirror copy beside them (R313, R475);
the state counts a frame that its queue does not take (R476). -/
def State.copiesFor (s : State) (f : Frame) : State × List Member :=
  let mirror : List Member :=
    if f.mirror < 512 then [⟨f.mirror, some (1000 * s.rd P.LCK_MIRROR_HOLD), none, none⟩] else []
  match s.trapOf f with
  | some (q, i) =>
    if s.rxQueueTakes q f then (s, ⟨0, none, none, some (q, i)⟩ :: mirror)
    else ((s.count P.HST_RXQ_BYPASS q).orIn P.HST_FLAGS 0 8, s.groupCopies f ++ mirror)
  | none => (s, s.groupCopies f ++ mirror)

/-- The pool a frame takes by its prefix length (R269). -/
def poolFor (f : Frame) : Nat :=
  if 32768 ≤ f.len then 3
  else if f.len ≤ 256 then 0 else if f.len ≤ 1024 then 1 else if f.len ≤ 2432 then 2 else 3

/-- The unused buffers of pool `k` from `i` on, past those in quarantine. -/
def Quay.firstUnused (q : Quay) (k : Nat) : Nat → Nat → Nat
  | 0, i => i
  | n + 1, i => if q.quarantined.contains (k, i) then q.firstUnused k n (i + 1) else i

/-- The next free buffer of pool `k`: one never used, else the oldest freed (R272). -/
def Quay.nextFree (q : Quay) (k : Nat) : Option Nat :=
  let i := q.firstUnused k q.quarantined.length (q.unused.getD k 0)
  if i < storeCount k then some i else (q.freed.find? fun x => x.1 == k).map fun x => x.2

/-- A free buffer taken off its list. -/
def Quay.take (q : Quay) (k i : Nat) : Quay :=
  if q.unused.getD k 0 ≤ i then { q with unused := setAt k (i + 1) q.unused } else { q with freed := q.freed.erase (k, i) }

/-- The free buffers of pool `k` whose parity fails become QUARANTINED until a good one comes next (R277); at most `n`. -/
def State.clearBad (s : State) (k : Nat) : Nat → State
  | 0 => s
  | n + 1 =>
    match s.quay.nextFree k with
    | some i =>
      if s.quay.damaged.contains (k, i) then ((s.setQuay fun x => x.take k i).noteQuarantine k i).clearBad k n else s
    | none => s

/-- The pools looked at in order until one has a good free buffer. -/
def State.clearPools (s : State) : List Nat → State
  | [] => s
  | k :: ks =>
    let t := s.clearBad k s.quay.damaged.length
    if (t.quay.nextFree k).isSome then t else t.clearPools ks

/-- The pools from which a frame may take its buffer, and the parity of those it would take, tested (R270, R277). -/
def State.clearFor (s : State) (f : Frame) : State := s.clearPools ([0, 1, 2, 3].filter fun j => decide (poolFor f ≤ j))

/-- The smallest pool from `k` on with a free buffer (R270). -/
def State.poolFree (s : State) (k : Nat) : Option Nat :=
  ([0, 1, 2, 3].filter fun j => decide (k ≤ j)).find? fun j => (s.quay.nextFree j).isSome

/-- Whether a frame can be given a buffer and its entries now (R270). -/
def State.canAllocate (s : State) (f : Frame) : Bool :=
  let n := (s.copiesFor f).2.length
  n == 0 || (((s.clearFor f).poolFree (poolFor f)).isSome && decide (s.rd P.BUF_HELD 4 + n ≤ storeCount 4))

/-- The bytes that a copy of a frame adds to its queue: those in the quay for an express frame, else the whole frame (R259, R267). -/
def State.copyBytes (s : State) (f : Frame) : Nat :=
  match s.bufferOf f.id with
  | some b => if f.express then b.got else f.size
  | none => f.size

/-- One copy linked into its queue (R314, R316); one for a port that is down is released at once (R271, R281, R314). -/
def State.linkCopy (s : State) (f : Frame) (m : Member) : State :=
  let c : Copy := ⟨s.quay.nextCopy, f.id, m.port, f.cls, s.clock, s.copyBytes f, m.hold,
    m.lock.map fun g => s.lockCopy m.port f.stamp g, m.host, (s.bufferOf f.id).isNone, none⟩
  let t := (s.setQuay fun x => { x with nextCopy := x.nextCopy + 1, copies := x.copies ++ [c] }).queueBytes c fun n => n + c.bytes
  if m.host.isNone ∧ ¬ t.portUp m.port then (t.count P.PRT_LINKDOWN_DROP m.port).releaseCopy c (agentCode 1 m.port) else t

/-- The copies of an express frame grow with the bytes that reach the quay (R259, R267). -/
def State.growCopies (s : State) (f : Frame) (n : Nat) : State :=
  if f.express then
    (s.quay.copies.filter fun c => c.frame == f.id).foldl (fun t c =>
      (t.queueBytes c fun b => b + n - c.bytes).setQuay fun x => { x with
        copies := updBy Copy.id c.id (fun y => { y with bytes := n }) x.copies }) s
  else s

/-- A buffer and its copies for a frame (R269 to R271, R277, R313); `got` bytes are in it. Where no copy is due no buffer is
allocated. The caller has tested that it can be done. -/
def State.allocate (s : State) (f : Frame) (got : Nat) : State :=
  let (s, ms) := s.copiesFor f
  if ms = [] then (s.count P.LCK_NO_MEMBER).retire f.id
  else
    let s := s.clearFor f
    match s.poolFree (poolFor f) with
    | none => s
    | some k =>
      match s.quay.nextFree k with
      | none => s
      | some i =>
        let t := s.setQuay fun x => { x.take k i with buffers := x.buffers ++ [⟨k, i, ms.length, f.id, got⟩] }
        let t := (if k = poolFor f then t else t.count P.BUF_SPILL (poolFor f)).holdUnits k 1
        let t := t.holdUnits 4 ms.length
        let depth := match ms with | [m] => if m.host.isNone then t.rd P.PRT_EGQ_BYTES (8 * m.port + f.cls) else 0 | _ => 0
        let egress := match ms with | [m] => m.port | _ => 0xFFFF
        let t := t.traceEvent f ⟨4, 0, none, k, depth, if f.kind = 0 then egress else 0xFFFF⟩
        ms.foldl (fun u m => u.linkCopy f m) t

/-- Whether frames can be given their buffers and entries one after another (R270). -/
def State.fitsAll (s : State) : List Frame → Bool
  | [] => true
  | f :: fs => s.canAllocate f && (s.allocate f 0).fitsAll fs

/-! ## Flushes (R276) -/

/-- Every entry of a queue that is not yet released, with agent kind FLUSH. -/
def State.flushCopies (s : State) (pick : Copy → Bool) (agent : Nat) (note : State → Copy → State) : State :=
  (s.quay.copies.filter pick).foldl (fun t c => (note t c).releaseCopy c agent) s

/-- The frames of receive queue `q` released by a flush and counted (R276, R471). -/
def State.flushRxQueue (s : State) (q : Nat) : State :=
  s.flushCopies (fun c => match c.host with | some (x, _) => x == q | none => false) (agentCode 6 q)
    fun t _ => t.count P.HST_RXQ_FLUSHED q

/-- A loss of PD8 (R281): every copy that the quay holds is counted as a link-down loss of its port, and no buffer is HELD. -/
def State.quayLost (s : State) : State :=
  let mine := s.quay.copies.filter fun c => !c.keel
  let t := mine.foldl (fun u c =>
    ((if c.host.isNone then u.count P.PRT_LINKDOWN_DROP c.port else u).settleSlot c (agentCode 1 c.port)).queueBytes c
      fun n => n - c.bytes) s
  let held := s.quay.buffers.map fun b => b.frame
  let t := t.setFab fun x => { x with frames := x.frames.filter fun f => !held.contains f.id, allocStall := [] }
  let t := t.setQuay fun x => { x with
    buffers := [], freed := [], unused := [0, 0, 0, 0], damaged := [],
    copies := x.copies.filter Copy.keel, sending := x.sending.filter fun y => !(mine.any fun c => c.id == y.copy) }
  (List.range 5).foldl (fun u k => (u.wr P.BUF_HELD k 0).evaluate k) t

/-- A power-up of PD8 (R274): every buffer is FREE, those in quarantine too. -/
def State.quayUp (s : State) : State := (s.setQuay fun x => { x with quarantined := [] }).wr P.BUF_QUARANTINED 0 0

end Sys2Proof.Machine
end

