-- ==== Sys2Proof/Machine/Sluice.lean ====
section
/-! DEFINITION. The sluice chain (R259 to R264): what each link raises and clears, the pairs held off, and the flow control
frames they cause. -/

namespace Sys2Proof.Machine

/-! ## What an inlet holds -/

/-- The bytes of a queued frame that no cell has taken yet. -/
def State.untaken (s : State) (q : Queued) : Nat :=
  match s.frame q.frame with
  | some f => f.size - (q.taken - 32)
  | none => 0

/-- The frames of inlet `i` that wait in its ingress FIFO, admitted or not (R260). -/
def State.fifoFrames (s : State) (i : Nat) : List Frame :=
  (s.fabric.waiting ++ s.fabric.queued.map fun q => q.frame).filterMap fun id =>
    match s.frame id with
    | some f => if f.inlet = i then some f else none
    | none => none

/-- The bytes the ingress FIFO of inlet `i` holds (R260). -/
def State.fifoBytes (s : State) (i : Nat) : Nat :=
  let w := s.fabric.waiting.map fun id => match s.frame id with | some f => if f.inlet = i then f.size else 0 | none => 0
  let q := s.fabric.queued.map fun q => match s.frame q.frame with | some f => if f.inlet = i then s.untaken q else 0 | none => 0
  (w ++ q).foldl (· + ·) 0

/-! ## Signals (R259) -/

/-- The cells of class `c` for outlet `o` in basin `j`. -/
def State.basinQueue (s : State) (j o c : Nat) : List Cell :=
  s.fabric.cells.filter fun x => x.basin == j && x.outlet == o && x.cls == c

/-- The deepest basin queue for an outlet and class. -/
def State.deepest (s : State) (o c : Nat) : Nat :=
  ((List.range 64).map fun j => (s.basinQueue j o c).length).foldl max 0

/-- The shared buffers in use in basin `j` (R229). -/
def State.sharedUsed (s : State) (j : Nat) : Nat :=
  let mine := s.fabric.cells.filter fun x => x.basin == j
  let keys := (mine.map fun x => (x.outlet, x.cls)).eraseDups
  (keys.map fun k => (mine.filter fun x => (x.outlet, x.cls) == k).length - s.rd P.FAB_BASIN_RESERVE).foldl (· + ·) 0

/-- The shared buffers free in basin `j`. -/
def State.sharedFree (s : State) (j : Nat) : Nat := 8192 - 512 * s.rd P.FAB_BASIN_RESERVE - s.sharedUsed j

/-- The ports of class-`c` frames for outlet `o` that the inlets hold now (R261). -/
def State.portsFor (s : State) (o c : Nat) : List Nat :=
  ((s.fabric.waiting ++ s.fabric.queued.map fun q => q.frame).filterMap fun id =>
    match s.frame id with
    | some f => if f.outlet = o ∧ f.cls = c then some f.port else none
    | none => none).eraseDups

/-- SLOW for one outlet and class evaluated. -/
def State.slowOne (s : State) (k : Nat × Nat) : State :=
  let (o, c) := k
  let raised := s.fabric.slow.any fun x => x.outlet == o && x.cls == c
  let d := s.deepest o c
  if !raised && decide (s.rd P.PRT_SLOW_ON ≤ d) then
    s.setFab fun x => { x with slow := x.slow ++ [⟨o, c, s.portsFor o c⟩] }
  else if raised && decide (d ≤ s.rd P.PRT_SLOW_OFF) then
    s.setFab fun x => { x with slow := x.slow.filter fun y => !(y.outlet == o && y.cls == c) }
  else s

/-- STOP of one basin evaluated. -/
def State.stopOne (s : State) (j : Nat) : State :=
  let raised := s.fabric.sluice.contains j
  let free := s.sharedFree j
  if !raised && decide (free ≤ s.rd P.PRT_STOP_FREE_ON) then s.setFab fun x => { x with sluice := x.sluice ++ [j] }
  else if raised && decide (s.rd P.PRT_STOP_FREE_OFF ≤ free) then s.setFab fun x => { x with sluice := x.sluice.erase j }
  else s

/-- FIFO hold of one inlet evaluated. -/
def State.fifoOne (s : State) (i : Nat) : State :=
  let raised := s.fabric.fifoHold.contains i
  let n := s.fifoBytes i
  if !raised && decide (s.rd P.PRT_FIFO_XOFF ≤ n) then s.setFab fun x => { x with fifoHold := x.fifoHold ++ [i] }
  else if raised && decide (n ≤ s.rd P.PRT_FIFO_XON) then s.setFab fun x => { x with fifoHold := x.fifoHold.erase i }
  else s

/-! ## Flow control on the wire (R261, R262) -/

/-- A MAC control frame of port `p`. -/
def State.macControl (s : State) (p : Nat) (body : List Byte) : List Byte :=
  let f := toBe 6 0x0180C2000001 ++ toBe 6 (s.portMac p) ++ toBe 2 0x8808 ++ body
  withFcs (f ++ zeros (60 - f.length))

/-- A PFC frame for one class. -/
def State.pfcFrame (s : State) (p c quanta : Nat) : List Byte :=
  s.macControl p (toBe 2 0x0101 ++ toBe 2 (2 ^ c) ++
    ((List.range 8).map fun i => toBe 2 (if i = c then quanta else 0)).flatten)

/-- A PAUSE frame. -/
def State.pauseFrame (s : State) (p quanta : Nat) : List Byte := s.macControl p (toBe 2 0x0001 ++ toBe 2 quanta)

/-- Whether port `p` uses PAUSE. -/
def State.usesPause (s : State) (p : Nat) : Bool := s.rdb P.PRT_FC_MODE p

/-- A flow control frame sent now: XOFF, counted and remembered with its quanta, or quanta 0 (R262). Class 8 stands for PAUSE, whose XOFF
counts under class 0. The frame is stamped like every frame (R60). -/
def State.flowNow (s : State) (p c : Nat) (on : Bool) : State :=
  let q := if on then s.rd P.PRT_PFC_QUANTA else 0
  let t := (s.stamped p).emit (.frame p (if c = 8 then s.pauseFrame p q else s.pfcFrame p c q))
  if on then
    (t.setFab fun x => { x with
      off := x.off.map fun h => if h.port = p ∧ h.cls = c then { h with sentAt := s.clock, quanta := q } else h }).count
      P.PRT_PFC_TX_XOFF (8 * p + c % 8)
  else t

/-- A flow control frame of a port (R262): it waits for the end of the frame in transmission. -/
def State.sendFlow (s : State) (p c : Nat) (on : Bool) : State :=
  if s.quay.sending.any fun x => x.port == p then s.setFab fun x => { x with owed := x.owed ++ [(p, c, on)] } else s.flowNow p c on

/-- The flow control frames that waited for the end of the frame in transmission on port `p`. -/
def State.payFlow (s : State) (p : Nat) : State :=
  (s.fabric.owed.filter fun x => x.1 == p).foldl (fun t x => t.flowNow p x.2.1 x.2.2)
    (s.setFab fun x => { x with owed := x.owed.filter fun y => y.1 != p })

/-- The inter-frame gap that follows a transmission on port `p`, after a lock copy or not (R322). -/
def State.setGap (s : State) (p : Nat) (lock : Bool) : State :=
  s.setQuay fun q => { q with gaps := (q.gaps.filter fun g => g.1 != p) ++ [(p, s.clock + wireNs 12 (s.gbps p), lock)] }

/-- The pairs held off now (R261), a port in PAUSE mode as class 8. -/
def State.heldOff (s : State) : List (Nat × Nat) :=
  let bySlow := (s.fabric.slow.map fun x => x.ports.map fun p => (p, x.cls)).flatten
  let byFifo := (s.fabric.fifoHold.map fun i => (s.fifoFrames i).map fun f => (f.port, f.cls)).flatten
  (((bySlow ++ byFifo).filter fun k => s.portUp k.1).map fun k => if s.usesPause k.1 then (k.1, 8) else k).eraseDups

/-- The wire brought into line with the pairs held off (R262). -/
def State.updateOff (s : State) : State :=
  let want := s.heldOff
  let have_ := s.fabric.off.map fun h => (h.port, h.cls)
  let gone := s.fabric.off.filter fun h => !want.contains (h.port, h.cls)
  let new := want.filter fun k => !have_.contains k
  let t := s.setFab fun x => { x with
    off := (x.off.filter fun h => want.contains (h.port, h.cls)) ++ new.map fun k => ⟨k.1, k.2, s.clock, 0⟩ }
  let t := gone.foldl (fun u h => u.sendFlow h.port h.cls false) t
  new.foldl (fun u k => u.sendFlow k.1 k.2 true) t

/-- The chain evaluated: every SLOW, STOP and FIFO hold that may have changed, then the pairs held off. -/
def State.evaluateSluice (s : State) : State :=
  let keys := ((s.fabric.cells.map fun x => (x.outlet, x.cls)) ++ s.fabric.slow.map fun x => (x.outlet, x.cls)).eraseDups
  let basins := ((s.fabric.cells.map fun x => x.basin) ++ s.fabric.sluice).eraseDups
  let inlets := ((s.fabric.frames.map fun f => f.inlet) ++ s.fabric.fifoHold).eraseDups
  ((inlets.foldl State.fifoOne (basins.foldl State.stopOne (keys.foldl State.slowOne s)))).updateOff

/-- PFC_REPEAT (R262): half the pause time that the last XOFF announced has elapsed while a pair stays held off. -/
def execPfcRepeat (port : Fin 512) (cls : Fin 9) (s : State) : Host.Outcome State Fault Refusal :=
  let p := port.val
  let c := cls.val
  match s.fabric.off.find? fun h => h.port == p && h.cls == c with
  | some h =>
    if h.sentAt * s.gbps p * 2 + h.quanta * 512 ≤ s.clock * s.gbps p * 2 ∧ ¬ s.fabric.owed.contains (p, c, true) then
      .next (s.sendFlow p c true)
    else .next s
  | none => .next s

/-! ## Headroom (R264) -/

/-- H_p (R264); none where lane `p` is not the lowest of a port. -/
def State.headroom (s : State) (p : Nat) : Nat :=
  if s.rd P.PRT_LANES p = 0 then 0
  else ceilDiv (s.gbps p * (98 * s.rd P.PRT_FIBRE_LEN p + 10 * s.rd P.PRT_PARTNER_RESP p + 5000)) 80 + 19456

/-- PRT_HEADROOM_POOL (R264). -/
def State.headroomPool (s : State) : Nat :=
  64 * (8192 - 512 * s.rd P.FAB_BASIN_RESERVE - s.rd P.PRT_STOP_FREE_ON) * 256

/-- The sum against the pool: a deficit that was not there before sets the flag and raises the fault (R264). -/
def State.headroomTest (s : State) (sum : Nat) : State :=
  let was := decide (s.rd P.PRT_HEADROOM_POOL < s.rd P.PRT_HEADROOM_SUM)
  let pool := s.headroomPool
  let t := (s.wr P.PRT_HEADROOM_SUM 0 sum).wr P.PRT_HEADROOM_POOL 0 pool
  if pool < sum ∧ ¬ was then (t.orIn P.PRT_FLAGS 0 1).sticky 7 sum else t

/-- The headroom of the named ports recomputed, and the sum with it. -/
def State.refreshHeadroom (s : State) (ps : List Nat) : State :=
  let x := ps.foldl (fun (a : State × Nat) p =>
    let h := a.1.headroom p
    (a.1.wr P.PRT_HEADROOM p h, a.2 + h - a.1.rd P.PRT_HEADROOM p)) (s, s.rd P.PRT_HEADROOM_SUM)
  x.1.headroomTest x.2

end Sys2Proof.Machine
end

