-- ==== Sys2Proof/Machine/Fabric.lean ====
section
/-! DEFINITION. The two-stage fabric (R221 to R247): cells, basins, resequencers, reassembly, the step and the fabric's
states. -/

namespace Sys2Proof.Machine

/-- The number of a stream of cells. -/
def streamNo (inlet outlet cls : Nat) : Nat := (inlet * 64 + outlet) * 8 + cls

/-- The stream of a cell. -/
def Cell.stream (c : Cell) : Nat := streamNo c.inlet c.outlet c.cls

/-- The payload bytes of a cell that carry segments (R227). -/
def Cell.bytes (c : Cell) : Nat := (c.segs.map Seg.len).foldl (· + ·) 0

/-! ## What the cells carry (R227, R228) -/

/-- One bit into the CRC-16 of R227, polynomial 0x1021. -/
def crc16Bit (c : Nat) (b : Bool) : Nat := (2 * c % 65536) ^^^ (if c.testBit 15 != b then 0x1021 else 0)

/-- HCRC: the CRC-16 over bits 127:16 of a cell header, bit 127 first (R227). -/
def hcrc (h : Nat) : Nat := ((List.range 112).map fun i => h.testBit (127 - i)).foldl crc16Bit 0xFFFF

/-- Whether the HCRC of a header is right. -/
def headerGood (h : Nat) : Bool := h % 65536 == hcrc h

/-- The 11 bits of a segment (R227). -/
def Seg.field (g : Seg) : Nat := b2n g.sof * 2 ^ 10 + b2n g.eof * 2 ^ 9 + g.len

/-- The 128-bit header of a cell (R227). The header of a connection that offers nothing is 0. -/
def State.cellHeader (s : State) (c : Cell) : Nat :=
  let first := (c.segs.find? Seg.sof).bind fun g => s.frame g.frame
  let tag := match first with | some f => b2n f.tag.isSome | none => 0
  let seg (i : Nat) : Nat := match c.segs[i]? with | some g => g.field | none => 0
  let h := 2 ^ 127 + c.outlet * 2 ^ 121 + c.cls * 2 ^ 118 + c.inlet * 2 ^ 112 + c.seq * 2 ^ 96 + (c.bytes - 1) * 2 ^ 88 +
    (c.segs.length - 1) * 2 ^ 86 + b2n c.express * 2 ^ 85 + b2n c.stomp * 2 ^ 84 + b2n c.abort * 2 ^ 83 + tag * 2 ^ 82 +
    seg 0 * 2 ^ 71 + seg 1 * 2 ^ 60 + seg 2 * 2 ^ 49 + seg 3 * 2 ^ 38
  h + hcrc h

/-- The 32 bytes of a frame's prefix (R228). -/
def Frame.prefixBytes (f : Frame) : List Byte :=
  toBe 8 f.stamp.ns ++ toBe 2 f.stamp.sub ++ toBe 1 f.stamp.code ++ toBe 1 f.stamp.flags ++ toBe 2 f.port ++ toBe 2 f.sid ++
    toBe 2 f.len ++ toBe 1 f.kind ++ toBe 1 (f.mode + 4 * f.profile) ++ toBe 2 f.dest ++ toBe 2 f.mirror ++ toBe 1 f.reach ++
    toBe 1 f.cls ++ toBe 2 f.epoch ++ zeros 4

/-- The 256 bytes of a cell's payload: its segments in order, each of its frame's prefix and bytes, then padding (R225, R227). -/
def State.cellPayload (s : State) (c : Cell) : List Byte :=
  let part (g : Seg) : List Byte := match s.frame g.frame with
    | some f => fit g.len (slice g.at_ g.len (f.prefixBytes ++ f.data))
    | none => zeros g.len
  fit 256 ((c.segs.map part).flatten)

/-! ## Forming cells (R224 to R226) -/

/-- A frame in an inlet queue with its entry. -/
def State.queuedFrames (s : State) (i : Nat) : List (Queued × Frame) :=
  s.fabric.queued.filterMap fun q =>
    match s.frame q.frame with
    | some f => if f.inlet = i then some (q, f) else none
    | none => none

/-- The heads of the inlet queues among the frames of an inlet, in order of entry. -/
def headsOf : List (Queued × Frame) → List (Nat × Nat) → List (Queued × Frame)
  | [], _ => []
  | x :: xs, seen =>
    let k := (x.2.outlet, x.2.cls)
    if seen.contains k then headsOf xs seen else x :: headsOf xs (k :: seen)

/-- The payload of a frame not yet in a cell, of what has been received. -/
def payloadLeft (q : Queued) (f : Frame) : Nat := f.size + 32 - 4 * b2n f.cut - q.taken

/-- Whether a head frame can form a cell now (R225, R244). -/
def State.cellReady (s : State) (x : Queued × Frame) : Bool :=
  (s.rd P.FAB_STATE != 3 || decide (0 < x.1.taken)) &&
    (!x.2.express || x.1.taken == 0 || x.2.ended || decide (256 ≤ payloadLeft x.1 x.2))

/-- Whether the basin's sluice, or its balance, bars an inlet queue (R226, R232, R259); the later cells of a started express
frame are never barred (R257). -/
def State.sluiced (s : State) (j : Nat) (f : Frame) : Bool :=
  s.fabric.sluice.contains j && decide (s.rd P.FAB_BASIN_RESERVE < (s.basinQueue j f.outlet f.cls).length)

/-- The cells held for outlet `o` in basin `j`, and the smallest such depth (R232). -/
def State.depth (s : State) (j o : Nat) : Nat := (s.fabric.cells.filter fun x => x.basin == j && x.outlet == o).length
def State.depthMin (s : State) (o : Nat) : Nat := ((List.range 64).map fun j => s.depth j o).foldl min 8192

def State.balances (s : State) (j : Nat) (f : Frame) : Bool :=
  decide (s.depthMin f.outlet + s.rd P.FAB_BALANCE_D ≤ s.depth j f.outlet)

/-- The segments of a cell formed from the frames of one inlet queue, with the bytes each takes: at most 4 segments in the
room left, a prefix never split (R225). -/
def packSegs : Nat → Nat → List (Queued × Frame) → List Seg
  | 0, _, _ => []
  | _, _, [] => []
  | n + 1, room, (q, f) :: xs =>
    let left := payloadLeft q f
    if room = 0 ∨ (q.taken = 0 ∧ room < 32) then []
    else
      let k := min room left
      ⟨f.id, q.taken, k, q.taken == 0, k == left⟩ :: (if k = left then packSegs n (room - k) xs else [])

/-- The cell of an express frame (R225, R246). -/
def expressSegs (q : Queued) (f : Frame) : List Seg :=
  let left := payloadLeft q f
  if left = 0 then [⟨f.id, q.taken, 1, false, true⟩]
  else
    let k := min 256 left
    [⟨f.id, q.taken, k, q.taken == 0, f.ended && k == left⟩]

/-- The cell an inlet forms from a head frame for basin `j` (R225, R227); while the fabric drains, of frames already begun alone (R244). -/
def State.formCell (s : State) (i j : Nat) (x : Queued × Frame) : Cell :=
  let f := x.2
  let k := streamNo i f.outlet f.cls
  let mine := (s.queuedFrames i).filter fun y => y.2.outlet == f.outlet && y.2.cls == f.cls
  let plain := mine.takeWhile fun y => !y.2.express && (s.rd P.FAB_STATE != 3 || decide (0 < y.1.taken))
  let segs := if f.express then expressSegs x.1 f else packSegs 4 256 plain
  let ends := f.express && segs.any fun g => g.eof
  ⟨j, f.outlet, f.cls, i, look k 0 s.fabric.seqOut, segs, f.express, ends && f.stomp, ends && f.abort, false⟩

/-- The length field of an express frame's prefix is fixed as its first cell leaves: bit 15 says that the frame had not ended (R228). -/
def State.fixLen (s : State) (f : Frame) (first : Bool) : State :=
  if f.express && first then s.setFrame f.id fun g => { g with len := g.size + if g.ended then 0 else 32768 } else s

/-- The inlet queue after a cell has taken its segments. -/
def takeSegs (segs : List Seg) (qs : List Queued) : List Queued :=
  qs.filterMap fun q =>
    match segs.find? fun g => g.frame == q.frame with
    | some g => if g.eof then none else some { q with taken := q.taken + g.len }
    | none => some q

/-- Bytes of a slot added to a category (R247). -/
def State.slot (s : State) (b unit cat n : Nat) : State := if n = 0 then s else s.count b (4 * unit + cat) n

/-- FAB_BASIN_OCC of basin `j` brought up to date. -/
def State.basinOcc (s : State) (j : Nat) : State :=
  let n := (s.fabric.cells.filter fun x => x.basin == j).length
  (s.wr P.FAB_BASIN_OCC j n).peak P.FAB_BASIN_PEAK j n

/-- Whether basin `j` can hold one more cell of an outlet and class (R229). -/
def State.basinTakes (s : State) (j o c : Nat) : Bool :=
  decide ((s.basinQueue j o c).length < s.rd P.FAB_BASIN_RESERVE) || decide (0 < s.sharedFree j)

/-- One inlet's connection of stage 1 (R221, R226, R229, R247). -/
def State.stage1 (s : State) (step i : Nat) : State :=
  let j := (i + step) % 64
  let heads := (headsOf (s.queuedFrames i) []).filter s.cellReady
  if heads = [] then s.slot P.FAB_SLOT_S1 i 2 256
  else
    let started (x : Queued × Frame) : Bool := x.2.express && decide (0 < x.1.taken)
    let free := heads.filter fun x => started x || (!s.sluiced j x.2 && !s.balances j x.2)
    let top := [7, 6, 5, 4, 3, 2, 1, 0].findSome? fun c => free.find? fun x => x.2.cls == c
    match top with
    | none =>
      s.slot P.FAB_SLOT_S1 i (if heads.all fun x => s.balances j x.2 && !s.sluiced j x.2 then 1 else 3) 256
    | some x =>
      if !s.basinTakes j x.2.outlet x.2.cls then s.slot P.FAB_SLOT_S1 i 3 256
      else
        let s := s.fixLen x.2 (x.1.taken == 0)
        let c := s.formCell i j x
        let t := s.setFab fun y => { y with
          cells := y.cells ++ [c], queued := takeSegs c.segs y.queued,
          seqOut := store ltNat c.stream 0 ((c.seq + 1) % 65536) y.seqOut }
        let t := (t.slot P.FAB_SLOT_S1 i 0 c.bytes).slot P.FAB_SLOT_S1 i 1 (256 - c.bytes)
        let first := match c.segs.find? fun g => g.sof with | some g => t.frame g.frame | none => none
        let t : State := match first with
          | some f => t.traceEvent f ⟨1, 0, none, i, s.fifoBytes i, 0⟩
          | none => t
        t.basinOcc j

/-! ## The outlet (R231 to R238) -/

/-- Whether outlet `o` is stopping class `c` (R259, R270, R279). -/
def State.stopping (s : State) (o c : Nat) : Bool :=
  s.fabric.classStop.contains (o, c) || (s.fabric.allocStall.any fun x => x.1 == o) || s.poolStop c

/-- The expected sequence number of a stream. -/
def State.expected (s : State) (k : Nat) : Nat := look k 0 s.fabric.expect

/-- FAB_RESEQ_OCC of outlet `o` brought up to date; the outlet enters stall at 256 parked cells, and leaves it at FAB_RESEQ_RESUME
(R236). -/
def State.reseqOcc (s : State) (o : Nat) : State :=
  let n := (s.fabric.parked.filter fun x => x.outlet == o).length
  let t := (s.wr P.FAB_RESEQ_OCC o n).peak P.FAB_RESEQ_PEAK o n
  if t.fabric.stall.contains o then
    if n ≤ t.rd P.FAB_RESEQ_RESUME then t.setFab fun x => { x with stall := x.stall.erase o } else t
  else if 256 ≤ n then (t.setFab fun x => { x with stall := x.stall ++ [o] }).count P.FAB_RESEQ_STALLS o
  else t

/-- A port that has begun an express frame that never ends sends what it has, with an inverted FCS (assumption 56). -/
def State.cutSending (s : State) (f : Frame) (c : Copy) : State :=
  match s.quay.sending.find? fun x => x.copy == c.id with
  | some x =>
    let (t, body) := s.inserted x.port { f with data := f.data ++ zeros 4 } x.stamp
    ((t.emit (.frame x.port (body ++ stompedFcs body))).setGap x.port c.lock.isSome).payFlow x.port
  | none => s

/-- A frame that an outlet discards: its copies are released by the outlet, and it leaves the module (R237, R238, R273). -/
def State.discardAt (s : State) (id o counter : Nat) : State :=
  match s.frame id with
  | none => s
  | some f =>
    if f.gone then s.retire id
    else
      let t := (s.count counter).traceDrop f 3 o counter
      let t := (t.quay.copies.filter fun c => c.frame == id).foldl (fun u c => (u.cutSending f c).releaseCopy c (agentCode 4 o)) t
      t.retire id

/-- One segment reassembled (R238, R269). -/
def State.segment (s : State) (k : Nat) (abort : Bool) (g : Seg) (last : Bool) : State :=
  let o := k / 8 % 64
  let s := if abort ∧ last then s.setFrame g.frame fun f => { f with abort := true } else s
  match s.frame g.frame with
  | none => s
  | some f =>
    let t := s.setFab fun x => { x with assembly := store ltNat k 0 (if g.eof then 0 else f.id + 1) x.assembly }
    let t := if g.sof then t.allocate f (g.len - 32)
      else t.setQuay fun x => { x with buffers := x.buffers.map fun b => if b.frame = f.id then { b with got := b.got + g.len } else b }
    let t := t.growCopies f (t.copyBytes f)
    if g.eof then
      if f.abort then t.discardAt f.id o P.FAB_ABORT_FRAMES
      else
        let t := t.setQuay fun x => { x with buffers := x.buffers.map fun b => if b.frame = f.id then { b with got := f.size } else b }
        let t := (t.growCopies f (t.copyBytes f)).traceEvent f ⟨3, 0, none, o, (t.fabric.parked.filter fun x => x.outlet == o).length, 0⟩
        if (t.frame f.id).any Frame.gone then t.retire f.id else t
    else t

/-- Segments reassembled in order; those of a stream that skips are discarded up to the next SOF (R237). -/
def State.segmentsOf (s : State) (k : Nat) (abort : Bool) : List Seg → State
  | [] => s
  | g :: gs =>
    if s.fabric.skipping.contains k ∧ ¬ g.sof then
      (if g.eof then s.discardAt g.frame (k / 8 % 64) P.FAB_FAULT_FRAMES else s).segmentsOf k abort gs
    else
      ((s.setFab fun x => { x with skipping := x.skipping.filter fun y => y != k }).segment k abort g (gs == [])).segmentsOf k abort gs

/-- The frames that begin in a cell. -/
def State.starts (s : State) (c : Cell) : List Frame := (c.segs.filter Seg.sof).filterMap fun g => s.frame g.frame

/-- The free buffers that the frames of a cell would take, with their parity tested (R277). -/
def State.prepare (s : State) (c : Cell) : State := (s.starts c).foldl State.clearFor s

/-- Whether every frame that begins in a cell can be given its buffer and entries now, one after another (R270). -/
def State.cellFits (s : State) (c : Cell) : Bool := s.fitsAll (s.starts c)

/-- A cell that must wait for memory puts its outlet into allocation stall (R270). -/
def State.enterAllocStall (s : State) (o : Nat) (c : Cell) : State :=
  let t := if s.fabric.allocStall.contains (o, c) then s else s.setFab fun x => { x with allocStall := x.allocStall ++ [(o, c)] }
  if s.fabric.allocStall.any fun x => x.1 == o then t else (t.count P.BUF_ALLOC_STALL).orIn P.BUF_FLAGS 0 4

/-- A cell in order passes to reassembly, and the parked cells that follow it in sequence (R234); the first that needs memory waits in
allocation stall. -/
def State.pass (s : State) : Nat → Cell → State
  | 0, _ => s
  | n + 1, c =>
    let k := c.stream
    let t := s.segmentsOf k c.abort c.segs
    let e := (c.seq + 1) % 65536
    let t := t.setFab fun x => { x with expect := store ltNat k 0 e x.expect }
    match t.fabric.parked.find? fun x => x.stream == k && x.seq == e with
    | some p =>
      let t := t.prepare p
      if t.cellFits p then (t.setFab fun x => { x with parked := x.parked.erase p }).pass n p else t.enterAllocStall c.outlet p
    | none => t

/-- A cell that waits for memory goes on once it fits: a parked one passes, one in a basin is offered again (R270). -/
def State.freeStalled (s : State) (o : Nat) (c : Cell) : State :=
  let t := s.prepare c
  if t.cellFits c then
    let t := t.setFab fun x => { x with allocStall := x.allocStall.erase (o, c) }
    if t.fabric.parked.contains c then ((t.setFab fun x => { x with parked := x.parked.erase c }).pass 257 c).reseqOcc o else t
  else t

/-- An outlet leaves allocation stall as soon as there is memory for what waits (R270). -/
def State.leaveAllocStall (s : State) (o : Nat) : State :=
  (s.fabric.allocStall.filter fun x => x.1 == o).foldl (fun t x => t.freeStalled o x.2) s

/-- How far a sequence number lies ahead of the expected one of its stream, modulo 65,536 (R233): 0 is in order, up to 256 within the
window, and one that lies 32,768 or more ahead lies behind (assumption 54). -/
def State.ahead (s : State) (c : Cell) : Nat := (c.seq + 65536 - s.expected c.stream) % 65536

/-- A cell whose sequence number has been passed is discarded with the frames that end in it (R237, assumption 54). -/
def State.discardCell (s : State) (c : Cell) : State :=
  (c.segs.filter Seg.eof).foldl (fun t g => t.discardAt g.frame c.outlet P.FAB_FAULT_FRAMES) s

/-- The heads of the basin queues of basin `j` for outlet `o`, the oldest first (R230, R231). -/
def basinHeads : List Cell → List Nat → List Cell
  | [], _ => []
  | c :: cs, seen => if seen.contains c.cls then basinHeads cs seen else c :: basinHeads cs (c.cls :: seen)

/-- A cell in a basin whose payload is uncorrectable is counted once and goes on with ABORT, now or when it is accepted (R232). -/
def State.markFaulty (s : State) (c : Cell) : State × Cell :=
  if c.faulty then (s, c)
  else
    let d := { c with abort := true, faulty := true }
    (((s.setFab fun x => { x with cells := x.cells.map fun y => if y = c then d else y }).count P.FAB_ECC_UNCORR).orIn P.FAB_FLAGS 0 8, d)

/-- What an ECC check finds in the cell that a basin offers (R232): corrected, uncorrectable with the header intact, or a header
whose HCRC fails, which discards the cell with the frames that lie whole in it. -/
def State.basinCheck (s : State) (c : Cell) (fault : Option CellFault) : State × Option Cell :=
  match fault with
  | none => (s, some c)
  | some .corrected => (s.count P.FAB_ECC_CORR, some c)
  | some (.uncorrectable flip) =>
    if headerGood (s.cellHeader c ^^^ flip.toNat) then
      let x := s.markFaulty c
      (x.1, some x.2)
    else
      let t := ((if c.faulty then s else s.count P.FAB_ECC_UNCORR).count P.FAB_HDR_ERR).orIn P.FAB_FLAGS 0 8
      let whole := c.segs.filter fun g => g.sof && g.eof
      let t := t.setFab fun x => { x with cells := x.cells.erase c }
      (whole.foldl (fun u g => u.discardAt g.frame c.outlet P.FAB_FAULT_FRAMES) t, none)

/-- A cell that an outlet accepts from basin `j` leaves it: its slot is classed and its trace record written (R247, R459). -/
def State.acceptCell (s : State) (o j : Nat) (c : Cell) : State :=
  let t := (s.slot P.FAB_SLOT_S2 o 0 c.bytes).slot P.FAB_SLOT_S2 o 1 (256 - c.bytes)
  let t := t.setFab fun x => { x with cells := x.cells.erase c }
  let first := (c.segs.find? Seg.sof).bind fun g => t.frame g.frame
  let t : State := match first with
    | some f => t.traceEvent f ⟨2, 0, none, j, (s.basinQueue j o c.cls).length, 0⟩
    | none => t
  t.basinOcc j

/-- What an outlet does with a cell that basin `j` offers (R233 to R237, R270): in order it passes, within the window it is parked,
behind the expected number it is discarded; in stall, or beyond the window, it is refused. -/
def State.offer (s : State) (o j : Nat) (c : Cell) : State :=
  let d := s.ahead c
  if d = 0 then
    let t := (s.setFab fun x => { x with quiet := store ltNat o 0 (s.rd P.FAB_STEP_COUNT) x.quiet }).prepare c
    if !t.cellFits c then (t.enterAllocStall o c).slot P.FAB_SLOT_S2 o 3 256
    else ((t.acceptCell o j c).pass 257 c).reseqOcc o
  else if 32768 ≤ d then ((s.acceptCell o j c).discardCell c).reseqOcc o
  else if 256 < d ∨ s.fabric.stall.contains o then s.slot P.FAB_SLOT_S2 o 1 256
  else ((s.acceptCell o j c).setFab fun x => { x with parked := x.parked ++ [c] }).reseqOcc o

/-- One basin's connection of stage 2 (R231, R247, R257). -/
def State.stage2 (s : State) (step : Nat) (faults : List (Nat × CellFault)) (j : Nat) : State :=
  let o := (j + step) % 64
  let s := s.leaveAllocStall o
  let mine := s.fabric.cells.filter fun x => x.basin == j && x.outlet == o
  let express (c : Cell) : Bool := c.express && !(c.segs.any fun g => g.sof)
  match (basinHeads mine []).find? fun c => express c || !s.stopping o c.cls with
  | none => s.slot P.FAB_SLOT_S2 o (if mine = [] then 2 else 3) 256
  | some c =>
    let x := s.basinCheck c ((faults.find? fun x => x.1 == j).map fun x => x.2)
    match x.2 with
    | none => (x.1.slot P.FAB_SLOT_S2 o 2 256).basinOcc j
    | some d => x.1.offer o j d

/-- Whether steps run (R244). -/
def State.fabricRuns (s : State) : Bool := s.rd P.FAB_STATE == 2 || s.rd P.FAB_STATE == 3

/-- FABRIC_STEP (R221, R222): the completion barrier closes on one step. `faults` names the basins whose offered cell fails an
ECC check (R232), `upsets` what has gone wrong in the quay's memory since the last row (R276, R277). Stage 2 acts on what the basins hold
at the start of the step. -/
def execFabricStep (faults : List (Fin 64 × CellFault)) (upsets : List QuayUpset) (s : State) : Host.Outcome State Fault Refusal :=
  let s := upsets.foldl State.upset s
  if s.fabricRuns then
    let step := s.rd P.FAB_STEP_COUNT % 64
    let fs := faults.map fun x => (x.1.val, x.2)
    let t := (List.range 64).foldl (fun u j => u.stage2 step fs j) s
    let t := (List.range 64).foldl (fun u i => u.stage1 step i) t
    let t := t.wr P.FAB_STEP_COUNT 0 ((t.rd P.FAB_STEP_COUNT + 1) % 2 ^ 64)
    .next t.evaluateSluice
  else .next s

/-- An outlet declares a gap lost (R237): the stream of its oldest parked cell goes on with that cell; what it parked before that number,
and the frame in assembly, are discarded. -/
def State.skipTo (s : State) (o : Nat) (c : Cell) : State :=
  let k := c.stream
  let part := look k 0 s.fabric.assembly
  let t := if part = 0 then s else s.discardAt (part - 1) o P.FAB_FAULT_FRAMES
  let t := t.setFab fun x => { x with
    expect := store ltNat k 0 c.seq x.expect, assembly := store ltNat k 0 0 x.assembly,
    skipping := if x.skipping.contains k then x.skipping else x.skipping ++ [k],
    quiet := store ltNat o 0 (s.rd P.FAB_STEP_COUNT) x.quiet }
  let t := (t.fabric.parked.filter fun x => x.stream == k && decide (32768 ≤ t.ahead x)).foldl
    (fun u x => (u.setFab fun y => { y with parked := y.parked.erase x }).discardCell x) t
  (t.count P.FAB_RESEQ_SKIPS o).orIn P.FAB_FLAGS 0 16

/-- LOST_GAP (R237): an outlet that holds parked cells, stops no class and has been offered no in-order cell for
FAB_RESEQ_TIMEOUT steps skips to its oldest parked cell. -/
def execLostGap (outlet : Fin 64) (s : State) : Host.Outcome State Fault Refusal :=
  let o := outlet.val
  match s.fabric.parked.find? fun x => x.outlet == o with
  | some c =>
    let stops := (List.range 8).any fun k => s.stopping o k
    if !stops && decide (look o 0 s.fabric.quiet + s.rd P.FAB_RESEQ_TIMEOUT ≤ s.rd P.FAB_STEP_COUNT) then
      let t := (s.skipTo o c).prepare c
      let t := if t.cellFits c then (t.setFab fun x => { x with parked := x.parked.erase c }).pass 257 c else t.enterAllocStall o c
      .next (t.reseqOcc o)
    else .next s
  | none => .next s

/-! ## States (R244) -/

/-- PD6, PD7 and PD8 are up. -/
def State.fabricDomains (s : State) : Bool := [6, 7, 8].all fun d => s.rd P.PWR_DOMAIN_STATE d == 3

/-- OFF becomes DISABLED once PD6, PD7 and PD8 are all up (R244). -/
def State.fabricPower (s : State) : State :=
  if s.rd P.FAB_STATE = 0 ∧ s.fabricDomains then s.wr P.FAB_STATE 0 1 else s

/-- The fabric goes OFF: every frame with a cell in an inlet, a basin or a resequencer is lost and counted (R244). -/
def State.fabricOff (s : State) : State :=
  if s.rd P.FAB_STATE = 0 then s
  else
    let cut := (s.fabric.queued.filter fun q => decide (0 < q.taken)).map fun q => q.frame
    let inCells := ((s.fabric.cells ++ s.fabric.parked).map fun c => c.segs.map Seg.frame).flatten
    let lost := (cut ++ inCells).eraseDups
    let t := lost.foldl (fun u id => u.discardAt id (match u.frame id with | some f => f.outlet | none => 0) P.FAB_DRAIN_LOST) s.holdSettle
    let t := t.setFab fun x => { x with
      queued := x.queued.filter fun q => !cut.contains q.frame, frames := x.frames.filter fun f => !f.gone,
      cells := [], parked := [], seqOut := [], expect := [], assembly := [], skipping := [], stall := [], quiet := [],
      allocStall := [], drainBy := none }
    let t := (List.range 64).foldl (fun u j => (u.wr P.FAB_BASIN_OCC j 0).wr P.FAB_RESEQ_OCC j 0) t
    ((t.wr P.FAB_STATE 0 0).evaluateSluice)

/-- Whether nothing is left to drain: basins and resequencers empty, and no frame partly cut into cells (R244). -/
def State.drained (s : State) : Bool :=
  s.fabric.cells == [] && s.fabric.parked == [] && s.fabric.queued.all fun q => q.taken == 0

/-- DRAIN_COMPLETE (R244). -/
def execDrainComplete (s : State) : Host.Outcome State Fault Refusal :=
  if s.rd P.FAB_STATE = 3 ∧ s.drained then
    .next ((s.holdSettle.wr P.FAB_STATE 0 (if s.rd P.PWR_SHUTTER_STATE = 0 then 1 else 0)).setFab fun x => { x with drainBy := none })
  else .next s

/-- SHUTTER_DRAIN_EXPIRY (R244). -/
def execShutterDrainExpiry (s : State) : Host.Outcome State Fault Refusal :=
  match s.fabric.drainBy with
  | some t0 => if s.rd P.FAB_STATE = 3 ∧ t0 ≤ s.clock then .next s.fabricOff else .next s
  | none => .next s

/-- The fabric starts (R221, R233, R244): from DISABLED every counter and stream number is 0, from DRAINING they run on. -/
def State.fabricStart (s : State) : State :=
  if s.rd P.FAB_STATE = 1 then
    ((s.holdSettle.wr P.FAB_STATE 0 2).wr P.FAB_STEP_COUNT 0 0).setFab fun x => { x with
      seqOut := [], expect := [], assembly := [], skipping := [], stall := [], quiet := [], stepMark := 0, stepAt := s.clock }
  else (s.wr P.FAB_STATE 0 2).setFab fun x => { x with drainBy := none }

/-- FABRIC_ENABLE (R245). -/
def fabricEnable (o : Origin) (_p : List Byte) (s : State) : State :=
  if s.rd P.PWR_SHUTTER_STATE ≠ 0 then s.finish o Status.SHUTTER_ACTIVE []
  else if s.rd P.FAB_STATE = 2 then s.finish o Status.OK []
  else if s.rd P.FAB_STATE = 0 ∨ s.rd P.FAB_PACE_NOW ≠ s.rd P.FAB_PACE then s.finish o Status.NOT_READY []
  else s.fabricStart.finish o Status.OK []

/-- FABRIC_DISABLE (R245). -/
def fabricDisable (o : Origin) (_p : List Byte) (s : State) : State :=
  (if s.rd P.FAB_STATE = 2 then s.wr P.FAB_STATE 0 3 else s).finish o Status.OK []

/-! ## Speed, pace and margin (R239 to R243) -/

/-- The temperature factor of a pace at a die temperature in 0.1 °C, times 750,000 (R240): 750,000 below 25 °C. -/
def paceFactor (pace : Nat) (temp : Int) : Int :=
  let f100 : Int := match pace with | 0 => 960 | 1 => 920 | _ => 910
  if temp ≤ 250 then 750000 else 750000 - (1000 - f100) * (temp - 250)

/-- The margin checks of a RUNNING fabric (R242, R244): since when the speedup lies below the limit or above it by 0.020, and whether
the notice is armed again. -/
def State.marginCheck (s : State) (sp : Nat) : State :=
  let runs := s.rd P.FAB_STATE == 2
  let since (b : Bool) (o : Option Nat) : Option Nat := if b && runs then (match o with | some c => some c | none => some s.clock) else none
  let low := decide (sp < s.rd P.FAB_MARGIN_LIMIT)
  let high := decide (s.rd P.FAB_MARGIN_LIMIT + 20 ≤ sp)
  let t := s.setFab fun x => { x with lowSince := since low x.lowSince, highSince := since high x.highSince }
  match t.fabric.highSince with
  | some c => if c + 1000000000 ≤ s.clock then t.setFab fun x => { x with armed := true } else t
  | none => t

/-- STEP_RATE_MEASURE (R239, R240, R242): every 1 ms the step rate and the speedup. While no steps run both are 0, and the lowest and the
scaled speedup keep their values (assumption 52). -/
def execStepRateMeasure (s : State) : Host.Outcome State Fault Refusal :=
  if s.clock < s.fabric.stepAt + 1000000 then .next s
  else
    let n := (s.rd P.FAB_STEP_COUNT - s.fabric.stepMark) * 1000000 / (s.clock - s.fabric.stepAt)
    let n := if s.fabricRuns then n else 0
    let sp := clampU 16 (n * 1000 / 781250)
    let t := (s.setFab fun x => { x with stepMark := s.rd P.FAB_STEP_COUNT, stepAt := s.clock }).wr P.FAB_STEP_RATE 0 (clampU 32 n)
    let t := (t.wr P.FAB_SPEEDUP 0 sp).marginCheck sp
    if s.fabricRuns then
      let t := if sp < t.rd P.FAB_SPEEDUP_LOW then t.wr P.FAB_SPEEDUP_LOW 0 sp else t
      let fac := paceFactor (s.rd P.FAB_PACE) (s.rdS 16 P.HLT_DIE_TEMP 2)
      .next (t.wr P.FAB_SPEEDUP_25C 0 (clampU 16 (roundDiv ((sp * 750000 : Nat) : Int) fac.toNat).toNat))
    else .next t

/-- PACE_MARGIN (R242, R244): the speedup of a RUNNING fabric has stayed below the margin limit for FAB_MARGIN_TIME. -/
def execPaceMargin (s : State) : Host.Outcome State Fault Refusal :=
  match s.fabric.lowSince with
  | some c =>
    if s.fabric.armed ∧ s.rd P.FAB_STATE = 2 ∧ c + s.rd P.FAB_MARGIN_TIME * 1000000 ≤ s.clock then
      let sp := s.rd P.FAB_SPEEDUP
      let t := (s.setFab fun x => { x with armed := false }).orIn P.FAB_FLAGS 0 (1 + 2 * b2n (decide (sp < 1000)))
      .next (t.notice 2 (toBe 2 sp ++ toBe 1 (s.rd P.FAB_PACE) ++ toBe 1 (min 3 (s.rd P.FAB_PACE + 1)) ++
        toBe 2 (s.rd P.HLT_DIE_TEMP 2) ++ zeros 2))
    else .next s
  | none => .next s

/-- The mode whose target lies within ±15 mV of a voltage, or BETWEEN (R243). -/
def paceAt (mv : Nat) : Nat :=
  if 665 ≤ mv ∧ mv ≤ 695 then 0 else if 735 ≤ mv ∧ mv ≤ 765 then 1 else if 805 ≤ mv ∧ mv ≤ 835 then 2 else 3

/-- The mV target of a pace (R243). -/
def paceTarget (pace : Nat) : Nat := match pace with | 0 => 680 | 1 => 750 | _ => 820

/-- A measured VCORE taken in (R243): FAB_PACE_NOW follows it, a transition ends within ±15 mV of the target, and the time that VCORE has
been within 5 % of the target is kept (R435). `same` says whether FAB_PACE_NOW was FAB_PACE until now. -/
def State.vcore (s : State) (same : Bool) (mv : Nat) : State :=
  let t := (s.wr P.FAB_VCORE_MEAS 0 (clampU 10 mv)).wr P.FAB_PACE_NOW 0 (paceAt mv)
  let target := t.rd P.FAB_VCORE_TARGET
  let t := if t.fabric.moving ∧ target ≤ mv + 15 ∧ mv ≤ target + 15 then
      t.setFab fun x => { x with moving := false, bandLow := target, bandHigh := target } else t
  let t := t.setFab fun x => { x with
    mismatch := if t.rd P.FAB_PACE_NOW = t.rd P.FAB_PACE then none
                else if same then some s.clock else x.mismatch }
  let out := s.power.lostRails.contains 0 || !decide (95 * target ≤ 100 * mv ∧ 100 * mv ≤ 105 * target)
  let kept : Option Nat := match s.power.vcoreGood with | some c => some c | none => some s.clock
  t.setPower fun p => { p with vcoreGood := if out then none else kept }

/-- Whether FAB_PACE_NOW is FAB_PACE. -/
def State.paceSame (s : State) : Bool := s.rd P.FAB_PACE_NOW == s.rd P.FAB_PACE

/-- VCORE_TRANSITION_END (R243). -/
def execVcoreTransitionEnd (mv : BitVec 10) (s : State) : Host.Outcome State Fault Refusal := .next (s.vcore s.paceSame mv.toNat)

/-- VCORE_MISMATCH (R243): FAB_PACE_NOW has differed from FAB_PACE for 100 ms. -/
def execVcoreMismatch (s : State) : Host.Outcome State Fault Refusal :=
  match s.fabric.mismatch with
  | some c =>
    if c + 100000000 ≤ s.clock then
      .next (((s.setFab fun x => { x with mismatch := none }).orIn P.FAB_FLAGS 0 4).sticky 6 (s.rd P.FAB_VCORE_MEAS))
    else .next s
  | none => .next s

/-- A commit of FAB_PACE (R243). -/
def State.applyPace (s : State) (pace : Nat) : State :=
  let target := paceTarget pace
  let old := s.rd P.FAB_VCORE_TARGET
  let t := (s.wr P.FAB_PACE 0 pace).wr P.FAB_VCORE_TARGET 0 target
  let t := if target = old then t else t.setFab fun x => { x with
    moving := true, bandLow := min x.bandLow target, bandHigh := max x.bandHigh target }
  t.vcore s.paceSame (t.rd P.FAB_VCORE_MEAS)

end Sys2Proof.Machine
end

