-- ==== Sys2Proof/Machine/Ingress.lean ====
section
/-! DEFINITION. Frames on their way in (R224, R252 to R260, R283, R334, R458): the express start test, the end of a frame,
admission to an inlet queue, and the keel path of shutter mode. -/

namespace Sys2Proof.Machine

/-! ## Random tagging (R458) -/

/-- One step of a reach's tagging register: a 32-bit Fibonacci LFSR of x^32 + x^22 + x^2 + x + 1. -/
def lfsrStep (r : Nat) : Nat :=
  (2 * r + (b2n (r.testBit 31) + b2n (r.testBit 21) + b2n (r.testBit 1) + b2n (r.testBit 0)) % 2) % 2 ^ 32

/-- A parsed frame steps its reach's register and may be tagged; the tag number is the low 16 bits of OBS_TAG_COUNT (R459). -/
def State.tagFrame (s : State) (r : Nat) : State × Option Nat :=
  if s.rdb P.OBS_TAG_ENABLE then
    let v := lfsrStep (s.tagRegs.getD r 0)
    let t := { s with tagRegs := setAt r v s.tagRegs }
    if v % 2 ^ s.rd P.OBS_TAG_LOG2 = 0 then
      let t := t.count P.OBS_TAG_COUNT
      (t, some (s.rd P.OBS_TAG_COUNT % 65536))
    else (t, none)
  else (s, none)

/-! ## A frame and its inlet queue -/

/-- The prefix of a received frame (R228). `len` is the prefix length field. -/
def State.newFrame (s : State) (p : Nat) (bytes : List Byte) (l : Lookup) (x : Stamp) (len : Nat) (express ended : Bool)
    (tag : Option Nat) : Frame :=
  ⟨s.fabric.nextFrame, inletOf p, if l.kind = 0 then l.dest / 8 else inletOf p, x, p, l.sid, len, l.kind,
    streamInsert l.entry, streamProfile l.entry, l.dest, streamMirror l.entry, reachOf p, s.frameClass p bytes l.entry,
    s.rd P.TBL_EPOCH (reachOf p), express, bytes, ended, false, false, false, tag, none, none, none, l.entry, false, s.timingByte⟩

/-- Whether a frame is barred from its inlet queue: by the fabric's state, by HOLD, or by an earlier frame of its port and
class that still waits (R244, R342). -/
def State.barred (s : State) (entry : Nat) : Bool :=
  s.rd P.FAB_STATE != 2 || s.logBars entry

/-- A frame enters its inlet queue (R224, R334): its record is written by the Stream entry of its lookup. -/
def State.enterQueue (s : State) (id : Nat) : State :=
  match s.frame id with
  | none => s
  | some f =>
    let (t, r) := s.logFrame f.entry f
    let t := t.setFrame id fun x => { x with log := r }
    t.setFab fun x => { x with waiting := x.waiting.erase id, queued := x.queued ++ [⟨id, 0⟩] }

/-- A SLOW that is raised takes note of the port of a frame that the inlet takes for it (R261). -/
def State.slowTakes (s : State) (f : Frame) : State :=
  s.setFab fun x => { x with
    slow := x.slow.map fun y => if y.outlet = f.outlet ∧ y.cls = f.cls ∧ ¬ y.ports.contains f.port then
      { y with ports := y.ports ++ [f.port] } else y }

/-- A frame that its ingress FIFO cannot hold is counted (R260). -/
def State.overrun (s : State) (f : Frame) : State :=
  ((s.count P.PRT_RX_OVERRUN f.port).orIn P.PRT_FLAGS 0 2).traceDrop f 0 f.reach P.PRT_RX_OVERRUN

/-- A frame taken in (R224, R260): discarded where the ingress FIFO cannot hold it, else queued or held. -/
def State.takeIn (s : State) (f : Frame) : State :=
  let s := s.setFab fun x => { x with nextFrame := x.nextFrame + 1 }
  if 65536 < s.fifoBytes f.inlet + f.size then s.overrun f
  else
    let t := (s.setFab fun x => { x with frames := x.frames ++ [f] }).slowTakes f
    let t := t.traceEvent f ⟨0, 0, some f.stamp, f.reach, 0, 0⟩
    let behind := t.fabric.waiting.any fun id => match t.frame id with | some g => g.port == f.port && g.cls == f.cls | none => false
    let t := if t.barred f.entry || behind then t.setFab fun x => { x with waiting := x.waiting ++ [f.id] }
      else t.enterQueue f.id
    (t.fifoOne f.inlet).updateOff

/-! ## The keel path (R437) -/

/-- Whether a frame is an IEEE 1588 message that the service of the port takes (R122). -/
def State.ptpServed (s : State) (p : Nat) (bytes : List Byte) : Bool :=
  s.rd P.LNK_PTP_PORT_EN p != 0 && (ptpAt bytes).isSome

/-- The counter of R254 in which a received frame is discarded, and none where it is good: a bad FCS or an uncorrectable error, a runt, or
oversize, in that order. -/
def State.badFrame (s : State) (p : Nat) (bytes : List Byte) (bad : Bool) : Option Nat :=
  if bad ∨ ¬ fcsGood bytes then some P.PRT_RX_FCS_ERR
  else if bytes.length < 64 then some P.PRT_RX_RUNT
  else if s.rd P.PRT_MAX_FRAME p < bytes.length then some P.PRT_RX_OVERSIZE
  else none

/-- A good frame of a keel port in shutter mode that goes to a host queue by its trap, or is discarded (R437). -/
def State.keelTake (s : State) (f : Frame) : State :=
  match s.trapOf f with
  | some (q, i) =>
    if s.rxQueueTakes q f then
      let c : Copy := ⟨s.quay.nextCopy, f.id, 0, f.cls, s.clock, f.size, none, none, some (q, i), true, none⟩
      let t := s.setFab fun y => { y with frames := y.frames ++ [f], nextFrame := y.nextFrame + 1 }
      (t.setQuay fun y => { y with nextCopy := y.nextCopy + 1, copies := y.copies ++ [c] }).queueBytes c fun n => n + c.bytes
    else ((s.count P.HST_RXQ_BYPASS q).orIn P.HST_FLAGS 0 8).count P.PWR_SHUTTER_DISCARD
  | none => s.count P.PWR_SHUTTER_DISCARD

/-- A frame on a keel port in shutter mode (R251, R254, R437): a bad one is counted as in normal mode, a MAC control frame is consumed,
NHP and IEEE 1588 messages are carried to the management die, whose own commands give their effect; a trapped frame goes to its host
queue; every other frame is discarded and counted. -/
def State.keelFrame (s : State) (p : Nat) (bytes : List Byte) (bad : Bool) (raw : RawStamp) : State :=
  match s.badFrame p bytes bad with
  | some c => (s.stamped p).count c p
  | none =>
    if isMacControl bytes ∨ isNhp bytes ∨ s.ptpServed p bytes then s
    else
      let vid := (tagVid bytes).getD (s.rd P.TBL_PVID p)
      let (t, x) := s.rxStamp p raw
      t.keelTake (t.newFrame p bytes ⟨vid, s.rd P.TBL_PORT_GROUP p * 4096 + vid, 0, 0, p⟩ x bytes.length false true none)

/-- KEEL_FRAME (R437). -/
def execKeelFrame (port : Fin 512) (rx : Reception) (raw : RawStamp) (s : State) : Host.Outcome State Fault Refusal :=
  if s.rd P.PWR_SHUTTER_STATE ≠ 0 ∧ keelPort port.val ∧ s.portUp port.val then .next (s.keelFrame port.val rx.bytes rx.bad raw)
  else .next s

/-! ## Express frames (R255, R256) -/

/-- Whether no cell of a frame has left its inlet. -/
def State.untouched (s : State) (id : Nat) : Bool :=
  s.fabric.waiting.contains id || s.fabric.queued.any fun q => q.frame == id && q.taken == 0

/-- A frame taken back out of its inlet. -/
def State.withdraw (s : State) (id : Nat) : State :=
  (s.setFab fun x => { x with
    waiting := x.waiting.filter fun y => y != id, queued := x.queued.filter fun q => q.frame != id }).dropFrame id

/-- An express frame that ends before its end: discarded whole and counted where no cell of it has left, else ended with STOMP after the
bytes given, of which the port sends the inverse FCS (R256). -/
def State.endEarly (s : State) (f : Frame) (bytes : List Byte) (lost : State → State) : State :=
  if s.untouched f.id then (lost s).withdraw f.id
  else
    (s.setFrame f.id fun g => { g with
      data := bytes ++ zeros 4, ended := true, stomp := true, cut := true }).count P.PRT_RX_STOMP f.port

/-- An express frame's bytes received by now (R256, R260): beyond the maximum of its port, beyond its ingress FIFO, ended good, ended
stomped, or more of it. -/
def State.moreExpress (s : State) (id : Nat) (bytes : List Byte) (ended bad : Bool) : State :=
  match s.frame id with
  | none => s
  | some f =>
    let max_ := s.rd P.PRT_MAX_FRAME f.port
    if f.ended then s
    else if max_ < bytes.length then
      s.endEarly f (bytes.take (max_ - 4)) fun t => (t.count P.PRT_RX_OVERSIZE f.port).traceDrop f 1 f.inlet P.PRT_RX_OVERSIZE
    else if 65536 < s.fifoBytes f.inlet + (bytes.length - f.size) then
      (s.orIn P.PRT_FLAGS 0 2).endEarly f f.data fun t => t.overrun f
    else if ended ∧ (bad ∨ ¬ fcsGood bytes) then
      (s.setFrame id fun g => { g with data := bytes, ended := true, stomp := true }).count P.PRT_RX_STOMP f.port
    else s.setFrame id fun g => { g with data := bytes, ended := ended }

/-- Whether an error, and no other test, keeps a frame from being express (R255). -/
def expressError (p : List Byte) (ended bad : Bool) : Bool :=
  bad || (ended && (!fcsGood p || decide (p.length < 64)))

/-- The tests of R255 for an eligible frame without an error, beside the lookup's end: one unicast port that is up and no faster, not the
ingress port; neither a MAC control frame nor one for the module itself. -/
def State.expressPasses (s : State) (p : Nat) (bytes : List Byte) (l : Lookup) : Bool :=
  l.kind == 0 && s.portUp l.dest && l.dest != p && decide (s.gbps l.dest ≤ s.gbps p) && !isMacControl bytes && !isNhp bytes

/-- EXPRESS_START_TEST (R255): made at the 128th byte or at the frame's end, with the bytes received by then. Given again before the
frame's end, it says which bytes have come since (assumption 56). -/
def execExpressStartTest (port : Fin 512) (bytes : List Byte) (ended bad streamErr macErr : Bool) (raw : RawStamp)
    (s : State) : Host.Outcome State Fault Refusal :=
  let p := port.val
  if s.rd P.PWR_SHUTTER_STATE ≠ 0 ∨ ¬ s.portUp p ∨ (bytes.length < 128 ∧ ¬ ended) then .next s
  else
    match s.fabric.receiving.find? fun x => x.port == p with
    | some r => .next (if ended then s else (s.moreExpress r.frame bytes false false).evaluateSluice)
    | none =>
      let (t, l) := s.lookup p bytes streamErr macErr
      if expressError bytes ended bad ∨ ¬ (s.rdb P.PRT_EXPRESS p ∨ streamExpress l.entry) then .next s
      else if ¬ s.expressPasses p bytes l then .next (s.count P.PRT_EXPRESS_DEMOTED p)
      else
        let (t, tag) := t.tagFrame (reachOf p)
        let (t, x) := t.rxStamp p raw
        let f := t.newFrame p bytes l x (bytes.length + if ended then 0 else 32768) true ended tag
        let r : Receiving := ⟨p, f.id, l.vid, l.entry, x.ns⟩
        .next ((t.takeIn f).setFab fun y => { y with receiving := y.receiving ++ [r] })

/-! ## The end of a frame (R254, R256) -/

/-- The end of an express frame that passed its start test (R256, R293); its learn is asked for by its lookup. -/
def State.endExpress (s : State) (r : Receiving) (bytes : List Byte) (bad : Bool) : State :=
  let t := s.setFab fun x => { x with receiving := x.receiving.filter fun y => y.port != r.port }
  let t := t.moreExpress r.frame bytes true bad
  let t := if s.badFrame r.port bytes bad = none then t.learnRequest r.port bytes ⟨r.vid, 0, r.entry, 0, 0⟩ r.ns else t
  t.evaluateSluice

/-- FRAME_RECEIVED (R60, R254, R256, R283, R293, R334): a frame ends on a port, with its bytes from the destination MAC to the FCS.
`bad` says that a PCS or FEC error was uncorrectable. A good MAC control or NHP frame has a command of its own, which stamps it. -/
def execFrameReceived (port : Fin 512) (bytes : List Byte) (bad streamErr macErr : Bool) (raw : RawStamp) (s : State) :
    Host.Outcome State Fault Refusal :=
  let p := port.val
  if ¬ s.portUp p then .next s
  else if s.rd P.PWR_SHUTTER_STATE ≠ 0 then
    .next (if keelPort p then s.keelFrame p bytes bad raw else s)
  else
    match s.fabric.receiving.find? fun x => x.port == p, s.badFrame p bytes bad with
    | some r, _ => .next (s.endExpress r bytes bad)
    | none, some c => .next ((s.stamped p).count c p)
    | none, none =>
      if isMacControl bytes then .next s
      else if isNhp bytes then .next (if s.nhpRuns p then s else (s.stamped p).count P.HIE_RX_DISCARD)
      else
        let (t, x) := s.rxStamp p raw
        let (t, tag) := t.tagFrame (reachOf p)
        let (t, l) := t.lookup p bytes streamErr macErr
        let t := t.learnRequest p bytes l x.ns
        .next (t.takeIn (t.newFrame p bytes l x bytes.length false true tag))

/-- FRAME_ADMITTED (R224, R244, R342): the first frame held in an inlet's ingress FIFO whose bar has lifted enters its queue. -/
def execFrameAdmitted (inlet : Fin 64) (s : State) : Host.Outcome State Fault Refusal :=
  let i := inlet.val
  let free := s.fabric.waiting.find? fun id =>
    match s.frame id with
    | some f => f.inlet == i && !s.barred f.entry
    | none => false
  match free with
  | some id => .next ((s.enterQueue id).evaluateSluice)
  | none => .next s

end Sys2Proof.Machine
end

