-- ==== Sys2Proof/Machine/Nhp.lean ====
section
/-! DEFINITION. The hierarchy of modules (R405 to R425): hello, joining, the registry, relaying and the tunnels. -/

namespace Sys2Proof.Machine

/-- The hierarchy changed. -/
def State.setNhp (s : State) (f : Hierarchy → Hierarchy) : State := { s with nhp := f s.nhp }

/-- HIE_MEMBER_STATE (R414). -/
def State.member (s : State) : Nat := s.rd P.HIE_MEMBER_STATE

/-! ## Messages (R407, R408) -/

/-- The header fields of an NHP message, given as its bytes after the EtherType. -/
def nhpType (m : List Byte) : Nat := beAt 1 1 m
def nhpSender (m : List Byte) : Nat := beAt 4 8 m
def nhpPort (m : List Byte) : Nat := beAt 12 2 m
def nhpHops (m : List Byte) : Nat := beAt 14 1 m

/-- The body of a message: as many bytes after the header as it names. -/
def nhpBody (m : List Byte) : List Byte := slice 16 (beAt 2 2 m) m

/-- The first version of a message type, and whether a body length agrees with it (R408). -/
def nhpKnown (type len : Nat) : Option Nat :=
  match type with
  | 0x01 => if len = 16 ∨ len = 32 then some 1 else none
  | 0x02 => if len = 24 then some 1 else none
  | 0x03 => if len = 20 then some 1 else none
  | 0x04 => if len = 16 then some 1 else none
  | 0x05 => if len = 16 then some 2 else none
  | 0x06 => if 12 ≤ len ∧ len ≤ 12 + 16 * 64 ∧ (len - 12) % 16 = 0 then some 3 else none
  | 0x08 | 0x09 => if 16 ≤ len ∧ len ≤ 1040 then some 1 else none
  | _ => none

/-- Whether a message of a type is taken on a port; one that is not is discarded and counted (R407, R408). -/
def State.nhpTakes (s : State) (p type : Nat) (m : List Byte) : Bool :=
  s.nhpRuns p && nhpType m == type && decide ((nhpBody m).length = beAt 2 2 m ∧ 16 ≤ m.length) &&
    (match nhpKnown type (beAt 2 2 m) with
     | some v => type == 1 || decide (v ≤ s.rd P.HIE_PORT_VERSION p)
     | none => false)

/-- A message discarded and counted. -/
def State.nhpDiscard (s : State) : State := s.count P.HIE_RX_DISCARD

/-- A message passed on out of a port, with its hop limit less 1, and stamped as every frame is (R60); one that arrived with 0 is discarded
(R407). -/
def State.nhpRelay (s : State) (out : Nat) (m body : List Byte) : State :=
  if nhpHops m = 0 then s.nhpDiscard
  else if s.nhpRuns out ∧ s.rd P.HIE_PORT_VERSION out ≠ 0 then
    (s.stamped out).emit (.frame out (s.nhpFrame out (s.rd P.HIE_PORT_VERSION out) (nhpType m) (nhpHops m - 1) (nhpSender m) (nhpPort m) body))
  else s.nhpDiscard

/-- A message that travels towards the manager leaves by the parent port (R418). -/
def State.nhpUp (s : State) (m body : List Byte) : State :=
  if s.member = 3 then s.nhpRelay (s.rd P.HIE_PARENT_PORT) m body else s.nhpDiscard

/-- The downstream port of an identity. -/
def State.childPort (s : State) (id : Nat) : Option Nat := (findBy Descendant.id id s.nhp.children).map Descendant.port

/-- A message that travels towards a worker leaves by the target's downstream port (R418). -/
def State.nhpDown (s : State) (id : Nat) (m body : List Byte) : State :=
  match s.childPort id with
  | some p => s.nhpRelay p m body
  | none => s.nhpDiscard

/-- The descendant table learns an identity behind a port, up to 4,096 of them (R418). -/
def State.learnChild (s : State) (id p : Nat) : State :=
  let number := match findBy Descendant.id id s.nhp.children with | some d => d.number | none => 0xFFFF
  let rest := dropBy Descendant.id id s.nhp.children
  if rest.length < 4096 then s.setNhp fun h => { h with children := rest ++ [⟨id, p, number, s.clock⟩] } else s

/-! ## Hello (R409 to R411) -/

/-- The depth this module shows: 0 at the root, its own while joined, 0xFF otherwise (R414). -/
def State.helloDepth (s : State) : Nat :=
  if s.member = 5 then 0 else if s.member = 3 ∧ s.rd P.HIE_DEPTH ≤ 7 then s.rd P.HIE_DEPTH else 0xFF

/-- The body of a HELLO (R410). -/
def State.helloBody (s : State) (p : Nat) : List Byte :=
  let root := if s.member = 5 then s.rd P.HIE_IDENTITY else if s.member = 3 then s.nhp.manager else 0
  toBe 1 (s.rd P.HIE_ROLE) ++ toBe 1 (s.rd P.HIE_VERSIONS) ++ toBe 1 s.helloDepth ++
    toBe 1 (b2n (s.member == 4) + 2 * b2n (s.lockedPort p)) ++ toBe 8 root ++
    toBe 2 (if s.member = 3 then s.rd P.HIE_WORKER_NUM else 0xFFFF) ++ zeros 2 ++
    toBe 1 (s.rd P.REF_TSTATE) ++ toBe 1 (s.rd P.TBS_BOUND_NOW) ++ zeros 2 ++ toBe 4 (s.rd P.TBS_BOUND_PS) ++ zeros 8

/-- HELLO_SEND (R409): once per second of module time, (p mod 1,000) ms after the second. -/
def execHelloSend (port : Fin 512) (s : State) : Host.Outcome State Fault Refusal :=
  let p := port.val
  let sec := s.time.out.sec
  if s.nhpRuns p ∧ s.member ≠ 0 ∧ p % 1000 * 1000000 ≤ s.time.out.nano ∧ look p 0 s.nhp.helloAt ≠ sec + 1 then
    let t := s.setNhp fun h => { h with helloAt := store ltNat p 0 (sec + 1) h.helloAt }
    .next ((t.stamped p).emit (.frame p (t.nhpFrame p 1 0x01 8 (t.rd P.HIE_IDENTITY) p (t.helloBody p))))
  else .next s

/-- The highest version in two bitmaps of versions 1 to 3; 0 for none (R409). -/
def commonVersion (a b : Nat) : Nat :=
  let x := a &&& b
  if x.testBit 3 then 3 else if x.testBit 2 then 2 else if x.testBit 1 then 1 else 0

/-- Nothing is heard on a port any more (R411). -/
def State.nhpSilent (s : State) (p : Nat) : State :=
  let t := s.setNhp fun h => { h with heard := dropBy Heard.port p h.heard }
  ((t.wr P.HIE_PORT_STATE p 0).wr P.HIE_PORT_VERSION p 0).wr P.HIE_NEIGHBOUR_ID p 0

/-- HELLO_SILENCE (R411): no HELLO for 3.5 s. -/
def execHelloSilence (port : Fin 512) (s : State) : Host.Outcome State Fault Refusal :=
  match findBy Heard.port port.val s.nhp.heard with
  | some h => if h.at_ + 3500000000 ≤ s.clock then .next (s.nhpSilent port.val) else .next s
  | none => .next s

/-! ## Parents and joining (R412 to R414, R423) -/

/-- Whether what a port hears makes it a candidate parent (R412). -/
def State.candidate (s : State) (h : Heard) : Bool :=
  h.root != 0 && !h.lost && decide (h.depth ≤ 6) && (s.rd P.HIE_MANAGER_ID == 0 || h.root == s.rd P.HIE_MANAGER_ID) &&
    s.rd P.HIE_PORT_STATE h.port == 1

/-- The TIME_IN port of the active reference. -/
def State.timePort (s : State) : Option Nat :=
  let a := s.rd P.REF_ACTIVE
  if 3 ≤ a ∧ a ≤ 6 then some (s.rd P.REF_LINK_PORT (a - 3)) else none

/-- The better of two candidates by depth and port number. -/
def nearerParent (a : Option Heard) (h : Heard) : Option Heard :=
  match a with
  | some x => if h.depth < x.depth ∨ (h.depth = x.depth ∧ h.port < x.port) then some h else a
  | none => some h

/-- The parent a worker chooses (R412). -/
def State.chooseParent (s : State) : Option Heard :=
  let cs := s.nhp.heard.filter s.candidate
  let at_ (p : Option Nat) : Option Heard := p.bind fun p => findBy Heard.port p cs
  match at_ (some (s.rd P.HIE_UP_PORT 0)), at_ (some (s.rd P.HIE_UP_PORT 1)), at_ s.timePort with
  | some h, _, _ => some h
  | none, some h, _ => some h
  | none, none, some h => some h
  | none, none, none => cs.foldl nearerParent none

/-- A JOIN sent to the parent (R413). -/
def State.sendJoin (s : State) : State :=
  let p := s.rd P.HIE_PARENT_PORT
  match findBy Heard.port p s.nhp.heard with
  | none => s
  | some h =>
    (s.setNhp fun x => { x with joinAt := s.clock }).nhpSend p 0x02
      (toBe 8 (s.rd P.HIE_IDENTITY) ++ toBe 8 h.sender ++ toBe 2 h.senderPort ++ toBe 1 (h.depth + 1) ++
        toBe 1 (s.rd P.HIE_ROLE) ++ toBe 1 (s.rd P.HIE_PORT_VERSION p) ++ zeros 3)

/-- JOINING is entered towards a parent (R414). -/
def State.startJoin (s : State) (h : Heard) : State :=
  let t := ((s.wr P.HIE_MEMBER_STATE 0 2).wr P.HIE_PARENT_ID 0 h.sender).wr P.HIE_PARENT_PORT 0 h.port
  ((t.wr P.HIE_DEPTH 0 15).wr P.HIE_WORKER_NUM 0 0xFFFF |>.setNhp fun x => { x with joinSince := s.clock }).sendJoin

/-- A worker that seeks a parent takes one where it hears a candidate, and notes a tree that is too deep (R412, R414). -/
def State.seekParent (s : State) : State :=
  if s.member = 1 ∨ s.member = 4 then
    match s.chooseParent with
    | some h => s.startJoin h
    | none =>
      if s.nhp.heard ≠ [] ∧ s.nhp.heard.all fun h => h.depth == 7 then s.orIn P.HIE_FLAGS 0 4 else s
  else s

/-- Nothing is joined any more: the parent, the depth and the number are gone. -/
def State.unjoined (s : State) (q : Nat) : State :=
  let t := ((s.wr P.HIE_MEMBER_STATE 0 q).wr P.HIE_PARENT_ID 0 0).wr P.HIE_PARENT_PORT 0 1023
  ((t.wr P.HIE_DEPTH 0 15).wr P.HIE_WORKER_NUM 0 0xFFFF).setNhp fun h => { h with manager := 0 }

/-- A joined worker loses its parent (R423). -/
def State.loseParent (s : State) : State :=
  let data := toBe 8 (s.rd P.HIE_PARENT_ID) ++ toBe 2 (s.rd P.HIE_PARENT_PORT) ++ zeros 2 ++ toBe 1 (s.rd P.REF_TSTATE) ++ zeros 3
  let t := (s.unjoined 4).orIn P.HIE_FLAGS 0 1
  ((t.setNhp fun h => { h with lostSince := true }).notice 10 data).seekParent

/-- A HELLO from the parent of a joined worker: the depth follows it, and a parent without a manager is lost (R412, R423). -/
def State.parentHello (s : State) (h : Heard) : State :=
  if s.member = 3 ∧ h.port = s.rd P.HIE_PARENT_PORT then
    if h.root = 0 ∨ h.lost then s.loseParent
    else (s.wr P.HIE_DEPTH 0 (if h.depth ≤ 6 then h.depth + 1 else 15)).setNhp fun x => { x with manager := h.root }
  else s

/-- HELLO (R410 to R412, R423, R425). -/
def execHello (port : Fin 512) (msg : List Byte) (s : State) : Host.Outcome State Fault Refusal :=
  let p := port.val
  let s := s.stamped p
  if ¬ s.nhpTakes p 0x01 msg then .next s.nhpDiscard
  else
    let b := fit 32 (nhpBody msg)
    let short := beAt 2 2 msg == 16
    let h : Heard := ⟨p, s.clock, beAt 0 1 b, beAt 2 1 b, bit 0 (beAt 3 1 b), beAt 4 8 b,
      if short then 255 else beAt 16 1 b % 8, if short then 255 else beAt 17 1 b, nhpSender msg, nhpPort msg⟩
    let v := commonVersion (beAt 1 1 b) (s.rd P.HIE_VERSIONS)
    let t := s.setNhp fun x => { x with heard := dropBy Heard.port p x.heard ++ [h] }
    let t := ((t.wr P.HIE_NEIGHBOUR_ID p h.sender).wr P.HIE_PORT_VERSION p v).wr P.HIE_PORT_STATE p (if v = 0 then 2 else 1)
    let t := if v = 0 then t.orIn P.HIE_FLAGS 0 16 else t
    let t := if t.member = 5 ∧ h.role = 0 then t.orIn P.HIE_FLAGS 0 2 else t
    .next ((t.parentHello h).seekParent)

/-- MANAGER_LOST (R423): no HELLO from the parent port for HIE_LOST_TIME. -/
def execManagerLost (s : State) : Host.Outcome State Fault Refusal :=
  let silent : Bool := match findBy Heard.port (s.rd P.HIE_PARENT_PORT) s.nhp.heard with
    | some h => decide (h.at_ + 1000000 * s.rd P.HIE_LOST_TIME ≤ s.clock)
    | none => true
  if s.member = 3 ∧ silent then .next s.loseParent else .next s

/-- JOIN_RETRY (R414): the JOIN is repeated every 500 ms. -/
def execJoinRetry (s : State) : Host.Outcome State Fault Refusal :=
  if s.member = 2 ∧ s.nhp.joinAt + 500000000 ≤ s.clock then .next s.sendJoin else .next s

/-- JOIN_TIMEOUT (R414): 2 s without a JOIN_ACK. -/
def execJoinTimeout (s : State) : Host.Outcome State Fault Refusal :=
  if s.member = 2 ∧ s.nhp.joinSince + 2000000000 ≤ s.clock then .next (s.unjoined 1) else .next s

/-- A LEAVE sent by a joined worker (R413). -/
def State.sendLeave (s : State) (cause : Nat) : State :=
  if s.member = 3 then
    s.nhpSend (s.rd P.HIE_PARENT_PORT) 0x04
      (toBe 8 (s.rd P.HIE_IDENTITY) ++ toBe 2 (s.rd P.HIE_WORKER_NUM) ++ toBe 1 cause ++ zeros 5)
  else s

/-- The parent chosen anew at a commit of HIE_UP_PORT (R412, R414). -/
def State.rejoin (s : State) : State :=
  if s.member = 3 then
    match s.chooseParent with
    | some h => (if h.port = s.rd P.HIE_PARENT_PORT then s else s.sendLeave 2).startJoin h
    | none => s
  else s

/-! ## The registry (R413, R415 to R417) -/

/-- The registry counts shown. -/
def State.regCounts (s : State) : State :=
  let n (k : Nat) : Nat := (s.nhp.registry.filter fun e => e.kind == k).length
  (s.wr P.HIE_REG_MODULES 0 (if s.member = 5 then n 1 + 1 else 0)).wr P.HIE_REG_CLIENTS 0 (n 2)

/-- The registered worker with an identity, or with a number. -/
def State.worker (s : State) (id : Nat) : Option RegEntry := s.nhp.registry.find? fun e => e.kind == 1 && e.id == id
def State.workerNum (s : State) (n : Nat) : Option RegEntry := s.nhp.registry.find? fun e => e.kind == 1 && e.number == n

/-- The number that stands for a parent identity in the registry: 0xFFFF for the manager. -/
def State.parentNum (s : State) (id : Nat) : Nat := match s.worker id with | some e => e.number | none => 0xFFFF

/-- The lowest worker number that no entry has (R413). -/
def State.freeNum (s : State) : Option Nat :=
  let used := (s.nhp.registry.filter fun e => e.kind == 1).map RegEntry.number
  (List.range 4096).find? fun n => !used.contains n

/-- The client entry reported longest ago goes (R417). -/
def State.evictClient (s : State) : Option State :=
  match (s.nhp.registry.filter fun e => e.kind == 2).foldl (fun (a : Option RegEntry) e => match a with
      | some x => if e.at_ < x.at_ then some e else a
      | none => some e) none with
  | some e => some (s.setNhp fun h => { h with registry := h.registry.erase e })
  | none => none

/-- A JOIN_ACK sent out of a port (R413). -/
def State.sendAck (s : State) (p target number result : Nat) : State :=
  s.nhpSend p 0x03 (toBe 8 target ++ toBe 8 (s.rd P.HIE_IDENTITY) ++ toBe 2 number ++ toBe 1 result ++ [0])

/-- Room for one more registry entry beside the manager's own, a client evicted for it if need be (R417). -/
def State.regRoom (s : State) : Option State :=
  if s.nhp.registry.length < 262143 then some s else s.evictClient

/-- A JOIN at the manager (R413, R417). -/
def State.takeJoin (s : State) (p : Nat) (b : List Byte) : State :=
  let id := beAt 0 8 b
  let e (n : Nat) : RegEntry :=
    ⟨1, beAt 18 1 b, beAt 20 1 b, 255, id, n, s.parentNum (beAt 8 8 b), beAt 16 2 b, 255, b2n (bit 0 (beAt 21 1 b)), s.now, s.clock⟩
  match s.worker id with
  | some x =>
    let y := { e x.number with tstate := x.tstate, code := x.code }
    ((s.setNhp fun h => { h with registry := h.registry.map fun z => if z = x then y else z }).count P.HIE_JOINS).sendAck p id x.number 0
  | none =>
    if 7 < beAt 18 1 b then s.sendAck p id 0xFFFF 2
    else match s.freeNum with
      | none => (s.orIn P.HIE_FLAGS 0 32).sendAck p id 0xFFFF 1
      | some n =>
        match s.regRoom with
        | none => s.sendAck p id 0xFFFF 4
        | some t =>
          (((t.setNhp fun h => { h with registry := h.registry ++ [e n] }).count P.HIE_JOINS).regCounts).sendAck p id n 0

/-- JOIN (R413, R418): relayed towards the manager, or handled by it. A parent marks the JOIN of a version 1 child with PROXY. -/
def execJoin (port : Fin 512) (msg : List Byte) (s : State) : Host.Outcome State Fault Refusal :=
  let p := port.val
  let s := s.stamped p
  if ¬ s.nhpTakes p 0x02 msg then .next s.nhpDiscard
  else
    let b := nhpBody msg
    let b := if s.rd P.HIE_PORT_VERSION p = 1 ∧ s.rd P.HIE_NEIGHBOUR_ID p = beAt 0 8 b then
        patch 21 (toBe 1 (setBit 0 (beAt 21 1 b))) b else b
    let t := s.learnChild (beAt 0 8 b) p
    if s.member = 5 then .next (t.takeJoin p b) else if s.member = 3 then .next (t.nhpUp msg b) else .next s.nhpDiscard

/-- JOIN_ACK (R413, R414, R418). -/
def execJoinAck (port : Fin 512) (msg : List Byte) (s : State) : Host.Outcome State Fault Refusal :=
  let p := port.val
  let s := s.stamped p
  let b := nhpBody msg
  if ¬ s.nhpTakes p 0x03 msg ∨ s.member = 5 ∨ p ≠ s.rd P.HIE_PARENT_PORT then .next s.nhpDiscard
  else if beAt 0 8 b = s.rd P.HIE_IDENTITY then
    if s.member = 2 then
      if beAt 18 1 b = 0 then
        let d := match findBy Heard.port p s.nhp.heard with | some h => if h.depth ≤ 6 then h.depth + 1 else 15 | none => 15
        let t := ((s.wr P.HIE_MEMBER_STATE 0 3).wr P.HIE_WORKER_NUM 0 (beAt 16 2 b)).wr P.HIE_DEPTH 0 d
        .next (t.setNhp fun h => { h with manager := beAt 8 8 b, statusAt := none, reportAt := none })
      else .next (s.unjoined 1)
    else if s.member = 3 ∧ beAt 18 1 b = 3 then
      match findBy Heard.port p s.nhp.heard with
      | some h => .next (s.startJoin h)
      | none => .next s
    else .next s
  else
    let t := s.setNhp fun h => { h with
      children := updBy Descendant.id (beAt 0 8 b) (fun d => { d with number := beAt 16 2 b }) h.children }
    .next (t.nhpDown (beAt 0 8 b) msg b)

/-- An entry removed from the registry and counted (R413, R415). -/
def State.regRemove (s : State) (e : RegEntry) : State :=
  ((s.setNhp fun h => { h with registry := h.registry.erase e }).count P.HIE_LEAVES).regCounts

/-- LEAVE (R413, R418). -/
def execLeave (port : Fin 512) (msg : List Byte) (s : State) : Host.Outcome State Fault Refusal :=
  let s := s.stamped port.val
  let b := nhpBody msg
  if ¬ s.nhpTakes port.val 0x04 msg then .next s.nhpDiscard
  else
    let t := s.setNhp fun h => { h with children := dropBy Descendant.id (beAt 0 8 b) h.children }
    if s.member = 5 then
      match t.worker (beAt 0 8 b) with
      | some e => .next (t.regRemove e)
      | none => .next t
    else .next (t.nhpUp msg b)

/-- The body of a STATUS (R415). -/
def statusBody (id number tstate code clients flags : Nat) : List Byte :=
  toBe 8 id ++ toBe 2 number ++ toBe 1 tstate ++ toBe 1 code ++ toBe 2 clients ++ toBe 1 flags ++ [0]

/-- STATUS_SEND (R415): a joined worker's own STATUS each second, and one with PROXY for each version 1 child it hears. -/
def execStatusSend (s : State) : Host.Outcome State Fault Refusal :=
  let due : Bool := match s.nhp.statusAt with | some c => decide (c + 1000000000 ≤ s.clock) | none => true
  let p := s.rd P.HIE_PARENT_PORT
  if s.member = 3 ∧ due ∧ 2 ≤ s.rd P.HIE_PORT_VERSION p then
    let t := s.nhpSend p 0x05 (statusBody (s.rd P.HIE_IDENTITY) (s.rd P.HIE_WORKER_NUM) (s.rd P.REF_TSTATE) (s.rd P.TBS_BOUND_NOW)
      (s.rd P.LNK_PTP_UNICAST) (2 * b2n s.nhp.lostSince))
    let kids := s.nhp.children.filter fun d =>
      s.rd P.HIE_PORT_VERSION d.port == 1 && s.rd P.HIE_NEIGHBOUR_ID d.port == d.id
    let t := kids.foldl (fun u d => u.nhpSend p 0x05 (statusBody d.id d.number 255 255 0 1)) t
    .next (t.setNhp fun h => { h with statusAt := some s.clock, lostSince := false })
  else .next s

/-- STATUS (R415): relayed, or taken by the manager, which answers REJOIN to an identity it has no entry for. -/
def execStatus (port : Fin 512) (msg : List Byte) (s : State) : Host.Outcome State Fault Refusal :=
  let p := port.val
  let s := s.stamped p
  let b := nhpBody msg
  let id := beAt 0 8 b
  if ¬ s.nhpTakes p 0x05 msg then .next s.nhpDiscard
  else
    let t := s.setNhp fun h => { h with children := updBy Descendant.id id (fun d => { d with at_ := s.clock }) h.children }
    if s.member = 5 then
      match t.worker id with
      | some x =>
        let f := beAt 14 1 b
        let y := { x with tstate := beAt 10 1 b, code := beAt 11 1 b, flags := b2n (bit 0 f) + 4 * b2n (bit 1 f), seen := s.now, at_ := s.clock }
        .next (t.setNhp fun h => { h with registry := h.registry.map fun z => if z = x then y else z })
      | none => .next (t.sendAck p id 0xFFFF 3)
    else .next (t.nhpUp msg b)

/-! ## Client reports (R416) -/

/-- One entry of a CLIENT_REPORT for a client with its grants. -/
def State.clientEntry (s : State) (gs : List Grant) (c : Nat × Nat) : List Byte :=
  let mine := gs.filter fun g => g.clock == c.1 && g.number == c.2
  let port := match mine with | g :: _ => g.port | [] => 0
  let sync := mine.find? fun g => g.msg == 0
  toBe 8 c.1 ++ toBe 2 c.2 ++ toBe 2 port ++ toBe 1 (match sync with | some g => raw 8 g.period | none => 0x7F) ++
    toBe 1 (b2n (s.rd P.LNK_PTP_PORT_EN port == 2)) ++ zeros 2

/-- Client reports of up to 64 entries each; at most `n` messages. -/
def State.sendReports (s : State) (gs : List Grant) : Nat → List (Nat × Nat) → State
  | 0, _ => s
  | _, [] => s
  | n + 1, cs =>
    let now := cs.take 64
    (s.nhpSend (s.rd P.HIE_PARENT_PORT) 0x06
      (toBe 8 (s.rd P.HIE_IDENTITY) ++ toBe 2 (s.rd P.HIE_WORKER_NUM) ++ toBe 1 now.length ++ [0] ++
        (now.map (s.clientEntry gs)).flatten)).sendReports gs n (cs.drop 64)

/-- A client reported to the manager: refreshed, or entered where there is room (R416, R417). -/
def State.takeClient (s : State) (number depth : Nat) (b : List Byte) : State :=
  let e : RegEntry := ⟨2, depth, 0, 255, beAt 0 8 b, beAt 8 2 b, number, beAt 10 2 b, 255, 2 * b2n (bit 0 (beAt 13 1 b)), s.now, s.clock⟩
  match s.nhp.registry.find? fun x => x.kind == 2 && x.id == e.id && x.number == e.number with
  | some x => s.setNhp fun h => { h with registry := h.registry.map fun z => if z = x then e else z }
  | none =>
    if s.nhp.registry.length < 262143 then (s.setNhp fun h => { h with registry := h.registry ++ [e] }).regCounts
    else (s.count P.HIE_REG_REFUSED).orIn P.HIE_FLAGS 0 8

/-- The entries of a report taken in order. -/
def State.takeClients (s : State) (number depth : Nat) : Nat → List Byte → State
  | 0, _ => s
  | n + 1, b => (s.takeClient number depth (b.take 16)).takeClients number depth n (b.drop 16)

/-- CLIENT_REPORT (R416): without a message this module's own report, in full at each HIE_REPORT_PERIOD and otherwise of the grants that have
changed; with one, a report received on a port. -/
def execClientReport (received : Option (Fin 512 × List Byte)) (s : State) : Host.Outcome State Fault Refusal :=
  match received with
  | none =>
    if s.member ≠ 3 ∨ s.rd P.HIE_PORT_VERSION (s.rd P.HIE_PARENT_PORT) < 3 then .next s
    else
      let full : Bool := match s.nhp.reportAt with
        | some c => decide (c + 1000000000 * s.rd P.HIE_REPORT_PERIOD ≤ s.clock)
        | none => true
      let gs := if full then s.grants else s.grants.filter fun g => !s.nhp.reported.contains g
      let t := s.sendReports s.grants 4096 (clientsOf gs)
      .next (t.setNhp fun h => { h with reported := s.grants, reportAt := if full then some s.clock else h.reportAt })
  | some (p, msg) =>
    let s := s.stamped p.val
    let b := nhpBody msg
    if ¬ s.nhpTakes p.val 0x06 msg ∨ (nhpBody msg).length ≠ 12 + 16 * beAt 10 1 b then .next s.nhpDiscard
    else if s.member = 5 then
      match s.worker (beAt 0 8 b) with
      | some w => .next (s.takeClients w.number (w.depth + 1) (beAt 10 1 b) (b.drop 12))
      | none => .next s
    else .next (s.nhpUp msg b)

/-- REGISTRY_AGEING (R415, R418): entries and descendants not refreshed for HIE_AGE are removed. -/
def execRegistryAgeing (s : State) : Host.Outcome State Fault Refusal :=
  let old (c : Nat) : Bool := decide (c + 1000000000 * s.rd P.HIE_AGE ≤ s.clock)
  let gone := s.nhp.registry.filter fun e => old e.at_
  let t := gone.foldl State.regRemove s
  .next (t.setNhp fun h => { h with children := h.children.filter fun d => !old d.at_ })

/-- A registry entry's 32 bytes (R417). -/
def RegEntry.bytes (e : RegEntry) : List Byte :=
  toBe 1 e.kind ++ toBe 1 e.depth ++ toBe 1 e.version ++ toBe 1 e.tstate ++ toBe 8 e.id ++ toBe 2 e.number ++ toBe 2 e.parent ++
    toBe 2 e.port ++ toBe 1 e.code ++ toBe 1 e.flags ++ toBe 8 e.seen ++ zeros 4

/-- The manager's own entry. -/
def State.ownEntry (s : State) : RegEntry :=
  ⟨0, 0, 0, s.rd P.REF_TSTATE, s.rd P.HIE_IDENTITY, 0xFFFF, 0xFFFF, 0, s.rd P.TBS_BOUND_NOW, 0, s.now, s.clock⟩

/-- HIE_REGISTRY_READ (R417). The cursor is a position among the entries, the manager's own first. -/
def hieRegistryRead (o : Origin) (b : List Byte) (s : State) : State :=
  let cursor := beAt 0 4 b
  let most := beAt 4 2 b
  let kind := beAt 6 1 b
  if most = 0 ∨ 127 < most ∨ 2 < kind then s.finish o Status.BAD_VALUE []
  else if s.member ≠ 5 then s.finish o Status.NOT_READY []
  else
    let all := s.ownEntry :: s.nhp.registry
    let want (e : RegEntry) : Bool := kind == 0 || (kind == 1 && decide (e.kind ≤ 1)) || (kind == 2 && e.kind == 2)
    let rest := (all.zip (List.range all.length)).filter fun x => decide (cursor ≤ x.2) && want x.1
    let now := rest.take most
    let next := match rest.drop most with | x :: _ => x.2 | [] => 0xFFFFFFFF
    s.finish o Status.OK (toBe 4 next ++ toBe 2 now.length ++ zeros 2 ++ (now.map fun x => x.1.bytes).flatten)

/-! ## Enabling (R414, R425) -/

/-- NHP starts: ROOT for a manager with an empty registry, SEEKING for a worker. -/
def State.nhpStart (s : State) : State :=
  if s.rd P.HIE_ROLE = 0 then
    ((((s.unjoined 5).wr P.HIE_DEPTH 0 0).setNhp fun h => { h with registry := [], children := [], tunnels := [], bindings := [] })).regCounts
  else ((s.unjoined 1).setNhp fun h => { h with registry := [], children := [] }).seekParent

/-- HIE_ENABLE := 0: LEAVE is sent, then DETACHED. -/
def State.nhpStop (s : State) : State :=
  let t := (s.sendLeave 0).unjoined 0
  ((s.nhp.heard.map Heard.port).foldl State.nhpSilent t).regCounts

/-! ## Tunnels (R419 to R422) -/

/-- A segment taken (R419): the rebuilt packet once the last has come in order and within 100 ms of the first, with the state. -/
def State.takeSegment (s : State) (p type : Nat) (b : List Byte) : State × Option (List Byte) :=
  let id := beAt 0 4 b
  let peer := beAt 4 8 b
  let index := beAt 12 1 b / 16
  let count := beAt 12 1 b % 16 + 1
  let mine (r : Rebuild) : Bool := r.port == p && r.type == type && r.id == id && r.peer == peer
  let rest := s.nhp.rebuilds.filter fun r => !mine r
  let done (bytes : List Byte) (at_ : Nat) : State × Option (List Byte) :=
    if index + 1 = count then (s.setNhp fun h => { h with rebuilds := rest }, some bytes)
    else (s.setNhp fun h => { h with rebuilds := rest ++ [⟨p, type, id, peer, at_, index + 1, bytes⟩] }, none)
  if index = 0 then done (b.drop 16) s.clock
  else
    match s.nhp.rebuilds.find? mine with
    | some r => if r.next = index ∧ s.clock ≤ r.at_ + 100000000 then done (r.bytes ++ b.drop 16) r.at_ else (s, none)
    | none => (s, none)

/-- SEGMENT_TIMEOUT (R419): packets that lack a segment 100 ms after their first. -/
def execSegmentTimeout (s : State) : Host.Outcome State Fault Refusal :=
  .next (s.setNhp fun h => { h with rebuilds := h.rebuilds.filter fun r => decide (s.clock < r.at_ + 100000000) })

/-- A packet for a worker with the recorded session in place of session 0xFFFF, its header check recomputed (R421, R27). -/
def State.bindSession (s : State) (uid worker : Nat) (pkt : List Byte) : List Byte :=
  if beAt 8 2 pkt = 0xFFFF then
    match s.nhp.bindings.find? fun x => x.worker == worker && x.uid == uid with
    | some x =>
      let h := patch 8 (toBe 2 x.session) pkt
      patch 14 (toBe 2 (onesCheck (h.take 14))) h
    | none => pkt
  else pkt

/-- A tunnel sends its packet to one worker (R419, R420). A worker that is not registered counts as timed out (R422). -/
def State.tunnelSend (s : State) (t : Tunnel) (w : Nat) : State × Tunnel :=
  match s.workerNum w with
  | none => (s.count P.HIE_TUNNEL_TIMEOUTS, { t with timedOut := t.timedOut + 1 })
  | some e =>
    let id := s.nhp.nextTunnel
    let u := s.setNhp fun h => { h with nextTunnel := (id + 1) % 2 ^ 32 }
    let u := match u.childPort e.id with
      | some p => u.sendSegments p 0x08 id e.id (u.bindSession t.origin.uid w t.packet)
      | none => u
    (u, { t with flights := t.flights ++ [⟨id, w, s.clock + 1000000 * t.timeout⟩] })

/-- A tunnel sends to waiting targets up to HIE_FANOUT_WINDOW at once (R422). -/
def State.tunnelFill (s : State) (t : Tunnel) : Nat → State × Tunnel
  | 0 => (s, t)
  | n + 1 =>
    match t.waiting with
    | [] => (s, t)
    | w :: ws =>
      if t.flights.length < s.rd P.HIE_FANOUT_WINDOW then
        let x := s.tunnelSend { t with waiting := ws } w
        x.1.tunnelFill x.2 n
      else (s, t)

/-- A tunnel kept, or ended with its final reply once no target is left (R420, R422). -/
def State.tunnelSettle (s : State) (t : Tunnel) : State :=
  let x := s.tunnelFill t t.waiting.length
  let u := x.1
  let t := x.2
  let rest := dropBy Tunnel.num t.num u.nhp.tunnels
  if t.waiting = [] ∧ t.flights = [] then
    let u := u.setNhp fun h => { h with tunnels := rest }
    if t.fan then
      u.finish t.origin (if t.good = t.targets then Status.OK else Status.PARTIAL)
        (toBe 2 t.targets ++ toBe 2 t.good ++ toBe 2 t.other ++ toBe 2 t.timedOut)
    else if t.timedOut = 0 then u else u.finish t.origin Status.TIMEOUT []
  else u.setNhp fun h => { h with tunnels := rest ++ [t] }

/-- A tunnel accepted (R420, R422). -/
def State.tunnelOpen (s : State) (o : Origin) (fan : Bool) (packet : List Byte) (timeout : Nat) (targets : List Nat) : State :=
  (s.accept o).tunnelSettle ⟨s.nhp.nextTunnel * 2 + b2n fan, o, fan, packet, timeout, targets, [], targets.length, 0, 0, 0⟩

/-- HIE_TUNNEL (R420). -/
def hieTunnel (o : Origin) (b : List Byte) (s : State) : State :=
  let w := beAt 0 2 b
  let timeout := beAt 2 2 b
  if s.member ≠ 5 then s.finish o Status.NOT_READY []
  else if timeout = 0 then s.finish o Status.BAD_VALUE []
  else if (s.workerNum w).isNone then s.finish o Status.NOT_FOUND []
  else if s.frozenMaster 2 then s.finish o Status.ABORTED []
  else s.tunnelOpen o false (b.drop 8) timeout [w]

/-- The workers at or below a worker (R422): `n` levels are looked down. -/
def State.subtree (s : State) : Nat → List Nat → List Nat
  | 0, ws => ws
  | n + 1, ws =>
    let below := (s.nhp.registry.filter fun e => e.kind == 1 && ws.contains e.parent && !ws.contains e.number).map RegEntry.number
    if below = [] then ws else s.subtree n (ws ++ below)

/-- HIE_FANOUT (R422). -/
def hieFanout (o : Origin) (b : List Byte) (s : State) : State :=
  let sel := beAt 0 1 b
  let n := beAt 2 2 b
  let timeout := beAt 4 2 b
  let workers := s.nhp.registry.filter fun e => e.kind == 1
  let skip := if sel = 0 then 8 + 2 * n else 8
  let targets : List Nat := match sel with
    | 0 => (List.range n).map fun i => beAt (8 + 2 * i) 2 b
    | 1 => workers.map RegEntry.number
    | 2 => s.subtree 8 [n]
    | _ => (workers.filter fun e => e.depth == n).map RegEntry.number
  if s.member ≠ 5 then s.finish o Status.NOT_READY []
  else if 3 < sel ∨ timeout = 0 then s.finish o Status.BAD_VALUE []
  else if s.frozenMaster 2 then s.finish o Status.ABORTED []
  else s.tunnelOpen o true (b.drop skip) timeout targets

/-- TUNNEL_TIMEOUT (R420): the targets whose timeout has passed, or whose entry has aged out. -/
def execTunnelTimeout (s : State) : Host.Outcome State Fault Refusal :=
  .next (s.nhp.tunnels.foldl (fun u t =>
    let gone := t.flights.filter fun f => decide (f.due ≤ s.clock) || (s.workerNum f.worker).isNone
    if gone = [] then u
    else (u.count P.HIE_TUNNEL_TIMEOUTS 0 gone.length).tunnelSettle
      { t with flights := t.flights.filter fun f => !gone.contains f, timedOut := t.timedOut + gone.length }) s)

/-- Tunnels end with an error while their scratchpad master is frozen (R395). -/
def State.tunnelsAborted (s : State) : State :=
  s.nhp.tunnels.foldl (fun u t => u.finish t.origin Status.ABORTED []) (s.setNhp fun h => { h with tunnels := [], rebuilds := [] })

/-- A worker's packet returned to the requester of its tunnel (R420 to R422): sessions it opens or closes are recorded. -/
def State.tunnelReturn (s : State) (t : Tunnel) (f : Flight) (pkt : List Byte) : State :=
  let final := bit 2 (beAt 1 1 pkt)
  let op := beAt 2 2 pkt
  let status := beAt 12 2 pkt
  let others := s.nhp.bindings.filter fun x => !(x.worker == f.worker && x.uid == t.origin.uid)
  let u : State :=
    if op = Op.SESSION_OPEN ∧ (status = Status.OK ∨ status = Status.CHALLENGE) then
      s.setNhp fun h => { h with bindings := others ++ [⟨f.worker, t.origin.uid, beAt 8 2 pkt⟩] }
    else if op = Op.SESSION_CLOSE ∧ status = Status.OK then s.setNhp fun h => { h with bindings := others }
    else s
  let payload := toBe 2 f.worker ++ zeros 2 ++ pkt
  if ¬ final then u.replyPart t.origin Status.OK payload
  else
    let t := { t with flights := t.flights.erase f }
    if t.fan then
      (u.replyPart t.origin Status.OK payload).tunnelSettle
        (if status < 0x100 then { t with good := t.good + 1 } else { t with other := t.other + 1 })
    else
      (u.setNhp fun h => { h with tunnels := dropBy Tunnel.num t.num h.tunnels }).finish t.origin Status.OK payload

/-- TUNNEL_REPLY (R418 to R420). A reply after the timeout of its request is taken no more. -/
def execTunnelReply (port : Fin 512) (msg : List Byte) (s : State) : Host.Outcome State Fault Refusal :=
  let s := s.stamped port.val
  let b := nhpBody msg
  if ¬ s.nhpTakes port.val 0x09 msg then .next s.nhpDiscard
  else if s.member ≠ 5 then .next (s.nhpUp msg b)
  else if s.frozenMaster 2 then .next s.nhpDiscard
  else
    let x := s.takeSegment port.val 0x09 b
    match x.2 with
    | none => .next x.1
    | some pkt =>
      let id := beAt 0 4 b
      match x.1.nhp.tunnels.findSome? fun t => (t.flights.find? fun f => f.id == id && decide (s.clock ≤ f.due)).map fun f => (t, f) with
      | some (t, f) => .next (x.1.tunnelReturn t f pkt)
      | none => .next x.1

end Sys2Proof.Machine
end

