-- ==== Sys2Proof/Machine/Egress.lean ====
section
/-! DEFINITION. Frames on their way out (R253, R257, R263, R265, R272, R315 to R331): which copy a port starts, the launch of
lock copies, late and abandoned copies, received flow control, and a port going down. -/

namespace Sys2Proof.Machine

/-! ## A port's queues -/

/-- Module time in ps. -/
def State.modPs (s : State) : Int := (s.modNs * 1000 : Nat)

/-- Whether a copy is in transmission. -/
def State.isSending (s : State) (c : Copy) : Bool := s.quay.sending.any fun x => x.copy == c.id

/-- The copies of a port's class queue that have not begun transmission, in order (R253, R314). -/
def State.classQueue (s : State) (p c : Nat) : List Copy :=
  s.quay.copies.filter fun x => x.port == p && x.cls == c && x.host.isNone && x.lock.isNone && !s.isSending x

/-- The copy with the earlier launch instant, the one linked earlier on a tie. -/
def earlierLaunch (a : Option Copy) (b : Copy) : Option Copy :=
  match a.bind fun x => x.lock.map LockCopy.launch, b.lock.map LockCopy.launch with
  | some x, some y => if y < x then some b else a
  | none, _ => some b
  | _, none => a

/-- The copies of a port's release queue that have not begun transmission (R316). -/
def State.releaseQueue (s : State) (p : Nat) : List Copy :=
  s.quay.copies.filter fun x => x.port == p && x.host.isNone && x.lock.isSome && !s.isSending x

/-- The head of a port's release queue: the copy with the earliest launch instant (R316). -/
def State.releaseHead (s : State) (p : Nat) : Option Copy := (s.releaseQueue p).foldl earlierLaunch none

/-- The copy that a port is sending. -/
def State.sendingOn (s : State) (p : Nat) : Option Sending := s.quay.sending.find? fun x => x.port == p

/-- The inter-frame gap that still leaves a port, with whether a lock copy precedes it. -/
def State.gapOn (s : State) (p : Nat) : Option Bool :=
  (s.quay.gaps.find? fun x => x.1 == p && decide (s.clock + 2 ≤ x.2.1)).map fun x => x.2.2

/-- Whether a port is idle (R322). -/
def State.portIdle (s : State) (p : Nat) : Bool := (s.sendingOn p).isNone && (s.gapOn p).isNone

/-- Whether the partner has paused a class (R263). -/
def State.pausedNow (s : State) (p c : Nat) : Bool := decide (s.clock < look (p, c) 0 s.fabric.paused)

/-- Whether a frame is in the quay as far as its transmission needs: whole, or for an express frame its first cell (R255). -/
def State.inQuay (s : State) (f : Frame) : Bool :=
  match s.bufferOf f.id with
  | some b => f.express || decide (f.size ≤ b.got)
  | none => true

/-- Whether the last byte of a frame is in the quay. -/
def State.allInQuay (s : State) (f : Frame) : Bool :=
  f.ended && (match s.bufferOf f.id with | some b => decide (f.size ≤ b.got) | none => true)

/-- The length that gates and the guard band test (R323, R328). -/
def State.testedLength (s : State) (p : Nat) (f : Frame) : Nat := (if f.ended then f.size else s.rd P.PRT_MAX_FRAME p) + f.added

/-- Whether the guard band lets a frame of the tested length start before a lock copy's launch (R323). -/
def State.guardAllows (s : State) (p len : Nat) (k : LockCopy) : Bool :=
  decide (s.modPs + ((wireNs ((len + 28) * 1000) (s.gbps p) : Nat) : Int) ≤ k.launch)

/-- Whether the guard band of the head of the release queue lets a frame start. -/
def State.guardOk (s : State) (p len : Nat) : Bool :=
  match (s.releaseHead p).bind Copy.lock with
  | some k => s.guardAllows p len k
  | none => true

/-! ## Marks and abandonment (R315, R325) -/

/-- The stamp of an ABANDONED mark (R339). -/
def State.abandonStamp (s : State) : Stamp :=
  ⟨s.now, 0, s.rd P.TBS_BOUND_NOW, s.stampFlags (s.rd P.TBS_BOUND_NOW) false false⟩

/-- A copy is abandoned (R315): counted, marked with a cause, and released. -/
def State.abandonCopy (s : State) (c : Copy) (cause : Nat) : State :=
  let t := s.count P.LCK_COPY_ABANDON c.port
  let t := match t.frame c.frame with
    | some f => (t.logMark f c.port 1 cause t.abandonStamp).traceDrop f 5 0 P.LCK_COPY_ABANDON
    | none => t
  t.releaseCopy c (agentCode 2 c.port)

/-- Whether a waiting copy's age exceeds its hold limit (R315). -/
def State.overHold (s : State) (c : Copy) : Bool :=
  match c.hold with
  | none => false
  | some h =>
    match c.lock with
    | some k => decide (k.launch + (h * 1000 : Nat) < s.modPs)
    | none => decide (c.born + h < s.clock)

/-- COPY_ABANDON (R315): the head of class queue `queue` of a port, or of its release queue for 8, is past its hold limit. -/
def execCopyAbandon (port : Fin 512) (queue : Fin 9) (s : State) : Host.Outcome State Fault Refusal :=
  let head := if queue.val = 8 then s.releaseHead port.val else (s.classQueue port.val queue.val).head?
  match head with
  | some c => if s.overHold c then .next ((s.abandonCopy c 255).evaluateSluice) else .next s
  | none => .next s

/-! ## Starting a copy -/

/-- A copy begins transmission with its stamp (R60): its trace record is written (R459, R460). -/
def State.beginSend (s : State) (p : Nat) (c : Copy) (f : Frame) (x : Stamp) (flags : Nat) : State :=
  let t := s.setQuay fun q => { q with sending := q.sending ++ [⟨p, c.id, x⟩] }
  t.traceEvent f ⟨5, flags, some x, 0, t.rd P.PRT_EGQ_BYTES (8 * p + c.cls), p⟩

/-- A frame longer than its egress port allows is discarded there (R265). -/
def State.oversizeCopy (s : State) (p : Nat) (c : Copy) (f : Frame) : State :=
  ((s.count P.PRT_TX_OVERSIZE p).traceDrop f 5 0 P.PRT_TX_OVERSIZE).releaseCopy c (agentCode 3 p)

/-- Whether the head of a class queue may start now (R253, R263, R315, R323, R328), and whether it starts as an overrun of its
gate. -/
def State.mayStart (s : State) (p c : Nat) (k : Copy) (f : Frame) : Option Bool :=
  let len := s.testedLength p f
  let gate := s.gateAllows p c (wireNs (len + 8) (s.gbps p))
  if !s.pausedNow p c && gate.1 && s.inQuay f && !s.overHold k && s.guardOk p len then some gate.2 else none

/-- The copy a port starts by strict priority, class 7 first (R253). -/
def State.nextCopyOf (s : State) (p : Nat) : Option (Copy × Frame × Bool) :=
  [7, 6, 5, 4, 3, 2, 1, 0].findSome? fun c =>
    match (s.classQueue p c).head? with
    | some k =>
      match s.frame k.frame with
      | some f => (s.mayStart p c k f).map fun o => (k, f, o)
      | none => none
    | none => none

/-- FRAME_TRANSMIT_START (R253, R323, R328). -/
def execFrameTransmitStart (port : Fin 512) (raw : RawStamp) (s : State) : Host.Outcome State Fault Refusal :=
  let p := port.val
  if s.portUp p ∧ s.portIdle p then
    match s.nextCopyOf p with
    | some (k, f, over_) =>
      if s.rd P.PRT_MAX_FRAME p < f.size then .next ((s.oversizeCopy p k f).evaluateSluice)
      else
        let t := if over_ then (s.count P.LCK_GATE_OVERRUN p).orIn P.LCK_FLAGS 0 8 else s
        let (t, x) := t.txStamp p raw
        .next (t.beginSend p k f x 0)
    | none => .next s
  else .next s

/-! ## Lock copies (R318, R322, R324, R331) -/

/-- The permitted start position nearest to an instant, the earlier on a tie, where `pos` is one of the port's positions and `g`
their spacing (R318, R319). -/
def nearestPosition (pos aim : Int) (g : Nat) : Int :=
  let below := pos + (aim - pos) / g * g
  if 2 * (aim - below) ≤ g then below else below + g

/-- The first permitted start position at or after an instant. -/
def positionFrom (pos at_ : Int) (g : Nat) : Int :=
  let below := pos + (at_ - pos) / g * g
  if below = at_ then below else below + g

/-- The stamp of a copy that a switch-over gap deferred: it carries SWITCH and B_sw (R331, R70). -/
def State.deferredStamp (s : State) (p : Nat) (t : Int) : State × Stamp :=
  let b := s.rd P.TBS_BOUND_PS
  let code := if b = noBound then 255 else boundCode (s.bPort p + s.bEvt p + s.rd P.TBS_SWITCH_WIDEN + b)
  let x := splitPs t
  let fl := s.stampFlags code (!s.lockedPort p) (s.bEvt p != 0)
  (if overLimit code (s.rd P.TBS_BOUND_LIMIT) then s.count P.TBS_OVER_LIMIT_COUNT else s, ⟨x.1, x.2, code, fl ||| 2⟩)

/-- The cause for which a copy due now is late, or none (R322, R324). -/
def State.lateCause (s : State) (p : Nat) (c : Copy) (k : LockCopy) (f : Frame) : Option Nat :=
  let lockSending : Bool := match s.sendingOn p with
    | some x => (s.quay.copies.find? fun y => y.id == x.copy).any fun y => y.lock.isSome
    | none => s.gapOn p == some true
  let bornPs := s.modPs - (1000 * (s.clock - c.born) : Nat)
  if k.launch < bornPs ∨ ¬ s.inQuay f then some 2
  else if lockSending then some 3
  else if ¬ s.portIdle p then some 0
  else if s.pausedNow p c.cls then some 1
  else none

/-- What a lock copy holds beside its entry, changed. -/
def State.setLockCopy (s : State) (id : Nat) (g : LockCopy → LockCopy) : State :=
  s.setQuay fun q => { q with copies := updBy Copy.id id (fun c => { c with lock := c.lock.map g }) q.copies }

/-- A copy is late (R324): counted by its cause, then kept for SEND_LATE or abandoned. -/
def State.lateCopy (s : State) (p : Nat) (c : Copy) (k : LockCopy) (cause : Nat) : State :=
  let t := ((s.count P.LCK_LATE p).count P.LCK_LATE_CAUSE cause).orIn P.LCK_FLAGS 0 2
  if k.abandon then (t.abandonCopy c cause).evaluateSluice else t.setLockCopy c.id fun y => { y with late := some cause }

/-- A lock copy due now (R318, R322, R331): deferred by a gap, late, discarded as too long, or launched on time. -/
def State.launchDue (s : State) (p : Nat) (c : Copy) (k : LockCopy) (f : Frame) (pos : Int) : State :=
  if s.inGap then
    if k.deferred then s
    else
      let t := (s.count P.LCK_SWITCH_DELAY p).orIn P.LCK_FLAGS 0 4
      t.setLockCopy c.id fun y => { y with launch := y.launch + 16000, aim := y.aim + 16000, deferred := true }
  else
    match s.lateCause p c k f with
    | some cause => s.lateCopy p c k cause
    | none =>
      if s.rd P.PRT_MAX_FRAME p < f.size then (s.oversizeCopy p c f).evaluateSluice
      else
        let near := nearestPosition pos k.aim (s.startGrid p)
        let at_ := if k.deferred ∧ near - s.txPath p < s.modPs then near + s.startGrid p else near
        if k.deferred then
          let (t, x) := s.deferredStamp p at_
          (t.logMark f p 2 255 x).beginSend p c f x 0
        else
          let x := s.stampOf at_ (s.bPort p) (s.bEvt p) (!s.lockedPort p)
          ((s.stamped p).count P.LCK_RELEASES p).beginSend p c f x 0

/-- A late copy under SEND_LATE is launched once every condition of R322 but the timing holds (R324), and before no on-time
launch that it would delay (R323). -/
def State.launchLate (s : State) (p : Nat) (c : Copy) (cause : Nat) (f : Frame) (pos : Int) : State :=
  let rest := ((s.releaseQueue p).filter fun x => x.id != c.id && (match x.lock with | some k => k.late.isNone | none => false)).foldl
    earlierLaunch none
  let clear : Bool := match rest.bind Copy.lock with
    | some k => s.guardAllows p (s.testedLength p f) k
    | none => true
  if s.portIdle p ∧ ¬ s.pausedNow p c.cls ∧ s.inQuay f ∧ ¬ s.overHold c ∧ clear then
    if s.rd P.PRT_MAX_FRAME p < f.size then (s.oversizeCopy p c f).evaluateSluice
    else
      let x := s.stampOf (positionFrom pos (s.modPs + s.txPath p) (s.startGrid p)) (s.bPort p) (s.bEvt p) (!s.lockedPort p)
      ((s.stamped p).logMark f p 0 cause x).beginSend p c f x 8
  else s

/-- The lock copy whose launch instant has come: the earliest that is not late, else the earliest late one. -/
def State.dueCopy (s : State) (p : Nat) : Option Copy :=
  let q := s.releaseQueue p
  let fresh := (q.filter fun x => match x.lock with | some k => k.late.isNone && decide (k.launch < s.modPs + 2000) | none => false)
  match fresh.foldl earlierLaunch none with
  | some c => some c
  | none => (q.filter fun x => match x.lock with | some k => k.late.isSome | none => false).foldl earlierLaunch none

/-- COPY_LAUNCH (R318): `pos` is the transmit stamp, in ps, of one of the port's permitted start positions. -/
def execCopyLaunch (port : Fin 512) (pos : Int) (s : State) : Host.Outcome State Fault Refusal :=
  let p := port.val
  if ¬ s.portUp p then .next s
  else
    match s.dueCopy p with
    | none => .next s
    | some c =>
      match s.frame c.frame, c.lock with
      | some f, some k =>
        match k.late with
        | none => .next (s.launchDue p c k f pos)
        | some cause => .next (s.launchLate p c cause f pos)
      | _, _ => .next s

/-! ## The end of a transmission (R256, R257, R272) -/

/-- TRANSMIT_COMPLETE (R60, R265, R272): the copy in transmission has left. `underrun` says that the port ran out of a started express
frame's bytes (R257); `parity` that the buffer's parity fails at the release (R277). An express frame that has passed the maximum of its
egress port while it was sent ends there with an inverted FCS, and is lost as oversize (assumption 56). -/
def execTransmitComplete (port : Fin 512) (underrun parity : Bool) (s : State) : Host.Outcome State Fault Refusal :=
  let p := port.val
  match s.sendingOn p with
  | none => .next s
  | some x =>
    match s.quay.copies.find? fun c => c.id == x.copy with
    | none => .next s
    | some c =>
      match s.frame c.frame with
      | none => .next s
      | some f =>
        if ¬ s.allInQuay f then .next s
        else
          let max_ := s.rd P.PRT_MAX_FRAME p
          let over_ : Bool := max_ < f.size
          let short := underrun && f.express
          let stomped := f.stomp || short
          let (t, body) := if over_ then (s.count P.PRT_TX_OVERSIZE p, f.data.take (max_ - 4)) else s.inserted p f x.stamp
          let t := t.emit (.frame p (body ++ (if stomped || over_ then stompedFcs body else fcsOf body)))
          let t := if stomped && !over_ then t.count P.PRT_TX_STOMP p else t
          let t := if short then t.orIn P.PRT_FLAGS 0 4 else t
          let t := t.setGap p c.lock.isSome
          let t : State := match t.bufferOf f.id with
            | some b => if parity then t.spoil b.pool b.index else t
            | none => t
          .next ((t.releaseCopy c (agentCode (if over_ then 3 else 0) p)).payFlow p).evaluateSluice

/-! ## Received flow control (R251, R263) -/

/-- One class paused for a number of quanta, or released by 0 (R263). -/
def State.pauseClass (s : State) (p c quanta : Nat) : State :=
  s.setFab fun x => { x with
    paused := store ltPair (p, c) 0 (if quanta = 0 then 0 else s.clock + wireNs (quanta * 64) (s.gbps p)) x.paused }

/-- PFC_RECEIVED (R60, R251, R263): a MAC control frame received on a port. One that is bad by R254 comes as FRAME_RECEIVED. -/
def execPfcReceived (port : Fin 512) (bytes : List Byte) (s : State) : Host.Outcome State Fault Refusal :=
  let p := port.val
  if ¬ s.portUp p ∨ ¬ isMacControl bytes ∨ (s.badFrame p bytes false).isSome then .next s
  else
    let s := s.stamped p
    match beAt 14 2 bytes, s.usesPause p with
    | 0x0101, false =>
      .next ((setBits 8 (beAt 16 2 bytes)).foldl (fun t c =>
        let q := beAt (18 + 2 * c) 2 bytes
        (if q = 0 then t else t.count P.PRT_PFC_RX_XOFF (8 * p + c)).pauseClass p c q) s)
    | 0x0001, true =>
      let q := beAt 16 2 bytes
      .next ((List.range 8).foldl (fun t c => t.pauseClass p c q) (if q = 0 then s else s.count P.PRT_PFC_RX_XOFF (8 * p)))
    | _, _ => .next s

/-- PAUSE_EXPIRY (R263): the pause time of a class has passed. -/
def execPauseExpiry (port : Fin 512) (cls : Fin 8) (s : State) : Host.Outcome State Fault Refusal :=
  let k := (port.val, cls.val)
  if look k 0 s.fabric.paused ≤ s.clock then .next (s.setFab fun x => { x with paused := without k x.paused }) else .next s

/-! ## A port goes down (R246, R265, R276) -/

/-- What reception on a port leaves when its link goes down: an express frame that has passed its start test is withdrawn, or ended
with ABORT once a cell has left (R246). -/
def State.cutReception (s : State) (p : Nat) : State :=
  match s.fabric.receiving.find? fun x => x.port == p with
  | none => s
  | some ⟨_, id, _, _, _⟩ =>
    let t := s.setFab fun x => { x with receiving := x.receiving.filter fun y => y.port != p }
    if t.untouched id then
      (match t.frame id with
       | some f => (t.count P.PRT_LINKDOWN_DROP p).traceDrop f 1 f.inlet P.PRT_LINKDOWN_DROP
       | none => t).withdraw id
    else t.setFrame id fun f => { f with ended := true, abort := true }

/-- Frames that wait for a fabric that is not running are lost with their port (R244). -/
def State.dropWaiting (s : State) (p : Nat) : State :=
  if s.rd P.FAB_STATE ≤ 1 then
    (s.fabric.waiting.filter fun id => match s.frame id with | some f => f.port == p | none => false).foldl
      (fun t id => (t.count P.PRT_LINKDOWN_DROP p).withdraw id) s
  else s

/-- A port goes down: reception ends, its queues are flushed and counted, its hold-off and pause state is cleared, and its time link is
lost (R265, R276). -/
def State.portDown (s : State) (p : Nat) : State :=
  if ¬ s.portUp p then s
  else
    let t := ((s.cutReception p).dropWaiting p).wr P.PRT_LINK_UP p 0
    let t := t.flushCopies (fun c => c.host.isNone && c.port == p) (agentCode 6 p) fun u c =>
      (match u.frame c.frame with
       | some f => u.traceDrop f 5 0 P.PRT_LINKDOWN_DROP
       | none => u).count P.PRT_LINKDOWN_DROP p
    let t := t.setFab fun x => { x with
      off := x.off.filter fun h => h.port != p, owed := x.owed.filter fun h => h.1 != p, paused := x.paused.filter fun k => k.1.1 != p }
    let t := t.setQuay fun q => { q with gaps := q.gaps.filter fun g => g.1 != p }
    ((t.linkDown p).nhpSilent p).evaluateSluice

/-- PORT_LINK_DOWN (R265): `part` says that a store-and-forward frame was being received,
`upsets` what has gone wrong in the quay's memory since the last row (R276, R277). -/
def execPortLinkDown (port : Fin 512) (part : Bool) (upsets : List QuayUpset) (s : State) : Host.Outcome State Fault Refusal :=
  let p := port.val
  let s := upsets.foldl State.upset s
  if ¬ s.portUp p then .next s
  else .next ((if part ∧ ¬ (s.fabric.receiving.any fun x => x.port == p) then s.count P.PRT_LINKDOWN_DROP p else s).portDown p)

end Sys2Proof.Machine
end

