-- ==== Sys2Proof/Machine/Timebase.lean ====
section
/-! DEFINITION. The steps of module time (R57, R148), the leap second (R58), and the EPOCH words (R84). -/

namespace Sys2Proof.Machine

/-! ## Steps -/

/-- A swap that was still to come before a step and lies in the past after it is late (R332, R330). -/
def State.lateSwaps (s : State) (before : Nat) : State :=
  let ports := (List.range 512).filter fun p =>
    decide (before < s.rd P.LCK_SWAP_TIME p ∧ s.rd P.LCK_SWAP_TIME p ≤ s.modNs) && s.rd P.LCK_SWAP_STATE p == 1
  s.setLock fun l => { l with late := l.late ++ ports.map fun p => (p, s.modNs) }

/-- A copy's launch instants moved by a number of ps (R332). -/
def LockCopy.shift (k : LockCopy) (d : Int) : LockCopy :=
  { k with rel := k.rel + d, launch := k.launch + d, aim := k.aim + d }

/-- Module time steps to a new count (R57): every core's count with it. Pending launch instants move by the step (R332), the phases of the
references are taken against the new module time (R133), and an announced leap second is dated again. -/
def State.stepTime (s : State) (t : TimeCount) : State :=
  let before := s.modNs
  let d : Int := ((instant t.sec t.nano : Nat) : Int) - before
  let u := { s with time := { s.time with
    out := t, coreA := { s.time.coreA with count := t }, coreB := { s.time.coreB with count := t } } }
  let u := u.setQuay fun q => { q with copies := q.copies.map fun c => { c with lock := c.lock.map fun k => k.shift (1000 * d) } }
  let u := u.setServo fun v => { v with modOsc := v.modOsc + 1000 * d }
  let u := (List.range 7).foldl (fun x r => if x.rd P.REF_KIND r = 1 then x.wrS 64 P.REF_PHASE r (x.rdS 64 P.REF_PHASE r - 1000 * d) else x) u
  (u.lateSwaps before).armLeap

/-- A commit with TBS_SET_REQ = 1 leaves a pending set, in place of one accepted before (R57). -/
def State.acceptSet (s : State) (sec : Nat) : State :=
  { s with time := { s.time with setPending := some sec,
                                 setFrom := if s.time.setPending.isSome then s.time.setFrom else s.time.out.sec } }

/-- SET_SEC_ROLLOVER (R57): at the seconds rollover after the commit the pending set is made in FREERUN, and discarded in any other
TSTATE. -/
def execSetSecRollover (s : State) : Host.Outcome State Fault Refusal :=
  match s.time.setPending with
  | none => .next s
  | some sec =>
    if s.time.out.sec = s.time.setFrom then .next s
    else
      let t := { s with time := { s.time with setPending := none } }
      .next (if t.rd P.REF_TSTATE = 0 then t.stepTime ⟨sec, t.time.out.nano⟩ else t)

/-- ACQUIRE_LOCK (R148): the frequency error has stayed within 1 ppb for 10 s. `sec` and `nano` are the time of the reference now. -/
def execAcquireLock (sec : BitVec 48) (nano : Fin 1000000000) (s : State) : Host.Outcome State Fault Refusal :=
  if s.rd P.REF_TSTATE = 1 ∧ s.servo.acqSince + 10000000000 ≤ s.clock then
    let r := s.rd P.REF_ACTIVE
    if s.rd P.REF_KIND r = 1 then
      .next ((((s.stepTime ⟨sec.toNat, nano.val⟩).wr P.REF_TIME_SET 0 1).toLocked).conclude s 12)
    else .next ((s.toUntraceable r).conclude s 12)
  else .next s

/-- LEAP_SECOND (R58): the TAI instant of the announced UTC midnight. -/
def execLeapSecond (s : State) : Host.Outcome State Fault Refusal :=
  match s.time.leapAt with
  | none => .next s
  | some t =>
    if s.time.out.sec < t then .next s
    else
      let d : Int := if s.rd P.TBS_LEAP = 1 then 1 else if s.rd P.TBS_LEAP = 2 then -1 else 0
      let u := (s.wrBoth P.TBS_UTC_OFFSET 0 (raw 16 (s.rdS 16 P.TBS_UTC_OFFSET + d))).wrBoth P.TBS_LEAP 0 0
      .next { u with time := { u.time with leapAt := none } }

/-! ## EPOCH (R84) -/

/-- TBS_EPOCH, TBS_EPOCH_SEC and TBS_EPOCH_AGE at this tick. -/
def State.epoch (s : State) : Nat := s.now / 2 ^ 32 * 2 ^ 32
def State.epochAge (s : State) : Nat := s.now % 2 ^ 32
def State.epochSec (s : State) : Nat := (s.modNs - s.epochAge) / 1000000000

end Sys2Proof.Machine
end

