-- ==== Sys2Proof/Machine/Wake.lean ====
section
/-! DEFINITION. The wake sequencer (R429 to R431): its queue, its two budgets, and what an admission starts. -/

namespace Sys2Proof.Machine

/-- The number of a kind, in the order of R430. -/
def WakeKind.code : WakeKind → Nat
  | .domain => 0
  | .lane => 1
  | .cal => 2

/-- A calibration item's number in the queue. -/
def CalItem.code (i : CalItem) : Nat := i.kind * 1024 + i.index

/-- The item a queue number stands for. -/
def calItemOf (n : Nat) : CalItem := ⟨n / 1024, n % 1024⟩

/-- The VCORE slope of a request in 0.1 A/µs, its step in 0.1 A and its ramp in ns (R429). -/
def wakeCost (k : WakeKind) (n : Nat) : Nat × Nat × Nat :=
  match k with
  | .domain => if n = 6 ∨ n = 7 then (370, 3700, 10000) else if n = 8 then (200, 1000, 5000) else (0, 0, 20000)
  | .lane => (1, 1, 1000)
  | .cal => (1, 1, 1000)

/-- The sum of the slopes of ramps in progress. -/
def State.slopes (s : State) : Nat := (s.power.ramps.map Ramp.slope).foldl (· + ·) 0

/-- PWR_WAKE_QUEUE_LEN and PWR_WAKE_SLOPE brought up to date, the slope in whole A/µs. -/
def State.wakeCounts (s : State) : State :=
  (s.wr P.PWR_WAKE_QUEUE_LEN 0 (clampU 11 s.power.queue.length)).wr P.PWR_WAKE_SLOPE 0 (clampU 8 (s.slopes / 10))

/-- The lane-quota admissions of the preceding 1 ms (R430). -/
def State.quotaUsed (s : State) : Nat := (s.power.laneAdm.filter fun t => decide (s.clock < t + 1000000)).length

/-- Whether the request can be admitted now (R430). -/
def State.wakeFits (s : State) (r : WakeReq) : Bool :=
  let slope := (wakeCost r.kind r.num).1
  let budget := s.rd P.PWR_DIDT_BUDGET * 10
  (decide (s.slopes + slope ≤ budget) || (decide (budget < slope) && s.power.ramps == [])) &&
    (r.kind == .domain || decide (s.quotaUsed < s.rd P.PWR_LANE_QUOTA))

/-- A domain's state set. -/
def State.setDomain (s : State) (d q : Nat) : State := s.wr P.PWR_DOMAIN_STATE d q

/-- A calibration changed. -/
def State.setCal (s : State) (f : Calibration → Calibration) : State := { s with cal := f s.cal }

/-- What an admission starts: the domain wakes, the lane acquires (R360), the automatic item runs, or waits for the end of a
CAL_RUN (R217). -/
def State.wakeStart (s : State) (r : WakeReq) : State :=
  match r.kind with
  | .domain => s.setDomain r.num 2
  | .lane => s.wr P.LAN_STATE r.num 2
  | .cal =>
    let i := calItemOf r.num
    if s.cal.run.isSome then s.setCal fun c => { c with waiting := c.waiting.erase i, triggered := i :: c.triggered }
    else s.setCal fun c => { c with waiting := c.waiting.erase i, doing := c.doing ++ [i] }

/-- A ticket counts one admission; its last sends the WAKE_ADMITTED notice (R431). -/
def State.wakeTicket (s : State) (r : WakeReq) : State :=
  match r.ticket with
  | none => s
  | some n =>
    match findBy Ticket.id n s.power.tickets with
    | none => s
    | some k =>
      if k.left ≤ 1 then
        (s.setPower fun p => { p with tickets := dropBy Ticket.id n p.tickets }).notice 4
          (toBe 4 n ++ toBe 1 r.kind.code ++ [0] ++ toBe 2 r.num ++ toBe 4 ((s.clock - r.at_) / 1000) ++ zeros 4)
      else s.setPower fun p => { p with tickets := updBy Ticket.id n (fun k => { k with left := k.left - 1 }) p.tickets }

/-- The head of the queue is admitted (R430). -/
def State.wakeAdmit (s : State) (r : WakeReq) (rest : List WakeReq) : State :=
  let c := wakeCost r.kind r.num
  let budget := s.rd P.PWR_DIDT_BUDGET
  let ramp : Ramp := if budget * 10 < c.1 then ⟨budget * 10, s.clock + ceilDiv (c.2.1 * 100) budget⟩ else ⟨c.1, s.clock + c.2.2⟩
  let t := s.setPower fun p => { p with
    queue := rest, ramps := p.ramps ++ [ramp],
    laneAdm := if r.kind = .domain then p.laneAdm
      else (p.laneAdm.filter fun x => decide (s.clock < x + 1000000)) ++ [s.clock] }
  let t := (t.count P.PWR_WAKE_ADMITTED).peak P.PWR_WAKE_MAX_WAIT 0 (clampU 32 ((s.clock - r.at_) / 1000))
  ((t.wakeStart r).wakeTicket r).wakeCounts

/-- Requests admitted from the head for as long as the head fits, at most `n` of them. -/
def State.wakeRun (s : State) : Nat → State
  | 0 => s
  | n + 1 =>
    match s.power.queue with
    | [] => s
    | r :: rest => if s.wakeFits r then (s.wakeAdmit r rest).wakeRun n else s

/-- A request put into the queue behind every request of an earlier tick, and in the order of R430 among those of this tick. -/
def wakeInsert (r : WakeReq) : List WakeReq → List WakeReq
  | [] => [r]
  | x :: xs =>
    if x.at_ = r.at_ ∧ (r.kind.code < x.kind.code ∨ (r.kind.code = x.kind.code ∧ r.num < x.num)) then r :: x :: xs
    else x :: wakeInsert r xs

/-- A wake request (R429): admitted at once where the queue is empty and it fits, else queued and counted. -/
def State.wakeAsk (s : State) (k : WakeKind) (n : Nat) (ticket : Option Nat) : State :=
  let t := s.setPower fun p => { p with queue := wakeInsert ⟨k, n, s.clock, ticket⟩ p.queue }
  let t := t.wakeRun t.power.queue.length
  (if t.power.queue.any fun r => r.kind == k && r.num == n then t.count P.PWR_WAKE_WAITED else t).wakeCounts

/-- A domain that is OFF is requested. -/
def State.wakeDomain (s : State) (d : Nat) (ticket : Option Nat) : State :=
  if s.rd P.PWR_DOMAIN_STATE d = 0 then (s.setDomain d 1).wakeAsk .domain d ticket else s

/-- Requests withdrawn from the queue; an opcode's ticket whose requests are all gone is forgotten. -/
def State.wakeCancel (s : State) (gone : WakeReq → Bool) : State :=
  let keep := s.power.queue.filter fun r => !gone r
  (s.setPower fun p => { p with
    queue := keep, tickets := p.tickets.filter fun k => keep.any fun r => r.ticket == some k.id }).wakeCounts

/-- The reply of an opcode that makes wake requests under a ticket: OK, or WAKE_QUEUED with the requests ahead of its first one
(R431). -/
def State.wakeReply (s : State) (o : Origin) (ticket : Nat) : State :=
  let mine := s.power.queue.filter fun r => r.ticket == some ticket
  if mine = [] then s.finish o Status.OK []
  else
    let ahead := (s.power.queue.takeWhile fun r => r.ticket != some ticket).length
    (s.setPower fun p => { p with tickets := p.tickets ++ [⟨ticket, mine.length⟩] }).finish o Status.WAKE_QUEUED
      (toBe 4 ticket ++ toBe 2 ahead ++ zeros 2)

/-- A new ticket number. -/
def State.newTicket (s : State) : State × Nat :=
  (s.setPower fun p => { p with nextTicket := (p.nextTicket + 1) % 2 ^ 32 }, s.power.nextTicket)

/-- WAKE_ADMITTED (R430): the head of the queue is admitted when the budgets allow. -/
def execWakeAdmitted (s : State) : Host.Outcome State Fault Refusal := .next (s.wakeRun 1)

/-- RAMP_END (R430): ramps that have ended free their slope. -/
def execRampEnd (s : State) : Host.Outcome State Fault Refusal :=
  .next (s.setPower fun p => { p with ramps := p.ramps.filter fun r => decide (s.clock < r.ends) }).wakeCounts

end Sys2Proof.Machine
end

