-- ==== Sys2Proof/Machine/Calib.lean ====
section
/-! DEFINITION. Calibration items (R207 to R217): their residuals, the constants they apply, and when automatic items start. -/

namespace Sys2Proof.Machine

/-- The least number whose square is at least `n`, found below `2 ^ k`. -/
def ceilRoot : Nat → Nat → Nat → Nat
  | 0, _, r => r
  | k + 1, n, r => if n ≤ (r + 2 ^ k - 1) * (r + 2 ^ k - 1) then ceilRoot k n r else ceilRoot k n (r + 2 ^ k)

/-- ⌈√n⌉ for n below 2^128. -/
def rootUp (n : Nat) : Nat := if n = 0 then 0 else ceilRoot 65 n 0

/-- ⌈3 × σ / √N⌉ in ps, σ in 0.1 ps (R209). -/
def threeSigma (sigma n : Nat) : Nat := rootUp (ceilDiv (9 * sigma * sigma) (100 * max 1 n))

/-- The part of a residual that does not depend on the temperature, in 0.01 ps (R209). -/
def resBase (u sigma n : Nat) : Nat := 100 * (u + threeSigma sigma n + 1)

/-- What a list of pairs holds for a calibration item, and the list with it replaced. -/
def getItem {α : Type} (i : CalItem) (m : List (CalItem × α)) : Option α := (m.find? fun x => x.1 == i).map fun x => x.2
def putItem {α : Type} (i : CalItem) (x : α) (m : List (CalItem × α)) : List (CalItem × α) :=
  (m.filter fun e => e.1 != i) ++ [(i, x)]

/-- The temperature in 0.1 °C of the switch die that serves a lane (R213). -/
def State.switchDie (s : State) (l : Nat) : Int := s.rdS 16 P.HLT_DIE_TEMP (if l < 256 then 0 else 1)

/-- How far one temperature lies from another, 0 where either is not known. -/
def apart : Option Int → Option Int → Nat
  | some a, some b => (a - b).natAbs
  | _, _ => 0

/-- How far the sensors of an item have moved from T_cal (R209, R213): for a lane the larger of its engine's and its switch die's. -/
def State.calMove (s : State) (i : CalItem) : Nat :=
  let die : Option Int := if i.kind = 0 then some (s.switchDie i.index) else none
  max (apart (getItem i s.cal.temp) (getItem i s.cal.tcal)) (apart die (getItem i s.cal.tcalDie))

/-- The whole residual in ps, rounded up (R209). -/
def State.resWith (s : State) (base : Nat) (i : CalItem) : Nat :=
  clampU 16 (ceilDiv (base + s.rd P.CAL_TEMP_U * s.calMove i) 100)

/-- Whether the calibration front end has its power (R14). -/
def State.calUp (s : State) : Bool := s.rd P.PWR_DOMAIN_STATE 11 == 3

/-- A delay measured over a leg of the calibration bus, with the certificate's delay of the leg taken off (R207). -/
def offLeg (kind index k measured : Nat) : Nat := raw 32 ((measured : Int) - (Config.legDelay kind index k).toNat)

/-- The stored base residuals of an item. -/
def State.basesOf (s : State) (i : CalItem) : List Nat := ((s.cal.base.find? fun x => x.1 == i).map fun x => x.2).getD []

/-- The residual of an item's `k`-th delay; with an invalid certificate the value of R207. -/
def State.resOf (s : State) (i : CalItem) (base : Nat) : Nat :=
  if s.flash.certValid ∨ i.kind = 2 then s.resWith base i else if i.kind = 0 then s.rd P.TBS_FREE_Q else 1600

/-- The largest residual of an item, none before its first run. -/
def State.residual (s : State) (i : CalItem) : Option Nat :=
  match (s.basesOf i).map (s.resOf i) with
  | [] => none
  | r :: rs => some (rs.foldl max r)

/-- The residual registers an item answers for, brought up to date, and the reference bounds that hold them (R67, R109, R209, R218). -/
def State.showResidual (s : State) (i : CalItem) : State :=
  match s.residual i with
  | none => s
  | some r =>
    match i.kind with
    | 0 => (s.wr P.CAL_PORT_RES i.index r).linkBref i.index
    | 1 => s.wr P.EVT_RES i.index r
    | 2 => s.wr P.CAL_OUT_RES i.index r
    | _ => (((List.range 4).foldl (fun t j => t.wr P.CAL_REFIN_RES j (t.resOf i ((t.basesOf i).getD j 0))) s).refreshRef 1).refreshRef 2

/-- Slicer codes of a lane set at the end of its bring-up, where its thresholds are moved by calibration; those of a lane that is UP move
by one code at a time (R208, R210, R363). -/
def State.setSlicers (s : State) (l : Nat) (codes : List Int) : State :=
  if s.rdb P.LAN_SLICER_AUTO l ∧ s.rd P.LAN_STATE l = 4 then
    ((List.range 3).zip codes).foldl (fun t x => t.wr P.LAN_SLICER (3 * l + x.1) (raw 8 (max (-64) (min 63 x.2)))) s
  else s

/-- T_cal of an item set to the temperature at its end. -/
def State.setTcal (s : State) (i : CalItem) (t : Int) : State :=
  (if i.kind = 0 then s.wrS 16 P.CAL_LANE_TCAL i.index t else s).setCal fun c => { c with
    tcal := putItem i t c.tcal, temp := putItem i t c.temp,
    tcalDie := if i.kind = 0 then putItem i (s.switchDie i.index) c.tcalDie else c.tcalDie }

/-- The constants and figures of a lane item applied at one word edge (R208 to R211, R218). -/
def State.applyLane (s : State) (l : Nat) (m : CalMeasure) : State :=
  let i : CalItem := ⟨0, l⟩
  let n := s.rd P.CAL_N
  let u (k : Nat) : Nat := (Config.legU 0 l k).toNat
  let dtx := offLeg 0 l 1 (m.delays.getD 1 0)
  let t := (s.wr P.CAL_DRX l (offLeg 0 l 0 (m.delays.getD 0 0))).wr P.CAL_DTX l dtx
  let t := ((t.wr P.CAL_EYE_W l (clampU 10 m.eyeW)).wr P.CAL_EYE_H l (clampU 10 m.eyeH)).setSlicers l m.slicer
  let t := t.setCal fun c => { c with
    base := putItem i [resBase (u 0) (m.sigmas.getD 0 0) n, resBase (u 1) (m.sigmas.getD 1 0) n] c.base,
    target := if (c.target.any fun x => x.1 == l) then c.target else c.target ++ [(l, dtx)],
    lkt := store ltNat (l / 4) 0 (m.delays.getD 2 0) c.lkt, taps := store ltNat l [] m.taps c.taps }
  ((t.setTcal i m.temp).showResidual i).refreshPath l

/-- The base residual of an event input (R209): the single-shot rms and the INL of its live unit in 0.1 ps. -/
def State.evtBase (s : State) (i : Nat) : Nat :=
  let u := 2 * i + s.rd P.EVT_LIVE_UNIT i
  100 * ((Config.legU 1 i 0).toNat + ceilDiv (3 * s.rd P.EVT_SS_RMS u) 10) + 10 * s.rd P.EVT_INL u

/-- D_evt of the live unit shown (R200). -/
def State.showEvtDelay (s : State) (i : Nat) : State :=
  s.wr P.CAL_EVT_DELAY i (look (2 * i + s.rd P.EVT_LIVE_UNIT i) 0 s.cal.evtDelay)

/-- The results of an item that has ended, applied (R208 to R211). -/
def State.applyItem (s : State) (i : CalItem) (m : CalMeasure) : State :=
  let n := s.rd P.CAL_N
  match i.kind with
  | 0 => s.applyLane i.index m
  | 1 =>
    ((s.setCal fun c => { c with base := putItem i [s.evtBase i.index] c.base }).setTcal i m.temp).showResidual i
  | 3 =>
    let unit := 2 * i.index + s.rd P.EVT_LIVE_UNIT i.index
    let t := s.setCal fun c => { c with
      evtDelay := store ltNat unit 0 (offLeg 1 i.index 0 (m.delays.getD 0 0)) c.evtDelay, base := putItem ⟨1, i.index⟩ [s.evtBase i.index] c.base }
    ((t.setTcal ⟨1, i.index⟩ m.temp).showEvtDelay i.index).showResidual ⟨1, i.index⟩
  | 2 =>
    ((s.setCal fun c => { c with
      base := putItem i [resBase (Config.legU 2 i.index 0).toNat (m.sigmas.getD 0 0) n] c.base }).setTcal i m.temp).showResidual i
  | _ =>
    let t := (List.range 4).foldl (fun t j => t.wr P.CAL_REFIN_DELAY j (offLeg 4 0 j (m.delays.getD j 0))) s
    let t := t.setCal fun c => { c with
      base := putItem i ((List.range 4).map fun j => resBase (Config.legU 4 j 0).toNat (m.sigmas.getD j 0) n) c.base }
    (t.setTcal i m.temp).showResidual i

/-! ## Automatic items (R215, R217) -/

/-- The next automatic items ask for a wake: lanes in lane order up to CAL_AUTO_LANES at a time, timing-die items one at a time; none
while a CAL_RUN is in progress. At most `n` requests are made. -/
def State.calSchedule (s : State) : Nat → State
  | 0 => s
  | n + 1 =>
    let active := s.cal.waiting ++ s.cal.doing
    let lanes := s.cal.triggered.filter fun i => i.kind == 0
    let lane := lanes.foldl (fun (a : Option CalItem) i => match a with
      | some x => if i.index < x.index then some i else some x
      | none => some i) none
    let pick : Option CalItem :=
      if lane.isSome ∧ (active.filter fun i => i.kind == 0).length < s.rd P.CAL_AUTO_LANES then lane
      else if active.all fun i => i.kind == 0 then s.cal.triggered.find? fun i => i.kind != 0
      else none
    if s.cal.run.isSome ∨ ¬ s.rdb P.CAL_AUTO_ENABLE then s
    else match pick with
      | none => s
      | some i =>
        ((s.setCal fun c => { c with triggered := c.triggered.erase i, waiting := c.waiting ++ [i] }).wakeAsk .cal i.code
          none).calSchedule n

/-- Automatic items started as far as the limits allow. -/
def State.calStart (s : State) : State := s.calSchedule s.cal.triggered.length

/-- An item leaves every list it stands in. -/
def State.calForget (s : State) (i : CalItem) : State :=
  s.setCal fun c => { c with
    doing := c.doing.erase i, triggered := c.triggered.erase i,
    startup := c.startup.erase i }

/-- CAL_STARTUP_DONE once every start-up block has completed (R214). -/
def State.startupTest (s : State) (was : Bool) : State :=
  if was ∧ s.cal.startup = [] then s.wr P.CAL_STARTUP_DONE 0 1 else s

/-- An item counted in a run that names it (R216). -/
def State.runCount (s : State) (i : CalItem) (f : CalRun → CalRun) : State :=
  let one (r : CalRun) : CalRun := if r.todo.contains i then f { r with todo := r.todo.erase i } else r
  s.setCal fun c => { c with run := c.run.map one }

/-- An item ends failed (R217). -/
def State.calFailed (s : State) (i : CalItem) : State :=
  let active := s.cal.doing.contains i || (match s.cal.run with | some r => r.todo.contains i | none => false)
  if active then
    ((((s.runCount i fun r => { r with failed := r.failed + 1 }).setCal fun c => { c with doing := c.doing.erase i }).orIn
      P.CAL_FLAGS 0 8)).calStart
  else s

/-- An item of a lane that shutter mode puts OFF is skipped and counted (R217). -/
def State.calSkipped (s : State) (i : CalItem) : State :=
  ((s.runCount i fun r => { r with skipped := r.skipped + 1 }).setCal fun c => { c with doing := c.doing.erase i }).calStart

/-- A lane that goes down ends its item failed, or skipped where shutter mode takes its engine's power; its automatic requests lapse,
since bring-up calibrates it again (R217). -/
def State.calLaneLost (s : State) (l : Nat) : State :=
  let i : CalItem := ⟨0, l⟩
  let t := if s.rd P.PWR_SHUTTER_STATE ≠ 0 ∧ ¬ keelPort l then s.calSkipped i else s.calFailed i
  let t := t.wakeCancel fun r => r.kind == .cal && r.num == i.code
  t.setCal fun c => { c with waiting := c.waiting.erase i, triggered := c.triggered.erase i }

/-- Whether a calibration item runs (R220). -/
def State.calBusy (s : State) : Bool :=
  s.cal.doing != [] || s.cal.startup != [] || s.cal.run.isSome || (List.range 512).any fun l => s.rd P.LAN_STATE l == 4

end Sys2Proof.Machine
end

