-- ==== Sys2Proof/Machine/Lanes.lean ====
section
/-! DEFINITION. The lanes (R356 to R367): their states, alignment, equalization and the ports they make. -/

namespace Sys2Proof.Machine

/-- Lanes, lasers and synthesizers changed. -/
def State.setOptics (s : State) (f : Optics → Optics) : State := { s with optics := f s.optics }

/-- LAN_STATE of a lane (R360). -/
def State.laneState (s : State) (l : Nat) : Nat := s.rd P.LAN_STATE l

/-- What the model holds of a lane beside its registers. -/
def State.laneRec (s : State) (l : Nat) : Lane := (findBy Lane.num l s.optics.lanes).getD ⟨l, none, 0, 0, 0, false, 0⟩
def State.setLane (s : State) (l : Nat) (f : Lane → Lane) : State :=
  s.setOptics fun o => { o with lanes := dropBy Lane.num l o.lanes ++ [f (s.laneRec l)] }

/-- The engine of a lane, and the domain that powers an engine (R427). -/
def engineOf (l : Nat) : Nat := l / 16
def engineDomain (e : Nat) : Nat := if e = 0 ∨ e = 31 then 12 else if e ≤ 15 then 9 else 10

/-- Whether the laser that serves a lane is in service: its own, or the spare in its place (R368, R369). -/
def State.laserLit (s : State) (l : Nat) : Bool :=
  let e := engineOf l
  let own := s.rd P.OPT_LASER_STATE (5 * e + l / 4 % 4)
  own == 1 || (own == 3 && s.rd P.OPT_LASER_STATE (5 * e + 4) == 1) ||
    (s.optics.swaps.any fun w => w.engine == e && w.laser == l / 4 % 4 && w.routed) && s.rd P.OPT_LASER_STATE (5 * e + 4) != 2

/-- Whether a lane may wake from OFF (R360). -/
def State.laneMayWake (s : State) (l : Nat) : Bool :=
  s.laneState l == 0 && s.rdb P.LAN_ENABLE l && (s.portOf l).isSome && s.laserLit l &&
    s.rd P.PWR_DOMAIN_STATE (engineDomain (engineOf l)) == 3 && !s.power.lostRails.contains 4 && !s.power.lostRails.contains 7 &&
    !(s.optics.swaps.any fun w => w.engine == engineOf l && w.downAt.isSome && !w.routed)

/-- Lanes that may wake go to WAKING and ask the wake sequencer, in lane order (R360, R429). -/
def State.wakeLanes (s : State) (ls : List Nat) : State :=
  ls.foldl (fun t l => if t.laneMayWake l then (t.wr P.LAN_STATE l 1).wakeAsk .lane l none else t) s

/-- The port that a lane belongs to goes down with it. -/
def State.lanePortDown (s : State) (l : Nat) : State :=
  match s.portOf l with
  | some p => if s.portUp p then s.portDown p else if s.rd P.LNK_STATE p = 0 then s else s.linkDown p
  | none => s

/-- A lane goes OFF (R360). -/
def State.laneOff (s : State) (l : Nat) : State :=
  if s.laneState l = 0 then s
  else
    let t := (s.lanePortDown l).wr P.LAN_STATE l 0
    let t := t.wakeCancel fun r => r.kind == .lane && r.num == l
    (t.calLaneLost l).setLane l fun x => { x with realignBy := none, beyond := false }

/-- A lane takes a step back in its bring-up, or is retrained from UP or REALIGNING, which takes its port down (R360, R116). -/
def State.laneBack (s : State) (l q : Nat) : State :=
  let t := (s.lanePortDown l).calLaneLost l
  (t.setLane l fun x => { x with realignBy := none }).wr P.LAN_STATE l q

/-- A retrain that a commit makes: the lane goes OFF and wakes through the sequencer (R92, R250, R357). -/
def State.retrainLanes (s : State) (ls : List Nat) : State := (ls.foldl State.laneOff s).wakeLanes ls

/-- A port whose lanes are all UP or REALIGNING reports link-up (R360). -/
def State.portUpTest (s : State) (p : Nat) : State :=
  if s.rd P.PRT_LANES p ≠ 0 ∧ ¬ s.portUp p ∧ (s.lanesOf p).all fun l => decide (5 ≤ s.laneState l) then
    ((s.wr P.PRT_LINK_UP p 1).refreshPath p).evaluateSluice
  else s

/-! ## Planned laser swaps (R369, R370) -/

/-- The spare of an engine is in service in the place of a laser, which is RETIRED; a spare that has failed stays FAILED (R369). -/
def State.spareServes (s : State) (e k : Nat) : State :=
  let t := (s.wr P.OPT_LASER_STATE (5 * e + k) 3).wr P.OPT_SPARE_USED e 1
  if s.rd P.OPT_LASER_STATE (5 * e + 4) = 2 then t else t.wr P.OPT_LASER_STATE (5 * e + 4) 1

/-- A swap is DONE once the lanes it waits for are UP (R370): the laser is RETIRED, the spare ACTIVE. -/
def State.swapTest (s : State) (e : Nat) : State :=
  match s.optics.swaps.find? fun w => w.engine == e && w.routed with
  | none => s
  | some w =>
    if w.waits.any fun l => s.laneState l != 0 && decide (s.laneState l < 5) then s
    else
      let up := (w.waits.filter fun l => decide (5 ≤ s.laneState l)).length
      let t := s.setOptics fun o => { o with swaps := o.swaps.filter fun x => x.engine != e }
      (t.spareServes e w.laser).finish w.origin Status.DONE (toBe 1 e ++ toBe 1 w.laser ++ toBe 2 up ++
        toBe 4 (match w.downAt with | some c => (s.clock - c) / 1000 | none => 0))

/-! ## Lane events -/

/-- A lane's CDR has locked to a clock beyond 200,000 ppb or within; FREQ_RANGE stands while a lane of the port is beyond (R94,
assumption 45). -/
def State.freqRange (s : State) (l p : Nat) (beyond : Bool) : State :=
  let t := s.setLane l fun x => { x with beyond := beyond }
  t.linkFlag p 1 ((t.lanesOf p).any fun k => (t.laneRec k).beyond)

/-- CDR_LOCK (R360, R94): a lane's CDR locks with the partner's clock at `ppb` from the lane's reference; `ctle` is the code that
adaptation chose. -/
def execCdrLock (lane : Fin 512) (ppb : Int) (ctle : Fin 49) (s : State) : Host.Outcome State Fault Refusal :=
  let l := lane.val
  let p := (s.portOf l).getD l
  if s.laneState l ≠ 2 then .next s
  else if 200000 < ppb.natAbs then .next (s.freqRange l p true)
  else
    let t := (s.freqRange l p false).wr P.LAN_STATE l 3
    .next (t.wr P.LAN_CTLE l (if s.rdb P.LAN_CTLE_MODE l then s.rd P.LAN_CTLE_SET l else ctle.val))

/-- CDR_LOCK_LOSS (R360, R116). -/
def execCdrLockLoss (lane : Fin 512) (s : State) : Host.Outcome State Fault Refusal :=
  if 3 ≤ s.laneState lane.val then .next (s.laneBack lane.val 2) else .next s

/-- S of a lane changed by slips (R364). -/
def State.slipLane (s : State) (l n : Nat) : State :=
  (s.wr P.LAN_S l ((s.rd P.LAN_S l + n) % 64)).count P.LAN_SLIPS l n

/-- FRAMING (R360, R365, R367): `g` is the gearbox position, and `found` the slip count at the boundary that a hunt found. -/
def execFraming (lane : Fin 512) (g : Fin 66) (found : Fin 64) (s : State) : Host.Outcome State Fault Refusal :=
  let l := lane.val
  let hunt := s.rd P.LAN_ALIGN (l / 4) == 2
  let set (t : State) : State := (if hunt then t.wr P.LAN_S l found.val else t).wr P.LAN_G l g.val
  match s.laneState l with
  | 3 =>
    let t := (set s).wr P.LAN_STATE l 4
    .next (match s.portOf l with | some p => t.linkFramed p | none => t)
  | 6 =>
    let x := s.laneRec l
    match x.realignBy with
    | some e =>
      if e ≤ s.clock then .next s
      else
        let t := ((set s).wr P.LAN_STATE l 5).count P.LAN_REALIGNS l
        let t := t.setLane l fun y => { y with realignBy := none }
        if t.rd P.LAN_S l = x.s0 ∧ t.rd P.LAN_G l = x.g0 then .next t
        else .next (match t.portOf l with | some p => t.linkSlip p | none => t)
    | none => .next s
  | _ => .next s

/-- FRAMING_LOSS (R360, R365): with the CDR locked. -/
def execFramingLoss (lane : Fin 512) (s : State) : Host.Outcome State Fault Refusal :=
  let l := lane.val
  match s.laneState l with
  | 5 =>
    .next ((s.wr P.LAN_STATE l 6).setLane l fun x => { x with
      realignBy := some (s.clock + 1000 * s.rd P.LAN_REALIGN_TIME), s0 := s.rd P.LAN_S l, g0 := s.rd P.LAN_G l })
  | 4 => .next (s.laneBack l 3)
  | _ => .next s

/-- REALIGN_TIMEOUT (R360): LAN_REALIGN_TIME has passed in REALIGNING. -/
def execRealignTimeout (lane : Fin 512) (s : State) : Host.Outcome State Fault Refusal :=
  let l := lane.val
  match (s.laneRec l).realignBy with
  | some e => if s.laneState l = 6 ∧ e ≤ s.clock then .next (s.laneBack l 3) else .next s
  | none => .next s

/-- SLIP_STEP (R364): firmware slips an aligning lane of a SLIP_AUTO quad by one UI. -/
def execSlipStep (lane : Fin 512) (s : State) : Host.Outcome State Fault Refusal :=
  let l := lane.val
  if (s.laneState l = 3 ∨ s.laneState l = 6) ∧ s.rd P.LAN_ALIGN (l / 4) = 0 then .next (s.slipLane l 1) else .next s

/-- LAN_SLIP (R366). -/
def lanSlip (o : Origin) (b : List Byte) (s : State) : State :=
  let l := beAt 0 2 b
  let n := beAt 2 1 b
  if 511 < l ∨ n = 0 ∨ 63 < n then s.finish o Status.BAD_VALUE []
  else if (s.laneState l = 3 ∨ s.laneState l = 6) ∧ s.rd P.LAN_ALIGN (l / 4) = 1 then
    let t := s.slipLane l n
    t.finish o Status.OK (toBe 1 (t.rd P.LAN_S l) ++ zeros 3)
  else s.finish o Status.NOT_READY []

/-- LANE_CAL_ITEM_END (R14, R214, R360): the bring-up item of a lane ends, and the lane is UP. -/
def execLaneCalItemEnd (lane : Fin 512) (m : CalMeasure) (s : State) : Host.Outcome State Fault Refusal :=
  let l := lane.val
  if s.laneState l ≠ 4 ∨ m.moved ∨ ¬ s.calUp then .next s
  else if ¬ m.ok then .next (s.orIn P.CAL_FLAGS 0 8)
  else
    let t := s.setCal fun c => { c with target := c.target.filter fun x => x.1 != l }
    let t := (t.applyLane l m).wr P.LAN_STATE l 5
    let t := t.setLane l fun x => { x with power := sgn 16 (t.rd P.OPT_TX_POWER l) }
    .next ((match t.portOf l with | some p => t.portUpTest p | none => t).swapTest (engineOf l))

/-! ## Equalization (R362, R363, R210) -/

/-- The CTLE code in use changed; D_rx changes by the certificate's difference on the same word edge (R362). -/
def State.setCtle (s : State) (l code : Nat) : State :=
  let d : Int := (Config.ctleDelay l code).toInt - (Config.ctleDelay l (s.rd P.LAN_CTLE l)).toInt
  let t := s.wr P.LAN_CTLE l code
  if code = s.rd P.LAN_CTLE l then s else t.wr P.CAL_DRX l (clampU 32 ((s.rd P.CAL_DRX l : Int) + d).toNat)

/-- Whether an item of a lane runs, which pauses its adaptation (R362). -/
def State.laneItem (s : State) (l : Nat) : Bool :=
  let i : CalItem := ⟨0, l⟩
  s.cal.doing.contains i || (match s.cal.run with | some r => r.todo.contains i | none => false)

/-- CTLE_STEP (R362): adaptation moves the code of a lane in UP, by at most one step in 10 ms. -/
def execCtleStep (lane : Fin 512) (up : Bool) (s : State) : Host.Outcome State Fault Refusal :=
  let l := lane.val
  let c := s.rd P.LAN_CTLE l
  if s.laneState l = 5 ∧ ¬ s.rdb P.LAN_CTLE_MODE l ∧ ¬ s.laneItem l ∧ (s.laneRec l).ctleAt ≤ s.clock then
    .next ((s.setCtle l (if up then min 48 (c + 1) else c - 1)).setLane l fun x => { x with ctleAt := s.clock + 10000000 })
  else .next s

/-- SLICER_STEP (R210, R363): the background eye scan moves a threshold by one code; only the middle one of an NRZ lane. -/
def execSlicerStep (lane : Fin 512) (k : Fin 3) (up : Bool) (s : State) : Host.Outcome State Fault Refusal :=
  let i := 3 * lane.val + k.val
  if s.rdb P.LAN_SLICER_AUTO lane.val ∧ (s.rd P.LAN_RATE (lane.val / 4) ≤ 2 ∨ k.val = 1) then
    let c := s.rdS 8 P.LAN_SLICER i + (if up then 1 else -1)
    .next (s.wr P.LAN_SLICER i (raw 8 (max (-64) (min 63 c))))
  else .next s

/-- The D_tx in ps of a lane whose tap moves from one setting to another, by the lane's tap table (R210). -/
def State.tapMoved (s : State) (l now from_ to_ : Nat) : Nat :=
  let tab := look l [] s.cal.taps
  raw 32 (roundDiv ((now : Int) + (tab.getD to_ 0 : Nat) - (tab.getD from_ 0 : Nat)) 100)

/-- A D_tx measured in ps and hundredths of a ps: in 0.01 ps, and to the nearest ps. -/
def dtxFine (now : BitVec 32) (frac : Fin 100) : Nat := 100 * now.toNat + frac.val
def dtxPs (now : BitVec 32) (frac : Fin 100) : Nat := raw 32 (roundDiv (dtxFine now frac : Nat) 100)

/-- TAP_STEP (R210): `now` is the D_tx in ps measured at the present tap, with its
hundredths. The tap moves by one step towards the target, and D_tx with it by
the tap table; at either end of the line the tap stays and the stamp arithmetic alone follows. -/
def execTapStep (lane : Fin 512) (now : BitVec 32) (frac : Fin 100) (s : State) : Host.Outcome State Fault Refusal :=
  let l := lane.val
  let d := dtxPs now frac
  match s.cal.target.find? fun x => x.1 == l with
  | none => .next s
  | some (_, target) =>
    if s.clock < look l 0 s.cal.tapAt ∨ s.laneState l ≠ 5 ∨ d = target ∨ ¬ s.calUp then .next s
    else
      let tap := s.rd P.CAL_TXFD l
      let t := s.setCal fun c => { c with tapAt := store ltNat l 0 (s.clock + 1000000 * s.rd P.CAL_TAP_INTERVAL) c.tapAt }
      if (target < d ∧ tap = 0) ∨ (d < target ∧ tap = 511) then
        .next ((t.orIn P.CAL_FLAGS 0 2).wr P.CAL_DTX l d)
      else
        let to_ := if target < d then tap - 1 else tap + 1
        .next ((t.wr P.CAL_TXFD l to_).wr P.CAL_DTX l (s.tapMoved l (dtxFine now frac) tap to_))

/-- TRIM_STEP (R210): each second an output's trim moves by at most one 5 ps step; `err` is the output's edge minus its due instant
in ps, and a larger trim makes the edge later. -/
def execTrimStep (output : Fin 8) (err : Int) (s : State) : Host.Outcome State Fault Refusal :=
  let k := output.val
  let trim := s.rd P.CAL_OUT_TRIM k
  if s.clock < look k 0 s.cal.trimAt ∨ err.natAbs < 3 ∨ ¬ s.calUp then .next s
  else
    let s := s.setCal fun c => { c with trimAt := store ltNat k 0 (s.clock + 1000000000) c.trimAt }
    if (0 < err ∧ trim = 0) ∨ (err < 0 ∧ trim = 255) then .next (s.orIn P.CAL_FLAGS 0 4)
    else .next (s.wr P.CAL_OUT_TRIM k (if 0 < err then trim - 1 else trim + 1))

end Sys2Proof.Machine
end

