-- ==== Sys2Proof/Machine/Synths.lean ====
section
/-! DEFINITION. The synthesizers and their band memories (R358, R371 to R377), and the lasers (R368 to R370). -/

namespace Sys2Proof.Machine

/-! ## VCO plans -/

/-- A VCO frequency as a fraction of 500 MHz. -/
abbrev Plan := Nat × Nat

/-- The frequency family of a rate code, and the plan of a family (R356, R358). -/
def familyOf (rate : Nat) : Nat := if rate ≤ 2 then 0 else if rate = 3 then 1 else 2
def familyPlan (f : Nat) : Plan := match f with | 0 => (425, 16) | 1 => (825, 32) | _ => (165, 8)

/-- Two plans of one frequency. -/
def samePlan (a b : Plan) : Bool := a.1 * b.2 == b.1 * a.2

/-- The plan of output synthesizer `j` by its operational values, and by its shadows (R372). -/
def State.outPlan (s : State) (j : Nat) : Plan :=
  (s.rd P.SYN_OUT_INT j * s.rd P.SYN_OUT_MOD j + s.rd P.SYN_OUT_FRAC j, s.rd P.SYN_OUT_MOD j)
def State.shadowPlan (s : State) (j : Nat) : Plan :=
  (s.shadow P.SYN_OUT_INT j * s.shadow P.SYN_OUT_MOD j + s.shadow P.SYN_OUT_FRAC j, s.shadow P.SYN_OUT_MOD j)

/-- The plan of synthesizer `k`, line or output. -/
def State.planOf (s : State) (k : Nat) : Plan := if k < 32 then familyPlan (s.rd P.LAN_FAMILY k) else s.outPlan (k - 32)

/-- A plan's frequency in kHz, to the nearest. -/
def planKhz (p : Plan) : Nat := (roundDiv ((500000 * p.1 : Nat) : Int) p.2).toNat

/-- The die whose temperature goes with a synthesizer's bands: the switch die of an engine, else the timing die. -/
def bandDie (k : Nat) : Nat := if k < 16 then 0 else if k < 32 then 1 else 3

/-! ## Band memory (R376) -/

/-- The band memory after a plan is used or searched: its entry is the latest used; of 17 the least recently used goes. -/
def State.bandPut (s : State) (k : Nat) (p : Plan) (temp : Int) : State :=
  let mine := (s.optics.bands.filter fun b => b.syn == k && !samePlan (b.num, b.den) p) ++ [⟨k, p.1, p.2, temp⟩]
  s.setOptics fun o => { o with bands := (o.bands.filter fun b => b.syn != k) ++ mine.drop (mine.length - 16) }

/-- A full search, counted, which refreshes the plan's entry. -/
def State.bandSearch (s : State) (k : Nat) (p : Plan) : State :=
  (s.bandPut k p (s.rdS 16 P.HLT_DIE_TEMP (bandDie k))).count P.SYN_BAND_MISSES k

/-- A synthesizer moves its VCO to a plan (R374, R376): a hop where the memory holds the plan near its temperature, else a full
search. -/
def State.moveBand (s : State) (k : Nat) (p : Plan) : State :=
  let now := s.rdS 16 P.HLT_DIE_TEMP (bandDie k)
  match s.optics.bands.find? fun b => b.syn == k && samePlan (b.num, b.den) p with
  | some b =>
    if (now - b.temp).natAbs ≤ s.rd P.SYN_BAND_TEMP then
      ((s.bandPut k p b.temp).count P.SYN_BAND_HITS k).wr P.SYN_STATE k 3
    else ((s.bandSearch k p).orIn P.SYN_FLAGS 0 2).wr P.SYN_STATE k 1
  | none => ((s.bandSearch k p).orIn P.SYN_FLAGS 0 2).wr P.SYN_STATE k 1

/-- A synthesizer is locked on its plan. -/
def State.synLocked (s : State) (k : Nat) : State :=
  let t := s.wr P.SYN_STATE k 2
  if 36 ≤ k then t else t.wr P.SYN_VCO_FREQ k (planKhz (t.planOf k))

/-- The line synthesizer of an engine that has power-good: locked on its family's plan, its band memory filled with the three family
plans at the first bring-up (R376). -/
def State.lineUp (s : State) (e : Nat) : State :=
  let t := if s.optics.bands.any fun b => b.syn == e then s
    else [0, 1, 2].foldl (fun u f => u.bandSearch e (familyPlan f)) s
  t.synLocked e

/-- A commit that changes an engine's family moves its line synthesizer (R357, R376). -/
def State.setFamily (s : State) (e f : Nat) : State :=
  let t := s.wr P.LAN_FAMILY e f
  if s.rd P.SYN_STATE e = 0 then t else t.moveBand e (familyPlan f)

/-! ## Output synthesizers (R372 to R375) -/

/-- The phase offset of CLK OUT `j` at present: it moves by one step every 64 VCO periods from the offset it had at its last
application (R375). -/
def State.clkPhase (s : State) (j : Nat) : Nat :=
  let old := look j 0 s.optics.synFrom
  let new := s.rd P.SYN_OUT_PHASE j
  let n := (s.modNs - look j 0 s.optics.synAt) * (s.outPlan j).1 / (128 * (s.outPlan j).2)
  if old ≤ new then min new (old + n) else max new (old - n)

/-- Rising edge `n` of CLK OUT `j` in fs of module time, T_a + n / f_out + φ (R372, R374, R375); none while the output is held low. -/
def State.clkEdge (s : State) (j n : Nat) : Option Nat :=
  if s.rdb P.SYN_OUT_ENABLE j ∧ s.rd P.SYN_STATE (32 + j) = 2 then
    let p := s.outPlan j
    some (look j 0 s.optics.synAt * 1000000 +
      (n * s.rd P.SYN_OUT_DIV j * 1024 + s.clkPhase j) * p.2 * 2000000 / (1024 * p.1))
  else none

/-- Whether the shadows of output synthesizer `j` may be applied (R372, R375). -/
def State.synLegal (s : State) (j : Nat) : Bool :=
  let f := s.shadow P.SYN_OUT_FRAC j
  let m := s.shadow P.SYN_OUT_MOD j
  let d := s.shadow P.SYN_OUT_DIV j
  let p := s.shadowPlan j
  decide (f < m ∧ 20 * m ≤ p.1 ∧ p.1 ≤ 28 * m ∧ 500000 * p.1 ≥ d * m ∧ 500 * p.1 ≤ 1000 * d * m) &&
    decide (s.shadow P.SYN_OUT_PHASE j ≤ min (d * 1024 - 1) 262143)

/-- The output synthesizers that a mask names. -/
def maskedSyns (mask : Nat) : List Nat := setBits 4 mask

/-- The shadows of output synthesizer `j` applied at an instant (R374); while it moves band the application waits (R378). -/
def State.applySyn (s : State) (at_ j : Nat) : State :=
  let k := 32 + j
  if s.rd P.SYN_STATE k = 1 ∨ s.rd P.SYN_STATE k = 3 then
    s.setOptics fun o => { o with synWait := if o.synWait.contains j then o.synWait else o.synWait ++ [j],
                                  synAt := store ltNat j 0 at_ o.synAt }
  else
    let old := s.outPlan j
    let new := s.shadowPlan j
    let t := [P.SYN_OUT_INT, P.SYN_OUT_FRAC, P.SYN_OUT_MOD, P.SYN_OUT_DIV, P.SYN_OUT_PHASE].foldl
      (fun u b => u.wrBoth b j (s.shadow b j)) s
    let t := t.setOptics fun o => { o with
      synAt := store ltNat j 0 at_ o.synAt, synFrom := store ltNat j 0 (s.clkPhase j) o.synFrom }
    if s.rd P.SYN_STATE k = 0 then t
    else if samePlan old new || Config.sameBand k old new then t.synLocked k
    else t.moveBand k new

/-- SYN_PENDING as the scheduled applications give it. -/
def State.synPending (s : State) : State :=
  s.wr P.SYN_PENDING 0 ((s.optics.synJobs.map SynJob.mask).foldl (· ||| ·) 0)

/-- SYN_APPLY (R373), and a commit of block SYN with mask 0x0F (R372): a scheduled application replaces an earlier one for the synthesizers it
names, whose request ends SUPERSEDED once none of its synthesizers is left. -/
def State.synSchedule (s : State) (o : Origin) (mask due : Nat) : State :=
  let cut := s.optics.synJobs.map fun j => { j with mask := j.mask - (j.mask &&& mask) }
  let t := s.setOptics fun x => { x with synJobs := (cut.filter fun j => j.mask != 0) ++ [⟨o, mask, due⟩] }
  (((cut.filter fun j => j.mask == 0).foldl (fun u j => u.finish j.origin Status.SUPERSEDED []) t).accept o).synPending

/-- An application of the named synthesizers now, answered with the status given, or BAD_VALUE with nothing applied (R372). -/
def State.synApplyNow (s : State) (o : Origin) (mask status : Nat) : State :=
  if (maskedSyns mask).all s.synLegal then ((maskedSyns mask).foldl (fun t j => t.applySyn s.modNs j) s).configUp.finish o status []
  else s.finish o Status.BAD_VALUE []

/-- SYN_APPLY (R373). -/
def synApply (o : Origin) (b : List Byte) (s : State) : State :=
  let mask := beAt 0 1 b % 16
  let due := instant (beAt 2 6 b) (beAt 8 4 b)
  if mask = 0 then s.finish o Status.BAD_VALUE []
  else if ¬ bit 0 (beAt 1 1 b) then s.synApplyNow o mask Status.OK
  else if due < s.modNs then s.synApplyNow o mask Status.DONE_LATE
  else s.synSchedule o mask due

/-- The scheduled applications that `pick` names end, the state going through what `each` makes of each. -/
def State.synTake (s : State) (pick : SynJob → Bool) (each : State → SynJob → State) : State :=
  let t := (s.setOptics fun o => { o with synJobs := o.synJobs.filter fun j => !pick j }).synPending
  (s.optics.synJobs.filter pick).foldl each t

/-- The scheduled applications among those picked whose instant has come (R373, R374). -/
def State.synDue (s : State) (pick : SynJob → Bool) : State :=
  s.synTake (fun j => pick j && decide (j.due ≤ s.modNs)) fun u j => u.synApplyNow j.origin j.mask Status.DONE

/-- SYN_APPLY_DUE (R373, R374). -/
def execSynApplyDue (s : State) : Host.Outcome State Fault Refusal := .next (s.synDue fun _ => true)

/-- A synthesizer has finished moving or searching: it is LOCKED, and an application that waited for it acts (R378). -/
def State.synSettled (s : State) (k : Nat) : State :=
  if s.rd P.SYN_STATE k = 1 ∨ s.rd P.SYN_STATE k = 3 then
    let t := s.synLocked k
    if 32 ≤ k ∧ t.optics.synWait.contains (k - 32) then
      (t.setOptics fun o => { o with synWait := o.synWait.erase (k - 32) }).applySyn (look (k - 32) 0 t.optics.synAt) (k - 32)
    else t
  else s

/-- BAND_CHANGE_END (R374). -/
def execBandChangeEnd (syn : Fin 38) (s : State) : Host.Outcome State Fault Refusal := .next (s.synSettled syn.val)

/-- SYN_RELOCK (R377): lock is regained after the search. -/
def execSynRelock (syn : Fin 38) (s : State) : Host.Outcome State Fault Refusal :=
  if s.rd P.SYN_STATE syn.val = 1 then .next (s.synSettled syn.val) else .next s

/-- A synthesizer loses lock (R377). -/
def State.synUnlock (s : State) (k : Nat) : State :=
  let t := ((s.wr P.SYN_STATE k 1).orIn P.SYN_FLAGS 0 1).sticky 12 k
  let t := t.count P.SYN_BAND_MISSES k
  if k < 32 then ((List.range 16).map fun i => 16 * k + i).foldl (fun u l => if 3 ≤ u.laneState l then u.laneBack l 2 else u) t
  else if k < 36 then t
  else if t.corState (k - 36) = 0 ∨ t.corState (k - 36) = 5 then t.setCore (k - 36) fun x => { x with okSince := x.okSince.map fun _ => s.clock + 2 }
  else t.coreFault (k - 36) 2

/-! ## Lasers (R368 to R370) -/

/-- Whether the spare of an engine stands in for laser `k`: it is RETIRED, or a swap has routed the spare to its quad. -/
def State.spared (s : State) (e k : Nat) : Bool :=
  s.rd P.OPT_LASER_STATE (5 * e + k) == 3 || s.optics.swaps.any fun w => w.engine == e && w.laser == k && w.routed

/-- The quad whose lanes a laser of an engine feeds: its own, or for the spare that of the laser it stands in for. -/
def State.fedQuad (s : State) (e k : Nat) : Option Nat :=
  if k < 4 then (if s.spared e k then none else some (4 * e + k))
  else ((List.range 4).find? (s.spared e)).map fun i => 4 * e + i

/-- The lanes of a quad. -/
def quadLanes (q : Nat) : List Nat := (List.range 4).map fun i => 4 * q + i

/-- LASER_BIAS_WARN (R368): a laser's bias, in 0.01 mA, exceeds OPT_BIAS_WARN. -/
def execLaserBiasWarn (engine : Fin 32) (laser : Fin 5) (bias : BitVec 16) (s : State) : Host.Outcome State Fault Refusal :=
  let i := 5 * engine.val + laser.val
  let t := s.wr P.OPT_BIAS i bias.toNat
  if 100 * s.rd P.OPT_BIAS_WARN < bias.toNat then .next ((t.orIn P.OPT_FLAGS 0 1).sticky 10 i) else .next t

/-- LASER_FAILED (R368): a laser's bias exceeds OPT_BIAS_FAIL, or the power of all four of its lanes, in 0.01 dBm, lies 6 dB below
their values at bring-up. -/
def execLaserFailed (engine : Fin 32) (laser : Fin 5) (bias : BitVec 16) (powers : List Int) (s : State) :
    Host.Outcome State Fault Refusal :=
  let e := engine.val
  let i := 5 * e + laser.val
  let lanes := match s.fedQuad e laser.val with | some q => quadLanes q | none => []
  let t := (lanes.zip powers).foldl (fun u x => u.wrS 16 P.OPT_TX_POWER x.1 x.2) (s.wr P.OPT_BIAS i bias.toNat)
  let dim := lanes != [] && powers.length == 4 && (lanes.zip powers).all fun x => decide (x.2 + 600 ≤ (s.laneRec x.1).power)
  if 100 * s.rd P.OPT_BIAS_FAIL < bias.toNat ∨ dim then
    let u := ((t.wr P.OPT_LASER_STATE i 2).orIn P.OPT_FLAGS 0 2).sticky 11 i
    .next ((lanes.foldl State.laneOff u).swapTest e)
  else .next t

/-- LASER_SWAP (R369). -/
def laserSwap (o : Origin) (b : List Byte) (s : State) : State :=
  let e := beAt 0 1 b
  let k := beAt 1 1 b
  let due := if bit 0 (beAt 2 1 b) then instant (beAt 4 6 b) (beAt 10 4 b) else 0
  if 31 < e ∨ 3 < k then s.finish o Status.BAD_VALUE []
  else if s.rdb P.OPT_SPARE_USED e ∨ s.rd P.OPT_LASER_STATE (5 * e + 4) = 2 ∨ s.rd P.PWR_DOMAIN_STATE (engineDomain e) ≠ 3 then
    s.finish o Status.NOT_READY []
  else if s.optics.swaps.any fun w => w.engine == e then s.finish o Status.IN_PROGRESS []
  else
    let start := max due (s.modNs + 1000000 * s.rd P.OPT_SWAP_NOTICE)
    let t := s.setOptics fun x => { x with swaps := x.swaps ++ [⟨e, k, o, start, none, false, []⟩] }
    (t.accept o).notice 8 (toBe 1 e ++ toBe 1 k ++ zeros 2 ++ toBe 8 start ++
      toBe 4 (1000 * (20 + s.rd P.CAL_LANE_MS)) ++ zeros 4)

/-- A swap of an engine changed. -/
def State.setSwap (s : State) (e : Nat) (f : Swap → Swap) : State :=
  s.setOptics fun o => { o with swaps := updBy Swap.engine e f o.swaps }

/-- LASER_SWAP_START (R370): at the start instant the engine's lanes go OFF and the spare is powered. -/
def execLaserSwapStart (engine : Fin 32) (s : State) : Host.Outcome State Fault Refusal :=
  let e := engine.val
  match s.optics.swaps.find? fun w => w.engine == e && w.downAt.isNone with
  | none => .next s
  | some w =>
    if s.modNs < w.start then .next s
    else
      let t := ((List.range 16).map fun i => 16 * e + i).foldl State.laneOff s
      .next (t.setSwap e fun w => { w with downAt := some s.clock })

/-- SPARE_ROUTED (R370): the spare has reached power and is routed, and the lanes wake. -/
def execSpareRouted (engine : Fin 32) (s : State) : Host.Outcome State Fault Refusal :=
  let e := engine.val
  match s.optics.swaps.find? fun w => w.engine == e && w.downAt.isSome && !w.routed with
  | none => .next s
  | some _ =>
    let lanes := (List.range 16).map fun i => 16 * e + i
    let t := s.setSwap e fun w => { w with routed := true }
    let wait := lanes.filter t.laneMayWake
    let t := t.setSwap e fun w => { w with waits := wait }
    .next ((t.wakeLanes lanes).swapTest e)

/-- Shutter mode ends the swaps of engines 1 to 30 (R378). -/
def State.abortSwaps (s : State) : State :=
  (s.optics.swaps.filter fun w => w.engine != 0 && w.engine != 31).foldl (fun t w =>
    let t := t.setOptics fun o => { o with swaps := o.swaps.filter fun x => x.engine != w.engine }
    let e := w.engine
    let t := if w.routed then t.spareServes e w.laser else t
    t.finish w.origin Status.ABORTED []) s

end Sys2Proof.Machine
end

