-- ==== Sys2Proof/Machine/Events.lean ====
section
/-! DEFINITION. Event inputs, the vernier and its statistics (R195 to R206), and calibration runs (R207 to R217). -/

namespace Sys2Proof.Machine

/-! ## Event rings (R479) -/

/-- The bytes of a ring entry of a number of 16-byte slots. -/
def ringEntry (type slots : Nat) (body : List Byte) : List Byte :=
  fit (16 * slots) (toBe 1 type ++ toBe 1 slots ++ zeros 2 ++ body)

/-- An entry put into the slots from index `i` on. -/
def State.putEntry (s : State) (r : Ring) (i slots : Nat) (bytes : List Byte) : State :=
  (List.range slots).foldl (fun t k =>
    t.emit (.hostWrite (r.slotAddr 16 (advance i k)) (slice (16 * k) 16 bytes))) s

/-- A record written to event ring `n`, with a PAD entry before it where it would cross the ring's end; discarded and counted where
the ring has no room. Whether it was written. -/
def State.evtRing (s : State) (n type : Nat) (body : List Byte) : State × Bool :=
  let g := 144 + n
  match s.ring g with
  | none => (s, false)
  | some r =>
    if s.rd P.HST_RING_STATE g ≠ 1 ∨ ¬ s.linkUp then (s, false)
    else
      let slots := ceilDiv (4 + body.length) 16
      let left := r.size - r.prod % r.size
      let pad := if left < slots then left else 0
      if r.size < inUse r.prod r.cons + pad + slots then (s.count P.HST_EVT_DROP n, false)
      else
        let t := if pad = 0 then s else s.putEntry r r.prod pad (ringEntry 3 pad [])
        let t := t.putEntry r (advance r.prod pad) slots (ringEntry type slots body)
        let e := advance r.prod (pad + slots)
        ((t.setRing g fun x => { x with prod := e }).writeIndex g e, true)

/-! ## Statistics (R204 to R206) -/

/-- The state of input `i`. -/
def State.evtInput (s : State) (i : Nat) : EvtInput := (findBy EvtInput.num i s.evtInputs).getD ⟨i, none, 0, none, none⟩
def State.setEvt (s : State) (i : Nat) (f : EvtInput → EvtInput) : State :=
  { s with evtInputs := dropBy EvtInput.num i s.evtInputs ++ [f (s.evtInput i)] }

/-- An accumulator that has taken nothing. -/
def EvtAcc.blank (k : Nat) : EvtAcc := ⟨k, false, 0, 0, 0, 0, 0, none, [], [], 0, 0⟩

/-- Accumulator `k`. -/
def State.acc (s : State) (k : Nat) : EvtAcc := (findBy EvtAcc.num k s.evtAccs).getD (EvtAcc.blank k)
def State.setAcc (s : State) (x : EvtAcc) : State := { s with evtAccs := dropBy EvtAcc.num x.num s.evtAccs ++ [x] }

/-- One sample taken; the accumulator is DONE at EVT_ACC_N samples. -/
def EvtAcc.take (a : EvtAcc) (n : Nat) (x : Int) : EvtAcc :=
  if a.done then a
  else { a with
    n := a.n + 1, sum := a.sum + x, sumSq := a.sumSq + x.natAbs * x.natAbs,
    least := if a.n = 0 then x else min a.least x, most := if a.n = 0 then x else max a.most x,
    done := decide (n ≤ a.n + 1) }

/-- The edge of a list nearest to an instant and within a distance of it. -/
def nearestEdge (a win : Int) (bs : List Int) : Option Int :=
  bs.foldl (fun best b =>
    if win < (b - a).natAbs then best
    else match best with
      | some c => if (b - a).natAbs < (c - a).natAbs then some b else best
      | none => some b) none

/-- Edges of A that can be decided at an instant are matched in order, or counted as unmatched once their window has passed (R205).
`later` says that an edge of B has just arrived. -/
def EvtAcc.settle (a : EvtAcc) (n : Nat) (win now : Int) (later : Bool) : List Int → EvtAcc
  | [] => a
  | x :: xs =>
    if later ∨ x + win < now then
      match nearestEdge x win a.edgesB with
      | some b => (({ a with edgesB := a.edgesB.erase b, edgesA := a.edgesA.erase x }).take n (b - x)).settle n win now later xs
      | none =>
        if x + win < now then
          ({ a with edgesA := a.edgesA.erase x, unmatched := a.unmatched + 1 }).settle n win now later xs
        else a.settle n win now later xs
    else a.settle n win now later xs

/-- The nearest whole second to an instant in ps, in ps. -/
def nearestSecond (t : Int) : Int := (2 * t + 1000000000000) / 2000000000000 * 1000000000000

/-- A stamped edge of input `i` at an instant in ps enters accumulator `k` (R204, R205). -/
def State.accEdge (s : State) (i : Nat) (t : Int) (k : Nat) : State :=
  let a := s.acc k
  let n := s.rd P.EVT_ACC_N k
  let isA := s.rd P.EVT_ACC_A k == i
  let isB := s.rd P.EVT_ACC_B k == i
  let win : Int := (s.rd P.EVT_PAIR_WIN * 1000000 : Nat)
  if a.done || s.frozenMaster 6 then s
  else match s.rd P.EVT_ACC_MODE k with
    | 1 =>
      if isA then
        let a : EvtAcc := match a.prev with | some x => a.take n (t - x) | none => a
        s.setAcc { a with prev := some t }
      else s
    | 2 =>
      let a := if isA then { a with edgesA := a.edgesA ++ [t] } else a
      let a := if isB then { a with edgesB := a.edgesB ++ [t] } else a
      let a := if isA || isB then a.settle n win t isB a.edgesA else a
      s.setAcc { a with edgesB := a.edgesB.filter fun b => decide (t - 2 * win ≤ b) }
    | 3 => if isA then s.setAcc (a.take n (t - nearestSecond t)) else s
    | _ => s

/-- The edges of A in accumulator `k` whose window has passed by now are matched or counted as unmatched (R205). -/
def State.accSettle (s : State) (k : Nat) : State :=
  let a := s.acc k
  if a.done ∨ s.frozenMaster 6 ∨ s.rd P.EVT_ACC_MODE k ≠ 2 then s
  else s.setAcc (a.settle (s.rd P.EVT_ACC_N k) (s.rd P.EVT_PAIR_WIN * 1000000 : Nat) (s.modNs * 1000 : Nat) false a.edgesA)

/-- A missed edge of input `i` counts in the accumulators that use it (R206). -/
def State.accMissed (s : State) (i k : Nat) : State :=
  let s := s.accSettle k
  let a := s.acc k
  let m := s.rd P.EVT_ACC_MODE k
  if m ≠ 0 ∧ ¬ a.done ∧ ¬ s.frozenMaster 6 ∧ (s.rd P.EVT_ACC_A k = i ∨ (m = 2 ∧ s.rd P.EVT_ACC_B k = i)) then s.setAcc { a with missed := a.missed + 1 }
  else s

/-- The standard deviation in fs of the samples, rounded up; 0 below two samples (R206). -/
def EvtAcc.sigmaFs (a : EvtAcc) : Nat :=
  if a.n < 2 then 0 else rootUp (ceilDiv (1000000 * (a.n * a.sumSq - a.sum.natAbs * a.sum.natAbs)) (a.n * (a.n - 1)))

/-- The statistics reply (R206). -/
def State.statsReply (s : State) (k : Nat) : List Byte :=
  let a := s.acc k
  let m := s.rd P.EVT_ACC_MODE k
  toBe 1 k ++ toBe 1 m ++ toBe 1 (if m = 0 then 0 else if a.done then 2 else 1) ++ [0] ++ toBe 8 a.n ++
    toBe 8 (raw 64 (if a.n = 0 then 0 else roundDiv (1000 * a.sum) a.n)) ++ toBe 8 (clampU 64 a.sigmaFs) ++
    toBe 8 (raw 64 a.least) ++ toBe 8 (raw 64 a.most) ++ toBe 4 (clampU 32 a.unmatched) ++ toBe 4 (clampU 32 a.missed)

/-- EVT_STATS (R206). -/
def evtStats (o : Origin) (b : List Byte) (s : State) : State :=
  let k := beAt 0 1 b
  if 7 < k then s.finish o Status.BAD_VALUE []
  else
    let t := s.accSettle k
    (if bit 0 (beAt 1 1 b) then t.setAcc (EvtAcc.blank k) else t).finish o Status.OK (t.statsReply k)

/-! ## Edges (R196 to R200) -/

/-- Whether an input stamps an edge (R14, R195, R196). -/
def State.evtTakes (s : State) (i : Nat) (rising : Bool) : Bool :=
  s.rdb P.EVT_ENABLE i && s.calUp && s.sharedUp &&
    (match s.rd P.EVT_EDGE i with | 0 => rising | 1 => !rising | _ => true) &&
    !(decide (i < 8) && i % 2 == 1 && s.rd P.EVT_MODE (i - 1) == 1)

/-- F_u(c) as a fraction of ps (R200): the midpoint of bin `c`, from the hits of the table of unit `u`; 0 before its first table. -/
def State.vernier (s : State) (u c : Nat) : Nat × Nat :=
  let h := look u [] s.cal.hits
  ((2 * (h.take c).foldl (· + ·) 0 + h.getD c 0) * 1000, max 1 (h.foldl (· + ·) 0))

/-- The event stamp in ps (R200); code 512 is OUT_OF_RANGE. -/
def State.evtTime (s : State) (i tick code : Nat) : Int :=
  let f : Nat × Nat := if code = 512 then (1000, 1) else s.vernier (2 * i + s.rd P.EVT_LIVE_UNIT i) code
  roundDiv ((((tick * 1000 : Nat) : Int) - s.rd P.CAL_EVT_DELAY i) * f.2 - f.1) f.2

/-- A TRACE run takes a pulse at CAL IN, whose stamp has SWITCH or not (R212, R217). -/
def State.tracePulse (s : State) (i : Nat) (t : Int) (switch : Bool) : State :=
  match s.cal.run with
  | some r =>
    if i = 8 ∧ ¬ switch ∧ r.scope = 5 ∧ r.samples.length < s.rd P.CAL_TRACE_N then
      let x := t - s.rdS 32 P.CAL_IN_CABLE
      s.setCal fun c => { c with run := some { r with samples := r.samples ++ [nearestSecond x - x] } }
    else s
  | none => s

/-- The record of an edge (R198). -/
def evtRecord (i : Nat) (rising oor : Bool) (st : Stamp) (missed : Nat) : List Byte :=
  toBe 1 i ++ toBe 1 (b2n rising + 2 * b2n oor) ++ toBe 1 st.code ++ toBe 1 st.flags ++ toBe 8 st.ns ++ toBe 2 st.sub ++
    toBe 2 (clampU 16 missed)

/-- An edge in the dead time of its input is MISSED (R196). -/
def State.missEdge (s : State) (i : Nat) : State :=
  let t := (s.count P.EVT_MISSED i).setEvt i fun x => { x with missed := x.missed + 1 }
  (List.range 8).foldl (fun u k => u.accMissed i k) t

/-- An edge stamped (R196 to R200, R204, R212). -/
def State.takeEdge (s : State) (i : Nat) (rising : Bool) (tick code : Nat) : State :=
  let oor := code == 512
  let ps := s.evtTime i tick code
  let st := s.stampOf ps (s.rd P.EVT_RES i + if oor then 1000 else 0) 0 false
  let t := (s.count P.EVT_COUNT i).setEvt i fun x => { x with last := some s.clock, stamp := some ps }
  let t := if oor then (t.count P.EVT_OOR i).orIn P.EVT_FLAGS 0 2 else t
  let t := if s.rd P.EVT_RING i < 16 then
      (let r := t.evtRing (s.rd P.EVT_RING i) 0 (evtRecord i rising oor st (s.evtInput i).missed)
       if r.2 then r.1.setEvt i fun x => { x with missed := 0 } else r.1)
    else t
  let t := (List.range 8).foldl (fun u k => u.accEdge i ps k) t
  (t.calPulse (if i = 8 then 0 else i + 1) st).tracePulse i ps (st.flags.testBit 1)

/-- EVT_EDGE (R196 to R200): an edge at an input; `tick` is the TAI ns count of the first tick after it, `code` the vernier's count, 512
without a coincidence. -/
def execEvtEdge (input : Fin 9) (rising : Bool) (tick : Nat) (code : Fin 513) (s : State) : Host.Outcome State Fault Refusal :=
  let i := input.val
  let t := s.setEvt i fun x => { x with seen := some s.clock }
  let dead : Bool := match (s.evtInput i).last with | some c => decide (s.clock < c + 1250) | none => false
  .next (if ¬ s.evtTakes i rising then t else if dead then t.missEdge i else t.takeEdge i rising tick code.val)

/-! ## Code-density calibration (R202, R203) -/

/-- The highest code with a hit, plus 1. -/
def codesUsed (h : List Nat) : Nat := ((List.range h.length).filter fun k => h.getD k 0 != 0).foldl (fun m k => max m (k + 1)) 0

/-- inl_max × total × (cmax + 1) in 0.1 ps (R202): `n` codes from `k` on, with the hits before them. -/
def inlWorst (total used : Nat) : List Nat → Nat → Nat → Nat → Nat
  | [], _, _, m => m
  | h :: hs, k, cum, m =>
    if k < used then
      inlWorst total used hs (k + 1) (cum + h) (max m (20000 * (((cum * used : Nat) : Int) - (k * total : Nat)).natAbs))
    else m

/-- CODE_DENSITY_END (R14, R202, R203, R207): the spare unit of an input has its hits by code, its out-of-range count, its single-shot rms in 0.1 ps and
its D_evt in ps. -/
def execCodeDensityEnd (input : Fin 9) (hits : List Nat) (oor : Nat) (rms : BitVec 16) (delay : BitVec 32) (s : State) :
    Host.Outcome State Fault Refusal :=
  let i := input.val
  let u := 2 * i + (1 - s.rd P.EVT_LIVE_UNIT i)
  let h := (hits ++ List.replicate 512 0).take 512
  let total := h.foldl (· + ·) 0
  let used := codesUsed h
  let worst := inlWorst total used h 0 0 0
  let good := decide (total = 2 ^ s.rd P.EVT_CD_HITS) && ((h.take used).all fun x => x != 0) &&
    decide (oor ≤ 2 ^ (s.rd P.EVT_CD_HITS - 13)) && decide (worst ≤ s.rd P.EVT_INL_MAX * (total * used))
  if ¬ s.calUp ∨ ¬ s.sharedUp then .next s
  else if good then
    let t := ((List.range 512).zip h).foldl (fun v x =>
      v.wr P.EVT_CD_WIDTH (512 * u + x.1) (clampU 16 (roundDiv ((x.2 * 2000000 : Nat) : Int) total).toNat)) s
    let t := (t.wr P.EVT_INL u (clampU 16 (ceilDiv worst (total * used)))).wr P.EVT_SS_RMS u rms.toNat
    .next (t.setCal fun c => { c with
      evtDelay := store ltNat u 0 (offLeg 1 i 0 delay.toNat) c.evtDelay, hits := store ltNat u [] h c.hits, spare := if c.spare.contains i then c.spare else c.spare ++ [i] })
  else .next ((s.orIn P.EVT_FLAGS 0 1).sticky 4 u)

/-- VERNIER_UNIT_CHANGE (R203): after 2 µs in which the input has seen no edge the calibrated spare becomes live. -/
def execVernierUnitChange (input : Fin 9) (s : State) : Host.Outcome State Fault Refusal :=
  let i := input.val
  let quiet : Bool := match (s.evtInput i).seen with | some c => decide (c + 2000 ≤ s.clock) | none => true
  if s.cal.spare.contains i ∧ quiet then
    let t := (s.wr P.EVT_LIVE_UNIT i (1 - s.rd P.EVT_LIVE_UNIT i)).setCal fun c => { c with spare := c.spare.erase i }
    let t := t.showEvtDelay i
    .next ((t.setCal fun c => { c with base := putItem ⟨1, i⟩ [t.evtBase i] c.base }).showResidual ⟨1, i⟩)
  else .next s

/-! ## Calibration runs (R212, R216) -/

/-- The items of a scope over a range of objects (R216). -/
def scopeItems (scope first count : Nat) : List CalItem :=
  let span (k : Nat) : List CalItem := (List.range count).map fun i => ⟨k, first + i⟩
  let all (k n : Nat) : List CalItem := (List.range n).map fun i => ⟨k, i⟩
  match scope with
  | 0 => all 1 9 ++ all 0 512 ++ all 2 8 ++ all 3 9 ++ [⟨4, 0⟩]
  | 1 => span 1
  | 2 => span 0
  | 3 => all 2 8
  | 4 => span 3 ++ [⟨4, 0⟩]
  | _ => []

/-- Whether the range of a scope is legal (R216). -/
def scopeLegal (scope first count : Nat) : Bool :=
  match scope with
  | 2 => decide (first + count ≤ 512)
  | 1 | 4 => decide (first + count ≤ 9)
  | 6 => decide (first < 512) && count == 1
  | 0 | 3 | 5 => first == 0 && count == 0
  | _ => false

/-- Whether CAL IN has shown a pulse in the last 2 s. -/
def State.calInActive (s : State) : Bool :=
  match (s.evtInput 8).last with | some c => decide (s.clock < c + 2000000000) | none => false

/-- Whether a link calibration can start (R118). -/
def State.linkCalReady (s : State) (p : Nat) : Bool :=
  s.rd P.LNK_ROLE p == 1 && s.rd P.LNK_STATE p == 3 && s.rd P.REF_TSTATE == 2 &&
    ((s.linkRefs p).any fun r => r == s.rd P.REF_ACTIVE)

/-- A run begins: what it covers leaves the automatic queue (R217), and lanes that are not UP are skipped. -/
def State.runStart (s : State) (o : Origin) (scope : Nat) (items : List CalItem) : State :=
  let out := items.filter fun i => i.kind == 0 && decide (s.laneState i.index < 5)
  let todo := items.filter fun i => !out.contains i
  let t := s.wakeCancel fun r => r.kind == .cal && items.contains (calItemOf r.num)
  (t.setCal fun c => { c with
    run := some ⟨o, scope, todo, 0, out.length, 0, 0, []⟩,
    triggered := c.triggered.filter fun i => !items.contains i, waiting := c.waiting.filter fun i => !items.contains i }).accept o

/-- CAL_RUN (R216). -/
def calRun (o : Origin) (b : List Byte) (s : State) : State :=
  let scope := beAt 0 1 b
  let first := beAt 2 2 b
  let count := beAt 4 2 b
  if ¬ scopeLegal scope first count then s.finish o Status.BAD_VALUE []
  else if s.cal.run.isSome then s.finish o Status.IN_PROGRESS []
  else if s.frozenMaster 5 then s.finish o Status.ABORTED []
  else if ¬ s.calUp then s.finish o Status.NOT_READY []
  else if scope = 5 ∧ (¬ s.calInActive ∨ s.rd P.CAL_REF_U = 0xFFFFFFFF) then s.finish o Status.NOT_READY []
  else if scope = 6 then
    if s.linkCalReady first then
      let n := s.rd P.LNK_ACAL_N
      let run := (Config.runNumber s.fresh).toNat
      let t := { s with fresh := s.fresh + 1, linkRun := some ⟨first, run, n, [], [], 0, 0⟩ }
      (t.nhpSend first 0x13 (t.tcalBody run 0 n 0 (zeros 12))).runStart o scope []
    else s.finish o Status.NOT_READY []
  else s.runStart o scope (scopeItems scope first count)

/-- The mean of a list of integers, rounded to the nearest. -/
def meanOf (xs : List Int) : Int := roundDiv (xs.foldl (· + ·) 0) (max 1 xs.length)

/-- ⌈3 × σ / √N⌉ of samples in ps, σ their sample standard deviation. -/
def spreadOf (xs : List Int) : Nat :=
  let n := xs.length
  let sum := xs.foldl (· + ·) 0
  let sq := xs.foldl (fun a x => a + x.natAbs * x.natAbs) 0
  if n < 2 then 0 else rootUp (ceilDiv (9 * (n * sq - sum.natAbs * sum.natAbs)) (n * n * (n - 1)))

/-- The pulses of a link calibration paired by their seconds value, as differences in ps (R118, R120). -/
def pulsePairs (own theirs : List Int) : List Int :=
  own.filterMap fun a =>
    (theirs.find? fun b => (a + 32768000000000) / 65536000000000 == (b + 32768000000000) / 65536000000000).map fun b => unitsPs (a - b)

/-- The payload of DONE (R216). -/
def State.runReply (s : State) (r : CalRun) : List Byte :=
  toBe 1 r.scope ++ [0] ++ toBe 2 r.measured ++ toBe 2 r.skipped ++ toBe 2 r.failed ++ toBe 4 (clampU 32 r.worst) ++ zeros 4 ++
    toBe 8 s.now

/-- A run ends DONE. -/
def State.runDone (s : State) (r : CalRun) : State :=
  ((s.setCal fun c => { c with run := none }).finish r.origin Status.DONE (s.runReply r)).calStart

/-- A run ends ABORTED while its scratchpad master is frozen (R395). -/
def State.runAborted (s : State) : State :=
  match s.cal.run with
  | none => s
  | some r => (({ s.setCal fun c => { c with run := none } with linkRun := none }).finish r.origin Status.ABORTED []).calStart

/-- CAL_RUN_DONE (R216, R212, R120): every item of the run has ended; `freq` is the fractional frequency of the 10 MHz in ppt, 0 with
none. -/
def execCalRunDone (freq : Int) (s : State) : Host.Outcome State Fault Refusal :=
  match s.cal.run with
  | none => .next s
  | some r =>
    match r.scope with
    | 5 =>
      if r.samples.length < s.rd P.CAL_TRACE_N then .next s
      else
        let off := meanOf r.samples
        let u := clampU 32 (s.rd P.CAL_REF_U + s.rd P.EVT_RES 8 + spreadOf r.samples)
        let f := if s.rd P.CAL_FREQ_SRC = 0 then 0 else freq
        let t := ((s.wrS 64 P.CAL_TRACE_OFFSET 0 off).wr P.CAL_TRACE_U 0 u).wrS 32 P.CAL_TRACE_FREQ 0 f
        let t := t.wr P.CAL_TRACE_TIME 0 s.now
        let t := t.setCal fun c => { c with
          store := c.store ++ [⟨off, f, u, s.now, s.rd P.REF_TSTATE, s.rd P.REF_ACTIVE, s.rd P.TBS_BOUND_PS⟩] }
        .next (t.runDone { r with measured := 1, worst := u })
    | 6 =>
      match s.linkRun with
      | none => .next s
      | some l =>
        let pairs := (pulsePairs l.own l.theirs).take l.count
        if pairs.length < l.count then .next s
        else
          let theta := meanOf pairs - (s.rdS 32 P.LNK_ACAL_PATH - l.path)
          let res := clampU 16 (s.rd P.LNK_ACAL_PATH_U + l.pathU + spreadOf pairs)
          let a := s.rdS 32 P.LNK_ASYM l.port - 2 * theta
          let t := (s.wrShadow P.LNK_ASYM l.port (raw 32 (clampS 32 a))).wrShadow P.LNK_ASYM_RES l.port res
          let t := t.nhpSend l.port 0x13 (t.tcalBody l.seq 2 l.count 0 (zeros 12))
          let t := t.setLink l.port fun x => { x with calibrated := true }
          .next (({ t with linkRun := none }).runDone { r with measured := 1, worst := res })
    | _ => if r.todo = [] then .next (s.runDone r) else .next s

/-- CAL_ITEM_END (R14, R211, R214, R217): an item of a run, an automatic item or a start-up block ends. -/
def execCalItemEnd (kind : Fin 5) (index : Fin 512) (m : CalMeasure) (s : State) : Host.Outcome State Fault Refusal :=
  let i : CalItem := ⟨kind.val, index.val⟩
  let inRun := match s.cal.run with | some r => r.todo.contains i | none => false
  let first := s.cal.startup.contains i
  if ¬ (s.cal.doing.contains i || inRun || first) ∨ m.moved ∨ ¬ s.calUp then .next s
  else
    let t := if m.ok then s.applyItem i m else s.orIn P.CAL_FLAGS 0 8
    let worst := (t.residual (if kind.val = 3 then ⟨1, index.val⟩ else i)).getD 0
    let t := t.runCount i fun r =>
      if m.ok then { r with measured := r.measured + 1, worst := max r.worst worst } else { r with failed := r.failed + 1 }
    let t := t.setCal fun c => { c with
      doing := c.doing.erase i, startup := c.startup.erase i, triggered := if inRun then c.triggered.filter (· != i) else c.triggered }
    .next ((t.startupTest first).calStart)

/-- CAL_AUTO_TRIGGER (R213, R215): any sensor of a block has moved by more than CAL_TEMP_DELTA from T_cal; `temp` is the temperature in
0.1 °C at its own sensor, a lane's at its engine. -/
def execCalAutoTrigger (kind : Fin 5) (index : Fin 512) (temp : Int) (s : State) : Host.Outcome State Fault Refusal :=
  let i : CalItem := ⟨kind.val, index.val⟩
  if (getItem i s.cal.tcal).isNone then .next s
  else
    let t := s.setCal fun c => { c with temp := putItem i temp c.temp }
    let busy := s.cal.triggered.contains i || s.cal.waiting.contains i || s.cal.doing.contains i
    if s.rdb P.CAL_AUTO_ENABLE ∧ s.rd P.CAL_TEMP_DELTA < t.calMove i ∧ ¬ busy ∧ (kind.val ≠ 0 ∨ 5 ≤ s.laneState index.val) then
      .next ((t.setCal fun c => { c with triggered := c.triggered ++ [i] }).calStart)
    else .next t

/-- PORT_RES_UPDATE (R209): every 1 ms the residuals are recomputed, at the present temperatures of the named lanes' sensors and of the
timing die, in 0.1 °C. -/
def execPortResUpdate (temps : List (Fin 512 × Int)) (s : State) : Host.Outcome State Fault Refusal :=
  let t := temps.foldl (fun u x => u.setCal fun c => { c with temp := putItem ⟨0, x.1.val⟩ x.2 c.temp }) s
  let die := s.rdS 16 P.HLT_DIE_TEMP 3
  let mine := (t.cal.base.filter fun x => x.1.kind != 0).map fun x => x.1
  let t := mine.foldl (fun u i => u.setCal fun c => { c with temp := putItem i die c.temp }) t
  .next (((t.cal.base.map fun x => x.1).foldl State.showResidual t).calStart)

end Sys2Proof.Machine
end

