-- ==== Sys2Proof/Machine/Gnss.lean ====
section
/-! DEFINITION. The GNSS receiver (R170 to R193): antenna, channels, survey, the pulse of each second, and snapshots. -/

namespace Sys2Proof.Machine

/-- The receiver changed. -/
def State.setGnss (s : State) (f : Gnss → Gnss) : State := { s with gnss := f s.gnss }

/-- Whether block GNS runs: enabled, with PD3 up (R194, R427). -/
def State.gnssOn (s : State) : Bool := s.rdb P.GNS_ENABLE && s.rd P.PWR_DOMAIN_STATE 3 == 3

/-- Whether the receiver is in duty operation (R193). -/
def State.gnssDuty (s : State) : Bool := s.rd P.PWR_SHUTTER_STATE != 0 && s.rdb P.GNS_SHUTTER_DUTY

/-- GNS_SATS_TRACKED brought up to date: no channel tracks in duty operation. -/
def State.gnssCount (s : State) : State := s.wr P.GNS_SATS_TRACKED 0 (if s.gnssDuty then 0 else s.gnss.channels.length)

/-! ## Antenna (R173) -/

/-- Whether the antenna bias is on. -/
def State.biasOn (s : State) : Bool := s.rd P.GNS_ANT_BIAS != 0 && !s.gnss.biasOff

/-- ANT_BIAS_MEASURE (R173): the bias current, in mA. -/
def execAntBiasMeasure (ma : BitVec 16) (s : State) : Host.Outcome State Fault Refusal :=
  if ¬ s.gnssOn then .next s
  else if 100 < ma.toNat then
    .next ((((s.wr P.GNS_ANT_STATUS 0 3).orIn P.GNS_FLAGS 0 2).setGnss fun g => { g with biasOff := true }).sticky 3 ma.toNat)
  else .next (s.wr P.GNS_ANT_STATUS 0 (if s.biasOn then (if ma.toNat < 2 then 2 else 1) else 0))

/-! ## Acquisition and channels (R175, R176) -/

/-- The target that the fixed sweep of all satellite numbers searches after another (R175): the next signal of the satellite, and then the
next satellite, among the signals of R170. -/
def State.nextSearch (s : State) (x : Nat × Nat) : Nat × Nat :=
  match (List.range 5).find? fun g => decide (x.1 < g) && bit g (s.rd P.GNS_SIGNALS) with
  | some g => (g, x.2)
  | none => (((List.range 5).find? fun g => bit g (s.rd P.GNS_SIGNALS)).getD 0, x.2 % 255 + 1)

/-- ACQ_CELL_FOUND (R175, R176): the bank, which searches one signal of one satellite at a time, has come to this one, and a cell of it, by
its bin of 500 Hz and its half chip, has its power in dB above the noise floor on two dwells one after the other. The satellite receives a
channel; with 64 in use, in place of the lowest one below it. The search goes on with the next target. -/
def execAcqCellFound (signal : Fin 5) (sat : BitVec 8) (elev : Fin 91) (cell : AcqCell) (first second : Nat) (s : State) :
    Host.Outcome State Fault Refusal :=
  let c : GnssChannel := ⟨signal.val, sat.toNat, elev.val, cell.bin, cell.chip, false⟩
  let found := decide (s.rd P.GNS_ACQ_THRESH < first ∧ s.rd P.GNS_ACQ_THRESH < second ∧ 500 * cell.bin.natAbs ≤ s.rd P.GNS_ACQ_DOPPLER) &&
    bit signal.val (s.rd P.GNS_SIGNALS)
  let held := s.gnss.channels.any fun x => x.signal == c.signal && x.sat == c.sat
  if ¬ s.gnssOn ∨ s.gnssDuty ∨ ¬ found then .next s
  else
    let t := s.setGnss fun g => { g with search := s.nextSearch (c.signal, c.sat) }
    if held ∨ elev.val ≤ s.rd P.GNS_ELEV_MASK then .next t
    else if s.gnss.channels.length < 64 then .next (t.setGnss fun g => { g with channels := g.channels ++ [c] }).gnssCount
    else
      let low := s.gnss.channels.foldl (fun (a : GnssChannel) x => if x.elev < a.elev then x else a) c
      .next (if low = c then t else t.setGnss fun g => { g with channels := g.channels.erase low ++ [c] }).gnssCount

/-- The code loops of a second (R176): one whose prompt C/N0 has exceeded 35 dB-Hz for the second uses the narrow pair. -/
def State.codeLoops (s : State) (cn0 : List (Fin 5 × BitVec 8 × BitVec 6)) : State :=
  let strong (c : GnssChannel) : Bool :=
    cn0.any fun x => x.1.val == c.signal && x.2.1.toNat == c.sat && decide (35 < x.2.2.toNat)
  s.setGnss fun g => { g with channels := g.channels.map fun c => if strong c then { c with narrow := true } else c }

/-- CHANNEL_RELEASE (R176): `cn0` is the highest C/N0 of the last 5 s. -/
def execChannelRelease (signal : Fin 5) (sat : BitVec 8) (cn0 : BitVec 6) (s : State) : Host.Outcome State Fault Refusal :=
  if ¬ s.gnssOn ∨ s.gnssDuty ∨ s.rd P.GNS_CN0_MIN ≤ cn0.toNat then .next s
  else .next (s.setGnss fun g => { g with
    channels := g.channels.filter fun x => !(x.signal == signal.val && x.sat == sat.toNat) }).gnssCount

/-! ## Survey (R178 to R182) -/

/-- A new survey, or the FIXED mode, takes effect (R181): GNS_SURVEY_DONE is 0. -/
def State.surveyBegin (s : State) : State :=
  let m := s.rd P.GNS_POS_MODE
  ((s.setGnss fun g => { g with
    renew := false, mode := m, sumX := 0, sumY := 0, sumZ := 0, squares := 0, missed := 0, back := [] }).wr
      P.GNS_SURVEY_STATE 0 (if m = 1 then 3 else 0)).wr P.GNS_SURVEY_DONE 0 0

/-- A position added to the running mean. -/
def Gnss.addPosition (g : Gnss) (p : Int × Int × Int) : Gnss :=
  { g with
    sumX := g.sumX + p.1, sumY := g.sumY + p.2.1, sumZ := g.sumZ + p.2.2,
    squares := g.squares + p.1.natAbs ^ 2 + p.2.1.natAbs ^ 2 + p.2.2.natAbs ^ 2 }

/-- One second of the survey counted (R179); at GNS_SURVEY_TIME the mean and its standard error are written. -/
def State.surveyAdd (s : State) (p : Int × Int × Int) : State :=
  let n := s.rd P.GNS_SURVEY_DONE + 1
  let t := (s.setGnss fun g => g.addPosition p).wr P.GNS_SURVEY_DONE 0 n
  if n < s.rd P.GNS_SURVEY_TIME then t
  else
    let g := t.gnss
    let sq := g.sumX.natAbs ^ 2 + g.sumY.natAbs ^ 2 + g.sumZ.natAbs ^ 2
    let se := rootUp (ceilDiv (n * g.squares - sq) (n * n * (n - 1)))
    let t := ((t.wrS 64 P.GNS_SURV_X 0 (roundDiv g.sumX n)).wrS 64 P.GNS_SURV_Y 0 (roundDiv g.sumY n)).wrS 64 P.GNS_SURV_Z 0
      (roundDiv g.sumZ n)
    (t.wr P.GNS_SURV_SIGMA 0 (clampU 32 se)).wr P.GNS_SURVEY_STATE 0 2

/-- Whether the mean of the positions after a pause lies within GNS_SURVEY_TOL of the running mean, of `n` positions (R182). -/
def State.surveyNear (s : State) (n : Nat) (b : List (Int × Int × Int)) : Bool :=
  let k := b.length
  let d (sum : Int) (f : Int × Int × Int → Int) : Nat := ((n : Int) * (b.map f).foldl (· + ·) 0 - (k : Int) * sum).natAbs
  decide (d s.gnss.sumX (fun p => p.1) ^ 2 + d s.gnss.sumY (fun p => p.2.1) ^ 2 + d s.gnss.sumZ (fun p => p.2.2) ^ 2 ≤
    (s.rd P.GNS_SURVEY_TOL * n * k) ^ 2)

/-- The survey's second (R179, R182). -/
def State.surveySecond (s : State) (position : Option (Int × Int × Int)) : State :=
  match s.rd P.GNS_SURVEY_STATE, position with
  | 0, some p => s.surveyAdd p
  | 0, none => (s.wr P.GNS_SURVEY_STATE 0 1).setGnss fun g => { g with missed := 1, back := [] }
  | 1, none => s.setGnss fun g => { g with missed := g.missed + 1 + g.back.length, back := [] }
  | 1, some p =>
    let b := s.gnss.back ++ [p]
    if b.length < 10 then s.setGnss fun g => { g with back := b }
    else
      let t := (s.setGnss fun g => { g with missed := 0, back := [] }).wr P.GNS_SURVEY_STATE 0 0
      if s.gnss.missed ≤ s.rd P.GNS_SURVEY_RESUME ∧ s.surveyNear (s.rd P.GNS_SURVEY_DONE) b then b.foldl State.surveyAdd t
      else b.foldl State.surveyAdd (((t.surveyBegin).count P.GNS_SURVEY_RESTARTS).orIn P.GNS_FLAGS 0 4)
  | _, _ => s

/-! ## The pulse (R184 to R188) -/

/-- A pause of the survey of `k` seconds in which no pulse was sent, as in duty operation (R182, R193). -/
def State.surveyGap (s : State) (k : Nat) : State :=
  if k = 0 then s
  else if s.rd P.GNS_SURVEY_STATE = 0 then (s.wr P.GNS_SURVEY_STATE 0 1).setGnss fun g => { g with missed := k, back := [] }
  else s.setGnss fun g => { g with missed := g.missed + k + g.back.length, back := [] }

/-- The whole seconds without a pulse since the last one. -/
def State.pulseGap (s : State) : Nat :=
  match s.gnss.pulseAt with
  | some t0 => (s.clock - t0 + 500000000) / 1000000000 - 1
  | none => 0

/-- The constellations of a solution, and its signals among those of R170. -/
def systemsOf (x : GnssSolution) : Nat := (x.used.map GnssSat.system).eraseDups.length
def signalsOf (x : GnssSolution) : Nat := x.used.foldl (fun a y => a ||| y.signals.toNat) 0

/-- The satellites that a solution needs (R178): 4 to navigate and 1 for the time alone, and 1 for each constellation beyond the first. -/
def satsNeeded (x : GnssSolution) (navigating : Bool) : Nat := (if navigating then 4 else 1) + (systemsOf x - 1)

/-- The satellite of a solution with the largest residual. -/
def worstSat (x : GnssSolution) : Option GnssSat :=
  x.used.foldl (fun (a : Option GnssSat) y => match a with
    | some z => if z.residual.natAbs < y.residual.natAbs then some y else a
    | none => some y) none

/-- The satellite that the residual check excludes from a time-only solution, if any (R178). -/
def excludedSat (x : GnssSolution) : Option GnssSat :=
  match worstSat x with
  | some y => if satsNeeded x false < x.used.length ∧ 5 * x.sigma.toNat < y.residual.natAbs then some y else none
  | none => none

/-- Whether a solution is that of another's satellites without one of them. -/
def solvedWithout (z x : GnssSolution) (out : GnssSat) : Bool :=
  z.used.map (fun y => (y.sat, y.system)) == (x.used.erase out).map fun y => (y.sat, y.system)

/-- The residual check of the time-only solution, repeated on the set that remains (R178). The answer is the last solution made, whether it
stands, and whether a satellite was excluded. -/
def residualCheck (x : GnssSolution) (excluded : Bool) : List GnssSolution → GnssSolution × Bool × Bool
  | [] => (x, (excludedSat x).isNone, excluded || (excludedSat x).isSome)
  | z :: rest =>
    match excludedSat x with
    | some y => if solvedWithout z x y then residualCheck z true rest else (x, false, true)
    | none => (x, true, excluded)

/-- Whether the satellites suffice for the solution in use (R178). -/
def State.fixEnough (s : State) (x : GnssSolution) (navigating : Bool) : Bool :=
  decide (satsNeeded x navigating ≤ x.used.length ∧ s.rd P.GNS_MIN_SATS ≤ x.used.length ∧ 1 ≤ systemsOf x) &&
    (!navigating || x.position.isSome)

/-- The 32 bytes of GNS_LAST_PULSE written (R188). -/
def State.lastPulse (s : State) (r : List Byte) : State :=
  (List.range 4).foldl (fun t i => t.wr P.GNS_LAST_PULSE i (beAt (8 * i) 8 r)) s

/-- A record sent to the ring that GNS_RING names (R188). -/
def State.gnssRecord (s : State) (type : Nat) (r : List Byte) : State :=
  if s.rd P.GNS_RING < 16 then (s.evtRing (s.rd P.GNS_RING) type r).1 else s

/-- The UTC offset and leap announcement of a valid pulse taken while the source is GNSS (R58, R187). -/
def State.gnssUtc (s : State) (x : GnssFix) : State :=
  match x.utc with
  | some (off, leap) =>
    if s.rd P.TBS_UTC_SOURCE = 0 then
      ((s.wrBoth P.TBS_UTC_OFFSET 0 off.toNat).wr P.TBS_UTC_VALID 0 1).announceLeap leap.val
    else s
  | none => s

/-- GNS_PULSE (R184 to R188): the second's record, and, where it is valid, the second's reading of reference 0. `freq` is the
frequency reading in units of REF_FREQ, `osc` module time minus the monitor oscillator in ps. -/
def execGnsPulse (x : GnssFix) (freq osc : Int) (s : State) : Host.Outcome State Fault Refusal :=
  if ¬ s.gnssOn ∨ s.gnssDuty then .next s
  else
    let s := (if s.gnss.renew then s.surveyBegin else s).codeLoops x.cn0
    let surveying := s.gnss.mode == 0 && s.rd P.GNS_SURVEY_STATE != 2
    let fix : GnssSolution × Bool × Bool := if surveying then (x.first, true, false) else residualCheck x.first false x.more
    let y := fix.1
    let enough := fix.2.1 && s.fixEnough y surveying
    let t := if surveying then (s.surveyGap s.pulseGap).surveySecond (if enough then y.position else none) else s
    let t := t.setGnss fun g => { g with pulseAt := some s.clock }
    let sec := x.second.toNat + 19
    let at_ := y.at_ - s.rdS 32 P.GNS_ANT_DELAY - s.rdS 32 P.GNS_TIME_CORR
    let tick : Int := -((1000 - at_) / 2000) * 2
    let q := at_ - 1000 * tick
    let short := s.rd P.GNS_ANT_STATUS == 3
    let spoof := bit 0 (s.rd P.GNS_FLAGS)
    let valid := enough && decide (y.sigma.toNat ≤ s.rd P.GNS_SIGMA_MAX) && !short && (!spoof || s.rd P.GNS_SPOOF_ACTION == 0)
    let flags := b2n valid + 2 * b2n surveying + 4 * b2n (s.gnss.mode == 1) + 8 * b2n fix.2.2 + 16 * b2n short + 32 * b2n spoof +
      64 * b2n x.utc.isSome
    let r := toBe 6 sec ++ toBe 2 flags ++ toBe 8 (raw 64 tick) ++ toBe 4 (raw 32 q) ++ toBe 4 y.sigma.toNat ++ toBe 1 y.used.length ++
      toBe 1 (signalsOf y &&& s.rd P.GNS_SIGNALS) ++
      (match x.utc with | some (off, leap) => toBe 2 off.toNat ++ toBe 1 leap.val | none => zeros 3) ++ zeros 3
    let t := (t.lastPulse r).gnssRecord 1 r
    if valid then
      let t := (t.gnssUtc x).wr P.REF_BREF 0
        (clampU 32 (ceilDiv (s.rd P.TBS_GNSS_K * y.sigma.toNat) 16 + s.rd P.GNS_ANT_U))
      .next ((t.setMon 0 fun m => { m with pps := true }).monitorReading 0 freq ((sec : Int) * 1000000000000 - at_) osc)
    else .next t

/-- NAV_WORD (R188, R189): a word or page decoded, with the module time of its last bit. -/
def execNavWord (message : Fin 5) (sat : BitVec 8) (checkOk l5 : Bool) (bits : BitVec 8) (time : BitVec 64) (data : List Byte)
    (s : State) : Host.Outcome State Fault Refusal :=
  if ¬ s.gnssOn ∨ s.gnssDuty then .next s
  else .next (s.gnssRecord 2 (toBe 1 message.val ++ toBe 1 sat.toNat ++ toBe 1 (b2n checkOk + 2 * b2n l5) ++ toBe 1 bits.toNat ++
    toBe 8 time.toNat ++ zeros 4 ++ data.take 80))

/-! ## Snapshots (R190 to R193) -/

/-- GNSS_SNAPSHOT (R190, R191, R395). -/
def gnsSnapshot (o : Origin) (b : List Byte) (s : State) : State :=
  let ms := beAt 0 2 b
  let bands := beAt 2 1 b
  let action := beAt 3 1 b
  if ms < 2 ∨ 128 < ms ∨ bands = 0 ∨ 3 < bands ∨ 2 < action then s.finish o Status.BAD_VALUE []
  else if ¬ s.gnssOn then s.finish o Status.NOT_READY []
  else if s.gnss.capture.isSome then s.finish o Status.IN_PROGRESS []
  else if s.frozenMaster 13 then s.finish o Status.ABORTED []
  else (s.setGnss fun g => { g with capture := some ⟨o, ms, bands, action, beAt 4 8 b, s.now⟩ }).accept o

/-- A snapshot in progress ends ABORTED (R395). -/
def State.snapshotAborted (s : State) : State :=
  match s.gnss.capture with
  | some c => (s.setGnss fun g => { g with capture := none }).finish c.origin Status.ABORTED []
  | none => s

/-- The offset of a processed snapshot written (R191, R192). -/
def State.snapOffset (s : State) (offset : Option Int) : State :=
  match offset with
  | some d =>
    let t := s.wrS 64 P.GNS_SNAP_OFFSET 0 d
    if s.rd P.GNS_SPOOF_TOL < d.natAbs then t.orIn P.GNS_FLAGS 0 1 else t
  | none => s.wr P.GNS_SNAP_OFFSET 0 (2 ^ 63)

/-- SNAPSHOT_CAPTURE_DONE (R190, R191): the samples of each band, and what processing found. -/
def execSnapshotCaptureDone (l1 l5 : List Byte) (offset : Option Int) (sats : Fin 65) (s : State) :
    Host.Outcome State Fault Refusal :=
  match s.gnss.capture with
  | none => .next s
  | some c =>
    let n := 64000 * c.ms
    let a := if bit 0 c.bands then fit n l1 else []
    let b := if bit 1 c.bands then fit n l5 else []
    let t := s.setGnss fun g => { g with capture := none }
    if s.frozenMaster 13 ∨ (c.action ≠ 1 ∧ (s.frozenMaster 3 ∨ ¬ s.linkUp)) then .next (t.finish c.origin Status.ABORTED [])
    else
      let t := (t.padWrite (8 * 0x200000) a).padWrite (12 * 0x200000) b
      let t := if c.action = 1 then t else t.emit (.hostWrite c.addr (a ++ b))
      let t := if c.action = 0 then t else t.snapOffset offset
      let shown := if c.action = 0 then 2 ^ 63 else t.rd P.GNS_SNAP_OFFSET
      .next (t.finish c.origin Status.DONE
        (toBe 8 c.start ++ toBe 4 n ++ toBe 8 shown ++ toBe 1 (if c.action = 0 then 0 else sats.val) ++ zeros 3))

/-- DUTY_SNAPSHOT (R193): the processed snapshot of duty operation, 20 ms of L1, goes through master 13 into the snapshot area as any
other. A survey that ran when duty operation began has been without a solution since then, and is paused (R182). -/
def execDutySnapshot (capture : DutyCapture) (s : State) : Host.Outcome State Fault Refusal :=
  if s.gnssOn ∧ s.gnssDuty ∧ ¬ s.frozenMaster 13 ∧ s.gnss.dutyAt + 1000000000 * s.rd P.GNS_DUTY_PERIOD ≤ s.clock then
    let t := if s.gnss.mode = 0 ∧ s.rd P.GNS_SURVEY_STATE = 0 then (s.wr P.GNS_SURVEY_STATE 0 1).setGnss fun g => { g with missed := 0, back := [] }
      else s
    .next (((t.padWrite (8 * 0x200000) (fit 1280000 capture.l1)).setGnss fun g => { g with dutyAt := s.clock }).snapOffset capture.offset).gnssCount
  else .next s

/-! ## The antenna bias, and the enable -/

/-- GNS_ANT_BIAS written (R173): a bias removed after a SHORT is set again. -/
def State.writeBias (s : State) (v : Nat) : State := (s.wr P.GNS_ANT_BIAS 0 v).setGnss fun g => { g with biasOff := false }

/-- The receiver starts with a new survey (R177, R180): PD3 is requested where it is off. -/
def State.gnssStart (s : State) : State := (s.setGnss fun g => { g with renew := true, pulseAt := none, search := s.nextSearch (5, 255) }).wakeDomain 3 none

/-- The receiver stops: tracking ends and PD3 goes off (R427). -/
def State.gnssStop (s : State) : State :=
  let t := s.snapshotAborted.setGnss fun g => { g with channels := [], renew := true, pulseAt := none }
  ((t.wakeCancel fun r => r.kind == .domain && r.num == 3).setDomain 3 0).gnssCount

end Sys2Proof.Machine
end

