-- ==== Sys2Proof/Machine/Host.lean ====
section
/-! DEFINITION. The host interface (R466 to R483): rings and doorbells, host frames in both directions, interrupts, and the ECP
mailbox. -/

namespace Sys2Proof.Machine

/-! ## Errors and rings (R467, R468, R482) -/

/-- A DMA or doorbell error counted. -/
def State.dmaError (s : State) : State := (s.count P.HST_DMA_ERR).orIn P.HST_FLAGS 0 2

/-- Ring `g` where it exists and has not stopped on an error. -/
def State.activeRing (s : State) (g : Nat) : Option Ring := if s.rd P.HST_RING_STATE g = 1 then s.ring g else none

/-- Packets that wait for reply ring `n` written while there is room; at most `k` of them (R480). -/
def State.mbxPump (s : State) (n : Nat) : Nat → State
  | 0 => s
  | k + 1 =>
    match s.cmd.mbx.find? fun w => w.1 == n with
    | some w =>
      if s.replyRoom n then
        let x := (s.setCmd fun c => { c with mbx := c.mbx.erase w }).takeWaiting w.2
        (if x.2 = [] then x.1 else x.1.writeReply n x.2).mbxPump n k
      else s
    | none => s

/-- Every packet that can be written into its reply ring. -/
def State.mbxRun (s : State) : State :=
  (List.range 4).foldl (fun t n => t.mbxPump n (t.cmd.mbx.filter fun w => w.1 == n).length) s

/-- Whether the host is the producer of ring `g` (R467). -/
def hostProduces (g : Nat) : Bool := decide (g < 128 ∨ (160 ≤ g ∧ g < 164))

/-- DOORBELL (R467, R468, R482): the host writes its index for ring `g`. -/
def State.doorbell (s : State) (g : Nat) (index : BitVec 32) : State :=
  if ¬ s.linkUp then s
  else
    match s.ring g with
    | none => s.dmaError
    | some r =>
      if s.rd P.HST_RING_STATE g ≠ 1 then s
      else
        let i := index.toNat
        let beyond := if hostProduces g then decide (r.size - inUse r.prod r.cons < inUse i r.prod)
          else decide (inUse r.prod r.cons < inUse i r.cons)
        if beyond then (s.wr P.HST_RING_STATE g 2).dmaError
        else if hostProduces g then s.setRing g fun r => { r with prod := i }
        else s.setRing g fun r => { r with cons := i }

/-- A ring made, with both indexes 0. -/
def State.makeRing (s : State) (r : Ring) : State :=
  ({ s with rings := dropBy Ring.g r.g s.rings ++ [r] }).wr P.HST_RING_STATE r.g 1

/-! ## Creating and destroying rings (R470, R471) -/

/-- The global number of a ring by kind and number, where there is one (R467, R470). -/
def ringNumber (kind n : Nat) : Option Nat :=
  match kind with
  | 0 => if n < 64 then some n else none
  | 1 => if n < 64 then some (64 + n) else none
  | 2 => if n < 16 then some (128 + n) else none
  | 3 => if n < 16 then some (144 + n) else none
  | _ => none

/-- Whether a number is a power of two between two limits. -/
def powerIn (lo hi n : Nat) : Bool := decide (lo ≤ n ∧ n ≤ hi) && n == 2 ^ Nat.log2 n

/-- Whether the fields of a QUEUE_CREATE are in range (R470). -/
def queueLegal (version : Nat) (b : List Byte) : Bool :=
  let kind := beAt 0 1 b
  let format := beAt 2 1 b
  let buf := beAt 16 2 b
  (ringNumber kind (beAt 1 1 b)).isSome &&
    (if kind ≤ 1 then format == 1 || (format == 2 && version != 1) else format == 0) &&
    (decide (beAt 3 1 b < 64) || beAt 3 1 b == 0xFF) && beAt 4 8 b % 4096 == 0 && powerIn 64 65536 (beAt 12 4 b) &&
    (if kind = 1 then decide (2048 ≤ buf ∧ buf ≤ 16384) && buf % 64 == 0 else buf == 0) &&
    ((kind == 0 && format == 1) || beAt 18 1 b == 0)

/-- QUEUE_CREATE (R470). -/
def queueCreate (o : Origin) (b : List Byte) (s : State) : State :=
  match ringNumber (beAt 0 1 b) (beAt 1 1 b) with
  | none => s.finish o Status.BAD_VALUE []
  | some g =>
    if s.rd P.HST_STATUS_ADDR = 0 ∨ ¬ queueLegal o.version b then s.finish o Status.BAD_VALUE []
    else if (s.ring g).isSome then s.finish o Status.NOT_READY []
    else
      (s.makeRing ⟨g, beAt 2 1 b, beAt 3 1 b, beAt 4 8 b, beAt 12 4 b, beAt 16 2 b, beAt 18 1 b, beAt 19 1 b, 0, 0, false⟩).finish
        o Status.OK []

/-- A ring stops and is gone (R471). -/
def State.dropRing (s : State) (g : Nat) : State :=
  let t := ({ s with rings := dropBy Ring.g g s.rings }).wr P.HST_RING_STATE g 0
  if g < 64 then { t with txSlots := t.txSlots.filter fun x => x.queue != g }
  else if g < 128 then t.flushRxQueue (g - 64)
  else if g < 144 then
    let back := (t.log.staged.filter fun x => x.1 == g).map fun x => x.2
    (t.setLog fun x => { x with staged := x.staged.filter fun y => y.1 != g, spill := back ++ x.spill }).spillCount
  else t

/-- QUEUE_DESTROY (R471). -/
def queueDestroy (o : Origin) (b : List Byte) (s : State) : State :=
  if 3 < beAt 0 1 b then s.finish o Status.BAD_VALUE []
  else
    match ringNumber (beAt 0 1 b) (beAt 1 1 b) with
    | none => s.finish o Status.NOT_FOUND []
    | some g => if (s.ring g).isSome then (s.dropRing g).finish o Status.OK [] else s.finish o Status.NOT_FOUND []

/-! ## Host frames to ports (R472 to R474) -/

/-- A transmit slot as it is read: the frame's length, where it goes, its insertion and class, and the request stamp. -/
structure TxDesc where
  len : Nat
  group : Bool
  dest : Nat
  mode : Nat
  profile : Nat
  cls : Nat
  request : Option (Nat × Nat)
  legal : Bool
  deriving DecidableEq, Repr

/-- A transmit slot of ring `r` read (R472, R473). -/
def Ring.txDesc (r : Ring) (b : List Byte) : TxDesc :=
  let len := beAt 8 2 b
  let dest := beAt 10 2 b
  let lenOk := decide (60 ≤ len ∧ len ≤ 9724)
  if r.format = 2 then
    let c := beAt 12 1 b
    let k := beAt 13 1 b
    ⟨len, bit 0 c, dest, field 2 1 c, field 5 3 c, k % 8, some (beAt 14 4 b, beAt 18 2 b),
      lenOk && decide (dest < if bit 0 c then 16384 else 512) && field 7 6 c == 0 && decide (k < 8)⟩
  else ⟨len, false, dest, field 1 0 r.v1, field 4 2 r.v1, field 7 5 r.v1, none, lenOk && decide (dest < 512)⟩

/-- The member ports of a transmit slot's destination, lowest first. -/
def State.txMembers (s : State) (d : TxDesc) : List Nat :=
  if d.group then s.members (mcGroup (s.rd P.LCK_MC_GROUP d.dest)).set else [d.dest]

/-- A slot of queue `q` taken, with its result where the frame is already finished. -/
def State.takeSlot (s : State) (q index : Nat) (result : Option Nat) : State :=
  { s with
    txSlots := s.txSlots ++ [⟨s.nextSlot, q, index, result.map fun c => (c, ⟨0, 0, 0, 0⟩)⟩], nextSlot := s.nextSlot + 1 }

/-- A host frame stored (R474): in the quay, or in shutter mode on the keel path (R437). -/
def State.storeHost (s : State) (f : Frame) : State :=
  let t := s.setFab fun y => { y with frames := y.frames ++ [f], nextFrame := y.nextFrame + 1 }
  if s.rd P.PWR_SHUTTER_STATE = 0 then t.allocate f f.size
  else
    let ms := (t.copiesFor f).2
    if ms = [] then (t.count P.LCK_NO_MEMBER).dropFrame f.id
    else ms.foldl (fun u m => u.linkCopy f m) t

/-- HOST_TX_FRAME (R474): the next slot of transmit queue `q` is read, and the frame where the slot allows it; `data` is none where the
read of the buffer fails. -/
def execHostTxFrame (q : Fin 64) (slot : List Byte) (data : Option (List Byte)) (s : State) : Host.Outcome State Fault Refusal :=
  match s.activeRing q.val with
  | none => .next s
  | some r =>
    let i := advance r.cons (s.txSlots.filter fun x => x.queue == q.val).length
    if ¬ s.linkUp ∨ s.frozenMaster 3 ∨ inUse r.prod i = 0 ∨ r.size < inUse r.prod i then .next s
    else
      let d := r.txDesc slot
      let ms := s.txMembers d
      let refuse (c : Nat) : State := (s.takeSlot q.val i (some c)).count P.HST_TX_REFUSED q.val
      if ¬ d.legal then .next (refuse 4)
      else if s.rd P.PWR_SHUTTER_STATE ≠ 0 ∧ ¬ ms.all keelPort then .next (refuse 5)
      else
        match data with
        | none => .next (refuse 6).dmaError
        | some bytes =>
          let whole := withFcs (fit d.len bytes)
          let f : Frame := ⟨s.fabric.nextFrame, 0, d.dest / 8 % 64, ⟨0, 0, 255, 0⟩, ms.headD 0, 0, whole.length, b2n d.group, d.mode,
            d.profile, d.dest, 0xFFFF, 0, d.cls, 0, false, whole, true, false, false, false, none, none, d.request,
            some (q.val, s.nextSlot), 0, false, 0⟩
          if s.rd P.PWR_SHUTTER_STATE = 0 ∧ ¬ s.canAllocate f then .next s
          else
            let u : State := s.takeSlot q.val i none
            let t : State := { u with fresh := s.fresh + 1 }.storeHost f
            let done (x : TxSlot) : TxSlot := { x with result := some ((Config.emptyStatus s.fresh).toNat, ⟨0, 0, 0, 0⟩) }
            .next (if ms = [] then { t with txSlots := updBy TxSlot.num s.nextSlot done t.txSlots } else t)

/-- The bytes a write-back puts into a slot, and where in the slot (R472, R473). -/
def Ring.writeBack (r : Ring) (status : Nat) (x : Stamp) : Nat × List Byte :=
  if r.format = 2 then
    (20, toBe 4 (x.ns % 2 ^ 32) ++ toBe 2 x.sub ++ toBe 1 x.code ++ toBe 1 x.flags ++ toBe 1 status ++ zeros 2 ++ [1])
  else (0, toBe 4 (x.ns % 2 ^ 32) ++ toBe 1 x.code ++ toBe 1 status ++ zeros 1 ++ [1])

/-- The bytes of a slot of ring `r`. -/
def Ring.slotBytes (r : Ring) : Nat := if r.format = 2 then 32 else 16

/-- HOST_TX_WRITEBACK (R468, R474): the oldest slot of a transmit queue whose frame is finished is written back, in descriptor order. -/
def execHostTxWriteback (q : Fin 64) (s : State) : Host.Outcome State Fault Refusal :=
  match s.activeRing q.val, s.txSlots.find? fun x => x.queue == q.val with
  | some r, some x =>
    match x.result with
    | none => .next s
    | some (status, st) =>
      if ¬ s.linkUp then .next s
      else
        let w := r.writeBack status st
        let t := { s with txSlots := s.txSlots.erase x }.emit (.hostWrite (r.slotAddr r.slotBytes x.index + w.1) w.2)
        .next ((t.setRing q.val fun r => { r with cons := advance r.cons 1 }).writeIndex q.val (advance r.cons 1))
  | _, _ => .next s

/-! ## Frames to the host (R475 to R477) -/

/-- The write-back of a receive slot (R477). -/
def Ring.rxBack (r : Ring) (f : Frame) (entry : Nat) : Nat × List Byte :=
  if r.format = 2 then
    (16, toBe 4 (f.stamp.ns % 2 ^ 32) ++ toBe 2 f.stamp.sub ++ toBe 1 f.stamp.code ++ toBe 1 f.stamp.flags ++ toBe 2 f.size ++
      toBe 2 f.port ++ toBe 2 f.sid ++ toBe 1 entry ++ toBe 1 (1 + 2 * f.cls))
  else
    (0, toBe 4 (f.stamp.ns % 2 ^ 32) ++ toBe 1 f.stamp.code ++ zeros 1 ++ toBe 2 f.size ++ toBe 2 f.port ++ zeros 5 ++ [1])

/-- Whether all of a frame has arrived where a copy of it waits. -/
def State.whole (s : State) (f : Frame) : Bool :=
  f.ended && (match s.bufferOf f.id with | some b => b.got == f.size | none => true)

/-- HOST_RX_DELIVER (R477): the oldest frame of receive queue `q` is written into the next posted buffer, whose slot is given. -/
def execHostRxDeliver (q : Fin 64) (slot : List Byte) (s : State) : Host.Outcome State Fault Refusal :=
  let g := 64 + q.val
  let next := s.quay.copies.find? fun c => match c.host with | some (x, _) => x == q.val | none => false
  match s.activeRing g, next with
  | some r, some c =>
    match s.frame c.frame, c.host with
    | some f, some (_, entry) =>
      if ¬ s.linkUp ∨ s.frozenMaster 4 ∨ r.prod = r.cons ∨ ¬ s.whole f then .next s
      else
        let w := r.rxBack f entry
        let t := (s.emit (.hostWrite (beAt 0 8 slot) f.data)).emit (.hostWrite (r.slotAddr r.slotBytes r.cons + w.1) w.2)
        let t := (t.setRing g fun r => { r with cons := advance r.cons 1 }).writeIndex g (advance r.cons 1)
        .next (t.releaseCopy c (agentCode 5 q.val))
    | _, _ => .next s
  | _, _ => .next s

/-! ## Interrupts and the link (R466, R469, R482) -/

/-- MSIX_INTERRUPT (R469): a vector is raised once its rings have moved and the moderation time has passed. -/
def execMsixInterrupt (v : Fin 64) (s : State) : Host.Outcome State Fault Refusal :=
  let due (r : Ring) : Bool := r.vector == v.val && r.moved &&
    (match s.raised.find? (fun (x : Nat × Nat) => x.1 == v.val) with
     | some x => decide (x.2 + 1000 * r.moderation ≤ s.clock)
     | none => true)
  if s.linkUp ∧ s.rings.any due then
    let quiet (r : Ring) : Ring := if r.vector = v.val then { r with moved := false } else r
    let others : List (Nat × Nat) := s.raised.filter (fun (x : Nat × Nat) => x.1 != v.val)
    let t : State := { s with rings := s.rings.map quiet, raised := others ++ [(v.val, s.clock)] }
    .next (t.emit (.msix v.val))
  else .next s

/-- The mailbox ring of an index of HST_MBX_BASE, made where a base is set (R480). -/
def State.makeMailbox (s : State) (k : Nat) : State :=
  let t := ({ s with rings := dropBy Ring.g (160 + k) s.rings }).wr P.HST_RING_STATE (160 + k) 0
  if s.rd P.HST_MBX_BASE k = 0 then t
  else t.makeRing ⟨160 + k, 0, 0xFF, s.rd P.HST_MBX_BASE k, s.rd P.HST_MBX_SIZE k, 0, 0, 0, 0, 0, false⟩

/-- Mailbox pair `n` started afresh by a commit (R480): both indexes 0, and the packets that wait are dropped. -/
def State.resetMailbox (s : State) (n : Nat) : State :=
  ((s.setCmd fun c => { c with
    mbx := c.mbx.filter fun w => w.1 != n, unread := c.unread.filter fun h => h.rq.chan != n }).makeMailbox n).makeMailbox (4 + n)

/-- PCIE_LINK_UP (R466): the link has trained; the mailbox rings exist again from their parameters. -/
def execPcieLinkUp (speed : Fin 6) (width : Fin 9) (mps : BitVec 10) (s : State) : Host.Outcome State Fault Refusal :=
  if s.linkUp ∨ speed.val = 0 ∨ ¬ [1, 2, 4, 8].contains width.val ∨ ¬ [128, 256, 512].contains mps.toNat then .next s
  else
    let t := ((s.wr P.HST_LINK_SPEED 0 speed.val).wr P.HST_LINK_WIDTH 0 width.val).wr P.HST_MPS 0 mps.toNat
    .next ((List.range 8).foldl State.makeMailbox t)

/-- What a loss of the link or a function-level reset does (R482). -/
def State.linkLost (s : State) : State :=
  let t := (s.rings.map Ring.g).foldl State.dropRing s
  let mine := (t.cmd.sessions.filter fun x => x.transport == .pcie).map Session.num
  let t := mine.foldl State.closeSession t
  let t := t.setCmd fun c => { c with mbx := [], unread := [] }
  ((t.wr P.HST_LINK_SPEED 0 0).wr P.HST_LINK_WIDTH 0 0).orIn P.HST_FLAGS 0 1

/-- PCIE_LINK_DOWN (R482). -/
def execPcieLinkDown (s : State) : Host.Outcome State Fault Refusal :=
  if s.linkUp then .next s.linkLost else .next s

end Sys2Proof.Machine
end

