-- ==== Sys2Proof/Machine/Operands.lean ====
section
/-! DEFINITION. The operand forms of the command channel: the entries of PARAM_READ and PARAM_WRITE (R45, R46), the payload of
PARAM_COMMIT (R48), and the payload lengths of the opcodes (R28, R51). -/

namespace Sys2Proof.Machine

/-- An entry of a PARAM_READ (R45). -/
structure ReadEntry where
  addr : Nat
  shadow : Bool
  first : Nat
  count : Nat
  deriving DecidableEq, Repr

/-- An entry of a PARAM_WRITE (R46). -/
structure WriteEntry where
  addr : Nat
  index : Nat
  value : Nat
  deriving DecidableEq, Repr

/-- The entry of a PARAM_READ in 8 bytes. -/
def readEntry (b : List Byte) : ReadEntry := ⟨beAt 0 3 b, bit 0 (beAt 3 1 b), beAt 4 2 b, beAt 6 2 b⟩

/-- The entry of a PARAM_WRITE in 16 bytes. -/
def writeEntry (b : List Byte) : WriteEntry := ⟨beAt 0 3 b, beAt 4 2 b, beAt 8 8 b⟩

/-- `n` records of `w` bytes. -/
def records (w : Nat) : Nat → List Byte → List (List Byte)
  | 0, _ => []
  | n + 1, b => b.take w :: records w n (b.drop w)

/-- The entries of a PARAM_READ and of a PARAM_WRITE. -/
def readEntries (b : List Byte) : List ReadEntry := (records 8 (b.length / 8) b).map readEntry
def writeEntries (b : List Byte) : List WriteEntry := (records 16 (b.length / 16) b).map writeEntry

/-- The 16 bytes of a PARAM_WRITE entry. -/
def WriteEntry.bytes (e : WriteEntry) : List Byte :=
  toBe 3 e.addr ++ [0] ++ toBe 2 e.index ++ zeros 2 ++ toBe 8 e.value

/-- The payload of a PARAM_COMMIT (R48). -/
structure CommitOp where
  block : Nat
  scheduled : Bool
  sec : Nat
  nano : Nat
  deriving DecidableEq, Repr

/-- A PARAM_COMMIT's 12 bytes. -/
def commitOp (b : List Byte) : CommitOp := ⟨beAt 0 1 b, bit 0 (beAt 1 1 b), beAt 2 6 b, beAt 8 4 b⟩

/-- The element that an address and an index name, with its parameter, before R507 is tested. -/
def elementOf (addr index : Nat) : Option (Param × Nat) := (paramAt addr).map fun p => (p, addr - p.base + index)

/-- The write privilege of a block: 1 OPERATE, 2 ADMIN (R34). -/
def writePrivilege (block : Nat) : Nat :=
  if [0x10, 0x11, 0x12, 0x13, 0x14, 0x25, 0x30, 0x31, 0x32, 0x70, 0x71].contains block then 1 else 2

/-- The privilege that a write of an address needs; none where no block holds the address (R34). -/
def writeNeeds (addr : Nat) : Option Nat :=
  if addr = P.SPD_TAMPER_SRC then some 3
  else if blockNumbers.contains (addr / 65536) then some (writePrivilege (addr / 65536))
  else none

end Sys2Proof.Machine
end

