-- ==== Sys2Proof/Machine/Scratchpad.lean ====
section
/-! DEFINITION. The scratchpad and the weir (R382 to R395), the shuttered partition, wipes, tamper sources and the life cycle (R396 to
R402). -/

namespace Sys2Proof.Machine

/-- The scratchpad changed. -/
def State.setPad (s : State) (f : Scratchpad → Scratchpad) : State := { s with pad := f s.pad }

/-! ## Wipes (R353, R396, R400, R401) -/

/-- Bursts of bank 31 end with an error response. -/
def State.refuseSecret (s : State) : State :=
  let gone := s.pad.bursts.filter fun b => bankOf (b.addr + 64 * b.moved) == 31
  gone.foldl (fun t b => t.emit (.weir b.master true []))
    (s.setPad fun p => { p with bursts := p.bursts.filter fun b => !gone.contains b })

/-- A wipe of bank 31 starts with a cause coded as SPD_WIPE_CAUSE (R400). -/
def State.wipeStart (s : State) (cause : Nat) (change : Option LifeChange) : State :=
  let t := (s.voidSeals.refuseSecret.wr P.SPD_WIPE_BUSY 0 1).setPad fun p => { p with wipe := some ⟨cause, none, change⟩ }
  if 1 ≤ cause ∧ cause ≤ 5 then t.sticky 15 (t.rd P.SPD_TAMPER_SRC) else t

/-- A wipe asked for with a cause: at once, or again at the end of the one that runs (R401). -/
def State.wipeAsk (s : State) (cause : Nat) : State :=
  match s.pad.wipe with
  | none => s.wipeStart cause none
  | some w => s.setPad fun p => { p with wipe := some { w with again := some cause } }

/-- A tamper source is detected (R401). -/
def State.tamper (s : State) (source : Nat) : State := (s.orIn P.SPD_TAMPER_SRC 0 (2 ^ source)).wipeAsk (source + 1)

/-- TAMPER_DETECT (R401): the source detected, if any, and the sources that are active now. -/
def execTamperDetect (source : Option (Fin 5)) (active : BitVec 5) (s : State) : Host.Outcome State Fault Refusal :=
  let t := s.setPad fun p => { p with active := active.toNat }
  match source with
  | some k => .next (t.tamper k.val)
  | none => .next t

/-- An entry added to the life-cycle record (R396). -/
def State.lifeAppend (s : State) (wipe : Bool) (value session transport : Nat) : State :=
  s.setPad fun p => { p with life := p.life ++ [⟨s.now, wipe, value, session, transport⟩] }

/-- The life-cycle state written to flash and its mirror (R397). -/
def State.setLife (s : State) (q : Nat) : State :=
  { s.wr P.SPD_LIFECYCLE 0 q with flash := { s.flash with lifecycle := q } }

/-- An accepted transition after its wipe (R397, R398): the new state is written, the key is generated on entry to DEPLOYED unless a
tamper source is recorded (R399), and the request is answered. -/
def State.lifeEnter (s : State) (c : LifeChange) : State :=
  let t := s.setLife c.target
  let t : State := if c.target = 1 then { t with flash := { t.flash with operatorKey := some c.key } } else t
  let t := t.lifeAppend false c.target c.origin.session (trCode c.origin.transport)
  if c.target = 2 ∧ t.rd P.SPD_TAMPER_SRC = 0 then t.keyStart (some c.origin) else t.finish c.origin Status.OK []

/-- WIPE_COMPLETE (R400). A key generation that the wipe ends leaves its request answered OK without a key. -/
def State.wipeDone (s : State) : State :=
  match s.pad.wipe with
  | none => s
  | some w =>
    let t := s.setPad fun p => { p with
      mem := p.mem.filter fun c => c.1 < 31 * 0x200000, life := [], wipe := none }
    let t := (t.logWipe.wr P.LOG_KEY_STATE 0 0).setCal fun c => { c with store := [] }
    let t := t.lifeAppend true w.cause 0 0
    let t := (((t.wr P.SPD_WIPE_BUSY 0 0).count P.SPD_WIPE_COUNT).wr P.SPD_WIPE_CAUSE 0 w.cause).wr P.SPD_WIPE_TIME 0 s.now
    let t := (t.orIn P.SPD_FLAGS 0 4).notice 12
      (toBe 1 w.cause ++ toBe 1 (t.rd P.SPD_LIFECYCLE) ++ zeros 2 ++ toBe 4 (t.rd P.SPD_TAMPER_SRC) ++ toBe 8 (t.rd P.SPD_WIPE_COUNT))
    let t := match t.log.keyFor with
      | some o => (t.setLog fun x => { x with keyFor := none }).finish o Status.OK []
      | none => t
    let t := match w.change with | some c => t.lifeEnter c | none => t
    match w.again with | some c => t.wipeStart c none | none => t

/-- Whether the table of R397 permits a transition. -/
def lifeAllows (q target : Nat) : Bool :=
  match q, target with
  | 0, 1 | 1, 2 | 2, 3 | 3, 2 | 1, 4 | 2, 4 | 3, 4 => true
  | _, _ => false

/-- LIFECYCLE_SET (R395, R397, R398). -/
def lifecycleSet (o : Origin) (b : List Byte) (s : State) : State :=
  let target := beAt 0 1 b
  if s.frozenMaster 11 then s.failInternal o
  else if 4 < target then s.finish o Status.BAD_VALUE []
  else if s.rd P.SPD_TAMPER_SRC ≠ 0 ∨ s.pad.wipe.isSome ∨ ¬ lifeAllows (s.rd P.SPD_LIFECYCLE) target then
    s.finish o Status.LIFECYCLE_DENIED []
  else if target = 1 ∧ beAt 4 32 b = 0 then s.finish o Status.BAD_VALUE []
  else s.wipeStart 0 (some ⟨o, target, slice 4 32 b⟩)

/-- SPD_TAMPER_SRC bits cleared (R401): a bit whose source is still active stays. -/
def State.tamperClear (s : State) (mask : Nat) : State :=
  (setBits 5 (mask - (mask &&& s.pad.active))).foldl (fun t i => t.wr P.SPD_TAMPER_SRC 0 (clrBit i (t.rd P.SPD_TAMPER_SRC))) s

/-! ## Violations and freezing (R393 to R395) -/

/-- What the units of a frozen master do at once (R395, R482). -/
def State.freezeEffect (s : State) (m : Nat) : State :=
  match m with
  | 14 => (s.voidSeals).holdRaise
  | 13 => s.snapshotAborted
  | 11 => s.voidSeals
  | 5 => s.runAborted
  | 3 => s.orIn P.HST_FLAGS 0 4
  | 2 => s.tunnelsAborted
  | _ => s

/-- A violation (R393): the master is frozen and its bursts end. A master that is frozen already keeps its record. -/
def State.violation (s : State) (m addr kind : Nat) : State :=
  if s.frozenMaster m then s
  else
    let t := (s.orIn P.SPD_VIOL 0 (2 ^ m)).orIn P.SPD_FROZEN 0 (2 ^ m)
    let t := ((t.wr P.SPD_VIOL_ADDR m addr).wr P.SPD_VIOL_TIME m s.now).wr P.SPD_VIOL_KIND m kind
    let t := t.setPad fun p => { p with bursts := p.bursts.filter fun b => b.master != m }
    (((t.orIn P.SPD_FLAGS 0 2).sticky 14 (m * 256 + kind)).freezeEffect m)

/-- MASTER_RELEASE (R36, R394). -/
def masterRelease (o : Origin) (b : List Byte) (s : State) : State :=
  let kind := beAt 0 1 b
  let n := beAt 2 2 b
  match kind with
  | 0 =>
    if 15 < n then s.finish o Status.BAD_VALUE []
    else if s.frozenMaster n then (s.wr P.SPD_FROZEN 0 (clrBit n (s.rd P.SPD_FROZEN))).finish o Status.OK []
    else s.finish o Status.NOT_FOUND []
  | 1 =>
    if n = 0 ∨ 16 < n then s.finish o Status.BAD_VALUE []
    else
      match s.session n with
      | some x =>
        if s.sessState n = 2 then
          ((s.wr P.CMD_SESSION_STATE (n - 1) 1).setSession x.uid fun y => { y with last := s.clock }).finish o Status.OK []
        else s.finish o Status.NOT_FOUND []
      | none => s.finish o Status.NOT_FOUND []
  | _ => s.finish o Status.BAD_VALUE []

/-! ## Requests (R384, R387, R393) -/

/-- The banks a burst reaches. -/
def burstBanks (addr beats : Nat) : List Nat :=
  ((List.range 33).filter fun b => decide (bankOf addr ≤ b ∧ b ≤ bankOf (addr + 64 * beats - 1)))

/-- Whether a master may read, or write, a bank; there is no bank above 31. -/
def bankAllows (m b : Nat) (write : Bool) : Bool :=
  decide (b < 32) && (if write then (padAccess m b).2 else (padAccess m b).1)

/-- SCRATCHPAD_REQUEST (R387, R393): a master requests a burst of `beats` + 1 beats at an address. -/
def execScratchpadRequest (master : Fin 16) (addr : BitVec 26) (write : Bool) (beats : Fin 64) (data : List Byte) (s : State) :
    Host.Outcome State Fault Refusal :=
  let m := master.val
  let a := addr.toNat / 64 * 64
  let n := beats.val + 1
  let bad := (burstBanks a n).filter fun b => !bankAllows m b write
  if m = 0 ∨ s.frozenMaster m then .next s
  else if bad ≠ [] then .next (s.violation m addr.toNat (if bad.contains 31 then 2 else b2n write))
  else if (burstBanks a n).contains 31 ∧ s.pad.wipe.isSome then .next (s.emit (.weir m true []))
  else .next (s.setPad fun p => { p with
    bursts := p.bursts ++ [⟨m, bankOf a, write, a, n, 0, if write then fit (64 * n) data else []⟩] })

/-! ## Arbitration (R386, R388 to R391) -/

/-- The burst of a master that asks for bank `b`. -/
def State.burstIn (s : State) (b m : Nat) : Option Burst :=
  s.pad.bursts.find? fun x => x.master == m && bankOf (x.addr + 64 * x.moved) == b

/-- The masters that request bank `b` and are not frozen. -/
def State.requesters (s : State) (b : Nat) : List Nat :=
  (List.range 16).filter fun m => (s.burstIn b m).isSome && !s.frozenMaster m

/-- The window of bank `b`. -/
def State.bankWindow (s : State) (b : Nat) : BankWindow := s.pad.windows.getD b ⟨0, 64, 48⟩

/-- The grants of a master in the present window of a bank. -/
def State.grantsIn (s : State) (b m : Nat) : Nat := look (b, m) 0 s.pad.grants

/-- Whether a master has a quota, and whether it is masked in a bank (R390). -/
def State.hasQuota (s : State) (m : Nat) : Bool := bit m (s.rd P.ARB_QUOTA_EN)
def State.masked (s : State) (b m : Nat) : Bool := s.hasQuota m && decide ((s.bankWindow b).quota ≤ s.grantsIn b m)

/-- The requester with the highest rank of those given (R388). -/
def State.topRank (s : State) (ms : List Nat) : Option Nat :=
  ms.foldl (fun a m => match a with
    | some x => if s.rd P.ARB_PRIO x < s.rd P.ARB_PRIO m then some m else some x
    | none => some m) none

/-- The wicket of a requester that did not win (R391). -/
def State.wicket (s : State) (b m : Nat) : Nat :=
  let above := (s.requesters b).filter fun x => decide (s.rd P.ARB_PRIO m < s.rd P.ARB_PRIO x)
  let w := s.bankWindow b
  let sum := (above.map fun x => w.quota - s.grantsIn b x).foldl (· + ·) 0
  if (above.all s.hasQuota) ∧ sum ≤ w.window - w.slots ∧ sum < 255 then sum else 255

/-- One beat of a burst moved (R385, R387). `faults` are the words that fail their check, with whether they can be corrected. -/
def State.moveBeat (s : State) (b : Nat) (x : Burst) (faults : List (Nat × Bool)) : State :=
  let a := x.addr + 64 * x.moved
  let mine := faults.filter fun f => decide (a ≤ f.1 ∧ f.1 < a + 64)
  let keep (p : Scratchpad) (y : Option Burst) : Scratchpad :=
    { p with bursts := p.bursts.filterMap fun z => if z = x then y else some z }
  if x.write then
    let t := s.padWrite a (slice (64 * x.moved) 64 x.data)
    if x.moved + 1 = x.beats then (t.setPad fun p => keep p none).emit (.weir x.master false [])
    else t.setPad fun p => keep p (some { x with moved := x.moved + 1 })
  else
    let t := s.count P.SPD_ECC_CORR b (mine.filter fun f => f.2).length
    match mine.find? fun f => !f.2 with
    | some f =>
      let t := (((t.count P.SPD_ECC_UNCORR b).wr P.SPD_ECC_ADDR 0 (f.1 % 2 ^ 26)).orIn P.SPD_FLAGS 0 1).sticky 13 (f.1 % 2 ^ 26)
      let t := (t.setPad fun p => keep p none).emit (.weir x.master true [])
      if b = 31 ∧ t.pad.wipe.isNone then t.wipeStart 6 none else t
    | none =>
      let data := x.data ++ s.padRead a 64
      if x.moved + 1 = x.beats then (t.setPad fun p => keep p none).emit (.weir x.master false data)
      else t.setPad fun p => keep p (some { x with moved := x.moved + 1, data := data })

/-- One grant slot of bank `b` (R386 to R391). -/
def State.grantSlot (s : State) (faults : List (Nat × Bool)) (b : Nat) : State :=
  let w := s.bankWindow b
  let s : State := if w.slots < w.window then s
    else s.setPad fun p => { p with
      windows := setAt b ⟨0, s.rd P.ARB_WINDOW, s.rd P.ARB_QUOTA⟩ p.windows, grants := p.grants.filter fun g => g.1.1 != b }
  let rs := s.requesters b
  let out := rs.filter (s.masked b)
  let win := s.topRank (rs.filter fun m => !s.masked b m)
  let wait := rs.filter fun m => some m != win
  let hints := wait.map fun m => ((b, m), s.wicket b m)
  let held := look b 0 s.pad.holder
  let t := out.foldl (fun u m => u.count P.ARB_QUOTA_MASKED m) s
  let t : State := match win with
    | some m =>
      let t := (wait.filter fun x => !out.contains x).foldl (fun u x => (u.count P.SPD_CONFLICT_M x).count P.SPD_CONFLICT_B b) t
      if held ≠ 0 ∧ held ≠ m + 1 ∧ wait.contains (held - 1) ∧ ¬ out.contains (held - 1) then t.count P.ARB_PREEMPT (held - 1) else t
    | none => t
  let t := t.setPad fun p => { p with
    windows := modAt b (fun y => { y with slots := y.slots + 1 }) p.windows,
    holder := store ltNat b 0 (match win with | some m => m + 1 | none => 0) p.holder,
    wickets := hints.foldl (fun m h => store ltPair h.1 0 h.2 m) (p.wickets.filter fun h => h.1.1 != b) }
  match win with
  | none => t
  | some m =>
    let t := (t.count P.ARB_GRANTS m).setPad fun p => { p with grants := store ltPair (b, m) 0 (s.grantsIn b m + 1) p.grants }
    match t.burstIn b m with
    | some x => t.moveBeat b x faults
    | none => t

/-- ARBITRATION_POINT (R388): the start of a grant slot of every bank. `faults` are the words whose ECC finds an error, with whether it
is a single-bit one. The banks are taken from the highest down, so that a burst that goes on in the next bank moves one beat a slot (R387). -/
def execArbitrationPoint (faults : List (BitVec 26 × Bool)) (s : State) : Host.Outcome State Fault Refusal :=
  .next ((List.range 32).reverse.foldl (fun t b => t.grantSlot (faults.map fun f => (f.1.toNat, f.2)) b) s)

end Sys2Proof.Machine
end

