-- ==== Sys2Proof/Machine/Params.lean ====
section
/-! DEFINITION. Reads and writes of parameters (R45, R46, R49, R506 to R520): what a read returns, the tests of every entry, and what
each write does beyond the value it stores. -/

namespace Sys2Proof.Machine

/-! ## Reads -/

/-- The port whose slot-table banks session `n` reaches (R329). -/
def State.selPort (s : State) (n : Nat) : Nat := s.rd P.LCK_SEL_PORT (n - 1)

/-- What the read of element `i` of a parameter returns to session `n`: the operational value, or what the parameter shows of the
state beside the registers. -/
def State.readView (s : State) (n b i : Nat) : Nat :=
  if b = P.SYS_UPTIME then (s.clock - s.released) / 1000000000 % 2 ^ 32
  else if b = P.TBS_EPOCH then s.epoch
  else if b = P.TBS_EPOCH_SEC then s.epochSec
  else if b = P.TBS_EPOCH_AGE then s.epochAge
  else if b = P.TBL_FENCE_PENDING then match s.oldestFence i with | some f => s.fenceFrames f | none => 0
  else if b = P.TBL_FENCE_AGE then match s.oldestFence i with | some f => clampU 32 ((s.clock - f.since) / 1000) | none => 0
  else if b = P.LCK_ADM_ENTRY then s.admEntry (s.selPort n) i
  else if b = P.LCK_OPR_ENTRY then s.oprEntry (s.selPort n) i
  else if b = P.LCK_FIBRE_USED then clampU 23 (s.fibreUsed i)
  else if b = P.LCK_PORT_FLAGS then b2n (s.fibreStale i)
  else if b = P.LNK_BEVT then s.bEvt i
  else if b = P.LNK_FLAGS then s.linkFlags i
  else if b = P.REF_PULL_REM then raw 64 s.phiRem
  else if b = P.REF_HOLDOFF_LEFT then
    if i < 7 ∧ s.qstate i = 1 then ceilDiv ((s.mon i).since + 100000000 * s.rd P.REF_HOLDOFF i - s.clock) 100000000 else 0
  else if b = P.REF_WTR_LEFT then
    match s.servo.wtr with | some (_, since) => ceilDiv (since + 1000000000 * s.rd P.REF_WTR - s.clock) 1000000000 | none => 0
  else if b = P.CAL_BUSY then b2n s.calBusy
  else if b = P.LOG_HOLD_TIME then s.holdSettle.rd P.LOG_HOLD_TIME
  else if b = P.HLT_FIRST_FAULT then beAt (8 * i) 8 s.faultRecord
  else if b = P.OPT_TEC_TEMP ∨ b = P.OPT_RX_POWER then (Config.telemetry b i s.clock).toNat
  else if b = P.OBS_CTR then match counterAt i with | some c => s.rd c.1 c.2 | none => 0
  else s.rd b i

/-- The refusal of a PARAM_READ entry, 0 for none (R45, R506, R507). Which of the three refusals a count of 0 gets is a free value
(assumption 19). -/
def readRefusal (e : ReadEntry) : Nat :=
  match elementOf e.addr e.first with
  | none => Status.BAD_ADDRESS
  | some (p, i) =>
    if e.count = 0 then [Status.BAD_INDEX, Status.BAD_VALUE, Status.BAD_LENGTH].getD Config.zeroCount.val Status.BAD_INDEX
    else if p.count < i + e.count then Status.BAD_INDEX
    else if e.shadow ∧ p.kind ≠ .commit then Status.NO_SHADOW
    else 0

/-- The values of a PARAM_READ entry, each in 8 bytes. -/
def State.readValues (s : State) (n : Nat) (e : ReadEntry) : List Byte :=
  match elementOf e.addr e.first with
  | none => []
  | some (p, i) =>
    ((List.range e.count).map fun k =>
      toBe 8 (if e.shadow then s.shadow p.base (i + k) else s.readView n p.base (i + k))).flatten

/-- PARAM_READ (R45): the values in entry order, or the refusal of the first entry that has one. -/
def paramRead (o : Origin) (b : List Byte) (s : State) : State :=
  let es := readEntries b
  match es.find? fun e => readRefusal e != 0 with
  | some e => s.finish o (readRefusal e) []
  | none => s.finish o Status.OK (es.map (s.readValues o.session)).flatten

/-! ## The tests of an entry (R519) -/

/-- Whether a block runs, for the HALT test (R12, R515). -/
def State.blockRuns (s : State) (block : Nat) : Bool :=
  match block with
  | 0x02 => s.rdb P.CMD_MGMT_ENABLE
  | 0x10 => decide (2 ≤ s.rd P.FAB_STATE)
  | 0x24 => s.rdb P.GNS_ENABLE
  | 0x50 => s.rdb P.HIE_ENABLE
  | _ => false

/-- The further single-entry tests of the chapters (R519 step 6), 0 for none. -/
def State.furtherTest (s : State) (b i v : Nat) : Nat :=
  let bad (c : Bool) : Nat := if c then Status.BAD_VALUE else 0
  if b = P.LCK_PORTSET then if 8 * 2047 ≤ i then Status.READ_ONLY else 0
  else if b = P.LCK_MC_GROUP then bad (!(decide (1 ≤ field 19 6 v ∧ field 19 6 v ≤ 10000)))
  else if b = P.LCK_GROUP then
    bad (!(decide (500 ≤ field 50 34 v ∧ field 50 34 v ≤ 100000 ∧ 1 ≤ field 33 20 v ∧ field 33 20 v ≤ 10000)))
  else if b = P.LCK_ADM_ENTRY then bad (decide (0 < field 29 0 v ∧ field 29 0 v < 8 ∨ 1000000000 < field 29 0 v))
  else if b = P.GNS_SIGNALS then bad (v == 0)
  else if b = P.LAN_SLICER then bad (s.rdb P.LAN_SLICER_AUTO (i / 3))
  else if b = P.OBS_TAG_SEED then bad (decide (v < 8))
  else 0

/-- The refusal of a PARAM_WRITE entry, 0 for none, in the order of R519. -/
def State.writeRefusal (s : State) (e : WriteEntry) : Nat :=
  match elementOf e.addr e.index with
  | none => Status.BAD_ADDRESS
  | some (p, i) =>
    if p.count ≤ i then Status.BAD_INDEX
    else if p.kind = .ro ∨ p.kind = .reserved then Status.READ_ONLY
    else if p.kind = .halt ∧ s.blockRuns (p.base / 65536) then Status.FIELD_LIVE_BLOCKED
    else if p.kind = .w1c then (if e.value < 2 ^ p.width then 0 else Status.BAD_VALUE)
    else if ¬ p.legal i e.value then Status.BAD_VALUE
    else s.furtherTest p.base i e.value

/-! ## Relations (R520) -/

/-- The parameters of which the first must lie below the second, beside the arrays. -/
def scalarRelations : List (Nat × Nat) :=
  [(P.PRT_SLOW_OFF, P.PRT_SLOW_ON), (P.PRT_STOP_FREE_ON, P.PRT_STOP_FREE_OFF), (P.PRT_FIFO_XON, P.PRT_FIFO_XOFF),
   (P.COR_OVEN_MARG, P.COR_OVEN_FAIL), (P.OPT_BIAS_WARN, P.OPT_BIAS_FAIL), (P.LOG_SPILL_RESUME, P.LOG_SPILL_LIMIT),
   (P.HIE_REPORT_PERIOD, P.HIE_AGE)]

/-- The arrays of which each element of the first must lie below that of the second. -/
def arrayRelations : List (Nat × Nat) :=
  [(P.PRT_EGQ_RESUME, P.PRT_EGQ_STOP), (P.BUF_WARN1, P.BUF_WARN2), (P.BUF_WARN2, P.BUF_STOP), (P.BUF_HYST, P.BUF_WARN1),
   (P.REF_FREQ_ACCEPT, P.REF_FREQ_REJECT), (P.REF_PH_ACCEPT, P.REF_PH_REJECT)]

/-- Whether a write of element `i` of a parameter touches a relation that the state breaks. -/
def State.breaks (s : State) (b i : Nat) : Bool :=
  (scalarRelations.any fun r => (b == r.1 || b == r.2) && decide (s.rd r.2 ≤ s.rd r.1)) ||
    arrayRelations.any fun r => (b == r.1 || b == r.2) && decide (s.rd r.2 i ≤ s.rd r.1 i)

/-! ## Applying -/

/-- The value that a parameter keeps of a written one: reserved bits read as 0 (R13). -/
def keptValue (b v : Nat) : Nat :=
  if b = P.HST_TRAP then v - field 54 48 v * 2 ^ 48
  else if b = P.LCK_MC_GROUP then v - v % 64
  else if b = P.LCK_GROUP then v - v % 2 ^ 20
  else if b = P.LCK_ADM_ENTRY then v - field 31 30 v * 2 ^ 30
  else if b = P.HLT_ALERT_MASK then v % 2 ^ 23
  else v

/-- A value stored at once, with what the write does besides storing it. The relations and limits that other parts of the module
evaluate are looked at once the whole request is applied. -/
def State.writeLive (s : State) (n b i v : Nat) : State :=
  let t := s.wr b i v
  if b = P.LCK_SWAP_TIME then s.armSwap i v
  else if b = P.LCK_ADM_ENTRY then s.admWriteHeld b (s.selPort n) i v
  else if b = P.LCK_ADM_CYCLE ∨ b = P.LCK_ADM_BASE ∨ b = P.LCK_ADM_COUNT then s.admWriteHeld b i 0 v
  else if b = P.LAN_CTLE_MODE ∨ b = P.LAN_CTLE_SET then
    if t.rd P.LAN_CTLE_MODE i = 1 ∧ 3 ≤ t.laneState i then t.setCtle i (t.rd P.LAN_CTLE_SET i) else t
  else if b = P.HIE_ENABLE then if s.rd b = v then t else if v = 1 then t.nhpStart else s.nhpStop.wr b i v
  else if b = P.OBS_TAG_SEED then { t with tagRegs := (List.range 8).map fun r => v ^^^ r }
  else if b = P.GNS_ANT_BIAS then s.writeBias v
  else if b = P.GNS_SHUTTER_DUTY then t.gnssCount
  else if b = P.REF_PHASE_SLOPE then t.setServo fun w => { w with phi := s.phiUnits, phiAt := s.clock }
  else if b = P.TBS_UTC_SOURCE then if s.rd b = v then t else t.wr P.TBS_UTC_VALID 0 0
  else if b = P.LOG_FULL_POLICY then s.holdSettle.wr b i v
  else t

/-- One entry applied (R11, R46): to the shadow, at once, or as bits cleared. -/
def State.applyEntry (s : State) (n : Nat) (e : WriteEntry) : State :=
  match elementOf e.addr e.index with
  | none => s
  | some (p, i) =>
    match p.kind with
    | .commit => s.wrShadow p.base i e.value
    | .w1c =>
      if p.base = P.SPD_TAMPER_SRC then s.tamperClear e.value
      else s.wr p.base i (s.rd p.base i - (s.rd p.base i &&& e.value))
    | .live | .halt => s.writeLive n p.base i (keptValue p.base e.value)
    | .ro | .reserved => s

/-- What other parts of the module make of a parameter that a request has written. The thresholds of the quay are looked at with the next
allocation or release (R281). -/
def State.afterWrite (s : State) (b i : Nat) : State :=
  if b = P.PRT_SLOW_ON ∨ b = P.PRT_SLOW_OFF ∨ b = P.PRT_STOP_FREE_OFF ∨ b = P.PRT_FIFO_XOFF ∨ b = P.PRT_FIFO_XON ∨ b = P.PRT_EXPRESS_CLASSES then
    s.evaluateSluice
  else if b = P.PRT_STOP_FREE_ON then s.evaluateSluice.refreshHeadroom []
  else if b = P.FAB_BASIN_RESERVE then s.refreshHeadroom []
  else if b = P.PRT_FIBRE_LEN ∨ b = P.PRT_PARTNER_RESP then s.refreshHeadroom [i]
  else if b = P.PRT_EGQ_STOP ∨ b = P.PRT_EGQ_RESUME then
    ((List.range 64).foldl (fun t o => t.queueStop o i) s).evaluateSluice
  else if b = P.REF_EXT_BOUND then s.refreshRef (i + 1)
  else if b = P.REF_PRIO then s.reselect 1 s.clock
  else if b = P.LNK_HOP_MARGIN ∨ b = P.LNK_ASYM_UNCAL_PPM ∨ b = P.TBS_FREE_Q then [3, 4, 5, 6].foldl State.refreshRef s
  else if b = P.LOG_FULL_POLICY ∨ b = P.LOG_SPILL_LIMIT ∨ b = P.LOG_SPILL_RESUME then s.holdRaise.holdSeen.holdClear.evaluateSluice
  else s

/-- The parameter and element of an entry. -/
def WriteEntry.key (e : WriteEntry) : Nat × Nat :=
  match elementOf e.addr e.index with
  | some (p, i) => (p.base, i)
  | none => (0, 0)

/-- Whether an entry counts for the configuration generation (R517). -/
def WriteEntry.counts (e : WriteEntry) : Bool :=
  match paramAt e.addr with
  | some p => p.kind != .w1c && p.base != P.SYS_SCRATCH
  | none => false

/-- The values that the LIVE and HALT parameters would hold with every entry applied, to test the relations on (R520). -/
def State.tentative (s : State) (es : List WriteEntry) : State :=
  es.foldl (fun t e =>
    match elementOf e.addr e.index with
    | some (p, i) => if p.kind = .live ∨ p.kind = .halt then t.wr p.base i e.value else t
    | none => t) s

/-- The first refused entry of a PARAM_WRITE with its status, if one is refused: by its own tests, or by a relation that the request
would break (R46, R519, R520). -/
def State.writeFault (s : State) (es : List WriteEntry) : Option (Nat × Nat) :=
  match es.findIdx? fun e => s.writeRefusal e != 0 with
  | some k => some (k, s.writeRefusal (es.getD k ⟨0, 0, 0⟩))
  | none => (es.findIdx? fun e => (s.tentative es).breaks e.key.1 e.key.2).map fun k => (k, Status.BAD_VALUE)

/-- Every entry applied in order, then what follows from the values, and the configuration generation. -/
def State.applyWrites (s : State) (n : Nat) (es : List WriteEntry) : State :=
  let t := es.foldl (fun t e => t.applyEntry n e) s.openBatch
  let t := (es.map WriteEntry.key).eraseDups.foldl (fun t k => t.afterWrite k.1 k.2) t
  (if es.any WriteEntry.counts then t.configUp else t).closeBatch s

/-- PARAM_WRITE (R46): every entry checked before any is applied. -/
def paramWrite (o : Origin) (b : List Byte) (s : State) : State :=
  let es := writeEntries b
  match s.writeFault es with
  | some (k, st) => s.finish o st (toBe 2 k ++ toBe 2 st)
  | none => (s.applyWrites o.session es).finish o Status.OK []

/-- Whether the fast path answers a PARAM_READ or PARAM_WRITE with these addresses (R42). -/
def fastAddresses (as_ : List Nat) : Bool :=
  decide (as_.length ≤ 16) && as_.all fun a => match paramAt a with | some p => p.kind == .live | none => false

end Sys2Proof.Machine
end

