-- ==== Sys2Proof/Machine/Commits.lean ====
section
/-! DEFINITION. PARAM_COMMIT (R47, R48, R514): the pending commits, the tests that a block's shadows must pass together, and what each
block's commit does beside applying them. -/

namespace Sys2Proof.Machine

/-! ## Shadows of a block -/

/-- The block of a parameter. -/
def blockOf (b : Nat) : Nat := b / 65536

/-- Whether a block has COMMIT parameters (R504, R514). -/
def hasCommit (block : Nat) : Bool := (paramsOf block).any fun p => p.kind == .commit

/-- The shadows of a block that differ from their operational values. -/
def State.shadowsOf (s : State) (block : Nat) : List ((Nat × Nat) × Nat) :=
  s.shadows.filter (fun (x : (Nat × Nat) × Nat) => blockOf x.1.1 == block)

/-- The registers with a block's shadows in place and the shadows gone. -/
def State.staged (s : State) (block : Nat) : State :=
  let t := (s.shadowsOf block).foldl (fun (t : State) x => t.wr x.1.1 x.1.2 x.2) s
  { t with shadows := s.shadows.filter (fun (x : (Nat × Nat) × Nat) => blockOf x.1.1 != block) }

/-- The elements of a parameter that a commit changes. -/
def State.changed (s : State) (b : Nat) : List Nat :=
  (s.shadowsOf (blockOf b)).filterMap (fun (x : (Nat × Nat) × Nat) => if x.1.1 = b then some x.1.2 else none)

/-! ## Tests at the commit -/

/-- Whether the port whose lowest lane would be `l` stands by R249, R250 and R90. -/
def State.portLegal (s : State) (l : Nat) : Bool :=
  let n := s.rd P.PRT_LANES l
  n == 0 ||
    (l % n == 0 && ((List.range (n - 1)).all fun i => s.rd P.PRT_LANES (l + i + 1) == 0) &&
      portGbps (s.rateOf l) n != 0 && s.rateOf (l + n - 1) == s.rateOf l &&
      s.rd P.LNK_CLASS ((l + n - 1) / 4) == s.rd P.LNK_CLASS (l / 4) && (s.rd P.PRT_FEC l == 0 || s.rateOf l == 3))

/-- The ports with PRT_EXPRESS set. -/
def State.expressCount (s : State) : Nat :=
  ((List.range 512).filter fun l => s.rd P.PRT_LANES l != 0 && s.rdb P.PRT_EXPRESS l).length

/-- R250 for the whole module. -/
def State.portsLegal (s : State) : Bool := (List.range 512).all s.portLegal && decide (s.expressCount ≤ 32)

/-- The family of an engine's quads by their rates; none where they mix families (R357). -/
def State.engineFamily (s : State) (e : Nat) : Option Nat :=
  let f := familyOf (s.rd P.LAN_RATE (4 * e))
  if (List.range 4).all fun i => familyOf (s.rd P.LAN_RATE (4 * e + i)) == f then some f else none

/-- Block-header hunt only on free-class quads of rate codes 3 and 4 (R357, R90). -/
def State.huntLegal (s : State) (q : Nat) : Bool :=
  s.rd P.LAN_ALIGN q != 2 || (s.rd P.LNK_CLASS q == 0 && (s.rd P.LAN_RATE q == 3 || s.rd P.LAN_RATE q == 4))

/-- Block HST, ARB, LOG and REF tests (R388, R390, R345, R128). -/
def State.arbLegal (s : State) : Bool :=
  decide (s.rd P.ARB_QUOTA ≤ s.rd P.ARB_WINDOW) &&
    (List.range 16).all fun v => (List.range 16).any fun m => s.rd P.ARB_PRIO m == v
def State.logLegal (s : State) : Bool :=
  decide (((List.range 16).filter fun c => s.rdb P.LOG_CH_ENABLE c).length * (1000000 / s.rd P.LOG_SEAL_INTERVAL) ≤ 20000)
def State.linkPortsLegal (s : State) : Bool :=
  let ps := ((List.range 4).map fun k => s.rd P.REF_LINK_PORT k).filter fun p => p != 1023
  ps.eraseDups.length == ps.length

/-- The refusal of a commit of a block by the chapters' tests of its shadows, 0 for none; `t` is the state with the shadows in place. -/
def State.commitTest (s t : State) (block : Nat) : Nat :=
  let test (c : Bool) : Nat := if c then 0 else Status.BAD_VALUE
  match block with
  | 0x11 => test t.portsLegal
  | 0x20 =>
    if t.rd P.TBS_DOM_LINK 0 ≠ 0 ∧ t.rd P.TBS_DOM_LINK 0 = t.rd P.TBS_DOM_LINK 1 then Status.BAD_VALUE
    else if t.rdb P.TBS_SET_REQ ∧ s.rd P.REF_TSTATE ≠ 0 then Status.NOT_READY
    else 0
  | 0x21 => test (t.portsLegal && (List.range 128).all t.huntLegal)
  | 0x22 => test t.linkPortsLegal
  | 0x30 =>
    if ¬ (t.portsLegal && (List.range 128).all t.huntLegal && (List.range 32).all fun e => (t.engineFamily e).isSome) then
      Status.BAD_VALUE
    else if s.optics.swaps.any fun w => t.engineFamily w.engine != some (s.rd P.LAN_FAMILY w.engine) then Status.NOT_READY
    else 0
  | 0x40 => test t.logLegal
  | 0x42 => test t.arbLegal
  | _ => 0

/-- The refusal of a commit of a block, 0 for none. -/
def State.commitRefusal (s : State) (block : Nat) : Nat := s.commitTest (s.staged block) block

/-! ## What each block's commit does -/

/-- What a lane carries by its port: a lane for which it changes is retrained (R250, R116). -/
def State.laneSetting (s : State) (l : Nat) : Option (List Nat) :=
  (s.portOf l).map fun p => [p, s.rd P.PRT_LANES p, s.rd P.PRT_FEC p, s.rateOf p]

/-- The lanes that a commit of block PRT, LNK or LAN takes down (R250, R92, R357); `t` is the state with the shadows in place. -/
def State.lanesDown (s t : State) (block : Nat) : List Nat :=
  (List.range 512).filter fun l =>
    match block with
    | 0x11 => s.laneSetting l != t.laneSetting l
    | 0x21 => s.rd P.LNK_CLASS (l / 4) != t.rd P.LNK_CLASS (l / 4)
    | 0x30 => s.laneSetting l != t.laneSetting l || s.rd P.LAN_RATE (l / 4) != t.rd P.LAN_RATE (l / 4) ||
        t.engineFamily (engineOf l) != some (s.rd P.LAN_FAMILY (engineOf l)) || (s.rdb P.LAN_ENABLE l && !t.rdb P.LAN_ENABLE l)
    | _ => false

/-- The committed asymmetry of port `p` and its residual go to flash (R116, R512). -/
def State.asymSave (s : State) (p : Nat) : State :=
  let a := s.rd P.LNK_ASYM p
  let r := s.rd P.LNK_ASYM_RES p
  let f : Flash := { s.flash with asym := store ltNat p 0 a s.flash.asym, asymRes := store ltNat p 0xFFFF r s.flash.asymRes }
  { s with flash := f }

/-- θ of the TIME_IN port `p` moves by `d` half ps, which a pull removes where the port carries the active reference (R120, R144). As θ is
module time minus the upstream's, module time moves the other way: a θ of -785 ps makes a pull forward by 785 ps. DEDUCED: assumption
34. -/
def State.thetaMoved (s : State) (p : Nat) (d : Int) : State :=
  let a := s.rd P.REF_ACTIVE
  let t := s.wrS 64 P.LNK_OFFSET p (s.rdS 64 P.LNK_OFFSET p + d / 2)
  let t := t.setLink p fun l => { l with theta := l.theta + d / 2 }
  let active := d != 0 && (t.linkRefs p).contains a
  if active && t.rd P.REF_TSTATE == 2 then ((t.freeze t.clock).pullBy a (-d * 5000000) false).conclude t 8
  else if active && t.rd P.REF_TSTATE == 3 then t.pullBy a (t.phiUnits - d * 5000000) true
  else t

/-- The asymmetry of port `p` changed by a commit (R116, R117, R120): the value goes to flash, and on a TIME_IN port θ moves by half the
difference. -/
def State.asymCommit (s : State) (old : Int) (p : Nat) : State :=
  let t := s.asymSave p
  if s.rd P.LNK_ROLE p = 1 then t.thetaMoved p (old - s.rdS 32 P.LNK_ASYM p) else t

/-- The commit after a calibration of port `p`: the suspicion of a slip ends, and B_evt with it (R114, R120); that of a REMEASURE stays
until the REMEASURE ends (R113). -/
def State.calibratedCommit (s : State) (p : Nat) : State :=
  let t := (s.linkFlag p 3 false).setLink p fun l => { l with suspect := 0, calibrated := false }
  t.setBevt p (if t.rd P.LNK_STATE p = 4 then t.rd P.LNK_SLIP_WIDEN else 0)

/-- The ports whose calibration waits for a commit of block LNK (R120). -/
def State.calibratedPorts (s : State) : List Nat := (s.links.filter Link.calibrated).map Link.port

/-- A domain whose port is not locked class, or that has none, has no bound (R86). -/
def State.checkDomains (s : State) : State :=
  [0, 1].foldl (fun t d =>
    let r := t.rd P.TBS_DOM_LINK d
    let p := if 3 ≤ r ∧ r ≤ 6 then t.rd P.REF_LINK_PORT (r - 3) else 512
    if p < 512 ∧ t.lockedPort p then t else t.wr P.TBS_DOM_BOUND d 255) s

/-- A role, an asymmetry or its residual changed on port `p`: the flag UNCAL follows (R117), and a changed role starts the link
again (R112). -/
def State.portLinkCommit (s before : State) (p : Nat) : State :=
  let t := if s.rd P.LNK_ROLE p = before.rd P.LNK_ROLE p then s
    else
      let u := s.linkDown p
      if u.laneState p = 4 ∨ u.laneState p = 5 then u.linkFramed p else u
  let t := t.linkFlag p 5 (t.rd P.LNK_ROLE p == 1 && t.rd P.LNK_ASYM_RES p == 0xFFFF)
  if t.rd P.LNK_ASYM p = before.rd P.LNK_ASYM p ∧ t.rd P.LNK_ASYM_RES p = before.rd P.LNK_ASYM_RES p then t
  else t.asymCommit (before.rdS 32 P.LNK_ASYM p) p

/-- Block TBS (R57, R58, R86): the offset is the operator's only, an announced leap is dated, a set is left pending, and a domain
that is named anew has no offset yet. -/
def State.tbsCommit (s before : State) : State :=
  let t := if s.rd P.TBS_UTC_SOURCE = 1 then s.wr P.TBS_UTC_VALID 0 1
    else s.wr P.TBS_UTC_OFFSET 0 (before.rd P.TBS_UTC_OFFSET)
  let t := t.armLeap
  let t := if t.rdb P.TBS_SET_REQ then (t.acceptSet (t.rd P.TBS_SET_SEC)).wr P.TBS_SET_REQ 0 0 else t
  let t := (before.changed P.TBS_DOM_LINK).foldl (fun (u : State) d => u.wr P.TBS_DOM_BOUND d 255) t
  t.checkDomains.wr P.TBS_DOM_SELECTED 0 t.domainNow

/-- What the module does before a block's shadows are applied. -/
def State.beforeCommit (s : State) (block : Nat) : State :=
  match block with
  | 0x22 => (s.changed P.REF_LINK_PORT).foldl (fun (t : State) k => t.loseRef (3 + k) 5) s
  | 0x40 => ((s.changed P.LOG_CH_ENABLE).filter fun c => s.chanOn c).foldl State.closeChannel s
  | 0x11 | 0x21 | 0x30 => (s.lanesDown (s.staged block) block).foldl State.laneOff s
  | _ => s

/-- What the module does once a block's shadows are applied; `before` is the state before the commit. -/
def State.afterCommit (s before : State) (block : Nat) : State :=
  let ch := before.changed
  match block with
  | 0x10 => if ch P.FAB_PACE = [] then s else s.applyPace (s.rd P.FAB_PACE)
  | 0x11 =>
    let lanes := before.lanesDown (before.staged block) block
    let t := (s.wr P.PRT_EXPRESS_COUNT 0 s.expressCount).wakeLanes lanes
    ((lanes.foldl State.refreshPath t).refreshHeadroom lanes).evaluateSluice
  | 0x14 => (ch P.LCK_FIBRE_COMP ++ ch P.LCK_FIBRE_SRC).foldl State.refreshPath s
  | 0x20 => s.tbsCommit before
  | 0x21 =>
    let ps := (ch P.LNK_ROLE ++ ch P.LNK_ASYM ++ ch P.LNK_ASYM_RES).eraseDups
    let t := ps.foldl (fun (t : State) p => t.portLinkCommit before p) s
    let t := (before.calibratedPorts.foldl State.calibratedCommit t).checkDomains.refreshRefs
    let lanes := before.lanesDown (before.staged block) block
    lanes.foldl State.refreshPath (t.wakeLanes lanes)
  | 0x22 =>
    let moved (r : Nat) : Bool := (ch P.REF_LINK_PORT).any fun k => 3 + k == r
    let t := [0, 1].foldl (fun (t : State) d => if moved (t.rd P.TBS_DOM_LINK d) then t.wr P.TBS_DOM_BOUND d 255 else t) s
    t.checkDomains.refreshRefs
  | 0x24 =>
    let t := if ch P.GNS_POS_MODE ≠ [] ∨ (s.rd P.GNS_POS_MODE = 1 ∧ ch P.GNS_FIX_X ++ ch P.GNS_FIX_Y ++ ch P.GNS_FIX_Z ≠ []) then
        s.setGnss fun g => { g with renew := true }
      else s
    if ch P.GNS_ENABLE = [] then t else (if t.rdb P.GNS_ENABLE then t.gnssStart else t.gnssStop).refreshRefs
  | 0x25 =>
    ((ch P.EVT_ACC_MODE ++ ch P.EVT_ACC_A ++ ch P.EVT_ACC_B ++ ch P.EVT_ACC_N).eraseDups).foldl
      (fun (t : State) k => t.setAcc (EvtAcc.blank k)) s
  | 0x30 =>
    let fams := (List.range 32).foldl (fun (t : State) e =>
      match t.engineFamily e with
      | some f => if f = t.rd P.LAN_FAMILY e then t else t.setFamily e f
      | none => t) s
    let lanes := before.lanesDown (before.staged block) block
    let t := fams.wakeLanes ((List.range 512).filter fun l => lanes.contains l || (ch P.LAN_ENABLE).contains l)
    ((lanes.foldl State.refreshPath t).refreshHeadroom lanes).evaluateSluice
  | 0x50 => if ch P.HIE_UP_PORT = [] then s else s.rejoin
  | 0x71 => (((ch P.HST_MBX_BASE ++ ch P.HST_MBX_SIZE).map fun k => k % 4).eraseDups).foldl State.resetMailbox s
  | _ => s

/-- A commit of a block that has passed its tests: every shadow applied, with what follows (R47, R514, R517). -/
def State.commitBlock (s : State) (block : Nat) : State :=
  (((s.openBatch.beforeCommit block).staged block).afterCommit s block).configUp.closeBatch s

/-- A commit now, answered with the status given or with the refusal of the block's tests (R48). -/
def State.commitNow (s : State) (o : Origin) (block status : Nat) : State :=
  if s.commitRefusal block = 0 then (s.commitBlock block).finish o status []
  else s.finish o (s.commitRefusal block) []

/-! ## Pending commits (R48) -/

/-- The pending commit of a block ends SUPERSEDED. -/
def State.supersede (s : State) (block : Nat) : State :=
  let old := s.cmd.commits.filter fun c => c.block == block
  old.foldl (fun (t : State) c => t.finish c.origin Status.SUPERSEDED [])
    (s.setCmd fun c => { c with commits := c.commits.filter fun x => x.block != block })

/-- Whether a scheduled application of output synthesizers is a commit of block SYN. -/
def SynJob.isCommit (j : SynJob) : Bool := j.origin.opcode == Op.PARAM_COMMIT

/-- A commit of block SYN acts as SYN_APPLY with mask 0x0F (R372); one that acts now replaces a pending commit of the block (R48). -/
def State.synCommit (s : State) (o : Origin) (status : Nat) : State :=
  (s.synTake SynJob.isCommit fun u j => u.finish j.origin Status.SUPERSEDED []).synApplyNow o 15 status

/-- PARAM_COMMIT (R48, R514): the validation, and then the commit now or at its instant. -/
def paramCommit (o : Origin) (b : List Byte) (s : State) : State :=
  let c := commitOp b
  let due := instant c.sec c.nano
  let syn := c.block == 0x31
  let now (status : Nat) : State :=
    if syn then s.synCommit o status else (s.supersede c.block).commitNow o c.block status
  if 999999999 < c.nano ∨ ¬ blockNumbers.contains c.block ∨ (c.scheduled ∧ o.version = 1) then s.finish o Status.BAD_VALUE []
  else if ¬ hasCommit c.block then s.finish o Status.OK []
  else if ¬ c.scheduled then now Status.OK
  else if due < s.modNs then now Status.DONE_LATE
  else if syn then s.synSchedule o 15 due
  else ((s.supersede c.block).setCmd fun x => { x with commits := x.commits ++ [⟨c.block, due, o⟩] }).accept o

/-- A pending commit of a block whose instant has come (R48). -/
def State.commitDue (s : State) (block : Nat) : State :=
  if block = 0x31 then s.synDue SynJob.isCommit
  else
    match s.cmd.commits.find? fun c => c.block == block && decide (c.due ≤ s.modNs) with
    | some c => (s.setCmd fun x => { x with commits := x.commits.filter fun y => y.block != block }).commitNow c.origin block Status.DONE
    | none => s

end Sys2Proof.Machine
end

