-- ==== Sys2Proof/Machine/Observe.lean ====
section
/-! DEFINITION. Observation (R450 to R464): freezing and snapshots of the counter set, and the trace ring read by command and on the
window port. -/

namespace Sys2Proof.Machine

/-! ## Freezing (R453) -/

/-- The counter set runs on: each hidden accumulator is added to its counter. -/
def State.thaw (s : State) : State :=
  let t := s.hidden.foldl (fun u x => match counterAt x.1 with | some c => u.bumpSet c.1 c.2 x.1 x.2 | none => u) s
  { t.wr P.OBS_FROZEN 0 0 with hidden := [] }

/-- OBS_FREEZE (R453). -/
def obsFreeze (o : Origin) (b : List Byte) (s : State) : State :=
  match beAt 0 1 b with
  | 0 => (if s.rdb P.OBS_FROZEN then s.thaw else s).finish o Status.OK []
  | 1 => (s.wr P.OBS_FROZEN 0 1).finish o Status.OK []
  | _ => s.finish o Status.BAD_VALUE []

/-! ## Snapshots (R454 to R457) -/

/-- The counters of the set that are not 0, by index. -/
def State.countersSet (s : State) : List (Nat × Nat) :=
  s.regs.filterMap fun e =>
    match counterIndex e.1.1 e.1.2 with
    | some c => if counterAt c = some e.1 then some (c, e.2) else none
    | none => none

/-- The counter set and OBS_OVF copied into the snapshot bank (R454, R455). -/
def State.snapCopy (s : State) (clear : Bool) : State :=
  let t : State := { s with regs := s.regs.filter fun e => !(e.1.1 == P.OBS_SNAP) }
  let t := s.countersSet.foldl (fun u x => u.wr P.OBS_SNAP x.1 x.2) t
  let t := (List.range 128).foldl (fun u w => u.wr P.OBS_SNAP_OVF w (s.rd P.OBS_OVF w)) t
  let t := if clear then (List.range 128).foldl (fun u w => u.wr P.OBS_OVF w 0) t else t
  (t.wr P.OBS_SNAP_SEQ 0 ((s.rd P.OBS_SNAP_SEQ + 1) % 2 ^ 32)).wr P.OBS_SNAP_TIME 0 s.now

/-- The payload of a snapshot's reply (R454). -/
def State.snapReply (s : State) : List Byte :=
  toBe 4 (s.rd P.OBS_SNAP_SEQ) ++ toBe 8 (s.rd P.OBS_SNAP_TIME) ++ toBe 1 (s.rd P.REF_TSTATE) ++ toBe 1 (s.rd P.TBS_BOUND_NOW) ++ zeros 2

/-- A copy made and answered. -/
def State.snapDone (s : State) (o : Origin) (clear : Bool) (status : Nat) : State :=
  let t := s.snapCopy clear
  t.finish o status t.snapReply

/-- The pending scheduled snapshot ends SUPERSEDED (R454). -/
def State.snapReplaced (s : State) : State :=
  match s.obsJob with
  | some j => ({ s with obsJob := none }.wr P.OBS_SNAP_PENDING 0 0).finish j.origin Status.SUPERSEDED []
  | none => s

/-- OBS_SNAPSHOT (R454). -/
def obsSnapshot (o : Origin) (b : List Byte) (s : State) : State :=
  let clear := bit 1 (beAt 0 1 b)
  let due := instant (beAt 2 6 b) (beAt 8 4 b)
  let t := s.snapReplaced
  if ¬ bit 0 (beAt 0 1 b) then t.snapDone o clear Status.OK
  else if due < s.modNs then t.snapDone o clear Status.DONE_LATE
  else ({ t with obsJob := some ⟨o, due, clear⟩ }.wr P.OBS_SNAP_PENDING 0 (due % 2 ^ 64)).accept o

/-- OBS_SNAPSHOT_DUE (R454): the first tick at or after the instant. -/
def State.snapDue (s : State) : State :=
  match s.obsJob with
  | some j =>
    if s.modNs < j.due then s
    else ({ s with obsJob := none }.wr P.OBS_SNAP_PENDING 0 0).snapDone j.origin j.clear Status.DONE
  | none => s
def execObsSnapshotDue (s : State) : Host.Outcome State Fault Refusal := .next s.snapDue

/-! ## The trace ring (R461 to R463) -/

/-- The records of the trace ring with the sequence numbers from `n` on. -/
def State.traceRecords (s : State) (n k : Nat) : List Byte :=
  ((List.range k).map fun i => s.padRead (traceAddr (n + i)) 32).flatten

/-- OBS_TRACE_READ (R462). -/
def obsTraceRead (o : Origin) (b : List Byte) (s : State) : State :=
  let cursor := beAt 0 8 b
  let most := beAt 8 2 b
  let head := s.rd P.OBS_TRACE_HEAD
  if head < cursor ∨ most = 0 ∨ 127 < most then s.finish o Status.BAD_VALUE []
  else
    let start := max cursor (s.rd P.OBS_TRACE_OLDEST)
    let n := min most (head - start)
    s.finish o Status.OK (toBe 8 (start + n) ++ toBe 2 n ++ zeros 2 ++ toBe 4 (clampU 32 (start - cursor)) ++ s.traceRecords start n)

/-- The frame of the window port (R463). -/
def State.windowBytes (s : State) (first n skipped : Nat) : List Byte :=
  withFcs (toBe 6 (s.rd P.OBS_WIN_DST) ++ toBe 6 (s.rd P.HIE_PORT_MAC_BASE + 512) ++ toBe 2 0x88B6 ++ toBe 1 1 ++ toBe 1 n ++
    zeros 2 ++ toBe 4 (clampU 32 skipped) ++ toBe 8 first ++ s.traceRecords first n)

/-- WINDOW_FRAME (R463): sent as soon as it holds 45 records, or 10 µs after its first; the reader resumes at the oldest record where it
has fallen behind the ring. -/
def execWindowFrame (s : State) : Host.Outcome State Fault Refusal :=
  let next := s.rd P.OBS_WIN_NEXT
  let first := max next (s.rd P.OBS_TRACE_OLDEST)
  let n := min 45 (s.rd P.OBS_TRACE_HEAD - first)
  let due : Bool := match s.windowAt with | some c => decide (c + 10000 ≤ s.clock) | none => true
  if ¬ s.rdb P.OBS_WIN_ENABLE ∨ s.frozenMaster 1 ∨ n = 0 ∨ (n < 45 ∧ ¬ due) then .next s
  else
    let t := (s.count P.OBS_WIN_SKIPPED 0 (first - next)).count P.OBS_WIN_FRAMES
    let t := (t.wr P.OBS_WIN_NEXT 0 (first + n)).emit (.window (s.windowBytes first n (first - next)))
    .next { t with windowAt := if first + n < s.rd P.OBS_TRACE_HEAD then some s.clock else none }

end Sys2Proof.Machine
end

