-- ==== Sys2Proof/Machine/Shutter.lean ====
section
/-! DEFINITION. Shutter mode (R435 to R439): its causes, its four states, and what entering and leaving it do. -/

namespace Sys2Proof.Machine

/-- The lanes of engines 1 to 30, and the engines that a domain powers (R427). -/
def shutterLanes : List Nat := (List.range 480).map fun i => i + 16
def domainEngines (d : Nat) : List Nat :=
  match d with
  | 9 => (List.range 15).map fun i => i + 1
  | 10 => (List.range 15).map fun i => i + 16
  | 12 => [0, 31]
  | _ => []

/-- The lanes and line synthesizers of a domain go OFF with it. -/
def State.enginesDown (s : State) (d : Nat) : State :=
  (domainEngines d).foldl (fun t e =>
    (((List.range 16).map fun i => 16 * e + i).foldl State.laneOff t).wr P.SYN_STATE e 0) s

/-- The lanes of engines wake, in lane order. -/
def State.enginesWake (s : State) (d : Nat) : State :=
  s.wakeLanes ((domainEngines d).map fun e => (List.range 16).map fun i => 16 * e + i).flatten

/-- Walks of TBL_FLUSH_PORT and TBL_REHASH that run at shutter-mode entry end ABORTED (R44, R307). -/
def State.abortWalks (s : State) : State :=
  let jobs := s.tables.jobs.filter fun j => j.origin.opcode == Op.TBL_FLUSH_PORT
  let t := jobs.foldl (fun u j =>
    (u.setTables fun x => { x with
      jobs := dropBy TblJob.id j.id x.jobs, fences := dropBy Fence.job j.id x.fences,
      flushes := dropBy Flush.job j.id x.flushes }).finish j.origin Status.ABORTED []) s
  s.tables.rehash.foldl (fun u x =>
    let u := (u.wr P.TBL_REHASH_STATE x.1 2).setTables fun y => { y with rehash := y.rehash.filter fun z => z.1 != x.1 }
    u.finish x.2 Status.ABORTED (u.rehashReply x.1 0 0)) t

/-- The frames that a reach holds in its FIFOs and inlet queues are lost with its domain. -/
def State.reachFrames (s : State) (r : Nat) : State :=
  let held := s.fabric.waiting ++ s.fabric.queued.map (fun q => q.frame) ++ s.fabric.receiving.map Receiving.frame
  let mine := s.fabric.frames.filter fun f => f.reach == r && held.contains f.id && !f.gone
  let t := mine.foldl (fun u f => (u.discardAt f.id f.outlet P.FAB_DRAIN_LOST).withdraw f.id) s
  t.setFab fun x => { x with receiving := x.receiving.filter fun y => decide (reachOf y.port ≠ r) }

/-- A fabric domain goes down (R244, R282, R308): the fabric is OFF, and the reaches of a switch-die half or the quay lose what they
held. -/
def State.fabricDomainDown (s : State) (d : Nat) : State :=
  let t := (s.setDomain d 0).fabricOff
  let rs := if d = 6 then [0, 1, 2, 3] else if d = 7 then [4, 5, 6, 7] else []
  let t := rs.foldl (fun u r => (u.reachFrames r).reachLost r) t
  if d = 8 then t.quayLost else t

/-- Entry to ENTERING (R438): HOLD time up to now is kept (R22). -/
def State.enterShutter (s : State) : State :=
  let cause := s.rd P.PWR_SHUTTER_CAUSE
  let t := s.holdSettle.openBatch.setPower fun p => { p with wasRunning := s.rd P.FAB_STATE == 2 }
  let t := ((t.wr P.PWR_SHUTTER_STATE 0 1).wr P.PWR_SHUTTER_ENTRY_CAUSE 0 cause).count P.PWR_SHUTTER_COUNT
  let t := t.wakeCancel fun r => match r.kind with
    | .domain => decide (6 ≤ r.num ∧ r.num ≤ 10)
    | .lane => !keelPort r.num
    | .cal => false
  let t := [6, 7, 8].foldl (fun u d => if u.rd P.PWR_DOMAIN_STATE d = 1 then u.setDomain d 0 else u) t
  let t := [9, 10].foldl (fun u d => (u.enginesDown d).setDomain d 0) t.abortSwaps.abortWalks
  let t := if t.rd P.FAB_STATE = 2 then t.wr P.FAB_STATE 0 3 else t
  let t := if t.rd P.FAB_STATE = 3 then
      t.setFab fun x => { x with drainBy := some (s.clock + 1000 * s.rd P.FAB_SHUTTER_DRAIN) } else t
  let t := if bit 1 cause then t.fabricOff else t
  let t := (t.setGnss fun g => { g with dutyAt := s.clock }).gnssCount
  (((t.sealAll true t.now).sticky 16 cause).notice 9 (toBe 1 cause ++ zeros 3 ++ toBe 8 s.now ++ zeros 4)).closeBatch s

/-- A cause of shutter mode arises (R435, R447): RAIL while ENTERING ends the drain at once. -/
def State.shutterCause (s : State) (c : Nat) : State :=
  let t := s.orIn P.PWR_SHUTTER_CAUSE 0 (2 ^ c)
  match s.rd P.PWR_SHUTTER_STATE with
  | 0 | 3 => t.enterShutter
  | 1 => if c = 1 then t.fabricOff else t
  | _ => t

/-- SHUTTER_ENTERED (R438): the drain has ended and PD6 to PD8 switch off. -/
def execShutterEntered (s : State) : Host.Outcome State Fault Refusal :=
  if s.rd P.PWR_SHUTTER_STATE = 1 ∧ s.rd P.FAB_STATE ≤ 1 then
    .next (([6, 7, 8].foldl State.fabricDomainDown s).wr P.PWR_SHUTTER_STATE 0 2)
  else .next s

/-- SHUTTER_LEFT (R438): PD6 to PD10 are good, and the lanes of engines 1 to 30 ask for their wake. -/
def execShutterLeft (s : State) : Host.Outcome State Fault Refusal :=
  if s.rd P.PWR_SHUTTER_STATE = 3 ∧ [6, 7, 8, 9, 10].all fun d => s.rd P.PWR_DOMAIN_STATE d == 3 then
    .next ((s.holdSettle.wr P.PWR_SHUTTER_STATE 0 0).wakeLanes shutterLanes).gnssCount
  else .next s

/-- SHUTTER_ENTER (R439). -/
def shutterEnter (o : Origin) (_b : List Byte) (s : State) : State := (s.shutterCause 3).finish o Status.OK []

/-- SHUTTER_LEAVE (R439). -/
def shutterLeave (o : Origin) (_b : List Byte) (s : State) : State :=
  let cause := clrBit 3 (s.rd P.PWR_SHUTTER_CAUSE)
  match s.rd P.PWR_SHUTTER_STATE with
  | 0 => s.finish o Status.OK []
  | 2 =>
    if cause ≠ 0 then s.finish o Status.NOT_READY []
    else
      let t := (s.wr P.PWR_SHUTTER_CAUSE 0 0).wr P.PWR_SHUTTER_STATE 0 3
      let (t, k) := t.newTicket
      ([6, 7, 8, 9, 10].foldl (fun u d => u.wakeDomain d (some k)) t).wakeReply o k
  | _ => s.finish o Status.NOT_READY []

/-- SHUTTER_CAUSE_CLEAR (R435): a cause leaves the mask once its condition holds; COMMAND leaves it by SHUTTER_LEAVE alone. -/
def execShutterCauseClear (cause : Fin 4) (s : State) : Host.Outcome State Fault Refusal :=
  let ok : Bool := match cause.val with
    | 0 => [0, 1, 2].all fun d => decide (s.rdS 16 P.HLT_DIE_TEMP d < s.rd P.PWR_SHUTTER_TEMP_CLEAR)
    | 1 => match s.power.vcoreGood with | some c => decide (c + 1000000000 ≤ s.clock) | none => false
    | 2 => decide (s.power.fwRestart + 1000000000 ≤ s.clock)
    | _ => false
  .next (if ok then s.wr P.PWR_SHUTTER_CAUSE 0 (clrBit cause.val (s.rd P.PWR_SHUTTER_CAUSE)) else s)

end Sys2Proof.Machine
end

