-- ==== Sys2Proof/Machine/Power.lean ====
section
/-! DEFINITION. Rails and domains (R427 to R429), start-up and reset (R25, R432 to R434, R511, R512), die temperatures and watchdogs
(R435, R440), sticky faults (R443) and wear (R444 to R446). -/

namespace Sys2Proof.Machine

/-! ## Reset and start-up -/

/-- The module in reset (R432, R511 to R513): every register at its reset value and every domain but PD0 OFF. Flash keeps its contents, and
PD0 its tamper sources and the mirror of the life-cycle state. -/
def State.resetModule (s : State) : State :=
  let t : State := { State.reset with
    clock := s.clock, fresh := s.fresh, out := s.out, pending := s.pending, flash := s.flash }
  let t := t.setPower fun p => { p with
    lostRails := s.power.lostRails, resetN := s.power.resetN, pins := s.power.pins, heaterA := s.power.heaterA }
  let t := (t.wr P.SPD_TAMPER_SRC 0 (s.rd P.SPD_TAMPER_SRC)).wr P.SPD_LIFECYCLE 0 s.flash.lifecycle
  let t := t.setFab fun x => { x with mismatch := some s.clock }
  (t.setPad fun p => { p with active := s.pad.active }).setDomain 0 (if s.power.lostRails.contains 6 then 0 else 3)

/-- The slot that secure boot takes and the version of its image: A where it verifies, else B (R434). -/
def Flash.bootImage (f : Flash) : Option (Nat × Nat) :=
  match f.imageA, f.imageB with
  | some v, _ => some (0, v)
  | none, some v => some (1, v)
  | none, none => none

/-- Start-up from step 4 of R432: PD1, PD2, PD4, PD5 and PD11 are requested, a core is ACTIVE, core A unless its domain is not admitted or
its heater draws no current (R158), and secure boot runs. -/
def State.startUp (s : State) : State :=
  let t : State := { s.resetModule with released := s.clock, phase := .booting }
  let t := ([1, 2, 4, 5, 11].foldl (fun (u : State) d => u.wakeDomain d none) t).wr P.REF_PINS 0 s.power.pins
  let c := if s.power.heaterA ∧ 2 ≤ t.rd P.PWR_DOMAIN_STATE 1 then 0 else 1
  let t := ((t.wr P.COR_STATE c 4).wr P.COR_ACTIVE 0 c).refreshRefs
  let t := t.setPower fun p => { p with vcoreGood := if p.lostRails.contains 0 then none else some s.clock }
  match s.flash.bootImage with
  | none => { t with phase := .failed }
  | some (slot, version) =>
    let t := (t.wr P.PWR_BOOT_SLOT 0 slot).wr P.SYS_FW_VERSION 0 version
    if s.flash.lifecycle = 2 ∧ t.rd P.SPD_TAMPER_SRC = 0 then t.keyStart none else t

/-- Whether a rail that holds the module in reset is lost (R428). -/
def State.railsHold (s : State) : Bool := [1, 2, 5, 6].any s.power.lostRails.contains

/-- RESET_N_RELEASE (R432, R158): `pins` is REFSEL, 7 unconnected; `heaterA` says whether oven A's heater draws current. -/
def execResetNRelease (pins : Fin 8) (heaterA : Bool) (s : State) : Host.Outcome State Fault Refusal :=
  if s.power.resetN then .next s
  else
    let t := s.setPower fun p => { p with resetN := true, pins := pins.val, heaterA := heaterA }
    .next (if t.railsHold then t else t.startUp)

/-- RESET_N_ASSERT (R432): at any time. -/
def execResetNAssert (s : State) : Host.Outcome State Fault Refusal :=
  .next (s.setPower fun p => { p with resetN := false }).resetModule

/-- The values marked "From flash" are loaded (R511, R512, R444). -/
def State.loadFlash (s : State) : State :=
  let f := s.flash
  let t := ((s.wr P.SYS_SERIAL 0 f.serial).wr P.HIE_IDENTITY 0 f.identity).wr P.HIE_PORT_MAC_BASE 0 f.macBase
  let t := f.asym.foldl (fun u x => u.wr P.LNK_ASYM x.1 x.2) t
  f.asymRes.foldl (fun u x => u.wr P.LNK_ASYM_RES x.1 x.2) t

/-- The start-up blocks of the timing die (R214): the eight outputs, the nine inputs, and the reference inputs. -/
def startupItems : List CalItem :=
  ((List.range 8).map fun k => ⟨2, k⟩) ++ ((List.range 9).map fun k => ⟨1, k⟩) ++ [⟨4, 0⟩]

/-- COMMAND_CHANNEL_READY (R25, R432): 1.2 s after the release, the flash values are in place, the remaining domains are requested in
order and start-up calibration begins; the certificate is verified (R207). -/
def execCommandChannelReady (s : State) : Host.Outcome State Fault Refusal :=
  if s.phase = .booting ∧ s.released + 1200000000 ≤ s.clock then
    let t : State := { s.loadFlash with phase := .ready }
    let doms : List Nat := (if t.rdb P.GNS_ENABLE then [3] else []) ++ [6, 7, 8, 9, 10, 12]
    let t : State := doms.foldl (fun u d => u.wakeDomain d none) t
    let t := t.setCal fun c => { c with startup := startupItems }
    let t := if s.flash.certValid then t else (t.orIn P.CAL_FLAGS 0 1).sticky 5 0
    let t := (t.refreshHeadroom (List.range 512)).refreshRefs
    .next (if t.rdb P.HIE_ENABLE then t.nhpStart else t)
  else .next s

/-! ## Domains -/

/-- A core's domain is powered (R157): the core warms, and the synthesizers of its timebase run. -/
def State.corePower (s : State) (c : Nat) : State :=
  let t := if s.corState c = 0 then s.wr P.COR_STATE c 1 else s
  let t := ((t.wr P.SYN_VCO_FREQ (36 + c) (Config.timebaseVco c).toNat).wr P.SYN_STATE (36 + c) 2)
  [32, 33, 34, 35].foldl (fun u k => if u.rd P.SYN_STATE k = 0 then u.synLocked k else u) t

/-- The fabric starts of itself on leaving shutter mode (R438). -/
def State.resumeFabric (s : State) : State :=
  if s.rd P.FAB_STATE = 1 ∧ s.rd P.PWR_SHUTTER_STATE = 3 ∧ s.power.wasRunning ∧ s.rdb P.PWR_RESUME_FABRIC ∧ s.paceSame then
    s.fabricStart
  else s

/-- POWER_GOOD (R429): a domain that was admitted reaches power-good. -/
def execPowerGood (dom : Fin 13) (s : State) : Host.Outcome State Fault Refusal :=
  let d := dom.val
  if s.rd P.PWR_DOMAIN_STATE d ≠ 2 then .next s
  else
    let t := s.setDomain d 3
    .next (match d with
      | 1 => t.corePower 0
      | 2 => t.corePower 1
      | 3 => t.refreshRefs
      | 6 => (([0, 1, 2, 3].foldl State.streamRestore t).fabricPower).resumeFabric
      | 7 => (([4, 5, 6, 7].foldl State.streamRestore t).fabricPower).resumeFabric
      | 8 => t.quayUp.fabricPower.resumeFabric
      | 9 | 10 | 12 =>
        let t := (domainEngines d).foldl State.lineUp t
        if s.rd P.PWR_SHUTTER_STATE = 3 ∧ d ≠ 12 then t else t.enginesWake d
      | _ => t)

/-- The receiver loses its power (R130, R174): its channels are gone, and reference 0 becomes ABSENT. -/
def State.gnssLost (s : State) : State :=
  ((s.snapshotAborted.setGnss fun g => { g with channels := [], renew := true, pulseAt := none }).gnssCount).loseRef 0 5

/-- The domain of core `c` is lost: the core is OFF and its timebase synthesizer with it (R157). Once neither core's domain is up, the
shared blocks of the timing die are down with them (R14): the output synthesizers are OFF, and no monitor sees its reference (R130). -/
def State.coreDomainLost (s : State) (c : Nat) : State :=
  let t := (((s.setDomain (c + 1) 2).openBatch.wr P.SYN_STATE (36 + c) 0).coreFault c 1)
  (if t.sharedUp then t
   else (List.range 7).foldl (fun u r => u.loseRef r 5) ([32, 33, 34, 35].foldl (fun u k => u.wr P.SYN_STATE k 0) t)).closeBatch s

/-- What a loss of power-good of a domain does (R435, R157, R513). PD0 and PD4 take the module with them. -/
def State.domainLost (s : State) (d : Nat) : State :=
  match d with
  | 0 | 4 => s.resetModule
  | 1 => s.coreDomainLost 0
  | 2 => s.coreDomainLost 1
  | 3 => (s.setDomain 3 2).gnssLost
  | 5 => (s.setDomain 5 2).linkLost
  | 6 | 7 | 8 => (s.fabricDomainDown d).shutterCause 1
  | 9 | 10 | 12 => ((s.setDomain d 2).openBatch.enginesDown d).closeBatch s
  | _ => s.setDomain d 2

/-! ## Rails (R428) -/

/-- The set value of a rail in mV; VCORE is tested against its band. -/
def railNominal : Nat → Nat
  | 1 => 750
  | 2 => 800
  | 3 => 900
  | 4 => 2500
  | 5 => 1800
  | 6 => 3300
  | _ => 12000

/-- Whether a rail's voltage lies within 5 % of its set value, or of the VCORE band (R428, R243). -/
def State.railInside (s : State) (k mv : Nat) : Bool :=
  let lo := if k = 0 then s.fabric.bandLow else railNominal k
  let hi := if k = 0 then s.fabric.bandHigh else railNominal k
  decide (95 * lo ≤ 100 * mv ∧ 100 * mv ≤ 105 * hi)

/-- A rail's measured voltage shown; that of VCORE is what the fabric's pace follows (R243). -/
def State.railMeasured (s : State) (k mv : Nat) : State :=
  let t := s.wr P.PWR_RAIL_MV k mv
  if k = 0 then t.vcore s.paceSame mv else t

/-- RAIL_LOSS (R428): a rail has stayed outside its band for 10 µs. -/
def execRailLoss (rail : Fin 8) (mv : BitVec 16) (s : State) : Host.Outcome State Fault Refusal :=
  let k := rail.val
  let t := s.railMeasured k mv.toNat
  if s.railInside k mv.toNat ∨ s.power.lostRails.contains k then .next t
  else
    let t := t.setPower fun p => { p with lostRails := p.lostRails ++ [k], vcoreGood := if k = 0 then none else p.vcoreGood }
    let t := (t.count P.PWR_RAIL_FAULTS k).sticky 18 (k * 65536 + mv.toNat)
    let t := t.openBatch
    .next ((match k with
      | 0 => t.shutterCause 1
      | 3 => (t.retrainLanes ((List.range 512).filter fun l => t.laneState l != 0)).loseRef 0 5
      | 4 | 7 => (List.range 512).foldl State.laneOff t
      | 6 => (t.wr P.SPD_TAMPER_SRC 0 0).resetModule
      | _ => t.resetModule).closeBatch s)

/-- RAIL_RESTORED (R428): a lost rail has been good for 10 ms. A rail that held the module in reset restarts it as a release of RESET_N
does; V3P3 only with a new start-up sequence. -/
def execRailRestored (rail : Fin 8) (mv : BitVec 16) (pins : Fin 8) (heaterA : Bool) (s : State) : Host.Outcome State Fault Refusal :=
  let k := rail.val
  let t := s.railMeasured k mv.toNat
  if ¬ s.power.lostRails.contains k ∨ ¬ s.railInside k mv.toNat then .next t
  else
    let t := t.setPower fun p => { p with lostRails := p.lostRails.filter fun x => x != k }
    .next (match k with
      | 0 => t.vcore t.paceSame mv.toNat
      | 4 | 7 => t.wakeLanes (List.range 512)
      | 1 | 2 | 5 =>
        let t := t.setPower fun p => { p with pins := pins.val, heaterA := heaterA }
        if t.power.resetN ∧ ¬ t.railsHold then t.startUp else t
      | 6 => ((t.setPower fun p => { p with resetN := false }).resetModule)
      | _ => t)

/-! ## Temperatures and watchdogs -/

/-- DIE_TEMPERATURE (R435, R440, R401): a die's temperature in 0.1 °C. -/
def execDieTemperature (die : Fin 6) (temp : BitVec 16) (s : State) : Host.Outcome State Fault Refusal :=
  let d := die.val
  let x := temp.toInt
  let was := decide ((s.rd P.HLT_TEMP_WARN : Int) ≤ s.rdS 16 P.HLT_DIE_TEMP d) && bit 17 (s.rd P.HLT_STICKY)
  let t := s.wr P.HLT_DIE_TEMP d temp.toNat
  let t := if (s.rd P.HLT_TEMP_WARN : Int) ≤ x ∧ ¬ was then t.sticky 17 (d * 65536 + temp.toNat) else t
  let t := if d ≤ 2 ∧ (s.rd P.PWR_SHUTTER_TEMP : Int) ≤ x ∧ ¬ bit 0 (s.rd P.PWR_SHUTTER_CAUSE) then t.shutterCause 0 else t
  let outside (v : Int) : Bool := decide (v < s.rdS 16 P.SPD_TEMP_LOW ∨ s.rdS 16 P.SPD_TEMP_HIGH < v)
  let active := (List.range 6).any fun i => outside (t.rdS 16 P.HLT_DIE_TEMP i)
  let t := t.setPad fun p => { p with active := putBit 4 active p.active }
  .next (if outside x ∧ ¬ outside (s.rdS 16 P.HLT_DIE_TEMP d) then t.tamper 4 else t)

/-- WATCHDOG_EXPIRY (R435, R440): a firmware core has not served its watchdog for PWR_WDOG_TIME; core 3 runs the forwarding
firmware. -/
def execWatchdogExpiry (fw : Fin 4) (s : State) : Host.Outcome State Fault Refusal :=
  let t := s.sticky 19 fw.val
  .next (if fw.val = 3 then (t.setPower fun p => { p with fwRestart := s.clock }).shutterCause 2 else t)

/-! ## Sticky faults (R442, R443) -/

/-- FAULT_READ (R442). -/
def faultRead (o : Origin) (_b : List Byte) (s : State) : State := s.finish o Status.OK s.faultRecord

/-- The faults whose condition still holds, with their details (R443). -/
def State.standing (s : State) : List (Nat × Nat) :=
  let hot := (List.range 6).filter fun d => decide ((s.rd P.HLT_TEMP_WARN : Int) ≤ s.rdS 16 P.HLT_DIE_TEMP d)
  (if s.phase = .ready ∧ ¬ s.flash.certValid then [(5, 0)] else []) ++
  (if s.rd P.PRT_HEADROOM_POOL < s.rd P.PRT_HEADROOM_SUM then [(7, s.rd P.PRT_HEADROOM_SUM)] else []) ++
  (if s.pad.active ≠ 0 then [(15, s.rd P.SPD_TAMPER_SRC)] else []) ++
  (match hot with | d :: _ => [(17, d * 65536 + s.rd P.HLT_DIE_TEMP d)] | [] => []) ++
  (match s.power.lostRails with | k :: _ => [(18, k * 65536 + s.rd P.PWR_RAIL_MV k)] | [] => [])

/-- STICKY_CLEAR (R443): a bit whose condition still holds is raised again as a new fault. -/
def stickyClear (o : Origin) (b : List Byte) (s : State) : State :=
  let mask := beAt 0 4 b
  if mask = 0 ∨ 2 ^ 23 ≤ mask then s.finish o Status.BAD_VALUE []
  else
    let t := s.wr P.HLT_STICKY 0 (s.rd P.HLT_STICKY - (s.rd P.HLT_STICKY &&& mask))
    let t := if bit 0 (beAt 4 1 b) then { t with fault := none } else t
    (s.standing.filter fun x => bit x.1 mask).foldl (fun u x => u.sticky x.1 x.2) (t.finish o Status.OK [])

/-! ## Wear (R444 to R446) -/

/-- How many objects of a kind there are, and where the lower bounds of the kind show. -/
def wearObjects : Nat → Nat
  | 0 => 6
  | 1 => 160
  | _ => 2
def wearBase : Nat → Nat
  | 0 => P.HLT_WEAR_DIE
  | 1 => P.HLT_WEAR_LASER
  | _ => P.HLT_WEAR_OVEN

/-- The prediction held for an object; none has been made where no sample was taken. -/
def Flash.wearOf (f : Flash) (kind index : Nat) : Wear :=
  (f.wear.find? fun w => w.kind == kind && w.index == index).getD ⟨kind, index, 0xFFFF, 0xFFFF, 4, 0, 0, []⟩

/-- The settings in which the end of life of an object is given (R444). -/
def State.wearLimits (s : State) (kind : Nat) : List Nat :=
  match kind with
  | 0 => [s.rd P.HLT_WEAR_RO_EOL, s.rd P.FAB_PACE]
  | 1 => [s.rd P.OPT_BIAS_FAIL]
  | _ => [s.rd P.HLT_OVEN_HEAT_MAX]

/-- A prediction made anew from an object's samples (R444, R445): none below 720 samples, nor for a spare laser that is SPARE. -/
def Wear.predict (w : Wear) (spare : Bool) (limits : List Nat) : Wear :=
  let basis := if w.kind = 0 then b2n (decide (w.index ≤ 2) && Config.wearByStep w.kind w.index limits w.readings) else w.kind + 1
  if w.samples < 720 then { w with months := 0xFFFF, lower := 0xFFFF, basis := 4 }
  else if spare then { w with months := 0xFFFF, lower := 0xFFFF, basis := basis }
  else { w with
    months := (Config.wearMonths w.kind w.index limits w.readings).toNat,
    lower := (Config.wearLower w.kind w.index limits w.readings).toNat, basis := basis }

/-- WEAR_SAMPLE (R444, R446): an object's hourly sample; its prediction is made anew, and a lower bound that falls below HLT_WEAR_WARN is
a fault. -/
def execWearSample (kind : Fin 3) (index : Fin 160) (reading : BitVec 32) (s : State) : Host.Outcome State Fault Refusal :=
  let k := kind.val
  let i := index.val
  if wearObjects k ≤ i then .next s
  else
    let old := s.flash.wearOf k i
    let w : Wear := { old with at_ := s.now, samples := old.samples + 1, readings := old.readings ++ [reading.toNat] }
    let w := w.predict (decide (k = 1) && s.rd P.OPT_LASER_STATE i == 0) (s.wearLimits k)
    let rest := s.flash.wear.filter fun x => !(x.kind == k && x.index == i)
    let t : State := { s with flash := { s.flash with wear := rest ++ [w] } }
    let t := t.wr (wearBase k) i w.lower
    .next (if w.lower < s.rd P.HLT_WEAR_WARN ∧ s.rd P.HLT_WEAR_WARN ≤ old.lower then t.sticky 21 (k * 2 ^ 24 + i) else t)

/-- WEAR_GET (R445). -/
def wearGet (o : Origin) (b : List Byte) (s : State) : State :=
  let k := beAt 0 1 b
  let i := beAt 2 2 b
  if 2 < k ∨ wearObjects k ≤ i then s.finish o Status.BAD_VALUE []
  else
    let w := (s.flash.wearOf k i)
    s.finish o Status.OK (toBe 2 w.months ++ toBe 2 w.lower ++ toBe 1 w.basis ++ zeros 3 ++ toBe 8 w.at_ ++ toBe 4 w.samples)

end Sys2Proof.Machine
end

