-- ==== Sys2Proof/Machine/Sessions.lean ====
section
/-! DEFINITION. Sessions (R29 to R38, R521, R522): opening, the proof of possession of the operator key, closing, the notice mask, and
the freezing of a session. -/

namespace Sys2Proof.Machine

/-! ## Opening (R522) -/

/-- The lowest free session number, if one is free (R29). -/
def State.freeSession (s : State) : Option Nat := ((List.range 16).map fun k => k + 1).find? fun n => s.sessState n == 0

/-- The highest version in a bitmap that the module supports, 0 for none (R37). -/
def State.versionOf (s : State) (bitmap : Nat) : Nat :=
  let c := bitmap &&& s.rd P.CMD_ECP_VERSIONS
  if bit 3 c then 3 else if bit 2 c then 2 else if bit 1 c then 1 else 0

/-- The privilege that a transport grants without proof (R31): ADMIN on PCIe and SPI, OPERATE on MGMT and the NHP tunnel. -/
def freePrivilege (tr : Transport) : Nat := match tr with | .pcie | .spi => 2 | .mgmt | .nhp => 1

/-- Whether SESSION_OPEN needs a proof (R31, R32). -/
def State.needsProof (s : State) (tr : Transport) (priv : Nat) : Bool :=
  decide (freePrivilege tr < priv) && !(s.rd P.SPD_LIFECYCLE == 0 && tr == .spi)

/-- The refusal of a SESSION_OPEN by the tests 2 to 7 of R522, 0 for none. -/
def State.openRefusal (s : State) (tr : Transport) (bitmap priv : Nat) : Nat :=
  let v := s.versionOf bitmap
  if 3 < priv then Status.BAD_VALUE
  else if v = 0 then Status.BAD_VERSION
  else if s.rd P.CMD_CEILING (trCode tr) < priv then Status.PRIVILEGE_VIOLATION
  else if v = 1 ∧ (2 < priv ∨ freePrivilege tr < priv) then Status.PRIVILEGE_VIOLATION
  else if priv = 3 ∧ s.rd P.SPD_LIFECYCLE = 0 ∧ tr ≠ .spi then Status.LIFECYCLE_DENIED
  else if s.freeSession = none then Status.NO_SESSION
  else 0

/-- A session put in place under its number, with its state and privilege shown (R53). -/
def State.addSession (s : State) (x : Session) (q priv : Nat) : State :=
  let t := s.setCmd fun c => { c with sessions := c.sessions ++ [x], nextUid := c.nextUid + 1 }
  ((t.wr P.CMD_SESSION_STATE (x.num - 1) q).wr P.CMD_SESSION_PRIV (x.num - 1) priv).wr P.CMD_SESSION_TRANSPORT (x.num - 1)
    (trCode x.transport)

/-- The payload of an OK reply to SESSION_OPEN. -/
def openPayload (n v : Nat) : List Byte := toBe 2 n ++ toBe 1 v ++ [0]

/-- SESSION_OPEN (R31, R522): the refusal, the open session, or the CHALLENGE with its nonce. -/
def sessionOpen (rq : Request) (s : State) : State :=
  let b := rq.payload
  let v := s.versionOf (beAt 0 1 b)
  let priv := beAt 1 1 b
  let st := s.openRefusal rq.transport (beAt 0 1 b) priv
  let refused : Origin := ⟨0, rq.transport, rq.chan, rq.session.toNat, rq.version.toNat, Op.SESSION_OPEN, rq.tag.toNat⟩
  if st ≠ 0 then s.finishOpen refused st []
  else
    let n := s.freeSession.getD 0
    let u := s.cmd.nextUid
    let o : Origin := { refused with uid := u, session := n, version := v }
    let mask := if rq.transport = .nhp then 0 else beAt 4 8 b
    if s.needsProof rq.transport priv then
      let nonce := toBe 32 (Config.random s.fresh).toNat
      let x : Session := ⟨n, u, rq.transport, rq.chan, v, mask, s.clock, nonce, s.clock + 10000000000, some o, none, [], [], [], 0⟩
      ({ s with fresh := s.fresh + 1 }.addSession x 3 priv).sendPacket rq.transport rq.chan
        (o.packet Status.CHALLENGE false (openPayload n v ++ nonce))
    else
      let x : Session := ⟨n, u, rq.transport, rq.chan, v, mask, s.clock, [], 0, none, none, [], [], [], 0⟩
      (s.addSession x 1 priv).finishOpen o Status.OK (openPayload n v)

/-! ## The proof (R31, R521) -/

/-- Whether a signature proves possession of the operator key for a session in PROVING, in time. -/
def State.proves (s : State) (x : Session) (sig : List Byte) : Bool :=
  decide (s.clock ≤ x.proveBy) &&
    match s.flash.operatorKey with
    | some k => edVerify k (x.nonce ++ toBe 2 x.num) sig
    | none => false

/-- SESSION_PROVE: on a session in PROVING the proof ends; on an open one it is answered PROOF_FAILED and nothing changes. -/
def sessionProve (o : Origin) (b : List Byte) (s : State) : State :=
  match s.sessionUid o.uid with
  | none => s
  | some x =>
    if s.sessState x.num ≠ 3 then s.finish o Status.PROOF_FAILED []
    else if s.proves x b then
      let t := (s.wr P.CMD_SESSION_STATE (x.num - 1) 1).setSession o.uid fun y => { y with opening := none, nonce := [], last := s.clock }
      let t := t.finish o Status.OK []
      match x.opening with
      | some p => t.finishOpen p Status.OK (openPayload x.num x.version)
      | none => t
    else (s.finish o Status.PROOF_FAILED []).closeSession x.num

/-- PROOF_TIMEOUT (R31): no SESSION_PROVE within 10 s of the CHALLENGE. -/
def execProofTimeout (n : Fin 16) (s : State) : Host.Outcome State Fault Refusal :=
  match s.session (n.val + 1) with
  | some x => if s.sessState x.num = 3 ∧ x.proveBy ≤ s.clock then .next (s.closeSession x.num) else .next s
  | none => .next s

/-! ## Closing and the mask (R33, R50) -/

/-- SESSION_CLOSE, after the privilege test (R33). -/
def sessionClose (o : Origin) (b : List Byte) (s : State) : State :=
  let n := beAt 0 2 b
  if n = 0 ∨ 16 < n then s.finish o Status.BAD_VALUE []
  else if s.sessState n = 0 then s.finish o Status.NOT_FOUND []
  else (s.finish o Status.OK []).closeSession n

/-- SESSION_IDLE_TIMEOUT (R33, R36, R521): an open session on which no request has arrived for CMD_SESSION_IDLE. -/
def execSessionIdleTimeout (n : Fin 16) (s : State) : Host.Outcome State Fault Refusal :=
  match s.session (n.val + 1) with
  | some x =>
    let idle := s.rd P.CMD_SESSION_IDLE
    if s.sessState x.num = 1 ∧ idle ≠ 0 ∧ x.last + 1000000000 * idle ≤ s.clock then .next (s.closeSession x.num) else .next s
  | none => .next s

/-- SESSION_SET (R50): a session opened through the tunnel keeps the mask 0 (R421). -/
def sessionSet (o : Origin) (b : List Byte) (s : State) : State :=
  if o.transport = .nhp ∧ beAt 0 8 b ≠ 0 then s.finish o Status.BAD_VALUE []
  else (s.setSession o.uid fun x => { x with mask := beAt 0 8 b }).finish o Status.OK []

/-! ## Freezing (R35) -/

/-- A session is frozen by its request: the violation is recorded and the request answered PRIVILEGE_VIOLATION. -/
def State.freezeSession (s : State) (o : Origin) (addr : Nat) : State :=
  let k := o.session - 1
  let t := (s.wr P.CMD_SESSION_STATE k 2).orIn P.CMD_VIOLATION 0 (2 ^ k)
  let t := ((t.wr P.CMD_VIOL_OPCODE k o.opcode).wr P.CMD_VIOL_ADDR k addr).wr P.CMD_VIOL_TIME k s.now
  t.finish o Status.PRIVILEGE_VIOLATION []

/-! ## SPI reads (R24) -/

/-- SPI_READ_TRANSFER: the oldest waiting packet in the SPI framing, or the sync bytes and 0x0000. A notice whose session has closed
is no longer sent. -/
def State.spiRead (s : State) : List Waiting → State
  | [] => s.emit (.spi [0xEC, 0x9A, 0, 0])
  | w :: rest =>
    let x := (s.setCmd fun c => { c with spi := rest }).takeWaiting w
    if x.2 = [] then x.1.spiRead rest else x.1.emit (.spi (spiFrame x.2))

/-- SPI_READ_TRANSFER (R24, R25). -/
def execSpiReadTransfer (s : State) : Host.Outcome State Fault Refusal :=
  if s.phase = .ready then .next (s.spiRead s.cmd.spi) else .next s

end Sys2Proof.Machine
end

