-- ==== Sys2Proof/Machine/Requests.lean ====
section
/-! DEFINITION. The intake of ECP requests and the order in which they start (R23 to R53): the header tests, the session tests, the
opcode table, the privilege test, and the requests that wait for an earlier one of their session. -/

namespace Sys2Proof.Machine

/-! ## The packet (R26 to R28) -/

/-- Bytes 0 to 13 of a request's header. -/
def requestHead (rq : Request) (op : Nat) : List Byte :=
  toBe 1 rq.version.toNat ++ toBe 1 rq.flags.toNat ++ toBe 2 op ++ toBe 4 rq.tag.toNat ++ toBe 2 rq.session.toNat ++
    toBe 2 rq.len.toNat ++ toBe 2 rq.status.toNat

/-- The header check passes (R27): the eight words sum to 0xFFFF. -/
def headerChecks (rq : Request) (op : Nat) : Bool := onesSum (requestHead rq op ++ toBe 2 rq.check.toNat) == 0xFFFF

/-- The payload length agrees with the frame and its limit (R28). -/
def lengthFits (rq : Request) : Bool := rq.payload.length == rq.len.toNat && decide (rq.len.toNat ≤ 4080)

/-- A packet read from a transport's frame. -/
def requestOf (tr : Transport) (chan : Nat) (b : List Byte) : Nat × Request :=
  (beAt 2 2 b, ⟨tr, chan, BitVec.ofNat 8 (beAt 0 1 b), BitVec.ofNat 8 (beAt 1 1 b), BitVec.ofNat 32 (beAt 4 4 b),
    BitVec.ofNat 16 (beAt 8 2 b), BitVec.ofNat 16 (beAt 10 2 b), BitVec.ofNat 16 (beAt 12 2 b), BitVec.ofNat 16 (beAt 14 2 b),
    b.drop 16⟩)

/-! ## The opcode table (R51) -/

/-- A row of the opcode table: the number, the first version, the privilege, whether a payload has a length the opcode takes, and what
the opcode does once started. PARAM_WRITE, PARAM_COMMIT and SESSION_CLOSE have privilege tests of their own. -/
structure OpRow where
  num : Nat
  since : Nat
  priv : Nat
  sized : List Byte → Bool
  body : Origin → List Byte → State → State

/-- A payload of `n` bytes. -/
def size (n : Nat) (b : List Byte) : Bool := b.length == n

/-- A payload of 1 to `most` records of `w` bytes. -/
def sizeRecords (w most : Nat) (b : List Byte) : Bool :=
  b.length % w == 0 && decide (w ≤ b.length ∧ b.length ≤ w * most)

/-- The payload of PARAM_READ: 1 to 64 entries that name at most 510 values (R45). -/
def sizeRead (b : List Byte) : Bool :=
  sizeRecords 8 64 b && decide (((readEntries b).map ReadEntry.count).foldl (· + ·) 0 ≤ 510)

/-- The payload of TBL_STREAM_WRITE: the entry that fills, or as many entries as are written (R307). -/
def sizeStream (b : List Byte) : Bool :=
  decide (8 ≤ b.length) && ((!bit 0 (beAt 4 1 b) && beAt 2 2 b == 0) ||
    b.length == 8 + 8 * (if bit 0 (beAt 4 1 b) then 1 else beAt 2 2 b))

/-- The payload of HIE_FANOUT: the field header, the list of selector 0, and the packet (R422). -/
def sizeFanout (b : List Byte) : Bool :=
  decide (8 ≤ b.length ∧ (beAt 0 1 b = 0 → 8 + 2 * beAt 2 2 b ≤ b.length))

/-- SYS_INFO (R518). -/
def sysInfo (o : Origin) (_b : List Byte) (s : State) : State :=
  s.finish o Status.OK
    (toBe 2 (s.rd P.SYS_PRODUCT) ++ toBe 1 (s.rd P.SYS_ISSUE) ++ toBe 1 (s.rd P.SPD_LIFECYCLE) ++ toBe 4 (s.rd P.SYS_FW_VERSION) ++
      toBe 8 (s.rd P.SYS_SERIAL) ++ toBe 8 (s.rd P.HIE_IDENTITY) ++ toBe 1 (s.rd P.CMD_ECP_VERSIONS) ++ toBe 1 (s.rd P.HIE_VERSIONS) ++
      toBe 1 (s.rd P.HST_FORMATS) ++ toBe 1 (s.rd P.PWR_BOOT_SLOT) ++ toBe 2 (s.rd P.SYS_PARAM_COUNT) ++ zeros 2)

/-- The opcodes that a session's requests start; SESSION_OPEN belongs to no session and NOTICE is sent by the module only. -/
def opTable : List OpRow :=
  [⟨Op.SESSION_PROVE, 2, 0, size 64, sessionProve⟩,
   ⟨Op.SESSION_CLOSE, 1, 0, size 2, sessionClose⟩,
   ⟨Op.SESSION_SET, 2, 0, size 8, sessionSet⟩,
   ⟨Op.PARAM_READ, 1, 0, sizeRead, paramRead⟩,
   ⟨Op.PARAM_WRITE, 1, 0, sizeRecords 16 255, paramWrite⟩,
   ⟨Op.PARAM_COMMIT, 1, 0, size 12, paramCommit⟩,
   ⟨Op.SYS_INFO, 1, 0, size 0, sysInfo⟩,
   ⟨Op.FABRIC_ENABLE, 2, 1, size 0, fabricEnable⟩,
   ⟨Op.FABRIC_DISABLE, 2, 1, size 0, fabricDisable⟩,
   ⟨Op.TBL_SEARCH, 1, 0, size 12, tblSearch⟩,
   ⟨Op.TBL_NEXT, 1, 0, size 8, tblNext⟩,
   ⟨Op.TBL_INSERT, 1, 1, size 28, tblInsert⟩,
   ⟨Op.TBL_DELETE, 1, 1, size 12, tblDelete⟩,
   ⟨Op.TBL_FLUSH_PORT, 1, 1, size 8, tblFlushPort⟩,
   ⟨Op.TBL_REHASH, 2, 1, size 8, tblRehash⟩,
   ⟨Op.TBL_STREAM_WRITE, 2, 1, sizeStream, tblStreamWrite⟩,
   ⟨Op.TBL_CLEAR_FLAP, 2, 1, size 12, tblClearFlap⟩,
   ⟨Op.REF_ACCEPT, 3, 2, size 4, refAccept⟩,
   ⟨Op.CORE_SWITCH, 2, 2, size 4, coreSwitch⟩,
   ⟨Op.CORE_HEALTH, 2, 0, size 4, coreHealth⟩,
   ⟨Op.GNS_SNAPSHOT, 3, 1, size 12, gnsSnapshot⟩,
   ⟨Op.EVT_STATS, 2, 0, size 4, evtStats⟩,
   ⟨Op.CAL_RUN, 2, 2, size 8, calRun⟩,
   ⟨Op.LAN_SLIP, 2, 1, size 4, lanSlip⟩,
   ⟨Op.SYN_APPLY, 2, 1, size 16, synApply⟩,
   ⟨Op.LASER_SWAP, 3, 2, size 16, laserSwap⟩,
   ⟨Op.LOG_KEY_PUBLIC, 3, 0, size 0, logKeyPublic⟩,
   ⟨Op.LIFECYCLE_SET, 3, 3, size 36, lifecycleSet⟩,
   ⟨Op.MASTER_RELEASE, 2, 2, size 4, masterRelease⟩,
   ⟨Op.HIE_TUNNEL, 2, 2, fun b => decide (8 ≤ b.length), hieTunnel⟩,
   ⟨Op.HIE_FANOUT, 3, 2, sizeFanout, hieFanout⟩,
   ⟨Op.HIE_REGISTRY_READ, 2, 0, size 8, hieRegistryRead⟩,
   ⟨Op.SHUTTER_ENTER, 2, 2, size 0, shutterEnter⟩,
   ⟨Op.SHUTTER_LEAVE, 2, 2, size 0, shutterLeave⟩,
   ⟨Op.STICKY_CLEAR, 1, 2, size 8, stickyClear⟩,
   ⟨Op.WEAR_GET, 2, 0, size 4, wearGet⟩,
   ⟨Op.FAULT_READ, 2, 0, size 0, faultRead⟩,
   ⟨Op.OBS_SNAPSHOT, 2, 1, size 16, obsSnapshot⟩,
   ⟨Op.OBS_FREEZE, 1, 1, size 4, obsFreeze⟩,
   ⟨Op.OBS_TRACE_READ, 2, 0, size 16, obsTraceRead⟩,
   ⟨Op.QUEUE_CREATE, 1, 1, size 20, queueCreate⟩,
   ⟨Op.QUEUE_DESTROY, 1, 1, size 4, queueDestroy⟩]

/-- The row of an opcode number. -/
def opRow (op : Nat) : Option OpRow := opTable.find? fun r => r.num == op

/-! ## Intake (R27, R28, R35, R38, R40, R41, R521, R522) -/

/-- What the intake makes of a request: nothing, a refusal with the version its reply carries, the stored reply sent again, a
SESSION_OPEN to be tested, or a request of a session that is to be started. -/
inductive Verdict where
  | ignore
  | refuse (status version : Nat)
  | resend (p : Packet)
  | opens
  | take (x : Session)
  deriving DecidableEq, Repr

/-- Whether a request is a SESSION_CLOSE that names its own session. -/
def closesSelf (rq : Request) (op : Nat) : Bool :=
  op == Op.SESSION_CLOSE && rq.payload.length == 2 && beAt 0 2 rq.payload == rq.session.toNat

/-- The session that a request belongs to, if it is open on the transport and serves the request (R521). -/
def State.serving (s : State) (op : Nat) (rq : Request) : Option Session :=
  match s.session rq.session.toNat with
  | some x =>
    if x.transport = rq.transport ∧ (s.sessState x.num ≠ 3 ∨ op = Op.SESSION_PROVE ∨ closesSelf rq op) then some x else none
  | none => none

/-- The tags of a session's requests that have received neither ACCEPTED nor a final reply (R40). -/
def Session.outstanding (x : Session) : List Nat := x.blocked.toList ++ x.backlog.map fun h => h.rq.tag.toNat

/-- The tags that are in use on a session (R40): with those, that of the SESSION_OPEN that waits for its proof (R31). -/
def Session.tagsInUse (x : Session) : List Nat := (x.opening.map Origin.tag).toList ++ x.outstanding

/-- The intake tests of a session's request, in order. -/
def State.sessionIntake (s : State) (x : Session) (op : Nat) (rq : Request) : Verdict :=
  if rq.version.toNat ≠ x.version then .refuse Status.BAD_VERSION x.version
  else if s.sessState x.num = 2 ∧ ¬ closesSelf rq op then .refuse Status.SESSION_FROZEN x.version
  else
    match opRow op with
    | none => .refuse Status.UNKNOWN_OPCODE x.version
    | some r =>
      if x.version < r.since then .refuse Status.UNKNOWN_OPCODE x.version
      else if ¬ r.sized rq.payload then .refuse Status.BAD_LENGTH x.version
      else if x.tagsInUse.contains rq.tag.toNat then .refuse Status.TAG_IN_USE x.version
      else if s.rd P.CMD_MAX_OUTSTANDING ≤ x.outstanding.length then .refuse Status.BUSY x.version
      else
        match x.replies.find? fun y => y.tag == rq.tag.toNat && y.op == op with
        | some y => .resend y.pkt
        | none => .take x

/-- The intake of a request. -/
def State.intake (s : State) (op : Nat) (rq : Request) : Verdict :=
  let refuse (st : Nat) : Verdict := .refuse st rq.version.toNat
  if s.phase ≠ .ready then .ignore
  else if rq.transport = .mgmt ∧ ¬ s.rdb P.CMD_MGMT_ENABLE then .ignore
  else if ¬ headerChecks rq op then
    if (rq.transport = .spi ∨ rq.transport = .mgmt) ∧ 16 < rq.session.toNat then .ignore else refuse Status.BAD_CHECK
  else if op = Op.SESSION_OPEN then
    if rq.version ≠ 1 then refuse Status.BAD_VERSION
    else if ¬ lengthFits rq ∨ rq.payload.length ≠ 12 then refuse Status.BAD_LENGTH
    else .opens
  else if ¬ lengthFits rq then refuse Status.BAD_LENGTH
  else
    match s.serving op rq with
    | none => refuse Status.BAD_SESSION
    | some x => s.sessionIntake x op rq

/-! ## Starting (R35, R39, R42, R395) -/

/-- The privilege breach of a request of a session, with the parameter address that the record names (R33, R34, R35). -/
def State.breach (s : State) (x : Session) (op : Nat) (b : List Byte) : Option Nat :=
  let priv := s.sessPriv x.num
  if op = Op.PARAM_WRITE then
    ((writeEntries b).find? fun e => match writeNeeds e.addr with | some n => decide (priv < n) | none => false).map WriteEntry.addr
  else if op = Op.PARAM_COMMIT then
    let k := beAt 0 1 b
    if blockNumbers.contains k ∧ priv < writePrivilege k then some (Config.commitAddr k).toNat else none
  else if op = Op.SESSION_CLOSE then
    let n := beAt 0 2 b
    if 0 < n ∧ n ≤ 16 ∧ n ≠ x.num ∧ priv < 2 then some 0 else none
  else
    match opRow op with
    | some r => if priv < r.priv then some 0 else none
    | none => none

/-- Whether the fast path answers a request (R42). -/
def fastPath (op : Nat) (rq : Request) : Bool :=
  (rq.transport == .pcie || rq.transport == .spi) &&
    ((op == Op.PARAM_READ && fastAddresses ((readEntries rq.payload).map ReadEntry.addr)) ||
      (op == Op.PARAM_WRITE && fastAddresses ((writeEntries rq.payload).map WriteEntry.addr)))

/-- Whether the firmware core that serves an opcode is frozen (R395). -/
def State.coreFrozen (s : State) (op : Nat) : Bool :=
  s.frozenMaster (8 + (Config.servedBy op).val)

/-- What a started request does: its opcode's effect, on the fast path or by firmware. -/
def State.perform (s : State) (o : Origin) (op : Nat) (rq : Request) : State :=
  match opRow op with
  | none => s
  | some r =>
    if fastPath op rq then r.body o rq.payload (s.count P.CMD_FASTPATH_COUNT)
    else if s.coreFrozen op then s.failInternal o
    else r.body o rq.payload s

/-- The source of a request of a session. -/
def originOf (x : Session) (op : Nat) (rq : Request) : Origin :=
  ⟨x.uid, rq.transport, rq.chan, x.num, x.version, op, rq.tag.toNat⟩

/-- A request starts (R39): one that waited while its session froze is refused, a privilege breach freezes the session, and any other
has its effect. -/
def State.start (s : State) (x : Session) (op : Nat) (rq : Request) : State :=
  let o := originOf x op rq
  if s.sessState x.num = 2 ∧ ¬ closesSelf rq op then s.sendPacket o.transport o.chan (o.packet Status.SESSION_FROZEN true [])
  else
    let t := s.setSession x.uid fun y => { y with blocked := some rq.tag.toNat }
    match s.breach x op rq.payload with
    | some addr => t.freezeSession o addr
    | none => t.perform o op rq

/-- A request that has passed intake counts as started for R41; it goes on at once, or waits behind one of its session (R39). -/
def State.admitRequest (s : State) (x : Session) (op : Nat) (rq : Request) : State :=
  let t := s.setSession x.uid fun y => y.noteStart rq.tag.toNat op
  if x.blocked.isSome ∨ x.backlog ≠ [] then
    (t.setSession x.uid fun y => { y with backlog := y.backlog ++ [⟨op, rq, s.cmd.arrivals⟩] }).setCmd fun c =>
      { c with arrivals := c.arrivals + 1 }
  else t.start x op rq

/-- A refusal at intake: the tag and the session field come back as received, and the reply is not kept (R27, R41). -/
def State.refuseIntake (s : State) (op : Nat) (rq : Request) (status version : Nat) : State :=
  s.sendPacket rq.transport rq.chan
    ⟨version, replyFlags rq.transport true, op, rq.tag.toNat, rq.session.toNat, status, []⟩

/-- The arrival of a request counts for its session's idle timer (R33). A request whose header or length fails is none of the session:
DEDUCED, assumption 17. -/
def State.touch (s : State) (op : Nat) (rq : Request) : State :=
  match s.serving op rq with
  | some x => if headerChecks rq op && lengthFits rq then s.setSession x.uid fun y => { y with last := s.clock } else s
  | none => s

/-- A request received by the command engine. -/
def State.process (s : State) (op : Nat) (rq : Request) : State :=
  match s.intake op rq with
  | .ignore => s
  | .refuse st v => (s.touch op rq).refuseIntake op rq st v
  | .resend p => ((s.touch op rq).count P.CMD_DUP_COUNT).sendPacket rq.transport rq.chan p
  | .opens => sessionOpen rq s
  | .take x => (s.touch op rq).admitRequest x op rq

/-! ## Request rings (R468, R480) -/

/-- Whether the module reads the next request of ring `n` now: master 4 is not frozen, and fewer than 64 packets wait for the pair. -/
def State.readsRing (s : State) (n : Nat) : Bool :=
  !s.frozenMaster 4 && decide ((s.cmd.mbx.filter fun w => w.1 == n).length < 64)

/-- The slot of a request of ring `n` is consumed. -/
def State.consume (s : State) (n : Nat) : State :=
  match s.ring (160 + n) with
  | some r => (s.setRing (160 + n) fun r => { r with cons := advance r.cons 1 }).writeIndex (160 + n) (advance r.cons 1)
  | none => s

/-- The requests of ring `n` that are left unread. -/
def State.unreadOf (s : State) (n : Nat) : Nat := (s.cmd.unread.filter fun h => h.rq.chan == n).length

/-- A packet in the next slot of a request ring: read at once, or left in the ring. Without the ring, the link or a slot that the host has
filled there is no packet. -/
def State.fromRing (s : State) (op : Nat) (rq : Request) : State :=
  let n := rq.chan
  match s.ring (160 + n) with
  | some r =>
    if 3 < n ∨ ¬ s.linkUp ∨ s.phase ≠ .ready ∨ s.rd P.HST_RING_STATE (160 + n) ≠ 1 ∨ inUse r.prod r.cons ≤ s.unreadOf n then s
    else if s.unreadOf n = 0 ∧ s.readsRing n then (s.consume n).process op rq
    else s.setCmd fun c => { c with unread := c.unread ++ [⟨op, rq, 0⟩] }
  | none => s

/-! ## What waits -/

/-- The request of a session that can start: the first that waits, once the earlier ones are answered. -/
def Session.ready (x : Session) : Option (Session × Held) :=
  match x.blocked, x.backlog with
  | none, h :: _ => some (x, h)
  | _, _ => none

/-- Of two waiting requests the one that reached the command engine first. -/
def earlier : Option (Session × Held) → Option (Session × Held) → Option (Session × Held)
  | some a, some b => if b.2.num < a.2.num then some b else some a
  | a, b => a.or b

/-- The request to start next: of those that can, the one that reached the command engine first (R39). -/
def State.runnable (s : State) : Option (Session × Held) := (s.cmd.sessions.map Session.ready).foldl earlier none

/-- The first unread request that can be read. -/
def State.readable (s : State) : Option Held := s.cmd.unread.find? fun h => s.readsRing h.rq.chan

/-- Requests that wait are started, and unread ones read, for as long as one can be, at most `n` of them. -/
def State.pump (s : State) : Nat → State
  | 0 => s
  | n + 1 =>
    match s.runnable with
    | some (x, h) => ((s.setSession x.uid fun y => { y with backlog := y.backlog.drop 1 }).start x h.op h.rq).pump n
    | none =>
      match s.readable with
      | some h => (((s.setCmd fun c => { c with unread := c.unread.erase h }).consume h.rq.chan).process h.op h.rq).pump n
      | none => s

/-- Everything that waits and can go on, once a command has had its effect: packets into their reply rings, then requests. -/
def State.settle (s : State) : State :=
  let t := s.mbxRun
  t.pump ((t.cmd.sessions.map fun x => x.backlog.length).foldl (· + ·) 0 + 2 * t.cmd.unread.length)

/-- A request packet arrives on its transport (R23). -/
def State.arrive (s : State) (op : Nat) (rq : Request) : State :=
  (if rq.transport = .pcie then s.fromRing op rq else s.process op rq).settle

end Sys2Proof.Machine
end

