-- ==== Sys2Proof/Machine/Ecp.lean ====
section
/-! DEFINITION. The rows of the table that are ECP requests (R51): each is the arrival of its packet, which goes through the intake and,
once its session's turn has come, has its opcode's effect. -/

namespace Sys2Proof.Machine

/-! ## Opcodes -/

/-- SESSION_OPEN (R522): request to open an ECP session: tested in the R522 order, given the lowest free number, and answered OK or
CHALLENGE. -/
def execSessionOpen (rq : Request) (s : State) : Host.Outcome State Fault Refusal := .next (s.arrive Op.SESSION_OPEN rq)

/-- SESSION_PROVE (R31): ed25519 proof for a session in PROVING: opens the session or frees its number, then sends the final reply
to the SESSION_OPEN. -/
def execSessionProve (rq : Request) (s : State) : Host.Outcome State Fault Refusal := .next (s.arrive Op.SESSION_PROVE rq)

/-- SESSION_CLOSE (R33): closes the sender's own session or, from ADMIN and above, another named session. -/
def execSessionClose (rq : Request) (s : State) : Host.Outcome State Fault Refusal := .next (s.arrive Op.SESSION_CLOSE rq)

/-- SESSION_SET (R50): changes the notice mask of the session. -/
def execSessionSet (rq : Request) (s : State) : Host.Outcome State Fault Refusal := .next (s.arrive Op.SESSION_SET rq)

/-- PARAM_READ (R45): reads 1 to 64 entries of parameter values or shadows. -/
def execParamRead (rq : Request) (s : State) : Host.Outcome State Fault Refusal := .next (s.arrive Op.PARAM_READ rq)

/-- PARAM_WRITE (R46): writes parameters that have no row of their own: checks every entry, then applies all of them or none. -/
def execParamWrite (rq : Request) (s : State) : Host.Outcome State Fault Refusal := .next (s.arrive Op.PARAM_WRITE rq)

/-- SYS_INFO (R518): returns the 32-byte identity reply. -/
def execSysInfo (rq : Request) (s : State) : Host.Outcome State Fault Refusal := .next (s.arrive Op.SYS_INFO rq)

/-- FABRIC_ENABLE (R245): starts the fabric from DISABLED or DRAINING. -/
def execFabricEnable (rq : Request) (s : State) : Host.Outcome State Fault Refusal := .next (s.arrive Op.FABRIC_ENABLE rq)

/-- FABRIC_DISABLE (R245): sends a RUNNING fabric to DRAINING. -/
def execFabricDisable (rq : Request) (s : State) : Host.Outcome State Fault Refusal := .next (s.arrive Op.FABRIC_DISABLE rq)

/-- TBL_SEARCH (R299): looks up a MAC or Stream key in the masked reaches. -/
def execTblSearch (rq : Request) (s : State) : Host.Outcome State Fault Refusal := .next (s.arrive Op.TBL_SEARCH rq)

/-- TBL_NEXT (R301): returns table entries from a cursor as one atomic read. -/
def execTblNext (rq : Request) (s : State) : Host.Outcome State Fault Refusal := .next (s.arrive Op.TBL_NEXT rq)

/-- TBL_INSERT (R300): writes or places a MAC entry in each masked reach. -/
def execTblInsert (rq : Request) (s : State) : Host.Outcome State Fault Refusal := .next (s.arrive Op.TBL_INSERT rq)

/-- TBL_DELETE (R299): removes a key from the masked reaches and waits for the drain fence. -/
def execTblDelete (rq : Request) (s : State) : Host.Outcome State Fault Refusal := .next (s.arrive Op.TBL_DELETE rq)

/-- TBL_FLUSH_PORT (R302): starts a walk that removes the entries of a port in the masked reaches. -/
def execTblFlushPort (rq : Request) (s : State) : Host.Outcome State Fault Refusal := .next (s.arrive Op.TBL_FLUSH_PORT rq)

/-- TBL_REHASH (R306): starts or resumes a rebuild of a reach's MAC table under a new seed. -/
def execTblRehash (rq : Request) (s : State) : Host.Outcome State Fault Refusal := .next (s.arrive Op.TBL_REHASH rq)

/-- TBL_STREAM_WRITE (R287): writes Stream table entries in all eight reaches. -/
def execTblStreamWrite (rq : Request) (s : State) : Host.Outcome State Fault Refusal := .next (s.arrive Op.TBL_STREAM_WRITE rq)

/-- TBL_CLEAR_FLAP (R299): clears the FLAPPING pin of an entry. -/
def execTblClearFlap (rq : Request) (s : State) : Host.Outcome State Fault Refusal := .next (s.arrive Op.TBL_CLEAR_FLAP rq)

/-- REF_ACCEPT (R137): makes a HELD reference QUALIFIED. -/
def execRefAccept (rq : Request) (s : State) : Host.Outcome State Fault Refusal := .next (s.arrive Op.REF_ACCEPT rq)

/-- CORE_SWITCH (R164): commands a switch-over to the named core. -/
def execCoreSwitch (rq : Request) (s : State) : Host.Outcome State Fault Refusal := .next (s.arrive Op.CORE_SWITCH rq)

/-- CORE_HEALTH (R162): returns the health report of a core. -/
def execCoreHealth (rq : Request) (s : State) : Host.Outcome State Fault Refusal := .next (s.arrive Op.CORE_HEALTH rq)

/-- GNS_SNAPSHOT (R190): starts a raw-sample capture of the GNSS bands. -/
def execGnsSnapshot (rq : Request) (s : State) : Host.Outcome State Fault Refusal := .next (s.arrive Op.GNS_SNAPSHOT rq)

/-- EVT_STATS (R206): returns the statistics of an accumulator and optionally restarts it. -/
def execEvtStats (rq : Request) (s : State) : Host.Outcome State Fault Refusal := .next (s.arrive Op.EVT_STATS rq)

/-- CAL_RUN (R216): starts a calibration run of the given scope. -/
def execCalRun (rq : Request) (s : State) : Host.Outcome State Fault Refusal := .next (s.arrive Op.CAL_RUN rq)

/-- LAN_SLIP (R366): slips a lane's word boundary on a SLIP_MANUAL quad. -/
def execLanSlip (rq : Request) (s : State) : Host.Outcome State Fault Refusal := .next (s.arrive Op.LAN_SLIP rq)

/-- SYN_APPLY (R373): applies output synthesizer shadows now or at a scheduled instant. -/
def execSynApply (rq : Request) (s : State) : Host.Outcome State Fault Refusal := .next (s.arrive Op.SYN_APPLY rq)

/-- LASER_SWAP (R369): requests a planned swap to the spare laser of an engine. -/
def execLaserSwap (rq : Request) (s : State) : Host.Outcome State Fault Refusal := .next (s.arrive Op.LASER_SWAP rq)

/-- LOG_KEY_PUBLIC (R352): returns the logbook public key and its serial. -/
def execLogKeyPublic (rq : Request) (s : State) : Host.Outcome State Fault Refusal := .next (s.arrive Op.LOG_KEY_PUBLIC rq)

/-- LIFECYCLE_SET (R397): changes the life-cycle state with a wipe of bank 31. -/
def execLifecycleSet (rq : Request) (s : State) : Host.Outcome State Fault Refusal := .next (s.arrive Op.LIFECYCLE_SET rq)

/-- MASTER_RELEASE (R36): returns a frozen session or scratchpad master to service. -/
def execMasterRelease (rq : Request) (s : State) : Host.Outcome State Fault Refusal := .next (s.arrive Op.MASTER_RELEASE rq)

/-- HIE_TUNNEL (R420): sends an ECP packet to a worker through the NHP tunnel. -/
def execHieTunnel (rq : Request) (s : State) : Host.Outcome State Fault Refusal := .next (s.arrive Op.HIE_TUNNEL rq)

/-- HIE_FANOUT (R422): sends an ECP packet to a set of workers. -/
def execHieFanout (rq : Request) (s : State) : Host.Outcome State Fault Refusal := .next (s.arrive Op.HIE_FANOUT rq)

/-- HIE_REGISTRY_READ (R417): returns registry entries from a cursor. -/
def execHieRegistryRead (rq : Request) (s : State) : Host.Outcome State Fault Refusal := .next (s.arrive Op.HIE_REGISTRY_READ rq)

/-- SHUTTER_ENTER (R439): adds the COMMAND cause and enters shutter mode. -/
def execShutterEnter (rq : Request) (s : State) : Host.Outcome State Fault Refusal := .next (s.arrive Op.SHUTTER_ENTER rq)

/-- SHUTTER_LEAVE (R439): clears COMMAND and requests the switching domains when no other cause remains. -/
def execShutterLeave (rq : Request) (s : State) : Host.Outcome State Fault Refusal := .next (s.arrive Op.SHUTTER_LEAVE rq)

/-- STICKY_CLEAR (R443): clears sticky fault bits and optionally the first-fault record. -/
def execStickyClear (rq : Request) (s : State) : Host.Outcome State Fault Refusal := .next (s.arrive Op.STICKY_CLEAR rq)

/-- WEAR_GET (R445): returns the wear prediction of an object. -/
def execWearGet (rq : Request) (s : State) : Host.Outcome State Fault Refusal := .next (s.arrive Op.WEAR_GET rq)

/-- FAULT_READ (R442): returns the first-fault record. -/
def execFaultRead (rq : Request) (s : State) : Host.Outcome State Fault Refusal := .next (s.arrive Op.FAULT_READ rq)

/-- OBS_SNAPSHOT (R454): copies the counter set into the snapshot bank now or at a scheduled instant. -/
def execObsSnapshot (rq : Request) (s : State) : Host.Outcome State Fault Refusal := .next (s.arrive Op.OBS_SNAPSHOT rq)

/-- OBS_FREEZE (R453): freezes the counter set or runs it again. -/
def execObsFreeze (rq : Request) (s : State) : Host.Outcome State Fault Refusal := .next (s.arrive Op.OBS_FREEZE rq)

/-- OBS_TRACE_READ (R462): returns trace records from a cursor. -/
def execObsTraceRead (rq : Request) (s : State) : Host.Outcome State Fault Refusal := .next (s.arrive Op.OBS_TRACE_READ rq)

/-- QUEUE_CREATE (R470): creates a host ring. -/
def execQueueCreate (rq : Request) (s : State) : Host.Outcome State Fault Refusal := .next (s.arrive Op.QUEUE_CREATE rq)

/-- QUEUE_DESTROY (R471): stops and removes a host ring. -/
def execQueueDestroy (rq : Request) (s : State) : Host.Outcome State Fault Refusal := .next (s.arrive Op.QUEUE_DESTROY rq)

/-- UNKNOWN_OPCODE (R51): A request with an opcode number not in the table is answered UNKNOWN_OPCODE. -/
def execUnknownOpcode (op : BitVec 16) (rq : Request) (s : State) : Host.Outcome State Fault Refusal :=
  .next (s.arrive op.toNat rq)

/-! ## Writes of one parameter -/

/-- The request whose payload is one PARAM_WRITE entry. -/
def oneEntry (base : Nat) (index : BitVec 16) (value : BitVec 64) (rq : Request) : Request :=
  { rq with payload := WriteEntry.bytes ⟨base, index.toNat, value.toNat⟩ }

/-- LCK_SWAP_TIME_WRITE (R330): writing LCK_SWAP_TIME arms, replaces or cancels a slot-table bank swap of a port. -/
def execLckSwapTimeWrite (rq : Request) (index : BitVec 16) (value : BitVec 64) (s : State) :
    Host.Outcome State Fault Refusal :=
  .next (s.arrive Op.PARAM_WRITE (oneEntry P.LCK_SWAP_TIME index value rq))

/-- LCK_ADM_ENTRY_WRITE (R329): writes an administrative slot-table entry of the port selected by the session's LCK_SEL_PORT; held
during COPYING. -/
def execLckAdmEntryWrite (rq : Request) (index : BitVec 16) (value : BitVec 64) (s : State) :
    Host.Outcome State Fault Refusal :=
  .next (s.arrive Op.PARAM_WRITE (oneEntry P.LCK_ADM_ENTRY index value rq))

/-- OBS_TAG_SEED_WRITE (R458): loads each reach's LFSR with the seed XOR the reach number. -/
def execObsTagSeedWrite (rq : Request) (index : BitVec 16) (value : BitVec 64) (s : State) :
    Host.Outcome State Fault Refusal :=
  .next (s.arrive Op.PARAM_WRITE (oneEntry P.OBS_TAG_SEED index value rq))

/-- SPD_TAMPER_SRC_CLEAR (R401): W1C write of tamper source bits from a SECURITY session; a bit whose source is still active stays
set. -/
def execSpdTamperSrcClear (rq : Request) (index : BitVec 16) (value : BitVec 64) (s : State) :
    Host.Outcome State Fault Refusal :=
  .next (s.arrive Op.PARAM_WRITE (oneEntry P.SPD_TAMPER_SRC index value rq))

/-- GNS_ANT_BIAS_WRITE (R173): sets the antenna bias and restores a bias that was removed after a SHORT. -/
def execGnsAntBiasWrite (rq : Request) (index : BitVec 16) (value : BitVec 64) (s : State) :
    Host.Outcome State Fault Refusal :=
  .next (s.arrive Op.PARAM_WRITE (oneEntry P.GNS_ANT_BIAS index value rq))

/-- CMD_MGMT_ENABLE_WRITE (R53): turns the MGMT transport on or off and stops or starts block CMD. -/
def execCmdMgmtEnableWrite (rq : Request) (index : BitVec 16) (value : BitVec 64) (s : State) :
    Host.Outcome State Fault Refusal :=
  .next (s.arrive Op.PARAM_WRITE (oneEntry P.CMD_MGMT_ENABLE index value rq))

/-! ## Commits -/

/-- The request with the block number before the rest of its payload (R48). -/
def blockCommit (block : Nat) (rq : Request) : Request := { rq with payload := toBe 1 block ++ rq.payload }

/-- FAB_COMMIT (R243): commit of block FAB applies FAB_PACE and sets FAB_VCORE_TARGET, which opens a VCORE transition. -/
def execFabCommit (rq : Request) (s : State) : Host.Outcome State Fault Refusal :=
  .next (s.arrive Op.PARAM_COMMIT (blockCommit 0x10 rq))

/-- PRT_COMMIT (R250): commit of block PRT rebuilds ports after validation; changed lanes retrain through the wake sequencer. -/
def execPrtCommit (rq : Request) (s : State) : Host.Outcome State Fault Refusal :=
  .next (s.arrive Op.PARAM_COMMIT (blockCommit 0x11 rq))

/-- TBL_COMMIT (R308): commit of block TBL applies port groups and PVIDs to later frames. -/
def execTblCommit (rq : Request) (s : State) : Host.Outcome State Fault Refusal :=
  .next (s.arrive Op.PARAM_COMMIT (blockCommit 0x13 rq))

/-- LCK_COMMIT (R320): commit of block LCK applies the fibre compensation shadows at one tick. -/
def execLckCommit (rq : Request) (s : State) : Host.Outcome State Fault Refusal :=
  .next (s.arrive Op.PARAM_COMMIT (blockCommit 0x14 rq))

/-- TBS_COMMIT (R57): commit of block TBS applies timebase shadows and accepts a pending set of TBS_SET_SEC in FREERUN. -/
def execTbsCommit (rq : Request) (s : State) : Host.Outcome State Fault Refusal :=
  .next (s.arrive Op.PARAM_COMMIT (blockCommit 0x20 rq))

/-- LNK_COMMIT (R90): commit of block LNK applies classes, roles and asymmetry; class changes retrain the quad. -/
def execLnkCommit (rq : Request) (s : State) : Host.Outcome State Fault Refusal :=
  .next (s.arrive Op.PARAM_COMMIT (blockCommit 0x21 rq))

/-- REF_COMMIT (R141): commit of block REF applies servo bandwidths, LINK ports and external modes. -/
def execRefCommit (rq : Request) (s : State) : Host.Outcome State Fault Refusal :=
  .next (s.arrive Op.PARAM_COMMIT (blockCommit 0x22 rq))

/-- COR_COMMIT (R159): commit of block COR applies the cross-lock bandwidth. -/
def execCorCommit (rq : Request) (s : State) : Host.Outcome State Fault Refusal :=
  .next (s.arrive Op.PARAM_COMMIT (blockCommit 0x23 rq))

/-- GNS_COMMIT (R181): commit of block GNS applies enable, position mode and fixed coordinates from the next second. -/
def execGnsCommit (rq : Request) (s : State) : Host.Outcome State Fault Refusal :=
  .next (s.arrive Op.PARAM_COMMIT (blockCommit 0x24 rq))

/-- EVT_COMMIT (R204): commit of block EVT clears and restarts changed statistics accumulators. -/
def execEvtCommit (rq : Request) (s : State) : Host.Outcome State Fault Refusal :=
  .next (s.arrive Op.PARAM_COMMIT (blockCommit 0x25 rq))

/-- LAN_COMMIT (R357): commit of block LAN applies rates, alignment, free references and enables, with retrains and family changes.
-/
def execLanCommit (rq : Request) (s : State) : Host.Outcome State Fault Refusal :=
  .next (s.arrive Op.PARAM_COMMIT (blockCommit 0x30 rq))

/-- SYN_COMMIT (R372): commit of block SYN acts as SYN_APPLY with mask 0x0F. -/
def execSynCommit (rq : Request) (s : State) : Host.Outcome State Fault Refusal :=
  .next (s.arrive Op.PARAM_COMMIT (blockCommit 0x31 rq))

/-- LOG_COMMIT (R345): commit of block LOG applies the seal interval, channel enables and rings. -/
def execLogCommit (rq : Request) (s : State) : Host.Outcome State Fault Refusal :=
  .next (s.arrive Op.PARAM_COMMIT (blockCommit 0x40 rq))

/-- ARB_COMMIT (R392): commit of block ARB applies priorities, quotas and window to the weir. -/
def execArbCommit (rq : Request) (s : State) : Host.Outcome State Fault Refusal :=
  .next (s.arrive Op.PARAM_COMMIT (blockCommit 0x42 rq))

/-- HIE_COMMIT (R412): commit of block HIE applies preferred parent ports and NHP port enables. -/
def execHieCommit (rq : Request) (s : State) : Host.Outcome State Fault Refusal :=
  .next (s.arrive Op.PARAM_COMMIT (blockCommit 0x50 rq))

/-- HST_COMMIT (R480): commit of block HST applies mailbox bases and sizes and resets changed pairs. -/
def execHstCommit (rq : Request) (s : State) : Host.Outcome State Fault Refusal :=
  .next (s.arrive Op.PARAM_COMMIT (blockCommit 0x71 rq))

/-- COMMIT_NO_SHADOW (R514): PARAM_COMMIT of a block without COMMIT parameters is answered OK and changes nothing. -/
def execCommitNoShadow (block : BitVec 8) (rq : Request) (s : State) : Host.Outcome State Fault Refusal :=
  .next (s.arrive Op.PARAM_COMMIT (blockCommit block.toNat rq))

/-- SCHEDULED_COMMIT_DUE (R48): the module-time instant of a pending scheduled block commit is reached, and the commit applies. -/
def execScheduledCommitDue (block : Fin 256) (s : State) : Host.Outcome State Fault Refusal := .next (s.commitDue block.val).settle

/-! ## The NHP tunnel (R419) -/

/-- TUNNEL_REQ (R419): a segment for this module completes a packet, which is handled as an ECP request on the NHP transport under
its tunnel id; one for another module goes down the tree. While master 2 is frozen the segment is discarded (R395). -/
def execTunnelReq (port : Fin 512) (msg : List Byte) (s : State) : Host.Outcome State Fault Refusal :=
  let s := s.stamped port.val
  let b := nhpBody msg
  if ¬ s.nhpTakes port.val 0x08 msg ∨ port.val ≠ s.rd P.HIE_PARENT_PORT then .next s.nhpDiscard
  else if beAt 4 8 b ≠ s.rd P.HIE_IDENTITY then .next (s.nhpDown (beAt 4 8 b) msg b)
  else if s.frozenMaster 2 then .next s.nhpDiscard
  else
    let x := s.takeSegment port.val 0x08 b
    match x.2 with
    | some pkt =>
      if pkt.length < 16 then .next x.1
      else
        let r := requestOf .nhp (beAt 0 4 b) pkt
        .next (x.1.arrive r.1 r.2)
    | none => .next x.1

end Sys2Proof.Machine
end

