-- ==== Sys2Proof/Machine/Release.lean ====
section
/-! DEFINITION. Events whose effect may give a request its final reply, or a waiting packet its place, and so let requests go on that
wait behind it (R39, R480). -/

namespace Sys2Proof.Machine

/-- SYN_UNLOCK (R377): a synthesizer that is LOCKED loses lock and searches again. -/
def execSynUnlock (syn : Fin 38) (s : State) : Host.Outcome State Fault Refusal :=
  if s.rd P.SYN_STATE syn.val = 2 then .next (s.synUnlock syn.val).settle else .next s

/-- CORE_SELF_TEST (R160): a core's round of tests. -/
def execCoreSelfTest (core : Fin 2) (m : CoreMeasure) (s : State) : Host.Outcome State Fault Refusal :=
  .next (s.coreSelfTest core m).settle

/-- CK_TB_EDGE_MISSING (R163): the output stage misses an edge of the active core. -/
def execCkTbEdgeMissing (s : State) : Host.Outcome State Fault Refusal := .next s.edgeMissing.settle

/-- SWITCH_GAP_END (R163, R165): the output stage takes the other core's clock. -/
def execSwitchGapEnd (s : State) : Host.Outcome State Fault Refusal := .next s.endSwitch.settle

/-- CORE_PARITY_ERROR (R161): a parity error in a core's time count or servo state. -/
def execCoreParityError (core : Fin 2) (s : State) : Host.Outcome State Fault Refusal := .next (s.parityError core).settle

/-- DOMAIN_POWER_GOOD_LOSS (R435, R157): a domain that is UP loses its power-good. -/
def execDomainPowerGoodLoss (dom : Fin 13) (s : State) : Host.Outcome State Fault Refusal :=
  if s.rd P.PWR_DOMAIN_STATE dom.val = 3 then .next (s.domainLost dom.val).settle else .next s

/-- WIPE_COMPLETE (R400): the wipe of bank 31 has ended. -/
def execWipeComplete (s : State) : Host.Outcome State Fault Refusal := .next s.wipeDone.settle

/-- KEY_GENERATED (R351): the security core has generated the logbook key. -/
def execKeyGenerated (s : State) : Host.Outcome State Fault Refusal := .next s.keyDone.settle

/-- DOORBELL (R467, R468): the host writes an index, which may make room for replies that wait. -/
def execDoorbell (g : Nat) (index : BitVec 32) (s : State) : Host.Outcome State Fault Refusal := .next (s.doorbell g index).settle

end Sys2Proof.Machine
end

