-- ==== Sys2Proof/Machine/Dispatch.lean ====
section
/-! DEFINITION. Each command's meaning: one arm per constructor of Instr. -/

namespace Sys2Proof.Machine

/-- The effect of a command on everything but the queue of waiting commands. -/
def exec (i : Instr) (s : State) : Host.Outcome State Fault Refusal :=
  match i with
  | .sessionOpen rq => Sys2Proof.Machine.execSessionOpen rq s
  | .sessionProve rq => Sys2Proof.Machine.execSessionProve rq s
  | .proofTimeout n => Sys2Proof.Machine.execProofTimeout n s
  | .sessionClose rq => Sys2Proof.Machine.execSessionClose rq s
  | .sessionIdleTimeout n => Sys2Proof.Machine.execSessionIdleTimeout n s
  | .sessionSet rq => Sys2Proof.Machine.execSessionSet rq s
  | .unknownOpcode op rq => Sys2Proof.Machine.execUnknownOpcode op rq s
  | .spiReadTransfer => Sys2Proof.Machine.execSpiReadTransfer s
  | .paramRead rq => Sys2Proof.Machine.execParamRead rq s
  | .paramWrite rq => Sys2Proof.Machine.execParamWrite rq s
  | .lckSwapTimeWrite rq index value => Sys2Proof.Machine.execLckSwapTimeWrite rq index value s
  | .lckAdmEntryWrite rq index value => Sys2Proof.Machine.execLckAdmEntryWrite rq index value s
  | .obsTagSeedWrite rq index value => Sys2Proof.Machine.execObsTagSeedWrite rq index value s
  | .spdTamperSrcClear rq index value => Sys2Proof.Machine.execSpdTamperSrcClear rq index value s
  | .gnsAntBiasWrite rq index value => Sys2Proof.Machine.execGnsAntBiasWrite rq index value s
  | .cmdMgmtEnableWrite rq index value => Sys2Proof.Machine.execCmdMgmtEnableWrite rq index value s
  | .fabCommit rq => Sys2Proof.Machine.execFabCommit rq s
  | .prtCommit rq => Sys2Proof.Machine.execPrtCommit rq s
  | .tblCommit rq => Sys2Proof.Machine.execTblCommit rq s
  | .lckCommit rq => Sys2Proof.Machine.execLckCommit rq s
  | .tbsCommit rq => Sys2Proof.Machine.execTbsCommit rq s
  | .lnkCommit rq => Sys2Proof.Machine.execLnkCommit rq s
  | .refCommit rq => Sys2Proof.Machine.execRefCommit rq s
  | .corCommit rq => Sys2Proof.Machine.execCorCommit rq s
  | .gnsCommit rq => Sys2Proof.Machine.execGnsCommit rq s
  | .evtCommit rq => Sys2Proof.Machine.execEvtCommit rq s
  | .lanCommit rq => Sys2Proof.Machine.execLanCommit rq s
  | .synCommit rq => Sys2Proof.Machine.execSynCommit rq s
  | .logCommit rq => Sys2Proof.Machine.execLogCommit rq s
  | .arbCommit rq => Sys2Proof.Machine.execArbCommit rq s
  | .hieCommit rq => Sys2Proof.Machine.execHieCommit rq s
  | .hstCommit rq => Sys2Proof.Machine.execHstCommit rq s
  | .commitNoShadow block rq => Sys2Proof.Machine.execCommitNoShadow block rq s
  | .scheduledCommitDue block => Sys2Proof.Machine.execScheduledCommitDue block s
  | .sysInfo rq => Sys2Proof.Machine.execSysInfo rq s
  | .fabricEnable rq => Sys2Proof.Machine.execFabricEnable rq s
  | .fabricDisable rq => Sys2Proof.Machine.execFabricDisable rq s
  | .tblSearch rq => Sys2Proof.Machine.execTblSearch rq s
  | .tblNext rq => Sys2Proof.Machine.execTblNext rq s
  | .tblInsert rq => Sys2Proof.Machine.execTblInsert rq s
  | .tblDelete rq => Sys2Proof.Machine.execTblDelete rq s
  | .tblFlushPort rq => Sys2Proof.Machine.execTblFlushPort rq s
  | .flushWalkEnd reach => Sys2Proof.Machine.execFlushWalkEnd reach s
  | .tblRehash rq => Sys2Proof.Machine.execTblRehash rq s
  | .rehashWalkEnd reach => Sys2Proof.Machine.execRehashWalkEnd reach s
  | .tblStreamWrite rq => Sys2Proof.Machine.execTblStreamWrite rq s
  | .tblClearFlap rq => Sys2Proof.Machine.execTblClearFlap rq s
  | .drainFenceComplete reach => Sys2Proof.Machine.execDrainFenceComplete reach s
  | .streamEntryRewrite reach sid => Sys2Proof.Machine.execStreamEntryRewrite reach sid s
  | .refAccept rq => Sys2Proof.Machine.execRefAccept rq s
  | .coreSwitch rq => Sys2Proof.Machine.execCoreSwitch rq s
  | .coreHealth rq => Sys2Proof.Machine.execCoreHealth rq s
  | .gnsSnapshot rq => Sys2Proof.Machine.execGnsSnapshot rq s
  | .snapshotCaptureDone l1 l5 offset sats => Sys2Proof.Machine.execSnapshotCaptureDone l1 l5 offset sats s
  | .evtStats rq => Sys2Proof.Machine.execEvtStats rq s
  | .calRun rq => Sys2Proof.Machine.execCalRun rq s
  | .calRunDone freq => Sys2Proof.Machine.execCalRunDone freq s
  | .lanSlip rq => Sys2Proof.Machine.execLanSlip rq s
  | .synApply rq => Sys2Proof.Machine.execSynApply rq s
  | .synApplyDue => Sys2Proof.Machine.execSynApplyDue s
  | .bandChangeEnd syn => Sys2Proof.Machine.execBandChangeEnd syn s
  | .laserSwap rq => Sys2Proof.Machine.execLaserSwap rq s
  | .laserSwapStart engine => Sys2Proof.Machine.execLaserSwapStart engine s
  | .spareRouted engine => Sys2Proof.Machine.execSpareRouted engine s
  | .logKeyPublic rq => Sys2Proof.Machine.execLogKeyPublic rq s
  | .lifecycleSet rq => Sys2Proof.Machine.execLifecycleSet rq s
  | .masterRelease rq => Sys2Proof.Machine.execMasterRelease rq s
  | .hieTunnel rq => Sys2Proof.Machine.execHieTunnel rq s
  | .hieFanout rq => Sys2Proof.Machine.execHieFanout rq s
  | .tunnelTimeout => Sys2Proof.Machine.execTunnelTimeout s
  | .hieRegistryRead rq => Sys2Proof.Machine.execHieRegistryRead rq s
  | .shutterEnter rq => Sys2Proof.Machine.execShutterEnter rq s
  | .shutterLeave rq => Sys2Proof.Machine.execShutterLeave rq s
  | .stickyClear rq => Sys2Proof.Machine.execStickyClear rq s
  | .wearGet rq => Sys2Proof.Machine.execWearGet rq s
  | .faultRead rq => Sys2Proof.Machine.execFaultRead rq s
  | .obsSnapshot rq => Sys2Proof.Machine.execObsSnapshot rq s
  | .obsSnapshotDue => Sys2Proof.Machine.execObsSnapshotDue s
  | .obsFreeze rq => Sys2Proof.Machine.execObsFreeze rq s
  | .obsTraceRead rq => Sys2Proof.Machine.execObsTraceRead rq s
  | .queueCreate rq => Sys2Proof.Machine.execQueueCreate rq s
  | .queueDestroy rq => Sys2Proof.Machine.execQueueDestroy rq s
  | .setSecRollover => Sys2Proof.Machine.execSetSecRollover s
  | .leapSecond => Sys2Proof.Machine.execLeapSecond s
  | .boundUpdate ovenDev => Sys2Proof.Machine.execBoundUpdate ovenDev s
  | .expressStartTest port bytes ended bad streamErr macErr raw => Sys2Proof.Machine.execExpressStartTest port bytes ended bad streamErr macErr raw s
  | .frameReceived port bytes bad streamErr macErr raw => Sys2Proof.Machine.execFrameReceived port bytes bad streamErr macErr raw s
  | .frameAdmitted inlet => Sys2Proof.Machine.execFrameAdmitted inlet s
  | .learnApply read => Sys2Proof.Machine.execLearnApply read s
  | .ageingSweep reach => Sys2Proof.Machine.execAgeingSweep reach s
  | .settleSweep reach => Sys2Proof.Machine.execSettleSweep reach s
  | .fabricStep faults upsets => Sys2Proof.Machine.execFabricStep faults upsets s
  | .lostGap outlet => Sys2Proof.Machine.execLostGap outlet s
  | .stepRateMeasure => Sys2Proof.Machine.execStepRateMeasure s
  | .paceMargin => Sys2Proof.Machine.execPaceMargin s
  | .vcoreMismatch => Sys2Proof.Machine.execVcoreMismatch s
  | .drainComplete => Sys2Proof.Machine.execDrainComplete s
  | .shutterDrainExpiry => Sys2Proof.Machine.execShutterDrainExpiry s
  | .pfcReceived port bytes => Sys2Proof.Machine.execPfcReceived port bytes s
  | .pauseExpiry port cls => Sys2Proof.Machine.execPauseExpiry port cls s
  | .pfcRepeat port cls => Sys2Proof.Machine.execPfcRepeat port cls s
  | .frameTransmitStart port raw => Sys2Proof.Machine.execFrameTransmitStart port raw s
  | .transmitComplete port underrun parity => Sys2Proof.Machine.execTransmitComplete port underrun parity s
  | .portLinkDown port part upsets => Sys2Proof.Machine.execPortLinkDown port part upsets s
  | .copyLaunch port pos => Sys2Proof.Machine.execCopyLaunch port pos s
  | .copyAbandon port queue => Sys2Proof.Machine.execCopyAbandon port queue s
  | .gateChange port => Sys2Proof.Machine.execGateChange port s
  | .bankSwap port => Sys2Proof.Machine.execBankSwap port s
  | .bankCopyDone port => Sys2Proof.Machine.execBankCopyDone port s
  | .logSeal => Sys2Proof.Machine.execSeal s
  | .sealSigned => Sys2Proof.Machine.execSealSigned s
  | .spillMove => Sys2Proof.Machine.execSpillMove s
  | .keyGenerated => Sys2Proof.Machine.execKeyGenerated s
  | .wakeAdmitted => Sys2Proof.Machine.execWakeAdmitted s
  | .rampEnd => Sys2Proof.Machine.execRampEnd s
  | .powerGood dom => Sys2Proof.Machine.execPowerGood dom s
  | .cdrLock lane ppb ctle => Sys2Proof.Machine.execCdrLock lane ppb ctle s
  | .cdrLockLoss lane => Sys2Proof.Machine.execCdrLockLoss lane s
  | .framing lane g found => Sys2Proof.Machine.execFraming lane g found s
  | .framingLoss lane => Sys2Proof.Machine.execFramingLoss lane s
  | .realignTimeout lane => Sys2Proof.Machine.execRealignTimeout lane s
  | .slipStep lane => Sys2Proof.Machine.execSlipStep lane s
  | .laneCalItemEnd lane m => Sys2Proof.Machine.execLaneCalItemEnd lane m s
  | .ctleStep lane up => Sys2Proof.Machine.execCtleStep lane up s
  | .laserBiasWarn engine laser bias => Sys2Proof.Machine.execLaserBiasWarn engine laser bias s
  | .laserFailed engine laser bias powers => Sys2Proof.Machine.execLaserFailed engine laser bias powers s
  | .synUnlock syn => Sys2Proof.Machine.execSynUnlock syn s
  | .tsyncSend port raw1 => Sys2Proof.Machine.execTsyncSend port raw1 s
  | .tsync port body raw2 raw3 => Sys2Proof.Machine.execTsync port body raw2 raw3 s
  | .tdreq port body raw4 => Sys2Proof.Machine.execTdreq port body raw4 s
  | .tdresp port body => Sys2Proof.Machine.execTdresp port body s
  | .respTimeout port => Sys2Proof.Machine.execRespTimeout port s
  | .tcal port body => Sys2Proof.Machine.execTcal port body s
  | .ddmtdAverage port firsts runs => Sys2Proof.Machine.execDdmtdAverage port firsts runs s
  | .ddmtdSettle port => Sys2Proof.Machine.execDdmtdSettle port s
  | .slipHoldExpiry port => Sys2Proof.Machine.execSlipHoldExpiry port s
  | .ptpSyncSend port announce unicast tx => Sys2Proof.Machine.execPtpSyncSend port announce unicast tx s
  | .ptpUnicastRequest port clock number client msg period duration => Sys2Proof.Machine.execPtpUnicastRequest port clock number client msg period duration s
  | .delayReq port msg client rx tx => Sys2Proof.Machine.execDelayReq port msg client rx tx s
  | .grantExpiry clock number => Sys2Proof.Machine.execGrantExpiry clock number s
  | .refselChange pins => Sys2Proof.Machine.execRefselChange pins s
  | .gnsPulse x freq osc => Sys2Proof.Machine.execGnsPulse x freq osc s
  | .refPpsEdge r phi osc => Sys2Proof.Machine.execRefPpsEdge r phi osc s
  | .refFreqAbsent r => Sys2Proof.Machine.execRefFreqAbsent r s
  | .activityLost r => Sys2Proof.Machine.execActivityLost r s
  | .monitorReading r freq phi osc => Sys2Proof.Machine.execMonitorReading r freq phi osc s
  | .holdoffExpiry r => Sys2Proof.Machine.execHoldoffExpiry r s
  | .confirmExpiry r => Sys2Proof.Machine.execConfirmExpiry r s
  | .wtrExpiry => Sys2Proof.Machine.execWtrExpiry s
  | .pullEnd => Sys2Proof.Machine.execPullEnd s
  | .acquireLock sec nano => Sys2Proof.Machine.execAcquireLock sec nano s
  | .phWindowEnd => Sys2Proof.Machine.execPhWindowEnd s
  | .coreSelfTest core m => Sys2Proof.Machine.execCoreSelfTest core m s
  | .ckTbEdgeMissing => Sys2Proof.Machine.execCkTbEdgeMissing s
  | .switchGapEnd => Sys2Proof.Machine.execSwitchGapEnd s
  | .coreRecover core => Sys2Proof.Machine.execCoreRecover core s
  | .crosslockSettle core => Sys2Proof.Machine.execCrosslockSettle core s
  | .coreReturn core => Sys2Proof.Machine.execCoreReturn core s
  | .navWord message sat checkOk l5 bits time data => Sys2Proof.Machine.execNavWord message sat checkOk l5 bits time data s
  | .antBiasMeasure ma => Sys2Proof.Machine.execAntBiasMeasure ma s
  | .acqCellFound signal sat elev cell first second => Sys2Proof.Machine.execAcqCellFound signal sat elev cell first second s
  | .channelRelease signal sat cn0 => Sys2Proof.Machine.execChannelRelease signal sat cn0 s
  | .dutySnapshot capture => Sys2Proof.Machine.execDutySnapshot capture s
  | .evtEdge input rising tick code => Sys2Proof.Machine.execEvtEdge input rising tick code s
  | .codeDensityEnd input hits oor rms delay => Sys2Proof.Machine.execCodeDensityEnd input hits oor rms delay s
  | .vernierUnitChange input => Sys2Proof.Machine.execVernierUnitChange input s
  | .calAutoTrigger kind index temp => Sys2Proof.Machine.execCalAutoTrigger kind index temp s
  | .calItemEnd kind index m => Sys2Proof.Machine.execCalItemEnd kind index m s
  | .tapStep lane now frac => Sys2Proof.Machine.execTapStep lane now frac s
  | .trimStep output err => Sys2Proof.Machine.execTrimStep output err s
  | .portResUpdate temps => Sys2Proof.Machine.execPortResUpdate temps s
  | .arbitrationPoint faults => Sys2Proof.Machine.execArbitrationPoint faults s
  | .scratchpadRequest master addr write beats data => Sys2Proof.Machine.execScratchpadRequest master addr write beats data s
  | .tamperDetect source active => Sys2Proof.Machine.execTamperDetect source active s
  | .wipeComplete => Sys2Proof.Machine.execWipeComplete s
  | .helloSend port => Sys2Proof.Machine.execHelloSend port s
  | .hello port msg => Sys2Proof.Machine.execHello port msg s
  | .helloSilence port => Sys2Proof.Machine.execHelloSilence port s
  | .join port msg => Sys2Proof.Machine.execJoin port msg s
  | .joinRetry => Sys2Proof.Machine.execJoinRetry s
  | .joinTimeout => Sys2Proof.Machine.execJoinTimeout s
  | .joinAck port msg => Sys2Proof.Machine.execJoinAck port msg s
  | .leave port msg => Sys2Proof.Machine.execLeave port msg s
  | .statusSend => Sys2Proof.Machine.execStatusSend s
  | .status port msg => Sys2Proof.Machine.execStatus port msg s
  | .clientReport received => Sys2Proof.Machine.execClientReport received s
  | .registryAgeing => Sys2Proof.Machine.execRegistryAgeing s
  | .tunnelReq port msg => Sys2Proof.Machine.execTunnelReq port msg s
  | .tunnelReply port msg => Sys2Proof.Machine.execTunnelReply port msg s
  | .segmentTimeout => Sys2Proof.Machine.execSegmentTimeout s
  | .managerLost => Sys2Proof.Machine.execManagerLost s
  | .resetNRelease pins heaterA => Sys2Proof.Machine.execResetNRelease pins heaterA s
  | .resetNAssert => Sys2Proof.Machine.execResetNAssert s
  | .commandChannelReady => Sys2Proof.Machine.execCommandChannelReady s
  | .railLoss rail mv => Sys2Proof.Machine.execRailLoss rail mv s
  | .railRestored rail mv pins heaterA => Sys2Proof.Machine.execRailRestored rail mv pins heaterA s
  | .dieTemperature die temp => Sys2Proof.Machine.execDieTemperature die temp s
  | .watchdogExpiry fw => Sys2Proof.Machine.execWatchdogExpiry fw s
  | .shutterCauseClear cause => Sys2Proof.Machine.execShutterCauseClear cause s
  | .shutterEntered => Sys2Proof.Machine.execShutterEntered s
  | .shutterLeft => Sys2Proof.Machine.execShutterLeft s
  | .keelFrame port rx raw => Sys2Proof.Machine.execKeelFrame port rx raw s
  | .wearSample kind index reading => Sys2Proof.Machine.execWearSample kind index reading s
  | .windowFrame => Sys2Proof.Machine.execWindowFrame s
  | .doorbell g index => Sys2Proof.Machine.execDoorbell g index s
  | .hostTxFrame q slot data => Sys2Proof.Machine.execHostTxFrame q slot data s
  | .hostTxWriteback q => Sys2Proof.Machine.execHostTxWriteback q s
  | .hostRxDeliver q slot => Sys2Proof.Machine.execHostRxDeliver q slot s
  | .msixInterrupt v => Sys2Proof.Machine.execMsixInterrupt v s
  | .pcieLinkDown => Sys2Proof.Machine.execPcieLinkDown s
  | .coreParityError core => Sys2Proof.Machine.execCoreParityError core s
  | .domainPowerGoodLoss dom => Sys2Proof.Machine.execDomainPowerGoodLoss dom s
  | .vcoreTransitionEnd mv => Sys2Proof.Machine.execVcoreTransitionEnd mv s
  | .slicerStep lane k up => Sys2Proof.Machine.execSlicerStep lane k up s
  | .synRelock syn => Sys2Proof.Machine.execSynRelock syn s
  | .pcieLinkUp speed width mps => Sys2Proof.Machine.execPcieLinkUp speed width mps s

end Sys2Proof.Machine
end

