-- ==== Sys2Proof/Machine/Tick.lean ====
section
/-! DEFINITION. What passes when no command waits: 2 ns, a tick of the output stage (R55, R163), with the phase that a pull moves (R142). -/

namespace Sys2Proof.Machine

/-- A tick of the output stage in units of 10^-7 ps. -/
def tickUnits : Int := 20000000000

/-- What a pull moves module time by from one instant to another, in units of 10^-7 ps (R145). -/
def State.pulled (s : State) (t0 t1 : Nat) : Int :=
  if s.rd P.REF_TSTATE = 3 then
    s.servo.phiLeft (s.rd P.REF_PHASE_SLOPE) t0 - s.servo.phiLeft (s.rd P.REF_PHASE_SLOPE) t1
  else 0

/-- A time count as the DCO advances it in 2 ns: one tick, two where a pull forward has gathered a whole tick, none where a pull back
has (R55, R142). -/
def TimeCount.advance (t : TimeCount) (lead : Int) : TimeCount :=
  if tickUnits ≤ lead then t.tick.tick else if lead ≤ -tickUnits then t else t.tick

/-- What is left of the gathered phase once whole ticks have been counted. -/
def leadLeft (lead : Int) : Int :=
  if tickUnits ≤ lead then lead - tickUnits else if lead ≤ -tickUnits then lead + tickUnits else lead

/-- The count of core `c`: the ACTIVE core and a core that cross-locks to it count as module time does, a core that warms or has failed
counts the ticks of its free-running DCO, and a core whose domain is down none (R55, R157, R159). -/
def State.tickCore (s : State) (c : Nat) (lead : Int) : State :=
  match s.rd P.COR_STATE c with
  | 0 => s
  | 2 | 3 | 4 => s.setCore c fun x => { x with count := x.count.advance lead }
  | _ => s.setCore c fun x => { x with count := x.count.tick }

/-- The output stage counts, outside reset (R55, R163, R432). -/
def State.tickOut (s : State) (lead : Int) : State :=
  if s.phase = .held then s else { s with time := { s.time with out := s.time.out.advance lead, lead := leadLeft lead } }

/-- PPS OUT 0 and 1 and PPS_MON pulse at a seconds boundary of module time: always once time is set, from free-running time before the
first lock where REF_PPS_FREERUN says so, and never within 0.5 s of the pulse before (R143). -/
def State.pulse (s : State) (before : TimeCount) : State :=
  let due := s.time.out.sec != before.sec && (s.rdb P.REF_TIME_SET || s.rdb P.REF_PPS_FREERUN)
  let clear : Bool := match s.time.pulseAt with | some t => decide (t + 500000000 ≤ s.clock) | none => true
  if due && clear then { s with time := { s.time with pulseAt := some s.clock } } else s

/-- 2 ns with nothing commanded: true time passes, the counts of the cores and of the output stage advance, and a second's pulse leaves.
Everything else that time brings about is a command of its own. -/
def State.tick (s : State) : State :=
  let lead := s.time.lead + s.pulled s.clock (s.clock + 2)
  let t : State := { s with clock := s.clock + 2 }
  ((((t.tickCore 0 lead).tickCore 1 lead).tickOut lead).pulse s.time.out)

end Sys2Proof.Machine
end

