-- ==== Sys2Proof/Safety.lean ====
section
/-! DEFINITION. What holds of a well-kept state, in the terms the claims use. -/

namespace Sys2Proof.Machine

/-- The scratchpad's memory is in canonical form: addresses strictly rising, and no byte listed that reads as an unlisted one does. -/
def Memory.wf (m : List Host.Cell) : Bool := canonical ltNat (fun _ => (0 : Byte)) m

/-- The registers are in canonical form: no element listed twice, and none listed at its reset value. -/
def Registers.wf (m : List ((Nat × Nat) × Nat)) : Bool := canonical ltPair (fun k => resetOf k.1 k.2) m

/-- Equal contents are equal data: the registers and the scratchpad are in canonical form, and no shadow is listed twice. -/
def State.canonicalForm (s : State) : Prop :=
  Registers.wf s.regs = true ∧ Memory.wf s.pad.mem = true ∧ rising ltPair s.shadows = true

/-- Sessions are well kept (R29): every session has a number from 1 to 16 of its own and a running number of its own that has been given out,
CMD_SESSION_STATE reads FREE for exactly the numbers that no session has, and no shadow stands for that parameter. -/
def State.sessionsLegal (s : State) : Prop :=
  (∀ x ∈ s.cmd.sessions, 1 ≤ x.num ∧ x.num ≤ 16 ∧ x.uid < s.cmd.nextUid) ∧ (s.cmd.sessions.map Session.num).Nodup ∧
    (s.cmd.sessions.map Session.uid).Nodup ∧
    (∀ n, 1 ≤ n → n ≤ 16 → (s.sessState n = 0 ↔ ∀ x ∈ s.cmd.sessions, x.num ≠ n)) ∧
    ∀ e ∈ s.shadows, e.1.1 ≠ P.CMD_SESSION_STATE

/-! ## Frames

The parts of the state beside the registers, by number; a parameter's number is its base address, which is larger. `params` stands for
every parameter, `sessions` is the list of sessions by running number and number, and `timeOut` the count of the output stage, which is module time. -/

namespace F
abbrev params : Nat := 0
abbrev shadows : Nat := 2
abbrev hidden : Nat := 3
abbrev phase : Nat := 5
abbrev released : Nat := 6
abbrev fresh : Nat := 7
abbrev cmd : Nat := 10
abbrev time : Nat := 11
abbrev refs : Nat := 12
abbrev servo : Nat := 13
abbrev flash : Nat := 14
abbrev links : Nat := 15
abbrev grants : Nat := 16
abbrev ptpSeq : Nat := 17
abbrev tcal : Nat := 18
abbrev linkRun : Nat := 19
abbrev fabric : Nat := 20
abbrev quay : Nat := 21
abbrev lock : Nat := 22
abbrev tables : Nat := 23
abbrev log : Nat := 24
abbrev pad : Nat := 25
abbrev optics : Nat := 26
abbrev tagRegs : Nat := 27
abbrev windowAt : Nat := 28
abbrev cal : Nat := 29
abbrev evtInputs : Nat := 30
abbrev evtAccs : Nat := 31
abbrev nhp : Nat := 32
abbrev gnss : Nat := 33
abbrev obsJob : Nat := 34
abbrev rings : Nat := 35
abbrev txSlots : Nat := 36
abbrev nextSlot : Nat := 37
abbrev raised : Nat := 38
abbrev power : Nat := 39
abbrev fault : Nat := 40
abbrev sessions : Nat := 60
abbrev timeOut : Nat := 61
end F

/-- Whether a part of the state may change: one that is listed, any parameter where `F.params` is, or any part where no list is given. -/
def allows (W : Option (List Nat)) (c : Nat) : Bool :=
  match W with
  | none => true
  | some l => l.any fun x => Nat.beq x c || (Nat.beq x F.params && Nat.ble 62 c)

/-- What every command does and does not do: the queue of waiting commands and true time are not its business, what has been put on an
interface stays there, and the registers, the scratchpad and the shadows keep their form. -/
structure Keeps (s t : State) : Prop where
  pending : t.pending = s.pending
  clock : t.clock = s.clock
  out : s.out <+: t.out
  regs : Registers.wf s.regs = true → Registers.wf t.regs = true
  mem : Memory.wf s.pad.mem = true → Memory.wf t.pad.mem = true
  shadows : rising ltPair s.shadows = true → rising ltPair t.shadows = true

/-- From `s` to `t` only what `W` lists has changed. No parameter has a base address below 62. -/
structure Only (W : Option (List Nat)) (s t : State) : Prop where
  keeps : Keeps s t
  rd : ∀ b i, 62 ≤ b → allows W b = false → t.rd b i = s.rd b i
  shadows : allows W F.shadows = false → t.shadows = s.shadows
  hidden : allows W F.hidden = false → t.hidden = s.hidden
  phase : allows W F.phase = false → t.phase = s.phase
  released : allows W F.released = false → t.released = s.released
  fresh : allows W F.fresh = false → t.fresh = s.fresh
  cmd : allows W F.cmd = false → t.cmd = s.cmd
  time : allows W F.time = false → t.time = s.time
  refs : allows W F.refs = false → t.refs = s.refs
  servo : allows W F.servo = false → t.servo = s.servo
  flash : allows W F.flash = false → t.flash = s.flash
  links : allows W F.links = false → t.links = s.links
  grants : allows W F.grants = false → t.grants = s.grants
  ptpSeq : allows W F.ptpSeq = false → t.ptpSeq = s.ptpSeq
  tcal : allows W F.tcal = false → t.tcal = s.tcal
  linkRun : allows W F.linkRun = false → t.linkRun = s.linkRun
  fabric : allows W F.fabric = false → t.fabric = s.fabric
  quay : allows W F.quay = false → t.quay = s.quay
  lock : allows W F.lock = false → t.lock = s.lock
  tables : allows W F.tables = false → t.tables = s.tables
  log : allows W F.log = false → t.log = s.log
  pad : allows W F.pad = false → t.pad = s.pad
  optics : allows W F.optics = false → t.optics = s.optics
  tagRegs : allows W F.tagRegs = false → t.tagRegs = s.tagRegs
  windowAt : allows W F.windowAt = false → t.windowAt = s.windowAt
  cal : allows W F.cal = false → t.cal = s.cal
  evtInputs : allows W F.evtInputs = false → t.evtInputs = s.evtInputs
  evtAccs : allows W F.evtAccs = false → t.evtAccs = s.evtAccs
  nhp : allows W F.nhp = false → t.nhp = s.nhp
  gnss : allows W F.gnss = false → t.gnss = s.gnss
  obsJob : allows W F.obsJob = false → t.obsJob = s.obsJob
  rings : allows W F.rings = false → t.rings = s.rings
  txSlots : allows W F.txSlots = false → t.txSlots = s.txSlots
  nextSlot : allows W F.nextSlot = false → t.nextSlot = s.nextSlot
  raised : allows W F.raised = false → t.raised = s.raised
  power : allows W F.power = false → t.power = s.power
  fault : allows W F.fault = false → t.fault = s.fault
  sessions : allows W F.sessions = false → t.cmd.sessions.map (fun x => (x.uid, x.num)) = s.cmd.sessions.map fun x => (x.uid, x.num)
  timeOut : allows W F.timeOut = false → t.time.out = s.time.out

/-! ## Requests that are taken up at once -/

/-- Whether the transport brings the packet to the module now: a request ring of a link that is up, with a slot that the host has filled
and the module reads at once; the other transports always (R23, R468, R480). -/
def State.carries (s : State) (rq : Request) : Bool :=
  rq.transport != .pcie ||
    match s.ring (160 + rq.chan) with
    | some r => decide (rq.chan ≤ 3) && s.linkUp && s.rd P.HST_RING_STATE (160 + rq.chan) == 1 &&
        decide (0 < inUse r.prod r.cons) && s.unreadOf rq.chan == 0 && s.readsRing rq.chan
    | none => false

/-- The state once the packet is read from its ring. -/
def State.received (s : State) (rq : Request) : State := if rq.transport = .pcie then s.consume rq.chan else s

/-- The opcode of a request is one that version `v` has, with a payload of a length it takes (R28, R51). -/
def opFits (op v : Nat) (rq : Request) : Bool :=
  match opRow op with
  | some r => decide (r.since ≤ v) && r.sized rq.payload
  | none => false

/-- The session serves the request: it is open, or it proves itself or closes itself (R31, R35, R521). -/
def State.serves (s : State) (x : Session) (op : Nat) (rq : Request) : Bool :=
  s.sessState x.num == 1 || (s.sessState x.num == 3 && (op == Op.SESSION_PROVE || closesSelf rq op)) ||
    (s.sessState x.num == 2 && closesSelf rq op)

/-- A request of the session `x` that passes every test of the intake and meets no earlier one of its session, so that it starts
(R27, R28, R39 to R41, R521). -/
def State.reached (s : State) (op : Nat) (rq : Request) (x : Session) : Prop :=
  s.phase = .ready ∧ s.carries rq = true ∧ (rq.transport = .mgmt → s.rdb P.CMD_MGMT_ENABLE = true) ∧
  headerChecks rq op = true ∧ lengthFits rq = true ∧ s.session rq.session.toNat = some x ∧ x.transport = rq.transport ∧
  s.serves x op rq = true ∧ rq.version.toNat = x.version ∧ opFits op x.version rq = true ∧ x.blocked = none ∧ x.backlog = [] ∧
  (x.opening.all fun o => o.tag != rq.tag.toNat) = true ∧ 0 < s.rd P.CMD_MAX_OUTSTANDING ∧ (x.replies.all fun y => !(y.tag == rq.tag.toNat && y.op == op)) = true

/-- A request that starts, breaks no privilege and is served by a running core: it has its opcode's effect (R35, R395). -/
def State.taken (s : State) (op : Nat) (rq : Request) (x : Session) : Prop :=
  s.reached op rq x ∧ s.breach x op rq.payload = none ∧ s.coreFrozen op = false

/-- The opcode and the request packet of a command that is the arrival of a request on the command channel. -/
def asRequest : Instr → Option (Nat × Request)
  | .sessionOpen rq => some (Op.SESSION_OPEN, rq)
  | .sessionProve rq => some (Op.SESSION_PROVE, rq)
  | .sessionClose rq => some (Op.SESSION_CLOSE, rq)
  | .sessionSet rq => some (Op.SESSION_SET, rq)
  | .unknownOpcode op rq => some (op.toNat, rq)
  | .paramRead rq => some (Op.PARAM_READ, rq)
  | .paramWrite rq => some (Op.PARAM_WRITE, rq)
  | .lckSwapTimeWrite rq index value => some (Op.PARAM_WRITE, (oneEntry P.LCK_SWAP_TIME index value rq))
  | .lckAdmEntryWrite rq index value => some (Op.PARAM_WRITE, (oneEntry P.LCK_ADM_ENTRY index value rq))
  | .obsTagSeedWrite rq index value => some (Op.PARAM_WRITE, (oneEntry P.OBS_TAG_SEED index value rq))
  | .spdTamperSrcClear rq index value => some (Op.PARAM_WRITE, (oneEntry P.SPD_TAMPER_SRC index value rq))
  | .gnsAntBiasWrite rq index value => some (Op.PARAM_WRITE, (oneEntry P.GNS_ANT_BIAS index value rq))
  | .cmdMgmtEnableWrite rq index value => some (Op.PARAM_WRITE, (oneEntry P.CMD_MGMT_ENABLE index value rq))
  | .fabCommit rq => some (Op.PARAM_COMMIT, (blockCommit 0x10 rq))
  | .prtCommit rq => some (Op.PARAM_COMMIT, (blockCommit 0x11 rq))
  | .tblCommit rq => some (Op.PARAM_COMMIT, (blockCommit 0x13 rq))
  | .lckCommit rq => some (Op.PARAM_COMMIT, (blockCommit 0x14 rq))
  | .tbsCommit rq => some (Op.PARAM_COMMIT, (blockCommit 0x20 rq))
  | .lnkCommit rq => some (Op.PARAM_COMMIT, (blockCommit 0x21 rq))
  | .refCommit rq => some (Op.PARAM_COMMIT, (blockCommit 0x22 rq))
  | .corCommit rq => some (Op.PARAM_COMMIT, (blockCommit 0x23 rq))
  | .gnsCommit rq => some (Op.PARAM_COMMIT, (blockCommit 0x24 rq))
  | .evtCommit rq => some (Op.PARAM_COMMIT, (blockCommit 0x25 rq))
  | .lanCommit rq => some (Op.PARAM_COMMIT, (blockCommit 0x30 rq))
  | .synCommit rq => some (Op.PARAM_COMMIT, (blockCommit 0x31 rq))
  | .logCommit rq => some (Op.PARAM_COMMIT, (blockCommit 0x40 rq))
  | .arbCommit rq => some (Op.PARAM_COMMIT, (blockCommit 0x42 rq))
  | .hieCommit rq => some (Op.PARAM_COMMIT, (blockCommit 0x50 rq))
  | .hstCommit rq => some (Op.PARAM_COMMIT, (blockCommit 0x71 rq))
  | .commitNoShadow block rq => some (Op.PARAM_COMMIT, (blockCommit block.toNat rq))
  | .sysInfo rq => some (Op.SYS_INFO, rq)
  | .fabricEnable rq => some (Op.FABRIC_ENABLE, rq)
  | .fabricDisable rq => some (Op.FABRIC_DISABLE, rq)
  | .tblSearch rq => some (Op.TBL_SEARCH, rq)
  | .tblNext rq => some (Op.TBL_NEXT, rq)
  | .tblInsert rq => some (Op.TBL_INSERT, rq)
  | .tblDelete rq => some (Op.TBL_DELETE, rq)
  | .tblFlushPort rq => some (Op.TBL_FLUSH_PORT, rq)
  | .tblRehash rq => some (Op.TBL_REHASH, rq)
  | .tblStreamWrite rq => some (Op.TBL_STREAM_WRITE, rq)
  | .tblClearFlap rq => some (Op.TBL_CLEAR_FLAP, rq)
  | .refAccept rq => some (Op.REF_ACCEPT, rq)
  | .coreSwitch rq => some (Op.CORE_SWITCH, rq)
  | .coreHealth rq => some (Op.CORE_HEALTH, rq)
  | .gnsSnapshot rq => some (Op.GNS_SNAPSHOT, rq)
  | .evtStats rq => some (Op.EVT_STATS, rq)
  | .calRun rq => some (Op.CAL_RUN, rq)
  | .lanSlip rq => some (Op.LAN_SLIP, rq)
  | .synApply rq => some (Op.SYN_APPLY, rq)
  | .laserSwap rq => some (Op.LASER_SWAP, rq)
  | .logKeyPublic rq => some (Op.LOG_KEY_PUBLIC, rq)
  | .lifecycleSet rq => some (Op.LIFECYCLE_SET, rq)
  | .masterRelease rq => some (Op.MASTER_RELEASE, rq)
  | .hieTunnel rq => some (Op.HIE_TUNNEL, rq)
  | .hieFanout rq => some (Op.HIE_FANOUT, rq)
  | .hieRegistryRead rq => some (Op.HIE_REGISTRY_READ, rq)
  | .shutterEnter rq => some (Op.SHUTTER_ENTER, rq)
  | .shutterLeave rq => some (Op.SHUTTER_LEAVE, rq)
  | .stickyClear rq => some (Op.STICKY_CLEAR, rq)
  | .wearGet rq => some (Op.WEAR_GET, rq)
  | .faultRead rq => some (Op.FAULT_READ, rq)
  | .obsSnapshot rq => some (Op.OBS_SNAPSHOT, rq)
  | .obsFreeze rq => some (Op.OBS_FREEZE, rq)
  | .obsTraceRead rq => some (Op.OBS_TRACE_READ, rq)
  | .queueCreate rq => some (Op.QUEUE_CREATE, rq)
  | .queueDestroy rq => some (Op.QUEUE_DESTROY, rq)
  | .proofTimeout _ => none
  | .sessionIdleTimeout _ => none
  | .spiReadTransfer => none
  | .scheduledCommitDue _ => none
  | .flushWalkEnd _ => none
  | .rehashWalkEnd _ => none
  | .drainFenceComplete _ => none
  | .streamEntryRewrite _ _ => none
  | .snapshotCaptureDone _ _ _ _ => none
  | .calRunDone _ => none
  | .synApplyDue => none
  | .bandChangeEnd _ => none
  | .laserSwapStart _ => none
  | .spareRouted _ => none
  | .tunnelTimeout => none
  | .obsSnapshotDue => none
  | .setSecRollover => none
  | .leapSecond => none
  | .boundUpdate _ => none
  | .expressStartTest _ _ _ _ _ _ _ => none
  | .frameReceived _ _ _ _ _ _ => none
  | .frameAdmitted _ => none
  | .learnApply _ => none
  | .ageingSweep _ => none
  | .settleSweep _ => none
  | .fabricStep _ _ => none
  | .lostGap _ => none
  | .stepRateMeasure => none
  | .paceMargin => none
  | .vcoreMismatch => none
  | .drainComplete => none
  | .shutterDrainExpiry => none
  | .pfcReceived _ _ => none
  | .pauseExpiry _ _ => none
  | .pfcRepeat _ _ => none
  | .frameTransmitStart _ _ => none
  | .transmitComplete _ _ _ => none
  | .portLinkDown _ _ _ => none
  | .copyLaunch _ _ => none
  | .copyAbandon _ _ => none
  | .gateChange _ => none
  | .bankSwap _ => none
  | .bankCopyDone _ => none
  | .logSeal => none
  | .sealSigned => none
  | .spillMove => none
  | .keyGenerated => none
  | .wakeAdmitted => none
  | .rampEnd => none
  | .powerGood _ => none
  | .cdrLock _ _ _ => none
  | .cdrLockLoss _ => none
  | .framing _ _ _ => none
  | .framingLoss _ => none
  | .realignTimeout _ => none
  | .slipStep _ => none
  | .laneCalItemEnd _ _ => none
  | .ctleStep _ _ => none
  | .laserBiasWarn _ _ _ => none
  | .laserFailed _ _ _ _ => none
  | .synUnlock _ => none
  | .tsyncSend _ _ => none
  | .tsync _ _ _ _ => none
  | .tdreq _ _ _ => none
  | .tdresp _ _ => none
  | .respTimeout _ => none
  | .tcal _ _ => none
  | .ddmtdAverage _ _ _ => none
  | .ddmtdSettle _ => none
  | .slipHoldExpiry _ => none
  | .ptpSyncSend _ _ _ _ => none
  | .ptpUnicastRequest _ _ _ _ _ _ _ => none
  | .delayReq _ _ _ _ _ => none
  | .grantExpiry _ _ => none
  | .refselChange _ => none
  | .gnsPulse _ _ _ => none
  | .refPpsEdge _ _ _ => none
  | .refFreqAbsent _ => none
  | .activityLost _ => none
  | .monitorReading _ _ _ _ => none
  | .holdoffExpiry _ => none
  | .confirmExpiry _ => none
  | .wtrExpiry => none
  | .pullEnd => none
  | .acquireLock _ _ => none
  | .phWindowEnd => none
  | .coreSelfTest _ _ => none
  | .ckTbEdgeMissing => none
  | .switchGapEnd => none
  | .coreRecover _ => none
  | .crosslockSettle _ => none
  | .coreReturn _ => none
  | .navWord _ _ _ _ _ _ _ => none
  | .antBiasMeasure _ => none
  | .acqCellFound _ _ _ _ _ _ => none
  | .channelRelease _ _ _ => none
  | .dutySnapshot _ => none
  | .evtEdge _ _ _ _ => none
  | .codeDensityEnd _ _ _ _ _ => none
  | .vernierUnitChange _ => none
  | .calAutoTrigger _ _ _ => none
  | .calItemEnd _ _ _ => none
  | .tapStep _ _ _ => none
  | .trimStep _ _ => none
  | .portResUpdate _ => none
  | .arbitrationPoint _ => none
  | .scratchpadRequest _ _ _ _ _ => none
  | .tamperDetect _ _ => none
  | .wipeComplete => none
  | .helloSend _ => none
  | .hello _ _ => none
  | .helloSilence _ => none
  | .join _ _ => none
  | .joinRetry => none
  | .joinTimeout => none
  | .joinAck _ _ => none
  | .leave _ _ => none
  | .statusSend => none
  | .status _ _ => none
  | .clientReport _ => none
  | .registryAgeing => none
  | .tunnelReq _ _ => none
  | .tunnelReply _ _ => none
  | .segmentTimeout => none
  | .managerLost => none
  | .resetNRelease _ _ => none
  | .resetNAssert => none
  | .commandChannelReady => none
  | .railLoss _ _ => none
  | .railRestored _ _ _ _ => none
  | .dieTemperature _ _ => none
  | .watchdogExpiry _ => none
  | .shutterCauseClear _ => none
  | .shutterEntered => none
  | .shutterLeft => none
  | .keelFrame _ _ _ => none
  | .wearSample _ _ _ => none
  | .windowFrame => none
  | .doorbell _ _ => none
  | .hostTxFrame _ _ _ => none
  | .hostTxWriteback _ => none
  | .hostRxDeliver _ _ => none
  | .msixInterrupt _ => none
  | .pcieLinkDown => none
  | .coreParityError _ => none
  | .domainPowerGoodLoss _ => none
  | .vcoreTransitionEnd _ => none
  | .slicerStep _ _ _ => none
  | .synRelock _ => none
  | .pcieLinkUp _ _ _ => none

/-- A SESSION_OPEN reaches the tests of R522 past the header tests. -/
def State.opens (s : State) (rq : Request) : Prop :=
  s.phase = .ready ∧ s.carries rq = true ∧ (rq.transport = .mgmt → s.rdb P.CMD_MGMT_ENABLE = true) ∧
  headerChecks rq Op.SESSION_OPEN = true ∧ rq.version = 1 ∧ lengthFits rq = true ∧ rq.payload.length = 12

/-- The state in which a request that is taken up has its effect: its packet read, its session's idle timer restarted (R33), the session
occupied (R39), the request noted as started (R41), and one on the fast path counted (R42). -/
def State.begun (s : State) (op : Nat) (rq : Request) (x : Session) : State :=
  let t := (s.received rq).setSession x.uid fun y => { y with last := s.clock }
  let t := t.setSession x.uid fun y => y.noteStart rq.tag.toNat op
  let t := t.setSession x.uid fun y => { y with blocked := some rq.tag.toNat }
  if fastPath op rq then t.count P.CMD_FASTPATH_COUNT else t

/-- The request has been answered for good: its session is free for the next one, and the final reply with its status and payload is kept
for a repeat (R39, R41). -/
def State.replied (t : State) (x : Session) (op : Nat) (rq : Request) (status : Nat) (payload : List Byte) : Prop :=
  ∃ y, t.sessionUid x.uid = some y ∧ y.blocked = none ∧
    (⟨rq.tag.toNat, op, (originOf x op rq).packet status true payload⟩ : Stored) ∈ y.replies

/-- The final reply of a command that was accepted before, kept for a repeat of its request while that is one of the last 32 that the
session started (R39, R41). -/
def State.answered (t : State) (o : Origin) (status : Nat) (payload : List Byte) : Prop :=
  ∃ y, t.sessionUid o.uid = some y ∧
    (y.begun.contains (o.tag, o.opcode) = true → (⟨o.tag, o.opcode, o.packet status true payload⟩ : Stored) ∈ y.replies)

/-- The request has been taken in hand and its session is free for the next one (R39, R42). -/
def State.accepted (t : State) (x : Session) : Prop := ∃ y, t.sessionUid x.uid = some y ∧ y.blocked = none

end Sys2Proof.Machine
end

