-- ==== Sys2Proof/Certificates/Slice0/Obligations.lean ====
section
/-! DEFINITION. The statements about the model, for the provers. A statement whose clauses are read as `some t` says that the command
answers that next state; `Only W s t` that nothing but what `W` lists has changed; `t.replied x op rq st p` that the request has been
answered with the status `st` and the payload `p`. -/

open Sys2Proof Sys2Proof.Machine

/-- With a command c at the front of the queue of waiting commands, a step is the execution of c on the state whose queue is the rest.
Clauses that go beyond the cited rules are the model's choices: log entry 1. -/
def Obligations.StepRunsFrontCommand : Prop :=
  ∀ (c : Instr) (rest : List Instr) (s : State), s.pending = c :: rest → step s = exec c { s with pending := rest }

/-- On an empty queue the module ticks (assumption 2, the model's choice): true time advances 2 ns; the output stage's count, unless
RESET_N is held, advances one tick, or two or none where a pull of module time has gathered a whole tick either way; the count of
an ACTIVE core and of a core that cross-locks to it moves with it, that of a warming or failed core by one tick, that of a core
whose COR_STATE reads OFF not at all; the pulse of the second leaves where the count enters a new second under R143; and nothing
else changes. A tick moves a count by exactly 2 ns: an even nanoseconds field below 1,000,000,000 stays one, and where nanoseconds
would reach 1,000,000,000 they become 0 and seconds rise by 1. Outside a pull the output advances exactly one tick. -/
def Obligations.IdleStepIsATick : Prop :=
  (∀ (s : State) (lead : Int), s.pending = [] → lead = s.time.lead + s.pulled s.clock (s.clock + 2) →
    ∃ t : State, step s = .next t ∧ t.clock = s.clock + 2 ∧
      t.time.out = (if s.phase = .held then s.time.out else s.time.out.advance lead) ∧
      t.time.lead = (if s.phase = .held then s.time.lead else leadLeft lead) ∧
      (∀ c, c < 2 → (s.rd P.COR_STATE c = 0 → (t.core c).count = (s.core c).count) ∧
        (2 ≤ s.rd P.COR_STATE c → s.rd P.COR_STATE c ≤ 4 → (t.core c).count = (s.core c).count.advance lead) ∧
        (s.rd P.COR_STATE c = 1 ∨ 5 ≤ s.rd P.COR_STATE c → (t.core c).count = (s.core c).count.tick)) ∧
      t.time.pulseAt = (if t.time.out.sec ≠ s.time.out.sec ∧ (s.rdb P.REF_TIME_SET = true ∨ s.rdb P.REF_PPS_FREERUN = true) ∧
        (s.time.pulseAt.all fun u => decide (u + 500000000 ≤ s.clock + 2)) = true then some (s.clock + 2) else s.time.pulseAt) ∧
      { t with clock := s.clock, time := { t.time with
          out := s.time.out, lead := s.time.lead, pulseAt := s.time.pulseAt,
          coreA := { t.time.coreA with count := s.time.coreA.count },
          coreB := { t.time.coreB with count := s.time.coreB.count } } } = s) ∧
  (∀ s : State, s.rd P.REF_TSTATE ≠ 3 → s.pulled s.clock (s.clock + 2) = 0) ∧
  (∀ (x : TimeCount) (lead : Int), (lead.natAbs < 20000000000 → x.advance lead = x.tick ∧ leadLeft lead = lead) ∧
    (20000000000 ≤ lead → x.advance lead = x.tick.tick ∧ leadLeft lead = lead - 20000000000) ∧
    (lead ≤ -20000000000 → x.advance lead = x ∧ leadLeft lead = lead + 20000000000)) ∧
  ∀ x : TimeCount, x.sec + 1 < 2 ^ 48 → x.nano < 1000000000 → x.nano % 2 = 0 →
    x.tick.nano < 1000000000 ∧ x.tick.nano % 2 = 0 ∧ instant x.tick.sec x.tick.nano = instant x.sec x.nano + 2 ∧
      (x.nano = 999999998 → x.tick = ⟨x.sec + 1, 0⟩)

/-- At reset the registers, the scratchpad memory and the shadows are in canonical form, no command waits, no session is open and the
sessions are well kept, and every parameter reads its reset value. Clauses that go beyond the cited rules are the model's choices:
log entries 6, 65. -/
def Obligations.ResetIsCanonical : Prop :=
  State.reset.canonicalForm ∧ State.reset.sessionsLegal ∧ State.reset.cmd.sessions = [] ∧ State.reset.pending = [] ∧ ∀ b i, State.reset.rd b i = resetOf b i

/-- From every state in canonical form, not only those a run reaches, a step of any command of the table leaves the registers, the
scratchpad memory and the shadows in canonical form, so that equal contents stay equal data. Clauses that go beyond the cited
rules are the model's choices: log entry 65. -/
def Obligations.StepKeepsCanonicalForm : Prop :=
  ∀ s t : State, s.canonicalForm → step s = .next t → t.canonicalForm

/-- Whatever the state and whatever command waits, execution and a step answer a next state: the model refuses no command of the table
and has no fault. A step removes exactly the front command from the queue and adds none, true time advances by 2 ns in an idle
step and not at all in a command, and what has been put on an interface stays there, in order. Clauses that go beyond the cited
rules are the model's choices: log entries 2, 77. -/
def Obligations.StepTakesOneCommand : Prop :=
  (∀ (c : Instr) (s : State), ∃ t : State, exec c s = .next t) ∧
  ∀ s : State, ∃ t : State, step s = .next t ∧
    t.pending = s.pending.tail ∧ t.clock = (if s.pending = [] then s.clock + 2 else s.clock) ∧ s.out <+: t.out

/-- A command other than the seconds rollover (R57), the first lock in ACQUIRE (R57), the two edges of RESET_N, the loss and the
return of a rail and the loss of a domain leaves the count of the output stage, which is module time, as it was; so no servo,
switch-over or calibration steps it. That a command answers a next state is part of it. Clauses that go beyond the cited rules are
the model's choices: log entries 2, 41. -/
def Obligations.ModuleTimeMovesOnlyBySteps : Prop :=
  ∀ (c : Instr) (s : State), (c ≠ .setSecRollover ∧ (∀ a b, c ≠ .acquireLock a b) ∧ (∀ p h, c ≠ .resetNRelease p h) ∧
      c ≠ .resetNAssert ∧ (∀ r v, c ≠ .railLoss r v) ∧ (∀ r v p h, c ≠ .railRestored r v p h) ∧
      ∀ d, c ≠ .domainPowerGoodLoss d) →
    ∃ t : State, exec c s = .next t ∧ t.time.out = s.time.out

/-- Bytes 14 and 15 of a trailer hold the ones' complement of the ones' complement sum of the seven words before them, which with end-
around carry is the remainder of their sum by 65535 (65535 itself for a sum that is not 0 and divides by it); the sum over all
eight words is 0xFFFF; and the header check of a request is the same arithmetic. -/
def Obligations.TrailerCheckSums : Prop :=
  (∀ (rx : Stamp) (port : Nat) (b : List Byte) (n : Nat), trailer rx port = b → n = ((List.range 7).map fun i => beAt (2 * i) 2 b).sum →
    b.length = 16 ∧ onesSum (b.take 14) = (if n = 0 then 0 else (n - 1) % 65535 + 1) ∧
      beAt 14 2 b = 65535 - onesSum (b.take 14) ∧ onesSum b = 0xFFFF) ∧
  ∀ (rq : Request) (op : Nat), headerChecks rq op = true ↔ onesSum (requestHead rq op ++ toBe 2 rq.check.toNat) = 0xFFFF

/-- A SESSION_OPEN that passes every test of R522 takes the lowest free number 1 to 16; the session is OPEN with the requested
privilege, or PROVING for 10 s where the privilege needs a proof on that transport, with the negotiated version and the notice
mask; no other session's state, privilege or transport changes; of the other registers only the count of over-limit stamps can
rise, where the reply leaves through the NHP tunnel in a stamped frame. Clauses that go beyond the cited rules are the model's
choices: log entry 8. Completion: under conditions on the state and the operands alone, as its clauses write them, exec answers a
next state with the named effect for sessionOpen. -/
def Obligations.SessionOpenIsGrantedOrChallenged : Prop :=
  ∀ (rq : Request) (s : State), s.opens rq →
    s.openRefusal rq.transport (beAt 0 1 rq.payload) (beAt 1 1 rq.payload) = 0 →
    ∃ t n x, exec (.sessionOpen rq) s = .next t.settle ∧ 1 ≤ n ∧ n ≤ 16 ∧ s.sessState n = 0 ∧
      (∀ m, 1 ≤ m → m < n → s.sessState m ≠ 0) ∧
      t.sessState n = (if s.needsProof rq.transport (beAt 1 1 rq.payload) = true then 3 else 1) ∧
      t.sessPriv n = beAt 1 1 rq.payload ∧ t.rd P.CMD_SESSION_TRANSPORT (n - 1) = trCode rq.transport ∧
      t.cmd.sessions = s.cmd.sessions ++ [x] ∧ x.num = n ∧ x.uid = s.cmd.nextUid ∧ x.transport = rq.transport ∧
      x.version = s.versionOf (beAt 0 1 rq.payload) ∧ x.blocked = none ∧ x.backlog = [] ∧
      x.mask = (if rq.transport = .nhp then 0 else beAt 4 8 rq.payload) ∧
      (s.needsProof rq.transport (beAt 1 1 rq.payload) = true → x.proveBy = s.clock + 10000000000 ∧ x.nonce.length = 32) ∧
      (∀ b i, 62 ≤ b → i ≠ n - 1 ∨ b ∉ [P.CMD_SESSION_STATE, P.CMD_SESSION_PRIV, P.CMD_SESSION_TRANSPORT] →
        b ≠ P.TBS_OVER_LIMIT_COUNT → t.rd b i = s.rd b i) ∧
      Only (some [F.cmd, F.sessions, F.rings, F.fresh, P.CMD_SESSION_STATE, P.CMD_SESSION_PRIV,
        P.CMD_SESSION_TRANSPORT, P.TBS_OVER_LIMIT_COUNT]) s t

/-- The tests come in the order of R522: a privilege byte above 3, no common version, a privilege above the transport's ceiling,
version 1 above ADMIN or above what the transport grants, SECURITY outside SPI in state FACTORY, and no free number; a refused
SESSION_OPEN is counted, and no session comes to be. Completion: under conditions on the state and the operands alone, as its
clauses write them, exec answers a next state with the named effect for sessionOpen. -/
def Obligations.SessionOpenIsRefused : Prop :=
  (∀ (s : State) (tr : Transport) (bitmap priv : Nat),
    (3 < priv → s.openRefusal tr bitmap priv = Status.BAD_VALUE) ∧
    (priv ≤ 3 → s.versionOf bitmap = 0 → s.openRefusal tr bitmap priv = Status.BAD_VERSION) ∧
    (priv ≤ 3 → s.versionOf bitmap ≠ 0 → s.rd P.CMD_CEILING (trCode tr) < priv →
      s.openRefusal tr bitmap priv = Status.PRIVILEGE_VIOLATION) ∧
    (priv ≤ 3 → s.versionOf bitmap ≠ 0 → priv ≤ s.rd P.CMD_CEILING (trCode tr) → priv ≤ freePrivilege tr →
      s.freeSession = none → s.openRefusal tr bitmap priv = Status.NO_SESSION)) ∧
  ∀ (rq : Request) (s : State), s.opens rq →
    s.openRefusal rq.transport (beAt 0 1 rq.payload) (beAt 1 1 rq.payload) ≠ 0 →
    ∃ t : State, exec (.sessionOpen rq) s = .next t.settle ∧ t.cmd.sessions = s.cmd.sessions ∧
      t.rd P.CMD_REFUSED_COUNT = (s.rd P.CMD_REFUSED_COUNT + 1) % 2 ^ 48 ∧
      Only (some [F.cmd, F.rings, P.CMD_REFUSED_COUNT, P.TBS_OVER_LIMIT_COUNT]) s t

/-- In PROVING, a SESSION_PROVE that carries the operator's signature over nonce and number within 10 s makes the session OPEN; any
other proof frees the number; so does the end of the 10 s, and before that it has no effect. Of the sessions' registers only that
session's state, privilege and transport change, and of the others only counts of requests and stamps. A SESSION_PROVE of a
session that is not in PROVING is answered PROOF_FAILED. Clauses that go beyond the cited rules are the model's choices: log
entries 20, 24. Completion: under conditions on the state and the operands alone, as its clauses write them, exec answers a next
state with the named effect for sessionProve and proofTimeout. -/
def Obligations.SessionProofOpensOrFrees : Prop :=
  (∀ (rq : Request) (s : State) (x : Session), s.taken Op.SESSION_PROVE rq x → s.sessionUid x.uid = some x →
    s.sessState x.num = 3 → s.proves x rq.payload = true →
    ∃ t : State, exec (.sessionProve rq) s = .next t.settle ∧ t.sessState x.num = 1 ∧ t.sessPriv x.num = s.sessPriv x.num ∧
      t.replied x Op.SESSION_PROVE rq Status.OK [] ∧ Only (some [F.cmd, F.rings, F.sessions, P.CMD_FASTPATH_COUNT, P.CMD_REFUSED_COUNT, P.CMD_SESSION_PRIV, P.CMD_SESSION_STATE, P.CMD_SESSION_TRANSPORT,
        P.TBS_OVER_LIMIT_COUNT]) s t ∧
      ∀ b i, 62 ≤ b → i ≠ x.num - 1 ∨ b ≠ P.CMD_SESSION_STATE → b ≠ P.CMD_REFUSED_COUNT → b ≠ P.CMD_FASTPATH_COUNT →
        b ≠ P.TBS_OVER_LIMIT_COUNT → t.rd b i = s.rd b i) ∧
  (∀ (rq : Request) (s : State) (x : Session), s.taken Op.SESSION_PROVE rq x → s.sessionUid x.uid = some x →
    s.sessState x.num = 3 → s.proves x rq.payload = false →
    ∃ t : State, exec (.sessionProve rq) s = .next t.settle ∧ t.sessState x.num = 0 ∧ t.sessPriv x.num = 0 ∧ t.session x.num = none ∧
      (rq.transport = .spi →
        Waiting.reply ((originOf x Op.SESSION_PROVE rq).packet Status.PROOF_FAILED true []) ∈ t.cmd.spi) ∧
      Only (some [F.cmd, F.rings, F.sessions, P.CMD_FASTPATH_COUNT, P.CMD_REFUSED_COUNT, P.CMD_SESSION_PRIV, P.CMD_SESSION_STATE, P.CMD_SESSION_TRANSPORT,
        P.TBS_OVER_LIMIT_COUNT]) s t ∧
      ∀ b i, 62 ≤ b → i ≠ x.num - 1 ∨ b ∉ [P.CMD_SESSION_STATE, P.CMD_SESSION_PRIV, P.CMD_SESSION_TRANSPORT] →
        b ∉ [P.CMD_REFUSED_COUNT, P.CMD_FASTPATH_COUNT, P.TBS_OVER_LIMIT_COUNT] → t.rd b i = s.rd b i) ∧
  (∀ (rq : Request) (s : State) (x : Session), s.taken Op.SESSION_PROVE rq x → s.sessionUid x.uid = some x →
    s.sessState x.num ≠ 3 →
    ∃ t : State, exec (.sessionProve rq) s = .next t.settle ∧ t.replied x Op.SESSION_PROVE rq Status.PROOF_FAILED [] ∧
      Only (some [F.cmd, F.rings, P.CMD_REFUSED_COUNT, P.TBS_OVER_LIMIT_COUNT]) s t) ∧
  (∀ (n : Fin 16) (s : State) (x : Session), s.session (n.val + 1) = some x → s.sessState x.num = 3 → x.proveBy ≤ s.clock →
    ∃ t : State, exec (.proofTimeout n) s = .next t ∧ t.sessState (n.val + 1) = 0 ∧ t.sessPriv (n.val + 1) = 0 ∧
      t.session (n.val + 1) = none ∧ Only (some [F.cmd, F.rings, F.sessions, P.CMD_REFUSED_COUNT, P.CMD_SESSION_PRIV, P.CMD_SESSION_STATE, P.CMD_SESSION_TRANSPORT, P.TBS_OVER_LIMIT_COUNT]) s t ∧
      ∀ b i, 62 ≤ b → i ≠ n.val ∨ b ∉ [P.CMD_SESSION_STATE, P.CMD_SESSION_PRIV, P.CMD_SESSION_TRANSPORT] →
        b ∉ [P.CMD_REFUSED_COUNT, P.TBS_OVER_LIMIT_COUNT] → t.rd b i = s.rd b i) ∧
  ∀ (n : Fin 16) (s : State), (∀ x, s.session (n.val + 1) = some x → s.sessState x.num ≠ 3 ∨ s.clock < x.proveBy) →
    exec (.proofTimeout n) s = .next s

/-- A SESSION_CLOSE that its session may send frees the number in use that it names and answers OK, and answers BAD_VALUE for a number
outside 1 to 16 and NOT_FOUND for one not in use; an open session on which no request arrived for CMD_SESSION_IDLE seconds is
freed, and never one before that or with the timer off; SESSION_SET stores the 64-bit mask; on the tunnel it takes 0 alone and
answers BAD_VALUE to another. Clauses that go beyond the cited rules are the model's choices: log entry 3. Completion: under
conditions on the state and the operands alone, as its clauses write them, exec answers a next state with the named effect for
sessionClose, sessionIdleTimeout and sessionSet. -/
def Obligations.SessionClosesAndSets : Prop :=
  (∀ (rq : Request) (s : State) (x : Session), s.taken Op.SESSION_CLOSE rq x → 1 ≤ beAt 0 2 rq.payload →
    beAt 0 2 rq.payload ≤ 16 → s.sessState (beAt 0 2 rq.payload) ≠ 0 → (s.session (beAt 0 2 rq.payload)).isSome = true →
    ∃ t : State, exec (.sessionClose rq) s = .next t.settle ∧ t.sessState (beAt 0 2 rq.payload) = 0 ∧
      t.sessPriv (beAt 0 2 rq.payload) = 0 ∧ t.session (beAt 0 2 rq.payload) = none ∧
      (∀ m, m - 1 ≠ beAt 0 2 rq.payload - 1 → t.sessState m = s.sessState m ∧ t.sessPriv m = s.sessPriv m) ∧
      (rq.transport = .spi → Waiting.reply ((originOf x Op.SESSION_CLOSE rq).packet Status.OK true []) ∈ t.cmd.spi) ∧
      Only (some [F.cmd, F.rings, F.sessions, P.CMD_FASTPATH_COUNT, P.CMD_REFUSED_COUNT, P.CMD_SESSION_PRIV, P.CMD_SESSION_STATE, P.CMD_SESSION_TRANSPORT,
        P.TBS_OVER_LIMIT_COUNT]) s t) ∧
  (∀ (rq : Request) (s : State) (x : Session) (st : Nat), s.taken Op.SESSION_CLOSE rq x →
    (((beAt 0 2 rq.payload = 0 ∨ 16 < beAt 0 2 rq.payload) ∧ st = Status.BAD_VALUE) ∨
      (1 ≤ beAt 0 2 rq.payload ∧ beAt 0 2 rq.payload ≤ 16 ∧ s.sessState (beAt 0 2 rq.payload) = 0 ∧ st = Status.NOT_FOUND)) →
    ∃ t : State, exec (.sessionClose rq) s = .next t.settle ∧ t.replied x Op.SESSION_CLOSE rq st [] ∧
      Only (some [F.cmd, F.rings, P.CMD_REFUSED_COUNT, P.TBS_OVER_LIMIT_COUNT]) s t) ∧
  (∀ (n : Fin 16) (s : State) (x : Session), s.session (n.val + 1) = some x → s.sessState x.num = 1 →
    s.rd P.CMD_SESSION_IDLE ≠ 0 → x.last + 1000000000 * s.rd P.CMD_SESSION_IDLE ≤ s.clock →
    ∃ t : State, exec (.sessionIdleTimeout n) s = .next t ∧ t.sessState (n.val + 1) = 0 ∧ t.session (n.val + 1) = none ∧
      Only (some [F.cmd, F.rings, F.sessions, P.CMD_REFUSED_COUNT, P.CMD_SESSION_PRIV, P.CMD_SESSION_STATE, P.CMD_SESSION_TRANSPORT, P.TBS_OVER_LIMIT_COUNT]) s t) ∧
  (∀ (n : Fin 16) (s : State) (x : Session), s.session (n.val + 1) = some x →
    (s.sessState x.num ≠ 1 ∨ s.rd P.CMD_SESSION_IDLE = 0 ∨ s.clock < x.last + 1000000000 * s.rd P.CMD_SESSION_IDLE) →
    exec (.sessionIdleTimeout n) s = .next s) ∧
  (∀ (n : Fin 16) (s : State), s.session (n.val + 1) = none → exec (.sessionIdleTimeout n) s = .next s) ∧
  (∀ (rq : Request) (s : State) (x : Session), s.taken Op.SESSION_SET rq x → rq.transport = .nhp → beAt 0 8 rq.payload ≠ 0 →
    ∃ t : State, exec (.sessionSet rq) s = .next t.settle ∧ t.replied x Op.SESSION_SET rq Status.BAD_VALUE [] ∧
      Only (some [F.cmd, F.rings, P.CMD_REFUSED_COUNT, P.TBS_OVER_LIMIT_COUNT]) s t) ∧
  ∀ (rq : Request) (s : State) (x : Session), s.taken Op.SESSION_SET rq x →
    (rq.transport ≠ .nhp ∨ beAt 0 8 rq.payload = 0) →
    ∃ (t : State) (y : Session), exec (.sessionSet rq) s = .next t.settle ∧ t.sessionUid x.uid = some y ∧ y.mask = beAt 0 8 rq.payload ∧
      t.replied x Op.SESSION_SET rq Status.OK [] ∧ Only (some [F.cmd, F.rings, P.CMD_FASTPATH_COUNT, P.CMD_REFUSED_COUNT, P.TBS_OVER_LIMIT_COUNT]) s t

/-- Every step keeps the sessions well kept, so that there are never more than 16, each with a number from 1 to 16 of its own whatever
its transport; a SESSION_OPEN that passes the tests takes the lowest number that no session has, and one that passes every earlier
test while all 16 are in use is answered NO_SESSION. Completion: under conditions on the state and the operands alone, as its
clauses write them, exec answers a next state with the named effect for sessionOpen. -/
def Obligations.SessionNumbersStayLegal : Prop :=
  (∀ s t : State, s.sessionsLegal → step s = .next t → t.sessionsLegal) ∧
  (∀ s : State, s.sessionsLegal → s.cmd.sessions.length ≤ 16 ∧ (s.cmd.sessions.map Session.num).Nodup ∧
    ∀ x ∈ s.cmd.sessions, 1 ≤ x.num ∧ x.num ≤ 16) ∧
  (∀ (rq : Request) (s : State), s.sessionsLegal → s.opens rq →
    s.openRefusal rq.transport (beAt 0 1 rq.payload) (beAt 1 1 rq.payload) = 0 →
    ∃ (t : State) (x : Session), exec (.sessionOpen rq) s = .next t.settle ∧ t.cmd.sessions = s.cmd.sessions ++ [x] ∧
      x.transport = rq.transport ∧ 1 ≤ x.num ∧ x.num ≤ 16 ∧ (∀ y ∈ s.cmd.sessions, y.num ≠ x.num) ∧
      ∀ m, 1 ≤ m → m < x.num → ∃ y ∈ s.cmd.sessions, y.num = m) ∧
  ∀ (rq : Request) (s : State), s.sessionsLegal → s.opens rq → s.cmd.sessions.length = 16 → beAt 1 1 rq.payload ≤ 3 →
    s.versionOf (beAt 0 1 rq.payload) ≠ 0 → beAt 1 1 rq.payload ≤ s.rd P.CMD_CEILING (trCode rq.transport) →
    (s.versionOf (beAt 0 1 rq.payload) = 1 → beAt 1 1 rq.payload ≤ 2 ∧ beAt 1 1 rq.payload ≤ freePrivilege rq.transport) →
    (beAt 1 1 rq.payload = 3 → s.rd P.SPD_LIFECYCLE = 0 → rq.transport = .spi) →
    exec (.sessionOpen rq) s = .next ((s.received rq).finishOpen ⟨0, rq.transport, rq.chan, rq.session.toNat, rq.version.toNat,
      Op.SESSION_OPEN, rq.tag.toNat⟩ Status.NO_SESSION []).settle

/-- For every command that is a request of a session: a header whose check fails is answered BAD_CHECK (with a session field of at
most 16), a wrong length BAD_LENGTH, a session number that no session which serves the request holds BAD_SESSION, another version
than the session's BAD_VERSION, a frozen session's request SESSION_FROZEN, an opcode that the session's version has not
UNKNOWN_OPCODE, a payload of a length that the opcode does not take BAD_LENGTH, a tag in use TAG_IN_USE, a request above
CMD_MAX_OUTSTANDING BUSY, in that order; before the command channel is ready, on MGMT while that is off, and with a failing header
check and a session field above 16 on SPI or MGMT the packet is ignored. The refusal is counted, no other register changes (but
TBS_OVER_LIMIT_COUNT, where the reply leaves through the NHP tunnel in a stamped frame), and the sessions stay. Clauses that go
beyond the cited rules are the model's choices: log entry 17. Completion: under conditions on the state and the operands alone, as
its clauses write them, exec answers a next state with the named effect for unknownOpcode. -/
def Obligations.IntakeRefusesInOrder : Prop :=
  (∀ (c : Instr) (op : Nat) (rq : Request) (s : State) (x : Session) (st v : Nat), asRequest c = some (op, rq) →
    op ≠ Op.SESSION_OPEN → s.phase = .ready → s.carries rq = true → (rq.transport = .mgmt → s.rdb P.CMD_MGMT_ENABLE = true) →
    ((headerChecks rq op = false ∧ rq.session.toNat ≤ 16 ∧ st = Status.BAD_CHECK ∧ v = rq.version.toNat) ∨
      (headerChecks rq op = true ∧ lengthFits rq = false ∧ st = Status.BAD_LENGTH ∧ v = rq.version.toNat) ∨
      (headerChecks rq op = true ∧ lengthFits rq = true ∧ s.serving op rq = none ∧ st = Status.BAD_SESSION ∧
        v = rq.version.toNat) ∨
      (headerChecks rq op = true ∧ lengthFits rq = true ∧ s.serving op rq = some x ∧ v = x.version ∧
        ((rq.version.toNat ≠ x.version ∧ st = Status.BAD_VERSION) ∨
          (rq.version.toNat = x.version ∧ s.sessState x.num = 2 ∧ closesSelf rq op = false ∧ st = Status.SESSION_FROZEN) ∨
          (rq.version.toNat = x.version ∧ s.sessState x.num ≠ 2 ∧ (opRow op).all (fun r => decide (x.version < r.since)) = true ∧
            st = Status.UNKNOWN_OPCODE) ∨
          (rq.version.toNat = x.version ∧ s.sessState x.num ≠ 2 ∧
            (opRow op).any (fun r => decide (r.since ≤ x.version) && !r.sized rq.payload) = true ∧ st = Status.BAD_LENGTH) ∨
          (rq.version.toNat = x.version ∧ s.sessState x.num ≠ 2 ∧ opFits op x.version rq = true ∧
            x.tagsInUse.contains rq.tag.toNat = true ∧ st = Status.TAG_IN_USE) ∨
          (rq.version.toNat = x.version ∧ s.sessState x.num ≠ 2 ∧ opFits op x.version rq = true ∧
            x.tagsInUse.contains rq.tag.toNat = false ∧ s.rd P.CMD_MAX_OUTSTANDING ≤ x.outstanding.length ∧
            st = Status.BUSY)))) →
    ∃ t u : State, exec c s = .next t.settle ∧
      t = u.sendPacket rq.transport rq.chan ⟨v, replyFlags rq.transport true, op, rq.tag.toNat, rq.session.toNat, st, []⟩ ∧
      t.rd P.CMD_REFUSED_COUNT = (s.rd P.CMD_REFUSED_COUNT + 1) % 2 ^ 48 ∧
      (rq.transport = .spi → Waiting.reply ⟨v, replyFlags .spi true, op, rq.tag.toNat, rq.session.toNat, st, []⟩ ∈ t.cmd.spi) ∧
      Only (some [F.cmd, F.rings]) s u ∧ Only (some [F.cmd, F.rings, P.CMD_REFUSED_COUNT, P.TBS_OVER_LIMIT_COUNT]) s t) ∧
  (∀ (c : Instr) (op : Nat) (rq : Request) (s : State), asRequest c = some (op, rq) → rq.transport ≠ .pcie →
    (s.phase ≠ .ready ∨ (rq.transport = .mgmt ∧ s.rdb P.CMD_MGMT_ENABLE = false) ∨
      (headerChecks rq op = false ∧ (rq.transport = .spi ∨ rq.transport = .mgmt) ∧ 16 < rq.session.toNat)) →
    exec c s = .next s.settle) ∧
  ∀ (op : BitVec 16) (rq : Request) (s : State) (x : Session), opRow op.toNat = none → s.phase = .ready → s.carries rq = true →
    (rq.transport = .mgmt → s.rdb P.CMD_MGMT_ENABLE = true) → headerChecks rq op.toNat = true → lengthFits rq = true →
    s.session rq.session.toNat = some x → x.transport = rq.transport → s.sessState x.num = 1 → rq.version.toNat = x.version →
    ∃ t u : State, exec (.unknownOpcode op rq) s = .next t.settle ∧ t = u.sendPacket rq.transport rq.chan
        ⟨x.version, replyFlags rq.transport true, op.toNat, rq.tag.toNat, rq.session.toNat, Status.UNKNOWN_OPCODE, []⟩ ∧
      t.rd P.CMD_REFUSED_COUNT = (s.rd P.CMD_REFUSED_COUNT + 1) % 2 ^ 48 ∧ Only (some [F.cmd, F.rings]) s u ∧
      Only (some [F.cmd, F.rings, P.CMD_REFUSED_COUNT, P.TBS_OVER_LIMIT_COUNT]) s t

/-- For every command that is a request: where a starting request breaks its session's privilege (by its opcode, by the block of a
commit, by any entry of a write, or by closing another session below ADMIN), it is answered PRIVILEGE_VIOLATION, the session is
FROZEN, its bit of CMD_VIOLATION is set, and the opcode, the first address and the module time are recorded; nothing else changes.
Clauses that go beyond the cited rules are the model's choices: log entry 22. -/
def Obligations.PrivilegeBreachFreezesSession : Prop :=
  ∀ (c : Instr) (op : Nat) (rq : Request) (s : State) (x : Session) (a : Nat), asRequest c = some (op, rq) →
    op ≠ Op.SESSION_OPEN → s.reached op rq x → s.sessState x.num = 1 → s.breach x op rq.payload = some a →
    ∃ t : State, exec c s = .next t.settle ∧ t.sessState x.num = 2 ∧ (t.rd P.CMD_VIOLATION).testBit (x.num - 1) = true ∧
      t.rd P.CMD_VIOL_OPCODE (x.num - 1) = op ∧ t.rd P.CMD_VIOL_ADDR (x.num - 1) = a ∧
      t.rd P.CMD_VIOL_TIME (x.num - 1) = s.now ∧ t.replied x op rq Status.PRIVILEGE_VIOLATION [] ∧
      (∀ n, n - 1 ≠ x.num - 1 → t.sessState n = s.sessState n) ∧
      Only (some [F.cmd, F.rings, P.CMD_SESSION_STATE, P.CMD_VIOLATION, P.CMD_VIOL_OPCODE, P.CMD_VIOL_ADDR,
        P.CMD_VIOL_TIME, P.CMD_REFUSED_COUNT, P.TBS_OVER_LIMIT_COUNT]) s t

/-- For every command that is a request of an open session: where a final reply to the same tag and opcode is stored, that packet is
sent again, CMD_DUP_COUNT rises, and nothing acts; where an earlier request of the session is unfinished, the request joins the
session's queue, with the number of its arrival, and changes no register; one that starts at once, breaks no privilege and is
served by a running core has the effect of its opcode on the state in which it has begun, whichever request row of the table it
is. Clauses that go beyond the cited rules are the model's choices: log entries 20, 21. -/
def Obligations.RepeatedRequestGetsItsStoredReply : Prop :=
  (∀ (c : Instr) (op : Nat) (rq : Request) (s : State) (x : Session) (y : Stored), asRequest c = some (op, rq) →
    op ≠ Op.SESSION_OPEN → s.phase = .ready → s.carries rq = true → (rq.transport = .mgmt → s.rdb P.CMD_MGMT_ENABLE = true) →
    headerChecks rq op = true → lengthFits rq = true → s.session rq.session.toNat = some x → x.transport = rq.transport →
    s.sessState x.num = 1 → rq.version.toNat = x.version → opFits op x.version rq = true →
    x.tagsInUse.contains rq.tag.toNat = false → x.outstanding.length < s.rd P.CMD_MAX_OUTSTANDING →
    (x.replies.find? fun r => r.tag == rq.tag.toNat && r.op == op) = some y →
    ∃ t u, exec c s = .next t.settle ∧ t = u.sendPacket rq.transport rq.chan y.pkt ∧
      u.rd P.CMD_DUP_COUNT = (s.rd P.CMD_DUP_COUNT + 1) % 2 ^ 48 ∧ Only (some [F.cmd, F.rings, P.CMD_DUP_COUNT]) s u ∧
      Only (some [F.cmd, F.rings, P.CMD_DUP_COUNT, P.CMD_REFUSED_COUNT, P.TBS_OVER_LIMIT_COUNT]) s t) ∧
  (∀ (c : Instr) (op : Nat) (rq : Request) (s : State) (x : Session), asRequest c = some (op, rq) →
    op ≠ Op.SESSION_OPEN → s.phase = .ready → s.carries rq = true → (rq.transport = .mgmt → s.rdb P.CMD_MGMT_ENABLE = true) →
    headerChecks rq op = true → lengthFits rq = true → s.session rq.session.toNat = some x → s.sessionUid x.uid = some x →
    x.transport = rq.transport → s.sessState x.num = 1 → rq.version.toNat = x.version → opFits op x.version rq = true →
    x.tagsInUse.contains rq.tag.toNat = false → x.outstanding.length < s.rd P.CMD_MAX_OUTSTANDING →
    (x.replies.find? fun r => r.tag == rq.tag.toNat && r.op == op) = none → x.blocked.isSome = true →
    ∃ (t : State) (y : Session), exec c s = .next t.settle ∧ t.sessionUid x.uid = some y ∧ y.backlog = x.backlog ++ [⟨op, rq, s.cmd.arrivals⟩] ∧
      y.blocked = x.blocked ∧ Only (some [F.cmd, F.rings]) s t) ∧
  ∀ (c : Instr) (op : Nat) (rq : Request) (s : State) (x : Session) (r : OpRow), asRequest c = some (op, rq) →
    op ≠ Op.SESSION_OPEN → s.taken op rq x → opRow op = some r →
    exec c s = .next (r.body (originOf x op rq) rq.payload (s.begun op rq x)).settle

/-- For every command that is a request off the fast path: where the firmware core that serves it is frozen, the request is answered
INTERNAL_FAULT, sticky fault 20 is raised and counted, and the opcode has no effect. Clauses that go beyond the cited rules are
the model's choices: log entries 7, 14, 23. -/
def Obligations.FrozenCoreFailsRequest : Prop :=
  ∀ (c : Instr) (op : Nat) (rq : Request) (s : State) (x : Session), asRequest c = some (op, rq) → op ≠ Op.SESSION_OPEN →
    s.reached op rq x → s.breach x op rq.payload = none → s.coreFrozen op = true → fastPath op rq = false →
    ∃ t : State, exec c s = .next t.settle ∧ (t.rd P.HLT_STICKY).testBit 20 = true ∧
      t.rd P.HLT_FAULT_COUNT = (s.rd P.HLT_FAULT_COUNT + 1) % 2 ^ 48 ∧ t.replied x op rq Status.INTERNAL_FAULT [] ∧
      Only (some [F.cmd, F.fault, F.fresh, F.rings, P.CMD_NOTICE_DROP, P.CMD_REFUSED_COUNT, P.HLT_FAULT_COUNT, P.HLT_STICKY,
        P.TBS_OVER_LIMIT_COUNT]) s t

/-- A packet for MGMT is sent at once as one UDP datagram to the port it came from; a packet for SPI joins the queue that SPI reads
drain, oldest first, and a read sends the oldest waiting reply in its frame or the idle word; a packet for PCIe is written to its
reply ring while there is room and waits in order behind it otherwise; a status of 0x100 and above is counted in
CMD_REFUSED_COUNT. Clauses that go beyond the cited rules are the model's choices: log entries 25, 26. Completion: under
conditions on the state and the operands alone, as its clauses write them, exec answers a next state with the named effect for
spiReadTransfer. -/
def Obligations.PacketLeavesByItsTransport : Prop :=
  (∀ (s : State) (chan : Nat) (p : Packet), s.rdb P.CMD_MGMT_ENABLE = true →
    (s.sendPacket .mgmt chan p).out = s.out ++ [.udp chan p.bytes]) ∧
  (∀ (s : State) (chan : Nat) (p : Packet), (s.sendPacket .spi chan p).cmd.spi = s.cmd.spi ++ [.reply p]) ∧
  (∀ (s : State) (chan : Nat) (p : Packet), s.replyRoom chan = false →
    (s.sendPacket .pcie chan p).cmd.mbx = s.cmd.mbx ++ [(chan, .reply p)]) ∧
  (∀ (s : State) (chan : Nat) (p : Packet) (r : Ring), s.replyRoom chan = true → s.cmd.mbx = [] → s.ring (164 + chan) = some r →
    (s.out ++ [.hostWrite (r.slotAddr 4096 r.prod) p.bytes]) <+: (s.sendPacket .pcie chan p).out ∧
    ((s.sendPacket .pcie chan p).ring (164 + chan)).map Ring.prod = some (advance r.prod 1)) ∧
  (∀ (s : State) (tr : Transport) (chan : Nat) (p : Packet), (s.sendPacket tr chan p).rd P.CMD_REFUSED_COUNT =
    if 0x100 ≤ p.status then (s.rd P.CMD_REFUSED_COUNT + 1) % 2 ^ 48 else s.rd P.CMD_REFUSED_COUNT) ∧
  (∀ (s : State) (p : Packet) (rest : List Waiting), s.phase = .ready → s.cmd.spi = .reply p :: rest → p.bytes ≠ [] →
    ∃ t : State, exec .spiReadTransfer s = .next t ∧ t.cmd.spi = rest ∧ t.out = s.out ++ [.spi (spiFrame p.bytes)] ∧
      Only (some [F.cmd]) s t) ∧
  ∀ s : State, s.phase = .ready → s.cmd.spi = [] →
    ∃ t : State, exec .spiReadTransfer s = .next t ∧ t.out = s.out ++ [.spi [0xEC, 0x9A, 0, 0]] ∧ Only (some []) s t

/-- A PARAM_READ whose entries all pass answers, in entry order, each element's operational value or its shadow in 8 bytes; one with a
refused entry answers the refusal of the first such entry; SYS_INFO answers the 32-byte identity. None of them changes a parameter
other than the command channel's own counters. Clauses that go beyond the cited rules are the model's choices: log entries 18, 19,
37, 76. Completion: under conditions on the state and the operands alone, as its clauses write them, exec answers a next state
with the named effect for paramRead and sysInfo. -/
def Obligations.ParamReadReturnsValues : Prop :=
  (∀ (rq : Request) (s : State) (x : Session), s.taken Op.PARAM_READ rq x →
    ((readEntries rq.payload).all fun e => readRefusal e == 0) = true →
    ∃ t : State, exec (.paramRead rq) s = .next t.settle ∧
      t.replied x Op.PARAM_READ rq Status.OK
        ((readEntries rq.payload).map ((s.begun Op.PARAM_READ rq x).readValues x.num)).flatten ∧
      Only (some [F.cmd, F.rings, P.CMD_FASTPATH_COUNT, P.CMD_REFUSED_COUNT, P.TBS_OVER_LIMIT_COUNT]) s t) ∧
  (∀ (rq : Request) (s : State) (x : Session) (e : ReadEntry), s.taken Op.PARAM_READ rq x →
    ((readEntries rq.payload).find? fun e => readRefusal e != 0) = some e →
    ∃ t : State, exec (.paramRead rq) s = .next t.settle ∧ t.replied x Op.PARAM_READ rq (readRefusal e) [] ∧
      Only (some [F.cmd, F.rings, P.CMD_FASTPATH_COUNT, P.CMD_REFUSED_COUNT, P.TBS_OVER_LIMIT_COUNT]) s t) ∧
  (∀ (s : State) (n : Nat) (e : ReadEntry) (p : Param) (i : Nat), elementOf e.addr e.first = some (p, i) → e.count = 1 →
    (e.shadow = true → s.readValues n e = toBe 8 (s.shadow p.base i)) ∧
    (e.shadow = false → s.readValues n e = toBe 8 (s.readView n p.base i))) ∧
  (∀ (s : State) (n b i : Nat), b ∉ [P.SYS_UPTIME, P.TBS_EPOCH, P.TBS_EPOCH_SEC, P.TBS_EPOCH_AGE, P.TBL_FENCE_PENDING,
      P.TBL_FENCE_AGE, P.LCK_ADM_ENTRY, P.LCK_OPR_ENTRY, P.LCK_FIBRE_USED, P.LCK_PORT_FLAGS, P.LNK_BEVT, P.LNK_FLAGS, P.REF_PULL_REM,
      P.REF_HOLDOFF_LEFT, P.REF_WTR_LEFT, P.CAL_BUSY, P.LOG_HOLD_TIME, P.HLT_FIRST_FAULT, P.OPT_TEC_TEMP,
      P.OPT_RX_POWER, P.OBS_CTR] →
    s.readView n b i = s.rd b i) ∧
  ∀ (rq : Request) (s : State) (x : Session), s.taken Op.SYS_INFO rq x →
    ∃ t : State, exec (.sysInfo rq) s = .next t.settle ∧
      t.replied x Op.SYS_INFO rq Status.OK
        (toBe 2 (s.rd P.SYS_PRODUCT) ++ toBe 1 (s.rd P.SYS_ISSUE) ++ toBe 1 (s.rd P.SPD_LIFECYCLE) ++
          toBe 4 (s.rd P.SYS_FW_VERSION) ++ toBe 8 (s.rd P.SYS_SERIAL) ++ toBe 8 (s.rd P.HIE_IDENTITY) ++
          toBe 1 (s.rd P.CMD_ECP_VERSIONS) ++ toBe 1 (s.rd P.HIE_VERSIONS) ++ toBe 1 (s.rd P.HST_FORMATS) ++
          toBe 1 (s.rd P.PWR_BOOT_SLOT) ++ toBe 2 (s.rd P.SYS_PARAM_COUNT) ++ zeros 2) ∧
      Only (some [F.cmd, F.rings, P.CMD_REFUSED_COUNT, P.TBS_OVER_LIMIT_COUNT]) s t

/-- Where any entry is refused, the answer names the first such entry and its status and no entry is applied. A good entry of a COMMIT
parameter changes its shadow only; one of a LIVE or HALT parameter stores the value with its reserved bits 0; each raises
SYS_CONFIG_GEN by 1. Clauses that go beyond the cited rules are the model's choices: log entries 19, 29, 30. Completion: under
conditions on the state and the operands alone, as its clauses write them, exec answers a next state with the named effect for
paramWrite. -/
def Obligations.ParamWriteIsAllOrNothing : Prop :=
  (∀ (rq : Request) (s : State) (x : Session) (k st : Nat), s.taken Op.PARAM_WRITE rq x →
    s.writeFault (writeEntries rq.payload) = some (k, st) →
    ∃ t : State, exec (.paramWrite rq) s = .next t.settle ∧ t.replied x Op.PARAM_WRITE rq st (toBe 2 k ++ toBe 2 st) ∧
      Only (some [F.cmd, F.rings, P.CMD_FASTPATH_COUNT, P.CMD_REFUSED_COUNT, P.TBS_OVER_LIMIT_COUNT]) s t) ∧
  (∀ (rq : Request) (s : State) (x : Session) (e : WriteEntry) (p : Param) (i : Nat), s.taken Op.PARAM_WRITE rq x →
    writeEntries rq.payload = [e] → elementOf e.addr e.index = some (p, i) → s.writeFault [e] = none → p.kind = .commit →
    ∃ t : State, exec (.paramWrite rq) s = .next t.settle ∧ t.replied x Op.PARAM_WRITE rq Status.OK [] ∧
      t.shadow p.base i = e.value ∧ t.rd p.base i = s.rd p.base i ∧
      (∀ b j d, (b, j) ≠ (p.base, i) → look (b, j) d t.shadows = look (b, j) d s.shadows) ∧
      t.rd P.SYS_CONFIG_GEN = (s.rd P.SYS_CONFIG_GEN + 1) % 2 ^ 32) ∧
  ∀ (rq : Request) (s : State) (x : Session) (e : WriteEntry) (p : Param) (i : Nat), s.taken Op.PARAM_WRITE rq x →
    writeEntries rq.payload = [e] → elementOf e.addr e.index = some (p, i) → s.writeFault [e] = none →
    p.kind = .live ∨ p.kind = .halt →
    p.base ∉ [P.LCK_ADM_ENTRY, P.LCK_ADM_CYCLE, P.LCK_ADM_BASE, P.LCK_ADM_COUNT, P.SYS_SCRATCH] →
    ∃ t : State, exec (.paramWrite rq) s = .next t.settle ∧ t.replied x Op.PARAM_WRITE rq Status.OK [] ∧
      t.rd p.base i = keptValue p.base e.value ∧ t.rd P.SYS_CONFIG_GEN = (s.rd P.SYS_CONFIG_GEN + 1) % 2 ^ 32 ∧
      Only (some [F.cmd, F.fabric, F.fault, F.fresh, F.gnss, F.lock, F.log, F.nhp,
        F.params, F.refs, F.rings, F.servo, F.shadows, F.tagRegs]) s t

/-- A nonzero LCK_SWAP_TIME arms the port's swap and 0 cancels it; a slot entry goes to the administrative bank of the selected port,
or is held while the bank is copied; the tag seed loads each reach's register with the seed XOR the reach; a cleared tamper bit
clears unless its source is active; the antenna bias is set and a removed one restored; the MGMT transport is turned on or off.
Clauses that go beyond the cited rules are the model's choices: log entries 28, 61. Completion: under conditions on the state and
the operands alone, as its clauses write them, exec answers a next state with the named effect for lckSwapTimeWrite,
lckAdmEntryWrite, obsTagSeedWrite, spdTamperSrcClear, gnsAntBiasWrite and cmdMgmtEnableWrite. -/
def Obligations.ParamRowsActAtOnce : Prop :=
  (∀ (rq : Request) (index : BitVec 16) (value : BitVec 64) (s : State) (x : Session),
    s.taken Op.PARAM_WRITE (oneEntry P.LCK_SWAP_TIME index value rq) x → index.toNat < 512 → s.rd P.LCK_SWAP_STATE index.toNat ≠ 2 →
    s.writeFault (writeEntries (oneEntry P.LCK_SWAP_TIME index value rq).payload) = none →
    ∃ t : State, exec (.lckSwapTimeWrite rq index value) s = .next t.settle ∧ t.rd P.LCK_SWAP_TIME index.toNat = value.toNat ∧
      t.rd P.LCK_SWAP_STATE index.toNat = (if value.toNat = 0 then 0 else 1) ∧ Only (some [F.cmd, F.fabric, F.fault, F.fresh, F.gnss, F.lock, F.log, F.nhp,
        F.params, F.refs, F.rings, F.servo, F.shadows, F.tagRegs]) s t) ∧
  (∀ (rq : Request) (index : BitVec 16) (value : BitVec 64) (s : State) (x : Session),
    s.taken Op.PARAM_WRITE (oneEntry P.LCK_ADM_ENTRY index value rq) x → index.toNat < 1024 →
    s.writeFault (writeEntries (oneEntry P.LCK_ADM_ENTRY index value rq).payload) = none →
    ∃ t : State, exec (.lckAdmEntryWrite rq index value) s = .next t.settle ∧
      (s.rd P.LCK_SWAP_STATE (s.selPort x.num) ≠ 2 →
        t.admEntry (s.selPort x.num) index.toNat = keptValue P.LCK_ADM_ENTRY value.toNat) ∧
      (s.rd P.LCK_SWAP_STATE (s.selPort x.num) = 2 → t.lock.adm = s.lock.adm ∧
        t.lock.held = s.lock.held ++ [(P.LCK_ADM_ENTRY, s.selPort x.num, index.toNat, keptValue P.LCK_ADM_ENTRY value.toNat)]) ∧
      Only (some [F.cmd, F.fabric, F.fault, F.fresh, F.gnss, F.lock, F.log, F.nhp,
        F.params, F.refs, F.rings, F.servo, F.shadows, F.tagRegs]) s t) ∧
  (∀ (rq : Request) (index : BitVec 16) (value : BitVec 64) (s : State) (x : Session),
    s.taken Op.PARAM_WRITE (oneEntry P.OBS_TAG_SEED index value rq) x → index.toNat = 0 →
    s.writeFault (writeEntries (oneEntry P.OBS_TAG_SEED index value rq).payload) = none →
    ∃ t : State, exec (.obsTagSeedWrite rq index value) s = .next t.settle ∧
      t.tagRegs = (List.range 8).map (fun r => value.toNat ^^^ r) ∧ Only (some [F.cmd, F.fabric, F.fault, F.fresh, F.gnss, F.lock, F.log, F.nhp,
        F.params, F.refs, F.rings, F.servo, F.shadows, F.tagRegs]) s t) ∧
  (∀ (rq : Request) (index : BitVec 16) (value : BitVec 64) (s : State) (x : Session),
    s.taken Op.PARAM_WRITE (oneEntry P.SPD_TAMPER_SRC index value rq) x → index.toNat = 0 →
    s.writeFault (writeEntries (oneEntry P.SPD_TAMPER_SRC index value rq).payload) = none →
    ∃ t : State, exec (.spdTamperSrcClear rq index value) s = .next t.settle ∧
      (∀ k, k < 5 → (t.rd P.SPD_TAMPER_SRC).testBit k =
        ((s.rd P.SPD_TAMPER_SRC).testBit k && !(value.toNat.testBit k && !s.pad.active.testBit k))) ∧
      Only (some [F.cmd, F.fabric, F.fault, F.fresh, F.gnss, F.lock, F.log, F.nhp,
        F.params, F.refs, F.rings, F.servo, F.shadows, F.tagRegs]) s t) ∧
  (∀ (rq : Request) (index : BitVec 16) (value : BitVec 64) (s : State) (x : Session),
    s.taken Op.PARAM_WRITE (oneEntry P.GNS_ANT_BIAS index value rq) x → index.toNat = 0 →
    s.writeFault (writeEntries (oneEntry P.GNS_ANT_BIAS index value rq).payload) = none →
    ∃ t : State, exec (.gnsAntBiasWrite rq index value) s = .next t.settle ∧ t.rd P.GNS_ANT_BIAS = value.toNat ∧
      t.gnss.biasOff = false ∧ Only (some [F.cmd, F.fabric, F.fault, F.fresh, F.gnss, F.lock, F.log, F.nhp,
        F.params, F.refs, F.rings, F.servo, F.shadows, F.tagRegs]) s t) ∧
  ∀ (rq : Request) (index : BitVec 16) (value : BitVec 64) (s : State) (x : Session),
    s.taken Op.PARAM_WRITE (oneEntry P.CMD_MGMT_ENABLE index value rq) x → index.toNat = 0 →
    s.writeFault (writeEntries (oneEntry P.CMD_MGMT_ENABLE index value rq).payload) = none →
    ∃ t : State, exec (.cmdMgmtEnableWrite rq index value) s = .next t.settle ∧ t.rd P.CMD_MGMT_ENABLE = value.toNat ∧
      Only (some [F.cmd, F.fabric, F.fault, F.fresh, F.gnss, F.lock, F.log, F.nhp,
        F.params, F.refs, F.rings, F.servo, F.shadows, F.tagRegs]) s t

/-- For the commits (PARAM_COMMIT) of blocks FAB, PRT, TBL, LCK, TBS, LNK, REF, COR, GNS, EVT, LAN, LOG, ARB, HIE and HST by their
rows: where the tests pass, every COMMIT parameter of the block takes its shadow's value (but for the offset and the set request
of TBS, which R57 and R86 treat further), no shadow of the block is left apart from its value, every shadow of another block
stays, a pending commit of the block is superseded, SYS_CONFIG_GEN rises by 1 and the answer is OK; where they fail, the answer is
the refusal and no shadow moves. A commit of a block without COMMIT parameters answers OK and changes nothing. Clauses that go
beyond the cited rules are the model's choices: log entries 28, 31, 34, 35. Completion: under conditions on the state and the
operands alone, as its clauses write them, exec answers a next state with the named effect for fabCommit, prtCommit, tblCommit,
lckCommit, tbsCommit, lnkCommit, refCommit, corCommit, gnsCommit, evtCommit, lanCommit, logCommit, arbCommit, hieCommit, hstCommit
and commitNoShadow. -/
def Obligations.CommitAppliesItsBlocksShadows : Prop :=
  (∀ (c : Instr) (q rq : Request) (s : State) (x : Session), (c, rq) ∈ [
      (Instr.fabCommit q, blockCommit 0x10 q), (.prtCommit q, blockCommit 0x11 q), (.tblCommit q, blockCommit 0x13 q),
      (.lckCommit q, blockCommit 0x14 q), (.tbsCommit q, blockCommit 0x20 q), (.lnkCommit q, blockCommit 0x21 q),
      (.refCommit q, blockCommit 0x22 q), (.corCommit q, blockCommit 0x23 q), (.gnsCommit q, blockCommit 0x24 q),
      (.evtCommit q, blockCommit 0x25 q), (.lanCommit q, blockCommit 0x30 q), (.logCommit q, blockCommit 0x40 q),
      (.arbCommit q, blockCommit 0x42 q), (.hieCommit q, blockCommit 0x50 q), (.hstCommit q, blockCommit 0x71 q)] →
    s.taken Op.PARAM_COMMIT rq x → (commitOp rq.payload).nano ≤ 999999999 →
    blockNumbers.contains (commitOp rq.payload).block = true → hasCommit (commitOp rq.payload).block = true →
    (commitOp rq.payload).block ≠ 0x31 → (commitOp rq.payload).scheduled = false → s.canonicalForm →
    s.commitRefusal (commitOp rq.payload).block = 0 →
    ∃ t : State, exec c s = .next t.settle ∧ t.replied x Op.PARAM_COMMIT rq Status.OK [] ∧
      (∀ p ∈ paramsOf (commitOp rq.payload).block, p.kind = .commit → p.base ∉ [P.TBS_UTC_OFFSET, P.TBS_SET_REQ] →
        ∀ i, t.rd p.base i = s.shadow p.base i) ∧
      t.shadowsOf (commitOp rq.payload).block = [] ∧
      (∀ k, k ≠ (commitOp rq.payload).block → t.shadowsOf k = s.shadowsOf k) ∧
      (t.cmd.commits.all fun y => y.block != (commitOp rq.payload).block) = true ∧
      t.rd P.SYS_CONFIG_GEN = (s.rd P.SYS_CONFIG_GEN + 1) % 2 ^ 32 ∧ Only (some ([F.cal, F.cmd, F.evtAccs, F.fabric, F.fault, F.flash, F.fresh, F.gnss] ++
        [F.hidden, F.linkRun, F.links, F.log, F.nhp, F.optics, F.pad, F.params] ++
        [F.power, F.quay, F.refs, F.rings, F.servo, F.shadows, F.time, F.txSlots] ++
        [F.windowAt])) s t) ∧
  (∀ (c : Instr) (q rq : Request) (s : State) (x : Session), (c, rq) ∈ [
      (Instr.fabCommit q, blockCommit 0x10 q), (.prtCommit q, blockCommit 0x11 q), (.tblCommit q, blockCommit 0x13 q),
      (.lckCommit q, blockCommit 0x14 q), (.tbsCommit q, blockCommit 0x20 q), (.lnkCommit q, blockCommit 0x21 q),
      (.refCommit q, blockCommit 0x22 q), (.corCommit q, blockCommit 0x23 q), (.gnsCommit q, blockCommit 0x24 q),
      (.evtCommit q, blockCommit 0x25 q), (.lanCommit q, blockCommit 0x30 q), (.logCommit q, blockCommit 0x40 q),
      (.arbCommit q, blockCommit 0x42 q), (.hieCommit q, blockCommit 0x50 q), (.hstCommit q, blockCommit 0x71 q)] →
    s.taken Op.PARAM_COMMIT rq x → (commitOp rq.payload).nano ≤ 999999999 →
    blockNumbers.contains (commitOp rq.payload).block = true → hasCommit (commitOp rq.payload).block = true →
    (commitOp rq.payload).block ≠ 0x31 → (commitOp rq.payload).scheduled = false →
    s.commitRefusal (commitOp rq.payload).block ≠ 0 →
    ∃ t : State, exec c s = .next t.settle ∧
      t.replied x Op.PARAM_COMMIT rq (s.commitRefusal (commitOp rq.payload).block) [] ∧
      Only (some [F.cmd, F.rings, P.CMD_REFUSED_COUNT, P.TBS_OVER_LIMIT_COUNT]) s t) ∧
  ∀ (block : BitVec 8) (rq : Request) (s : State) (x : Session),
    s.taken Op.PARAM_COMMIT (blockCommit block.toNat rq) x → (commitOp (blockCommit block.toNat rq).payload).nano ≤ 999999999 →
    blockNumbers.contains block.toNat = true → hasCommit block.toNat = false →
    ((commitOp (blockCommit block.toNat rq).payload).scheduled = false ∨ x.version ≠ 1) →
    ∃ t : State, exec (.commitNoShadow block rq) s = .next t.settle ∧
      t.replied x Op.PARAM_COMMIT (blockCommit block.toNat rq) Status.OK [] ∧
      Only (some [F.cmd, F.rings, P.CMD_REFUSED_COUNT, P.TBS_OVER_LIMIT_COUNT]) s t

/-- A scheduled commit of a later instant is held as the block's one pending commit and changes no parameter; when its instant has
come, the shadows are applied and the pending commit is gone; before that nothing happens. A commit of block SYN applies the four
output synthesizers of its mask. Clauses that go beyond the cited rules are the model's choices: log entries 31, 32. Completion:
under conditions on the state and the operands alone, as its clauses write them, exec answers a next state with the named effect
for scheduledCommitDue and synCommit. -/
def Obligations.ScheduledCommitWaitsAndActs : Prop :=
  (∀ (c : Instr) (q rq : Request) (s : State) (x : Session), (c, rq) ∈ [
      (Instr.fabCommit q, blockCommit 0x10 q), (.prtCommit q, blockCommit 0x11 q), (.tblCommit q, blockCommit 0x13 q),
      (.lckCommit q, blockCommit 0x14 q), (.tbsCommit q, blockCommit 0x20 q), (.lnkCommit q, blockCommit 0x21 q),
      (.refCommit q, blockCommit 0x22 q), (.corCommit q, blockCommit 0x23 q), (.gnsCommit q, blockCommit 0x24 q),
      (.evtCommit q, blockCommit 0x25 q), (.lanCommit q, blockCommit 0x30 q), (.logCommit q, blockCommit 0x40 q),
      (.arbCommit q, blockCommit 0x42 q), (.hieCommit q, blockCommit 0x50 q), (.hstCommit q, blockCommit 0x71 q)] →
    s.taken Op.PARAM_COMMIT rq x → (commitOp rq.payload).nano ≤ 999999999 → x.version ≠ 1 →
    blockNumbers.contains (commitOp rq.payload).block = true → hasCommit (commitOp rq.payload).block = true →
    (commitOp rq.payload).block ≠ 0x31 → (commitOp rq.payload).scheduled = true →
    s.modNs ≤ instant (commitOp rq.payload).sec (commitOp rq.payload).nano →
    ∃ (t : State) (y : Session), exec c s = .next t.settle ∧
      t.cmd.commits = (s.cmd.commits.filter fun z => z.block != (commitOp rq.payload).block) ++
        [⟨(commitOp rq.payload).block, instant (commitOp rq.payload).sec (commitOp rq.payload).nano,
          originOf x Op.PARAM_COMMIT rq⟩] ∧
      t.sessionUid x.uid = some y ∧ y.blocked = none ∧ Only (some [F.cmd, F.rings, P.CMD_REFUSED_COUNT, P.TBS_OVER_LIMIT_COUNT]) s t) ∧
  (∀ (block : Fin 256) (s : State) (j : PendingCommit), block.val ≠ 0x31 → s.canonicalForm →
    (s.cmd.commits.find? fun c => c.block == block.val && decide (c.due ≤ s.modNs)) = some j →
    s.commitRefusal block.val = 0 →
    ∃ t : State, exec (.scheduledCommitDue block) s = .next t.settle ∧
      (∀ p ∈ paramsOf block.val, p.kind = .commit → p.base ∉ [P.TBS_UTC_OFFSET, P.TBS_SET_REQ] →
        ∀ i, t.rd p.base i = s.shadow p.base i) ∧
      t.shadowsOf block.val = [] ∧ (t.cmd.commits.all fun y => y.block != block.val) = true ∧
      t.rd P.SYS_CONFIG_GEN = (s.rd P.SYS_CONFIG_GEN + 1) % 2 ^ 32 ∧ Only (some ([F.cal, F.cmd, F.evtAccs, F.fabric, F.fault, F.flash, F.fresh, F.gnss] ++
        [F.hidden, F.linkRun, F.links, F.log, F.nhp, F.optics, F.pad, F.params] ++
        [F.power, F.quay, F.refs, F.rings, F.servo, F.shadows, F.time, F.txSlots] ++
        [F.windowAt])) s t) ∧
  (∀ (block : Fin 256) (s : State), block.val ≠ 0x31 →
    (s.cmd.commits.find? fun c => c.block == block.val && decide (c.due ≤ s.modNs)) = none →
    exec (.scheduledCommitDue block) s = .next s.settle) ∧
  ∀ (rq : Request) (s : State) (x : Session), s.taken Op.PARAM_COMMIT (blockCommit 0x31 rq) x →
    (commitOp (blockCommit 0x31 rq).payload).nano ≤ 999999999 → (commitOp (blockCommit 0x31 rq).payload).scheduled = false →
    s.optics.synJobs = [] → ((maskedSyns 15).all s.synLegal) = true →
    (∀ j, j < 4 → s.rd P.SYN_STATE (32 + j) ≠ 1 ∧ s.rd P.SYN_STATE (32 + j) ≠ 3) →
    ∃ t : State, exec (.synCommit rq) s = .next t.settle ∧ t.replied x Op.PARAM_COMMIT (blockCommit 0x31 rq) Status.OK [] ∧
      (∀ j, j < 4 → t.rd P.SYN_OUT_INT j = s.shadow P.SYN_OUT_INT j ∧ t.rd P.SYN_OUT_DIV j = s.shadow P.SYN_OUT_DIV j) ∧
      t.rd P.SYS_CONFIG_GEN = (s.rd P.SYS_CONFIG_GEN + 1) % 2 ^ 32 ∧ Only (some ([F.cal, F.cmd, F.evtAccs, F.fabric, F.fault, F.flash, F.fresh, F.gnss] ++
        [F.hidden, F.linkRun, F.links, F.log, F.nhp, F.optics, F.pad, F.params] ++
        [F.power, F.quay, F.refs, F.rings, F.servo, F.shadows, F.time, F.txSlots] ++
        [F.windowAt])) s t

/-- In normal operation with a powered fabric at its commanded pace, FABRIC_ENABLE makes it RUNNING, with the step count and every
stream number at 0 where it was DISABLED; in shutter mode, unpowered or off its pace it is refused and nothing changes;
FABRIC_DISABLE turns RUNNING into DRAINING; a fabric with nothing left to drain becomes DISABLED, or OFF in shutter mode; where
FAB_SHUTTER_DRAIN ends first it goes OFF and every cell is gone. Before those instants nothing happens. Clauses that go beyond the
cited rules are the model's choices: log entry 55. Completion: under conditions on the state and the operands alone, as its
clauses write them, exec answers a next state with the named effect for fabricEnable, fabricDisable, drainComplete and
shutterDrainExpiry. -/
def Obligations.FabricStartsAndDrains : Prop :=
  (∀ (rq : Request) (s : State) (x : Session), s.taken Op.FABRIC_ENABLE rq x → s.rd P.PWR_SHUTTER_STATE = 0 →
    s.rd P.FAB_STATE ≠ 0 → s.rd P.FAB_STATE ≠ 2 → s.rd P.FAB_PACE_NOW = s.rd P.FAB_PACE →
    ∃ t : State, exec (.fabricEnable rq) s = .next t.settle ∧ t.rd P.FAB_STATE = 2 ∧
      (s.rd P.FAB_STATE = 1 → t.rd P.FAB_STEP_COUNT = 0 ∧ t.fabric.seqOut = [] ∧ t.fabric.expect = []) ∧
      (s.rd P.FAB_STATE ≠ 1 → t.rd P.FAB_STEP_COUNT = s.rd P.FAB_STEP_COUNT ∧ t.fabric.seqOut = s.fabric.seqOut) ∧
      t.replied x Op.FABRIC_ENABLE rq Status.OK [] ∧ Only (some [F.cmd, F.fabric, F.log, F.rings, P.CMD_REFUSED_COUNT, P.FAB_STATE, P.FAB_STEP_COUNT, P.LOG_HOLD_TIME,
        P.TBS_OVER_LIMIT_COUNT]) s t) ∧
  (∀ (rq : Request) (s : State) (x : Session) (st : Nat), s.taken Op.FABRIC_ENABLE rq x →
    ((s.rd P.PWR_SHUTTER_STATE ≠ 0 ∧ st = Status.SHUTTER_ACTIVE) ∨
      (s.rd P.PWR_SHUTTER_STATE = 0 ∧ s.rd P.FAB_STATE = 2 ∧ st = Status.OK) ∨
      (s.rd P.PWR_SHUTTER_STATE = 0 ∧ s.rd P.FAB_STATE ≠ 2 ∧
        (s.rd P.FAB_STATE = 0 ∨ s.rd P.FAB_PACE_NOW ≠ s.rd P.FAB_PACE) ∧ st = Status.NOT_READY)) →
    ∃ t : State, exec (.fabricEnable rq) s = .next t.settle ∧ t.replied x Op.FABRIC_ENABLE rq st [] ∧
      Only (some [F.cmd, F.rings, P.CMD_REFUSED_COUNT, P.TBS_OVER_LIMIT_COUNT]) s t) ∧
  (∀ (rq : Request) (s : State) (x : Session), s.taken Op.FABRIC_DISABLE rq x →
    ∃ t : State, exec (.fabricDisable rq) s = .next t.settle ∧
      t.rd P.FAB_STATE = (if s.rd P.FAB_STATE = 2 then 3 else s.rd P.FAB_STATE) ∧
      t.replied x Op.FABRIC_DISABLE rq Status.OK [] ∧ Only (some [F.cmd, F.rings, P.CMD_REFUSED_COUNT, P.FAB_STATE, P.TBS_OVER_LIMIT_COUNT]) s t) ∧
  (∀ s : State, s.rd P.FAB_STATE = 3 → s.drained = true →
    ∃ t : State, exec .drainComplete s = .next t ∧ t.rd P.FAB_STATE = (if s.rd P.PWR_SHUTTER_STATE = 0 then 1 else 0) ∧
      t.fabric = { s.fabric with drainBy := none } ∧ Only (some [F.fabric, F.log, P.FAB_STATE, P.LOG_HOLD_TIME]) s t) ∧
  (∀ s : State, s.rd P.FAB_STATE ≠ 3 ∨ s.drained = false → exec .drainComplete s = .next s) ∧
  (∀ (s : State) (e : Nat), s.rd P.FAB_STATE = 3 → s.fabric.drainBy = some e → e ≤ s.clock →
    ∃ t : State, exec .shutterDrainExpiry s = .next t ∧ t.rd P.FAB_STATE = 0 ∧ t.fabric.cells = [] ∧ t.fabric.parked = [] ∧
      t.fabric.drainBy = none ∧ (∀ j, j < 64 → t.rd P.FAB_BASIN_OCC j = 0 ∧ t.rd P.FAB_RESEQ_OCC j = 0) ∧
      Only (some ([F.cmd, F.fabric, F.fault, F.hidden, F.log, F.pad, F.quay, F.rings] ++
        [F.txSlots, F.windowAt, P.BUF_DF_AGENT, P.BUF_DF_INDEX, P.BUF_DF_POOL, P.BUF_DF_TIME, P.BUF_DOUBLE_FREE, P.BUF_FLAGS] ++
        [P.BUF_HELD, P.BUF_QUARANTINED, P.BUF_SIGNALS, P.CMD_NOTICE_DROP, P.FAB_BASIN_OCC, P.FAB_DRAIN_LOST, P.FAB_RESEQ_OCC, P.FAB_STATE] ++
        [P.HLT_FAULT_COUNT, P.HLT_STICKY, P.HST_RXQ_BYTES, P.LOG_HOLD_TIME, P.OBS_OVF, P.OBS_TRACE_DROP, P.OBS_TRACE_HEAD, P.OBS_TRACE_OLDEST] ++
        [P.PRT_EGQ_BYTES, P.PRT_LINKDOWN_DROP, P.PRT_PFC_TX_XOFF, P.TBS_OVER_LIMIT_COUNT, P.TBS_OVW_SKIP, P.TBS_PTP_SKIP, P.TBS_TRAILER_SKIP])) s t) ∧
  ∀ s : State, s.rd P.FAB_STATE ≠ 3 ∨ (∀ e, s.fabric.drainBy = some e → s.clock < e) → exec .shutterDrainExpiry s = .next s

/-- While the fabric runs a step raises FAB_STEP_COUNT by 1, and otherwise it moves nothing: only what has gone wrong in the quay's
memory is noted. With one ordinary frame waiting and no cell anywhere, its inlet i forms one cell for basin (i + step) mod 64.
With nothing waiting every slot of both stages counts 256 bytes idle. An outlet that stops no class and is offered no in-order
cell for FAB_RESEQ_TIMEOUT steps skips to its oldest parked cell, whose stream goes on with it, and counts the skip; any other
does nothing. Clauses that go beyond the cited rules are the model's choices: log entries 52, 53, 54, 58. Completion: under
conditions on the state and the operands alone, as its clauses write them, exec answers a next state with the named effect for
fabricStep and lostGap. -/
def Obligations.FabricStepMovesCells : Prop :=
  (∀ (faults : List (Fin 64 × CellFault)) (upsets : List QuayUpset) (s : State), s.rd P.FAB_STATE = 2 ∨ s.rd P.FAB_STATE = 3 →
    ∃ t : State, exec (.fabricStep faults upsets) s = .next t ∧ t.rd P.FAB_STEP_COUNT = (s.rd P.FAB_STEP_COUNT + 1) % 2 ^ 64 ∧
      (s.fabric.queued = [] → s.fabric.cells = [] → s.fabric.parked = [] → s.rd P.OBS_FROZEN = 0 → ∀ i, i < 64 →
        t.rd P.FAB_SLOT_S1 (4 * i + 2) = (s.rd P.FAB_SLOT_S1 (4 * i + 2) + 256) % 2 ^ 48 ∧
        t.rd P.FAB_SLOT_S2 (4 * i + 2) = (s.rd P.FAB_SLOT_S2 (4 * i + 2) + 256) % 2 ^ 48) ∧
      Only (some ([F.cmd, F.fabric, F.fault, F.hidden, F.pad, F.quay, F.rings, F.txSlots] ++
        [F.windowAt, P.BUF_ALLOC, P.BUF_ALLOC_STALL, P.BUF_DF_AGENT, P.BUF_DF_INDEX, P.BUF_DF_POOL, P.BUF_DF_TIME, P.BUF_DOUBLE_FREE] ++
        [P.BUF_FLAGS, P.BUF_HELD, P.BUF_PEAK, P.BUF_QUARANTINED, P.BUF_SIGNALS, P.BUF_SPILL, P.CMD_NOTICE_DROP, P.FAB_ABORT_FRAMES] ++
        [P.FAB_BASIN_OCC, P.FAB_BASIN_PEAK, P.FAB_ECC_CORR, P.FAB_ECC_UNCORR, P.FAB_FAULT_FRAMES, P.FAB_FLAGS, P.FAB_HDR_ERR, P.FAB_RESEQ_OCC] ++
        [P.FAB_RESEQ_PEAK, P.FAB_RESEQ_STALLS, P.FAB_SLOT_S1, P.FAB_SLOT_S2, P.FAB_STEP_COUNT, P.HLT_FAULT_COUNT, P.HLT_STICKY, P.HST_FLAGS] ++
        [P.HST_RXQ_BYPASS, P.HST_RXQ_BYTES, P.LCK_NO_MEMBER, P.OBS_OVF, P.OBS_TRACE_DROP, P.OBS_TRACE_HEAD, P.OBS_TRACE_OLDEST, P.PRT_EGQ_BYTES] ++
        [P.PRT_LINKDOWN_DROP, P.PRT_PFC_TX_XOFF, P.TBS_OVER_LIMIT_COUNT, P.TBS_OVW_SKIP, P.TBS_PTP_SKIP, P.TBS_TRAILER_SKIP])) s t) ∧
  (∀ (faults : List (Fin 64 × CellFault)) (upsets : List QuayUpset) (s : State), s.rd P.FAB_STATE ≠ 2 → s.rd P.FAB_STATE ≠ 3 →
    exec (.fabricStep faults upsets) s = .next (upsets.foldl State.upset s)) ∧
  (∀ (s : State) (q : Queued) (f : Frame), s.rd P.FAB_STATE = 2 → s.fabric.queued = [q] → s.frame q.frame = some f →
    f.inlet < 64 → f.cls < 8 → f.express = false → s.fabric.cells = [] → s.fabric.parked = [] → s.fabric.sluice = [] →
    0 < s.rd P.FAB_BALANCE_D → 0 < s.rd P.FAB_BASIN_RESERVE →
    ∃ t : State, exec (.fabricStep [] []) s = .next t ∧
      t.fabric.cells = [s.formCell f.inlet ((f.inlet + s.rd P.FAB_STEP_COUNT % 64) % 64) (q, f)] ∧ Only (some ([F.cmd, F.fabric, F.fault, F.hidden, F.pad, F.quay, F.rings, F.txSlots] ++
        [F.windowAt, P.BUF_ALLOC, P.BUF_ALLOC_STALL, P.BUF_DF_AGENT, P.BUF_DF_INDEX, P.BUF_DF_POOL, P.BUF_DF_TIME, P.BUF_DOUBLE_FREE] ++
        [P.BUF_FLAGS, P.BUF_HELD, P.BUF_PEAK, P.BUF_QUARANTINED, P.BUF_SIGNALS, P.BUF_SPILL, P.CMD_NOTICE_DROP, P.FAB_ABORT_FRAMES] ++
        [P.FAB_BASIN_OCC, P.FAB_BASIN_PEAK, P.FAB_ECC_CORR, P.FAB_ECC_UNCORR, P.FAB_FAULT_FRAMES, P.FAB_FLAGS, P.FAB_HDR_ERR, P.FAB_RESEQ_OCC] ++
        [P.FAB_RESEQ_PEAK, P.FAB_RESEQ_STALLS, P.FAB_SLOT_S1, P.FAB_SLOT_S2, P.FAB_STEP_COUNT, P.HLT_FAULT_COUNT, P.HLT_STICKY, P.HST_FLAGS] ++
        [P.HST_RXQ_BYPASS, P.HST_RXQ_BYTES, P.LCK_NO_MEMBER, P.OBS_OVF, P.OBS_TRACE_DROP, P.OBS_TRACE_HEAD, P.OBS_TRACE_OLDEST, P.PRT_EGQ_BYTES] ++
        [P.PRT_LINKDOWN_DROP, P.PRT_PFC_TX_XOFF, P.TBS_OVER_LIMIT_COUNT, P.TBS_OVW_SKIP, P.TBS_PTP_SKIP, P.TBS_TRAILER_SKIP])) s t) ∧
  (∀ (o : Fin 64) (s : State) (c : Cell), (s.fabric.parked.find? fun y => y.outlet == o.val) = some c →
    ((List.range 8).any fun k => s.stopping o.val k) = false →
    look o.val 0 s.fabric.quiet + s.rd P.FAB_RESEQ_TIMEOUT ≤ s.rd P.FAB_STEP_COUNT →
    ∃ t : State, exec (.lostGap o) s = .next t ∧ t.rd P.FAB_RESEQ_SKIPS o.val = (s.rd P.FAB_RESEQ_SKIPS o.val + 1) % 2 ^ 48 ∧
      (t.rd P.FAB_FLAGS).testBit 4 = true ∧
      (s.fabric.parked = [c] → ((s.skipTo o.val c).prepare c).cellFits c = true →
        t.fabric.parked = [] ∧ look c.stream 0 t.fabric.expect = (c.seq + 1) % 65536) ∧ Only (some ([F.cmd, F.fabric, F.fault, F.hidden, F.pad, F.quay, F.rings, F.txSlots] ++
        [F.windowAt, P.BUF_ALLOC, P.BUF_ALLOC_STALL, P.BUF_DF_AGENT, P.BUF_DF_INDEX, P.BUF_DF_POOL, P.BUF_DF_TIME, P.BUF_DOUBLE_FREE] ++
        [P.BUF_FLAGS, P.BUF_HELD, P.BUF_PEAK, P.BUF_QUARANTINED, P.BUF_SIGNALS, P.BUF_SPILL, P.CMD_NOTICE_DROP, P.FAB_ABORT_FRAMES] ++
        [P.FAB_FAULT_FRAMES, P.FAB_FLAGS, P.FAB_RESEQ_OCC, P.FAB_RESEQ_PEAK, P.FAB_RESEQ_SKIPS, P.FAB_RESEQ_STALLS, P.HLT_FAULT_COUNT, P.HLT_STICKY] ++
        [P.HST_FLAGS, P.HST_RXQ_BYPASS, P.HST_RXQ_BYTES, P.LCK_NO_MEMBER, P.OBS_OVF, P.OBS_TRACE_DROP, P.OBS_TRACE_HEAD, P.OBS_TRACE_OLDEST] ++
        [P.PRT_EGQ_BYTES, P.PRT_LINKDOWN_DROP, P.PRT_PFC_TX_XOFF, P.TBS_OVER_LIMIT_COUNT, P.TBS_OVW_SKIP, P.TBS_PTP_SKIP, P.TBS_TRAILER_SKIP])) s t) ∧
  ∀ (o : Fin 64) (s : State), (∀ c ∈ s.fabric.parked, c.outlet ≠ o.val) ∨ ((List.range 8).any fun k => s.stopping o.val k) = true ∨
    s.rd P.FAB_STEP_COUNT < look o.val 0 s.fabric.quiet + s.rd P.FAB_RESEQ_TIMEOUT → exec (.lostGap o) s = .next s

/-- Once 1 ms has passed since the last one, a measurement gives the steps per ms as FAB_STEP_RATE and the speedup in thousandths with
its least value and its value at 25 °C, and both 0 while no steps run; a measured VCORE sets FAB_PACE_NOW to the mode within 15 mV
or to BETWEEN; a speedup below the limit for FAB_MARGIN_TIME while RUNNING sets its flags once, and a pace that differs for 100 ms
raises sticky fault 6. Earlier nothing happens. Clauses that go beyond the cited rules are the model's choices: log entries 5, 52.
Completion: under conditions on the state and the operands alone, as its clauses write them, exec answers a next state with the
named effect for stepRateMeasure, paceMargin, vcoreMismatch and vcoreTransitionEnd. -/
def Obligations.FabricSpeedAndPace : Prop :=
  (∀ s : State, s.rd P.FAB_STATE = 2 ∨ s.rd P.FAB_STATE = 3 → s.fabric.stepAt + 1000000 ≤ s.clock →
    ∃ (t : State) (n : Nat), exec .stepRateMeasure s = .next t ∧
      n = (s.rd P.FAB_STEP_COUNT - s.fabric.stepMark) * 1000000 / (s.clock - s.fabric.stepAt) ∧
      t.rd P.FAB_STEP_RATE = clampU 32 n ∧ t.rd P.FAB_SPEEDUP = clampU 16 (n * 1000 / 781250) ∧
      t.rd P.FAB_SPEEDUP_LOW = min (clampU 16 (n * 1000 / 781250)) (s.rd P.FAB_SPEEDUP_LOW) ∧
      (s.rdS 16 P.HLT_DIE_TEMP 2 ≤ 250 → t.rd P.FAB_SPEEDUP_25C = clampU 16 (n * 1000 / 781250)) ∧
      t.fabric.stepMark = s.rd P.FAB_STEP_COUNT ∧ t.fabric.stepAt = s.clock ∧ Only (some [F.fabric, P.FAB_SPEEDUP, P.FAB_SPEEDUP_25C, P.FAB_SPEEDUP_LOW, P.FAB_STEP_RATE]) s t) ∧
  (∀ s : State, s.rd P.FAB_STATE ≠ 2 → s.rd P.FAB_STATE ≠ 3 → s.fabric.stepAt + 1000000 ≤ s.clock →
    ∃ t : State, exec .stepRateMeasure s = .next t ∧ t.rd P.FAB_STEP_RATE = 0 ∧ t.rd P.FAB_SPEEDUP = 0 ∧
      t.fabric.lowSince = none ∧ Only (some [F.fabric, P.FAB_SPEEDUP, P.FAB_STEP_RATE]) s t) ∧
  (∀ s : State, s.clock < s.fabric.stepAt + 1000000 → exec .stepRateMeasure s = .next s) ∧
  (∀ (s : State) (c : Nat), s.fabric.lowSince = some c → s.fabric.armed = true → s.rd P.FAB_STATE = 2 → c + s.rd P.FAB_MARGIN_TIME * 1000000 ≤ s.clock →
    ∃ t : State, exec .paceMargin s = .next t ∧ (t.rd P.FAB_FLAGS).testBit 0 = true ∧
      (s.rd P.FAB_SPEEDUP < 1000 → (t.rd P.FAB_FLAGS).testBit 1 = true) ∧ t.fabric = { s.fabric with armed := false } ∧
      Only (some [F.cmd, F.fabric, F.rings, P.CMD_NOTICE_DROP, P.FAB_FLAGS]) s t) ∧
  (∀ s : State, s.fabric.armed = false ∨ s.rd P.FAB_STATE ≠ 2 ∨ (∀ c, s.fabric.lowSince = some c → s.clock < c + s.rd P.FAB_MARGIN_TIME * 1000000) →
    exec .paceMargin s = .next s) ∧
  (∀ (s : State) (c : Nat), s.fabric.mismatch = some c → c + 100000000 ≤ s.clock →
    ∃ t : State, exec .vcoreMismatch s = .next t ∧ (t.rd P.FAB_FLAGS).testBit 2 = true ∧ (t.rd P.HLT_STICKY).testBit 6 = true ∧
      t.rd P.HLT_FAULT_COUNT = (s.rd P.HLT_FAULT_COUNT + 1) % 2 ^ 48 ∧ t.fabric = { s.fabric with mismatch := none } ∧
      Only (some [F.cmd, F.fabric, F.fault, F.rings, P.CMD_NOTICE_DROP, P.FAB_FLAGS, P.HLT_FAULT_COUNT, P.HLT_STICKY]) s t) ∧
  (∀ s : State, (∀ c, s.fabric.mismatch = some c → s.clock < c + 100000000) → exec .vcoreMismatch s = .next s) ∧
  ∀ (mv : BitVec 10) (s : State),
    ∃ t : State, exec (.vcoreTransitionEnd mv) s = .next t ∧ t.rd P.FAB_VCORE_MEAS = mv.toNat ∧
      t.rd P.FAB_PACE_NOW = (if 665 ≤ mv.toNat ∧ mv.toNat ≤ 695 then 0 else if 735 ≤ mv.toNat ∧ mv.toNat ≤ 765 then 1
        else if 805 ≤ mv.toNat ∧ mv.toNat ≤ 835 then 2 else 3) ∧
      Only (some [F.fabric, F.power, P.FAB_PACE_NOW, P.FAB_VCORE_MEAS]) s t

/-- A TBL_SEARCH answers, for each reach it names, the record of the MAC entry that the lookup finds, or says that there is none, or
the Stream entry of the id; TBL_NEXT answers the entries from the cursor on, at most the number asked, with the cursor to go on
from or 0xFFFFFFFF at the end; a malformed one is refused BAD_VALUE. None of them changes a table or a parameter. Clauses that go
beyond the cited rules are the model's choices: log entry 59. Completion: under conditions on the state and the operands alone, as
its clauses write them, exec answers a next state with the named effect for tblSearch and tblNext. -/
def Obligations.TableLookupsAnswerEntries : Prop :=
  (∀ (rq : Request) (s : State) (x : Session) (r i : Nat) (e : MacEntry), s.taken Op.TBL_SEARCH rq x → r < 8 →
    beAt 0 1 rq.payload = 0 → beAt 1 1 rq.payload = 2 ^ r → beAt 4 2 rq.payload ≤ 4095 →
    s.macFind r (beAt 4 2 rq.payload) (beAt 6 6 rq.payload) = some (i, e) →
    ∃ t : State, exec (.tblSearch rq) s = .next t.settle ∧
      t.replied x Op.TBL_SEARCH rq Status.OK ([1, 0, 0, 0] ++ toBe 1 r ++ [1, 0, 0] ++ s.macRecord r i e) ∧
      Only (some [F.cmd, F.rings, P.CMD_REFUSED_COUNT, P.TBS_OVER_LIMIT_COUNT]) s t) ∧
  (∀ (rq : Request) (s : State) (x : Session) (r : Nat), s.taken Op.TBL_SEARCH rq x → r < 8 →
    beAt 0 1 rq.payload = 0 → beAt 1 1 rq.payload = 2 ^ r → beAt 4 2 rq.payload ≤ 4095 →
    s.macFind r (beAt 4 2 rq.payload) (beAt 6 6 rq.payload) = none →
    ∃ t : State, exec (.tblSearch rq) s = .next t.settle ∧
      t.replied x Op.TBL_SEARCH rq Status.OK ([1, 0, 0, 0] ++ toBe 1 r ++ [0, 0, 0] ++ slice 4 8 rq.payload ++ zeros 16) ∧
      Only (some [F.cmd, F.rings, P.CMD_REFUSED_COUNT, P.TBS_OVER_LIMIT_COUNT]) s t) ∧
  (∀ (rq : Request) (s : State) (x : Session) (r : Nat), s.taken Op.TBL_SEARCH rq x → r < 8 →
    beAt 0 1 rq.payload = 1 → beAt 1 1 rq.payload = 2 ^ r →
    ∃ t : State, exec (.tblSearch rq) s = .next t.settle ∧
      t.replied x Op.TBL_SEARCH rq Status.OK ([1, 0, 0, 0] ++ toBe 1 r ++ [1, 0, 0] ++ toBe 2 (beAt 4 2 rq.payload) ++ zeros 6 ++
        toBe 8 (look (r, beAt 4 2 rq.payload) 0 s.tables.stream) ++ zeros 8) ∧
      Only (some [F.cmd, F.rings, P.CMD_REFUSED_COUNT, P.TBS_OVER_LIMIT_COUNT]) s t) ∧
  (∀ (rq : Request) (s : State) (x : Session) (rs : List Nat) (p : List Byte), s.taken Op.TBL_SEARCH rq x → p = rq.payload →
    beAt 0 1 p ≤ 1 → beAt 1 1 p ≠ 0 → (beAt 0 1 p = 0 → beAt 4 2 p ≤ 4095) → rs = (List.range 8).filter (beAt 1 1 p).testBit →
    ∃ t : State, exec (.tblSearch rq) s = .next t.settle ∧
      t.replied x Op.TBL_SEARCH rq Status.OK (toBe 1 rs.length ++ [0, 0, 0] ++ (rs.map fun r =>
        if beAt 0 1 p = 0 then
          match s.macFind r (beAt 4 2 p) (beAt 6 6 p) with
          | some (i, e) => toBe 1 r ++ [1, 0, 0] ++ s.macRecord r i e
          | none => toBe 1 r ++ [0, 0, 0] ++ slice 4 8 p ++ zeros 16
        else toBe 1 r ++ [1, 0, 0] ++ toBe 2 (beAt 4 2 p) ++ zeros 6 ++ toBe 8 (look (r, beAt 4 2 p) 0 s.tables.stream) ++ zeros 8).flatten) ∧
      Only (some [F.cmd, F.rings, P.CMD_REFUSED_COUNT, P.TBS_OVER_LIMIT_COUNT]) s t) ∧
  (∀ (rq : Request) (s : State) (x : Session), s.taken Op.TBL_SEARCH rq x →
    (1 < beAt 0 1 rq.payload ∨ beAt 1 1 rq.payload = 0 ∨ (beAt 0 1 rq.payload = 0 ∧ 4095 < beAt 4 2 rq.payload)) →
    ∃ t : State, exec (.tblSearch rq) s = .next t.settle ∧ t.replied x Op.TBL_SEARCH rq Status.BAD_VALUE [] ∧
      Only (some [F.cmd, F.rings, P.CMD_REFUSED_COUNT, P.TBS_OVER_LIMIT_COUNT]) s t) ∧
  (∀ (rq : Request) (s : State) (x : Session) (r k n : Nat), s.taken Op.TBL_NEXT rq x → beAt 0 1 rq.payload = r → r ≤ 7 →
    beAt 1 1 rq.payload = k → k ≤ 1 → beAt 2 2 rq.payload = n → 1 ≤ n → n ≤ 169 →
    ∃ t : State, exec (.tblNext rq) s = .next t.settle ∧
      t.replied x Op.TBL_NEXT rq Status.OK
        (toBe 4 (match (s.tableFrom r k (beAt 4 4 rq.payload) n)[n]? with | some y => y.1 | none => 0xFFFFFFFF) ++
          toBe 4 (s.rd P.TBL_DISPLACE_SEQ r) ++ toBe 2 ((s.tableFrom r k (beAt 4 4 rq.payload) n).take n).length ++ zeros 2 ++
          (((s.tableFrom r k (beAt 4 4 rq.payload) n).take n).map fun y => y.2).flatten) ∧
      Only (some [F.cmd, F.rings, P.CMD_REFUSED_COUNT, P.TBS_OVER_LIMIT_COUNT]) s t) ∧
  ∀ (rq : Request) (s : State) (x : Session), s.taken Op.TBL_NEXT rq x →
    (7 < beAt 0 1 rq.payload ∨ 1 < beAt 1 1 rq.payload ∨ beAt 2 2 rq.payload = 0 ∨ 169 < beAt 2 2 rq.payload) →
    ∃ t : State, exec (.tblNext rq) s = .next t.settle ∧ t.replied x Op.TBL_NEXT rq Status.BAD_VALUE [] ∧
      Only (some [F.cmd, F.rings, P.CMD_REFUSED_COUNT, P.TBS_OVER_LIMIT_COUNT]) s t

/-- A well-formed TBL_INSERT, of a key that each named reach holds or has an empty bank position for, is found by the next lookup
there with its fields, advances the reach's epoch and answers OK; where no place is found it answers TABLE_FULL; a TBL_DELETE
empties the slot of its key in each named reach that holds it, advances the epoch, opens a drain fence and is accepted; malformed
ones are refused BAD_VALUE; a fence that no frame holds completes, and the last one of its command answers DONE; a TBL_CLEAR_FLAP
frees a flapping entry. A key not held answers NOT_FOUND. Clauses that go beyond the cited rules are the model's choices: log
entry 59. Completion: under conditions on the state and the operands alone, as its clauses write them, exec answers a next state
with the named effect for tblInsert, tblDelete, drainFenceComplete and tblClearFlap. -/
def Obligations.TableEntriesAreWritten : Prop :=
  (∀ (rq : Request) (s : State) (x : Session) (r : Nat) (e : MacEntry), s.taken Op.TBL_INSERT rq x → r < 8 →
    beAt 0 1 rq.payload = 2 ^ r → beAt 4 2 rq.payload ≤ 4095 → bit 127 (beAt 12 16 rq.payload) = true →
    (field 122 122 (beAt 12 16 rq.payload) = 0 → field 121 108 (beAt 12 16 rq.payload) ≤ 511) →
    e = insertEntry (beAt 4 8 rq.payload) (beAt 12 16 rq.payload) s.now →
    ((s.macFind r e.vid e.mac).isSome = true ∨ (s.placeDirect r (s.rd P.TBL_SEED r) e 4).isSome = true) →
    ∃ (t : State) (i : Nat) (y : MacEntry), exec (.tblInsert rq) s = .next t.settle ∧ t.macFind r e.vid e.mac = some (i, y) ∧
      y.static = e.static ∧ y.kind = e.kind ∧ y.dest = e.dest ∧ y.hit = true ∧
      t.rd P.TBL_EPOCH r = (s.rd P.TBL_EPOCH r + 1) % 65536 ∧ t.rd P.SYS_CONFIG_GEN = (s.rd P.SYS_CONFIG_GEN + 1) % 2 ^ 32 ∧
      t.replied x Op.TBL_INSERT rq Status.OK (toBe 1 (2 ^ r) ++ [0, 0, 0]) ∧ Only (some [F.cmd, F.rings, F.tables, P.CMD_NOTICE_DROP, P.CMD_REFUSED_COUNT, P.SYS_CONFIG_GEN, P.TBL_DISPLACE_SEQ, P.TBL_EPOCH,
        P.TBL_FLAGS, P.TBL_OCCUPANCY, P.TBL_STASH_USED, P.TBS_OVER_LIMIT_COUNT]) s t) ∧
  (∀ (rq : Request) (s : State) (x : Session) (rs : List Nat) (e : MacEntry), s.taken Op.TBL_INSERT rq x →
    beAt 0 1 rq.payload ≠ 0 → rs = (List.range 8).filter (beAt 0 1 rq.payload).testBit → beAt 4 2 rq.payload ≤ 4095 →
    bit 127 (beAt 12 16 rq.payload) = true →
    (field 122 122 (beAt 12 16 rq.payload) = 0 → field 121 108 (beAt 12 16 rq.payload) ≤ 511) →
    e = insertEntry (beAt 4 8 rq.payload) (beAt 12 16 rq.payload) s.now →
    (rs.all fun r => (s.macFind r e.vid e.mac).isSome || (s.placeDirect r (s.rd P.TBL_SEED r) e 4).isSome) = true →
    ∃ t : State, exec (.tblInsert rq) s = .next t.settle ∧
      (∀ r ∈ rs, ((t.macFind r e.vid e.mac).map fun y => (y.2.static, y.2.kind, y.2.dest)) = some (e.static, e.kind, e.dest) ∧
        t.rd P.TBL_EPOCH r = (s.rd P.TBL_EPOCH r + 1) % 65536) ∧
      t.rd P.SYS_CONFIG_GEN = (s.rd P.SYS_CONFIG_GEN + 1) % 2 ^ 32 ∧
      t.replied x Op.TBL_INSERT rq Status.OK (toBe 1 (beAt 0 1 rq.payload) ++ [0, 0, 0]) ∧ Only (some [F.cmd, F.rings, F.tables, P.CMD_NOTICE_DROP, P.CMD_REFUSED_COUNT, P.SYS_CONFIG_GEN, P.TBL_DISPLACE_SEQ, P.TBL_EPOCH,
        P.TBL_FLAGS, P.TBL_OCCUPANCY, P.TBL_STASH_USED, P.TBS_OVER_LIMIT_COUNT]) s t) ∧
  (∀ (rq : Request) (s : State) (x : Session) (r : Nat) (e : MacEntry), s.taken Op.TBL_INSERT rq x → r < 8 →
    beAt 0 1 rq.payload = 2 ^ r → beAt 4 2 rq.payload ≤ 4095 → bit 127 (beAt 12 16 rq.payload) = true →
    (field 122 122 (beAt 12 16 rq.payload) = 0 → field 121 108 (beAt 12 16 rq.payload) ≤ 511) →
    e = insertEntry (beAt 4 8 rq.payload) (beAt 12 16 rq.payload) s.now → s.macFind r e.vid e.mac = none →
    (s.macPlace r (s.rd P.TBL_SEED r) e).2.1 = false →
    ∃ t : State, exec (.tblInsert rq) s = .next t.settle ∧ (t.rd P.TBL_FLAGS).testBit 0 = true ∧
      t.rd P.SYS_CONFIG_GEN = s.rd P.SYS_CONFIG_GEN ∧
      t.replied x Op.TBL_INSERT rq Status.TABLE_FULL ([0] ++ toBe 1 (2 ^ r) ++ [0, 0]) ∧ Only (some [F.cmd, F.rings, F.tables, P.CMD_NOTICE_DROP, P.CMD_REFUSED_COUNT, P.SYS_CONFIG_GEN, P.TBL_DISPLACE_SEQ, P.TBL_EPOCH,
        P.TBL_FLAGS, P.TBL_OCCUPANCY, P.TBL_STASH_USED, P.TBS_OVER_LIMIT_COUNT]) s t) ∧
  (∀ (rq : Request) (s : State) (x : Session), s.taken Op.TBL_INSERT rq x →
    (beAt 0 1 rq.payload = 0 ∨ 4095 < beAt 4 2 rq.payload ∨ bit 127 (beAt 12 16 rq.payload) = false ∨
      (field 122 122 (beAt 12 16 rq.payload) = 0 ∧ 511 < field 121 108 (beAt 12 16 rq.payload))) →
    ∃ t : State, exec (.tblInsert rq) s = .next t.settle ∧ t.replied x Op.TBL_INSERT rq Status.BAD_VALUE [] ∧
      Only (some [F.cmd, F.rings, P.CMD_REFUSED_COUNT, P.TBS_OVER_LIMIT_COUNT]) s t) ∧
  (∀ (rq : Request) (s : State) (x : Session) (r i : Nat) (e : MacEntry), s.taken Op.TBL_DELETE rq x → r < 8 →
    beAt 0 1 rq.payload = 2 ^ r → beAt 4 2 rq.payload ≤ 4095 →
    s.macFind r (beAt 4 2 rq.payload) (beAt 6 6 rq.payload) = some (i, e) →
    ∃ t : State, exec (.tblDelete rq) s = .next t.settle ∧ t.macAt r i = none ∧
      t.rd P.TBL_EPOCH r = (s.rd P.TBL_EPOCH r + 1) % 65536 ∧
      t.tables.fences = s.tables.fences ++ [⟨r, s.tables.nextJob, s.fabric.nextFrame, s.clock⟩] ∧
      t.rd P.SYS_CONFIG_GEN = (s.rd P.SYS_CONFIG_GEN + 1) % 2 ^ 32 ∧ t.accepted x ∧ Only (some [F.cmd, F.rings, F.tables, P.CMD_REFUSED_COUNT, P.SYS_CONFIG_GEN, P.TBL_EPOCH, P.TBL_OCCUPANCY, P.TBL_STASH_USED,
        P.TBS_OVER_LIMIT_COUNT]) s t) ∧
  (∀ (rq : Request) (s : State) (x : Session) (hits : List (Nat × Nat)), s.taken Op.TBL_DELETE rq x → beAt 0 1 rq.payload ≠ 0 →
    beAt 4 2 rq.payload ≤ 4095 → hits = ((List.range 8).filter (beAt 0 1 rq.payload).testBit).filterMap (fun r =>
      (s.macFind r (beAt 4 2 rq.payload) (beAt 6 6 rq.payload)).map fun y => (r, y.1)) → hits ≠ [] →
    ∃ t : State, exec (.tblDelete rq) s = .next t.settle ∧
      (∀ h ∈ hits, t.macAt h.1 h.2 = none ∧ t.rd P.TBL_EPOCH h.1 = (s.rd P.TBL_EPOCH h.1 + 1) % 65536) ∧
      t.tables.fences = s.tables.fences ++ hits.map (fun h => ⟨h.1, s.tables.nextJob, s.fabric.nextFrame, s.clock⟩) ∧
      t.rd P.SYS_CONFIG_GEN = (s.rd P.SYS_CONFIG_GEN + 1) % 2 ^ 32 ∧ t.accepted x ∧ Only (some [F.cmd, F.rings, F.tables, P.CMD_REFUSED_COUNT, P.SYS_CONFIG_GEN, P.TBL_EPOCH, P.TBL_OCCUPANCY, P.TBL_STASH_USED,
        P.TBS_OVER_LIMIT_COUNT]) s t) ∧
  (∀ (rq : Request) (s : State) (x : Session), s.taken Op.TBL_DELETE rq x →
    (beAt 0 1 rq.payload = 0 ∨ 4095 < beAt 4 2 rq.payload) →
    ∃ t : State, exec (.tblDelete rq) s = .next t.settle ∧ t.replied x Op.TBL_DELETE rq Status.BAD_VALUE [] ∧
      Only (some [F.cmd, F.rings, P.CMD_REFUSED_COUNT, P.TBS_OVER_LIMIT_COUNT]) s t) ∧
  (∀ (rq : Request) (s : State) (x : Session), s.taken Op.TBL_DELETE rq x → beAt 0 1 rq.payload ≠ 0 →
    beAt 4 2 rq.payload ≤ 4095 → (∀ r, r < 8 → s.macFind r (beAt 4 2 rq.payload) (beAt 6 6 rq.payload) = none) →
    ∃ t : State, exec (.tblDelete rq) s = .next t.settle ∧ t.replied x Op.TBL_DELETE rq Status.NOT_FOUND [] ∧
      Only (some [F.cmd, F.rings, P.CMD_REFUSED_COUNT, P.TBS_OVER_LIMIT_COUNT]) s t) ∧
  (∀ (r : Fin 8) (s : State) (f : Fence) (j : TblJob), s.oldestFence r.val = some f → s.fenceFrames f = 0 →
    findBy TblJob.id f.job s.tables.jobs = some j →
    ∃ t : State, exec (.drainFenceComplete r) s = .next t ∧ t.tables.fences = s.tables.fences.erase f ∧
      (j.walking = [] → j.fenced = [r.val] → findBy TblJob.id f.job t.tables.jobs = none ∧
        ((s.sessionUid j.origin.uid).isSome = true → t.answered j.origin Status.DONE j.reply)) ∧
      Only (some [F.cmd, F.rings, F.tables, P.CMD_REFUSED_COUNT, P.TBS_OVER_LIMIT_COUNT]) s t) ∧
  (∀ (r : Fin 8) (s : State), (∀ f, s.oldestFence r.val = some f → s.fenceFrames f ≠ 0) →
    exec (.drainFenceComplete r) s = .next s) ∧
  (∀ (rq : Request) (s : State) (x : Session) (r i : Nat) (e : MacEntry), s.taken Op.TBL_CLEAR_FLAP rq x → beAt 0 1 rq.payload = r →
    r ≤ 7 → beAt 4 2 rq.payload ≤ 4095 → s.macFind r (beAt 4 2 rq.payload) (beAt 6 6 rq.payload) = some (i, e) →
    ∃ t : State, exec (.tblClearFlap rq) s = .next t.settle ∧
      (e.flapping = true → t.macAt r i = some { e with flapping := false, moves := 0 } ∧
        t.rd P.TBL_EPOCH r = (s.rd P.TBL_EPOCH r + 1) % 65536 ∧ t.rd P.SYS_CONFIG_GEN = (s.rd P.SYS_CONFIG_GEN + 1) % 2 ^ 32 ∧
        t.replied x Op.TBL_CLEAR_FLAP rq Status.OK []) ∧
      (e.flapping = false → t.tables = s.tables ∧ t.replied x Op.TBL_CLEAR_FLAP rq Status.NOT_FOUND []) ∧
      Only (some [F.cmd, F.rings, F.tables, P.CMD_REFUSED_COUNT, P.SYS_CONFIG_GEN, P.TBL_EPOCH, P.TBL_OCCUPANCY, P.TBL_STASH_USED,
        P.TBS_OVER_LIMIT_COUNT]) s t) ∧
  (∀ (rq : Request) (s : State) (x : Session), s.taken Op.TBL_CLEAR_FLAP rq x →
    (7 < beAt 0 1 rq.payload ∨ 4095 < beAt 4 2 rq.payload) →
    ∃ t : State, exec (.tblClearFlap rq) s = .next t.settle ∧ t.replied x Op.TBL_CLEAR_FLAP rq Status.BAD_VALUE [] ∧
      Only (some [F.cmd, F.rings, P.CMD_REFUSED_COUNT, P.TBS_OVER_LIMIT_COUNT]) s t) ∧
  ∀ (rq : Request) (s : State) (x : Session), s.taken Op.TBL_CLEAR_FLAP rq x → beAt 0 1 rq.payload ≤ 7 → beAt 4 2 rq.payload ≤ 4095 →
    s.macFind (beAt 0 1 rq.payload) (beAt 4 2 rq.payload) (beAt 6 6 rq.payload) = none →
    ∃ t : State, exec (.tblClearFlap rq) s = .next t.settle ∧ t.replied x Op.TBL_CLEAR_FLAP rq Status.NOT_FOUND [] ∧
      Only (some [F.cmd, F.rings, P.CMD_REFUSED_COUNT, P.TBS_OVER_LIMIT_COUNT]) s t

/-- The next learn request of a reach waits TBL_LEARN_HOLD; one older than 1 s is dropped and counted; a new key with room is found
afterwards with the port that learned it; a known one of the same port is refreshed; one seen on another port moves there; one
whose entry reads uncorrectable is removed and learned anew. An ageing sweep, once in TBL_AGE_TIME, removes a dynamic entry
without HIT and clears HIT of the others; a settling sweep, once a second, clears what lies more than 1 s back. Clauses that go
beyond the cited rules are the model's choices: log entry 59. Completion: under conditions on the state and the operands alone, as
its clauses write them, exec answers a next state with the named effect for learnApply, ageingSweep and settleSweep. -/
def Obligations.LearningAndAgeing : Prop :=
  (∀ (r : Fin 8) (err : Bool) (s : State), (nextLearn r.val s.tables.learns = none ∨
      ∃ l, nextLearn r.val s.tables.learns = some l ∧ s.modNs < l.ns + s.rd P.TBL_LEARN_HOLD * 1000) →
    exec (.learnApply ⟨r, err⟩) s = .next s) ∧
  (∀ (r : Fin 8) (err : Bool) (s : State) (l : Learn), nextLearn r.val s.tables.learns = some l →
    l.ns + s.rd P.TBL_LEARN_HOLD * 1000 ≤ s.modNs → l.ns + 1000000000 < s.modNs →
    ∃ t : State, exec (.learnApply ⟨r, err⟩) s = .next t ∧ t.tables = { s.tables with learns := s.tables.learns.erase l } ∧
      t.rd P.TBL_LEARN_DROP r.val = (s.rd P.TBL_LEARN_DROP r.val + 1) % 2 ^ 48 ∧ Only (some [F.cmd, F.rings, F.tables, P.CMD_NOTICE_DROP, P.TBL_DISPLACE_SEQ, P.TBL_FLAGS, P.TBL_LEARNS, P.TBL_LEARN_DROP,
        P.TBL_LEARN_FAIL, P.TBL_LEARN_STALE, P.TBL_LEARN_SUPPR, P.TBL_MOVES, P.TBL_MOVE_REFUSED, P.TBL_OCCUPANCY, P.TBL_STASH_USED]) s t) ∧
  (∀ (r : Fin 8) (err : Bool) (s : State) (l : Learn), nextLearn r.val s.tables.learns = some l →
    l.ns + s.rd P.TBL_LEARN_HOLD * 1000 ≤ s.modNs → s.modNs ≤ l.ns + 1000000000 → l.reach = r.val →
    s.macFind r.val l.vid l.mac = none → s.learnSuppressed l = false →
    (s.placeDirect r.val (s.rd P.TBL_SEED r.val) ⟨l.vid, l.mac, false, false, 0, true, 0, l.port, 0, 0, 0, 0, true⟩ 4).isSome = true →
    ∃ (t : State) (i : Nat) (y : MacEntry), exec (.learnApply ⟨r, err⟩) s = .next t ∧ t.macFind r.val l.vid l.mac = some (i, y) ∧
      y.kind = 0 ∧ y.dest = l.port ∧ y.static = false ∧ y.hit = true ∧ y.lastStamp = l.ns % 2 ^ 32 ∧
      t.rd P.TBL_LEARNS r.val = (s.rd P.TBL_LEARNS r.val + 1) % 2 ^ 48 ∧ Only (some [F.cmd, F.rings, F.tables, P.CMD_NOTICE_DROP, P.TBL_DISPLACE_SEQ, P.TBL_FLAGS, P.TBL_LEARNS, P.TBL_LEARN_DROP,
        P.TBL_LEARN_FAIL, P.TBL_LEARN_STALE, P.TBL_LEARN_SUPPR, P.TBL_MOVES, P.TBL_MOVE_REFUSED, P.TBL_OCCUPANCY, P.TBL_STASH_USED]) s t) ∧
  (∀ (r : Fin 8) (s : State) (l : Learn) (i : Nat) (e : MacEntry), nextLearn r.val s.tables.learns = some l →
    l.ns + s.rd P.TBL_LEARN_HOLD * 1000 ≤ s.modNs → s.modNs ≤ l.ns + 1000000000 → l.reach = r.val →
    s.macFind r.val l.vid l.mac = some (i, e) → (e.recent = false ∨ 0 ≤ stampDiff (l.ns % 2 ^ 32) e.lastStamp) →
    ∃ t : State, exec (.learnApply ⟨r, false⟩) s = .next t ∧
      (e.kind = 0 → e.dest = l.port → t.macAt r.val i = some { e with hit := true, lastStamp := l.ns % 2 ^ 32, recent := true } ∧
        t.rd P.TBL_LEARNS r.val = (s.rd P.TBL_LEARNS r.val + 1) % 2 ^ 48) ∧
      ((e.kind ≠ 0 ∨ e.dest ≠ l.port) → (e.static = true ∨ e.flapping = true) → t.macAt r.val i = some { e with hit := true } ∧
        t.rd P.TBL_MOVE_REFUSED r.val = (s.rd P.TBL_MOVE_REFUSED r.val + 1) % 2 ^ 48) ∧
      ((e.kind ≠ 0 ∨ e.dest ≠ l.port) → e.static = false → e.flapping = false → s.learnSuppressed l = false → e.moves = 0 →
        t.macAt r.val i = some { e with
          hit := true, dest := l.port, kind := 0, lastStamp := l.ns % 2 ^ 32, recent := true, moves := 1,
          winStamp := l.ns % 2 ^ 32, firstPort := l.port } ∧
        t.rd P.TBL_MOVES r.val = (s.rd P.TBL_MOVES r.val + 1) % 2 ^ 48) ∧
      Only (some [F.cmd, F.rings, F.tables, P.CMD_NOTICE_DROP, P.TBL_DISPLACE_SEQ, P.TBL_FLAGS, P.TBL_LEARNS, P.TBL_LEARN_DROP,
        P.TBL_LEARN_FAIL, P.TBL_LEARN_STALE, P.TBL_LEARN_SUPPR, P.TBL_MOVES, P.TBL_MOVE_REFUSED, P.TBL_OCCUPANCY, P.TBL_STASH_USED]) s t) ∧
  (∀ (r : Fin 8) (s : State) (l : Learn) (i : Nat) (e : MacEntry), nextLearn r.val s.tables.learns = some l →
    l.ns + s.rd P.TBL_LEARN_HOLD * 1000 ≤ s.modNs → s.modNs ≤ l.ns + 1000000000 → l.reach = r.val →
    s.macFind r.val l.vid l.mac = some (i, e) → (s.macSet r.val i none).macFind r.val l.vid l.mac = none → s.learnSuppressed l = false →
    ((s.macSet r.val i none).placeDirect r.val (s.rd P.TBL_SEED r.val)
      ⟨l.vid, l.mac, false, false, 0, true, 0, l.port, 0, 0, 0, 0, true⟩ 4).isSome = true →
    ∃ (t : State) (j : Nat) (y : MacEntry), exec (.learnApply ⟨r, true⟩) s = .next t ∧ t.macFind r.val l.vid l.mac = some (j, y) ∧
      y.kind = 0 ∧ y.dest = l.port ∧ y.static = false ∧ y.moves = 0 ∧
      t.rd P.TBL_LEARNS r.val = (s.rd P.TBL_LEARNS r.val + 1) % 2 ^ 48 ∧ Only (some [F.cmd, F.rings, F.tables, P.CMD_NOTICE_DROP, P.TBL_DISPLACE_SEQ, P.TBL_FLAGS, P.TBL_LEARNS, P.TBL_LEARN_DROP,
        P.TBL_LEARN_FAIL, P.TBL_LEARN_STALE, P.TBL_LEARN_SUPPR, P.TBL_MOVES, P.TBL_MOVE_REFUSED, P.TBL_OCCUPANCY, P.TBL_STASH_USED]) s t) ∧
  (∀ (r : Fin 8) (s : State), s.rd P.TBL_AGE_TIME ≠ 0 →
    look r.val 0 s.tables.aged + 1000000000 * s.rd P.TBL_AGE_TIME ≤ s.clock →
    ∃ t : State, exec (.ageingSweep r) s = .next t ∧ (∀ i e, t.macAt r.val i = some e → e.hit = false) ∧
      (∀ i e, s.macAt r.val i = some e → ((s.macAll r.val).filter fun y => y.1 == i) = [(i, e)] →
        t.macAt r.val i = if e.hit = true then some { e with hit := false }
          else if e.static = true ∨ e.flapping = true then some e else none) ∧
      Only (some [F.tables, P.TBL_AGED, P.TBL_OCCUPANCY, P.TBL_STASH_USED]) s t) ∧
  (∀ (r : Fin 8) (s : State), s.rd P.TBL_AGE_TIME = 0 ∨ s.clock < look r.val 0 s.tables.aged + 1000000000 * s.rd P.TBL_AGE_TIME →
    exec (.ageingSweep r) s = .next s) ∧
  (∀ (r : Fin 8) (s : State), look r.val 0 s.tables.settled + 1000000000 ≤ s.clock →
    ∃ t : State, exec (.settleSweep r) s = .next t ∧
      (∀ i e, s.macAt r.val i = some e → ((s.macAll r.val).filter fun y => y.1 == i) = [(i, e)] →
        t.macAt r.val i = if e.flapping = true then some e else some { e with
          recent := e.recent && !decide (1000000000 < stampDiff (s.now % 2 ^ 32) e.lastStamp),
          moves := if 1000000000 < stampDiff (s.now % 2 ^ 32) e.winStamp then 0 else e.moves }) ∧
      Only (some [F.tables, P.TBL_OCCUPANCY, P.TBL_STASH_USED]) s t) ∧
  ∀ (r : Fin 8) (s : State), s.clock < look r.val 0 s.tables.settled + 1000000000 → exec (.settleSweep r) s = .next s

/-- A TBL_FLUSH_PORT is refused in shutter mode or beside a running walk and otherwise starts its walks; a walk's end leaves no entry
that the flush names; a TBL_REHASH takes the new seed in force and flips the generation, and its end leaves the reach IDLE with
DONE or MIXED with ABORTED; a TBL_STREAM_WRITE puts its entries, or with FILL its one entry as often as it says, into every
reach's copy and the master copy and advances all epochs, and with a reserved bit of its head set, no entry to write or a range
that ends beyond the table it is refused BAD_VALUE; a spoilt copy is rewritten from the master copy unless master 12 is frozen.
Clauses that go beyond the cited rules are the model's choices: log entry 59. Completion: under conditions on the state and the
operands alone, as its clauses write them, exec answers a next state with the named effect for tblFlushPort, flushWalkEnd,
tblRehash, rehashWalkEnd, tblStreamWrite and streamEntryRewrite. -/
def Obligations.TableWalksAndStreamWrites : Prop :=
  (∀ (rq : Request) (s : State) (x : Session), s.taken Op.TBL_FLUSH_PORT rq x → s.rd P.PWR_SHUTTER_STATE = 0 →
    beAt 3 1 rq.payload ≠ 0 → beAt 0 2 rq.payload ≤ 511 → beAt 4 2 rq.payload ≤ 4095 →
    ((reachesOf (beAt 3 1 rq.payload)).any s.walkRuns) = false →
    ∃ t : State, exec (.tblFlushPort rq) s = .next t.settle ∧
      t.tables.flushes = s.tables.flushes ++ [⟨s.tables.nextJob, reachesOf (beAt 3 1 rq.payload), beAt 0 2 rq.payload,
        if (beAt 2 1 rq.payload).testBit 0 then some (beAt 4 2 rq.payload) else none, (beAt 2 1 rq.payload).testBit 1⟩] ∧
      t.accepted x ∧ Only (some [F.cmd, F.rings, F.tables, P.CMD_REFUSED_COUNT, P.TBS_OVER_LIMIT_COUNT]) s t) ∧
  (∀ (rq : Request) (s : State) (x : Session) (st : Nat), s.taken Op.TBL_FLUSH_PORT rq x →
    ((s.rd P.PWR_SHUTTER_STATE ≠ 0 ∧ st = Status.SHUTTER_ACTIVE) ∨
      (s.rd P.PWR_SHUTTER_STATE = 0 ∧ (beAt 3 1 rq.payload = 0 ∨ 511 < beAt 0 2 rq.payload ∨ 4095 < beAt 4 2 rq.payload) ∧
        st = Status.BAD_VALUE) ∨
      (s.rd P.PWR_SHUTTER_STATE = 0 ∧ beAt 3 1 rq.payload ≠ 0 ∧ beAt 0 2 rq.payload ≤ 511 ∧ beAt 4 2 rq.payload ≤ 4095 ∧
        ((reachesOf (beAt 3 1 rq.payload)).any s.walkRuns) = true ∧ st = Status.IN_PROGRESS)) →
    ∃ t : State, exec (.tblFlushPort rq) s = .next t.settle ∧ t.replied x Op.TBL_FLUSH_PORT rq st [] ∧
      Only (some [F.cmd, F.rings, P.CMD_REFUSED_COUNT, P.TBS_OVER_LIMIT_COUNT]) s t) ∧
  (∀ (r : Fin 8) (s : State) (f : Flush), (s.tables.flushes.find? fun g => g.reaches.contains r.val) = some f →
    ∃ t : State, exec (.flushWalkEnd r) s = .next t ∧
      (∀ i e, t.macAt r.val i = some e → ¬ (e.kind = 0 ∧ e.dest = f.port ∧ (f.vid = none ∨ f.vid = some e.vid) ∧
        (f.static = true ∨ e.static = false))) ∧ Only (some [F.cmd, F.rings, F.tables, P.CMD_REFUSED_COUNT, P.SYS_CONFIG_GEN, P.TBL_EPOCH, P.TBL_OCCUPANCY, P.TBL_STASH_USED,
        P.TBS_OVER_LIMIT_COUNT]) s t) ∧
  (∀ (r : Fin 8) (s : State), (s.tables.flushes.find? fun g => g.reaches.contains r.val) = none →
    exec (.flushWalkEnd r) s = .next s) ∧
  (∀ (rq : Request) (s : State) (x : Session) (r : Nat), s.taken Op.TBL_REHASH rq x → s.rd P.PWR_SHUTTER_STATE = 0 →
    beAt 0 1 rq.payload = r → r ≤ 7 → s.walkRuns r = false → s.rd P.TBL_REHASH_STATE r ≠ 2 →
    beAt 4 4 rq.payload ≠ s.rd P.TBL_SEED r →
    ∃ t : State, exec (.tblRehash rq) s = .next t.settle ∧ t.rd P.TBL_SEED r = beAt 4 4 rq.payload ∧
      t.rd P.TBL_SEED_OLD r = s.rd P.TBL_SEED r ∧ t.rd P.TBL_GEN r = 1 - s.rd P.TBL_GEN r ∧ t.rd P.TBL_REHASH_STATE r = 1 ∧
      t.rd P.TBL_REHASH_CURSOR r = 0 ∧ t.walkRuns r = true ∧ t.accepted x ∧ Only (some [F.cmd, F.rings, F.tables, P.CMD_REFUSED_COUNT, P.TBL_GEN, P.TBL_REHASH_CURSOR, P.TBL_REHASH_STATE, P.TBL_SEED,
        P.TBL_SEED_OLD, P.TBS_OVER_LIMIT_COUNT]) s t) ∧
  (∀ (rq : Request) (s : State) (x : Session) (r st : Nat), s.taken Op.TBL_REHASH rq x → beAt 0 1 rq.payload = r →
    ((s.rd P.PWR_SHUTTER_STATE ≠ 0 ∧ st = Status.SHUTTER_ACTIVE) ∨
      (s.rd P.PWR_SHUTTER_STATE = 0 ∧ 7 < r ∧ st = Status.BAD_VALUE) ∨
      (s.rd P.PWR_SHUTTER_STATE = 0 ∧ r ≤ 7 ∧ s.walkRuns r = true ∧ st = Status.IN_PROGRESS) ∨
      (s.rd P.PWR_SHUTTER_STATE = 0 ∧ r ≤ 7 ∧ s.walkRuns r = false ∧ s.rd P.TBL_REHASH_STATE r ≠ 2 ∧
        beAt 4 4 rq.payload = s.rd P.TBL_SEED r ∧ st = Status.BAD_VALUE) ∨
      (s.rd P.PWR_SHUTTER_STATE = 0 ∧ r ≤ 7 ∧ s.walkRuns r = false ∧ s.rd P.TBL_REHASH_STATE r = 2 ∧
        beAt 4 4 rq.payload ≠ s.rd P.TBL_SEED r ∧ st = Status.NOT_READY)) →
    ∃ t : State, exec (.tblRehash rq) s = .next t.settle ∧ t.replied x Op.TBL_REHASH rq st [] ∧
      Only (some [F.cmd, F.rings, P.CMD_REFUSED_COUNT, P.TBS_OVER_LIMIT_COUNT]) s t) ∧
  (∀ (r : Fin 8) (s : State) (n : Nat) (o : Origin), (s.tables.rehash.find? fun y => y.1 == r.val) = some (n, o) →
    (s.sessionUid o.uid).isSome = true →
    ∃ (t : State) (p : List Byte), exec (.rehashWalkEnd r) s = .next t ∧ (t.tables.rehash.find? fun y => y.1 == r.val) = none ∧
      ((t.rd P.TBL_REHASH_STATE r.val = 0 ∧ t.rd P.TBL_REHASH_CURSOR r.val = 262152 ∧ t.answered o Status.DONE p) ∨
        (t.rd P.TBL_REHASH_STATE r.val = 2 ∧ (t.rd P.TBL_FLAGS).testBit 2 = true ∧ t.answered o Status.ABORTED p)) ∧
      Only (some [F.cmd, F.rings, F.tables, P.CMD_REFUSED_COUNT, P.TBL_DISPLACE_SEQ, P.TBL_FLAGS, P.TBL_OCCUPANCY, P.TBL_REHASH_CURSOR,
        P.TBL_REHASH_STATE, P.TBL_STASH_USED, P.TBS_OVER_LIMIT_COUNT]) s t) ∧
  (∀ (r : Fin 8) (s : State), (s.tables.rehash.find? fun y => y.1 == r.val) = none → exec (.rehashWalkEnd r) s = .next s) ∧
  (∀ (rq : Request) (s : State) (x : Session) (n : Nat), s.taken Op.TBL_STREAM_WRITE rq x → beAt 4 1 rq.payload = 0 → beAt 5 3 rq.payload = 0 →
    beAt 2 2 rq.payload = n → 1 ≤ n → beAt 0 2 rq.payload + n ≤ 65536 →
    (∀ i, i < n → streamLegal (beAt (8 + 8 * i) 8 rq.payload) = true) → s.frozenMaster 12 = false →
    ∃ t : State, exec (.tblStreamWrite rq) s = .next t.settle ∧
      (∀ i, i < n → look (beAt 0 2 rq.payload + i) 0 t.tables.master = beAt (8 + 8 * i) 8 rq.payload) ∧
      (∀ i r, i < n → r < 8 → look (r, beAt 0 2 rq.payload + i) 0 t.tables.stream = beAt (8 + 8 * i) 8 rq.payload) ∧
      (∀ r, r < 8 → t.rd P.TBL_EPOCH r = (s.rd P.TBL_EPOCH r + 1) % 65536) ∧
      t.rd P.SYS_CONFIG_GEN = (s.rd P.SYS_CONFIG_GEN + 1) % 2 ^ 32 ∧ t.replied x Op.TBL_STREAM_WRITE rq Status.OK [] ∧
      Only (some [F.cmd, F.fault, F.fresh, F.rings, F.tables, P.CMD_NOTICE_DROP, P.CMD_REFUSED_COUNT, P.HLT_FAULT_COUNT,
        P.HLT_STICKY, P.SYS_CONFIG_GEN, P.TBL_EPOCH, P.TBS_OVER_LIMIT_COUNT]) s t) ∧
  (∀ (rq : Request) (s : State) (x : Session) (n : Nat), s.taken Op.TBL_STREAM_WRITE rq x → beAt 4 1 rq.payload = 1 →
    beAt 5 3 rq.payload = 0 → n = (if beAt 2 2 rq.payload = 0 then 65536 else beAt 2 2 rq.payload) →
    beAt 0 2 rq.payload + n ≤ 65536 → streamLegal (beAt 8 8 rq.payload) = true → s.frozenMaster 12 = false →
    ∃ t : State, exec (.tblStreamWrite rq) s = .next t.settle ∧
      (∀ i, i < n → look (beAt 0 2 rq.payload + i) 0 t.tables.master = beAt 8 8 rq.payload) ∧
      (∀ i r, i < n → r < 8 → look (r, beAt 0 2 rq.payload + i) 0 t.tables.stream = beAt 8 8 rq.payload) ∧
      (∀ r, r < 8 → t.rd P.TBL_EPOCH r = (s.rd P.TBL_EPOCH r + 1) % 65536) ∧
      t.replied x Op.TBL_STREAM_WRITE rq Status.OK [] ∧ Only (some [F.cmd, F.fault, F.fresh, F.rings, F.tables, P.CMD_NOTICE_DROP, P.CMD_REFUSED_COUNT, P.HLT_FAULT_COUNT,
        P.HLT_STICKY, P.SYS_CONFIG_GEN, P.TBL_EPOCH, P.TBS_OVER_LIMIT_COUNT]) s t) ∧
  (∀ (rq : Request) (s : State) (x : Session), s.taken Op.TBL_STREAM_WRITE rq x →
    (1 < beAt 4 1 rq.payload ∨ beAt 5 3 rq.payload ≠ 0 ∨ (beAt 4 1 rq.payload = 0 ∧ beAt 2 2 rq.payload = 0) ∨
      65536 < beAt 0 2 rq.payload + beAt 2 2 rq.payload) →
    ∃ t : State, exec (.tblStreamWrite rq) s = .next t.settle ∧ t.replied x Op.TBL_STREAM_WRITE rq Status.BAD_VALUE [] ∧
      Only (some [F.cmd, F.rings, P.CMD_REFUSED_COUNT, P.TBS_OVER_LIMIT_COUNT]) s t) ∧
  (∀ (r : Fin 8) (sid : BitVec 16) (s : State), s.tables.bad.contains (r.val, sid.toNat) = true → s.frozenMaster 12 = false →
    ∃ t : State, exec (.streamEntryRewrite r sid) s = .next t ∧
      look (r.val, sid.toNat) 0 t.tables.stream = look sid.toNat 0 s.tables.master ∧
      t.tables.bad = s.tables.bad.erase (r.val, sid.toNat) ∧ Only (some [F.tables]) s t) ∧
  ∀ (r : Fin 8) (sid : BitVec 16) (s : State), s.tables.bad.contains (r.val, sid.toNat) = false ∨ s.frozenMaster 12 = true →
    exec (.streamEntryRewrite r sid) s = .next s

/-- On a port that is up, outside shutter mode and with the counters running, a damaged, short or over-long frame is dropped and its
own counter rises by 1, and beside the count of over-limit stamps nothing else changes; a good ordinary frame that its ingress
FIFO can hold enters the module with its bytes, port, inlet and receive stamp, to wait or to be queued, and one that the FIFO
cannot hold is counted in PRT_RX_OVERRUN; the end of an express frame completes or stomps it, and one longer than its port allows
is discarded whole and counted while none of its cells has left, else ended with STOMP. A good MAC control frame, and an NHP frame
where NHP runs, have a command of their own. On a port that is down nothing happens. Clauses that go beyond the cited rules are
the model's choices: log entries 55, 62, 83. Completion: under conditions on the state and the operands alone, as its clauses
write them, exec answers a next state with the named effect for frameReceived. -/
def Obligations.FramesComeInOrAreCounted : Prop :=
  (∀ (port : Fin 512) (bytes : List Byte) (bad e1 e2 : Bool) (raw : RawStamp) (s : State) (ctr : Nat), s.portUp port.val = true →
    s.rd P.PWR_SHUTTER_STATE = 0 → s.rd P.OBS_FROZEN = 0 → (∀ k ∈ s.fabric.receiving, k.port ≠ port.val) →
    (((bad = true ∨ fcsGood bytes = false) ∧ ctr = P.PRT_RX_FCS_ERR) ∨
      (bad = false ∧ fcsGood bytes = true ∧ bytes.length < 64 ∧ ctr = P.PRT_RX_RUNT) ∨
      (bad = false ∧ fcsGood bytes = true ∧ 64 ≤ bytes.length ∧ s.rd P.PRT_MAX_FRAME port.val < bytes.length ∧
        ctr = P.PRT_RX_OVERSIZE)) →
    ∃ t : State, exec (.frameReceived port bytes bad e1 e2 raw) s = .next t ∧
      t.rd ctr port.val = (s.rd ctr port.val + 1) % 2 ^ 48 ∧ (∀ p, p ≠ port.val → t.rd ctr p = s.rd ctr p) ∧
      Only (some [ctr, P.OBS_OVF, P.TBS_OVER_LIMIT_COUNT]) s t) ∧
  (∀ (port : Fin 512) (bytes : List Byte) (e1 e2 : Bool) (raw : RawStamp) (s : State), s.portUp port.val = true →
    s.rd P.PWR_SHUTTER_STATE = 0 → (∀ k ∈ s.fabric.receiving, k.port ≠ port.val) → fcsGood bytes = true → 64 ≤ bytes.length →
    bytes.length ≤ s.rd P.PRT_MAX_FRAME port.val → isMacControl bytes = false → isNhp bytes = false →
    s.fifoBytes (port.val / 8) + bytes.length ≤ 65536 →
    ∃ (t : State) (f : Frame), exec (.frameReceived port bytes false e1 e2 raw) s = .next t ∧ f ∈ t.fabric.frames ∧
      f.id = s.fabric.nextFrame ∧ f.data = bytes ∧ f.port = port.val ∧ f.inlet = port.val / 8 ∧ f.ended = true ∧ f.express = false ∧
      f.stamp = (s.rxStamp port.val raw).2 ∧ t.fabric.nextFrame = s.fabric.nextFrame + 1 ∧
      (s.fabric.nextFrame ∈ t.fabric.waiting ∨ (⟨s.fabric.nextFrame, 0⟩ : Queued) ∈ t.fabric.queued) ∧
      Only (some [F.fabric, F.fresh, F.hidden, F.log, F.pad, F.params, F.quay, F.rings,
        F.tables, F.tagRegs, F.windowAt]) s t) ∧
  (∀ (port : Fin 512) (bytes : List Byte) (e1 e2 : Bool) (raw : RawStamp) (s : State), s.portUp port.val = true →
    s.rd P.PWR_SHUTTER_STATE = 0 → s.rd P.OBS_FROZEN = 0 → (∀ k ∈ s.fabric.receiving, k.port ≠ port.val) → fcsGood bytes = true →
    64 ≤ bytes.length → bytes.length ≤ s.rd P.PRT_MAX_FRAME port.val → isMacControl bytes = false → isNhp bytes = false →
    65536 < s.fifoBytes (port.val / 8) + bytes.length →
    ∃ t : State, exec (.frameReceived port bytes false e1 e2 raw) s = .next t ∧
      t.fabric = { s.fabric with nextFrame := s.fabric.nextFrame + 1 } ∧
      t.rd P.PRT_RX_OVERRUN port.val = (s.rd P.PRT_RX_OVERRUN port.val + 1) % 2 ^ 48 ∧ (t.rd P.PRT_FLAGS).testBit 1 = true ∧
      Only (some [F.fabric, F.fresh, F.hidden, F.log, F.pad, F.params, F.quay, F.rings,
        F.tables, F.tagRegs, F.windowAt]) s t) ∧
  (∀ (port : Fin 512) (bytes : List Byte) (bad e1 e2 : Bool) (raw : RawStamp) (s : State) (r : Receiving) (f : Frame),
    s.portUp port.val = true → s.rd P.PWR_SHUTTER_STATE = 0 → s.rd P.OBS_FROZEN = 0 →
    (s.fabric.receiving.find? fun k => k.port == port.val) = some r → s.frame r.frame = some f → f.ended = false → f.port = port.val →
    bytes.length ≤ s.rd P.PRT_MAX_FRAME port.val → s.fifoBytes f.inlet + (bytes.length - f.size) ≤ 65536 →
    ∃ (t : State) (g : Frame), exec (.frameReceived port bytes bad e1 e2 raw) s = .next t ∧ t.frame r.frame = some g ∧ g.data = bytes ∧
      g.ended = true ∧ (∀ k ∈ t.fabric.receiving, k.port ≠ port.val) ∧
      (bad = false → fcsGood bytes = true → g.stomp = f.stomp) ∧
      (bad = true ∨ fcsGood bytes = false → g.stomp = true ∧
        t.rd P.PRT_RX_STOMP port.val = (s.rd P.PRT_RX_STOMP port.val + 1) % 2 ^ 48) ∧
      Only (some [F.fabric, F.fresh, F.hidden, F.log, F.pad, F.params, F.quay, F.rings,
        F.tables, F.tagRegs, F.windowAt]) s t) ∧
  (∀ (port : Fin 512) (bytes : List Byte) (bad e1 e2 : Bool) (raw : RawStamp) (s : State) (r : Receiving) (f : Frame),
    s.portUp port.val = true → s.rd P.PWR_SHUTTER_STATE = 0 → s.rd P.OBS_FROZEN = 0 →
    (s.fabric.receiving.find? fun k => k.port == port.val) = some r → s.frame r.frame = some f → f.ended = false → f.port = port.val →
    s.rd P.PRT_MAX_FRAME port.val < bytes.length →
    ∃ t : State, exec (.frameReceived port bytes bad e1 e2 raw) s = .next t ∧
      (s.untouched f.id = true → t.rd P.PRT_RX_OVERSIZE port.val = (s.rd P.PRT_RX_OVERSIZE port.val + 1) % 2 ^ 48 ∧
        ∀ q ∈ t.fabric.queued, q.frame ≠ f.id) ∧
      (s.untouched f.id = false → t.rd P.PRT_RX_STOMP port.val = (s.rd P.PRT_RX_STOMP port.val + 1) % 2 ^ 48 ∧
        ∃ g, t.frame r.frame = some g ∧ g.ended = true ∧ g.stomp = true) ∧
      Only (some [F.fabric, F.fresh, F.hidden, F.log, F.pad, F.params, F.quay, F.rings,
        F.tables, F.tagRegs, F.windowAt]) s t) ∧
  (∀ (port : Fin 512) (bytes : List Byte) (e1 e2 : Bool) (raw : RawStamp) (s : State), s.portUp port.val = true →
    s.rd P.PWR_SHUTTER_STATE = 0 → (∀ k ∈ s.fabric.receiving, k.port ≠ port.val) → s.badFrame port.val bytes false = none →
    (isMacControl bytes = true ∨ (isNhp bytes = true ∧ s.nhpRuns port.val = true)) →
    exec (.frameReceived port bytes false e1 e2 raw) s = .next s) ∧
  ∀ (port : Fin 512) (bytes : List Byte) (bad e1 e2 : Bool) (raw : RawStamp) (s : State), s.portUp port.val = false →
    exec (.frameReceived port bytes bad e1 e2 raw) s = .next s

/-- An eligible frame that passes the start test and goes to one port that is up, is another and is no faster, starts as an express
frame of its port; an eligible one whose destination or kind does not allow it is demoted and counted in PRT_EXPRESS_DEMOTED, and
one that is not eligible or in error is left alone; a frame that has started takes the bytes that have come since; the first
waiting frame of an inlet whose bar has lifted enters its inlet queue. Clauses that go beyond the cited rules are the model's
choices: log entries 16, 55, 56. Completion: under conditions on the state and the operands alone, as its clauses write them, exec
answers a next state with the named effect for expressStartTest and frameAdmitted. -/
def Obligations.ExpressStartAndAdmission : Prop :=
  (∀ (port : Fin 512) (bytes : List Byte) (ended e1 e2 : Bool) (raw : RawStamp) (s : State) (l : Lookup),
    (s.lookup port.val bytes e1 e2).2 = l → s.rd P.PWR_SHUTTER_STATE = 0 → s.portUp port.val = true →
    (s.rdb P.PRT_EXPRESS port.val = true ∨ streamExpress l.entry = true) → isMacControl bytes = false → isNhp bytes = false →
    (128 ≤ bytes.length ∨ ended = true) → (∀ k ∈ s.fabric.receiving, k.port ≠ port.val) → expressError bytes ended false = false →
    l.kind = 0 → s.portUp l.dest = true → l.dest ≠ port.val → s.gbps l.dest ≤ s.gbps port.val →
    s.fifoBytes (port.val / 8) + bytes.length ≤ 65536 →
    ∃ (t : State) (f : Frame), exec (.expressStartTest port bytes ended false e1 e2 raw) s = .next t ∧ f ∈ t.fabric.frames ∧
      f.id = s.fabric.nextFrame ∧ f.express = true ∧ f.data = bytes ∧ f.port = port.val ∧ f.dest = l.dest ∧ f.ended = ended ∧
      t.fabric.receiving = s.fabric.receiving ++ [⟨port.val, s.fabric.nextFrame, l.vid, l.entry, f.stamp.ns⟩] ∧
      t.rd P.PRT_EXPRESS_DEMOTED port.val = s.rd P.PRT_EXPRESS_DEMOTED port.val ∧ Only (some ([F.fabric, F.fresh, F.hidden, F.log, F.pad, F.rings, F.tables, F.tagRegs] ++
        [F.windowAt, P.LOG_FLAGS, P.LOG_HOLD_ACTIVE, P.LOG_RECORDS, P.LOG_SPILL_PEAK, P.LOG_SPILL_USED, P.LOG_UNLOGGED, P.LOG_UNROUTED] ++
        [P.OBS_OVF, P.OBS_TAG_COUNT, P.OBS_TRACE_DROP, P.OBS_TRACE_HEAD, P.OBS_TRACE_OLDEST, P.PRT_EXPRESS_DEMOTED, P.PRT_FLAGS, P.PRT_PFC_TX_XOFF] ++
        [P.PRT_RX_OVERRUN, P.PRT_RX_OVERSIZE, P.PRT_RX_STOMP, P.TBL_FLAGS, P.TBL_HAIRPIN, P.TBL_OCCUPANCY, P.TBL_STASH_USED, P.TBL_STREAM_ECC] ++
        [P.TBS_OVER_LIMIT_COUNT])) s t) ∧
  (∀ (port : Fin 512) (bytes : List Byte) (ended e1 e2 : Bool) (raw : RawStamp) (s : State) (l : Lookup),
    (s.lookup port.val bytes e1 e2).2 = l → s.rd P.PWR_SHUTTER_STATE = 0 → s.portUp port.val = true → s.rd P.OBS_FROZEN = 0 →
    (s.rdb P.PRT_EXPRESS port.val = true ∨ streamExpress l.entry = true) →
    (128 ≤ bytes.length ∨ ended = true) → (∀ k ∈ s.fabric.receiving, k.port ≠ port.val) → expressError bytes ended false = false →
    (l.kind ≠ 0 ∨ s.portUp l.dest = false ∨ l.dest = port.val ∨ s.gbps port.val < s.gbps l.dest ∨ isMacControl bytes = true ∨
      isNhp bytes = true) →
    ∃ t : State, exec (.expressStartTest port bytes ended false e1 e2 raw) s = .next t ∧
      t.rd P.PRT_EXPRESS_DEMOTED port.val = (s.rd P.PRT_EXPRESS_DEMOTED port.val + 1) % 2 ^ 48 ∧
      Only (some [P.PRT_EXPRESS_DEMOTED, P.OBS_OVF]) s t) ∧
  (∀ (port : Fin 512) (bytes : List Byte) (ended bad e1 e2 : Bool) (raw : RawStamp) (s : State) (l : Lookup),
    (s.lookup port.val bytes e1 e2).2 = l →
    (s.rd P.PWR_SHUTTER_STATE ≠ 0 ∨ s.portUp port.val = false ∨ (bytes.length < 128 ∧ ended = false) ∨
      (ended = true ∧ ∃ k ∈ s.fabric.receiving, k.port = port.val) ∨
      ((∀ k ∈ s.fabric.receiving, k.port ≠ port.val) ∧
        ((s.rdb P.PRT_EXPRESS port.val = false ∧ streamExpress l.entry = false) ∨ expressError bytes ended bad = true))) →
    exec (.expressStartTest port bytes ended bad e1 e2 raw) s = .next s) ∧
  (∀ (port : Fin 512) (bytes : List Byte) (bad e1 e2 : Bool) (raw : RawStamp) (s : State) (r : Receiving) (f : Frame),
    s.rd P.PWR_SHUTTER_STATE = 0 → s.portUp port.val = true → 128 ≤ bytes.length →
    (s.fabric.receiving.find? fun k => k.port == port.val) = some r → s.frame r.frame = some f → f.ended = false →
    bytes.length ≤ s.rd P.PRT_MAX_FRAME f.port → s.fifoBytes f.inlet + (bytes.length - f.size) ≤ 65536 →
    ∃ (t : State) (g : Frame), exec (.expressStartTest port bytes false bad e1 e2 raw) s = .next t ∧ t.frame r.frame = some g ∧
      g.data = bytes ∧ g.ended = false ∧ t.fabric.receiving = s.fabric.receiving ∧ Only (some ([F.fabric, F.fresh, F.hidden, F.log, F.pad, F.rings, F.tables, F.tagRegs] ++
        [F.windowAt, P.LOG_FLAGS, P.LOG_HOLD_ACTIVE, P.LOG_RECORDS, P.LOG_SPILL_PEAK, P.LOG_SPILL_USED, P.LOG_UNLOGGED, P.LOG_UNROUTED] ++
        [P.OBS_OVF, P.OBS_TAG_COUNT, P.OBS_TRACE_DROP, P.OBS_TRACE_HEAD, P.OBS_TRACE_OLDEST, P.PRT_EXPRESS_DEMOTED, P.PRT_FLAGS, P.PRT_PFC_TX_XOFF] ++
        [P.PRT_RX_OVERRUN, P.PRT_RX_OVERSIZE, P.PRT_RX_STOMP, P.TBL_FLAGS, P.TBL_HAIRPIN, P.TBL_OCCUPANCY, P.TBL_STASH_USED, P.TBL_STREAM_ECC] ++
        [P.TBS_OVER_LIMIT_COUNT])) s t) ∧
  (∀ (inlet : Fin 64) (s : State) (id : Nat),
    (s.fabric.waiting.find? fun k => match s.frame k with
      | some f => f.inlet == inlet.val && !s.barred f.entry | none => false) = some id →
    ∃ t : State, exec (.frameAdmitted inlet) s = .next t ∧ t.fabric.queued = s.fabric.queued ++ [⟨id, 0⟩] ∧
      t.fabric.waiting = s.fabric.waiting.erase id ∧ Only (some [F.fabric, F.fresh, F.log, F.rings, P.LOG_FLAGS, P.LOG_HOLD_ACTIVE, P.LOG_RECORDS, P.LOG_SPILL_PEAK,
        P.LOG_SPILL_USED, P.LOG_UNLOGGED, P.LOG_UNROUTED, P.PRT_PFC_TX_XOFF, P.TBS_OVER_LIMIT_COUNT]) s t) ∧
  ∀ (inlet : Fin 64) (s : State),
    (s.fabric.waiting.find? fun k => match s.frame k with
      | some f => f.inlet == inlet.val && !s.barred f.entry | none => false) = none →
    exec (.frameAdmitted inlet) s = .next s

/-- On a port that is up a good PFC frame sets the pause of each class of its vector to its quanta of 64 bytes at the port's rate, 0
releasing it, and leaves every other class; on a port in PAUSE mode a PAUSE frame does so for all eight; a passed pause leaves no
trace; any other good MAC control frame is consumed; a pair that stays held off for half the quanta it was told has its XOFF sent
again and counted, at once or at the end of the frame that the port is sending. Clauses that go beyond the cited rules are the
model's choices: log entries 57, 80. Completion: under conditions on the state and the operands alone, as its clauses write them,
exec answers a next state with the named effect for pfcReceived, pauseExpiry and pfcRepeat. -/
def Obligations.FlowControlPausesAndRepeats : Prop :=
  (∀ (port : Fin 512) (bytes : List Byte) (s : State), s.portUp port.val = true → isMacControl bytes = true →
    s.badFrame port.val bytes false = none → beAt 14 2 bytes = 0x0101 → s.usesPause port.val = false →
    ∃ t : State, exec (.pfcReceived port bytes) s = .next t ∧
      (∀ c, c < 8 → (beAt 16 2 bytes).testBit c = true →
        look (port.val, c) 0 t.fabric.paused = (if beAt (18 + 2 * c) 2 bytes = 0 then 0
          else s.clock + wireNs (beAt (18 + 2 * c) 2 bytes * 64) (s.gbps port.val)) ∧
        t.rd P.PRT_PFC_RX_XOFF (8 * port.val + c) = (if beAt (18 + 2 * c) 2 bytes = 0 then s.rd P.PRT_PFC_RX_XOFF (8 * port.val + c)
          else (s.rd P.PRT_PFC_RX_XOFF (8 * port.val + c) + 1) % 2 ^ 48)) ∧
      (∀ p c, (p ≠ port.val ∨ 8 ≤ c ∨ (beAt 16 2 bytes).testBit c = false) →
        look (p, c) 0 t.fabric.paused = look (p, c) 0 s.fabric.paused) ∧
      Only (some [F.fabric, P.PRT_PFC_RX_XOFF, P.TBS_OVER_LIMIT_COUNT]) s t) ∧
  (∀ (port : Fin 512) (bytes : List Byte) (s : State), s.portUp port.val = true → isMacControl bytes = true →
    s.badFrame port.val bytes false = none → beAt 14 2 bytes = 0x0001 → s.usesPause port.val = true →
    ∃ t : State, exec (.pfcReceived port bytes) s = .next t ∧
      (∀ c, c < 8 → look (port.val, c) 0 t.fabric.paused = (if beAt 16 2 bytes = 0 then 0
        else s.clock + wireNs (beAt 16 2 bytes * 64) (s.gbps port.val))) ∧ Only (some [F.fabric, P.PRT_PFC_RX_XOFF, P.TBS_OVER_LIMIT_COUNT]) s t) ∧
  (∀ (port : Fin 512) (bytes : List Byte) (s : State), (s.portUp port.val = false ∨ isMacControl bytes = false ∨
      s.badFrame port.val bytes false ≠ none) → exec (.pfcReceived port bytes) s = .next s) ∧
  (∀ (port : Fin 512) (bytes : List Byte) (s : State), s.portUp port.val = true → isMacControl bytes = true →
    s.badFrame port.val bytes false = none → beAt 14 2 bytes ≠ (if s.usesPause port.val = true then 0x0001 else 0x0101) →
    ∃ t : State, exec (.pfcReceived port bytes) s = .next t ∧ Only (some [P.TBS_OVER_LIMIT_COUNT]) s t) ∧
  (∀ (port : Fin 512) (cls : Fin 8) (s : State), look (port.val, cls.val) 0 s.fabric.paused ≤ s.clock →
    ∃ t : State, exec (.pauseExpiry port cls) s = .next t ∧ look (port.val, cls.val) 0 t.fabric.paused = 0 ∧
      t.pausedNow port.val cls.val = false ∧ Only (some [F.fabric]) s t) ∧
  (∀ (port : Fin 512) (cls : Fin 8) (s : State), s.clock < look (port.val, cls.val) 0 s.fabric.paused →
    exec (.pauseExpiry port cls) s = .next s) ∧
  (∀ (port : Fin 512) (cls : Fin 9) (s : State) (h : HoldOff),
    (s.fabric.off.find? fun y => y.port == port.val && y.cls == cls.val) = some h →
    h.sentAt * s.gbps port.val * 2 + h.quanta * 512 ≤ s.clock * s.gbps port.val * 2 →
    s.fabric.owed.contains (port.val, cls.val, true) = false → (∀ y ∈ s.quay.sending, y.port ≠ port.val) →
    ∃ t : State, exec (.pfcRepeat port cls) s = .next t ∧
      t.out = s.out ++ [.frame port.val (if cls.val = 8 then s.pauseFrame port.val (s.rd P.PRT_PFC_QUANTA)
        else s.pfcFrame port.val cls.val (s.rd P.PRT_PFC_QUANTA))] ∧
      t.rd P.PRT_PFC_TX_XOFF (8 * port.val + if cls.val = 8 then 0 else cls.val) =
        (s.rd P.PRT_PFC_TX_XOFF (8 * port.val + if cls.val = 8 then 0 else cls.val) + 1) % 2 ^ 48 ∧
      (⟨port.val, cls.val, s.clock, s.rd P.PRT_PFC_QUANTA⟩ : HoldOff) ∈ t.fabric.off ∧ Only (some [F.fabric, P.PRT_PFC_TX_XOFF, P.TBS_OVER_LIMIT_COUNT]) s t) ∧
  (∀ (port : Fin 512) (cls : Fin 9) (s : State) (h : HoldOff) (y : Sending),
    (s.fabric.off.find? fun y => y.port == port.val && y.cls == cls.val) = some h →
    h.sentAt * s.gbps port.val * 2 + h.quanta * 512 ≤ s.clock * s.gbps port.val * 2 →
    s.fabric.owed.contains (port.val, cls.val, true) = false → y ∈ s.quay.sending → y.port = port.val →
    exec (.pfcRepeat port cls) s =
      .next { s with fabric := { s.fabric with owed := s.fabric.owed ++ [(port.val, cls.val, true)] } }) ∧
  ∀ (port : Fin 512) (cls : Fin 9) (s : State),
    (∀ h ∈ s.fabric.off, h.port = port.val → h.cls = cls.val →
      s.clock * s.gbps port.val * 2 < h.sentAt * s.gbps port.val * 2 + h.quanta * 512) ∨
    s.fabric.owed.contains (port.val, cls.val, true) = true →
    exec (.pfcRepeat port cls) s = .next s

/-- A port that is up and idle starts the head of the highest class whose head may start, with its transmit stamp; a frame longer than
the port allows is discarded and counted instead. A transmission that ends puts the bytes with their insertion and FCS on the
wire, with the FCS inverted and counted for a stomped frame, and its copy is gone; an express frame that has outgrown the port's
maximum ends there with an inverted FCS and is counted as oversize. A port that goes down loses its copies, its pauses and its
link. Where there is nothing to do nothing changes. Clauses that go beyond the cited rules are the model's choices: log entries
56, 57, 58, 81. Completion: under conditions on the state and the operands alone, as its clauses write them, exec answers a next
state with the named effect for frameTransmitStart, transmitComplete and portLinkDown. -/
def Obligations.FramesGoOutByPriority : Prop :=
  (∀ (port : Fin 512) (raw : RawStamp) (s : State) (k : Copy) (f : Frame) (o : Bool), s.portUp port.val = true →
    s.portIdle port.val = true → s.nextCopyOf port.val = some (k, f, o) → f.size ≤ s.rd P.PRT_MAX_FRAME port.val →
    ∃ t : State, exec (.frameTransmitStart port raw) s = .next t ∧
      t.quay = { s.quay with sending := s.quay.sending ++ [⟨port.val, k.id, (s.txStamp port.val raw).2⟩] } ∧
      (o = true → t.rd P.LCK_GATE_OVERRUN port.val = (s.rd P.LCK_GATE_OVERRUN port.val + 1) % 2 ^ 48 ∧
        (t.rd P.LCK_FLAGS).testBit 3 = true) ∧
      (∀ c j g, k.cls < c → c < 8 → (s.classQueue port.val c).head? = some j → s.frame j.frame = some g →
        s.mayStart port.val c j g = none) ∧
      Only (some ([F.cmd, F.fabric, F.fault, F.hidden, F.pad, F.quay, F.rings, F.txSlots] ++
        [F.windowAt, P.BUF_DF_AGENT, P.BUF_DF_INDEX, P.BUF_DF_POOL, P.BUF_DF_TIME, P.BUF_DOUBLE_FREE, P.BUF_FLAGS, P.BUF_HELD] ++
        [P.BUF_QUARANTINED, P.BUF_SIGNALS, P.CMD_NOTICE_DROP, P.HLT_FAULT_COUNT, P.HLT_STICKY, P.HST_RXQ_BYTES, P.LCK_FLAGS, P.LCK_GATE_OVERRUN] ++
        [P.OBS_OVF, P.OBS_TRACE_DROP, P.OBS_TRACE_HEAD, P.OBS_TRACE_OLDEST, P.PRT_EGQ_BYTES, P.PRT_LINKDOWN_DROP, P.PRT_PFC_TX_XOFF, P.PRT_TX_OVERSIZE] ++
        [P.TBS_OVER_LIMIT_COUNT])) s t) ∧
  (∀ (port : Fin 512) (raw : RawStamp) (s : State) (k : Copy) (f : Frame) (o : Bool), s.portUp port.val = true →
    s.portIdle port.val = true → s.rd P.OBS_FROZEN = 0 → s.nextCopyOf port.val = some (k, f, o) →
    s.rd P.PRT_MAX_FRAME port.val < f.size →
    ∃ t : State, exec (.frameTransmitStart port raw) s = .next t ∧ (∀ c ∈ t.quay.copies, c.id ≠ k.id) ∧
      t.rd P.PRT_TX_OVERSIZE port.val = (s.rd P.PRT_TX_OVERSIZE port.val + 1) % 2 ^ 48 ∧ Only (some ([F.cmd, F.fabric, F.fault, F.hidden, F.pad, F.quay, F.rings, F.txSlots] ++
        [F.windowAt, P.BUF_DF_AGENT, P.BUF_DF_INDEX, P.BUF_DF_POOL, P.BUF_DF_TIME, P.BUF_DOUBLE_FREE, P.BUF_FLAGS, P.BUF_HELD] ++
        [P.BUF_QUARANTINED, P.BUF_SIGNALS, P.CMD_NOTICE_DROP, P.HLT_FAULT_COUNT, P.HLT_STICKY, P.HST_RXQ_BYTES, P.LCK_FLAGS, P.LCK_GATE_OVERRUN] ++
        [P.OBS_OVF, P.OBS_TRACE_DROP, P.OBS_TRACE_HEAD, P.OBS_TRACE_OLDEST, P.PRT_EGQ_BYTES, P.PRT_LINKDOWN_DROP, P.PRT_PFC_TX_XOFF, P.PRT_TX_OVERSIZE] ++
        [P.TBS_OVER_LIMIT_COUNT])) s t) ∧
  (∀ (port : Fin 512) (raw : RawStamp) (s : State), (s.portUp port.val = false ∨ s.portIdle port.val = false ∨
      s.nextCopyOf port.val = none) → exec (.frameTransmitStart port raw) s = .next s) ∧
  (∀ (port : Fin 512) (underrun parity : Bool) (s : State) (y : Sending) (c : Copy) (f : Frame), s.sendingOn port.val = some y →
    (s.quay.copies.find? fun z => z.id == y.copy) = some c → s.frame c.frame = some f → s.allInQuay f = true →
    f.size ≤ s.rd P.PRT_MAX_FRAME port.val →
    ∃ t : State, exec (.transmitComplete port underrun parity) s = .next t ∧
      (s.out ++ [.frame port.val ((s.inserted port.val f y.stamp).2 ++
        (if f.stomp = true ∨ (underrun = true ∧ f.express = true) then stompedFcs (s.inserted port.val f y.stamp).2
          else fcsOf (s.inserted port.val f y.stamp).2))]) <+: t.out ∧
      (∀ z ∈ t.quay.copies, z.id ≠ c.id) ∧
      (s.rd P.OBS_FROZEN = 0 → f.stomp = true ∨ (underrun = true ∧ f.express = true) →
        t.rd P.PRT_TX_STOMP port.val = (s.rd P.PRT_TX_STOMP port.val + 1) % 2 ^ 48) ∧
      Only (some ([F.cmd, F.fabric, F.fault, F.hidden, F.quay, F.rings, F.txSlots, P.BUF_DF_AGENT] ++
        [P.BUF_DF_INDEX, P.BUF_DF_POOL, P.BUF_DF_TIME, P.BUF_DOUBLE_FREE, P.BUF_FLAGS, P.BUF_HELD, P.BUF_QUARANTINED, P.BUF_SIGNALS] ++
        [P.CMD_NOTICE_DROP, P.HLT_FAULT_COUNT, P.HLT_STICKY, P.HST_RXQ_BYTES, P.OBS_OVF, P.PRT_EGQ_BYTES, P.PRT_FLAGS, P.PRT_LINKDOWN_DROP] ++
        [P.PRT_PFC_TX_XOFF, P.PRT_TX_OVERSIZE, P.PRT_TX_STOMP, P.TBS_OVER_LIMIT_COUNT, P.TBS_OVW_SKIP, P.TBS_PTP_SKIP, P.TBS_TRAILER_SKIP])) s t) ∧
  (∀ (port : Fin 512) (underrun parity : Bool) (s : State) (y : Sending) (c : Copy) (f : Frame), s.sendingOn port.val = some y →
    (s.quay.copies.find? fun z => z.id == y.copy) = some c → s.frame c.frame = some f → s.allInQuay f = true →
    s.rd P.PRT_MAX_FRAME port.val < f.size → s.rd P.OBS_FROZEN = 0 →
    ∃ t : State, exec (.transmitComplete port underrun parity) s = .next t ∧
      (s.out ++ [.frame port.val (f.data.take (s.rd P.PRT_MAX_FRAME port.val - 4) ++
        stompedFcs (f.data.take (s.rd P.PRT_MAX_FRAME port.val - 4)))]) <+: t.out ∧
      (∀ z ∈ t.quay.copies, z.id ≠ c.id) ∧
      t.rd P.PRT_TX_OVERSIZE port.val = (s.rd P.PRT_TX_OVERSIZE port.val + 1) % 2 ^ 48 ∧ Only (some ([F.cmd, F.fabric, F.fault, F.hidden, F.quay, F.rings, F.txSlots, P.BUF_DF_AGENT] ++
        [P.BUF_DF_INDEX, P.BUF_DF_POOL, P.BUF_DF_TIME, P.BUF_DOUBLE_FREE, P.BUF_FLAGS, P.BUF_HELD, P.BUF_QUARANTINED, P.BUF_SIGNALS] ++
        [P.CMD_NOTICE_DROP, P.HLT_FAULT_COUNT, P.HLT_STICKY, P.HST_RXQ_BYTES, P.OBS_OVF, P.PRT_EGQ_BYTES, P.PRT_FLAGS, P.PRT_LINKDOWN_DROP] ++
        [P.PRT_PFC_TX_XOFF, P.PRT_TX_OVERSIZE, P.PRT_TX_STOMP, P.TBS_OVER_LIMIT_COUNT, P.TBS_OVW_SKIP, P.TBS_PTP_SKIP, P.TBS_TRAILER_SKIP])) s t) ∧
  (∀ (port : Fin 512) (underrun parity : Bool) (s : State), s.sendingOn port.val = none →
    exec (.transmitComplete port underrun parity) s = .next s) ∧
  (∀ (port : Fin 512) (part : Bool) (upsets : List QuayUpset) (s : State), s.portUp port.val = true →
    ∃ t : State, exec (.portLinkDown port part upsets) s = .next t ∧ t.portUp port.val = false ∧
      (∀ c ∈ t.quay.copies, ¬ (c.host = none ∧ c.port = port.val)) ∧ (∀ c, t.pausedNow port.val c = false) ∧
      t.rd P.LNK_STATE port.val = 0 ∧ Only (some ([F.cal, F.cmd, F.fabric, F.fault, F.fresh, F.hidden, F.linkRun, F.links] ++
        [F.nhp, F.pad, F.quay, F.refs, F.rings, F.servo, F.txSlots, F.windowAt] ++
        [P.BUF_DF_AGENT, P.BUF_DF_INDEX, P.BUF_DF_POOL, P.BUF_DF_TIME, P.BUF_DOUBLE_FREE, P.BUF_FLAGS, P.BUF_HELD, P.BUF_QUARANTINED] ++
        [P.BUF_SIGNALS, P.CMD_NOTICE_DROP, P.CMD_REFUSED_COUNT, P.HIE_NEIGHBOUR_ID, P.HIE_PORT_STATE, P.HIE_PORT_VERSION, P.HLT_FAULT_COUNT, P.HLT_STICKY] ++
        [P.HST_RXQ_BYTES, P.LNK_BEVT, P.LNK_STATE, P.OBS_OVF, P.OBS_TRACE_DROP, P.OBS_TRACE_HEAD, P.OBS_TRACE_OLDEST, P.PRT_EGQ_BYTES] ++
        [P.PRT_LINKDOWN_DROP, P.PRT_LINK_UP, P.PRT_PFC_TX_XOFF, P.REF_ACTIVE, P.REF_DEV, P.REF_FLAGS, P.REF_HO_C, P.REF_HO_D] ++
        [P.REF_HO_Y0, P.REF_QSTATE, P.REF_SWLOG_HEAD, P.REF_SWLOG_INFO, P.REF_SWLOG_TIME, P.REF_TSTATE, P.TBS_BOUND_NOW, P.TBS_BOUND_PS] ++
        [P.TBS_DOM_SELECTED, P.TBS_OVER_LIMIT_COUNT])) s t) ∧
  ∀ (port : Fin 512) (part : Bool) (upsets : List QuayUpset) (s : State), s.portUp port.val = false →
    exec (.portLinkDown port part upsets) s = .next (upsets.foldl State.upset s)

/-- A due lock copy that no cause makes late is launched and counted in LCK_RELEASES with the stamp of the permitted start position
nearest its aim; during a core switch-over it is put off by 16 ns once and counted in LCK_SWITCH_DELAY; one that a cause makes
late is counted by its cause and, under ABANDON, is gone. The head of a queue past its hold limit is abandoned and counted. Where
nothing is due nothing changes. Clauses that go beyond the cited rules are the model's choices: log entry 60. Completion: under
conditions on the state and the operands alone, as its clauses write them, exec answers a next state with the named effect for
copyLaunch and copyAbandon. -/
def Obligations.LockCopiesLaunchOnTime : Prop :=
  (∀ (port : Fin 512) (pos : Int) (s : State) (c : Copy) (k : LockCopy) (f : Frame), s.portUp port.val = true →
    s.rd P.OBS_FROZEN = 0 → s.dueCopy port.val = some c → s.frame c.frame = some f → c.lock = some k → k.late = none →
    k.deferred = false → s.inGap = false → s.lateCause port.val c k f = none → f.size ≤ s.rd P.PRT_MAX_FRAME port.val →
    ∃ t : State, exec (.copyLaunch port pos) s = .next t ∧
      t.quay.sending = s.quay.sending ++ [⟨port.val, c.id, s.stampOf (nearestPosition pos k.aim (s.startGrid port.val))
        (s.bPort port.val) (s.bEvt port.val) (!s.lockedPort port.val)⟩] ∧
      t.rd P.LCK_RELEASES port.val = (s.rd P.LCK_RELEASES port.val + 1) % 2 ^ 48 ∧ Only (some ([F.cmd, F.fabric, F.fault, F.hidden, F.log, F.pad, F.quay, F.rings] ++
        [F.txSlots, F.windowAt, P.BUF_DF_AGENT, P.BUF_DF_INDEX, P.BUF_DF_POOL, P.BUF_DF_TIME, P.BUF_DOUBLE_FREE, P.BUF_FLAGS] ++
        [P.BUF_HELD, P.BUF_QUARANTINED, P.BUF_SIGNALS, P.CMD_NOTICE_DROP, P.HLT_FAULT_COUNT, P.HLT_STICKY, P.HST_RXQ_BYTES, P.LCK_COPY_ABANDON] ++
        [P.LCK_FLAGS, P.LCK_LATE, P.LCK_LATE_CAUSE, P.LCK_RELEASES, P.LCK_SWITCH_DELAY, P.LOG_FLAGS, P.LOG_HOLD_ACTIVE, P.LOG_MARK_LOST] ++
        [P.LOG_RECORDS, P.LOG_SPILL_PEAK, P.LOG_SPILL_USED, P.OBS_OVF, P.OBS_TRACE_DROP, P.OBS_TRACE_HEAD, P.OBS_TRACE_OLDEST, P.PRT_EGQ_BYTES] ++
        [P.PRT_LINKDOWN_DROP, P.PRT_PFC_TX_XOFF, P.PRT_TX_OVERSIZE, P.TBS_OVER_LIMIT_COUNT])) s t) ∧
  (∀ (pos aim : Int) (g : Nat), 0 < g → (nearestPosition pos aim g - pos) % g = 0 ∧ 2 * (nearestPosition pos aim g - aim).natAbs ≤ g) ∧
  (∀ (port : Fin 512) (pos : Int) (s : State) (c : Copy) (k : LockCopy) (f : Frame), s.portUp port.val = true →
    s.rd P.OBS_FROZEN = 0 → s.dueCopy port.val = some c → s.frame c.frame = some f → c.lock = some k → k.late = none →
    k.deferred = false → s.inGap = true →
    ∃ t : State, exec (.copyLaunch port pos) s = .next t ∧ t.quay.sending = s.quay.sending ∧
      t.rd P.LCK_SWITCH_DELAY port.val = (s.rd P.LCK_SWITCH_DELAY port.val + 1) % 2 ^ 48 ∧ (t.rd P.LCK_FLAGS).testBit 2 = true ∧
      (∃ y ∈ t.quay.copies, y.id = c.id ∧ y.lock = some { k with launch := k.launch + 16000, aim := k.aim + 16000, deferred := true }) ∧
      Only (some ([F.cmd, F.fabric, F.fault, F.hidden, F.log, F.pad, F.quay, F.rings] ++
        [F.txSlots, F.windowAt, P.BUF_DF_AGENT, P.BUF_DF_INDEX, P.BUF_DF_POOL, P.BUF_DF_TIME, P.BUF_DOUBLE_FREE, P.BUF_FLAGS] ++
        [P.BUF_HELD, P.BUF_QUARANTINED, P.BUF_SIGNALS, P.CMD_NOTICE_DROP, P.HLT_FAULT_COUNT, P.HLT_STICKY, P.HST_RXQ_BYTES, P.LCK_COPY_ABANDON] ++
        [P.LCK_FLAGS, P.LCK_LATE, P.LCK_LATE_CAUSE, P.LCK_RELEASES, P.LCK_SWITCH_DELAY, P.LOG_FLAGS, P.LOG_HOLD_ACTIVE, P.LOG_MARK_LOST] ++
        [P.LOG_RECORDS, P.LOG_SPILL_PEAK, P.LOG_SPILL_USED, P.OBS_OVF, P.OBS_TRACE_DROP, P.OBS_TRACE_HEAD, P.OBS_TRACE_OLDEST, P.PRT_EGQ_BYTES] ++
        [P.PRT_LINKDOWN_DROP, P.PRT_PFC_TX_XOFF, P.PRT_TX_OVERSIZE, P.TBS_OVER_LIMIT_COUNT])) s t) ∧
  (∀ (port : Fin 512) (pos : Int) (s : State) (c : Copy) (k : LockCopy) (f : Frame) (cause : Nat), s.portUp port.val = true →
    s.rd P.OBS_FROZEN = 0 → s.dueCopy port.val = some c → s.frame c.frame = some f → c.lock = some k → k.late = none →
    s.inGap = false → s.lateCause port.val c k f = some cause →
    ∃ t : State, exec (.copyLaunch port pos) s = .next t ∧ t.rd P.LCK_LATE port.val = (s.rd P.LCK_LATE port.val + 1) % 2 ^ 48 ∧
      t.rd P.LCK_LATE_CAUSE cause = (s.rd P.LCK_LATE_CAUSE cause + 1) % 2 ^ 48 ∧ (t.rd P.LCK_FLAGS).testBit 1 = true ∧
      (k.abandon = true → ∀ y ∈ t.quay.copies, y.id ≠ c.id) ∧ (k.abandon = false → t.quay.sending = s.quay.sending) ∧
      Only (some ([F.cmd, F.fabric, F.fault, F.hidden, F.log, F.pad, F.quay, F.rings] ++
        [F.txSlots, F.windowAt, P.BUF_DF_AGENT, P.BUF_DF_INDEX, P.BUF_DF_POOL, P.BUF_DF_TIME, P.BUF_DOUBLE_FREE, P.BUF_FLAGS] ++
        [P.BUF_HELD, P.BUF_QUARANTINED, P.BUF_SIGNALS, P.CMD_NOTICE_DROP, P.HLT_FAULT_COUNT, P.HLT_STICKY, P.HST_RXQ_BYTES, P.LCK_COPY_ABANDON] ++
        [P.LCK_FLAGS, P.LCK_LATE, P.LCK_LATE_CAUSE, P.LCK_RELEASES, P.LCK_SWITCH_DELAY, P.LOG_FLAGS, P.LOG_HOLD_ACTIVE, P.LOG_MARK_LOST] ++
        [P.LOG_RECORDS, P.LOG_SPILL_PEAK, P.LOG_SPILL_USED, P.OBS_OVF, P.OBS_TRACE_DROP, P.OBS_TRACE_HEAD, P.OBS_TRACE_OLDEST, P.PRT_EGQ_BYTES] ++
        [P.PRT_LINKDOWN_DROP, P.PRT_PFC_TX_XOFF, P.PRT_TX_OVERSIZE, P.TBS_OVER_LIMIT_COUNT])) s t) ∧
  (∀ (port : Fin 512) (pos : Int) (s : State), s.portUp port.val = false ∨ s.dueCopy port.val = none →
    exec (.copyLaunch port pos) s = .next s) ∧
  (∀ (port : Fin 512) (queue : Fin 9) (s : State) (c : Copy),
    (if queue.val = 8 then s.releaseHead port.val else (s.classQueue port.val queue.val).head?) = some c → s.overHold c = true →
    s.rd P.OBS_FROZEN = 0 →
    ∃ t : State, exec (.copyAbandon port queue) s = .next t ∧ (∀ y ∈ t.quay.copies, y.id ≠ c.id) ∧
      t.rd P.LCK_COPY_ABANDON port.val = (s.rd P.LCK_COPY_ABANDON port.val + 1) % 2 ^ 48 ∧ Only (some ([F.cmd, F.fabric, F.fault, F.hidden, F.log, F.pad, F.quay, F.rings] ++
        [F.txSlots, F.windowAt, P.BUF_DF_AGENT, P.BUF_DF_INDEX, P.BUF_DF_POOL, P.BUF_DF_TIME, P.BUF_DOUBLE_FREE, P.BUF_FLAGS] ++
        [P.BUF_HELD, P.BUF_QUARANTINED, P.BUF_SIGNALS, P.CMD_NOTICE_DROP, P.HLT_FAULT_COUNT, P.HLT_STICKY, P.HST_RXQ_BYTES, P.LCK_COPY_ABANDON] ++
        [P.LOG_FLAGS, P.LOG_HOLD_ACTIVE, P.LOG_MARK_LOST, P.LOG_RECORDS, P.LOG_SPILL_PEAK, P.LOG_SPILL_USED, P.OBS_OVF, P.OBS_TRACE_DROP] ++
        [P.OBS_TRACE_HEAD, P.OBS_TRACE_OLDEST, P.PRT_EGQ_BYTES, P.PRT_LINKDOWN_DROP, P.PRT_PFC_TX_XOFF, P.TBS_OVER_LIMIT_COUNT])) s t) ∧
  ∀ (port : Fin 512) (queue : Fin 9) (s : State),
    (∀ c, (if queue.val = 8 then s.releaseHead port.val else (s.classQueue port.val queue.val).head?) = some c → s.overHold c = false) →
    exec (.copyAbandon port queue) s = .next s

/-- A gate change puts the gates of the port's operational table in force, all open where the table is empty; a swap whose instant has
come (for one armed too late, its cycle start after it was written, with the flag of a late swap) exchanges the port's
administrative and operational entries, cycle, base and count and raises SYS_CONFIG_GEN, and the end of the copy leaves both banks
equal and the port idle or armed again. Earlier nothing changes. Clauses that go beyond the cited rules are the model's choices:
log entry 61. Completion: under conditions on the state and the operands alone, as its clauses write them, exec answers a next
state with the named effect for gateChange, bankSwap and bankCopyDone. -/
def Obligations.SlotTablesGateAndSwap : Prop :=
  (∀ (port : Fin 512) (s : State),
    ∃ t : State, exec (.gateChange port) s = .next t ∧ t.gatesNow port.val = s.gatesDue port.val ∧
      (s.rd P.LCK_OPR_COUNT port.val = 0 → t.gatesNow port.val = 255) ∧
      (∀ p, p ≠ port.val → t.gatesNow p = s.gatesNow p) ∧ Only (some [F.lock]) s t) ∧
  (∀ (port : Fin 512) (s : State) (due : Nat), s.rd P.LCK_SWAP_STATE port.val = 1 →
    due = (match s.lock.late.find? fun k => k.1 == port.val with | some k => k.2 | none => s.rd P.LCK_SWAP_TIME port.val) →
    s.cycleStart port.val due ≤ s.modNs →
    (∀ e ∈ s.lock.adm, look e.1 0 s.lock.adm = e.2) → (∀ e ∈ s.lock.opr, look e.1 0 s.lock.opr = e.2) →
    ∃ t : State, exec (.bankSwap port) s = .next t ∧
      (∀ i, t.oprEntry port.val i = s.admEntry port.val i ∧ t.admEntry port.val i = s.oprEntry port.val i) ∧
      t.rd P.LCK_OPR_CYCLE port.val = s.rd P.LCK_ADM_CYCLE port.val ∧ t.rd P.LCK_ADM_CYCLE port.val = s.rd P.LCK_OPR_CYCLE port.val ∧
      t.rd P.LCK_OPR_BASE port.val = s.rd P.LCK_ADM_BASE port.val ∧ t.rd P.LCK_ADM_BASE port.val = s.rd P.LCK_OPR_BASE port.val ∧
      t.rd P.LCK_OPR_COUNT port.val = s.rd P.LCK_ADM_COUNT port.val ∧ t.rd P.LCK_ADM_COUNT port.val = s.rd P.LCK_OPR_COUNT port.val ∧
      t.rd P.LCK_SWAP_TIME port.val = 0 ∧ t.rd P.LCK_SWAP_STATE port.val = 2 ∧
      t.rd P.SYS_CONFIG_GEN = (s.rd P.SYS_CONFIG_GEN + 1) % 2 ^ 32 ∧
      ((s.lock.late.find? fun k => k.1 == port.val).isSome = true → (t.rd P.LCK_FLAGS).testBit 0 = true) ∧
      (∀ p i, p ≠ port.val → t.oprEntry p i = s.oprEntry p i ∧ t.admEntry p i = s.admEntry p i) ∧ Only (some [F.cmd, F.lock, F.params, F.rings]) s t) ∧
  (∀ (port : Fin 512) (s : State) (due : Nat),
    due = (match s.lock.late.find? fun k => k.1 == port.val with | some k => k.2 | none => s.rd P.LCK_SWAP_TIME port.val) →
    s.rd P.LCK_SWAP_STATE port.val ≠ 1 ∨ s.modNs < s.cycleStart port.val due → exec (.bankSwap port) s = .next s) ∧
  (∀ (port : Fin 512) (s : State), s.rd P.LCK_SWAP_STATE port.val = 2 → (∀ h ∈ s.lock.held, h.2.1 ≠ port.val) →
    (∀ e ∈ s.lock.opr, look e.1 0 s.lock.opr = e.2) →
    ∃ t : State, exec (.bankCopyDone port) s = .next t ∧ (∀ i, t.admEntry port.val i = s.oprEntry port.val i) ∧
      t.lock.opr = s.lock.opr ∧ t.rd P.LCK_ADM_CYCLE port.val = s.rd P.LCK_OPR_CYCLE port.val ∧
      t.rd P.LCK_ADM_BASE port.val = s.rd P.LCK_OPR_BASE port.val ∧ t.rd P.LCK_ADM_COUNT port.val = s.rd P.LCK_OPR_COUNT port.val ∧
      t.rd P.LCK_SWAP_STATE port.val = (if s.rd P.LCK_SWAP_TIME port.val = 0 then 0 else 1) ∧ Only (some [F.lock, F.params]) s t) ∧
  ∀ (port : Fin 512) (s : State), s.rd P.LCK_SWAP_STATE port.val ≠ 2 → exec (.bankCopyDone port) s = .next s

/-- At a multiple of the seal interval the one writing channel closes its span with a seal whose hash over the previous hash, the
records and the seal's head becomes the chain head, or counts the merge where there is no room; a multiple is sealed once, and
between two multiples and in shutter mode nothing happens. The oldest waiting seal is signed with the key. A lone spilled item
whose ring has room is written to the ring. A generated key takes the next serial; LOG_KEY_PUBLIC answers the public key, serial
and state. Clauses that go beyond the cited rules are the model's choices: log entry 62. Completion: under conditions on the state
and the operands alone, as its clauses write them, exec answers a next state with the named effect for logSeal, sealSigned,
spillMove, keyGenerated and logKeyPublic. -/
def Obligations.LogbookSealsAndSpills : Prop :=
  (∀ (s : State) (c : Nat), s.rd P.PWR_SHUTTER_STATE = 0 → s.modNs < s.sealInstant + 2 →
    s.log.sealAt ≠ some s.sealInstant → c < 16 →
    (∀ d, d < 16 → (s.chanOn d = true ↔ d = c)) → s.sealRoom c = true → s.frozenMaster 14 = false →
    ∃ t : State, exec .logSeal s = .next t ∧ t.rd P.LOG_SEAL_SEQ c = (s.rd P.LOG_SEAL_SEQ c + 1) % 2 ^ 64 ∧
      (t.chan c).span = [] ∧ (t.chan c).unlogged = 0 ∧ (t.chan c).merged = false ∧
      (t.chan c).head = some (sha256 ((s.chan c).head.getD (zeros 32) ++ (s.chan c).span.flatten ++ s.sealHead (s.chan c) false (s.sealInstant % 2 ^ 64))) ∧
      t.log.sealEvery = s.rd P.LOG_SEAL_INTERVAL ∧ t.log.sealAt = some s.sealInstant ∧ Only (some [F.log, F.rings, P.LOG_FLAGS, P.LOG_HOLD_ACTIVE, P.LOG_SEALS_MERGED, P.LOG_SEAL_SEQ, P.LOG_SPILL_PEAK, P.LOG_SPILL_USED]) s t) ∧
  (∀ (s : State) (c : Nat), s.rd P.PWR_SHUTTER_STATE = 0 → s.modNs < s.sealInstant + 2 →
    s.log.sealAt ≠ some s.sealInstant → c < 16 →
    (∀ d, d < 16 → (s.chanOn d = true ↔ d = c)) → s.sealRoom c = false →
    ∃ t : State, exec .logSeal s = .next t ∧ t.rd P.LOG_SEALS_MERGED c = (s.rd P.LOG_SEALS_MERGED c + 1) % 2 ^ 48 ∧
      (t.chan c).merged = true ∧ (t.chan c).head = (s.chan c).head ∧ (t.chan c).span = (s.chan c).span ∧ Only (some [F.log, F.rings, P.LOG_FLAGS, P.LOG_HOLD_ACTIVE, P.LOG_SEALS_MERGED, P.LOG_SEAL_SEQ, P.LOG_SPILL_PEAK, P.LOG_SPILL_USED]) s t) ∧
  (∀ s : State, s.rd P.PWR_SHUTTER_STATE ≠ 0 ∨ s.sealInstant + 2 ≤ s.modNs ∨ s.log.sealAt = some s.sealInstant →
    exec .logSeal s = .next s) ∧
  (∀ (s : State) (id : Nat) (inp k : List Byte) (rest : List (Nat × List Byte)), s.log.signs = (id, inp) :: rest →
    s.log.key = some k →
    ∃ t : State, exec .sealSigned s = .next t ∧ (∀ y ∈ t.log.signs, y.1 ≠ id) ∧
      (∀ i ∈ s.log.spill, i.signing = some id →
        (⟨i.chan, patch 128 (edSign k (i.bytes.take 128)) i.bytes, none⟩ : LogItem) ∈ t.log.spill) ∧ Only (some [F.log, F.rings]) s t) ∧
  (∀ s : State, s.log.signs = [] ∨ s.log.key = none → exec .sealSigned s = .next s) ∧
  (∀ (s : State) (i : LogItem) (r : Ring), s.frozenMaster 3 = false → s.frozenMaster 14 = false → s.log.spill = [i] →
    s.logRoom (128 + s.rd P.LOG_RING i.chan) i.slots = true → s.ring (128 + s.rd P.LOG_RING i.chan) = some r → i.signing = none →
    1 ≤ i.slots → s.rd P.LOG_HOLD_ACTIVE = 0 →
    ∃ t : State, exec .spillMove s = .next t ∧ t.log.spill = [] ∧ t.rd P.LOG_SPILL_USED = 0 ∧
      (s.out ++ [.hostWrite (r.slotAddr 32 (advance r.prod (s.stagedSlots (128 + s.rd P.LOG_RING i.chan)))) (i.bytes.take 32)]) <+:
        t.out ∧ Only (some [F.cmd, F.log, F.rings, P.CMD_NOTICE_DROP, P.LOG_FLAGS, P.LOG_HOLD_ACTIVE, P.LOG_HOLD_TIME, P.LOG_RECORDS,
        P.LOG_SPILL_PEAK, P.LOG_SPILL_USED]) s t) ∧
  (∀ s : State, s.frozenMaster 3 = true ∨ s.frozenMaster 14 = true → exec .spillMove s = .next s) ∧
  (∀ s : State, s.rd P.LOG_KEY_STATE = 1 →
    ∃ t : State, exec .keyGenerated s = .next t.settle ∧ t.rd P.LOG_KEY_STATE = 2 ∧
      t.rd P.LOG_KEY_SERIAL = (s.flash.keyCount + 1) % 65536 ∧ t.flash = { s.flash with keyCount := s.flash.keyCount + 1 } ∧
      t.log.key.isSome = true ∧ (∀ o, s.log.keyFor = some o → (s.sessionUid o.uid).isSome = true → t.answered o Status.OK []) ∧
      Only (some [F.cmd, F.flash, F.fresh, F.log, F.rings, P.CMD_REFUSED_COUNT, P.LOG_KEY_SERIAL, P.LOG_KEY_STATE,
        P.TBS_OVER_LIMIT_COUNT]) s t) ∧
  (∀ s : State, s.rd P.LOG_KEY_STATE ≠ 1 → exec .keyGenerated s = .next s.settle) ∧
  ∀ (rq : Request) (s : State) (x : Session), s.taken Op.LOG_KEY_PUBLIC rq x →
    ∃ t : State, exec (.logKeyPublic rq) s = .next t.settle ∧
      t.replied x Op.LOG_KEY_PUBLIC rq Status.OK (match s.log.key with
        | some k => edPublic k ++ toBe 2 (s.rd P.LOG_KEY_SERIAL) ++ toBe 1 (s.rd P.LOG_KEY_STATE) ++ [0]
        | none => zeros 34 ++ toBe 1 (s.rd P.LOG_KEY_STATE) ++ [0]) ∧
      Only (some [F.cmd, F.rings, P.CMD_REFUSED_COUNT, P.TBS_OVER_LIMIT_COUNT]) s t

/-- A reading of a configured reference is shown in REF_FREQ; one beyond the frequency reject limit disqualifies a QUALIFIED reference
and is counted, and a QUALIFIED frequency-only reference inside it stays; with the shared blocks powered, a counted PPS edge makes
activity present and passes an ABSENT reference without a phase test into QUALIFYING where its frequency is inside accept; lost
activity makes a configured reference ABSENT, and where the pins select it while LOCKED, the module falls into holdover with its
bound frozen; the hold-off, the confirmation time and REF_ACCEPT qualify. An edge beyond the phase reject window does not count. A
reference without an input, a timing die without power, and an instant too early, change nothing. Clauses that go beyond the cited
rules are the model's choices: log entries 9, 42. Completion: under conditions on the state and the operands alone, as its clauses
write them, exec answers a next state with the named effect for monitorReading, refPpsEdge, refFreqAbsent, activityLost,
holdoffExpiry, confirmExpiry and refAccept. -/
def Obligations.ReferenceMonitorsJudge : Prop :=
  (∀ (r : Fin 7) (freq phi osc : Int) (s : State), s.qstate r.val ≠ 6 → s.sharedUp = true →
    ∃ t : State, exec (.monitorReading r freq phi osc) s = .next t ∧ t.rdS 32 P.REF_FREQ r.val = clampS 32 freq ∧
      (s.qstate r.val = 2 → s.rd P.REF_FREQ_REJECT r.val * 1000 < (clampS 32 freq).natAbs →
        t.qstate r.val = 5 ∧ t.rd P.REF_DISQ_COUNT r.val = (s.rd P.REF_DISQ_COUNT r.val + 1) % 2 ^ 48) ∧
      (s.qstate r.val = 2 → (clampS 32 freq).natAbs ≤ s.rd P.REF_FREQ_REJECT r.val * 1000 → s.rd P.REF_KIND r.val ≠ 1 →
        t.qstate r.val = 2) ∧ Only (some ([F.cmd, F.fault, F.fresh, F.refs, F.rings, F.servo, F.time, P.CMD_NOTICE_DROP] ++
        [P.HLT_FAULT_COUNT, P.HLT_STICKY, P.REF_ACTIVE, P.REF_DEV, P.REF_DISQ_COUNT, P.REF_FLAGS, P.REF_FREQ, P.REF_HO_C] ++
        [P.REF_HO_CU, P.REF_HO_D, P.REF_HO_DU, P.REF_HO_LEARNED, P.REF_HO_TMEAN, P.REF_HO_Y0, P.REF_HO_YU, P.REF_PHASE] ++
        [P.REF_QSTATE, P.REF_SWLOG_HEAD, P.REF_SWLOG_INFO, P.REF_SWLOG_TIME, P.REF_TSTATE, P.TBS_BOUND_NOW, P.TBS_BOUND_PS, P.TBS_DOM_SELECTED])) s t) ∧
  (∀ (r : Fin 7) (freq phi osc : Int) (s : State), s.qstate r.val = 6 ∨ s.sharedUp = false →
    exec (.monitorReading r freq phi osc) s = .next s) ∧
  (∀ (r : Fin 2) (phi osc : Int) (s : State), s.qstate (r.val + 1) ≠ 6 → s.rd P.REF_EXT_MODE r.val ≠ 2 →
    (s.mon (r.val + 1)).anchor = none → 8 ≤ s.refs.length → s.sharedUp = true →
    ∃ t : State, exec (.refPpsEdge r phi osc) s = .next t ∧ (t.mon (r.val + 1)).pps = true ∧
      (t.mon (r.val + 1)).lastGood = s.clock ∧
      (s.qstate (r.val + 1) = 0 → s.rd P.REF_EXT_MODE r.val = 1 → s.freqInside (r.val + 1) = true → s.rd P.REF_KIND (r.val + 1) = 2 →
        t.qstate (r.val + 1) = 1) ∧ Only (some [F.refs, F.servo, P.REF_DEV, P.REF_FLAGS, P.REF_PHASE, P.REF_QSTATE]) s t) ∧
  (∀ (r : Fin 2) (phi osc : Int) (s : State), (s.qstate (r.val + 1) = 6 ∨ s.rd P.REF_EXT_MODE r.val = 2 ∨ s.sharedUp = false ∨
      ∃ a, (s.mon (r.val + 1)).anchor = some a ∧ s.rd P.REF_PH_REJECT (r.val + 1) < (phi + osc - s.servo.mOff - a).natAbs) →
    exec (.refPpsEdge r phi osc) s = .next s) ∧
  (∀ (r : Fin 2) (s : State), s.rd P.REF_EXT_MODE r.val ≠ 1 →
    ∃ t : State, exec (.refFreqAbsent r) s = .next t ∧ t.qstate (r.val + 1) = (if s.qstate (r.val + 1) = 6 then 6 else 0) ∧
      Only (some [F.cmd, F.fault, F.fresh, F.refs, F.rings, F.servo, P.CMD_NOTICE_DROP, P.HLT_FAULT_COUNT,
        P.HLT_STICKY, P.REF_ACTIVE, P.REF_DEV, P.REF_FLAGS, P.REF_HO_C, P.REF_HO_D, P.REF_HO_Y0, P.REF_QSTATE,
        P.REF_SWLOG_HEAD, P.REF_SWLOG_INFO, P.REF_SWLOG_TIME, P.REF_TSTATE, P.TBS_BOUND_NOW, P.TBS_BOUND_PS, P.TBS_DOM_SELECTED]) s t) ∧
  (∀ (r : Fin 7) (s : State), ((3 ≤ r.val ∧ s.refPresent r.val = false) ∨
      ((r.val = 1 ∨ r.val = 2) ∧ s.rd P.REF_EXT_MODE (r.val - 1) = 2 ∧ (s.mon r.val).mhz = false) ∨
      (r.val < 3 ∧ (r.val = 0 ∨ s.rd P.REF_EXT_MODE (r.val - 1) ≠ 2) ∧ s.missDue r.val ≤ s.clock)) →
    ∃ t : State, exec (.activityLost r) s = .next t ∧ t.qstate r.val = (if s.qstate r.val = 6 then 6 else 0) ∧
      (s.qstate r.val = 2 → s.rd P.REF_TSTATE = 2 → s.rd P.REF_ACTIVE = r.val → s.rd P.REF_PINS = r.val →
        (t.rd P.REF_TSTATE = 4 ∨ t.rd P.REF_TSTATE = 5) ∧ t.rd P.REF_ACTIVE = 8 ∧
        t.servo.frozen = (if s.frozenBref r.val = noBound then none else some (s.frozenBref r.val))) ∧
      Only (some [F.cmd, F.fault, F.fresh, F.refs, F.rings, F.servo, P.CMD_NOTICE_DROP, P.HLT_FAULT_COUNT,
        P.HLT_STICKY, P.REF_ACTIVE, P.REF_DEV, P.REF_FLAGS, P.REF_HO_C, P.REF_HO_D, P.REF_HO_Y0, P.REF_QSTATE,
        P.REF_SWLOG_HEAD, P.REF_SWLOG_INFO, P.REF_SWLOG_TIME, P.REF_TSTATE, P.TBS_BOUND_NOW, P.TBS_BOUND_PS, P.TBS_DOM_SELECTED]) s t) ∧
  (∀ (r : Fin 7) (s : State), ((3 ≤ r.val ∧ s.refPresent r.val = true) ∨
      ((r.val = 1 ∨ r.val = 2) ∧ s.rd P.REF_EXT_MODE (r.val - 1) = 2 ∧ (s.mon r.val).mhz = true) ∨
      (r.val < 3 ∧ (r.val = 0 ∨ s.rd P.REF_EXT_MODE (r.val - 1) ≠ 2) ∧ s.clock < s.missDue r.val)) →
    exec (.activityLost r) s = .next s) ∧
  (∀ (r : Fin 7) (s : State), s.qstate r.val = 1 → (s.mon r.val).since + s.rd P.REF_HOLDOFF r.val * 100000000 ≤ s.clock →
    ∃ t : State, exec (.holdoffExpiry r) s = .next t ∧ t.qstate r.val = 2 ∧ Only (some [F.cmd, F.fault, F.fresh, F.refs, F.rings, F.servo, P.CMD_NOTICE_DROP, P.HLT_FAULT_COUNT,
        P.HLT_STICKY, P.REF_ACTIVE, P.REF_DEV, P.REF_FLAGS, P.REF_HO_C, P.REF_HO_D, P.REF_HO_Y0, P.REF_QSTATE,
        P.REF_SWLOG_HEAD, P.REF_SWLOG_INFO, P.REF_SWLOG_TIME, P.REF_TSTATE, P.TBS_BOUND_NOW, P.TBS_BOUND_PS, P.TBS_DOM_SELECTED]) s t) ∧
  (∀ (r : Fin 7) (s : State), s.qstate r.val ≠ 1 ∨ s.clock < (s.mon r.val).since + s.rd P.REF_HOLDOFF r.val * 100000000 →
    exec (.holdoffExpiry r) s = .next s) ∧
  (∀ (r : Fin 7) (s : State), (s.qstate r.val = 3 ∨ (s.qstate r.val = 5 ∧ s.entryTest r.val = 0)) →
    (s.mon r.val).since + max (s.rd P.REF_CONFIRM_TIME * 1000000000) (s.rd P.REF_HOLDOFF r.val * 100000000) ≤ s.clock →
    ∃ t : State, exec (.confirmExpiry r) s = .next t ∧ t.qstate r.val = (if s.qstate r.val = 3 then 2 else 1) ∧
      Only (some [F.cmd, F.fault, F.fresh, F.refs, F.rings, F.servo, P.CMD_NOTICE_DROP, P.HLT_FAULT_COUNT,
        P.HLT_STICKY, P.REF_ACTIVE, P.REF_DEV, P.REF_FLAGS, P.REF_HO_C, P.REF_HO_D, P.REF_HO_Y0, P.REF_QSTATE,
        P.REF_SWLOG_HEAD, P.REF_SWLOG_INFO, P.REF_SWLOG_TIME, P.REF_TSTATE, P.TBS_BOUND_NOW, P.TBS_BOUND_PS, P.TBS_DOM_SELECTED]) s t) ∧
  (∀ (r : Fin 7) (s : State), (s.qstate r.val ≠ 3 ∧ s.qstate r.val ≠ 5) ∨
      s.clock < (s.mon r.val).since + s.rd P.REF_CONFIRM_TIME * 1000000000 → exec (.confirmExpiry r) s = .next s) ∧
  (∀ (rq : Request) (s : State) (x : Session), s.taken Op.REF_ACCEPT rq x → beAt 0 1 rq.payload < 7 →
    s.qstate (beAt 0 1 rq.payload) = 4 →
    ∃ t : State, exec (.refAccept rq) s = .next t.settle ∧ t.qstate (beAt 0 1 rq.payload) = 2 ∧
      t.replied x Op.REF_ACCEPT rq Status.OK [] ∧ Only (some ([F.cmd, F.fault, F.fresh, F.refs, F.rings, F.servo, P.CMD_NOTICE_DROP, P.CMD_REFUSED_COUNT] ++
        [P.HLT_FAULT_COUNT, P.HLT_STICKY, P.REF_ACTIVE, P.REF_DEV, P.REF_FLAGS, P.REF_HO_C, P.REF_HO_D, P.REF_HO_Y0] ++
        [P.REF_QSTATE, P.REF_SWLOG_HEAD, P.REF_SWLOG_INFO, P.REF_SWLOG_TIME, P.REF_TSTATE, P.TBS_BOUND_NOW, P.TBS_BOUND_PS, P.TBS_DOM_SELECTED] ++
        [P.TBS_OVER_LIMIT_COUNT])) s t) ∧
  ∀ (rq : Request) (s : State) (x : Session), s.taken Op.REF_ACCEPT rq x →
    (beAt 0 1 rq.payload ≥ 7 ∨ s.qstate (beAt 0 1 rq.payload) ≠ 4) →
    ∃ t : State, exec (.refAccept rq) s = .next t.settle ∧
      t.replied x Op.REF_ACCEPT rq (if 7 < beAt 0 1 rq.payload then Status.BAD_VALUE else Status.NOT_FOUND) [] ∧
      Only (some [F.cmd, F.rings, P.CMD_REFUSED_COUNT, P.TBS_OVER_LIMIT_COUNT]) s t

/-- A new pin value is taken: in FREERUN a qualified reference it names is acquired, with one switch event unless the change is one of
several that a command gathers into one, in LOCKED another time reference it names is pulled to with the bound of the one left
frozen, and one that is not qualified leaves the module in holdover; the WTR timer's end pulls to the better reference, and to
none where it is no longer the better one; a pull that has come down to REF_PULL_DONE is LOCKED with the active deviation 0; a
phase window spent inside accept aligns M and the next window starts. Earlier nothing happens. Clauses that go beyond the cited
rules are the model's choices: log entries 9, 38, 42, 43. Completion: under conditions on the state and the operands alone, as its
clauses write them, exec answers a next state with the named effect for refselChange, wtrExpiry, pullEnd and phWindowEnd. -/
def Obligations.TrackingStateFollowsSelection : Prop :=
  (∀ (pins : Fin 8) (s : State), s.rd P.REF_TSTATE = 0 → pins.val < 7 → s.qstate pins.val = 2 →
    ∃ t : State, exec (.refselChange pins) s = .next t ∧ t.rd P.REF_PINS = pins.val ∧ t.rd P.REF_TSTATE = 1 ∧
      t.rd P.REF_ACTIVE = pins.val ∧ t.servo.acqSince = s.clock ∧
      (s.servo.batch = none → t.rd P.REF_SWLOG_HEAD = (s.rd P.REF_SWLOG_HEAD + 1) % 64) ∧ Only (some [F.cmd, F.fault, F.fresh, F.rings, F.servo, P.CMD_NOTICE_DROP, P.HLT_FAULT_COUNT, P.HLT_STICKY,
        P.REF_ACTIVE, P.REF_FLAGS, P.REF_HO_C, P.REF_HO_D, P.REF_HO_Y0, P.REF_PINS, P.REF_SWLOG_HEAD, P.REF_SWLOG_INFO,
        P.REF_SWLOG_TIME, P.REF_TSTATE, P.TBS_BOUND_NOW, P.TBS_BOUND_PS, P.TBS_DOM_SELECTED]) s t) ∧
  (∀ (pins : Fin 8) (s : State), s.rd P.REF_TSTATE = 2 → pins.val < 7 → s.qstate pins.val = 2 → s.rd P.REF_KIND pins.val = 1 →
    s.rd P.REF_ACTIVE ≠ pins.val →
    ∃ t : State, exec (.refselChange pins) s = .next t ∧ t.rd P.REF_PINS = pins.val ∧ t.rd P.REF_TSTATE = 3 ∧
      t.rd P.REF_ACTIVE = pins.val ∧
      t.servo.frozen = (if s.frozenBref (s.rd P.REF_ACTIVE) = noBound then none else some (s.frozenBref (s.rd P.REF_ACTIVE))) ∧
      t.servo.phi = s.rdS 64 P.REF_PHASE pins.val * 10000000 ∧ Only (some [F.cmd, F.fault, F.fresh, F.rings, F.servo, P.CMD_NOTICE_DROP, P.HLT_FAULT_COUNT, P.HLT_STICKY,
        P.REF_ACTIVE, P.REF_FLAGS, P.REF_HO_C, P.REF_HO_D, P.REF_HO_Y0, P.REF_PINS, P.REF_SWLOG_HEAD, P.REF_SWLOG_INFO,
        P.REF_SWLOG_TIME, P.REF_TSTATE, P.TBS_BOUND_NOW, P.TBS_BOUND_PS, P.TBS_DOM_SELECTED]) s t) ∧
  (∀ (pins : Fin 8) (s : State), s.rd P.REF_TSTATE = 2 → pins.val < 7 → s.qstate pins.val ≠ 2 →
    ∃ t : State, exec (.refselChange pins) s = .next t ∧ t.rd P.REF_PINS = pins.val ∧
      (t.rd P.REF_TSTATE = 4 ∨ t.rd P.REF_TSTATE = 5) ∧ t.rd P.REF_ACTIVE = 8 ∧ (t.rd P.REF_FLAGS).testBit 4 = true ∧
      Only (some [F.cmd, F.fault, F.fresh, F.rings, F.servo, P.CMD_NOTICE_DROP, P.HLT_FAULT_COUNT, P.HLT_STICKY,
        P.REF_ACTIVE, P.REF_FLAGS, P.REF_HO_C, P.REF_HO_D, P.REF_HO_Y0, P.REF_PINS, P.REF_SWLOG_HEAD, P.REF_SWLOG_INFO,
        P.REF_SWLOG_TIME, P.REF_TSTATE, P.TBS_BOUND_NOW, P.TBS_BOUND_PS, P.TBS_DOM_SELECTED]) s t) ∧
  (∀ (s : State) (r since : Nat), s.servo.wtr = some (r, since) → s.rd P.REF_TSTATE = 2 → s.rd P.REF_PINS = 7 →
    since + s.rd P.REF_WTR * 1000000000 ≤ s.clock → s.autoChoice = some r → s.ranksAbove r (s.rd P.REF_ACTIVE) = true →
    ∃ t : State, exec .wtrExpiry s = .next t ∧ t.rd P.REF_TSTATE = 3 ∧ t.rd P.REF_ACTIVE = r ∧ t.servo.lossAt = s.clock ∧
      t.servo.wtr = none ∧ Only (some [F.cmd, F.fault, F.rings, F.servo, P.CMD_NOTICE_DROP, P.HLT_FAULT_COUNT, P.HLT_STICKY, P.REF_ACTIVE,
        P.REF_FLAGS, P.REF_SWLOG_HEAD, P.REF_SWLOG_INFO, P.REF_SWLOG_TIME, P.REF_TSTATE, P.TBS_BOUND_NOW, P.TBS_BOUND_PS, P.TBS_DOM_SELECTED]) s t) ∧
  (∀ (s : State) (r since : Nat), s.servo.wtr = some (r, since) → s.rd P.REF_TSTATE = 2 → s.rd P.REF_PINS = 7 →
    since + s.rd P.REF_WTR * 1000000000 ≤ s.clock → s.autoChoice ≠ some r ∨ s.ranksAbove r (s.rd P.REF_ACTIVE) = false →
    ∃ t : State, exec .wtrExpiry s = .next t ∧ t.servo.wtr ≠ some (r, since) ∧ Only (some [F.servo]) s t) ∧
  (∀ s : State, s.rd P.REF_TSTATE ≠ 2 ∨ s.rd P.REF_PINS ≠ 7 ∨
      (∀ r since, s.servo.wtr = some (r, since) → s.clock < since + s.rd P.REF_WTR * 1000000000) → exec .wtrExpiry s = .next s) ∧
  (∀ s : State, s.rd P.REF_TSTATE = 3 → s.phiUnits.natAbs ≤ s.rd P.REF_PULL_DONE * 10000000 →
    ∃ t : State, exec .pullEnd s = .next t ∧ t.rd P.REF_TSTATE = 2 ∧ t.rd P.REF_ACTIVE = s.rd P.REF_ACTIVE ∧
      t.rd P.REF_DEV (s.rd P.REF_ACTIVE) = 0 ∧ Only (some [F.cmd, F.fault, F.refs, F.rings, F.servo, P.CMD_NOTICE_DROP, P.HLT_FAULT_COUNT, P.HLT_STICKY,
        P.REF_ACTIVE, P.REF_DEV, P.REF_FLAGS, P.REF_SWLOG_HEAD, P.REF_SWLOG_INFO, P.REF_SWLOG_TIME, P.REF_TSTATE, P.TBS_BOUND_NOW,
        P.TBS_BOUND_PS, P.TBS_DOM_SELECTED]) s t) ∧
  (∀ s : State, s.rd P.REF_TSTATE ≠ 3 ∨ s.rd P.REF_PULL_DONE * 10000000 < s.phiUnits.natAbs → exec .pullEnd s = .next s) ∧
  (∀ s : State, s.rd P.REF_TSTATE = 2 → s.servo.winSince + s.rd P.REF_PH_WINDOW * 1000000000 ≤ s.clock →
    ∃ t : State, exec .phWindowEnd s = .next t ∧ t.servo.winSince = s.clock ∧ t.servo.winGood = true ∧
      (s.servo.winGood = true → t.rd P.REF_DEV (s.rd P.REF_ACTIVE) = 0 ∧ t.servo.mOff = s.servo.modOsc) ∧
      (s.servo.winGood = false → t.servo.mOff = s.servo.mOff ∧ t.refs = s.refs) ∧ Only (some [F.refs, F.servo, P.REF_DEV]) s t) ∧
  ∀ s : State, s.rd P.REF_TSTATE ≠ 2 ∨ s.clock < s.servo.winSince + s.rd P.REF_PH_WINDOW * 1000000000 →
    exec .phWindowEnd s = .next s

/-- A pending set of the seconds is made at the next rollover in FREERUN, on the output stage and both cores, and discarded in any
other TSTATE; the first lock of ACQUIRE on a time reference steps module time to the reference and makes the module LOCKED, on a
frequency-only one UNTRACEABLE without a step; an announced leap second moves the UTC offset by 1 and clears the announcement. A
bound update publishes B_ref of the active reference in LOCKED, no bound in FREERUN, ACQUIRE, UNTRACEABLE and FAULT, and in
holdover the frozen bound with its growth, which beyond the limit makes HOLDOVER_LATE. Clauses that go beyond the cited rules are
the model's choices: log entries 39, 41. Completion: under conditions on the state and the operands alone, as its clauses write
them, exec answers a next state with the named effect for setSecRollover, acquireLock, leapSecond and boundUpdate. -/
def Obligations.ModuleTimeStepsAndBounds : Prop :=
  (∀ (s : State) (sec : Nat), s.time.setPending = some sec → s.time.out.sec ≠ s.time.setFrom → s.rd P.REF_TSTATE = 0 →
    ∃ t : State, exec .setSecRollover s = .next t ∧ t.time.out = ⟨sec, s.time.out.nano⟩ ∧ t.time.coreA.count = ⟨sec, s.time.out.nano⟩ ∧
      t.time.coreB.count = ⟨sec, s.time.out.nano⟩ ∧ t.time.setPending = none ∧ Only (some [F.lock, F.quay, F.servo, F.time, F.timeOut, P.REF_PHASE]) s t) ∧
  (∀ (s : State) (sec : Nat), s.time.setPending = some sec → s.time.out.sec ≠ s.time.setFrom → s.rd P.REF_TSTATE ≠ 0 →
    ∃ t : State, exec .setSecRollover s = .next t ∧ t.time = { s.time with setPending := none } ∧ Only (some [F.time]) s t) ∧
  (∀ s : State, s.time.setPending = none ∨ s.time.out.sec = s.time.setFrom → exec .setSecRollover s = .next s) ∧
  (∀ (sec : BitVec 48) (nano : Fin 1000000000) (s : State), s.rd P.REF_TSTATE = 1 → s.servo.acqSince + 10000000000 ≤ s.clock →
    s.rd P.REF_KIND (s.rd P.REF_ACTIVE) = 1 →
    ∃ t : State, exec (.acquireLock sec nano) s = .next t ∧ t.time.out = ⟨sec.toNat, nano.val⟩ ∧
      t.time.coreA.count = ⟨sec.toNat, nano.val⟩ ∧ t.time.coreB.count = ⟨sec.toNat, nano.val⟩ ∧ t.rd P.REF_TIME_SET = 1 ∧
      t.rd P.REF_TSTATE = 2 ∧ t.rd P.REF_ACTIVE = s.rd P.REF_ACTIVE ∧ Only (some [F.cmd, F.fault, F.lock, F.quay, F.refs, F.rings, F.servo, F.time,
        F.timeOut, P.CMD_NOTICE_DROP, P.HLT_FAULT_COUNT, P.HLT_STICKY, P.REF_ACTIVE, P.REF_DEV, P.REF_FLAGS, P.REF_PHASE,
        P.REF_SWLOG_HEAD, P.REF_SWLOG_INFO, P.REF_SWLOG_TIME, P.REF_TIME_SET, P.REF_TSTATE, P.TBS_BOUND_NOW, P.TBS_BOUND_PS, P.TBS_DOM_SELECTED]) s t) ∧
  (∀ (sec : BitVec 48) (nano : Fin 1000000000) (s : State), s.rd P.REF_TSTATE = 1 → s.servo.acqSince + 10000000000 ≤ s.clock →
    s.rd P.REF_KIND (s.rd P.REF_ACTIVE) ≠ 1 →
    ∃ t : State, exec (.acquireLock sec nano) s = .next t ∧ t.time = s.time ∧ t.rd P.REF_TSTATE = 6 ∧
      t.rd P.REF_TIME_SET = s.rd P.REF_TIME_SET ∧ Only (some [F.cmd, F.fault, F.lock, F.quay, F.refs, F.rings, F.servo, F.time,
        F.timeOut, P.CMD_NOTICE_DROP, P.HLT_FAULT_COUNT, P.HLT_STICKY, P.REF_ACTIVE, P.REF_DEV, P.REF_FLAGS, P.REF_PHASE,
        P.REF_SWLOG_HEAD, P.REF_SWLOG_INFO, P.REF_SWLOG_TIME, P.REF_TIME_SET, P.REF_TSTATE, P.TBS_BOUND_NOW, P.TBS_BOUND_PS, P.TBS_DOM_SELECTED]) s t) ∧
  (∀ (sec : BitVec 48) (nano : Fin 1000000000) (s : State), s.rd P.REF_TSTATE ≠ 1 ∨ s.clock < s.servo.acqSince + 10000000000 →
    exec (.acquireLock sec nano) s = .next s) ∧
  (∀ (s : State) (l : Nat), s.time.leapAt = some l → l ≤ s.time.out.sec →
    ∃ t : State, exec .leapSecond s = .next t ∧ t.rd P.TBS_LEAP = 0 ∧ t.time = { s.time with leapAt := none } ∧
      t.rd P.TBS_UTC_OFFSET = raw 16 (s.rdS 16 P.TBS_UTC_OFFSET +
        if s.rd P.TBS_LEAP = 1 then 1 else if s.rd P.TBS_LEAP = 2 then -1 else 0) ∧ Only (some [F.shadows, F.time, P.TBS_LEAP, P.TBS_UTC_OFFSET]) s t) ∧
  (∀ s : State, (∀ l, s.time.leapAt = some l → s.time.out.sec < l) → exec .leapSecond s = .next s) ∧
  (∀ (dev : Int) (s : State), s.rd P.REF_TSTATE = 2 → s.rd P.REF_BREF (s.rd P.REF_ACTIVE) ≠ noBound →
    ∃ t : State, exec (.boundUpdate dev) s = .next t ∧ t.rd P.TBS_BOUND_PS = clampU 32 (s.rd P.REF_BREF (s.rd P.REF_ACTIVE)) ∧
      t.rd P.TBS_BOUND_NOW = boundCode (s.rd P.REF_BREF (s.rd P.REF_ACTIVE)) ∧ t.rd P.REF_TSTATE = 2 ∧
      Only (some [F.cmd, F.fault, F.fresh, F.rings, F.servo, P.CMD_NOTICE_DROP, P.HLT_FAULT_COUNT, P.HLT_STICKY,
        P.REF_ACTIVE, P.REF_FLAGS, P.REF_HO_C, P.REF_HO_D, P.REF_HO_Y0, P.REF_SWLOG_HEAD, P.REF_SWLOG_INFO, P.REF_SWLOG_TIME,
        P.REF_TSTATE, P.TBS_BOUND_NOW, P.TBS_BOUND_PS, P.TBS_DOM_SELECTED]) s t) ∧
  (∀ (dev : Int) (s : State), s.rd P.REF_TSTATE ∈ [0, 1, 6, 7] →
    ∃ t : State, exec (.boundUpdate dev) s = .next t ∧ t.rd P.TBS_BOUND_PS = noBound ∧ t.rd P.TBS_BOUND_NOW = 255 ∧
      t.rd P.REF_TSTATE = s.rd P.REF_TSTATE ∧ Only (some [F.cmd, F.fault, F.fresh, F.rings, F.servo, P.CMD_NOTICE_DROP, P.HLT_FAULT_COUNT, P.HLT_STICKY,
        P.REF_ACTIVE, P.REF_FLAGS, P.REF_HO_C, P.REF_HO_D, P.REF_HO_Y0, P.REF_SWLOG_HEAD, P.REF_SWLOG_INFO, P.REF_SWLOG_TIME,
        P.REF_TSTATE, P.TBS_BOUND_NOW, P.TBS_BOUND_PS, P.TBS_DOM_SELECTED]) s t) ∧
  (∀ (dev : Int) (s : State) (b g : Nat), s.rd P.REF_TSTATE = 4 → s.servo.frozen = some b → (∀ r, r < 7 → s.qualified r = false) →
    g = Servo.growth { s.servo with dT := max s.servo.dT dev.natAbs } (s.clock + 1000000) →
    ∃ t : State, exec (.boundUpdate dev) s = .next t ∧ t.rd P.TBS_BOUND_PS = clampU 32 (b + g) ∧
      t.rd P.TBS_BOUND_NOW = boundCode (b + g) ∧
      t.rd P.REF_TSTATE = (if overLimit (boundCode (b + g)) (s.rd P.TBS_BOUND_LIMIT) = true then 5 else 4) ∧
      Only (some [F.cmd, F.fault, F.fresh, F.rings, F.servo, P.CMD_NOTICE_DROP, P.HLT_FAULT_COUNT, P.HLT_STICKY,
        P.REF_ACTIVE, P.REF_FLAGS, P.REF_HO_C, P.REF_HO_D, P.REF_HO_Y0, P.REF_SWLOG_HEAD, P.REF_SWLOG_INFO, P.REF_SWLOG_TIME,
        P.REF_TSTATE, P.TBS_BOUND_NOW, P.TBS_BOUND_PS, P.TBS_DOM_SELECTED]) s t) ∧
  ∀ b c : Nat, b < 2 ^ 31 → b ^ 8 ≤ 2 ^ boundCode b ∧ (b ^ 8 ≤ 2 ^ c → boundCode b ≤ c)

/-- A round of tests of a core that is not OFF writes its five results, its score and the round's values; a failing oven or oscillator
makes it FAILED, raises the core's flag and the sticky fault, and on the active core starts the switch-over to a STANDBY core with
a sufficient score or else makes TSTATE FAULT with no switch-over; a warm oven makes a WARMING core follow the active one. A
missing edge of the active core and a parity error are such faults too. A missing edge in a gap fails the core to take over and
ends the gap: the requests that waited are answered NOT_READY while the former core is ACTIVE, and TSTATE is FAULT otherwise. A
following core takes module time with its PEER error as its count. An OFF core runs no test, and with no core driving an edge
cannot be missed. Clauses that go beyond the cited rules are the model's choices: log entry 44. Completion: under conditions on
the state and the operands alone, as its clauses write them, exec answers a next state with the named effect for coreSelfTest,
ckTbEdgeMissing and coreParityError. -/
def Obligations.CoreTestsAndFaults : Prop :=
  (∀ (core : Fin 2) (m : CoreMeasure) (s : State), s.corState core.val ≠ 0 →
    ∃ t : State, exec (.coreSelfTest core m) s = .next t.settle ∧
      (∀ id, id < 3 → t.testResult core.val id = (s.grades core.val m).getD id 3) ∧
      (s.rd P.REF_TSTATE ≠ 7 → (∀ id, id < 5 → t.testResult core.val id = (s.grades core.val m).getD id 3) ∧
        t.rd P.COR_SCORE core.val = healthScore (s.corState core.val == 4) (s.grades core.val m) ∧
        ∀ id, id < 5 → t.testResult (1 - core.val) id = s.testResult (1 - core.val) id) ∧
      (t.core core.val).roundAt = s.now ∧
      (t.core core.val).measured = [m.oven, m.dco, m.residual, m.peer.natAbs, (s.shadowMisses m).length] ∧
      (s.corState core.val ≠ 5 → 9500 < m.dco ∨ s.rd P.COR_OVEN_FAIL < m.oven.natAbs →
        t.corState core.val = 5 ∧ (t.rd P.COR_FLAGS).testBit core.val = true ∧ (t.rd P.HLT_STICKY).testBit 2 = true ∧
        (t.core core.val).okSince = none) ∧
      (s.corState core.val = 5 → t.corState core.val = 5 ∧
        (t.core core.val).okSince = (if 9500 < m.dco ∨ s.rd P.COR_OVEN_FAIL < m.oven.natAbs then none
          else some ((s.core core.val).okSince.getD s.clock))) ∧
      (s.corState core.val ∈ [2, 3] → m.oven.natAbs ≤ s.rd P.COR_OVEN_FAIL → m.dco ≤ 9500 → s.rd P.REF_TSTATE ≠ 7 →
        (t.core core.val).count = s.followedCount m.peer ∧
          t.corState core.val = (if s.corState core.val = 3 ∧ m.peer.natAbs ≤ 100 then 3 else 2)) ∧
      (s.corState core.val = 1 → m.oven.natAbs ≤ s.rd P.COR_OVEN_MARG → m.oven.natAbs ≤ s.rd P.COR_OVEN_FAIL → m.dco ≤ 9500 →
        s.rd P.REF_TSTATE ≠ 7 → s.corState (1 - core.val) = 4 → t.corState core.val = 2) ∧
      Only (some ([F.cmd, F.fault, F.fresh, F.rings, F.servo, F.time, P.CMD_NOTICE_DROP, P.CMD_REFUSED_COUNT] ++
        [P.COR_ACTIVE, P.COR_FLAGS, P.COR_PEER_ERR, P.COR_SCORE, P.COR_SHADOW_MISMATCH, P.COR_STATE, P.COR_TEST_RESULT, P.HLT_FAULT_COUNT] ++
        [P.HLT_STICKY, P.REF_ACTIVE, P.REF_FLAGS, P.REF_HO_C, P.REF_HO_D, P.REF_HO_Y0, P.REF_SWLOG_HEAD, P.REF_SWLOG_INFO] ++
        [P.REF_SWLOG_TIME, P.REF_TSTATE, P.TBS_BOUND_NOW, P.TBS_BOUND_PS, P.TBS_DOM_SELECTED, P.TBS_OVER_LIMIT_COUNT])) s t) ∧
  (∀ (core : Fin 2) (m : CoreMeasure) (s : State), s.corState core.val = 0 →
    exec (.coreSelfTest core m) s = .next s.settle) ∧
  (∀ (a : Nat) (s : State), a < 2 → s.time.gap = none → s.corState a = 4 → s.corState (1 - a) = 3 →
    s.rd P.COR_MIN_SCORE ≤ s.rd P.COR_SCORE (1 - a) →
    ∃ t : State, exec .ckTbEdgeMissing s = .next t.settle ∧ t.time.gap = some ⟨s.clock, a, 1 - a, 2, []⟩ ∧ t.corState a = 5 ∧
      t.corState (1 - a) = 3 ∧ (t.core a).okSince = some (s.clock + 2) ∧ t.rd P.REF_TSTATE = s.rd P.REF_TSTATE ∧
      (t.rd P.COR_FLAGS).testBit a = true ∧ (t.rd P.HLT_STICKY).testBit 2 = true ∧ Only (some [F.cmd, F.fault, F.rings, F.servo, F.time, P.CMD_NOTICE_DROP, P.CMD_REFUSED_COUNT, P.COR_FLAGS,
        P.COR_SCORE, P.COR_STATE, P.COR_TEST_RESULT, P.HLT_FAULT_COUNT, P.HLT_STICKY, P.REF_ACTIVE, P.REF_FLAGS, P.REF_SWLOG_HEAD,
        P.REF_SWLOG_INFO, P.REF_SWLOG_TIME, P.REF_TSTATE, P.TBS_BOUND_NOW, P.TBS_BOUND_PS, P.TBS_DOM_SELECTED, P.TBS_OVER_LIMIT_COUNT]) s t) ∧
  (∀ (a : Nat) (s : State), a < 2 → s.time.gap = none → s.corState a = 4 → s.corState (1 - a) ≠ 4 →
    (s.corState (1 - a) ≠ 3 ∨ s.rd P.COR_SCORE (1 - a) < s.rd P.COR_MIN_SCORE) →
    ∃ t : State, exec .ckTbEdgeMissing s = .next t.settle ∧ t.time.gap = none ∧ t.corState a = 5 ∧ t.rd P.REF_TSTATE = 7 ∧
      t.rd P.REF_ACTIVE = 8 ∧ t.time.out = s.time.out ∧ (t.rd P.HLT_STICKY).testBit 2 = true ∧ Only (some [F.cmd, F.fault, F.rings, F.servo, F.time, P.CMD_NOTICE_DROP, P.CMD_REFUSED_COUNT, P.COR_FLAGS,
        P.COR_SCORE, P.COR_STATE, P.COR_TEST_RESULT, P.HLT_FAULT_COUNT, P.HLT_STICKY, P.REF_ACTIVE, P.REF_FLAGS, P.REF_SWLOG_HEAD,
        P.REF_SWLOG_INFO, P.REF_SWLOG_TIME, P.REF_TSTATE, P.TBS_BOUND_NOW, P.TBS_BOUND_PS, P.TBS_DOM_SELECTED, P.TBS_OVER_LIMIT_COUNT]) s t) ∧
  (∀ s : State, s.time.gap = none → s.corState 0 ≠ 4 → s.corState 1 ≠ 4 → exec .ckTbEdgeMissing s = .next s.settle) ∧
  (∀ (g : Gap) (s : State), s.time.gap = some g → g.toCore < 2 → g.fromCore = 1 - g.toCore →
    ∃ t : State, exec .ckTbEdgeMissing s = .next t.settle ∧ t.time.gap = none ∧ t.time.gapEnd = some s.clock ∧ t.corState g.toCore = 5 ∧
      t.corState g.fromCore = s.corState g.fromCore ∧
      t.rd P.REF_TSTATE = (if s.corState g.fromCore = 4 then s.rd P.REF_TSTATE else 7) ∧
      (∀ o, g.waiting = [o] → (s.sessionUid o.uid).isSome = true → s.corState g.fromCore = 4 → t.answered o Status.NOT_READY []) ∧
      Only (some [F.cmd, F.fault, F.rings, F.servo, F.time, P.CMD_NOTICE_DROP, P.CMD_REFUSED_COUNT, P.COR_FLAGS,
        P.COR_SCORE, P.COR_STATE, P.COR_TEST_RESULT, P.HLT_FAULT_COUNT, P.HLT_STICKY, P.REF_ACTIVE, P.REF_FLAGS, P.REF_SWLOG_HEAD,
        P.REF_SWLOG_INFO, P.REF_SWLOG_TIME, P.REF_TSTATE, P.TBS_BOUND_NOW, P.TBS_BOUND_PS, P.TBS_DOM_SELECTED, P.TBS_OVER_LIMIT_COUNT]) s t) ∧
  (∀ (core : Fin 2) (s : State), s.corState core.val ≠ 0 →
    ∃ t : State, exec (.coreParityError core) s = .next t.settle ∧ t.corState core.val = 5 ∧
      (t.core core.val).okSince = (if s.corState core.val = 5 then (s.core core.val).okSince.map fun _ => s.clock + 2 else some (s.clock + 2)) ∧
      (s.corState core.val ≠ 5 → (t.rd P.COR_FLAGS).testBit core.val = true ∧ (t.rd P.HLT_STICKY).testBit 2 = true) ∧
      (s.corState core.val = 4 → s.time.gap = none → s.mayTakeOver (1 - core.val) = true →
        t.time.gap = some ⟨s.clock, core.val, 1 - core.val, 5, []⟩) ∧
      (s.corState core.val ∈ [1, 2, 3] → s.time.gap = none → t.time.gap = none ∧ t.rd P.REF_TSTATE = s.rd P.REF_TSTATE) ∧
      Only (some [F.cmd, F.fault, F.rings, F.servo, F.time, P.CMD_NOTICE_DROP, P.CMD_REFUSED_COUNT, P.COR_FLAGS,
        P.COR_SCORE, P.COR_STATE, P.COR_TEST_RESULT, P.HLT_FAULT_COUNT, P.HLT_STICKY, P.REF_ACTIVE, P.REF_FLAGS, P.REF_SWLOG_HEAD,
        P.REF_SWLOG_INFO, P.REF_SWLOG_TIME, P.REF_TSTATE, P.TBS_BOUND_NOW, P.TBS_BOUND_PS, P.TBS_DOM_SELECTED, P.TBS_OVER_LIMIT_COUNT]) s t) ∧
  ∀ (core : Fin 2) (s : State), s.corState core.val = 0 → exec (.coreParityError core) s = .next s.settle

/-- CORE_SWITCH to a STANDBY core with a sufficient score starts the gap and waits for its end, to the ACTIVE core it answers OK at
once, and otherwise it is refused; the gap's end makes the new core ACTIVE with the output stage's count, counts the switch-over
and answers the command; CORE_HEALTH returns the report of the last round; a request during the gap waits for its end with it or
is refused; a FAILED core whose cause has been absent for COR_RECOVER_TIME follows or warms again, a following core is STANDBY
after COR_XLOCK_SETTLE, and in TSTATE FAULT a core that qualifies becomes ACTIVE and TSTATE leaves FAULT. Earlier nothing happens.
Clauses that go beyond the cited rules are the model's choices: log entry 44. Completion: under conditions on the state and the
operands alone, as its clauses write them, exec answers a next state with the named effect for coreSwitch, switchGapEnd,
coreHealth, coreRecover, crosslockSettle and coreReturn. -/
def Obligations.CoresSwitchAndReturn : Prop :=
  (∀ (rq : Request) (s : State) (x : Session) (c : Nat), s.taken Op.CORE_SWITCH rq x → beAt 0 1 rq.payload = c → c ≤ 1 →
    s.time.gap = none → s.corState c = 3 → s.rd P.COR_MIN_SCORE ≤ s.rd P.COR_SCORE c → s.rd P.REF_TSTATE ≠ 7 →
    ∃ t : State, exec (.coreSwitch rq) s = .next t.settle ∧
      t.time.gap = some ⟨s.clock, 1 - c, c, 0, [originOf x Op.CORE_SWITCH rq]⟩ ∧ Only (some [F.cmd, F.rings, F.time, P.CMD_REFUSED_COUNT, P.TBS_OVER_LIMIT_COUNT]) s t) ∧
  (∀ (rq : Request) (s : State) (x : Session) (c st : Nat), s.taken Op.CORE_SWITCH rq x → beAt 0 1 rq.payload = c →
    s.time.gap = none →
    ((1 < c ∧ st = Status.BAD_VALUE) ∨ (c ≤ 1 ∧ s.corState c = 4 ∧ st = Status.OK) ∨
      (c ≤ 1 ∧ s.corState c ≠ 4 ∧ (s.mayTakeOver c = false ∨ s.rd P.REF_TSTATE = 7) ∧ st = Status.NOT_READY)) →
    ∃ t : State, exec (.coreSwitch rq) s = .next t.settle ∧ t.time = s.time ∧ t.replied x Op.CORE_SWITCH rq st [] ∧
      Only (some [F.cmd, F.rings, P.CMD_REFUSED_COUNT, P.TBS_OVER_LIMIT_COUNT]) s t) ∧
  (∀ (rq : Request) (s : State) (x : Session) (c : Nat) (g : Gap), s.taken Op.CORE_SWITCH rq x → beAt 0 1 rq.payload = c → c ≤ 1 →
    s.time.gap = some g →
    ∃ t : State, exec (.coreSwitch rq) s = .next t.settle ∧
      (g.toCore = c → t.time.gap = some { g with waiting := g.waiting ++ [originOf x Op.CORE_SWITCH rq] }) ∧
      (g.toCore ≠ c → t.time = s.time ∧ t.replied x Op.CORE_SWITCH rq Status.NOT_READY []) ∧ Only (some [F.cmd, F.rings, F.time, P.CMD_REFUSED_COUNT, P.TBS_OVER_LIMIT_COUNT]) s t) ∧
  (∀ (g : Gap) (s : State), s.time.gap = some g → g.toCore < 2 → g.fromCore = 1 - g.toCore →
    ∃ t : State, exec .switchGapEnd s = .next t.settle ∧ t.time.gap = none ∧ t.corState g.toCore = 4 ∧
      t.corState g.fromCore = (if g.cause = 0 ∧ s.corState g.fromCore = 4 then 3 else s.corState g.fromCore) ∧ t.rd P.COR_ACTIVE = g.toCore ∧
      (t.core g.toCore).count = s.time.out ∧ t.time.out = s.time.out ∧ t.time.gapEnd = some s.clock ∧
      t.testResult g.toCore 3 = 3 ∧ t.testResult g.toCore 4 = 3 ∧ t.rd P.COR_LAST_CAUSE = g.cause ∧
      t.rd P.COR_SWITCH_COUNT = (s.rd P.COR_SWITCH_COUNT + 1) % 2 ^ 48 ∧ (t.rd P.HLT_STICKY).testBit 0 = true ∧
      Only (some [F.cmd, F.fault, F.rings, F.servo, F.time, P.CMD_NOTICE_DROP, P.CMD_REFUSED_COUNT, P.COR_ACTIVE,
        P.COR_LAST_CAUSE, P.COR_SCORE, P.COR_STATE, P.COR_SWITCH_COUNT, P.COR_TEST_RESULT, P.HLT_FAULT_COUNT, P.HLT_STICKY, P.TBS_BOUND_NOW,
        P.TBS_BOUND_PS, P.TBS_OVER_LIMIT_COUNT]) s t) ∧
  (∀ (g : Gap) (s : State) (o : Origin), s.time.gap = some g → g.waiting = [o] → (s.sessionUid o.uid).isSome = true →
    ∃ t : State, exec .switchGapEnd s = .next t.settle ∧ t.answered o Status.OK []) ∧
  (∀ s : State, s.time.gap = none → exec .switchGapEnd s = .next s.settle) ∧
  (∀ (rq : Request) (s : State) (x : Session) (c : Nat), s.taken Op.CORE_HEALTH rq x → beAt 0 1 rq.payload = c → c ≤ 1 →
    ∃ t : State, exec (.coreHealth rq) s = .next t.settle ∧
      t.replied x Op.CORE_HEALTH rq Status.OK (toBe 1 c ++ toBe 1 (s.corState c) ++ toBe 1 (s.rd P.COR_SCORE c) ++ [0] ++
        toBe 8 (s.core c).roundAt ++ ((List.range 5).map fun id => toBe 1 id ++ toBe 1 (s.testResult c id) ++ zeros 2 ++
          toBe 4 (raw 32 (clampS 32 ((s.core c).measured.getD id 0)))).flatten) ∧
      Only (some [F.cmd, F.rings, P.CMD_REFUSED_COUNT, P.TBS_OVER_LIMIT_COUNT]) s t) ∧
  (∀ (core : Fin 2) (s : State) (t0 : Nat), s.corState core.val = 5 → s.rd P.REF_TSTATE ≠ 7 → (s.core core.val).okSince = some t0 →
    t0 + s.rd P.COR_RECOVER_TIME * 1000000000 ≤ s.clock →
    ∃ t : State, exec (.coreRecover core) s = .next t ∧ t.corState core.val = (if s.testResult core.val 0 ≤ 1 then 2 else 1) ∧
      Only (some [P.COR_STATE]) s t) ∧
  (∀ (rq : Request) (s : State) (x : Session), s.taken Op.CORE_SWITCH rq x → 1 < beAt 0 1 rq.payload →
    ∃ t : State, exec (.coreSwitch rq) s = .next t.settle ∧ t.time = s.time ∧ t.replied x Op.CORE_SWITCH rq Status.BAD_VALUE [] ∧
      Only (some [F.cmd, F.rings, P.CMD_REFUSED_COUNT, P.TBS_OVER_LIMIT_COUNT]) s t) ∧
  (∀ (core : Fin 2) (s : State) (t0 : Nat), s.corState core.val = 5 → s.rd P.REF_TSTATE = 7 → (s.core core.val).okSince = some t0 →
    t0 + s.rd P.COR_RECOVER_TIME * 1000000000 ≤ s.clock →
    ∃ t : State, exec (.coreRecover core) s = .next t ∧ t.corState core.val = 4 ∧ t.rd P.COR_ACTIVE = core.val ∧
      t.rd P.REF_TSTATE ≠ 7 ∧ Only (some ([F.cmd, F.fault, F.fresh, F.rings, F.servo, F.time, P.CMD_NOTICE_DROP, P.COR_ACTIVE] ++
        [P.COR_SCORE, P.COR_STATE, P.COR_TEST_RESULT, P.HLT_FAULT_COUNT, P.HLT_STICKY, P.REF_ACTIVE, P.REF_FLAGS, P.REF_HO_C] ++
        [P.REF_HO_D, P.REF_HO_Y0, P.REF_SWLOG_HEAD, P.REF_SWLOG_INFO, P.REF_SWLOG_TIME, P.REF_TSTATE, P.TBS_BOUND_NOW, P.TBS_BOUND_PS] ++
        [P.TBS_DOM_SELECTED])) s t) ∧
  (∀ (core : Fin 2) (s : State), (s.corState core.val ≠ 5 ∨ (s.core core.val).okSince = none ∨
      ∃ t0, (s.core core.val).okSince = some t0 ∧ s.clock < t0 + s.rd P.COR_RECOVER_TIME * 1000000000) → exec (.coreRecover core) s = .next s) ∧
  (∀ (core : Fin 2) (s : State) (t0 : Nat), (s.core core.val).xlockSince = some t0 → s.corState core.val = 2 →
    t0 + s.rd P.COR_XLOCK_SETTLE * 1000000000 ≤ s.clock → s.rd P.REF_TSTATE ≠ 7 →
    ∃ t : State, exec (.crosslockSettle core) s = .next t ∧ t.corState core.val = 3 ∧ (t.core core.val).count = s.time.out ∧
      Only (some [P.COR_STATE, F.time]) s t) ∧
  (∀ (core : Fin 2) (s : State), (s.corState core.val ≠ 2 ∨ (s.core core.val).xlockSince = none ∨
      ∃ t0, (s.core core.val).xlockSince = some t0 ∧ s.clock < t0 + s.rd P.COR_XLOCK_SETTLE * 1000000000) →
    exec (.crosslockSettle core) s = .next s) ∧
  (∀ (core : Fin 2) (s : State), s.rd P.REF_TSTATE = 7 →
    ((s.corState core.val = 5 ∧ ∃ t0, (s.core core.val).okSince = some t0 ∧ t0 + s.rd P.COR_RECOVER_TIME * 1000000000 ≤ s.clock) ∨
      (s.corState core.val = 1 ∧ s.testResult core.val 0 ≤ 1) ∨
      (s.corState core.val = 3 ∧ s.rd P.COR_MIN_SCORE ≤ s.rd P.COR_SCORE core.val)) →
    ∃ t : State, exec (.coreReturn core) s = .next t ∧ t.corState core.val = 4 ∧ t.rd P.COR_ACTIVE = core.val ∧
      (t.core core.val).count = s.time.out ∧ t.rd P.REF_TSTATE ≠ 7 ∧ Only (some ([F.cmd, F.fault, F.fresh, F.rings, F.servo, F.time, P.CMD_NOTICE_DROP, P.COR_ACTIVE] ++
        [P.COR_SCORE, P.COR_STATE, P.COR_TEST_RESULT, P.HLT_FAULT_COUNT, P.HLT_STICKY, P.REF_ACTIVE, P.REF_FLAGS, P.REF_HO_C] ++
        [P.REF_HO_D, P.REF_HO_Y0, P.REF_SWLOG_HEAD, P.REF_SWLOG_INFO, P.REF_SWLOG_TIME, P.REF_TSTATE, P.TBS_BOUND_NOW, P.TBS_BOUND_PS] ++
        [P.TBS_DOM_SELECTED])) s t) ∧
  ∀ (core : Fin 2) (s : State), (s.rd P.REF_TSTATE ≠ 7 ∨ s.corState core.val ∈ [0, 2, 4] ∨
      (s.corState core.val = 5 ∧ s.recovered core.val = false) ∨ (s.corState core.val = 1 ∧ 2 ≤ s.testResult core.val 0) ∨
      (s.corState core.val = 3 ∧ s.rd P.COR_SCORE core.val < s.rd P.COR_MIN_SCORE)) → exec (.coreReturn core) s = .next s

/-- A TIME_OUT port whose traffic class 7 is free sends its TSYNC with the next sequence number and its transmit stamp; a TIME_IN port
keeps the stamps of a TSYNC and answers with a TDREQ; the TIME_OUT port answers that with a TDRESP and computes its round trip;
the TIME_IN port completes the exchange, and one that passes the tests sets the round trip, the offset and the references' bounds,
with the phase at the TSYNC as φ_k, while one that fails, does not match, is overdue or times out is discarded and counted; a
TDRESP with no exchange under way counts nothing; a partner that begins to show a widened bound makes a TRACKING port measure
again, and a hop count of 8 or more takes a port out of TRACKING and REMEASURE. A message of a wrong length is counted, and a port
on which no timing message runs takes none. Clauses that go beyond the cited rules are the model's choices: log entries 40, 45,
83. Completion: under conditions on the state and the operands alone, as its clauses write them, exec answers a next state with
the named effect for tsyncSend, tsync, tdreq, tdresp, respTimeout and tcal. -/
def Obligations.TimeLinkExchange : Prop :=
  (∀ (port : Fin 512) (raw1 : RawStamp) (s : State), s.timingRuns port.val = true → s.rd P.LNK_ROLE port.val = 2 →
    s.class7Free port.val = true →
    ∃ t : State, exec (.tsyncSend port raw1) s = .next t ∧
      t.out = s.out ++ [.frame port.val (s.nhpFrame port.val (s.rd P.HIE_PORT_VERSION port.val) 0x10 8 (s.rd P.HIE_IDENTITY) port.val
        (s.tsyncBody (s.link port.val).seq (s.txMark port.val raw1)))] ∧
      (t.link port.val).seq = ((s.link port.val).seq + 1) % 65536 ∧
      ((s.link port.val).seq, (s.txMark port.val raw1).units) ∈ (t.link port.val).sent ∧ Only (some [F.links, P.TBS_OVER_LIMIT_COUNT]) s t) ∧
  (∀ (port : Fin 512) (raw1 : RawStamp) (s : State), s.timingRuns port.val = false ∨ s.rd P.LNK_ROLE port.val ≠ 2 ∨
      s.class7Free port.val = false → exec (.tsyncSend port raw1) s = .next s) ∧
  (∀ (port : Fin 512) (body : List Byte) (raw2 raw3 : RawStamp) (s : State), body.length = 32 → s.timingRuns port.val = true →
    s.rd P.LNK_ROLE port.val = 1 →
    ∃ (t : State) (x2 x3 : Stamp), exec (.tsync port body raw2 raw3) s = .next t ∧ x2 = s.rxMark port.val raw2 ∧
      x3.ns = (s.txMark port.val raw3).ns ∧ x3.sub = (s.txMark port.val raw3).sub ∧
      (⟨beAt 0 2 body, stampAt 4 body, x2.units, x3.units, s.clock, beAt 16 4 body, beAt 21 1 body,
        beAt 24 8 body, (s.link port.val).phase⟩ : Exchange) ∈ (t.link port.val).exchanges ∧
      (t.rd P.LNK_FLAGS port.val).testBit 4 = decide (8 ≤ beAt 21 1 body) ∧ (t.rd P.LNK_FLAGS port.val).testBit 0 = false ∧
      (t.link port.val).hops = beAt 21 1 body ∧
      (8 ≤ beAt 21 1 body → s.rd P.LNK_STATE port.val = 3 ∨ s.rd P.LNK_STATE port.val = 4 → t.rd P.LNK_STATE port.val = 2) ∧
      (beAt 21 1 body < 8 → t.out = s.out ++ [.frame port.val (s.nhpFrame port.val (s.rd P.HIE_PORT_VERSION port.val) 0x11 8
        (s.rd P.HIE_IDENTITY) port.val (toBe 2 (beAt 0 2 body) ++ toBe 1 (b2n (s.bEvt port.val != 0)) ++ [0] ++ x2.field ++ x3.field))]) ∧
      (s.rd P.TBS_UTC_SOURCE ≠ 2 → t.rd P.TBS_UTC_OFFSET = s.rd P.TBS_UTC_OFFSET) ∧ Only (some ([F.cal, F.cmd, F.fault, F.fresh, F.linkRun, F.links, F.refs, F.rings] ++
        [F.servo, F.shadows, F.time, P.CMD_NOTICE_DROP, P.CMD_REFUSED_COUNT, P.HIE_RX_DISCARD, P.HLT_FAULT_COUNT, P.HLT_STICKY] ++
        [P.LNK_BEVT, P.LNK_FLAGS, P.LNK_STATE, P.REF_ACTIVE, P.REF_DEV, P.REF_FLAGS, P.REF_HO_C, P.REF_HO_D] ++
        [P.REF_HO_Y0, P.REF_QSTATE, P.REF_SWLOG_HEAD, P.REF_SWLOG_INFO, P.REF_SWLOG_TIME, P.REF_TSTATE, P.TBS_BOUND_NOW, P.TBS_BOUND_PS] ++
        [P.TBS_DOM_SELECTED, P.TBS_LEAP, P.TBS_OVER_LIMIT_COUNT, P.TBS_UTC_OFFSET, P.TBS_UTC_VALID])) s t) ∧
  (∀ (port : Fin 512) (body : List Byte) (raw2 raw3 : RawStamp) (s : State), body.length = 32 → s.timingRuns port.val = true →
    s.rd P.LNK_ROLE port.val ≠ 1 →
    ∃ t : State, exec (.tsync port body raw2 raw3) s = .next t ∧
      (s.rd P.LNK_STATE port.val = 1 → (t.rd P.LNK_FLAGS port.val).testBit 0 = true) ∧
      (s.rd P.LNK_STATE port.val ≠ 1 → t = s.stamped port.val) ∧ Only (some [P.LNK_FLAGS, P.TBS_OVER_LIMIT_COUNT]) s t) ∧
  (∀ (port : Fin 512) (body : List Byte) (raw4 : RawStamp) (s : State) (seq : Nat) (t1 rt : Int) (x4 : Stamp), body.length = 28 →
    s.timingRuns port.val = true → s.rd P.LNK_ROLE port.val = 2 →
    ((s.link port.val).sent.find? fun y => y.1 == beAt 0 2 body) = some (seq, t1) →
    x4 = s.rxMark port.val raw4 → rt = unitsPs ((x4.units - t1) - (stampAt 16 body - stampAt 4 body)) →
    ∃ t : State, exec (.tdreq port body raw4) s = .next t ∧
      ((beAt 2 1 body).testBit 0 = false → (s.out ++ [.frame port.val (s.nhpFrame port.val (s.rd P.HIE_PORT_VERSION port.val) 0x12 8
        (s.rd P.HIE_IDENTITY) port.val (toBe 2 (beAt 0 2 body) ++ toBe 1 (b2n (s.bEvt port.val != 0)) ++ [0] ++ x4.field ++
          toBe 4 (s.bPort port.val + s.bEvt port.val)))]) <+: t.out) ∧
      (∀ y ∈ (t.link port.val).sent, y.1 ≠ seq) ∧
      (0 ≤ rt → rt ≤ 250000000 → s.rd P.LNK_STATE port.val ≠ 3 → t.rd P.LNK_RT port.val = rt.toNat ∧
        (t.link port.val).lastRt = some (rt, (s.link port.val).phase)) ∧
      (rt < 0 ∨ 250000000 < rt → t.rd P.LNK_RT port.val = s.rd P.LNK_RT port.val ∧
        t.rd P.LNK_DISCARDS port.val = (s.rd P.LNK_DISCARDS port.val + 1) % 2 ^ 48) ∧ Only (some ([F.cal, F.cmd, F.fault, F.fresh, F.linkRun, F.links, F.lock, F.refs] ++
        [F.rings, F.servo, P.CMD_NOTICE_DROP, P.CMD_REFUSED_COUNT, P.HIE_RX_DISCARD, P.HLT_FAULT_COUNT, P.HLT_STICKY, P.LNK_BEVT] ++
        [P.LNK_DISCARDS, P.LNK_FLAGS, P.LNK_RT, P.LNK_STATE, P.REF_ACTIVE, P.REF_BREF, P.REF_DEV, P.REF_FLAGS] ++
        [P.REF_HO_C, P.REF_HO_D, P.REF_HO_Y0, P.REF_KIND, P.REF_QSTATE, P.REF_SWLOG_HEAD, P.REF_SWLOG_INFO, P.REF_SWLOG_TIME] ++
        [P.REF_TSTATE, P.TBS_BOUND_NOW, P.TBS_BOUND_PS, P.TBS_DOM_SELECTED, P.TBS_OVER_LIMIT_COUNT])) s t) ∧
  (∀ (port : Fin 512) (body : List Byte) (raw4 : RawStamp) (s : State), body.length = 28 → s.timingRuns port.val = true →
    (s.rd P.LNK_ROLE port.val = 2 → ((s.link port.val).sent.find? fun y => y.1 == beAt 0 2 body) = none →
      ∃ t : State, exec (.tdreq port body raw4) s = .next t ∧ t.rd P.LNK_RT port.val = s.rd P.LNK_RT port.val ∧
        t.rd P.LNK_DISCARDS port.val = (s.rd P.LNK_DISCARDS port.val + 1) % 2 ^ 48 ∧ Only (some ([F.cal, F.cmd, F.fault, F.fresh, F.linkRun, F.links, F.lock, F.refs] ++
        [F.rings, F.servo, P.CMD_NOTICE_DROP, P.CMD_REFUSED_COUNT, P.HIE_RX_DISCARD, P.HLT_FAULT_COUNT, P.HLT_STICKY, P.LNK_BEVT] ++
        [P.LNK_DISCARDS, P.LNK_FLAGS, P.LNK_RT, P.LNK_STATE, P.REF_ACTIVE, P.REF_BREF, P.REF_DEV, P.REF_FLAGS] ++
        [P.REF_HO_C, P.REF_HO_D, P.REF_HO_Y0, P.REF_KIND, P.REF_QSTATE, P.REF_SWLOG_HEAD, P.REF_SWLOG_INFO, P.REF_SWLOG_TIME] ++
        [P.REF_TSTATE, P.TBS_BOUND_NOW, P.TBS_BOUND_PS, P.TBS_DOM_SELECTED, P.TBS_OVER_LIMIT_COUNT])) s t) ∧
    (s.rd P.LNK_ROLE port.val ≠ 2 → s.rd P.LNK_STATE port.val ≠ 1 → exec (.tdreq port body raw4) s = .next (s.stamped port.val))) ∧
  (∀ (port : Fin 512) (body : List Byte) (s : State) (x : Exchange) (rt theta : Int), body.length = 20 →
    s.timingRuns port.val = true → s.rd P.LNK_ROLE port.val = 1 →
    ((s.link port.val).exchanges.find? fun x => x.seq == beAt 0 2 body) = some x →
    s.clock ≤ x.sentAt + s.rd P.LNK_RESP_TIMEOUT * 1000000 →
    rt = unitsPs ((stampAt 4 body - x.t1) - (x.t3 - x.t2)) → 0 ≤ rt → rt ≤ 250000000 →
    (∀ r0 f0, (s.link port.val).lastRt = some (r0, f0) → s.rd P.LNK_STATE port.val ≠ 3 ∨
      ((rt - r0) - phasePs (x.phi - f0)).natAbs ≤ s.rd P.LNK_RT_JUMP) →
    theta = unitsPs (x.t2 - x.t1) - (rt + s.rdS 32 P.LNK_ASYM port.val) / 2 →
    ∃ t : State, exec (.tdresp port body) s = .next t ∧ t.rd P.LNK_RT port.val = rt.toNat ∧
      t.rdS 64 P.LNK_OFFSET port.val = clampS 64 (theta + phasePs ((s.link port.val).phase - x.phi)) ∧
      (t.link port.val).theta = theta ∧ (t.link port.val).lastRt = some (rt, x.phi) ∧ (t.link port.val).hops = x.hops ∧
      (t.link port.val).upBound = x.upBound ∧ (∀ y ∈ (t.link port.val).exchanges, y.seq ≠ x.seq) ∧ (t.link port.val).discards = 0 ∧
      (s.rd P.LNK_STATE port.val = 3 → (beAt 2 1 body).testBit 0 = false →
        t.rd P.LNK_STATE port.val = 3 ∧ ∀ r, r ∈ s.linkRefs port.val →
        t.rd P.REF_BREF r = (if x.upBound = noBound then noBound else clampU 32 (x.upBound + t.bHop port.val))) ∧
      Only (some ([F.cal, F.cmd, F.fault, F.fresh, F.linkRun, F.links, F.refs, F.rings] ++
        [F.servo, P.CMD_NOTICE_DROP, P.CMD_REFUSED_COUNT, P.HIE_RX_DISCARD, P.HLT_FAULT_COUNT, P.HLT_STICKY, P.LNK_BEVT, P.LNK_DISCARDS] ++
        [P.LNK_FLAGS, P.LNK_OFFSET, P.LNK_RT, P.LNK_STATE, P.REF_ACTIVE, P.REF_BREF, P.REF_DEV, P.REF_FLAGS] ++
        [P.REF_HO_C, P.REF_HO_D, P.REF_HO_Y0, P.REF_KIND, P.REF_QSTATE, P.REF_SWLOG_HEAD, P.REF_SWLOG_INFO, P.REF_SWLOG_TIME] ++
        [P.REF_TSTATE, P.TBS_BOUND_NOW, P.TBS_BOUND_PS, P.TBS_DOM_BOUND, P.TBS_DOM_OFFSET, P.TBS_DOM_SELECTED, P.TBS_OVER_LIMIT_COUNT])) s t) ∧
  (∀ (port : Fin 512) (body : List Byte) (s : State) (x : Exchange) (rt : Int), body.length = 20 → s.timingRuns port.val = true →
    s.rd P.LNK_ROLE port.val = 1 → ((s.link port.val).exchanges.find? fun x => x.seq == beAt 0 2 body) = some x →
    rt = unitsPs ((stampAt 4 body - x.t1) - (x.t3 - x.t2)) →
    (x.sentAt + s.rd P.LNK_RESP_TIMEOUT * 1000000 < s.clock ∨ rt < 0 ∨ 250000000 < rt ∨
      ∃ r0 f0, (s.link port.val).lastRt = some (r0, f0) ∧ s.rd P.LNK_STATE port.val = 3 ∧ (beAt 2 1 body).testBit 0 = false ∧
        s.rd P.LNK_RT_JUMP < ((rt - r0) - phasePs (x.phi - f0)).natAbs) →
    ∃ t : State, exec (.tdresp port body) s = .next t ∧ t.rd P.LNK_DISCARDS port.val = (s.rd P.LNK_DISCARDS port.val + 1) % 2 ^ 48 ∧
      t.rd P.LNK_RT port.val = s.rd P.LNK_RT port.val ∧ (∀ y ∈ (t.link port.val).exchanges, y.seq ≠ x.seq) ∧
      Only (some ([F.cal, F.cmd, F.fault, F.fresh, F.linkRun, F.links, F.refs, F.rings] ++
        [F.servo, P.CMD_NOTICE_DROP, P.CMD_REFUSED_COUNT, P.HIE_RX_DISCARD, P.HLT_FAULT_COUNT, P.HLT_STICKY, P.LNK_BEVT, P.LNK_DISCARDS] ++
        [P.LNK_FLAGS, P.LNK_OFFSET, P.LNK_RT, P.LNK_STATE, P.REF_ACTIVE, P.REF_BREF, P.REF_DEV, P.REF_FLAGS] ++
        [P.REF_HO_C, P.REF_HO_D, P.REF_HO_Y0, P.REF_KIND, P.REF_QSTATE, P.REF_SWLOG_HEAD, P.REF_SWLOG_INFO, P.REF_SWLOG_TIME] ++
        [P.REF_TSTATE, P.TBS_BOUND_NOW, P.TBS_BOUND_PS, P.TBS_DOM_BOUND, P.TBS_DOM_OFFSET, P.TBS_DOM_SELECTED, P.TBS_OVER_LIMIT_COUNT])) s t) ∧
  (∀ (port : Fin 512) (body : List Byte) (s : State), body.length = 20 → s.timingRuns port.val = true →
    s.rd P.LNK_ROLE port.val = 1 → ((s.link port.val).exchanges.find? fun x => x.seq == beAt 0 2 body) = none →
    ∃ t : State, exec (.tdresp port body) s = .next t ∧ t.rd P.LNK_RT port.val = s.rd P.LNK_RT port.val ∧
      ((s.link port.val).exchanges = [] → t.rd P.LNK_DISCARDS port.val = s.rd P.LNK_DISCARDS port.val) ∧
      (∀ x r, (s.link port.val).exchanges = x :: r → t.rd P.LNK_DISCARDS port.val = (s.rd P.LNK_DISCARDS port.val + 1) % 2 ^ 48 ∧
        ∀ y ∈ (t.link port.val).exchanges, y.seq ≠ x.seq) ∧ Only (some ([F.cal, F.cmd, F.fault, F.fresh, F.linkRun, F.links, F.refs, F.rings] ++
        [F.servo, P.CMD_NOTICE_DROP, P.CMD_REFUSED_COUNT, P.HIE_RX_DISCARD, P.HLT_FAULT_COUNT, P.HLT_STICKY, P.LNK_BEVT, P.LNK_DISCARDS] ++
        [P.LNK_FLAGS, P.LNK_OFFSET, P.LNK_RT, P.LNK_STATE, P.REF_ACTIVE, P.REF_BREF, P.REF_DEV, P.REF_FLAGS] ++
        [P.REF_HO_C, P.REF_HO_D, P.REF_HO_Y0, P.REF_KIND, P.REF_QSTATE, P.REF_SWLOG_HEAD, P.REF_SWLOG_INFO, P.REF_SWLOG_TIME] ++
        [P.REF_TSTATE, P.TBS_BOUND_NOW, P.TBS_BOUND_PS, P.TBS_DOM_BOUND, P.TBS_DOM_OFFSET, P.TBS_DOM_SELECTED, P.TBS_OVER_LIMIT_COUNT])) s t) ∧
  (∀ (port : Fin 512) (body : List Byte) (s : State), body.length = 20 → s.timingRuns port.val = true →
    s.rd P.LNK_ROLE port.val = 1 → s.rd P.LNK_STATE port.val = 3 → (s.link port.val).widened = false →
    (beAt 2 1 body).testBit 0 = true → (s.link port.val).exchanges = [] →
    ∃ t : State, exec (.tdresp port body) s = .next t ∧ t.rd P.LNK_STATE port.val = 4 ∧
      t.rd P.LNK_BEVT port.val = max (s.rd P.LNK_SLIP_WIDEN) (s.link port.val).suspect ∧ Only (some ([F.cal, F.cmd, F.fault, F.fresh, F.linkRun, F.links, F.refs, F.rings] ++
        [F.servo, P.CMD_NOTICE_DROP, P.CMD_REFUSED_COUNT, P.HIE_RX_DISCARD, P.HLT_FAULT_COUNT, P.HLT_STICKY, P.LNK_BEVT, P.LNK_DISCARDS] ++
        [P.LNK_FLAGS, P.LNK_OFFSET, P.LNK_RT, P.LNK_STATE, P.REF_ACTIVE, P.REF_BREF, P.REF_DEV, P.REF_FLAGS] ++
        [P.REF_HO_C, P.REF_HO_D, P.REF_HO_Y0, P.REF_KIND, P.REF_QSTATE, P.REF_SWLOG_HEAD, P.REF_SWLOG_INFO, P.REF_SWLOG_TIME] ++
        [P.REF_TSTATE, P.TBS_BOUND_NOW, P.TBS_BOUND_PS, P.TBS_DOM_BOUND, P.TBS_DOM_OFFSET, P.TBS_DOM_SELECTED, P.TBS_OVER_LIMIT_COUNT])) s t) ∧
  (∀ (port : Fin 512) (s : State) (x : Exchange),
    ((s.link port.val).exchanges.find? fun x => decide (x.sentAt + s.rd P.LNK_RESP_TIMEOUT * 1000000 ≤ s.clock)) = some x →
    ∃ t : State, exec (.respTimeout port) s = .next t ∧
      (t.link port.val).exchanges = ((s.link port.val).exchanges.filter fun y => y.seq != x.seq) ∧
      t.rd P.LNK_DISCARDS port.val = (s.rd P.LNK_DISCARDS port.val + 1) % 2 ^ 48 ∧
      (s.rd P.LNK_STATE port.val = 3 → s.rd P.LNK_DISCARD_MAX ≤ (s.link port.val).discards + 1 → t.rd P.LNK_STATE port.val = 4 ∧
        t.rd P.LNK_BEVT port.val = max (s.rd P.LNK_SLIP_WIDEN) (s.link port.val).suspect) ∧ Only (some ([F.cal, F.cmd, F.fault, F.fresh, F.linkRun, F.links, F.refs, F.rings] ++
        [F.servo, P.CMD_NOTICE_DROP, P.CMD_REFUSED_COUNT, P.HLT_FAULT_COUNT, P.HLT_STICKY, P.LNK_BEVT, P.LNK_DISCARDS, P.LNK_STATE] ++
        [P.REF_ACTIVE, P.REF_BREF, P.REF_DEV, P.REF_FLAGS, P.REF_HO_C, P.REF_HO_D, P.REF_HO_Y0, P.REF_KIND] ++
        [P.REF_QSTATE, P.REF_SWLOG_HEAD, P.REF_SWLOG_INFO, P.REF_SWLOG_TIME, P.REF_TSTATE, P.TBS_BOUND_NOW, P.TBS_BOUND_PS, P.TBS_DOM_SELECTED] ++
        [P.TBS_OVER_LIMIT_COUNT])) s t) ∧
  (∀ (port : Fin 512) (s : State), (∀ x ∈ (s.link port.val).exchanges,
      s.clock < x.sentAt + s.rd P.LNK_RESP_TIMEOUT * 1000000) → exec (.respTimeout port) s = .next s) ∧
  (∀ (port : Fin 512) (body : List Byte) (s : State), body.length = 28 → s.timingRuns port.val = true → beAt 2 1 body = 0 →
    s.rd P.LNK_ROLE port.val = 2 →
    ∃ t : State, exec (.tcal port body) s = .next t ∧ (⟨port.val, beAt 0 2 body, beAt 4 2 body, 0⟩ : TcalServe) ∈ t.tcal ∧
      Only (some [F.tcal, P.TBS_OVER_LIMIT_COUNT]) s t) ∧
  (∀ (port : Fin 512) (body : List Byte) (s : State) (r : LinkRun), body.length = 28 → s.timingRuns port.val = true →
    beAt 2 1 body = 1 → s.linkRun = some r → r.port = port.val → r.seq = beAt 0 2 body →
    ∃ t : State, exec (.tcal port body) s = .next t ∧ t.linkRun = some { r with
      theirs := r.theirs ++ [stampAt 8 body], path := sgn 32 (beAt 20 4 body), pathU := beAt 24 2 body } ∧
      Only (some [F.linkRun, P.TBS_OVER_LIMIT_COUNT]) s t) ∧
  (∀ (port : Fin 512) (body : List Byte) (s : State), body.length = 28 → s.timingRuns port.val = true → beAt 2 1 body = 2 →
    ∃ t : State, exec (.tcal port body) s = .next t ∧ (∀ c ∈ t.tcal, c.port ≠ port.val) ∧ Only (some [F.tcal, P.TBS_OVER_LIMIT_COUNT]) s t) ∧
  (∀ (port : Fin 512) (body : List Byte) (s : State), body.length = 28 →
    ((beAt 2 1 body = 0 ∧ s.rd P.LNK_ROLE port.val ≠ 2) ∨ 2 < beAt 2 1 body ∨
      (beAt 2 1 body = 1 ∧ ∀ r, s.linkRun = some r → r.port ≠ port.val ∨ r.seq ≠ beAt 0 2 body)) →
    exec (.tcal port body) s = .next (s.stamped port.val)) ∧
  ∀ (port : Fin 512) (body : List Byte) (a b : RawStamp) (s : State),
    (body.length ≠ 32 → ∃ t : State, exec (.tsync port body a b) s = .next t ∧
      t.rd P.HIE_RX_DISCARD = (s.rd P.HIE_RX_DISCARD + 1) % 2 ^ 48 ∧ Only (some [P.HIE_RX_DISCARD, P.TBS_OVER_LIMIT_COUNT]) s t) ∧
    (body.length ≠ 28 → ∃ t : State, exec (.tdreq port body a) s = .next t ∧ exec (.tcal port body) s = .next t ∧
      t.rd P.HIE_RX_DISCARD = (s.rd P.HIE_RX_DISCARD + 1) % 2 ^ 48 ∧ Only (some [P.HIE_RX_DISCARD, P.TBS_OVER_LIMIT_COUNT]) s t) ∧
    (body.length ≠ 20 → ∃ t : State, exec (.tdresp port body) s = .next t ∧
      t.rd P.HIE_RX_DISCARD = (s.rd P.HIE_RX_DISCARD + 1) % 2 ^ 48 ∧ Only (some [P.HIE_RX_DISCARD, P.TBS_OVER_LIMIT_COUNT]) s t) ∧
    (s.timingRuns port.val = false →
      (body.length = 32 → exec (.tsync port body a b) s = .next (s.stamped port.val)) ∧
      (body.length = 28 → exec (.tdreq port body a) s = .next (s.stamped port.val) ∧ exec (.tcal port body) s = .next (s.stamped port.val)) ∧
      (body.length = 20 → exec (.tdresp port body) s = .next (s.stamped port.val)))

/-- The average of 2^LNK_DDMTD_AVG beats, whose edges begin runs of LNK_DDMTD_GLITCH equal samples or more, of a locked port whose
marker divider runs is shown in LNK_PHASE and moves the offset of a TIME_IN port by the phase since φ_k; one that moves too fast,
or that comes while the CDR reports no lock, makes the DDMTD invalid and the bound of the port's stamps TBS_FREE_Q, and one that
contains a switch-over gap is discarded; after LNK_DDMTD_SETTLE of good averages the DDMTD is valid and a port whose partner shows
the opposite role measures; a slip on a port without role widens until LNK_SLIP_HOLD ends. Clauses that go beyond the cited rules
are the model's choices: log entries 34, 45, 83. Completion: under conditions on the state and the operands alone, as its clauses
write them, exec answers a next state with the named effect for ddmtdAverage, ddmtdSettle and slipHoldExpiry. -/
def Obligations.LinkPhaseAndSlips : Prop :=
  (∀ (port : Fin 512) (firsts : List (Fin 16384)) (runs : List Nat) (beats : List (Fin 16384)) (s : State) (avg : Int) (span : Nat),
    beats = beatEdges (s.rd P.LNK_DDMTD_GLITCH) firsts runs → s.lockedPort port.val = true →
    (s.link port.val).divider = true → beats.length = 2 ^ s.rd P.LNK_DDMTD_AVG → span = beatNs * 2 ^ s.rd P.LNK_DDMTD_AVG →
    s.gapWithin span = false → avg = beatAverage (s.link port.val).phase beats →
    ∃ t : State, exec (.ddmtdAverage port firsts runs) s = .next t ∧
      t.rd P.LNK_PHASE port.val = (roundDiv avg 1024 % 16384).toNat ∧
      (t.link port.val).phase = avg ∧ (t.link port.val).avgAt = some s.clock ∧
      (∀ t0, (s.link port.val).avgAt = some t0 →
        (avg - (s.link port.val).phase).natAbs * 2000 * 10 ^ 9 ≤ s.rd P.LNK_DDMTD_SLEW * max span (s.clock - t0) * 2 ^ 24 →
        2 < s.rd P.LAN_STATE port.val →
        (t.link port.val).valid = (s.link port.val).valid ∧ (t.link port.val).goodSince.isSome = true) ∧
      ((s.link port.val).avgAt = none ∨ s.rd P.LAN_STATE port.val ≤ 2 ∨ (∃ t0, (s.link port.val).avgAt = some t0 ∧
        s.rd P.LNK_DDMTD_SLEW * max span (s.clock - t0) * 2 ^ 24 < (avg - (s.link port.val).phase).natAbs * 2000 * 10 ^ 9) →
        (t.link port.val).valid = false ∧ (t.linkFlags port.val).testBit 2 = true ∧ t.bEvt port.val = t.rd P.TBS_FREE_Q ∧
        (t.link port.val).goodSince = none) ∧
      (∀ rt f, s.rd P.LNK_ROLE port.val = 1 → (s.link port.val).lastRt = some (rt, f) →
        t.rdS 64 P.LNK_OFFSET port.val = clampS 64 ((s.link port.val).theta + phasePs (avg - f))) ∧
      Only (some ([F.cmd, F.fault, F.fresh, F.links, F.refs, F.rings, F.servo, P.CMD_NOTICE_DROP] ++
        [P.HLT_FAULT_COUNT, P.HLT_STICKY, P.LNK_OFFSET, P.LNK_PHASE, P.REF_ACTIVE, P.REF_BREF, P.REF_DEV, P.REF_FLAGS] ++
        [P.REF_HO_C, P.REF_HO_D, P.REF_HO_Y0, P.REF_KIND, P.REF_QSTATE, P.REF_SWLOG_HEAD, P.REF_SWLOG_INFO, P.REF_SWLOG_TIME] ++
        [P.REF_TSTATE, P.TBS_BOUND_NOW, P.TBS_BOUND_PS, P.TBS_DOM_SELECTED])) s t) ∧
  (∀ (port : Fin 512) (firsts : List (Fin 16384)) (runs : List Nat) (s : State), (s.lockedPort port.val = false ∨ (s.link port.val).divider = false ∨
      (beatEdges (s.rd P.LNK_DDMTD_GLITCH) firsts runs).length ≠ 2 ^ s.rd P.LNK_DDMTD_AVG ∨ s.time.gap ≠ none ∨
      ∃ t0, s.time.gapEnd = some t0 ∧ s.clock < t0 + beatNs * 2 ^ s.rd P.LNK_DDMTD_AVG) →
    exec (.ddmtdAverage port firsts runs) s = .next s) ∧
  (∀ (port : Fin 512) (s : State) (t0 : Nat), (s.link port.val).goodSince = some t0 → s.lockedPort port.val = true →
    t0 + s.rd P.LNK_DDMTD_SETTLE * 1000000 ≤ s.clock →
    ∃ t : State, exec (.ddmtdSettle port) s = .next t ∧ (t.link port.val).valid = true ∧
      (t.linkFlags port.val).testBit 2 = false ∧ t.bEvt port.val = t.rd P.LNK_BEVT port.val ∧
      t.rd P.LNK_STATE port.val = (if s.rd P.LNK_STATE port.val = 1 ∧ (s.link port.val).partner = true ∧
        (s.rd P.LNK_FLAGS port.val).testBit 0 = false then 2 else s.rd P.LNK_STATE port.val) ∧ Only (some ([F.cmd, F.fault, F.fresh, F.links, F.refs, F.rings, F.servo, P.CMD_NOTICE_DROP] ++
        [P.HLT_FAULT_COUNT, P.HLT_STICKY, P.LNK_STATE, P.REF_ACTIVE, P.REF_BREF, P.REF_DEV, P.REF_FLAGS, P.REF_HO_C] ++
        [P.REF_HO_D, P.REF_HO_Y0, P.REF_KIND, P.REF_QSTATE, P.REF_SWLOG_HEAD, P.REF_SWLOG_INFO, P.REF_SWLOG_TIME, P.REF_TSTATE] ++
        [P.TBS_BOUND_NOW, P.TBS_BOUND_PS, P.TBS_DOM_SELECTED])) s t) ∧
  (∀ (port : Fin 512) (s : State), (∀ t0, (s.link port.val).goodSince = some t0 → s.lockedPort port.val = false ∨
      s.clock < t0 + s.rd P.LNK_DDMTD_SETTLE * 1000000) → exec (.ddmtdSettle port) s = .next s) ∧
  (∀ (port : Fin 512) (s : State) (t0 : Nat), (s.link port.val).slipUntil = some t0 → t0 ≤ s.clock →
    ∃ t : State, exec (.slipHoldExpiry port) s = .next t ∧ t.rd P.LNK_BEVT port.val = (s.link port.val).suspect ∧ (t.link port.val).slipUntil = none ∧
      Only (some ([F.cmd, F.fault, F.fresh, F.links, F.refs, F.rings, F.servo, P.CMD_NOTICE_DROP] ++
        [P.HLT_FAULT_COUNT, P.HLT_STICKY, P.LNK_BEVT, P.REF_ACTIVE, P.REF_BREF, P.REF_DEV, P.REF_FLAGS, P.REF_HO_C] ++
        [P.REF_HO_D, P.REF_HO_Y0, P.REF_KIND, P.REF_QSTATE, P.REF_SWLOG_HEAD, P.REF_SWLOG_INFO, P.REF_SWLOG_TIME, P.REF_TSTATE] ++
        [P.TBS_BOUND_NOW, P.TBS_BOUND_PS, P.TBS_DOM_SELECTED])) s t) ∧
  ∀ (port : Fin 512) (s : State), (∀ t0, (s.link port.val).slipUntil = some t0 → s.clock < t0) →
    exec (.slipHoldExpiry port) s = .next s

/-- On a port on which the service runs a Sync carries its transmit stamp and an Announce the module's status, each with the next
sequence number of the port, to the multicast address or to the client of a grant that has not ended, over its transport; a
request for Sync, Announce or Delay_Resp at a period it supports is granted for at most LNK_PTP_GRANT_MAX and any other refused
and counted; a grant that has reached its end is removed; a Delay_Req is answered with a Delay_Resp, in unicast only to a client
with a grant for it, and a Pdelay_Req with a Pdelay_Resp, over the transport they came by. On any other port nothing happens.
Clauses that go beyond the cited rules are the model's choices: log entries 45, 81. Completion: under conditions on the state and
the operands alone, as its clauses write them, exec answers a next state with the named effect for ptpSyncSend, ptpUnicastRequest,
grantExpiry and delayReq. -/
def Obligations.PtpServiceAnswersAndGrants : Prop :=
  (∀ (port : Fin 512) (tx : RawStamp) (s : State) (n : Nat) (x : Stamp), s.ptpRuns port.val = true →
    n = look (port.val, 0) 0 s.ptpSeq → x = s.txMark port.val tx →
    ∃ t : State, exec (.ptpSyncSend port false none tx) s = .next t ∧
      t.out = (s.ptpSend port.val (groupMac false .ethernet) .ethernet
        (s.ptpHeader port.val 0 44 0 x.sub n (s.rdS 4 P.LNK_PTP_LOG_SYNC) ++ ptpTime x)).out ∧
      look (port.val, 0) 0 t.ptpSeq = (n + 1) % 65536 ∧ Only (some [F.ptpSeq, P.TBS_OVER_LIMIT_COUNT]) s t) ∧
  (∀ (port : Fin 512) (tx : RawStamp) (s : State) (n : Nat) (x : Stamp), s.ptpRuns port.val = true →
    n = look (port.val, 11) 0 s.ptpSeq → x = s.txMark port.val tx →
    ∃ t : State, exec (.ptpSyncSend port true none tx) s = .next t ∧
      t.out = (s.ptpSend port.val (groupMac false .ethernet) .ethernet
        (s.ptpHeader port.val 11 64 (s.ptpFlags false) 0 n (s.rdS 4 P.LNK_PTP_LOG_ANN) ++ s.announceBody x)).out ∧
      look (port.val, 11) 0 t.ptpSeq = (n + 1) % 65536 ∧ Only (some [F.ptpSeq, P.TBS_OVER_LIMIT_COUNT]) s t) ∧
  (∀ (port : Fin 512) (c m : Nat) (tx : RawStamp) (s : State) (n : Nat) (x : Stamp) (g : Grant), s.ptpRuns port.val = true →
    (s.grants.find? fun g => g.port == port.val && g.clock == c && g.number == m && g.msg == 0 && decide (s.clock < g.ends)) = some g →
    n = look (port.val, 0) 0 s.ptpSeq → x = s.txMark port.val tx →
    ∃ t : State, exec (.ptpSyncSend port false (some (c, m)) tx) s = .next t ∧
      t.out = (s.ptpSend port.val g.mac g.path (s.ptpHeader port.val 0 44 0x0400 x.sub n g.period ++ ptpTime x)).out ∧
      Only (some [F.ptpSeq, P.TBS_OVER_LIMIT_COUNT]) s t) ∧
  (∀ (port : Fin 512) (c m : Nat) (tx : RawStamp) (s : State) (n : Nat) (x : Stamp) (g : Grant), s.ptpRuns port.val = true →
    (s.grants.find? fun g => g.port == port.val && g.clock == c && g.number == m && g.msg == 11 && decide (s.clock < g.ends)) = some g →
    n = look (port.val, 11) 0 s.ptpSeq → x = s.txMark port.val tx →
    ∃ t : State, exec (.ptpSyncSend port true (some (c, m)) tx) s = .next t ∧
      t.out = (s.ptpSend port.val g.mac g.path
        (s.ptpHeader port.val 11 64 (s.ptpFlags true) 0 n g.period ++ s.announceBody x)).out ∧ Only (some [F.ptpSeq, P.TBS_OVER_LIMIT_COUNT]) s t) ∧
  (∀ (port : Fin 512) (announce : Bool) (c m : Nat) (tx : RawStamp) (s : State),
    (∀ g ∈ s.grants, g.port = port.val → g.clock = c → g.number = m → g.ends ≤ s.clock) →
    exec (.ptpSyncSend port announce (some (c, m)) tx) s = .next s) ∧
  (∀ (port : Fin 512) (clock : BitVec 64) (number : BitVec 16) (mac : BitVec 48) (path : PtpPath) (msg : Fin 16) (period : BitVec 8)
      (duration : BitVec 32) (s : State) (d : Nat), s.ptpRuns port.val = true → (msg.val = 0 ∨ msg.val = 9 ∨ msg.val = 11) →
    -7 ≤ sgn 8 period.toNat → ((clientsOf s.grants).length < 4096 ∨ (clock.toNat, number.toNat) ∈ clientsOf s.grants) →
    d = min duration.toNat (s.rd P.LNK_PTP_GRANT_MAX) →
    ∃ t : State, exec (.ptpUnicastRequest port clock number ⟨mac, path⟩ msg period duration) s = .next t ∧
      (⟨port.val, clock.toNat, number.toNat, mac.toNat, path, msg.val, sgn 8 period.toNat, s.clock + d * 1000000000⟩ : Grant) ∈ t.grants ∧
      t.rd P.LNK_PTP_UNICAST = min 4096 (clientsOf t.grants).length ∧
      t.out = (s.ptpSend port.val mac.toNat path (s.ptpHeader port.val 12 56 0x0400 0 (look (port.val, 12) 0 s.ptpSeq) 0x7F ++
        toBe 8 clock.toNat ++ toBe 2 number.toNat ++ ([0x00, 0x05, 0x00, 0x08] ++ toBe 1 (msg.val * 16) ++
          toBe 1 period.toNat ++ toBe 4 d ++ [0, 1]))).out ∧ Only (some [F.grants, F.ptpSeq, P.LNK_PTP_REFUSED, P.LNK_PTP_UNICAST, P.TBS_OVER_LIMIT_COUNT]) s t) ∧
  (∀ (port : Fin 512) (clock : BitVec 64) (number : BitVec 16) (mac : BitVec 48) (path : PtpPath) (msg : Fin 16) (period : BitVec 8)
      (duration : BitVec 32) (s : State), s.ptpRuns port.val = true →
    ((msg.val ≠ 0 ∧ msg.val ≠ 9 ∧ msg.val ≠ 11) ∨ sgn 8 period.toNat < -7 ∨
      (4096 ≤ (clientsOf s.grants).length ∧ (clock.toNat, number.toNat) ∉ clientsOf s.grants)) →
    ∃ t : State, exec (.ptpUnicastRequest port clock number ⟨mac, path⟩ msg period duration) s = .next t ∧ t.grants = s.grants ∧
      t.rd P.LNK_PTP_REFUSED = (s.rd P.LNK_PTP_REFUSED + 1) % 2 ^ 48 ∧ t.out.length = s.out.length + 1 ∧
      Only (some [F.grants, F.ptpSeq, P.LNK_PTP_REFUSED, P.LNK_PTP_UNICAST, P.TBS_OVER_LIMIT_COUNT]) s t) ∧
  (∀ (clock : BitVec 64) (number : BitVec 16) (s : State),
    ∃ t : State, exec (.grantExpiry clock number) s = .next t ∧
      (∀ g, g ∈ t.grants ↔ g ∈ s.grants ∧ ¬ (g.clock = clock.toNat ∧ g.number = number.toNat ∧ g.ends ≤ s.clock)) ∧
      t.rd P.LNK_PTP_UNICAST = min 4096 (clientsOf t.grants).length ∧ Only (some [F.grants, P.LNK_PTP_UNICAST]) s t) ∧
  (∀ (port : Fin 512) (msg : List Byte) (mac : BitVec 48) (path : PtpPath) (rx tx : RawStamp) (s : State) (x : Stamp), s.ptpRuns port.val = true →
    44 ≤ msg.length → beAt 4 1 msg = s.rd P.LNK_PTP_DOMAIN → beAt 1 1 msg % 16 = 2 → beAt 0 1 msg % 16 = 1 →
    s.rd P.LNK_PTP_PORT_EN port.val = 1 → x = s.rxMark port.val rx →
    ∃ t : State, exec (.delayReq port msg ⟨mac, path⟩ rx tx) s = .next t ∧
      ((beAt 6 2 msg).testBit 10 = false → t.out = (s.ptpSend port.val (groupMac false path) (groupPath false path)
        (s.ptpHeader port.val 9 54 0 (sgn 64 (beAt 8 8 msg) - x.sub) (beAt 30 2 msg)
        (s.rdS 4 P.LNK_PTP_LOG_SYNC) ++ ptpTime x ++ slice 20 10 msg)).out) ∧
      ((beAt 6 2 msg).testBit 10 = true → s.delayGranted port.val msg = true → t.out = (s.ptpSend port.val mac.toNat path
        (s.ptpHeader port.val 9 54 0x0400 (sgn 64 (beAt 8 8 msg) - x.sub) (beAt 30 2 msg)
        (s.rdS 4 P.LNK_PTP_LOG_SYNC) ++ ptpTime x ++ slice 20 10 msg)).out) ∧
      ((beAt 6 2 msg).testBit 10 = true → s.delayGranted port.val msg = false → t = s.stamped port.val) ∧ Only (some [P.TBS_OVER_LIMIT_COUNT]) s t) ∧
  (∀ (port : Fin 512) (msg : List Byte) (mac : BitVec 48) (path : PtpPath) (rx tx : RawStamp) (s : State), s.ptpRuns port.val = true →
    44 ≤ msg.length → beAt 4 1 msg = s.rd P.LNK_PTP_DOMAIN → beAt 1 1 msg % 16 = 2 → beAt 0 1 msg % 16 = 2 →
    s.rd P.LNK_PTP_PORT_EN port.val = 2 →
    ∃ t : State, exec (.delayReq port msg ⟨mac, path⟩ rx tx) s = .next t ∧
      ((beAt 6 2 msg).testBit 10 = false → t.out = (s.ptpSend port.val (groupMac true path) (groupPath true path) (s.ptpHeader port.val 3
        54 0 (sgn 64 (beAt 8 8 msg) + ((s.txMark port.val tx).units - (s.rxMark port.val rx).units)) (beAt 30 2 msg) 0x7F ++
          zeros 10 ++ slice 20 10 msg)).out) ∧
      ((beAt 6 2 msg).testBit 10 = true → t.out = (s.ptpSend port.val mac.toNat path (s.ptpHeader port.val 3
        54 0x0400 (sgn 64 (beAt 8 8 msg) + ((s.txMark port.val tx).units - (s.rxMark port.val rx).units)) (beAt 30 2 msg) 0x7F ++
          zeros 10 ++ slice 20 10 msg)).out) ∧ Only (some [P.TBS_OVER_LIMIT_COUNT]) s t) ∧
  (∀ (port : Fin 512) (msg : List Byte) (mac : BitVec 48) (path : PtpPath) (rx tx : RawStamp) (s : State),
    (s.ptpRuns port.val = false ∨ msg.length < 44 ∨ beAt 4 1 msg ≠ s.rd P.LNK_PTP_DOMAIN ∨ beAt 1 1 msg % 16 ≠ 2 ∨
      beAt 0 1 msg % 16 ∉ [1, 2] ∨ s.rd P.LNK_PTP_PORT_EN port.val ≠ beAt 0 1 msg % 16) →
    exec (.delayReq port msg ⟨mac, path⟩ rx tx) s = .next (s.stamped port.val)) ∧
  ∀ (port : Fin 512) (announce : Bool) (u : Option (Nat × Nat)) (tx : RawStamp) (clock : BitVec 64) (number : BitVec 16)
      (mac : BitVec 48) (path : PtpPath) (msg : Fin 16) (period : BitVec 8) (duration : BitVec 32) (s : State), s.ptpRuns port.val = false →
    exec (.ptpSyncSend port announce u tx) s = .next s ∧
      exec (.ptpUnicastRequest port clock number ⟨mac, path⟩ msg period duration) s = .next (s.stamped port.val)

/-- With the receiver on and out of duty operation, each second writes GNS_LAST_PULSE with its TAI second and validity; the time-only
solution is that which the residual check leaves, the satellite with the largest residual beyond 5 sigma excluded and the check
repeated while satellites suffice; a valid pulse sets REF_BREF[0] from its sigma and the antenna uncertainty and is the reading of
reference 0, an invalid one leaves the reference; a survey's second with a solution counts and adds its position, and the last one
writes the mean and ends the survey, while a second without a solution, or seconds in which no pulse came, pause it; an antenna
bias over 100 mA is a SHORT that removes the bias; a cell above threshold on two dwells moves the search on and, above the
elevation mask, receives a channel; a weak one is released. With the receiver off or in duty operation nothing happens. Clauses
that go beyond the cited rules are the model's choices: log entry 47. Completion: under conditions on the state and the operands
alone, as its clauses write them, exec answers a next state with the named effect for gnsPulse, antBiasMeasure, acqCellFound,
channelRelease and navWord. -/
def Obligations.GnssPulseAndRecords : Prop :=
  (∀ (x : GnssFix) (freq osc : Int) (s : State) (y : GnssSolution) (stands out valid : Bool), s.gnssOn = true → s.gnssDuty = false →
    s.gnss.renew = false → s.gnss.mode = 1 → 0 < s.refs.length → residualCheck x.first false x.more = (y, stands, out) →
    valid = decide (stands = true ∧ satsNeeded y false ≤ y.used.length ∧ s.rd P.GNS_MIN_SATS ≤ y.used.length ∧ 1 ≤ systemsOf y ∧
      y.sigma.toNat ≤ s.rd P.GNS_SIGMA_MAX ∧ s.rd P.GNS_ANT_STATUS ≠ 3 ∧
      ((s.rd P.GNS_FLAGS).testBit 0 = false ∨ s.rd P.GNS_SPOOF_ACTION = 0)) →
    ∃ t : State, exec (.gnsPulse x freq osc) s = .next t ∧
      t.rd P.GNS_LAST_PULSE 0 / 65536 = (x.second.toNat + 19) % 2 ^ 48 ∧ (t.rd P.GNS_LAST_PULSE 0).testBit 0 = valid ∧
      (t.rd P.GNS_LAST_PULSE 0).testBit 3 = out ∧
      (valid = true → t.rd P.REF_BREF 0 =
        clampU 32 (ceilDiv (s.rd P.TBS_GNSS_K * y.sigma.toNat) 16 + s.rd P.GNS_ANT_U) ∧ (t.mon 0).pps = true ∧
        (s.qstate 0 ≠ 6 → s.sharedUp = true → t.rdS 32 P.REF_FREQ 0 = clampS 32 freq)) ∧
      (valid = false → t.rd P.REF_BREF 0 = s.rd P.REF_BREF 0 ∧ t.refs = s.refs ∧ t.rd P.REF_FREQ 0 = s.rd P.REF_FREQ 0) ∧
      t.gnss = { (s.codeLoops x.cn0).gnss with pulseAt := some s.clock } ∧ Only (some ([F.cmd, F.fault, F.fresh, F.gnss, F.refs, F.rings, F.servo, F.shadows] ++
        [F.time, P.CMD_NOTICE_DROP, P.GNS_FLAGS, P.GNS_LAST_PULSE, P.GNS_SURVEY_DONE, P.GNS_SURVEY_RESTARTS, P.GNS_SURVEY_STATE, P.GNS_SURV_SIGMA] ++
        [P.GNS_SURV_X, P.GNS_SURV_Y, P.GNS_SURV_Z, P.HLT_FAULT_COUNT, P.HLT_STICKY, P.HST_EVT_DROP, P.REF_ACTIVE, P.REF_BREF] ++
        [P.REF_DEV, P.REF_DISQ_COUNT, P.REF_FLAGS, P.REF_FREQ, P.REF_HO_C, P.REF_HO_CU, P.REF_HO_D, P.REF_HO_DU] ++
        [P.REF_HO_LEARNED, P.REF_HO_TMEAN, P.REF_HO_Y0, P.REF_HO_YU, P.REF_PHASE, P.REF_QSTATE, P.REF_SWLOG_HEAD, P.REF_SWLOG_INFO] ++
        [P.REF_SWLOG_TIME, P.REF_TSTATE, P.TBS_BOUND_NOW, P.TBS_BOUND_PS, P.TBS_DOM_SELECTED, P.TBS_LEAP, P.TBS_UTC_OFFSET, P.TBS_UTC_VALID])) s t) ∧
  (∀ (x : GnssFix) (freq osc : Int) (s : State) (p : Int × Int × Int), s.gnssOn = true → s.gnssDuty = false → s.gnss.renew = false →
    s.gnss.mode = 0 → s.rd P.GNS_SURVEY_STATE = 0 → s.pulseGap = 0 → x.first.position = some p → 1 ≤ systemsOf x.first →
    satsNeeded x.first true ≤ x.first.used.length → s.rd P.GNS_MIN_SATS ≤ x.first.used.length →
    ∃ t : State, exec (.gnsPulse x freq osc) s = .next t ∧ t.rd P.GNS_SURVEY_DONE = s.rd P.GNS_SURVEY_DONE + 1 ∧
      t.gnss.sumX = s.gnss.sumX + p.1 ∧ t.gnss.sumY = s.gnss.sumY + p.2.1 ∧ t.gnss.sumZ = s.gnss.sumZ + p.2.2 ∧
      (s.rd P.GNS_SURVEY_DONE + 1 < s.rd P.GNS_SURVEY_TIME → t.rd P.GNS_SURVEY_STATE = 0) ∧
      (s.rd P.GNS_SURVEY_TIME ≤ s.rd P.GNS_SURVEY_DONE + 1 → t.rd P.GNS_SURVEY_STATE = 2 ∧
        t.rdS 64 P.GNS_SURV_X = clampS 64 (roundDiv (s.gnss.sumX + p.1) (s.rd P.GNS_SURVEY_DONE + 1)) ∧
        t.rdS 64 P.GNS_SURV_Y = clampS 64 (roundDiv (s.gnss.sumY + p.2.1) (s.rd P.GNS_SURVEY_DONE + 1)) ∧
        t.rdS 64 P.GNS_SURV_Z = clampS 64 (roundDiv (s.gnss.sumZ + p.2.2) (s.rd P.GNS_SURVEY_DONE + 1))) ∧
      Only (some ([F.cmd, F.fault, F.fresh, F.gnss, F.refs, F.rings, F.servo, F.shadows] ++
        [F.time, P.CMD_NOTICE_DROP, P.GNS_FLAGS, P.GNS_LAST_PULSE, P.GNS_SURVEY_DONE, P.GNS_SURVEY_RESTARTS, P.GNS_SURVEY_STATE, P.GNS_SURV_SIGMA] ++
        [P.GNS_SURV_X, P.GNS_SURV_Y, P.GNS_SURV_Z, P.HLT_FAULT_COUNT, P.HLT_STICKY, P.HST_EVT_DROP, P.REF_ACTIVE, P.REF_BREF] ++
        [P.REF_DEV, P.REF_DISQ_COUNT, P.REF_FLAGS, P.REF_FREQ, P.REF_HO_C, P.REF_HO_CU, P.REF_HO_D, P.REF_HO_DU] ++
        [P.REF_HO_LEARNED, P.REF_HO_TMEAN, P.REF_HO_Y0, P.REF_HO_YU, P.REF_PHASE, P.REF_QSTATE, P.REF_SWLOG_HEAD, P.REF_SWLOG_INFO] ++
        [P.REF_SWLOG_TIME, P.REF_TSTATE, P.TBS_BOUND_NOW, P.TBS_BOUND_PS, P.TBS_DOM_SELECTED, P.TBS_LEAP, P.TBS_UTC_OFFSET, P.TBS_UTC_VALID])) s t) ∧
  (∀ (x : GnssFix) (freq osc : Int) (s : State), s.gnssOn = true → s.gnssDuty = false → s.gnss.renew = false →
    s.gnss.mode = 0 → s.rd P.GNS_SURVEY_STATE = 0 → 0 < s.pulseGap ∨ x.first.position = none →
    ∃ t : State, exec (.gnsPulse x freq osc) s = .next t ∧ t.rd P.GNS_SURVEY_STATE = 1 ∧
      t.rd P.GNS_SURVEY_DONE = s.rd P.GNS_SURVEY_DONE ∧ t.gnss.sumX = s.gnss.sumX ∧ t.gnss.sumY = s.gnss.sumY ∧
      t.gnss.sumZ = s.gnss.sumZ ∧ Only (some ([F.cmd, F.fault, F.fresh, F.gnss, F.refs, F.rings, F.servo, F.shadows] ++
        [F.time, P.CMD_NOTICE_DROP, P.GNS_FLAGS, P.GNS_LAST_PULSE, P.GNS_SURVEY_DONE, P.GNS_SURVEY_RESTARTS, P.GNS_SURVEY_STATE, P.GNS_SURV_SIGMA] ++
        [P.GNS_SURV_X, P.GNS_SURV_Y, P.GNS_SURV_Z, P.HLT_FAULT_COUNT, P.HLT_STICKY, P.HST_EVT_DROP, P.REF_ACTIVE, P.REF_BREF] ++
        [P.REF_DEV, P.REF_DISQ_COUNT, P.REF_FLAGS, P.REF_FREQ, P.REF_HO_C, P.REF_HO_CU, P.REF_HO_D, P.REF_HO_DU] ++
        [P.REF_HO_LEARNED, P.REF_HO_TMEAN, P.REF_HO_Y0, P.REF_HO_YU, P.REF_PHASE, P.REF_QSTATE, P.REF_SWLOG_HEAD, P.REF_SWLOG_INFO] ++
        [P.REF_SWLOG_TIME, P.REF_TSTATE, P.TBS_BOUND_NOW, P.TBS_BOUND_PS, P.TBS_DOM_SELECTED, P.TBS_LEAP, P.TBS_UTC_OFFSET, P.TBS_UTC_VALID])) s t) ∧
  (∀ (ma : BitVec 16) (s : State), s.gnssOn = true → 100 < ma.toNat →
    ∃ t : State, exec (.antBiasMeasure ma) s = .next t ∧ t.rd P.GNS_ANT_STATUS = 3 ∧ (t.rd P.GNS_FLAGS).testBit 1 = true ∧
      t.gnss = { s.gnss with biasOff := true } ∧ (t.rd P.HLT_STICKY).testBit 3 = true ∧ Only (some [F.cmd, F.fault, F.gnss, F.rings, P.CMD_NOTICE_DROP, P.GNS_ANT_STATUS, P.GNS_FLAGS, P.HLT_FAULT_COUNT,
        P.HLT_STICKY]) s t) ∧
  (∀ (ma : BitVec 16) (s : State), s.gnssOn = true → ma.toNat ≤ 100 →
    ∃ t : State, exec (.antBiasMeasure ma) s = .next t ∧
      t.rd P.GNS_ANT_STATUS = (if s.rd P.GNS_ANT_BIAS = 0 ∨ s.gnss.biasOff = true then 0 else if ma.toNat < 2 then 2 else 1) ∧
      Only (some [P.GNS_ANT_STATUS]) s t) ∧
  (∀ (signal : Fin 5) (sat : BitVec 8) (elev : Fin 91) (bin : Int) (chip first second : Nat) (s : State) (c : GnssChannel),
    s.gnssOn = true → s.gnssDuty = false → s.rd P.GNS_ACQ_THRESH < first → s.rd P.GNS_ACQ_THRESH < second →
    500 * bin.natAbs ≤ s.rd P.GNS_ACQ_DOPPLER → (s.rd P.GNS_SIGNALS).testBit signal.val = true →
    c = ⟨signal.val, sat.toNat, elev.val, bin, chip, false⟩ →
    ∃ t : State, exec (.acqCellFound signal sat elev ⟨bin, chip⟩ first second) s = .next t ∧
      t.gnss.search = s.nextSearch (signal.val, sat.toNat) ∧
      (s.rd P.GNS_ELEV_MASK < elev.val → (∀ y ∈ s.gnss.channels, y.signal ≠ signal.val ∨ y.sat ≠ sat.toNat) →
        s.gnss.channels.length < 64 →
        t.gnss.channels = s.gnss.channels ++ [c] ∧ t.rd P.GNS_SATS_TRACKED = s.gnss.channels.length + 1) ∧
      (s.rd P.GNS_ELEV_MASK < elev.val → (∀ y ∈ s.gnss.channels, y.signal ≠ signal.val ∨ y.sat ≠ sat.toNat) →
        64 ≤ s.gnss.channels.length → (∀ y ∈ s.gnss.channels, elev.val ≤ y.elev) → t.gnss.channels = s.gnss.channels) ∧
      (elev.val ≤ s.rd P.GNS_ELEV_MASK ∨ (∃ y ∈ s.gnss.channels, y.signal = signal.val ∧ y.sat = sat.toNat) →
        t.gnss.channels = s.gnss.channels) ∧
      Only (some [F.gnss, P.GNS_SATS_TRACKED]) s t) ∧
  (∀ (signal : Fin 5) (sat : BitVec 8) (elev : Fin 91) (bin : Int) (chip first second : Nat) (s : State),
    (s.gnssOn = false ∨ s.gnssDuty = true ∨ first ≤ s.rd P.GNS_ACQ_THRESH ∨ second ≤ s.rd P.GNS_ACQ_THRESH ∨
      s.rd P.GNS_ACQ_DOPPLER < 500 * bin.natAbs ∨ (s.rd P.GNS_SIGNALS).testBit signal.val = false) →
    exec (.acqCellFound signal sat elev ⟨bin, chip⟩ first second) s = .next s) ∧
  (∀ (signal : Fin 5) (sat : BitVec 8) (cn0 : BitVec 6) (s : State), s.gnssOn = true → s.gnssDuty = false →
    cn0.toNat < s.rd P.GNS_CN0_MIN →
    ∃ t : State, exec (.channelRelease signal sat cn0) s = .next t ∧
      (∀ y, y ∈ t.gnss.channels ↔ y ∈ s.gnss.channels ∧ ¬ (y.signal = signal.val ∧ y.sat = sat.toNat)) ∧
      t.rd P.GNS_SATS_TRACKED = t.gnss.channels.length ∧ Only (some [F.gnss, P.GNS_SATS_TRACKED]) s t) ∧
  (∀ (signal : Fin 5) (sat : BitVec 8) (cn0 : BitVec 6) (s : State), s.gnssOn = false ∨ s.gnssDuty = true ∨
    s.rd P.GNS_CN0_MIN ≤ cn0.toNat → exec (.channelRelease signal sat cn0) s = .next s) ∧
  (∀ (message : Fin 5) (sat : BitVec 8) (ok l5 : Bool) (bits : BitVec 8) (time : BitVec 64) (data : List Byte) (s : State),
    s.gnssOn = true → s.gnssDuty = false → s.rd P.GNS_RING < 16 →
    ∃ t : State, exec (.navWord message sat ok l5 bits time data) s = .next t ∧
      t = (s.evtRing (s.rd P.GNS_RING) 2 (toBe 1 message.val ++ toBe 1 sat.toNat ++ toBe 1 (b2n ok + 2 * b2n l5) ++
        toBe 1 bits.toNat ++ toBe 8 time.toNat ++ zeros 4 ++ data.take 80)).1 ∧ Only (some [F.rings, P.HST_EVT_DROP]) s t) ∧
  ∀ (x : GnssFix) (freq osc : Int) (message : Fin 5) (sat : BitVec 8) (ok l5 : Bool) (bits : BitVec 8) (time : BitVec 64)
      (data : List Byte) (ma : BitVec 16) (s : State),
    (s.gnssOn = false ∨ s.gnssDuty = true → exec (.gnsPulse x freq osc) s = .next s) ∧
    (s.gnssOn = false ∨ s.gnssDuty = true ∨ 16 ≤ s.rd P.GNS_RING →
      exec (.navWord message sat ok l5 bits time data) s = .next s) ∧
    (s.gnssOn = false → exec (.antBiasMeasure ma) s = .next s)

/-- A GNSS_SNAPSHOT within its ranges starts a capture while the receiver runs, no other snapshot runs and master 13 is not frozen,
and is refused otherwise; its end writes the samples into banks 8 and 12, the offset that processing found, the SPOOF_SUSPECT flag
where that exceeds the tolerance, and answers DONE, or ABORTED where master 13, or master 3 for a capture to the host, is frozen;
a duty snapshot writes 20 ms of L1 samples and its offset at its period, and pauses a survey that was running. Clauses that go
beyond the cited rules are the model's choices: log entry 48. Completion: under conditions on the state and the operands alone, as
its clauses write them, exec answers a next state with the named effect for gnsSnapshot, snapshotCaptureDone and dutySnapshot. -/
def Obligations.GnssSnapshotsComplete : Prop :=
  (∀ (rq : Request) (s : State) (x : Session), s.taken Op.GNS_SNAPSHOT rq x → 2 ≤ beAt 0 2 rq.payload → beAt 0 2 rq.payload ≤ 128 →
    1 ≤ beAt 2 1 rq.payload → beAt 2 1 rq.payload ≤ 3 → beAt 3 1 rq.payload ≤ 2 → s.gnssOn = true → s.gnss.capture = none →
    s.frozenMaster 13 = false →
    ∃ t : State, exec (.gnsSnapshot rq) s = .next t.settle ∧
      t.gnss = { s.gnss with capture := some ⟨originOf x Op.GNS_SNAPSHOT rq, beAt 0 2 rq.payload, beAt 2 1 rq.payload,
        beAt 3 1 rq.payload, beAt 4 8 rq.payload, s.now⟩ } ∧ t.accepted x ∧
      Only (some [F.cmd, F.rings, F.gnss, P.CMD_REFUSED_COUNT, P.TBS_OVER_LIMIT_COUNT]) s t) ∧
  (∀ (rq : Request) (s : State) (x : Session) (st : Nat), s.taken Op.GNS_SNAPSHOT rq x →
    (((beAt 0 2 rq.payload < 2 ∨ 128 < beAt 0 2 rq.payload ∨ beAt 2 1 rq.payload = 0 ∨ 3 < beAt 2 1 rq.payload ∨
        2 < beAt 3 1 rq.payload) ∧ st = Status.BAD_VALUE) ∨
      (2 ≤ beAt 0 2 rq.payload ∧ beAt 0 2 rq.payload ≤ 128 ∧ 1 ≤ beAt 2 1 rq.payload ∧ beAt 2 1 rq.payload ≤ 3 ∧
        beAt 3 1 rq.payload ≤ 2 ∧ ((s.gnssOn = false ∧ st = Status.NOT_READY) ∨
          (s.gnssOn = true ∧ s.gnss.capture.isSome = true ∧ st = Status.IN_PROGRESS) ∨
          (s.gnssOn = true ∧ s.gnss.capture = none ∧ s.frozenMaster 13 = true ∧ st = Status.ABORTED)))) →
    ∃ t : State, exec (.gnsSnapshot rq) s = .next t.settle ∧ t.replied x Op.GNS_SNAPSHOT rq st [] ∧
      Only (some [F.cmd, F.rings, P.CMD_REFUSED_COUNT, P.TBS_OVER_LIMIT_COUNT]) s t) ∧
  (∀ (l1 l5 : List Byte) (offset : Option Int) (sats : Fin 65) (s : State) (c : Capture) (shown : Nat), s.gnss.capture = some c →
    s.frozenMaster 13 = false → (c.action = 1 ∨ (s.frozenMaster 3 = false ∧ s.linkUp = true)) → c.ms ≤ 128 →
    (s.sessionUid c.origin.uid).isSome = true →
    shown = (match (if c.action = 0 then none else offset) with | some d => raw 64 (clampS 64 d) | none => 2 ^ 63) →
    ∃ t : State, exec (.snapshotCaptureDone l1 l5 offset sats) s = .next t ∧ t.gnss = { s.gnss with capture := none } ∧
      (∀ i, i < 64000 * c.ms → c.bands.testBit 0 = true → t.padByte (0x1000000 + i) = (fit (64000 * c.ms) l1).getD i 0) ∧
      (∀ i, i < 64000 * c.ms → c.bands.testBit 1 = true → t.padByte (0x1800000 + i) = (fit (64000 * c.ms) l5).getD i 0) ∧
      (c.action ≠ 0 → t.rd P.GNS_SNAP_OFFSET = shown ∧
        ∀ d, offset = some d → s.rd P.GNS_SPOOF_TOL < d.natAbs → (t.rd P.GNS_FLAGS).testBit 0 = true) ∧
      (c.action = 0 → t.rd P.GNS_SNAP_OFFSET = s.rd P.GNS_SNAP_OFFSET) ∧
      t.answered c.origin Status.DONE (toBe 8 c.start ++ toBe 4 (64000 * c.ms) ++ toBe 8 shown ++
        toBe 1 (if c.action = 0 then 0 else sats.val) ++ zeros 3) ∧ Only (some [F.cmd, F.gnss, F.pad, F.rings, P.CMD_REFUSED_COUNT, P.GNS_FLAGS, P.GNS_SNAP_OFFSET, P.TBS_OVER_LIMIT_COUNT]) s t) ∧
  (∀ (l1 l5 : List Byte) (offset : Option Int) (sats : Fin 65) (s : State) (c : Capture), s.gnss.capture = some c →
    (s.frozenMaster 13 = true ∨ (c.action ≠ 1 ∧ (s.frozenMaster 3 = true ∨ s.linkUp = false))) →
    (s.sessionUid c.origin.uid).isSome = true →
    ∃ t : State, exec (.snapshotCaptureDone l1 l5 offset sats) s = .next t ∧ t.gnss = { s.gnss with capture := none } ∧
      t.answered c.origin Status.ABORTED [] ∧ t.pad = s.pad ∧
      Only (some [F.cmd, F.rings, F.gnss, P.CMD_REFUSED_COUNT, P.TBS_OVER_LIMIT_COUNT]) s t) ∧
  (∀ (l1 l5 : List Byte) (offset : Option Int) (sats : Fin 65) (s : State), s.gnss.capture = none →
    exec (.snapshotCaptureDone l1 l5 offset sats) s = .next s) ∧
  (∀ (l1 : List Byte) (offset : Option Int) (s : State), s.gnssOn = true → s.gnssDuty = true → s.frozenMaster 13 = false →
    s.gnss.dutyAt + 1000000000 * s.rd P.GNS_DUTY_PERIOD ≤ s.clock →
    ∃ t : State, exec (.dutySnapshot ⟨l1, offset⟩) s = .next t ∧ t.gnss.dutyAt = s.clock ∧ t.gnss.channels = s.gnss.channels ∧
      (∀ i, i < 1280000 → t.padByte (0x1000000 + i) = (fit 1280000 l1).getD i 0) ∧
      t.rd P.GNS_SNAP_OFFSET = (match offset with | some d => raw 64 (clampS 64 d) | none => 2 ^ 63) ∧ t.rd P.GNS_SATS_TRACKED = 0 ∧
      (∀ d, offset = some d → s.rd P.GNS_SPOOF_TOL < d.natAbs → (t.rd P.GNS_FLAGS).testBit 0 = true) ∧
      t.rd P.GNS_SURVEY_STATE = (if s.gnss.mode = 0 ∧ s.rd P.GNS_SURVEY_STATE = 0 then 1 else s.rd P.GNS_SURVEY_STATE) ∧
      Only (some [F.gnss, F.pad, P.GNS_FLAGS, P.GNS_SATS_TRACKED, P.GNS_SNAP_OFFSET, P.GNS_SURVEY_STATE]) s t) ∧
  ∀ (l1 : List Byte) (offset : Option Int) (s : State), (s.gnssOn = false ∨ s.gnssDuty = false ∨ s.frozenMaster 13 = true ∨
      s.clock < s.gnss.dutyAt + 1000000000 * s.rd P.GNS_DUTY_PERIOD) → exec (.dutySnapshot ⟨l1, offset⟩) s = .next s

/-- A selected edge of an enabled input that does not come within 1.25 us of the last one is stamped with the tick, the vernier code's
width sum and the input's delay, counted, put into the input's ring where it has room, and taken by the interval accumulators of
the input; one that comes too early is counted as missed and not stamped; an edge that the input does not take, or one while the
shared blocks of the timing die or the calibration engine have no power, is only seen. EVT_STATS settles the edges whose window
has passed, returns an accumulator's figures and clears it on request; the end of a code-density run of a good spare unit writes
its widths and makes it ready, a bad one raises the flag; without power neither happens; the ready spare becomes live after 2 us
in which the input has seen no edge. Clauses that go beyond the cited rules are the model's choices: log entry 49. Completion:
under conditions on the state and the operands alone, as its clauses write them, exec answers a next state with the named effect
for evtEdge, evtStats, codeDensityEnd and vernierUnitChange. -/
def Obligations.EventInputsStampAndCount : Prop :=
  (∀ (input : Fin 9) (rising : Bool) (tick : Nat) (code : Fin 513) (s : State) (ps : Int), s.evtTakes input.val rising = true →
    (∀ c, (s.evtInput input.val).last = some c → c + 1250 ≤ s.clock) → ps = s.evtTime input.val tick code.val →
    ∃ t : State, exec (.evtEdge input rising tick code) s = .next t ∧ (t.evtInput input.val).stamp = some ps ∧
      (t.evtInput input.val).last = some s.clock ∧ t.rd P.EVT_COUNT input.val = (s.rd P.EVT_COUNT input.val + 1) % 2 ^ 48 ∧
      t.rd P.EVT_MISSED input.val = s.rd P.EVT_MISSED input.val ∧
      (code.val = 512 → t.rd P.EVT_OOR input.val = (s.rd P.EVT_OOR input.val + 1) % 2 ^ 48 ∧
        (t.rd P.EVT_FLAGS).testBit 1 = true) ∧
      (code.val ≠ 512 → t.rd P.EVT_OOR input.val = s.rd P.EVT_OOR input.val) ∧
      (∀ k, k < 8 → s.rd P.EVT_ACC_MODE k = 1 → s.rd P.EVT_ACC_A k = input.val → (s.acc k).done = false → s.frozenMaster 6 = false →
        t.acc k = { (match (s.acc k).prev with | some x => (s.acc k).take (s.rd P.EVT_ACC_N k) (ps - x) | none => s.acc k) with
          prev := some ps }) ∧
      (∀ n r, s.rd P.EVT_RING input.val = n → n < 16 → s.ring (144 + n) = some r → s.rd P.HST_RING_STATE (144 + n) = 1 →
        s.linkUp = true → 2 ≤ r.size - r.prod % r.size → inUse r.prod r.cons + 2 ≤ r.size →
        ∃ q, t.ring (144 + n) = some q ∧ q.prod = advance r.prod 2 ∧ (t.evtInput input.val).missed = 0) ∧
      Only (some [F.cal, F.evtAccs, F.evtInputs, F.linkRun, F.rings, F.tcal, P.EVT_COUNT, P.EVT_FLAGS,
        P.EVT_MISSED, P.EVT_OOR, P.HST_EVT_DROP, P.TBS_OVER_LIMIT_COUNT]) s t) ∧
  (∀ (input : Fin 9) (rising : Bool) (tick : Nat) (code : Fin 513) (s : State) (c : Nat), s.evtTakes input.val rising = true →
    (s.evtInput input.val).last = some c → s.clock < c + 1250 →
    ∃ t : State, exec (.evtEdge input rising tick code) s = .next t ∧
      t.rd P.EVT_MISSED input.val = (s.rd P.EVT_MISSED input.val + 1) % 2 ^ 48 ∧
      t.evtInput input.val = { s.evtInput input.val with missed := (s.evtInput input.val).missed + 1, seen := some s.clock } ∧
      Only (some [F.evtInputs, F.evtAccs, P.EVT_MISSED]) s t) ∧
  (∀ (input : Fin 9) (rising : Bool) (tick : Nat) (code : Fin 513) (s : State), s.evtTakes input.val rising = false →
    exec (.evtEdge input rising tick code) s = .next (s.setEvt input.val fun x => { x with seen := some s.clock })) ∧
  (∀ (rq : Request) (s : State) (x : Session) (k : Nat) (a : EvtAcc), s.taken Op.EVT_STATS rq x → beAt 0 1 rq.payload = k → k ≤ 7 →
    a = (s.accSettle k).acc k →
    ∃ t : State, exec (.evtStats rq) s = .next t.settle ∧
      t.replied x Op.EVT_STATS rq Status.OK (toBe 1 k ++ toBe 1 (s.rd P.EVT_ACC_MODE k) ++
        toBe 1 (if s.rd P.EVT_ACC_MODE k = 0 then 0 else if a.done = true then 2 else 1) ++ [0] ++ toBe 8 a.n ++
        toBe 8 (raw 64 (if a.n = 0 then 0 else roundDiv (1000 * a.sum) a.n)) ++
        toBe 8 (clampU 64 a.sigmaFs) ++ toBe 8 (raw 64 a.least) ++ toBe 8 (raw 64 a.most) ++
        toBe 4 (clampU 32 a.unmatched) ++ toBe 4 (clampU 32 a.missed)) ∧
      t.acc k = (if (beAt 1 1 rq.payload).testBit 0 = true then EvtAcc.blank k else a) ∧
      Only (some [F.cmd, F.rings, F.evtAccs, P.CMD_REFUSED_COUNT, P.TBS_OVER_LIMIT_COUNT]) s t) ∧
  (∀ (rq : Request) (s : State) (x : Session), s.taken Op.EVT_STATS rq x → 7 < beAt 0 1 rq.payload →
    ∃ t : State, exec (.evtStats rq) s = .next t.settle ∧ t.replied x Op.EVT_STATS rq Status.BAD_VALUE [] ∧
      Only (some [F.cmd, F.rings, P.CMD_REFUSED_COUNT, P.TBS_OVER_LIMIT_COUNT]) s t) ∧
  (∀ (input : Fin 9) (hits : List Nat) (oor : Nat) (rms : BitVec 16) (delay : BitVec 32) (s : State) (u total used : Nat)
      (h : List Nat),
    s.calUp = true → s.sharedUp = true → u = 2 * input.val + (1 - s.rd P.EVT_LIVE_UNIT input.val) → h = (hits ++ List.replicate 512 0).take 512 → total = h.foldl (· + ·) 0 →
    used = codesUsed h → total = 2 ^ s.rd P.EVT_CD_HITS → (∀ k, k < used → h.getD k 0 ≠ 0) → oor ≤ 2 ^ (s.rd P.EVT_CD_HITS - 13) →
    inlWorst total used h 0 0 0 ≤ s.rd P.EVT_INL_MAX * (total * used) →
    ∃ t : State, exec (.codeDensityEnd input hits oor rms delay) s = .next t ∧
      (∀ c, c < 512 → t.rd P.EVT_CD_WIDTH (512 * u + c) =
        clampU 16 (roundDiv ((h.getD c 0 * 2000000 : Nat) : Int) total).toNat) ∧
      t.rd P.EVT_INL u = clampU 16 (ceilDiv (inlWorst total used h 0 0 0) (total * used)) ∧ t.rd P.EVT_SS_RMS u = rms.toNat ∧
      look u 0 t.cal.evtDelay = offLeg 1 input.val 0 delay.toNat ∧ look u [] t.cal.hits = h ∧ input.val ∈ t.cal.spare ∧ Only (some [F.cal, F.cmd, F.fault, F.rings, P.CMD_NOTICE_DROP, P.EVT_CD_WIDTH, P.EVT_FLAGS, P.EVT_INL,
        P.EVT_SS_RMS, P.HLT_FAULT_COUNT, P.HLT_STICKY]) s t) ∧
  (∀ (input : Fin 9) (hits : List Nat) (oor : Nat) (rms : BitVec 16) (delay : BitVec 32) (s : State),
    s.calUp = true → s.sharedUp = true → ((hits ++ List.replicate 512 0).take 512).foldl (· + ·) 0 ≠ 2 ^ s.rd P.EVT_CD_HITS ∨ 2 ^ (s.rd P.EVT_CD_HITS - 13) < oor →
    ∃ t : State, exec (.codeDensityEnd input hits oor rms delay) s = .next t ∧ (t.rd P.EVT_FLAGS).testBit 0 = true ∧
      (t.rd P.HLT_STICKY).testBit 4 = true ∧ t.cal = s.cal ∧ (∀ c, t.rd P.EVT_CD_WIDTH c = s.rd P.EVT_CD_WIDTH c) ∧
      Only (some [F.cal, F.cmd, F.fault, F.rings, P.CMD_NOTICE_DROP, P.EVT_CD_WIDTH, P.EVT_FLAGS, P.EVT_INL,
        P.EVT_SS_RMS, P.HLT_FAULT_COUNT, P.HLT_STICKY]) s t) ∧
  (∀ (input : Fin 9) (hits : List Nat) (oor : Nat) (rms : BitVec 16) (delay : BitVec 32) (s : State),
    s.calUp = false ∨ s.sharedUp = false → exec (.codeDensityEnd input hits oor rms delay) s = .next s) ∧
  (∀ (input : Fin 9) (s : State), input.val ∈ s.cal.spare → (∀ c, (s.evtInput input.val).seen = some c → c + 2000 ≤ s.clock) →
    ∃ t : State, exec (.vernierUnitChange input) s = .next t ∧
      t.rd P.EVT_LIVE_UNIT input.val = 1 - s.rd P.EVT_LIVE_UNIT input.val ∧ t.cal.spare = s.cal.spare.erase input.val ∧
      t.rd P.CAL_EVT_DELAY input.val = look (2 * input.val + (1 - s.rd P.EVT_LIVE_UNIT input.val)) 0 s.cal.evtDelay ∧
      Only (some ([F.cal, F.cmd, F.fault, F.fresh, F.refs, F.rings, F.servo, P.CAL_EVT_DELAY] ++
        [P.CAL_OUT_RES, P.CAL_PORT_RES, P.CAL_REFIN_RES, P.CMD_NOTICE_DROP, P.EVT_LIVE_UNIT, P.EVT_RES, P.HLT_FAULT_COUNT, P.HLT_STICKY] ++
        [P.REF_ACTIVE, P.REF_BREF, P.REF_DEV, P.REF_FLAGS, P.REF_HO_C, P.REF_HO_D, P.REF_HO_Y0, P.REF_KIND] ++
        [P.REF_QSTATE, P.REF_SWLOG_HEAD, P.REF_SWLOG_INFO, P.REF_SWLOG_TIME, P.REF_TSTATE, P.TBS_BOUND_NOW, P.TBS_BOUND_PS, P.TBS_DOM_SELECTED])) s t) ∧
  ∀ (input : Fin 9) (s : State), (input.val ∉ s.cal.spare ∨ ∃ c, (s.evtInput input.val).seen = some c ∧ s.clock < c + 2000) →
    exec (.vernierUnitChange input) s = .next s

/-- A CAL_RUN of a legal range starts where no run is in progress, master 5 is not frozen and the calibration engine has power, and is
refused otherwise; a lane item of the run that ends with a result has its delays, tap table, CK_LKT phase, residual and
temperatures in force and is counted, any item of a run, of the start or triggered by itself has its measured delays and
temperature in force, one without a result is counted failed, and one during which a sensor moved goes on; the run whose items
have all ended answers DONE with its figures, a TRACE run with its offset, uncertainty and time, and a LINK run leaves the
measured asymmetry and residual in the shadows; a sensor that moves too far, a lane's own or that of its switch die, triggers an
automatic item, which asks for its wake where no run is in progress. Clauses that go beyond the cited rules are the model's
choices: log entries 11, 50. Completion: under conditions on the state and the operands alone, as its clauses write them, exec
answers a next state with the named effect for calRun, calItemEnd, calRunDone, calAutoTrigger and portResUpdate. -/
def Obligations.CalibrationRuns : Prop :=
  (∀ (rq : Request) (s : State) (x : Session) (items : List CalItem), s.taken Op.CAL_RUN rq x →
    scopeLegal (beAt 0 1 rq.payload) (beAt 2 2 rq.payload) (beAt 4 2 rq.payload) = true → s.cal.run = none → s.frozenMaster 5 = false →
    s.calUp = true → beAt 0 1 rq.payload ≤ 4 → items = scopeItems (beAt 0 1 rq.payload) (beAt 2 2 rq.payload) (beAt 4 2 rq.payload) →
    ∃ (t : State) (todo : List CalItem), exec (.calRun rq) s = .next t.settle ∧
      t.cal.run = some ⟨originOf x Op.CAL_RUN rq, beAt 0 1 rq.payload, todo, 0, items.length - todo.length, 0, 0, []⟩ ∧
      (∀ i, i ∈ todo ↔ i ∈ items ∧ (i.kind = 0 → 5 ≤ s.laneState i.index)) ∧ t.accepted x ∧ Only (some [F.cal, F.cmd, F.fresh, F.linkRun, F.power, F.rings, P.CMD_REFUSED_COUNT, P.PWR_WAKE_QUEUE_LEN,
        P.PWR_WAKE_SLOPE, P.TBS_OVER_LIMIT_COUNT]) s t) ∧
  (∀ (rq : Request) (s : State) (x : Session), s.taken Op.CAL_RUN rq x → beAt 0 1 rq.payload = 5 → beAt 2 2 rq.payload = 0 →
    beAt 4 2 rq.payload = 0 → s.cal.run = none → s.frozenMaster 5 = false → s.calUp = true → s.calInActive = true → s.rd P.CAL_REF_U ≠ 0xFFFFFFFF →
    ∃ t : State, exec (.calRun rq) s = .next t.settle ∧ t.cal.run = some ⟨originOf x Op.CAL_RUN rq, 5, [], 0, 0, 0, 0, []⟩ ∧
      t.accepted x ∧ Only (some [F.cal, F.cmd, F.fresh, F.linkRun, F.power, F.rings, P.CMD_REFUSED_COUNT, P.PWR_WAKE_QUEUE_LEN,
        P.PWR_WAKE_SLOPE, P.TBS_OVER_LIMIT_COUNT]) s t) ∧
  (∀ (rq : Request) (s : State) (x : Session) (p : Nat), s.taken Op.CAL_RUN rq x → beAt 0 1 rq.payload = 6 →
    beAt 2 2 rq.payload = p → p < 512 → beAt 4 2 rq.payload = 1 → s.cal.run = none → s.frozenMaster 5 = false →
    s.calUp = true → s.linkCalReady p = true →
    ∃ (t : State) (l : LinkRun), exec (.calRun rq) s = .next t.settle ∧ t.linkRun = some l ∧ l.port = p ∧
      l.count = s.rd P.LNK_ACAL_N ∧ l.own = [] ∧ l.theirs = [] ∧
      t.cal.run = some ⟨originOf x Op.CAL_RUN rq, 6, [], 0, 0, 0, 0, []⟩ ∧ t.accepted x ∧ Only (some [F.cal, F.cmd, F.fresh, F.linkRun, F.power, F.rings, P.CMD_REFUSED_COUNT, P.PWR_WAKE_QUEUE_LEN,
        P.PWR_WAKE_SLOPE, P.TBS_OVER_LIMIT_COUNT]) s t) ∧
  (∀ (rq : Request) (s : State) (x : Session) (st : Nat), s.taken Op.CAL_RUN rq x →
    ((scopeLegal (beAt 0 1 rq.payload) (beAt 2 2 rq.payload) (beAt 4 2 rq.payload) = false ∧ st = Status.BAD_VALUE) ∨
      (scopeLegal (beAt 0 1 rq.payload) (beAt 2 2 rq.payload) (beAt 4 2 rq.payload) = true ∧
        ((s.cal.run.isSome = true ∧ st = Status.IN_PROGRESS) ∨
          (s.cal.run = none ∧ s.frozenMaster 5 = true ∧ st = Status.ABORTED) ∨
          (s.cal.run = none ∧ s.frozenMaster 5 = false ∧ st = Status.NOT_READY ∧
            (s.calUp = false ∨ (beAt 0 1 rq.payload = 5 ∧ (s.calInActive = false ∨ s.rd P.CAL_REF_U = 0xFFFFFFFF)) ∨
              (beAt 0 1 rq.payload = 6 ∧ s.linkCalReady (beAt 2 2 rq.payload) = false)))))) →
    ∃ t : State, exec (.calRun rq) s = .next t.settle ∧ t.replied x Op.CAL_RUN rq st [] ∧
      Only (some [F.cmd, F.rings, P.CMD_REFUSED_COUNT, P.TBS_OVER_LIMIT_COUNT]) s t) ∧
  (∀ (l : Fin 512) (m : CalMeasure) (s : State) (r : CalRun) (v : Nat), s.cal.run = some r → (⟨0, l.val⟩ : CalItem) ∈ r.todo →
    s.calUp = true → m.moved = false → m.ok = true →
    v = (if s.flash.certValid = false then s.rd P.TBS_FREE_Q else max (clampU 16 ((Config.legU 0 l.val 0).toNat + threeSigma (m.sigmas.getD 0 0) (s.rd P.CAL_N) + 1))
      (clampU 16 ((Config.legU 0 l.val 1).toNat + threeSigma (m.sigmas.getD 1 0) (s.rd P.CAL_N) + 1))) →
    ∃ t : State, exec (.calItemEnd 0 l m) s = .next t ∧ t.rd P.CAL_DRX l.val = offLeg 0 l.val 0 (m.delays.getD 0 0) ∧
      t.rd P.CAL_DTX l.val = offLeg 0 l.val 1 (m.delays.getD 1 0) ∧ look (l.val / 4) 0 t.cal.lkt = m.delays.getD 2 0 ∧
      look l.val [] t.cal.taps = m.taps ∧ getItem ⟨0, l.val⟩ t.cal.tcalDie = some (s.switchDie l.val) ∧ t.rdS 16 P.CAL_LANE_TCAL l.val = clampS 16 m.temp ∧
      t.rd P.CAL_PORT_RES l.val = v ∧ t.cal.run = some { r with todo := r.todo.erase ⟨0, l.val⟩, measured := r.measured + 1, worst := max r.worst v } ∧
      Only (some ([F.cal, F.cmd, F.fault, F.fresh, F.power, F.refs, F.rings, F.servo] ++
        [P.CAL_DRX, P.CAL_DTX, P.CAL_EVT_DELAY, P.CAL_EYE_H, P.CAL_EYE_W, P.CAL_FLAGS, P.CAL_LANE_TCAL, P.CAL_OUT_RES] ++
        [P.CAL_PORT_RES, P.CAL_REFIN_DELAY, P.CAL_REFIN_RES, P.CAL_STARTUP_DONE, P.CMD_NOTICE_DROP, P.EVT_RES, P.HLT_FAULT_COUNT, P.HLT_STICKY] ++
        [P.LAN_SLICER, P.LAN_STATE, P.LCK_TXPATH, P.LCK_WINDOW, P.PWR_DOMAIN_STATE, P.PWR_WAKE_ADMITTED, P.PWR_WAKE_MAX_WAIT, P.PWR_WAKE_QUEUE_LEN] ++
        [P.PWR_WAKE_SLOPE, P.PWR_WAKE_WAITED, P.REF_ACTIVE, P.REF_BREF, P.REF_DEV, P.REF_FLAGS, P.REF_HO_C, P.REF_HO_D] ++
        [P.REF_HO_Y0, P.REF_KIND, P.REF_QSTATE, P.REF_SWLOG_HEAD, P.REF_SWLOG_INFO, P.REF_SWLOG_TIME, P.REF_TSTATE, P.TBS_BOUND_NOW] ++
        [P.TBS_BOUND_PS, P.TBS_DOM_SELECTED])) s t) ∧
  (∀ (kind : Fin 5) (index : Fin 512) (m : CalMeasure) (s : State) (r : CalRun), s.cal.run = some r →
    (⟨kind.val, index.val⟩ : CalItem) ∈ r.todo → s.calUp = true → m.moved = false → m.ok = false →
    ∃ t : State, exec (.calItemEnd kind index m) s = .next t ∧ (t.rd P.CAL_FLAGS).testBit 3 = true ∧
      t.cal.run = some { r with todo := r.todo.erase ⟨kind.val, index.val⟩, failed := r.failed + 1 } ∧
      t.cal.base = s.cal.base ∧ Only (some ([F.cal, F.cmd, F.fault, F.fresh, F.power, F.refs, F.rings, F.servo] ++
        [P.CAL_DRX, P.CAL_DTX, P.CAL_EVT_DELAY, P.CAL_EYE_H, P.CAL_EYE_W, P.CAL_FLAGS, P.CAL_LANE_TCAL, P.CAL_OUT_RES] ++
        [P.CAL_PORT_RES, P.CAL_REFIN_DELAY, P.CAL_REFIN_RES, P.CAL_STARTUP_DONE, P.CMD_NOTICE_DROP, P.EVT_RES, P.HLT_FAULT_COUNT, P.HLT_STICKY] ++
        [P.LAN_SLICER, P.LAN_STATE, P.LCK_TXPATH, P.LCK_WINDOW, P.PWR_DOMAIN_STATE, P.PWR_WAKE_ADMITTED, P.PWR_WAKE_MAX_WAIT, P.PWR_WAKE_QUEUE_LEN] ++
        [P.PWR_WAKE_SLOPE, P.PWR_WAKE_WAITED, P.REF_ACTIVE, P.REF_BREF, P.REF_DEV, P.REF_FLAGS, P.REF_HO_C, P.REF_HO_D] ++
        [P.REF_HO_Y0, P.REF_KIND, P.REF_QSTATE, P.REF_SWLOG_HEAD, P.REF_SWLOG_INFO, P.REF_SWLOG_TIME, P.REF_TSTATE, P.TBS_BOUND_NOW] ++
        [P.TBS_BOUND_PS, P.TBS_DOM_SELECTED])) s t) ∧
  (∀ (kind : Fin 5) (index : Fin 512) (m : CalMeasure) (s : State) (i : CalItem), i = ⟨kind.val, index.val⟩ →
    (i ∈ s.cal.doing ∨ i ∈ s.cal.startup ∨ ∃ r, s.cal.run = some r ∧ i ∈ r.todo) → s.calUp = true → m.moved = false → m.ok = true →
    ∃ t : State, exec (.calItemEnd kind index m) s = .next t ∧
      getItem (if kind.val = 3 then ⟨1, index.val⟩ else i) t.cal.tcal = some m.temp ∧
      (kind.val = 0 → t.rd P.CAL_DRX index.val = offLeg 0 index.val 0 (m.delays.getD 0 0) ∧
        t.rd P.CAL_DTX index.val = offLeg 0 index.val 1 (m.delays.getD 1 0)) ∧
      (kind.val = 3 → look (2 * index.val + s.rd P.EVT_LIVE_UNIT index.val) 0 t.cal.evtDelay = offLeg 1 index.val 0 (m.delays.getD 0 0)) ∧
      (kind.val = 4 → ∀ j, j < 4 → t.rd P.CAL_REFIN_DELAY j = offLeg 4 0 j (m.delays.getD j 0)) ∧ Only (some ([F.cal, F.cmd, F.fault, F.fresh, F.power, F.refs, F.rings, F.servo] ++
        [P.CAL_DRX, P.CAL_DTX, P.CAL_EVT_DELAY, P.CAL_EYE_H, P.CAL_EYE_W, P.CAL_FLAGS, P.CAL_LANE_TCAL, P.CAL_OUT_RES] ++
        [P.CAL_PORT_RES, P.CAL_REFIN_DELAY, P.CAL_REFIN_RES, P.CAL_STARTUP_DONE, P.CMD_NOTICE_DROP, P.EVT_RES, P.HLT_FAULT_COUNT, P.HLT_STICKY] ++
        [P.LAN_SLICER, P.LAN_STATE, P.LCK_TXPATH, P.LCK_WINDOW, P.PWR_DOMAIN_STATE, P.PWR_WAKE_ADMITTED, P.PWR_WAKE_MAX_WAIT, P.PWR_WAKE_QUEUE_LEN] ++
        [P.PWR_WAKE_SLOPE, P.PWR_WAKE_WAITED, P.REF_ACTIVE, P.REF_BREF, P.REF_DEV, P.REF_FLAGS, P.REF_HO_C, P.REF_HO_D] ++
        [P.REF_HO_Y0, P.REF_KIND, P.REF_QSTATE, P.REF_SWLOG_HEAD, P.REF_SWLOG_INFO, P.REF_SWLOG_TIME, P.REF_TSTATE, P.TBS_BOUND_NOW] ++
        [P.TBS_BOUND_PS, P.TBS_DOM_SELECTED])) s t) ∧
  (∀ (kind : Fin 5) (index : Fin 512) (m : CalMeasure) (s : State), (m.moved = true ∨ s.calUp = false ∨
      ((⟨kind.val, index.val⟩ : CalItem) ∉ s.cal.doing ∧ (⟨kind.val, index.val⟩ : CalItem) ∉ s.cal.startup ∧ s.cal.run = none)) →
    exec (.calItemEnd kind index m) s = .next s) ∧
  (∀ (freq : Int) (s : State) (r : CalRun), s.cal.run = some r → r.scope < 5 → r.todo = [] →
    (s.sessionUid r.origin.uid).isSome = true →
    ∃ t : State, exec (.calRunDone freq) s = .next t ∧ t.cal.run = none ∧
      t.answered r.origin Status.DONE (toBe 1 r.scope ++ [0] ++ toBe 2 r.measured ++ toBe 2 r.skipped ++ toBe 2 r.failed ++
        toBe 4 (clampU 32 r.worst) ++ zeros 4 ++ toBe 8 s.now) ∧ Only (some [F.cal, F.cmd, F.linkRun, F.links, F.power, F.rings, F.shadows, P.CAL_TRACE_FREQ,
        P.CAL_TRACE_OFFSET, P.CAL_TRACE_TIME, P.CAL_TRACE_U, P.CMD_NOTICE_DROP, P.CMD_REFUSED_COUNT, P.LAN_STATE, P.PWR_DOMAIN_STATE, P.PWR_WAKE_ADMITTED,
        P.PWR_WAKE_MAX_WAIT, P.PWR_WAKE_QUEUE_LEN, P.PWR_WAKE_SLOPE, P.PWR_WAKE_WAITED, P.TBS_OVER_LIMIT_COUNT]) s t) ∧
  (∀ (freq : Int) (s : State) (r : CalRun) (u : Nat), s.cal.run = some r → r.scope = 5 → s.rd P.CAL_TRACE_N ≤ r.samples.length →
    (s.sessionUid r.origin.uid).isSome = true → u = clampU 32 (s.rd P.CAL_REF_U + s.rd P.EVT_RES 8 + spreadOf r.samples) →
    ∃ t : State, exec (.calRunDone freq) s = .next t ∧ t.cal.run = none ∧
      t.rdS 64 P.CAL_TRACE_OFFSET = clampS 64 (meanOf r.samples) ∧ t.rd P.CAL_TRACE_U = u ∧ t.rd P.CAL_TRACE_TIME = s.now ∧
      t.rdS 32 P.CAL_TRACE_FREQ = (if s.rd P.CAL_FREQ_SRC = 0 then 0 else clampS 32 freq) ∧
      t.cal.store.length = s.cal.store.length + 1 ∧
      t.answered r.origin Status.DONE (toBe 1 5 ++ [0] ++ toBe 2 1 ++ toBe 2 r.skipped ++ toBe 2 r.failed ++ toBe 4 u ++ zeros 4 ++
        toBe 8 s.now) ∧ Only (some [F.cal, F.cmd, F.linkRun, F.links, F.power, F.rings, F.shadows, P.CAL_TRACE_FREQ,
        P.CAL_TRACE_OFFSET, P.CAL_TRACE_TIME, P.CAL_TRACE_U, P.CMD_NOTICE_DROP, P.CMD_REFUSED_COUNT, P.LAN_STATE, P.PWR_DOMAIN_STATE, P.PWR_WAKE_ADMITTED,
        P.PWR_WAKE_MAX_WAIT, P.PWR_WAKE_QUEUE_LEN, P.PWR_WAKE_SLOPE, P.PWR_WAKE_WAITED, P.TBS_OVER_LIMIT_COUNT]) s t) ∧
  (∀ (freq : Int) (s : State) (r : CalRun) (l : LinkRun) (pairs : List Int) (a : Int), s.cal.run = some r → r.scope = 6 →
    s.linkRun = some l → pairs = (pulsePairs l.own l.theirs).take l.count → l.count ≤ pairs.length →
    a = s.rdS 32 P.LNK_ASYM l.port - 2 * (meanOf pairs - (s.rdS 32 P.LNK_ACAL_PATH - l.path)) →
    ∃ t : State, exec (.calRunDone freq) s = .next t ∧ t.cal.run = none ∧ t.linkRun = none ∧
      t.shadow P.LNK_ASYM l.port = raw 32 (clampS 32 a) ∧
      t.shadow P.LNK_ASYM_RES l.port = clampU 16 (s.rd P.LNK_ACAL_PATH_U + l.pathU + spreadOf pairs) ∧
      (t.link l.port).calibrated = true ∧ t.rd P.LNK_ASYM l.port = s.rd P.LNK_ASYM l.port ∧ Only (some [F.cal, F.cmd, F.linkRun, F.links, F.power, F.rings, F.shadows, P.CAL_TRACE_FREQ,
        P.CAL_TRACE_OFFSET, P.CAL_TRACE_TIME, P.CAL_TRACE_U, P.CMD_NOTICE_DROP, P.CMD_REFUSED_COUNT, P.LAN_STATE, P.PWR_DOMAIN_STATE, P.PWR_WAKE_ADMITTED,
        P.PWR_WAKE_MAX_WAIT, P.PWR_WAKE_QUEUE_LEN, P.PWR_WAKE_SLOPE, P.PWR_WAKE_WAITED, P.TBS_OVER_LIMIT_COUNT]) s t) ∧
  (∀ (freq : Int) (s : State), (s.cal.run = none ∨ (∃ r, s.cal.run = some r ∧ ((r.scope < 5 ∧ r.todo ≠ []) ∨
      (r.scope = 5 ∧ r.samples.length < s.rd P.CAL_TRACE_N) ∨ (r.scope = 6 ∧ (s.linkRun = none ∨
        ∃ l, s.linkRun = some l ∧ (pulsePairs l.own l.theirs).length < l.count))))) →
    exec (.calRunDone freq) s = .next s) ∧
  (∀ (kind : Fin 5) (index : Fin 512) (temp : Int) (s : State) (i : CalItem) (c : Int), i = ⟨kind.val, index.val⟩ →
    getItem i s.cal.tcal = some c → s.rdb P.CAL_AUTO_ENABLE = true →
    (s.rd P.CAL_TEMP_DELTA < (temp - c).natAbs ∨ (kind.val = 0 ∧
      s.rd P.CAL_TEMP_DELTA < apart (some (s.switchDie index.val)) (getItem i s.cal.tcalDie))) →
    i ∉ s.cal.triggered → i ∉ s.cal.waiting → i ∉ s.cal.doing → (kind.val = 0 → 5 ≤ s.laneState index.val) → s.cal.run.isSome = true →
    ∃ t : State, exec (.calAutoTrigger kind index temp) s = .next t ∧
      t.cal = { s.cal with temp := putItem i temp s.cal.temp, triggered := s.cal.triggered ++ [i] } ∧ Only (some [F.cal]) s t) ∧
  (∀ (kind : Fin 5) (index : Fin 512) (temp : Int) (s : State) (i : CalItem) (c : Int), i = ⟨kind.val, index.val⟩ →
    getItem i s.cal.tcal = some c →
    (s.rdb P.CAL_AUTO_ENABLE = false ∨ ((temp - c).natAbs ≤ s.rd P.CAL_TEMP_DELTA ∧ (kind.val = 0 →
      apart (some (s.switchDie index.val)) (getItem i s.cal.tcalDie) ≤ s.rd P.CAL_TEMP_DELTA))) →
    ∃ t : State, exec (.calAutoTrigger kind index temp) s = .next t ∧ t.cal = { s.cal with temp := putItem i temp s.cal.temp } ∧
      Only (some [F.cal]) s t) ∧
  (∀ (kind : Fin 5) (index : Fin 512) (temp : Int) (s : State) (i : CalItem) (c : Int), i = ⟨kind.val, index.val⟩ →
    getItem i s.cal.tcal = some c → (i ∈ s.cal.triggered ∨ i ∈ s.cal.waiting ∨ i ∈ s.cal.doing ∨ (kind.val = 0 ∧ s.laneState index.val < 5)) →
    ∃ t : State, exec (.calAutoTrigger kind index temp) s = .next t ∧ t.cal = { s.cal with temp := putItem i temp s.cal.temp } ∧
      Only (some [F.cal]) s t) ∧
  (∀ (kind : Fin 5) (index : Fin 512) (temp : Int) (s : State) (i : CalItem) (c : Int), i = ⟨kind.val, index.val⟩ →
    getItem i s.cal.tcal = some c → s.rdb P.CAL_AUTO_ENABLE = true → s.rd P.CAL_TEMP_DELTA < (temp - c).natAbs →
    (kind.val = 0 → 5 ≤ s.laneState index.val) → s.cal.run = none → s.cal.triggered = [] → s.cal.waiting = [] → s.cal.doing = [] →
    (kind.val = 0 → 0 < s.rd P.CAL_AUTO_LANES) →
    ∃ t : State, exec (.calAutoTrigger kind index temp) s = .next t ∧
      (t.cal = { s.cal with temp := putItem i temp s.cal.temp, waiting := [i] } ∨
        t.cal = { s.cal with temp := putItem i temp s.cal.temp, doing := [i] }) ∧ Only (some [F.cal, F.cmd, F.power, F.rings, P.CMD_NOTICE_DROP, P.LAN_STATE, P.PWR_DOMAIN_STATE, P.PWR_WAKE_ADMITTED,
        P.PWR_WAKE_MAX_WAIT, P.PWR_WAKE_QUEUE_LEN, P.PWR_WAKE_SLOPE, P.PWR_WAKE_WAITED]) s t) ∧
  (∀ (kind : Fin 5) (index : Fin 512) (temp : Int) (s : State), getItem ⟨kind.val, index.val⟩ s.cal.tcal = none →
    exec (.calAutoTrigger kind index temp) s = .next s) ∧
  ∀ (temps : List (Fin 512 × Int)) (s : State),
    ∃ t : State, exec (.portResUpdate temps) s = .next t ∧ t.cal.base = s.cal.base ∧ t.cal.tcal = s.cal.tcal ∧
      (∀ l x, temps = [(l, x)] → (⟨0, l.val⟩, x) ∈ t.cal.temp) ∧
      (∀ l v, t.residual ⟨0, l⟩ = some v → t.rd P.CAL_PORT_RES l = v) ∧
      Only (some ([F.cal, F.cmd, F.fault, F.fresh, F.power, F.refs, F.rings, F.servo] ++
        [P.CAL_OUT_RES, P.CAL_PORT_RES, P.CAL_REFIN_RES, P.CMD_NOTICE_DROP, P.EVT_RES, P.HLT_FAULT_COUNT, P.HLT_STICKY, P.LAN_STATE] ++
        [P.PWR_DOMAIN_STATE, P.PWR_WAKE_ADMITTED, P.PWR_WAKE_MAX_WAIT, P.PWR_WAKE_QUEUE_LEN, P.PWR_WAKE_SLOPE, P.PWR_WAKE_WAITED, P.REF_ACTIVE, P.REF_BREF] ++
        [P.REF_DEV, P.REF_FLAGS, P.REF_HO_C, P.REF_HO_D, P.REF_HO_Y0, P.REF_KIND, P.REF_QSTATE, P.REF_SWLOG_HEAD] ++
        [P.REF_SWLOG_INFO, P.REF_SWLOG_TIME, P.REF_TSTATE, P.TBS_BOUND_NOW, P.TBS_BOUND_PS, P.TBS_DOM_SELECTED])) s t

/-- On a lane that is UP whose measured transmit delay differs from its target, and after CAL_TAP_INTERVAL, the tap moves one step
towards the target and the delay after the move, by the lane's tap table, is in force; at the end of the line it stays, the flag
is set and the measured delay is in force. An output's trim moves one step against an error of at least 3 ps once a second, or
sets its flag at the end of its range. Otherwise, and without the calibration engine's power, nothing happens. Clauses that go
beyond the cited rules are the model's choices: log entry 50. Completion: under conditions on the state and the operands alone, as
its clauses write them, exec answers a next state with the named effect for tapStep and trimStep. -/
def Obligations.TapsAndTrimsMoveOneStep : Prop :=
  (∀ (lane : Fin 512) (now : BitVec 32) (frac : Fin 100) (s : State) (target : Nat),
    (s.cal.target.find? fun x => x.1 == lane.val) = some (lane.val, target) → look lane.val 0 s.cal.tapAt ≤ s.clock →
    s.laneState lane.val = 5 → s.calUp = true → dtxPs now frac ≠ target → (target < dtxPs now frac → s.rd P.CAL_TXFD lane.val ≠ 0) →
    (dtxPs now frac < target → s.rd P.CAL_TXFD lane.val ≠ 511) →
    ∃ t : State, exec (.tapStep lane now frac) s = .next t ∧
      t.rd P.CAL_DTX lane.val = s.tapMoved lane.val (dtxFine now frac) (s.rd P.CAL_TXFD lane.val) (t.rd P.CAL_TXFD lane.val) ∧
      t.rd P.CAL_TXFD lane.val = (if target < dtxPs now frac then s.rd P.CAL_TXFD lane.val - 1 else s.rd P.CAL_TXFD lane.val + 1) ∧
      look lane.val 0 t.cal.tapAt = s.clock + 1000000 * s.rd P.CAL_TAP_INTERVAL ∧
      Only (some [F.cal, P.CAL_TXFD, P.CAL_DTX]) s t) ∧
  (∀ (lane : Fin 512) (now : BitVec 32) (frac : Fin 100) (s : State) (target : Nat),
    (s.cal.target.find? fun x => x.1 == lane.val) = some (lane.val, target) → look lane.val 0 s.cal.tapAt ≤ s.clock →
    s.laneState lane.val = 5 → s.calUp = true → ((target < dtxPs now frac ∧ s.rd P.CAL_TXFD lane.val = 0) ∨
      (dtxPs now frac < target ∧ s.rd P.CAL_TXFD lane.val = 511)) →
    ∃ t : State, exec (.tapStep lane now frac) s = .next t ∧ t.rd P.CAL_DTX lane.val = dtxPs now frac ∧
      t.rd P.CAL_TXFD lane.val = s.rd P.CAL_TXFD lane.val ∧ (t.rd P.CAL_FLAGS).testBit 1 = true ∧
      Only (some [F.cal, P.CAL_FLAGS, P.CAL_DTX]) s t) ∧
  (∀ (lane : Fin 512) (now : BitVec 32) (frac : Fin 100) (s : State), ((s.cal.target.find? fun x => x.1 == lane.val) = none ∨
      (s.cal.target.find? fun x => x.1 == lane.val) = some (lane.val, dtxPs now frac) ∨ s.clock < look lane.val 0 s.cal.tapAt ∨ s.laneState lane.val ≠ 5 ∨ s.calUp = false) → exec (.tapStep lane now frac) s = .next s) ∧
  (∀ (output : Fin 8) (err : Int) (s : State), look output.val 0 s.cal.trimAt ≤ s.clock → 3 ≤ err.natAbs → s.calUp = true →
    ∃ t : State, exec (.trimStep output err) s = .next t ∧ look output.val 0 t.cal.trimAt = s.clock + 1000000000 ∧
      ((0 < err ∧ s.rd P.CAL_OUT_TRIM output.val = 0) ∨ (err < 0 ∧ s.rd P.CAL_OUT_TRIM output.val = 255) →
        t.rd P.CAL_OUT_TRIM output.val = s.rd P.CAL_OUT_TRIM output.val ∧ (t.rd P.CAL_FLAGS).testBit 2 = true) ∧
      (0 < err → s.rd P.CAL_OUT_TRIM output.val ≠ 0 → t.rd P.CAL_OUT_TRIM output.val = s.rd P.CAL_OUT_TRIM output.val - 1) ∧
      (err < 0 → s.rd P.CAL_OUT_TRIM output.val ≠ 255 → t.rd P.CAL_OUT_TRIM output.val = s.rd P.CAL_OUT_TRIM output.val + 1) ∧
      Only (some [F.cal, P.CAL_OUT_TRIM, P.CAL_FLAGS]) s t) ∧
  ∀ (output : Fin 8) (err : Int) (s : State), (s.clock < look output.val 0 s.cal.trimAt ∨ err.natAbs < 3 ∨ s.calUp = false) →
    exec (.trimStep output err) s = .next s

/-- CDR lock takes an ACQUIRING lane to ALIGNING with its CTLE code unless the partner is out of range, which the port's flag shows
while any of its lanes is, framing takes it to CALIBRATING with its gearbox position and starts its port's marker divider, the end
of its bring-up item to UP with its constants, and the last lane of a port reports the port's link-up; a loss of framing in UP is
REALIGNING with the alignment kept for comparison, framing in time ends that and is counted; losses and time-outs fall back and
take an up port down. Slips move S and are counted, adaptation, at most once in 10 ms, and the eye scan move one code. In any
other state, with a fixed CTLE code or slicers that are not automatic, and before or after their time, nothing happens. Clauses
that go beyond the cited rules are the model's choices: log entries 12, 45, 72. Completion: under conditions on the state and the
operands alone, as its clauses write them, exec answers a next state with the named effect for cdrLock, cdrLockLoss, framing,
framingLoss, realignTimeout, slipStep, laneCalItemEnd, ctleStep, slicerStep and lanSlip. -/
def Obligations.LanesComeUpAndFallBack : Prop :=
  (∀ (lane : Fin 512) (ppb : Int) (ctle : Fin 49) (s : State), s.laneState lane.val = 2 → ppb.natAbs ≤ 200000 →
    ∃ t : State, exec (.cdrLock lane ppb ctle) s = .next t ∧ t.laneState lane.val = 3 ∧
      t.rd P.LAN_CTLE lane.val = (if s.rdb P.LAN_CTLE_MODE lane.val = true then s.rd P.LAN_CTLE_SET lane.val else ctle.val) ∧
      (t.laneRec lane.val).beyond = false ∧ (∀ p, s.portOf lane.val = some p →
        (t.rd P.LNK_FLAGS p).testBit 1 = (s.lanesOf p).any fun k => k != lane.val && (s.laneRec k).beyond) ∧
      Only (some [F.optics, P.LNK_FLAGS, P.LAN_STATE, P.LAN_CTLE]) s t) ∧
  (∀ (lane : Fin 512) (ppb : Int) (ctle : Fin 49) (s : State), s.laneState lane.val = 2 → 200000 < ppb.natAbs →
    ∃ t : State, exec (.cdrLock lane ppb ctle) s = .next t ∧ t.laneState lane.val = 2 ∧
      (t.laneRec lane.val).beyond = true ∧ (∀ p, s.portOf lane.val = some p → (t.rd P.LNK_FLAGS p).testBit 1 = true) ∧
      Only (some [F.optics, P.LNK_FLAGS]) s t) ∧
  (∀ (lane : Fin 512) (s : State), 3 ≤ s.laneState lane.val →
    ∃ t : State, exec (.cdrLockLoss lane) s = .next t ∧ t.laneState lane.val = 2 ∧
      (∀ p, s.portOf lane.val = some p → t.portUp p = false) ∧ Only (some ([F.cal, F.cmd, F.fabric, F.fault, F.fresh, F.hidden, F.linkRun, F.links] ++
        [F.nhp, F.optics, F.pad, F.power, F.quay, F.refs, F.rings, F.servo] ++
        [F.txSlots, F.windowAt, P.BUF_DF_AGENT, P.BUF_DF_INDEX, P.BUF_DF_POOL, P.BUF_DF_TIME, P.BUF_DOUBLE_FREE, P.BUF_FLAGS] ++
        [P.BUF_HELD, P.BUF_QUARANTINED, P.BUF_SIGNALS, P.CAL_FLAGS, P.CMD_NOTICE_DROP, P.CMD_REFUSED_COUNT, P.HIE_NEIGHBOUR_ID, P.HIE_PORT_STATE] ++
        [P.HIE_PORT_VERSION, P.HLT_FAULT_COUNT, P.HLT_STICKY, P.HST_RXQ_BYTES, P.LAN_STATE, P.LNK_BEVT, P.LNK_STATE, P.OBS_OVF] ++
        [P.OBS_TRACE_DROP, P.OBS_TRACE_HEAD, P.OBS_TRACE_OLDEST, P.PRT_EGQ_BYTES, P.PRT_LINKDOWN_DROP, P.PRT_LINK_UP, P.PRT_PFC_TX_XOFF, P.PWR_DOMAIN_STATE] ++
        [P.PWR_WAKE_ADMITTED, P.PWR_WAKE_MAX_WAIT, P.PWR_WAKE_QUEUE_LEN, P.PWR_WAKE_SLOPE, P.PWR_WAKE_WAITED, P.REF_ACTIVE, P.REF_DEV, P.REF_FLAGS] ++
        [P.REF_HO_C, P.REF_HO_D, P.REF_HO_Y0, P.REF_QSTATE, P.REF_SWLOG_HEAD, P.REF_SWLOG_INFO, P.REF_SWLOG_TIME, P.REF_TSTATE] ++
        [P.TBS_BOUND_NOW, P.TBS_BOUND_PS, P.TBS_DOM_SELECTED, P.TBS_OVER_LIMIT_COUNT])) s t) ∧
  (∀ (lane : Fin 512) (g : Fin 66) (found : Fin 64) (s : State), s.laneState lane.val = 3 →
    ∃ t : State, exec (.framing lane g found) s = .next t ∧ t.laneState lane.val = 4 ∧ t.rd P.LAN_G lane.val = g.val ∧
      t.rd P.LAN_S lane.val = (if s.rd P.LAN_ALIGN (lane.val / 4) = 2 then found.val else s.rd P.LAN_S lane.val) ∧
      (∀ p, s.portOf lane.val = some p → (t.link p).divider = true) ∧ Only (some ([F.cal, F.cmd, F.fault, F.fresh, F.linkRun, F.links, F.optics, F.refs] ++
        [F.rings, F.servo, P.CMD_NOTICE_DROP, P.CMD_REFUSED_COUNT, P.HLT_FAULT_COUNT, P.HLT_STICKY, P.LAN_G, P.LAN_REALIGNS] ++
        [P.LAN_S, P.LAN_STATE, P.LNK_BEVT, P.LNK_STATE, P.REF_ACTIVE, P.REF_BREF, P.REF_DEV, P.REF_FLAGS] ++
        [P.REF_HO_C, P.REF_HO_D, P.REF_HO_Y0, P.REF_KIND, P.REF_QSTATE, P.REF_SWLOG_HEAD, P.REF_SWLOG_INFO, P.REF_SWLOG_TIME] ++
        [P.REF_TSTATE, P.TBS_BOUND_NOW, P.TBS_BOUND_PS, P.TBS_DOM_SELECTED, P.TBS_OVER_LIMIT_COUNT])) s t) ∧
  (∀ (lane : Fin 512) (g : Fin 66) (found : Fin 64) (s : State) (e : Nat), s.laneState lane.val = 6 →
    (s.laneRec lane.val).realignBy = some e → s.clock < e →
    ∃ t : State, exec (.framing lane g found) s = .next t ∧ t.laneState lane.val = 5 ∧ t.rd P.LAN_G lane.val = g.val ∧
      (t.laneRec lane.val).realignBy = none ∧ t.rd P.LAN_REALIGNS lane.val = (s.rd P.LAN_REALIGNS lane.val + 1) % 2 ^ 48 ∧
      Only (some ([F.cal, F.cmd, F.fault, F.fresh, F.linkRun, F.links, F.optics, F.refs] ++
        [F.rings, F.servo, P.CMD_NOTICE_DROP, P.CMD_REFUSED_COUNT, P.HLT_FAULT_COUNT, P.HLT_STICKY, P.LAN_G, P.LAN_REALIGNS] ++
        [P.LAN_S, P.LAN_STATE, P.LNK_BEVT, P.LNK_STATE, P.REF_ACTIVE, P.REF_BREF, P.REF_DEV, P.REF_FLAGS] ++
        [P.REF_HO_C, P.REF_HO_D, P.REF_HO_Y0, P.REF_KIND, P.REF_QSTATE, P.REF_SWLOG_HEAD, P.REF_SWLOG_INFO, P.REF_SWLOG_TIME] ++
        [P.REF_TSTATE, P.TBS_BOUND_NOW, P.TBS_BOUND_PS, P.TBS_DOM_SELECTED, P.TBS_OVER_LIMIT_COUNT])) s t) ∧
  (∀ (lane : Fin 512) (s : State), s.laneState lane.val = 5 →
    ∃ t : State, exec (.framingLoss lane) s = .next t ∧ t.laneState lane.val = 6 ∧
      (t.laneRec lane.val).realignBy = some (s.clock + 1000 * s.rd P.LAN_REALIGN_TIME) ∧
      (t.laneRec lane.val).s0 = s.rd P.LAN_S lane.val ∧ (t.laneRec lane.val).g0 = s.rd P.LAN_G lane.val ∧
      Only (some [F.optics, P.LAN_STATE]) s t) ∧
  (∀ (lane : Fin 512) (s : State), s.laneState lane.val = 4 →
    ∃ t : State, exec (.framingLoss lane) s = .next t ∧ t.laneState lane.val = 3 ∧ Only (some ([F.cal, F.cmd, F.fabric, F.fault, F.fresh, F.hidden, F.linkRun, F.links] ++
        [F.nhp, F.optics, F.pad, F.power, F.quay, F.refs, F.rings, F.servo] ++
        [F.txSlots, F.windowAt, P.BUF_DF_AGENT, P.BUF_DF_INDEX, P.BUF_DF_POOL, P.BUF_DF_TIME, P.BUF_DOUBLE_FREE, P.BUF_FLAGS] ++
        [P.BUF_HELD, P.BUF_QUARANTINED, P.BUF_SIGNALS, P.CAL_FLAGS, P.CMD_NOTICE_DROP, P.CMD_REFUSED_COUNT, P.HIE_NEIGHBOUR_ID, P.HIE_PORT_STATE] ++
        [P.HIE_PORT_VERSION, P.HLT_FAULT_COUNT, P.HLT_STICKY, P.HST_RXQ_BYTES, P.LAN_STATE, P.LNK_BEVT, P.LNK_STATE, P.OBS_OVF] ++
        [P.OBS_TRACE_DROP, P.OBS_TRACE_HEAD, P.OBS_TRACE_OLDEST, P.PRT_EGQ_BYTES, P.PRT_LINKDOWN_DROP, P.PRT_LINK_UP, P.PRT_PFC_TX_XOFF, P.PWR_DOMAIN_STATE] ++
        [P.PWR_WAKE_ADMITTED, P.PWR_WAKE_MAX_WAIT, P.PWR_WAKE_QUEUE_LEN, P.PWR_WAKE_SLOPE, P.PWR_WAKE_WAITED, P.REF_ACTIVE, P.REF_DEV, P.REF_FLAGS] ++
        [P.REF_HO_C, P.REF_HO_D, P.REF_HO_Y0, P.REF_QSTATE, P.REF_SWLOG_HEAD, P.REF_SWLOG_INFO, P.REF_SWLOG_TIME, P.REF_TSTATE] ++
        [P.TBS_BOUND_NOW, P.TBS_BOUND_PS, P.TBS_DOM_SELECTED, P.TBS_OVER_LIMIT_COUNT])) s t) ∧
  (∀ (lane : Fin 512) (s : State) (e : Nat), s.laneState lane.val = 6 → (s.laneRec lane.val).realignBy = some e → e ≤ s.clock →
    ∃ t : State, exec (.realignTimeout lane) s = .next t ∧ t.laneState lane.val = 3 ∧
      (∀ p, s.portOf lane.val = some p → t.portUp p = false) ∧ Only (some ([F.cal, F.cmd, F.fabric, F.fault, F.fresh, F.hidden, F.linkRun, F.links] ++
        [F.nhp, F.optics, F.pad, F.power, F.quay, F.refs, F.rings, F.servo] ++
        [F.txSlots, F.windowAt, P.BUF_DF_AGENT, P.BUF_DF_INDEX, P.BUF_DF_POOL, P.BUF_DF_TIME, P.BUF_DOUBLE_FREE, P.BUF_FLAGS] ++
        [P.BUF_HELD, P.BUF_QUARANTINED, P.BUF_SIGNALS, P.CAL_FLAGS, P.CMD_NOTICE_DROP, P.CMD_REFUSED_COUNT, P.HIE_NEIGHBOUR_ID, P.HIE_PORT_STATE] ++
        [P.HIE_PORT_VERSION, P.HLT_FAULT_COUNT, P.HLT_STICKY, P.HST_RXQ_BYTES, P.LAN_STATE, P.LNK_BEVT, P.LNK_STATE, P.OBS_OVF] ++
        [P.OBS_TRACE_DROP, P.OBS_TRACE_HEAD, P.OBS_TRACE_OLDEST, P.PRT_EGQ_BYTES, P.PRT_LINKDOWN_DROP, P.PRT_LINK_UP, P.PRT_PFC_TX_XOFF, P.PWR_DOMAIN_STATE] ++
        [P.PWR_WAKE_ADMITTED, P.PWR_WAKE_MAX_WAIT, P.PWR_WAKE_QUEUE_LEN, P.PWR_WAKE_SLOPE, P.PWR_WAKE_WAITED, P.REF_ACTIVE, P.REF_DEV, P.REF_FLAGS] ++
        [P.REF_HO_C, P.REF_HO_D, P.REF_HO_Y0, P.REF_QSTATE, P.REF_SWLOG_HEAD, P.REF_SWLOG_INFO, P.REF_SWLOG_TIME, P.REF_TSTATE] ++
        [P.TBS_BOUND_NOW, P.TBS_BOUND_PS, P.TBS_DOM_SELECTED, P.TBS_OVER_LIMIT_COUNT])) s t) ∧
  (∀ (lane : Fin 512) (s : State), s.laneState lane.val = 3 ∨ s.laneState lane.val = 6 → s.rd P.LAN_ALIGN (lane.val / 4) = 0 →
    ∃ t : State, exec (.slipStep lane) s = .next t ∧ t.rd P.LAN_S lane.val = (s.rd P.LAN_S lane.val + 1) % 64 ∧
      t.rd P.LAN_SLIPS lane.val = (s.rd P.LAN_SLIPS lane.val + 1) % 2 ^ 48 ∧ Only (some [P.LAN_S, P.LAN_SLIPS]) s t) ∧
  (∀ (lane : Fin 512) (m : CalMeasure) (s : State), s.laneState lane.val = 4 → s.calUp = true → m.moved = false →
    m.ok = true →
    ∃ t : State, exec (.laneCalItemEnd lane m) s = .next t ∧ t.laneState lane.val = 5 ∧
      t.rd P.CAL_DRX lane.val = offLeg 0 lane.val 0 (m.delays.getD 0 0) ∧
      t.rd P.CAL_DTX lane.val = offLeg 0 lane.val 1 (m.delays.getD 1 0) ∧
      (∀ p, s.portOf lane.val = some p → s.rd P.PRT_LANES p ≠ 0 → (∀ l ∈ s.lanesOf p, l = lane.val ∨ 5 ≤ s.laneState l) →
        t.portUp p = true) ∧ Only (some ([F.cal, F.cmd, F.fabric, F.fault, F.fresh, F.optics, F.refs, F.rings] ++
        [F.servo, P.CAL_DRX, P.CAL_DTX, P.CAL_EYE_H, P.CAL_EYE_W, P.CAL_FLAGS, P.CAL_LANE_TCAL, P.CAL_OUT_RES] ++
        [P.CAL_PORT_RES, P.CAL_REFIN_RES, P.CMD_NOTICE_DROP, P.CMD_REFUSED_COUNT, P.EVT_RES, P.HLT_FAULT_COUNT, P.HLT_STICKY, P.LAN_SLICER] ++
        [P.LAN_STATE, P.LCK_TXPATH, P.LCK_WINDOW, P.OPT_LASER_STATE, P.OPT_SPARE_USED, P.PRT_LINK_UP, P.PRT_PFC_TX_XOFF, P.REF_ACTIVE] ++
        [P.REF_BREF, P.REF_DEV, P.REF_FLAGS, P.REF_HO_C, P.REF_HO_D, P.REF_HO_Y0, P.REF_KIND, P.REF_QSTATE] ++
        [P.REF_SWLOG_HEAD, P.REF_SWLOG_INFO, P.REF_SWLOG_TIME, P.REF_TSTATE, P.TBS_BOUND_NOW, P.TBS_BOUND_PS, P.TBS_DOM_SELECTED, P.TBS_OVER_LIMIT_COUNT])) s t) ∧
  (∀ (lane : Fin 512) (m : CalMeasure) (s : State), s.laneState lane.val = 4 → s.calUp = true → m.moved = false →
    m.ok = false →
    ∃ t : State, exec (.laneCalItemEnd lane m) s = .next t ∧ t.laneState lane.val = 4 ∧ (t.rd P.CAL_FLAGS).testBit 3 = true ∧
      Only (some [P.CAL_FLAGS]) s t) ∧
  (∀ (lane : Fin 512) (up : Bool) (s : State), s.laneState lane.val = 5 → s.rdb P.LAN_CTLE_MODE lane.val = false →
    s.laneItem lane.val = false → (s.laneRec lane.val).ctleAt ≤ s.clock →
    ∃ t : State, exec (.ctleStep lane up) s = .next t ∧
      t.rd P.LAN_CTLE lane.val = (if up = true then min 48 (s.rd P.LAN_CTLE lane.val + 1) else s.rd P.LAN_CTLE lane.val - 1) ∧
      (t.rd P.LAN_CTLE lane.val ≠ s.rd P.LAN_CTLE lane.val → t.rd P.CAL_DRX lane.val = clampU 32 ((s.rd P.CAL_DRX lane.val : Int) +
        ((Config.ctleDelay lane.val (t.rd P.LAN_CTLE lane.val)).toInt -
          (Config.ctleDelay lane.val (s.rd P.LAN_CTLE lane.val)).toInt)).toNat) ∧
      (t.laneRec lane.val).ctleAt = s.clock + 10000000 ∧ Only (some [F.optics, P.LAN_CTLE, P.CAL_DRX]) s t) ∧
  (∀ (lane : Fin 512) (k : Fin 3) (up : Bool) (s : State), s.rdb P.LAN_SLICER_AUTO lane.val = true →
    (s.rd P.LAN_RATE (lane.val / 4) ≤ 2 ∨ k.val = 1) →
    ∃ t : State, exec (.slicerStep lane k up) s = .next t ∧ t.rdS 8 P.LAN_SLICER (3 * lane.val + k.val) =
        max (-64) (min 63 (s.rdS 8 P.LAN_SLICER (3 * lane.val + k.val) + if up = true then 1 else -1)) ∧
      Only (some [P.LAN_SLICER]) s t) ∧
  (∀ (rq : Request) (s : State) (x : Session) (l n : Nat), s.taken Op.LAN_SLIP rq x → beAt 0 2 rq.payload = l →
    beAt 2 1 rq.payload = n → l ≤ 511 → 1 ≤ n → n ≤ 63 → (s.laneState l = 3 ∨ s.laneState l = 6) → s.rd P.LAN_ALIGN (l / 4) = 1 →
    ∃ t : State, exec (.lanSlip rq) s = .next t.settle ∧ t.rd P.LAN_S l = (s.rd P.LAN_S l + n) % 64 ∧
      t.rd P.LAN_SLIPS l = (s.rd P.LAN_SLIPS l + n) % 2 ^ 48 ∧
      t.replied x Op.LAN_SLIP rq Status.OK (toBe 1 ((s.rd P.LAN_S l + n) % 64) ++ zeros 3) ∧ Only (some [F.cmd, F.rings, P.CMD_REFUSED_COUNT, P.LAN_S, P.LAN_SLIPS, P.TBS_OVER_LIMIT_COUNT]) s t) ∧
  (∀ (rq : Request) (s : State) (x : Session) (l n st : Nat), s.taken Op.LAN_SLIP rq x → beAt 0 2 rq.payload = l →
    beAt 2 1 rq.payload = n → (((511 < l ∨ n = 0 ∨ 63 < n) ∧ st = Status.BAD_VALUE) ∨
      (l ≤ 511 ∧ 1 ≤ n ∧ n ≤ 63 ∧ ((s.laneState l ≠ 3 ∧ s.laneState l ≠ 6) ∨ s.rd P.LAN_ALIGN (l / 4) ≠ 1) ∧
        st = Status.NOT_READY)) →
    ∃ t : State, exec (.lanSlip rq) s = .next t.settle ∧ t.replied x Op.LAN_SLIP rq st [] ∧
      Only (some [F.cmd, F.rings, P.CMD_REFUSED_COUNT, P.TBS_OVER_LIMIT_COUNT]) s t) ∧
  ∀ (lane : Fin 512) (ppb : Int) (ctle : Fin 49) (g : Fin 66) (found : Fin 64) (m : CalMeasure) (up : Bool) (s : State),
    (s.laneState lane.val ≠ 2 → exec (.cdrLock lane ppb ctle) s = .next s) ∧
    (s.laneState lane.val < 3 → exec (.cdrLockLoss lane) s = .next s) ∧
    (s.laneState lane.val ≠ 3 ∧ s.laneState lane.val ≠ 6 →
      exec (.framing lane g found) s = .next s ∧ exec (.slipStep lane) s = .next s) ∧
    (s.laneState lane.val ≠ 4 ∧ s.laneState lane.val ≠ 5 → exec (.framingLoss lane) s = .next s) ∧
    (s.laneState lane.val = 6 → (∀ e, (s.laneRec lane.val).realignBy = some e → e ≤ s.clock) →
      exec (.framing lane g found) s = .next s) ∧
    (s.laneState lane.val ≠ 6 ∨ (∀ e, (s.laneRec lane.val).realignBy = some e → s.clock < e) →
      exec (.realignTimeout lane) s = .next s) ∧
    (s.rd P.LAN_ALIGN (lane.val / 4) ≠ 0 → exec (.slipStep lane) s = .next s) ∧
    (s.laneState lane.val ≠ 4 ∨ s.calUp = false ∨ m.moved = true → exec (.laneCalItemEnd lane m) s = .next s) ∧
    (s.laneState lane.val ≠ 5 ∨ s.clock < (s.laneRec lane.val).ctleAt ∨ s.rdb P.LAN_CTLE_MODE lane.val = true ∨
      s.laneItem lane.val = true → exec (.ctleStep lane up) s = .next s) ∧
    (∀ k : Fin 3, s.rdb P.LAN_SLICER_AUTO lane.val = false ∨ (2 < s.rd P.LAN_RATE (lane.val / 4) ∧ k.val ≠ 1) →
      exec (.slicerStep lane k up) s = .next s)

/-- A laser's bias above its warning raises flag and sticky fault, above its failure limit, or with the power of its four lanes 6 dB
down, the laser FAILED and its lanes, or those of the laser that a spare stands in for, OFF; a LASER_SWAP of an engine with a good
spare is announced with its start, its lanes go OFF then and wake on the spare, and it answers DONE with the laser RETIRED and the
spare ACTIVE once its lanes are UP. A SYN_APPLY puts the legal shadows of the named synthesizers into effect now or at its instant
and is refused as a whole where one is not legal; a synthesizer that has moved its band or found lock is LOCKED, and one that
loses lock flags it, searches, and takes its lanes back to ACQUIRING. Clauses that go beyond the cited rules are the model's
choices: log entries 13, 32, 51, 72. Completion: under conditions on the state and the operands alone, as its clauses write them,
exec answers a next state with the named effect for laserBiasWarn, laserFailed, laserSwap, laserSwapStart, spareRouted, synApply,
synApplyDue, bandChangeEnd, synRelock and synUnlock. -/
def Obligations.LasersAndSynthesizersChange : Prop :=
  (∀ (engine : Fin 32) (laser : Fin 5) (bias : BitVec 16) (s : State), 100 * s.rd P.OPT_BIAS_WARN < bias.toNat →
    ∃ t : State, exec (.laserBiasWarn engine laser bias) s = .next t ∧
      t.rd P.OPT_BIAS (5 * engine.val + laser.val) = bias.toNat ∧ (t.rd P.OPT_FLAGS).testBit 0 = true ∧
      (t.rd P.HLT_STICKY).testBit 10 = true ∧ Only (some [F.cmd, F.fault, F.rings, P.CMD_NOTICE_DROP, P.HLT_FAULT_COUNT, P.HLT_STICKY, P.OPT_BIAS, P.OPT_FLAGS]) s t) ∧
  (∀ (engine : Fin 32) (laser : Fin 5) (bias : BitVec 16) (s : State), bias.toNat ≤ 100 * s.rd P.OPT_BIAS_WARN →
    ∃ t : State, exec (.laserBiasWarn engine laser bias) s = .next t ∧
      t.rd P.OPT_BIAS (5 * engine.val + laser.val) = bias.toNat ∧ Only (some [P.OPT_BIAS]) s t) ∧
  (∀ (engine : Fin 32) (laser : Fin 5) (bias : BitVec 16) (powers : List Int) (s : State), 100 * s.rd P.OPT_BIAS_FAIL < bias.toNat ∨
      (∃ q, s.fedQuad engine.val laser.val = some q ∧ powers.length = 4 ∧
        ∀ x ∈ (quadLanes q).zip powers, x.2 + 600 ≤ (s.laneRec x.1).power) →
    ∃ t : State, exec (.laserFailed engine laser bias powers) s = .next t ∧
      ((∀ w ∈ s.optics.swaps, w.engine ≠ engine.val) → t.rd P.OPT_LASER_STATE (5 * engine.val + laser.val) = 2) ∧
      (t.rd P.OPT_FLAGS).testBit 1 = true ∧
      (t.rd P.HLT_STICKY).testBit 11 = true ∧
      (∀ q, s.fedQuad engine.val laser.val = some q → ∀ l ∈ quadLanes q, s.laneState l ≠ 0 → t.laneState l = 0) ∧
      Only (some ([F.cal, F.cmd, F.fabric, F.fault, F.fresh, F.hidden, F.linkRun, F.links] ++
        [F.nhp, F.optics, F.pad, F.power, F.quay, F.refs, F.rings, F.servo] ++
        [F.txSlots, F.windowAt, P.BUF_DF_AGENT, P.BUF_DF_INDEX, P.BUF_DF_POOL, P.BUF_DF_TIME, P.BUF_DOUBLE_FREE, P.BUF_FLAGS] ++
        [P.BUF_HELD, P.BUF_QUARANTINED, P.BUF_SIGNALS, P.CAL_FLAGS, P.CMD_NOTICE_DROP, P.CMD_REFUSED_COUNT, P.HIE_NEIGHBOUR_ID, P.HIE_PORT_STATE] ++
        [P.HIE_PORT_VERSION, P.HLT_FAULT_COUNT, P.HLT_STICKY, P.HST_RXQ_BYTES, P.LAN_STATE, P.LNK_BEVT, P.LNK_STATE, P.OBS_OVF] ++
        [P.OBS_TRACE_DROP, P.OBS_TRACE_HEAD, P.OBS_TRACE_OLDEST, P.OPT_BIAS, P.OPT_FLAGS, P.OPT_LASER_STATE, P.OPT_SPARE_USED, P.OPT_TX_POWER] ++
        [P.PRT_EGQ_BYTES, P.PRT_LINKDOWN_DROP, P.PRT_LINK_UP, P.PRT_PFC_TX_XOFF, P.PWR_DOMAIN_STATE, P.PWR_WAKE_ADMITTED, P.PWR_WAKE_MAX_WAIT, P.PWR_WAKE_QUEUE_LEN] ++
        [P.PWR_WAKE_SLOPE, P.PWR_WAKE_WAITED, P.REF_ACTIVE, P.REF_DEV, P.REF_FLAGS, P.REF_HO_C, P.REF_HO_D, P.REF_HO_Y0] ++
        [P.REF_QSTATE, P.REF_SWLOG_HEAD, P.REF_SWLOG_INFO, P.REF_SWLOG_TIME, P.REF_TSTATE, P.TBS_BOUND_NOW, P.TBS_BOUND_PS, P.TBS_DOM_SELECTED] ++
        [P.TBS_OVER_LIMIT_COUNT])) s t) ∧
  (∀ (engine : Fin 32) (laser : Fin 5) (bias : BitVec 16) (powers : List Int) (s : State), bias.toNat ≤ 100 * s.rd P.OPT_BIAS_FAIL →
    (s.fedQuad engine.val laser.val = none ∨ powers.length ≠ 4 ∨ ∃ q, s.fedQuad engine.val laser.val = some q ∧
      ∃ x ∈ (quadLanes q).zip powers, (s.laneRec x.1).power < x.2 + 600) →
    ∃ t : State, exec (.laserFailed engine laser bias powers) s = .next t ∧
      t.rd P.OPT_BIAS (5 * engine.val + laser.val) = bias.toNat ∧ t.rd P.OPT_FLAGS = s.rd P.OPT_FLAGS ∧
      (∀ i, t.rd P.OPT_LASER_STATE i = s.rd P.OPT_LASER_STATE i) ∧ Only (some ([F.cal, F.cmd, F.fabric, F.fault, F.fresh, F.hidden, F.linkRun, F.links] ++
        [F.nhp, F.optics, F.pad, F.power, F.quay, F.refs, F.rings, F.servo] ++
        [F.txSlots, F.windowAt, P.BUF_DF_AGENT, P.BUF_DF_INDEX, P.BUF_DF_POOL, P.BUF_DF_TIME, P.BUF_DOUBLE_FREE, P.BUF_FLAGS] ++
        [P.BUF_HELD, P.BUF_QUARANTINED, P.BUF_SIGNALS, P.CAL_FLAGS, P.CMD_NOTICE_DROP, P.CMD_REFUSED_COUNT, P.HIE_NEIGHBOUR_ID, P.HIE_PORT_STATE] ++
        [P.HIE_PORT_VERSION, P.HLT_FAULT_COUNT, P.HLT_STICKY, P.HST_RXQ_BYTES, P.LAN_STATE, P.LNK_BEVT, P.LNK_STATE, P.OBS_OVF] ++
        [P.OBS_TRACE_DROP, P.OBS_TRACE_HEAD, P.OBS_TRACE_OLDEST, P.OPT_BIAS, P.OPT_FLAGS, P.OPT_LASER_STATE, P.OPT_SPARE_USED, P.OPT_TX_POWER] ++
        [P.PRT_EGQ_BYTES, P.PRT_LINKDOWN_DROP, P.PRT_LINK_UP, P.PRT_PFC_TX_XOFF, P.PWR_DOMAIN_STATE, P.PWR_WAKE_ADMITTED, P.PWR_WAKE_MAX_WAIT, P.PWR_WAKE_QUEUE_LEN] ++
        [P.PWR_WAKE_SLOPE, P.PWR_WAKE_WAITED, P.REF_ACTIVE, P.REF_DEV, P.REF_FLAGS, P.REF_HO_C, P.REF_HO_D, P.REF_HO_Y0] ++
        [P.REF_QSTATE, P.REF_SWLOG_HEAD, P.REF_SWLOG_INFO, P.REF_SWLOG_TIME, P.REF_TSTATE, P.TBS_BOUND_NOW, P.TBS_BOUND_PS, P.TBS_DOM_SELECTED] ++
        [P.TBS_OVER_LIMIT_COUNT])) s t) ∧
  (∀ (rq : Request) (s : State) (x : Session) (e k start : Nat), s.taken Op.LASER_SWAP rq x → beAt 0 1 rq.payload = e →
    beAt 1 1 rq.payload = k → e ≤ 31 → k ≤ 3 → s.rdb P.OPT_SPARE_USED e = false → s.rd P.OPT_LASER_STATE (5 * e + 4) ≠ 2 →
    s.rd P.PWR_DOMAIN_STATE (engineDomain e) = 3 → (∀ w ∈ s.optics.swaps, w.engine ≠ e) →
    start = max (if (beAt 2 1 rq.payload).testBit 0 = true then instant (beAt 4 6 rq.payload) (beAt 10 4 rq.payload) else 0)
      (s.modNs + 1000000 * s.rd P.OPT_SWAP_NOTICE) →
    ∃ t : State, exec (.laserSwap rq) s = .next t.settle ∧
      t.optics.swaps = s.optics.swaps ++ [⟨e, k, originOf x Op.LASER_SWAP rq, start, none, false, []⟩] ∧ t.accepted x ∧
      Only (some [F.cmd, F.optics, F.rings, P.CMD_NOTICE_DROP, P.CMD_REFUSED_COUNT, P.TBS_OVER_LIMIT_COUNT]) s t) ∧
  (∀ (rq : Request) (s : State) (x : Session) (e k st : Nat), s.taken Op.LASER_SWAP rq x → beAt 0 1 rq.payload = e →
    beAt 1 1 rq.payload = k → (((31 < e ∨ 3 < k) ∧ st = Status.BAD_VALUE) ∨
      (e ≤ 31 ∧ k ≤ 3 ∧ (s.rdb P.OPT_SPARE_USED e = true ∨ s.rd P.OPT_LASER_STATE (5 * e + 4) = 2 ∨
        s.rd P.PWR_DOMAIN_STATE (engineDomain e) ≠ 3) ∧ st = Status.NOT_READY) ∨
      (e ≤ 31 ∧ k ≤ 3 ∧ s.rdb P.OPT_SPARE_USED e = false ∧ s.rd P.OPT_LASER_STATE (5 * e + 4) ≠ 2 ∧
        s.rd P.PWR_DOMAIN_STATE (engineDomain e) = 3 ∧ (s.optics.swaps.any fun w => w.engine == e) = true ∧
        st = Status.IN_PROGRESS)) →
    ∃ t : State, exec (.laserSwap rq) s = .next t.settle ∧ t.replied x Op.LASER_SWAP rq st [] ∧
      Only (some [F.cmd, F.rings, P.CMD_REFUSED_COUNT, P.TBS_OVER_LIMIT_COUNT]) s t) ∧
  (∀ (engine : Fin 32) (s : State) (w : Swap), (s.optics.swaps.find? fun w => w.engine == engine.val && w.downAt.isNone) = some w →
    w.start ≤ s.modNs →
    ∃ t : State, exec (.laserSwapStart engine) s = .next t ∧
      (∀ i, i < 16 → s.laneState (16 * engine.val + i) ≠ 0 → t.laneState (16 * engine.val + i) = 0) ∧
      ({ w with downAt := some s.clock } : Swap) ∈ t.optics.swaps ∧ Only (some ([F.cal, F.cmd, F.fabric, F.fault, F.fresh, F.hidden, F.linkRun, F.links] ++
        [F.nhp, F.optics, F.pad, F.power, F.quay, F.refs, F.rings, F.servo] ++
        [F.txSlots, F.windowAt, P.BUF_DF_AGENT, P.BUF_DF_INDEX, P.BUF_DF_POOL, P.BUF_DF_TIME, P.BUF_DOUBLE_FREE, P.BUF_FLAGS] ++
        [P.BUF_HELD, P.BUF_QUARANTINED, P.BUF_SIGNALS, P.CAL_FLAGS, P.CMD_NOTICE_DROP, P.CMD_REFUSED_COUNT, P.HIE_NEIGHBOUR_ID, P.HIE_PORT_STATE] ++
        [P.HIE_PORT_VERSION, P.HLT_FAULT_COUNT, P.HLT_STICKY, P.HST_RXQ_BYTES, P.LAN_STATE, P.LNK_BEVT, P.LNK_STATE, P.OBS_OVF] ++
        [P.OBS_TRACE_DROP, P.OBS_TRACE_HEAD, P.OBS_TRACE_OLDEST, P.PRT_EGQ_BYTES, P.PRT_LINKDOWN_DROP, P.PRT_LINK_UP, P.PRT_PFC_TX_XOFF, P.PWR_DOMAIN_STATE] ++
        [P.PWR_WAKE_ADMITTED, P.PWR_WAKE_MAX_WAIT, P.PWR_WAKE_QUEUE_LEN, P.PWR_WAKE_SLOPE, P.PWR_WAKE_WAITED, P.REF_ACTIVE, P.REF_DEV, P.REF_FLAGS] ++
        [P.REF_HO_C, P.REF_HO_D, P.REF_HO_Y0, P.REF_QSTATE, P.REF_SWLOG_HEAD, P.REF_SWLOG_INFO, P.REF_SWLOG_TIME, P.REF_TSTATE] ++
        [P.TBS_BOUND_NOW, P.TBS_BOUND_PS, P.TBS_DOM_SELECTED, P.TBS_OVER_LIMIT_COUNT])) s t) ∧
  (∀ (engine : Fin 32) (s : State), (∀ w ∈ s.optics.swaps, w.engine = engine.val → w.downAt = none → s.modNs < w.start) →
    exec (.laserSwapStart engine) s = .next s) ∧
  (∀ (engine : Fin 32) (s : State) (w : Swap), s.optics.swaps = [w] → w.engine = engine.val → w.downAt.isSome = true →
    w.routed = false → (∀ i, i < 16 → s.laneState (16 * engine.val + i) = 0 ∧ s.rdb P.LAN_ENABLE (16 * engine.val + i) = false) →
    (s.sessionUid w.origin.uid).isSome = true →
    ∃ t : State, exec (.spareRouted engine) s = .next t ∧ t.optics.swaps = [] ∧
      t.rd P.OPT_LASER_STATE (5 * engine.val + w.laser) = (if w.laser = 4 ∧ s.rd P.OPT_LASER_STATE (5 * engine.val + 4) ≠ 2 then 1 else 3) ∧
      (w.laser ≠ 4 → t.rd P.OPT_LASER_STATE (5 * engine.val + 4) = (if s.rd P.OPT_LASER_STATE (5 * engine.val + 4) = 2 then 2 else 1)) ∧ t.rd P.OPT_SPARE_USED engine.val = 1 ∧
      t.answered w.origin Status.DONE (toBe 1 engine.val ++ toBe 1 w.laser ++ toBe 2 0 ++
        toBe 4 (match w.downAt with | some c => (s.clock - c) / 1000 | none => 0)) ∧ Only (some [F.cal, F.cmd, F.optics, F.power, F.rings, P.CMD_NOTICE_DROP, P.CMD_REFUSED_COUNT, P.LAN_STATE,
        P.OPT_LASER_STATE, P.OPT_SPARE_USED, P.PWR_DOMAIN_STATE, P.PWR_WAKE_ADMITTED, P.PWR_WAKE_MAX_WAIT, P.PWR_WAKE_QUEUE_LEN, P.PWR_WAKE_SLOPE, P.PWR_WAKE_WAITED,
        P.TBS_OVER_LIMIT_COUNT]) s t) ∧
  (∀ (engine : Fin 32) (s : State), (∀ w ∈ s.optics.swaps, w.engine = engine.val → w.downAt = none ∨ w.routed = true) →
    exec (.spareRouted engine) s = .next s) ∧
  (∀ (rq : Request) (s : State) (x : Session) (m st : Nat), s.taken Op.SYN_APPLY rq x → beAt 0 1 rq.payload % 16 = m → m ≠ 0 →
    (((beAt 1 1 rq.payload).testBit 0 = false ∧ st = Status.OK) ∨ ((beAt 1 1 rq.payload).testBit 0 = true ∧
      instant (beAt 2 6 rq.payload) (beAt 8 4 rq.payload) < s.modNs ∧ st = Status.DONE_LATE)) →
    (maskedSyns m).all s.synLegal = true →
    ∃ t : State, exec (.synApply rq) s = .next t.settle ∧ t.replied x Op.SYN_APPLY rq st [] ∧
      (∀ j, j < 4 → m.testBit j = true → s.rd P.SYN_STATE (32 + j) ≠ 1 → s.rd P.SYN_STATE (32 + j) ≠ 3 →
        t.rd P.SYN_OUT_INT j = s.shadow P.SYN_OUT_INT j ∧ t.rd P.SYN_OUT_FRAC j = s.shadow P.SYN_OUT_FRAC j ∧
        t.rd P.SYN_OUT_MOD j = s.shadow P.SYN_OUT_MOD j ∧ t.rd P.SYN_OUT_DIV j = s.shadow P.SYN_OUT_DIV j ∧
        t.rd P.SYN_OUT_PHASE j = s.shadow P.SYN_OUT_PHASE j) ∧
      t.rd P.SYS_CONFIG_GEN = (s.rd P.SYS_CONFIG_GEN + 1) % 2 ^ 32 ∧ Only (some [F.cmd, F.optics, F.params, F.rings, F.shadows]) s t) ∧
  (∀ (rq : Request) (s : State) (x : Session) (m : Nat), s.taken Op.SYN_APPLY rq x → beAt 0 1 rq.payload % 16 = m →
    (m = 0 ∨ (maskedSyns m).all s.synLegal = false) →
    ((beAt 1 1 rq.payload).testBit 0 = false ∨ instant (beAt 2 6 rq.payload) (beAt 8 4 rq.payload) < s.modNs ∨ m = 0) →
    ∃ t : State, exec (.synApply rq) s = .next t.settle ∧ t.replied x Op.SYN_APPLY rq Status.BAD_VALUE [] ∧
      Only (some [F.cmd, F.rings, P.CMD_REFUSED_COUNT, P.TBS_OVER_LIMIT_COUNT]) s t) ∧
  (∀ (rq : Request) (s : State) (x : Session) (m due : Nat), s.taken Op.SYN_APPLY rq x → beAt 0 1 rq.payload % 16 = m → m ≠ 0 →
    (beAt 1 1 rq.payload).testBit 0 = true → due = instant (beAt 2 6 rq.payload) (beAt 8 4 rq.payload) → s.modNs ≤ due →
    s.optics.synJobs = [] →
    ∃ t : State, exec (.synApply rq) s = .next t.settle ∧ t.optics.synJobs = [⟨originOf x Op.SYN_APPLY rq, m, due⟩] ∧
      t.rd P.SYN_PENDING = m ∧ t.accepted x ∧ Only (some [F.cmd, F.optics, F.params, F.rings, F.shadows]) s t) ∧
  (∀ (s : State) (j : SynJob) (k : Nat), s.optics.synJobs = [j] → j.due ≤ s.modNs → j.mask = 2 ^ k → k < 4 → s.synLegal k = true →
    (s.sessionUid j.origin.uid).isSome = true →
    ∃ t : State, exec .synApplyDue s = .next t ∧ t.optics.synJobs = [] ∧ t.rd P.SYN_PENDING = 0 ∧
      t.answered j.origin Status.DONE [] ∧ look k 0 t.optics.synAt = s.modNs ∧
      (s.rd P.SYN_STATE (32 + k) ≠ 1 → s.rd P.SYN_STATE (32 + k) ≠ 3 → t.rd P.SYN_OUT_DIV k = s.shadow P.SYN_OUT_DIV k) ∧
      Only (some [F.cmd, F.optics, F.params, F.rings, F.shadows]) s t) ∧
  (∀ (syn : Fin 38) (s : State), (s.rd P.SYN_STATE syn.val = 1 ∨ s.rd P.SYN_STATE syn.val = 3) → s.optics.synWait = [] →
    ∃ t : State, exec (.bandChangeEnd syn) s = .next t ∧ t.rd P.SYN_STATE syn.val = 2 ∧
      (syn.val < 36 → t.rd P.SYN_VCO_FREQ syn.val = planKhz (s.planOf syn.val)) ∧ Only (some [P.SYN_STATE, P.SYN_VCO_FREQ]) s t) ∧
  (∀ (syn : Fin 38) (s : State), s.rd P.SYN_STATE syn.val = 1 → s.optics.synWait = [] →
    ∃ t : State, exec (.synRelock syn) s = .next t ∧ t.rd P.SYN_STATE syn.val = 2 ∧
      (syn.val < 36 → t.rd P.SYN_VCO_FREQ syn.val = planKhz (s.planOf syn.val)) ∧ Only (some [P.SYN_STATE, P.SYN_VCO_FREQ]) s t) ∧
  (∀ (syn : Fin 38) (s : State), (s.rd P.SYN_STATE syn.val = 0 ∨ s.rd P.SYN_STATE syn.val = 2 →
      exec (.bandChangeEnd syn) s = .next s) ∧ (s.rd P.SYN_STATE syn.val ≠ 1 → exec (.synRelock syn) s = .next s)) ∧
  (∀ (syn : Fin 38) (s : State), s.rd P.SYN_STATE syn.val = 2 →
    ∃ t : State, exec (.synUnlock syn) s = .next t.settle ∧ t.rd P.SYN_STATE syn.val = 1 ∧ (t.rd P.SYN_FLAGS).testBit 0 = true ∧
      (t.rd P.HLT_STICKY).testBit 12 = true ∧
      (∀ l, l / 16 = syn.val → 3 ≤ s.laneState l → s.cal.doing = [] → s.cal.run = none → t.laneState l = 2) ∧ Only (some ([F.cal, F.cmd, F.fabric, F.fault, F.fresh, F.hidden, F.linkRun, F.links] ++
        [F.nhp, F.optics, F.pad, F.power, F.quay, F.refs, F.rings, F.servo] ++
        [F.time, F.txSlots, F.windowAt, P.BUF_DF_AGENT, P.BUF_DF_INDEX, P.BUF_DF_POOL, P.BUF_DF_TIME, P.BUF_DOUBLE_FREE] ++
        [P.BUF_FLAGS, P.BUF_HELD, P.BUF_QUARANTINED, P.BUF_SIGNALS, P.CAL_FLAGS, P.CMD_NOTICE_DROP, P.CMD_REFUSED_COUNT, P.COR_FLAGS] ++
        [P.COR_SCORE, P.COR_STATE, P.COR_TEST_RESULT, P.HIE_NEIGHBOUR_ID, P.HIE_PORT_STATE, P.HIE_PORT_VERSION, P.HLT_FAULT_COUNT, P.HLT_STICKY] ++
        [P.HST_RXQ_BYTES, P.LAN_STATE, P.LNK_BEVT, P.LNK_STATE, P.OBS_OVF, P.OBS_TRACE_DROP, P.OBS_TRACE_HEAD, P.OBS_TRACE_OLDEST] ++
        [P.PRT_EGQ_BYTES, P.PRT_LINKDOWN_DROP, P.PRT_LINK_UP, P.PRT_PFC_TX_XOFF, P.PWR_DOMAIN_STATE, P.PWR_WAKE_ADMITTED, P.PWR_WAKE_MAX_WAIT, P.PWR_WAKE_QUEUE_LEN] ++
        [P.PWR_WAKE_SLOPE, P.PWR_WAKE_WAITED, P.REF_ACTIVE, P.REF_DEV, P.REF_FLAGS, P.REF_HO_C, P.REF_HO_D, P.REF_HO_Y0] ++
        [P.REF_QSTATE, P.REF_SWLOG_HEAD, P.REF_SWLOG_INFO, P.REF_SWLOG_TIME, P.REF_TSTATE, P.SYN_BAND_MISSES, P.SYN_FLAGS, P.SYN_STATE] ++
        [P.TBS_BOUND_NOW, P.TBS_BOUND_PS, P.TBS_DOM_SELECTED, P.TBS_OVER_LIMIT_COUNT])) s t) ∧
  ∀ (syn : Fin 38) (s : State), s.rd P.SYN_STATE syn.val ≠ 2 → exec (.synUnlock syn) s = .next s

/-- A permitted request of a master that is not frozen waits as a burst; one that reaches a bank its master may not use freezes the
master, records the violation and ends its bursts; a burst into bank 31 during a wipe gets an error. At an arbitration point a
lone unmasked burst moves a beat and its master's grant is counted, a read that reaches its last beat delivers its data, and of
two requesters of a bank the one with the higher ARB_PRIO is granted and the other counts a conflict. MASTER_RELEASE lifts the
freeze of a master or a session. Clauses that go beyond the cited rules are the model's choices: log entry 64. Completion: under
conditions on the state and the operands alone, as its clauses write them, exec answers a next state with the named effect for
scratchpadRequest, arbitrationPoint and masterRelease. -/
def Obligations.WeirGrantsAndFreezes : Prop :=
  (∀ (master : Fin 16) (addr : BitVec 26) (write : Bool) (beats : Fin 64) (data : List Byte) (s : State), master.val ≠ 0 →
    s.frozenMaster master.val = false →
    (∀ b, b ∈ burstBanks (addr.toNat / 64 * 64) (beats.val + 1) → bankAllows master.val b write = true ∧ (b = 31 → s.pad.wipe = none)) →
    ∃ t : State, exec (.scratchpadRequest master addr write beats data) s = .next t ∧
      t.pad = { s.pad with bursts := s.pad.bursts ++ [⟨master.val, bankOf (addr.toNat / 64 * 64), write, addr.toNat / 64 * 64,
        beats.val + 1, 0, if write then fit (64 * (beats.val + 1)) data else []⟩] } ∧ Only (some [F.pad]) s t) ∧
  (∀ (master : Fin 16) (addr : BitVec 26) (write : Bool) (beats : Fin 64) (data : List Byte) (s : State) (b : Nat), master.val ≠ 0 →
    s.frozenMaster master.val = false → b ∈ burstBanks (addr.toNat / 64 * 64) (beats.val + 1) →
    bankAllows master.val b write = false →
    ∃ t : State, exec (.scratchpadRequest master addr write beats data) s = .next t ∧ t.frozenMaster master.val = true ∧
      (t.rd P.SPD_VIOL).testBit master.val = true ∧ t.rd P.SPD_VIOL_ADDR master.val = addr.toNat ∧
      t.rd P.SPD_VIOL_TIME master.val = s.now ∧
      t.rd P.SPD_VIOL_KIND master.val = (if 31 ∈ burstBanks (addr.toNat / 64 * 64) (beats.val + 1) ∧
        bankAllows master.val 31 write = false then 2 else if write then 1 else 0) ∧
      (∀ x ∈ t.pad.bursts, x.master ≠ master.val) ∧ (t.rd P.SPD_FLAGS).testBit 1 = true ∧ (t.rd P.HLT_STICKY).testBit 14 = true ∧
      t.pad.mem = s.pad.mem ∧ Only (some ([F.cal, F.cmd, F.fault, F.gnss, F.linkRun, F.log, F.nhp, F.pad] ++
        [F.power, F.rings, P.CMD_NOTICE_DROP, P.CMD_REFUSED_COUNT, P.HLT_FAULT_COUNT, P.HLT_STICKY, P.HST_FLAGS, P.LAN_STATE] ++
        [P.LOG_FLAGS, P.LOG_HOLD_ACTIVE, P.PWR_DOMAIN_STATE, P.PWR_WAKE_ADMITTED, P.PWR_WAKE_MAX_WAIT, P.PWR_WAKE_QUEUE_LEN, P.PWR_WAKE_SLOPE, P.PWR_WAKE_WAITED] ++
        [P.SPD_FLAGS, P.SPD_FROZEN, P.SPD_VIOL, P.SPD_VIOL_ADDR, P.SPD_VIOL_KIND, P.SPD_VIOL_TIME, P.TBS_OVER_LIMIT_COUNT])) s t) ∧
  (∀ (master : Fin 16) (addr : BitVec 26) (write : Bool) (beats : Fin 64) (data : List Byte) (s : State),
    master.val = 0 ∨ s.frozenMaster master.val = true → exec (.scratchpadRequest master addr write beats data) s = .next s) ∧
  (∀ (master : Fin 16) (addr : BitVec 26) (write : Bool) (beats : Fin 64) (data : List Byte) (s : State), master.val ≠ 0 →
    s.frozenMaster master.val = false → s.pad.wipe ≠ none → 31 ∈ burstBanks (addr.toNat / 64 * 64) (beats.val + 1) →
    (∀ b, b ∈ burstBanks (addr.toNat / 64 * 64) (beats.val + 1) → bankAllows master.val b write = true) →
    exec (.scratchpadRequest master addr write beats data) s = .next { s with out := s.out ++ [Emission.weir master.val true []] }) ∧
  (∀ (s : State) (x : Burst) (b a : Nat), s.pad.bursts = [x] → x.master < 16 → s.frozenMaster x.master = false →
    a = x.addr + 64 * x.moved → b = bankOf a → b < 32 → x.write = false → x.moved + 1 = x.beats →
    (s.bankWindow b).slots < (s.bankWindow b).window → s.masked b x.master = false →
    ∃ t : State, exec (.arbitrationPoint []) s = .next t ∧ t.out = s.out ++ [.weir x.master false (x.data ++ s.padRead a 64)] ∧
      t.pad.bursts = [] ∧ t.pad.mem = s.pad.mem ∧ t.rd P.ARB_GRANTS x.master = (s.rd P.ARB_GRANTS x.master + 1) % 2 ^ 48 ∧
      Only (some [F.cmd, F.fault, F.log, F.pad, F.rings, P.ARB_GRANTS, P.ARB_PREEMPT, P.ARB_QUOTA_MASKED,
        P.CMD_NOTICE_DROP, P.HLT_FAULT_COUNT, P.HLT_STICKY, P.LOG_FLAGS, P.SPD_CONFLICT_B, P.SPD_CONFLICT_M, P.SPD_ECC_ADDR, P.SPD_ECC_CORR,
        P.SPD_ECC_UNCORR, P.SPD_FLAGS, P.SPD_WIPE_BUSY]) s t) ∧
  (∀ (s : State) (x : Burst) (b a : Nat), s.pad.bursts = [x] → x.master < 16 → s.frozenMaster x.master = false →
    a = x.addr + 64 * x.moved → b = bankOf a → b < 32 → x.write = true → x.moved + 1 < x.beats →
    (s.bankWindow b).slots < (s.bankWindow b).window → s.masked b x.master = false →
    ∃ t : State, exec (.arbitrationPoint []) s = .next t ∧ t.out = s.out ∧ t.pad.bursts = [{ x with moved := x.moved + 1 }] ∧
      (∀ i, i < 64 → t.padByte (a + i) = (slice (64 * x.moved) 64 x.data).getD i (s.padByte (a + i))) ∧
      (∀ j, (j < a ∨ a + 64 ≤ j) → t.padByte j = s.padByte j) ∧
      t.rd P.ARB_GRANTS x.master = (s.rd P.ARB_GRANTS x.master + 1) % 2 ^ 48 ∧ Only (some [F.cmd, F.fault, F.log, F.pad, F.rings, P.ARB_GRANTS, P.ARB_PREEMPT, P.ARB_QUOTA_MASKED,
        P.CMD_NOTICE_DROP, P.HLT_FAULT_COUNT, P.HLT_STICKY, P.LOG_FLAGS, P.SPD_CONFLICT_B, P.SPD_CONFLICT_M, P.SPD_ECC_ADDR, P.SPD_ECC_CORR,
        P.SPD_ECC_UNCORR, P.SPD_FLAGS, P.SPD_WIPE_BUSY]) s t) ∧
  (∀ (s : State) (x y : Burst) (b : Nat), (s.pad.bursts = [x, y] ∨ s.pad.bursts = [y, x]) → x.master < 16 → y.master < 16 →
    s.frozenMaster x.master = false → s.frozenMaster y.master = false → x.write = false → y.write = false →
    b = bankOf (x.addr + 64 * x.moved) → b = bankOf (y.addr + 64 * y.moved) → b < 32 →
    (s.bankWindow b).slots < (s.bankWindow b).window → s.masked b x.master = false → s.masked b y.master = false →
    s.rd P.ARB_PRIO y.master < s.rd P.ARB_PRIO x.master →
    ∃ t : State, exec (.arbitrationPoint []) s = .next t ∧ t.rd P.ARB_GRANTS x.master = (s.rd P.ARB_GRANTS x.master + 1) % 2 ^ 48 ∧
      t.rd P.ARB_GRANTS y.master = s.rd P.ARB_GRANTS y.master ∧ y ∈ t.pad.bursts ∧ x ∉ t.pad.bursts ∧
      t.rd P.SPD_CONFLICT_M y.master = (s.rd P.SPD_CONFLICT_M y.master + 1) % 2 ^ 48 ∧
      t.rd P.SPD_CONFLICT_B b = (s.rd P.SPD_CONFLICT_B b + 1) % 2 ^ 48 ∧ Only (some [F.cmd, F.fault, F.log, F.pad, F.rings, P.ARB_GRANTS, P.ARB_PREEMPT, P.ARB_QUOTA_MASKED,
        P.CMD_NOTICE_DROP, P.HLT_FAULT_COUNT, P.HLT_STICKY, P.LOG_FLAGS, P.SPD_CONFLICT_B, P.SPD_CONFLICT_M, P.SPD_ECC_ADDR, P.SPD_ECC_CORR,
        P.SPD_ECC_UNCORR, P.SPD_FLAGS, P.SPD_WIPE_BUSY]) s t) ∧
  (∀ (rq : Request) (s : State) (x : Session) (n : Nat), s.taken Op.MASTER_RELEASE rq x → beAt 0 1 rq.payload = 0 →
    beAt 2 2 rq.payload = n → n ≤ 15 → s.frozenMaster n = true →
    ∃ t : State, exec (.masterRelease rq) s = .next t.settle ∧ t.frozenMaster n = false ∧
      (∀ m, m ≠ n → t.frozenMaster m = s.frozenMaster m) ∧ t.replied x Op.MASTER_RELEASE rq Status.OK [] ∧
      Only (some [F.cmd, F.rings, P.CMD_REFUSED_COUNT, P.CMD_SESSION_STATE, P.SPD_FROZEN, P.TBS_OVER_LIMIT_COUNT]) s t) ∧
  (∀ (rq : Request) (s : State) (x y : Session) (n : Nat), s.taken Op.MASTER_RELEASE rq x → beAt 0 1 rq.payload = 1 →
    beAt 2 2 rq.payload = n → 1 ≤ n → n ≤ 16 → s.session n = some y → s.sessState n = 2 → y.uid ≠ x.uid →
    ∃ (t : State) (z : Session), exec (.masterRelease rq) s = .next t.settle ∧ t.sessState n = 1 ∧ t.sessionUid y.uid = some z ∧
      z.last = s.clock ∧ t.replied x Op.MASTER_RELEASE rq Status.OK [] ∧ Only (some [F.cmd, F.rings, P.CMD_REFUSED_COUNT, P.CMD_SESSION_STATE, P.SPD_FROZEN, P.TBS_OVER_LIMIT_COUNT]) s t) ∧
  ∀ (rq : Request) (s : State) (x : Session) (n st : Nat), s.taken Op.MASTER_RELEASE rq x → beAt 2 2 rq.payload = n →
    ((1 < beAt 0 1 rq.payload ∧ st = Status.BAD_VALUE) ∨ (beAt 0 1 rq.payload = 0 ∧ 15 < n ∧ st = Status.BAD_VALUE) ∨
      (beAt 0 1 rq.payload = 0 ∧ n ≤ 15 ∧ s.frozenMaster n = false ∧ st = Status.NOT_FOUND) ∨
      (beAt 0 1 rq.payload = 1 ∧ (n = 0 ∨ 16 < n) ∧ st = Status.BAD_VALUE) ∨
      (beAt 0 1 rq.payload = 1 ∧ 1 ≤ n ∧ n ≤ 16 ∧ s.sessState n ≠ 2 ∧ st = Status.NOT_FOUND)) →
    ∃ t : State, exec (.masterRelease rq) s = .next t.settle ∧ t.replied x Op.MASTER_RELEASE rq st [] ∧
      Only (some [F.cmd, F.rings, P.CMD_REFUSED_COUNT, P.TBS_OVER_LIMIT_COUNT]) s t

/-- A detected tamper source is recorded and starts a wipe with its cause, or asks for another one after the wipe that runs; the end
of a wipe leaves bank 31 zero and every other byte, the records as the wipe alone, no logbook key, the wipe counted with its cause
and time, and starts the wipe asked for meanwhile; LIFECYCLE_SET starts the wipe of a permitted transition, which at its end
enters the new state and stores the operator key, and is denied while a tamper source is recorded, a wipe runs or the table
forbids it. Clauses that go beyond the cited rules are the model's choices: log entry 66. Completion: under conditions on the
state and the operands alone, as its clauses write them, exec answers a next state with the named effect for tamperDetect,
wipeComplete and lifecycleSet. -/
def Obligations.WipesAndLifeCycle : Prop :=
  (∀ (k : Fin 5) (active : BitVec 5) (s : State), s.pad.wipe = none →
    ∃ t : State, exec (.tamperDetect (some k) active) s = .next t ∧ (t.rd P.SPD_TAMPER_SRC).testBit k.val = true ∧
      t.rd P.SPD_WIPE_BUSY = 1 ∧ t.pad.wipe = some ⟨k.val + 1, none, none⟩ ∧ t.pad.active = active.toNat ∧
      (t.rd P.HLT_STICKY).testBit 15 = true ∧ (∀ x ∈ t.pad.bursts, bankOf (x.addr + 64 * x.moved) ≠ 31) ∧
      Only (some [F.cmd, F.fault, F.log, F.pad, F.rings, P.CMD_NOTICE_DROP, P.HLT_FAULT_COUNT, P.HLT_STICKY,
        P.LOG_FLAGS, P.SPD_TAMPER_SRC, P.SPD_WIPE_BUSY]) s t) ∧
  (∀ (k : Fin 5) (active : BitVec 5) (s : State) (w : Wipe), s.pad.wipe = some w →
    ∃ t : State, exec (.tamperDetect (some k) active) s = .next t ∧ (t.rd P.SPD_TAMPER_SRC).testBit k.val = true ∧
      t.pad = { s.pad with active := active.toNat, wipe := some { w with again := some (k.val + 1) } } ∧
      Only (some [F.pad, P.SPD_TAMPER_SRC]) s t) ∧
  (∀ (active : BitVec 5) (s : State),
    exec (.tamperDetect none active) s = .next { s with pad := { s.pad with active := active.toNat } }) ∧
  (∀ (s : State) (w : Wipe), s.pad.wipe = some w → w.change = none → w.again = none →
    ∃ t : State, exec .wipeComplete s = .next t.settle ∧ (∀ a, 31 * 0x200000 ≤ a → t.padByte a = 0) ∧
      (∀ a, a < 31 * 0x200000 → t.padByte a = s.padByte a) ∧ t.pad.wipe = none ∧ t.pad.life = [⟨s.now, true, w.cause, 0, 0⟩] ∧
      t.rd P.SPD_WIPE_BUSY = 0 ∧ t.rd P.SPD_WIPE_COUNT = (s.rd P.SPD_WIPE_COUNT + 1) % 2 ^ 48 ∧ t.rd P.SPD_WIPE_CAUSE = w.cause ∧
      t.rd P.SPD_WIPE_TIME = s.now ∧ t.rd P.LOG_KEY_STATE = 0 ∧ t.rd P.SPD_LIFECYCLE = s.rd P.SPD_LIFECYCLE ∧
      (t.rd P.SPD_FLAGS).testBit 2 = true ∧ Only (some [F.cal, F.cmd, F.fault, F.flash, F.log, F.pad, F.rings, P.CMD_NOTICE_DROP,
        P.CMD_REFUSED_COUNT, P.HLT_FAULT_COUNT, P.HLT_STICKY, P.LOG_FLAGS, P.LOG_KEY_SERIAL, P.LOG_KEY_STATE, P.SPD_FLAGS, P.SPD_LIFECYCLE,
        P.SPD_WIPE_BUSY, P.SPD_WIPE_CAUSE, P.SPD_WIPE_COUNT, P.SPD_WIPE_TIME, P.TBS_OVER_LIMIT_COUNT]) s t) ∧
  (∀ (s : State) (w : Wipe) (c : Nat), s.pad.wipe = some w → w.change = none → w.again = some c →
    ∃ t : State, exec .wipeComplete s = .next t.settle ∧ t.pad.wipe = some ⟨c, none, none⟩ ∧ t.rd P.SPD_WIPE_BUSY = 1 ∧
      t.rd P.SPD_WIPE_COUNT = (s.rd P.SPD_WIPE_COUNT + 1) % 2 ^ 48 ∧ Only (some [F.cal, F.cmd, F.fault, F.flash, F.log, F.pad, F.rings, P.CMD_NOTICE_DROP,
        P.CMD_REFUSED_COUNT, P.HLT_FAULT_COUNT, P.HLT_STICKY, P.LOG_FLAGS, P.LOG_KEY_SERIAL, P.LOG_KEY_STATE, P.SPD_FLAGS, P.SPD_LIFECYCLE,
        P.SPD_WIPE_BUSY, P.SPD_WIPE_CAUSE, P.SPD_WIPE_COUNT, P.SPD_WIPE_TIME, P.TBS_OVER_LIMIT_COUNT]) s t) ∧
  (∀ (s : State) (w : Wipe) (c : LifeChange), s.pad.wipe = some w → w.change = some c → w.again = none →
    ∃ t : State, exec .wipeComplete s = .next t.settle ∧ t.rd P.SPD_LIFECYCLE = c.target ∧ t.flash.lifecycle = c.target ∧
      t.flash.operatorKey = (if c.target = 1 then some c.key else s.flash.operatorKey) ∧
      t.pad.life = [⟨s.now, true, w.cause, 0, 0⟩, ⟨s.now, false, c.target, c.origin.session, trCode c.origin.transport⟩] ∧
      t.rd P.SPD_WIPE_BUSY = 0 ∧
      (c.target ≠ 2 → (s.sessionUid c.origin.uid).isSome = true → t.answered c.origin Status.OK []) ∧ Only (some [F.cal, F.cmd, F.fault, F.flash, F.log, F.pad, F.rings, P.CMD_NOTICE_DROP,
        P.CMD_REFUSED_COUNT, P.HLT_FAULT_COUNT, P.HLT_STICKY, P.LOG_FLAGS, P.LOG_KEY_SERIAL, P.LOG_KEY_STATE, P.SPD_FLAGS, P.SPD_LIFECYCLE,
        P.SPD_WIPE_BUSY, P.SPD_WIPE_CAUSE, P.SPD_WIPE_COUNT, P.SPD_WIPE_TIME, P.TBS_OVER_LIMIT_COUNT]) s t) ∧
  (∀ s : State, s.pad.wipe = none → exec .wipeComplete s = .next s.settle) ∧
  (∀ (rq : Request) (s : State) (x : Session) (q : Nat), s.taken Op.LIFECYCLE_SET rq x → beAt 0 1 rq.payload = q →
    s.frozenMaster 11 = false → s.rd P.SPD_TAMPER_SRC = 0 → s.pad.wipe = none →
    (s.rd P.SPD_LIFECYCLE, q) ∈ [(0, 1), (1, 2), (2, 3), (3, 2), (1, 4), (2, 4), (3, 4)] → (q = 1 → beAt 4 32 rq.payload ≠ 0) →
    ∃ t : State, exec (.lifecycleSet rq) s = .next t.settle ∧
      t.pad.wipe = some ⟨0, none, some ⟨originOf x Op.LIFECYCLE_SET rq, q, slice 4 32 rq.payload⟩⟩ ∧ t.rd P.SPD_WIPE_BUSY = 1 ∧
      t.rd P.SPD_LIFECYCLE = s.rd P.SPD_LIFECYCLE ∧ t.rd P.HLT_STICKY = s.rd P.HLT_STICKY ∧ Only (some [F.cmd, F.fault, F.fresh, F.log, F.pad, F.rings, P.CMD_NOTICE_DROP, P.CMD_REFUSED_COUNT,
        P.HLT_FAULT_COUNT, P.HLT_STICKY, P.LOG_FLAGS, P.SPD_WIPE_BUSY, P.TBS_OVER_LIMIT_COUNT]) s t) ∧
  ∀ (rq : Request) (s : State) (x : Session) (q st : Nat), s.taken Op.LIFECYCLE_SET rq x → beAt 0 1 rq.payload = q →
    s.frozenMaster 11 = false →
    ((4 < q ∧ st = Status.BAD_VALUE) ∨
      (q ≤ 4 ∧ (s.rd P.SPD_TAMPER_SRC ≠ 0 ∨ s.pad.wipe ≠ none ∨
        (s.rd P.SPD_LIFECYCLE, q) ∉ [(0, 1), (1, 2), (2, 3), (3, 2), (1, 4), (2, 4), (3, 4)]) ∧ st = Status.LIFECYCLE_DENIED) ∨
      (q = 1 ∧ s.rd P.SPD_LIFECYCLE = 0 ∧ s.rd P.SPD_TAMPER_SRC = 0 ∧ s.pad.wipe = none ∧ beAt 4 32 rq.payload = 0 ∧
        st = Status.BAD_VALUE)) →
    ∃ t : State, exec (.lifecycleSet rq) s = .next t.settle ∧ t.replied x Op.LIFECYCLE_SET rq st [] ∧
      Only (some [F.cmd, F.rings, P.CMD_REFUSED_COUNT, P.TBS_OVER_LIMIT_COUNT]) s t

/-- A HELLO is sent once per second on every port on which NHP runs; a received one sets the port's neighbour, version and state,
makes a seeking worker join a candidate, and keeps or loses the parent of a joined one; 3.5 s of silence clear the port,
HIE_LOST_TIME of silence loses the parent. The manager registers a JOIN under the lowest free number and acknowledges it, a joined
worker passes it on; a worker whose JOIN is acknowledged is JOINED with its number, one that is refused or not answered in 2 s
seeks again and a JOIN is repeated each 500 ms; a LEAVE removes the entry. A message that a port does not take is discarded and
counted. Clauses that go beyond the cited rules are the model's choices: log entry 67. Completion: under conditions on the state
and the operands alone, as its clauses write them, exec answers a next state with the named effect for helloSend, hello,
helloSilence, managerLost, join, joinRetry, joinTimeout, joinAck and leave. -/
def Obligations.HierarchyMembersJoinAndLeave : Prop :=
  (∀ (port : Fin 512) (s : State), s.nhpRuns port.val = true → s.member ≠ 0 → port.val % 1000 * 1000000 ≤ s.time.out.nano →
    look port.val 0 s.nhp.helloAt ≠ s.time.out.sec + 1 →
    ∃ t : State, exec (.helloSend port) s = .next t ∧
      t.out = s.out ++ [.frame port.val (s.nhpFrame port.val 1 0x01 8 (s.rd P.HIE_IDENTITY) port.val (s.helloBody port.val))] ∧
      look port.val 0 t.nhp.helloAt = s.time.out.sec + 1 ∧ Only (some [F.nhp, P.TBS_OVER_LIMIT_COUNT]) s t) ∧
  (∀ (port : Fin 512) (s : State), (s.nhpRuns port.val = false ∨ s.member = 0 ∨ s.time.out.nano < port.val % 1000 * 1000000 ∨
      look port.val 0 s.nhp.helloAt = s.time.out.sec + 1) → exec (.helloSend port) s = .next s) ∧
  (∀ (port : Fin 512) (msg b : List Byte) (s : State) (v : Nat), s.nhpTakes port.val 0x01 msg = true → b = fit 32 (nhpBody msg) →
    v = commonVersion (beAt 1 1 b) (s.rd P.HIE_VERSIONS) →
    ∃ t : State, exec (.hello port msg) s = .next t ∧ t.rd P.HIE_NEIGHBOUR_ID port.val = nhpSender msg ∧
      t.rd P.HIE_PORT_VERSION port.val = v ∧ t.rd P.HIE_PORT_STATE port.val = (if v = 0 then 2 else 1) ∧
      (findBy Heard.port port.val t.nhp.heard).map (fun h => (h.at_, h.depth, h.root, h.sender)) =
        some (s.clock, beAt 2 1 b, beAt 4 8 b, nhpSender msg) ∧
      (s.member = 3 → s.rd P.HIE_PARENT_PORT = port.val → beAt 4 8 b ≠ 0 → (beAt 3 1 b).testBit 0 = false → t.member = 3 ∧
        t.rd P.HIE_DEPTH = (if beAt 2 1 b ≤ 6 then beAt 2 1 b + 1 else 15) ∧ t.nhp.manager = beAt 4 8 b) ∧
      (s.member = 3 → s.rd P.HIE_PARENT_PORT = port.val → (beAt 4 8 b = 0 ∨ (beAt 3 1 b).testBit 0 = true) →
        (t.member = 4 ∨ t.member = 2) ∧ (t.rd P.HIE_FLAGS).testBit 0 = true) ∧
      (s.member = 1 ∧ s.nhp.heard = [] ∧ v ≠ 0 ∧ beAt 4 8 b ≠ 0 ∧ (beAt 3 1 b).testBit 0 = false ∧ beAt 2 1 b ≤ 6 ∧
        (s.rd P.HIE_MANAGER_ID = 0 ∨ s.rd P.HIE_MANAGER_ID = beAt 4 8 b) → t.member = 2 ∧ t.rd P.HIE_PARENT_PORT = port.val ∧
        t.rd P.HIE_PARENT_ID = nhpSender msg) ∧ Only (some [F.cmd, F.nhp, F.rings, P.CMD_NOTICE_DROP, P.HIE_DEPTH, P.HIE_FLAGS, P.HIE_MEMBER_STATE, P.HIE_NEIGHBOUR_ID,
        P.HIE_PARENT_ID, P.HIE_PARENT_PORT, P.HIE_PORT_STATE, P.HIE_PORT_VERSION, P.HIE_RX_DISCARD, P.HIE_WORKER_NUM, P.TBS_OVER_LIMIT_COUNT]) s t) ∧
  (∀ (port : Fin 512) (s : State) (h : Heard), findBy Heard.port port.val s.nhp.heard = some h → h.at_ + 3500000000 ≤ s.clock →
    ∃ t : State, exec (.helloSilence port) s = .next t ∧ t.rd P.HIE_PORT_STATE port.val = 0 ∧
      t.rd P.HIE_PORT_VERSION port.val = 0 ∧ t.rd P.HIE_NEIGHBOUR_ID port.val = 0 ∧ findBy Heard.port port.val t.nhp.heard = none ∧
      Only (some [F.nhp, P.HIE_PORT_STATE, P.HIE_PORT_VERSION, P.HIE_NEIGHBOUR_ID]) s t) ∧
  (∀ (port : Fin 512) (s : State), (∀ h, findBy Heard.port port.val s.nhp.heard = some h → s.clock < h.at_ + 3500000000) →
    exec (.helloSilence port) s = .next s) ∧
  (∀ s : State, s.member = 3 → (∀ h, findBy Heard.port (s.rd P.HIE_PARENT_PORT) s.nhp.heard = some h →
      h.at_ + 1000000 * s.rd P.HIE_LOST_TIME ≤ s.clock) →
    ∃ t : State, exec .managerLost s = .next t ∧ (t.member = 4 ∨ t.member = 2) ∧ (t.rd P.HIE_FLAGS).testBit 0 = true ∧
      t.rd P.HIE_WORKER_NUM = 0xFFFF ∧ t.rd P.HIE_DEPTH = 15 ∧ Only (some [F.cmd, F.nhp, F.rings, P.CMD_NOTICE_DROP, P.HIE_DEPTH, P.HIE_FLAGS, P.HIE_MEMBER_STATE, P.HIE_PARENT_ID,
        P.HIE_PARENT_PORT, P.HIE_WORKER_NUM, P.TBS_OVER_LIMIT_COUNT]) s t) ∧
  (∀ s : State, (s.member ≠ 3 ∨ ∃ h, findBy Heard.port (s.rd P.HIE_PARENT_PORT) s.nhp.heard = some h ∧
      s.clock < h.at_ + 1000000 * s.rd P.HIE_LOST_TIME) → exec .managerLost s = .next s) ∧
  (∀ (port : Fin 512) (msg : List Byte) (s : State) (id n : Nat), s.nhpTakes port.val 0x02 msg = true → s.member = 5 →
    beAt 0 8 (nhpBody msg) = id → s.worker id = none → beAt 18 1 (nhpBody msg) ≤ 7 → s.freeNum = some n →
    s.nhp.registry.length < 262143 →
    ∃ (t : State) (e : RegEntry), exec (.join port msg) s = .next t ∧ t.nhp.registry = s.nhp.registry ++ [e] ∧ e.kind = 1 ∧
      e.id = id ∧ e.number = n ∧ e.depth = beAt 18 1 (nhpBody msg) ∧ e.at_ = s.clock ∧
      t.rd P.HIE_JOINS = (s.rd P.HIE_JOINS + 1) % 2 ^ 48 ∧
      t.out = s.out ++ [.frame port.val (s.nhpFrame port.val (s.rd P.HIE_PORT_VERSION port.val) 0x03 8 (s.rd P.HIE_IDENTITY) port.val
        (toBe 8 id ++ toBe 8 (s.rd P.HIE_IDENTITY) ++ toBe 2 n ++ toBe 1 0 ++ [0]))] ∧ Only (some [F.nhp, P.HIE_FLAGS, P.HIE_JOINS, P.HIE_REG_CLIENTS, P.HIE_REG_MODULES, P.HIE_RX_DISCARD, P.TBS_OVER_LIMIT_COUNT]) s t) ∧
  (∀ (port : Fin 512) (msg : List Byte) (s : State) (q : Nat), s.nhpTakes port.val 0x02 msg = true → s.member = 3 →
    s.rd P.HIE_PARENT_PORT = q → nhpHops msg ≠ 0 → s.nhpRuns q = true → s.rd P.HIE_PORT_VERSION q ≠ 0 →
    s.rd P.HIE_PORT_VERSION port.val ≠ 1 → s.nhp.children.length < 4096 →
    ∃ t : State, exec (.join port msg) s = .next t ∧ t.childPort (beAt 0 8 (nhpBody msg)) = some port.val ∧
      t.out = s.out ++ [.frame q (s.nhpFrame q (s.rd P.HIE_PORT_VERSION q) (nhpType msg) (nhpHops msg - 1) (nhpSender msg) (nhpPort msg)
        (nhpBody msg))] ∧ Only (some [F.nhp, P.TBS_OVER_LIMIT_COUNT]) s t) ∧
  (∀ (s : State) (h : Heard), s.member = 2 → s.nhp.joinAt + 500000000 ≤ s.clock →
    findBy Heard.port (s.rd P.HIE_PARENT_PORT) s.nhp.heard = some h →
    ∃ t : State, exec .joinRetry s = .next t ∧ t.nhp = { s.nhp with joinAt := s.clock } ∧
      t.out = (s.nhpSend (s.rd P.HIE_PARENT_PORT) 0x02 (toBe 8 (s.rd P.HIE_IDENTITY) ++ toBe 8 h.sender ++ toBe 2 h.senderPort ++
        toBe 1 (h.depth + 1) ++ toBe 1 (s.rd P.HIE_ROLE) ++ toBe 1 (s.rd P.HIE_PORT_VERSION (s.rd P.HIE_PARENT_PORT)) ++
        zeros 3)).out ∧ Only (some [F.nhp, P.TBS_OVER_LIMIT_COUNT]) s t) ∧
  (∀ s : State, s.member = 2 → s.nhp.joinSince + 2000000000 ≤ s.clock →
    ∃ t : State, exec .joinTimeout s = .next t ∧ t.member = 1 ∧ t.rd P.HIE_PARENT_ID = 0 ∧ t.rd P.HIE_PARENT_PORT = 1023 ∧
      Only (some [F.nhp, P.HIE_DEPTH, P.HIE_MEMBER_STATE, P.HIE_PARENT_ID, P.HIE_PARENT_PORT, P.HIE_WORKER_NUM]) s t) ∧
  (∀ s : State, (s.member ≠ 2 ∨ s.clock < s.nhp.joinAt + 500000000 → exec .joinRetry s = .next s) ∧
    (s.member ≠ 2 ∨ s.clock < s.nhp.joinSince + 2000000000 → exec .joinTimeout s = .next s)) ∧
  (∀ (port : Fin 512) (msg : List Byte) (s : State), s.nhpTakes port.val 0x03 msg = true → s.member = 2 →
    s.rd P.HIE_PARENT_PORT = port.val → beAt 0 8 (nhpBody msg) = s.rd P.HIE_IDENTITY →
    ∃ t : State, exec (.joinAck port msg) s = .next t ∧
      (beAt 18 1 (nhpBody msg) = 0 → t.member = 3 ∧ t.rd P.HIE_WORKER_NUM = beAt 16 2 (nhpBody msg) ∧
        t.nhp.manager = beAt 8 8 (nhpBody msg)) ∧
      (beAt 18 1 (nhpBody msg) ≠ 0 → t.member = 1 ∧ t.rd P.HIE_WORKER_NUM = 0xFFFF) ∧ Only (some [F.nhp, P.HIE_DEPTH, P.HIE_MEMBER_STATE, P.HIE_PARENT_ID, P.HIE_PARENT_PORT, P.HIE_RX_DISCARD, P.HIE_WORKER_NUM, P.TBS_OVER_LIMIT_COUNT]) s t) ∧
  (∀ (port : Fin 512) (msg : List Byte) (s : State) (e : RegEntry), s.nhpTakes port.val 0x04 msg = true → s.member = 5 →
    s.worker (beAt 0 8 (nhpBody msg)) = some e →
    ∃ t : State, exec (.leave port msg) s = .next t ∧ t.nhp.registry = s.nhp.registry.erase e ∧
      t.childPort (beAt 0 8 (nhpBody msg)) = none ∧ t.rd P.HIE_LEAVES = (s.rd P.HIE_LEAVES + 1) % 2 ^ 48 ∧
      Only (some [F.nhp, P.HIE_LEAVES, P.HIE_REG_CLIENTS, P.HIE_REG_MODULES, P.HIE_RX_DISCARD, P.TBS_OVER_LIMIT_COUNT]) s t) ∧
  ∀ (port : Fin 512) (msg : List Byte) (c : Instr) (type : Nat) (s : State), s.nhpTakes port.val type msg = false →
    (c, type) ∈ [(Instr.hello port msg, 0x01), (.join port msg, 0x02), (.joinAck port msg, 0x03), (.leave port msg, 0x04),
      (.status port msg, 0x05), (.clientReport (some (port, msg)), 0x06), (.tunnelReq port msg, 0x08), (.tunnelReply port msg, 0x09)] →
    ∃ t : State, exec c s = .next t ∧ t.rd P.HIE_RX_DISCARD = (s.rd P.HIE_RX_DISCARD + 1) % 2 ^ 48 ∧
      Only (some [P.HIE_RX_DISCARD, P.TBS_OVER_LIMIT_COUNT]) s t

/-- A joined worker sends its STATUS each second and reports its grants; the manager updates the entry a STATUS names, asks an unknown
worker to rejoin, enters reported clients, and removes what has not been refreshed for HIE_AGE. HIE_REGISTRY_READ answers the
entries from its cursor on. HIE_TUNNEL and HIE_FANOUT at the manager send their packet to the registered targets within the window
and are refused elsewhere; a target that does not answer in time is counted, and a tunnel without further targets ends TIMEOUT;
the packet that a TUNNEL_REPLY completes ends a tunnel OK; the packet that a TUNNEL_REQ for this module completes is handled as
the request it spells; packets that lack a segment after 100 ms are dropped. Clauses that go beyond the cited rules are the
model's choices: log entry 67. Completion: under conditions on the state and the operands alone, as its clauses write them, exec
answers a next state with the named effect for statusSend, status, clientReport, registryAgeing, hieRegistryRead, hieTunnel,
hieFanout, tunnelTimeout, tunnelReq, tunnelReply and segmentTimeout. -/
def Obligations.RegistryAndTunnelsServe : Prop :=
  (∀ (s : State) (p : Nat), s.member = 3 → s.rd P.HIE_PARENT_PORT = p → s.nhpRuns p = true → 2 ≤ s.rd P.HIE_PORT_VERSION p →
    (∀ c, s.nhp.statusAt = some c → c + 1000000000 ≤ s.clock) →
    ∃ t : State, exec .statusSend s = .next t ∧ t.nhp = { s.nhp with statusAt := some s.clock, lostSince := false } ∧
      (s.out ++ [.frame p (s.nhpFrame p (s.rd P.HIE_PORT_VERSION p) 0x05 8 (s.rd P.HIE_IDENTITY) p
        (statusBody (s.rd P.HIE_IDENTITY) (s.rd P.HIE_WORKER_NUM) (s.rd P.REF_TSTATE) (s.rd P.TBS_BOUND_NOW) (s.rd P.LNK_PTP_UNICAST)
          (2 * b2n s.nhp.lostSince)))]) <+: t.out ∧ Only (some [F.nhp, P.TBS_OVER_LIMIT_COUNT]) s t) ∧
  (∀ s : State, (s.member ≠ 3 ∨ s.rd P.HIE_PORT_VERSION (s.rd P.HIE_PARENT_PORT) < 2 ∨
      ∃ c, s.nhp.statusAt = some c ∧ s.clock < c + 1000000000) → exec .statusSend s = .next s) ∧
  (∀ (port : Fin 512) (msg b : List Byte) (s : State) (x : RegEntry), s.nhpTakes port.val 0x05 msg = true → b = nhpBody msg →
    s.member = 5 → s.worker (beAt 0 8 b) = some x →
    ∃ t : State, exec (.status port msg) s = .next t ∧
      t.nhp.registry = s.nhp.registry.map (fun z => if z = x then
        { x with tstate := beAt 10 1 b, code := beAt 11 1 b, seen := s.now, at_ := s.clock,
                 flags := b2n (bit 0 (beAt 14 1 b)) + 4 * b2n (bit 1 (beAt 14 1 b)) } else z) ∧
      Only (some [F.nhp, P.TBS_OVER_LIMIT_COUNT]) s t) ∧
  (∀ (port : Fin 512) (msg b : List Byte) (s : State), s.nhpTakes port.val 0x05 msg = true → b = nhpBody msg →
    s.member = 5 → s.worker (beAt 0 8 b) = none →
    ∃ t : State, exec (.status port msg) s = .next t ∧ t.nhp.registry = s.nhp.registry ∧
      t.out = s.out ++ [.frame port.val (s.nhpFrame port.val (s.rd P.HIE_PORT_VERSION port.val) 0x03 8 (s.rd P.HIE_IDENTITY) port.val
        (toBe 8 (beAt 0 8 b) ++ toBe 8 (s.rd P.HIE_IDENTITY) ++ toBe 2 0xFFFF ++ toBe 1 3 ++ [0]))] ∧ Only (some [F.nhp, P.TBS_OVER_LIMIT_COUNT]) s t) ∧
  (∀ s : State, s.member = 3 → 3 ≤ s.rd P.HIE_PORT_VERSION (s.rd P.HIE_PARENT_PORT) →
    (∀ c, s.nhp.reportAt = some c → c + 1000000000 * s.rd P.HIE_REPORT_PERIOD ≤ s.clock) →
    ∃ t : State, exec (.clientReport none) s = .next t ∧ t.nhp = { s.nhp with reported := s.grants, reportAt := some s.clock } ∧
      (s.nhpRuns (s.rd P.HIE_PARENT_PORT) = true → (clientsOf s.grants).length ≤ 262144 →
        t.out.length = s.out.length + ((clientsOf s.grants).length + 63) / 64) ∧ Only (some [F.nhp, P.TBS_OVER_LIMIT_COUNT]) s t) ∧
  (∀ (port : Fin 512) (msg b : List Byte) (s : State) (w : RegEntry), s.nhpTakes port.val 0x06 msg = true → b = nhpBody msg →
    b.length = 28 → beAt 10 1 b = 1 → s.member = 5 → s.worker (beAt 0 8 b) = some w → s.nhp.registry.length < 262143 →
    (∀ x ∈ s.nhp.registry, x.kind = 2 → x.id = beAt 12 8 b → x.number ≠ beAt 20 2 b) →
    ∃ (t : State) (e : RegEntry), exec (.clientReport (some (port, msg))) s = .next t ∧
      t.nhp.registry = s.nhp.registry ++ [e] ∧ e.kind = 2 ∧ e.id = beAt 12 8 b ∧ e.number = beAt 20 2 b ∧ e.parent = w.number ∧
      e.at_ = s.clock ∧ Only (some [F.nhp, P.HIE_REG_MODULES, P.HIE_REG_CLIENTS, P.TBS_OVER_LIMIT_COUNT]) s t) ∧
  (∀ s : State, ∃ t : State, exec .registryAgeing s = .next t ∧
      (∀ e, e ∈ t.nhp.registry ↔ e ∈ s.nhp.registry ∧ s.clock < e.at_ + 1000000000 * s.rd P.HIE_AGE) ∧
      (∀ d, d ∈ t.nhp.children ↔ d ∈ s.nhp.children ∧ s.clock < d.at_ + 1000000000 * s.rd P.HIE_AGE) ∧
      Only (some [F.nhp, P.HIE_LEAVES, P.HIE_REG_MODULES, P.HIE_REG_CLIENTS]) s t) ∧
  (∀ (rq : Request) (s : State) (x : Session) (n k : Nat) (es : List (RegEntry × Nat)), s.taken Op.HIE_REGISTRY_READ rq x →
    s.member = 5 → beAt 4 2 rq.payload = n → 1 ≤ n → n ≤ 127 → beAt 6 1 rq.payload = k → k ≤ 2 →
    es = ((s.ownEntry :: s.nhp.registry).zip (List.range (s.nhp.registry.length + 1))).filter (fun y =>
      decide (beAt 0 4 rq.payload ≤ y.2 ∧ (k = 0 ∨ (k = 1 ∧ y.1.kind ≤ 1) ∨ (k = 2 ∧ y.1.kind = 2)))) →
    ∃ t : State, exec (.hieRegistryRead rq) s = .next t.settle ∧
      t.replied x Op.HIE_REGISTRY_READ rq Status.OK
        (toBe 4 (((es.drop n).map Prod.snd).headD 0xFFFFFFFF) ++ toBe 2 (min n es.length) ++ zeros 2 ++
          ((es.take n).map fun y => y.1.bytes).flatten) ∧ Only (some [F.cmd, F.rings, P.CMD_REFUSED_COUNT, P.TBS_OVER_LIMIT_COUNT]) s t) ∧
  (∀ (rq : Request) (s : State) (x : Session) (st : Nat), s.taken Op.HIE_REGISTRY_READ rq x →
    (((beAt 4 2 rq.payload = 0 ∨ 127 < beAt 4 2 rq.payload ∨ 2 < beAt 6 1 rq.payload) ∧ st = Status.BAD_VALUE) ∨
      (1 ≤ beAt 4 2 rq.payload ∧ beAt 4 2 rq.payload ≤ 127 ∧ beAt 6 1 rq.payload ≤ 2 ∧ s.member ≠ 5 ∧ st = Status.NOT_READY)) →
    ∃ t : State, exec (.hieRegistryRead rq) s = .next t.settle ∧ t.replied x Op.HIE_REGISTRY_READ rq st [] ∧
      Only (some [F.cmd, F.rings, P.CMD_REFUSED_COUNT, P.TBS_OVER_LIMIT_COUNT]) s t) ∧
  (∀ (rq : Request) (s : State) (x : Session) (w : Nat) (e : RegEntry), s.taken Op.HIE_TUNNEL rq x → s.member = 5 →
    beAt 2 2 rq.payload ≠ 0 → beAt 0 2 rq.payload = w → s.workerNum w = some e → s.frozenMaster 2 = false →
    0 < s.rd P.HIE_FANOUT_WINDOW →
    ∃ (t : State) (y : Tunnel), exec (.hieTunnel rq) s = .next t.settle ∧ y ∈ t.nhp.tunnels ∧ y.origin = originOf x Op.HIE_TUNNEL rq ∧
      y.fan = false ∧ y.packet = rq.payload.drop 8 ∧ y.waiting = [] ∧
      y.flights = [⟨s.nhp.nextTunnel, w, s.clock + 1000000 * beAt 2 2 rq.payload⟩] ∧ t.accepted x ∧
      (∀ p ∈ (s.childPort e.id).toList,
        (s.sendSegments p 0x08 s.nhp.nextTunnel e.id (s.bindSession x.uid w (rq.payload.drop 8))).out.drop s.out.length <:+ t.out) ∧
      Only (some [F.cmd, F.nhp, F.rings, P.CMD_REFUSED_COUNT, P.HIE_TUNNEL_TIMEOUTS, P.TBS_OVER_LIMIT_COUNT]) s t) ∧
  (∀ (rq : Request) (s : State) (x : Session) (n d : Nat) (ws : List Nat) (p : List Byte), s.taken Op.HIE_FANOUT rq x → s.member = 5 →
    p = rq.payload → n = beAt 0 1 p → d = beAt 2 2 p → n ≤ 3 → beAt 4 2 p ≠ 0 → s.frozenMaster 2 = false → 0 < s.rd P.HIE_FANOUT_WINDOW →
    ws = (if n = 0 then (List.range d).map (fun i => beAt (8 + 2 * i) 2 p) else if n = 2 then s.subtree 8 [d]
      else (s.nhp.registry.filter fun e => e.kind == 1 && (n == 1 || e.depth == d)).map RegEntry.number) →
    (ws.all fun w => (s.workerNum w).isSome) = true →
    ws ≠ [] →
    ∃ (t : State) (y : Tunnel), exec (.hieFanout rq) s = .next t.settle ∧ y ∈ t.nhp.tunnels ∧
      y.origin = originOf x Op.HIE_FANOUT rq ∧ y.fan = true ∧ y.targets = ws.length ∧
      y.packet = p.drop (if n = 0 then 8 + 2 * d else 8) ∧ y.timeout = beAt 4 2 p ∧
      y.flights.map Flight.worker = ws.take (s.rd P.HIE_FANOUT_WINDOW) ∧ y.waiting = ws.drop (s.rd P.HIE_FANOUT_WINDOW) ∧
      t.accepted x ∧ Only (some [F.cmd, F.nhp, F.rings, P.CMD_REFUSED_COUNT, P.HIE_TUNNEL_TIMEOUTS, P.TBS_OVER_LIMIT_COUNT]) s t) ∧
  (∀ (rq : Request) (s : State) (x : Session) (n d : Nat) (ws : List Nat) (p : List Byte), s.taken Op.HIE_FANOUT rq x → s.member = 5 →
    p = rq.payload → n = beAt 0 1 p → d = beAt 2 2 p → n ≤ 3 → beAt 4 2 p ≠ 0 → s.frozenMaster 2 = false → 0 < s.rd P.HIE_FANOUT_WINDOW →
    ws = (if n = 0 then (List.range d).map (fun i => beAt (8 + 2 * i) 2 p) else if n = 2 then s.subtree 8 [d]
      else (s.nhp.registry.filter fun e => e.kind == 1 && (n == 1 || e.depth == d)).map RegEntry.number) →
    ws = [] →
    ∃ t : State, exec (.hieFanout rq) s = .next t.settle ∧ t.replied x Op.HIE_FANOUT rq Status.OK (zeros 8) ∧
      Only (some [F.cmd, F.nhp, F.rings, P.CMD_REFUSED_COUNT, P.HIE_TUNNEL_TIMEOUTS, P.TBS_OVER_LIMIT_COUNT]) s t) ∧
  (∀ (rq : Request) (s : State) (x : Session) (st : Nat), s.taken Op.HIE_TUNNEL rq x →
    ((s.member ≠ 5 ∧ st = Status.NOT_READY) ∨ (s.member = 5 ∧ beAt 2 2 rq.payload = 0 ∧ st = Status.BAD_VALUE) ∨
      (s.member = 5 ∧ beAt 2 2 rq.payload ≠ 0 ∧ s.workerNum (beAt 0 2 rq.payload) = none ∧ st = Status.NOT_FOUND) ∨
      (s.member = 5 ∧ beAt 2 2 rq.payload ≠ 0 ∧ s.workerNum (beAt 0 2 rq.payload) ≠ none ∧ s.frozenMaster 2 = true ∧
        st = Status.ABORTED)) →
    ∃ t : State, exec (.hieTunnel rq) s = .next t.settle ∧ t.replied x Op.HIE_TUNNEL rq st [] ∧
      Only (some [F.cmd, F.rings, P.CMD_REFUSED_COUNT, P.TBS_OVER_LIMIT_COUNT]) s t) ∧
  (∀ (rq : Request) (s : State) (x : Session) (st : Nat), s.taken Op.HIE_FANOUT rq x →
    ((s.member ≠ 5 ∧ st = Status.NOT_READY) ∨
      (s.member = 5 ∧ (3 < beAt 0 1 rq.payload ∨ beAt 4 2 rq.payload = 0) ∧ st = Status.BAD_VALUE) ∨
      (s.member = 5 ∧ beAt 0 1 rq.payload ≤ 3 ∧ beAt 4 2 rq.payload ≠ 0 ∧ s.frozenMaster 2 = true ∧ st = Status.ABORTED)) →
    ∃ t : State, exec (.hieFanout rq) s = .next t.settle ∧ t.replied x Op.HIE_FANOUT rq st [] ∧
      Only (some [F.cmd, F.rings, P.CMD_REFUSED_COUNT, P.TBS_OVER_LIMIT_COUNT]) s t) ∧
  (∀ (s : State) (y : Tunnel) (f : Flight), s.nhp.tunnels = [y] → y.flights = [f] → y.waiting = [] → y.fan = false →
    f.due ≤ s.clock → (s.sessionUid y.origin.uid).isSome = true →
    ∃ t : State, exec .tunnelTimeout s = .next t ∧ t.nhp.tunnels = [] ∧ t.answered y.origin Status.TIMEOUT [] ∧
      t.rd P.HIE_TUNNEL_TIMEOUTS = (s.rd P.HIE_TUNNEL_TIMEOUTS + 1) % 2 ^ 48 ∧ Only (some [F.cmd, F.nhp, F.rings, P.CMD_REFUSED_COUNT, P.HIE_TUNNEL_TIMEOUTS, P.TBS_OVER_LIMIT_COUNT]) s t) ∧
  (∀ s : State, (∀ y ∈ s.nhp.tunnels, ∀ f ∈ y.flights, s.clock < f.due ∧ (s.workerNum f.worker).isSome = true) →
    exec .tunnelTimeout s = .next s) ∧
  (∀ (port : Fin 512) (msg b pkt : List Byte) (s : State) (c : Instr), s.nhpTakes port.val 0x08 msg = true → b = nhpBody msg →
    s.rd P.HIE_PARENT_PORT = port.val → beAt 4 8 b = s.rd P.HIE_IDENTITY → s.frozenMaster 2 = false →
    ((s.stamped port.val).takeSegment port.val 0x08 b).2 = some pkt → 16 ≤ pkt.length →
    asRequest c = some (requestOf .nhp (beAt 0 4 b) pkt) →
    exec (.tunnelReq port msg) s = exec c ((s.stamped port.val).takeSegment port.val 0x08 b).1) ∧
  (∀ (port : Fin 512) (b : List Byte) (type : Nat) (s : State), beAt 12 1 b = 0 →
    (s.takeSegment port.val type b).2 = some (b.drop 16) ∧ Only (some [F.nhp]) s (s.takeSegment port.val type b).1) ∧
  (∀ (port : Fin 512) (msg b pkt : List Byte) (s : State) (y : Tunnel) (f : Flight), s.nhpTakes port.val 0x09 msg = true →
    b = nhpBody msg → s.member = 5 → s.frozenMaster 2 = false → beAt 12 1 b = 0 → pkt = b.drop 16 → s.nhp.tunnels = [y] →
    y.flights = [f] → f.id = beAt 0 4 b → s.clock ≤ f.due → y.fan = false → (beAt 1 1 pkt).testBit 2 = true → (s.sessionUid y.origin.uid).isSome = true →
    ∃ t : State, exec (.tunnelReply port msg) s = .next t ∧ t.nhp.tunnels = [] ∧
      t.answered y.origin Status.OK (toBe 2 f.worker ++ zeros 2 ++ pkt) ∧ Only (some [F.cmd, F.nhp, F.rings, P.CMD_REFUSED_COUNT, P.HIE_RX_DISCARD, P.HIE_TUNNEL_TIMEOUTS, P.TBS_OVER_LIMIT_COUNT]) s t) ∧
  ∀ s : State, ∃ t : State, exec .segmentTimeout s = .next t ∧
      (∀ r, r ∈ t.nhp.rebuilds ↔ r ∈ s.nhp.rebuilds ∧ s.clock < r.at_ + 100000000) ∧ Only (some [F.nhp]) s t

/-- Asserting RESET_N puts every register but the tamper sources, the life-cycle mirror and the state of PD0 at its reset value and
every domain but PD0 OFF, and keeps flash. The release, where no rail holds the module, requests PD1, PD2, PD4, PD5 and PD11,
makes core A (B where oven A's heater draws no current) ACTIVE and boots the valid image; without a valid image the boot fails. A
release that follows no assertion changes nothing, one while a rail holds the module only takes the pins. 1.2 s after the release
the values of flash are in place, start-up calibration waits and the remaining domains are requested. Clauses that go beyond the
cited rules are the model's choices: log entries 6, 44, 69. Completion: under conditions on the state and the operands alone, as
its clauses write them, exec answers a next state with the named effect for resetNAssert, resetNRelease and commandChannelReady. -/
def Obligations.ResetAndStartUp : Prop :=
  (∀ s : State, ∃ t : State, exec .resetNAssert s = .next t ∧ t.phase = .held ∧ t.power.resetN = false ∧ t.flash = s.flash ∧
      t.rd P.SPD_TAMPER_SRC = s.rd P.SPD_TAMPER_SRC ∧ t.rd P.SPD_LIFECYCLE = s.flash.lifecycle ∧
      t.rd P.PWR_DOMAIN_STATE 0 = (if 6 ∈ s.power.lostRails then 0 else 3) ∧
      (∀ b i, b ≠ P.SPD_TAMPER_SRC → b ≠ P.SPD_LIFECYCLE → (b, i) ≠ (P.PWR_DOMAIN_STATE, 0) → t.rd b i = resetOf b i) ∧
      (∀ d, 1 ≤ d → d < 13 → t.rd P.PWR_DOMAIN_STATE d = 0) ∧ t.cmd.sessions = [] ∧ t.out = s.out) ∧
  (∀ (pins : Fin 8) (heaterA : Bool) (s : State) (c : Nat) (image : Nat × Nat), s.power.resetN = false → s.railsHold = false →
    c = (if heaterA then 0 else 1) → s.flash.bootImage = some image →
    ∃ t : State, exec (.resetNRelease pins heaterA) s = .next t ∧ t.phase = .booting ∧ t.released = s.clock ∧ t.power.resetN = true ∧
      t.flash = s.flash ∧ t.rd P.REF_PINS = pins.val ∧ t.rd P.COR_STATE c = 4 ∧ t.rd P.COR_STATE (1 - c) = 0 ∧ t.rd P.COR_ACTIVE = c ∧
      t.rd P.PWR_BOOT_SLOT = image.1 ∧ t.rd P.SYS_FW_VERSION = image.2 ∧
      (∀ d ∈ [1, 2, 4, 5, 11], t.rd P.PWR_DOMAIN_STATE d = 2) ∧ (∀ d ∈ [3, 6, 7, 8, 9, 10, 12], t.rd P.PWR_DOMAIN_STATE d = 0) ∧
      Only (some ([F.cal, F.cmd, F.fault, F.fresh, F.log, F.phase, F.power, F.refs] ++
        [F.released, F.rings, F.servo, P.CMD_NOTICE_DROP, P.COR_ACTIVE, P.COR_STATE, P.HLT_FAULT_COUNT, P.HLT_STICKY] ++
        [P.LAN_STATE, P.LOG_KEY_STATE, P.PWR_BOOT_SLOT, P.PWR_DOMAIN_STATE, P.PWR_WAKE_ADMITTED, P.PWR_WAKE_MAX_WAIT, P.PWR_WAKE_QUEUE_LEN, P.PWR_WAKE_SLOPE] ++
        [P.PWR_WAKE_WAITED, P.REF_ACTIVE, P.REF_BREF, P.REF_DEV, P.REF_FLAGS, P.REF_HO_C, P.REF_HO_D, P.REF_HO_Y0] ++
        [P.REF_KIND, P.REF_PINS, P.REF_QSTATE, P.REF_SWLOG_HEAD, P.REF_SWLOG_INFO, P.REF_SWLOG_TIME, P.REF_TSTATE, P.SYS_FW_VERSION] ++
        [P.TBS_BOUND_NOW, P.TBS_BOUND_PS, P.TBS_DOM_SELECTED]))
        (State.resetModule { s with power := { s.power with resetN := true, pins := pins.val, heaterA := heaterA } }) t) ∧
  (∀ (pins : Fin 8) (heaterA : Bool) (s : State), s.power.resetN = false → s.railsHold = false → s.flash.bootImage = none →
    ∃ t : State, exec (.resetNRelease pins heaterA) s = .next t ∧ t.phase = .failed ∧
      t.rd P.COR_STATE (if heaterA then 0 else 1) = 4 ∧ (∀ d ∈ [3, 6, 7, 8, 9, 10, 12], t.rd P.PWR_DOMAIN_STATE d = 0)) ∧
  (∀ (pins : Fin 8) (heaterA : Bool) (s : State), s.power.resetN = false → s.railsHold = true →
    exec (.resetNRelease pins heaterA) s =
      .next { s with power := { s.power with resetN := true, pins := pins.val, heaterA := heaterA } }) ∧
  (∀ (pins : Fin 8) (heaterA : Bool) (s : State), s.power.resetN = true → exec (.resetNRelease pins heaterA) s = .next s) ∧
  (∀ s : State, s.phase = .booting → s.released + 1200000000 ≤ s.clock →
    ∃ t : State, exec .commandChannelReady s = .next t ∧ t.phase = .ready ∧ t.rd P.SYS_SERIAL = s.flash.serial ∧
      t.rd P.HIE_IDENTITY = s.flash.identity ∧ t.rd P.HIE_PORT_MAC_BASE = s.flash.macBase ∧
      (∀ d ∈ [6, 7, 8, 9, 10, 12], s.rd P.PWR_DOMAIN_STATE d = 0 → t.rd P.PWR_DOMAIN_STATE d ∈ [1, 2]) ∧
      (s.rdb P.GNS_ENABLE = true → s.rd P.PWR_DOMAIN_STATE 3 = 0 → t.rd P.PWR_DOMAIN_STATE 3 ∈ [1, 2]) ∧
      t.cal.startup = (List.range 8).map (fun k => ⟨2, k⟩) ++ (List.range 9).map (fun k => ⟨1, k⟩) ++ [⟨4, 0⟩] ∧
      (s.flash.certValid = false → (t.rd P.CAL_FLAGS).testBit 0 = true ∧ (t.rd P.HLT_STICKY).testBit 5 = true) ∧
      t.flash = s.flash ∧ Only (some ([F.cal, F.cmd, F.fault, F.fresh, F.nhp, F.phase, F.power, F.refs] ++
        [F.rings, F.servo, P.CAL_FLAGS, P.CMD_NOTICE_DROP, P.HIE_DEPTH, P.HIE_FLAGS, P.HIE_IDENTITY, P.HIE_MEMBER_STATE] ++
        [P.HIE_PARENT_ID, P.HIE_PARENT_PORT, P.HIE_PORT_MAC_BASE, P.HIE_REG_CLIENTS, P.HIE_REG_MODULES, P.HIE_WORKER_NUM, P.HLT_FAULT_COUNT, P.HLT_STICKY] ++
        [P.LAN_STATE, P.LNK_ASYM, P.LNK_ASYM_RES, P.PRT_FLAGS, P.PRT_HEADROOM, P.PRT_HEADROOM_POOL, P.PRT_HEADROOM_SUM, P.PWR_DOMAIN_STATE] ++
        [P.PWR_WAKE_ADMITTED, P.PWR_WAKE_MAX_WAIT, P.PWR_WAKE_QUEUE_LEN, P.PWR_WAKE_SLOPE, P.PWR_WAKE_WAITED, P.REF_ACTIVE, P.REF_BREF, P.REF_DEV] ++
        [P.REF_FLAGS, P.REF_HO_C, P.REF_HO_D, P.REF_HO_Y0, P.REF_KIND, P.REF_QSTATE, P.REF_SWLOG_HEAD, P.REF_SWLOG_INFO] ++
        [P.REF_SWLOG_TIME, P.REF_TSTATE, P.SYS_SERIAL, P.TBS_BOUND_NOW, P.TBS_BOUND_PS, P.TBS_DOM_SELECTED, P.TBS_OVER_LIMIT_COUNT])) s t) ∧
  ∀ s : State, (s.phase ≠ .booting ∨ s.clock < s.released + 1200000000) → exec .commandChannelReady s = .next s

/-- The head of the wake queue is admitted when it fits the budgets, starts its domain, lane or calibration item and its ramp, and is
counted; the end of ramps frees their slope. An admitted domain becomes UP at its power-good; a domain that loses it is waking
again, is OFF (a fabric domain, with shutter cause RAIL) or takes the module with it (PD0 and PD4). A lost rail is counted and
raises RAIL_FAULT once, and has its effect; a rail that has returned is no longer lost, and restarts the module where it held it.
Clauses that go beyond the cited rules are the model's choices: log entry 69. Completion: under conditions on the state and the
operands alone, as its clauses write them, exec answers a next state with the named effect for wakeAdmitted, rampEnd, powerGood,
domainPowerGoodLoss, railLoss and railRestored. -/
def Obligations.WakesPowerGoodAndRails : Prop :=
  (∀ (s : State) (r : WakeReq) (rest : List WakeReq), s.power.queue = r :: rest → s.wakeFits r = true →
    ∃ t : State, exec .wakeAdmitted s = .next t ∧ t.power.queue = rest ∧
      t.power.ramps = s.power.ramps ++ [if s.rd P.PWR_DIDT_BUDGET * 10 < (wakeCost r.kind r.num).1 then
        ⟨s.rd P.PWR_DIDT_BUDGET * 10, s.clock + ceilDiv ((wakeCost r.kind r.num).2.1 * 100) (s.rd P.PWR_DIDT_BUDGET)⟩
        else ⟨(wakeCost r.kind r.num).1, s.clock + (wakeCost r.kind r.num).2.2⟩] ∧
      t.rd P.PWR_WAKE_ADMITTED = (s.rd P.PWR_WAKE_ADMITTED + 1) % 2 ^ 48 ∧
      t.rd P.PWR_WAKE_MAX_WAIT = max (s.rd P.PWR_WAKE_MAX_WAIT) (clampU 32 ((s.clock - r.at_) / 1000)) ∧
      t.rd P.PWR_WAKE_QUEUE_LEN = clampU 11 rest.length ∧ t.rd P.PWR_WAKE_SLOPE = clampU 8 (t.slopes / 10) ∧
      (r.kind = .domain → t.rd P.PWR_DOMAIN_STATE r.num = 2 ∧ t.power.laneAdm = s.power.laneAdm) ∧
      (r.kind = .lane → t.rd P.LAN_STATE r.num = 2 ∧ s.clock ∈ t.power.laneAdm) ∧
      (r.kind = .cal → s.cal.run = none → t.cal.doing = s.cal.doing ++ [calItemOf r.num]) ∧ Only (some [F.cal, F.cmd, F.power, F.rings, P.CMD_NOTICE_DROP, P.LAN_STATE, P.PWR_DOMAIN_STATE, P.PWR_WAKE_ADMITTED,
        P.PWR_WAKE_MAX_WAIT, P.PWR_WAKE_QUEUE_LEN, P.PWR_WAKE_SLOPE]) s t) ∧
  (∀ s : State, (∀ r rest, s.power.queue = r :: rest → s.wakeFits r = false) → exec .wakeAdmitted s = .next s) ∧
  (∀ s : State, ∃ t : State, exec .rampEnd s = .next t ∧ (∀ r, r ∈ t.power.ramps ↔ r ∈ s.power.ramps ∧ s.clock < r.ends) ∧
      t.rd P.PWR_WAKE_SLOPE = clampU 8 (t.slopes / 10) ∧ Only (some [F.power, P.PWR_WAKE_QUEUE_LEN, P.PWR_WAKE_SLOPE]) s t) ∧
  (∀ (dom : Fin 13) (s : State), s.rd P.PWR_DOMAIN_STATE dom.val = 2 →
    (∀ r ∈ s.power.queue, ¬ (r.kind = .domain ∧ r.num = dom.val)) →
    ∃ t : State, exec (.powerGood dom) s = .next t ∧ t.rd P.PWR_DOMAIN_STATE dom.val = 3 ∧
      (dom.val = 1 ∨ dom.val = 2 → t.rd P.SYN_STATE (35 + dom.val) = 2 ∧
        (∀ k ∈ [32, 33, 34, 35], s.rd P.SYN_STATE k = 0 → t.rd P.SYN_STATE k = 2) ∧
        t.rd P.COR_STATE (dom.val - 1) = (if s.rd P.COR_STATE (dom.val - 1) = 0 then 1 else s.rd P.COR_STATE (dom.val - 1))) ∧
      (dom.val = 8 → s.rd P.FAB_STATE = 0 → s.rd P.PWR_SHUTTER_STATE = 0 →
        t.rd P.FAB_STATE = (if s.rd P.PWR_DOMAIN_STATE 6 = 3 ∧ s.rd P.PWR_DOMAIN_STATE 7 = 3 then 1 else 0)) ∧
      Only (some ([F.cal, F.cmd, F.fabric, F.fault, F.fresh, F.log, F.optics, F.power] ++
        [F.quay, F.refs, F.rings, F.servo, F.tables, P.BUF_QUARANTINED, P.CMD_NOTICE_DROP, P.COR_STATE] ++
        [P.FAB_STATE, P.FAB_STEP_COUNT, P.HLT_FAULT_COUNT, P.HLT_STICKY, P.LAN_STATE, P.LOG_HOLD_TIME, P.PWR_DOMAIN_STATE, P.PWR_WAKE_ADMITTED] ++
        [P.PWR_WAKE_MAX_WAIT, P.PWR_WAKE_QUEUE_LEN, P.PWR_WAKE_SLOPE, P.PWR_WAKE_WAITED, P.REF_ACTIVE, P.REF_BREF, P.REF_DEV, P.REF_FLAGS] ++
        [P.REF_HO_C, P.REF_HO_D, P.REF_HO_Y0, P.REF_KIND, P.REF_QSTATE, P.REF_SWLOG_HEAD, P.REF_SWLOG_INFO, P.REF_SWLOG_TIME] ++
        [P.REF_TSTATE, P.SYN_BAND_MISSES, P.SYN_STATE, P.SYN_VCO_FREQ, P.TBL_EPOCH, P.TBL_OCCUPANCY, P.TBL_REHASH_CURSOR, P.TBL_REHASH_STATE] ++
        [P.TBL_STASH_USED, P.TBS_BOUND_NOW, P.TBS_BOUND_PS, P.TBS_DOM_SELECTED])) s t) ∧
  (∀ (dom : Fin 13) (s : State), s.rd P.PWR_DOMAIN_STATE dom.val ≠ 2 → exec (.powerGood dom) s = .next s) ∧
  (∀ (dom : Fin 13) (s : State), s.rd P.PWR_DOMAIN_STATE dom.val = 3 →
    ∃ t : State, exec (.domainPowerGoodLoss dom) s = .next t.settle ∧
      (dom.val = 0 ∨ dom.val = 4 → t = s.resetModule ∧ t.phase = .held) ∧
      (dom.val = 1 ∨ dom.val = 2 → t.rd P.PWR_DOMAIN_STATE dom.val = 2 ∧ t.rd P.COR_STATE (dom.val - 1) = 0 ∧
        (t.rd P.COR_FLAGS).testBit (dom.val - 1) = true ∧ t.rd P.SYN_STATE (35 + dom.val) = 0 ∧
        (s.rd P.PWR_DOMAIN_STATE (3 - dom.val) ≠ 3 → ∀ k ∈ [32, 33, 34, 35], t.rd P.SYN_STATE k = 0) ∧
        Only (some ([F.cmd, F.fault, F.fresh, F.refs, F.rings, F.servo, F.time, P.CMD_NOTICE_DROP] ++
        [P.CMD_REFUSED_COUNT, P.COR_FLAGS, P.COR_SCORE, P.COR_STATE, P.COR_TEST_RESULT, P.HLT_FAULT_COUNT, P.HLT_STICKY, P.PWR_DOMAIN_STATE] ++
        [P.REF_ACTIVE, P.REF_DEV, P.REF_FLAGS, P.REF_HO_C, P.REF_HO_D, P.REF_HO_Y0, P.REF_QSTATE, P.REF_SWLOG_HEAD] ++
        [P.REF_SWLOG_INFO, P.REF_SWLOG_TIME, P.REF_TSTATE, P.SYN_STATE, P.TBS_BOUND_NOW, P.TBS_BOUND_PS, P.TBS_DOM_SELECTED, P.TBS_OVER_LIMIT_COUNT])) s t) ∧
      (dom.val = 3 → t.rd P.PWR_DOMAIN_STATE 3 = 2 ∧ t.gnss.channels = [] ∧ (s.qstate 0 ≠ 6 → t.qstate 0 = 0) ∧
        Only (some ([F.cmd, F.fault, F.fresh, F.gnss, F.refs, F.rings, F.servo, P.CMD_NOTICE_DROP] ++
        [P.CMD_REFUSED_COUNT, P.GNS_SATS_TRACKED, P.HLT_FAULT_COUNT, P.HLT_STICKY, P.PWR_DOMAIN_STATE, P.REF_ACTIVE, P.REF_DEV, P.REF_FLAGS] ++
        [P.REF_HO_C, P.REF_HO_D, P.REF_HO_Y0, P.REF_QSTATE, P.REF_SWLOG_HEAD, P.REF_SWLOG_INFO, P.REF_SWLOG_TIME, P.REF_TSTATE] ++
        [P.TBS_BOUND_NOW, P.TBS_BOUND_PS, P.TBS_DOM_SELECTED, P.TBS_OVER_LIMIT_COUNT])) s t) ∧
      (dom.val = 5 → t.rd P.PWR_DOMAIN_STATE 5 = 2 ∧ t.rd P.HST_LINK_WIDTH = 0 ∧ Only (some ([F.cmd, F.fabric, F.fault, F.hidden, F.log, F.quay, F.rings, F.sessions] ++
        [F.txSlots, P.BUF_DF_AGENT, P.BUF_DF_INDEX, P.BUF_DF_POOL, P.BUF_DF_TIME, P.BUF_DOUBLE_FREE, P.BUF_FLAGS, P.BUF_HELD] ++
        [P.BUF_QUARANTINED, P.BUF_SIGNALS, P.CMD_NOTICE_DROP, P.CMD_REFUSED_COUNT, P.CMD_SESSION_PRIV, P.CMD_SESSION_STATE, P.CMD_SESSION_TRANSPORT, P.HLT_FAULT_COUNT] ++
        [P.HLT_STICKY, P.HST_FLAGS, P.HST_LINK_SPEED, P.HST_LINK_WIDTH, P.HST_RING_STATE, P.HST_RXQ_BYTES, P.HST_RXQ_FLUSHED, P.LOG_SPILL_PEAK] ++
        [P.LOG_SPILL_USED, P.OBS_OVF, P.PRT_EGQ_BYTES, P.PRT_LINKDOWN_DROP, P.PWR_DOMAIN_STATE, P.TBS_OVER_LIMIT_COUNT])) s t) ∧
      (dom.val = 6 ∨ dom.val = 7 ∨ dom.val = 8 → t.rd P.PWR_DOMAIN_STATE dom.val = 0 ∧ t.rd P.FAB_STATE = 0 ∧
        (t.rd P.PWR_SHUTTER_CAUSE).testBit 1 = true ∧ (s.rd P.PWR_SHUTTER_STATE = 0 → t.rd P.PWR_SHUTTER_STATE = 1) ∧
        Only (some ([F.cal, F.cmd, F.fabric, F.fault, F.fresh, F.gnss, F.hidden, F.linkRun] ++
        [F.links, F.log, F.nhp, F.optics, F.pad, F.power, F.quay, F.refs] ++
        [F.rings, F.servo, F.tables, F.txSlots, F.windowAt, P.BUF_DF_AGENT, P.BUF_DF_INDEX, P.BUF_DF_POOL] ++
        [P.BUF_DF_TIME, P.BUF_DOUBLE_FREE, P.BUF_FLAGS, P.BUF_HELD, P.BUF_QUARANTINED, P.BUF_SIGNALS, P.CAL_FLAGS, P.CMD_NOTICE_DROP] ++
        [P.CMD_REFUSED_COUNT, P.FAB_BASIN_OCC, P.FAB_DRAIN_LOST, P.FAB_RESEQ_OCC, P.FAB_STATE, P.GNS_SATS_TRACKED, P.HIE_NEIGHBOUR_ID, P.HIE_PORT_STATE] ++
        [P.HIE_PORT_VERSION, P.HLT_FAULT_COUNT, P.HLT_STICKY, P.HST_RXQ_BYTES, P.LAN_STATE, P.LNK_BEVT, P.LNK_STATE, P.LOG_FLAGS] ++
        [P.LOG_HOLD_ACTIVE, P.LOG_HOLD_TIME, P.LOG_SEALS_MERGED, P.LOG_SEAL_SEQ, P.LOG_SPILL_PEAK, P.LOG_SPILL_USED, P.OBS_OVF, P.OBS_TRACE_DROP] ++
        [P.OBS_TRACE_HEAD, P.OBS_TRACE_OLDEST, P.OPT_LASER_STATE, P.OPT_SPARE_USED, P.PRT_EGQ_BYTES, P.PRT_LINKDOWN_DROP, P.PRT_LINK_UP, P.PRT_PFC_TX_XOFF] ++
        [P.PWR_DOMAIN_STATE, P.PWR_SHUTTER_CAUSE, P.PWR_SHUTTER_COUNT, P.PWR_SHUTTER_ENTRY_CAUSE, P.PWR_SHUTTER_STATE, P.PWR_WAKE_ADMITTED, P.PWR_WAKE_MAX_WAIT, P.PWR_WAKE_QUEUE_LEN] ++
        [P.PWR_WAKE_SLOPE, P.PWR_WAKE_WAITED, P.REF_ACTIVE, P.REF_DEV, P.REF_FLAGS, P.REF_HO_C, P.REF_HO_D, P.REF_HO_Y0] ++
        [P.REF_QSTATE, P.REF_SWLOG_HEAD, P.REF_SWLOG_INFO, P.REF_SWLOG_TIME, P.REF_TSTATE, P.SYN_STATE, P.TBL_EPOCH, P.TBL_OCCUPANCY] ++
        [P.TBL_REHASH_CURSOR, P.TBL_REHASH_STATE, P.TBL_STASH_USED, P.TBS_BOUND_NOW, P.TBS_BOUND_PS, P.TBS_DOM_SELECTED, P.TBS_OVER_LIMIT_COUNT, P.TBS_OVW_SKIP] ++
        [P.TBS_PTP_SKIP, P.TBS_TRAILER_SKIP])) s t) ∧
      (dom.val = 9 ∨ dom.val = 10 ∨ dom.val = 12 → t.rd P.PWR_DOMAIN_STATE dom.val = 2 ∧
        (∀ e ∈ domainEngines dom.val, ∀ i, i < 16 → t.rd P.LAN_STATE (16 * e + i) = 0) ∧
        Only (some ([F.cal, F.cmd, F.fabric, F.fault, F.fresh, F.hidden, F.linkRun, F.links] ++
        [F.nhp, F.optics, F.pad, F.power, F.quay, F.refs, F.rings, F.servo] ++
        [F.txSlots, F.windowAt, P.BUF_DF_AGENT, P.BUF_DF_INDEX, P.BUF_DF_POOL, P.BUF_DF_TIME, P.BUF_DOUBLE_FREE, P.BUF_FLAGS] ++
        [P.BUF_HELD, P.BUF_QUARANTINED, P.BUF_SIGNALS, P.CAL_FLAGS, P.CMD_NOTICE_DROP, P.CMD_REFUSED_COUNT, P.HIE_NEIGHBOUR_ID, P.HIE_PORT_STATE] ++
        [P.HIE_PORT_VERSION, P.HLT_FAULT_COUNT, P.HLT_STICKY, P.HST_RXQ_BYTES, P.LAN_STATE, P.LNK_BEVT, P.LNK_STATE, P.OBS_OVF] ++
        [P.OBS_TRACE_DROP, P.OBS_TRACE_HEAD, P.OBS_TRACE_OLDEST, P.PRT_EGQ_BYTES, P.PRT_LINKDOWN_DROP, P.PRT_LINK_UP, P.PRT_PFC_TX_XOFF, P.PWR_DOMAIN_STATE] ++
        [P.PWR_WAKE_ADMITTED, P.PWR_WAKE_MAX_WAIT, P.PWR_WAKE_QUEUE_LEN, P.PWR_WAKE_SLOPE, P.PWR_WAKE_WAITED, P.REF_ACTIVE, P.REF_DEV, P.REF_FLAGS] ++
        [P.REF_HO_C, P.REF_HO_D, P.REF_HO_Y0, P.REF_QSTATE, P.REF_SWLOG_HEAD, P.REF_SWLOG_INFO, P.REF_SWLOG_TIME, P.REF_TSTATE] ++
        [P.SYN_STATE, P.TBS_BOUND_NOW, P.TBS_BOUND_PS, P.TBS_DOM_SELECTED, P.TBS_OVER_LIMIT_COUNT])) s t) ∧
      (dom.val = 11 → t.rd P.PWR_DOMAIN_STATE 11 = 2 ∧ Only (some [P.PWR_DOMAIN_STATE]) s t)) ∧
  (∀ (dom : Fin 13) (s : State), s.rd P.PWR_DOMAIN_STATE dom.val ≠ 3 → exec (.domainPowerGoodLoss dom) s = .next s) ∧
  (∀ (rail : Fin 8) (mv : BitVec 16) (s : State), s.railInside rail.val mv.toNat = false → rail.val ∉ s.power.lostRails →
    ∃ t : State, exec (.railLoss rail mv) s = .next t ∧
      (rail.val ∈ [1, 2, 5, 6] → t.phase = .held ∧ t.power.lostRails = s.power.lostRails ++ [rail.val] ∧
        (∀ d, 1 ≤ d → d < 13 → t.rd P.PWR_DOMAIN_STATE d = 0) ∧
        t.rd P.SPD_TAMPER_SRC = (if rail.val = 6 then 0 else s.rd P.SPD_TAMPER_SRC)) ∧
      (rail.val ∈ [0, 3, 4, 7] → t.power.lostRails = s.power.lostRails ++ [rail.val] ∧ t.rd P.PWR_RAIL_MV rail.val = mv.toNat ∧
        t.rd P.PWR_RAIL_FAULTS rail.val = (s.rd P.PWR_RAIL_FAULTS rail.val + 1) % 2 ^ 48 ∧ (t.rd P.HLT_STICKY).testBit 18 = true) ∧
      (rail.val = 0 → (t.rd P.PWR_SHUTTER_CAUSE).testBit 1 = true ∧
        t.rd P.FAB_VCORE_MEAS = clampU 10 mv.toNat ∧
        Only (some ([F.cal, F.cmd, F.fabric, F.fault, F.fresh, F.gnss, F.hidden, F.linkRun] ++
        [F.links, F.log, F.nhp, F.optics, F.pad, F.power, F.quay, F.refs] ++
        [F.rings, F.servo, F.tables, F.txSlots, F.windowAt, P.BUF_DF_AGENT, P.BUF_DF_INDEX, P.BUF_DF_POOL] ++
        [P.BUF_DF_TIME, P.BUF_DOUBLE_FREE, P.BUF_FLAGS, P.BUF_HELD, P.BUF_QUARANTINED, P.BUF_SIGNALS, P.CAL_FLAGS, P.CMD_NOTICE_DROP] ++
        [P.CMD_REFUSED_COUNT, P.FAB_BASIN_OCC, P.FAB_DRAIN_LOST, P.FAB_PACE_NOW, P.FAB_RESEQ_OCC, P.FAB_STATE, P.FAB_VCORE_MEAS, P.GNS_SATS_TRACKED] ++
        [P.HIE_NEIGHBOUR_ID, P.HIE_PORT_STATE, P.HIE_PORT_VERSION, P.HLT_FAULT_COUNT, P.HLT_STICKY, P.HST_RXQ_BYTES, P.LAN_STATE, P.LNK_BEVT] ++
        [P.LNK_STATE, P.LOG_FLAGS, P.LOG_HOLD_ACTIVE, P.LOG_HOLD_TIME, P.LOG_SEALS_MERGED, P.LOG_SEAL_SEQ, P.LOG_SPILL_PEAK, P.LOG_SPILL_USED] ++
        [P.OBS_OVF, P.OBS_TRACE_DROP, P.OBS_TRACE_HEAD, P.OBS_TRACE_OLDEST, P.OPT_LASER_STATE, P.OPT_SPARE_USED, P.PRT_EGQ_BYTES, P.PRT_LINKDOWN_DROP] ++
        [P.PRT_LINK_UP, P.PRT_PFC_TX_XOFF, P.PWR_DOMAIN_STATE, P.PWR_RAIL_FAULTS, P.PWR_RAIL_MV, P.PWR_SHUTTER_CAUSE, P.PWR_SHUTTER_COUNT, P.PWR_SHUTTER_ENTRY_CAUSE] ++
        [P.PWR_SHUTTER_STATE, P.PWR_WAKE_ADMITTED, P.PWR_WAKE_MAX_WAIT, P.PWR_WAKE_QUEUE_LEN, P.PWR_WAKE_SLOPE, P.PWR_WAKE_WAITED, P.REF_ACTIVE, P.REF_DEV] ++
        [P.REF_FLAGS, P.REF_HO_C, P.REF_HO_D, P.REF_HO_Y0, P.REF_QSTATE, P.REF_SWLOG_HEAD, P.REF_SWLOG_INFO, P.REF_SWLOG_TIME] ++
        [P.REF_TSTATE, P.SYN_STATE, P.TBL_REHASH_STATE, P.TBS_BOUND_NOW, P.TBS_BOUND_PS, P.TBS_DOM_SELECTED, P.TBS_OVER_LIMIT_COUNT, P.TBS_OVW_SKIP] ++
        [P.TBS_PTP_SKIP, P.TBS_TRAILER_SKIP])) s t) ∧
      (rail.val = 3 → (∀ l, l < 512 → t.rd P.LAN_STATE l ≤ 2) ∧
        (s.qstate 0 ≠ 6 → t.qstate 0 = 0) ∧ Only (some ([F.cal, F.cmd, F.fabric, F.fault, F.fresh, F.hidden, F.linkRun, F.links] ++
        [F.nhp, F.optics, F.pad, F.power, F.quay, F.refs, F.rings, F.servo] ++
        [F.txSlots, F.windowAt, P.BUF_DF_AGENT, P.BUF_DF_INDEX, P.BUF_DF_POOL, P.BUF_DF_TIME, P.BUF_DOUBLE_FREE, P.BUF_FLAGS] ++
        [P.BUF_HELD, P.BUF_QUARANTINED, P.BUF_SIGNALS, P.CAL_FLAGS, P.CMD_NOTICE_DROP, P.CMD_REFUSED_COUNT, P.HIE_NEIGHBOUR_ID, P.HIE_PORT_STATE] ++
        [P.HIE_PORT_VERSION, P.HLT_FAULT_COUNT, P.HLT_STICKY, P.HST_RXQ_BYTES, P.LAN_STATE, P.LNK_BEVT, P.LNK_STATE, P.OBS_OVF] ++
        [P.OBS_TRACE_DROP, P.OBS_TRACE_HEAD, P.OBS_TRACE_OLDEST, P.PRT_EGQ_BYTES, P.PRT_LINKDOWN_DROP, P.PRT_LINK_UP, P.PRT_PFC_TX_XOFF, P.PWR_DOMAIN_STATE] ++
        [P.PWR_RAIL_FAULTS, P.PWR_RAIL_MV, P.PWR_WAKE_ADMITTED, P.PWR_WAKE_MAX_WAIT, P.PWR_WAKE_QUEUE_LEN, P.PWR_WAKE_SLOPE, P.PWR_WAKE_WAITED, P.REF_ACTIVE] ++
        [P.REF_DEV, P.REF_FLAGS, P.REF_HO_C, P.REF_HO_D, P.REF_HO_Y0, P.REF_QSTATE, P.REF_SWLOG_HEAD, P.REF_SWLOG_INFO] ++
        [P.REF_SWLOG_TIME, P.REF_TSTATE, P.TBS_BOUND_NOW, P.TBS_BOUND_PS, P.TBS_DOM_SELECTED, P.TBS_OVER_LIMIT_COUNT])) s t) ∧
      (rail.val = 4 ∨ rail.val = 7 → (∀ l, l < 512 → t.rd P.LAN_STATE l = 0) ∧
        Only (some ([F.cal, F.cmd, F.fabric, F.fault, F.fresh, F.hidden, F.linkRun, F.links] ++
        [F.nhp, F.optics, F.pad, F.power, F.quay, F.refs, F.rings, F.servo] ++
        [F.txSlots, F.windowAt, P.BUF_DF_AGENT, P.BUF_DF_INDEX, P.BUF_DF_POOL, P.BUF_DF_TIME, P.BUF_DOUBLE_FREE, P.BUF_FLAGS] ++
        [P.BUF_HELD, P.BUF_QUARANTINED, P.BUF_SIGNALS, P.CAL_FLAGS, P.CMD_NOTICE_DROP, P.CMD_REFUSED_COUNT, P.HIE_NEIGHBOUR_ID, P.HIE_PORT_STATE] ++
        [P.HIE_PORT_VERSION, P.HLT_FAULT_COUNT, P.HLT_STICKY, P.HST_RXQ_BYTES, P.LAN_STATE, P.LNK_BEVT, P.LNK_STATE, P.OBS_OVF] ++
        [P.OBS_TRACE_DROP, P.OBS_TRACE_HEAD, P.OBS_TRACE_OLDEST, P.PRT_EGQ_BYTES, P.PRT_LINKDOWN_DROP, P.PRT_LINK_UP, P.PRT_PFC_TX_XOFF, P.PWR_DOMAIN_STATE] ++
        [P.PWR_RAIL_FAULTS, P.PWR_RAIL_MV, P.PWR_WAKE_ADMITTED, P.PWR_WAKE_MAX_WAIT, P.PWR_WAKE_QUEUE_LEN, P.PWR_WAKE_SLOPE, P.PWR_WAKE_WAITED, P.REF_ACTIVE] ++
        [P.REF_DEV, P.REF_FLAGS, P.REF_HO_C, P.REF_HO_D, P.REF_HO_Y0, P.REF_QSTATE, P.REF_SWLOG_HEAD, P.REF_SWLOG_INFO] ++
        [P.REF_SWLOG_TIME, P.REF_TSTATE, P.TBS_BOUND_NOW, P.TBS_BOUND_PS, P.TBS_DOM_SELECTED, P.TBS_OVER_LIMIT_COUNT])) s t)) ∧
  (∀ (rail : Fin 8) (mv : BitVec 16) (s : State), (s.railInside rail.val mv.toNat = true ∨ rail.val ∈ s.power.lostRails) →
    exec (.railLoss rail mv) s = .next (s.railMeasured rail.val mv.toNat)) ∧
  (∀ (rail : Fin 8) (mv : BitVec 16) (s : State), (s.railMeasured rail.val mv.toNat).rd P.PWR_RAIL_MV rail.val = mv.toNat ∧
    (rail.val = 0 → (s.railMeasured 0 mv.toNat).rd P.FAB_VCORE_MEAS = clampU 10 mv.toNat ∧
      (s.railMeasured 0 mv.toNat).rd P.FAB_PACE_NOW = paceAt mv.toNat ∧ Only (some [F.fabric, F.power, P.FAB_PACE_NOW, P.FAB_VCORE_MEAS, P.PWR_RAIL_MV]) s (s.railMeasured 0 mv.toNat)) ∧
    (rail.val ≠ 0 → Only (some [P.PWR_RAIL_MV]) s (s.railMeasured rail.val mv.toNat))) ∧
  (∀ (rail : Fin 8) (mv : BitVec 16) (pins : Fin 8) (heaterA : Bool) (s : State), rail.val ∈ s.power.lostRails →
    s.railInside rail.val mv.toNat = true →
    ∃ t : State, exec (.railRestored rail mv pins heaterA) s = .next t ∧ rail.val ∉ t.power.lostRails ∧
      (∀ k, k ≠ rail.val → (k ∈ t.power.lostRails ↔ k ∈ s.power.lostRails)) ∧
      (rail.val = 0 → t.power.vcoreGood = (if 95 * s.rd P.FAB_VCORE_TARGET ≤ 100 * mv.toNat ∧
          100 * mv.toNat ≤ 105 * s.rd P.FAB_VCORE_TARGET then some s.clock else none) ∧
        t.rd P.FAB_VCORE_MEAS = clampU 10 mv.toNat ∧ Only (some [F.fabric, F.power, P.FAB_PACE_NOW, P.FAB_VCORE_MEAS, P.PWR_RAIL_MV]) s t) ∧
      (rail.val = 3 → Only (some [F.power, P.PWR_RAIL_MV]) s t) ∧
      (rail.val = 4 ∨ rail.val = 7 → Only (some [F.cal, F.cmd, F.power, F.rings, P.CMD_NOTICE_DROP, P.LAN_STATE, P.PWR_DOMAIN_STATE, P.PWR_RAIL_MV,
        P.PWR_WAKE_ADMITTED, P.PWR_WAKE_MAX_WAIT, P.PWR_WAKE_QUEUE_LEN, P.PWR_WAKE_SLOPE, P.PWR_WAKE_WAITED]) s t) ∧
      (rail.val = 6 → t.phase = .held ∧ t.power.resetN = false) ∧
      (rail.val ∈ [1, 2, 5] → s.power.resetN = true → (∀ k ∈ [1, 2, 5, 6], k ≠ rail.val → k ∉ s.power.lostRails) →
        (t.phase = .booting ∨ t.phase = .failed) ∧ t.released = s.clock) ∧
      (rail.val ∈ [1, 2, 5] → (s.power.resetN = false ∨ ∃ k ∈ [1, 2, 5, 6], k ≠ rail.val ∧ k ∈ s.power.lostRails) →
        t.phase = s.phase ∧ Only (some [F.power, P.PWR_RAIL_MV]) s t)) ∧
  ∀ (rail : Fin 8) (mv : BitVec 16) (pins : Fin 8) (heaterA : Bool) (s : State),
    (rail.val ∉ s.power.lostRails ∨ s.railInside rail.val mv.toNat = false) →
    exec (.railRestored rail mv pins heaterA) s = .next (s.railMeasured rail.val mv.toNat)

/-- SHUTTER_ENTER adds COMMAND to the causes in every state, and from NORMAL or LEAVING makes the state ENTERING: PD9 and PD10 and
their lanes are OFF, a running fabric drains, SHUTTER_COUNT rises and the fault is sticky. The drain's end switches PD6 to PD8
off; SHUTTER_LEAVE in SHUTTER with no other cause wakes the five domains and is OK in NORMAL and NOT_READY elsewhere; with the
five domains good the state is NORMAL and lanes that may wake leave OFF. A cause is cleared when its condition holds. A frame on a
keel port in shutter mode is trapped to its host queue or discarded and counted, and a bad one counted as in normal mode. A hot
die raises THERMAL_WARN, shutter cause TEMP or the tamper source; a watchdog's expiry is sticky and that of the forwarding
firmware a cause. STICKY_CLEAR clears the bits it names, and a standing one is raised again. FAULT_READ and WEAR_GET answer their
records, and an hourly wear sample is kept. Clauses that go beyond the cited rules are the model's choices: log entries 10, 69,
70. Completion: under conditions on the state and the operands alone, as its clauses write them, exec answers a next state with
the named effect for shutterEnter, shutterEntered, shutterLeave, shutterLeft, shutterCauseClear, keelFrame, dieTemperature,
watchdogExpiry, stickyClear, faultRead, wearGet and wearSample. -/
def Obligations.ShutterModeAndHealth : Prop :=
  (∀ (rq : Request) (s : State) (x : Session), s.taken Op.SHUTTER_ENTER rq x →
    ∃ t : State, exec (.shutterEnter rq) s = .next t.settle ∧ (t.rd P.PWR_SHUTTER_CAUSE).testBit 3 = true ∧
      (s.rd P.PWR_SHUTTER_STATE = 0 ∨ s.rd P.PWR_SHUTTER_STATE = 3 → t.rd P.PWR_SHUTTER_STATE = 1 ∧
        t.rd P.PWR_SHUTTER_ENTRY_CAUSE = t.rd P.PWR_SHUTTER_CAUSE ∧
        t.rd P.PWR_SHUTTER_COUNT = (s.rd P.PWR_SHUTTER_COUNT + 1) % 2 ^ 48 ∧ (t.rd P.HLT_STICKY).testBit 16 = true ∧
        t.rd P.PWR_DOMAIN_STATE 9 = 0 ∧ t.rd P.PWR_DOMAIN_STATE 10 = 0 ∧ (∀ l, 16 ≤ l → l < 496 → t.rd P.LAN_STATE l = 0)) ∧
      (s.rd P.PWR_SHUTTER_STATE = 0 → s.rd P.FAB_STATE = 2 → s.rd P.PWR_SHUTTER_CAUSE = 0 → t.rd P.FAB_STATE = 3 ∧
        t.fabric.drainBy = some (s.clock + 1000 * s.rd P.FAB_SHUTTER_DRAIN)) ∧
      (s.rd P.PWR_SHUTTER_STATE = 1 ∨ s.rd P.PWR_SHUTTER_STATE = 2 → t.rd P.PWR_SHUTTER_STATE = s.rd P.PWR_SHUTTER_STATE) ∧
      t.replied x Op.SHUTTER_ENTER rq Status.OK [] ∧ Only (some ([F.cal, F.cmd, F.fabric, F.fault, F.fresh, F.gnss, F.hidden, F.linkRun] ++
        [F.links, F.log, F.nhp, F.optics, F.pad, F.power, F.quay, F.refs] ++
        [F.rings, F.servo, F.tables, F.txSlots, F.windowAt, P.BUF_DF_AGENT, P.BUF_DF_INDEX, P.BUF_DF_POOL] ++
        [P.BUF_DF_TIME, P.BUF_DOUBLE_FREE, P.BUF_FLAGS, P.BUF_HELD, P.BUF_QUARANTINED, P.BUF_SIGNALS, P.CAL_FLAGS, P.CMD_NOTICE_DROP] ++
        [P.CMD_REFUSED_COUNT, P.FAB_BASIN_OCC, P.FAB_DRAIN_LOST, P.FAB_RESEQ_OCC, P.FAB_STATE, P.GNS_SATS_TRACKED, P.HIE_NEIGHBOUR_ID, P.HIE_PORT_STATE] ++
        [P.HIE_PORT_VERSION, P.HLT_FAULT_COUNT, P.HLT_STICKY, P.HST_RXQ_BYTES, P.LAN_STATE, P.LNK_BEVT, P.LNK_STATE, P.LOG_FLAGS] ++
        [P.LOG_HOLD_ACTIVE, P.LOG_HOLD_TIME, P.LOG_SEALS_MERGED, P.LOG_SEAL_SEQ, P.LOG_SPILL_PEAK, P.LOG_SPILL_USED, P.OBS_OVF, P.OBS_TRACE_DROP] ++
        [P.OBS_TRACE_HEAD, P.OBS_TRACE_OLDEST, P.OPT_LASER_STATE, P.OPT_SPARE_USED, P.PRT_EGQ_BYTES, P.PRT_LINKDOWN_DROP, P.PRT_LINK_UP, P.PRT_PFC_TX_XOFF] ++
        [P.PWR_DOMAIN_STATE, P.PWR_SHUTTER_CAUSE, P.PWR_SHUTTER_COUNT, P.PWR_SHUTTER_ENTRY_CAUSE, P.PWR_SHUTTER_STATE, P.PWR_WAKE_ADMITTED, P.PWR_WAKE_MAX_WAIT, P.PWR_WAKE_QUEUE_LEN] ++
        [P.PWR_WAKE_SLOPE, P.PWR_WAKE_WAITED, P.REF_ACTIVE, P.REF_DEV, P.REF_FLAGS, P.REF_HO_C, P.REF_HO_D, P.REF_HO_Y0] ++
        [P.REF_QSTATE, P.REF_SWLOG_HEAD, P.REF_SWLOG_INFO, P.REF_SWLOG_TIME, P.REF_TSTATE, P.SYN_STATE, P.TBL_REHASH_STATE, P.TBS_BOUND_NOW] ++
        [P.TBS_BOUND_PS, P.TBS_DOM_SELECTED, P.TBS_OVER_LIMIT_COUNT, P.TBS_OVW_SKIP, P.TBS_PTP_SKIP, P.TBS_TRAILER_SKIP])) s t) ∧
  (∀ s : State, s.rd P.PWR_SHUTTER_STATE = 1 → s.rd P.FAB_STATE ≤ 1 →
    ∃ t : State, exec .shutterEntered s = .next t ∧ t.rd P.PWR_SHUTTER_STATE = 2 ∧ t.rd P.FAB_STATE = 0 ∧
      (∀ d ∈ [6, 7, 8], t.rd P.PWR_DOMAIN_STATE d = 0) ∧ Only (some ([F.cmd, F.fabric, F.fault, F.hidden, F.log, F.pad, F.quay, F.rings] ++
        [F.tables, F.txSlots, F.windowAt, P.BUF_DF_AGENT, P.BUF_DF_INDEX, P.BUF_DF_POOL, P.BUF_DF_TIME, P.BUF_DOUBLE_FREE] ++
        [P.BUF_FLAGS, P.BUF_HELD, P.BUF_QUARANTINED, P.BUF_SIGNALS, P.CMD_NOTICE_DROP, P.CMD_REFUSED_COUNT, P.FAB_BASIN_OCC, P.FAB_DRAIN_LOST] ++
        [P.FAB_RESEQ_OCC, P.FAB_STATE, P.HLT_FAULT_COUNT, P.HLT_STICKY, P.HST_RXQ_BYTES, P.LOG_HOLD_TIME, P.OBS_OVF, P.OBS_TRACE_DROP] ++
        [P.OBS_TRACE_HEAD, P.OBS_TRACE_OLDEST, P.PRT_EGQ_BYTES, P.PRT_LINKDOWN_DROP, P.PRT_PFC_TX_XOFF, P.PWR_DOMAIN_STATE, P.PWR_SHUTTER_STATE, P.TBL_EPOCH] ++
        [P.TBL_OCCUPANCY, P.TBL_REHASH_CURSOR, P.TBL_REHASH_STATE, P.TBL_STASH_USED, P.TBS_OVER_LIMIT_COUNT, P.TBS_OVW_SKIP, P.TBS_PTP_SKIP, P.TBS_TRAILER_SKIP])) s t) ∧
  (∀ s : State, (s.rd P.PWR_SHUTTER_STATE ≠ 1 ∨ 1 < s.rd P.FAB_STATE) → exec .shutterEntered s = .next s) ∧
  (∀ (rq : Request) (s : State) (x : Session), s.taken Op.SHUTTER_LEAVE rq x → s.rd P.PWR_SHUTTER_STATE = 2 →
    (s.rd P.PWR_SHUTTER_CAUSE = 0 ∨ s.rd P.PWR_SHUTTER_CAUSE = 8) →
    ∃ (t : State) (ticket ahead : Nat), exec (.shutterLeave rq) s = .next t.settle ∧ t.rd P.PWR_SHUTTER_STATE = 3 ∧
      t.rd P.PWR_SHUTTER_CAUSE = 0 ∧ (∀ d ∈ [6, 7, 8, 9, 10], s.rd P.PWR_DOMAIN_STATE d = 0 → t.rd P.PWR_DOMAIN_STATE d ∈ [1, 2]) ∧
      (t.replied x Op.SHUTTER_LEAVE rq Status.OK [] ∨
        t.replied x Op.SHUTTER_LEAVE rq Status.WAKE_QUEUED (toBe 4 ticket ++ toBe 2 ahead ++ zeros 2)) ∧ Only (some [F.cal, F.cmd, F.power, F.rings, P.CMD_NOTICE_DROP, P.CMD_REFUSED_COUNT, P.LAN_STATE, P.PWR_DOMAIN_STATE,
        P.PWR_SHUTTER_CAUSE, P.PWR_SHUTTER_STATE, P.PWR_WAKE_ADMITTED, P.PWR_WAKE_MAX_WAIT, P.PWR_WAKE_QUEUE_LEN, P.PWR_WAKE_SLOPE, P.PWR_WAKE_WAITED, P.TBS_OVER_LIMIT_COUNT]) s t) ∧
  (∀ (rq : Request) (s : State) (x : Session) (st : Nat), s.taken Op.SHUTTER_LEAVE rq x →
    ((s.rd P.PWR_SHUTTER_STATE = 0 ∧ st = Status.OK) ∨ (s.rd P.PWR_SHUTTER_STATE ∈ [1, 3] ∧ st = Status.NOT_READY) ∨
      (s.rd P.PWR_SHUTTER_STATE = 2 ∧ clrBit 3 (s.rd P.PWR_SHUTTER_CAUSE) ≠ 0 ∧ st = Status.NOT_READY)) →
    ∃ t : State, exec (.shutterLeave rq) s = .next t.settle ∧ t.replied x Op.SHUTTER_LEAVE rq st [] ∧
      Only (some [F.cmd, F.rings, P.CMD_REFUSED_COUNT, P.TBS_OVER_LIMIT_COUNT]) s t) ∧
  (∀ s : State, s.rd P.PWR_SHUTTER_STATE = 3 → (∀ d ∈ [6, 7, 8, 9, 10], s.rd P.PWR_DOMAIN_STATE d = 3) → s.power.queue = [] →
    ∃ t : State, exec .shutterLeft s = .next t ∧ t.rd P.PWR_SHUTTER_STATE = 0 ∧
      (∀ l, 16 ≤ l → l < 496 → s.laneMayWake l = true → t.rd P.LAN_STATE l ∈ [1, 2]) ∧ Only (some [F.cal, F.cmd, F.log, F.power, F.rings, P.CMD_NOTICE_DROP, P.GNS_SATS_TRACKED, P.LAN_STATE,
        P.LOG_HOLD_TIME, P.PWR_DOMAIN_STATE, P.PWR_SHUTTER_STATE, P.PWR_WAKE_ADMITTED, P.PWR_WAKE_MAX_WAIT, P.PWR_WAKE_QUEUE_LEN, P.PWR_WAKE_SLOPE, P.PWR_WAKE_WAITED]) s t) ∧
  (∀ s : State, (s.rd P.PWR_SHUTTER_STATE ≠ 3 ∨ s.rd P.PWR_DOMAIN_STATE 6 ≠ 3 ∨ s.rd P.PWR_DOMAIN_STATE 7 ≠ 3 ∨
      s.rd P.PWR_DOMAIN_STATE 8 ≠ 3 ∨ s.rd P.PWR_DOMAIN_STATE 9 ≠ 3 ∨ s.rd P.PWR_DOMAIN_STATE 10 ≠ 3) →
    exec .shutterLeft s = .next s) ∧
  (∀ (cause : Fin 4) (s : State), ((cause.val = 0 ∧ ∀ d < 3, s.rdS 16 P.HLT_DIE_TEMP d < s.rd P.PWR_SHUTTER_TEMP_CLEAR) ∨
      (cause.val = 1 ∧ s.power.vcoreGood.any (fun c => decide (c + 1000000000 ≤ s.clock)) = true) ∨
      (cause.val = 2 ∧ s.power.fwRestart + 1000000000 ≤ s.clock)) →
    ∃ t : State, exec (.shutterCauseClear cause) s = .next t ∧
      (∀ n, (t.rd P.PWR_SHUTTER_CAUSE).testBit n = (decide (n ≠ cause.val) && (s.rd P.PWR_SHUTTER_CAUSE).testBit n)) ∧
      Only (some [P.PWR_SHUTTER_CAUSE]) s t) ∧
  (∀ (cause : Fin 4) (s : State), (cause.val = 3 ∨
      (cause.val = 0 ∧ (s.rd P.PWR_SHUTTER_TEMP_CLEAR ≤ s.rdS 16 P.HLT_DIE_TEMP 0 ∨
        s.rd P.PWR_SHUTTER_TEMP_CLEAR ≤ s.rdS 16 P.HLT_DIE_TEMP 1 ∨ s.rd P.PWR_SHUTTER_TEMP_CLEAR ≤ s.rdS 16 P.HLT_DIE_TEMP 2)) ∨
      (cause.val = 1 ∧ s.power.vcoreGood.any (fun c => decide (c + 1000000000 ≤ s.clock)) = false) ∨ (cause.val = 2 ∧ s.clock < s.power.fwRestart + 1000000000)) →
    exec (.shutterCauseClear cause) s = .next s) ∧
  (∀ (port : Fin 512) (bytes : List Byte) (raw : RawStamp) (s u : State) (z : Stamp) (f : Frame) (vid : Nat),
    s.rd P.PWR_SHUTTER_STATE ≠ 0 → keelPort port.val = true → s.portUp port.val = true → fcsGood bytes = true →
    64 ≤ bytes.length → bytes.length ≤ s.rd P.PRT_MAX_FRAME port.val → isMacControl bytes = false → isNhp bytes = false → s.ptpServed port.val bytes = false → s.rxStamp port.val raw = (u, z) →
    vid = (tagVid bytes).getD (s.rd P.TBL_PVID port.val) →
    f = u.newFrame port.val bytes ⟨vid, s.rd P.TBL_PORT_GROUP port.val * 4096 + vid, 0, 0, port.val⟩ z bytes.length false true none →
    ∃ t : State, exec (.keelFrame port ⟨bytes, false⟩ raw) s = .next t ∧
      (u.trapOf f = none → t.rd P.PWR_SHUTTER_DISCARD = (s.rd P.PWR_SHUTTER_DISCARD + 1) % 2 ^ 48 ∧ t.quay = s.quay ∧
        t.fabric = s.fabric) ∧
      (∀ q i, u.trapOf f = some (q, i) → u.rxQueueTakes q f = true → t.fabric.frames = s.fabric.frames ++ [f] ∧
        t.quay.copies = s.quay.copies ++ [⟨s.quay.nextCopy, f.id, 0, f.cls, s.clock, f.size, none, none, some (q, i), true, none⟩] ∧
        t.rd P.HST_RXQ_BYTES q = s.rd P.HST_RXQ_BYTES q + f.size) ∧
      (∀ q i, u.trapOf f = some (q, i) → u.rxQueueTakes q f = false → t.quay = s.quay ∧ t.fabric = s.fabric ∧
        t.rd P.PWR_SHUTTER_DISCARD = (s.rd P.PWR_SHUTTER_DISCARD + 1) % 2 ^ 48 ∧
        t.rd P.HST_RXQ_BYPASS q = (s.rd P.HST_RXQ_BYPASS q + 1) % 2 ^ 48) ∧
      Only (some [F.fabric, F.hidden, F.params, F.quay]) s t) ∧
  (∀ (port : Fin 512) (bytes : List Byte) (bad : Bool) (raw : RawStamp) (s : State),
    (s.rd P.PWR_SHUTTER_STATE = 0 ∨ keelPort port.val = false ∨ s.portUp port.val = false ∨
      (bad = false ∧ fcsGood bytes = true ∧ 64 ≤ bytes.length ∧ bytes.length ≤ s.rd P.PRT_MAX_FRAME port.val ∧
        (isMacControl bytes = true ∨ isNhp bytes = true ∨ s.ptpServed port.val bytes = true))) →
    exec (.keelFrame port ⟨bytes, bad⟩ raw) s = .next s) ∧
  (∀ (port : Fin 512) (bytes : List Byte) (bad : Bool) (raw : RawStamp) (s : State) (c : Nat), s.rd P.PWR_SHUTTER_STATE ≠ 0 →
    keelPort port.val = true → s.portUp port.val = true → s.rd P.OBS_FROZEN = 0 →
    (((bad = true ∨ fcsGood bytes = false) ∧ c = P.PRT_RX_FCS_ERR) ∨
      (bad = false ∧ fcsGood bytes = true ∧ bytes.length < 64 ∧ c = P.PRT_RX_RUNT) ∨
      (bad = false ∧ fcsGood bytes = true ∧ 64 ≤ bytes.length ∧ s.rd P.PRT_MAX_FRAME port.val < bytes.length ∧
        c = P.PRT_RX_OVERSIZE)) →
    ∃ t : State, exec (.keelFrame port ⟨bytes, bad⟩ raw) s = .next t ∧ t.rd c port.val = (s.rd c port.val + 1) % 2 ^ 48 ∧
      Only (some [c, P.OBS_OVF, P.TBS_OVER_LIMIT_COUNT]) s t) ∧
  (∀ (die : Fin 6) (temp : BitVec 16) (s : State),
    ∃ t : State, exec (.dieTemperature die temp) s = .next t ∧ t.rd P.HLT_DIE_TEMP die.val = temp.toNat ∧
      ((s.rd P.HLT_TEMP_WARN : Int) ≤ temp.toInt → (t.rd P.HLT_STICKY).testBit 17 = true) ∧
      (die.val ≤ 2 → (s.rd P.PWR_SHUTTER_TEMP : Int) ≤ temp.toInt → (t.rd P.PWR_SHUTTER_CAUSE).testBit 0 = true) ∧
      (die.val ≤ 2 → (s.rd P.PWR_SHUTTER_TEMP : Int) ≤ temp.toInt → s.rd P.PWR_SHUTTER_CAUSE = 0 → s.rd P.PWR_SHUTTER_STATE = 0 →
        t.rd P.PWR_SHUTTER_STATE = 1) ∧
      (s.rdS 16 P.SPD_TEMP_LOW ≤ s.rdS 16 P.HLT_DIE_TEMP die.val → s.rdS 16 P.HLT_DIE_TEMP die.val ≤ s.rdS 16 P.SPD_TEMP_HIGH →
        (temp.toInt < s.rdS 16 P.SPD_TEMP_LOW ∨ s.rdS 16 P.SPD_TEMP_HIGH < temp.toInt) →
        (t.rd P.SPD_TAMPER_SRC).testBit 4 = true ∧ t.pad.active.testBit 4 = true) ∧
      (temp.toInt < s.rd P.HLT_TEMP_WARN → temp.toInt < s.rd P.PWR_SHUTTER_TEMP → s.rdS 16 P.SPD_TEMP_LOW ≤ temp.toInt →
        temp.toInt ≤ s.rdS 16 P.SPD_TEMP_HIGH → Only (some [F.pad, P.HLT_DIE_TEMP]) s t) ∧
      Only (some ([F.cal, F.cmd, F.fabric, F.fault, F.fresh, F.gnss, F.hidden, F.linkRun] ++
        [F.links, F.log, F.nhp, F.optics, F.pad, F.power, F.quay, F.refs] ++
        [F.rings, F.servo, F.tables, F.txSlots, F.windowAt, P.BUF_DF_AGENT, P.BUF_DF_INDEX, P.BUF_DF_POOL] ++
        [P.BUF_DF_TIME, P.BUF_DOUBLE_FREE, P.BUF_FLAGS, P.BUF_HELD, P.BUF_QUARANTINED, P.BUF_SIGNALS, P.CAL_FLAGS, P.CMD_NOTICE_DROP] ++
        [P.CMD_REFUSED_COUNT, P.FAB_BASIN_OCC, P.FAB_DRAIN_LOST, P.FAB_RESEQ_OCC, P.FAB_STATE, P.GNS_SATS_TRACKED, P.HIE_NEIGHBOUR_ID, P.HIE_PORT_STATE] ++
        [P.HIE_PORT_VERSION, P.HLT_DIE_TEMP, P.HLT_FAULT_COUNT, P.HLT_STICKY, P.HST_RXQ_BYTES, P.LAN_STATE, P.LNK_BEVT, P.LNK_STATE] ++
        [P.LOG_FLAGS, P.LOG_HOLD_ACTIVE, P.LOG_HOLD_TIME, P.LOG_SEALS_MERGED, P.LOG_SEAL_SEQ, P.LOG_SPILL_PEAK, P.LOG_SPILL_USED, P.OBS_OVF] ++
        [P.OBS_TRACE_DROP, P.OBS_TRACE_HEAD, P.OBS_TRACE_OLDEST, P.OPT_LASER_STATE, P.OPT_SPARE_USED, P.PRT_EGQ_BYTES, P.PRT_LINKDOWN_DROP, P.PRT_LINK_UP] ++
        [P.PRT_PFC_TX_XOFF, P.PWR_DOMAIN_STATE, P.PWR_SHUTTER_CAUSE, P.PWR_SHUTTER_COUNT, P.PWR_SHUTTER_ENTRY_CAUSE, P.PWR_SHUTTER_STATE, P.PWR_WAKE_ADMITTED, P.PWR_WAKE_MAX_WAIT] ++
        [P.PWR_WAKE_QUEUE_LEN, P.PWR_WAKE_SLOPE, P.PWR_WAKE_WAITED, P.REF_ACTIVE, P.REF_DEV, P.REF_FLAGS, P.REF_HO_C, P.REF_HO_D] ++
        [P.REF_HO_Y0, P.REF_QSTATE, P.REF_SWLOG_HEAD, P.REF_SWLOG_INFO, P.REF_SWLOG_TIME, P.REF_TSTATE, P.SPD_TAMPER_SRC, P.SPD_WIPE_BUSY] ++
        [P.SYN_STATE, P.TBL_REHASH_STATE, P.TBS_BOUND_NOW, P.TBS_BOUND_PS, P.TBS_DOM_SELECTED, P.TBS_OVER_LIMIT_COUNT, P.TBS_OVW_SKIP, P.TBS_PTP_SKIP] ++
        [P.TBS_TRAILER_SKIP])) s t) ∧
  (∀ (fw : Fin 4) (s : State), ∃ t : State, exec (.watchdogExpiry fw) s = .next t ∧ (t.rd P.HLT_STICKY).testBit 19 = true ∧
      (fw.val = 3 → (t.rd P.PWR_SHUTTER_CAUSE).testBit 2 = true ∧ t.power.fwRestart = s.clock) ∧
      (fw.val ≠ 3 → Only (some [F.cmd, F.fault, F.rings, P.CMD_NOTICE_DROP, P.HLT_FAULT_COUNT, P.HLT_STICKY]) s t) ∧ Only (some ([F.cal, F.cmd, F.fabric, F.fault, F.fresh, F.gnss, F.hidden, F.linkRun] ++
        [F.links, F.log, F.nhp, F.optics, F.pad, F.power, F.quay, F.refs] ++
        [F.rings, F.servo, F.tables, F.txSlots, F.windowAt, P.BUF_DF_AGENT, P.BUF_DF_INDEX, P.BUF_DF_POOL] ++
        [P.BUF_DF_TIME, P.BUF_DOUBLE_FREE, P.BUF_FLAGS, P.BUF_HELD, P.BUF_QUARANTINED, P.BUF_SIGNALS, P.CAL_FLAGS, P.CMD_NOTICE_DROP] ++
        [P.CMD_REFUSED_COUNT, P.FAB_BASIN_OCC, P.FAB_DRAIN_LOST, P.FAB_RESEQ_OCC, P.FAB_STATE, P.GNS_SATS_TRACKED, P.HIE_NEIGHBOUR_ID, P.HIE_PORT_STATE] ++
        [P.HIE_PORT_VERSION, P.HLT_FAULT_COUNT, P.HLT_STICKY, P.HST_RXQ_BYTES, P.LAN_STATE, P.LNK_BEVT, P.LNK_STATE, P.LOG_FLAGS] ++
        [P.LOG_HOLD_ACTIVE, P.LOG_HOLD_TIME, P.LOG_SEALS_MERGED, P.LOG_SEAL_SEQ, P.LOG_SPILL_PEAK, P.LOG_SPILL_USED, P.OBS_OVF, P.OBS_TRACE_DROP] ++
        [P.OBS_TRACE_HEAD, P.OBS_TRACE_OLDEST, P.OPT_LASER_STATE, P.OPT_SPARE_USED, P.PRT_EGQ_BYTES, P.PRT_LINKDOWN_DROP, P.PRT_LINK_UP, P.PRT_PFC_TX_XOFF] ++
        [P.PWR_DOMAIN_STATE, P.PWR_SHUTTER_CAUSE, P.PWR_SHUTTER_COUNT, P.PWR_SHUTTER_ENTRY_CAUSE, P.PWR_SHUTTER_STATE, P.PWR_WAKE_ADMITTED, P.PWR_WAKE_MAX_WAIT, P.PWR_WAKE_QUEUE_LEN] ++
        [P.PWR_WAKE_SLOPE, P.PWR_WAKE_WAITED, P.REF_ACTIVE, P.REF_DEV, P.REF_FLAGS, P.REF_HO_C, P.REF_HO_D, P.REF_HO_Y0] ++
        [P.REF_QSTATE, P.REF_SWLOG_HEAD, P.REF_SWLOG_INFO, P.REF_SWLOG_TIME, P.REF_TSTATE, P.SYN_STATE, P.TBL_REHASH_STATE, P.TBS_BOUND_NOW] ++
        [P.TBS_BOUND_PS, P.TBS_DOM_SELECTED, P.TBS_OVER_LIMIT_COUNT, P.TBS_OVW_SKIP, P.TBS_PTP_SKIP, P.TBS_TRAILER_SKIP])) s t) ∧
  (∀ (rq : Request) (s : State) (x : Session) (mask : Nat), s.taken Op.STICKY_CLEAR rq x → mask = beAt 0 4 rq.payload → mask ≠ 0 →
    mask < 2 ^ 23 →
    ∃ t : State, exec (.stickyClear rq) s = .next t.settle ∧ t.replied x Op.STICKY_CLEAR rq Status.OK [] ∧
      (∀ n, (t.rd P.HLT_STICKY).testBit n =
        if mask.testBit n then s.standing.any (fun y => y.1 == n) else (s.rd P.HLT_STICKY).testBit n) ∧
      ((beAt 4 1 rq.payload).testBit 0 = true → (∀ y ∈ s.standing, mask.testBit y.1 = false) → t.fault = none) ∧
      ((beAt 4 1 rq.payload).testBit 0 = false → (∀ y ∈ s.standing, mask.testBit y.1 = false) → t.fault = s.fault) ∧
      Only (some [F.cmd, F.fault, F.rings, P.CMD_NOTICE_DROP, P.CMD_REFUSED_COUNT, P.HLT_FAULT_COUNT, P.HLT_STICKY, P.TBS_OVER_LIMIT_COUNT]) s t) ∧
  (∀ (rq : Request) (s : State) (x : Session), s.taken Op.STICKY_CLEAR rq x →
    (beAt 0 4 rq.payload = 0 ∨ 2 ^ 23 ≤ beAt 0 4 rq.payload) →
    ∃ t : State, exec (.stickyClear rq) s = .next t.settle ∧ t.replied x Op.STICKY_CLEAR rq Status.BAD_VALUE [] ∧
      Only (some [F.cmd, F.rings, P.CMD_REFUSED_COUNT, P.TBS_OVER_LIMIT_COUNT]) s t) ∧
  (∀ (rq : Request) (s : State) (x : Session), s.taken Op.FAULT_READ rq x →
    ∃ t : State, exec (.faultRead rq) s = .next t.settle ∧ t.replied x Op.FAULT_READ rq Status.OK (match s.fault with
        | none => [0xFF] ++ zeros 23 ++ toBe 4 (s.rd P.HLT_STICKY) ++ zeros 4
        | some f => toBe 1 f.fbit ++ toBe 1 f.tstate ++ toBe 1 f.core ++ toBe 1 f.fab ++ toBe 8 f.time ++ toBe 4 f.mask ++
            toBe 8 f.detail ++ toBe 4 (s.rd P.HLT_STICKY) ++ toBe 4 f.count) ∧
      Only (some [F.cmd, F.rings, P.CMD_REFUSED_COUNT, P.TBS_OVER_LIMIT_COUNT]) s t) ∧
  (∀ (rq : Request) (s : State) (x : Session) (k i : Nat) (w : Wear), s.taken Op.WEAR_GET rq x → k = beAt 0 1 rq.payload →
    i = beAt 2 2 rq.payload → k ≤ 2 → i < wearObjects k → w = s.flash.wearOf k i →
    ∃ t : State, exec (.wearGet rq) s = .next t.settle ∧
      t.replied x Op.WEAR_GET rq Status.OK (toBe 2 w.months ++ toBe 2 w.lower ++ toBe 1 w.basis ++ zeros 3 ++ toBe 8 w.at_ ++
        toBe 4 w.samples) ∧ Only (some [F.cmd, F.rings, P.CMD_REFUSED_COUNT, P.TBS_OVER_LIMIT_COUNT]) s t) ∧
  (∀ (rq : Request) (s : State) (x : Session), s.taken Op.WEAR_GET rq x →
    (2 < beAt 0 1 rq.payload ∨ wearObjects (beAt 0 1 rq.payload) ≤ beAt 2 2 rq.payload) →
    ∃ t : State, exec (.wearGet rq) s = .next t.settle ∧ t.replied x Op.WEAR_GET rq Status.BAD_VALUE [] ∧
      Only (some [F.cmd, F.rings, P.CMD_REFUSED_COUNT, P.TBS_OVER_LIMIT_COUNT]) s t) ∧
  (∀ (kind : Fin 3) (index : Fin 160) (reading : BitVec 32) (s : State) (old : Wear), index.val < wearObjects kind.val →
    old = s.flash.wearOf kind.val index.val →
    ∃ (t : State) (w : Wear), exec (.wearSample kind index reading) s = .next t ∧ t.flash.wearOf kind.val index.val = w ∧
      w.at_ = s.now ∧ w.samples = old.samples + 1 ∧ w.readings = old.readings ++ [reading.toNat] ∧
      (old.samples + 1 < 720 → w.months = 0xFFFF ∧ w.lower = 0xFFFF ∧ w.basis = 4) ∧ t.rd (wearBase kind.val) index.val = w.lower ∧
      (w.lower < s.rd P.HLT_WEAR_WARN → s.rd P.HLT_WEAR_WARN ≤ old.lower → (t.rd P.HLT_STICKY).testBit 21 = true) ∧
      Only (some [F.cmd, F.fault, F.flash, F.params, F.rings]) s t) ∧
  ∀ (kind : Fin 3) (index : Fin 160) (reading : BitVec 32) (s : State), wearObjects kind.val ≤ index.val →
    exec (.wearSample kind index reading) s = .next s

/-- OBS_FREEZE 1 freezes the counter set; OBS_FREEZE 0 adds to each counter what its hidden accumulator has counted, with the overflow
bit of one that passes 2^48. OBS_SNAPSHOT copies every counter and overflow bit at once, late or at its instant, raises
OBS_SNAP_SEQ and answers OK, DONE_LATE or DONE; a scheduled one waits and replaces the one before it. OBS_TRACE_READ answers the
records from its cursor on that the ring still holds, and the window port sends its records in frames of at most 45. Clauses that
go beyond the cited rules are the model's choices: log entry 71. Completion: under conditions on the state and the operands alone,
as its clauses write them, exec answers a next state with the named effect for obsFreeze, obsSnapshot, obsSnapshotDue,
obsTraceRead and windowFrame. -/
def Obligations.CountersFreezeAndSnapshot : Prop :=
  (∀ (rq : Request) (s : State) (x : Session), s.taken Op.OBS_FREEZE rq x → beAt 0 1 rq.payload = 1 →
    ∃ t : State, exec (.obsFreeze rq) s = .next t.settle ∧ t.rd P.OBS_FROZEN = 1 ∧ t.replied x Op.OBS_FREEZE rq Status.OK [] ∧
      Only (some [F.cmd, F.rings, P.CMD_REFUSED_COUNT, P.OBS_FROZEN, P.TBS_OVER_LIMIT_COUNT]) s t) ∧
  (∀ (rq : Request) (s : State) (x : Session), s.taken Op.OBS_FREEZE rq x → beAt 0 1 rq.payload = 0 → s.rd P.OBS_FROZEN = 1 →
    (s.hidden.map Prod.fst).Nodup →
    ∃ t : State, exec (.obsFreeze rq) s = .next t.settle ∧ t.rd P.OBS_FROZEN = 0 ∧ t.hidden = [] ∧
      (∀ c b i, counterAt c = some (b, i) →
        (c ∈ s.hidden.map Prod.fst → t.rd b i = (s.rd b i + look c 0 s.hidden) % 2 ^ 48 ∧
          (2 ^ 48 ≤ s.rd b i + look c 0 s.hidden → (t.rd P.OBS_OVF (c / 64)).testBit (c % 64) = true)) ∧
        (c ∉ s.hidden.map Prod.fst → t.rd b i = s.rd b i)) ∧
      t.replied x Op.OBS_FREEZE rq Status.OK [] ∧ Only (some [F.cmd, F.hidden, F.params, F.rings]) s t) ∧
  (∀ (rq : Request) (s : State) (x : Session) (st : Nat), s.taken Op.OBS_FREEZE rq x →
    ((beAt 0 1 rq.payload = 0 ∧ s.rd P.OBS_FROZEN = 0 ∧ st = Status.OK) ∨ (1 < beAt 0 1 rq.payload ∧ st = Status.BAD_VALUE)) →
    ∃ t : State, exec (.obsFreeze rq) s = .next t.settle ∧ t.replied x Op.OBS_FREEZE rq st [] ∧
      Only (some [F.cmd, F.rings, P.CMD_REFUSED_COUNT, P.TBS_OVER_LIMIT_COUNT]) s t) ∧
  (∀ (rq : Request) (s : State) (x : Session) (st : Nat), s.taken Op.OBS_SNAPSHOT rq x → s.canonicalForm → s.obsJob = none →
    (((beAt 0 1 rq.payload).testBit 0 = false ∧ st = Status.OK) ∨ ((beAt 0 1 rq.payload).testBit 0 = true ∧
      instant (beAt 2 6 rq.payload) (beAt 8 4 rq.payload) < s.modNs ∧ st = Status.DONE_LATE)) →
    ∃ t : State, exec (.obsSnapshot rq) s = .next t.settle ∧
      (∀ c b i, counterAt c = some (b, i) → t.rd P.OBS_SNAP c = s.rd b i) ∧
      (∀ w, w < 128 → t.rd P.OBS_SNAP_OVF w = s.rd P.OBS_OVF w ∧
        t.rd P.OBS_OVF w = if (beAt 0 1 rq.payload).testBit 1 then 0 else s.rd P.OBS_OVF w) ∧
      t.rd P.OBS_SNAP_SEQ = (s.rd P.OBS_SNAP_SEQ + 1) % 2 ^ 32 ∧ t.rd P.OBS_SNAP_TIME = s.now ∧
      t.replied x Op.OBS_SNAPSHOT rq st (toBe 4 (t.rd P.OBS_SNAP_SEQ) ++ toBe 8 s.now ++ toBe 1 (s.rd P.REF_TSTATE) ++
        toBe 1 (s.rd P.TBS_BOUND_NOW) ++ zeros 2) ∧ Only (some [F.cmd, F.obsJob, F.rings, P.CMD_REFUSED_COUNT, P.OBS_OVF, P.OBS_SNAP, P.OBS_SNAP_OVF, P.OBS_SNAP_PENDING,
        P.OBS_SNAP_SEQ, P.OBS_SNAP_TIME, P.TBS_OVER_LIMIT_COUNT]) s t) ∧
  (∀ (rq : Request) (s : State) (x : Session) (due : Nat), s.taken Op.OBS_SNAPSHOT rq x → (beAt 0 1 rq.payload).testBit 0 = true →
    due = instant (beAt 2 6 rq.payload) (beAt 8 4 rq.payload) → s.modNs ≤ due →
    ∃ t : State, exec (.obsSnapshot rq) s = .next t.settle ∧
      t.obsJob = some ⟨originOf x Op.OBS_SNAPSHOT rq, due, (beAt 0 1 rq.payload).testBit 1⟩ ∧
      t.rd P.OBS_SNAP_PENDING = due % 2 ^ 64 ∧ t.rd P.OBS_SNAP_SEQ = s.rd P.OBS_SNAP_SEQ ∧ t.accepted x ∧
      (∀ j, s.obsJob = some j → j.origin.uid ≠ x.uid → (s.sessionUid j.origin.uid).isSome = true →
        t.answered j.origin Status.SUPERSEDED []) ∧ Only (some [F.cmd, F.obsJob, F.rings, P.CMD_REFUSED_COUNT, P.OBS_OVF, P.OBS_SNAP, P.OBS_SNAP_OVF, P.OBS_SNAP_PENDING,
        P.OBS_SNAP_SEQ, P.OBS_SNAP_TIME, P.TBS_OVER_LIMIT_COUNT]) s t) ∧
  (∀ (s : State) (j : SnapJob), s.obsJob = some j → j.due ≤ s.modNs → s.canonicalForm → (s.sessionUid j.origin.uid).isSome = true →
    ∃ t : State, exec .obsSnapshotDue s = .next t ∧ t.obsJob = none ∧ t.rd P.OBS_SNAP_PENDING = 0 ∧
      (∀ c b i, counterAt c = some (b, i) → t.rd P.OBS_SNAP c = s.rd b i) ∧
      t.rd P.OBS_SNAP_SEQ = (s.rd P.OBS_SNAP_SEQ + 1) % 2 ^ 32 ∧
      t.answered j.origin Status.DONE (toBe 4 (t.rd P.OBS_SNAP_SEQ) ++ toBe 8 s.now ++ toBe 1 (s.rd P.REF_TSTATE) ++
        toBe 1 (s.rd P.TBS_BOUND_NOW) ++ zeros 2) ∧ Only (some [F.cmd, F.obsJob, F.rings, P.CMD_REFUSED_COUNT, P.OBS_OVF, P.OBS_SNAP, P.OBS_SNAP_OVF, P.OBS_SNAP_PENDING,
        P.OBS_SNAP_SEQ, P.OBS_SNAP_TIME, P.TBS_OVER_LIMIT_COUNT]) s t) ∧
  (∀ s : State, (s.obsJob.all fun j => decide (s.modNs < j.due)) = true → exec .obsSnapshotDue s = .next s) ∧
  (∀ (rq : Request) (s : State) (x : Session) (start n : Nat), s.taken Op.OBS_TRACE_READ rq x →
    beAt 0 8 rq.payload ≤ s.rd P.OBS_TRACE_HEAD → 1 ≤ beAt 8 2 rq.payload → beAt 8 2 rq.payload ≤ 127 →
    start = max (beAt 0 8 rq.payload) (s.rd P.OBS_TRACE_OLDEST) → n = min (beAt 8 2 rq.payload) (s.rd P.OBS_TRACE_HEAD - start) →
    ∃ t : State, exec (.obsTraceRead rq) s = .next t.settle ∧
      t.replied x Op.OBS_TRACE_READ rq Status.OK (toBe 8 (start + n) ++ toBe 2 n ++ zeros 2 ++
        toBe 4 (clampU 32 (start - beAt 0 8 rq.payload)) ++
        ((List.range n).map fun i => s.padRead (traceAddr (start + i)) 32).flatten) ∧
      Only (some [F.cmd, F.rings, P.CMD_REFUSED_COUNT, P.TBS_OVER_LIMIT_COUNT]) s t) ∧
  (∀ (rq : Request) (s : State) (x : Session), s.taken Op.OBS_TRACE_READ rq x →
    (s.rd P.OBS_TRACE_HEAD < beAt 0 8 rq.payload ∨ beAt 8 2 rq.payload = 0 ∨ 127 < beAt 8 2 rq.payload) →
    ∃ t : State, exec (.obsTraceRead rq) s = .next t.settle ∧ t.replied x Op.OBS_TRACE_READ rq Status.BAD_VALUE [] ∧
      Only (some [F.cmd, F.rings, P.CMD_REFUSED_COUNT, P.TBS_OVER_LIMIT_COUNT]) s t) ∧
  (∀ (s : State) (first n : Nat), s.rdb P.OBS_WIN_ENABLE = true → s.frozenMaster 1 = false →
    first = max (s.rd P.OBS_WIN_NEXT) (s.rd P.OBS_TRACE_OLDEST) → n = min 45 (s.rd P.OBS_TRACE_HEAD - first) → 0 < n →
    (n = 45 ∨ s.windowAt.all (fun c => decide (c + 10000 ≤ s.clock)) = true) →
    ∃ t : State, exec .windowFrame s = .next t ∧ t.rd P.OBS_WIN_NEXT = first + n ∧
      t.rd P.OBS_WIN_FRAMES = (s.rd P.OBS_WIN_FRAMES + 1) % 2 ^ 48 ∧
      t.rd P.OBS_WIN_SKIPPED = (s.rd P.OBS_WIN_SKIPPED + (first - s.rd P.OBS_WIN_NEXT)) % 2 ^ 48 ∧
      t.out = s.out ++ [.window (s.windowBytes first n (first - s.rd P.OBS_WIN_NEXT))] ∧
      Only (some [F.windowAt, P.OBS_WIN_NEXT, P.OBS_WIN_FRAMES, P.OBS_WIN_SKIPPED]) s t) ∧
  ∀ s : State, (s.rdb P.OBS_WIN_ENABLE = false ∨ s.frozenMaster 1 = true ∨
      s.rd P.OBS_TRACE_HEAD ≤ s.rd P.OBS_WIN_NEXT ∨
      (s.rd P.OBS_TRACE_HEAD - max (s.rd P.OBS_WIN_NEXT) (s.rd P.OBS_TRACE_OLDEST) < 45 ∧
        s.windowAt.all (fun c => decide (c + 10000 ≤ s.clock)) = false)) →
    exec .windowFrame s = .next s

/-- QUEUE_CREATE makes a ring with both indexes 0 and QUEUE_DESTROY takes it away, each with its refusals. A doorbell moves the host's
index of a ring; one beyond the ring, or for no ring, is an error. A transmit slot is taken: a frame that the slot allows is
stored with its copy, any other is finished with its status and counted; a finished slot is written back with the consumer index.
A frame for a receive queue is written into the next posted buffer and its copy released. A vector is raised for a ring that has
moved, and the link comes up with the values trained and goes down with its rings, sessions and packets. Clauses that go beyond
the cited rules are the model's choices: log entries 15, 68. Completion: under conditions on the state and the operands alone, as
its clauses write them, exec answers a next state with the named effect for queueCreate, queueDestroy, doorbell, hostTxFrame,
hostTxWriteback, hostRxDeliver, msixInterrupt, pcieLinkUp and pcieLinkDown. -/
def Obligations.HostQueuesCarryFrames : Prop :=
  (∀ (rq : Request) (s : State) (x : Session) (g : Nat) (p : List Byte), s.taken Op.QUEUE_CREATE rq x → p = rq.payload →
    ringNumber (beAt 0 1 p) (beAt 1 1 p) = some g → s.rd P.HST_STATUS_ADDR ≠ 0 → queueLegal x.version p = true → s.ring g = none →
    ∃ t : State, exec (.queueCreate rq) s = .next t.settle ∧
      t.ring g = some ⟨g, beAt 2 1 p, beAt 3 1 p, beAt 4 8 p, beAt 12 4 p, beAt 16 2 p, beAt 18 1 p, beAt 19 1 p, 0, 0, false⟩ ∧
      t.rd P.HST_RING_STATE g = 1 ∧ (∀ h, h < 160 → h ≠ g → t.ring h = s.ring h) ∧ t.replied x Op.QUEUE_CREATE rq Status.OK [] ∧
      Only (some [F.cmd, F.rings, P.CMD_REFUSED_COUNT, P.HST_RING_STATE, P.TBS_OVER_LIMIT_COUNT]) s t) ∧
  (∀ (rq : Request) (s : State) (x : Session) (p : List Byte) (st : Nat), s.taken Op.QUEUE_CREATE rq x → p = rq.payload →
    (((s.rd P.HST_STATUS_ADDR = 0 ∨ queueLegal x.version p = false) ∧ st = Status.BAD_VALUE) ∨
      (s.rd P.HST_STATUS_ADDR ≠ 0 ∧ queueLegal x.version p = true ∧
        ((ringNumber (beAt 0 1 p) (beAt 1 1 p)).bind s.ring).isSome = true ∧ st = Status.NOT_READY)) →
    ∃ t : State, exec (.queueCreate rq) s = .next t.settle ∧ t.replied x Op.QUEUE_CREATE rq st [] ∧
      Only (some [F.cmd, F.rings, P.CMD_REFUSED_COUNT, P.TBS_OVER_LIMIT_COUNT]) s t) ∧
  (∀ (rq : Request) (s : State) (x : Session) (g : Nat), s.taken Op.QUEUE_DESTROY rq x → beAt 0 1 rq.payload ≤ 3 →
    ringNumber (beAt 0 1 rq.payload) (beAt 1 1 rq.payload) = some g → (s.ring g).isSome = true →
    ∃ t : State, exec (.queueDestroy rq) s = .next t.settle ∧ t.ring g = none ∧ t.rd P.HST_RING_STATE g = 0 ∧
      (g < 64 → t.txSlots = s.txSlots.filter fun z => z.queue != g) ∧ t.replied x Op.QUEUE_DESTROY rq Status.OK [] ∧
      Only (some ([F.cmd, F.fabric, F.fault, F.hidden, F.log, F.quay, F.rings, F.txSlots] ++
        [P.BUF_DF_AGENT, P.BUF_DF_INDEX, P.BUF_DF_POOL, P.BUF_DF_TIME, P.BUF_DOUBLE_FREE, P.BUF_FLAGS, P.BUF_HELD, P.BUF_QUARANTINED] ++
        [P.BUF_SIGNALS, P.CMD_NOTICE_DROP, P.CMD_REFUSED_COUNT, P.HLT_FAULT_COUNT, P.HLT_STICKY, P.HST_RING_STATE, P.HST_RXQ_BYTES, P.HST_RXQ_FLUSHED] ++
        [P.LOG_SPILL_PEAK, P.LOG_SPILL_USED, P.OBS_OVF, P.PRT_EGQ_BYTES, P.PRT_LINKDOWN_DROP, P.TBS_OVER_LIMIT_COUNT])) s t) ∧
  (∀ (rq : Request) (s : State) (x : Session) (st : Nat), s.taken Op.QUEUE_DESTROY rq x →
    ((3 < beAt 0 1 rq.payload ∧ st = Status.BAD_VALUE) ∨ (beAt 0 1 rq.payload ≤ 3 ∧
      ((ringNumber (beAt 0 1 rq.payload) (beAt 1 1 rq.payload)).bind s.ring).isSome = false ∧ st = Status.NOT_FOUND)) →
    ∃ t : State, exec (.queueDestroy rq) s = .next t.settle ∧ t.replied x Op.QUEUE_DESTROY rq st [] ∧
      Only (some [F.cmd, F.rings, P.CMD_REFUSED_COUNT, P.TBS_OVER_LIMIT_COUNT]) s t) ∧
  (∀ (g i : Nat) (index : BitVec 32) (s : State) (r : Ring), s.linkUp = true → s.ring g = some r → s.rd P.HST_RING_STATE g = 1 →
    i = index.toNat →
    ∃ t : State, exec (.doorbell g index) s = .next t.settle ∧
      (hostProduces g = true → inUse i r.prod ≤ r.size - inUse r.prod r.cons →
        t.ring g = some { r with prod := i } ∧ Only (some [F.rings]) s t) ∧
      (hostProduces g = false → inUse i r.cons ≤ inUse r.prod r.cons →
        t.ring g = some { r with cons := i } ∧ Only (some [F.rings]) s t) ∧
      ((hostProduces g = true ∧ r.size - inUse r.prod r.cons < inUse i r.prod) ∨
          (hostProduces g = false ∧ inUse r.prod r.cons < inUse i r.cons) →
        t.rd P.HST_RING_STATE g = 2 ∧ t.rd P.HST_DMA_ERR = (s.rd P.HST_DMA_ERR + 1) % 2 ^ 48 ∧
        (t.rd P.HST_FLAGS).testBit 1 = true ∧ Only (some [P.HST_RING_STATE, P.HST_DMA_ERR, P.HST_FLAGS]) s t)) ∧
  (∀ (g : Nat) (index : BitVec 32) (s : State), s.linkUp = true → s.ring g = none →
    ∃ t : State, exec (.doorbell g index) s = .next t.settle ∧ t.rd P.HST_DMA_ERR = (s.rd P.HST_DMA_ERR + 1) % 2 ^ 48 ∧
      (t.rd P.HST_FLAGS).testBit 1 = true ∧ Only (some [P.HST_DMA_ERR, P.HST_FLAGS]) s t) ∧
  (∀ (g : Nat) (index : BitVec 32) (s : State), (s.linkUp = false ∨ ((s.ring g).isSome = true ∧ s.rd P.HST_RING_STATE g ≠ 1)) →
    exec (.doorbell g index) s = .next s.settle) ∧
  (∀ (q : Fin 64) (slot bytes : List Byte) (s : State) (r : Ring) (d : TxDesc) (f : Frame) (i : Nat), s.activeRing q.val = some r →
    i = advance r.cons (s.txSlots.filter fun z => z.queue == q.val).length → s.linkUp = true → s.frozenMaster 3 = false →
    0 < inUse r.prod i → inUse r.prod i ≤ r.size → d = r.txDesc slot → d.legal = true → d.group = false →
    s.rd P.PWR_SHUTTER_STATE = 0 → s.portUp d.dest = true →
    f = ⟨s.fabric.nextFrame, 0, d.dest / 8 % 64, ⟨0, 0, 255, 0⟩, d.dest, 0, (withFcs (fit d.len bytes)).length, 0, d.mode, d.profile,
      d.dest, 0xFFFF, 0, d.cls, 0, false, withFcs (fit d.len bytes), true, false, false, false, none, none, d.request,
      some (q.val, s.nextSlot), 0, false, 0⟩ → s.canAllocate f = true →
    ∃ t : State, exec (.hostTxFrame q slot (some bytes)) s = .next t ∧ t.fabric.frames = s.fabric.frames ++ [f] ∧
      t.txSlots = s.txSlots ++ [⟨s.nextSlot, q.val, i, none⟩] ∧ t.nextSlot = s.nextSlot + 1 ∧
      t.quay.copies = s.quay.copies ++ [⟨s.quay.nextCopy, f.id, d.dest, d.cls, s.clock, f.size, none, none, none, false, none⟩] ∧
      Only (some ([F.cmd, F.fabric, F.fault, F.fresh, F.hidden, F.nextSlot, F.pad, F.quay] ++
        [F.rings, F.txSlots, F.windowAt, P.BUF_ALLOC, P.BUF_DF_AGENT, P.BUF_DF_INDEX, P.BUF_DF_POOL, P.BUF_DF_TIME] ++
        [P.BUF_DOUBLE_FREE, P.BUF_FLAGS, P.BUF_HELD, P.BUF_PEAK, P.BUF_QUARANTINED, P.BUF_SIGNALS, P.BUF_SPILL, P.CMD_NOTICE_DROP] ++
        [P.HLT_FAULT_COUNT, P.HLT_STICKY, P.HST_DMA_ERR, P.HST_FLAGS, P.HST_RXQ_BYPASS, P.HST_RXQ_BYTES, P.HST_TX_REFUSED, P.LCK_NO_MEMBER] ++
        [P.OBS_OVF, P.OBS_TRACE_DROP, P.OBS_TRACE_HEAD, P.OBS_TRACE_OLDEST, P.PRT_EGQ_BYTES, P.PRT_LINKDOWN_DROP])) s t) ∧
  (∀ (q : Fin 64) (slot bytes : List Byte) (s : State) (r : Ring) (d : TxDesc) (f : Frame) (i : Nat) (ms : List Nat),
    s.activeRing q.val = some r → i = advance r.cons (s.txSlots.filter fun z => z.queue == q.val).length → s.linkUp = true →
    s.frozenMaster 3 = false → 0 < inUse r.prod i → inUse r.prod i ≤ r.size → d = r.txDesc slot → d.legal = true →
    ms = s.txMembers d → ms ≠ [] → ms.all s.portUp = true → (s.rd P.PWR_SHUTTER_STATE ≠ 0 → ms.all keelPort = true) →
    f = ⟨s.fabric.nextFrame, 0, d.dest / 8 % 64, ⟨0, 0, 255, 0⟩, ms.headD 0, 0, (withFcs (fit d.len bytes)).length, b2n d.group,
      d.mode, d.profile, d.dest, 0xFFFF, 0, d.cls, 0, false, withFcs (fit d.len bytes), true, false, false, false, none, none,
      d.request, some (q.val, s.nextSlot), 0, false, 0⟩ →
    (s.rd P.PWR_SHUTTER_STATE = 0 → s.canAllocate f = true) →
    ∃ t : State, exec (.hostTxFrame q slot (some bytes)) s = .next t ∧ t.fabric.frames = s.fabric.frames ++ [f] ∧
      t.txSlots = s.txSlots ++ [⟨s.nextSlot, q.val, i, none⟩] ∧ t.nextSlot = s.nextSlot + 1 ∧
      t.quay.copies.take s.quay.copies.length = s.quay.copies ∧
      (t.quay.copies.drop s.quay.copies.length).map Copy.port = ms ∧
      (∀ c ∈ t.quay.copies.drop s.quay.copies.length, c.frame = f.id ∧ c.cls = d.cls ∧ c.bytes = f.size ∧ c.host = none ∧
        (c.keel = true ↔ s.rd P.PWR_SHUTTER_STATE ≠ 0)) ∧
      Only (some ([F.cmd, F.fabric, F.fault, F.fresh, F.hidden, F.nextSlot, F.pad, F.quay] ++
        [F.rings, F.txSlots, F.windowAt, P.BUF_ALLOC, P.BUF_DF_AGENT, P.BUF_DF_INDEX, P.BUF_DF_POOL, P.BUF_DF_TIME] ++
        [P.BUF_DOUBLE_FREE, P.BUF_FLAGS, P.BUF_HELD, P.BUF_PEAK, P.BUF_QUARANTINED, P.BUF_SIGNALS, P.BUF_SPILL, P.CMD_NOTICE_DROP] ++
        [P.HLT_FAULT_COUNT, P.HLT_STICKY, P.HST_DMA_ERR, P.HST_FLAGS, P.HST_RXQ_BYPASS, P.HST_RXQ_BYTES, P.HST_TX_REFUSED, P.LCK_NO_MEMBER] ++
        [P.OBS_OVF, P.OBS_TRACE_DROP, P.OBS_TRACE_HEAD, P.OBS_TRACE_OLDEST, P.PRT_EGQ_BYTES, P.PRT_LINKDOWN_DROP])) s t) ∧
  (∀ (q : Fin 64) (slot bytes : List Byte) (s : State) (r : Ring) (d : TxDesc) (i : Nat),
    s.activeRing q.val = some r → i = advance r.cons (s.txSlots.filter fun z => z.queue == q.val).length → s.linkUp = true →
    s.frozenMaster 3 = false → 0 < inUse r.prod i → inUse r.prod i ≤ r.size → d = r.txDesc slot → d.legal = true →
    s.txMembers d = [] →
    ∃ t : State, exec (.hostTxFrame q slot (some bytes)) s = .next t ∧ t.nextSlot = s.nextSlot + 1 ∧
      t.rd P.LCK_NO_MEMBER = (s.rd P.LCK_NO_MEMBER + 1) % 2 ^ 48 ∧
      (t.txSlots.map fun z => (z.num, z.queue, z.index, z.result.isSome)).getLast? = some (s.nextSlot, q.val, i, true) ∧
      Only (some ([F.cmd, F.fabric, F.fault, F.fresh, F.hidden, F.nextSlot, F.pad, F.quay] ++
        [F.rings, F.txSlots, F.windowAt, P.BUF_ALLOC, P.BUF_DF_AGENT, P.BUF_DF_INDEX, P.BUF_DF_POOL, P.BUF_DF_TIME] ++
        [P.BUF_DOUBLE_FREE, P.BUF_FLAGS, P.BUF_HELD, P.BUF_PEAK, P.BUF_QUARANTINED, P.BUF_SIGNALS, P.BUF_SPILL, P.CMD_NOTICE_DROP] ++
        [P.HLT_FAULT_COUNT, P.HLT_STICKY, P.HST_DMA_ERR, P.HST_FLAGS, P.HST_RXQ_BYPASS, P.HST_RXQ_BYTES, P.HST_TX_REFUSED, P.LCK_NO_MEMBER] ++
        [P.OBS_OVF, P.OBS_TRACE_DROP, P.OBS_TRACE_HEAD, P.OBS_TRACE_OLDEST, P.PRT_EGQ_BYTES, P.PRT_LINKDOWN_DROP])) s t) ∧
  (∀ (q : Fin 64) (slot : List Byte) (data : Option (List Byte)) (s : State) (r : Ring) (d : TxDesc) (i st : Nat),
    s.activeRing q.val = some r → i = advance r.cons (s.txSlots.filter fun z => z.queue == q.val).length → s.linkUp = true →
    s.frozenMaster 3 = false → 0 < inUse r.prod i → inUse r.prod i ≤ r.size → d = r.txDesc slot →
    ((d.legal = false ∧ st = 4) ∨
      (d.legal = true ∧ s.rd P.PWR_SHUTTER_STATE ≠ 0 ∧ (s.txMembers d).all keelPort = false ∧ st = 5) ∨
      (d.legal = true ∧ s.rd P.PWR_SHUTTER_STATE = 0 ∧ data = none ∧ st = 6)) →
    ∃ t : State, exec (.hostTxFrame q slot data) s = .next t ∧
      t.txSlots = s.txSlots ++ [⟨s.nextSlot, q.val, i, some (st, ⟨0, 0, 0, 0⟩)⟩] ∧ t.nextSlot = s.nextSlot + 1 ∧
      t.rd P.HST_TX_REFUSED q.val = (s.rd P.HST_TX_REFUSED q.val + 1) % 2 ^ 48 ∧
      (st = 6 → t.rd P.HST_DMA_ERR = (s.rd P.HST_DMA_ERR + 1) % 2 ^ 48) ∧
      (st ≠ 6 → Only (some [F.txSlots, F.nextSlot, P.HST_TX_REFUSED]) s t) ∧
      Only (some [F.txSlots, F.nextSlot, P.HST_TX_REFUSED, P.HST_DMA_ERR, P.HST_FLAGS]) s t) ∧
  (∀ (q : Fin 64) (slot : List Byte) (data : Option (List Byte)) (s : State),
    (s.activeRing q.val = none ∨ s.linkUp = false ∨ s.frozenMaster 3 = true) → exec (.hostTxFrame q slot data) s = .next s) ∧
  (∀ (q : Fin 64) (s : State) (r : Ring) (z : TxSlot) (st : Nat) (y : Stamp), s.activeRing q.val = some r →
    (s.txSlots.find? fun z => z.queue == q.val) = some z → z.result = some (st, y) → s.linkUp = true →
    ∃ t : State, exec (.hostTxWriteback q) s = .next t ∧ t.txSlots = s.txSlots.erase z ∧
      (s.out ++ [.hostWrite (r.slotAddr r.slotBytes z.index + (r.writeBack st y).1) (r.writeBack st y).2]) <+: t.out ∧
      (t.ring q.val).map Ring.cons = some (advance r.cons 1) ∧ Only (some [F.rings, F.txSlots]) s t) ∧
  (∀ (q : Fin 64) (s : State), (s.activeRing q.val = none ∨ s.linkUp = false ∨
      ((s.txSlots.find? fun z => z.queue == q.val).bind TxSlot.result) = none) → exec (.hostTxWriteback q) s = .next s) ∧
  (∀ (q : Fin 64) (slot : List Byte) (s : State) (r : Ring) (c : Copy) (f : Frame) (entry : Nat),
    s.activeRing (64 + q.val) = some r →
    (s.quay.copies.find? fun c => match c.host with | some (x, _) => x == q.val | none => false) = some c →
    s.frame c.frame = some f → c.host = some (q.val, entry) → s.linkUp = true → s.frozenMaster 4 = false → r.prod ≠ r.cons →
    s.whole f = true →
    ∃ t : State, exec (.hostRxDeliver q slot) s = .next t ∧
      (s.out ++ [.hostWrite (beAt 0 8 slot) f.data,
        .hostWrite (r.slotAddr r.slotBytes r.cons + (r.rxBack f entry).1) (r.rxBack f entry).2]) <+: t.out ∧
      (∀ y ∈ t.quay.copies, y ∈ s.quay.copies ∧ y.id ≠ c.id) ∧
      (s.quay.damaged = [] → t.quay.copies = dropBy Copy.id c.id s.quay.copies) ∧ (t.ring (64 + q.val)).map Ring.cons = some (advance r.cons 1) ∧
      Only (some [F.cmd, F.fabric, F.fault, F.hidden, F.quay, F.rings, F.txSlots, P.BUF_DF_AGENT,
        P.BUF_DF_INDEX, P.BUF_DF_POOL, P.BUF_DF_TIME, P.BUF_DOUBLE_FREE, P.BUF_FLAGS, P.BUF_HELD, P.BUF_QUARANTINED, P.BUF_SIGNALS,
        P.CMD_NOTICE_DROP, P.HLT_FAULT_COUNT, P.HLT_STICKY, P.HST_RXQ_BYTES, P.OBS_OVF, P.PRT_EGQ_BYTES, P.PRT_LINKDOWN_DROP]) s t) ∧
  (∀ (q : Fin 64) (slot : List Byte) (s : State), (s.activeRing (64 + q.val) = none ∨ s.linkUp = false ∨ s.frozenMaster 4 = true ∨
      (s.quay.copies.find? fun c => match c.host with | some (x, _) => x == q.val | none => false) = none) →
    exec (.hostRxDeliver q slot) s = .next s) ∧
  (∀ (v : Fin 64) (s : State) (r : Ring), s.linkUp = true → r ∈ s.rings → r.vector = v.val → r.moved = true →
    (∀ y ∈ s.raised, y.1 = v.val → y.2 + 1000 * r.moderation ≤ s.clock) →
    ∃ t : State, exec (.msixInterrupt v) s = .next t ∧ t.out = s.out ++ [.msix v.val] ∧
      t.rings = s.rings.map (fun y => if y.vector = v.val then { y with moved := false } else y) ∧ (v.val, s.clock) ∈ t.raised ∧
      Only (some [F.rings, F.raised]) s t) ∧
  (∀ (v : Fin 64) (s : State), (s.linkUp = false ∨ (s.rings.all fun y => !(y.vector == v.val && y.moved)) = true) →
    exec (.msixInterrupt v) s = .next s) ∧
  (∀ (speed : Fin 6) (width : Fin 9) (mps : BitVec 10) (s : State), s.linkUp = false → speed.val ≠ 0 → width.val ∈ [1, 2, 4, 8] →
    mps.toNat ∈ [128, 256, 512] →
    ∃ t : State, exec (.pcieLinkUp speed width mps) s = .next t ∧ t.rd P.HST_LINK_SPEED = speed.val ∧
      t.rd P.HST_LINK_WIDTH = width.val ∧ t.rd P.HST_MPS = mps.toNat ∧
      (∀ k, k < 8 → s.rd P.HST_MBX_BASE k = 0 → t.ring (160 + k) = none ∧ t.rd P.HST_RING_STATE (160 + k) = 0) ∧
      (∀ k, k < 8 → s.rd P.HST_MBX_BASE k ≠ 0 → t.rd P.HST_RING_STATE (160 + k) = 1 ∧
        t.ring (160 + k) = some ⟨160 + k, 0, 0xFF, s.rd P.HST_MBX_BASE k, s.rd P.HST_MBX_SIZE k, 0, 0, 0, 0, 0, false⟩) ∧
      Only (some [F.rings, P.HST_LINK_SPEED, P.HST_LINK_WIDTH, P.HST_MPS, P.HST_RING_STATE]) s t) ∧
  (∀ (speed : Fin 6) (width : Fin 9) (mps : BitVec 10) (s : State), (s.linkUp = true ∨ speed.val = 0 ∨
      width.val ∉ [1, 2, 4, 8] ∨ mps.toNat ∉ [128, 256, 512]) → exec (.pcieLinkUp speed width mps) s = .next s) ∧
  (∀ s : State, s.linkUp = true →
    ∃ t : State, exec .pcieLinkDown s = .next t ∧ t.rings = [] ∧ t.rd P.HST_LINK_WIDTH = 0 ∧ t.rd P.HST_LINK_SPEED = 0 ∧
      t.cmd.mbx = [] ∧ t.cmd.unread = [] ∧ (t.rd P.HST_FLAGS).testBit 0 = true ∧
      (s.sessionsLegal → ∀ y ∈ t.cmd.sessions, y.transport ≠ .pcie) ∧ Only (some ([F.cmd, F.fabric, F.fault, F.hidden, F.log, F.quay, F.rings, F.sessions] ++
        [F.txSlots, P.BUF_DF_AGENT, P.BUF_DF_INDEX, P.BUF_DF_POOL, P.BUF_DF_TIME, P.BUF_DOUBLE_FREE, P.BUF_FLAGS, P.BUF_HELD] ++
        [P.BUF_QUARANTINED, P.BUF_SIGNALS, P.CMD_NOTICE_DROP, P.CMD_REFUSED_COUNT, P.CMD_SESSION_PRIV, P.CMD_SESSION_STATE, P.CMD_SESSION_TRANSPORT, P.HLT_FAULT_COUNT] ++
        [P.HLT_STICKY, P.HST_FLAGS, P.HST_LINK_SPEED, P.HST_LINK_WIDTH, P.HST_RING_STATE, P.HST_RXQ_BYTES, P.HST_RXQ_FLUSHED, P.LOG_SPILL_PEAK] ++
        [P.LOG_SPILL_USED, P.OBS_OVF, P.PRT_EGQ_BYTES, P.PRT_LINKDOWN_DROP, P.TBS_OVER_LIMIT_COUNT])) s t) ∧
  ∀ s : State, s.linkUp = false → exec .pcieLinkDown s = .next s
end

