-- ==== Sys2Proof/Laws/Sparse.lean ====
section
/-! SUPPORT. Laws of sparse data: what a key reads as after a store, and that a store keeps the canonical form. -/

namespace Sys2Proof.Machine

section Look
variable {κ α : Type} [DecidableEq κ]

theorem look_place_self (lt : κ → κ → Bool) (k : κ) (d v : α) (m : List (κ × α)) (h : ∀ e ∈ m, e.1 ≠ k) :
    look k d (place lt k v m) = v := by
  induction m with
  | nil => simp [place, look]
  | cons e m ih =>
    have he : e.1 ≠ k := h e (by simp)
    have hm : ∀ f ∈ m, f.1 ≠ k := fun f hf => h f (by simp [hf])
    simp only [place]
    split
    · simp [look]
    · simp [look, he, ih hm]

theorem look_place_other (lt : κ → κ → Bool) {j k : κ} (hj : j ≠ k) (d v : α) (m : List (κ × α)) :
    look j d (place lt k v m) = look j d m := by
  induction m with
  | nil => simp [place, look, Ne.symm hj]
  | cons e m ih =>
    simp only [place]
    split
    · simp [look, Ne.symm hj]
    · simp only [look, ih]

theorem look_without_self (k : κ) (d : α) (m : List (κ × α)) : look k d (without k m) = d := by
  induction m with
  | nil => simp [without, look]
  | cons e m ih =>
    by_cases he : e.1 = k
    · simpa [without, he] using ih
    · simpa [without, he, look] using ih

theorem look_without_other {j k : κ} (hj : j ≠ k) (d : α) (m : List (κ × α)) : look j d (without k m) = look j d m := by
  induction m with
  | nil => simp [without, look]
  | cons e m ih =>
    by_cases he : e.1 = k
    · simpa [without, he, look, Ne.symm hj] using ih
    · by_cases hej : e.1 = j
      · subst hej
        simp [without, he, look]
      · simpa [without, he, look, hej] using ih

theorem without_key (k : κ) (m : List (κ × α)) : ∀ e ∈ without k m, e.1 ≠ k := by
  intro e he
  simpa [without] using (List.mem_filter.mp he).2

theorem look_store_self [DecidableEq α] (lt : κ → κ → Bool) (k : κ) (d v : α) (m : List (κ × α)) :
    look k d (store lt k d v m) = v := by
  unfold store
  split
  · subst_vars; exact look_without_self ..
  · exact look_place_self lt k d v _ (without_key k m)

theorem look_store_other [DecidableEq α] (lt : κ → κ → Bool) {j k : κ} (hj : j ≠ k) (d d' v : α) (m : List (κ × α)) :
    look j d' (store lt k d v m) = look j d' m := by
  unfold store
  split
  · exact look_without_other hj ..
  · rw [look_place_other lt hj, look_without_other hj]

end Look

section Canonical
variable {κ α : Type} [DecidableEq κ]

theorem rising_without (lt : κ → κ → Bool) (k : κ) {m : List (κ × α)} (h : rising lt m = true) :
    rising lt (without k m) = true := by
  induction m with
  | nil => rfl
  | cons e m ih =>
    simp only [rising, Bool.and_eq_true, List.all_eq_true] at h
    by_cases he : e.1 = k
    · simpa [without, he] using ih h.2
    · have ih' := ih h.2
      have hm : ∀ f ∈ without k m, lt e.1 f.1 = true := fun f hf => h.1 f (List.mem_of_mem_filter hf)
      have hc : without k (e :: m) = e :: without k m := by simp [without, he]
      rw [hc]
      simp only [rising, Bool.and_eq_true, List.all_eq_true]
      exact ⟨hm, ih'⟩

omit [DecidableEq κ] in
theorem mem_place {lt : κ → κ → Bool} {k : κ} {v : α} {m : List (κ × α)} {e : κ × α} (h : e ∈ place lt k v m) :
    e = (k, v) ∨ e ∈ m := by
  induction m with
  | nil => simpa [place] using h
  | cons f m ih =>
    simp only [place] at h
    split at h
    · simpa using h
    · rcases List.mem_cons.mp h with h | h
      · exact .inr (by simp [h])
      · rcases ih h with h | h
        · exact .inl h
        · exact .inr (by simp [h])

omit [DecidableEq κ] in
theorem rising_place {lt : κ → κ → Bool} (trans : ∀ a b c, lt a b = true → lt b c = true → lt a c = true)
    (total : ∀ a b, a ≠ b → lt a b = false → lt b a = true) (k : κ) (v : α) {m : List (κ × α)}
    (h : rising lt m = true) (hk : ∀ e ∈ m, e.1 ≠ k) : rising lt (place lt k v m) = true := by
  induction m with
  | nil => simp [place, rising]
  | cons e m ih =>
    simp only [rising, Bool.and_eq_true, List.all_eq_true] at h
    simp only [place]
    split
    · rename_i hlt
      simp only [rising, List.all_cons, Bool.and_eq_true, List.all_eq_true]
      exact ⟨⟨hlt, fun f hf => trans _ _ _ hlt (h.1 f hf)⟩, h.1, h.2⟩
    · rename_i hlt
      simp only [rising, Bool.and_eq_true, List.all_eq_true]
      refine ⟨fun f hf => ?_, ih h.2 fun f hf => hk f (by simp [hf])⟩
      rcases mem_place hf with rfl | hf
      · exact total _ _ (Ne.symm (hk e (by simp))) (by simpa using hlt)
      · exact h.1 f hf

theorem canonical_store [DecidableEq α] {lt : κ → κ → Bool} (trans : ∀ a b c, lt a b = true → lt b c = true → lt a c = true)
    (total : ∀ a b, a ≠ b → lt a b = false → lt b a = true) (dflt : κ → α) (k : κ) (v : α) {m : List (κ × α)}
    (h : canonical lt dflt m = true) : canonical lt dflt (store lt k (dflt k) v m) = true := by
  simp only [canonical, Bool.and_eq_true, List.all_eq_true] at h ⊢
  have hw := rising_without lt k h.1
  have hn : ∀ e ∈ without k m, (!decide (e.2 = dflt e.1)) = true := fun e he => h.2 e (List.mem_of_mem_filter he)
  unfold store
  split
  · exact ⟨hw, hn⟩
  · rename_i hv
    refine ⟨rising_place trans total k v hw (without_key k m), fun e he => ?_⟩
    rcases mem_place he with rfl | he
    · simpa using hv
    · exact hn e he

theorem canonical_without [DecidableEq α] {lt : κ → κ → Bool} (dflt : κ → α) (k : κ) {m : List (κ × α)}
    (h : canonical lt dflt m = true) : canonical lt dflt (without k m) = true := by
  simp only [canonical, Bool.and_eq_true, List.all_eq_true] at h ⊢
  exact ⟨rising_without lt k h.1, fun e he => h.2 e (List.mem_of_mem_filter he)⟩

theorem ltNat_trans (a b c : Nat) (h : ltNat a b = true) (g : ltNat b c = true) : ltNat a c = true := by
  simp only [ltNat, decide_eq_true_eq] at *; omega

theorem ltNat_total (a b : Nat) (h : a ≠ b) (g : ltNat a b = false) : ltNat b a = true := by
  simp only [ltNat, decide_eq_true_eq, decide_eq_false_iff_not] at *; omega

theorem ltPair_trans (a b c : Nat × Nat) (h : ltPair a b = true) (g : ltPair b c = true) : ltPair a c = true := by
  simp only [ltPair, decide_eq_true_eq] at *; omega

theorem ltPair_total (a b : Nat × Nat) (h : a ≠ b) (g : ltPair a b = false) : ltPair b a = true := by
  have : a.1 ≠ b.1 ∨ a.2 ≠ b.2 := by
    by_contra hn
    simp only [not_or, not_not] at hn
    exact h (Prod.ext hn.1 hn.2)
  simp only [ltPair, decide_eq_true_eq, decide_eq_false_iff_not] at *; omega

end Canonical

end Sys2Proof.Machine
end

