-- ==== Sys2Proof/Laws/State.lean ====
section
/-! SUPPORT. What each named update of the state leaves as it was: one lemma per field, and one for the registers. -/

namespace Sys2Proof.Machine

section
variable (s : State) (f : Lock → Lock)
@[simp] theorem State.setLock_lock : (s.setLock f).lock = f s.lock := rfl
@[simp] theorem State.setLock_regs : (s.setLock f).regs = s.regs := rfl
@[simp] theorem State.setLock_shadows : (s.setLock f).shadows = s.shadows := rfl
@[simp] theorem State.setLock_hidden : (s.setLock f).hidden = s.hidden := rfl
@[simp] theorem State.setLock_clock : (s.setLock f).clock = s.clock := rfl
@[simp] theorem State.setLock_phase : (s.setLock f).phase = s.phase := rfl
@[simp] theorem State.setLock_released : (s.setLock f).released = s.released := rfl
@[simp] theorem State.setLock_fresh : (s.setLock f).fresh = s.fresh := rfl
@[simp] theorem State.setLock_out : (s.setLock f).out = s.out := rfl
@[simp] theorem State.setLock_pending : (s.setLock f).pending = s.pending := rfl
@[simp] theorem State.setLock_cmd : (s.setLock f).cmd = s.cmd := rfl
@[simp] theorem State.setLock_time : (s.setLock f).time = s.time := rfl
@[simp] theorem State.setLock_refs : (s.setLock f).refs = s.refs := rfl
@[simp] theorem State.setLock_servo : (s.setLock f).servo = s.servo := rfl
@[simp] theorem State.setLock_flash : (s.setLock f).flash = s.flash := rfl
@[simp] theorem State.setLock_links : (s.setLock f).links = s.links := rfl
@[simp] theorem State.setLock_grants : (s.setLock f).grants = s.grants := rfl
@[simp] theorem State.setLock_ptpSeq : (s.setLock f).ptpSeq = s.ptpSeq := rfl
@[simp] theorem State.setLock_tcal : (s.setLock f).tcal = s.tcal := rfl
@[simp] theorem State.setLock_linkRun : (s.setLock f).linkRun = s.linkRun := rfl
@[simp] theorem State.setLock_fabric : (s.setLock f).fabric = s.fabric := rfl
@[simp] theorem State.setLock_quay : (s.setLock f).quay = s.quay := rfl
@[simp] theorem State.setLock_tables : (s.setLock f).tables = s.tables := rfl
@[simp] theorem State.setLock_log : (s.setLock f).log = s.log := rfl
@[simp] theorem State.setLock_pad : (s.setLock f).pad = s.pad := rfl
@[simp] theorem State.setLock_optics : (s.setLock f).optics = s.optics := rfl
@[simp] theorem State.setLock_tagRegs : (s.setLock f).tagRegs = s.tagRegs := rfl
@[simp] theorem State.setLock_windowAt : (s.setLock f).windowAt = s.windowAt := rfl
@[simp] theorem State.setLock_cal : (s.setLock f).cal = s.cal := rfl
@[simp] theorem State.setLock_evtInputs : (s.setLock f).evtInputs = s.evtInputs := rfl
@[simp] theorem State.setLock_evtAccs : (s.setLock f).evtAccs = s.evtAccs := rfl
@[simp] theorem State.setLock_nhp : (s.setLock f).nhp = s.nhp := rfl
@[simp] theorem State.setLock_gnss : (s.setLock f).gnss = s.gnss := rfl
@[simp] theorem State.setLock_obsJob : (s.setLock f).obsJob = s.obsJob := rfl
@[simp] theorem State.setLock_rings : (s.setLock f).rings = s.rings := rfl
@[simp] theorem State.setLock_txSlots : (s.setLock f).txSlots = s.txSlots := rfl
@[simp] theorem State.setLock_nextSlot : (s.setLock f).nextSlot = s.nextSlot := rfl
@[simp] theorem State.setLock_raised : (s.setLock f).raised = s.raised := rfl
@[simp] theorem State.setLock_power : (s.setLock f).power = s.power := rfl
@[simp] theorem State.setLock_fault : (s.setLock f).fault = s.fault := rfl
@[simp] theorem State.setLock_rd (c j : Nat) : (s.setLock f).rd c j = s.rd c j := rfl
end

section
variable (s : State) (i : Nat) (f : EvtInput → EvtInput)
@[simp] theorem State.setEvt_evtInputs : (s.setEvt i f).evtInputs = dropBy EvtInput.num i s.evtInputs ++ [f (s.evtInput i)] := rfl
@[simp] theorem State.setEvt_regs : (s.setEvt i f).regs = s.regs := rfl
@[simp] theorem State.setEvt_shadows : (s.setEvt i f).shadows = s.shadows := rfl
@[simp] theorem State.setEvt_hidden : (s.setEvt i f).hidden = s.hidden := rfl
@[simp] theorem State.setEvt_clock : (s.setEvt i f).clock = s.clock := rfl
@[simp] theorem State.setEvt_phase : (s.setEvt i f).phase = s.phase := rfl
@[simp] theorem State.setEvt_released : (s.setEvt i f).released = s.released := rfl
@[simp] theorem State.setEvt_fresh : (s.setEvt i f).fresh = s.fresh := rfl
@[simp] theorem State.setEvt_out : (s.setEvt i f).out = s.out := rfl
@[simp] theorem State.setEvt_pending : (s.setEvt i f).pending = s.pending := rfl
@[simp] theorem State.setEvt_cmd : (s.setEvt i f).cmd = s.cmd := rfl
@[simp] theorem State.setEvt_time : (s.setEvt i f).time = s.time := rfl
@[simp] theorem State.setEvt_refs : (s.setEvt i f).refs = s.refs := rfl
@[simp] theorem State.setEvt_servo : (s.setEvt i f).servo = s.servo := rfl
@[simp] theorem State.setEvt_flash : (s.setEvt i f).flash = s.flash := rfl
@[simp] theorem State.setEvt_links : (s.setEvt i f).links = s.links := rfl
@[simp] theorem State.setEvt_grants : (s.setEvt i f).grants = s.grants := rfl
@[simp] theorem State.setEvt_ptpSeq : (s.setEvt i f).ptpSeq = s.ptpSeq := rfl
@[simp] theorem State.setEvt_tcal : (s.setEvt i f).tcal = s.tcal := rfl
@[simp] theorem State.setEvt_linkRun : (s.setEvt i f).linkRun = s.linkRun := rfl
@[simp] theorem State.setEvt_fabric : (s.setEvt i f).fabric = s.fabric := rfl
@[simp] theorem State.setEvt_quay : (s.setEvt i f).quay = s.quay := rfl
@[simp] theorem State.setEvt_lock : (s.setEvt i f).lock = s.lock := rfl
@[simp] theorem State.setEvt_tables : (s.setEvt i f).tables = s.tables := rfl
@[simp] theorem State.setEvt_log : (s.setEvt i f).log = s.log := rfl
@[simp] theorem State.setEvt_pad : (s.setEvt i f).pad = s.pad := rfl
@[simp] theorem State.setEvt_optics : (s.setEvt i f).optics = s.optics := rfl
@[simp] theorem State.setEvt_tagRegs : (s.setEvt i f).tagRegs = s.tagRegs := rfl
@[simp] theorem State.setEvt_windowAt : (s.setEvt i f).windowAt = s.windowAt := rfl
@[simp] theorem State.setEvt_cal : (s.setEvt i f).cal = s.cal := rfl
@[simp] theorem State.setEvt_evtAccs : (s.setEvt i f).evtAccs = s.evtAccs := rfl
@[simp] theorem State.setEvt_nhp : (s.setEvt i f).nhp = s.nhp := rfl
@[simp] theorem State.setEvt_gnss : (s.setEvt i f).gnss = s.gnss := rfl
@[simp] theorem State.setEvt_obsJob : (s.setEvt i f).obsJob = s.obsJob := rfl
@[simp] theorem State.setEvt_rings : (s.setEvt i f).rings = s.rings := rfl
@[simp] theorem State.setEvt_txSlots : (s.setEvt i f).txSlots = s.txSlots := rfl
@[simp] theorem State.setEvt_nextSlot : (s.setEvt i f).nextSlot = s.nextSlot := rfl
@[simp] theorem State.setEvt_raised : (s.setEvt i f).raised = s.raised := rfl
@[simp] theorem State.setEvt_power : (s.setEvt i f).power = s.power := rfl
@[simp] theorem State.setEvt_fault : (s.setEvt i f).fault = s.fault := rfl
@[simp] theorem State.setEvt_rd (c j : Nat) : (s.setEvt i f).rd c j = s.rd c j := rfl
end

section
variable (s : State) (x : EvtAcc)
@[simp] theorem State.setAcc_evtAccs : (s.setAcc x).evtAccs = dropBy EvtAcc.num x.num s.evtAccs ++ [x] := rfl
@[simp] theorem State.setAcc_regs : (s.setAcc x).regs = s.regs := rfl
@[simp] theorem State.setAcc_shadows : (s.setAcc x).shadows = s.shadows := rfl
@[simp] theorem State.setAcc_hidden : (s.setAcc x).hidden = s.hidden := rfl
@[simp] theorem State.setAcc_clock : (s.setAcc x).clock = s.clock := rfl
@[simp] theorem State.setAcc_phase : (s.setAcc x).phase = s.phase := rfl
@[simp] theorem State.setAcc_released : (s.setAcc x).released = s.released := rfl
@[simp] theorem State.setAcc_fresh : (s.setAcc x).fresh = s.fresh := rfl
@[simp] theorem State.setAcc_out : (s.setAcc x).out = s.out := rfl
@[simp] theorem State.setAcc_pending : (s.setAcc x).pending = s.pending := rfl
@[simp] theorem State.setAcc_cmd : (s.setAcc x).cmd = s.cmd := rfl
@[simp] theorem State.setAcc_time : (s.setAcc x).time = s.time := rfl
@[simp] theorem State.setAcc_refs : (s.setAcc x).refs = s.refs := rfl
@[simp] theorem State.setAcc_servo : (s.setAcc x).servo = s.servo := rfl
@[simp] theorem State.setAcc_flash : (s.setAcc x).flash = s.flash := rfl
@[simp] theorem State.setAcc_links : (s.setAcc x).links = s.links := rfl
@[simp] theorem State.setAcc_grants : (s.setAcc x).grants = s.grants := rfl
@[simp] theorem State.setAcc_ptpSeq : (s.setAcc x).ptpSeq = s.ptpSeq := rfl
@[simp] theorem State.setAcc_tcal : (s.setAcc x).tcal = s.tcal := rfl
@[simp] theorem State.setAcc_linkRun : (s.setAcc x).linkRun = s.linkRun := rfl
@[simp] theorem State.setAcc_fabric : (s.setAcc x).fabric = s.fabric := rfl
@[simp] theorem State.setAcc_quay : (s.setAcc x).quay = s.quay := rfl
@[simp] theorem State.setAcc_lock : (s.setAcc x).lock = s.lock := rfl
@[simp] theorem State.setAcc_tables : (s.setAcc x).tables = s.tables := rfl
@[simp] theorem State.setAcc_log : (s.setAcc x).log = s.log := rfl
@[simp] theorem State.setAcc_pad : (s.setAcc x).pad = s.pad := rfl
@[simp] theorem State.setAcc_optics : (s.setAcc x).optics = s.optics := rfl
@[simp] theorem State.setAcc_tagRegs : (s.setAcc x).tagRegs = s.tagRegs := rfl
@[simp] theorem State.setAcc_windowAt : (s.setAcc x).windowAt = s.windowAt := rfl
@[simp] theorem State.setAcc_cal : (s.setAcc x).cal = s.cal := rfl
@[simp] theorem State.setAcc_evtInputs : (s.setAcc x).evtInputs = s.evtInputs := rfl
@[simp] theorem State.setAcc_nhp : (s.setAcc x).nhp = s.nhp := rfl
@[simp] theorem State.setAcc_gnss : (s.setAcc x).gnss = s.gnss := rfl
@[simp] theorem State.setAcc_obsJob : (s.setAcc x).obsJob = s.obsJob := rfl
@[simp] theorem State.setAcc_rings : (s.setAcc x).rings = s.rings := rfl
@[simp] theorem State.setAcc_txSlots : (s.setAcc x).txSlots = s.txSlots := rfl
@[simp] theorem State.setAcc_nextSlot : (s.setAcc x).nextSlot = s.nextSlot := rfl
@[simp] theorem State.setAcc_raised : (s.setAcc x).raised = s.raised := rfl
@[simp] theorem State.setAcc_power : (s.setAcc x).power = s.power := rfl
@[simp] theorem State.setAcc_fault : (s.setAcc x).fault = s.fault := rfl
@[simp] theorem State.setAcc_rd (c j : Nat) : (s.setAcc x).rd c j = s.rd c j := rfl
end

section
variable (s : State) (f : Gnss → Gnss)
@[simp] theorem State.setGnss_gnss : (s.setGnss f).gnss = f s.gnss := rfl
@[simp] theorem State.setGnss_regs : (s.setGnss f).regs = s.regs := rfl
@[simp] theorem State.setGnss_shadows : (s.setGnss f).shadows = s.shadows := rfl
@[simp] theorem State.setGnss_hidden : (s.setGnss f).hidden = s.hidden := rfl
@[simp] theorem State.setGnss_clock : (s.setGnss f).clock = s.clock := rfl
@[simp] theorem State.setGnss_phase : (s.setGnss f).phase = s.phase := rfl
@[simp] theorem State.setGnss_released : (s.setGnss f).released = s.released := rfl
@[simp] theorem State.setGnss_fresh : (s.setGnss f).fresh = s.fresh := rfl
@[simp] theorem State.setGnss_out : (s.setGnss f).out = s.out := rfl
@[simp] theorem State.setGnss_pending : (s.setGnss f).pending = s.pending := rfl
@[simp] theorem State.setGnss_cmd : (s.setGnss f).cmd = s.cmd := rfl
@[simp] theorem State.setGnss_time : (s.setGnss f).time = s.time := rfl
@[simp] theorem State.setGnss_refs : (s.setGnss f).refs = s.refs := rfl
@[simp] theorem State.setGnss_servo : (s.setGnss f).servo = s.servo := rfl
@[simp] theorem State.setGnss_flash : (s.setGnss f).flash = s.flash := rfl
@[simp] theorem State.setGnss_links : (s.setGnss f).links = s.links := rfl
@[simp] theorem State.setGnss_grants : (s.setGnss f).grants = s.grants := rfl
@[simp] theorem State.setGnss_ptpSeq : (s.setGnss f).ptpSeq = s.ptpSeq := rfl
@[simp] theorem State.setGnss_tcal : (s.setGnss f).tcal = s.tcal := rfl
@[simp] theorem State.setGnss_linkRun : (s.setGnss f).linkRun = s.linkRun := rfl
@[simp] theorem State.setGnss_fabric : (s.setGnss f).fabric = s.fabric := rfl
@[simp] theorem State.setGnss_quay : (s.setGnss f).quay = s.quay := rfl
@[simp] theorem State.setGnss_lock : (s.setGnss f).lock = s.lock := rfl
@[simp] theorem State.setGnss_tables : (s.setGnss f).tables = s.tables := rfl
@[simp] theorem State.setGnss_log : (s.setGnss f).log = s.log := rfl
@[simp] theorem State.setGnss_pad : (s.setGnss f).pad = s.pad := rfl
@[simp] theorem State.setGnss_optics : (s.setGnss f).optics = s.optics := rfl
@[simp] theorem State.setGnss_tagRegs : (s.setGnss f).tagRegs = s.tagRegs := rfl
@[simp] theorem State.setGnss_windowAt : (s.setGnss f).windowAt = s.windowAt := rfl
@[simp] theorem State.setGnss_cal : (s.setGnss f).cal = s.cal := rfl
@[simp] theorem State.setGnss_evtInputs : (s.setGnss f).evtInputs = s.evtInputs := rfl
@[simp] theorem State.setGnss_evtAccs : (s.setGnss f).evtAccs = s.evtAccs := rfl
@[simp] theorem State.setGnss_nhp : (s.setGnss f).nhp = s.nhp := rfl
@[simp] theorem State.setGnss_obsJob : (s.setGnss f).obsJob = s.obsJob := rfl
@[simp] theorem State.setGnss_rings : (s.setGnss f).rings = s.rings := rfl
@[simp] theorem State.setGnss_txSlots : (s.setGnss f).txSlots = s.txSlots := rfl
@[simp] theorem State.setGnss_nextSlot : (s.setGnss f).nextSlot = s.nextSlot := rfl
@[simp] theorem State.setGnss_raised : (s.setGnss f).raised = s.raised := rfl
@[simp] theorem State.setGnss_power : (s.setGnss f).power = s.power := rfl
@[simp] theorem State.setGnss_fault : (s.setGnss f).fault = s.fault := rfl
@[simp] theorem State.setGnss_rd (c j : Nat) : (s.setGnss f).rd c j = s.rd c j := rfl
end

section
variable (s : State) (f : Optics → Optics)
@[simp] theorem State.setOptics_optics : (s.setOptics f).optics = f s.optics := rfl
@[simp] theorem State.setOptics_regs : (s.setOptics f).regs = s.regs := rfl
@[simp] theorem State.setOptics_shadows : (s.setOptics f).shadows = s.shadows := rfl
@[simp] theorem State.setOptics_hidden : (s.setOptics f).hidden = s.hidden := rfl
@[simp] theorem State.setOptics_clock : (s.setOptics f).clock = s.clock := rfl
@[simp] theorem State.setOptics_phase : (s.setOptics f).phase = s.phase := rfl
@[simp] theorem State.setOptics_released : (s.setOptics f).released = s.released := rfl
@[simp] theorem State.setOptics_fresh : (s.setOptics f).fresh = s.fresh := rfl
@[simp] theorem State.setOptics_out : (s.setOptics f).out = s.out := rfl
@[simp] theorem State.setOptics_pending : (s.setOptics f).pending = s.pending := rfl
@[simp] theorem State.setOptics_cmd : (s.setOptics f).cmd = s.cmd := rfl
@[simp] theorem State.setOptics_time : (s.setOptics f).time = s.time := rfl
@[simp] theorem State.setOptics_refs : (s.setOptics f).refs = s.refs := rfl
@[simp] theorem State.setOptics_servo : (s.setOptics f).servo = s.servo := rfl
@[simp] theorem State.setOptics_flash : (s.setOptics f).flash = s.flash := rfl
@[simp] theorem State.setOptics_links : (s.setOptics f).links = s.links := rfl
@[simp] theorem State.setOptics_grants : (s.setOptics f).grants = s.grants := rfl
@[simp] theorem State.setOptics_ptpSeq : (s.setOptics f).ptpSeq = s.ptpSeq := rfl
@[simp] theorem State.setOptics_tcal : (s.setOptics f).tcal = s.tcal := rfl
@[simp] theorem State.setOptics_linkRun : (s.setOptics f).linkRun = s.linkRun := rfl
@[simp] theorem State.setOptics_fabric : (s.setOptics f).fabric = s.fabric := rfl
@[simp] theorem State.setOptics_quay : (s.setOptics f).quay = s.quay := rfl
@[simp] theorem State.setOptics_lock : (s.setOptics f).lock = s.lock := rfl
@[simp] theorem State.setOptics_tables : (s.setOptics f).tables = s.tables := rfl
@[simp] theorem State.setOptics_log : (s.setOptics f).log = s.log := rfl
@[simp] theorem State.setOptics_pad : (s.setOptics f).pad = s.pad := rfl
@[simp] theorem State.setOptics_tagRegs : (s.setOptics f).tagRegs = s.tagRegs := rfl
@[simp] theorem State.setOptics_windowAt : (s.setOptics f).windowAt = s.windowAt := rfl
@[simp] theorem State.setOptics_cal : (s.setOptics f).cal = s.cal := rfl
@[simp] theorem State.setOptics_evtInputs : (s.setOptics f).evtInputs = s.evtInputs := rfl
@[simp] theorem State.setOptics_evtAccs : (s.setOptics f).evtAccs = s.evtAccs := rfl
@[simp] theorem State.setOptics_nhp : (s.setOptics f).nhp = s.nhp := rfl
@[simp] theorem State.setOptics_gnss : (s.setOptics f).gnss = s.gnss := rfl
@[simp] theorem State.setOptics_obsJob : (s.setOptics f).obsJob = s.obsJob := rfl
@[simp] theorem State.setOptics_rings : (s.setOptics f).rings = s.rings := rfl
@[simp] theorem State.setOptics_txSlots : (s.setOptics f).txSlots = s.txSlots := rfl
@[simp] theorem State.setOptics_nextSlot : (s.setOptics f).nextSlot = s.nextSlot := rfl
@[simp] theorem State.setOptics_raised : (s.setOptics f).raised = s.raised := rfl
@[simp] theorem State.setOptics_power : (s.setOptics f).power = s.power := rfl
@[simp] theorem State.setOptics_fault : (s.setOptics f).fault = s.fault := rfl
@[simp] theorem State.setOptics_rd (c j : Nat) : (s.setOptics f).rd c j = s.rd c j := rfl
end

section
variable (s : State) (a : Nat) (bs : List Byte)
@[simp] theorem State.padWrite_pad : (s.padWrite a bs).pad = { s.pad with mem := padStore a bs s.pad.mem } := rfl
@[simp] theorem State.padWrite_regs : (s.padWrite a bs).regs = s.regs := rfl
@[simp] theorem State.padWrite_shadows : (s.padWrite a bs).shadows = s.shadows := rfl
@[simp] theorem State.padWrite_hidden : (s.padWrite a bs).hidden = s.hidden := rfl
@[simp] theorem State.padWrite_clock : (s.padWrite a bs).clock = s.clock := rfl
@[simp] theorem State.padWrite_phase : (s.padWrite a bs).phase = s.phase := rfl
@[simp] theorem State.padWrite_released : (s.padWrite a bs).released = s.released := rfl
@[simp] theorem State.padWrite_fresh : (s.padWrite a bs).fresh = s.fresh := rfl
@[simp] theorem State.padWrite_out : (s.padWrite a bs).out = s.out := rfl
@[simp] theorem State.padWrite_pending : (s.padWrite a bs).pending = s.pending := rfl
@[simp] theorem State.padWrite_cmd : (s.padWrite a bs).cmd = s.cmd := rfl
@[simp] theorem State.padWrite_time : (s.padWrite a bs).time = s.time := rfl
@[simp] theorem State.padWrite_refs : (s.padWrite a bs).refs = s.refs := rfl
@[simp] theorem State.padWrite_servo : (s.padWrite a bs).servo = s.servo := rfl
@[simp] theorem State.padWrite_flash : (s.padWrite a bs).flash = s.flash := rfl
@[simp] theorem State.padWrite_links : (s.padWrite a bs).links = s.links := rfl
@[simp] theorem State.padWrite_grants : (s.padWrite a bs).grants = s.grants := rfl
@[simp] theorem State.padWrite_ptpSeq : (s.padWrite a bs).ptpSeq = s.ptpSeq := rfl
@[simp] theorem State.padWrite_tcal : (s.padWrite a bs).tcal = s.tcal := rfl
@[simp] theorem State.padWrite_linkRun : (s.padWrite a bs).linkRun = s.linkRun := rfl
@[simp] theorem State.padWrite_fabric : (s.padWrite a bs).fabric = s.fabric := rfl
@[simp] theorem State.padWrite_quay : (s.padWrite a bs).quay = s.quay := rfl
@[simp] theorem State.padWrite_lock : (s.padWrite a bs).lock = s.lock := rfl
@[simp] theorem State.padWrite_tables : (s.padWrite a bs).tables = s.tables := rfl
@[simp] theorem State.padWrite_log : (s.padWrite a bs).log = s.log := rfl
@[simp] theorem State.padWrite_optics : (s.padWrite a bs).optics = s.optics := rfl
@[simp] theorem State.padWrite_tagRegs : (s.padWrite a bs).tagRegs = s.tagRegs := rfl
@[simp] theorem State.padWrite_windowAt : (s.padWrite a bs).windowAt = s.windowAt := rfl
@[simp] theorem State.padWrite_cal : (s.padWrite a bs).cal = s.cal := rfl
@[simp] theorem State.padWrite_evtInputs : (s.padWrite a bs).evtInputs = s.evtInputs := rfl
@[simp] theorem State.padWrite_evtAccs : (s.padWrite a bs).evtAccs = s.evtAccs := rfl
@[simp] theorem State.padWrite_nhp : (s.padWrite a bs).nhp = s.nhp := rfl
@[simp] theorem State.padWrite_gnss : (s.padWrite a bs).gnss = s.gnss := rfl
@[simp] theorem State.padWrite_obsJob : (s.padWrite a bs).obsJob = s.obsJob := rfl
@[simp] theorem State.padWrite_rings : (s.padWrite a bs).rings = s.rings := rfl
@[simp] theorem State.padWrite_txSlots : (s.padWrite a bs).txSlots = s.txSlots := rfl
@[simp] theorem State.padWrite_nextSlot : (s.padWrite a bs).nextSlot = s.nextSlot := rfl
@[simp] theorem State.padWrite_raised : (s.padWrite a bs).raised = s.raised := rfl
@[simp] theorem State.padWrite_power : (s.padWrite a bs).power = s.power := rfl
@[simp] theorem State.padWrite_fault : (s.padWrite a bs).fault = s.fault := rfl
@[simp] theorem State.padWrite_rd (c j : Nat) : (s.padWrite a bs).rd c j = s.rd c j := rfl
end

section
variable (s : State) (f : Logbook → Logbook)
@[simp] theorem State.setLog_log : (s.setLog f).log = f s.log := rfl
@[simp] theorem State.setLog_regs : (s.setLog f).regs = s.regs := rfl
@[simp] theorem State.setLog_shadows : (s.setLog f).shadows = s.shadows := rfl
@[simp] theorem State.setLog_hidden : (s.setLog f).hidden = s.hidden := rfl
@[simp] theorem State.setLog_clock : (s.setLog f).clock = s.clock := rfl
@[simp] theorem State.setLog_phase : (s.setLog f).phase = s.phase := rfl
@[simp] theorem State.setLog_released : (s.setLog f).released = s.released := rfl
@[simp] theorem State.setLog_fresh : (s.setLog f).fresh = s.fresh := rfl
@[simp] theorem State.setLog_out : (s.setLog f).out = s.out := rfl
@[simp] theorem State.setLog_pending : (s.setLog f).pending = s.pending := rfl
@[simp] theorem State.setLog_cmd : (s.setLog f).cmd = s.cmd := rfl
@[simp] theorem State.setLog_time : (s.setLog f).time = s.time := rfl
@[simp] theorem State.setLog_refs : (s.setLog f).refs = s.refs := rfl
@[simp] theorem State.setLog_servo : (s.setLog f).servo = s.servo := rfl
@[simp] theorem State.setLog_flash : (s.setLog f).flash = s.flash := rfl
@[simp] theorem State.setLog_links : (s.setLog f).links = s.links := rfl
@[simp] theorem State.setLog_grants : (s.setLog f).grants = s.grants := rfl
@[simp] theorem State.setLog_ptpSeq : (s.setLog f).ptpSeq = s.ptpSeq := rfl
@[simp] theorem State.setLog_tcal : (s.setLog f).tcal = s.tcal := rfl
@[simp] theorem State.setLog_linkRun : (s.setLog f).linkRun = s.linkRun := rfl
@[simp] theorem State.setLog_fabric : (s.setLog f).fabric = s.fabric := rfl
@[simp] theorem State.setLog_quay : (s.setLog f).quay = s.quay := rfl
@[simp] theorem State.setLog_lock : (s.setLog f).lock = s.lock := rfl
@[simp] theorem State.setLog_tables : (s.setLog f).tables = s.tables := rfl
@[simp] theorem State.setLog_pad : (s.setLog f).pad = s.pad := rfl
@[simp] theorem State.setLog_optics : (s.setLog f).optics = s.optics := rfl
@[simp] theorem State.setLog_tagRegs : (s.setLog f).tagRegs = s.tagRegs := rfl
@[simp] theorem State.setLog_windowAt : (s.setLog f).windowAt = s.windowAt := rfl
@[simp] theorem State.setLog_cal : (s.setLog f).cal = s.cal := rfl
@[simp] theorem State.setLog_evtInputs : (s.setLog f).evtInputs = s.evtInputs := rfl
@[simp] theorem State.setLog_evtAccs : (s.setLog f).evtAccs = s.evtAccs := rfl
@[simp] theorem State.setLog_nhp : (s.setLog f).nhp = s.nhp := rfl
@[simp] theorem State.setLog_gnss : (s.setLog f).gnss = s.gnss := rfl
@[simp] theorem State.setLog_obsJob : (s.setLog f).obsJob = s.obsJob := rfl
@[simp] theorem State.setLog_rings : (s.setLog f).rings = s.rings := rfl
@[simp] theorem State.setLog_txSlots : (s.setLog f).txSlots = s.txSlots := rfl
@[simp] theorem State.setLog_nextSlot : (s.setLog f).nextSlot = s.nextSlot := rfl
@[simp] theorem State.setLog_raised : (s.setLog f).raised = s.raised := rfl
@[simp] theorem State.setLog_power : (s.setLog f).power = s.power := rfl
@[simp] theorem State.setLog_fault : (s.setLog f).fault = s.fault := rfl
@[simp] theorem State.setLog_rd (c j : Nat) : (s.setLog f).rd c j = s.rd c j := rfl
end

section
variable (s : State) (f : Hierarchy → Hierarchy)
@[simp] theorem State.setNhp_nhp : (s.setNhp f).nhp = f s.nhp := rfl
@[simp] theorem State.setNhp_regs : (s.setNhp f).regs = s.regs := rfl
@[simp] theorem State.setNhp_shadows : (s.setNhp f).shadows = s.shadows := rfl
@[simp] theorem State.setNhp_hidden : (s.setNhp f).hidden = s.hidden := rfl
@[simp] theorem State.setNhp_clock : (s.setNhp f).clock = s.clock := rfl
@[simp] theorem State.setNhp_phase : (s.setNhp f).phase = s.phase := rfl
@[simp] theorem State.setNhp_released : (s.setNhp f).released = s.released := rfl
@[simp] theorem State.setNhp_fresh : (s.setNhp f).fresh = s.fresh := rfl
@[simp] theorem State.setNhp_out : (s.setNhp f).out = s.out := rfl
@[simp] theorem State.setNhp_pending : (s.setNhp f).pending = s.pending := rfl
@[simp] theorem State.setNhp_cmd : (s.setNhp f).cmd = s.cmd := rfl
@[simp] theorem State.setNhp_time : (s.setNhp f).time = s.time := rfl
@[simp] theorem State.setNhp_refs : (s.setNhp f).refs = s.refs := rfl
@[simp] theorem State.setNhp_servo : (s.setNhp f).servo = s.servo := rfl
@[simp] theorem State.setNhp_flash : (s.setNhp f).flash = s.flash := rfl
@[simp] theorem State.setNhp_links : (s.setNhp f).links = s.links := rfl
@[simp] theorem State.setNhp_grants : (s.setNhp f).grants = s.grants := rfl
@[simp] theorem State.setNhp_ptpSeq : (s.setNhp f).ptpSeq = s.ptpSeq := rfl
@[simp] theorem State.setNhp_tcal : (s.setNhp f).tcal = s.tcal := rfl
@[simp] theorem State.setNhp_linkRun : (s.setNhp f).linkRun = s.linkRun := rfl
@[simp] theorem State.setNhp_fabric : (s.setNhp f).fabric = s.fabric := rfl
@[simp] theorem State.setNhp_quay : (s.setNhp f).quay = s.quay := rfl
@[simp] theorem State.setNhp_lock : (s.setNhp f).lock = s.lock := rfl
@[simp] theorem State.setNhp_tables : (s.setNhp f).tables = s.tables := rfl
@[simp] theorem State.setNhp_log : (s.setNhp f).log = s.log := rfl
@[simp] theorem State.setNhp_pad : (s.setNhp f).pad = s.pad := rfl
@[simp] theorem State.setNhp_optics : (s.setNhp f).optics = s.optics := rfl
@[simp] theorem State.setNhp_tagRegs : (s.setNhp f).tagRegs = s.tagRegs := rfl
@[simp] theorem State.setNhp_windowAt : (s.setNhp f).windowAt = s.windowAt := rfl
@[simp] theorem State.setNhp_cal : (s.setNhp f).cal = s.cal := rfl
@[simp] theorem State.setNhp_evtInputs : (s.setNhp f).evtInputs = s.evtInputs := rfl
@[simp] theorem State.setNhp_evtAccs : (s.setNhp f).evtAccs = s.evtAccs := rfl
@[simp] theorem State.setNhp_gnss : (s.setNhp f).gnss = s.gnss := rfl
@[simp] theorem State.setNhp_obsJob : (s.setNhp f).obsJob = s.obsJob := rfl
@[simp] theorem State.setNhp_rings : (s.setNhp f).rings = s.rings := rfl
@[simp] theorem State.setNhp_txSlots : (s.setNhp f).txSlots = s.txSlots := rfl
@[simp] theorem State.setNhp_nextSlot : (s.setNhp f).nextSlot = s.nextSlot := rfl
@[simp] theorem State.setNhp_raised : (s.setNhp f).raised = s.raised := rfl
@[simp] theorem State.setNhp_power : (s.setNhp f).power = s.power := rfl
@[simp] theorem State.setNhp_fault : (s.setNhp f).fault = s.fault := rfl
@[simp] theorem State.setNhp_rd (c j : Nat) : (s.setNhp f).rd c j = s.rd c j := rfl
end

section
variable (s : State) (b i v : Nat)
@[simp] theorem State.wr_regs : (s.wr b i v).regs = store ltPair (b, i) (resetOf b i) v s.regs := rfl
@[simp] theorem State.wr_shadows : (s.wr b i v).shadows = s.shadows := rfl
@[simp] theorem State.wr_hidden : (s.wr b i v).hidden = s.hidden := rfl
@[simp] theorem State.wr_clock : (s.wr b i v).clock = s.clock := rfl
@[simp] theorem State.wr_phase : (s.wr b i v).phase = s.phase := rfl
@[simp] theorem State.wr_released : (s.wr b i v).released = s.released := rfl
@[simp] theorem State.wr_fresh : (s.wr b i v).fresh = s.fresh := rfl
@[simp] theorem State.wr_out : (s.wr b i v).out = s.out := rfl
@[simp] theorem State.wr_pending : (s.wr b i v).pending = s.pending := rfl
@[simp] theorem State.wr_cmd : (s.wr b i v).cmd = s.cmd := rfl
@[simp] theorem State.wr_time : (s.wr b i v).time = s.time := rfl
@[simp] theorem State.wr_refs : (s.wr b i v).refs = s.refs := rfl
@[simp] theorem State.wr_servo : (s.wr b i v).servo = s.servo := rfl
@[simp] theorem State.wr_flash : (s.wr b i v).flash = s.flash := rfl
@[simp] theorem State.wr_links : (s.wr b i v).links = s.links := rfl
@[simp] theorem State.wr_grants : (s.wr b i v).grants = s.grants := rfl
@[simp] theorem State.wr_ptpSeq : (s.wr b i v).ptpSeq = s.ptpSeq := rfl
@[simp] theorem State.wr_tcal : (s.wr b i v).tcal = s.tcal := rfl
@[simp] theorem State.wr_linkRun : (s.wr b i v).linkRun = s.linkRun := rfl
@[simp] theorem State.wr_fabric : (s.wr b i v).fabric = s.fabric := rfl
@[simp] theorem State.wr_quay : (s.wr b i v).quay = s.quay := rfl
@[simp] theorem State.wr_lock : (s.wr b i v).lock = s.lock := rfl
@[simp] theorem State.wr_tables : (s.wr b i v).tables = s.tables := rfl
@[simp] theorem State.wr_log : (s.wr b i v).log = s.log := rfl
@[simp] theorem State.wr_pad : (s.wr b i v).pad = s.pad := rfl
@[simp] theorem State.wr_optics : (s.wr b i v).optics = s.optics := rfl
@[simp] theorem State.wr_tagRegs : (s.wr b i v).tagRegs = s.tagRegs := rfl
@[simp] theorem State.wr_windowAt : (s.wr b i v).windowAt = s.windowAt := rfl
@[simp] theorem State.wr_cal : (s.wr b i v).cal = s.cal := rfl
@[simp] theorem State.wr_evtInputs : (s.wr b i v).evtInputs = s.evtInputs := rfl
@[simp] theorem State.wr_evtAccs : (s.wr b i v).evtAccs = s.evtAccs := rfl
@[simp] theorem State.wr_nhp : (s.wr b i v).nhp = s.nhp := rfl
@[simp] theorem State.wr_gnss : (s.wr b i v).gnss = s.gnss := rfl
@[simp] theorem State.wr_obsJob : (s.wr b i v).obsJob = s.obsJob := rfl
@[simp] theorem State.wr_rings : (s.wr b i v).rings = s.rings := rfl
@[simp] theorem State.wr_txSlots : (s.wr b i v).txSlots = s.txSlots := rfl
@[simp] theorem State.wr_nextSlot : (s.wr b i v).nextSlot = s.nextSlot := rfl
@[simp] theorem State.wr_raised : (s.wr b i v).raised = s.raised := rfl
@[simp] theorem State.wr_power : (s.wr b i v).power = s.power := rfl
@[simp] theorem State.wr_fault : (s.wr b i v).fault = s.fault := rfl
end

section
variable (s : State) (e : Emission)
@[simp] theorem State.emit_out : (s.emit e).out = s.out ++ [e] := rfl
@[simp] theorem State.emit_regs : (s.emit e).regs = s.regs := rfl
@[simp] theorem State.emit_shadows : (s.emit e).shadows = s.shadows := rfl
@[simp] theorem State.emit_hidden : (s.emit e).hidden = s.hidden := rfl
@[simp] theorem State.emit_clock : (s.emit e).clock = s.clock := rfl
@[simp] theorem State.emit_phase : (s.emit e).phase = s.phase := rfl
@[simp] theorem State.emit_released : (s.emit e).released = s.released := rfl
@[simp] theorem State.emit_fresh : (s.emit e).fresh = s.fresh := rfl
@[simp] theorem State.emit_pending : (s.emit e).pending = s.pending := rfl
@[simp] theorem State.emit_cmd : (s.emit e).cmd = s.cmd := rfl
@[simp] theorem State.emit_time : (s.emit e).time = s.time := rfl
@[simp] theorem State.emit_refs : (s.emit e).refs = s.refs := rfl
@[simp] theorem State.emit_servo : (s.emit e).servo = s.servo := rfl
@[simp] theorem State.emit_flash : (s.emit e).flash = s.flash := rfl
@[simp] theorem State.emit_links : (s.emit e).links = s.links := rfl
@[simp] theorem State.emit_grants : (s.emit e).grants = s.grants := rfl
@[simp] theorem State.emit_ptpSeq : (s.emit e).ptpSeq = s.ptpSeq := rfl
@[simp] theorem State.emit_tcal : (s.emit e).tcal = s.tcal := rfl
@[simp] theorem State.emit_linkRun : (s.emit e).linkRun = s.linkRun := rfl
@[simp] theorem State.emit_fabric : (s.emit e).fabric = s.fabric := rfl
@[simp] theorem State.emit_quay : (s.emit e).quay = s.quay := rfl
@[simp] theorem State.emit_lock : (s.emit e).lock = s.lock := rfl
@[simp] theorem State.emit_tables : (s.emit e).tables = s.tables := rfl
@[simp] theorem State.emit_log : (s.emit e).log = s.log := rfl
@[simp] theorem State.emit_pad : (s.emit e).pad = s.pad := rfl
@[simp] theorem State.emit_optics : (s.emit e).optics = s.optics := rfl
@[simp] theorem State.emit_tagRegs : (s.emit e).tagRegs = s.tagRegs := rfl
@[simp] theorem State.emit_windowAt : (s.emit e).windowAt = s.windowAt := rfl
@[simp] theorem State.emit_cal : (s.emit e).cal = s.cal := rfl
@[simp] theorem State.emit_evtInputs : (s.emit e).evtInputs = s.evtInputs := rfl
@[simp] theorem State.emit_evtAccs : (s.emit e).evtAccs = s.evtAccs := rfl
@[simp] theorem State.emit_nhp : (s.emit e).nhp = s.nhp := rfl
@[simp] theorem State.emit_gnss : (s.emit e).gnss = s.gnss := rfl
@[simp] theorem State.emit_obsJob : (s.emit e).obsJob = s.obsJob := rfl
@[simp] theorem State.emit_rings : (s.emit e).rings = s.rings := rfl
@[simp] theorem State.emit_txSlots : (s.emit e).txSlots = s.txSlots := rfl
@[simp] theorem State.emit_nextSlot : (s.emit e).nextSlot = s.nextSlot := rfl
@[simp] theorem State.emit_raised : (s.emit e).raised = s.raised := rfl
@[simp] theorem State.emit_power : (s.emit e).power = s.power := rfl
@[simp] theorem State.emit_fault : (s.emit e).fault = s.fault := rfl
@[simp] theorem State.emit_rd (c j : Nat) : (s.emit e).rd c j = s.rd c j := rfl
end

section
variable (s : State) (r : Nat) (f : RefMon → RefMon)
@[simp] theorem State.setMon_refs : (s.setMon r f).refs = modAt r f s.refs := rfl
@[simp] theorem State.setMon_regs : (s.setMon r f).regs = s.regs := rfl
@[simp] theorem State.setMon_shadows : (s.setMon r f).shadows = s.shadows := rfl
@[simp] theorem State.setMon_hidden : (s.setMon r f).hidden = s.hidden := rfl
@[simp] theorem State.setMon_clock : (s.setMon r f).clock = s.clock := rfl
@[simp] theorem State.setMon_phase : (s.setMon r f).phase = s.phase := rfl
@[simp] theorem State.setMon_released : (s.setMon r f).released = s.released := rfl
@[simp] theorem State.setMon_fresh : (s.setMon r f).fresh = s.fresh := rfl
@[simp] theorem State.setMon_out : (s.setMon r f).out = s.out := rfl
@[simp] theorem State.setMon_pending : (s.setMon r f).pending = s.pending := rfl
@[simp] theorem State.setMon_cmd : (s.setMon r f).cmd = s.cmd := rfl
@[simp] theorem State.setMon_time : (s.setMon r f).time = s.time := rfl
@[simp] theorem State.setMon_servo : (s.setMon r f).servo = s.servo := rfl
@[simp] theorem State.setMon_flash : (s.setMon r f).flash = s.flash := rfl
@[simp] theorem State.setMon_links : (s.setMon r f).links = s.links := rfl
@[simp] theorem State.setMon_grants : (s.setMon r f).grants = s.grants := rfl
@[simp] theorem State.setMon_ptpSeq : (s.setMon r f).ptpSeq = s.ptpSeq := rfl
@[simp] theorem State.setMon_tcal : (s.setMon r f).tcal = s.tcal := rfl
@[simp] theorem State.setMon_linkRun : (s.setMon r f).linkRun = s.linkRun := rfl
@[simp] theorem State.setMon_fabric : (s.setMon r f).fabric = s.fabric := rfl
@[simp] theorem State.setMon_quay : (s.setMon r f).quay = s.quay := rfl
@[simp] theorem State.setMon_lock : (s.setMon r f).lock = s.lock := rfl
@[simp] theorem State.setMon_tables : (s.setMon r f).tables = s.tables := rfl
@[simp] theorem State.setMon_log : (s.setMon r f).log = s.log := rfl
@[simp] theorem State.setMon_pad : (s.setMon r f).pad = s.pad := rfl
@[simp] theorem State.setMon_optics : (s.setMon r f).optics = s.optics := rfl
@[simp] theorem State.setMon_tagRegs : (s.setMon r f).tagRegs = s.tagRegs := rfl
@[simp] theorem State.setMon_windowAt : (s.setMon r f).windowAt = s.windowAt := rfl
@[simp] theorem State.setMon_cal : (s.setMon r f).cal = s.cal := rfl
@[simp] theorem State.setMon_evtInputs : (s.setMon r f).evtInputs = s.evtInputs := rfl
@[simp] theorem State.setMon_evtAccs : (s.setMon r f).evtAccs = s.evtAccs := rfl
@[simp] theorem State.setMon_nhp : (s.setMon r f).nhp = s.nhp := rfl
@[simp] theorem State.setMon_gnss : (s.setMon r f).gnss = s.gnss := rfl
@[simp] theorem State.setMon_obsJob : (s.setMon r f).obsJob = s.obsJob := rfl
@[simp] theorem State.setMon_rings : (s.setMon r f).rings = s.rings := rfl
@[simp] theorem State.setMon_txSlots : (s.setMon r f).txSlots = s.txSlots := rfl
@[simp] theorem State.setMon_nextSlot : (s.setMon r f).nextSlot = s.nextSlot := rfl
@[simp] theorem State.setMon_raised : (s.setMon r f).raised = s.raised := rfl
@[simp] theorem State.setMon_power : (s.setMon r f).power = s.power := rfl
@[simp] theorem State.setMon_fault : (s.setMon r f).fault = s.fault := rfl
@[simp] theorem State.setMon_rd (c j : Nat) : (s.setMon r f).rd c j = s.rd c j := rfl
end

section
variable (s : State) (f : Servo → Servo)
@[simp] theorem State.setServo_servo : (s.setServo f).servo = f s.servo := rfl
@[simp] theorem State.setServo_regs : (s.setServo f).regs = s.regs := rfl
@[simp] theorem State.setServo_shadows : (s.setServo f).shadows = s.shadows := rfl
@[simp] theorem State.setServo_hidden : (s.setServo f).hidden = s.hidden := rfl
@[simp] theorem State.setServo_clock : (s.setServo f).clock = s.clock := rfl
@[simp] theorem State.setServo_phase : (s.setServo f).phase = s.phase := rfl
@[simp] theorem State.setServo_released : (s.setServo f).released = s.released := rfl
@[simp] theorem State.setServo_fresh : (s.setServo f).fresh = s.fresh := rfl
@[simp] theorem State.setServo_out : (s.setServo f).out = s.out := rfl
@[simp] theorem State.setServo_pending : (s.setServo f).pending = s.pending := rfl
@[simp] theorem State.setServo_cmd : (s.setServo f).cmd = s.cmd := rfl
@[simp] theorem State.setServo_time : (s.setServo f).time = s.time := rfl
@[simp] theorem State.setServo_refs : (s.setServo f).refs = s.refs := rfl
@[simp] theorem State.setServo_flash : (s.setServo f).flash = s.flash := rfl
@[simp] theorem State.setServo_links : (s.setServo f).links = s.links := rfl
@[simp] theorem State.setServo_grants : (s.setServo f).grants = s.grants := rfl
@[simp] theorem State.setServo_ptpSeq : (s.setServo f).ptpSeq = s.ptpSeq := rfl
@[simp] theorem State.setServo_tcal : (s.setServo f).tcal = s.tcal := rfl
@[simp] theorem State.setServo_linkRun : (s.setServo f).linkRun = s.linkRun := rfl
@[simp] theorem State.setServo_fabric : (s.setServo f).fabric = s.fabric := rfl
@[simp] theorem State.setServo_quay : (s.setServo f).quay = s.quay := rfl
@[simp] theorem State.setServo_lock : (s.setServo f).lock = s.lock := rfl
@[simp] theorem State.setServo_tables : (s.setServo f).tables = s.tables := rfl
@[simp] theorem State.setServo_log : (s.setServo f).log = s.log := rfl
@[simp] theorem State.setServo_pad : (s.setServo f).pad = s.pad := rfl
@[simp] theorem State.setServo_optics : (s.setServo f).optics = s.optics := rfl
@[simp] theorem State.setServo_tagRegs : (s.setServo f).tagRegs = s.tagRegs := rfl
@[simp] theorem State.setServo_windowAt : (s.setServo f).windowAt = s.windowAt := rfl
@[simp] theorem State.setServo_cal : (s.setServo f).cal = s.cal := rfl
@[simp] theorem State.setServo_evtInputs : (s.setServo f).evtInputs = s.evtInputs := rfl
@[simp] theorem State.setServo_evtAccs : (s.setServo f).evtAccs = s.evtAccs := rfl
@[simp] theorem State.setServo_nhp : (s.setServo f).nhp = s.nhp := rfl
@[simp] theorem State.setServo_gnss : (s.setServo f).gnss = s.gnss := rfl
@[simp] theorem State.setServo_obsJob : (s.setServo f).obsJob = s.obsJob := rfl
@[simp] theorem State.setServo_rings : (s.setServo f).rings = s.rings := rfl
@[simp] theorem State.setServo_txSlots : (s.setServo f).txSlots = s.txSlots := rfl
@[simp] theorem State.setServo_nextSlot : (s.setServo f).nextSlot = s.nextSlot := rfl
@[simp] theorem State.setServo_raised : (s.setServo f).raised = s.raised := rfl
@[simp] theorem State.setServo_power : (s.setServo f).power = s.power := rfl
@[simp] theorem State.setServo_fault : (s.setServo f).fault = s.fault := rfl
@[simp] theorem State.setServo_rd (c j : Nat) : (s.setServo f).rd c j = s.rd c j := rfl
end

section
variable (s : State) (f : Command → Command)
@[simp] theorem State.setCmd_cmd : (s.setCmd f).cmd = f s.cmd := rfl
@[simp] theorem State.setCmd_regs : (s.setCmd f).regs = s.regs := rfl
@[simp] theorem State.setCmd_shadows : (s.setCmd f).shadows = s.shadows := rfl
@[simp] theorem State.setCmd_hidden : (s.setCmd f).hidden = s.hidden := rfl
@[simp] theorem State.setCmd_clock : (s.setCmd f).clock = s.clock := rfl
@[simp] theorem State.setCmd_phase : (s.setCmd f).phase = s.phase := rfl
@[simp] theorem State.setCmd_released : (s.setCmd f).released = s.released := rfl
@[simp] theorem State.setCmd_fresh : (s.setCmd f).fresh = s.fresh := rfl
@[simp] theorem State.setCmd_out : (s.setCmd f).out = s.out := rfl
@[simp] theorem State.setCmd_pending : (s.setCmd f).pending = s.pending := rfl
@[simp] theorem State.setCmd_time : (s.setCmd f).time = s.time := rfl
@[simp] theorem State.setCmd_refs : (s.setCmd f).refs = s.refs := rfl
@[simp] theorem State.setCmd_servo : (s.setCmd f).servo = s.servo := rfl
@[simp] theorem State.setCmd_flash : (s.setCmd f).flash = s.flash := rfl
@[simp] theorem State.setCmd_links : (s.setCmd f).links = s.links := rfl
@[simp] theorem State.setCmd_grants : (s.setCmd f).grants = s.grants := rfl
@[simp] theorem State.setCmd_ptpSeq : (s.setCmd f).ptpSeq = s.ptpSeq := rfl
@[simp] theorem State.setCmd_tcal : (s.setCmd f).tcal = s.tcal := rfl
@[simp] theorem State.setCmd_linkRun : (s.setCmd f).linkRun = s.linkRun := rfl
@[simp] theorem State.setCmd_fabric : (s.setCmd f).fabric = s.fabric := rfl
@[simp] theorem State.setCmd_quay : (s.setCmd f).quay = s.quay := rfl
@[simp] theorem State.setCmd_lock : (s.setCmd f).lock = s.lock := rfl
@[simp] theorem State.setCmd_tables : (s.setCmd f).tables = s.tables := rfl
@[simp] theorem State.setCmd_log : (s.setCmd f).log = s.log := rfl
@[simp] theorem State.setCmd_pad : (s.setCmd f).pad = s.pad := rfl
@[simp] theorem State.setCmd_optics : (s.setCmd f).optics = s.optics := rfl
@[simp] theorem State.setCmd_tagRegs : (s.setCmd f).tagRegs = s.tagRegs := rfl
@[simp] theorem State.setCmd_windowAt : (s.setCmd f).windowAt = s.windowAt := rfl
@[simp] theorem State.setCmd_cal : (s.setCmd f).cal = s.cal := rfl
@[simp] theorem State.setCmd_evtInputs : (s.setCmd f).evtInputs = s.evtInputs := rfl
@[simp] theorem State.setCmd_evtAccs : (s.setCmd f).evtAccs = s.evtAccs := rfl
@[simp] theorem State.setCmd_nhp : (s.setCmd f).nhp = s.nhp := rfl
@[simp] theorem State.setCmd_gnss : (s.setCmd f).gnss = s.gnss := rfl
@[simp] theorem State.setCmd_obsJob : (s.setCmd f).obsJob = s.obsJob := rfl
@[simp] theorem State.setCmd_rings : (s.setCmd f).rings = s.rings := rfl
@[simp] theorem State.setCmd_txSlots : (s.setCmd f).txSlots = s.txSlots := rfl
@[simp] theorem State.setCmd_nextSlot : (s.setCmd f).nextSlot = s.nextSlot := rfl
@[simp] theorem State.setCmd_raised : (s.setCmd f).raised = s.raised := rfl
@[simp] theorem State.setCmd_power : (s.setCmd f).power = s.power := rfl
@[simp] theorem State.setCmd_fault : (s.setCmd f).fault = s.fault := rfl
@[simp] theorem State.setCmd_rd (c j : Nat) : (s.setCmd f).rd c j = s.rd c j := rfl
end

section
variable (s : State) (f : Power → Power)
@[simp] theorem State.setPower_power : (s.setPower f).power = f s.power := rfl
@[simp] theorem State.setPower_regs : (s.setPower f).regs = s.regs := rfl
@[simp] theorem State.setPower_shadows : (s.setPower f).shadows = s.shadows := rfl
@[simp] theorem State.setPower_hidden : (s.setPower f).hidden = s.hidden := rfl
@[simp] theorem State.setPower_clock : (s.setPower f).clock = s.clock := rfl
@[simp] theorem State.setPower_phase : (s.setPower f).phase = s.phase := rfl
@[simp] theorem State.setPower_released : (s.setPower f).released = s.released := rfl
@[simp] theorem State.setPower_fresh : (s.setPower f).fresh = s.fresh := rfl
@[simp] theorem State.setPower_out : (s.setPower f).out = s.out := rfl
@[simp] theorem State.setPower_pending : (s.setPower f).pending = s.pending := rfl
@[simp] theorem State.setPower_cmd : (s.setPower f).cmd = s.cmd := rfl
@[simp] theorem State.setPower_time : (s.setPower f).time = s.time := rfl
@[simp] theorem State.setPower_refs : (s.setPower f).refs = s.refs := rfl
@[simp] theorem State.setPower_servo : (s.setPower f).servo = s.servo := rfl
@[simp] theorem State.setPower_flash : (s.setPower f).flash = s.flash := rfl
@[simp] theorem State.setPower_links : (s.setPower f).links = s.links := rfl
@[simp] theorem State.setPower_grants : (s.setPower f).grants = s.grants := rfl
@[simp] theorem State.setPower_ptpSeq : (s.setPower f).ptpSeq = s.ptpSeq := rfl
@[simp] theorem State.setPower_tcal : (s.setPower f).tcal = s.tcal := rfl
@[simp] theorem State.setPower_linkRun : (s.setPower f).linkRun = s.linkRun := rfl
@[simp] theorem State.setPower_fabric : (s.setPower f).fabric = s.fabric := rfl
@[simp] theorem State.setPower_quay : (s.setPower f).quay = s.quay := rfl
@[simp] theorem State.setPower_lock : (s.setPower f).lock = s.lock := rfl
@[simp] theorem State.setPower_tables : (s.setPower f).tables = s.tables := rfl
@[simp] theorem State.setPower_log : (s.setPower f).log = s.log := rfl
@[simp] theorem State.setPower_pad : (s.setPower f).pad = s.pad := rfl
@[simp] theorem State.setPower_optics : (s.setPower f).optics = s.optics := rfl
@[simp] theorem State.setPower_tagRegs : (s.setPower f).tagRegs = s.tagRegs := rfl
@[simp] theorem State.setPower_windowAt : (s.setPower f).windowAt = s.windowAt := rfl
@[simp] theorem State.setPower_cal : (s.setPower f).cal = s.cal := rfl
@[simp] theorem State.setPower_evtInputs : (s.setPower f).evtInputs = s.evtInputs := rfl
@[simp] theorem State.setPower_evtAccs : (s.setPower f).evtAccs = s.evtAccs := rfl
@[simp] theorem State.setPower_nhp : (s.setPower f).nhp = s.nhp := rfl
@[simp] theorem State.setPower_gnss : (s.setPower f).gnss = s.gnss := rfl
@[simp] theorem State.setPower_obsJob : (s.setPower f).obsJob = s.obsJob := rfl
@[simp] theorem State.setPower_rings : (s.setPower f).rings = s.rings := rfl
@[simp] theorem State.setPower_txSlots : (s.setPower f).txSlots = s.txSlots := rfl
@[simp] theorem State.setPower_nextSlot : (s.setPower f).nextSlot = s.nextSlot := rfl
@[simp] theorem State.setPower_raised : (s.setPower f).raised = s.raised := rfl
@[simp] theorem State.setPower_fault : (s.setPower f).fault = s.fault := rfl
@[simp] theorem State.setPower_rd (c j : Nat) : (s.setPower f).rd c j = s.rd c j := rfl
end

section
variable (s : State) (g : Nat) (f : Ring → Ring)
@[simp] theorem State.setRing_rings : (s.setRing g f).rings = updBy Ring.g g f s.rings := rfl
@[simp] theorem State.setRing_regs : (s.setRing g f).regs = s.regs := rfl
@[simp] theorem State.setRing_shadows : (s.setRing g f).shadows = s.shadows := rfl
@[simp] theorem State.setRing_hidden : (s.setRing g f).hidden = s.hidden := rfl
@[simp] theorem State.setRing_clock : (s.setRing g f).clock = s.clock := rfl
@[simp] theorem State.setRing_phase : (s.setRing g f).phase = s.phase := rfl
@[simp] theorem State.setRing_released : (s.setRing g f).released = s.released := rfl
@[simp] theorem State.setRing_fresh : (s.setRing g f).fresh = s.fresh := rfl
@[simp] theorem State.setRing_out : (s.setRing g f).out = s.out := rfl
@[simp] theorem State.setRing_pending : (s.setRing g f).pending = s.pending := rfl
@[simp] theorem State.setRing_cmd : (s.setRing g f).cmd = s.cmd := rfl
@[simp] theorem State.setRing_time : (s.setRing g f).time = s.time := rfl
@[simp] theorem State.setRing_refs : (s.setRing g f).refs = s.refs := rfl
@[simp] theorem State.setRing_servo : (s.setRing g f).servo = s.servo := rfl
@[simp] theorem State.setRing_flash : (s.setRing g f).flash = s.flash := rfl
@[simp] theorem State.setRing_links : (s.setRing g f).links = s.links := rfl
@[simp] theorem State.setRing_grants : (s.setRing g f).grants = s.grants := rfl
@[simp] theorem State.setRing_ptpSeq : (s.setRing g f).ptpSeq = s.ptpSeq := rfl
@[simp] theorem State.setRing_tcal : (s.setRing g f).tcal = s.tcal := rfl
@[simp] theorem State.setRing_linkRun : (s.setRing g f).linkRun = s.linkRun := rfl
@[simp] theorem State.setRing_fabric : (s.setRing g f).fabric = s.fabric := rfl
@[simp] theorem State.setRing_quay : (s.setRing g f).quay = s.quay := rfl
@[simp] theorem State.setRing_lock : (s.setRing g f).lock = s.lock := rfl
@[simp] theorem State.setRing_tables : (s.setRing g f).tables = s.tables := rfl
@[simp] theorem State.setRing_log : (s.setRing g f).log = s.log := rfl
@[simp] theorem State.setRing_pad : (s.setRing g f).pad = s.pad := rfl
@[simp] theorem State.setRing_optics : (s.setRing g f).optics = s.optics := rfl
@[simp] theorem State.setRing_tagRegs : (s.setRing g f).tagRegs = s.tagRegs := rfl
@[simp] theorem State.setRing_windowAt : (s.setRing g f).windowAt = s.windowAt := rfl
@[simp] theorem State.setRing_cal : (s.setRing g f).cal = s.cal := rfl
@[simp] theorem State.setRing_evtInputs : (s.setRing g f).evtInputs = s.evtInputs := rfl
@[simp] theorem State.setRing_evtAccs : (s.setRing g f).evtAccs = s.evtAccs := rfl
@[simp] theorem State.setRing_nhp : (s.setRing g f).nhp = s.nhp := rfl
@[simp] theorem State.setRing_gnss : (s.setRing g f).gnss = s.gnss := rfl
@[simp] theorem State.setRing_obsJob : (s.setRing g f).obsJob = s.obsJob := rfl
@[simp] theorem State.setRing_txSlots : (s.setRing g f).txSlots = s.txSlots := rfl
@[simp] theorem State.setRing_nextSlot : (s.setRing g f).nextSlot = s.nextSlot := rfl
@[simp] theorem State.setRing_raised : (s.setRing g f).raised = s.raised := rfl
@[simp] theorem State.setRing_power : (s.setRing g f).power = s.power := rfl
@[simp] theorem State.setRing_fault : (s.setRing g f).fault = s.fault := rfl
@[simp] theorem State.setRing_rd (c j : Nat) : (s.setRing g f).rd c j = s.rd c j := rfl
end

section
variable (s : State) (f : Quay → Quay)
@[simp] theorem State.setQuay_quay : (s.setQuay f).quay = f s.quay := rfl
@[simp] theorem State.setQuay_regs : (s.setQuay f).regs = s.regs := rfl
@[simp] theorem State.setQuay_shadows : (s.setQuay f).shadows = s.shadows := rfl
@[simp] theorem State.setQuay_hidden : (s.setQuay f).hidden = s.hidden := rfl
@[simp] theorem State.setQuay_clock : (s.setQuay f).clock = s.clock := rfl
@[simp] theorem State.setQuay_phase : (s.setQuay f).phase = s.phase := rfl
@[simp] theorem State.setQuay_released : (s.setQuay f).released = s.released := rfl
@[simp] theorem State.setQuay_fresh : (s.setQuay f).fresh = s.fresh := rfl
@[simp] theorem State.setQuay_out : (s.setQuay f).out = s.out := rfl
@[simp] theorem State.setQuay_pending : (s.setQuay f).pending = s.pending := rfl
@[simp] theorem State.setQuay_cmd : (s.setQuay f).cmd = s.cmd := rfl
@[simp] theorem State.setQuay_time : (s.setQuay f).time = s.time := rfl
@[simp] theorem State.setQuay_refs : (s.setQuay f).refs = s.refs := rfl
@[simp] theorem State.setQuay_servo : (s.setQuay f).servo = s.servo := rfl
@[simp] theorem State.setQuay_flash : (s.setQuay f).flash = s.flash := rfl
@[simp] theorem State.setQuay_links : (s.setQuay f).links = s.links := rfl
@[simp] theorem State.setQuay_grants : (s.setQuay f).grants = s.grants := rfl
@[simp] theorem State.setQuay_ptpSeq : (s.setQuay f).ptpSeq = s.ptpSeq := rfl
@[simp] theorem State.setQuay_tcal : (s.setQuay f).tcal = s.tcal := rfl
@[simp] theorem State.setQuay_linkRun : (s.setQuay f).linkRun = s.linkRun := rfl
@[simp] theorem State.setQuay_fabric : (s.setQuay f).fabric = s.fabric := rfl
@[simp] theorem State.setQuay_lock : (s.setQuay f).lock = s.lock := rfl
@[simp] theorem State.setQuay_tables : (s.setQuay f).tables = s.tables := rfl
@[simp] theorem State.setQuay_log : (s.setQuay f).log = s.log := rfl
@[simp] theorem State.setQuay_pad : (s.setQuay f).pad = s.pad := rfl
@[simp] theorem State.setQuay_optics : (s.setQuay f).optics = s.optics := rfl
@[simp] theorem State.setQuay_tagRegs : (s.setQuay f).tagRegs = s.tagRegs := rfl
@[simp] theorem State.setQuay_windowAt : (s.setQuay f).windowAt = s.windowAt := rfl
@[simp] theorem State.setQuay_cal : (s.setQuay f).cal = s.cal := rfl
@[simp] theorem State.setQuay_evtInputs : (s.setQuay f).evtInputs = s.evtInputs := rfl
@[simp] theorem State.setQuay_evtAccs : (s.setQuay f).evtAccs = s.evtAccs := rfl
@[simp] theorem State.setQuay_nhp : (s.setQuay f).nhp = s.nhp := rfl
@[simp] theorem State.setQuay_gnss : (s.setQuay f).gnss = s.gnss := rfl
@[simp] theorem State.setQuay_obsJob : (s.setQuay f).obsJob = s.obsJob := rfl
@[simp] theorem State.setQuay_rings : (s.setQuay f).rings = s.rings := rfl
@[simp] theorem State.setQuay_txSlots : (s.setQuay f).txSlots = s.txSlots := rfl
@[simp] theorem State.setQuay_nextSlot : (s.setQuay f).nextSlot = s.nextSlot := rfl
@[simp] theorem State.setQuay_raised : (s.setQuay f).raised = s.raised := rfl
@[simp] theorem State.setQuay_power : (s.setQuay f).power = s.power := rfl
@[simp] theorem State.setQuay_fault : (s.setQuay f).fault = s.fault := rfl
@[simp] theorem State.setQuay_rd (c j : Nat) : (s.setQuay f).rd c j = s.rd c j := rfl
end

section
variable (s : State) (f : Scratchpad → Scratchpad)
@[simp] theorem State.setPad_pad : (s.setPad f).pad = f s.pad := rfl
@[simp] theorem State.setPad_regs : (s.setPad f).regs = s.regs := rfl
@[simp] theorem State.setPad_shadows : (s.setPad f).shadows = s.shadows := rfl
@[simp] theorem State.setPad_hidden : (s.setPad f).hidden = s.hidden := rfl
@[simp] theorem State.setPad_clock : (s.setPad f).clock = s.clock := rfl
@[simp] theorem State.setPad_phase : (s.setPad f).phase = s.phase := rfl
@[simp] theorem State.setPad_released : (s.setPad f).released = s.released := rfl
@[simp] theorem State.setPad_fresh : (s.setPad f).fresh = s.fresh := rfl
@[simp] theorem State.setPad_out : (s.setPad f).out = s.out := rfl
@[simp] theorem State.setPad_pending : (s.setPad f).pending = s.pending := rfl
@[simp] theorem State.setPad_cmd : (s.setPad f).cmd = s.cmd := rfl
@[simp] theorem State.setPad_time : (s.setPad f).time = s.time := rfl
@[simp] theorem State.setPad_refs : (s.setPad f).refs = s.refs := rfl
@[simp] theorem State.setPad_servo : (s.setPad f).servo = s.servo := rfl
@[simp] theorem State.setPad_flash : (s.setPad f).flash = s.flash := rfl
@[simp] theorem State.setPad_links : (s.setPad f).links = s.links := rfl
@[simp] theorem State.setPad_grants : (s.setPad f).grants = s.grants := rfl
@[simp] theorem State.setPad_ptpSeq : (s.setPad f).ptpSeq = s.ptpSeq := rfl
@[simp] theorem State.setPad_tcal : (s.setPad f).tcal = s.tcal := rfl
@[simp] theorem State.setPad_linkRun : (s.setPad f).linkRun = s.linkRun := rfl
@[simp] theorem State.setPad_fabric : (s.setPad f).fabric = s.fabric := rfl
@[simp] theorem State.setPad_quay : (s.setPad f).quay = s.quay := rfl
@[simp] theorem State.setPad_lock : (s.setPad f).lock = s.lock := rfl
@[simp] theorem State.setPad_tables : (s.setPad f).tables = s.tables := rfl
@[simp] theorem State.setPad_log : (s.setPad f).log = s.log := rfl
@[simp] theorem State.setPad_optics : (s.setPad f).optics = s.optics := rfl
@[simp] theorem State.setPad_tagRegs : (s.setPad f).tagRegs = s.tagRegs := rfl
@[simp] theorem State.setPad_windowAt : (s.setPad f).windowAt = s.windowAt := rfl
@[simp] theorem State.setPad_cal : (s.setPad f).cal = s.cal := rfl
@[simp] theorem State.setPad_evtInputs : (s.setPad f).evtInputs = s.evtInputs := rfl
@[simp] theorem State.setPad_evtAccs : (s.setPad f).evtAccs = s.evtAccs := rfl
@[simp] theorem State.setPad_nhp : (s.setPad f).nhp = s.nhp := rfl
@[simp] theorem State.setPad_gnss : (s.setPad f).gnss = s.gnss := rfl
@[simp] theorem State.setPad_obsJob : (s.setPad f).obsJob = s.obsJob := rfl
@[simp] theorem State.setPad_rings : (s.setPad f).rings = s.rings := rfl
@[simp] theorem State.setPad_txSlots : (s.setPad f).txSlots = s.txSlots := rfl
@[simp] theorem State.setPad_nextSlot : (s.setPad f).nextSlot = s.nextSlot := rfl
@[simp] theorem State.setPad_raised : (s.setPad f).raised = s.raised := rfl
@[simp] theorem State.setPad_power : (s.setPad f).power = s.power := rfl
@[simp] theorem State.setPad_fault : (s.setPad f).fault = s.fault := rfl
@[simp] theorem State.setPad_rd (c j : Nat) : (s.setPad f).rd c j = s.rd c j := rfl
end

section
variable (s : State) (f : Tables → Tables)
@[simp] theorem State.setTables_tables : (s.setTables f).tables = f s.tables := rfl
@[simp] theorem State.setTables_regs : (s.setTables f).regs = s.regs := rfl
@[simp] theorem State.setTables_shadows : (s.setTables f).shadows = s.shadows := rfl
@[simp] theorem State.setTables_hidden : (s.setTables f).hidden = s.hidden := rfl
@[simp] theorem State.setTables_clock : (s.setTables f).clock = s.clock := rfl
@[simp] theorem State.setTables_phase : (s.setTables f).phase = s.phase := rfl
@[simp] theorem State.setTables_released : (s.setTables f).released = s.released := rfl
@[simp] theorem State.setTables_fresh : (s.setTables f).fresh = s.fresh := rfl
@[simp] theorem State.setTables_out : (s.setTables f).out = s.out := rfl
@[simp] theorem State.setTables_pending : (s.setTables f).pending = s.pending := rfl
@[simp] theorem State.setTables_cmd : (s.setTables f).cmd = s.cmd := rfl
@[simp] theorem State.setTables_time : (s.setTables f).time = s.time := rfl
@[simp] theorem State.setTables_refs : (s.setTables f).refs = s.refs := rfl
@[simp] theorem State.setTables_servo : (s.setTables f).servo = s.servo := rfl
@[simp] theorem State.setTables_flash : (s.setTables f).flash = s.flash := rfl
@[simp] theorem State.setTables_links : (s.setTables f).links = s.links := rfl
@[simp] theorem State.setTables_grants : (s.setTables f).grants = s.grants := rfl
@[simp] theorem State.setTables_ptpSeq : (s.setTables f).ptpSeq = s.ptpSeq := rfl
@[simp] theorem State.setTables_tcal : (s.setTables f).tcal = s.tcal := rfl
@[simp] theorem State.setTables_linkRun : (s.setTables f).linkRun = s.linkRun := rfl
@[simp] theorem State.setTables_fabric : (s.setTables f).fabric = s.fabric := rfl
@[simp] theorem State.setTables_quay : (s.setTables f).quay = s.quay := rfl
@[simp] theorem State.setTables_lock : (s.setTables f).lock = s.lock := rfl
@[simp] theorem State.setTables_log : (s.setTables f).log = s.log := rfl
@[simp] theorem State.setTables_pad : (s.setTables f).pad = s.pad := rfl
@[simp] theorem State.setTables_optics : (s.setTables f).optics = s.optics := rfl
@[simp] theorem State.setTables_tagRegs : (s.setTables f).tagRegs = s.tagRegs := rfl
@[simp] theorem State.setTables_windowAt : (s.setTables f).windowAt = s.windowAt := rfl
@[simp] theorem State.setTables_cal : (s.setTables f).cal = s.cal := rfl
@[simp] theorem State.setTables_evtInputs : (s.setTables f).evtInputs = s.evtInputs := rfl
@[simp] theorem State.setTables_evtAccs : (s.setTables f).evtAccs = s.evtAccs := rfl
@[simp] theorem State.setTables_nhp : (s.setTables f).nhp = s.nhp := rfl
@[simp] theorem State.setTables_gnss : (s.setTables f).gnss = s.gnss := rfl
@[simp] theorem State.setTables_obsJob : (s.setTables f).obsJob = s.obsJob := rfl
@[simp] theorem State.setTables_rings : (s.setTables f).rings = s.rings := rfl
@[simp] theorem State.setTables_txSlots : (s.setTables f).txSlots = s.txSlots := rfl
@[simp] theorem State.setTables_nextSlot : (s.setTables f).nextSlot = s.nextSlot := rfl
@[simp] theorem State.setTables_raised : (s.setTables f).raised = s.raised := rfl
@[simp] theorem State.setTables_power : (s.setTables f).power = s.power := rfl
@[simp] theorem State.setTables_fault : (s.setTables f).fault = s.fault := rfl
@[simp] theorem State.setTables_rd (c j : Nat) : (s.setTables f).rd c j = s.rd c j := rfl
end

section
variable (s : State) (f : Fabric → Fabric)
@[simp] theorem State.setFab_fabric : (s.setFab f).fabric = f s.fabric := rfl
@[simp] theorem State.setFab_regs : (s.setFab f).regs = s.regs := rfl
@[simp] theorem State.setFab_shadows : (s.setFab f).shadows = s.shadows := rfl
@[simp] theorem State.setFab_hidden : (s.setFab f).hidden = s.hidden := rfl
@[simp] theorem State.setFab_clock : (s.setFab f).clock = s.clock := rfl
@[simp] theorem State.setFab_phase : (s.setFab f).phase = s.phase := rfl
@[simp] theorem State.setFab_released : (s.setFab f).released = s.released := rfl
@[simp] theorem State.setFab_fresh : (s.setFab f).fresh = s.fresh := rfl
@[simp] theorem State.setFab_out : (s.setFab f).out = s.out := rfl
@[simp] theorem State.setFab_pending : (s.setFab f).pending = s.pending := rfl
@[simp] theorem State.setFab_cmd : (s.setFab f).cmd = s.cmd := rfl
@[simp] theorem State.setFab_time : (s.setFab f).time = s.time := rfl
@[simp] theorem State.setFab_refs : (s.setFab f).refs = s.refs := rfl
@[simp] theorem State.setFab_servo : (s.setFab f).servo = s.servo := rfl
@[simp] theorem State.setFab_flash : (s.setFab f).flash = s.flash := rfl
@[simp] theorem State.setFab_links : (s.setFab f).links = s.links := rfl
@[simp] theorem State.setFab_grants : (s.setFab f).grants = s.grants := rfl
@[simp] theorem State.setFab_ptpSeq : (s.setFab f).ptpSeq = s.ptpSeq := rfl
@[simp] theorem State.setFab_tcal : (s.setFab f).tcal = s.tcal := rfl
@[simp] theorem State.setFab_linkRun : (s.setFab f).linkRun = s.linkRun := rfl
@[simp] theorem State.setFab_quay : (s.setFab f).quay = s.quay := rfl
@[simp] theorem State.setFab_lock : (s.setFab f).lock = s.lock := rfl
@[simp] theorem State.setFab_tables : (s.setFab f).tables = s.tables := rfl
@[simp] theorem State.setFab_log : (s.setFab f).log = s.log := rfl
@[simp] theorem State.setFab_pad : (s.setFab f).pad = s.pad := rfl
@[simp] theorem State.setFab_optics : (s.setFab f).optics = s.optics := rfl
@[simp] theorem State.setFab_tagRegs : (s.setFab f).tagRegs = s.tagRegs := rfl
@[simp] theorem State.setFab_windowAt : (s.setFab f).windowAt = s.windowAt := rfl
@[simp] theorem State.setFab_cal : (s.setFab f).cal = s.cal := rfl
@[simp] theorem State.setFab_evtInputs : (s.setFab f).evtInputs = s.evtInputs := rfl
@[simp] theorem State.setFab_evtAccs : (s.setFab f).evtAccs = s.evtAccs := rfl
@[simp] theorem State.setFab_nhp : (s.setFab f).nhp = s.nhp := rfl
@[simp] theorem State.setFab_gnss : (s.setFab f).gnss = s.gnss := rfl
@[simp] theorem State.setFab_obsJob : (s.setFab f).obsJob = s.obsJob := rfl
@[simp] theorem State.setFab_rings : (s.setFab f).rings = s.rings := rfl
@[simp] theorem State.setFab_txSlots : (s.setFab f).txSlots = s.txSlots := rfl
@[simp] theorem State.setFab_nextSlot : (s.setFab f).nextSlot = s.nextSlot := rfl
@[simp] theorem State.setFab_raised : (s.setFab f).raised = s.raised := rfl
@[simp] theorem State.setFab_power : (s.setFab f).power = s.power := rfl
@[simp] theorem State.setFab_fault : (s.setFab f).fault = s.fault := rfl
@[simp] theorem State.setFab_rd (c j : Nat) : (s.setFab f).rd c j = s.rd c j := rfl
end

section
variable (s : State) (f : Calibration → Calibration)
@[simp] theorem State.setCal_cal : (s.setCal f).cal = f s.cal := rfl
@[simp] theorem State.setCal_regs : (s.setCal f).regs = s.regs := rfl
@[simp] theorem State.setCal_shadows : (s.setCal f).shadows = s.shadows := rfl
@[simp] theorem State.setCal_hidden : (s.setCal f).hidden = s.hidden := rfl
@[simp] theorem State.setCal_clock : (s.setCal f).clock = s.clock := rfl
@[simp] theorem State.setCal_phase : (s.setCal f).phase = s.phase := rfl
@[simp] theorem State.setCal_released : (s.setCal f).released = s.released := rfl
@[simp] theorem State.setCal_fresh : (s.setCal f).fresh = s.fresh := rfl
@[simp] theorem State.setCal_out : (s.setCal f).out = s.out := rfl
@[simp] theorem State.setCal_pending : (s.setCal f).pending = s.pending := rfl
@[simp] theorem State.setCal_cmd : (s.setCal f).cmd = s.cmd := rfl
@[simp] theorem State.setCal_time : (s.setCal f).time = s.time := rfl
@[simp] theorem State.setCal_refs : (s.setCal f).refs = s.refs := rfl
@[simp] theorem State.setCal_servo : (s.setCal f).servo = s.servo := rfl
@[simp] theorem State.setCal_flash : (s.setCal f).flash = s.flash := rfl
@[simp] theorem State.setCal_links : (s.setCal f).links = s.links := rfl
@[simp] theorem State.setCal_grants : (s.setCal f).grants = s.grants := rfl
@[simp] theorem State.setCal_ptpSeq : (s.setCal f).ptpSeq = s.ptpSeq := rfl
@[simp] theorem State.setCal_tcal : (s.setCal f).tcal = s.tcal := rfl
@[simp] theorem State.setCal_linkRun : (s.setCal f).linkRun = s.linkRun := rfl
@[simp] theorem State.setCal_fabric : (s.setCal f).fabric = s.fabric := rfl
@[simp] theorem State.setCal_quay : (s.setCal f).quay = s.quay := rfl
@[simp] theorem State.setCal_lock : (s.setCal f).lock = s.lock := rfl
@[simp] theorem State.setCal_tables : (s.setCal f).tables = s.tables := rfl
@[simp] theorem State.setCal_log : (s.setCal f).log = s.log := rfl
@[simp] theorem State.setCal_pad : (s.setCal f).pad = s.pad := rfl
@[simp] theorem State.setCal_optics : (s.setCal f).optics = s.optics := rfl
@[simp] theorem State.setCal_tagRegs : (s.setCal f).tagRegs = s.tagRegs := rfl
@[simp] theorem State.setCal_windowAt : (s.setCal f).windowAt = s.windowAt := rfl
@[simp] theorem State.setCal_evtInputs : (s.setCal f).evtInputs = s.evtInputs := rfl
@[simp] theorem State.setCal_evtAccs : (s.setCal f).evtAccs = s.evtAccs := rfl
@[simp] theorem State.setCal_nhp : (s.setCal f).nhp = s.nhp := rfl
@[simp] theorem State.setCal_gnss : (s.setCal f).gnss = s.gnss := rfl
@[simp] theorem State.setCal_obsJob : (s.setCal f).obsJob = s.obsJob := rfl
@[simp] theorem State.setCal_rings : (s.setCal f).rings = s.rings := rfl
@[simp] theorem State.setCal_txSlots : (s.setCal f).txSlots = s.txSlots := rfl
@[simp] theorem State.setCal_nextSlot : (s.setCal f).nextSlot = s.nextSlot := rfl
@[simp] theorem State.setCal_raised : (s.setCal f).raised = s.raised := rfl
@[simp] theorem State.setCal_power : (s.setCal f).power = s.power := rfl
@[simp] theorem State.setCal_fault : (s.setCal f).fault = s.fault := rfl
@[simp] theorem State.setCal_rd (c j : Nat) : (s.setCal f).rd c j = s.rd c j := rfl
end

section
variable (s : State) (c : Nat) (f : Core → Core)
@[simp] theorem State.setCore_regs : (s.setCore c f).regs = s.regs := by unfold State.setCore; split <;> rfl
@[simp] theorem State.setCore_shadows : (s.setCore c f).shadows = s.shadows := by unfold State.setCore; split <;> rfl
@[simp] theorem State.setCore_hidden : (s.setCore c f).hidden = s.hidden := by unfold State.setCore; split <;> rfl
@[simp] theorem State.setCore_clock : (s.setCore c f).clock = s.clock := by unfold State.setCore; split <;> rfl
@[simp] theorem State.setCore_phase : (s.setCore c f).phase = s.phase := by unfold State.setCore; split <;> rfl
@[simp] theorem State.setCore_released : (s.setCore c f).released = s.released := by unfold State.setCore; split <;> rfl
@[simp] theorem State.setCore_fresh : (s.setCore c f).fresh = s.fresh := by unfold State.setCore; split <;> rfl
@[simp] theorem State.setCore_out : (s.setCore c f).out = s.out := by unfold State.setCore; split <;> rfl
@[simp] theorem State.setCore_pending : (s.setCore c f).pending = s.pending := by unfold State.setCore; split <;> rfl
@[simp] theorem State.setCore_cmd : (s.setCore c f).cmd = s.cmd := by unfold State.setCore; split <;> rfl
@[simp] theorem State.setCore_refs : (s.setCore c f).refs = s.refs := by unfold State.setCore; split <;> rfl
@[simp] theorem State.setCore_servo : (s.setCore c f).servo = s.servo := by unfold State.setCore; split <;> rfl
@[simp] theorem State.setCore_flash : (s.setCore c f).flash = s.flash := by unfold State.setCore; split <;> rfl
@[simp] theorem State.setCore_links : (s.setCore c f).links = s.links := by unfold State.setCore; split <;> rfl
@[simp] theorem State.setCore_grants : (s.setCore c f).grants = s.grants := by unfold State.setCore; split <;> rfl
@[simp] theorem State.setCore_ptpSeq : (s.setCore c f).ptpSeq = s.ptpSeq := by unfold State.setCore; split <;> rfl
@[simp] theorem State.setCore_tcal : (s.setCore c f).tcal = s.tcal := by unfold State.setCore; split <;> rfl
@[simp] theorem State.setCore_linkRun : (s.setCore c f).linkRun = s.linkRun := by unfold State.setCore; split <;> rfl
@[simp] theorem State.setCore_fabric : (s.setCore c f).fabric = s.fabric := by unfold State.setCore; split <;> rfl
@[simp] theorem State.setCore_quay : (s.setCore c f).quay = s.quay := by unfold State.setCore; split <;> rfl
@[simp] theorem State.setCore_lock : (s.setCore c f).lock = s.lock := by unfold State.setCore; split <;> rfl
@[simp] theorem State.setCore_tables : (s.setCore c f).tables = s.tables := by unfold State.setCore; split <;> rfl
@[simp] theorem State.setCore_log : (s.setCore c f).log = s.log := by unfold State.setCore; split <;> rfl
@[simp] theorem State.setCore_pad : (s.setCore c f).pad = s.pad := by unfold State.setCore; split <;> rfl
@[simp] theorem State.setCore_optics : (s.setCore c f).optics = s.optics := by unfold State.setCore; split <;> rfl
@[simp] theorem State.setCore_tagRegs : (s.setCore c f).tagRegs = s.tagRegs := by unfold State.setCore; split <;> rfl
@[simp] theorem State.setCore_windowAt : (s.setCore c f).windowAt = s.windowAt := by unfold State.setCore; split <;> rfl
@[simp] theorem State.setCore_cal : (s.setCore c f).cal = s.cal := by unfold State.setCore; split <;> rfl
@[simp] theorem State.setCore_evtInputs : (s.setCore c f).evtInputs = s.evtInputs := by unfold State.setCore; split <;> rfl
@[simp] theorem State.setCore_evtAccs : (s.setCore c f).evtAccs = s.evtAccs := by unfold State.setCore; split <;> rfl
@[simp] theorem State.setCore_nhp : (s.setCore c f).nhp = s.nhp := by unfold State.setCore; split <;> rfl
@[simp] theorem State.setCore_gnss : (s.setCore c f).gnss = s.gnss := by unfold State.setCore; split <;> rfl
@[simp] theorem State.setCore_obsJob : (s.setCore c f).obsJob = s.obsJob := by unfold State.setCore; split <;> rfl
@[simp] theorem State.setCore_rings : (s.setCore c f).rings = s.rings := by unfold State.setCore; split <;> rfl
@[simp] theorem State.setCore_txSlots : (s.setCore c f).txSlots = s.txSlots := by unfold State.setCore; split <;> rfl
@[simp] theorem State.setCore_nextSlot : (s.setCore c f).nextSlot = s.nextSlot := by unfold State.setCore; split <;> rfl
@[simp] theorem State.setCore_raised : (s.setCore c f).raised = s.raised := by unfold State.setCore; split <;> rfl
@[simp] theorem State.setCore_power : (s.setCore c f).power = s.power := by unfold State.setCore; split <;> rfl
@[simp] theorem State.setCore_fault : (s.setCore c f).fault = s.fault := by unfold State.setCore; split <;> rfl
@[simp] theorem State.setCore_rd (b j : Nat) : (s.setCore c f).rd b j = s.rd b j := by unfold State.setCore; split <;> rfl
@[simp] theorem State.setCore_out_count : (s.setCore c f).time.out = s.time.out := by unfold State.setCore; split <;> rfl
end

end Sys2Proof.Machine
end

