-- ==== Sys2Proof/Laws/Ops.lean ====
section
/-! SUPPORT. Laws of the registers and of the scratchpad: read after write, and what a write leaves alone. -/

namespace Sys2Proof.Machine

/-! ## Registers -/

/-- What a register reads as after a write of any register. -/
theorem State.rd_wr (s : State) (b i v c j : Nat) : (s.wr b i v).rd c j = if c = b ∧ j = i then v else s.rd c j := by
  unfold State.rd State.wr
  split
  · rename_i h; obtain ⟨rfl, rfl⟩ := h; exact look_store_self ..
  · rename_i h
    exact look_store_other ltPair (fun e => h (by simpa [Prod.ext_iff] using e)) ..

@[simp] theorem State.rd_wr_self (s : State) (b i v : Nat) : (s.wr b i v).rd b i = v := by simp [State.rd_wr]

/-- A write leaves every other parameter as it was. -/
theorem State.rd_wr_base (s : State) {b c : Nat} (h : c ≠ b) (i v j : Nat) : (s.wr b i v).rd c j = s.rd c j := by
  simp [State.rd_wr, h]

/-- A write leaves every other element as it was. -/
theorem State.rd_wr_elem (s : State) (b v : Nat) {i j : Nat} (h : j ≠ i) : (s.wr b i v).rd b j = s.rd b j := by
  simp [State.rd_wr, h]

/-- At reset every register reads its reset value. -/
@[simp] theorem State.rd_reset (b i : Nat) : State.reset.rd b i = resetOf b i := rfl

theorem State.wr_wf (s : State) (b i v : Nat) (h : Registers.wf s.regs = true) : Registers.wf (s.wr b i v).regs = true :=
  canonical_store ltPair_trans ltPair_total (fun k => resetOf k.1 k.2) (b, i) v h

/-- A shadow that has just been written reads as it was written. -/
theorem State.shadow_wrShadow (s : State) (b i v : Nat) : (s.wrShadow b i v).shadow b i = v := by
  unfold State.shadow State.wrShadow
  exact look_store_self ..

/-- A COMMIT parameter that the module itself changes shows the new value in its shadow too (R514). -/
theorem State.shadow_wrBoth (s : State) (b i v : Nat) :
    (s.wrBoth b i v).rd b i = v ∧ (s.wrBoth b i v).shadow b i = v := by
  refine ⟨State.rd_wr_self s b i v, ?_⟩
  unfold State.shadow State.wrBoth
  have h : State.rd { (s.wr b i v) with shadows := without (b, i) (s.wr b i v).shadows } b i = v := State.rd_wr_self s b i v
  simp only [h]
  exact look_without_self ..

@[simp] theorem State.rd_wrBoth (s : State) (b i v c j : Nat) :
    (s.wrBoth b i v).rd c j = if c = b ∧ j = i then v else s.rd c j := State.rd_wr s b i v c j

/-! ## Scratchpad -/

theorem look_padStore_below {a j : Nat} (h : j < a) (bs : List Byte) (m : List Host.Cell) :
    look j 0 (padStore a bs m) = look j 0 m := by
  induction bs generalizing a m with
  | nil => rfl
  | cons b bs ih =>
    rw [padStore, ih (by omega)]
    exact look_store_other ltNat (by omega) ..

/-- What a byte of the scratchpad reads as after a string is written. -/
theorem look_padStore (a : Nat) (bs : List Byte) (m : List Host.Cell) (j : Nat) :
    look j 0 (padStore a bs m) = if a ≤ j ∧ j < a + bs.length then bs.getD (j - a) 0 else look j 0 m := by
  induction bs generalizing a m with
  | nil => rw [if_neg (by simp)]; rfl
  | cons b bs ih =>
    rw [padStore, ih]
    by_cases hj : j = a
    · subst hj
      simp [look_store_self]
    · simp only [List.length_cons]
      by_cases h : a + 1 ≤ j ∧ j < a + 1 + bs.length
      · rw [if_pos h, if_pos (by omega)]
        obtain ⟨k, hk⟩ : ∃ k, j - a = k + 1 := ⟨j - a - 1, by omega⟩
        rw [hk, show j - (a + 1) = k by omega]
        simp
      · rw [if_neg h, if_neg (by omega)]
        exact look_store_other ltNat hj ..

theorem State.padByte_padWrite (s : State) (a : Nat) (bs : List Byte) (j : Nat) :
    (s.padWrite a bs).padByte j = if a ≤ j ∧ j < a + bs.length then bs.getD (j - a) 0 else s.padByte j :=
  look_padStore a bs s.pad.mem j

theorem padStore_wf (a : Nat) (bs : List Byte) {m : List Host.Cell} (h : Memory.wf m = true) :
    Memory.wf (padStore a bs m) = true := by
  induction bs generalizing a m with
  | nil => exact h
  | cons b bs ih => exact ih (a + 1) (canonical_store ltNat_trans ltNat_total (fun _ => 0) a b h)

theorem State.padWrite_wf (s : State) (a : Nat) (bs : List Byte) (h : Memory.wf s.pad.mem = true) :
    Memory.wf (s.padWrite a bs).pad.mem = true := padStore_wf a bs h

theorem rising_filter {κ α : Type} (lt : κ → κ → Bool) (p : κ × α → Bool) {m : List (κ × α)} (h : rising lt m = true) :
    rising lt (m.filter p) = true := by
  induction m with
  | nil => rfl
  | cons e m ih =>
    simp only [rising, Bool.and_eq_true, List.all_eq_true] at h
    by_cases he : p e = true
    · rw [List.filter_cons_of_pos he]
      simp only [rising, Bool.and_eq_true, List.all_eq_true]
      exact ⟨fun f hf => h.1 f (List.mem_of_mem_filter hf), ih h.2⟩
    · rw [List.filter_cons_of_neg he]
      exact ih h.2

/-- A part of a canonical list is canonical: a wipe of bank 31 keeps the form (R400). -/
theorem canonical_filter {κ α : Type} [DecidableEq α] (lt : κ → κ → Bool) (dflt : κ → α) (p : κ × α → Bool)
    {m : List (κ × α)} (h : canonical lt dflt m = true) : canonical lt dflt (m.filter p) = true := by
  simp only [canonical, Bool.and_eq_true, List.all_eq_true] at h ⊢
  exact ⟨rising_filter lt p h.1, fun e he => h.2 e (List.mem_of_mem_filter he)⟩

theorem Memory.wf_reset : Memory.wf State.reset.pad.mem = true := rfl

end Sys2Proof.Machine
end

