-- ==== Sys2Proof/Laws/Only.lean ====
section
/-! SUPPORT. Laws of frames: they compose, and what each update of the state changes. -/

namespace Sys2Proof.Machine

theorem Keeps.refl (s : State) : Keeps s s := ⟨rfl, rfl, List.prefix_refl _, id, id, id⟩

theorem Keeps.trans {s t u : State} (h : Keeps s t) (g : Keeps t u) : Keeps s u :=
  ⟨g.pending.trans h.pending, g.clock.trans h.clock, h.out.trans g.out, g.regs ∘ h.regs, g.mem ∘ h.mem, g.shadows ∘ h.shadows⟩

theorem Only.refl (W : Option (List Nat)) (s : State) : Only W s s := by
  constructor <;> intros <;> first | rfl | exact Keeps.refl s

theorem Only.trans {W : Option (List Nat)} {s t u : State} (h : Only W s t) (g : Only W t u) : Only W s u where
  keeps := h.keeps.trans g.keeps
  rd b i hl hb := (g.rd b i hl hb).trans (h.rd b i hl hb)
  shadows c := (g.shadows c).trans (h.shadows c)
  hidden c := (g.hidden c).trans (h.hidden c)
  phase c := (g.phase c).trans (h.phase c)
  released c := (g.released c).trans (h.released c)
  fresh c := (g.fresh c).trans (h.fresh c)
  cmd c := (g.cmd c).trans (h.cmd c)
  time c := (g.time c).trans (h.time c)
  refs c := (g.refs c).trans (h.refs c)
  servo c := (g.servo c).trans (h.servo c)
  flash c := (g.flash c).trans (h.flash c)
  links c := (g.links c).trans (h.links c)
  grants c := (g.grants c).trans (h.grants c)
  ptpSeq c := (g.ptpSeq c).trans (h.ptpSeq c)
  tcal c := (g.tcal c).trans (h.tcal c)
  linkRun c := (g.linkRun c).trans (h.linkRun c)
  fabric c := (g.fabric c).trans (h.fabric c)
  quay c := (g.quay c).trans (h.quay c)
  lock c := (g.lock c).trans (h.lock c)
  tables c := (g.tables c).trans (h.tables c)
  log c := (g.log c).trans (h.log c)
  pad c := (g.pad c).trans (h.pad c)
  optics c := (g.optics c).trans (h.optics c)
  tagRegs c := (g.tagRegs c).trans (h.tagRegs c)
  windowAt c := (g.windowAt c).trans (h.windowAt c)
  cal c := (g.cal c).trans (h.cal c)
  evtInputs c := (g.evtInputs c).trans (h.evtInputs c)
  evtAccs c := (g.evtAccs c).trans (h.evtAccs c)
  nhp c := (g.nhp c).trans (h.nhp c)
  gnss c := (g.gnss c).trans (h.gnss c)
  obsJob c := (g.obsJob c).trans (h.obsJob c)
  rings c := (g.rings c).trans (h.rings c)
  txSlots c := (g.txSlots c).trans (h.txSlots c)
  nextSlot c := (g.nextSlot c).trans (h.nextSlot c)
  raised c := (g.raised c).trans (h.raised c)
  power c := (g.power c).trans (h.power c)
  fault c := (g.fault c).trans (h.fault c)
  sessions c := (g.sessions c).trans (h.sessions c)
  timeOut c := (g.timeOut c).trans (h.timeOut c)

/-- Whether what one list allows, the other allows too. -/
def within (V W : Option (List Nat)) : Bool :=
  match V, W with
  | _, none => true
  | none, some _ => false
  | some l, some _ => l.all (allows W)

theorem allows_within {V W : Option (List Nat)} (h : within V W = true) {c : Nat} (hc : allows W c = false) : allows V c = false := by
  cases V with
  | none => cases W with
    | none => exact hc
    | some m => cases h
  | some l =>
    cases W with
    | none => cases hc
    | some m =>
      simp only [within, List.all_eq_true] at h
      simp only [allows]
      rw [Bool.eq_false_iff]
      intro hl
      obtain ⟨x, hx, hxc⟩ := List.any_eq_true.mp hl
      rw [Bool.or_eq_true, Bool.and_eq_true] at hxc
      rcases hxc with hxc | ⟨h0, h62⟩
      · rw [← Nat.eq_of_beq_eq_true hxc, h x hx] at hc
        cases hc
      · have hz := h x hx
        rw [Nat.eq_of_beq_eq_true h0] at hz
        simp only [allows] at hz hc
        obtain ⟨y, hy, hyz⟩ := List.any_eq_true.mp hz
        have hy0 : Nat.beq y F.params = true := by
          rw [Bool.or_eq_true, Bool.and_eq_true] at hyz
          rcases hyz with h | h
          · exact h
          · exact h.1
        rw [Bool.eq_false_iff] at hc
        exact hc (List.any_eq_true.mpr ⟨y, hy, by rw [hy0, h62]; simp⟩)

theorem Only.mono {V W : Option (List Nat)} {s t : State} (h : Only V s t) (hw : within V W = true) : Only W s t where
  keeps := h.keeps
  rd b i hl hb := h.rd b i hl (allows_within hw hb)
  shadows c := h.shadows (allows_within hw c)
  hidden c := h.hidden (allows_within hw c)
  phase c := h.phase (allows_within hw c)
  released c := h.released (allows_within hw c)
  fresh c := h.fresh (allows_within hw c)
  cmd c := h.cmd (allows_within hw c)
  time c := h.time (allows_within hw c)
  refs c := h.refs (allows_within hw c)
  servo c := h.servo (allows_within hw c)
  flash c := h.flash (allows_within hw c)
  links c := h.links (allows_within hw c)
  grants c := h.grants (allows_within hw c)
  ptpSeq c := h.ptpSeq (allows_within hw c)
  tcal c := h.tcal (allows_within hw c)
  linkRun c := h.linkRun (allows_within hw c)
  fabric c := h.fabric (allows_within hw c)
  quay c := h.quay (allows_within hw c)
  lock c := h.lock (allows_within hw c)
  tables c := h.tables (allows_within hw c)
  log c := h.log (allows_within hw c)
  pad c := h.pad (allows_within hw c)
  optics c := h.optics (allows_within hw c)
  tagRegs c := h.tagRegs (allows_within hw c)
  windowAt c := h.windowAt (allows_within hw c)
  cal c := h.cal (allows_within hw c)
  evtInputs c := h.evtInputs (allows_within hw c)
  evtAccs c := h.evtAccs (allows_within hw c)
  nhp c := h.nhp (allows_within hw c)
  gnss c := h.gnss (allows_within hw c)
  obsJob c := h.obsJob (allows_within hw c)
  rings c := h.rings (allows_within hw c)
  txSlots c := h.txSlots (allows_within hw c)
  nextSlot c := h.nextSlot (allows_within hw c)
  raised c := h.raised (allows_within hw c)
  power c := h.power (allows_within hw c)
  fault c := h.fault (allows_within hw c)
  sessions c := h.sessions (allows_within hw c)
  timeOut c := h.timeOut (allows_within hw c)

theorem within_trans {U V W : Option (List Nat)} (h : within U V = true) (g : within V W = true) : within U W = true := by
  have hs : ∀ c, allows W c = false → allows U c = false := fun c hc => allows_within h (allows_within g hc)
  cases W with
  | none => cases U <;> rfl
  | some l =>
    cases U with
    | none => cases V with
      | none => cases g
      | some m => cases h
    | some k =>
      simp only [within, List.all_eq_true]
      intro x hx
      by_contra hn
      have := hs x (by simpa using hn)
      simp only [allows] at this
      rw [Bool.eq_false_iff] at this
      exact this (List.any_eq_true.mpr ⟨x, hx, by rw [Nat.beq_refl]; rfl⟩)

/-- A further operation, of which less is allowed than of the whole. -/
theorem Only.step {V W : Option (List Nat)} {s t u : State} (h : Only W s t) (g : Only V t u) (hw : within V W = true) : Only W s u :=
  h.trans (g.mono hw)

/-- A change of the state that leaves the registers, the outbox, the queue, true time, the scratchpad's memory and the shadows alone. -/
theorem Keeps.of_same {s t u : State} (h : Keeps s t) (h1 : u.pending = t.pending) (h2 : u.clock = t.clock) (h3 : u.out = t.out)
    (h4 : u.regs = t.regs) (h5 : u.pad.mem = t.pad.mem) (h6 : u.shadows = t.shadows) : Keeps s u :=
  ⟨h1.trans h.pending, h2.trans h.clock, h3 ▸ h.out, fun x => h4 ▸ h.regs x, fun x => h5 ▸ h.mem x, fun x => h6 ▸ h.shadows x⟩

/-- Where anything may change, only what every command keeps is left to say. -/
theorem Only.of_keeps {s t : State} (h : Keeps s t) : Only none s t := by
  constructor <;> first | exact h | (intros; contradiction)

theorem Only.cond {W : Option (List Nat)} {s a b : State} (c : Prop) [Decidable c] (h : Only W s a) (g : Only W s b) :
    Only W s (if c then a else b) := by split <;> assumption

theorem Only.fold {α : Type} {W : Option (List Nat)} {s t : State} (f : State → α → State) (l : List α)
    (h : ∀ u x, Only W u (f u x)) (g : Only W s t) : Only W s (l.foldl f t) := by
  induction l generalizing t with
  | nil => exact g
  | cons x l ih => exact ih (g.trans (h t x))

theorem Only.set_shadows {W : Option (List Nat)} {s t : State} (h : Only W s t) (hc : allows W F.shadows = true) (v : List ((Nat × Nat) × Nat)) (hv : rising ltPair t.shadows = true → rising ltPair v = true) :
    Only W s { t with shadows := v } where
  keeps := ⟨h.keeps.pending, h.keeps.clock, h.keeps.out, h.keeps.regs, h.keeps.mem, fun x => hv (h.keeps.shadows x)⟩
  rd := h.rd
  shadows c := by rw [hc] at c; cases c
  hidden := h.hidden
  phase := h.phase
  released := h.released
  fresh := h.fresh
  cmd := h.cmd
  time := h.time
  refs := h.refs
  servo := h.servo
  flash := h.flash
  links := h.links
  grants := h.grants
  ptpSeq := h.ptpSeq
  tcal := h.tcal
  linkRun := h.linkRun
  fabric := h.fabric
  quay := h.quay
  lock := h.lock
  tables := h.tables
  log := h.log
  pad := h.pad
  optics := h.optics
  tagRegs := h.tagRegs
  windowAt := h.windowAt
  cal := h.cal
  evtInputs := h.evtInputs
  evtAccs := h.evtAccs
  nhp := h.nhp
  gnss := h.gnss
  obsJob := h.obsJob
  rings := h.rings
  txSlots := h.txSlots
  nextSlot := h.nextSlot
  raised := h.raised
  power := h.power
  fault := h.fault
  sessions := h.sessions
  timeOut := h.timeOut

theorem Only.set_hidden {W : Option (List Nat)} {s t : State} (h : Only W s t) (hc : allows W F.hidden = true) (v : List (Nat × Nat)) :
    Only W s { t with hidden := v } where
  keeps := h.keeps.of_same rfl rfl rfl rfl rfl rfl
  rd := h.rd
  shadows := h.shadows
  hidden c := by rw [hc] at c; cases c
  phase := h.phase
  released := h.released
  fresh := h.fresh
  cmd := h.cmd
  time := h.time
  refs := h.refs
  servo := h.servo
  flash := h.flash
  links := h.links
  grants := h.grants
  ptpSeq := h.ptpSeq
  tcal := h.tcal
  linkRun := h.linkRun
  fabric := h.fabric
  quay := h.quay
  lock := h.lock
  tables := h.tables
  log := h.log
  pad := h.pad
  optics := h.optics
  tagRegs := h.tagRegs
  windowAt := h.windowAt
  cal := h.cal
  evtInputs := h.evtInputs
  evtAccs := h.evtAccs
  nhp := h.nhp
  gnss := h.gnss
  obsJob := h.obsJob
  rings := h.rings
  txSlots := h.txSlots
  nextSlot := h.nextSlot
  raised := h.raised
  power := h.power
  fault := h.fault
  sessions := h.sessions
  timeOut := h.timeOut

theorem Only.set_phase {W : Option (List Nat)} {s t : State} (h : Only W s t) (hc : allows W F.phase = true) (v : Phase) :
    Only W s { t with phase := v } where
  keeps := h.keeps.of_same rfl rfl rfl rfl rfl rfl
  rd := h.rd
  shadows := h.shadows
  hidden := h.hidden
  phase c := by rw [hc] at c; cases c
  released := h.released
  fresh := h.fresh
  cmd := h.cmd
  time := h.time
  refs := h.refs
  servo := h.servo
  flash := h.flash
  links := h.links
  grants := h.grants
  ptpSeq := h.ptpSeq
  tcal := h.tcal
  linkRun := h.linkRun
  fabric := h.fabric
  quay := h.quay
  lock := h.lock
  tables := h.tables
  log := h.log
  pad := h.pad
  optics := h.optics
  tagRegs := h.tagRegs
  windowAt := h.windowAt
  cal := h.cal
  evtInputs := h.evtInputs
  evtAccs := h.evtAccs
  nhp := h.nhp
  gnss := h.gnss
  obsJob := h.obsJob
  rings := h.rings
  txSlots := h.txSlots
  nextSlot := h.nextSlot
  raised := h.raised
  power := h.power
  fault := h.fault
  sessions := h.sessions
  timeOut := h.timeOut

theorem Only.set_released {W : Option (List Nat)} {s t : State} (h : Only W s t) (hc : allows W F.released = true) (v : Nat) :
    Only W s { t with released := v } where
  keeps := h.keeps.of_same rfl rfl rfl rfl rfl rfl
  rd := h.rd
  shadows := h.shadows
  hidden := h.hidden
  phase := h.phase
  released c := by rw [hc] at c; cases c
  fresh := h.fresh
  cmd := h.cmd
  time := h.time
  refs := h.refs
  servo := h.servo
  flash := h.flash
  links := h.links
  grants := h.grants
  ptpSeq := h.ptpSeq
  tcal := h.tcal
  linkRun := h.linkRun
  fabric := h.fabric
  quay := h.quay
  lock := h.lock
  tables := h.tables
  log := h.log
  pad := h.pad
  optics := h.optics
  tagRegs := h.tagRegs
  windowAt := h.windowAt
  cal := h.cal
  evtInputs := h.evtInputs
  evtAccs := h.evtAccs
  nhp := h.nhp
  gnss := h.gnss
  obsJob := h.obsJob
  rings := h.rings
  txSlots := h.txSlots
  nextSlot := h.nextSlot
  raised := h.raised
  power := h.power
  fault := h.fault
  sessions := h.sessions
  timeOut := h.timeOut

theorem Only.set_fresh {W : Option (List Nat)} {s t : State} (h : Only W s t) (hc : allows W F.fresh = true) (v : Nat) :
    Only W s { t with fresh := v } where
  keeps := h.keeps.of_same rfl rfl rfl rfl rfl rfl
  rd := h.rd
  shadows := h.shadows
  hidden := h.hidden
  phase := h.phase
  released := h.released
  fresh c := by rw [hc] at c; cases c
  cmd := h.cmd
  time := h.time
  refs := h.refs
  servo := h.servo
  flash := h.flash
  links := h.links
  grants := h.grants
  ptpSeq := h.ptpSeq
  tcal := h.tcal
  linkRun := h.linkRun
  fabric := h.fabric
  quay := h.quay
  lock := h.lock
  tables := h.tables
  log := h.log
  pad := h.pad
  optics := h.optics
  tagRegs := h.tagRegs
  windowAt := h.windowAt
  cal := h.cal
  evtInputs := h.evtInputs
  evtAccs := h.evtAccs
  nhp := h.nhp
  gnss := h.gnss
  obsJob := h.obsJob
  rings := h.rings
  txSlots := h.txSlots
  nextSlot := h.nextSlot
  raised := h.raised
  power := h.power
  fault := h.fault
  sessions := h.sessions
  timeOut := h.timeOut

theorem Only.set_cmd {W : Option (List Nat)} {s t : State} (h : Only W s t) (hc : allows W F.cmd = true) (v : Command) (hv : v.sessions.map (fun x => (x.uid, x.num)) = t.cmd.sessions.map fun x => (x.uid, x.num)) :
    Only W s { t with cmd := v } where
  keeps := h.keeps.of_same rfl rfl rfl rfl rfl rfl
  rd := h.rd
  shadows := h.shadows
  hidden := h.hidden
  phase := h.phase
  released := h.released
  fresh := h.fresh
  cmd c := by rw [hc] at c; cases c
  time := h.time
  refs := h.refs
  servo := h.servo
  flash := h.flash
  links := h.links
  grants := h.grants
  ptpSeq := h.ptpSeq
  tcal := h.tcal
  linkRun := h.linkRun
  fabric := h.fabric
  quay := h.quay
  lock := h.lock
  tables := h.tables
  log := h.log
  pad := h.pad
  optics := h.optics
  tagRegs := h.tagRegs
  windowAt := h.windowAt
  cal := h.cal
  evtInputs := h.evtInputs
  evtAccs := h.evtAccs
  nhp := h.nhp
  gnss := h.gnss
  obsJob := h.obsJob
  rings := h.rings
  txSlots := h.txSlots
  nextSlot := h.nextSlot
  raised := h.raised
  power := h.power
  fault := h.fault
  sessions c := hv.trans (h.sessions c)
  timeOut := h.timeOut

theorem Only.set_time {W : Option (List Nat)} {s t : State} (h : Only W s t) (hc : allows W F.time = true) (v : Timing) (hv : v.out = t.time.out) :
    Only W s { t with time := v } where
  keeps := h.keeps.of_same rfl rfl rfl rfl rfl rfl
  rd := h.rd
  shadows := h.shadows
  hidden := h.hidden
  phase := h.phase
  released := h.released
  fresh := h.fresh
  cmd := h.cmd
  time c := by rw [hc] at c; cases c
  refs := h.refs
  servo := h.servo
  flash := h.flash
  links := h.links
  grants := h.grants
  ptpSeq := h.ptpSeq
  tcal := h.tcal
  linkRun := h.linkRun
  fabric := h.fabric
  quay := h.quay
  lock := h.lock
  tables := h.tables
  log := h.log
  pad := h.pad
  optics := h.optics
  tagRegs := h.tagRegs
  windowAt := h.windowAt
  cal := h.cal
  evtInputs := h.evtInputs
  evtAccs := h.evtAccs
  nhp := h.nhp
  gnss := h.gnss
  obsJob := h.obsJob
  rings := h.rings
  txSlots := h.txSlots
  nextSlot := h.nextSlot
  raised := h.raised
  power := h.power
  fault := h.fault
  sessions := h.sessions
  timeOut c := hv.trans (h.timeOut c)

theorem Only.set_refs {W : Option (List Nat)} {s t : State} (h : Only W s t) (hc : allows W F.refs = true) (v : List RefMon) :
    Only W s { t with refs := v } where
  keeps := h.keeps.of_same rfl rfl rfl rfl rfl rfl
  rd := h.rd
  shadows := h.shadows
  hidden := h.hidden
  phase := h.phase
  released := h.released
  fresh := h.fresh
  cmd := h.cmd
  time := h.time
  refs c := by rw [hc] at c; cases c
  servo := h.servo
  flash := h.flash
  links := h.links
  grants := h.grants
  ptpSeq := h.ptpSeq
  tcal := h.tcal
  linkRun := h.linkRun
  fabric := h.fabric
  quay := h.quay
  lock := h.lock
  tables := h.tables
  log := h.log
  pad := h.pad
  optics := h.optics
  tagRegs := h.tagRegs
  windowAt := h.windowAt
  cal := h.cal
  evtInputs := h.evtInputs
  evtAccs := h.evtAccs
  nhp := h.nhp
  gnss := h.gnss
  obsJob := h.obsJob
  rings := h.rings
  txSlots := h.txSlots
  nextSlot := h.nextSlot
  raised := h.raised
  power := h.power
  fault := h.fault
  sessions := h.sessions
  timeOut := h.timeOut

theorem Only.set_servo {W : Option (List Nat)} {s t : State} (h : Only W s t) (hc : allows W F.servo = true) (v : Servo) :
    Only W s { t with servo := v } where
  keeps := h.keeps.of_same rfl rfl rfl rfl rfl rfl
  rd := h.rd
  shadows := h.shadows
  hidden := h.hidden
  phase := h.phase
  released := h.released
  fresh := h.fresh
  cmd := h.cmd
  time := h.time
  refs := h.refs
  servo c := by rw [hc] at c; cases c
  flash := h.flash
  links := h.links
  grants := h.grants
  ptpSeq := h.ptpSeq
  tcal := h.tcal
  linkRun := h.linkRun
  fabric := h.fabric
  quay := h.quay
  lock := h.lock
  tables := h.tables
  log := h.log
  pad := h.pad
  optics := h.optics
  tagRegs := h.tagRegs
  windowAt := h.windowAt
  cal := h.cal
  evtInputs := h.evtInputs
  evtAccs := h.evtAccs
  nhp := h.nhp
  gnss := h.gnss
  obsJob := h.obsJob
  rings := h.rings
  txSlots := h.txSlots
  nextSlot := h.nextSlot
  raised := h.raised
  power := h.power
  fault := h.fault
  sessions := h.sessions
  timeOut := h.timeOut

theorem Only.set_flash {W : Option (List Nat)} {s t : State} (h : Only W s t) (hc : allows W F.flash = true) (v : Flash) :
    Only W s { t with flash := v } where
  keeps := h.keeps.of_same rfl rfl rfl rfl rfl rfl
  rd := h.rd
  shadows := h.shadows
  hidden := h.hidden
  phase := h.phase
  released := h.released
  fresh := h.fresh
  cmd := h.cmd
  time := h.time
  refs := h.refs
  servo := h.servo
  flash c := by rw [hc] at c; cases c
  links := h.links
  grants := h.grants
  ptpSeq := h.ptpSeq
  tcal := h.tcal
  linkRun := h.linkRun
  fabric := h.fabric
  quay := h.quay
  lock := h.lock
  tables := h.tables
  log := h.log
  pad := h.pad
  optics := h.optics
  tagRegs := h.tagRegs
  windowAt := h.windowAt
  cal := h.cal
  evtInputs := h.evtInputs
  evtAccs := h.evtAccs
  nhp := h.nhp
  gnss := h.gnss
  obsJob := h.obsJob
  rings := h.rings
  txSlots := h.txSlots
  nextSlot := h.nextSlot
  raised := h.raised
  power := h.power
  fault := h.fault
  sessions := h.sessions
  timeOut := h.timeOut

theorem Only.set_links {W : Option (List Nat)} {s t : State} (h : Only W s t) (hc : allows W F.links = true) (v : List Link) :
    Only W s { t with links := v } where
  keeps := h.keeps.of_same rfl rfl rfl rfl rfl rfl
  rd := h.rd
  shadows := h.shadows
  hidden := h.hidden
  phase := h.phase
  released := h.released
  fresh := h.fresh
  cmd := h.cmd
  time := h.time
  refs := h.refs
  servo := h.servo
  flash := h.flash
  links c := by rw [hc] at c; cases c
  grants := h.grants
  ptpSeq := h.ptpSeq
  tcal := h.tcal
  linkRun := h.linkRun
  fabric := h.fabric
  quay := h.quay
  lock := h.lock
  tables := h.tables
  log := h.log
  pad := h.pad
  optics := h.optics
  tagRegs := h.tagRegs
  windowAt := h.windowAt
  cal := h.cal
  evtInputs := h.evtInputs
  evtAccs := h.evtAccs
  nhp := h.nhp
  gnss := h.gnss
  obsJob := h.obsJob
  rings := h.rings
  txSlots := h.txSlots
  nextSlot := h.nextSlot
  raised := h.raised
  power := h.power
  fault := h.fault
  sessions := h.sessions
  timeOut := h.timeOut

theorem Only.set_grants {W : Option (List Nat)} {s t : State} (h : Only W s t) (hc : allows W F.grants = true) (v : List Grant) :
    Only W s { t with grants := v } where
  keeps := h.keeps.of_same rfl rfl rfl rfl rfl rfl
  rd := h.rd
  shadows := h.shadows
  hidden := h.hidden
  phase := h.phase
  released := h.released
  fresh := h.fresh
  cmd := h.cmd
  time := h.time
  refs := h.refs
  servo := h.servo
  flash := h.flash
  links := h.links
  grants c := by rw [hc] at c; cases c
  ptpSeq := h.ptpSeq
  tcal := h.tcal
  linkRun := h.linkRun
  fabric := h.fabric
  quay := h.quay
  lock := h.lock
  tables := h.tables
  log := h.log
  pad := h.pad
  optics := h.optics
  tagRegs := h.tagRegs
  windowAt := h.windowAt
  cal := h.cal
  evtInputs := h.evtInputs
  evtAccs := h.evtAccs
  nhp := h.nhp
  gnss := h.gnss
  obsJob := h.obsJob
  rings := h.rings
  txSlots := h.txSlots
  nextSlot := h.nextSlot
  raised := h.raised
  power := h.power
  fault := h.fault
  sessions := h.sessions
  timeOut := h.timeOut

theorem Only.set_ptpSeq {W : Option (List Nat)} {s t : State} (h : Only W s t) (hc : allows W F.ptpSeq = true) (v : List ((Nat × Nat) × Nat)) :
    Only W s { t with ptpSeq := v } where
  keeps := h.keeps.of_same rfl rfl rfl rfl rfl rfl
  rd := h.rd
  shadows := h.shadows
  hidden := h.hidden
  phase := h.phase
  released := h.released
  fresh := h.fresh
  cmd := h.cmd
  time := h.time
  refs := h.refs
  servo := h.servo
  flash := h.flash
  links := h.links
  grants := h.grants
  ptpSeq c := by rw [hc] at c; cases c
  tcal := h.tcal
  linkRun := h.linkRun
  fabric := h.fabric
  quay := h.quay
  lock := h.lock
  tables := h.tables
  log := h.log
  pad := h.pad
  optics := h.optics
  tagRegs := h.tagRegs
  windowAt := h.windowAt
  cal := h.cal
  evtInputs := h.evtInputs
  evtAccs := h.evtAccs
  nhp := h.nhp
  gnss := h.gnss
  obsJob := h.obsJob
  rings := h.rings
  txSlots := h.txSlots
  nextSlot := h.nextSlot
  raised := h.raised
  power := h.power
  fault := h.fault
  sessions := h.sessions
  timeOut := h.timeOut

theorem Only.set_tcal {W : Option (List Nat)} {s t : State} (h : Only W s t) (hc : allows W F.tcal = true) (v : List TcalServe) :
    Only W s { t with tcal := v } where
  keeps := h.keeps.of_same rfl rfl rfl rfl rfl rfl
  rd := h.rd
  shadows := h.shadows
  hidden := h.hidden
  phase := h.phase
  released := h.released
  fresh := h.fresh
  cmd := h.cmd
  time := h.time
  refs := h.refs
  servo := h.servo
  flash := h.flash
  links := h.links
  grants := h.grants
  ptpSeq := h.ptpSeq
  tcal c := by rw [hc] at c; cases c
  linkRun := h.linkRun
  fabric := h.fabric
  quay := h.quay
  lock := h.lock
  tables := h.tables
  log := h.log
  pad := h.pad
  optics := h.optics
  tagRegs := h.tagRegs
  windowAt := h.windowAt
  cal := h.cal
  evtInputs := h.evtInputs
  evtAccs := h.evtAccs
  nhp := h.nhp
  gnss := h.gnss
  obsJob := h.obsJob
  rings := h.rings
  txSlots := h.txSlots
  nextSlot := h.nextSlot
  raised := h.raised
  power := h.power
  fault := h.fault
  sessions := h.sessions
  timeOut := h.timeOut

theorem Only.set_linkRun {W : Option (List Nat)} {s t : State} (h : Only W s t) (hc : allows W F.linkRun = true) (v : Option LinkRun) :
    Only W s { t with linkRun := v } where
  keeps := h.keeps.of_same rfl rfl rfl rfl rfl rfl
  rd := h.rd
  shadows := h.shadows
  hidden := h.hidden
  phase := h.phase
  released := h.released
  fresh := h.fresh
  cmd := h.cmd
  time := h.time
  refs := h.refs
  servo := h.servo
  flash := h.flash
  links := h.links
  grants := h.grants
  ptpSeq := h.ptpSeq
  tcal := h.tcal
  linkRun c := by rw [hc] at c; cases c
  fabric := h.fabric
  quay := h.quay
  lock := h.lock
  tables := h.tables
  log := h.log
  pad := h.pad
  optics := h.optics
  tagRegs := h.tagRegs
  windowAt := h.windowAt
  cal := h.cal
  evtInputs := h.evtInputs
  evtAccs := h.evtAccs
  nhp := h.nhp
  gnss := h.gnss
  obsJob := h.obsJob
  rings := h.rings
  txSlots := h.txSlots
  nextSlot := h.nextSlot
  raised := h.raised
  power := h.power
  fault := h.fault
  sessions := h.sessions
  timeOut := h.timeOut

theorem Only.set_fabric {W : Option (List Nat)} {s t : State} (h : Only W s t) (hc : allows W F.fabric = true) (v : Fabric) :
    Only W s { t with fabric := v } where
  keeps := h.keeps.of_same rfl rfl rfl rfl rfl rfl
  rd := h.rd
  shadows := h.shadows
  hidden := h.hidden
  phase := h.phase
  released := h.released
  fresh := h.fresh
  cmd := h.cmd
  time := h.time
  refs := h.refs
  servo := h.servo
  flash := h.flash
  links := h.links
  grants := h.grants
  ptpSeq := h.ptpSeq
  tcal := h.tcal
  linkRun := h.linkRun
  fabric c := by rw [hc] at c; cases c
  quay := h.quay
  lock := h.lock
  tables := h.tables
  log := h.log
  pad := h.pad
  optics := h.optics
  tagRegs := h.tagRegs
  windowAt := h.windowAt
  cal := h.cal
  evtInputs := h.evtInputs
  evtAccs := h.evtAccs
  nhp := h.nhp
  gnss := h.gnss
  obsJob := h.obsJob
  rings := h.rings
  txSlots := h.txSlots
  nextSlot := h.nextSlot
  raised := h.raised
  power := h.power
  fault := h.fault
  sessions := h.sessions
  timeOut := h.timeOut

theorem Only.set_quay {W : Option (List Nat)} {s t : State} (h : Only W s t) (hc : allows W F.quay = true) (v : Quay) :
    Only W s { t with quay := v } where
  keeps := h.keeps.of_same rfl rfl rfl rfl rfl rfl
  rd := h.rd
  shadows := h.shadows
  hidden := h.hidden
  phase := h.phase
  released := h.released
  fresh := h.fresh
  cmd := h.cmd
  time := h.time
  refs := h.refs
  servo := h.servo
  flash := h.flash
  links := h.links
  grants := h.grants
  ptpSeq := h.ptpSeq
  tcal := h.tcal
  linkRun := h.linkRun
  fabric := h.fabric
  quay c := by rw [hc] at c; cases c
  lock := h.lock
  tables := h.tables
  log := h.log
  pad := h.pad
  optics := h.optics
  tagRegs := h.tagRegs
  windowAt := h.windowAt
  cal := h.cal
  evtInputs := h.evtInputs
  evtAccs := h.evtAccs
  nhp := h.nhp
  gnss := h.gnss
  obsJob := h.obsJob
  rings := h.rings
  txSlots := h.txSlots
  nextSlot := h.nextSlot
  raised := h.raised
  power := h.power
  fault := h.fault
  sessions := h.sessions
  timeOut := h.timeOut

theorem Only.set_lock {W : Option (List Nat)} {s t : State} (h : Only W s t) (hc : allows W F.lock = true) (v : Lock) :
    Only W s { t with lock := v } where
  keeps := h.keeps.of_same rfl rfl rfl rfl rfl rfl
  rd := h.rd
  shadows := h.shadows
  hidden := h.hidden
  phase := h.phase
  released := h.released
  fresh := h.fresh
  cmd := h.cmd
  time := h.time
  refs := h.refs
  servo := h.servo
  flash := h.flash
  links := h.links
  grants := h.grants
  ptpSeq := h.ptpSeq
  tcal := h.tcal
  linkRun := h.linkRun
  fabric := h.fabric
  quay := h.quay
  lock c := by rw [hc] at c; cases c
  tables := h.tables
  log := h.log
  pad := h.pad
  optics := h.optics
  tagRegs := h.tagRegs
  windowAt := h.windowAt
  cal := h.cal
  evtInputs := h.evtInputs
  evtAccs := h.evtAccs
  nhp := h.nhp
  gnss := h.gnss
  obsJob := h.obsJob
  rings := h.rings
  txSlots := h.txSlots
  nextSlot := h.nextSlot
  raised := h.raised
  power := h.power
  fault := h.fault
  sessions := h.sessions
  timeOut := h.timeOut

theorem Only.set_tables {W : Option (List Nat)} {s t : State} (h : Only W s t) (hc : allows W F.tables = true) (v : Tables) :
    Only W s { t with tables := v } where
  keeps := h.keeps.of_same rfl rfl rfl rfl rfl rfl
  rd := h.rd
  shadows := h.shadows
  hidden := h.hidden
  phase := h.phase
  released := h.released
  fresh := h.fresh
  cmd := h.cmd
  time := h.time
  refs := h.refs
  servo := h.servo
  flash := h.flash
  links := h.links
  grants := h.grants
  ptpSeq := h.ptpSeq
  tcal := h.tcal
  linkRun := h.linkRun
  fabric := h.fabric
  quay := h.quay
  lock := h.lock
  tables c := by rw [hc] at c; cases c
  log := h.log
  pad := h.pad
  optics := h.optics
  tagRegs := h.tagRegs
  windowAt := h.windowAt
  cal := h.cal
  evtInputs := h.evtInputs
  evtAccs := h.evtAccs
  nhp := h.nhp
  gnss := h.gnss
  obsJob := h.obsJob
  rings := h.rings
  txSlots := h.txSlots
  nextSlot := h.nextSlot
  raised := h.raised
  power := h.power
  fault := h.fault
  sessions := h.sessions
  timeOut := h.timeOut

theorem Only.set_log {W : Option (List Nat)} {s t : State} (h : Only W s t) (hc : allows W F.log = true) (v : Logbook) :
    Only W s { t with log := v } where
  keeps := h.keeps.of_same rfl rfl rfl rfl rfl rfl
  rd := h.rd
  shadows := h.shadows
  hidden := h.hidden
  phase := h.phase
  released := h.released
  fresh := h.fresh
  cmd := h.cmd
  time := h.time
  refs := h.refs
  servo := h.servo
  flash := h.flash
  links := h.links
  grants := h.grants
  ptpSeq := h.ptpSeq
  tcal := h.tcal
  linkRun := h.linkRun
  fabric := h.fabric
  quay := h.quay
  lock := h.lock
  tables := h.tables
  log c := by rw [hc] at c; cases c
  pad := h.pad
  optics := h.optics
  tagRegs := h.tagRegs
  windowAt := h.windowAt
  cal := h.cal
  evtInputs := h.evtInputs
  evtAccs := h.evtAccs
  nhp := h.nhp
  gnss := h.gnss
  obsJob := h.obsJob
  rings := h.rings
  txSlots := h.txSlots
  nextSlot := h.nextSlot
  raised := h.raised
  power := h.power
  fault := h.fault
  sessions := h.sessions
  timeOut := h.timeOut

theorem Only.set_pad {W : Option (List Nat)} {s t : State} (h : Only W s t) (hc : allows W F.pad = true) (v : Scratchpad) (hv : Memory.wf t.pad.mem = true → Memory.wf v.mem = true) :
    Only W s { t with pad := v } where
  keeps := ⟨h.keeps.pending, h.keeps.clock, h.keeps.out, h.keeps.regs, fun x => hv (h.keeps.mem x), h.keeps.shadows⟩
  rd := h.rd
  shadows := h.shadows
  hidden := h.hidden
  phase := h.phase
  released := h.released
  fresh := h.fresh
  cmd := h.cmd
  time := h.time
  refs := h.refs
  servo := h.servo
  flash := h.flash
  links := h.links
  grants := h.grants
  ptpSeq := h.ptpSeq
  tcal := h.tcal
  linkRun := h.linkRun
  fabric := h.fabric
  quay := h.quay
  lock := h.lock
  tables := h.tables
  log := h.log
  pad c := by rw [hc] at c; cases c
  optics := h.optics
  tagRegs := h.tagRegs
  windowAt := h.windowAt
  cal := h.cal
  evtInputs := h.evtInputs
  evtAccs := h.evtAccs
  nhp := h.nhp
  gnss := h.gnss
  obsJob := h.obsJob
  rings := h.rings
  txSlots := h.txSlots
  nextSlot := h.nextSlot
  raised := h.raised
  power := h.power
  fault := h.fault
  sessions := h.sessions
  timeOut := h.timeOut

theorem Only.set_optics {W : Option (List Nat)} {s t : State} (h : Only W s t) (hc : allows W F.optics = true) (v : Optics) :
    Only W s { t with optics := v } where
  keeps := h.keeps.of_same rfl rfl rfl rfl rfl rfl
  rd := h.rd
  shadows := h.shadows
  hidden := h.hidden
  phase := h.phase
  released := h.released
  fresh := h.fresh
  cmd := h.cmd
  time := h.time
  refs := h.refs
  servo := h.servo
  flash := h.flash
  links := h.links
  grants := h.grants
  ptpSeq := h.ptpSeq
  tcal := h.tcal
  linkRun := h.linkRun
  fabric := h.fabric
  quay := h.quay
  lock := h.lock
  tables := h.tables
  log := h.log
  pad := h.pad
  optics c := by rw [hc] at c; cases c
  tagRegs := h.tagRegs
  windowAt := h.windowAt
  cal := h.cal
  evtInputs := h.evtInputs
  evtAccs := h.evtAccs
  nhp := h.nhp
  gnss := h.gnss
  obsJob := h.obsJob
  rings := h.rings
  txSlots := h.txSlots
  nextSlot := h.nextSlot
  raised := h.raised
  power := h.power
  fault := h.fault
  sessions := h.sessions
  timeOut := h.timeOut

theorem Only.set_tagRegs {W : Option (List Nat)} {s t : State} (h : Only W s t) (hc : allows W F.tagRegs = true) (v : List Nat) :
    Only W s { t with tagRegs := v } where
  keeps := h.keeps.of_same rfl rfl rfl rfl rfl rfl
  rd := h.rd
  shadows := h.shadows
  hidden := h.hidden
  phase := h.phase
  released := h.released
  fresh := h.fresh
  cmd := h.cmd
  time := h.time
  refs := h.refs
  servo := h.servo
  flash := h.flash
  links := h.links
  grants := h.grants
  ptpSeq := h.ptpSeq
  tcal := h.tcal
  linkRun := h.linkRun
  fabric := h.fabric
  quay := h.quay
  lock := h.lock
  tables := h.tables
  log := h.log
  pad := h.pad
  optics := h.optics
  tagRegs c := by rw [hc] at c; cases c
  windowAt := h.windowAt
  cal := h.cal
  evtInputs := h.evtInputs
  evtAccs := h.evtAccs
  nhp := h.nhp
  gnss := h.gnss
  obsJob := h.obsJob
  rings := h.rings
  txSlots := h.txSlots
  nextSlot := h.nextSlot
  raised := h.raised
  power := h.power
  fault := h.fault
  sessions := h.sessions
  timeOut := h.timeOut

theorem Only.set_windowAt {W : Option (List Nat)} {s t : State} (h : Only W s t) (hc : allows W F.windowAt = true) (v : Option Nat) :
    Only W s { t with windowAt := v } where
  keeps := h.keeps.of_same rfl rfl rfl rfl rfl rfl
  rd := h.rd
  shadows := h.shadows
  hidden := h.hidden
  phase := h.phase
  released := h.released
  fresh := h.fresh
  cmd := h.cmd
  time := h.time
  refs := h.refs
  servo := h.servo
  flash := h.flash
  links := h.links
  grants := h.grants
  ptpSeq := h.ptpSeq
  tcal := h.tcal
  linkRun := h.linkRun
  fabric := h.fabric
  quay := h.quay
  lock := h.lock
  tables := h.tables
  log := h.log
  pad := h.pad
  optics := h.optics
  tagRegs := h.tagRegs
  windowAt c := by rw [hc] at c; cases c
  cal := h.cal
  evtInputs := h.evtInputs
  evtAccs := h.evtAccs
  nhp := h.nhp
  gnss := h.gnss
  obsJob := h.obsJob
  rings := h.rings
  txSlots := h.txSlots
  nextSlot := h.nextSlot
  raised := h.raised
  power := h.power
  fault := h.fault
  sessions := h.sessions
  timeOut := h.timeOut

theorem Only.set_cal {W : Option (List Nat)} {s t : State} (h : Only W s t) (hc : allows W F.cal = true) (v : Calibration) :
    Only W s { t with cal := v } where
  keeps := h.keeps.of_same rfl rfl rfl rfl rfl rfl
  rd := h.rd
  shadows := h.shadows
  hidden := h.hidden
  phase := h.phase
  released := h.released
  fresh := h.fresh
  cmd := h.cmd
  time := h.time
  refs := h.refs
  servo := h.servo
  flash := h.flash
  links := h.links
  grants := h.grants
  ptpSeq := h.ptpSeq
  tcal := h.tcal
  linkRun := h.linkRun
  fabric := h.fabric
  quay := h.quay
  lock := h.lock
  tables := h.tables
  log := h.log
  pad := h.pad
  optics := h.optics
  tagRegs := h.tagRegs
  windowAt := h.windowAt
  cal c := by rw [hc] at c; cases c
  evtInputs := h.evtInputs
  evtAccs := h.evtAccs
  nhp := h.nhp
  gnss := h.gnss
  obsJob := h.obsJob
  rings := h.rings
  txSlots := h.txSlots
  nextSlot := h.nextSlot
  raised := h.raised
  power := h.power
  fault := h.fault
  sessions := h.sessions
  timeOut := h.timeOut

theorem Only.set_evtInputs {W : Option (List Nat)} {s t : State} (h : Only W s t) (hc : allows W F.evtInputs = true) (v : List EvtInput) :
    Only W s { t with evtInputs := v } where
  keeps := h.keeps.of_same rfl rfl rfl rfl rfl rfl
  rd := h.rd
  shadows := h.shadows
  hidden := h.hidden
  phase := h.phase
  released := h.released
  fresh := h.fresh
  cmd := h.cmd
  time := h.time
  refs := h.refs
  servo := h.servo
  flash := h.flash
  links := h.links
  grants := h.grants
  ptpSeq := h.ptpSeq
  tcal := h.tcal
  linkRun := h.linkRun
  fabric := h.fabric
  quay := h.quay
  lock := h.lock
  tables := h.tables
  log := h.log
  pad := h.pad
  optics := h.optics
  tagRegs := h.tagRegs
  windowAt := h.windowAt
  cal := h.cal
  evtInputs c := by rw [hc] at c; cases c
  evtAccs := h.evtAccs
  nhp := h.nhp
  gnss := h.gnss
  obsJob := h.obsJob
  rings := h.rings
  txSlots := h.txSlots
  nextSlot := h.nextSlot
  raised := h.raised
  power := h.power
  fault := h.fault
  sessions := h.sessions
  timeOut := h.timeOut

theorem Only.set_evtAccs {W : Option (List Nat)} {s t : State} (h : Only W s t) (hc : allows W F.evtAccs = true) (v : List EvtAcc) :
    Only W s { t with evtAccs := v } where
  keeps := h.keeps.of_same rfl rfl rfl rfl rfl rfl
  rd := h.rd
  shadows := h.shadows
  hidden := h.hidden
  phase := h.phase
  released := h.released
  fresh := h.fresh
  cmd := h.cmd
  time := h.time
  refs := h.refs
  servo := h.servo
  flash := h.flash
  links := h.links
  grants := h.grants
  ptpSeq := h.ptpSeq
  tcal := h.tcal
  linkRun := h.linkRun
  fabric := h.fabric
  quay := h.quay
  lock := h.lock
  tables := h.tables
  log := h.log
  pad := h.pad
  optics := h.optics
  tagRegs := h.tagRegs
  windowAt := h.windowAt
  cal := h.cal
  evtInputs := h.evtInputs
  evtAccs c := by rw [hc] at c; cases c
  nhp := h.nhp
  gnss := h.gnss
  obsJob := h.obsJob
  rings := h.rings
  txSlots := h.txSlots
  nextSlot := h.nextSlot
  raised := h.raised
  power := h.power
  fault := h.fault
  sessions := h.sessions
  timeOut := h.timeOut

theorem Only.set_nhp {W : Option (List Nat)} {s t : State} (h : Only W s t) (hc : allows W F.nhp = true) (v : Hierarchy) :
    Only W s { t with nhp := v } where
  keeps := h.keeps.of_same rfl rfl rfl rfl rfl rfl
  rd := h.rd
  shadows := h.shadows
  hidden := h.hidden
  phase := h.phase
  released := h.released
  fresh := h.fresh
  cmd := h.cmd
  time := h.time
  refs := h.refs
  servo := h.servo
  flash := h.flash
  links := h.links
  grants := h.grants
  ptpSeq := h.ptpSeq
  tcal := h.tcal
  linkRun := h.linkRun
  fabric := h.fabric
  quay := h.quay
  lock := h.lock
  tables := h.tables
  log := h.log
  pad := h.pad
  optics := h.optics
  tagRegs := h.tagRegs
  windowAt := h.windowAt
  cal := h.cal
  evtInputs := h.evtInputs
  evtAccs := h.evtAccs
  nhp c := by rw [hc] at c; cases c
  gnss := h.gnss
  obsJob := h.obsJob
  rings := h.rings
  txSlots := h.txSlots
  nextSlot := h.nextSlot
  raised := h.raised
  power := h.power
  fault := h.fault
  sessions := h.sessions
  timeOut := h.timeOut

theorem Only.set_gnss {W : Option (List Nat)} {s t : State} (h : Only W s t) (hc : allows W F.gnss = true) (v : Gnss) :
    Only W s { t with gnss := v } where
  keeps := h.keeps.of_same rfl rfl rfl rfl rfl rfl
  rd := h.rd
  shadows := h.shadows
  hidden := h.hidden
  phase := h.phase
  released := h.released
  fresh := h.fresh
  cmd := h.cmd
  time := h.time
  refs := h.refs
  servo := h.servo
  flash := h.flash
  links := h.links
  grants := h.grants
  ptpSeq := h.ptpSeq
  tcal := h.tcal
  linkRun := h.linkRun
  fabric := h.fabric
  quay := h.quay
  lock := h.lock
  tables := h.tables
  log := h.log
  pad := h.pad
  optics := h.optics
  tagRegs := h.tagRegs
  windowAt := h.windowAt
  cal := h.cal
  evtInputs := h.evtInputs
  evtAccs := h.evtAccs
  nhp := h.nhp
  gnss c := by rw [hc] at c; cases c
  obsJob := h.obsJob
  rings := h.rings
  txSlots := h.txSlots
  nextSlot := h.nextSlot
  raised := h.raised
  power := h.power
  fault := h.fault
  sessions := h.sessions
  timeOut := h.timeOut

theorem Only.set_obsJob {W : Option (List Nat)} {s t : State} (h : Only W s t) (hc : allows W F.obsJob = true) (v : Option SnapJob) :
    Only W s { t with obsJob := v } where
  keeps := h.keeps.of_same rfl rfl rfl rfl rfl rfl
  rd := h.rd
  shadows := h.shadows
  hidden := h.hidden
  phase := h.phase
  released := h.released
  fresh := h.fresh
  cmd := h.cmd
  time := h.time
  refs := h.refs
  servo := h.servo
  flash := h.flash
  links := h.links
  grants := h.grants
  ptpSeq := h.ptpSeq
  tcal := h.tcal
  linkRun := h.linkRun
  fabric := h.fabric
  quay := h.quay
  lock := h.lock
  tables := h.tables
  log := h.log
  pad := h.pad
  optics := h.optics
  tagRegs := h.tagRegs
  windowAt := h.windowAt
  cal := h.cal
  evtInputs := h.evtInputs
  evtAccs := h.evtAccs
  nhp := h.nhp
  gnss := h.gnss
  obsJob c := by rw [hc] at c; cases c
  rings := h.rings
  txSlots := h.txSlots
  nextSlot := h.nextSlot
  raised := h.raised
  power := h.power
  fault := h.fault
  sessions := h.sessions
  timeOut := h.timeOut

theorem Only.set_rings {W : Option (List Nat)} {s t : State} (h : Only W s t) (hc : allows W F.rings = true) (v : List Ring) :
    Only W s { t with rings := v } where
  keeps := h.keeps.of_same rfl rfl rfl rfl rfl rfl
  rd := h.rd
  shadows := h.shadows
  hidden := h.hidden
  phase := h.phase
  released := h.released
  fresh := h.fresh
  cmd := h.cmd
  time := h.time
  refs := h.refs
  servo := h.servo
  flash := h.flash
  links := h.links
  grants := h.grants
  ptpSeq := h.ptpSeq
  tcal := h.tcal
  linkRun := h.linkRun
  fabric := h.fabric
  quay := h.quay
  lock := h.lock
  tables := h.tables
  log := h.log
  pad := h.pad
  optics := h.optics
  tagRegs := h.tagRegs
  windowAt := h.windowAt
  cal := h.cal
  evtInputs := h.evtInputs
  evtAccs := h.evtAccs
  nhp := h.nhp
  gnss := h.gnss
  obsJob := h.obsJob
  rings c := by rw [hc] at c; cases c
  txSlots := h.txSlots
  nextSlot := h.nextSlot
  raised := h.raised
  power := h.power
  fault := h.fault
  sessions := h.sessions
  timeOut := h.timeOut

theorem Only.set_txSlots {W : Option (List Nat)} {s t : State} (h : Only W s t) (hc : allows W F.txSlots = true) (v : List TxSlot) :
    Only W s { t with txSlots := v } where
  keeps := h.keeps.of_same rfl rfl rfl rfl rfl rfl
  rd := h.rd
  shadows := h.shadows
  hidden := h.hidden
  phase := h.phase
  released := h.released
  fresh := h.fresh
  cmd := h.cmd
  time := h.time
  refs := h.refs
  servo := h.servo
  flash := h.flash
  links := h.links
  grants := h.grants
  ptpSeq := h.ptpSeq
  tcal := h.tcal
  linkRun := h.linkRun
  fabric := h.fabric
  quay := h.quay
  lock := h.lock
  tables := h.tables
  log := h.log
  pad := h.pad
  optics := h.optics
  tagRegs := h.tagRegs
  windowAt := h.windowAt
  cal := h.cal
  evtInputs := h.evtInputs
  evtAccs := h.evtAccs
  nhp := h.nhp
  gnss := h.gnss
  obsJob := h.obsJob
  rings := h.rings
  txSlots c := by rw [hc] at c; cases c
  nextSlot := h.nextSlot
  raised := h.raised
  power := h.power
  fault := h.fault
  sessions := h.sessions
  timeOut := h.timeOut

theorem Only.set_nextSlot {W : Option (List Nat)} {s t : State} (h : Only W s t) (hc : allows W F.nextSlot = true) (v : Nat) :
    Only W s { t with nextSlot := v } where
  keeps := h.keeps.of_same rfl rfl rfl rfl rfl rfl
  rd := h.rd
  shadows := h.shadows
  hidden := h.hidden
  phase := h.phase
  released := h.released
  fresh := h.fresh
  cmd := h.cmd
  time := h.time
  refs := h.refs
  servo := h.servo
  flash := h.flash
  links := h.links
  grants := h.grants
  ptpSeq := h.ptpSeq
  tcal := h.tcal
  linkRun := h.linkRun
  fabric := h.fabric
  quay := h.quay
  lock := h.lock
  tables := h.tables
  log := h.log
  pad := h.pad
  optics := h.optics
  tagRegs := h.tagRegs
  windowAt := h.windowAt
  cal := h.cal
  evtInputs := h.evtInputs
  evtAccs := h.evtAccs
  nhp := h.nhp
  gnss := h.gnss
  obsJob := h.obsJob
  rings := h.rings
  txSlots := h.txSlots
  nextSlot c := by rw [hc] at c; cases c
  raised := h.raised
  power := h.power
  fault := h.fault
  sessions := h.sessions
  timeOut := h.timeOut

theorem Only.set_raised {W : Option (List Nat)} {s t : State} (h : Only W s t) (hc : allows W F.raised = true) (v : List (Nat × Nat)) :
    Only W s { t with raised := v } where
  keeps := h.keeps.of_same rfl rfl rfl rfl rfl rfl
  rd := h.rd
  shadows := h.shadows
  hidden := h.hidden
  phase := h.phase
  released := h.released
  fresh := h.fresh
  cmd := h.cmd
  time := h.time
  refs := h.refs
  servo := h.servo
  flash := h.flash
  links := h.links
  grants := h.grants
  ptpSeq := h.ptpSeq
  tcal := h.tcal
  linkRun := h.linkRun
  fabric := h.fabric
  quay := h.quay
  lock := h.lock
  tables := h.tables
  log := h.log
  pad := h.pad
  optics := h.optics
  tagRegs := h.tagRegs
  windowAt := h.windowAt
  cal := h.cal
  evtInputs := h.evtInputs
  evtAccs := h.evtAccs
  nhp := h.nhp
  gnss := h.gnss
  obsJob := h.obsJob
  rings := h.rings
  txSlots := h.txSlots
  nextSlot := h.nextSlot
  raised c := by rw [hc] at c; cases c
  power := h.power
  fault := h.fault
  sessions := h.sessions
  timeOut := h.timeOut

theorem Only.set_power {W : Option (List Nat)} {s t : State} (h : Only W s t) (hc : allows W F.power = true) (v : Power) :
    Only W s { t with power := v } where
  keeps := h.keeps.of_same rfl rfl rfl rfl rfl rfl
  rd := h.rd
  shadows := h.shadows
  hidden := h.hidden
  phase := h.phase
  released := h.released
  fresh := h.fresh
  cmd := h.cmd
  time := h.time
  refs := h.refs
  servo := h.servo
  flash := h.flash
  links := h.links
  grants := h.grants
  ptpSeq := h.ptpSeq
  tcal := h.tcal
  linkRun := h.linkRun
  fabric := h.fabric
  quay := h.quay
  lock := h.lock
  tables := h.tables
  log := h.log
  pad := h.pad
  optics := h.optics
  tagRegs := h.tagRegs
  windowAt := h.windowAt
  cal := h.cal
  evtInputs := h.evtInputs
  evtAccs := h.evtAccs
  nhp := h.nhp
  gnss := h.gnss
  obsJob := h.obsJob
  rings := h.rings
  txSlots := h.txSlots
  nextSlot := h.nextSlot
  raised := h.raised
  power c := by rw [hc] at c; cases c
  fault := h.fault
  sessions := h.sessions
  timeOut := h.timeOut

theorem Only.set_fault {W : Option (List Nat)} {s t : State} (h : Only W s t) (hc : allows W F.fault = true) (v : Option FirstFault) :
    Only W s { t with fault := v } where
  keeps := h.keeps.of_same rfl rfl rfl rfl rfl rfl
  rd := h.rd
  shadows := h.shadows
  hidden := h.hidden
  phase := h.phase
  released := h.released
  fresh := h.fresh
  cmd := h.cmd
  time := h.time
  refs := h.refs
  servo := h.servo
  flash := h.flash
  links := h.links
  grants := h.grants
  ptpSeq := h.ptpSeq
  tcal := h.tcal
  linkRun := h.linkRun
  fabric := h.fabric
  quay := h.quay
  lock := h.lock
  tables := h.tables
  log := h.log
  pad := h.pad
  optics := h.optics
  tagRegs := h.tagRegs
  windowAt := h.windowAt
  cal := h.cal
  evtInputs := h.evtInputs
  evtAccs := h.evtAccs
  nhp := h.nhp
  gnss := h.gnss
  obsJob := h.obsJob
  rings := h.rings
  txSlots := h.txSlots
  nextSlot := h.nextSlot
  raised := h.raised
  power := h.power
  fault c := by rw [hc] at c; cases c
  sessions := h.sessions
  timeOut := h.timeOut

theorem allows_any {W : Option (List Nat)} (h : allows W F.params = true) (b : Nat) (hb : 62 ≤ b) : allows W b = true := by
  cases W with
  | none => rfl
  | some l =>
    simp only [allows] at h ⊢
    obtain ⟨x, hx, hxc⟩ := List.any_eq_true.mp h
    have h0 : Nat.beq x F.params = true := by
      rw [Bool.or_eq_true, Bool.and_eq_true] at hxc
      rcases hxc with h | h
      · exact h
      · exact h.1
    exact List.any_eq_true.mpr ⟨x, hx, by rw [h0, Nat.ble_eq_true_of_le hb]; simp⟩

/-- A list of fields allows no parameter to change. -/
theorem allows_fields {l : List Nat} (hl : (l.all fun x => Nat.blt 0 x && Nat.blt x 62) = true) {b : Nat} (hb : 62 ≤ b) :
    allows (some l) b = false := by
  simp only [List.all_eq_true, Bool.and_eq_true] at hl
  simp only [allows]
  rw [Bool.eq_false_iff]
  intro h
  obtain ⟨x, hx, hxb⟩ := List.any_eq_true.mp h
  obtain ⟨h0, h62⟩ := hl x hx
  have h0 := Nat.le_of_ble_eq_true h0
  have h62 := Nat.le_of_ble_eq_true h62
  rw [Bool.or_eq_true, Bool.and_eq_true] at hxb
  rcases hxb with h | ⟨h, _⟩
  · have := Nat.eq_of_beq_eq_true h; omega
  · have := Nat.eq_of_beq_eq_true h; simp only [F.params] at this; omega

theorem Only.write {W : Option (List Nat)} {s t : State} (h : Only W s t) {b : Nat} (hc : 62 ≤ b → allows W b = true) (i v : Nat) :
    Only W s (t.wr b i v) where
  keeps := ⟨h.keeps.pending, h.keeps.clock, h.keeps.out, fun x => State.wr_wf t b i v (h.keeps.regs x), h.keeps.mem, h.keeps.shadows⟩
  rd c j hl hn := by
    refine (State.rd_wr_base t (fun e => ?_) ..).trans (h.rd c j hl hn)
    rw [e, hc (e ▸ hl)] at hn; cases hn
  shadows := h.shadows
  hidden := h.hidden
  phase := h.phase
  released := h.released
  fresh := h.fresh
  cmd := h.cmd
  time := h.time
  refs := h.refs
  servo := h.servo
  flash := h.flash
  links := h.links
  grants := h.grants
  ptpSeq := h.ptpSeq
  tcal := h.tcal
  linkRun := h.linkRun
  fabric := h.fabric
  quay := h.quay
  lock := h.lock
  tables := h.tables
  log := h.log
  pad := h.pad
  optics := h.optics
  tagRegs := h.tagRegs
  windowAt := h.windowAt
  cal := h.cal
  evtInputs := h.evtInputs
  evtAccs := h.evtAccs
  nhp := h.nhp
  gnss := h.gnss
  obsJob := h.obsJob
  rings := h.rings
  txSlots := h.txSlots
  nextSlot := h.nextSlot
  raised := h.raised
  power := h.power
  fault := h.fault
  sessions := h.sessions
  timeOut := h.timeOut

theorem Only.wr {W : Option (List Nat)} {s t : State} (h : Only W s t) {b : Nat} (hc : allows W b = true) (i v : Nat) :
    Only W s (t.wr b i v) := h.write (fun _ => hc) i v

theorem Only.emit {W : Option (List Nat)} {s t : State} (h : Only W s t) (e : Emission) : Only W s (t.emit e) where
  keeps := ⟨h.keeps.pending, h.keeps.clock, h.keeps.out.trans (List.prefix_append _ _), h.keeps.regs, h.keeps.mem, h.keeps.shadows⟩
  rd := h.rd
  shadows := h.shadows
  hidden := h.hidden
  phase := h.phase
  released := h.released
  fresh := h.fresh
  cmd := h.cmd
  time := h.time
  refs := h.refs
  servo := h.servo
  flash := h.flash
  links := h.links
  grants := h.grants
  ptpSeq := h.ptpSeq
  tcal := h.tcal
  linkRun := h.linkRun
  fabric := h.fabric
  quay := h.quay
  lock := h.lock
  tables := h.tables
  log := h.log
  pad := h.pad
  optics := h.optics
  tagRegs := h.tagRegs
  windowAt := h.windowAt
  cal := h.cal
  evtInputs := h.evtInputs
  evtAccs := h.evtAccs
  nhp := h.nhp
  gnss := h.gnss
  obsJob := h.obsJob
  rings := h.rings
  txSlots := h.txSlots
  nextSlot := h.nextSlot
  raised := h.raised
  power := h.power
  fault := h.fault
  sessions := h.sessions
  timeOut := h.timeOut

/-! ## Writes of registers and counters -/

section
variable {W : Option (List Nat)} {s t : State} (h : Only W s t) {b : Nat} (hb : allows W b = true)
include h hb

theorem Only.orIn (i m : Nat) : Only W s (t.orIn b i m) := h.wr hb _ _

theorem Only.wrS (w i : Nat) (v : Int) : Only W s (t.wrS w b i v) := h.wr hb _ _

theorem Only.peak (i v : Nat) : Only W s (t.peak b i v) := by
  unfold State.peak; exact Only.cond _ (h.wr hb _ _) h

theorem Only.wrBoth (hs : allows W F.shadows = true) (i v : Nat) : Only W s (t.wrBoth b i v) := by
  unfold State.wrBoth
  exact Only.set_shadows (h.wr hb i v) hs _ fun hr => rising_without _ _ hr

theorem Only.count_plain (hn : (counterSet.find? fun c => c.1 == b).isNone = true) (i n : Nat) : Only W s (t.count b i n) := by
  have hn' : counterIndex b i = none := by unfold counterIndex; simpa using hn
  unfold State.count
  rw [hn']
  exact h.wr hb _ _

theorem Only.bumpSet (ho : allows W P.OBS_OVF = true) (i c n : Nat) : Only W s (t.bumpSet b i c n) := by
  unfold State.bumpSet
  exact Only.cond _ (h.wr hb _ _) ((h.wr hb _ _).wr ho _ _)

theorem Only.count (ho : allows W P.OBS_OVF = true) (hh : allows W F.hidden = true) (i n : Nat) : Only W s (t.count b i n) := by
  unfold State.count
  split
  · exact h.wr hb _ _
  · exact Only.cond _ (h.bumpSet hb ho _ _ _) (Only.set_hidden h hh _)

end

/-! The same where any parameter may change, for a parameter that is not known by name. -/

section
variable {W : Option (List Nat)} {s t : State} (h : Only W s t) (hp : allows W F.params = true) (b : Nat)
include h hp

theorem Only.wr_any (i v : Nat) : Only W s (t.wr b i v) := h.write (allows_any hp b) i v

theorem Only.orIn_any (i m : Nat) : Only W s (t.orIn b i m) := h.wr_any hp b _ _

theorem Only.wrS_any (w i : Nat) (v : Int) : Only W s (t.wrS w b i v) := h.wr_any hp b _ _

theorem Only.peak_any (i v : Nat) : Only W s (t.peak b i v) := by
  unfold State.peak; exact Only.cond _ (h.wr_any hp b _ _) h

theorem Only.wrBoth_any (hs : allows W F.shadows = true) (i v : Nat) : Only W s (t.wrBoth b i v) := by
  unfold State.wrBoth
  exact Only.set_shadows (h.wr_any hp b i v) hs _ fun hr => rising_without _ _ hr

theorem Only.bumpSet_any (i c n : Nat) : Only W s (t.bumpSet b i c n) := by
  unfold State.bumpSet
  exact Only.cond _ (h.wr_any hp b _ _) ((h.wr_any hp b _ _).wr_any hp _ _ _)

theorem Only.count_any (hh : allows W F.hidden = true) (i n : Nat) : Only W s (t.count b i n) := by
  unfold State.count
  split
  · exact h.wr_any hp b _ _
  · exact Only.cond _ (h.bumpSet_any hp b _ _ _) (Only.set_hidden h hh _)

end

theorem Only.wrShadow {W : Option (List Nat)} {s t : State} (h : Only W s t) (hs : allows W F.shadows = true) (b i v : Nat) : Only W s (t.wrShadow b i v) := by
  unfold State.wrShadow
  refine Only.set_shadows h hs _ fun hr => ?_
  unfold store
  split
  · exact rising_without _ _ hr
  · exact rising_place ltPair_trans ltPair_total _ _ (rising_without _ _ hr) (without_key _ _)

theorem Only.setCmd {W : Option (List Nat)} {s t : State} (h : Only W s t) (hc : allows W F.cmd = true) (f : Command → Command)
    (hf : (f t.cmd).sessions.map (fun x => (x.uid, x.num)) = t.cmd.sessions.map fun x => (x.uid, x.num)) : Only W s (t.setCmd f) :=
  Only.set_cmd h hc _ hf

/-- A change of the command state that may also change which sessions there are. -/
theorem Only.resession {W : Option (List Nat)} {s t : State} (h : Only W s t) (hc : allows W F.cmd = true)
    (hs : allows W F.sessions = true) (f : Command → Command) : Only W s (t.setCmd f) where
  keeps := h.keeps.of_same rfl rfl rfl rfl rfl rfl
  rd := h.rd
  shadows := h.shadows
  hidden := h.hidden
  phase := h.phase
  released := h.released
  fresh := h.fresh
  cmd c := by rw [hc] at c; cases c
  time := h.time
  refs := h.refs
  servo := h.servo
  flash := h.flash
  links := h.links
  grants := h.grants
  ptpSeq := h.ptpSeq
  tcal := h.tcal
  linkRun := h.linkRun
  fabric := h.fabric
  quay := h.quay
  lock := h.lock
  tables := h.tables
  log := h.log
  pad := h.pad
  optics := h.optics
  tagRegs := h.tagRegs
  windowAt := h.windowAt
  cal := h.cal
  evtInputs := h.evtInputs
  evtAccs := h.evtAccs
  nhp := h.nhp
  gnss := h.gnss
  obsJob := h.obsJob
  rings := h.rings
  txSlots := h.txSlots
  nextSlot := h.nextSlot
  raised := h.raised
  power := h.power
  fault := h.fault
  sessions c := by rw [hs] at c; cases c
  timeOut := h.timeOut

/-- A change of the time state that may also set module time. -/
theorem Only.retime {W : Option (List Nat)} {s t : State} (h : Only W s t) (hc : allows W F.time = true)
    (hs : allows W F.timeOut = true) (v : Timing) : Only W s { t with time := v } where
  keeps := h.keeps.of_same rfl rfl rfl rfl rfl rfl
  rd := h.rd
  shadows := h.shadows
  hidden := h.hidden
  phase := h.phase
  released := h.released
  fresh := h.fresh
  cmd := h.cmd
  time c := by rw [hc] at c; cases c
  refs := h.refs
  servo := h.servo
  flash := h.flash
  links := h.links
  grants := h.grants
  ptpSeq := h.ptpSeq
  tcal := h.tcal
  linkRun := h.linkRun
  fabric := h.fabric
  quay := h.quay
  lock := h.lock
  tables := h.tables
  log := h.log
  pad := h.pad
  optics := h.optics
  tagRegs := h.tagRegs
  windowAt := h.windowAt
  cal := h.cal
  evtInputs := h.evtInputs
  evtAccs := h.evtAccs
  nhp := h.nhp
  gnss := h.gnss
  obsJob := h.obsJob
  rings := h.rings
  txSlots := h.txSlots
  nextSlot := h.nextSlot
  raised := h.raised
  power := h.power
  fault := h.fault
  sessions := h.sessions
  timeOut c := by rw [hs] at c; cases c

theorem Only.setPad {W : Option (List Nat)} {s t : State} (h : Only W s t) (hc : allows W F.pad = true) (f : Scratchpad → Scratchpad)
    (hf : Memory.wf t.pad.mem = true → Memory.wf (f t.pad).mem = true) : Only W s (t.setPad f) :=
  Only.set_pad h hc _ hf

theorem Only.setSession {W : Option (List Nat)} {s t : State} (h : Only W s t) (hc : allows W F.cmd = true) (u : Nat) (f : Session → Session)
    (hf : ∀ x, ((f x).uid, (f x).num) = (x.uid, x.num)) : Only W s (t.setSession u f) := by
  unfold State.setSession State.setCmd
  refine Only.set_cmd h hc _ ?_
  simp only [updBy, List.map_map]
  refine List.map_congr_left fun x _ => ?_
  simp only [Function.comp]
  split
  · exact hf x
  · rfl

theorem Only.padWrite {W : Option (List Nat)} {s t : State} (h : Only W s t) (hc : allows W F.pad = true) (a : Nat) (bs : List Byte) :
    Only W s (t.padWrite a bs) := by
  unfold State.padWrite
  exact Only.set_pad h hc _ fun hm => padStore_wf a bs hm

/-! ## Outcomes and pairs -/

/-- What a command's next state leaves as it was. -/
structure OnlyO (W : Option (List Nat)) (s : State) (o : Host.Outcome State Fault Refusal) : Prop where
  next : ∀ t, o = .next t → Only W s t

theorem OnlyO.of {W : Option (List Nat)} {s t : State} (h : Only W s t) : OnlyO W s (.next t) :=
  ⟨fun _ e => by cases e; exact h⟩

theorem OnlyO.cond {W : Option (List Nat)} {s : State} {a b : Host.Outcome State Fault Refusal} (c : Prop) [Decidable c]
    (h : OnlyO W s a) (g : OnlyO W s b) : OnlyO W s (if c then a else b) := by split <;> assumption

theorem OnlyO.step {V W : Option (List Nat)} {s t : State} {o : Host.Outcome State Fault Refusal} (h : Only W s t) (g : OnlyO V t o)
    (hw : within V W = true) : OnlyO W s o :=
  ⟨fun u e => h.step (g.next u e) hw⟩

/-- What an operation that answers a state and something else leaves as it was. -/
structure OnlyP {α : Type} (W : Option (List Nat)) (s : State) (x : State × α) : Prop where
  fst : Only W s x.1

theorem OnlyP.of {α : Type} {W : Option (List Nat)} {s t : State} {a : α} (h : Only W s t) : OnlyP W s (t, a) := ⟨h⟩

theorem OnlyP.cond {α : Type} {W : Option (List Nat)} {s : State} {a b : State × α} (c : Prop) [Decidable c]
    (h : OnlyP W s a) (g : OnlyP W s b) : OnlyP W s (if c then a else b) := by split <;> assumption

theorem OnlyP.step {α : Type} {V W : Option (List Nat)} {s t : State} {x : State × α} (h : Only W s t) (g : OnlyP V t x)
    (hw : within V W = true) : OnlyP W s x := ⟨h.step g.fst hw⟩

theorem OnlyP.mono {α : Type} {V W : Option (List Nat)} {s : State} {x : State × α} (g : OnlyP V s x) (hw : within V W = true) : OnlyP W s x :=
  ⟨g.fst.mono hw⟩

theorem Only.fst {α : Type} {V W : Option (List Nat)} {s t : State} {x : State × α} (h : Only W s t) (g : OnlyP V t x)
    (hw : within V W = true) : Only W s x.1 := h.step g.fst hw

theorem Only.pair {α : Type} {V W : Option (List Nat)} {s t u : State} {a : α} {x : State × α} (e : x = (u, a)) (g : OnlyP V t x)
    (h : Only W s t) (hw : within V W = true) : Only W s u := by
  subst e; exact h.step g.fst hw

/-! ## Local definitions: what is known of a state that has been named is all that is carried on -/

theorem Only.with_state {W : Option (List Nat)} {s t : State} {u : State} (h : Only W s t) (k : Only W s t → Only W s u) : Only W s u := k h

theorem Only.with_pair {α : Type} {W : Option (List Nat)} {s : State} {t : State × α} {u : State} (h : OnlyP W s t)
    (k : Only W s t.1 → Only W s u) : Only W s u := k h.fst

theorem OnlyO.with_state {W : Option (List Nat)} {s t : State} {u : Host.Outcome State Fault Refusal} (h : Only W s t) (k : Only W s t → OnlyO W s u) : OnlyO W s u := k h

theorem OnlyO.with_pair {α : Type} {W : Option (List Nat)} {s : State} {t : State × α} {u : Host.Outcome State Fault Refusal} (h : OnlyP W s t)
    (k : Only W s t.1 → OnlyO W s u) : OnlyO W s u := k h.fst

theorem OnlyP.with_state {β : Type} {W : Option (List Nat)} {s t : State} {u : State × β} (h : Only W s t) (k : Only W s t → OnlyP W s u) : OnlyP W s u := k h

theorem OnlyP.with_pair {β : Type} {α : Type} {W : Option (List Nat)} {s : State} {t : State × α} {u : State × β} (h : OnlyP W s t)
    (k : Only W s t.1 → OnlyP W s u) : OnlyP W s u := k h.fst

/-- A fold that carries a state and something else. -/
theorem OnlyP.fold {α β : Type} {W : Option (List Nat)} {s : State} (f : State × β → α → State × β) (l : List α) {x : State × β}
    (h : ∀ y a, OnlyP W y.1 (f y a)) (g : OnlyP W s x) : OnlyP W s (l.foldl f x) := by
  induction l generalizing x with
  | nil => exact g
  | cons a l ih => exact ih ⟨g.fst.trans (h x a).fst⟩

end Sys2Proof.Machine
end

