-- ==== Sys2Proof/Laws/OnlyOps.lean ====
section
/-! SUPPORT. What each operation of Machine/Ops.lean can change. -/

set_option linter.unusedTactic false
set_option linter.unreachableTactic false
set_option linter.tactic.unusedName false

namespace Sys2Proof.Machine

theorem State.configUp_only (s : State) :
    Only (some [P.SYS_CONFIG_GEN]) s (State.configUp s) := by
  unfold State.configUp
  repeat' (first
    | with_reducible exact Only.refl _ _
    | with_reducible assumption
    | with_reducible apply Only.wr ?_ ?_ _ _
    | exact Eq.refl _)

theorem State.setMon_only (s : State) (r : ℕ) (f : RefMon → RefMon) :
    Only (some [F.refs]) s (State.setMon s r f) := by
  unfold State.setMon
  repeat' (first
    | with_reducible exact Only.refl _ _
    | with_reducible assumption
    | exact Eq.refl _
    | with_reducible apply Only.set_refs ?_ ?_ _)

theorem State.setCore_only (s : State) (c : ℕ) (f : Core → Core) :
    Only (some [F.time]) s (State.setCore s c f) := by
  unfold State.setCore
  repeat' (first
    | with_reducible exact Only.refl _ _
    | with_reducible assumption
    | with_reducible apply Only.cond _ ?_ ?_
    | exact Eq.refl _
    | split
    | with_reducible apply Only.set_time ?_ ?_ _ ?_)

theorem State.setServo_only (s : State) (f : Servo → Servo) :
    Only (some [F.servo]) s (State.setServo s f) := by
  unfold State.setServo
  repeat' (first
    | with_reducible exact Only.refl _ _
    | with_reducible assumption
    | exact Eq.refl _
    | with_reducible apply Only.set_servo ?_ ?_ _)

theorem State.setPower_only (s : State) (f : Power → Power) :
    Only (some [F.power]) s (State.setPower s f) := by
  unfold State.setPower
  repeat' (first
    | with_reducible exact Only.refl _ _
    | with_reducible assumption
    | exact Eq.refl _
    | with_reducible apply Only.set_power ?_ ?_ _)

theorem State.setRing_only (s : State) (g : ℕ) (f : Ring → Ring) :
    Only (some [F.rings]) s (State.setRing s g f) := by
  unfold State.setRing
  repeat' (first
    | with_reducible exact Only.refl _ _
    | with_reducible assumption
    | exact Eq.refl _
    | with_reducible apply Only.set_rings ?_ ?_ _)

theorem State.armLeap_only (s : State) :
    Only (some [F.time]) s (State.armLeap s) := by
  unfold State.armLeap
  repeat' (first
    | (extract_lets +onlyGivenNames t; refine Only.with_state (t := t) ?_ fun _ => ?_; subst t; rotate_left; clear_value t)
    | (extract_lets +onlyGivenNames t; have q : ℕ := t; clear q; clear_value t)
    | (extract_lets +onlyGivenNames t; have q : Bool := t; clear q; clear_value t)
    | (extract_lets +onlyGivenNames t; have q : ℤ := t; clear q; clear_value t)
    | (extract_lets +onlyGivenNames t; have q : Option _ := t; clear q; clear_value t)
    | (extract_lets +onlyGivenNames t; have q : List _ := t; clear q; clear_value t)
    | (extract_lets +onlyGivenNames t; have q : _ × _ := t; clear q; clear_value t)
    | with_reducible exact Only.refl _ _
    | with_reducible assumption
    | with_reducible apply Only.cond _ ?_ ?_
    | exact Eq.refl _
    | extract_lets
    | split
    | with_reducible apply Only.set_time ?_ ?_ _ ?_)

theorem State.announceLeap_only (s : State) (l : ℕ) :
    Only (some [F.shadows, F.time, P.TBS_LEAP]) s (State.announceLeap s l) := by
  unfold State.announceLeap
  repeat' (first
    | with_reducible exact Only.refl _ _
    | with_reducible assumption
    | with_reducible apply Only.cond _ ?_ ?_
    | with_reducible apply Only.wrBoth ?_ ?_ ?_ _ _
    | with_reducible apply Only.step ?_ (State.armLeap_only ..) ?_
    | exact Eq.refl _
    | split)

end Sys2Proof.Machine
end

