-- ==== Sys2Proof/Laws/OnlyFlags.lean ====
section
/-! SUPPORT. What each operation of Machine/Flags.lean can change. -/

set_option linter.unusedTactic false
set_option linter.unreachableTactic false
set_option linter.tactic.unusedName false

namespace Sys2Proof.Machine

theorem State.refreshBound_only (s : State) :
    Only (some [F.servo, P.TBS_BOUND_NOW, P.TBS_BOUND_PS]) s (State.refreshBound s) := by
  unfold State.refreshBound
  repeat' (first
    | (extract_lets +onlyGivenNames t; refine Only.with_state (t := t) ?_ fun _ => ?_; subst t; rotate_left; clear_value t)
    | (extract_lets +onlyGivenNames t; clear_value t)
    | with_reducible exact Only.refl _ _
    | with_reducible assumption
    | with_reducible apply Only.cond _ ?_ ?_
    | with_reducible apply Only.wr ?_ ?_ _ _
    | with_reducible apply Only.step ?_ (State.setServo_only ..) ?_
    | exact Eq.refl _
    | extract_lets
    | split)

theorem State.setLink_only (s : State) (p : ℕ) (f : Link → Link) :
    Only (some [F.links]) s (State.setLink s p f) := by
  unfold State.setLink
  repeat' (first
    | with_reducible exact Only.refl _ _
    | with_reducible assumption
    | with_reducible apply Only.cond _ ?_ ?_
    | exact Eq.refl _
    | split
    | with_reducible apply Only.set_links ?_ ?_ _)

theorem State.stamped_only (s : State) (p : ℕ) :
    Only (some [P.TBS_OVER_LIMIT_COUNT]) s (State.stamped s p) := by
  unfold State.stamped
  repeat' (first
    | with_reducible exact Only.refl _ _
    | with_reducible assumption
    | with_reducible apply Only.cond _ ?_ ?_
    | with_reducible apply Only.count_plain ?_ ?_ (by decide) _ _
    | with_reducible apply Only.count ?_ ?_ ?_ ?_ _ _
    | exact Eq.refl _
    | split)

theorem State.rxStamp_only (s : State) (p : ℕ) (r : RawStamp) :
    OnlyP (some [P.TBS_OVER_LIMIT_COUNT]) s (State.rxStamp s p r) := by
  unfold State.rxStamp
  repeat' (first
    | with_reducible exact Only.refl _ _
    | with_reducible assumption
    | with_reducible apply OnlyP.of ?_
    | with_reducible apply Only.step ?_ (State.stamped_only ..) ?_
    | exact Eq.refl _)

theorem State.txStamp_only (s : State) (p : ℕ) (r : RawStamp) :
    OnlyP (some [P.TBS_OVER_LIMIT_COUNT]) s (State.txStamp s p r) := by
  unfold State.txStamp
  repeat' (first
    | with_reducible exact Only.refl _ _
    | with_reducible assumption
    | with_reducible apply OnlyP.of ?_
    | with_reducible apply Only.step ?_ (State.stamped_only ..) ?_
    | exact Eq.refl _)

theorem State.steerNow_only (s : State) :
    Only (some [F.servo]) s (State.steerNow s) := by
  unfold State.steerNow
  repeat' (first
    | with_reducible exact Only.refl _ _
    | with_reducible assumption
    | with_reducible apply Only.step ?_ (State.setServo_only ..) ?_
    | exact Eq.refl _
    | split)

theorem State.follow_only (s : State) (r : ℕ) (phase : ℤ) (freq : ℤ) :
    Only (some [F.servo]) s (State.follow s r phase freq) := by
  unfold State.follow
  repeat' (first
    | (extract_lets +onlyGivenNames t; refine Only.with_state (t := t) ?_ fun _ => ?_; subst t; rotate_left; clear_value t)
    | (extract_lets +onlyGivenNames t; clear_value t)
    | with_reducible exact Only.refl _ _
    | with_reducible assumption
    | with_reducible apply Only.step ?_ (State.setServo_only ..) ?_
    | exact Eq.refl _
    | extract_lets)

theorem State.noteApplied_only (s : State) :
    Only (some [F.time]) s (State.noteApplied s) := by
  unfold State.noteApplied
  repeat' (first
    | with_reducible exact Only.refl _ _
    | with_reducible assumption
    | with_reducible apply Only.step ?_ (State.setCore_only ..) ?_
    | exact Eq.refl _)

end Sys2Proof.Machine
end

