-- ==== Sys2Proof/Laws/OnlyReply.lean ====
section
/-! SUPPORT. What each operation of Machine/Reply.lean can change. -/

set_option linter.unusedTactic false
set_option linter.unreachableTactic false
set_option linter.tactic.unusedName false

namespace Sys2Proof.Machine

theorem State.writeIndex_only (s : State) (g : ℕ) (index : ℕ) :
    Only (some [F.rings]) s (State.writeIndex s g index) := by
  unfold State.writeIndex
  repeat' (first
    | with_reducible exact Only.refl _ _
    | with_reducible assumption
    | with_reducible apply Only.cond _ ?_ ?_
    | with_reducible apply Only.emit ?_ _
    | with_reducible apply Only.step ?_ (State.setRing_only ..) ?_
    | exact Eq.refl _
    | split)

theorem State.writeReply_only (s : State) (n : ℕ) (bs : List Byte) :
    Only (some [F.rings]) s (State.writeReply s n bs) := by
  unfold State.writeReply
  repeat' (first
    | (extract_lets +onlyGivenNames t; refine Only.with_state (t := t) ?_ fun _ => ?_; subst t; rotate_left; clear_value t)
    | (extract_lets +onlyGivenNames t; clear_value t)
    | with_reducible exact Only.refl _ _
    | with_reducible assumption
    | with_reducible apply Only.emit ?_ _
    | with_reducible apply Only.step ?_ (State.setRing_only ..) ?_
    | with_reducible apply Only.step ?_ (State.writeIndex_only ..) ?_
    | exact Eq.refl _
    | extract_lets
    | split)

theorem State.nhpSend_only (s : State) (p : ℕ) (type : ℕ) (body : List Byte) :
    Only (some [P.TBS_OVER_LIMIT_COUNT]) s (State.nhpSend s p type body) := by
  unfold State.nhpSend
  repeat' (first
    | with_reducible exact Only.refl _ _
    | with_reducible assumption
    | with_reducible apply Only.cond _ ?_ ?_
    | with_reducible apply Only.emit ?_ _
    | with_reducible apply Only.step ?_ (State.stamped_only ..) ?_
    | exact Eq.refl _
    | split)

theorem State.sendSegments_only (s : State) (p : ℕ) (type : ℕ) (id : ℕ) (peer : ℕ) (bs : List Byte) :
    Only (some [P.TBS_OVER_LIMIT_COUNT]) s (State.sendSegments s p type id peer bs) := by
  unfold State.sendSegments
  repeat' (first
    | (extract_lets +onlyGivenNames t; refine Only.with_state (t := t) ?_ fun _ => ?_; subst t; rotate_left; clear_value t)
    | (extract_lets +onlyGivenNames t; refine Only.with_pair (t := t) ?_ fun _ => ?_; subst t; rotate_left; clear_value t)
    | (extract_lets +onlyGivenNames t; clear_value t)
    | with_reducible exact Only.refl _ _
    | with_reducible assumption
    | with_reducible apply Only.fold _ _ (fun _ _ => ?_) ?_
    | with_reducible apply OnlyP.fold _ _ (fun _ _ => ?_) ?_
    | with_reducible apply OnlyP.of ?_
    | with_reducible apply Only.step ?_ (State.nhpSend_only ..) ?_
    | exact Eq.refl _
    | extract_lets)

theorem State.deliver_only (s : State) (tr : Transport) (chan : ℕ) (p : Packet) :
    Only (some [F.cmd, F.rings, P.TBS_OVER_LIMIT_COUNT]) s (State.deliver s tr chan p) := by
  unfold State.deliver
  repeat' (first
    | with_reducible exact Only.refl _ _
    | with_reducible assumption
    | with_reducible apply Only.cond _ ?_ ?_
    | with_reducible apply Only.setCmd ?_ ?_ _ ?_
    | with_reducible apply Only.emit ?_ _
    | with_reducible apply Only.step ?_ (State.sendSegments_only ..) ?_
    | with_reducible apply Only.step ?_ (State.writeReply_only ..) ?_
    | exact Eq.refl _
    | split)

theorem State.sendPacket_only (s : State) (tr : Transport) (chan : ℕ) (p : Packet) :
    Only (some [F.cmd, F.rings, P.CMD_REFUSED_COUNT, P.TBS_OVER_LIMIT_COUNT]) s (State.sendPacket s tr chan p) := by
  unfold State.sendPacket
  repeat' (first
    | (extract_lets +onlyGivenNames t; refine Only.with_state (t := t) ?_ fun _ => ?_; subst t; rotate_left; clear_value t)
    | (extract_lets +onlyGivenNames t; clear_value t)
    | with_reducible exact Only.refl _ _
    | with_reducible assumption
    | with_reducible apply Only.cond _ ?_ ?_
    | with_reducible apply Only.count_plain ?_ ?_ (by decide) _ _
    | with_reducible apply Only.count ?_ ?_ ?_ ?_ _ _
    | with_reducible apply Only.step ?_ (State.deliver_only ..) ?_
    | exact Eq.refl _
    | extract_lets
    | split)

theorem State.replyPart_only (s : State) (o : Origin) (status : ℕ) (payload : List Byte) :
    Only (some [F.cmd, F.rings, P.CMD_REFUSED_COUNT, P.TBS_OVER_LIMIT_COUNT]) s (State.replyPart s o status payload) := by
  unfold State.replyPart
  repeat' (first
    | with_reducible exact Only.refl _ _
    | with_reducible assumption
    | with_reducible apply Only.cond _ ?_ ?_
    | with_reducible apply Only.step ?_ (State.sendPacket_only ..) ?_
    | exact Eq.refl _
    | split)

theorem State.accept_only (s : State) (o : Origin) :
    Only (some [F.cmd, F.rings, P.CMD_REFUSED_COUNT, P.TBS_OVER_LIMIT_COUNT]) s (State.accept s o) := by
  unfold State.accept
  repeat' (first
    | with_reducible exact Only.refl _ _
    | with_reducible assumption
    | with_reducible apply Only.cond _ ?_ ?_
    | with_reducible apply Only.setSession ?_ ?_ _ _ ?_
    | with_reducible apply Only.step ?_ (State.replyPart_only ..) ?_
    | exact Eq.refl _
    | split
    | exact fun _ => rfl
    | (intro _; split <;> rfl))

theorem State.finish_only (s : State) (o : Origin) (status : ℕ) (payload : List Byte) :
    Only (some [F.cmd, F.rings, P.CMD_REFUSED_COUNT, P.TBS_OVER_LIMIT_COUNT]) s (State.finish s o status payload) := by
  unfold State.finish
  repeat' (first
    | (extract_lets +onlyGivenNames t; refine Only.with_state (t := t) ?_ fun _ => ?_; subst t; rotate_left; clear_value t)
    | (extract_lets +onlyGivenNames t; clear_value t)
    | with_reducible exact Only.refl _ _
    | with_reducible assumption
    | with_reducible apply Only.cond _ ?_ ?_
    | with_reducible apply Only.setSession ?_ ?_ _ _ ?_
    | with_reducible apply Only.step ?_ (State.sendPacket_only ..) ?_
    | exact Eq.refl _
    | extract_lets
    | split
    | exact fun _ => rfl
    | (intro _; split <;> rfl))

theorem State.finishOpen_only (s : State) (o : Origin) (status : ℕ) (payload : List Byte) :
    Only (some [F.cmd, F.rings, P.CMD_REFUSED_COUNT, P.TBS_OVER_LIMIT_COUNT]) s (State.finishOpen s o status payload) := by
  unfold State.finishOpen
  repeat' (first
    | with_reducible exact Only.refl _ _
    | with_reducible assumption
    | with_reducible apply Only.step ?_ (State.sendPacket_only ..) ?_
    | exact Eq.refl _)

theorem State.closeSession_only (s : State) (n : Nat) :
    Only (some [F.cmd, F.sessions, F.rings, P.CMD_REFUSED_COUNT, P.TBS_OVER_LIMIT_COUNT, P.CMD_SESSION_STATE, P.CMD_SESSION_PRIV, P.CMD_SESSION_TRANSPORT]) s
      (State.closeSession s n) := by
  unfold State.closeSession
  split
  · exact Only.refl _ _
  · dsimp only
    have h : Only (some [F.cmd, F.sessions]) s (s.setCmd fun c => { c with sessions := dropBy Session.num n c.sessions }) := by
      constructor <;> intros <;> first | rfl | exact Keeps.of_same (Keeps.refl s) rfl rfl rfl rfl rfl rfl | contradiction
    have h : Only (some [F.cmd, F.sessions, F.rings, P.CMD_REFUSED_COUNT, P.TBS_OVER_LIMIT_COUNT, P.CMD_SESSION_STATE,
        P.CMD_SESSION_PRIV, P.CMD_SESSION_TRANSPORT]) s ((((s.setCmd fun c => { c with sessions := dropBy Session.num n c.sessions }).wr
          P.CMD_SESSION_STATE (n - 1) 0).wr P.CMD_SESSION_PRIV (n - 1) 0).wr P.CMD_SESSION_TRANSPORT (n - 1) 0) :=
      (((h.mono rfl).wr rfl _ _).wr rfl _ _).wr rfl _ _
    split
    · exact h.step (State.finishOpen_only ..) rfl
    · exact h

theorem State.takeWaiting_only (s : State) (w : Waiting) :
    OnlyP (some [F.cmd]) s (State.takeWaiting s w) := by
  unfold State.takeWaiting
  repeat' (first
    | with_reducible exact Only.refl _ _
    | with_reducible assumption
    | with_reducible apply OnlyP.of ?_
    | with_reducible apply Only.setSession ?_ ?_ _ _ ?_
    | exact Eq.refl _
    | split
    | exact fun _ => rfl
    | (intro _; split <;> rfl))

theorem State.noticeTo_only (s : State) (code : ℕ) (data : List Byte) (x : Session) :
    Only (some [F.cmd, F.rings, P.CMD_NOTICE_DROP]) s (State.noticeTo s code data x) := by
  unfold State.noticeTo
  repeat' (first
    | (extract_lets +onlyGivenNames t; refine Only.with_state (t := t) ?_ fun _ => ?_; subst t; rotate_left; clear_value t)
    | (extract_lets +onlyGivenNames t; clear_value t)
    | with_reducible exact Only.refl _ _
    | with_reducible assumption
    | with_reducible apply Only.cond _ ?_ ?_
    | with_reducible apply Only.setCmd ?_ ?_ _ ?_
    | with_reducible apply Only.setSession ?_ ?_ _ _ ?_
    | with_reducible apply Only.emit ?_ _
    | with_reducible apply Only.count_plain ?_ ?_ (by decide) _ _
    | with_reducible apply Only.count ?_ ?_ ?_ ?_ _ _
    | with_reducible apply Only.step ?_ (State.writeReply_only ..) ?_
    | exact Eq.refl _
    | extract_lets
    | split
    | exact fun _ => rfl
    | (intro _; split <;> rfl))

theorem State.notice_only (s : State) (code : ℕ) (data : List Byte) :
    Only (some [F.cmd, F.rings, P.CMD_NOTICE_DROP]) s (State.notice s code data) := by
  unfold State.notice
  repeat' (first
    | with_reducible exact Only.refl _ _
    | with_reducible assumption
    | with_reducible apply Only.fold _ _ (fun _ _ => ?_) ?_
    | with_reducible apply OnlyP.fold _ _ (fun _ _ => ?_) ?_
    | with_reducible apply OnlyP.of ?_
    | with_reducible apply OnlyP.cond _ ?_ ?_
    | with_reducible apply Only.cond _ ?_ ?_
    | with_reducible apply Only.step ?_ (State.noticeTo_only ..) ?_
    | exact Eq.refl _
    | split)

theorem State.sticky_only (s : State) (n : ℕ) (detail : ℕ) :
    Only (some [F.cmd, F.fault, F.rings, P.CMD_NOTICE_DROP, P.HLT_FAULT_COUNT, P.HLT_STICKY]) s (State.sticky s n detail) := by
  unfold State.sticky
  repeat' (first
    | (extract_lets +onlyGivenNames t; refine Only.with_state (t := t) ?_ fun _ => ?_; subst t; rotate_left; clear_value t)
    | (extract_lets +onlyGivenNames t; clear_value t)
    | with_reducible exact Only.refl _ _
    | with_reducible assumption
    | with_reducible apply Only.orIn ?_ ?_ _ _
    | with_reducible apply Only.count_plain ?_ ?_ (by decide) _ _
    | with_reducible apply Only.count ?_ ?_ ?_ ?_ _ _
    | with_reducible apply Only.step ?_ (State.notice_only ..) ?_
    | exact Eq.refl _
    | extract_lets
    | split
    | with_reducible apply Only.set_fault ?_ ?_ _)

theorem State.failInternal_only (s : State) (o : Origin) :
    Only (some [F.cmd, F.fault, F.fresh, F.rings, P.CMD_NOTICE_DROP, P.CMD_REFUSED_COUNT, P.HLT_FAULT_COUNT, P.HLT_STICKY, P.TBS_OVER_LIMIT_COUNT]) s (State.failInternal s o) := by
  unfold State.failInternal
  repeat' (first
    | with_reducible exact Only.refl _ _
    | with_reducible assumption
    | with_reducible apply Only.step ?_ (State.finish_only ..) ?_
    | with_reducible apply Only.step ?_ (State.sticky_only ..) ?_
    | exact Eq.refl _
    | with_reducible apply Only.set_fresh ?_ ?_ _)

end Sys2Proof.Machine
end

