-- ==== Sys2Proof/Laws/OnlyRefs.lean ====
section
/-! SUPPORT. What each operation of Machine/Refs.lean can change. -/

set_option linter.unusedTactic false
set_option linter.unreachableTactic false
set_option linter.tactic.unusedName false

namespace Sys2Proof.Machine

theorem State.showBref_only (s : State) (r : ℕ) (b : ℕ) :
    Only (some [F.refs, P.REF_BREF]) s (State.showBref s r b) := by
  unfold State.showBref
  repeat' (first
    | with_reducible exact Only.refl _ _
    | with_reducible assumption
    | with_reducible apply Only.cond _ ?_ ?_
    | with_reducible apply Only.wr ?_ ?_ _ _
    | with_reducible apply Only.step ?_ (State.setMon_only ..) ?_
    | exact Eq.refl _
    | split)

theorem State.enterQ_only (s : State) (r : ℕ) (q : ℕ) :
    Only (some [F.refs, P.REF_DEV, P.REF_QSTATE]) s (State.enterQ s r q) := by
  unfold State.enterQ
  repeat' (first
    | (extract_lets +onlyGivenNames t; refine Only.with_state (t := t) ?_ fun _ => ?_; subst t; rotate_left; clear_value t)
    | (extract_lets +onlyGivenNames t; clear_value t)
    | with_reducible exact Only.refl _ _
    | with_reducible assumption
    | with_reducible apply Only.cond _ ?_ ?_
    | with_reducible apply Only.wr ?_ ?_ _ _
    | with_reducible apply Only.step ?_ (State.setMon_only ..) ?_
    | exact Eq.refl _
    | extract_lets
    | split)

theorem State.put_only (s : State) (ts : ℕ) (a : ℕ) :
    Only (some [P.REF_ACTIVE, P.REF_TSTATE, P.TBS_DOM_SELECTED]) s (State.put s ts a) := by
  unfold State.put
  repeat' (first
    | (extract_lets +onlyGivenNames t; refine Only.with_state (t := t) ?_ fun _ => ?_; subst t; rotate_left; clear_value t)
    | (extract_lets +onlyGivenNames t; clear_value t)
    | with_reducible exact Only.refl _ _
    | with_reducible assumption
    | with_reducible apply Only.wr ?_ ?_ _ _
    | exact Eq.refl _
    | extract_lets)

theorem State.takeModel_only (s : State) (c : ℕ) :
    Only (some [F.servo]) s (State.takeModel s c) := by
  unfold State.takeModel
  repeat' (first
    | with_reducible exact Only.refl _ _
    | with_reducible assumption
    | with_reducible apply Only.step ?_ (State.setServo_only ..) ?_
    | exact Eq.refl _)

theorem State.modelFrom_only (s : State) (c : ℕ) :
    Only (some [F.servo]) s (State.modelFrom s c) := by
  unfold State.modelFrom
  repeat' (first
    | with_reducible exact Only.refl _ _
    | with_reducible assumption
    | with_reducible apply Only.step ?_ (State.takeModel_only ..) ?_
    | with_reducible apply Only.step ?_ (State.setServo_only ..) ?_
    | exact Eq.refl _)

theorem State.freeze_only (s : State) (lost : ℕ) :
    Only (some [F.servo]) s (State.freeze s lost) := by
  unfold State.freeze
  repeat' (first
    | (extract_lets +onlyGivenNames t; refine Only.with_state (t := t) ?_ fun _ => ?_; subst t; rotate_left; clear_value t)
    | (extract_lets +onlyGivenNames t; clear_value t)
    | with_reducible exact Only.refl _ _
    | with_reducible assumption
    | with_reducible apply Only.cond _ ?_ ?_
    | with_reducible apply Only.step ?_ (State.takeModel_only ..) ?_
    | with_reducible apply Only.step ?_ (State.setServo_only ..) ?_
    | exact Eq.refl _
    | extract_lets
    | split)

theorem State.holdoverModel_only (s : State) :
    Only (some [F.fresh, P.REF_HO_C, P.REF_HO_D, P.REF_HO_Y0]) s (State.holdoverModel s) := by
  unfold State.holdoverModel
  repeat' (first
    | (extract_lets +onlyGivenNames t; refine Only.with_state (t := t) ?_ fun _ => ?_; subst t; rotate_left; clear_value t)
    | (extract_lets +onlyGivenNames t; clear_value t)
    | with_reducible exact Only.refl _ _
    | with_reducible assumption
    | with_reducible apply Only.cond _ ?_ ?_
    | with_reducible apply Only.wr ?_ ?_ _ _
    | with_reducible apply Only.wrS ?_ ?_ _ _ _
    | exact Eq.refl _
    | extract_lets
    | split
    | with_reducible apply Only.set_fresh ?_ ?_ _)

theorem State.toHoldover_only (s : State) :
    Only (some [F.fresh, F.servo, P.REF_ACTIVE, P.REF_FLAGS, P.REF_HO_C, P.REF_HO_D, P.REF_HO_Y0, P.REF_TSTATE, P.TBS_DOM_SELECTED]) s (State.toHoldover s) := by
  unfold State.toHoldover
  repeat' (first
    | (extract_lets +onlyGivenNames t; refine Only.with_state (t := t) ?_ fun _ => ?_; subst t; rotate_left; clear_value t)
    | (extract_lets +onlyGivenNames t; clear_value t)
    | with_reducible exact Only.refl _ _
    | with_reducible assumption
    | with_reducible apply Only.cond _ ?_ ?_
    | with_reducible apply Only.wr ?_ ?_ _ _
    | with_reducible apply Only.orIn ?_ ?_ _ _
    | with_reducible apply Only.step ?_ (State.holdoverModel_only ..) ?_
    | with_reducible apply Only.step ?_ (State.put_only ..) ?_
    | with_reducible apply Only.step ?_ (State.modelFrom_only ..) ?_
    | exact Eq.refl _
    | extract_lets
    | split)

theorem State.pullBy_only (s : State) (r : ℕ) (phi : ℤ) (again : Bool) :
    Only (some [F.servo, P.REF_ACTIVE, P.REF_TSTATE, P.TBS_DOM_SELECTED]) s (State.pullBy s r phi again) := by
  unfold State.pullBy
  repeat' (first
    | (extract_lets +onlyGivenNames t; refine Only.with_state (t := t) ?_ fun _ => ?_; subst t; rotate_left; clear_value t)
    | (extract_lets +onlyGivenNames t; clear_value t)
    | with_reducible exact Only.refl _ _
    | with_reducible assumption
    | with_reducible apply Only.cond _ ?_ ?_
    | with_reducible apply Only.step ?_ (State.setServo_only ..) ?_
    | with_reducible apply Only.step ?_ (State.put_only ..) ?_
    | exact Eq.refl _
    | extract_lets
    | split)

theorem State.toPulling_only (s : State) (r : ℕ) (again : Bool) :
    Only (some [F.servo, P.REF_ACTIVE, P.REF_TSTATE, P.TBS_DOM_SELECTED]) s (State.toPulling s r again) := by
  unfold State.toPulling
  repeat' (first
    | with_reducible exact Only.refl _ _
    | with_reducible assumption
    | with_reducible apply Only.step ?_ (State.pullBy_only ..) ?_
    | exact Eq.refl _)

theorem State.toAcquire_only (s : State) (r : ℕ) :
    Only (some [F.servo, P.REF_ACTIVE, P.REF_TSTATE, P.TBS_DOM_SELECTED]) s (State.toAcquire s r) := by
  unfold State.toAcquire
  repeat' (first
    | with_reducible exact Only.refl _ _
    | with_reducible assumption
    | with_reducible apply Only.step ?_ (State.setServo_only ..) ?_
    | with_reducible apply Only.step ?_ (State.put_only ..) ?_
    | exact Eq.refl _)

theorem State.toFreerun_only (s : State) :
    Only (some [P.REF_ACTIVE, P.REF_TSTATE, P.TBS_DOM_SELECTED]) s (State.toFreerun s) := by
  unfold State.toFreerun
  repeat' (first
    | with_reducible exact Only.refl _ _
    | with_reducible assumption
    | with_reducible apply Only.step ?_ (State.put_only ..) ?_
    | exact Eq.refl _)

theorem State.toUntraceable_only (s : State) (r : ℕ) :
    Only (some [F.servo, P.REF_ACTIVE, P.REF_TSTATE, P.TBS_DOM_SELECTED]) s (State.toUntraceable s r) := by
  unfold State.toUntraceable
  repeat' (first
    | with_reducible exact Only.refl _ _
    | with_reducible assumption
    | with_reducible apply Only.step ?_ (State.setServo_only ..) ?_
    | with_reducible apply Only.step ?_ (State.put_only ..) ?_
    | exact Eq.refl _)

theorem State.alignM_only (s : State) :
    Only (some [F.refs, F.servo, P.REF_DEV]) s (State.alignM s) := by
  unfold State.alignM
  repeat' (first
    | (extract_lets +onlyGivenNames t; refine Only.with_state (t := t) ?_ fun _ => ?_; subst t; rotate_left; clear_value t)
    | (extract_lets +onlyGivenNames t; have q : ℕ := t; clear q; clear_value t)
    | (extract_lets +onlyGivenNames t; have q : Bool := t; clear q; clear_value t)
    | (extract_lets +onlyGivenNames t; have q : ℤ := t; clear q; clear_value t)
    | (extract_lets +onlyGivenNames t; have q : Option _ := t; clear q; clear_value t)
    | (extract_lets +onlyGivenNames t; have q : List _ := t; clear q; clear_value t)
    | (extract_lets +onlyGivenNames t; have q : _ × _ := t; clear q; clear_value t)
    | with_reducible exact Only.refl _ _
    | with_reducible assumption
    | with_reducible apply Only.wr ?_ ?_ _ _
    | with_reducible apply Only.step ?_ (State.setServo_only ..) ?_
    | with_reducible apply Only.step ?_ (State.setMon_only ..) ?_
    | exact Eq.refl _
    | extract_lets
    | with_reducible apply Only.set_refs ?_ ?_ _)

theorem State.toLocked_only (s : State) :
    Only (some [F.refs, F.servo, P.REF_ACTIVE, P.REF_DEV, P.REF_TSTATE, P.TBS_DOM_SELECTED]) s (State.toLocked s) := by
  unfold State.toLocked
  repeat' (first
    | with_reducible exact Only.refl _ _
    | with_reducible assumption
    | with_reducible apply Only.step ?_ (State.setServo_only ..) ?_
    | with_reducible apply Only.step ?_ (State.alignM_only ..) ?_
    | with_reducible apply Only.step ?_ (State.put_only ..) ?_
    | exact Eq.refl _)

theorem State.takeFrom_only (s : State) (r : ℕ) :
    Only (some [F.servo, P.REF_ACTIVE, P.REF_TSTATE, P.TBS_DOM_SELECTED]) s (State.takeFrom s r) := by
  unfold State.takeFrom
  repeat' (first
    | with_reducible exact Only.refl _ _
    | with_reducible assumption
    | with_reducible apply Only.cond _ ?_ ?_
    | with_reducible apply Only.step ?_ (State.toPulling_only ..) ?_
    | with_reducible apply Only.step ?_ (State.toAcquire_only ..) ?_
    | with_reducible apply Only.step ?_ (State.toUntraceable_only ..) ?_
    | exact Eq.refl _
    | split)

theorem State.dropAll_only (s : State) :
    Only (some [F.fresh, F.servo, P.REF_ACTIVE, P.REF_FLAGS, P.REF_HO_C, P.REF_HO_D, P.REF_HO_Y0, P.REF_TSTATE, P.TBS_DOM_SELECTED]) s (State.dropAll s) := by
  unfold State.dropAll
  repeat' (first
    | with_reducible exact Only.refl _ _
    | with_reducible assumption
    | with_reducible apply Only.cond _ ?_ ?_
    | with_reducible apply Only.step ?_ (State.toHoldover_only ..) ?_
    | with_reducible apply Only.step ?_ (State.toFreerun_only ..) ?_
    | exact Eq.refl _
    | split)

theorem State.keepWtr_only (s : State) :
    Only (some [F.servo]) s (State.keepWtr s) := by
  unfold State.keepWtr
  repeat' (first
    | (extract_lets +onlyGivenNames t; refine Only.with_state (t := t) ?_ fun _ => ?_; subst t; rotate_left; clear_value t)
    | (extract_lets +onlyGivenNames t; clear_value t)
    | with_reducible exact Only.refl _ _
    | with_reducible assumption
    | with_reducible apply Only.cond _ ?_ ?_
    | with_reducible apply Only.step ?_ (State.setServo_only ..) ?_
    | exact Eq.refl _
    | extract_lets
    | split)

theorem State.followSelection_only (s : State) (lost : ℕ) :
    Only (some [F.fresh, F.servo, P.REF_ACTIVE, P.REF_FLAGS, P.REF_HO_C, P.REF_HO_D, P.REF_HO_Y0, P.REF_TSTATE, P.TBS_DOM_SELECTED]) s (State.followSelection s lost) := by
  unfold State.followSelection
  repeat' (first
    | (extract_lets +onlyGivenNames t; refine Only.with_state (t := t) ?_ fun _ => ?_; subst t; rotate_left; clear_value t)
    | (extract_lets +onlyGivenNames t; clear_value t)
    | with_reducible exact Only.refl _ _
    | with_reducible assumption
    | with_reducible apply Only.cond _ ?_ ?_
    | with_reducible apply Only.orIn ?_ ?_ _ _
    | with_reducible apply Only.step ?_ (State.toAcquire_only ..) ?_
    | with_reducible apply Only.step ?_ (State.toFreerun_only ..) ?_
    | with_reducible apply Only.step ?_ (State.keepWtr_only ..) ?_
    | with_reducible apply Only.step ?_ (State.toPulling_only ..) ?_
    | with_reducible apply Only.step ?_ (State.freeze_only ..) ?_
    | with_reducible apply Only.step ?_ (State.toHoldover_only ..) ?_
    | with_reducible apply Only.step ?_ (State.toUntraceable_only ..) ?_
    | with_reducible apply Only.step ?_ (State.takeFrom_only ..) ?_
    | with_reducible apply Only.step ?_ (State.dropAll_only ..) ?_
    | exact Eq.refl _
    | extract_lets
    | split)

theorem State.switchEvent_only (s : State) (fromRef : ℕ) (cause : ℕ) (retarget : Bool) :
    Only (some [F.cmd, F.rings, P.CMD_NOTICE_DROP, P.REF_SWLOG_HEAD, P.REF_SWLOG_INFO, P.REF_SWLOG_TIME]) s (State.switchEvent s fromRef cause retarget) := by
  unfold State.switchEvent
  repeat' (first
    | (extract_lets +onlyGivenNames t; refine Only.with_state (t := t) ?_ fun _ => ?_; subst t; rotate_left; clear_value t)
    | (extract_lets +onlyGivenNames t; clear_value t)
    | with_reducible exact Only.refl _ _
    | with_reducible assumption
    | with_reducible apply Only.wr ?_ ?_ _ _
    | with_reducible apply Only.step ?_ (State.notice_only ..) ?_
    | exact Eq.refl _
    | extract_lets)

theorem State.gather_only (s : State) (e : SwitchEvent) (sofar : Option SwitchEvent) :
    Only (some [F.servo]) s (State.gather s e sofar) := by
  unfold State.gather
  repeat' (first
    | with_reducible exact Only.refl _ _
    | with_reducible assumption
    | with_reducible apply Only.step ?_ (State.setServo_only ..) ?_
    | exact Eq.refl _
    | split)

theorem State.openBatch_only (s : State) :
    Only (some [F.servo]) s (State.openBatch s) := by
  unfold State.openBatch
  repeat' (first
    | with_reducible exact Only.refl _ _
    | with_reducible assumption
    | with_reducible apply Only.cond _ ?_ ?_
    | with_reducible apply Only.step ?_ (State.setServo_only ..) ?_
    | exact Eq.refl _
    | split)

theorem State.closeBatch_only (s : State) (before : State) :
    Only (some [F.cmd, F.rings, F.servo, P.CMD_NOTICE_DROP, P.REF_SWLOG_HEAD, P.REF_SWLOG_INFO, P.REF_SWLOG_TIME]) s (State.closeBatch s before) := by
  unfold State.closeBatch
  repeat' (first
    | (extract_lets +onlyGivenNames t; refine Only.with_state (t := t) ?_ fun _ => ?_; subst t; rotate_left; clear_value t)
    | (extract_lets +onlyGivenNames t; clear_value t)
    | with_reducible exact Only.refl _ _
    | with_reducible assumption
    | with_reducible apply Only.cond _ ?_ ?_
    | with_reducible apply Only.step ?_ (State.setServo_only ..) ?_
    | with_reducible apply Only.step ?_ (State.switchEvent_only ..) ?_
    | exact Eq.refl _
    | extract_lets
    | split)

theorem State.conclude_only (s : State) (before : State) (cause : ℕ) :
    Only (some [F.cmd, F.fault, F.rings, F.servo, P.CMD_NOTICE_DROP, P.HLT_FAULT_COUNT, P.HLT_STICKY, P.REF_FLAGS, P.REF_SWLOG_HEAD, P.REF_SWLOG_INFO, P.REF_SWLOG_TIME, P.TBS_BOUND_NOW, P.TBS_BOUND_PS]) s (State.conclude s before cause) := by
  unfold State.conclude
  repeat' (first
    | (extract_lets +onlyGivenNames t; refine Only.with_state (t := t) ?_ fun _ => ?_; subst t; rotate_left; clear_value t)
    | (extract_lets +onlyGivenNames t; clear_value t)
    | with_reducible exact Only.refl _ _
    | with_reducible assumption
    | with_reducible apply Only.cond _ ?_ ?_
    | with_reducible apply Only.orIn ?_ ?_ _ _
    | with_reducible apply Only.step ?_ (State.refreshBound_only ..) ?_
    | with_reducible apply Only.step ?_ (State.setServo_only ..) ?_
    | with_reducible apply Only.step ?_ (State.steerNow_only ..) ?_
    | with_reducible apply Only.step ?_ (State.sticky_only ..) ?_
    | with_reducible apply Only.step ?_ (State.gather_only ..) ?_
    | with_reducible apply Only.step ?_ (State.switchEvent_only ..) ?_
    | exact Eq.refl _
    | extract_lets
    | split)

theorem State.reselect_only (s : State) (cause : ℕ) (lost : ℕ) :
    Only (some [F.cmd, F.fault, F.fresh, F.rings, F.servo, P.CMD_NOTICE_DROP, P.HLT_FAULT_COUNT, P.HLT_STICKY, P.REF_ACTIVE, P.REF_FLAGS, P.REF_HO_C, P.REF_HO_D, P.REF_HO_Y0, P.REF_SWLOG_HEAD, P.REF_SWLOG_INFO, P.REF_SWLOG_TIME, P.REF_TSTATE, P.TBS_BOUND_NOW, P.TBS_BOUND_PS, P.TBS_DOM_SELECTED]) s (State.reselect s cause lost) := by
  unfold State.reselect
  repeat' (first
    | with_reducible exact Only.refl _ _
    | with_reducible assumption
    | with_reducible apply Only.step ?_ (State.conclude_only ..) ?_
    | with_reducible apply Only.step ?_ (State.followSelection_only ..) ?_
    | exact Eq.refl _)

theorem State.tryEntry_only (s : State) (r : ℕ) :
    Only (some [F.refs, P.REF_DEV, P.REF_FLAGS, P.REF_QSTATE]) s (State.tryEntry s r) := by
  unfold State.tryEntry
  repeat' (first
    | with_reducible exact Only.refl _ _
    | with_reducible assumption
    | with_reducible apply Only.cond _ ?_ ?_
    | with_reducible apply Only.orIn ?_ ?_ _ _
    | with_reducible apply Only.step ?_ (State.enterQ_only ..) ?_
    | exact Eq.refl _
    | split)

theorem State.disqualify_only (s : State) (r : ℕ) (cause : ℕ) :
    Only (some [F.cmd, F.fault, F.fresh, F.refs, F.rings, F.servo, P.CMD_NOTICE_DROP, P.HLT_FAULT_COUNT, P.HLT_STICKY, P.REF_ACTIVE, P.REF_DEV, P.REF_DISQ_COUNT, P.REF_FLAGS, P.REF_HO_C, P.REF_HO_D, P.REF_HO_Y0, P.REF_QSTATE, P.REF_SWLOG_HEAD, P.REF_SWLOG_INFO, P.REF_SWLOG_TIME, P.REF_TSTATE, P.TBS_BOUND_NOW, P.TBS_BOUND_PS, P.TBS_DOM_SELECTED]) s (State.disqualify s r cause) := by
  unfold State.disqualify
  repeat' (first
    | with_reducible exact Only.refl _ _
    | with_reducible assumption
    | with_reducible apply Only.count_plain ?_ ?_ (by decide) _ _
    | with_reducible apply Only.count ?_ ?_ ?_ ?_ _ _
    | with_reducible apply Only.step ?_ (State.reselect_only ..) ?_
    | with_reducible apply Only.step ?_ (State.enterQ_only ..) ?_
    | exact Eq.refl _)

theorem State.qualify_only (s : State) (r : ℕ) (cause : ℕ) :
    Only (some [F.cmd, F.fault, F.fresh, F.refs, F.rings, F.servo, P.CMD_NOTICE_DROP, P.HLT_FAULT_COUNT, P.HLT_STICKY, P.REF_ACTIVE, P.REF_DEV, P.REF_FLAGS, P.REF_HO_C, P.REF_HO_D, P.REF_HO_Y0, P.REF_QSTATE, P.REF_SWLOG_HEAD, P.REF_SWLOG_INFO, P.REF_SWLOG_TIME, P.REF_TSTATE, P.TBS_BOUND_NOW, P.TBS_BOUND_PS, P.TBS_DOM_SELECTED]) s (State.qualify s r cause) := by
  unfold State.qualify
  repeat' (first
    | with_reducible exact Only.refl _ _
    | with_reducible assumption
    | with_reducible apply Only.step ?_ (State.reselect_only ..) ?_
    | with_reducible apply Only.step ?_ (State.enterQ_only ..) ?_
    | exact Eq.refl _)

theorem State.loseRef_only (s : State) (r : ℕ) (cause : ℕ) :
    Only (some [F.cmd, F.fault, F.fresh, F.refs, F.rings, F.servo, P.CMD_NOTICE_DROP, P.HLT_FAULT_COUNT, P.HLT_STICKY, P.REF_ACTIVE, P.REF_DEV, P.REF_FLAGS, P.REF_HO_C, P.REF_HO_D, P.REF_HO_Y0, P.REF_QSTATE, P.REF_SWLOG_HEAD, P.REF_SWLOG_INFO, P.REF_SWLOG_TIME, P.REF_TSTATE, P.TBS_BOUND_NOW, P.TBS_BOUND_PS, P.TBS_DOM_SELECTED]) s (State.loseRef s r cause) := by
  unfold State.loseRef
  repeat' (first
    | with_reducible exact Only.refl _ _
    | with_reducible assumption
    | with_reducible apply Only.cond _ ?_ ?_
    | with_reducible apply Only.step ?_ (State.reselect_only ..) ?_
    | with_reducible apply Only.step ?_ (State.enterQ_only ..) ?_
    | exact Eq.refl _
    | split)

theorem State.refreshRef_only (s : State) (r : ℕ) :
    Only (some ([F.cmd, F.fault, F.fresh, F.refs, F.rings, F.servo, P.CMD_NOTICE_DROP, P.HLT_FAULT_COUNT, P.HLT_STICKY, P.REF_ACTIVE, P.REF_BREF, P.REF_DEV, P.REF_FLAGS, P.REF_HO_C, P.REF_HO_D, P.REF_HO_Y0, P.REF_KIND, P.REF_QSTATE, P.REF_SWLOG_HEAD, P.REF_SWLOG_INFO, P.REF_SWLOG_TIME, P.REF_TSTATE, P.TBS_BOUND_NOW, P.TBS_BOUND_PS] ++
      [P.TBS_DOM_SELECTED])) s (State.refreshRef s r) := by
  unfold State.refreshRef
  repeat' (first
    | (extract_lets +onlyGivenNames t; refine Only.with_state (t := t) ?_ fun _ => ?_; subst t; rotate_left; clear_value t)
    | (extract_lets +onlyGivenNames t; clear_value t)
    | with_reducible exact Only.refl _ _
    | with_reducible assumption
    | with_reducible apply Only.cond _ ?_ ?_
    | with_reducible apply Only.wr ?_ ?_ _ _
    | with_reducible apply Only.step ?_ (State.showBref_only ..) ?_
    | with_reducible apply Only.step ?_ (State.enterQ_only ..) ?_
    | with_reducible apply Only.step ?_ (State.keepWtr_only ..) ?_
    | with_reducible apply Only.step ?_ (State.reselect_only ..) ?_
    | exact Eq.refl _
    | extract_lets
    | split)

theorem State.refreshRefs_only (s : State) :
    Only (some ([F.cmd, F.fault, F.fresh, F.refs, F.rings, F.servo, P.CMD_NOTICE_DROP, P.HLT_FAULT_COUNT, P.HLT_STICKY, P.REF_ACTIVE, P.REF_BREF, P.REF_DEV, P.REF_FLAGS, P.REF_HO_C, P.REF_HO_D, P.REF_HO_Y0, P.REF_KIND, P.REF_QSTATE, P.REF_SWLOG_HEAD, P.REF_SWLOG_INFO, P.REF_SWLOG_TIME, P.REF_TSTATE, P.TBS_BOUND_NOW, P.TBS_BOUND_PS] ++
      [P.TBS_DOM_SELECTED])) s (State.refreshRefs s) := by
  unfold State.refreshRefs
  repeat' (first
    | with_reducible exact Only.refl _ _
    | with_reducible assumption
    | with_reducible apply Only.fold _ _ (fun _ _ => ?_) ?_
    | with_reducible apply OnlyP.fold _ _ (fun _ _ => ?_) ?_
    | with_reducible apply OnlyP.of ?_
    | with_reducible apply Only.step ?_ (State.closeBatch_only ..) ?_
    | with_reducible apply Only.step ?_ (State.refreshRef_only ..) ?_
    | with_reducible apply Only.step ?_ (State.openBatch_only ..) ?_
    | exact Eq.refl _)

theorem State.linkBref_only (s : State) (p : ℕ) :
    Only (some ([F.cmd, F.fault, F.fresh, F.refs, F.rings, F.servo, P.CMD_NOTICE_DROP, P.HLT_FAULT_COUNT, P.HLT_STICKY, P.REF_ACTIVE, P.REF_BREF, P.REF_DEV, P.REF_FLAGS, P.REF_HO_C, P.REF_HO_D, P.REF_HO_Y0, P.REF_KIND, P.REF_QSTATE, P.REF_SWLOG_HEAD, P.REF_SWLOG_INFO, P.REF_SWLOG_TIME, P.REF_TSTATE, P.TBS_BOUND_NOW, P.TBS_BOUND_PS] ++
      [P.TBS_DOM_SELECTED])) s (State.linkBref s p) := by
  unfold State.linkBref
  repeat' (first
    | with_reducible exact Only.refl _ _
    | with_reducible assumption
    | with_reducible apply Only.fold _ _ (fun _ _ => ?_) ?_
    | with_reducible apply OnlyP.fold _ _ (fun _ _ => ?_) ?_
    | with_reducible apply OnlyP.of ?_
    | with_reducible apply Only.step ?_ (State.refreshRef_only ..) ?_
    | exact Eq.refl _)

theorem State.driftCheck_only (s : State) (r : ℕ) (mon : ℕ) (reading : ℤ) (threshold : ℕ) (inside : Bool) (armed : Bool) :
    Only (some [F.cmd, F.refs, F.rings, P.CMD_NOTICE_DROP, P.REF_FLAGS]) s (State.driftCheck s r mon reading threshold inside armed) := by
  unfold State.driftCheck
  repeat' (first
    | (extract_lets +onlyGivenNames t; refine Only.with_state (t := t) ?_ fun _ => ?_; subst t; rotate_left; clear_value t)
    | (extract_lets +onlyGivenNames t; have q : ℕ := t; clear q; clear_value t)
    | (extract_lets +onlyGivenNames t; have q : Bool := t; clear q; clear_value t)
    | (extract_lets +onlyGivenNames t; have q : ℤ := t; clear q; clear_value t)
    | (extract_lets +onlyGivenNames t; have q : Option _ := t; clear q; clear_value t)
    | (extract_lets +onlyGivenNames t; have q : List _ := t; clear q; clear_value t)
    | (extract_lets +onlyGivenNames t; have q : _ × _ := t; clear q; clear_value t)
    | with_reducible exact Only.refl _ _
    | with_reducible assumption
    | with_reducible apply Only.cond _ ?_ ?_
    | with_reducible apply Only.orIn ?_ ?_ _ _
    | with_reducible apply Only.step ?_ (State.setMon_only ..) ?_
    | with_reducible apply Only.step ?_ (State.notice_only ..) ?_
    | exact Eq.refl _
    | extract_lets
    | split)

theorem State.drift_only (s : State) (r : ℕ) :
    Only (some [F.cmd, F.refs, F.rings, P.CMD_NOTICE_DROP, P.REF_FLAGS]) s (State.drift s r) := by
  unfold State.drift
  repeat' (first
    | (extract_lets +onlyGivenNames t; refine Only.with_state (t := t) ?_ fun _ => ?_; subst t; rotate_left; clear_value t)
    | (extract_lets +onlyGivenNames t; clear_value t)
    | with_reducible exact Only.refl _ _
    | with_reducible assumption
    | with_reducible apply Only.cond _ ?_ ?_
    | with_reducible apply Only.step ?_ (State.driftCheck_only ..) ?_
    | exact Eq.refl _
    | extract_lets
    | split)

theorem State.learn_only (s : State) (c : ℕ) :
    Only (some [F.fresh, P.REF_HO_C, P.REF_HO_CU, P.REF_HO_D, P.REF_HO_DU, P.REF_HO_LEARNED, P.REF_HO_TMEAN, P.REF_HO_Y0, P.REF_HO_YU]) s (State.learn s c) := by
  unfold State.learn
  repeat' (first
    | (extract_lets +onlyGivenNames t; refine Only.with_state (t := t) ?_ fun _ => ?_; subst t; rotate_left; clear_value t)
    | (extract_lets +onlyGivenNames t; clear_value t)
    | with_reducible exact Only.refl _ _
    | with_reducible assumption
    | with_reducible apply Only.cond _ ?_ ?_
    | with_reducible apply Only.wr ?_ ?_ _ _
    | exact Eq.refl _
    | extract_lets
    | split
    | with_reducible apply Only.set_fresh ?_ ?_ _)

theorem State.learnAll_only (s : State) :
    Only (some [F.fresh, P.REF_HO_C, P.REF_HO_CU, P.REF_HO_D, P.REF_HO_DU, P.REF_HO_LEARNED, P.REF_HO_TMEAN, P.REF_HO_Y0, P.REF_HO_YU]) s (State.learnAll s) := by
  unfold State.learnAll
  repeat' (first
    | (extract_lets +onlyGivenNames t; refine Only.with_state (t := t) ?_ fun _ => ?_; subst t; rotate_left; clear_value t)
    | (extract_lets +onlyGivenNames t; clear_value t)
    | with_reducible exact Only.refl _ _
    | with_reducible assumption
    | with_reducible apply Only.cond _ ?_ ?_
    | with_reducible apply Only.step ?_ (State.learn_only ..) ?_
    | exact Eq.refl _
    | extract_lets
    | split)

theorem State.writeReading_only (s : State) (r : ℕ) (freq : ℤ) (phi : ℤ) (osc : ℤ) :
    Only (some [F.servo, P.REF_DEV, P.REF_FREQ, P.REF_PHASE]) s (State.writeReading s r freq phi osc) := by
  unfold State.writeReading
  repeat' (first
    | (extract_lets +onlyGivenNames t; refine Only.with_state (t := t) ?_ fun _ => ?_; subst t; rotate_left; clear_value t)
    | (extract_lets +onlyGivenNames t; clear_value t)
    | with_reducible exact Only.refl _ _
    | with_reducible assumption
    | with_reducible apply Only.cond _ ?_ ?_
    | with_reducible apply Only.wrS ?_ ?_ _ _ _
    | with_reducible apply Only.step ?_ (State.setServo_only ..) ?_
    | exact Eq.refl _
    | extract_lets
    | split)

theorem State.judge_only (s : State) (r : ℕ) :
    Only (some [F.cmd, F.fault, F.fresh, F.refs, F.rings, F.servo, P.CMD_NOTICE_DROP, P.HLT_FAULT_COUNT, P.HLT_STICKY, P.REF_ACTIVE, P.REF_DEV, P.REF_DISQ_COUNT, P.REF_FLAGS, P.REF_HO_C, P.REF_HO_D, P.REF_HO_Y0, P.REF_QSTATE, P.REF_SWLOG_HEAD, P.REF_SWLOG_INFO, P.REF_SWLOG_TIME, P.REF_TSTATE, P.TBS_BOUND_NOW, P.TBS_BOUND_PS, P.TBS_DOM_SELECTED]) s (State.judge s r) := by
  unfold State.judge
  repeat' (first
    | with_reducible exact Only.refl _ _
    | with_reducible assumption
    | with_reducible apply Only.cond _ ?_ ?_
    | with_reducible apply Only.step ?_ (State.tryEntry_only ..) ?_
    | with_reducible apply Only.step ?_ (State.enterQ_only ..) ?_
    | with_reducible apply Only.step ?_ (State.disqualify_only ..) ?_
    | exact Eq.refl _
    | split)

theorem State.steered_only (s : State) (r : ℕ) (phi : ℤ) :
    Only (some [F.servo, F.time]) s (State.steered s r phi) := by
  unfold State.steered
  repeat' (first
    | (extract_lets +onlyGivenNames t; refine Only.with_state (t := t) ?_ fun _ => ?_; subst t; rotate_left; clear_value t)
    | (extract_lets +onlyGivenNames t; clear_value t)
    | with_reducible exact Only.refl _ _
    | with_reducible assumption
    | with_reducible apply Only.cond _ ?_ ?_
    | with_reducible apply Only.step ?_ (State.noteApplied_only ..) ?_
    | with_reducible apply Only.step ?_ (State.follow_only ..) ?_
    | exact Eq.refl _
    | extract_lets
    | split)

theorem State.monitorReading_only (s : State) (r : ℕ) (freq : ℤ) (phi : ℤ) (osc : ℤ) :
    Only (some ([F.cmd, F.fault, F.fresh, F.refs, F.rings, F.servo, F.time, P.CMD_NOTICE_DROP, P.HLT_FAULT_COUNT, P.HLT_STICKY, P.REF_ACTIVE, P.REF_DEV, P.REF_DISQ_COUNT, P.REF_FLAGS, P.REF_FREQ, P.REF_HO_C, P.REF_HO_CU, P.REF_HO_D, P.REF_HO_DU, P.REF_HO_LEARNED, P.REF_HO_TMEAN, P.REF_HO_Y0, P.REF_HO_YU, P.REF_PHASE] ++
      [P.REF_QSTATE, P.REF_SWLOG_HEAD, P.REF_SWLOG_INFO, P.REF_SWLOG_TIME, P.REF_TSTATE, P.TBS_BOUND_NOW, P.TBS_BOUND_PS, P.TBS_DOM_SELECTED])) s (State.monitorReading s r freq phi osc) := by
  unfold State.monitorReading
  repeat' (first
    | (extract_lets +onlyGivenNames t; refine Only.with_state (t := t) ?_ fun _ => ?_; subst t; rotate_left; clear_value t)
    | (extract_lets +onlyGivenNames t; clear_value t)
    | with_reducible exact Only.refl _ _
    | with_reducible assumption
    | with_reducible apply Only.cond _ ?_ ?_
    | with_reducible apply Only.step ?_ (State.setMon_only ..) ?_
    | with_reducible apply Only.step ?_ (State.drift_only ..) ?_
    | with_reducible apply Only.step ?_ (State.writeReading_only ..) ?_
    | with_reducible apply Only.step ?_ (State.learnAll_only ..) ?_
    | with_reducible apply Only.step ?_ (State.setServo_only ..) ?_
    | with_reducible apply Only.step ?_ (State.judge_only ..) ?_
    | with_reducible apply Only.step ?_ (State.steered_only ..) ?_
    | exact Eq.refl _
    | extract_lets
    | split)

theorem execMonitorReading_only (r : Fin 7) (freq : ℤ) (phi : ℤ) (osc : ℤ) (s : State) :
    OnlyO (some ([F.cmd, F.fault, F.fresh, F.refs, F.rings, F.servo, F.time, P.CMD_NOTICE_DROP, P.HLT_FAULT_COUNT, P.HLT_STICKY, P.REF_ACTIVE, P.REF_DEV, P.REF_DISQ_COUNT, P.REF_FLAGS, P.REF_FREQ, P.REF_HO_C, P.REF_HO_CU, P.REF_HO_D, P.REF_HO_DU, P.REF_HO_LEARNED, P.REF_HO_TMEAN, P.REF_HO_Y0, P.REF_HO_YU, P.REF_PHASE] ++
      [P.REF_QSTATE, P.REF_SWLOG_HEAD, P.REF_SWLOG_INFO, P.REF_SWLOG_TIME, P.REF_TSTATE, P.TBS_BOUND_NOW, P.TBS_BOUND_PS, P.TBS_DOM_SELECTED])) s (execMonitorReading r freq phi osc s) := by
  unfold execMonitorReading
  repeat' (first
    | with_reducible exact Only.refl _ _
    | with_reducible assumption
    | with_reducible apply OnlyO.of ?_
    | with_reducible apply Only.step ?_ (State.monitorReading_only ..) ?_
    | exact Eq.refl _)

theorem execRefPpsEdge_only (r : Fin 2) (phi : ℤ) (osc : ℤ) (s : State) :
    OnlyO (some [F.refs, F.servo, P.REF_DEV, P.REF_FLAGS, P.REF_PHASE, P.REF_QSTATE]) s (execRefPpsEdge r phi osc s) := by
  unfold execRefPpsEdge
  repeat' (first
    | (extract_lets +onlyGivenNames t; refine OnlyO.with_state (t := t) ?_ fun _ => ?_; subst t; rotate_left; clear_value t)
    | (extract_lets +onlyGivenNames t; refine Only.with_state (t := t) ?_ fun _ => ?_; subst t; rotate_left; clear_value t)
    | (extract_lets +onlyGivenNames t; clear_value t)
    | with_reducible exact Only.refl _ _
    | with_reducible assumption
    | with_reducible apply OnlyO.of ?_
    | with_reducible apply OnlyO.cond _ ?_ ?_
    | with_reducible apply Only.cond _ ?_ ?_
    | with_reducible apply Only.wrS ?_ ?_ _ _ _
    | with_reducible apply Only.step ?_ (State.setMon_only ..) ?_
    | with_reducible apply Only.step ?_ (State.tryEntry_only ..) ?_
    | with_reducible apply Only.step ?_ (State.setServo_only ..) ?_
    | exact Eq.refl _
    | extract_lets
    | split)

theorem execRefFreqAbsent_only (r : Fin 2) (s : State) :
    OnlyO (some [F.cmd, F.fault, F.fresh, F.refs, F.rings, F.servo, P.CMD_NOTICE_DROP, P.HLT_FAULT_COUNT, P.HLT_STICKY, P.REF_ACTIVE, P.REF_DEV, P.REF_FLAGS, P.REF_HO_C, P.REF_HO_D, P.REF_HO_Y0, P.REF_QSTATE, P.REF_SWLOG_HEAD, P.REF_SWLOG_INFO, P.REF_SWLOG_TIME, P.REF_TSTATE, P.TBS_BOUND_NOW, P.TBS_BOUND_PS, P.TBS_DOM_SELECTED]) s (execRefFreqAbsent r s) := by
  unfold execRefFreqAbsent
  repeat' (first
    | (extract_lets +onlyGivenNames t; refine OnlyO.with_state (t := t) ?_ fun _ => ?_; subst t; rotate_left; clear_value t)
    | (extract_lets +onlyGivenNames t; refine Only.with_state (t := t) ?_ fun _ => ?_; subst t; rotate_left; clear_value t)
    | (extract_lets +onlyGivenNames t; clear_value t)
    | with_reducible exact Only.refl _ _
    | with_reducible assumption
    | with_reducible apply OnlyO.of ?_
    | with_reducible apply OnlyO.cond _ ?_ ?_
    | with_reducible apply Only.cond _ ?_ ?_
    | with_reducible apply Only.step ?_ (State.setMon_only ..) ?_
    | with_reducible apply Only.step ?_ (State.loseRef_only ..) ?_
    | exact Eq.refl _
    | extract_lets
    | split)

theorem execActivityLost_only (r : Fin 7) (s : State) :
    OnlyO (some [F.cmd, F.fault, F.fresh, F.refs, F.rings, F.servo, P.CMD_NOTICE_DROP, P.HLT_FAULT_COUNT, P.HLT_STICKY, P.REF_ACTIVE, P.REF_DEV, P.REF_FLAGS, P.REF_HO_C, P.REF_HO_D, P.REF_HO_Y0, P.REF_QSTATE, P.REF_SWLOG_HEAD, P.REF_SWLOG_INFO, P.REF_SWLOG_TIME, P.REF_TSTATE, P.TBS_BOUND_NOW, P.TBS_BOUND_PS, P.TBS_DOM_SELECTED]) s (execActivityLost r s) := by
  unfold execActivityLost
  repeat' (first
    | (extract_lets +onlyGivenNames t; refine OnlyO.with_state (t := t) ?_ fun _ => ?_; subst t; rotate_left; clear_value t)
    | (extract_lets +onlyGivenNames t; refine Only.with_state (t := t) ?_ fun _ => ?_; subst t; rotate_left; clear_value t)
    | (extract_lets +onlyGivenNames t; clear_value t)
    | with_reducible exact Only.refl _ _
    | with_reducible assumption
    | with_reducible apply OnlyO.of ?_
    | with_reducible apply OnlyO.cond _ ?_ ?_
    | with_reducible apply Only.cond _ ?_ ?_
    | with_reducible apply Only.step ?_ (State.loseRef_only ..) ?_
    | with_reducible apply Only.step ?_ (State.setMon_only ..) ?_
    | exact Eq.refl _
    | extract_lets
    | split)

theorem execHoldoffExpiry_only (r : Fin 7) (s : State) :
    OnlyO (some [F.cmd, F.fault, F.fresh, F.refs, F.rings, F.servo, P.CMD_NOTICE_DROP, P.HLT_FAULT_COUNT, P.HLT_STICKY, P.REF_ACTIVE, P.REF_DEV, P.REF_FLAGS, P.REF_HO_C, P.REF_HO_D, P.REF_HO_Y0, P.REF_QSTATE, P.REF_SWLOG_HEAD, P.REF_SWLOG_INFO, P.REF_SWLOG_TIME, P.REF_TSTATE, P.TBS_BOUND_NOW, P.TBS_BOUND_PS, P.TBS_DOM_SELECTED]) s (execHoldoffExpiry r s) := by
  unfold execHoldoffExpiry
  repeat' (first
    | (extract_lets +onlyGivenNames t; refine OnlyO.with_state (t := t) ?_ fun _ => ?_; subst t; rotate_left; clear_value t)
    | (extract_lets +onlyGivenNames t; refine Only.with_state (t := t) ?_ fun _ => ?_; subst t; rotate_left; clear_value t)
    | (extract_lets +onlyGivenNames t; clear_value t)
    | with_reducible exact Only.refl _ _
    | with_reducible assumption
    | with_reducible apply OnlyO.of ?_
    | with_reducible apply OnlyO.cond _ ?_ ?_
    | with_reducible apply Only.cond _ ?_ ?_
    | with_reducible apply Only.step ?_ (State.qualify_only ..) ?_
    | exact Eq.refl _
    | extract_lets
    | split)

theorem execConfirmExpiry_only (r : Fin 7) (s : State) :
    OnlyO (some [F.cmd, F.fault, F.fresh, F.refs, F.rings, F.servo, P.CMD_NOTICE_DROP, P.HLT_FAULT_COUNT, P.HLT_STICKY, P.REF_ACTIVE, P.REF_DEV, P.REF_FLAGS, P.REF_HO_C, P.REF_HO_D, P.REF_HO_Y0, P.REF_QSTATE, P.REF_SWLOG_HEAD, P.REF_SWLOG_INFO, P.REF_SWLOG_TIME, P.REF_TSTATE, P.TBS_BOUND_NOW, P.TBS_BOUND_PS, P.TBS_DOM_SELECTED]) s (execConfirmExpiry r s) := by
  unfold execConfirmExpiry
  repeat' (first
    | (extract_lets +onlyGivenNames t; refine OnlyO.with_state (t := t) ?_ fun _ => ?_; subst t; rotate_left; clear_value t)
    | (extract_lets +onlyGivenNames t; refine Only.with_state (t := t) ?_ fun _ => ?_; subst t; rotate_left; clear_value t)
    | (extract_lets +onlyGivenNames t; clear_value t)
    | with_reducible exact Only.refl _ _
    | with_reducible assumption
    | with_reducible apply OnlyO.of ?_
    | with_reducible apply OnlyO.cond _ ?_ ?_
    | with_reducible apply Only.cond _ ?_ ?_
    | with_reducible apply Only.step ?_ (State.qualify_only ..) ?_
    | with_reducible apply Only.step ?_ (State.tryEntry_only ..) ?_
    | with_reducible apply Only.step ?_ (State.setMon_only ..) ?_
    | exact Eq.refl _
    | extract_lets
    | split)

theorem execWtrExpiry_only (s : State) :
    OnlyO (some [F.cmd, F.fault, F.rings, F.servo, P.CMD_NOTICE_DROP, P.HLT_FAULT_COUNT, P.HLT_STICKY, P.REF_ACTIVE, P.REF_FLAGS, P.REF_SWLOG_HEAD, P.REF_SWLOG_INFO, P.REF_SWLOG_TIME, P.REF_TSTATE, P.TBS_BOUND_NOW, P.TBS_BOUND_PS, P.TBS_DOM_SELECTED]) s (execWtrExpiry s) := by
  unfold execWtrExpiry
  repeat' (first
    | with_reducible exact Only.refl _ _
    | with_reducible assumption
    | with_reducible apply OnlyO.of ?_
    | with_reducible apply OnlyO.cond _ ?_ ?_
    | with_reducible apply Only.cond _ ?_ ?_
    | with_reducible apply Only.step ?_ (State.conclude_only ..) ?_
    | with_reducible apply Only.step ?_ (State.toPulling_only ..) ?_
    | with_reducible apply Only.step ?_ (State.freeze_only ..) ?_
    | with_reducible apply Only.step ?_ (State.keepWtr_only ..) ?_
    | exact Eq.refl _
    | split)

theorem execPullEnd_only (s : State) :
    OnlyO (some [F.cmd, F.fault, F.refs, F.rings, F.servo, P.CMD_NOTICE_DROP, P.HLT_FAULT_COUNT, P.HLT_STICKY, P.REF_ACTIVE, P.REF_DEV, P.REF_FLAGS, P.REF_SWLOG_HEAD, P.REF_SWLOG_INFO, P.REF_SWLOG_TIME, P.REF_TSTATE, P.TBS_BOUND_NOW, P.TBS_BOUND_PS, P.TBS_DOM_SELECTED]) s (execPullEnd s) := by
  unfold execPullEnd
  repeat' (first
    | with_reducible exact Only.refl _ _
    | with_reducible assumption
    | with_reducible apply OnlyO.of ?_
    | with_reducible apply OnlyO.cond _ ?_ ?_
    | with_reducible apply Only.cond _ ?_ ?_
    | with_reducible apply Only.step ?_ (State.conclude_only ..) ?_
    | with_reducible apply Only.step ?_ (State.toLocked_only ..) ?_
    | exact Eq.refl _
    | split)

theorem execPhWindowEnd_only (s : State) :
    OnlyO (some [F.refs, F.servo, P.REF_DEV]) s (execPhWindowEnd s) := by
  unfold execPhWindowEnd
  repeat' (first
    | (extract_lets +onlyGivenNames t; refine OnlyO.with_state (t := t) ?_ fun _ => ?_; subst t; rotate_left; clear_value t)
    | (extract_lets +onlyGivenNames t; refine Only.with_state (t := t) ?_ fun _ => ?_; subst t; rotate_left; clear_value t)
    | (extract_lets +onlyGivenNames t; clear_value t)
    | with_reducible exact Only.refl _ _
    | with_reducible assumption
    | with_reducible apply OnlyO.of ?_
    | with_reducible apply OnlyO.cond _ ?_ ?_
    | with_reducible apply Only.cond _ ?_ ?_
    | with_reducible apply Only.step ?_ (State.alignM_only ..) ?_
    | with_reducible apply Only.step ?_ (State.setServo_only ..) ?_
    | exact Eq.refl _
    | extract_lets
    | split)

theorem execRefselChange_only (pins : Fin 8) (s : State) :
    OnlyO (some [F.cmd, F.fault, F.fresh, F.rings, F.servo, P.CMD_NOTICE_DROP, P.HLT_FAULT_COUNT, P.HLT_STICKY, P.REF_ACTIVE, P.REF_FLAGS, P.REF_HO_C, P.REF_HO_D, P.REF_HO_Y0, P.REF_PINS, P.REF_SWLOG_HEAD, P.REF_SWLOG_INFO, P.REF_SWLOG_TIME, P.REF_TSTATE, P.TBS_BOUND_NOW, P.TBS_BOUND_PS, P.TBS_DOM_SELECTED]) s (execRefselChange pins s) := by
  unfold execRefselChange
  repeat' (first
    | (extract_lets +onlyGivenNames t; refine OnlyO.with_state (t := t) ?_ fun _ => ?_; subst t; rotate_left; clear_value t)
    | (extract_lets +onlyGivenNames t; refine Only.with_state (t := t) ?_ fun _ => ?_; subst t; rotate_left; clear_value t)
    | (extract_lets +onlyGivenNames t; clear_value t)
    | with_reducible exact Only.refl _ _
    | with_reducible assumption
    | with_reducible apply OnlyO.of ?_
    | with_reducible apply Only.wr ?_ ?_ _ _
    | with_reducible apply Only.step ?_ (State.reselect_only ..) ?_
    | exact Eq.refl _
    | extract_lets)

theorem refAccept_only (o : Origin) (p : List Byte) (s : State) :
    Only (some ([F.cmd, F.fault, F.fresh, F.refs, F.rings, F.servo, P.CMD_NOTICE_DROP, P.CMD_REFUSED_COUNT, P.HLT_FAULT_COUNT, P.HLT_STICKY, P.REF_ACTIVE, P.REF_DEV, P.REF_FLAGS, P.REF_HO_C, P.REF_HO_D, P.REF_HO_Y0, P.REF_QSTATE, P.REF_SWLOG_HEAD, P.REF_SWLOG_INFO, P.REF_SWLOG_TIME, P.REF_TSTATE, P.TBS_BOUND_NOW, P.TBS_BOUND_PS, P.TBS_DOM_SELECTED] ++
      [P.TBS_OVER_LIMIT_COUNT])) s (refAccept o p s) := by
  unfold refAccept
  repeat' (first
    | (extract_lets +onlyGivenNames t; refine Only.with_state (t := t) ?_ fun _ => ?_; subst t; rotate_left; clear_value t)
    | (extract_lets +onlyGivenNames t; clear_value t)
    | with_reducible exact Only.refl _ _
    | with_reducible assumption
    | with_reducible apply Only.cond _ ?_ ?_
    | with_reducible apply Only.step ?_ (State.finish_only ..) ?_
    | with_reducible apply Only.step ?_ (State.qualify_only ..) ?_
    | exact Eq.refl _
    | extract_lets
    | split)

theorem execBoundUpdate_only (ovenDev : ℤ) (s : State) :
    OnlyO (some [F.cmd, F.fault, F.fresh, F.rings, F.servo, P.CMD_NOTICE_DROP, P.HLT_FAULT_COUNT, P.HLT_STICKY, P.REF_ACTIVE, P.REF_FLAGS, P.REF_HO_C, P.REF_HO_D, P.REF_HO_Y0, P.REF_SWLOG_HEAD, P.REF_SWLOG_INFO, P.REF_SWLOG_TIME, P.REF_TSTATE, P.TBS_BOUND_NOW, P.TBS_BOUND_PS, P.TBS_DOM_SELECTED]) s (execBoundUpdate ovenDev s) := by
  unfold execBoundUpdate
  repeat' (first
    | (extract_lets +onlyGivenNames t; refine OnlyO.with_state (t := t) ?_ fun _ => ?_; subst t; rotate_left; clear_value t)
    | (extract_lets +onlyGivenNames t; refine Only.with_state (t := t) ?_ fun _ => ?_; subst t; rotate_left; clear_value t)
    | (extract_lets +onlyGivenNames t; clear_value t)
    | with_reducible exact Only.refl _ _
    | with_reducible assumption
    | with_reducible apply OnlyO.of ?_
    | with_reducible apply OnlyO.cond _ ?_ ?_
    | with_reducible apply Only.cond _ ?_ ?_
    | with_reducible apply Only.wr ?_ ?_ _ _
    | with_reducible apply Only.orIn ?_ ?_ _ _
    | with_reducible apply Only.step ?_ (State.steerNow_only ..) ?_
    | with_reducible apply Only.step ?_ (State.refreshBound_only ..) ?_
    | with_reducible apply Only.step ?_ (State.setServo_only ..) ?_
    | with_reducible apply Only.step ?_ (State.conclude_only ..) ?_
    | with_reducible apply Only.step ?_ (State.followSelection_only ..) ?_
    | exact Eq.refl _
    | extract_lets
    | split)

end Sys2Proof.Machine
end

