-- ==== Sys2Proof/Laws/OnlyLinks.lean ====
section
/-! SUPPORT. What each operation of Machine/Links.lean can change. -/

set_option linter.unusedTactic false
set_option linter.unreachableTactic false
set_option linter.tactic.unusedName false

namespace Sys2Proof.Machine

theorem State.linkFlag_only (s : State) (p : ℕ) (i : ℕ) (b : Bool) :
    Only (some [P.LNK_FLAGS]) s (State.linkFlag s p i b) := by
  unfold State.linkFlag
  repeat' (first
    | with_reducible exact Only.refl _ _
    | with_reducible assumption
    | with_reducible apply Only.wr ?_ ?_ _ _
    | exact Eq.refl _)

theorem State.linkDomains_only (s : State) (p : ℕ) :
    Only (some [P.TBS_DOM_BOUND, P.TBS_DOM_OFFSET]) s (State.linkDomains s p) := by
  unfold State.linkDomains
  repeat' (first
    | (extract_lets +onlyGivenNames t; refine Only.with_state (t := t) ?_ fun _ => ?_; subst t; rotate_left; clear_value t)
    | (extract_lets +onlyGivenNames t; refine Only.with_pair (t := t) ?_ fun _ => ?_; subst t; rotate_left; clear_value t)
    | (extract_lets +onlyGivenNames t; clear_value t)
    | with_reducible exact Only.refl _ _
    | with_reducible assumption
    | with_reducible apply Only.fold _ _ (fun _ _ => ?_) ?_
    | with_reducible apply OnlyP.fold _ _ (fun _ _ => ?_) ?_
    | with_reducible apply OnlyP.of ?_
    | with_reducible apply OnlyP.cond _ ?_ ?_
    | with_reducible apply Only.cond _ ?_ ?_
    | with_reducible apply Only.wr ?_ ?_ _ _
    | with_reducible apply Only.wrS ?_ ?_ _ _ _
    | exact Eq.refl _
    | extract_lets
    | split)

theorem State.setBevt_only (s : State) (p : ℕ) (v : ℕ) :
    Only (some ([F.cmd, F.fault, F.fresh, F.refs, F.rings, F.servo, P.CMD_NOTICE_DROP, P.HLT_FAULT_COUNT, P.HLT_STICKY, P.LNK_BEVT, P.REF_ACTIVE, P.REF_BREF, P.REF_DEV, P.REF_FLAGS, P.REF_HO_C, P.REF_HO_D, P.REF_HO_Y0, P.REF_KIND, P.REF_QSTATE, P.REF_SWLOG_HEAD, P.REF_SWLOG_INFO, P.REF_SWLOG_TIME, P.REF_TSTATE, P.TBS_BOUND_NOW] ++
      [P.TBS_BOUND_PS, P.TBS_DOM_SELECTED])) s (State.setBevt s p v) := by
  unfold State.setBevt
  repeat' (first
    | with_reducible exact Only.refl _ _
    | with_reducible assumption
    | with_reducible apply Only.wr ?_ ?_ _ _
    | with_reducible apply Only.step ?_ (State.linkBref_only ..) ?_
    | exact Eq.refl _)

theorem State.linkFramed_only (s : State) (p : ℕ) :
    Only (some [F.links, P.LNK_STATE]) s (State.linkFramed s p) := by
  unfold State.linkFramed
  repeat' (first
    | (extract_lets +onlyGivenNames t; refine Only.with_state (t := t) ?_ fun _ => ?_; subst t; rotate_left; clear_value t)
    | (extract_lets +onlyGivenNames t; clear_value t)
    | with_reducible exact Only.refl _ _
    | with_reducible assumption
    | with_reducible apply Only.cond _ ?_ ?_
    | with_reducible apply Only.wr ?_ ?_ _ _
    | with_reducible apply Only.step ?_ (State.setLink_only ..) ?_
    | exact Eq.refl _
    | extract_lets
    | split)

theorem State.abortLinkRun_only (s : State) (p : Nat) :
    Only (some [F.cal, F.cmd, F.linkRun, F.rings, P.CMD_REFUSED_COUNT, P.TBS_OVER_LIMIT_COUNT]) s (State.abortLinkRun s p) := by
  unfold State.abortLinkRun
  split
  · refine Only.cond _ (Only.step (Only.set_cal (Only.set_linkRun (Only.refl _ s) (by exact Eq.refl _) none) (by exact Eq.refl _) _) (State.finish_only ..) (by exact Eq.refl _))
      (Only.refl _ _)
  · exact Only.refl _ _

theorem State.linkDown_only (s : State) (p : ℕ) :
    Only (some ([F.cal, F.cmd, F.fault, F.fresh, F.linkRun, F.links, F.refs, F.rings, F.servo, P.CMD_NOTICE_DROP, P.CMD_REFUSED_COUNT, P.HLT_FAULT_COUNT, P.HLT_STICKY, P.LNK_BEVT, P.LNK_STATE, P.REF_ACTIVE, P.REF_DEV, P.REF_FLAGS, P.REF_HO_C, P.REF_HO_D, P.REF_HO_Y0, P.REF_QSTATE, P.REF_SWLOG_HEAD, P.REF_SWLOG_INFO] ++
      [P.REF_SWLOG_TIME, P.REF_TSTATE, P.TBS_BOUND_NOW, P.TBS_BOUND_PS, P.TBS_DOM_SELECTED, P.TBS_OVER_LIMIT_COUNT])) s (State.linkDown s p) := by
  unfold State.linkDown
  repeat' (first
    | (extract_lets +onlyGivenNames t; refine Only.with_state (t := t) ?_ fun _ => ?_; subst t; rotate_left; clear_value t)
    | (extract_lets +onlyGivenNames t; refine Only.with_pair (t := t) ?_ fun _ => ?_; subst t; rotate_left; clear_value t)
    | (extract_lets +onlyGivenNames t; clear_value t)
    | with_reducible exact Only.refl _ _
    | with_reducible assumption
    | with_reducible apply Only.fold _ _ (fun _ _ => ?_) ?_
    | with_reducible apply OnlyP.fold _ _ (fun _ _ => ?_) ?_
    | with_reducible apply OnlyP.of ?_
    | with_reducible apply Only.wr ?_ ?_ _ _
    | with_reducible apply Only.step ?_ (State.abortLinkRun_only ..) ?_
    | with_reducible apply Only.step ?_ (State.setLink_only ..) ?_
    | with_reducible apply Only.step ?_ (State.loseRef_only ..) ?_
    | exact Eq.refl _
    | extract_lets)

theorem State.linkAdvance_only (s : State) (p : ℕ) :
    Only (some [F.links, P.LNK_STATE]) s (State.linkAdvance s p) := by
  unfold State.linkAdvance
  repeat' (first
    | with_reducible exact Only.refl _ _
    | with_reducible assumption
    | with_reducible apply Only.cond _ ?_ ?_
    | with_reducible apply Only.wr ?_ ?_ _ _
    | with_reducible apply Only.step ?_ (State.setLink_only ..) ?_
    | exact Eq.refl _
    | split)

theorem State.remeasure_only (s : State) (p : ℕ) :
    Only (some ([F.cal, F.cmd, F.fault, F.fresh, F.linkRun, F.links, F.refs, F.rings, F.servo, P.CMD_NOTICE_DROP, P.CMD_REFUSED_COUNT, P.HLT_FAULT_COUNT, P.HLT_STICKY, P.LNK_BEVT, P.LNK_STATE, P.REF_ACTIVE, P.REF_BREF, P.REF_DEV, P.REF_FLAGS, P.REF_HO_C, P.REF_HO_D, P.REF_HO_Y0, P.REF_KIND, P.REF_QSTATE] ++
      [P.REF_SWLOG_HEAD, P.REF_SWLOG_INFO, P.REF_SWLOG_TIME, P.REF_TSTATE, P.TBS_BOUND_NOW, P.TBS_BOUND_PS, P.TBS_DOM_SELECTED, P.TBS_OVER_LIMIT_COUNT])) s (State.remeasure s p) := by
  unfold State.remeasure
  repeat' (first
    | (extract_lets +onlyGivenNames t; refine Only.with_state (t := t) ?_ fun _ => ?_; subst t; rotate_left; clear_value t)
    | (extract_lets +onlyGivenNames t; clear_value t)
    | with_reducible exact Only.refl _ _
    | with_reducible assumption
    | with_reducible apply Only.wr ?_ ?_ _ _
    | with_reducible apply Only.step ?_ (State.setLink_only ..) ?_
    | with_reducible apply Only.step ?_ (State.abortLinkRun_only ..) ?_
    | with_reducible apply Only.step ?_ (State.setBevt_only ..) ?_
    | exact Eq.refl _
    | extract_lets
    | split)

theorem State.hopLimited_only (s : State) (p : ℕ) :
    Only (some ([F.cal, F.cmd, F.fault, F.fresh, F.linkRun, F.links, F.refs, F.rings, F.servo, P.CMD_NOTICE_DROP, P.CMD_REFUSED_COUNT, P.HLT_FAULT_COUNT, P.HLT_STICKY, P.LNK_BEVT, P.LNK_STATE, P.REF_ACTIVE, P.REF_DEV, P.REF_FLAGS, P.REF_HO_C, P.REF_HO_D, P.REF_HO_Y0, P.REF_QSTATE, P.REF_SWLOG_HEAD, P.REF_SWLOG_INFO] ++
      [P.REF_SWLOG_TIME, P.REF_TSTATE, P.TBS_BOUND_NOW, P.TBS_BOUND_PS, P.TBS_DOM_SELECTED, P.TBS_OVER_LIMIT_COUNT])) s (State.hopLimited s p) := by
  unfold State.hopLimited
  repeat' (first
    | (extract_lets +onlyGivenNames t; refine Only.with_state (t := t) ?_ fun _ => ?_; subst t; rotate_left; clear_value t)
    | (extract_lets +onlyGivenNames t; refine Only.with_pair (t := t) ?_ fun _ => ?_; subst t; rotate_left; clear_value t)
    | (extract_lets +onlyGivenNames t; clear_value t)
    | with_reducible exact Only.refl _ _
    | with_reducible assumption
    | with_reducible apply Only.fold _ _ (fun _ _ => ?_) ?_
    | with_reducible apply OnlyP.fold _ _ (fun _ _ => ?_) ?_
    | with_reducible apply OnlyP.of ?_
    | with_reducible apply OnlyP.cond _ ?_ ?_
    | with_reducible apply Only.cond _ ?_ ?_
    | with_reducible apply Only.wr ?_ ?_ _ _
    | with_reducible apply Only.step ?_ (State.setLink_only ..) ?_
    | with_reducible apply Only.step ?_ (State.abortLinkRun_only ..) ?_
    | with_reducible apply Only.step ?_ (State.loseRef_only ..) ?_
    | exact Eq.refl _
    | extract_lets
    | split)

theorem State.linkSlip_only (s : State) (p : ℕ) :
    Only (some ([F.cal, F.cmd, F.fault, F.fresh, F.linkRun, F.links, F.refs, F.rings, F.servo, P.CMD_NOTICE_DROP, P.CMD_REFUSED_COUNT, P.HLT_FAULT_COUNT, P.HLT_STICKY, P.LNK_BEVT, P.LNK_STATE, P.REF_ACTIVE, P.REF_BREF, P.REF_DEV, P.REF_FLAGS, P.REF_HO_C, P.REF_HO_D, P.REF_HO_Y0, P.REF_KIND, P.REF_QSTATE] ++
      [P.REF_SWLOG_HEAD, P.REF_SWLOG_INFO, P.REF_SWLOG_TIME, P.REF_TSTATE, P.TBS_BOUND_NOW, P.TBS_BOUND_PS, P.TBS_DOM_SELECTED, P.TBS_OVER_LIMIT_COUNT])) s (State.linkSlip s p) := by
  unfold State.linkSlip
  repeat' (first
    | with_reducible exact Only.refl _ _
    | with_reducible assumption
    | with_reducible apply Only.cond _ ?_ ?_
    | with_reducible apply Only.step ?_ (State.setLink_only ..) ?_
    | with_reducible apply Only.step ?_ (State.setBevt_only ..) ?_
    | with_reducible apply Only.step ?_ (State.remeasure_only ..) ?_
    | exact Eq.refl _
    | split)

theorem State.discardExchange_only (s : State) (p : ℕ) :
    Only (some ([F.cal, F.cmd, F.fault, F.fresh, F.linkRun, F.links, F.refs, F.rings, F.servo, P.CMD_NOTICE_DROP, P.CMD_REFUSED_COUNT, P.HLT_FAULT_COUNT, P.HLT_STICKY, P.LNK_BEVT, P.LNK_DISCARDS, P.LNK_STATE, P.REF_ACTIVE, P.REF_BREF, P.REF_DEV, P.REF_FLAGS, P.REF_HO_C, P.REF_HO_D, P.REF_HO_Y0, P.REF_KIND] ++
      [P.REF_QSTATE, P.REF_SWLOG_HEAD, P.REF_SWLOG_INFO, P.REF_SWLOG_TIME, P.REF_TSTATE, P.TBS_BOUND_NOW, P.TBS_BOUND_PS, P.TBS_DOM_SELECTED, P.TBS_OVER_LIMIT_COUNT])) s (State.discardExchange s p) := by
  unfold State.discardExchange
  repeat' (first
    | (extract_lets +onlyGivenNames t; refine Only.with_state (t := t) ?_ fun _ => ?_; subst t; rotate_left; clear_value t)
    | (extract_lets +onlyGivenNames t; clear_value t)
    | with_reducible exact Only.refl _ _
    | with_reducible assumption
    | with_reducible apply Only.cond _ ?_ ?_
    | with_reducible apply Only.count_plain ?_ ?_ (by decide) _ _
    | with_reducible apply Only.count ?_ ?_ ?_ ?_ _ _
    | with_reducible apply Only.step ?_ (State.setLink_only ..) ?_
    | with_reducible apply Only.step ?_ (State.remeasure_only ..) ?_
    | exact Eq.refl _
    | extract_lets
    | split)

theorem State.measured_only (s : State) (p : ℕ) :
    Only (some ([F.cmd, F.fault, F.fresh, F.links, F.refs, F.rings, F.servo, P.CMD_NOTICE_DROP, P.HLT_FAULT_COUNT, P.HLT_STICKY, P.LNK_BEVT, P.LNK_FLAGS, P.LNK_STATE, P.REF_ACTIVE, P.REF_BREF, P.REF_DEV, P.REF_FLAGS, P.REF_HO_C, P.REF_HO_D, P.REF_HO_Y0, P.REF_KIND, P.REF_QSTATE, P.REF_SWLOG_HEAD, P.REF_SWLOG_INFO] ++
      [P.REF_SWLOG_TIME, P.REF_TSTATE, P.TBS_BOUND_NOW, P.TBS_BOUND_PS, P.TBS_DOM_SELECTED])) s (State.measured s p) := by
  unfold State.measured
  repeat' (first
    | (extract_lets +onlyGivenNames t; refine Only.with_state (t := t) ?_ fun _ => ?_; subst t; rotate_left; clear_value t)
    | (extract_lets +onlyGivenNames t; clear_value t)
    | with_reducible exact Only.refl _ _
    | with_reducible assumption
    | with_reducible apply Only.cond _ ?_ ?_
    | with_reducible apply Only.wr ?_ ?_ _ _
    | with_reducible apply Only.step ?_ (State.setBevt_only ..) ?_
    | with_reducible apply Only.step ?_ (State.setLink_only ..) ?_
    | with_reducible apply Only.step ?_ (State.linkFlag_only ..) ?_
    | exact Eq.refl _
    | extract_lets
    | split)

/-- A round trip changes what a discarded or a measured exchange changes, and what is done at its acceptance. -/
theorem State.roundTrip_only {W : Option (List Nat)} (s : State) (p : Nat) (rt phi : Int) (onAccept : State → State)
    (h : ∀ t, Only W t (onAccept t)) (hw : within (some ([F.cal, F.cmd, F.fault, F.fresh, F.linkRun, F.links, F.refs, F.rings, F.servo, P.CMD_NOTICE_DROP, P.CMD_REFUSED_COUNT, P.HLT_FAULT_COUNT, P.HLT_STICKY, P.LNK_BEVT, P.LNK_DISCARDS, P.LNK_FLAGS, P.LNK_RT, P.LNK_STATE, P.REF_ACTIVE, P.REF_BREF, P.REF_DEV, P.REF_FLAGS, P.REF_HO_C, P.REF_HO_D] ++
      [P.REF_HO_Y0, P.REF_KIND, P.REF_QSTATE, P.REF_SWLOG_HEAD, P.REF_SWLOG_INFO, P.REF_SWLOG_TIME, P.REF_TSTATE, P.TBS_BOUND_NOW, P.TBS_BOUND_PS, P.TBS_DOM_SELECTED, P.TBS_OVER_LIMIT_COUNT])) W = true) : Only W s (State.roundTrip s p rt phi onAccept) := by
  unfold State.roundTrip
  extract_lets
  refine Only.cond _ ?_ (Only.step (Only.refl _ _) (State.discardExchange_only ..) (within_trans (by exact Eq.refl _) hw))
  have a : Only (some [P.LNK_RT, F.links]) s ((s.wr P.LNK_RT p rt.toNat).setLink p fun l => { l with
      lastRt := some (rt, phi), discards := 0, history := (rt :: l.history).take 256 }) :=
    Only.step (Only.wr (Only.refl _ _) (by exact Eq.refl _) _ _) (State.setLink_only ..) (by exact Eq.refl _)
  exact Only.step (Only.trans (a.mono (within_trans (by exact Eq.refl _) hw)) (h _)) (State.measured_only ..)
    (within_trans (by exact Eq.refl _) hw)

theorem State.partnerWiden_only (s : State) (p : ℕ) (w : Bool) :
    Only (some ([F.cal, F.cmd, F.fault, F.fresh, F.linkRun, F.links, F.refs, F.rings, F.servo, P.CMD_NOTICE_DROP, P.CMD_REFUSED_COUNT, P.HLT_FAULT_COUNT, P.HLT_STICKY, P.LNK_BEVT, P.LNK_STATE, P.REF_ACTIVE, P.REF_BREF, P.REF_DEV, P.REF_FLAGS, P.REF_HO_C, P.REF_HO_D, P.REF_HO_Y0, P.REF_KIND, P.REF_QSTATE] ++
      [P.REF_SWLOG_HEAD, P.REF_SWLOG_INFO, P.REF_SWLOG_TIME, P.REF_TSTATE, P.TBS_BOUND_NOW, P.TBS_BOUND_PS, P.TBS_DOM_SELECTED, P.TBS_OVER_LIMIT_COUNT])) s (State.partnerWiden s p w) := by
  unfold State.partnerWiden
  repeat' (first
    | (extract_lets +onlyGivenNames t; refine Only.with_state (t := t) ?_ fun _ => ?_; subst t; rotate_left; clear_value t)
    | (extract_lets +onlyGivenNames t; clear_value t)
    | with_reducible exact Only.refl _ _
    | with_reducible assumption
    | with_reducible apply Only.cond _ ?_ ?_
    | with_reducible apply Only.step ?_ (State.setLink_only ..) ?_
    | with_reducible apply Only.step ?_ (State.remeasure_only ..) ?_
    | exact Eq.refl _
    | extract_lets
    | split)

theorem State.showTheta_only (s : State) (p : ℕ) :
    Only (some [F.servo, P.LNK_OFFSET]) s (State.showTheta s p) := by
  unfold State.showTheta
  repeat' (first
    | (extract_lets +onlyGivenNames t; refine Only.with_state (t := t) ?_ fun _ => ?_; subst t; rotate_left; clear_value t)
    | (extract_lets +onlyGivenNames t; clear_value t)
    | with_reducible exact Only.refl _ _
    | with_reducible assumption
    | with_reducible apply Only.cond _ ?_ ?_
    | with_reducible apply Only.wrS ?_ ?_ _ _ _
    | with_reducible apply Only.step ?_ (State.follow_only ..) ?_
    | exact Eq.refl _
    | extract_lets
    | split)

theorem execDdmtdAverage_only (port : Fin 512) (firsts : List (Fin 16384)) (runs : List Nat) (s : State) :
    OnlyO (some ([F.cmd, F.fault, F.fresh, F.links, F.refs, F.rings, F.servo, P.CMD_NOTICE_DROP, P.HLT_FAULT_COUNT, P.HLT_STICKY, P.LNK_OFFSET, P.LNK_PHASE, P.REF_ACTIVE, P.REF_BREF, P.REF_DEV, P.REF_FLAGS, P.REF_HO_C, P.REF_HO_D, P.REF_HO_Y0, P.REF_KIND, P.REF_QSTATE, P.REF_SWLOG_HEAD, P.REF_SWLOG_INFO, P.REF_SWLOG_TIME] ++
      [P.REF_TSTATE, P.TBS_BOUND_NOW, P.TBS_BOUND_PS, P.TBS_DOM_SELECTED])) s (execDdmtdAverage port firsts runs s) := by
  unfold execDdmtdAverage
  repeat' (first
    | (extract_lets +onlyGivenNames t; refine OnlyO.with_state (t := t) ?_ fun _ => ?_; subst t; rotate_left; clear_value t)
    | (extract_lets +onlyGivenNames t; refine Only.with_state (t := t) ?_ fun _ => ?_; subst t; rotate_left; clear_value t)
    | (extract_lets +onlyGivenNames t; clear_value t)
    | with_reducible exact Only.refl _ _
    | with_reducible assumption
    | with_reducible apply OnlyO.of ?_
    | with_reducible apply OnlyO.cond _ ?_ ?_
    | with_reducible apply Only.cond _ ?_ ?_
    | with_reducible apply Only.wr ?_ ?_ _ _
    | with_reducible apply Only.step ?_ (State.setLink_only ..) ?_
    | with_reducible apply Only.step ?_ (State.showTheta_only ..) ?_
    | with_reducible apply Only.step ?_ (State.linkBref_only ..) ?_
    | exact Eq.refl _
    | extract_lets
    | split)

theorem execDdmtdSettle_only (port : Fin 512) (s : State) :
    OnlyO (some ([F.cmd, F.fault, F.fresh, F.links, F.refs, F.rings, F.servo, P.CMD_NOTICE_DROP, P.HLT_FAULT_COUNT, P.HLT_STICKY, P.LNK_STATE, P.REF_ACTIVE, P.REF_BREF, P.REF_DEV, P.REF_FLAGS, P.REF_HO_C, P.REF_HO_D, P.REF_HO_Y0, P.REF_KIND, P.REF_QSTATE, P.REF_SWLOG_HEAD, P.REF_SWLOG_INFO, P.REF_SWLOG_TIME, P.REF_TSTATE] ++
      [P.TBS_BOUND_NOW, P.TBS_BOUND_PS, P.TBS_DOM_SELECTED])) s (execDdmtdSettle port s) := by
  unfold execDdmtdSettle
  repeat' (first
    | (extract_lets +onlyGivenNames t; refine OnlyO.with_state (t := t) ?_ fun _ => ?_; subst t; rotate_left; clear_value t)
    | (extract_lets +onlyGivenNames t; refine Only.with_state (t := t) ?_ fun _ => ?_; subst t; rotate_left; clear_value t)
    | (extract_lets +onlyGivenNames t; clear_value t)
    | with_reducible exact Only.refl _ _
    | with_reducible assumption
    | with_reducible apply OnlyO.of ?_
    | with_reducible apply OnlyO.cond _ ?_ ?_
    | with_reducible apply Only.cond _ ?_ ?_
    | with_reducible apply Only.step ?_ (State.linkAdvance_only ..) ?_
    | with_reducible apply Only.step ?_ (State.linkBref_only ..) ?_
    | with_reducible apply Only.step ?_ (State.setLink_only ..) ?_
    | exact Eq.refl _
    | extract_lets
    | split)

theorem execSlipHoldExpiry_only (port : Fin 512) (s : State) :
    OnlyO (some ([F.cmd, F.fault, F.fresh, F.links, F.refs, F.rings, F.servo, P.CMD_NOTICE_DROP, P.HLT_FAULT_COUNT, P.HLT_STICKY, P.LNK_BEVT, P.REF_ACTIVE, P.REF_BREF, P.REF_DEV, P.REF_FLAGS, P.REF_HO_C, P.REF_HO_D, P.REF_HO_Y0, P.REF_KIND, P.REF_QSTATE, P.REF_SWLOG_HEAD, P.REF_SWLOG_INFO, P.REF_SWLOG_TIME, P.REF_TSTATE] ++
      [P.TBS_BOUND_NOW, P.TBS_BOUND_PS, P.TBS_DOM_SELECTED])) s (execSlipHoldExpiry port s) := by
  unfold execSlipHoldExpiry
  repeat' (first
    | (extract_lets +onlyGivenNames t; refine OnlyO.with_state (t := t) ?_ fun _ => ?_; subst t; rotate_left; clear_value t)
    | (extract_lets +onlyGivenNames t; refine Only.with_state (t := t) ?_ fun _ => ?_; subst t; rotate_left; clear_value t)
    | (extract_lets +onlyGivenNames t; clear_value t)
    | with_reducible exact Only.refl _ _
    | with_reducible assumption
    | with_reducible apply OnlyO.of ?_
    | with_reducible apply OnlyO.cond _ ?_ ?_
    | with_reducible apply Only.cond _ ?_ ?_
    | with_reducible apply Only.step ?_ (State.setLink_only ..) ?_
    | with_reducible apply Only.step ?_ (State.setBevt_only ..) ?_
    | exact Eq.refl _
    | extract_lets
    | split)

theorem execTsyncSend_only (port : Fin 512) (raw1 : RawStamp) (s : State) :
    OnlyO (some [F.links, P.TBS_OVER_LIMIT_COUNT]) s (execTsyncSend port raw1 s) := by
  unfold execTsyncSend
  repeat' (first
    | (extract_lets +onlyGivenNames t; refine OnlyO.with_state (t := t) ?_ fun _ => ?_; subst t; rotate_left; clear_value t)
    | (extract_lets +onlyGivenNames t; refine Only.with_state (t := t) ?_ fun _ => ?_; subst t; rotate_left; clear_value t)
    | (extract_lets +onlyGivenNames t; clear_value t)
    | with_reducible exact Only.refl _ _
    | with_reducible assumption
    | with_reducible apply OnlyO.of ?_
    | with_reducible apply OnlyO.cond _ ?_ ?_
    | with_reducible apply Only.cond _ ?_ ?_
    | with_reducible apply Only.step ?_ (State.nhpSend_only ..) ?_
    | with_reducible apply Only.step ?_ (State.setLink_only ..) ?_
    | exact Eq.refl _
    | extract_lets
    | split)

theorem State.roleSeen_only (s : State) (p : ℕ) (opposite : Bool) :
    Only (some [F.links, P.LNK_FLAGS, P.LNK_STATE]) s (State.roleSeen s p opposite) := by
  unfold State.roleSeen
  repeat' (first
    | with_reducible exact Only.refl _ _
    | with_reducible assumption
    | with_reducible apply Only.cond _ ?_ ?_
    | with_reducible apply Only.step ?_ (State.linkAdvance_only ..) ?_
    | with_reducible apply Only.step ?_ (State.setLink_only ..) ?_
    | with_reducible apply Only.step ?_ (State.linkFlag_only ..) ?_
    | exact Eq.refl _
    | split)

theorem State.upstreamUtc_only (s : State) (p : ℕ) (body : List Byte) :
    Only (some [F.shadows, F.time, P.TBS_LEAP, P.TBS_UTC_OFFSET, P.TBS_UTC_VALID]) s (State.upstreamUtc s p body) := by
  unfold State.upstreamUtc
  repeat' (first
    | (extract_lets +onlyGivenNames t; refine Only.with_state (t := t) ?_ fun _ => ?_; subst t; rotate_left; clear_value t)
    | (extract_lets +onlyGivenNames t; clear_value t)
    | with_reducible exact Only.refl _ _
    | with_reducible assumption
    | with_reducible apply Only.cond _ ?_ ?_
    | with_reducible apply Only.wr ?_ ?_ _ _
    | with_reducible apply Only.wrBoth ?_ ?_ ?_ _ _
    | with_reducible apply Only.step ?_ (State.announceLeap_only ..) ?_
    | exact Eq.refl _
    | extract_lets
    | split)

theorem execTsync_only (port : Fin 512) (body : List Byte) (raw2 : RawStamp) (raw3 : RawStamp) (s : State) :
    OnlyO (some ([F.cal, F.cmd, F.fault, F.fresh, F.linkRun, F.links, F.refs, F.rings, F.servo, F.shadows, F.time, P.CMD_NOTICE_DROP, P.CMD_REFUSED_COUNT, P.HIE_RX_DISCARD, P.HLT_FAULT_COUNT, P.HLT_STICKY, P.LNK_BEVT, P.LNK_FLAGS, P.LNK_STATE, P.REF_ACTIVE, P.REF_DEV, P.REF_FLAGS, P.REF_HO_C, P.REF_HO_D] ++
      [P.REF_HO_Y0, P.REF_QSTATE, P.REF_SWLOG_HEAD, P.REF_SWLOG_INFO, P.REF_SWLOG_TIME, P.REF_TSTATE, P.TBS_BOUND_NOW, P.TBS_BOUND_PS, P.TBS_DOM_SELECTED, P.TBS_LEAP, P.TBS_OVER_LIMIT_COUNT, P.TBS_UTC_OFFSET, P.TBS_UTC_VALID])) s (execTsync port body raw2 raw3 s) := by
  unfold execTsync
  repeat' (first
    | (extract_lets +onlyGivenNames t; refine OnlyO.with_state (t := t) ?_ fun _ => ?_; subst t; rotate_left; clear_value t)
    | (extract_lets +onlyGivenNames t; refine Only.with_state (t := t) ?_ fun _ => ?_; subst t; rotate_left; clear_value t)
    | (extract_lets +onlyGivenNames t; clear_value t)
    | with_reducible exact Only.refl _ _
    | with_reducible assumption
    | with_reducible apply OnlyO.of ?_
    | with_reducible apply OnlyO.cond _ ?_ ?_
    | with_reducible apply Only.cond _ ?_ ?_
    | with_reducible apply Only.count_plain ?_ ?_ (by decide) _ _
    | with_reducible apply Only.count ?_ ?_ ?_ ?_ _ _
    | with_reducible apply Only.step ?_ (State.stamped_only ..) ?_
    | with_reducible apply Only.step ?_ (State.roleSeen_only ..) ?_
    | with_reducible apply Only.step ?_ (State.upstreamUtc_only ..) ?_
    | with_reducible apply Only.step ?_ (State.hopLimited_only ..) ?_
    | with_reducible apply Only.step ?_ (State.linkFlag_only ..) ?_
    | with_reducible apply Only.step ?_ (State.setLink_only ..) ?_
    | with_reducible apply Only.step ?_ (State.nhpSend_only ..) ?_
    | exact Eq.refl _
    | extract_lets
    | split)

theorem State.measureFibre_only (s : State) (p : ℕ) :
    Only (some [F.lock]) s (State.measureFibre s p) := by
  unfold State.measureFibre
  repeat' (first
    | with_reducible exact Only.refl _ _
    | with_reducible assumption
    | with_reducible apply Only.cond _ ?_ ?_
    | exact Eq.refl _
    | split
    | with_reducible apply Only.set_lock ?_ ?_ _)

theorem execTdreq_only (port : Fin 512) (body : List Byte) (raw4 : RawStamp) (s : State) :
    OnlyO (some ([F.cal, F.cmd, F.fault, F.fresh, F.linkRun, F.links, F.lock, F.refs, F.rings, F.servo, P.CMD_NOTICE_DROP, P.CMD_REFUSED_COUNT, P.HIE_RX_DISCARD, P.HLT_FAULT_COUNT, P.HLT_STICKY, P.LNK_BEVT, P.LNK_DISCARDS, P.LNK_FLAGS, P.LNK_RT, P.LNK_STATE, P.REF_ACTIVE, P.REF_BREF, P.REF_DEV, P.REF_FLAGS] ++
      [P.REF_HO_C, P.REF_HO_D, P.REF_HO_Y0, P.REF_KIND, P.REF_QSTATE, P.REF_SWLOG_HEAD, P.REF_SWLOG_INFO, P.REF_SWLOG_TIME, P.REF_TSTATE, P.TBS_BOUND_NOW, P.TBS_BOUND_PS, P.TBS_DOM_SELECTED, P.TBS_OVER_LIMIT_COUNT])) s (execTdreq port body raw4 s) := by
  unfold execTdreq
  repeat' (first
    | (extract_lets +onlyGivenNames t; refine OnlyO.with_state (t := t) ?_ fun _ => ?_; subst t; rotate_left; clear_value t)
    | (extract_lets +onlyGivenNames t; refine Only.with_state (t := t) ?_ fun _ => ?_; subst t; rotate_left; clear_value t)
    | (extract_lets +onlyGivenNames t; clear_value t)
    | with_reducible exact Only.refl _ _
    | with_reducible assumption
    | with_reducible apply OnlyO.of ?_
    | with_reducible apply OnlyO.cond _ ?_ ?_
    | with_reducible apply Only.cond _ ?_ ?_
    | with_reducible apply Only.count_plain ?_ ?_ (by decide) _ _
    | with_reducible apply Only.count ?_ ?_ ?_ ?_ _ _
    | with_reducible apply Only.step ?_ (State.stamped_only ..) ?_
    | with_reducible apply Only.step ?_ (State.roleSeen_only ..) ?_
    | with_reducible apply Only.step ?_ (State.partnerWiden_only ..) ?_
    | with_reducible apply Only.step ?_ (State.nhpSend_only ..) ?_
    | with_reducible apply Only.step ?_ (State.setLink_only ..) ?_
    | with_reducible apply Only.step ?_ (State.measureFibre_only ..) ?_
    | with_reducible apply Only.trans ?_ (State.roundTrip_only _ _ _ _ _ ?_ rfl)
    | exact fun t => Only.refl _ t
    | exact fun t => (State.acceptExchange_only ..).mono rfl
    | with_reducible apply Only.step ?_ (State.discardExchange_only ..) ?_
    | exact Eq.refl _
    | extract_lets
    | split)

theorem State.acceptExchange_only (s : State) (p : ℕ) (x : Exchange) (rt : ℤ) (sender : ℕ) :
    Only (some ([F.cmd, F.fault, F.fresh, F.links, F.refs, F.rings, F.servo, P.CMD_NOTICE_DROP, P.HLT_FAULT_COUNT, P.HLT_STICKY, P.LNK_OFFSET, P.REF_ACTIVE, P.REF_BREF, P.REF_DEV, P.REF_FLAGS, P.REF_HO_C, P.REF_HO_D, P.REF_HO_Y0, P.REF_KIND, P.REF_QSTATE, P.REF_SWLOG_HEAD, P.REF_SWLOG_INFO, P.REF_SWLOG_TIME, P.REF_TSTATE] ++
      [P.TBS_BOUND_NOW, P.TBS_BOUND_PS, P.TBS_DOM_BOUND, P.TBS_DOM_OFFSET, P.TBS_DOM_SELECTED])) s (State.acceptExchange s p x rt sender) := by
  unfold State.acceptExchange
  repeat' (first
    | (extract_lets +onlyGivenNames t; refine Only.with_state (t := t) ?_ fun _ => ?_; subst t; rotate_left; clear_value t)
    | (extract_lets +onlyGivenNames t; clear_value t)
    | with_reducible exact Only.refl _ _
    | with_reducible assumption
    | with_reducible apply Only.wrS ?_ ?_ _ _ _
    | with_reducible apply Only.step ?_ (State.setLink_only ..) ?_
    | with_reducible apply Only.step ?_ (State.showTheta_only ..) ?_
    | with_reducible apply Only.step ?_ (State.linkDomains_only ..) ?_
    | with_reducible apply Only.step ?_ (State.linkBref_only ..) ?_
    | exact Eq.refl _
    | extract_lets)

theorem State.dropExchange_only (s : State) (p : ℕ) (seq : ℕ) :
    Only (some [F.links]) s (State.dropExchange s p seq) := by
  unfold State.dropExchange
  repeat' (first
    | with_reducible exact Only.refl _ _
    | with_reducible assumption
    | with_reducible apply Only.step ?_ (State.setLink_only ..) ?_
    | exact Eq.refl _)

theorem execTdresp_only (port : Fin 512) (body : List Byte) (s : State) :
    OnlyO (some ([F.cal, F.cmd, F.fault, F.fresh, F.linkRun, F.links, F.refs, F.rings, F.servo, P.CMD_NOTICE_DROP, P.CMD_REFUSED_COUNT, P.HIE_RX_DISCARD, P.HLT_FAULT_COUNT, P.HLT_STICKY, P.LNK_BEVT, P.LNK_DISCARDS, P.LNK_FLAGS, P.LNK_OFFSET, P.LNK_RT, P.LNK_STATE, P.REF_ACTIVE, P.REF_BREF, P.REF_DEV, P.REF_FLAGS] ++
      [P.REF_HO_C, P.REF_HO_D, P.REF_HO_Y0, P.REF_KIND, P.REF_QSTATE, P.REF_SWLOG_HEAD, P.REF_SWLOG_INFO, P.REF_SWLOG_TIME, P.REF_TSTATE, P.TBS_BOUND_NOW, P.TBS_BOUND_PS, P.TBS_DOM_BOUND, P.TBS_DOM_OFFSET, P.TBS_DOM_SELECTED, P.TBS_OVER_LIMIT_COUNT])) s (execTdresp port body s) := by
  unfold execTdresp
  repeat' (first
    | (extract_lets +onlyGivenNames t; refine OnlyO.with_state (t := t) ?_ fun _ => ?_; subst t; rotate_left; clear_value t)
    | (extract_lets +onlyGivenNames t; refine Only.with_state (t := t) ?_ fun _ => ?_; subst t; rotate_left; clear_value t)
    | (extract_lets +onlyGivenNames t; clear_value t)
    | with_reducible exact Only.refl _ _
    | with_reducible assumption
    | with_reducible apply OnlyO.of ?_
    | with_reducible apply OnlyO.cond _ ?_ ?_
    | with_reducible apply Only.cond _ ?_ ?_
    | with_reducible apply Only.count_plain ?_ ?_ (by decide) _ _
    | with_reducible apply Only.count ?_ ?_ ?_ ?_ _ _
    | with_reducible apply Only.step ?_ (State.stamped_only ..) ?_
    | with_reducible apply Only.step ?_ (State.partnerWiden_only ..) ?_
    | with_reducible apply Only.step ?_ (State.dropExchange_only ..) ?_
    | with_reducible apply Only.step ?_ (State.discardExchange_only ..) ?_
    | with_reducible apply Only.trans ?_ (State.roundTrip_only _ _ _ _ _ ?_ rfl)
    | exact fun t => Only.refl _ t
    | exact fun t => (State.acceptExchange_only ..).mono rfl
    | with_reducible apply Only.step ?_ (State.acceptExchange_only ..) ?_
    | exact Eq.refl _
    | extract_lets
    | split)

theorem execRespTimeout_only (port : Fin 512) (s : State) :
    OnlyO (some ([F.cal, F.cmd, F.fault, F.fresh, F.linkRun, F.links, F.refs, F.rings, F.servo, P.CMD_NOTICE_DROP, P.CMD_REFUSED_COUNT, P.HLT_FAULT_COUNT, P.HLT_STICKY, P.LNK_BEVT, P.LNK_DISCARDS, P.LNK_STATE, P.REF_ACTIVE, P.REF_BREF, P.REF_DEV, P.REF_FLAGS, P.REF_HO_C, P.REF_HO_D, P.REF_HO_Y0, P.REF_KIND] ++
      [P.REF_QSTATE, P.REF_SWLOG_HEAD, P.REF_SWLOG_INFO, P.REF_SWLOG_TIME, P.REF_TSTATE, P.TBS_BOUND_NOW, P.TBS_BOUND_PS, P.TBS_DOM_SELECTED, P.TBS_OVER_LIMIT_COUNT])) s (execRespTimeout port s) := by
  unfold execRespTimeout
  repeat' (first
    | (extract_lets +onlyGivenNames t; refine OnlyO.with_state (t := t) ?_ fun _ => ?_; subst t; rotate_left; clear_value t)
    | (extract_lets +onlyGivenNames t; refine Only.with_state (t := t) ?_ fun _ => ?_; subst t; rotate_left; clear_value t)
    | (extract_lets +onlyGivenNames t; clear_value t)
    | with_reducible exact Only.refl _ _
    | with_reducible assumption
    | with_reducible apply OnlyO.of ?_
    | with_reducible apply Only.step ?_ (State.discardExchange_only ..) ?_
    | with_reducible apply Only.step ?_ (State.dropExchange_only ..) ?_
    | exact Eq.refl _
    | extract_lets
    | split)

theorem execTcal_only (port : Fin 512) (body : List Byte) (s : State) :
    OnlyO (some [F.linkRun, F.tcal, P.HIE_RX_DISCARD, P.TBS_OVER_LIMIT_COUNT]) s (execTcal port body s) := by
  unfold execTcal
  repeat' (first
    | (extract_lets +onlyGivenNames t; refine OnlyO.with_state (t := t) ?_ fun _ => ?_; subst t; rotate_left; clear_value t)
    | (extract_lets +onlyGivenNames t; refine Only.with_state (t := t) ?_ fun _ => ?_; subst t; rotate_left; clear_value t)
    | (extract_lets +onlyGivenNames t; clear_value t)
    | with_reducible exact Only.refl _ _
    | with_reducible assumption
    | with_reducible apply OnlyO.of ?_
    | with_reducible apply OnlyO.cond _ ?_ ?_
    | with_reducible apply Only.cond _ ?_ ?_
    | with_reducible apply Only.count_plain ?_ ?_ (by decide) _ _
    | with_reducible apply Only.count ?_ ?_ ?_ ?_ _ _
    | with_reducible apply Only.step ?_ (State.stamped_only ..) ?_
    | exact Eq.refl _
    | extract_lets
    | split
    | with_reducible apply Only.set_tcal ?_ ?_ _
    | with_reducible apply Only.set_linkRun ?_ ?_ _)

theorem State.calPulse_only (s : State) (input : ℕ) (x : Stamp) :
    Only (some [F.linkRun, F.tcal, P.TBS_OVER_LIMIT_COUNT]) s (State.calPulse s input x) := by
  unfold State.calPulse
  repeat' (first
    | (extract_lets +onlyGivenNames t; refine Only.with_state (t := t) ?_ fun _ => ?_; subst t; rotate_left; clear_value t)
    | (extract_lets +onlyGivenNames t; refine Only.with_pair (t := t) ?_ fun _ => ?_; subst t; rotate_left; clear_value t)
    | (extract_lets +onlyGivenNames t; have q : ℕ := t; clear q; clear_value t)
    | (extract_lets +onlyGivenNames t; have q : Bool := t; clear q; clear_value t)
    | (extract_lets +onlyGivenNames t; have q : ℤ := t; clear q; clear_value t)
    | (extract_lets +onlyGivenNames t; have q : Option _ := t; clear q; clear_value t)
    | (extract_lets +onlyGivenNames t; have q : List _ := t; clear q; clear_value t)
    | (extract_lets +onlyGivenNames t; have q : _ × _ := t; clear q; clear_value t)
    | with_reducible exact Only.refl _ _
    | with_reducible assumption
    | with_reducible apply Only.fold _ _ (fun _ _ => ?_) ?_
    | with_reducible apply OnlyP.fold _ _ (fun _ _ => ?_) ?_
    | with_reducible apply OnlyP.of ?_
    | with_reducible apply OnlyP.cond _ ?_ ?_
    | with_reducible apply Only.cond _ ?_ ?_
    | with_reducible apply Only.step ?_ (State.nhpSend_only ..) ?_
    | exact Eq.refl _
    | extract_lets
    | split
    | with_reducible apply Only.set_tcal ?_ ?_ _
    | with_reducible apply Only.set_linkRun ?_ ?_ _)

theorem State.ptpSend_only (s : State) (p : ℕ) (dst : ℕ) (path : PtpPath) (msg : List Byte) :
    Only (some [P.TBS_OVER_LIMIT_COUNT]) s (State.ptpSend s p dst path msg) := by
  unfold State.ptpSend
  repeat' (first
    | (extract_lets +onlyGivenNames t; refine Only.with_state (t := t) ?_ fun _ => ?_; subst t; rotate_left; clear_value t)
    | (extract_lets +onlyGivenNames t; clear_value t)
    | with_reducible exact Only.refl _ _
    | with_reducible assumption
    | with_reducible apply Only.emit ?_ _
    | with_reducible apply Only.step ?_ (State.stamped_only ..) ?_
    | exact Eq.refl _
    | extract_lets
    | split)

theorem State.ptpNext_only (s : State) (p : ℕ) (type : ℕ) :
    OnlyP (some [F.ptpSeq]) s (State.ptpNext s p type) := by
  unfold State.ptpNext
  repeat' (first
    | (extract_lets +onlyGivenNames t; refine OnlyP.with_state (t := t) ?_ fun _ => ?_; subst t; rotate_left; clear_value t)
    | (extract_lets +onlyGivenNames t; refine Only.with_state (t := t) ?_ fun _ => ?_; subst t; rotate_left; clear_value t)
    | (extract_lets +onlyGivenNames t; clear_value t)
    | with_reducible exact Only.refl _ _
    | with_reducible assumption
    | with_reducible apply OnlyP.of ?_
    | exact Eq.refl _
    | extract_lets
    | with_reducible apply Only.set_ptpSeq ?_ ?_ _)

theorem execPtpSyncSend_only (port : Fin 512) (announce : Bool) (unicast : Option (ℕ × ℕ)) (tx : RawStamp) (s : State) :
    OnlyO (some [F.ptpSeq, P.TBS_OVER_LIMIT_COUNT]) s (execPtpSyncSend port announce unicast tx s) := by
  unfold execPtpSyncSend
  repeat' (first
    | (extract_lets +onlyGivenNames t; refine OnlyO.with_state (t := t) ?_ fun _ => ?_; subst t; rotate_left; clear_value t)
    | (extract_lets +onlyGivenNames t; refine OnlyO.with_pair (t := t) ?_ fun _ => ?_; subst t; rotate_left; clear_value t)
    | (extract_lets +onlyGivenNames t; refine Only.with_state (t := t) ?_ fun _ => ?_; subst t; rotate_left; clear_value t)
    | (extract_lets +onlyGivenNames t; refine Only.with_pair (t := t) ?_ fun _ => ?_; subst t; rotate_left; clear_value t)
    | (extract_lets +onlyGivenNames t; have q : ℕ := t; clear q; clear_value t)
    | (extract_lets +onlyGivenNames t; have q : Bool := t; clear q; clear_value t)
    | (extract_lets +onlyGivenNames t; have q : ℤ := t; clear q; clear_value t)
    | (extract_lets +onlyGivenNames t; have q : Option _ := t; clear q; clear_value t)
    | (extract_lets +onlyGivenNames t; have q : List _ := t; clear q; clear_value t)
    | (extract_lets +onlyGivenNames t; have q : _ × _ := t; clear q; clear_value t)
    | with_reducible exact Only.refl _ _
    | with_reducible assumption
    | with_reducible apply OnlyO.of ?_
    | with_reducible apply OnlyO.cond _ ?_ ?_
    | with_reducible apply Only.cond _ ?_ ?_
    | with_reducible apply Only.fst ?_ (State.ptpNext_only ..) ?_
    | with_reducible apply Only.pair (by assumption) (State.ptpNext_only ..) ?_ ?_
    | with_reducible apply OnlyP.step ?_ (State.ptpNext_only ..) ?_
    | with_reducible apply Only.step ?_ (State.ptpSend_only ..) ?_
    | exact Eq.refl _
    | extract_lets
    | split)

theorem State.countClients_only (s : State) :
    Only (some [P.LNK_PTP_UNICAST]) s (State.countClients s) := by
  unfold State.countClients
  repeat' (first
    | with_reducible exact Only.refl _ _
    | with_reducible assumption
    | with_reducible apply Only.wr ?_ ?_ _ _
    | exact Eq.refl _)

theorem execPtpUnicastRequest_only (port : Fin 512) (clock : BitVec 64) (number : BitVec 16) (client : PtpClient) (msg : Fin 16) (period : BitVec 8) (duration : BitVec 32) (s : State) :
    OnlyO (some [F.grants, F.ptpSeq, P.LNK_PTP_REFUSED, P.LNK_PTP_UNICAST, P.TBS_OVER_LIMIT_COUNT]) s (execPtpUnicastRequest port clock number client msg period duration s) := by
  unfold execPtpUnicastRequest
  repeat' (first
    | (extract_lets +onlyGivenNames t; refine OnlyO.with_state (t := t) ?_ fun _ => ?_; subst t; rotate_left; clear_value t)
    | (extract_lets +onlyGivenNames t; refine OnlyO.with_pair (t := t) ?_ fun _ => ?_; subst t; rotate_left; clear_value t)
    | (extract_lets +onlyGivenNames t; refine Only.with_state (t := t) ?_ fun _ => ?_; subst t; rotate_left; clear_value t)
    | (extract_lets +onlyGivenNames t; refine Only.with_pair (t := t) ?_ fun _ => ?_; subst t; rotate_left; clear_value t)
    | (extract_lets +onlyGivenNames t; clear_value t)
    | with_reducible exact Only.refl _ _
    | with_reducible assumption
    | with_reducible apply OnlyO.of ?_
    | with_reducible apply OnlyO.cond _ ?_ ?_
    | with_reducible apply Only.cond _ ?_ ?_
    | with_reducible apply Only.count_plain ?_ ?_ (by decide) _ _
    | with_reducible apply Only.count ?_ ?_ ?_ ?_ _ _
    | with_reducible apply Only.step ?_ (State.stamped_only ..) ?_
    | with_reducible apply Only.fst ?_ (State.ptpNext_only ..) ?_
    | with_reducible apply Only.pair (by assumption) (State.ptpNext_only ..) ?_ ?_
    | with_reducible apply OnlyP.step ?_ (State.ptpNext_only ..) ?_
    | with_reducible apply Only.step ?_ (State.ptpSend_only ..) ?_
    | with_reducible apply Only.step ?_ (State.countClients_only ..) ?_
    | exact Eq.refl _
    | extract_lets
    | split
    | with_reducible apply Only.set_grants ?_ ?_ _)

theorem execGrantExpiry_only (clock : BitVec 64) (number : BitVec 16) (s : State) :
    OnlyO (some [F.grants, P.LNK_PTP_UNICAST]) s (execGrantExpiry clock number s) := by
  unfold execGrantExpiry
  repeat' (first
    | (extract_lets +onlyGivenNames t; refine OnlyO.with_state (t := t) ?_ fun _ => ?_; subst t; rotate_left; clear_value t)
    | (extract_lets +onlyGivenNames t; refine Only.with_state (t := t) ?_ fun _ => ?_; subst t; rotate_left; clear_value t)
    | (extract_lets +onlyGivenNames t; clear_value t)
    | with_reducible exact Only.refl _ _
    | with_reducible assumption
    | with_reducible apply OnlyO.of ?_
    | with_reducible apply Only.step ?_ (State.countClients_only ..) ?_
    | exact Eq.refl _
    | extract_lets
    | with_reducible apply Only.set_grants ?_ ?_ _)

theorem execDelayReq_only (port : Fin 512) (msg : List Byte) (client : PtpClient) (rx : RawStamp) (tx : RawStamp) (s : State) :
    OnlyO (some [P.TBS_OVER_LIMIT_COUNT]) s (execDelayReq port msg client rx tx s) := by
  unfold execDelayReq
  repeat' (first
    | (extract_lets +onlyGivenNames t; refine OnlyO.with_state (t := t) ?_ fun _ => ?_; subst t; rotate_left; clear_value t)
    | (extract_lets +onlyGivenNames t; refine Only.with_state (t := t) ?_ fun _ => ?_; subst t; rotate_left; clear_value t)
    | (extract_lets +onlyGivenNames t; clear_value t)
    | with_reducible exact Only.refl _ _
    | with_reducible assumption
    | with_reducible apply OnlyO.of ?_
    | with_reducible apply OnlyO.cond _ ?_ ?_
    | with_reducible apply Only.cond _ ?_ ?_
    | with_reducible apply Only.step ?_ (State.stamped_only ..) ?_
    | with_reducible apply Only.step ?_ (State.ptpSend_only ..) ?_
    | exact Eq.refl _
    | extract_lets
    | split)

end Sys2Proof.Machine
end

