-- ==== Sys2Proof/Laws/OnlyFrames.lean ====
section
/-! SUPPORT. What each operation of Machine/Frames.lean can change. -/

set_option linter.unusedTactic false
set_option linter.unreachableTactic false
set_option linter.tactic.unusedName false

namespace Sys2Proof.Machine

theorem State.inserted_only (s : State) (p : ℕ) (f : Frame) (tx : Stamp) :
    OnlyP (some [P.TBS_OVW_SKIP, P.TBS_PTP_SKIP, P.TBS_TRAILER_SKIP]) s (State.inserted s p f tx) := by
  unfold State.inserted
  repeat' (first
    | (extract_lets +onlyGivenNames t; refine OnlyP.with_state (t := t) ?_ fun _ => ?_; subst t; rotate_left; clear_value t)
    | (extract_lets +onlyGivenNames t; refine Only.with_state (t := t) ?_ fun _ => ?_; subst t; rotate_left; clear_value t)
    | (extract_lets +onlyGivenNames t; clear_value t)
    | with_reducible exact Only.refl _ _
    | with_reducible assumption
    | with_reducible apply OnlyP.of ?_
    | with_reducible apply OnlyP.cond _ ?_ ?_
    | with_reducible apply Only.cond _ ?_ ?_
    | with_reducible apply Only.count_plain ?_ ?_ (by decide) _ _
    | with_reducible apply Only.count ?_ ?_ ?_ ?_ _ _
    | exact Eq.refl _
    | extract_lets
    | split)

end Sys2Proof.Machine
end

