-- ==== Sys2Proof/Laws/OnlyLayout.lean ====
section
/-! SUPPORT. What each operation of Machine/Layout.lean can change. -/

set_option linter.unusedTactic false
set_option linter.unreachableTactic false
set_option linter.tactic.unusedName false

namespace Sys2Proof.Machine

theorem State.traceWrite_only (s : State) (r : List Byte) :
    Only (some [F.pad, F.windowAt, P.OBS_TRACE_DROP, P.OBS_TRACE_HEAD, P.OBS_TRACE_OLDEST]) s (State.traceWrite s r) := by
  unfold State.traceWrite
  repeat' (first
    | (extract_lets +onlyGivenNames t; refine Only.with_state (t := t) ?_ fun _ => ?_; subst t; rotate_left; clear_value t)
    | (extract_lets +onlyGivenNames t; clear_value t)
    | with_reducible exact Only.refl _ _
    | with_reducible assumption
    | with_reducible apply Only.cond _ ?_ ?_
    | with_reducible apply Only.padWrite ?_ ?_ _ _
    | with_reducible apply Only.wr ?_ ?_ _ _
    | with_reducible apply Only.count_plain ?_ ?_ (by decide) _ _
    | with_reducible apply Only.count ?_ ?_ ?_ ?_ _ _
    | exact Eq.refl _
    | extract_lets
    | split
    | with_reducible apply Only.set_windowAt ?_ ?_ _)

theorem State.traceEvent_only (s : State) (f : Frame) (a : TraceAt) :
    Only (some [F.pad, F.windowAt, P.OBS_TRACE_DROP, P.OBS_TRACE_HEAD, P.OBS_TRACE_OLDEST]) s (State.traceEvent s f a) := by
  unfold State.traceEvent
  repeat' (first
    | with_reducible exact Only.refl _ _
    | with_reducible assumption
    | with_reducible apply Only.step ?_ (State.traceWrite_only ..) ?_
    | exact Eq.refl _
    | split)

theorem State.traceDrop_only (s : State) (f : Frame) (stage : ℕ) (unit : ℕ) (counter : ℕ) :
    Only (some [F.pad, F.windowAt, P.OBS_TRACE_DROP, P.OBS_TRACE_HEAD, P.OBS_TRACE_OLDEST]) s (State.traceDrop s f stage unit counter) := by
  unfold State.traceDrop
  repeat' (first
    | with_reducible exact Only.refl _ _
    | with_reducible assumption
    | with_reducible apply Only.cond _ ?_ ?_
    | with_reducible apply Only.step ?_ (State.traceEvent_only ..) ?_
    | exact Eq.refl _
    | split)

end Sys2Proof.Machine
end

