-- ==== Sys2Proof/Laws/OnlyTables.lean ====
section
/-! SUPPORT. What each operation of Machine/Tables.lean can change. -/

set_option linter.unusedTactic false
set_option linter.unreachableTactic false
set_option linter.tactic.unusedName false

namespace Sys2Proof.Machine

theorem State.setTables_only (s : State) (f : Tables → Tables) :
    Only (some [F.tables]) s (State.setTables s f) := by
  unfold State.setTables
  repeat' (first
    | with_reducible exact Only.refl _ _
    | with_reducible assumption
    | exact Eq.refl _
    | with_reducible apply Only.set_tables ?_ ?_ _)

theorem State.setFab_only (s : State) (f : Fabric → Fabric) :
    Only (some [F.fabric]) s (State.setFab s f) := by
  unfold State.setFab
  repeat' (first
    | with_reducible exact Only.refl _ _
    | with_reducible assumption
    | exact Eq.refl _
    | with_reducible apply Only.set_fabric ?_ ?_ _)

theorem State.macSet_only (s : State) (r : ℕ) (i : ℕ) (e : Option MacEntry) :
    Only (some [F.tables, P.TBL_OCCUPANCY, P.TBL_STASH_USED]) s (State.macSet s r i e) := by
  unfold State.macSet
  repeat' (first
    | (extract_lets +onlyGivenNames t; refine Only.with_state (t := t) ?_ fun _ => ?_; subst t; rotate_left; clear_value t)
    | (extract_lets +onlyGivenNames t; clear_value t)
    | with_reducible exact Only.refl _ _
    | with_reducible assumption
    | with_reducible apply Only.cond _ ?_ ?_
    | with_reducible apply Only.wr ?_ ?_ _ _
    | with_reducible apply Only.step ?_ (State.setTables_only ..) ?_
    | exact Eq.refl _
    | extract_lets
    | split)


theorem State.flushCount_only (s : State) (r : ℕ) :
    Only (some [F.tables]) s (State.flushCount s r) := by
  unfold State.flushCount
  repeat' (first
    | (extract_lets +onlyGivenNames t; refine Only.with_state (t := t) ?_ fun _ => ?_; subst t; rotate_left; clear_value t)
    | (extract_lets +onlyGivenNames t; have q : ℕ := t; clear q; clear_value t)
    | (extract_lets +onlyGivenNames t; have q : Bool := t; clear q; clear_value t)
    | (extract_lets +onlyGivenNames t; have q : ℤ := t; clear q; clear_value t)
    | (extract_lets +onlyGivenNames t; have q : Option _ := t; clear q; clear_value t)
    | (extract_lets +onlyGivenNames t; have q : List _ := t; clear q; clear_value t)
    | (extract_lets +onlyGivenNames t; have q : _ × _ := t; clear q; clear_value t)
    | with_reducible exact Only.refl _ _
    | with_reducible assumption
    | with_reducible apply Only.cond _ ?_ ?_
    | with_reducible apply Only.step ?_ (State.setTables_only ..) ?_
    | exact Eq.refl _
    | extract_lets
    | split)

theorem State.cuckoo_only (s : State) (r seed gen n : Nat) (carry : MacEntry) (b moved : Nat) :
    OnlyP (some [F.tables, P.TBL_OCCUPANCY, P.TBL_STASH_USED]) s (State.cuckoo s r seed gen n carry b moved) := by
  induction n generalizing s carry b moved with
  | zero =>
    unfold State.cuckoo
    split
    · exact OnlyP.of (State.macSet_only ..)
    · exact OnlyP.of (Only.refl _ _)
  | succ n ih =>
    unfold State.cuckoo
    dsimp only
    split
    · exact OnlyP.of (State.macSet_only ..)
    · rename_i y _
      refine OnlyP.cond _ (OnlyP.of ((State.macSet_only s r _ _).step (State.flushCount_only ..) (by exact Eq.refl _))) ?_
      split
      · rename_i u hu
        unfold State.placeDirect at hu
        obtain ⟨k, _, rfl⟩ := Option.map_eq_some_iff.mp hu
        exact OnlyP.of ((State.macSet_only s r _ _).step (State.macSet_only ..) (by exact Eq.refl _))
      · exact OnlyP.step (State.macSet_only s r _ _) (ih ..) (by exact Eq.refl _)

theorem State.macPlace_only (s : State) (r : Nat) (seed : Nat) (e : MacEntry) :
    OnlyP (some [F.tables, P.TBL_DISPLACE_SEQ, P.TBL_OCCUPANCY, P.TBL_STASH_USED]) s (State.macPlace s r seed e) := by
  unfold State.macPlace
  dsimp only
  split
  · rename_i u hu
    unfold State.placeDirect at hu
    obtain ⟨k, _, rfl⟩ := Option.map_eq_some_iff.mp hu
    exact OnlyP.of ((State.macSet_only ..).mono (by exact Eq.refl _))
  · exact OnlyP.of ((Only.cond _ (Only.fst (Only.refl _ _) (State.cuckoo_only ..) (by exact Eq.refl _)) (Only.refl _ _)).wr (by exact Eq.refl _) _ _)

theorem State.rehashNeeded_only (s : State) (r : ℕ) (cause : ℕ) (vid : ℕ) (mac : ℕ) :
    Only (some [F.cmd, F.rings, P.CMD_NOTICE_DROP]) s (State.rehashNeeded s r cause vid mac) := by
  unfold State.rehashNeeded
  repeat' (first
    | with_reducible exact Only.refl _ _
    | with_reducible assumption
    | with_reducible apply Only.step ?_ (State.notice_only ..) ?_
    | exact Eq.refl _)

theorem State.learnFailed_only (s : State) (r : ℕ) (vid : ℕ) (mac : ℕ) :
    Only (some [F.cmd, F.rings, F.tables, P.CMD_NOTICE_DROP, P.TBL_FLAGS, P.TBL_LEARN_FAIL]) s (State.learnFailed s r vid mac) := by
  unfold State.learnFailed
  repeat' (first
    | (extract_lets +onlyGivenNames t; refine Only.with_state (t := t) ?_ fun _ => ?_; subst t; rotate_left; clear_value t)
    | (extract_lets +onlyGivenNames t; clear_value t)
    | with_reducible exact Only.refl _ _
    | with_reducible assumption
    | with_reducible apply Only.cond _ ?_ ?_
    | with_reducible apply Only.orIn ?_ ?_ _ _
    | with_reducible apply Only.count_plain ?_ ?_ (by decide) _ _
    | with_reducible apply Only.count ?_ ?_ ?_ ?_ _ _
    | with_reducible apply Only.step ?_ (State.rehashNeeded_only ..) ?_
    | with_reducible apply Only.step ?_ (State.setTables_only ..) ?_
    | exact Eq.refl _
    | extract_lets
    | split)

theorem State.streamRead_only (s : State) (r : ℕ) (sid : ℕ) (err : Bool) :
    OnlyP (some [F.tables, P.TBL_FLAGS, P.TBL_STREAM_ECC]) s (State.streamRead s r sid err) := by
  unfold State.streamRead
  repeat' (first
    | with_reducible exact Only.refl _ _
    | with_reducible assumption
    | with_reducible apply OnlyP.of ?_
    | with_reducible apply OnlyP.cond _ ?_ ?_
    | with_reducible apply Only.cond _ ?_ ?_
    | with_reducible apply Only.orIn ?_ ?_ _ _
    | with_reducible apply Only.count_plain ?_ ?_ (by decide) _ _
    | with_reducible apply Only.count ?_ ?_ ?_ ?_ _ _
    | with_reducible apply Only.step ?_ (State.setTables_only ..) ?_
    | exact Eq.refl _
    | split)

theorem State.macLost_only (s : State) (r : ℕ) (vid : ℕ) (mac : ℕ) (err : Bool) :
    Only (some [F.tables, P.TBL_OCCUPANCY, P.TBL_STASH_USED]) s (State.macLost s r vid mac err) := by
  unfold State.macLost
  repeat' (first
    | with_reducible exact Only.refl _ _
    | with_reducible assumption
    | with_reducible apply Only.cond _ ?_ ?_
    | with_reducible apply Only.step ?_ (State.macSet_only ..) ?_
    | exact Eq.refl _
    | split)

theorem State.lookup_only (s : State) (p : ℕ) (f : List Byte) (streamErr : Bool) (macErr : Bool) :
    OnlyP (some [F.tables, P.TBL_FLAGS, P.TBL_HAIRPIN, P.TBL_OCCUPANCY, P.TBL_STASH_USED, P.TBL_STREAM_ECC]) s (State.lookup s p f streamErr macErr) := by
  unfold State.lookup
  repeat' (first
    | (extract_lets +onlyGivenNames t; refine OnlyP.with_state (t := t) ?_ fun _ => ?_; subst t; rotate_left; clear_value t)
    | (extract_lets +onlyGivenNames t; refine OnlyP.with_pair (t := t) ?_ fun _ => ?_; subst t; rotate_left; clear_value t)
    | (extract_lets +onlyGivenNames t; refine Only.with_state (t := t) ?_ fun _ => ?_; subst t; rotate_left; clear_value t)
    | (extract_lets +onlyGivenNames t; refine Only.with_pair (t := t) ?_ fun _ => ?_; subst t; rotate_left; clear_value t)
    | (extract_lets +onlyGivenNames t; clear_value t)
    | with_reducible exact Only.refl _ _
    | with_reducible assumption
    | with_reducible apply OnlyP.of ?_
    | with_reducible apply OnlyP.cond _ ?_ ?_
    | with_reducible apply Only.cond _ ?_ ?_
    | with_reducible apply Only.count_plain ?_ ?_ (by decide) _ _
    | with_reducible apply Only.count ?_ ?_ ?_ ?_ _ _
    | with_reducible apply Only.fst ?_ (State.streamRead_only ..) ?_
    | with_reducible apply Only.pair (by assumption) (State.streamRead_only ..) ?_ ?_
    | with_reducible apply OnlyP.step ?_ (State.streamRead_only ..) ?_
    | with_reducible apply Only.step ?_ (State.macLost_only ..) ?_
    | exact Eq.refl _
    | extract_lets
    | split)

theorem State.learnRequest_only (s : State) (p : ℕ) (f : List Byte) (l : Lookup) (ns : ℕ) :
    Only (some [F.tables, P.TBL_LEARN_DROP]) s (State.learnRequest s p f l ns) := by
  unfold State.learnRequest
  repeat' (first
    | (extract_lets +onlyGivenNames t; refine Only.with_state (t := t) ?_ fun _ => ?_; subst t; rotate_left; clear_value t)
    | (extract_lets +onlyGivenNames t; clear_value t)
    | with_reducible exact Only.refl _ _
    | with_reducible assumption
    | with_reducible apply Only.cond _ ?_ ?_
    | with_reducible apply Only.count_plain ?_ ?_ (by decide) _ _
    | with_reducible apply Only.count ?_ ?_ ?_ ?_ _ _
    | with_reducible apply Only.step ?_ (State.setTables_only ..) ?_
    | exact Eq.refl _
    | extract_lets
    | split)

theorem State.applyLearn_only (s : State) (l : Learn) :
    Only (some [F.cmd, F.rings, F.tables, P.CMD_NOTICE_DROP, P.TBL_DISPLACE_SEQ, P.TBL_FLAGS, P.TBL_LEARNS, P.TBL_LEARN_FAIL, P.TBL_LEARN_STALE, P.TBL_LEARN_SUPPR, P.TBL_MOVES, P.TBL_MOVE_REFUSED, P.TBL_OCCUPANCY, P.TBL_STASH_USED]) s (State.applyLearn s l) := by
  unfold State.applyLearn
  repeat' (first
    | (extract_lets +onlyGivenNames t; refine Only.with_state (t := t) ?_ fun _ => ?_; subst t; rotate_left; clear_value t)
    | (extract_lets +onlyGivenNames t; refine Only.with_pair (t := t) ?_ fun _ => ?_; subst t; rotate_left; clear_value t)
    | (extract_lets +onlyGivenNames t; clear_value t)
    | with_reducible exact Only.refl _ _
    | with_reducible assumption
    | with_reducible apply Only.cond _ ?_ ?_
    | with_reducible apply Only.orIn ?_ ?_ _ _
    | with_reducible apply Only.count_plain ?_ ?_ (by decide) _ _
    | with_reducible apply Only.count ?_ ?_ ?_ ?_ _ _
    | with_reducible apply Only.fst ?_ (State.macPlace_only ..) ?_
    | with_reducible apply Only.pair (by assumption) (State.macPlace_only ..) ?_ ?_
    | with_reducible apply OnlyP.step ?_ (State.macPlace_only ..) ?_
    | with_reducible apply Only.step ?_ (State.learnFailed_only ..) ?_
    | with_reducible apply Only.step ?_ (State.macSet_only ..) ?_
    | with_reducible apply Only.step ?_ (State.notice_only ..) ?_
    | exact Eq.refl _
    | extract_lets
    | split)

theorem execLearnApply_only (read : LearnRead) (s : State) :
    OnlyO (some [F.cmd, F.rings, F.tables, P.CMD_NOTICE_DROP, P.TBL_DISPLACE_SEQ, P.TBL_FLAGS, P.TBL_LEARNS, P.TBL_LEARN_DROP, P.TBL_LEARN_FAIL, P.TBL_LEARN_STALE, P.TBL_LEARN_SUPPR, P.TBL_MOVES, P.TBL_MOVE_REFUSED, P.TBL_OCCUPANCY, P.TBL_STASH_USED]) s (execLearnApply read s) := by
  unfold execLearnApply
  repeat' (first
    | (extract_lets +onlyGivenNames t; refine OnlyO.with_state (t := t) ?_ fun _ => ?_; subst t; rotate_left; clear_value t)
    | (extract_lets +onlyGivenNames t; refine Only.with_state (t := t) ?_ fun _ => ?_; subst t; rotate_left; clear_value t)
    | (extract_lets +onlyGivenNames t; clear_value t)
    | with_reducible exact Only.refl _ _
    | with_reducible assumption
    | with_reducible apply OnlyO.of ?_
    | with_reducible apply OnlyO.cond _ ?_ ?_
    | with_reducible apply Only.cond _ ?_ ?_
    | with_reducible apply Only.count_plain ?_ ?_ (by decide) _ _
    | with_reducible apply Only.count ?_ ?_ ?_ ?_ _ _
    | with_reducible apply Only.step ?_ (State.setTables_only ..) ?_
    | with_reducible apply Only.step ?_ (State.applyLearn_only ..) ?_
    | with_reducible apply Only.step ?_ (State.macLost_only ..) ?_
    | exact Eq.refl _
    | extract_lets
    | split)

theorem execAgeingSweep_only (reach : Fin 8) (s : State) :
    OnlyO (some [F.tables, P.TBL_AGED, P.TBL_OCCUPANCY, P.TBL_STASH_USED]) s (execAgeingSweep reach s) := by
  unfold execAgeingSweep
  repeat' (first
    | (extract_lets +onlyGivenNames t; refine OnlyO.with_state (t := t) ?_ fun _ => ?_; subst t; rotate_left; clear_value t)
    | (extract_lets +onlyGivenNames t; refine OnlyO.with_pair (t := t) ?_ fun _ => ?_; subst t; rotate_left; clear_value t)
    | (extract_lets +onlyGivenNames t; refine Only.with_state (t := t) ?_ fun _ => ?_; subst t; rotate_left; clear_value t)
    | (extract_lets +onlyGivenNames t; refine Only.with_pair (t := t) ?_ fun _ => ?_; subst t; rotate_left; clear_value t)
    | (extract_lets +onlyGivenNames t; clear_value t)
    | with_reducible exact Only.refl _ _
    | with_reducible assumption
    | with_reducible apply OnlyO.of ?_
    | with_reducible apply OnlyO.cond _ ?_ ?_
    | with_reducible apply Only.fold _ _ (fun _ _ => ?_) ?_
    | with_reducible apply OnlyP.fold _ _ (fun _ _ => ?_) ?_
    | with_reducible apply OnlyP.of ?_
    | with_reducible apply OnlyP.cond _ ?_ ?_
    | with_reducible apply Only.cond _ ?_ ?_
    | with_reducible apply Only.count_plain ?_ ?_ (by decide) _ _
    | with_reducible apply Only.count ?_ ?_ ?_ ?_ _ _
    | with_reducible apply Only.step ?_ (State.setTables_only ..) ?_
    | with_reducible apply Only.step ?_ (State.macSet_only ..) ?_
    | exact Eq.refl _
    | extract_lets
    | split)

theorem execSettleSweep_only (reach : Fin 8) (s : State) :
    OnlyO (some [F.tables, P.TBL_OCCUPANCY, P.TBL_STASH_USED]) s (execSettleSweep reach s) := by
  unfold execSettleSweep
  repeat' (first
    | (extract_lets +onlyGivenNames t; refine OnlyO.with_state (t := t) ?_ fun _ => ?_; subst t; rotate_left; clear_value t)
    | (extract_lets +onlyGivenNames t; refine OnlyO.with_pair (t := t) ?_ fun _ => ?_; subst t; rotate_left; clear_value t)
    | (extract_lets +onlyGivenNames t; refine Only.with_state (t := t) ?_ fun _ => ?_; subst t; rotate_left; clear_value t)
    | (extract_lets +onlyGivenNames t; refine Only.with_pair (t := t) ?_ fun _ => ?_; subst t; rotate_left; clear_value t)
    | (extract_lets +onlyGivenNames t; clear_value t)
    | with_reducible exact Only.refl _ _
    | with_reducible assumption
    | with_reducible apply OnlyO.of ?_
    | with_reducible apply OnlyO.cond _ ?_ ?_
    | with_reducible apply Only.fold _ _ (fun _ _ => ?_) ?_
    | with_reducible apply OnlyP.fold _ _ (fun _ _ => ?_) ?_
    | with_reducible apply OnlyP.of ?_
    | with_reducible apply OnlyP.cond _ ?_ ?_
    | with_reducible apply Only.cond _ ?_ ?_
    | with_reducible apply Only.step ?_ (State.setTables_only ..) ?_
    | with_reducible apply Only.step ?_ (State.macSet_only ..) ?_
    | exact Eq.refl _
    | extract_lets
    | split)

theorem State.epochUp_only (s : State) (r : ℕ) :
    Only (some [P.TBL_EPOCH]) s (State.epochUp s r) := by
  unfold State.epochUp
  repeat' (first
    | with_reducible exact Only.refl _ _
    | with_reducible assumption
    | with_reducible apply Only.wr ?_ ?_ _ _
    | exact Eq.refl _)

theorem State.openFence_only (s : State) (r : ℕ) (job : ℕ) :
    Only (some [F.tables]) s (State.openFence s r job) := by
  unfold State.openFence
  repeat' (first
    | with_reducible exact Only.refl _ _
    | with_reducible assumption
    | with_reducible apply Only.step ?_ (State.setTables_only ..) ?_
    | exact Eq.refl _)

theorem State.settleJob_only (s : State) (id : ℕ) :
    Only (some [F.cmd, F.rings, F.tables, P.CMD_REFUSED_COUNT, P.TBS_OVER_LIMIT_COUNT]) s (State.settleJob s id) := by
  unfold State.settleJob
  repeat' (first
    | with_reducible exact Only.refl _ _
    | with_reducible assumption
    | with_reducible apply Only.cond _ ?_ ?_
    | with_reducible apply Only.step ?_ (State.finish_only ..) ?_
    | with_reducible apply Only.step ?_ (State.setTables_only ..) ?_
    | exact Eq.refl _
    | split)

theorem State.setJob_only (s : State) (id : ℕ) (f : TblJob → TblJob) :
    Only (some [F.tables]) s (State.setJob s id f) := by
  unfold State.setJob
  repeat' (first
    | with_reducible exact Only.refl _ _
    | with_reducible assumption
    | with_reducible apply Only.step ?_ (State.setTables_only ..) ?_
    | exact Eq.refl _)

theorem execDrainFenceComplete_only (reach : Fin 8) (s : State) :
    OnlyO (some [F.cmd, F.rings, F.tables, P.CMD_REFUSED_COUNT, P.TBS_OVER_LIMIT_COUNT]) s (execDrainFenceComplete reach s) := by
  unfold execDrainFenceComplete
  repeat' (first
    | with_reducible exact Only.refl _ _
    | with_reducible assumption
    | with_reducible apply OnlyO.of ?_
    | with_reducible apply OnlyO.cond _ ?_ ?_
    | with_reducible apply Only.cond _ ?_ ?_
    | with_reducible apply Only.step ?_ (State.settleJob_only ..) ?_
    | with_reducible apply Only.step ?_ (State.setJob_only ..) ?_
    | with_reducible apply Only.step ?_ (State.setTables_only ..) ?_
    | exact Eq.refl _
    | split)

theorem tblSearch_only (o : Origin) (p : List Byte) (s : State) :
    Only (some [F.cmd, F.rings, P.CMD_REFUSED_COUNT, P.TBS_OVER_LIMIT_COUNT]) s (tblSearch o p s) := by
  unfold tblSearch
  repeat' (first
    | (extract_lets +onlyGivenNames t; refine Only.with_state (t := t) ?_ fun _ => ?_; subst t; rotate_left; clear_value t)
    | (extract_lets +onlyGivenNames t; have q : ℕ := t; clear q; clear_value t)
    | (extract_lets +onlyGivenNames t; have q : Bool := t; clear q; clear_value t)
    | (extract_lets +onlyGivenNames t; have q : ℤ := t; clear q; clear_value t)
    | (extract_lets +onlyGivenNames t; have q : Option _ := t; clear q; clear_value t)
    | (extract_lets +onlyGivenNames t; have q : List _ := t; clear q; clear_value t)
    | (extract_lets +onlyGivenNames t; have q : _ × _ := t; clear q; clear_value t)
    | with_reducible exact Only.refl _ _
    | with_reducible assumption
    | with_reducible apply Only.cond _ ?_ ?_
    | with_reducible apply Only.step ?_ (State.finish_only ..) ?_
    | exact Eq.refl _
    | extract_lets
    | split)

theorem tblNext_only (o : Origin) (p : List Byte) (s : State) :
    Only (some [F.cmd, F.rings, P.CMD_REFUSED_COUNT, P.TBS_OVER_LIMIT_COUNT]) s (tblNext o p s) := by
  unfold tblNext
  repeat' (first
    | (extract_lets +onlyGivenNames t; refine Only.with_state (t := t) ?_ fun _ => ?_; subst t; rotate_left; clear_value t)
    | (extract_lets +onlyGivenNames t; clear_value t)
    | with_reducible exact Only.refl _ _
    | with_reducible assumption
    | with_reducible apply Only.cond _ ?_ ?_
    | with_reducible apply Only.step ?_ (State.finish_only ..) ?_
    | exact Eq.refl _
    | extract_lets
    | split)

theorem State.insertIn_only (s : State) (r : ℕ) (e : MacEntry) :
    OnlyP (some [F.cmd, F.rings, F.tables, P.CMD_NOTICE_DROP, P.TBL_DISPLACE_SEQ, P.TBL_EPOCH, P.TBL_FLAGS, P.TBL_OCCUPANCY, P.TBL_STASH_USED]) s (State.insertIn s r e) := by
  unfold State.insertIn
  repeat' (first
    | (extract_lets +onlyGivenNames t; refine OnlyP.with_state (t := t) ?_ fun _ => ?_; subst t; rotate_left; clear_value t)
    | (extract_lets +onlyGivenNames t; refine OnlyP.with_pair (t := t) ?_ fun _ => ?_; subst t; rotate_left; clear_value t)
    | (extract_lets +onlyGivenNames t; refine Only.with_state (t := t) ?_ fun _ => ?_; subst t; rotate_left; clear_value t)
    | (extract_lets +onlyGivenNames t; refine Only.with_pair (t := t) ?_ fun _ => ?_; subst t; rotate_left; clear_value t)
    | (extract_lets +onlyGivenNames t; clear_value t)
    | with_reducible exact Only.refl _ _
    | with_reducible assumption
    | with_reducible apply OnlyP.of ?_
    | with_reducible apply OnlyP.cond _ ?_ ?_
    | with_reducible apply Only.cond _ ?_ ?_
    | with_reducible apply Only.orIn ?_ ?_ _ _
    | with_reducible apply Only.step ?_ (State.epochUp_only ..) ?_
    | with_reducible apply Only.step ?_ (State.macSet_only ..) ?_
    | with_reducible apply Only.fst ?_ (State.macPlace_only ..) ?_
    | with_reducible apply Only.pair (by assumption) (State.macPlace_only ..) ?_ ?_
    | with_reducible apply OnlyP.step ?_ (State.macPlace_only ..) ?_
    | with_reducible apply Only.step ?_ (State.rehashNeeded_only ..) ?_
    | exact Eq.refl _
    | extract_lets
    | split)

theorem tblInsert_only (o : Origin) (p : List Byte) (s : State) : Only (some [F.cmd, F.rings, F.tables, P.CMD_NOTICE_DROP, P.CMD_REFUSED_COUNT, P.SYS_CONFIG_GEN, P.TBL_DISPLACE_SEQ, P.TBL_EPOCH, P.TBL_FLAGS, P.TBL_OCCUPANCY, P.TBL_STASH_USED, P.TBS_OVER_LIMIT_COUNT]) s (tblInsert o p s) := by
  unfold tblInsert
  dsimp only
  refine Only.cond _ ((State.finish_only ..).mono (by exact Eq.refl _)) ?_
  refine Only.step ?_ (State.finish_only ..) (by exact Eq.refl _)
  have h : ∀ e rs, OnlyP (some [F.cmd, F.rings, F.tables, P.CMD_NOTICE_DROP, P.CMD_REFUSED_COUNT, P.SYS_CONFIG_GEN, P.TBL_DISPLACE_SEQ, P.TBL_EPOCH, P.TBL_FLAGS, P.TBL_OCCUPANCY, P.TBL_STASH_USED, P.TBS_OVER_LIMIT_COUNT]) s (List.foldl (fun (acc : State × Nat × Nat) r =>
      if (acc.1.insertIn r e).2 = true then ((acc.1.insertIn r e).1, setBit r acc.2.1, acc.2.2)
      else ((acc.1.insertIn r e).1, acc.2.1, setBit r acc.2.2)) (s, 0, 0) rs) := fun e rs =>
    OnlyP.fold _ rs (fun y r => OnlyP.cond _ (OnlyP.of ((State.insertIn_only ..).fst.mono (by exact Eq.refl _)))
      (OnlyP.of ((State.insertIn_only ..).fst.mono (by exact Eq.refl _)))) (OnlyP.of (Only.refl _ _))
  exact Only.cond _ (h ..).fst ((h ..).fst.step (State.configUp_only ..) (by exact Eq.refl _))

theorem tblDelete_only (o : Origin) (p : List Byte) (s : State) :
    Only (some [F.cmd, F.rings, F.tables, P.CMD_REFUSED_COUNT, P.SYS_CONFIG_GEN, P.TBL_EPOCH, P.TBL_OCCUPANCY, P.TBL_STASH_USED, P.TBS_OVER_LIMIT_COUNT]) s (tblDelete o p s) := by
  unfold tblDelete
  repeat' (first
    | (extract_lets +onlyGivenNames t; refine Only.with_state (t := t) ?_ fun _ => ?_; subst t; rotate_left; clear_value t)
    | (extract_lets +onlyGivenNames t; refine Only.with_pair (t := t) ?_ fun _ => ?_; subst t; rotate_left; clear_value t)
    | (extract_lets +onlyGivenNames t; clear_value t)
    | with_reducible exact Only.refl _ _
    | with_reducible assumption
    | with_reducible apply Only.fold _ _ (fun _ _ => ?_) ?_
    | with_reducible apply OnlyP.fold _ _ (fun _ _ => ?_) ?_
    | with_reducible apply OnlyP.of ?_
    | with_reducible apply OnlyP.cond _ ?_ ?_
    | with_reducible apply Only.cond _ ?_ ?_
    | with_reducible apply Only.step ?_ (State.finish_only ..) ?_
    | with_reducible apply Only.step ?_ (State.setTables_only ..) ?_
    | with_reducible apply Only.step ?_ (State.openFence_only ..) ?_
    | with_reducible apply Only.step ?_ (State.epochUp_only ..) ?_
    | with_reducible apply Only.step ?_ (State.macSet_only ..) ?_
    | with_reducible apply Only.step ?_ (State.accept_only ..) ?_
    | with_reducible apply Only.step ?_ (State.configUp_only ..) ?_
    | exact Eq.refl _
    | extract_lets
    | split)

theorem tblFlushPort_only (o : Origin) (p : List Byte) (s : State) :
    Only (some [F.cmd, F.rings, F.tables, P.CMD_REFUSED_COUNT, P.TBS_OVER_LIMIT_COUNT]) s (tblFlushPort o p s) := by
  unfold tblFlushPort
  repeat' (first
    | (extract_lets +onlyGivenNames t; refine Only.with_state (t := t) ?_ fun _ => ?_; subst t; rotate_left; clear_value t)
    | (extract_lets +onlyGivenNames t; clear_value t)
    | with_reducible exact Only.refl _ _
    | with_reducible assumption
    | with_reducible apply Only.cond _ ?_ ?_
    | with_reducible apply Only.step ?_ (State.finish_only ..) ?_
    | with_reducible apply Only.step ?_ (State.setTables_only ..) ?_
    | with_reducible apply Only.step ?_ (State.accept_only ..) ?_
    | exact Eq.refl _
    | extract_lets
    | split)

theorem execFlushWalkEnd_only (reach : Fin 8) (s : State) :
    OnlyO (some [F.cmd, F.rings, F.tables, P.CMD_REFUSED_COUNT, P.SYS_CONFIG_GEN, P.TBL_EPOCH, P.TBL_OCCUPANCY, P.TBL_STASH_USED, P.TBS_OVER_LIMIT_COUNT]) s (execFlushWalkEnd reach s) := by
  unfold execFlushWalkEnd
  repeat' (first
    | (extract_lets +onlyGivenNames t; refine OnlyO.with_state (t := t) ?_ fun _ => ?_; subst t; rotate_left; clear_value t)
    | (extract_lets +onlyGivenNames t; refine OnlyO.with_pair (t := t) ?_ fun _ => ?_; subst t; rotate_left; clear_value t)
    | (extract_lets +onlyGivenNames t; refine Only.with_state (t := t) ?_ fun _ => ?_; subst t; rotate_left; clear_value t)
    | (extract_lets +onlyGivenNames t; refine Only.with_pair (t := t) ?_ fun _ => ?_; subst t; rotate_left; clear_value t)
    | (extract_lets +onlyGivenNames t; clear_value t)
    | with_reducible exact Only.refl _ _
    | with_reducible assumption
    | with_reducible apply OnlyO.of ?_
    | with_reducible apply OnlyO.cond _ ?_ ?_
    | with_reducible apply Only.fold _ _ (fun _ _ => ?_) ?_
    | with_reducible apply OnlyP.fold _ _ (fun _ _ => ?_) ?_
    | with_reducible apply OnlyP.of ?_
    | with_reducible apply OnlyP.cond _ ?_ ?_
    | with_reducible apply Only.cond _ ?_ ?_
    | with_reducible apply Only.step ?_ (State.macSet_only ..) ?_
    | with_reducible apply Only.step ?_ (State.setTables_only ..) ?_
    | with_reducible apply Only.step ?_ (State.setJob_only ..) ?_
    | with_reducible apply Only.step ?_ (State.openFence_only ..) ?_
    | with_reducible apply Only.step ?_ (State.epochUp_only ..) ?_
    | with_reducible apply Only.step ?_ (State.configUp_only ..) ?_
    | with_reducible apply Only.step ?_ (State.settleJob_only ..) ?_
    | exact Eq.refl _
    | extract_lets
    | split)

theorem tblRehash_only (o : Origin) (p : List Byte) (s : State) :
    Only (some [F.cmd, F.rings, F.tables, P.CMD_REFUSED_COUNT, P.TBL_GEN, P.TBL_REHASH_CURSOR, P.TBL_REHASH_STATE, P.TBL_SEED, P.TBL_SEED_OLD, P.TBS_OVER_LIMIT_COUNT]) s (tblRehash o p s) := by
  unfold tblRehash
  repeat' (first
    | (extract_lets +onlyGivenNames t; refine Only.with_state (t := t) ?_ fun _ => ?_; subst t; rotate_left; clear_value t)
    | (extract_lets +onlyGivenNames t; clear_value t)
    | with_reducible exact Only.refl _ _
    | with_reducible assumption
    | with_reducible apply Only.cond _ ?_ ?_
    | with_reducible apply Only.wr ?_ ?_ _ _
    | with_reducible apply Only.step ?_ (State.finish_only ..) ?_
    | with_reducible apply Only.step ?_ (State.setTables_only ..) ?_
    | with_reducible apply Only.step ?_ (State.accept_only ..) ?_
    | exact Eq.refl _
    | extract_lets
    | split)

theorem State.rehashWalk_only (s : State) (r : Nat) (is : List Nat) (moved disp : Nat) :
    OnlyP (some [F.tables, P.TBL_DISPLACE_SEQ, P.TBL_OCCUPANCY, P.TBL_STASH_USED, P.TBL_REHASH_CURSOR]) s
      (State.rehashWalk s r is moved disp) := by
  induction is generalizing s moved disp with
  | nil =>
    unfold State.rehashWalk
    exact OnlyP.of ((Only.refl _ _).wr (by exact Eq.refl _) _ _)
  | cons i is ih =>
    unfold State.rehashWalk
    split
    · exact ih ..
    · rename_i e _
      refine OnlyP.cond _ (ih ..) ?_
      extract_lets x t
      have hx : Only (some [F.tables, P.TBL_DISPLACE_SEQ, P.TBL_OCCUPANCY, P.TBL_STASH_USED, P.TBL_REHASH_CURSOR]) s x.1 :=
        Only.fst ((State.macSet_only ..).mono (by exact Eq.refl _)) (State.macPlace_only ..) (by exact Eq.refl _)
      have ht : Only (some [F.tables, P.TBL_DISPLACE_SEQ, P.TBL_OCCUPANCY, P.TBL_STASH_USED, P.TBL_REHASH_CURSOR]) s t :=
        Only.cond _ hx (hx.step (State.macSet_only ..) (by exact Eq.refl _))
      clear_value t
      refine OnlyP.cond _ (OnlyP.step ht (ih ..) (by exact Eq.refl _)) (OnlyP.cond _ (OnlyP.step ht (ih ..) (by exact Eq.refl _)) (OnlyP.of (ht.wr (by exact Eq.refl _) _ _)))

theorem execRehashWalkEnd_only (reach : Fin 8) (s : State) :
    OnlyO (some [F.cmd, F.rings, F.tables, P.CMD_REFUSED_COUNT, P.TBL_DISPLACE_SEQ, P.TBL_FLAGS, P.TBL_OCCUPANCY, P.TBL_REHASH_CURSOR, P.TBL_REHASH_STATE, P.TBL_STASH_USED, P.TBS_OVER_LIMIT_COUNT]) s (execRehashWalkEnd reach s) := by
  unfold execRehashWalkEnd
  repeat' (first
    | (extract_lets +onlyGivenNames t; refine OnlyO.with_state (t := t) ?_ fun _ => ?_; subst t; rotate_left; clear_value t)
    | (extract_lets +onlyGivenNames t; refine OnlyO.with_pair (t := t) ?_ fun _ => ?_; subst t; rotate_left; clear_value t)
    | (extract_lets +onlyGivenNames t; refine Only.with_state (t := t) ?_ fun _ => ?_; subst t; rotate_left; clear_value t)
    | (extract_lets +onlyGivenNames t; refine Only.with_pair (t := t) ?_ fun _ => ?_; subst t; rotate_left; clear_value t)
    | (extract_lets +onlyGivenNames t; clear_value t)
    | with_reducible exact Only.refl _ _
    | with_reducible assumption
    | with_reducible apply OnlyO.of ?_
    | with_reducible apply OnlyO.cond _ ?_ ?_
    | with_reducible apply Only.cond _ ?_ ?_
    | with_reducible apply Only.wr ?_ ?_ _ _
    | with_reducible apply Only.orIn ?_ ?_ _ _
    | with_reducible apply Only.fst ?_ (State.rehashWalk_only ..) ?_
    | with_reducible apply Only.pair (by assumption) (State.rehashWalk_only ..) ?_ ?_
    | with_reducible apply OnlyP.step ?_ (State.rehashWalk_only ..) ?_
    | with_reducible apply Only.step ?_ (State.setTables_only ..) ?_
    | with_reducible apply Only.step ?_ (State.finish_only ..) ?_
    | exact Eq.refl _
    | extract_lets
    | split)

theorem State.streamSet_only (s : State) (sid : ℕ) (e : ℕ) :
    Only (some [F.tables]) s (State.streamSet s sid e) := by
  unfold State.streamSet
  repeat' (first
    | with_reducible exact Only.refl _ _
    | with_reducible assumption
    | with_reducible apply Only.fold _ _ (fun _ _ => ?_) ?_
    | with_reducible apply OnlyP.fold _ _ (fun _ _ => ?_) ?_
    | with_reducible apply OnlyP.of ?_
    | with_reducible apply Only.step ?_ (State.setTables_only ..) ?_
    | exact Eq.refl _)

theorem tblStreamWrite_only (o : Origin) (p : List Byte) (s : State) :
    Only (some [F.cmd, F.fault, F.fresh, F.rings, F.tables, P.CMD_NOTICE_DROP, P.CMD_REFUSED_COUNT, P.HLT_FAULT_COUNT, P.HLT_STICKY, P.SYS_CONFIG_GEN, P.TBL_EPOCH, P.TBS_OVER_LIMIT_COUNT]) s (tblStreamWrite o p s) := by
  unfold tblStreamWrite
  repeat' (first
    | (extract_lets +onlyGivenNames t; refine Only.with_state (t := t) ?_ fun _ => ?_; subst t; rotate_left; clear_value t)
    | (extract_lets +onlyGivenNames t; refine Only.with_pair (t := t) ?_ fun _ => ?_; subst t; rotate_left; clear_value t)
    | (extract_lets +onlyGivenNames t; clear_value t)
    | with_reducible exact Only.refl _ _
    | with_reducible assumption
    | with_reducible apply Only.fold _ _ (fun _ _ => ?_) ?_
    | with_reducible apply OnlyP.fold _ _ (fun _ _ => ?_) ?_
    | with_reducible apply OnlyP.of ?_
    | with_reducible apply OnlyP.cond _ ?_ ?_
    | with_reducible apply Only.cond _ ?_ ?_
    | with_reducible apply Only.step ?_ (State.finish_only ..) ?_
    | with_reducible apply Only.step ?_ (State.failInternal_only ..) ?_
    | with_reducible apply Only.step ?_ (State.streamSet_only ..) ?_
    | with_reducible apply Only.step ?_ (State.epochUp_only ..) ?_
    | with_reducible apply Only.step ?_ (State.configUp_only ..) ?_
    | exact Eq.refl _
    | extract_lets
    | split)

theorem tblClearFlap_only (o : Origin) (p : List Byte) (s : State) :
    Only (some [F.cmd, F.rings, F.tables, P.CMD_REFUSED_COUNT, P.SYS_CONFIG_GEN, P.TBL_EPOCH, P.TBL_OCCUPANCY, P.TBL_STASH_USED, P.TBS_OVER_LIMIT_COUNT]) s (tblClearFlap o p s) := by
  unfold tblClearFlap
  repeat' (first
    | (extract_lets +onlyGivenNames t; refine Only.with_state (t := t) ?_ fun _ => ?_; subst t; rotate_left; clear_value t)
    | (extract_lets +onlyGivenNames t; clear_value t)
    | with_reducible exact Only.refl _ _
    | with_reducible assumption
    | with_reducible apply Only.cond _ ?_ ?_
    | with_reducible apply Only.step ?_ (State.finish_only ..) ?_
    | with_reducible apply Only.step ?_ (State.configUp_only ..) ?_
    | with_reducible apply Only.step ?_ (State.epochUp_only ..) ?_
    | with_reducible apply Only.step ?_ (State.macSet_only ..) ?_
    | exact Eq.refl _
    | extract_lets
    | split)

theorem execStreamEntryRewrite_only (reach : Fin 8) (sid : BitVec 16) (s : State) :
    OnlyO (some [F.tables]) s (execStreamEntryRewrite reach sid s) := by
  unfold execStreamEntryRewrite
  repeat' (first
    | (extract_lets +onlyGivenNames t; refine OnlyO.with_state (t := t) ?_ fun _ => ?_; subst t; rotate_left; clear_value t)
    | (extract_lets +onlyGivenNames t; refine Only.with_state (t := t) ?_ fun _ => ?_; subst t; rotate_left; clear_value t)
    | (extract_lets +onlyGivenNames t; clear_value t)
    | with_reducible exact Only.refl _ _
    | with_reducible assumption
    | with_reducible apply OnlyO.of ?_
    | with_reducible apply OnlyO.cond _ ?_ ?_
    | with_reducible apply Only.cond _ ?_ ?_
    | with_reducible apply Only.step ?_ (State.setTables_only ..) ?_
    | exact Eq.refl _
    | extract_lets
    | split)

theorem State.reachEmpty_only (s : State) (r : ℕ) :
    Only (some [F.tables, P.TBL_EPOCH, P.TBL_OCCUPANCY, P.TBL_REHASH_CURSOR, P.TBL_REHASH_STATE, P.TBL_STASH_USED]) s (State.reachEmpty s r) := by
  unfold State.reachEmpty
  repeat' (first
    | (extract_lets +onlyGivenNames t; refine Only.with_state (t := t) ?_ fun _ => ?_; subst t; rotate_left; clear_value t)
    | (extract_lets +onlyGivenNames t; refine Only.with_pair (t := t) ?_ fun _ => ?_; subst t; rotate_left; clear_value t)
    | (extract_lets +onlyGivenNames t; clear_value t)
    | with_reducible exact Only.refl _ _
    | with_reducible assumption
    | with_reducible apply Only.fold _ _ (fun _ _ => ?_) ?_
    | with_reducible apply OnlyP.fold _ _ (fun _ _ => ?_) ?_
    | with_reducible apply OnlyP.of ?_
    | with_reducible apply Only.wr ?_ ?_ _ _
    | with_reducible apply Only.step ?_ (State.macSet_only ..) ?_
    | exact Eq.refl _
    | extract_lets)

theorem State.reachLost_only (s : State) (r : ℕ) :
    Only (some [F.cmd, F.rings, F.tables, P.CMD_REFUSED_COUNT, P.TBL_EPOCH, P.TBL_OCCUPANCY, P.TBL_REHASH_CURSOR, P.TBL_REHASH_STATE, P.TBL_STASH_USED, P.TBS_OVER_LIMIT_COUNT]) s (State.reachLost s r) := by
  unfold State.reachLost
  repeat' (first
    | (extract_lets +onlyGivenNames t; refine Only.with_state (t := t) ?_ fun _ => ?_; subst t; rotate_left; clear_value t)
    | (extract_lets +onlyGivenNames t; refine Only.with_pair (t := t) ?_ fun _ => ?_; subst t; rotate_left; clear_value t)
    | (extract_lets +onlyGivenNames t; clear_value t)
    | with_reducible exact Only.refl _ _
    | with_reducible assumption
    | with_reducible apply Only.fold _ _ (fun _ _ => ?_) ?_
    | with_reducible apply OnlyP.fold _ _ (fun _ _ => ?_) ?_
    | with_reducible apply OnlyP.of ?_
    | with_reducible apply Only.step ?_ (State.reachEmpty_only ..) ?_
    | with_reducible apply Only.step ?_ (State.setTables_only ..) ?_
    | with_reducible apply Only.step ?_ (State.finish_only ..) ?_
    | exact Eq.refl _
    | extract_lets
    | split)

theorem State.streamRestore_only (s : State) (r : ℕ) :
    Only (some [F.tables, P.TBL_EPOCH, P.TBL_OCCUPANCY, P.TBL_REHASH_CURSOR, P.TBL_REHASH_STATE, P.TBL_STASH_USED]) s (State.streamRestore s r) := by
  unfold State.streamRestore
  repeat' (first
    | (extract_lets +onlyGivenNames t; refine Only.with_state (t := t) ?_ fun _ => ?_; subst t; rotate_left; clear_value t)
    | (extract_lets +onlyGivenNames t; refine Only.with_pair (t := t) ?_ fun _ => ?_; subst t; rotate_left; clear_value t)
    | (extract_lets +onlyGivenNames t; clear_value t)
    | with_reducible exact Only.refl _ _
    | with_reducible assumption
    | with_reducible apply Only.fold _ _ (fun _ _ => ?_) ?_
    | with_reducible apply OnlyP.fold _ _ (fun _ _ => ?_) ?_
    | with_reducible apply OnlyP.of ?_
    | with_reducible apply OnlyP.cond _ ?_ ?_
    | with_reducible apply Only.cond _ ?_ ?_
    | with_reducible apply Only.step ?_ (State.reachEmpty_only ..) ?_
    | with_reducible apply Only.step ?_ (State.setTables_only ..) ?_
    | exact Eq.refl _
    | extract_lets
    | split)

end Sys2Proof.Machine
end

