-- ==== Sys2Proof/Laws/OnlyLogbook.lean ====
section
/-! SUPPORT. What each operation of Machine/Logbook.lean can change. -/

set_option linter.unusedTactic false
set_option linter.unreachableTactic false
set_option linter.tactic.unusedName false

namespace Sys2Proof.Machine

theorem State.setLog_only (s : State) (f : Logbook → Logbook) :
    Only (some [F.log]) s (State.setLog s f) := by
  unfold State.setLog
  repeat' (first
    | with_reducible exact Only.refl _ _
    | with_reducible assumption
    | exact Eq.refl _
    | with_reducible apply Only.set_log ?_ ?_ _)

theorem State.setChan_only (s : State) (c : ℕ) (f : LogChannel → LogChannel) :
    Only (some [F.log]) s (State.setChan s c f) := by
  unfold State.setChan
  repeat' (first
    | with_reducible exact Only.refl _ _
    | with_reducible assumption
    | with_reducible apply Only.cond _ ?_ ?_
    | with_reducible apply Only.step ?_ (State.setLog_only ..) ?_
    | exact Eq.refl _
    | split)

theorem State.writeSlots_only (s : State) (r : Ring) (i n : Nat) (bs : List Byte) : Only (some []) s (State.writeSlots s r i n bs) := by
  induction n generalizing s i bs with
  | zero => exact Only.refl _ _
  | succ n ih => exact Only.trans (Only.emit (Only.refl _ _) _) (ih ..)

theorem State.passRing_only (s : State) (g : ℕ) :
    Only (some [F.log, F.rings]) s (State.passRing s g) := by
  unfold State.passRing
  repeat' (first
    | (extract_lets +onlyGivenNames t; refine Only.with_state (t := t) ?_ fun _ => ?_; subst t; rotate_left; clear_value t)
    | (extract_lets +onlyGivenNames t; refine Only.with_pair (t := t) ?_ fun _ => ?_; subst t; rotate_left; clear_value t)
    | (extract_lets +onlyGivenNames t; clear_value t)
    | with_reducible exact Only.refl _ _
    | with_reducible assumption
    | with_reducible apply Only.fold _ _ (fun _ _ => ?_) ?_
    | with_reducible apply OnlyP.fold _ _ (fun _ _ => ?_) ?_
    | with_reducible apply OnlyP.of ?_
    | with_reducible apply OnlyP.cond _ ?_ ?_
    | with_reducible apply Only.cond _ ?_ ?_
    | with_reducible apply Only.step ?_ (State.setLog_only ..) ?_
    | with_reducible apply Only.step ?_ (State.writeIndex_only ..) ?_
    | with_reducible apply Only.step ?_ (State.setRing_only ..) ?_
    | exact Eq.refl _
    | extract_lets
    | split)

theorem State.stage_only (s : State) (g : ℕ) (i : LogItem) :
    Only (some [F.log, F.rings]) s (State.stage s g i) := by
  unfold State.stage
  repeat' (first
    | (extract_lets +onlyGivenNames t; refine Only.with_state (t := t) ?_ fun _ => ?_; subst t; rotate_left; clear_value t)
    | (extract_lets +onlyGivenNames t; clear_value t)
    | with_reducible exact Only.refl _ _
    | with_reducible assumption
    | with_reducible apply Only.cond _ ?_ ?_
    | with_reducible apply Only.step ?_ (State.writeSlots_only ..) ?_
    | with_reducible apply Only.step ?_ (State.passRing_only ..) ?_
    | with_reducible apply Only.step ?_ (State.setLog_only ..) ?_
    | exact Eq.refl _
    | extract_lets
    | split)

theorem State.spillCount_only (s : State) :
    Only (some [P.LOG_SPILL_PEAK, P.LOG_SPILL_USED]) s (State.spillCount s) := by
  unfold State.spillCount
  repeat' (first
    | (extract_lets +onlyGivenNames t; refine Only.with_state (t := t) ?_ fun _ => ?_; subst t; rotate_left; clear_value t)
    | (extract_lets +onlyGivenNames t; refine Only.with_pair (t := t) ?_ fun _ => ?_; subst t; rotate_left; clear_value t)
    | (extract_lets +onlyGivenNames t; clear_value t)
    | with_reducible exact Only.refl _ _
    | with_reducible assumption
    | with_reducible apply Only.fold _ _ (fun _ _ => ?_) ?_
    | with_reducible apply OnlyP.fold _ _ (fun _ _ => ?_) ?_
    | with_reducible apply OnlyP.of ?_
    | with_reducible apply Only.wr ?_ ?_ _ _
    | with_reducible apply Only.peak ?_ ?_ _ _
    | exact Eq.refl _
    | extract_lets)

theorem State.holdSettle_only (s : State) :
    Only (some [F.log, P.LOG_HOLD_TIME]) s (State.holdSettle s) := by
  unfold State.holdSettle
  repeat' (first
    | (extract_lets +onlyGivenNames t; refine Only.with_state (t := t) ?_ fun _ => ?_; subst t; rotate_left; clear_value t)
    | (extract_lets +onlyGivenNames t; clear_value t)
    | with_reducible exact Only.refl _ _
    | with_reducible assumption
    | with_reducible apply Only.cond _ ?_ ?_
    | with_reducible apply Only.wr ?_ ?_ _ _
    | with_reducible apply Only.step ?_ (State.setLog_only ..) ?_
    | exact Eq.refl _
    | extract_lets
    | split)

theorem State.holdSeen_only (s : State) :
    Only (some [P.LOG_FLAGS]) s (State.holdSeen s) := by
  unfold State.holdSeen
  repeat' (first
    | with_reducible exact Only.refl _ _
    | with_reducible assumption
    | with_reducible apply Only.cond _ ?_ ?_
    | with_reducible apply Only.orIn ?_ ?_ _ _
    | exact Eq.refl _
    | split)

theorem State.holdRaise_only (s : State) :
    Only (some [F.log, P.LOG_FLAGS, P.LOG_HOLD_ACTIVE]) s (State.holdRaise s) := by
  unfold State.holdRaise
  repeat' (first
    | with_reducible exact Only.refl _ _
    | with_reducible assumption
    | with_reducible apply Only.cond _ ?_ ?_
    | with_reducible apply Only.wr ?_ ?_ _ _
    | with_reducible apply Only.step ?_ (State.setLog_only ..) ?_
    | with_reducible apply Only.step ?_ (State.holdSeen_only ..) ?_
    | exact Eq.refl _
    | split)

theorem State.logPut_only (s : State) (i : LogItem) :
    OnlyP (some [F.log, F.rings, P.LOG_FLAGS, P.LOG_HOLD_ACTIVE, P.LOG_SPILL_PEAK, P.LOG_SPILL_USED]) s (State.logPut s i) := by
  unfold State.logPut
  repeat' (first
    | (extract_lets +onlyGivenNames t; refine OnlyP.with_state (t := t) ?_ fun _ => ?_; subst t; rotate_left; clear_value t)
    | (extract_lets +onlyGivenNames t; refine Only.with_state (t := t) ?_ fun _ => ?_; subst t; rotate_left; clear_value t)
    | (extract_lets +onlyGivenNames t; clear_value t)
    | with_reducible exact Only.refl _ _
    | with_reducible assumption
    | with_reducible apply OnlyP.of ?_
    | with_reducible apply OnlyP.cond _ ?_ ?_
    | with_reducible apply Only.cond _ ?_ ?_
    | with_reducible apply Only.step ?_ (State.stage_only ..) ?_
    | with_reducible apply Only.step ?_ (State.holdRaise_only ..) ?_
    | with_reducible apply Only.step ?_ (State.spillCount_only ..) ?_
    | with_reducible apply Only.step ?_ (State.setLog_only ..) ?_
    | exact Eq.refl _
    | extract_lets
    | split)

theorem State.appendRecord_only (s : State) (c : ℕ) (bytes : List Byte) :
    OnlyP (some [F.log, F.rings, P.LOG_FLAGS, P.LOG_HOLD_ACTIVE, P.LOG_RECORDS, P.LOG_SPILL_PEAK, P.LOG_SPILL_USED]) s (State.appendRecord s c bytes) := by
  unfold State.appendRecord
  repeat' (first
    | (extract_lets +onlyGivenNames t; refine OnlyP.with_state (t := t) ?_ fun _ => ?_; subst t; rotate_left; clear_value t)
    | (extract_lets +onlyGivenNames t; refine OnlyP.with_pair (t := t) ?_ fun _ => ?_; subst t; rotate_left; clear_value t)
    | (extract_lets +onlyGivenNames t; refine Only.with_state (t := t) ?_ fun _ => ?_; subst t; rotate_left; clear_value t)
    | (extract_lets +onlyGivenNames t; refine Only.with_pair (t := t) ?_ fun _ => ?_; subst t; rotate_left; clear_value t)
    | (extract_lets +onlyGivenNames t; clear_value t)
    | with_reducible exact Only.refl _ _
    | with_reducible assumption
    | with_reducible apply OnlyP.of ?_
    | with_reducible apply OnlyP.cond _ ?_ ?_
    | with_reducible apply Only.cond _ ?_ ?_
    | with_reducible apply Only.wr ?_ ?_ _ _
    | with_reducible apply Only.fst ?_ (State.logPut_only ..) ?_
    | with_reducible apply Only.pair (by assumption) (State.logPut_only ..) ?_ ?_
    | with_reducible apply OnlyP.step ?_ (State.logPut_only ..) ?_
    | with_reducible apply Only.step ?_ (State.setChan_only ..) ?_
    | exact Eq.refl _
    | extract_lets
    | split)

theorem State.gapRecord_only (s : State) (c : ℕ) :
    Only (some [F.cmd, F.log, F.rings, P.CMD_NOTICE_DROP, P.LOG_FLAGS, P.LOG_HOLD_ACTIVE, P.LOG_RECORDS, P.LOG_SPILL_PEAK, P.LOG_SPILL_USED]) s (State.gapRecord s c) := by
  unfold State.gapRecord
  repeat' (first
    | (extract_lets +onlyGivenNames t; refine Only.with_state (t := t) ?_ fun _ => ?_; subst t; rotate_left; clear_value t)
    | (extract_lets +onlyGivenNames t; refine Only.with_pair (t := t) ?_ fun _ => ?_; subst t; rotate_left; clear_value t)
    | (extract_lets +onlyGivenNames t; clear_value t)
    | with_reducible exact Only.refl _ _
    | with_reducible assumption
    | with_reducible apply Only.cond _ ?_ ?_
    | with_reducible apply Only.orIn ?_ ?_ _ _
    | with_reducible apply Only.fst ?_ (State.appendRecord_only ..) ?_
    | with_reducible apply Only.pair (by assumption) (State.appendRecord_only ..) ?_ ?_
    | with_reducible apply OnlyP.step ?_ (State.appendRecord_only ..) ?_
    | with_reducible apply Only.step ?_ (State.notice_only ..) ?_
    | with_reducible apply Only.step ?_ (State.setChan_only ..) ?_
    | exact Eq.refl _
    | extract_lets
    | split)

theorem State.holdClear_only (s : State) :
    Only (some [F.cmd, F.log, F.rings, P.CMD_NOTICE_DROP, P.LOG_FLAGS, P.LOG_HOLD_ACTIVE, P.LOG_HOLD_TIME, P.LOG_RECORDS, P.LOG_SPILL_PEAK, P.LOG_SPILL_USED]) s (State.holdClear s) := by
  unfold State.holdClear
  repeat' (first
    | (extract_lets +onlyGivenNames t; refine Only.with_state (t := t) ?_ fun _ => ?_; subst t; rotate_left; clear_value t)
    | (extract_lets +onlyGivenNames t; refine Only.with_pair (t := t) ?_ fun _ => ?_; subst t; rotate_left; clear_value t)
    | (extract_lets +onlyGivenNames t; clear_value t)
    | with_reducible exact Only.refl _ _
    | with_reducible assumption
    | with_reducible apply Only.fold _ _ (fun _ _ => ?_) ?_
    | with_reducible apply OnlyP.fold _ _ (fun _ _ => ?_) ?_
    | with_reducible apply OnlyP.of ?_
    | with_reducible apply OnlyP.cond _ ?_ ?_
    | with_reducible apply Only.cond _ ?_ ?_
    | with_reducible apply Only.wr ?_ ?_ _ _
    | with_reducible apply Only.step ?_ (State.setLog_only ..) ?_
    | with_reducible apply Only.step ?_ (State.holdSettle_only ..) ?_
    | with_reducible apply Only.step ?_ (State.gapRecord_only ..) ?_
    | exact Eq.refl _
    | extract_lets
    | split)

theorem State.logFrame_only (s : State) (entry : ℕ) (f : Frame) :
    OnlyP (some [F.fresh, F.log, F.rings, P.LOG_FLAGS, P.LOG_HOLD_ACTIVE, P.LOG_RECORDS, P.LOG_SPILL_PEAK, P.LOG_SPILL_USED, P.LOG_UNLOGGED, P.LOG_UNROUTED]) s (State.logFrame s entry f) := by
  unfold State.logFrame
  repeat' (first
    | (extract_lets +onlyGivenNames t; refine OnlyP.with_state (t := t) ?_ fun _ => ?_; subst t; rotate_left; clear_value t)
    | (extract_lets +onlyGivenNames t; refine OnlyP.with_pair (t := t) ?_ fun _ => ?_; subst t; rotate_left; clear_value t)
    | (extract_lets +onlyGivenNames t; refine Only.with_state (t := t) ?_ fun _ => ?_; subst t; rotate_left; clear_value t)
    | (extract_lets +onlyGivenNames t; refine Only.with_pair (t := t) ?_ fun _ => ?_; subst t; rotate_left; clear_value t)
    | (extract_lets +onlyGivenNames t; have q : ℕ := t; clear q; clear_value t)
    | (extract_lets +onlyGivenNames t; have q : Bool := t; clear q; clear_value t)
    | (extract_lets +onlyGivenNames t; have q : ℤ := t; clear q; clear_value t)
    | (extract_lets +onlyGivenNames t; have q : Option _ := t; clear q; clear_value t)
    | (extract_lets +onlyGivenNames t; have q : List _ := t; clear q; clear_value t)
    | (extract_lets +onlyGivenNames t; have q : _ × _ := t; clear q; clear_value t)
    | with_reducible exact Only.refl _ _
    | with_reducible assumption
    | with_reducible apply OnlyP.of ?_
    | with_reducible apply OnlyP.cond _ ?_ ?_
    | with_reducible apply Only.cond _ ?_ ?_
    | with_reducible apply Only.count_plain ?_ ?_ (by decide) _ _
    | with_reducible apply Only.count ?_ ?_ ?_ ?_ _ _
    | with_reducible apply Only.step ?_ (State.setChan_only ..) ?_
    | with_reducible apply Only.fst ?_ (State.appendRecord_only ..) ?_
    | with_reducible apply Only.pair (by assumption) (State.appendRecord_only ..) ?_ ?_
    | with_reducible apply OnlyP.step ?_ (State.appendRecord_only ..) ?_
    | exact Eq.refl _
    | extract_lets
    | split
    | with_reducible apply Only.set_fresh ?_ ?_ _)

theorem State.logMark_only (s : State) (f : Frame) (port : ℕ) (kind : ℕ) (cause : ℕ) (x : Stamp) :
    Only (some [F.log, F.rings, P.LOG_FLAGS, P.LOG_HOLD_ACTIVE, P.LOG_MARK_LOST, P.LOG_RECORDS, P.LOG_SPILL_PEAK, P.LOG_SPILL_USED]) s (State.logMark s f port kind cause x) := by
  unfold State.logMark
  repeat' (first
    | (extract_lets +onlyGivenNames t; refine Only.with_state (t := t) ?_ fun _ => ?_; subst t; rotate_left; clear_value t)
    | (extract_lets +onlyGivenNames t; refine Only.with_pair (t := t) ?_ fun _ => ?_; subst t; rotate_left; clear_value t)
    | (extract_lets +onlyGivenNames t; clear_value t)
    | with_reducible exact Only.refl _ _
    | with_reducible assumption
    | with_reducible apply Only.cond _ ?_ ?_
    | with_reducible apply Only.orIn ?_ ?_ _ _
    | with_reducible apply Only.count_plain ?_ ?_ (by decide) _ _
    | with_reducible apply Only.count ?_ ?_ ?_ ?_ _ _
    | with_reducible apply Only.fst ?_ (State.appendRecord_only ..) ?_
    | with_reducible apply Only.pair (by assumption) (State.appendRecord_only ..) ?_ ?_
    | with_reducible apply OnlyP.step ?_ (State.appendRecord_only ..) ?_
    | exact Eq.refl _
    | extract_lets
    | split)

theorem State.writeSeal_only (s : State) (shutter : Bool) (at_ : ℕ) (c : ℕ) :
    Only (some [F.log, F.rings, P.LOG_FLAGS, P.LOG_HOLD_ACTIVE, P.LOG_SEALS_MERGED, P.LOG_SEAL_SEQ, P.LOG_SPILL_PEAK, P.LOG_SPILL_USED]) s (State.writeSeal s shutter at_ c) := by
  unfold State.writeSeal
  repeat' (first
    | (extract_lets +onlyGivenNames t; refine Only.with_state (t := t) ?_ fun _ => ?_; subst t; rotate_left; clear_value t)
    | (extract_lets +onlyGivenNames t; refine Only.with_pair (t := t) ?_ fun _ => ?_; subst t; rotate_left; clear_value t)
    | (extract_lets +onlyGivenNames t; clear_value t)
    | with_reducible exact Only.refl _ _
    | with_reducible assumption
    | with_reducible apply Only.cond _ ?_ ?_
    | with_reducible apply Only.wr ?_ ?_ _ _
    | with_reducible apply Only.orIn ?_ ?_ _ _
    | with_reducible apply Only.count_plain ?_ ?_ (by decide) _ _
    | with_reducible apply Only.count ?_ ?_ ?_ ?_ _ _
    | with_reducible apply Only.step ?_ (State.setChan_only ..) ?_
    | with_reducible apply Only.fst ?_ (State.logPut_only ..) ?_
    | with_reducible apply Only.pair (by assumption) (State.logPut_only ..) ?_ ?_
    | with_reducible apply OnlyP.step ?_ (State.logPut_only ..) ?_
    | with_reducible apply Only.step ?_ (State.setLog_only ..) ?_
    | exact Eq.refl _
    | extract_lets
    | split)

theorem State.sealAll_only (s : State) (shutter : Bool) (at_ : ℕ) :
    Only (some [F.log, F.rings, P.LOG_FLAGS, P.LOG_HOLD_ACTIVE, P.LOG_SEALS_MERGED, P.LOG_SEAL_SEQ, P.LOG_SPILL_PEAK, P.LOG_SPILL_USED]) s (State.sealAll s shutter at_) := by
  unfold State.sealAll
  repeat' (first
    | with_reducible exact Only.refl _ _
    | with_reducible assumption
    | with_reducible apply Only.fold _ _ (fun _ _ => ?_) ?_
    | with_reducible apply OnlyP.fold _ _ (fun _ _ => ?_) ?_
    | with_reducible apply OnlyP.of ?_
    | with_reducible apply Only.step ?_ (State.writeSeal_only ..) ?_
    | exact Eq.refl _)

theorem execSeal_only (s : State) :
    OnlyO (some [F.log, F.rings, P.LOG_FLAGS, P.LOG_HOLD_ACTIVE, P.LOG_SEALS_MERGED, P.LOG_SEAL_SEQ, P.LOG_SPILL_PEAK, P.LOG_SPILL_USED]) s (execSeal s) := by
  unfold execSeal
  repeat' (first
    | with_reducible exact Only.refl _ _
    | with_reducible assumption
    | with_reducible apply OnlyO.of ?_
    | with_reducible apply OnlyO.cond _ ?_ ?_
    | with_reducible apply Only.cond _ ?_ ?_
    | with_reducible apply Only.step ?_ (State.setLog_only ..) ?_
    | with_reducible apply Only.step ?_ (State.sealAll_only ..) ?_
    | exact Eq.refl _
    | split)

theorem State.completeSeal_only (s : State) (id : ℕ) (f : List Byte → List Byte) :
    Only (some [F.log, F.rings]) s (State.completeSeal s id f) := by
  unfold State.completeSeal
  repeat' (first
    | (extract_lets +onlyGivenNames t; refine Only.with_state (t := t) ?_ fun _ => ?_; subst t; rotate_left; clear_value t)
    | (extract_lets +onlyGivenNames t; refine Only.with_pair (t := t) ?_ fun _ => ?_; subst t; rotate_left; clear_value t)
    | (extract_lets +onlyGivenNames t; have q : ℕ := t; clear q; clear_value t)
    | (extract_lets +onlyGivenNames t; have q : Bool := t; clear q; clear_value t)
    | (extract_lets +onlyGivenNames t; have q : ℤ := t; clear q; clear_value t)
    | (extract_lets +onlyGivenNames t; have q : Option _ := t; clear q; clear_value t)
    | (extract_lets +onlyGivenNames t; have q : List _ := t; clear q; clear_value t)
    | (extract_lets +onlyGivenNames t; have q : _ × _ := t; clear q; clear_value t)
    | (extract_lets +onlyGivenNames t; have q : _ → _ := t; clear q)
    | with_reducible exact Only.refl _ _
    | with_reducible assumption
    | with_reducible apply Only.fold _ _ (fun _ _ => ?_) ?_
    | with_reducible apply OnlyP.fold _ _ (fun _ _ => ?_) ?_
    | with_reducible apply OnlyP.of ?_
    | with_reducible apply OnlyP.cond _ ?_ ?_
    | with_reducible apply Only.cond _ ?_ ?_
    | with_reducible apply Only.step ?_ (State.setLog_only ..) ?_
    | with_reducible apply Only.step ?_ (State.passRing_only ..) ?_
    | with_reducible apply Only.step ?_ (State.writeSlots_only ..) ?_
    | exact Eq.refl _
    | extract_lets
    | split)

theorem execSealSigned_only (s : State) :
    OnlyO (some [F.log, F.rings]) s (execSealSigned s) := by
  unfold execSealSigned
  repeat' (first
    | with_reducible exact Only.refl _ _
    | with_reducible assumption
    | with_reducible apply OnlyO.of ?_
    | with_reducible apply Only.step ?_ (State.completeSeal_only ..) ?_
    | exact Eq.refl _
    | split)

theorem State.voidSeals_only (s : State) :
    Only (some [F.log, F.rings, P.LOG_FLAGS]) s (State.voidSeals s) := by
  unfold State.voidSeals
  repeat' (first
    | (extract_lets +onlyGivenNames t; refine Only.with_state (t := t) ?_ fun _ => ?_; subst t; rotate_left; clear_value t)
    | (extract_lets +onlyGivenNames t; refine Only.with_pair (t := t) ?_ fun _ => ?_; subst t; rotate_left; clear_value t)
    | (extract_lets +onlyGivenNames t; clear_value t)
    | with_reducible exact Only.refl _ _
    | with_reducible assumption
    | with_reducible apply Only.fold _ _ (fun _ _ => ?_) ?_
    | with_reducible apply OnlyP.fold _ _ (fun _ _ => ?_) ?_
    | with_reducible apply OnlyP.of ?_
    | with_reducible apply Only.orIn ?_ ?_ _ _
    | with_reducible apply Only.step ?_ (State.completeSeal_only ..) ?_
    | exact Eq.refl _
    | extract_lets)

theorem State.spillMove_only (s : State) (is : List LogItem) (shut : List Nat) (kept : List LogItem) :
    Only (some [F.log, F.rings]) s (State.spillMove s is shut kept) := by
  induction is generalizing s shut kept with
  | nil => exact (State.setLog_only ..).mono (by exact Eq.refl _)
  | cons i is ih =>
    unfold State.spillMove
    exact Only.cond _ (Only.trans ((State.stage_only ..).mono (by exact Eq.refl _)) (ih ..)) (ih ..)

theorem execSpillMove_only (s : State) :
    OnlyO (some [F.cmd, F.log, F.rings, P.CMD_NOTICE_DROP, P.LOG_FLAGS, P.LOG_HOLD_ACTIVE, P.LOG_HOLD_TIME, P.LOG_RECORDS, P.LOG_SPILL_PEAK, P.LOG_SPILL_USED]) s (execSpillMove s) := by
  unfold execSpillMove
  repeat' (first
    | with_reducible exact Only.refl _ _
    | with_reducible assumption
    | with_reducible apply OnlyO.of ?_
    | with_reducible apply OnlyO.cond _ ?_ ?_
    | with_reducible apply Only.cond _ ?_ ?_
    | with_reducible apply Only.step ?_ (State.holdClear_only ..) ?_
    | with_reducible apply Only.step ?_ (State.spillCount_only ..) ?_
    | with_reducible apply Only.step ?_ (State.spillMove_only ..) ?_
    | exact Eq.refl _
    | split)

theorem State.keyStart_only (s : State) (o : Option Origin) :
    Only (some [F.log, P.LOG_KEY_STATE]) s (State.keyStart s o) := by
  unfold State.keyStart
  repeat' (first
    | with_reducible exact Only.refl _ _
    | with_reducible assumption
    | with_reducible apply Only.wr ?_ ?_ _ _
    | with_reducible apply Only.step ?_ (State.setLog_only ..) ?_
    | exact Eq.refl _)

theorem State.keyDone_only (s : State) : Only (some [F.cmd, F.flash, F.fresh, F.log, F.rings, P.CMD_REFUSED_COUNT, P.LOG_KEY_SERIAL, P.LOG_KEY_STATE, P.TBS_OVER_LIMIT_COUNT]) s (State.keyDone s) := by
  unfold State.keyDone
  refine Only.cond _ ?_ (Only.refl _ _)
  have a : Only (some [F.cmd, F.flash, F.fresh, F.log, F.rings, P.CMD_REFUSED_COUNT, P.LOG_KEY_SERIAL, P.LOG_KEY_STATE, P.TBS_OVER_LIMIT_COUNT]) s { s with fresh := s.fresh + 1, flash := { s.flash with keyCount := s.flash.keyCount + 1 } } :=
    Only.set_flash (t := { s with fresh := s.fresh + 1 }) (Only.set_fresh (Only.refl _ s) (by exact Eq.refl _) _) (by exact Eq.refl _) _
  have b := (Only.step a (State.setLog_only _ (fun x => { x with key := some (toBe 32 (Config.random s.fresh).toNat), keyFor := none }))
    (by exact Eq.refl _)).wr (b := P.LOG_KEY_STATE) (by exact Eq.refl _) 0 2 |>.wr (b := P.LOG_KEY_SERIAL) (by exact Eq.refl _) 0 ((s.flash.keyCount + 1) % 65536)
  dsimp only
  split
  · exact b.step (State.finish_only ..) (by exact Eq.refl _)
  · exact b

theorem logKeyPublic_only (o : Origin) (_p : List Byte) (s : State) :
    Only (some [F.cmd, F.rings, P.CMD_REFUSED_COUNT, P.TBS_OVER_LIMIT_COUNT]) s (logKeyPublic o _p s) := by
  unfold logKeyPublic
  repeat' (first
    | with_reducible exact Only.refl _ _
    | with_reducible assumption
    | with_reducible apply Only.step ?_ (State.finish_only ..) ?_
    | exact Eq.refl _
    | split)

theorem State.logWipe_only (s : State) :
    Only (some [F.log, F.rings, P.LOG_FLAGS, P.LOG_KEY_SERIAL]) s (State.logWipe s) := by
  unfold State.logWipe
  repeat' (first
    | (extract_lets +onlyGivenNames t; refine Only.with_state (t := t) ?_ fun _ => ?_; subst t; rotate_left; clear_value t)
    | (extract_lets +onlyGivenNames t; refine Only.with_pair (t := t) ?_ fun _ => ?_; subst t; rotate_left; clear_value t)
    | (extract_lets +onlyGivenNames t; clear_value t)
    | with_reducible exact Only.refl _ _
    | with_reducible assumption
    | with_reducible apply Only.fold _ _ (fun _ _ => ?_) ?_
    | with_reducible apply OnlyP.fold _ _ (fun _ _ => ?_) ?_
    | with_reducible apply OnlyP.of ?_
    | with_reducible apply Only.wr ?_ ?_ _ _
    | with_reducible apply Only.step ?_ (State.voidSeals_only ..) ?_
    | with_reducible apply Only.step ?_ (State.setChan_only ..) ?_
    | with_reducible apply Only.step ?_ (State.setLog_only ..) ?_
    | exact Eq.refl _
    | extract_lets)

theorem State.closeChannel_only (s : State) (c : ℕ) :
    Only (some [F.log, F.rings, P.LOG_FLAGS, P.LOG_HOLD_ACTIVE, P.LOG_SEALS_MERGED, P.LOG_SEAL_SEQ, P.LOG_SPILL_PEAK, P.LOG_SPILL_USED]) s (State.closeChannel s c) := by
  unfold State.closeChannel
  repeat' (first
    | with_reducible exact Only.refl _ _
    | with_reducible assumption
    | with_reducible apply Only.step ?_ (State.setChan_only ..) ?_
    | with_reducible apply Only.step ?_ (State.writeSeal_only ..) ?_
    | exact Eq.refl _)

end Sys2Proof.Machine
end

