-- ==== Sys2Proof/Laws/OnlyChamber.lean ====
section
/-! SUPPORT. What each operation of Machine/Chamber.lean can change. -/

set_option linter.unusedTactic false
set_option linter.unreachableTactic false
set_option linter.tactic.unusedName false

namespace Sys2Proof.Machine

theorem State.setLock_only (s : State) (f : Lock → Lock) :
    Only (some [F.lock]) s (State.setLock s f) := by
  unfold State.setLock
  repeat' (first
    | with_reducible exact Only.refl _ _
    | with_reducible assumption
    | exact Eq.refl _
    | with_reducible apply Only.set_lock ?_ ?_ _)

theorem State.refreshPath_only (s : State) (p : ℕ) :
    Only (some [P.LCK_TXPATH, P.LCK_WINDOW]) s (State.refreshPath s p) := by
  unfold State.refreshPath
  repeat' (first
    | with_reducible exact Only.refl _ _
    | with_reducible assumption
    | with_reducible apply Only.cond _ ?_ ?_
    | with_reducible apply Only.wr ?_ ?_ _ _
    | exact Eq.refl _
    | split)

theorem execGateChange_only (port : Fin 512) (s : State) :
    OnlyO (some [F.lock]) s (execGateChange port s) := by
  unfold execGateChange
  repeat' (first
    | (extract_lets +onlyGivenNames t; refine OnlyO.with_state (t := t) ?_ fun _ => ?_; subst t; rotate_left; clear_value t)
    | (extract_lets +onlyGivenNames t; refine Only.with_state (t := t) ?_ fun _ => ?_; subst t; rotate_left; clear_value t)
    | (extract_lets +onlyGivenNames t; clear_value t)
    | with_reducible exact Only.refl _ _
    | with_reducible assumption
    | with_reducible apply OnlyO.of ?_
    | with_reducible apply Only.step ?_ (State.setLock_only ..) ?_
    | exact Eq.refl _
    | extract_lets)

theorem State.armSwap_only (s : State) (p : ℕ) (v : ℕ) :
    Only (some [F.lock, P.LCK_SWAP_STATE, P.LCK_SWAP_TIME]) s (State.armSwap s p v) := by
  unfold State.armSwap
  repeat' (first
    | (extract_lets +onlyGivenNames t; refine Only.with_state (t := t) ?_ fun _ => ?_; subst t; rotate_left; clear_value t)
    | (extract_lets +onlyGivenNames t; clear_value t)
    | with_reducible exact Only.refl _ _
    | with_reducible assumption
    | with_reducible apply Only.cond _ ?_ ?_
    | with_reducible apply Only.wr ?_ ?_ _ _
    | with_reducible apply Only.step ?_ (State.setLock_only ..) ?_
    | exact Eq.refl _
    | extract_lets
    | split)

theorem execBankSwap_only (port : Fin 512) (s : State) :
    OnlyO (some [F.cmd, F.lock, F.params, F.rings]) s (execBankSwap port s) := by
  unfold execBankSwap
  repeat' (first
    | (extract_lets +onlyGivenNames t; refine OnlyO.with_state (t := t) ?_ fun _ => ?_; subst t; rotate_left; clear_value t)
    | (extract_lets +onlyGivenNames t; refine Only.with_state (t := t) ?_ fun _ => ?_; subst t; rotate_left; clear_value t)
    | (extract_lets +onlyGivenNames t; have q : ℕ := t; clear q; clear_value t)
    | (extract_lets +onlyGivenNames t; have q : Bool := t; clear q; clear_value t)
    | (extract_lets +onlyGivenNames t; have q : ℤ := t; clear q; clear_value t)
    | (extract_lets +onlyGivenNames t; have q : Option _ := t; clear q; clear_value t)
    | (extract_lets +onlyGivenNames t; have q : List _ := t; clear q; clear_value t)
    | (extract_lets +onlyGivenNames t; have q : _ × _ := t; clear q; clear_value t)
    | with_reducible exact Only.refl _ _
    | with_reducible assumption
    | with_reducible apply OnlyO.of ?_
    | with_reducible apply OnlyO.cond _ ?_ ?_
    | with_reducible apply Only.cond _ ?_ ?_
    | with_reducible apply Only.wr_any ?_ ?_ _ _ _
    | with_reducible apply Only.orIn_any ?_ ?_ _ _ _
    | with_reducible apply Only.step ?_ (State.setLock_only ..) ?_
    | with_reducible apply Only.step ?_ (State.configUp_only ..) ?_
    | with_reducible apply Only.step ?_ (State.notice_only ..) ?_
    | exact Eq.refl _
    | extract_lets
    | split)

theorem State.admWrite_only (s : State) (b : ℕ) (p : ℕ) (i : ℕ) (v : ℕ) :
    Only (some [F.lock, F.params]) s (State.admWrite s b p i v) := by
  unfold State.admWrite
  repeat' (first
    | with_reducible exact Only.refl _ _
    | with_reducible assumption
    | with_reducible apply Only.cond _ ?_ ?_
    | with_reducible apply Only.wr_any ?_ ?_ _ _ _
    | with_reducible apply Only.step ?_ (State.setLock_only ..) ?_
    | exact Eq.refl _
    | split)

theorem State.admWriteHeld_only (s : State) (b : ℕ) (p : ℕ) (i : ℕ) (v : ℕ) :
    Only (some [F.lock, F.params]) s (State.admWriteHeld s b p i v) := by
  unfold State.admWriteHeld
  repeat' (first
    | with_reducible exact Only.refl _ _
    | with_reducible assumption
    | with_reducible apply Only.cond _ ?_ ?_
    | with_reducible apply Only.step ?_ (State.setLock_only ..) ?_
    | with_reducible apply Only.step ?_ (State.admWrite_only ..) ?_
    | exact Eq.refl _
    | split)

theorem execBankCopyDone_only (port : Fin 512) (s : State) :
    OnlyO (some [F.lock, F.params]) s (execBankCopyDone port s) := by
  unfold execBankCopyDone
  repeat' (first
    | (extract_lets +onlyGivenNames t; refine OnlyO.with_state (t := t) ?_ fun _ => ?_; subst t; rotate_left; clear_value t)
    | (extract_lets +onlyGivenNames t; refine OnlyO.with_pair (t := t) ?_ fun _ => ?_; subst t; rotate_left; clear_value t)
    | (extract_lets +onlyGivenNames t; refine Only.with_state (t := t) ?_ fun _ => ?_; subst t; rotate_left; clear_value t)
    | (extract_lets +onlyGivenNames t; refine Only.with_pair (t := t) ?_ fun _ => ?_; subst t; rotate_left; clear_value t)
    | (extract_lets +onlyGivenNames t; clear_value t)
    | with_reducible exact Only.refl _ _
    | with_reducible assumption
    | with_reducible apply OnlyO.of ?_
    | with_reducible apply OnlyO.cond _ ?_ ?_
    | with_reducible apply Only.fold _ _ (fun _ _ => ?_) ?_
    | with_reducible apply OnlyP.fold _ _ (fun _ _ => ?_) ?_
    | with_reducible apply OnlyP.of ?_
    | with_reducible apply OnlyP.cond _ ?_ ?_
    | with_reducible apply Only.cond _ ?_ ?_
    | with_reducible apply Only.wr ?_ ?_ _ _
    | with_reducible apply Only.step ?_ (State.setLock_only ..) ?_
    | with_reducible apply Only.step ?_ (State.admWrite_only ..) ?_
    | exact Eq.refl _
    | extract_lets
    | split)

end Sys2Proof.Machine
end

