-- ==== Sys2Proof/Laws/OnlyCores.lean ====
section
/-! SUPPORT. What each operation of Machine/Cores.lean can change. -/

set_option linter.unusedTactic false
set_option linter.unreachableTactic false
set_option linter.tactic.unusedName false

namespace Sys2Proof.Machine

theorem State.showTests_only (s : State) (c : ℕ) (gs : List ℕ) :
    Only (some [P.COR_SCORE, P.COR_TEST_RESULT]) s (State.showTests s c gs) := by
  unfold State.showTests
  repeat' (first
    | with_reducible exact Only.refl _ _
    | with_reducible assumption
    | with_reducible apply Only.fold _ _ (fun _ _ => ?_) ?_
    | with_reducible apply OnlyP.fold _ _ (fun _ _ => ?_) ?_
    | with_reducible apply OnlyP.of ?_
    | with_reducible apply Only.wr ?_ ?_ _ _
    | exact Eq.refl _)

theorem State.noTests_only (s : State) (c : ℕ) :
    Only (some [F.time, P.COR_SCORE, P.COR_TEST_RESULT]) s (State.noTests s c) := by
  unfold State.noTests
  repeat' (first
    | with_reducible exact Only.refl _ _
    | with_reducible assumption
    | with_reducible apply Only.step ?_ (State.setCore_only ..) ?_
    | with_reducible apply Only.step ?_ (State.showTests_only ..) ?_
    | exact Eq.refl _)

theorem State.peerNotRun_only (s : State) (c : ℕ) :
    Only (some [P.COR_SCORE, P.COR_TEST_RESULT]) s (State.peerNotRun s c) := by
  unfold State.peerNotRun
  repeat' (first
    | with_reducible exact Only.refl _ _
    | with_reducible assumption
    | with_reducible apply Only.cond _ ?_ ?_
    | with_reducible apply Only.step ?_ (State.showTests_only ..) ?_
    | exact Eq.refl _
    | split)

theorem State.beginSwitch_only (s : State) (fromCore : ℕ) (toCore : ℕ) (cause : ℕ) (waiting : List Origin) :
    Only (some [F.time]) s (State.beginSwitch s fromCore toCore cause waiting) := by
  unfold State.beginSwitch
  repeat' (first
    | with_reducible exact Only.refl _ _
    | with_reducible assumption
    | exact Eq.refl _
    | with_reducible apply Only.set_time ?_ ?_ _ ?_)

theorem State.toFault_only (s : State) :
    Only (some [F.cmd, F.fault, F.rings, F.servo, P.CMD_NOTICE_DROP, P.HLT_FAULT_COUNT, P.HLT_STICKY, P.REF_ACTIVE, P.REF_FLAGS, P.REF_SWLOG_HEAD, P.REF_SWLOG_INFO, P.REF_SWLOG_TIME, P.REF_TSTATE, P.TBS_BOUND_NOW, P.TBS_BOUND_PS, P.TBS_DOM_SELECTED]) s (State.toFault s) := by
  unfold State.toFault
  repeat' (first
    | (extract_lets +onlyGivenNames t; refine Only.with_state (t := t) ?_ fun _ => ?_; subst t; rotate_left; clear_value t)
    | (extract_lets +onlyGivenNames t; clear_value t)
    | with_reducible exact Only.refl _ _
    | with_reducible assumption
    | with_reducible apply Only.cond _ ?_ ?_
    | with_reducible apply Only.step ?_ (State.freeze_only ..) ?_
    | with_reducible apply Only.step ?_ (State.conclude_only ..) ?_
    | with_reducible apply Only.step ?_ (State.put_only ..) ?_
    | exact Eq.refl _
    | extract_lets
    | split)

theorem State.abandonSwitch_only (s : State) :
    Only (some [F.cmd, F.rings, F.time, P.CMD_REFUSED_COUNT, P.TBS_OVER_LIMIT_COUNT]) s (State.abandonSwitch s) := by
  unfold State.abandonSwitch
  repeat' (first
    | (extract_lets +onlyGivenNames t; refine Only.with_state (t := t) ?_ fun _ => ?_; subst t; rotate_left; clear_value t)
    | (extract_lets +onlyGivenNames t; refine Only.with_pair (t := t) ?_ fun _ => ?_; subst t; rotate_left; clear_value t)
    | (extract_lets +onlyGivenNames t; have q : ℕ := t; clear q; clear_value t)
    | (extract_lets +onlyGivenNames t; have q : Bool := t; clear q; clear_value t)
    | (extract_lets +onlyGivenNames t; have q : ℤ := t; clear q; clear_value t)
    | (extract_lets +onlyGivenNames t; have q : Option _ := t; clear q; clear_value t)
    | (extract_lets +onlyGivenNames t; have q : List _ := t; clear q; clear_value t)
    | (extract_lets +onlyGivenNames t; have q : _ × _ := t; clear q; clear_value t)
    | with_reducible exact Only.refl _ _
    | with_reducible assumption
    | with_reducible apply Only.fold _ _ (fun _ _ => ?_) ?_
    | with_reducible apply OnlyP.fold _ _ (fun _ _ => ?_) ?_
    | with_reducible apply OnlyP.of ?_
    | with_reducible apply Only.step ?_ (State.finish_only ..) ?_
    | exact Eq.refl _
    | extract_lets
    | split
    | with_reducible apply Only.set_time ?_ ?_ _ ?_)

theorem State.coreFault_only (s : State) (c : ℕ) (cause : ℕ) :
    Only (some [F.cmd, F.fault, F.rings, F.servo, F.time, P.CMD_NOTICE_DROP, P.CMD_REFUSED_COUNT, P.COR_FLAGS, P.COR_SCORE, P.COR_STATE, P.COR_TEST_RESULT, P.HLT_FAULT_COUNT, P.HLT_STICKY, P.REF_ACTIVE, P.REF_FLAGS, P.REF_SWLOG_HEAD, P.REF_SWLOG_INFO, P.REF_SWLOG_TIME, P.REF_TSTATE, P.TBS_BOUND_NOW, P.TBS_BOUND_PS, P.TBS_DOM_SELECTED, P.TBS_OVER_LIMIT_COUNT]) s (State.coreFault s c cause) := by
  unfold State.coreFault
  repeat' (first
    | (extract_lets +onlyGivenNames t; refine Only.with_state (t := t) ?_ fun _ => ?_; subst t; rotate_left; clear_value t)
    | (extract_lets +onlyGivenNames t; clear_value t)
    | with_reducible exact Only.refl _ _
    | with_reducible assumption
    | with_reducible apply Only.cond _ ?_ ?_
    | with_reducible apply Only.wr ?_ ?_ _ _
    | with_reducible apply Only.orIn ?_ ?_ _ _
    | with_reducible apply Only.step ?_ (State.setCore_only ..) ?_
    | with_reducible apply Only.step ?_ (State.noTests_only ..) ?_
    | with_reducible apply Only.step ?_ (State.sticky_only ..) ?_
    | with_reducible apply Only.step ?_ (State.beginSwitch_only ..) ?_
    | with_reducible apply Only.step ?_ (State.toFault_only ..) ?_
    | with_reducible apply Only.step ?_ (State.abandonSwitch_only ..) ?_
    | exact Eq.refl _
    | extract_lets
    | split)

theorem State.switchGrowth_only (s : State) (c : ℕ) :
    Only (some [F.servo]) s (State.switchGrowth s c) := by
  unfold State.switchGrowth
  repeat' (first
    | with_reducible exact Only.refl _ _
    | with_reducible assumption
    | with_reducible apply Only.cond _ ?_ ?_
    | with_reducible apply Only.step ?_ (State.setServo_only ..) ?_
    | with_reducible apply Only.step ?_ (State.modelFrom_only ..) ?_
    | exact Eq.refl _
    | split)

theorem State.endSwitch_only (s : State) :
    Only (some [F.cmd, F.fault, F.rings, F.servo, F.time, P.CMD_NOTICE_DROP, P.CMD_REFUSED_COUNT, P.COR_ACTIVE, P.COR_LAST_CAUSE, P.COR_SCORE, P.COR_STATE, P.COR_SWITCH_COUNT, P.COR_TEST_RESULT, P.HLT_FAULT_COUNT, P.HLT_STICKY, P.TBS_BOUND_NOW, P.TBS_BOUND_PS, P.TBS_OVER_LIMIT_COUNT]) s (State.endSwitch s) := by
  unfold State.endSwitch
  repeat' (first
    | (extract_lets +onlyGivenNames t; refine Only.with_state (t := t) ?_ fun _ => ?_; subst t; rotate_left; clear_value t)
    | (extract_lets +onlyGivenNames t; refine Only.with_pair (t := t) ?_ fun _ => ?_; subst t; rotate_left; clear_value t)
    | (extract_lets +onlyGivenNames t; have q : ℕ := t; clear q; clear_value t)
    | (extract_lets +onlyGivenNames t; have q : Bool := t; clear q; clear_value t)
    | (extract_lets +onlyGivenNames t; have q : ℤ := t; clear q; clear_value t)
    | (extract_lets +onlyGivenNames t; have q : Option _ := t; clear q; clear_value t)
    | (extract_lets +onlyGivenNames t; have q : List _ := t; clear q; clear_value t)
    | (extract_lets +onlyGivenNames t; have q : _ × _ := t; clear q; clear_value t)
    | with_reducible exact Only.refl _ _
    | with_reducible assumption
    | with_reducible apply Only.fold _ _ (fun _ _ => ?_) ?_
    | with_reducible apply OnlyP.fold _ _ (fun _ _ => ?_) ?_
    | with_reducible apply OnlyP.of ?_
    | with_reducible apply OnlyP.cond _ ?_ ?_
    | with_reducible apply Only.cond _ ?_ ?_
    | with_reducible apply Only.wr ?_ ?_ _ _
    | with_reducible apply Only.count_plain ?_ ?_ (by decide) _ _
    | with_reducible apply Only.count ?_ ?_ ?_ ?_ _ _
    | with_reducible apply Only.step ?_ (State.peerNotRun_only ..) ?_
    | with_reducible apply Only.step ?_ (State.setCore_only ..) ?_
    | with_reducible apply Only.step ?_ (State.steerNow_only ..) ?_
    | with_reducible apply Only.step ?_ (State.refreshBound_only ..) ?_
    | with_reducible apply Only.step ?_ (State.switchGrowth_only ..) ?_
    | with_reducible apply Only.step ?_ (State.sticky_only ..) ?_
    | with_reducible apply Only.step ?_ (State.notice_only ..) ?_
    | with_reducible apply Only.step ?_ (State.finish_only ..) ?_
    | exact Eq.refl _
    | extract_lets
    | split
    | with_reducible apply Only.set_time ?_ ?_ _ ?_)

theorem State.coreReturn_only (s : State) (c : ℕ) :
    Only (some ([F.cmd, F.fault, F.fresh, F.rings, F.servo, F.time, P.CMD_NOTICE_DROP, P.COR_ACTIVE, P.COR_SCORE, P.COR_STATE, P.COR_TEST_RESULT, P.HLT_FAULT_COUNT, P.HLT_STICKY, P.REF_ACTIVE, P.REF_FLAGS, P.REF_HO_C, P.REF_HO_D, P.REF_HO_Y0, P.REF_SWLOG_HEAD, P.REF_SWLOG_INFO, P.REF_SWLOG_TIME, P.REF_TSTATE, P.TBS_BOUND_NOW, P.TBS_BOUND_PS] ++
      [P.TBS_DOM_SELECTED])) s (State.coreReturn s c) := by
  unfold State.coreReturn
  repeat' (first
    | (extract_lets +onlyGivenNames t; refine Only.with_state (t := t) ?_ fun _ => ?_; subst t; rotate_left; clear_value t)
    | (extract_lets +onlyGivenNames t; clear_value t)
    | with_reducible exact Only.refl _ _
    | with_reducible assumption
    | with_reducible apply Only.cond _ ?_ ?_
    | with_reducible apply Only.wr ?_ ?_ _ _
    | with_reducible apply Only.step ?_ (State.peerNotRun_only ..) ?_
    | with_reducible apply Only.step ?_ (State.setCore_only ..) ?_
    | with_reducible apply Only.step ?_ (State.toHoldover_only ..) ?_
    | with_reducible apply Only.step ?_ (State.toFreerun_only ..) ?_
    | with_reducible apply Only.step ?_ (State.conclude_only ..) ?_
    | with_reducible apply Only.step ?_ (State.followSelection_only ..) ?_
    | exact Eq.refl _
    | extract_lets
    | split)

theorem State.returnStandby_only (s : State) :
    Only (some ([F.cmd, F.fault, F.fresh, F.rings, F.servo, F.time, P.CMD_NOTICE_DROP, P.COR_ACTIVE, P.COR_SCORE, P.COR_STATE, P.COR_TEST_RESULT, P.HLT_FAULT_COUNT, P.HLT_STICKY, P.REF_ACTIVE, P.REF_FLAGS, P.REF_HO_C, P.REF_HO_D, P.REF_HO_Y0, P.REF_SWLOG_HEAD, P.REF_SWLOG_INFO, P.REF_SWLOG_TIME, P.REF_TSTATE, P.TBS_BOUND_NOW, P.TBS_BOUND_PS] ++
      [P.TBS_DOM_SELECTED])) s (State.returnStandby s) := by
  unfold State.returnStandby
  repeat' (first
    | with_reducible exact Only.refl _ _
    | with_reducible assumption
    | with_reducible apply Only.cond _ ?_ ?_
    | with_reducible apply Only.step ?_ (State.coreReturn_only ..) ?_
    | exact Eq.refl _
    | split)

theorem coreSwitch_only (o : Origin) (p : List Byte) (s : State) :
    Only (some [F.cmd, F.rings, F.time, P.CMD_REFUSED_COUNT, P.TBS_OVER_LIMIT_COUNT]) s (coreSwitch o p s) := by
  unfold coreSwitch
  repeat' (first
    | (extract_lets +onlyGivenNames t; refine Only.with_state (t := t) ?_ fun _ => ?_; subst t; rotate_left; clear_value t)
    | (extract_lets +onlyGivenNames t; have q : ℕ := t; clear q; clear_value t)
    | (extract_lets +onlyGivenNames t; have q : Bool := t; clear q; clear_value t)
    | (extract_lets +onlyGivenNames t; have q : ℤ := t; clear q; clear_value t)
    | (extract_lets +onlyGivenNames t; have q : Option _ := t; clear q; clear_value t)
    | (extract_lets +onlyGivenNames t; have q : List _ := t; clear q; clear_value t)
    | (extract_lets +onlyGivenNames t; have q : _ × _ := t; clear q; clear_value t)
    | with_reducible exact Only.refl _ _
    | with_reducible assumption
    | with_reducible apply Only.cond _ ?_ ?_
    | with_reducible apply Only.step ?_ (State.finish_only ..) ?_
    | with_reducible apply Only.step ?_ (State.beginSwitch_only ..) ?_
    | exact Eq.refl _
    | extract_lets
    | split
    | with_reducible apply Only.set_time ?_ ?_ _ ?_)

theorem coreHealth_only (o : Origin) (p : List Byte) (s : State) :
    Only (some [F.cmd, F.rings, P.CMD_REFUSED_COUNT, P.TBS_OVER_LIMIT_COUNT]) s (coreHealth o p s) := by
  unfold coreHealth
  repeat' (first
    | (extract_lets +onlyGivenNames t; refine Only.with_state (t := t) ?_ fun _ => ?_; subst t; rotate_left; clear_value t)
    | (extract_lets +onlyGivenNames t; clear_value t)
    | with_reducible exact Only.refl _ _
    | with_reducible assumption
    | with_reducible apply Only.cond _ ?_ ?_
    | with_reducible apply Only.step ?_ (State.finish_only ..) ?_
    | exact Eq.refl _
    | extract_lets
    | split)

theorem State.afterTests_only (s : State) (c : ℕ) (m : CoreMeasure) :
    Only (some ([F.cmd, F.fault, F.fresh, F.rings, F.servo, F.time, P.CMD_NOTICE_DROP, P.CMD_REFUSED_COUNT, P.COR_ACTIVE, P.COR_FLAGS, P.COR_SCORE, P.COR_STATE, P.COR_TEST_RESULT, P.HLT_FAULT_COUNT, P.HLT_STICKY, P.REF_ACTIVE, P.REF_FLAGS, P.REF_HO_C, P.REF_HO_D, P.REF_HO_Y0, P.REF_SWLOG_HEAD, P.REF_SWLOG_INFO, P.REF_SWLOG_TIME, P.REF_TSTATE] ++
      [P.TBS_BOUND_NOW, P.TBS_BOUND_PS, P.TBS_DOM_SELECTED, P.TBS_OVER_LIMIT_COUNT])) s (State.afterTests s c m) := by
  unfold State.afterTests
  repeat' (first
    | (extract_lets +onlyGivenNames t; refine Only.with_state (t := t) ?_ fun _ => ?_; subst t; rotate_left; clear_value t)
    | (extract_lets +onlyGivenNames t; clear_value t)
    | with_reducible exact Only.refl _ _
    | with_reducible assumption
    | with_reducible apply Only.cond _ ?_ ?_
    | with_reducible apply Only.wr ?_ ?_ _ _
    | with_reducible apply Only.orIn ?_ ?_ _ _
    | with_reducible apply Only.step ?_ (State.setCore_only ..) ?_
    | with_reducible apply Only.step ?_ (State.coreFault_only ..) ?_
    | with_reducible apply Only.step ?_ (State.coreReturn_only ..) ?_
    | with_reducible apply Only.step ?_ (State.sticky_only ..) ?_
    | with_reducible apply Only.step ?_ (State.returnStandby_only ..) ?_
    | exact Eq.refl _
    | extract_lets
    | split)

theorem State.coreSelfTest_only (s : State) (core : Fin 2) (m : CoreMeasure) :
    Only (some ([F.cmd, F.fault, F.fresh, F.rings, F.servo, F.time, P.CMD_NOTICE_DROP, P.CMD_REFUSED_COUNT, P.COR_ACTIVE, P.COR_FLAGS, P.COR_PEER_ERR, P.COR_SCORE, P.COR_SHADOW_MISMATCH, P.COR_STATE, P.COR_TEST_RESULT, P.HLT_FAULT_COUNT, P.HLT_STICKY, P.REF_ACTIVE, P.REF_FLAGS, P.REF_HO_C, P.REF_HO_D, P.REF_HO_Y0, P.REF_SWLOG_HEAD, P.REF_SWLOG_INFO] ++
      [P.REF_SWLOG_TIME, P.REF_TSTATE, P.TBS_BOUND_NOW, P.TBS_BOUND_PS, P.TBS_DOM_SELECTED, P.TBS_OVER_LIMIT_COUNT])) s (State.coreSelfTest s core m) := by
  unfold State.coreSelfTest
  repeat' (first
    | (extract_lets +onlyGivenNames t; refine Only.with_state (t := t) ?_ fun _ => ?_; subst t; rotate_left; clear_value t)
    | (extract_lets +onlyGivenNames t; refine Only.with_pair (t := t) ?_ fun _ => ?_; subst t; rotate_left; clear_value t)
    | (extract_lets +onlyGivenNames t; clear_value t)
    | with_reducible exact Only.refl _ _
    | with_reducible assumption
    | with_reducible apply Only.fold _ _ (fun _ _ => ?_) ?_
    | with_reducible apply OnlyP.fold _ _ (fun _ _ => ?_) ?_
    | with_reducible apply OnlyP.of ?_
    | with_reducible apply OnlyP.cond _ ?_ ?_
    | with_reducible apply Only.cond _ ?_ ?_
    | with_reducible apply Only.wrS ?_ ?_ _ _ _
    | with_reducible apply Only.count_plain ?_ ?_ (by decide) _ _
    | with_reducible apply Only.count ?_ ?_ ?_ ?_ _ _
    | with_reducible apply Only.step ?_ (State.setCore_only ..) ?_
    | with_reducible apply Only.step ?_ (State.showTests_only ..) ?_
    | with_reducible apply Only.step ?_ (State.afterTests_only ..) ?_
    | exact Eq.refl _
    | extract_lets
    | split)

theorem State.edgeMissing_only (s : State) :
    Only (some [F.cmd, F.fault, F.rings, F.servo, F.time, P.CMD_NOTICE_DROP, P.CMD_REFUSED_COUNT, P.COR_FLAGS, P.COR_SCORE, P.COR_STATE, P.COR_TEST_RESULT, P.HLT_FAULT_COUNT, P.HLT_STICKY, P.REF_ACTIVE, P.REF_FLAGS, P.REF_SWLOG_HEAD, P.REF_SWLOG_INFO, P.REF_SWLOG_TIME, P.REF_TSTATE, P.TBS_BOUND_NOW, P.TBS_BOUND_PS, P.TBS_DOM_SELECTED, P.TBS_OVER_LIMIT_COUNT]) s (State.edgeMissing s) := by
  unfold State.edgeMissing
  repeat' (first
    | with_reducible exact Only.refl _ _
    | with_reducible assumption
    | with_reducible apply Only.cond _ ?_ ?_
    | with_reducible apply Only.step ?_ (State.coreFault_only ..) ?_
    | exact Eq.refl _
    | split)

theorem State.parityError_only (s : State) (core : Fin 2) :
    Only (some [F.cmd, F.fault, F.rings, F.servo, F.time, P.CMD_NOTICE_DROP, P.CMD_REFUSED_COUNT, P.COR_FLAGS, P.COR_SCORE, P.COR_STATE, P.COR_TEST_RESULT, P.HLT_FAULT_COUNT, P.HLT_STICKY, P.REF_ACTIVE, P.REF_FLAGS, P.REF_SWLOG_HEAD, P.REF_SWLOG_INFO, P.REF_SWLOG_TIME, P.REF_TSTATE, P.TBS_BOUND_NOW, P.TBS_BOUND_PS, P.TBS_DOM_SELECTED, P.TBS_OVER_LIMIT_COUNT]) s (State.parityError s core) := by
  unfold State.parityError
  repeat' (first
    | (extract_lets +onlyGivenNames t; refine Only.with_state (t := t) ?_ fun _ => ?_; subst t; rotate_left; clear_value t)
    | (extract_lets +onlyGivenNames t; clear_value t)
    | with_reducible exact Only.refl _ _
    | with_reducible assumption
    | with_reducible apply Only.cond _ ?_ ?_
    | with_reducible apply Only.step ?_ (State.setCore_only ..) ?_
    | with_reducible apply Only.step ?_ (State.coreFault_only ..) ?_
    | exact Eq.refl _
    | extract_lets
    | split)

theorem execCoreRecover_only (core : Fin 2) (s : State) :
    OnlyO (some ([F.cmd, F.fault, F.fresh, F.rings, F.servo, F.time, P.CMD_NOTICE_DROP, P.COR_ACTIVE, P.COR_SCORE, P.COR_STATE, P.COR_TEST_RESULT, P.HLT_FAULT_COUNT, P.HLT_STICKY, P.REF_ACTIVE, P.REF_FLAGS, P.REF_HO_C, P.REF_HO_D, P.REF_HO_Y0, P.REF_SWLOG_HEAD, P.REF_SWLOG_INFO, P.REF_SWLOG_TIME, P.REF_TSTATE, P.TBS_BOUND_NOW, P.TBS_BOUND_PS] ++
      [P.TBS_DOM_SELECTED])) s (execCoreRecover core s) := by
  unfold execCoreRecover
  repeat' (first
    | (extract_lets +onlyGivenNames t; refine OnlyO.with_state (t := t) ?_ fun _ => ?_; subst t; rotate_left; clear_value t)
    | (extract_lets +onlyGivenNames t; refine Only.with_state (t := t) ?_ fun _ => ?_; subst t; rotate_left; clear_value t)
    | (extract_lets +onlyGivenNames t; clear_value t)
    | with_reducible exact Only.refl _ _
    | with_reducible assumption
    | with_reducible apply OnlyO.of ?_
    | with_reducible apply OnlyO.cond _ ?_ ?_
    | with_reducible apply Only.cond _ ?_ ?_
    | with_reducible apply Only.wr ?_ ?_ _ _
    | with_reducible apply Only.step ?_ (State.coreReturn_only ..) ?_
    | exact Eq.refl _
    | extract_lets
    | split)

theorem execCrosslockSettle_only (core : Fin 2) (s : State) :
    OnlyO (some ([F.cmd, F.fault, F.fresh, F.rings, F.servo, F.time, P.CMD_NOTICE_DROP, P.COR_ACTIVE, P.COR_SCORE, P.COR_STATE, P.COR_TEST_RESULT, P.HLT_FAULT_COUNT, P.HLT_STICKY, P.REF_ACTIVE, P.REF_FLAGS, P.REF_HO_C, P.REF_HO_D, P.REF_HO_Y0, P.REF_SWLOG_HEAD, P.REF_SWLOG_INFO, P.REF_SWLOG_TIME, P.REF_TSTATE, P.TBS_BOUND_NOW, P.TBS_BOUND_PS] ++
      [P.TBS_DOM_SELECTED])) s (execCrosslockSettle core s) := by
  unfold execCrosslockSettle
  repeat' (first
    | (extract_lets +onlyGivenNames t; refine OnlyO.with_state (t := t) ?_ fun _ => ?_; subst t; rotate_left; clear_value t)
    | (extract_lets +onlyGivenNames t; refine Only.with_state (t := t) ?_ fun _ => ?_; subst t; rotate_left; clear_value t)
    | (extract_lets +onlyGivenNames t; clear_value t)
    | with_reducible exact Only.refl _ _
    | with_reducible assumption
    | with_reducible apply OnlyO.of ?_
    | with_reducible apply OnlyO.cond _ ?_ ?_
    | with_reducible apply Only.cond _ ?_ ?_
    | with_reducible apply Only.wr ?_ ?_ _ _
    | with_reducible apply Only.step ?_ (State.returnStandby_only ..) ?_
    | with_reducible apply Only.step ?_ (State.setCore_only ..) ?_
    | exact Eq.refl _
    | extract_lets
    | split)

theorem execCoreReturn_only (core : Fin 2) (s : State) :
    OnlyO (some ([F.cmd, F.fault, F.fresh, F.rings, F.servo, F.time, P.CMD_NOTICE_DROP, P.COR_ACTIVE, P.COR_SCORE, P.COR_STATE, P.COR_TEST_RESULT, P.HLT_FAULT_COUNT, P.HLT_STICKY, P.REF_ACTIVE, P.REF_FLAGS, P.REF_HO_C, P.REF_HO_D, P.REF_HO_Y0, P.REF_SWLOG_HEAD, P.REF_SWLOG_INFO, P.REF_SWLOG_TIME, P.REF_TSTATE, P.TBS_BOUND_NOW, P.TBS_BOUND_PS] ++
      [P.TBS_DOM_SELECTED])) s (execCoreReturn core s) := by
  unfold execCoreReturn
  repeat' (first
    | (extract_lets +onlyGivenNames t; refine OnlyO.with_state (t := t) ?_ fun _ => ?_; subst t; rotate_left; clear_value t)
    | (extract_lets +onlyGivenNames t; refine Only.with_state (t := t) ?_ fun _ => ?_; subst t; rotate_left; clear_value t)
    | (extract_lets +onlyGivenNames t; clear_value t)
    | with_reducible exact Only.refl _ _
    | with_reducible assumption
    | with_reducible apply OnlyO.of ?_
    | with_reducible apply OnlyO.cond _ ?_ ?_
    | with_reducible apply Only.cond _ ?_ ?_
    | with_reducible apply Only.step ?_ (State.coreReturn_only ..) ?_
    | exact Eq.refl _
    | extract_lets
    | split)

end Sys2Proof.Machine
end

