-- ==== Sys2Proof/Laws/OnlySessions.lean ====
section
/-! SUPPORT. What each operation of Machine/Sessions.lean can change. -/

set_option linter.unusedTactic false
set_option linter.unreachableTactic false
set_option linter.tactic.unusedName false

namespace Sys2Proof.Machine

theorem State.addSession_only (s : State) (x : Session) (q : ℕ) (priv : ℕ) :
    Only (some [F.cmd, F.sessions, P.CMD_SESSION_PRIV, P.CMD_SESSION_STATE, P.CMD_SESSION_TRANSPORT]) s (State.addSession s x q priv) := by
  unfold State.addSession
  repeat' (first
    | (extract_lets +onlyGivenNames t; refine Only.with_state (t := t) ?_ fun _ => ?_; subst t; rotate_left; clear_value t)
    | (extract_lets +onlyGivenNames t; clear_value t)
    | with_reducible exact Only.refl _ _
    | with_reducible assumption
    | with_reducible apply Only.resession ?_ ?_ ?_ _
    | with_reducible apply Only.wr ?_ ?_ _ _
    | exact Eq.refl _
    | extract_lets)

theorem sessionOpen_only (rq : Request) (s : State) :
    Only (some [F.cmd, F.fresh, F.rings, F.sessions, P.CMD_REFUSED_COUNT, P.CMD_SESSION_PRIV, P.CMD_SESSION_STATE, P.CMD_SESSION_TRANSPORT, P.TBS_OVER_LIMIT_COUNT]) s (sessionOpen rq s) := by
  unfold sessionOpen
  repeat' (first
    | (extract_lets +onlyGivenNames t; refine Only.with_state (t := t) ?_ fun _ => ?_; subst t; rotate_left; clear_value t)
    | (extract_lets +onlyGivenNames t; clear_value t)
    | with_reducible exact Only.refl _ _
    | with_reducible assumption
    | with_reducible apply Only.cond _ ?_ ?_
    | with_reducible apply Only.step ?_ (State.finishOpen_only ..) ?_
    | with_reducible apply Only.step ?_ (State.sendPacket_only ..) ?_
    | with_reducible apply Only.step ?_ (State.addSession_only ..) ?_
    | exact Eq.refl _
    | extract_lets
    | split
    | with_reducible apply Only.set_fresh ?_ ?_ _)

theorem sessionProve_only (o : Origin) (b : List Byte) (s : State) :
    Only (some [F.cmd, F.rings, F.sessions, P.CMD_REFUSED_COUNT, P.CMD_SESSION_PRIV, P.CMD_SESSION_STATE, P.CMD_SESSION_TRANSPORT, P.TBS_OVER_LIMIT_COUNT]) s (sessionProve o b s) := by
  unfold sessionProve
  repeat' (first
    | (extract_lets +onlyGivenNames t; refine Only.with_state (t := t) ?_ fun _ => ?_; subst t; rotate_left; clear_value t)
    | (extract_lets +onlyGivenNames t; clear_value t)
    | with_reducible exact Only.refl _ _
    | with_reducible assumption
    | with_reducible apply Only.cond _ ?_ ?_
    | with_reducible apply Only.setSession ?_ ?_ _ _ ?_
    | with_reducible apply Only.wr ?_ ?_ _ _
    | with_reducible apply Only.step ?_ (State.finish_only ..) ?_
    | with_reducible apply Only.step ?_ (State.finishOpen_only ..) ?_
    | with_reducible apply Only.step ?_ (State.closeSession_only ..) ?_
    | exact Eq.refl _
    | extract_lets
    | split
    | exact fun _ => rfl
    | (intro _; split <;> rfl))

theorem execProofTimeout_only (n : Fin 16) (s : State) :
    OnlyO (some [F.cmd, F.rings, F.sessions, P.CMD_REFUSED_COUNT, P.CMD_SESSION_PRIV, P.CMD_SESSION_STATE, P.CMD_SESSION_TRANSPORT, P.TBS_OVER_LIMIT_COUNT]) s (execProofTimeout n s) := by
  unfold execProofTimeout
  repeat' (first
    | with_reducible exact Only.refl _ _
    | with_reducible assumption
    | with_reducible apply OnlyO.of ?_
    | with_reducible apply OnlyO.cond _ ?_ ?_
    | with_reducible apply Only.cond _ ?_ ?_
    | with_reducible apply Only.step ?_ (State.closeSession_only ..) ?_
    | exact Eq.refl _
    | split)

theorem sessionClose_only (o : Origin) (b : List Byte) (s : State) :
    Only (some [F.cmd, F.rings, F.sessions, P.CMD_REFUSED_COUNT, P.CMD_SESSION_PRIV, P.CMD_SESSION_STATE, P.CMD_SESSION_TRANSPORT, P.TBS_OVER_LIMIT_COUNT]) s (sessionClose o b s) := by
  unfold sessionClose
  repeat' (first
    | (extract_lets +onlyGivenNames t; refine Only.with_state (t := t) ?_ fun _ => ?_; subst t; rotate_left; clear_value t)
    | (extract_lets +onlyGivenNames t; clear_value t)
    | with_reducible exact Only.refl _ _
    | with_reducible assumption
    | with_reducible apply Only.cond _ ?_ ?_
    | with_reducible apply Only.step ?_ (State.finish_only ..) ?_
    | with_reducible apply Only.step ?_ (State.closeSession_only ..) ?_
    | exact Eq.refl _
    | extract_lets
    | split)

theorem execSessionIdleTimeout_only (n : Fin 16) (s : State) :
    OnlyO (some [F.cmd, F.rings, F.sessions, P.CMD_REFUSED_COUNT, P.CMD_SESSION_PRIV, P.CMD_SESSION_STATE, P.CMD_SESSION_TRANSPORT, P.TBS_OVER_LIMIT_COUNT]) s (execSessionIdleTimeout n s) := by
  unfold execSessionIdleTimeout
  repeat' (first
    | (extract_lets +onlyGivenNames t; refine OnlyO.with_state (t := t) ?_ fun _ => ?_; subst t; rotate_left; clear_value t)
    | (extract_lets +onlyGivenNames t; refine Only.with_state (t := t) ?_ fun _ => ?_; subst t; rotate_left; clear_value t)
    | (extract_lets +onlyGivenNames t; clear_value t)
    | with_reducible exact Only.refl _ _
    | with_reducible assumption
    | with_reducible apply OnlyO.of ?_
    | with_reducible apply OnlyO.cond _ ?_ ?_
    | with_reducible apply Only.cond _ ?_ ?_
    | with_reducible apply Only.step ?_ (State.closeSession_only ..) ?_
    | exact Eq.refl _
    | extract_lets
    | split)

theorem sessionSet_only (o : Origin) (b : List Byte) (s : State) :
    Only (some [F.cmd, F.rings, P.CMD_REFUSED_COUNT, P.TBS_OVER_LIMIT_COUNT]) s (sessionSet o b s) := by
  unfold sessionSet
  repeat' (first
    | with_reducible exact Only.refl _ _
    | with_reducible assumption
    | with_reducible apply Only.cond _ ?_ ?_
    | with_reducible apply Only.setSession ?_ ?_ _ _ ?_
    | with_reducible apply Only.step ?_ (State.finish_only ..) ?_
    | exact Eq.refl _
    | split
    | exact fun _ => rfl
    | (intro _; split <;> rfl))

theorem State.freezeSession_only (s : State) (o : Origin) (addr : ℕ) :
    Only (some [F.cmd, F.rings, P.CMD_REFUSED_COUNT, P.CMD_SESSION_STATE, P.CMD_VIOLATION, P.CMD_VIOL_ADDR, P.CMD_VIOL_OPCODE, P.CMD_VIOL_TIME, P.TBS_OVER_LIMIT_COUNT]) s (State.freezeSession s o addr) := by
  unfold State.freezeSession
  repeat' (first
    | (extract_lets +onlyGivenNames t; refine Only.with_state (t := t) ?_ fun _ => ?_; subst t; rotate_left; clear_value t)
    | (extract_lets +onlyGivenNames t; clear_value t)
    | with_reducible exact Only.refl _ _
    | with_reducible assumption
    | with_reducible apply Only.wr ?_ ?_ _ _
    | with_reducible apply Only.orIn ?_ ?_ _ _
    | with_reducible apply Only.step ?_ (State.finish_only ..) ?_
    | exact Eq.refl _
    | extract_lets)

theorem State.spiRead_only (s : State) (ws : List Waiting) : Only (some [F.cmd]) s (State.spiRead s ws) := by
  induction ws generalizing s with
  | nil => exact Only.emit (Only.refl _ _) _
  | cons w ws ih =>
    unfold State.spiRead
    dsimp only
    have h : Only (some [F.cmd]) s ((s.setCmd fun c => { c with spi := ws }).takeWaiting w).1 :=
      Only.fst (Only.setCmd (Only.refl _ _) (by exact Eq.refl _) _ (by exact Eq.refl _)) (State.takeWaiting_only ..) (by exact Eq.refl _)
    exact Only.cond _ (h.trans (ih ..)) (h.emit _)

theorem execSpiReadTransfer_only (s : State) :
    OnlyO (some [F.cmd]) s (execSpiReadTransfer s) := by
  unfold execSpiReadTransfer
  repeat' (first
    | with_reducible exact Only.refl _ _
    | with_reducible assumption
    | with_reducible apply OnlyO.of ?_
    | with_reducible apply OnlyO.cond _ ?_ ?_
    | with_reducible apply Only.cond _ ?_ ?_
    | with_reducible apply Only.step ?_ (State.spiRead_only ..) ?_
    | exact Eq.refl _
    | split)

end Sys2Proof.Machine
end

