-- ==== Sys2Proof/Laws/OnlyNhp.lean ====
section
/-! SUPPORT. What each operation of Machine/Nhp.lean can change. -/

set_option linter.unusedTactic false
set_option linter.unreachableTactic false
set_option linter.tactic.unusedName false

namespace Sys2Proof.Machine

theorem State.setNhp_only (s : State) (f : Hierarchy → Hierarchy) :
    Only (some [F.nhp]) s (State.setNhp s f) := by
  unfold State.setNhp
  repeat' (first
    | with_reducible exact Only.refl _ _
    | with_reducible assumption
    | exact Eq.refl _
    | with_reducible apply Only.set_nhp ?_ ?_ _)

theorem State.nhpDiscard_only (s : State) :
    Only (some [P.HIE_RX_DISCARD]) s (State.nhpDiscard s) := by
  unfold State.nhpDiscard
  repeat' (first
    | with_reducible exact Only.refl _ _
    | with_reducible assumption
    | with_reducible apply Only.count_plain ?_ ?_ (by decide) _ _
    | with_reducible apply Only.count ?_ ?_ ?_ ?_ _ _
    | exact Eq.refl _)

theorem State.nhpRelay_only (s : State) (out : ℕ) (m : List Byte) (body : List Byte) :
    Only (some [P.HIE_RX_DISCARD, P.TBS_OVER_LIMIT_COUNT]) s (State.nhpRelay s out m body) := by
  unfold State.nhpRelay
  repeat' (first
    | with_reducible exact Only.refl _ _
    | with_reducible assumption
    | with_reducible apply Only.cond _ ?_ ?_
    | with_reducible apply Only.emit ?_ _
    | with_reducible apply Only.step ?_ (State.nhpDiscard_only ..) ?_
    | with_reducible apply Only.step ?_ (State.stamped_only ..) ?_
    | exact Eq.refl _
    | split)

theorem State.nhpUp_only (s : State) (m : List Byte) (body : List Byte) :
    Only (some [P.HIE_RX_DISCARD, P.TBS_OVER_LIMIT_COUNT]) s (State.nhpUp s m body) := by
  unfold State.nhpUp
  repeat' (first
    | with_reducible exact Only.refl _ _
    | with_reducible assumption
    | with_reducible apply Only.cond _ ?_ ?_
    | with_reducible apply Only.step ?_ (State.nhpRelay_only ..) ?_
    | with_reducible apply Only.step ?_ (State.nhpDiscard_only ..) ?_
    | exact Eq.refl _
    | split)

theorem State.nhpDown_only (s : State) (id : ℕ) (m : List Byte) (body : List Byte) :
    Only (some [P.HIE_RX_DISCARD, P.TBS_OVER_LIMIT_COUNT]) s (State.nhpDown s id m body) := by
  unfold State.nhpDown
  repeat' (first
    | with_reducible exact Only.refl _ _
    | with_reducible assumption
    | with_reducible apply Only.step ?_ (State.nhpRelay_only ..) ?_
    | with_reducible apply Only.step ?_ (State.nhpDiscard_only ..) ?_
    | exact Eq.refl _
    | split)

theorem State.learnChild_only (s : State) (id : ℕ) (p : ℕ) :
    Only (some [F.nhp]) s (State.learnChild s id p) := by
  unfold State.learnChild
  repeat' (first
    | (extract_lets +onlyGivenNames t; refine Only.with_state (t := t) ?_ fun _ => ?_; subst t; rotate_left; clear_value t)
    | (extract_lets +onlyGivenNames t; clear_value t)
    | with_reducible exact Only.refl _ _
    | with_reducible assumption
    | with_reducible apply Only.cond _ ?_ ?_
    | with_reducible apply Only.step ?_ (State.setNhp_only ..) ?_
    | exact Eq.refl _
    | extract_lets
    | split)

theorem execHelloSend_only (port : Fin 512) (s : State) :
    OnlyO (some [F.nhp, P.TBS_OVER_LIMIT_COUNT]) s (execHelloSend port s) := by
  unfold execHelloSend
  repeat' (first
    | (extract_lets +onlyGivenNames t; refine OnlyO.with_state (t := t) ?_ fun _ => ?_; subst t; rotate_left; clear_value t)
    | (extract_lets +onlyGivenNames t; refine Only.with_state (t := t) ?_ fun _ => ?_; subst t; rotate_left; clear_value t)
    | (extract_lets +onlyGivenNames t; clear_value t)
    | with_reducible exact Only.refl _ _
    | with_reducible assumption
    | with_reducible apply OnlyO.of ?_
    | with_reducible apply OnlyO.cond _ ?_ ?_
    | with_reducible apply Only.cond _ ?_ ?_
    | with_reducible apply Only.emit ?_ _
    | with_reducible apply Only.step ?_ (State.setNhp_only ..) ?_
    | with_reducible apply Only.step ?_ (State.stamped_only ..) ?_
    | exact Eq.refl _
    | extract_lets
    | split)

theorem State.nhpSilent_only (s : State) (p : ℕ) :
    Only (some [F.nhp, P.HIE_NEIGHBOUR_ID, P.HIE_PORT_STATE, P.HIE_PORT_VERSION]) s (State.nhpSilent s p) := by
  unfold State.nhpSilent
  repeat' (first
    | (extract_lets +onlyGivenNames t; refine Only.with_state (t := t) ?_ fun _ => ?_; subst t; rotate_left; clear_value t)
    | (extract_lets +onlyGivenNames t; clear_value t)
    | with_reducible exact Only.refl _ _
    | with_reducible assumption
    | with_reducible apply Only.wr ?_ ?_ _ _
    | with_reducible apply Only.step ?_ (State.setNhp_only ..) ?_
    | exact Eq.refl _
    | extract_lets)

theorem execHelloSilence_only (port : Fin 512) (s : State) :
    OnlyO (some [F.nhp, P.HIE_NEIGHBOUR_ID, P.HIE_PORT_STATE, P.HIE_PORT_VERSION]) s (execHelloSilence port s) := by
  unfold execHelloSilence
  repeat' (first
    | with_reducible exact Only.refl _ _
    | with_reducible assumption
    | with_reducible apply OnlyO.of ?_
    | with_reducible apply OnlyO.cond _ ?_ ?_
    | with_reducible apply Only.cond _ ?_ ?_
    | with_reducible apply Only.step ?_ (State.nhpSilent_only ..) ?_
    | exact Eq.refl _
    | split)

theorem State.sendJoin_only (s : State) :
    Only (some [F.nhp, P.TBS_OVER_LIMIT_COUNT]) s (State.sendJoin s) := by
  unfold State.sendJoin
  repeat' (first
    | (extract_lets +onlyGivenNames t; refine Only.with_state (t := t) ?_ fun _ => ?_; subst t; rotate_left; clear_value t)
    | (extract_lets +onlyGivenNames t; clear_value t)
    | with_reducible exact Only.refl _ _
    | with_reducible assumption
    | with_reducible apply Only.step ?_ (State.nhpSend_only ..) ?_
    | with_reducible apply Only.step ?_ (State.setNhp_only ..) ?_
    | exact Eq.refl _
    | extract_lets
    | split)

theorem State.startJoin_only (s : State) (h : Heard) :
    Only (some [F.nhp, P.HIE_DEPTH, P.HIE_MEMBER_STATE, P.HIE_PARENT_ID, P.HIE_PARENT_PORT, P.HIE_WORKER_NUM, P.TBS_OVER_LIMIT_COUNT]) s (State.startJoin s h) := by
  unfold State.startJoin
  repeat' (first
    | (extract_lets +onlyGivenNames t; refine Only.with_state (t := t) ?_ fun _ => ?_; subst t; rotate_left; clear_value t)
    | (extract_lets +onlyGivenNames t; clear_value t)
    | with_reducible exact Only.refl _ _
    | with_reducible assumption
    | with_reducible apply Only.wr ?_ ?_ _ _
    | with_reducible apply Only.step ?_ (State.sendJoin_only ..) ?_
    | with_reducible apply Only.step ?_ (State.setNhp_only ..) ?_
    | exact Eq.refl _
    | extract_lets)

theorem State.seekParent_only (s : State) :
    Only (some [F.nhp, P.HIE_DEPTH, P.HIE_FLAGS, P.HIE_MEMBER_STATE, P.HIE_PARENT_ID, P.HIE_PARENT_PORT, P.HIE_WORKER_NUM, P.TBS_OVER_LIMIT_COUNT]) s (State.seekParent s) := by
  unfold State.seekParent
  repeat' (first
    | with_reducible exact Only.refl _ _
    | with_reducible assumption
    | with_reducible apply Only.cond _ ?_ ?_
    | with_reducible apply Only.orIn ?_ ?_ _ _
    | with_reducible apply Only.step ?_ (State.startJoin_only ..) ?_
    | exact Eq.refl _
    | split)

theorem State.unjoined_only (s : State) (q : ℕ) :
    Only (some [F.nhp, P.HIE_DEPTH, P.HIE_MEMBER_STATE, P.HIE_PARENT_ID, P.HIE_PARENT_PORT, P.HIE_WORKER_NUM]) s (State.unjoined s q) := by
  unfold State.unjoined
  repeat' (first
    | (extract_lets +onlyGivenNames t; refine Only.with_state (t := t) ?_ fun _ => ?_; subst t; rotate_left; clear_value t)
    | (extract_lets +onlyGivenNames t; clear_value t)
    | with_reducible exact Only.refl _ _
    | with_reducible assumption
    | with_reducible apply Only.wr ?_ ?_ _ _
    | with_reducible apply Only.step ?_ (State.setNhp_only ..) ?_
    | exact Eq.refl _
    | extract_lets)

theorem State.loseParent_only (s : State) :
    Only (some [F.cmd, F.nhp, F.rings, P.CMD_NOTICE_DROP, P.HIE_DEPTH, P.HIE_FLAGS, P.HIE_MEMBER_STATE, P.HIE_PARENT_ID, P.HIE_PARENT_PORT, P.HIE_WORKER_NUM, P.TBS_OVER_LIMIT_COUNT]) s (State.loseParent s) := by
  unfold State.loseParent
  repeat' (first
    | (extract_lets +onlyGivenNames t; refine Only.with_state (t := t) ?_ fun _ => ?_; subst t; rotate_left; clear_value t)
    | (extract_lets +onlyGivenNames t; clear_value t)
    | with_reducible exact Only.refl _ _
    | with_reducible assumption
    | with_reducible apply Only.orIn ?_ ?_ _ _
    | with_reducible apply Only.step ?_ (State.unjoined_only ..) ?_
    | with_reducible apply Only.step ?_ (State.seekParent_only ..) ?_
    | with_reducible apply Only.step ?_ (State.notice_only ..) ?_
    | with_reducible apply Only.step ?_ (State.setNhp_only ..) ?_
    | exact Eq.refl _
    | extract_lets)

theorem State.parentHello_only (s : State) (h : Heard) :
    Only (some [F.cmd, F.nhp, F.rings, P.CMD_NOTICE_DROP, P.HIE_DEPTH, P.HIE_FLAGS, P.HIE_MEMBER_STATE, P.HIE_PARENT_ID, P.HIE_PARENT_PORT, P.HIE_WORKER_NUM, P.TBS_OVER_LIMIT_COUNT]) s (State.parentHello s h) := by
  unfold State.parentHello
  repeat' (first
    | with_reducible exact Only.refl _ _
    | with_reducible assumption
    | with_reducible apply Only.cond _ ?_ ?_
    | with_reducible apply Only.wr ?_ ?_ _ _
    | with_reducible apply Only.step ?_ (State.loseParent_only ..) ?_
    | with_reducible apply Only.step ?_ (State.setNhp_only ..) ?_
    | exact Eq.refl _
    | split)

theorem execHello_only (port : Fin 512) (msg : List Byte) (s : State) :
    OnlyO (some [F.cmd, F.nhp, F.rings, P.CMD_NOTICE_DROP, P.HIE_DEPTH, P.HIE_FLAGS, P.HIE_MEMBER_STATE, P.HIE_NEIGHBOUR_ID, P.HIE_PARENT_ID, P.HIE_PARENT_PORT, P.HIE_PORT_STATE, P.HIE_PORT_VERSION, P.HIE_RX_DISCARD, P.HIE_WORKER_NUM, P.TBS_OVER_LIMIT_COUNT]) s (execHello port msg s) := by
  unfold execHello
  repeat' (first
    | (extract_lets +onlyGivenNames t; refine OnlyO.with_state (t := t) ?_ fun _ => ?_; subst t; rotate_left; clear_value t)
    | (extract_lets +onlyGivenNames t; refine Only.with_state (t := t) ?_ fun _ => ?_; subst t; rotate_left; clear_value t)
    | (extract_lets +onlyGivenNames t; clear_value t)
    | with_reducible exact Only.refl _ _
    | with_reducible assumption
    | with_reducible apply OnlyO.of ?_
    | with_reducible apply OnlyO.cond _ ?_ ?_
    | with_reducible apply Only.cond _ ?_ ?_
    | with_reducible apply Only.wr ?_ ?_ _ _
    | with_reducible apply Only.orIn ?_ ?_ _ _
    | with_reducible apply Only.step ?_ (State.stamped_only ..) ?_
    | with_reducible apply Only.step ?_ (State.nhpDiscard_only ..) ?_
    | with_reducible apply Only.step ?_ (State.setNhp_only ..) ?_
    | with_reducible apply Only.step ?_ (State.seekParent_only ..) ?_
    | with_reducible apply Only.step ?_ (State.parentHello_only ..) ?_
    | exact Eq.refl _
    | extract_lets
    | split)

theorem execManagerLost_only (s : State) :
    OnlyO (some [F.cmd, F.nhp, F.rings, P.CMD_NOTICE_DROP, P.HIE_DEPTH, P.HIE_FLAGS, P.HIE_MEMBER_STATE, P.HIE_PARENT_ID, P.HIE_PARENT_PORT, P.HIE_WORKER_NUM, P.TBS_OVER_LIMIT_COUNT]) s (execManagerLost s) := by
  unfold execManagerLost
  repeat' (first
    | (extract_lets +onlyGivenNames t; refine OnlyO.with_state (t := t) ?_ fun _ => ?_; subst t; rotate_left; clear_value t)
    | (extract_lets +onlyGivenNames t; refine Only.with_state (t := t) ?_ fun _ => ?_; subst t; rotate_left; clear_value t)
    | (extract_lets +onlyGivenNames t; clear_value t)
    | with_reducible exact Only.refl _ _
    | with_reducible assumption
    | with_reducible apply OnlyO.of ?_
    | with_reducible apply OnlyO.cond _ ?_ ?_
    | with_reducible apply Only.cond _ ?_ ?_
    | with_reducible apply Only.step ?_ (State.loseParent_only ..) ?_
    | exact Eq.refl _
    | extract_lets
    | split)

theorem execJoinRetry_only (s : State) :
    OnlyO (some [F.nhp, P.TBS_OVER_LIMIT_COUNT]) s (execJoinRetry s) := by
  unfold execJoinRetry
  repeat' (first
    | with_reducible exact Only.refl _ _
    | with_reducible assumption
    | with_reducible apply OnlyO.of ?_
    | with_reducible apply OnlyO.cond _ ?_ ?_
    | with_reducible apply Only.cond _ ?_ ?_
    | with_reducible apply Only.step ?_ (State.sendJoin_only ..) ?_
    | exact Eq.refl _
    | split)

theorem execJoinTimeout_only (s : State) :
    OnlyO (some [F.nhp, P.HIE_DEPTH, P.HIE_MEMBER_STATE, P.HIE_PARENT_ID, P.HIE_PARENT_PORT, P.HIE_WORKER_NUM]) s (execJoinTimeout s) := by
  unfold execJoinTimeout
  repeat' (first
    | with_reducible exact Only.refl _ _
    | with_reducible assumption
    | with_reducible apply OnlyO.of ?_
    | with_reducible apply OnlyO.cond _ ?_ ?_
    | with_reducible apply Only.cond _ ?_ ?_
    | with_reducible apply Only.step ?_ (State.unjoined_only ..) ?_
    | exact Eq.refl _
    | split)

theorem State.sendLeave_only (s : State) (cause : ℕ) :
    Only (some [P.TBS_OVER_LIMIT_COUNT]) s (State.sendLeave s cause) := by
  unfold State.sendLeave
  repeat' (first
    | with_reducible exact Only.refl _ _
    | with_reducible assumption
    | with_reducible apply Only.cond _ ?_ ?_
    | with_reducible apply Only.step ?_ (State.nhpSend_only ..) ?_
    | exact Eq.refl _
    | split)

theorem State.rejoin_only (s : State) :
    Only (some [F.nhp, P.HIE_DEPTH, P.HIE_MEMBER_STATE, P.HIE_PARENT_ID, P.HIE_PARENT_PORT, P.HIE_WORKER_NUM, P.TBS_OVER_LIMIT_COUNT]) s (State.rejoin s) := by
  unfold State.rejoin
  repeat' (first
    | with_reducible exact Only.refl _ _
    | with_reducible assumption
    | with_reducible apply Only.cond _ ?_ ?_
    | with_reducible apply Only.step ?_ (State.startJoin_only ..) ?_
    | with_reducible apply Only.step ?_ (State.sendLeave_only ..) ?_
    | exact Eq.refl _
    | split)

theorem State.regCounts_only (s : State) :
    Only (some [P.HIE_REG_CLIENTS, P.HIE_REG_MODULES]) s (State.regCounts s) := by
  unfold State.regCounts
  repeat' (first
    | (extract_lets +onlyGivenNames t; refine Only.with_state (t := t) ?_ fun _ => ?_; subst t; rotate_left; clear_value t)
    | (extract_lets +onlyGivenNames t; have q : ℕ := t; clear q; clear_value t)
    | (extract_lets +onlyGivenNames t; have q : Bool := t; clear q; clear_value t)
    | (extract_lets +onlyGivenNames t; have q : ℤ := t; clear q; clear_value t)
    | (extract_lets +onlyGivenNames t; have q : Option _ := t; clear q; clear_value t)
    | (extract_lets +onlyGivenNames t; have q : List _ := t; clear q; clear_value t)
    | (extract_lets +onlyGivenNames t; have q : _ × _ := t; clear q; clear_value t)
    | with_reducible exact Only.refl _ _
    | with_reducible assumption
    | with_reducible apply Only.cond _ ?_ ?_
    | with_reducible apply Only.wr ?_ ?_ _ _
    | exact Eq.refl _
    | extract_lets
    | split)


theorem State.sendAck_only (s : State) (p : ℕ) (target : ℕ) (number : ℕ) (result : ℕ) :
    Only (some [P.TBS_OVER_LIMIT_COUNT]) s (State.sendAck s p target number result) := by
  unfold State.sendAck
  repeat' (first
    | with_reducible exact Only.refl _ _
    | with_reducible assumption
    | with_reducible apply Only.step ?_ (State.nhpSend_only ..) ?_
    | exact Eq.refl _)

theorem State.evictClient_only (s u : State) (h : s.evictClient = some u) : Only (some [F.nhp]) s u := by
  unfold State.evictClient at h
  split at h
  · cases h; exact State.setNhp_only ..
  · cases h

theorem State.regRoom_only (s u : State) (h : s.regRoom = some u) : Only (some [F.nhp]) s u := by
  unfold State.regRoom at h
  split at h
  · cases h; exact Only.refl _ _
  · exact State.evictClient_only s u h

theorem State.takeJoin_only (s : State) (p : Nat) (b : List Byte) : Only (some [F.nhp, P.HIE_FLAGS, P.HIE_JOINS, P.HIE_REG_CLIENTS, P.HIE_REG_MODULES, P.TBS_OVER_LIMIT_COUNT]) s (State.takeJoin s p b) := by
  unfold State.takeJoin
  dsimp only
  have ack : ∀ {t : State} (x : Nat × Nat × Nat), Only (some [F.nhp, P.HIE_FLAGS, P.HIE_JOINS, P.HIE_REG_CLIENTS, P.HIE_REG_MODULES, P.TBS_OVER_LIMIT_COUNT]) s t → Only (some [F.nhp, P.HIE_FLAGS, P.HIE_JOINS, P.HIE_REG_CLIENTS, P.HIE_REG_MODULES, P.TBS_OVER_LIMIT_COUNT]) s (t.sendAck p x.1 x.2.1 x.2.2) :=
    fun _ h => h.step (State.sendAck_only ..) (by exact Eq.refl _)
  split
  · exact ack (_, _, _) (Only.count_plain (Only.step (Only.refl _ _) (State.setNhp_only ..) (by exact Eq.refl _)) (by exact Eq.refl _)
      (by decide) _ _)
  · refine Only.cond _ (ack (_, _, _) (Only.refl _ _)) ?_
    split
    · exact ack (_, _, _) (Only.orIn (Only.refl _ _) (by exact Eq.refl _) _ _)
    · split
      · exact ack (_, _, _) (Only.refl _ _)
      · rename_i u hu
        have h : Only (some [F.nhp, P.HIE_FLAGS, P.HIE_JOINS, P.HIE_REG_CLIENTS, P.HIE_REG_MODULES, P.TBS_OVER_LIMIT_COUNT]) s u := (State.regRoom_only s u hu).mono (by exact Eq.refl _)
        exact ack (_, _, _) (Only.step (Only.count_plain (h.step (State.setNhp_only ..) (by exact Eq.refl _)) (by exact Eq.refl _)
          (by decide) _ _) (State.regCounts_only ..) (by exact Eq.refl _))

theorem execJoin_only (port : Fin 512) (msg : List Byte) (s : State) :
    OnlyO (some [F.nhp, P.HIE_FLAGS, P.HIE_JOINS, P.HIE_REG_CLIENTS, P.HIE_REG_MODULES, P.HIE_RX_DISCARD, P.TBS_OVER_LIMIT_COUNT]) s (execJoin port msg s) := by
  unfold execJoin
  repeat' (first
    | (extract_lets +onlyGivenNames t; refine OnlyO.with_state (t := t) ?_ fun _ => ?_; subst t; rotate_left; clear_value t)
    | (extract_lets +onlyGivenNames t; refine Only.with_state (t := t) ?_ fun _ => ?_; subst t; rotate_left; clear_value t)
    | (extract_lets +onlyGivenNames t; clear_value t)
    | with_reducible exact Only.refl _ _
    | with_reducible assumption
    | with_reducible apply OnlyO.of ?_
    | with_reducible apply OnlyO.cond _ ?_ ?_
    | with_reducible apply Only.cond _ ?_ ?_
    | with_reducible apply Only.step ?_ (State.stamped_only ..) ?_
    | with_reducible apply Only.step ?_ (State.nhpDiscard_only ..) ?_
    | with_reducible apply Only.step ?_ (State.learnChild_only ..) ?_
    | with_reducible apply Only.step ?_ (State.takeJoin_only ..) ?_
    | with_reducible apply Only.step ?_ (State.nhpUp_only ..) ?_
    | exact Eq.refl _
    | extract_lets
    | split)

theorem execJoinAck_only (port : Fin 512) (msg : List Byte) (s : State) :
    OnlyO (some [F.nhp, P.HIE_DEPTH, P.HIE_MEMBER_STATE, P.HIE_PARENT_ID, P.HIE_PARENT_PORT, P.HIE_RX_DISCARD, P.HIE_WORKER_NUM, P.TBS_OVER_LIMIT_COUNT]) s (execJoinAck port msg s) := by
  unfold execJoinAck
  repeat' (first
    | (extract_lets +onlyGivenNames t; refine OnlyO.with_state (t := t) ?_ fun _ => ?_; subst t; rotate_left; clear_value t)
    | (extract_lets +onlyGivenNames t; refine Only.with_state (t := t) ?_ fun _ => ?_; subst t; rotate_left; clear_value t)
    | (extract_lets +onlyGivenNames t; clear_value t)
    | with_reducible exact Only.refl _ _
    | with_reducible assumption
    | with_reducible apply OnlyO.of ?_
    | with_reducible apply OnlyO.cond _ ?_ ?_
    | with_reducible apply Only.cond _ ?_ ?_
    | with_reducible apply Only.wr ?_ ?_ _ _
    | with_reducible apply Only.step ?_ (State.stamped_only ..) ?_
    | with_reducible apply Only.step ?_ (State.nhpDiscard_only ..) ?_
    | with_reducible apply Only.step ?_ (State.setNhp_only ..) ?_
    | with_reducible apply Only.step ?_ (State.unjoined_only ..) ?_
    | with_reducible apply Only.step ?_ (State.startJoin_only ..) ?_
    | with_reducible apply Only.step ?_ (State.nhpDown_only ..) ?_
    | exact Eq.refl _
    | extract_lets
    | split)

theorem State.regRemove_only (s : State) (e : RegEntry) :
    Only (some [F.nhp, P.HIE_LEAVES, P.HIE_REG_CLIENTS, P.HIE_REG_MODULES]) s (State.regRemove s e) := by
  unfold State.regRemove
  repeat' (first
    | with_reducible exact Only.refl _ _
    | with_reducible assumption
    | with_reducible apply Only.count_plain ?_ ?_ (by decide) _ _
    | with_reducible apply Only.count ?_ ?_ ?_ ?_ _ _
    | with_reducible apply Only.step ?_ (State.regCounts_only ..) ?_
    | with_reducible apply Only.step ?_ (State.setNhp_only ..) ?_
    | exact Eq.refl _)

theorem execLeave_only (port : Fin 512) (msg : List Byte) (s : State) :
    OnlyO (some [F.nhp, P.HIE_LEAVES, P.HIE_REG_CLIENTS, P.HIE_REG_MODULES, P.HIE_RX_DISCARD, P.TBS_OVER_LIMIT_COUNT]) s (execLeave port msg s) := by
  unfold execLeave
  repeat' (first
    | (extract_lets +onlyGivenNames t; refine OnlyO.with_state (t := t) ?_ fun _ => ?_; subst t; rotate_left; clear_value t)
    | (extract_lets +onlyGivenNames t; refine Only.with_state (t := t) ?_ fun _ => ?_; subst t; rotate_left; clear_value t)
    | (extract_lets +onlyGivenNames t; clear_value t)
    | with_reducible exact Only.refl _ _
    | with_reducible assumption
    | with_reducible apply OnlyO.of ?_
    | with_reducible apply OnlyO.cond _ ?_ ?_
    | with_reducible apply Only.cond _ ?_ ?_
    | with_reducible apply Only.step ?_ (State.stamped_only ..) ?_
    | with_reducible apply Only.step ?_ (State.nhpDiscard_only ..) ?_
    | with_reducible apply Only.step ?_ (State.setNhp_only ..) ?_
    | with_reducible apply Only.step ?_ (State.regRemove_only ..) ?_
    | with_reducible apply Only.step ?_ (State.nhpUp_only ..) ?_
    | exact Eq.refl _
    | extract_lets
    | split)

theorem execStatusSend_only (s : State) :
    OnlyO (some [F.nhp, P.TBS_OVER_LIMIT_COUNT]) s (execStatusSend s) := by
  unfold execStatusSend
  repeat' (first
    | (extract_lets +onlyGivenNames t; refine OnlyO.with_state (t := t) ?_ fun _ => ?_; subst t; rotate_left; clear_value t)
    | (extract_lets +onlyGivenNames t; refine OnlyO.with_pair (t := t) ?_ fun _ => ?_; subst t; rotate_left; clear_value t)
    | (extract_lets +onlyGivenNames t; refine Only.with_state (t := t) ?_ fun _ => ?_; subst t; rotate_left; clear_value t)
    | (extract_lets +onlyGivenNames t; refine Only.with_pair (t := t) ?_ fun _ => ?_; subst t; rotate_left; clear_value t)
    | (extract_lets +onlyGivenNames t; clear_value t)
    | with_reducible exact Only.refl _ _
    | with_reducible assumption
    | with_reducible apply OnlyO.of ?_
    | with_reducible apply OnlyO.cond _ ?_ ?_
    | with_reducible apply Only.fold _ _ (fun _ _ => ?_) ?_
    | with_reducible apply OnlyP.fold _ _ (fun _ _ => ?_) ?_
    | with_reducible apply OnlyP.of ?_
    | with_reducible apply OnlyP.cond _ ?_ ?_
    | with_reducible apply Only.cond _ ?_ ?_
    | with_reducible apply Only.step ?_ (State.nhpSend_only ..) ?_
    | with_reducible apply Only.step ?_ (State.setNhp_only ..) ?_
    | exact Eq.refl _
    | extract_lets
    | split)

theorem execStatus_only (port : Fin 512) (msg : List Byte) (s : State) :
    OnlyO (some [F.nhp, P.HIE_RX_DISCARD, P.TBS_OVER_LIMIT_COUNT]) s (execStatus port msg s) := by
  unfold execStatus
  repeat' (first
    | (extract_lets +onlyGivenNames t; refine OnlyO.with_state (t := t) ?_ fun _ => ?_; subst t; rotate_left; clear_value t)
    | (extract_lets +onlyGivenNames t; refine Only.with_state (t := t) ?_ fun _ => ?_; subst t; rotate_left; clear_value t)
    | (extract_lets +onlyGivenNames t; clear_value t)
    | with_reducible exact Only.refl _ _
    | with_reducible assumption
    | with_reducible apply OnlyO.of ?_
    | with_reducible apply OnlyO.cond _ ?_ ?_
    | with_reducible apply Only.cond _ ?_ ?_
    | with_reducible apply Only.step ?_ (State.stamped_only ..) ?_
    | with_reducible apply Only.step ?_ (State.nhpDiscard_only ..) ?_
    | with_reducible apply Only.step ?_ (State.setNhp_only ..) ?_
    | with_reducible apply Only.step ?_ (State.sendAck_only ..) ?_
    | with_reducible apply Only.step ?_ (State.nhpUp_only ..) ?_
    | exact Eq.refl _
    | extract_lets
    | split)

theorem State.sendReports_only (s : State) (gs : List Grant) (n : Nat) (cs : List (Nat × Nat)) :
    Only (some [P.TBS_OVER_LIMIT_COUNT]) s (State.sendReports s gs n cs) := by
  induction n generalizing s cs with
  | zero => exact Only.refl _ _
  | succ n ih =>
    cases cs with
    | nil => exact Only.refl _ _
    | cons c cs => exact Only.trans ((State.nhpSend_only ..).mono (by exact Eq.refl _)) (ih ..)

theorem State.takeClient_only (s : State) (number : ℕ) (depth : ℕ) (b : List Byte) :
    Only (some [F.nhp, P.HIE_FLAGS, P.HIE_REG_CLIENTS, P.HIE_REG_MODULES, P.HIE_REG_REFUSED]) s (State.takeClient s number depth b) := by
  unfold State.takeClient
  repeat' (first
    | (extract_lets +onlyGivenNames t; refine Only.with_state (t := t) ?_ fun _ => ?_; subst t; rotate_left; clear_value t)
    | (extract_lets +onlyGivenNames t; clear_value t)
    | with_reducible exact Only.refl _ _
    | with_reducible assumption
    | with_reducible apply Only.cond _ ?_ ?_
    | with_reducible apply Only.orIn ?_ ?_ _ _
    | with_reducible apply Only.count_plain ?_ ?_ (by decide) _ _
    | with_reducible apply Only.count ?_ ?_ ?_ ?_ _ _
    | with_reducible apply Only.step ?_ (State.setNhp_only ..) ?_
    | with_reducible apply Only.step ?_ (State.regCounts_only ..) ?_
    | exact Eq.refl _
    | extract_lets
    | split
    | with_reducible apply Only.trans ?_ ((State.regRoom_only _ _ ?_).mono ?_))

theorem State.takeClients_only (s : State) (number depth n : Nat) (b : List Byte) :
    Only (some [F.nhp, P.HIE_FLAGS, P.HIE_REG_CLIENTS, P.HIE_REG_MODULES, P.HIE_REG_REFUSED]) s (State.takeClients s number depth n b) := by
  induction n generalizing s b with
  | zero => exact Only.refl _ _
  | succ n ih => exact Only.trans ((State.takeClient_only ..).mono (by exact Eq.refl _)) (ih ..)

theorem execClientReport_only (received : Option (Fin 512 × List Byte)) (s : State) :
    OnlyO (some [F.nhp, P.HIE_FLAGS, P.HIE_REG_CLIENTS, P.HIE_REG_MODULES, P.HIE_REG_REFUSED, P.HIE_RX_DISCARD, P.TBS_OVER_LIMIT_COUNT]) s (execClientReport received s) := by
  unfold execClientReport
  repeat' (first
    | (extract_lets +onlyGivenNames t; refine OnlyO.with_state (t := t) ?_ fun _ => ?_; subst t; rotate_left; clear_value t)
    | (extract_lets +onlyGivenNames t; refine Only.with_state (t := t) ?_ fun _ => ?_; subst t; rotate_left; clear_value t)
    | (extract_lets +onlyGivenNames t; clear_value t)
    | with_reducible exact Only.refl _ _
    | with_reducible assumption
    | with_reducible apply OnlyO.of ?_
    | with_reducible apply OnlyO.cond _ ?_ ?_
    | with_reducible apply Only.cond _ ?_ ?_
    | with_reducible apply Only.step ?_ (State.sendReports_only ..) ?_
    | with_reducible apply Only.step ?_ (State.setNhp_only ..) ?_
    | with_reducible apply Only.step ?_ (State.stamped_only ..) ?_
    | with_reducible apply Only.step ?_ (State.nhpDiscard_only ..) ?_
    | with_reducible apply Only.step ?_ (State.takeClients_only ..) ?_
    | with_reducible apply Only.step ?_ (State.nhpUp_only ..) ?_
    | exact Eq.refl _
    | extract_lets
    | split)

theorem execRegistryAgeing_only (s : State) :
    OnlyO (some [F.nhp, P.HIE_LEAVES, P.HIE_REG_CLIENTS, P.HIE_REG_MODULES]) s (execRegistryAgeing s) := by
  unfold execRegistryAgeing
  repeat' (first
    | (extract_lets +onlyGivenNames t; refine OnlyO.with_state (t := t) ?_ fun _ => ?_; subst t; rotate_left; clear_value t)
    | (extract_lets +onlyGivenNames t; refine OnlyO.with_pair (t := t) ?_ fun _ => ?_; subst t; rotate_left; clear_value t)
    | (extract_lets +onlyGivenNames t; refine Only.with_state (t := t) ?_ fun _ => ?_; subst t; rotate_left; clear_value t)
    | (extract_lets +onlyGivenNames t; refine Only.with_pair (t := t) ?_ fun _ => ?_; subst t; rotate_left; clear_value t)
    | (extract_lets +onlyGivenNames t; have q : ℕ := t; clear q; clear_value t)
    | (extract_lets +onlyGivenNames t; have q : Bool := t; clear q; clear_value t)
    | (extract_lets +onlyGivenNames t; have q : ℤ := t; clear q; clear_value t)
    | (extract_lets +onlyGivenNames t; have q : Option _ := t; clear q; clear_value t)
    | (extract_lets +onlyGivenNames t; have q : List _ := t; clear q; clear_value t)
    | (extract_lets +onlyGivenNames t; have q : _ × _ := t; clear q; clear_value t)
    | with_reducible exact Only.refl _ _
    | with_reducible assumption
    | with_reducible apply OnlyO.of ?_
    | with_reducible apply Only.fold _ _ (fun _ _ => ?_) ?_
    | with_reducible apply OnlyP.fold _ _ (fun _ _ => ?_) ?_
    | with_reducible apply OnlyP.of ?_
    | with_reducible apply Only.step ?_ (State.regRemove_only ..) ?_
    | with_reducible apply Only.step ?_ (State.setNhp_only ..) ?_
    | exact Eq.refl _
    | extract_lets)

theorem hieRegistryRead_only (o : Origin) (b : List Byte) (s : State) :
    Only (some [F.cmd, F.rings, P.CMD_REFUSED_COUNT, P.TBS_OVER_LIMIT_COUNT]) s (hieRegistryRead o b s) := by
  unfold hieRegistryRead
  repeat' (first
    | (extract_lets +onlyGivenNames t; refine Only.with_state (t := t) ?_ fun _ => ?_; subst t; rotate_left; clear_value t)
    | (extract_lets +onlyGivenNames t; have q : ℕ := t; clear q; clear_value t)
    | (extract_lets +onlyGivenNames t; have q : Bool := t; clear q; clear_value t)
    | (extract_lets +onlyGivenNames t; have q : ℤ := t; clear q; clear_value t)
    | (extract_lets +onlyGivenNames t; have q : Option _ := t; clear q; clear_value t)
    | (extract_lets +onlyGivenNames t; have q : List _ := t; clear q; clear_value t)
    | (extract_lets +onlyGivenNames t; have q : _ × _ := t; clear q; clear_value t)
    | with_reducible exact Only.refl _ _
    | with_reducible assumption
    | with_reducible apply Only.cond _ ?_ ?_
    | with_reducible apply Only.step ?_ (State.finish_only ..) ?_
    | exact Eq.refl _
    | extract_lets
    | split)

theorem State.nhpStart_only (s : State) :
    Only (some [F.nhp, P.HIE_DEPTH, P.HIE_FLAGS, P.HIE_MEMBER_STATE, P.HIE_PARENT_ID, P.HIE_PARENT_PORT, P.HIE_REG_CLIENTS, P.HIE_REG_MODULES, P.HIE_WORKER_NUM, P.TBS_OVER_LIMIT_COUNT]) s (State.nhpStart s) := by
  unfold State.nhpStart
  repeat' (first
    | with_reducible exact Only.refl _ _
    | with_reducible assumption
    | with_reducible apply Only.cond _ ?_ ?_
    | with_reducible apply Only.wr ?_ ?_ _ _
    | with_reducible apply Only.step ?_ (State.regCounts_only ..) ?_
    | with_reducible apply Only.step ?_ (State.setNhp_only ..) ?_
    | with_reducible apply Only.step ?_ (State.unjoined_only ..) ?_
    | with_reducible apply Only.step ?_ (State.seekParent_only ..) ?_
    | exact Eq.refl _
    | split)

theorem State.nhpStop_only (s : State) :
    Only (some [F.nhp, P.HIE_DEPTH, P.HIE_MEMBER_STATE, P.HIE_NEIGHBOUR_ID, P.HIE_PARENT_ID, P.HIE_PARENT_PORT, P.HIE_PORT_STATE, P.HIE_PORT_VERSION, P.HIE_REG_CLIENTS, P.HIE_REG_MODULES, P.HIE_WORKER_NUM, P.TBS_OVER_LIMIT_COUNT]) s (State.nhpStop s) := by
  unfold State.nhpStop
  repeat' (first
    | (extract_lets +onlyGivenNames t; refine Only.with_state (t := t) ?_ fun _ => ?_; subst t; rotate_left; clear_value t)
    | (extract_lets +onlyGivenNames t; refine Only.with_pair (t := t) ?_ fun _ => ?_; subst t; rotate_left; clear_value t)
    | (extract_lets +onlyGivenNames t; clear_value t)
    | with_reducible exact Only.refl _ _
    | with_reducible assumption
    | with_reducible apply Only.fold _ _ (fun _ _ => ?_) ?_
    | with_reducible apply OnlyP.fold _ _ (fun _ _ => ?_) ?_
    | with_reducible apply OnlyP.of ?_
    | with_reducible apply Only.step ?_ (State.unjoined_only ..) ?_
    | with_reducible apply Only.step ?_ (State.sendLeave_only ..) ?_
    | with_reducible apply Only.step ?_ (State.regCounts_only ..) ?_
    | with_reducible apply Only.step ?_ (State.nhpSilent_only ..) ?_
    | exact Eq.refl _
    | extract_lets)

theorem State.takeSegment_only (s : State) (p : ℕ) (type : ℕ) (b : List Byte) :
    OnlyP (some [F.nhp]) s (State.takeSegment s p type b) := by
  unfold State.takeSegment
  repeat' (first
    | (extract_lets +onlyGivenNames t; refine OnlyP.with_state (t := t) ?_ fun _ => ?_; subst t; rotate_left; clear_value t)
    | (extract_lets +onlyGivenNames t; refine Only.with_state (t := t) ?_ fun _ => ?_; subst t; rotate_left; clear_value t)
    | (extract_lets +onlyGivenNames t; have q : ℕ := t; clear q; clear_value t)
    | (extract_lets +onlyGivenNames t; have q : Bool := t; clear q; clear_value t)
    | (extract_lets +onlyGivenNames t; have q : ℤ := t; clear q; clear_value t)
    | (extract_lets +onlyGivenNames t; have q : Option _ := t; clear q; clear_value t)
    | (extract_lets +onlyGivenNames t; have q : List _ := t; clear q; clear_value t)
    | (extract_lets +onlyGivenNames t; have q : _ × _ := t; clear q; clear_value t)
    | with_reducible exact Only.refl _ _
    | with_reducible assumption
    | with_reducible apply OnlyP.of ?_
    | with_reducible apply OnlyP.cond _ ?_ ?_
    | with_reducible apply Only.cond _ ?_ ?_
    | with_reducible apply Only.step ?_ (State.setNhp_only ..) ?_
    | exact Eq.refl _
    | extract_lets
    | split)

theorem execSegmentTimeout_only (s : State) :
    OnlyO (some [F.nhp]) s (execSegmentTimeout s) := by
  unfold execSegmentTimeout
  repeat' (first
    | with_reducible exact Only.refl _ _
    | with_reducible assumption
    | with_reducible apply OnlyO.of ?_
    | with_reducible apply Only.step ?_ (State.setNhp_only ..) ?_
    | exact Eq.refl _)

theorem State.tunnelSend_only (s : State) (t : Tunnel) (w : ℕ) :
    OnlyP (some [F.nhp, P.HIE_TUNNEL_TIMEOUTS, P.TBS_OVER_LIMIT_COUNT]) s (State.tunnelSend s t w) := by
  unfold State.tunnelSend
  repeat' (first
    | (extract_lets +onlyGivenNames t; refine OnlyP.with_state (t := t) ?_ fun _ => ?_; subst t; rotate_left; clear_value t)
    | (extract_lets +onlyGivenNames t; refine Only.with_state (t := t) ?_ fun _ => ?_; subst t; rotate_left; clear_value t)
    | (extract_lets +onlyGivenNames t; clear_value t)
    | with_reducible exact Only.refl _ _
    | with_reducible assumption
    | with_reducible apply OnlyP.of ?_
    | with_reducible apply Only.count_plain ?_ ?_ (by decide) _ _
    | with_reducible apply Only.count ?_ ?_ ?_ ?_ _ _
    | with_reducible apply Only.step ?_ (State.setNhp_only ..) ?_
    | with_reducible apply Only.step ?_ (State.sendSegments_only ..) ?_
    | exact Eq.refl _
    | extract_lets
    | split)

theorem State.tunnelFill_only (s : State) (t : Tunnel) (n : Nat) : OnlyP (some [F.nhp, P.HIE_TUNNEL_TIMEOUTS, P.TBS_OVER_LIMIT_COUNT]) s (State.tunnelFill s t n) := by
  induction n generalizing s t with
  | zero => exact OnlyP.of (Only.refl _ _)
  | succ n ih =>
    unfold State.tunnelFill
    split
    · exact OnlyP.of (Only.refl _ _)
    · exact OnlyP.cond _ (OnlyP.step ((State.tunnelSend_only ..).fst.mono (by exact Eq.refl _)) (ih ..) (by exact Eq.refl _)) (OnlyP.of (Only.refl _ _))

theorem State.tunnelSettle_only (s : State) (t : Tunnel) :
    Only (some [F.cmd, F.nhp, F.rings, P.CMD_REFUSED_COUNT, P.HIE_TUNNEL_TIMEOUTS, P.TBS_OVER_LIMIT_COUNT]) s (State.tunnelSettle s t) := by
  unfold State.tunnelSettle
  repeat' (first
    | (extract_lets +onlyGivenNames t; refine Only.with_state (t := t) ?_ fun _ => ?_; subst t; rotate_left; clear_value t)
    | (extract_lets +onlyGivenNames t; refine Only.with_pair (t := t) ?_ fun _ => ?_; subst t; rotate_left; clear_value t)
    | (extract_lets +onlyGivenNames t; clear_value t)
    | with_reducible exact Only.refl _ _
    | with_reducible assumption
    | with_reducible apply Only.cond _ ?_ ?_
    | with_reducible apply Only.fst ?_ (State.tunnelFill_only ..) ?_
    | with_reducible apply Only.pair (by assumption) (State.tunnelFill_only ..) ?_ ?_
    | with_reducible apply OnlyP.step ?_ (State.tunnelFill_only ..) ?_
    | with_reducible apply Only.step ?_ (State.setNhp_only ..) ?_
    | with_reducible apply Only.step ?_ (State.finish_only ..) ?_
    | exact Eq.refl _
    | extract_lets
    | split)

theorem State.tunnelOpen_only (s : State) (o : Origin) (fan : Bool) (packet : List Byte) (timeout : ℕ) (targets : List ℕ) :
    Only (some [F.cmd, F.nhp, F.rings, P.CMD_REFUSED_COUNT, P.HIE_TUNNEL_TIMEOUTS, P.TBS_OVER_LIMIT_COUNT]) s (State.tunnelOpen s o fan packet timeout targets) := by
  unfold State.tunnelOpen
  repeat' (first
    | with_reducible exact Only.refl _ _
    | with_reducible assumption
    | with_reducible apply Only.step ?_ (State.tunnelSettle_only ..) ?_
    | with_reducible apply Only.step ?_ (State.accept_only ..) ?_
    | exact Eq.refl _)

theorem hieTunnel_only (o : Origin) (b : List Byte) (s : State) :
    Only (some [F.cmd, F.nhp, F.rings, P.CMD_REFUSED_COUNT, P.HIE_TUNNEL_TIMEOUTS, P.TBS_OVER_LIMIT_COUNT]) s (hieTunnel o b s) := by
  unfold hieTunnel
  repeat' (first
    | (extract_lets +onlyGivenNames t; refine Only.with_state (t := t) ?_ fun _ => ?_; subst t; rotate_left; clear_value t)
    | (extract_lets +onlyGivenNames t; clear_value t)
    | with_reducible exact Only.refl _ _
    | with_reducible assumption
    | with_reducible apply Only.cond _ ?_ ?_
    | with_reducible apply Only.step ?_ (State.finish_only ..) ?_
    | with_reducible apply Only.step ?_ (State.tunnelOpen_only ..) ?_
    | exact Eq.refl _
    | extract_lets
    | split)

theorem hieFanout_only (o : Origin) (b : List Byte) (s : State) :
    Only (some [F.cmd, F.nhp, F.rings, P.CMD_REFUSED_COUNT, P.HIE_TUNNEL_TIMEOUTS, P.TBS_OVER_LIMIT_COUNT]) s (hieFanout o b s) := by
  unfold hieFanout
  repeat' (first
    | (extract_lets +onlyGivenNames t; refine Only.with_state (t := t) ?_ fun _ => ?_; subst t; rotate_left; clear_value t)
    | (extract_lets +onlyGivenNames t; clear_value t)
    | with_reducible exact Only.refl _ _
    | with_reducible assumption
    | with_reducible apply Only.cond _ ?_ ?_
    | with_reducible apply Only.step ?_ (State.finish_only ..) ?_
    | with_reducible apply Only.step ?_ (State.tunnelOpen_only ..) ?_
    | exact Eq.refl _
    | extract_lets
    | split)

theorem execTunnelTimeout_only (s : State) :
    OnlyO (some [F.cmd, F.nhp, F.rings, P.CMD_REFUSED_COUNT, P.HIE_TUNNEL_TIMEOUTS, P.TBS_OVER_LIMIT_COUNT]) s (execTunnelTimeout s) := by
  unfold execTunnelTimeout
  repeat' (first
    | (extract_lets +onlyGivenNames t; refine OnlyO.with_state (t := t) ?_ fun _ => ?_; subst t; rotate_left; clear_value t)
    | (extract_lets +onlyGivenNames t; refine OnlyO.with_pair (t := t) ?_ fun _ => ?_; subst t; rotate_left; clear_value t)
    | (extract_lets +onlyGivenNames t; refine Only.with_state (t := t) ?_ fun _ => ?_; subst t; rotate_left; clear_value t)
    | (extract_lets +onlyGivenNames t; refine Only.with_pair (t := t) ?_ fun _ => ?_; subst t; rotate_left; clear_value t)
    | (extract_lets +onlyGivenNames t; clear_value t)
    | with_reducible exact Only.refl _ _
    | with_reducible assumption
    | with_reducible apply OnlyO.of ?_
    | with_reducible apply OnlyO.cond _ ?_ ?_
    | with_reducible apply Only.fold _ _ (fun _ _ => ?_) ?_
    | with_reducible apply OnlyP.fold _ _ (fun _ _ => ?_) ?_
    | with_reducible apply OnlyP.of ?_
    | with_reducible apply OnlyP.cond _ ?_ ?_
    | with_reducible apply Only.cond _ ?_ ?_
    | with_reducible apply Only.count_plain ?_ ?_ (by decide) _ _
    | with_reducible apply Only.count ?_ ?_ ?_ ?_ _ _
    | with_reducible apply Only.step ?_ (State.tunnelSettle_only ..) ?_
    | exact Eq.refl _
    | extract_lets
    | split)

theorem State.tunnelsAborted_only (s : State) :
    Only (some [F.cmd, F.nhp, F.rings, P.CMD_REFUSED_COUNT, P.TBS_OVER_LIMIT_COUNT]) s (State.tunnelsAborted s) := by
  unfold State.tunnelsAborted
  repeat' (first
    | with_reducible exact Only.refl _ _
    | with_reducible assumption
    | with_reducible apply Only.fold _ _ (fun _ _ => ?_) ?_
    | with_reducible apply OnlyP.fold _ _ (fun _ _ => ?_) ?_
    | with_reducible apply OnlyP.of ?_
    | with_reducible apply Only.step ?_ (State.finish_only ..) ?_
    | with_reducible apply Only.step ?_ (State.setNhp_only ..) ?_
    | exact Eq.refl _)

theorem State.tunnelReturn_only (s : State) (t : Tunnel) (f : Flight) (pkt : List Byte) :
    Only (some [F.cmd, F.nhp, F.rings, P.CMD_REFUSED_COUNT, P.HIE_TUNNEL_TIMEOUTS, P.TBS_OVER_LIMIT_COUNT]) s (State.tunnelReturn s t f pkt) := by
  unfold State.tunnelReturn
  repeat' (first
    | (extract_lets +onlyGivenNames t; refine Only.with_state (t := t) ?_ fun _ => ?_; subst t; rotate_left; clear_value t)
    | (extract_lets +onlyGivenNames t; clear_value t)
    | with_reducible exact Only.refl _ _
    | with_reducible assumption
    | with_reducible apply Only.cond _ ?_ ?_
    | with_reducible apply Only.step ?_ (State.setNhp_only ..) ?_
    | with_reducible apply Only.step ?_ (State.replyPart_only ..) ?_
    | with_reducible apply Only.step ?_ (State.tunnelSettle_only ..) ?_
    | with_reducible apply Only.step ?_ (State.finish_only ..) ?_
    | exact Eq.refl _
    | extract_lets
    | split)

theorem execTunnelReply_only (port : Fin 512) (msg : List Byte) (s : State) :
    OnlyO (some [F.cmd, F.nhp, F.rings, P.CMD_REFUSED_COUNT, P.HIE_RX_DISCARD, P.HIE_TUNNEL_TIMEOUTS, P.TBS_OVER_LIMIT_COUNT]) s (execTunnelReply port msg s) := by
  unfold execTunnelReply
  repeat' (first
    | (extract_lets +onlyGivenNames t; refine OnlyO.with_state (t := t) ?_ fun _ => ?_; subst t; rotate_left; clear_value t)
    | (extract_lets +onlyGivenNames t; refine OnlyO.with_pair (t := t) ?_ fun _ => ?_; subst t; rotate_left; clear_value t)
    | (extract_lets +onlyGivenNames t; refine Only.with_state (t := t) ?_ fun _ => ?_; subst t; rotate_left; clear_value t)
    | (extract_lets +onlyGivenNames t; refine Only.with_pair (t := t) ?_ fun _ => ?_; subst t; rotate_left; clear_value t)
    | (extract_lets +onlyGivenNames t; clear_value t)
    | with_reducible exact Only.refl _ _
    | with_reducible assumption
    | with_reducible apply OnlyO.of ?_
    | with_reducible apply OnlyO.cond _ ?_ ?_
    | with_reducible apply Only.cond _ ?_ ?_
    | with_reducible apply Only.step ?_ (State.stamped_only ..) ?_
    | with_reducible apply Only.step ?_ (State.nhpDiscard_only ..) ?_
    | with_reducible apply Only.step ?_ (State.nhpUp_only ..) ?_
    | with_reducible apply Only.fst ?_ (State.takeSegment_only ..) ?_
    | with_reducible apply Only.pair (by assumption) (State.takeSegment_only ..) ?_ ?_
    | with_reducible apply OnlyP.step ?_ (State.takeSegment_only ..) ?_
    | with_reducible apply Only.step ?_ (State.tunnelReturn_only ..) ?_
    | exact Eq.refl _
    | extract_lets
    | split)

end Sys2Proof.Machine
end

