-- ==== Sys2Proof/Laws/OnlyQuay.lean ====
section
/-! SUPPORT. What each operation of Machine/Quay.lean can change. -/

set_option linter.unusedTactic false
set_option linter.unreachableTactic false
set_option linter.tactic.unusedName false

namespace Sys2Proof.Machine

theorem State.setQuay_only (s : State) (f : Quay → Quay) :
    Only (some [F.quay]) s (State.setQuay s f) := by
  unfold State.setQuay
  repeat' (first
    | with_reducible exact Only.refl _ _
    | with_reducible assumption
    | exact Eq.refl _
    | with_reducible apply Only.set_quay ?_ ?_ _)

theorem State.evaluate_only (s : State) (k : ℕ) :
    Only (some [F.cmd, F.rings, P.BUF_FLAGS, P.BUF_SIGNALS, P.CMD_NOTICE_DROP]) s (State.evaluate s k) := by
  unfold State.evaluate
  repeat' (first
    | (extract_lets +onlyGivenNames t; refine Only.with_state (t := t) ?_ fun _ => ?_; subst t; rotate_left; clear_value t)
    | (extract_lets +onlyGivenNames t; have q : ℕ := t; clear q; clear_value t)
    | (extract_lets +onlyGivenNames t; have q : Bool := t; clear q; clear_value t)
    | (extract_lets +onlyGivenNames t; have q : ℤ := t; clear q; clear_value t)
    | (extract_lets +onlyGivenNames t; have q : Option _ := t; clear q; clear_value t)
    | (extract_lets +onlyGivenNames t; have q : List _ := t; clear q; clear_value t)
    | (extract_lets +onlyGivenNames t; have q : _ × _ := t; clear q; clear_value t)
    | with_reducible exact Only.refl _ _
    | with_reducible assumption
    | with_reducible apply Only.cond _ ?_ ?_
    | with_reducible apply Only.wr ?_ ?_ _ _
    | with_reducible apply Only.orIn ?_ ?_ _ _
    | with_reducible apply Only.step ?_ (State.notice_only ..) ?_
    | exact Eq.refl _
    | extract_lets
    | split)

theorem State.holdUnits_only (s : State) (k : ℕ) (n : ℕ) :
    Only (some [F.cmd, F.rings, P.BUF_ALLOC, P.BUF_FLAGS, P.BUF_HELD, P.BUF_PEAK, P.BUF_SIGNALS, P.CMD_NOTICE_DROP]) s (State.holdUnits s k n) := by
  unfold State.holdUnits
  repeat' (first
    | (extract_lets +onlyGivenNames t; refine Only.with_state (t := t) ?_ fun _ => ?_; subst t; rotate_left; clear_value t)
    | (extract_lets +onlyGivenNames t; clear_value t)
    | with_reducible exact Only.refl _ _
    | with_reducible assumption
    | with_reducible apply Only.wr ?_ ?_ _ _
    | with_reducible apply Only.peak ?_ ?_ _ _
    | with_reducible apply Only.count_plain ?_ ?_ (by decide) _ _
    | with_reducible apply Only.count ?_ ?_ ?_ ?_ _ _
    | with_reducible apply Only.step ?_ (State.evaluate_only ..) ?_
    | exact Eq.refl _
    | extract_lets)

theorem State.freeUnits_only (s : State) (k : ℕ) (n : ℕ) :
    Only (some [F.cmd, F.rings, P.BUF_FLAGS, P.BUF_HELD, P.BUF_SIGNALS, P.CMD_NOTICE_DROP]) s (State.freeUnits s k n) := by
  unfold State.freeUnits
  repeat' (first
    | with_reducible exact Only.refl _ _
    | with_reducible assumption
    | with_reducible apply Only.wr ?_ ?_ _ _
    | with_reducible apply Only.step ?_ (State.evaluate_only ..) ?_
    | exact Eq.refl _)

theorem State.setFrame_only (s : State) (id : ℕ) (f : Frame → Frame) :
    Only (some [F.fabric]) s (State.setFrame s id f) := by
  unfold State.setFrame
  repeat' (first
    | with_reducible exact Only.refl _ _
    | with_reducible assumption
    | with_reducible apply Only.step ?_ (State.setFab_only ..) ?_
    | exact Eq.refl _
    | split)

theorem State.dropFrame_only (s : State) (id : ℕ) :
    Only (some [F.fabric]) s (State.dropFrame s id) := by
  unfold State.dropFrame
  repeat' (first
    | with_reducible exact Only.refl _ _
    | with_reducible assumption
    | with_reducible apply Only.step ?_ (State.setFab_only ..) ?_
    | exact Eq.refl _
    | split)

theorem State.retire_only (s : State) (id : ℕ) :
    Only (some [F.fabric]) s (State.retire s id) := by
  unfold State.retire
  repeat' (first
    | with_reducible exact Only.refl _ _
    | with_reducible assumption
    | with_reducible apply Only.cond _ ?_ ?_
    | with_reducible apply Only.step ?_ (State.setFrame_only ..) ?_
    | with_reducible apply Only.step ?_ (State.dropFrame_only ..) ?_
    | exact Eq.refl _
    | split)

theorem State.queueStop_only (s : State) (o : ℕ) (c : ℕ) :
    Only (some [F.fabric]) s (State.queueStop s o c) := by
  unfold State.queueStop
  repeat' (first
    | (extract_lets +onlyGivenNames t; refine Only.with_state (t := t) ?_ fun _ => ?_; subst t; rotate_left; clear_value t)
    | (extract_lets +onlyGivenNames t; have q : ℕ := t; clear q; clear_value t)
    | (extract_lets +onlyGivenNames t; have q : Bool := t; clear q; clear_value t)
    | (extract_lets +onlyGivenNames t; have q : ℤ := t; clear q; clear_value t)
    | (extract_lets +onlyGivenNames t; have q : Option _ := t; clear q; clear_value t)
    | (extract_lets +onlyGivenNames t; have q : List _ := t; clear q; clear_value t)
    | (extract_lets +onlyGivenNames t; have q : _ × _ := t; clear q; clear_value t)
    | with_reducible exact Only.refl _ _
    | with_reducible assumption
    | with_reducible apply Only.cond _ ?_ ?_
    | with_reducible apply Only.step ?_ (State.setFab_only ..) ?_
    | exact Eq.refl _
    | extract_lets
    | split)

theorem State.queueBytes_only (s : State) (c : Copy) (f : ℕ → ℕ) :
    Only (some [F.fabric, P.HST_RXQ_BYTES, P.PRT_EGQ_BYTES]) s (State.queueBytes s c f) := by
  unfold State.queueBytes
  repeat' (first
    | (extract_lets +onlyGivenNames t; refine Only.with_state (t := t) ?_ fun _ => ?_; subst t; rotate_left; clear_value t)
    | (extract_lets +onlyGivenNames t; clear_value t)
    | with_reducible exact Only.refl _ _
    | with_reducible assumption
    | with_reducible apply Only.wr ?_ ?_ _ _
    | with_reducible apply Only.step ?_ (State.queueStop_only ..) ?_
    | exact Eq.refl _
    | extract_lets
    | split)

theorem State.doubleFree_only (s : State) (pool : ℕ) (index : ℕ) (agent : ℕ) :
    Only (some [F.cmd, F.fault, F.rings, P.BUF_DF_AGENT, P.BUF_DF_INDEX, P.BUF_DF_POOL, P.BUF_DF_TIME, P.BUF_DOUBLE_FREE, P.BUF_FLAGS, P.CMD_NOTICE_DROP, P.HLT_FAULT_COUNT, P.HLT_STICKY]) s (State.doubleFree s pool index agent) := by
  unfold State.doubleFree
  repeat' (first
    | (extract_lets +onlyGivenNames t; refine Only.with_state (t := t) ?_ fun _ => ?_; subst t; rotate_left; clear_value t)
    | (extract_lets +onlyGivenNames t; clear_value t)
    | with_reducible exact Only.refl _ _
    | with_reducible assumption
    | with_reducible apply Only.cond _ ?_ ?_
    | with_reducible apply Only.wr ?_ ?_ _ _
    | with_reducible apply Only.orIn ?_ ?_ _ _
    | with_reducible apply Only.count_plain ?_ ?_ (by decide) _ _
    | with_reducible apply Only.count ?_ ?_ ?_ ?_ _ _
    | with_reducible apply Only.step ?_ (State.sticky_only ..) ?_
    | exact Eq.refl _
    | extract_lets
    | split)

theorem State.settleSlot_only (s : State) (c : Copy) (agent : ℕ) :
    Only (some [F.txSlots]) s (State.settleSlot s c agent) := by
  unfold State.settleSlot
  repeat' (first
    | (extract_lets +onlyGivenNames t; refine Only.with_state (t := t) ?_ fun _ => ?_; subst t; rotate_left; clear_value t)
    | (extract_lets +onlyGivenNames t; clear_value t)
    | with_reducible exact Only.refl _ _
    | with_reducible assumption
    | with_reducible apply Only.cond _ ?_ ?_
    | exact Eq.refl _
    | extract_lets
    | split
    | with_reducible apply Only.set_txSlots ?_ ?_ _)

theorem State.freeEntry_only (s : State) (c : Copy) (agent : ℕ) :
    Only (some [F.cmd, F.fabric, F.quay, F.rings, F.txSlots, P.BUF_FLAGS, P.BUF_HELD, P.BUF_SIGNALS, P.CMD_NOTICE_DROP, P.HST_RXQ_BYTES, P.PRT_EGQ_BYTES]) s (State.freeEntry s c agent) := by
  unfold State.freeEntry
  repeat' (first
    | (extract_lets +onlyGivenNames t; refine Only.with_state (t := t) ?_ fun _ => ?_; subst t; rotate_left; clear_value t)
    | (extract_lets +onlyGivenNames t; clear_value t)
    | with_reducible exact Only.refl _ _
    | with_reducible assumption
    | with_reducible apply Only.cond _ ?_ ?_
    | with_reducible apply Only.step ?_ (State.setQuay_only ..) ?_
    | with_reducible apply Only.step ?_ (State.settleSlot_only ..) ?_
    | with_reducible apply Only.step ?_ (State.queueBytes_only ..) ?_
    | with_reducible apply Only.step ?_ (State.freeUnits_only ..) ?_
    | exact Eq.refl _
    | extract_lets
    | split)

theorem State.noteQuarantine_only (s : State) (pool : ℕ) (index : ℕ) :
    Only (some [F.cmd, F.fault, F.quay, F.rings, P.BUF_FLAGS, P.BUF_QUARANTINED, P.CMD_NOTICE_DROP, P.HLT_FAULT_COUNT, P.HLT_STICKY]) s (State.noteQuarantine s pool index) := by
  unfold State.noteQuarantine
  repeat' (first
    | (extract_lets +onlyGivenNames t; refine Only.with_state (t := t) ?_ fun _ => ?_; subst t; rotate_left; clear_value t)
    | (extract_lets +onlyGivenNames t; clear_value t)
    | with_reducible exact Only.refl _ _
    | with_reducible assumption
    | with_reducible apply Only.wr ?_ ?_ _ _
    | with_reducible apply Only.orIn ?_ ?_ _ _
    | with_reducible apply Only.step ?_ (State.setQuay_only ..) ?_
    | with_reducible apply Only.step ?_ (State.sticky_only ..) ?_
    | exact Eq.refl _
    | extract_lets)

theorem State.quarantine_only (s : State) (b : Buffer) :
    Only (some [F.cmd, F.fabric, F.fault, F.hidden, F.quay, F.rings, F.txSlots, P.BUF_FLAGS, P.BUF_HELD, P.BUF_QUARANTINED, P.BUF_SIGNALS, P.CMD_NOTICE_DROP, P.HLT_FAULT_COUNT, P.HLT_STICKY, P.HST_RXQ_BYTES, P.OBS_OVF, P.PRT_EGQ_BYTES, P.PRT_LINKDOWN_DROP]) s (State.quarantine s b) := by
  unfold State.quarantine
  repeat' (first
    | (extract_lets +onlyGivenNames t; refine Only.with_state (t := t) ?_ fun _ => ?_; subst t; rotate_left; clear_value t)
    | (extract_lets +onlyGivenNames t; refine Only.with_pair (t := t) ?_ fun _ => ?_; subst t; rotate_left; clear_value t)
    | (extract_lets +onlyGivenNames t; clear_value t)
    | with_reducible exact Only.refl _ _
    | with_reducible assumption
    | with_reducible apply Only.fold _ _ (fun _ _ => ?_) ?_
    | with_reducible apply OnlyP.fold _ _ (fun _ _ => ?_) ?_
    | with_reducible apply OnlyP.of ?_
    | with_reducible apply OnlyP.cond _ ?_ ?_
    | with_reducible apply Only.cond _ ?_ ?_
    | with_reducible apply Only.count_plain ?_ ?_ (by decide) _ _
    | with_reducible apply Only.count ?_ ?_ ?_ ?_ _ _
    | with_reducible apply Only.step ?_ (State.freeUnits_only ..) ?_
    | with_reducible apply Only.step ?_ (State.setQuay_only ..) ?_
    | with_reducible apply Only.step ?_ (State.freeEntry_only ..) ?_
    | with_reducible apply Only.step ?_ (State.noteQuarantine_only ..) ?_
    | with_reducible apply Only.step ?_ (State.retire_only ..) ?_
    | exact Eq.refl _
    | extract_lets
    | split)

theorem State.releaseBuffer_only (s : State) (pool : ℕ) (index : ℕ) (agent : ℕ) :
    Only (some [F.cmd, F.fabric, F.fault, F.hidden, F.quay, F.rings, F.txSlots, P.BUF_DF_AGENT, P.BUF_DF_INDEX, P.BUF_DF_POOL, P.BUF_DF_TIME, P.BUF_DOUBLE_FREE, P.BUF_FLAGS, P.BUF_HELD, P.BUF_QUARANTINED, P.BUF_SIGNALS, P.CMD_NOTICE_DROP, P.HLT_FAULT_COUNT, P.HLT_STICKY, P.HST_RXQ_BYTES, P.OBS_OVF, P.PRT_EGQ_BYTES, P.PRT_LINKDOWN_DROP]) s (State.releaseBuffer s pool index agent) := by
  unfold State.releaseBuffer
  repeat' (first
    | with_reducible exact Only.refl _ _
    | with_reducible assumption
    | with_reducible apply Only.cond _ ?_ ?_
    | with_reducible apply Only.step ?_ (State.quarantine_only ..) ?_
    | with_reducible apply Only.step ?_ (State.setQuay_only ..) ?_
    | with_reducible apply Only.step ?_ (State.retire_only ..) ?_
    | with_reducible apply Only.step ?_ (State.freeUnits_only ..) ?_
    | with_reducible apply Only.step ?_ (State.noteQuarantine_only ..) ?_
    | with_reducible apply Only.step ?_ (State.doubleFree_only ..) ?_
    | exact Eq.refl _
    | split)

theorem State.releaseFrame_only (s : State) (id : ℕ) (agent : ℕ) :
    Only (some [F.cmd, F.fabric, F.fault, F.hidden, F.quay, F.rings, F.txSlots, P.BUF_DF_AGENT, P.BUF_DF_INDEX, P.BUF_DF_POOL, P.BUF_DF_TIME, P.BUF_DOUBLE_FREE, P.BUF_FLAGS, P.BUF_HELD, P.BUF_QUARANTINED, P.BUF_SIGNALS, P.CMD_NOTICE_DROP, P.HLT_FAULT_COUNT, P.HLT_STICKY, P.HST_RXQ_BYTES, P.OBS_OVF, P.PRT_EGQ_BYTES, P.PRT_LINKDOWN_DROP]) s (State.releaseFrame s id agent) := by
  unfold State.releaseFrame
  repeat' (first
    | with_reducible exact Only.refl _ _
    | with_reducible assumption
    | with_reducible apply Only.cond _ ?_ ?_
    | with_reducible apply Only.step ?_ (State.releaseBuffer_only ..) ?_
    | with_reducible apply Only.step ?_ (State.retire_only ..) ?_
    | exact Eq.refl _
    | split)

theorem State.releaseCopy_only (s : State) (c : Copy) (agent : ℕ) :
    Only (some [F.cmd, F.fabric, F.fault, F.hidden, F.quay, F.rings, F.txSlots, P.BUF_DF_AGENT, P.BUF_DF_INDEX, P.BUF_DF_POOL, P.BUF_DF_TIME, P.BUF_DOUBLE_FREE, P.BUF_FLAGS, P.BUF_HELD, P.BUF_QUARANTINED, P.BUF_SIGNALS, P.CMD_NOTICE_DROP, P.HLT_FAULT_COUNT, P.HLT_STICKY, P.HST_RXQ_BYTES, P.OBS_OVF, P.PRT_EGQ_BYTES, P.PRT_LINKDOWN_DROP]) s (State.releaseCopy s c agent) := by
  unfold State.releaseCopy
  repeat' (first
    | (extract_lets +onlyGivenNames t; refine Only.with_state (t := t) ?_ fun _ => ?_; subst t; rotate_left; clear_value t)
    | (extract_lets +onlyGivenNames t; clear_value t)
    | with_reducible exact Only.refl _ _
    | with_reducible assumption
    | with_reducible apply Only.cond _ ?_ ?_
    | with_reducible apply Only.step ?_ (State.freeEntry_only ..) ?_
    | with_reducible apply Only.step ?_ (State.releaseBuffer_only ..) ?_
    | with_reducible apply Only.step ?_ (State.releaseFrame_only ..) ?_
    | exact Eq.refl _
    | extract_lets
    | split)

theorem State.damageEntry_only (s : State) (pick : Copy → Bool) (pool : ℕ) (index : ℕ) :
    Only (some [F.quay]) s (State.damageEntry s pick pool index) := by
  unfold State.damageEntry
  repeat' (first
    | with_reducible exact Only.refl _ _
    | with_reducible assumption
    | with_reducible apply Only.step ?_ (State.setQuay_only ..) ?_
    | exact Eq.refl _
    | split)

theorem State.spoil_only (s : State) (pool : ℕ) (index : ℕ) :
    Only (some [F.quay]) s (State.spoil s pool index) := by
  unfold State.spoil
  repeat' (first
    | with_reducible exact Only.refl _ _
    | with_reducible assumption
    | with_reducible apply Only.cond _ ?_ ?_
    | with_reducible apply Only.step ?_ (State.setQuay_only ..) ?_
    | exact Eq.refl _
    | split)

theorem State.upset_only (s : State) (a1 : QuayUpset) :
    Only (some [F.quay]) s (State.upset s a1) := by
  unfold State.upset
  repeat' (first
    | with_reducible exact Only.refl _ _
    | with_reducible assumption
    | with_reducible apply Only.cond _ ?_ ?_
    | with_reducible apply Only.step ?_ (State.spoil_only ..) ?_
    | with_reducible apply Only.step ?_ (State.damageEntry_only ..) ?_
    | exact Eq.refl _
    | split)

theorem State.copiesFor_only (s : State) (f : Frame) :
    OnlyP (some [P.HST_FLAGS, P.HST_RXQ_BYPASS]) s (State.copiesFor s f) := by
  unfold State.copiesFor
  repeat' (first
    | (extract_lets +onlyGivenNames t; refine OnlyP.with_state (t := t) ?_ fun _ => ?_; subst t; rotate_left; clear_value t)
    | (extract_lets +onlyGivenNames t; refine Only.with_state (t := t) ?_ fun _ => ?_; subst t; rotate_left; clear_value t)
    | (extract_lets +onlyGivenNames t; clear_value t)
    | with_reducible exact Only.refl _ _
    | with_reducible assumption
    | with_reducible apply OnlyP.of ?_
    | with_reducible apply OnlyP.cond _ ?_ ?_
    | with_reducible apply Only.cond _ ?_ ?_
    | with_reducible apply Only.orIn ?_ ?_ _ _
    | with_reducible apply Only.count_plain ?_ ?_ (by decide) _ _
    | with_reducible apply Only.count ?_ ?_ ?_ ?_ _ _
    | exact Eq.refl _
    | extract_lets
    | split)

theorem State.clearBad_only (s : State) (k n : Nat) : Only (some [F.cmd, F.fault, F.quay, F.rings, P.BUF_FLAGS, P.BUF_QUARANTINED, P.CMD_NOTICE_DROP, P.HLT_FAULT_COUNT, P.HLT_STICKY]) s (State.clearBad s k n) := by
  induction n generalizing s with
  | zero => exact Only.refl _ _
  | succ n ih =>
    unfold State.clearBad
    split
    · rename_i i _
      have h : Only (some [F.cmd, F.fault, F.quay, F.rings, P.BUF_FLAGS, P.BUF_QUARANTINED, P.CMD_NOTICE_DROP, P.HLT_FAULT_COUNT, P.HLT_STICKY]) s ((s.setQuay fun x => x.take k i).noteQuarantine k i) :=
        Only.step ((State.setQuay_only ..).mono (by exact Eq.refl _)) (State.noteQuarantine_only ..) (by exact Eq.refl _)
      exact Only.cond _ (h.trans (ih ..)) (Only.refl _ _)
    · exact Only.refl _ _

theorem State.clearPools_only (s : State) (l : List Nat) : Only (some [F.cmd, F.fault, F.quay, F.rings, P.BUF_FLAGS, P.BUF_QUARANTINED, P.CMD_NOTICE_DROP, P.HLT_FAULT_COUNT, P.HLT_STICKY]) s (State.clearPools s l) := by
  induction l generalizing s with
  | nil => exact Only.refl _ _
  | cons k l ih =>
    have h : Only (some [F.cmd, F.fault, F.quay, F.rings, P.BUF_FLAGS, P.BUF_QUARANTINED, P.CMD_NOTICE_DROP, P.HLT_FAULT_COUNT, P.HLT_STICKY]) s (s.clearBad k s.quay.damaged.length) := (State.clearBad_only ..).mono (by exact Eq.refl _)
    unfold State.clearPools
    exact Only.cond _ h (h.trans (ih ..))

theorem State.clearFor_only (s : State) (f : Frame) :
    Only (some [F.cmd, F.fault, F.quay, F.rings, P.BUF_FLAGS, P.BUF_QUARANTINED, P.CMD_NOTICE_DROP, P.HLT_FAULT_COUNT, P.HLT_STICKY]) s (State.clearFor s f) := by
  unfold State.clearFor
  repeat' (first
    | with_reducible exact Only.refl _ _
    | with_reducible assumption
    | with_reducible apply Only.step ?_ (State.clearPools_only ..) ?_
    | exact Eq.refl _)

theorem State.linkCopy_only (s : State) (f : Frame) (m : Member) :
    Only (some [F.cmd, F.fabric, F.fault, F.hidden, F.quay, F.rings, F.txSlots, P.BUF_DF_AGENT, P.BUF_DF_INDEX, P.BUF_DF_POOL, P.BUF_DF_TIME, P.BUF_DOUBLE_FREE, P.BUF_FLAGS, P.BUF_HELD, P.BUF_QUARANTINED, P.BUF_SIGNALS, P.CMD_NOTICE_DROP, P.HLT_FAULT_COUNT, P.HLT_STICKY, P.HST_RXQ_BYTES, P.OBS_OVF, P.PRT_EGQ_BYTES, P.PRT_LINKDOWN_DROP]) s (State.linkCopy s f m) := by
  unfold State.linkCopy
  repeat' (first
    | (extract_lets +onlyGivenNames t; refine Only.with_state (t := t) ?_ fun _ => ?_; subst t; rotate_left; clear_value t)
    | (extract_lets +onlyGivenNames t; clear_value t)
    | with_reducible exact Only.refl _ _
    | with_reducible assumption
    | with_reducible apply Only.cond _ ?_ ?_
    | with_reducible apply Only.count_plain ?_ ?_ (by decide) _ _
    | with_reducible apply Only.count ?_ ?_ ?_ ?_ _ _
    | with_reducible apply Only.step ?_ (State.queueBytes_only ..) ?_
    | with_reducible apply Only.step ?_ (State.setQuay_only ..) ?_
    | with_reducible apply Only.step ?_ (State.releaseCopy_only ..) ?_
    | exact Eq.refl _
    | extract_lets
    | split)

theorem State.growCopies_only (s : State) (f : Frame) (n : ℕ) :
    Only (some [F.fabric, F.quay, P.HST_RXQ_BYTES, P.PRT_EGQ_BYTES]) s (State.growCopies s f n) := by
  unfold State.growCopies
  repeat' (first
    | with_reducible exact Only.refl _ _
    | with_reducible assumption
    | with_reducible apply Only.fold _ _ (fun _ _ => ?_) ?_
    | with_reducible apply OnlyP.fold _ _ (fun _ _ => ?_) ?_
    | with_reducible apply OnlyP.of ?_
    | with_reducible apply OnlyP.cond _ ?_ ?_
    | with_reducible apply Only.cond _ ?_ ?_
    | with_reducible apply Only.step ?_ (State.setQuay_only ..) ?_
    | with_reducible apply Only.step ?_ (State.queueBytes_only ..) ?_
    | exact Eq.refl _
    | split)

theorem State.allocate_only (s : State) (f : Frame) (got : ℕ) :
    Only (some ([F.cmd, F.fabric, F.fault, F.hidden, F.pad, F.quay, F.rings, F.txSlots, F.windowAt, P.BUF_ALLOC, P.BUF_DF_AGENT, P.BUF_DF_INDEX, P.BUF_DF_POOL, P.BUF_DF_TIME, P.BUF_DOUBLE_FREE, P.BUF_FLAGS, P.BUF_HELD, P.BUF_PEAK, P.BUF_QUARANTINED, P.BUF_SIGNALS, P.BUF_SPILL, P.CMD_NOTICE_DROP, P.HLT_FAULT_COUNT, P.HLT_STICKY] ++
      [P.HST_FLAGS, P.HST_RXQ_BYPASS, P.HST_RXQ_BYTES, P.LCK_NO_MEMBER, P.OBS_OVF, P.OBS_TRACE_DROP, P.OBS_TRACE_HEAD, P.OBS_TRACE_OLDEST, P.PRT_EGQ_BYTES, P.PRT_LINKDOWN_DROP])) s (State.allocate s f got) := by
  unfold State.allocate
  repeat' (first
    | (extract_lets +onlyGivenNames t; refine Only.with_state (t := t) ?_ fun _ => ?_; subst t; rotate_left; clear_value t)
    | (extract_lets +onlyGivenNames t; refine Only.with_pair (t := t) ?_ fun _ => ?_; subst t; rotate_left; clear_value t)
    | (extract_lets +onlyGivenNames t; clear_value t)
    | with_reducible exact Only.refl _ _
    | with_reducible assumption
    | with_reducible apply Only.fold _ _ (fun _ _ => ?_) ?_
    | with_reducible apply OnlyP.fold _ _ (fun _ _ => ?_) ?_
    | with_reducible apply OnlyP.of ?_
    | with_reducible apply OnlyP.cond _ ?_ ?_
    | with_reducible apply Only.cond _ ?_ ?_
    | with_reducible apply Only.count_plain ?_ ?_ (by decide) _ _
    | with_reducible apply Only.count ?_ ?_ ?_ ?_ _ _
    | with_reducible apply Only.fst ?_ (State.copiesFor_only ..) ?_
    | with_reducible apply Only.pair (by assumption) (State.copiesFor_only ..) ?_ ?_
    | with_reducible apply OnlyP.step ?_ (State.copiesFor_only ..) ?_
    | with_reducible apply Only.step ?_ (State.retire_only ..) ?_
    | with_reducible apply Only.step ?_ (State.clearFor_only ..) ?_
    | with_reducible apply Only.step ?_ (State.setQuay_only ..) ?_
    | with_reducible apply Only.step ?_ (State.holdUnits_only ..) ?_
    | with_reducible apply Only.step ?_ (State.traceEvent_only ..) ?_
    | with_reducible apply Only.step ?_ (State.linkCopy_only ..) ?_
    | exact Eq.refl _
    | extract_lets
    | split)

theorem State.flushCopies_only {W : Option (List Nat)} (s : State) (pick : Copy → Bool) (agent : Nat) (note : State → Copy → State)
    (h : ∀ t c, Only W t (note t c)) (hw : within (some [F.cmd, F.fabric, F.fault, F.hidden, F.quay, F.rings, F.txSlots, P.BUF_DF_AGENT, P.BUF_DF_INDEX, P.BUF_DF_POOL, P.BUF_DF_TIME, P.BUF_DOUBLE_FREE, P.BUF_FLAGS, P.BUF_HELD, P.BUF_QUARANTINED, P.BUF_SIGNALS, P.CMD_NOTICE_DROP, P.HLT_FAULT_COUNT, P.HLT_STICKY, P.HST_RXQ_BYTES, P.OBS_OVF, P.PRT_EGQ_BYTES, P.PRT_LINKDOWN_DROP]) W = true) : Only W s (State.flushCopies s pick agent note) := by
  unfold State.flushCopies
  exact Only.fold _ _ (fun t c => (h t c).step (State.releaseCopy_only ..) hw) (Only.refl _ _)

theorem State.flushRxQueue_only (s : State) (q : ℕ) :
    Only (some [F.cmd, F.fabric, F.fault, F.hidden, F.quay, F.rings, F.txSlots, P.BUF_DF_AGENT, P.BUF_DF_INDEX, P.BUF_DF_POOL, P.BUF_DF_TIME, P.BUF_DOUBLE_FREE, P.BUF_FLAGS, P.BUF_HELD, P.BUF_QUARANTINED, P.BUF_SIGNALS, P.CMD_NOTICE_DROP, P.HLT_FAULT_COUNT, P.HLT_STICKY, P.HST_RXQ_BYTES, P.HST_RXQ_FLUSHED, P.OBS_OVF, P.PRT_EGQ_BYTES, P.PRT_LINKDOWN_DROP]) s (State.flushRxQueue s q) := by
  unfold State.flushRxQueue
  repeat' (first
    | with_reducible exact Only.refl _ _
    | with_reducible assumption
    | with_reducible apply Only.count_plain ?_ ?_ (by decide) _ _
    | with_reducible apply Only.count ?_ ?_ ?_ ?_ _ _
    | with_reducible apply Only.trans ?_ (State.flushCopies_only _ _ _ _ ?_ ?_)
    | (intro u c; show Only _ u _)
    | exact Eq.refl _
    | split)

theorem State.quayLost_only (s : State) :
    Only (some [F.cmd, F.fabric, F.hidden, F.quay, F.rings, F.txSlots, P.BUF_FLAGS, P.BUF_HELD, P.BUF_SIGNALS, P.CMD_NOTICE_DROP, P.HST_RXQ_BYTES, P.OBS_OVF, P.PRT_EGQ_BYTES, P.PRT_LINKDOWN_DROP]) s (State.quayLost s) := by
  unfold State.quayLost
  repeat' (first
    | (extract_lets +onlyGivenNames t; refine Only.with_state (t := t) ?_ fun _ => ?_; subst t; rotate_left; clear_value t)
    | (extract_lets +onlyGivenNames t; refine Only.with_pair (t := t) ?_ fun _ => ?_; subst t; rotate_left; clear_value t)
    | (extract_lets +onlyGivenNames t; clear_value t)
    | with_reducible exact Only.refl _ _
    | with_reducible assumption
    | with_reducible apply Only.fold _ _ (fun _ _ => ?_) ?_
    | with_reducible apply OnlyP.fold _ _ (fun _ _ => ?_) ?_
    | with_reducible apply OnlyP.of ?_
    | with_reducible apply OnlyP.cond _ ?_ ?_
    | with_reducible apply Only.cond _ ?_ ?_
    | with_reducible apply Only.wr ?_ ?_ _ _
    | with_reducible apply Only.count_plain ?_ ?_ (by decide) _ _
    | with_reducible apply Only.count ?_ ?_ ?_ ?_ _ _
    | with_reducible apply Only.step ?_ (State.queueBytes_only ..) ?_
    | with_reducible apply Only.step ?_ (State.settleSlot_only ..) ?_
    | with_reducible apply Only.step ?_ (State.setFab_only ..) ?_
    | with_reducible apply Only.step ?_ (State.setQuay_only ..) ?_
    | with_reducible apply Only.step ?_ (State.evaluate_only ..) ?_
    | exact Eq.refl _
    | extract_lets
    | split)

theorem State.quayUp_only (s : State) :
    Only (some [F.quay, P.BUF_QUARANTINED]) s (State.quayUp s) := by
  unfold State.quayUp
  repeat' (first
    | with_reducible exact Only.refl _ _
    | with_reducible assumption
    | with_reducible apply Only.wr ?_ ?_ _ _
    | with_reducible apply Only.step ?_ (State.setQuay_only ..) ?_
    | exact Eq.refl _)

end Sys2Proof.Machine
end

