-- ==== Sys2Proof/Laws/OnlySluice.lean ====
section
/-! SUPPORT. What each operation of Machine/Sluice.lean can change. -/

set_option linter.unusedTactic false
set_option linter.unreachableTactic false
set_option linter.tactic.unusedName false

namespace Sys2Proof.Machine

theorem State.slowOne_only (s : State) (k : ℕ × ℕ) :
    Only (some [F.fabric]) s (State.slowOne s k) := by
  unfold State.slowOne
  repeat' (first
    | (extract_lets +onlyGivenNames t; refine Only.with_state (t := t) ?_ fun _ => ?_; subst t; rotate_left; clear_value t)
    | (extract_lets +onlyGivenNames t; clear_value t)
    | with_reducible exact Only.refl _ _
    | with_reducible assumption
    | with_reducible apply Only.cond _ ?_ ?_
    | with_reducible apply Only.step ?_ (State.setFab_only ..) ?_
    | exact Eq.refl _
    | extract_lets
    | split)

theorem State.stopOne_only (s : State) (j : ℕ) :
    Only (some [F.fabric]) s (State.stopOne s j) := by
  unfold State.stopOne
  repeat' (first
    | (extract_lets +onlyGivenNames t; refine Only.with_state (t := t) ?_ fun _ => ?_; subst t; rotate_left; clear_value t)
    | (extract_lets +onlyGivenNames t; clear_value t)
    | with_reducible exact Only.refl _ _
    | with_reducible assumption
    | with_reducible apply Only.cond _ ?_ ?_
    | with_reducible apply Only.step ?_ (State.setFab_only ..) ?_
    | exact Eq.refl _
    | extract_lets
    | split)

theorem State.fifoOne_only (s : State) (i : ℕ) :
    Only (some [F.fabric]) s (State.fifoOne s i) := by
  unfold State.fifoOne
  repeat' (first
    | (extract_lets +onlyGivenNames t; refine Only.with_state (t := t) ?_ fun _ => ?_; subst t; rotate_left; clear_value t)
    | (extract_lets +onlyGivenNames t; clear_value t)
    | with_reducible exact Only.refl _ _
    | with_reducible assumption
    | with_reducible apply Only.cond _ ?_ ?_
    | with_reducible apply Only.step ?_ (State.setFab_only ..) ?_
    | exact Eq.refl _
    | extract_lets
    | split)

theorem State.flowNow_only (s : State) (p : ℕ) (c : ℕ) (on : Bool) :
    Only (some [F.fabric, P.PRT_PFC_TX_XOFF, P.TBS_OVER_LIMIT_COUNT]) s (State.flowNow s p c on) := by
  unfold State.flowNow
  repeat' (first
    | (extract_lets +onlyGivenNames t; refine Only.with_state (t := t) ?_ fun _ => ?_; subst t; rotate_left; clear_value t)
    | (extract_lets +onlyGivenNames t; clear_value t)
    | with_reducible exact Only.refl _ _
    | with_reducible assumption
    | with_reducible apply Only.cond _ ?_ ?_
    | with_reducible apply Only.emit ?_ _
    | with_reducible apply Only.count_plain ?_ ?_ (by decide) _ _
    | with_reducible apply Only.count ?_ ?_ ?_ ?_ _ _
    | with_reducible apply Only.step ?_ (State.stamped_only ..) ?_
    | with_reducible apply Only.step ?_ (State.setFab_only ..) ?_
    | exact Eq.refl _
    | extract_lets
    | split)

theorem State.sendFlow_only (s : State) (p : ℕ) (c : ℕ) (on : Bool) :
    Only (some [F.fabric, P.PRT_PFC_TX_XOFF, P.TBS_OVER_LIMIT_COUNT]) s (State.sendFlow s p c on) := by
  unfold State.sendFlow
  repeat' (first
    | with_reducible exact Only.refl _ _
    | with_reducible assumption
    | with_reducible apply Only.cond _ ?_ ?_
    | with_reducible apply Only.step ?_ (State.setFab_only ..) ?_
    | with_reducible apply Only.step ?_ (State.flowNow_only ..) ?_
    | exact Eq.refl _
    | split)

theorem State.payFlow_only (s : State) (p : ℕ) :
    Only (some [F.fabric, P.PRT_PFC_TX_XOFF, P.TBS_OVER_LIMIT_COUNT]) s (State.payFlow s p) := by
  unfold State.payFlow
  repeat' (first
    | with_reducible exact Only.refl _ _
    | with_reducible assumption
    | with_reducible apply Only.fold _ _ (fun _ _ => ?_) ?_
    | with_reducible apply OnlyP.fold _ _ (fun _ _ => ?_) ?_
    | with_reducible apply OnlyP.of ?_
    | with_reducible apply Only.step ?_ (State.flowNow_only ..) ?_
    | with_reducible apply Only.step ?_ (State.setFab_only ..) ?_
    | exact Eq.refl _
    | split)

theorem State.setGap_only (s : State) (p : ℕ) (lock : Bool) :
    Only (some [F.quay]) s (State.setGap s p lock) := by
  unfold State.setGap
  repeat' (first
    | with_reducible exact Only.refl _ _
    | with_reducible assumption
    | with_reducible apply Only.step ?_ (State.setQuay_only ..) ?_
    | exact Eq.refl _)

theorem State.updateOff_only (s : State) :
    Only (some [F.fabric, P.PRT_PFC_TX_XOFF, P.TBS_OVER_LIMIT_COUNT]) s (State.updateOff s) := by
  unfold State.updateOff
  repeat' (first
    | (extract_lets +onlyGivenNames t; refine Only.with_state (t := t) ?_ fun _ => ?_; subst t; rotate_left; clear_value t)
    | (extract_lets +onlyGivenNames t; refine Only.with_pair (t := t) ?_ fun _ => ?_; subst t; rotate_left; clear_value t)
    | (extract_lets +onlyGivenNames t; clear_value t)
    | with_reducible exact Only.refl _ _
    | with_reducible assumption
    | with_reducible apply Only.fold _ _ (fun _ _ => ?_) ?_
    | with_reducible apply OnlyP.fold _ _ (fun _ _ => ?_) ?_
    | with_reducible apply OnlyP.of ?_
    | with_reducible apply Only.step ?_ (State.setFab_only ..) ?_
    | with_reducible apply Only.step ?_ (State.sendFlow_only ..) ?_
    | exact Eq.refl _
    | extract_lets
    | split)

theorem State.evaluateSluice_only (s : State) :
    Only (some [F.fabric, P.PRT_PFC_TX_XOFF, P.TBS_OVER_LIMIT_COUNT]) s (State.evaluateSluice s) := by
  unfold State.evaluateSluice
  repeat' (first
    | (extract_lets +onlyGivenNames t; refine Only.with_state (t := t) ?_ fun _ => ?_; subst t; rotate_left; clear_value t)
    | (extract_lets +onlyGivenNames t; refine Only.with_pair (t := t) ?_ fun _ => ?_; subst t; rotate_left; clear_value t)
    | (extract_lets +onlyGivenNames t; clear_value t)
    | with_reducible exact Only.refl _ _
    | with_reducible assumption
    | with_reducible apply Only.fold _ _ (fun _ _ => ?_) ?_
    | with_reducible apply OnlyP.fold _ _ (fun _ _ => ?_) ?_
    | with_reducible apply OnlyP.of ?_
    | with_reducible apply Only.step ?_ (State.updateOff_only ..) ?_
    | with_reducible apply Only.step ?_ (State.fifoOne_only ..) ?_
    | with_reducible apply Only.step ?_ (State.stopOne_only ..) ?_
    | with_reducible apply Only.step ?_ (State.slowOne_only ..) ?_
    | exact Eq.refl _
    | extract_lets)

theorem execPfcRepeat_only (port : Fin 512) (cls : Fin 9) (s : State) :
    OnlyO (some [F.fabric, P.PRT_PFC_TX_XOFF, P.TBS_OVER_LIMIT_COUNT]) s (execPfcRepeat port cls s) := by
  unfold execPfcRepeat
  repeat' (first
    | (extract_lets +onlyGivenNames t; refine OnlyO.with_state (t := t) ?_ fun _ => ?_; subst t; rotate_left; clear_value t)
    | (extract_lets +onlyGivenNames t; refine Only.with_state (t := t) ?_ fun _ => ?_; subst t; rotate_left; clear_value t)
    | (extract_lets +onlyGivenNames t; clear_value t)
    | with_reducible exact Only.refl _ _
    | with_reducible assumption
    | with_reducible apply OnlyO.of ?_
    | with_reducible apply OnlyO.cond _ ?_ ?_
    | with_reducible apply Only.cond _ ?_ ?_
    | with_reducible apply Only.step ?_ (State.sendFlow_only ..) ?_
    | exact Eq.refl _
    | extract_lets
    | split)

theorem State.headroomTest_only (s : State) (sum : ℕ) :
    Only (some [F.cmd, F.fault, F.rings, P.CMD_NOTICE_DROP, P.HLT_FAULT_COUNT, P.HLT_STICKY, P.PRT_FLAGS, P.PRT_HEADROOM_POOL, P.PRT_HEADROOM_SUM]) s (State.headroomTest s sum) := by
  unfold State.headroomTest
  repeat' (first
    | (extract_lets +onlyGivenNames t; refine Only.with_state (t := t) ?_ fun _ => ?_; subst t; rotate_left; clear_value t)
    | (extract_lets +onlyGivenNames t; clear_value t)
    | with_reducible exact Only.refl _ _
    | with_reducible assumption
    | with_reducible apply Only.cond _ ?_ ?_
    | with_reducible apply Only.wr ?_ ?_ _ _
    | with_reducible apply Only.orIn ?_ ?_ _ _
    | with_reducible apply Only.step ?_ (State.sticky_only ..) ?_
    | exact Eq.refl _
    | extract_lets
    | split)

theorem State.refreshHeadroom_only (s : State) (ps : List ℕ) :
    Only (some [F.cmd, F.fault, F.rings, P.CMD_NOTICE_DROP, P.HLT_FAULT_COUNT, P.HLT_STICKY, P.PRT_FLAGS, P.PRT_HEADROOM, P.PRT_HEADROOM_POOL, P.PRT_HEADROOM_SUM]) s (State.refreshHeadroom s ps) := by
  unfold State.refreshHeadroom
  repeat' (first
    | (extract_lets +onlyGivenNames t; refine Only.with_state (t := t) ?_ fun _ => ?_; subst t; rotate_left; clear_value t)
    | (extract_lets +onlyGivenNames t; refine Only.with_pair (t := t) ?_ fun _ => ?_; subst t; rotate_left; clear_value t)
    | (extract_lets +onlyGivenNames t; clear_value t)
    | with_reducible exact Only.refl _ _
    | with_reducible assumption
    | with_reducible apply Only.fold _ _ (fun _ _ => ?_) ?_
    | with_reducible apply OnlyP.fold _ _ (fun _ _ => ?_) ?_
    | with_reducible apply OnlyP.of ?_
    | with_reducible apply Only.wr ?_ ?_ _ _
    | with_reducible apply Only.step ?_ (State.headroomTest_only ..) ?_
    | exact Eq.refl _
    | extract_lets)

end Sys2Proof.Machine
end

