-- ==== Sys2Proof/Laws/OnlyFabric.lean ====
section
/-! SUPPORT. What each operation of Machine/Fabric.lean can change. -/

set_option linter.unusedTactic false
set_option linter.unreachableTactic false
set_option linter.tactic.unusedName false

namespace Sys2Proof.Machine

theorem State.fixLen_only (s : State) (f : Frame) (first : Bool) :
    Only (some [F.fabric]) s (State.fixLen s f first) := by
  unfold State.fixLen
  repeat' (first
    | with_reducible exact Only.refl _ _
    | with_reducible assumption
    | with_reducible apply Only.cond _ ?_ ?_
    | with_reducible apply Only.step ?_ (State.setFrame_only ..) ?_
    | exact Eq.refl _
    | split)

/-- The category's own counter is named by the caller. -/
theorem State.slot_only {W : Option (List Nat)} (s : State) (b unit cat n : Nat) (hb : allows W b = true)
    (ho : allows W P.OBS_OVF = true) (hh : allows W F.hidden = true) : Only W s (State.slot s b unit cat n) := by
  unfold State.slot
  exact Only.cond _ (Only.refl _ _) (Only.count (Only.refl _ _) hb ho hh _ _)

theorem State.basinOcc_only (s : State) (j : ℕ) :
    Only (some [P.FAB_BASIN_OCC, P.FAB_BASIN_PEAK]) s (State.basinOcc s j) := by
  unfold State.basinOcc
  repeat' (first
    | (extract_lets +onlyGivenNames t; refine Only.with_state (t := t) ?_ fun _ => ?_; subst t; rotate_left; clear_value t)
    | (extract_lets +onlyGivenNames t; clear_value t)
    | with_reducible exact Only.refl _ _
    | with_reducible assumption
    | with_reducible apply Only.wr ?_ ?_ _ _
    | with_reducible apply Only.peak ?_ ?_ _ _
    | exact Eq.refl _
    | extract_lets)

theorem State.stage1_only (s : State) (step : ℕ) (i : ℕ) :
    Only (some [F.fabric, F.hidden, F.pad, F.windowAt, P.FAB_BASIN_OCC, P.FAB_BASIN_PEAK, P.FAB_SLOT_S1, P.OBS_OVF, P.OBS_TRACE_DROP, P.OBS_TRACE_HEAD, P.OBS_TRACE_OLDEST]) s (State.stage1 s step i) := by
  unfold State.stage1
  repeat' (first
    | (extract_lets +onlyGivenNames t; refine Only.with_state (t := t) ?_ fun _ => ?_; subst t; rotate_left; clear_value t)
    | (extract_lets +onlyGivenNames t; have q : ℕ := t; clear q; clear_value t)
    | (extract_lets +onlyGivenNames t; have q : Bool := t; clear q; clear_value t)
    | (extract_lets +onlyGivenNames t; have q : ℤ := t; clear q; clear_value t)
    | (extract_lets +onlyGivenNames t; have q : Option _ := t; clear q; clear_value t)
    | (extract_lets +onlyGivenNames t; have q : List _ := t; clear q; clear_value t)
    | (extract_lets +onlyGivenNames t; have q : _ × _ := t; clear q; clear_value t)
    | (extract_lets +onlyGivenNames t; have q : _ → _ := t; clear q)
    | with_reducible exact Only.refl _ _
    | with_reducible assumption
    | with_reducible apply Only.cond _ ?_ ?_
    | with_reducible apply Only.trans ?_ (State.slot_only _ _ _ _ _ ?_ ?_ ?_)
    | with_reducible apply Only.step ?_ (State.fixLen_only ..) ?_
    | with_reducible apply Only.step ?_ (State.setFab_only ..) ?_
    | with_reducible apply Only.step ?_ (State.traceEvent_only ..) ?_
    | with_reducible apply Only.step ?_ (State.basinOcc_only ..) ?_
    | exact Eq.refl _
    | extract_lets
    | split)

theorem State.reseqOcc_only (s : State) (o : ℕ) :
    Only (some [F.fabric, P.FAB_RESEQ_OCC, P.FAB_RESEQ_PEAK, P.FAB_RESEQ_STALLS]) s (State.reseqOcc s o) := by
  unfold State.reseqOcc
  repeat' (first
    | (extract_lets +onlyGivenNames t; refine Only.with_state (t := t) ?_ fun _ => ?_; subst t; rotate_left; clear_value t)
    | (extract_lets +onlyGivenNames t; clear_value t)
    | with_reducible exact Only.refl _ _
    | with_reducible assumption
    | with_reducible apply Only.cond _ ?_ ?_
    | with_reducible apply Only.wr ?_ ?_ _ _
    | with_reducible apply Only.peak ?_ ?_ _ _
    | with_reducible apply Only.count_plain ?_ ?_ (by decide) _ _
    | with_reducible apply Only.count ?_ ?_ ?_ ?_ _ _
    | with_reducible apply Only.step ?_ (State.setFab_only ..) ?_
    | exact Eq.refl _
    | extract_lets
    | split)

theorem State.cutSending_only (s : State) (f : Frame) (c : Copy) :
    Only (some [F.fabric, F.quay, P.PRT_PFC_TX_XOFF, P.TBS_OVER_LIMIT_COUNT, P.TBS_OVW_SKIP, P.TBS_PTP_SKIP, P.TBS_TRAILER_SKIP]) s (State.cutSending s f c) := by
  unfold State.cutSending
  repeat' (first
    | (extract_lets +onlyGivenNames t; refine Only.with_state (t := t) ?_ fun _ => ?_; subst t; rotate_left; clear_value t)
    | (extract_lets +onlyGivenNames t; refine Only.with_pair (t := t) ?_ fun _ => ?_; subst t; rotate_left; clear_value t)
    | (extract_lets +onlyGivenNames t; clear_value t)
    | with_reducible exact Only.refl _ _
    | with_reducible assumption
    | with_reducible apply Only.emit ?_ _
    | with_reducible apply Only.fst ?_ (State.inserted_only ..) ?_
    | with_reducible apply Only.pair (by assumption) (State.inserted_only ..) ?_ ?_
    | with_reducible apply OnlyP.step ?_ (State.inserted_only ..) ?_
    | with_reducible apply Only.step ?_ (State.payFlow_only ..) ?_
    | with_reducible apply Only.step ?_ (State.setGap_only ..) ?_
    | exact Eq.refl _
    | extract_lets
    | split)

/-- The counter of the discard is named by the caller. -/
theorem State.discardAt_only {W : Option (List Nat)} (s : State) (id o counter : Nat) (hc : allows W counter = true)
    (hw : within (some ([F.cmd, F.fabric, F.fault, F.hidden, F.pad, F.quay, F.rings, F.txSlots, F.windowAt, P.BUF_DF_AGENT, P.BUF_DF_INDEX, P.BUF_DF_POOL, P.BUF_DF_TIME, P.BUF_DOUBLE_FREE, P.BUF_FLAGS, P.BUF_HELD, P.BUF_QUARANTINED, P.BUF_SIGNALS, P.CMD_NOTICE_DROP, P.HLT_FAULT_COUNT, P.HLT_STICKY, P.HST_RXQ_BYTES, P.OBS_OVF, P.OBS_TRACE_DROP] ++
      [P.OBS_TRACE_HEAD, P.OBS_TRACE_OLDEST, P.PRT_EGQ_BYTES, P.PRT_LINKDOWN_DROP, P.PRT_PFC_TX_XOFF, P.TBS_OVER_LIMIT_COUNT, P.TBS_OVW_SKIP, P.TBS_PTP_SKIP, P.TBS_TRAILER_SKIP])) W = true) : Only W s (State.discardAt s id o counter) := by
  unfold State.discardAt
  have ho : allows W P.OBS_OVF = true := by
    by_contra h
    exact absurd (allows_within hw (by simpa using h)) (by simp [allows])
  have hh : allows W F.hidden = true := by
    by_contra h
    exact absurd (allows_within hw (by simpa using h)) (by simp [allows])
  have retire : ∀ {t}, Only W s t → Only W s (t.retire id) :=
    fun h => h.step (State.retire_only ..) (within_trans (by exact Eq.refl _) hw)
  split
  · exact Only.refl _ _
  · rename_i f _
    dsimp only
    refine Only.cond _ (retire (Only.refl _ _)) (retire ?_)
    have h : Only W s ((s.count counter).traceDrop f 3 o counter) :=
      Only.step (Only.count (Only.refl _ _) hc ho hh _ _) (State.traceDrop_only ..) (within_trans (by exact Eq.refl _) hw)
    refine Only.fold _ _ (fun t c => ?_) h
    have g : Only W t (t.cutSending f c) := (State.cutSending_only ..).mono (within_trans (by exact Eq.refl _) hw)
    exact g.step (State.releaseCopy_only ..) (within_trans (by exact Eq.refl _) hw)

theorem State.segment_only (s : State) (k : ℕ) (abort : Bool) (g : Seg) (last : Bool) :
    Only (some ([F.cmd, F.fabric, F.fault, F.hidden, F.pad, F.quay, F.rings, F.txSlots, F.windowAt, P.BUF_ALLOC, P.BUF_DF_AGENT, P.BUF_DF_INDEX, P.BUF_DF_POOL, P.BUF_DF_TIME, P.BUF_DOUBLE_FREE, P.BUF_FLAGS, P.BUF_HELD, P.BUF_PEAK, P.BUF_QUARANTINED, P.BUF_SIGNALS, P.BUF_SPILL, P.CMD_NOTICE_DROP, P.FAB_ABORT_FRAMES, P.HLT_FAULT_COUNT] ++
      [P.HLT_STICKY, P.HST_FLAGS, P.HST_RXQ_BYPASS, P.HST_RXQ_BYTES, P.LCK_NO_MEMBER, P.OBS_OVF, P.OBS_TRACE_DROP, P.OBS_TRACE_HEAD, P.OBS_TRACE_OLDEST, P.PRT_EGQ_BYTES, P.PRT_LINKDOWN_DROP, P.PRT_PFC_TX_XOFF, P.TBS_OVER_LIMIT_COUNT, P.TBS_OVW_SKIP, P.TBS_PTP_SKIP, P.TBS_TRAILER_SKIP])) s (State.segment s k abort g last) := by
  unfold State.segment
  repeat' (first
    | (extract_lets +onlyGivenNames t; refine Only.with_state (t := t) ?_ fun _ => ?_; subst t; rotate_left; clear_value t)
    | (extract_lets +onlyGivenNames t; clear_value t)
    | with_reducible exact Only.refl _ _
    | with_reducible assumption
    | with_reducible apply Only.cond _ ?_ ?_
    | with_reducible apply Only.step ?_ (State.setFrame_only ..) ?_
    | with_reducible apply Only.step ?_ (State.setFab_only ..) ?_
    | with_reducible apply Only.step ?_ (State.allocate_only ..) ?_
    | with_reducible apply Only.step ?_ (State.setQuay_only ..) ?_
    | with_reducible apply Only.step ?_ (State.growCopies_only ..) ?_
    | with_reducible apply Only.trans ?_ (State.discardAt_only _ _ _ _ ?_ ?_)
    | with_reducible apply Only.step ?_ (State.traceEvent_only ..) ?_
    | with_reducible apply Only.step ?_ (State.retire_only ..) ?_
    | exact Eq.refl _
    | extract_lets
    | split)

theorem State.segmentsOf_only (s : State) (k : Nat) (abort : Bool) (l : List Seg) :
    Only (some ([F.cmd, F.fabric, F.fault, F.hidden, F.pad, F.quay, F.rings, F.txSlots, F.windowAt, P.BUF_ALLOC, P.BUF_DF_AGENT, P.BUF_DF_INDEX, P.BUF_DF_POOL, P.BUF_DF_TIME, P.BUF_DOUBLE_FREE, P.BUF_FLAGS, P.BUF_HELD, P.BUF_PEAK, P.BUF_QUARANTINED, P.BUF_SIGNALS, P.BUF_SPILL, P.CMD_NOTICE_DROP, P.FAB_ABORT_FRAMES, P.FAB_FAULT_FRAMES] ++
      [P.HLT_FAULT_COUNT, P.HLT_STICKY, P.HST_FLAGS, P.HST_RXQ_BYPASS, P.HST_RXQ_BYTES, P.LCK_NO_MEMBER, P.OBS_OVF, P.OBS_TRACE_DROP, P.OBS_TRACE_HEAD, P.OBS_TRACE_OLDEST, P.PRT_EGQ_BYTES, P.PRT_LINKDOWN_DROP, P.PRT_PFC_TX_XOFF, P.TBS_OVER_LIMIT_COUNT, P.TBS_OVW_SKIP, P.TBS_PTP_SKIP, P.TBS_TRAILER_SKIP])) s (State.segmentsOf s k abort l) := by
  induction l generalizing s with
  | nil => exact Only.refl _ _
  | cons g l ih =>
    unfold State.segmentsOf
    exact Only.cond _
      (Only.trans (Only.cond _ (State.discardAt_only _ _ _ _ (by exact Eq.refl _) (by exact Eq.refl _)) (Only.refl _ _)) (ih ..))
      (Only.trans (Only.step ((State.setFab_only ..).mono (by exact Eq.refl _)) (State.segment_only ..) (by exact Eq.refl _)) (ih ..))

theorem State.prepare_only (s : State) (c : Cell) :
    Only (some [F.cmd, F.fault, F.quay, F.rings, P.BUF_FLAGS, P.BUF_QUARANTINED, P.CMD_NOTICE_DROP, P.HLT_FAULT_COUNT, P.HLT_STICKY]) s (State.prepare s c) := by
  unfold State.prepare
  repeat' (first
    | with_reducible exact Only.refl _ _
    | with_reducible assumption
    | with_reducible apply Only.fold _ _ (fun _ _ => ?_) ?_
    | with_reducible apply OnlyP.fold _ _ (fun _ _ => ?_) ?_
    | with_reducible apply OnlyP.of ?_
    | with_reducible apply Only.step ?_ (State.clearFor_only ..) ?_
    | exact Eq.refl _)

theorem State.enterAllocStall_only (s : State) (o : ℕ) (c : Cell) :
    Only (some [F.fabric, P.BUF_ALLOC_STALL, P.BUF_FLAGS]) s (State.enterAllocStall s o c) := by
  unfold State.enterAllocStall
  repeat' (first
    | (extract_lets +onlyGivenNames t; refine Only.with_state (t := t) ?_ fun _ => ?_; subst t; rotate_left; clear_value t)
    | (extract_lets +onlyGivenNames t; clear_value t)
    | with_reducible exact Only.refl _ _
    | with_reducible assumption
    | with_reducible apply Only.cond _ ?_ ?_
    | with_reducible apply Only.orIn ?_ ?_ _ _
    | with_reducible apply Only.count_plain ?_ ?_ (by decide) _ _
    | with_reducible apply Only.count ?_ ?_ ?_ ?_ _ _
    | with_reducible apply Only.step ?_ (State.setFab_only ..) ?_
    | exact Eq.refl _
    | extract_lets
    | split)

theorem State.pass_only (s : State) (n : Nat) (c : Cell) : Only (some ([F.cmd, F.fabric, F.fault, F.hidden, F.pad, F.quay, F.rings, F.txSlots, F.windowAt, P.BUF_ALLOC, P.BUF_ALLOC_STALL, P.BUF_DF_AGENT, P.BUF_DF_INDEX, P.BUF_DF_POOL, P.BUF_DF_TIME, P.BUF_DOUBLE_FREE, P.BUF_FLAGS, P.BUF_HELD, P.BUF_PEAK, P.BUF_QUARANTINED, P.BUF_SIGNALS, P.BUF_SPILL, P.CMD_NOTICE_DROP, P.FAB_ABORT_FRAMES] ++
      [P.FAB_FAULT_FRAMES, P.HLT_FAULT_COUNT, P.HLT_STICKY, P.HST_FLAGS, P.HST_RXQ_BYPASS, P.HST_RXQ_BYTES, P.LCK_NO_MEMBER, P.OBS_OVF, P.OBS_TRACE_DROP, P.OBS_TRACE_HEAD, P.OBS_TRACE_OLDEST, P.PRT_EGQ_BYTES, P.PRT_LINKDOWN_DROP, P.PRT_PFC_TX_XOFF, P.TBS_OVER_LIMIT_COUNT, P.TBS_OVW_SKIP, P.TBS_PTP_SKIP, P.TBS_TRAILER_SKIP])) s (State.pass s n c) := by
  induction n generalizing s c with
  | zero => exact Only.refl _ _
  | succ n ih =>
    unfold State.pass
    dsimp only
    have h : Only (some ([F.cmd, F.fabric, F.fault, F.hidden, F.pad, F.quay, F.rings, F.txSlots, F.windowAt, P.BUF_ALLOC, P.BUF_ALLOC_STALL, P.BUF_DF_AGENT, P.BUF_DF_INDEX, P.BUF_DF_POOL, P.BUF_DF_TIME, P.BUF_DOUBLE_FREE, P.BUF_FLAGS, P.BUF_HELD, P.BUF_PEAK, P.BUF_QUARANTINED, P.BUF_SIGNALS, P.BUF_SPILL, P.CMD_NOTICE_DROP, P.FAB_ABORT_FRAMES] ++
      [P.FAB_FAULT_FRAMES, P.HLT_FAULT_COUNT, P.HLT_STICKY, P.HST_FLAGS, P.HST_RXQ_BYPASS, P.HST_RXQ_BYTES, P.LCK_NO_MEMBER, P.OBS_OVF, P.OBS_TRACE_DROP, P.OBS_TRACE_HEAD, P.OBS_TRACE_OLDEST, P.PRT_EGQ_BYTES, P.PRT_LINKDOWN_DROP, P.PRT_PFC_TX_XOFF, P.TBS_OVER_LIMIT_COUNT, P.TBS_OVW_SKIP, P.TBS_PTP_SKIP, P.TBS_TRAILER_SKIP])) s (s.segmentsOf c.stream c.abort c.segs) := (State.segmentsOf_only ..).mono (by exact Eq.refl _)
    have g := h.step (State.setFab_only _ fun x => { x with expect := store ltNat c.stream 0 ((c.seq + 1) % 65536) x.expect })
      (by exact Eq.refl _)
    split
    · rename_i d _
      have k := g.step (State.prepare_only _ d) (by exact Eq.refl _)
      exact Only.cond _ (Only.trans (k.step (State.setFab_only ..) (by exact Eq.refl _)) (ih ..))
        (k.step (State.enterAllocStall_only ..) (by exact Eq.refl _))
    · exact g

theorem State.freeStalled_only (s : State) (o : ℕ) (c : Cell) :
    Only (some ([F.cmd, F.fabric, F.fault, F.hidden, F.pad, F.quay, F.rings, F.txSlots, F.windowAt, P.BUF_ALLOC, P.BUF_ALLOC_STALL, P.BUF_DF_AGENT, P.BUF_DF_INDEX, P.BUF_DF_POOL, P.BUF_DF_TIME, P.BUF_DOUBLE_FREE, P.BUF_FLAGS, P.BUF_HELD, P.BUF_PEAK, P.BUF_QUARANTINED, P.BUF_SIGNALS, P.BUF_SPILL, P.CMD_NOTICE_DROP, P.FAB_ABORT_FRAMES] ++
      [P.FAB_FAULT_FRAMES, P.FAB_RESEQ_OCC, P.FAB_RESEQ_PEAK, P.FAB_RESEQ_STALLS, P.HLT_FAULT_COUNT, P.HLT_STICKY, P.HST_FLAGS, P.HST_RXQ_BYPASS, P.HST_RXQ_BYTES, P.LCK_NO_MEMBER, P.OBS_OVF, P.OBS_TRACE_DROP, P.OBS_TRACE_HEAD, P.OBS_TRACE_OLDEST, P.PRT_EGQ_BYTES, P.PRT_LINKDOWN_DROP, P.PRT_PFC_TX_XOFF, P.TBS_OVER_LIMIT_COUNT, P.TBS_OVW_SKIP, P.TBS_PTP_SKIP, P.TBS_TRAILER_SKIP])) s (State.freeStalled s o c) := by
  unfold State.freeStalled
  repeat' (first
    | (extract_lets +onlyGivenNames t; refine Only.with_state (t := t) ?_ fun _ => ?_; subst t; rotate_left; clear_value t)
    | (extract_lets +onlyGivenNames t; clear_value t)
    | with_reducible exact Only.refl _ _
    | with_reducible assumption
    | with_reducible apply Only.cond _ ?_ ?_
    | with_reducible apply Only.step ?_ (State.prepare_only ..) ?_
    | with_reducible apply Only.step ?_ (State.setFab_only ..) ?_
    | with_reducible apply Only.step ?_ (State.reseqOcc_only ..) ?_
    | with_reducible apply Only.step ?_ (State.pass_only ..) ?_
    | exact Eq.refl _
    | extract_lets
    | split)

theorem State.leaveAllocStall_only (s : State) (o : ℕ) :
    Only (some ([F.cmd, F.fabric, F.fault, F.hidden, F.pad, F.quay, F.rings, F.txSlots, F.windowAt, P.BUF_ALLOC, P.BUF_ALLOC_STALL, P.BUF_DF_AGENT, P.BUF_DF_INDEX, P.BUF_DF_POOL, P.BUF_DF_TIME, P.BUF_DOUBLE_FREE, P.BUF_FLAGS, P.BUF_HELD, P.BUF_PEAK, P.BUF_QUARANTINED, P.BUF_SIGNALS, P.BUF_SPILL, P.CMD_NOTICE_DROP, P.FAB_ABORT_FRAMES] ++
      [P.FAB_FAULT_FRAMES, P.FAB_RESEQ_OCC, P.FAB_RESEQ_PEAK, P.FAB_RESEQ_STALLS, P.HLT_FAULT_COUNT, P.HLT_STICKY, P.HST_FLAGS, P.HST_RXQ_BYPASS, P.HST_RXQ_BYTES, P.LCK_NO_MEMBER, P.OBS_OVF, P.OBS_TRACE_DROP, P.OBS_TRACE_HEAD, P.OBS_TRACE_OLDEST, P.PRT_EGQ_BYTES, P.PRT_LINKDOWN_DROP, P.PRT_PFC_TX_XOFF, P.TBS_OVER_LIMIT_COUNT, P.TBS_OVW_SKIP, P.TBS_PTP_SKIP, P.TBS_TRAILER_SKIP])) s (State.leaveAllocStall s o) := by
  unfold State.leaveAllocStall
  repeat' (first
    | with_reducible exact Only.refl _ _
    | with_reducible assumption
    | with_reducible apply Only.fold _ _ (fun _ _ => ?_) ?_
    | with_reducible apply OnlyP.fold _ _ (fun _ _ => ?_) ?_
    | with_reducible apply OnlyP.of ?_
    | with_reducible apply Only.step ?_ (State.freeStalled_only ..) ?_
    | exact Eq.refl _)

theorem State.discardCell_only (s : State) (c : Cell) :
    Only (some ([F.cmd, F.fabric, F.fault, F.hidden, F.pad, F.quay, F.rings, F.txSlots, F.windowAt, P.BUF_DF_AGENT, P.BUF_DF_INDEX, P.BUF_DF_POOL, P.BUF_DF_TIME, P.BUF_DOUBLE_FREE, P.BUF_FLAGS, P.BUF_HELD, P.BUF_QUARANTINED, P.BUF_SIGNALS, P.CMD_NOTICE_DROP, P.FAB_FAULT_FRAMES, P.HLT_FAULT_COUNT, P.HLT_STICKY, P.HST_RXQ_BYTES, P.OBS_OVF] ++
      [P.OBS_TRACE_DROP, P.OBS_TRACE_HEAD, P.OBS_TRACE_OLDEST, P.PRT_EGQ_BYTES, P.PRT_LINKDOWN_DROP, P.PRT_PFC_TX_XOFF, P.TBS_OVER_LIMIT_COUNT, P.TBS_OVW_SKIP, P.TBS_PTP_SKIP, P.TBS_TRAILER_SKIP])) s (State.discardCell s c) := by
  unfold State.discardCell
  repeat' (first
    | with_reducible exact Only.refl _ _
    | with_reducible assumption
    | with_reducible apply Only.fold _ _ (fun _ _ => ?_) ?_
    | with_reducible apply OnlyP.fold _ _ (fun _ _ => ?_) ?_
    | with_reducible apply OnlyP.of ?_
    | with_reducible apply Only.trans ?_ (State.discardAt_only _ _ _ _ ?_ ?_)
    | exact Eq.refl _)

theorem State.markFaulty_only (s : State) (c : Cell) :
    OnlyP (some [F.fabric, P.FAB_ECC_UNCORR, P.FAB_FLAGS]) s (State.markFaulty s c) := by
  unfold State.markFaulty
  repeat' (first
    | (extract_lets +onlyGivenNames t; refine OnlyP.with_state (t := t) ?_ fun _ => ?_; subst t; rotate_left; clear_value t)
    | (extract_lets +onlyGivenNames t; refine Only.with_state (t := t) ?_ fun _ => ?_; subst t; rotate_left; clear_value t)
    | (extract_lets +onlyGivenNames t; clear_value t)
    | with_reducible exact Only.refl _ _
    | with_reducible assumption
    | with_reducible apply OnlyP.of ?_
    | with_reducible apply OnlyP.cond _ ?_ ?_
    | with_reducible apply Only.cond _ ?_ ?_
    | with_reducible apply Only.orIn ?_ ?_ _ _
    | with_reducible apply Only.count_plain ?_ ?_ (by decide) _ _
    | with_reducible apply Only.count ?_ ?_ ?_ ?_ _ _
    | with_reducible apply Only.step ?_ (State.setFab_only ..) ?_
    | exact Eq.refl _
    | extract_lets
    | split)

theorem State.basinCheck_only (s : State) (c : Cell) (fault : Option CellFault) :
    OnlyP (some ([F.cmd, F.fabric, F.fault, F.hidden, F.pad, F.quay, F.rings, F.txSlots, F.windowAt, P.BUF_DF_AGENT, P.BUF_DF_INDEX, P.BUF_DF_POOL, P.BUF_DF_TIME, P.BUF_DOUBLE_FREE, P.BUF_FLAGS, P.BUF_HELD, P.BUF_QUARANTINED, P.BUF_SIGNALS, P.CMD_NOTICE_DROP, P.FAB_ECC_CORR, P.FAB_ECC_UNCORR, P.FAB_FAULT_FRAMES, P.FAB_FLAGS, P.FAB_HDR_ERR] ++
      [P.HLT_FAULT_COUNT, P.HLT_STICKY, P.HST_RXQ_BYTES, P.OBS_OVF, P.OBS_TRACE_DROP, P.OBS_TRACE_HEAD, P.OBS_TRACE_OLDEST, P.PRT_EGQ_BYTES, P.PRT_LINKDOWN_DROP, P.PRT_PFC_TX_XOFF, P.TBS_OVER_LIMIT_COUNT, P.TBS_OVW_SKIP, P.TBS_PTP_SKIP, P.TBS_TRAILER_SKIP])) s (State.basinCheck s c fault) := by
  unfold State.basinCheck
  repeat' (first
    | (extract_lets +onlyGivenNames t; refine OnlyP.with_state (t := t) ?_ fun _ => ?_; subst t; rotate_left; clear_value t)
    | (extract_lets +onlyGivenNames t; refine OnlyP.with_pair (t := t) ?_ fun _ => ?_; subst t; rotate_left; clear_value t)
    | (extract_lets +onlyGivenNames t; refine Only.with_state (t := t) ?_ fun _ => ?_; subst t; rotate_left; clear_value t)
    | (extract_lets +onlyGivenNames t; refine Only.with_pair (t := t) ?_ fun _ => ?_; subst t; rotate_left; clear_value t)
    | (extract_lets +onlyGivenNames t; clear_value t)
    | with_reducible exact Only.refl _ _
    | with_reducible assumption
    | with_reducible apply OnlyP.of ?_
    | with_reducible apply OnlyP.cond _ ?_ ?_
    | with_reducible apply Only.fold _ _ (fun _ _ => ?_) ?_
    | with_reducible apply OnlyP.fold _ _ (fun _ _ => ?_) ?_
    | with_reducible apply Only.cond _ ?_ ?_
    | with_reducible apply Only.orIn ?_ ?_ _ _
    | with_reducible apply Only.count_plain ?_ ?_ (by decide) _ _
    | with_reducible apply Only.count ?_ ?_ ?_ ?_ _ _
    | with_reducible apply Only.fst ?_ (State.markFaulty_only ..) ?_
    | with_reducible apply Only.pair (by assumption) (State.markFaulty_only ..) ?_ ?_
    | with_reducible apply OnlyP.step ?_ (State.markFaulty_only ..) ?_
    | with_reducible apply Only.step ?_ (State.setFab_only ..) ?_
    | with_reducible apply Only.trans ?_ (State.discardAt_only _ _ _ _ ?_ ?_)
    | exact Eq.refl _
    | extract_lets
    | split)

theorem State.acceptCell_only (s : State) (o : ℕ) (j : ℕ) (c : Cell) :
    Only (some [F.fabric, F.hidden, F.pad, F.windowAt, P.FAB_BASIN_OCC, P.FAB_BASIN_PEAK, P.FAB_SLOT_S2, P.OBS_OVF, P.OBS_TRACE_DROP, P.OBS_TRACE_HEAD, P.OBS_TRACE_OLDEST]) s (State.acceptCell s o j c) := by
  unfold State.acceptCell
  repeat' (first
    | (extract_lets +onlyGivenNames t; refine Only.with_state (t := t) ?_ fun _ => ?_; subst t; rotate_left; clear_value t)
    | (extract_lets +onlyGivenNames t; clear_value t)
    | with_reducible exact Only.refl _ _
    | with_reducible assumption
    | with_reducible apply Only.trans ?_ (State.slot_only _ _ _ _ _ ?_ ?_ ?_)
    | with_reducible apply Only.step ?_ (State.setFab_only ..) ?_
    | with_reducible apply Only.step ?_ (State.traceEvent_only ..) ?_
    | with_reducible apply Only.step ?_ (State.basinOcc_only ..) ?_
    | exact Eq.refl _
    | extract_lets
    | split)

theorem State.offer_only (s : State) (o : ℕ) (j : ℕ) (c : Cell) :
    Only (some ([F.cmd, F.fabric, F.fault, F.hidden, F.pad, F.quay, F.rings, F.txSlots, F.windowAt, P.BUF_ALLOC, P.BUF_ALLOC_STALL, P.BUF_DF_AGENT, P.BUF_DF_INDEX, P.BUF_DF_POOL, P.BUF_DF_TIME, P.BUF_DOUBLE_FREE, P.BUF_FLAGS, P.BUF_HELD, P.BUF_PEAK, P.BUF_QUARANTINED, P.BUF_SIGNALS, P.BUF_SPILL, P.CMD_NOTICE_DROP, P.FAB_ABORT_FRAMES] ++
      [P.FAB_BASIN_OCC, P.FAB_BASIN_PEAK, P.FAB_FAULT_FRAMES, P.FAB_RESEQ_OCC, P.FAB_RESEQ_PEAK, P.FAB_RESEQ_STALLS, P.FAB_SLOT_S2, P.HLT_FAULT_COUNT, P.HLT_STICKY, P.HST_FLAGS, P.HST_RXQ_BYPASS, P.HST_RXQ_BYTES, P.LCK_NO_MEMBER, P.OBS_OVF, P.OBS_TRACE_DROP, P.OBS_TRACE_HEAD, P.OBS_TRACE_OLDEST, P.PRT_EGQ_BYTES, P.PRT_LINKDOWN_DROP, P.PRT_PFC_TX_XOFF, P.TBS_OVER_LIMIT_COUNT, P.TBS_OVW_SKIP, P.TBS_PTP_SKIP, P.TBS_TRAILER_SKIP])) s (State.offer s o j c) := by
  unfold State.offer
  repeat' (first
    | (extract_lets +onlyGivenNames t; refine Only.with_state (t := t) ?_ fun _ => ?_; subst t; rotate_left; clear_value t)
    | (extract_lets +onlyGivenNames t; clear_value t)
    | with_reducible exact Only.refl _ _
    | with_reducible assumption
    | with_reducible apply Only.cond _ ?_ ?_
    | with_reducible apply Only.step ?_ (State.prepare_only ..) ?_
    | with_reducible apply Only.step ?_ (State.setFab_only ..) ?_
    | with_reducible apply Only.trans ?_ (State.slot_only _ _ _ _ _ ?_ ?_ ?_)
    | with_reducible apply Only.step ?_ (State.enterAllocStall_only ..) ?_
    | with_reducible apply Only.step ?_ (State.reseqOcc_only ..) ?_
    | with_reducible apply Only.step ?_ (State.pass_only ..) ?_
    | with_reducible apply Only.step ?_ (State.acceptCell_only ..) ?_
    | with_reducible apply Only.step ?_ (State.discardCell_only ..) ?_
    | exact Eq.refl _
    | extract_lets
    | split)

theorem State.stage2_only (s : State) (step : ℕ) (faults : List (ℕ × CellFault)) (j : ℕ) :
    Only (some ([F.cmd, F.fabric, F.fault, F.hidden, F.pad, F.quay, F.rings, F.txSlots, F.windowAt, P.BUF_ALLOC, P.BUF_ALLOC_STALL, P.BUF_DF_AGENT, P.BUF_DF_INDEX, P.BUF_DF_POOL, P.BUF_DF_TIME, P.BUF_DOUBLE_FREE, P.BUF_FLAGS, P.BUF_HELD, P.BUF_PEAK, P.BUF_QUARANTINED, P.BUF_SIGNALS, P.BUF_SPILL, P.CMD_NOTICE_DROP, P.FAB_ABORT_FRAMES] ++
      [P.FAB_BASIN_OCC, P.FAB_BASIN_PEAK, P.FAB_ECC_CORR, P.FAB_ECC_UNCORR, P.FAB_FAULT_FRAMES, P.FAB_FLAGS, P.FAB_HDR_ERR, P.FAB_RESEQ_OCC, P.FAB_RESEQ_PEAK, P.FAB_RESEQ_STALLS, P.FAB_SLOT_S2, P.HLT_FAULT_COUNT, P.HLT_STICKY, P.HST_FLAGS, P.HST_RXQ_BYPASS, P.HST_RXQ_BYTES, P.LCK_NO_MEMBER, P.OBS_OVF, P.OBS_TRACE_DROP, P.OBS_TRACE_HEAD, P.OBS_TRACE_OLDEST, P.PRT_EGQ_BYTES, P.PRT_LINKDOWN_DROP, P.PRT_PFC_TX_XOFF] ++
      [P.TBS_OVER_LIMIT_COUNT, P.TBS_OVW_SKIP, P.TBS_PTP_SKIP, P.TBS_TRAILER_SKIP])) s (State.stage2 s step faults j) := by
  unfold State.stage2
  repeat' (first
    | (extract_lets +onlyGivenNames t; refine Only.with_state (t := t) ?_ fun _ => ?_; subst t; rotate_left; clear_value t)
    | (extract_lets +onlyGivenNames t; refine Only.with_pair (t := t) ?_ fun _ => ?_; subst t; rotate_left; clear_value t)
    | (extract_lets +onlyGivenNames t; have q : ℕ := t; clear q; clear_value t)
    | (extract_lets +onlyGivenNames t; have q : Bool := t; clear q; clear_value t)
    | (extract_lets +onlyGivenNames t; have q : ℤ := t; clear q; clear_value t)
    | (extract_lets +onlyGivenNames t; have q : Option _ := t; clear q; clear_value t)
    | (extract_lets +onlyGivenNames t; have q : List _ := t; clear q; clear_value t)
    | (extract_lets +onlyGivenNames t; have q : _ × _ := t; clear q; clear_value t)
    | with_reducible exact Only.refl _ _
    | with_reducible assumption
    | with_reducible apply Only.cond _ ?_ ?_
    | with_reducible apply Only.step ?_ (State.leaveAllocStall_only ..) ?_
    | with_reducible apply Only.trans ?_ (State.slot_only _ _ _ _ _ ?_ ?_ ?_)
    | with_reducible apply Only.fst ?_ (State.basinCheck_only ..) ?_
    | with_reducible apply Only.pair (by assumption) (State.basinCheck_only ..) ?_ ?_
    | with_reducible apply OnlyP.step ?_ (State.basinCheck_only ..) ?_
    | with_reducible apply Only.step ?_ (State.basinOcc_only ..) ?_
    | with_reducible apply Only.step ?_ (State.offer_only ..) ?_
    | exact Eq.refl _
    | extract_lets
    | split)

theorem execFabricStep_only (faults : List (Fin 64 × CellFault)) (upsets : List QuayUpset) (s : State) :
    OnlyO (some ([F.cmd, F.fabric, F.fault, F.hidden, F.pad, F.quay, F.rings, F.txSlots, F.windowAt, P.BUF_ALLOC, P.BUF_ALLOC_STALL, P.BUF_DF_AGENT, P.BUF_DF_INDEX, P.BUF_DF_POOL, P.BUF_DF_TIME, P.BUF_DOUBLE_FREE, P.BUF_FLAGS, P.BUF_HELD, P.BUF_PEAK, P.BUF_QUARANTINED, P.BUF_SIGNALS, P.BUF_SPILL, P.CMD_NOTICE_DROP, P.FAB_ABORT_FRAMES] ++
      [P.FAB_BASIN_OCC, P.FAB_BASIN_PEAK, P.FAB_ECC_CORR, P.FAB_ECC_UNCORR, P.FAB_FAULT_FRAMES, P.FAB_FLAGS, P.FAB_HDR_ERR, P.FAB_RESEQ_OCC, P.FAB_RESEQ_PEAK, P.FAB_RESEQ_STALLS, P.FAB_SLOT_S1, P.FAB_SLOT_S2, P.FAB_STEP_COUNT, P.HLT_FAULT_COUNT, P.HLT_STICKY, P.HST_FLAGS, P.HST_RXQ_BYPASS, P.HST_RXQ_BYTES, P.LCK_NO_MEMBER, P.OBS_OVF, P.OBS_TRACE_DROP, P.OBS_TRACE_HEAD, P.OBS_TRACE_OLDEST, P.PRT_EGQ_BYTES] ++
      [P.PRT_LINKDOWN_DROP, P.PRT_PFC_TX_XOFF, P.TBS_OVER_LIMIT_COUNT, P.TBS_OVW_SKIP, P.TBS_PTP_SKIP, P.TBS_TRAILER_SKIP])) s (execFabricStep faults upsets s) := by
  unfold execFabricStep
  repeat' (first
    | (extract_lets +onlyGivenNames t; refine OnlyO.with_state (t := t) ?_ fun _ => ?_; subst t; rotate_left; clear_value t)
    | (extract_lets +onlyGivenNames t; refine OnlyO.with_pair (t := t) ?_ fun _ => ?_; subst t; rotate_left; clear_value t)
    | (extract_lets +onlyGivenNames t; refine Only.with_state (t := t) ?_ fun _ => ?_; subst t; rotate_left; clear_value t)
    | (extract_lets +onlyGivenNames t; refine Only.with_pair (t := t) ?_ fun _ => ?_; subst t; rotate_left; clear_value t)
    | (extract_lets +onlyGivenNames t; clear_value t)
    | with_reducible exact Only.refl _ _
    | with_reducible assumption
    | with_reducible apply OnlyO.of ?_
    | with_reducible apply OnlyO.cond _ ?_ ?_
    | with_reducible apply Only.fold _ _ (fun _ _ => ?_) ?_
    | with_reducible apply OnlyP.fold _ _ (fun _ _ => ?_) ?_
    | with_reducible apply OnlyP.of ?_
    | with_reducible apply OnlyP.cond _ ?_ ?_
    | with_reducible apply Only.cond _ ?_ ?_
    | with_reducible apply Only.wr ?_ ?_ _ _
    | with_reducible apply Only.step ?_ (State.upset_only ..) ?_
    | with_reducible apply Only.step ?_ (State.stage2_only ..) ?_
    | with_reducible apply Only.step ?_ (State.stage1_only ..) ?_
    | with_reducible apply Only.step ?_ (State.evaluateSluice_only ..) ?_
    | exact Eq.refl _
    | extract_lets
    | split)

theorem State.skipTo_only (s : State) (o : ℕ) (c : Cell) :
    Only (some ([F.cmd, F.fabric, F.fault, F.hidden, F.pad, F.quay, F.rings, F.txSlots, F.windowAt, P.BUF_DF_AGENT, P.BUF_DF_INDEX, P.BUF_DF_POOL, P.BUF_DF_TIME, P.BUF_DOUBLE_FREE, P.BUF_FLAGS, P.BUF_HELD, P.BUF_QUARANTINED, P.BUF_SIGNALS, P.CMD_NOTICE_DROP, P.FAB_FAULT_FRAMES, P.FAB_FLAGS, P.FAB_RESEQ_SKIPS, P.HLT_FAULT_COUNT, P.HLT_STICKY] ++
      [P.HST_RXQ_BYTES, P.OBS_OVF, P.OBS_TRACE_DROP, P.OBS_TRACE_HEAD, P.OBS_TRACE_OLDEST, P.PRT_EGQ_BYTES, P.PRT_LINKDOWN_DROP, P.PRT_PFC_TX_XOFF, P.TBS_OVER_LIMIT_COUNT, P.TBS_OVW_SKIP, P.TBS_PTP_SKIP, P.TBS_TRAILER_SKIP])) s (State.skipTo s o c) := by
  unfold State.skipTo
  repeat' (first
    | (extract_lets +onlyGivenNames t; refine Only.with_state (t := t) ?_ fun _ => ?_; subst t; rotate_left; clear_value t)
    | (extract_lets +onlyGivenNames t; refine Only.with_pair (t := t) ?_ fun _ => ?_; subst t; rotate_left; clear_value t)
    | (extract_lets +onlyGivenNames t; clear_value t)
    | with_reducible exact Only.refl _ _
    | with_reducible assumption
    | with_reducible apply Only.fold _ _ (fun _ _ => ?_) ?_
    | with_reducible apply OnlyP.fold _ _ (fun _ _ => ?_) ?_
    | with_reducible apply OnlyP.of ?_
    | with_reducible apply OnlyP.cond _ ?_ ?_
    | with_reducible apply Only.cond _ ?_ ?_
    | with_reducible apply Only.orIn ?_ ?_ _ _
    | with_reducible apply Only.count_plain ?_ ?_ (by decide) _ _
    | with_reducible apply Only.count ?_ ?_ ?_ ?_ _ _
    | with_reducible apply Only.trans ?_ (State.discardAt_only _ _ _ _ ?_ ?_)
    | with_reducible apply Only.step ?_ (State.setFab_only ..) ?_
    | with_reducible apply Only.step ?_ (State.discardCell_only ..) ?_
    | exact Eq.refl _
    | extract_lets
    | split)

theorem execLostGap_only (outlet : Fin 64) (s : State) :
    OnlyO (some ([F.cmd, F.fabric, F.fault, F.hidden, F.pad, F.quay, F.rings, F.txSlots, F.windowAt, P.BUF_ALLOC, P.BUF_ALLOC_STALL, P.BUF_DF_AGENT, P.BUF_DF_INDEX, P.BUF_DF_POOL, P.BUF_DF_TIME, P.BUF_DOUBLE_FREE, P.BUF_FLAGS, P.BUF_HELD, P.BUF_PEAK, P.BUF_QUARANTINED, P.BUF_SIGNALS, P.BUF_SPILL, P.CMD_NOTICE_DROP, P.FAB_ABORT_FRAMES] ++
      [P.FAB_FAULT_FRAMES, P.FAB_FLAGS, P.FAB_RESEQ_OCC, P.FAB_RESEQ_PEAK, P.FAB_RESEQ_SKIPS, P.FAB_RESEQ_STALLS, P.HLT_FAULT_COUNT, P.HLT_STICKY, P.HST_FLAGS, P.HST_RXQ_BYPASS, P.HST_RXQ_BYTES, P.LCK_NO_MEMBER, P.OBS_OVF, P.OBS_TRACE_DROP, P.OBS_TRACE_HEAD, P.OBS_TRACE_OLDEST, P.PRT_EGQ_BYTES, P.PRT_LINKDOWN_DROP, P.PRT_PFC_TX_XOFF, P.TBS_OVER_LIMIT_COUNT, P.TBS_OVW_SKIP, P.TBS_PTP_SKIP, P.TBS_TRAILER_SKIP])) s (execLostGap outlet s) := by
  unfold execLostGap
  repeat' (first
    | (extract_lets +onlyGivenNames t; refine OnlyO.with_state (t := t) ?_ fun _ => ?_; subst t; rotate_left; clear_value t)
    | (extract_lets +onlyGivenNames t; refine Only.with_state (t := t) ?_ fun _ => ?_; subst t; rotate_left; clear_value t)
    | (extract_lets +onlyGivenNames t; clear_value t)
    | with_reducible exact Only.refl _ _
    | with_reducible assumption
    | with_reducible apply OnlyO.of ?_
    | with_reducible apply OnlyO.cond _ ?_ ?_
    | with_reducible apply Only.cond _ ?_ ?_
    | with_reducible apply Only.step ?_ (State.prepare_only ..) ?_
    | with_reducible apply Only.step ?_ (State.skipTo_only ..) ?_
    | with_reducible apply Only.step ?_ (State.pass_only ..) ?_
    | with_reducible apply Only.step ?_ (State.setFab_only ..) ?_
    | with_reducible apply Only.step ?_ (State.enterAllocStall_only ..) ?_
    | with_reducible apply Only.step ?_ (State.reseqOcc_only ..) ?_
    | exact Eq.refl _
    | extract_lets
    | split)

theorem State.fabricPower_only (s : State) :
    Only (some [P.FAB_STATE]) s (State.fabricPower s) := by
  unfold State.fabricPower
  repeat' (first
    | with_reducible exact Only.refl _ _
    | with_reducible assumption
    | with_reducible apply Only.cond _ ?_ ?_
    | with_reducible apply Only.wr ?_ ?_ _ _
    | exact Eq.refl _
    | split)

theorem State.fabricOff_only (s : State) :
    Only (some ([F.cmd, F.fabric, F.fault, F.hidden, F.log, F.pad, F.quay, F.rings, F.txSlots, F.windowAt, P.BUF_DF_AGENT, P.BUF_DF_INDEX, P.BUF_DF_POOL, P.BUF_DF_TIME, P.BUF_DOUBLE_FREE, P.BUF_FLAGS, P.BUF_HELD, P.BUF_QUARANTINED, P.BUF_SIGNALS, P.CMD_NOTICE_DROP, P.FAB_BASIN_OCC, P.FAB_DRAIN_LOST, P.FAB_RESEQ_OCC, P.FAB_STATE] ++
      [P.HLT_FAULT_COUNT, P.HLT_STICKY, P.HST_RXQ_BYTES, P.LOG_HOLD_TIME, P.OBS_OVF, P.OBS_TRACE_DROP, P.OBS_TRACE_HEAD, P.OBS_TRACE_OLDEST, P.PRT_EGQ_BYTES, P.PRT_LINKDOWN_DROP, P.PRT_PFC_TX_XOFF, P.TBS_OVER_LIMIT_COUNT, P.TBS_OVW_SKIP, P.TBS_PTP_SKIP, P.TBS_TRAILER_SKIP])) s (State.fabricOff s) := by
  unfold State.fabricOff
  repeat' (first
    | (extract_lets +onlyGivenNames t; refine Only.with_state (t := t) ?_ fun _ => ?_; subst t; rotate_left; clear_value t)
    | (extract_lets +onlyGivenNames t; refine Only.with_pair (t := t) ?_ fun _ => ?_; subst t; rotate_left; clear_value t)
    | (extract_lets +onlyGivenNames t; clear_value t)
    | with_reducible exact Only.refl _ _
    | with_reducible assumption
    | with_reducible apply Only.fold _ _ (fun _ _ => ?_) ?_
    | with_reducible apply OnlyP.fold _ _ (fun _ _ => ?_) ?_
    | with_reducible apply OnlyP.of ?_
    | with_reducible apply OnlyP.cond _ ?_ ?_
    | with_reducible apply Only.cond _ ?_ ?_
    | with_reducible apply Only.wr ?_ ?_ _ _
    | with_reducible apply Only.trans ?_ (State.discardAt_only _ _ _ _ ?_ ?_)
    | with_reducible apply Only.step ?_ (State.holdSettle_only ..) ?_
    | with_reducible apply Only.step ?_ (State.setFab_only ..) ?_
    | with_reducible apply Only.step ?_ (State.evaluateSluice_only ..) ?_
    | exact Eq.refl _
    | extract_lets
    | split)

theorem execDrainComplete_only (s : State) :
    OnlyO (some [F.fabric, F.log, P.FAB_STATE, P.LOG_HOLD_TIME]) s (execDrainComplete s) := by
  unfold execDrainComplete
  repeat' (first
    | with_reducible exact Only.refl _ _
    | with_reducible assumption
    | with_reducible apply OnlyO.of ?_
    | with_reducible apply OnlyO.cond _ ?_ ?_
    | with_reducible apply Only.cond _ ?_ ?_
    | with_reducible apply Only.wr ?_ ?_ _ _
    | with_reducible apply Only.step ?_ (State.setFab_only ..) ?_
    | with_reducible apply Only.step ?_ (State.holdSettle_only ..) ?_
    | exact Eq.refl _
    | split)

theorem execShutterDrainExpiry_only (s : State) :
    OnlyO (some ([F.cmd, F.fabric, F.fault, F.hidden, F.log, F.pad, F.quay, F.rings, F.txSlots, F.windowAt, P.BUF_DF_AGENT, P.BUF_DF_INDEX, P.BUF_DF_POOL, P.BUF_DF_TIME, P.BUF_DOUBLE_FREE, P.BUF_FLAGS, P.BUF_HELD, P.BUF_QUARANTINED, P.BUF_SIGNALS, P.CMD_NOTICE_DROP, P.FAB_BASIN_OCC, P.FAB_DRAIN_LOST, P.FAB_RESEQ_OCC, P.FAB_STATE] ++
      [P.HLT_FAULT_COUNT, P.HLT_STICKY, P.HST_RXQ_BYTES, P.LOG_HOLD_TIME, P.OBS_OVF, P.OBS_TRACE_DROP, P.OBS_TRACE_HEAD, P.OBS_TRACE_OLDEST, P.PRT_EGQ_BYTES, P.PRT_LINKDOWN_DROP, P.PRT_PFC_TX_XOFF, P.TBS_OVER_LIMIT_COUNT, P.TBS_OVW_SKIP, P.TBS_PTP_SKIP, P.TBS_TRAILER_SKIP])) s (execShutterDrainExpiry s) := by
  unfold execShutterDrainExpiry
  repeat' (first
    | with_reducible exact Only.refl _ _
    | with_reducible assumption
    | with_reducible apply OnlyO.of ?_
    | with_reducible apply OnlyO.cond _ ?_ ?_
    | with_reducible apply Only.cond _ ?_ ?_
    | with_reducible apply Only.step ?_ (State.fabricOff_only ..) ?_
    | exact Eq.refl _
    | split)

theorem State.fabricStart_only (s : State) :
    Only (some [F.fabric, F.log, P.FAB_STATE, P.FAB_STEP_COUNT, P.LOG_HOLD_TIME]) s (State.fabricStart s) := by
  unfold State.fabricStart
  repeat' (first
    | with_reducible exact Only.refl _ _
    | with_reducible assumption
    | with_reducible apply Only.cond _ ?_ ?_
    | with_reducible apply Only.wr ?_ ?_ _ _
    | with_reducible apply Only.step ?_ (State.setFab_only ..) ?_
    | with_reducible apply Only.step ?_ (State.holdSettle_only ..) ?_
    | exact Eq.refl _
    | split)

theorem fabricEnable_only (o : Origin) (_p : List Byte) (s : State) :
    Only (some [F.cmd, F.fabric, F.log, F.rings, P.CMD_REFUSED_COUNT, P.FAB_STATE, P.FAB_STEP_COUNT, P.LOG_HOLD_TIME, P.TBS_OVER_LIMIT_COUNT]) s (fabricEnable o _p s) := by
  unfold fabricEnable
  repeat' (first
    | with_reducible exact Only.refl _ _
    | with_reducible assumption
    | with_reducible apply Only.cond _ ?_ ?_
    | with_reducible apply Only.step ?_ (State.finish_only ..) ?_
    | with_reducible apply Only.step ?_ (State.fabricStart_only ..) ?_
    | exact Eq.refl _
    | split)

theorem fabricDisable_only (o : Origin) (_p : List Byte) (s : State) :
    Only (some [F.cmd, F.rings, P.CMD_REFUSED_COUNT, P.FAB_STATE, P.TBS_OVER_LIMIT_COUNT]) s (fabricDisable o _p s) := by
  unfold fabricDisable
  repeat' (first
    | with_reducible exact Only.refl _ _
    | with_reducible assumption
    | with_reducible apply Only.cond _ ?_ ?_
    | with_reducible apply Only.wr ?_ ?_ _ _
    | with_reducible apply Only.step ?_ (State.finish_only ..) ?_
    | exact Eq.refl _
    | split)

theorem State.marginCheck_only (s : State) (sp : ℕ) :
    Only (some [F.fabric]) s (State.marginCheck s sp) := by
  unfold State.marginCheck
  repeat' (first
    | (extract_lets +onlyGivenNames t; refine Only.with_state (t := t) ?_ fun _ => ?_; subst t; rotate_left; clear_value t)
    | (extract_lets +onlyGivenNames t; have q : ℕ := t; clear q; clear_value t)
    | (extract_lets +onlyGivenNames t; have q : Bool := t; clear q; clear_value t)
    | (extract_lets +onlyGivenNames t; have q : ℤ := t; clear q; clear_value t)
    | (extract_lets +onlyGivenNames t; have q : Option _ := t; clear q; clear_value t)
    | (extract_lets +onlyGivenNames t; have q : List _ := t; clear q; clear_value t)
    | (extract_lets +onlyGivenNames t; have q : _ × _ := t; clear q; clear_value t)
    | with_reducible exact Only.refl _ _
    | with_reducible assumption
    | with_reducible apply Only.cond _ ?_ ?_
    | with_reducible apply Only.step ?_ (State.setFab_only ..) ?_
    | exact Eq.refl _
    | extract_lets
    | split)

theorem execStepRateMeasure_only (s : State) :
    OnlyO (some [F.fabric, P.FAB_SPEEDUP, P.FAB_SPEEDUP_25C, P.FAB_SPEEDUP_LOW, P.FAB_STEP_RATE]) s (execStepRateMeasure s) := by
  unfold execStepRateMeasure
  repeat' (first
    | (extract_lets +onlyGivenNames t; refine OnlyO.with_state (t := t) ?_ fun _ => ?_; subst t; rotate_left; clear_value t)
    | (extract_lets +onlyGivenNames t; refine Only.with_state (t := t) ?_ fun _ => ?_; subst t; rotate_left; clear_value t)
    | (extract_lets +onlyGivenNames t; clear_value t)
    | with_reducible exact Only.refl _ _
    | with_reducible assumption
    | with_reducible apply OnlyO.of ?_
    | with_reducible apply OnlyO.cond _ ?_ ?_
    | with_reducible apply Only.cond _ ?_ ?_
    | with_reducible apply Only.wr ?_ ?_ _ _
    | with_reducible apply Only.step ?_ (State.setFab_only ..) ?_
    | with_reducible apply Only.step ?_ (State.marginCheck_only ..) ?_
    | exact Eq.refl _
    | extract_lets
    | split)

theorem execPaceMargin_only (s : State) :
    OnlyO (some [F.cmd, F.fabric, F.rings, P.CMD_NOTICE_DROP, P.FAB_FLAGS]) s (execPaceMargin s) := by
  unfold execPaceMargin
  repeat' (first
    | (extract_lets +onlyGivenNames t; refine OnlyO.with_state (t := t) ?_ fun _ => ?_; subst t; rotate_left; clear_value t)
    | (extract_lets +onlyGivenNames t; refine Only.with_state (t := t) ?_ fun _ => ?_; subst t; rotate_left; clear_value t)
    | (extract_lets +onlyGivenNames t; clear_value t)
    | with_reducible exact Only.refl _ _
    | with_reducible assumption
    | with_reducible apply OnlyO.of ?_
    | with_reducible apply OnlyO.cond _ ?_ ?_
    | with_reducible apply Only.cond _ ?_ ?_
    | with_reducible apply Only.orIn ?_ ?_ _ _
    | with_reducible apply Only.step ?_ (State.setFab_only ..) ?_
    | with_reducible apply Only.step ?_ (State.notice_only ..) ?_
    | exact Eq.refl _
    | extract_lets
    | split)

theorem State.vcore_only (s : State) (same : Bool) (mv : ℕ) :
    Only (some [F.fabric, F.power, P.FAB_PACE_NOW, P.FAB_VCORE_MEAS]) s (State.vcore s same mv) := by
  unfold State.vcore
  repeat' (first
    | (extract_lets +onlyGivenNames t; refine Only.with_state (t := t) ?_ fun _ => ?_; subst t; rotate_left; clear_value t)
    | (extract_lets +onlyGivenNames t; clear_value t)
    | with_reducible exact Only.refl _ _
    | with_reducible assumption
    | with_reducible apply Only.cond _ ?_ ?_
    | with_reducible apply Only.wr ?_ ?_ _ _
    | with_reducible apply Only.step ?_ (State.setFab_only ..) ?_
    | with_reducible apply Only.step ?_ (State.setPower_only ..) ?_
    | exact Eq.refl _
    | extract_lets
    | split)

theorem execVcoreTransitionEnd_only (mv : BitVec 10) (s : State) :
    OnlyO (some [F.fabric, F.power, P.FAB_PACE_NOW, P.FAB_VCORE_MEAS]) s (execVcoreTransitionEnd mv s) := by
  unfold execVcoreTransitionEnd
  repeat' (first
    | with_reducible exact Only.refl _ _
    | with_reducible assumption
    | with_reducible apply OnlyO.of ?_
    | with_reducible apply Only.step ?_ (State.vcore_only ..) ?_
    | exact Eq.refl _)

theorem execVcoreMismatch_only (s : State) :
    OnlyO (some [F.cmd, F.fabric, F.fault, F.rings, P.CMD_NOTICE_DROP, P.FAB_FLAGS, P.HLT_FAULT_COUNT, P.HLT_STICKY]) s (execVcoreMismatch s) := by
  unfold execVcoreMismatch
  repeat' (first
    | with_reducible exact Only.refl _ _
    | with_reducible assumption
    | with_reducible apply OnlyO.of ?_
    | with_reducible apply OnlyO.cond _ ?_ ?_
    | with_reducible apply Only.cond _ ?_ ?_
    | with_reducible apply Only.orIn ?_ ?_ _ _
    | with_reducible apply Only.step ?_ (State.sticky_only ..) ?_
    | with_reducible apply Only.step ?_ (State.setFab_only ..) ?_
    | exact Eq.refl _
    | split)

theorem State.applyPace_only (s : State) (pace : ℕ) :
    Only (some [F.fabric, F.power, P.FAB_PACE, P.FAB_PACE_NOW, P.FAB_VCORE_MEAS, P.FAB_VCORE_TARGET]) s (State.applyPace s pace) := by
  unfold State.applyPace
  repeat' (first
    | (extract_lets +onlyGivenNames t; refine Only.with_state (t := t) ?_ fun _ => ?_; subst t; rotate_left; clear_value t)
    | (extract_lets +onlyGivenNames t; clear_value t)
    | with_reducible exact Only.refl _ _
    | with_reducible assumption
    | with_reducible apply Only.cond _ ?_ ?_
    | with_reducible apply Only.wr ?_ ?_ _ _
    | with_reducible apply Only.step ?_ (State.setFab_only ..) ?_
    | with_reducible apply Only.step ?_ (State.vcore_only ..) ?_
    | exact Eq.refl _
    | extract_lets
    | split)

end Sys2Proof.Machine
end

