-- ==== Sys2Proof/Laws/OnlyIngress.lean ====
section
/-! SUPPORT. What each operation of Machine/Ingress.lean can change. -/

set_option linter.unusedTactic false
set_option linter.unreachableTactic false
set_option linter.tactic.unusedName false

namespace Sys2Proof.Machine

theorem State.tagFrame_only (s : State) (r : ℕ) :
    OnlyP (some [F.tagRegs, P.OBS_TAG_COUNT]) s (State.tagFrame s r) := by
  unfold State.tagFrame
  repeat' (first
    | (extract_lets +onlyGivenNames t; refine OnlyP.with_state (t := t) ?_ fun _ => ?_; subst t; rotate_left; clear_value t)
    | (extract_lets +onlyGivenNames t; refine Only.with_state (t := t) ?_ fun _ => ?_; subst t; rotate_left; clear_value t)
    | (extract_lets +onlyGivenNames t; clear_value t)
    | with_reducible exact Only.refl _ _
    | with_reducible assumption
    | with_reducible apply OnlyP.of ?_
    | with_reducible apply OnlyP.cond _ ?_ ?_
    | with_reducible apply Only.cond _ ?_ ?_
    | with_reducible apply Only.count_plain ?_ ?_ (by decide) _ _
    | with_reducible apply Only.count ?_ ?_ ?_ ?_ _ _
    | exact Eq.refl _
    | extract_lets
    | split
    | with_reducible apply Only.set_tagRegs ?_ ?_ _)

theorem State.enterQueue_only (s : State) (id : ℕ) :
    Only (some [F.fabric, F.fresh, F.log, F.rings, P.LOG_FLAGS, P.LOG_HOLD_ACTIVE, P.LOG_RECORDS, P.LOG_SPILL_PEAK, P.LOG_SPILL_USED, P.LOG_UNLOGGED, P.LOG_UNROUTED]) s (State.enterQueue s id) := by
  unfold State.enterQueue
  repeat' (first
    | (extract_lets +onlyGivenNames t; refine Only.with_state (t := t) ?_ fun _ => ?_; subst t; rotate_left; clear_value t)
    | (extract_lets +onlyGivenNames t; refine Only.with_pair (t := t) ?_ fun _ => ?_; subst t; rotate_left; clear_value t)
    | (extract_lets +onlyGivenNames t; clear_value t)
    | with_reducible exact Only.refl _ _
    | with_reducible assumption
    | with_reducible apply Only.fst ?_ (State.logFrame_only ..) ?_
    | with_reducible apply Only.pair (by assumption) (State.logFrame_only ..) ?_ ?_
    | with_reducible apply OnlyP.step ?_ (State.logFrame_only ..) ?_
    | with_reducible apply Only.step ?_ (State.setFrame_only ..) ?_
    | with_reducible apply Only.step ?_ (State.setFab_only ..) ?_
    | exact Eq.refl _
    | extract_lets
    | split)

theorem State.slowTakes_only (s : State) (f : Frame) :
    Only (some [F.fabric]) s (State.slowTakes s f) := by
  unfold State.slowTakes
  repeat' (first
    | with_reducible exact Only.refl _ _
    | with_reducible assumption
    | with_reducible apply Only.cond _ ?_ ?_
    | with_reducible apply Only.step ?_ (State.setFab_only ..) ?_
    | exact Eq.refl _
    | split)

theorem State.overrun_only (s : State) (f : Frame) :
    Only (some [F.hidden, F.pad, F.windowAt, P.OBS_OVF, P.OBS_TRACE_DROP, P.OBS_TRACE_HEAD, P.OBS_TRACE_OLDEST, P.PRT_FLAGS, P.PRT_RX_OVERRUN]) s (State.overrun s f) := by
  unfold State.overrun
  repeat' (first
    | with_reducible exact Only.refl _ _
    | with_reducible assumption
    | with_reducible apply Only.orIn ?_ ?_ _ _
    | with_reducible apply Only.count_plain ?_ ?_ (by decide) _ _
    | with_reducible apply Only.count ?_ ?_ ?_ ?_ _ _
    | with_reducible apply Only.step ?_ (State.traceDrop_only ..) ?_
    | exact Eq.refl _)

theorem State.takeIn_only (s : State) (f : Frame) :
    Only (some [F.fabric, F.fresh, F.hidden, F.log, F.pad, F.rings, F.windowAt, P.LOG_FLAGS, P.LOG_HOLD_ACTIVE, P.LOG_RECORDS, P.LOG_SPILL_PEAK, P.LOG_SPILL_USED, P.LOG_UNLOGGED, P.LOG_UNROUTED, P.OBS_OVF, P.OBS_TRACE_DROP, P.OBS_TRACE_HEAD, P.OBS_TRACE_OLDEST, P.PRT_FLAGS, P.PRT_PFC_TX_XOFF, P.PRT_RX_OVERRUN, P.TBS_OVER_LIMIT_COUNT]) s (State.takeIn s f) := by
  unfold State.takeIn
  repeat' (first
    | (extract_lets +onlyGivenNames t; refine Only.with_state (t := t) ?_ fun _ => ?_; subst t; rotate_left; clear_value t)
    | (extract_lets +onlyGivenNames t; clear_value t)
    | with_reducible exact Only.refl _ _
    | with_reducible assumption
    | with_reducible apply Only.cond _ ?_ ?_
    | with_reducible apply Only.step ?_ (State.setFab_only ..) ?_
    | with_reducible apply Only.step ?_ (State.overrun_only ..) ?_
    | with_reducible apply Only.step ?_ (State.slowTakes_only ..) ?_
    | with_reducible apply Only.step ?_ (State.traceEvent_only ..) ?_
    | with_reducible apply Only.step ?_ (State.enterQueue_only ..) ?_
    | with_reducible apply Only.step ?_ (State.updateOff_only ..) ?_
    | with_reducible apply Only.step ?_ (State.fifoOne_only ..) ?_
    | exact Eq.refl _
    | extract_lets
    | split)

theorem State.keelTake_only (s : State) (f : Frame) :
    Only (some [F.fabric, F.quay, P.HST_FLAGS, P.HST_RXQ_BYPASS, P.HST_RXQ_BYTES, P.PRT_EGQ_BYTES, P.PWR_SHUTTER_DISCARD]) s (State.keelTake s f) := by
  unfold State.keelTake
  repeat' (first
    | (extract_lets +onlyGivenNames t; refine Only.with_state (t := t) ?_ fun _ => ?_; subst t; rotate_left; clear_value t)
    | (extract_lets +onlyGivenNames t; clear_value t)
    | with_reducible exact Only.refl _ _
    | with_reducible assumption
    | with_reducible apply Only.cond _ ?_ ?_
    | with_reducible apply Only.orIn ?_ ?_ _ _
    | with_reducible apply Only.count_plain ?_ ?_ (by decide) _ _
    | with_reducible apply Only.count ?_ ?_ ?_ ?_ _ _
    | with_reducible apply Only.step ?_ (State.setFab_only ..) ?_
    | with_reducible apply Only.step ?_ (State.queueBytes_only ..) ?_
    | with_reducible apply Only.step ?_ (State.setQuay_only ..) ?_
    | exact Eq.refl _
    | extract_lets
    | split)

theorem State.keelFrame_only (s : State) (p : ℕ) (bytes : List Byte) (bad : Bool) (raw : RawStamp) :
    Only (some [F.fabric, F.hidden, F.params, F.quay]) s (State.keelFrame s p bytes bad raw) := by
  unfold State.keelFrame
  repeat' (first
    | (extract_lets +onlyGivenNames t; refine Only.with_state (t := t) ?_ fun _ => ?_; subst t; rotate_left; clear_value t)
    | (extract_lets +onlyGivenNames t; refine Only.with_pair (t := t) ?_ fun _ => ?_; subst t; rotate_left; clear_value t)
    | (extract_lets +onlyGivenNames t; clear_value t)
    | with_reducible exact Only.refl _ _
    | with_reducible assumption
    | with_reducible apply Only.cond _ ?_ ?_
    | with_reducible apply Only.count_any ?_ ?_ _ ?_ _ _
    | with_reducible apply Only.step ?_ (State.stamped_only ..) ?_
    | with_reducible apply Only.fst ?_ (State.rxStamp_only ..) ?_
    | with_reducible apply Only.pair (by assumption) (State.rxStamp_only ..) ?_ ?_
    | with_reducible apply OnlyP.step ?_ (State.rxStamp_only ..) ?_
    | with_reducible apply Only.step ?_ (State.keelTake_only ..) ?_
    | exact Eq.refl _
    | extract_lets
    | split)

theorem execKeelFrame_only (port : Fin 512) (rx : Reception) (raw : RawStamp) (s : State) :
    OnlyO (some [F.fabric, F.hidden, F.params, F.quay]) s (execKeelFrame port rx raw s) := by
  unfold execKeelFrame
  repeat' (first
    | with_reducible exact Only.refl _ _
    | with_reducible assumption
    | with_reducible apply OnlyO.of ?_
    | with_reducible apply OnlyO.cond _ ?_ ?_
    | with_reducible apply Only.cond _ ?_ ?_
    | with_reducible apply Only.step ?_ (State.keelFrame_only ..) ?_
    | exact Eq.refl _
    | split)

theorem State.withdraw_only (s : State) (id : ℕ) :
    Only (some [F.fabric]) s (State.withdraw s id) := by
  unfold State.withdraw
  repeat' (first
    | with_reducible exact Only.refl _ _
    | with_reducible assumption
    | with_reducible apply Only.step ?_ (State.dropFrame_only ..) ?_
    | with_reducible apply Only.step ?_ (State.setFab_only ..) ?_
    | exact Eq.refl _
    | split)

/-- What is counted of a frame that ends early is the caller's. -/
theorem State.endEarly_only {W : Option (List Nat)} (s : State) (f : Frame) (bytes : List Byte) (lost : State → State)
    (h : ∀ t, Only W t (lost t)) (hw : within (some [F.fabric, F.hidden, P.OBS_OVF, P.PRT_RX_STOMP]) W = true) : Only W s (State.endEarly s f bytes lost) := by
  unfold State.endEarly
  refine Only.cond _ ((h s).step (State.withdraw_only ..) (within_trans (by exact Eq.refl _) hw)) (Only.mono (V := (some [F.fabric, F.hidden, P.OBS_OVF, P.PRT_RX_STOMP])) ?_ hw)
  exact Only.count (Only.step (Only.refl _ _) (State.setFrame_only ..) (by exact Eq.refl _)) (by exact Eq.refl _) (by exact Eq.refl _)
    (by exact Eq.refl _) _ _

theorem State.moreExpress_only (s : State) (id : ℕ) (bytes : List Byte) (ended : Bool) (bad : Bool) :
    Only (some [F.fabric, F.hidden, F.pad, F.windowAt, P.OBS_OVF, P.OBS_TRACE_DROP, P.OBS_TRACE_HEAD, P.OBS_TRACE_OLDEST, P.PRT_FLAGS, P.PRT_RX_OVERRUN, P.PRT_RX_OVERSIZE, P.PRT_RX_STOMP]) s (State.moreExpress s id bytes ended bad) := by
  unfold State.moreExpress
  repeat' (first
    | (extract_lets +onlyGivenNames t; refine Only.with_state (t := t) ?_ fun _ => ?_; subst t; rotate_left; clear_value t)
    | (extract_lets +onlyGivenNames t; clear_value t)
    | with_reducible exact Only.refl _ _
    | with_reducible assumption
    | with_reducible apply Only.cond _ ?_ ?_
    | with_reducible apply Only.orIn ?_ ?_ _ _
    | with_reducible apply Only.count_plain ?_ ?_ (by decide) _ _
    | with_reducible apply Only.count ?_ ?_ ?_ ?_ _ _
    | with_reducible apply Only.trans ?_ (State.endEarly_only _ _ _ _ ?_ ?_)
    | (intro u; show Only _ u _)
    | with_reducible apply Only.step ?_ (State.traceDrop_only ..) ?_
    | with_reducible apply Only.step ?_ (State.overrun_only ..) ?_
    | with_reducible apply Only.step ?_ (State.setFrame_only ..) ?_
    | exact Eq.refl _
    | extract_lets
    | split)

theorem execExpressStartTest_only (port : Fin 512) (bytes : List Byte) (ended : Bool) (bad : Bool) (streamErr : Bool) (macErr : Bool) (raw : RawStamp) (s : State) :
    OnlyO (some ([F.fabric, F.fresh, F.hidden, F.log, F.pad, F.rings, F.tables, F.tagRegs, F.windowAt, P.LOG_FLAGS, P.LOG_HOLD_ACTIVE, P.LOG_RECORDS, P.LOG_SPILL_PEAK, P.LOG_SPILL_USED, P.LOG_UNLOGGED, P.LOG_UNROUTED, P.OBS_OVF, P.OBS_TAG_COUNT, P.OBS_TRACE_DROP, P.OBS_TRACE_HEAD, P.OBS_TRACE_OLDEST, P.PRT_EXPRESS_DEMOTED, P.PRT_FLAGS, P.PRT_PFC_TX_XOFF] ++
      [P.PRT_RX_OVERRUN, P.PRT_RX_OVERSIZE, P.PRT_RX_STOMP, P.TBL_FLAGS, P.TBL_HAIRPIN, P.TBL_OCCUPANCY, P.TBL_STASH_USED, P.TBL_STREAM_ECC, P.TBS_OVER_LIMIT_COUNT])) s (execExpressStartTest port bytes ended bad streamErr macErr raw s) := by
  unfold execExpressStartTest
  repeat' (first
    | (extract_lets +onlyGivenNames t; refine OnlyO.with_state (t := t) ?_ fun _ => ?_; subst t; rotate_left; clear_value t)
    | (extract_lets +onlyGivenNames t; refine OnlyO.with_pair (t := t) ?_ fun _ => ?_; subst t; rotate_left; clear_value t)
    | (extract_lets +onlyGivenNames t; refine Only.with_state (t := t) ?_ fun _ => ?_; subst t; rotate_left; clear_value t)
    | (extract_lets +onlyGivenNames t; refine Only.with_pair (t := t) ?_ fun _ => ?_; subst t; rotate_left; clear_value t)
    | (extract_lets +onlyGivenNames t; clear_value t)
    | with_reducible exact Only.refl _ _
    | with_reducible assumption
    | with_reducible apply OnlyO.of ?_
    | with_reducible apply OnlyO.cond _ ?_ ?_
    | with_reducible apply Only.cond _ ?_ ?_
    | with_reducible apply Only.count_plain ?_ ?_ (by decide) _ _
    | with_reducible apply Only.count ?_ ?_ ?_ ?_ _ _
    | with_reducible apply Only.step ?_ (State.evaluateSluice_only ..) ?_
    | with_reducible apply Only.step ?_ (State.moreExpress_only ..) ?_
    | with_reducible apply Only.fst ?_ (State.lookup_only ..) ?_
    | with_reducible apply Only.pair (by assumption) (State.lookup_only ..) ?_ ?_
    | with_reducible apply OnlyP.step ?_ (State.lookup_only ..) ?_
    | with_reducible apply Only.fst ?_ (State.tagFrame_only ..) ?_
    | with_reducible apply Only.pair (by assumption) (State.tagFrame_only ..) ?_ ?_
    | with_reducible apply OnlyP.step ?_ (State.tagFrame_only ..) ?_
    | with_reducible apply Only.fst ?_ (State.rxStamp_only ..) ?_
    | with_reducible apply Only.pair (by assumption) (State.rxStamp_only ..) ?_ ?_
    | with_reducible apply OnlyP.step ?_ (State.rxStamp_only ..) ?_
    | with_reducible apply Only.step ?_ (State.setFab_only ..) ?_
    | with_reducible apply Only.step ?_ (State.takeIn_only ..) ?_
    | exact Eq.refl _
    | extract_lets
    | split)

theorem State.endExpress_only (s : State) (r : Receiving) (bytes : List Byte) (bad : Bool) :
    Only (some [F.fabric, F.hidden, F.pad, F.tables, F.windowAt, P.OBS_OVF, P.OBS_TRACE_DROP, P.OBS_TRACE_HEAD, P.OBS_TRACE_OLDEST, P.PRT_FLAGS, P.PRT_PFC_TX_XOFF, P.PRT_RX_OVERRUN, P.PRT_RX_OVERSIZE, P.PRT_RX_STOMP, P.TBL_LEARN_DROP, P.TBS_OVER_LIMIT_COUNT]) s (State.endExpress s r bytes bad) := by
  unfold State.endExpress
  repeat' (first
    | (extract_lets +onlyGivenNames t; refine Only.with_state (t := t) ?_ fun _ => ?_; subst t; rotate_left; clear_value t)
    | (extract_lets +onlyGivenNames t; clear_value t)
    | with_reducible exact Only.refl _ _
    | with_reducible assumption
    | with_reducible apply Only.cond _ ?_ ?_
    | with_reducible apply Only.step ?_ (State.setFab_only ..) ?_
    | with_reducible apply Only.step ?_ (State.moreExpress_only ..) ?_
    | with_reducible apply Only.step ?_ (State.learnRequest_only ..) ?_
    | with_reducible apply Only.step ?_ (State.evaluateSluice_only ..) ?_
    | exact Eq.refl _
    | extract_lets
    | split)

theorem execFrameReceived_only (port : Fin 512) (bytes : List Byte) (bad : Bool) (streamErr : Bool) (macErr : Bool) (raw : RawStamp) (s : State) :
    OnlyO (some [F.fabric, F.fresh, F.hidden, F.log, F.pad, F.params, F.quay, F.rings, F.tables, F.tagRegs, F.windowAt]) s (execFrameReceived port bytes bad streamErr macErr raw s) := by
  unfold execFrameReceived
  repeat' (first
    | (extract_lets +onlyGivenNames t; refine OnlyO.with_state (t := t) ?_ fun _ => ?_; subst t; rotate_left; clear_value t)
    | (extract_lets +onlyGivenNames t; refine OnlyO.with_pair (t := t) ?_ fun _ => ?_; subst t; rotate_left; clear_value t)
    | (extract_lets +onlyGivenNames t; refine Only.with_state (t := t) ?_ fun _ => ?_; subst t; rotate_left; clear_value t)
    | (extract_lets +onlyGivenNames t; refine Only.with_pair (t := t) ?_ fun _ => ?_; subst t; rotate_left; clear_value t)
    | (extract_lets +onlyGivenNames t; clear_value t)
    | with_reducible exact Only.refl _ _
    | with_reducible assumption
    | with_reducible apply OnlyO.of ?_
    | with_reducible apply OnlyO.cond _ ?_ ?_
    | with_reducible apply Only.cond _ ?_ ?_
    | with_reducible apply Only.count_any ?_ ?_ _ ?_ _ _
    | with_reducible apply Only.step ?_ (State.keelFrame_only ..) ?_
    | with_reducible apply Only.step ?_ (State.endExpress_only ..) ?_
    | with_reducible apply Only.step ?_ (State.stamped_only ..) ?_
    | with_reducible apply Only.fst ?_ (State.rxStamp_only ..) ?_
    | with_reducible apply Only.pair (by assumption) (State.rxStamp_only ..) ?_ ?_
    | with_reducible apply OnlyP.step ?_ (State.rxStamp_only ..) ?_
    | with_reducible apply Only.fst ?_ (State.tagFrame_only ..) ?_
    | with_reducible apply Only.pair (by assumption) (State.tagFrame_only ..) ?_ ?_
    | with_reducible apply OnlyP.step ?_ (State.tagFrame_only ..) ?_
    | with_reducible apply Only.fst ?_ (State.lookup_only ..) ?_
    | with_reducible apply Only.pair (by assumption) (State.lookup_only ..) ?_ ?_
    | with_reducible apply OnlyP.step ?_ (State.lookup_only ..) ?_
    | with_reducible apply Only.step ?_ (State.learnRequest_only ..) ?_
    | with_reducible apply Only.step ?_ (State.takeIn_only ..) ?_
    | exact Eq.refl _
    | extract_lets
    | split)

theorem execFrameAdmitted_only (inlet : Fin 64) (s : State) :
    OnlyO (some [F.fabric, F.fresh, F.log, F.rings, P.LOG_FLAGS, P.LOG_HOLD_ACTIVE, P.LOG_RECORDS, P.LOG_SPILL_PEAK, P.LOG_SPILL_USED, P.LOG_UNLOGGED, P.LOG_UNROUTED, P.PRT_PFC_TX_XOFF, P.TBS_OVER_LIMIT_COUNT]) s (execFrameAdmitted inlet s) := by
  unfold execFrameAdmitted
  repeat' (first
    | (extract_lets +onlyGivenNames t; refine OnlyO.with_state (t := t) ?_ fun _ => ?_; subst t; rotate_left; clear_value t)
    | (extract_lets +onlyGivenNames t; refine Only.with_state (t := t) ?_ fun _ => ?_; subst t; rotate_left; clear_value t)
    | (extract_lets +onlyGivenNames t; clear_value t)
    | with_reducible exact Only.refl _ _
    | with_reducible assumption
    | with_reducible apply OnlyO.of ?_
    | with_reducible apply Only.step ?_ (State.evaluateSluice_only ..) ?_
    | with_reducible apply Only.step ?_ (State.enterQueue_only ..) ?_
    | exact Eq.refl _
    | extract_lets
    | split)

end Sys2Proof.Machine
end

