-- ==== Sys2Proof/Laws/OnlyEgress.lean ====
section
/-! SUPPORT. What each operation of Machine/Egress.lean can change. -/

set_option linter.unusedTactic false
set_option linter.unreachableTactic false
set_option linter.tactic.unusedName false

namespace Sys2Proof.Machine

theorem State.abandonCopy_only (s : State) (c : Copy) (cause : ℕ) :
    Only (some ([F.cmd, F.fabric, F.fault, F.hidden, F.log, F.pad, F.quay, F.rings, F.txSlots, F.windowAt, P.BUF_DF_AGENT, P.BUF_DF_INDEX, P.BUF_DF_POOL, P.BUF_DF_TIME, P.BUF_DOUBLE_FREE, P.BUF_FLAGS, P.BUF_HELD, P.BUF_QUARANTINED, P.BUF_SIGNALS, P.CMD_NOTICE_DROP, P.HLT_FAULT_COUNT, P.HLT_STICKY, P.HST_RXQ_BYTES, P.LCK_COPY_ABANDON] ++
      [P.LOG_FLAGS, P.LOG_HOLD_ACTIVE, P.LOG_MARK_LOST, P.LOG_RECORDS, P.LOG_SPILL_PEAK, P.LOG_SPILL_USED, P.OBS_OVF, P.OBS_TRACE_DROP, P.OBS_TRACE_HEAD, P.OBS_TRACE_OLDEST, P.PRT_EGQ_BYTES, P.PRT_LINKDOWN_DROP])) s (State.abandonCopy s c cause) := by
  unfold State.abandonCopy
  repeat' (first
    | (extract_lets +onlyGivenNames t; refine Only.with_state (t := t) ?_ fun _ => ?_; subst t; rotate_left; clear_value t)
    | (extract_lets +onlyGivenNames t; clear_value t)
    | with_reducible exact Only.refl _ _
    | with_reducible assumption
    | with_reducible apply Only.count_plain ?_ ?_ (by decide) _ _
    | with_reducible apply Only.count ?_ ?_ ?_ ?_ _ _
    | with_reducible apply Only.step ?_ (State.traceDrop_only ..) ?_
    | with_reducible apply Only.step ?_ (State.logMark_only ..) ?_
    | with_reducible apply Only.step ?_ (State.releaseCopy_only ..) ?_
    | exact Eq.refl _
    | extract_lets
    | split)

theorem execCopyAbandon_only (port : Fin 512) (queue : Fin 9) (s : State) :
    OnlyO (some ([F.cmd, F.fabric, F.fault, F.hidden, F.log, F.pad, F.quay, F.rings, F.txSlots, F.windowAt, P.BUF_DF_AGENT, P.BUF_DF_INDEX, P.BUF_DF_POOL, P.BUF_DF_TIME, P.BUF_DOUBLE_FREE, P.BUF_FLAGS, P.BUF_HELD, P.BUF_QUARANTINED, P.BUF_SIGNALS, P.CMD_NOTICE_DROP, P.HLT_FAULT_COUNT, P.HLT_STICKY, P.HST_RXQ_BYTES, P.LCK_COPY_ABANDON] ++
      [P.LOG_FLAGS, P.LOG_HOLD_ACTIVE, P.LOG_MARK_LOST, P.LOG_RECORDS, P.LOG_SPILL_PEAK, P.LOG_SPILL_USED, P.OBS_OVF, P.OBS_TRACE_DROP, P.OBS_TRACE_HEAD, P.OBS_TRACE_OLDEST, P.PRT_EGQ_BYTES, P.PRT_LINKDOWN_DROP, P.PRT_PFC_TX_XOFF, P.TBS_OVER_LIMIT_COUNT])) s (execCopyAbandon port queue s) := by
  unfold execCopyAbandon
  repeat' (first
    | (extract_lets +onlyGivenNames t; refine OnlyO.with_state (t := t) ?_ fun _ => ?_; subst t; rotate_left; clear_value t)
    | (extract_lets +onlyGivenNames t; refine Only.with_state (t := t) ?_ fun _ => ?_; subst t; rotate_left; clear_value t)
    | (extract_lets +onlyGivenNames t; clear_value t)
    | with_reducible exact Only.refl _ _
    | with_reducible assumption
    | with_reducible apply OnlyO.of ?_
    | with_reducible apply OnlyO.cond _ ?_ ?_
    | with_reducible apply Only.cond _ ?_ ?_
    | with_reducible apply Only.step ?_ (State.evaluateSluice_only ..) ?_
    | with_reducible apply Only.step ?_ (State.abandonCopy_only ..) ?_
    | exact Eq.refl _
    | extract_lets
    | split)

theorem State.beginSend_only (s : State) (p : ℕ) (c : Copy) (f : Frame) (x : Stamp) (flags : ℕ) :
    Only (some [F.pad, F.quay, F.windowAt, P.OBS_TRACE_DROP, P.OBS_TRACE_HEAD, P.OBS_TRACE_OLDEST]) s (State.beginSend s p c f x flags) := by
  unfold State.beginSend
  repeat' (first
    | (extract_lets +onlyGivenNames t; refine Only.with_state (t := t) ?_ fun _ => ?_; subst t; rotate_left; clear_value t)
    | (extract_lets +onlyGivenNames t; clear_value t)
    | with_reducible exact Only.refl _ _
    | with_reducible assumption
    | with_reducible apply Only.step ?_ (State.setQuay_only ..) ?_
    | with_reducible apply Only.step ?_ (State.traceEvent_only ..) ?_
    | exact Eq.refl _
    | extract_lets)

theorem State.oversizeCopy_only (s : State) (p : ℕ) (c : Copy) (f : Frame) :
    Only (some ([F.cmd, F.fabric, F.fault, F.hidden, F.pad, F.quay, F.rings, F.txSlots, F.windowAt, P.BUF_DF_AGENT, P.BUF_DF_INDEX, P.BUF_DF_POOL, P.BUF_DF_TIME, P.BUF_DOUBLE_FREE, P.BUF_FLAGS, P.BUF_HELD, P.BUF_QUARANTINED, P.BUF_SIGNALS, P.CMD_NOTICE_DROP, P.HLT_FAULT_COUNT, P.HLT_STICKY, P.HST_RXQ_BYTES, P.OBS_OVF, P.OBS_TRACE_DROP] ++
      [P.OBS_TRACE_HEAD, P.OBS_TRACE_OLDEST, P.PRT_EGQ_BYTES, P.PRT_LINKDOWN_DROP, P.PRT_TX_OVERSIZE])) s (State.oversizeCopy s p c f) := by
  unfold State.oversizeCopy
  repeat' (first
    | with_reducible exact Only.refl _ _
    | with_reducible assumption
    | with_reducible apply Only.count_plain ?_ ?_ (by decide) _ _
    | with_reducible apply Only.count ?_ ?_ ?_ ?_ _ _
    | with_reducible apply Only.step ?_ (State.releaseCopy_only ..) ?_
    | with_reducible apply Only.step ?_ (State.traceDrop_only ..) ?_
    | exact Eq.refl _)

theorem execFrameTransmitStart_only (port : Fin 512) (raw : RawStamp) (s : State) :
    OnlyO (some ([F.cmd, F.fabric, F.fault, F.hidden, F.pad, F.quay, F.rings, F.txSlots, F.windowAt, P.BUF_DF_AGENT, P.BUF_DF_INDEX, P.BUF_DF_POOL, P.BUF_DF_TIME, P.BUF_DOUBLE_FREE, P.BUF_FLAGS, P.BUF_HELD, P.BUF_QUARANTINED, P.BUF_SIGNALS, P.CMD_NOTICE_DROP, P.HLT_FAULT_COUNT, P.HLT_STICKY, P.HST_RXQ_BYTES, P.LCK_FLAGS, P.LCK_GATE_OVERRUN] ++
      [P.OBS_OVF, P.OBS_TRACE_DROP, P.OBS_TRACE_HEAD, P.OBS_TRACE_OLDEST, P.PRT_EGQ_BYTES, P.PRT_LINKDOWN_DROP, P.PRT_PFC_TX_XOFF, P.PRT_TX_OVERSIZE, P.TBS_OVER_LIMIT_COUNT])) s (execFrameTransmitStart port raw s) := by
  unfold execFrameTransmitStart
  repeat' (first
    | (extract_lets +onlyGivenNames t; refine OnlyO.with_state (t := t) ?_ fun _ => ?_; subst t; rotate_left; clear_value t)
    | (extract_lets +onlyGivenNames t; refine OnlyO.with_pair (t := t) ?_ fun _ => ?_; subst t; rotate_left; clear_value t)
    | (extract_lets +onlyGivenNames t; refine Only.with_state (t := t) ?_ fun _ => ?_; subst t; rotate_left; clear_value t)
    | (extract_lets +onlyGivenNames t; refine Only.with_pair (t := t) ?_ fun _ => ?_; subst t; rotate_left; clear_value t)
    | (extract_lets +onlyGivenNames t; clear_value t)
    | with_reducible exact Only.refl _ _
    | with_reducible assumption
    | with_reducible apply OnlyO.of ?_
    | with_reducible apply OnlyO.cond _ ?_ ?_
    | with_reducible apply Only.cond _ ?_ ?_
    | with_reducible apply Only.orIn ?_ ?_ _ _
    | with_reducible apply Only.count_plain ?_ ?_ (by decide) _ _
    | with_reducible apply Only.count ?_ ?_ ?_ ?_ _ _
    | with_reducible apply Only.step ?_ (State.evaluateSluice_only ..) ?_
    | with_reducible apply Only.step ?_ (State.oversizeCopy_only ..) ?_
    | with_reducible apply Only.fst ?_ (State.txStamp_only ..) ?_
    | with_reducible apply Only.pair (by assumption) (State.txStamp_only ..) ?_ ?_
    | with_reducible apply OnlyP.step ?_ (State.txStamp_only ..) ?_
    | with_reducible apply Only.step ?_ (State.beginSend_only ..) ?_
    | exact Eq.refl _
    | extract_lets
    | split)

theorem State.deferredStamp_only (s : State) (p : ℕ) (t : ℤ) :
    OnlyP (some [P.TBS_OVER_LIMIT_COUNT]) s (State.deferredStamp s p t) := by
  unfold State.deferredStamp
  repeat' (first
    | (extract_lets +onlyGivenNames t; refine OnlyP.with_state (t := t) ?_ fun _ => ?_; subst t; rotate_left; clear_value t)
    | (extract_lets +onlyGivenNames t; refine Only.with_state (t := t) ?_ fun _ => ?_; subst t; rotate_left; clear_value t)
    | (extract_lets +onlyGivenNames t; clear_value t)
    | with_reducible exact Only.refl _ _
    | with_reducible assumption
    | with_reducible apply OnlyP.of ?_
    | with_reducible apply OnlyP.cond _ ?_ ?_
    | with_reducible apply Only.cond _ ?_ ?_
    | with_reducible apply Only.count_plain ?_ ?_ (by decide) _ _
    | with_reducible apply Only.count ?_ ?_ ?_ ?_ _ _
    | exact Eq.refl _
    | extract_lets
    | split)

theorem State.setLockCopy_only (s : State) (id : ℕ) (g : LockCopy → LockCopy) :
    Only (some [F.quay]) s (State.setLockCopy s id g) := by
  unfold State.setLockCopy
  repeat' (first
    | with_reducible exact Only.refl _ _
    | with_reducible assumption
    | with_reducible apply Only.step ?_ (State.setQuay_only ..) ?_
    | exact Eq.refl _)

theorem State.lateCopy_only (s : State) (p : ℕ) (c : Copy) (k : LockCopy) (cause : ℕ) :
    Only (some ([F.cmd, F.fabric, F.fault, F.hidden, F.log, F.pad, F.quay, F.rings, F.txSlots, F.windowAt, P.BUF_DF_AGENT, P.BUF_DF_INDEX, P.BUF_DF_POOL, P.BUF_DF_TIME, P.BUF_DOUBLE_FREE, P.BUF_FLAGS, P.BUF_HELD, P.BUF_QUARANTINED, P.BUF_SIGNALS, P.CMD_NOTICE_DROP, P.HLT_FAULT_COUNT, P.HLT_STICKY, P.HST_RXQ_BYTES, P.LCK_COPY_ABANDON] ++
      [P.LCK_FLAGS, P.LCK_LATE, P.LCK_LATE_CAUSE, P.LOG_FLAGS, P.LOG_HOLD_ACTIVE, P.LOG_MARK_LOST, P.LOG_RECORDS, P.LOG_SPILL_PEAK, P.LOG_SPILL_USED, P.OBS_OVF, P.OBS_TRACE_DROP, P.OBS_TRACE_HEAD, P.OBS_TRACE_OLDEST, P.PRT_EGQ_BYTES, P.PRT_LINKDOWN_DROP, P.PRT_PFC_TX_XOFF, P.TBS_OVER_LIMIT_COUNT])) s (State.lateCopy s p c k cause) := by
  unfold State.lateCopy
  repeat' (first
    | (extract_lets +onlyGivenNames t; refine Only.with_state (t := t) ?_ fun _ => ?_; subst t; rotate_left; clear_value t)
    | (extract_lets +onlyGivenNames t; clear_value t)
    | with_reducible exact Only.refl _ _
    | with_reducible assumption
    | with_reducible apply Only.cond _ ?_ ?_
    | with_reducible apply Only.orIn ?_ ?_ _ _
    | with_reducible apply Only.count_plain ?_ ?_ (by decide) _ _
    | with_reducible apply Only.count ?_ ?_ ?_ ?_ _ _
    | with_reducible apply Only.step ?_ (State.evaluateSluice_only ..) ?_
    | with_reducible apply Only.step ?_ (State.abandonCopy_only ..) ?_
    | with_reducible apply Only.step ?_ (State.setLockCopy_only ..) ?_
    | exact Eq.refl _
    | extract_lets
    | split)

theorem State.launchDue_only (s : State) (p : ℕ) (c : Copy) (k : LockCopy) (f : Frame) (pos : ℤ) :
    Only (some ([F.cmd, F.fabric, F.fault, F.hidden, F.log, F.pad, F.quay, F.rings, F.txSlots, F.windowAt, P.BUF_DF_AGENT, P.BUF_DF_INDEX, P.BUF_DF_POOL, P.BUF_DF_TIME, P.BUF_DOUBLE_FREE, P.BUF_FLAGS, P.BUF_HELD, P.BUF_QUARANTINED, P.BUF_SIGNALS, P.CMD_NOTICE_DROP, P.HLT_FAULT_COUNT, P.HLT_STICKY, P.HST_RXQ_BYTES, P.LCK_COPY_ABANDON] ++
      [P.LCK_FLAGS, P.LCK_LATE, P.LCK_LATE_CAUSE, P.LCK_RELEASES, P.LCK_SWITCH_DELAY, P.LOG_FLAGS, P.LOG_HOLD_ACTIVE, P.LOG_MARK_LOST, P.LOG_RECORDS, P.LOG_SPILL_PEAK, P.LOG_SPILL_USED, P.OBS_OVF, P.OBS_TRACE_DROP, P.OBS_TRACE_HEAD, P.OBS_TRACE_OLDEST, P.PRT_EGQ_BYTES, P.PRT_LINKDOWN_DROP, P.PRT_PFC_TX_XOFF, P.PRT_TX_OVERSIZE, P.TBS_OVER_LIMIT_COUNT])) s (State.launchDue s p c k f pos) := by
  unfold State.launchDue
  repeat' (first
    | (extract_lets +onlyGivenNames t; refine Only.with_state (t := t) ?_ fun _ => ?_; subst t; rotate_left; clear_value t)
    | (extract_lets +onlyGivenNames t; refine Only.with_pair (t := t) ?_ fun _ => ?_; subst t; rotate_left; clear_value t)
    | (extract_lets +onlyGivenNames t; clear_value t)
    | with_reducible exact Only.refl _ _
    | with_reducible assumption
    | with_reducible apply Only.cond _ ?_ ?_
    | with_reducible apply Only.orIn ?_ ?_ _ _
    | with_reducible apply Only.count_plain ?_ ?_ (by decide) _ _
    | with_reducible apply Only.count ?_ ?_ ?_ ?_ _ _
    | with_reducible apply Only.step ?_ (State.setLockCopy_only ..) ?_
    | with_reducible apply Only.step ?_ (State.lateCopy_only ..) ?_
    | with_reducible apply Only.step ?_ (State.evaluateSluice_only ..) ?_
    | with_reducible apply Only.step ?_ (State.oversizeCopy_only ..) ?_
    | with_reducible apply Only.fst ?_ (State.deferredStamp_only ..) ?_
    | with_reducible apply Only.pair (by assumption) (State.deferredStamp_only ..) ?_ ?_
    | with_reducible apply OnlyP.step ?_ (State.deferredStamp_only ..) ?_
    | with_reducible apply Only.step ?_ (State.beginSend_only ..) ?_
    | with_reducible apply Only.step ?_ (State.logMark_only ..) ?_
    | with_reducible apply Only.step ?_ (State.stamped_only ..) ?_
    | exact Eq.refl _
    | extract_lets
    | split)

theorem State.launchLate_only (s : State) (p : ℕ) (c : Copy) (cause : ℕ) (f : Frame) (pos : ℤ) :
    Only (some ([F.cmd, F.fabric, F.fault, F.hidden, F.log, F.pad, F.quay, F.rings, F.txSlots, F.windowAt, P.BUF_DF_AGENT, P.BUF_DF_INDEX, P.BUF_DF_POOL, P.BUF_DF_TIME, P.BUF_DOUBLE_FREE, P.BUF_FLAGS, P.BUF_HELD, P.BUF_QUARANTINED, P.BUF_SIGNALS, P.CMD_NOTICE_DROP, P.HLT_FAULT_COUNT, P.HLT_STICKY, P.HST_RXQ_BYTES, P.LOG_FLAGS] ++
      [P.LOG_HOLD_ACTIVE, P.LOG_MARK_LOST, P.LOG_RECORDS, P.LOG_SPILL_PEAK, P.LOG_SPILL_USED, P.OBS_OVF, P.OBS_TRACE_DROP, P.OBS_TRACE_HEAD, P.OBS_TRACE_OLDEST, P.PRT_EGQ_BYTES, P.PRT_LINKDOWN_DROP, P.PRT_PFC_TX_XOFF, P.PRT_TX_OVERSIZE, P.TBS_OVER_LIMIT_COUNT])) s (State.launchLate s p c cause f pos) := by
  unfold State.launchLate
  repeat' (first
    | (extract_lets +onlyGivenNames t; refine Only.with_state (t := t) ?_ fun _ => ?_; subst t; rotate_left; clear_value t)
    | (extract_lets +onlyGivenNames t; refine Only.with_pair (t := t) ?_ fun _ => ?_; subst t; rotate_left; clear_value t)
    | (extract_lets +onlyGivenNames t; clear_value t)
    | with_reducible exact Only.refl _ _
    | with_reducible assumption
    | with_reducible apply Only.fold _ _ (fun _ _ => ?_) ?_
    | with_reducible apply OnlyP.fold _ _ (fun _ _ => ?_) ?_
    | with_reducible apply OnlyP.of ?_
    | with_reducible apply OnlyP.cond _ ?_ ?_
    | with_reducible apply Only.cond _ ?_ ?_
    | with_reducible apply Only.step ?_ (State.evaluateSluice_only ..) ?_
    | with_reducible apply Only.step ?_ (State.oversizeCopy_only ..) ?_
    | with_reducible apply Only.step ?_ (State.beginSend_only ..) ?_
    | with_reducible apply Only.step ?_ (State.logMark_only ..) ?_
    | with_reducible apply Only.step ?_ (State.stamped_only ..) ?_
    | exact Eq.refl _
    | extract_lets
    | split)

theorem execCopyLaunch_only (port : Fin 512) (pos : ℤ) (s : State) :
    OnlyO (some ([F.cmd, F.fabric, F.fault, F.hidden, F.log, F.pad, F.quay, F.rings, F.txSlots, F.windowAt, P.BUF_DF_AGENT, P.BUF_DF_INDEX, P.BUF_DF_POOL, P.BUF_DF_TIME, P.BUF_DOUBLE_FREE, P.BUF_FLAGS, P.BUF_HELD, P.BUF_QUARANTINED, P.BUF_SIGNALS, P.CMD_NOTICE_DROP, P.HLT_FAULT_COUNT, P.HLT_STICKY, P.HST_RXQ_BYTES, P.LCK_COPY_ABANDON] ++
      [P.LCK_FLAGS, P.LCK_LATE, P.LCK_LATE_CAUSE, P.LCK_RELEASES, P.LCK_SWITCH_DELAY, P.LOG_FLAGS, P.LOG_HOLD_ACTIVE, P.LOG_MARK_LOST, P.LOG_RECORDS, P.LOG_SPILL_PEAK, P.LOG_SPILL_USED, P.OBS_OVF, P.OBS_TRACE_DROP, P.OBS_TRACE_HEAD, P.OBS_TRACE_OLDEST, P.PRT_EGQ_BYTES, P.PRT_LINKDOWN_DROP, P.PRT_PFC_TX_XOFF, P.PRT_TX_OVERSIZE, P.TBS_OVER_LIMIT_COUNT])) s (execCopyLaunch port pos s) := by
  unfold execCopyLaunch
  repeat' (first
    | (extract_lets +onlyGivenNames t; refine OnlyO.with_state (t := t) ?_ fun _ => ?_; subst t; rotate_left; clear_value t)
    | (extract_lets +onlyGivenNames t; refine Only.with_state (t := t) ?_ fun _ => ?_; subst t; rotate_left; clear_value t)
    | (extract_lets +onlyGivenNames t; clear_value t)
    | with_reducible exact Only.refl _ _
    | with_reducible assumption
    | with_reducible apply OnlyO.of ?_
    | with_reducible apply OnlyO.cond _ ?_ ?_
    | with_reducible apply Only.cond _ ?_ ?_
    | with_reducible apply Only.step ?_ (State.launchDue_only ..) ?_
    | with_reducible apply Only.step ?_ (State.launchLate_only ..) ?_
    | exact Eq.refl _
    | extract_lets
    | split)

set_option maxHeartbeats 2000000 in
theorem execTransmitComplete_only (port : Fin 512) (underrun : Bool) (parity : Bool) (s : State) :
    OnlyO (some ([F.cmd, F.fabric, F.fault, F.hidden, F.quay, F.rings, F.txSlots, P.BUF_DF_AGENT, P.BUF_DF_INDEX, P.BUF_DF_POOL, P.BUF_DF_TIME, P.BUF_DOUBLE_FREE, P.BUF_FLAGS, P.BUF_HELD, P.BUF_QUARANTINED, P.BUF_SIGNALS, P.CMD_NOTICE_DROP, P.HLT_FAULT_COUNT, P.HLT_STICKY, P.HST_RXQ_BYTES, P.OBS_OVF, P.PRT_EGQ_BYTES, P.PRT_FLAGS, P.PRT_LINKDOWN_DROP] ++
      [P.PRT_PFC_TX_XOFF, P.PRT_TX_OVERSIZE, P.PRT_TX_STOMP, P.TBS_OVER_LIMIT_COUNT, P.TBS_OVW_SKIP, P.TBS_PTP_SKIP, P.TBS_TRAILER_SKIP])) s (execTransmitComplete port underrun parity s) := by
  unfold execTransmitComplete
  repeat' (first
    | (extract_lets +onlyGivenNames t; refine OnlyO.with_state (t := t) ?_ fun _ => ?_; subst t; rotate_left; clear_value t)
    | (extract_lets +onlyGivenNames t; refine OnlyO.with_pair (t := t) ?_ fun _ => ?_; subst t; rotate_left; clear_value t)
    | (extract_lets +onlyGivenNames t; refine Only.with_state (t := t) ?_ fun _ => ?_; subst t; rotate_left; clear_value t)
    | (extract_lets +onlyGivenNames t; refine Only.with_pair (t := t) ?_ fun _ => ?_; subst t; rotate_left; clear_value t)
    | (extract_lets +onlyGivenNames t; clear_value t)
    | with_reducible exact Only.refl _ _
    | with_reducible assumption
    | with_reducible apply OnlyO.of ?_
    | with_reducible apply OnlyO.cond _ ?_ ?_
    | with_reducible apply Only.cond _ ?_ ?_
    | with_reducible apply Only.emit ?_ _
    | with_reducible apply Only.orIn ?_ ?_ _ _
    | with_reducible apply Only.count_plain ?_ ?_ (by decide) _ _
    | with_reducible apply Only.count ?_ ?_ ?_ ?_ _ _
    | with_reducible apply Only.fst ?_ (State.inserted_only ..) ?_
    | with_reducible apply Only.pair (by assumption) (State.inserted_only ..) ?_ ?_
    | with_reducible apply OnlyP.step ?_ (State.inserted_only ..) ?_
    | with_reducible apply Only.step ?_ (State.setGap_only ..) ?_
    | with_reducible apply Only.step ?_ (State.spoil_only ..) ?_
    | with_reducible apply Only.step ?_ (State.evaluateSluice_only ..) ?_
    | with_reducible apply Only.step ?_ (State.payFlow_only ..) ?_
    | with_reducible apply Only.step ?_ (State.releaseCopy_only ..) ?_
    | exact Eq.refl _
    | extract_lets
    | split)

theorem State.pauseClass_only (s : State) (p : ℕ) (c : ℕ) (quanta : ℕ) :
    Only (some [F.fabric]) s (State.pauseClass s p c quanta) := by
  unfold State.pauseClass
  repeat' (first
    | with_reducible exact Only.refl _ _
    | with_reducible assumption
    | with_reducible apply Only.cond _ ?_ ?_
    | with_reducible apply Only.step ?_ (State.setFab_only ..) ?_
    | exact Eq.refl _
    | split)

theorem execPfcReceived_only (port : Fin 512) (bytes : List Byte) (s : State) :
    OnlyO (some [F.fabric, P.PRT_PFC_RX_XOFF, P.TBS_OVER_LIMIT_COUNT]) s (execPfcReceived port bytes s) := by
  unfold execPfcReceived
  repeat' (first
    | (extract_lets +onlyGivenNames t; refine OnlyO.with_state (t := t) ?_ fun _ => ?_; subst t; rotate_left; clear_value t)
    | (extract_lets +onlyGivenNames t; refine OnlyO.with_pair (t := t) ?_ fun _ => ?_; subst t; rotate_left; clear_value t)
    | (extract_lets +onlyGivenNames t; refine Only.with_state (t := t) ?_ fun _ => ?_; subst t; rotate_left; clear_value t)
    | (extract_lets +onlyGivenNames t; refine Only.with_pair (t := t) ?_ fun _ => ?_; subst t; rotate_left; clear_value t)
    | (extract_lets +onlyGivenNames t; clear_value t)
    | with_reducible exact Only.refl _ _
    | with_reducible assumption
    | with_reducible apply OnlyO.of ?_
    | with_reducible apply OnlyO.cond _ ?_ ?_
    | with_reducible apply Only.fold _ _ (fun _ _ => ?_) ?_
    | with_reducible apply OnlyP.fold _ _ (fun _ _ => ?_) ?_
    | with_reducible apply OnlyP.of ?_
    | with_reducible apply OnlyP.cond _ ?_ ?_
    | with_reducible apply Only.cond _ ?_ ?_
    | with_reducible apply Only.count_plain ?_ ?_ (by decide) _ _
    | with_reducible apply Only.count ?_ ?_ ?_ ?_ _ _
    | with_reducible apply Only.step ?_ (State.stamped_only ..) ?_
    | with_reducible apply Only.step ?_ (State.pauseClass_only ..) ?_
    | exact Eq.refl _
    | extract_lets
    | split)

theorem execPauseExpiry_only (port : Fin 512) (cls : Fin 8) (s : State) :
    OnlyO (some [F.fabric]) s (execPauseExpiry port cls s) := by
  unfold execPauseExpiry
  repeat' (first
    | (extract_lets +onlyGivenNames t; refine OnlyO.with_state (t := t) ?_ fun _ => ?_; subst t; rotate_left; clear_value t)
    | (extract_lets +onlyGivenNames t; refine Only.with_state (t := t) ?_ fun _ => ?_; subst t; rotate_left; clear_value t)
    | (extract_lets +onlyGivenNames t; clear_value t)
    | with_reducible exact Only.refl _ _
    | with_reducible assumption
    | with_reducible apply OnlyO.of ?_
    | with_reducible apply OnlyO.cond _ ?_ ?_
    | with_reducible apply Only.cond _ ?_ ?_
    | with_reducible apply Only.step ?_ (State.setFab_only ..) ?_
    | exact Eq.refl _
    | extract_lets
    | split)

theorem State.cutReception_only (s : State) (p : ℕ) :
    Only (some [F.fabric, F.hidden, F.pad, F.windowAt, P.OBS_OVF, P.OBS_TRACE_DROP, P.OBS_TRACE_HEAD, P.OBS_TRACE_OLDEST, P.PRT_LINKDOWN_DROP]) s (State.cutReception s p) := by
  unfold State.cutReception
  repeat' (first
    | (extract_lets +onlyGivenNames t; refine Only.with_state (t := t) ?_ fun _ => ?_; subst t; rotate_left; clear_value t)
    | (extract_lets +onlyGivenNames t; clear_value t)
    | with_reducible exact Only.refl _ _
    | with_reducible assumption
    | with_reducible apply Only.cond _ ?_ ?_
    | with_reducible apply Only.count_plain ?_ ?_ (by decide) _ _
    | with_reducible apply Only.count ?_ ?_ ?_ ?_ _ _
    | with_reducible apply Only.step ?_ (State.setFab_only ..) ?_
    | with_reducible apply Only.step ?_ (State.withdraw_only ..) ?_
    | with_reducible apply Only.step ?_ (State.traceDrop_only ..) ?_
    | with_reducible apply Only.step ?_ (State.setFrame_only ..) ?_
    | exact Eq.refl _
    | extract_lets
    | split)

theorem State.dropWaiting_only (s : State) (p : ℕ) :
    Only (some [F.fabric, F.hidden, P.OBS_OVF, P.PRT_LINKDOWN_DROP]) s (State.dropWaiting s p) := by
  unfold State.dropWaiting
  repeat' (first
    | with_reducible exact Only.refl _ _
    | with_reducible assumption
    | with_reducible apply Only.fold _ _ (fun _ _ => ?_) ?_
    | with_reducible apply OnlyP.fold _ _ (fun _ _ => ?_) ?_
    | with_reducible apply OnlyP.of ?_
    | with_reducible apply OnlyP.cond _ ?_ ?_
    | with_reducible apply Only.cond _ ?_ ?_
    | with_reducible apply Only.count_plain ?_ ?_ (by decide) _ _
    | with_reducible apply Only.count ?_ ?_ ?_ ?_ _ _
    | with_reducible apply Only.step ?_ (State.withdraw_only ..) ?_
    | exact Eq.refl _
    | split)

theorem State.portDown_only (s : State) (p : ℕ) :
    Only (some ([F.cal, F.cmd, F.fabric, F.fault, F.fresh, F.hidden, F.linkRun, F.links, F.nhp, F.pad, F.quay, F.refs, F.rings, F.servo, F.txSlots, F.windowAt, P.BUF_DF_AGENT, P.BUF_DF_INDEX, P.BUF_DF_POOL, P.BUF_DF_TIME, P.BUF_DOUBLE_FREE, P.BUF_FLAGS, P.BUF_HELD, P.BUF_QUARANTINED] ++
      [P.BUF_SIGNALS, P.CMD_NOTICE_DROP, P.CMD_REFUSED_COUNT, P.HIE_NEIGHBOUR_ID, P.HIE_PORT_STATE, P.HIE_PORT_VERSION, P.HLT_FAULT_COUNT, P.HLT_STICKY, P.HST_RXQ_BYTES, P.LNK_BEVT, P.LNK_STATE, P.OBS_OVF, P.OBS_TRACE_DROP, P.OBS_TRACE_HEAD, P.OBS_TRACE_OLDEST, P.PRT_EGQ_BYTES, P.PRT_LINKDOWN_DROP, P.PRT_LINK_UP, P.PRT_PFC_TX_XOFF, P.REF_ACTIVE, P.REF_DEV, P.REF_FLAGS, P.REF_HO_C, P.REF_HO_D] ++
      [P.REF_HO_Y0, P.REF_QSTATE, P.REF_SWLOG_HEAD, P.REF_SWLOG_INFO, P.REF_SWLOG_TIME, P.REF_TSTATE, P.TBS_BOUND_NOW, P.TBS_BOUND_PS, P.TBS_DOM_SELECTED, P.TBS_OVER_LIMIT_COUNT])) s (State.portDown s p) := by
  unfold State.portDown
  repeat' (first
    | (extract_lets +onlyGivenNames t; refine Only.with_state (t := t) ?_ fun _ => ?_; subst t; rotate_left; clear_value t)
    | (extract_lets +onlyGivenNames t; clear_value t)
    | with_reducible exact Only.refl _ _
    | with_reducible assumption
    | with_reducible apply Only.cond _ ?_ ?_
    | with_reducible apply Only.wr ?_ ?_ _ _
    | with_reducible apply Only.count_plain ?_ ?_ (by decide) _ _
    | with_reducible apply Only.count ?_ ?_ ?_ ?_ _ _
    | with_reducible apply Only.step ?_ (State.dropWaiting_only ..) ?_
    | with_reducible apply Only.step ?_ (State.cutReception_only ..) ?_
    | with_reducible apply Only.trans ?_ (State.flushCopies_only _ _ _ _ ?_ ?_)
    | (intro u c; show Only _ u _)
    | with_reducible apply Only.step ?_ (State.traceDrop_only ..) ?_
    | with_reducible apply Only.step ?_ (State.setFab_only ..) ?_
    | with_reducible apply Only.step ?_ (State.setQuay_only ..) ?_
    | with_reducible apply Only.step ?_ (State.evaluateSluice_only ..) ?_
    | with_reducible apply Only.step ?_ (State.nhpSilent_only ..) ?_
    | with_reducible apply Only.step ?_ (State.linkDown_only ..) ?_
    | exact Eq.refl _
    | extract_lets
    | split)

theorem execPortLinkDown_only (port : Fin 512) (part : Bool) (upsets : List QuayUpset) (s : State) :
    OnlyO (some ([F.cal, F.cmd, F.fabric, F.fault, F.fresh, F.hidden, F.linkRun, F.links, F.nhp, F.pad, F.quay, F.refs, F.rings, F.servo, F.txSlots, F.windowAt, P.BUF_DF_AGENT, P.BUF_DF_INDEX, P.BUF_DF_POOL, P.BUF_DF_TIME, P.BUF_DOUBLE_FREE, P.BUF_FLAGS, P.BUF_HELD, P.BUF_QUARANTINED] ++
      [P.BUF_SIGNALS, P.CMD_NOTICE_DROP, P.CMD_REFUSED_COUNT, P.HIE_NEIGHBOUR_ID, P.HIE_PORT_STATE, P.HIE_PORT_VERSION, P.HLT_FAULT_COUNT, P.HLT_STICKY, P.HST_RXQ_BYTES, P.LNK_BEVT, P.LNK_STATE, P.OBS_OVF, P.OBS_TRACE_DROP, P.OBS_TRACE_HEAD, P.OBS_TRACE_OLDEST, P.PRT_EGQ_BYTES, P.PRT_LINKDOWN_DROP, P.PRT_LINK_UP, P.PRT_PFC_TX_XOFF, P.REF_ACTIVE, P.REF_DEV, P.REF_FLAGS, P.REF_HO_C, P.REF_HO_D] ++
      [P.REF_HO_Y0, P.REF_QSTATE, P.REF_SWLOG_HEAD, P.REF_SWLOG_INFO, P.REF_SWLOG_TIME, P.REF_TSTATE, P.TBS_BOUND_NOW, P.TBS_BOUND_PS, P.TBS_DOM_SELECTED, P.TBS_OVER_LIMIT_COUNT])) s (execPortLinkDown port part upsets s) := by
  unfold execPortLinkDown
  repeat' (first
    | (extract_lets +onlyGivenNames t; refine OnlyO.with_state (t := t) ?_ fun _ => ?_; subst t; rotate_left; clear_value t)
    | (extract_lets +onlyGivenNames t; refine Only.with_state (t := t) ?_ fun _ => ?_; subst t; rotate_left; clear_value t)
    | (extract_lets +onlyGivenNames t; clear_value t)
    | with_reducible exact Only.refl _ _
    | with_reducible assumption
    | with_reducible apply OnlyO.of ?_
    | with_reducible apply OnlyO.cond _ ?_ ?_
    | with_reducible apply Only.cond _ ?_ ?_
    | with_reducible apply Only.count_plain ?_ ?_ (by decide) _ _
    | with_reducible apply Only.count ?_ ?_ ?_ ?_ _ _
    | with_reducible apply Only.step ?_ (State.portDown_only ..) ?_
    | with_reducible apply Only.step ?_ (State.upset_only ..) ?_
    | with_reducible apply Only.fold _ _ (fun _ _ => ?_) ?_
    | exact Eq.refl _
    | extract_lets
    | split)

end Sys2Proof.Machine
end

