-- ==== Sys2Proof/Laws/OnlyTimebase.lean ====
section
/-! SUPPORT. What each operation of Machine/Timebase.lean can change. -/

set_option linter.unusedTactic false
set_option linter.unreachableTactic false
set_option linter.tactic.unusedName false

namespace Sys2Proof.Machine

theorem State.lateSwaps_only (s : State) (before : ℕ) :
    Only (some [F.lock]) s (State.lateSwaps s before) := by
  unfold State.lateSwaps
  repeat' (first
    | (extract_lets +onlyGivenNames t; refine Only.with_state (t := t) ?_ fun _ => ?_; subst t; rotate_left; clear_value t)
    | (extract_lets +onlyGivenNames t; clear_value t)
    | with_reducible exact Only.refl _ _
    | with_reducible assumption
    | with_reducible apply Only.step ?_ (State.setLock_only ..) ?_
    | exact Eq.refl _
    | extract_lets)

theorem State.stepTime_only (s : State) (t : TimeCount) :
    Only (some [F.lock, F.quay, F.servo, F.time, F.timeOut, P.REF_PHASE]) s (State.stepTime s t) := by
  unfold State.stepTime
  repeat' (first
    | (extract_lets +onlyGivenNames t; refine Only.with_state (t := t) ?_ fun _ => ?_; subst t; rotate_left; clear_value t)
    | (extract_lets +onlyGivenNames t; refine Only.with_pair (t := t) ?_ fun _ => ?_; subst t; rotate_left; clear_value t)
    | (extract_lets +onlyGivenNames t; have q : ℕ := t; clear q; clear_value t)
    | (extract_lets +onlyGivenNames t; have q : Bool := t; clear q; clear_value t)
    | (extract_lets +onlyGivenNames t; have q : ℤ := t; clear q; clear_value t)
    | (extract_lets +onlyGivenNames t; have q : Option _ := t; clear q; clear_value t)
    | (extract_lets +onlyGivenNames t; have q : List _ := t; clear q; clear_value t)
    | (extract_lets +onlyGivenNames t; have q : _ × _ := t; clear q; clear_value t)
    | with_reducible exact Only.refl _ _
    | with_reducible assumption
    | with_reducible apply Only.fold _ _ (fun _ _ => ?_) ?_
    | with_reducible apply OnlyP.fold _ _ (fun _ _ => ?_) ?_
    | with_reducible apply OnlyP.of ?_
    | with_reducible apply OnlyP.cond _ ?_ ?_
    | with_reducible apply Only.cond _ ?_ ?_
    | with_reducible apply Only.wrS ?_ ?_ _ _ _
    | with_reducible apply Only.step ?_ (State.setQuay_only ..) ?_
    | with_reducible apply Only.step ?_ (State.setServo_only ..) ?_
    | with_reducible apply Only.step ?_ (State.armLeap_only ..) ?_
    | with_reducible apply Only.step ?_ (State.lateSwaps_only ..) ?_
    | exact Eq.refl _
    | extract_lets
    | split
    | with_reducible apply Only.retime ?_ ?_ ?_ _)

theorem State.acceptSet_only (s : State) (sec : ℕ) :
    Only (some [F.time]) s (State.acceptSet s sec) := by
  unfold State.acceptSet
  repeat' (first
    | with_reducible exact Only.refl _ _
    | with_reducible assumption
    | with_reducible apply Only.cond _ ?_ ?_
    | exact Eq.refl _
    | split
    | with_reducible apply Only.set_time ?_ ?_ _ ?_)

theorem execSetSecRollover_only (s : State) :
    OnlyO (some [F.lock, F.quay, F.servo, F.time, F.timeOut, P.REF_PHASE]) s (execSetSecRollover s) := by
  unfold execSetSecRollover
  repeat' (first
    | (extract_lets +onlyGivenNames t; refine OnlyO.with_state (t := t) ?_ fun _ => ?_; subst t; rotate_left; clear_value t)
    | (extract_lets +onlyGivenNames t; refine Only.with_state (t := t) ?_ fun _ => ?_; subst t; rotate_left; clear_value t)
    | (extract_lets +onlyGivenNames t; have q : ℕ := t; clear q; clear_value t)
    | (extract_lets +onlyGivenNames t; have q : Bool := t; clear q; clear_value t)
    | (extract_lets +onlyGivenNames t; have q : ℤ := t; clear q; clear_value t)
    | (extract_lets +onlyGivenNames t; have q : Option _ := t; clear q; clear_value t)
    | (extract_lets +onlyGivenNames t; have q : List _ := t; clear q; clear_value t)
    | (extract_lets +onlyGivenNames t; have q : _ × _ := t; clear q; clear_value t)
    | with_reducible exact Only.refl _ _
    | with_reducible assumption
    | with_reducible apply OnlyO.of ?_
    | with_reducible apply OnlyO.cond _ ?_ ?_
    | with_reducible apply Only.cond _ ?_ ?_
    | with_reducible apply Only.step ?_ (State.stepTime_only ..) ?_
    | exact Eq.refl _
    | extract_lets
    | split
    | with_reducible apply Only.set_time ?_ ?_ _ ?_)

theorem execAcquireLock_only (sec : BitVec 48) (nano : Fin 1000000000) (s : State) :
    OnlyO (some [F.cmd, F.fault, F.lock, F.quay, F.refs, F.rings, F.servo, F.time, F.timeOut, P.CMD_NOTICE_DROP, P.HLT_FAULT_COUNT, P.HLT_STICKY, P.REF_ACTIVE, P.REF_DEV, P.REF_FLAGS, P.REF_PHASE, P.REF_SWLOG_HEAD, P.REF_SWLOG_INFO, P.REF_SWLOG_TIME, P.REF_TIME_SET, P.REF_TSTATE, P.TBS_BOUND_NOW, P.TBS_BOUND_PS, P.TBS_DOM_SELECTED]) s (execAcquireLock sec nano s) := by
  unfold execAcquireLock
  repeat' (first
    | (extract_lets +onlyGivenNames t; refine OnlyO.with_state (t := t) ?_ fun _ => ?_; subst t; rotate_left; clear_value t)
    | (extract_lets +onlyGivenNames t; refine Only.with_state (t := t) ?_ fun _ => ?_; subst t; rotate_left; clear_value t)
    | (extract_lets +onlyGivenNames t; clear_value t)
    | with_reducible exact Only.refl _ _
    | with_reducible assumption
    | with_reducible apply OnlyO.of ?_
    | with_reducible apply OnlyO.cond _ ?_ ?_
    | with_reducible apply Only.cond _ ?_ ?_
    | with_reducible apply Only.wr ?_ ?_ _ _
    | with_reducible apply Only.step ?_ (State.conclude_only ..) ?_
    | with_reducible apply Only.step ?_ (State.toLocked_only ..) ?_
    | with_reducible apply Only.step ?_ (State.stepTime_only ..) ?_
    | with_reducible apply Only.step ?_ (State.toUntraceable_only ..) ?_
    | exact Eq.refl _
    | extract_lets
    | split)

theorem execLeapSecond_only (s : State) :
    OnlyO (some [F.shadows, F.time, P.TBS_LEAP, P.TBS_UTC_OFFSET]) s (execLeapSecond s) := by
  unfold execLeapSecond
  repeat' (first
    | (extract_lets +onlyGivenNames t; refine OnlyO.with_state (t := t) ?_ fun _ => ?_; subst t; rotate_left; clear_value t)
    | (extract_lets +onlyGivenNames t; refine Only.with_state (t := t) ?_ fun _ => ?_; subst t; rotate_left; clear_value t)
    | (extract_lets +onlyGivenNames t; have q : ℕ := t; clear q; clear_value t)
    | (extract_lets +onlyGivenNames t; have q : Bool := t; clear q; clear_value t)
    | (extract_lets +onlyGivenNames t; have q : ℤ := t; clear q; clear_value t)
    | (extract_lets +onlyGivenNames t; have q : Option _ := t; clear q; clear_value t)
    | (extract_lets +onlyGivenNames t; have q : List _ := t; clear q; clear_value t)
    | (extract_lets +onlyGivenNames t; have q : _ × _ := t; clear q; clear_value t)
    | with_reducible exact Only.refl _ _
    | with_reducible assumption
    | with_reducible apply OnlyO.of ?_
    | with_reducible apply OnlyO.cond _ ?_ ?_
    | with_reducible apply Only.cond _ ?_ ?_
    | with_reducible apply Only.wrBoth ?_ ?_ ?_ _ _
    | exact Eq.refl _
    | extract_lets
    | split
    | with_reducible apply Only.set_time ?_ ?_ _ ?_)

end Sys2Proof.Machine
end

