-- ==== Sys2Proof/Laws/OnlyWake.lean ====
section
/-! SUPPORT. What each operation of Machine/Wake.lean can change. -/

set_option linter.unusedTactic false
set_option linter.unreachableTactic false
set_option linter.tactic.unusedName false

namespace Sys2Proof.Machine

theorem State.wakeCounts_only (s : State) :
    Only (some [P.PWR_WAKE_QUEUE_LEN, P.PWR_WAKE_SLOPE]) s (State.wakeCounts s) := by
  unfold State.wakeCounts
  repeat' (first
    | with_reducible exact Only.refl _ _
    | with_reducible assumption
    | with_reducible apply Only.wr ?_ ?_ _ _
    | exact Eq.refl _)

theorem State.setDomain_only (s : State) (d : ℕ) (q : ℕ) :
    Only (some [P.PWR_DOMAIN_STATE]) s (State.setDomain s d q) := by
  unfold State.setDomain
  repeat' (first
    | with_reducible exact Only.refl _ _
    | with_reducible assumption
    | with_reducible apply Only.wr ?_ ?_ _ _
    | exact Eq.refl _)

theorem State.setCal_only (s : State) (f : Calibration → Calibration) :
    Only (some [F.cal]) s (State.setCal s f) := by
  unfold State.setCal
  repeat' (first
    | with_reducible exact Only.refl _ _
    | with_reducible assumption
    | exact Eq.refl _
    | with_reducible apply Only.set_cal ?_ ?_ _)

theorem State.wakeStart_only (s : State) (r : WakeReq) :
    Only (some [F.cal, P.LAN_STATE, P.PWR_DOMAIN_STATE]) s (State.wakeStart s r) := by
  unfold State.wakeStart
  repeat' (first
    | (extract_lets +onlyGivenNames t; refine Only.with_state (t := t) ?_ fun _ => ?_; subst t; rotate_left; clear_value t)
    | (extract_lets +onlyGivenNames t; clear_value t)
    | with_reducible exact Only.refl _ _
    | with_reducible assumption
    | with_reducible apply Only.cond _ ?_ ?_
    | with_reducible apply Only.wr ?_ ?_ _ _
    | with_reducible apply Only.step ?_ (State.setDomain_only ..) ?_
    | with_reducible apply Only.step ?_ (State.setCal_only ..) ?_
    | exact Eq.refl _
    | extract_lets
    | split)

theorem State.wakeTicket_only (s : State) (r : WakeReq) :
    Only (some [F.cmd, F.power, F.rings, P.CMD_NOTICE_DROP]) s (State.wakeTicket s r) := by
  unfold State.wakeTicket
  repeat' (first
    | with_reducible exact Only.refl _ _
    | with_reducible assumption
    | with_reducible apply Only.cond _ ?_ ?_
    | with_reducible apply Only.step ?_ (State.notice_only ..) ?_
    | with_reducible apply Only.step ?_ (State.setPower_only ..) ?_
    | exact Eq.refl _
    | split)

theorem State.wakeAdmit_only (s : State) (r : WakeReq) (rest : List WakeReq) :
    Only (some [F.cal, F.cmd, F.power, F.rings, P.CMD_NOTICE_DROP, P.LAN_STATE, P.PWR_DOMAIN_STATE, P.PWR_WAKE_ADMITTED, P.PWR_WAKE_MAX_WAIT, P.PWR_WAKE_QUEUE_LEN, P.PWR_WAKE_SLOPE]) s (State.wakeAdmit s r rest) := by
  unfold State.wakeAdmit
  repeat' (first
    | (extract_lets +onlyGivenNames t; refine Only.with_state (t := t) ?_ fun _ => ?_; subst t; rotate_left; clear_value t)
    | (extract_lets +onlyGivenNames t; clear_value t)
    | with_reducible exact Only.refl _ _
    | with_reducible assumption
    | with_reducible apply Only.cond _ ?_ ?_
    | with_reducible apply Only.peak ?_ ?_ _ _
    | with_reducible apply Only.count_plain ?_ ?_ (by decide) _ _
    | with_reducible apply Only.count ?_ ?_ ?_ ?_ _ _
    | with_reducible apply Only.step ?_ (State.setPower_only ..) ?_
    | with_reducible apply Only.step ?_ (State.wakeCounts_only ..) ?_
    | with_reducible apply Only.step ?_ (State.wakeTicket_only ..) ?_
    | with_reducible apply Only.step ?_ (State.wakeStart_only ..) ?_
    | exact Eq.refl _
    | extract_lets
    | split)

theorem State.wakeRun_only (s : State) (n : Nat) : Only (some [F.cal, F.cmd, F.power, F.rings, P.CMD_NOTICE_DROP, P.LAN_STATE, P.PWR_DOMAIN_STATE, P.PWR_WAKE_ADMITTED, P.PWR_WAKE_MAX_WAIT, P.PWR_WAKE_QUEUE_LEN, P.PWR_WAKE_SLOPE]) s (State.wakeRun s n) := by
  induction n generalizing s with
  | zero => exact Only.refl _ _
  | succ n ih =>
    unfold State.wakeRun
    split
    · exact Only.refl _ _
    · exact Only.cond _ (Only.trans ((State.wakeAdmit_only ..).mono (by exact Eq.refl _)) (ih ..)) (Only.refl _ _)

theorem State.wakeAsk_only (s : State) (k : WakeKind) (n : ℕ) (ticket : Option ℕ) :
    Only (some [F.cal, F.cmd, F.power, F.rings, P.CMD_NOTICE_DROP, P.LAN_STATE, P.PWR_DOMAIN_STATE, P.PWR_WAKE_ADMITTED, P.PWR_WAKE_MAX_WAIT, P.PWR_WAKE_QUEUE_LEN, P.PWR_WAKE_SLOPE, P.PWR_WAKE_WAITED]) s (State.wakeAsk s k n ticket) := by
  unfold State.wakeAsk
  repeat' (first
    | (extract_lets +onlyGivenNames t; refine Only.with_state (t := t) ?_ fun _ => ?_; subst t; rotate_left; clear_value t)
    | (extract_lets +onlyGivenNames t; clear_value t)
    | with_reducible exact Only.refl _ _
    | with_reducible assumption
    | with_reducible apply Only.cond _ ?_ ?_
    | with_reducible apply Only.count_plain ?_ ?_ (by decide) _ _
    | with_reducible apply Only.count ?_ ?_ ?_ ?_ _ _
    | with_reducible apply Only.step ?_ (State.setPower_only ..) ?_
    | with_reducible apply Only.step ?_ (State.wakeRun_only ..) ?_
    | with_reducible apply Only.step ?_ (State.wakeCounts_only ..) ?_
    | exact Eq.refl _
    | extract_lets
    | split)

theorem State.wakeDomain_only (s : State) (d : ℕ) (ticket : Option ℕ) :
    Only (some [F.cal, F.cmd, F.power, F.rings, P.CMD_NOTICE_DROP, P.LAN_STATE, P.PWR_DOMAIN_STATE, P.PWR_WAKE_ADMITTED, P.PWR_WAKE_MAX_WAIT, P.PWR_WAKE_QUEUE_LEN, P.PWR_WAKE_SLOPE, P.PWR_WAKE_WAITED]) s (State.wakeDomain s d ticket) := by
  unfold State.wakeDomain
  repeat' (first
    | with_reducible exact Only.refl _ _
    | with_reducible assumption
    | with_reducible apply Only.cond _ ?_ ?_
    | with_reducible apply Only.step ?_ (State.wakeAsk_only ..) ?_
    | with_reducible apply Only.step ?_ (State.setDomain_only ..) ?_
    | exact Eq.refl _
    | split)

theorem State.wakeCancel_only (s : State) (gone : WakeReq → Bool) :
    Only (some [F.power, P.PWR_WAKE_QUEUE_LEN, P.PWR_WAKE_SLOPE]) s (State.wakeCancel s gone) := by
  unfold State.wakeCancel
  repeat' (first
    | (extract_lets +onlyGivenNames t; refine Only.with_state (t := t) ?_ fun _ => ?_; subst t; rotate_left; clear_value t)
    | (extract_lets +onlyGivenNames t; clear_value t)
    | with_reducible exact Only.refl _ _
    | with_reducible assumption
    | with_reducible apply Only.step ?_ (State.wakeCounts_only ..) ?_
    | with_reducible apply Only.step ?_ (State.setPower_only ..) ?_
    | exact Eq.refl _
    | extract_lets)

theorem State.wakeReply_only (s : State) (o : Origin) (ticket : ℕ) :
    Only (some [F.cmd, F.power, F.rings, P.CMD_REFUSED_COUNT, P.TBS_OVER_LIMIT_COUNT]) s (State.wakeReply s o ticket) := by
  unfold State.wakeReply
  repeat' (first
    | (extract_lets +onlyGivenNames t; refine Only.with_state (t := t) ?_ fun _ => ?_; subst t; rotate_left; clear_value t)
    | (extract_lets +onlyGivenNames t; clear_value t)
    | with_reducible exact Only.refl _ _
    | with_reducible assumption
    | with_reducible apply Only.cond _ ?_ ?_
    | with_reducible apply Only.step ?_ (State.finish_only ..) ?_
    | with_reducible apply Only.step ?_ (State.setPower_only ..) ?_
    | exact Eq.refl _
    | extract_lets
    | split)

theorem State.newTicket_only (s : State) :
    OnlyP (some [F.power]) s (State.newTicket s) := by
  unfold State.newTicket
  repeat' (first
    | with_reducible exact Only.refl _ _
    | with_reducible assumption
    | with_reducible apply OnlyP.of ?_
    | with_reducible apply Only.step ?_ (State.setPower_only ..) ?_
    | exact Eq.refl _)

theorem execWakeAdmitted_only (s : State) :
    OnlyO (some [F.cal, F.cmd, F.power, F.rings, P.CMD_NOTICE_DROP, P.LAN_STATE, P.PWR_DOMAIN_STATE, P.PWR_WAKE_ADMITTED, P.PWR_WAKE_MAX_WAIT, P.PWR_WAKE_QUEUE_LEN, P.PWR_WAKE_SLOPE]) s (execWakeAdmitted s) := by
  unfold execWakeAdmitted
  repeat' (first
    | with_reducible exact Only.refl _ _
    | with_reducible assumption
    | with_reducible apply OnlyO.of ?_
    | with_reducible apply Only.step ?_ (State.wakeRun_only ..) ?_
    | exact Eq.refl _)

theorem execRampEnd_only (s : State) :
    OnlyO (some [F.power, P.PWR_WAKE_QUEUE_LEN, P.PWR_WAKE_SLOPE]) s (execRampEnd s) := by
  unfold execRampEnd
  repeat' (first
    | with_reducible exact Only.refl _ _
    | with_reducible assumption
    | with_reducible apply OnlyO.of ?_
    | with_reducible apply Only.step ?_ (State.wakeCounts_only ..) ?_
    | with_reducible apply Only.step ?_ (State.setPower_only ..) ?_
    | exact Eq.refl _)

end Sys2Proof.Machine
end

