-- ==== Sys2Proof/Laws/OnlyCalib.lean ====
section
/-! SUPPORT. What each operation of Machine/Calib.lean can change. -/

set_option linter.unusedTactic false
set_option linter.unreachableTactic false
set_option linter.tactic.unusedName false

namespace Sys2Proof.Machine

theorem State.showResidual_only (s : State) (i : CalItem) :
    Only (some ([F.cmd, F.fault, F.fresh, F.refs, F.rings, F.servo, P.CAL_OUT_RES, P.CAL_PORT_RES, P.CAL_REFIN_RES, P.CMD_NOTICE_DROP, P.EVT_RES, P.HLT_FAULT_COUNT, P.HLT_STICKY, P.REF_ACTIVE, P.REF_BREF, P.REF_DEV, P.REF_FLAGS, P.REF_HO_C, P.REF_HO_D, P.REF_HO_Y0, P.REF_KIND, P.REF_QSTATE, P.REF_SWLOG_HEAD, P.REF_SWLOG_INFO] ++
      [P.REF_SWLOG_TIME, P.REF_TSTATE, P.TBS_BOUND_NOW, P.TBS_BOUND_PS, P.TBS_DOM_SELECTED])) s (State.showResidual s i) := by
  unfold State.showResidual
  repeat' (first
    | with_reducible exact Only.refl _ _
    | with_reducible assumption
    | with_reducible apply Only.fold _ _ (fun _ _ => ?_) ?_
    | with_reducible apply OnlyP.fold _ _ (fun _ _ => ?_) ?_
    | with_reducible apply OnlyP.of ?_
    | with_reducible apply Only.wr ?_ ?_ _ _
    | with_reducible apply Only.step ?_ (State.linkBref_only ..) ?_
    | with_reducible apply Only.step ?_ (State.refreshRef_only ..) ?_
    | exact Eq.refl _
    | split)

theorem State.setSlicers_only (s : State) (l : ℕ) (codes : List ℤ) :
    Only (some [P.LAN_SLICER]) s (State.setSlicers s l codes) := by
  unfold State.setSlicers
  repeat' (first
    | with_reducible exact Only.refl _ _
    | with_reducible assumption
    | with_reducible apply Only.fold _ _ (fun _ _ => ?_) ?_
    | with_reducible apply OnlyP.fold _ _ (fun _ _ => ?_) ?_
    | with_reducible apply OnlyP.of ?_
    | with_reducible apply OnlyP.cond _ ?_ ?_
    | with_reducible apply Only.cond _ ?_ ?_
    | with_reducible apply Only.wr ?_ ?_ _ _
    | exact Eq.refl _
    | split)

theorem State.setTcal_only (s : State) (i : CalItem) (t : ℤ) :
    Only (some [F.cal, P.CAL_LANE_TCAL]) s (State.setTcal s i t) := by
  unfold State.setTcal
  repeat' (first
    | with_reducible exact Only.refl _ _
    | with_reducible assumption
    | with_reducible apply Only.cond _ ?_ ?_
    | with_reducible apply Only.wrS ?_ ?_ _ _ _
    | with_reducible apply Only.step ?_ (State.setCal_only ..) ?_
    | exact Eq.refl _
    | split)

theorem State.applyLane_only (s : State) (l : ℕ) (m : CalMeasure) :
    Only (some ([F.cal, F.cmd, F.fault, F.fresh, F.refs, F.rings, F.servo, P.CAL_DRX, P.CAL_DTX, P.CAL_EYE_H, P.CAL_EYE_W, P.CAL_LANE_TCAL, P.CAL_OUT_RES, P.CAL_PORT_RES, P.CAL_REFIN_RES, P.CMD_NOTICE_DROP, P.EVT_RES, P.HLT_FAULT_COUNT, P.HLT_STICKY, P.LAN_SLICER, P.LCK_TXPATH, P.LCK_WINDOW, P.REF_ACTIVE, P.REF_BREF] ++
      [P.REF_DEV, P.REF_FLAGS, P.REF_HO_C, P.REF_HO_D, P.REF_HO_Y0, P.REF_KIND, P.REF_QSTATE, P.REF_SWLOG_HEAD, P.REF_SWLOG_INFO, P.REF_SWLOG_TIME, P.REF_TSTATE, P.TBS_BOUND_NOW, P.TBS_BOUND_PS, P.TBS_DOM_SELECTED])) s (State.applyLane s l m) := by
  unfold State.applyLane
  repeat' (first
    | (extract_lets +onlyGivenNames t; refine Only.with_state (t := t) ?_ fun _ => ?_; subst t; rotate_left; clear_value t)
    | (extract_lets +onlyGivenNames t; have q : ℕ := t; clear q; clear_value t)
    | (extract_lets +onlyGivenNames t; have q : Bool := t; clear q; clear_value t)
    | (extract_lets +onlyGivenNames t; have q : ℤ := t; clear q; clear_value t)
    | (extract_lets +onlyGivenNames t; have q : Option _ := t; clear q; clear_value t)
    | (extract_lets +onlyGivenNames t; have q : List _ := t; clear q; clear_value t)
    | (extract_lets +onlyGivenNames t; have q : _ × _ := t; clear q; clear_value t)
    | with_reducible exact Only.refl _ _
    | with_reducible assumption
    | with_reducible apply Only.cond _ ?_ ?_
    | with_reducible apply Only.wr ?_ ?_ _ _
    | with_reducible apply Only.step ?_ (State.setSlicers_only ..) ?_
    | with_reducible apply Only.step ?_ (State.setCal_only ..) ?_
    | with_reducible apply Only.step ?_ (State.refreshPath_only ..) ?_
    | with_reducible apply Only.step ?_ (State.showResidual_only ..) ?_
    | with_reducible apply Only.step ?_ (State.setTcal_only ..) ?_
    | exact Eq.refl _
    | extract_lets
    | split)

theorem State.showEvtDelay_only (s : State) (i : ℕ) :
    Only (some [P.CAL_EVT_DELAY]) s (State.showEvtDelay s i) := by
  unfold State.showEvtDelay
  repeat' (first
    | with_reducible exact Only.refl _ _
    | with_reducible assumption
    | with_reducible apply Only.wr ?_ ?_ _ _
    | exact Eq.refl _)

theorem State.applyItem_only (s : State) (i : CalItem) (m : CalMeasure) :
    Only (some ([F.cal, F.cmd, F.fault, F.fresh, F.refs, F.rings, F.servo, P.CAL_DRX, P.CAL_DTX, P.CAL_EVT_DELAY, P.CAL_EYE_H, P.CAL_EYE_W, P.CAL_LANE_TCAL, P.CAL_OUT_RES, P.CAL_PORT_RES, P.CAL_REFIN_DELAY, P.CAL_REFIN_RES, P.CMD_NOTICE_DROP, P.EVT_RES, P.HLT_FAULT_COUNT, P.HLT_STICKY, P.LAN_SLICER, P.LCK_TXPATH, P.LCK_WINDOW] ++
      [P.REF_ACTIVE, P.REF_BREF, P.REF_DEV, P.REF_FLAGS, P.REF_HO_C, P.REF_HO_D, P.REF_HO_Y0, P.REF_KIND, P.REF_QSTATE, P.REF_SWLOG_HEAD, P.REF_SWLOG_INFO, P.REF_SWLOG_TIME, P.REF_TSTATE, P.TBS_BOUND_NOW, P.TBS_BOUND_PS, P.TBS_DOM_SELECTED])) s (State.applyItem s i m) := by
  unfold State.applyItem
  repeat' (first
    | (extract_lets +onlyGivenNames t; refine Only.with_state (t := t) ?_ fun _ => ?_; subst t; rotate_left; clear_value t)
    | (extract_lets +onlyGivenNames t; refine Only.with_pair (t := t) ?_ fun _ => ?_; subst t; rotate_left; clear_value t)
    | (extract_lets +onlyGivenNames t; clear_value t)
    | with_reducible exact Only.refl _ _
    | with_reducible assumption
    | with_reducible apply Only.fold _ _ (fun _ _ => ?_) ?_
    | with_reducible apply OnlyP.fold _ _ (fun _ _ => ?_) ?_
    | with_reducible apply OnlyP.of ?_
    | with_reducible apply Only.wr ?_ ?_ _ _
    | with_reducible apply Only.step ?_ (State.applyLane_only ..) ?_
    | with_reducible apply Only.step ?_ (State.showResidual_only ..) ?_
    | with_reducible apply Only.step ?_ (State.setTcal_only ..) ?_
    | with_reducible apply Only.step ?_ (State.setCal_only ..) ?_
    | with_reducible apply Only.step ?_ (State.showEvtDelay_only ..) ?_
    | exact Eq.refl _
    | extract_lets
    | split)

theorem State.calSchedule_only (s : State) (n : Nat) : Only (some [F.cal, F.cmd, F.power, F.rings, P.CMD_NOTICE_DROP, P.LAN_STATE, P.PWR_DOMAIN_STATE, P.PWR_WAKE_ADMITTED, P.PWR_WAKE_MAX_WAIT, P.PWR_WAKE_QUEUE_LEN, P.PWR_WAKE_SLOPE, P.PWR_WAKE_WAITED]) s (State.calSchedule s n) := by
  induction n generalizing s with
  | zero => exact Only.refl _ _
  | succ n ih =>
    unfold State.calSchedule
    dsimp only
    refine Only.cond _ (Only.refl _ _) ?_
    split
    · exact Only.refl _ _
    · exact Only.trans (Only.step ((State.setCal_only ..).mono (by exact Eq.refl _)) (State.wakeAsk_only ..) (by exact Eq.refl _)) (ih ..)

theorem State.calStart_only (s : State) :
    Only (some [F.cal, F.cmd, F.power, F.rings, P.CMD_NOTICE_DROP, P.LAN_STATE, P.PWR_DOMAIN_STATE, P.PWR_WAKE_ADMITTED, P.PWR_WAKE_MAX_WAIT, P.PWR_WAKE_QUEUE_LEN, P.PWR_WAKE_SLOPE, P.PWR_WAKE_WAITED]) s (State.calStart s) := by
  unfold State.calStart
  repeat' (first
    | with_reducible exact Only.refl _ _
    | with_reducible assumption
    | with_reducible apply Only.step ?_ (State.calSchedule_only ..) ?_
    | exact Eq.refl _)

theorem State.calForget_only (s : State) (i : CalItem) :
    Only (some [F.cal]) s (State.calForget s i) := by
  unfold State.calForget
  repeat' (first
    | with_reducible exact Only.refl _ _
    | with_reducible assumption
    | with_reducible apply Only.step ?_ (State.setCal_only ..) ?_
    | exact Eq.refl _)

theorem State.startupTest_only (s : State) (was : Bool) :
    Only (some [P.CAL_STARTUP_DONE]) s (State.startupTest s was) := by
  unfold State.startupTest
  repeat' (first
    | with_reducible exact Only.refl _ _
    | with_reducible assumption
    | with_reducible apply Only.cond _ ?_ ?_
    | with_reducible apply Only.wr ?_ ?_ _ _
    | exact Eq.refl _
    | split)

theorem State.runCount_only (s : State) (i : CalItem) (f : CalRun → CalRun) :
    Only (some [F.cal]) s (State.runCount s i f) := by
  unfold State.runCount
  repeat' (first
    | (extract_lets +onlyGivenNames t; refine Only.with_state (t := t) ?_ fun _ => ?_; subst t; rotate_left; clear_value t)
    | (extract_lets +onlyGivenNames t; have q : ℕ := t; clear q; clear_value t)
    | (extract_lets +onlyGivenNames t; have q : Bool := t; clear q; clear_value t)
    | (extract_lets +onlyGivenNames t; have q : ℤ := t; clear q; clear_value t)
    | (extract_lets +onlyGivenNames t; have q : Option _ := t; clear q; clear_value t)
    | (extract_lets +onlyGivenNames t; have q : List _ := t; clear q; clear_value t)
    | (extract_lets +onlyGivenNames t; have q : _ × _ := t; clear q; clear_value t)
    | with_reducible exact Only.refl _ _
    | with_reducible assumption
    | with_reducible apply Only.cond _ ?_ ?_
    | with_reducible apply Only.step ?_ (State.setCal_only ..) ?_
    | exact Eq.refl _
    | extract_lets
    | split)

theorem State.calFailed_only (s : State) (i : CalItem) :
    Only (some [F.cal, F.cmd, F.power, F.rings, P.CAL_FLAGS, P.CMD_NOTICE_DROP, P.LAN_STATE, P.PWR_DOMAIN_STATE, P.PWR_WAKE_ADMITTED, P.PWR_WAKE_MAX_WAIT, P.PWR_WAKE_QUEUE_LEN, P.PWR_WAKE_SLOPE, P.PWR_WAKE_WAITED]) s (State.calFailed s i) := by
  unfold State.calFailed
  repeat' (first
    | (extract_lets +onlyGivenNames t; refine Only.with_state (t := t) ?_ fun _ => ?_; subst t; rotate_left; clear_value t)
    | (extract_lets +onlyGivenNames t; clear_value t)
    | with_reducible exact Only.refl _ _
    | with_reducible assumption
    | with_reducible apply Only.cond _ ?_ ?_
    | with_reducible apply Only.orIn ?_ ?_ _ _
    | with_reducible apply Only.step ?_ (State.calStart_only ..) ?_
    | with_reducible apply Only.step ?_ (State.setCal_only ..) ?_
    | with_reducible apply Only.step ?_ (State.runCount_only ..) ?_
    | exact Eq.refl _
    | extract_lets
    | split)

theorem State.calSkipped_only (s : State) (i : CalItem) :
    Only (some [F.cal, F.cmd, F.power, F.rings, P.CMD_NOTICE_DROP, P.LAN_STATE, P.PWR_DOMAIN_STATE, P.PWR_WAKE_ADMITTED, P.PWR_WAKE_MAX_WAIT, P.PWR_WAKE_QUEUE_LEN, P.PWR_WAKE_SLOPE, P.PWR_WAKE_WAITED]) s (State.calSkipped s i) := by
  unfold State.calSkipped
  repeat' (first
    | with_reducible exact Only.refl _ _
    | with_reducible assumption
    | with_reducible apply Only.step ?_ (State.calStart_only ..) ?_
    | with_reducible apply Only.step ?_ (State.setCal_only ..) ?_
    | with_reducible apply Only.step ?_ (State.runCount_only ..) ?_
    | exact Eq.refl _)

theorem State.calLaneLost_only (s : State) (l : ℕ) :
    Only (some [F.cal, F.cmd, F.power, F.rings, P.CAL_FLAGS, P.CMD_NOTICE_DROP, P.LAN_STATE, P.PWR_DOMAIN_STATE, P.PWR_WAKE_ADMITTED, P.PWR_WAKE_MAX_WAIT, P.PWR_WAKE_QUEUE_LEN, P.PWR_WAKE_SLOPE, P.PWR_WAKE_WAITED]) s (State.calLaneLost s l) := by
  unfold State.calLaneLost
  repeat' (first
    | (extract_lets +onlyGivenNames t; refine Only.with_state (t := t) ?_ fun _ => ?_; subst t; rotate_left; clear_value t)
    | (extract_lets +onlyGivenNames t; clear_value t)
    | with_reducible exact Only.refl _ _
    | with_reducible assumption
    | with_reducible apply Only.cond _ ?_ ?_
    | with_reducible apply Only.step ?_ (State.calSkipped_only ..) ?_
    | with_reducible apply Only.step ?_ (State.calFailed_only ..) ?_
    | with_reducible apply Only.step ?_ (State.wakeCancel_only ..) ?_
    | with_reducible apply Only.step ?_ (State.setCal_only ..) ?_
    | exact Eq.refl _
    | extract_lets
    | split)

end Sys2Proof.Machine
end

