-- ==== Sys2Proof/Laws/OnlyLanes.lean ====
section
/-! SUPPORT. What each operation of Machine/Lanes.lean can change. -/

set_option linter.unusedTactic false
set_option linter.unreachableTactic false
set_option linter.tactic.unusedName false

namespace Sys2Proof.Machine

theorem State.setOptics_only (s : State) (f : Optics → Optics) :
    Only (some [F.optics]) s (State.setOptics s f) := by
  unfold State.setOptics
  repeat' (first
    | with_reducible exact Only.refl _ _
    | with_reducible assumption
    | exact Eq.refl _
    | with_reducible apply Only.set_optics ?_ ?_ _)

theorem State.setLane_only (s : State) (l : ℕ) (f : Lane → Lane) :
    Only (some [F.optics]) s (State.setLane s l f) := by
  unfold State.setLane
  repeat' (first
    | with_reducible exact Only.refl _ _
    | with_reducible assumption
    | with_reducible apply Only.step ?_ (State.setOptics_only ..) ?_
    | exact Eq.refl _)

theorem State.wakeLanes_only (s : State) (ls : List ℕ) :
    Only (some [F.cal, F.cmd, F.power, F.rings, P.CMD_NOTICE_DROP, P.LAN_STATE, P.PWR_DOMAIN_STATE, P.PWR_WAKE_ADMITTED, P.PWR_WAKE_MAX_WAIT, P.PWR_WAKE_QUEUE_LEN, P.PWR_WAKE_SLOPE, P.PWR_WAKE_WAITED]) s (State.wakeLanes s ls) := by
  unfold State.wakeLanes
  repeat' (first
    | with_reducible exact Only.refl _ _
    | with_reducible assumption
    | with_reducible apply Only.fold _ _ (fun _ _ => ?_) ?_
    | with_reducible apply OnlyP.fold _ _ (fun _ _ => ?_) ?_
    | with_reducible apply OnlyP.of ?_
    | with_reducible apply OnlyP.cond _ ?_ ?_
    | with_reducible apply Only.cond _ ?_ ?_
    | with_reducible apply Only.wr ?_ ?_ _ _
    | with_reducible apply Only.step ?_ (State.wakeAsk_only ..) ?_
    | exact Eq.refl _
    | split)

theorem State.lanePortDown_only (s : State) (l : ℕ) :
    Only (some ([F.cal, F.cmd, F.fabric, F.fault, F.fresh, F.hidden, F.linkRun, F.links, F.nhp, F.pad, F.quay, F.refs, F.rings, F.servo, F.txSlots, F.windowAt, P.BUF_DF_AGENT, P.BUF_DF_INDEX, P.BUF_DF_POOL, P.BUF_DF_TIME, P.BUF_DOUBLE_FREE, P.BUF_FLAGS, P.BUF_HELD, P.BUF_QUARANTINED] ++
      [P.BUF_SIGNALS, P.CMD_NOTICE_DROP, P.CMD_REFUSED_COUNT, P.HIE_NEIGHBOUR_ID, P.HIE_PORT_STATE, P.HIE_PORT_VERSION, P.HLT_FAULT_COUNT, P.HLT_STICKY, P.HST_RXQ_BYTES, P.LNK_BEVT, P.LNK_STATE, P.OBS_OVF, P.OBS_TRACE_DROP, P.OBS_TRACE_HEAD, P.OBS_TRACE_OLDEST, P.PRT_EGQ_BYTES, P.PRT_LINKDOWN_DROP, P.PRT_LINK_UP, P.PRT_PFC_TX_XOFF, P.REF_ACTIVE, P.REF_DEV, P.REF_FLAGS, P.REF_HO_C, P.REF_HO_D] ++
      [P.REF_HO_Y0, P.REF_QSTATE, P.REF_SWLOG_HEAD, P.REF_SWLOG_INFO, P.REF_SWLOG_TIME, P.REF_TSTATE, P.TBS_BOUND_NOW, P.TBS_BOUND_PS, P.TBS_DOM_SELECTED, P.TBS_OVER_LIMIT_COUNT])) s (State.lanePortDown s l) := by
  unfold State.lanePortDown
  repeat' (first
    | with_reducible exact Only.refl _ _
    | with_reducible assumption
    | with_reducible apply Only.cond _ ?_ ?_
    | with_reducible apply Only.step ?_ (State.portDown_only ..) ?_
    | with_reducible apply Only.step ?_ (State.linkDown_only ..) ?_
    | exact Eq.refl _
    | split)

theorem State.laneOff_only (s : State) (l : ℕ) :
    Only (some ([F.cal, F.cmd, F.fabric, F.fault, F.fresh, F.hidden, F.linkRun, F.links, F.nhp, F.optics, F.pad, F.power, F.quay, F.refs, F.rings, F.servo, F.txSlots, F.windowAt, P.BUF_DF_AGENT, P.BUF_DF_INDEX, P.BUF_DF_POOL, P.BUF_DF_TIME, P.BUF_DOUBLE_FREE, P.BUF_FLAGS] ++
      [P.BUF_HELD, P.BUF_QUARANTINED, P.BUF_SIGNALS, P.CAL_FLAGS, P.CMD_NOTICE_DROP, P.CMD_REFUSED_COUNT, P.HIE_NEIGHBOUR_ID, P.HIE_PORT_STATE, P.HIE_PORT_VERSION, P.HLT_FAULT_COUNT, P.HLT_STICKY, P.HST_RXQ_BYTES, P.LAN_STATE, P.LNK_BEVT, P.LNK_STATE, P.OBS_OVF, P.OBS_TRACE_DROP, P.OBS_TRACE_HEAD, P.OBS_TRACE_OLDEST, P.PRT_EGQ_BYTES, P.PRT_LINKDOWN_DROP, P.PRT_LINK_UP, P.PRT_PFC_TX_XOFF, P.PWR_DOMAIN_STATE] ++
      [P.PWR_WAKE_ADMITTED, P.PWR_WAKE_MAX_WAIT, P.PWR_WAKE_QUEUE_LEN, P.PWR_WAKE_SLOPE, P.PWR_WAKE_WAITED, P.REF_ACTIVE, P.REF_DEV, P.REF_FLAGS, P.REF_HO_C, P.REF_HO_D, P.REF_HO_Y0, P.REF_QSTATE, P.REF_SWLOG_HEAD, P.REF_SWLOG_INFO, P.REF_SWLOG_TIME, P.REF_TSTATE, P.TBS_BOUND_NOW, P.TBS_BOUND_PS, P.TBS_DOM_SELECTED, P.TBS_OVER_LIMIT_COUNT])) s (State.laneOff s l) := by
  unfold State.laneOff
  repeat' (first
    | (extract_lets +onlyGivenNames t; refine Only.with_state (t := t) ?_ fun _ => ?_; subst t; rotate_left; clear_value t)
    | (extract_lets +onlyGivenNames t; clear_value t)
    | with_reducible exact Only.refl _ _
    | with_reducible assumption
    | with_reducible apply Only.cond _ ?_ ?_
    | with_reducible apply Only.wr ?_ ?_ _ _
    | with_reducible apply Only.step ?_ (State.lanePortDown_only ..) ?_
    | with_reducible apply Only.step ?_ (State.wakeCancel_only ..) ?_
    | with_reducible apply Only.step ?_ (State.setLane_only ..) ?_
    | with_reducible apply Only.step ?_ (State.calLaneLost_only ..) ?_
    | exact Eq.refl _
    | extract_lets
    | split)

theorem State.laneBack_only (s : State) (l : ℕ) (q : ℕ) :
    Only (some ([F.cal, F.cmd, F.fabric, F.fault, F.fresh, F.hidden, F.linkRun, F.links, F.nhp, F.optics, F.pad, F.power, F.quay, F.refs, F.rings, F.servo, F.txSlots, F.windowAt, P.BUF_DF_AGENT, P.BUF_DF_INDEX, P.BUF_DF_POOL, P.BUF_DF_TIME, P.BUF_DOUBLE_FREE, P.BUF_FLAGS] ++
      [P.BUF_HELD, P.BUF_QUARANTINED, P.BUF_SIGNALS, P.CAL_FLAGS, P.CMD_NOTICE_DROP, P.CMD_REFUSED_COUNT, P.HIE_NEIGHBOUR_ID, P.HIE_PORT_STATE, P.HIE_PORT_VERSION, P.HLT_FAULT_COUNT, P.HLT_STICKY, P.HST_RXQ_BYTES, P.LAN_STATE, P.LNK_BEVT, P.LNK_STATE, P.OBS_OVF, P.OBS_TRACE_DROP, P.OBS_TRACE_HEAD, P.OBS_TRACE_OLDEST, P.PRT_EGQ_BYTES, P.PRT_LINKDOWN_DROP, P.PRT_LINK_UP, P.PRT_PFC_TX_XOFF, P.PWR_DOMAIN_STATE] ++
      [P.PWR_WAKE_ADMITTED, P.PWR_WAKE_MAX_WAIT, P.PWR_WAKE_QUEUE_LEN, P.PWR_WAKE_SLOPE, P.PWR_WAKE_WAITED, P.REF_ACTIVE, P.REF_DEV, P.REF_FLAGS, P.REF_HO_C, P.REF_HO_D, P.REF_HO_Y0, P.REF_QSTATE, P.REF_SWLOG_HEAD, P.REF_SWLOG_INFO, P.REF_SWLOG_TIME, P.REF_TSTATE, P.TBS_BOUND_NOW, P.TBS_BOUND_PS, P.TBS_DOM_SELECTED, P.TBS_OVER_LIMIT_COUNT])) s (State.laneBack s l q) := by
  unfold State.laneBack
  repeat' (first
    | (extract_lets +onlyGivenNames t; refine Only.with_state (t := t) ?_ fun _ => ?_; subst t; rotate_left; clear_value t)
    | (extract_lets +onlyGivenNames t; clear_value t)
    | with_reducible exact Only.refl _ _
    | with_reducible assumption
    | with_reducible apply Only.wr ?_ ?_ _ _
    | with_reducible apply Only.step ?_ (State.calLaneLost_only ..) ?_
    | with_reducible apply Only.step ?_ (State.lanePortDown_only ..) ?_
    | with_reducible apply Only.step ?_ (State.setLane_only ..) ?_
    | exact Eq.refl _
    | extract_lets)

theorem State.retrainLanes_only (s : State) (ls : List ℕ) :
    Only (some ([F.cal, F.cmd, F.fabric, F.fault, F.fresh, F.hidden, F.linkRun, F.links, F.nhp, F.optics, F.pad, F.power, F.quay, F.refs, F.rings, F.servo, F.txSlots, F.windowAt, P.BUF_DF_AGENT, P.BUF_DF_INDEX, P.BUF_DF_POOL, P.BUF_DF_TIME, P.BUF_DOUBLE_FREE, P.BUF_FLAGS] ++
      [P.BUF_HELD, P.BUF_QUARANTINED, P.BUF_SIGNALS, P.CAL_FLAGS, P.CMD_NOTICE_DROP, P.CMD_REFUSED_COUNT, P.HIE_NEIGHBOUR_ID, P.HIE_PORT_STATE, P.HIE_PORT_VERSION, P.HLT_FAULT_COUNT, P.HLT_STICKY, P.HST_RXQ_BYTES, P.LAN_STATE, P.LNK_BEVT, P.LNK_STATE, P.OBS_OVF, P.OBS_TRACE_DROP, P.OBS_TRACE_HEAD, P.OBS_TRACE_OLDEST, P.PRT_EGQ_BYTES, P.PRT_LINKDOWN_DROP, P.PRT_LINK_UP, P.PRT_PFC_TX_XOFF, P.PWR_DOMAIN_STATE] ++
      [P.PWR_WAKE_ADMITTED, P.PWR_WAKE_MAX_WAIT, P.PWR_WAKE_QUEUE_LEN, P.PWR_WAKE_SLOPE, P.PWR_WAKE_WAITED, P.REF_ACTIVE, P.REF_DEV, P.REF_FLAGS, P.REF_HO_C, P.REF_HO_D, P.REF_HO_Y0, P.REF_QSTATE, P.REF_SWLOG_HEAD, P.REF_SWLOG_INFO, P.REF_SWLOG_TIME, P.REF_TSTATE, P.TBS_BOUND_NOW, P.TBS_BOUND_PS, P.TBS_DOM_SELECTED, P.TBS_OVER_LIMIT_COUNT])) s (State.retrainLanes s ls) := by
  unfold State.retrainLanes
  repeat' (first
    | with_reducible exact Only.refl _ _
    | with_reducible assumption
    | with_reducible apply Only.fold _ _ (fun _ _ => ?_) ?_
    | with_reducible apply OnlyP.fold _ _ (fun _ _ => ?_) ?_
    | with_reducible apply OnlyP.of ?_
    | with_reducible apply Only.step ?_ (State.wakeLanes_only ..) ?_
    | with_reducible apply Only.step ?_ (State.laneOff_only ..) ?_
    | exact Eq.refl _)

theorem State.portUpTest_only (s : State) (p : ℕ) :
    Only (some [F.fabric, P.LCK_TXPATH, P.LCK_WINDOW, P.PRT_LINK_UP, P.PRT_PFC_TX_XOFF, P.TBS_OVER_LIMIT_COUNT]) s (State.portUpTest s p) := by
  unfold State.portUpTest
  repeat' (first
    | with_reducible exact Only.refl _ _
    | with_reducible assumption
    | with_reducible apply Only.cond _ ?_ ?_
    | with_reducible apply Only.wr ?_ ?_ _ _
    | with_reducible apply Only.step ?_ (State.evaluateSluice_only ..) ?_
    | with_reducible apply Only.step ?_ (State.refreshPath_only ..) ?_
    | exact Eq.refl _
    | split)

theorem State.spareServes_only (s : State) (e : ℕ) (k : ℕ) :
    Only (some [P.OPT_LASER_STATE, P.OPT_SPARE_USED]) s (State.spareServes s e k) := by
  unfold State.spareServes
  repeat' (first
    | (extract_lets +onlyGivenNames t; refine Only.with_state (t := t) ?_ fun _ => ?_; subst t; rotate_left; clear_value t)
    | (extract_lets +onlyGivenNames t; clear_value t)
    | with_reducible exact Only.refl _ _
    | with_reducible assumption
    | with_reducible apply Only.cond _ ?_ ?_
    | with_reducible apply Only.wr ?_ ?_ _ _
    | exact Eq.refl _
    | extract_lets
    | split)

theorem State.swapTest_only (s : State) (e : ℕ) :
    Only (some [F.cmd, F.optics, F.rings, P.CMD_REFUSED_COUNT, P.OPT_LASER_STATE, P.OPT_SPARE_USED, P.TBS_OVER_LIMIT_COUNT]) s (State.swapTest s e) := by
  unfold State.swapTest
  repeat' (first
    | (extract_lets +onlyGivenNames t; refine Only.with_state (t := t) ?_ fun _ => ?_; subst t; rotate_left; clear_value t)
    | (extract_lets +onlyGivenNames t; clear_value t)
    | with_reducible exact Only.refl _ _
    | with_reducible assumption
    | with_reducible apply Only.cond _ ?_ ?_
    | with_reducible apply Only.step ?_ (State.setOptics_only ..) ?_
    | with_reducible apply Only.step ?_ (State.finish_only ..) ?_
    | with_reducible apply Only.step ?_ (State.spareServes_only ..) ?_
    | exact Eq.refl _
    | extract_lets
    | split)

theorem State.freqRange_only (s : State) (l : ℕ) (p : ℕ) (beyond : Bool) :
    Only (some [F.optics, P.LNK_FLAGS]) s (State.freqRange s l p beyond) := by
  unfold State.freqRange
  repeat' (first
    | (extract_lets +onlyGivenNames t; refine Only.with_state (t := t) ?_ fun _ => ?_; subst t; rotate_left; clear_value t)
    | (extract_lets +onlyGivenNames t; clear_value t)
    | with_reducible exact Only.refl _ _
    | with_reducible assumption
    | with_reducible apply Only.step ?_ (State.setLane_only ..) ?_
    | with_reducible apply Only.step ?_ (State.linkFlag_only ..) ?_
    | exact Eq.refl _
    | extract_lets)

theorem execCdrLock_only (lane : Fin 512) (ppb : ℤ) (ctle : Fin 49) (s : State) :
    OnlyO (some [F.optics, P.LAN_CTLE, P.LAN_STATE, P.LNK_FLAGS]) s (execCdrLock lane ppb ctle s) := by
  unfold execCdrLock
  repeat' (first
    | (extract_lets +onlyGivenNames t; refine OnlyO.with_state (t := t) ?_ fun _ => ?_; subst t; rotate_left; clear_value t)
    | (extract_lets +onlyGivenNames t; refine Only.with_state (t := t) ?_ fun _ => ?_; subst t; rotate_left; clear_value t)
    | (extract_lets +onlyGivenNames t; clear_value t)
    | with_reducible exact Only.refl _ _
    | with_reducible assumption
    | with_reducible apply OnlyO.of ?_
    | with_reducible apply OnlyO.cond _ ?_ ?_
    | with_reducible apply Only.cond _ ?_ ?_
    | with_reducible apply Only.wr ?_ ?_ _ _
    | with_reducible apply Only.step ?_ (State.freqRange_only ..) ?_
    | exact Eq.refl _
    | extract_lets
    | split)

theorem execCdrLockLoss_only (lane : Fin 512) (s : State) :
    OnlyO (some ([F.cal, F.cmd, F.fabric, F.fault, F.fresh, F.hidden, F.linkRun, F.links, F.nhp, F.optics, F.pad, F.power, F.quay, F.refs, F.rings, F.servo, F.txSlots, F.windowAt, P.BUF_DF_AGENT, P.BUF_DF_INDEX, P.BUF_DF_POOL, P.BUF_DF_TIME, P.BUF_DOUBLE_FREE, P.BUF_FLAGS] ++
      [P.BUF_HELD, P.BUF_QUARANTINED, P.BUF_SIGNALS, P.CAL_FLAGS, P.CMD_NOTICE_DROP, P.CMD_REFUSED_COUNT, P.HIE_NEIGHBOUR_ID, P.HIE_PORT_STATE, P.HIE_PORT_VERSION, P.HLT_FAULT_COUNT, P.HLT_STICKY, P.HST_RXQ_BYTES, P.LAN_STATE, P.LNK_BEVT, P.LNK_STATE, P.OBS_OVF, P.OBS_TRACE_DROP, P.OBS_TRACE_HEAD, P.OBS_TRACE_OLDEST, P.PRT_EGQ_BYTES, P.PRT_LINKDOWN_DROP, P.PRT_LINK_UP, P.PRT_PFC_TX_XOFF, P.PWR_DOMAIN_STATE] ++
      [P.PWR_WAKE_ADMITTED, P.PWR_WAKE_MAX_WAIT, P.PWR_WAKE_QUEUE_LEN, P.PWR_WAKE_SLOPE, P.PWR_WAKE_WAITED, P.REF_ACTIVE, P.REF_DEV, P.REF_FLAGS, P.REF_HO_C, P.REF_HO_D, P.REF_HO_Y0, P.REF_QSTATE, P.REF_SWLOG_HEAD, P.REF_SWLOG_INFO, P.REF_SWLOG_TIME, P.REF_TSTATE, P.TBS_BOUND_NOW, P.TBS_BOUND_PS, P.TBS_DOM_SELECTED, P.TBS_OVER_LIMIT_COUNT])) s (execCdrLockLoss lane s) := by
  unfold execCdrLockLoss
  repeat' (first
    | with_reducible exact Only.refl _ _
    | with_reducible assumption
    | with_reducible apply OnlyO.of ?_
    | with_reducible apply OnlyO.cond _ ?_ ?_
    | with_reducible apply Only.cond _ ?_ ?_
    | with_reducible apply Only.step ?_ (State.laneBack_only ..) ?_
    | exact Eq.refl _
    | split)

theorem State.slipLane_only (s : State) (l : ℕ) (n : ℕ) :
    Only (some [P.LAN_S, P.LAN_SLIPS]) s (State.slipLane s l n) := by
  unfold State.slipLane
  repeat' (first
    | with_reducible exact Only.refl _ _
    | with_reducible assumption
    | with_reducible apply Only.wr ?_ ?_ _ _
    | with_reducible apply Only.count_plain ?_ ?_ (by decide) _ _
    | with_reducible apply Only.count ?_ ?_ ?_ ?_ _ _
    | exact Eq.refl _)

theorem execFraming_only (lane : Fin 512) (g : Fin 66) (found : Fin 64) (s : State) :
    OnlyO (some ([F.cal, F.cmd, F.fault, F.fresh, F.linkRun, F.links, F.optics, F.refs, F.rings, F.servo, P.CMD_NOTICE_DROP, P.CMD_REFUSED_COUNT, P.HLT_FAULT_COUNT, P.HLT_STICKY, P.LAN_G, P.LAN_REALIGNS, P.LAN_S, P.LAN_STATE, P.LNK_BEVT, P.LNK_STATE, P.REF_ACTIVE, P.REF_BREF, P.REF_DEV, P.REF_FLAGS] ++
      [P.REF_HO_C, P.REF_HO_D, P.REF_HO_Y0, P.REF_KIND, P.REF_QSTATE, P.REF_SWLOG_HEAD, P.REF_SWLOG_INFO, P.REF_SWLOG_TIME, P.REF_TSTATE, P.TBS_BOUND_NOW, P.TBS_BOUND_PS, P.TBS_DOM_SELECTED, P.TBS_OVER_LIMIT_COUNT])) s (execFraming lane g found s) := by
  unfold execFraming
  repeat' (first
    | (extract_lets +onlyGivenNames t; refine OnlyO.with_state (t := t) ?_ fun _ => ?_; subst t; rotate_left; clear_value t)
    | (extract_lets +onlyGivenNames t; refine Only.with_state (t := t) ?_ fun _ => ?_; subst t; rotate_left; clear_value t)
    | (extract_lets +onlyGivenNames t; have q : ℕ := t; clear q; clear_value t)
    | (extract_lets +onlyGivenNames t; have q : Bool := t; clear q; clear_value t)
    | (extract_lets +onlyGivenNames t; have q : ℤ := t; clear q; clear_value t)
    | (extract_lets +onlyGivenNames t; have q : Option _ := t; clear q; clear_value t)
    | (extract_lets +onlyGivenNames t; have q : List _ := t; clear q; clear_value t)
    | (extract_lets +onlyGivenNames t; have q : _ × _ := t; clear q; clear_value t)
    | with_reducible exact Only.refl _ _
    | with_reducible assumption
    | with_reducible apply OnlyO.of ?_
    | with_reducible apply OnlyO.cond _ ?_ ?_
    | with_reducible apply Only.cond _ ?_ ?_
    | with_reducible apply Only.wr ?_ ?_ _ _
    | with_reducible apply Only.count_plain ?_ ?_ (by decide) _ _
    | with_reducible apply Only.count ?_ ?_ ?_ ?_ _ _
    | with_reducible apply Only.step ?_ (State.linkFramed_only ..) ?_
    | with_reducible apply Only.step ?_ (State.setLane_only ..) ?_
    | with_reducible apply Only.step ?_ (State.linkSlip_only ..) ?_
    | exact Eq.refl _
    | extract_lets
    | split)

theorem execFramingLoss_only (lane : Fin 512) (s : State) :
    OnlyO (some ([F.cal, F.cmd, F.fabric, F.fault, F.fresh, F.hidden, F.linkRun, F.links, F.nhp, F.optics, F.pad, F.power, F.quay, F.refs, F.rings, F.servo, F.txSlots, F.windowAt, P.BUF_DF_AGENT, P.BUF_DF_INDEX, P.BUF_DF_POOL, P.BUF_DF_TIME, P.BUF_DOUBLE_FREE, P.BUF_FLAGS] ++
      [P.BUF_HELD, P.BUF_QUARANTINED, P.BUF_SIGNALS, P.CAL_FLAGS, P.CMD_NOTICE_DROP, P.CMD_REFUSED_COUNT, P.HIE_NEIGHBOUR_ID, P.HIE_PORT_STATE, P.HIE_PORT_VERSION, P.HLT_FAULT_COUNT, P.HLT_STICKY, P.HST_RXQ_BYTES, P.LAN_STATE, P.LNK_BEVT, P.LNK_STATE, P.OBS_OVF, P.OBS_TRACE_DROP, P.OBS_TRACE_HEAD, P.OBS_TRACE_OLDEST, P.PRT_EGQ_BYTES, P.PRT_LINKDOWN_DROP, P.PRT_LINK_UP, P.PRT_PFC_TX_XOFF, P.PWR_DOMAIN_STATE] ++
      [P.PWR_WAKE_ADMITTED, P.PWR_WAKE_MAX_WAIT, P.PWR_WAKE_QUEUE_LEN, P.PWR_WAKE_SLOPE, P.PWR_WAKE_WAITED, P.REF_ACTIVE, P.REF_DEV, P.REF_FLAGS, P.REF_HO_C, P.REF_HO_D, P.REF_HO_Y0, P.REF_QSTATE, P.REF_SWLOG_HEAD, P.REF_SWLOG_INFO, P.REF_SWLOG_TIME, P.REF_TSTATE, P.TBS_BOUND_NOW, P.TBS_BOUND_PS, P.TBS_DOM_SELECTED, P.TBS_OVER_LIMIT_COUNT])) s (execFramingLoss lane s) := by
  unfold execFramingLoss
  repeat' (first
    | (extract_lets +onlyGivenNames t; refine OnlyO.with_state (t := t) ?_ fun _ => ?_; subst t; rotate_left; clear_value t)
    | (extract_lets +onlyGivenNames t; refine Only.with_state (t := t) ?_ fun _ => ?_; subst t; rotate_left; clear_value t)
    | (extract_lets +onlyGivenNames t; clear_value t)
    | with_reducible exact Only.refl _ _
    | with_reducible assumption
    | with_reducible apply OnlyO.of ?_
    | with_reducible apply Only.wr ?_ ?_ _ _
    | with_reducible apply Only.step ?_ (State.setLane_only ..) ?_
    | with_reducible apply Only.step ?_ (State.laneBack_only ..) ?_
    | exact Eq.refl _
    | extract_lets
    | split)

theorem execRealignTimeout_only (lane : Fin 512) (s : State) :
    OnlyO (some ([F.cal, F.cmd, F.fabric, F.fault, F.fresh, F.hidden, F.linkRun, F.links, F.nhp, F.optics, F.pad, F.power, F.quay, F.refs, F.rings, F.servo, F.txSlots, F.windowAt, P.BUF_DF_AGENT, P.BUF_DF_INDEX, P.BUF_DF_POOL, P.BUF_DF_TIME, P.BUF_DOUBLE_FREE, P.BUF_FLAGS] ++
      [P.BUF_HELD, P.BUF_QUARANTINED, P.BUF_SIGNALS, P.CAL_FLAGS, P.CMD_NOTICE_DROP, P.CMD_REFUSED_COUNT, P.HIE_NEIGHBOUR_ID, P.HIE_PORT_STATE, P.HIE_PORT_VERSION, P.HLT_FAULT_COUNT, P.HLT_STICKY, P.HST_RXQ_BYTES, P.LAN_STATE, P.LNK_BEVT, P.LNK_STATE, P.OBS_OVF, P.OBS_TRACE_DROP, P.OBS_TRACE_HEAD, P.OBS_TRACE_OLDEST, P.PRT_EGQ_BYTES, P.PRT_LINKDOWN_DROP, P.PRT_LINK_UP, P.PRT_PFC_TX_XOFF, P.PWR_DOMAIN_STATE] ++
      [P.PWR_WAKE_ADMITTED, P.PWR_WAKE_MAX_WAIT, P.PWR_WAKE_QUEUE_LEN, P.PWR_WAKE_SLOPE, P.PWR_WAKE_WAITED, P.REF_ACTIVE, P.REF_DEV, P.REF_FLAGS, P.REF_HO_C, P.REF_HO_D, P.REF_HO_Y0, P.REF_QSTATE, P.REF_SWLOG_HEAD, P.REF_SWLOG_INFO, P.REF_SWLOG_TIME, P.REF_TSTATE, P.TBS_BOUND_NOW, P.TBS_BOUND_PS, P.TBS_DOM_SELECTED, P.TBS_OVER_LIMIT_COUNT])) s (execRealignTimeout lane s) := by
  unfold execRealignTimeout
  repeat' (first
    | (extract_lets +onlyGivenNames t; refine OnlyO.with_state (t := t) ?_ fun _ => ?_; subst t; rotate_left; clear_value t)
    | (extract_lets +onlyGivenNames t; refine Only.with_state (t := t) ?_ fun _ => ?_; subst t; rotate_left; clear_value t)
    | (extract_lets +onlyGivenNames t; clear_value t)
    | with_reducible exact Only.refl _ _
    | with_reducible assumption
    | with_reducible apply OnlyO.of ?_
    | with_reducible apply OnlyO.cond _ ?_ ?_
    | with_reducible apply Only.cond _ ?_ ?_
    | with_reducible apply Only.step ?_ (State.laneBack_only ..) ?_
    | exact Eq.refl _
    | extract_lets
    | split)

theorem execSlipStep_only (lane : Fin 512) (s : State) :
    OnlyO (some [P.LAN_S, P.LAN_SLIPS]) s (execSlipStep lane s) := by
  unfold execSlipStep
  repeat' (first
    | (extract_lets +onlyGivenNames t; refine OnlyO.with_state (t := t) ?_ fun _ => ?_; subst t; rotate_left; clear_value t)
    | (extract_lets +onlyGivenNames t; refine Only.with_state (t := t) ?_ fun _ => ?_; subst t; rotate_left; clear_value t)
    | (extract_lets +onlyGivenNames t; clear_value t)
    | with_reducible exact Only.refl _ _
    | with_reducible assumption
    | with_reducible apply OnlyO.of ?_
    | with_reducible apply OnlyO.cond _ ?_ ?_
    | with_reducible apply Only.cond _ ?_ ?_
    | with_reducible apply Only.step ?_ (State.slipLane_only ..) ?_
    | exact Eq.refl _
    | extract_lets
    | split)

theorem lanSlip_only (o : Origin) (b : List Byte) (s : State) :
    Only (some [F.cmd, F.rings, P.CMD_REFUSED_COUNT, P.LAN_S, P.LAN_SLIPS, P.TBS_OVER_LIMIT_COUNT]) s (lanSlip o b s) := by
  unfold lanSlip
  repeat' (first
    | (extract_lets +onlyGivenNames t; refine Only.with_state (t := t) ?_ fun _ => ?_; subst t; rotate_left; clear_value t)
    | (extract_lets +onlyGivenNames t; clear_value t)
    | with_reducible exact Only.refl _ _
    | with_reducible assumption
    | with_reducible apply Only.cond _ ?_ ?_
    | with_reducible apply Only.step ?_ (State.finish_only ..) ?_
    | with_reducible apply Only.step ?_ (State.slipLane_only ..) ?_
    | exact Eq.refl _
    | extract_lets
    | split)

theorem execLaneCalItemEnd_only (lane : Fin 512) (m : CalMeasure) (s : State) :
    OnlyO (some ([F.cal, F.cmd, F.fabric, F.fault, F.fresh, F.optics, F.refs, F.rings, F.servo, P.CAL_DRX, P.CAL_DTX, P.CAL_EYE_H, P.CAL_EYE_W, P.CAL_FLAGS, P.CAL_LANE_TCAL, P.CAL_OUT_RES, P.CAL_PORT_RES, P.CAL_REFIN_RES, P.CMD_NOTICE_DROP, P.CMD_REFUSED_COUNT, P.EVT_RES, P.HLT_FAULT_COUNT, P.HLT_STICKY, P.LAN_SLICER] ++
      [P.LAN_STATE, P.LCK_TXPATH, P.LCK_WINDOW, P.OPT_LASER_STATE, P.OPT_SPARE_USED, P.PRT_LINK_UP, P.PRT_PFC_TX_XOFF, P.REF_ACTIVE, P.REF_BREF, P.REF_DEV, P.REF_FLAGS, P.REF_HO_C, P.REF_HO_D, P.REF_HO_Y0, P.REF_KIND, P.REF_QSTATE, P.REF_SWLOG_HEAD, P.REF_SWLOG_INFO, P.REF_SWLOG_TIME, P.REF_TSTATE, P.TBS_BOUND_NOW, P.TBS_BOUND_PS, P.TBS_DOM_SELECTED, P.TBS_OVER_LIMIT_COUNT])) s (execLaneCalItemEnd lane m s) := by
  unfold execLaneCalItemEnd
  repeat' (first
    | (extract_lets +onlyGivenNames t; refine OnlyO.with_state (t := t) ?_ fun _ => ?_; subst t; rotate_left; clear_value t)
    | (extract_lets +onlyGivenNames t; refine Only.with_state (t := t) ?_ fun _ => ?_; subst t; rotate_left; clear_value t)
    | (extract_lets +onlyGivenNames t; clear_value t)
    | with_reducible exact Only.refl _ _
    | with_reducible assumption
    | with_reducible apply OnlyO.of ?_
    | with_reducible apply OnlyO.cond _ ?_ ?_
    | with_reducible apply Only.cond _ ?_ ?_
    | with_reducible apply Only.wr ?_ ?_ _ _
    | with_reducible apply Only.orIn ?_ ?_ _ _
    | with_reducible apply Only.step ?_ (State.setCal_only ..) ?_
    | with_reducible apply Only.step ?_ (State.applyLane_only ..) ?_
    | with_reducible apply Only.step ?_ (State.setLane_only ..) ?_
    | with_reducible apply Only.step ?_ (State.swapTest_only ..) ?_
    | with_reducible apply Only.step ?_ (State.portUpTest_only ..) ?_
    | exact Eq.refl _
    | extract_lets
    | split)

theorem State.setCtle_only (s : State) (l : ℕ) (code : ℕ) :
    Only (some [P.CAL_DRX, P.LAN_CTLE]) s (State.setCtle s l code) := by
  unfold State.setCtle
  repeat' (first
    | (extract_lets +onlyGivenNames t; refine Only.with_state (t := t) ?_ fun _ => ?_; subst t; rotate_left; clear_value t)
    | (extract_lets +onlyGivenNames t; clear_value t)
    | with_reducible exact Only.refl _ _
    | with_reducible assumption
    | with_reducible apply Only.cond _ ?_ ?_
    | with_reducible apply Only.wr ?_ ?_ _ _
    | exact Eq.refl _
    | extract_lets
    | split)

theorem execCtleStep_only (lane : Fin 512) (up : Bool) (s : State) :
    OnlyO (some [F.optics, P.CAL_DRX, P.LAN_CTLE]) s (execCtleStep lane up s) := by
  unfold execCtleStep
  repeat' (first
    | (extract_lets +onlyGivenNames t; refine OnlyO.with_state (t := t) ?_ fun _ => ?_; subst t; rotate_left; clear_value t)
    | (extract_lets +onlyGivenNames t; refine Only.with_state (t := t) ?_ fun _ => ?_; subst t; rotate_left; clear_value t)
    | (extract_lets +onlyGivenNames t; clear_value t)
    | with_reducible exact Only.refl _ _
    | with_reducible assumption
    | with_reducible apply OnlyO.of ?_
    | with_reducible apply OnlyO.cond _ ?_ ?_
    | with_reducible apply Only.cond _ ?_ ?_
    | with_reducible apply Only.step ?_ (State.setLane_only ..) ?_
    | with_reducible apply Only.step ?_ (State.setCtle_only ..) ?_
    | exact Eq.refl _
    | extract_lets
    | split)

theorem execSlicerStep_only (lane : Fin 512) (k : Fin 3) (up : Bool) (s : State) :
    OnlyO (some [P.LAN_SLICER]) s (execSlicerStep lane k up s) := by
  unfold execSlicerStep
  repeat' (first
    | (extract_lets +onlyGivenNames t; refine OnlyO.with_state (t := t) ?_ fun _ => ?_; subst t; rotate_left; clear_value t)
    | (extract_lets +onlyGivenNames t; refine Only.with_state (t := t) ?_ fun _ => ?_; subst t; rotate_left; clear_value t)
    | (extract_lets +onlyGivenNames t; clear_value t)
    | with_reducible exact Only.refl _ _
    | with_reducible assumption
    | with_reducible apply OnlyO.of ?_
    | with_reducible apply OnlyO.cond _ ?_ ?_
    | with_reducible apply Only.cond _ ?_ ?_
    | with_reducible apply Only.wr ?_ ?_ _ _
    | exact Eq.refl _
    | extract_lets
    | split)

theorem execTapStep_only (lane : Fin 512) (now : BitVec 32) (frac : Fin 100) (s : State) :
    OnlyO (some [F.cal, P.CAL_DTX, P.CAL_FLAGS, P.CAL_TXFD]) s (execTapStep lane now frac s) := by
  unfold execTapStep
  repeat' (first
    | (extract_lets +onlyGivenNames t; refine OnlyO.with_state (t := t) ?_ fun _ => ?_; subst t; rotate_left; clear_value t)
    | (extract_lets +onlyGivenNames t; refine Only.with_state (t := t) ?_ fun _ => ?_; subst t; rotate_left; clear_value t)
    | (extract_lets +onlyGivenNames t; clear_value t)
    | with_reducible exact Only.refl _ _
    | with_reducible assumption
    | with_reducible apply OnlyO.of ?_
    | with_reducible apply OnlyO.cond _ ?_ ?_
    | with_reducible apply Only.cond _ ?_ ?_
    | with_reducible apply Only.wr ?_ ?_ _ _
    | with_reducible apply Only.orIn ?_ ?_ _ _
    | with_reducible apply Only.step ?_ (State.setCal_only ..) ?_
    | exact Eq.refl _
    | extract_lets
    | split)

theorem execTrimStep_only (output : Fin 8) (err : ℤ) (s : State) :
    OnlyO (some [F.cal, P.CAL_FLAGS, P.CAL_OUT_TRIM]) s (execTrimStep output err s) := by
  unfold execTrimStep
  repeat' (first
    | (extract_lets +onlyGivenNames t; refine OnlyO.with_state (t := t) ?_ fun _ => ?_; subst t; rotate_left; clear_value t)
    | (extract_lets +onlyGivenNames t; refine Only.with_state (t := t) ?_ fun _ => ?_; subst t; rotate_left; clear_value t)
    | (extract_lets +onlyGivenNames t; clear_value t)
    | with_reducible exact Only.refl _ _
    | with_reducible assumption
    | with_reducible apply OnlyO.of ?_
    | with_reducible apply OnlyO.cond _ ?_ ?_
    | with_reducible apply Only.cond _ ?_ ?_
    | with_reducible apply Only.wr ?_ ?_ _ _
    | with_reducible apply Only.orIn ?_ ?_ _ _
    | with_reducible apply Only.step ?_ (State.setCal_only ..) ?_
    | exact Eq.refl _
    | extract_lets
    | split)

end Sys2Proof.Machine
end

