-- ==== Sys2Proof/Laws/OnlySynths.lean ====
section
/-! SUPPORT. What each operation of Machine/Synths.lean can change. -/

set_option linter.unusedTactic false
set_option linter.unreachableTactic false
set_option linter.tactic.unusedName false

namespace Sys2Proof.Machine

theorem State.bandPut_only (s : State) (k : ℕ) (p : Plan) (temp : ℤ) :
    Only (some [F.optics]) s (State.bandPut s k p temp) := by
  unfold State.bandPut
  repeat' (first
    | (extract_lets +onlyGivenNames t; refine Only.with_state (t := t) ?_ fun _ => ?_; subst t; rotate_left; clear_value t)
    | (extract_lets +onlyGivenNames t; clear_value t)
    | with_reducible exact Only.refl _ _
    | with_reducible assumption
    | with_reducible apply Only.step ?_ (State.setOptics_only ..) ?_
    | exact Eq.refl _
    | extract_lets)

theorem State.bandSearch_only (s : State) (k : ℕ) (p : Plan) :
    Only (some [F.optics, P.SYN_BAND_MISSES]) s (State.bandSearch s k p) := by
  unfold State.bandSearch
  repeat' (first
    | with_reducible exact Only.refl _ _
    | with_reducible assumption
    | with_reducible apply Only.count_plain ?_ ?_ (by decide) _ _
    | with_reducible apply Only.count ?_ ?_ ?_ ?_ _ _
    | with_reducible apply Only.step ?_ (State.bandPut_only ..) ?_
    | exact Eq.refl _)

theorem State.moveBand_only (s : State) (k : ℕ) (p : Plan) :
    Only (some [F.optics, P.SYN_BAND_HITS, P.SYN_BAND_MISSES, P.SYN_FLAGS, P.SYN_STATE]) s (State.moveBand s k p) := by
  unfold State.moveBand
  repeat' (first
    | (extract_lets +onlyGivenNames t; refine Only.with_state (t := t) ?_ fun _ => ?_; subst t; rotate_left; clear_value t)
    | (extract_lets +onlyGivenNames t; clear_value t)
    | with_reducible exact Only.refl _ _
    | with_reducible assumption
    | with_reducible apply Only.cond _ ?_ ?_
    | with_reducible apply Only.wr ?_ ?_ _ _
    | with_reducible apply Only.orIn ?_ ?_ _ _
    | with_reducible apply Only.count_plain ?_ ?_ (by decide) _ _
    | with_reducible apply Only.count ?_ ?_ ?_ ?_ _ _
    | with_reducible apply Only.step ?_ (State.bandPut_only ..) ?_
    | with_reducible apply Only.step ?_ (State.bandSearch_only ..) ?_
    | exact Eq.refl _
    | extract_lets
    | split)

theorem State.synLocked_only (s : State) (k : ℕ) :
    Only (some [P.SYN_STATE, P.SYN_VCO_FREQ]) s (State.synLocked s k) := by
  unfold State.synLocked
  repeat' (first
    | (extract_lets +onlyGivenNames t; refine Only.with_state (t := t) ?_ fun _ => ?_; subst t; rotate_left; clear_value t)
    | (extract_lets +onlyGivenNames t; clear_value t)
    | with_reducible exact Only.refl _ _
    | with_reducible assumption
    | with_reducible apply Only.cond _ ?_ ?_
    | with_reducible apply Only.wr ?_ ?_ _ _
    | exact Eq.refl _
    | extract_lets
    | split)

theorem State.lineUp_only (s : State) (e : ℕ) :
    Only (some [F.optics, P.SYN_BAND_MISSES, P.SYN_STATE, P.SYN_VCO_FREQ]) s (State.lineUp s e) := by
  unfold State.lineUp
  repeat' (first
    | (extract_lets +onlyGivenNames t; refine Only.with_state (t := t) ?_ fun _ => ?_; subst t; rotate_left; clear_value t)
    | (extract_lets +onlyGivenNames t; refine Only.with_pair (t := t) ?_ fun _ => ?_; subst t; rotate_left; clear_value t)
    | (extract_lets +onlyGivenNames t; clear_value t)
    | with_reducible exact Only.refl _ _
    | with_reducible assumption
    | with_reducible apply Only.fold _ _ (fun _ _ => ?_) ?_
    | with_reducible apply OnlyP.fold _ _ (fun _ _ => ?_) ?_
    | with_reducible apply OnlyP.of ?_
    | with_reducible apply OnlyP.cond _ ?_ ?_
    | with_reducible apply Only.cond _ ?_ ?_
    | with_reducible apply Only.step ?_ (State.bandSearch_only ..) ?_
    | with_reducible apply Only.step ?_ (State.synLocked_only ..) ?_
    | exact Eq.refl _
    | extract_lets
    | split)

theorem State.setFamily_only (s : State) (e : ℕ) (f : ℕ) :
    Only (some [F.optics, P.LAN_FAMILY, P.SYN_BAND_HITS, P.SYN_BAND_MISSES, P.SYN_FLAGS, P.SYN_STATE]) s (State.setFamily s e f) := by
  unfold State.setFamily
  repeat' (first
    | (extract_lets +onlyGivenNames t; refine Only.with_state (t := t) ?_ fun _ => ?_; subst t; rotate_left; clear_value t)
    | (extract_lets +onlyGivenNames t; clear_value t)
    | with_reducible exact Only.refl _ _
    | with_reducible assumption
    | with_reducible apply Only.cond _ ?_ ?_
    | with_reducible apply Only.wr ?_ ?_ _ _
    | with_reducible apply Only.step ?_ (State.moveBand_only ..) ?_
    | exact Eq.refl _
    | extract_lets
    | split)

theorem State.applySyn_only (s : State) (at_ : ℕ) (j : ℕ) :
    Only (some [F.optics, F.params, F.shadows]) s (State.applySyn s at_ j) := by
  unfold State.applySyn
  repeat' (first
    | (extract_lets +onlyGivenNames t; refine Only.with_state (t := t) ?_ fun _ => ?_; subst t; rotate_left; clear_value t)
    | (extract_lets +onlyGivenNames t; refine Only.with_pair (t := t) ?_ fun _ => ?_; subst t; rotate_left; clear_value t)
    | (extract_lets +onlyGivenNames t; clear_value t)
    | with_reducible exact Only.refl _ _
    | with_reducible assumption
    | with_reducible apply Only.fold _ _ (fun _ _ => ?_) ?_
    | with_reducible apply OnlyP.fold _ _ (fun _ _ => ?_) ?_
    | with_reducible apply OnlyP.of ?_
    | with_reducible apply OnlyP.cond _ ?_ ?_
    | with_reducible apply Only.cond _ ?_ ?_
    | with_reducible apply Only.wrBoth_any ?_ ?_ _ ?_ _ _
    | with_reducible apply Only.step ?_ (State.setOptics_only ..) ?_
    | with_reducible apply Only.step ?_ (State.synLocked_only ..) ?_
    | with_reducible apply Only.step ?_ (State.moveBand_only ..) ?_
    | exact Eq.refl _
    | extract_lets
    | split)

theorem State.synPending_only (s : State) :
    Only (some [P.SYN_PENDING]) s (State.synPending s) := by
  unfold State.synPending
  repeat' (first
    | with_reducible exact Only.refl _ _
    | with_reducible assumption
    | with_reducible apply Only.fold _ _ (fun _ _ => ?_) ?_
    | with_reducible apply OnlyP.fold _ _ (fun _ _ => ?_) ?_
    | with_reducible apply OnlyP.of ?_
    | with_reducible apply Only.wr ?_ ?_ _ _
    | exact Eq.refl _)

theorem State.synSchedule_only (s : State) (o : Origin) (mask : ℕ) (due : ℕ) :
    Only (some [F.cmd, F.optics, F.rings, P.CMD_REFUSED_COUNT, P.SYN_PENDING, P.TBS_OVER_LIMIT_COUNT]) s (State.synSchedule s o mask due) := by
  unfold State.synSchedule
  repeat' (first
    | (extract_lets +onlyGivenNames t; refine Only.with_state (t := t) ?_ fun _ => ?_; subst t; rotate_left; clear_value t)
    | (extract_lets +onlyGivenNames t; refine Only.with_pair (t := t) ?_ fun _ => ?_; subst t; rotate_left; clear_value t)
    | (extract_lets +onlyGivenNames t; clear_value t)
    | with_reducible exact Only.refl _ _
    | with_reducible assumption
    | with_reducible apply Only.fold _ _ (fun _ _ => ?_) ?_
    | with_reducible apply OnlyP.fold _ _ (fun _ _ => ?_) ?_
    | with_reducible apply OnlyP.of ?_
    | with_reducible apply Only.step ?_ (State.setOptics_only ..) ?_
    | with_reducible apply Only.step ?_ (State.synPending_only ..) ?_
    | with_reducible apply Only.step ?_ (State.accept_only ..) ?_
    | with_reducible apply Only.step ?_ (State.finish_only ..) ?_
    | exact Eq.refl _
    | extract_lets)

theorem State.synApplyNow_only (s : State) (o : Origin) (mask : ℕ) (status : ℕ) :
    Only (some [F.cmd, F.optics, F.params, F.rings, F.shadows]) s (State.synApplyNow s o mask status) := by
  unfold State.synApplyNow
  repeat' (first
    | with_reducible exact Only.refl _ _
    | with_reducible assumption
    | with_reducible apply Only.fold _ _ (fun _ _ => ?_) ?_
    | with_reducible apply OnlyP.fold _ _ (fun _ _ => ?_) ?_
    | with_reducible apply OnlyP.of ?_
    | with_reducible apply OnlyP.cond _ ?_ ?_
    | with_reducible apply Only.cond _ ?_ ?_
    | with_reducible apply Only.step ?_ (State.finish_only ..) ?_
    | with_reducible apply Only.step ?_ (State.configUp_only ..) ?_
    | with_reducible apply Only.step ?_ (State.applySyn_only ..) ?_
    | exact Eq.refl _
    | split)

theorem synApply_only (o : Origin) (b : List Byte) (s : State) :
    Only (some [F.cmd, F.optics, F.params, F.rings, F.shadows]) s (synApply o b s) := by
  unfold synApply
  repeat' (first
    | (extract_lets +onlyGivenNames t; refine Only.with_state (t := t) ?_ fun _ => ?_; subst t; rotate_left; clear_value t)
    | (extract_lets +onlyGivenNames t; clear_value t)
    | with_reducible exact Only.refl _ _
    | with_reducible assumption
    | with_reducible apply Only.cond _ ?_ ?_
    | with_reducible apply Only.step ?_ (State.finish_only ..) ?_
    | with_reducible apply Only.step ?_ (State.synApplyNow_only ..) ?_
    | with_reducible apply Only.step ?_ (State.synSchedule_only ..) ?_
    | exact Eq.refl _
    | extract_lets
    | split)

/-- What is made of each application that ends is the caller's. -/
theorem State.synTake_only {W : Option (List Nat)} (s : State) (pick : SynJob → Bool) (each : State → SynJob → State)
    (h : ∀ t j, Only W t (each t j)) (hw : within (some [F.optics, P.SYN_PENDING]) W = true) : Only W s (State.synTake s pick each) := by
  unfold State.synTake
  exact Only.fold _ _ h (Only.step ((State.setOptics_only ..).mono (within_trans (by exact Eq.refl _) hw)) (State.synPending_only ..)
    (within_trans (by exact Eq.refl _) hw))

theorem State.synDue_only (s : State) (pick : SynJob → Bool) :
    Only (some [F.cmd, F.optics, F.params, F.rings, F.shadows]) s (State.synDue s pick) := by
  unfold State.synDue
  repeat' (first
    | with_reducible exact Only.refl _ _
    | with_reducible assumption
    | with_reducible apply Only.trans ?_ (State.synTake_only _ _ _ ?_ ?_)
    | (intro u c; show Only _ u _)
    | with_reducible apply Only.step ?_ (State.synApplyNow_only ..) ?_
    | exact Eq.refl _)

theorem execSynApplyDue_only (s : State) :
    OnlyO (some [F.cmd, F.optics, F.params, F.rings, F.shadows]) s (execSynApplyDue s) := by
  unfold execSynApplyDue
  repeat' (first
    | with_reducible exact Only.refl _ _
    | with_reducible assumption
    | with_reducible apply OnlyO.of ?_
    | with_reducible apply Only.step ?_ (State.synDue_only ..) ?_
    | exact Eq.refl _)

theorem State.synSettled_only (s : State) (k : ℕ) :
    Only (some [F.optics, F.params, F.shadows]) s (State.synSettled s k) := by
  unfold State.synSettled
  repeat' (first
    | (extract_lets +onlyGivenNames t; refine Only.with_state (t := t) ?_ fun _ => ?_; subst t; rotate_left; clear_value t)
    | (extract_lets +onlyGivenNames t; clear_value t)
    | with_reducible exact Only.refl _ _
    | with_reducible assumption
    | with_reducible apply Only.cond _ ?_ ?_
    | with_reducible apply Only.step ?_ (State.synLocked_only ..) ?_
    | with_reducible apply Only.step ?_ (State.applySyn_only ..) ?_
    | with_reducible apply Only.step ?_ (State.setOptics_only ..) ?_
    | exact Eq.refl _
    | extract_lets
    | split)

theorem execBandChangeEnd_only (syn : Fin 38) (s : State) :
    OnlyO (some [F.optics, F.params, F.shadows]) s (execBandChangeEnd syn s) := by
  unfold execBandChangeEnd
  repeat' (first
    | with_reducible exact Only.refl _ _
    | with_reducible assumption
    | with_reducible apply OnlyO.of ?_
    | with_reducible apply Only.step ?_ (State.synSettled_only ..) ?_
    | exact Eq.refl _)

theorem execSynRelock_only (syn : Fin 38) (s : State) :
    OnlyO (some [F.optics, F.params, F.shadows]) s (execSynRelock syn s) := by
  unfold execSynRelock
  repeat' (first
    | with_reducible exact Only.refl _ _
    | with_reducible assumption
    | with_reducible apply OnlyO.of ?_
    | with_reducible apply OnlyO.cond _ ?_ ?_
    | with_reducible apply Only.cond _ ?_ ?_
    | with_reducible apply Only.step ?_ (State.synSettled_only ..) ?_
    | exact Eq.refl _
    | split)

theorem State.synUnlock_only (s : State) (k : ℕ) :
    Only (some ([F.cal, F.cmd, F.fabric, F.fault, F.fresh, F.hidden, F.linkRun, F.links, F.nhp, F.optics, F.pad, F.power, F.quay, F.refs, F.rings, F.servo, F.time, F.txSlots, F.windowAt, P.BUF_DF_AGENT, P.BUF_DF_INDEX, P.BUF_DF_POOL, P.BUF_DF_TIME, P.BUF_DOUBLE_FREE] ++
      [P.BUF_FLAGS, P.BUF_HELD, P.BUF_QUARANTINED, P.BUF_SIGNALS, P.CAL_FLAGS, P.CMD_NOTICE_DROP, P.CMD_REFUSED_COUNT, P.COR_FLAGS, P.COR_SCORE, P.COR_STATE, P.COR_TEST_RESULT, P.HIE_NEIGHBOUR_ID, P.HIE_PORT_STATE, P.HIE_PORT_VERSION, P.HLT_FAULT_COUNT, P.HLT_STICKY, P.HST_RXQ_BYTES, P.LAN_STATE, P.LNK_BEVT, P.LNK_STATE, P.OBS_OVF, P.OBS_TRACE_DROP, P.OBS_TRACE_HEAD, P.OBS_TRACE_OLDEST] ++
      [P.PRT_EGQ_BYTES, P.PRT_LINKDOWN_DROP, P.PRT_LINK_UP, P.PRT_PFC_TX_XOFF, P.PWR_DOMAIN_STATE, P.PWR_WAKE_ADMITTED, P.PWR_WAKE_MAX_WAIT, P.PWR_WAKE_QUEUE_LEN, P.PWR_WAKE_SLOPE, P.PWR_WAKE_WAITED, P.REF_ACTIVE, P.REF_DEV, P.REF_FLAGS, P.REF_HO_C, P.REF_HO_D, P.REF_HO_Y0, P.REF_QSTATE, P.REF_SWLOG_HEAD, P.REF_SWLOG_INFO, P.REF_SWLOG_TIME, P.REF_TSTATE, P.SYN_BAND_MISSES, P.SYN_FLAGS, P.SYN_STATE] ++
      [P.TBS_BOUND_NOW, P.TBS_BOUND_PS, P.TBS_DOM_SELECTED, P.TBS_OVER_LIMIT_COUNT])) s (State.synUnlock s k) := by
  unfold State.synUnlock
  repeat' (first
    | (extract_lets +onlyGivenNames t; refine Only.with_state (t := t) ?_ fun _ => ?_; subst t; rotate_left; clear_value t)
    | (extract_lets +onlyGivenNames t; refine Only.with_pair (t := t) ?_ fun _ => ?_; subst t; rotate_left; clear_value t)
    | (extract_lets +onlyGivenNames t; clear_value t)
    | with_reducible exact Only.refl _ _
    | with_reducible assumption
    | with_reducible apply Only.fold _ _ (fun _ _ => ?_) ?_
    | with_reducible apply OnlyP.fold _ _ (fun _ _ => ?_) ?_
    | with_reducible apply OnlyP.of ?_
    | with_reducible apply OnlyP.cond _ ?_ ?_
    | with_reducible apply Only.cond _ ?_ ?_
    | with_reducible apply Only.wr ?_ ?_ _ _
    | with_reducible apply Only.orIn ?_ ?_ _ _
    | with_reducible apply Only.count_plain ?_ ?_ (by decide) _ _
    | with_reducible apply Only.count ?_ ?_ ?_ ?_ _ _
    | with_reducible apply Only.step ?_ (State.sticky_only ..) ?_
    | with_reducible apply Only.step ?_ (State.laneBack_only ..) ?_
    | with_reducible apply Only.step ?_ (State.setCore_only ..) ?_
    | with_reducible apply Only.step ?_ (State.coreFault_only ..) ?_
    | exact Eq.refl _
    | extract_lets
    | split)

theorem execLaserBiasWarn_only (engine : Fin 32) (laser : Fin 5) (bias : BitVec 16) (s : State) :
    OnlyO (some [F.cmd, F.fault, F.rings, P.CMD_NOTICE_DROP, P.HLT_FAULT_COUNT, P.HLT_STICKY, P.OPT_BIAS, P.OPT_FLAGS]) s (execLaserBiasWarn engine laser bias s) := by
  unfold execLaserBiasWarn
  repeat' (first
    | (extract_lets +onlyGivenNames t; refine OnlyO.with_state (t := t) ?_ fun _ => ?_; subst t; rotate_left; clear_value t)
    | (extract_lets +onlyGivenNames t; refine Only.with_state (t := t) ?_ fun _ => ?_; subst t; rotate_left; clear_value t)
    | (extract_lets +onlyGivenNames t; clear_value t)
    | with_reducible exact Only.refl _ _
    | with_reducible assumption
    | with_reducible apply OnlyO.of ?_
    | with_reducible apply OnlyO.cond _ ?_ ?_
    | with_reducible apply Only.cond _ ?_ ?_
    | with_reducible apply Only.wr ?_ ?_ _ _
    | with_reducible apply Only.orIn ?_ ?_ _ _
    | with_reducible apply Only.step ?_ (State.sticky_only ..) ?_
    | exact Eq.refl _
    | extract_lets
    | split)

theorem execLaserFailed_only (engine : Fin 32) (laser : Fin 5) (bias : BitVec 16) (powers : List ℤ) (s : State) :
    OnlyO (some ([F.cal, F.cmd, F.fabric, F.fault, F.fresh, F.hidden, F.linkRun, F.links, F.nhp, F.optics, F.pad, F.power, F.quay, F.refs, F.rings, F.servo, F.txSlots, F.windowAt, P.BUF_DF_AGENT, P.BUF_DF_INDEX, P.BUF_DF_POOL, P.BUF_DF_TIME, P.BUF_DOUBLE_FREE, P.BUF_FLAGS] ++
      [P.BUF_HELD, P.BUF_QUARANTINED, P.BUF_SIGNALS, P.CAL_FLAGS, P.CMD_NOTICE_DROP, P.CMD_REFUSED_COUNT, P.HIE_NEIGHBOUR_ID, P.HIE_PORT_STATE, P.HIE_PORT_VERSION, P.HLT_FAULT_COUNT, P.HLT_STICKY, P.HST_RXQ_BYTES, P.LAN_STATE, P.LNK_BEVT, P.LNK_STATE, P.OBS_OVF, P.OBS_TRACE_DROP, P.OBS_TRACE_HEAD, P.OBS_TRACE_OLDEST, P.OPT_BIAS, P.OPT_FLAGS, P.OPT_LASER_STATE, P.OPT_SPARE_USED, P.OPT_TX_POWER] ++
      [P.PRT_EGQ_BYTES, P.PRT_LINKDOWN_DROP, P.PRT_LINK_UP, P.PRT_PFC_TX_XOFF, P.PWR_DOMAIN_STATE, P.PWR_WAKE_ADMITTED, P.PWR_WAKE_MAX_WAIT, P.PWR_WAKE_QUEUE_LEN, P.PWR_WAKE_SLOPE, P.PWR_WAKE_WAITED, P.REF_ACTIVE, P.REF_DEV, P.REF_FLAGS, P.REF_HO_C, P.REF_HO_D, P.REF_HO_Y0, P.REF_QSTATE, P.REF_SWLOG_HEAD, P.REF_SWLOG_INFO, P.REF_SWLOG_TIME, P.REF_TSTATE, P.TBS_BOUND_NOW, P.TBS_BOUND_PS, P.TBS_DOM_SELECTED] ++
      [P.TBS_OVER_LIMIT_COUNT])) s (execLaserFailed engine laser bias powers s) := by
  unfold execLaserFailed
  repeat' (first
    | (extract_lets +onlyGivenNames t; refine OnlyO.with_state (t := t) ?_ fun _ => ?_; subst t; rotate_left; clear_value t)
    | (extract_lets +onlyGivenNames t; refine OnlyO.with_pair (t := t) ?_ fun _ => ?_; subst t; rotate_left; clear_value t)
    | (extract_lets +onlyGivenNames t; refine Only.with_state (t := t) ?_ fun _ => ?_; subst t; rotate_left; clear_value t)
    | (extract_lets +onlyGivenNames t; refine Only.with_pair (t := t) ?_ fun _ => ?_; subst t; rotate_left; clear_value t)
    | (extract_lets +onlyGivenNames t; clear_value t)
    | with_reducible exact Only.refl _ _
    | with_reducible assumption
    | with_reducible apply OnlyO.of ?_
    | with_reducible apply OnlyO.cond _ ?_ ?_
    | with_reducible apply Only.fold _ _ (fun _ _ => ?_) ?_
    | with_reducible apply OnlyP.fold _ _ (fun _ _ => ?_) ?_
    | with_reducible apply OnlyP.of ?_
    | with_reducible apply OnlyP.cond _ ?_ ?_
    | with_reducible apply Only.cond _ ?_ ?_
    | with_reducible apply Only.wr ?_ ?_ _ _
    | with_reducible apply Only.orIn ?_ ?_ _ _
    | with_reducible apply Only.wrS ?_ ?_ _ _ _
    | with_reducible apply Only.step ?_ (State.sticky_only ..) ?_
    | with_reducible apply Only.step ?_ (State.swapTest_only ..) ?_
    | with_reducible apply Only.step ?_ (State.laneOff_only ..) ?_
    | exact Eq.refl _
    | extract_lets
    | split)

theorem laserSwap_only (o : Origin) (b : List Byte) (s : State) :
    Only (some [F.cmd, F.optics, F.rings, P.CMD_NOTICE_DROP, P.CMD_REFUSED_COUNT, P.TBS_OVER_LIMIT_COUNT]) s (laserSwap o b s) := by
  unfold laserSwap
  repeat' (first
    | (extract_lets +onlyGivenNames t; refine Only.with_state (t := t) ?_ fun _ => ?_; subst t; rotate_left; clear_value t)
    | (extract_lets +onlyGivenNames t; clear_value t)
    | with_reducible exact Only.refl _ _
    | with_reducible assumption
    | with_reducible apply Only.cond _ ?_ ?_
    | with_reducible apply Only.step ?_ (State.finish_only ..) ?_
    | with_reducible apply Only.step ?_ (State.setOptics_only ..) ?_
    | with_reducible apply Only.step ?_ (State.notice_only ..) ?_
    | with_reducible apply Only.step ?_ (State.accept_only ..) ?_
    | exact Eq.refl _
    | extract_lets
    | split)

theorem State.setSwap_only (s : State) (e : ℕ) (f : Swap → Swap) :
    Only (some [F.optics]) s (State.setSwap s e f) := by
  unfold State.setSwap
  repeat' (first
    | with_reducible exact Only.refl _ _
    | with_reducible assumption
    | with_reducible apply Only.step ?_ (State.setOptics_only ..) ?_
    | exact Eq.refl _)

theorem execLaserSwapStart_only (engine : Fin 32) (s : State) :
    OnlyO (some ([F.cal, F.cmd, F.fabric, F.fault, F.fresh, F.hidden, F.linkRun, F.links, F.nhp, F.optics, F.pad, F.power, F.quay, F.refs, F.rings, F.servo, F.txSlots, F.windowAt, P.BUF_DF_AGENT, P.BUF_DF_INDEX, P.BUF_DF_POOL, P.BUF_DF_TIME, P.BUF_DOUBLE_FREE, P.BUF_FLAGS] ++
      [P.BUF_HELD, P.BUF_QUARANTINED, P.BUF_SIGNALS, P.CAL_FLAGS, P.CMD_NOTICE_DROP, P.CMD_REFUSED_COUNT, P.HIE_NEIGHBOUR_ID, P.HIE_PORT_STATE, P.HIE_PORT_VERSION, P.HLT_FAULT_COUNT, P.HLT_STICKY, P.HST_RXQ_BYTES, P.LAN_STATE, P.LNK_BEVT, P.LNK_STATE, P.OBS_OVF, P.OBS_TRACE_DROP, P.OBS_TRACE_HEAD, P.OBS_TRACE_OLDEST, P.PRT_EGQ_BYTES, P.PRT_LINKDOWN_DROP, P.PRT_LINK_UP, P.PRT_PFC_TX_XOFF, P.PWR_DOMAIN_STATE] ++
      [P.PWR_WAKE_ADMITTED, P.PWR_WAKE_MAX_WAIT, P.PWR_WAKE_QUEUE_LEN, P.PWR_WAKE_SLOPE, P.PWR_WAKE_WAITED, P.REF_ACTIVE, P.REF_DEV, P.REF_FLAGS, P.REF_HO_C, P.REF_HO_D, P.REF_HO_Y0, P.REF_QSTATE, P.REF_SWLOG_HEAD, P.REF_SWLOG_INFO, P.REF_SWLOG_TIME, P.REF_TSTATE, P.TBS_BOUND_NOW, P.TBS_BOUND_PS, P.TBS_DOM_SELECTED, P.TBS_OVER_LIMIT_COUNT])) s (execLaserSwapStart engine s) := by
  unfold execLaserSwapStart
  repeat' (first
    | (extract_lets +onlyGivenNames t; refine OnlyO.with_state (t := t) ?_ fun _ => ?_; subst t; rotate_left; clear_value t)
    | (extract_lets +onlyGivenNames t; refine OnlyO.with_pair (t := t) ?_ fun _ => ?_; subst t; rotate_left; clear_value t)
    | (extract_lets +onlyGivenNames t; refine Only.with_state (t := t) ?_ fun _ => ?_; subst t; rotate_left; clear_value t)
    | (extract_lets +onlyGivenNames t; refine Only.with_pair (t := t) ?_ fun _ => ?_; subst t; rotate_left; clear_value t)
    | (extract_lets +onlyGivenNames t; clear_value t)
    | with_reducible exact Only.refl _ _
    | with_reducible assumption
    | with_reducible apply OnlyO.of ?_
    | with_reducible apply OnlyO.cond _ ?_ ?_
    | with_reducible apply Only.fold _ _ (fun _ _ => ?_) ?_
    | with_reducible apply OnlyP.fold _ _ (fun _ _ => ?_) ?_
    | with_reducible apply OnlyP.of ?_
    | with_reducible apply OnlyP.cond _ ?_ ?_
    | with_reducible apply Only.cond _ ?_ ?_
    | with_reducible apply Only.step ?_ (State.laneOff_only ..) ?_
    | with_reducible apply Only.step ?_ (State.setSwap_only ..) ?_
    | exact Eq.refl _
    | extract_lets
    | split)

theorem execSpareRouted_only (engine : Fin 32) (s : State) :
    OnlyO (some [F.cal, F.cmd, F.optics, F.power, F.rings, P.CMD_NOTICE_DROP, P.CMD_REFUSED_COUNT, P.LAN_STATE, P.OPT_LASER_STATE, P.OPT_SPARE_USED, P.PWR_DOMAIN_STATE, P.PWR_WAKE_ADMITTED, P.PWR_WAKE_MAX_WAIT, P.PWR_WAKE_QUEUE_LEN, P.PWR_WAKE_SLOPE, P.PWR_WAKE_WAITED, P.TBS_OVER_LIMIT_COUNT]) s (execSpareRouted engine s) := by
  unfold execSpareRouted
  repeat' (first
    | (extract_lets +onlyGivenNames t; refine OnlyO.with_state (t := t) ?_ fun _ => ?_; subst t; rotate_left; clear_value t)
    | (extract_lets +onlyGivenNames t; refine Only.with_state (t := t) ?_ fun _ => ?_; subst t; rotate_left; clear_value t)
    | (extract_lets +onlyGivenNames t; clear_value t)
    | with_reducible exact Only.refl _ _
    | with_reducible assumption
    | with_reducible apply OnlyO.of ?_
    | with_reducible apply Only.step ?_ (State.setSwap_only ..) ?_
    | with_reducible apply Only.step ?_ (State.swapTest_only ..) ?_
    | with_reducible apply Only.step ?_ (State.wakeLanes_only ..) ?_
    | exact Eq.refl _
    | extract_lets
    | split)

theorem State.abortSwaps_only (s : State) :
    Only (some [F.cmd, F.optics, F.rings, P.CMD_REFUSED_COUNT, P.OPT_LASER_STATE, P.OPT_SPARE_USED, P.TBS_OVER_LIMIT_COUNT]) s (State.abortSwaps s) := by
  unfold State.abortSwaps
  repeat' (first
    | (extract_lets +onlyGivenNames t; refine Only.with_state (t := t) ?_ fun _ => ?_; subst t; rotate_left; clear_value t)
    | (extract_lets +onlyGivenNames t; refine Only.with_pair (t := t) ?_ fun _ => ?_; subst t; rotate_left; clear_value t)
    | (extract_lets +onlyGivenNames t; clear_value t)
    | with_reducible exact Only.refl _ _
    | with_reducible assumption
    | with_reducible apply Only.fold _ _ (fun _ _ => ?_) ?_
    | with_reducible apply OnlyP.fold _ _ (fun _ _ => ?_) ?_
    | with_reducible apply OnlyP.of ?_
    | with_reducible apply OnlyP.cond _ ?_ ?_
    | with_reducible apply Only.cond _ ?_ ?_
    | with_reducible apply Only.step ?_ (State.setOptics_only ..) ?_
    | with_reducible apply Only.step ?_ (State.spareServes_only ..) ?_
    | with_reducible apply Only.step ?_ (State.finish_only ..) ?_
    | exact Eq.refl _
    | extract_lets
    | split)

end Sys2Proof.Machine
end

