-- ==== Sys2Proof/Laws/OnlyEvents.lean ====
section
/-! SUPPORT. What each operation of Machine/Events.lean can change. -/

set_option linter.unusedTactic false
set_option linter.unreachableTactic false
set_option linter.tactic.unusedName false

namespace Sys2Proof.Machine

theorem State.putEntry_only (s : State) (r : Ring) (i : ℕ) (slots : ℕ) (bytes : List Byte) :
    Only (some []) s (State.putEntry s r i slots bytes) := by
  unfold State.putEntry
  repeat' (first
    | with_reducible exact Only.refl _ _
    | with_reducible assumption
    | with_reducible apply Only.fold _ _ (fun _ _ => ?_) ?_
    | with_reducible apply OnlyP.fold _ _ (fun _ _ => ?_) ?_
    | with_reducible apply OnlyP.of ?_
    | with_reducible apply Only.emit ?_ _
    | exact Eq.refl _)

theorem State.evtRing_only (s : State) (n : ℕ) (type : ℕ) (body : List Byte) :
    OnlyP (some [F.rings, P.HST_EVT_DROP]) s (State.evtRing s n type body) := by
  unfold State.evtRing
  repeat' (first
    | (extract_lets +onlyGivenNames t; refine OnlyP.with_state (t := t) ?_ fun _ => ?_; subst t; rotate_left; clear_value t)
    | (extract_lets +onlyGivenNames t; refine Only.with_state (t := t) ?_ fun _ => ?_; subst t; rotate_left; clear_value t)
    | (extract_lets +onlyGivenNames t; clear_value t)
    | with_reducible exact Only.refl _ _
    | with_reducible assumption
    | with_reducible apply OnlyP.of ?_
    | with_reducible apply OnlyP.cond _ ?_ ?_
    | with_reducible apply Only.cond _ ?_ ?_
    | with_reducible apply Only.count_plain ?_ ?_ (by decide) _ _
    | with_reducible apply Only.count ?_ ?_ ?_ ?_ _ _
    | with_reducible apply Only.step ?_ (State.putEntry_only ..) ?_
    | with_reducible apply Only.step ?_ (State.writeIndex_only ..) ?_
    | with_reducible apply Only.step ?_ (State.setRing_only ..) ?_
    | exact Eq.refl _
    | extract_lets
    | split)

theorem State.setEvt_only (s : State) (i : ℕ) (f : EvtInput → EvtInput) :
    Only (some [F.evtInputs]) s (State.setEvt s i f) := by
  unfold State.setEvt
  repeat' (first
    | with_reducible exact Only.refl _ _
    | with_reducible assumption
    | exact Eq.refl _
    | with_reducible apply Only.set_evtInputs ?_ ?_ _)

theorem State.setAcc_only (s : State) (x : EvtAcc) :
    Only (some [F.evtAccs]) s (State.setAcc s x) := by
  unfold State.setAcc
  repeat' (first
    | with_reducible exact Only.refl _ _
    | with_reducible assumption
    | exact Eq.refl _
    | with_reducible apply Only.set_evtAccs ?_ ?_ _)

theorem State.accEdge_only (s : State) (i : ℕ) (t : ℤ) (k : ℕ) :
    Only (some [F.evtAccs]) s (State.accEdge s i t k) := by
  unfold State.accEdge
  repeat' (first
    | (extract_lets +onlyGivenNames t; refine Only.with_state (t := t) ?_ fun _ => ?_; subst t; rotate_left; clear_value t)
    | (extract_lets +onlyGivenNames t; clear_value t)
    | with_reducible exact Only.refl _ _
    | with_reducible assumption
    | with_reducible apply Only.cond _ ?_ ?_
    | with_reducible apply Only.step ?_ (State.setAcc_only ..) ?_
    | exact Eq.refl _
    | extract_lets
    | split)

theorem State.accSettle_only (s : State) (k : ℕ) :
    Only (some [F.evtAccs]) s (State.accSettle s k) := by
  unfold State.accSettle
  repeat' (first
    | (extract_lets +onlyGivenNames t; refine Only.with_state (t := t) ?_ fun _ => ?_; subst t; rotate_left; clear_value t)
    | (extract_lets +onlyGivenNames t; clear_value t)
    | with_reducible exact Only.refl _ _
    | with_reducible assumption
    | with_reducible apply Only.cond _ ?_ ?_
    | with_reducible apply Only.step ?_ (State.setAcc_only ..) ?_
    | exact Eq.refl _
    | extract_lets
    | split)

theorem State.accMissed_only (s : State) (i : ℕ) (k : ℕ) :
    Only (some [F.evtAccs]) s (State.accMissed s i k) := by
  unfold State.accMissed
  repeat' (first
    | (extract_lets +onlyGivenNames t; refine Only.with_state (t := t) ?_ fun _ => ?_; subst t; rotate_left; clear_value t)
    | (extract_lets +onlyGivenNames t; clear_value t)
    | with_reducible exact Only.refl _ _
    | with_reducible assumption
    | with_reducible apply Only.cond _ ?_ ?_
    | with_reducible apply Only.step ?_ (State.accSettle_only ..) ?_
    | with_reducible apply Only.step ?_ (State.setAcc_only ..) ?_
    | exact Eq.refl _
    | extract_lets
    | split)

theorem evtStats_only (o : Origin) (b : List Byte) (s : State) :
    Only (some [F.cmd, F.evtAccs, F.rings, P.CMD_REFUSED_COUNT, P.TBS_OVER_LIMIT_COUNT]) s (evtStats o b s) := by
  unfold evtStats
  repeat' (first
    | (extract_lets +onlyGivenNames t; refine Only.with_state (t := t) ?_ fun _ => ?_; subst t; rotate_left; clear_value t)
    | (extract_lets +onlyGivenNames t; clear_value t)
    | with_reducible exact Only.refl _ _
    | with_reducible assumption
    | with_reducible apply Only.cond _ ?_ ?_
    | with_reducible apply Only.step ?_ (State.finish_only ..) ?_
    | with_reducible apply Only.step ?_ (State.accSettle_only ..) ?_
    | with_reducible apply Only.step ?_ (State.setAcc_only ..) ?_
    | exact Eq.refl _
    | extract_lets
    | split)

theorem State.tracePulse_only (s : State) (i : ℕ) (t : ℤ) (switch : Bool) :
    Only (some [F.cal]) s (State.tracePulse s i t switch) := by
  unfold State.tracePulse
  repeat' (first
    | (extract_lets +onlyGivenNames t; refine Only.with_state (t := t) ?_ fun _ => ?_; subst t; rotate_left; clear_value t)
    | (extract_lets +onlyGivenNames t; clear_value t)
    | with_reducible exact Only.refl _ _
    | with_reducible assumption
    | with_reducible apply Only.cond _ ?_ ?_
    | with_reducible apply Only.step ?_ (State.setCal_only ..) ?_
    | exact Eq.refl _
    | extract_lets
    | split)

theorem State.missEdge_only (s : State) (i : ℕ) :
    Only (some [F.evtAccs, F.evtInputs, P.EVT_MISSED]) s (State.missEdge s i) := by
  unfold State.missEdge
  repeat' (first
    | (extract_lets +onlyGivenNames t; refine Only.with_state (t := t) ?_ fun _ => ?_; subst t; rotate_left; clear_value t)
    | (extract_lets +onlyGivenNames t; refine Only.with_pair (t := t) ?_ fun _ => ?_; subst t; rotate_left; clear_value t)
    | (extract_lets +onlyGivenNames t; clear_value t)
    | with_reducible exact Only.refl _ _
    | with_reducible assumption
    | with_reducible apply Only.fold _ _ (fun _ _ => ?_) ?_
    | with_reducible apply OnlyP.fold _ _ (fun _ _ => ?_) ?_
    | with_reducible apply OnlyP.of ?_
    | with_reducible apply Only.count_plain ?_ ?_ (by decide) _ _
    | with_reducible apply Only.count ?_ ?_ ?_ ?_ _ _
    | with_reducible apply Only.step ?_ (State.setEvt_only ..) ?_
    | with_reducible apply Only.step ?_ (State.accMissed_only ..) ?_
    | exact Eq.refl _
    | extract_lets)

theorem State.takeEdge_only (s : State) (i : ℕ) (rising : Bool) (tick : ℕ) (code : ℕ) :
    Only (some [F.cal, F.evtAccs, F.evtInputs, F.linkRun, F.rings, F.tcal, P.EVT_COUNT, P.EVT_FLAGS, P.EVT_OOR, P.HST_EVT_DROP, P.TBS_OVER_LIMIT_COUNT]) s (State.takeEdge s i rising tick code) := by
  unfold State.takeEdge
  repeat' (first
    | (extract_lets +onlyGivenNames t; refine Only.with_state (t := t) ?_ fun _ => ?_; subst t; rotate_left; clear_value t)
    | (extract_lets +onlyGivenNames t; refine Only.with_pair (t := t) ?_ fun _ => ?_; subst t; rotate_left; clear_value t)
    | (extract_lets +onlyGivenNames t; clear_value t)
    | with_reducible exact Only.refl _ _
    | with_reducible assumption
    | with_reducible apply Only.fold _ _ (fun _ _ => ?_) ?_
    | with_reducible apply OnlyP.fold _ _ (fun _ _ => ?_) ?_
    | with_reducible apply OnlyP.of ?_
    | with_reducible apply OnlyP.cond _ ?_ ?_
    | with_reducible apply Only.cond _ ?_ ?_
    | with_reducible apply Only.orIn ?_ ?_ _ _
    | with_reducible apply Only.count_plain ?_ ?_ (by decide) _ _
    | with_reducible apply Only.count ?_ ?_ ?_ ?_ _ _
    | with_reducible apply Only.step ?_ (State.setEvt_only ..) ?_
    | with_reducible apply Only.fst ?_ (State.evtRing_only ..) ?_
    | with_reducible apply Only.pair (by assumption) (State.evtRing_only ..) ?_ ?_
    | with_reducible apply OnlyP.step ?_ (State.evtRing_only ..) ?_
    | with_reducible apply Only.step ?_ (State.accEdge_only ..) ?_
    | with_reducible apply Only.step ?_ (State.tracePulse_only ..) ?_
    | with_reducible apply Only.step ?_ (State.calPulse_only ..) ?_
    | exact Eq.refl _
    | extract_lets
    | split)

theorem execEvtEdge_only (input : Fin 9) (rising : Bool) (tick : ℕ) (code : Fin 513) (s : State) :
    OnlyO (some [F.cal, F.evtAccs, F.evtInputs, F.linkRun, F.rings, F.tcal, P.EVT_COUNT, P.EVT_FLAGS, P.EVT_MISSED, P.EVT_OOR, P.HST_EVT_DROP, P.TBS_OVER_LIMIT_COUNT]) s (execEvtEdge input rising tick code s) := by
  unfold execEvtEdge
  repeat' (first
    | (extract_lets +onlyGivenNames t; refine OnlyO.with_state (t := t) ?_ fun _ => ?_; subst t; rotate_left; clear_value t)
    | (extract_lets +onlyGivenNames t; refine Only.with_state (t := t) ?_ fun _ => ?_; subst t; rotate_left; clear_value t)
    | (extract_lets +onlyGivenNames t; clear_value t)
    | with_reducible exact Only.refl _ _
    | with_reducible assumption
    | with_reducible apply OnlyO.of ?_
    | with_reducible apply OnlyO.cond _ ?_ ?_
    | with_reducible apply Only.cond _ ?_ ?_
    | with_reducible apply Only.step ?_ (State.setEvt_only ..) ?_
    | with_reducible apply Only.step ?_ (State.missEdge_only ..) ?_
    | with_reducible apply Only.step ?_ (State.takeEdge_only ..) ?_
    | exact Eq.refl _
    | extract_lets
    | split)

theorem execCodeDensityEnd_only (input : Fin 9) (hits : List ℕ) (oor : ℕ) (rms : BitVec 16) (delay : BitVec 32) (s : State) :
    OnlyO (some [F.cal, F.cmd, F.fault, F.rings, P.CMD_NOTICE_DROP, P.EVT_CD_WIDTH, P.EVT_FLAGS, P.EVT_INL, P.EVT_SS_RMS, P.HLT_FAULT_COUNT, P.HLT_STICKY]) s (execCodeDensityEnd input hits oor rms delay s) := by
  unfold execCodeDensityEnd
  repeat' (first
    | (extract_lets +onlyGivenNames t; refine OnlyO.with_state (t := t) ?_ fun _ => ?_; subst t; rotate_left; clear_value t)
    | (extract_lets +onlyGivenNames t; refine OnlyO.with_pair (t := t) ?_ fun _ => ?_; subst t; rotate_left; clear_value t)
    | (extract_lets +onlyGivenNames t; refine Only.with_state (t := t) ?_ fun _ => ?_; subst t; rotate_left; clear_value t)
    | (extract_lets +onlyGivenNames t; refine Only.with_pair (t := t) ?_ fun _ => ?_; subst t; rotate_left; clear_value t)
    | (extract_lets +onlyGivenNames t; clear_value t)
    | with_reducible exact Only.refl _ _
    | with_reducible assumption
    | with_reducible apply OnlyO.of ?_
    | with_reducible apply OnlyO.cond _ ?_ ?_
    | with_reducible apply Only.fold _ _ (fun _ _ => ?_) ?_
    | with_reducible apply OnlyP.fold _ _ (fun _ _ => ?_) ?_
    | with_reducible apply OnlyP.of ?_
    | with_reducible apply OnlyP.cond _ ?_ ?_
    | with_reducible apply Only.cond _ ?_ ?_
    | with_reducible apply Only.wr ?_ ?_ _ _
    | with_reducible apply Only.orIn ?_ ?_ _ _
    | with_reducible apply Only.step ?_ (State.setCal_only ..) ?_
    | with_reducible apply Only.step ?_ (State.sticky_only ..) ?_
    | exact Eq.refl _
    | extract_lets
    | split)

theorem execVernierUnitChange_only (input : Fin 9) (s : State) :
    OnlyO (some ([F.cal, F.cmd, F.fault, F.fresh, F.refs, F.rings, F.servo, P.CAL_EVT_DELAY, P.CAL_OUT_RES, P.CAL_PORT_RES, P.CAL_REFIN_RES, P.CMD_NOTICE_DROP, P.EVT_LIVE_UNIT, P.EVT_RES, P.HLT_FAULT_COUNT, P.HLT_STICKY, P.REF_ACTIVE, P.REF_BREF, P.REF_DEV, P.REF_FLAGS, P.REF_HO_C, P.REF_HO_D, P.REF_HO_Y0, P.REF_KIND] ++
      [P.REF_QSTATE, P.REF_SWLOG_HEAD, P.REF_SWLOG_INFO, P.REF_SWLOG_TIME, P.REF_TSTATE, P.TBS_BOUND_NOW, P.TBS_BOUND_PS, P.TBS_DOM_SELECTED])) s (execVernierUnitChange input s) := by
  unfold execVernierUnitChange
  repeat' (first
    | (extract_lets +onlyGivenNames t; refine OnlyO.with_state (t := t) ?_ fun _ => ?_; subst t; rotate_left; clear_value t)
    | (extract_lets +onlyGivenNames t; refine Only.with_state (t := t) ?_ fun _ => ?_; subst t; rotate_left; clear_value t)
    | (extract_lets +onlyGivenNames t; clear_value t)
    | with_reducible exact Only.refl _ _
    | with_reducible assumption
    | with_reducible apply OnlyO.of ?_
    | with_reducible apply OnlyO.cond _ ?_ ?_
    | with_reducible apply Only.cond _ ?_ ?_
    | with_reducible apply Only.wr ?_ ?_ _ _
    | with_reducible apply Only.step ?_ (State.setCal_only ..) ?_
    | with_reducible apply Only.step ?_ (State.showEvtDelay_only ..) ?_
    | with_reducible apply Only.step ?_ (State.showResidual_only ..) ?_
    | exact Eq.refl _
    | extract_lets
    | split)

theorem State.runStart_only (s : State) (o : Origin) (scope : ℕ) (items : List CalItem) :
    Only (some [F.cal, F.cmd, F.power, F.rings, P.CMD_REFUSED_COUNT, P.PWR_WAKE_QUEUE_LEN, P.PWR_WAKE_SLOPE, P.TBS_OVER_LIMIT_COUNT]) s (State.runStart s o scope items) := by
  unfold State.runStart
  repeat' (first
    | (extract_lets +onlyGivenNames t; refine Only.with_state (t := t) ?_ fun _ => ?_; subst t; rotate_left; clear_value t)
    | (extract_lets +onlyGivenNames t; clear_value t)
    | with_reducible exact Only.refl _ _
    | with_reducible assumption
    | with_reducible apply Only.step ?_ (State.wakeCancel_only ..) ?_
    | with_reducible apply Only.step ?_ (State.accept_only ..) ?_
    | with_reducible apply Only.step ?_ (State.setCal_only ..) ?_
    | exact Eq.refl _
    | extract_lets)

theorem calRun_only (o : Origin) (b : List Byte) (s : State) : Only (some [F.cal, F.cmd, F.fresh, F.linkRun, F.power, F.rings, P.CMD_REFUSED_COUNT, P.PWR_WAKE_QUEUE_LEN, P.PWR_WAKE_SLOPE, P.TBS_OVER_LIMIT_COUNT]) s (calRun o b s) := by
  unfold calRun
  dsimp only
  have f : ∀ p, Only (some [F.cal, F.cmd, F.fresh, F.linkRun, F.power, F.rings, P.CMD_REFUSED_COUNT, P.PWR_WAKE_QUEUE_LEN, P.PWR_WAKE_SLOPE, P.TBS_OVER_LIMIT_COUNT]) s (s.finish o p []) := fun p => (State.finish_only ..).mono (by exact Eq.refl _)
  refine Only.cond _ (f _) (Only.cond _ (f _) (Only.cond _ (f _) (Only.cond _ (f _) (Only.cond _ (f _) (Only.cond _
    (Only.cond _ ?_ (f _)) ?_)))))
  · exact Only.step (Only.step (Only.set_linkRun (t := { s with fresh := s.fresh + 1 }) (Only.set_fresh (Only.refl _ s) (by exact Eq.refl _) _)
      (by exact Eq.refl _) _) (State.nhpSend_only ..) (by exact Eq.refl _)) (State.runStart_only ..) (by exact Eq.refl _)
  · exact (State.runStart_only ..).mono (by exact Eq.refl _)

theorem State.runDone_only (s : State) (r : CalRun) :
    Only (some [F.cal, F.cmd, F.power, F.rings, P.CMD_NOTICE_DROP, P.CMD_REFUSED_COUNT, P.LAN_STATE, P.PWR_DOMAIN_STATE, P.PWR_WAKE_ADMITTED, P.PWR_WAKE_MAX_WAIT, P.PWR_WAKE_QUEUE_LEN, P.PWR_WAKE_SLOPE, P.PWR_WAKE_WAITED, P.TBS_OVER_LIMIT_COUNT]) s (State.runDone s r) := by
  unfold State.runDone
  repeat' (first
    | with_reducible exact Only.refl _ _
    | with_reducible assumption
    | with_reducible apply Only.step ?_ (State.calStart_only ..) ?_
    | with_reducible apply Only.step ?_ (State.finish_only ..) ?_
    | with_reducible apply Only.step ?_ (State.setCal_only ..) ?_
    | exact Eq.refl _)

theorem State.runAborted_only (s : State) :
    Only (some [F.cal, F.cmd, F.linkRun, F.power, F.rings, P.CMD_NOTICE_DROP, P.CMD_REFUSED_COUNT, P.LAN_STATE, P.PWR_DOMAIN_STATE, P.PWR_WAKE_ADMITTED, P.PWR_WAKE_MAX_WAIT, P.PWR_WAKE_QUEUE_LEN, P.PWR_WAKE_SLOPE, P.PWR_WAKE_WAITED, P.TBS_OVER_LIMIT_COUNT]) s (State.runAborted s) := by
  unfold State.runAborted
  repeat' (first
    | with_reducible exact Only.refl _ _
    | with_reducible assumption
    | with_reducible apply Only.step ?_ (State.calStart_only ..) ?_
    | with_reducible apply Only.step ?_ (State.finish_only ..) ?_
    | with_reducible apply Only.step ?_ (State.setCal_only ..) ?_
    | exact Eq.refl _
    | split
    | with_reducible apply Only.set_linkRun ?_ ?_ _)

theorem execCalRunDone_only (freq : ℤ) (s : State) :
    OnlyO (some [F.cal, F.cmd, F.linkRun, F.links, F.power, F.rings, F.shadows, P.CAL_TRACE_FREQ, P.CAL_TRACE_OFFSET, P.CAL_TRACE_TIME, P.CAL_TRACE_U, P.CMD_NOTICE_DROP, P.CMD_REFUSED_COUNT, P.LAN_STATE, P.PWR_DOMAIN_STATE, P.PWR_WAKE_ADMITTED, P.PWR_WAKE_MAX_WAIT, P.PWR_WAKE_QUEUE_LEN, P.PWR_WAKE_SLOPE, P.PWR_WAKE_WAITED, P.TBS_OVER_LIMIT_COUNT]) s (execCalRunDone freq s) := by
  unfold execCalRunDone
  repeat' (first
    | (extract_lets +onlyGivenNames t; refine OnlyO.with_state (t := t) ?_ fun _ => ?_; subst t; rotate_left; clear_value t)
    | (extract_lets +onlyGivenNames t; refine Only.with_state (t := t) ?_ fun _ => ?_; subst t; rotate_left; clear_value t)
    | (extract_lets +onlyGivenNames t; clear_value t)
    | with_reducible exact Only.refl _ _
    | with_reducible assumption
    | with_reducible apply OnlyO.of ?_
    | with_reducible apply OnlyO.cond _ ?_ ?_
    | with_reducible apply Only.cond _ ?_ ?_
    | with_reducible apply Only.wr ?_ ?_ _ _
    | with_reducible apply Only.wrS ?_ ?_ _ _ _
    | with_reducible apply Only.wrShadow ?_ ?_ _ _ _
    | with_reducible apply Only.step ?_ (State.setCal_only ..) ?_
    | with_reducible apply Only.step ?_ (State.runDone_only ..) ?_
    | with_reducible apply Only.step ?_ (State.nhpSend_only ..) ?_
    | with_reducible apply Only.step ?_ (State.setLink_only ..) ?_
    | exact Eq.refl _
    | extract_lets
    | split
    | with_reducible apply Only.set_linkRun ?_ ?_ _)

theorem execCalItemEnd_only (kind : Fin 5) (index : Fin 512) (m : CalMeasure) (s : State) :
    OnlyO (some ([F.cal, F.cmd, F.fault, F.fresh, F.power, F.refs, F.rings, F.servo, P.CAL_DRX, P.CAL_DTX, P.CAL_EVT_DELAY, P.CAL_EYE_H, P.CAL_EYE_W, P.CAL_FLAGS, P.CAL_LANE_TCAL, P.CAL_OUT_RES, P.CAL_PORT_RES, P.CAL_REFIN_DELAY, P.CAL_REFIN_RES, P.CAL_STARTUP_DONE, P.CMD_NOTICE_DROP, P.EVT_RES, P.HLT_FAULT_COUNT, P.HLT_STICKY] ++
      [P.LAN_SLICER, P.LAN_STATE, P.LCK_TXPATH, P.LCK_WINDOW, P.PWR_DOMAIN_STATE, P.PWR_WAKE_ADMITTED, P.PWR_WAKE_MAX_WAIT, P.PWR_WAKE_QUEUE_LEN, P.PWR_WAKE_SLOPE, P.PWR_WAKE_WAITED, P.REF_ACTIVE, P.REF_BREF, P.REF_DEV, P.REF_FLAGS, P.REF_HO_C, P.REF_HO_D, P.REF_HO_Y0, P.REF_KIND, P.REF_QSTATE, P.REF_SWLOG_HEAD, P.REF_SWLOG_INFO, P.REF_SWLOG_TIME, P.REF_TSTATE, P.TBS_BOUND_NOW] ++
      [P.TBS_BOUND_PS, P.TBS_DOM_SELECTED])) s (execCalItemEnd kind index m s) := by
  unfold execCalItemEnd
  repeat' (first
    | (extract_lets +onlyGivenNames t; refine OnlyO.with_state (t := t) ?_ fun _ => ?_; subst t; rotate_left; clear_value t)
    | (extract_lets +onlyGivenNames t; refine Only.with_state (t := t) ?_ fun _ => ?_; subst t; rotate_left; clear_value t)
    | (extract_lets +onlyGivenNames t; clear_value t)
    | with_reducible exact Only.refl _ _
    | with_reducible assumption
    | with_reducible apply OnlyO.of ?_
    | with_reducible apply OnlyO.cond _ ?_ ?_
    | with_reducible apply Only.cond _ ?_ ?_
    | with_reducible apply Only.orIn ?_ ?_ _ _
    | with_reducible apply Only.step ?_ (State.applyItem_only ..) ?_
    | with_reducible apply Only.step ?_ (State.runCount_only ..) ?_
    | with_reducible apply Only.step ?_ (State.setCal_only ..) ?_
    | with_reducible apply Only.step ?_ (State.calStart_only ..) ?_
    | with_reducible apply Only.step ?_ (State.startupTest_only ..) ?_
    | exact Eq.refl _
    | extract_lets
    | split)

theorem execCalAutoTrigger_only (kind : Fin 5) (index : Fin 512) (temp : ℤ) (s : State) :
    OnlyO (some [F.cal, F.cmd, F.power, F.rings, P.CMD_NOTICE_DROP, P.LAN_STATE, P.PWR_DOMAIN_STATE, P.PWR_WAKE_ADMITTED, P.PWR_WAKE_MAX_WAIT, P.PWR_WAKE_QUEUE_LEN, P.PWR_WAKE_SLOPE, P.PWR_WAKE_WAITED]) s (execCalAutoTrigger kind index temp s) := by
  unfold execCalAutoTrigger
  repeat' (first
    | (extract_lets +onlyGivenNames t; refine OnlyO.with_state (t := t) ?_ fun _ => ?_; subst t; rotate_left; clear_value t)
    | (extract_lets +onlyGivenNames t; refine Only.with_state (t := t) ?_ fun _ => ?_; subst t; rotate_left; clear_value t)
    | (extract_lets +onlyGivenNames t; clear_value t)
    | with_reducible exact Only.refl _ _
    | with_reducible assumption
    | with_reducible apply OnlyO.of ?_
    | with_reducible apply OnlyO.cond _ ?_ ?_
    | with_reducible apply Only.cond _ ?_ ?_
    | with_reducible apply Only.step ?_ (State.setCal_only ..) ?_
    | with_reducible apply Only.step ?_ (State.calStart_only ..) ?_
    | exact Eq.refl _
    | extract_lets
    | split)

theorem execPortResUpdate_only (temps : List (Fin 512 × ℤ)) (s : State) :
    OnlyO (some ([F.cal, F.cmd, F.fault, F.fresh, F.power, F.refs, F.rings, F.servo, P.CAL_OUT_RES, P.CAL_PORT_RES, P.CAL_REFIN_RES, P.CMD_NOTICE_DROP, P.EVT_RES, P.HLT_FAULT_COUNT, P.HLT_STICKY, P.LAN_STATE, P.PWR_DOMAIN_STATE, P.PWR_WAKE_ADMITTED, P.PWR_WAKE_MAX_WAIT, P.PWR_WAKE_QUEUE_LEN, P.PWR_WAKE_SLOPE, P.PWR_WAKE_WAITED, P.REF_ACTIVE, P.REF_BREF] ++
      [P.REF_DEV, P.REF_FLAGS, P.REF_HO_C, P.REF_HO_D, P.REF_HO_Y0, P.REF_KIND, P.REF_QSTATE, P.REF_SWLOG_HEAD, P.REF_SWLOG_INFO, P.REF_SWLOG_TIME, P.REF_TSTATE, P.TBS_BOUND_NOW, P.TBS_BOUND_PS, P.TBS_DOM_SELECTED])) s (execPortResUpdate temps s) := by
  unfold execPortResUpdate
  repeat' (first
    | (extract_lets +onlyGivenNames t; refine OnlyO.with_state (t := t) ?_ fun _ => ?_; subst t; rotate_left; clear_value t)
    | (extract_lets +onlyGivenNames t; refine OnlyO.with_pair (t := t) ?_ fun _ => ?_; subst t; rotate_left; clear_value t)
    | (extract_lets +onlyGivenNames t; refine Only.with_state (t := t) ?_ fun _ => ?_; subst t; rotate_left; clear_value t)
    | (extract_lets +onlyGivenNames t; refine Only.with_pair (t := t) ?_ fun _ => ?_; subst t; rotate_left; clear_value t)
    | (extract_lets +onlyGivenNames t; clear_value t)
    | with_reducible exact Only.refl _ _
    | with_reducible assumption
    | with_reducible apply OnlyO.of ?_
    | with_reducible apply Only.fold _ _ (fun _ _ => ?_) ?_
    | with_reducible apply OnlyP.fold _ _ (fun _ _ => ?_) ?_
    | with_reducible apply OnlyP.of ?_
    | with_reducible apply Only.step ?_ (State.setCal_only ..) ?_
    | with_reducible apply Only.step ?_ (State.calStart_only ..) ?_
    | with_reducible apply Only.step ?_ (State.showResidual_only ..) ?_
    | exact Eq.refl _
    | extract_lets)

end Sys2Proof.Machine
end

