-- ==== Sys2Proof/Laws/OnlyGnss.lean ====
section
/-! SUPPORT. What each operation of Machine/Gnss.lean can change. -/

set_option linter.unusedTactic false
set_option linter.unreachableTactic false
set_option linter.tactic.unusedName false

namespace Sys2Proof.Machine

theorem State.setGnss_only (s : State) (f : Gnss → Gnss) :
    Only (some [F.gnss]) s (State.setGnss s f) := by
  unfold State.setGnss
  repeat' (first
    | with_reducible exact Only.refl _ _
    | with_reducible assumption
    | exact Eq.refl _
    | with_reducible apply Only.set_gnss ?_ ?_ _)

theorem State.gnssCount_only (s : State) :
    Only (some [P.GNS_SATS_TRACKED]) s (State.gnssCount s) := by
  unfold State.gnssCount
  repeat' (first
    | with_reducible exact Only.refl _ _
    | with_reducible assumption
    | with_reducible apply Only.cond _ ?_ ?_
    | with_reducible apply Only.wr ?_ ?_ _ _
    | exact Eq.refl _
    | split)

theorem execAntBiasMeasure_only (ma : BitVec 16) (s : State) :
    OnlyO (some [F.cmd, F.fault, F.gnss, F.rings, P.CMD_NOTICE_DROP, P.GNS_ANT_STATUS, P.GNS_FLAGS, P.HLT_FAULT_COUNT, P.HLT_STICKY]) s (execAntBiasMeasure ma s) := by
  unfold execAntBiasMeasure
  repeat' (first
    | with_reducible exact Only.refl _ _
    | with_reducible assumption
    | with_reducible apply OnlyO.of ?_
    | with_reducible apply OnlyO.cond _ ?_ ?_
    | with_reducible apply Only.cond _ ?_ ?_
    | with_reducible apply Only.wr ?_ ?_ _ _
    | with_reducible apply Only.orIn ?_ ?_ _ _
    | with_reducible apply Only.step ?_ (State.sticky_only ..) ?_
    | with_reducible apply Only.step ?_ (State.setGnss_only ..) ?_
    | exact Eq.refl _
    | split)

theorem execAcqCellFound_only (signal : Fin 5) (sat : BitVec 8) (elev : Fin 91) (cell : AcqCell) (first : ℕ) (second : ℕ) (s : State) :
    OnlyO (some [F.gnss, P.GNS_SATS_TRACKED]) s (execAcqCellFound signal sat elev cell first second s) := by
  unfold execAcqCellFound
  repeat' (first
    | (extract_lets +onlyGivenNames t; refine OnlyO.with_state (t := t) ?_ fun _ => ?_; subst t; rotate_left; clear_value t)
    | (extract_lets +onlyGivenNames t; refine OnlyO.with_pair (t := t) ?_ fun _ => ?_; subst t; rotate_left; clear_value t)
    | (extract_lets +onlyGivenNames t; refine Only.with_state (t := t) ?_ fun _ => ?_; subst t; rotate_left; clear_value t)
    | (extract_lets +onlyGivenNames t; refine Only.with_pair (t := t) ?_ fun _ => ?_; subst t; rotate_left; clear_value t)
    | (extract_lets +onlyGivenNames t; clear_value t)
    | with_reducible exact Only.refl _ _
    | with_reducible assumption
    | with_reducible apply OnlyO.of ?_
    | with_reducible apply OnlyO.cond _ ?_ ?_
    | with_reducible apply Only.fold _ _ (fun _ _ => ?_) ?_
    | with_reducible apply OnlyP.fold _ _ (fun _ _ => ?_) ?_
    | with_reducible apply OnlyP.of ?_
    | with_reducible apply OnlyP.cond _ ?_ ?_
    | with_reducible apply Only.cond _ ?_ ?_
    | with_reducible apply Only.step ?_ (State.setGnss_only ..) ?_
    | with_reducible apply Only.step ?_ (State.gnssCount_only ..) ?_
    | exact Eq.refl _
    | extract_lets
    | split)

theorem State.codeLoops_only (s : State) (cn0 : List (Fin 5 × BitVec 8 × BitVec 6)) :
    Only (some [F.gnss]) s (State.codeLoops s cn0) := by
  unfold State.codeLoops
  repeat' (first
    | (extract_lets +onlyGivenNames t; refine Only.with_state (t := t) ?_ fun _ => ?_; subst t; rotate_left; clear_value t)
    | (extract_lets +onlyGivenNames t; have q : ℕ := t; clear q; clear_value t)
    | (extract_lets +onlyGivenNames t; have q : Bool := t; clear q; clear_value t)
    | (extract_lets +onlyGivenNames t; have q : ℤ := t; clear q; clear_value t)
    | (extract_lets +onlyGivenNames t; have q : Option _ := t; clear q; clear_value t)
    | (extract_lets +onlyGivenNames t; have q : List _ := t; clear q; clear_value t)
    | (extract_lets +onlyGivenNames t; have q : _ × _ := t; clear q; clear_value t)
    | with_reducible exact Only.refl _ _
    | with_reducible assumption
    | with_reducible apply Only.cond _ ?_ ?_
    | with_reducible apply Only.step ?_ (State.setGnss_only ..) ?_
    | exact Eq.refl _
    | extract_lets
    | split)

theorem execChannelRelease_only (signal : Fin 5) (sat : BitVec 8) (cn0 : BitVec 6) (s : State) :
    OnlyO (some [F.gnss, P.GNS_SATS_TRACKED]) s (execChannelRelease signal sat cn0 s) := by
  unfold execChannelRelease
  repeat' (first
    | with_reducible exact Only.refl _ _
    | with_reducible assumption
    | with_reducible apply OnlyO.of ?_
    | with_reducible apply OnlyO.cond _ ?_ ?_
    | with_reducible apply Only.cond _ ?_ ?_
    | with_reducible apply Only.step ?_ (State.gnssCount_only ..) ?_
    | with_reducible apply Only.step ?_ (State.setGnss_only ..) ?_
    | exact Eq.refl _
    | split)

theorem State.surveyBegin_only (s : State) :
    Only (some [F.gnss, P.GNS_SURVEY_DONE, P.GNS_SURVEY_STATE]) s (State.surveyBegin s) := by
  unfold State.surveyBegin
  repeat' (first
    | (extract_lets +onlyGivenNames t; refine Only.with_state (t := t) ?_ fun _ => ?_; subst t; rotate_left; clear_value t)
    | (extract_lets +onlyGivenNames t; clear_value t)
    | with_reducible exact Only.refl _ _
    | with_reducible assumption
    | with_reducible apply Only.cond _ ?_ ?_
    | with_reducible apply Only.wr ?_ ?_ _ _
    | with_reducible apply Only.step ?_ (State.setGnss_only ..) ?_
    | exact Eq.refl _
    | extract_lets
    | split)

theorem State.surveyAdd_only (s : State) (p : ℤ × ℤ × ℤ) :
    Only (some [F.gnss, P.GNS_SURVEY_DONE, P.GNS_SURVEY_STATE, P.GNS_SURV_SIGMA, P.GNS_SURV_X, P.GNS_SURV_Y, P.GNS_SURV_Z]) s (State.surveyAdd s p) := by
  unfold State.surveyAdd
  repeat' (first
    | (extract_lets +onlyGivenNames t; refine Only.with_state (t := t) ?_ fun _ => ?_; subst t; rotate_left; clear_value t)
    | (extract_lets +onlyGivenNames t; clear_value t)
    | with_reducible exact Only.refl _ _
    | with_reducible assumption
    | with_reducible apply Only.cond _ ?_ ?_
    | with_reducible apply Only.wr ?_ ?_ _ _
    | with_reducible apply Only.wrS ?_ ?_ _ _ _
    | with_reducible apply Only.step ?_ (State.setGnss_only ..) ?_
    | exact Eq.refl _
    | extract_lets
    | split)

theorem State.surveySecond_only (s : State) (position : Option (ℤ × ℤ × ℤ)) :
    Only (some [F.gnss, P.GNS_FLAGS, P.GNS_SURVEY_DONE, P.GNS_SURVEY_RESTARTS, P.GNS_SURVEY_STATE, P.GNS_SURV_SIGMA, P.GNS_SURV_X, P.GNS_SURV_Y, P.GNS_SURV_Z]) s (State.surveySecond s position) := by
  unfold State.surveySecond
  repeat' (first
    | (extract_lets +onlyGivenNames t; refine Only.with_state (t := t) ?_ fun _ => ?_; subst t; rotate_left; clear_value t)
    | (extract_lets +onlyGivenNames t; refine Only.with_pair (t := t) ?_ fun _ => ?_; subst t; rotate_left; clear_value t)
    | (extract_lets +onlyGivenNames t; clear_value t)
    | with_reducible exact Only.refl _ _
    | with_reducible assumption
    | with_reducible apply Only.fold _ _ (fun _ _ => ?_) ?_
    | with_reducible apply OnlyP.fold _ _ (fun _ _ => ?_) ?_
    | with_reducible apply OnlyP.of ?_
    | with_reducible apply OnlyP.cond _ ?_ ?_
    | with_reducible apply Only.cond _ ?_ ?_
    | with_reducible apply Only.wr ?_ ?_ _ _
    | with_reducible apply Only.orIn ?_ ?_ _ _
    | with_reducible apply Only.count_plain ?_ ?_ (by decide) _ _
    | with_reducible apply Only.count ?_ ?_ ?_ ?_ _ _
    | with_reducible apply Only.step ?_ (State.surveyAdd_only ..) ?_
    | with_reducible apply Only.step ?_ (State.setGnss_only ..) ?_
    | with_reducible apply Only.step ?_ (State.surveyBegin_only ..) ?_
    | exact Eq.refl _
    | extract_lets
    | split)

theorem State.surveyGap_only (s : State) (k : ℕ) :
    Only (some [F.gnss, P.GNS_SURVEY_STATE]) s (State.surveyGap s k) := by
  unfold State.surveyGap
  repeat' (first
    | with_reducible exact Only.refl _ _
    | with_reducible assumption
    | with_reducible apply Only.cond _ ?_ ?_
    | with_reducible apply Only.wr ?_ ?_ _ _
    | with_reducible apply Only.step ?_ (State.setGnss_only ..) ?_
    | exact Eq.refl _
    | split)

theorem State.lastPulse_only (s : State) (r : List Byte) :
    Only (some [P.GNS_LAST_PULSE]) s (State.lastPulse s r) := by
  unfold State.lastPulse
  repeat' (first
    | with_reducible exact Only.refl _ _
    | with_reducible assumption
    | with_reducible apply Only.fold _ _ (fun _ _ => ?_) ?_
    | with_reducible apply OnlyP.fold _ _ (fun _ _ => ?_) ?_
    | with_reducible apply OnlyP.of ?_
    | with_reducible apply Only.wr ?_ ?_ _ _
    | exact Eq.refl _)

theorem State.gnssRecord_only (s : State) (type : ℕ) (r : List Byte) :
    Only (some [F.rings, P.HST_EVT_DROP]) s (State.gnssRecord s type r) := by
  unfold State.gnssRecord
  repeat' (first
    | with_reducible exact Only.refl _ _
    | with_reducible assumption
    | with_reducible apply Only.cond _ ?_ ?_
    | with_reducible apply Only.fst ?_ (State.evtRing_only ..) ?_
    | with_reducible apply Only.pair (by assumption) (State.evtRing_only ..) ?_ ?_
    | with_reducible apply OnlyP.step ?_ (State.evtRing_only ..) ?_
    | exact Eq.refl _
    | split)

theorem State.gnssUtc_only (s : State) (x : GnssFix) :
    Only (some [F.shadows, F.time, P.TBS_LEAP, P.TBS_UTC_OFFSET, P.TBS_UTC_VALID]) s (State.gnssUtc s x) := by
  unfold State.gnssUtc
  repeat' (first
    | with_reducible exact Only.refl _ _
    | with_reducible assumption
    | with_reducible apply Only.cond _ ?_ ?_
    | with_reducible apply Only.wr ?_ ?_ _ _
    | with_reducible apply Only.wrBoth ?_ ?_ ?_ _ _
    | with_reducible apply Only.step ?_ (State.announceLeap_only ..) ?_
    | exact Eq.refl _
    | split)

theorem execGnsPulse_only (x : GnssFix) (freq : ℤ) (osc : ℤ) (s : State) :
    OnlyO (some ([F.cmd, F.fault, F.fresh, F.gnss, F.refs, F.rings, F.servo, F.shadows, F.time, P.CMD_NOTICE_DROP, P.GNS_FLAGS, P.GNS_LAST_PULSE, P.GNS_SURVEY_DONE, P.GNS_SURVEY_RESTARTS, P.GNS_SURVEY_STATE, P.GNS_SURV_SIGMA, P.GNS_SURV_X, P.GNS_SURV_Y, P.GNS_SURV_Z, P.HLT_FAULT_COUNT, P.HLT_STICKY, P.HST_EVT_DROP, P.REF_ACTIVE, P.REF_BREF] ++
      [P.REF_DEV, P.REF_DISQ_COUNT, P.REF_FLAGS, P.REF_FREQ, P.REF_HO_C, P.REF_HO_CU, P.REF_HO_D, P.REF_HO_DU, P.REF_HO_LEARNED, P.REF_HO_TMEAN, P.REF_HO_Y0, P.REF_HO_YU, P.REF_PHASE, P.REF_QSTATE, P.REF_SWLOG_HEAD, P.REF_SWLOG_INFO, P.REF_SWLOG_TIME, P.REF_TSTATE, P.TBS_BOUND_NOW, P.TBS_BOUND_PS, P.TBS_DOM_SELECTED, P.TBS_LEAP, P.TBS_UTC_OFFSET, P.TBS_UTC_VALID])) s (execGnsPulse x freq osc s) := by
  unfold execGnsPulse
  repeat' (first
    | (extract_lets +onlyGivenNames t; refine OnlyO.with_state (t := t) ?_ fun _ => ?_; subst t; rotate_left; clear_value t)
    | (extract_lets +onlyGivenNames t; refine Only.with_state (t := t) ?_ fun _ => ?_; subst t; rotate_left; clear_value t)
    | (extract_lets +onlyGivenNames t; clear_value t)
    | with_reducible exact Only.refl _ _
    | with_reducible assumption
    | with_reducible apply OnlyO.of ?_
    | with_reducible apply OnlyO.cond _ ?_ ?_
    | with_reducible apply Only.cond _ ?_ ?_
    | with_reducible apply Only.wr ?_ ?_ _ _
    | with_reducible apply Only.step ?_ (State.codeLoops_only ..) ?_
    | with_reducible apply Only.step ?_ (State.surveyBegin_only ..) ?_
    | with_reducible apply Only.step ?_ (State.surveySecond_only ..) ?_
    | with_reducible apply Only.step ?_ (State.surveyGap_only ..) ?_
    | with_reducible apply Only.step ?_ (State.setGnss_only ..) ?_
    | with_reducible apply Only.step ?_ (State.gnssRecord_only ..) ?_
    | with_reducible apply Only.step ?_ (State.lastPulse_only ..) ?_
    | with_reducible apply Only.step ?_ (State.gnssUtc_only ..) ?_
    | with_reducible apply Only.step ?_ (State.monitorReading_only ..) ?_
    | with_reducible apply Only.step ?_ (State.setMon_only ..) ?_
    | exact Eq.refl _
    | extract_lets
    | split)

theorem execNavWord_only (message : Fin 5) (sat : BitVec 8) (checkOk : Bool) (l5 : Bool) (bits : BitVec 8) (time : BitVec 64) (data : List Byte) (s : State) :
    OnlyO (some [F.rings, P.HST_EVT_DROP]) s (execNavWord message sat checkOk l5 bits time data s) := by
  unfold execNavWord
  repeat' (first
    | with_reducible exact Only.refl _ _
    | with_reducible assumption
    | with_reducible apply OnlyO.of ?_
    | with_reducible apply OnlyO.cond _ ?_ ?_
    | with_reducible apply Only.cond _ ?_ ?_
    | with_reducible apply Only.step ?_ (State.gnssRecord_only ..) ?_
    | exact Eq.refl _
    | split)

theorem gnsSnapshot_only (o : Origin) (b : List Byte) (s : State) :
    Only (some [F.cmd, F.gnss, F.rings, P.CMD_REFUSED_COUNT, P.TBS_OVER_LIMIT_COUNT]) s (gnsSnapshot o b s) := by
  unfold gnsSnapshot
  repeat' (first
    | (extract_lets +onlyGivenNames t; refine Only.with_state (t := t) ?_ fun _ => ?_; subst t; rotate_left; clear_value t)
    | (extract_lets +onlyGivenNames t; clear_value t)
    | with_reducible exact Only.refl _ _
    | with_reducible assumption
    | with_reducible apply Only.cond _ ?_ ?_
    | with_reducible apply Only.step ?_ (State.finish_only ..) ?_
    | with_reducible apply Only.step ?_ (State.accept_only ..) ?_
    | with_reducible apply Only.step ?_ (State.setGnss_only ..) ?_
    | exact Eq.refl _
    | extract_lets
    | split)

theorem State.snapshotAborted_only (s : State) :
    Only (some [F.cmd, F.gnss, F.rings, P.CMD_REFUSED_COUNT, P.TBS_OVER_LIMIT_COUNT]) s (State.snapshotAborted s) := by
  unfold State.snapshotAborted
  repeat' (first
    | with_reducible exact Only.refl _ _
    | with_reducible assumption
    | with_reducible apply Only.step ?_ (State.finish_only ..) ?_
    | with_reducible apply Only.step ?_ (State.setGnss_only ..) ?_
    | exact Eq.refl _
    | split)

theorem State.snapOffset_only (s : State) (offset : Option ℤ) :
    Only (some [P.GNS_FLAGS, P.GNS_SNAP_OFFSET]) s (State.snapOffset s offset) := by
  unfold State.snapOffset
  repeat' (first
    | (extract_lets +onlyGivenNames t; refine Only.with_state (t := t) ?_ fun _ => ?_; subst t; rotate_left; clear_value t)
    | (extract_lets +onlyGivenNames t; clear_value t)
    | with_reducible exact Only.refl _ _
    | with_reducible assumption
    | with_reducible apply Only.cond _ ?_ ?_
    | with_reducible apply Only.wr ?_ ?_ _ _
    | with_reducible apply Only.orIn ?_ ?_ _ _
    | with_reducible apply Only.wrS ?_ ?_ _ _ _
    | exact Eq.refl _
    | extract_lets
    | split)

theorem execSnapshotCaptureDone_only (l1 : List Byte) (l5 : List Byte) (offset : Option ℤ) (sats : Fin 65) (s : State) :
    OnlyO (some [F.cmd, F.gnss, F.pad, F.rings, P.CMD_REFUSED_COUNT, P.GNS_FLAGS, P.GNS_SNAP_OFFSET, P.TBS_OVER_LIMIT_COUNT]) s (execSnapshotCaptureDone l1 l5 offset sats s) := by
  unfold execSnapshotCaptureDone
  repeat' (first
    | (extract_lets +onlyGivenNames t; refine OnlyO.with_state (t := t) ?_ fun _ => ?_; subst t; rotate_left; clear_value t)
    | (extract_lets +onlyGivenNames t; refine Only.with_state (t := t) ?_ fun _ => ?_; subst t; rotate_left; clear_value t)
    | (extract_lets +onlyGivenNames t; clear_value t)
    | with_reducible exact Only.refl _ _
    | with_reducible assumption
    | with_reducible apply OnlyO.of ?_
    | with_reducible apply OnlyO.cond _ ?_ ?_
    | with_reducible apply Only.cond _ ?_ ?_
    | with_reducible apply Only.padWrite ?_ ?_ _ _
    | with_reducible apply Only.emit ?_ _
    | with_reducible apply Only.step ?_ (State.setGnss_only ..) ?_
    | with_reducible apply Only.step ?_ (State.finish_only ..) ?_
    | with_reducible apply Only.step ?_ (State.snapOffset_only ..) ?_
    | exact Eq.refl _
    | extract_lets
    | split)

theorem execDutySnapshot_only (capture : DutyCapture) (s : State) :
    OnlyO (some [F.gnss, F.pad, P.GNS_FLAGS, P.GNS_SATS_TRACKED, P.GNS_SNAP_OFFSET, P.GNS_SURVEY_STATE]) s (execDutySnapshot capture s) := by
  unfold execDutySnapshot
  repeat' (first
    | (extract_lets +onlyGivenNames t; refine OnlyO.with_state (t := t) ?_ fun _ => ?_; subst t; rotate_left; clear_value t)
    | (extract_lets +onlyGivenNames t; refine Only.with_state (t := t) ?_ fun _ => ?_; subst t; rotate_left; clear_value t)
    | (extract_lets +onlyGivenNames t; clear_value t)
    | with_reducible exact Only.refl _ _
    | with_reducible assumption
    | with_reducible apply OnlyO.of ?_
    | with_reducible apply OnlyO.cond _ ?_ ?_
    | with_reducible apply Only.cond _ ?_ ?_
    | with_reducible apply Only.padWrite ?_ ?_ _ _
    | with_reducible apply Only.wr ?_ ?_ _ _
    | with_reducible apply Only.step ?_ (State.setGnss_only ..) ?_
    | with_reducible apply Only.step ?_ (State.gnssCount_only ..) ?_
    | with_reducible apply Only.step ?_ (State.snapOffset_only ..) ?_
    | exact Eq.refl _
    | extract_lets
    | split)

theorem State.writeBias_only (s : State) (v : ℕ) :
    Only (some [F.gnss, P.GNS_ANT_BIAS]) s (State.writeBias s v) := by
  unfold State.writeBias
  repeat' (first
    | with_reducible exact Only.refl _ _
    | with_reducible assumption
    | with_reducible apply Only.wr ?_ ?_ _ _
    | with_reducible apply Only.step ?_ (State.setGnss_only ..) ?_
    | exact Eq.refl _)

theorem State.gnssStart_only (s : State) :
    Only (some [F.cal, F.cmd, F.gnss, F.power, F.rings, P.CMD_NOTICE_DROP, P.LAN_STATE, P.PWR_DOMAIN_STATE, P.PWR_WAKE_ADMITTED, P.PWR_WAKE_MAX_WAIT, P.PWR_WAKE_QUEUE_LEN, P.PWR_WAKE_SLOPE, P.PWR_WAKE_WAITED]) s (State.gnssStart s) := by
  unfold State.gnssStart
  repeat' (first
    | with_reducible exact Only.refl _ _
    | with_reducible assumption
    | with_reducible apply Only.step ?_ (State.wakeDomain_only ..) ?_
    | with_reducible apply Only.step ?_ (State.setGnss_only ..) ?_
    | exact Eq.refl _)

theorem State.gnssStop_only (s : State) :
    Only (some [F.cmd, F.gnss, F.power, F.rings, P.CMD_REFUSED_COUNT, P.GNS_SATS_TRACKED, P.PWR_DOMAIN_STATE, P.PWR_WAKE_QUEUE_LEN, P.PWR_WAKE_SLOPE, P.TBS_OVER_LIMIT_COUNT]) s (State.gnssStop s) := by
  unfold State.gnssStop
  repeat' (first
    | (extract_lets +onlyGivenNames t; refine Only.with_state (t := t) ?_ fun _ => ?_; subst t; rotate_left; clear_value t)
    | (extract_lets +onlyGivenNames t; clear_value t)
    | with_reducible exact Only.refl _ _
    | with_reducible assumption
    | with_reducible apply Only.step ?_ (State.setGnss_only ..) ?_
    | with_reducible apply Only.step ?_ (State.snapshotAborted_only ..) ?_
    | with_reducible apply Only.step ?_ (State.gnssCount_only ..) ?_
    | with_reducible apply Only.step ?_ (State.setDomain_only ..) ?_
    | with_reducible apply Only.step ?_ (State.wakeCancel_only ..) ?_
    | exact Eq.refl _
    | extract_lets)

end Sys2Proof.Machine
end

