-- ==== Sys2Proof/Laws/OnlyScratchpad.lean ====
section
/-! SUPPORT. What each operation of Machine/Scratchpad.lean can change. -/

set_option linter.unusedTactic false
set_option linter.unreachableTactic false
set_option linter.tactic.unusedName false

namespace Sys2Proof.Machine

theorem State.refuseSecret_only (s : State) :
    Only (some [F.pad]) s (State.refuseSecret s) := by
  unfold State.refuseSecret
  repeat' (first
    | (extract_lets +onlyGivenNames t; refine Only.with_state (t := t) ?_ fun _ => ?_; subst t; rotate_left; clear_value t)
    | (extract_lets +onlyGivenNames t; refine Only.with_pair (t := t) ?_ fun _ => ?_; subst t; rotate_left; clear_value t)
    | (extract_lets +onlyGivenNames t; clear_value t)
    | with_reducible exact Only.refl _ _
    | with_reducible assumption
    | with_reducible apply Only.fold _ _ (fun _ _ => ?_) ?_
    | with_reducible apply OnlyP.fold _ _ (fun _ _ => ?_) ?_
    | with_reducible apply OnlyP.of ?_
    | with_reducible apply Only.setPad ?_ ?_ _ ?_
    | with_reducible apply Only.emit ?_ _
    | exact Eq.refl _
    | extract_lets
    | exact id)

theorem State.wipeStart_only (s : State) (cause : ℕ) (change : Option LifeChange) :
    Only (some [F.cmd, F.fault, F.log, F.pad, F.rings, P.CMD_NOTICE_DROP, P.HLT_FAULT_COUNT, P.HLT_STICKY, P.LOG_FLAGS, P.SPD_WIPE_BUSY]) s (State.wipeStart s cause change) := by
  unfold State.wipeStart
  repeat' (first
    | (extract_lets +onlyGivenNames t; refine Only.with_state (t := t) ?_ fun _ => ?_; subst t; rotate_left; clear_value t)
    | (extract_lets +onlyGivenNames t; clear_value t)
    | with_reducible exact Only.refl _ _
    | with_reducible assumption
    | with_reducible apply Only.cond _ ?_ ?_
    | with_reducible apply Only.setPad ?_ ?_ _ ?_
    | with_reducible apply Only.wr ?_ ?_ _ _
    | with_reducible apply Only.step ?_ (State.refuseSecret_only ..) ?_
    | with_reducible apply Only.step ?_ (State.voidSeals_only ..) ?_
    | with_reducible apply Only.step ?_ (State.sticky_only ..) ?_
    | exact Eq.refl _
    | extract_lets
    | split
    | exact id)

theorem State.wipeAsk_only (s : State) (cause : ℕ) :
    Only (some [F.cmd, F.fault, F.log, F.pad, F.rings, P.CMD_NOTICE_DROP, P.HLT_FAULT_COUNT, P.HLT_STICKY, P.LOG_FLAGS, P.SPD_WIPE_BUSY]) s (State.wipeAsk s cause) := by
  unfold State.wipeAsk
  repeat' (first
    | with_reducible exact Only.refl _ _
    | with_reducible assumption
    | with_reducible apply Only.setPad ?_ ?_ _ ?_
    | with_reducible apply Only.step ?_ (State.wipeStart_only ..) ?_
    | exact Eq.refl _
    | split
    | exact id)

theorem State.tamper_only (s : State) (source : ℕ) :
    Only (some [F.cmd, F.fault, F.log, F.pad, F.rings, P.CMD_NOTICE_DROP, P.HLT_FAULT_COUNT, P.HLT_STICKY, P.LOG_FLAGS, P.SPD_TAMPER_SRC, P.SPD_WIPE_BUSY]) s (State.tamper s source) := by
  unfold State.tamper
  repeat' (first
    | with_reducible exact Only.refl _ _
    | with_reducible assumption
    | with_reducible apply Only.orIn ?_ ?_ _ _
    | with_reducible apply Only.step ?_ (State.wipeAsk_only ..) ?_
    | exact Eq.refl _)

theorem execTamperDetect_only (source : Option (Fin 5)) (active : BitVec 5) (s : State) :
    OnlyO (some [F.cmd, F.fault, F.log, F.pad, F.rings, P.CMD_NOTICE_DROP, P.HLT_FAULT_COUNT, P.HLT_STICKY, P.LOG_FLAGS, P.SPD_TAMPER_SRC, P.SPD_WIPE_BUSY]) s (execTamperDetect source active s) := by
  unfold execTamperDetect
  repeat' (first
    | (extract_lets +onlyGivenNames t; refine OnlyO.with_state (t := t) ?_ fun _ => ?_; subst t; rotate_left; clear_value t)
    | (extract_lets +onlyGivenNames t; refine Only.with_state (t := t) ?_ fun _ => ?_; subst t; rotate_left; clear_value t)
    | (extract_lets +onlyGivenNames t; clear_value t)
    | with_reducible exact Only.refl _ _
    | with_reducible assumption
    | with_reducible apply OnlyO.of ?_
    | with_reducible apply Only.setPad ?_ ?_ _ ?_
    | with_reducible apply Only.step ?_ (State.tamper_only ..) ?_
    | exact Eq.refl _
    | extract_lets
    | split
    | exact id)

theorem State.lifeAppend_only (s : State) (wipe : Bool) (value : ℕ) (session : ℕ) (transport : ℕ) :
    Only (some [F.pad]) s (State.lifeAppend s wipe value session transport) := by
  unfold State.lifeAppend
  repeat' (first
    | with_reducible exact Only.refl _ _
    | with_reducible assumption
    | with_reducible apply Only.setPad ?_ ?_ _ ?_
    | exact Eq.refl _
    | exact id)

theorem State.setLife_only (s : State) (q : ℕ) :
    Only (some [F.flash, P.SPD_LIFECYCLE]) s (State.setLife s q) := by
  unfold State.setLife
  repeat' (first
    | with_reducible exact Only.refl _ _
    | with_reducible assumption
    | with_reducible apply Only.wr ?_ ?_ _ _
    | exact Eq.refl _
    | with_reducible apply Only.set_flash ?_ ?_ _)

theorem State.lifeEnter_only (s : State) (c : LifeChange) :
    Only (some [F.cmd, F.flash, F.log, F.pad, F.rings, P.CMD_REFUSED_COUNT, P.LOG_KEY_STATE, P.SPD_LIFECYCLE, P.TBS_OVER_LIMIT_COUNT]) s (State.lifeEnter s c) := by
  unfold State.lifeEnter
  repeat' (first
    | (extract_lets +onlyGivenNames t; refine Only.with_state (t := t) ?_ fun _ => ?_; subst t; rotate_left; clear_value t)
    | (extract_lets +onlyGivenNames t; clear_value t)
    | with_reducible exact Only.refl _ _
    | with_reducible assumption
    | with_reducible apply Only.cond _ ?_ ?_
    | with_reducible apply Only.step ?_ (State.setLife_only ..) ?_
    | with_reducible apply Only.step ?_ (State.lifeAppend_only ..) ?_
    | with_reducible apply Only.step ?_ (State.keyStart_only ..) ?_
    | with_reducible apply Only.step ?_ (State.finish_only ..) ?_
    | exact Eq.refl _
    | extract_lets
    | split
    | with_reducible apply Only.set_flash ?_ ?_ _)

theorem State.wipeDone_only (s : State) :
    Only (some [F.cal, F.cmd, F.fault, F.flash, F.log, F.pad, F.rings, P.CMD_NOTICE_DROP, P.CMD_REFUSED_COUNT, P.HLT_FAULT_COUNT, P.HLT_STICKY, P.LOG_FLAGS, P.LOG_KEY_SERIAL, P.LOG_KEY_STATE, P.SPD_FLAGS, P.SPD_LIFECYCLE, P.SPD_WIPE_BUSY, P.SPD_WIPE_CAUSE, P.SPD_WIPE_COUNT, P.SPD_WIPE_TIME, P.TBS_OVER_LIMIT_COUNT]) s (State.wipeDone s) := by
  unfold State.wipeDone
  repeat' (first
    | (extract_lets +onlyGivenNames t; refine Only.with_state (t := t) ?_ fun _ => ?_; subst t; rotate_left; clear_value t)
    | (extract_lets +onlyGivenNames t; clear_value t)
    | with_reducible exact Only.refl _ _
    | with_reducible assumption
    | with_reducible apply Only.setPad ?_ ?_ _ ?_
    | with_reducible apply Only.wr ?_ ?_ _ _
    | with_reducible apply Only.orIn ?_ ?_ _ _
    | with_reducible apply Only.count_plain ?_ ?_ (by decide) _ _
    | with_reducible apply Only.count ?_ ?_ ?_ ?_ _ _
    | with_reducible apply Only.step ?_ (State.setCal_only ..) ?_
    | with_reducible apply Only.step ?_ (State.logWipe_only ..) ?_
    | with_reducible apply Only.step ?_ (State.lifeAppend_only ..) ?_
    | with_reducible apply Only.step ?_ (State.notice_only ..) ?_
    | with_reducible apply Only.step ?_ (State.finish_only ..) ?_
    | with_reducible apply Only.step ?_ (State.setLog_only ..) ?_
    | with_reducible apply Only.step ?_ (State.lifeEnter_only ..) ?_
    | with_reducible apply Only.step ?_ (State.wipeStart_only ..) ?_
    | exact Eq.refl _
    | extract_lets
    | split
    | exact id
    | exact fun h => canonical_filter _ _ _ h)

theorem lifecycleSet_only (o : Origin) (b : List Byte) (s : State) :
    Only (some [F.cmd, F.fault, F.fresh, F.log, F.pad, F.rings, P.CMD_NOTICE_DROP, P.CMD_REFUSED_COUNT, P.HLT_FAULT_COUNT, P.HLT_STICKY, P.LOG_FLAGS, P.SPD_WIPE_BUSY, P.TBS_OVER_LIMIT_COUNT]) s (lifecycleSet o b s) := by
  unfold lifecycleSet
  repeat' (first
    | (extract_lets +onlyGivenNames t; refine Only.with_state (t := t) ?_ fun _ => ?_; subst t; rotate_left; clear_value t)
    | (extract_lets +onlyGivenNames t; clear_value t)
    | with_reducible exact Only.refl _ _
    | with_reducible assumption
    | with_reducible apply Only.cond _ ?_ ?_
    | with_reducible apply Only.step ?_ (State.failInternal_only ..) ?_
    | with_reducible apply Only.step ?_ (State.finish_only ..) ?_
    | with_reducible apply Only.step ?_ (State.wipeStart_only ..) ?_
    | exact Eq.refl _
    | extract_lets
    | split)

theorem State.tamperClear_only (s : State) (mask : ℕ) :
    Only (some [P.SPD_TAMPER_SRC]) s (State.tamperClear s mask) := by
  unfold State.tamperClear
  repeat' (first
    | with_reducible exact Only.refl _ _
    | with_reducible assumption
    | with_reducible apply Only.fold _ _ (fun _ _ => ?_) ?_
    | with_reducible apply OnlyP.fold _ _ (fun _ _ => ?_) ?_
    | with_reducible apply OnlyP.of ?_
    | with_reducible apply Only.wr ?_ ?_ _ _
    | exact Eq.refl _)

theorem State.freezeEffect_only (s : State) (m : ℕ) :
    Only (some [F.cal, F.cmd, F.gnss, F.linkRun, F.log, F.nhp, F.power, F.rings, P.CMD_NOTICE_DROP, P.CMD_REFUSED_COUNT, P.HST_FLAGS, P.LAN_STATE, P.LOG_FLAGS, P.LOG_HOLD_ACTIVE, P.PWR_DOMAIN_STATE, P.PWR_WAKE_ADMITTED, P.PWR_WAKE_MAX_WAIT, P.PWR_WAKE_QUEUE_LEN, P.PWR_WAKE_SLOPE, P.PWR_WAKE_WAITED, P.TBS_OVER_LIMIT_COUNT]) s (State.freezeEffect s m) := by
  unfold State.freezeEffect
  repeat' (first
    | with_reducible exact Only.refl _ _
    | with_reducible assumption
    | with_reducible apply Only.orIn ?_ ?_ _ _
    | with_reducible apply Only.step ?_ (State.holdRaise_only ..) ?_
    | with_reducible apply Only.step ?_ (State.voidSeals_only ..) ?_
    | with_reducible apply Only.step ?_ (State.snapshotAborted_only ..) ?_
    | with_reducible apply Only.step ?_ (State.runAborted_only ..) ?_
    | with_reducible apply Only.step ?_ (State.tunnelsAborted_only ..) ?_
    | exact Eq.refl _
    | split)

theorem State.violation_only (s : State) (m : ℕ) (addr : ℕ) (kind : ℕ) :
    Only (some ([F.cal, F.cmd, F.fault, F.gnss, F.linkRun, F.log, F.nhp, F.pad, F.power, F.rings, P.CMD_NOTICE_DROP, P.CMD_REFUSED_COUNT, P.HLT_FAULT_COUNT, P.HLT_STICKY, P.HST_FLAGS, P.LAN_STATE, P.LOG_FLAGS, P.LOG_HOLD_ACTIVE, P.PWR_DOMAIN_STATE, P.PWR_WAKE_ADMITTED, P.PWR_WAKE_MAX_WAIT, P.PWR_WAKE_QUEUE_LEN, P.PWR_WAKE_SLOPE, P.PWR_WAKE_WAITED] ++
      [P.SPD_FLAGS, P.SPD_FROZEN, P.SPD_VIOL, P.SPD_VIOL_ADDR, P.SPD_VIOL_KIND, P.SPD_VIOL_TIME, P.TBS_OVER_LIMIT_COUNT])) s (State.violation s m addr kind) := by
  unfold State.violation
  repeat' (first
    | (extract_lets +onlyGivenNames t; refine Only.with_state (t := t) ?_ fun _ => ?_; subst t; rotate_left; clear_value t)
    | (extract_lets +onlyGivenNames t; clear_value t)
    | with_reducible exact Only.refl _ _
    | with_reducible assumption
    | with_reducible apply Only.cond _ ?_ ?_
    | with_reducible apply Only.setPad ?_ ?_ _ ?_
    | with_reducible apply Only.wr ?_ ?_ _ _
    | with_reducible apply Only.orIn ?_ ?_ _ _
    | with_reducible apply Only.step ?_ (State.freezeEffect_only ..) ?_
    | with_reducible apply Only.step ?_ (State.sticky_only ..) ?_
    | exact Eq.refl _
    | extract_lets
    | split
    | exact id)

theorem masterRelease_only (o : Origin) (b : List Byte) (s : State) :
    Only (some [F.cmd, F.rings, P.CMD_REFUSED_COUNT, P.CMD_SESSION_STATE, P.SPD_FROZEN, P.TBS_OVER_LIMIT_COUNT]) s (masterRelease o b s) := by
  unfold masterRelease
  repeat' (first
    | (extract_lets +onlyGivenNames t; refine Only.with_state (t := t) ?_ fun _ => ?_; subst t; rotate_left; clear_value t)
    | (extract_lets +onlyGivenNames t; clear_value t)
    | with_reducible exact Only.refl _ _
    | with_reducible assumption
    | with_reducible apply Only.cond _ ?_ ?_
    | with_reducible apply Only.setSession ?_ ?_ _ _ ?_
    | with_reducible apply Only.wr ?_ ?_ _ _
    | with_reducible apply Only.step ?_ (State.finish_only ..) ?_
    | exact Eq.refl _
    | extract_lets
    | split
    | exact fun _ => rfl
    | (intro _; split <;> rfl))

theorem execScratchpadRequest_only (master : Fin 16) (addr : BitVec 26) (write : Bool) (beats : Fin 64) (data : List Byte) (s : State) :
    OnlyO (some ([F.cal, F.cmd, F.fault, F.gnss, F.linkRun, F.log, F.nhp, F.pad, F.power, F.rings, P.CMD_NOTICE_DROP, P.CMD_REFUSED_COUNT, P.HLT_FAULT_COUNT, P.HLT_STICKY, P.HST_FLAGS, P.LAN_STATE, P.LOG_FLAGS, P.LOG_HOLD_ACTIVE, P.PWR_DOMAIN_STATE, P.PWR_WAKE_ADMITTED, P.PWR_WAKE_MAX_WAIT, P.PWR_WAKE_QUEUE_LEN, P.PWR_WAKE_SLOPE, P.PWR_WAKE_WAITED] ++
      [P.SPD_FLAGS, P.SPD_FROZEN, P.SPD_VIOL, P.SPD_VIOL_ADDR, P.SPD_VIOL_KIND, P.SPD_VIOL_TIME, P.TBS_OVER_LIMIT_COUNT])) s (execScratchpadRequest master addr write beats data s) := by
  unfold execScratchpadRequest
  repeat' (first
    | (extract_lets +onlyGivenNames t; refine OnlyO.with_state (t := t) ?_ fun _ => ?_; subst t; rotate_left; clear_value t)
    | (extract_lets +onlyGivenNames t; refine Only.with_state (t := t) ?_ fun _ => ?_; subst t; rotate_left; clear_value t)
    | (extract_lets +onlyGivenNames t; clear_value t)
    | with_reducible exact Only.refl _ _
    | with_reducible assumption
    | with_reducible apply OnlyO.of ?_
    | with_reducible apply OnlyO.cond _ ?_ ?_
    | with_reducible apply Only.cond _ ?_ ?_
    | with_reducible apply Only.setPad ?_ ?_ _ ?_
    | with_reducible apply Only.emit ?_ _
    | with_reducible apply Only.step ?_ (State.violation_only ..) ?_
    | exact Eq.refl _
    | extract_lets
    | split
    | exact id)

theorem State.moveBeat_only (s : State) (b : ℕ) (x : Burst) (faults : List (ℕ × Bool)) :
    Only (some [F.cmd, F.fault, F.log, F.pad, F.rings, P.CMD_NOTICE_DROP, P.HLT_FAULT_COUNT, P.HLT_STICKY, P.LOG_FLAGS, P.SPD_ECC_ADDR, P.SPD_ECC_CORR, P.SPD_ECC_UNCORR, P.SPD_FLAGS, P.SPD_WIPE_BUSY]) s (State.moveBeat s b x faults) := by
  unfold State.moveBeat
  repeat' (first
    | (extract_lets +onlyGivenNames t; refine Only.with_state (t := t) ?_ fun _ => ?_; subst t; rotate_left; clear_value t)
    | (extract_lets +onlyGivenNames t; have q : ℕ := t; clear q; clear_value t)
    | (extract_lets +onlyGivenNames t; have q : Bool := t; clear q; clear_value t)
    | (extract_lets +onlyGivenNames t; have q : ℤ := t; clear q; clear_value t)
    | (extract_lets +onlyGivenNames t; have q : Option _ := t; clear q; clear_value t)
    | (extract_lets +onlyGivenNames t; have q : List _ := t; clear q; clear_value t)
    | (extract_lets +onlyGivenNames t; have q : _ × _ := t; clear q; clear_value t)
    | with_reducible exact Only.refl _ _
    | with_reducible assumption
    | with_reducible apply Only.cond _ ?_ ?_
    | with_reducible apply Only.setPad ?_ ?_ _ ?_
    | with_reducible apply Only.padWrite ?_ ?_ _ _
    | with_reducible apply Only.emit ?_ _
    | with_reducible apply Only.wr ?_ ?_ _ _
    | with_reducible apply Only.orIn ?_ ?_ _ _
    | with_reducible apply Only.count_plain ?_ ?_ (by decide) _ _
    | with_reducible apply Only.count ?_ ?_ ?_ ?_ _ _
    | with_reducible apply Only.step ?_ (State.sticky_only ..) ?_
    | with_reducible apply Only.step ?_ (State.wipeStart_only ..) ?_
    | exact Eq.refl _
    | extract_lets
    | split
    | exact id)

theorem State.grantSlot_only (s : State) (faults : List (Nat × Bool)) (b : Nat) : Only (some [F.cmd, F.fault, F.log, F.pad, F.rings, P.ARB_GRANTS, P.ARB_PREEMPT, P.ARB_QUOTA_MASKED, P.CMD_NOTICE_DROP, P.HLT_FAULT_COUNT, P.HLT_STICKY, P.LOG_FLAGS, P.SPD_CONFLICT_B, P.SPD_CONFLICT_M, P.SPD_ECC_ADDR, P.SPD_ECC_CORR, P.SPD_ECC_UNCORR, P.SPD_FLAGS, P.SPD_WIPE_BUSY]) s (State.grantSlot s faults b) := by
  unfold State.grantSlot
  extract_lets w s1 rs out win wait hints held t1 tx t2 t3
  have h1 : Only (some [F.cmd, F.fault, F.log, F.pad, F.rings, P.ARB_GRANTS, P.ARB_PREEMPT, P.ARB_QUOTA_MASKED, P.CMD_NOTICE_DROP, P.HLT_FAULT_COUNT, P.HLT_STICKY, P.LOG_FLAGS, P.SPD_CONFLICT_B, P.SPD_CONFLICT_M, P.SPD_ECC_ADDR, P.SPD_ECC_CORR, P.SPD_ECC_UNCORR, P.SPD_FLAGS, P.SPD_WIPE_BUSY]) s s1 := by
    with_reducible apply Only.cond _ ?_ ?_
    · exact Only.refl _ _
    · exact Only.setPad (Only.refl _ _) (by exact Eq.refl _) _ id
  have h2 : Only (some [F.cmd, F.fault, F.log, F.pad, F.rings, P.ARB_GRANTS, P.ARB_PREEMPT, P.ARB_QUOTA_MASKED, P.CMD_NOTICE_DROP, P.HLT_FAULT_COUNT, P.HLT_STICKY, P.LOG_FLAGS, P.SPD_CONFLICT_B, P.SPD_CONFLICT_M, P.SPD_ECC_ADDR, P.SPD_ECC_CORR, P.SPD_ECC_UNCORR, P.SPD_FLAGS, P.SPD_WIPE_BUSY]) s t1 := Only.fold _ _ (fun u m => Only.count_plain (Only.refl _ _) (by exact Eq.refl _) (by decide) _ _) h1
  have h3 : Only (some [F.cmd, F.fault, F.log, F.pad, F.rings, P.ARB_GRANTS, P.ARB_PREEMPT, P.ARB_QUOTA_MASKED, P.CMD_NOTICE_DROP, P.HLT_FAULT_COUNT, P.HLT_STICKY, P.LOG_FLAGS, P.SPD_CONFLICT_B, P.SPD_CONFLICT_M, P.SPD_ECC_ADDR, P.SPD_ECC_CORR, P.SPD_ECC_UNCORR, P.SPD_FLAGS, P.SPD_WIPE_BUSY]) s t2 := by
    simp only [t2]
    clear_value win
    split
    · rename_i m
      have h : Only (some [F.cmd, F.fault, F.log, F.pad, F.rings, P.ARB_GRANTS, P.ARB_PREEMPT, P.ARB_QUOTA_MASKED, P.CMD_NOTICE_DROP, P.HLT_FAULT_COUNT, P.HLT_STICKY, P.LOG_FLAGS, P.SPD_CONFLICT_B, P.SPD_CONFLICT_M, P.SPD_ECC_ADDR, P.SPD_ECC_CORR, P.SPD_ECC_UNCORR, P.SPD_FLAGS, P.SPD_WIPE_BUSY]) s ((wait.filter fun x => !out.contains x).foldl
          (fun u x => (u.count P.SPD_CONFLICT_M x).count P.SPD_CONFLICT_B b) t1) :=
        Only.fold _ _ (fun u x => Only.count_plain (Only.count_plain (Only.refl _ _) (by exact Eq.refl _) (by decide) _ _)
          (by exact Eq.refl _) (by decide) _ _) h2
      with_reducible apply Only.cond _ ?_ ?_
      · exact Only.count_plain h (by exact Eq.refl _) (by decide) _ _
      · exact h
    · exact h2
  have h4 : Only (some [F.cmd, F.fault, F.log, F.pad, F.rings, P.ARB_GRANTS, P.ARB_PREEMPT, P.ARB_QUOTA_MASKED, P.CMD_NOTICE_DROP, P.HLT_FAULT_COUNT, P.HLT_STICKY, P.LOG_FLAGS, P.SPD_CONFLICT_B, P.SPD_CONFLICT_M, P.SPD_ECC_ADDR, P.SPD_ECC_CORR, P.SPD_ECC_UNCORR, P.SPD_FLAGS, P.SPD_WIPE_BUSY]) s t3 := by
    simp only [t3]
    with_reducible apply Only.setPad ?_ ?_ _ ?_
    · exact h3
    · exact Eq.refl _
    · exact id
  clear_value t3 win
  split
  · exact h4
  · rename_i m
    have h5 : Only (some [F.cmd, F.fault, F.log, F.pad, F.rings, P.ARB_GRANTS, P.ARB_PREEMPT, P.ARB_QUOTA_MASKED, P.CMD_NOTICE_DROP, P.HLT_FAULT_COUNT, P.HLT_STICKY, P.LOG_FLAGS, P.SPD_CONFLICT_B, P.SPD_CONFLICT_M, P.SPD_ECC_ADDR, P.SPD_ECC_CORR, P.SPD_ECC_UNCORR, P.SPD_FLAGS, P.SPD_WIPE_BUSY]) s ((t3.count P.ARB_GRANTS m).setPad fun p => { p with
        grants := store ltPair (b, m) 0 (s1.grantsIn b m + 1) p.grants }) :=
      Only.setPad (Only.count_plain h4 (by exact Eq.refl _) (by decide) _ _) (by exact Eq.refl _) _ id
    dsimp only
    split
    · exact h5.step (State.moveBeat_only ..) (by exact Eq.refl _)
    · exact h5

theorem execArbitrationPoint_only (faults : List (BitVec 26 × Bool)) (s : State) :
    OnlyO (some [F.cmd, F.fault, F.log, F.pad, F.rings, P.ARB_GRANTS, P.ARB_PREEMPT, P.ARB_QUOTA_MASKED, P.CMD_NOTICE_DROP, P.HLT_FAULT_COUNT, P.HLT_STICKY, P.LOG_FLAGS, P.SPD_CONFLICT_B, P.SPD_CONFLICT_M, P.SPD_ECC_ADDR, P.SPD_ECC_CORR, P.SPD_ECC_UNCORR, P.SPD_FLAGS, P.SPD_WIPE_BUSY]) s (execArbitrationPoint faults s) := by
  unfold execArbitrationPoint
  repeat' (first
    | with_reducible exact Only.refl _ _
    | with_reducible assumption
    | with_reducible apply OnlyO.of ?_
    | with_reducible apply Only.fold _ _ (fun _ _ => ?_) ?_
    | with_reducible apply OnlyP.fold _ _ (fun _ _ => ?_) ?_
    | with_reducible apply OnlyP.of ?_
    | with_reducible apply Only.step ?_ (State.grantSlot_only ..) ?_
    | exact Eq.refl _)

end Sys2Proof.Machine
end

