-- ==== Sys2Proof/Laws/OnlyHost.lean ====
section
/-! SUPPORT. What each operation of Machine/Host.lean can change. -/

set_option linter.unusedTactic false
set_option linter.unreachableTactic false
set_option linter.tactic.unusedName false

namespace Sys2Proof.Machine

theorem State.dmaError_only (s : State) :
    Only (some [P.HST_DMA_ERR, P.HST_FLAGS]) s (State.dmaError s) := by
  unfold State.dmaError
  repeat' (first
    | with_reducible exact Only.refl _ _
    | with_reducible assumption
    | with_reducible apply Only.orIn ?_ ?_ _ _
    | with_reducible apply Only.count_plain ?_ ?_ (by decide) _ _
    | with_reducible apply Only.count ?_ ?_ ?_ ?_ _ _
    | exact Eq.refl _)

theorem State.mbxPump_only (s : State) (n k : Nat) : Only (some [F.cmd, F.rings]) s (State.mbxPump s n k) := by
  induction k generalizing s with
  | zero => exact Only.refl _ _
  | succ k ih =>
    unfold State.mbxPump
    dsimp only
    split
    · rename_i w _
      have h : Only (some [F.cmd, F.rings]) s ((s.setCmd fun c => { c with mbx := c.mbx.erase w }).takeWaiting w.2).1 :=
        Only.fst (Only.setCmd (Only.refl _ _) (by exact Eq.refl _) _ (by exact Eq.refl _)) (State.takeWaiting_only ..) (by exact Eq.refl _)
      exact Only.cond _ (Only.trans (Only.cond _ h (h.step (State.writeReply_only ..) (by exact Eq.refl _))) (ih ..)) (Only.refl _ _)
    · exact Only.refl _ _

theorem State.mbxRun_only (s : State) :
    Only (some [F.cmd, F.rings]) s (State.mbxRun s) := by
  unfold State.mbxRun
  repeat' (first
    | with_reducible exact Only.refl _ _
    | with_reducible assumption
    | with_reducible apply Only.fold _ _ (fun _ _ => ?_) ?_
    | with_reducible apply OnlyP.fold _ _ (fun _ _ => ?_) ?_
    | with_reducible apply OnlyP.of ?_
    | with_reducible apply Only.step ?_ (State.mbxPump_only ..) ?_
    | exact Eq.refl _)

theorem State.doorbell_only (s : State) (g : ℕ) (index : BitVec 32) :
    Only (some [F.rings, P.HST_DMA_ERR, P.HST_FLAGS, P.HST_RING_STATE]) s (State.doorbell s g index) := by
  unfold State.doorbell
  repeat' (first
    | (extract_lets +onlyGivenNames t; refine Only.with_state (t := t) ?_ fun _ => ?_; subst t; rotate_left; clear_value t)
    | (extract_lets +onlyGivenNames t; clear_value t)
    | with_reducible exact Only.refl _ _
    | with_reducible assumption
    | with_reducible apply Only.cond _ ?_ ?_
    | with_reducible apply Only.wr ?_ ?_ _ _
    | with_reducible apply Only.step ?_ (State.dmaError_only ..) ?_
    | with_reducible apply Only.step ?_ (State.setRing_only ..) ?_
    | exact Eq.refl _
    | extract_lets
    | split)

theorem State.makeRing_only (s : State) (r : Ring) :
    Only (some [F.rings, P.HST_RING_STATE]) s (State.makeRing s r) := by
  unfold State.makeRing
  repeat' (first
    | with_reducible exact Only.refl _ _
    | with_reducible assumption
    | with_reducible apply Only.wr ?_ ?_ _ _
    | exact Eq.refl _
    | with_reducible apply Only.set_rings ?_ ?_ _)

theorem queueCreate_only (o : Origin) (b : List Byte) (s : State) :
    Only (some [F.cmd, F.rings, P.CMD_REFUSED_COUNT, P.HST_RING_STATE, P.TBS_OVER_LIMIT_COUNT]) s (queueCreate o b s) := by
  unfold queueCreate
  repeat' (first
    | with_reducible exact Only.refl _ _
    | with_reducible assumption
    | with_reducible apply Only.cond _ ?_ ?_
    | with_reducible apply Only.step ?_ (State.finish_only ..) ?_
    | with_reducible apply Only.step ?_ (State.makeRing_only ..) ?_
    | exact Eq.refl _
    | split)

theorem State.dropRing_only (s : State) (g : ℕ) :
    Only (some ([F.cmd, F.fabric, F.fault, F.hidden, F.log, F.quay, F.rings, F.txSlots, P.BUF_DF_AGENT, P.BUF_DF_INDEX, P.BUF_DF_POOL, P.BUF_DF_TIME, P.BUF_DOUBLE_FREE, P.BUF_FLAGS, P.BUF_HELD, P.BUF_QUARANTINED, P.BUF_SIGNALS, P.CMD_NOTICE_DROP, P.HLT_FAULT_COUNT, P.HLT_STICKY, P.HST_RING_STATE, P.HST_RXQ_BYTES, P.HST_RXQ_FLUSHED, P.LOG_SPILL_PEAK] ++
      [P.LOG_SPILL_USED, P.OBS_OVF, P.PRT_EGQ_BYTES, P.PRT_LINKDOWN_DROP])) s (State.dropRing s g) := by
  unfold State.dropRing
  repeat' (first
    | (extract_lets +onlyGivenNames t; refine Only.with_state (t := t) ?_ fun _ => ?_; subst t; rotate_left; clear_value t)
    | (extract_lets +onlyGivenNames t; clear_value t)
    | with_reducible exact Only.refl _ _
    | with_reducible assumption
    | with_reducible apply Only.cond _ ?_ ?_
    | with_reducible apply Only.wr ?_ ?_ _ _
    | with_reducible apply Only.step ?_ (State.flushRxQueue_only ..) ?_
    | with_reducible apply Only.step ?_ (State.spillCount_only ..) ?_
    | with_reducible apply Only.step ?_ (State.setLog_only ..) ?_
    | exact Eq.refl _
    | extract_lets
    | split
    | with_reducible apply Only.set_rings ?_ ?_ _
    | with_reducible apply Only.set_txSlots ?_ ?_ _)

theorem queueDestroy_only (o : Origin) (b : List Byte) (s : State) :
    Only (some ([F.cmd, F.fabric, F.fault, F.hidden, F.log, F.quay, F.rings, F.txSlots, P.BUF_DF_AGENT, P.BUF_DF_INDEX, P.BUF_DF_POOL, P.BUF_DF_TIME, P.BUF_DOUBLE_FREE, P.BUF_FLAGS, P.BUF_HELD, P.BUF_QUARANTINED, P.BUF_SIGNALS, P.CMD_NOTICE_DROP, P.CMD_REFUSED_COUNT, P.HLT_FAULT_COUNT, P.HLT_STICKY, P.HST_RING_STATE, P.HST_RXQ_BYTES, P.HST_RXQ_FLUSHED] ++
      [P.LOG_SPILL_PEAK, P.LOG_SPILL_USED, P.OBS_OVF, P.PRT_EGQ_BYTES, P.PRT_LINKDOWN_DROP, P.TBS_OVER_LIMIT_COUNT])) s (queueDestroy o b s) := by
  unfold queueDestroy
  repeat' (first
    | with_reducible exact Only.refl _ _
    | with_reducible assumption
    | with_reducible apply Only.cond _ ?_ ?_
    | with_reducible apply Only.step ?_ (State.finish_only ..) ?_
    | with_reducible apply Only.step ?_ (State.dropRing_only ..) ?_
    | exact Eq.refl _
    | split)

theorem State.takeSlot_only (s : State) (q index : Nat) (result : Option Nat) : Only (some [F.nextSlot, F.txSlots]) s (State.takeSlot s q index result) := by
  unfold State.takeSlot
  have h : Only (some [F.nextSlot, F.txSlots]) s { s with
      txSlots := s.txSlots ++ [⟨s.nextSlot, q, index, result.map fun c => (c, ⟨0, 0, 0, 0⟩)⟩] } :=
    Only.set_txSlots (Only.refl _ s) (by exact Eq.refl _) _
  exact Only.set_nextSlot h (by exact Eq.refl _) _

theorem State.storeHost_only (s : State) (f : Frame) :
    Only (some ([F.cmd, F.fabric, F.fault, F.hidden, F.pad, F.quay, F.rings, F.txSlots, F.windowAt, P.BUF_ALLOC, P.BUF_DF_AGENT, P.BUF_DF_INDEX, P.BUF_DF_POOL, P.BUF_DF_TIME, P.BUF_DOUBLE_FREE, P.BUF_FLAGS, P.BUF_HELD, P.BUF_PEAK, P.BUF_QUARANTINED, P.BUF_SIGNALS, P.BUF_SPILL, P.CMD_NOTICE_DROP, P.HLT_FAULT_COUNT, P.HLT_STICKY] ++
      [P.HST_FLAGS, P.HST_RXQ_BYPASS, P.HST_RXQ_BYTES, P.LCK_NO_MEMBER, P.OBS_OVF, P.OBS_TRACE_DROP, P.OBS_TRACE_HEAD, P.OBS_TRACE_OLDEST, P.PRT_EGQ_BYTES, P.PRT_LINKDOWN_DROP])) s (State.storeHost s f) := by
  unfold State.storeHost
  repeat' (first
    | (extract_lets +onlyGivenNames t; refine Only.with_state (t := t) ?_ fun _ => ?_; subst t; rotate_left; clear_value t)
    | (extract_lets +onlyGivenNames t; refine Only.with_pair (t := t) ?_ fun _ => ?_; subst t; rotate_left; clear_value t)
    | (extract_lets +onlyGivenNames t; clear_value t)
    | with_reducible exact Only.refl _ _
    | with_reducible assumption
    | with_reducible apply Only.fold _ _ (fun _ _ => ?_) ?_
    | with_reducible apply OnlyP.fold _ _ (fun _ _ => ?_) ?_
    | with_reducible apply OnlyP.of ?_
    | with_reducible apply OnlyP.cond _ ?_ ?_
    | with_reducible apply Only.cond _ ?_ ?_
    | with_reducible apply Only.count_plain ?_ ?_ (by decide) _ _
    | with_reducible apply Only.count ?_ ?_ ?_ ?_ _ _
    | with_reducible apply Only.step ?_ (State.setFab_only ..) ?_
    | with_reducible apply Only.step ?_ (State.allocate_only ..) ?_
    | with_reducible apply Only.fst ?_ (State.copiesFor_only ..) ?_
    | with_reducible apply Only.pair (by assumption) (State.copiesFor_only ..) ?_ ?_
    | with_reducible apply OnlyP.step ?_ (State.copiesFor_only ..) ?_
    | with_reducible apply Only.step ?_ (State.dropFrame_only ..) ?_
    | with_reducible apply Only.step ?_ (State.linkCopy_only ..) ?_
    | exact Eq.refl _
    | extract_lets
    | split)

theorem execHostTxFrame_only (q : Fin 64) (slot : List Byte) (data : Option (List Byte)) (s : State) :
    OnlyO (some ([F.cmd, F.fabric, F.fault, F.fresh, F.hidden, F.nextSlot, F.pad, F.quay, F.rings, F.txSlots, F.windowAt, P.BUF_ALLOC, P.BUF_DF_AGENT, P.BUF_DF_INDEX, P.BUF_DF_POOL, P.BUF_DF_TIME, P.BUF_DOUBLE_FREE, P.BUF_FLAGS, P.BUF_HELD, P.BUF_PEAK, P.BUF_QUARANTINED, P.BUF_SIGNALS, P.BUF_SPILL, P.CMD_NOTICE_DROP] ++
      [P.HLT_FAULT_COUNT, P.HLT_STICKY, P.HST_DMA_ERR, P.HST_FLAGS, P.HST_RXQ_BYPASS, P.HST_RXQ_BYTES, P.HST_TX_REFUSED, P.LCK_NO_MEMBER, P.OBS_OVF, P.OBS_TRACE_DROP, P.OBS_TRACE_HEAD, P.OBS_TRACE_OLDEST, P.PRT_EGQ_BYTES, P.PRT_LINKDOWN_DROP])) s (execHostTxFrame q slot data s) := by
  unfold execHostTxFrame
  repeat' (first
    | (extract_lets +onlyGivenNames t; refine OnlyO.with_state (t := t) ?_ fun _ => ?_; subst t; rotate_left; clear_value t)
    | (extract_lets +onlyGivenNames t; refine Only.with_state (t := t) ?_ fun _ => ?_; subst t; rotate_left; clear_value t)
    | (extract_lets +onlyGivenNames t; have q : ℕ := t; clear q; clear_value t)
    | (extract_lets +onlyGivenNames t; have q : Bool := t; clear q; clear_value t)
    | (extract_lets +onlyGivenNames t; have q : ℤ := t; clear q; clear_value t)
    | (extract_lets +onlyGivenNames t; have q : Option _ := t; clear q; clear_value t)
    | (extract_lets +onlyGivenNames t; have q : List _ := t; clear q; clear_value t)
    | (extract_lets +onlyGivenNames t; have q : _ × _ := t; clear q; clear_value t)
    | with_reducible exact Only.refl _ _
    | with_reducible assumption
    | with_reducible apply OnlyO.of ?_
    | with_reducible apply OnlyO.cond _ ?_ ?_
    | with_reducible apply Only.cond _ ?_ ?_
    | with_reducible apply Only.count_plain ?_ ?_ (by decide) _ _
    | with_reducible apply Only.count ?_ ?_ ?_ ?_ _ _
    | with_reducible apply Only.step ?_ (State.takeSlot_only ..) ?_
    | with_reducible apply Only.step ?_ (State.dmaError_only ..) ?_
    | with_reducible apply Only.step ?_ (State.storeHost_only ..) ?_
    | exact Eq.refl _
    | extract_lets
    | split
    | with_reducible apply Only.set_fresh ?_ ?_ _
    | with_reducible apply Only.set_txSlots ?_ ?_ _)

theorem execHostTxWriteback_only (q : Fin 64) (s : State) :
    OnlyO (some [F.rings, F.txSlots]) s (execHostTxWriteback q s) := by
  unfold execHostTxWriteback
  repeat' (first
    | (extract_lets +onlyGivenNames t; refine OnlyO.with_state (t := t) ?_ fun _ => ?_; subst t; rotate_left; clear_value t)
    | (extract_lets +onlyGivenNames t; refine Only.with_state (t := t) ?_ fun _ => ?_; subst t; rotate_left; clear_value t)
    | (extract_lets +onlyGivenNames t; clear_value t)
    | with_reducible exact Only.refl _ _
    | with_reducible assumption
    | with_reducible apply OnlyO.of ?_
    | with_reducible apply OnlyO.cond _ ?_ ?_
    | with_reducible apply Only.cond _ ?_ ?_
    | with_reducible apply Only.emit ?_ _
    | with_reducible apply Only.step ?_ (State.writeIndex_only ..) ?_
    | with_reducible apply Only.step ?_ (State.setRing_only ..) ?_
    | exact Eq.refl _
    | extract_lets
    | split
    | with_reducible apply Only.set_txSlots ?_ ?_ _)

theorem execHostRxDeliver_only (q : Fin 64) (slot : List Byte) (s : State) :
    OnlyO (some [F.cmd, F.fabric, F.fault, F.hidden, F.quay, F.rings, F.txSlots, P.BUF_DF_AGENT, P.BUF_DF_INDEX, P.BUF_DF_POOL, P.BUF_DF_TIME, P.BUF_DOUBLE_FREE, P.BUF_FLAGS, P.BUF_HELD, P.BUF_QUARANTINED, P.BUF_SIGNALS, P.CMD_NOTICE_DROP, P.HLT_FAULT_COUNT, P.HLT_STICKY, P.HST_RXQ_BYTES, P.OBS_OVF, P.PRT_EGQ_BYTES, P.PRT_LINKDOWN_DROP]) s (execHostRxDeliver q slot s) := by
  unfold execHostRxDeliver
  repeat' (first
    | (extract_lets +onlyGivenNames t; refine OnlyO.with_state (t := t) ?_ fun _ => ?_; subst t; rotate_left; clear_value t)
    | (extract_lets +onlyGivenNames t; refine Only.with_state (t := t) ?_ fun _ => ?_; subst t; rotate_left; clear_value t)
    | (extract_lets +onlyGivenNames t; clear_value t)
    | with_reducible exact Only.refl _ _
    | with_reducible assumption
    | with_reducible apply OnlyO.of ?_
    | with_reducible apply OnlyO.cond _ ?_ ?_
    | with_reducible apply Only.cond _ ?_ ?_
    | with_reducible apply Only.emit ?_ _
    | with_reducible apply Only.step ?_ (State.writeIndex_only ..) ?_
    | with_reducible apply Only.step ?_ (State.setRing_only ..) ?_
    | with_reducible apply Only.step ?_ (State.releaseCopy_only ..) ?_
    | exact Eq.refl _
    | extract_lets
    | split)

theorem execMsixInterrupt_only (v : Fin 64) (s : State) : OnlyO (some [F.raised, F.rings]) s (execMsixInterrupt v s) := by
  unfold execMsixInterrupt
  dsimp only
  refine OnlyO.cond _ (OnlyO.of (Only.emit ?_ _)) (OnlyO.of (Only.refl _ _))
  generalize s.rings.map _ = rs
  generalize s.raised.filter _ ++ _ = ra
  have h : Only (some [F.raised, F.rings]) s { s with rings := rs } := Only.set_rings (Only.refl _ s) (by exact Eq.refl _) rs
  exact Only.set_raised h (by exact Eq.refl _) ra

theorem State.makeMailbox_only (s : State) (k : ℕ) :
    Only (some [F.rings, P.HST_RING_STATE]) s (State.makeMailbox s k) := by
  unfold State.makeMailbox
  repeat' (first
    | (extract_lets +onlyGivenNames t; refine Only.with_state (t := t) ?_ fun _ => ?_; subst t; rotate_left; clear_value t)
    | (extract_lets +onlyGivenNames t; clear_value t)
    | with_reducible exact Only.refl _ _
    | with_reducible assumption
    | with_reducible apply Only.cond _ ?_ ?_
    | with_reducible apply Only.wr ?_ ?_ _ _
    | with_reducible apply Only.step ?_ (State.makeRing_only ..) ?_
    | exact Eq.refl _
    | extract_lets
    | split
    | with_reducible apply Only.set_rings ?_ ?_ _)

theorem State.resetMailbox_only (s : State) (n : ℕ) :
    Only (some [F.cmd, F.rings, P.HST_RING_STATE]) s (State.resetMailbox s n) := by
  unfold State.resetMailbox
  repeat' (first
    | with_reducible exact Only.refl _ _
    | with_reducible assumption
    | with_reducible apply Only.setCmd ?_ ?_ _ ?_
    | with_reducible apply Only.step ?_ (State.makeMailbox_only ..) ?_
    | exact Eq.refl _)

theorem execPcieLinkUp_only (speed : Fin 6) (width : Fin 9) (mps : BitVec 10) (s : State) :
    OnlyO (some [F.rings, P.HST_LINK_SPEED, P.HST_LINK_WIDTH, P.HST_MPS, P.HST_RING_STATE]) s (execPcieLinkUp speed width mps s) := by
  unfold execPcieLinkUp
  repeat' (first
    | (extract_lets +onlyGivenNames t; refine OnlyO.with_state (t := t) ?_ fun _ => ?_; subst t; rotate_left; clear_value t)
    | (extract_lets +onlyGivenNames t; refine OnlyO.with_pair (t := t) ?_ fun _ => ?_; subst t; rotate_left; clear_value t)
    | (extract_lets +onlyGivenNames t; refine Only.with_state (t := t) ?_ fun _ => ?_; subst t; rotate_left; clear_value t)
    | (extract_lets +onlyGivenNames t; refine Only.with_pair (t := t) ?_ fun _ => ?_; subst t; rotate_left; clear_value t)
    | (extract_lets +onlyGivenNames t; clear_value t)
    | with_reducible exact Only.refl _ _
    | with_reducible assumption
    | with_reducible apply OnlyO.of ?_
    | with_reducible apply OnlyO.cond _ ?_ ?_
    | with_reducible apply Only.fold _ _ (fun _ _ => ?_) ?_
    | with_reducible apply OnlyP.fold _ _ (fun _ _ => ?_) ?_
    | with_reducible apply OnlyP.of ?_
    | with_reducible apply OnlyP.cond _ ?_ ?_
    | with_reducible apply Only.cond _ ?_ ?_
    | with_reducible apply Only.wr ?_ ?_ _ _
    | with_reducible apply Only.step ?_ (State.makeMailbox_only ..) ?_
    | exact Eq.refl _
    | extract_lets
    | split)

theorem State.linkLost_only (s : State) :
    Only (some ([F.cmd, F.fabric, F.fault, F.hidden, F.log, F.quay, F.rings, F.sessions, F.txSlots, P.BUF_DF_AGENT, P.BUF_DF_INDEX, P.BUF_DF_POOL, P.BUF_DF_TIME, P.BUF_DOUBLE_FREE, P.BUF_FLAGS, P.BUF_HELD, P.BUF_QUARANTINED, P.BUF_SIGNALS, P.CMD_NOTICE_DROP, P.CMD_REFUSED_COUNT, P.CMD_SESSION_PRIV, P.CMD_SESSION_STATE, P.CMD_SESSION_TRANSPORT, P.HLT_FAULT_COUNT] ++
      [P.HLT_STICKY, P.HST_FLAGS, P.HST_LINK_SPEED, P.HST_LINK_WIDTH, P.HST_RING_STATE, P.HST_RXQ_BYTES, P.HST_RXQ_FLUSHED, P.LOG_SPILL_PEAK, P.LOG_SPILL_USED, P.OBS_OVF, P.PRT_EGQ_BYTES, P.PRT_LINKDOWN_DROP, P.TBS_OVER_LIMIT_COUNT])) s (State.linkLost s) := by
  unfold State.linkLost
  repeat' (first
    | (extract_lets +onlyGivenNames t; refine Only.with_state (t := t) ?_ fun _ => ?_; subst t; rotate_left; clear_value t)
    | (extract_lets +onlyGivenNames t; refine Only.with_pair (t := t) ?_ fun _ => ?_; subst t; rotate_left; clear_value t)
    | (extract_lets +onlyGivenNames t; clear_value t)
    | with_reducible exact Only.refl _ _
    | with_reducible assumption
    | with_reducible apply Only.fold _ _ (fun _ _ => ?_) ?_
    | with_reducible apply OnlyP.fold _ _ (fun _ _ => ?_) ?_
    | with_reducible apply OnlyP.of ?_
    | with_reducible apply Only.setCmd ?_ ?_ _ ?_
    | with_reducible apply Only.wr ?_ ?_ _ _
    | with_reducible apply Only.orIn ?_ ?_ _ _
    | with_reducible apply Only.step ?_ (State.dropRing_only ..) ?_
    | with_reducible apply Only.step ?_ (State.closeSession_only ..) ?_
    | exact Eq.refl _
    | extract_lets)

theorem execPcieLinkDown_only (s : State) :
    OnlyO (some ([F.cmd, F.fabric, F.fault, F.hidden, F.log, F.quay, F.rings, F.sessions, F.txSlots, P.BUF_DF_AGENT, P.BUF_DF_INDEX, P.BUF_DF_POOL, P.BUF_DF_TIME, P.BUF_DOUBLE_FREE, P.BUF_FLAGS, P.BUF_HELD, P.BUF_QUARANTINED, P.BUF_SIGNALS, P.CMD_NOTICE_DROP, P.CMD_REFUSED_COUNT, P.CMD_SESSION_PRIV, P.CMD_SESSION_STATE, P.CMD_SESSION_TRANSPORT, P.HLT_FAULT_COUNT] ++
      [P.HLT_STICKY, P.HST_FLAGS, P.HST_LINK_SPEED, P.HST_LINK_WIDTH, P.HST_RING_STATE, P.HST_RXQ_BYTES, P.HST_RXQ_FLUSHED, P.LOG_SPILL_PEAK, P.LOG_SPILL_USED, P.OBS_OVF, P.PRT_EGQ_BYTES, P.PRT_LINKDOWN_DROP, P.TBS_OVER_LIMIT_COUNT])) s (execPcieLinkDown s) := by
  unfold execPcieLinkDown
  repeat' (first
    | with_reducible exact Only.refl _ _
    | with_reducible assumption
    | with_reducible apply OnlyO.of ?_
    | with_reducible apply OnlyO.cond _ ?_ ?_
    | with_reducible apply Only.cond _ ?_ ?_
    | with_reducible apply Only.step ?_ (State.linkLost_only ..) ?_
    | exact Eq.refl _
    | split)

end Sys2Proof.Machine
end

