-- ==== Sys2Proof/Laws/OnlyParams.lean ====
section
/-! SUPPORT. What each operation of Machine/Params.lean can change. -/

set_option linter.unusedTactic false
set_option linter.unreachableTactic false
set_option linter.tactic.unusedName false

namespace Sys2Proof.Machine

theorem paramRead_only (o : Origin) (b : List Byte) (s : State) :
    Only (some [F.cmd, F.rings, P.CMD_REFUSED_COUNT, P.TBS_OVER_LIMIT_COUNT]) s (paramRead o b s) := by
  unfold paramRead
  repeat' (first
    | (extract_lets +onlyGivenNames t; refine Only.with_state (t := t) ?_ fun _ => ?_; subst t; rotate_left; clear_value t)
    | (extract_lets +onlyGivenNames t; clear_value t)
    | with_reducible exact Only.refl _ _
    | with_reducible assumption
    | with_reducible apply Only.step ?_ (State.finish_only ..) ?_
    | exact Eq.refl _
    | extract_lets
    | split)

theorem State.writeLive_only (s : State) (n : ℕ) (b : ℕ) (i : ℕ) (v : ℕ) :
    Only (some [F.gnss, F.lock, F.log, F.nhp, F.params, F.servo, F.tagRegs]) s (State.writeLive s n b i v) := by
  unfold State.writeLive
  repeat' (first
    | (extract_lets +onlyGivenNames t; refine Only.with_state (t := t) ?_ fun _ => ?_; subst t; rotate_left; clear_value t)
    | (extract_lets +onlyGivenNames t; clear_value t)
    | with_reducible exact Only.refl _ _
    | with_reducible assumption
    | with_reducible apply Only.cond _ ?_ ?_
    | with_reducible apply Only.wr_any ?_ ?_ _ _ _
    | with_reducible apply Only.step ?_ (State.armSwap_only ..) ?_
    | with_reducible apply Only.step ?_ (State.admWriteHeld_only ..) ?_
    | with_reducible apply Only.step ?_ (State.setCtle_only ..) ?_
    | with_reducible apply Only.step ?_ (State.nhpStart_only ..) ?_
    | with_reducible apply Only.step ?_ (State.nhpStop_only ..) ?_
    | with_reducible apply Only.step ?_ (State.writeBias_only ..) ?_
    | with_reducible apply Only.step ?_ (State.gnssCount_only ..) ?_
    | with_reducible apply Only.step ?_ (State.setServo_only ..) ?_
    | with_reducible apply Only.step ?_ (State.holdSettle_only ..) ?_
    | exact Eq.refl _
    | extract_lets
    | split
    | with_reducible apply Only.set_tagRegs ?_ ?_ _)

theorem State.applyEntry_only (s : State) (n : ℕ) (e : WriteEntry) :
    Only (some [F.gnss, F.lock, F.log, F.nhp, F.params, F.servo, F.shadows, F.tagRegs]) s (State.applyEntry s n e) := by
  unfold State.applyEntry
  repeat' (first
    | with_reducible exact Only.refl _ _
    | with_reducible assumption
    | with_reducible apply Only.cond _ ?_ ?_
    | with_reducible apply Only.wr_any ?_ ?_ _ _ _
    | with_reducible apply Only.wrShadow ?_ ?_ _ _ _
    | with_reducible apply Only.step ?_ (State.tamperClear_only ..) ?_
    | with_reducible apply Only.step ?_ (State.writeLive_only ..) ?_
    | exact Eq.refl _
    | split)

theorem State.afterWrite_only (s : State) (b : ℕ) (i : ℕ) :
    Only (some ([F.cmd, F.fabric, F.fault, F.fresh, F.log, F.refs, F.rings, F.servo, P.CMD_NOTICE_DROP, P.HLT_FAULT_COUNT, P.HLT_STICKY, P.LOG_FLAGS, P.LOG_HOLD_ACTIVE, P.LOG_HOLD_TIME, P.LOG_RECORDS, P.LOG_SPILL_PEAK, P.LOG_SPILL_USED, P.PRT_FLAGS, P.PRT_HEADROOM, P.PRT_HEADROOM_POOL, P.PRT_HEADROOM_SUM, P.PRT_PFC_TX_XOFF, P.REF_ACTIVE, P.REF_BREF] ++
      [P.REF_DEV, P.REF_FLAGS, P.REF_HO_C, P.REF_HO_D, P.REF_HO_Y0, P.REF_KIND, P.REF_QSTATE, P.REF_SWLOG_HEAD, P.REF_SWLOG_INFO, P.REF_SWLOG_TIME, P.REF_TSTATE, P.TBS_BOUND_NOW, P.TBS_BOUND_PS, P.TBS_DOM_SELECTED, P.TBS_OVER_LIMIT_COUNT])) s (State.afterWrite s b i) := by
  unfold State.afterWrite
  repeat' (first
    | with_reducible exact Only.refl _ _
    | with_reducible assumption
    | with_reducible apply Only.fold _ _ (fun _ _ => ?_) ?_
    | with_reducible apply OnlyP.fold _ _ (fun _ _ => ?_) ?_
    | with_reducible apply OnlyP.of ?_
    | with_reducible apply OnlyP.cond _ ?_ ?_
    | with_reducible apply Only.cond _ ?_ ?_
    | with_reducible apply Only.step ?_ (State.evaluateSluice_only ..) ?_
    | with_reducible apply Only.step ?_ (State.refreshHeadroom_only ..) ?_
    | with_reducible apply Only.step ?_ (State.queueStop_only ..) ?_
    | with_reducible apply Only.step ?_ (State.refreshRef_only ..) ?_
    | with_reducible apply Only.step ?_ (State.reselect_only ..) ?_
    | with_reducible apply Only.step ?_ (State.holdClear_only ..) ?_
    | with_reducible apply Only.step ?_ (State.holdSeen_only ..) ?_
    | with_reducible apply Only.step ?_ (State.holdRaise_only ..) ?_
    | exact Eq.refl _
    | split)

theorem State.tentative_only (s : State) (es : List WriteEntry) :
    Only (some [F.params]) s (State.tentative s es) := by
  unfold State.tentative
  repeat' (first
    | with_reducible exact Only.refl _ _
    | with_reducible assumption
    | with_reducible apply Only.fold _ _ (fun _ _ => ?_) ?_
    | with_reducible apply OnlyP.fold _ _ (fun _ _ => ?_) ?_
    | with_reducible apply OnlyP.of ?_
    | with_reducible apply OnlyP.cond _ ?_ ?_
    | with_reducible apply Only.cond _ ?_ ?_
    | with_reducible apply Only.wr_any ?_ ?_ _ _ _
    | exact Eq.refl _
    | split)

theorem State.applyWrites_only (s : State) (n : ℕ) (es : List WriteEntry) :
    Only (some [F.cmd, F.fabric, F.fault, F.fresh, F.gnss, F.lock, F.log, F.nhp, F.params, F.refs, F.rings, F.servo, F.shadows, F.tagRegs]) s (State.applyWrites s n es) := by
  unfold State.applyWrites
  repeat' (first
    | (extract_lets +onlyGivenNames t; refine Only.with_state (t := t) ?_ fun _ => ?_; subst t; rotate_left; clear_value t)
    | (extract_lets +onlyGivenNames t; refine Only.with_pair (t := t) ?_ fun _ => ?_; subst t; rotate_left; clear_value t)
    | (extract_lets +onlyGivenNames t; clear_value t)
    | with_reducible exact Only.refl _ _
    | with_reducible assumption
    | with_reducible apply Only.fold _ _ (fun _ _ => ?_) ?_
    | with_reducible apply OnlyP.fold _ _ (fun _ _ => ?_) ?_
    | with_reducible apply OnlyP.of ?_
    | with_reducible apply OnlyP.cond _ ?_ ?_
    | with_reducible apply Only.cond _ ?_ ?_
    | with_reducible apply Only.step ?_ (State.applyEntry_only ..) ?_
    | with_reducible apply Only.step ?_ (State.openBatch_only ..) ?_
    | with_reducible apply Only.step ?_ (State.afterWrite_only ..) ?_
    | with_reducible apply Only.step ?_ (State.closeBatch_only ..) ?_
    | with_reducible apply Only.step ?_ (State.configUp_only ..) ?_
    | exact Eq.refl _
    | extract_lets
    | split)

theorem paramWrite_only (o : Origin) (b : List Byte) (s : State) :
    Only (some [F.cmd, F.fabric, F.fault, F.fresh, F.gnss, F.lock, F.log, F.nhp, F.params, F.refs, F.rings, F.servo, F.shadows, F.tagRegs]) s (paramWrite o b s) := by
  unfold paramWrite
  repeat' (first
    | (extract_lets +onlyGivenNames t; refine Only.with_state (t := t) ?_ fun _ => ?_; subst t; rotate_left; clear_value t)
    | (extract_lets +onlyGivenNames t; clear_value t)
    | with_reducible exact Only.refl _ _
    | with_reducible assumption
    | with_reducible apply Only.step ?_ (State.finish_only ..) ?_
    | with_reducible apply Only.step ?_ (State.applyWrites_only ..) ?_
    | exact Eq.refl _
    | extract_lets
    | split)

end Sys2Proof.Machine
end

