-- ==== Sys2Proof/Laws/OnlyCommits.lean ====
section
/-! SUPPORT. What each operation of Machine/Commits.lean can change. -/

set_option linter.unusedTactic false
set_option linter.unreachableTactic false
set_option linter.tactic.unusedName false

namespace Sys2Proof.Machine

theorem State.staged_only (s : State) (block : Nat) : Only (some [F.params, F.shadows]) s (State.staged s block) := by
  unfold State.staged
  have h : ∀ W, allows W F.params = true → Only (some [F.params]) s ((s.shadowsOf block).foldl (fun (t : State) x => t.wr x.1.1 x.1.2 x.2) s) :=
    fun _ _ => Only.fold _ _ (fun u x => (Only.refl _ u).wr_any rfl _ _ _) (Only.refl _ _)
  have hs := (h none rfl).shadows rfl
  refine Only.set_shadows ((h none rfl).mono (by exact Eq.refl _)) (by exact Eq.refl _) _ fun x => ?_
  rw [hs] at x
  exact rising_filter _ _ x

theorem State.asymSave_only (s : State) (p : ℕ) :
    Only (some [F.flash]) s (State.asymSave s p) := by
  unfold State.asymSave
  repeat' (first
    | (extract_lets +onlyGivenNames t; refine Only.with_state (t := t) ?_ fun _ => ?_; subst t; rotate_left; clear_value t)
    | (extract_lets +onlyGivenNames t; clear_value t)
    | with_reducible exact Only.refl _ _
    | with_reducible assumption
    | exact Eq.refl _
    | extract_lets
    | with_reducible apply Only.set_flash ?_ ?_ _)

theorem State.thetaMoved_only (s : State) (p : ℕ) (d : ℤ) :
    Only (some [F.cmd, F.fault, F.links, F.rings, F.servo, P.CMD_NOTICE_DROP, P.HLT_FAULT_COUNT, P.HLT_STICKY, P.LNK_OFFSET, P.REF_ACTIVE, P.REF_FLAGS, P.REF_SWLOG_HEAD, P.REF_SWLOG_INFO, P.REF_SWLOG_TIME, P.REF_TSTATE, P.TBS_BOUND_NOW, P.TBS_BOUND_PS, P.TBS_DOM_SELECTED]) s (State.thetaMoved s p d) := by
  unfold State.thetaMoved
  repeat' (first
    | (extract_lets +onlyGivenNames t; refine Only.with_state (t := t) ?_ fun _ => ?_; subst t; rotate_left; clear_value t)
    | (extract_lets +onlyGivenNames t; clear_value t)
    | with_reducible exact Only.refl _ _
    | with_reducible assumption
    | with_reducible apply Only.cond _ ?_ ?_
    | with_reducible apply Only.wrS ?_ ?_ _ _ _
    | with_reducible apply Only.step ?_ (State.setLink_only ..) ?_
    | with_reducible apply Only.step ?_ (State.conclude_only ..) ?_
    | with_reducible apply Only.step ?_ (State.pullBy_only ..) ?_
    | with_reducible apply Only.step ?_ (State.freeze_only ..) ?_
    | exact Eq.refl _
    | extract_lets
    | split)

theorem State.asymCommit_only (s : State) (old : ℤ) (p : ℕ) :
    Only (some [F.cmd, F.fault, F.flash, F.links, F.rings, F.servo, P.CMD_NOTICE_DROP, P.HLT_FAULT_COUNT, P.HLT_STICKY, P.LNK_OFFSET, P.REF_ACTIVE, P.REF_FLAGS, P.REF_SWLOG_HEAD, P.REF_SWLOG_INFO, P.REF_SWLOG_TIME, P.REF_TSTATE, P.TBS_BOUND_NOW, P.TBS_BOUND_PS, P.TBS_DOM_SELECTED]) s (State.asymCommit s old p) := by
  unfold State.asymCommit
  repeat' (first
    | (extract_lets +onlyGivenNames t; refine Only.with_state (t := t) ?_ fun _ => ?_; subst t; rotate_left; clear_value t)
    | (extract_lets +onlyGivenNames t; clear_value t)
    | with_reducible exact Only.refl _ _
    | with_reducible assumption
    | with_reducible apply Only.cond _ ?_ ?_
    | with_reducible apply Only.step ?_ (State.asymSave_only ..) ?_
    | with_reducible apply Only.step ?_ (State.thetaMoved_only ..) ?_
    | exact Eq.refl _
    | extract_lets
    | split)

theorem State.calibratedCommit_only (s : State) (p : ℕ) :
    Only (some ([F.cmd, F.fault, F.fresh, F.links, F.refs, F.rings, F.servo, P.CMD_NOTICE_DROP, P.HLT_FAULT_COUNT, P.HLT_STICKY, P.LNK_BEVT, P.LNK_FLAGS, P.REF_ACTIVE, P.REF_BREF, P.REF_DEV, P.REF_FLAGS, P.REF_HO_C, P.REF_HO_D, P.REF_HO_Y0, P.REF_KIND, P.REF_QSTATE, P.REF_SWLOG_HEAD, P.REF_SWLOG_INFO, P.REF_SWLOG_TIME] ++
      [P.REF_TSTATE, P.TBS_BOUND_NOW, P.TBS_BOUND_PS, P.TBS_DOM_SELECTED])) s (State.calibratedCommit s p) := by
  unfold State.calibratedCommit
  repeat' (first
    | (extract_lets +onlyGivenNames t; refine Only.with_state (t := t) ?_ fun _ => ?_; subst t; rotate_left; clear_value t)
    | (extract_lets +onlyGivenNames t; clear_value t)
    | with_reducible exact Only.refl _ _
    | with_reducible assumption
    | with_reducible apply Only.cond _ ?_ ?_
    | with_reducible apply Only.step ?_ (State.setLink_only ..) ?_
    | with_reducible apply Only.step ?_ (State.linkFlag_only ..) ?_
    | with_reducible apply Only.step ?_ (State.setBevt_only ..) ?_
    | exact Eq.refl _
    | extract_lets
    | split)

theorem State.checkDomains_only (s : State) :
    Only (some [P.TBS_DOM_BOUND]) s (State.checkDomains s) := by
  unfold State.checkDomains
  repeat' (first
    | (extract_lets +onlyGivenNames t; refine Only.with_state (t := t) ?_ fun _ => ?_; subst t; rotate_left; clear_value t)
    | (extract_lets +onlyGivenNames t; refine Only.with_pair (t := t) ?_ fun _ => ?_; subst t; rotate_left; clear_value t)
    | (extract_lets +onlyGivenNames t; clear_value t)
    | with_reducible exact Only.refl _ _
    | with_reducible assumption
    | with_reducible apply Only.fold _ _ (fun _ _ => ?_) ?_
    | with_reducible apply OnlyP.fold _ _ (fun _ _ => ?_) ?_
    | with_reducible apply OnlyP.of ?_
    | with_reducible apply OnlyP.cond _ ?_ ?_
    | with_reducible apply Only.cond _ ?_ ?_
    | with_reducible apply Only.wr ?_ ?_ _ _
    | exact Eq.refl _
    | extract_lets
    | split)

theorem State.portLinkCommit_only (s : State) (before : State) (p : ℕ) :
    Only (some ([F.cal, F.cmd, F.fault, F.flash, F.fresh, F.linkRun, F.links, F.refs, F.rings, F.servo, P.CMD_NOTICE_DROP, P.CMD_REFUSED_COUNT, P.HLT_FAULT_COUNT, P.HLT_STICKY, P.LNK_BEVT, P.LNK_FLAGS, P.LNK_OFFSET, P.LNK_STATE, P.REF_ACTIVE, P.REF_DEV, P.REF_FLAGS, P.REF_HO_C, P.REF_HO_D, P.REF_HO_Y0] ++
      [P.REF_QSTATE, P.REF_SWLOG_HEAD, P.REF_SWLOG_INFO, P.REF_SWLOG_TIME, P.REF_TSTATE, P.TBS_BOUND_NOW, P.TBS_BOUND_PS, P.TBS_DOM_SELECTED, P.TBS_OVER_LIMIT_COUNT])) s (State.portLinkCommit s before p) := by
  unfold State.portLinkCommit
  repeat' (first
    | (extract_lets +onlyGivenNames t; refine Only.with_state (t := t) ?_ fun _ => ?_; subst t; rotate_left; clear_value t)
    | (extract_lets +onlyGivenNames t; clear_value t)
    | with_reducible exact Only.refl _ _
    | with_reducible assumption
    | with_reducible apply Only.cond _ ?_ ?_
    | with_reducible apply Only.step ?_ (State.linkDown_only ..) ?_
    | with_reducible apply Only.step ?_ (State.linkFramed_only ..) ?_
    | with_reducible apply Only.step ?_ (State.linkFlag_only ..) ?_
    | with_reducible apply Only.step ?_ (State.asymCommit_only ..) ?_
    | exact Eq.refl _
    | extract_lets
    | split)

theorem State.tbsCommit_only (s : State) (before : State) :
    Only (some [F.time, P.TBS_DOM_BOUND, P.TBS_DOM_SELECTED, P.TBS_SET_REQ, P.TBS_UTC_OFFSET, P.TBS_UTC_VALID]) s (State.tbsCommit s before) := by
  unfold State.tbsCommit
  repeat' (first
    | (extract_lets +onlyGivenNames t; refine Only.with_state (t := t) ?_ fun _ => ?_; subst t; rotate_left; clear_value t)
    | (extract_lets +onlyGivenNames t; refine Only.with_pair (t := t) ?_ fun _ => ?_; subst t; rotate_left; clear_value t)
    | (extract_lets +onlyGivenNames t; clear_value t)
    | with_reducible exact Only.refl _ _
    | with_reducible assumption
    | with_reducible apply Only.fold _ _ (fun _ _ => ?_) ?_
    | with_reducible apply OnlyP.fold _ _ (fun _ _ => ?_) ?_
    | with_reducible apply OnlyP.of ?_
    | with_reducible apply OnlyP.cond _ ?_ ?_
    | with_reducible apply Only.cond _ ?_ ?_
    | with_reducible apply Only.wr ?_ ?_ _ _
    | with_reducible apply Only.step ?_ (State.armLeap_only ..) ?_
    | with_reducible apply Only.step ?_ (State.acceptSet_only ..) ?_
    | with_reducible apply Only.step ?_ (State.checkDomains_only ..) ?_
    | exact Eq.refl _
    | extract_lets
    | split)

theorem State.beforeCommit_only (s : State) (block : ℕ) :
    Only (some [F.cal, F.cmd, F.fabric, F.fault, F.fresh, F.hidden, F.linkRun, F.links, F.log, F.nhp, F.optics, F.pad, F.params, F.power, F.quay, F.refs, F.rings, F.servo, F.shadows, F.txSlots, F.windowAt]) s (State.beforeCommit s block) := by
  unfold State.beforeCommit
  repeat' (first
    | with_reducible exact Only.refl _ _
    | with_reducible assumption
    | with_reducible apply Only.fold _ _ (fun _ _ => ?_) ?_
    | with_reducible apply OnlyP.fold _ _ (fun _ _ => ?_) ?_
    | with_reducible apply OnlyP.of ?_
    | with_reducible apply Only.step ?_ (State.loseRef_only ..) ?_
    | with_reducible apply Only.step ?_ (State.closeChannel_only ..) ?_
    | with_reducible apply Only.step ?_ (State.laneOff_only ..) ?_
    | with_reducible apply Only.step ?_ (State.staged_only ..) ?_
    | exact Eq.refl _
    | split)

theorem State.afterCommit_only (s : State) (before : State) (block : ℕ) :
    Only (some [F.cal, F.cmd, F.evtAccs, F.fabric, F.fault, F.flash, F.fresh, F.gnss, F.linkRun, F.links, F.nhp, F.optics, F.params, F.power, F.refs, F.rings, F.servo, F.shadows, F.time]) s (State.afterCommit s before block) := by
  unfold State.afterCommit
  repeat' (first
    | (extract_lets +onlyGivenNames t; refine Only.with_state (t := t) ?_ fun _ => ?_; subst t; rotate_left; clear_value t)
    | (extract_lets +onlyGivenNames t; refine Only.with_pair (t := t) ?_ fun _ => ?_; subst t; rotate_left; clear_value t)
    | (extract_lets +onlyGivenNames t; have q : ℕ := t; clear q; clear_value t)
    | (extract_lets +onlyGivenNames t; have q : Bool := t; clear q; clear_value t)
    | (extract_lets +onlyGivenNames t; have q : ℤ := t; clear q; clear_value t)
    | (extract_lets +onlyGivenNames t; have q : Option _ := t; clear q; clear_value t)
    | (extract_lets +onlyGivenNames t; have q : List _ := t; clear q; clear_value t)
    | (extract_lets +onlyGivenNames t; have q : _ × _ := t; clear q; clear_value t)
    | with_reducible exact Only.refl _ _
    | with_reducible assumption
    | with_reducible apply Only.fold _ _ (fun _ _ => ?_) ?_
    | with_reducible apply OnlyP.fold _ _ (fun _ _ => ?_) ?_
    | with_reducible apply OnlyP.of ?_
    | with_reducible apply OnlyP.cond _ ?_ ?_
    | with_reducible apply Only.cond _ ?_ ?_
    | with_reducible apply Only.wr ?_ ?_ _ _
    | with_reducible apply Only.step ?_ (State.applyPace_only ..) ?_
    | with_reducible apply Only.step ?_ (State.staged_only ..) ?_
    | with_reducible apply Only.step ?_ (State.wakeLanes_only ..) ?_
    | with_reducible apply Only.step ?_ (State.evaluateSluice_only ..) ?_
    | with_reducible apply Only.step ?_ (State.refreshHeadroom_only ..) ?_
    | with_reducible apply Only.step ?_ (State.refreshPath_only ..) ?_
    | with_reducible apply Only.step ?_ (State.tbsCommit_only ..) ?_
    | with_reducible apply Only.step ?_ (State.portLinkCommit_only ..) ?_
    | with_reducible apply Only.step ?_ (State.refreshRefs_only ..) ?_
    | with_reducible apply Only.step ?_ (State.checkDomains_only ..) ?_
    | with_reducible apply Only.step ?_ (State.calibratedCommit_only ..) ?_
    | with_reducible apply Only.step ?_ (State.setGnss_only ..) ?_
    | with_reducible apply Only.step ?_ (State.gnssStart_only ..) ?_
    | with_reducible apply Only.step ?_ (State.gnssStop_only ..) ?_
    | with_reducible apply Only.step ?_ (State.setAcc_only ..) ?_
    | with_reducible apply Only.step ?_ (State.setFamily_only ..) ?_
    | with_reducible apply Only.step ?_ (State.rejoin_only ..) ?_
    | with_reducible apply Only.step ?_ (State.resetMailbox_only ..) ?_
    | exact Eq.refl _
    | extract_lets
    | split)

theorem State.commitBlock_only (s : State) (block : ℕ) :
    Only (some ([F.cal, F.cmd, F.evtAccs, F.fabric, F.fault, F.flash, F.fresh, F.gnss, F.hidden, F.linkRun, F.links, F.log, F.nhp, F.optics, F.pad, F.params, F.power, F.quay, F.refs, F.rings, F.servo, F.shadows, F.time, F.txSlots] ++
      [F.windowAt])) s (State.commitBlock s block) := by
  unfold State.commitBlock
  repeat' (first
    | with_reducible exact Only.refl _ _
    | with_reducible assumption
    | with_reducible apply Only.step ?_ (State.closeBatch_only ..) ?_
    | with_reducible apply Only.step ?_ (State.configUp_only ..) ?_
    | with_reducible apply Only.step ?_ (State.afterCommit_only ..) ?_
    | with_reducible apply Only.step ?_ (State.staged_only ..) ?_
    | with_reducible apply Only.step ?_ (State.beforeCommit_only ..) ?_
    | with_reducible apply Only.step ?_ (State.openBatch_only ..) ?_
    | exact Eq.refl _)

theorem State.commitNow_only (s : State) (o : Origin) (block : ℕ) (status : ℕ) :
    Only (some ([F.cal, F.cmd, F.evtAccs, F.fabric, F.fault, F.flash, F.fresh, F.gnss, F.hidden, F.linkRun, F.links, F.log, F.nhp, F.optics, F.pad, F.params, F.power, F.quay, F.refs, F.rings, F.servo, F.shadows, F.time, F.txSlots] ++
      [F.windowAt])) s (State.commitNow s o block status) := by
  unfold State.commitNow
  repeat' (first
    | with_reducible exact Only.refl _ _
    | with_reducible assumption
    | with_reducible apply Only.cond _ ?_ ?_
    | with_reducible apply Only.step ?_ (State.finish_only ..) ?_
    | with_reducible apply Only.step ?_ (State.commitBlock_only ..) ?_
    | exact Eq.refl _
    | split)

theorem State.supersede_only (s : State) (block : ℕ) :
    Only (some [F.cmd, F.rings, P.CMD_REFUSED_COUNT, P.TBS_OVER_LIMIT_COUNT]) s (State.supersede s block) := by
  unfold State.supersede
  repeat' (first
    | (extract_lets +onlyGivenNames t; refine Only.with_state (t := t) ?_ fun _ => ?_; subst t; rotate_left; clear_value t)
    | (extract_lets +onlyGivenNames t; refine Only.with_pair (t := t) ?_ fun _ => ?_; subst t; rotate_left; clear_value t)
    | (extract_lets +onlyGivenNames t; clear_value t)
    | with_reducible exact Only.refl _ _
    | with_reducible assumption
    | with_reducible apply Only.fold _ _ (fun _ _ => ?_) ?_
    | with_reducible apply OnlyP.fold _ _ (fun _ _ => ?_) ?_
    | with_reducible apply OnlyP.of ?_
    | with_reducible apply Only.setCmd ?_ ?_ _ ?_
    | with_reducible apply Only.step ?_ (State.finish_only ..) ?_
    | exact Eq.refl _
    | extract_lets)

theorem State.synCommit_only (s : State) (o : Origin) (status : ℕ) :
    Only (some [F.cmd, F.optics, F.params, F.rings, F.shadows]) s (State.synCommit s o status) := by
  unfold State.synCommit
  repeat' (first
    | with_reducible exact Only.refl _ _
    | with_reducible assumption
    | with_reducible apply Only.step ?_ (State.synApplyNow_only ..) ?_
    | with_reducible apply Only.trans ?_ (State.synTake_only _ _ _ ?_ ?_)
    | (intro u c; show Only _ u _)
    | with_reducible apply Only.step ?_ (State.finish_only ..) ?_
    | exact Eq.refl _)

theorem paramCommit_only (o : Origin) (b : List Byte) (s : State) :
    Only (some ([F.cal, F.cmd, F.evtAccs, F.fabric, F.fault, F.flash, F.fresh, F.gnss, F.hidden, F.linkRun, F.links, F.log, F.nhp, F.optics, F.pad, F.params, F.power, F.quay, F.refs, F.rings, F.servo, F.shadows, F.time, F.txSlots] ++
      [F.windowAt])) s (paramCommit o b s) := by
  unfold paramCommit
  repeat' (first
    | (extract_lets +onlyGivenNames t; refine Only.with_state (t := t) ?_ fun _ => ?_; subst t; rotate_left; clear_value t)
    | (extract_lets +onlyGivenNames t; have q : ℕ := t; clear q; clear_value t)
    | (extract_lets +onlyGivenNames t; have q : Bool := t; clear q; clear_value t)
    | (extract_lets +onlyGivenNames t; have q : ℤ := t; clear q; clear_value t)
    | (extract_lets +onlyGivenNames t; have q : Option _ := t; clear q; clear_value t)
    | (extract_lets +onlyGivenNames t; have q : List _ := t; clear q; clear_value t)
    | (extract_lets +onlyGivenNames t; have q : _ × _ := t; clear q; clear_value t)
    | with_reducible exact Only.refl _ _
    | with_reducible assumption
    | with_reducible apply Only.cond _ ?_ ?_
    | with_reducible apply Only.setCmd ?_ ?_ _ ?_
    | with_reducible apply Only.step ?_ (State.synCommit_only ..) ?_
    | with_reducible apply Only.step ?_ (State.commitNow_only ..) ?_
    | with_reducible apply Only.step ?_ (State.supersede_only ..) ?_
    | with_reducible apply Only.step ?_ (State.finish_only ..) ?_
    | with_reducible apply Only.step ?_ (State.synSchedule_only ..) ?_
    | with_reducible apply Only.step ?_ (State.accept_only ..) ?_
    | exact Eq.refl _
    | extract_lets
    | split)

theorem State.commitDue_only (s : State) (block : ℕ) :
    Only (some ([F.cal, F.cmd, F.evtAccs, F.fabric, F.fault, F.flash, F.fresh, F.gnss, F.hidden, F.linkRun, F.links, F.log, F.nhp, F.optics, F.pad, F.params, F.power, F.quay, F.refs, F.rings, F.servo, F.shadows, F.time, F.txSlots] ++
      [F.windowAt])) s (State.commitDue s block) := by
  unfold State.commitDue
  repeat' (first
    | with_reducible exact Only.refl _ _
    | with_reducible assumption
    | with_reducible apply Only.cond _ ?_ ?_
    | with_reducible apply Only.setCmd ?_ ?_ _ ?_
    | with_reducible apply Only.step ?_ (State.synDue_only ..) ?_
    | with_reducible apply Only.step ?_ (State.commitNow_only ..) ?_
    | exact Eq.refl _
    | split)

end Sys2Proof.Machine
end

