-- ==== Sys2Proof/Laws/OnlyShutter.lean ====
section
/-! SUPPORT. What each operation of Machine/Shutter.lean can change. -/

set_option linter.unusedTactic false
set_option linter.unreachableTactic false
set_option linter.tactic.unusedName false

namespace Sys2Proof.Machine

theorem State.enginesDown_only (s : State) (d : ℕ) :
    Only (some ([F.cal, F.cmd, F.fabric, F.fault, F.fresh, F.hidden, F.linkRun, F.links, F.nhp, F.optics, F.pad, F.power, F.quay, F.refs, F.rings, F.servo, F.txSlots, F.windowAt, P.BUF_DF_AGENT, P.BUF_DF_INDEX, P.BUF_DF_POOL, P.BUF_DF_TIME, P.BUF_DOUBLE_FREE, P.BUF_FLAGS] ++
      [P.BUF_HELD, P.BUF_QUARANTINED, P.BUF_SIGNALS, P.CAL_FLAGS, P.CMD_NOTICE_DROP, P.CMD_REFUSED_COUNT, P.HIE_NEIGHBOUR_ID, P.HIE_PORT_STATE, P.HIE_PORT_VERSION, P.HLT_FAULT_COUNT, P.HLT_STICKY, P.HST_RXQ_BYTES, P.LAN_STATE, P.LNK_BEVT, P.LNK_STATE, P.OBS_OVF, P.OBS_TRACE_DROP, P.OBS_TRACE_HEAD, P.OBS_TRACE_OLDEST, P.PRT_EGQ_BYTES, P.PRT_LINKDOWN_DROP, P.PRT_LINK_UP, P.PRT_PFC_TX_XOFF, P.PWR_DOMAIN_STATE] ++
      [P.PWR_WAKE_ADMITTED, P.PWR_WAKE_MAX_WAIT, P.PWR_WAKE_QUEUE_LEN, P.PWR_WAKE_SLOPE, P.PWR_WAKE_WAITED, P.REF_ACTIVE, P.REF_DEV, P.REF_FLAGS, P.REF_HO_C, P.REF_HO_D, P.REF_HO_Y0, P.REF_QSTATE, P.REF_SWLOG_HEAD, P.REF_SWLOG_INFO, P.REF_SWLOG_TIME, P.REF_TSTATE, P.SYN_STATE, P.TBS_BOUND_NOW, P.TBS_BOUND_PS, P.TBS_DOM_SELECTED, P.TBS_OVER_LIMIT_COUNT])) s (State.enginesDown s d) := by
  unfold State.enginesDown
  repeat' (first
    | with_reducible exact Only.refl _ _
    | with_reducible assumption
    | with_reducible apply Only.fold _ _ (fun _ _ => ?_) ?_
    | with_reducible apply OnlyP.fold _ _ (fun _ _ => ?_) ?_
    | with_reducible apply OnlyP.of ?_
    | with_reducible apply Only.wr ?_ ?_ _ _
    | with_reducible apply Only.step ?_ (State.laneOff_only ..) ?_
    | exact Eq.refl _)

theorem State.enginesWake_only (s : State) (d : ℕ) :
    Only (some [F.cal, F.cmd, F.power, F.rings, P.CMD_NOTICE_DROP, P.LAN_STATE, P.PWR_DOMAIN_STATE, P.PWR_WAKE_ADMITTED, P.PWR_WAKE_MAX_WAIT, P.PWR_WAKE_QUEUE_LEN, P.PWR_WAKE_SLOPE, P.PWR_WAKE_WAITED]) s (State.enginesWake s d) := by
  unfold State.enginesWake
  repeat' (first
    | with_reducible exact Only.refl _ _
    | with_reducible assumption
    | with_reducible apply Only.step ?_ (State.wakeLanes_only ..) ?_
    | exact Eq.refl _)

theorem State.abortWalks_only (s : State) :
    Only (some [F.cmd, F.rings, F.tables, P.CMD_REFUSED_COUNT, P.TBL_REHASH_STATE, P.TBS_OVER_LIMIT_COUNT]) s (State.abortWalks s) := by
  unfold State.abortWalks
  repeat' (first
    | (extract_lets +onlyGivenNames t; refine Only.with_state (t := t) ?_ fun _ => ?_; subst t; rotate_left; clear_value t)
    | (extract_lets +onlyGivenNames t; refine Only.with_pair (t := t) ?_ fun _ => ?_; subst t; rotate_left; clear_value t)
    | (extract_lets +onlyGivenNames t; clear_value t)
    | with_reducible exact Only.refl _ _
    | with_reducible assumption
    | with_reducible apply Only.fold _ _ (fun _ _ => ?_) ?_
    | with_reducible apply OnlyP.fold _ _ (fun _ _ => ?_) ?_
    | with_reducible apply OnlyP.of ?_
    | with_reducible apply Only.wr ?_ ?_ _ _
    | with_reducible apply Only.step ?_ (State.finish_only ..) ?_
    | with_reducible apply Only.step ?_ (State.setTables_only ..) ?_
    | exact Eq.refl _
    | extract_lets)

theorem State.reachFrames_only (s : State) (r : ℕ) :
    Only (some ([F.cmd, F.fabric, F.fault, F.hidden, F.pad, F.quay, F.rings, F.txSlots, F.windowAt, P.BUF_DF_AGENT, P.BUF_DF_INDEX, P.BUF_DF_POOL, P.BUF_DF_TIME, P.BUF_DOUBLE_FREE, P.BUF_FLAGS, P.BUF_HELD, P.BUF_QUARANTINED, P.BUF_SIGNALS, P.CMD_NOTICE_DROP, P.FAB_DRAIN_LOST, P.HLT_FAULT_COUNT, P.HLT_STICKY, P.HST_RXQ_BYTES, P.OBS_OVF] ++
      [P.OBS_TRACE_DROP, P.OBS_TRACE_HEAD, P.OBS_TRACE_OLDEST, P.PRT_EGQ_BYTES, P.PRT_LINKDOWN_DROP, P.PRT_PFC_TX_XOFF, P.TBS_OVER_LIMIT_COUNT, P.TBS_OVW_SKIP, P.TBS_PTP_SKIP, P.TBS_TRAILER_SKIP])) s (State.reachFrames s r) := by
  unfold State.reachFrames
  repeat' (first
    | (extract_lets +onlyGivenNames t; refine Only.with_state (t := t) ?_ fun _ => ?_; subst t; rotate_left; clear_value t)
    | (extract_lets +onlyGivenNames t; refine Only.with_pair (t := t) ?_ fun _ => ?_; subst t; rotate_left; clear_value t)
    | (extract_lets +onlyGivenNames t; clear_value t)
    | with_reducible exact Only.refl _ _
    | with_reducible assumption
    | with_reducible apply Only.fold _ _ (fun _ _ => ?_) ?_
    | with_reducible apply OnlyP.fold _ _ (fun _ _ => ?_) ?_
    | with_reducible apply OnlyP.of ?_
    | with_reducible apply Only.step ?_ (State.withdraw_only ..) ?_
    | with_reducible apply Only.trans ?_ (State.discardAt_only _ _ _ _ ?_ ?_)
    | with_reducible apply Only.step ?_ (State.setFab_only ..) ?_
    | exact Eq.refl _
    | extract_lets
    | split)

theorem State.fabricDomainDown_only (s : State) (d : ℕ) :
    Only (some ([F.cmd, F.fabric, F.fault, F.hidden, F.log, F.pad, F.quay, F.rings, F.tables, F.txSlots, F.windowAt, P.BUF_DF_AGENT, P.BUF_DF_INDEX, P.BUF_DF_POOL, P.BUF_DF_TIME, P.BUF_DOUBLE_FREE, P.BUF_FLAGS, P.BUF_HELD, P.BUF_QUARANTINED, P.BUF_SIGNALS, P.CMD_NOTICE_DROP, P.CMD_REFUSED_COUNT, P.FAB_BASIN_OCC, P.FAB_DRAIN_LOST] ++
      [P.FAB_RESEQ_OCC, P.FAB_STATE, P.HLT_FAULT_COUNT, P.HLT_STICKY, P.HST_RXQ_BYTES, P.LOG_HOLD_TIME, P.OBS_OVF, P.OBS_TRACE_DROP, P.OBS_TRACE_HEAD, P.OBS_TRACE_OLDEST, P.PRT_EGQ_BYTES, P.PRT_LINKDOWN_DROP, P.PRT_PFC_TX_XOFF, P.PWR_DOMAIN_STATE, P.TBL_EPOCH, P.TBL_OCCUPANCY, P.TBL_REHASH_CURSOR, P.TBL_REHASH_STATE, P.TBL_STASH_USED, P.TBS_OVER_LIMIT_COUNT, P.TBS_OVW_SKIP, P.TBS_PTP_SKIP, P.TBS_TRAILER_SKIP])) s (State.fabricDomainDown s d) := by
  unfold State.fabricDomainDown
  repeat' (first
    | (extract_lets +onlyGivenNames t; refine Only.with_state (t := t) ?_ fun _ => ?_; subst t; rotate_left; clear_value t)
    | (extract_lets +onlyGivenNames t; refine Only.with_pair (t := t) ?_ fun _ => ?_; subst t; rotate_left; clear_value t)
    | (extract_lets +onlyGivenNames t; clear_value t)
    | with_reducible exact Only.refl _ _
    | with_reducible assumption
    | with_reducible apply Only.fold _ _ (fun _ _ => ?_) ?_
    | with_reducible apply OnlyP.fold _ _ (fun _ _ => ?_) ?_
    | with_reducible apply OnlyP.of ?_
    | with_reducible apply OnlyP.cond _ ?_ ?_
    | with_reducible apply Only.cond _ ?_ ?_
    | with_reducible apply Only.step ?_ (State.fabricOff_only ..) ?_
    | with_reducible apply Only.step ?_ (State.setDomain_only ..) ?_
    | with_reducible apply Only.step ?_ (State.reachLost_only ..) ?_
    | with_reducible apply Only.step ?_ (State.reachFrames_only ..) ?_
    | with_reducible apply Only.step ?_ (State.quayLost_only ..) ?_
    | exact Eq.refl _
    | extract_lets
    | split)

theorem State.enterShutter_only (s : State) :
    Only (some ([F.cal, F.cmd, F.fabric, F.fault, F.fresh, F.gnss, F.hidden, F.linkRun, F.links, F.log, F.nhp, F.optics, F.pad, F.power, F.quay, F.refs, F.rings, F.servo, F.tables, F.txSlots, F.windowAt, P.BUF_DF_AGENT, P.BUF_DF_INDEX, P.BUF_DF_POOL] ++
      [P.BUF_DF_TIME, P.BUF_DOUBLE_FREE, P.BUF_FLAGS, P.BUF_HELD, P.BUF_QUARANTINED, P.BUF_SIGNALS, P.CAL_FLAGS, P.CMD_NOTICE_DROP, P.CMD_REFUSED_COUNT, P.FAB_BASIN_OCC, P.FAB_DRAIN_LOST, P.FAB_RESEQ_OCC, P.FAB_STATE, P.GNS_SATS_TRACKED, P.HIE_NEIGHBOUR_ID, P.HIE_PORT_STATE, P.HIE_PORT_VERSION, P.HLT_FAULT_COUNT, P.HLT_STICKY, P.HST_RXQ_BYTES, P.LAN_STATE, P.LNK_BEVT, P.LNK_STATE, P.LOG_FLAGS] ++
      [P.LOG_HOLD_ACTIVE, P.LOG_HOLD_TIME, P.LOG_SEALS_MERGED, P.LOG_SEAL_SEQ, P.LOG_SPILL_PEAK, P.LOG_SPILL_USED, P.OBS_OVF, P.OBS_TRACE_DROP, P.OBS_TRACE_HEAD, P.OBS_TRACE_OLDEST, P.OPT_LASER_STATE, P.OPT_SPARE_USED, P.PRT_EGQ_BYTES, P.PRT_LINKDOWN_DROP, P.PRT_LINK_UP, P.PRT_PFC_TX_XOFF, P.PWR_DOMAIN_STATE, P.PWR_SHUTTER_COUNT, P.PWR_SHUTTER_ENTRY_CAUSE, P.PWR_SHUTTER_STATE, P.PWR_WAKE_ADMITTED, P.PWR_WAKE_MAX_WAIT, P.PWR_WAKE_QUEUE_LEN, P.PWR_WAKE_SLOPE] ++
      [P.PWR_WAKE_WAITED, P.REF_ACTIVE, P.REF_DEV, P.REF_FLAGS, P.REF_HO_C, P.REF_HO_D, P.REF_HO_Y0, P.REF_QSTATE, P.REF_SWLOG_HEAD, P.REF_SWLOG_INFO, P.REF_SWLOG_TIME, P.REF_TSTATE, P.SYN_STATE, P.TBL_REHASH_STATE, P.TBS_BOUND_NOW, P.TBS_BOUND_PS, P.TBS_DOM_SELECTED, P.TBS_OVER_LIMIT_COUNT, P.TBS_OVW_SKIP, P.TBS_PTP_SKIP, P.TBS_TRAILER_SKIP])) s (State.enterShutter s) := by
  unfold State.enterShutter
  repeat' (first
    | (extract_lets +onlyGivenNames t; refine Only.with_state (t := t) ?_ fun _ => ?_; subst t; rotate_left; clear_value t)
    | (extract_lets +onlyGivenNames t; refine Only.with_pair (t := t) ?_ fun _ => ?_; subst t; rotate_left; clear_value t)
    | (extract_lets +onlyGivenNames t; clear_value t)
    | with_reducible exact Only.refl _ _
    | with_reducible assumption
    | with_reducible apply Only.fold _ _ (fun _ _ => ?_) ?_
    | with_reducible apply OnlyP.fold _ _ (fun _ _ => ?_) ?_
    | with_reducible apply OnlyP.of ?_
    | with_reducible apply OnlyP.cond _ ?_ ?_
    | with_reducible apply Only.cond _ ?_ ?_
    | with_reducible apply Only.wr ?_ ?_ _ _
    | with_reducible apply Only.count_plain ?_ ?_ (by decide) _ _
    | with_reducible apply Only.count ?_ ?_ ?_ ?_ _ _
    | with_reducible apply Only.step ?_ (State.setPower_only ..) ?_
    | with_reducible apply Only.step ?_ (State.openBatch_only ..) ?_
    | with_reducible apply Only.step ?_ (State.holdSettle_only ..) ?_
    | with_reducible apply Only.step ?_ (State.wakeCancel_only ..) ?_
    | with_reducible apply Only.step ?_ (State.setDomain_only ..) ?_
    | with_reducible apply Only.step ?_ (State.enginesDown_only ..) ?_
    | with_reducible apply Only.step ?_ (State.abortWalks_only ..) ?_
    | with_reducible apply Only.step ?_ (State.abortSwaps_only ..) ?_
    | with_reducible apply Only.step ?_ (State.setFab_only ..) ?_
    | with_reducible apply Only.step ?_ (State.fabricOff_only ..) ?_
    | with_reducible apply Only.step ?_ (State.gnssCount_only ..) ?_
    | with_reducible apply Only.step ?_ (State.setGnss_only ..) ?_
    | with_reducible apply Only.step ?_ (State.closeBatch_only ..) ?_
    | with_reducible apply Only.step ?_ (State.notice_only ..) ?_
    | with_reducible apply Only.step ?_ (State.sticky_only ..) ?_
    | with_reducible apply Only.step ?_ (State.sealAll_only ..) ?_
    | exact Eq.refl _
    | extract_lets
    | split)

theorem State.shutterCause_only (s : State) (c : ℕ) :
    Only (some ([F.cal, F.cmd, F.fabric, F.fault, F.fresh, F.gnss, F.hidden, F.linkRun, F.links, F.log, F.nhp, F.optics, F.pad, F.power, F.quay, F.refs, F.rings, F.servo, F.tables, F.txSlots, F.windowAt, P.BUF_DF_AGENT, P.BUF_DF_INDEX, P.BUF_DF_POOL] ++
      [P.BUF_DF_TIME, P.BUF_DOUBLE_FREE, P.BUF_FLAGS, P.BUF_HELD, P.BUF_QUARANTINED, P.BUF_SIGNALS, P.CAL_FLAGS, P.CMD_NOTICE_DROP, P.CMD_REFUSED_COUNT, P.FAB_BASIN_OCC, P.FAB_DRAIN_LOST, P.FAB_RESEQ_OCC, P.FAB_STATE, P.GNS_SATS_TRACKED, P.HIE_NEIGHBOUR_ID, P.HIE_PORT_STATE, P.HIE_PORT_VERSION, P.HLT_FAULT_COUNT, P.HLT_STICKY, P.HST_RXQ_BYTES, P.LAN_STATE, P.LNK_BEVT, P.LNK_STATE, P.LOG_FLAGS] ++
      [P.LOG_HOLD_ACTIVE, P.LOG_HOLD_TIME, P.LOG_SEALS_MERGED, P.LOG_SEAL_SEQ, P.LOG_SPILL_PEAK, P.LOG_SPILL_USED, P.OBS_OVF, P.OBS_TRACE_DROP, P.OBS_TRACE_HEAD, P.OBS_TRACE_OLDEST, P.OPT_LASER_STATE, P.OPT_SPARE_USED, P.PRT_EGQ_BYTES, P.PRT_LINKDOWN_DROP, P.PRT_LINK_UP, P.PRT_PFC_TX_XOFF, P.PWR_DOMAIN_STATE, P.PWR_SHUTTER_CAUSE, P.PWR_SHUTTER_COUNT, P.PWR_SHUTTER_ENTRY_CAUSE, P.PWR_SHUTTER_STATE, P.PWR_WAKE_ADMITTED, P.PWR_WAKE_MAX_WAIT, P.PWR_WAKE_QUEUE_LEN] ++
      [P.PWR_WAKE_SLOPE, P.PWR_WAKE_WAITED, P.REF_ACTIVE, P.REF_DEV, P.REF_FLAGS, P.REF_HO_C, P.REF_HO_D, P.REF_HO_Y0, P.REF_QSTATE, P.REF_SWLOG_HEAD, P.REF_SWLOG_INFO, P.REF_SWLOG_TIME, P.REF_TSTATE, P.SYN_STATE, P.TBL_REHASH_STATE, P.TBS_BOUND_NOW, P.TBS_BOUND_PS, P.TBS_DOM_SELECTED, P.TBS_OVER_LIMIT_COUNT, P.TBS_OVW_SKIP, P.TBS_PTP_SKIP, P.TBS_TRAILER_SKIP])) s (State.shutterCause s c) := by
  unfold State.shutterCause
  repeat' (first
    | (extract_lets +onlyGivenNames t; refine Only.with_state (t := t) ?_ fun _ => ?_; subst t; rotate_left; clear_value t)
    | (extract_lets +onlyGivenNames t; clear_value t)
    | with_reducible exact Only.refl _ _
    | with_reducible assumption
    | with_reducible apply Only.cond _ ?_ ?_
    | with_reducible apply Only.orIn ?_ ?_ _ _
    | with_reducible apply Only.step ?_ (State.enterShutter_only ..) ?_
    | with_reducible apply Only.step ?_ (State.fabricOff_only ..) ?_
    | exact Eq.refl _
    | extract_lets
    | split)

theorem execShutterEntered_only (s : State) :
    OnlyO (some ([F.cmd, F.fabric, F.fault, F.hidden, F.log, F.pad, F.quay, F.rings, F.tables, F.txSlots, F.windowAt, P.BUF_DF_AGENT, P.BUF_DF_INDEX, P.BUF_DF_POOL, P.BUF_DF_TIME, P.BUF_DOUBLE_FREE, P.BUF_FLAGS, P.BUF_HELD, P.BUF_QUARANTINED, P.BUF_SIGNALS, P.CMD_NOTICE_DROP, P.CMD_REFUSED_COUNT, P.FAB_BASIN_OCC, P.FAB_DRAIN_LOST] ++
      [P.FAB_RESEQ_OCC, P.FAB_STATE, P.HLT_FAULT_COUNT, P.HLT_STICKY, P.HST_RXQ_BYTES, P.LOG_HOLD_TIME, P.OBS_OVF, P.OBS_TRACE_DROP, P.OBS_TRACE_HEAD, P.OBS_TRACE_OLDEST, P.PRT_EGQ_BYTES, P.PRT_LINKDOWN_DROP, P.PRT_PFC_TX_XOFF, P.PWR_DOMAIN_STATE, P.PWR_SHUTTER_STATE, P.TBL_EPOCH, P.TBL_OCCUPANCY, P.TBL_REHASH_CURSOR, P.TBL_REHASH_STATE, P.TBL_STASH_USED, P.TBS_OVER_LIMIT_COUNT, P.TBS_OVW_SKIP, P.TBS_PTP_SKIP, P.TBS_TRAILER_SKIP])) s (execShutterEntered s) := by
  unfold execShutterEntered
  repeat' (first
    | with_reducible exact Only.refl _ _
    | with_reducible assumption
    | with_reducible apply OnlyO.of ?_
    | with_reducible apply OnlyO.cond _ ?_ ?_
    | with_reducible apply Only.fold _ _ (fun _ _ => ?_) ?_
    | with_reducible apply OnlyP.fold _ _ (fun _ _ => ?_) ?_
    | with_reducible apply OnlyP.of ?_
    | with_reducible apply OnlyP.cond _ ?_ ?_
    | with_reducible apply Only.cond _ ?_ ?_
    | with_reducible apply Only.wr ?_ ?_ _ _
    | with_reducible apply Only.step ?_ (State.fabricDomainDown_only ..) ?_
    | exact Eq.refl _
    | split)

theorem execShutterLeft_only (s : State) :
    OnlyO (some [F.cal, F.cmd, F.log, F.power, F.rings, P.CMD_NOTICE_DROP, P.GNS_SATS_TRACKED, P.LAN_STATE, P.LOG_HOLD_TIME, P.PWR_DOMAIN_STATE, P.PWR_SHUTTER_STATE, P.PWR_WAKE_ADMITTED, P.PWR_WAKE_MAX_WAIT, P.PWR_WAKE_QUEUE_LEN, P.PWR_WAKE_SLOPE, P.PWR_WAKE_WAITED]) s (execShutterLeft s) := by
  unfold execShutterLeft
  repeat' (first
    | with_reducible exact Only.refl _ _
    | with_reducible assumption
    | with_reducible apply OnlyO.of ?_
    | with_reducible apply OnlyO.cond _ ?_ ?_
    | with_reducible apply Only.cond _ ?_ ?_
    | with_reducible apply Only.wr ?_ ?_ _ _
    | with_reducible apply Only.step ?_ (State.gnssCount_only ..) ?_
    | with_reducible apply Only.step ?_ (State.wakeLanes_only ..) ?_
    | with_reducible apply Only.step ?_ (State.holdSettle_only ..) ?_
    | exact Eq.refl _
    | split)

theorem shutterEnter_only (o : Origin) (_b : List Byte) (s : State) :
    Only (some ([F.cal, F.cmd, F.fabric, F.fault, F.fresh, F.gnss, F.hidden, F.linkRun, F.links, F.log, F.nhp, F.optics, F.pad, F.power, F.quay, F.refs, F.rings, F.servo, F.tables, F.txSlots, F.windowAt, P.BUF_DF_AGENT, P.BUF_DF_INDEX, P.BUF_DF_POOL] ++
      [P.BUF_DF_TIME, P.BUF_DOUBLE_FREE, P.BUF_FLAGS, P.BUF_HELD, P.BUF_QUARANTINED, P.BUF_SIGNALS, P.CAL_FLAGS, P.CMD_NOTICE_DROP, P.CMD_REFUSED_COUNT, P.FAB_BASIN_OCC, P.FAB_DRAIN_LOST, P.FAB_RESEQ_OCC, P.FAB_STATE, P.GNS_SATS_TRACKED, P.HIE_NEIGHBOUR_ID, P.HIE_PORT_STATE, P.HIE_PORT_VERSION, P.HLT_FAULT_COUNT, P.HLT_STICKY, P.HST_RXQ_BYTES, P.LAN_STATE, P.LNK_BEVT, P.LNK_STATE, P.LOG_FLAGS] ++
      [P.LOG_HOLD_ACTIVE, P.LOG_HOLD_TIME, P.LOG_SEALS_MERGED, P.LOG_SEAL_SEQ, P.LOG_SPILL_PEAK, P.LOG_SPILL_USED, P.OBS_OVF, P.OBS_TRACE_DROP, P.OBS_TRACE_HEAD, P.OBS_TRACE_OLDEST, P.OPT_LASER_STATE, P.OPT_SPARE_USED, P.PRT_EGQ_BYTES, P.PRT_LINKDOWN_DROP, P.PRT_LINK_UP, P.PRT_PFC_TX_XOFF, P.PWR_DOMAIN_STATE, P.PWR_SHUTTER_CAUSE, P.PWR_SHUTTER_COUNT, P.PWR_SHUTTER_ENTRY_CAUSE, P.PWR_SHUTTER_STATE, P.PWR_WAKE_ADMITTED, P.PWR_WAKE_MAX_WAIT, P.PWR_WAKE_QUEUE_LEN] ++
      [P.PWR_WAKE_SLOPE, P.PWR_WAKE_WAITED, P.REF_ACTIVE, P.REF_DEV, P.REF_FLAGS, P.REF_HO_C, P.REF_HO_D, P.REF_HO_Y0, P.REF_QSTATE, P.REF_SWLOG_HEAD, P.REF_SWLOG_INFO, P.REF_SWLOG_TIME, P.REF_TSTATE, P.SYN_STATE, P.TBL_REHASH_STATE, P.TBS_BOUND_NOW, P.TBS_BOUND_PS, P.TBS_DOM_SELECTED, P.TBS_OVER_LIMIT_COUNT, P.TBS_OVW_SKIP, P.TBS_PTP_SKIP, P.TBS_TRAILER_SKIP])) s (shutterEnter o _b s) := by
  unfold shutterEnter
  repeat' (first
    | with_reducible exact Only.refl _ _
    | with_reducible assumption
    | with_reducible apply Only.step ?_ (State.finish_only ..) ?_
    | with_reducible apply Only.step ?_ (State.shutterCause_only ..) ?_
    | exact Eq.refl _)

theorem shutterLeave_only (o : Origin) (_b : List Byte) (s : State) :
    Only (some [F.cal, F.cmd, F.power, F.rings, P.CMD_NOTICE_DROP, P.CMD_REFUSED_COUNT, P.LAN_STATE, P.PWR_DOMAIN_STATE, P.PWR_SHUTTER_CAUSE, P.PWR_SHUTTER_STATE, P.PWR_WAKE_ADMITTED, P.PWR_WAKE_MAX_WAIT, P.PWR_WAKE_QUEUE_LEN, P.PWR_WAKE_SLOPE, P.PWR_WAKE_WAITED, P.TBS_OVER_LIMIT_COUNT]) s (shutterLeave o _b s) := by
  unfold shutterLeave
  repeat' (first
    | (extract_lets +onlyGivenNames t; refine Only.with_state (t := t) ?_ fun _ => ?_; subst t; rotate_left; clear_value t)
    | (extract_lets +onlyGivenNames t; refine Only.with_pair (t := t) ?_ fun _ => ?_; subst t; rotate_left; clear_value t)
    | (extract_lets +onlyGivenNames t; clear_value t)
    | with_reducible exact Only.refl _ _
    | with_reducible assumption
    | with_reducible apply Only.fold _ _ (fun _ _ => ?_) ?_
    | with_reducible apply OnlyP.fold _ _ (fun _ _ => ?_) ?_
    | with_reducible apply OnlyP.of ?_
    | with_reducible apply OnlyP.cond _ ?_ ?_
    | with_reducible apply Only.cond _ ?_ ?_
    | with_reducible apply Only.wr ?_ ?_ _ _
    | with_reducible apply Only.step ?_ (State.finish_only ..) ?_
    | with_reducible apply Only.fst ?_ (State.newTicket_only ..) ?_
    | with_reducible apply Only.pair (by assumption) (State.newTicket_only ..) ?_ ?_
    | with_reducible apply OnlyP.step ?_ (State.newTicket_only ..) ?_
    | with_reducible apply Only.step ?_ (State.wakeReply_only ..) ?_
    | with_reducible apply Only.step ?_ (State.wakeDomain_only ..) ?_
    | exact Eq.refl _
    | extract_lets
    | split)

theorem execShutterCauseClear_only (cause : Fin 4) (s : State) :
    OnlyO (some [P.PWR_SHUTTER_CAUSE]) s (execShutterCauseClear cause s) := by
  unfold execShutterCauseClear
  repeat' (first
    | (extract_lets +onlyGivenNames t; refine OnlyO.with_state (t := t) ?_ fun _ => ?_; subst t; rotate_left; clear_value t)
    | (extract_lets +onlyGivenNames t; refine Only.with_state (t := t) ?_ fun _ => ?_; subst t; rotate_left; clear_value t)
    | (extract_lets +onlyGivenNames t; clear_value t)
    | with_reducible exact Only.refl _ _
    | with_reducible assumption
    | with_reducible apply OnlyO.of ?_
    | with_reducible apply OnlyO.cond _ ?_ ?_
    | with_reducible apply Only.cond _ ?_ ?_
    | with_reducible apply Only.wr ?_ ?_ _ _
    | exact Eq.refl _
    | extract_lets
    | split)

end Sys2Proof.Machine
end

