-- ==== Sys2Proof/Laws/OnlyPower.lean ====
section
/-! SUPPORT. What each operation of Machine/Power.lean can change. -/

set_option linter.unusedTactic false
set_option linter.unreachableTactic false
set_option linter.tactic.unusedName false

namespace Sys2Proof.Machine

theorem State.resetModule_only (s : State) : Only none s (State.resetModule s) := by
  unfold State.resetModule
  have a : Only none s { State.reset with clock := s.clock, fresh := s.fresh, out := s.out, pending := s.pending, flash := s.flash } :=
    Only.of_keeps ⟨rfl, rfl, List.prefix_refl _, fun _ => rfl, fun _ => rfl, fun _ => rfl⟩
  have b := a.step (State.setPower_only _ fun p => { p with
    lostRails := s.power.lostRails, resetN := s.power.resetN, pins := s.power.pins, heaterA := s.power.heaterA }) rfl
  have c := ((b.wr (b := P.SPD_TAMPER_SRC) rfl 0 (s.rd P.SPD_TAMPER_SRC)).wr (b := P.SPD_LIFECYCLE) rfl 0 s.flash.lifecycle).step
    (State.setFab_only _ fun x => { x with mismatch := some s.clock }) rfl
  exact (c.setPad rfl _ id).step (State.setDomain_only ..) rfl

theorem State.startUp_only (s : State) : Only none s (State.startUp s) := by
  unfold State.startUp
  extract_lets src t1 t2 c t3 t4
  have h0 : Only none s { s.resetModule with released := s.clock } := Only.set_released (State.resetModule_only s) rfl _
  have h1 : Only none s t1 := Only.set_phase h0 rfl .booting
  have h2 : Only none s t2 := Only.wr (Only.fold _ _ (fun u d => (State.wakeDomain_only ..).mono rfl) h1) rfl _ _
  have h3 : Only none s t3 := Only.step ((h2.wr rfl _ _).wr rfl _ _) (State.refreshRefs_only ..) rfl
  have h4 : Only none s t4 := h3.step (State.setPower_only ..) rfl
  clear_value t4
  split
  · exact Only.set_phase h4 rfl _
  · rename_i slot version _
    have h5 := (h4.wr (b := P.PWR_BOOT_SLOT) rfl 0 slot).wr (b := P.SYS_FW_VERSION) rfl 0 version
    exact Only.cond _ (h5.step (State.keyStart_only ..) rfl) h5

theorem execResetNRelease_only (pins : Fin 8) (heaterA : Bool) (s : State) :
    OnlyO none s (execResetNRelease pins heaterA s) := by
  unfold execResetNRelease
  repeat' (first
    | (extract_lets +onlyGivenNames t; refine OnlyO.with_state (t := t) ?_ fun _ => ?_; subst t; rotate_left; clear_value t)
    | (extract_lets +onlyGivenNames t; refine Only.with_state (t := t) ?_ fun _ => ?_; subst t; rotate_left; clear_value t)
    | (extract_lets +onlyGivenNames t; clear_value t)
    | with_reducible exact Only.refl _ _
    | with_reducible assumption
    | with_reducible apply OnlyO.of ?_
    | with_reducible apply OnlyO.cond _ ?_ ?_
    | with_reducible apply Only.cond _ ?_ ?_
    | with_reducible apply Only.step ?_ (State.setPower_only ..) ?_
    | with_reducible apply Only.step ?_ (State.startUp_only ..) ?_
    | exact Eq.refl _
    | extract_lets
    | split)

theorem execResetNAssert_only (s : State) :
    OnlyO none s (execResetNAssert s) := by
  unfold execResetNAssert
  repeat' (first
    | with_reducible exact Only.refl _ _
    | with_reducible assumption
    | with_reducible apply OnlyO.of ?_
    | with_reducible apply Only.step ?_ (State.resetModule_only ..) ?_
    | with_reducible apply Only.step ?_ (State.setPower_only ..) ?_
    | exact Eq.refl _)

theorem State.loadFlash_only (s : State) :
    Only (some [P.HIE_IDENTITY, P.HIE_PORT_MAC_BASE, P.LNK_ASYM, P.LNK_ASYM_RES, P.SYS_SERIAL]) s (State.loadFlash s) := by
  unfold State.loadFlash
  repeat' (first
    | (extract_lets +onlyGivenNames t; refine Only.with_state (t := t) ?_ fun _ => ?_; subst t; rotate_left; clear_value t)
    | (extract_lets +onlyGivenNames t; refine Only.with_pair (t := t) ?_ fun _ => ?_; subst t; rotate_left; clear_value t)
    | (extract_lets +onlyGivenNames t; clear_value t)
    | with_reducible exact Only.refl _ _
    | with_reducible assumption
    | with_reducible apply Only.fold _ _ (fun _ _ => ?_) ?_
    | with_reducible apply OnlyP.fold _ _ (fun _ _ => ?_) ?_
    | with_reducible apply OnlyP.of ?_
    | with_reducible apply Only.wr ?_ ?_ _ _
    | exact Eq.refl _
    | extract_lets)

theorem execCommandChannelReady_only (s : State) :
    OnlyO (some ([F.cal, F.cmd, F.fault, F.fresh, F.nhp, F.phase, F.power, F.refs, F.rings, F.servo, P.CAL_FLAGS, P.CMD_NOTICE_DROP, P.HIE_DEPTH, P.HIE_FLAGS, P.HIE_IDENTITY, P.HIE_MEMBER_STATE, P.HIE_PARENT_ID, P.HIE_PARENT_PORT, P.HIE_PORT_MAC_BASE, P.HIE_REG_CLIENTS, P.HIE_REG_MODULES, P.HIE_WORKER_NUM, P.HLT_FAULT_COUNT, P.HLT_STICKY] ++
      [P.LAN_STATE, P.LNK_ASYM, P.LNK_ASYM_RES, P.PRT_FLAGS, P.PRT_HEADROOM, P.PRT_HEADROOM_POOL, P.PRT_HEADROOM_SUM, P.PWR_DOMAIN_STATE, P.PWR_WAKE_ADMITTED, P.PWR_WAKE_MAX_WAIT, P.PWR_WAKE_QUEUE_LEN, P.PWR_WAKE_SLOPE, P.PWR_WAKE_WAITED, P.REF_ACTIVE, P.REF_BREF, P.REF_DEV, P.REF_FLAGS, P.REF_HO_C, P.REF_HO_D, P.REF_HO_Y0, P.REF_KIND, P.REF_QSTATE, P.REF_SWLOG_HEAD, P.REF_SWLOG_INFO] ++
      [P.REF_SWLOG_TIME, P.REF_TSTATE, P.SYS_SERIAL, P.TBS_BOUND_NOW, P.TBS_BOUND_PS, P.TBS_DOM_SELECTED, P.TBS_OVER_LIMIT_COUNT])) s (execCommandChannelReady s) := by
  unfold execCommandChannelReady
  repeat' (first
    | (extract_lets +onlyGivenNames t; refine OnlyO.with_state (t := t) ?_ fun _ => ?_; subst t; rotate_left; clear_value t)
    | (extract_lets +onlyGivenNames t; refine OnlyO.with_pair (t := t) ?_ fun _ => ?_; subst t; rotate_left; clear_value t)
    | (extract_lets +onlyGivenNames t; refine Only.with_state (t := t) ?_ fun _ => ?_; subst t; rotate_left; clear_value t)
    | (extract_lets +onlyGivenNames t; refine Only.with_pair (t := t) ?_ fun _ => ?_; subst t; rotate_left; clear_value t)
    | (extract_lets +onlyGivenNames t; clear_value t)
    | with_reducible exact Only.refl _ _
    | with_reducible assumption
    | with_reducible apply OnlyO.of ?_
    | with_reducible apply OnlyO.cond _ ?_ ?_
    | with_reducible apply Only.fold _ _ (fun _ _ => ?_) ?_
    | with_reducible apply OnlyP.fold _ _ (fun _ _ => ?_) ?_
    | with_reducible apply OnlyP.of ?_
    | with_reducible apply OnlyP.cond _ ?_ ?_
    | with_reducible apply Only.cond _ ?_ ?_
    | with_reducible apply Only.orIn ?_ ?_ _ _
    | with_reducible apply Only.step ?_ (State.loadFlash_only ..) ?_
    | with_reducible apply Only.step ?_ (State.wakeDomain_only ..) ?_
    | with_reducible apply Only.step ?_ (State.setCal_only ..) ?_
    | with_reducible apply Only.step ?_ (State.sticky_only ..) ?_
    | with_reducible apply Only.step ?_ (State.refreshRefs_only ..) ?_
    | with_reducible apply Only.step ?_ (State.refreshHeadroom_only ..) ?_
    | with_reducible apply Only.step ?_ (State.nhpStart_only ..) ?_
    | exact Eq.refl _
    | extract_lets
    | split
    | with_reducible apply Only.set_phase ?_ ?_ _)

theorem State.corePower_only (s : State) (c : ℕ) :
    Only (some [P.COR_STATE, P.SYN_STATE, P.SYN_VCO_FREQ]) s (State.corePower s c) := by
  unfold State.corePower
  repeat' (first
    | (extract_lets +onlyGivenNames t; refine Only.with_state (t := t) ?_ fun _ => ?_; subst t; rotate_left; clear_value t)
    | (extract_lets +onlyGivenNames t; refine Only.with_pair (t := t) ?_ fun _ => ?_; subst t; rotate_left; clear_value t)
    | (extract_lets +onlyGivenNames t; clear_value t)
    | with_reducible exact Only.refl _ _
    | with_reducible assumption
    | with_reducible apply Only.fold _ _ (fun _ _ => ?_) ?_
    | with_reducible apply OnlyP.fold _ _ (fun _ _ => ?_) ?_
    | with_reducible apply OnlyP.of ?_
    | with_reducible apply OnlyP.cond _ ?_ ?_
    | with_reducible apply Only.cond _ ?_ ?_
    | with_reducible apply Only.wr ?_ ?_ _ _
    | with_reducible apply Only.step ?_ (State.synLocked_only ..) ?_
    | exact Eq.refl _
    | extract_lets
    | split)

theorem State.resumeFabric_only (s : State) :
    Only (some [F.fabric, F.log, P.FAB_STATE, P.FAB_STEP_COUNT, P.LOG_HOLD_TIME]) s (State.resumeFabric s) := by
  unfold State.resumeFabric
  repeat' (first
    | with_reducible exact Only.refl _ _
    | with_reducible assumption
    | with_reducible apply Only.cond _ ?_ ?_
    | with_reducible apply Only.step ?_ (State.fabricStart_only ..) ?_
    | exact Eq.refl _
    | split)

theorem execPowerGood_only (dom : Fin 13) (s : State) :
    OnlyO (some ([F.cal, F.cmd, F.fabric, F.fault, F.fresh, F.log, F.optics, F.power, F.quay, F.refs, F.rings, F.servo, F.tables, P.BUF_QUARANTINED, P.CMD_NOTICE_DROP, P.COR_STATE, P.FAB_STATE, P.FAB_STEP_COUNT, P.HLT_FAULT_COUNT, P.HLT_STICKY, P.LAN_STATE, P.LOG_HOLD_TIME, P.PWR_DOMAIN_STATE, P.PWR_WAKE_ADMITTED] ++
      [P.PWR_WAKE_MAX_WAIT, P.PWR_WAKE_QUEUE_LEN, P.PWR_WAKE_SLOPE, P.PWR_WAKE_WAITED, P.REF_ACTIVE, P.REF_BREF, P.REF_DEV, P.REF_FLAGS, P.REF_HO_C, P.REF_HO_D, P.REF_HO_Y0, P.REF_KIND, P.REF_QSTATE, P.REF_SWLOG_HEAD, P.REF_SWLOG_INFO, P.REF_SWLOG_TIME, P.REF_TSTATE, P.SYN_BAND_MISSES, P.SYN_STATE, P.SYN_VCO_FREQ, P.TBL_EPOCH, P.TBL_OCCUPANCY, P.TBL_REHASH_CURSOR, P.TBL_REHASH_STATE] ++
      [P.TBL_STASH_USED, P.TBS_BOUND_NOW, P.TBS_BOUND_PS, P.TBS_DOM_SELECTED])) s (execPowerGood dom s) := by
  unfold execPowerGood
  repeat' (first
    | (extract_lets +onlyGivenNames t; refine OnlyO.with_state (t := t) ?_ fun _ => ?_; subst t; rotate_left; clear_value t)
    | (extract_lets +onlyGivenNames t; refine OnlyO.with_pair (t := t) ?_ fun _ => ?_; subst t; rotate_left; clear_value t)
    | (extract_lets +onlyGivenNames t; refine Only.with_state (t := t) ?_ fun _ => ?_; subst t; rotate_left; clear_value t)
    | (extract_lets +onlyGivenNames t; refine Only.with_pair (t := t) ?_ fun _ => ?_; subst t; rotate_left; clear_value t)
    | (extract_lets +onlyGivenNames t; clear_value t)
    | with_reducible exact Only.refl _ _
    | with_reducible assumption
    | with_reducible apply OnlyO.of ?_
    | with_reducible apply OnlyO.cond _ ?_ ?_
    | with_reducible apply Only.fold _ _ (fun _ _ => ?_) ?_
    | with_reducible apply OnlyP.fold _ _ (fun _ _ => ?_) ?_
    | with_reducible apply OnlyP.of ?_
    | with_reducible apply OnlyP.cond _ ?_ ?_
    | with_reducible apply Only.cond _ ?_ ?_
    | with_reducible apply Only.step ?_ (State.setDomain_only ..) ?_
    | with_reducible apply Only.step ?_ (State.corePower_only ..) ?_
    | with_reducible apply Only.step ?_ (State.refreshRefs_only ..) ?_
    | with_reducible apply Only.step ?_ (State.resumeFabric_only ..) ?_
    | with_reducible apply Only.step ?_ (State.fabricPower_only ..) ?_
    | with_reducible apply Only.step ?_ (State.streamRestore_only ..) ?_
    | with_reducible apply Only.step ?_ (State.quayUp_only ..) ?_
    | with_reducible apply Only.step ?_ (State.lineUp_only ..) ?_
    | with_reducible apply Only.step ?_ (State.enginesWake_only ..) ?_
    | exact Eq.refl _
    | extract_lets
    | split)

theorem State.gnssLost_only (s : State) :
    Only (some ([F.cmd, F.fault, F.fresh, F.gnss, F.refs, F.rings, F.servo, P.CMD_NOTICE_DROP, P.CMD_REFUSED_COUNT, P.GNS_SATS_TRACKED, P.HLT_FAULT_COUNT, P.HLT_STICKY, P.REF_ACTIVE, P.REF_DEV, P.REF_FLAGS, P.REF_HO_C, P.REF_HO_D, P.REF_HO_Y0, P.REF_QSTATE, P.REF_SWLOG_HEAD, P.REF_SWLOG_INFO, P.REF_SWLOG_TIME, P.REF_TSTATE, P.TBS_BOUND_NOW] ++
      [P.TBS_BOUND_PS, P.TBS_DOM_SELECTED, P.TBS_OVER_LIMIT_COUNT])) s (State.gnssLost s) := by
  unfold State.gnssLost
  repeat' (first
    | with_reducible exact Only.refl _ _
    | with_reducible assumption
    | with_reducible apply Only.step ?_ (State.loseRef_only ..) ?_
    | with_reducible apply Only.step ?_ (State.gnssCount_only ..) ?_
    | with_reducible apply Only.step ?_ (State.setGnss_only ..) ?_
    | with_reducible apply Only.step ?_ (State.snapshotAborted_only ..) ?_
    | exact Eq.refl _)

theorem State.coreDomainLost_only (s : State) (c : ℕ) :
    Only (some ([F.cmd, F.fault, F.fresh, F.refs, F.rings, F.servo, F.time, P.CMD_NOTICE_DROP, P.CMD_REFUSED_COUNT, P.COR_FLAGS, P.COR_SCORE, P.COR_STATE, P.COR_TEST_RESULT, P.HLT_FAULT_COUNT, P.HLT_STICKY, P.PWR_DOMAIN_STATE, P.REF_ACTIVE, P.REF_DEV, P.REF_FLAGS, P.REF_HO_C, P.REF_HO_D, P.REF_HO_Y0, P.REF_QSTATE, P.REF_SWLOG_HEAD] ++
      [P.REF_SWLOG_INFO, P.REF_SWLOG_TIME, P.REF_TSTATE, P.SYN_STATE, P.TBS_BOUND_NOW, P.TBS_BOUND_PS, P.TBS_DOM_SELECTED, P.TBS_OVER_LIMIT_COUNT])) s (State.coreDomainLost s c) := by
  unfold State.coreDomainLost
  repeat' (first
    | (extract_lets +onlyGivenNames t; refine Only.with_state (t := t) ?_ fun _ => ?_; subst t; rotate_left; clear_value t)
    | (extract_lets +onlyGivenNames t; refine Only.with_pair (t := t) ?_ fun _ => ?_; subst t; rotate_left; clear_value t)
    | (extract_lets +onlyGivenNames t; clear_value t)
    | with_reducible exact Only.refl _ _
    | with_reducible assumption
    | with_reducible apply Only.fold _ _ (fun _ _ => ?_) ?_
    | with_reducible apply OnlyP.fold _ _ (fun _ _ => ?_) ?_
    | with_reducible apply OnlyP.of ?_
    | with_reducible apply OnlyP.cond _ ?_ ?_
    | with_reducible apply Only.cond _ ?_ ?_
    | with_reducible apply Only.wr ?_ ?_ _ _
    | with_reducible apply Only.step ?_ (State.coreFault_only ..) ?_
    | with_reducible apply Only.step ?_ (State.openBatch_only ..) ?_
    | with_reducible apply Only.step ?_ (State.setDomain_only ..) ?_
    | with_reducible apply Only.step ?_ (State.closeBatch_only ..) ?_
    | with_reducible apply Only.step ?_ (State.loseRef_only ..) ?_
    | exact Eq.refl _
    | extract_lets
    | split)

theorem State.domainLost_only (s : State) (d : ℕ) :
    Only none s (State.domainLost s d) := by
  unfold State.domainLost
  repeat' (first
    | with_reducible exact Only.refl _ _
    | with_reducible assumption
    | with_reducible apply Only.step ?_ (State.resetModule_only ..) ?_
    | with_reducible apply Only.step ?_ (State.coreDomainLost_only ..) ?_
    | with_reducible apply Only.step ?_ (State.gnssLost_only ..) ?_
    | with_reducible apply Only.step ?_ (State.setDomain_only ..) ?_
    | with_reducible apply Only.step ?_ (State.linkLost_only ..) ?_
    | with_reducible apply Only.step ?_ (State.shutterCause_only ..) ?_
    | with_reducible apply Only.step ?_ (State.fabricDomainDown_only ..) ?_
    | with_reducible apply Only.step ?_ (State.closeBatch_only ..) ?_
    | with_reducible apply Only.step ?_ (State.enginesDown_only ..) ?_
    | with_reducible apply Only.step ?_ (State.openBatch_only ..) ?_
    | exact Eq.refl _
    | split)

theorem State.railMeasured_only (s : State) (k : ℕ) (mv : ℕ) :
    Only (some [F.fabric, F.power, P.FAB_PACE_NOW, P.FAB_VCORE_MEAS, P.PWR_RAIL_MV]) s (State.railMeasured s k mv) := by
  unfold State.railMeasured
  repeat' (first
    | (extract_lets +onlyGivenNames t; refine Only.with_state (t := t) ?_ fun _ => ?_; subst t; rotate_left; clear_value t)
    | (extract_lets +onlyGivenNames t; clear_value t)
    | with_reducible exact Only.refl _ _
    | with_reducible assumption
    | with_reducible apply Only.cond _ ?_ ?_
    | with_reducible apply Only.wr ?_ ?_ _ _
    | with_reducible apply Only.step ?_ (State.vcore_only ..) ?_
    | exact Eq.refl _
    | extract_lets
    | split)

theorem execRailLoss_only (rail : Fin 8) (mv : BitVec 16) (s : State) :
    OnlyO none s (execRailLoss rail mv s) := by
  unfold execRailLoss
  repeat' (first
    | (extract_lets +onlyGivenNames t; refine OnlyO.with_state (t := t) ?_ fun _ => ?_; subst t; rotate_left; clear_value t)
    | (extract_lets +onlyGivenNames t; refine OnlyO.with_pair (t := t) ?_ fun _ => ?_; subst t; rotate_left; clear_value t)
    | (extract_lets +onlyGivenNames t; refine Only.with_state (t := t) ?_ fun _ => ?_; subst t; rotate_left; clear_value t)
    | (extract_lets +onlyGivenNames t; refine Only.with_pair (t := t) ?_ fun _ => ?_; subst t; rotate_left; clear_value t)
    | (extract_lets +onlyGivenNames t; clear_value t)
    | with_reducible exact Only.refl _ _
    | with_reducible assumption
    | with_reducible apply OnlyO.of ?_
    | with_reducible apply OnlyO.cond _ ?_ ?_
    | with_reducible apply Only.fold _ _ (fun _ _ => ?_) ?_
    | with_reducible apply OnlyP.fold _ _ (fun _ _ => ?_) ?_
    | with_reducible apply OnlyP.of ?_
    | with_reducible apply OnlyP.cond _ ?_ ?_
    | with_reducible apply Only.cond _ ?_ ?_
    | with_reducible apply Only.wr ?_ ?_ _ _
    | with_reducible apply Only.count_plain ?_ ?_ (by decide) _ _
    | with_reducible apply Only.count ?_ ?_ ?_ ?_ _ _
    | with_reducible apply Only.step ?_ (State.railMeasured_only ..) ?_
    | with_reducible apply Only.step ?_ (State.setPower_only ..) ?_
    | with_reducible apply Only.step ?_ (State.sticky_only ..) ?_
    | with_reducible apply Only.step ?_ (State.openBatch_only ..) ?_
    | with_reducible apply Only.step ?_ (State.closeBatch_only ..) ?_
    | with_reducible apply Only.step ?_ (State.shutterCause_only ..) ?_
    | with_reducible apply Only.step ?_ (State.loseRef_only ..) ?_
    | with_reducible apply Only.step ?_ (State.retrainLanes_only ..) ?_
    | with_reducible apply Only.step ?_ (State.laneOff_only ..) ?_
    | with_reducible apply Only.step ?_ (State.resetModule_only ..) ?_
    | exact Eq.refl _
    | extract_lets
    | split)

theorem execRailRestored_only (rail : Fin 8) (mv : BitVec 16) (pins : Fin 8) (heaterA : Bool) (s : State) :
    OnlyO none s (execRailRestored rail mv pins heaterA s) := by
  unfold execRailRestored
  repeat' (first
    | (extract_lets +onlyGivenNames t; refine OnlyO.with_state (t := t) ?_ fun _ => ?_; subst t; rotate_left; clear_value t)
    | (extract_lets +onlyGivenNames t; refine Only.with_state (t := t) ?_ fun _ => ?_; subst t; rotate_left; clear_value t)
    | (extract_lets +onlyGivenNames t; clear_value t)
    | with_reducible exact Only.refl _ _
    | with_reducible assumption
    | with_reducible apply OnlyO.of ?_
    | with_reducible apply OnlyO.cond _ ?_ ?_
    | with_reducible apply Only.cond _ ?_ ?_
    | with_reducible apply Only.step ?_ (State.railMeasured_only ..) ?_
    | with_reducible apply Only.step ?_ (State.setPower_only ..) ?_
    | with_reducible apply Only.step ?_ (State.vcore_only ..) ?_
    | with_reducible apply Only.step ?_ (State.wakeLanes_only ..) ?_
    | with_reducible apply Only.step ?_ (State.startUp_only ..) ?_
    | with_reducible apply Only.step ?_ (State.resetModule_only ..) ?_
    | exact Eq.refl _
    | extract_lets
    | split)

theorem execDieTemperature_only (die : Fin 6) (temp : BitVec 16) (s : State) :
    OnlyO (some ([F.cal, F.cmd, F.fabric, F.fault, F.fresh, F.gnss, F.hidden, F.linkRun, F.links, F.log, F.nhp, F.optics, F.pad, F.power, F.quay, F.refs, F.rings, F.servo, F.tables, F.txSlots, F.windowAt, P.BUF_DF_AGENT, P.BUF_DF_INDEX, P.BUF_DF_POOL] ++
      [P.BUF_DF_TIME, P.BUF_DOUBLE_FREE, P.BUF_FLAGS, P.BUF_HELD, P.BUF_QUARANTINED, P.BUF_SIGNALS, P.CAL_FLAGS, P.CMD_NOTICE_DROP, P.CMD_REFUSED_COUNT, P.FAB_BASIN_OCC, P.FAB_DRAIN_LOST, P.FAB_RESEQ_OCC, P.FAB_STATE, P.GNS_SATS_TRACKED, P.HIE_NEIGHBOUR_ID, P.HIE_PORT_STATE, P.HIE_PORT_VERSION, P.HLT_DIE_TEMP, P.HLT_FAULT_COUNT, P.HLT_STICKY, P.HST_RXQ_BYTES, P.LAN_STATE, P.LNK_BEVT, P.LNK_STATE] ++
      [P.LOG_FLAGS, P.LOG_HOLD_ACTIVE, P.LOG_HOLD_TIME, P.LOG_SEALS_MERGED, P.LOG_SEAL_SEQ, P.LOG_SPILL_PEAK, P.LOG_SPILL_USED, P.OBS_OVF, P.OBS_TRACE_DROP, P.OBS_TRACE_HEAD, P.OBS_TRACE_OLDEST, P.OPT_LASER_STATE, P.OPT_SPARE_USED, P.PRT_EGQ_BYTES, P.PRT_LINKDOWN_DROP, P.PRT_LINK_UP, P.PRT_PFC_TX_XOFF, P.PWR_DOMAIN_STATE, P.PWR_SHUTTER_CAUSE, P.PWR_SHUTTER_COUNT, P.PWR_SHUTTER_ENTRY_CAUSE, P.PWR_SHUTTER_STATE, P.PWR_WAKE_ADMITTED, P.PWR_WAKE_MAX_WAIT] ++
      [P.PWR_WAKE_QUEUE_LEN, P.PWR_WAKE_SLOPE, P.PWR_WAKE_WAITED, P.REF_ACTIVE, P.REF_DEV, P.REF_FLAGS, P.REF_HO_C, P.REF_HO_D, P.REF_HO_Y0, P.REF_QSTATE, P.REF_SWLOG_HEAD, P.REF_SWLOG_INFO, P.REF_SWLOG_TIME, P.REF_TSTATE, P.SPD_TAMPER_SRC, P.SPD_WIPE_BUSY, P.SYN_STATE, P.TBL_REHASH_STATE, P.TBS_BOUND_NOW, P.TBS_BOUND_PS, P.TBS_DOM_SELECTED, P.TBS_OVER_LIMIT_COUNT, P.TBS_OVW_SKIP, P.TBS_PTP_SKIP] ++
      [P.TBS_TRAILER_SKIP])) s (execDieTemperature die temp s) := by
  unfold execDieTemperature
  repeat' (first
    | (extract_lets +onlyGivenNames t; refine OnlyO.with_state (t := t) ?_ fun _ => ?_; subst t; rotate_left; clear_value t)
    | (extract_lets +onlyGivenNames t; refine Only.with_state (t := t) ?_ fun _ => ?_; subst t; rotate_left; clear_value t)
    | (extract_lets +onlyGivenNames t; have q : ℕ := t; clear q; clear_value t)
    | (extract_lets +onlyGivenNames t; have q : Bool := t; clear q; clear_value t)
    | (extract_lets +onlyGivenNames t; have q : ℤ := t; clear q; clear_value t)
    | (extract_lets +onlyGivenNames t; have q : Option _ := t; clear q; clear_value t)
    | (extract_lets +onlyGivenNames t; have q : List _ := t; clear q; clear_value t)
    | (extract_lets +onlyGivenNames t; have q : _ × _ := t; clear q; clear_value t)
    | with_reducible exact Only.refl _ _
    | with_reducible assumption
    | with_reducible apply OnlyO.of ?_
    | with_reducible apply OnlyO.cond _ ?_ ?_
    | with_reducible apply Only.cond _ ?_ ?_
    | with_reducible apply Only.setPad ?_ ?_ _ ?_
    | with_reducible apply Only.wr ?_ ?_ _ _
    | with_reducible apply Only.step ?_ (State.sticky_only ..) ?_
    | with_reducible apply Only.step ?_ (State.shutterCause_only ..) ?_
    | with_reducible apply Only.step ?_ (State.tamper_only ..) ?_
    | exact Eq.refl _
    | extract_lets
    | split
    | exact id)

theorem execWatchdogExpiry_only (fw : Fin 4) (s : State) :
    OnlyO (some ([F.cal, F.cmd, F.fabric, F.fault, F.fresh, F.gnss, F.hidden, F.linkRun, F.links, F.log, F.nhp, F.optics, F.pad, F.power, F.quay, F.refs, F.rings, F.servo, F.tables, F.txSlots, F.windowAt, P.BUF_DF_AGENT, P.BUF_DF_INDEX, P.BUF_DF_POOL] ++
      [P.BUF_DF_TIME, P.BUF_DOUBLE_FREE, P.BUF_FLAGS, P.BUF_HELD, P.BUF_QUARANTINED, P.BUF_SIGNALS, P.CAL_FLAGS, P.CMD_NOTICE_DROP, P.CMD_REFUSED_COUNT, P.FAB_BASIN_OCC, P.FAB_DRAIN_LOST, P.FAB_RESEQ_OCC, P.FAB_STATE, P.GNS_SATS_TRACKED, P.HIE_NEIGHBOUR_ID, P.HIE_PORT_STATE, P.HIE_PORT_VERSION, P.HLT_FAULT_COUNT, P.HLT_STICKY, P.HST_RXQ_BYTES, P.LAN_STATE, P.LNK_BEVT, P.LNK_STATE, P.LOG_FLAGS] ++
      [P.LOG_HOLD_ACTIVE, P.LOG_HOLD_TIME, P.LOG_SEALS_MERGED, P.LOG_SEAL_SEQ, P.LOG_SPILL_PEAK, P.LOG_SPILL_USED, P.OBS_OVF, P.OBS_TRACE_DROP, P.OBS_TRACE_HEAD, P.OBS_TRACE_OLDEST, P.OPT_LASER_STATE, P.OPT_SPARE_USED, P.PRT_EGQ_BYTES, P.PRT_LINKDOWN_DROP, P.PRT_LINK_UP, P.PRT_PFC_TX_XOFF, P.PWR_DOMAIN_STATE, P.PWR_SHUTTER_CAUSE, P.PWR_SHUTTER_COUNT, P.PWR_SHUTTER_ENTRY_CAUSE, P.PWR_SHUTTER_STATE, P.PWR_WAKE_ADMITTED, P.PWR_WAKE_MAX_WAIT, P.PWR_WAKE_QUEUE_LEN] ++
      [P.PWR_WAKE_SLOPE, P.PWR_WAKE_WAITED, P.REF_ACTIVE, P.REF_DEV, P.REF_FLAGS, P.REF_HO_C, P.REF_HO_D, P.REF_HO_Y0, P.REF_QSTATE, P.REF_SWLOG_HEAD, P.REF_SWLOG_INFO, P.REF_SWLOG_TIME, P.REF_TSTATE, P.SYN_STATE, P.TBL_REHASH_STATE, P.TBS_BOUND_NOW, P.TBS_BOUND_PS, P.TBS_DOM_SELECTED, P.TBS_OVER_LIMIT_COUNT, P.TBS_OVW_SKIP, P.TBS_PTP_SKIP, P.TBS_TRAILER_SKIP])) s (execWatchdogExpiry fw s) := by
  unfold execWatchdogExpiry
  repeat' (first
    | (extract_lets +onlyGivenNames t; refine OnlyO.with_state (t := t) ?_ fun _ => ?_; subst t; rotate_left; clear_value t)
    | (extract_lets +onlyGivenNames t; refine Only.with_state (t := t) ?_ fun _ => ?_; subst t; rotate_left; clear_value t)
    | (extract_lets +onlyGivenNames t; clear_value t)
    | with_reducible exact Only.refl _ _
    | with_reducible assumption
    | with_reducible apply OnlyO.of ?_
    | with_reducible apply OnlyO.cond _ ?_ ?_
    | with_reducible apply Only.cond _ ?_ ?_
    | with_reducible apply Only.step ?_ (State.sticky_only ..) ?_
    | with_reducible apply Only.step ?_ (State.shutterCause_only ..) ?_
    | with_reducible apply Only.step ?_ (State.setPower_only ..) ?_
    | exact Eq.refl _
    | extract_lets
    | split)

theorem faultRead_only (o : Origin) (_b : List Byte) (s : State) :
    Only (some [F.cmd, F.rings, P.CMD_REFUSED_COUNT, P.TBS_OVER_LIMIT_COUNT]) s (faultRead o _b s) := by
  unfold faultRead
  repeat' (first
    | with_reducible exact Only.refl _ _
    | with_reducible assumption
    | with_reducible apply Only.step ?_ (State.finish_only ..) ?_
    | exact Eq.refl _)

theorem stickyClear_only (o : Origin) (b : List Byte) (s : State) :
    Only (some [F.cmd, F.fault, F.rings, P.CMD_NOTICE_DROP, P.CMD_REFUSED_COUNT, P.HLT_FAULT_COUNT, P.HLT_STICKY, P.TBS_OVER_LIMIT_COUNT]) s (stickyClear o b s) := by
  unfold stickyClear
  repeat' (first
    | (extract_lets +onlyGivenNames t; refine Only.with_state (t := t) ?_ fun _ => ?_; subst t; rotate_left; clear_value t)
    | (extract_lets +onlyGivenNames t; refine Only.with_pair (t := t) ?_ fun _ => ?_; subst t; rotate_left; clear_value t)
    | (extract_lets +onlyGivenNames t; clear_value t)
    | with_reducible exact Only.refl _ _
    | with_reducible assumption
    | with_reducible apply Only.fold _ _ (fun _ _ => ?_) ?_
    | with_reducible apply OnlyP.fold _ _ (fun _ _ => ?_) ?_
    | with_reducible apply OnlyP.of ?_
    | with_reducible apply OnlyP.cond _ ?_ ?_
    | with_reducible apply Only.cond _ ?_ ?_
    | with_reducible apply Only.wr ?_ ?_ _ _
    | with_reducible apply Only.step ?_ (State.finish_only ..) ?_
    | with_reducible apply Only.step ?_ (State.sticky_only ..) ?_
    | exact Eq.refl _
    | extract_lets
    | split
    | with_reducible apply Only.set_fault ?_ ?_ _)

theorem execWearSample_only (kind : Fin 3) (index : Fin 160) (reading : BitVec 32) (s : State) :
    OnlyO (some [F.cmd, F.fault, F.flash, F.params, F.rings]) s (execWearSample kind index reading s) := by
  unfold execWearSample
  repeat' (first
    | (extract_lets +onlyGivenNames t; refine OnlyO.with_state (t := t) ?_ fun _ => ?_; subst t; rotate_left; clear_value t)
    | (extract_lets +onlyGivenNames t; refine Only.with_state (t := t) ?_ fun _ => ?_; subst t; rotate_left; clear_value t)
    | (extract_lets +onlyGivenNames t; clear_value t)
    | with_reducible exact Only.refl _ _
    | with_reducible assumption
    | with_reducible apply OnlyO.of ?_
    | with_reducible apply OnlyO.cond _ ?_ ?_
    | with_reducible apply Only.cond _ ?_ ?_
    | with_reducible apply Only.wr_any ?_ ?_ _ _ _
    | with_reducible apply Only.step ?_ (State.sticky_only ..) ?_
    | exact Eq.refl _
    | extract_lets
    | split
    | with_reducible apply Only.set_flash ?_ ?_ _)

theorem wearGet_only (o : Origin) (b : List Byte) (s : State) :
    Only (some [F.cmd, F.rings, P.CMD_REFUSED_COUNT, P.TBS_OVER_LIMIT_COUNT]) s (wearGet o b s) := by
  unfold wearGet
  repeat' (first
    | (extract_lets +onlyGivenNames t; refine Only.with_state (t := t) ?_ fun _ => ?_; subst t; rotate_left; clear_value t)
    | (extract_lets +onlyGivenNames t; clear_value t)
    | with_reducible exact Only.refl _ _
    | with_reducible assumption
    | with_reducible apply Only.cond _ ?_ ?_
    | with_reducible apply Only.step ?_ (State.finish_only ..) ?_
    | exact Eq.refl _
    | extract_lets
    | split)

end Sys2Proof.Machine
end

