-- ==== Sys2Proof/Laws/OnlyObserve.lean ====
section
/-! SUPPORT. What each operation of Machine/Observe.lean can change. -/

set_option linter.unusedTactic false
set_option linter.unreachableTactic false
set_option linter.tactic.unusedName false

namespace Sys2Proof.Machine

theorem State.thaw_only (s : State) : Only (some [F.hidden, F.params]) s (State.thaw s) := by
  unfold State.thaw
  have h : Only (some [F.params]) s (s.hidden.foldl (fun u x => match counterAt x.1 with
      | some c => u.bumpSet c.1 c.2 x.1 x.2 | none => u) s) :=
    Only.fold _ _ (fun u x => by
      split
      · rename_i c _
        exact (Only.refl _ u).bumpSet_any rfl _ _ _ _
      · exact Only.refl _ _) (Only.refl _ _)
  exact Only.set_hidden ((h.mono (by exact Eq.refl _)).wr (by exact Eq.refl _) _ _) (by exact Eq.refl _) _

theorem obsFreeze_only (o : Origin) (b : List Byte) (s : State) :
    Only (some [F.cmd, F.hidden, F.params, F.rings]) s (obsFreeze o b s) := by
  unfold obsFreeze
  repeat' (first
    | with_reducible exact Only.refl _ _
    | with_reducible assumption
    | with_reducible apply Only.cond _ ?_ ?_
    | with_reducible apply Only.wr ?_ ?_ _ _
    | with_reducible apply Only.step ?_ (State.finish_only ..) ?_
    | with_reducible apply Only.step ?_ (State.thaw_only ..) ?_
    | exact Eq.refl _
    | split)

theorem look_filter_base {b c : Nat} (h : b ≠ c) (i d : Nat) (m : List ((Nat × Nat) × Nat)) :
    look (b, i) d (m.filter fun e => !(e.1.1 == c)) = look (b, i) d m := by
  induction m with
  | nil => rfl
  | cons e m ih =>
    by_cases he : e.1.1 = c
    · rw [List.filter_cons_of_neg (by simp [he]), ih]
      have : e.1 ≠ (b, i) := fun x => h (by rw [← he, x])
      simp [look, this]
    · rw [List.filter_cons_of_pos (by simp [he])]
      simp only [look]
      rw [ih]

theorem State.snapCopy_only (s : State) (clear : Bool) : Only (some [P.OBS_OVF, P.OBS_SNAP, P.OBS_SNAP_OVF, P.OBS_SNAP_SEQ, P.OBS_SNAP_TIME]) s (State.snapCopy s clear) := by
  unfold State.snapCopy
  have a : Only (some [P.OBS_OVF, P.OBS_SNAP, P.OBS_SNAP_OVF, P.OBS_SNAP_SEQ, P.OBS_SNAP_TIME]) s { s with regs := s.regs.filter fun e => !(e.1.1 == P.OBS_SNAP) } := by
    constructor
    case keeps => exact ⟨rfl, rfl, List.prefix_refl _, fun h => canonical_filter _ _ _ h, id, id⟩
    case rd =>
      intro b i _ hb
      refine look_filter_base (b := b) (c := P.OBS_SNAP) (fun e => ?_) i _ s.regs
      rw [e] at hb; exact absurd hb (by decide)
    all_goals (intro _; rfl)
  have f : ∀ (l : List ((Nat × Nat))) (u : State), Only (some [P.OBS_OVF, P.OBS_SNAP, P.OBS_SNAP_OVF, P.OBS_SNAP_SEQ, P.OBS_SNAP_TIME]) s u → Only (some [P.OBS_OVF, P.OBS_SNAP, P.OBS_SNAP_OVF, P.OBS_SNAP_SEQ, P.OBS_SNAP_TIME]) s (l.foldl (fun u x => u.wr P.OBS_SNAP x.1 x.2) u) :=
    fun l u h => Only.fold _ l (fun _ _ => (Only.refl _ _).wr (by exact Eq.refl _) _ _) h
  have g := Only.fold (fun u w => u.wr P.OBS_SNAP_OVF w (s.rd P.OBS_OVF w)) (List.range 128)
    (fun _ _ => (Only.refl _ _).wr (by exact Eq.refl _) _ _) (f s.countersSet _ a)
  exact ((Only.cond _ (Only.fold _ _ (fun _ _ => (Only.refl _ _).wr (by exact Eq.refl _) _ _) g) g).wr (by exact Eq.refl _) _ _).wr
    (by exact Eq.refl _) _ _

theorem State.snapDone_only (s : State) (o : Origin) (clear : Bool) (status : ℕ) :
    Only (some [F.cmd, F.rings, P.CMD_REFUSED_COUNT, P.OBS_OVF, P.OBS_SNAP, P.OBS_SNAP_OVF, P.OBS_SNAP_SEQ, P.OBS_SNAP_TIME, P.TBS_OVER_LIMIT_COUNT]) s (State.snapDone s o clear status) := by
  unfold State.snapDone
  repeat' (first
    | (extract_lets +onlyGivenNames t; refine Only.with_state (t := t) ?_ fun _ => ?_; subst t; rotate_left; clear_value t)
    | (extract_lets +onlyGivenNames t; clear_value t)
    | with_reducible exact Only.refl _ _
    | with_reducible assumption
    | with_reducible apply Only.step ?_ (State.snapCopy_only ..) ?_
    | with_reducible apply Only.step ?_ (State.finish_only ..) ?_
    | exact Eq.refl _
    | extract_lets)

theorem State.snapReplaced_only (s : State) :
    Only (some [F.cmd, F.obsJob, F.rings, P.CMD_REFUSED_COUNT, P.OBS_SNAP_PENDING, P.TBS_OVER_LIMIT_COUNT]) s (State.snapReplaced s) := by
  unfold State.snapReplaced
  repeat' (first
    | with_reducible exact Only.refl _ _
    | with_reducible assumption
    | with_reducible apply Only.wr ?_ ?_ _ _
    | with_reducible apply Only.step ?_ (State.finish_only ..) ?_
    | exact Eq.refl _
    | split
    | with_reducible apply Only.set_obsJob ?_ ?_ _)

theorem obsSnapshot_only (o : Origin) (b : List Byte) (s : State) :
    Only (some [F.cmd, F.obsJob, F.rings, P.CMD_REFUSED_COUNT, P.OBS_OVF, P.OBS_SNAP, P.OBS_SNAP_OVF, P.OBS_SNAP_PENDING, P.OBS_SNAP_SEQ, P.OBS_SNAP_TIME, P.TBS_OVER_LIMIT_COUNT]) s (obsSnapshot o b s) := by
  unfold obsSnapshot
  repeat' (first
    | (extract_lets +onlyGivenNames t; refine Only.with_state (t := t) ?_ fun _ => ?_; subst t; rotate_left; clear_value t)
    | (extract_lets +onlyGivenNames t; clear_value t)
    | with_reducible exact Only.refl _ _
    | with_reducible assumption
    | with_reducible apply Only.cond _ ?_ ?_
    | with_reducible apply Only.wr ?_ ?_ _ _
    | with_reducible apply Only.step ?_ (State.snapReplaced_only ..) ?_
    | with_reducible apply Only.step ?_ (State.snapDone_only ..) ?_
    | with_reducible apply Only.step ?_ (State.accept_only ..) ?_
    | exact Eq.refl _
    | extract_lets
    | split
    | with_reducible apply Only.set_obsJob ?_ ?_ _)

theorem State.snapDue_only (s : State) :
    Only (some [F.cmd, F.obsJob, F.rings, P.CMD_REFUSED_COUNT, P.OBS_OVF, P.OBS_SNAP, P.OBS_SNAP_OVF, P.OBS_SNAP_PENDING, P.OBS_SNAP_SEQ, P.OBS_SNAP_TIME, P.TBS_OVER_LIMIT_COUNT]) s (State.snapDue s) := by
  unfold State.snapDue
  repeat' (first
    | with_reducible exact Only.refl _ _
    | with_reducible assumption
    | with_reducible apply Only.cond _ ?_ ?_
    | with_reducible apply Only.wr ?_ ?_ _ _
    | with_reducible apply Only.step ?_ (State.snapDone_only ..) ?_
    | exact Eq.refl _
    | split
    | with_reducible apply Only.set_obsJob ?_ ?_ _)

theorem execObsSnapshotDue_only (s : State) :
    OnlyO (some [F.cmd, F.obsJob, F.rings, P.CMD_REFUSED_COUNT, P.OBS_OVF, P.OBS_SNAP, P.OBS_SNAP_OVF, P.OBS_SNAP_PENDING, P.OBS_SNAP_SEQ, P.OBS_SNAP_TIME, P.TBS_OVER_LIMIT_COUNT]) s (execObsSnapshotDue s) := by
  unfold execObsSnapshotDue
  repeat' (first
    | with_reducible exact Only.refl _ _
    | with_reducible assumption
    | with_reducible apply OnlyO.of ?_
    | with_reducible apply Only.step ?_ (State.snapDue_only ..) ?_
    | exact Eq.refl _)

theorem obsTraceRead_only (o : Origin) (b : List Byte) (s : State) :
    Only (some [F.cmd, F.rings, P.CMD_REFUSED_COUNT, P.TBS_OVER_LIMIT_COUNT]) s (obsTraceRead o b s) := by
  unfold obsTraceRead
  repeat' (first
    | (extract_lets +onlyGivenNames t; refine Only.with_state (t := t) ?_ fun _ => ?_; subst t; rotate_left; clear_value t)
    | (extract_lets +onlyGivenNames t; clear_value t)
    | with_reducible exact Only.refl _ _
    | with_reducible assumption
    | with_reducible apply Only.cond _ ?_ ?_
    | with_reducible apply Only.step ?_ (State.finish_only ..) ?_
    | exact Eq.refl _
    | extract_lets
    | split)

theorem execWindowFrame_only (s : State) :
    OnlyO (some [F.windowAt, P.OBS_WIN_FRAMES, P.OBS_WIN_NEXT, P.OBS_WIN_SKIPPED]) s (execWindowFrame s) := by
  unfold execWindowFrame
  repeat' (first
    | (extract_lets +onlyGivenNames t; refine OnlyO.with_state (t := t) ?_ fun _ => ?_; subst t; rotate_left; clear_value t)
    | (extract_lets +onlyGivenNames t; refine Only.with_state (t := t) ?_ fun _ => ?_; subst t; rotate_left; clear_value t)
    | (extract_lets +onlyGivenNames t; clear_value t)
    | with_reducible exact Only.refl _ _
    | with_reducible assumption
    | with_reducible apply OnlyO.of ?_
    | with_reducible apply OnlyO.cond _ ?_ ?_
    | with_reducible apply Only.cond _ ?_ ?_
    | with_reducible apply Only.emit ?_ _
    | with_reducible apply Only.wr ?_ ?_ _ _
    | with_reducible apply Only.count_plain ?_ ?_ (by decide) _ _
    | with_reducible apply Only.count ?_ ?_ ?_ ?_ _ _
    | exact Eq.refl _
    | extract_lets
    | split
    | with_reducible apply Only.set_windowAt ?_ ?_ _)

end Sys2Proof.Machine
end

