-- ==== Sys2Proof/Laws/OnlyRequests.lean ====
section
/-! SUPPORT. What each operation of Machine/Requests.lean can change. -/

set_option linter.unusedTactic false
set_option linter.unreachableTactic false
set_option linter.tactic.unusedName false

namespace Sys2Proof.Machine

theorem sysInfo_only (o : Origin) (_b : List Byte) (s : State) :
    Only (some [F.cmd, F.rings, P.CMD_REFUSED_COUNT, P.TBS_OVER_LIMIT_COUNT]) s (sysInfo o _b s) := by
  unfold sysInfo
  repeat' (first
    | with_reducible exact Only.refl _ _
    | with_reducible assumption
    | with_reducible apply Only.step ?_ (State.finish_only ..) ?_
    | exact Eq.refl _)

/-- Whatever an opcode does, it does not leave the form of the state. -/
theorem opTable_only : ∀ r ∈ opTable, ∀ o b s, Only (some ([F.cal, F.cmd, F.evtAccs, F.fabric, F.fault, F.flash, F.fresh, F.gnss, F.hidden, F.linkRun, F.links, F.lock, F.log, F.nhp, F.obsJob, F.optics, F.pad, F.params, F.power, F.quay, F.refs, F.rings, F.servo, F.sessions] ++
      [F.shadows, F.tables, F.tagRegs, F.time, F.txSlots, F.windowAt])) s (r.body o b s) := by
  simp only [opTable, List.forall_mem_cons]
  refine ⟨fun o b s => (sessionProve_only o b s).mono (by exact Eq.refl _),
    fun o b s => (sessionClose_only o b s).mono (by exact Eq.refl _),
    fun o b s => (sessionSet_only o b s).mono (by exact Eq.refl _),
    fun o b s => (paramRead_only o b s).mono (by exact Eq.refl _),
    fun o b s => (paramWrite_only o b s).mono (by exact Eq.refl _),
    fun o b s => (paramCommit_only o b s).mono (by exact Eq.refl _),
    fun o b s => (sysInfo_only o b s).mono (by exact Eq.refl _),
    fun o b s => (fabricEnable_only o b s).mono (by exact Eq.refl _),
    fun o b s => (fabricDisable_only o b s).mono (by exact Eq.refl _),
    fun o b s => (tblSearch_only o b s).mono (by exact Eq.refl _),
    fun o b s => (tblNext_only o b s).mono (by exact Eq.refl _),
    fun o b s => (tblInsert_only o b s).mono (by exact Eq.refl _),
    fun o b s => (tblDelete_only o b s).mono (by exact Eq.refl _),
    fun o b s => (tblFlushPort_only o b s).mono (by exact Eq.refl _),
    fun o b s => (tblRehash_only o b s).mono (by exact Eq.refl _),
    fun o b s => (tblStreamWrite_only o b s).mono (by exact Eq.refl _),
    fun o b s => (tblClearFlap_only o b s).mono (by exact Eq.refl _),
    fun o b s => (refAccept_only o b s).mono (by exact Eq.refl _),
    fun o b s => (coreSwitch_only o b s).mono (by exact Eq.refl _),
    fun o b s => (coreHealth_only o b s).mono (by exact Eq.refl _),
    fun o b s => (gnsSnapshot_only o b s).mono (by exact Eq.refl _),
    fun o b s => (evtStats_only o b s).mono (by exact Eq.refl _),
    fun o b s => (calRun_only o b s).mono (by exact Eq.refl _),
    fun o b s => (lanSlip_only o b s).mono (by exact Eq.refl _),
    fun o b s => (synApply_only o b s).mono (by exact Eq.refl _),
    fun o b s => (laserSwap_only o b s).mono (by exact Eq.refl _),
    fun o b s => (logKeyPublic_only o b s).mono (by exact Eq.refl _),
    fun o b s => (lifecycleSet_only o b s).mono (by exact Eq.refl _),
    fun o b s => (masterRelease_only o b s).mono (by exact Eq.refl _),
    fun o b s => (hieTunnel_only o b s).mono (by exact Eq.refl _),
    fun o b s => (hieFanout_only o b s).mono (by exact Eq.refl _),
    fun o b s => (hieRegistryRead_only o b s).mono (by exact Eq.refl _),
    fun o b s => (shutterEnter_only o b s).mono (by exact Eq.refl _),
    fun o b s => (shutterLeave_only o b s).mono (by exact Eq.refl _),
    fun o b s => (stickyClear_only o b s).mono (by exact Eq.refl _),
    fun o b s => (wearGet_only o b s).mono (by exact Eq.refl _),
    fun o b s => (faultRead_only o b s).mono (by exact Eq.refl _),
    fun o b s => (obsSnapshot_only o b s).mono (by exact Eq.refl _),
    fun o b s => (obsFreeze_only o b s).mono (by exact Eq.refl _),
    fun o b s => (obsTraceRead_only o b s).mono (by exact Eq.refl _),
    fun o b s => (queueCreate_only o b s).mono (by exact Eq.refl _),
    fun o b s => (queueDestroy_only o b s).mono (by exact Eq.refl _),
    fun _ h => absurd h List.not_mem_nil⟩

theorem State.perform_only (s : State) (o : Origin) (op : Nat) (rq : Request) : Only (some ([F.cal, F.cmd, F.evtAccs, F.fabric, F.fault, F.flash, F.fresh, F.gnss, F.hidden, F.linkRun, F.links, F.lock, F.log, F.nhp, F.obsJob, F.optics, F.pad, F.params, F.power, F.quay, F.refs, F.rings, F.servo, F.sessions] ++
      [F.shadows, F.tables, F.tagRegs, F.time, F.txSlots, F.windowAt])) s (State.perform s o op rq) := by
  unfold State.perform
  split
  · exact Only.refl _ _
  · rename_i r hr
    have h := opTable_only r (List.mem_of_find?_eq_some hr)
    exact Only.cond _ (Only.trans ((Only.refl _ _).count_plain (by exact Eq.refl _) (by decide) _ _) (h ..))
      (Only.cond _ ((State.failInternal_only ..).mono (by exact Eq.refl _)) (h ..))

theorem State.start_only (s : State) (x : Session) (op : ℕ) (rq : Request) :
    Only (some ([F.cal, F.cmd, F.evtAccs, F.fabric, F.fault, F.flash, F.fresh, F.gnss, F.hidden, F.linkRun, F.links, F.lock, F.log, F.nhp, F.obsJob, F.optics, F.pad, F.params, F.power, F.quay, F.refs, F.rings, F.servo, F.sessions] ++
      [F.shadows, F.tables, F.tagRegs, F.time, F.txSlots, F.windowAt])) s (State.start s x op rq) := by
  unfold State.start
  repeat' (first
    | (extract_lets +onlyGivenNames t; refine Only.with_state (t := t) ?_ fun _ => ?_; subst t; rotate_left; clear_value t)
    | (extract_lets +onlyGivenNames t; clear_value t)
    | with_reducible exact Only.refl _ _
    | with_reducible assumption
    | with_reducible apply Only.cond _ ?_ ?_
    | with_reducible apply Only.setSession ?_ ?_ _ _ ?_
    | with_reducible apply Only.step ?_ (State.sendPacket_only ..) ?_
    | with_reducible apply Only.step ?_ (State.freezeSession_only ..) ?_
    | with_reducible apply Only.step ?_ (State.perform_only ..) ?_
    | exact Eq.refl _
    | extract_lets
    | split
    | exact fun _ => rfl
    | (intro _; split <;> rfl))

theorem State.admitRequest_only (s : State) (x : Session) (op : ℕ) (rq : Request) :
    Only (some ([F.cal, F.cmd, F.evtAccs, F.fabric, F.fault, F.flash, F.fresh, F.gnss, F.hidden, F.linkRun, F.links, F.lock, F.log, F.nhp, F.obsJob, F.optics, F.pad, F.params, F.power, F.quay, F.refs, F.rings, F.servo, F.sessions] ++
      [F.shadows, F.tables, F.tagRegs, F.time, F.txSlots, F.windowAt])) s (State.admitRequest s x op rq) := by
  unfold State.admitRequest
  repeat' (first
    | (extract_lets +onlyGivenNames t; refine Only.with_state (t := t) ?_ fun _ => ?_; subst t; rotate_left; clear_value t)
    | (extract_lets +onlyGivenNames t; clear_value t)
    | with_reducible exact Only.refl _ _
    | with_reducible assumption
    | with_reducible apply Only.cond _ ?_ ?_
    | with_reducible apply Only.setCmd ?_ ?_ _ ?_
    | with_reducible apply Only.setSession ?_ ?_ _ _ ?_
    | with_reducible apply Only.step ?_ (State.start_only ..) ?_
    | exact Eq.refl _
    | extract_lets
    | split
    | exact fun _ => rfl
    | (intro _; split <;> rfl))

theorem State.refuseIntake_only (s : State) (op : ℕ) (rq : Request) (status : ℕ) (version : ℕ) :
    Only (some [F.cmd, F.rings, P.CMD_REFUSED_COUNT, P.TBS_OVER_LIMIT_COUNT]) s (State.refuseIntake s op rq status version) := by
  unfold State.refuseIntake
  repeat' (first
    | with_reducible exact Only.refl _ _
    | with_reducible assumption
    | with_reducible apply Only.step ?_ (State.sendPacket_only ..) ?_
    | exact Eq.refl _)

theorem State.touch_only (s : State) (op : ℕ) (rq : Request) :
    Only (some [F.cmd]) s (State.touch s op rq) := by
  unfold State.touch
  repeat' (first
    | with_reducible exact Only.refl _ _
    | with_reducible assumption
    | with_reducible apply Only.cond _ ?_ ?_
    | with_reducible apply Only.setSession ?_ ?_ _ _ ?_
    | exact Eq.refl _
    | split
    | exact fun _ => rfl
    | (intro _; split <;> rfl))

theorem State.process_only (s : State) (op : ℕ) (rq : Request) :
    Only (some ([F.cal, F.cmd, F.evtAccs, F.fabric, F.fault, F.flash, F.fresh, F.gnss, F.hidden, F.linkRun, F.links, F.lock, F.log, F.nhp, F.obsJob, F.optics, F.pad, F.params, F.power, F.quay, F.refs, F.rings, F.servo, F.sessions] ++
      [F.shadows, F.tables, F.tagRegs, F.time, F.txSlots, F.windowAt])) s (State.process s op rq) := by
  unfold State.process
  repeat' (first
    | with_reducible exact Only.refl _ _
    | with_reducible assumption
    | with_reducible apply Only.count_plain ?_ ?_ (by decide) _ _
    | with_reducible apply Only.count ?_ ?_ ?_ ?_ _ _
    | with_reducible apply Only.step ?_ (State.refuseIntake_only ..) ?_
    | with_reducible apply Only.step ?_ (State.touch_only ..) ?_
    | with_reducible apply Only.step ?_ (State.sendPacket_only ..) ?_
    | with_reducible apply Only.step ?_ (sessionOpen_only ..) ?_
    | with_reducible apply Only.step ?_ (State.admitRequest_only ..) ?_
    | exact Eq.refl _
    | split)

theorem State.consume_only (s : State) (n : ℕ) :
    Only (some [F.rings]) s (State.consume s n) := by
  unfold State.consume
  repeat' (first
    | with_reducible exact Only.refl _ _
    | with_reducible assumption
    | with_reducible apply Only.step ?_ (State.writeIndex_only ..) ?_
    | with_reducible apply Only.step ?_ (State.setRing_only ..) ?_
    | exact Eq.refl _
    | split)

theorem State.fromRing_only (s : State) (op : ℕ) (rq : Request) :
    Only (some ([F.cal, F.cmd, F.evtAccs, F.fabric, F.fault, F.flash, F.fresh, F.gnss, F.hidden, F.linkRun, F.links, F.lock, F.log, F.nhp, F.obsJob, F.optics, F.pad, F.params, F.power, F.quay, F.refs, F.rings, F.servo, F.sessions] ++
      [F.shadows, F.tables, F.tagRegs, F.time, F.txSlots, F.windowAt])) s (State.fromRing s op rq) := by
  unfold State.fromRing
  repeat' (first
    | (extract_lets +onlyGivenNames t; refine Only.with_state (t := t) ?_ fun _ => ?_; subst t; rotate_left; clear_value t)
    | (extract_lets +onlyGivenNames t; clear_value t)
    | with_reducible exact Only.refl _ _
    | with_reducible assumption
    | with_reducible apply Only.cond _ ?_ ?_
    | with_reducible apply Only.setCmd ?_ ?_ _ ?_
    | with_reducible apply Only.step ?_ (State.process_only ..) ?_
    | with_reducible apply Only.step ?_ (State.consume_only ..) ?_
    | exact Eq.refl _
    | extract_lets
    | split)

theorem State.pump_only (s : State) (n : Nat) : Only (some ([F.cal, F.cmd, F.evtAccs, F.fabric, F.fault, F.flash, F.fresh, F.gnss, F.hidden, F.linkRun, F.links, F.lock, F.log, F.nhp, F.obsJob, F.optics, F.pad, F.params, F.power, F.quay, F.refs, F.rings, F.servo, F.sessions] ++
      [F.shadows, F.tables, F.tagRegs, F.time, F.txSlots, F.windowAt])) s (State.pump s n) := by
  induction n generalizing s with
  | zero => exact Only.refl _ _
  | succ n ih =>
    unfold State.pump
    split
    · refine Only.trans ?_ (ih ..)
      with_reducible apply Only.step ?_ (State.start_only ..) ?_
      · exact Only.setSession (Only.refl _ _) (by exact Eq.refl _) _ _ fun _ => rfl
      · exact Eq.refl _
    · split
      · refine Only.trans ?_ (ih ..)
        with_reducible apply Only.step ?_ (State.process_only ..) ?_
        · with_reducible apply Only.step ?_ (State.consume_only ..) ?_
          · exact Only.setCmd (Only.refl _ _) (by exact Eq.refl _) _ (by exact Eq.refl _)
          · exact Eq.refl _
        · exact Eq.refl _
      · exact Only.refl _ _

theorem State.settle_only (s : State) :
    Only (some ([F.cal, F.cmd, F.evtAccs, F.fabric, F.fault, F.flash, F.fresh, F.gnss, F.hidden, F.linkRun, F.links, F.lock, F.log, F.nhp, F.obsJob, F.optics, F.pad, F.params, F.power, F.quay, F.refs, F.rings, F.servo, F.sessions] ++
      [F.shadows, F.tables, F.tagRegs, F.time, F.txSlots, F.windowAt])) s (State.settle s) := by
  unfold State.settle
  repeat' (first
    | (extract_lets +onlyGivenNames t; refine Only.with_state (t := t) ?_ fun _ => ?_; subst t; rotate_left; clear_value t)
    | (extract_lets +onlyGivenNames t; refine Only.with_pair (t := t) ?_ fun _ => ?_; subst t; rotate_left; clear_value t)
    | (extract_lets +onlyGivenNames t; clear_value t)
    | with_reducible exact Only.refl _ _
    | with_reducible assumption
    | with_reducible apply Only.fold _ _ (fun _ _ => ?_) ?_
    | with_reducible apply OnlyP.fold _ _ (fun _ _ => ?_) ?_
    | with_reducible apply OnlyP.of ?_
    | with_reducible apply Only.step ?_ (State.mbxRun_only ..) ?_
    | with_reducible apply Only.step ?_ (State.pump_only ..) ?_
    | exact Eq.refl _
    | extract_lets)

theorem State.arrive_only (s : State) (op : ℕ) (rq : Request) :
    Only (some ([F.cal, F.cmd, F.evtAccs, F.fabric, F.fault, F.flash, F.fresh, F.gnss, F.hidden, F.linkRun, F.links, F.lock, F.log, F.nhp, F.obsJob, F.optics, F.pad, F.params, F.power, F.quay, F.refs, F.rings, F.servo, F.sessions] ++
      [F.shadows, F.tables, F.tagRegs, F.time, F.txSlots, F.windowAt])) s (State.arrive s op rq) := by
  unfold State.arrive
  repeat' (first
    | with_reducible exact Only.refl _ _
    | with_reducible assumption
    | with_reducible apply Only.cond _ ?_ ?_
    | with_reducible apply Only.step ?_ (State.settle_only ..) ?_
    | with_reducible apply Only.step ?_ (State.fromRing_only ..) ?_
    | with_reducible apply Only.step ?_ (State.process_only ..) ?_
    | exact Eq.refl _
    | split)

end Sys2Proof.Machine
end

