-- ==== Sys2Proof/Laws/OnlyEcp.lean ====
section
/-! SUPPORT. What each operation of Machine/Ecp.lean can change. -/

set_option linter.unusedTactic false
set_option linter.unreachableTactic false
set_option linter.tactic.unusedName false

namespace Sys2Proof.Machine

theorem execSessionOpen_only (rq : Request) (s : State) :
    OnlyO (some ([F.cal, F.cmd, F.evtAccs, F.fabric, F.fault, F.flash, F.fresh, F.gnss, F.hidden, F.linkRun, F.links, F.lock, F.log, F.nhp, F.obsJob, F.optics, F.pad, F.params, F.power, F.quay, F.refs, F.rings, F.servo, F.sessions] ++
      [F.shadows, F.tables, F.tagRegs, F.time, F.txSlots, F.windowAt])) s (execSessionOpen rq s) := by
  unfold execSessionOpen
  repeat' (first
    | with_reducible exact Only.refl _ _
    | with_reducible assumption
    | with_reducible apply OnlyO.of ?_
    | with_reducible apply Only.step ?_ (State.arrive_only ..) ?_
    | exact Eq.refl _)

theorem execSessionProve_only (rq : Request) (s : State) :
    OnlyO (some ([F.cal, F.cmd, F.evtAccs, F.fabric, F.fault, F.flash, F.fresh, F.gnss, F.hidden, F.linkRun, F.links, F.lock, F.log, F.nhp, F.obsJob, F.optics, F.pad, F.params, F.power, F.quay, F.refs, F.rings, F.servo, F.sessions] ++
      [F.shadows, F.tables, F.tagRegs, F.time, F.txSlots, F.windowAt])) s (execSessionProve rq s) := by
  unfold execSessionProve
  repeat' (first
    | with_reducible exact Only.refl _ _
    | with_reducible assumption
    | with_reducible apply OnlyO.of ?_
    | with_reducible apply Only.step ?_ (State.arrive_only ..) ?_
    | exact Eq.refl _)

theorem execSessionClose_only (rq : Request) (s : State) :
    OnlyO (some ([F.cal, F.cmd, F.evtAccs, F.fabric, F.fault, F.flash, F.fresh, F.gnss, F.hidden, F.linkRun, F.links, F.lock, F.log, F.nhp, F.obsJob, F.optics, F.pad, F.params, F.power, F.quay, F.refs, F.rings, F.servo, F.sessions] ++
      [F.shadows, F.tables, F.tagRegs, F.time, F.txSlots, F.windowAt])) s (execSessionClose rq s) := by
  unfold execSessionClose
  repeat' (first
    | with_reducible exact Only.refl _ _
    | with_reducible assumption
    | with_reducible apply OnlyO.of ?_
    | with_reducible apply Only.step ?_ (State.arrive_only ..) ?_
    | exact Eq.refl _)

theorem execSessionSet_only (rq : Request) (s : State) :
    OnlyO (some ([F.cal, F.cmd, F.evtAccs, F.fabric, F.fault, F.flash, F.fresh, F.gnss, F.hidden, F.linkRun, F.links, F.lock, F.log, F.nhp, F.obsJob, F.optics, F.pad, F.params, F.power, F.quay, F.refs, F.rings, F.servo, F.sessions] ++
      [F.shadows, F.tables, F.tagRegs, F.time, F.txSlots, F.windowAt])) s (execSessionSet rq s) := by
  unfold execSessionSet
  repeat' (first
    | with_reducible exact Only.refl _ _
    | with_reducible assumption
    | with_reducible apply OnlyO.of ?_
    | with_reducible apply Only.step ?_ (State.arrive_only ..) ?_
    | exact Eq.refl _)

theorem execParamRead_only (rq : Request) (s : State) :
    OnlyO (some ([F.cal, F.cmd, F.evtAccs, F.fabric, F.fault, F.flash, F.fresh, F.gnss, F.hidden, F.linkRun, F.links, F.lock, F.log, F.nhp, F.obsJob, F.optics, F.pad, F.params, F.power, F.quay, F.refs, F.rings, F.servo, F.sessions] ++
      [F.shadows, F.tables, F.tagRegs, F.time, F.txSlots, F.windowAt])) s (execParamRead rq s) := by
  unfold execParamRead
  repeat' (first
    | with_reducible exact Only.refl _ _
    | with_reducible assumption
    | with_reducible apply OnlyO.of ?_
    | with_reducible apply Only.step ?_ (State.arrive_only ..) ?_
    | exact Eq.refl _)

theorem execParamWrite_only (rq : Request) (s : State) :
    OnlyO (some ([F.cal, F.cmd, F.evtAccs, F.fabric, F.fault, F.flash, F.fresh, F.gnss, F.hidden, F.linkRun, F.links, F.lock, F.log, F.nhp, F.obsJob, F.optics, F.pad, F.params, F.power, F.quay, F.refs, F.rings, F.servo, F.sessions] ++
      [F.shadows, F.tables, F.tagRegs, F.time, F.txSlots, F.windowAt])) s (execParamWrite rq s) := by
  unfold execParamWrite
  repeat' (first
    | with_reducible exact Only.refl _ _
    | with_reducible assumption
    | with_reducible apply OnlyO.of ?_
    | with_reducible apply Only.step ?_ (State.arrive_only ..) ?_
    | exact Eq.refl _)

theorem execSysInfo_only (rq : Request) (s : State) :
    OnlyO (some ([F.cal, F.cmd, F.evtAccs, F.fabric, F.fault, F.flash, F.fresh, F.gnss, F.hidden, F.linkRun, F.links, F.lock, F.log, F.nhp, F.obsJob, F.optics, F.pad, F.params, F.power, F.quay, F.refs, F.rings, F.servo, F.sessions] ++
      [F.shadows, F.tables, F.tagRegs, F.time, F.txSlots, F.windowAt])) s (execSysInfo rq s) := by
  unfold execSysInfo
  repeat' (first
    | with_reducible exact Only.refl _ _
    | with_reducible assumption
    | with_reducible apply OnlyO.of ?_
    | with_reducible apply Only.step ?_ (State.arrive_only ..) ?_
    | exact Eq.refl _)

theorem execFabricEnable_only (rq : Request) (s : State) :
    OnlyO (some ([F.cal, F.cmd, F.evtAccs, F.fabric, F.fault, F.flash, F.fresh, F.gnss, F.hidden, F.linkRun, F.links, F.lock, F.log, F.nhp, F.obsJob, F.optics, F.pad, F.params, F.power, F.quay, F.refs, F.rings, F.servo, F.sessions] ++
      [F.shadows, F.tables, F.tagRegs, F.time, F.txSlots, F.windowAt])) s (execFabricEnable rq s) := by
  unfold execFabricEnable
  repeat' (first
    | with_reducible exact Only.refl _ _
    | with_reducible assumption
    | with_reducible apply OnlyO.of ?_
    | with_reducible apply Only.step ?_ (State.arrive_only ..) ?_
    | exact Eq.refl _)

theorem execFabricDisable_only (rq : Request) (s : State) :
    OnlyO (some ([F.cal, F.cmd, F.evtAccs, F.fabric, F.fault, F.flash, F.fresh, F.gnss, F.hidden, F.linkRun, F.links, F.lock, F.log, F.nhp, F.obsJob, F.optics, F.pad, F.params, F.power, F.quay, F.refs, F.rings, F.servo, F.sessions] ++
      [F.shadows, F.tables, F.tagRegs, F.time, F.txSlots, F.windowAt])) s (execFabricDisable rq s) := by
  unfold execFabricDisable
  repeat' (first
    | with_reducible exact Only.refl _ _
    | with_reducible assumption
    | with_reducible apply OnlyO.of ?_
    | with_reducible apply Only.step ?_ (State.arrive_only ..) ?_
    | exact Eq.refl _)

theorem execTblSearch_only (rq : Request) (s : State) :
    OnlyO (some ([F.cal, F.cmd, F.evtAccs, F.fabric, F.fault, F.flash, F.fresh, F.gnss, F.hidden, F.linkRun, F.links, F.lock, F.log, F.nhp, F.obsJob, F.optics, F.pad, F.params, F.power, F.quay, F.refs, F.rings, F.servo, F.sessions] ++
      [F.shadows, F.tables, F.tagRegs, F.time, F.txSlots, F.windowAt])) s (execTblSearch rq s) := by
  unfold execTblSearch
  repeat' (first
    | with_reducible exact Only.refl _ _
    | with_reducible assumption
    | with_reducible apply OnlyO.of ?_
    | with_reducible apply Only.step ?_ (State.arrive_only ..) ?_
    | exact Eq.refl _)

theorem execTblNext_only (rq : Request) (s : State) :
    OnlyO (some ([F.cal, F.cmd, F.evtAccs, F.fabric, F.fault, F.flash, F.fresh, F.gnss, F.hidden, F.linkRun, F.links, F.lock, F.log, F.nhp, F.obsJob, F.optics, F.pad, F.params, F.power, F.quay, F.refs, F.rings, F.servo, F.sessions] ++
      [F.shadows, F.tables, F.tagRegs, F.time, F.txSlots, F.windowAt])) s (execTblNext rq s) := by
  unfold execTblNext
  repeat' (first
    | with_reducible exact Only.refl _ _
    | with_reducible assumption
    | with_reducible apply OnlyO.of ?_
    | with_reducible apply Only.step ?_ (State.arrive_only ..) ?_
    | exact Eq.refl _)

theorem execTblInsert_only (rq : Request) (s : State) :
    OnlyO (some ([F.cal, F.cmd, F.evtAccs, F.fabric, F.fault, F.flash, F.fresh, F.gnss, F.hidden, F.linkRun, F.links, F.lock, F.log, F.nhp, F.obsJob, F.optics, F.pad, F.params, F.power, F.quay, F.refs, F.rings, F.servo, F.sessions] ++
      [F.shadows, F.tables, F.tagRegs, F.time, F.txSlots, F.windowAt])) s (execTblInsert rq s) := by
  unfold execTblInsert
  repeat' (first
    | with_reducible exact Only.refl _ _
    | with_reducible assumption
    | with_reducible apply OnlyO.of ?_
    | with_reducible apply Only.step ?_ (State.arrive_only ..) ?_
    | exact Eq.refl _)

theorem execTblDelete_only (rq : Request) (s : State) :
    OnlyO (some ([F.cal, F.cmd, F.evtAccs, F.fabric, F.fault, F.flash, F.fresh, F.gnss, F.hidden, F.linkRun, F.links, F.lock, F.log, F.nhp, F.obsJob, F.optics, F.pad, F.params, F.power, F.quay, F.refs, F.rings, F.servo, F.sessions] ++
      [F.shadows, F.tables, F.tagRegs, F.time, F.txSlots, F.windowAt])) s (execTblDelete rq s) := by
  unfold execTblDelete
  repeat' (first
    | with_reducible exact Only.refl _ _
    | with_reducible assumption
    | with_reducible apply OnlyO.of ?_
    | with_reducible apply Only.step ?_ (State.arrive_only ..) ?_
    | exact Eq.refl _)

theorem execTblFlushPort_only (rq : Request) (s : State) :
    OnlyO (some ([F.cal, F.cmd, F.evtAccs, F.fabric, F.fault, F.flash, F.fresh, F.gnss, F.hidden, F.linkRun, F.links, F.lock, F.log, F.nhp, F.obsJob, F.optics, F.pad, F.params, F.power, F.quay, F.refs, F.rings, F.servo, F.sessions] ++
      [F.shadows, F.tables, F.tagRegs, F.time, F.txSlots, F.windowAt])) s (execTblFlushPort rq s) := by
  unfold execTblFlushPort
  repeat' (first
    | with_reducible exact Only.refl _ _
    | with_reducible assumption
    | with_reducible apply OnlyO.of ?_
    | with_reducible apply Only.step ?_ (State.arrive_only ..) ?_
    | exact Eq.refl _)

theorem execTblRehash_only (rq : Request) (s : State) :
    OnlyO (some ([F.cal, F.cmd, F.evtAccs, F.fabric, F.fault, F.flash, F.fresh, F.gnss, F.hidden, F.linkRun, F.links, F.lock, F.log, F.nhp, F.obsJob, F.optics, F.pad, F.params, F.power, F.quay, F.refs, F.rings, F.servo, F.sessions] ++
      [F.shadows, F.tables, F.tagRegs, F.time, F.txSlots, F.windowAt])) s (execTblRehash rq s) := by
  unfold execTblRehash
  repeat' (first
    | with_reducible exact Only.refl _ _
    | with_reducible assumption
    | with_reducible apply OnlyO.of ?_
    | with_reducible apply Only.step ?_ (State.arrive_only ..) ?_
    | exact Eq.refl _)

theorem execTblStreamWrite_only (rq : Request) (s : State) :
    OnlyO (some ([F.cal, F.cmd, F.evtAccs, F.fabric, F.fault, F.flash, F.fresh, F.gnss, F.hidden, F.linkRun, F.links, F.lock, F.log, F.nhp, F.obsJob, F.optics, F.pad, F.params, F.power, F.quay, F.refs, F.rings, F.servo, F.sessions] ++
      [F.shadows, F.tables, F.tagRegs, F.time, F.txSlots, F.windowAt])) s (execTblStreamWrite rq s) := by
  unfold execTblStreamWrite
  repeat' (first
    | with_reducible exact Only.refl _ _
    | with_reducible assumption
    | with_reducible apply OnlyO.of ?_
    | with_reducible apply Only.step ?_ (State.arrive_only ..) ?_
    | exact Eq.refl _)

theorem execTblClearFlap_only (rq : Request) (s : State) :
    OnlyO (some ([F.cal, F.cmd, F.evtAccs, F.fabric, F.fault, F.flash, F.fresh, F.gnss, F.hidden, F.linkRun, F.links, F.lock, F.log, F.nhp, F.obsJob, F.optics, F.pad, F.params, F.power, F.quay, F.refs, F.rings, F.servo, F.sessions] ++
      [F.shadows, F.tables, F.tagRegs, F.time, F.txSlots, F.windowAt])) s (execTblClearFlap rq s) := by
  unfold execTblClearFlap
  repeat' (first
    | with_reducible exact Only.refl _ _
    | with_reducible assumption
    | with_reducible apply OnlyO.of ?_
    | with_reducible apply Only.step ?_ (State.arrive_only ..) ?_
    | exact Eq.refl _)

theorem execRefAccept_only (rq : Request) (s : State) :
    OnlyO (some ([F.cal, F.cmd, F.evtAccs, F.fabric, F.fault, F.flash, F.fresh, F.gnss, F.hidden, F.linkRun, F.links, F.lock, F.log, F.nhp, F.obsJob, F.optics, F.pad, F.params, F.power, F.quay, F.refs, F.rings, F.servo, F.sessions] ++
      [F.shadows, F.tables, F.tagRegs, F.time, F.txSlots, F.windowAt])) s (execRefAccept rq s) := by
  unfold execRefAccept
  repeat' (first
    | with_reducible exact Only.refl _ _
    | with_reducible assumption
    | with_reducible apply OnlyO.of ?_
    | with_reducible apply Only.step ?_ (State.arrive_only ..) ?_
    | exact Eq.refl _)

theorem execCoreSwitch_only (rq : Request) (s : State) :
    OnlyO (some ([F.cal, F.cmd, F.evtAccs, F.fabric, F.fault, F.flash, F.fresh, F.gnss, F.hidden, F.linkRun, F.links, F.lock, F.log, F.nhp, F.obsJob, F.optics, F.pad, F.params, F.power, F.quay, F.refs, F.rings, F.servo, F.sessions] ++
      [F.shadows, F.tables, F.tagRegs, F.time, F.txSlots, F.windowAt])) s (execCoreSwitch rq s) := by
  unfold execCoreSwitch
  repeat' (first
    | with_reducible exact Only.refl _ _
    | with_reducible assumption
    | with_reducible apply OnlyO.of ?_
    | with_reducible apply Only.step ?_ (State.arrive_only ..) ?_
    | exact Eq.refl _)

theorem execCoreHealth_only (rq : Request) (s : State) :
    OnlyO (some ([F.cal, F.cmd, F.evtAccs, F.fabric, F.fault, F.flash, F.fresh, F.gnss, F.hidden, F.linkRun, F.links, F.lock, F.log, F.nhp, F.obsJob, F.optics, F.pad, F.params, F.power, F.quay, F.refs, F.rings, F.servo, F.sessions] ++
      [F.shadows, F.tables, F.tagRegs, F.time, F.txSlots, F.windowAt])) s (execCoreHealth rq s) := by
  unfold execCoreHealth
  repeat' (first
    | with_reducible exact Only.refl _ _
    | with_reducible assumption
    | with_reducible apply OnlyO.of ?_
    | with_reducible apply Only.step ?_ (State.arrive_only ..) ?_
    | exact Eq.refl _)

theorem execGnsSnapshot_only (rq : Request) (s : State) :
    OnlyO (some ([F.cal, F.cmd, F.evtAccs, F.fabric, F.fault, F.flash, F.fresh, F.gnss, F.hidden, F.linkRun, F.links, F.lock, F.log, F.nhp, F.obsJob, F.optics, F.pad, F.params, F.power, F.quay, F.refs, F.rings, F.servo, F.sessions] ++
      [F.shadows, F.tables, F.tagRegs, F.time, F.txSlots, F.windowAt])) s (execGnsSnapshot rq s) := by
  unfold execGnsSnapshot
  repeat' (first
    | with_reducible exact Only.refl _ _
    | with_reducible assumption
    | with_reducible apply OnlyO.of ?_
    | with_reducible apply Only.step ?_ (State.arrive_only ..) ?_
    | exact Eq.refl _)

theorem execEvtStats_only (rq : Request) (s : State) :
    OnlyO (some ([F.cal, F.cmd, F.evtAccs, F.fabric, F.fault, F.flash, F.fresh, F.gnss, F.hidden, F.linkRun, F.links, F.lock, F.log, F.nhp, F.obsJob, F.optics, F.pad, F.params, F.power, F.quay, F.refs, F.rings, F.servo, F.sessions] ++
      [F.shadows, F.tables, F.tagRegs, F.time, F.txSlots, F.windowAt])) s (execEvtStats rq s) := by
  unfold execEvtStats
  repeat' (first
    | with_reducible exact Only.refl _ _
    | with_reducible assumption
    | with_reducible apply OnlyO.of ?_
    | with_reducible apply Only.step ?_ (State.arrive_only ..) ?_
    | exact Eq.refl _)

theorem execCalRun_only (rq : Request) (s : State) :
    OnlyO (some ([F.cal, F.cmd, F.evtAccs, F.fabric, F.fault, F.flash, F.fresh, F.gnss, F.hidden, F.linkRun, F.links, F.lock, F.log, F.nhp, F.obsJob, F.optics, F.pad, F.params, F.power, F.quay, F.refs, F.rings, F.servo, F.sessions] ++
      [F.shadows, F.tables, F.tagRegs, F.time, F.txSlots, F.windowAt])) s (execCalRun rq s) := by
  unfold execCalRun
  repeat' (first
    | with_reducible exact Only.refl _ _
    | with_reducible assumption
    | with_reducible apply OnlyO.of ?_
    | with_reducible apply Only.step ?_ (State.arrive_only ..) ?_
    | exact Eq.refl _)

theorem execLanSlip_only (rq : Request) (s : State) :
    OnlyO (some ([F.cal, F.cmd, F.evtAccs, F.fabric, F.fault, F.flash, F.fresh, F.gnss, F.hidden, F.linkRun, F.links, F.lock, F.log, F.nhp, F.obsJob, F.optics, F.pad, F.params, F.power, F.quay, F.refs, F.rings, F.servo, F.sessions] ++
      [F.shadows, F.tables, F.tagRegs, F.time, F.txSlots, F.windowAt])) s (execLanSlip rq s) := by
  unfold execLanSlip
  repeat' (first
    | with_reducible exact Only.refl _ _
    | with_reducible assumption
    | with_reducible apply OnlyO.of ?_
    | with_reducible apply Only.step ?_ (State.arrive_only ..) ?_
    | exact Eq.refl _)

theorem execSynApply_only (rq : Request) (s : State) :
    OnlyO (some ([F.cal, F.cmd, F.evtAccs, F.fabric, F.fault, F.flash, F.fresh, F.gnss, F.hidden, F.linkRun, F.links, F.lock, F.log, F.nhp, F.obsJob, F.optics, F.pad, F.params, F.power, F.quay, F.refs, F.rings, F.servo, F.sessions] ++
      [F.shadows, F.tables, F.tagRegs, F.time, F.txSlots, F.windowAt])) s (execSynApply rq s) := by
  unfold execSynApply
  repeat' (first
    | with_reducible exact Only.refl _ _
    | with_reducible assumption
    | with_reducible apply OnlyO.of ?_
    | with_reducible apply Only.step ?_ (State.arrive_only ..) ?_
    | exact Eq.refl _)

theorem execLaserSwap_only (rq : Request) (s : State) :
    OnlyO (some ([F.cal, F.cmd, F.evtAccs, F.fabric, F.fault, F.flash, F.fresh, F.gnss, F.hidden, F.linkRun, F.links, F.lock, F.log, F.nhp, F.obsJob, F.optics, F.pad, F.params, F.power, F.quay, F.refs, F.rings, F.servo, F.sessions] ++
      [F.shadows, F.tables, F.tagRegs, F.time, F.txSlots, F.windowAt])) s (execLaserSwap rq s) := by
  unfold execLaserSwap
  repeat' (first
    | with_reducible exact Only.refl _ _
    | with_reducible assumption
    | with_reducible apply OnlyO.of ?_
    | with_reducible apply Only.step ?_ (State.arrive_only ..) ?_
    | exact Eq.refl _)

theorem execLogKeyPublic_only (rq : Request) (s : State) :
    OnlyO (some ([F.cal, F.cmd, F.evtAccs, F.fabric, F.fault, F.flash, F.fresh, F.gnss, F.hidden, F.linkRun, F.links, F.lock, F.log, F.nhp, F.obsJob, F.optics, F.pad, F.params, F.power, F.quay, F.refs, F.rings, F.servo, F.sessions] ++
      [F.shadows, F.tables, F.tagRegs, F.time, F.txSlots, F.windowAt])) s (execLogKeyPublic rq s) := by
  unfold execLogKeyPublic
  repeat' (first
    | with_reducible exact Only.refl _ _
    | with_reducible assumption
    | with_reducible apply OnlyO.of ?_
    | with_reducible apply Only.step ?_ (State.arrive_only ..) ?_
    | exact Eq.refl _)

theorem execLifecycleSet_only (rq : Request) (s : State) :
    OnlyO (some ([F.cal, F.cmd, F.evtAccs, F.fabric, F.fault, F.flash, F.fresh, F.gnss, F.hidden, F.linkRun, F.links, F.lock, F.log, F.nhp, F.obsJob, F.optics, F.pad, F.params, F.power, F.quay, F.refs, F.rings, F.servo, F.sessions] ++
      [F.shadows, F.tables, F.tagRegs, F.time, F.txSlots, F.windowAt])) s (execLifecycleSet rq s) := by
  unfold execLifecycleSet
  repeat' (first
    | with_reducible exact Only.refl _ _
    | with_reducible assumption
    | with_reducible apply OnlyO.of ?_
    | with_reducible apply Only.step ?_ (State.arrive_only ..) ?_
    | exact Eq.refl _)

theorem execMasterRelease_only (rq : Request) (s : State) :
    OnlyO (some ([F.cal, F.cmd, F.evtAccs, F.fabric, F.fault, F.flash, F.fresh, F.gnss, F.hidden, F.linkRun, F.links, F.lock, F.log, F.nhp, F.obsJob, F.optics, F.pad, F.params, F.power, F.quay, F.refs, F.rings, F.servo, F.sessions] ++
      [F.shadows, F.tables, F.tagRegs, F.time, F.txSlots, F.windowAt])) s (execMasterRelease rq s) := by
  unfold execMasterRelease
  repeat' (first
    | with_reducible exact Only.refl _ _
    | with_reducible assumption
    | with_reducible apply OnlyO.of ?_
    | with_reducible apply Only.step ?_ (State.arrive_only ..) ?_
    | exact Eq.refl _)

theorem execHieTunnel_only (rq : Request) (s : State) :
    OnlyO (some ([F.cal, F.cmd, F.evtAccs, F.fabric, F.fault, F.flash, F.fresh, F.gnss, F.hidden, F.linkRun, F.links, F.lock, F.log, F.nhp, F.obsJob, F.optics, F.pad, F.params, F.power, F.quay, F.refs, F.rings, F.servo, F.sessions] ++
      [F.shadows, F.tables, F.tagRegs, F.time, F.txSlots, F.windowAt])) s (execHieTunnel rq s) := by
  unfold execHieTunnel
  repeat' (first
    | with_reducible exact Only.refl _ _
    | with_reducible assumption
    | with_reducible apply OnlyO.of ?_
    | with_reducible apply Only.step ?_ (State.arrive_only ..) ?_
    | exact Eq.refl _)

theorem execHieFanout_only (rq : Request) (s : State) :
    OnlyO (some ([F.cal, F.cmd, F.evtAccs, F.fabric, F.fault, F.flash, F.fresh, F.gnss, F.hidden, F.linkRun, F.links, F.lock, F.log, F.nhp, F.obsJob, F.optics, F.pad, F.params, F.power, F.quay, F.refs, F.rings, F.servo, F.sessions] ++
      [F.shadows, F.tables, F.tagRegs, F.time, F.txSlots, F.windowAt])) s (execHieFanout rq s) := by
  unfold execHieFanout
  repeat' (first
    | with_reducible exact Only.refl _ _
    | with_reducible assumption
    | with_reducible apply OnlyO.of ?_
    | with_reducible apply Only.step ?_ (State.arrive_only ..) ?_
    | exact Eq.refl _)

theorem execHieRegistryRead_only (rq : Request) (s : State) :
    OnlyO (some ([F.cal, F.cmd, F.evtAccs, F.fabric, F.fault, F.flash, F.fresh, F.gnss, F.hidden, F.linkRun, F.links, F.lock, F.log, F.nhp, F.obsJob, F.optics, F.pad, F.params, F.power, F.quay, F.refs, F.rings, F.servo, F.sessions] ++
      [F.shadows, F.tables, F.tagRegs, F.time, F.txSlots, F.windowAt])) s (execHieRegistryRead rq s) := by
  unfold execHieRegistryRead
  repeat' (first
    | with_reducible exact Only.refl _ _
    | with_reducible assumption
    | with_reducible apply OnlyO.of ?_
    | with_reducible apply Only.step ?_ (State.arrive_only ..) ?_
    | exact Eq.refl _)

theorem execShutterEnter_only (rq : Request) (s : State) :
    OnlyO (some ([F.cal, F.cmd, F.evtAccs, F.fabric, F.fault, F.flash, F.fresh, F.gnss, F.hidden, F.linkRun, F.links, F.lock, F.log, F.nhp, F.obsJob, F.optics, F.pad, F.params, F.power, F.quay, F.refs, F.rings, F.servo, F.sessions] ++
      [F.shadows, F.tables, F.tagRegs, F.time, F.txSlots, F.windowAt])) s (execShutterEnter rq s) := by
  unfold execShutterEnter
  repeat' (first
    | with_reducible exact Only.refl _ _
    | with_reducible assumption
    | with_reducible apply OnlyO.of ?_
    | with_reducible apply Only.step ?_ (State.arrive_only ..) ?_
    | exact Eq.refl _)

theorem execShutterLeave_only (rq : Request) (s : State) :
    OnlyO (some ([F.cal, F.cmd, F.evtAccs, F.fabric, F.fault, F.flash, F.fresh, F.gnss, F.hidden, F.linkRun, F.links, F.lock, F.log, F.nhp, F.obsJob, F.optics, F.pad, F.params, F.power, F.quay, F.refs, F.rings, F.servo, F.sessions] ++
      [F.shadows, F.tables, F.tagRegs, F.time, F.txSlots, F.windowAt])) s (execShutterLeave rq s) := by
  unfold execShutterLeave
  repeat' (first
    | with_reducible exact Only.refl _ _
    | with_reducible assumption
    | with_reducible apply OnlyO.of ?_
    | with_reducible apply Only.step ?_ (State.arrive_only ..) ?_
    | exact Eq.refl _)

theorem execStickyClear_only (rq : Request) (s : State) :
    OnlyO (some ([F.cal, F.cmd, F.evtAccs, F.fabric, F.fault, F.flash, F.fresh, F.gnss, F.hidden, F.linkRun, F.links, F.lock, F.log, F.nhp, F.obsJob, F.optics, F.pad, F.params, F.power, F.quay, F.refs, F.rings, F.servo, F.sessions] ++
      [F.shadows, F.tables, F.tagRegs, F.time, F.txSlots, F.windowAt])) s (execStickyClear rq s) := by
  unfold execStickyClear
  repeat' (first
    | with_reducible exact Only.refl _ _
    | with_reducible assumption
    | with_reducible apply OnlyO.of ?_
    | with_reducible apply Only.step ?_ (State.arrive_only ..) ?_
    | exact Eq.refl _)

theorem execWearGet_only (rq : Request) (s : State) :
    OnlyO (some ([F.cal, F.cmd, F.evtAccs, F.fabric, F.fault, F.flash, F.fresh, F.gnss, F.hidden, F.linkRun, F.links, F.lock, F.log, F.nhp, F.obsJob, F.optics, F.pad, F.params, F.power, F.quay, F.refs, F.rings, F.servo, F.sessions] ++
      [F.shadows, F.tables, F.tagRegs, F.time, F.txSlots, F.windowAt])) s (execWearGet rq s) := by
  unfold execWearGet
  repeat' (first
    | with_reducible exact Only.refl _ _
    | with_reducible assumption
    | with_reducible apply OnlyO.of ?_
    | with_reducible apply Only.step ?_ (State.arrive_only ..) ?_
    | exact Eq.refl _)

theorem execFaultRead_only (rq : Request) (s : State) :
    OnlyO (some ([F.cal, F.cmd, F.evtAccs, F.fabric, F.fault, F.flash, F.fresh, F.gnss, F.hidden, F.linkRun, F.links, F.lock, F.log, F.nhp, F.obsJob, F.optics, F.pad, F.params, F.power, F.quay, F.refs, F.rings, F.servo, F.sessions] ++
      [F.shadows, F.tables, F.tagRegs, F.time, F.txSlots, F.windowAt])) s (execFaultRead rq s) := by
  unfold execFaultRead
  repeat' (first
    | with_reducible exact Only.refl _ _
    | with_reducible assumption
    | with_reducible apply OnlyO.of ?_
    | with_reducible apply Only.step ?_ (State.arrive_only ..) ?_
    | exact Eq.refl _)

theorem execObsSnapshot_only (rq : Request) (s : State) :
    OnlyO (some ([F.cal, F.cmd, F.evtAccs, F.fabric, F.fault, F.flash, F.fresh, F.gnss, F.hidden, F.linkRun, F.links, F.lock, F.log, F.nhp, F.obsJob, F.optics, F.pad, F.params, F.power, F.quay, F.refs, F.rings, F.servo, F.sessions] ++
      [F.shadows, F.tables, F.tagRegs, F.time, F.txSlots, F.windowAt])) s (execObsSnapshot rq s) := by
  unfold execObsSnapshot
  repeat' (first
    | with_reducible exact Only.refl _ _
    | with_reducible assumption
    | with_reducible apply OnlyO.of ?_
    | with_reducible apply Only.step ?_ (State.arrive_only ..) ?_
    | exact Eq.refl _)

theorem execObsFreeze_only (rq : Request) (s : State) :
    OnlyO (some ([F.cal, F.cmd, F.evtAccs, F.fabric, F.fault, F.flash, F.fresh, F.gnss, F.hidden, F.linkRun, F.links, F.lock, F.log, F.nhp, F.obsJob, F.optics, F.pad, F.params, F.power, F.quay, F.refs, F.rings, F.servo, F.sessions] ++
      [F.shadows, F.tables, F.tagRegs, F.time, F.txSlots, F.windowAt])) s (execObsFreeze rq s) := by
  unfold execObsFreeze
  repeat' (first
    | with_reducible exact Only.refl _ _
    | with_reducible assumption
    | with_reducible apply OnlyO.of ?_
    | with_reducible apply Only.step ?_ (State.arrive_only ..) ?_
    | exact Eq.refl _)

theorem execObsTraceRead_only (rq : Request) (s : State) :
    OnlyO (some ([F.cal, F.cmd, F.evtAccs, F.fabric, F.fault, F.flash, F.fresh, F.gnss, F.hidden, F.linkRun, F.links, F.lock, F.log, F.nhp, F.obsJob, F.optics, F.pad, F.params, F.power, F.quay, F.refs, F.rings, F.servo, F.sessions] ++
      [F.shadows, F.tables, F.tagRegs, F.time, F.txSlots, F.windowAt])) s (execObsTraceRead rq s) := by
  unfold execObsTraceRead
  repeat' (first
    | with_reducible exact Only.refl _ _
    | with_reducible assumption
    | with_reducible apply OnlyO.of ?_
    | with_reducible apply Only.step ?_ (State.arrive_only ..) ?_
    | exact Eq.refl _)

theorem execQueueCreate_only (rq : Request) (s : State) :
    OnlyO (some ([F.cal, F.cmd, F.evtAccs, F.fabric, F.fault, F.flash, F.fresh, F.gnss, F.hidden, F.linkRun, F.links, F.lock, F.log, F.nhp, F.obsJob, F.optics, F.pad, F.params, F.power, F.quay, F.refs, F.rings, F.servo, F.sessions] ++
      [F.shadows, F.tables, F.tagRegs, F.time, F.txSlots, F.windowAt])) s (execQueueCreate rq s) := by
  unfold execQueueCreate
  repeat' (first
    | with_reducible exact Only.refl _ _
    | with_reducible assumption
    | with_reducible apply OnlyO.of ?_
    | with_reducible apply Only.step ?_ (State.arrive_only ..) ?_
    | exact Eq.refl _)

theorem execQueueDestroy_only (rq : Request) (s : State) :
    OnlyO (some ([F.cal, F.cmd, F.evtAccs, F.fabric, F.fault, F.flash, F.fresh, F.gnss, F.hidden, F.linkRun, F.links, F.lock, F.log, F.nhp, F.obsJob, F.optics, F.pad, F.params, F.power, F.quay, F.refs, F.rings, F.servo, F.sessions] ++
      [F.shadows, F.tables, F.tagRegs, F.time, F.txSlots, F.windowAt])) s (execQueueDestroy rq s) := by
  unfold execQueueDestroy
  repeat' (first
    | with_reducible exact Only.refl _ _
    | with_reducible assumption
    | with_reducible apply OnlyO.of ?_
    | with_reducible apply Only.step ?_ (State.arrive_only ..) ?_
    | exact Eq.refl _)

theorem execUnknownOpcode_only (op : BitVec 16) (rq : Request) (s : State) :
    OnlyO (some ([F.cal, F.cmd, F.evtAccs, F.fabric, F.fault, F.flash, F.fresh, F.gnss, F.hidden, F.linkRun, F.links, F.lock, F.log, F.nhp, F.obsJob, F.optics, F.pad, F.params, F.power, F.quay, F.refs, F.rings, F.servo, F.sessions] ++
      [F.shadows, F.tables, F.tagRegs, F.time, F.txSlots, F.windowAt])) s (execUnknownOpcode op rq s) := by
  unfold execUnknownOpcode
  repeat' (first
    | with_reducible exact Only.refl _ _
    | with_reducible assumption
    | with_reducible apply OnlyO.of ?_
    | with_reducible apply Only.step ?_ (State.arrive_only ..) ?_
    | exact Eq.refl _)

theorem execLckSwapTimeWrite_only (rq : Request) (index : BitVec 16) (value : BitVec 64) (s : State) :
    OnlyO (some ([F.cal, F.cmd, F.evtAccs, F.fabric, F.fault, F.flash, F.fresh, F.gnss, F.hidden, F.linkRun, F.links, F.lock, F.log, F.nhp, F.obsJob, F.optics, F.pad, F.params, F.power, F.quay, F.refs, F.rings, F.servo, F.sessions] ++
      [F.shadows, F.tables, F.tagRegs, F.time, F.txSlots, F.windowAt])) s (execLckSwapTimeWrite rq index value s) := by
  unfold execLckSwapTimeWrite
  repeat' (first
    | with_reducible exact Only.refl _ _
    | with_reducible assumption
    | with_reducible apply OnlyO.of ?_
    | with_reducible apply Only.step ?_ (State.arrive_only ..) ?_
    | exact Eq.refl _)

theorem execLckAdmEntryWrite_only (rq : Request) (index : BitVec 16) (value : BitVec 64) (s : State) :
    OnlyO (some ([F.cal, F.cmd, F.evtAccs, F.fabric, F.fault, F.flash, F.fresh, F.gnss, F.hidden, F.linkRun, F.links, F.lock, F.log, F.nhp, F.obsJob, F.optics, F.pad, F.params, F.power, F.quay, F.refs, F.rings, F.servo, F.sessions] ++
      [F.shadows, F.tables, F.tagRegs, F.time, F.txSlots, F.windowAt])) s (execLckAdmEntryWrite rq index value s) := by
  unfold execLckAdmEntryWrite
  repeat' (first
    | with_reducible exact Only.refl _ _
    | with_reducible assumption
    | with_reducible apply OnlyO.of ?_
    | with_reducible apply Only.step ?_ (State.arrive_only ..) ?_
    | exact Eq.refl _)

theorem execObsTagSeedWrite_only (rq : Request) (index : BitVec 16) (value : BitVec 64) (s : State) :
    OnlyO (some ([F.cal, F.cmd, F.evtAccs, F.fabric, F.fault, F.flash, F.fresh, F.gnss, F.hidden, F.linkRun, F.links, F.lock, F.log, F.nhp, F.obsJob, F.optics, F.pad, F.params, F.power, F.quay, F.refs, F.rings, F.servo, F.sessions] ++
      [F.shadows, F.tables, F.tagRegs, F.time, F.txSlots, F.windowAt])) s (execObsTagSeedWrite rq index value s) := by
  unfold execObsTagSeedWrite
  repeat' (first
    | with_reducible exact Only.refl _ _
    | with_reducible assumption
    | with_reducible apply OnlyO.of ?_
    | with_reducible apply Only.step ?_ (State.arrive_only ..) ?_
    | exact Eq.refl _)

theorem execSpdTamperSrcClear_only (rq : Request) (index : BitVec 16) (value : BitVec 64) (s : State) :
    OnlyO (some ([F.cal, F.cmd, F.evtAccs, F.fabric, F.fault, F.flash, F.fresh, F.gnss, F.hidden, F.linkRun, F.links, F.lock, F.log, F.nhp, F.obsJob, F.optics, F.pad, F.params, F.power, F.quay, F.refs, F.rings, F.servo, F.sessions] ++
      [F.shadows, F.tables, F.tagRegs, F.time, F.txSlots, F.windowAt])) s (execSpdTamperSrcClear rq index value s) := by
  unfold execSpdTamperSrcClear
  repeat' (first
    | with_reducible exact Only.refl _ _
    | with_reducible assumption
    | with_reducible apply OnlyO.of ?_
    | with_reducible apply Only.step ?_ (State.arrive_only ..) ?_
    | exact Eq.refl _)

theorem execGnsAntBiasWrite_only (rq : Request) (index : BitVec 16) (value : BitVec 64) (s : State) :
    OnlyO (some ([F.cal, F.cmd, F.evtAccs, F.fabric, F.fault, F.flash, F.fresh, F.gnss, F.hidden, F.linkRun, F.links, F.lock, F.log, F.nhp, F.obsJob, F.optics, F.pad, F.params, F.power, F.quay, F.refs, F.rings, F.servo, F.sessions] ++
      [F.shadows, F.tables, F.tagRegs, F.time, F.txSlots, F.windowAt])) s (execGnsAntBiasWrite rq index value s) := by
  unfold execGnsAntBiasWrite
  repeat' (first
    | with_reducible exact Only.refl _ _
    | with_reducible assumption
    | with_reducible apply OnlyO.of ?_
    | with_reducible apply Only.step ?_ (State.arrive_only ..) ?_
    | exact Eq.refl _)

theorem execCmdMgmtEnableWrite_only (rq : Request) (index : BitVec 16) (value : BitVec 64) (s : State) :
    OnlyO (some ([F.cal, F.cmd, F.evtAccs, F.fabric, F.fault, F.flash, F.fresh, F.gnss, F.hidden, F.linkRun, F.links, F.lock, F.log, F.nhp, F.obsJob, F.optics, F.pad, F.params, F.power, F.quay, F.refs, F.rings, F.servo, F.sessions] ++
      [F.shadows, F.tables, F.tagRegs, F.time, F.txSlots, F.windowAt])) s (execCmdMgmtEnableWrite rq index value s) := by
  unfold execCmdMgmtEnableWrite
  repeat' (first
    | with_reducible exact Only.refl _ _
    | with_reducible assumption
    | with_reducible apply OnlyO.of ?_
    | with_reducible apply Only.step ?_ (State.arrive_only ..) ?_
    | exact Eq.refl _)

theorem execFabCommit_only (rq : Request) (s : State) :
    OnlyO (some ([F.cal, F.cmd, F.evtAccs, F.fabric, F.fault, F.flash, F.fresh, F.gnss, F.hidden, F.linkRun, F.links, F.lock, F.log, F.nhp, F.obsJob, F.optics, F.pad, F.params, F.power, F.quay, F.refs, F.rings, F.servo, F.sessions] ++
      [F.shadows, F.tables, F.tagRegs, F.time, F.txSlots, F.windowAt])) s (execFabCommit rq s) := by
  unfold execFabCommit
  repeat' (first
    | with_reducible exact Only.refl _ _
    | with_reducible assumption
    | with_reducible apply OnlyO.of ?_
    | with_reducible apply Only.step ?_ (State.arrive_only ..) ?_
    | exact Eq.refl _)

theorem execPrtCommit_only (rq : Request) (s : State) :
    OnlyO (some ([F.cal, F.cmd, F.evtAccs, F.fabric, F.fault, F.flash, F.fresh, F.gnss, F.hidden, F.linkRun, F.links, F.lock, F.log, F.nhp, F.obsJob, F.optics, F.pad, F.params, F.power, F.quay, F.refs, F.rings, F.servo, F.sessions] ++
      [F.shadows, F.tables, F.tagRegs, F.time, F.txSlots, F.windowAt])) s (execPrtCommit rq s) := by
  unfold execPrtCommit
  repeat' (first
    | with_reducible exact Only.refl _ _
    | with_reducible assumption
    | with_reducible apply OnlyO.of ?_
    | with_reducible apply Only.step ?_ (State.arrive_only ..) ?_
    | exact Eq.refl _)

theorem execTblCommit_only (rq : Request) (s : State) :
    OnlyO (some ([F.cal, F.cmd, F.evtAccs, F.fabric, F.fault, F.flash, F.fresh, F.gnss, F.hidden, F.linkRun, F.links, F.lock, F.log, F.nhp, F.obsJob, F.optics, F.pad, F.params, F.power, F.quay, F.refs, F.rings, F.servo, F.sessions] ++
      [F.shadows, F.tables, F.tagRegs, F.time, F.txSlots, F.windowAt])) s (execTblCommit rq s) := by
  unfold execTblCommit
  repeat' (first
    | with_reducible exact Only.refl _ _
    | with_reducible assumption
    | with_reducible apply OnlyO.of ?_
    | with_reducible apply Only.step ?_ (State.arrive_only ..) ?_
    | exact Eq.refl _)

theorem execLckCommit_only (rq : Request) (s : State) :
    OnlyO (some ([F.cal, F.cmd, F.evtAccs, F.fabric, F.fault, F.flash, F.fresh, F.gnss, F.hidden, F.linkRun, F.links, F.lock, F.log, F.nhp, F.obsJob, F.optics, F.pad, F.params, F.power, F.quay, F.refs, F.rings, F.servo, F.sessions] ++
      [F.shadows, F.tables, F.tagRegs, F.time, F.txSlots, F.windowAt])) s (execLckCommit rq s) := by
  unfold execLckCommit
  repeat' (first
    | with_reducible exact Only.refl _ _
    | with_reducible assumption
    | with_reducible apply OnlyO.of ?_
    | with_reducible apply Only.step ?_ (State.arrive_only ..) ?_
    | exact Eq.refl _)

theorem execTbsCommit_only (rq : Request) (s : State) :
    OnlyO (some ([F.cal, F.cmd, F.evtAccs, F.fabric, F.fault, F.flash, F.fresh, F.gnss, F.hidden, F.linkRun, F.links, F.lock, F.log, F.nhp, F.obsJob, F.optics, F.pad, F.params, F.power, F.quay, F.refs, F.rings, F.servo, F.sessions] ++
      [F.shadows, F.tables, F.tagRegs, F.time, F.txSlots, F.windowAt])) s (execTbsCommit rq s) := by
  unfold execTbsCommit
  repeat' (first
    | with_reducible exact Only.refl _ _
    | with_reducible assumption
    | with_reducible apply OnlyO.of ?_
    | with_reducible apply Only.step ?_ (State.arrive_only ..) ?_
    | exact Eq.refl _)

theorem execLnkCommit_only (rq : Request) (s : State) :
    OnlyO (some ([F.cal, F.cmd, F.evtAccs, F.fabric, F.fault, F.flash, F.fresh, F.gnss, F.hidden, F.linkRun, F.links, F.lock, F.log, F.nhp, F.obsJob, F.optics, F.pad, F.params, F.power, F.quay, F.refs, F.rings, F.servo, F.sessions] ++
      [F.shadows, F.tables, F.tagRegs, F.time, F.txSlots, F.windowAt])) s (execLnkCommit rq s) := by
  unfold execLnkCommit
  repeat' (first
    | with_reducible exact Only.refl _ _
    | with_reducible assumption
    | with_reducible apply OnlyO.of ?_
    | with_reducible apply Only.step ?_ (State.arrive_only ..) ?_
    | exact Eq.refl _)

theorem execRefCommit_only (rq : Request) (s : State) :
    OnlyO (some ([F.cal, F.cmd, F.evtAccs, F.fabric, F.fault, F.flash, F.fresh, F.gnss, F.hidden, F.linkRun, F.links, F.lock, F.log, F.nhp, F.obsJob, F.optics, F.pad, F.params, F.power, F.quay, F.refs, F.rings, F.servo, F.sessions] ++
      [F.shadows, F.tables, F.tagRegs, F.time, F.txSlots, F.windowAt])) s (execRefCommit rq s) := by
  unfold execRefCommit
  repeat' (first
    | with_reducible exact Only.refl _ _
    | with_reducible assumption
    | with_reducible apply OnlyO.of ?_
    | with_reducible apply Only.step ?_ (State.arrive_only ..) ?_
    | exact Eq.refl _)

theorem execCorCommit_only (rq : Request) (s : State) :
    OnlyO (some ([F.cal, F.cmd, F.evtAccs, F.fabric, F.fault, F.flash, F.fresh, F.gnss, F.hidden, F.linkRun, F.links, F.lock, F.log, F.nhp, F.obsJob, F.optics, F.pad, F.params, F.power, F.quay, F.refs, F.rings, F.servo, F.sessions] ++
      [F.shadows, F.tables, F.tagRegs, F.time, F.txSlots, F.windowAt])) s (execCorCommit rq s) := by
  unfold execCorCommit
  repeat' (first
    | with_reducible exact Only.refl _ _
    | with_reducible assumption
    | with_reducible apply OnlyO.of ?_
    | with_reducible apply Only.step ?_ (State.arrive_only ..) ?_
    | exact Eq.refl _)

theorem execGnsCommit_only (rq : Request) (s : State) :
    OnlyO (some ([F.cal, F.cmd, F.evtAccs, F.fabric, F.fault, F.flash, F.fresh, F.gnss, F.hidden, F.linkRun, F.links, F.lock, F.log, F.nhp, F.obsJob, F.optics, F.pad, F.params, F.power, F.quay, F.refs, F.rings, F.servo, F.sessions] ++
      [F.shadows, F.tables, F.tagRegs, F.time, F.txSlots, F.windowAt])) s (execGnsCommit rq s) := by
  unfold execGnsCommit
  repeat' (first
    | with_reducible exact Only.refl _ _
    | with_reducible assumption
    | with_reducible apply OnlyO.of ?_
    | with_reducible apply Only.step ?_ (State.arrive_only ..) ?_
    | exact Eq.refl _)

theorem execEvtCommit_only (rq : Request) (s : State) :
    OnlyO (some ([F.cal, F.cmd, F.evtAccs, F.fabric, F.fault, F.flash, F.fresh, F.gnss, F.hidden, F.linkRun, F.links, F.lock, F.log, F.nhp, F.obsJob, F.optics, F.pad, F.params, F.power, F.quay, F.refs, F.rings, F.servo, F.sessions] ++
      [F.shadows, F.tables, F.tagRegs, F.time, F.txSlots, F.windowAt])) s (execEvtCommit rq s) := by
  unfold execEvtCommit
  repeat' (first
    | with_reducible exact Only.refl _ _
    | with_reducible assumption
    | with_reducible apply OnlyO.of ?_
    | with_reducible apply Only.step ?_ (State.arrive_only ..) ?_
    | exact Eq.refl _)

theorem execLanCommit_only (rq : Request) (s : State) :
    OnlyO (some ([F.cal, F.cmd, F.evtAccs, F.fabric, F.fault, F.flash, F.fresh, F.gnss, F.hidden, F.linkRun, F.links, F.lock, F.log, F.nhp, F.obsJob, F.optics, F.pad, F.params, F.power, F.quay, F.refs, F.rings, F.servo, F.sessions] ++
      [F.shadows, F.tables, F.tagRegs, F.time, F.txSlots, F.windowAt])) s (execLanCommit rq s) := by
  unfold execLanCommit
  repeat' (first
    | with_reducible exact Only.refl _ _
    | with_reducible assumption
    | with_reducible apply OnlyO.of ?_
    | with_reducible apply Only.step ?_ (State.arrive_only ..) ?_
    | exact Eq.refl _)

theorem execSynCommit_only (rq : Request) (s : State) :
    OnlyO (some ([F.cal, F.cmd, F.evtAccs, F.fabric, F.fault, F.flash, F.fresh, F.gnss, F.hidden, F.linkRun, F.links, F.lock, F.log, F.nhp, F.obsJob, F.optics, F.pad, F.params, F.power, F.quay, F.refs, F.rings, F.servo, F.sessions] ++
      [F.shadows, F.tables, F.tagRegs, F.time, F.txSlots, F.windowAt])) s (execSynCommit rq s) := by
  unfold execSynCommit
  repeat' (first
    | with_reducible exact Only.refl _ _
    | with_reducible assumption
    | with_reducible apply OnlyO.of ?_
    | with_reducible apply Only.step ?_ (State.arrive_only ..) ?_
    | exact Eq.refl _)

theorem execLogCommit_only (rq : Request) (s : State) :
    OnlyO (some ([F.cal, F.cmd, F.evtAccs, F.fabric, F.fault, F.flash, F.fresh, F.gnss, F.hidden, F.linkRun, F.links, F.lock, F.log, F.nhp, F.obsJob, F.optics, F.pad, F.params, F.power, F.quay, F.refs, F.rings, F.servo, F.sessions] ++
      [F.shadows, F.tables, F.tagRegs, F.time, F.txSlots, F.windowAt])) s (execLogCommit rq s) := by
  unfold execLogCommit
  repeat' (first
    | with_reducible exact Only.refl _ _
    | with_reducible assumption
    | with_reducible apply OnlyO.of ?_
    | with_reducible apply Only.step ?_ (State.arrive_only ..) ?_
    | exact Eq.refl _)

theorem execArbCommit_only (rq : Request) (s : State) :
    OnlyO (some ([F.cal, F.cmd, F.evtAccs, F.fabric, F.fault, F.flash, F.fresh, F.gnss, F.hidden, F.linkRun, F.links, F.lock, F.log, F.nhp, F.obsJob, F.optics, F.pad, F.params, F.power, F.quay, F.refs, F.rings, F.servo, F.sessions] ++
      [F.shadows, F.tables, F.tagRegs, F.time, F.txSlots, F.windowAt])) s (execArbCommit rq s) := by
  unfold execArbCommit
  repeat' (first
    | with_reducible exact Only.refl _ _
    | with_reducible assumption
    | with_reducible apply OnlyO.of ?_
    | with_reducible apply Only.step ?_ (State.arrive_only ..) ?_
    | exact Eq.refl _)

theorem execHieCommit_only (rq : Request) (s : State) :
    OnlyO (some ([F.cal, F.cmd, F.evtAccs, F.fabric, F.fault, F.flash, F.fresh, F.gnss, F.hidden, F.linkRun, F.links, F.lock, F.log, F.nhp, F.obsJob, F.optics, F.pad, F.params, F.power, F.quay, F.refs, F.rings, F.servo, F.sessions] ++
      [F.shadows, F.tables, F.tagRegs, F.time, F.txSlots, F.windowAt])) s (execHieCommit rq s) := by
  unfold execHieCommit
  repeat' (first
    | with_reducible exact Only.refl _ _
    | with_reducible assumption
    | with_reducible apply OnlyO.of ?_
    | with_reducible apply Only.step ?_ (State.arrive_only ..) ?_
    | exact Eq.refl _)

theorem execHstCommit_only (rq : Request) (s : State) :
    OnlyO (some ([F.cal, F.cmd, F.evtAccs, F.fabric, F.fault, F.flash, F.fresh, F.gnss, F.hidden, F.linkRun, F.links, F.lock, F.log, F.nhp, F.obsJob, F.optics, F.pad, F.params, F.power, F.quay, F.refs, F.rings, F.servo, F.sessions] ++
      [F.shadows, F.tables, F.tagRegs, F.time, F.txSlots, F.windowAt])) s (execHstCommit rq s) := by
  unfold execHstCommit
  repeat' (first
    | with_reducible exact Only.refl _ _
    | with_reducible assumption
    | with_reducible apply OnlyO.of ?_
    | with_reducible apply Only.step ?_ (State.arrive_only ..) ?_
    | exact Eq.refl _)

theorem execCommitNoShadow_only (block : BitVec 8) (rq : Request) (s : State) :
    OnlyO (some ([F.cal, F.cmd, F.evtAccs, F.fabric, F.fault, F.flash, F.fresh, F.gnss, F.hidden, F.linkRun, F.links, F.lock, F.log, F.nhp, F.obsJob, F.optics, F.pad, F.params, F.power, F.quay, F.refs, F.rings, F.servo, F.sessions] ++
      [F.shadows, F.tables, F.tagRegs, F.time, F.txSlots, F.windowAt])) s (execCommitNoShadow block rq s) := by
  unfold execCommitNoShadow
  repeat' (first
    | with_reducible exact Only.refl _ _
    | with_reducible assumption
    | with_reducible apply OnlyO.of ?_
    | with_reducible apply Only.step ?_ (State.arrive_only ..) ?_
    | exact Eq.refl _)

theorem execScheduledCommitDue_only (block : Fin 256) (s : State) :
    OnlyO (some ([F.cal, F.cmd, F.evtAccs, F.fabric, F.fault, F.flash, F.fresh, F.gnss, F.hidden, F.linkRun, F.links, F.lock, F.log, F.nhp, F.obsJob, F.optics, F.pad, F.params, F.power, F.quay, F.refs, F.rings, F.servo, F.sessions] ++
      [F.shadows, F.tables, F.tagRegs, F.time, F.txSlots, F.windowAt])) s (execScheduledCommitDue block s) := by
  unfold execScheduledCommitDue
  repeat' (first
    | with_reducible exact Only.refl _ _
    | with_reducible assumption
    | with_reducible apply OnlyO.of ?_
    | with_reducible apply Only.step ?_ (State.settle_only ..) ?_
    | with_reducible apply Only.step ?_ (State.commitDue_only ..) ?_
    | exact Eq.refl _)

theorem execTunnelReq_only (port : Fin 512) (msg : List Byte) (s : State) :
    OnlyO (some ([F.cal, F.cmd, F.evtAccs, F.fabric, F.fault, F.flash, F.fresh, F.gnss, F.hidden, F.linkRun, F.links, F.lock, F.log, F.nhp, F.obsJob, F.optics, F.pad, F.params, F.power, F.quay, F.refs, F.rings, F.servo, F.sessions] ++
      [F.shadows, F.tables, F.tagRegs, F.time, F.txSlots, F.windowAt])) s (execTunnelReq port msg s) := by
  unfold execTunnelReq
  repeat' (first
    | (extract_lets +onlyGivenNames t; refine OnlyO.with_state (t := t) ?_ fun _ => ?_; subst t; rotate_left; clear_value t)
    | (extract_lets +onlyGivenNames t; refine OnlyO.with_pair (t := t) ?_ fun _ => ?_; subst t; rotate_left; clear_value t)
    | (extract_lets +onlyGivenNames t; refine Only.with_state (t := t) ?_ fun _ => ?_; subst t; rotate_left; clear_value t)
    | (extract_lets +onlyGivenNames t; refine Only.with_pair (t := t) ?_ fun _ => ?_; subst t; rotate_left; clear_value t)
    | (extract_lets +onlyGivenNames t; clear_value t)
    | with_reducible exact Only.refl _ _
    | with_reducible assumption
    | with_reducible apply OnlyO.of ?_
    | with_reducible apply OnlyO.cond _ ?_ ?_
    | with_reducible apply Only.cond _ ?_ ?_
    | with_reducible apply Only.step ?_ (State.stamped_only ..) ?_
    | with_reducible apply Only.step ?_ (State.nhpDiscard_only ..) ?_
    | with_reducible apply Only.step ?_ (State.nhpDown_only ..) ?_
    | with_reducible apply Only.fst ?_ (State.takeSegment_only ..) ?_
    | with_reducible apply Only.pair (by assumption) (State.takeSegment_only ..) ?_ ?_
    | with_reducible apply OnlyP.step ?_ (State.takeSegment_only ..) ?_
    | with_reducible apply Only.step ?_ (State.arrive_only ..) ?_
    | exact Eq.refl _
    | extract_lets
    | split)

end Sys2Proof.Machine
end

