-- ==== Sys2Proof/Laws/OnlyRelease.lean ====
section
/-! SUPPORT. What each operation of Machine/Release.lean can change. -/

set_option linter.unusedTactic false
set_option linter.unreachableTactic false
set_option linter.tactic.unusedName false

namespace Sys2Proof.Machine

theorem execSynUnlock_only (syn : Fin 38) (s : State) :
    OnlyO (some ([F.cal, F.cmd, F.evtAccs, F.fabric, F.fault, F.flash, F.fresh, F.gnss, F.hidden, F.linkRun, F.links, F.lock, F.log, F.nhp, F.obsJob, F.optics, F.pad, F.params, F.power, F.quay, F.refs, F.rings, F.servo, F.sessions] ++
      [F.shadows, F.tables, F.tagRegs, F.time, F.txSlots, F.windowAt])) s (execSynUnlock syn s) := by
  unfold execSynUnlock
  repeat' (first
    | with_reducible exact Only.refl _ _
    | with_reducible assumption
    | with_reducible apply OnlyO.of ?_
    | with_reducible apply OnlyO.cond _ ?_ ?_
    | with_reducible apply Only.cond _ ?_ ?_
    | with_reducible apply Only.step ?_ (State.settle_only ..) ?_
    | with_reducible apply Only.step ?_ (State.synUnlock_only ..) ?_
    | exact Eq.refl _
    | split)

theorem execCoreSelfTest_only (core : Fin 2) (m : CoreMeasure) (s : State) :
    OnlyO (some ([F.cal, F.cmd, F.evtAccs, F.fabric, F.fault, F.flash, F.fresh, F.gnss, F.hidden, F.linkRun, F.links, F.lock, F.log, F.nhp, F.obsJob, F.optics, F.pad, F.params, F.power, F.quay, F.refs, F.rings, F.servo, F.sessions] ++
      [F.shadows, F.tables, F.tagRegs, F.time, F.txSlots, F.windowAt])) s (execCoreSelfTest core m s) := by
  unfold execCoreSelfTest
  repeat' (first
    | with_reducible exact Only.refl _ _
    | with_reducible assumption
    | with_reducible apply OnlyO.of ?_
    | with_reducible apply Only.step ?_ (State.settle_only ..) ?_
    | with_reducible apply Only.step ?_ (State.coreSelfTest_only ..) ?_
    | exact Eq.refl _)

theorem execCkTbEdgeMissing_only (s : State) :
    OnlyO (some ([F.cal, F.cmd, F.evtAccs, F.fabric, F.fault, F.flash, F.fresh, F.gnss, F.hidden, F.linkRun, F.links, F.lock, F.log, F.nhp, F.obsJob, F.optics, F.pad, F.params, F.power, F.quay, F.refs, F.rings, F.servo, F.sessions] ++
      [F.shadows, F.tables, F.tagRegs, F.time, F.txSlots, F.windowAt])) s (execCkTbEdgeMissing s) := by
  unfold execCkTbEdgeMissing
  repeat' (first
    | with_reducible exact Only.refl _ _
    | with_reducible assumption
    | with_reducible apply OnlyO.of ?_
    | with_reducible apply Only.step ?_ (State.settle_only ..) ?_
    | with_reducible apply Only.step ?_ (State.edgeMissing_only ..) ?_
    | exact Eq.refl _)

theorem execSwitchGapEnd_only (s : State) :
    OnlyO (some ([F.cal, F.cmd, F.evtAccs, F.fabric, F.fault, F.flash, F.fresh, F.gnss, F.hidden, F.linkRun, F.links, F.lock, F.log, F.nhp, F.obsJob, F.optics, F.pad, F.params, F.power, F.quay, F.refs, F.rings, F.servo, F.sessions] ++
      [F.shadows, F.tables, F.tagRegs, F.time, F.txSlots, F.windowAt])) s (execSwitchGapEnd s) := by
  unfold execSwitchGapEnd
  repeat' (first
    | with_reducible exact Only.refl _ _
    | with_reducible assumption
    | with_reducible apply OnlyO.of ?_
    | with_reducible apply Only.step ?_ (State.settle_only ..) ?_
    | with_reducible apply Only.step ?_ (State.endSwitch_only ..) ?_
    | exact Eq.refl _)

theorem execCoreParityError_only (core : Fin 2) (s : State) :
    OnlyO (some ([F.cal, F.cmd, F.evtAccs, F.fabric, F.fault, F.flash, F.fresh, F.gnss, F.hidden, F.linkRun, F.links, F.lock, F.log, F.nhp, F.obsJob, F.optics, F.pad, F.params, F.power, F.quay, F.refs, F.rings, F.servo, F.sessions] ++
      [F.shadows, F.tables, F.tagRegs, F.time, F.txSlots, F.windowAt])) s (execCoreParityError core s) := by
  unfold execCoreParityError
  repeat' (first
    | with_reducible exact Only.refl _ _
    | with_reducible assumption
    | with_reducible apply OnlyO.of ?_
    | with_reducible apply Only.step ?_ (State.settle_only ..) ?_
    | with_reducible apply Only.step ?_ (State.parityError_only ..) ?_
    | exact Eq.refl _)

theorem execDomainPowerGoodLoss_only (dom : Fin 13) (s : State) :
    OnlyO none s (execDomainPowerGoodLoss dom s) := by
  unfold execDomainPowerGoodLoss
  repeat' (first
    | with_reducible exact Only.refl _ _
    | with_reducible assumption
    | with_reducible apply OnlyO.of ?_
    | with_reducible apply OnlyO.cond _ ?_ ?_
    | with_reducible apply Only.cond _ ?_ ?_
    | with_reducible apply Only.step ?_ (State.settle_only ..) ?_
    | with_reducible apply Only.step ?_ (State.domainLost_only ..) ?_
    | exact Eq.refl _
    | split)

theorem execWipeComplete_only (s : State) :
    OnlyO (some ([F.cal, F.cmd, F.evtAccs, F.fabric, F.fault, F.flash, F.fresh, F.gnss, F.hidden, F.linkRun, F.links, F.lock, F.log, F.nhp, F.obsJob, F.optics, F.pad, F.params, F.power, F.quay, F.refs, F.rings, F.servo, F.sessions] ++
      [F.shadows, F.tables, F.tagRegs, F.time, F.txSlots, F.windowAt])) s (execWipeComplete s) := by
  unfold execWipeComplete
  repeat' (first
    | with_reducible exact Only.refl _ _
    | with_reducible assumption
    | with_reducible apply OnlyO.of ?_
    | with_reducible apply Only.step ?_ (State.settle_only ..) ?_
    | with_reducible apply Only.step ?_ (State.wipeDone_only ..) ?_
    | exact Eq.refl _)

theorem execKeyGenerated_only (s : State) :
    OnlyO (some ([F.cal, F.cmd, F.evtAccs, F.fabric, F.fault, F.flash, F.fresh, F.gnss, F.hidden, F.linkRun, F.links, F.lock, F.log, F.nhp, F.obsJob, F.optics, F.pad, F.params, F.power, F.quay, F.refs, F.rings, F.servo, F.sessions] ++
      [F.shadows, F.tables, F.tagRegs, F.time, F.txSlots, F.windowAt])) s (execKeyGenerated s) := by
  unfold execKeyGenerated
  repeat' (first
    | with_reducible exact Only.refl _ _
    | with_reducible assumption
    | with_reducible apply OnlyO.of ?_
    | with_reducible apply Only.step ?_ (State.settle_only ..) ?_
    | with_reducible apply Only.step ?_ (State.keyDone_only ..) ?_
    | exact Eq.refl _)

theorem execDoorbell_only (g : ℕ) (index : BitVec 32) (s : State) :
    OnlyO (some ([F.cal, F.cmd, F.evtAccs, F.fabric, F.fault, F.flash, F.fresh, F.gnss, F.hidden, F.linkRun, F.links, F.lock, F.log, F.nhp, F.obsJob, F.optics, F.pad, F.params, F.power, F.quay, F.refs, F.rings, F.servo, F.sessions] ++
      [F.shadows, F.tables, F.tagRegs, F.time, F.txSlots, F.windowAt])) s (execDoorbell g index s) := by
  unfold execDoorbell
  repeat' (first
    | with_reducible exact Only.refl _ _
    | with_reducible assumption
    | with_reducible apply OnlyO.of ?_
    | with_reducible apply Only.step ?_ (State.settle_only ..) ?_
    | with_reducible apply Only.step ?_ (State.doorbell_only ..) ?_
    | exact Eq.refl _)

end Sys2Proof.Machine
end

