-- ==== Sys2Proof/Laws/Exec.lean ====
section
/-! SUPPORT. What every command keeps, and what every step keeps. -/

namespace Sys2Proof.Machine

theorem OnlyO.mono {V W : Option (List Nat)} {s : State} {o : Host.Outcome State Fault Refusal} (h : OnlyO V s o)
    (hw : within V W = true) : OnlyO W s o := ⟨fun t e => (h.next t e).mono hw⟩

/-- Whatever a command does, the queue and true time stay, the outbox only grows, and the state keeps its form. -/
theorem exec_only (i : Instr) (s : State) : OnlyO none s (exec i s) := by
  cases i with
  | sessionOpen => exact (execSessionOpen_only ..).mono rfl
  | sessionProve => exact (execSessionProve_only ..).mono rfl
  | proofTimeout => exact (execProofTimeout_only ..).mono rfl
  | sessionClose => exact (execSessionClose_only ..).mono rfl
  | sessionIdleTimeout => exact (execSessionIdleTimeout_only ..).mono rfl
  | sessionSet => exact (execSessionSet_only ..).mono rfl
  | unknownOpcode => exact (execUnknownOpcode_only ..).mono rfl
  | spiReadTransfer => exact (execSpiReadTransfer_only ..).mono rfl
  | paramRead => exact (execParamRead_only ..).mono rfl
  | paramWrite => exact (execParamWrite_only ..).mono rfl
  | lckSwapTimeWrite => exact (execLckSwapTimeWrite_only ..).mono rfl
  | lckAdmEntryWrite => exact (execLckAdmEntryWrite_only ..).mono rfl
  | obsTagSeedWrite => exact (execObsTagSeedWrite_only ..).mono rfl
  | spdTamperSrcClear => exact (execSpdTamperSrcClear_only ..).mono rfl
  | gnsAntBiasWrite => exact (execGnsAntBiasWrite_only ..).mono rfl
  | cmdMgmtEnableWrite => exact (execCmdMgmtEnableWrite_only ..).mono rfl
  | fabCommit => exact (execFabCommit_only ..).mono rfl
  | prtCommit => exact (execPrtCommit_only ..).mono rfl
  | tblCommit => exact (execTblCommit_only ..).mono rfl
  | lckCommit => exact (execLckCommit_only ..).mono rfl
  | tbsCommit => exact (execTbsCommit_only ..).mono rfl
  | lnkCommit => exact (execLnkCommit_only ..).mono rfl
  | refCommit => exact (execRefCommit_only ..).mono rfl
  | corCommit => exact (execCorCommit_only ..).mono rfl
  | gnsCommit => exact (execGnsCommit_only ..).mono rfl
  | evtCommit => exact (execEvtCommit_only ..).mono rfl
  | lanCommit => exact (execLanCommit_only ..).mono rfl
  | synCommit => exact (execSynCommit_only ..).mono rfl
  | logCommit => exact (execLogCommit_only ..).mono rfl
  | arbCommit => exact (execArbCommit_only ..).mono rfl
  | hieCommit => exact (execHieCommit_only ..).mono rfl
  | hstCommit => exact (execHstCommit_only ..).mono rfl
  | commitNoShadow => exact (execCommitNoShadow_only ..).mono rfl
  | scheduledCommitDue => exact (execScheduledCommitDue_only ..).mono rfl
  | sysInfo => exact (execSysInfo_only ..).mono rfl
  | fabricEnable => exact (execFabricEnable_only ..).mono rfl
  | fabricDisable => exact (execFabricDisable_only ..).mono rfl
  | tblSearch => exact (execTblSearch_only ..).mono rfl
  | tblNext => exact (execTblNext_only ..).mono rfl
  | tblInsert => exact (execTblInsert_only ..).mono rfl
  | tblDelete => exact (execTblDelete_only ..).mono rfl
  | tblFlushPort => exact (execTblFlushPort_only ..).mono rfl
  | flushWalkEnd => exact (execFlushWalkEnd_only ..).mono rfl
  | tblRehash => exact (execTblRehash_only ..).mono rfl
  | rehashWalkEnd => exact (execRehashWalkEnd_only ..).mono rfl
  | tblStreamWrite => exact (execTblStreamWrite_only ..).mono rfl
  | tblClearFlap => exact (execTblClearFlap_only ..).mono rfl
  | drainFenceComplete => exact (execDrainFenceComplete_only ..).mono rfl
  | streamEntryRewrite => exact (execStreamEntryRewrite_only ..).mono rfl
  | refAccept => exact (execRefAccept_only ..).mono rfl
  | coreSwitch => exact (execCoreSwitch_only ..).mono rfl
  | coreHealth => exact (execCoreHealth_only ..).mono rfl
  | gnsSnapshot => exact (execGnsSnapshot_only ..).mono rfl
  | snapshotCaptureDone => exact (execSnapshotCaptureDone_only ..).mono rfl
  | evtStats => exact (execEvtStats_only ..).mono rfl
  | calRun => exact (execCalRun_only ..).mono rfl
  | calRunDone => exact (execCalRunDone_only ..).mono rfl
  | lanSlip => exact (execLanSlip_only ..).mono rfl
  | synApply => exact (execSynApply_only ..).mono rfl
  | synApplyDue => exact (execSynApplyDue_only ..).mono rfl
  | bandChangeEnd => exact (execBandChangeEnd_only ..).mono rfl
  | laserSwap => exact (execLaserSwap_only ..).mono rfl
  | laserSwapStart => exact (execLaserSwapStart_only ..).mono rfl
  | spareRouted => exact (execSpareRouted_only ..).mono rfl
  | logKeyPublic => exact (execLogKeyPublic_only ..).mono rfl
  | lifecycleSet => exact (execLifecycleSet_only ..).mono rfl
  | masterRelease => exact (execMasterRelease_only ..).mono rfl
  | hieTunnel => exact (execHieTunnel_only ..).mono rfl
  | hieFanout => exact (execHieFanout_only ..).mono rfl
  | tunnelTimeout => exact (execTunnelTimeout_only ..).mono rfl
  | hieRegistryRead => exact (execHieRegistryRead_only ..).mono rfl
  | shutterEnter => exact (execShutterEnter_only ..).mono rfl
  | shutterLeave => exact (execShutterLeave_only ..).mono rfl
  | stickyClear => exact (execStickyClear_only ..).mono rfl
  | wearGet => exact (execWearGet_only ..).mono rfl
  | faultRead => exact (execFaultRead_only ..).mono rfl
  | obsSnapshot => exact (execObsSnapshot_only ..).mono rfl
  | obsSnapshotDue => exact (execObsSnapshotDue_only ..).mono rfl
  | obsFreeze => exact (execObsFreeze_only ..).mono rfl
  | obsTraceRead => exact (execObsTraceRead_only ..).mono rfl
  | queueCreate => exact (execQueueCreate_only ..).mono rfl
  | queueDestroy => exact (execQueueDestroy_only ..).mono rfl
  | setSecRollover => exact (execSetSecRollover_only ..).mono rfl
  | leapSecond => exact (execLeapSecond_only ..).mono rfl
  | boundUpdate => exact (execBoundUpdate_only ..).mono rfl
  | expressStartTest => exact (execExpressStartTest_only ..).mono rfl
  | frameReceived => exact (execFrameReceived_only ..).mono rfl
  | frameAdmitted => exact (execFrameAdmitted_only ..).mono rfl
  | learnApply => exact (execLearnApply_only ..).mono rfl
  | ageingSweep => exact (execAgeingSweep_only ..).mono rfl
  | settleSweep => exact (execSettleSweep_only ..).mono rfl
  | fabricStep => exact (execFabricStep_only ..).mono rfl
  | lostGap => exact (execLostGap_only ..).mono rfl
  | stepRateMeasure => exact (execStepRateMeasure_only ..).mono rfl
  | paceMargin => exact (execPaceMargin_only ..).mono rfl
  | vcoreMismatch => exact (execVcoreMismatch_only ..).mono rfl
  | drainComplete => exact (execDrainComplete_only ..).mono rfl
  | shutterDrainExpiry => exact (execShutterDrainExpiry_only ..).mono rfl
  | pfcReceived => exact (execPfcReceived_only ..).mono rfl
  | pauseExpiry => exact (execPauseExpiry_only ..).mono rfl
  | pfcRepeat => exact (execPfcRepeat_only ..).mono rfl
  | frameTransmitStart => exact (execFrameTransmitStart_only ..).mono rfl
  | transmitComplete => exact (execTransmitComplete_only ..).mono rfl
  | portLinkDown => exact (execPortLinkDown_only ..).mono rfl
  | copyLaunch => exact (execCopyLaunch_only ..).mono rfl
  | copyAbandon => exact (execCopyAbandon_only ..).mono rfl
  | gateChange => exact (execGateChange_only ..).mono rfl
  | bankSwap => exact (execBankSwap_only ..).mono rfl
  | bankCopyDone => exact (execBankCopyDone_only ..).mono rfl
  | logSeal => exact (execSeal_only ..).mono rfl
  | sealSigned => exact (execSealSigned_only ..).mono rfl
  | spillMove => exact (execSpillMove_only ..).mono rfl
  | keyGenerated => exact (execKeyGenerated_only ..).mono rfl
  | wakeAdmitted => exact (execWakeAdmitted_only ..).mono rfl
  | rampEnd => exact (execRampEnd_only ..).mono rfl
  | powerGood => exact (execPowerGood_only ..).mono rfl
  | cdrLock => exact (execCdrLock_only ..).mono rfl
  | cdrLockLoss => exact (execCdrLockLoss_only ..).mono rfl
  | framing => exact (execFraming_only ..).mono rfl
  | framingLoss => exact (execFramingLoss_only ..).mono rfl
  | realignTimeout => exact (execRealignTimeout_only ..).mono rfl
  | slipStep => exact (execSlipStep_only ..).mono rfl
  | laneCalItemEnd => exact (execLaneCalItemEnd_only ..).mono rfl
  | ctleStep => exact (execCtleStep_only ..).mono rfl
  | laserBiasWarn => exact (execLaserBiasWarn_only ..).mono rfl
  | laserFailed => exact (execLaserFailed_only ..).mono rfl
  | synUnlock => exact (execSynUnlock_only ..).mono rfl
  | tsyncSend => exact (execTsyncSend_only ..).mono rfl
  | tsync => exact (execTsync_only ..).mono rfl
  | tdreq => exact (execTdreq_only ..).mono rfl
  | tdresp => exact (execTdresp_only ..).mono rfl
  | respTimeout => exact (execRespTimeout_only ..).mono rfl
  | tcal => exact (execTcal_only ..).mono rfl
  | ddmtdAverage => exact (execDdmtdAverage_only ..).mono rfl
  | ddmtdSettle => exact (execDdmtdSettle_only ..).mono rfl
  | slipHoldExpiry => exact (execSlipHoldExpiry_only ..).mono rfl
  | ptpSyncSend => exact (execPtpSyncSend_only ..).mono rfl
  | ptpUnicastRequest => exact (execPtpUnicastRequest_only ..).mono rfl
  | delayReq => exact (execDelayReq_only ..).mono rfl
  | grantExpiry => exact (execGrantExpiry_only ..).mono rfl
  | refselChange => exact (execRefselChange_only ..).mono rfl
  | gnsPulse => exact (execGnsPulse_only ..).mono rfl
  | refPpsEdge => exact (execRefPpsEdge_only ..).mono rfl
  | refFreqAbsent => exact (execRefFreqAbsent_only ..).mono rfl
  | activityLost => exact (execActivityLost_only ..).mono rfl
  | monitorReading => exact (execMonitorReading_only ..).mono rfl
  | holdoffExpiry => exact (execHoldoffExpiry_only ..).mono rfl
  | confirmExpiry => exact (execConfirmExpiry_only ..).mono rfl
  | wtrExpiry => exact (execWtrExpiry_only ..).mono rfl
  | pullEnd => exact (execPullEnd_only ..).mono rfl
  | acquireLock => exact (execAcquireLock_only ..).mono rfl
  | phWindowEnd => exact (execPhWindowEnd_only ..).mono rfl
  | coreSelfTest => exact (execCoreSelfTest_only ..).mono rfl
  | ckTbEdgeMissing => exact (execCkTbEdgeMissing_only ..).mono rfl
  | switchGapEnd => exact (execSwitchGapEnd_only ..).mono rfl
  | coreRecover => exact (execCoreRecover_only ..).mono rfl
  | crosslockSettle => exact (execCrosslockSettle_only ..).mono rfl
  | coreReturn => exact (execCoreReturn_only ..).mono rfl
  | navWord => exact (execNavWord_only ..).mono rfl
  | antBiasMeasure => exact (execAntBiasMeasure_only ..).mono rfl
  | acqCellFound => exact (execAcqCellFound_only ..).mono rfl
  | channelRelease => exact (execChannelRelease_only ..).mono rfl
  | dutySnapshot => exact (execDutySnapshot_only ..).mono rfl
  | evtEdge => exact (execEvtEdge_only ..).mono rfl
  | codeDensityEnd => exact (execCodeDensityEnd_only ..).mono rfl
  | vernierUnitChange => exact (execVernierUnitChange_only ..).mono rfl
  | calAutoTrigger => exact (execCalAutoTrigger_only ..).mono rfl
  | calItemEnd => exact (execCalItemEnd_only ..).mono rfl
  | tapStep => exact (execTapStep_only ..).mono rfl
  | trimStep => exact (execTrimStep_only ..).mono rfl
  | portResUpdate => exact (execPortResUpdate_only ..).mono rfl
  | arbitrationPoint => exact (execArbitrationPoint_only ..).mono rfl
  | scratchpadRequest => exact (execScratchpadRequest_only ..).mono rfl
  | tamperDetect => exact (execTamperDetect_only ..).mono rfl
  | wipeComplete => exact (execWipeComplete_only ..).mono rfl
  | helloSend => exact (execHelloSend_only ..).mono rfl
  | hello => exact (execHello_only ..).mono rfl
  | helloSilence => exact (execHelloSilence_only ..).mono rfl
  | join => exact (execJoin_only ..).mono rfl
  | joinRetry => exact (execJoinRetry_only ..).mono rfl
  | joinTimeout => exact (execJoinTimeout_only ..).mono rfl
  | joinAck => exact (execJoinAck_only ..).mono rfl
  | leave => exact (execLeave_only ..).mono rfl
  | statusSend => exact (execStatusSend_only ..).mono rfl
  | status => exact (execStatus_only ..).mono rfl
  | clientReport => exact (execClientReport_only ..).mono rfl
  | registryAgeing => exact (execRegistryAgeing_only ..).mono rfl
  | tunnelReq => exact (execTunnelReq_only ..).mono rfl
  | tunnelReply => exact (execTunnelReply_only ..).mono rfl
  | segmentTimeout => exact (execSegmentTimeout_only ..).mono rfl
  | managerLost => exact (execManagerLost_only ..).mono rfl
  | resetNRelease => exact (execResetNRelease_only ..).mono rfl
  | resetNAssert => exact (execResetNAssert_only ..).mono rfl
  | commandChannelReady => exact (execCommandChannelReady_only ..).mono rfl
  | railLoss => exact (execRailLoss_only ..).mono rfl
  | railRestored => exact (execRailRestored_only ..).mono rfl
  | dieTemperature => exact (execDieTemperature_only ..).mono rfl
  | watchdogExpiry => exact (execWatchdogExpiry_only ..).mono rfl
  | shutterCauseClear => exact (execShutterCauseClear_only ..).mono rfl
  | shutterEntered => exact (execShutterEntered_only ..).mono rfl
  | shutterLeft => exact (execShutterLeft_only ..).mono rfl
  | keelFrame => exact (execKeelFrame_only ..).mono rfl
  | wearSample => exact (execWearSample_only ..).mono rfl
  | windowFrame => exact (execWindowFrame_only ..).mono rfl
  | doorbell => exact (execDoorbell_only ..).mono rfl
  | hostTxFrame => exact (execHostTxFrame_only ..).mono rfl
  | hostTxWriteback => exact (execHostTxWriteback_only ..).mono rfl
  | hostRxDeliver => exact (execHostRxDeliver_only ..).mono rfl
  | msixInterrupt => exact (execMsixInterrupt_only ..).mono rfl
  | pcieLinkDown => exact (execPcieLinkDown_only ..).mono rfl
  | coreParityError => exact (execCoreParityError_only ..).mono rfl
  | domainPowerGoodLoss => exact (execDomainPowerGoodLoss_only ..).mono rfl
  | vcoreTransitionEnd => exact (execVcoreTransitionEnd_only ..).mono rfl
  | slicerStep => exact (execSlicerStep_only ..).mono rfl
  | synRelock => exact (execSynRelock_only ..).mono rfl
  | pcieLinkUp => exact (execPcieLinkUp_only ..).mono rfl

theorem exec_keeps {i : Instr} {s t : State} (h : exec i s = .next t) : Keeps s t := ((exec_only i s).next t h).keeps

end Sys2Proof.Machine
end

