-- ==== Sys2Proof/Laws/Reply.lean ====
section
/-! SUPPORT. Laws of what the command channel sends: what a final reply leaves in its session, and what a sticky fault sets. -/

namespace Sys2Proof.Machine

/-! ## Counters outside the counter set -/

/-- A counter that is not one of the counter set is raised modulo 2^48 (R451). -/
theorem State.count_plain (s : State) {b i : Nat} (n : Nat) (h : counterIndex b i = none) :
    s.count b i n = s.wr b i ((s.rd b i + n) % 2 ^ 48) := by
  unfold State.count; simp [h]

theorem State.rd_count_plain (s : State) {b i : Nat} (n c j : Nat) (h : counterIndex b i = none) (hc : c ≠ b) :
    (s.count b i n).rd c j = s.rd c j := by
  rw [State.count_plain s n h, State.rd_wr_base s hc]

@[simp] theorem counterIndex_refused (i : Nat) : counterIndex P.CMD_REFUSED_COUNT i = none := by simp [counterIndex, counterSet]
@[simp] theorem counterIndex_drop (i : Nat) : counterIndex P.CMD_NOTICE_DROP i = none := by simp [counterIndex, counterSet]
@[simp] theorem counterIndex_fault (i : Nat) : counterIndex P.HLT_FAULT_COUNT i = none := by simp [counterIndex, counterSet]
@[simp] theorem counterIndex_fast (i : Nat) : counterIndex P.CMD_FASTPATH_COUNT i = none := by simp [counterIndex, counterSet]
@[simp] theorem counterIndex_dup (i : Nat) : counterIndex P.CMD_DUP_COUNT i = none := by simp [counterIndex, counterSet]

theorem map_updBy_of {α β : Type} (key : α → Nat) (n : Nat) (f : α → α) (g : α → β) (h : ∀ x, g (f x) = g x) (xs : List α) :
    (updBy key n f xs).map g = xs.map g := by
  simp only [updBy, List.map_map]
  refine List.map_congr_left fun x _ => ?_
  simp only [Function.comp]
  split
  · exact h x
  · rfl

/-! ## Faults -/

/-- The bit of a sticky fault is set (R440). -/
theorem State.sticky_sets (s : State) (n d : Nat) : (s.sticky n d).rd P.HLT_STICKY = s.rd P.HLT_STICKY ||| 2 ^ n := by
  have hc : ((s.count P.HLT_FAULT_COUNT).orIn P.HLT_STICKY 0 (2 ^ n)).rd P.HLT_STICKY = s.rd P.HLT_STICKY ||| 2 ^ n := by
    unfold State.orIn
    rw [State.rd_wr_self, State.rd_count_plain s 1 _ _ (by simp) (by decide)]
  unfold State.sticky
  simp only
  split
  · exact hc
  · exact ((State.notice_only _ _ _).rd _ _ (by decide) (by decide)).trans hc

/-! ## What a reply leaves in its session -/

theorem findBy_updBy {α : Type} (key : α → Nat) (n : Nat) (f : α → α) (hf : ∀ x, key (f x) = key x) (xs : List α) :
    findBy key n (updBy key n f xs) = (findBy key n xs).map f := by
  induction xs with
  | nil => rfl
  | cons x xs ih =>
    by_cases h : key x = n
    · simp [findBy, updBy, h, hf]
    · simpa [findBy, updBy, h] using ih

theorem findBy_map_key {α : Type} (key : α → Nat) (n : Nat) (xs ys : List α) (h : xs.map key = ys.map key) :
    (findBy key n xs).isSome = (findBy key n ys).isSome := by
  have hk : ∀ zs : List α, (findBy key n zs).isSome = decide (n ∈ zs.map key) := by
    intro zs
    induction zs with
    | nil => rfl
    | cons z zs ih =>
      by_cases hz : key z = n
      · simp [findBy, hz]
      · have : ¬ n = key z := fun e => hz e.symm
        simpa [findBy, hz, this] using ih
  rw [hk, hk, h]

/-- What keeps the list of sessions keeps every session. -/
theorem Only.sessionUid {W : Option (List Nat)} {s t : State} (h : Only W s t) (hw : allows W F.sessions = false) (u : Nat) :
    (t.sessionUid u).isSome = (s.sessionUid u).isSome := by
  refine findBy_map_key Session.uid u _ _ ?_
  have := congrArg (List.map Prod.fst) (h.sessions hw)
  rwa [List.map_map, List.map_map] at this

theorem State.sessionUid_setSession (s : State) (u : Nat) (f : Session → Session) (hf : ∀ x, (f x).uid = x.uid) :
    (s.setSession u f).sessionUid u = (s.sessionUid u).map f := findBy_updBy Session.uid u f hf _

/-- The final reply of a request among the last 32 that the session started is kept (R41). -/
theorem Session.mem_keepReply (x : Session) (tag op : Nat) (p : Packet) (h : x.begun.contains (tag, op) = true) :
    (⟨tag, op, p⟩ : Stored) ∈ x.keepReply tag op p := by
  unfold Session.keepReply
  rw [if_pos h]
  exact List.mem_append_right _ (List.mem_singleton.mpr rfl)

@[simp] theorem State.writeIndex_cmd (s : State) (g index : Nat) : (s.writeIndex g index).cmd = s.cmd := by
  unfold State.writeIndex; split <;> rfl

@[simp] theorem State.writeReply_cmd (s : State) (n : Nat) (bs : List Byte) : (s.writeReply n bs).cmd = s.cmd := by
  unfold State.writeReply; split <;> simp

@[simp] theorem State.stamped_cmd (s : State) (p : Nat) : (s.stamped p).cmd = s.cmd := by
  unfold State.stamped; split
  · rw [State.count_plain _ _ (by decide)]; simp
  · rfl

@[simp] theorem State.nhpSend_cmd (s : State) (p type : Nat) (body : List Byte) : (s.nhpSend p type body).cmd = s.cmd := by
  unfold State.nhpSend; split
  · exact State.stamped_cmd ..
  · rfl

@[simp] theorem State.sendSegments_cmd (s : State) (p type id peer : Nat) (bs : List Byte) :
    (s.sendSegments p type id peer bs).cmd = s.cmd := by
  have h : ∀ (n : Nat) (l : List (Nat × List Byte)) (t : State), t.cmd = s.cmd →
      (l.foldl (fun t seg => t.nhpSend p type (tunnelBody id peer seg.1 n seg.2)) t).cmd = s.cmd := by
    intro n l
    induction l with
    | nil => exact fun _ h => h
    | cons x l ih => exact fun t h => ih _ (by simpa using h)
  exact h _ _ s rfl

/-- A packet sent changes no session. -/
@[simp] theorem State.sendPacket_sessions (s : State) (tr : Transport) (chan : Nat) (p : Packet) :
    (s.sendPacket tr chan p).cmd.sessions = s.cmd.sessions := by
  have hd : ∀ t : State, (t.deliver tr chan p).cmd.sessions = t.cmd.sessions := by
    intro t
    unfold State.deliver
    cases tr <;> simp only
    · split <;> simp
    · simp
    · split <;> simp
    · split <;> simp
  unfold State.sendPacket
  simp only [hd]
  split
  · rw [State.count_plain _ _ (by simp)]; simp
  · rfl

/-- The final reply of a request that the session has started frees its session and is kept for a repeat (R39, R41). -/
theorem State.finish_replied (s : State) (x : Session) (op : Nat) (rq : Request) (st : Nat) (pl : List Byte) (y : Session)
    (hy : s.sessionUid x.uid = some y) (hb : y.blocked = some rq.tag.toNat ∨ y.blocked = none)
    (hc : y.begun.contains (rq.tag.toNat, op) = true) : (s.finish (originOf x op rq) st pl).replied x op rq st pl := by
  have ho : s.sessionUid (originOf x op rq).uid = some y := hy
  have hz : ∀ p, (s.sendPacket rq.transport rq.chan p).sessionUid x.uid = some y := by
    intro p; rw [← hy]; simp [State.sessionUid]
  have hf : (s.finish (originOf x op rq) st pl).sessionUid x.uid = some { y with
      replies := y.keepReply rq.tag.toNat op ((originOf x op rq).packet st true pl),
      blocked := if y.blocked = some rq.tag.toNat then none else y.blocked } := by
    have h := State.sessionUid_setSession (s.sendPacket rq.transport rq.chan ((originOf x op rq).packet st true pl)) x.uid
      (fun z => { z with replies := z.keepReply rq.tag.toNat op ((originOf x op rq).packet st true pl),
                         blocked := if z.blocked = some rq.tag.toNat then none else z.blocked }) fun _ => rfl
    rw [hz] at h
    unfold State.finish
    rw [ho]
    exact h
  refine ⟨_, hf, ?_, y.mem_keepReply _ _ _ hc⟩
  rcases hb with hb | hb <;> simp [hb]

end Sys2Proof.Machine
end

