-- ==== Sys2Proof/Laws/Requests.lean ====
section
/-! SUPPORT. Laws of the intake: what a request that is taken up comes to, and when nothing waits. -/

namespace Sys2Proof.Machine

theorem findBy_key {α : Type} {key : α → Nat} {n : Nat} {xs : List α} {x : α} (h : findBy key n xs = some x) : key x = n := by
  have := List.find?_some h
  simpa using this

theorem findBy_mem {α : Type} {key : α → Nat} {n : Nat} {xs : List α} {x : α} (h : findBy key n xs = some x) : x ∈ xs :=
  List.mem_of_find?_eq_some h

/-- A session found by its number is found by its running number too, though perhaps not first. -/
theorem State.sessionUid_of_session {s : State} {n : Nat} {x : Session} (h : s.session n = some x) : (s.sessionUid x.uid).isSome = true := by
  simp only [State.sessionUid, findBy, List.find?_isSome]
  exact ⟨x, findBy_mem h, by simp⟩

theorem State.received_only (s : State) (rq : Request) : Only (some [F.cmd, F.rings]) s (s.received rq) := by
  unfold State.received
  exact Only.cond _ ((State.consume_only ..).mono rfl) (Only.refl _ _)

theorem State.consume_rd (s : State) (n b i : Nat) : (s.consume n).rd b i = s.rd b i := by
  unfold State.consume
  split
  · unfold State.writeIndex; split <;> rfl
  · rfl

theorem State.received_rd (s : State) (rq : Request) (b i : Nat) : (s.received rq).rd b i = s.rd b i := by
  unfold State.received; split
  · exact State.consume_rd ..
  · rfl

@[simp] theorem State.consume_cmd (s : State) (n : Nat) : (s.consume n).cmd = s.cmd := by
  unfold State.consume; split <;> simp

@[simp] theorem State.received_cmd (s : State) (rq : Request) : (s.received rq).cmd = s.cmd := by
  unfold State.received; split <;> simp

/-- What taking a request up leaves alone: everything but its session, its ring, and the count of the fast path. -/
theorem State.begun_only (s : State) (op : Nat) (rq : Request) (x : Session) :
    Only (some [F.cmd, F.rings, P.CMD_FASTPATH_COUNT]) s (s.begun op rq x) := by
  unfold State.begun
  simp only
  have h := (((State.received_only s rq).mono (W := some [F.cmd, F.rings, P.CMD_FASTPATH_COUNT]) rfl).setSession rfl x.uid
    (fun y => { y with last := s.clock }) fun _ => rfl).setSession rfl x.uid (fun y => y.noteStart rq.tag.toNat op) (fun _ => rfl)
    |>.setSession rfl x.uid (fun y => { y with blocked := some rq.tag.toNat }) fun _ => rfl
  exact Only.cond _ (h.count_plain rfl (by decide) 0 1) h

/-- A request that the session starts is among the last 32 that it started (R41). -/
theorem Session.begun_noteStart (x : Session) (tag op : Nat) : (x.noteStart tag op).begun.contains (tag, op) = true := by
  unfold Session.noteStart
  simp only
  rw [List.drop_append_of_le_length (by simp only [List.length_append, List.length_singleton]; omega)]
  simp

/-- The session of a request that is taken up waits for its reply, and the request is among the last 32 that it started. -/
theorem State.begun_session {s : State} {op : Nat} {rq : Request} {x : Session} (h : s.taken op rq x) :
    ∃ y, (s.begun op rq x).sessionUid x.uid = some y ∧ y.blocked = some rq.tag.toNat ∧
      y.begun.contains (rq.tag.toNat, op) = true := by
  obtain ⟨y, hy⟩ := Option.isSome_iff_exists.mp (State.sessionUid_of_session h.1.2.2.2.2.2.1)
  have h1 : (s.received rq).sessionUid x.uid = some y := by rw [← hy]; simp [State.sessionUid]
  have h2 : ((((s.received rq).setSession x.uid fun y => { y with last := s.clock }).setSession x.uid
      fun y => y.noteStart rq.tag.toNat op).setSession x.uid fun y => { y with blocked := some rq.tag.toNat }).sessionUid x.uid =
        some { ({ y with last := s.clock } : Session).noteStart rq.tag.toNat op with blocked := some rq.tag.toNat } := by
    rw [State.sessionUid_setSession _ _ _ (by intro _; rfl), State.sessionUid_setSession _ _ _ (by intro _; rfl),
      State.sessionUid_setSession _ _ _ (by intro _; rfl), h1]; rfl
  refine ⟨{ ({ y with last := s.clock } : Session).noteStart rq.tag.toNat op with blocked := some rq.tag.toNat }, ?_, rfl,
    Session.begun_noteStart ({ y with last := s.clock } : Session) rq.tag.toNat op⟩
  unfold State.begun
  simp only
  split
  · rw [State.count_plain _ _ (by simp)]; exact h2
  · exact h2

/-- Whether a request is breaking a privilege depends on its session's privilege only. -/
theorem State.breach_congr {s t : State} {x : Session} (h : t.sessPriv x.num = s.sessPriv x.num) (op : Nat) (b : List Byte) :
    t.breach x op b = s.breach x op b := by
  unfold State.breach
  rw [h]

theorem opFits_row {op v : Nat} {rq : Request} (h : opFits op v rq = true) :
    ∃ r, opRow op = some r ∧ r.since ≤ v ∧ r.sized rq.payload = true := by
  unfold opFits at h
  split at h
  · rename_i r hr; simp only [Bool.and_eq_true, decide_eq_true_eq] at h; exact ⟨r, hr, h.1, h.2⟩
  · cases h

/-- The packet of a request ring that carries the request is read from it. -/
theorem State.fromRing_carries {s : State} {op : Nat} {rq : Request} (hp : s.phase = .ready) (hc : s.carries rq = true) :
    (if rq.transport = .pcie then s.fromRing op rq else s.process op rq) = (s.received rq).process op rq := by
  by_cases htr : rq.transport = .pcie
  · rw [if_pos htr]
    unfold State.carries at hc
    simp only [htr, bne_self_eq_false, Bool.false_or] at hc
    split at hc
    · rename_i r2 hr2
      simp only [Bool.and_eq_true, decide_eq_true_eq, beq_iff_eq] at hc
      obtain ⟨⟨⟨⟨⟨h1, h2⟩, h3⟩, h4⟩, h5⟩, h6⟩ := hc
      unfold State.fromRing State.received
      simp only [hr2, h2, hp, h3, h5, h6, htr]
      rw [if_neg (by simp; omega)]
      simp
    · cases hc
  · rw [if_neg htr]
    unfold State.received
    rw [if_neg htr]

/-- A request that is taken up has its opcode's effect, and then what waits goes on. -/
theorem State.arrive_taken {s : State} {op : Nat} {rq : Request} {x : Session} {r : OpRow} (h : s.taken op rq x)
    (hr : opRow op = some r) (ho : op ≠ Op.SESSION_OPEN) :
    s.arrive op rq = (r.body (originOf x op rq) rq.payload (s.begun op rq x)).settle := by
  obtain ⟨⟨hp, hc, hm, hh, hl, hs, ht, hq, hv, hf, hb, hg, htag, hn, hd⟩, hbr, hfr⟩ := h
  obtain ⟨r', hr', hsince, hsized⟩ := opFits_row hf
  obtain rfl : r = r' := Option.some.inj (hr.symm.trans hr')
  have T := State.received_only s rq
  have hrd : ∀ b i, (s.received rq).rd b i = s.rd b i := State.received_rd s rq
  have hs' : (s.received rq).session rq.session.toNat = some x := by rw [← hs]; simp [State.session]
  have hq' : (s.received rq).sessState x.num = s.sessState x.num := hrd ..
  have hq3 : s.sessState x.num ≠ 3 ∨ op = Op.SESSION_PROVE ∨ closesSelf rq op = true := by
    simp only [State.serves, Bool.or_eq_true, Bool.and_eq_true, beq_iff_eq] at hq
    rcases hq with (h | h) | h
    · exact Or.inl (by omega)
    · exact Or.inr h.2
    · exact Or.inl (by omega)
  have hq2 : ¬ (s.sessState x.num = 2 ∧ ¬ closesSelf rq op = true) := by
    simp only [State.serves, Bool.or_eq_true, Bool.and_eq_true, beq_iff_eq] at hq
    rintro ⟨h2, h3⟩
    rcases hq with (h | h) | h
    · omega
    · omega
    · exact h3 h.2
  have hserve : (s.received rq).serving op rq = some x := by
    unfold State.serving
    rw [hs']
    simp only [ht, hq', true_and, if_pos hq3]
  have hout : x.outstanding = [] := by simp [Session.outstanding, hb, hg]
  have huse : rq.tag.toNat ∉ x.tagsInUse := by
    unfold Session.tagsInUse
    rw [hout]
    cases ho : x.opening with
    | none => simp
    | some o => rw [ho] at htag; simpa using fun e => (by simpa using htag : ¬ o.tag = rq.tag.toNat) e.symm
  have hdup : (x.replies.find? fun y => y.tag == rq.tag.toNat && y.op == op) = none := by
    rw [List.find?_eq_none]
    intro y hy
    have := List.all_eq_true.mp hd y hy
    simp only [Bool.not_eq_true', Bool.and_eq_false_iff] at this ⊢
    simpa [Bool.and_eq_true] using fun h1 => by simpa [h1] using this
  have hin : (s.received rq).intake op rq = .take x := by
    have hm' : ¬ (rq.transport = .mgmt ∧ ¬ (s.received rq).rdb P.CMD_MGMT_ENABLE = true) := by
      rintro ⟨h1, h2⟩
      exact h2 (by unfold State.rdb; rw [hrd]; exact hm h1)
    unfold State.intake
    simp only [T.phase rfl, hp, ne_eq, not_true_eq_false, if_false, hm', hh, ho, hl, hserve]
    unfold State.sessionIntake
    simp only [hv, hq', ne_eq, not_true_eq_false, if_false, if_neg hq2]
    simp [hr, Nat.not_lt.mpr hsince, hsized, huse, hout, hrd, Nat.not_le.mpr hn, hdup]
  have hproc : (s.received rq).process op rq = r.body (originOf x op rq) rq.payload (s.begun op rq x) := by
    unfold State.process
    rw [hin]
    simp only
    have htouch : (s.received rq).touch op rq = (s.received rq).setSession x.uid fun y => { y with last := s.clock } := by
      unfold State.touch
      rw [hserve, T.keeps.clock]
      simp only [hh, hl, Bool.and_self, if_true]
    rw [htouch]
    unfold State.admitRequest
    rw [if_neg (by simp [hb, hg])]
    generalize hu : (((s.received rq).setSession x.uid fun y => { y with last := s.clock }).setSession x.uid fun y =>
      y.noteStart rq.tag.toNat op) = u
    have hrd2 : ∀ b i, u.rd b i = s.rd b i := by subst hu; exact hrd
    have hu1 : u.sessState x.num = s.sessState x.num := hrd2 ..
    have hu2 : u.breach x op rq.payload = none := by rw [← hbr]; exact State.breach_congr (hrd2 ..) ..
    unfold State.start
    simp only [hu1, hu2, if_neg hq2]
    unfold State.perform
    rw [hr]
    simp only
    have hfr' : (u.setSession x.uid fun y => { y with blocked := some rq.tag.toNat }).coreFrozen op = false := by
      rw [← hfr]
      unfold State.coreFrozen State.frozenMaster
      exact congrArg (fun n => n.testBit (8 + (Config.servedBy op).val)) (hrd2 ..)
    rw [hfr']
    unfold State.begun
    simp only [hu]
    split <;> simp
  unfold State.arrive
  rw [State.fromRing_carries hp hc, hproc]

/-- A SESSION_OPEN that passes the header tests comes to the tests of R522. -/
theorem State.arrive_opens {s : State} {rq : Request} (h : s.opens rq) :
    s.arrive Op.SESSION_OPEN rq = (sessionOpen rq (s.received rq)).settle := by
  obtain ⟨hp, hc, hm, hh, hv, hl, hn⟩ := h
  unfold State.arrive
  rw [State.fromRing_carries hp hc]
  have hm' : rq.transport = .mgmt → (s.received rq).rdb P.CMD_MGMT_ENABLE = true := by
    unfold State.rdb; rw [State.received_rd]; exact hm
  have hin : (s.received rq).intake Op.SESSION_OPEN rq = .opens := by
    unfold State.intake
    simp [(State.received_only s rq).phase rfl, hp, hh, hv, hl, hn]
    exact hm'
  unfold State.process
  rw [hin]

/-! ## When nothing waits -/

/-- No packet waits for a reply ring, no request is unread, and no session has a request that waits. -/
def State.quiet (s : State) : Prop := s.cmd.mbx = [] ∧ s.cmd.unread = [] ∧ ∀ x ∈ s.cmd.sessions, x.backlog = []

theorem State.mbxRun_quiet {s : State} (h : s.cmd.mbx = []) : s.mbxRun = s := by
  unfold State.mbxRun
  have hk : ∀ (l : List Nat), (l.foldl (fun t n => t.mbxPump n (t.cmd.mbx.filter fun w => w.1 == n).length) s) = s := by
    intro l
    induction l with
    | nil => rfl
    | cons n l ih =>
      rw [List.foldl_cons]
      have : s.mbxPump n (s.cmd.mbx.filter fun w => w.1 == n).length = s := by rw [h]; rfl
      rw [this]
      exact ih
  exact hk _

theorem State.runnable_quiet {s : State} (h : s.quiet) : s.runnable = none := by
  have hk : ∀ l : List Session, (∀ x ∈ l, x.backlog = []) → (l.map Session.ready).foldl earlier none = none := by
    intro l
    induction l with
    | nil => exact fun _ => rfl
    | cons x l ih =>
      intro hl
      have hx : x.ready = none := by unfold Session.ready; rw [hl x (by simp)]; split <;> simp_all
      rw [List.map_cons, List.foldl_cons, hx]
      exact ih fun y hy => hl y (by simp [hy])
  exact hk _ h.2.2

/-- Where nothing waits, nothing goes on. -/
theorem State.settle_quiet {s : State} (h : s.quiet) : s.settle = s := by
  have hp : ∀ n, s.pump n = s := by
    intro n
    cases n with
    | zero => rfl
    | succ n =>
      unfold State.pump
      rw [State.runnable_quiet h]
      simp [State.readable, h.2.1]
  unfold State.settle
  rw [State.mbxRun_quiet h.1]
  exact hp _

end Sys2Proof.Machine
end

