-- ==== Sys2Proof/WellFormed.lean ====
section
/-! DEFINITION. Which commands are well formed: what the operands' types leave open and the spec bounds. The meanings are given for every
command; an ill-formed one is one that no interface of the module can bring. -/

namespace Sys2Proof

/-- A packet as its transport can bring it (R23, R419, R466): the mailbox pairs are 0 to 3 and a slot holds a header and at most 4,080 bytes;
SPI has one requester; a tunnel id is a 32-bit number. -/
def Request.wf (rq : Request) : Bool :=
  match rq.transport with
  | .pcie => decide (rq.chan < 4 ∧ rq.payload.length ≤ 4080)
  | .spi => decide (rq.chan = 0)
  | .mgmt => true
  | .nhp => decide (rq.chan < 2 ^ 32)

/-- A time that a count can show at a tick: an even number of nanoseconds below 2^64 (R54, R55). -/
def evenTick (n : Nat) : Bool := decide (n % 2 = 0 ∧ n < 2 ^ 64)

/-- What a stamp unit latches: a tick at each sampler, and a fine phase after it within the tick (R61, R62, R99). -/
def RawStamp.wf (r : RawStamp) : Bool := evenTick r.tick && evenTick r.late && decide (r.fine < 2000)

/-- What an item measures has the delays of its kind (R208): two for a lane, and the phase of its CK_LKT with them, four for the reference
inputs, else one; a standard deviation for each delay; and slicer codes and the 512 taps of a fine-delay line for a lane at most (R210). -/
def CalMeasure.wf (m : CalMeasure) (kind : Nat) : Bool :=
  m.delays.length == (if kind = 0 then 3 else if kind = 4 then 4 else 1) &&
    m.sigmas.length == (if kind = 0 then 2 else if kind = 4 then 4 else 1) &&
    decide (m.slicer.length ≤ 3) && (kind == 0 || m.slicer.isEmpty) && m.taps.length == (if kind = 0 then 512 else 0)

/-- A solution has at most the 64 satellites of the channels (R176), and one with no satellite gives no position (R178). -/
def GnssFix.wf (x : GnssFix) : Bool := (x.first :: x.more).all fun y => decide (y.used.length ≤ 64) && (y.used != [] || y.position.isNone)

/-- A message as NHP carries it: a header of 16 bytes and a body, in a frame of the ports (R407). -/
def nhpWf (msg : List Byte) : Bool := decide (16 ≤ msg.length ∧ msg.length ≤ 1500)

/-- Whether a command is well formed. -/
def Instr.wf : Instr → Bool
  | .sessionOpen rq => rq.wf
  | .sessionProve rq => rq.wf
  | .proofTimeout _ => true
  | .sessionClose rq => rq.wf
  | .sessionIdleTimeout _ => true
  | .sessionSet rq => rq.wf
  | .unknownOpcode op rq => rq.wf && (Machine.opRow op.toNat).isNone && op.toNat != Machine.Op.SESSION_OPEN
  | .spiReadTransfer => true
  | .paramRead rq => rq.wf
  | .paramWrite rq => rq.wf
  | .lckSwapTimeWrite rq _ _ => rq.wf && rq.payload.isEmpty
  | .lckAdmEntryWrite rq _ _ => rq.wf && rq.payload.isEmpty
  | .obsTagSeedWrite rq _ _ => rq.wf && rq.payload.isEmpty
  | .spdTamperSrcClear rq _ _ => rq.wf && rq.payload.isEmpty
  | .gnsAntBiasWrite rq _ _ => rq.wf && rq.payload.isEmpty
  | .cmdMgmtEnableWrite rq _ _ => rq.wf && rq.payload.isEmpty
  | .fabCommit rq => rq.wf
  | .prtCommit rq => rq.wf
  | .tblCommit rq => rq.wf
  | .lckCommit rq => rq.wf
  | .tbsCommit rq => rq.wf
  | .lnkCommit rq => rq.wf
  | .refCommit rq => rq.wf
  | .corCommit rq => rq.wf
  | .gnsCommit rq => rq.wf
  | .evtCommit rq => rq.wf
  | .lanCommit rq => rq.wf
  | .synCommit rq => rq.wf
  | .logCommit rq => rq.wf
  | .arbCommit rq => rq.wf
  | .hieCommit rq => rq.wf
  | .hstCommit rq => rq.wf
  | .commitNoShadow block rq => rq.wf && Machine.blockNumbers.contains block.toNat && !Machine.hasCommit block.toNat
  | .scheduledCommitDue block => Machine.hasCommit block.val
  | .sysInfo rq => rq.wf
  | .fabricEnable rq => rq.wf
  | .fabricDisable rq => rq.wf
  | .tblSearch rq => rq.wf
  | .tblNext rq => rq.wf
  | .tblInsert rq => rq.wf
  | .tblDelete rq => rq.wf
  | .tblFlushPort rq => rq.wf
  | .flushWalkEnd _ => true
  | .tblRehash rq => rq.wf
  | .rehashWalkEnd _ => true
  | .tblStreamWrite rq => rq.wf
  | .tblClearFlap rq => rq.wf
  | .drainFenceComplete _ => true
  | .streamEntryRewrite _ _ => true
  | .refAccept rq => rq.wf
  | .coreSwitch rq => rq.wf
  | .coreHealth rq => rq.wf
  | .gnsSnapshot rq => rq.wf
  | .snapshotCaptureDone l1 l5 _ _ => l1.length % 4 == 0 && l5.length % 4 == 0
  | .evtStats rq => rq.wf
  | .calRun rq => rq.wf
  | .calRunDone _ => true
  | .lanSlip rq => rq.wf
  | .synApply rq => rq.wf
  | .synApplyDue => true
  | .bandChangeEnd _ => true
  | .laserSwap rq => rq.wf
  | .laserSwapStart _ => true
  | .spareRouted _ => true
  | .logKeyPublic rq => rq.wf
  | .lifecycleSet rq => rq.wf
  | .masterRelease rq => rq.wf
  | .hieTunnel rq => rq.wf
  | .hieFanout rq => rq.wf
  | .tunnelTimeout => true
  | .hieRegistryRead rq => rq.wf
  | .shutterEnter rq => rq.wf
  | .shutterLeave rq => rq.wf
  | .stickyClear rq => rq.wf
  | .wearGet rq => rq.wf
  | .faultRead rq => rq.wf
  | .obsSnapshot rq => rq.wf
  | .obsSnapshotDue => true
  | .obsFreeze rq => rq.wf
  | .obsTraceRead rq => rq.wf
  | .queueCreate rq => rq.wf
  | .queueDestroy rq => rq.wf
  | .setSecRollover => true
  | .leapSecond => true
  | .boundUpdate _ => true
  | .expressStartTest _ bytes ended _ _ _ raw => raw.wf && (!ended || decide (bytes.length ≤ 128))
  | .frameReceived _ _ _ _ _ raw => raw.wf
  | .frameAdmitted _ => true
  | .learnApply _ => true
  | .ageingSweep _ => true
  | .settleSweep _ => true
  | .fabricStep faults _ => (faults.map Prod.fst).Nodup
  | .lostGap _ => true
  | .stepRateMeasure => true
  | .paceMargin => true
  | .vcoreMismatch => true
  | .drainComplete => true
  | .shutterDrainExpiry => true
  | .pfcReceived _ _ => true
  | .pauseExpiry _ _ => true
  | .pfcRepeat _ _ => true
  | .frameTransmitStart _ raw => raw.wf
  | .transmitComplete _ _ _ => true
  | .portLinkDown _ _ _ => true
  | .copyLaunch _ _ => true
  | .copyAbandon _ _ => true
  | .gateChange _ => true
  | .bankSwap _ => true
  | .bankCopyDone _ => true
  | .logSeal => true
  | .sealSigned => true
  | .spillMove => true
  | .keyGenerated => true
  | .wakeAdmitted => true
  | .rampEnd => true
  | .powerGood _ => true
  | .cdrLock _ _ _ => true
  | .cdrLockLoss _ => true
  | .framing _ _ _ => true
  | .framingLoss _ => true
  | .realignTimeout _ => true
  | .slipStep _ => true
  | .laneCalItemEnd _ m => m.wf 0
  | .ctleStep _ _ => true
  | .laserBiasWarn _ _ _ => true
  | .laserFailed _ _ _ powers => decide (powers.length ≤ 4)
  | .synUnlock _ => true
  | .tsyncSend _ raw1 => raw1.wf
  | .tsync _ body raw2 raw3 => raw2.wf && raw3.wf && decide (body.length ≤ 1484)
  | .tdreq _ _ raw4 => raw4.wf
  | .tdresp _ _ => true
  | .respTimeout _ => true
  | .tcal _ _ => true
  | .ddmtdAverage _ firsts runs => firsts != [] && decide (firsts.length = runs.length)
  | .ddmtdSettle _ => true
  | .slipHoldExpiry _ => true
  | .ptpSyncSend _ _ unicast tx => tx.wf && (match unicast with | none => true | some (clock, number) => decide (clock < 2 ^ 64 ∧ number < 2 ^ 16))
  | .ptpUnicastRequest _ _ _ _ _ _ _ => true
  | .delayReq _ _ _ rx tx => rx.wf && tx.wf
  | .grantExpiry _ _ => true
  | .refselChange _ => true
  | .gnsPulse x _ _ => x.wf
  | .refPpsEdge _ _ _ => true
  | .refFreqAbsent _ => true
  | .activityLost _ => true
  | .monitorReading _ _ _ _ => true
  | .holdoffExpiry _ => true
  | .confirmExpiry _ => true
  | .wtrExpiry => true
  | .pullEnd => true
  | .acquireLock _ nano => evenTick nano.val
  | .phWindowEnd => true
  | .coreSelfTest _ m => decide (m.dco ≤ 10000)
  | .ckTbEdgeMissing => true
  | .switchGapEnd => true
  | .coreRecover _ => true
  | .crosslockSettle _ => true
  | .coreReturn _ => true
  | .navWord _ _ _ _ bits _ data => decide (data.length = (bits.toNat + 7) / 8 ∧ data.length ≤ 80)
  | .antBiasMeasure _ => true
  | .acqCellFound _ _ _ _ _ _ => true
  | .channelRelease _ _ _ => true
  | .dutySnapshot capture => capture.l1.length == 1280000
  | .evtEdge _ _ tick _ => evenTick tick
  | .codeDensityEnd _ hits _ _ _ => hits.length == 512
  | .vernierUnitChange _ => true
  | .calAutoTrigger _ _ _ => true
  | .calItemEnd kind _ m => m.wf kind.val
  | .tapStep _ _ _ => true
  | .trimStep _ _ => true
  | .portResUpdate temps => (temps.map Prod.fst).Nodup
  | .arbitrationPoint faults => faults.all fun f => f.1.toNat % 8 == 0
  | .scratchpadRequest _ _ write beats data => data.length == (if write then 64 * (beats.val + 1) else 0)
  | .tamperDetect _ _ => true
  | .wipeComplete => true
  | .helloSend _ => true
  | .hello _ msg => nhpWf msg
  | .helloSilence _ => true
  | .join _ msg => nhpWf msg
  | .joinRetry => true
  | .joinTimeout => true
  | .joinAck _ msg => nhpWf msg
  | .leave _ msg => nhpWf msg
  | .statusSend => true
  | .status _ msg => nhpWf msg
  | .clientReport received => match received with | none => true | some (_, msg) => decide (16 ≤ msg.length)
  | .registryAgeing => true
  | .tunnelReq _ msg => nhpWf msg
  | .tunnelReply _ msg => nhpWf msg
  | .segmentTimeout => true
  | .managerLost => true
  | .resetNRelease _ _ => true
  | .resetNAssert => true
  | .commandChannelReady => true
  | .railLoss _ _ => true
  | .railRestored _ _ _ _ => true
  | .dieTemperature _ _ => true
  | .watchdogExpiry _ => true
  | .shutterCauseClear _ => true
  | .shutterEntered => true
  | .shutterLeft => true
  | .keelFrame _ _ raw => raw.wf
  | .wearSample kind index _ => decide (index.val < Machine.wearObjects kind.val)
  | .windowFrame => true
  | .doorbell g _ => decide (g < 168)
  | .hostTxFrame _ slot _ => slot.length == 16 || slot.length == 32
  | .hostTxWriteback _ => true
  | .hostRxDeliver _ slot => slot.length == 16 || slot.length == 32
  | .msixInterrupt _ => true
  | .pcieLinkDown => true
  | .coreParityError _ => true
  | .domainPowerGoodLoss _ => true
  | .vcoreTransitionEnd _ => true
  | .slicerStep _ _ _ => true
  | .synRelock _ => true
  | .pcieLinkUp _ _ _ => true

end Sys2Proof
end

