-- ==== Sys2Proof/Tests/Slice0.lean ====
section
/-! SUPPORT. Tests: the ill-formed commands that WellFormed refuses, worked examples of the spec, and for every statement with hypotheses
concrete states and operands that meet them, one conjunct for each clause and for the values where its cases meet. -/

section Tests

set_option Elab.async false

namespace Sys2Proof.Machine

/-- A session of the SPI transport with number 1. -/
def Sample.sess : Session := ⟨1, 0, .spi, 0, 3, 0, 0, [], 0, none, none, [], [(7, 9), (7, Op.OBS_SNAPSHOT)], [], 0⟩

/-- A module with a ready command channel and the open SECURITY session `Sample.sess`, and the registers given. -/
def Sample.state (l : List ((Nat × Nat) × Nat)) : State :=
  (((P.CMD_SESSION_STATE, 0), 1) :: ((P.CMD_SESSION_PRIV, 0), 3) :: l).foldl (fun (s : State) (e : (Nat × Nat) × Nat) => s.wr e.1.1 e.1.2 e.2)
    { State.reset with phase := .ready, cmd := { State.reset.cmd with sessions := [Sample.sess], nextUid := 1 } }

/-- A request with the header check that its fields make (R27). -/
def Sample.fixed (op : Nat) (rq : Request) : Request :=
  { rq with check := BitVec.ofNat 16 (65535 - onesSum (requestHead rq op ++ [0, 0])) }

/-- A request of `Sample.sess` with a payload. -/
def Sample.rq (op : Nat) (p : List Byte) : Request :=
  Sample.fixed op ⟨.spi, 0, 3, 0, 7, 1, BitVec.ofNat 16 p.length, 0, 0, p⟩

/-- A PARAM_COMMIT whose block number stands before the bytes given, and a PARAM_WRITE whose one entry is not yet there. -/
def Sample.commit (p : List Byte) : Request := Sample.fixed Op.PARAM_COMMIT ⟨.spi, 0, 3, 0, 7, 1, 12, 0, 0, p⟩
def Sample.write : Request := Sample.fixed Op.PARAM_WRITE ⟨.spi, 0, 3, 0, 7, 1, 16, 0, 0, []⟩

/-- A SESSION_OPEN on SPI with the version bitmap, the privilege and the mask of no notice. -/
def Sample.open (bitmap priv : Nat) : Request :=
  Sample.fixed Op.SESSION_OPEN ⟨.spi, 0, 1, 0, 7, 0, 12, 0, 0, toBe 1 bitmap ++ toBe 1 priv ++ zeros 10⟩

/-- A frame of 64 bytes that entered at inlet 2 for port 8 of outlet 1. -/
def Sample.frame : Frame :=
  ⟨0, 2, 1, ⟨0, 0, 0, 0⟩, 16, 0, 64, 0, 0, 0, 8, 0, 0, 0, 0, false, zeros 64, true, false, false, false, none, none, none, none, 0, false, 0⟩

/-- A learned entry of VLAN 7 on port 5, and a state whose reach 2 holds it in its stash. -/
def Sample.entry : MacEntry := ⟨7, 0x20000000001, false, false, 0, true, 0, 5, 0, 0, 0, 0, true⟩
def Sample.table (s : State) : State := { s with tables := { s.tables with mac := [((2, 262145), some Sample.entry)] } }

/-- A reach 2 in which the station of `Sample.entry` has no place. -/
def Sample.fullTable : State :=
  ((List.range 4).map (fun k => bankSlot ((Sample.state []).rd P.TBL_SEED 2) k 7 0x20000000001) ++ stashSlots).foldl
    (fun s i => s.macSet 2 i (some { Sample.entry with vid := 9 })) (Sample.state [((P.TBL_CUCKOO_MAX, 0), 0)])

/-- A frame to the station of `Sample.entry`, and a reach 0 that holds that entry under VLAN 1. -/
def Sample.toEight : List Byte := toBe 6 0x20000000001 ++ zeros 122
def Sample.unicast (s : State) : State :=
  { s with tables := { s.tables with mac := [((0, 262145), some { Sample.entry with vid := 1 })] } }

/-- A MAC control frame with the bytes after its EtherType. -/
def Sample.control (body : List Byte) : List Byte := withFcs (toBe 6 0x0180C2000001 ++ zeros 6 ++ [0x88, 0x08] ++ body)

/-- A copy of `Sample.frame` on port 16, and states in which it waits there, is being sent, or waits in the release queue. -/
def Sample.copy : Copy := ⟨0, 0, 16, 0, 0, 64, none, none, none, false, none⟩
def Sample.egress (s : State) : State :=
  { s with
    fabric := { s.fabric with frames := [Sample.frame] },
    quay := { s.quay with copies := [Sample.copy], buffers := [⟨0, 0, 1, 0, 64⟩], nextCopy := 1 } }
def Sample.sending (s : State) : State :=
  let t := Sample.egress s
  { t with quay := { t.quay with sending := [⟨16, 0, ⟨0, 0, 0, 0⟩⟩] } }
def Sample.locked (k : LockCopy) : Copy := { Sample.copy with lock := some k, hold := some 10 }
def Sample.release (s : State) (k : LockCopy) : State :=
  let t := Sample.egress s
  { t with quay := { t.quay with copies := [Sample.locked k] } }

/-- A time link on port 16 in the role and link state given, and the IEEE 1588 service on port 16 in the mode given. -/
def Sample.timing (role st : Nat) : State :=
  Sample.state [((P.HIE_ENABLE, 0), 1), ((P.PRT_LINK_UP, 16), 1), ((P.LNK_ROLE, 16), role), ((P.LNK_CLASS, 4), 1),
    ((P.LNK_STATE, 16), st), ((P.HIE_PORT_VERSION, 16), 2), ((P.LAN_STATE, 16), 4)]
def Sample.ptp (mode : Nat) : State := Sample.state [((P.LNK_PTP_PORT_EN, 16), mode), ((P.PRT_LINK_UP, 16), 1)]

/-- A receiver that runs in the position mode given, and one with a capture of some milliseconds and an action under way. -/
def Sample.gnss (mode : Nat) : State :=
  let s := Sample.state [((P.GNS_ENABLE, 0), 1), ((P.PWR_DOMAIN_STATE, 3), 3), ((P.PWR_DOMAIN_STATE, 1), 3), ((P.GNS_SHUTTER_DUTY, 0), 1), ((P.GNS_ACQ_THRESH, 0), 9)]
  { s with gnss := { s.gnss with renew := false, mode := mode } }
def Sample.capture (ms action : Nat) : Capture := ⟨originOf Sample.sess 9 (Sample.rq 9 []), ms, 1, action, 0, 0⟩
def Sample.capturing (ms action : Nat) : State :=
  { Sample.gnss 1 with gnss := { (Sample.gnss 1).gnss with capture := some (Sample.capture ms action) } }

/-- Event input 2 taking rising edges, and a calibration run of a scope and its items under way. -/
def Sample.event : State :=
  let s := Sample.state [((P.EVT_ENABLE, 2), 1), ((P.PWR_DOMAIN_STATE, 11), 3), ((P.PWR_DOMAIN_STATE, 1), 3), ((P.EVT_RING, 2), 3), ((P.HST_RING_STATE, 147), 1),
    ((P.HST_LINK_WIDTH, 0), 4), ((P.EVT_ACC_MODE, 0), 1), ((P.EVT_ACC_A, 0), 2), ((P.EVT_ACC_N, 0), 5)]
  { s with rings := [⟨147, 0, 0, 4096, 64, 0, 0, 0, 0, 0, false⟩] }
def Sample.calRun (scope : Nat) (todo : List CalItem) : CalRun :=
  ⟨originOf Sample.sess 9 (Sample.rq 9 []), scope, todo, 0, 0, 0, 0, []⟩
def Sample.calibrating (scope : Nat) (todo : List CalItem) : State :=
  let s := Sample.state [((P.PWR_DOMAIN_STATE, 11), 3), ((P.PWR_DOMAIN_STATE, 1), 3)]
  { s with cal := { s.cal with run := some (Sample.calRun scope todo) } }

/-- A swap of laser 2 of engine 3, before or after its lanes went down. -/
def Sample.swap (down : Option Nat) : Swap := ⟨3, 2, originOf Sample.sess 9 (Sample.rq 9 []), 0, down, false, []⟩

/-- NHP on port 16 with the member state given, the same with its parent heard there, and a manager with the registry given. -/
def Sample.member (q : Nat) : State :=
  Sample.state [((P.HIE_ENABLE, 0), 1), ((P.PRT_LINK_UP, 16), 1), ((P.HIE_PORT_EN, 16), 1), ((P.HIE_PORT_VERSION, 16), 3),
    ((P.HIE_PORT_STATE, 16), 1), ((P.HIE_MEMBER_STATE, 0), q), ((P.HIE_PARENT_PORT, 0), 16), ((P.HIE_VERSIONS, 0), 6)]
def Sample.heard (q : Nat) : State :=
  let s := Sample.member q
  { s with nhp := { s.nhp with heard := [⟨16, 0, 0, 2, false, 7, 0, 0, 9, 1⟩] } }
def Sample.registry (l : List RegEntry) : State :=
  let s := Sample.member 5
  { s with nhp := { s.nhp with registry := l } }
def Sample.worker : RegEntry := ⟨1, 1, 2, 0, 9, 0, 0xFFFF, 1, 0, 0, 0, 0⟩
/-- A manager that hears `Sample.worker` on port 16. -/
def Sample.tree : State :=
  let s := Sample.registry [Sample.worker]
  { s with nhp := { s.nhp with children := [⟨9, 16, 0, 0⟩] } }
def Sample.tunnel : Tunnel := ⟨8, originOf Sample.sess 9 (Sample.rq 9 []), false, [], 7, [], [⟨4, 0, 0⟩], 1, 0, 0, 0⟩

/-- An NHP message of a type and body from the sender 9, port 1. -/
def Sample.nhp (type : Nat) (body : List Byte) : List Byte :=
  toBe 1 2 ++ toBe 1 type ++ toBe 2 body.length ++ toBe 8 9 ++ toBe 2 1 ++ [8, 0] ++ body

/-- A ring of 64 slots from address 4096 with 4 of them in use and vector 4, an active link with that ring, the same with port 16 up, and
with a frame that waits for receive queue 3 under trap entry 5. -/
def Sample.ring (g : Nat) : Ring := ⟨g, 2, 4, 4096, 64, 2048, 0, 5, 7, 3, false⟩
def Sample.host (g : Nat) : State := ((Sample.state [((P.HST_LINK_WIDTH, 0), 8)]).makeRing (Sample.ring g))
def Sample.hostUp (g : Nat) : State := (Sample.host g).wr P.PRT_LINK_UP 16 1
def Sample.hostFrame : Frame :=
  ⟨0, 0, 2, ⟨0, 0, 255, 0⟩, 16, 0, 64, 0, 0, 0, 16, 65535, 0, 0, 0, false, withFcs (zeros 60), true, false, false, false, none, none,
    some (0, 0), some (3, 0), 0, false, 0⟩
def Sample.hostCopy : Copy := ⟨0, 0, 0, 0, 0, 64, none, none, some (3, 5), false, none⟩
def Sample.trapped (g : Nat) : State :=
  let s := Sample.host g
  { s with fabric := { s.fabric with frames := [Sample.frame] }, quay := { s.quay with copies := [Sample.hostCopy], nextCopy := 1 } }

/-- Sixteen open sessions. -/
def Sample.full : State :=
  (List.range 16).foldl (fun (s : State) (k : Nat) => s.wr P.CMD_SESSION_STATE k 1)
    { State.reset with
      phase := .ready,
      cmd := { State.reset.cmd with
        sessions := (List.range 16).map fun k => ⟨k + 1, k, .spi, 0, 3, 0, 0, [], 0, none, none, [], [], [], 0⟩, nextUid := 16 } }

theorem Sample.legal_of {s : State} (ha : ∀ x ∈ s.cmd.sessions, 1 ≤ x.num ∧ x.num ≤ 16 ∧ x.uid < s.cmd.nextUid)
    (hn : (s.cmd.sessions.map Session.num).Nodup) (hu : (s.cmd.sessions.map Session.uid).Nodup)
    (hq : ∀ n < 17, 1 ≤ n → (s.sessState n = 0 ↔ ∀ x ∈ s.cmd.sessions, x.num ≠ n))
    (hs : ∀ e ∈ s.shadows, e.1.1 ≠ P.CMD_SESSION_STATE) : s.sessionsLegal :=
  ⟨ha, hn, hu, fun n a b => hq n (by omega) a, hs⟩

theorem Sample.legal : (Sample.state []).sessionsLegal :=
  Sample.legal_of (by decide +kernel) (by decide +kernel) (by decide +kernel) (by decide +kernel) (by decide +kernel)

theorem Sample.full_legal : Sample.full.sessionsLegal :=
  Sample.legal_of (by decide +kernel) (by decide +kernel) (by decide +kernel) (by decide +kernel) (by decide +kernel)

theorem Sample.taken_of {s : State} {op : Nat} {rq : Request} {x : Session} (h : s.reached op rq x)
    (hb : s.breach x op rq.payload = none) (hf : ∀ k : Fin 3, s.frozenMaster (8 + k.val) = false) : s.taken op rq x :=
  ⟨h, hb, hf _⟩

end Sys2Proof.Machine

/-! ## Well-formedness refuses -/

namespace Sys2Proof

open Machine

/-- A packet of 0 bytes on a transport and channel. -/
def Sample.packet (tr : Transport) (chan : Nat) (payload : List Byte) : Request := ⟨tr, chan, 3, 0, 7, 1, 0, 0, 0, payload⟩
def Sample.fix (sats : List GnssSat) (at_ : Option (Int × Int × Int)) : GnssFix := ⟨0, ⟨0, 0, sats, at_⟩, [], none, []⟩
def Sample.measure (delays sigmas : List Nat) (slicer : List Int) : CalMeasure := ⟨true, false, 250, delays, sigmas, 0, 0, slicer, []⟩

theorem test_wf_mailbox : (Instr.sysInfo (Sample.packet .pcie 4 [])).wf = false ∧ (Instr.sysInfo (Sample.packet .pcie 3 [])).wf = true := by
  decide
theorem test_wf_long_packet : (Instr.sysInfo (Sample.packet .pcie 0 (zeros 4081))).wf = false := by decide +kernel
theorem test_wf_spi_channel : (Instr.sysInfo (Sample.packet .spi 1 [])).wf = false := by decide
theorem test_wf_tunnel_id : (Instr.sysInfo (Sample.packet .nhp (2 ^ 32) [])).wf = false := by decide
theorem test_wf_unknown_opcode : (Instr.unknownOpcode 0x0211 (Sample.packet .spi 0 [])).wf = false := by decide +kernel
theorem test_wf_single_write : (Instr.lckSwapTimeWrite (Sample.packet .spi 0 [1]) 0 0).wf = false := by decide
theorem test_wf_commit_no_shadow : (Instr.commitNoShadow 0x10 (Sample.packet .spi 0 [])).wf = false := by decide +kernel
theorem test_wf_commit_due : (Instr.scheduledCommitDue 0x60).wf = false := by decide +kernel
theorem test_wf_capture : (Instr.snapshotCaptureDone [1] [] none 0).wf = false := by decide
theorem test_wf_start_test : (Instr.expressStartTest 0 (zeros 129) true false false false ⟨0, 0, 0, 0, 0⟩).wf = false := by decide +kernel
theorem test_wf_stamp_odd_tick : (Instr.frameReceived 0 [] false false false ⟨1, 0, 0, 0, 0⟩).wf = false := by decide
theorem test_wf_stamp_fine : (Instr.frameReceived 0 [] false false false ⟨2, 2000, 0, 0, 0⟩).wf = false := by decide
theorem test_wf_step_faults : (Instr.fabricStep [(1, .corrected), (1, .uncorrectable 0)] []).wf = false := by decide
theorem test_wf_laser_powers : (Instr.laserFailed 0 0 0 [1, 2, 3, 4, 5]).wf = false := by decide
theorem test_wf_tsync_body : (Instr.tsync 0 (zeros 1485) ⟨0, 0, 0, 0, 0⟩ ⟨0, 0, 0, 0, 0⟩).wf = false := by decide +kernel
theorem test_wf_ptp_partner : (Instr.ptpSyncSend 0 false (some (2 ^ 64, 0)) ⟨0, 0, 0, 0, 0⟩).wf = false := by decide
theorem test_wf_lock_tick : (Instr.acquireLock 0 1).wf = false := by decide
theorem test_wf_tuning_word : (Instr.coreSelfTest 0 ⟨0, 10001, 0, 0, []⟩).wf = false := by decide
theorem test_wf_nav_word : (Instr.navWord 0 0 true false 9 0 [1]).wf = false := by decide
theorem test_wf_edge_tick : (Instr.evtEdge 0 true 3 0).wf = false := by decide
theorem test_wf_code_hits : (Instr.codeDensityEnd 0 [1] 0 0 0).wf = false := by decide
theorem test_wf_lane_temps : (Instr.portResUpdate [(1, 0), (1, 5)]).wf = false := by decide
theorem test_wf_ecc_word : (Instr.arbitrationPoint [(4, true)]).wf = false := by decide
theorem test_wf_burst_data : (Instr.scratchpadRequest 0 0 true 0 [1]).wf = false := by decide +kernel
theorem test_wf_client_report : (Instr.clientReport (some (0, [1]))).wf = false := by decide
theorem test_wf_nhp : (Instr.hello 0 (zeros 15)).wf = false ∧ (Instr.hello 0 (zeros 16)).wf = true := by decide
theorem test_wf_fix : (Instr.gnsPulse (Sample.fix [] (some (1, 2, 3))) 0 0).wf = false := by decide
theorem test_wf_measure_delays : (Instr.calItemEnd 1 0 (Sample.measure [1, 2] [1, 2] [])).wf = false := by decide
theorem test_wf_measure_sigmas : (Instr.calItemEnd 1 0 (Sample.measure [1] [1, 2] [])).wf = false := by decide
theorem test_wf_measure_slicer : (Instr.calItemEnd 1 0 (Sample.measure [1] [1] [3])).wf = false := by decide
theorem test_wf_measure_taps : (Instr.laneCalItemEnd 0 (Sample.measure [1, 2, 3] [1, 2] [])).wf = false := by decide
theorem test_wf_beats : (Instr.ddmtdAverage 0 [] []).wf = false := by decide
theorem test_wf_duty : (Instr.dutySnapshot ⟨[1], none⟩).wf = false := by decide
theorem test_wf_stamp_late : (Instr.tsyncSend 0 ⟨2, 0, 0, 3, 0⟩).wf = false := by decide
theorem test_wf_fix_sats : (Instr.gnsPulse (Sample.fix (List.replicate 65 ⟨7, 0, 1, 0⟩) none) 0 0).wf = false := by decide +kernel
theorem test_wf_wear_index : (Instr.wearSample 2 2 0).wf = false := by decide
theorem test_wf_ring_number : (Instr.doorbell 168 0).wf = false := by decide
theorem test_wf_slot : (Instr.hostTxFrame 0 (zeros 17) none).wf = false := by decide +kernel

/-- The table gives no row a bit (opcode_table.json), so no word spells a command. -/
theorem test_no_word : decodeTableWord 16 0x0211 = none := rfl

end Sys2Proof

/-! ## Worked examples of the spec -/

namespace Sys2Proof.Machine

/-- The worked example of 02_command_channel.md: session 5 of version 3 on MGMT writes CMD_SESSION_IDLE and CMD_MGMT_UDP_PORT. -/
def Sample.exampleWrite : Request :=
  ⟨.mgmt, 9, 3, 0, 0x2A, 5, 0x20, 0, 0xFA9F,
    toBe 3 P.CMD_SESSION_IDLE ++ zeros 5 ++ toBe 8 120 ++ toBe 3 P.CMD_MGMT_UDP_PORT ++ zeros 5 ++ toBe 8 6600⟩
def Sample.exampleState : State :=
  [((P.CMD_SESSION_STATE, 4), 1), ((P.CMD_SESSION_PRIV, 4), 2), ((P.CMD_MGMT_ENABLE, 0), 1)].foldl
    (fun (s : State) (e : (Nat × Nat) × Nat) => s.wr e.1.1 e.1.2 e.2)
    { State.reset with
      phase := .ready,
      cmd := { State.reset.cmd with sessions := [⟨5, 0, .mgmt, 9, 3, 0, 0, [], 0, none, none, [], [(0x2A, 0x0211)], [], 0⟩], nextUid := 1 } }

/-- R27: the header check of the example's request. -/
theorem test_example_header : headerChecks Sample.exampleWrite 0x0211 = true := by decide +kernel

/-- R12, R46: the second entry is refused FIELD_LIVE_BLOCKED, neither is applied, and the reply names entry 1 and the status. The
effect of the opcode itself is tested, since which firmware core serves it is not stated. -/
theorem test_example_write :
    let t := paramWrite ⟨0, .mgmt, 9, 5, 3, 0x0211, 0x2A⟩ Sample.exampleWrite.payload Sample.exampleState
    t.rd P.CMD_SESSION_IDLE = 60 ∧
      ((t.sessionUid 0).any fun y => y.replies.any fun r => r.tag == 0x2A && r.pkt.status == 0x0305 && r.pkt.payload == [0, 1, 3, 5]) =
        true := by
  decide +kernel

/-- R65: the bounds of the worked examples of 03_timebase_and_stamping.md and 05_references_and_holdover.md, and their codes. -/
theorem test_example_bounds : boundCode 22336 = 116 ∧ boundCode 4000 = 96 ∧ boundCode 10036 = 107 ∧ boundCode 42000 = 123 := by
  decide +kernel

/-- R71: 92,682 ps is the decoded value of code 132, and 100,000 ps the limit below which no stamp is OVER_LIMIT. -/
theorem test_example_over_limit : overLimit 132 100000 = false ∧ overLimit 133 100000 = true := by decide +kernel

/-- R506, R509: the elements and the signed field of the worked example of 22_parameter_map.md. -/
theorem test_example_element : (elementOf 0x114446 0).map Prod.snd = some 0x446 ∧ sgn 4 0xC = -4 := by decide +kernel

/-- R372: 23 + 19/25 gives 11.88 GHz in the worked example of 15_lanes_optics_and_synthesizers.md. -/
theorem test_example_plan : planKhz (23 * 25 + 19, 25) = 11880000 := by decide +kernel

/-- R54, R55: the carry into seconds. -/
theorem test_tick_carries : (TimeCount.mk 5 999999998).tick = ⟨6, 0⟩ := by decide

/-- R257: the frame check of the string 123456789 (the check value of the CRC-32 of IEEE 802.3). -/
theorem test_crc : crc32 [0x31, 0x32, 0x33, 0x34, 0x35, 0x36, 0x37, 0x38, 0x39] = 0xCBF43926 := by decide +kernel

/-- R29: a SESSION_OPEN takes the lowest free number, here 2. -/
theorem test_session_open :
    (match exec (.sessionOpen (Sample.open 7 2)) (Sample.state []) with
      | .next t => t.sessState 2 == 1 && t.sessPriv 2 == 2 && t.cmd.sessions.length == 2
      | _ => false) = true := by decide +kernel

/-- R442: the first fault fills the record and a second one adds to it. -/
theorem test_first_fault :
    (match exec (.watchdogExpiry 1) (Sample.state []) with
      | .next t => (match exec (.railLoss 3 500) t with
          | .next u => u.fault.map (fun f => (f.fbit, f.detail, f.count)) == some (19, 1, 2)
          | _ => false)
      | _ => false) = true := by decide +kernel

/-- R430: the first step of the worked example of 18_power_startup_and_health.md: PD6 is admitted and PD7 to PD10 wait. -/
theorem test_example_wake :
    let t := shutterLeave (originOf Sample.sess Op.SHUTTER_LEAVE (Sample.rq Op.SHUTTER_LEAVE [])) []
      (Sample.state [((P.PWR_SHUTTER_STATE, 0), 2), ((P.PWR_SHUTTER_CAUSE, 0), 8)])
    [6, 7, 8, 9, 10].map (fun d => t.rd P.PWR_DOMAIN_STATE d) = [2, 1, 1, 1, 1] ∧ t.rd P.PWR_WAKE_QUEUE_LEN = 4 ∧
      t.rd P.PWR_WAKE_SLOPE = 37 := by
  decide +kernel

end Sys2Proof.Machine

/-! ## The hypotheses of the statements are met

Each conjunct applies the hypotheses of one clause of `Obligations.<name>` to a state and operands. -/

set_option linter.unusedVariables false

namespace Sys2Proof.Machine

theorem test_meets_StepRunsFrontCommand :
    (fun (c : Instr) (rest : List Instr) (s : State) =>
      s.pending = c :: rest)
      (.logSeal) ([.rampEnd]) ({ (Sample.state []) with pending := [.logSeal, .rampEnd] }) :=
  by decide +kernel

theorem test_meets_IdleStepIsATick :
    ((fun (s : State) (lead : Int) =>
      s.pending = [] ∧
      lead = s.time.lead + s.pulled s.clock (s.clock + 2))
      ((Sample.state [])) (0)) ∧
    ((fun (s : State) =>
      s.rd P.REF_TSTATE ≠ 3)
      ((Sample.state []))) ∧
    ((fun (x : TimeCount) =>
      x.sec + 1 < 2 ^ 48 ∧
      x.nano < 1000000000 ∧
      x.nano % 2 = 0)
      (⟨5, 999999998⟩)) :=
  by beta_reduce; and_intros <;> decide +kernel

theorem test_meets_StepKeepsCanonicalForm :
    (fun (s t : State) =>
      s.canonicalForm ∧
      step s = .next t)
      ((Sample.state [])) ({ (Sample.state []) with clock := 2, time := { State.reset.time with out := ⟨0, 2⟩ } }) :=
  ⟨by refine ⟨?_, ?_, ?_⟩ <;> decide, by rfl⟩

theorem test_meets_ModuleTimeMovesOnlyBySteps :
    (fun (c : Instr) (s : State) =>
      ((c ≠ .setSecRollover ∧ (∀ a b, c ≠ .acquireLock a b) ∧ (∀ p h, c ≠ .resetNRelease p h) ∧
      c ≠ .resetNAssert ∧ (∀ r v, c ≠ .railLoss r v) ∧ (∀ r v p h, c ≠ .railRestored r v p h) ∧
      ∀ d, c ≠ .domainPowerGoodLoss d)))
      (.rampEnd) ((Sample.state [])) :=
  by refine ⟨?_, ?_, ?_, ?_, ?_, ?_, ?_⟩ <;> intros <;> exact nofun

theorem test_meets_TrailerCheckSums :
    (fun (rx : Stamp) (port : Nat) (b : List Byte) (n : Nat) =>
      trailer rx port = b ∧
      n = ((List.range 7).map fun i => beAt (2 * i) 2 b).sum)
      (⟨5, 6, 7, 8⟩) (9) (trailer ⟨5, 6, 7, 8⟩ 9) (((List.range 7).map fun i => beAt (2 * i) 2 (trailer ⟨5, 6, 7, 8⟩ 9)).sum) :=
  by beta_reduce; and_intros <;> decide +kernel

theorem test_meets_SessionOpenIsGrantedOrChallenged :
    (fun (rq : Request) (s : State) =>
      s.opens rq ∧
      s.openRefusal rq.transport (beAt 0 1 rq.payload) (beAt 1 1 rq.payload) = 0)
      (Sample.open 3 2) ((Sample.state [])) :=
  ⟨by unfold State.opens; decide +kernel, by decide +kernel⟩

theorem test_meets_SessionOpenIsRefused :
    (fun (rq : Request) (s : State) =>
      s.opens rq ∧
      s.openRefusal rq.transport (beAt 0 1 rq.payload) (beAt 1 1 rq.payload) ≠ 0)
      (Sample.open 3 4) ((Sample.state [])) :=
  ⟨by unfold State.opens; decide +kernel, by decide +kernel⟩

theorem test_meets_SessionProofOpensOrFrees :
    ((fun (rq : Request) (s : State) (x : Session) =>
      s.taken Op.SESSION_PROVE rq x ∧
      s.sessionUid x.uid = some x ∧
      s.sessState x.num = 3 ∧
      s.proves x rq.payload = true)
      ((Sample.rq Op.SESSION_PROVE (1 :: zeros 63))) ({ (Sample.state [((P.CMD_SESSION_STATE, 0), 3)]) with flash := { Flash.factory with operatorKey := some (1 :: zeros 31) } }) (Sample.sess)) ∧
    ((fun (rq : Request) (s : State) (x : Session) =>
      s.taken Op.SESSION_PROVE rq x ∧
      s.sessionUid x.uid = some x ∧
      s.sessState x.num = 3 ∧
      s.proves x rq.payload = false)
      ((Sample.rq Op.SESSION_PROVE (zeros 64))) ((Sample.state [((P.CMD_SESSION_STATE, 0), 3)])) (Sample.sess)) ∧
    ((fun (rq : Request) (s : State) (x : Session) =>
      s.taken Op.SESSION_PROVE rq x ∧
      s.sessionUid x.uid = some x ∧
      s.sessState x.num ≠ 3)
      ((Sample.rq Op.SESSION_PROVE (zeros 64))) ((Sample.state [])) (Sample.sess)) ∧
    ((fun (n : Fin 16) (s : State) (x : Session) =>
      s.session (n.val + 1) = some x ∧
      s.sessState x.num = 3 ∧
      x.proveBy ≤ s.clock)
      (0) ((Sample.state [((P.CMD_SESSION_STATE, 0), 3)])) (Sample.sess)) ∧
    ((fun (n : Fin 16) (s : State) =>
      ((∀ x, s.session (n.val + 1) = some x → s.sessState x.num ≠ 3 ∨ s.clock < x.proveBy)))
      (0) ({ (Sample.state [((P.CMD_SESSION_STATE, 0), 3)]) with cmd := { State.reset.cmd with sessions := [] } })) :=
  ⟨(⟨Sample.taken_of (by unfold State.reached; decide +kernel) (by decide +kernel) (by decide +kernel), by decide +kernel⟩),
   (⟨Sample.taken_of (by unfold State.reached; decide +kernel) (by decide +kernel) (by decide +kernel), by decide +kernel⟩),
   (⟨Sample.taken_of (by unfold State.reached; decide +kernel) (by decide +kernel) (by decide +kernel), by decide +kernel⟩),
   (by beta_reduce; and_intros <;> decide +kernel),
   (by intro x h; have h2 : _ = true := congrArg Option.isSome h; exact absurd h2 (by decide +kernel))⟩

theorem test_meets_SessionClosesAndSets :
    ((fun (rq : Request) (s : State) (x : Session) =>
      s.taken Op.SESSION_CLOSE rq x ∧
      1 ≤ beAt 0 2 rq.payload ∧
      beAt 0 2 rq.payload ≤ 16 ∧
      s.sessState (beAt 0 2 rq.payload) ≠ 0 ∧
      (s.session (beAt 0 2 rq.payload)).isSome = true)
      ((Sample.rq Op.SESSION_CLOSE [0, 1])) ((Sample.state [])) (Sample.sess)) ∧
    ((fun (rq : Request) (s : State) (x : Session) (st : Nat) =>
      s.taken Op.SESSION_CLOSE rq x ∧
      ((((beAt 0 2 rq.payload = 0 ∨ 16 < beAt 0 2 rq.payload) ∧ st = Status.BAD_VALUE) ∨
      (1 ≤ beAt 0 2 rq.payload ∧ beAt 0 2 rq.payload ≤ 16 ∧ s.sessState (beAt 0 2 rq.payload) = 0 ∧ st = Status.NOT_FOUND))))
      ((Sample.rq Op.SESSION_CLOSE [0, 17])) ((Sample.state [])) (Sample.sess) (Status.BAD_VALUE)) ∧
    ((fun (rq : Request) (s : State) (x : Session) (st : Nat) =>
      s.taken Op.SESSION_CLOSE rq x ∧
      ((((beAt 0 2 rq.payload = 0 ∨ 16 < beAt 0 2 rq.payload) ∧ st = Status.BAD_VALUE) ∨
      (1 ≤ beAt 0 2 rq.payload ∧ beAt 0 2 rq.payload ≤ 16 ∧ s.sessState (beAt 0 2 rq.payload) = 0 ∧ st = Status.NOT_FOUND))))
      ((Sample.rq Op.SESSION_CLOSE [0, 2])) ((Sample.state [])) (Sample.sess) (Status.NOT_FOUND)) ∧
    (((fun (n : Fin 16) (s : State) (x : Session) =>
      s.session (n.val + 1) = some x ∧
      s.sessState x.num = 1 ∧
      s.rd P.CMD_SESSION_IDLE ≠ 0 ∧
      x.last + 1000000000 * s.rd P.CMD_SESSION_IDLE ≤ s.clock)
      (0) ({ (Sample.state [((P.CMD_SESSION_IDLE, 0), 3)]) with clock := 3000000000 }) (Sample.sess)) ∧
    ((fun (n : Fin 16) (s : State) (x : Session) =>
      s.session (n.val + 1) = some x ∧
      ((s.sessState x.num ≠ 1 ∨ s.rd P.CMD_SESSION_IDLE = 0 ∨ s.clock < x.last + 1000000000 * s.rd P.CMD_SESSION_IDLE)))
      (0) ((Sample.state [((P.CMD_SESSION_IDLE, 0), 0)])) (Sample.sess)) ∧
    ((fun (n : Fin 16) (s : State) =>
      s.session (n.val + 1) = none)
      (1) ((Sample.state [])))) ∧
    ((fun (rq : Request) (s : State) (x : Session) =>
      s.taken Op.SESSION_SET rq x ∧
      rq.transport = .nhp ∧
      beAt 0 8 rq.payload ≠ 0)
      ({ (Sample.rq Op.SESSION_SET (toBe 8 5)) with transport := .nhp }) ({ (Sample.state [((P.HIE_PARENT_PORT, 0), 1023)]) with cmd := { State.reset.cmd with sessions := [{ Sample.sess with transport := .nhp }], nextUid := 1 } }) ({ Sample.sess with transport := .nhp })) ∧
    ((fun (rq : Request) (s : State) (x : Session) =>
      s.taken Op.SESSION_SET rq x ∧
      ((rq.transport ≠ .nhp ∨ beAt 0 8 rq.payload = 0)))
      ((Sample.rq Op.SESSION_SET (toBe 8 5))) ((Sample.state [])) (Sample.sess)) :=
  ⟨(⟨Sample.taken_of (by unfold State.reached; decide +kernel) (by decide +kernel) (by decide +kernel), by decide +kernel⟩),
   (⟨Sample.taken_of (by unfold State.reached; decide +kernel) (by decide +kernel) (by decide +kernel), by decide +kernel⟩),
   (⟨Sample.taken_of (by unfold State.reached; decide +kernel) (by decide +kernel) (by decide +kernel), by decide +kernel⟩),
   (by beta_reduce; and_intros <;> decide +kernel),
   (⟨Sample.taken_of (by unfold State.reached; decide +kernel) (by decide +kernel) (by decide +kernel), by decide +kernel⟩),
   (⟨Sample.taken_of (by unfold State.reached; decide +kernel) (by decide +kernel) (by decide +kernel), by decide +kernel⟩)⟩

theorem test_meets_SessionNumbersStayLegal :
    ((fun (s t : State) =>
      s.sessionsLegal ∧
      step s = .next t)
      ((Sample.state [])) ({ (Sample.state []) with clock := 2, time := { State.reset.time with out := ⟨0, 2⟩ } })) ∧
    ((fun (s : State) =>
      s.sessionsLegal)
      ((Sample.state []))) ∧
    ((fun (rq : Request) (s : State) =>
      s.sessionsLegal ∧
      s.opens rq ∧
      s.openRefusal rq.transport (beAt 0 1 rq.payload) (beAt 1 1 rq.payload) = 0)
      (Sample.open 3 2) ((Sample.state []))) ∧
    ((fun (rq : Request) (s : State) =>
      s.sessionsLegal ∧
      s.opens rq ∧
      s.cmd.sessions.length = 16 ∧
      beAt 1 1 rq.payload ≤ 3 ∧
      s.versionOf (beAt 0 1 rq.payload) ≠ 0 ∧
      beAt 1 1 rq.payload ≤ s.rd P.CMD_CEILING (trCode rq.transport) ∧
      ((s.versionOf (beAt 0 1 rq.payload) = 1 → beAt 1 1 rq.payload ≤ 2 ∧ beAt 1 1 rq.payload ≤ freePrivilege rq.transport)) ∧
      ((beAt 1 1 rq.payload = 3 → s.rd P.SPD_LIFECYCLE = 0 → rq.transport = .spi)))
      (Sample.open 3 2) (Sample.full)) :=
  ⟨(⟨by exact Sample.legal, by rfl⟩),
   (by exact Sample.legal),
   (⟨by exact Sample.legal, by unfold State.opens; decide +kernel, by decide +kernel⟩),
   (⟨by exact Sample.full_legal, by unfold State.opens; decide +kernel, by decide +kernel⟩)⟩

theorem test_meets_IntakeRefusesInOrder :
    (((fun (c : Instr) (op : Nat) (rq : Request) (s : State) (x : Session) (st v : Nat) =>
      asRequest c = some (op, rq) ∧
      op ≠ Op.SESSION_OPEN ∧
      s.phase = .ready ∧
      s.carries rq = true ∧
      ((rq.transport = .mgmt → s.rdb P.CMD_MGMT_ENABLE = true)) ∧
      (((headerChecks rq op = false ∧ rq.session.toNat ≤ 16 ∧ st = Status.BAD_CHECK ∧ v = rq.version.toNat) ∨
      (headerChecks rq op = true ∧ lengthFits rq = false ∧ st = Status.BAD_LENGTH ∧ v = rq.version.toNat) ∨
      (headerChecks rq op = true ∧ lengthFits rq = true ∧ s.serving op rq = none ∧ st = Status.BAD_SESSION ∧
        v = rq.version.toNat) ∨
      (headerChecks rq op = true ∧ lengthFits rq = true ∧ s.serving op rq = some x ∧ v = x.version ∧
        ((rq.version.toNat ≠ x.version ∧ st = Status.BAD_VERSION) ∨
          (rq.version.toNat = x.version ∧ s.sessState x.num = 2 ∧ closesSelf rq op = false ∧ st = Status.SESSION_FROZEN) ∨
          (rq.version.toNat = x.version ∧ s.sessState x.num ≠ 2 ∧ (opRow op).all (fun r => decide (x.version < r.since)) = true ∧
            st = Status.UNKNOWN_OPCODE) ∨
          (rq.version.toNat = x.version ∧ s.sessState x.num ≠ 2 ∧
            (opRow op).any (fun r => decide (r.since ≤ x.version) && !r.sized rq.payload) = true ∧ st = Status.BAD_LENGTH) ∨
          (rq.version.toNat = x.version ∧ s.sessState x.num ≠ 2 ∧ opFits op x.version rq = true ∧
            x.tagsInUse.contains rq.tag.toNat = true ∧ st = Status.TAG_IN_USE) ∨
          (rq.version.toNat = x.version ∧ s.sessState x.num ≠ 2 ∧ opFits op x.version rq = true ∧
            x.tagsInUse.contains rq.tag.toNat = false ∧ s.rd P.CMD_MAX_OUTSTANDING ≤ x.outstanding.length ∧
            st = Status.BUSY))))))
      (.tblSearch { (Sample.rq Op.TBL_SEARCH [1]) with check := 0 }) (Op.TBL_SEARCH) ({ (Sample.rq Op.TBL_SEARCH [1]) with check := 0 }) ((Sample.state [])) (Sample.sess) (Status.BAD_CHECK) (3)) ∧
    ((fun (c : Instr) (op : Nat) (rq : Request) (s : State) (x : Session) (st v : Nat) =>
      asRequest c = some (op, rq) ∧
      op ≠ Op.SESSION_OPEN ∧
      s.phase = .ready ∧
      s.carries rq = true ∧
      ((rq.transport = .mgmt → s.rdb P.CMD_MGMT_ENABLE = true)) ∧
      (((headerChecks rq op = false ∧ rq.session.toNat ≤ 16 ∧ st = Status.BAD_CHECK ∧ v = rq.version.toNat) ∨
      (headerChecks rq op = true ∧ lengthFits rq = false ∧ st = Status.BAD_LENGTH ∧ v = rq.version.toNat) ∨
      (headerChecks rq op = true ∧ lengthFits rq = true ∧ s.serving op rq = none ∧ st = Status.BAD_SESSION ∧
        v = rq.version.toNat) ∨
      (headerChecks rq op = true ∧ lengthFits rq = true ∧ s.serving op rq = some x ∧ v = x.version ∧
        ((rq.version.toNat ≠ x.version ∧ st = Status.BAD_VERSION) ∨
          (rq.version.toNat = x.version ∧ s.sessState x.num = 2 ∧ closesSelf rq op = false ∧ st = Status.SESSION_FROZEN) ∨
          (rq.version.toNat = x.version ∧ s.sessState x.num ≠ 2 ∧ (opRow op).all (fun r => decide (x.version < r.since)) = true ∧
            st = Status.UNKNOWN_OPCODE) ∨
          (rq.version.toNat = x.version ∧ s.sessState x.num ≠ 2 ∧
            (opRow op).any (fun r => decide (r.since ≤ x.version) && !r.sized rq.payload) = true ∧ st = Status.BAD_LENGTH) ∨
          (rq.version.toNat = x.version ∧ s.sessState x.num ≠ 2 ∧ opFits op x.version rq = true ∧
            x.tagsInUse.contains rq.tag.toNat = true ∧ st = Status.TAG_IN_USE) ∨
          (rq.version.toNat = x.version ∧ s.sessState x.num ≠ 2 ∧ opFits op x.version rq = true ∧
            x.tagsInUse.contains rq.tag.toNat = false ∧ s.rd P.CMD_MAX_OUTSTANDING ≤ x.outstanding.length ∧
            st = Status.BUSY))))))
      (.tblSearch (Sample.fixed Op.TBL_SEARCH { (Sample.rq Op.TBL_SEARCH [1]) with len := 2 })) (Op.TBL_SEARCH) (Sample.fixed Op.TBL_SEARCH { (Sample.rq Op.TBL_SEARCH [1]) with len := 2 }) ((Sample.state [])) (Sample.sess) (Status.BAD_LENGTH) (3)) ∧
    ((fun (c : Instr) (op : Nat) (rq : Request) (s : State) (x : Session) (st v : Nat) =>
      asRequest c = some (op, rq) ∧
      op ≠ Op.SESSION_OPEN ∧
      s.phase = .ready ∧
      s.carries rq = true ∧
      ((rq.transport = .mgmt → s.rdb P.CMD_MGMT_ENABLE = true)) ∧
      (((headerChecks rq op = false ∧ rq.session.toNat ≤ 16 ∧ st = Status.BAD_CHECK ∧ v = rq.version.toNat) ∨
      (headerChecks rq op = true ∧ lengthFits rq = false ∧ st = Status.BAD_LENGTH ∧ v = rq.version.toNat) ∨
      (headerChecks rq op = true ∧ lengthFits rq = true ∧ s.serving op rq = none ∧ st = Status.BAD_SESSION ∧
        v = rq.version.toNat) ∨
      (headerChecks rq op = true ∧ lengthFits rq = true ∧ s.serving op rq = some x ∧ v = x.version ∧
        ((rq.version.toNat ≠ x.version ∧ st = Status.BAD_VERSION) ∨
          (rq.version.toNat = x.version ∧ s.sessState x.num = 2 ∧ closesSelf rq op = false ∧ st = Status.SESSION_FROZEN) ∨
          (rq.version.toNat = x.version ∧ s.sessState x.num ≠ 2 ∧ (opRow op).all (fun r => decide (x.version < r.since)) = true ∧
            st = Status.UNKNOWN_OPCODE) ∨
          (rq.version.toNat = x.version ∧ s.sessState x.num ≠ 2 ∧
            (opRow op).any (fun r => decide (r.since ≤ x.version) && !r.sized rq.payload) = true ∧ st = Status.BAD_LENGTH) ∨
          (rq.version.toNat = x.version ∧ s.sessState x.num ≠ 2 ∧ opFits op x.version rq = true ∧
            x.tagsInUse.contains rq.tag.toNat = true ∧ st = Status.TAG_IN_USE) ∨
          (rq.version.toNat = x.version ∧ s.sessState x.num ≠ 2 ∧ opFits op x.version rq = true ∧
            x.tagsInUse.contains rq.tag.toNat = false ∧ s.rd P.CMD_MAX_OUTSTANDING ≤ x.outstanding.length ∧
            st = Status.BUSY))))))
      (.tblSearch (Sample.fixed Op.TBL_SEARCH { (Sample.rq Op.TBL_SEARCH [1]) with session := 2 })) (Op.TBL_SEARCH) (Sample.fixed Op.TBL_SEARCH { (Sample.rq Op.TBL_SEARCH [1]) with session := 2 }) ((Sample.state [])) (Sample.sess) (Status.BAD_SESSION) (3)) ∧
    ((fun (c : Instr) (op : Nat) (rq : Request) (s : State) (x : Session) (st v : Nat) =>
      asRequest c = some (op, rq) ∧
      op ≠ Op.SESSION_OPEN ∧
      s.phase = .ready ∧
      s.carries rq = true ∧
      ((rq.transport = .mgmt → s.rdb P.CMD_MGMT_ENABLE = true)) ∧
      (((headerChecks rq op = false ∧ rq.session.toNat ≤ 16 ∧ st = Status.BAD_CHECK ∧ v = rq.version.toNat) ∨
      (headerChecks rq op = true ∧ lengthFits rq = false ∧ st = Status.BAD_LENGTH ∧ v = rq.version.toNat) ∨
      (headerChecks rq op = true ∧ lengthFits rq = true ∧ s.serving op rq = none ∧ st = Status.BAD_SESSION ∧
        v = rq.version.toNat) ∨
      (headerChecks rq op = true ∧ lengthFits rq = true ∧ s.serving op rq = some x ∧ v = x.version ∧
        ((rq.version.toNat ≠ x.version ∧ st = Status.BAD_VERSION) ∨
          (rq.version.toNat = x.version ∧ s.sessState x.num = 2 ∧ closesSelf rq op = false ∧ st = Status.SESSION_FROZEN) ∨
          (rq.version.toNat = x.version ∧ s.sessState x.num ≠ 2 ∧ (opRow op).all (fun r => decide (x.version < r.since)) = true ∧
            st = Status.UNKNOWN_OPCODE) ∨
          (rq.version.toNat = x.version ∧ s.sessState x.num ≠ 2 ∧
            (opRow op).any (fun r => decide (r.since ≤ x.version) && !r.sized rq.payload) = true ∧ st = Status.BAD_LENGTH) ∨
          (rq.version.toNat = x.version ∧ s.sessState x.num ≠ 2 ∧ opFits op x.version rq = true ∧
            x.tagsInUse.contains rq.tag.toNat = true ∧ st = Status.TAG_IN_USE) ∨
          (rq.version.toNat = x.version ∧ s.sessState x.num ≠ 2 ∧ opFits op x.version rq = true ∧
            x.tagsInUse.contains rq.tag.toNat = false ∧ s.rd P.CMD_MAX_OUTSTANDING ≤ x.outstanding.length ∧
            st = Status.BUSY))))))
      (.tblSearch (Sample.fixed Op.TBL_SEARCH { (Sample.rq Op.TBL_SEARCH [1]) with version := 2 })) (Op.TBL_SEARCH) (Sample.fixed Op.TBL_SEARCH { (Sample.rq Op.TBL_SEARCH [1]) with version := 2 }) ((Sample.state [])) (Sample.sess) (Status.BAD_VERSION) (3)) ∧
    ((fun (c : Instr) (op : Nat) (rq : Request) (s : State) (x : Session) (st v : Nat) =>
      asRequest c = some (op, rq) ∧
      op ≠ Op.SESSION_OPEN ∧
      s.phase = .ready ∧
      s.carries rq = true ∧
      ((rq.transport = .mgmt → s.rdb P.CMD_MGMT_ENABLE = true)) ∧
      (((headerChecks rq op = false ∧ rq.session.toNat ≤ 16 ∧ st = Status.BAD_CHECK ∧ v = rq.version.toNat) ∨
      (headerChecks rq op = true ∧ lengthFits rq = false ∧ st = Status.BAD_LENGTH ∧ v = rq.version.toNat) ∨
      (headerChecks rq op = true ∧ lengthFits rq = true ∧ s.serving op rq = none ∧ st = Status.BAD_SESSION ∧
        v = rq.version.toNat) ∨
      (headerChecks rq op = true ∧ lengthFits rq = true ∧ s.serving op rq = some x ∧ v = x.version ∧
        ((rq.version.toNat ≠ x.version ∧ st = Status.BAD_VERSION) ∨
          (rq.version.toNat = x.version ∧ s.sessState x.num = 2 ∧ closesSelf rq op = false ∧ st = Status.SESSION_FROZEN) ∨
          (rq.version.toNat = x.version ∧ s.sessState x.num ≠ 2 ∧ (opRow op).all (fun r => decide (x.version < r.since)) = true ∧
            st = Status.UNKNOWN_OPCODE) ∨
          (rq.version.toNat = x.version ∧ s.sessState x.num ≠ 2 ∧
            (opRow op).any (fun r => decide (r.since ≤ x.version) && !r.sized rq.payload) = true ∧ st = Status.BAD_LENGTH) ∨
          (rq.version.toNat = x.version ∧ s.sessState x.num ≠ 2 ∧ opFits op x.version rq = true ∧
            x.tagsInUse.contains rq.tag.toNat = true ∧ st = Status.TAG_IN_USE) ∨
          (rq.version.toNat = x.version ∧ s.sessState x.num ≠ 2 ∧ opFits op x.version rq = true ∧
            x.tagsInUse.contains rq.tag.toNat = false ∧ s.rd P.CMD_MAX_OUTSTANDING ≤ x.outstanding.length ∧
            st = Status.BUSY))))))
      (.tblSearch (Sample.rq Op.TBL_SEARCH [1])) (Op.TBL_SEARCH) ((Sample.rq Op.TBL_SEARCH [1])) ((Sample.state [((P.CMD_SESSION_STATE, 0), 2)])) (Sample.sess) (Status.SESSION_FROZEN) (3)) ∧
    ((fun (c : Instr) (op : Nat) (rq : Request) (s : State) (x : Session) (st v : Nat) =>
      asRequest c = some (op, rq) ∧
      op ≠ Op.SESSION_OPEN ∧
      s.phase = .ready ∧
      s.carries rq = true ∧
      ((rq.transport = .mgmt → s.rdb P.CMD_MGMT_ENABLE = true)) ∧
      (((headerChecks rq op = false ∧ rq.session.toNat ≤ 16 ∧ st = Status.BAD_CHECK ∧ v = rq.version.toNat) ∨
      (headerChecks rq op = true ∧ lengthFits rq = false ∧ st = Status.BAD_LENGTH ∧ v = rq.version.toNat) ∨
      (headerChecks rq op = true ∧ lengthFits rq = true ∧ s.serving op rq = none ∧ st = Status.BAD_SESSION ∧
        v = rq.version.toNat) ∨
      (headerChecks rq op = true ∧ lengthFits rq = true ∧ s.serving op rq = some x ∧ v = x.version ∧
        ((rq.version.toNat ≠ x.version ∧ st = Status.BAD_VERSION) ∨
          (rq.version.toNat = x.version ∧ s.sessState x.num = 2 ∧ closesSelf rq op = false ∧ st = Status.SESSION_FROZEN) ∨
          (rq.version.toNat = x.version ∧ s.sessState x.num ≠ 2 ∧ (opRow op).all (fun r => decide (x.version < r.since)) = true ∧
            st = Status.UNKNOWN_OPCODE) ∨
          (rq.version.toNat = x.version ∧ s.sessState x.num ≠ 2 ∧
            (opRow op).any (fun r => decide (r.since ≤ x.version) && !r.sized rq.payload) = true ∧ st = Status.BAD_LENGTH) ∨
          (rq.version.toNat = x.version ∧ s.sessState x.num ≠ 2 ∧ opFits op x.version rq = true ∧
            x.tagsInUse.contains rq.tag.toNat = true ∧ st = Status.TAG_IN_USE) ∨
          (rq.version.toNat = x.version ∧ s.sessState x.num ≠ 2 ∧ opFits op x.version rq = true ∧
            x.tagsInUse.contains rq.tag.toNat = false ∧ s.rd P.CMD_MAX_OUTSTANDING ≤ x.outstanding.length ∧
            st = Status.BUSY))))))
      (.unknownOpcode 0xFFFF (Sample.rq 0xFFFF [1])) (0xFFFF) ((Sample.rq 0xFFFF [1])) ((Sample.state [])) (Sample.sess) (Status.UNKNOWN_OPCODE) (3)) ∧
    ((fun (c : Instr) (op : Nat) (rq : Request) (s : State) (x : Session) (st v : Nat) =>
      asRequest c = some (op, rq) ∧
      op ≠ Op.SESSION_OPEN ∧
      s.phase = .ready ∧
      s.carries rq = true ∧
      ((rq.transport = .mgmt → s.rdb P.CMD_MGMT_ENABLE = true)) ∧
      (((headerChecks rq op = false ∧ rq.session.toNat ≤ 16 ∧ st = Status.BAD_CHECK ∧ v = rq.version.toNat) ∨
      (headerChecks rq op = true ∧ lengthFits rq = false ∧ st = Status.BAD_LENGTH ∧ v = rq.version.toNat) ∨
      (headerChecks rq op = true ∧ lengthFits rq = true ∧ s.serving op rq = none ∧ st = Status.BAD_SESSION ∧
        v = rq.version.toNat) ∨
      (headerChecks rq op = true ∧ lengthFits rq = true ∧ s.serving op rq = some x ∧ v = x.version ∧
        ((rq.version.toNat ≠ x.version ∧ st = Status.BAD_VERSION) ∨
          (rq.version.toNat = x.version ∧ s.sessState x.num = 2 ∧ closesSelf rq op = false ∧ st = Status.SESSION_FROZEN) ∨
          (rq.version.toNat = x.version ∧ s.sessState x.num ≠ 2 ∧ (opRow op).all (fun r => decide (x.version < r.since)) = true ∧
            st = Status.UNKNOWN_OPCODE) ∨
          (rq.version.toNat = x.version ∧ s.sessState x.num ≠ 2 ∧
            (opRow op).any (fun r => decide (r.since ≤ x.version) && !r.sized rq.payload) = true ∧ st = Status.BAD_LENGTH) ∨
          (rq.version.toNat = x.version ∧ s.sessState x.num ≠ 2 ∧ opFits op x.version rq = true ∧
            x.tagsInUse.contains rq.tag.toNat = true ∧ st = Status.TAG_IN_USE) ∨
          (rq.version.toNat = x.version ∧ s.sessState x.num ≠ 2 ∧ opFits op x.version rq = true ∧
            x.tagsInUse.contains rq.tag.toNat = false ∧ s.rd P.CMD_MAX_OUTSTANDING ≤ x.outstanding.length ∧
            st = Status.BUSY))))))
      (.tblSearch (Sample.rq Op.TBL_SEARCH [1])) (Op.TBL_SEARCH) ((Sample.rq Op.TBL_SEARCH [1])) ((Sample.state [])) (Sample.sess) (Status.BAD_LENGTH) (3)) ∧
    ((fun (c : Instr) (op : Nat) (rq : Request) (s : State) (x : Session) (st v : Nat) =>
      asRequest c = some (op, rq) ∧
      op ≠ Op.SESSION_OPEN ∧
      s.phase = .ready ∧
      s.carries rq = true ∧
      ((rq.transport = .mgmt → s.rdb P.CMD_MGMT_ENABLE = true)) ∧
      (((headerChecks rq op = false ∧ rq.session.toNat ≤ 16 ∧ st = Status.BAD_CHECK ∧ v = rq.version.toNat) ∨
      (headerChecks rq op = true ∧ lengthFits rq = false ∧ st = Status.BAD_LENGTH ∧ v = rq.version.toNat) ∨
      (headerChecks rq op = true ∧ lengthFits rq = true ∧ s.serving op rq = none ∧ st = Status.BAD_SESSION ∧
        v = rq.version.toNat) ∨
      (headerChecks rq op = true ∧ lengthFits rq = true ∧ s.serving op rq = some x ∧ v = x.version ∧
        ((rq.version.toNat ≠ x.version ∧ st = Status.BAD_VERSION) ∨
          (rq.version.toNat = x.version ∧ s.sessState x.num = 2 ∧ closesSelf rq op = false ∧ st = Status.SESSION_FROZEN) ∨
          (rq.version.toNat = x.version ∧ s.sessState x.num ≠ 2 ∧ (opRow op).all (fun r => decide (x.version < r.since)) = true ∧
            st = Status.UNKNOWN_OPCODE) ∨
          (rq.version.toNat = x.version ∧ s.sessState x.num ≠ 2 ∧
            (opRow op).any (fun r => decide (r.since ≤ x.version) && !r.sized rq.payload) = true ∧ st = Status.BAD_LENGTH) ∨
          (rq.version.toNat = x.version ∧ s.sessState x.num ≠ 2 ∧ opFits op x.version rq = true ∧
            x.tagsInUse.contains rq.tag.toNat = true ∧ st = Status.TAG_IN_USE) ∨
          (rq.version.toNat = x.version ∧ s.sessState x.num ≠ 2 ∧ opFits op x.version rq = true ∧
            x.tagsInUse.contains rq.tag.toNat = false ∧ s.rd P.CMD_MAX_OUTSTANDING ≤ x.outstanding.length ∧
            st = Status.BUSY))))))
      (.sysInfo (Sample.rq Op.SYS_INFO [])) (Op.SYS_INFO) ((Sample.rq Op.SYS_INFO [])) ({ (Sample.state []) with cmd := { State.reset.cmd with sessions := [{ Sample.sess with blocked := some 7 }] } }) ({ Sample.sess with blocked := some 7 }) (Status.TAG_IN_USE) (3))) ∧
    (((fun (c : Instr) (op : Nat) (rq : Request) (s : State) (x : Session) (st v : Nat) =>
      asRequest c = some (op, rq) ∧
      op ≠ Op.SESSION_OPEN ∧
      s.phase = .ready ∧
      s.carries rq = true ∧
      ((rq.transport = .mgmt → s.rdb P.CMD_MGMT_ENABLE = true)) ∧
      (((headerChecks rq op = false ∧ rq.session.toNat ≤ 16 ∧ st = Status.BAD_CHECK ∧ v = rq.version.toNat) ∨
      (headerChecks rq op = true ∧ lengthFits rq = false ∧ st = Status.BAD_LENGTH ∧ v = rq.version.toNat) ∨
      (headerChecks rq op = true ∧ lengthFits rq = true ∧ s.serving op rq = none ∧ st = Status.BAD_SESSION ∧
        v = rq.version.toNat) ∨
      (headerChecks rq op = true ∧ lengthFits rq = true ∧ s.serving op rq = some x ∧ v = x.version ∧
        ((rq.version.toNat ≠ x.version ∧ st = Status.BAD_VERSION) ∨
          (rq.version.toNat = x.version ∧ s.sessState x.num = 2 ∧ closesSelf rq op = false ∧ st = Status.SESSION_FROZEN) ∨
          (rq.version.toNat = x.version ∧ s.sessState x.num ≠ 2 ∧ (opRow op).all (fun r => decide (x.version < r.since)) = true ∧
            st = Status.UNKNOWN_OPCODE) ∨
          (rq.version.toNat = x.version ∧ s.sessState x.num ≠ 2 ∧
            (opRow op).any (fun r => decide (r.since ≤ x.version) && !r.sized rq.payload) = true ∧ st = Status.BAD_LENGTH) ∨
          (rq.version.toNat = x.version ∧ s.sessState x.num ≠ 2 ∧ opFits op x.version rq = true ∧
            x.tagsInUse.contains rq.tag.toNat = true ∧ st = Status.TAG_IN_USE) ∨
          (rq.version.toNat = x.version ∧ s.sessState x.num ≠ 2 ∧ opFits op x.version rq = true ∧
            x.tagsInUse.contains rq.tag.toNat = false ∧ s.rd P.CMD_MAX_OUTSTANDING ≤ x.outstanding.length ∧
            st = Status.BUSY))))))
      (.sysInfo (Sample.rq Op.SYS_INFO [])) (Op.SYS_INFO) ((Sample.rq Op.SYS_INFO [])) ({ (Sample.state [((P.CMD_MAX_OUTSTANDING, 0), 1)]) with cmd := { State.reset.cmd with sessions := [{ Sample.sess with blocked := some 9 }] } }) ({ Sample.sess with blocked := some 9 }) (Status.BUSY) (3)) ∧
    ((fun (c : Instr) (op : Nat) (rq : Request) (s : State) =>
      asRequest c = some (op, rq) ∧
      rq.transport ≠ .pcie ∧
      ((s.phase ≠ .ready ∨ (rq.transport = .mgmt ∧ s.rdb P.CMD_MGMT_ENABLE = false) ∨
      (headerChecks rq op = false ∧ (rq.transport = .spi ∨ rq.transport = .mgmt) ∧ 16 < rq.session.toNat))))
      (.sysInfo (Sample.rq Op.SYS_INFO [])) (Op.SYS_INFO) ((Sample.rq Op.SYS_INFO [])) (State.reset)) ∧
    ((fun (c : Instr) (op : Nat) (rq : Request) (s : State) =>
      asRequest c = some (op, rq) ∧
      rq.transport ≠ .pcie ∧
      ((s.phase ≠ .ready ∨ (rq.transport = .mgmt ∧ s.rdb P.CMD_MGMT_ENABLE = false) ∨
      (headerChecks rq op = false ∧ (rq.transport = .spi ∨ rq.transport = .mgmt) ∧ 16 < rq.session.toNat))))
      (.sysInfo { (Sample.rq Op.SYS_INFO []) with check := 0, session := 17 }) (Op.SYS_INFO) ({ (Sample.rq Op.SYS_INFO []) with check := 0, session := 17 }) ((Sample.state []))) ∧
    ((fun (op : BitVec 16) (rq : Request) (s : State) (x : Session) =>
      opRow op.toNat = none ∧
      s.phase = .ready ∧
      s.carries rq = true ∧
      ((rq.transport = .mgmt → s.rdb P.CMD_MGMT_ENABLE = true)) ∧
      headerChecks rq op.toNat = true ∧
      lengthFits rq = true ∧
      s.session rq.session.toNat = some x ∧
      x.transport = rq.transport ∧
      s.sessState x.num = 1 ∧
      rq.version.toNat = x.version)
      (0xFFFF) ((Sample.rq 0xFFFF [1])) ((Sample.state [])) (Sample.sess))) :=
  ⟨(by beta_reduce; and_intros <;> decide +kernel),
   (by beta_reduce; and_intros <;> decide +kernel)⟩

theorem test_meets_PrivilegeBreachFreezesSession :
    (fun (c : Instr) (op : Nat) (rq : Request) (s : State) (x : Session) (a : Nat) =>
      asRequest c = some (op, rq) ∧
      op ≠ Op.SESSION_OPEN ∧
      s.reached op rq x ∧
      s.sessState x.num = 1 ∧
      s.breach x op rq.payload = some a)
      (.lifecycleSet (Sample.rq Op.LIFECYCLE_SET (zeros 36))) (Op.LIFECYCLE_SET) ((Sample.rq Op.LIFECYCLE_SET (zeros 36))) ((Sample.state [((P.CMD_SESSION_PRIV, 0), 2)])) (Sample.sess) (0) :=
  ⟨by decide +kernel, by decide +kernel, by unfold State.reached; decide +kernel, by decide +kernel⟩

theorem test_meets_RepeatedRequestGetsItsStoredReply :
    (((fun (c : Instr) (op : Nat) (rq : Request) (s : State) (x : Session) (y : Stored) =>
      asRequest c = some (op, rq) ∧
      op ≠ Op.SESSION_OPEN ∧
      s.phase = .ready ∧
      s.carries rq = true ∧
      ((rq.transport = .mgmt → s.rdb P.CMD_MGMT_ENABLE = true)) ∧
      headerChecks rq op = true ∧
      lengthFits rq = true ∧
      s.session rq.session.toNat = some x ∧
      x.transport = rq.transport ∧
      s.sessState x.num = 1 ∧
      rq.version.toNat = x.version ∧
      opFits op x.version rq = true ∧
      x.tagsInUse.contains rq.tag.toNat = false ∧
      x.outstanding.length < s.rd P.CMD_MAX_OUTSTANDING ∧
      (x.replies.find? fun r => r.tag == rq.tag.toNat && r.op == op) = some y)
      (.sysInfo (Sample.rq Op.SYS_INFO [])) (Op.SYS_INFO) ((Sample.rq Op.SYS_INFO [])) ({ (Sample.state []) with cmd := { State.reset.cmd with sessions := [{ Sample.sess with replies := [⟨7, Op.SYS_INFO, ⟨2, 0, 0, 0, 0, 0, []⟩⟩] }] } }) ({ Sample.sess with replies := [⟨7, Op.SYS_INFO, ⟨2, 0, 0, 0, 0, 0, []⟩⟩] }) (⟨7, Op.SYS_INFO, ⟨2, 0, 0, 0, 0, 0, []⟩⟩)) ∧
    ((fun (c : Instr) (op : Nat) (rq : Request) (s : State) (x : Session) =>
      asRequest c = some (op, rq) ∧
      op ≠ Op.SESSION_OPEN ∧
      s.phase = .ready ∧
      s.carries rq = true ∧
      ((rq.transport = .mgmt → s.rdb P.CMD_MGMT_ENABLE = true)) ∧
      headerChecks rq op = true ∧
      lengthFits rq = true ∧
      s.session rq.session.toNat = some x ∧
      s.sessionUid x.uid = some x ∧
      x.transport = rq.transport ∧
      s.sessState x.num = 1 ∧
      rq.version.toNat = x.version ∧
      opFits op x.version rq = true ∧
      x.tagsInUse.contains rq.tag.toNat = false ∧
      x.outstanding.length < s.rd P.CMD_MAX_OUTSTANDING ∧
      (x.replies.find? fun r => r.tag == rq.tag.toNat && r.op == op) = none ∧
      x.blocked.isSome = true)
      (.sysInfo (Sample.rq Op.SYS_INFO [])) (Op.SYS_INFO) ((Sample.rq Op.SYS_INFO [])) ({ (Sample.state []) with cmd := { State.reset.cmd with sessions := [{ Sample.sess with blocked := some 9 }] } }) ({ Sample.sess with blocked := some 9 }))) ∧
    ((fun (c : Instr) (op : Nat) (rq : Request) (s : State) (x : Session) (r : OpRow) =>
      asRequest c = some (op, rq) ∧
      op ≠ Op.SESSION_OPEN ∧
      s.taken op rq x ∧
      opRow op = some r)
      (.sysInfo (Sample.rq Op.SYS_INFO [])) (Op.SYS_INFO) ((Sample.rq Op.SYS_INFO [])) ((Sample.state [])) (Sample.sess) ((opRow Op.SYS_INFO).get (by decide))) ∧
    ((fun (c : Instr) (op : Nat) (rq : Request) (s : State) (x : Session) (r : OpRow) =>
      asRequest c = some (op, rq) ∧
      op ≠ Op.SESSION_OPEN ∧
      s.taken op rq x ∧
      opRow op = some r)
      (.sessionClose (Sample.rq Op.SESSION_CLOSE [0, 1])) (Op.SESSION_CLOSE) ((Sample.rq Op.SESSION_CLOSE [0, 1])) ((Sample.state [])) (Sample.sess) ((opRow Op.SESSION_CLOSE).get (by decide))) :=
  ⟨(by beta_reduce; and_intros <;> decide +kernel),
   (⟨by decide +kernel, by decide +kernel, Sample.taken_of (by unfold State.reached; decide +kernel) (by decide +kernel) (by decide +kernel), by rfl⟩),
   (⟨by decide +kernel, by decide +kernel, Sample.taken_of (by unfold State.reached; decide +kernel) (by decide +kernel) (by decide +kernel), by rfl⟩)⟩

theorem test_meets_FrozenCoreFailsRequest :
    (fun (c : Instr) (op : Nat) (rq : Request) (s : State) (x : Session) =>
      asRequest c = some (op, rq) ∧
      op ≠ Op.SESSION_OPEN ∧
      s.reached op rq x ∧
      s.breach x op rq.payload = none ∧
      s.coreFrozen op = true ∧
      fastPath op rq = false)
      (.coreHealth (Sample.rq Op.CORE_HEALTH (zeros 4))) (Op.CORE_HEALTH) ((Sample.rq Op.CORE_HEALTH (zeros 4))) ((Sample.state [((P.SPD_FROZEN, 0), 0x700)])) (Sample.sess) :=
  ⟨by decide +kernel, by decide +kernel, by unfold State.reached; decide +kernel, by decide +kernel, by unfold State.coreFrozen; generalize Config.servedBy Op.CORE_HEALTH = n; revert n; decide, by decide +kernel⟩

theorem test_meets_PacketLeavesByItsTransport :
    ((fun (s : State) (chan : Nat) (p : Packet) =>
      s.rdb P.CMD_MGMT_ENABLE = true)
      ((Sample.state [((P.CMD_MGMT_ENABLE, 0), 1)])) (0) (⟨2, 0, 0, 0, 0, 0, []⟩)) ∧
    ((fun (s : State) (chan : Nat) (p : Packet) =>
      s.replyRoom chan = false)
      ((Sample.state [])) (0) (⟨2, 0, 0, 0, 0, 0, []⟩)) ∧
    ((fun (s : State) (chan : Nat) (p : Packet) (r : Ring) =>
      s.replyRoom chan = true ∧
      s.cmd.mbx = [] ∧
      s.ring (164 + chan) = some r)
      ((Sample.host 164)) (0) (⟨2, 0, 0, 0, 0, 0, []⟩) (Sample.ring 164)) ∧
    ((fun (s : State) (p : Packet) (rest : List Waiting) =>
      s.phase = .ready ∧
      s.cmd.spi = .reply p :: rest ∧
      p.bytes ≠ [])
      ({ (Sample.state []) with cmd := { State.reset.cmd with spi := [.reply ⟨2, 0, 0, 0, 0, 0, []⟩] } }) (⟨2, 0, 0, 0, 0, 0, []⟩) ([])) ∧
    ((fun (s : State) =>
      s.phase = .ready ∧
      s.cmd.spi = [])
      ((Sample.state []))) :=
  by beta_reduce; and_intros <;> decide +kernel

theorem test_meets_ParamReadReturnsValues :
    ((fun (rq : Request) (s : State) (x : Session) =>
      s.taken Op.PARAM_READ rq x ∧
      ((readEntries rq.payload).all fun e => readRefusal e == 0) = true)
      ((Sample.rq Op.PARAM_READ (toBe 3 P.SYS_PRODUCT ++ [0,0,0,0,1]))) ((Sample.state [])) (Sample.sess)) ∧
    ((fun (rq : Request) (s : State) (x : Session) (e : ReadEntry) =>
      s.taken Op.PARAM_READ rq x ∧
      ((readEntries rq.payload).find? fun e => readRefusal e != 0) = some e)
      ((Sample.rq Op.PARAM_READ (toBe 3 5 ++ [0,0,0,0,1]))) ((Sample.state [])) (Sample.sess) (⟨5, false, 0, 1⟩)) ∧
    (((fun (s : State) (n : Nat) (e : ReadEntry) (p : Param) (i : Nat) =>
      elementOf e.addr e.first = some (p, i) ∧
      e.count = 1)
      ((Sample.state [])) (1) (⟨P.SYS_PRODUCT, false, 0, 1⟩) ((paramAt P.SYS_PRODUCT).get (by decide)) (0)) ∧
    ((fun (s : State) (n b i : Nat) =>
      b ∉ [P.SYS_UPTIME, P.TBS_EPOCH, P.TBS_EPOCH_SEC, P.TBS_EPOCH_AGE, P.TBL_FENCE_PENDING,
      P.TBL_FENCE_AGE, P.LCK_ADM_ENTRY, P.LCK_OPR_ENTRY, P.LCK_FIBRE_USED, P.LCK_PORT_FLAGS, P.LNK_BEVT, P.LNK_FLAGS, P.REF_PULL_REM,
      P.REF_HOLDOFF_LEFT, P.REF_WTR_LEFT, P.CAL_BUSY, P.LOG_HOLD_TIME, P.HLT_FIRST_FAULT, P.OPT_TEC_TEMP,
      P.OPT_RX_POWER, P.OBS_CTR])
      ((Sample.state [])) (1) (P.SYS_PRODUCT) (0))) ∧
    ((fun (rq : Request) (s : State) (x : Session) =>
      s.taken Op.SYS_INFO rq x)
      ((Sample.rq Op.SYS_INFO [])) ((Sample.state [])) (Sample.sess)) :=
  ⟨(⟨Sample.taken_of (by unfold State.reached; decide +kernel) (by decide +kernel) (by decide +kernel), by decide +kernel⟩),
   (⟨Sample.taken_of (by unfold State.reached; decide +kernel) (by decide +kernel) (by decide +kernel), by decide +kernel⟩),
   (by beta_reduce; and_intros <;> decide +kernel),
   (Sample.taken_of (by unfold State.reached; decide +kernel) (by decide +kernel) (by decide +kernel))⟩

theorem test_meets_ParamWriteIsAllOrNothing :
    ((fun (rq : Request) (s : State) (x : Session) (k st : Nat) =>
      s.taken Op.PARAM_WRITE rq x ∧
      s.writeFault (writeEntries rq.payload) = some (k, st))
      ((Sample.rq Op.PARAM_WRITE (WriteEntry.bytes ⟨P.SYS_PRODUCT, 0, 1⟩))) ((Sample.state [])) (Sample.sess) (0) (Status.READ_ONLY)) ∧
    ((fun (rq : Request) (s : State) (x : Session) (e : WriteEntry) (p : Param) (i : Nat) =>
      s.taken Op.PARAM_WRITE rq x ∧
      writeEntries rq.payload = [e] ∧
      elementOf e.addr e.index = some (p, i) ∧
      s.writeFault [e] = none ∧
      p.kind = .commit)
      ((Sample.rq Op.PARAM_WRITE (WriteEntry.bytes ⟨P.TBS_SET_SEC, 0, 1000⟩))) ((Sample.state [])) (Sample.sess) (⟨P.TBS_SET_SEC, 0, 1000⟩) ((paramAt P.TBS_SET_SEC).get (by decide)) (0)) ∧
    ((fun (rq : Request) (s : State) (x : Session) (e : WriteEntry) (p : Param) (i : Nat) =>
      s.taken Op.PARAM_WRITE rq x ∧
      writeEntries rq.payload = [e] ∧
      elementOf e.addr e.index = some (p, i) ∧
      s.writeFault [e] = none ∧
      (p.kind = .live ∨ p.kind = .halt) ∧
      p.base ∉ [P.LCK_ADM_ENTRY, P.LCK_ADM_CYCLE, P.LCK_ADM_BASE, P.LCK_ADM_COUNT, P.SYS_SCRATCH])
      ((Sample.rq Op.PARAM_WRITE (WriteEntry.bytes ⟨P.CMD_SESSION_IDLE, 0, 30⟩))) ((Sample.state [])) (Sample.sess) (⟨P.CMD_SESSION_IDLE, 0, 30⟩) ((paramAt P.CMD_SESSION_IDLE).get (by decide)) (0)) :=
  ⟨(⟨Sample.taken_of (by unfold State.reached; decide +kernel) (by decide +kernel) (by decide +kernel), by decide +kernel⟩),
   (⟨Sample.taken_of (by unfold State.reached; decide +kernel) (by decide +kernel) (by decide +kernel), by decide +kernel⟩),
   (⟨Sample.taken_of (by unfold State.reached; decide +kernel) (by decide +kernel) (by decide +kernel), by decide +kernel⟩)⟩

theorem test_meets_ParamRowsActAtOnce :
    ((fun (rq : Request) (index : BitVec 16) (value : BitVec 64) (s : State) (x : Session) =>
      s.taken Op.PARAM_WRITE (oneEntry P.LCK_SWAP_TIME index value rq) x ∧
      index.toNat < 512 ∧
      s.rd P.LCK_SWAP_STATE index.toNat ≠ 2 ∧
      s.writeFault (writeEntries (oneEntry P.LCK_SWAP_TIME index value rq).payload) = none)
      (Sample.write) (3) (1000) ((Sample.state [])) (Sample.sess)) ∧
    ((fun (rq : Request) (index : BitVec 16) (value : BitVec 64) (s : State) (x : Session) =>
      s.taken Op.PARAM_WRITE (oneEntry P.LCK_ADM_ENTRY index value rq) x ∧
      index.toNat < 1024 ∧
      s.writeFault (writeEntries (oneEntry P.LCK_ADM_ENTRY index value rq).payload) = none)
      (Sample.write) (3) (0) ((Sample.state [])) (Sample.sess)) ∧
    ((fun (rq : Request) (index : BitVec 16) (value : BitVec 64) (s : State) (x : Session) =>
      s.taken Op.PARAM_WRITE (oneEntry P.LCK_ADM_ENTRY index value rq) x ∧
      index.toNat < 1024 ∧
      s.writeFault (writeEntries (oneEntry P.LCK_ADM_ENTRY index value rq).payload) = none)
      (Sample.write) (3) (0) ((Sample.state [((P.LCK_SWAP_STATE, 0), 2)])) (Sample.sess)) ∧
    ((fun (rq : Request) (index : BitVec 16) (value : BitVec 64) (s : State) (x : Session) =>
      s.taken Op.PARAM_WRITE (oneEntry P.OBS_TAG_SEED index value rq) x ∧
      index.toNat = 0 ∧
      s.writeFault (writeEntries (oneEntry P.OBS_TAG_SEED index value rq).payload) = none)
      (Sample.write) (0) (256) ((Sample.state [])) (Sample.sess)) ∧
    ((fun (rq : Request) (index : BitVec 16) (value : BitVec 64) (s : State) (x : Session) =>
      s.taken Op.PARAM_WRITE (oneEntry P.SPD_TAMPER_SRC index value rq) x ∧
      index.toNat = 0 ∧
      s.writeFault (writeEntries (oneEntry P.SPD_TAMPER_SRC index value rq).payload) = none)
      (Sample.write) (0) (1) ((Sample.state [((P.SPD_TAMPER_SRC, 0), 3)])) (Sample.sess)) ∧
    ((fun (rq : Request) (index : BitVec 16) (value : BitVec 64) (s : State) (x : Session) =>
      s.taken Op.PARAM_WRITE (oneEntry P.GNS_ANT_BIAS index value rq) x ∧
      index.toNat = 0 ∧
      s.writeFault (writeEntries (oneEntry P.GNS_ANT_BIAS index value rq).payload) = none)
      (Sample.write) (0) (1) ((Sample.state [])) (Sample.sess)) ∧
    ((fun (rq : Request) (index : BitVec 16) (value : BitVec 64) (s : State) (x : Session) =>
      s.taken Op.PARAM_WRITE (oneEntry P.CMD_MGMT_ENABLE index value rq) x ∧
      index.toNat = 0 ∧
      s.writeFault (writeEntries (oneEntry P.CMD_MGMT_ENABLE index value rq).payload) = none)
      (Sample.write) (0) (1) ((Sample.state [])) (Sample.sess)) :=
  ⟨(⟨Sample.taken_of (by unfold State.reached; decide +kernel) (by decide +kernel) (by decide +kernel), by decide +kernel⟩),
   (⟨Sample.taken_of (by unfold State.reached; decide +kernel) (by decide +kernel) (by decide +kernel), by decide +kernel⟩),
   (⟨Sample.taken_of (by unfold State.reached; decide +kernel) (by decide +kernel) (by decide +kernel), by decide +kernel⟩),
   (⟨Sample.taken_of (by unfold State.reached; decide +kernel) (by decide +kernel) (by decide +kernel), by decide +kernel⟩),
   (⟨Sample.taken_of (by unfold State.reached; decide +kernel) (by decide +kernel) (by decide +kernel), by decide +kernel⟩),
   (⟨Sample.taken_of (by unfold State.reached; decide +kernel) (by decide +kernel) (by decide +kernel), by decide +kernel⟩),
   (⟨Sample.taken_of (by unfold State.reached; decide +kernel) (by decide +kernel) (by decide +kernel), by decide +kernel⟩)⟩

theorem test_meets_CommitAppliesItsBlocksShadows :
    ((fun (c : Instr) (q rq : Request) (s : State) (x : Session) =>
      (c, rq) ∈ [
      (Instr.fabCommit q, blockCommit 0x10 q), (.prtCommit q, blockCommit 0x11 q), (.tblCommit q, blockCommit 0x13 q),
      (.lckCommit q, blockCommit 0x14 q), (.tbsCommit q, blockCommit 0x20 q), (.lnkCommit q, blockCommit 0x21 q),
      (.refCommit q, blockCommit 0x22 q), (.corCommit q, blockCommit 0x23 q), (.gnsCommit q, blockCommit 0x24 q),
      (.evtCommit q, blockCommit 0x25 q), (.lanCommit q, blockCommit 0x30 q), (.logCommit q, blockCommit 0x40 q),
      (.arbCommit q, blockCommit 0x42 q), (.hieCommit q, blockCommit 0x50 q), (.hstCommit q, blockCommit 0x71 q)] ∧
      s.taken Op.PARAM_COMMIT rq x ∧
      (commitOp rq.payload).nano ≤ 999999999 ∧
      blockNumbers.contains (commitOp rq.payload).block = true ∧
      hasCommit (commitOp rq.payload).block = true ∧
      (commitOp rq.payload).block ≠ 0x31 ∧
      (commitOp rq.payload).scheduled = false ∧
      s.canonicalForm ∧
      s.commitRefusal (commitOp rq.payload).block = 0)
      (.tbsCommit (Sample.commit (zeros 11))) (Sample.commit (zeros 11)) (blockCommit 0x20 (Sample.commit (zeros 11))) ((Sample.state [])) (Sample.sess)) ∧
    ((fun (c : Instr) (q rq : Request) (s : State) (x : Session) =>
      (c, rq) ∈ [
      (Instr.fabCommit q, blockCommit 0x10 q), (.prtCommit q, blockCommit 0x11 q), (.tblCommit q, blockCommit 0x13 q),
      (.lckCommit q, blockCommit 0x14 q), (.tbsCommit q, blockCommit 0x20 q), (.lnkCommit q, blockCommit 0x21 q),
      (.refCommit q, blockCommit 0x22 q), (.corCommit q, blockCommit 0x23 q), (.gnsCommit q, blockCommit 0x24 q),
      (.evtCommit q, blockCommit 0x25 q), (.lanCommit q, blockCommit 0x30 q), (.logCommit q, blockCommit 0x40 q),
      (.arbCommit q, blockCommit 0x42 q), (.hieCommit q, blockCommit 0x50 q), (.hstCommit q, blockCommit 0x71 q)] ∧
      s.taken Op.PARAM_COMMIT rq x ∧
      (commitOp rq.payload).nano ≤ 999999999 ∧
      blockNumbers.contains (commitOp rq.payload).block = true ∧
      hasCommit (commitOp rq.payload).block = true ∧
      (commitOp rq.payload).block ≠ 0x31 ∧
      (commitOp rq.payload).scheduled = false ∧
      s.canonicalForm ∧
      s.commitRefusal (commitOp rq.payload).block = 0)
      (.hstCommit (Sample.commit (zeros 11))) (Sample.commit (zeros 11)) (blockCommit 0x71 (Sample.commit (zeros 11))) ((Sample.state [])) (Sample.sess)) ∧
    ((fun (c : Instr) (q rq : Request) (s : State) (x : Session) =>
      (c, rq) ∈ [
      (Instr.fabCommit q, blockCommit 0x10 q), (.prtCommit q, blockCommit 0x11 q), (.tblCommit q, blockCommit 0x13 q),
      (.lckCommit q, blockCommit 0x14 q), (.tbsCommit q, blockCommit 0x20 q), (.lnkCommit q, blockCommit 0x21 q),
      (.refCommit q, blockCommit 0x22 q), (.corCommit q, blockCommit 0x23 q), (.gnsCommit q, blockCommit 0x24 q),
      (.evtCommit q, blockCommit 0x25 q), (.lanCommit q, blockCommit 0x30 q), (.logCommit q, blockCommit 0x40 q),
      (.arbCommit q, blockCommit 0x42 q), (.hieCommit q, blockCommit 0x50 q), (.hstCommit q, blockCommit 0x71 q)] ∧
      s.taken Op.PARAM_COMMIT rq x ∧
      (commitOp rq.payload).nano ≤ 999999999 ∧
      blockNumbers.contains (commitOp rq.payload).block = true ∧
      hasCommit (commitOp rq.payload).block = true ∧
      (commitOp rq.payload).block ≠ 0x31 ∧
      (commitOp rq.payload).scheduled = false ∧
      s.commitRefusal (commitOp rq.payload).block ≠ 0)
      (.tbsCommit (Sample.commit (zeros 11))) (Sample.commit (zeros 11)) (blockCommit 0x20 (Sample.commit (zeros 11))) ((((Sample.state [])).wrShadow P.TBS_DOM_LINK 0 3).wrShadow P.TBS_DOM_LINK 1 3) (Sample.sess)) ∧
    ((fun (block : BitVec 8) (rq : Request) (s : State) (x : Session) =>
      s.taken Op.PARAM_COMMIT (blockCommit block.toNat rq) x ∧
      (commitOp (blockCommit block.toNat rq).payload).nano ≤ 999999999 ∧
      blockNumbers.contains block.toNat = true ∧
      hasCommit block.toNat = false ∧
      (((commitOp (blockCommit block.toNat rq).payload).scheduled = false ∨ x.version ≠ 1)))
      (1) (Sample.commit (zeros 11)) ((Sample.state [])) (Sample.sess)) :=
  ⟨(⟨by decide +kernel, Sample.taken_of (by unfold State.reached; decide +kernel) (by decide +kernel) (by decide +kernel), by decide +kernel, by decide +kernel, by decide +kernel, by decide +kernel, by decide +kernel, by refine ⟨?_, ?_, ?_⟩ <;> decide +kernel, by decide +kernel⟩),
   (⟨by decide +kernel, Sample.taken_of (by unfold State.reached; decide +kernel) (by decide +kernel) (by decide +kernel), by decide +kernel, by decide +kernel, by decide +kernel, by decide +kernel, by decide +kernel, by refine ⟨?_, ?_, ?_⟩ <;> decide +kernel, by decide +kernel⟩),
   (⟨by decide +kernel, Sample.taken_of (by unfold State.reached; decide +kernel) (by decide +kernel) (by decide +kernel), by decide +kernel⟩),
   (⟨Sample.taken_of (by unfold State.reached; decide +kernel) (by decide +kernel) (by decide +kernel), by decide +kernel⟩)⟩

theorem test_meets_ScheduledCommitWaitsAndActs :
    ((fun (c : Instr) (q rq : Request) (s : State) (x : Session) =>
      (c, rq) ∈ [
      (Instr.fabCommit q, blockCommit 0x10 q), (.prtCommit q, blockCommit 0x11 q), (.tblCommit q, blockCommit 0x13 q),
      (.lckCommit q, blockCommit 0x14 q), (.tbsCommit q, blockCommit 0x20 q), (.lnkCommit q, blockCommit 0x21 q),
      (.refCommit q, blockCommit 0x22 q), (.corCommit q, blockCommit 0x23 q), (.gnsCommit q, blockCommit 0x24 q),
      (.evtCommit q, blockCommit 0x25 q), (.lanCommit q, blockCommit 0x30 q), (.logCommit q, blockCommit 0x40 q),
      (.arbCommit q, blockCommit 0x42 q), (.hieCommit q, blockCommit 0x50 q), (.hstCommit q, blockCommit 0x71 q)] ∧
      s.taken Op.PARAM_COMMIT rq x ∧
      (commitOp rq.payload).nano ≤ 999999999 ∧
      x.version ≠ 1 ∧
      blockNumbers.contains (commitOp rq.payload).block = true ∧
      hasCommit (commitOp rq.payload).block = true ∧
      (commitOp rq.payload).block ≠ 0x31 ∧
      (commitOp rq.payload).scheduled = true ∧
      s.modNs ≤ instant (commitOp rq.payload).sec (commitOp rq.payload).nano)
      (.tbsCommit (Sample.commit (1 :: zeros 9 ++ [9]))) (Sample.commit (1 :: zeros 9 ++ [9])) (blockCommit 0x20 (Sample.commit (1 :: zeros 9 ++ [9]))) ((Sample.state [])) (Sample.sess)) ∧
    ((fun (block : Fin 256) (s : State) (j : PendingCommit) =>
      block.val ≠ 0x31 ∧
      s.canonicalForm ∧
      (s.cmd.commits.find? fun c => c.block == block.val && decide (c.due ≤ s.modNs)) = some j ∧
      s.commitRefusal block.val = 0)
      (0x20) ({ (Sample.state []) with cmd := { State.reset.cmd with sessions := [Sample.sess], commits := [⟨0x20, 0, originOf Sample.sess Op.PARAM_COMMIT (Sample.commit [])⟩] } }) (⟨0x20, 0, originOf Sample.sess Op.PARAM_COMMIT (Sample.commit [])⟩)) ∧
    ((fun (block : Fin 256) (s : State) =>
      block.val ≠ 0x31 ∧
      (s.cmd.commits.find? fun c => c.block == block.val && decide (c.due ≤ s.modNs)) = none)
      (0x20) ((Sample.state []))) ∧
    ((fun (rq : Request) (s : State) (x : Session) =>
      s.taken Op.PARAM_COMMIT (blockCommit 0x31 rq) x ∧
      (commitOp (blockCommit 0x31 rq).payload).nano ≤ 999999999 ∧
      (commitOp (blockCommit 0x31 rq).payload).scheduled = false ∧
      s.optics.synJobs = [] ∧
      ((maskedSyns 15).all s.synLegal) = true ∧
      ((∀ j, j < 4 → s.rd P.SYN_STATE (32 + j) ≠ 1 ∧ s.rd P.SYN_STATE (32 + j) ≠ 3)))
      (Sample.commit (zeros 11)) ((Sample.state [])) (Sample.sess)) :=
  ⟨(⟨by decide +kernel, Sample.taken_of (by unfold State.reached; decide +kernel) (by decide +kernel) (by decide +kernel), by decide +kernel⟩),
   (⟨by decide +kernel, by refine ⟨?_, ?_, ?_⟩ <;> decide, by decide +kernel⟩),
   (by beta_reduce; and_intros <;> decide +kernel),
   (⟨Sample.taken_of (by unfold State.reached; decide +kernel) (by decide +kernel) (by decide +kernel), by decide +kernel⟩)⟩

theorem test_meets_FabricStartsAndDrains :
    ((fun (rq : Request) (s : State) (x : Session) =>
      s.taken Op.FABRIC_ENABLE rq x ∧
      s.rd P.PWR_SHUTTER_STATE = 0 ∧
      s.rd P.FAB_STATE ≠ 0 ∧
      s.rd P.FAB_STATE ≠ 2 ∧
      s.rd P.FAB_PACE_NOW = s.rd P.FAB_PACE)
      ((Sample.rq Op.FABRIC_ENABLE [])) ((Sample.state [((P.FAB_STATE, 0), 1), ((P.FAB_PACE_NOW, 0), 1), ((P.FAB_STEP_COUNT, 0), 9)])) (Sample.sess)) ∧
    ((fun (rq : Request) (s : State) (x : Session) =>
      s.taken Op.FABRIC_ENABLE rq x ∧
      s.rd P.PWR_SHUTTER_STATE = 0 ∧
      s.rd P.FAB_STATE ≠ 0 ∧
      s.rd P.FAB_STATE ≠ 2 ∧
      s.rd P.FAB_PACE_NOW = s.rd P.FAB_PACE)
      ((Sample.rq Op.FABRIC_ENABLE [])) ((Sample.state [((P.FAB_STATE, 0), 3), ((P.FAB_PACE_NOW, 0), 1), ((P.FAB_STEP_COUNT, 0), 9)])) (Sample.sess)) ∧
    ((fun (rq : Request) (s : State) (x : Session) (st : Nat) =>
      s.taken Op.FABRIC_ENABLE rq x ∧
      (((s.rd P.PWR_SHUTTER_STATE ≠ 0 ∧ st = Status.SHUTTER_ACTIVE) ∨
      (s.rd P.PWR_SHUTTER_STATE = 0 ∧ s.rd P.FAB_STATE = 2 ∧ st = Status.OK) ∨
      (s.rd P.PWR_SHUTTER_STATE = 0 ∧ s.rd P.FAB_STATE ≠ 2 ∧
        (s.rd P.FAB_STATE = 0 ∨ s.rd P.FAB_PACE_NOW ≠ s.rd P.FAB_PACE) ∧ st = Status.NOT_READY))))
      ((Sample.rq Op.FABRIC_ENABLE [])) ((Sample.state [((P.FAB_STATE, 0), 1), ((P.FAB_PACE_NOW, 0), 0)])) (Sample.sess) (Status.NOT_READY)) ∧
    ((fun (rq : Request) (s : State) (x : Session) (st : Nat) =>
      s.taken Op.FABRIC_ENABLE rq x ∧
      (((s.rd P.PWR_SHUTTER_STATE ≠ 0 ∧ st = Status.SHUTTER_ACTIVE) ∨
      (s.rd P.PWR_SHUTTER_STATE = 0 ∧ s.rd P.FAB_STATE = 2 ∧ st = Status.OK) ∨
      (s.rd P.PWR_SHUTTER_STATE = 0 ∧ s.rd P.FAB_STATE ≠ 2 ∧
        (s.rd P.FAB_STATE = 0 ∨ s.rd P.FAB_PACE_NOW ≠ s.rd P.FAB_PACE) ∧ st = Status.NOT_READY))))
      ((Sample.rq Op.FABRIC_ENABLE [])) ((Sample.state [((P.FAB_STATE, 0), 2), ((P.PWR_SHUTTER_STATE, 0), 1)])) (Sample.sess) (Status.SHUTTER_ACTIVE)) ∧
    ((fun (rq : Request) (s : State) (x : Session) =>
      s.taken Op.FABRIC_DISABLE rq x)
      ((Sample.rq Op.FABRIC_DISABLE [])) ((Sample.state [((P.FAB_STATE, 0), 2)])) (Sample.sess)) ∧
    (((fun (s : State) =>
      s.rd P.FAB_STATE = 3 ∧
      s.drained = true)
      ((Sample.state [((P.FAB_STATE, 0), 3)]))) ∧
    ((fun (s : State) =>
      (s.rd P.FAB_STATE ≠ 3 ∨ s.drained = false))
      ((Sample.state [((P.FAB_STATE, 0), 2)]))) ∧
    ((fun (s : State) (e : Nat) =>
      s.rd P.FAB_STATE = 3 ∧
      s.fabric.drainBy = some e ∧
      e ≤ s.clock)
      ({ (Sample.state [((P.FAB_STATE, 0), 3), ((P.FAB_BASIN_OCC, 5), 1)]) with fabric := { State.reset.fabric with drainBy := some 0, cells := [⟨5, 1, 0, 2, 0, [], false, false, false, false⟩] } }) (0)) ∧
    ((fun (s : State) =>
      (s.rd P.FAB_STATE ≠ 3 ∨ (∀ e, s.fabric.drainBy = some e → s.clock < e)))
      ((Sample.state [((P.FAB_STATE, 0), 2)])))) :=
  ⟨(⟨Sample.taken_of (by unfold State.reached; decide +kernel) (by decide +kernel) (by decide +kernel), by decide +kernel⟩),
   (⟨Sample.taken_of (by unfold State.reached; decide +kernel) (by decide +kernel) (by decide +kernel), by decide +kernel⟩),
   (⟨Sample.taken_of (by unfold State.reached; decide +kernel) (by decide +kernel) (by decide +kernel), by decide +kernel⟩),
   (⟨Sample.taken_of (by unfold State.reached; decide +kernel) (by decide +kernel) (by decide +kernel), by decide +kernel⟩),
   (Sample.taken_of (by unfold State.reached; decide +kernel) (by decide +kernel) (by decide +kernel)),
   (by beta_reduce; and_intros <;> decide +kernel)⟩

theorem test_meets_FabricStepMovesCells :
    ((fun (faults : List (Fin 64 × CellFault)) (upsets : List QuayUpset) (s : State) =>
      (s.rd P.FAB_STATE = 2 ∨ s.rd P.FAB_STATE = 3))
      ([]) ([]) ((Sample.state [((P.FAB_STATE, 0), 2), ((P.FAB_STEP_COUNT, 0), 9)]))) ∧
    ((fun (faults : List (Fin 64 × CellFault)) (upsets : List QuayUpset) (s : State) =>
      s.rd P.FAB_STATE ≠ 2 ∧
      s.rd P.FAB_STATE ≠ 3)
      ([]) ([]) ((Sample.state [((P.FAB_STATE, 0), 1)]))) ∧
    ((fun (s : State) (q : Queued) (f : Frame) =>
      s.rd P.FAB_STATE = 2 ∧
      s.fabric.queued = [q] ∧
      s.frame q.frame = some f ∧
      f.inlet < 64 ∧
      f.cls < 8 ∧
      f.express = false ∧
      s.fabric.cells = [] ∧
      s.fabric.parked = [] ∧
      s.fabric.sluice = [] ∧
      0 < s.rd P.FAB_BALANCE_D ∧
      0 < s.rd P.FAB_BASIN_RESERVE)
      ({ (Sample.state [((P.FAB_STATE, 0), 2), ((P.FAB_STEP_COUNT, 0), 9)]) with fabric := { State.reset.fabric with queued := [⟨0, 0⟩], frames := [Sample.frame] } }) (⟨0, 0⟩) (Sample.frame)) ∧
    ((fun (o : Fin 64) (s : State) (c : Cell) =>
      (s.fabric.parked.find? fun y => y.outlet == o.val) = some c ∧
      ((List.range 8).any fun k => s.stopping o.val k) = false ∧
      look o.val 0 s.fabric.quiet + s.rd P.FAB_RESEQ_TIMEOUT ≤ s.rd P.FAB_STEP_COUNT)
      (1) ({ (Sample.state [((P.FAB_STATE, 0), 2), ((P.FAB_STEP_COUNT, 0), 50000)]) with fabric := { State.reset.fabric with parked := [⟨5, 1, 0, 2, 7, [], false, false, false, false⟩] } }) (⟨5, 1, 0, 2, 7, [], false, false, false, false⟩)) ∧
    ((fun (o : Fin 64) (s : State) =>
      ((∀ c ∈ s.fabric.parked, c.outlet ≠ o.val) ∨ ((List.range 8).any fun k => s.stopping o.val k) = true ∨
    s.rd P.FAB_STEP_COUNT < look o.val 0 s.fabric.quiet + s.rd P.FAB_RESEQ_TIMEOUT))
      (1) ((Sample.state [((P.FAB_STATE, 0), 2)]))) :=
  by beta_reduce; and_intros <;> decide +kernel

theorem test_meets_FabricSpeedAndPace :
    ((fun (s : State) =>
      (s.rd P.FAB_STATE = 2 ∨ s.rd P.FAB_STATE = 3) ∧
      s.fabric.stepAt + 1000000 ≤ s.clock)
      ({ (Sample.state [((P.FAB_STATE, 0), 2), ((P.FAB_STEP_COUNT, 0), 800000)]) with clock := 1000000 })) ∧
    ((fun (s : State) =>
      s.rd P.FAB_STATE ≠ 2 ∧
      s.rd P.FAB_STATE ≠ 3 ∧
      s.fabric.stepAt + 1000000 ≤ s.clock)
      ({ (Sample.state [((P.FAB_STATE, 0), 1)]) with clock := 1000000 })) ∧
    ((fun (s : State) =>
      s.clock < s.fabric.stepAt + 1000000)
      ((Sample.state [((P.FAB_STATE, 0), 2)]))) ∧
    ((fun (s : State) (c : Nat) =>
      s.fabric.lowSince = some c ∧
      s.fabric.armed = true ∧
      s.rd P.FAB_STATE = 2 ∧
      c + s.rd P.FAB_MARGIN_TIME * 1000000 ≤ s.clock)
      ({ (Sample.state [((P.FAB_STATE, 0), 2)]) with fabric := { State.reset.fabric with lowSince := some 0 }, clock := 100000000000 }) (0)) ∧
    ((fun (s : State) =>
      (s.fabric.armed = false ∨ s.rd P.FAB_STATE ≠ 2 ∨ (∀ c, s.fabric.lowSince = some c → s.clock < c + s.rd P.FAB_MARGIN_TIME * 1000000)))
      ((Sample.state []))) ∧
    ((fun (s : State) (c : Nat) =>
      s.fabric.mismatch = some c ∧
      c + 100000000 ≤ s.clock)
      ({ (Sample.state []) with fabric := { State.reset.fabric with mismatch := some 0 }, clock := 100000000 }) (0)) ∧
    ((fun (s : State) =>
      ((∀ c, s.fabric.mismatch = some c → s.clock < c + 100000000)))
      ({ (Sample.state []) with fabric := { State.reset.fabric with mismatch := none } })) :=
  by beta_reduce; and_intros <;> decide +kernel

theorem test_meets_TableLookupsAnswerEntries :
    ((fun (rq : Request) (s : State) (x : Session) (r i : Nat) (e : MacEntry) =>
      s.taken Op.TBL_SEARCH rq x ∧
      r < 8 ∧
      beAt 0 1 rq.payload = 0 ∧
      beAt 1 1 rq.payload = 2 ^ r ∧
      beAt 4 2 rq.payload ≤ 4095 ∧
      s.macFind r (beAt 4 2 rq.payload) (beAt 6 6 rq.payload) = some (i, e))
      ((Sample.rq Op.TBL_SEARCH ([0, 4, 0, 0] ++ toBe 2 7 ++ toBe 6 0x20000000001))) (Sample.table (Sample.state [])) (Sample.sess) (2) (262145) (Sample.entry)) ∧
    ((fun (rq : Request) (s : State) (x : Session) (r : Nat) =>
      s.taken Op.TBL_SEARCH rq x ∧
      r < 8 ∧
      beAt 0 1 rq.payload = 0 ∧
      beAt 1 1 rq.payload = 2 ^ r ∧
      beAt 4 2 rq.payload ≤ 4095 ∧
      s.macFind r (beAt 4 2 rq.payload) (beAt 6 6 rq.payload) = none)
      ((Sample.rq Op.TBL_SEARCH ([0, 4, 0, 0] ++ toBe 2 8 ++ toBe 6 0x20000000001))) (Sample.table (Sample.state [])) (Sample.sess) (2)) ∧
    ((fun (rq : Request) (s : State) (x : Session) (r : Nat) =>
      s.taken Op.TBL_SEARCH rq x ∧
      r < 8 ∧
      beAt 0 1 rq.payload = 1 ∧
      beAt 1 1 rq.payload = 2 ^ r)
      ((Sample.rq Op.TBL_SEARCH ([1, 4, 0, 0] ++ toBe 2 8 ++ toBe 6 0))) ((Sample.state [])) (Sample.sess) (2)) ∧
    ((fun (rq : Request) (s : State) (x : Session) (rs : List Nat) (p : List Byte) =>
      s.taken Op.TBL_SEARCH rq x ∧
      p = rq.payload ∧
      beAt 0 1 p ≤ 1 ∧
      beAt 1 1 p ≠ 0 ∧
      ((beAt 0 1 p = 0 → beAt 4 2 p ≤ 4095)) ∧
      rs = (List.range 8).filter (beAt 1 1 p).testBit)
      ((Sample.rq Op.TBL_SEARCH ([0, 6, 0, 0] ++ toBe 2 7 ++ toBe 6 0x20000000001))) (Sample.table (Sample.state [])) (Sample.sess) ([1, 2]) ([0, 6, 0, 0] ++ toBe 2 7 ++ toBe 6 0x20000000001)) ∧
    ((fun (rq : Request) (s : State) (x : Session) (rs : List Nat) (p : List Byte) =>
      s.taken Op.TBL_SEARCH rq x ∧
      p = rq.payload ∧
      beAt 0 1 p ≤ 1 ∧
      beAt 1 1 p ≠ 0 ∧
      ((beAt 0 1 p = 0 → beAt 4 2 p ≤ 4095)) ∧
      rs = (List.range 8).filter (beAt 1 1 p).testBit)
      ((Sample.rq Op.TBL_SEARCH ([1, 4, 0, 0] ++ toBe 2 8 ++ toBe 6 0))) ((Sample.state [])) (Sample.sess) ([2]) ([1, 4, 0, 0] ++ toBe 2 8 ++ toBe 6 0)) ∧
    ((fun (rq : Request) (s : State) (x : Session) =>
      s.taken Op.TBL_SEARCH rq x ∧
      ((1 < beAt 0 1 rq.payload ∨ beAt 1 1 rq.payload = 0 ∨ (beAt 0 1 rq.payload = 0 ∧ 4095 < beAt 4 2 rq.payload))))
      ((Sample.rq Op.TBL_SEARCH (zeros 12))) ((Sample.state [])) (Sample.sess)) ∧
    ((fun (rq : Request) (s : State) (x : Session) (r k n : Nat) =>
      s.taken Op.TBL_NEXT rq x ∧
      beAt 0 1 rq.payload = r ∧
      r ≤ 7 ∧
      beAt 1 1 rq.payload = k ∧
      k ≤ 1 ∧
      beAt 2 2 rq.payload = n ∧
      1 ≤ n ∧
      n ≤ 169)
      ((Sample.rq Op.TBL_NEXT (toBe 1 2 ++ [0] ++ toBe 2 5 ++ zeros 4))) (Sample.table (Sample.state [])) (Sample.sess) (2) (0) (5)) ∧
    ((fun (rq : Request) (s : State) (x : Session) =>
      s.taken Op.TBL_NEXT rq x ∧
      ((7 < beAt 0 1 rq.payload ∨ 1 < beAt 1 1 rq.payload ∨ beAt 2 2 rq.payload = 0 ∨ 169 < beAt 2 2 rq.payload)))
      ((Sample.rq Op.TBL_NEXT (zeros 8))) ((Sample.state [])) (Sample.sess)) :=
  ⟨(⟨Sample.taken_of (by unfold State.reached; decide +kernel) (by decide +kernel) (by decide +kernel), by decide +kernel⟩),
   (⟨Sample.taken_of (by unfold State.reached; decide +kernel) (by decide +kernel) (by decide +kernel), by decide +kernel⟩),
   (⟨Sample.taken_of (by unfold State.reached; decide +kernel) (by decide +kernel) (by decide +kernel), by decide +kernel⟩),
   (⟨Sample.taken_of (by unfold State.reached; decide +kernel) (by decide +kernel) (by decide +kernel), by decide +kernel⟩),
   (⟨Sample.taken_of (by unfold State.reached; decide +kernel) (by decide +kernel) (by decide +kernel), by decide +kernel⟩),
   (⟨Sample.taken_of (by unfold State.reached; decide +kernel) (by decide +kernel) (by decide +kernel), by decide +kernel⟩),
   (⟨Sample.taken_of (by unfold State.reached; decide +kernel) (by decide +kernel) (by decide +kernel), by decide +kernel⟩),
   (⟨Sample.taken_of (by unfold State.reached; decide +kernel) (by decide +kernel) (by decide +kernel), by decide +kernel⟩)⟩

theorem test_meets_TableEntriesAreWritten :
    ((fun (rq : Request) (s : State) (x : Session) (r : Nat) (e : MacEntry) =>
      s.taken Op.TBL_INSERT rq x ∧
      r < 8 ∧
      beAt 0 1 rq.payload = 2 ^ r ∧
      beAt 4 2 rq.payload ≤ 4095 ∧
      bit 127 (beAt 12 16 rq.payload) = true ∧
      ((field 122 122 (beAt 12 16 rq.payload) = 0 → field 121 108 (beAt 12 16 rq.payload) ≤ 511)) ∧
      e = insertEntry (beAt 4 8 rq.payload) (beAt 12 16 rq.payload) s.now ∧
      (((s.macFind r e.vid e.mac).isSome = true ∨ (s.placeDirect r (s.rd P.TBL_SEED r) e 4).isSome = true)))
      ((Sample.rq Op.TBL_INSERT ([4, 0, 0, 0] ++ toBe 2 7 ++ toBe 6 0x20000000001 ++ toBe 16 (2 ^ 127 + 9 * 2 ^ 108)))) (Sample.table (Sample.state [])) (Sample.sess) (2) (insertEntry (7 * 2 ^ 48 + 0x20000000001) (2 ^ 127 + 9 * 2 ^ 108) 0)) ∧
    ((fun (rq : Request) (s : State) (x : Session) (r : Nat) (e : MacEntry) =>
      s.taken Op.TBL_INSERT rq x ∧
      r < 8 ∧
      beAt 0 1 rq.payload = 2 ^ r ∧
      beAt 4 2 rq.payload ≤ 4095 ∧
      bit 127 (beAt 12 16 rq.payload) = true ∧
      ((field 122 122 (beAt 12 16 rq.payload) = 0 → field 121 108 (beAt 12 16 rq.payload) ≤ 511)) ∧
      e = insertEntry (beAt 4 8 rq.payload) (beAt 12 16 rq.payload) s.now ∧
      (((s.macFind r e.vid e.mac).isSome = true ∨ (s.placeDirect r (s.rd P.TBL_SEED r) e 4).isSome = true)))
      ((Sample.rq Op.TBL_INSERT ([4, 0, 0, 0] ++ toBe 2 7 ++ toBe 6 0x20000000001 ++ toBe 16 (2 ^ 127 + 9 * 2 ^ 108)))) ((Sample.state [])) (Sample.sess) (2) (insertEntry (7 * 2 ^ 48 + 0x20000000001) (2 ^ 127 + 9 * 2 ^ 108) 0)) ∧
    ((fun (rq : Request) (s : State) (x : Session) (rs : List Nat) (e : MacEntry) =>
      s.taken Op.TBL_INSERT rq x ∧
      beAt 0 1 rq.payload ≠ 0 ∧
      rs = (List.range 8).filter (beAt 0 1 rq.payload).testBit ∧
      beAt 4 2 rq.payload ≤ 4095 ∧
      bit 127 (beAt 12 16 rq.payload) = true ∧
      ((field 122 122 (beAt 12 16 rq.payload) = 0 → field 121 108 (beAt 12 16 rq.payload) ≤ 511)) ∧
      e = insertEntry (beAt 4 8 rq.payload) (beAt 12 16 rq.payload) s.now ∧
      (rs.all fun r => (s.macFind r e.vid e.mac).isSome || (s.placeDirect r (s.rd P.TBL_SEED r) e 4).isSome) = true)
      ((Sample.rq Op.TBL_INSERT ([6, 0, 0, 0] ++ toBe 2 7 ++ toBe 6 0x20000000001 ++ toBe 16 (2 ^ 127 + 9 * 2 ^ 108)))) (Sample.table (Sample.state [])) (Sample.sess) ([1, 2]) (insertEntry (7 * 2 ^ 48 + 0x20000000001) (2 ^ 127 + 9 * 2 ^ 108) 0)) ∧
    ((fun (rq : Request) (s : State) (x : Session) (r : Nat) (e : MacEntry) =>
      s.taken Op.TBL_INSERT rq x ∧
      r < 8 ∧
      beAt 0 1 rq.payload = 2 ^ r ∧
      beAt 4 2 rq.payload ≤ 4095 ∧
      bit 127 (beAt 12 16 rq.payload) = true ∧
      ((field 122 122 (beAt 12 16 rq.payload) = 0 → field 121 108 (beAt 12 16 rq.payload) ≤ 511)) ∧
      e = insertEntry (beAt 4 8 rq.payload) (beAt 12 16 rq.payload) s.now ∧
      s.macFind r e.vid e.mac = none ∧
      (s.macPlace r (s.rd P.TBL_SEED r) e).2.1 = false)
      ((Sample.rq Op.TBL_INSERT ([4, 0, 0, 0] ++ toBe 2 7 ++ toBe 6 0x20000000001 ++ toBe 16 (2 ^ 127 + 9 * 2 ^ 108)))) (Sample.fullTable) (Sample.sess) (2) (insertEntry (7 * 2 ^ 48 + 0x20000000001) (2 ^ 127 + 9 * 2 ^ 108) 0)) ∧
    ((fun (rq : Request) (s : State) (x : Session) =>
      s.taken Op.TBL_INSERT rq x ∧
      ((beAt 0 1 rq.payload = 0 ∨ 4095 < beAt 4 2 rq.payload ∨ bit 127 (beAt 12 16 rq.payload) = false ∨
      (field 122 122 (beAt 12 16 rq.payload) = 0 ∧ 511 < field 121 108 (beAt 12 16 rq.payload)))))
      ((Sample.rq Op.TBL_INSERT (zeros 28))) ((Sample.state [])) (Sample.sess)) ∧
    ((fun (rq : Request) (s : State) (x : Session) (r i : Nat) (e : MacEntry) =>
      s.taken Op.TBL_DELETE rq x ∧
      r < 8 ∧
      beAt 0 1 rq.payload = 2 ^ r ∧
      beAt 4 2 rq.payload ≤ 4095 ∧
      s.macFind r (beAt 4 2 rq.payload) (beAt 6 6 rq.payload) = some (i, e))
      ((Sample.rq Op.TBL_DELETE ([4, 0, 0, 0] ++ toBe 2 7 ++ toBe 6 0x20000000001))) (Sample.table (Sample.state [])) (Sample.sess) (2) (262145) (Sample.entry)) ∧
    ((fun (rq : Request) (s : State) (x : Session) (hits : List (Nat × Nat)) =>
      s.taken Op.TBL_DELETE rq x ∧
      beAt 0 1 rq.payload ≠ 0 ∧
      beAt 4 2 rq.payload ≤ 4095 ∧
      hits = ((List.range 8).filter (beAt 0 1 rq.payload).testBit).filterMap (fun r =>
      (s.macFind r (beAt 4 2 rq.payload) (beAt 6 6 rq.payload)).map fun y => (r, y.1)) ∧
      hits ≠ [])
      ((Sample.rq Op.TBL_DELETE ([6, 0, 0, 0] ++ toBe 2 7 ++ toBe 6 0x20000000001))) (Sample.table (Sample.state [])) (Sample.sess) ([(2, 262145)])) ∧
    ((fun (rq : Request) (s : State) (x : Session) =>
      s.taken Op.TBL_DELETE rq x ∧
      ((beAt 0 1 rq.payload = 0 ∨ 4095 < beAt 4 2 rq.payload)))
      ((Sample.rq Op.TBL_DELETE (zeros 12))) ((Sample.state [])) (Sample.sess)) ∧
    ((fun (rq : Request) (s : State) (x : Session) =>
      s.taken Op.TBL_DELETE rq x ∧
      beAt 0 1 rq.payload ≠ 0 ∧
      beAt 4 2 rq.payload ≤ 4095 ∧
      ((∀ r, r < 8 → s.macFind r (beAt 4 2 rq.payload) (beAt 6 6 rq.payload) = none)))
      ((Sample.rq Op.TBL_DELETE ([4, 0, 0, 0] ++ toBe 2 7 ++ toBe 6 0x20000000001))) ((Sample.state [])) (Sample.sess)) ∧
    ((fun (r : Fin 8) (s : State) (f : Fence) (j : TblJob) =>
      s.oldestFence r.val = some f ∧
      s.fenceFrames f = 0 ∧
      findBy TblJob.id f.job s.tables.jobs = some j)
      (2) ({ (Sample.state []) with tables := { State.reset.tables with fences := [⟨2, 0, 0, 0⟩], jobs := [⟨0, originOf Sample.sess Op.TBL_DELETE (Sample.rq Op.TBL_DELETE []), [2], [], [2], 4, 0⟩] } }) (⟨2, 0, 0, 0⟩) (⟨0, originOf Sample.sess Op.TBL_DELETE (Sample.rq Op.TBL_DELETE []), [2], [], [2], 4, 0⟩)) ∧
    ((fun (r : Fin 8) (s : State) =>
      ((∀ f, s.oldestFence r.val = some f → s.fenceFrames f ≠ 0)))
      (2) ((Sample.state []))) ∧
    ((fun (rq : Request) (s : State) (x : Session) (r i : Nat) (e : MacEntry) =>
      s.taken Op.TBL_CLEAR_FLAP rq x ∧
      beAt 0 1 rq.payload = r ∧
      r ≤ 7 ∧
      beAt 4 2 rq.payload ≤ 4095 ∧
      s.macFind r (beAt 4 2 rq.payload) (beAt 6 6 rq.payload) = some (i, e))
      ((Sample.rq Op.TBL_CLEAR_FLAP ([2, 0, 0, 0] ++ toBe 2 7 ++ toBe 6 0x20000000001))) (Sample.table (Sample.state [])) (Sample.sess) (2) (262145) (Sample.entry)) ∧
    ((fun (rq : Request) (s : State) (x : Session) =>
      s.taken Op.TBL_CLEAR_FLAP rq x ∧
      ((7 < beAt 0 1 rq.payload ∨ 4095 < beAt 4 2 rq.payload)))
      ((Sample.rq Op.TBL_CLEAR_FLAP (8 :: zeros 11))) ((Sample.state [])) (Sample.sess)) ∧
    ((fun (rq : Request) (s : State) (x : Session) =>
      s.taken Op.TBL_CLEAR_FLAP rq x ∧
      beAt 0 1 rq.payload ≤ 7 ∧
      beAt 4 2 rq.payload ≤ 4095 ∧
      s.macFind (beAt 0 1 rq.payload) (beAt 4 2 rq.payload) (beAt 6 6 rq.payload) = none)
      ((Sample.rq Op.TBL_CLEAR_FLAP (zeros 12))) ((Sample.state [])) (Sample.sess)) :=
  ⟨(⟨Sample.taken_of (by unfold State.reached; decide +kernel) (by decide +kernel) (by decide +kernel), by decide +kernel⟩),
   (⟨Sample.taken_of (by unfold State.reached; decide +kernel) (by decide +kernel) (by decide +kernel), by decide +kernel⟩),
   (⟨Sample.taken_of (by unfold State.reached; decide +kernel) (by decide +kernel) (by decide +kernel), by decide +kernel⟩),
   (⟨Sample.taken_of (by unfold State.reached; decide +kernel) (by decide +kernel) (by decide +kernel), by decide +kernel⟩),
   (⟨Sample.taken_of (by unfold State.reached; decide +kernel) (by decide +kernel) (by decide +kernel), by decide +kernel⟩),
   (⟨Sample.taken_of (by unfold State.reached; decide +kernel) (by decide +kernel) (by decide +kernel), by decide +kernel⟩),
   (⟨Sample.taken_of (by unfold State.reached; decide +kernel) (by decide +kernel) (by decide +kernel), by decide +kernel⟩),
   (⟨Sample.taken_of (by unfold State.reached; decide +kernel) (by decide +kernel) (by decide +kernel), by decide +kernel⟩),
   (⟨Sample.taken_of (by unfold State.reached; decide +kernel) (by decide +kernel) (by decide +kernel), by decide +kernel⟩),
   (by beta_reduce; and_intros <;> decide +kernel),
   (by intro f h; exact absurd h (by decide +revert)),
   (⟨Sample.taken_of (by unfold State.reached; decide +kernel) (by decide +kernel) (by decide +kernel), by decide +kernel⟩),
   (⟨Sample.taken_of (by unfold State.reached; decide +kernel) (by decide +kernel) (by decide +kernel), by decide +kernel⟩),
   (⟨Sample.taken_of (by unfold State.reached; decide +kernel) (by decide +kernel) (by decide +kernel), by decide +kernel⟩)⟩

theorem test_meets_LearningAndAgeing :
    ((fun (r : Fin 8) (err : Bool) (s : State) =>
      ((nextLearn r.val s.tables.learns = none ∨
      ∃ l, nextLearn r.val s.tables.learns = some l ∧ s.modNs < l.ns + s.rd P.TBL_LEARN_HOLD * 1000)))
      (2) (false) ((Sample.state []))) ∧
    (((fun (r : Fin 8) (err : Bool) (s : State) (l : Learn) =>
      nextLearn r.val s.tables.learns = some l ∧
      l.ns + s.rd P.TBL_LEARN_HOLD * 1000 ≤ s.modNs ∧
      l.ns + 1000000000 < s.modNs)
      (2) (false) ({ (Sample.state []) with tables := { State.reset.tables with learns := [⟨2, 7, 9, 5, 0⟩] }, time := { State.reset.time with out := ⟨2, 0⟩ } }) (⟨2, 7, 9, 5, 0⟩)) ∧
    ((fun (r : Fin 8) (err : Bool) (s : State) (l : Learn) =>
      nextLearn r.val s.tables.learns = some l ∧
      l.ns + s.rd P.TBL_LEARN_HOLD * 1000 ≤ s.modNs ∧
      s.modNs ≤ l.ns + 1000000000 ∧
      l.reach = r.val ∧
      s.macFind r.val l.vid l.mac = none ∧
      s.learnSuppressed l = false ∧
      (s.placeDirect r.val (s.rd P.TBL_SEED r.val) ⟨l.vid, l.mac, false, false, 0, true, 0, l.port, 0, 0, 0, 0, true⟩ 4).isSome = true)
      (2) (false) ({ (Sample.state []) with tables := { State.reset.tables with learns := [⟨2, 7, 9, 5, 0⟩] }, time := { State.reset.time with out := ⟨1, 0⟩ } }) (⟨2, 7, 9, 5, 0⟩)) ∧
    ((fun (r : Fin 8) (s : State) (l : Learn) (i : Nat) (e : MacEntry) =>
      nextLearn r.val s.tables.learns = some l ∧
      l.ns + s.rd P.TBL_LEARN_HOLD * 1000 ≤ s.modNs ∧
      s.modNs ≤ l.ns + 1000000000 ∧
      l.reach = r.val ∧
      s.macFind r.val l.vid l.mac = some (i, e) ∧
      ((e.recent = false ∨ 0 ≤ stampDiff (l.ns % 2 ^ 32) e.lastStamp)))
      (2) ({ Sample.table (Sample.state []) with tables := { (Sample.table (Sample.state [])).tables with learns := [⟨2, 7, 0x20000000001, 5, 1000⟩] }, time := { State.reset.time with out := ⟨1, 0⟩ } }) (⟨2, 7, 0x20000000001, 5, 1000⟩) (262145) (Sample.entry)) ∧
    ((fun (r : Fin 8) (s : State) (l : Learn) (i : Nat) (e : MacEntry) =>
      nextLearn r.val s.tables.learns = some l ∧
      l.ns + s.rd P.TBL_LEARN_HOLD * 1000 ≤ s.modNs ∧
      s.modNs ≤ l.ns + 1000000000 ∧
      l.reach = r.val ∧
      s.macFind r.val l.vid l.mac = some (i, e) ∧
      ((e.recent = false ∨ 0 ≤ stampDiff (l.ns % 2 ^ 32) e.lastStamp)))
      (2) ({ Sample.table (Sample.state []) with tables := { (Sample.table (Sample.state [])).tables with learns := [⟨2, 7, 0x20000000001, 9, 1000⟩] }, time := { State.reset.time with out := ⟨1, 0⟩ } }) (⟨2, 7, 0x20000000001, 9, 1000⟩) (262145) (Sample.entry)) ∧
    ((fun (r : Fin 8) (s : State) (l : Learn) (i : Nat) (e : MacEntry) =>
      nextLearn r.val s.tables.learns = some l ∧
      l.ns + s.rd P.TBL_LEARN_HOLD * 1000 ≤ s.modNs ∧
      s.modNs ≤ l.ns + 1000000000 ∧
      l.reach = r.val ∧
      s.macFind r.val l.vid l.mac = some (i, e) ∧
      (s.macSet r.val i none).macFind r.val l.vid l.mac = none ∧
      s.learnSuppressed l = false ∧
      ((s.macSet r.val i none).placeDirect r.val (s.rd P.TBL_SEED r.val)
      ⟨l.vid, l.mac, false, false, 0, true, 0, l.port, 0, 0, 0, 0, true⟩ 4).isSome = true)
      (2) ({ Sample.table (Sample.state []) with tables := { (Sample.table (Sample.state [])).tables with learns := [⟨2, 7, 0x20000000001, 9, 1000⟩] }, time := { State.reset.time with out := ⟨1, 0⟩ } }) (⟨2, 7, 0x20000000001, 9, 1000⟩) (262145) (Sample.entry)) ∧
    ((fun (r : Fin 8) (s : State) =>
      s.rd P.TBL_AGE_TIME ≠ 0 ∧
      look r.val 0 s.tables.aged + 1000000000 * s.rd P.TBL_AGE_TIME ≤ s.clock)
      (2) ({ Sample.table (Sample.state []) with clock := 10 ^ 15 })) ∧
    ((fun (r : Fin 8) (s : State) =>
      (s.rd P.TBL_AGE_TIME = 0 ∨ s.clock < look r.val 0 s.tables.aged + 1000000000 * s.rd P.TBL_AGE_TIME))
      (2) ((Sample.state [((P.TBL_AGE_TIME, 0), 0)]))) ∧
    ((fun (r : Fin 8) (s : State) =>
      look r.val 0 s.tables.settled + 1000000000 ≤ s.clock)
      (2) ({ Sample.table (Sample.state []) with clock := 10 ^ 9 }))) ∧
    ((fun (r : Fin 8) (s : State) =>
      s.clock < look r.val 0 s.tables.settled + 1000000000)
      (2) ((Sample.state []))) :=
  ⟨(by exact Or.inl (by decide)),
   (by beta_reduce; and_intros <;> decide +kernel),
   (by decide +kernel)⟩

theorem test_meets_TableWalksAndStreamWrites :
    ((fun (rq : Request) (s : State) (x : Session) =>
      s.taken Op.TBL_FLUSH_PORT rq x ∧
      s.rd P.PWR_SHUTTER_STATE = 0 ∧
      beAt 3 1 rq.payload ≠ 0 ∧
      beAt 0 2 rq.payload ≤ 511 ∧
      beAt 4 2 rq.payload ≤ 4095 ∧
      ((reachesOf (beAt 3 1 rq.payload)).any s.walkRuns) = false)
      ((Sample.rq Op.TBL_FLUSH_PORT (toBe 2 9 ++ [0, 4] ++ zeros 4))) (Sample.table (Sample.state [])) (Sample.sess)) ∧
    ((fun (rq : Request) (s : State) (x : Session) (st : Nat) =>
      s.taken Op.TBL_FLUSH_PORT rq x ∧
      (((s.rd P.PWR_SHUTTER_STATE ≠ 0 ∧ st = Status.SHUTTER_ACTIVE) ∨
      (s.rd P.PWR_SHUTTER_STATE = 0 ∧ (beAt 3 1 rq.payload = 0 ∨ 511 < beAt 0 2 rq.payload ∨ 4095 < beAt 4 2 rq.payload) ∧
        st = Status.BAD_VALUE) ∨
      (s.rd P.PWR_SHUTTER_STATE = 0 ∧ beAt 3 1 rq.payload ≠ 0 ∧ beAt 0 2 rq.payload ≤ 511 ∧ beAt 4 2 rq.payload ≤ 4095 ∧
        ((reachesOf (beAt 3 1 rq.payload)).any s.walkRuns) = true ∧ st = Status.IN_PROGRESS))))
      ((Sample.rq Op.TBL_FLUSH_PORT (toBe 2 9 ++ [0, 0] ++ zeros 4))) (Sample.table (Sample.state [])) (Sample.sess) (Status.BAD_VALUE)) ∧
    (((fun (r : Fin 8) (s : State) (f : Flush) =>
      (s.tables.flushes.find? fun g => g.reaches.contains r.val) = some f)
      (2) ({ Sample.table (Sample.state []) with tables := { (Sample.table (Sample.state [])).tables with flushes := [⟨0, [2], 5, none, true⟩] } }) (⟨0, [2], 5, none, true⟩)) ∧
    ((fun (r : Fin 8) (s : State) =>
      (s.tables.flushes.find? fun g => g.reaches.contains r.val) = none)
      (2) ((Sample.state [])))) ∧
    ((fun (rq : Request) (s : State) (x : Session) (r : Nat) =>
      s.taken Op.TBL_REHASH rq x ∧
      s.rd P.PWR_SHUTTER_STATE = 0 ∧
      beAt 0 1 rq.payload = r ∧
      r ≤ 7 ∧
      s.walkRuns r = false ∧
      s.rd P.TBL_REHASH_STATE r ≠ 2 ∧
      beAt 4 4 rq.payload ≠ s.rd P.TBL_SEED r)
      ((Sample.rq Op.TBL_REHASH ([2, 0, 0, 0] ++ toBe 4 77))) ((Sample.state [])) (Sample.sess) (2)) ∧
    ((fun (rq : Request) (s : State) (x : Session) (r st : Nat) =>
      s.taken Op.TBL_REHASH rq x ∧
      beAt 0 1 rq.payload = r ∧
      (((s.rd P.PWR_SHUTTER_STATE ≠ 0 ∧ st = Status.SHUTTER_ACTIVE) ∨
      (s.rd P.PWR_SHUTTER_STATE = 0 ∧ 7 < r ∧ st = Status.BAD_VALUE) ∨
      (s.rd P.PWR_SHUTTER_STATE = 0 ∧ r ≤ 7 ∧ s.walkRuns r = true ∧ st = Status.IN_PROGRESS) ∨
      (s.rd P.PWR_SHUTTER_STATE = 0 ∧ r ≤ 7 ∧ s.walkRuns r = false ∧ s.rd P.TBL_REHASH_STATE r ≠ 2 ∧
        beAt 4 4 rq.payload = s.rd P.TBL_SEED r ∧ st = Status.BAD_VALUE) ∨
      (s.rd P.PWR_SHUTTER_STATE = 0 ∧ r ≤ 7 ∧ s.walkRuns r = false ∧ s.rd P.TBL_REHASH_STATE r = 2 ∧
        beAt 4 4 rq.payload ≠ s.rd P.TBL_SEED r ∧ st = Status.NOT_READY))))
      ((Sample.rq Op.TBL_REHASH ([9, 0, 0, 0] ++ toBe 4 77))) ((Sample.state [])) (Sample.sess) (9) (Status.BAD_VALUE)) ∧
    (((fun (r : Fin 8) (s : State) (n : Nat) (o : Origin) =>
      (s.tables.rehash.find? fun y => y.1 == r.val) = some (n, o) ∧
      (s.sessionUid o.uid).isSome = true)
      (2) ({ (Sample.state []) with tables := { State.reset.tables with rehash := [(2, originOf Sample.sess Op.TBL_REHASH (Sample.rq Op.TBL_REHASH []))] } }) (2) (originOf Sample.sess Op.TBL_REHASH (Sample.rq Op.TBL_REHASH []))) ∧
    ((fun (r : Fin 8) (s : State) =>
      (s.tables.rehash.find? fun y => y.1 == r.val) = none)
      (2) ((Sample.state [])))) ∧
    ((fun (rq : Request) (s : State) (x : Session) (n : Nat) =>
      s.taken Op.TBL_STREAM_WRITE rq x ∧
      beAt 4 1 rq.payload = 0 ∧
      beAt 5 3 rq.payload = 0 ∧
      beAt 2 2 rq.payload = n ∧
      1 ≤ n ∧
      beAt 0 2 rq.payload + n ≤ 65536 ∧
      ((∀ i, i < n → streamLegal (beAt (8 + 8 * i) 8 rq.payload) = true)) ∧
      s.frozenMaster 12 = false)
      ((Sample.rq Op.TBL_STREAM_WRITE (toBe 2 300 ++ toBe 2 1 ++ zeros 4 ++ toBe 8 (2 ^ 63)))) ((Sample.state [])) (Sample.sess) (1)) ∧
    ((fun (rq : Request) (s : State) (x : Session) (n : Nat) =>
      s.taken Op.TBL_STREAM_WRITE rq x ∧
      beAt 4 1 rq.payload = 1 ∧
      beAt 5 3 rq.payload = 0 ∧
      n = (if beAt 2 2 rq.payload = 0 then 65536 else beAt 2 2 rq.payload) ∧
      beAt 0 2 rq.payload + n ≤ 65536 ∧
      streamLegal (beAt 8 8 rq.payload) = true ∧
      s.frozenMaster 12 = false)
      ((Sample.rq Op.TBL_STREAM_WRITE (toBe 2 300 ++ toBe 2 2 ++ [1] ++ zeros 3 ++ toBe 8 (2 ^ 63)))) ((Sample.state [])) (Sample.sess) (2)) ∧
    ((fun (rq : Request) (s : State) (x : Session) =>
      s.taken Op.TBL_STREAM_WRITE rq x ∧
      ((1 < beAt 4 1 rq.payload ∨ beAt 5 3 rq.payload ≠ 0 ∨ (beAt 4 1 rq.payload = 0 ∧ beAt 2 2 rq.payload = 0) ∨
      65536 < beAt 0 2 rq.payload + beAt 2 2 rq.payload)))
      ((Sample.rq Op.TBL_STREAM_WRITE (toBe 2 300 ++ toBe 2 1 ++ [2] ++ zeros 3 ++ toBe 8 (2 ^ 63)))) ((Sample.state [])) (Sample.sess)) ∧
    (((fun (r : Fin 8) (sid : BitVec 16) (s : State) =>
      s.tables.bad.contains (r.val, sid.toNat) = true ∧
      s.frozenMaster 12 = false)
      (2) (300) ({ (Sample.state []) with tables := { State.reset.tables with bad := [(2, 300)] } })) ∧
    ((fun (r : Fin 8) (sid : BitVec 16) (s : State) =>
      (s.tables.bad.contains (r.val, sid.toNat) = false ∨ s.frozenMaster 12 = true))
      (2) (300) ((Sample.state [])))) :=
  ⟨(⟨Sample.taken_of (by unfold State.reached; decide +kernel) (by decide +kernel) (by decide +kernel), by decide +kernel⟩),
   (⟨Sample.taken_of (by unfold State.reached; decide +kernel) (by decide +kernel) (by decide +kernel), by decide +kernel⟩),
   (by beta_reduce; and_intros <;> decide +kernel),
   (⟨Sample.taken_of (by unfold State.reached; decide +kernel) (by decide +kernel) (by decide +kernel), by decide +kernel⟩),
   (⟨Sample.taken_of (by unfold State.reached; decide +kernel) (by decide +kernel) (by decide +kernel), by decide +kernel⟩),
   (by beta_reduce; and_intros <;> decide +kernel),
   (⟨Sample.taken_of (by unfold State.reached; decide +kernel) (by decide +kernel) (by decide +kernel), by decide +kernel⟩),
   (⟨Sample.taken_of (by unfold State.reached; decide +kernel) (by decide +kernel) (by decide +kernel), by decide +kernel⟩),
   (⟨Sample.taken_of (by unfold State.reached; decide +kernel) (by decide +kernel) (by decide +kernel), by decide +kernel⟩),
   (by beta_reduce; and_intros <;> decide +kernel)⟩

theorem test_meets_FramesComeInOrAreCounted :
    (((fun (port : Fin 512) (bytes : List Byte) (bad e1 e2 : Bool) (raw : RawStamp) (s : State) (ctr : Nat) =>
      s.portUp port.val = true ∧
      s.rd P.PWR_SHUTTER_STATE = 0 ∧
      s.rd P.OBS_FROZEN = 0 ∧
      ((∀ k ∈ s.fabric.receiving, k.port ≠ port.val)) ∧
      ((((bad = true ∨ fcsGood bytes = false) ∧ ctr = P.PRT_RX_FCS_ERR) ∨
      (bad = false ∧ fcsGood bytes = true ∧ bytes.length < 64 ∧ ctr = P.PRT_RX_RUNT) ∨
      (bad = false ∧ fcsGood bytes = true ∧ 64 ≤ bytes.length ∧ s.rd P.PRT_MAX_FRAME port.val < bytes.length ∧
        ctr = P.PRT_RX_OVERSIZE))))
      (16) (zeros 64) (false) (false) (false) (⟨0, 0, 0, 0, 0⟩) ((Sample.state [((P.PRT_LINK_UP, 16), 1)])) (P.PRT_RX_FCS_ERR)) ∧
    ((fun (port : Fin 512) (bytes : List Byte) (bad e1 e2 : Bool) (raw : RawStamp) (s : State) (ctr : Nat) =>
      s.portUp port.val = true ∧
      s.rd P.PWR_SHUTTER_STATE = 0 ∧
      s.rd P.OBS_FROZEN = 0 ∧
      ((∀ k ∈ s.fabric.receiving, k.port ≠ port.val)) ∧
      ((((bad = true ∨ fcsGood bytes = false) ∧ ctr = P.PRT_RX_FCS_ERR) ∨
      (bad = false ∧ fcsGood bytes = true ∧ bytes.length < 64 ∧ ctr = P.PRT_RX_RUNT) ∨
      (bad = false ∧ fcsGood bytes = true ∧ 64 ≤ bytes.length ∧ s.rd P.PRT_MAX_FRAME port.val < bytes.length ∧
        ctr = P.PRT_RX_OVERSIZE))))
      (16) (withFcs (zeros 40)) (false) (false) (false) (⟨0, 0, 0, 0, 0⟩) ((Sample.state [((P.PRT_LINK_UP, 16), 1)])) (P.PRT_RX_RUNT)) ∧
    ((fun (port : Fin 512) (bytes : List Byte) (bad e1 e2 : Bool) (raw : RawStamp) (s : State) (ctr : Nat) =>
      s.portUp port.val = true ∧
      s.rd P.PWR_SHUTTER_STATE = 0 ∧
      s.rd P.OBS_FROZEN = 0 ∧
      ((∀ k ∈ s.fabric.receiving, k.port ≠ port.val)) ∧
      ((((bad = true ∨ fcsGood bytes = false) ∧ ctr = P.PRT_RX_FCS_ERR) ∨
      (bad = false ∧ fcsGood bytes = true ∧ bytes.length < 64 ∧ ctr = P.PRT_RX_RUNT) ∨
      (bad = false ∧ fcsGood bytes = true ∧ 64 ≤ bytes.length ∧ s.rd P.PRT_MAX_FRAME port.val < bytes.length ∧
        ctr = P.PRT_RX_OVERSIZE))))
      (16) (withFcs (zeros 100)) (false) (false) (false) (⟨0, 0, 0, 0, 0⟩) ((Sample.state [((P.PRT_LINK_UP, 16), 1), ((P.PRT_MAX_FRAME, 16), 70)])) (P.PRT_RX_OVERSIZE)) ∧
    ((fun (port : Fin 512) (bytes : List Byte) (e1 e2 : Bool) (raw : RawStamp) (s : State) =>
      s.portUp port.val = true ∧
      s.rd P.PWR_SHUTTER_STATE = 0 ∧
      ((∀ k ∈ s.fabric.receiving, k.port ≠ port.val)) ∧
      fcsGood bytes = true ∧
      64 ≤ bytes.length ∧
      bytes.length ≤ s.rd P.PRT_MAX_FRAME port.val ∧
      isMacControl bytes = false ∧
      isNhp bytes = false ∧
      s.fifoBytes (port.val / 8) + bytes.length ≤ 65536)
      (16) (withFcs (zeros 60)) (false) (false) (⟨500, 3, 2, 500, 0⟩) ((Sample.state [((P.PRT_LINK_UP, 16), 1)]))) ∧
    ((fun (port : Fin 512) (bytes : List Byte) (e1 e2 : Bool) (raw : RawStamp) (s : State) =>
      s.portUp port.val = true ∧
      s.rd P.PWR_SHUTTER_STATE = 0 ∧
      ((∀ k ∈ s.fabric.receiving, k.port ≠ port.val)) ∧
      fcsGood bytes = true ∧
      64 ≤ bytes.length ∧
      bytes.length ≤ s.rd P.PRT_MAX_FRAME port.val ∧
      isMacControl bytes = false ∧
      isNhp bytes = false ∧
      s.fifoBytes (port.val / 8) + bytes.length ≤ 65536)
      (16) (withFcs (zeros 60)) (false) (false) (⟨500, 3, 2, 500, 0⟩) ((Sample.state [((P.PRT_LINK_UP, 16), 1), ((P.FAB_STATE, 0), 2)]))) ∧
    ((fun (port : Fin 512) (bytes : List Byte) (e1 e2 : Bool) (raw : RawStamp) (s : State) =>
      s.portUp port.val = true ∧
      s.rd P.PWR_SHUTTER_STATE = 0 ∧
      s.rd P.OBS_FROZEN = 0 ∧
      ((∀ k ∈ s.fabric.receiving, k.port ≠ port.val)) ∧
      fcsGood bytes = true ∧
      64 ≤ bytes.length ∧
      bytes.length ≤ s.rd P.PRT_MAX_FRAME port.val ∧
      isMacControl bytes = false ∧
      isNhp bytes = false ∧
      65536 < s.fifoBytes (port.val / 8) + bytes.length)
      (16) (withFcs (zeros 60)) (false) (false) (⟨500, 3, 2, 500, 0⟩) ({ (Sample.state [((P.PRT_LINK_UP, 16), 1)]) with fabric := { State.reset.fabric with waiting := List.replicate 1100 0, frames := [Sample.frame] } })) ∧
    ((fun (port : Fin 512) (bytes : List Byte) (bad e1 e2 : Bool) (raw : RawStamp) (s : State) (r : Receiving) (f : Frame) =>
      s.portUp port.val = true ∧
      s.rd P.PWR_SHUTTER_STATE = 0 ∧
      s.rd P.OBS_FROZEN = 0 ∧
      (s.fabric.receiving.find? fun k => k.port == port.val) = some r ∧
      s.frame r.frame = some f ∧
      f.ended = false ∧
      f.port = port.val ∧
      bytes.length ≤ s.rd P.PRT_MAX_FRAME port.val ∧
      s.fifoBytes f.inlet + (bytes.length - f.size) ≤ 65536)
      (16) (withFcs (zeros 200)) (false) (false) (false) (⟨500, 3, 2, 500, 0⟩) ({ (Sample.state [((P.PRT_LINK_UP, 16), 1)]) with fabric := { State.reset.fabric with queued := [⟨0, 0⟩], frames := [{ Sample.frame with port := 16, express := true, ended := false }], receiving := [⟨16, 0, 0, 0, 0⟩] } }) (⟨16, 0, 0, 0, 0⟩) ({ Sample.frame with port := 16, express := true, ended := false })) ∧
    ((fun (port : Fin 512) (bytes : List Byte) (bad e1 e2 : Bool) (raw : RawStamp) (s : State) (r : Receiving) (f : Frame) =>
      s.portUp port.val = true ∧
      s.rd P.PWR_SHUTTER_STATE = 0 ∧
      s.rd P.OBS_FROZEN = 0 ∧
      (s.fabric.receiving.find? fun k => k.port == port.val) = some r ∧
      s.frame r.frame = some f ∧
      f.ended = false ∧
      f.port = port.val ∧
      bytes.length ≤ s.rd P.PRT_MAX_FRAME port.val ∧
      s.fifoBytes f.inlet + (bytes.length - f.size) ≤ 65536)
      (16) (withFcs (zeros 200)) (true) (false) (false) (⟨500, 3, 2, 500, 0⟩) ({ (Sample.state [((P.PRT_LINK_UP, 16), 1)]) with fabric := { State.reset.fabric with queued := [⟨0, 0⟩], frames := [{ Sample.frame with port := 16, express := true, ended := false }], receiving := [⟨16, 0, 0, 0, 0⟩] } }) (⟨16, 0, 0, 0, 0⟩) ({ Sample.frame with port := 16, express := true, ended := false }))) ∧
    (((fun (port : Fin 512) (bytes : List Byte) (bad e1 e2 : Bool) (raw : RawStamp) (s : State) (r : Receiving) (f : Frame) =>
      s.portUp port.val = true ∧
      s.rd P.PWR_SHUTTER_STATE = 0 ∧
      s.rd P.OBS_FROZEN = 0 ∧
      (s.fabric.receiving.find? fun k => k.port == port.val) = some r ∧
      s.frame r.frame = some f ∧
      f.ended = false ∧
      f.port = port.val ∧
      s.rd P.PRT_MAX_FRAME port.val < bytes.length)
      (16) (withFcs (zeros 200)) (false) (false) (false) (⟨500, 3, 2, 500, 0⟩) ({ (Sample.state [((P.PRT_LINK_UP, 16), 1), ((P.PRT_MAX_FRAME, 16), 100)]) with fabric := { State.reset.fabric with queued := [⟨0, 0⟩], frames := [{ Sample.frame with port := 16, express := true, ended := false }], receiving := [⟨16, 0, 0, 0, 0⟩] } }) (⟨16, 0, 0, 0, 0⟩) ({ Sample.frame with port := 16, express := true, ended := false })) ∧
    ((fun (port : Fin 512) (bytes : List Byte) (bad e1 e2 : Bool) (raw : RawStamp) (s : State) (r : Receiving) (f : Frame) =>
      s.portUp port.val = true ∧
      s.rd P.PWR_SHUTTER_STATE = 0 ∧
      s.rd P.OBS_FROZEN = 0 ∧
      (s.fabric.receiving.find? fun k => k.port == port.val) = some r ∧
      s.frame r.frame = some f ∧
      f.ended = false ∧
      f.port = port.val ∧
      s.rd P.PRT_MAX_FRAME port.val < bytes.length)
      (16) (withFcs (zeros 200)) (false) (false) (false) (⟨500, 3, 2, 500, 0⟩) ({ (Sample.state [((P.PRT_LINK_UP, 16), 1), ((P.PRT_MAX_FRAME, 16), 100)]) with fabric := { State.reset.fabric with queued := [⟨0, 256⟩], frames := [{ Sample.frame with port := 16, express := true, ended := false }], receiving := [⟨16, 0, 0, 0, 0⟩] } }) (⟨16, 0, 0, 0, 0⟩) ({ Sample.frame with port := 16, express := true, ended := false })) ∧
    ((fun (port : Fin 512) (bytes : List Byte) (e1 e2 : Bool) (raw : RawStamp) (s : State) =>
      s.portUp port.val = true ∧
      s.rd P.PWR_SHUTTER_STATE = 0 ∧
      ((∀ k ∈ s.fabric.receiving, k.port ≠ port.val)) ∧
      s.badFrame port.val bytes false = none ∧
      ((isMacControl bytes = true ∨ (isNhp bytes = true ∧ s.nhpRuns port.val = true))))
      (16) (Sample.control ([1, 1] ++ zeros 44)) (false) (false) (⟨0, 0, 0, 0, 0⟩) ((Sample.state [((P.PRT_LINK_UP, 16), 1)]))) ∧
    ((fun (port : Fin 512) (bytes : List Byte) (bad e1 e2 : Bool) (raw : RawStamp) (s : State) =>
      s.portUp port.val = false)
      (16) ([]) (false) (false) (false) (⟨0, 0, 0, 0, 0⟩) ((Sample.state [])))) :=
  ⟨(by beta_reduce; and_intros <;> decide +kernel),
   (by beta_reduce; and_intros <;> decide +kernel)⟩

theorem test_meets_ExpressStartAndAdmission :
    ((fun (port : Fin 512) (bytes : List Byte) (ended e1 e2 : Bool) (raw : RawStamp) (s : State) (l : Lookup) =>
      (s.lookup port.val bytes e1 e2).2 = l ∧
      s.rd P.PWR_SHUTTER_STATE = 0 ∧
      s.portUp port.val = true ∧
      ((s.rdb P.PRT_EXPRESS port.val = true ∨ streamExpress l.entry = true)) ∧
      isMacControl bytes = false ∧
      isNhp bytes = false ∧
      ((128 ≤ bytes.length ∨ ended = true)) ∧
      ((∀ k ∈ s.fabric.receiving, k.port ≠ port.val)) ∧
      expressError bytes ended false = false ∧
      l.kind = 0 ∧
      s.portUp l.dest = true ∧
      l.dest ≠ port.val ∧
      s.gbps l.dest ≤ s.gbps port.val ∧
      s.fifoBytes (port.val / 8) + bytes.length ≤ 65536)
      (16) (Sample.toEight) (false) (false) (false) (⟨500, 3, 2, 500, 0⟩) (Sample.unicast (Sample.state [((P.PRT_LINK_UP, 16), 1), ((P.PRT_LINK_UP, 5), 1), ((P.PRT_EXPRESS, 16), 1)])) (⟨1, 1, 0, 0, 5⟩)) ∧
    ((fun (port : Fin 512) (bytes : List Byte) (ended e1 e2 : Bool) (raw : RawStamp) (s : State) (l : Lookup) =>
      (s.lookup port.val bytes e1 e2).2 = l ∧
      s.rd P.PWR_SHUTTER_STATE = 0 ∧
      s.portUp port.val = true ∧
      s.rd P.OBS_FROZEN = 0 ∧
      ((s.rdb P.PRT_EXPRESS port.val = true ∨ streamExpress l.entry = true)) ∧
      ((128 ≤ bytes.length ∨ ended = true)) ∧
      ((∀ k ∈ s.fabric.receiving, k.port ≠ port.val)) ∧
      expressError bytes ended false = false ∧
      ((l.kind ≠ 0 ∨ s.portUp l.dest = false ∨ l.dest = port.val ∨ s.gbps port.val < s.gbps l.dest ∨ isMacControl bytes = true ∨
      isNhp bytes = true)))
      (16) (zeros 128) (false) (false) (false) (⟨500, 3, 2, 500, 0⟩) ((Sample.state [((P.PRT_LINK_UP, 16), 1), ((P.PRT_EXPRESS, 16), 1)])) (⟨1, 1, 0, 1, 0⟩)) ∧
    ((fun (port : Fin 512) (bytes : List Byte) (ended e1 e2 : Bool) (raw : RawStamp) (s : State) (l : Lookup) =>
      (s.lookup port.val bytes e1 e2).2 = l ∧
      s.rd P.PWR_SHUTTER_STATE = 0 ∧
      s.portUp port.val = true ∧
      s.rd P.OBS_FROZEN = 0 ∧
      ((s.rdb P.PRT_EXPRESS port.val = true ∨ streamExpress l.entry = true)) ∧
      ((128 ≤ bytes.length ∨ ended = true)) ∧
      ((∀ k ∈ s.fabric.receiving, k.port ≠ port.val)) ∧
      expressError bytes ended false = false ∧
      ((l.kind ≠ 0 ∨ s.portUp l.dest = false ∨ l.dest = port.val ∨ s.gbps port.val < s.gbps l.dest ∨ isMacControl bytes = true ∨
      isNhp bytes = true)))
      (16) (Sample.control ([1, 1] ++ zeros 108)) (false) (false) (false) (⟨500, 3, 2, 500, 0⟩) ((Sample.state [((P.PRT_LINK_UP, 16), 1), ((P.PRT_EXPRESS, 16), 1)])) (⟨1, 1, 0, 1, 0⟩)) ∧
    ((fun (port : Fin 512) (bytes : List Byte) (ended bad e1 e2 : Bool) (raw : RawStamp) (s : State) (l : Lookup) =>
      (s.lookup port.val bytes e1 e2).2 = l ∧
      ((s.rd P.PWR_SHUTTER_STATE ≠ 0 ∨ s.portUp port.val = false ∨ (bytes.length < 128 ∧ ended = false) ∨
      (ended = true ∧ ∃ k ∈ s.fabric.receiving, k.port = port.val) ∨
      ((∀ k ∈ s.fabric.receiving, k.port ≠ port.val) ∧
        ((s.rdb P.PRT_EXPRESS port.val = false ∧ streamExpress l.entry = false) ∨ expressError bytes ended bad = true)))))
      (16) (zeros 128) (false) (false) (false) (false) (⟨500, 3, 2, 500, 0⟩) ((Sample.state [((P.PRT_LINK_UP, 16), 1)])) (⟨1, 1, 0, 1, 0⟩)) ∧
    ((fun (port : Fin 512) (bytes : List Byte) (bad e1 e2 : Bool) (raw : RawStamp) (s : State) (r : Receiving) (f : Frame) =>
      s.rd P.PWR_SHUTTER_STATE = 0 ∧
      s.portUp port.val = true ∧
      128 ≤ bytes.length ∧
      (s.fabric.receiving.find? fun k => k.port == port.val) = some r ∧
      s.frame r.frame = some f ∧
      f.ended = false ∧
      bytes.length ≤ s.rd P.PRT_MAX_FRAME f.port ∧
      s.fifoBytes f.inlet + (bytes.length - f.size) ≤ 65536)
      (16) (zeros 256) (false) (false) (false) (⟨500, 3, 2, 500, 0⟩) ({ (Sample.state [((P.PRT_LINK_UP, 16), 1)]) with fabric := { State.reset.fabric with queued := [⟨0, 0⟩], frames := [{ Sample.frame with port := 16, express := true, ended := false }], receiving := [⟨16, 0, 0, 0, 0⟩] } }) (⟨16, 0, 0, 0, 0⟩) ({ Sample.frame with port := 16, express := true, ended := false })) ∧
    ((fun (inlet : Fin 64) (s : State) (id : Nat) =>
      (s.fabric.waiting.find? fun k => match s.frame k with
      | some f => f.inlet == inlet.val && !s.barred f.entry | none => false) = some id)
      (2) ({ (Sample.state [((P.FAB_STATE, 0), 2)]) with fabric := { State.reset.fabric with waiting := [0], frames := [Sample.frame] } }) (0)) ∧
    ((fun (inlet : Fin 64) (s : State) =>
      (s.fabric.waiting.find? fun k => match s.frame k with
      | some f => f.inlet == inlet.val && !s.barred f.entry | none => false) = none)
      (2) ((Sample.state [((P.FAB_STATE, 0), 2)]))) :=
  by beta_reduce; and_intros <;> decide +kernel

theorem test_meets_FlowControlPausesAndRepeats :
    (((fun (port : Fin 512) (bytes : List Byte) (s : State) =>
      s.portUp port.val = true ∧
      isMacControl bytes = true ∧
      s.badFrame port.val bytes false = none ∧
      beAt 14 2 bytes = 0x0101 ∧
      s.usesPause port.val = false)
      (16) (Sample.control ([1, 1] ++ [0, 6] ++ toBe 2 0 ++ toBe 2 3 ++ toBe 2 0 ++ zeros 38)) ((Sample.state [((P.PRT_LINK_UP, 16), 1), ((P.PRT_LANES, 16), 1)]))) ∧
    ((fun (port : Fin 512) (bytes : List Byte) (s : State) =>
      s.portUp port.val = true ∧
      isMacControl bytes = true ∧
      s.badFrame port.val bytes false = none ∧
      beAt 14 2 bytes = 0x0001 ∧
      s.usesPause port.val = true)
      (16) (Sample.control ([0, 1] ++ [0, 6] ++ zeros 42)) ((Sample.state [((P.PRT_LINK_UP, 16), 1), ((P.PRT_FC_MODE, 16), 1)]))) ∧
    ((fun (port : Fin 512) (bytes : List Byte) (s : State) =>
      ((s.portUp port.val = false ∨ isMacControl bytes = false ∨
      s.badFrame port.val bytes false ≠ none)))
      (16) ([]) ((Sample.state [((P.PRT_LINK_UP, 16), 1)]))) ∧
    ((fun (port : Fin 512) (bytes : List Byte) (s : State) =>
      s.portUp port.val = true ∧
      isMacControl bytes = true ∧
      s.badFrame port.val bytes false = none ∧
      beAt 14 2 bytes ≠ (if s.usesPause port.val = true then 0x0001 else 0x0101))
      (16) (Sample.control ([0, 1] ++ [0, 6] ++ zeros 42)) ((Sample.state [((P.PRT_LINK_UP, 16), 1)]))) ∧
    ((fun (port : Fin 512) (cls : Fin 8) (s : State) =>
      look (port.val, cls.val) 0 s.fabric.paused ≤ s.clock)
      (16) (3) ({ (Sample.state []) with fabric := { State.reset.fabric with paused := [((16, 3), 5)] }, clock := 6 })) ∧
    ((fun (port : Fin 512) (cls : Fin 8) (s : State) =>
      s.clock < look (port.val, cls.val) 0 s.fabric.paused)
      (16) (3) ({ (Sample.state []) with fabric := { State.reset.fabric with paused := [((16, 3), 5)] }, clock := 4 })) ∧
    ((fun (port : Fin 512) (cls : Fin 9) (s : State) (h : HoldOff) =>
      (s.fabric.off.find? fun y => y.port == port.val && y.cls == cls.val) = some h ∧
      h.sentAt * s.gbps port.val * 2 + h.quanta * 512 ≤ s.clock * s.gbps port.val * 2 ∧
      s.fabric.owed.contains (port.val, cls.val, true) = false ∧
      ((∀ y ∈ s.quay.sending, y.port ≠ port.val)))
      (16) (3) ({ (Sample.state [((P.PRT_LANES, 16), 1)]) with fabric := { State.reset.fabric with off := [⟨16, 3, 0, 65535⟩] }, clock := 10000000 }) (⟨16, 3, 0, 65535⟩)) ∧
    ((fun (port : Fin 512) (cls : Fin 9) (s : State) (h : HoldOff) =>
      (s.fabric.off.find? fun y => y.port == port.val && y.cls == cls.val) = some h ∧
      h.sentAt * s.gbps port.val * 2 + h.quanta * 512 ≤ s.clock * s.gbps port.val * 2 ∧
      s.fabric.owed.contains (port.val, cls.val, true) = false ∧
      ((∀ y ∈ s.quay.sending, y.port ≠ port.val)))
      (16) (8) ({ (Sample.state [((P.PRT_LANES, 16), 1)]) with fabric := { State.reset.fabric with off := [⟨16, 8, 0, 65535⟩] }, clock := 10000000 }) (⟨16, 8, 0, 65535⟩))) ∧
    (((fun (port : Fin 512) (cls : Fin 9) (s : State) (h : HoldOff) (y : Sending) =>
      (s.fabric.off.find? fun y => y.port == port.val && y.cls == cls.val) = some h ∧
      h.sentAt * s.gbps port.val * 2 + h.quanta * 512 ≤ s.clock * s.gbps port.val * 2 ∧
      s.fabric.owed.contains (port.val, cls.val, true) = false ∧
      y ∈ s.quay.sending ∧
      y.port = port.val)
      (16) (3) ({ Sample.sending (Sample.state [((P.PRT_LANES, 16), 1)]) with fabric := { State.reset.fabric with off := [⟨16, 3, 0, 65535⟩] }, clock := 10000000 }) (⟨16, 3, 0, 65535⟩) (⟨16, 0, ⟨0, 0, 0, 0⟩⟩)) ∧
    ((fun (port : Fin 512) (cls : Fin 9) (s : State) =>
      ((∀ h ∈ s.fabric.off, h.port = port.val → h.cls = cls.val →
      s.clock * s.gbps port.val * 2 < h.sentAt * s.gbps port.val * 2 + h.quanta * 512) ∨
    s.fabric.owed.contains (port.val, cls.val, true) = true))
      (16) (3) ((Sample.state [])))) :=
  ⟨(by beta_reduce; and_intros <;> decide +kernel),
   (by beta_reduce; and_intros <;> decide +kernel)⟩

theorem test_meets_FramesGoOutByPriority :
    ((fun (port : Fin 512) (raw : RawStamp) (s : State) (k : Copy) (f : Frame) (o : Bool) =>
      s.portUp port.val = true ∧
      s.portIdle port.val = true ∧
      s.nextCopyOf port.val = some (k, f, o) ∧
      f.size ≤ s.rd P.PRT_MAX_FRAME port.val)
      (16) (⟨500, 3, 2, 500, 0⟩) (Sample.egress (Sample.state [((P.PRT_LINK_UP, 16), 1), ((P.PRT_LANES, 16), 1)])) (Sample.copy) (Sample.frame) (false)) ∧
    ((fun (port : Fin 512) (raw : RawStamp) (s : State) (k : Copy) (f : Frame) (o : Bool) =>
      s.portUp port.val = true ∧
      s.portIdle port.val = true ∧
      s.rd P.OBS_FROZEN = 0 ∧
      s.nextCopyOf port.val = some (k, f, o) ∧
      s.rd P.PRT_MAX_FRAME port.val < f.size)
      (16) (⟨500, 3, 2, 500, 0⟩) (Sample.egress (Sample.state [((P.PRT_LINK_UP, 16), 1), ((P.PRT_LANES, 16), 1), ((P.PRT_MAX_FRAME, 16), 60)])) (Sample.copy) (Sample.frame) (false)) ∧
    ((fun (port : Fin 512) (raw : RawStamp) (s : State) =>
      ((s.portUp port.val = false ∨ s.portIdle port.val = false ∨
      s.nextCopyOf port.val = none)))
      (16) (⟨500, 3, 2, 500, 0⟩) ((Sample.state []))) ∧
    ((fun (port : Fin 512) (underrun parity : Bool) (s : State) (y : Sending) (c : Copy) (f : Frame) =>
      s.sendingOn port.val = some y ∧
      (s.quay.copies.find? fun z => z.id == y.copy) = some c ∧
      s.frame c.frame = some f ∧
      s.allInQuay f = true ∧
      f.size ≤ s.rd P.PRT_MAX_FRAME port.val)
      (16) (false) (false) (Sample.sending (Sample.state [((P.PRT_LINK_UP, 16), 1), ((P.PRT_LANES, 16), 1)])) (⟨16, 0, ⟨0, 0, 0, 0⟩⟩) (Sample.copy) (Sample.frame)) ∧
    ((fun (port : Fin 512) (underrun parity : Bool) (s : State) (y : Sending) (c : Copy) (f : Frame) =>
      s.sendingOn port.val = some y ∧
      (s.quay.copies.find? fun z => z.id == y.copy) = some c ∧
      s.frame c.frame = some f ∧
      s.allInQuay f = true ∧
      s.rd P.PRT_MAX_FRAME port.val < f.size ∧
      s.rd P.OBS_FROZEN = 0)
      (16) (false) (false) (Sample.sending (Sample.state [((P.PRT_LINK_UP, 16), 1), ((P.PRT_LANES, 16), 1), ((P.PRT_MAX_FRAME, 16), 60)])) (⟨16, 0, ⟨0, 0, 0, 0⟩⟩) (Sample.copy) (Sample.frame)) ∧
    ((fun (port : Fin 512) (underrun parity : Bool) (s : State) =>
      s.sendingOn port.val = none)
      (16) (false) (false) ((Sample.state []))) ∧
    ((fun (port : Fin 512) (part : Bool) (upsets : List QuayUpset) (s : State) =>
      s.portUp port.val = true)
      (16) (false) ([.portEntry 16 0 0 9, .parity 0 5]) (Sample.egress (Sample.state [((P.PRT_LINK_UP, 16), 1), ((P.PRT_LANES, 16), 1)]))) ∧
    ((fun (port : Fin 512) (part : Bool) (upsets : List QuayUpset) (s : State) =>
      s.portUp port.val = false)
      (16) (false) ([.parity 0 5]) ((Sample.state []))) :=
  by beta_reduce; and_intros <;> decide +kernel

theorem test_meets_LockCopiesLaunchOnTime :
    (((fun (port : Fin 512) (pos : Int) (s : State) (c : Copy) (k : LockCopy) (f : Frame) =>
      s.portUp port.val = true ∧
      s.rd P.OBS_FROZEN = 0 ∧
      s.dueCopy port.val = some c ∧
      s.frame c.frame = some f ∧
      c.lock = some k ∧
      k.late = none ∧
      k.deferred = false ∧
      s.inGap = false ∧
      s.lateCause port.val c k f = none ∧
      f.size ≤ s.rd P.PRT_MAX_FRAME port.val)
      (16) (0) (Sample.release (Sample.state [((P.PRT_LINK_UP, 16), 1), ((P.PRT_LANES, 16), 1)]) ⟨0, 0, 0, false, none, false⟩) (Sample.locked ⟨0, 0, 0, false, none, false⟩) (⟨0, 0, 0, false, none, false⟩) (Sample.frame)) ∧
    ((fun (pos aim : Int) (g : Nat) =>
      0 < g)
      (0) (7) (5)) ∧
    ((fun (port : Fin 512) (pos : Int) (s : State) (c : Copy) (k : LockCopy) (f : Frame) =>
      s.portUp port.val = true ∧
      s.rd P.OBS_FROZEN = 0 ∧
      s.dueCopy port.val = some c ∧
      s.frame c.frame = some f ∧
      c.lock = some k ∧
      k.late = none ∧
      k.deferred = false ∧
      s.inGap = true)
      (16) (0) ({ Sample.release (Sample.state [((P.PRT_LINK_UP, 16), 1), ((P.PRT_LANES, 16), 1)]) ⟨0, 0, 0, false, none, false⟩ with time := { State.reset.time with gap := some ⟨0, 0, 1, 0, []⟩ } }) (Sample.locked ⟨0, 0, 0, false, none, false⟩) (⟨0, 0, 0, false, none, false⟩) (Sample.frame)) ∧
    ((fun (port : Fin 512) (pos : Int) (s : State) (c : Copy) (k : LockCopy) (f : Frame) (cause : Nat) =>
      s.portUp port.val = true ∧
      s.rd P.OBS_FROZEN = 0 ∧
      s.dueCopy port.val = some c ∧
      s.frame c.frame = some f ∧
      c.lock = some k ∧
      k.late = none ∧
      s.inGap = false ∧
      s.lateCause port.val c k f = some cause)
      (16) (0) (Sample.release (Sample.state [((P.PRT_LINK_UP, 16), 1), ((P.PRT_LANES, 16), 1)]) ⟨0, -1, 0, true, none, false⟩) (Sample.locked ⟨0, -1, 0, true, none, false⟩) (⟨0, -1, 0, true, none, false⟩) (Sample.frame) (2)) ∧
    ((fun (port : Fin 512) (pos : Int) (s : State) =>
      (s.portUp port.val = false ∨ s.dueCopy port.val = none))
      (16) (0) ((Sample.state []))) ∧
    ((fun (port : Fin 512) (queue : Fin 9) (s : State) (c : Copy) =>
      (if queue.val = 8 then s.releaseHead port.val else (s.classQueue port.val queue.val).head?) = some c ∧
      s.overHold c = true ∧
      s.rd P.OBS_FROZEN = 0)
      (16) (8) ({ Sample.release (Sample.state [((P.PRT_LINK_UP, 16), 1), ((P.PRT_LANES, 16), 1)]) ⟨0, -9000000, 0, true, none, false⟩ with time := { State.reset.time with out := ⟨0, 9000⟩ } }) (Sample.locked ⟨0, -9000000, 0, true, none, false⟩))) ∧
    ((fun (port : Fin 512) (queue : Fin 9) (s : State) =>
      ((∀ c, (if queue.val = 8 then s.releaseHead port.val else (s.classQueue port.val queue.val).head?) = some c → s.overHold c = false)))
      (16) (8) ((Sample.state []))) :=
  ⟨(by beta_reduce; and_intros <;> decide +kernel),
   (by intro c h; exact absurd h (by decide +revert +kernel))⟩

theorem test_meets_SlotTablesGateAndSwap :
    ((fun (port : Fin 512) (s : State) (due : Nat) =>
      s.rd P.LCK_SWAP_STATE port.val = 1 ∧
      due = (match s.lock.late.find? fun k => k.1 == port.val with | some k => k.2 | none => s.rd P.LCK_SWAP_TIME port.val) ∧
      s.cycleStart port.val due ≤ s.modNs ∧
      ((∀ e ∈ s.lock.adm, look e.1 0 s.lock.adm = e.2)) ∧
      ((∀ e ∈ s.lock.opr, look e.1 0 s.lock.opr = e.2)))
      (16) ({ (Sample.state [((P.LCK_SWAP_STATE, 16), 1), ((P.LCK_SWAP_TIME, 16), 5), ((P.LCK_ADM_CYCLE, 16), 77)]) with lock := { State.reset.lock with adm := [((16, 0), 9)], opr := [((16, 1), 4)] }, time := { State.reset.time with out := ⟨0, 10⟩ } }) (5)) ∧
    ((fun (port : Fin 512) (s : State) (due : Nat) =>
      s.rd P.LCK_SWAP_STATE port.val = 1 ∧
      due = (match s.lock.late.find? fun k => k.1 == port.val with | some k => k.2 | none => s.rd P.LCK_SWAP_TIME port.val) ∧
      s.cycleStart port.val due ≤ s.modNs ∧
      ((∀ e ∈ s.lock.adm, look e.1 0 s.lock.adm = e.2)) ∧
      ((∀ e ∈ s.lock.opr, look e.1 0 s.lock.opr = e.2)))
      (16) ({ (Sample.state [((P.LCK_SWAP_STATE, 16), 1), ((P.LCK_SWAP_TIME, 16), 5), ((P.LCK_ADM_CYCLE, 16), 77)]) with lock := { State.reset.lock with adm := [((16, 0), 9)], opr := [((16, 1), 4)], late := [(16, 8)] }, time := { State.reset.time with out := ⟨0, 10⟩ } }) (8)) ∧
    ((fun (port : Fin 512) (s : State) (due : Nat) =>
      due = (match s.lock.late.find? fun k => k.1 == port.val with | some k => k.2 | none => s.rd P.LCK_SWAP_TIME port.val) ∧
      (s.rd P.LCK_SWAP_STATE port.val ≠ 1 ∨ s.modNs < s.cycleStart port.val due))
      (16) ((Sample.state [])) (0)) ∧
    ((fun (port : Fin 512) (s : State) =>
      s.rd P.LCK_SWAP_STATE port.val = 2 ∧
      ((∀ h ∈ s.lock.held, h.2.1 ≠ port.val)) ∧
      ((∀ e ∈ s.lock.opr, look e.1 0 s.lock.opr = e.2)))
      (16) ({ (Sample.state [((P.LCK_SWAP_STATE, 16), 2), ((P.LCK_OPR_CYCLE, 16), 77)]) with lock := { State.reset.lock with adm := [((16, 0), 9)], opr := [((16, 1), 4)] } })) ∧
    ((fun (port : Fin 512) (s : State) =>
      s.rd P.LCK_SWAP_STATE port.val ≠ 2)
      (16) ((Sample.state []))) :=
  by beta_reduce; and_intros <;> decide +kernel

theorem test_meets_LogbookSealsAndSpills :
    (((fun (s : State) (c : Nat) =>
      s.rd P.PWR_SHUTTER_STATE = 0 ∧
      s.modNs < s.sealInstant + 2 ∧
      s.log.sealAt ≠ some s.sealInstant ∧
      c < 16 ∧
      ((∀ d, d < 16 → (s.chanOn d = true ↔ d = c))) ∧
      s.sealRoom c = true ∧
      s.frozenMaster 14 = false)
      ({ (Sample.state [((P.LOG_CH_ENABLE, 2), 1), ((P.LOG_RING, 2), 3), ((P.LOG_KEY_STATE, 0), 2)]) with log := { State.reset.log with chans := [⟨2, none, false, true, [zeros 32], 4, 0, ⟨0, 0, 0, 0⟩⟩] } }) (2)) ∧
    ((fun (s : State) (c : Nat) =>
      s.rd P.PWR_SHUTTER_STATE = 0 ∧
      s.modNs < s.sealInstant + 2 ∧
      s.log.sealAt ≠ some s.sealInstant ∧
      c < 16 ∧
      ((∀ d, d < 16 → (s.chanOn d = true ↔ d = c))) ∧
      s.sealRoom c = false)
      ((Sample.state [((P.LOG_CH_ENABLE, 2), 1), ((P.LOG_RING, 2), 3), ((P.LOG_SPILL_USED, 0), 524288)])) (2)) ∧
    ((fun (s : State) =>
      (s.rd P.PWR_SHUTTER_STATE ≠ 0 ∨ s.sealInstant + 2 ≤ s.modNs ∨ s.log.sealAt = some s.sealInstant))
      ((Sample.state [((P.PWR_SHUTTER_STATE, 0), 1)]))) ∧
    ((fun (s : State) (id : Nat) (inp k : List Byte) (rest : List (Nat × List Byte)) =>
      s.log.signs = (id, inp) :: rest ∧
      s.log.key = some k)
      ({ (Sample.state []) with log := { State.reset.log with signs := [(4, [])], key := some (zeros 32), spill := [⟨0, zeros 192, some 4⟩] } }) (4) ([]) (zeros 32) ([])) ∧
    ((fun (s : State) =>
      (s.log.signs = [] ∨ s.log.key = none))
      ((Sample.state []))) ∧
    ((fun (s : State) (i : LogItem) (r : Ring) =>
      s.frozenMaster 3 = false ∧
      s.frozenMaster 14 = false ∧
      s.log.spill = [i] ∧
      s.logRoom (128 + s.rd P.LOG_RING i.chan) i.slots = true ∧
      s.ring (128 + s.rd P.LOG_RING i.chan) = some r ∧
      i.signing = none ∧
      1 ≤ i.slots ∧
      s.rd P.LOG_HOLD_ACTIVE = 0)
      ({ (Sample.state [((P.LOG_RING, 2), 3), ((P.HST_LINK_WIDTH, 0), 4), ((P.HST_RING_STATE, 131), 1)]) with log := { State.reset.log with spill := [⟨2, zeros 32, none⟩] }, rings := [⟨131, 0, 0, 4096, 64, 0, 0, 0, 0, 0, false⟩] }) (⟨2, zeros 32, none⟩) (⟨131, 0, 0, 4096, 64, 0, 0, 0, 0, 0, false⟩)) ∧
    ((fun (s : State) =>
      (s.frozenMaster 3 = true ∨ s.frozenMaster 14 = true))
      ((Sample.state [((P.SPD_FROZEN, 0), 8)]))) ∧
    ((fun (s : State) =>
      s.rd P.LOG_KEY_STATE = 1)
      ((Sample.state [((P.LOG_KEY_STATE, 0), 1)])))) ∧
    ((fun (s : State) =>
      s.rd P.LOG_KEY_STATE ≠ 1)
      ((Sample.state []))) ∧
    ((fun (rq : Request) (s : State) (x : Session) =>
      s.taken Op.LOG_KEY_PUBLIC rq x)
      ((Sample.rq Op.LOG_KEY_PUBLIC [])) ((Sample.state [])) (Sample.sess)) :=
  ⟨(by beta_reduce; and_intros <;> decide +kernel),
   (by decide +kernel),
   (Sample.taken_of (by unfold State.reached; decide +kernel) (by decide +kernel) (by decide +kernel))⟩

theorem test_meets_ReferenceMonitorsJudge :
    (((fun (r : Fin 7) (freq phi osc : Int) (s : State) =>
      s.qstate r.val ≠ 6 ∧
      s.sharedUp = true)
      (1) (2000000000) (0) (0) ((Sample.state [((P.REF_QSTATE, 1), 2), ((P.REF_KIND, 1), 1), ((P.PWR_DOMAIN_STATE, 1), 3)]))) ∧
    ((fun (r : Fin 7) (freq phi osc : Int) (s : State) =>
      s.qstate r.val ≠ 6 ∧
      s.sharedUp = true)
      (1) (5) (0) (0) ((Sample.state [((P.REF_QSTATE, 1), 2), ((P.REF_KIND, 1), 2), ((P.PWR_DOMAIN_STATE, 1), 3)]))) ∧
    ((fun (r : Fin 7) (freq phi osc : Int) (s : State) =>
      (s.qstate r.val = 6 ∨ s.sharedUp = false))
      (1) (5) (0) (0) ((Sample.state [((P.REF_QSTATE, 1), 6)]))) ∧
    ((fun (r : Fin 2) (phi osc : Int) (s : State) =>
      s.qstate (r.val + 1) ≠ 6 ∧
      s.rd P.REF_EXT_MODE r.val ≠ 2 ∧
      (s.mon (r.val + 1)).anchor = none ∧
      8 ≤ s.refs.length ∧
      s.sharedUp = true)
      (0) (5) (0) ((Sample.state [((P.REF_QSTATE, 1), 0), ((P.REF_EXT_MODE, 0), 1), ((P.REF_KIND, 1), 2), ((P.PWR_DOMAIN_STATE, 2), 3)]))) ∧
    ((fun (r : Fin 2) (phi osc : Int) (s : State) =>
      ((s.qstate (r.val + 1) = 6 ∨ s.rd P.REF_EXT_MODE r.val = 2 ∨ s.sharedUp = false ∨
      ∃ a, (s.mon (r.val + 1)).anchor = some a ∧ s.rd P.REF_PH_REJECT (r.val + 1) < (phi + osc - s.servo.mOff - a).natAbs)))
      (0) (5) (0) ((Sample.state [((P.REF_QSTATE, 1), 6)]))) ∧
    ((fun (r : Fin 2) (s : State) =>
      s.rd P.REF_EXT_MODE r.val ≠ 1)
      (0) ((Sample.state [((P.REF_QSTATE, 1), 2), ((P.REF_EXT_MODE, 0), 0)]))) ∧
    ((fun (r : Fin 7) (s : State) =>
      (((3 ≤ r.val ∧ s.refPresent r.val = false) ∨
      ((r.val = 1 ∨ r.val = 2) ∧ s.rd P.REF_EXT_MODE (r.val - 1) = 2 ∧ (s.mon r.val).mhz = false) ∨
      (r.val < 3 ∧ (r.val = 0 ∨ s.rd P.REF_EXT_MODE (r.val - 1) ≠ 2) ∧ s.missDue r.val ≤ s.clock))))
      (1) ({ (Sample.state [((P.REF_QSTATE, 1), 2), ((P.REF_EXT_MODE, 0), 1), ((P.REF_TSTATE, 0), 2), ((P.REF_ACTIVE, 0), 1), ((P.REF_PINS, 0), 1), ((P.REF_BREF, 1), 500)]) with clock := 20000000000 })) ∧
    ((fun (r : Fin 7) (s : State) =>
      (((3 ≤ r.val ∧ s.refPresent r.val = false) ∨
      ((r.val = 1 ∨ r.val = 2) ∧ s.rd P.REF_EXT_MODE (r.val - 1) = 2 ∧ (s.mon r.val).mhz = false) ∨
      (r.val < 3 ∧ (r.val = 0 ∨ s.rd P.REF_EXT_MODE (r.val - 1) ≠ 2) ∧ s.missDue r.val ≤ s.clock))))
      (4) ((Sample.state [((P.REF_QSTATE, 4), 1)])))) ∧
    (((fun (r : Fin 7) (s : State) =>
      (((3 ≤ r.val ∧ s.refPresent r.val = false) ∨
      ((r.val = 1 ∨ r.val = 2) ∧ s.rd P.REF_EXT_MODE (r.val - 1) = 2 ∧ (s.mon r.val).mhz = false) ∨
      (r.val < 3 ∧ (r.val = 0 ∨ s.rd P.REF_EXT_MODE (r.val - 1) ≠ 2) ∧ s.missDue r.val ≤ s.clock))))
      (1) ((Sample.state [((P.REF_QSTATE, 1), 1), ((P.REF_EXT_MODE, 0), 2)]))) ∧
    ((fun (r : Fin 7) (s : State) =>
      (((3 ≤ r.val ∧ s.refPresent r.val = true) ∨
      ((r.val = 1 ∨ r.val = 2) ∧ s.rd P.REF_EXT_MODE (r.val - 1) = 2 ∧ (s.mon r.val).mhz = true) ∨
      (r.val < 3 ∧ (r.val = 0 ∨ s.rd P.REF_EXT_MODE (r.val - 1) ≠ 2) ∧ s.clock < s.missDue r.val))))
      (1) ((Sample.state [((P.REF_EXT_MODE, 0), 1)]))) ∧
    ((fun (r : Fin 7) (s : State) =>
      s.qstate r.val = 1 ∧
      (s.mon r.val).since + s.rd P.REF_HOLDOFF r.val * 100000000 ≤ s.clock)
      (1) ({ (Sample.state [((P.REF_QSTATE, 1), 1)]) with clock := 999000000000 })) ∧
    ((fun (r : Fin 7) (s : State) =>
      (s.qstate r.val ≠ 1 ∨ s.clock < (s.mon r.val).since + s.rd P.REF_HOLDOFF r.val * 100000000))
      (1) ((Sample.state []))) ∧
    ((fun (r : Fin 7) (s : State) =>
      ((s.qstate r.val = 3 ∨ (s.qstate r.val = 5 ∧ s.entryTest r.val = 0))) ∧
      (s.mon r.val).since + max (s.rd P.REF_CONFIRM_TIME * 1000000000) (s.rd P.REF_HOLDOFF r.val * 100000000) ≤ s.clock)
      (1) ({ (Sample.state [((P.REF_QSTATE, 1), 3)]) with clock := 999000000000 })) ∧
    ((fun (r : Fin 7) (s : State) =>
      ((s.qstate r.val = 3 ∨ (s.qstate r.val = 5 ∧ s.entryTest r.val = 0))) ∧
      (s.mon r.val).since + max (s.rd P.REF_CONFIRM_TIME * 1000000000) (s.rd P.REF_HOLDOFF r.val * 100000000) ≤ s.clock)
      (1) ({ (Sample.state [((P.REF_QSTATE, 1), 5)]) with clock := 999000000000 })) ∧
    ((fun (r : Fin 7) (s : State) =>
      ((s.qstate r.val ≠ 3 ∧ s.qstate r.val ≠ 5) ∨
      s.clock < (s.mon r.val).since + s.rd P.REF_CONFIRM_TIME * 1000000000))
      (1) ((Sample.state [((P.REF_QSTATE, 1), 1)])))) ∧
    ((fun (rq : Request) (s : State) (x : Session) =>
      s.taken Op.REF_ACCEPT rq x ∧
      beAt 0 1 rq.payload < 7 ∧
      s.qstate (beAt 0 1 rq.payload) = 4)
      ((Sample.rq Op.REF_ACCEPT [1, 0, 0, 0])) ((Sample.state [((P.REF_QSTATE, 1), 4)])) (Sample.sess)) ∧
    ((fun (rq : Request) (s : State) (x : Session) =>
      s.taken Op.REF_ACCEPT rq x ∧
      ((beAt 0 1 rq.payload ≥ 7 ∨ s.qstate (beAt 0 1 rq.payload) ≠ 4)))
      ((Sample.rq Op.REF_ACCEPT [1, 0, 0, 0])) ((Sample.state [((P.REF_QSTATE, 1), 3)])) (Sample.sess)) :=
  ⟨(by beta_reduce; and_intros <;> decide +kernel),
   (by beta_reduce; and_intros <;> decide +kernel),
   (⟨Sample.taken_of (by unfold State.reached; decide +kernel) (by decide +kernel) (by decide +kernel), by decide +kernel⟩),
   (⟨Sample.taken_of (by unfold State.reached; decide +kernel) (by decide +kernel) (by decide +kernel), by decide +kernel⟩)⟩

theorem test_meets_TrackingStateFollowsSelection :
    (((fun (pins : Fin 8) (s : State) =>
      s.rd P.REF_TSTATE = 0 ∧
      pins.val < 7 ∧
      s.qstate pins.val = 2)
      (4) ((Sample.state [((P.REF_QSTATE, 4), 2), ((P.REF_TSTATE, 0), 0)]))) ∧
    ((fun (pins : Fin 8) (s : State) =>
      s.rd P.REF_TSTATE = 2 ∧
      pins.val < 7 ∧
      s.qstate pins.val = 2 ∧
      s.rd P.REF_KIND pins.val = 1 ∧
      s.rd P.REF_ACTIVE ≠ pins.val)
      (4) ((Sample.state [((P.REF_QSTATE, 4), 2), ((P.REF_TSTATE, 0), 2), ((P.REF_KIND, 4), 1), ((P.REF_ACTIVE, 0), 1), ((P.REF_BREF, 1), 500)]))) ∧
    ((fun (pins : Fin 8) (s : State) =>
      s.rd P.REF_TSTATE = 2 ∧
      pins.val < 7 ∧
      s.qstate pins.val ≠ 2)
      (4) ((Sample.state [((P.REF_TSTATE, 0), 2), ((P.REF_ACTIVE, 0), 1), ((P.REF_BREF, 1), 500)]))) ∧
    ((fun (s : State) (r since : Nat) =>
      s.servo.wtr = some (r, since) ∧
      s.rd P.REF_TSTATE = 2 ∧
      s.rd P.REF_PINS = 7 ∧
      since + s.rd P.REF_WTR * 1000000000 ≤ s.clock ∧
      s.autoChoice = some r ∧
      s.ranksAbove r (s.rd P.REF_ACTIVE) = true)
      ({ (Sample.state [((P.REF_TSTATE, 0), 2), ((P.REF_PINS, 0), 7), ((P.REF_ACTIVE, 0), 1), ((P.REF_QSTATE, 4), 2), ((P.REF_KIND, 4), 1)]) with servo := { State.reset.servo with wtr := some (4, 0) }, clock := 9000000000000 }) (4) (0)) ∧
    ((fun (s : State) (r since : Nat) =>
      s.servo.wtr = some (r, since) ∧
      s.rd P.REF_TSTATE = 2 ∧
      s.rd P.REF_PINS = 7 ∧
      since + s.rd P.REF_WTR * 1000000000 ≤ s.clock ∧
      (s.autoChoice ≠ some r ∨ s.ranksAbove r (s.rd P.REF_ACTIVE) = false))
      ({ (Sample.state [((P.REF_TSTATE, 0), 2), ((P.REF_PINS, 0), 7)]) with servo := { State.reset.servo with wtr := some (4, 0) }, clock := 9000000000000 }) (4) (0))) ∧
    ((fun (s : State) =>
      (s.rd P.REF_TSTATE ≠ 2 ∨ s.rd P.REF_PINS ≠ 7 ∨
      (∀ r since, s.servo.wtr = some (r, since) → s.clock < since + s.rd P.REF_WTR * 1000000000)))
      ((Sample.state []))) ∧
    (((fun (s : State) =>
      s.rd P.REF_TSTATE = 3 ∧
      s.phiUnits.natAbs ≤ s.rd P.REF_PULL_DONE * 10000000)
      ((Sample.state [((P.REF_TSTATE, 0), 3), ((P.REF_ACTIVE, 0), 1), ((P.REF_DEV, 1), 44)]))) ∧
    ((fun (s : State) =>
      (s.rd P.REF_TSTATE ≠ 3 ∨ s.rd P.REF_PULL_DONE * 10000000 < s.phiUnits.natAbs))
      ((Sample.state []))) ∧
    ((fun (s : State) =>
      s.rd P.REF_TSTATE = 2 ∧
      s.servo.winSince + s.rd P.REF_PH_WINDOW * 1000000000 ≤ s.clock)
      ({ (Sample.state [((P.REF_TSTATE, 0), 2), ((P.REF_ACTIVE, 0), 1), ((P.REF_DEV, 1), 44)]) with servo := { State.reset.servo with winGood := true, modOsc := 7 }, clock := 9000000000000 })) ∧
    ((fun (s : State) =>
      s.rd P.REF_TSTATE = 2 ∧
      s.servo.winSince + s.rd P.REF_PH_WINDOW * 1000000000 ≤ s.clock)
      ({ (Sample.state [((P.REF_TSTATE, 0), 2), ((P.REF_ACTIVE, 0), 1), ((P.REF_DEV, 1), 44)]) with servo := { State.reset.servo with winGood := false, modOsc := 7 }, clock := 9000000000000 })) ∧
    ((fun (s : State) =>
      (s.rd P.REF_TSTATE ≠ 2 ∨ s.clock < s.servo.winSince + s.rd P.REF_PH_WINDOW * 1000000000))
      ((Sample.state [])))) :=
  ⟨(by beta_reduce; and_intros <;> decide +kernel),
   (by exact Or.inl (by decide +kernel)),
   (by beta_reduce; and_intros <;> decide +kernel)⟩

theorem test_meets_ModuleTimeStepsAndBounds :
    (((fun (s : State) (sec : Nat) =>
      s.time.setPending = some sec ∧
      s.time.out.sec ≠ s.time.setFrom ∧
      s.rd P.REF_TSTATE = 0)
      ({ (Sample.state []) with time := { State.reset.time with out := ⟨5, 6⟩, setPending := some 77 } }) (77)) ∧
    ((fun (s : State) (sec : Nat) =>
      s.time.setPending = some sec ∧
      s.time.out.sec ≠ s.time.setFrom ∧
      s.rd P.REF_TSTATE ≠ 0)
      ({ (Sample.state [((P.REF_TSTATE, 0), 2)]) with time := { State.reset.time with out := ⟨5, 6⟩, setPending := some 77 } }) (77)) ∧
    ((fun (s : State) =>
      (s.time.setPending = none ∨ s.time.out.sec = s.time.setFrom))
      ((Sample.state []))) ∧
    ((fun (sec : BitVec 48) (nano : Fin 1000000000) (s : State) =>
      s.rd P.REF_TSTATE = 1 ∧
      s.servo.acqSince + 10000000000 ≤ s.clock ∧
      s.rd P.REF_KIND (s.rd P.REF_ACTIVE) = 1)
      (77) (8) ({ (Sample.state [((P.REF_TSTATE, 0), 1), ((P.REF_ACTIVE, 0), 1), ((P.REF_KIND, 1), 1)]) with clock := 10000000000 })) ∧
    ((fun (sec : BitVec 48) (nano : Fin 1000000000) (s : State) =>
      s.rd P.REF_TSTATE = 1 ∧
      s.servo.acqSince + 10000000000 ≤ s.clock ∧
      s.rd P.REF_KIND (s.rd P.REF_ACTIVE) ≠ 1)
      (77) (8) ({ (Sample.state [((P.REF_TSTATE, 0), 1), ((P.REF_ACTIVE, 0), 1), ((P.REF_KIND, 1), 2)]) with clock := 10000000000 })) ∧
    ((fun (sec : BitVec 48) (nano : Fin 1000000000) (s : State) =>
      (s.rd P.REF_TSTATE ≠ 1 ∨ s.clock < s.servo.acqSince + 10000000000))
      (77) (8) ((Sample.state []))) ∧
    ((fun (s : State) (l : Nat) =>
      s.time.leapAt = some l ∧
      l ≤ s.time.out.sec)
      ({ (Sample.state [((P.TBS_LEAP, 0), 1), ((P.TBS_UTC_OFFSET, 0), 37)]) with time := { State.reset.time with out := ⟨5, 6⟩, leapAt := some 5 } }) (5)) ∧
    ((fun (s : State) =>
      ((∀ l, s.time.leapAt = some l → s.time.out.sec < l)))
      ((Sample.state [])))) ∧
    (((fun (dev : Int) (s : State) =>
      s.rd P.REF_TSTATE = 2 ∧
      s.rd P.REF_BREF (s.rd P.REF_ACTIVE) ≠ noBound)
      (3) ((Sample.state [((P.REF_TSTATE, 0), 2), ((P.REF_ACTIVE, 0), 1), ((P.REF_BREF, 1), 500)]))) ∧
    ((fun (dev : Int) (s : State) =>
      s.rd P.REF_TSTATE ∈ [0, 1, 6, 7])
      (3) ((Sample.state [((P.REF_TSTATE, 0), 6)]))) ∧
    ((fun (dev : Int) (s : State) (b g : Nat) =>
      s.rd P.REF_TSTATE = 4 ∧
      s.servo.frozen = some b ∧
      ((∀ r, r < 7 → s.qualified r = false)) ∧
      g = Servo.growth { s.servo with dT := max s.servo.dT dev.natAbs } (s.clock + 1000000))
      (3) ({ (Sample.state [((P.REF_TSTATE, 0), 4)]) with servo := { State.reset.servo with frozen := some 900, yu := 1000 } }) (900) (Servo.growth { State.reset.servo with frozen := some 900, yu := 1000, dT := 3 } 1000000)) ∧
    ((fun (dev : Int) (s : State) (b g : Nat) =>
      s.rd P.REF_TSTATE = 4 ∧
      s.servo.frozen = some b ∧
      ((∀ r, r < 7 → s.qualified r = false)) ∧
      g = Servo.growth { s.servo with dT := max s.servo.dT dev.natAbs } (s.clock + 1000000))
      (3) ({ (Sample.state [((P.REF_TSTATE, 0), 4)]) with servo := { State.reset.servo with frozen := some 900000000, yu := 1000 } }) (900000000) (Servo.growth { State.reset.servo with frozen := some 900, yu := 1000, dT := 3 } 1000000)) ∧
    ((fun (b c : Nat) =>
      b < 2 ^ 31)
      (1000) (80))) :=
  ⟨(by beta_reduce; and_intros <;> decide +kernel),
   (by beta_reduce; and_intros <;> decide +kernel)⟩

theorem test_meets_CoreTestsAndFaults :
    (((fun (core : Fin 2) (m : CoreMeasure) (s : State) =>
      s.corState core.val ≠ 0)
      (1) (⟨9, 9600, 1, 2, [(3, 900000), (4, 0)]⟩) ((Sample.state [((P.COR_STATE, 1), 3), ((P.COR_STATE, 0), 4)]))) ∧
    ((fun (core : Fin 2) (m : CoreMeasure) (s : State) =>
      s.corState core.val ≠ 0)
      (0) (⟨9, 9600, 1, 2, [(3, 900000), (4, 0)]⟩) ((Sample.state [((P.COR_STATE, 1), 3), ((P.COR_STATE, 0), 4)]))) ∧
    ((fun (core : Fin 2) (m : CoreMeasure) (s : State) =>
      s.corState core.val ≠ 0)
      (1) (⟨9, 10, 1, 2, [(3, 900000), (4, 0)]⟩) ((Sample.state [((P.COR_STATE, 1), 1), ((P.COR_STATE, 0), 4)]))) ∧
    ((fun (core : Fin 2) (m : CoreMeasure) (s : State) =>
      s.corState core.val ≠ 0)
      (1) (⟨9, 10, 1, 500, [(3, 900000), (4, 0)]⟩) ((Sample.state [((P.COR_STATE, 1), 3), ((P.COR_STATE, 0), 4)]))) ∧
    ((fun (core : Fin 2) (m : CoreMeasure) (s : State) =>
      s.corState core.val ≠ 0)
      (1) (⟨9, 10, 1, 2, [(3, 900000), (4, 0)]⟩) ((Sample.state [((P.COR_STATE, 1), 5), ((P.COR_STATE, 0), 4)]))) ∧
    ((fun (core : Fin 2) (m : CoreMeasure) (s : State) =>
      s.corState core.val ≠ 0)
      (1) (⟨9, 10, 1, 2, [(3, 900000), (4, 0)]⟩) ((Sample.state [((P.COR_STATE, 1), 3), ((P.COR_STATE, 0), 5), ((P.REF_TSTATE, 0), 7), ((P.COR_MIN_SCORE, 0), 10)]))) ∧
    ((fun (core : Fin 2) (m : CoreMeasure) (s : State) =>
      s.corState core.val = 0)
      (1) (⟨9, 10, 1, 500, [(3, 900000), (4, 0)]⟩) ((Sample.state [((P.COR_STATE, 1), 0)]))) ∧
    ((fun (a : Nat) (s : State) =>
      a < 2 ∧
      s.time.gap = none ∧
      s.corState a = 4 ∧
      s.corState (1 - a) = 3 ∧
      s.rd P.COR_MIN_SCORE ≤ s.rd P.COR_SCORE (1 - a))
      (0) ((Sample.state [((P.COR_STATE, 1), 3), ((P.COR_STATE, 0), 4), ((P.COR_SCORE, 1), 100)])))) ∧
    (((fun (a : Nat) (s : State) =>
      a < 2 ∧
      s.time.gap = none ∧
      s.corState a = 4 ∧
      s.corState (1 - a) = 3 ∧
      s.rd P.COR_MIN_SCORE ≤ s.rd P.COR_SCORE (1 - a))
      (1) ((Sample.state [((P.COR_STATE, 1), 4), ((P.COR_STATE, 0), 3), ((P.COR_SCORE, 0), 100)]))) ∧
    ((fun (a : Nat) (s : State) =>
      a < 2 ∧
      s.time.gap = none ∧
      s.corState a = 4 ∧
      s.corState (1 - a) ≠ 4 ∧
      ((s.corState (1 - a) ≠ 3 ∨ s.rd P.COR_SCORE (1 - a) < s.rd P.COR_MIN_SCORE)))
      (0) ((Sample.state [((P.COR_STATE, 1), 2), ((P.COR_STATE, 0), 4), ((P.COR_SCORE, 1), 100)]))) ∧
    ((fun (a : Nat) (s : State) =>
      a < 2 ∧
      s.time.gap = none ∧
      s.corState a = 4 ∧
      s.corState (1 - a) ≠ 4 ∧
      ((s.corState (1 - a) ≠ 3 ∨ s.rd P.COR_SCORE (1 - a) < s.rd P.COR_MIN_SCORE)))
      (0) ((Sample.state [((P.COR_STATE, 1), 3), ((P.COR_STATE, 0), 4), ((P.COR_SCORE, 1), 1), ((P.COR_MIN_SCORE, 0), 70), ((P.REF_TSTATE, 0), 2), ((P.REF_ACTIVE, 0), 1)]))) ∧
    ((fun (s : State) =>
      s.time.gap = none ∧
      s.corState 0 ≠ 4 ∧
      s.corState 1 ≠ 4)
      ((Sample.state [((P.COR_STATE, 1), 3), ((P.COR_STATE, 0), 5)]))) ∧
    ((fun (g : Gap) (s : State) =>
      s.time.gap = some g ∧
      g.toCore < 2 ∧
      g.fromCore = 1 - g.toCore)
      (⟨0, 0, 1, 0, [originOf Sample.sess Op.CORE_SWITCH (Sample.rq Op.CORE_SWITCH [1, 0, 0, 0])]⟩) ({ (Sample.state [((P.COR_STATE, 1), 3), ((P.COR_STATE, 0), 4)]) with time := { State.reset.time with gap := some ⟨0, 0, 1, 0, [originOf Sample.sess Op.CORE_SWITCH (Sample.rq Op.CORE_SWITCH [1, 0, 0, 0])]⟩ }, clock := 16 })) ∧
    ((fun (g : Gap) (s : State) =>
      s.time.gap = some g ∧
      g.toCore < 2 ∧
      g.fromCore = 1 - g.toCore)
      (⟨0, 0, 1, 2, []⟩) ({ (Sample.state [((P.COR_STATE, 1), 3), ((P.COR_STATE, 0), 5), ((P.REF_TSTATE, 0), 2)]) with time := { State.reset.time with gap := some ⟨0, 0, 1, 2, []⟩ }, clock := 16 })) ∧
    ((fun (core : Fin 2) (s : State) =>
      s.corState core.val ≠ 0)
      (0) ((Sample.state [((P.COR_STATE, 1), 3), ((P.COR_STATE, 0), 4), ((P.COR_SCORE, 1), 100)]))) ∧
    ((fun (core : Fin 2) (s : State) =>
      s.corState core.val ≠ 0)
      (1) ((Sample.state [((P.COR_STATE, 1), 3), ((P.COR_STATE, 0), 4), ((P.COR_SCORE, 1), 100)])))) ∧
    (((fun (core : Fin 2) (s : State) =>
      s.corState core.val ≠ 0)
      (1) ((Sample.state [((P.COR_STATE, 1), 5), ((P.COR_STATE, 0), 4), ((P.COR_SCORE, 1), 100)]))) ∧
    ((fun (core : Fin 2) (s : State) =>
      s.corState core.val = 0)
      (1) ((Sample.state [((P.COR_STATE, 1), 0)])))) :=
  ⟨(by beta_reduce; and_intros <;> decide +kernel),
   (by beta_reduce; and_intros <;> decide +kernel),
   (by beta_reduce; and_intros <;> decide +kernel)⟩

theorem test_meets_CoresSwitchAndReturn :
    ((fun (rq : Request) (s : State) (x : Session) (c : Nat) =>
      s.taken Op.CORE_SWITCH rq x ∧
      beAt 0 1 rq.payload = c ∧
      c ≤ 1 ∧
      s.time.gap = none ∧
      s.corState c = 3 ∧
      s.rd P.COR_MIN_SCORE ≤ s.rd P.COR_SCORE c ∧
      s.rd P.REF_TSTATE ≠ 7)
      ((Sample.rq Op.CORE_SWITCH [1, 0, 0, 0])) ((Sample.state [((P.COR_STATE, 1), 3), ((P.COR_STATE, 0), 4), ((P.COR_SCORE, 1), 100)])) (Sample.sess) (1)) ∧
    ((fun (rq : Request) (s : State) (x : Session) (c st : Nat) =>
      s.taken Op.CORE_SWITCH rq x ∧
      beAt 0 1 rq.payload = c ∧
      s.time.gap = none ∧
      (((1 < c ∧ st = Status.BAD_VALUE) ∨ (c ≤ 1 ∧ s.corState c = 4 ∧ st = Status.OK) ∨
      (c ≤ 1 ∧ s.corState c ≠ 4 ∧ (s.mayTakeOver c = false ∨ s.rd P.REF_TSTATE = 7) ∧ st = Status.NOT_READY))))
      ((Sample.rq Op.CORE_SWITCH [2, 0, 0, 0])) ((Sample.state [])) (Sample.sess) (2) (Status.BAD_VALUE)) ∧
    ((fun (rq : Request) (s : State) (x : Session) (c st : Nat) =>
      s.taken Op.CORE_SWITCH rq x ∧
      beAt 0 1 rq.payload = c ∧
      s.time.gap = none ∧
      (((1 < c ∧ st = Status.BAD_VALUE) ∨ (c ≤ 1 ∧ s.corState c = 4 ∧ st = Status.OK) ∨
      (c ≤ 1 ∧ s.corState c ≠ 4 ∧ (s.mayTakeOver c = false ∨ s.rd P.REF_TSTATE = 7) ∧ st = Status.NOT_READY))))
      ((Sample.rq Op.CORE_SWITCH [0, 0, 0, 0])) ((Sample.state [((P.COR_STATE, 0), 4)])) (Sample.sess) (0) (Status.OK)) ∧
    ((fun (rq : Request) (s : State) (x : Session) (c st : Nat) =>
      s.taken Op.CORE_SWITCH rq x ∧
      beAt 0 1 rq.payload = c ∧
      s.time.gap = none ∧
      (((1 < c ∧ st = Status.BAD_VALUE) ∨ (c ≤ 1 ∧ s.corState c = 4 ∧ st = Status.OK) ∨
      (c ≤ 1 ∧ s.corState c ≠ 4 ∧ (s.mayTakeOver c = false ∨ s.rd P.REF_TSTATE = 7) ∧ st = Status.NOT_READY))))
      ((Sample.rq Op.CORE_SWITCH [1, 0, 0, 0])) ((Sample.state [((P.COR_STATE, 0), 4)])) (Sample.sess) (1) (Status.NOT_READY)) ∧
    ((fun (rq : Request) (s : State) (x : Session) (c st : Nat) =>
      s.taken Op.CORE_SWITCH rq x ∧
      beAt 0 1 rq.payload = c ∧
      s.time.gap = none ∧
      (((1 < c ∧ st = Status.BAD_VALUE) ∨ (c ≤ 1 ∧ s.corState c = 4 ∧ st = Status.OK) ∨
      (c ≤ 1 ∧ s.corState c ≠ 4 ∧ (s.mayTakeOver c = false ∨ s.rd P.REF_TSTATE = 7) ∧ st = Status.NOT_READY))))
      ((Sample.rq Op.CORE_SWITCH [1, 0, 0, 0])) ((Sample.state [((P.COR_STATE, 0), 5), ((P.COR_STATE, 1), 3), ((P.COR_SCORE, 1), 100), ((P.REF_TSTATE, 0), 7)])) (Sample.sess) (1) (Status.NOT_READY)) ∧
    ((fun (rq : Request) (s : State) (x : Session) (c : Nat) (g : Gap) =>
      s.taken Op.CORE_SWITCH rq x ∧
      beAt 0 1 rq.payload = c ∧
      c ≤ 1 ∧
      s.time.gap = some g)
      ((Sample.rq Op.CORE_SWITCH [1, 0, 0, 0])) ({ (Sample.state [((P.COR_STATE, 1), 3), ((P.COR_STATE, 0), 4), ((P.COR_SCORE, 1), 100)]) with time := { State.reset.time with gap := some ⟨0, 0, 1, 0, []⟩ } }) (Sample.sess) (1) (⟨0, 0, 1, 0, []⟩)) ∧
    ((fun (rq : Request) (s : State) (x : Session) (c : Nat) (g : Gap) =>
      s.taken Op.CORE_SWITCH rq x ∧
      beAt 0 1 rq.payload = c ∧
      c ≤ 1 ∧
      s.time.gap = some g)
      ((Sample.rq Op.CORE_SWITCH [0, 0, 0, 0])) ({ (Sample.state [((P.COR_STATE, 1), 3), ((P.COR_STATE, 0), 4), ((P.COR_SCORE, 1), 100)]) with time := { State.reset.time with gap := some ⟨0, 0, 1, 0, []⟩ } }) (Sample.sess) (0) (⟨0, 0, 1, 0, []⟩)) ∧
    (((fun (g : Gap) (s : State) =>
      s.time.gap = some g ∧
      g.toCore < 2 ∧
      g.fromCore = 1 - g.toCore)
      (⟨0, 0, 1, 2, []⟩) ({ (Sample.state [((P.COR_STATE, 1), 3), ((P.COR_STATE, 0), 5)]) with time := { State.reset.time with out := ⟨5, 6⟩, gap := some ⟨0, 0, 1, 2, []⟩ }, clock := 16 })) ∧
    ((fun (g : Gap) (s : State) =>
      s.time.gap = some g ∧
      g.toCore < 2 ∧
      g.fromCore = 1 - g.toCore)
      (⟨0, 1, 0, 0, []⟩) ({ (Sample.state [((P.COR_STATE, 1), 4), ((P.COR_STATE, 0), 3), ((P.REF_TSTATE, 0), 4)]) with time := { State.reset.time with out := ⟨5, 6⟩, gap := some ⟨0, 1, 0, 0, []⟩ }, clock := 16 })) ∧
    ((fun (g : Gap) (s : State) (o : Origin) =>
      s.time.gap = some g ∧
      g.waiting = [o] ∧
      (s.sessionUid o.uid).isSome = true)
      (⟨0, 1, 0, 0, [originOf Sample.sess Op.CORE_SWITCH (Sample.rq Op.CORE_SWITCH [0, 0, 0, 0])]⟩) ({ (Sample.state [((P.COR_STATE, 1), 4), ((P.COR_STATE, 0), 3)]) with time := { State.reset.time with out := ⟨5, 6⟩, gap := some ⟨0, 1, 0, 0, [originOf Sample.sess Op.CORE_SWITCH (Sample.rq Op.CORE_SWITCH [0, 0, 0, 0])]⟩ }, clock := 16 }) (originOf Sample.sess Op.CORE_SWITCH (Sample.rq Op.CORE_SWITCH [0, 0, 0, 0]))) ∧
    ((fun (s : State) =>
      s.time.gap = none)
      ((Sample.state [])))) ∧
    ((fun (rq : Request) (s : State) (x : Session) (c : Nat) =>
      s.taken Op.CORE_HEALTH rq x ∧
      beAt 0 1 rq.payload = c ∧
      c ≤ 1)
      ((Sample.rq Op.CORE_HEALTH [1, 0, 0, 0])) ((Sample.state [((P.COR_STATE, 1), 3), ((P.COR_TEST_RESULT, 6), 1), ((P.COR_SCORE, 1), 90)])) (Sample.sess) (1)) ∧
    (((fun (core : Fin 2) (s : State) (t0 : Nat) =>
      s.corState core.val = 5 ∧
      s.rd P.REF_TSTATE ≠ 7 ∧
      (s.core core.val).okSince = some t0 ∧
      t0 + s.rd P.COR_RECOVER_TIME * 1000000000 ≤ s.clock)
      (0) ({ (Sample.state [((P.COR_STATE, 0), 5), ((P.COR_TEST_RESULT, 0), 2)]) with clock := 999000000000000, time := { State.reset.time with coreA := { State.reset.time.coreA with okSince := some 0 } } }) (0)) ∧
    ((fun (core : Fin 2) (s : State) (t0 : Nat) =>
      s.corState core.val = 5 ∧
      s.rd P.REF_TSTATE ≠ 7 ∧
      (s.core core.val).okSince = some t0 ∧
      t0 + s.rd P.COR_RECOVER_TIME * 1000000000 ≤ s.clock)
      (0) ({ (Sample.state [((P.COR_STATE, 0), 5), ((P.COR_TEST_RESULT, 0), 1)]) with clock := 999000000000000, time := { State.reset.time with coreA := { State.reset.time.coreA with okSince := some 0 } } }) (0))) ∧
    ((fun (rq : Request) (s : State) (x : Session) =>
      s.taken Op.CORE_SWITCH rq x ∧
      1 < beAt 0 1 rq.payload)
      ((Sample.rq Op.CORE_SWITCH [2, 0, 0, 0])) ({ (Sample.state [((P.COR_STATE, 1), 3), ((P.COR_STATE, 0), 4), ((P.COR_SCORE, 1), 100)]) with time := { State.reset.time with gap := some ⟨0, 0, 1, 0, []⟩ } }) (Sample.sess)) ∧
    ((fun (core : Fin 2) (s : State) (t0 : Nat) =>
      s.corState core.val = 5 ∧
      s.rd P.REF_TSTATE = 7 ∧
      (s.core core.val).okSince = some t0 ∧
      t0 + s.rd P.COR_RECOVER_TIME * 1000000000 ≤ s.clock)
      (0) ({ (Sample.state [((P.COR_STATE, 0), 5), ((P.REF_TSTATE, 0), 7)]) with clock := 999000000000000, time := { State.reset.time with out := ⟨5, 6⟩, coreA := { State.reset.time.coreA with okSince := some 0 } } }) (0)) ∧
    ((fun (core : Fin 2) (s : State) =>
      ((s.corState core.val ≠ 5 ∨ (s.core core.val).okSince = none ∨
      ∃ t0, (s.core core.val).okSince = some t0 ∧ s.clock < t0 + s.rd P.COR_RECOVER_TIME * 1000000000)))
      (0) ((Sample.state [((P.COR_STATE, 0), 5), ((P.COR_RECOVER_TIME, 0), 3)]))) ∧
    ((fun (core : Fin 2) (s : State) (t0 : Nat) =>
      (s.core core.val).xlockSince = some t0 ∧
      s.corState core.val = 2 ∧
      t0 + s.rd P.COR_XLOCK_SETTLE * 1000000000 ≤ s.clock ∧
      s.rd P.REF_TSTATE ≠ 7)
      (1) ({ (Sample.state [((P.COR_STATE, 1), 2)]) with time := { State.reset.time with coreB := { State.reset.time.coreB with xlockSince := some 0 } }, clock := 999000000000000 }) (0)) ∧
    ((fun (core : Fin 2) (s : State) =>
      ((s.corState core.val ≠ 2 ∨ (s.core core.val).xlockSince = none ∨
      ∃ t0, (s.core core.val).xlockSince = some t0 ∧ s.clock < t0 + s.rd P.COR_XLOCK_SETTLE * 1000000000)))
      (1) ((Sample.state [((P.COR_STATE, 1), 2)]))) ∧
    ((fun (core : Fin 2) (s : State) =>
      s.rd P.REF_TSTATE = 7 ∧
      (((s.corState core.val = 5 ∧ ∃ t0, (s.core core.val).okSince = some t0 ∧ t0 + s.rd P.COR_RECOVER_TIME * 1000000000 ≤ s.clock) ∨
      (s.corState core.val = 1 ∧ s.testResult core.val 0 ≤ 1) ∨
      (s.corState core.val = 3 ∧ s.rd P.COR_MIN_SCORE ≤ s.rd P.COR_SCORE core.val))))
      (0) ({ (Sample.state [((P.COR_STATE, 0), 5), ((P.REF_TSTATE, 0), 7)]) with clock := 999000000000000, time := { State.reset.time with out := ⟨5, 6⟩, coreA := { State.reset.time.coreA with okSince := some 0 } } })) ∧
    ((fun (core : Fin 2) (s : State) =>
      s.rd P.REF_TSTATE = 7 ∧
      (((s.corState core.val = 5 ∧ ∃ t0, (s.core core.val).okSince = some t0 ∧ t0 + s.rd P.COR_RECOVER_TIME * 1000000000 ≤ s.clock) ∨
      (s.corState core.val = 1 ∧ s.testResult core.val 0 ≤ 1) ∨
      (s.corState core.val = 3 ∧ s.rd P.COR_MIN_SCORE ≤ s.rd P.COR_SCORE core.val))))
      (1) ((Sample.state [((P.COR_STATE, 1), 3), ((P.COR_SCORE, 1), 90), ((P.REF_TSTATE, 0), 7), ((P.REF_TIME_SET, 0), 1)]))) ∧
    ((fun (core : Fin 2) (s : State) =>
      ((s.rd P.REF_TSTATE ≠ 7 ∨ s.corState core.val ∈ [0, 2, 4] ∨
      (s.corState core.val = 5 ∧ s.recovered core.val = false) ∨ (s.corState core.val = 1 ∧ 2 ≤ s.testResult core.val 0) ∨
      (s.corState core.val = 3 ∧ s.rd P.COR_SCORE core.val < s.rd P.COR_MIN_SCORE))))
      (0) ((Sample.state [((P.COR_STATE, 0), 5)]))) :=
  ⟨(⟨Sample.taken_of (by unfold State.reached; decide +kernel) (by decide +kernel) (by decide +kernel), by decide +kernel⟩),
   (⟨Sample.taken_of (by unfold State.reached; decide +kernel) (by decide +kernel) (by decide +kernel), by decide +kernel⟩),
   (⟨Sample.taken_of (by unfold State.reached; decide +kernel) (by decide +kernel) (by decide +kernel), by decide +kernel⟩),
   (⟨Sample.taken_of (by unfold State.reached; decide +kernel) (by decide +kernel) (by decide +kernel), by decide +kernel⟩),
   (⟨Sample.taken_of (by unfold State.reached; decide +kernel) (by decide +kernel) (by decide +kernel), by decide +kernel⟩),
   (⟨Sample.taken_of (by unfold State.reached; decide +kernel) (by decide +kernel) (by decide +kernel), by decide +kernel⟩),
   (⟨Sample.taken_of (by unfold State.reached; decide +kernel) (by decide +kernel) (by decide +kernel), by decide +kernel⟩),
   (by beta_reduce; and_intros <;> decide +kernel),
   (⟨Sample.taken_of (by unfold State.reached; decide +kernel) (by decide +kernel) (by decide +kernel), by decide +kernel⟩),
   (by beta_reduce; and_intros <;> decide +kernel),
   (⟨Sample.taken_of (by unfold State.reached; decide +kernel) (by decide +kernel) (by decide +kernel), by decide +kernel⟩),
   (by beta_reduce; and_intros <;> decide +kernel),
   (by exact Or.inr (Or.inl (by decide +kernel))),
   (by beta_reduce; and_intros <;> decide +kernel),
   (by exact Or.inr (Or.inl (by decide +kernel))),
   (⟨by decide +kernel, by exact Or.inl ⟨by decide +kernel, 0, by decide +kernel, by decide +kernel⟩⟩),
   (⟨by decide +kernel, by exact Or.inr (Or.inr ⟨by decide +kernel, by decide +kernel⟩)⟩),
   (by decide +kernel)⟩

theorem test_meets_TimeLinkExchange :
    (((fun (port : Fin 512) (raw1 : RawStamp) (s : State) =>
      s.timingRuns port.val = true ∧
      s.rd P.LNK_ROLE port.val = 2 ∧
      s.class7Free port.val = true)
      (16) (⟨500, 3, 2, 500, 0⟩) (Sample.timing 2 1)) ∧
    ((fun (port : Fin 512) (raw1 : RawStamp) (s : State) =>
      (s.timingRuns port.val = false ∨ s.rd P.LNK_ROLE port.val ≠ 2 ∨
      s.class7Free port.val = false))
      (16) (⟨500, 3, 2, 500, 0⟩) (Sample.timing 1 1)) ∧
    ((fun (port : Fin 512) (body : List Byte) (raw2 raw3 : RawStamp) (s : State) =>
      body.length = 32 ∧
      s.timingRuns port.val = true ∧
      s.rd P.LNK_ROLE port.val = 1)
      (16) (zeros 32) (⟨500, 3, 2, 500, 0⟩) (⟨900, 3, 2, 900, 0⟩) (Sample.timing 1 1)) ∧
    ((fun (port : Fin 512) (body : List Byte) (raw2 raw3 : RawStamp) (s : State) =>
      body.length = 32 ∧
      s.timingRuns port.val = true ∧
      s.rd P.LNK_ROLE port.val = 1)
      (16) (zeros 21 ++ [9] ++ zeros 10) (⟨500, 3, 2, 500, 0⟩) (⟨900, 3, 2, 900, 0⟩) (Sample.timing 1 3)) ∧
    ((fun (port : Fin 512) (body : List Byte) (raw2 raw3 : RawStamp) (s : State) =>
      body.length = 32 ∧
      s.timingRuns port.val = true ∧
      s.rd P.LNK_ROLE port.val ≠ 1)
      (16) (zeros 32) (⟨500, 3, 2, 500, 0⟩) (⟨900, 3, 2, 900, 0⟩) (Sample.timing 2 1)) ∧
    ((fun (port : Fin 512) (body : List Byte) (raw2 raw3 : RawStamp) (s : State) =>
      body.length = 32 ∧
      s.timingRuns port.val = true ∧
      s.rd P.LNK_ROLE port.val ≠ 1)
      (16) (zeros 32) (⟨500, 3, 2, 500, 0⟩) (⟨900, 3, 2, 900, 0⟩) (Sample.timing 2 3)) ∧
    ((fun (port : Fin 512) (body : List Byte) (raw4 : RawStamp) (s : State) (seq : Nat) (t1 rt : Int) (x4 : Stamp) =>
      body.length = 28 ∧
      s.timingRuns port.val = true ∧
      s.rd P.LNK_ROLE port.val = 2 ∧
      ((s.link port.val).sent.find? fun y => y.1 == beAt 0 2 body) = some (seq, t1) ∧
      x4 = s.rxMark port.val raw4 ∧
      rt = unitsPs ((x4.units - t1) - (stampAt 16 body - stampAt 4 body)))
      (16) (zeros 28) (⟨500, 3, 2, 500, 0⟩) ((Sample.timing 2 2).setLink 16 fun l => { l with sent := [(0, 60000000)] }) (0) (60000000) (unitsPs ((((Sample.timing 2 2).rxMark 16 ⟨500, 3, 2, 500, 0⟩).units - 60000000) - 0)) ((Sample.timing 2 2).rxMark 16 ⟨500, 3, 2, 500, 0⟩)) ∧
    ((fun (port : Fin 512) (body : List Byte) (raw4 : RawStamp) (s : State) (seq : Nat) (t1 rt : Int) (x4 : Stamp) =>
      body.length = 28 ∧
      s.timingRuns port.val = true ∧
      s.rd P.LNK_ROLE port.val = 2 ∧
      ((s.link port.val).sent.find? fun y => y.1 == beAt 0 2 body) = some (seq, t1) ∧
      x4 = s.rxMark port.val raw4 ∧
      rt = unitsPs ((x4.units - t1) - (stampAt 16 body - stampAt 4 body)))
      (16) (zeros 28) (⟨500, 3, 2, 500, 0⟩) ((Sample.timing 2 2).setLink 16 fun l => { l with sent := [(0, 70000000)] }) (0) (70000000) (unitsPs ((((Sample.timing 2 2).rxMark 16 ⟨500, 3, 2, 500, 0⟩).units - 70000000) - 0)) ((Sample.timing 2 2).rxMark 16 ⟨500, 3, 2, 500, 0⟩))) ∧
    ((fun (port : Fin 512) (body : List Byte) (raw4 : RawStamp) (s : State) =>
      body.length = 28 ∧
      s.timingRuns port.val = true)
      (16) (zeros 28) (⟨500, 3, 2, 500, 0⟩) (Sample.timing 2 2)) ∧
    ((fun (port : Fin 512) (body : List Byte) (s : State) (x : Exchange) (rt theta : Int) =>
      body.length = 20 ∧
      s.timingRuns port.val = true ∧
      s.rd P.LNK_ROLE port.val = 1 ∧
      ((s.link port.val).exchanges.find? fun x => x.seq == beAt 0 2 body) = some x ∧
      s.clock ≤ x.sentAt + s.rd P.LNK_RESP_TIMEOUT * 1000000 ∧
      rt = unitsPs ((stampAt 4 body - x.t1) - (x.t3 - x.t2)) ∧
      0 ≤ rt ∧
      rt ≤ 250000000 ∧
      ((∀ r0 f0, (s.link port.val).lastRt = some (r0, f0) → s.rd P.LNK_STATE port.val ≠ 3 ∨
      ((rt - r0) - phasePs (x.phi - f0)).natAbs ≤ s.rd P.LNK_RT_JUMP)) ∧
      theta = unitsPs (x.t2 - x.t1) - (rt + s.rdS 32 P.LNK_ASYM port.val) / 2)
      (16) (zeros 4 ++ toBe 12 (5000 * 2 ^ 16) ++ zeros 4) ((Sample.timing 1 3).setLink 16 fun l => { l with exchanges := [⟨0, 0, 65536000, 65536000, 0, 300, 1, 7, 0⟩] }) (⟨0, 0, 65536000, 65536000, 0, 300, 1, 7, 0⟩) (unitsPs (stampAt 4 (zeros 4 ++ toBe 12 (5000 * 2 ^ 16) ++ zeros 4))) (1000000 - unitsPs (stampAt 4 (zeros 4 ++ toBe 12 (5000 * 2 ^ 16) ++ zeros 4)) / 2)) ∧
    ((fun (port : Fin 512) (body : List Byte) (s : State) (x : Exchange) (rt theta : Int) =>
      body.length = 20 ∧
      s.timingRuns port.val = true ∧
      s.rd P.LNK_ROLE port.val = 1 ∧
      ((s.link port.val).exchanges.find? fun x => x.seq == beAt 0 2 body) = some x ∧
      s.clock ≤ x.sentAt + s.rd P.LNK_RESP_TIMEOUT * 1000000 ∧
      rt = unitsPs ((stampAt 4 body - x.t1) - (x.t3 - x.t2)) ∧
      0 ≤ rt ∧
      rt ≤ 250000000 ∧
      ((∀ r0 f0, (s.link port.val).lastRt = some (r0, f0) → s.rd P.LNK_STATE port.val ≠ 3 ∨
      ((rt - r0) - phasePs (x.phi - f0)).natAbs ≤ s.rd P.LNK_RT_JUMP)) ∧
      theta = unitsPs (x.t2 - x.t1) - (rt + s.rdS 32 P.LNK_ASYM port.val) / 2)
      (16) (zeros 4 ++ toBe 12 (5000 * 2 ^ 16) ++ zeros 4) (((Sample.timing 1 3).wr P.REF_LINK_PORT 1 16).setLink 16 fun l => { l with exchanges := [⟨0, 0, 65536000, 65536000, 0, 300, 1, 7, 0⟩] }) (⟨0, 0, 65536000, 65536000, 0, 300, 1, 7, 0⟩) (unitsPs (stampAt 4 (zeros 4 ++ toBe 12 (5000 * 2 ^ 16) ++ zeros 4))) (1000000 - unitsPs (stampAt 4 (zeros 4 ++ toBe 12 (5000 * 2 ^ 16) ++ zeros 4)) / 2)) ∧
    ((fun (port : Fin 512) (body : List Byte) (s : State) (x : Exchange) (rt : Int) =>
      body.length = 20 ∧
      s.timingRuns port.val = true ∧
      s.rd P.LNK_ROLE port.val = 1 ∧
      ((s.link port.val).exchanges.find? fun x => x.seq == beAt 0 2 body) = some x ∧
      rt = unitsPs ((stampAt 4 body - x.t1) - (x.t3 - x.t2)) ∧
      ((x.sentAt + s.rd P.LNK_RESP_TIMEOUT * 1000000 < s.clock ∨ rt < 0 ∨ 250000000 < rt ∨
      ∃ r0 f0, (s.link port.val).lastRt = some (r0, f0) ∧ s.rd P.LNK_STATE port.val = 3 ∧ (beAt 2 1 body).testBit 0 = false ∧
        s.rd P.LNK_RT_JUMP < ((rt - r0) - phasePs (x.phi - f0)).natAbs)))
      (16) (zeros 4 ++ toBe 12 (5000 * 2 ^ 16) ++ zeros 4) ({ ((Sample.timing 1 3).setLink 16 fun l => { l with exchanges := [⟨0, 0, 65536000, 65536000, 0, 300, 1, 7, 0⟩] }) with clock := 90000000000 }) (⟨0, 0, 65536000, 65536000, 0, 300, 1, 7, 0⟩) (unitsPs (stampAt 4 (zeros 4 ++ toBe 12 (5000 * 2 ^ 16) ++ zeros 4)))) ∧
    ((fun (port : Fin 512) (body : List Byte) (s : State) (x : Exchange) (rt : Int) =>
      body.length = 20 ∧
      s.timingRuns port.val = true ∧
      s.rd P.LNK_ROLE port.val = 1 ∧
      ((s.link port.val).exchanges.find? fun x => x.seq == beAt 0 2 body) = some x ∧
      rt = unitsPs ((stampAt 4 body - x.t1) - (x.t3 - x.t2)) ∧
      ((x.sentAt + s.rd P.LNK_RESP_TIMEOUT * 1000000 < s.clock ∨ rt < 0 ∨ 250000000 < rt ∨
      ∃ r0 f0, (s.link port.val).lastRt = some (r0, f0) ∧ s.rd P.LNK_STATE port.val = 3 ∧ (beAt 2 1 body).testBit 0 = false ∧
        s.rd P.LNK_RT_JUMP < ((rt - r0) - phasePs (x.phi - f0)).natAbs)))
      (16) (zeros 4 ++ toBe 12 (5000 * 2 ^ 16) ++ zeros 4) ((Sample.timing 1 3).setLink 16 fun l => { l with lastRt := some (3000000, 0), exchanges := [⟨0, 0, 65536000, 65536000, 0, 300, 1, 7, 0⟩] }) (⟨0, 0, 65536000, 65536000, 0, 300, 1, 7, 0⟩) (unitsPs (stampAt 4 (zeros 4 ++ toBe 12 (5000 * 2 ^ 16) ++ zeros 4)))) ∧
    (((fun (port : Fin 512) (body : List Byte) (s : State) =>
      body.length = 20 ∧
      s.timingRuns port.val = true ∧
      s.rd P.LNK_ROLE port.val = 1 ∧
      ((s.link port.val).exchanges.find? fun x => x.seq == beAt 0 2 body) = none)
      (16) (zeros 20) (Sample.timing 1 3)) ∧
    ((fun (port : Fin 512) (body : List Byte) (s : State) =>
      body.length = 20 ∧
      s.timingRuns port.val = true ∧
      s.rd P.LNK_ROLE port.val = 1 ∧
      ((s.link port.val).exchanges.find? fun x => x.seq == beAt 0 2 body) = none)
      (16) ([0, 4] ++ zeros 18) ((Sample.timing 1 3).setLink 16 fun l => { l with exchanges := [⟨0, 0, 65536000, 65536000, 0, 300, 1, 7, 0⟩] })) ∧
    ((fun (port : Fin 512) (body : List Byte) (s : State) =>
      body.length = 20 ∧
      s.timingRuns port.val = true ∧
      s.rd P.LNK_ROLE port.val = 1 ∧
      s.rd P.LNK_STATE port.val = 3 ∧
      (s.link port.val).widened = false ∧
      (beAt 2 1 body).testBit 0 = true ∧
      (s.link port.val).exchanges = [])
      (16) ([0, 0, 1] ++ zeros 17) ((Sample.timing 1 3).wr P.LNK_SLIP_WIDEN 16 500)) ∧
    ((fun (port : Fin 512) (s : State) (x : Exchange) =>
      ((s.link port.val).exchanges.find? fun x => decide (x.sentAt + s.rd P.LNK_RESP_TIMEOUT * 1000000 ≤ s.clock)) = some x)
      (16) ({ ((Sample.timing 1 3).setLink 16 fun l => { l with discards := 9, exchanges := [⟨0, 0, 65536000, 65536000, 0, 300, 1, 7, 0⟩] }) with clock := 90000000000 }) (⟨0, 0, 65536000, 65536000, 0, 300, 1, 7, 0⟩)) ∧
    ((fun (port : Fin 512) (s : State) =>
      ((∀ x ∈ (s.link port.val).exchanges,
      s.clock < x.sentAt + s.rd P.LNK_RESP_TIMEOUT * 1000000)))
      (16) ((Sample.state []))) ∧
    ((fun (port : Fin 512) (body : List Byte) (s : State) =>
      body.length = 28 ∧
      s.timingRuns port.val = true ∧
      beAt 2 1 body = 0 ∧
      s.rd P.LNK_ROLE port.val = 2)
      (16) (zeros 28) (Sample.timing 2 3)) ∧
    ((fun (port : Fin 512) (body : List Byte) (s : State) (r : LinkRun) =>
      body.length = 28 ∧
      s.timingRuns port.val = true ∧
      beAt 2 1 body = 1 ∧
      s.linkRun = some r ∧
      r.port = port.val ∧
      r.seq = beAt 0 2 body)
      (16) ([0, 0, 1] ++ zeros 25) ({ Sample.timing 1 3 with linkRun := some ⟨16, 0, 3, [], [], 0, 0⟩ }) (⟨16, 0, 3, [], [], 0, 0⟩)) ∧
    ((fun (port : Fin 512) (body : List Byte) (s : State) =>
      body.length = 28 ∧
      s.timingRuns port.val = true ∧
      beAt 2 1 body = 2)
      (16) ([0, 0, 2] ++ zeros 25) ({ Sample.timing 2 3 with tcal := [⟨16, 0, 3, 0⟩] }))) ∧
    (((fun (port : Fin 512) (body : List Byte) (s : State) =>
      body.length = 28 ∧
      (((beAt 2 1 body = 0 ∧ s.rd P.LNK_ROLE port.val ≠ 2) ∨ 2 < beAt 2 1 body ∨
      (beAt 2 1 body = 1 ∧ ∀ r, s.linkRun = some r → r.port ≠ port.val ∨ r.seq ≠ beAt 0 2 body))))
      (16) (zeros 28) (Sample.timing 1 3)) ∧
    ((fun (port : Fin 512) (body : List Byte) (s : State) =>
      body.length = 28 ∧
      (((beAt 2 1 body = 0 ∧ s.rd P.LNK_ROLE port.val ≠ 2) ∨ 2 < beAt 2 1 body ∨
      (beAt 2 1 body = 1 ∧ ∀ r, s.linkRun = some r → r.port ≠ port.val ∨ r.seq ≠ beAt 0 2 body))))
      (16) ([0, 0, 3] ++ zeros 25) (Sample.timing 2 3))) :=
  ⟨(by beta_reduce; and_intros <;> decide +kernel),
   (by beta_reduce; and_intros <;> decide +kernel),
   (⟨by decide +kernel, by decide +kernel, by decide +kernel, by decide +kernel, by decide +kernel, by decide +kernel, by decide +kernel, by decide +kernel, by intro r0 f0 h; have h2 : _ = true := congrArg Option.isSome h; exact absurd h2 (by decide +kernel), by decide +kernel⟩),
   (⟨by decide +kernel, by decide +kernel, by decide +kernel, by decide +kernel, by decide +kernel, by decide +kernel, by decide +kernel, by decide +kernel, by intro r0 f0 h; have h2 : _ = true := congrArg Option.isSome h; exact absurd h2 (by decide +kernel), by decide +kernel⟩),
   (⟨by decide +kernel, by decide +kernel, by decide +kernel, by decide +kernel, by decide +kernel, by exact Or.inl (by decide +kernel)⟩),
   (⟨by decide +kernel, by decide +kernel, by decide +kernel, by decide +kernel, by decide +kernel, by exact Or.inr (Or.inr (Or.inr ⟨3000000, 0, by decide +kernel, by decide +kernel, by decide +kernel, by decide +kernel⟩))⟩),
   (by beta_reduce; and_intros <;> decide +kernel),
   (by beta_reduce; and_intros <;> decide +kernel)⟩

theorem test_meets_LinkPhaseAndSlips :
    (((fun (port : Fin 512) (firsts : List (Fin 16384)) (runs : List Nat) (beats : List (Fin 16384)) (s : State) (avg : Int) (span : Nat) =>
      beats = beatEdges (s.rd P.LNK_DDMTD_GLITCH) firsts runs ∧
      s.lockedPort port.val = true ∧
      (s.link port.val).divider = true ∧
      beats.length = 2 ^ s.rd P.LNK_DDMTD_AVG ∧
      span = beatNs * 2 ^ s.rd P.LNK_DDMTD_AVG ∧
      s.gapWithin span = false ∧
      avg = beatAverage (s.link port.val).phase beats)
      (16) (List.replicate (2 ^ (Sample.timing 1 3).rd P.LNK_DDMTD_AVG) 300) (List.replicate (2 ^ (Sample.timing 1 3).rd P.LNK_DDMTD_AVG) 64) (List.replicate (2 ^ (Sample.timing 1 3).rd P.LNK_DDMTD_AVG) 300) ((Sample.timing 1 3).setLink 16 fun l => { l with divider := true, valid := true, avgAt := some 0, phase := 307199, lastRt := some (5000000, 100), theta := 77 }) (307200) (beatNs * 2 ^ (Sample.timing 1 3).rd P.LNK_DDMTD_AVG)) ∧
    ((fun (port : Fin 512) (firsts : List (Fin 16384)) (runs : List Nat) (beats : List (Fin 16384)) (s : State) (avg : Int) (span : Nat) =>
      beats = beatEdges (s.rd P.LNK_DDMTD_GLITCH) firsts runs ∧
      s.lockedPort port.val = true ∧
      (s.link port.val).divider = true ∧
      beats.length = 2 ^ s.rd P.LNK_DDMTD_AVG ∧
      span = beatNs * 2 ^ s.rd P.LNK_DDMTD_AVG ∧
      s.gapWithin span = false ∧
      avg = beatAverage (s.link port.val).phase beats)
      (16) (5 :: List.replicate (2 ^ (Sample.timing 1 3).rd P.LNK_DDMTD_AVG) 16000) (63 :: List.replicate (2 ^ (Sample.timing 1 3).rd P.LNK_DDMTD_AVG) 64) (List.replicate (2 ^ (Sample.timing 1 3).rd P.LNK_DDMTD_AVG) 16000) ((Sample.timing 1 3).setLink 16 fun l => { l with divider := true, valid := true }) (-393216) (beatNs * 2 ^ (Sample.timing 1 3).rd P.LNK_DDMTD_AVG)) ∧
    ((fun (port : Fin 512) (firsts : List (Fin 16384)) (runs : List Nat) (s : State) =>
      ((s.lockedPort port.val = false ∨ (s.link port.val).divider = false ∨
      (beatEdges (s.rd P.LNK_DDMTD_GLITCH) firsts runs).length ≠ 2 ^ s.rd P.LNK_DDMTD_AVG ∨ s.time.gap ≠ none ∨
      ∃ t0, s.time.gapEnd = some t0 ∧ s.clock < t0 + beatNs * 2 ^ s.rd P.LNK_DDMTD_AVG)))
      (16) ([]) ([]) ((Sample.state [((P.LNK_CLASS, 4), 0)]))) ∧
    ((fun (port : Fin 512) (s : State) (t0 : Nat) =>
      (s.link port.val).goodSince = some t0 ∧
      s.lockedPort port.val = true ∧
      t0 + s.rd P.LNK_DDMTD_SETTLE * 1000000 ≤ s.clock)
      (16) ({ ((Sample.timing 1 1).setLink 16 fun l => { l with goodSince := some 0, partner := true }) with clock := 90000000000 }) (0)) ∧
    ((fun (port : Fin 512) (s : State) (t0 : Nat) =>
      (s.link port.val).goodSince = some t0 ∧
      s.lockedPort port.val = true ∧
      t0 + s.rd P.LNK_DDMTD_SETTLE * 1000000 ≤ s.clock)
      (16) ({ ((Sample.timing 1 1).setLink 16 fun l => { l with goodSince := some 0 }) with clock := 90000000000 }) (0))) ∧
    ((fun (port : Fin 512) (s : State) =>
      ((∀ t0, (s.link port.val).goodSince = some t0 → s.lockedPort port.val = false ∨
      s.clock < t0 + s.rd P.LNK_DDMTD_SETTLE * 1000000)))
      (16) ((Sample.state []))) ∧
    ((fun (port : Fin 512) (s : State) (t0 : Nat) =>
      (s.link port.val).slipUntil = some t0 ∧
      t0 ≤ s.clock)
      (16) (((Sample.state [((P.LNK_BEVT, 16), 500)])).setLink 16 fun l => { l with slipUntil := some 0, suspect := 40 }) (0)) ∧
    ((fun (port : Fin 512) (s : State) =>
      ((∀ t0, (s.link port.val).slipUntil = some t0 → s.clock < t0)))
      (16) ((Sample.state []))) :=
  ⟨(by beta_reduce; and_intros <;> decide +kernel),
   (by intro x h; have h2 : _ = true := congrArg Option.isSome h; exact absurd h2 (by decide +kernel)),
   (by beta_reduce; and_intros <;> decide +kernel),
   (by intro x h; have h2 : _ = true := congrArg Option.isSome h; exact absurd h2 (by decide +kernel))⟩

theorem test_meets_PtpServiceAnswersAndGrants :
    (((fun (port : Fin 512) (tx : RawStamp) (s : State) (n : Nat) (x : Stamp) =>
      s.ptpRuns port.val = true ∧
      n = look (port.val, 0) 0 s.ptpSeq ∧
      x = s.txMark port.val tx)
      (16) (⟨500, 3, 2, 500, 0⟩) (Sample.ptp 1) (0) ((Sample.ptp 1).txMark 16 ⟨500, 3, 2, 500, 0⟩)) ∧
    ((fun (port : Fin 512) (tx : RawStamp) (s : State) (n : Nat) (x : Stamp) =>
      s.ptpRuns port.val = true ∧
      n = look (port.val, 11) 0 s.ptpSeq ∧
      x = s.txMark port.val tx)
      (16) (⟨500, 3, 2, 500, 0⟩) (Sample.ptp 1) (0) ((Sample.ptp 1).txMark 16 ⟨500, 3, 2, 500, 0⟩)) ∧
    ((fun (port : Fin 512) (c m : Nat) (tx : RawStamp) (s : State) (n : Nat) (x : Stamp) (g : Grant) =>
      s.ptpRuns port.val = true ∧
      (s.grants.find? fun g => g.port == port.val && g.clock == c && g.number == m && g.msg == 0 && decide (s.clock < g.ends)) = some g ∧
      n = look (port.val, 0) 0 s.ptpSeq ∧
      x = s.txMark port.val tx)
      (16) (5) (6) (⟨500, 3, 2, 500, 0⟩) ({ Sample.ptp 1 with grants := [⟨16, 5, 6, 7, .udp4 3 4, 0, -1, 9⟩] }) (0) ((Sample.ptp 1).txMark 16 ⟨500, 3, 2, 500, 0⟩) (⟨16, 5, 6, 7, .udp4 3 4, 0, -1, 9⟩)) ∧
    ((fun (port : Fin 512) (c m : Nat) (tx : RawStamp) (s : State) (n : Nat) (x : Stamp) (g : Grant) =>
      s.ptpRuns port.val = true ∧
      (s.grants.find? fun g => g.port == port.val && g.clock == c && g.number == m && g.msg == 11 && decide (s.clock < g.ends)) = some g ∧
      n = look (port.val, 11) 0 s.ptpSeq ∧
      x = s.txMark port.val tx)
      (16) (5) (6) (⟨500, 3, 2, 500, 0⟩) ({ Sample.ptp 1 with grants := [⟨16, 5, 6, 7, .udp6 3 4, 11, -1, 9⟩] }) (0) ((Sample.ptp 1).txMark 16 ⟨500, 3, 2, 500, 0⟩) (⟨16, 5, 6, 7, .udp6 3 4, 11, -1, 9⟩)) ∧
    ((fun (port : Fin 512) (announce : Bool) (c m : Nat) (tx : RawStamp) (s : State) =>
      ((∀ g ∈ s.grants, g.port = port.val → g.clock = c → g.number = m → g.ends ≤ s.clock)))
      (16) (true) (5) (6) (⟨500, 3, 2, 500, 0⟩) ({ Sample.ptp 1 with grants := [⟨16, 5, 6, 7, .ethernet, 11, -1, 0⟩] })) ∧
    ((fun (port : Fin 512) (clock : BitVec 64) (number : BitVec 16) (mac : BitVec 48) (path : PtpPath) (msg : Fin 16) (period : BitVec 8)
      (duration : BitVec 32) (s : State) (d : Nat) =>
      s.ptpRuns port.val = true ∧
      ((msg.val = 0 ∨ msg.val = 9 ∨ msg.val = 11)) ∧
      -7 ≤ sgn 8 period.toNat ∧
      (((clientsOf s.grants).length < 4096 ∨ (clock.toNat, number.toNat) ∈ clientsOf s.grants)) ∧
      d = min duration.toNat (s.rd P.LNK_PTP_GRANT_MAX))
      (16) (5) (6) (7) (.udp4 3 4) (9) (0xFE) (600) ({ Sample.ptp 1 with grants := [⟨16, 5, 6, 7, .ethernet, 9, -1, 9⟩] }) (min 600 ((Sample.ptp 1).rd P.LNK_PTP_GRANT_MAX))) ∧
    ((fun (port : Fin 512) (clock : BitVec 64) (number : BitVec 16) (mac : BitVec 48) (path : PtpPath) (msg : Fin 16) (period : BitVec 8)
      (duration : BitVec 32) (s : State) =>
      s.ptpRuns port.val = true ∧
      (((msg.val ≠ 0 ∧ msg.val ≠ 9 ∧ msg.val ≠ 11) ∨ sgn 8 period.toNat < -7 ∨
      (4096 ≤ (clientsOf s.grants).length ∧ (clock.toNat, number.toNat) ∉ clientsOf s.grants))))
      (16) (5) (6) (7) (.ethernet) (9) (0xF0) (600) (Sample.ptp 1)) ∧
    ((fun (port : Fin 512) (clock : BitVec 64) (number : BitVec 16) (mac : BitVec 48) (path : PtpPath) (msg : Fin 16) (period : BitVec 8)
      (duration : BitVec 32) (s : State) =>
      s.ptpRuns port.val = true ∧
      (((msg.val ≠ 0 ∧ msg.val ≠ 9 ∧ msg.val ≠ 11) ∨ sgn 8 period.toNat < -7 ∨
      (4096 ≤ (clientsOf s.grants).length ∧ (clock.toNat, number.toNat) ∉ clientsOf s.grants))))
      (16) (5) (6) (7) (.ethernet) (3) (0) (600) (Sample.ptp 1))) ∧
    (((fun (port : Fin 512) (msg : List Byte) (mac : BitVec 48) (path : PtpPath) (rx tx : RawStamp) (s : State) (x : Stamp) =>
      s.ptpRuns port.val = true ∧
      44 ≤ msg.length ∧
      beAt 4 1 msg = s.rd P.LNK_PTP_DOMAIN ∧
      beAt 1 1 msg % 16 = 2 ∧
      beAt 0 1 msg % 16 = 1 ∧
      s.rd P.LNK_PTP_PORT_EN port.val = 1 ∧
      x = s.rxMark port.val rx)
      (16) ([1, 2] ++ zeros 42) (5) (.udp4 3 4) (⟨500, 3, 2, 500, 0⟩) (⟨900, 3, 2, 900, 0⟩) (Sample.ptp 1) ((Sample.ptp 1).rxMark 16 ⟨500, 3, 2, 500, 0⟩)) ∧
    ((fun (port : Fin 512) (msg : List Byte) (mac : BitVec 48) (path : PtpPath) (rx tx : RawStamp) (s : State) (x : Stamp) =>
      s.ptpRuns port.val = true ∧
      44 ≤ msg.length ∧
      beAt 4 1 msg = s.rd P.LNK_PTP_DOMAIN ∧
      beAt 1 1 msg % 16 = 2 ∧
      beAt 0 1 msg % 16 = 1 ∧
      s.rd P.LNK_PTP_PORT_EN port.val = 1 ∧
      x = s.rxMark port.val rx)
      (16) ([1, 2, 0, 0, 0, 0, 4] ++ zeros 37) (5) (.ethernet) (⟨500, 3, 2, 500, 0⟩) (⟨900, 3, 2, 900, 0⟩) ({ Sample.ptp 1 with grants := [⟨16, 0, 0, 7, .ethernet, 9, -1, 9⟩] }) ((Sample.ptp 1).rxMark 16 ⟨500, 3, 2, 500, 0⟩)) ∧
    ((fun (port : Fin 512) (msg : List Byte) (mac : BitVec 48) (path : PtpPath) (rx tx : RawStamp) (s : State) (x : Stamp) =>
      s.ptpRuns port.val = true ∧
      44 ≤ msg.length ∧
      beAt 4 1 msg = s.rd P.LNK_PTP_DOMAIN ∧
      beAt 1 1 msg % 16 = 2 ∧
      beAt 0 1 msg % 16 = 1 ∧
      s.rd P.LNK_PTP_PORT_EN port.val = 1 ∧
      x = s.rxMark port.val rx)
      (16) ([1, 2, 0, 0, 0, 0, 4] ++ zeros 37) (5) (.ethernet) (⟨500, 3, 2, 500, 0⟩) (⟨900, 3, 2, 900, 0⟩) (Sample.ptp 1) ((Sample.ptp 1).rxMark 16 ⟨500, 3, 2, 500, 0⟩)) ∧
    ((fun (port : Fin 512) (msg : List Byte) (mac : BitVec 48) (path : PtpPath) (rx tx : RawStamp) (s : State) =>
      s.ptpRuns port.val = true ∧
      44 ≤ msg.length ∧
      beAt 4 1 msg = s.rd P.LNK_PTP_DOMAIN ∧
      beAt 1 1 msg % 16 = 2 ∧
      beAt 0 1 msg % 16 = 2 ∧
      s.rd P.LNK_PTP_PORT_EN port.val = 2)
      (16) ([2, 2, 0, 0, 0, 0, 4] ++ zeros 37) (5) (.udp6 3 4) (⟨500, 3, 2, 500, 0⟩) (⟨900, 3, 2, 900, 0⟩) (Sample.ptp 2)) ∧
    ((fun (port : Fin 512) (msg : List Byte) (mac : BitVec 48) (path : PtpPath) (rx tx : RawStamp) (s : State) =>
      s.ptpRuns port.val = true ∧
      44 ≤ msg.length ∧
      beAt 4 1 msg = s.rd P.LNK_PTP_DOMAIN ∧
      beAt 1 1 msg % 16 = 2 ∧
      beAt 0 1 msg % 16 = 2 ∧
      s.rd P.LNK_PTP_PORT_EN port.val = 2)
      (16) ([2, 2] ++ zeros 42) (5) (.udp6 3 4) (⟨500, 3, 2, 500, 0⟩) (⟨900, 3, 2, 900, 0⟩) (Sample.ptp 2)) ∧
    ((fun (port : Fin 512) (msg : List Byte) (mac : BitVec 48) (path : PtpPath) (rx tx : RawStamp) (s : State) =>
      ((s.ptpRuns port.val = false ∨ msg.length < 44 ∨ beAt 4 1 msg ≠ s.rd P.LNK_PTP_DOMAIN ∨ beAt 1 1 msg % 16 ≠ 2 ∨
      beAt 0 1 msg % 16 ∉ [1, 2] ∨ s.rd P.LNK_PTP_PORT_EN port.val ≠ beAt 0 1 msg % 16)))
      (16) ([]) (5) (.ethernet) (⟨500, 3, 2, 500, 0⟩) (⟨900, 3, 2, 900, 0⟩) (Sample.ptp 2)) ∧
    ((fun (port : Fin 512) (announce : Bool) (u : Option (Nat × Nat)) (tx : RawStamp) (clock : BitVec 64) (number : BitVec 16)
      (mac : BitVec 48) (path : PtpPath) (msg : Fin 16) (period : BitVec 8) (duration : BitVec 32) (s : State) =>
      s.ptpRuns port.val = false)
      (16) (false) (none) (⟨500, 3, 2, 500, 0⟩) (0) (0) (0) (.ethernet) (0) (0) (0) ((Sample.state [])))) :=
  ⟨(by beta_reduce; and_intros <;> decide +kernel),
   (by beta_reduce; and_intros <;> decide +kernel)⟩

theorem test_meets_GnssPulseAndRecords :
    (((fun (x : GnssFix) (freq osc : Int) (s : State) (y : GnssSolution) (stands out valid : Bool) =>
      s.gnssOn = true ∧
      s.gnssDuty = false ∧
      s.gnss.renew = false ∧
      s.gnss.mode = 1 ∧
      0 < s.refs.length ∧
      residualCheck x.first false x.more = (y, stands, out) ∧
      (valid = decide (stands = true ∧ satsNeeded y false ≤ y.used.length ∧ s.rd P.GNS_MIN_SATS ≤ y.used.length ∧ 1 ≤ systemsOf y ∧
      y.sigma.toNat ≤ s.rd P.GNS_SIGMA_MAX ∧ s.rd P.GNS_ANT_STATUS ≠ 3 ∧
      ((s.rd P.GNS_FLAGS).testBit 0 = false ∨ s.rd P.GNS_SPOOF_ACTION = 0))))
      (⟨1000, ⟨5000, 160, [⟨7, 0, 3, 5⟩, ⟨8, 0, 3, 5⟩, ⟨9, 1, 1, 5⟩, ⟨10, 0, 3, 5⟩, ⟨11, 0, 3, 5⟩, ⟨12, 1, 1, 5⟩, ⟨13, 0, 3, 5⟩], none⟩, [], none, []⟩) (7) (8) (Sample.gnss 1) (⟨5000, 160, [⟨7, 0, 3, 5⟩, ⟨8, 0, 3, 5⟩, ⟨9, 1, 1, 5⟩, ⟨10, 0, 3, 5⟩, ⟨11, 0, 3, 5⟩, ⟨12, 1, 1, 5⟩, ⟨13, 0, 3, 5⟩], none⟩) (true) (false) (true)) ∧
    ((fun (x : GnssFix) (freq osc : Int) (s : State) (y : GnssSolution) (stands out valid : Bool) =>
      s.gnssOn = true ∧
      s.gnssDuty = false ∧
      s.gnss.renew = false ∧
      s.gnss.mode = 1 ∧
      0 < s.refs.length ∧
      residualCheck x.first false x.more = (y, stands, out) ∧
      (valid = decide (stands = true ∧ satsNeeded y false ≤ y.used.length ∧ s.rd P.GNS_MIN_SATS ≤ y.used.length ∧ 1 ≤ systemsOf y ∧
      y.sigma.toNat ≤ s.rd P.GNS_SIGMA_MAX ∧ s.rd P.GNS_ANT_STATUS ≠ 3 ∧
      ((s.rd P.GNS_FLAGS).testBit 0 = false ∨ s.rd P.GNS_SPOOF_ACTION = 0))))
      (⟨1000, ⟨5000, 160, [⟨7, 0, 3, 5⟩], none⟩, [], none, []⟩) (7) (8) (Sample.gnss 1) (⟨5000, 160, [⟨7, 0, 3, 5⟩], none⟩) (true) (false) (false)) ∧
    ((fun (x : GnssFix) (freq osc : Int) (s : State) (y : GnssSolution) (stands out valid : Bool) =>
      s.gnssOn = true ∧
      s.gnssDuty = false ∧
      s.gnss.renew = false ∧
      s.gnss.mode = 1 ∧
      0 < s.refs.length ∧
      residualCheck x.first false x.more = (y, stands, out) ∧
      (valid = decide (stands = true ∧ satsNeeded y false ≤ y.used.length ∧ s.rd P.GNS_MIN_SATS ≤ y.used.length ∧ 1 ≤ systemsOf y ∧
      y.sigma.toNat ≤ s.rd P.GNS_SIGMA_MAX ∧ s.rd P.GNS_ANT_STATUS ≠ 3 ∧
      ((s.rd P.GNS_FLAGS).testBit 0 = false ∨ s.rd P.GNS_SPOOF_ACTION = 0))))
      (⟨1000, ⟨5000, 160, [⟨7, 0, 3, 5⟩, ⟨8, 0, 3, 5⟩, ⟨9, 1, 1, 5⟩, ⟨10, 0, 3, 5⟩, ⟨11, 0, 3, 5⟩, ⟨12, 1, 1, 5⟩, ⟨13, 0, 3, 5⟩, ⟨14, 0, 3, 9000⟩], none⟩, [⟨5000, 160, [⟨7, 0, 3, 5⟩, ⟨8, 0, 3, 5⟩, ⟨9, 1, 1, 5⟩, ⟨10, 0, 3, 5⟩, ⟨11, 0, 3, 5⟩, ⟨12, 1, 1, 5⟩, ⟨13, 0, 3, 5⟩], none⟩], some (37, 0), [(0, 7, 40)]⟩) (7) (8) ({ (Sample.gnss 1).wr P.PWR_DOMAIN_STATE 1 3 with gnss := { (Sample.gnss 1).gnss with channels := [⟨0, 7, 60, 1, 2, false⟩] } }) (⟨5000, 160, [⟨7, 0, 3, 5⟩, ⟨8, 0, 3, 5⟩, ⟨9, 1, 1, 5⟩, ⟨10, 0, 3, 5⟩, ⟨11, 0, 3, 5⟩, ⟨12, 1, 1, 5⟩, ⟨13, 0, 3, 5⟩], none⟩) (true) (true) (true)) ∧
    ((fun (x : GnssFix) (freq osc : Int) (s : State) (y : GnssSolution) (stands out valid : Bool) =>
      s.gnssOn = true ∧
      s.gnssDuty = false ∧
      s.gnss.renew = false ∧
      s.gnss.mode = 1 ∧
      0 < s.refs.length ∧
      residualCheck x.first false x.more = (y, stands, out) ∧
      (valid = decide (stands = true ∧ satsNeeded y false ≤ y.used.length ∧ s.rd P.GNS_MIN_SATS ≤ y.used.length ∧ 1 ≤ systemsOf y ∧
      y.sigma.toNat ≤ s.rd P.GNS_SIGMA_MAX ∧ s.rd P.GNS_ANT_STATUS ≠ 3 ∧
      ((s.rd P.GNS_FLAGS).testBit 0 = false ∨ s.rd P.GNS_SPOOF_ACTION = 0))))
      (⟨1000, ⟨5000, 160, [⟨7, 0, 3, 5⟩, ⟨8, 0, 3, 5⟩, ⟨9, 1, 1, 5⟩, ⟨10, 0, 3, 5⟩, ⟨11, 0, 3, 5⟩, ⟨12, 1, 1, 5⟩, ⟨13, 0, 3, 5⟩, ⟨14, 0, 3, 9000⟩], none⟩, [], none, []⟩) (7) (8) ((Sample.gnss 1).wr P.GNS_ANT_STATUS 0 3) (⟨5000, 160, [⟨7, 0, 3, 5⟩, ⟨8, 0, 3, 5⟩, ⟨9, 1, 1, 5⟩, ⟨10, 0, 3, 5⟩, ⟨11, 0, 3, 5⟩, ⟨12, 1, 1, 5⟩, ⟨13, 0, 3, 5⟩, ⟨14, 0, 3, 9000⟩], none⟩) (false) (true) (false)) ∧
    ((fun (x : GnssFix) (freq osc : Int) (s : State) (p : Int × Int × Int) =>
      s.gnssOn = true ∧
      s.gnssDuty = false ∧
      s.gnss.renew = false ∧
      s.gnss.mode = 0 ∧
      s.rd P.GNS_SURVEY_STATE = 0 ∧
      s.pulseGap = 0 ∧
      x.first.position = some p ∧
      1 ≤ systemsOf x.first ∧
      satsNeeded x.first true ≤ x.first.used.length ∧
      s.rd P.GNS_MIN_SATS ≤ x.first.used.length)
      (⟨1000, ⟨5000, 160, [⟨7, 0, 3, 5⟩, ⟨8, 0, 3, 5⟩, ⟨9, 1, 1, 5⟩, ⟨10, 0, 3, 5⟩, ⟨11, 0, 3, 5⟩, ⟨12, 1, 1, 5⟩, ⟨13, 0, 3, 5⟩], some (3, -4, 5)⟩, [], none, []⟩) (7) (8) (Sample.gnss 0) ((3, -4, 5))) ∧
    ((fun (x : GnssFix) (freq osc : Int) (s : State) (p : Int × Int × Int) =>
      s.gnssOn = true ∧
      s.gnssDuty = false ∧
      s.gnss.renew = false ∧
      s.gnss.mode = 0 ∧
      s.rd P.GNS_SURVEY_STATE = 0 ∧
      s.pulseGap = 0 ∧
      x.first.position = some p ∧
      1 ≤ systemsOf x.first ∧
      satsNeeded x.first true ≤ x.first.used.length ∧
      s.rd P.GNS_MIN_SATS ≤ x.first.used.length)
      (⟨1000, ⟨5000, 160, [⟨7, 0, 3, 5⟩, ⟨8, 0, 3, 5⟩, ⟨9, 1, 1, 5⟩, ⟨10, 0, 3, 5⟩, ⟨11, 0, 3, 5⟩, ⟨12, 1, 1, 5⟩, ⟨13, 0, 3, 5⟩], some (3, -4, 5)⟩, [], none, []⟩) (7) (8) ((Sample.gnss 0).wr P.GNS_SURVEY_TIME 0 1) ((3, -4, 5))) ∧
    ((fun (x : GnssFix) (freq osc : Int) (s : State) =>
      s.gnssOn = true ∧
      s.gnssDuty = false ∧
      s.gnss.renew = false ∧
      s.gnss.mode = 0 ∧
      s.rd P.GNS_SURVEY_STATE = 0 ∧
      (0 < s.pulseGap ∨ x.first.position = none))
      (⟨1000, ⟨5000, 160, [⟨7, 0, 3, 5⟩, ⟨8, 0, 3, 5⟩, ⟨9, 1, 1, 5⟩, ⟨10, 0, 3, 5⟩, ⟨11, 0, 3, 5⟩, ⟨12, 1, 1, 5⟩, ⟨13, 0, 3, 5⟩], none⟩, [], none, []⟩) (7) (8) (Sample.gnss 0)) ∧
    ((fun (ma : BitVec 16) (s : State) =>
      s.gnssOn = true ∧
      100 < ma.toNat)
      (101) (Sample.gnss 1))) ∧
    (((fun (ma : BitVec 16) (s : State) =>
      s.gnssOn = true ∧
      ma.toNat ≤ 100)
      (100) (Sample.gnss 1)) ∧
    ((fun (ma : BitVec 16) (s : State) =>
      s.gnssOn = true ∧
      ma.toNat ≤ 100)
      (1) ((Sample.gnss 1).wr P.GNS_ANT_BIAS 0 1)) ∧
    ((fun (signal : Fin 5) (sat : BitVec 8) (elev : Fin 91) (bin : Int) (chip first second : Nat) (s : State) (c : GnssChannel) =>
      s.gnssOn = true ∧
      s.gnssDuty = false ∧
      s.rd P.GNS_ACQ_THRESH < first ∧
      s.rd P.GNS_ACQ_THRESH < second ∧
      500 * bin.natAbs ≤ s.rd P.GNS_ACQ_DOPPLER ∧
      (s.rd P.GNS_SIGNALS).testBit signal.val = true ∧
      c = ⟨signal.val, sat.toNat, elev.val, bin, chip, false⟩)
      (0) (7) (60) (5) (9) (100) (100) ((Sample.gnss 1).wr P.GNS_SIGNALS 0 31) (⟨0, 7, 60, 5, 9, false⟩)) ∧
    ((fun (signal : Fin 5) (sat : BitVec 8) (elev : Fin 91) (bin : Int) (chip first second : Nat) (s : State) (c : GnssChannel) =>
      s.gnssOn = true ∧
      s.gnssDuty = false ∧
      s.rd P.GNS_ACQ_THRESH < first ∧
      s.rd P.GNS_ACQ_THRESH < second ∧
      500 * bin.natAbs ≤ s.rd P.GNS_ACQ_DOPPLER ∧
      (s.rd P.GNS_SIGNALS).testBit signal.val = true ∧
      c = ⟨signal.val, sat.toNat, elev.val, bin, chip, false⟩)
      (0) (7) (0) (5) (9) (100) (100) ((Sample.gnss 1).wr P.GNS_SIGNALS 0 31) (⟨0, 7, 0, 5, 9, false⟩)) ∧
    ((fun (signal : Fin 5) (sat : BitVec 8) (elev : Fin 91) (bin : Int) (chip first second : Nat) (s : State) =>
      ((s.gnssOn = false ∨ s.gnssDuty = true ∨ first ≤ s.rd P.GNS_ACQ_THRESH ∨ second ≤ s.rd P.GNS_ACQ_THRESH ∨
      s.rd P.GNS_ACQ_DOPPLER < 500 * bin.natAbs ∨ (s.rd P.GNS_SIGNALS).testBit signal.val = false)))
      (0) (7) (60) (5) (9) (100) (0) ((Sample.gnss 1).wr P.GNS_SIGNALS 0 31)) ∧
    ((fun (signal : Fin 5) (sat : BitVec 8) (cn0 : BitVec 6) (s : State) =>
      s.gnssOn = true ∧
      s.gnssDuty = false ∧
      cn0.toNat < s.rd P.GNS_CN0_MIN)
      (0) (7) (0) ({ (Sample.gnss 1).wr P.GNS_CN0_MIN 0 30 with gnss := { State.reset.gnss with channels := [⟨0, 7, 60, 0, 0, false⟩, ⟨1, 7, 60, 0, 0, false⟩] } })) ∧
    ((fun (signal : Fin 5) (sat : BitVec 8) (cn0 : BitVec 6) (s : State) =>
      (s.gnssOn = false ∨ s.gnssDuty = true ∨
    s.rd P.GNS_CN0_MIN ≤ cn0.toNat))
      (0) (7) (60) (Sample.gnss 1)) ∧
    ((fun (message : Fin 5) (sat : BitVec 8) (ok l5 : Bool) (bits : BitVec 8) (time : BitVec 64) (data : List Byte) (s : State) =>
      s.gnssOn = true ∧
      s.gnssDuty = false ∧
      s.rd P.GNS_RING < 16)
      (0) (7) (true) (false) (50) (9) ([1, 2]) ((Sample.gnss 1).wr P.GNS_RING 0 3))) :=
  ⟨(by beta_reduce; and_intros <;> decide +kernel),
   (by beta_reduce; and_intros <;> decide +kernel)⟩

theorem test_meets_GnssSnapshotsComplete :
    ((fun (rq : Request) (s : State) (x : Session) =>
      s.taken Op.GNS_SNAPSHOT rq x ∧
      2 ≤ beAt 0 2 rq.payload ∧
      beAt 0 2 rq.payload ≤ 128 ∧
      1 ≤ beAt 2 1 rq.payload ∧
      beAt 2 1 rq.payload ≤ 3 ∧
      beAt 3 1 rq.payload ≤ 2 ∧
      s.gnssOn = true ∧
      s.gnss.capture = none ∧
      s.frozenMaster 13 = false)
      ((Sample.rq Op.GNS_SNAPSHOT [0, 128, 3, 2, 0, 0, 0, 0, 0, 0, 0, 0])) (Sample.gnss 1) (Sample.sess)) ∧
    ((fun (rq : Request) (s : State) (x : Session) (st : Nat) =>
      s.taken Op.GNS_SNAPSHOT rq x ∧
      ((((beAt 0 2 rq.payload < 2 ∨ 128 < beAt 0 2 rq.payload ∨ beAt 2 1 rq.payload = 0 ∨ 3 < beAt 2 1 rq.payload ∨
        2 < beAt 3 1 rq.payload) ∧ st = Status.BAD_VALUE) ∨
      (2 ≤ beAt 0 2 rq.payload ∧ beAt 0 2 rq.payload ≤ 128 ∧ 1 ≤ beAt 2 1 rq.payload ∧ beAt 2 1 rq.payload ≤ 3 ∧
        beAt 3 1 rq.payload ≤ 2 ∧ ((s.gnssOn = false ∧ st = Status.NOT_READY) ∨
          (s.gnssOn = true ∧ s.gnss.capture.isSome = true ∧ st = Status.IN_PROGRESS) ∨
          (s.gnssOn = true ∧ s.gnss.capture = none ∧ s.frozenMaster 13 = true ∧ st = Status.ABORTED))))))
      ((Sample.rq Op.GNS_SNAPSHOT [0, 129, 3, 2, 0, 0, 0, 0, 0, 0, 0, 0])) (Sample.gnss 1) (Sample.sess) (Status.BAD_VALUE)) ∧
    ((fun (rq : Request) (s : State) (x : Session) (st : Nat) =>
      s.taken Op.GNS_SNAPSHOT rq x ∧
      ((((beAt 0 2 rq.payload < 2 ∨ 128 < beAt 0 2 rq.payload ∨ beAt 2 1 rq.payload = 0 ∨ 3 < beAt 2 1 rq.payload ∨
        2 < beAt 3 1 rq.payload) ∧ st = Status.BAD_VALUE) ∨
      (2 ≤ beAt 0 2 rq.payload ∧ beAt 0 2 rq.payload ≤ 128 ∧ 1 ≤ beAt 2 1 rq.payload ∧ beAt 2 1 rq.payload ≤ 3 ∧
        beAt 3 1 rq.payload ≤ 2 ∧ ((s.gnssOn = false ∧ st = Status.NOT_READY) ∨
          (s.gnssOn = true ∧ s.gnss.capture.isSome = true ∧ st = Status.IN_PROGRESS) ∨
          (s.gnssOn = true ∧ s.gnss.capture = none ∧ s.frozenMaster 13 = true ∧ st = Status.ABORTED))))))
      ((Sample.rq Op.GNS_SNAPSHOT [0, 2, 1, 0, 0, 0, 0, 0, 0, 0, 0, 0])) ((Sample.state [])) (Sample.sess) (Status.NOT_READY)) ∧
    ((fun (rq : Request) (s : State) (x : Session) (st : Nat) =>
      s.taken Op.GNS_SNAPSHOT rq x ∧
      ((((beAt 0 2 rq.payload < 2 ∨ 128 < beAt 0 2 rq.payload ∨ beAt 2 1 rq.payload = 0 ∨ 3 < beAt 2 1 rq.payload ∨
        2 < beAt 3 1 rq.payload) ∧ st = Status.BAD_VALUE) ∨
      (2 ≤ beAt 0 2 rq.payload ∧ beAt 0 2 rq.payload ≤ 128 ∧ 1 ≤ beAt 2 1 rq.payload ∧ beAt 2 1 rq.payload ≤ 3 ∧
        beAt 3 1 rq.payload ≤ 2 ∧ ((s.gnssOn = false ∧ st = Status.NOT_READY) ∨
          (s.gnssOn = true ∧ s.gnss.capture.isSome = true ∧ st = Status.IN_PROGRESS) ∨
          (s.gnssOn = true ∧ s.gnss.capture = none ∧ s.frozenMaster 13 = true ∧ st = Status.ABORTED))))))
      ((Sample.rq Op.GNS_SNAPSHOT [0, 2, 1, 0, 0, 0, 0, 0, 0, 0, 0, 0])) ((Sample.gnss 1).wr P.SPD_FROZEN 0 0 |> fun t => { t with gnss := { t.gnss with capture := some (Sample.capture 0 1) } }) (Sample.sess) (Status.IN_PROGRESS)) ∧
    (((fun (l1 l5 : List Byte) (offset : Option Int) (sats : Fin 65) (s : State) (c : Capture) (shown : Nat) =>
      s.gnss.capture = some c ∧
      s.frozenMaster 13 = false ∧
      ((c.action = 1 ∨ (s.frozenMaster 3 = false ∧ s.linkUp = true))) ∧
      c.ms ≤ 128 ∧
      (s.sessionUid c.origin.uid).isSome = true ∧
      shown = (match (if c.action = 0 then none else offset) with | some d => raw 64 (clampS 64 d) | none => 2 ^ 63))
      ([1, 2]) ([3]) (some 55) (5) (Sample.capturing 0 1) (Sample.capture 0 1) (55)) ∧
    ((fun (l1 l5 : List Byte) (offset : Option Int) (sats : Fin 65) (s : State) (c : Capture) (shown : Nat) =>
      s.gnss.capture = some c ∧
      s.frozenMaster 13 = false ∧
      ((c.action = 1 ∨ (s.frozenMaster 3 = false ∧ s.linkUp = true))) ∧
      c.ms ≤ 128 ∧
      (s.sessionUid c.origin.uid).isSome = true ∧
      shown = (match (if c.action = 0 then none else offset) with | some d => raw 64 (clampS 64 d) | none => 2 ^ 63))
      ([1, 2]) ([3]) (some (-5)) (5) (Sample.capturing 0 1) (Sample.capture 0 1) (raw 64 (-5))) ∧
    ((fun (l1 l5 : List Byte) (offset : Option Int) (sats : Fin 65) (s : State) (c : Capture) (shown : Nat) =>
      s.gnss.capture = some c ∧
      s.frozenMaster 13 = false ∧
      ((c.action = 1 ∨ (s.frozenMaster 3 = false ∧ s.linkUp = true))) ∧
      c.ms ≤ 128 ∧
      (s.sessionUid c.origin.uid).isSome = true ∧
      shown = (match (if c.action = 0 then none else offset) with | some d => raw 64 (clampS 64 d) | none => 2 ^ 63))
      ([1, 2]) ([3]) (none) (5) (Sample.capturing 128 1) (Sample.capture 128 1) (2 ^ 63)) ∧
    ((fun (l1 l5 : List Byte) (offset : Option Int) (sats : Fin 65) (s : State) (c : Capture) =>
      s.gnss.capture = some c ∧
      ((s.frozenMaster 13 = true ∨ (c.action ≠ 1 ∧ (s.frozenMaster 3 = true ∨ s.linkUp = false)))) ∧
      (s.sessionUid c.origin.uid).isSome = true)
      ([1, 2]) ([3]) (some 55) (5) (Sample.capturing 2 0) (Sample.capture 2 0)) ∧
    ((fun (l1 l5 : List Byte) (offset : Option Int) (sats : Fin 65) (s : State) =>
      s.gnss.capture = none)
      ([]) ([]) (none) (0) ((Sample.state []))) ∧
    ((fun (l1 : List Byte) (offset : Option Int) (s : State) =>
      s.gnssOn = true ∧
      s.gnssDuty = true ∧
      s.frozenMaster 13 = false ∧
      s.gnss.dutyAt + 1000000000 * s.rd P.GNS_DUTY_PERIOD ≤ s.clock)
      ([1, 2]) (some 99999999999) ({ (Sample.gnss 1).wr P.PWR_SHUTTER_STATE 0 2 with clock := 999000000000000 })) ∧
    ((fun (l1 : List Byte) (offset : Option Int) (s : State) =>
      s.gnssOn = true ∧
      s.gnssDuty = true ∧
      s.frozenMaster 13 = false ∧
      s.gnss.dutyAt + 1000000000 * s.rd P.GNS_DUTY_PERIOD ≤ s.clock)
      ([]) (none) ({ (Sample.gnss 1).wr P.PWR_SHUTTER_STATE 0 2 with clock := 999000000000000 })) ∧
    ((fun (l1 : List Byte) (offset : Option Int) (s : State) =>
      ((s.gnssOn = false ∨ s.gnssDuty = false ∨ s.frozenMaster 13 = true ∨
      s.clock < s.gnss.dutyAt + 1000000000 * s.rd P.GNS_DUTY_PERIOD)))
      ([]) (none) ((Sample.state [])))) :=
  ⟨(⟨Sample.taken_of (by unfold State.reached; decide +kernel) (by decide +kernel) (by decide +kernel), by decide +kernel⟩),
   (⟨Sample.taken_of (by unfold State.reached; decide +kernel) (by decide +kernel) (by decide +kernel), by decide +kernel⟩),
   (⟨Sample.taken_of (by unfold State.reached; decide +kernel) (by decide +kernel) (by decide +kernel), by decide +kernel⟩),
   (⟨Sample.taken_of (by unfold State.reached; decide +kernel) (by decide +kernel) (by decide +kernel), by decide +kernel⟩),
   (by beta_reduce; and_intros <;> decide +kernel)⟩

theorem test_meets_EventInputsStampAndCount :
    ((fun (input : Fin 9) (rising : Bool) (tick : Nat) (code : Fin 513) (s : State) (ps : Int) =>
      s.evtTakes input.val rising = true ∧
      ((∀ c, (s.evtInput input.val).last = some c → c + 1250 ≤ s.clock)) ∧
      ps = s.evtTime input.val tick code.val)
      (2) (true) (5000) (3) (Sample.event) ((Sample.event).evtTime 2 5000 3)) ∧
    ((fun (input : Fin 9) (rising : Bool) (tick : Nat) (code : Fin 513) (s : State) (ps : Int) =>
      s.evtTakes input.val rising = true ∧
      ((∀ c, (s.evtInput input.val).last = some c → c + 1250 ≤ s.clock)) ∧
      ps = s.evtTime input.val tick code.val)
      (2) (true) (5000) (512) (Sample.event) ((Sample.event).evtTime 2 5000 512)) ∧
    (((fun (input : Fin 9) (rising : Bool) (tick : Nat) (code : Fin 513) (s : State) (c : Nat) =>
      s.evtTakes input.val rising = true ∧
      (s.evtInput input.val).last = some c ∧
      s.clock < c + 1250)
      (2) (true) (5000) (3) ((Sample.event).setEvt 2 fun x => { x with last := some 0 }) (0)) ∧
    ((fun (input : Fin 9) (rising : Bool) (tick : Nat) (code : Fin 513) (s : State) =>
      s.evtTakes input.val rising = false)
      (2) (false) (5000) (3) (Sample.event))) ∧
    ((fun (rq : Request) (s : State) (x : Session) (k : Nat) (a : EvtAcc) =>
      s.taken Op.EVT_STATS rq x ∧
      beAt 0 1 rq.payload = k ∧
      k ≤ 7 ∧
      a = (s.accSettle k).acc k)
      ((Sample.rq Op.EVT_STATS [3, 1, 0, 0])) (Sample.event) (Sample.sess) (3) (EvtAcc.blank 3)) ∧
    ((fun (rq : Request) (s : State) (x : Session) (k : Nat) (a : EvtAcc) =>
      s.taken Op.EVT_STATS rq x ∧
      beAt 0 1 rq.payload = k ∧
      k ≤ 7 ∧
      a = (s.accSettle k).acc k)
      ((Sample.rq Op.EVT_STATS [3, 0, 0, 0])) ((Sample.event).setAcc { EvtAcc.blank 3 with n := 4, sum := 9, sumSq := 50 }) (Sample.sess) (3) ({ EvtAcc.blank 3 with n := 4, sum := 9, sumSq := 50 })) ∧
    ((fun (rq : Request) (s : State) (x : Session) =>
      s.taken Op.EVT_STATS rq x ∧
      7 < beAt 0 1 rq.payload)
      ((Sample.rq Op.EVT_STATS [8, 0, 0, 0])) ((Sample.state [])) (Sample.sess)) ∧
    (((fun (input : Fin 9) (hits : List Nat) (oor : Nat) (rms : BitVec 16) (delay : BitVec 32) (s : State) (u total used : Nat)
      (h : List Nat) =>
      s.calUp = true ∧
      s.sharedUp = true ∧
      u = 2 * input.val + (1 - s.rd P.EVT_LIVE_UNIT input.val) ∧
      h = (hits ++ List.replicate 512 0).take 512 ∧
      total = h.foldl (· + ·) 0 ∧
      used = codesUsed h ∧
      total = 2 ^ s.rd P.EVT_CD_HITS ∧
      ((∀ k, k < used → h.getD k 0 ≠ 0)) ∧
      oor ≤ 2 ^ (s.rd P.EVT_CD_HITS - 13) ∧
      inlWorst total used h 0 0 0 ≤ s.rd P.EVT_INL_MAX * (total * used))
      (2) (List.replicate 64 1024) (8) (20) (30) ((Sample.state [((P.EVT_CD_HITS, 0), 16), ((P.PWR_DOMAIN_STATE, 11), 3), ((P.PWR_DOMAIN_STATE, 1), 3)])) (5) (65536) (64) (List.replicate 64 1024 ++ List.replicate 448 0)) ∧
    ((fun (input : Fin 9) (hits : List Nat) (oor : Nat) (rms : BitVec 16) (delay : BitVec 32) (s : State) =>
      s.calUp = true ∧
      s.sharedUp = true ∧
      (((hits ++ List.replicate 512 0).take 512).foldl (· + ·) 0 ≠ 2 ^ s.rd P.EVT_CD_HITS ∨ 2 ^ (s.rd P.EVT_CD_HITS - 13) < oor))
      (2) ([5]) (8) (20) (30) ((Sample.state [((P.EVT_CD_HITS, 0), 16), ((P.PWR_DOMAIN_STATE, 11), 3), ((P.PWR_DOMAIN_STATE, 2), 3)]))) ∧
    ((fun (input : Fin 9) (hits : List Nat) (oor : Nat) (rms : BitVec 16) (delay : BitVec 32) (s : State) =>
      (s.calUp = false ∨ s.sharedUp = false))
      (2) ([5]) (8) (20) (30) ((Sample.state [((P.EVT_CD_HITS, 0), 16)])))) ∧
    ((fun (input : Fin 9) (s : State) =>
      input.val ∈ s.cal.spare ∧
      ((∀ c, (s.evtInput input.val).seen = some c → c + 2000 ≤ s.clock)))
      (2) ({ (Sample.state []) with cal := { State.reset.cal with spare := [2], evtDelay := [(5, 77)] } })) ∧
    ((fun (input : Fin 9) (s : State) =>
      ((input.val ∉ s.cal.spare ∨ ∃ c, (s.evtInput input.val).seen = some c ∧ s.clock < c + 2000)))
      (2) ((Sample.state []))) :=
  ⟨(⟨by decide +kernel, by intro c h; have h2 : _ = true := congrArg Option.isSome h; exact absurd h2 (by decide +kernel), by decide +kernel⟩),
   (⟨by decide +kernel, by intro c h; have h2 : _ = true := congrArg Option.isSome h; exact absurd h2 (by decide +kernel), by decide +kernel⟩),
   (by beta_reduce; and_intros <;> decide +kernel),
   (⟨Sample.taken_of (by unfold State.reached; decide +kernel) (by decide +kernel) (by decide +kernel), by decide +kernel⟩),
   (⟨Sample.taken_of (by unfold State.reached; decide +kernel) (by decide +kernel) (by decide +kernel), by decide +kernel⟩),
   (⟨Sample.taken_of (by unfold State.reached; decide +kernel) (by decide +kernel) (by decide +kernel), by decide +kernel⟩),
   (by beta_reduce; and_intros <;> decide +kernel),
   (⟨by decide +kernel, by intro c h; have h2 : _ = true := congrArg Option.isSome h; exact absurd h2 (by decide +kernel)⟩),
   (by exact Or.inl (by decide +kernel))⟩

theorem test_meets_CalibrationRuns :
    ((fun (rq : Request) (s : State) (x : Session) (items : List CalItem) =>
      s.taken Op.CAL_RUN rq x ∧
      scopeLegal (beAt 0 1 rq.payload) (beAt 2 2 rq.payload) (beAt 4 2 rq.payload) = true ∧
      s.cal.run = none ∧
      s.frozenMaster 5 = false ∧
      s.calUp = true ∧
      beAt 0 1 rq.payload ≤ 4 ∧
      items = scopeItems (beAt 0 1 rq.payload) (beAt 2 2 rq.payload) (beAt 4 2 rq.payload))
      ((Sample.rq Op.CAL_RUN [3, 0, 0, 0, 0, 0, 0, 0])) ((Sample.state [((P.PWR_DOMAIN_STATE, 11), 3)])) (Sample.sess) (scopeItems 3 0 0)) ∧
    ((fun (rq : Request) (s : State) (x : Session) (items : List CalItem) =>
      s.taken Op.CAL_RUN rq x ∧
      scopeLegal (beAt 0 1 rq.payload) (beAt 2 2 rq.payload) (beAt 4 2 rq.payload) = true ∧
      s.cal.run = none ∧
      s.frozenMaster 5 = false ∧
      s.calUp = true ∧
      beAt 0 1 rq.payload ≤ 4 ∧
      items = scopeItems (beAt 0 1 rq.payload) (beAt 2 2 rq.payload) (beAt 4 2 rq.payload))
      ((Sample.rq Op.CAL_RUN [2, 0, 0, 5, 0, 2, 0, 0])) ((Sample.state [((P.LAN_STATE, 5), 5), ((P.PWR_DOMAIN_STATE, 11), 3)])) (Sample.sess) (scopeItems 2 5 2)) ∧
    ((fun (rq : Request) (s : State) (x : Session) =>
      s.taken Op.CAL_RUN rq x ∧
      beAt 0 1 rq.payload = 5 ∧
      beAt 2 2 rq.payload = 0 ∧
      beAt 4 2 rq.payload = 0 ∧
      s.cal.run = none ∧
      s.frozenMaster 5 = false ∧
      s.calUp = true ∧
      s.calInActive = true ∧
      s.rd P.CAL_REF_U ≠ 0xFFFFFFFF)
      ((Sample.rq Op.CAL_RUN [5, 0, 0, 0, 0, 0, 0, 0])) (((Sample.state [((P.CAL_REF_U, 0), 5), ((P.PWR_DOMAIN_STATE, 11), 3)])).setEvt 8 fun x => { x with last := some 0 }) (Sample.sess)) ∧
    ((fun (rq : Request) (s : State) (x : Session) (p : Nat) =>
      s.taken Op.CAL_RUN rq x ∧
      beAt 0 1 rq.payload = 6 ∧
      beAt 2 2 rq.payload = p ∧
      p < 512 ∧
      beAt 4 2 rq.payload = 1 ∧
      s.cal.run = none ∧
      s.frozenMaster 5 = false ∧
      s.calUp = true ∧
      s.linkCalReady p = true)
      ((Sample.rq Op.CAL_RUN [6, 0, 0, 16, 0, 1, 0, 0])) ((Sample.state [((P.LNK_ROLE, 16), 1), ((P.LNK_STATE, 16), 3), ((P.REF_TSTATE, 0), 2), ((P.REF_ACTIVE, 0), 3), ((P.REF_LINK_PORT, 0), 16), ((P.PWR_DOMAIN_STATE, 11), 3)])) (Sample.sess) (16)) ∧
    ((fun (rq : Request) (s : State) (x : Session) (st : Nat) =>
      s.taken Op.CAL_RUN rq x ∧
      (((scopeLegal (beAt 0 1 rq.payload) (beAt 2 2 rq.payload) (beAt 4 2 rq.payload) = false ∧ st = Status.BAD_VALUE) ∨
      (scopeLegal (beAt 0 1 rq.payload) (beAt 2 2 rq.payload) (beAt 4 2 rq.payload) = true ∧
        ((s.cal.run.isSome = true ∧ st = Status.IN_PROGRESS) ∨
          (s.cal.run = none ∧ s.frozenMaster 5 = true ∧ st = Status.ABORTED) ∨
          (s.cal.run = none ∧ s.frozenMaster 5 = false ∧ st = Status.NOT_READY ∧
            (s.calUp = false ∨ (beAt 0 1 rq.payload = 5 ∧ (s.calInActive = false ∨ s.rd P.CAL_REF_U = 0xFFFFFFFF)) ∨
              (beAt 0 1 rq.payload = 6 ∧ s.linkCalReady (beAt 2 2 rq.payload) = false))))))))
      ((Sample.rq Op.CAL_RUN [7, 0, 0, 0, 0, 0, 0, 0])) ((Sample.state [])) (Sample.sess) (Status.BAD_VALUE)) ∧
    ((fun (rq : Request) (s : State) (x : Session) (st : Nat) =>
      s.taken Op.CAL_RUN rq x ∧
      (((scopeLegal (beAt 0 1 rq.payload) (beAt 2 2 rq.payload) (beAt 4 2 rq.payload) = false ∧ st = Status.BAD_VALUE) ∨
      (scopeLegal (beAt 0 1 rq.payload) (beAt 2 2 rq.payload) (beAt 4 2 rq.payload) = true ∧
        ((s.cal.run.isSome = true ∧ st = Status.IN_PROGRESS) ∨
          (s.cal.run = none ∧ s.frozenMaster 5 = true ∧ st = Status.ABORTED) ∨
          (s.cal.run = none ∧ s.frozenMaster 5 = false ∧ st = Status.NOT_READY ∧
            (s.calUp = false ∨ (beAt 0 1 rq.payload = 5 ∧ (s.calInActive = false ∨ s.rd P.CAL_REF_U = 0xFFFFFFFF)) ∨
              (beAt 0 1 rq.payload = 6 ∧ s.linkCalReady (beAt 2 2 rq.payload) = false))))))))
      ((Sample.rq Op.CAL_RUN [5, 0, 0, 0, 0, 0, 0, 0])) ((Sample.state [((P.PWR_DOMAIN_STATE, 11), 3)])) (Sample.sess) (Status.NOT_READY)) ∧
    ((fun (rq : Request) (s : State) (x : Session) (st : Nat) =>
      s.taken Op.CAL_RUN rq x ∧
      (((scopeLegal (beAt 0 1 rq.payload) (beAt 2 2 rq.payload) (beAt 4 2 rq.payload) = false ∧ st = Status.BAD_VALUE) ∨
      (scopeLegal (beAt 0 1 rq.payload) (beAt 2 2 rq.payload) (beAt 4 2 rq.payload) = true ∧
        ((s.cal.run.isSome = true ∧ st = Status.IN_PROGRESS) ∨
          (s.cal.run = none ∧ s.frozenMaster 5 = true ∧ st = Status.ABORTED) ∨
          (s.cal.run = none ∧ s.frozenMaster 5 = false ∧ st = Status.NOT_READY ∧
            (s.calUp = false ∨ (beAt 0 1 rq.payload = 5 ∧ (s.calInActive = false ∨ s.rd P.CAL_REF_U = 0xFFFFFFFF)) ∨
              (beAt 0 1 rq.payload = 6 ∧ s.linkCalReady (beAt 2 2 rq.payload) = false))))))))
      ((Sample.rq Op.CAL_RUN [3, 0, 0, 0, 0, 0, 0, 0])) ((Sample.state [((P.SPD_FROZEN, 0), 32)])) (Sample.sess) (Status.ABORTED)) ∧
    ((fun (rq : Request) (s : State) (x : Session) (st : Nat) =>
      s.taken Op.CAL_RUN rq x ∧
      (((scopeLegal (beAt 0 1 rq.payload) (beAt 2 2 rq.payload) (beAt 4 2 rq.payload) = false ∧ st = Status.BAD_VALUE) ∨
      (scopeLegal (beAt 0 1 rq.payload) (beAt 2 2 rq.payload) (beAt 4 2 rq.payload) = true ∧
        ((s.cal.run.isSome = true ∧ st = Status.IN_PROGRESS) ∨
          (s.cal.run = none ∧ s.frozenMaster 5 = true ∧ st = Status.ABORTED) ∨
          (s.cal.run = none ∧ s.frozenMaster 5 = false ∧ st = Status.NOT_READY ∧
            (s.calUp = false ∨ (beAt 0 1 rq.payload = 5 ∧ (s.calInActive = false ∨ s.rd P.CAL_REF_U = 0xFFFFFFFF)) ∨
              (beAt 0 1 rq.payload = 6 ∧ s.linkCalReady (beAt 2 2 rq.payload) = false))))))))
      ((Sample.rq Op.CAL_RUN [3, 0, 0, 0, 0, 0, 0, 0])) ((Sample.state [])) (Sample.sess) (Status.NOT_READY)) ∧
    ((fun (l : Fin 512) (m : CalMeasure) (s : State) (r : CalRun) (v : Nat) =>
      s.cal.run = some r ∧
      (⟨0, l.val⟩ : CalItem) ∈ r.todo ∧
      s.calUp = true ∧
      m.moved = false ∧
      m.ok = true ∧
      v = (if s.flash.certValid = false then s.rd P.TBS_FREE_Q else max (clampU 16 ((Config.legU 0 l.val 0).toNat + threeSigma (m.sigmas.getD 0 0) (s.rd P.CAL_N) + 1))
      (clampU 16 ((Config.legU 0 l.val 1).toNat + threeSigma (m.sigmas.getD 1 0) (s.rd P.CAL_N) + 1))))
      (5) (⟨true, false, 250, [7, 8, 9], [10, 20], 3, 4, [1, 2, 3], [100, 200]⟩) (Sample.calibrating 2 [⟨0, 5⟩]) (Sample.calRun 2 [⟨0, 5⟩]) (max (clampU 16 ((Config.legU 0 5 0).toNat + threeSigma 10 ((Sample.calibrating 2 [⟨0, 5⟩]).rd P.CAL_N) + 1)) (clampU 16 ((Config.legU 0 5 1).toNat + threeSigma 20 ((Sample.calibrating 2 [⟨0, 5⟩]).rd P.CAL_N) + 1)))) ∧
    ((fun (kind : Fin 5) (index : Fin 512) (m : CalMeasure) (s : State) (r : CalRun) =>
      s.cal.run = some r ∧
      (⟨kind.val, index.val⟩ : CalItem) ∈ r.todo ∧
      s.calUp = true ∧
      m.moved = false ∧
      m.ok = false)
      (2) (5) (⟨false, false, 250, [7, 8, 9], [10, 20], 3, 4, [1, 2, 3], [100, 200]⟩) (Sample.calibrating 3 [⟨2, 5⟩]) (Sample.calRun 3 [⟨2, 5⟩])) ∧
    ((fun (kind : Fin 5) (index : Fin 512) (m : CalMeasure) (s : State) (i : CalItem) =>
      i = ⟨kind.val, index.val⟩ ∧
      ((i ∈ s.cal.doing ∨ i ∈ s.cal.startup ∨ ∃ r, s.cal.run = some r ∧ i ∈ r.todo)) ∧
      s.calUp = true ∧
      m.moved = false ∧
      m.ok = true)
      (2) (5) (⟨true, false, 250, [7, 8, 9], [10, 20], 3, 4, [1, 2, 3], [100, 200]⟩) (Sample.calibrating 3 [⟨2, 5⟩]) (⟨2, 5⟩)) ∧
    ((fun (kind : Fin 5) (index : Fin 512) (m : CalMeasure) (s : State) (i : CalItem) =>
      i = ⟨kind.val, index.val⟩ ∧
      ((i ∈ s.cal.doing ∨ i ∈ s.cal.startup ∨ ∃ r, s.cal.run = some r ∧ i ∈ r.todo)) ∧
      s.calUp = true ∧
      m.moved = false ∧
      m.ok = true)
      (0) (5) (⟨true, false, 250, [7, 8, 9], [10, 20], 3, 4, [1, 2, 3], [100, 200]⟩) ((let s := Sample.calibrating 3 []; { s with cal := { s.cal with run := none, doing := [⟨0, 5⟩] } })) (⟨0, 5⟩)) ∧
    ((fun (kind : Fin 5) (index : Fin 512) (m : CalMeasure) (s : State) (i : CalItem) =>
      i = ⟨kind.val, index.val⟩ ∧
      ((i ∈ s.cal.doing ∨ i ∈ s.cal.startup ∨ ∃ r, s.cal.run = some r ∧ i ∈ r.todo)) ∧
      s.calUp = true ∧
      m.moved = false ∧
      m.ok = true)
      (3) (5) (⟨true, false, 250, [7, 8, 9], [10, 20], 3, 4, [1, 2, 3], [100, 200]⟩) ((let s := Sample.calibrating 3 []; { s with cal := { s.cal with run := none, startup := [⟨3, 5⟩] } })) (⟨3, 5⟩)) ∧
    ((fun (kind : Fin 5) (index : Fin 512) (m : CalMeasure) (s : State) (i : CalItem) =>
      i = ⟨kind.val, index.val⟩ ∧
      ((i ∈ s.cal.doing ∨ i ∈ s.cal.startup ∨ ∃ r, s.cal.run = some r ∧ i ∈ r.todo)) ∧
      s.calUp = true ∧
      m.moved = false ∧
      m.ok = true)
      (4) (0) (⟨true, false, 250, [7, 8, 9, 11], [10, 20], 3, 4, [1, 2, 3], [100, 200]⟩) ((let s := Sample.calibrating 3 []; { s with cal := { s.cal with run := none, startup := [⟨4, 0⟩] } })) (⟨4, 0⟩)) ∧
    (((fun (kind : Fin 5) (index : Fin 512) (m : CalMeasure) (s : State) =>
      ((m.moved = true ∨ s.calUp = false ∨
      ((⟨kind.val, index.val⟩ : CalItem) ∉ s.cal.doing ∧ (⟨kind.val, index.val⟩ : CalItem) ∉ s.cal.startup ∧ s.cal.run = none))))
      (2) (5) (⟨true, true, 250, [7, 8, 9], [10, 20], 3, 4, [1, 2, 3], [100, 200]⟩) (Sample.calibrating 3 [⟨2, 5⟩])) ∧
    ((fun (freq : Int) (s : State) (r : CalRun) =>
      s.cal.run = some r ∧
      r.scope < 5 ∧
      r.todo = [] ∧
      (s.sessionUid r.origin.uid).isSome = true)
      (0) (Sample.calibrating 3 []) (Sample.calRun 3 [])) ∧
    ((fun (freq : Int) (s : State) (r : CalRun) (u : Nat) =>
      s.cal.run = some r ∧
      r.scope = 5 ∧
      s.rd P.CAL_TRACE_N ≤ r.samples.length ∧
      (s.sessionUid r.origin.uid).isSome = true ∧
      u = clampU 32 (s.rd P.CAL_REF_U + s.rd P.EVT_RES 8 + spreadOf r.samples))
      (44) ((Sample.calibrating 5 []).wr P.CAL_TRACE_N 0 0) (Sample.calRun 5 []) (clampU 32 (((Sample.calibrating 5 []).wr P.CAL_TRACE_N 0 0).rd P.CAL_REF_U + ((Sample.calibrating 5 []).wr P.CAL_TRACE_N 0 0).rd P.EVT_RES 8))) ∧
    ((fun (freq : Int) (s : State) (r : CalRun) (l : LinkRun) (pairs : List Int) (a : Int) =>
      s.cal.run = some r ∧
      r.scope = 6 ∧
      s.linkRun = some l ∧
      pairs = (pulsePairs l.own l.theirs).take l.count ∧
      l.count ≤ pairs.length ∧
      a = s.rdS 32 P.LNK_ASYM l.port - 2 * (meanOf pairs - (s.rdS 32 P.LNK_ACAL_PATH - l.path)))
      (0) ({ Sample.calibrating 6 [] with linkRun := some ⟨16, 0, 2, [0, 65536000000000], [65536000, 65536000000000 + 131072000], 30, 4⟩ }) (Sample.calRun 6 []) (⟨16, 0, 2, [0, 65536000000000], [65536000, 65536000000000 + 131072000], 30, 4⟩) ([-1000000, -2000000]) (2999940))) ∧
    ((fun (freq : Int) (s : State) =>
      ((s.cal.run = none ∨ (∃ r, s.cal.run = some r ∧ ((r.scope < 5 ∧ r.todo ≠ []) ∨
      (r.scope = 5 ∧ r.samples.length < s.rd P.CAL_TRACE_N) ∨ (r.scope = 6 ∧ (s.linkRun = none ∨
        ∃ l, s.linkRun = some l ∧ (pulsePairs l.own l.theirs).length < l.count)))))))
      (0) ((Sample.state []))) ∧
    (((fun (kind : Fin 5) (index : Fin 512) (temp : Int) (s : State) (i : CalItem) (c : Int) =>
      i = ⟨kind.val, index.val⟩ ∧
      getItem i s.cal.tcal = some c ∧
      s.rdb P.CAL_AUTO_ENABLE = true ∧
      ((s.rd P.CAL_TEMP_DELTA < (temp - c).natAbs ∨ (kind.val = 0 ∧
      s.rd P.CAL_TEMP_DELTA < apart (some (s.switchDie index.val)) (getItem i s.cal.tcalDie)))) ∧
      i ∉ s.cal.triggered ∧
      i ∉ s.cal.waiting ∧
      i ∉ s.cal.doing ∧
      ((kind.val = 0 → 5 ≤ s.laneState index.val)) ∧
      s.cal.run.isSome = true)
      (2) (5) (900) ((let s := (Sample.calibrating 3 [⟨2, 4⟩]).wr P.CAL_AUTO_ENABLE 0 1; { s with cal := { s.cal with tcal := [(⟨2, 5⟩, 300)] } })) (⟨2, 5⟩) (300)) ∧
    ((fun (kind : Fin 5) (index : Fin 512) (temp : Int) (s : State) (i : CalItem) (c : Int) =>
      i = ⟨kind.val, index.val⟩ ∧
      getItem i s.cal.tcal = some c ∧
      s.rdb P.CAL_AUTO_ENABLE = true ∧
      ((s.rd P.CAL_TEMP_DELTA < (temp - c).natAbs ∨ (kind.val = 0 ∧
      s.rd P.CAL_TEMP_DELTA < apart (some (s.switchDie index.val)) (getItem i s.cal.tcalDie)))) ∧
      i ∉ s.cal.triggered ∧
      i ∉ s.cal.waiting ∧
      i ∉ s.cal.doing ∧
      ((kind.val = 0 → 5 ≤ s.laneState index.val)) ∧
      s.cal.run.isSome = true)
      (0) (5) (300) ((let s := ((Sample.calibrating 3 [⟨2, 4⟩]).wr P.CAL_AUTO_ENABLE 0 1).wr P.LAN_STATE 5 5; { s with cal := { s.cal with tcal := [(⟨0, 5⟩, 300)], tcalDie := [(⟨0, 5⟩, 900)] } })) (⟨0, 5⟩) (300)) ∧
    ((fun (kind : Fin 5) (index : Fin 512) (temp : Int) (s : State) (i : CalItem) (c : Int) =>
      i = ⟨kind.val, index.val⟩ ∧
      getItem i s.cal.tcal = some c ∧
      ((s.rdb P.CAL_AUTO_ENABLE = false ∨ ((temp - c).natAbs ≤ s.rd P.CAL_TEMP_DELTA ∧ (kind.val = 0 →
      apart (some (s.switchDie index.val)) (getItem i s.cal.tcalDie) ≤ s.rd P.CAL_TEMP_DELTA)))))
      (2) (5) (300) ((let s := (Sample.calibrating 3 [⟨2, 4⟩]).wr P.CAL_AUTO_ENABLE 0 1; { s with cal := { s.cal with tcal := [(⟨2, 5⟩, 300)] } })) (⟨2, 5⟩) (300)) ∧
    ((fun (kind : Fin 5) (index : Fin 512) (temp : Int) (s : State) (i : CalItem) (c : Int) =>
      i = ⟨kind.val, index.val⟩ ∧
      getItem i s.cal.tcal = some c ∧
      ((i ∈ s.cal.triggered ∨ i ∈ s.cal.waiting ∨ i ∈ s.cal.doing ∨ (kind.val = 0 ∧ s.laneState index.val < 5))))
      (0) (5) (900) ((let s := (Sample.calibrating 3 [⟨2, 4⟩]).wr P.CAL_AUTO_ENABLE 0 1; { s with cal := { s.cal with tcal := [(⟨0, 5⟩, 300)] } })) (⟨0, 5⟩) (300)) ∧
    ((fun (kind : Fin 5) (index : Fin 512) (temp : Int) (s : State) (i : CalItem) (c : Int) =>
      i = ⟨kind.val, index.val⟩ ∧
      getItem i s.cal.tcal = some c ∧
      ((i ∈ s.cal.triggered ∨ i ∈ s.cal.waiting ∨ i ∈ s.cal.doing ∨ (kind.val = 0 ∧ s.laneState index.val < 5))))
      (2) (5) (900) ((let s := (Sample.calibrating 3 [⟨2, 4⟩]).wr P.CAL_AUTO_ENABLE 0 1; { s with cal := { s.cal with tcal := [(⟨2, 5⟩, 300)], triggered := [⟨2, 5⟩] } })) (⟨2, 5⟩) (300)) ∧
    ((fun (kind : Fin 5) (index : Fin 512) (temp : Int) (s : State) (i : CalItem) (c : Int) =>
      i = ⟨kind.val, index.val⟩ ∧
      getItem i s.cal.tcal = some c ∧
      s.rdb P.CAL_AUTO_ENABLE = true ∧
      s.rd P.CAL_TEMP_DELTA < (temp - c).natAbs ∧
      ((kind.val = 0 → 5 ≤ s.laneState index.val)) ∧
      s.cal.run = none ∧
      s.cal.triggered = [] ∧
      s.cal.waiting = [] ∧
      s.cal.doing = [] ∧
      ((kind.val = 0 → 0 < s.rd P.CAL_AUTO_LANES)))
      (2) (5) (900) ((let s := (Sample.calibrating 3 []).wr P.CAL_AUTO_ENABLE 0 1; { s with cal := { s.cal with run := none, tcal := [(⟨2, 5⟩, 300)] } })) (⟨2, 5⟩) (300)) ∧
    ((fun (kind : Fin 5) (index : Fin 512) (temp : Int) (s : State) (i : CalItem) (c : Int) =>
      i = ⟨kind.val, index.val⟩ ∧
      getItem i s.cal.tcal = some c ∧
      s.rdb P.CAL_AUTO_ENABLE = true ∧
      s.rd P.CAL_TEMP_DELTA < (temp - c).natAbs ∧
      ((kind.val = 0 → 5 ≤ s.laneState index.val)) ∧
      s.cal.run = none ∧
      s.cal.triggered = [] ∧
      s.cal.waiting = [] ∧
      s.cal.doing = [] ∧
      ((kind.val = 0 → 0 < s.rd P.CAL_AUTO_LANES)))
      (0) (5) (900) ((let s := ((Sample.calibrating 3 []).wr P.CAL_AUTO_ENABLE 0 1).wr P.LAN_STATE 5 5; { s with cal := { s.cal with run := none, tcal := [(⟨0, 5⟩, 300)] } })) (⟨0, 5⟩) (300)) ∧
    ((fun (kind : Fin 5) (index : Fin 512) (temp : Int) (s : State) =>
      getItem ⟨kind.val, index.val⟩ s.cal.tcal = none)
      (2) (5) (300) (Sample.calibrating 3 [⟨2, 4⟩]))) :=
  ⟨(⟨Sample.taken_of (by unfold State.reached; decide +kernel) (by decide +kernel) (by decide +kernel), by decide +kernel⟩),
   (⟨Sample.taken_of (by unfold State.reached; decide +kernel) (by decide +kernel) (by decide +kernel), by decide +kernel⟩),
   (⟨Sample.taken_of (by unfold State.reached; decide +kernel) (by decide +kernel) (by decide +kernel), by decide +kernel⟩),
   (⟨Sample.taken_of (by unfold State.reached; decide +kernel) (by decide +kernel) (by decide +kernel), by decide +kernel⟩),
   (⟨Sample.taken_of (by unfold State.reached; decide +kernel) (by decide +kernel) (by decide +kernel), by decide +kernel⟩),
   (⟨Sample.taken_of (by unfold State.reached; decide +kernel) (by decide +kernel) (by decide +kernel), by decide +kernel⟩),
   (⟨Sample.taken_of (by unfold State.reached; decide +kernel) (by decide +kernel) (by decide +kernel), by decide +kernel⟩),
   (⟨Sample.taken_of (by unfold State.reached; decide +kernel) (by decide +kernel) (by decide +kernel), by decide +kernel⟩),
   (⟨by decide +kernel, by decide +kernel, by decide +kernel, by decide +kernel, by decide +kernel, by rfl⟩),
   (by beta_reduce; and_intros <;> decide +kernel),
   (⟨by decide +kernel, by exact Or.inr (Or.inr ⟨_, rfl, by decide +kernel⟩), by decide +kernel⟩),
   (⟨by decide +kernel, by exact Or.inl (by decide +kernel), by decide +kernel⟩),
   (⟨by decide +kernel, by exact Or.inr (Or.inl (by decide +kernel)), by decide +kernel⟩),
   (⟨by decide +kernel, by exact Or.inr (Or.inl (by decide +kernel)), by decide +kernel⟩),
   (by beta_reduce; and_intros <;> decide +kernel),
   (by exact Or.inl (by decide +kernel)),
   (by beta_reduce; and_intros <;> decide +kernel)⟩

theorem test_meets_TapsAndTrimsMoveOneStep :
    (((fun (lane : Fin 512) (now : BitVec 32) (frac : Fin 100) (s : State) (target : Nat) =>
      (s.cal.target.find? fun x => x.1 == lane.val) = some (lane.val, target) ∧
      look lane.val 0 s.cal.tapAt ≤ s.clock ∧
      s.laneState lane.val = 5 ∧
      s.calUp = true ∧
      dtxPs now frac ≠ target ∧
      ((target < dtxPs now frac → s.rd P.CAL_TXFD lane.val ≠ 0)) ∧
      ((dtxPs now frac < target → s.rd P.CAL_TXFD lane.val ≠ 511)))
      (5) (900) (99) ({ (Sample.state [((P.LAN_STATE, 5), 5), ((P.CAL_TXFD, 5), 7), ((P.PWR_DOMAIN_STATE, 11), 3)]) with cal := { State.reset.cal with target := [(5, 880)], taps := [(5, [0, 100, 200, 300, 400, 500, 600, 700, 800])] } }) (880)) ∧
    ((fun (lane : Fin 512) (now : BitVec 32) (frac : Fin 100) (s : State) (target : Nat) =>
      (s.cal.target.find? fun x => x.1 == lane.val) = some (lane.val, target) ∧
      look lane.val 0 s.cal.tapAt ≤ s.clock ∧
      s.laneState lane.val = 5 ∧
      s.calUp = true ∧
      dtxPs now frac ≠ target ∧
      ((target < dtxPs now frac → s.rd P.CAL_TXFD lane.val ≠ 0)) ∧
      ((dtxPs now frac < target → s.rd P.CAL_TXFD lane.val ≠ 511)))
      (5) (870) (20) ({ (Sample.state [((P.LAN_STATE, 5), 5), ((P.CAL_TXFD, 5), 0), ((P.PWR_DOMAIN_STATE, 11), 3)]) with cal := { State.reset.cal with target := [(5, 880)], taps := [(5, [0, 100, 200, 300, 400, 500, 600, 700, 800])] } }) (880)) ∧
    ((fun (lane : Fin 512) (now : BitVec 32) (frac : Fin 100) (s : State) (target : Nat) =>
      (s.cal.target.find? fun x => x.1 == lane.val) = some (lane.val, target) ∧
      look lane.val 0 s.cal.tapAt ≤ s.clock ∧
      s.laneState lane.val = 5 ∧
      s.calUp = true ∧
      (((target < dtxPs now frac ∧ s.rd P.CAL_TXFD lane.val = 0) ∨
      (dtxPs now frac < target ∧ s.rd P.CAL_TXFD lane.val = 511))))
      (5) (900) (0) ({ (Sample.state [((P.LAN_STATE, 5), 5), ((P.CAL_TXFD, 5), 0), ((P.PWR_DOMAIN_STATE, 11), 3)]) with cal := { State.reset.cal with target := [(5, 880)], taps := [(5, [0, 100, 200, 300, 400, 500, 600, 700, 800])] } }) (880)) ∧
    ((fun (lane : Fin 512) (now : BitVec 32) (frac : Fin 100) (s : State) (target : Nat) =>
      (s.cal.target.find? fun x => x.1 == lane.val) = some (lane.val, target) ∧
      look lane.val 0 s.cal.tapAt ≤ s.clock ∧
      s.laneState lane.val = 5 ∧
      s.calUp = true ∧
      (((target < dtxPs now frac ∧ s.rd P.CAL_TXFD lane.val = 0) ∨
      (dtxPs now frac < target ∧ s.rd P.CAL_TXFD lane.val = 511))))
      (5) (800) (51) ({ (Sample.state [((P.LAN_STATE, 5), 5), ((P.CAL_TXFD, 5), 511), ((P.PWR_DOMAIN_STATE, 11), 3)]) with cal := { State.reset.cal with target := [(5, 880)], taps := [(5, [0, 100, 200, 300, 400, 500, 600, 700, 800])] } }) (880)) ∧
    ((fun (lane : Fin 512) (now : BitVec 32) (frac : Fin 100) (s : State) =>
      (((s.cal.target.find? fun x => x.1 == lane.val) = none ∨
      (s.cal.target.find? fun x => x.1 == lane.val) = some (lane.val, dtxPs now frac) ∨ s.clock < look lane.val 0 s.cal.tapAt ∨ s.laneState lane.val ≠ 5 ∨ s.calUp = false)))
      (5) (900) (0) ((Sample.state []))) ∧
    ((fun (lane : Fin 512) (now : BitVec 32) (frac : Fin 100) (s : State) =>
      (((s.cal.target.find? fun x => x.1 == lane.val) = none ∨
      (s.cal.target.find? fun x => x.1 == lane.val) = some (lane.val, dtxPs now frac) ∨ s.clock < look lane.val 0 s.cal.tapAt ∨ s.laneState lane.val ≠ 5 ∨ s.calUp = false)))
      (5) (880) (49) ({ (Sample.state [((P.LAN_STATE, 5), 5), ((P.PWR_DOMAIN_STATE, 11), 3)]) with cal := { State.reset.cal with target := [(5, 880)] } })) ∧
    ((fun (output : Fin 8) (err : Int) (s : State) =>
      look output.val 0 s.cal.trimAt ≤ s.clock ∧
      3 ≤ err.natAbs ∧
      s.calUp = true)
      (2) (9) ((Sample.state [((P.CAL_OUT_TRIM, 2), 7), ((P.PWR_DOMAIN_STATE, 11), 3)]))) ∧
    ((fun (output : Fin 8) (err : Int) (s : State) =>
      look output.val 0 s.cal.trimAt ≤ s.clock ∧
      3 ≤ err.natAbs ∧
      s.calUp = true)
      (2) (-9) ((Sample.state [((P.CAL_OUT_TRIM, 2), 255), ((P.PWR_DOMAIN_STATE, 11), 3)])))) ∧
    (((fun (output : Fin 8) (err : Int) (s : State) =>
      look output.val 0 s.cal.trimAt ≤ s.clock ∧
      3 ≤ err.natAbs ∧
      s.calUp = true)
      (2) (-9) ((Sample.state [((P.CAL_OUT_TRIM, 2), 7), ((P.PWR_DOMAIN_STATE, 11), 3)]))) ∧
    ((fun (output : Fin 8) (err : Int) (s : State) =>
      ((s.clock < look output.val 0 s.cal.trimAt ∨ err.natAbs < 3 ∨ s.calUp = false)))
      (2) (2) ((Sample.state [])))) :=
  ⟨(by beta_reduce; and_intros <;> decide +kernel),
   (by beta_reduce; and_intros <;> decide +kernel)⟩

theorem test_meets_LanesComeUpAndFallBack :
    (((fun (lane : Fin 512) (ppb : Int) (ctle : Fin 49) (s : State) =>
      s.laneState lane.val = 2 ∧
      ppb.natAbs ≤ 200000)
      (5) (-200000) (7) ((Sample.state [((P.LAN_STATE, 5), 2)]))) ∧
    ((fun (lane : Fin 512) (ppb : Int) (ctle : Fin 49) (s : State) =>
      s.laneState lane.val = 2 ∧
      ppb.natAbs ≤ 200000)
      (5) (7) (7) ({ (Sample.state [((P.LAN_STATE, 5), 2), ((P.PRT_LANES, 4), 4)]) with optics := { State.reset.optics with lanes := [⟨6, none, 0, 0, 0, true, 0⟩] } })) ∧
    ((fun (lane : Fin 512) (ppb : Int) (ctle : Fin 49) (s : State) =>
      s.laneState lane.val = 2 ∧
      200000 < ppb.natAbs)
      (5) (200001) (7) ((Sample.state [((P.LAN_STATE, 5), 2), ((P.PRT_LANES, 4), 4)]))) ∧
    ((fun (lane : Fin 512) (s : State) =>
      3 ≤ s.laneState lane.val)
      (5) ((Sample.state [((P.LAN_STATE, 5), 5), ((P.PRT_LANES, 5), 1), ((P.PRT_LINK_UP, 5), 1)]))) ∧
    ((fun (lane : Fin 512) (g : Fin 66) (found : Fin 64) (s : State) =>
      s.laneState lane.val = 3)
      (5) (9) (3) ((Sample.state [((P.LAN_STATE, 5), 3), ((P.LAN_ALIGN, 1), 2)]))) ∧
    ((fun (lane : Fin 512) (g : Fin 66) (found : Fin 64) (s : State) (e : Nat) =>
      s.laneState lane.val = 6 ∧
      (s.laneRec lane.val).realignBy = some e ∧
      s.clock < e)
      (5) (9) (3) ({ (Sample.state [((P.LAN_STATE, 5), 6)]) with optics := { State.reset.optics with lanes := [⟨5, some 9, 1, 2, 0, false, 0⟩] } }) (9)) ∧
    ((fun (lane : Fin 512) (s : State) =>
      s.laneState lane.val = 5)
      (5) ((Sample.state [((P.LAN_STATE, 5), 5), ((P.LAN_S, 5), 3), ((P.LAN_G, 5), 4)]))) ∧
    ((fun (lane : Fin 512) (s : State) =>
      s.laneState lane.val = 4)
      (5) ((Sample.state [((P.LAN_STATE, 5), 4)])))) ∧
    ((fun (lane : Fin 512) (s : State) (e : Nat) =>
      s.laneState lane.val = 6 ∧
      (s.laneRec lane.val).realignBy = some e ∧
      e ≤ s.clock)
      (5) ({ (Sample.state [((P.LAN_STATE, 5), 6), ((P.PRT_LINK_UP, 5), 1)]) with optics := { State.reset.optics with lanes := [⟨5, some 0, 1, 2, 0, false, 0⟩] } }) (0)) ∧
    ((fun (lane : Fin 512) (s : State) =>
      (s.laneState lane.val = 3 ∨ s.laneState lane.val = 6) ∧
      s.rd P.LAN_ALIGN (lane.val / 4) = 0)
      (5) ((Sample.state [((P.LAN_STATE, 5), 6), ((P.LAN_S, 5), 63), ((P.LAN_ALIGN, 1), 0)]))) ∧
    (((fun (lane : Fin 512) (m : CalMeasure) (s : State) =>
      s.laneState lane.val = 4 ∧
      s.calUp = true ∧
      m.moved = false ∧
      m.ok = true)
      (5) (⟨true, false, 250, [7, 8, 9], [10, 20], 3, 4, [1, 2, 3], [100, 200]⟩) ((Sample.state [((P.LAN_STATE, 5), 4), ((P.PWR_DOMAIN_STATE, 11), 3)]))) ∧
    ((fun (lane : Fin 512) (m : CalMeasure) (s : State) =>
      s.laneState lane.val = 4 ∧
      s.calUp = true ∧
      m.moved = false ∧
      m.ok = false)
      (5) (⟨false, false, 250, [7, 8, 9], [10, 20], 3, 4, [1, 2, 3], [100, 200]⟩) ((Sample.state [((P.LAN_STATE, 5), 4), ((P.PWR_DOMAIN_STATE, 11), 3)]))) ∧
    ((fun (lane : Fin 512) (up : Bool) (s : State) =>
      s.laneState lane.val = 5 ∧
      s.rdb P.LAN_CTLE_MODE lane.val = false ∧
      s.laneItem lane.val = false ∧
      (s.laneRec lane.val).ctleAt ≤ s.clock)
      (5) (true) ((Sample.state [((P.LAN_STATE, 5), 5), ((P.LAN_CTLE_MODE, 5), 0), ((P.LAN_CTLE, 5), 48)]))) ∧
    ((fun (lane : Fin 512) (up : Bool) (s : State) =>
      s.laneState lane.val = 5 ∧
      s.rdb P.LAN_CTLE_MODE lane.val = false ∧
      s.laneItem lane.val = false ∧
      (s.laneRec lane.val).ctleAt ≤ s.clock)
      (5) (false) ((Sample.state [((P.LAN_STATE, 5), 5), ((P.LAN_CTLE_MODE, 5), 0), ((P.LAN_CTLE, 5), 40)]))) ∧
    ((fun (lane : Fin 512) (k : Fin 3) (up : Bool) (s : State) =>
      s.rdb P.LAN_SLICER_AUTO lane.val = true ∧
      ((s.rd P.LAN_RATE (lane.val / 4) ≤ 2 ∨ k.val = 1)))
      (5) (1) (true) ((Sample.state [((P.LAN_SLICER_AUTO, 5), 1), ((P.LAN_SLICER, 16), 63)])))) ∧
    ((fun (rq : Request) (s : State) (x : Session) (l n : Nat) =>
      s.taken Op.LAN_SLIP rq x ∧
      beAt 0 2 rq.payload = l ∧
      beAt 2 1 rq.payload = n ∧
      l ≤ 511 ∧
      1 ≤ n ∧
      n ≤ 63 ∧
      ((s.laneState l = 3 ∨ s.laneState l = 6)) ∧
      s.rd P.LAN_ALIGN (l / 4) = 1)
      ((Sample.rq Op.LAN_SLIP [0, 5, 63, 0])) ((Sample.state [((P.LAN_STATE, 5), 3), ((P.LAN_ALIGN, 1), 1), ((P.LAN_S, 5), 3)])) (Sample.sess) (5) (63)) ∧
    ((fun (rq : Request) (s : State) (x : Session) (l n st : Nat) =>
      s.taken Op.LAN_SLIP rq x ∧
      beAt 0 2 rq.payload = l ∧
      beAt 2 1 rq.payload = n ∧
      ((((511 < l ∨ n = 0 ∨ 63 < n) ∧ st = Status.BAD_VALUE) ∨
      (l ≤ 511 ∧ 1 ≤ n ∧ n ≤ 63 ∧ ((s.laneState l ≠ 3 ∧ s.laneState l ≠ 6) ∨ s.rd P.LAN_ALIGN (l / 4) ≠ 1) ∧
        st = Status.NOT_READY))))
      ((Sample.rq Op.LAN_SLIP [0, 5, 64, 0])) ((Sample.state [((P.LAN_STATE, 5), 3), ((P.LAN_ALIGN, 1), 1), ((P.LAN_S, 5), 3)])) (Sample.sess) (5) (64) (Status.BAD_VALUE)) ∧
    ((fun (rq : Request) (s : State) (x : Session) (l n st : Nat) =>
      s.taken Op.LAN_SLIP rq x ∧
      beAt 0 2 rq.payload = l ∧
      beAt 2 1 rq.payload = n ∧
      ((((511 < l ∨ n = 0 ∨ 63 < n) ∧ st = Status.BAD_VALUE) ∨
      (l ≤ 511 ∧ 1 ≤ n ∧ n ≤ 63 ∧ ((s.laneState l ≠ 3 ∧ s.laneState l ≠ 6) ∨ s.rd P.LAN_ALIGN (l / 4) ≠ 1) ∧
        st = Status.NOT_READY))))
      ((Sample.rq Op.LAN_SLIP [0, 5, 1, 0])) ((Sample.state [])) (Sample.sess) (5) (1) (Status.NOT_READY)) :=
  ⟨(by beta_reduce; and_intros <;> decide +kernel),
   (by beta_reduce; and_intros <;> decide +kernel),
   (⟨by exact Or.inr (by decide +kernel), by decide +kernel⟩),
   (by beta_reduce; and_intros <;> decide +kernel),
   (⟨Sample.taken_of (by unfold State.reached; decide +kernel) (by decide +kernel) (by decide +kernel), by decide +kernel⟩),
   (⟨Sample.taken_of (by unfold State.reached; decide +kernel) (by decide +kernel) (by decide +kernel), by decide +kernel⟩),
   (⟨Sample.taken_of (by unfold State.reached; decide +kernel) (by decide +kernel) (by decide +kernel), by decide +kernel⟩)⟩

theorem test_meets_LasersAndSynthesizersChange :
    (((fun (engine : Fin 32) (laser : Fin 5) (bias : BitVec 16) (s : State) =>
      100 * s.rd P.OPT_BIAS_WARN < bias.toNat)
      (3) (4) (60000) ((Sample.state []))) ∧
    ((fun (engine : Fin 32) (laser : Fin 5) (bias : BitVec 16) (s : State) =>
      bias.toNat ≤ 100 * s.rd P.OPT_BIAS_WARN)
      (3) (4) (0) ((Sample.state [])))) ∧
    ((fun (engine : Fin 32) (laser : Fin 5) (bias : BitVec 16) (powers : List Int) (s : State) =>
      (100 * s.rd P.OPT_BIAS_FAIL < bias.toNat ∨
      (∃ q, s.fedQuad engine.val laser.val = some q ∧ powers.length = 4 ∧
        ∀ x ∈ (quadLanes q).zip powers, x.2 + 600 ≤ (s.laneRec x.1).power)))
      (3) (2) (65000) ([]) ((Sample.state [((P.LAN_STATE, 56), 5)]))) ∧
    ((fun (engine : Fin 32) (laser : Fin 5) (bias : BitVec 16) (powers : List Int) (s : State) =>
      (100 * s.rd P.OPT_BIAS_FAIL < bias.toNat ∨
      (∃ q, s.fedQuad engine.val laser.val = some q ∧ powers.length = 4 ∧
        ∀ x ∈ (quadLanes q).zip powers, x.2 + 600 ≤ (s.laneRec x.1).power)))
      (3) (4) (0) ([-700, -700, -700, -600]) ((Sample.state [((P.LAN_STATE, 56), 5), ((P.OPT_LASER_STATE, 17), 3), ((P.OPT_LASER_STATE, 19), 1)]))) ∧
    ((fun (engine : Fin 32) (laser : Fin 5) (bias : BitVec 16) (powers : List Int) (s : State) =>
      bias.toNat ≤ 100 * s.rd P.OPT_BIAS_FAIL ∧
      ((s.fedQuad engine.val laser.val = none ∨ powers.length ≠ 4 ∨ ∃ q, s.fedQuad engine.val laser.val = some q ∧
      ∃ x ∈ (quadLanes q).zip powers, (s.laneRec x.1).power < x.2 + 600)))
      (3) (4) (0) ([]) ((Sample.state []))) ∧
    ((fun (engine : Fin 32) (laser : Fin 5) (bias : BitVec 16) (powers : List Int) (s : State) =>
      bias.toNat ≤ 100 * s.rd P.OPT_BIAS_FAIL ∧
      ((s.fedQuad engine.val laser.val = none ∨ powers.length ≠ 4 ∨ ∃ q, s.fedQuad engine.val laser.val = some q ∧
      ∃ x ∈ (quadLanes q).zip powers, (s.laneRec x.1).power < x.2 + 600)))
      (3) (2) (0) ([0, -700, -700, -600]) ((Sample.state [((P.LAN_STATE, 56), 5)]))) ∧
    ((fun (rq : Request) (s : State) (x : Session) (e k start : Nat) =>
      s.taken Op.LASER_SWAP rq x ∧
      beAt 0 1 rq.payload = e ∧
      beAt 1 1 rq.payload = k ∧
      e ≤ 31 ∧
      k ≤ 3 ∧
      s.rdb P.OPT_SPARE_USED e = false ∧
      s.rd P.OPT_LASER_STATE (5 * e + 4) ≠ 2 ∧
      s.rd P.PWR_DOMAIN_STATE (engineDomain e) = 3 ∧
      ((∀ w ∈ s.optics.swaps, w.engine ≠ e)) ∧
      start = max (if (beAt 2 1 rq.payload).testBit 0 = true then instant (beAt 4 6 rq.payload) (beAt 10 4 rq.payload) else 0)
      (s.modNs + 1000000 * s.rd P.OPT_SWAP_NOTICE))
      ((Sample.rq Op.LASER_SWAP [3, 2, 0, 0, 0, 0, 0, 0, 0, 0, 0, 0, 0, 0, 0, 0])) ((Sample.state [((P.PWR_DOMAIN_STATE, 9), 3)])) (Sample.sess) (3) (2) (((Sample.state [((P.PWR_DOMAIN_STATE, 9), 3)])).modNs + 1000000 * ((Sample.state [((P.PWR_DOMAIN_STATE, 9), 3)])).rd P.OPT_SWAP_NOTICE)) ∧
    ((fun (rq : Request) (s : State) (x : Session) (e k st : Nat) =>
      s.taken Op.LASER_SWAP rq x ∧
      beAt 0 1 rq.payload = e ∧
      beAt 1 1 rq.payload = k ∧
      ((((31 < e ∨ 3 < k) ∧ st = Status.BAD_VALUE) ∨
      (e ≤ 31 ∧ k ≤ 3 ∧ (s.rdb P.OPT_SPARE_USED e = true ∨ s.rd P.OPT_LASER_STATE (5 * e + 4) = 2 ∨
        s.rd P.PWR_DOMAIN_STATE (engineDomain e) ≠ 3) ∧ st = Status.NOT_READY) ∨
      (e ≤ 31 ∧ k ≤ 3 ∧ s.rdb P.OPT_SPARE_USED e = false ∧ s.rd P.OPT_LASER_STATE (5 * e + 4) ≠ 2 ∧
        s.rd P.PWR_DOMAIN_STATE (engineDomain e) = 3 ∧ (s.optics.swaps.any fun w => w.engine == e) = true ∧
        st = Status.IN_PROGRESS))))
      ((Sample.rq Op.LASER_SWAP [32, 2, 0, 0, 0, 0, 0, 0, 0, 0, 0, 0, 0, 0, 0, 0])) ((Sample.state [])) (Sample.sess) (32) (2) (Status.BAD_VALUE)) ∧
    ((fun (rq : Request) (s : State) (x : Session) (e k st : Nat) =>
      s.taken Op.LASER_SWAP rq x ∧
      beAt 0 1 rq.payload = e ∧
      beAt 1 1 rq.payload = k ∧
      ((((31 < e ∨ 3 < k) ∧ st = Status.BAD_VALUE) ∨
      (e ≤ 31 ∧ k ≤ 3 ∧ (s.rdb P.OPT_SPARE_USED e = true ∨ s.rd P.OPT_LASER_STATE (5 * e + 4) = 2 ∨
        s.rd P.PWR_DOMAIN_STATE (engineDomain e) ≠ 3) ∧ st = Status.NOT_READY) ∨
      (e ≤ 31 ∧ k ≤ 3 ∧ s.rdb P.OPT_SPARE_USED e = false ∧ s.rd P.OPT_LASER_STATE (5 * e + 4) ≠ 2 ∧
        s.rd P.PWR_DOMAIN_STATE (engineDomain e) = 3 ∧ (s.optics.swaps.any fun w => w.engine == e) = true ∧
        st = Status.IN_PROGRESS))))
      ((Sample.rq Op.LASER_SWAP [3, 2, 0, 0, 0, 0, 0, 0, 0, 0, 0, 0, 0, 0, 0, 0])) ((Sample.state [((P.OPT_SPARE_USED, 3), 1)])) (Sample.sess) (3) (2) (Status.NOT_READY)) ∧
    (((fun (engine : Fin 32) (s : State) (w : Swap) =>
      (s.optics.swaps.find? fun w => w.engine == engine.val && w.downAt.isNone) = some w ∧
      w.start ≤ s.modNs)
      (3) ({ (Sample.state [((P.LAN_STATE, 56), 5)]) with optics := { State.reset.optics with swaps := [Sample.swap none] } }) (Sample.swap none)) ∧
    ((fun (engine : Fin 32) (s : State) =>
      ((∀ w ∈ s.optics.swaps, w.engine = engine.val → w.downAt = none → s.modNs < w.start)))
      (3) ((Sample.state []))) ∧
    ((fun (engine : Fin 32) (s : State) (w : Swap) =>
      s.optics.swaps = [w] ∧
      w.engine = engine.val ∧
      w.downAt.isSome = true ∧
      w.routed = false ∧
      ((∀ i, i < 16 → s.laneState (16 * engine.val + i) = 0 ∧ s.rdb P.LAN_ENABLE (16 * engine.val + i) = false)) ∧
      (s.sessionUid w.origin.uid).isSome = true)
      (3) ({ (Sample.state []) with optics := { State.reset.optics with swaps := [Sample.swap (some 0)] } }) (Sample.swap (some 0))) ∧
    ((fun (engine : Fin 32) (s : State) =>
      ((∀ w ∈ s.optics.swaps, w.engine = engine.val → w.downAt = none ∨ w.routed = true)))
      (3) ((Sample.state [])))) ∧
    ((fun (rq : Request) (s : State) (x : Session) (m st : Nat) =>
      s.taken Op.SYN_APPLY rq x ∧
      beAt 0 1 rq.payload % 16 = m ∧
      m ≠ 0 ∧
      ((((beAt 1 1 rq.payload).testBit 0 = false ∧ st = Status.OK) ∨ ((beAt 1 1 rq.payload).testBit 0 = true ∧
      instant (beAt 2 6 rq.payload) (beAt 8 4 rq.payload) < s.modNs ∧ st = Status.DONE_LATE))) ∧
      (maskedSyns m).all s.synLegal = true)
      ((Sample.rq Op.SYN_APPLY [5, 0, 0, 0, 0, 0, 0, 0, 0, 0, 0, 0, 0, 0, 0, 0])) ((Sample.state [])) (Sample.sess) (5) (Status.OK)) ∧
    ((fun (rq : Request) (s : State) (x : Session) (m st : Nat) =>
      s.taken Op.SYN_APPLY rq x ∧
      beAt 0 1 rq.payload % 16 = m ∧
      m ≠ 0 ∧
      ((((beAt 1 1 rq.payload).testBit 0 = false ∧ st = Status.OK) ∨ ((beAt 1 1 rq.payload).testBit 0 = true ∧
      instant (beAt 2 6 rq.payload) (beAt 8 4 rq.payload) < s.modNs ∧ st = Status.DONE_LATE))) ∧
      (maskedSyns m).all s.synLegal = true)
      ((Sample.rq Op.SYN_APPLY [1, 1, 0, 0, 0, 0, 0, 0, 0, 0, 0, 0, 0, 0, 0, 0])) ({ (Sample.state []) with time := { State.reset.time with out := ⟨5, 6⟩ } }) (Sample.sess) (1) (Status.DONE_LATE)) ∧
    ((fun (rq : Request) (s : State) (x : Session) (m : Nat) =>
      s.taken Op.SYN_APPLY rq x ∧
      beAt 0 1 rq.payload % 16 = m ∧
      ((m = 0 ∨ (maskedSyns m).all s.synLegal = false)) ∧
      (((beAt 1 1 rq.payload).testBit 0 = false ∨ instant (beAt 2 6 rq.payload) (beAt 8 4 rq.payload) < s.modNs ∨ m = 0)))
      ((Sample.rq Op.SYN_APPLY [0, 0, 0, 0, 0, 0, 0, 0, 0, 0, 0, 0, 0, 0, 0, 0])) ((Sample.state [])) (Sample.sess) (0)) ∧
    ((fun (rq : Request) (s : State) (x : Session) (m : Nat) =>
      s.taken Op.SYN_APPLY rq x ∧
      beAt 0 1 rq.payload % 16 = m ∧
      ((m = 0 ∨ (maskedSyns m).all s.synLegal = false)) ∧
      (((beAt 1 1 rq.payload).testBit 0 = false ∨ instant (beAt 2 6 rq.payload) (beAt 8 4 rq.payload) < s.modNs ∨ m = 0)))
      ((Sample.rq Op.SYN_APPLY [2, 0, 0, 0, 0, 0, 0, 0, 0, 0, 0, 0, 0, 0, 0, 0])) ((Sample.state [((P.SYN_OUT_MOD, 1), 0)])) (Sample.sess) (2)) ∧
    ((fun (rq : Request) (s : State) (x : Session) (m due : Nat) =>
      s.taken Op.SYN_APPLY rq x ∧
      beAt 0 1 rq.payload % 16 = m ∧
      m ≠ 0 ∧
      (beAt 1 1 rq.payload).testBit 0 = true ∧
      due = instant (beAt 2 6 rq.payload) (beAt 8 4 rq.payload) ∧
      s.modNs ≤ due ∧
      s.optics.synJobs = [])
      ((Sample.rq Op.SYN_APPLY [5, 1, 0, 0, 0, 0, 0, 9, 0, 0, 0, 0, 0, 0, 0, 0])) ((Sample.state [])) (Sample.sess) (5) (9000000000)) ∧
    (((fun (s : State) (j : SynJob) (k : Nat) =>
      s.optics.synJobs = [j] ∧
      j.due ≤ s.modNs ∧
      j.mask = 2 ^ k ∧
      k < 4 ∧
      s.synLegal k = true ∧
      (s.sessionUid j.origin.uid).isSome = true)
      ({ (Sample.state []) with optics := { State.reset.optics with synJobs := [⟨originOf Sample.sess 9 (Sample.rq 9 []), 2, 0⟩] } }) (⟨originOf Sample.sess 9 (Sample.rq 9 []), 2, 0⟩) (1)) ∧
    ((fun (syn : Fin 38) (s : State) =>
      ((s.rd P.SYN_STATE syn.val = 1 ∨ s.rd P.SYN_STATE syn.val = 3)) ∧
      s.optics.synWait = [])
      (33) ((Sample.state [((P.SYN_STATE, 33), 1)]))) ∧
    ((fun (syn : Fin 38) (s : State) =>
      ((s.rd P.SYN_STATE syn.val = 1 ∨ s.rd P.SYN_STATE syn.val = 3)) ∧
      s.optics.synWait = [])
      (33) ((Sample.state [((P.SYN_STATE, 33), 3)]))) ∧
    ((fun (syn : Fin 38) (s : State) =>
      s.rd P.SYN_STATE syn.val = 1 ∧
      s.optics.synWait = [])
      (33) ((Sample.state [((P.SYN_STATE, 33), 1)]))) ∧
    ((fun (syn : Fin 38) (s : State) =>
      s.rd P.SYN_STATE syn.val = 2)
      (3) ((Sample.state [((P.SYN_STATE, 3), 2), ((P.LAN_STATE, 56), 5)]))) ∧
    ((fun (syn : Fin 38) (s : State) =>
      s.rd P.SYN_STATE syn.val = 2)
      (36) ((Sample.state [((P.SYN_STATE, 36), 2), ((P.COR_STATE, 0), 4)]))) ∧
    ((fun (syn : Fin 38) (s : State) =>
      s.rd P.SYN_STATE syn.val ≠ 2)
      (33) ((Sample.state [((P.SYN_STATE, 33), 1)])))) :=
  ⟨(by beta_reduce; and_intros <;> decide +kernel),
   (by exact Or.inl (by decide +kernel)),
   (by exact Or.inr ⟨14, by decide +kernel⟩),
   (⟨by decide +kernel, by exact Or.inl (by decide +kernel)⟩),
   (⟨by decide +kernel, by exact Or.inr (Or.inr ⟨14, by decide +kernel, (56, 0), by decide +kernel, by decide +kernel⟩)⟩),
   (⟨Sample.taken_of (by unfold State.reached; decide +kernel) (by decide +kernel) (by decide +kernel), by decide +kernel⟩),
   (⟨Sample.taken_of (by unfold State.reached; decide +kernel) (by decide +kernel) (by decide +kernel), by decide +kernel⟩),
   (⟨Sample.taken_of (by unfold State.reached; decide +kernel) (by decide +kernel) (by decide +kernel), by decide +kernel⟩),
   (by beta_reduce; and_intros <;> decide +kernel),
   (⟨Sample.taken_of (by unfold State.reached; decide +kernel) (by decide +kernel) (by decide +kernel), by decide +kernel⟩),
   (⟨Sample.taken_of (by unfold State.reached; decide +kernel) (by decide +kernel) (by decide +kernel), by decide +kernel⟩),
   (⟨Sample.taken_of (by unfold State.reached; decide +kernel) (by decide +kernel) (by decide +kernel), by decide +kernel⟩),
   (⟨Sample.taken_of (by unfold State.reached; decide +kernel) (by decide +kernel) (by decide +kernel), by decide +kernel⟩),
   (⟨Sample.taken_of (by unfold State.reached; decide +kernel) (by decide +kernel) (by decide +kernel), by decide +kernel⟩),
   (by beta_reduce; and_intros <;> decide +kernel)⟩

theorem test_meets_WeirGrantsAndFreezes :
    (((fun (master : Fin 16) (addr : BitVec 26) (write : Bool) (beats : Fin 64) (data : List Byte) (s : State) =>
      master.val ≠ 0 ∧
      s.frozenMaster master.val = false ∧
      ((∀ b, b ∈ burstBanks (addr.toNat / 64 * 64) (beats.val + 1) → bankAllows master.val b write = true ∧ (b = 31 → s.pad.wipe = none))))
      (13) (0x1000040) (true) (3) ([1, 2]) ((Sample.state []))) ∧
    ((fun (master : Fin 16) (addr : BitVec 26) (write : Bool) (beats : Fin 64) (data : List Byte) (s : State) (b : Nat) =>
      master.val ≠ 0 ∧
      s.frozenMaster master.val = false ∧
      b ∈ burstBanks (addr.toNat / 64 * 64) (beats.val + 1) ∧
      bankAllows master.val b write = false)
      (13) (0) (true) (3) ([1, 2]) ((Sample.state [])) (0)) ∧
    ((fun (master : Fin 16) (addr : BitVec 26) (write : Bool) (beats : Fin 64) (data : List Byte) (s : State) (b : Nat) =>
      master.val ≠ 0 ∧
      s.frozenMaster master.val = false ∧
      b ∈ burstBanks (addr.toNat / 64 * 64) (beats.val + 1) ∧
      bankAllows master.val b write = false)
      (13) (0x3FFFFC0) (false) (0) ([]) ((Sample.state [])) (31)) ∧
    ((fun (master : Fin 16) (addr : BitVec 26) (write : Bool) (beats : Fin 64) (data : List Byte) (s : State) =>
      (master.val = 0 ∨ s.frozenMaster master.val = true))
      (0) (0) (true) (3) ([1, 2]) ((Sample.state []))) ∧
    ((fun (master : Fin 16) (addr : BitVec 26) (write : Bool) (beats : Fin 64) (data : List Byte) (s : State) =>
      master.val ≠ 0 ∧
      s.frozenMaster master.val = false ∧
      s.pad.wipe ≠ none ∧
      31 ∈ burstBanks (addr.toNat / 64 * 64) (beats.val + 1) ∧
      ((∀ b, b ∈ burstBanks (addr.toNat / 64 * 64) (beats.val + 1) → bankAllows master.val b write = true)))
      (11) (0x3FFFFC0) (false) (0) ([]) ({ (Sample.state []) with pad := { State.reset.pad with wipe := some ⟨1, none, none⟩ } })) ∧
    ((fun (s : State) (x : Burst) (b a : Nat) =>
      s.pad.bursts = [x] ∧
      x.master < 16 ∧
      s.frozenMaster x.master = false ∧
      a = x.addr + 64 * x.moved ∧
      b = bankOf a ∧
      b < 32 ∧
      x.write = false ∧
      x.moved + 1 = x.beats ∧
      (s.bankWindow b).slots < (s.bankWindow b).window ∧
      s.masked b x.master = false)
      ({ (Sample.state []) with pad := { State.reset.pad with bursts := [⟨3, 8, false, 0x1000000, 1, 0, []⟩] } }) (⟨3, 8, false, 0x1000000, 1, 0, []⟩) (8) (0x1000000)) ∧
    ((fun (s : State) (x : Burst) (b a : Nat) =>
      s.pad.bursts = [x] ∧
      x.master < 16 ∧
      s.frozenMaster x.master = false ∧
      a = x.addr + 64 * x.moved ∧
      b = bankOf a ∧
      b < 32 ∧
      x.write = true ∧
      x.moved + 1 < x.beats ∧
      (s.bankWindow b).slots < (s.bankWindow b).window ∧
      s.masked b x.master = false)
      ({ (Sample.state []) with pad := { State.reset.pad with bursts := [⟨13, 8, true, 0x1000000, 2, 0, [5, 6]⟩] } }) (⟨13, 8, true, 0x1000000, 2, 0, [5, 6]⟩) (8) (0x1000000)) ∧
    ((fun (s : State) (x y : Burst) (b : Nat) =>
      ((s.pad.bursts = [x, y] ∨ s.pad.bursts = [y, x])) ∧
      x.master < 16 ∧
      y.master < 16 ∧
      s.frozenMaster x.master = false ∧
      s.frozenMaster y.master = false ∧
      x.write = false ∧
      y.write = false ∧
      b = bankOf (x.addr + 64 * x.moved) ∧
      b = bankOf (y.addr + 64 * y.moved) ∧
      b < 32 ∧
      (s.bankWindow b).slots < (s.bankWindow b).window ∧
      s.masked b x.master = false ∧
      s.masked b y.master = false ∧
      s.rd P.ARB_PRIO y.master < s.rd P.ARB_PRIO x.master)
      ({ (Sample.state []) with pad := { State.reset.pad with bursts := [⟨3, 8, false, 0x1000000, 2, 0, []⟩, ⟨13, 8, false, 0x1000000, 2, 0, []⟩] } }) (⟨13, 8, false, 0x1000000, 2, 0, []⟩) (⟨3, 8, false, 0x1000000, 2, 0, []⟩) (8))) ∧
    ((fun (rq : Request) (s : State) (x : Session) (n : Nat) =>
      s.taken Op.MASTER_RELEASE rq x ∧
      beAt 0 1 rq.payload = 0 ∧
      beAt 2 2 rq.payload = n ∧
      n ≤ 15 ∧
      s.frozenMaster n = true)
      ((Sample.rq Op.MASTER_RELEASE [0, 0, 0, 13])) ((Sample.state [((P.SPD_FROZEN, 0), 0x2000)])) (Sample.sess) (13)) ∧
    ((fun (rq : Request) (s : State) (x y : Session) (n : Nat) =>
      s.taken Op.MASTER_RELEASE rq x ∧
      beAt 0 1 rq.payload = 1 ∧
      beAt 2 2 rq.payload = n ∧
      1 ≤ n ∧
      n ≤ 16 ∧
      s.session n = some y ∧
      s.sessState n = 2 ∧
      y.uid ≠ x.uid)
      ((Sample.rq Op.MASTER_RELEASE [1, 0, 0, 2])) ((let s := (Sample.state [((P.CMD_SESSION_STATE, 1), 2)]); { s with cmd := { s.cmd with sessions := s.cmd.sessions ++ [⟨2, 1, .spi, 0, 3, 0, 0, [], 0, none, none, [], [], [], 0⟩] }, clock := 77 })) (Sample.sess) (⟨2, 1, .spi, 0, 3, 0, 0, [], 0, none, none, [], [], [], 0⟩) (2)) ∧
    ((fun (rq : Request) (s : State) (x : Session) (n st : Nat) =>
      s.taken Op.MASTER_RELEASE rq x ∧
      beAt 2 2 rq.payload = n ∧
      (((1 < beAt 0 1 rq.payload ∧ st = Status.BAD_VALUE) ∨ (beAt 0 1 rq.payload = 0 ∧ 15 < n ∧ st = Status.BAD_VALUE) ∨
      (beAt 0 1 rq.payload = 0 ∧ n ≤ 15 ∧ s.frozenMaster n = false ∧ st = Status.NOT_FOUND) ∨
      (beAt 0 1 rq.payload = 1 ∧ (n = 0 ∨ 16 < n) ∧ st = Status.BAD_VALUE) ∨
      (beAt 0 1 rq.payload = 1 ∧ 1 ≤ n ∧ n ≤ 16 ∧ s.sessState n ≠ 2 ∧ st = Status.NOT_FOUND))))
      ((Sample.rq Op.MASTER_RELEASE [0, 0, 0, 13])) ((Sample.state [])) (Sample.sess) (13) (Status.NOT_FOUND)) ∧
    ((fun (rq : Request) (s : State) (x : Session) (n st : Nat) =>
      s.taken Op.MASTER_RELEASE rq x ∧
      beAt 2 2 rq.payload = n ∧
      (((1 < beAt 0 1 rq.payload ∧ st = Status.BAD_VALUE) ∨ (beAt 0 1 rq.payload = 0 ∧ 15 < n ∧ st = Status.BAD_VALUE) ∨
      (beAt 0 1 rq.payload = 0 ∧ n ≤ 15 ∧ s.frozenMaster n = false ∧ st = Status.NOT_FOUND) ∨
      (beAt 0 1 rq.payload = 1 ∧ (n = 0 ∨ 16 < n) ∧ st = Status.BAD_VALUE) ∨
      (beAt 0 1 rq.payload = 1 ∧ 1 ≤ n ∧ n ≤ 16 ∧ s.sessState n ≠ 2 ∧ st = Status.NOT_FOUND))))
      ((Sample.rq Op.MASTER_RELEASE [1, 0, 0, 0])) ((Sample.state [])) (Sample.sess) (0) (Status.BAD_VALUE)) :=
  ⟨(by beta_reduce; and_intros <;> decide +kernel),
   (⟨Sample.taken_of (by unfold State.reached; decide +kernel) (by decide +kernel) (by decide +kernel), by decide +kernel⟩),
   (⟨Sample.taken_of (by unfold State.reached; decide +kernel) (by decide +kernel) (by decide +kernel), by decide +kernel⟩),
   (⟨Sample.taken_of (by unfold State.reached; decide +kernel) (by decide +kernel) (by decide +kernel), by decide +kernel⟩),
   (⟨Sample.taken_of (by unfold State.reached; decide +kernel) (by decide +kernel) (by decide +kernel), by decide +kernel⟩)⟩

theorem test_meets_WipesAndLifeCycle :
    (((fun (k : Fin 5) (active : BitVec 5) (s : State) =>
      s.pad.wipe = none)
      (2) (4) ((Sample.state []))) ∧
    ((fun (k : Fin 5) (active : BitVec 5) (s : State) (w : Wipe) =>
      s.pad.wipe = some w)
      (2) (4) ({ (Sample.state []) with pad := { State.reset.pad with wipe := some ⟨1, none, none⟩ } }) (⟨1, none, none⟩)) ∧
    ((fun (s : State) (w : Wipe) =>
      s.pad.wipe = some w ∧
      w.change = none ∧
      w.again = none)
      ({ (Sample.state [((P.LOG_KEY_STATE, 0), 2)]) with pad := { State.reset.pad with wipe := some ⟨3, none, none⟩, mem := [(5, 6), (0x3E00000, 7)] } }) (⟨3, none, none⟩)) ∧
    ((fun (s : State) (w : Wipe) (c : Nat) =>
      s.pad.wipe = some w ∧
      w.change = none ∧
      w.again = some c)
      ({ (Sample.state []) with pad := { State.reset.pad with wipe := some ⟨3, some 2, none⟩ } }) (⟨3, some 2, none⟩) (2)) ∧
    ((fun (s : State) (w : Wipe) (c : LifeChange) =>
      s.pad.wipe = some w ∧
      w.change = some c ∧
      w.again = none)
      ({ (Sample.state []) with pad := { State.reset.pad with wipe := some ⟨0, none, some ⟨originOf Sample.sess 9 (Sample.rq 9 []), 1, [5]⟩⟩ } }) (⟨0, none, some ⟨originOf Sample.sess 9 (Sample.rq 9 []), 1, [5]⟩⟩) (⟨originOf Sample.sess 9 (Sample.rq 9 []), 1, [5]⟩)) ∧
    ((fun (s : State) (w : Wipe) (c : LifeChange) =>
      s.pad.wipe = some w ∧
      w.change = some c ∧
      w.again = none)
      ({ (Sample.state []) with pad := { State.reset.pad with wipe := some ⟨0, none, some ⟨originOf Sample.sess 9 (Sample.rq 9 []), 2, [5]⟩⟩ } }) (⟨0, none, some ⟨originOf Sample.sess 9 (Sample.rq 9 []), 2, [5]⟩⟩) (⟨originOf Sample.sess 9 (Sample.rq 9 []), 2, [5]⟩)) ∧
    ((fun (s : State) =>
      s.pad.wipe = none)
      ((Sample.state [])))) ∧
    ((fun (rq : Request) (s : State) (x : Session) (q : Nat) =>
      s.taken Op.LIFECYCLE_SET rq x ∧
      beAt 0 1 rq.payload = q ∧
      s.frozenMaster 11 = false ∧
      s.rd P.SPD_TAMPER_SRC = 0 ∧
      s.pad.wipe = none ∧
      (s.rd P.SPD_LIFECYCLE, q) ∈ [(0, 1), (1, 2), (2, 3), (3, 2), (1, 4), (2, 4), (3, 4)] ∧
      ((q = 1 → beAt 4 32 rq.payload ≠ 0)))
      ((Sample.rq Op.LIFECYCLE_SET ([1, 0, 0, 0] ++ toBe 32 5))) ((Sample.state [])) (Sample.sess) (1)) ∧
    ((fun (rq : Request) (s : State) (x : Session) (q st : Nat) =>
      s.taken Op.LIFECYCLE_SET rq x ∧
      beAt 0 1 rq.payload = q ∧
      s.frozenMaster 11 = false ∧
      (((4 < q ∧ st = Status.BAD_VALUE) ∨
      (q ≤ 4 ∧ (s.rd P.SPD_TAMPER_SRC ≠ 0 ∨ s.pad.wipe ≠ none ∨
        (s.rd P.SPD_LIFECYCLE, q) ∉ [(0, 1), (1, 2), (2, 3), (3, 2), (1, 4), (2, 4), (3, 4)]) ∧ st = Status.LIFECYCLE_DENIED) ∨
      (q = 1 ∧ s.rd P.SPD_LIFECYCLE = 0 ∧ s.rd P.SPD_TAMPER_SRC = 0 ∧ s.pad.wipe = none ∧ beAt 4 32 rq.payload = 0 ∧
        st = Status.BAD_VALUE))))
      ((Sample.rq Op.LIFECYCLE_SET ([3, 0, 0, 0] ++ toBe 32 5))) ((Sample.state [])) (Sample.sess) (3) (Status.LIFECYCLE_DENIED)) ∧
    ((fun (rq : Request) (s : State) (x : Session) (q st : Nat) =>
      s.taken Op.LIFECYCLE_SET rq x ∧
      beAt 0 1 rq.payload = q ∧
      s.frozenMaster 11 = false ∧
      (((4 < q ∧ st = Status.BAD_VALUE) ∨
      (q ≤ 4 ∧ (s.rd P.SPD_TAMPER_SRC ≠ 0 ∨ s.pad.wipe ≠ none ∨
        (s.rd P.SPD_LIFECYCLE, q) ∉ [(0, 1), (1, 2), (2, 3), (3, 2), (1, 4), (2, 4), (3, 4)]) ∧ st = Status.LIFECYCLE_DENIED) ∨
      (q = 1 ∧ s.rd P.SPD_LIFECYCLE = 0 ∧ s.rd P.SPD_TAMPER_SRC = 0 ∧ s.pad.wipe = none ∧ beAt 4 32 rq.payload = 0 ∧
        st = Status.BAD_VALUE))))
      ((Sample.rq Op.LIFECYCLE_SET ([1, 0, 0, 0] ++ toBe 32 0))) ((Sample.state [])) (Sample.sess) (1) (Status.BAD_VALUE)) :=
  ⟨(by beta_reduce; and_intros <;> decide +kernel),
   (⟨Sample.taken_of (by unfold State.reached; decide +kernel) (by decide +kernel) (by decide +kernel), by decide +kernel⟩),
   (⟨Sample.taken_of (by unfold State.reached; decide +kernel) (by decide +kernel) (by decide +kernel), by decide +kernel⟩),
   (⟨Sample.taken_of (by unfold State.reached; decide +kernel) (by decide +kernel) (by decide +kernel), by decide +kernel⟩)⟩

theorem test_meets_HierarchyMembersJoinAndLeave :
    (((fun (port : Fin 512) (s : State) =>
      s.nhpRuns port.val = true ∧
      s.member ≠ 0 ∧
      port.val % 1000 * 1000000 ≤ s.time.out.nano ∧
      look port.val 0 s.nhp.helloAt ≠ s.time.out.sec + 1)
      (16) ({ Sample.member 5 with time := { State.reset.time with out := ⟨5, 16000000⟩ } })) ∧
    ((fun (port : Fin 512) (s : State) =>
      ((s.nhpRuns port.val = false ∨ s.member = 0 ∨ s.time.out.nano < port.val % 1000 * 1000000 ∨
      look port.val 0 s.nhp.helloAt = s.time.out.sec + 1)))
      (16) ({ Sample.member 5 with time := { State.reset.time with out := ⟨5, 15000000⟩ } })) ∧
    ((fun (port : Fin 512) (msg b : List Byte) (s : State) (v : Nat) =>
      s.nhpTakes port.val 0x01 msg = true ∧
      b = fit 32 (nhpBody msg) ∧
      v = commonVersion (beAt 1 1 b) (s.rd P.HIE_VERSIONS))
      (16) (Sample.nhp 1 ([0, 6, 2, 0] ++ toBe 8 7 ++ zeros 4)) (fit 32 ([0, 6, 2, 0] ++ toBe 8 7 ++ zeros 4)) (Sample.member 1) (2)) ∧
    ((fun (port : Fin 512) (msg b : List Byte) (s : State) (v : Nat) =>
      s.nhpTakes port.val 0x01 msg = true ∧
      b = fit 32 (nhpBody msg) ∧
      v = commonVersion (beAt 1 1 b) (s.rd P.HIE_VERSIONS))
      (16) (Sample.nhp 1 ([0, 6, 2, 1] ++ toBe 8 7 ++ zeros 4)) (fit 32 ([0, 6, 2, 1] ++ toBe 8 7 ++ zeros 4)) (Sample.member 3) (2)) ∧
    ((fun (port : Fin 512) (msg b : List Byte) (s : State) (v : Nat) =>
      s.nhpTakes port.val 0x01 msg = true ∧
      b = fit 32 (nhpBody msg) ∧
      v = commonVersion (beAt 1 1 b) (s.rd P.HIE_VERSIONS))
      (16) (Sample.nhp 1 ([0, 6, 2, 0] ++ toBe 8 7 ++ zeros 4)) (fit 32 ([0, 6, 2, 0] ++ toBe 8 7 ++ zeros 4)) (Sample.member 3) (2)) ∧
    ((fun (port : Fin 512) (msg b : List Byte) (s : State) (v : Nat) =>
      s.nhpTakes port.val 0x01 msg = true ∧
      b = fit 32 (nhpBody msg) ∧
      v = commonVersion (beAt 1 1 b) (s.rd P.HIE_VERSIONS))
      (16) (Sample.nhp 1 ([0, 0, 2, 0] ++ toBe 8 7 ++ zeros 4)) (fit 32 ([0, 0, 2, 0] ++ toBe 8 7 ++ zeros 4)) (Sample.member 1) (0)) ∧
    ((fun (port : Fin 512) (s : State) (h : Heard) =>
      findBy Heard.port port.val s.nhp.heard = some h ∧
      h.at_ + 3500000000 ≤ s.clock)
      (16) ({ Sample.heard 3 with clock := 4000000000 }) (⟨16, 0, 0, 2, false, 7, 0, 0, 9, 1⟩))) ∧
    ((fun (port : Fin 512) (s : State) =>
      ((∀ h, findBy Heard.port port.val s.nhp.heard = some h → s.clock < h.at_ + 3500000000)))
      (16) (Sample.member 1)) ∧
    ((fun (s : State) =>
      s.member = 3 ∧
      ((∀ h, findBy Heard.port (s.rd P.HIE_PARENT_PORT) s.nhp.heard = some h →
      h.at_ + 1000000 * s.rd P.HIE_LOST_TIME ≤ s.clock)))
      ({ Sample.member 3 with clock := 4000000000 })) ∧
    ((fun (s : State) =>
      ((s.member ≠ 3 ∨ ∃ h, findBy Heard.port (s.rd P.HIE_PARENT_PORT) s.nhp.heard = some h ∧
      s.clock < h.at_ + 1000000 * s.rd P.HIE_LOST_TIME)))
      (Sample.member 1)) ∧
    (((fun (port : Fin 512) (msg : List Byte) (s : State) (id n : Nat) =>
      s.nhpTakes port.val 0x02 msg = true ∧
      s.member = 5 ∧
      beAt 0 8 (nhpBody msg) = id ∧
      s.worker id = none ∧
      beAt 18 1 (nhpBody msg) ≤ 7 ∧
      s.freeNum = some n ∧
      s.nhp.registry.length < 262143)
      (16) (Sample.nhp 2 (toBe 8 9 ++ toBe 8 7 ++ zeros 8)) (Sample.member 5) (9) (0)) ∧
    ((fun (port : Fin 512) (msg : List Byte) (s : State) (q : Nat) =>
      s.nhpTakes port.val 0x02 msg = true ∧
      s.member = 3 ∧
      s.rd P.HIE_PARENT_PORT = q ∧
      nhpHops msg ≠ 0 ∧
      s.nhpRuns q = true ∧
      s.rd P.HIE_PORT_VERSION q ≠ 0 ∧
      s.rd P.HIE_PORT_VERSION port.val ≠ 1 ∧
      s.nhp.children.length < 4096)
      (16) (Sample.nhp 2 (toBe 8 9 ++ toBe 8 7 ++ zeros 8)) ((Sample.member 3)) (16)) ∧
    ((fun (s : State) (h : Heard) =>
      s.member = 2 ∧
      s.nhp.joinAt + 500000000 ≤ s.clock ∧
      findBy Heard.port (s.rd P.HIE_PARENT_PORT) s.nhp.heard = some h)
      ({ Sample.heard 2 with clock := 4000000000 }) (⟨16, 0, 0, 2, false, 7, 0, 0, 9, 1⟩)) ∧
    ((fun (s : State) =>
      s.member = 2 ∧
      s.nhp.joinSince + 2000000000 ≤ s.clock)
      ({ Sample.member 2 with clock := 4000000000 })) ∧
    ((fun (port : Fin 512) (msg : List Byte) (s : State) =>
      s.nhpTakes port.val 0x03 msg = true ∧
      s.member = 2 ∧
      s.rd P.HIE_PARENT_PORT = port.val ∧
      beAt 0 8 (nhpBody msg) = s.rd P.HIE_IDENTITY)
      (16) (Sample.nhp 3 (toBe 8 0 ++ toBe 8 7 ++ toBe 2 4 ++ [0, 0])) (Sample.heard 2)) ∧
    ((fun (port : Fin 512) (msg : List Byte) (s : State) =>
      s.nhpTakes port.val 0x03 msg = true ∧
      s.member = 2 ∧
      s.rd P.HIE_PARENT_PORT = port.val ∧
      beAt 0 8 (nhpBody msg) = s.rd P.HIE_IDENTITY)
      (16) (Sample.nhp 3 (toBe 8 0 ++ toBe 8 7 ++ toBe 2 4 ++ [1, 0])) (Sample.heard 2)) ∧
    ((fun (port : Fin 512) (msg : List Byte) (s : State) (e : RegEntry) =>
      s.nhpTakes port.val 0x04 msg = true ∧
      s.member = 5 ∧
      s.worker (beAt 0 8 (nhpBody msg)) = some e)
      (16) (Sample.nhp 4 (toBe 8 9 ++ zeros 8)) (Sample.registry [⟨1, 1, 2, 0, 9, 0, 0xFFFF, 1, 0, 0, 0, 0⟩]) (⟨1, 1, 2, 0, 9, 0, 0xFFFF, 1, 0, 0, 0, 0⟩)) ∧
    ((fun (port : Fin 512) (msg : List Byte) (c : Instr) (type : Nat) (s : State) =>
      s.nhpTakes port.val type msg = false ∧
      (c, type) ∈ [(Instr.hello port msg, 0x01), (.join port msg, 0x02), (.joinAck port msg, 0x03), (.leave port msg, 0x04),
      (.status port msg, 0x05), (.clientReport (some (port, msg)), 0x06), (.tunnelReq port msg, 0x08), (.tunnelReply port msg, 0x09)])
      (16) ([]) (.tunnelReply 16 []) (9) (Sample.member 5))) :=
  ⟨(by beta_reduce; and_intros <;> decide +kernel),
   (by intro h e; have h2 : _ = true := congrArg Option.isSome e; exact absurd h2 (by decide +kernel)),
   (⟨by decide +kernel, by intro h e; have h2 : _ = true := congrArg Option.isSome e; exact absurd h2 (by decide +kernel)⟩),
   (by exact Or.inl (by decide +kernel)),
   (by beta_reduce; and_intros <;> decide +kernel)⟩

theorem test_meets_RegistryAndTunnelsServe :
    ((fun (s : State) (p : Nat) =>
      s.member = 3 ∧
      s.rd P.HIE_PARENT_PORT = p ∧
      s.nhpRuns p = true ∧
      2 ≤ s.rd P.HIE_PORT_VERSION p ∧
      ((∀ c, s.nhp.statusAt = some c → c + 1000000000 ≤ s.clock)))
      (Sample.heard 3) (16)) ∧
    (((fun (s : State) =>
      ((s.member ≠ 3 ∨ s.rd P.HIE_PORT_VERSION (s.rd P.HIE_PARENT_PORT) < 2 ∨
      ∃ c, s.nhp.statusAt = some c ∧ s.clock < c + 1000000000)))
      (Sample.member 1)) ∧
    ((fun (port : Fin 512) (msg b : List Byte) (s : State) (x : RegEntry) =>
      s.nhpTakes port.val 0x05 msg = true ∧
      b = nhpBody msg ∧
      s.member = 5 ∧
      s.worker (beAt 0 8 b) = some x)
      (16) (Sample.nhp 5 (toBe 8 9 ++ zeros 2 ++ [3, 4, 0, 0, 3, 0])) (toBe 8 9 ++ zeros 2 ++ [3, 4, 0, 0, 3, 0]) (Sample.registry [Sample.worker]) (Sample.worker)) ∧
    ((fun (port : Fin 512) (msg b : List Byte) (s : State) =>
      s.nhpTakes port.val 0x05 msg = true ∧
      b = nhpBody msg ∧
      s.member = 5 ∧
      s.worker (beAt 0 8 b) = none)
      (16) (Sample.nhp 5 (toBe 8 9 ++ zeros 2 ++ [3, 4, 0, 0, 3, 0])) (toBe 8 9 ++ zeros 2 ++ [3, 4, 0, 0, 3, 0]) (Sample.member 5))) ∧
    ((fun (s : State) =>
      s.member = 3 ∧
      3 ≤ s.rd P.HIE_PORT_VERSION (s.rd P.HIE_PARENT_PORT) ∧
      ((∀ c, s.nhp.reportAt = some c → c + 1000000000 * s.rd P.HIE_REPORT_PERIOD ≤ s.clock)))
      ({ Sample.heard 3 with grants := [⟨16, 5, 6, 7, .ethernet, 0, -1, 9⟩] })) ∧
    ((fun (port : Fin 512) (msg b : List Byte) (s : State) (w : RegEntry) =>
      s.nhpTakes port.val 0x06 msg = true ∧
      b = nhpBody msg ∧
      b.length = 28 ∧
      beAt 10 1 b = 1 ∧
      s.member = 5 ∧
      s.worker (beAt 0 8 b) = some w ∧
      s.nhp.registry.length < 262143 ∧
      ((∀ x ∈ s.nhp.registry, x.kind = 2 → x.id = beAt 12 8 b → x.number ≠ beAt 20 2 b)))
      (16) (Sample.nhp 6 (toBe 8 9 ++ [0, 0, 1, 0] ++ toBe 8 5 ++ toBe 2 6 ++ zeros 6)) (toBe 8 9 ++ [0, 0, 1, 0] ++ toBe 8 5 ++ toBe 2 6 ++ zeros 6) (Sample.registry [Sample.worker]) (Sample.worker)) ∧
    ((fun (rq : Request) (s : State) (x : Session) (n k : Nat) (es : List (RegEntry × Nat)) =>
      s.taken Op.HIE_REGISTRY_READ rq x ∧
      s.member = 5 ∧
      beAt 4 2 rq.payload = n ∧
      1 ≤ n ∧
      n ≤ 127 ∧
      beAt 6 1 rq.payload = k ∧
      k ≤ 2 ∧
      (es = ((s.ownEntry :: s.nhp.registry).zip (List.range (s.nhp.registry.length + 1))).filter (fun y =>
      decide (beAt 0 4 rq.payload ≤ y.2 ∧ (k = 0 ∨ (k = 1 ∧ y.1.kind ≤ 1) ∨ (k = 2 ∧ y.1.kind = 2))))))
      ((Sample.rq Op.HIE_REGISTRY_READ [0, 0, 0, 0, 0, 1, 0, 0])) (Sample.registry [Sample.worker]) (Sample.sess) (1) (0) ([((Sample.registry [Sample.worker]).ownEntry, 0), (Sample.worker, 1)])) ∧
    ((fun (rq : Request) (s : State) (x : Session) (n k : Nat) (es : List (RegEntry × Nat)) =>
      s.taken Op.HIE_REGISTRY_READ rq x ∧
      s.member = 5 ∧
      beAt 4 2 rq.payload = n ∧
      1 ≤ n ∧
      n ≤ 127 ∧
      beAt 6 1 rq.payload = k ∧
      k ≤ 2 ∧
      (es = ((s.ownEntry :: s.nhp.registry).zip (List.range (s.nhp.registry.length + 1))).filter (fun y =>
      decide (beAt 0 4 rq.payload ≤ y.2 ∧ (k = 0 ∨ (k = 1 ∧ y.1.kind ≤ 1) ∨ (k = 2 ∧ y.1.kind = 2))))))
      ((Sample.rq Op.HIE_REGISTRY_READ [0, 0, 0, 1, 0, 5, 2, 0])) (Sample.registry [Sample.worker, { Sample.worker with kind := 2 }]) (Sample.sess) (5) (2) ([({ Sample.worker with kind := 2 }, 2)])) ∧
    ((fun (rq : Request) (s : State) (x : Session) (st : Nat) =>
      s.taken Op.HIE_REGISTRY_READ rq x ∧
      ((((beAt 4 2 rq.payload = 0 ∨ 127 < beAt 4 2 rq.payload ∨ 2 < beAt 6 1 rq.payload) ∧ st = Status.BAD_VALUE) ∨
      (1 ≤ beAt 4 2 rq.payload ∧ beAt 4 2 rq.payload ≤ 127 ∧ beAt 6 1 rq.payload ≤ 2 ∧ s.member ≠ 5 ∧ st = Status.NOT_READY))))
      ((Sample.rq Op.HIE_REGISTRY_READ [0, 0, 0, 1, 0, 128, 0, 0])) (Sample.registry [Sample.worker]) (Sample.sess) (Status.BAD_VALUE)) ∧
    ((fun (rq : Request) (s : State) (x : Session) (st : Nat) =>
      s.taken Op.HIE_REGISTRY_READ rq x ∧
      ((((beAt 4 2 rq.payload = 0 ∨ 127 < beAt 4 2 rq.payload ∨ 2 < beAt 6 1 rq.payload) ∧ st = Status.BAD_VALUE) ∨
      (1 ≤ beAt 4 2 rq.payload ∧ beAt 4 2 rq.payload ≤ 127 ∧ beAt 6 1 rq.payload ≤ 2 ∧ s.member ≠ 5 ∧ st = Status.NOT_READY))))
      ((Sample.rq Op.HIE_REGISTRY_READ [0, 0, 0, 1, 0, 127, 2, 0])) ((Sample.state [])) (Sample.sess) (Status.NOT_READY)) ∧
    ((fun (rq : Request) (s : State) (x : Session) (w : Nat) (e : RegEntry) =>
      s.taken Op.HIE_TUNNEL rq x ∧
      s.member = 5 ∧
      beAt 2 2 rq.payload ≠ 0 ∧
      beAt 0 2 rq.payload = w ∧
      s.workerNum w = some e ∧
      s.frozenMaster 2 = false ∧
      0 < s.rd P.HIE_FANOUT_WINDOW)
      ((Sample.rq Op.HIE_TUNNEL ([0, 0, 0, 7, 0, 0, 0, 0] ++ zeros 16))) (Sample.tree) (Sample.sess) (0) (Sample.worker)) ∧
    ((fun (rq : Request) (s : State) (x : Session) (n d : Nat) (ws : List Nat) (p : List Byte) =>
      s.taken Op.HIE_FANOUT rq x ∧
      s.member = 5 ∧
      p = rq.payload ∧
      n = beAt 0 1 p ∧
      d = beAt 2 2 p ∧
      n ≤ 3 ∧
      beAt 4 2 p ≠ 0 ∧
      s.frozenMaster 2 = false ∧
      0 < s.rd P.HIE_FANOUT_WINDOW ∧
      ws = (if n = 0 then (List.range d).map (fun i => beAt (8 + 2 * i) 2 p) else if n = 2 then s.subtree 8 [d]
      else (s.nhp.registry.filter fun e => e.kind == 1 && (n == 1 || e.depth == d)).map RegEntry.number) ∧
      (ws.all fun w => (s.workerNum w).isSome) = true ∧
      ws ≠ [])
      ((Sample.rq Op.HIE_FANOUT ([1, 0, 0, 0, 0, 7, 0, 0] ++ zeros 16))) (Sample.tree) (Sample.sess) (1) (0) ([0]) ([1, 0, 0, 0, 0, 7, 0, 0] ++ zeros 16)) ∧
    ((fun (rq : Request) (s : State) (x : Session) (n d : Nat) (ws : List Nat) (p : List Byte) =>
      s.taken Op.HIE_FANOUT rq x ∧
      s.member = 5 ∧
      p = rq.payload ∧
      n = beAt 0 1 p ∧
      d = beAt 2 2 p ∧
      n ≤ 3 ∧
      beAt 4 2 p ≠ 0 ∧
      s.frozenMaster 2 = false ∧
      0 < s.rd P.HIE_FANOUT_WINDOW ∧
      ws = (if n = 0 then (List.range d).map (fun i => beAt (8 + 2 * i) 2 p) else if n = 2 then s.subtree 8 [d]
      else (s.nhp.registry.filter fun e => e.kind == 1 && (n == 1 || e.depth == d)).map RegEntry.number) ∧
      (ws.all fun w => (s.workerNum w).isSome) = true ∧
      ws ≠ [])
      ((Sample.rq Op.HIE_FANOUT ([0, 0, 0, 1, 0, 7, 0, 0] ++ zeros 18))) (Sample.tree) (Sample.sess) (0) (1) ([0]) ([0, 0, 0, 1, 0, 7, 0, 0] ++ zeros 18)) ∧
    ((fun (rq : Request) (s : State) (x : Session) (n d : Nat) (ws : List Nat) (p : List Byte) =>
      s.taken Op.HIE_FANOUT rq x ∧
      s.member = 5 ∧
      p = rq.payload ∧
      n = beAt 0 1 p ∧
      d = beAt 2 2 p ∧
      n ≤ 3 ∧
      beAt 4 2 p ≠ 0 ∧
      s.frozenMaster 2 = false ∧
      0 < s.rd P.HIE_FANOUT_WINDOW ∧
      ws = (if n = 0 then (List.range d).map (fun i => beAt (8 + 2 * i) 2 p) else if n = 2 then s.subtree 8 [d]
      else (s.nhp.registry.filter fun e => e.kind == 1 && (n == 1 || e.depth == d)).map RegEntry.number) ∧
      ws = [])
      ((Sample.rq Op.HIE_FANOUT ([3, 0, 0, 5, 0, 7, 0, 0] ++ zeros 16))) (Sample.tree) (Sample.sess) (3) (5) ([]) ([3, 0, 0, 5, 0, 7, 0, 0] ++ zeros 16)) ∧
    ((fun (rq : Request) (s : State) (x : Session) (st : Nat) =>
      s.taken Op.HIE_TUNNEL rq x ∧
      (((s.member ≠ 5 ∧ st = Status.NOT_READY) ∨ (s.member = 5 ∧ beAt 2 2 rq.payload = 0 ∧ st = Status.BAD_VALUE) ∨
      (s.member = 5 ∧ beAt 2 2 rq.payload ≠ 0 ∧ s.workerNum (beAt 0 2 rq.payload) = none ∧ st = Status.NOT_FOUND) ∨
      (s.member = 5 ∧ beAt 2 2 rq.payload ≠ 0 ∧ s.workerNum (beAt 0 2 rq.payload) ≠ none ∧ s.frozenMaster 2 = true ∧
        st = Status.ABORTED))))
      ((Sample.rq Op.HIE_TUNNEL ([0, 1, 0, 7, 0, 0, 0, 0] ++ zeros 16))) (Sample.tree) (Sample.sess) (Status.NOT_FOUND)) ∧
    ((fun (rq : Request) (s : State) (x : Session) (st : Nat) =>
      s.taken Op.HIE_TUNNEL rq x ∧
      (((s.member ≠ 5 ∧ st = Status.NOT_READY) ∨ (s.member = 5 ∧ beAt 2 2 rq.payload = 0 ∧ st = Status.BAD_VALUE) ∨
      (s.member = 5 ∧ beAt 2 2 rq.payload ≠ 0 ∧ s.workerNum (beAt 0 2 rq.payload) = none ∧ st = Status.NOT_FOUND) ∨
      (s.member = 5 ∧ beAt 2 2 rq.payload ≠ 0 ∧ s.workerNum (beAt 0 2 rq.payload) ≠ none ∧ s.frozenMaster 2 = true ∧
        st = Status.ABORTED))))
      ((Sample.rq Op.HIE_TUNNEL ([0, 1, 0, 7, 0, 0, 0, 0] ++ zeros 16))) ((Sample.state [])) (Sample.sess) (Status.NOT_READY)) ∧
    ((fun (rq : Request) (s : State) (x : Session) (st : Nat) =>
      s.taken Op.HIE_TUNNEL rq x ∧
      (((s.member ≠ 5 ∧ st = Status.NOT_READY) ∨ (s.member = 5 ∧ beAt 2 2 rq.payload = 0 ∧ st = Status.BAD_VALUE) ∨
      (s.member = 5 ∧ beAt 2 2 rq.payload ≠ 0 ∧ s.workerNum (beAt 0 2 rq.payload) = none ∧ st = Status.NOT_FOUND) ∨
      (s.member = 5 ∧ beAt 2 2 rq.payload ≠ 0 ∧ s.workerNum (beAt 0 2 rq.payload) ≠ none ∧ s.frozenMaster 2 = true ∧
        st = Status.ABORTED))))
      ((Sample.rq Op.HIE_TUNNEL ([0, 1, 0, 0, 0, 0, 0, 0] ++ zeros 16))) (Sample.tree) (Sample.sess) (Status.BAD_VALUE)) ∧
    ((fun (rq : Request) (s : State) (x : Session) (st : Nat) =>
      s.taken Op.HIE_TUNNEL rq x ∧
      (((s.member ≠ 5 ∧ st = Status.NOT_READY) ∨ (s.member = 5 ∧ beAt 2 2 rq.payload = 0 ∧ st = Status.BAD_VALUE) ∨
      (s.member = 5 ∧ beAt 2 2 rq.payload ≠ 0 ∧ s.workerNum (beAt 0 2 rq.payload) = none ∧ st = Status.NOT_FOUND) ∨
      (s.member = 5 ∧ beAt 2 2 rq.payload ≠ 0 ∧ s.workerNum (beAt 0 2 rq.payload) ≠ none ∧ s.frozenMaster 2 = true ∧
        st = Status.ABORTED))))
      ((Sample.rq Op.HIE_TUNNEL ([0, 0, 0, 7, 0, 0, 0, 0] ++ zeros 16))) (Sample.tree.wr P.SPD_FROZEN 0 4) (Sample.sess) (Status.ABORTED)) ∧
    ((fun (rq : Request) (s : State) (x : Session) (st : Nat) =>
      s.taken Op.HIE_FANOUT rq x ∧
      (((s.member ≠ 5 ∧ st = Status.NOT_READY) ∨
      (s.member = 5 ∧ (3 < beAt 0 1 rq.payload ∨ beAt 4 2 rq.payload = 0) ∧ st = Status.BAD_VALUE) ∨
      (s.member = 5 ∧ beAt 0 1 rq.payload ≤ 3 ∧ beAt 4 2 rq.payload ≠ 0 ∧ s.frozenMaster 2 = true ∧ st = Status.ABORTED))))
      ((Sample.rq Op.HIE_FANOUT ([1, 0, 0, 0, 0, 7, 0, 0] ++ zeros 16))) ((Sample.state [])) (Sample.sess) (Status.NOT_READY)) ∧
    ((fun (rq : Request) (s : State) (x : Session) (st : Nat) =>
      s.taken Op.HIE_FANOUT rq x ∧
      (((s.member ≠ 5 ∧ st = Status.NOT_READY) ∨
      (s.member = 5 ∧ (3 < beAt 0 1 rq.payload ∨ beAt 4 2 rq.payload = 0) ∧ st = Status.BAD_VALUE) ∨
      (s.member = 5 ∧ beAt 0 1 rq.payload ≤ 3 ∧ beAt 4 2 rq.payload ≠ 0 ∧ s.frozenMaster 2 = true ∧ st = Status.ABORTED))))
      ((Sample.rq Op.HIE_FANOUT ([4, 0, 0, 0, 0, 7, 0, 0] ++ zeros 16))) (Sample.tree) (Sample.sess) (Status.BAD_VALUE)) ∧
    ((fun (rq : Request) (s : State) (x : Session) (st : Nat) =>
      s.taken Op.HIE_FANOUT rq x ∧
      (((s.member ≠ 5 ∧ st = Status.NOT_READY) ∨
      (s.member = 5 ∧ (3 < beAt 0 1 rq.payload ∨ beAt 4 2 rq.payload = 0) ∧ st = Status.BAD_VALUE) ∨
      (s.member = 5 ∧ beAt 0 1 rq.payload ≤ 3 ∧ beAt 4 2 rq.payload ≠ 0 ∧ s.frozenMaster 2 = true ∧ st = Status.ABORTED))))
      ((Sample.rq Op.HIE_FANOUT ([1, 0, 0, 0, 0, 7, 0, 0] ++ zeros 16))) (Sample.tree.wr P.SPD_FROZEN 0 4) (Sample.sess) (Status.ABORTED)) ∧
    (((fun (s : State) (y : Tunnel) (f : Flight) =>
      s.nhp.tunnels = [y] ∧
      y.flights = [f] ∧
      y.waiting = [] ∧
      y.fan = false ∧
      f.due ≤ s.clock ∧
      (s.sessionUid y.origin.uid).isSome = true)
      ({ Sample.registry [Sample.worker] with nhp := { (Sample.registry [Sample.worker]).nhp with tunnels := [Sample.tunnel] } }) (Sample.tunnel) (⟨4, 0, 0⟩)) ∧
    ((fun (s : State) =>
      ((∀ y ∈ s.nhp.tunnels, ∀ f ∈ y.flights, s.clock < f.due ∧ (s.workerNum f.worker).isSome = true)))
      (Sample.registry [Sample.worker])) ∧
    ((fun (port : Fin 512) (msg b pkt : List Byte) (s : State) (c : Instr) =>
      s.nhpTakes port.val 0x08 msg = true ∧
      b = nhpBody msg ∧
      s.rd P.HIE_PARENT_PORT = port.val ∧
      beAt 4 8 b = s.rd P.HIE_IDENTITY ∧
      s.frozenMaster 2 = false ∧
      ((s.stamped port.val).takeSegment port.val 0x08 b).2 = some pkt ∧
      16 ≤ pkt.length ∧
      asRequest c = some (requestOf .nhp (beAt 0 4 b) pkt))
      (16) (Sample.nhp 8 (tunnelBody 4 0 0 1 (zeros 16))) (tunnelBody 4 0 0 1 (zeros 16)) (zeros 16) (Sample.heard 3) (.unknownOpcode 0 (requestOf .nhp 4 (zeros 16)).2)) ∧
    ((fun (port : Fin 512) (b : List Byte) (type : Nat) (s : State) =>
      beAt 12 1 b = 0)
      (16) (tunnelBody 4 0 0 1 (zeros 16)) (8) ((Sample.state []))) ∧
    ((fun (port : Fin 512) (msg b pkt : List Byte) (s : State) (y : Tunnel) (f : Flight) =>
      s.nhpTakes port.val 0x09 msg = true ∧
      b = nhpBody msg ∧
      s.member = 5 ∧
      s.frozenMaster 2 = false ∧
      beAt 12 1 b = 0 ∧
      pkt = b.drop 16 ∧
      s.nhp.tunnels = [y] ∧
      y.flights = [f] ∧
      f.id = beAt 0 4 b ∧
      s.clock ≤ f.due ∧
      y.fan = false ∧
      (beAt 1 1 pkt).testBit 2 = true ∧
      (s.sessionUid y.origin.uid).isSome = true)
      (16) (Sample.nhp 9 (tunnelBody 4 0 0 1 ([1, 4] ++ zeros 14))) (tunnelBody 4 0 0 1 ([1, 4] ++ zeros 14)) ([1, 4] ++ zeros 14) ({ Sample.registry [Sample.worker] with nhp := { (Sample.registry [Sample.worker]).nhp with tunnels := [Sample.tunnel] } }) (Sample.tunnel) (⟨4, 0, 0⟩))) :=
  ⟨(⟨by decide +kernel, by decide +kernel, by decide +kernel, by decide +kernel, by intro c e; have h2 : _ = true := congrArg Option.isSome e; exact absurd h2 (by decide +kernel)⟩),
   (by beta_reduce; and_intros <;> decide +kernel),
   (⟨by decide +kernel, by decide +kernel, by intro c e; have h2 : _ = true := congrArg Option.isSome e; exact absurd h2 (by decide +kernel)⟩),
   (by beta_reduce; and_intros <;> decide +kernel),
   (⟨Sample.taken_of (by unfold State.reached; decide +kernel) (by decide +kernel) (by decide +kernel), by decide +kernel⟩),
   (⟨Sample.taken_of (by unfold State.reached; decide +kernel) (by decide +kernel) (by decide +kernel), by decide +kernel⟩),
   (⟨Sample.taken_of (by unfold State.reached; decide +kernel) (by decide +kernel) (by decide +kernel), by decide +kernel⟩),
   (⟨Sample.taken_of (by unfold State.reached; decide +kernel) (by decide +kernel) (by decide +kernel), by decide +kernel⟩),
   (⟨Sample.taken_of (by unfold State.reached; decide +kernel) (by decide +kernel) (by decide +kernel), by decide +kernel⟩),
   (⟨Sample.taken_of (by unfold State.reached; decide +kernel) (by decide +kernel) (by decide +kernel), by decide +kernel⟩),
   (⟨Sample.taken_of (by unfold State.reached; decide +kernel) (by decide +kernel) (by decide +kernel), by decide +kernel⟩),
   (⟨Sample.taken_of (by unfold State.reached; decide +kernel) (by decide +kernel) (by decide +kernel), by decide +kernel⟩),
   (⟨Sample.taken_of (by unfold State.reached; decide +kernel) (by decide +kernel) (by decide +kernel), by decide +kernel⟩),
   (⟨Sample.taken_of (by unfold State.reached; decide +kernel) (by decide +kernel) (by decide +kernel), by decide +kernel⟩),
   (⟨Sample.taken_of (by unfold State.reached; decide +kernel) (by decide +kernel) (by decide +kernel), by decide +kernel⟩),
   (⟨Sample.taken_of (by unfold State.reached; decide +kernel) (by decide +kernel) (by decide +kernel), by decide +kernel⟩),
   (⟨Sample.taken_of (by unfold State.reached; decide +kernel) (by decide +kernel) (by decide +kernel), by decide +kernel⟩),
   (⟨Sample.taken_of (by unfold State.reached; decide +kernel) (by decide +kernel) (by decide +kernel), by decide +kernel⟩),
   (⟨Sample.taken_of (by unfold State.reached; decide +kernel) (by decide +kernel) (by decide +kernel), by decide +kernel⟩),
   (by beta_reduce; and_intros <;> decide +kernel)⟩

theorem test_meets_ResetAndStartUp :
    ((fun (pins : Fin 8) (heaterA : Bool) (s : State) (c : Nat) (image : Nat × Nat) =>
      s.power.resetN = false ∧
      s.railsHold = false ∧
      c = (if heaterA then 0 else 1) ∧
      s.flash.bootImage = some image)
      (3) (true) ({ State.reset with flash := { State.reset.flash with imageA := some 1 } }) (0) ((0, 1))) ∧
    ((fun (pins : Fin 8) (heaterA : Bool) (s : State) (c : Nat) (image : Nat × Nat) =>
      s.power.resetN = false ∧
      s.railsHold = false ∧
      c = (if heaterA then 0 else 1) ∧
      s.flash.bootImage = some image)
      (3) (false) ({ State.reset with flash := { State.reset.flash with imageA := none, imageB := some 9 } }) (1) ((1, 9))) ∧
    ((fun (pins : Fin 8) (heaterA : Bool) (s : State) =>
      s.power.resetN = false ∧
      s.railsHold = false ∧
      s.flash.bootImage = none)
      (3) (true) ({ State.reset with flash := { State.reset.flash with imageA := none, imageB := none } })) ∧
    ((fun (pins : Fin 8) (heaterA : Bool) (s : State) =>
      s.power.resetN = false ∧
      s.railsHold = true)
      (3) (true) ({ State.reset with power := { State.reset.power with lostRails := [2] } })) ∧
    ((fun (pins : Fin 8) (heaterA : Bool) (s : State) =>
      s.power.resetN = true)
      (3) (true) ({ State.reset with power := { State.reset.power with resetN := true } })) ∧
    ((fun (s : State) =>
      s.phase = .booting ∧
      s.released + 1200000000 ≤ s.clock)
      ({ State.reset with phase := .booting, clock := 1200000000, flash := { State.reset.flash with certValid := false, serial := 7 } })) ∧
    ((fun (s : State) =>
      ((s.phase ≠ .booting ∨ s.clock < s.released + 1200000000)))
      ({ State.reset with phase := .booting, clock := 1199999999 })) :=
  by beta_reduce; and_intros <;> decide +kernel

theorem test_meets_WakesPowerGoodAndRails :
    (((fun (s : State) (r : WakeReq) (rest : List WakeReq) =>
      s.power.queue = r :: rest ∧
      s.wakeFits r = true)
      ({ (Sample.state [((P.PWR_DIDT_BUDGET, 0), 40)]) with power := { State.reset.power with queue := [⟨.domain, 6, 0, none⟩, ⟨.lane, 5, 0, none⟩] } }) (⟨.domain, 6, 0, none⟩) ([⟨.lane, 5, 0, none⟩])) ∧
    ((fun (s : State) (r : WakeReq) (rest : List WakeReq) =>
      s.power.queue = r :: rest ∧
      s.wakeFits r = true)
      ({ (Sample.state [((P.PWR_DIDT_BUDGET, 0), 30), ((P.PWR_LANE_QUOTA, 0), 9)]) with power := { State.reset.power with queue := [⟨.lane, 5, 0, none⟩] } }) (⟨.lane, 5, 0, none⟩) ([])) ∧
    ((fun (s : State) (r : WakeReq) (rest : List WakeReq) =>
      s.power.queue = r :: rest ∧
      s.wakeFits r = true)
      ({ (Sample.state [((P.PWR_DIDT_BUDGET, 0), 30), ((P.PWR_LANE_QUOTA, 0), 9)]) with power := { State.reset.power with queue := [⟨.cal, 1025, 0, none⟩] } }) (⟨.cal, 1025, 0, none⟩) ([])) ∧
    ((fun (s : State) (r : WakeReq) (rest : List WakeReq) =>
      s.power.queue = r :: rest ∧
      s.wakeFits r = true)
      ({ (Sample.state [((P.PWR_DIDT_BUDGET, 0), 30)]) with power := { State.reset.power with queue := [⟨.domain, 6, 0, none⟩] } }) (⟨.domain, 6, 0, none⟩) ([]))) ∧
    ((fun (s : State) =>
      ((∀ r rest, s.power.queue = r :: rest → s.wakeFits r = false)))
      ((Sample.state []))) ∧
    (((fun (dom : Fin 13) (s : State) =>
      s.rd P.PWR_DOMAIN_STATE dom.val = 2 ∧
      ((∀ r ∈ s.power.queue, ¬ (r.kind = .domain ∧ r.num = dom.val))))
      (1) ((Sample.state [((P.PWR_DOMAIN_STATE, 1), 2)]))) ∧
    ((fun (dom : Fin 13) (s : State) =>
      s.rd P.PWR_DOMAIN_STATE dom.val = 2 ∧
      ((∀ r ∈ s.power.queue, ¬ (r.kind = .domain ∧ r.num = dom.val))))
      (8) ((Sample.state [((P.PWR_DOMAIN_STATE, 6), 3), ((P.PWR_DOMAIN_STATE, 7), 3), ((P.PWR_DOMAIN_STATE, 8), 2)]))) ∧
    ((fun (dom : Fin 13) (s : State) =>
      s.rd P.PWR_DOMAIN_STATE dom.val = 2 ∧
      ((∀ r ∈ s.power.queue, ¬ (r.kind = .domain ∧ r.num = dom.val))))
      (9) ((Sample.state [((P.PWR_DOMAIN_STATE, 9), 2)]))) ∧
    ((fun (dom : Fin 13) (s : State) =>
      s.rd P.PWR_DOMAIN_STATE dom.val ≠ 2)
      (9) ((Sample.state [((P.PWR_DOMAIN_STATE, 9), 1)]))) ∧
    ((fun (dom : Fin 13) (s : State) =>
      s.rd P.PWR_DOMAIN_STATE dom.val = 3)
      (0) ((Sample.state [((P.PWR_DOMAIN_STATE, 0), 3)]))) ∧
    ((fun (dom : Fin 13) (s : State) =>
      s.rd P.PWR_DOMAIN_STATE dom.val = 3)
      (2) ((Sample.state [((P.PWR_DOMAIN_STATE, 2), 3), ((P.COR_STATE, 1), 3)]))) ∧
    ((fun (dom : Fin 13) (s : State) =>
      s.rd P.PWR_DOMAIN_STATE dom.val = 3)
      (3) ((Sample.state [((P.PWR_DOMAIN_STATE, 3), 3)]))) ∧
    ((fun (dom : Fin 13) (s : State) =>
      s.rd P.PWR_DOMAIN_STATE dom.val = 3)
      (5) ((Sample.state [((P.PWR_DOMAIN_STATE, 5), 3)])))) ∧
    (((fun (dom : Fin 13) (s : State) =>
      s.rd P.PWR_DOMAIN_STATE dom.val = 3)
      (7) ((Sample.state [((P.PWR_DOMAIN_STATE, 7), 3), ((P.FAB_STATE, 0), 2)]))) ∧
    ((fun (dom : Fin 13) (s : State) =>
      s.rd P.PWR_DOMAIN_STATE dom.val = 3)
      (12) ((Sample.state [((P.PWR_DOMAIN_STATE, 12), 3), ((P.LAN_STATE, 3), 4)]))) ∧
    ((fun (dom : Fin 13) (s : State) =>
      s.rd P.PWR_DOMAIN_STATE dom.val = 3)
      (11) ((Sample.state [((P.PWR_DOMAIN_STATE, 11), 3)]))) ∧
    ((fun (dom : Fin 13) (s : State) =>
      s.rd P.PWR_DOMAIN_STATE dom.val ≠ 3)
      (9) ((Sample.state [((P.PWR_DOMAIN_STATE, 9), 1)]))) ∧
    ((fun (rail : Fin 8) (mv : BitVec 16) (s : State) =>
      s.railInside rail.val mv.toNat = false ∧
      rail.val ∉ s.power.lostRails)
      (0) (500) ((Sample.state []))) ∧
    ((fun (rail : Fin 8) (mv : BitVec 16) (s : State) =>
      s.railInside rail.val mv.toNat = false ∧
      rail.val ∉ s.power.lostRails)
      (3) (500) ((Sample.state [((P.LAN_STATE, 3), 4)]))) ∧
    ((fun (rail : Fin 8) (mv : BitVec 16) (s : State) =>
      s.railInside rail.val mv.toNat = false ∧
      rail.val ∉ s.power.lostRails)
      (4) (500) ((Sample.state [((P.LAN_STATE, 3), 4)]))) ∧
    ((fun (rail : Fin 8) (mv : BitVec 16) (s : State) =>
      s.railInside rail.val mv.toNat = false ∧
      rail.val ∉ s.power.lostRails)
      (6) (500) ((Sample.state [((P.LAN_STATE, 3), 4)])))) ∧
    (((fun (rail : Fin 8) (mv : BitVec 16) (s : State) =>
      ((s.railInside rail.val mv.toNat = true ∨ rail.val ∈ s.power.lostRails)))
      (3) (900) ((Sample.state []))) ∧
    ((fun (rail : Fin 8) (mv : BitVec 16) (pins : Fin 8) (heaterA : Bool) (s : State) =>
      rail.val ∈ s.power.lostRails ∧
      s.railInside rail.val mv.toNat = true)
      (4) (2500) (3) (true) ({ (Sample.state []) with power := { State.reset.power with lostRails := [4] } })) ∧
    ((fun (rail : Fin 8) (mv : BitVec 16) (pins : Fin 8) (heaterA : Bool) (s : State) =>
      rail.val ∈ s.power.lostRails ∧
      s.railInside rail.val mv.toNat = true)
      (1) (750) (3) (true) ({ (Sample.state []) with power := { State.reset.power with lostRails := [1], resetN := true } })) ∧
    ((fun (rail : Fin 8) (mv : BitVec 16) (pins : Fin 8) (heaterA : Bool) (s : State) =>
      rail.val ∈ s.power.lostRails ∧
      s.railInside rail.val mv.toNat = true)
      (6) (3300) (3) (true) ({ (Sample.state []) with power := { State.reset.power with lostRails := [6], resetN := true } })) ∧
    ((fun (rail : Fin 8) (mv : BitVec 16) (pins : Fin 8) (heaterA : Bool) (s : State) =>
      rail.val ∈ s.power.lostRails ∧
      s.railInside rail.val mv.toNat = true)
      (0) (750) (3) (true) ({ (Sample.state []) with power := { State.reset.power with lostRails := [0] } })) ∧
    ((fun (rail : Fin 8) (mv : BitVec 16) (pins : Fin 8) (heaterA : Bool) (s : State) =>
      rail.val ∈ s.power.lostRails ∧
      s.railInside rail.val mv.toNat = true)
      (5) (1800) (3) (true) ({ (Sample.state []) with power := { State.reset.power with lostRails := [5, 2], resetN := true } })) ∧
    ((fun (rail : Fin 8) (mv : BitVec 16) (pins : Fin 8) (heaterA : Bool) (s : State) =>
      ((rail.val ∉ s.power.lostRails ∨ s.railInside rail.val mv.toNat = false)))
      (3) (900) (3) (true) ((Sample.state [])))) :=
  ⟨(by beta_reduce; and_intros <;> decide +kernel),
   (by intro r rest h; exact absurd (congrArg List.length h) (by rw [List.length_cons]; exact Nat.ne_of_lt (Nat.succ_pos _))),
   (by beta_reduce; and_intros <;> decide +kernel),
   (by beta_reduce; and_intros <;> decide +kernel),
   (by beta_reduce; and_intros <;> decide +kernel)⟩

theorem test_meets_ShutterModeAndHealth :
    ((fun (rq : Request) (s : State) (x : Session) =>
      s.taken Op.SHUTTER_ENTER rq x)
      ((Sample.rq Op.SHUTTER_ENTER [])) ((Sample.state [((P.FAB_STATE, 0), 2), ((P.PWR_DOMAIN_STATE, 9), 3), ((P.LAN_STATE, 44), 5)])) (Sample.sess)) ∧
    ((fun (rq : Request) (s : State) (x : Session) =>
      s.taken Op.SHUTTER_ENTER rq x)
      ((Sample.rq Op.SHUTTER_ENTER [])) ((Sample.state [((P.FAB_STATE, 0), 1), ((P.PWR_SHUTTER_STATE, 0), 1)])) (Sample.sess)) ∧
    (((fun (s : State) =>
      s.rd P.PWR_SHUTTER_STATE = 1 ∧
      s.rd P.FAB_STATE ≤ 1)
      ((Sample.state [((P.PWR_SHUTTER_STATE, 0), 1), ((P.FAB_STATE, 0), 1), ((P.PWR_DOMAIN_STATE, 7), 3)]))) ∧
    ((fun (s : State) =>
      ((s.rd P.PWR_SHUTTER_STATE ≠ 1 ∨ 1 < s.rd P.FAB_STATE)))
      ((Sample.state [((P.PWR_SHUTTER_STATE, 0), 1), ((P.FAB_STATE, 0), 3)])))) ∧
    ((fun (rq : Request) (s : State) (x : Session) =>
      s.taken Op.SHUTTER_LEAVE rq x ∧
      s.rd P.PWR_SHUTTER_STATE = 2 ∧
      ((s.rd P.PWR_SHUTTER_CAUSE = 0 ∨ s.rd P.PWR_SHUTTER_CAUSE = 8)))
      ((Sample.rq Op.SHUTTER_LEAVE [])) ((Sample.state [((P.PWR_SHUTTER_STATE, 0), 2), ((P.PWR_SHUTTER_CAUSE, 0), 8)])) (Sample.sess)) ∧
    ((fun (rq : Request) (s : State) (x : Session) (st : Nat) =>
      s.taken Op.SHUTTER_LEAVE rq x ∧
      (((s.rd P.PWR_SHUTTER_STATE = 0 ∧ st = Status.OK) ∨ (s.rd P.PWR_SHUTTER_STATE ∈ [1, 3] ∧ st = Status.NOT_READY) ∨
      (s.rd P.PWR_SHUTTER_STATE = 2 ∧ clrBit 3 (s.rd P.PWR_SHUTTER_CAUSE) ≠ 0 ∧ st = Status.NOT_READY))))
      ((Sample.rq Op.SHUTTER_LEAVE [])) ((Sample.state [])) (Sample.sess) (Status.OK)) ∧
    ((fun (rq : Request) (s : State) (x : Session) (st : Nat) =>
      s.taken Op.SHUTTER_LEAVE rq x ∧
      (((s.rd P.PWR_SHUTTER_STATE = 0 ∧ st = Status.OK) ∨ (s.rd P.PWR_SHUTTER_STATE ∈ [1, 3] ∧ st = Status.NOT_READY) ∨
      (s.rd P.PWR_SHUTTER_STATE = 2 ∧ clrBit 3 (s.rd P.PWR_SHUTTER_CAUSE) ≠ 0 ∧ st = Status.NOT_READY))))
      ((Sample.rq Op.SHUTTER_LEAVE [])) ((Sample.state [((P.PWR_SHUTTER_STATE, 0), 2), ((P.PWR_SHUTTER_CAUSE, 0), 9)])) (Sample.sess) (Status.NOT_READY)) ∧
    ((fun (rq : Request) (s : State) (x : Session) (st : Nat) =>
      s.taken Op.SHUTTER_LEAVE rq x ∧
      (((s.rd P.PWR_SHUTTER_STATE = 0 ∧ st = Status.OK) ∨ (s.rd P.PWR_SHUTTER_STATE ∈ [1, 3] ∧ st = Status.NOT_READY) ∨
      (s.rd P.PWR_SHUTTER_STATE = 2 ∧ clrBit 3 (s.rd P.PWR_SHUTTER_CAUSE) ≠ 0 ∧ st = Status.NOT_READY))))
      ((Sample.rq Op.SHUTTER_LEAVE [])) ((Sample.state [((P.PWR_SHUTTER_STATE, 0), 3)])) (Sample.sess) (Status.NOT_READY)) ∧
    (((fun (s : State) =>
      s.rd P.PWR_SHUTTER_STATE = 3 ∧
      ((∀ d ∈ [6, 7, 8, 9, 10], s.rd P.PWR_DOMAIN_STATE d = 3)) ∧
      s.power.queue = [])
      ((Sample.state [((P.PWR_SHUTTER_STATE, 0), 3), ((P.PWR_DOMAIN_STATE, 6), 3), ((P.PWR_DOMAIN_STATE, 7), 3), ((P.PWR_DOMAIN_STATE, 8), 3), ((P.PWR_DOMAIN_STATE, 9), 3), ((P.PWR_DOMAIN_STATE, 10), 3), ((P.LAN_ENABLE, 44), 1)]))) ∧
    ((fun (s : State) =>
      ((s.rd P.PWR_SHUTTER_STATE ≠ 3 ∨ s.rd P.PWR_DOMAIN_STATE 6 ≠ 3 ∨ s.rd P.PWR_DOMAIN_STATE 7 ≠ 3 ∨
      s.rd P.PWR_DOMAIN_STATE 8 ≠ 3 ∨ s.rd P.PWR_DOMAIN_STATE 9 ≠ 3 ∨ s.rd P.PWR_DOMAIN_STATE 10 ≠ 3)))
      ((Sample.state [((P.PWR_SHUTTER_STATE, 0), 3)]))) ∧
    ((fun (cause : Fin 4) (s : State) =>
      (((cause.val = 0 ∧ ∀ d < 3, s.rdS 16 P.HLT_DIE_TEMP d < s.rd P.PWR_SHUTTER_TEMP_CLEAR) ∨
      (cause.val = 1 ∧ s.power.vcoreGood.any (fun c => decide (c + 1000000000 ≤ s.clock)) = true) ∨
      (cause.val = 2 ∧ s.power.fwRestart + 1000000000 ≤ s.clock))))
      (0) ({ (Sample.state [((P.PWR_SHUTTER_CAUSE, 0), 5)]) with power := { State.reset.power with vcoreGood := some 5 } })) ∧
    ((fun (cause : Fin 4) (s : State) =>
      (((cause.val = 0 ∧ ∀ d < 3, s.rdS 16 P.HLT_DIE_TEMP d < s.rd P.PWR_SHUTTER_TEMP_CLEAR) ∨
      (cause.val = 1 ∧ s.power.vcoreGood.any (fun c => decide (c + 1000000000 ≤ s.clock)) = true) ∨
      (cause.val = 2 ∧ s.power.fwRestart + 1000000000 ≤ s.clock))))
      (1) ({ (Sample.state [((P.PWR_SHUTTER_CAUSE, 0), 2)]) with clock := 1000000005, power := { State.reset.power with vcoreGood := some 5 } })) ∧
    ((fun (cause : Fin 4) (s : State) =>
      (((cause.val = 0 ∧ ∀ d < 3, s.rdS 16 P.HLT_DIE_TEMP d < s.rd P.PWR_SHUTTER_TEMP_CLEAR) ∨
      (cause.val = 1 ∧ s.power.vcoreGood.any (fun c => decide (c + 1000000000 ≤ s.clock)) = true) ∨
      (cause.val = 2 ∧ s.power.fwRestart + 1000000000 ≤ s.clock))))
      (2) ({ (Sample.state [((P.PWR_SHUTTER_CAUSE, 0), 4)]) with clock := 1000000005, power := { State.reset.power with vcoreGood := some 5 } })) ∧
    ((fun (cause : Fin 4) (s : State) =>
      ((cause.val = 3 ∨
      (cause.val = 0 ∧ (s.rd P.PWR_SHUTTER_TEMP_CLEAR ≤ s.rdS 16 P.HLT_DIE_TEMP 0 ∨
        s.rd P.PWR_SHUTTER_TEMP_CLEAR ≤ s.rdS 16 P.HLT_DIE_TEMP 1 ∨ s.rd P.PWR_SHUTTER_TEMP_CLEAR ≤ s.rdS 16 P.HLT_DIE_TEMP 2)) ∨
      (cause.val = 1 ∧ s.power.vcoreGood.any (fun c => decide (c + 1000000000 ≤ s.clock)) = false) ∨ (cause.val = 2 ∧ s.clock < s.power.fwRestart + 1000000000))))
      (3) ((Sample.state [((P.PWR_SHUTTER_CAUSE, 0), 8)]))) ∧
    ((fun (cause : Fin 4) (s : State) =>
      ((cause.val = 3 ∨
      (cause.val = 0 ∧ (s.rd P.PWR_SHUTTER_TEMP_CLEAR ≤ s.rdS 16 P.HLT_DIE_TEMP 0 ∨
        s.rd P.PWR_SHUTTER_TEMP_CLEAR ≤ s.rdS 16 P.HLT_DIE_TEMP 1 ∨ s.rd P.PWR_SHUTTER_TEMP_CLEAR ≤ s.rdS 16 P.HLT_DIE_TEMP 2)) ∨
      (cause.val = 1 ∧ s.power.vcoreGood.any (fun c => decide (c + 1000000000 ≤ s.clock)) = false) ∨ (cause.val = 2 ∧ s.clock < s.power.fwRestart + 1000000000))))
      (2) ({ (Sample.state [((P.PWR_SHUTTER_CAUSE, 0), 4)]) with clock := 999999999 })) ∧
    ((fun (port : Fin 512) (bytes : List Byte) (raw : RawStamp) (s u : State) (z : Stamp) (f : Frame) (vid : Nat) =>
      s.rd P.PWR_SHUTTER_STATE ≠ 0 ∧
      keelPort port.val = true ∧
      s.portUp port.val = true ∧
      fcsGood bytes = true ∧
      64 ≤ bytes.length ∧
      bytes.length ≤ s.rd P.PRT_MAX_FRAME port.val ∧
      isMacControl bytes = false ∧
      isNhp bytes = false ∧
      s.ptpServed port.val bytes = false ∧
      s.rxStamp port.val raw = (u, z) ∧
      vid = (tagVid bytes).getD (s.rd P.TBL_PVID port.val) ∧
      f = u.newFrame port.val bytes ⟨vid, s.rd P.TBL_PORT_GROUP port.val * 4096 + vid, 0, 0, port.val⟩ z bytes.length false true none)
      (3) (withFcs (zeros 60)) (⟨0, 0, 0, 0, 0⟩) ((Sample.state [((P.PWR_SHUTTER_STATE, 0), 2), ((P.PRT_LINK_UP, 3), 1)])) (((Sample.state [((P.PWR_SHUTTER_STATE, 0), 2), ((P.PRT_LINK_UP, 3), 1)]).rxStamp 3 ⟨0, 0, 0, 0, 0⟩).1) (((Sample.state [((P.PWR_SHUTTER_STATE, 0), 2), ((P.PRT_LINK_UP, 3), 1)]).rxStamp 3 ⟨0, 0, 0, 0, 0⟩).2) (((Sample.state [((P.PWR_SHUTTER_STATE, 0), 2), ((P.PRT_LINK_UP, 3), 1)]).rxStamp 3 ⟨0, 0, 0, 0, 0⟩).1.newFrame 3 (withFcs (zeros 60)) ⟨(Sample.state []).rd P.TBL_PVID 3, (Sample.state []).rd P.TBL_PORT_GROUP 3 * 4096 + (Sample.state []).rd P.TBL_PVID 3, 0, 0, 3⟩ ((Sample.state [((P.PWR_SHUTTER_STATE, 0), 2), ((P.PRT_LINK_UP, 3), 1)]).rxStamp 3 ⟨0, 0, 0, 0, 0⟩).2 64 false true none) ((Sample.state []).rd P.TBL_PVID 3))) ∧
    (((fun (port : Fin 512) (bytes : List Byte) (bad : Bool) (raw : RawStamp) (s : State) =>
      ((s.rd P.PWR_SHUTTER_STATE = 0 ∨ keelPort port.val = false ∨ s.portUp port.val = false ∨
      (bad = false ∧ fcsGood bytes = true ∧ 64 ≤ bytes.length ∧ bytes.length ≤ s.rd P.PRT_MAX_FRAME port.val ∧
        (isMacControl bytes = true ∨ isNhp bytes = true ∨ s.ptpServed port.val bytes = true)))))
      (3) (withFcs (zeros 60)) (true) (⟨0, 0, 0, 0, 0⟩) ((Sample.state []))) ∧
    ((fun (port : Fin 512) (bytes : List Byte) (bad : Bool) (raw : RawStamp) (s : State) (c : Nat) =>
      s.rd P.PWR_SHUTTER_STATE ≠ 0 ∧
      keelPort port.val = true ∧
      s.portUp port.val = true ∧
      s.rd P.OBS_FROZEN = 0 ∧
      ((((bad = true ∨ fcsGood bytes = false) ∧ c = P.PRT_RX_FCS_ERR) ∨
      (bad = false ∧ fcsGood bytes = true ∧ bytes.length < 64 ∧ c = P.PRT_RX_RUNT) ∨
      (bad = false ∧ fcsGood bytes = true ∧ 64 ≤ bytes.length ∧ s.rd P.PRT_MAX_FRAME port.val < bytes.length ∧
        c = P.PRT_RX_OVERSIZE))))
      (3) (zeros 64) (false) (⟨0, 0, 0, 0, 0⟩) ((Sample.state [((P.PWR_SHUTTER_STATE, 0), 2), ((P.PRT_LINK_UP, 3), 1)])) (P.PRT_RX_FCS_ERR)) ∧
    ((fun (port : Fin 512) (bytes : List Byte) (bad : Bool) (raw : RawStamp) (s : State) (c : Nat) =>
      s.rd P.PWR_SHUTTER_STATE ≠ 0 ∧
      keelPort port.val = true ∧
      s.portUp port.val = true ∧
      s.rd P.OBS_FROZEN = 0 ∧
      ((((bad = true ∨ fcsGood bytes = false) ∧ c = P.PRT_RX_FCS_ERR) ∨
      (bad = false ∧ fcsGood bytes = true ∧ bytes.length < 64 ∧ c = P.PRT_RX_RUNT) ∨
      (bad = false ∧ fcsGood bytes = true ∧ 64 ≤ bytes.length ∧ s.rd P.PRT_MAX_FRAME port.val < bytes.length ∧
        c = P.PRT_RX_OVERSIZE))))
      (3) (withFcs (zeros 50)) (false) (⟨0, 0, 0, 0, 0⟩) ((Sample.state [((P.PWR_SHUTTER_STATE, 0), 2), ((P.PRT_LINK_UP, 3), 1)])) (P.PRT_RX_RUNT)) ∧
    ((fun (port : Fin 512) (bytes : List Byte) (bad : Bool) (raw : RawStamp) (s : State) (c : Nat) =>
      s.rd P.PWR_SHUTTER_STATE ≠ 0 ∧
      keelPort port.val = true ∧
      s.portUp port.val = true ∧
      s.rd P.OBS_FROZEN = 0 ∧
      ((((bad = true ∨ fcsGood bytes = false) ∧ c = P.PRT_RX_FCS_ERR) ∨
      (bad = false ∧ fcsGood bytes = true ∧ bytes.length < 64 ∧ c = P.PRT_RX_RUNT) ∨
      (bad = false ∧ fcsGood bytes = true ∧ 64 ≤ bytes.length ∧ s.rd P.PRT_MAX_FRAME port.val < bytes.length ∧
        c = P.PRT_RX_OVERSIZE))))
      (3) (withFcs (zeros 61)) (false) (⟨0, 0, 0, 0, 0⟩) ((Sample.state [((P.PWR_SHUTTER_STATE, 0), 2), ((P.PRT_LINK_UP, 3), 1), ((P.PRT_MAX_FRAME, 3), 64)])) (P.PRT_RX_OVERSIZE))) ∧
    ((fun (rq : Request) (s : State) (x : Session) (mask : Nat) =>
      s.taken Op.STICKY_CLEAR rq x ∧
      mask = beAt 0 4 rq.payload ∧
      mask ≠ 0 ∧
      mask < 2 ^ 23)
      ((Sample.rq Op.STICKY_CLEAR [0, 4, 0, 1, 1, 0, 0, 0])) ({ (Sample.state [((P.HLT_STICKY, 0), 262145)]) with power := { State.reset.power with lostRails := [3] }, fault := some ⟨0, 0, 0, 0, 0, 1, 0, 1⟩ }) (Sample.sess) (262145)) ∧
    ((fun (rq : Request) (s : State) (x : Session) (mask : Nat) =>
      s.taken Op.STICKY_CLEAR rq x ∧
      mask = beAt 0 4 rq.payload ∧
      mask ≠ 0 ∧
      mask < 2 ^ 23)
      ((Sample.rq Op.STICKY_CLEAR [0, 0, 0, 1, 1, 0, 0, 0])) ({ (Sample.state [((P.HLT_STICKY, 0), 3)]) with fault := some ⟨0, 0, 0, 0, 0, 1, 0, 1⟩ }) (Sample.sess) (1)) ∧
    ((fun (rq : Request) (s : State) (x : Session) =>
      s.taken Op.STICKY_CLEAR rq x ∧
      ((beAt 0 4 rq.payload = 0 ∨ 2 ^ 23 ≤ beAt 0 4 rq.payload)))
      ((Sample.rq Op.STICKY_CLEAR [0, 128, 0, 1, 1, 0, 0, 0])) ((Sample.state [((P.HLT_STICKY, 0), 3)])) (Sample.sess)) ∧
    ((fun (rq : Request) (s : State) (x : Session) =>
      s.taken Op.FAULT_READ rq x)
      ((Sample.rq Op.FAULT_READ [])) ({ (Sample.state [((P.HLT_STICKY, 0), 3)]) with fault := some ⟨0, 0, 0, 0, 0, 1, 0, 1⟩ }) (Sample.sess)) ∧
    ((fun (rq : Request) (s : State) (x : Session) (k i : Nat) (w : Wear) =>
      s.taken Op.WEAR_GET rq x ∧
      k = beAt 0 1 rq.payload ∧
      i = beAt 2 2 rq.payload ∧
      k ≤ 2 ∧
      i < wearObjects k ∧
      w = s.flash.wearOf k i)
      ((Sample.rq Op.WEAR_GET [1, 0, 0, 5])) ((Sample.state [])) (Sample.sess) (1) (5) ((Sample.state []).flash.wearOf 1 5)) ∧
    ((fun (rq : Request) (s : State) (x : Session) =>
      s.taken Op.WEAR_GET rq x ∧
      ((2 < beAt 0 1 rq.payload ∨ wearObjects (beAt 0 1 rq.payload) ≤ beAt 2 2 rq.payload)))
      ((Sample.rq Op.WEAR_GET [1, 0, 0, 160])) ((Sample.state [])) (Sample.sess)) ∧
    (((fun (kind : Fin 3) (index : Fin 160) (reading : BitVec 32) (s : State) (old : Wear) =>
      index.val < wearObjects kind.val ∧
      old = s.flash.wearOf kind.val index.val)
      (1) (5) (77) ((Sample.state [])) ((Sample.state []).flash.wearOf 1 5)) ∧
    ((fun (kind : Fin 3) (index : Fin 160) (reading : BitVec 32) (s : State) =>
      wearObjects kind.val ≤ index.val)
      (2) (2) (77) ((Sample.state [])))) :=
  ⟨(Sample.taken_of (by unfold State.reached; decide +kernel) (by decide +kernel) (by decide +kernel)),
   (Sample.taken_of (by unfold State.reached; decide +kernel) (by decide +kernel) (by decide +kernel)),
   (by beta_reduce; and_intros <;> decide +kernel),
   (⟨Sample.taken_of (by unfold State.reached; decide +kernel) (by decide +kernel) (by decide +kernel), by decide +kernel⟩),
   (⟨Sample.taken_of (by unfold State.reached; decide +kernel) (by decide +kernel) (by decide +kernel), by decide +kernel⟩),
   (⟨Sample.taken_of (by unfold State.reached; decide +kernel) (by decide +kernel) (by decide +kernel), by decide +kernel⟩),
   (⟨Sample.taken_of (by unfold State.reached; decide +kernel) (by decide +kernel) (by decide +kernel), by decide +kernel⟩),
   (by beta_reduce; and_intros <;> decide +kernel),
   (by beta_reduce; and_intros <;> decide +kernel),
   (⟨Sample.taken_of (by unfold State.reached; decide +kernel) (by decide +kernel) (by decide +kernel), by decide +kernel⟩),
   (⟨Sample.taken_of (by unfold State.reached; decide +kernel) (by decide +kernel) (by decide +kernel), by decide +kernel⟩),
   (⟨Sample.taken_of (by unfold State.reached; decide +kernel) (by decide +kernel) (by decide +kernel), by decide +kernel⟩),
   (Sample.taken_of (by unfold State.reached; decide +kernel) (by decide +kernel) (by decide +kernel)),
   (⟨Sample.taken_of (by unfold State.reached; decide +kernel) (by decide +kernel) (by decide +kernel), by decide +kernel⟩),
   (⟨Sample.taken_of (by unfold State.reached; decide +kernel) (by decide +kernel) (by decide +kernel), by decide +kernel⟩),
   (by beta_reduce; and_intros <;> decide +kernel)⟩

theorem test_meets_CountersFreezeAndSnapshot :
    ((fun (rq : Request) (s : State) (x : Session) =>
      s.taken Op.OBS_FREEZE rq x ∧
      beAt 0 1 rq.payload = 1)
      ((Sample.rq Op.OBS_FREEZE [1, 0, 0, 0])) ((Sample.state [])) (Sample.sess)) ∧
    ((fun (rq : Request) (s : State) (x : Session) =>
      s.taken Op.OBS_FREEZE rq x ∧
      beAt 0 1 rq.payload = 0 ∧
      s.rd P.OBS_FROZEN = 1 ∧
      (s.hidden.map Prod.fst).Nodup)
      ((Sample.rq Op.OBS_FREEZE [0, 0, 0, 0])) ({ (Sample.state [((P.OBS_FROZEN, 0), 1), ((P.PRT_RX_RUNT, 3), 5)]) with hidden := [(2051, 7)] }) (Sample.sess)) ∧
    ((fun (rq : Request) (s : State) (x : Session) (st : Nat) =>
      s.taken Op.OBS_FREEZE rq x ∧
      (((beAt 0 1 rq.payload = 0 ∧ s.rd P.OBS_FROZEN = 0 ∧ st = Status.OK) ∨ (1 < beAt 0 1 rq.payload ∧ st = Status.BAD_VALUE))))
      ((Sample.rq Op.OBS_FREEZE [0, 0, 0, 0])) ((Sample.state [])) (Sample.sess) (Status.OK)) ∧
    ((fun (rq : Request) (s : State) (x : Session) (st : Nat) =>
      s.taken Op.OBS_FREEZE rq x ∧
      (((beAt 0 1 rq.payload = 0 ∧ s.rd P.OBS_FROZEN = 0 ∧ st = Status.OK) ∨ (1 < beAt 0 1 rq.payload ∧ st = Status.BAD_VALUE))))
      ((Sample.rq Op.OBS_FREEZE [2, 0, 0, 0])) ((Sample.state [])) (Sample.sess) (Status.BAD_VALUE)) ∧
    ((fun (rq : Request) (s : State) (x : Session) (st : Nat) =>
      s.taken Op.OBS_SNAPSHOT rq x ∧
      s.canonicalForm ∧
      s.obsJob = none ∧
      ((((beAt 0 1 rq.payload).testBit 0 = false ∧ st = Status.OK) ∨ ((beAt 0 1 rq.payload).testBit 0 = true ∧
      instant (beAt 2 6 rq.payload) (beAt 8 4 rq.payload) < s.modNs ∧ st = Status.DONE_LATE))))
      ((Sample.rq Op.OBS_SNAPSHOT (2 :: zeros 15))) ((Sample.state [((P.PRT_RX_RUNT, 3), 5), ((P.OBS_OVF, 32), 4)])) (Sample.sess) (Status.OK)) ∧
    ((fun (rq : Request) (s : State) (x : Session) (st : Nat) =>
      s.taken Op.OBS_SNAPSHOT rq x ∧
      s.canonicalForm ∧
      s.obsJob = none ∧
      ((((beAt 0 1 rq.payload).testBit 0 = false ∧ st = Status.OK) ∨ ((beAt 0 1 rq.payload).testBit 0 = true ∧
      instant (beAt 2 6 rq.payload) (beAt 8 4 rq.payload) < s.modNs ∧ st = Status.DONE_LATE))))
      ((Sample.rq Op.OBS_SNAPSHOT (1 :: zeros 15))) ({ (Sample.state [((P.PRT_RX_RUNT, 3), 5)]) with time := { State.reset.time with out := ⟨0, 2⟩ } }) (Sample.sess) (Status.DONE_LATE)) ∧
    ((fun (rq : Request) (s : State) (x : Session) (due : Nat) =>
      s.taken Op.OBS_SNAPSHOT rq x ∧
      (beAt 0 1 rq.payload).testBit 0 = true ∧
      due = instant (beAt 2 6 rq.payload) (beAt 8 4 rq.payload) ∧
      s.modNs ≤ due)
      ((Sample.rq Op.OBS_SNAPSHOT (1 :: zeros 15))) ((Sample.state [])) (Sample.sess) (0)) ∧
    ((fun (s : State) (j : SnapJob) =>
      s.obsJob = some j ∧
      j.due ≤ s.modNs ∧
      s.canonicalForm ∧
      (s.sessionUid j.origin.uid).isSome = true)
      ({ (Sample.state [((P.PRT_RX_RUNT, 3), 5), ((P.OBS_SNAP_PENDING, 0), 0)]) with obsJob := some ⟨originOf Sample.sess Op.OBS_SNAPSHOT (Sample.rq Op.OBS_SNAPSHOT (1 :: zeros 15)), 0, false⟩ }) (⟨originOf Sample.sess Op.OBS_SNAPSHOT (Sample.rq Op.OBS_SNAPSHOT (1 :: zeros 15)), 0, false⟩)) ∧
    ((fun (s : State) =>
      (s.obsJob.all fun j => decide (s.modNs < j.due)) = true)
      ((Sample.state []))) ∧
    ((fun (rq : Request) (s : State) (x : Session) (start n : Nat) =>
      s.taken Op.OBS_TRACE_READ rq x ∧
      beAt 0 8 rq.payload ≤ s.rd P.OBS_TRACE_HEAD ∧
      1 ≤ beAt 8 2 rq.payload ∧
      beAt 8 2 rq.payload ≤ 127 ∧
      start = max (beAt 0 8 rq.payload) (s.rd P.OBS_TRACE_OLDEST) ∧
      n = min (beAt 8 2 rq.payload) (s.rd P.OBS_TRACE_HEAD - start))
      ((Sample.rq Op.OBS_TRACE_READ (zeros 9 ++ (2 :: zeros 6)))) ((Sample.state [((P.OBS_TRACE_HEAD, 0), 9), ((P.OBS_TRACE_OLDEST, 0), 1)])) (Sample.sess) (1) (2)) ∧
    ((fun (rq : Request) (s : State) (x : Session) =>
      s.taken Op.OBS_TRACE_READ rq x ∧
      ((s.rd P.OBS_TRACE_HEAD < beAt 0 8 rq.payload ∨ beAt 8 2 rq.payload = 0 ∨ 127 < beAt 8 2 rq.payload)))
      ((Sample.rq Op.OBS_TRACE_READ (zeros 9 ++ (128 :: zeros 6)))) ((Sample.state [((P.OBS_TRACE_HEAD, 0), 9)])) (Sample.sess)) ∧
    (((fun (s : State) (first n : Nat) =>
      s.rdb P.OBS_WIN_ENABLE = true ∧
      s.frozenMaster 1 = false ∧
      first = max (s.rd P.OBS_WIN_NEXT) (s.rd P.OBS_TRACE_OLDEST) ∧
      n = min 45 (s.rd P.OBS_TRACE_HEAD - first) ∧
      0 < n ∧
      ((n = 45 ∨ s.windowAt.all (fun c => decide (c + 10000 ≤ s.clock)) = true)))
      ((Sample.state [((P.OBS_WIN_ENABLE, 0), 1), ((P.OBS_TRACE_HEAD, 0), 9), ((P.OBS_TRACE_OLDEST, 0), 4), ((P.OBS_WIN_NEXT, 0), 2)])) (4) (5)) ∧
    ((fun (s : State) =>
      ((s.rdb P.OBS_WIN_ENABLE = false ∨ s.frozenMaster 1 = true ∨
      s.rd P.OBS_TRACE_HEAD ≤ s.rd P.OBS_WIN_NEXT ∨
      (s.rd P.OBS_TRACE_HEAD - max (s.rd P.OBS_WIN_NEXT) (s.rd P.OBS_TRACE_OLDEST) < 45 ∧
        s.windowAt.all (fun c => decide (c + 10000 ≤ s.clock)) = false))))
      ((Sample.state [((P.OBS_WIN_ENABLE, 0), 1)])))) :=
  ⟨(⟨Sample.taken_of (by unfold State.reached; decide +kernel) (by decide +kernel) (by decide +kernel), by decide +kernel⟩),
   (⟨Sample.taken_of (by unfold State.reached; decide +kernel) (by decide +kernel) (by decide +kernel), by decide +kernel⟩),
   (⟨Sample.taken_of (by unfold State.reached; decide +kernel) (by decide +kernel) (by decide +kernel), by decide +kernel⟩),
   (⟨Sample.taken_of (by unfold State.reached; decide +kernel) (by decide +kernel) (by decide +kernel), by decide +kernel⟩),
   (⟨Sample.taken_of (by unfold State.reached; decide +kernel) (by decide +kernel) (by decide +kernel), by refine ⟨?_, ?_, ?_⟩ <;> decide +kernel, by decide +kernel⟩),
   (⟨Sample.taken_of (by unfold State.reached; decide +kernel) (by decide +kernel) (by decide +kernel), by refine ⟨?_, ?_, ?_⟩ <;> decide +kernel, by decide +kernel⟩),
   (⟨Sample.taken_of (by unfold State.reached; decide +kernel) (by decide +kernel) (by decide +kernel), by decide +kernel⟩),
   (⟨by decide +kernel, by decide +kernel, by refine ⟨?_, ?_, ?_⟩ <;> decide +kernel, by decide +kernel⟩),
   (by decide +kernel),
   (⟨Sample.taken_of (by unfold State.reached; decide +kernel) (by decide +kernel) (by decide +kernel), by decide +kernel⟩),
   (⟨Sample.taken_of (by unfold State.reached; decide +kernel) (by decide +kernel) (by decide +kernel), by decide +kernel⟩),
   (by beta_reduce; and_intros <;> decide +kernel)⟩

theorem test_meets_HostQueuesCarryFrames :
    ((fun (rq : Request) (s : State) (x : Session) (g : Nat) (p : List Byte) =>
      s.taken Op.QUEUE_CREATE rq x ∧
      p = rq.payload ∧
      ringNumber (beAt 0 1 p) (beAt 1 1 p) = some g ∧
      s.rd P.HST_STATUS_ADDR ≠ 0 ∧
      queueLegal x.version p = true ∧
      s.ring g = none)
      ((Sample.rq Op.QUEUE_CREATE ([1, 3, 2, 0xFF] ++ zeros 8 ++ toBe 4 64 ++ toBe 2 2048 ++ zeros 2))) ((Sample.state [((P.HST_STATUS_ADDR, 0), 4096)])) (Sample.sess) (67) ([1, 3, 2, 0xFF] ++ zeros 8 ++ toBe 4 64 ++ toBe 2 2048 ++ zeros 2)) ∧
    ((fun (rq : Request) (s : State) (x : Session) (p : List Byte) (st : Nat) =>
      s.taken Op.QUEUE_CREATE rq x ∧
      p = rq.payload ∧
      ((((s.rd P.HST_STATUS_ADDR = 0 ∨ queueLegal x.version p = false) ∧ st = Status.BAD_VALUE) ∨
      (s.rd P.HST_STATUS_ADDR ≠ 0 ∧ queueLegal x.version p = true ∧
        ((ringNumber (beAt 0 1 p) (beAt 1 1 p)).bind s.ring).isSome = true ∧ st = Status.NOT_READY))))
      ((Sample.rq Op.QUEUE_CREATE ([1, 3, 2, 0xFF] ++ zeros 8 ++ toBe 4 63 ++ toBe 2 2048 ++ zeros 2))) ((Sample.state [((P.HST_STATUS_ADDR, 0), 4096)])) (Sample.sess) ([1, 3, 2, 0xFF] ++ zeros 8 ++ toBe 4 63 ++ toBe 2 2048 ++ zeros 2) (Status.BAD_VALUE)) ∧
    ((fun (rq : Request) (s : State) (x : Session) (p : List Byte) (st : Nat) =>
      s.taken Op.QUEUE_CREATE rq x ∧
      p = rq.payload ∧
      ((((s.rd P.HST_STATUS_ADDR = 0 ∨ queueLegal x.version p = false) ∧ st = Status.BAD_VALUE) ∨
      (s.rd P.HST_STATUS_ADDR ≠ 0 ∧ queueLegal x.version p = true ∧
        ((ringNumber (beAt 0 1 p) (beAt 1 1 p)).bind s.ring).isSome = true ∧ st = Status.NOT_READY))))
      ((Sample.rq Op.QUEUE_CREATE ([1, 3, 2, 0xFF] ++ zeros 8 ++ toBe 4 64 ++ toBe 2 2048 ++ zeros 2))) (((Sample.state [((P.HST_STATUS_ADDR, 0), 4096)])).makeRing (Sample.ring 67)) (Sample.sess) ([1, 3, 2, 0xFF] ++ zeros 8 ++ toBe 4 64 ++ toBe 2 2048 ++ zeros 2) (Status.NOT_READY)) ∧
    ((fun (rq : Request) (s : State) (x : Session) (g : Nat) =>
      s.taken Op.QUEUE_DESTROY rq x ∧
      beAt 0 1 rq.payload ≤ 3 ∧
      ringNumber (beAt 0 1 rq.payload) (beAt 1 1 rq.payload) = some g ∧
      (s.ring g).isSome = true)
      ((Sample.rq Op.QUEUE_DESTROY [1, 3, 0, 0])) (Sample.host 67) (Sample.sess) (67)) ∧
    ((fun (rq : Request) (s : State) (x : Session) (g : Nat) =>
      s.taken Op.QUEUE_DESTROY rq x ∧
      beAt 0 1 rq.payload ≤ 3 ∧
      ringNumber (beAt 0 1 rq.payload) (beAt 1 1 rq.payload) = some g ∧
      (s.ring g).isSome = true)
      ((Sample.rq Op.QUEUE_DESTROY [0, 3, 0, 0])) ({ Sample.host 3 with txSlots := [⟨0, 3, 0, none⟩] }) (Sample.sess) (3)) ∧
    ((fun (rq : Request) (s : State) (x : Session) (st : Nat) =>
      s.taken Op.QUEUE_DESTROY rq x ∧
      (((3 < beAt 0 1 rq.payload ∧ st = Status.BAD_VALUE) ∨ (beAt 0 1 rq.payload ≤ 3 ∧
      ((ringNumber (beAt 0 1 rq.payload) (beAt 1 1 rq.payload)).bind s.ring).isSome = false ∧ st = Status.NOT_FOUND))))
      ((Sample.rq Op.QUEUE_DESTROY [4, 3, 0, 0])) (Sample.host 67) (Sample.sess) (Status.BAD_VALUE)) ∧
    ((fun (rq : Request) (s : State) (x : Session) (st : Nat) =>
      s.taken Op.QUEUE_DESTROY rq x ∧
      (((3 < beAt 0 1 rq.payload ∧ st = Status.BAD_VALUE) ∨ (beAt 0 1 rq.payload ≤ 3 ∧
      ((ringNumber (beAt 0 1 rq.payload) (beAt 1 1 rq.payload)).bind s.ring).isSome = false ∧ st = Status.NOT_FOUND))))
      ((Sample.rq Op.QUEUE_DESTROY [2, 16, 0, 0])) (Sample.host 67) (Sample.sess) (Status.NOT_FOUND)) ∧
    (((fun (g i : Nat) (index : BitVec 32) (s : State) (r : Ring) =>
      s.linkUp = true ∧
      s.ring g = some r ∧
      s.rd P.HST_RING_STATE g = 1 ∧
      i = index.toNat)
      (3) (9) (9) (Sample.host 3) (Sample.ring 3)) ∧
    ((fun (g i : Nat) (index : BitVec 32) (s : State) (r : Ring) =>
      s.linkUp = true ∧
      s.ring g = some r ∧
      s.rd P.HST_RING_STATE g = 1 ∧
      i = index.toNat)
      (130) (5) (5) (Sample.host 130) (Sample.ring 130)) ∧
    ((fun (g i : Nat) (index : BitVec 32) (s : State) (r : Ring) =>
      s.linkUp = true ∧
      s.ring g = some r ∧
      s.rd P.HST_RING_STATE g = 1 ∧
      i = index.toNat)
      (3) (90) (90) (Sample.host 3) (Sample.ring 3)) ∧
    ((fun (g : Nat) (index : BitVec 32) (s : State) =>
      s.linkUp = true ∧
      s.ring g = none)
      (3) (9) (Sample.host 67)) ∧
    ((fun (g : Nat) (index : BitVec 32) (s : State) =>
      ((s.linkUp = false ∨ ((s.ring g).isSome = true ∧ s.rd P.HST_RING_STATE g ≠ 1))))
      (3) (9) ((Sample.state []))) ∧
    ((fun (q : Fin 64) (slot bytes : List Byte) (s : State) (r : Ring) (d : TxDesc) (f : Frame) (i : Nat) =>
      s.activeRing q.val = some r ∧
      i = advance r.cons (s.txSlots.filter fun z => z.queue == q.val).length ∧
      s.linkUp = true ∧
      s.frozenMaster 3 = false ∧
      0 < inUse r.prod i ∧
      inUse r.prod i ≤ r.size ∧
      d = r.txDesc slot ∧
      d.legal = true ∧
      d.group = false ∧
      s.rd P.PWR_SHUTTER_STATE = 0 ∧
      s.portUp d.dest = true ∧
      f = ⟨s.fabric.nextFrame, 0, d.dest / 8 % 64, ⟨0, 0, 255, 0⟩, d.dest, 0, (withFcs (fit d.len bytes)).length, 0, d.mode, d.profile,
      d.dest, 0xFFFF, 0, d.cls, 0, false, withFcs (fit d.len bytes), true, false, false, false, none, none, d.request,
      some (q.val, s.nextSlot), 0, false, 0⟩ ∧
      s.canAllocate f = true)
      (3) (zeros 8 ++ toBe 2 60 ++ toBe 2 16 ++ zeros 20) (zeros 60) (Sample.hostUp 3) (Sample.ring 3) ((Sample.ring 3).txDesc (zeros 8 ++ toBe 2 60 ++ toBe 2 16 ++ zeros 20)) (Sample.hostFrame) (3)) ∧
    ((fun (q : Fin 64) (slot bytes : List Byte) (s : State) (r : Ring) (d : TxDesc) (f : Frame) (i : Nat) (ms : List Nat) =>
      s.activeRing q.val = some r ∧
      i = advance r.cons (s.txSlots.filter fun z => z.queue == q.val).length ∧
      s.linkUp = true ∧
      s.frozenMaster 3 = false ∧
      0 < inUse r.prod i ∧
      inUse r.prod i ≤ r.size ∧
      d = r.txDesc slot ∧
      d.legal = true ∧
      ms = s.txMembers d ∧
      ms ≠ [] ∧
      ms.all s.portUp = true ∧
      ((s.rd P.PWR_SHUTTER_STATE ≠ 0 → ms.all keelPort = true)) ∧
      f = ⟨s.fabric.nextFrame, 0, d.dest / 8 % 64, ⟨0, 0, 255, 0⟩, ms.headD 0, 0, (withFcs (fit d.len bytes)).length, b2n d.group,
      d.mode, d.profile, d.dest, 0xFFFF, 0, d.cls, 0, false, withFcs (fit d.len bytes), true, false, false, false, none, none,
      d.request, some (q.val, s.nextSlot), 0, false, 0⟩ ∧
      ((s.rd P.PWR_SHUTTER_STATE = 0 → s.canAllocate f = true)))
      (3) (zeros 8 ++ toBe 2 60 ++ toBe 2 16 ++ zeros 20) (zeros 60) (Sample.hostUp 3) (Sample.ring 3) ((Sample.ring 3).txDesc (zeros 8 ++ toBe 2 60 ++ toBe 2 16 ++ zeros 20)) (Sample.hostFrame) (3) ([16])) ∧
    ((fun (q : Fin 64) (slot bytes : List Byte) (s : State) (r : Ring) (d : TxDesc) (f : Frame) (i : Nat) (ms : List Nat) =>
      s.activeRing q.val = some r ∧
      i = advance r.cons (s.txSlots.filter fun z => z.queue == q.val).length ∧
      s.linkUp = true ∧
      s.frozenMaster 3 = false ∧
      0 < inUse r.prod i ∧
      inUse r.prod i ≤ r.size ∧
      d = r.txDesc slot ∧
      d.legal = true ∧
      ms = s.txMembers d ∧
      ms ≠ [] ∧
      ms.all s.portUp = true ∧
      ((s.rd P.PWR_SHUTTER_STATE ≠ 0 → ms.all keelPort = true)) ∧
      f = ⟨s.fabric.nextFrame, 0, d.dest / 8 % 64, ⟨0, 0, 255, 0⟩, ms.headD 0, 0, (withFcs (fit d.len bytes)).length, b2n d.group,
      d.mode, d.profile, d.dest, 0xFFFF, 0, d.cls, 0, false, withFcs (fit d.len bytes), true, false, false, false, none, none,
      d.request, some (q.val, s.nextSlot), 0, false, 0⟩ ∧
      ((s.rd P.PWR_SHUTTER_STATE = 0 → s.canAllocate f = true)))
      (3) (zeros 8 ++ toBe 2 60 ++ toBe 2 3 ++ [1] ++ zeros 19) (zeros 60) ((((Sample.hostUp 3).wr P.LCK_MC_GROUP 3 5242880).wr P.LCK_PORTSET 40 196608).wr P.PRT_LINK_UP 17 1) (Sample.ring 3) ((Sample.ring 3).txDesc (zeros 8 ++ toBe 2 60 ++ toBe 2 3 ++ [1] ++ zeros 19)) ({ Sample.hostFrame with outlet := 0, kind := 1, dest := 3 }) (3) ([16, 17]))) ∧
    (((fun (q : Fin 64) (slot bytes : List Byte) (s : State) (r : Ring) (d : TxDesc) (f : Frame) (i : Nat) (ms : List Nat) =>
      s.activeRing q.val = some r ∧
      i = advance r.cons (s.txSlots.filter fun z => z.queue == q.val).length ∧
      s.linkUp = true ∧
      s.frozenMaster 3 = false ∧
      0 < inUse r.prod i ∧
      inUse r.prod i ≤ r.size ∧
      d = r.txDesc slot ∧
      d.legal = true ∧
      ms = s.txMembers d ∧
      ms ≠ [] ∧
      ms.all s.portUp = true ∧
      ((s.rd P.PWR_SHUTTER_STATE ≠ 0 → ms.all keelPort = true)) ∧
      f = ⟨s.fabric.nextFrame, 0, d.dest / 8 % 64, ⟨0, 0, 255, 0⟩, ms.headD 0, 0, (withFcs (fit d.len bytes)).length, b2n d.group,
      d.mode, d.profile, d.dest, 0xFFFF, 0, d.cls, 0, false, withFcs (fit d.len bytes), true, false, false, false, none, none,
      d.request, some (q.val, s.nextSlot), 0, false, 0⟩ ∧
      ((s.rd P.PWR_SHUTTER_STATE = 0 → s.canAllocate f = true)))
      (3) (zeros 8 ++ toBe 2 60 ++ toBe 2 5 ++ zeros 20) (zeros 60) (((Sample.hostUp 3).wr P.PRT_LINK_UP 5 1).wr P.PWR_SHUTTER_STATE 0 2) (Sample.ring 3) ((Sample.ring 3).txDesc (zeros 8 ++ toBe 2 60 ++ toBe 2 5 ++ zeros 20)) ({ Sample.hostFrame with outlet := 0, dest := 5, port := 5 }) (3) ([5])) ∧
    ((fun (q : Fin 64) (slot bytes : List Byte) (s : State) (r : Ring) (d : TxDesc) (i : Nat) =>
      s.activeRing q.val = some r ∧
      i = advance r.cons (s.txSlots.filter fun z => z.queue == q.val).length ∧
      s.linkUp = true ∧
      s.frozenMaster 3 = false ∧
      0 < inUse r.prod i ∧
      inUse r.prod i ≤ r.size ∧
      d = r.txDesc slot ∧
      d.legal = true ∧
      s.txMembers d = [])
      (3) (zeros 8 ++ toBe 2 60 ++ toBe 2 3 ++ [1] ++ zeros 19) (zeros 60) ((Sample.hostUp 3).wr P.LCK_MC_GROUP 3 5242880) (Sample.ring 3) ((Sample.ring 3).txDesc (zeros 8 ++ toBe 2 60 ++ toBe 2 3 ++ [1] ++ zeros 19)) (3)) ∧
    ((fun (q : Fin 64) (slot : List Byte) (data : Option (List Byte)) (s : State) (r : Ring) (d : TxDesc) (i st : Nat) =>
      s.activeRing q.val = some r ∧
      i = advance r.cons (s.txSlots.filter fun z => z.queue == q.val).length ∧
      s.linkUp = true ∧
      s.frozenMaster 3 = false ∧
      0 < inUse r.prod i ∧
      inUse r.prod i ≤ r.size ∧
      d = r.txDesc slot ∧
      (((d.legal = false ∧ st = 4) ∨
      (d.legal = true ∧ s.rd P.PWR_SHUTTER_STATE ≠ 0 ∧ (s.txMembers d).all keelPort = false ∧ st = 5) ∨
      (d.legal = true ∧ s.rd P.PWR_SHUTTER_STATE = 0 ∧ data = none ∧ st = 6))))
      (3) (zeros 32) (none) (Sample.hostUp 3) (Sample.ring 3) ((Sample.ring 3).txDesc (zeros 32)) (3) (4)) ∧
    ((fun (q : Fin 64) (slot : List Byte) (data : Option (List Byte)) (s : State) (r : Ring) (d : TxDesc) (i st : Nat) =>
      s.activeRing q.val = some r ∧
      i = advance r.cons (s.txSlots.filter fun z => z.queue == q.val).length ∧
      s.linkUp = true ∧
      s.frozenMaster 3 = false ∧
      0 < inUse r.prod i ∧
      inUse r.prod i ≤ r.size ∧
      d = r.txDesc slot ∧
      (((d.legal = false ∧ st = 4) ∨
      (d.legal = true ∧ s.rd P.PWR_SHUTTER_STATE ≠ 0 ∧ (s.txMembers d).all keelPort = false ∧ st = 5) ∨
      (d.legal = true ∧ s.rd P.PWR_SHUTTER_STATE = 0 ∧ data = none ∧ st = 6))))
      (3) (zeros 8 ++ toBe 2 60 ++ toBe 2 16 ++ zeros 20) (none) (Sample.hostUp 3) (Sample.ring 3) ((Sample.ring 3).txDesc (zeros 8 ++ toBe 2 60 ++ toBe 2 16 ++ zeros 20)) (3) (6)) ∧
    ((fun (q : Fin 64) (slot : List Byte) (data : Option (List Byte)) (s : State) (r : Ring) (d : TxDesc) (i st : Nat) =>
      s.activeRing q.val = some r ∧
      i = advance r.cons (s.txSlots.filter fun z => z.queue == q.val).length ∧
      s.linkUp = true ∧
      s.frozenMaster 3 = false ∧
      0 < inUse r.prod i ∧
      inUse r.prod i ≤ r.size ∧
      d = r.txDesc slot ∧
      (((d.legal = false ∧ st = 4) ∨
      (d.legal = true ∧ s.rd P.PWR_SHUTTER_STATE ≠ 0 ∧ (s.txMembers d).all keelPort = false ∧ st = 5) ∨
      (d.legal = true ∧ s.rd P.PWR_SHUTTER_STATE = 0 ∧ data = none ∧ st = 6))))
      (3) (zeros 8 ++ toBe 2 60 ++ toBe 2 16 ++ zeros 20) (none) ((Sample.hostUp 3).wr P.PWR_SHUTTER_STATE 0 2) (Sample.ring 3) ((Sample.ring 3).txDesc (zeros 8 ++ toBe 2 60 ++ toBe 2 16 ++ zeros 20)) (3) (5)) ∧
    ((fun (q : Fin 64) (slot : List Byte) (data : Option (List Byte)) (s : State) =>
      ((s.activeRing q.val = none ∨ s.linkUp = false ∨ s.frozenMaster 3 = true)))
      (3) (zeros 32) (none) ((Sample.state []))) ∧
    ((fun (q : Fin 64) (s : State) (r : Ring) (z : TxSlot) (st : Nat) (y : Stamp) =>
      s.activeRing q.val = some r ∧
      (s.txSlots.find? fun z => z.queue == q.val) = some z ∧
      z.result = some (st, y) ∧
      s.linkUp = true)
      (3) ({ Sample.host 3 with txSlots := [⟨0, 3, 3, some (1, ⟨0, 0, 0, 0⟩)⟩] }) (Sample.ring 3) (⟨0, 3, 3, some (1, ⟨0, 0, 0, 0⟩)⟩) (1) (⟨0, 0, 0, 0⟩)) ∧
    ((fun (q : Fin 64) (s : State) =>
      ((s.activeRing q.val = none ∨ s.linkUp = false ∨
      ((s.txSlots.find? fun z => z.queue == q.val).bind TxSlot.result) = none)))
      (3) ({ Sample.host 3 with txSlots := [⟨0, 3, 3, none⟩] }))) ∧
    (((fun (q : Fin 64) (slot : List Byte) (s : State) (r : Ring) (c : Copy) (f : Frame) (entry : Nat) =>
      s.activeRing (64 + q.val) = some r ∧
      (s.quay.copies.find? fun c => match c.host with | some (x, _) => x == q.val | none => false) = some c ∧
      s.frame c.frame = some f ∧
      c.host = some (q.val, entry) ∧
      s.linkUp = true ∧
      s.frozenMaster 4 = false ∧
      r.prod ≠ r.cons ∧
      s.whole f = true)
      (3) (toBe 8 65536 ++ zeros 24) (Sample.trapped 67) (Sample.ring 67) (Sample.hostCopy) (Sample.frame) (5)) ∧
    ((fun (q : Fin 64) (slot : List Byte) (s : State) =>
      ((s.activeRing (64 + q.val) = none ∨ s.linkUp = false ∨ s.frozenMaster 4 = true ∨
      (s.quay.copies.find? fun c => match c.host with | some (x, _) => x == q.val | none => false) = none)))
      (3) (zeros 32) (Sample.host 67)) ∧
    ((fun (v : Fin 64) (s : State) (r : Ring) =>
      s.linkUp = true ∧
      r ∈ s.rings ∧
      r.vector = v.val ∧
      r.moved = true ∧
      ((∀ y ∈ s.raised, y.1 = v.val → y.2 + 1000 * r.moderation ≤ s.clock)))
      (4) ({ Sample.host 67 with rings := [{ Sample.ring 67 with moved := true }], raised := [(4, 0)], clock := 5000 }) ({ Sample.ring 67 with moved := true })) ∧
    ((fun (v : Fin 64) (s : State) =>
      ((s.linkUp = false ∨ (s.rings.all fun y => !(y.vector == v.val && y.moved)) = true)))
      (4) (Sample.host 67)) ∧
    ((fun (speed : Fin 6) (width : Fin 9) (mps : BitVec 10) (s : State) =>
      s.linkUp = false ∧
      speed.val ≠ 0 ∧
      width.val ∈ [1, 2, 4, 8] ∧
      mps.toNat ∈ [128, 256, 512])
      (4) (8) (256) ((Sample.state [((P.HST_MBX_BASE, 0), 4096), ((P.HST_MBX_SIZE, 0), 64)]))) ∧
    ((fun (speed : Fin 6) (width : Fin 9) (mps : BitVec 10) (s : State) =>
      ((s.linkUp = true ∨ speed.val = 0 ∨
      width.val ∉ [1, 2, 4, 8] ∨ mps.toNat ∉ [128, 256, 512])))
      (4) (3) (256) ((Sample.state []))) ∧
    ((fun (s : State) =>
      s.linkUp = true)
      (Sample.host 67)) ∧
    ((fun (s : State) =>
      s.linkUp = false)
      ((Sample.state [])))) :=
  ⟨(⟨Sample.taken_of (by unfold State.reached; decide +kernel) (by decide +kernel) (by decide +kernel), by decide +kernel⟩),
   (⟨Sample.taken_of (by unfold State.reached; decide +kernel) (by decide +kernel) (by decide +kernel), by decide +kernel⟩),
   (⟨Sample.taken_of (by unfold State.reached; decide +kernel) (by decide +kernel) (by decide +kernel), by decide +kernel⟩),
   (⟨Sample.taken_of (by unfold State.reached; decide +kernel) (by decide +kernel) (by decide +kernel), by decide +kernel⟩),
   (⟨Sample.taken_of (by unfold State.reached; decide +kernel) (by decide +kernel) (by decide +kernel), by decide +kernel⟩),
   (⟨Sample.taken_of (by unfold State.reached; decide +kernel) (by decide +kernel) (by decide +kernel), by decide +kernel⟩),
   (⟨Sample.taken_of (by unfold State.reached; decide +kernel) (by decide +kernel) (by decide +kernel), by decide +kernel⟩),
   (by beta_reduce; and_intros <;> decide +kernel),
   (by beta_reduce; and_intros <;> decide +kernel),
   (by beta_reduce; and_intros <;> decide +kernel)⟩

end Sys2Proof.Machine

end Tests
end

section
/-! ## Command channel: the arrival of a request (R23 to R43)

What a request comes to, in terms of the verdict of the intake, and the states it passes through until it has its effect. -/

namespace Sys2Proof.Machine

/-- Every row that is a request is the arrival of its packet. -/
theorem exec_asRequest {c : Instr} {op : Nat} {rq : Request} (h : asRequest c = some (op, rq)) (s : State) :
    exec c s = .next (s.arrive op rq) := by
  cases c <;> simp only [asRequest, Option.some.injEq, Prod.mk.injEq, reduceCtorEq] at h <;> (obtain ⟨rfl, rfl⟩ := h; rfl)

/-! ### The packet is read from its ring -/

theorem State.received_phase (s : State) (rq : Request) : (s.received rq).phase = s.phase := (s.received_only rq).phase rfl

theorem State.received_clock (s : State) (rq : Request) : (s.received rq).clock = s.clock := (s.received_only rq).keeps.clock

/-- The session that serves a request is looked up in the sessions and their states only. -/
theorem State.serving_congr {s t : State} (hrd : ∀ b i, t.rd b i = s.rd b i) (hc : t.cmd = s.cmd) (op : Nat) (rq : Request) :
    t.serving op rq = s.serving op rq := by
  simp only [State.serving, State.session, State.sessState, hrd, hc] <;> rfl

/-- The intake depends on the phase, the registers and the sessions only. -/
theorem State.intake_congr {s t : State} (hp : t.phase = s.phase) (hrd : ∀ b i, t.rd b i = s.rd b i) (hc : t.cmd = s.cmd)
    (op : Nat) (rq : Request) : t.intake op rq = s.intake op rq := by
  simp only [State.intake, State.sessionIntake, State.serving_congr hrd hc, State.rdb, State.sessState, hrd, hp] <;> rfl

theorem State.received_intake (s : State) (op : Nat) (rq : Request) : (s.received rq).intake op rq = s.intake op rq :=
  State.intake_congr (s.received_phase rq) (s.received_rd rq) (s.received_cmd rq) op rq

/-- A packet that its transport brings is processed once it is read, and then what waits goes on. -/
theorem State.arrive_carried {s : State} {op : Nat} {rq : Request} (hp : s.phase = .ready) (hc : s.carries rq = true) :
    s.arrive op rq = ((s.received rq).process op rq).settle := by
  unfold State.arrive
  rw [State.fromRing_carries hp hc]

/-! ### The verdicts of the intake -/

theorem State.arrive_repeated {s : State} {op : Nat} {rq : Request} {p : Packet} (hp : s.phase = .ready) (hc : s.carries rq = true)
    (hi : s.intake op rq = .resend p) :
    s.arrive op rq = ((((s.received rq).touch op rq).count P.CMD_DUP_COUNT).sendPacket rq.transport rq.chan p).settle := by
  rw [State.arrive_carried hp hc]
  unfold State.process
  rw [State.received_intake, hi]

theorem State.arrive_admitted {s : State} {op : Nat} {rq : Request} {x : Session} (hp : s.phase = .ready)
    (hc : s.carries rq = true) (hi : s.intake op rq = .take x) :
    s.arrive op rq = (((s.received rq).touch op rq).admitRequest x op rq).settle := by
  rw [State.arrive_carried hp hc]
  unfold State.process
  rw [State.received_intake, hi]

/-! ### The header tests and the session -/

section
variable {s : State} {op : Nat} {rq : Request} (hp : s.phase = .ready) (hm : rq.transport = .mgmt → s.rdb P.CMD_MGMT_ENABLE = true)
include hm

theorem State.mgmt_not_off : ¬ (rq.transport = .mgmt ∧ ¬ s.rdb P.CMD_MGMT_ENABLE = true) := fun h => h.2 (hm h.1)

include hp

variable (ho : op ≠ Op.SESSION_OPEN) (hh : headerChecks rq op = true)
include ho hh

/-- Past the header tests the tests of the session decide. -/
theorem State.intake_served {x : Session} (hl : lengthFits rq = true) (hs : s.serving op rq = some x) :
    s.intake op rq = s.sessionIntake x op rq := by
  unfold State.intake
  simp only [hp, ne_eq, not_true_eq_false, if_false, State.mgmt_not_off hm, hh, hl, ho, hs]

end

/-- A session that is found by its number and serves the request is the one that the intake takes (R521). -/
theorem State.serving_of_serves {s : State} {op : Nat} {rq : Request} {x : Session} (hs : s.session rq.session.toNat = some x)
    (ht : x.transport = rq.transport) (hv : s.serves x op rq = true) : s.serving op rq = some x := by
  have h3 : s.sessState x.num ≠ 3 ∨ op = Op.SESSION_PROVE ∨ closesSelf rq op = true := by
    simp only [State.serves, Bool.or_eq_true, Bool.and_eq_true, beq_iff_eq] at hv
    rcases hv with (h | h) | h
    · exact .inl (by omega)
    · exact .inr h.2
    · exact .inl (by omega)
  unfold State.serving
  rw [hs]
  exact if_pos ⟨ht, h3⟩

theorem State.serves_of_open {s : State} {x : Session} (op : Nat) (rq : Request) (h : s.sessState x.num = 1) :
    s.serves x op rq = true := by
  simp [State.serves, h]

theorem State.serving_of_open {s : State} {op : Nat} {rq : Request} {x : Session} (hs : s.session rq.session.toNat = some x)
    (ht : x.transport = rq.transport) (h : s.sessState x.num = 1) : s.serving op rq = some x :=
  State.serving_of_serves hs ht (State.serves_of_open op rq h)

/-- A session that serves a request is not frozen to it (R35). -/
theorem State.not_frozen_of_serves {s : State} {op : Nat} {rq : Request} {x : Session} (hv : s.serves x op rq = true) :
    ¬ (s.sessState x.num = 2 ∧ ¬ closesSelf rq op = true) := by
  simp only [State.serves, Bool.or_eq_true, Bool.and_eq_true, beq_iff_eq] at hv
  rintro ⟨h2, h3⟩
  rcases hv with (h | h) | h
  · omega
  · omega
  · exact h3 h.2

/-! ### The tests of the session, in order -/

section
variable {s : State} {x : Session} {op : Nat} {rq : Request}

variable (hv : rq.version.toNat = x.version)
include hv

variable (hf : ¬ (s.sessState x.num = 2 ∧ ¬ closesSelf rq op = true))
include hf

variable (ho : opFits op x.version rq = true)
include ho

/-- Past the opcode's tests: the tags in use, the requests outstanding, and the replies that are kept (R40, R41). -/
theorem State.sessionIntake_fits : s.sessionIntake x op rq =
    if x.tagsInUse.contains rq.tag.toNat then .refuse Status.TAG_IN_USE x.version
    else if s.rd P.CMD_MAX_OUTSTANDING ≤ x.outstanding.length then .refuse Status.BUSY x.version
    else ((x.replies.find? fun y => y.tag == rq.tag.toNat && y.op == op).map fun y => Verdict.resend y.pkt).getD (.take x) := by
  obtain ⟨r, hr, hsince, hsized⟩ := opFits_row ho
  unfold State.sessionIntake
  rw [if_neg (not_not_intro hv), if_neg hf, hr]
  simp only [Nat.not_lt.mpr hsince, hsized, if_false, not_true_eq_false]
  cases x.replies.find? fun y => y.tag == rq.tag.toNat && y.op == op <;> rfl

end

/-! ### The request starts -/

/-- The state in which an admitted request is noted as started: its packet read and its session's idle timer restarted (R33, R41). -/
def State.noted (s : State) (op : Nat) (rq : Request) (x : Session) : State :=
  ((s.received rq).setSession x.uid fun y => { y with last := s.clock }).setSession x.uid fun y => y.noteStart rq.tag.toNat op

/-- The state in which a request that starts occupies its session (R39). -/
def State.occupied (s : State) (op : Nat) (rq : Request) (x : Session) : State :=
  (s.noted op rq x).setSession x.uid fun y => { y with blocked := some rq.tag.toNat }

theorem State.begun_eq (s : State) (op : Nat) (rq : Request) (x : Session) :
    s.begun op rq x = if fastPath op rq then (s.occupied op rq x).count P.CMD_FASTPATH_COUNT else s.occupied op rq x := rfl

theorem State.noted_only (s : State) (op : Nat) (rq : Request) (x : Session) : Only (some [F.cmd, F.rings]) s (s.noted op rq x) :=
  ((s.received_only rq).setSession rfl x.uid (fun y => { y with last := s.clock }) fun _ => rfl).setSession rfl x.uid
    (fun y => y.noteStart rq.tag.toNat op) fun _ => rfl

theorem State.occupied_only (s : State) (op : Nat) (rq : Request) (x : Session) :
    Only (some [F.cmd, F.rings]) s (s.occupied op rq x) :=
  (s.noted_only op rq x).setSession rfl x.uid (fun y => { y with blocked := some rq.tag.toNat }) fun _ => rfl

theorem State.noted_rd (s : State) (op : Nat) (rq : Request) (x : Session) (b i : Nat) : (s.noted op rq x).rd b i = s.rd b i :=
  s.received_rd rq b i

theorem State.occupied_rd (s : State) (op : Nat) (rq : Request) (x : Session) (b i : Nat) :
    (s.occupied op rq x).rd b i = s.rd b i :=
  s.received_rd rq b i

/-- What a session is once its request occupies it. -/
def Session.occupiedBy (y : Session) (clock tag op : Nat) : Session :=
  { ({ y with last := clock } : Session).noteStart tag op with blocked := some tag }

theorem State.occupied_sessionUid (s : State) (op : Nat) (rq : Request) (x : Session) :
    (s.occupied op rq x).sessionUid x.uid = (s.sessionUid x.uid).map fun y => y.occupiedBy s.clock rq.tag.toNat op := by
  have h : (s.received rq).sessionUid x.uid = s.sessionUid x.uid := by simp [State.sessionUid]
  unfold State.occupied State.noted
  rw [State.sessionUid_setSession _ _ _ (by intro _; rfl), State.sessionUid_setSession _ _ _ (by intro _; rfl),
    State.sessionUid_setSession _ _ _ (by intro _; rfl), h]
  cases s.sessionUid x.uid <;> rfl

theorem Session.occupiedBy_begun (y : Session) (clock tag op : Nat) : (y.occupiedBy clock tag op).begun.contains (tag, op) = true :=
  Session.begun_noteStart ({ y with last := clock } : Session) tag op

/-- The arrival of a request that the session serves is noted for its idle timer. -/
theorem State.received_touch {s : State} {op : Nat} {rq : Request} {x : Session} (hh : headerChecks rq op = true)
    (hl : lengthFits rq = true) (hs : s.serving op rq = some x) :
    (s.received rq).touch op rq = (s.received rq).setSession x.uid fun y => { y with last := s.clock } := by
  unfold State.touch
  rw [State.serving_congr (s.received_rd rq) (s.received_cmd rq), hs, State.received_clock]
  simp only [hh, hl, Bool.and_self, if_true]

theorem State.reached_intake {s : State} {op : Nat} {rq : Request} {x : Session} (h : s.reached op rq x)
    (ho : op ≠ Op.SESSION_OPEN) : s.intake op rq = .take x := by
  obtain ⟨hp, -, hm, hh, hl, hs, ht, hq, hv, hf, hb, hg, htag, hn, hd⟩ := h
  have hout : x.outstanding = [] := by simp [Session.outstanding, hb, hg]
  have huse : x.tagsInUse.contains rq.tag.toNat = false := by
    unfold Session.tagsInUse
    rw [hout]
    cases ho : x.opening with
    | none => rfl
    | some o => rw [ho] at htag; simpa using fun e => (by simpa using htag : ¬ o.tag = rq.tag.toNat) e.symm
  have hdup : (x.replies.find? fun y => y.tag == rq.tag.toNat && y.op == op) = none := by
    rw [List.find?_eq_none]
    intro y hy
    simpa [imp_iff_not_or] using List.all_eq_true.mp hd y hy
  rw [State.intake_served hp hm ho hh hl (State.serving_of_serves hs ht hq),
    State.sessionIntake_fits hv (State.not_frozen_of_serves hq) hf, huse, hout, hdup]
  simp [Nat.not_le.mpr hn]

/-- A request that reaches its start is started in the state in which it is noted. -/
theorem State.arrive_reached {s : State} {op : Nat} {rq : Request} {x : Session} (h : s.reached op rq x)
    (ho : op ≠ Op.SESSION_OPEN) : s.arrive op rq = ((s.noted op rq x).start x op rq).settle := by
  have hi := State.reached_intake h ho
  obtain ⟨hp, hc, -, hh, hl, hs, ht, hq, -, -, hb, hg, -, -, -⟩ := h
  rw [State.arrive_admitted hp hc hi, State.received_touch hh hl (State.serving_of_serves hs ht hq)]
  unfold State.admitRequest
  rw [if_neg (by simp [hb, hg])]
  rfl

/-- A request that starts in a session that is not frozen to it freezes the session where it breaks its privilege, and is performed
where it does not (R35, R39). -/
theorem State.noted_start {s : State} {op : Nat} {rq : Request} {x : Session} (h : s.serves x op rq = true) :
    (s.noted op rq x).start x op rq =
      ((s.breach x op rq.payload).map fun a => (s.occupied op rq x).freezeSession (originOf x op rq) a).getD
        ((s.occupied op rq x).perform (originOf x op rq) op rq) := by
  have hf : ¬ ((s.noted op rq x).sessState x.num = 2 ∧ ¬ closesSelf rq op = true) := by
    unfold State.sessState
    rw [State.noted_rd]
    exact State.not_frozen_of_serves h
  have hb : (s.noted op rq x).breach x op rq.payload = s.breach x op rq.payload := State.breach_congr (State.noted_rd ..) ..
  unfold State.start
  simp only [if_neg hf, hb]
  cases s.breach x op rq.payload <;> rfl

/-- The session of a request that reaches its start waits for its reply, and the request is among the last 32 that it started. -/
theorem State.reached_occupied {s : State} {op : Nat} {rq : Request} {x : Session} (h : s.reached op rq x) :
    ∃ y, (s.occupied op rq x).sessionUid x.uid = some y ∧ y.blocked = some rq.tag.toNat ∧
      y.begun.contains (rq.tag.toNat, op) = true := by
  obtain ⟨-, -, -, -, -, hs, -⟩ := h
  obtain ⟨y, hy⟩ := Option.isSome_iff_exists.mp (State.sessionUid_of_session hs)
  exact ⟨_, by rw [State.occupied_sessionUid, hy]; rfl, rfl, Session.occupiedBy_begun ..⟩

end Sys2Proof.Machine
end

section
/-! ## Sessions that go on (R29, R39, R41)

Most operations send packets and notices, and give final replies, but open and close no session. What they leave of every session
is said once here: its numbers, transport and version, the requests that it has started, and that it waits for no other reply. -/

namespace Sys2Proof.Machine

/-- What a session keeps while it is neither opened nor closed and starts no request: it may have its reply and wait no longer. -/
structure Session.Continues (y z : Session) : Prop where
  num : z.num = y.num
  uid : z.uid = y.uid
  transport : z.transport = y.transport
  version : z.version = y.version
  begun : z.begun = y.begun
  blocked : z.blocked = y.blocked ∨ z.blocked = none

theorem Session.Continues.refl (y : Session) : y.Continues y := ⟨rfl, rfl, rfl, rfl, rfl, .inl rfl⟩

theorem Session.Continues.trans {x y z : Session} (h : x.Continues y) (g : y.Continues z) : x.Continues z where
  num := g.num.trans h.num
  uid := g.uid.trans h.uid
  transport := g.transport.trans h.transport
  version := g.version.trans h.version
  begun := g.begun.trans h.begun
  blocked := g.blocked.elim (fun e => h.blocked.imp e.trans e.trans) .inr

/-- From `s` to `t` every session goes on and none comes to be; the next running number and the pending commits stay. -/
structure Steady (s t : State) : Prop where
  nextUid : t.cmd.nextUid = s.cmd.nextUid
  commits : t.cmd.commits = s.cmd.commits
  sessions : ∃ f : Session → Session, (∀ y : Session, y.Continues (f y)) ∧ t.cmd.sessions = s.cmd.sessions.map f

/-! ### Composition -/

theorem Steady.of_cmd {s t : State} (h : t.cmd = s.cmd) : Steady s t :=
  ⟨by rw [h], by rw [h], id, Session.Continues.refl, by rw [h, List.map_id]⟩

theorem Steady.refl (s : State) : Steady s s := .of_cmd rfl

theorem Steady.trans {s t u : State} (h : Steady s t) (g : Steady t u) : Steady s u := by
  obtain ⟨f, hf, hs⟩ := h.sessions
  obtain ⟨k, hk, ht⟩ := g.sessions
  exact ⟨g.nextUid.trans h.nextUid, g.commits.trans h.commits, k ∘ f, fun y => (hf y).trans (hk _), by rw [ht, hs, List.map_map]⟩

/-- An operation whose frame leaves out the command channel. -/
theorem Steady.only {W : Option (List Nat)} {s t u : State} (h : Steady s t) (g : Only W t u)
    (hw : allows W F.cmd = false) : Steady s u :=
  h.trans (.of_cmd (g.cmd hw))

theorem Steady.cond {s a b : State} (c : Prop) [Decidable c] (h : Steady s a) (g : Steady s b) : Steady s (if c then a else b) := by
  split <;> assumption

theorem Steady.fold {α : Type} {s t : State} (f : State → α → State) (l : List α) (h : ∀ u x, Steady u (f u x)) (g : Steady s t) :
    Steady s (l.foldl f t) := by
  induction l generalizing t with
  | nil => exact g
  | cons x l ih => exact ih (g.trans (h t x))

/-- A value that a `let` names keeps what is known of it. -/
theorem Steady.with_state {s t u : State} (h : Steady s t) (k : Steady s t → Steady s u) : Steady s u := k h

section
variable {s t : State} (h : Steady s t)
include h

theorem Steady.wr (b i v : Nat) : Steady s (t.wr b i v) := h.trans (.of_cmd rfl)
theorem Steady.orIn (b i m : Nat) : Steady s (t.orIn b i m) := h.trans (.of_cmd rfl)
theorem Steady.wrS (w b i : Nat) (v : Int) : Steady s (t.wrS w b i v) := h.trans (.of_cmd rfl)
theorem Steady.emit (e : Emission) : Steady s (t.emit e) := h.trans (.of_cmd rfl)
theorem Steady.peak (b i v : Nat) : Steady s (t.peak b i v) := by unfold State.peak; exact .cond _ (h.wr ..) h

theorem Steady.count (b i n : Nat) : Steady s (t.count b i n) := by
  unfold State.count State.bumpSet
  cases counterIndex b i with
  | none => exact h.wr ..
  | some c => exact .cond _ (.cond _ (h.wr ..) ((h.wr ..).wr ..)) (h.trans (.of_cmd rfl))

/-- A change of the command channel beside its sessions, their running numbers and the pending commits. -/
theorem Steady.setCmd (f : Command → Command) (h1 : (f t.cmd).nextUid = t.cmd.nextUid) (h2 : (f t.cmd).commits = t.cmd.commits)
    (h3 : (f t.cmd).sessions = t.cmd.sessions) : Steady s (t.setCmd f) :=
  h.trans ⟨h1, h2, id, Session.Continues.refl, h3.trans (List.map_id _).symm⟩

theorem Steady.setSession (u : Nat) (f : Session → Session) (hf : ∀ y : Session, y.Continues (f y)) : Steady s (t.setSession u f) :=
  h.trans ⟨rfl, rfl, fun y => if y.uid = u then f y else y, fun y => by dsimp only; split; exacts [hf y, .refl y], rfl⟩

end

/-! ### What is found of a session -/

theorem findBy_map {α : Type} (key : α → Nat) (n : Nat) (f : α → α) (hf : ∀ x, key (f x) = key x) (xs : List α) :
    findBy key n (xs.map f) = (findBy key n xs).map f := by
  simp only [findBy, List.find?_map, Function.comp_def, hf]

theorem Steady.sessionUid {s t : State} (h : Steady s t) {u : Nat} {y : Session} (hy : s.sessionUid u = some y) :
    ∃ z, t.sessionUid u = some z ∧ y.Continues z := by
  obtain ⟨f, hf, hs⟩ := h.sessions
  refine ⟨f y, ?_, hf y⟩
  unfold State.sessionUid at hy ⊢
  rw [hs, findBy_map _ _ f fun x => (hf x).uid, hy]
  rfl

/-- A request whose session has gone on is answered for good by its final reply. -/
theorem Steady.finish_replied {s t : State} {x y : Session} {op : Nat} {rq : Request} {st : Nat} {pl : List Byte}
    (h : Steady s t) (hy : s.sessionUid x.uid = some y) (hb : y.blocked = some rq.tag.toNat ∨ y.blocked = none)
    (hc : y.begun.contains (rq.tag.toNat, op) = true) : (t.finish (originOf x op rq) st pl).replied x op rq st pl := by
  obtain ⟨z, hz, hyz⟩ := h.sessionUid hy
  refine State.finish_replied t x op rq st pl z hz ?_ (hyz.begun ▸ hc)
  exact hyz.blocked.elim (fun e => e ▸ hb) .inr

/-! ### Packets, replies and notices -/

theorem State.deliver_steady (s : State) (tr : Transport) (chan : Nat) (p : Packet) : Steady s (s.deliver tr chan p) := by
  unfold State.deliver
  cases tr with
  | pcie => exact .cond _ (.of_cmd (State.writeReply_cmd ..)) ((Steady.refl s).setCmd _ rfl rfl rfl)
  | spi => exact (Steady.refl s).setCmd _ rfl rfl rfl
  | mgmt => exact .cond _ ((Steady.refl s).emit _) (.refl s)
  | nhp => exact .cond _ (.of_cmd (State.sendSegments_cmd ..)) (.refl s)

theorem State.sendPacket_steady (s : State) (tr : Transport) (chan : Nat) (p : Packet) : Steady s (s.sendPacket tr chan p) := by
  unfold State.sendPacket
  exact Steady.trans (.cond _ ((Steady.refl s).count ..) (.refl s)) (State.deliver_steady ..)

theorem Session.continues_unblocked (x : Session) (tag : Nat) (rs : List Stored) :
    x.Continues { x with replies := rs, blocked := if x.blocked = some tag then none else x.blocked } :=
  ⟨rfl, rfl, rfl, rfl, rfl, by dsimp only; split; exacts [.inr rfl, .inl rfl]⟩

theorem State.finish_steady (s : State) (o : Origin) (st : Nat) (pl : List Byte) : Steady s (s.finish o st pl) := by
  unfold State.finish
  cases s.sessionUid o.uid with
  | none => exact .refl s
  | some _ => exact (State.sendPacket_steady ..).setSession _ _ fun y => y.continues_unblocked ..

/-- A count of lost notices changes nothing else of a session. -/
theorem Session.continues_lost (y : Session) (n : Nat) : y.Continues { y with lost := n } := ⟨rfl, rfl, rfl, rfl, rfl, .inl rfl⟩

theorem State.noticeTo_steady (s : State) (code : Nat) (data : List Byte) (x : Session) : Steady s (s.noticeTo code data x) := by
  have hdrop : Steady s ((s.count P.CMD_NOTICE_DROP).setSession x.uid fun y => { y with lost := y.lost + 1 }) :=
    ((Steady.refl s).count ..).setSession _ _ fun y => y.continues_lost _
  unfold State.noticeTo
  cases x.transport with
  | pcie =>
    exact .cond _ (Steady.setSession (.of_cmd (State.writeReply_cmd ..)) _ _ fun y => y.continues_lost 0)
      (.cond _ ((Steady.refl s).setCmd _ rfl rfl rfl) hdrop)
  | spi => exact .cond _ ((Steady.refl s).setCmd _ rfl rfl rfl) hdrop
  | mgmt => exact .cond _ (((Steady.refl s).emit _).setSession _ _ fun y => y.continues_lost 0) hdrop
  | nhp => exact .refl s

theorem State.notice_steady (s : State) (code : Nat) (data : List Byte) : Steady s (s.notice code data) := by
  unfold State.notice
  exact .fold _ _ (fun u x => .cond _ (State.noticeTo_steady ..) (.refl u)) (.refl s)

theorem State.sticky_steady (s : State) (n d : Nat) : Steady s (s.sticky n d) := by
  have h : Steady s ((s.count P.HLT_FAULT_COUNT).orIn P.HLT_STICKY 0 (2 ^ n)) := ((Steady.refl s).count ..).orIn ..
  unfold State.sticky
  extract_lets t f u
  split
  · exact h.trans (.of_cmd rfl)
  · refine Steady.trans ?_ (State.notice_steady ..)
    exact h.trans (.of_cmd rfl)

end Sys2Proof.Machine
end

section
/-! ## Command channel: requests that are answered without their effect (R35, R395, R440) -/

namespace Sys2Proof.Machine

/-! ### A privilege breach (R34, R35) -/

/-- The state in which a privilege breach of session `k + 1` is recorded, before the request is answered. -/
def State.violated (s : State) (k op addr : Nat) : State :=
  ((((s.wr P.CMD_SESSION_STATE k 2).orIn P.CMD_VIOLATION 0 (2 ^ k)).wr P.CMD_VIOL_OPCODE k op).wr P.CMD_VIOL_ADDR k addr).wr
    P.CMD_VIOL_TIME k s.now

theorem State.freezeSession_eq (s : State) (o : Origin) (addr : Nat) :
    s.freezeSession o addr = (s.violated (o.session - 1) o.opcode addr).finish o Status.PRIVILEGE_VIOLATION [] := rfl

section
variable (s : State) (k op addr : Nat)

theorem State.violated_state (i : Nat) :
    (s.violated k op addr).rd P.CMD_SESSION_STATE i = if i = k then 2 else s.rd P.CMD_SESSION_STATE i := by
  simp [State.violated, State.orIn, State.rd_wr]

theorem State.violated_violation : (s.violated k op addr).rd P.CMD_VIOLATION = s.rd P.CMD_VIOLATION ||| 2 ^ k := by
  simp [State.violated, State.orIn, State.rd_wr]

theorem State.violated_opcode : (s.violated k op addr).rd P.CMD_VIOL_OPCODE k = op := by
  simp [State.violated, State.rd_wr]

theorem State.violated_addr : (s.violated k op addr).rd P.CMD_VIOL_ADDR k = addr := by
  simp [State.violated, State.rd_wr]

theorem State.violated_time : (s.violated k op addr).rd P.CMD_VIOL_TIME k = s.now := by
  unfold State.violated
  rw [State.rd_wr_self]

theorem State.violated_cmd : (s.violated k op addr).cmd = s.cmd := by
  unfold State.violated State.orIn
  rw [State.wr_cmd, State.wr_cmd, State.wr_cmd, State.wr_cmd, State.wr_cmd]

theorem State.violated_sessionUid (u : Nat) : (s.violated k op addr).sessionUid u = s.sessionUid u :=
  congrArg (fun c : Command => findBy Session.uid u c.sessions) (s.violated_cmd k op addr)

end

/-- A part of the state that is listed neither by its number nor among all parameters is not allowed to change. -/
theorem not_allows {l : List Nat} {b : Nat} (h : ∀ k ∈ l, k ≠ b ∧ k ≠ F.params) : allows (some l) b = false := by
  simp only [allows, List.any_eq_false]
  intro k hk hkb
  have hp : ¬ k.beq F.params = true := fun e => (h k hk).2 (Nat.eq_of_beq_eq_true e)
  simp only [hp, Bool.false_and, Bool.or_false] at hkb
  exact (h k hk).1 (Nat.eq_of_beq_eq_true hkb)

/-- A part of the state beside the registers is no parameter. -/
theorem field_ne {k b : Nat} (hb : 62 ≤ b) (hk : k.blt 62 = true) : k ≠ b := by
  have := Nat.blt_eq.mp hk
  omega

/-- A final reply changes no register but the count of refusals and that of over-limit stamps. -/
theorem State.finish_rd (s : State) (o : Origin) (st : Nat) (pl : List Byte) {b : Nat} (i : Nat) (hb : 62 ≤ b)
    (hr : b ≠ P.CMD_REFUSED_COUNT) (ht : b ≠ P.TBS_OVER_LIMIT_COUNT) : (s.finish o st pl).rd b i = s.rd b i := by
  refine (State.finish_only s o st pl).rd b i hb (not_allows ?_)
  simp only [List.forall_mem_cons]
  exact ⟨⟨field_ne hb rfl, by decide⟩, ⟨field_ne hb rfl, by decide⟩, ⟨hr.symm, by decide⟩, ⟨ht.symm, by decide⟩, by simp⟩

/-- Settles O14: the session is frozen in the state that the request occupies, and the final reply changes none of the record. -/
theorem privilegeBreachFreezesSession : Obligations.PrivilegeBreachFreezesSession := by
  unfold Obligations.PrivilegeBreachFreezesSession
  intro c op rq s x a hc ho hr h1 hb
  have hstart := State.noted_start (State.serves_of_open op rq h1)
  rw [hb] at hstart
  obtain ⟨y, hy, hblk, hbeg⟩ := State.reached_occupied hr
  have hrd := State.occupied_rd s op rq x
  refine ⟨(s.occupied op rq x).freezeSession (originOf x op rq) a, ?_, ?_, ?_, ?_, ?_, ?_, ?_, ?_, ?_⟩
  · rw [exec_asRequest hc, State.arrive_reached hr ho, hstart, Option.map_some, Option.getD_some]
  all_goals rw [State.freezeSession_eq]
  · exact (State.finish_rd _ _ _ _ _ (by decide) (by decide) (by decide)).trans ((State.violated_state ..).trans (if_pos rfl))
  · rw [State.finish_rd _ _ _ _ _ (by decide) (by decide) (by decide), State.violated_violation, Nat.testBit_or]
    simp [originOf]
  · exact (State.finish_rd _ _ _ _ _ (by decide) (by decide) (by decide)).trans (State.violated_opcode ..)
  · exact (State.finish_rd _ _ _ _ _ (by decide) (by decide) (by decide)).trans (State.violated_addr ..)
  · rw [State.finish_rd _ _ _ _ _ (by decide) (by decide) (by decide)]
    exact (State.violated_time ..).trans (congrArg (fun t => t.out.ns) ((s.occupied_only op rq x).time rfl))
  · exact State.finish_replied _ x op rq _ _ y ((State.violated_sessionUid ..).trans hy) (.inl hblk) hbeg
  · intro n hn
    exact ((State.finish_rd _ _ _ _ _ (by decide) (by decide) (by decide)).trans
      ((State.violated_state ..).trans (if_neg hn))).trans (hrd ..)
  · rw [← State.freezeSession_eq]
    exact ((s.occupied_only op rq x).mono rfl).step (State.freezeSession_only ..) rfl

/-! ### A frozen core (R395, R440) -/

/-- A sticky fault is counted (R440). -/
theorem State.sticky_counts (s : State) (n d : Nat) :
    (s.sticky n d).rd P.HLT_FAULT_COUNT = (s.rd P.HLT_FAULT_COUNT + 1) % 2 ^ 48 := by
  have hc : ((s.count P.HLT_FAULT_COUNT).orIn P.HLT_STICKY 0 (2 ^ n)).rd P.HLT_FAULT_COUNT =
      (s.rd P.HLT_FAULT_COUNT + 1) % 2 ^ 48 := by
    unfold State.orIn
    rw [State.rd_wr_base _ (by decide), State.count_plain _ _ (by simp), State.rd_wr_self]
  unfold State.sticky
  simp only
  split
  · exact hc
  · exact ((State.notice_only _ _ _).rd _ _ (by decide) (by decide)).trans hc

/-- An INTERNAL_FAULT sets sticky bit 20 and counts one fault (R52, R440). -/
theorem State.failInternal_sets (s : State) (o : Origin) : ((s.failInternal o).rd P.HLT_STICKY).testBit 20 = true := by
  unfold State.failInternal
  rw [State.finish_rd _ _ _ _ _ (by decide) (by decide) (by decide), State.sticky_sets, Nat.testBit_or, Nat.testBit_two_pow_self,
    Bool.or_true]

theorem State.failInternal_counts (s : State) (o : Origin) :
    (s.failInternal o).rd P.HLT_FAULT_COUNT = (s.rd P.HLT_FAULT_COUNT + 1) % 2 ^ 48 := by
  unfold State.failInternal
  rw [State.finish_rd _ _ _ _ _ (by decide) (by decide) (by decide), State.sticky_counts]
  rfl

theorem State.failInternal_replied {s : State} {x y : Session} {op : Nat} {rq : Request} (hy : s.sessionUid x.uid = some y)
    (hb : y.blocked = some rq.tag.toNat ∨ y.blocked = none) (hc : y.begun.contains (rq.tag.toNat, op) = true) :
    (s.failInternal (originOf x op rq)).replied x op rq Status.INTERNAL_FAULT [] := by
  refine Steady.finish_replied (s := s) (Steady.trans ?_ (State.sticky_steady ..)) hy hb hc
  exact .of_cmd rfl

/-- Settles O16: the fault and the final reply leave the record of the request in its session. -/
theorem frozenCoreFailsRequest : Obligations.FrozenCoreFailsRequest := by
  unfold Obligations.FrozenCoreFailsRequest
  intro c op rq s x hc ho hr hb hz hfp
  have hserve : s.serves x op rq = true := by obtain ⟨-, -, -, -, -, -, -, hq, -⟩ := hr; exact hq
  have hfit : opFits op x.version rq = true := by obtain ⟨-, -, -, -, -, -, -, -, -, hf, -⟩ := hr; exact hf
  obtain ⟨r, hrow, -, -⟩ := opFits_row hfit
  have hstart := State.noted_start hserve
  rw [hb, Option.map_none, Option.getD_none] at hstart
  obtain ⟨y, hy, hblk, hbeg⟩ := State.reached_occupied hr
  have hrd := State.occupied_rd s op rq x
  have hperf : (s.occupied op rq x).perform (originOf x op rq) op rq = (s.occupied op rq x).failInternal (originOf x op rq) := by
    have hz' : (s.occupied op rq x).coreFrozen op = true := by
      unfold State.coreFrozen State.frozenMaster at hz ⊢
      rwa [hrd]
    unfold State.perform
    rw [hrow]
    simp only [hfp, hz', if_true, Bool.false_eq_true, if_false]
  refine ⟨(s.occupied op rq x).failInternal (originOf x op rq), ?_, ?_, ?_, ?_,
    ((s.occupied_only op rq x).mono rfl).step (State.failInternal_only ..) rfl⟩
  · rw [exec_asRequest hc, State.arrive_reached hr ho, hstart, hperf]
  · exact State.failInternal_sets ..
  · rw [State.failInternal_counts, hrd]
  · exact State.failInternal_replied hy (.inl hblk) hbeg

end Sys2Proof.Machine
end

section
/-! ## Command channel: repeats, and requests that wait (R39, R41) -/

namespace Sys2Proof.Machine

/-- The requests of a session that pass every test but that of a stored reply. -/
theorem State.intake_fits {s : State} {op : Nat} {rq : Request} {x : Session} (ho : op ≠ Op.SESSION_OPEN) (hp : s.phase = .ready)
    (hm : rq.transport = .mgmt → s.rdb P.CMD_MGMT_ENABLE = true) (hh : headerChecks rq op = true) (hl : lengthFits rq = true)
    (hs : s.session rq.session.toNat = some x) (ht : x.transport = rq.transport) (h1 : s.sessState x.num = 1)
    (hv : rq.version.toNat = x.version) (hf : opFits op x.version rq = true) (huse : x.tagsInUse.contains rq.tag.toNat = false)
    (hn : x.outstanding.length < s.rd P.CMD_MAX_OUTSTANDING) : s.intake op rq =
      ((x.replies.find? fun y => y.tag == rq.tag.toNat && y.op == op).map fun y => Verdict.resend y.pkt).getD (.take x) := by
  rw [State.intake_served hp hm ho hh hl (State.serving_of_open hs ht h1),
    State.sessionIntake_fits hv (State.not_frozen_of_serves (State.serves_of_open op rq h1)) hf, huse]
  simp [Nat.not_le.mpr hn]

theorem State.touch_rd (s : State) (op : Nat) (rq : Request) (b i : Nat) : (s.touch op rq).rd b i = s.rd b i := by
  unfold State.touch
  split
  · split <;> rfl
  · rfl

/-- The state in which a request is answered by a packet alone: its packet read and its session's idle timer restarted. -/
theorem State.touched_only (s : State) (op : Nat) (rq : Request) :
    Only (some [F.cmd, F.rings]) s ((s.received rq).touch op rq) :=
  (s.received_only rq).step (State.touch_only ..) rfl

/-- The state in which an admitted request waits behind an unfinished one of its session (R39). -/
def State.queued (s : State) (op : Nat) (rq : Request) (x : Session) : State :=
  ((s.noted op rq x).setSession x.uid fun y => { y with backlog := y.backlog ++ [⟨op, rq, s.cmd.arrivals⟩] }).setCmd fun c =>
    { c with arrivals := c.arrivals + 1 }

theorem State.queued_only (s : State) (op : Nat) (rq : Request) (x : Session) : Only (some [F.cmd, F.rings]) s (s.queued op rq x) :=
  ((s.noted_only op rq x).setSession rfl x.uid (fun y => { y with backlog := y.backlog ++ [⟨op, rq, s.cmd.arrivals⟩] })
    fun _ => rfl).setCmd rfl (fun c => { c with arrivals := c.arrivals + 1 }) rfl

theorem State.queued_sessionUid {s : State} {x : Session} (h : s.sessionUid x.uid = some x) (op : Nat) (rq : Request) :
    ∃ y, (s.queued op rq x).sessionUid x.uid = some y ∧ y.backlog = x.backlog ++ [⟨op, rq, s.cmd.arrivals⟩] ∧
      y.blocked = x.blocked := by
  have hr : (s.received rq).sessionUid x.uid = some x := by rw [← h]; simp [State.sessionUid]
  have hn : (s.noted op rq x).sessionUid x.uid = some (({ x with last := s.clock } : Session).noteStart rq.tag.toNat op) := by
    unfold State.noted
    rw [State.sessionUid_setSession _ _ _ (by intro _; rfl), State.sessionUid_setSession _ _ _ (by intro _; rfl), hr]
    rfl
  have hq := State.sessionUid_setSession (s.noted op rq x) x.uid
    (fun y => { y with backlog := y.backlog ++ [⟨op, rq, s.cmd.arrivals⟩] }) fun _ => rfl
  rw [hn] at hq
  exact ⟨_, hq, rfl, rfl⟩

/-- Settles O15: the intake resends, queues or takes the request by what its session holds. -/
theorem repeatedRequestGetsItsStoredReply : Obligations.RepeatedRequestGetsItsStoredReply := by
  unfold Obligations.RepeatedRequestGetsItsStoredReply
  refine ⟨?_, ?_, ?_⟩
  · intro c op rq s x y hc ho hp hcar hm hh hl hs ht h1 hv hf huse hn hdup
    have hi := State.intake_fits ho hp hm hh hl hs ht h1 hv hf huse hn
    rw [hdup, Option.map_some, Option.getD_some] at hi
    have hu : Only (some [F.cmd, F.rings, P.CMD_DUP_COUNT]) s (((s.received rq).touch op rq).count P.CMD_DUP_COUNT) :=
      ((s.touched_only op rq).mono rfl).count_plain rfl (by decide) 0 1
    refine ⟨_, ((s.received rq).touch op rq).count P.CMD_DUP_COUNT, ?_, rfl, ?_, hu,
      (hu.mono rfl).step (State.sendPacket_only ..) rfl⟩
    · rw [exec_asRequest hc, State.arrive_repeated hp hcar hi]
    · rw [State.count_plain _ _ (by simp), State.rd_wr_self, State.touch_rd, State.received_rd]
  · intro c op rq s x hc ho hp hcar hm hh hl hs hx ht h1 hv hf huse hn hdup hb
    have hi := State.intake_fits ho hp hm hh hl hs ht h1 hv hf huse hn
    rw [hdup, Option.map_none, Option.getD_none] at hi
    obtain ⟨y, hy, hback, hblk⟩ := State.queued_sessionUid hx op rq
    refine ⟨s.queued op rq x, y, ?_, hy, hback, hblk, s.queued_only op rq x⟩
    rw [exec_asRequest hc, State.arrive_admitted hp hcar hi, State.received_touch hh hl (State.serving_of_open hs ht h1)]
    unfold State.admitRequest State.queued
    rw [if_pos (.inl hb)]
    have ha : ((s.received rq).setSession x.uid fun y => { y with last := s.clock }).cmd.arrivals = s.cmd.arrivals := by
      unfold State.setSession
      simp
    rw [ha]
    rfl
  · intro c op rq s x r hc ho ht hr
    rw [exec_asRequest hc, State.arrive_taken ht hr ho]

end Sys2Proof.Machine
end

section
/-! ## Command channel: sessions opened, proved and closed (R29 to R33, R50, R521, R522) -/

namespace Sys2Proof.Machine

/-! ### Packets sent -/

theorem State.count_cmd (s : State) (b i n : Nat) : (s.count b i n).cmd = s.cmd := by
  unfold State.count State.bumpSet
  cases counterIndex b i with
  | none => rfl
  | some c => dsimp only; split <;> [split; skip] <;> rfl

/-- Only a packet for SPI joins the queue that SPI reads drain. -/
theorem State.sendPacket_spi (s : State) (tr : Transport) (chan : Nat) (p : Packet) :
    (s.sendPacket tr chan p).cmd.spi = if tr = .spi then s.cmd.spi ++ [.reply p] else s.cmd.spi := by
  have hd : ∀ t : State, (t.deliver tr chan p).cmd.spi = if tr = .spi then t.cmd.spi ++ [.reply p] else t.cmd.spi := by
    intro t
    unfold State.deliver
    cases tr <;> simp only [reduceCtorEq, if_true, if_false]
    · split <;> simp
    · rfl
    · split <;> simp
    · split <;> simp
  unfold State.sendPacket
  extract_lets t
  have ht : t.cmd = s.cmd := by unfold t; split <;> [exact State.count_cmd ..; rfl]
  rw [hd, ht]

/-- The count of refusals rises with a packet whose status is one (R53). -/
theorem State.sendPacket_refused (s : State) (tr : Transport) (chan : Nat) (p : Packet) :
    (s.sendPacket tr chan p).rd P.CMD_REFUSED_COUNT =
      if 0x100 ≤ p.status then (s.rd P.CMD_REFUSED_COUNT + 1) % 2 ^ 48 else s.rd P.CMD_REFUSED_COUNT := by
  unfold State.sendPacket
  extract_lets t
  rw [(State.deliver_only ..).rd _ _ (by decide) (by decide)]
  by_cases h : 0x100 ≤ p.status
  · simp only [t, if_pos h, State.count_plain _ _ (counterIndex_refused 0), State.rd_wr_self]
  · simp only [t, if_neg h]

theorem State.sendPacket_rd (s : State) (tr : Transport) (chan : Nat) (p : Packet) {b : Nat} (i : Nat) (hb : 62 ≤ b)
    (hr : b ≠ P.CMD_REFUSED_COUNT) (ht : b ≠ P.TBS_OVER_LIMIT_COUNT) : (s.sendPacket tr chan p).rd b i = s.rd b i := by
  refine (State.sendPacket_only s tr chan p).rd b i hb (not_allows ?_)
  simp only [List.forall_mem_cons]
  exact ⟨⟨field_ne hb rfl, by decide⟩, ⟨field_ne hb rfl, by decide⟩, ⟨hr.symm, by decide⟩, ⟨ht.symm, by decide⟩, by simp⟩

/-- A final reply for an SPI session waits to be read. -/
theorem State.finish_spi {s : State} {o : Origin} (st : Nat) (pl : List Byte) (h : (s.sessionUid o.uid).isSome = true)
    (ht : o.transport = .spi) : Waiting.reply (o.packet st true pl) ∈ (s.finish o st pl).cmd.spi := by
  obtain ⟨y, hy⟩ := Option.isSome_iff_exists.mp h
  unfold State.finish
  rw [hy]
  show _ ∈ (s.sendPacket o.transport o.chan (o.packet st true pl)).cmd.spi
  rw [State.sendPacket_spi, if_pos ht]
  exact List.mem_append_right _ (List.mem_singleton_self _)

/-! ### A SESSION_OPEN that waits for its proof is answered (R31) -/

/-- The final reply to a SESSION_OPEN, where one waits for it. -/
def State.answerOpening (s : State) (o : Option Origin) (st : Nat) (pl : List Byte) : State :=
  (o.map fun p => s.finishOpen p st pl).getD s

section
variable (s : State) (o : Option Origin) (st : Nat) (pl : List Byte)

theorem State.answerOpening_rd {b : Nat} (i : Nat) (hb : 62 ≤ b) (hr : b ≠ P.CMD_REFUSED_COUNT) (ht : b ≠ P.TBS_OVER_LIMIT_COUNT) :
    (s.answerOpening o st pl).rd b i = s.rd b i := by
  cases o with
  | none => rfl
  | some o => exact State.sendPacket_rd _ _ _ _ i hb hr ht

theorem State.answerOpening_sessions : (s.answerOpening o st pl).cmd.sessions = s.cmd.sessions := by
  cases o with
  | none => rfl
  | some o => exact State.sendPacket_sessions ..

theorem State.answerOpening_spi {w : Waiting} (hw : w ∈ s.cmd.spi) : w ∈ (s.answerOpening o st pl).cmd.spi := by
  cases o with
  | none => exact hw
  | some o =>
    show w ∈ (s.sendPacket o.transport o.chan _).cmd.spi
    rw [State.sendPacket_spi]
    split
    · exact List.mem_append_left _ hw
    · exact hw

end

/-! ### Closing -/

/-- The state in which a session's number is free, before a SESSION_OPEN that waits for its proof is answered. -/
def State.freed (s : State) (n : Nat) : State :=
  (((s.setCmd fun c => { c with sessions := dropBy Session.num n c.sessions }).wr P.CMD_SESSION_STATE (n - 1) 0).wr
    P.CMD_SESSION_PRIV (n - 1) 0).wr P.CMD_SESSION_TRANSPORT (n - 1) 0

/-- The registers that show the sessions (R53). -/
def sessionRegs : List Nat := [P.CMD_SESSION_STATE, P.CMD_SESSION_PRIV, P.CMD_SESSION_TRANSPORT]

theorem State.freed_rd (s : State) (n b i : Nat) :
    (s.freed n).rd b i = if i = n - 1 ∧ b ∈ sessionRegs then 0 else s.rd b i := by
  unfold State.freed
  simp only [State.rd_wr, State.setCmd_rd, sessionRegs, List.mem_cons, List.not_mem_nil, or_false]
  grind

theorem State.closeSession_eq {s : State} {n : Nat} {x : Session} (h : s.session n = some x) :
    s.closeSession n = (s.freed n).answerOpening x.opening Status.PROOF_FAILED [] := by
  unfold State.closeSession
  rw [h]
  cases ho : x.opening <;> simp only [ho] <;> rfl

section
variable {s : State} {n : Nat} {x : Session} (h : s.session n = some x)
include h

theorem State.closeSession_rd {b : Nat} (i : Nat) (hb : 62 ≤ b) (hr : b ≠ P.CMD_REFUSED_COUNT) (ht : b ≠ P.TBS_OVER_LIMIT_COUNT) :
    (s.closeSession n).rd b i = if i = n - 1 ∧ b ∈ sessionRegs then 0 else s.rd b i := by
  rw [State.closeSession_eq h, State.answerOpening_rd _ _ _ _ i hb hr ht, State.freed_rd]

theorem State.closeSession_sessions : (s.closeSession n).cmd.sessions = dropBy Session.num n s.cmd.sessions := by
  rw [State.closeSession_eq h, State.answerOpening_sessions]
  rfl

theorem State.closeSession_session : (s.closeSession n).session n = none := by
  unfold State.session
  rw [State.closeSession_sessions h]
  simp [findBy, dropBy, List.find?_eq_none]

theorem State.closeSession_spi {w : Waiting} (hw : w ∈ s.cmd.spi) : w ∈ (s.closeSession n).cmd.spi := by
  rw [State.closeSession_eq h]
  exact State.answerOpening_spi _ _ _ _ hw

theorem State.closeSession_state : (s.closeSession n).sessState n = 0 :=
  (State.closeSession_rd h _ (by decide) (by decide) (by decide)).trans (if_pos ⟨rfl, by decide⟩)

theorem State.closeSession_priv : (s.closeSession n).sessPriv n = 0 :=
  (State.closeSession_rd h _ (by decide) (by decide) (by decide)).trans (if_pos ⟨rfl, by decide⟩)

/-- The registers that show other sessions, and every other register but the count of refusals and of over-limit stamps, stay. -/
theorem State.closeSession_other {b i : Nat} (hb : 62 ≤ b) (hi : i ≠ n - 1 ∨ b ∉ sessionRegs) (hr : b ≠ P.CMD_REFUSED_COUNT)
    (ht : b ≠ P.TBS_OVER_LIMIT_COUNT) : (s.closeSession n).rd b i = s.rd b i :=
  (State.closeSession_rd h i hb hr ht).trans (if_neg fun hn => hi.elim (· hn.1) (· hn.2))

end

/-! ### A request that is taken off the fast path -/

theorem fastPath_slow {op : Nat} (rq : Request) (hr : op ≠ Op.PARAM_READ) (hw : op ≠ Op.PARAM_WRITE) : fastPath op rq = false := by
  simp [fastPath, hr, hw]

theorem State.begun_slow {op : Nat} {rq : Request} (h : fastPath op rq = false) (s : State) (x : Session) :
    s.begun op rq x = s.occupied op rq x := by
  rw [State.begun_eq, h]
  rfl

/-- A session found by its number under which its request came is found under its own number. -/
theorem State.taken_session {s : State} {op : Nat} {rq : Request} {x : Session} (h : s.taken op rq x) : s.session x.num = some x := by
  obtain ⟨⟨-, -, -, -, -, hs, -⟩, -, -⟩ := h
  have hk := findBy_key hs
  rwa [hk]

/-- A session that goes on under its number is found there. -/
theorem Steady.session {s t : State} (h : Steady s t) {n : Nat} {x : Session} (hx : s.session n = some x) :
    ∃ z, t.session n = some z ∧ x.Continues z := by
  obtain ⟨f, hf, hs⟩ := h.sessions
  refine ⟨f x, ?_, hf x⟩
  unfold State.session at hx ⊢
  rw [hs, findBy_map _ _ f fun x => (hf x).num, hx]
  rfl

/-- What a request that occupies a session leaves of the others, by their numbers. -/
theorem State.occupied_session {s : State} {n : Nat} {y : Session} (op : Nat) (rq : Request) (x : Session) (h : s.session n = some y) :
    ∃ z, (s.occupied op rq x).session n = some z := by
  have hs := (s.occupied_only op rq x).sessions rfl
  have hk : (s.occupied op rq x).cmd.sessions.map Session.num = s.cmd.sessions.map Session.num := by
    have := congrArg (List.map Prod.snd) hs
    rwa [List.map_map, List.map_map] at this
  refine Option.isSome_iff_exists.mp ((findBy_map_key Session.num n _ _ hk).trans ?_)
  exact Option.isSome_iff_exists.mpr ⟨y, h⟩

/-! ### SESSION_PROVE (R31, R521) -/

section
variable {s : State} {o : Origin} {x : Session} (b : List Byte) (h : s.sessionUid o.uid = some x)
include h

theorem sessionProve_other (h3 : s.sessState x.num ≠ 3) : sessionProve o b s = s.finish o Status.PROOF_FAILED [] := by
  unfold sessionProve
  simp only [h, if_pos h3]

theorem sessionProve_fails (h3 : s.sessState x.num = 3) (hp : s.proves x b = false) :
    sessionProve o b s = (s.finish o Status.PROOF_FAILED []).closeSession x.num := by
  unfold sessionProve
  simp only [h, h3, ne_eq, not_true_eq_false, hp, if_false, Bool.false_eq_true]

/-- The state in which a proved session is open, before its requests are answered. -/
def State.proved (s : State) (u num : Nat) : State :=
  (s.wr P.CMD_SESSION_STATE (num - 1) 1).setSession u fun y => { y with opening := none, nonce := [], last := s.clock }

theorem sessionProve_opens (h3 : s.sessState x.num = 3) (hp : s.proves x b = true) :
    sessionProve o b s = ((s.proved o.uid x.num).finish o Status.OK []).answerOpening x.opening Status.OK
      (openPayload x.num x.version) := by
  unfold sessionProve
  simp only [h, h3, ne_eq, not_true_eq_false, hp, if_true, if_false]
  cases ho : x.opening <;> rfl

end

/-- The proof of a session is judged by its nonce, its number and its time limit, and by the operator key. -/
theorem State.proves_congr {s t : State} {x y : Session} (hc : t.clock = s.clock) (hf : t.flash = s.flash) (hn : y.num = x.num)
    (hb : y.proveBy = x.proveBy) (hk : y.nonce = x.nonce) (b : List Byte) : t.proves y b = s.proves x b := by
  unfold State.proves
  rw [hc, hf, hn, hb, hk]

theorem State.occupied_proves (s : State) (op : Nat) (rq : Request) (x : Session) (b : List Byte) :
    (s.occupied op rq x).proves (x.occupiedBy s.clock rq.tag.toNat op) b = s.proves x b :=
  State.proves_congr (s.occupied_only op rq x).keeps.clock ((s.occupied_only op rq x).flash rfl) rfl rfl rfl b

end Sys2Proof.Machine
end

section
/-! ## Command channel: what SESSION_PROVE, SESSION_CLOSE, SESSION_SET and the timers of a session do -/

namespace Sys2Proof.Machine

/-- A request off the fast path has its opcode's effect on the state in which it occupies its session. -/
theorem exec_taken_slow {c : Instr} {s : State} {op : Nat} {rq : Request} {x : Session} {r : OpRow}
    (hc : asRequest c = some (op, rq)) (h : s.taken op rq x) (hr : opRow op = some r) (ho : op ≠ Op.SESSION_OPEN)
    (hf : fastPath op rq = false) :
    exec c s = .next (r.body (originOf x op rq) rq.payload (s.occupied op rq x)).settle := by
  rw [exec_asRequest hc, State.arrive_taken h hr ho, State.begun_slow hf]

theorem opRow_prove : opRow Op.SESSION_PROVE = some ⟨Op.SESSION_PROVE, 2, 0, size 64, sessionProve⟩ := rfl
theorem opRow_close : opRow Op.SESSION_CLOSE = some ⟨Op.SESSION_CLOSE, 1, 0, size 2, sessionClose⟩ := rfl
theorem opRow_set : opRow Op.SESSION_SET = some ⟨Op.SESSION_SET, 2, 0, size 8, sessionSet⟩ := rfl

/-- The final reply of a taken request whose session has gone on until then. -/
theorem State.taken_replied {s t : State} {op : Nat} {rq : Request} {x : Session} (h : s.taken op rq x)
    (g : Steady (s.occupied op rq x) t) (st : Nat) (pl : List Byte) : (t.finish (originOf x op rq) st pl).replied x op rq st pl := by
  obtain ⟨y, hy, hb, hc⟩ := State.reached_occupied h.1
  exact g.finish_replied hy (.inl hb) hc

theorem State.occupied_found {s : State} {op : Nat} {rq : Request} {x : Session} (h : s.taken op rq x) :
    ((s.occupied op rq x).sessionUid (originOf x op rq).uid).isSome = true := by
  obtain ⟨y, hy, -⟩ := State.reached_occupied h.1
  exact Option.isSome_iff_exists.mpr ⟨y, hy⟩

/-! ### SESSION_PROVE and its time limit -/

section
variable {rq : Request} {s : State} {x : Session} (h : s.taken Op.SESSION_PROVE rq x) (hx : s.sessionUid x.uid = some x)
include h

theorem State.exec_sessionProve : exec (.sessionProve rq) s =
    .next (sessionProve (originOf x Op.SESSION_PROVE rq) rq.payload (s.occupied Op.SESSION_PROVE rq x)).settle := by
  have e := exec_taken_slow (c := .sessionProve rq) rfl h opRow_prove (by decide) (fastPath_slow rq (by decide) (by decide))
  exact e

omit h in
include hx in
/-- The session of a SESSION_PROVE as the request occupies it. -/
theorem State.proving_found : (s.occupied Op.SESSION_PROVE rq x).sessionUid (originOf x Op.SESSION_PROVE rq).uid =
    some (x.occupiedBy s.clock rq.tag.toNat Op.SESSION_PROVE) := by
  show (s.occupied Op.SESSION_PROVE rq x).sessionUid x.uid = _
  rw [State.occupied_sessionUid, hx]
  rfl

include hx

theorem State.proof_opens (h3 : s.sessState x.num = 3) (hp : s.proves x rq.payload = true) :
    ∃ t : State, exec (.sessionProve rq) s = .next t.settle ∧ t.sessState x.num = 1 ∧ t.sessPriv x.num = s.sessPriv x.num ∧
      t.replied x Op.SESSION_PROVE rq Status.OK [] ∧ Only (some [F.cmd, F.rings, F.sessions, P.CMD_FASTPATH_COUNT, P.CMD_REFUSED_COUNT, P.CMD_SESSION_PRIV, P.CMD_SESSION_STATE, P.CMD_SESSION_TRANSPORT,
        P.TBS_OVER_LIMIT_COUNT]) s t ∧
      ∀ b i, 62 ≤ b → i ≠ x.num - 1 ∨ b ≠ P.CMD_SESSION_STATE → b ≠ P.CMD_REFUSED_COUNT → b ≠ P.CMD_FASTPATH_COUNT →
        b ≠ P.TBS_OVER_LIMIT_COUNT → t.rd b i = s.rd b i := by
  have hrd := State.occupied_rd s Op.SESSION_PROVE rq x
  have hopen := sessionProve_opens rq.payload (State.proving_found hx) ((hrd ..).trans h3)
    ((State.occupied_proves ..).trans hp)
  have hval : ∀ {b : Nat} (i : Nat), 62 ≤ b → b ≠ P.CMD_REFUSED_COUNT → b ≠ P.TBS_OVER_LIMIT_COUNT →
      (sessionProve (originOf x Op.SESSION_PROVE rq) rq.payload (s.occupied Op.SESSION_PROVE rq x)).rd b i =
        if b = P.CMD_SESSION_STATE ∧ i = x.num - 1 then 1 else s.rd b i := by
    intro b i hb hr ht
    rw [hopen, State.answerOpening_rd _ _ _ _ i hb hr ht, State.finish_rd _ _ _ _ i hb hr ht]
    exact (State.rd_wr ..).trans (by rw [hrd]; rfl)
  refine ⟨_, State.exec_sessionProve h, (hval _ (by decide) (by decide) (by decide)).trans (if_pos ⟨rfl, rfl⟩),
    (hval _ (by decide) (by decide) (by decide)).trans (if_neg fun e => absurd e.1 (by decide)), ?_,
    ((s.occupied_only ..).mono rfl).step (sessionProve_only ..) rfl, ?_⟩
  · have hw : Steady (s.occupied Op.SESSION_PROVE rq x) ((s.occupied Op.SESSION_PROVE rq x).proved x.uid x.num) :=
      ((Steady.refl _).wr ..).setSession _ _ fun y => ⟨rfl, rfl, rfl, rfl, rfl, .inl rfl⟩
    obtain ⟨y, hy, hb, hm⟩ := State.taken_replied h hw Status.OK []
    refine ⟨y, ?_, hb, hm⟩
    rw [hopen]
    unfold State.sessionUid
    rw [State.answerOpening_sessions]
    exact hy
  · intro b i hb hi hr _ ht
    exact (hval i hb hr ht).trans (if_neg fun hn => hi.elim (· hn.2) (· hn.1))

theorem State.proof_frees (h3 : s.sessState x.num = 3) (hp : s.proves x rq.payload = false) :
    ∃ t : State, exec (.sessionProve rq) s = .next t.settle ∧ t.sessState x.num = 0 ∧ t.sessPriv x.num = 0 ∧ t.session x.num = none ∧
      (rq.transport = .spi →
        Waiting.reply ((originOf x Op.SESSION_PROVE rq).packet Status.PROOF_FAILED true []) ∈ t.cmd.spi) ∧
      Only (some [F.cmd, F.rings, F.sessions, P.CMD_FASTPATH_COUNT, P.CMD_REFUSED_COUNT, P.CMD_SESSION_PRIV, P.CMD_SESSION_STATE, P.CMD_SESSION_TRANSPORT,
        P.TBS_OVER_LIMIT_COUNT]) s t ∧
      ∀ b i, 62 ≤ b → i ≠ x.num - 1 ∨ b ∉ sessionRegs →
        b ∉ [P.CMD_REFUSED_COUNT, P.CMD_FASTPATH_COUNT, P.TBS_OVER_LIMIT_COUNT] → t.rd b i = s.rd b i := by
  have hrd := State.occupied_rd s Op.SESSION_PROVE rq x
  have hfree : _ = ((s.occupied Op.SESSION_PROVE rq x).finish (originOf x Op.SESSION_PROVE rq) Status.PROOF_FAILED []).closeSession
      x.num := sessionProve_fails (x := x.occupiedBy s.clock rq.tag.toNat Op.SESSION_PROVE) rq.payload (State.proving_found hx) ((hrd ..).trans h3)
    ((State.occupied_proves ..).trans hp)
  obtain ⟨y, hy⟩ := State.occupied_session Op.SESSION_PROVE rq x (State.taken_session h)
  obtain ⟨z, hz, -⟩ := (State.finish_steady (s.occupied Op.SESSION_PROVE rq x) (originOf x Op.SESSION_PROVE rq)
    Status.PROOF_FAILED []).session hy
  have hframe := ((s.occupied_only Op.SESSION_PROVE rq x).mono rfl).step
    (sessionProve_only (originOf x Op.SESSION_PROVE rq) rq.payload _)
    (W := some [F.cmd, F.rings, F.sessions, P.CMD_FASTPATH_COUNT, P.CMD_REFUSED_COUNT, P.CMD_SESSION_PRIV, P.CMD_SESSION_STATE,
      P.CMD_SESSION_TRANSPORT, P.TBS_OVER_LIMIT_COUNT]) rfl
  have hexec := State.exec_sessionProve h
  rw [hfree] at hframe hexec
  refine ⟨_, hexec, State.closeSession_state hz, State.closeSession_priv hz, State.closeSession_session hz, ?_, hframe, ?_⟩
  · intro htr
    exact State.closeSession_spi hz (State.finish_spi _ _ (State.occupied_found h) htr)
  · intro b i hb hi hn
    simp only [List.mem_cons, List.not_mem_nil, or_false, not_or] at hn
    obtain ⟨hr, -, ht⟩ := hn
    rw [State.closeSession_other hz hb hi hr ht, State.finish_rd _ _ _ _ i hb hr ht, hrd]

theorem State.proof_refused (h3 : s.sessState x.num ≠ 3) :
    ∃ t : State, exec (.sessionProve rq) s = .next t.settle ∧ t.replied x Op.SESSION_PROVE rq Status.PROOF_FAILED [] ∧
      Only (some [F.cmd, F.rings, P.CMD_REFUSED_COUNT, P.TBS_OVER_LIMIT_COUNT]) s t := by
  have hexec := State.exec_sessionProve h
  rw [sessionProve_other rq.payload (State.proving_found hx) fun e => h3 (((State.occupied_rd ..).symm.trans e))] at hexec
  exact ⟨_, hexec, State.taken_replied h (.refl _) .., ((s.occupied_only ..).mono rfl).step (State.finish_only ..) rfl⟩

end

/-- The closing of a session by a timer: its number is free, and of the registers only its own and two counts change. -/
theorem State.closed_by_timer {s : State} {n : Fin 16} {x : Session} (h : s.session (n.val + 1) = some x) :
    (s.closeSession x.num).sessState (n.val + 1) = 0 ∧ (s.closeSession x.num).sessPriv (n.val + 1) = 0 ∧
      (s.closeSession x.num).session (n.val + 1) = none ∧
      Only (some [F.cmd, F.rings, F.sessions, P.CMD_REFUSED_COUNT, P.CMD_SESSION_PRIV, P.CMD_SESSION_STATE, P.CMD_SESSION_TRANSPORT, P.TBS_OVER_LIMIT_COUNT]) s
        (s.closeSession x.num) ∧
      ∀ b i, 62 ≤ b → i ≠ n.val ∨ b ∉ sessionRegs → b ∉ [P.CMD_REFUSED_COUNT, P.TBS_OVER_LIMIT_COUNT] →
        (s.closeSession x.num).rd b i = s.rd b i := by
  have hnum : x.num = n.val + 1 := findBy_key h
  rw [hnum]
  refine ⟨State.closeSession_state h, State.closeSession_priv h, State.closeSession_session h,
    (State.closeSession_only ..).mono rfl, fun b i hb hi hn => ?_⟩
  simp only [List.mem_cons, List.not_mem_nil, or_false, not_or] at hn
  exact State.closeSession_other h hb hi hn.1 hn.2

/-- Settles O10: the four outcomes of a proof, one lemma each, and the timer that closes the session. -/
theorem sessionProofOpensOrFrees : Obligations.SessionProofOpensOrFrees := by
  unfold Obligations.SessionProofOpensOrFrees
  refine ⟨fun rq s x h hx => State.proof_opens h hx, fun rq s x h hx => State.proof_frees h hx,
    fun rq s x h hx => State.proof_refused h hx, ?_, ?_⟩
  · intro n s x hx h3 hby
    refine ⟨s.closeSession x.num, ?_, State.closed_by_timer hx⟩
    show execProofTimeout n s = _
    unfold execProofTimeout
    rw [hx]
    exact if_pos ⟨h3, hby⟩
  · intro n s hno
    show execProofTimeout n s = _
    unfold execProofTimeout
    cases hx : s.session (n.val + 1) with
    | none => rfl
    | some x => exact if_neg fun hc => (hno x hx).elim (· hc.1) fun hlt => absurd hc.2 (Nat.not_le.mpr hlt)

/-! ### SESSION_CLOSE and the idle timer (R33) -/

section
variable {s : State} {o : Origin} (b : List Byte)

theorem sessionClose_bad_value (h : beAt 0 2 b = 0 ∨ 16 < beAt 0 2 b) :
    sessionClose o b s = s.finish o Status.BAD_VALUE [] := if_pos h

variable (h : 1 ≤ beAt 0 2 b ∧ beAt 0 2 b ≤ 16)
include h

theorem sessionClose_not_found (hf : s.sessState (beAt 0 2 b) = 0) : sessionClose o b s = s.finish o Status.NOT_FOUND [] := by
  unfold sessionClose
  simp only [show ¬ (beAt 0 2 b = 0 ∨ 16 < beAt 0 2 b) by omega, if_false, hf, if_true]

theorem sessionClose_closes (hf : s.sessState (beAt 0 2 b) ≠ 0) :
    sessionClose o b s = (s.finish o Status.OK []).closeSession (beAt 0 2 b) := by
  unfold sessionClose
  simp only [show ¬ (beAt 0 2 b = 0 ∨ 16 < beAt 0 2 b) by omega, if_false, if_neg hf]

end

section
variable {rq : Request} {s : State} {x : Session}

theorem State.exec_sessionClose (h : s.taken Op.SESSION_CLOSE rq x) : exec (.sessionClose rq) s =
    .next (sessionClose (originOf x Op.SESSION_CLOSE rq) rq.payload (s.occupied Op.SESSION_CLOSE rq x)).settle := by
  have e := exec_taken_slow (c := .sessionClose rq) rfl h opRow_close (by decide) (fastPath_slow rq (by decide) (by decide))
  exact e

theorem State.exec_sessionSet (h : s.taken Op.SESSION_SET rq x) : exec (.sessionSet rq) s =
    .next (sessionSet (originOf x Op.SESSION_SET rq) rq.payload (s.occupied Op.SESSION_SET rq x)).settle := by
  have e := exec_taken_slow (c := .sessionSet rq) rfl h opRow_set (by decide) (fastPath_slow rq (by decide) (by decide))
  exact e

/-- A closing session: the named number is free, the others stay, and the sender has its OK. -/
theorem State.close_frees (h : s.taken Op.SESSION_CLOSE rq x) (h1 : 1 ≤ beAt 0 2 rq.payload) (h16 : beAt 0 2 rq.payload ≤ 16)
    (hf : s.sessState (beAt 0 2 rq.payload) ≠ 0) (hs : (s.session (beAt 0 2 rq.payload)).isSome = true) :
    ∃ t : State, exec (.sessionClose rq) s = .next t.settle ∧ t.sessState (beAt 0 2 rq.payload) = 0 ∧
      t.sessPriv (beAt 0 2 rq.payload) = 0 ∧ t.session (beAt 0 2 rq.payload) = none ∧
      (∀ m, m - 1 ≠ beAt 0 2 rq.payload - 1 → t.sessState m = s.sessState m ∧ t.sessPriv m = s.sessPriv m) ∧
      (rq.transport = .spi → Waiting.reply ((originOf x Op.SESSION_CLOSE rq).packet Status.OK true []) ∈ t.cmd.spi) ∧
      Only (some [F.cmd, F.rings, F.sessions, P.CMD_FASTPATH_COUNT, P.CMD_REFUSED_COUNT, P.CMD_SESSION_PRIV, P.CMD_SESSION_STATE, P.CMD_SESSION_TRANSPORT,
        P.TBS_OVER_LIMIT_COUNT]) s t := by
  have hrd := State.occupied_rd s Op.SESSION_CLOSE rq x
  have hclose : _ = ((s.occupied Op.SESSION_CLOSE rq x).finish (originOf x Op.SESSION_CLOSE rq) Status.OK []).closeSession
      (beAt 0 2 rq.payload) := sessionClose_closes rq.payload ⟨h1, h16⟩ fun e => hf ((hrd ..).symm.trans e)
  have hexec := State.exec_sessionClose h
  rw [hclose] at hexec
  obtain ⟨w, hw⟩ := Option.isSome_iff_exists.mp hs
  obtain ⟨y, hy⟩ := State.occupied_session Op.SESSION_CLOSE rq x hw
  obtain ⟨z, hz, -⟩ := (State.finish_steady (s.occupied Op.SESSION_CLOSE rq x) (originOf x Op.SESSION_CLOSE rq)
    Status.OK []).session hy
  have hother : ∀ {b m : Nat}, 62 ≤ b → b ≠ P.CMD_REFUSED_COUNT → b ≠ P.TBS_OVER_LIMIT_COUNT → m ≠ beAt 0 2 rq.payload - 1 →
      (((s.occupied Op.SESSION_CLOSE rq x).finish (originOf x Op.SESSION_CLOSE rq) Status.OK []).closeSession
        (beAt 0 2 rq.payload)).rd b m = s.rd b m := by
    intro b m hb hr ht hm
    rw [State.closeSession_other hz hb (.inl hm) hr ht, State.finish_rd _ _ _ _ m hb hr ht, hrd]
  refine ⟨_, hexec, State.closeSession_state hz, State.closeSession_priv hz, State.closeSession_session hz, ?_, ?_, ?_⟩
  · exact fun m hm => ⟨hother (by decide) (by decide) (by decide) hm, hother (by decide) (by decide) (by decide) hm⟩
  · intro htr
    exact State.closeSession_spi hz (State.finish_spi _ _ (State.occupied_found h) htr)
  · rw [← hclose]
    exact ((s.occupied_only ..).mono rfl).step (sessionClose_only ..) rfl

theorem State.close_refused (h : s.taken Op.SESSION_CLOSE rq x) {st : Nat}
    (hst : ((beAt 0 2 rq.payload = 0 ∨ 16 < beAt 0 2 rq.payload) ∧ st = Status.BAD_VALUE) ∨
      (1 ≤ beAt 0 2 rq.payload ∧ beAt 0 2 rq.payload ≤ 16 ∧ s.sessState (beAt 0 2 rq.payload) = 0 ∧ st = Status.NOT_FOUND)) :
    ∃ t : State, exec (.sessionClose rq) s = .next t.settle ∧ t.replied x Op.SESSION_CLOSE rq st [] ∧
      Only (some [F.cmd, F.rings, P.CMD_REFUSED_COUNT, P.TBS_OVER_LIMIT_COUNT]) s t := by
  have hbody : sessionClose (originOf x Op.SESSION_CLOSE rq) rq.payload (s.occupied Op.SESSION_CLOSE rq x) =
      (s.occupied Op.SESSION_CLOSE rq x).finish (originOf x Op.SESSION_CLOSE rq) st [] := by
    rcases hst with ⟨hv, rfl⟩ | ⟨h1, h16, hf, rfl⟩
    · exact sessionClose_bad_value _ hv
    · exact sessionClose_not_found _ ⟨h1, h16⟩ ((State.occupied_rd ..).trans hf)
  have hexec := State.exec_sessionClose h
  rw [hbody] at hexec
  exact ⟨_, hexec, State.taken_replied h (.refl _) .., ((s.occupied_only ..).mono rfl).step (State.finish_only ..) rfl⟩

/-! ### SESSION_SET (R50, R421) -/

theorem State.set_refused (h : s.taken Op.SESSION_SET rq x) (ht : rq.transport = .nhp) (hm : beAt 0 8 rq.payload ≠ 0) :
    ∃ t : State, exec (.sessionSet rq) s = .next t.settle ∧ t.replied x Op.SESSION_SET rq Status.BAD_VALUE [] ∧
      Only (some [F.cmd, F.rings, P.CMD_REFUSED_COUNT, P.TBS_OVER_LIMIT_COUNT]) s t := by
  have hbody : sessionSet (originOf x Op.SESSION_SET rq) rq.payload (s.occupied Op.SESSION_SET rq x) =
      (s.occupied Op.SESSION_SET rq x).finish (originOf x Op.SESSION_SET rq) Status.BAD_VALUE [] := if_pos ⟨ht, hm⟩
  have hexec := State.exec_sessionSet h
  rw [hbody] at hexec
  exact ⟨_, hexec, State.taken_replied h (.refl _) .., ((s.occupied_only ..).mono rfl).step (State.finish_only ..) rfl⟩

/-- The final reply of a request leaves the notice mask of its session. -/
theorem State.finish_mask {s : State} {o : Origin} {y : Session} (st : Nat) (pl : List Byte) (h : s.sessionUid o.uid = some y) :
    ∃ z, (s.finish o st pl).sessionUid o.uid = some z ∧ z.mask = y.mask := by
  unfold State.finish
  rw [h]
  dsimp only
  rw [State.sessionUid_setSession _ _ _ (by intro _; rfl)]
  have hs : (s.sendPacket o.transport o.chan (o.packet st true pl)).sessionUid o.uid = some y := by
    rw [← h]
    simp [State.sessionUid]
  rw [hs]
  exact ⟨_, rfl, rfl⟩

theorem State.set_stores (h : s.taken Op.SESSION_SET rq x) (hm : rq.transport ≠ .nhp ∨ beAt 0 8 rq.payload = 0) :
    ∃ (t : State) (y : Session), exec (.sessionSet rq) s = .next t.settle ∧ t.sessionUid x.uid = some y ∧ y.mask = beAt 0 8 rq.payload ∧
      t.replied x Op.SESSION_SET rq Status.OK [] ∧ Only (some [F.cmd, F.rings, P.CMD_FASTPATH_COUNT, P.CMD_REFUSED_COUNT, P.TBS_OVER_LIMIT_COUNT]) s t := by
  let u := (s.occupied Op.SESSION_SET rq x).setSession x.uid fun y => { y with mask := beAt 0 8 rq.payload }
  have hbody : sessionSet (originOf x Op.SESSION_SET rq) rq.payload (s.occupied Op.SESSION_SET rq x) =
      u.finish (originOf x Op.SESSION_SET rq) Status.OK [] := if_neg fun e => hm.elim (· e.1) (e.2 ·)
  have hexec := State.exec_sessionSet h
  rw [hbody] at hexec
  obtain ⟨y, hy, -⟩ := State.reached_occupied h.1
  have hu : u.sessionUid (originOf x Op.SESSION_SET rq).uid = some { y with mask := beAt 0 8 rq.payload } := by
    show ((s.occupied Op.SESSION_SET rq x).setSession x.uid _).sessionUid x.uid = _
    rw [State.sessionUid_setSession _ _ _ (by intro _; rfl), hy]
    rfl
  obtain ⟨z, hz, hmask⟩ := State.finish_mask Status.OK [] hu
  refine ⟨_, z, hexec, hz, hmask, State.taken_replied h ?_ .., ?_⟩
  · exact (Steady.refl _).setSession _ _ fun y => ⟨rfl, rfl, rfl, rfl, rfl, .inl rfl⟩
  · rw [← hbody]
    exact ((s.occupied_only ..).mono rfl).step (sessionSet_only ..) rfl

end

/-- Settles O11: each outcome of SESSION_CLOSE and SESSION_SET by its lemma, and the idle timer by its guard. -/
theorem sessionClosesAndSets : Obligations.SessionClosesAndSets := by
  unfold Obligations.SessionClosesAndSets
  refine ⟨fun rq s x h => State.close_frees h, fun rq s x st h => State.close_refused h, ?_, ?_, ?_,
    fun rq s x h => State.set_refused h, fun rq s x h => State.set_stores h⟩
  · intro n s x hx h1 hidle hby
    obtain ⟨hst, -, hnone, honly, -⟩ := State.closed_by_timer hx
    refine ⟨s.closeSession x.num, ?_, hst, hnone, honly⟩
    show execSessionIdleTimeout n s = _
    unfold execSessionIdleTimeout
    rw [hx]
    exact if_pos ⟨h1, hidle, hby⟩
  · intro n s x hx hno
    show execSessionIdleTimeout n s = _
    unfold execSessionIdleTimeout
    rw [hx]
    refine if_neg fun hc => ?_
    rcases hno with h | h | h
    · exact h hc.1
    · exact hc.2.1 h
    · exact absurd hc.2.2 (Nat.not_le.mpr h)
  · intro n s hx
    show execSessionIdleTimeout n s = _
    unfold execSessionIdleTimeout
    rw [hx]

end Sys2Proof.Machine
end

section
/-! ## Command channel: SESSION_OPEN (R29, R31, R522) -/

namespace Sys2Proof.Machine

/-! ### The free number -/

theorem State.freeSession_some {s : State} {n : Nat} (h : s.freeSession = some n) :
    1 ≤ n ∧ n ≤ 16 ∧ s.sessState n = 0 ∧ ∀ m, 1 ≤ m → m < n → s.sessState m ≠ 0 := by
  unfold State.freeSession at h
  obtain ⟨hf, i, hi, hn, hlow⟩ := List.find?_eq_some_iff_getElem.mp h
  simp only [List.length_map, List.length_range, List.getElem_map, List.getElem_range] at hi hn hlow
  refine ⟨by omega, by omega, by simpa using hf, fun m h1 hm => ?_⟩
  have := hlow (m - 1) (by omega)
  rw [Nat.sub_add_cancel h1] at this
  simpa using this

/-! ### The tests of R522 -/

section
variable {s t : State} (hrd : ∀ b i, t.rd b i = s.rd b i)
include hrd

theorem State.freeSession_congr : t.freeSession = s.freeSession := by
  simp only [State.freeSession, State.sessState, hrd]

theorem State.versionOf_congr (bitmap : Nat) : t.versionOf bitmap = s.versionOf bitmap := by
  simp only [State.versionOf, hrd]

theorem State.needsProof_congr (tr : Transport) (priv : Nat) : t.needsProof tr priv = s.needsProof tr priv := by
  simp only [State.needsProof, hrd]

theorem State.openRefusal_congr (tr : Transport) (bitmap priv : Nat) :
    t.openRefusal tr bitmap priv = s.openRefusal tr bitmap priv := by
  simp only [State.openRefusal, State.versionOf_congr hrd, State.freeSession_congr hrd, hrd]

end

theorem State.free_of_no_refusal {s : State} {tr : Transport} {bitmap priv : Nat} (h : s.openRefusal tr bitmap priv = 0) :
    ∃ n, s.freeSession = some n := by
  refine Option.ne_none_iff_exists'.mp fun hn => ?_
  unfold State.openRefusal at h
  simp only [hn, if_true] at h
  repeat' split at h
  all_goals exact absurd h (by decide)

/-! ### The session that comes to be -/

section
variable (s : State) (x : Session) (q priv : Nat)

theorem State.addSession_rd (b i : Nat) : (s.addSession x q priv).rd b i =
    if i = x.num - 1 ∧ b = P.CMD_SESSION_STATE then q
    else if i = x.num - 1 ∧ b = P.CMD_SESSION_PRIV then priv
    else if i = x.num - 1 ∧ b = P.CMD_SESSION_TRANSPORT then trCode x.transport
    else s.rd b i := by
  unfold State.addSession
  simp only [State.rd_wr, State.setCmd_rd]
  grind

theorem State.addSession_sessions : (s.addSession x q priv).cmd.sessions = s.cmd.sessions ++ [x] := rfl

end

/-- The session that a SESSION_OPEN with the proof needed or not brings about (R31, R37, R50). -/
def State.opened (s : State) (rq : Request) (n : Nat) : Session :=
  let mask := if rq.transport = .nhp then 0 else beAt 4 8 rq.payload
  let v := s.versionOf (beAt 0 1 rq.payload)
  if s.needsProof rq.transport (beAt 1 1 rq.payload) then
    ⟨n, s.cmd.nextUid, rq.transport, rq.chan, v, mask, s.clock, toBe 32 (Config.random s.fresh).toNat, s.clock + 10000000000,
      some ⟨s.cmd.nextUid, rq.transport, rq.chan, n, v, Op.SESSION_OPEN, rq.tag.toNat⟩, none, [], [], [], 0⟩
  else ⟨n, s.cmd.nextUid, rq.transport, rq.chan, v, mask, s.clock, [], 0, none, none, [], [], [], 0⟩

/-- The state of the session that a SESSION_OPEN brings about: PROVING where its privilege needs a proof (R31). -/
def State.openedState (s : State) (rq : Request) : Nat := if s.needsProof rq.transport (beAt 1 1 rq.payload) then 3 else 1

/-- The state in which a nonce has been drawn for the session, where it needs one. -/
def State.challenged (s : State) (rq : Request) : State :=
  if s.needsProof rq.transport (beAt 1 1 rq.payload) then { s with fresh := s.fresh + 1 } else s

theorem State.challenged_rd (s : State) (rq : Request) (b i : Nat) : (s.challenged rq).rd b i = s.rd b i := by
  unfold State.challenged
  split <;> rfl

theorem State.challenged_cmd (s : State) (rq : Request) : (s.challenged rq).cmd = s.cmd := by
  unfold State.challenged
  split <;> rfl

theorem State.challenged_only (s : State) (rq : Request) : Only (some [F.fresh]) s (s.challenged rq) :=
  Only.cond _ ((Only.refl _ s).set_fresh rfl _) (Only.refl _ s)

theorem Origin.packet_short {o : Origin} {pl : List Byte} (st : Nat) (final : Bool) (h : pl.length ≤ 4056) :
    (o.packet st final pl).status = st := by
  have : ¬ 4056 < pl.length := Nat.not_lt.mpr h
  simp [Origin.packet, this]

/-- A packet whose status is no refusal is delivered without a count. -/
theorem State.sendPacket_accepted (s : State) (tr : Transport) (chan : Nat) {p : Packet} (h : p.status < 0x100) :
    s.sendPacket tr chan p = s.deliver tr chan p := by
  unfold State.sendPacket
  rw [if_neg (Nat.not_le.mpr h)]

theorem toLe_length (n v : Nat) : (toLe n v).length = n := by
  induction n generalizing v with
  | zero => rfl
  | succ n ih => simp [toLe, ih]

theorem toBe_length (n v : Nat) : (toBe n v).length = n := (List.length_reverse ..).trans (toLe_length n v)

/-- A SESSION_OPEN that passes the tests adds its session under the lowest free number and answers with one packet. -/
theorem sessionOpen_opens {s : State} {rq : Request} {n : Nat} (hf : s.freeSession = some n)
    (h : s.openRefusal rq.transport (beAt 0 1 rq.payload) (beAt 1 1 rq.payload) = 0) :
    ∃ p, p.status < 0x100 ∧ sessionOpen rq s =
      ((s.challenged rq).addSession (s.opened rq n) (s.openedState rq) (beAt 1 1 rq.payload)).sendPacket rq.transport rq.chan p := by
  unfold sessionOpen State.challenged State.opened State.openedState
  simp only [h, ne_eq, not_true_eq_false, if_false, hf, Option.getD_some]
  by_cases hp : s.needsProof rq.transport (beAt 1 1 rq.payload) = true
  · simp only [hp, if_true]
    refine ⟨_, ?_, rfl⟩
    rw [Origin.packet_short _ _ (by simp [openPayload, toBe_length])]
    decide
  · simp only [hp, if_false, Bool.false_eq_true]
    refine ⟨_, ?_, rfl⟩
    rw [Origin.packet_short _ _ (by simp [openPayload, toBe_length])]
    decide

section
variable (s : State) (rq : Request) (n : Nat)

theorem State.opened_num : (s.opened rq n).num = n := by unfold State.opened; dsimp only; split <;> rfl
theorem State.opened_uid : (s.opened rq n).uid = s.cmd.nextUid := by unfold State.opened; dsimp only; split <;> rfl
theorem State.opened_transport : (s.opened rq n).transport = rq.transport := by unfold State.opened; dsimp only; split <;> rfl
theorem State.opened_version : (s.opened rq n).version = s.versionOf (beAt 0 1 rq.payload) := by
  unfold State.opened; dsimp only; split <;> rfl
theorem State.opened_blocked : (s.opened rq n).blocked = none := by unfold State.opened; dsimp only; split <;> rfl
theorem State.opened_backlog : (s.opened rq n).backlog = [] := by unfold State.opened; dsimp only; split <;> rfl
theorem State.opened_mask : (s.opened rq n).mask = if rq.transport = .nhp then 0 else beAt 4 8 rq.payload := by
  unfold State.opened; dsimp only; split <;> rfl

theorem State.opened_proof (h : s.needsProof rq.transport (beAt 1 1 rq.payload) = true) :
    (s.opened rq n).proveBy = s.clock + 10000000000 ∧ (s.opened rq n).nonce.length = 32 := by
  unfold State.opened
  dsimp only
  rw [if_pos h]
  exact ⟨rfl, toBe_length ..⟩

end

theorem State.deliver_rd (s : State) (tr : Transport) (chan : Nat) (p : Packet) {b : Nat} (i : Nat) (hb : 62 ≤ b)
    (ht : b ≠ P.TBS_OVER_LIMIT_COUNT) : (s.deliver tr chan p).rd b i = s.rd b i := by
  refine (State.deliver_only s tr chan p).rd b i hb (not_allows ?_)
  simp only [List.forall_mem_cons]
  exact ⟨⟨field_ne hb rfl, by decide⟩, ⟨field_ne hb rfl, by decide⟩, ⟨ht.symm, by decide⟩, by simp⟩

/-! ### A SESSION_OPEN that passes the tests -/

section
variable {s : State} {rq : Request} (ho : s.opens rq)
  (h : s.openRefusal rq.transport (beAt 0 1 rq.payload) (beAt 1 1 rq.payload) = 0)
include ho h

theorem State.exec_opens : ∃ (n : Nat) (p : Packet), s.freeSession = some n ∧ p.status < 0x100 ∧
    exec (.sessionOpen rq) s = .next ((((s.received rq).challenged rq).addSession ((s.received rq).opened rq n)
      ((s.received rq).openedState rq) (beAt 1 1 rq.payload)).sendPacket rq.transport rq.chan p).settle := by
  obtain ⟨n, hn⟩ := State.free_of_no_refusal h
  have hrd := s.received_rd rq
  obtain ⟨p, hp, hs⟩ := sessionOpen_opens (s := s.received rq) ((State.freeSession_congr hrd).trans hn)
    ((State.openRefusal_congr hrd ..).trans h)
  refine ⟨n, p, hn, hp, ?_⟩
  show Host.Outcome.next (s.arrive Op.SESSION_OPEN rq) = _
  rw [State.arrive_opens ho, hs]

end

/-- Settles O8: the session is added under the free number in the state in which its packet is read, and one packet is sent. -/
theorem sessionOpenIsGrantedOrChallenged : Obligations.SessionOpenIsGrantedOrChallenged := by
  unfold Obligations.SessionOpenIsGrantedOrChallenged
  intro rq s ho h
  obtain ⟨n, p, hn, hp, hexec⟩ := State.exec_opens ho h
  obtain ⟨h1, h16, h0, hlow⟩ := State.freeSession_some hn
  have hrd := s.received_rd rq
  have hneed := State.needsProof_congr hrd rq.transport (beAt 1 1 rq.payload)
  generalize hx : (s.received rq).opened rq n = x at hexec
  have hnum : x.num = n := hx ▸ State.opened_num ..
  generalize hu : ((s.received rq).challenged rq).addSession x ((s.received rq).openedState rq) (beAt 1 1 rq.payload) = u at hexec
  have hurd : ∀ b i, u.rd b i = if i = n - 1 ∧ b = P.CMD_SESSION_STATE then (s.received rq).openedState rq
      else if i = n - 1 ∧ b = P.CMD_SESSION_PRIV then beAt 1 1 rq.payload
      else if i = n - 1 ∧ b = P.CMD_SESSION_TRANSPORT then trCode rq.transport else s.rd b i := by
    intro b i
    rw [← hu, State.addSession_rd, hnum, State.challenged_rd, hrd, ← hx, State.opened_transport]
  have htrd : ∀ {b : Nat} (i : Nat), 62 ≤ b → b ≠ P.TBS_OVER_LIMIT_COUNT → (u.sendPacket rq.transport rq.chan p).rd b i = u.rd b i := by
    intro b i hb ht
    rw [State.sendPacket_accepted _ _ _ hp, State.deliver_rd _ _ _ _ i hb ht]
  refine ⟨u.sendPacket rq.transport rq.chan p, n, x, hexec, h1, h16, h0, hlow, ?_, ?_, ?_, ?_, hnum, ?_, ?_, ?_, ?_, ?_, ?_, ?_, ?_, ?_⟩
  · refine (htrd _ (by decide) (by decide)).trans ((hurd ..).trans ((if_pos ⟨rfl, rfl⟩).trans ?_))
    unfold State.openedState
    rw [hneed]
  · exact (htrd _ (by decide) (by decide)).trans ((hurd ..).trans ((if_neg fun e => absurd e.2 (by decide)).trans (if_pos ⟨rfl, rfl⟩)))
  · exact (htrd _ (by decide) (by decide)).trans ((hurd ..).trans ((if_neg fun e => absurd e.2 (by decide)).trans
      ((if_neg fun e => absurd e.2 (by decide)).trans (if_pos ⟨rfl, rfl⟩))))
  · rw [State.sendPacket_sessions, ← hu, State.addSession_sessions, State.challenged_cmd, State.received_cmd]
  · rw [← hx, State.opened_uid, State.received_cmd]
  · rw [← hx, State.opened_transport]
  · rw [← hx, State.opened_version, State.versionOf_congr hrd]
  · rw [← hx, State.opened_blocked]
  · rw [← hx, State.opened_backlog]
  · rw [← hx, State.opened_mask]
  · intro hpr
    have hproof := State.opened_proof (s.received rq) rq n (hneed.trans hpr)
    rwa [hx, State.received_clock] at hproof
  · intro b i hb hi ht
    refine (htrd i hb ht).trans ((hurd ..).trans ?_)
    have hno : ∀ r ∈ sessionRegs, ¬ (i = n - 1 ∧ b = r) := fun r hr e => hi.elim (· e.1) (· (e.2 ▸ hr))
    rw [if_neg (hno _ (by simp [sessionRegs])), if_neg (hno _ (by simp [sessionRegs])), if_neg (hno _ (by simp [sessionRegs]))]
  · rw [← hu, State.sendPacket_accepted _ _ _ hp]
    exact ((((s.received_only rq).mono rfl).step (State.challenged_only ..) rfl).step (State.addSession_only ..) rfl).step
      (State.deliver_only ..) rfl

end Sys2Proof.Machine
end

section
/-! ## Command channel: how packets leave (R23, R24, R48, R480) -/

namespace Sys2Proof.Machine

/-- A packet for MGMT is sent at once as one UDP datagram to the port it came from (R23, R53). -/
theorem State.deliver_mgmt (s : State) (chan : Nat) (p : Packet) (h : s.rdb P.CMD_MGMT_ENABLE = true) :
    s.deliver .mgmt chan p = s.emit (.udp chan p.bytes) := by
  unfold State.deliver
  rw [if_pos h]

/-- The refusals counted before a packet is delivered (R53). -/
def State.counted (s : State) (p : Packet) : State := if 0x100 ≤ p.status then s.count P.CMD_REFUSED_COUNT else s

section
variable (s : State) (p : Packet)

theorem State.counted_rd {b : Nat} (i : Nat) (hb : b ≠ P.CMD_REFUSED_COUNT) : (s.counted p).rd b i = s.rd b i := by
  unfold State.counted
  split
  · exact State.rd_count_plain s 1 b i (counterIndex_refused 0) hb
  · rfl

theorem State.counted_out : (s.counted p).out = s.out := by
  unfold State.counted
  rw [State.count_plain s 1 (counterIndex_refused 0)]
  split <;> rfl

theorem State.counted_rings : (s.counted p).rings = s.rings := by
  unfold State.counted
  rw [State.count_plain s 1 (counterIndex_refused 0)]
  split <;> rfl

theorem State.counted_cmd : (s.counted p).cmd = s.cmd := by
  unfold State.counted
  rw [State.count_plain s 1 (counterIndex_refused 0)]
  split <;> rfl

theorem State.counted_replyRoom (n : Nat) : (s.counted p).replyRoom n = s.replyRoom n := by
  have hl : (s.counted p).linkUp = s.linkUp := congrArg (· != 0) (s.counted_rd p 0 (by decide))
  have hf : (s.counted p).frozenMaster 3 = s.frozenMaster 3 := congrArg (Nat.testBit · 3) (s.counted_rd p 0 (by decide))
  have hs : (s.counted p).rd P.HST_RING_STATE (164 + n) = s.rd P.HST_RING_STATE (164 + n) := s.counted_rd p _ (by decide)
  unfold State.replyRoom State.ring
  rw [State.counted_rings, hl, hf, hs]

end

/-- The slot that a reply is written to, and the producer index after it (R468, R480). -/
theorem State.writeReply_writes {s : State} {n : Nat} {r : Ring} (bs : List Byte) (h : s.ring (164 + n) = some r) :
    (s.out ++ [.hostWrite (r.slotAddr 4096 r.prod) bs]) <+: (s.writeReply n bs).out ∧
      ((s.writeReply n bs).ring (164 + n)).map Ring.prod = some (advance r.prod 1) := by
  have hset : ∀ (t : State) (f : Ring → Ring), (∀ x, (f x).g = x.g) → (t.setRing (164 + n) f).ring (164 + n) = (t.ring (164 + n)).map f :=
    fun t f hf => findBy_updBy Ring.g (164 + n) f hf _
  have hidx : ∀ (t : State) (i : Nat), t.out <+: (t.writeIndex (164 + n) i).out ∧
      ((t.writeIndex (164 + n) i).ring (164 + n)).map Ring.prod = (t.ring (164 + n)).map Ring.prod := by
    intro t i
    refine ⟨(State.writeIndex_only t (164 + n) i).keeps.out, ?_⟩
    unfold State.writeIndex
    rw [hset _ _ (by intro _; rfl), Option.map_map]
    split <;> rfl
  let t := (s.emit (.hostWrite (r.slotAddr 4096 r.prod) bs)).setRing (164 + n) fun r => { r with prod := advance r.prod 1 }
  have hw : s.writeReply n bs = t.writeIndex (164 + n) (advance r.prod 1) := by unfold State.writeReply; rw [h]
  rw [hw]
  refine ⟨(hidx t _).1, (hidx t _).2.trans ?_⟩
  rw [hset _ _ (by intro _; rfl)]
  show ((s.ring (164 + n)).map _).map _ = _
  rw [h]
  rfl

theorem State.sendPacket_eq (s : State) (tr : Transport) (chan : Nat) (p : Packet) :
    s.sendPacket tr chan p = (s.counted p).deliver tr chan p := rfl

theorem State.sendPacket_mgmt_out (s : State) (chan : Nat) (p : Packet) (h : s.rdb P.CMD_MGMT_ENABLE = true) :
    (s.sendPacket .mgmt chan p).out = s.out ++ [.udp chan p.bytes] := by
  rw [State.sendPacket_eq, State.deliver_mgmt, State.emit_out, State.counted_out]
  exact (congrArg (· != 0) (s.counted_rd p 0 (by decide))).trans h

/-- Settles O17: by the transport, each packet's way out of the module; and the two answers of an SPI read. -/
theorem packetLeavesByItsTransport : Obligations.PacketLeavesByItsTransport := by
  unfold Obligations.PacketLeavesByItsTransport
  refine ⟨State.sendPacket_mgmt_out, ?_, ?_, ?_, State.sendPacket_refused, ?_, ?_⟩
  · intro s chan p
    rw [State.sendPacket_spi, if_pos rfl]
  · intro s chan p h
    rw [State.sendPacket_eq]
    unfold State.deliver
    simp only [State.counted_replyRoom, h, Bool.false_and, Bool.false_eq_true, if_false, State.setCmd_cmd, State.counted_cmd]
  · intro s chan p r h hm hr
    have hw : (s.counted p).deliver .pcie chan p = (s.counted p).writeReply chan p.bytes := by
      unfold State.deliver
      simp [State.counted_replyRoom, h, State.counted_cmd, hm]
    have hring : (s.counted p).ring (164 + chan) = some r := by
      rw [← hr]
      unfold State.ring
      rw [State.counted_rings]
    rw [State.sendPacket_eq, hw, ← s.counted_out p]
    exact State.writeReply_writes p.bytes hring
  · intro s p rest hp hs hb
    refine ⟨(s.setCmd fun c => { c with spi := rest }).emit (.spi (spiFrame p.bytes)), ?_, rfl, rfl, ?_⟩
    · show execSpiReadTransfer s = _
      unfold execSpiReadTransfer
      rw [if_pos hp, hs]
      unfold State.spiRead State.takeWaiting
      dsimp only
      rw [if_neg hb]
    · exact ((Only.refl _ s).setCmd rfl (fun c => { c with spi := rest }) rfl).emit _
  · intro s hp hs
    refine ⟨s.emit (.spi [0xEC, 0x9A, 0, 0]), ?_, rfl, (Only.refl _ s).emit _⟩
    show execSpiReadTransfer s = _
    unfold execSpiReadTransfer
    rw [if_pos hp, hs]
    rfl

end Sys2Proof.Machine
end

section
/-! ## Command channel: reads of parameters (R45, R506, R507, R518) -/

namespace Sys2Proof.Machine

theorem opRow_read : opRow Op.PARAM_READ = some ⟨Op.PARAM_READ, 1, 0, sizeRead, paramRead⟩ := rfl
theorem opRow_sysInfo : opRow Op.SYS_INFO = some ⟨Op.SYS_INFO, 1, 0, size 0, sysInfo⟩ := rfl

/-- The final reply of a taken request whose session has gone on from the state in which it has begun. -/
theorem State.begun_replied {s t : State} {op : Nat} {rq : Request} {x : Session} (h : s.taken op rq x)
    (g : Steady (s.begun op rq x) t) (st : Nat) (pl : List Byte) : (t.finish (originOf x op rq) st pl).replied x op rq st pl := by
  obtain ⟨y, hy, hb, hc⟩ := State.begun_session h
  exact g.finish_replied hy (.inl hb) hc

/-- What a request that is answered at once changes. -/
theorem State.begun_finish_only (s : State) (op : Nat) (rq : Request) (x : Session) (o : Origin) (st : Nat) (pl : List Byte) :
    Only (some [F.cmd, F.rings, P.CMD_FASTPATH_COUNT, P.CMD_REFUSED_COUNT, P.TBS_OVER_LIMIT_COUNT]) s
      ((s.begun op rq x).finish o st pl) :=
  ((s.begun_only op rq x).mono rfl).step (State.finish_only ..) rfl

theorem paramRead_good {o : Origin} {b : List Byte} {s : State} (h : ((readEntries b).all fun e => readRefusal e == 0) = true) :
    paramRead o b s = s.finish o Status.OK ((readEntries b).map (s.readValues o.session)).flatten := by
  have hn : ((readEntries b).find? fun e => readRefusal e != 0) = none := by
    rw [List.find?_eq_none]
    intro e he
    simpa using List.all_eq_true.mp h e he
  unfold paramRead
  simp only [hn]

theorem paramRead_refused {o : Origin} {b : List Byte} {s : State} {e : ReadEntry}
    (h : ((readEntries b).find? fun e => readRefusal e != 0) = some e) :
    paramRead o b s = s.finish o (readRefusal e) [] := by
  unfold paramRead
  simp only [h]

section
variable {s : State} {e : ReadEntry} {p : Param} {i : Nat} (h : elementOf e.addr e.first = some (p, i)) (h1 : e.count = 1)
include h h1

/-- An entry of one element reads 8 bytes: the shadow or the operational value. -/
theorem State.readValues_one (n : Nat) :
    s.readValues n e = toBe 8 (if e.shadow then s.shadow p.base i else s.readView n p.base i) := by
  unfold State.readValues
  rw [h, h1]
  simp

end

/-- Settles O18: each body ends in one final reply, given in the state in which the request has begun. -/
theorem paramReadReturnsValues : Obligations.ParamReadReturnsValues := by
  unfold Obligations.ParamReadReturnsValues
  refine ⟨?_, ?_, ?_, ?_, ?_⟩
  · intro rq s x h hall
    have hexec := State.arrive_taken h opRow_read (by decide)
    dsimp only at hexec
    rw [paramRead_good hall] at hexec
    exact ⟨_, congrArg Host.Outcome.next hexec, State.begun_replied h (.refl _) .., State.begun_finish_only ..⟩
  · intro rq s x e h he
    have hexec := State.arrive_taken h opRow_read (by decide)
    dsimp only at hexec
    rw [paramRead_refused he] at hexec
    exact ⟨_, congrArg Host.Outcome.next hexec, State.begun_replied h (.refl _) .., State.begun_finish_only ..⟩
  · intro s n e p i h h1
    rw [State.readValues_one h h1]
    exact ⟨fun hs => by rw [if_pos hs], fun hs => by rw [if_neg (by simp [hs])]⟩
  · intro s n b i hb
    simp only [List.mem_cons, List.not_mem_nil, or_false, not_or] at hb
    unfold State.readView
    simp only [hb, if_false, or_self]
  · intro rq s x h
    have hexec := exec_taken_slow (c := .sysInfo rq) rfl h opRow_sysInfo (by decide) (fastPath_slow rq (by decide) (by decide))
    dsimp only at hexec
    unfold sysInfo at hexec
    simp only [State.occupied_rd] at hexec
    exact ⟨_, hexec, State.taken_replied h (.refl _) .., ((s.occupied_only ..).mono rfl).step (State.finish_only ..) rfl⟩

end Sys2Proof.Machine
end

section
/-! ## Command channel: the order of the intake's refusals

The last clause of IntakeRefusesInOrder speaks of every opcode number without a row for sessions' requests. SESSION_OPEN is such a
number: it belongs to no session, and a request that carries it is tested as R522 says, whatever its session field names. -/

namespace Sys2Proof.Machine

/-- An open session of version 2 on MGMT with number 1. -/
def openOnMgmt : Session := ⟨1, 0, .mgmt, 0, 2, 0, 0, [], 0, none, none, [], [], [], 0⟩

/-- A module with a ready command channel, MGMT on, and that session. -/
def mgmtState : State :=
  (({ State.reset with phase := .ready, cmd := { State.reset.cmd with sessions := [openOnMgmt], nextUid := 1 } } : State).wr
    P.CMD_SESSION_STATE 0 1).wr P.CMD_MGMT_ENABLE 0 1

/-- A packet with the opcode number of SESSION_OPEN and without payload in the name of the session: its header passes the check. -/
def openInSession : Request := ⟨.mgmt, 0, 2, 0, 7, 1, 0, 0, 0xFBF6, []⟩

/-- The module answers BAD_VERSION, since a SESSION_OPEN carries version 1 (R26, R522). -/
theorem openInSession_answer : (mgmtState.arrive Op.SESSION_OPEN openInSession).out =
    [.udp 0 (⟨2, replyFlags .mgmt true, Op.SESSION_OPEN, 7, 1, Status.BAD_VERSION, []⟩ : Packet).bytes] := by
  decide

/-- Refutes O13: a packet with the number of SESSION_OPEN in the name of an open session is answered BAD_VERSION, not
UNKNOWN_OPCODE. -/
theorem not_intakeRefusesInOrder : ¬ Obligations.IntakeRefusesInOrder := by
  unfold Obligations.IntakeRefusesInOrder
  rintro ⟨-, -, h⟩
  obtain ⟨t, u, hx, rfl, -, hu, -⟩ := h 0x0201 openInSession mgmtState openOnMgmt (by decide) (by decide)
    (by decide) (by decide) (by decide) (by decide) (by decide) (by decide)
    (by decide) (by decide)
  have hm : u.rdb P.CMD_MGMT_ENABLE = true := by
    unfold State.rdb
    rw [hu.rd _ _ (by decide) (by decide)]
    decide
  have hsent := State.sendPacket_mgmt_out u 0
    ⟨2, replyFlags .mgmt true, Op.SESSION_OPEN, 7, 1, Status.UNKNOWN_OPCODE, []⟩ hm
  have hout := (State.settle_only (u.sendPacket openInSession.transport openInSession.chan
    ⟨openOnMgmt.version, replyFlags openInSession.transport true, (0x0201 : BitVec 16).toNat, openInSession.tag.toNat,
      openInSession.session.toNat, Status.UNKNOWN_OPCODE, []⟩)).keeps.out
  have hnext : exec (.unknownOpcode 0x0201 openInSession) mgmtState = .next (mgmtState.arrive Op.SESSION_OPEN openInSession) := rfl
  rw [hnext] at hx
  rw [← Host.Outcome.next.inj hx, openInSession_answer] at hout
  have hmem := hout.subset (hsent ▸ List.mem_append_right u.out (List.mem_singleton_self _))
  revert hmem
  decide

end Sys2Proof.Machine
end

section
/-! ## Command channel: session numbers in every state (R29)

`State.sessionsLegal` does not speak of the writes to an administrative bank that wait for the bank's copy. A state may hold there a
write to any parameter, and the end of the copy applies it: CMD_SESSION_STATE then reads OPEN for a number that no session has. -/

namespace Sys2Proof.Machine

/-- A module at reset whose port 0 copies its slot tables while a write to CMD_SESSION_STATE waits for it. -/
def copyingState : State :=
  { State.reset.wr P.LCK_SWAP_STATE 0 2 with
    lock := { State.reset.lock with held := [(P.CMD_SESSION_STATE, 0, 0, 1)] }, pending := [.bankCopyDone 0] }

theorem copyingState_sessionsLegal : copyingState.sessionsLegal := by
  refine ⟨fun x hx => absurd hx List.not_mem_nil, List.nodup_nil, List.nodup_nil, fun n h1 h16 => ?_, fun e he => absurd he List.not_mem_nil⟩
  have hfree : ∀ k < 17, 1 ≤ k → copyingState.sessState k = 0 := by decide
  exact ⟨fun _ x hx => absurd hx List.not_mem_nil, fun _ => hfree n (by omega) h1⟩

/-- The state in which the copy has ended. -/
def copiedState : State :=
  match step copyingState with
  | .next t => t
  | _ => copyingState

theorem copyingState_step : step copyingState = .next copiedState := rfl

/-- Refutes O12: BANK_COPY_DONE applies a held write to CMD_SESSION_STATE, which then reads OPEN for number 1 while no session has it. -/
theorem not_sessionNumbersStayLegal : ¬ Obligations.SessionNumbersStayLegal := by
  unfold Obligations.SessionNumbersStayLegal
  rintro ⟨hkeep, -⟩
  obtain ⟨-, -, -, hstate, -⟩ := hkeep copyingState copiedState copyingState_sessionsLegal copyingState_step
  have hopen : copiedState.sessState 1 = 1 := by decide
  have hfree : copiedState.sessState 1 = 0 := (hstate 1 (by decide) (by decide)).mpr fun x hx => absurd hx List.not_mem_nil
  omega

end Sys2Proof.Machine
end

section
/-! ## Command channel: a scheduled commit that becomes due (R48)

A shadow may stand for any parameter, and a pending commit may name any block. The commit of block SYS with a shadow of SYS_CONFIG_GEN
puts that shadow in place before the configuration generation rises. -/

namespace Sys2Proof.Machine

/-! ### What waits before the command channel is ready -/

theorem State.process_unready {s : State} (hp : s.phase ≠ .ready) (op : Nat) (rq : Request) : s.process op rq = s := by
  unfold State.process State.intake
  simp [hp]

theorem State.runnable_of_no_session {s : State} (hs : s.cmd.sessions = []) : s.runnable = none := by
  unfold State.runnable
  rw [hs]
  rfl

/-- Without sessions, and before the channel is ready, unread requests are dropped from their rings: no register changes. -/
theorem State.pump_unready_rd {s : State} (hp : s.phase ≠ .ready) (hs : s.cmd.sessions = []) {b : Nat} (hb : 62 ≤ b) (n i : Nat) :
    (s.pump n).rd b i = s.rd b i := by
  induction n generalizing s with
  | zero => rfl
  | succ n ih =>
    unfold State.pump
    rw [State.runnable_of_no_session hs]
    dsimp only
    cases s.readable with
    | none => rfl
    | some h =>
      dsimp only
      have hdrop := State.consume_only (s.setCmd fun c => { c with unread := c.unread.erase h }) h.rq.chan
      have hready : ((s.setCmd fun c => { c with unread := c.unread.erase h }).consume h.rq.chan).phase ≠ .ready := by
        rw [hdrop.phase rfl]
        exact hp
      have hnone : ((s.setCmd fun c => { c with unread := c.unread.erase h }).consume h.rq.chan).cmd.sessions = [] := by
        rw [hdrop.cmd rfl]
        exact hs
      rw [State.process_unready hready, ih hready hnone]
      exact hdrop.rd b i hb (allows_fields rfl hb)

theorem State.settle_unready_rd {s : State} (hp : s.phase ≠ .ready) (hs : s.cmd.sessions = []) {b : Nat} (hb : 62 ≤ b) (i : Nat) :
    s.settle.rd b i = s.rd b i := by
  have hm := s.mbxRun_only
  have hnone : s.mbxRun.cmd.sessions = [] := by
    simpa [hs] using hm.sessions rfl
  unfold State.settle
  rw [State.pump_unready_rd (by rw [hm.phase rfl]; exact hp) hnone hb]
  exact hm.rd b i hb (allows_fields rfl hb)

/-! ### The commit of block SYS -/

/-- A module before its command channel is ready, with a commit of block SYS due and a shadow of SYS_CONFIG_GEN. -/
def sysCommitState : State :=
  { State.reset with
    shadows := [((P.SYS_CONFIG_GEN, 0), 5)],
    cmd := { State.reset.cmd with commits := [⟨0x01, 0, ⟨0, .spi, 0, 0, 2, Op.PARAM_COMMIT, 0⟩⟩] } }

/-- Refutes O22: the generation was 0 and reads 6 after the commit of block SYS, not 1. -/
theorem not_scheduledCommitWaitsAndActs : ¬ Obligations.ScheduledCommitWaitsAndActs := by
  unfold Obligations.ScheduledCommitWaitsAndActs
  rintro ⟨-, hdue, -⟩
  obtain ⟨t, hx, -, -, -, hgen, hframe⟩ := hdue 0x01 sysCommitState ⟨0x01, 0, ⟨0, .spi, 0, 0, 2, Op.PARAM_COMMIT, 0⟩⟩ (by decide)
    ⟨by decide, by decide, by decide⟩ (by decide) (by decide)
  have hunready : t.phase ≠ .ready := by
    rw [hframe.phase rfl]
    decide
  have hnone : t.cmd.sessions = [] := by
    simpa [show sysCommitState.cmd.sessions = [] from rfl] using hframe.sessions rfl
  have hsame := State.settle_unready_rd hunready hnone (b := P.SYS_CONFIG_GEN) (by decide) 0
  have hafter : (sysCommitState.commitDue 0x01).settle.rd P.SYS_CONFIG_GEN = 6 := by decide
  have hbefore : sysCommitState.rd P.SYS_CONFIG_GEN = 0 := by decide
  have hnext : exec (.scheduledCommitDue 0x01) sysCommitState = .next (sysCommitState.commitDue 0x01).settle := rfl
  rw [hnext] at hx
  rw [← Host.Outcome.next.inj hx, hafter, hgen, hbefore] at hsame
  omega

end Sys2Proof.Machine
end

section
/-! ## Sessions that go on: what a write or a commit brings with it

A write of a parameter and the commit of a block reach the selection of the reference, the links, the shared buffer, the wake queue,
the calibration, the receiver and the mailboxes. Each operation on the way is steady: it is a composition of steady operations and
of operations that leave the command channel alone. -/

namespace Sys2Proof.Machine

theorem Steady.foldPair {α β : Type} {s : State} (f : State × β → α → State × β) (l : List α) {x : State × β}
    (h : ∀ y a, Steady y.1 (f y a).1) (g : Steady s x.1) : Steady s (l.foldl f x).1 := by
  induction l generalizing x with
  | nil => exact g
  | cons a l ih => exact ih (g.trans (h x a))

theorem State.switchEvent_steady (s : State) (fromRef : Nat) (cause : Nat) (retarget : Bool) :
    Steady s (State.switchEvent s fromRef cause retarget) := by
  unfold State.switchEvent
  with_reducible repeat' first
    | exact .refl _ | apply Steady.wr ?_ _ _ _ | apply Steady.trans ?_ (State.notice_steady ..)

theorem State.closeBatch_steady (s : State) (before : State) : Steady s (State.closeBatch s before) := by
  unfold State.closeBatch
  with_reducible repeat' first
    | exact .refl _ | (show allows _ _ = false; with_unfolding_all rfl)
    | apply Steady.only ?_ (State.setServo_only ..) | apply Steady.trans ?_ (State.switchEvent_steady ..) | split

theorem State.conclude_steady (s : State) (before : State) (cause : Nat) : Steady s (State.conclude s before cause) := by
  unfold State.conclude
  with_reducible repeat' first
    | (extract_lets +onlyGivenNames t; refine Steady.with_state (t := t) ?_ fun _ => ?_; subst t; rotate_left; clear_value t)
    | (extract_lets +onlyGivenNames t; clear_value t) | exact .refl _ | (show allows _ _ = false; with_unfolding_all rfl)
    | assumption | apply Steady.orIn ?_ _ _ _
    | apply Steady.only ?_ (State.refreshBound_only ..) | apply Steady.only ?_ (State.setServo_only ..)
    | apply Steady.only ?_ (State.steerNow_only ..) | apply Steady.trans ?_ (State.sticky_steady ..)
    | apply Steady.only ?_ (State.gather_only ..) | apply Steady.trans ?_ (State.switchEvent_steady ..) | split

theorem State.reselect_steady (s : State) (cause : Nat) (lost : Nat) : Steady s (State.reselect s cause lost) := by
  unfold State.reselect
  with_reducible repeat' first
    | exact .refl _ | (show allows _ _ = false; with_unfolding_all rfl)
    | apply Steady.trans ?_ (State.conclude_steady ..) | apply Steady.only ?_ (State.followSelection_only ..)

theorem State.loseRef_steady (s : State) (r : Nat) (cause : Nat) : Steady s (State.loseRef s r cause) := by
  unfold State.loseRef
  with_reducible repeat' first
    | exact .refl _ | (show allows _ _ = false; with_unfolding_all rfl)
    | apply Steady.cond _ ?_ ?_ | apply Steady.trans ?_ (State.reselect_steady ..)
    | apply Steady.only ?_ (State.enterQ_only ..)

theorem State.refreshRef_steady (s : State) (r : Nat) : Steady s (State.refreshRef s r) := by
  unfold State.refreshRef
  with_reducible repeat' first
    | exact .refl _ | (show allows _ _ = false; with_unfolding_all rfl)
    | apply Steady.cond _ ?_ ?_ | apply Steady.wr ?_ _ _ _ | apply Steady.only ?_ (State.showBref_only ..)
    | apply Steady.only ?_ (State.enterQ_only ..) | apply Steady.only ?_ (State.keepWtr_only ..)
    | apply Steady.trans ?_ (State.reselect_steady ..)

theorem State.refreshRefs_steady (s : State) : Steady s (State.refreshRefs s) := by
  unfold State.refreshRefs
  with_reducible repeat' first
    | exact .refl _ | (show allows _ _ = false; with_unfolding_all rfl)
    | apply Steady.fold _ _ (fun _ _ => ?_) ?_ | apply Steady.trans ?_ (State.closeBatch_steady ..)
    | apply Steady.trans ?_ (State.refreshRef_steady ..) | apply Steady.only ?_ (State.openBatch_only ..)

theorem State.linkBref_steady (s : State) (p : Nat) : Steady s (State.linkBref s p) := by
  unfold State.linkBref
  with_reducible repeat' first
    | exact .refl _ | apply Steady.fold _ _ (fun _ _ => ?_) ?_ | apply Steady.trans ?_ (State.refreshRef_steady ..)

theorem State.setBevt_steady (s : State) (p : Nat) (v : Nat) : Steady s (State.setBevt s p v) := by
  unfold State.setBevt
  with_reducible repeat' first
    | exact .refl _ | apply Steady.wr ?_ _ _ _ | apply Steady.trans ?_ (State.linkBref_steady ..)

theorem State.abortLinkRun_steady (s : State) (p : Nat) : Steady s (State.abortLinkRun s p) := by
  unfold State.abortLinkRun
  split
  · refine .cond _ (Steady.trans ?_ (State.finish_steady ..)) (.refl s)
    exact .of_cmd rfl
  · exact .refl s

theorem State.linkDown_steady (s : State) (p : Nat) : Steady s (State.linkDown s p) := by
  unfold State.linkDown
  with_reducible repeat' first
    | exact .refl _ | (show allows _ _ = false; with_unfolding_all rfl)
    | apply Steady.fold _ _ (fun _ _ => ?_) ?_ | apply Steady.wr ?_ _ _ _
    | apply Steady.trans ?_ (State.abortLinkRun_steady ..) | apply Steady.only ?_ (State.setLink_only ..)
    | apply Steady.trans ?_ (State.loseRef_steady ..)

theorem State.gapRecord_steady (s : State) (c : Nat) : Steady s (State.gapRecord s c) := by
  unfold State.gapRecord
  with_reducible repeat' first
    | exact .refl _ | (show allows _ _ = false; with_unfolding_all rfl)
    | apply Steady.cond _ ?_ ?_ | apply Steady.orIn ?_ _ _ _ | apply Steady.only ?_ (State.appendRecord_only ..).fst
    | apply Steady.trans ?_ (State.notice_steady ..) | apply Steady.only ?_ (State.setChan_only ..)

theorem State.holdClear_steady (s : State) : Steady s (State.holdClear s) := by
  unfold State.holdClear
  with_reducible repeat' first
    | exact .refl _ | (show allows _ _ = false; with_unfolding_all rfl)
    | apply Steady.fold _ _ (fun _ _ => ?_) ?_ | apply Steady.cond _ ?_ ?_ | apply Steady.wr ?_ _ _ _
    | apply Steady.only ?_ (State.setLog_only ..) | apply Steady.only ?_ (State.holdSettle_only ..)
    | apply Steady.trans ?_ (State.gapRecord_steady ..)

theorem State.evaluate_steady (s : State) (k : Nat) : Steady s (State.evaluate s k) := by
  unfold State.evaluate
  with_reducible repeat' first
    | exact .refl _ | apply Steady.cond _ ?_ ?_ | apply Steady.wr ?_ _ _ _ | apply Steady.orIn ?_ _ _ _
    | apply Steady.trans ?_ (State.notice_steady ..)

theorem State.freeUnits_steady (s : State) (k : Nat) (n : Nat) : Steady s (State.freeUnits s k n) := by
  unfold State.freeUnits
  with_reducible repeat' first
    | exact .refl _ | apply Steady.wr ?_ _ _ _ | apply Steady.trans ?_ (State.evaluate_steady ..)

theorem State.doubleFree_steady (s : State) (pool : Nat) (index : Nat) (agent : Nat) :
    Steady s (State.doubleFree s pool index agent) := by
  unfold State.doubleFree
  with_reducible repeat' first
    | exact .refl _ | apply Steady.cond _ ?_ ?_ | apply Steady.wr ?_ _ _ _ | apply Steady.orIn ?_ _ _ _ | apply Steady.count ?_ _ _ _
    | apply Steady.trans ?_ (State.sticky_steady ..)

theorem State.freeEntry_steady (s : State) (c : Copy) (agent : Nat) : Steady s (State.freeEntry s c agent) := by
  unfold State.freeEntry
  with_reducible repeat' first
    | exact .refl _ | (show allows _ _ = false; with_unfolding_all rfl)
    | apply Steady.cond _ ?_ ?_ | apply Steady.only ?_ (State.setQuay_only ..)
    | apply Steady.only ?_ (State.settleSlot_only ..) | apply Steady.only ?_ (State.queueBytes_only ..)
    | apply Steady.trans ?_ (State.freeUnits_steady ..)

theorem State.noteQuarantine_steady (s : State) (pool : Nat) (index : Nat) : Steady s (State.noteQuarantine s pool index) := by
  unfold State.noteQuarantine
  with_reducible repeat' first
    | exact .refl _ | (show allows _ _ = false; with_unfolding_all rfl)
    | apply Steady.wr ?_ _ _ _ | apply Steady.orIn ?_ _ _ _ | apply Steady.only ?_ (State.setQuay_only ..)
    | apply Steady.trans ?_ (State.sticky_steady ..)

theorem State.quarantine_steady (s : State) (b : Buffer) : Steady s (State.quarantine s b) := by
  unfold State.quarantine
  with_reducible repeat' first
    | exact .refl _ | (show allows _ _ = false; with_unfolding_all rfl)
    | apply Steady.fold _ _ (fun _ _ => ?_) ?_ | apply Steady.cond _ ?_ ?_ | apply Steady.count ?_ _ _ _
    | apply Steady.trans ?_ (State.freeUnits_steady ..) | apply Steady.only ?_ (State.setQuay_only ..)
    | apply Steady.trans ?_ (State.freeEntry_steady ..) | apply Steady.trans ?_ (State.noteQuarantine_steady ..)
    | apply Steady.only ?_ (State.retire_only ..)

theorem State.releaseBuffer_steady (s : State) (pool : Nat) (index : Nat) (agent : Nat) :
    Steady s (State.releaseBuffer s pool index agent) := by
  unfold State.releaseBuffer
  with_reducible repeat' first
    | exact .refl _ | (show allows _ _ = false; with_unfolding_all rfl)
    | apply Steady.trans ?_ (State.quarantine_steady ..) | apply Steady.only ?_ (State.setQuay_only ..)
    | apply Steady.only ?_ (State.retire_only ..) | apply Steady.trans ?_ (State.freeUnits_steady ..)
    | apply Steady.trans ?_ (State.noteQuarantine_steady ..) | apply Steady.trans ?_ (State.doubleFree_steady ..) | split

theorem State.releaseFrame_steady (s : State) (id : Nat) (agent : Nat) : Steady s (State.releaseFrame s id agent) := by
  unfold State.releaseFrame
  with_reducible repeat' first
    | exact .refl _ | (show allows _ _ = false; with_unfolding_all rfl)
    | apply Steady.trans ?_ (State.releaseBuffer_steady ..) | apply Steady.only ?_ (State.retire_only ..) | split

theorem State.releaseCopy_steady (s : State) (c : Copy) (agent : Nat) : Steady s (State.releaseCopy s c agent) := by
  unfold State.releaseCopy
  with_reducible repeat' first
    | exact .refl _ | apply Steady.trans ?_ (State.freeEntry_steady ..) | apply Steady.trans ?_ (State.releaseBuffer_steady ..)
    | apply Steady.trans ?_ (State.releaseFrame_steady ..) | split

theorem State.flushCopies_steady (s : State) (pick : Copy → Bool) (agent : Nat) (note : State → Copy → State)
    (h : ∀ t c, Steady t (note t c)) : Steady s (State.flushCopies s pick agent note) := by
  unfold State.flushCopies
  exact .fold _ _ (fun t c => (h t c).trans (State.releaseCopy_steady ..)) (.refl s)

theorem State.headroomTest_steady (s : State) (sum : Nat) : Steady s (State.headroomTest s sum) := by
  unfold State.headroomTest
  with_reducible repeat' first
    | exact .refl _ | apply Steady.cond _ ?_ ?_ | apply Steady.wr ?_ _ _ _ | apply Steady.orIn ?_ _ _ _
    | apply Steady.trans ?_ (State.sticky_steady ..)

theorem State.refreshHeadroom_steady (s : State) (ps : List Nat) : Steady s (State.refreshHeadroom s ps) := by
  unfold State.refreshHeadroom
  with_reducible repeat' first
    | exact .refl _ | apply Steady.foldPair _ _ (fun _ _ => ?_) ?_ | apply Steady.wr ?_ _ _ _
    | apply Steady.trans ?_ (State.headroomTest_steady ..)

theorem State.portDown_steady (s : State) (p : Nat) : Steady s (State.portDown s p) := by
  unfold State.portDown
  with_reducible repeat' first
    | exact .refl _ | (show allows _ _ = false; with_unfolding_all rfl)
    | apply Steady.wr ?_ _ _ _ | apply Steady.count ?_ _ _ _ | apply Steady.only ?_ (State.dropWaiting_only ..)
    | apply Steady.only ?_ (State.cutReception_only ..) | apply Steady.trans ?_ (State.flushCopies_steady _ _ _ _ ?_)
    | (intro u c; show Steady u _) | apply Steady.only ?_ (State.traceDrop_only ..) | apply Steady.only ?_ (State.setFab_only ..)
    | apply Steady.only ?_ (State.setQuay_only ..) | apply Steady.only ?_ (State.evaluateSluice_only ..)
    | apply Steady.only ?_ (State.nhpSilent_only ..) | apply Steady.trans ?_ (State.linkDown_steady ..) | split

theorem State.wakeTicket_steady (s : State) (r : WakeReq) : Steady s (State.wakeTicket s r) := by
  unfold State.wakeTicket
  with_reducible repeat' first
    | exact .refl _ | (show allows _ _ = false; with_unfolding_all rfl)
    | apply Steady.trans ?_ (State.notice_steady ..) | apply Steady.only ?_ (State.setPower_only ..) | split

theorem State.wakeAdmit_steady (s : State) (r : WakeReq) (rest : List WakeReq) : Steady s (State.wakeAdmit s r rest) := by
  unfold State.wakeAdmit
  with_reducible repeat' first
    | exact .refl _ | (show allows _ _ = false; with_unfolding_all rfl)
    | apply Steady.peak ?_ _ _ _ | apply Steady.count ?_ _ _ _ | apply Steady.only ?_ (State.setPower_only ..)
    | apply Steady.only ?_ (State.wakeCounts_only ..) | apply Steady.trans ?_ (State.wakeTicket_steady ..)
    | apply Steady.only ?_ (State.wakeStart_only ..)

theorem State.wakeRun_steady (s : State) (n : Nat) : Steady s (State.wakeRun s n) := by
  induction n generalizing s with
  | zero => exact .refl s
  | succ n ih =>
    unfold State.wakeRun
    split
    · exact .refl s
    · exact .cond _ ((State.wakeAdmit_steady ..).trans (ih ..)) (.refl s)

theorem State.wakeAsk_steady (s : State) (k : WakeKind) (n : Nat) (ticket : Option Nat) : Steady s (State.wakeAsk s k n ticket) := by
  unfold State.wakeAsk
  with_reducible repeat' first
    | exact .refl _ | (show allows _ _ = false; with_unfolding_all rfl)
    | apply Steady.cond _ ?_ ?_ | apply Steady.count ?_ _ _ _ | apply Steady.only ?_ (State.setPower_only ..)
    | apply Steady.trans ?_ (State.wakeRun_steady ..) | apply Steady.only ?_ (State.wakeCounts_only ..)

theorem State.wakeDomain_steady (s : State) (d : Nat) (ticket : Option Nat) : Steady s (State.wakeDomain s d ticket) := by
  unfold State.wakeDomain
  with_reducible repeat' first
    | exact .refl _ | (show allows _ _ = false; with_unfolding_all rfl)
    | apply Steady.cond _ ?_ ?_ | apply Steady.trans ?_ (State.wakeAsk_steady ..)
    | apply Steady.only ?_ (State.setDomain_only ..)

theorem State.calSchedule_steady (s : State) (n : Nat) : Steady s (State.calSchedule s n) := by
  induction n generalizing s with
  | zero => exact .refl s
  | succ n ih =>
    unfold State.calSchedule
    dsimp only
    refine .cond _ (.refl s) ?_
    split
    · exact .refl s
    · exact Steady.trans (Steady.trans (.only (.refl s) (State.setCal_only ..) rfl) (State.wakeAsk_steady ..)) (ih ..)

theorem State.calStart_steady (s : State) : Steady s (State.calStart s) := by
  unfold State.calStart
  with_reducible repeat' first
    | exact .refl _ | apply Steady.trans ?_ (State.calSchedule_steady ..)

theorem State.calFailed_steady (s : State) (i : CalItem) : Steady s (State.calFailed s i) := by
  unfold State.calFailed
  with_reducible repeat' first
    | exact .refl _ | (show allows _ _ = false; with_unfolding_all rfl)
    | apply Steady.cond _ ?_ ?_ | apply Steady.orIn ?_ _ _ _ | apply Steady.trans ?_ (State.calStart_steady ..)
    | apply Steady.only ?_ (State.setCal_only ..) | apply Steady.only ?_ (State.runCount_only ..)

theorem State.calSkipped_steady (s : State) (i : CalItem) : Steady s (State.calSkipped s i) := by
  unfold State.calSkipped
  with_reducible repeat' first
    | exact .refl _ | (show allows _ _ = false; with_unfolding_all rfl)
    | apply Steady.trans ?_ (State.calStart_steady ..) | apply Steady.only ?_ (State.setCal_only ..)
    | apply Steady.only ?_ (State.runCount_only ..)

theorem State.calLaneLost_steady (s : State) (l : Nat) : Steady s (State.calLaneLost s l) := by
  unfold State.calLaneLost
  with_reducible repeat' first
    | exact .refl _ | (show allows _ _ = false; with_unfolding_all rfl)
    | apply Steady.cond _ ?_ ?_ | apply Steady.trans ?_ (State.calSkipped_steady ..)
    | apply Steady.trans ?_ (State.calFailed_steady ..) | apply Steady.only ?_ (State.wakeCancel_only ..)
    | apply Steady.only ?_ (State.setCal_only ..)

theorem State.wakeLanes_steady (s : State) (ls : List Nat) : Steady s (State.wakeLanes s ls) := by
  unfold State.wakeLanes
  with_reducible repeat' first
    | exact .refl _ | apply Steady.fold _ _ (fun _ _ => ?_) ?_ | apply Steady.cond _ ?_ ?_ | apply Steady.wr ?_ _ _ _
    | apply Steady.trans ?_ (State.wakeAsk_steady ..)

theorem State.lanePortDown_steady (s : State) (l : Nat) : Steady s (State.lanePortDown s l) := by
  unfold State.lanePortDown
  with_reducible repeat' first
    | exact .refl _ | apply Steady.trans ?_ (State.portDown_steady ..) | apply Steady.trans ?_ (State.linkDown_steady ..) | split

theorem State.laneOff_steady (s : State) (l : Nat) : Steady s (State.laneOff s l) := by
  unfold State.laneOff
  with_reducible repeat' first
    | exact .refl _ | (show allows _ _ = false; with_unfolding_all rfl)
    | apply Steady.cond _ ?_ ?_ | apply Steady.wr ?_ _ _ _ | apply Steady.trans ?_ (State.lanePortDown_steady ..)
    | apply Steady.only ?_ (State.wakeCancel_only ..) | apply Steady.only ?_ (State.setLane_only ..)
    | apply Steady.trans ?_ (State.calLaneLost_steady ..)

theorem State.snapshotAborted_steady (s : State) : Steady s (State.snapshotAborted s) := by
  unfold State.snapshotAborted
  with_reducible repeat' first
    | exact .refl _ | (show allows _ _ = false; with_unfolding_all rfl)
    | apply Steady.trans ?_ (State.finish_steady ..) | apply Steady.only ?_ (State.setGnss_only ..) | split

theorem State.gnssStart_steady (s : State) : Steady s (State.gnssStart s) := by
  unfold State.gnssStart
  with_reducible repeat' first
    | exact .refl _ | (show allows _ _ = false; with_unfolding_all rfl)
    | apply Steady.trans ?_ (State.wakeDomain_steady ..) | apply Steady.only ?_ (State.setGnss_only ..)

theorem State.gnssStop_steady (s : State) : Steady s (State.gnssStop s) := by
  unfold State.gnssStop
  with_reducible repeat' first
    | exact .refl _ | (show allows _ _ = false; with_unfolding_all rfl)
    | apply Steady.only ?_ (State.setGnss_only ..) | apply Steady.trans ?_ (State.snapshotAborted_steady ..)
    | apply Steady.only ?_ (State.gnssCount_only ..) | apply Steady.only ?_ (State.setDomain_only ..)
    | apply Steady.only ?_ (State.wakeCancel_only ..)

theorem State.resetMailbox_steady (s : State) (n : Nat) : Steady s (State.resetMailbox s n) := by
  unfold State.resetMailbox
  with_reducible repeat' first
    | exact .refl _ | (show allows _ _ = false; with_unfolding_all rfl)
    | apply Steady.setCmd ?_ _ rfl rfl rfl | apply Steady.only ?_ (State.makeMailbox_only ..)

theorem State.afterWrite_steady (s : State) (b : Nat) (i : Nat) : Steady s (State.afterWrite s b i) := by
  unfold State.afterWrite
  with_reducible repeat' first
    | exact .refl _ | (show allows _ _ = false; with_unfolding_all rfl)
    | apply Steady.fold _ _ (fun _ _ => ?_) ?_ | apply Steady.cond _ ?_ ?_
    | apply Steady.only ?_ (State.evaluateSluice_only ..) | apply Steady.trans ?_ (State.refreshHeadroom_steady ..)
    | apply Steady.only ?_ (State.queueStop_only ..) | apply Steady.trans ?_ (State.refreshRef_steady ..)
    | apply Steady.trans ?_ (State.reselect_steady ..) | apply Steady.trans ?_ (State.holdClear_steady ..)
    | apply Steady.only ?_ (State.holdSeen_only ..) | apply Steady.only ?_ (State.holdRaise_only ..)

theorem State.applyWrites_steady (s : State) (n : Nat) (es : List WriteEntry) : Steady s (State.applyWrites s n es) := by
  unfold State.applyWrites
  with_reducible repeat' first
    | exact .refl _ | (show allows _ _ = false; with_unfolding_all rfl)
    | apply Steady.fold _ _ (fun _ _ => ?_) ?_ | apply Steady.cond _ ?_ ?_
    | apply Steady.only ?_ (State.applyEntry_only ..) | apply Steady.only ?_ (State.openBatch_only ..)
    | apply Steady.trans ?_ (State.afterWrite_steady ..) | apply Steady.trans ?_ (State.closeBatch_steady ..)
    | apply Steady.only ?_ (State.configUp_only ..)

theorem State.thetaMoved_steady (s : State) (p : Nat) (d : Int) : Steady s (State.thetaMoved s p d) := by
  unfold State.thetaMoved
  with_reducible repeat' first
    | exact .refl _ | (show allows _ _ = false; with_unfolding_all rfl)
    | apply Steady.cond _ ?_ ?_ | apply Steady.wrS ?_ _ _ _ _ | apply Steady.only ?_ (State.setLink_only ..)
    | apply Steady.trans ?_ (State.conclude_steady ..) | apply Steady.only ?_ (State.pullBy_only ..)
    | apply Steady.only ?_ (State.freeze_only ..)

theorem State.asymCommit_steady (s : State) (old : Int) (p : Nat) : Steady s (State.asymCommit s old p) := by
  unfold State.asymCommit
  with_reducible repeat' first
    | exact .refl _ | (show allows _ _ = false; with_unfolding_all rfl)
    | apply Steady.cond _ ?_ ?_ | apply Steady.only ?_ (State.asymSave_only ..)
    | apply Steady.trans ?_ (State.thetaMoved_steady ..)

theorem State.calibratedCommit_steady (s : State) (p : Nat) : Steady s (State.calibratedCommit s p) := by
  unfold State.calibratedCommit
  with_reducible repeat' first
    | exact .refl _ | (show allows _ _ = false; with_unfolding_all rfl)
    | apply Steady.only ?_ (State.setLink_only ..) | apply Steady.only ?_ (State.linkFlag_only ..)
    | apply Steady.trans ?_ (State.setBevt_steady ..)

theorem State.portLinkCommit_steady (s : State) (before : State) (p : Nat) : Steady s (State.portLinkCommit s before p) := by
  unfold State.portLinkCommit
  with_reducible repeat' first
    | exact .refl _ | (show allows _ _ = false; with_unfolding_all rfl)
    | apply Steady.cond _ ?_ ?_ | apply Steady.trans ?_ (State.linkDown_steady ..)
    | apply Steady.only ?_ (State.linkFramed_only ..) | apply Steady.only ?_ (State.linkFlag_only ..)
    | apply Steady.trans ?_ (State.asymCommit_steady ..)

theorem State.beforeCommit_steady (s : State) (block : Nat) : Steady s (State.beforeCommit s block) := by
  unfold State.beforeCommit
  with_reducible repeat' first
    | exact .refl _ | (show allows _ _ = false; with_unfolding_all rfl)
    | apply Steady.fold _ _ (fun _ _ => ?_) ?_ | apply Steady.trans ?_ (State.loseRef_steady ..)
    | apply Steady.only ?_ (State.closeChannel_only ..) | apply Steady.trans ?_ (State.laneOff_steady ..) | split

theorem State.afterCommit_steady (s : State) (before : State) (block : Nat) : Steady s (State.afterCommit s before block) := by
  unfold State.afterCommit
  with_reducible repeat' first
    | exact .refl _ | (show allows _ _ = false; with_unfolding_all rfl)
    | apply Steady.fold _ _ (fun _ _ => ?_) ?_ | apply Steady.cond _ ?_ ?_ | apply Steady.wr ?_ _ _ _
    | apply Steady.only ?_ (State.applyPace_only ..) | apply Steady.trans ?_ (State.wakeLanes_steady ..)
    | apply Steady.only ?_ (State.evaluateSluice_only ..) | apply Steady.trans ?_ (State.refreshHeadroom_steady ..)
    | apply Steady.only ?_ (State.refreshPath_only ..) | apply Steady.only ?_ (State.tbsCommit_only ..)
    | apply Steady.trans ?_ (State.portLinkCommit_steady ..) | apply Steady.trans ?_ (State.refreshRefs_steady ..)
    | apply Steady.only ?_ (State.checkDomains_only ..) | apply Steady.trans ?_ (State.calibratedCommit_steady ..)
    | apply Steady.only ?_ (State.setGnss_only ..) | apply Steady.trans ?_ (State.gnssStart_steady ..)
    | apply Steady.trans ?_ (State.gnssStop_steady ..) | apply Steady.only ?_ (State.setAcc_only ..)
    | apply Steady.only ?_ (State.setFamily_only ..) | apply Steady.only ?_ (State.rejoin_only ..)
    | apply Steady.trans ?_ (State.resetMailbox_steady ..) | split

theorem State.commitBlock_steady (s : State) (block : Nat) : Steady s (State.commitBlock s block) := by
  unfold State.commitBlock
  with_reducible repeat' first
    | exact .refl _ | (show allows _ _ = false; with_unfolding_all rfl)
    | apply Steady.trans ?_ (State.closeBatch_steady ..) | apply Steady.only ?_ (State.configUp_only ..)
    | apply Steady.trans ?_ (State.afterCommit_steady ..) | apply Steady.only ?_ (State.staged_only ..)
    | apply Steady.trans ?_ (State.beforeCommit_steady ..) | apply Steady.only ?_ (State.openBatch_only ..)

end Sys2Proof.Machine
end

section
/-! ## Command channel: writes of parameters (R46, R47, R517, R519, R520) -/

namespace Sys2Proof.Machine

/-! ### Rows of the parameter table -/

/-- A test that every row of every block passes holds of each row that the table lists. -/
theorem of_paramsOf {q : Nat → Param → Bool} (h : (blockNumbers.all fun k => (paramsOf k).all (q k)) = true) {k : Nat} {p : Param}
    (hp : p ∈ paramsOf k) : q k p = true := by
  have hk : k ∈ blockNumbers := by
    by_contra hk
    have hnone : paramsOf k = [] := by
      unfold paramsOf
      split <;> first | rfl | exact absurd (by decide) hk
    rw [hnone] at hp
    exact List.not_mem_nil hp
  exact List.all_eq_true.mp (List.all_eq_true.mp h k hk) p hp

theorem elementOf_mem {a n i : Nat} {p : Param} (h : elementOf a n = some (p, i)) : p ∈ paramsOf (a / 65536) := by
  obtain ⟨q, hq, he⟩ := Option.map_eq_some_iff.mp h
  obtain ⟨rfl, -⟩ := Prod.mk.inj he
  exact List.mem_of_find?_eq_some hq

/-- Whether the parameters of a kind hold values that a request writes. -/
def Kind.written : Kind → Bool
  | .live | .commit | .halt => true
  | .ro | .w1c | .reserved => false

/-- Whether a frame leaves out every parameter that a request writes. -/
def leavesWritten (W : Option (List Nat)) : Bool :=
  blockNumbers.all fun k => (paramsOf k).all fun p => !p.kind.written || (decide (62 ≤ p.base) && !allows W p.base)

/-- An operation whose frame leaves out the parameters that requests write keeps their values. -/
theorem Only.written {W : Option (List Nat)} {s t : State} (g : Only W s t) (hW : leavesWritten W = true)
    {k : Nat} {p : Param} (hp : p ∈ paramsOf k) (hk : p.kind.written = true) (i : Nat) : t.rd p.base i = s.rd p.base i := by
  have h := of_paramsOf hW hp
  simp only [hk, Bool.not_true, Bool.false_or, Bool.and_eq_true, decide_eq_true_eq, Bool.not_eq_true'] at h
  exact g.rd _ i h.1 h.2

/-- The values that requests write are those of other registers than the configuration generation. -/
theorem written_ne_generation {k : Nat} {p : Param} (hp : p ∈ paramsOf k) (hk : p.kind.written = true) :
    p.base ≠ P.SYS_CONFIG_GEN := by
  have h := of_paramsOf (q := fun _ p => !p.kind.written || p.base != P.SYS_CONFIG_GEN) (by rfl) hp
  simpa [hk] using h

/-! ### The tests of the entries, in states with the same values (R519, R520) -/

section
variable {s t : State} (h : ∀ b, b ≠ P.CMD_FASTPATH_COUNT → ∀ i, t.rd b i = s.rd b i)
include h

theorem State.blockRuns_congr (k : Nat) : t.blockRuns k = s.blockRuns k := by
  unfold State.blockRuns State.rdb
  split <;> simp (disch := decide) only [h]

theorem State.furtherTest_congr (b i v : Nat) : t.furtherTest b i v = s.furtherTest b i v := by
  unfold State.furtherTest State.rdb
  simp (disch := decide) only [h]

theorem State.writeRefusal_congr (e : WriteEntry) : t.writeRefusal e = s.writeRefusal e := by
  unfold State.writeRefusal
  simp only [State.blockRuns_congr h, State.furtherTest_congr h]

theorem State.breaks_congr (b i : Nat) : t.breaks b i = s.breaks b i := by
  unfold State.breaks scalarRelations arrayRelations
  simp (disch := decide) only [List.any_cons, List.any_nil, h]

end

theorem State.tentative_congr {s t : State} (h : ∀ b, b ≠ P.CMD_FASTPATH_COUNT → ∀ i, t.rd b i = s.rd b i) (es : List WriteEntry) :
    ∀ b, b ≠ P.CMD_FASTPATH_COUNT → ∀ i, (t.tentative es).rd b i = (s.tentative es).rd b i := by
  induction es generalizing s t with
  | nil => exact h
  | cons e es ih =>
    refine ih fun b hb i => ?_
    dsimp only
    split
    · split
      · rw [State.rd_wr, State.rd_wr, h b hb i]
      · exact h b hb i
    · exact h b hb i

theorem State.writeFault_congr {s t : State} (h : ∀ b, b ≠ P.CMD_FASTPATH_COUNT → ∀ i, t.rd b i = s.rd b i) (es : List WriteEntry) :
    t.writeFault es = s.writeFault es := by
  unfold State.writeFault
  simp only [State.writeRefusal_congr h, State.breaks_congr (State.tentative_congr h es)]

theorem State.begun_rd (s : State) (op : Nat) (rq : Request) (x : Session) {b : Nat} (hb : b ≠ P.CMD_FASTPATH_COUNT) (i : Nat) :
    (s.begun op rq x).rd b i = s.rd b i := by
  rw [State.begun_eq]
  split
  · rw [State.rd_count_plain _ _ _ _ rfl hb, State.occupied_rd]
  · exact State.occupied_rd ..

theorem State.begun_writeFault (s : State) (op : Nat) (rq : Request) (x : Session) (es : List WriteEntry) :
    (s.begun op rq x).writeFault es = s.writeFault es :=
  State.writeFault_congr (fun _ hb i => s.begun_rd op rq x hb i) es

end Sys2Proof.Machine
end

section
/-! ## Command channel: what a PARAM_WRITE of one entry leaves (R13, R46, R47, R517) -/

namespace Sys2Proof.Machine

theorem opRow_write : opRow Op.PARAM_WRITE = some ⟨Op.PARAM_WRITE, 1, 0, sizeRecords 16 255, paramWrite⟩ := rfl

theorem paramWrite_good {o : Origin} {b : List Byte} {s : State} (h : s.writeFault (writeEntries b) = none) :
    paramWrite o b s = (s.applyWrites o.session (writeEntries b)).finish o Status.OK [] := by
  unfold paramWrite
  simp only [h]

theorem paramWrite_refused {o : Origin} {b : List Byte} {s : State} {k st : Nat}
    (h : s.writeFault (writeEntries b) = some (k, st)) : paramWrite o b s = s.finish o st (toBe 2 k ++ toBe 2 st) := by
  unfold paramWrite
  simp only [h]

theorem State.wrShadow_shadows (s : State) (b i v : Nat) :
    (s.wrShadow b i v).shadows = store ltPair (b, i) (s.rd b i) v s.shadows := rfl

theorem State.wrShadow_rd (s : State) (b i v c j : Nat) : (s.wrShadow b i v).rd c j = s.rd c j := rfl

theorem State.configUp_rd (s : State) : s.configUp.rd P.SYS_CONFIG_GEN = (s.rd P.SYS_CONFIG_GEN + 1) % 2 ^ 32 :=
  State.rd_wr_self ..

section
variable {e : WriteEntry} {p : Param} {i : Nat} (he : elementOf e.addr e.index = some (p, i))
include he

theorem WriteEntry.key_of_element : e.key = (p.base, i) := by
  unfold WriteEntry.key
  rw [he]

theorem WriteEntry.counts_of_element (hk : p.kind.written = true) (hb : p.base ≠ P.SYS_SCRATCH) : e.counts = true := by
  obtain ⟨q, hq, hqe⟩ := Option.map_eq_some_iff.mp he
  obtain ⟨rfl, -⟩ := Prod.mk.inj hqe
  unfold WriteEntry.counts
  rw [hq]
  cases hkind : q.kind <;> simp_all [Kind.written]

/-- One entry that counts: it is applied, then what follows from the value, then the generation rises. -/
theorem State.applyWrites_one (hk : p.kind.written = true) (hb : p.base ≠ P.SYS_SCRATCH) (s : State) (n : Nat) :
    s.applyWrites n [e] = (((s.openBatch.applyEntry n e).afterWrite p.base i).configUp).closeBatch s := by
  have hany : ([e].any WriteEntry.counts) = true := by simp [WriteEntry.counts_of_element he hk hb]
  unfold State.applyWrites
  simp only [hany, if_true, List.map_cons, List.map_nil, WriteEntry.key_of_element he]
  rfl

variable (hk : p.kind.written = true) (hb : p.base ≠ P.SYS_SCRATCH)
include hk hb

/-- What follows from a write keeps the value written. -/
theorem State.applyWrites_value (s : State) (n : Nat) :
    (s.applyWrites n [e]).rd p.base i = (s.openBatch.applyEntry n e).rd p.base i := by
  have hp := elementOf_mem he
  rw [State.applyWrites_one he hk hb, (State.closeBatch_only ..).written rfl hp hk]
  unfold State.configUp
  rw [State.rd_wr_base _ (written_ne_generation hp hk), (State.afterWrite_only ..).written rfl hp hk]

/-- The generation rises by 1 from what it is once the entry is applied. -/
theorem State.applyWrites_generation (s : State) (n : Nat) :
    (s.applyWrites n [e]).rd P.SYS_CONFIG_GEN = ((s.openBatch.applyEntry n e).rd P.SYS_CONFIG_GEN + 1) % 2 ^ 32 := by
  rw [State.applyWrites_one he hk hb, (State.closeBatch_only ..).rd _ _ (by decide) rfl, State.configUp_rd,
    (State.afterWrite_only ..).rd _ _ (by decide) rfl]

/-- What follows from a write leaves the shadows alone. -/
theorem State.applyWrites_shadows (s : State) (n : Nat) :
    (s.applyWrites n [e]).shadows = (s.openBatch.applyEntry n e).shadows := by
  rw [State.applyWrites_one he hk hb, (State.closeBatch_only ..).shadows rfl, (State.configUp_only ..).shadows rfl,
    (State.afterWrite_only ..).shadows rfl]

end

/-! ### The value stored at once -/

/-- Whether a write of a LIVE parameter goes to the administrative bank of a port. -/
def toBank (b : Nat) : Bool := [P.LCK_ADM_ENTRY, P.LCK_ADM_CYCLE, P.LCK_ADM_BASE, P.LCK_ADM_COUNT].contains b

theorem State.armSwap_value (s : State) (i v : Nat) : (s.armSwap i v).rd P.LCK_SWAP_TIME i = v := by
  unfold State.armSwap
  dsimp only
  split <;> split <;> simp [State.rd_wr]

/-- A value stored at once reads as it was written, whatever else the write does. -/
theorem State.writeLive_value {s : State} {b i : Nat} (n v : Nat) (hb : toBank b = false) (hi : b = P.GNS_ANT_BIAS → i = 0) :
    (s.writeLive n b i v).rd b i = v := by
  have hite : ∀ {c : Prop} [Decidable c] {t u : State}, (c → t.rd b i = v) → (¬ c → u.rd b i = v) → (if c then t else u).rd b i = v := by
    intro c _ t u ht hu
    split
    next hc => exact ht hc
    next hc => exact hu hc
  have hwr : ∀ u : State, (u.wr b i v).rd b i = v := fun u => State.rd_wr_self ..
  have hbank : ∀ {c : Prop}, c → (c → toBank b = true) → False := fun hc h => by simp [h hc] at hb
  unfold State.writeLive
  refine hite (fun h => ?_) fun _ => hite (fun h => ?_) fun _ => hite (fun h => ?_) fun _ =>
    hite (fun h => hite (fun _ => ?_) fun _ => hwr s) fun _ =>
    hite (fun h => hite (fun _ => hwr s) fun _ => hite (fun _ => ?_) fun _ => hwr _) fun _ =>
    hite (fun _ => hwr s) fun _ => hite (fun h => ?_) fun _ => hite (fun h => ?_) fun _ =>
    hite (fun _ => hwr s) fun _ => hite (fun h => hite (fun _ => hwr s) fun _ => ?_) fun _ => hite (fun _ => hwr _) fun _ => hwr s
  · rw [h]
    exact State.armSwap_value ..
  · exact (hbank h fun h => by rw [h]; rfl).elim
  · exact (hbank h fun h => by rcases h with h | h | h <;> rw [h] <;> rfl).elim
  · rw [(State.setCtle_only ..).rd _ _ (by rcases h with h | h <;> rw [h] <;> decide) (by rcases h with h | h <;> rw [h] <;> rfl), hwr]
  · rw [(State.nhpStart_only ..).rd _ _ (by rw [h]; decide) (by rw [h]; rfl), hwr]
  · rw [hi h, h]
    exact State.rd_wr_self ..
  · rw [(State.gnssCount_only ..).rd _ _ (by rw [h]; decide) (by rw [h]; rfl), hwr]
  · rw [State.rd_wr_base _ (by rw [h]; decide), hwr]

/-- A value stored at once leaves the configuration generation alone. -/
theorem State.writeLive_generation {s : State} {b : Nat} (n i v : Nat) (hb : b ≠ P.SYS_CONFIG_GEN) :
    (s.writeLive n b i v).rd P.SYS_CONFIG_GEN = s.rd P.SYS_CONFIG_GEN := by
  have hwr : ∀ u : State, (u.wr b i v).rd P.SYS_CONFIG_GEN = u.rd P.SYS_CONFIG_GEN := fun u => State.rd_wr_base _ hb.symm ..
  have hadm : ∀ (q j : Nat), (s.admWriteHeld b q j v).rd P.SYS_CONFIG_GEN = s.rd P.SYS_CONFIG_GEN := by
    intro q j
    unfold State.admWriteHeld State.admWrite
    split
    · rfl
    · split
      · rfl
      · exact State.rd_wr_base _ hb.symm ..
  have hite : ∀ {c : Prop} [Decidable c] {t u : State}, t.rd P.SYS_CONFIG_GEN = s.rd P.SYS_CONFIG_GEN →
      u.rd P.SYS_CONFIG_GEN = s.rd P.SYS_CONFIG_GEN → (if c then t else u).rd P.SYS_CONFIG_GEN = s.rd P.SYS_CONFIG_GEN := by
    intro c _ t u ht hu
    split <;> assumption
  unfold State.writeLive
  refine hite ((State.armSwap_only ..).rd _ _ (by decide) rfl) (hite (hadm ..) (hite (hadm ..) (hite (hite ?_ (hwr s))
    (hite (hite (hwr s) (hite ?_ ?_)) (hite (hwr s) (hite ((State.writeBias_only ..).rd _ _ (by decide) rfl) (hite ?_
    (hite (hwr s) (hite (hite (hwr s) ?_) (hite ?_ (hwr s)))))))))))
  · rw [(State.setCtle_only ..).rd _ _ (by decide) rfl, hwr]
  · rw [(State.nhpStart_only ..).rd _ _ (by decide) rfl, hwr]
  · rw [hwr, (State.nhpStop_only ..).rd _ _ (by decide) rfl]
  · rw [(State.gnssCount_only ..).rd _ _ (by decide) rfl, hwr]
  · rw [State.rd_wr_base _ (by decide), hwr]
  · rw [hwr, (State.holdSettle_only ..).rd _ _ (by decide) rfl]

/-! ### The request -/

section
variable {s : State} {rq : Request} {x : Session} {e : WriteEntry} {p : Param} {i : Nat} (h : s.taken Op.PARAM_WRITE rq x)
  (hes : writeEntries rq.payload = [e]) (he : elementOf e.addr e.index = some (p, i)) (hf : s.writeFault [e] = none)
include h hes hf

/-- A good write of one entry is applied in the state in which the request has begun. -/
theorem exec_write_one : exec (.paramWrite rq) s = .next (((s.begun Op.PARAM_WRITE rq x).applyWrites
    (originOf x Op.PARAM_WRITE rq).session [e]).finish (originOf x Op.PARAM_WRITE rq) Status.OK []).settle := by
  have hexec := State.arrive_taken h opRow_write (by decide)
  dsimp only at hexec
  rw [paramWrite_good (by rw [State.begun_writeFault, hes, hf]), hes] at hexec
  exact congrArg Host.Outcome.next hexec

end

/-- A COMMIT entry stores a shadow. -/
theorem State.applyEntry_commit {e : WriteEntry} {p : Param} {i : Nat} (he : elementOf e.addr e.index = some (p, i))
    (hk : p.kind = .commit) (s : State) (n : Nat) : s.applyEntry n e = s.wrShadow p.base i e.value := by
  unfold State.applyEntry
  simp only [he, hk]

/-- A LIVE or HALT entry stores the value that is kept of it. -/
theorem State.applyEntry_live {e : WriteEntry} {p : Param} {i : Nat} (he : elementOf e.addr e.index = some (p, i))
    (hk : p.kind = .live ∨ p.kind = .halt) (s : State) (n : Nat) :
    s.applyEntry n e = s.writeLive n p.base i (keptValue p.base e.value) := by
  unfold State.applyEntry
  rcases hk with hk | hk <;> simp only [he, hk]

/-- A good entry names an element that its parameter has. -/
theorem index_lt_of_writeFault {s : State} {e : WriteEntry} {p : Param} {i : Nat} (he : elementOf e.addr e.index = some (p, i))
    (hf : s.writeFault [e] = none) : i < p.count := by
  by_contra hi
  have hr : s.writeRefusal e = Status.BAD_INDEX := by
    unfold State.writeRefusal
    simp only [he]
    exact if_pos (Nat.le_of_not_lt hi)
  unfold State.writeFault at hf
  simp [hr] at hf

theorem commit_ne_scratch {k : Nat} {p : Param} (hp : p ∈ paramsOf k) (hk : p.kind = .commit) : p.base ≠ P.SYS_SCRATCH := by
  have h := of_paramsOf (q := fun _ p => p.kind != .commit || p.base != P.SYS_SCRATCH) (by rfl) hp
  simpa [hk] using h

theorem count_bias {k : Nat} {p : Param} (hp : p ∈ paramsOf k) (hb : p.base = P.GNS_ANT_BIAS) : p.count = 1 := by
  have h := of_paramsOf (q := fun _ p => p.base != P.GNS_ANT_BIAS || p.count == 1) (by rfl) hp
  simpa [hb] using h

/-- Settles O19: the entry's effect is on its own shadow or value, and what follows from it touches neither that nor a shadow. -/
theorem paramWriteIsAllOrNothing : Obligations.ParamWriteIsAllOrNothing := by
  unfold Obligations.ParamWriteIsAllOrNothing
  refine ⟨?_, ?_, ?_⟩
  · intro rq s x k st h hf
    have hexec := State.arrive_taken h opRow_write (by decide)
    dsimp only at hexec
    rw [paramWrite_refused ((s.begun_writeFault ..).trans hf)] at hexec
    exact ⟨_, congrArg Host.Outcome.next hexec, State.begun_replied h (.refl _) .., State.begun_finish_only ..⟩
  · intro rq s x e p i h hes he hf hk
    have hp := elementOf_mem he
    have hw : p.kind.written = true := by rw [hk]; rfl
    have hb := commit_ne_scratch hp hk
    have hbegun := s.begun_only Op.PARAM_WRITE rq x
    have hentry := fun n => State.applyEntry_commit he hk (s.begun Op.PARAM_WRITE rq x).openBatch n
    have hvalue : ∀ o st pl n, (((s.begun Op.PARAM_WRITE rq x).applyWrites n [e]).finish o st pl).rd p.base i = s.rd p.base i := by
      intro o st pl n
      rw [(State.finish_only ..).written rfl hp hw, State.applyWrites_value he hw hb, hentry]
      exact ((State.openBatch_only ..).written rfl hp hw i).trans (hbegun.written rfl hp hw i)
    have hshadows : ∀ o st pl n, (((s.begun Op.PARAM_WRITE rq x).applyWrites n [e]).finish o st pl).shadows =
        store ltPair (p.base, i) (s.rd p.base i) e.value s.shadows := by
      intro o st pl n
      rw [(State.finish_only ..).shadows rfl, State.applyWrites_shadows he hw hb, hentry, State.wrShadow_shadows,
        (State.openBatch_only ..).shadows rfl, hbegun.shadows rfl, (State.openBatch_only ..).written rfl hp hw i,
        hbegun.written rfl hp hw i]
    refine ⟨_, exec_write_one h hes hf, State.begun_replied h (State.applyWrites_steady ..) .., ?_, hvalue .., ?_, ?_⟩
    · unfold State.shadow
      rw [hvalue, hshadows]
      exact look_store_self ..
    · intro b j d hne
      rw [hshadows]
      exact look_store_other _ hne ..
    · rw [(State.finish_only ..).rd _ _ (by decide) rfl, State.applyWrites_generation he hw hb, hentry, State.wrShadow_rd,
        (State.openBatch_only ..).rd _ _ (by decide) rfl, hbegun.rd _ _ (by decide) rfl]
  · intro rq s x e p i h hes he hf hk hbase
    have hp := elementOf_mem he
    have hw : p.kind.written = true := by rcases hk with hk | hk <;> rw [hk] <;> rfl
    simp only [List.mem_cons, List.not_mem_nil, or_false, not_or] at hbase
    obtain ⟨hentry, hcycle, hfirst, hcount, hb⟩ := hbase
    have hbank : toBank p.base = false := by simp [toBank, hentry, hcycle, hfirst, hcount]
    have hbias : p.base = P.GNS_ANT_BIAS → i = 0 := fun hg => by
      have hi := index_lt_of_writeFault he hf
      rw [count_bias hp hg] at hi
      omega
    refine ⟨_, exec_write_one h hes hf, State.begun_replied h (State.applyWrites_steady ..) .., ?_, ?_, ?_⟩
    · rw [(State.finish_only ..).written rfl hp hw, State.applyWrites_value he hw hb, State.applyEntry_live he hk]
      exact State.writeLive_value _ _ hbank hbias
    · rw [(State.finish_only ..).rd _ _ (by decide) rfl, State.applyWrites_generation he hw hb, State.applyEntry_live he hk,
        State.writeLive_generation _ _ _ (written_ne_generation hp hw), (State.openBatch_only ..).rd _ _ (by decide) rfl,
        (s.begun_only ..).rd _ _ (by decide) rfl]
    · exact (((s.begun_only ..).mono rfl).step (State.applyWrites_only ..) rfl).step (State.finish_only ..) rfl

end Sys2Proof.Machine
end

section
/-! ## Command channel: what a commit keeps (R47, R57, R86, R514)

The operations on the way of a commit write no COMMIT parameter, no shadow and no configuration generation of their own; block TBS
alone treats the offset and the set request further. -/

namespace Sys2Proof.Machine

/-- Whether a commit gives a parameter its shadow's value and nothing else does. -/
def Param.committed (p : Param) : Bool := p.kind == .commit && p.base != P.TBS_UTC_OFFSET && p.base != P.TBS_SET_REQ

/-- The parameters that a commit alone changes. -/
def committedBases : List Nat :=
  [P.FAB_PACE, P.PRT_LANES, P.PRT_FEC, P.PRT_MAX_FRAME, P.PRT_EXPRESS, P.PRT_FC_MODE, P.TBL_PORT_GROUP, P.TBL_PVID,
    P.LCK_FIBRE_SRC, P.LCK_FIBRE_COMP, P.LCK_FIBRE_ASYM, P.TBS_LEAP, P.TBS_SET_SEC, P.TBS_DOM_LINK, P.LNK_DDMTD_AVG,
    P.LNK_DDMTD_GLITCH, P.LNK_CLASS, P.LNK_ROLE, P.LNK_ASYM, P.LNK_ASYM_RES, P.REF_BW, P.REF_LINK_PORT, P.REF_EXT_MODE,
    P.COR_XLOCK_BW, P.GNS_ENABLE, P.GNS_POS_MODE, P.GNS_FIX_X, P.GNS_FIX_Y, P.GNS_FIX_Z, P.GNS_SURVEY_TIME, P.EVT_ACC_MODE,
    P.EVT_ACC_A, P.EVT_ACC_B, P.EVT_ACC_N, P.LAN_RATE, P.LAN_ALIGN, P.LAN_FREE_REF, P.LAN_ENABLE, P.SYN_OUT_INT, P.SYN_OUT_FRAC,
    P.SYN_OUT_MOD, P.SYN_OUT_DIV, P.SYN_OUT_PHASE, P.LOG_SEAL_INTERVAL, P.LOG_CH_ENABLE, P.LOG_RING, P.ARB_WINDOW, P.ARB_QUOTA,
    P.ARB_QUOTA_EN, P.ARB_PRIO, P.HIE_UP_PORT, P.HIE_PORT_EN, P.HST_MBX_BASE, P.HST_MBX_SIZE]

theorem committed_mem {k : Nat} {p : Param} (hp : p ∈ paramsOf k) (hc : p.committed = true) : p.base ∈ committedBases := by
  have h := of_paramsOf (q := fun _ p => !p.committed || committedBases.contains p.base) (by rfl) hp
  simpa [hc] using h

/-- Whether a frame leaves out the shadows, the configuration generation and every parameter that a commit alone changes. -/
def leavesCommitted (W : Option (List Nat)) : Bool :=
  !allows W F.shadows && !allows W P.SYS_CONFIG_GEN && committedBases.all fun b => Nat.ble 62 b && !allows W b

/-- From `s` to `t` the shadows, the configuration generation and the parameters that a commit alone changes stay. -/
structure Uncommitted (s t : State) : Prop where
  shadows : t.shadows = s.shadows
  generation : t.rd P.SYS_CONFIG_GEN = s.rd P.SYS_CONFIG_GEN
  rd : ∀ k, ∀ p ∈ paramsOf k, p.committed = true → ∀ i, t.rd p.base i = s.rd p.base i

theorem Uncommitted.refl (s : State) : Uncommitted s s := ⟨rfl, rfl, fun _ _ _ _ _ => rfl⟩

theorem Uncommitted.trans {s t u : State} (h : Uncommitted s t) (g : Uncommitted t u) : Uncommitted s u :=
  ⟨g.shadows.trans h.shadows, g.generation.trans h.generation, fun k p hp hc i => (g.rd k p hp hc i).trans (h.rd k p hp hc i)⟩

/-- An operation whose frame leaves out what a commit alone changes. -/
theorem Uncommitted.only {W : Option (List Nat)} {s t u : State} (h : Uncommitted s t) (g : Only W t u)
    (hW : leavesCommitted W = true) : Uncommitted s u := by
  refine h.trans ?_
  simp only [leavesCommitted, Bool.and_eq_true, Bool.not_eq_true'] at hW
  obtain ⟨⟨hshadows, hgen⟩, htable⟩ := hW
  refine ⟨g.shadows hshadows, g.rd _ _ (by decide) hgen, fun k p hp hc i => ?_⟩
  obtain ⟨h62, hout⟩ := Bool.and_eq_true_iff.mp (List.all_eq_true.mp htable _ (committed_mem hp hc))
  exact g.rd _ _ (Nat.le_of_ble_eq_true h62) (by simpa using hout)

theorem Uncommitted.cond {s a b : State} (c : Prop) [Decidable c] (h : Uncommitted s a) (g : Uncommitted s b) :
    Uncommitted s (if c then a else b) := by
  split <;> assumption

theorem Uncommitted.fold {α : Type} {s t : State} (f : State → α → State) (l : List α) (h : ∀ u x, Uncommitted u (f u x))
    (g : Uncommitted s t) : Uncommitted s (l.foldl f t) := by
  induction l generalizing t with
  | nil => exact g
  | cons x l ih => exact ih (g.trans (h t x))

/-- A write of a register that no commit changes. -/
theorem Uncommitted.wr {s t : State} (h : Uncommitted s t) (b i v : Nat)
    (hb : leavesCommitted (some [b]) = true) : Uncommitted s (t.wr b i v) :=
  h.only ((Only.refl (some [b]) t).wr (by simp [allows]) i v) hb

/-! ### Blocks FAB and TBS -/

theorem State.applyPace_uncommitted (s : State) : Uncommitted s (s.applyPace (s.rd P.FAB_PACE)) := by
  have hsame : Uncommitted s (s.wr P.FAB_PACE 0 (s.rd P.FAB_PACE)) := by
    refine ⟨rfl, State.rd_wr_base _ (by decide) .., fun k p hp hc i => ?_⟩
    rw [State.rd_wr]
    split
    next h => rw [h.1, h.2]
    · rfl
  unfold State.applyPace
  exact Uncommitted.only (.cond _ (hsame.wr _ _ _ rfl) ((hsame.wr _ _ _ rfl).only (State.setFab_only ..) rfl)) (State.vcore_only ..) rfl

theorem Uncommitted.wrTbs {s t : State} (h : Uncommitted s t) (b i v : Nat) (hb : b = P.TBS_UTC_OFFSET ∨ b = P.TBS_SET_REQ) :
    Uncommitted s (t.wr b i v) := by
  refine h.trans ⟨rfl, State.rd_wr_base _ (by rcases hb with rfl | rfl <;> decide) .., fun k p hp hc j => State.rd_wr_base _ ?_ ..⟩
  simp only [Param.committed, Bool.and_eq_true, bne_iff_ne] at hc
  rcases hb with rfl | rfl
  · exact hc.1.2
  · exact hc.2

theorem State.tbsCommit_uncommitted (s before : State) : Uncommitted s (s.tbsCommit before) := by
  unfold State.tbsCommit
  refine Uncommitted.wr (Uncommitted.only (.fold _ _ (fun u d => (Uncommitted.refl u).wr _ _ _ rfl) ?_) (State.checkDomains_only ..) rfl) _ _ _ rfl
  have hleap : Uncommitted s (if s.rd P.TBS_UTC_SOURCE = 1 then s.wr P.TBS_UTC_VALID 0 1
      else s.wr P.TBS_UTC_OFFSET 0 (before.rd P.TBS_UTC_OFFSET)).armLeap :=
    Uncommitted.only (.cond _ ((Uncommitted.refl s).wr _ _ _ rfl) ((Uncommitted.refl s).wrTbs _ _ _ (.inl rfl))) (State.armLeap_only ..) rfl
  exact .cond _ ((hleap.only (State.acceptSet_only ..) rfl).wrTbs _ _ _ (.inr rfl)) hleap

/-! ### Every block -/

theorem State.beforeCommit_uncommitted (s : State) (block : Nat) : Uncommitted s (s.beforeCommit block) := by
  unfold State.beforeCommit
  split
  · exact .fold _ _ (fun u k => (Uncommitted.refl u).only (State.loseRef_only ..) rfl) (.refl s)
  · exact .fold _ _ (fun u c => (Uncommitted.refl u).only (State.closeChannel_only ..) rfl) (.refl s)
  · exact .fold _ _ (fun u l => (Uncommitted.refl u).only (State.laneOff_only ..) rfl) (.refl s)
  · exact .fold _ _ (fun u l => (Uncommitted.refl u).only (State.laneOff_only ..) rfl) (.refl s)
  · exact .fold _ _ (fun u l => (Uncommitted.refl u).only (State.laneOff_only ..) rfl) (.refl s)
  · exact .refl s

theorem State.afterCommit_uncommitted (s before : State) (block : Nat) : Uncommitted s (s.afterCommit before block) := by
  unfold State.afterCommit
  with_reducible repeat' first
    | exact .refl _ | (show leavesCommitted _ = true; with_unfolding_all rfl)
    | exact State.applyPace_uncommitted .. | exact State.tbsCommit_uncommitted ..
    | apply Uncommitted.fold _ _ (fun _ _ => ?_) ?_ | apply Uncommitted.cond _ ?_ ?_ | apply Uncommitted.wr ?_ _ _ _
    | apply Uncommitted.only ?_ (State.wakeLanes_only ..) | apply Uncommitted.only ?_ (State.evaluateSluice_only ..)
    | apply Uncommitted.only ?_ (State.refreshHeadroom_only ..) | apply Uncommitted.only ?_ (State.refreshPath_only ..)
    | apply Uncommitted.only ?_ (State.portLinkCommit_only ..) | apply Uncommitted.only ?_ (State.refreshRefs_only ..)
    | apply Uncommitted.only ?_ (State.checkDomains_only ..) | apply Uncommitted.only ?_ (State.calibratedCommit_only ..)
    | apply Uncommitted.only ?_ (State.setGnss_only ..) | apply Uncommitted.only ?_ (State.gnssStart_only ..)
    | apply Uncommitted.only ?_ (State.gnssStop_only ..) | apply Uncommitted.only ?_ (State.setAcc_only ..)
    | apply Uncommitted.only ?_ (State.setFamily_only ..) | apply Uncommitted.only ?_ (State.rejoin_only ..)
    | apply Uncommitted.only ?_ (State.resetMailbox_only ..) | split

end Sys2Proof.Machine
end

section
/-! ## Command channel: the shadows of a block put in place (R47) -/

namespace Sys2Proof.Machine

/-! ### Lists of shadows -/

theorem look_of_unlisted {κ α : Type} [DecidableEq κ] {k : κ} {d : α} {m : List (κ × α)} (h : ∀ e ∈ m, e.1 ≠ k) : look k d m = d := by
  induction m with
  | nil => rfl
  | cons e m ih =>
    unfold look
    rw [if_neg (h e List.mem_cons_self)]
    exact ih fun x hx => h x (List.mem_cons_of_mem _ hx)

theorem look_filter {κ α : Type} [DecidableEq κ] (p : κ × α → Bool) {k : κ} (hp : ∀ v, p (k, v) = true) (d : α) (m : List (κ × α)) :
    look k d (m.filter p) = look k d m := by
  induction m with
  | nil => rfl
  | cons e m ih =>
    by_cases hk : e.1 = k
    · have he : p e = true := by
        rw [← hp e.2, ← hk]
      rw [List.filter_cons_of_pos he]
      unfold look
      rw [if_pos hk, if_pos hk]
    · cases he : p e with
      | true =>
        rw [List.filter_cons_of_pos he]
        unfold look
        rw [if_neg hk, if_neg hk, ih]
      | false =>
        rw [List.filter_cons_of_neg (by simp [he]), ih]
        conv_rhs => unfold look
        rw [if_neg hk]

/-- Registers written one after the other from a list that holds each key once read as the list says. -/
theorem State.rd_foldl_wr {m : List ((Nat × Nat) × Nat)} (h : rising ltPair m = true) (s : State) (b i : Nat) :
    (m.foldl (fun (t : State) x => t.wr x.1.1 x.1.2 x.2) s).rd b i = look (b, i) (s.rd b i) m := by
  induction m generalizing s with
  | nil => rfl
  | cons e m ih =>
    simp only [rising, Bool.and_eq_true, List.all_eq_true] at h
    obtain ⟨hfirst, hrest⟩ := h
    rw [List.foldl_cons, ih hrest]
    conv_rhs => unfold look
    by_cases hk : e.1 = (b, i)
    · have hnone : ∀ x ∈ m, x.1 ≠ (b, i) := fun x hx hxk => by
        have hlt := hfirst x hx
        rw [hk, hxk] at hlt
        simp [ltPair] at hlt
      rw [if_pos hk, look_of_unlisted hnone, hk]
      exact State.rd_wr_self ..
    · have hsame : (s.wr e.1.1 e.1.2 e.2).rd b i = s.rd b i := by
        rw [State.rd_wr, if_neg fun hbi => hk (Prod.ext hbi.1.symm hbi.2.symm)]
      rw [if_neg hk, hsame]

theorem State.rd_foldl_wr_congr {s t : State} {b i : Nat} (h : t.rd b i = s.rd b i) (m : List ((Nat × Nat) × Nat)) :
    (m.foldl (fun (t : State) x => t.wr x.1.1 x.1.2 x.2) t).rd b i = (m.foldl (fun (t : State) x => t.wr x.1.1 x.1.2 x.2) s).rd b i := by
  induction m generalizing s t with
  | nil => exact h
  | cons e m ih =>
    refine ih ?_
    rw [State.rd_wr, State.rd_wr, h]

/-! ### The staged state -/

theorem State.staged_shadows (s : State) (block : Nat) :
    (s.staged block).shadows = s.shadows.filter (fun (x : (Nat × Nat) × Nat) => blockOf x.1.1 != block) := rfl

/-- A block's parameters take their shadows' values. -/
theorem State.staged_rd {s : State} (h : rising ltPair s.shadows = true) (b i : Nat) : (s.staged (blockOf b)).rd b i = s.shadow b i := by
  have hfold := State.rd_foldl_wr (m := s.shadowsOf (blockOf b)) (rising_filter _ _ h) s b i
  exact hfold.trans (look_filter _ (fun v => by simp) _ _)

theorem State.staged_rd_other {s : State} (h : rising ltPair s.shadows = true) {block b : Nat} (hb : blockOf b ≠ block) (i : Nat) :
    (s.staged block).rd b i = s.rd b i := by
  have hfold := State.rd_foldl_wr (m := s.shadowsOf block) (rising_filter _ _ h) s b i
  refine hfold.trans (look_of_unlisted fun e he hk => hb ?_)
  have hblock := List.of_mem_filter he
  rw [hk] at hblock
  simpa using hblock

theorem State.staged_shadowsOf (s : State) (block : Nat) : (s.staged block).shadowsOf block = [] := by
  unfold State.shadowsOf
  rw [State.staged_shadows, List.filter_filter, List.filter_eq_nil_iff]
  intro e he
  simp

theorem State.staged_shadowsOf_other (s : State) {block k : Nat} (hk : k ≠ block) : (s.staged block).shadowsOf k = s.shadowsOf k := by
  unfold State.shadowsOf
  rw [State.staged_shadows, List.filter_filter]
  refine List.filter_congr fun e he => ?_
  by_cases hb : blockOf e.1.1 = k
  · simp [hb, hk]
  · simp [hb]

/-! ### The tests at the commit, in states with the same values (R514) -/

/-- Whether a number is that of a register which no reply changes. -/
def replyKeeps (b : Nat) : Bool := decide (62 ≤ b) && b != P.CMD_REFUSED_COUNT && b != P.TBS_OVER_LIMIT_COUNT

theorem Only.replyKeeps_rd {s t : State} (g : Only (some [F.cmd, F.rings, P.CMD_REFUSED_COUNT, P.TBS_OVER_LIMIT_COUNT]) s t) {b : Nat}
    (hb : replyKeeps b = true) (i : Nat) : t.rd b i = s.rd b i := by
  simp only [replyKeeps, Bool.and_eq_true, decide_eq_true_eq, bne_iff_ne] at hb
  obtain ⟨⟨h62, hr⟩, ht⟩ := hb
  refine g.rd b i h62 (not_allows ?_)
  simp only [List.forall_mem_cons]
  exact ⟨⟨field_ne h62 rfl, by decide⟩, ⟨field_ne h62 rfl, by decide⟩, ⟨hr.symm, by decide⟩, ⟨ht.symm, by decide⟩, by simp⟩

section
variable {s t : State} (h : ∀ b, replyKeeps b = true → ∀ i, t.rd b i = s.rd b i)
include h

theorem State.portLegal_congr (l : Nat) : t.portLegal l = s.portLegal l := by
  unfold State.portLegal State.rateOf
  simp (disch := decide) only [h]

theorem State.portsLegal_congr : t.portsLegal = s.portsLegal := by
  unfold State.portsLegal State.expressCount State.rdb
  simp (disch := decide) only [h, funext (State.portLegal_congr h)]

theorem State.huntLegal_congr (q : Nat) : t.huntLegal q = s.huntLegal q := by
  unfold State.huntLegal
  simp (disch := decide) only [h]

theorem State.engineFamily_congr (e : Nat) : t.engineFamily e = s.engineFamily e := by
  unfold State.engineFamily
  simp (disch := decide) only [h]

theorem State.arbLegal_congr : t.arbLegal = s.arbLegal := by
  unfold State.arbLegal
  simp (disch := decide) only [h]

theorem State.logLegal_congr : t.logLegal = s.logLegal := by
  unfold State.logLegal State.rdb
  simp (disch := decide) only [h]

theorem State.linkPortsLegal_congr : t.linkPortsLegal = s.linkPortsLegal := by
  unfold State.linkPortsLegal
  simp (disch := decide) only [h]

theorem State.staged_congr (hs : t.shadows = s.shadows) (block : Nat) :
    ∀ b, replyKeeps b = true → ∀ i, (t.staged block).rd b i = (s.staged block).rd b i := by
  intro b hb i
  have hof : t.shadowsOf block = s.shadowsOf block := by unfold State.shadowsOf; rw [hs]
  have hfold := State.rd_foldl_wr_congr (h b hb i) (s.shadowsOf block)
  unfold State.staged
  rw [hof]
  exact hfold

/-- The refusal of a commit depends on the values, the shadows and the laser swaps. -/
theorem State.commitRefusal_congr (hs : t.shadows = s.shadows) (ho : t.optics = s.optics) (block : Nat) :
    t.commitRefusal block = s.commitRefusal block := by
  have hstaged := State.staged_congr h hs block
  unfold State.commitRefusal State.commitTest State.rdb
  simp (disch := decide) only [h, hstaged, ho, State.portsLegal_congr hstaged, funext (State.huntLegal_congr hstaged),
    State.engineFamily_congr hstaged, State.arbLegal_congr hstaged, State.logLegal_congr hstaged, State.linkPortsLegal_congr hstaged]

end

end Sys2Proof.Machine
end

section
/-! ## Command channel: immediate commits (R47, R48, R514, R517) -/

namespace Sys2Proof.Machine

theorem opRow_commit : opRow Op.PARAM_COMMIT = some ⟨Op.PARAM_COMMIT, 1, 0, size 12, paramCommit⟩ := rfl

theorem blockOf_of_mem {k : Nat} {p : Param} (hp : p ∈ paramsOf k) : blockOf p.base = k := by
  have h := of_paramsOf (q := fun k p => blockOf p.base == k) (by rfl) hp
  simpa using h

/-! ### A pending commit is superseded -/

/-- The state with the pending commit of a block forgotten. -/
def State.dropCommit (s : State) (block : Nat) : State :=
  s.setCmd fun c => { c with commits := c.commits.filter fun x => x.block != block }

theorem State.supersede_steady (s : State) (block : Nat) : Steady (s.dropCommit block) (s.supersede block) :=
  .fold _ _ (fun t c => State.finish_steady t c.origin Status.SUPERSEDED []) (.refl _)

theorem State.supersede_commitRefusal (s : State) (block k : Nat) : (s.supersede block).commitRefusal k = s.commitRefusal k := by
  have g := s.supersede_only block
  exact State.commitRefusal_congr (fun _ hb i => g.replyKeeps_rd hb i) (g.shadows rfl) (g.optics rfl) k

/-! ### What the commit of a block leaves -/

section
variable {s : State} {block : Nat} (hs : rising ltPair s.shadows = true)

/-- Until the shadows are put in place, nothing has changed that a commit alone changes. -/
theorem State.beforeCommit_of_batch (s : State) (block : Nat) : Uncommitted s (s.openBatch.beforeCommit block) :=
  ((Uncommitted.refl s).only (State.openBatch_only ..) rfl).trans (State.beforeCommit_uncommitted ..)

theorem State.commitBlock_rd {k : Nat} {p : Param} (hp : p ∈ paramsOf k) (hc : p.committed = true) (i : Nat) :
    (s.commitBlock block).rd p.base i = ((s.openBatch.beforeCommit block).staged block).rd p.base i := by
  have hafter := State.afterCommit_uncommitted ((s.openBatch.beforeCommit block).staged block) s block
  have hend := ((Uncommitted.refl ((((s.openBatch.beforeCommit block).staged block).afterCommit s block).configUp)).only
    (State.closeBatch_only _ s) rfl).rd k p hp hc i
  have hne : p.base ≠ P.SYS_CONFIG_GEN := written_ne_generation hp (by
    simp only [Param.committed, Bool.and_eq_true, beq_iff_eq] at hc
    rw [hc.1.1]
    rfl)
  exact hend.trans ((State.rd_wr_base _ hne ..).trans (hafter.rd k p hp hc i))

theorem State.commitBlock_shadows : (s.commitBlock block).shadows = s.shadows.filter (fun (x : (Nat × Nat) × Nat) => blockOf x.1.1 != block) := by
  have hbefore := (State.beforeCommit_of_batch s block).shadows
  have hafter := (State.afterCommit_uncommitted ((s.openBatch.beforeCommit block).staged block) s block).shadows
  unfold State.commitBlock
  rw [(State.closeBatch_only ..).shadows rfl, (State.configUp_only ..).shadows rfl, hafter, State.staged_shadows, hbefore]

theorem State.commitBlock_shadowsOf : (s.commitBlock block).shadowsOf block = [] := by
  have h := State.staged_shadowsOf s block
  unfold State.shadowsOf at h ⊢
  rw [State.commitBlock_shadows, ← State.staged_shadows, h]

theorem State.commitBlock_shadowsOf_other {k : Nat} (hk : k ≠ block) : (s.commitBlock block).shadowsOf k = s.shadowsOf k := by
  have h := State.staged_shadowsOf_other s hk
  unfold State.shadowsOf at h ⊢
  rw [State.commitBlock_shadows, ← State.staged_shadows, h]

include hs

/-- Every COMMIT parameter of the block takes its shadow's value. -/
theorem State.commitBlock_value {p : Param} (hp : p ∈ paramsOf block) (hc : p.committed = true) (i : Nat) :
    (s.commitBlock block).rd p.base i = s.shadow p.base i := by
  have hbefore := State.beforeCommit_of_batch s block
  have hstaged := State.staged_rd (s := s.openBatch.beforeCommit block) (by rw [hbefore.shadows]; exact hs) p.base i
  rw [blockOf_of_mem hp] at hstaged
  rw [State.commitBlock_rd hp hc, hstaged]
  unfold State.shadow
  rw [hbefore.shadows, hbefore.rd block p hp hc]

theorem State.commitBlock_generation (hb : block ≠ blockOf P.SYS_CONFIG_GEN) :
    (s.commitBlock block).rd P.SYS_CONFIG_GEN = (s.rd P.SYS_CONFIG_GEN + 1) % 2 ^ 32 := by
  have hbefore := State.beforeCommit_of_batch s block
  have hafter := (State.afterCommit_uncommitted ((s.openBatch.beforeCommit block).staged block) s block).generation
  have hstaged := State.staged_rd_other (s := s.openBatch.beforeCommit block) (by rw [hbefore.shadows]; exact hs) (Ne.symm hb) 0
  unfold State.commitBlock
  rw [(State.closeBatch_only ..).rd _ _ (by decide) rfl, State.configUp_rd, hafter, hstaged, hbefore.generation]

end

/-! ### PARAM_COMMIT -/

section
variable {o : Origin} {b : List Byte} {s : State} (hnano : (commitOp b).nano ≤ 999999999)
  (hblock : blockNumbers.contains (commitOp b).block = true)
include hnano hblock

/-- An immediate commit of a block other than SYN supersedes a pending one and is answered OK or refused. -/
theorem paramCommit_now (hc : hasCommit (commitOp b).block = true) (hsyn : (commitOp b).block ≠ 0x31)
    (hnow : (commitOp b).scheduled = false) :
    paramCommit o b s = (s.supersede (commitOp b).block).commitNow o (commitOp b).block Status.OK := by
  unfold paramCommit
  simp only [Nat.not_lt.mpr hnano, hblock, hc, hnow, hsyn, not_true_eq_false, or_self, if_false, false_and, Bool.false_eq_true,
    not_false_eq_true, if_true, beq_iff_eq]

/-- A commit of a block without COMMIT parameters is answered OK. -/
theorem paramCommit_empty (hc : hasCommit (commitOp b).block = false) (hv : (commitOp b).scheduled = false ∨ o.version ≠ 1) :
    paramCommit o b s = s.finish o Status.OK [] := by
  have hsched : ¬ ((commitOp b).scheduled = true ∧ o.version = 1) := fun h => hv.elim (by simp [h.1]) (· h.2)
  unfold paramCommit
  simp only [Nat.not_lt.mpr hnano, hblock, hc, hsched, not_true_eq_false, or_self, if_false, Bool.false_eq_true, not_false_eq_true,
    if_true]

end

end Sys2Proof.Machine
end

section
/-! ## Command channel: PARAM_COMMIT of each block (R47, R48, R514) -/

namespace Sys2Proof.Machine

/-- The rows of the immediate commits, with the request that each one is. -/
def commitRows (q : Request) : List (Instr × Request) :=
  [(.fabCommit q, blockCommit 0x10 q), (.prtCommit q, blockCommit 0x11 q), (.tblCommit q, blockCommit 0x13 q),
    (.lckCommit q, blockCommit 0x14 q), (.tbsCommit q, blockCommit 0x20 q), (.lnkCommit q, blockCommit 0x21 q),
    (.refCommit q, blockCommit 0x22 q), (.corCommit q, blockCommit 0x23 q), (.gnsCommit q, blockCommit 0x24 q),
    (.evtCommit q, blockCommit 0x25 q), (.lanCommit q, blockCommit 0x30 q), (.logCommit q, blockCommit 0x40 q),
    (.arbCommit q, blockCommit 0x42 q), (.hieCommit q, blockCommit 0x50 q), (.hstCommit q, blockCommit 0x71 q)]

theorem asRequest_of_commitRows {c : Instr} {q rq : Request} (h : (c, rq) ∈ commitRows q) :
    asRequest c = some (Op.PARAM_COMMIT, rq) := by
  have hrows : ∀ y ∈ commitRows q, asRequest y.1 = some (Op.PARAM_COMMIT, y.2) := by
    simp only [commitRows, List.forall_mem_cons]
    exact ⟨rfl, rfl, rfl, rfl, rfl, rfl, rfl, rfl, rfl, rfl, rfl, rfl, rfl, rfl, rfl, fun _ h => absurd h List.not_mem_nil⟩
  exact hrows _ h

theorem exec_commit {c : Instr} {rq : Request} {s : State} {x : Session} (hc : asRequest c = some (Op.PARAM_COMMIT, rq))
    (h : s.taken Op.PARAM_COMMIT rq x) : exec c s =
      .next (paramCommit (originOf x Op.PARAM_COMMIT rq) rq.payload (s.occupied Op.PARAM_COMMIT rq x)).settle := by
  have e := exec_taken_slow hc h opRow_commit (by decide) (fastPath_slow rq (by decide) (by decide))
  exact e

theorem beAt_blockCommit (block : BitVec 8) (rq : Request) : (commitOp (blockCommit block.toNat rq).payload).block = block.toNat := by
  simp [commitOp, blockCommit, beAt, slice, toBe, toLe, be]

section
variable {s : State} {rq : Request} {x : Session} (h : s.taken Op.PARAM_COMMIT rq x)
include h

/-- The final reply of a commit whose session has gone on since a pending commit was forgotten. -/
theorem State.commit_replied {t : State} {block : Nat} (g : Steady ((s.occupied Op.PARAM_COMMIT rq x).dropCommit block) t) (st : Nat)
    (pl : List Byte) : (t.finish (originOf x Op.PARAM_COMMIT rq) st pl).replied x Op.PARAM_COMMIT rq st pl := by
  obtain ⟨y, hy, hb, hc⟩ := State.reached_occupied h.1
  exact g.finish_replied hy (.inl hb) hc

end

theorem State.occupied_commitRefusal (s : State) (op : Nat) (rq : Request) (x : Session) (k : Nat) :
    (s.occupied op rq x).commitRefusal k = s.commitRefusal k :=
  State.commitRefusal_congr (fun b _ i => s.occupied_rd op rq x b i) ((s.occupied_only op rq x).shadows rfl)
    ((s.occupied_only op rq x).optics rfl) k

/-- What the command channel and a superseded commit's reply leave before the shadows are applied. -/
theorem State.superseded_only (s : State) (op : Nat) (rq : Request) (x : Session) (k : Nat) :
    Only (some [F.cmd, F.rings, P.CMD_REFUSED_COUNT, P.TBS_OVER_LIMIT_COUNT]) s ((s.occupied op rq x).supersede k) :=
  ((s.occupied_only op rq x).mono rfl).trans (State.supersede_only ..)

/-- A block with COMMIT parameters is not the block of the configuration generation. -/
theorem hasCommit_ne {k : Nat} (h : hasCommit k = true) : k ≠ blockOf P.SYS_CONFIG_GEN := by
  rintro rfl
  have hnone : hasCommit (blockOf P.SYS_CONFIG_GEN) = false := rfl
  rw [hnone] at h
  exact Bool.false_ne_true h

/-- Replies change no COMMIT parameter. -/
theorem replyKeeps_committed {k : Nat} {p : Param} (hp : p ∈ paramsOf k) (hc : p.committed = true) : replyKeeps p.base = true := by
  have h := of_paramsOf (q := fun _ p => !p.committed || replyKeeps p.base) (by rfl) hp
  simpa [hc] using h

/-- Settles O21: the shadows are applied in the state in which a pending commit is superseded, and the reply is given after it. -/
theorem commitAppliesItsBlocksShadows : Obligations.CommitAppliesItsBlocksShadows := by
  unfold Obligations.CommitAppliesItsBlocksShadows
  refine ⟨?_, ?_, ?_⟩
  · intro c q rq s x hrow h hnano hblock hhas hsyn hnow hform hrefusal
    obtain ⟨-, -, hrising⟩ := hform
    have hexec := exec_commit (asRequest_of_commitRows hrow) h
    rw [paramCommit_now hnano hblock hhas hsyn hnow] at hexec
    generalize hk : (commitOp rq.payload).block = k at *
    have hsup := s.superseded_only Op.PARAM_COMMIT rq x k
    have hshadows := hsup.shadows rfl
    have hsteady := ((s.occupied Op.PARAM_COMMIT rq x).supersede_steady k).trans (State.commitBlock_steady _ k)
    have hreply := State.commit_replied h hsteady Status.OK []
    have hcommits := (State.finish_steady (((s.occupied Op.PARAM_COMMIT rq x).supersede k).commitBlock k)
      (originOf x Op.PARAM_COMMIT rq) Status.OK []).commits.trans hsteady.commits
    have hframe : Only (some ([F.cal, F.cmd, F.evtAccs, F.fabric, F.fault, F.flash, F.fresh, F.gnss] ++
        [F.hidden, F.linkRun, F.links, F.log, F.nhp, F.optics, F.pad, F.params] ++
        [F.power, F.quay, F.refs, F.rings, F.servo, F.shadows, F.time, F.txSlots] ++ [F.windowAt])) s
        ((((s.occupied Op.PARAM_COMMIT rq x).supersede k).commitBlock k).finish (originOf x Op.PARAM_COMMIT rq) Status.OK []) :=
      ((hsup.mono rfl).step (State.commitBlock_only ..) rfl).step (State.finish_only ..) rfl
    unfold State.commitNow at hexec
    rw [State.supersede_commitRefusal, State.occupied_commitRefusal, if_pos hrefusal] at hexec
    generalize (s.occupied Op.PARAM_COMMIT rq x).supersede k = v at *
    have hfinish := State.finish_only (v.commitBlock k) (originOf x Op.PARAM_COMMIT rq) Status.OK []
    have hv : rising ltPair v.shadows = true := by rw [hshadows]; exact hrising
    refine ⟨_, hexec, hreply, ?_, ?_, ?_, ?_, ?_, hframe⟩
    · intro p hp hcommit hbase i
      have hc : p.committed = true := by
        simp only [List.mem_cons, List.not_mem_nil, or_false, not_or] at hbase
        simp [Param.committed, hcommit, hbase]
      rw [hfinish.replyKeeps_rd (replyKeeps_committed hp hc), State.commitBlock_value hv hp hc]
      unfold State.shadow
      rw [hshadows, hsup.replyKeeps_rd (replyKeeps_committed hp hc)]
    · unfold State.shadowsOf
      rw [hfinish.shadows rfl]
      exact State.commitBlock_shadowsOf
    · intro j hj
      have hother := State.commitBlock_shadowsOf_other (s := v) hj
      unfold State.shadowsOf at hother ⊢
      rw [hfinish.shadows rfl, hother, hshadows]
    · rw [hcommits]
      refine List.all_eq_true.mpr fun y hy => ?_
      have hmem : y ∈ (s.occupied Op.PARAM_COMMIT rq x).cmd.commits.filter fun z => z.block != k := hy
      exact (List.mem_filter.mp hmem).2
    · rw [hfinish.replyKeeps_rd rfl, State.commitBlock_generation hv (hasCommit_ne hhas), hsup.replyKeeps_rd rfl]
  · intro c q rq s x hrow h hnano hblock hhas hsyn hnow hrefusal
    have hexec := exec_commit (asRequest_of_commitRows hrow) h
    rw [paramCommit_now hnano hblock hhas hsyn hnow] at hexec
    unfold State.commitNow at hexec
    rw [State.supersede_commitRefusal, State.occupied_commitRefusal, if_neg hrefusal] at hexec
    exact ⟨_, hexec, State.commit_replied h (State.supersede_steady ..) .., (State.superseded_only ..).trans (State.finish_only ..)⟩
  · intro block rq s x h hnano hblock hhas hv
    have hexec := exec_commit (c := .commitNoShadow block rq) rfl h
    rw [paramCommit_empty hnano (by rw [beAt_blockCommit]; exact hblock) (by rw [beAt_blockCommit]; exact hhas) hv] at hexec
    exact ⟨_, hexec, State.taken_replied h (.refl _) .., ((s.occupied_only ..).mono rfl).step (State.finish_only ..) rfl⟩

end Sys2Proof.Machine
end

section
/-! ## Timebase: ones' complement sums (R27, R79) -/

namespace Sys2Proof.Machine

/-- Two carries bring a sum of words to its remainder by 65535, with 65535 in place of 0 for a sum that is not 0. -/
theorem foldCarry_twice {v : Nat} (h : v < 2 ^ 32) : foldCarry (foldCarry v) = if v = 0 then 0 else (v - 1) % 65535 + 1 := by
  unfold foldCarry
  split <;> omega

theorem sumWords_le (bs : List Byte) : 2 * sumWords bs ≤ 65535 * (bs.length + 1) := by
  induction bs using sumWords.induct with
  | case1 => simp [sumWords]
  | case2 a =>
    have ha := a.isLt
    simp only [sumWords, List.length_singleton]
    omega
  | case3 a b r ih =>
    have ha := a.isLt
    have hb := b.isLt
    simp only [sumWords, List.length_cons]
    omega

theorem onesSum_eq {bs : List Byte} (h : bs.length ≤ 65536) :
    onesSum bs = if sumWords bs = 0 then 0 else (sumWords bs - 1) % 65535 + 1 := by
  have hle := sumWords_le bs
  exact foldCarry_twice (by omega)

theorem sumWords_append {bs cs : List Byte} (h : bs.length % 2 = 0) : sumWords (bs ++ cs) = sumWords bs + sumWords cs := by
  induction bs using sumWords.induct with
  | case1 => simp [sumWords]
  | case2 a => simp at h
  | case3 a b r ih =>
    have hr : r.length % 2 = 0 := by simp only [List.length_cons] at h; omega
    simp only [List.cons_append, sumWords, ih hr]
    omega

theorem sumWords_toBe {v : Nat} (h : v < 65536) : sumWords (toBe 2 v) = v := by
  simp [toBe, toLe, sumWords, BitVec.toNat_ofNat]
  omega

theorem beAt_word (a b : Byte) (r : List Byte) : beAt 0 2 (a :: b :: r) = a.toNat * 256 + b.toNat := by
  simp [beAt, slice, be]

theorem beAt_skip (i n : Nat) (a b : Byte) (r : List Byte) : beAt (i + 2) n (a :: b :: r) = beAt i n r := rfl

theorem sumWords_take (k : Nat) (bs : List Byte) (h : 2 * k ≤ bs.length) :
    sumWords (bs.take (2 * k)) = ((List.range k).map fun i => beAt (2 * i) 2 bs).sum := by
  induction k generalizing bs with
  | zero => simp [sumWords]
  | succ k ih =>
    match bs with
    | [] => simp at h
    | [_] => simp only [List.length_singleton] at h; omega
    | a :: b :: r =>
      have hr : 2 * k ≤ r.length := by simp only [List.length_cons] at h; omega
      have hrest : ∀ i, beAt (2 * (i + 1)) 2 (a :: b :: r) = beAt (2 * i) 2 r := fun i => beAt_skip (2 * i) 2 a b r
      rw [List.range_succ_eq_map, List.map_cons, List.sum_cons, List.map_map, Nat.mul_zero, beAt_word]
      simp only [Function.comp_def, Nat.succ_eq_add_one, hrest, ← ih r hr]
      rfl

/-- With its check word behind it, a string sums to 0xFFFF. -/
theorem onesSum_checked {bs : List Byte} (h : bs.length % 2 = 0) (hlen : bs.length ≤ 65534) :
    onesSum (bs ++ toBe 2 (onesCheck bs)) = 0xFFFF := by
  have hcheck : onesCheck bs < 65536 := by unfold onesCheck; omega
  have hlength : (bs ++ toBe 2 (onesCheck bs)).length ≤ 65536 := by rw [List.length_append, toBe_length]; omega
  rw [onesSum_eq hlength, sumWords_append h, sumWords_toBe hcheck]
  unfold onesCheck
  rw [onesSum_eq (by omega)]
  split <;> split <;> omega

/-- Bytes 0 to 13 of a trailer (R78). -/
def trailerHead (rx : Stamp) (port : Nat) : List Byte :=
  toBe 4 (rx.ns / 1000000000) ++ toBe 4 (rx.ns % 1000000000) ++ toBe 2 rx.sub ++ toBe 1 rx.code ++ toBe 1 rx.flags ++ toBe 2 port

theorem trailer_eq (rx : Stamp) (port : Nat) : trailer rx port = trailerHead rx port ++ toBe 2 (onesCheck (trailerHead rx port)) := rfl

@[simp] theorem trailerHead_length (rx : Stamp) (port : Nat) : (trailerHead rx port).length = 14 := by
  simp [trailerHead, toBe_length]

theorem beAt_append_toBe {bs : List Byte} {n v : Nat} (hn : bs.length = n) (hv : v < 65536) : beAt n 2 (bs ++ toBe 2 v) = v := by
  have hslice : slice n 2 (bs ++ toBe 2 v) = toBe 2 v := by
    unfold slice
    rw [← hn, List.drop_left, List.take_of_length_le (by rw [toBe_length])]
  unfold beAt
  rw [hslice]
  simp [toBe, toLe, be, BitVec.toNat_ofNat]
  omega

/-- Settles O7: the words of the head are summed one by one, and the check word completes their sum to 0xFFFF. -/
theorem trailerCheckSums : Obligations.TrailerCheckSums := by
  unfold Obligations.TrailerCheckSums
  refine ⟨?_, fun rq op => beq_iff_eq⟩
  rintro rx port b n rfl rfl
  have hlen := trailerHead_length rx port
  have hhead : (trailer rx port).take 14 = trailerHead rx port := by rw [trailer_eq, ← hlen, List.take_left]
  have hlength : (trailer rx port).length = 16 := by rw [trailer_eq, List.length_append, hlen, toBe_length]
  have hcheck : onesCheck (trailerHead rx port) < 65536 := by unfold onesCheck; omega
  refine ⟨hlength, ?_, ?_, ?_⟩
  · rw [← sumWords_take 7 _ (by omega), hhead, onesSum_eq (by omega)]
  · rw [hhead, trailer_eq, beAt_append_toBe hlen hcheck]
    rfl
  · exact onesSum_checked (bs := trailerHead rx port) (by omega) (by omega)

end Sys2Proof.Machine
end

section
/-! ## Timebase: a tick of 2 ns (R54, R55, R142, R143, R145, R157, R159) -/

namespace Sys2Proof.Machine

/-! ### Counts -/

/-- A tick of a count below 2^48 s is 2 ns. -/
theorem TimeCount.tick_even {x : TimeCount} (hsec : x.sec + 1 < 2 ^ 48) (hnano : x.nano < 1000000000) (heven : x.nano % 2 = 0) :
    x.tick.nano < 1000000000 ∧ x.tick.nano % 2 = 0 ∧ instant x.tick.sec x.tick.nano = instant x.sec x.nano + 2 ∧
      (x.nano = 999999998 → x.tick = ⟨x.sec + 1, 0⟩) := by
  unfold TimeCount.tick instant
  split
  · exact ⟨by assumption, by simp only; omega, by simp only; omega, by omega⟩
  · have hlast : x.nano = 999999998 := by omega
    have hzero : x.nano + 2 - 1000000000 = 0 := by omega
    rw [Nat.mod_eq_of_lt hsec, hzero]
    exact ⟨by simp, by simp, by simp only; omega, fun _ => rfl⟩

theorem TimeCount.advance_one {lead : Int} (h : lead.natAbs < 20000000000) (x : TimeCount) :
    x.advance lead = x.tick ∧ leadLeft lead = lead := by
  unfold TimeCount.advance leadLeft tickUnits
  rw [if_neg (by omega), if_neg (by omega), if_neg (by omega), if_neg (by omega)]
  exact ⟨rfl, rfl⟩

theorem TimeCount.advance_two {lead : Int} (h : 20000000000 ≤ lead) (x : TimeCount) :
    x.advance lead = x.tick.tick ∧ leadLeft lead = lead - 20000000000 := ⟨if_pos h, if_pos h⟩

theorem TimeCount.advance_none {lead : Int} (h : lead ≤ -20000000000) (x : TimeCount) :
    x.advance lead = x ∧ leadLeft lead = lead + 20000000000 := by
  unfold TimeCount.advance leadLeft tickUnits
  rw [if_neg (by omega), if_pos h, if_neg (by omega), if_pos h]
  exact ⟨rfl, rfl⟩

/-- The count of a core after a tick, by its COR_STATE (R157, R159). -/
def coreCount (state : Nat) (lead : Int) (x : TimeCount) : TimeCount :=
  match state with
  | 0 => x
  | 2 | 3 | 4 => x.advance lead
  | _ => x.tick

theorem coreCount_follows {state : Nat} (h2 : 2 ≤ state) (h4 : state ≤ 4) (lead : Int) (x : TimeCount) :
    coreCount state lead x = x.advance lead := by
  interval_cases state <;> rfl

theorem coreCount_free {state : Nat} (h : state = 1 ∨ 5 ≤ state) (lead : Int) (x : TimeCount) : coreCount state lead x = x.tick := by
  match state, h with
  | 1, _ | _ + 5, _ => rfl

/-! ### The parts of a tick -/

theorem State.setCore_self (s : State) (c : Nat) : s = s.setCore c fun x => x := by unfold State.setCore; split <;> rfl

theorem State.tickCore_eq (s : State) (c : Nat) (lead : Int) :
    s.tickCore c lead = s.setCore c fun x => { x with count := coreCount (s.rd P.COR_STATE c) lead x.count } := by
  unfold State.tickCore
  generalize s.rd P.COR_STATE c = state
  match state with
  | 0 => exact s.setCore_self c
  | 1 | 2 | 3 | 4 | _ + 5 => rfl

theorem State.tickOut_eq (s : State) (lead : Int) :
    s.tickOut lead = { s with time := { s.time with
      out := if s.phase = .held then s.time.out else s.time.out.advance lead,
      lead := if s.phase = .held then s.time.lead else leadLeft lead } } := by
  unfold State.tickOut
  split <;> rfl

/-- With the pause as a variable: the kernel would count a literal one down. -/
theorem match_all (o : Option Nat) (pause now : Nat) :
    (match o with | some t => decide (t + pause ≤ now) | none => true) = o.all fun u => decide (u + pause ≤ now) := by
  cases o <;> rfl

/-- The state with the instant of the last pulse of a second. -/
def State.withPulse (s : State) (p : Option Nat) : State := { s with time := { s.time with pulseAt := p } }

theorem State.withPulse_self (s : State) : s = s.withPulse s.time.pulseAt := rfl

/-- The instant of the last pulse of a second, after a tick from the count `before` (R143). -/
def State.pulsed (s : State) (before : TimeCount) : Option Nat :=
  if s.time.out.sec ≠ before.sec ∧ (s.rdb P.REF_TIME_SET = true ∨ s.rdb P.REF_PPS_FREERUN = true) ∧
    (s.time.pulseAt.all fun u => decide (u + 500000000 ≤ s.clock)) = true then some s.clock else s.time.pulseAt

theorem State.pulse_eq (s : State) (before : TimeCount) : s.pulse before = s.withPulse (s.pulsed before) := by
  have hpulse := congrArg (fun clear : Bool =>
    if (s.time.out.sec != before.sec && (s.rdb P.REF_TIME_SET || s.rdb P.REF_PPS_FREERUN) && clear) = true
      then s.withPulse (some s.clock) else s) (match_all s.time.pulseAt 500000000 s.clock)
  refine Eq.trans hpulse ?_
  unfold State.pulsed
  generalize (s.time.pulseAt.all fun u => decide (u + 500000000 ≤ s.clock)) = clear
  simp only [Bool.and_eq_true, Bool.or_eq_true, bne_iff_ne, and_assoc]
  split
  · rfl
  · exact s.withPulse_self

/-- The gathered phase at the end of a tick, before whole ticks of it are counted (R142). -/
def State.gathered (s : State) : Int := s.time.lead + s.pulled s.clock (s.clock + 2)

/-- What a tick makes of the timing plane, the pulse of the second aside. -/
def State.ticked (s : State) : State :=
  { s with
    clock := s.clock + 2
    time := { s.time with
      coreA := { s.time.coreA with count := coreCount (s.rd P.COR_STATE 0) s.gathered s.time.coreA.count }
      coreB := { s.time.coreB with count := coreCount (s.rd P.COR_STATE 1) s.gathered s.time.coreB.count }
      out := if s.phase = .held then s.time.out else s.time.out.advance s.gathered
      lead := if s.phase = .held then s.time.lead else leadLeft s.gathered } }

theorem State.tick_eq (s : State) : s.tick = s.ticked.withPulse (s.ticked.pulsed s.time.out) := by
  have hticked : ((({ s with clock := s.clock + 2 } : State).tickCore 0 s.gathered).tickCore 1 s.gathered).tickOut s.gathered =
      s.ticked := by
    rw [State.tickOut_eq, State.tickCore_eq, State.tickCore_eq]
    rfl
  rw [← State.pulse_eq, ← hticked]
  rfl

theorem State.ticked_core {s : State} {c : Nat} (h : c < 2) :
    (s.ticked.core c).count = coreCount (s.rd P.COR_STATE c) s.gathered (s.core c).count := by
  match c, h with
  | 0, _ | 1, _ => rfl

theorem step_idle {s : State} (h : s.pending = []) : step s = .next s.tick := by unfold step; rw [h]

/-- Settles O2: a tick is one record update, and each count's by the state of its core. -/
theorem idleStepIsATick : Obligations.IdleStepIsATick := by
  unfold Obligations.IdleStepIsATick
  refine ⟨?_, fun s h => if_neg h, ?_, fun x => TimeCount.tick_even⟩
  · rintro s _ hidle rfl
    refine ⟨_, (step_idle hidle).trans (congrArg _ s.tick_eq), rfl, rfl, rfl, fun c hc => ?_, rfl, rfl⟩
    have hcount : ((s.ticked.withPulse (s.ticked.pulsed s.time.out)).core c).count = _ := State.ticked_core hc
    rw [hcount]
    exact ⟨fun h => by rw [h]; rfl, fun h2 h4 => coreCount_follows h2 h4 .., fun h => coreCount_free h ..⟩
  · exact fun x lead => ⟨fun h => TimeCount.advance_one h x, fun h => TimeCount.advance_two h x, fun h => TimeCount.advance_none h x⟩

end Sys2Proof.Machine
end

section
/-! ## Timebase: module time moves only by steps (R57) -/

namespace Sys2Proof.Machine

/-! ### Every command answers a next state -/

/-- The outcome is a next state. -/
def Answers (o : Host.Outcome State Fault Refusal) : Prop := ∃ t : State, o = .next t

theorem Answers.next (t : State) : Answers (.next t) := ⟨t, rfl⟩

theorem Answers.cond {a b : Host.Outcome State Fault Refusal} {c : Prop} [Decidable c] (ha : Answers a) (hb : Answers b) :
    Answers (if c then a else b) := by split <;> assumption

/-- The meaning of a command is a tree of conditions and matches with next states at its leaves. -/
theorem exec_answers (c : Instr) (s : State) : Answers (exec c s) := by
  cases c
  case proofTimeout | sessionIdleTimeout | flushWalkEnd | rehashWalkEnd | drainFenceComplete | snapshotCaptureDone | calRunDone |
    laserSwapStart | spareRouted | setSecRollover | leapSecond | expressStartTest | frameReceived | frameAdmitted | learnApply |
    lostGap | paceMargin | vcoreMismatch | shutterDrainExpiry | pfcReceived | pfcRepeat | frameTransmitStart | transmitComplete |
    copyLaunch | copyAbandon | sealSigned | framing | framingLoss | realignTimeout | tdreq | tdresp | respTimeout | tcal |
    ddmtdSettle | slipHoldExpiry | ptpSyncSend | wtrExpiry | crosslockSettle | tapStep | tamperDetect | helloSilence | joinAck |
    leave | status | clientReport | tunnelReq | tunnelReply | hostTxFrame | hostTxWriteback | hostRxDeliver =>
    simp only [exec, execProofTimeout, execSessionIdleTimeout, execFlushWalkEnd, execRehashWalkEnd, execDrainFenceComplete, execSnapshotCaptureDone,
      execCalRunDone, execLaserSwapStart, execSpareRouted, execSetSecRollover, execLeapSecond, execExpressStartTest,
      execFrameReceived, execFrameAdmitted, execLearnApply, execLostGap, execPaceMargin, execVcoreMismatch, execShutterDrainExpiry,
      execPfcReceived, execPfcRepeat, execFrameTransmitStart, execTransmitComplete, execCopyLaunch, execCopyAbandon, execSealSigned,
      execFraming, execFramingLoss, execRealignTimeout, execTdreq, execTdresp, execRespTimeout, execTcal, execDdmtdSettle,
      execSlipHoldExpiry, execPtpSyncSend, execWtrExpiry, execCrosslockSettle, execTapStep, execTamperDetect, execHelloSilence,
      execJoinAck, execLeave, execStatus, execClientReport, execTunnelReq, execTunnelReply, execHostTxFrame, execHostTxWriteback,
      execHostRxDeliver]
    repeat' first | exact Answers.next _ | refine Answers.cond ?_ ?_ | split
  all_goals repeat' first | exact Answers.next _ | refine Answers.cond ?_ ?_

/-! ### The count of the output stage -/

/-- A next state, if there is one, has the count of the output stage as it was. -/
def KeepsOut (s : State) (o : Host.Outcome State Fault Refusal) : Prop := ∀ t : State, o = .next t → t.time.out = s.time.out

theorem OnlyO.keepsOut {W : Option (List Nat)} {s : State} {o : Host.Outcome State Fault Refusal} (h : OnlyO W s o)
    (hw : allows W F.timeOut = false) : KeepsOut s o := fun t ht => (h.next t ht).timeOut hw

/-- The frames of all commands but seven leave the count out: the two steps of R57, and those that bring the module into reset, out of it,
or leave a part of it without power (log entries 2 and 41). -/
theorem exec_keepsOut {c : Instr} (s : State) (hrollover : c ≠ .setSecRollover) (hlock : ∀ sec nano, c ≠ .acquireLock sec nano)
    (hrelease : ∀ pins heaterA, c ≠ .resetNRelease pins heaterA) (hassert : c ≠ .resetNAssert)
    (hloss : ∀ rail mv, c ≠ .railLoss rail mv) (hrestored : ∀ rail mv pins heaterA, c ≠ .railRestored rail mv pins heaterA)
    (hdomain : ∀ dom, c ≠ .domainPowerGoodLoss dom) : KeepsOut s (exec c s) := by
  cases c with
  | sessionOpen => exact (execSessionOpen_only ..).keepsOut rfl
  | sessionProve => exact (execSessionProve_only ..).keepsOut rfl
  | proofTimeout => exact (execProofTimeout_only ..).keepsOut rfl
  | sessionClose => exact (execSessionClose_only ..).keepsOut rfl
  | sessionIdleTimeout => exact (execSessionIdleTimeout_only ..).keepsOut rfl
  | sessionSet => exact (execSessionSet_only ..).keepsOut rfl
  | unknownOpcode => exact (execUnknownOpcode_only ..).keepsOut rfl
  | spiReadTransfer => exact (execSpiReadTransfer_only ..).keepsOut rfl
  | paramRead => exact (execParamRead_only ..).keepsOut rfl
  | paramWrite => exact (execParamWrite_only ..).keepsOut rfl
  | lckSwapTimeWrite => exact (execLckSwapTimeWrite_only ..).keepsOut rfl
  | lckAdmEntryWrite => exact (execLckAdmEntryWrite_only ..).keepsOut rfl
  | obsTagSeedWrite => exact (execObsTagSeedWrite_only ..).keepsOut rfl
  | spdTamperSrcClear => exact (execSpdTamperSrcClear_only ..).keepsOut rfl
  | gnsAntBiasWrite => exact (execGnsAntBiasWrite_only ..).keepsOut rfl
  | cmdMgmtEnableWrite => exact (execCmdMgmtEnableWrite_only ..).keepsOut rfl
  | fabCommit => exact (execFabCommit_only ..).keepsOut rfl
  | prtCommit => exact (execPrtCommit_only ..).keepsOut rfl
  | tblCommit => exact (execTblCommit_only ..).keepsOut rfl
  | lckCommit => exact (execLckCommit_only ..).keepsOut rfl
  | tbsCommit => exact (execTbsCommit_only ..).keepsOut rfl
  | lnkCommit => exact (execLnkCommit_only ..).keepsOut rfl
  | refCommit => exact (execRefCommit_only ..).keepsOut rfl
  | corCommit => exact (execCorCommit_only ..).keepsOut rfl
  | gnsCommit => exact (execGnsCommit_only ..).keepsOut rfl
  | evtCommit => exact (execEvtCommit_only ..).keepsOut rfl
  | lanCommit => exact (execLanCommit_only ..).keepsOut rfl
  | synCommit => exact (execSynCommit_only ..).keepsOut rfl
  | logCommit => exact (execLogCommit_only ..).keepsOut rfl
  | arbCommit => exact (execArbCommit_only ..).keepsOut rfl
  | hieCommit => exact (execHieCommit_only ..).keepsOut rfl
  | hstCommit => exact (execHstCommit_only ..).keepsOut rfl
  | commitNoShadow => exact (execCommitNoShadow_only ..).keepsOut rfl
  | scheduledCommitDue => exact (execScheduledCommitDue_only ..).keepsOut rfl
  | sysInfo => exact (execSysInfo_only ..).keepsOut rfl
  | fabricEnable => exact (execFabricEnable_only ..).keepsOut rfl
  | fabricDisable => exact (execFabricDisable_only ..).keepsOut rfl
  | tblSearch => exact (execTblSearch_only ..).keepsOut rfl
  | tblNext => exact (execTblNext_only ..).keepsOut rfl
  | tblInsert => exact (execTblInsert_only ..).keepsOut rfl
  | tblDelete => exact (execTblDelete_only ..).keepsOut rfl
  | tblFlushPort => exact (execTblFlushPort_only ..).keepsOut rfl
  | flushWalkEnd => exact (execFlushWalkEnd_only ..).keepsOut rfl
  | tblRehash => exact (execTblRehash_only ..).keepsOut rfl
  | rehashWalkEnd => exact (execRehashWalkEnd_only ..).keepsOut rfl
  | tblStreamWrite => exact (execTblStreamWrite_only ..).keepsOut rfl
  | tblClearFlap => exact (execTblClearFlap_only ..).keepsOut rfl
  | drainFenceComplete => exact (execDrainFenceComplete_only ..).keepsOut rfl
  | streamEntryRewrite => exact (execStreamEntryRewrite_only ..).keepsOut rfl
  | refAccept => exact (execRefAccept_only ..).keepsOut rfl
  | coreSwitch => exact (execCoreSwitch_only ..).keepsOut rfl
  | coreHealth => exact (execCoreHealth_only ..).keepsOut rfl
  | gnsSnapshot => exact (execGnsSnapshot_only ..).keepsOut rfl
  | snapshotCaptureDone => exact (execSnapshotCaptureDone_only ..).keepsOut rfl
  | evtStats => exact (execEvtStats_only ..).keepsOut rfl
  | calRun => exact (execCalRun_only ..).keepsOut rfl
  | calRunDone => exact (execCalRunDone_only ..).keepsOut rfl
  | lanSlip => exact (execLanSlip_only ..).keepsOut rfl
  | synApply => exact (execSynApply_only ..).keepsOut rfl
  | synApplyDue => exact (execSynApplyDue_only ..).keepsOut rfl
  | bandChangeEnd => exact (execBandChangeEnd_only ..).keepsOut rfl
  | laserSwap => exact (execLaserSwap_only ..).keepsOut rfl
  | laserSwapStart => exact (execLaserSwapStart_only ..).keepsOut rfl
  | spareRouted => exact (execSpareRouted_only ..).keepsOut rfl
  | logKeyPublic => exact (execLogKeyPublic_only ..).keepsOut rfl
  | lifecycleSet => exact (execLifecycleSet_only ..).keepsOut rfl
  | masterRelease => exact (execMasterRelease_only ..).keepsOut rfl
  | hieTunnel => exact (execHieTunnel_only ..).keepsOut rfl
  | hieFanout => exact (execHieFanout_only ..).keepsOut rfl
  | tunnelTimeout => exact (execTunnelTimeout_only ..).keepsOut rfl
  | hieRegistryRead => exact (execHieRegistryRead_only ..).keepsOut rfl
  | shutterEnter => exact (execShutterEnter_only ..).keepsOut rfl
  | shutterLeave => exact (execShutterLeave_only ..).keepsOut rfl
  | stickyClear => exact (execStickyClear_only ..).keepsOut rfl
  | wearGet => exact (execWearGet_only ..).keepsOut rfl
  | faultRead => exact (execFaultRead_only ..).keepsOut rfl
  | obsSnapshot => exact (execObsSnapshot_only ..).keepsOut rfl
  | obsSnapshotDue => exact (execObsSnapshotDue_only ..).keepsOut rfl
  | obsFreeze => exact (execObsFreeze_only ..).keepsOut rfl
  | obsTraceRead => exact (execObsTraceRead_only ..).keepsOut rfl
  | queueCreate => exact (execQueueCreate_only ..).keepsOut rfl
  | queueDestroy => exact (execQueueDestroy_only ..).keepsOut rfl
  | setSecRollover => exact absurd rfl hrollover
  | leapSecond => exact (execLeapSecond_only ..).keepsOut rfl
  | boundUpdate => exact (execBoundUpdate_only ..).keepsOut rfl
  | expressStartTest => exact (execExpressStartTest_only ..).keepsOut rfl
  | frameReceived => exact (execFrameReceived_only ..).keepsOut rfl
  | frameAdmitted => exact (execFrameAdmitted_only ..).keepsOut rfl
  | learnApply => exact (execLearnApply_only ..).keepsOut rfl
  | ageingSweep => exact (execAgeingSweep_only ..).keepsOut rfl
  | settleSweep => exact (execSettleSweep_only ..).keepsOut rfl
  | fabricStep => exact (execFabricStep_only ..).keepsOut rfl
  | lostGap => exact (execLostGap_only ..).keepsOut rfl
  | stepRateMeasure => exact (execStepRateMeasure_only ..).keepsOut rfl
  | paceMargin => exact (execPaceMargin_only ..).keepsOut rfl
  | vcoreMismatch => exact (execVcoreMismatch_only ..).keepsOut rfl
  | drainComplete => exact (execDrainComplete_only ..).keepsOut rfl
  | shutterDrainExpiry => exact (execShutterDrainExpiry_only ..).keepsOut rfl
  | pfcReceived => exact (execPfcReceived_only ..).keepsOut rfl
  | pauseExpiry => exact (execPauseExpiry_only ..).keepsOut rfl
  | pfcRepeat => exact (execPfcRepeat_only ..).keepsOut rfl
  | frameTransmitStart => exact (execFrameTransmitStart_only ..).keepsOut rfl
  | transmitComplete => exact (execTransmitComplete_only ..).keepsOut rfl
  | portLinkDown => exact (execPortLinkDown_only ..).keepsOut rfl
  | copyLaunch => exact (execCopyLaunch_only ..).keepsOut rfl
  | copyAbandon => exact (execCopyAbandon_only ..).keepsOut rfl
  | gateChange => exact (execGateChange_only ..).keepsOut rfl
  | bankSwap => exact (execBankSwap_only ..).keepsOut rfl
  | bankCopyDone => exact (execBankCopyDone_only ..).keepsOut rfl
  | logSeal => exact (execSeal_only ..).keepsOut rfl
  | sealSigned => exact (execSealSigned_only ..).keepsOut rfl
  | spillMove => exact (execSpillMove_only ..).keepsOut rfl
  | keyGenerated => exact (execKeyGenerated_only ..).keepsOut rfl
  | wakeAdmitted => exact (execWakeAdmitted_only ..).keepsOut rfl
  | rampEnd => exact (execRampEnd_only ..).keepsOut rfl
  | powerGood => exact (execPowerGood_only ..).keepsOut rfl
  | cdrLock => exact (execCdrLock_only ..).keepsOut rfl
  | cdrLockLoss => exact (execCdrLockLoss_only ..).keepsOut rfl
  | framing => exact (execFraming_only ..).keepsOut rfl
  | framingLoss => exact (execFramingLoss_only ..).keepsOut rfl
  | realignTimeout => exact (execRealignTimeout_only ..).keepsOut rfl
  | slipStep => exact (execSlipStep_only ..).keepsOut rfl
  | laneCalItemEnd => exact (execLaneCalItemEnd_only ..).keepsOut rfl
  | ctleStep => exact (execCtleStep_only ..).keepsOut rfl
  | laserBiasWarn => exact (execLaserBiasWarn_only ..).keepsOut rfl
  | laserFailed => exact (execLaserFailed_only ..).keepsOut rfl
  | synUnlock => exact (execSynUnlock_only ..).keepsOut rfl
  | tsyncSend => exact (execTsyncSend_only ..).keepsOut rfl
  | tsync => exact (execTsync_only ..).keepsOut rfl
  | tdreq => exact (execTdreq_only ..).keepsOut rfl
  | tdresp => exact (execTdresp_only ..).keepsOut rfl
  | respTimeout => exact (execRespTimeout_only ..).keepsOut rfl
  | tcal => exact (execTcal_only ..).keepsOut rfl
  | ddmtdAverage => exact (execDdmtdAverage_only ..).keepsOut rfl
  | ddmtdSettle => exact (execDdmtdSettle_only ..).keepsOut rfl
  | slipHoldExpiry => exact (execSlipHoldExpiry_only ..).keepsOut rfl
  | ptpSyncSend => exact (execPtpSyncSend_only ..).keepsOut rfl
  | ptpUnicastRequest => exact (execPtpUnicastRequest_only ..).keepsOut rfl
  | delayReq => exact (execDelayReq_only ..).keepsOut rfl
  | grantExpiry => exact (execGrantExpiry_only ..).keepsOut rfl
  | refselChange => exact (execRefselChange_only ..).keepsOut rfl
  | gnsPulse => exact (execGnsPulse_only ..).keepsOut rfl
  | refPpsEdge => exact (execRefPpsEdge_only ..).keepsOut rfl
  | refFreqAbsent => exact (execRefFreqAbsent_only ..).keepsOut rfl
  | activityLost => exact (execActivityLost_only ..).keepsOut rfl
  | monitorReading => exact (execMonitorReading_only ..).keepsOut rfl
  | holdoffExpiry => exact (execHoldoffExpiry_only ..).keepsOut rfl
  | confirmExpiry => exact (execConfirmExpiry_only ..).keepsOut rfl
  | wtrExpiry => exact (execWtrExpiry_only ..).keepsOut rfl
  | pullEnd => exact (execPullEnd_only ..).keepsOut rfl
  | acquireLock => exact absurd rfl (hlock _ _)
  | phWindowEnd => exact (execPhWindowEnd_only ..).keepsOut rfl
  | coreSelfTest => exact (execCoreSelfTest_only ..).keepsOut rfl
  | ckTbEdgeMissing => exact (execCkTbEdgeMissing_only ..).keepsOut rfl
  | switchGapEnd => exact (execSwitchGapEnd_only ..).keepsOut rfl
  | coreRecover => exact (execCoreRecover_only ..).keepsOut rfl
  | crosslockSettle => exact (execCrosslockSettle_only ..).keepsOut rfl
  | coreReturn => exact (execCoreReturn_only ..).keepsOut rfl
  | navWord => exact (execNavWord_only ..).keepsOut rfl
  | antBiasMeasure => exact (execAntBiasMeasure_only ..).keepsOut rfl
  | acqCellFound => exact (execAcqCellFound_only ..).keepsOut rfl
  | channelRelease => exact (execChannelRelease_only ..).keepsOut rfl
  | dutySnapshot => exact (execDutySnapshot_only ..).keepsOut rfl
  | evtEdge => exact (execEvtEdge_only ..).keepsOut rfl
  | codeDensityEnd => exact (execCodeDensityEnd_only ..).keepsOut rfl
  | vernierUnitChange => exact (execVernierUnitChange_only ..).keepsOut rfl
  | calAutoTrigger => exact (execCalAutoTrigger_only ..).keepsOut rfl
  | calItemEnd => exact (execCalItemEnd_only ..).keepsOut rfl
  | tapStep => exact (execTapStep_only ..).keepsOut rfl
  | trimStep => exact (execTrimStep_only ..).keepsOut rfl
  | portResUpdate => exact (execPortResUpdate_only ..).keepsOut rfl
  | arbitrationPoint => exact (execArbitrationPoint_only ..).keepsOut rfl
  | scratchpadRequest => exact (execScratchpadRequest_only ..).keepsOut rfl
  | tamperDetect => exact (execTamperDetect_only ..).keepsOut rfl
  | wipeComplete => exact (execWipeComplete_only ..).keepsOut rfl
  | helloSend => exact (execHelloSend_only ..).keepsOut rfl
  | hello => exact (execHello_only ..).keepsOut rfl
  | helloSilence => exact (execHelloSilence_only ..).keepsOut rfl
  | join => exact (execJoin_only ..).keepsOut rfl
  | joinRetry => exact (execJoinRetry_only ..).keepsOut rfl
  | joinTimeout => exact (execJoinTimeout_only ..).keepsOut rfl
  | joinAck => exact (execJoinAck_only ..).keepsOut rfl
  | leave => exact (execLeave_only ..).keepsOut rfl
  | statusSend => exact (execStatusSend_only ..).keepsOut rfl
  | status => exact (execStatus_only ..).keepsOut rfl
  | clientReport => exact (execClientReport_only ..).keepsOut rfl
  | registryAgeing => exact (execRegistryAgeing_only ..).keepsOut rfl
  | tunnelReq => exact (execTunnelReq_only ..).keepsOut rfl
  | tunnelReply => exact (execTunnelReply_only ..).keepsOut rfl
  | segmentTimeout => exact (execSegmentTimeout_only ..).keepsOut rfl
  | managerLost => exact (execManagerLost_only ..).keepsOut rfl
  | resetNRelease => exact absurd rfl (hrelease _ _)
  | resetNAssert => exact absurd rfl hassert
  | commandChannelReady => exact (execCommandChannelReady_only ..).keepsOut rfl
  | railLoss => exact absurd rfl (hloss _ _)
  | railRestored => exact absurd rfl (hrestored _ _ _ _)
  | dieTemperature => exact (execDieTemperature_only ..).keepsOut rfl
  | watchdogExpiry => exact (execWatchdogExpiry_only ..).keepsOut rfl
  | shutterCauseClear => exact (execShutterCauseClear_only ..).keepsOut rfl
  | shutterEntered => exact (execShutterEntered_only ..).keepsOut rfl
  | shutterLeft => exact (execShutterLeft_only ..).keepsOut rfl
  | keelFrame => exact (execKeelFrame_only ..).keepsOut rfl
  | wearSample => exact (execWearSample_only ..).keepsOut rfl
  | windowFrame => exact (execWindowFrame_only ..).keepsOut rfl
  | doorbell => exact (execDoorbell_only ..).keepsOut rfl
  | hostTxFrame => exact (execHostTxFrame_only ..).keepsOut rfl
  | hostTxWriteback => exact (execHostTxWriteback_only ..).keepsOut rfl
  | hostRxDeliver => exact (execHostRxDeliver_only ..).keepsOut rfl
  | msixInterrupt => exact (execMsixInterrupt_only ..).keepsOut rfl
  | pcieLinkDown => exact (execPcieLinkDown_only ..).keepsOut rfl
  | coreParityError => exact (execCoreParityError_only ..).keepsOut rfl
  | domainPowerGoodLoss => exact absurd rfl (hdomain _)
  | vcoreTransitionEnd => exact (execVcoreTransitionEnd_only ..).keepsOut rfl
  | slicerStep => exact (execSlicerStep_only ..).keepsOut rfl
  | synRelock => exact (execSynRelock_only ..).keepsOut rfl
  | pcieLinkUp => exact (execPcieLinkUp_only ..).keepsOut rfl

/-- Settles O6: every command answers, and the frame of each one that is not excepted leaves the count of the output stage out. -/
theorem moduleTimeMovesOnlyBySteps : Obligations.ModuleTimeMovesOnlyBySteps := by
  unfold Obligations.ModuleTimeMovesOnlyBySteps
  rintro c s ⟨hrollover, hlock, hrelease, hassert, hloss, hrestored, hdomain⟩
  obtain ⟨t, ht⟩ := exec_answers c s
  exact ⟨t, ht, exec_keepsOut s hrollover hlock hrelease hassert hloss hrestored hdomain t ht⟩

end Sys2Proof.Machine
end

section
/-! ## Timebase: the steps of module time, the leap second and the bound (R57, R58, R65, R68, R69, R148) -/

namespace Sys2Proof.Machine

/-! ### A step of module time (R57) -/

/-- The three counts set. -/
def State.setCounts (s : State) (t : TimeCount) : State :=
  { s with time := { s.time with
    out := t, coreA := { s.time.coreA with count := t }, coreB := { s.time.coreB with count := t } } }

/-- Beside the counts a step moves what hangs on module time, and dates an announced leap second again. -/
theorem State.stepTime_eq (s : State) (t : TimeCount) :
    ∃ u, Only (some [F.lock, F.quay, F.servo, P.REF_PHASE]) (s.setCounts t) u ∧ s.stepTime t = u.armLeap := by
  refine ⟨_, ?_, rfl⟩
  refine Only.step (Only.fold _ _ (fun u r => ?_) ?_) (State.lateSwaps_only ..) rfl
  · exact Only.cond _ ((Only.refl _ _).wrS rfl _ _ _) (Only.refl _ _)
  · exact ((Only.refl _ (s.setCounts t)).step (State.setQuay_only ..) rfl).step (State.setServo_only ..) rfl

theorem State.stepTime_time (s : State) (t : TimeCount) : ∃ leapAt, (s.stepTime t).time = { (s.setCounts t).time with leapAt := leapAt } := by
  obtain ⟨u, hframe, hstep⟩ := s.stepTime_eq t
  rw [hstep, ← hframe.time rfl]
  exact ⟨_, rfl⟩

section
variable {s : State}

/-! ### The pending set of the seconds (R57) -/

/-- The pending set is taken from the state. -/
def State.unset (s : State) : State := { s with time := { s.time with setPending := none } }

theorem exec_setSecRollover {sec : Nat} (hset : s.time.setPending = some sec) (hsec : s.time.out.sec ≠ s.time.setFrom) :
    exec .setSecRollover s =
      .next (if s.rd P.REF_TSTATE = 0 then s.unset.stepTime ⟨sec, s.time.out.nano⟩ else s.unset) := by
  show execSetSecRollover s = _
  unfold execSetSecRollover
  simp only [hset, if_neg hsec]
  rfl

theorem exec_setSecRollover_waits (h : s.time.setPending = none ∨ s.time.out.sec = s.time.setFrom) :
    exec .setSecRollover s = .next s := by
  show execSetSecRollover s = _
  unfold execSetSecRollover
  split
  · rfl
  · next hset => exact if_pos (h.resolve_left (by simp [hset]))

/-! ### The first lock in ACQUIRE (R57, R148) -/

@[simp] theorem State.put_tstate (s : State) (ts a : Nat) : (s.put ts a).rd P.REF_TSTATE = ts := by
  unfold State.put
  rw [State.rd_wr_base _ (by decide), State.rd_wr_base _ (by decide), State.rd_wr_self]

@[simp] theorem State.put_active (s : State) (ts a : Nat) : (s.put ts a).rd P.REF_ACTIVE = a := by
  unfold State.put
  rw [State.rd_wr_base _ (by decide), State.rd_wr_self]

theorem State.toLocked_tstate (s : State) : s.toLocked.rd P.REF_TSTATE = 2 := by
  unfold State.toLocked
  rw [State.setServo_rd, (State.alignM_only _).rd _ _ (by decide) rfl, State.put_tstate]

theorem State.toLocked_active (s : State) : s.toLocked.rd P.REF_ACTIVE = s.rd P.REF_ACTIVE := by
  unfold State.toLocked
  rw [State.setServo_rd, (State.alignM_only _).rd _ _ (by decide) rfl, State.put_active]

theorem State.toUntraceable_tstate (s : State) (r : Nat) : (s.toUntraceable r).rd P.REF_TSTATE = 6 := by
  unfold State.toUntraceable
  rw [State.setServo_rd, State.put_tstate]

section
variable (sec : BitVec 48) (nano : Fin 1000000000)

theorem exec_acquireLock_time (hts : s.rd P.REF_TSTATE = 1) (hsince : s.servo.acqSince + 10000000000 ≤ s.clock)
    (hkind : s.rd P.REF_KIND (s.rd P.REF_ACTIVE) = 1) : exec (.acquireLock sec nano) s =
      .next ((((s.stepTime ⟨sec.toNat, nano.val⟩).wr P.REF_TIME_SET 0 1).toLocked).conclude s 12) :=
  (if_pos ⟨hts, hsince⟩).trans (if_pos hkind)

theorem exec_acquireLock_frequency (hts : s.rd P.REF_TSTATE = 1) (hsince : s.servo.acqSince + 10000000000 ≤ s.clock)
    (hkind : s.rd P.REF_KIND (s.rd P.REF_ACTIVE) ≠ 1) : exec (.acquireLock sec nano) s =
      .next ((s.toUntraceable (s.rd P.REF_ACTIVE)).conclude s 12) :=
  (if_pos ⟨hts, hsince⟩).trans (if_neg hkind)

theorem exec_acquireLock_waits (h : s.rd P.REF_TSTATE ≠ 1 ∨ s.clock < s.servo.acqSince + 10000000000) :
    exec (.acquireLock sec nano) s = .next s := if_neg (by omega)

end

/-! ### The leap second (R58) -/

/-- The UTC offset moved by the leap second that TBS_LEAP announces, and the announcement cleared. -/
def State.leapMoved (s : State) : State :=
  (s.wrBoth P.TBS_UTC_OFFSET 0 (raw 16 (s.rdS 16 P.TBS_UTC_OFFSET +
    if s.rd P.TBS_LEAP = 1 then 1 else if s.rd P.TBS_LEAP = 2 then -1 else 0))).wrBoth P.TBS_LEAP 0 0

theorem State.leapMoved_leap (s : State) : s.leapMoved.rd P.TBS_LEAP = 0 := by
  unfold State.leapMoved
  rw [State.rd_wrBoth, if_pos ⟨rfl, rfl⟩]

theorem State.leapMoved_offset (s : State) : s.leapMoved.rd P.TBS_UTC_OFFSET = raw 16 (s.rdS 16 P.TBS_UTC_OFFSET +
    if s.rd P.TBS_LEAP = 1 then 1 else if s.rd P.TBS_LEAP = 2 then -1 else 0) := by
  unfold State.leapMoved
  rw [State.rd_wrBoth, if_neg (by decide), State.rd_wrBoth, if_pos ⟨rfl, rfl⟩]

theorem exec_leapSecond {l : Nat} (hleap : s.time.leapAt = some l) (hsec : l ≤ s.time.out.sec) :
    exec .leapSecond s = .next { s.leapMoved with time := { s.leapMoved.time with leapAt := none } } := by
  show execLeapSecond s = _
  unfold execLeapSecond
  simp only [hleap, if_neg (Nat.not_lt.mpr hsec)]
  rfl

theorem exec_leapSecond_waits (h : ∀ l, s.time.leapAt = some l → s.time.out.sec < l) : exec .leapSecond s = .next s := by
  show execLeapSecond s = _
  unfold execLeapSecond
  split
  · rfl
  · next l hleap => exact if_pos (h l hleap)

/-! ### The bound published (R68, R69) -/

theorem State.bMod_locked (hts : s.rd P.REF_TSTATE = 2) (hb : s.rd P.REF_BREF (s.rd P.REF_ACTIVE) ≠ noBound) (t : Nat) :
    s.bMod t = some (s.rd P.REF_BREF (s.rd P.REF_ACTIVE)) := by
  unfold State.bMod
  simp only [hts, if_neg hb]

theorem State.bMod_none (hts : s.rd P.REF_TSTATE ∈ [0, 1, 6, 7]) (t : Nat) : s.bMod t = none := by
  simp only [List.mem_cons, List.not_mem_nil, or_false] at hts
  unfold State.bMod
  rcases hts with h | h | h | h <;> simp only [h]

theorem State.bMod_holdover (hts : s.rd P.REF_TSTATE = 4 ∨ s.rd P.REF_TSTATE = 5) (t : Nat) :
    s.bMod t = s.servo.frozen.map fun b => b + s.servo.growth t := by
  unfold State.bMod
  rcases hts with h | h <;> simp only [h]

theorem State.refreshBound_some {b : Nat} (h : s.bMod (s.clock + 1000000) = some b) :
    s.refreshBound.rd P.TBS_BOUND_PS = clampU 32 b ∧ s.refreshBound.rd P.TBS_BOUND_NOW = boundCode b := by
  unfold State.refreshBound
  rw [h]
  dsimp only
  split
  · rw [State.setServo_rd, State.setServo_rd, State.rd_wr_base _ (by decide), State.rd_wr_self, State.rd_wr_self]
    exact ⟨rfl, rfl⟩
  · rw [State.rd_wr_base _ (by decide), State.rd_wr_self, State.rd_wr_self]
    exact ⟨rfl, rfl⟩

theorem State.refreshBound_none (h : s.bMod (s.clock + 1000000) = none) :
    s.refreshBound.rd P.TBS_BOUND_PS = noBound ∧ s.refreshBound.rd P.TBS_BOUND_NOW = 255 := by
  unfold State.refreshBound
  rw [h]
  exact ⟨(State.rd_wr_base _ (by decide) ..).trans (State.rd_wr_self ..), State.rd_wr_self ..⟩

/-- Outside a pull no bound is kept in the servo. -/
theorem State.refreshBound_servo (hts : s.rd P.REF_TSTATE ≠ 3) : s.refreshBound.servo = s.servo := by
  unfold State.refreshBound
  split
  · rfl
  · dsimp only
    rw [if_neg hts]
    rfl

/-- The steering has no part in the bound. -/
theorem State.steerNow_servo (s : State) :
    s.steerNow.servo.frozen = s.servo.frozen ∧ s.steerNow.servo.growth = s.servo.growth := by
  unfold State.steerNow
  split <;> exact ⟨rfl, rfl⟩

/-- The servo with the oven's present deviation (R69). -/
def State.warmed (s : State) (dev : Int) : State :=
  s.setServo fun v => { v with dT := max v.dT dev.natAbs, ovenDev := dev }

/-- What BOUND_UPDATE does before it looks at the limit. -/
def State.rebound (s : State) (dev : Int) : State := (s.warmed dev).refreshBound.steerNow

/-- HOLDOVER becomes HOLDOVER_LATE (R148). -/
def State.late (s : State) : State := (s.wr P.REF_TSTATE 0 5).orIn P.REF_FLAGS 0 32

section
variable (dev : Int)

theorem State.rebound_only (s : State) : Only (some [F.servo, P.TBS_BOUND_NOW, P.TBS_BOUND_PS]) s (s.rebound dev) :=
  (((Only.refl _ s).step (State.setServo_only ..) rfl).step (State.refreshBound_only _) rfl).step (State.steerNow_only _) rfl

theorem State.rebound_some {b : Nat} (h : (s.warmed dev).bMod (s.clock + 1000000) = some b) :
    (s.rebound dev).rd P.TBS_BOUND_PS = clampU 32 b ∧ (s.rebound dev).rd P.TBS_BOUND_NOW = boundCode b := by
  have hsteer := State.steerNow_only (s.warmed dev).refreshBound
  exact ⟨(hsteer.rd _ _ (by decide) rfl).trans (State.refreshBound_some h).1,
    (hsteer.rd _ _ (by decide) rfl).trans (State.refreshBound_some h).2⟩

theorem State.rebound_none (h : (s.warmed dev).bMod (s.clock + 1000000) = none) :
    (s.rebound dev).rd P.TBS_BOUND_PS = noBound ∧ (s.rebound dev).rd P.TBS_BOUND_NOW = 255 := by
  have hsteer := State.steerNow_only (s.warmed dev).refreshBound
  exact ⟨(hsteer.rd _ _ (by decide) rfl).trans (State.refreshBound_none h).1,
    (hsteer.rd _ _ (by decide) rfl).trans (State.refreshBound_none h).2⟩

theorem exec_boundUpdate (h : ¬ (s.rd P.REF_TSTATE = 4 ∧
    overLimit ((s.rebound dev).rd P.TBS_BOUND_NOW) (s.rd P.TBS_BOUND_LIMIT) = true)) :
    exec (.boundUpdate dev) s = .next (s.rebound dev) := by
  have hframe := s.rebound_only dev
  refine if_neg (c := (s.rebound dev).rd P.REF_TSTATE = 4 ∧ overLimit ((s.rebound dev).rd P.TBS_BOUND_NOW)
    ((s.rebound dev).rd P.TBS_BOUND_LIMIT) = true) ?_
  rwa [hframe.rd P.REF_TSTATE _ (by decide) rfl, hframe.rd P.TBS_BOUND_LIMIT _ (by decide) rfl]

theorem exec_boundUpdate_late (hts : s.rd P.REF_TSTATE = 4)
    (hlimit : overLimit ((s.rebound dev).rd P.TBS_BOUND_NOW) (s.rd P.TBS_BOUND_LIMIT) = true) :
    exec (.boundUpdate dev) s =
      .next (((s.rebound dev).late.followSelection (s.rebound dev).clock).conclude (s.rebound dev) 11) := by
  have hframe := s.rebound_only dev
  refine if_pos (c := (s.rebound dev).rd P.REF_TSTATE = 4 ∧ overLimit ((s.rebound dev).rd P.TBS_BOUND_NOW)
    ((s.rebound dev).rd P.TBS_BOUND_LIMIT) = true) ?_
  rw [hframe.rd P.REF_TSTATE _ (by decide) rfl, hframe.rd P.TBS_BOUND_LIMIT _ (by decide) rfl]
  exact ⟨hts, hlimit⟩

end

/-! ### A module in holdover with nothing to follow (R138, R139) -/

theorem State.selected_none (h : ∀ r, r < 7 → s.qualified r = false) : s.selected = none := by
  have hauto : (List.range 7).filter s.autoCandidate = [] := by
    rw [List.filter_eq_nil_iff]
    intro r hr
    simp [State.autoCandidate, h r (List.mem_range.mp hr)]
  have hpins : s.qualified (s.rd P.REF_PINS) = false := by
    by_cases hr : s.rd P.REF_PINS < 7
    · exact h _ hr
    · simp [State.qualified, hr]
  unfold State.selected State.autoChoice
  rw [hauto, hpins]
  split <;> rfl

theorem State.followSelection_late (hts : s.rd P.REF_TSTATE = 5) (hsel : s.selected = none) (lost : Nat) :
    s.followSelection lost = s := by
  unfold State.followSelection
  simp only [hts, hsel]

/-- What a change of TSTATE touches once the bound is recomputed. -/
def eventFrame : List Nat :=
  [F.cmd, F.fault, F.rings, F.servo, P.CMD_NOTICE_DROP, P.HLT_FAULT_COUNT, P.HLT_STICKY, P.REF_FLAGS,
    P.REF_SWLOG_HEAD, P.REF_SWLOG_INFO, P.REF_SWLOG_TIME]

theorem State.conclude_refreshed {before : State} (hts : before.rd P.REF_TSTATE ≠ s.rd P.REF_TSTATE) (cause : Nat) :
    Only (some eventFrame) s.refreshBound (s.conclude before cause) := by
  unfold State.conclude
  extract_lets ts0 a0 ts a bounded dated steered timed dropped stopped faulted again
  rw [if_neg fun h => hts h.1]
  have hdated : Only (some eventFrame) s.refreshBound dated := .cond _ ((Only.refl _ _).step (State.setServo_only ..) rfl) (.refl _ _)
  have hsteered := hdated.step (State.steerNow_only dated) rfl
  have htimed : Only (some eventFrame) s.refreshBound timed := .cond _ (hsteered.step (State.setServo_only ..) rfl) hsteered
  have hdropped : Only (some eventFrame) s.refreshBound dropped := .cond _ (htimed.orIn rfl _ _) htimed
  have hstopped : Only (some eventFrame) s.refreshBound stopped := .cond _ hdropped (hdropped.step (State.setServo_only ..) rfl)
  have hfaulted : Only (some eventFrame) s.refreshBound faulted := .cond _ (hstopped.step (State.sticky_only ..) rfl) hstopped
  split
  · exact hfaulted.step (State.gather_only ..) rfl
  · exact hfaulted.step (State.switchEvent_only ..) rfl

/-- After a change of TSTATE the bound that the new state has is published. -/
theorem State.conclude_bound {before : State} {b : Nat} (hts : before.rd P.REF_TSTATE ≠ s.rd P.REF_TSTATE)
    (hb : s.bMod (s.clock + 1000000) = some b) (cause : Nat) :
    (s.conclude before cause).rd P.TBS_BOUND_PS = clampU 32 b ∧ (s.conclude before cause).rd P.TBS_BOUND_NOW = boundCode b := by
  have hframe := State.conclude_refreshed hts cause
  exact ⟨(hframe.rd _ _ (by decide) rfl).trans (State.refreshBound_some hb).1,
    (hframe.rd _ _ (by decide) rfl).trans (State.refreshBound_some hb).2⟩

theorem State.late_tstate (s : State) : s.late.rd P.REF_TSTATE = 5 := by
  unfold State.late State.orIn
  rw [State.rd_wr_base _ (by decide), State.rd_wr_self]

theorem State.late_only (s : State) : Only (some [P.REF_FLAGS, P.REF_TSTATE]) s s.late :=
  ((Only.refl _ s).wr rfl _ _).orIn rfl _ _

section
variable (dev : Int) (hts : s.rd P.REF_TSTATE = 4)
include hts

theorem State.warmed_bMod {b : Nat} (hfrozen : s.servo.frozen = some b) (t : Nat) :
    (s.warmed dev).bMod t = some (b + Servo.growth { s.servo with dT := max s.servo.dT dev.natAbs } t) := by
  have hwarm : (s.warmed dev).servo.frozen = some b := hfrozen
  rw [State.bMod_holdover (s := s.warmed dev) (.inl hts), hwarm]
  rfl

/-- HOLDOVER_LATE has the bound that HOLDOVER had. -/
theorem State.late_bMod (t : Nat) : (s.rebound dev).late.bMod t = (s.warmed dev).bMod t := by
  obtain ⟨hfrozen, hgrowth⟩ := (s.warmed dev).refreshBound.steerNow_servo
  have hpull : (s.warmed dev).rd P.REF_TSTATE ≠ 3 := fun h => absurd (hts.symm.trans h) (by decide)
  rw [State.refreshBound_servo hpull] at hfrozen hgrowth
  rw [State.bMod_holdover (.inr (State.late_tstate _)), State.bMod_holdover (s := s.warmed dev) (.inl hts), ← hfrozen, ← hgrowth]
  rfl

/-- Beyond the limit with nothing to follow, the module is late in its holdover and goes on with the bound that it has. -/
theorem State.late_concluded {b : Nat} (hq : ∀ r, r < 7 → s.qualified r = false)
    (hb : (s.warmed dev).bMod (s.clock + 1000000) = some b)
    (hlimit : overLimit (boundCode b) (s.rd P.TBS_BOUND_LIMIT) = true) :
    ∃ t : State, exec (.boundUpdate dev) s = .next t ∧ t.rd P.TBS_BOUND_PS = clampU 32 b ∧
      t.rd P.TBS_BOUND_NOW = boundCode b ∧ t.rd P.REF_TSTATE = 5 := by
  have hrebound := s.rebound_only dev
  have hlate := (hrebound.mono (W := some [F.servo, P.REF_FLAGS, P.REF_TSTATE, P.TBS_BOUND_NOW, P.TBS_BOUND_PS]) rfl).step
    (State.late_only _) rfl
  have htstate : (s.rebound dev).rd P.REF_TSTATE = 4 := (hrebound.rd _ _ (by decide) rfl).trans hts
  have hunqualified : ∀ r, r < 7 → (s.rebound dev).late.qualified r = false := fun r hr => by
    have hstate : (s.rebound dev).late.qstate r = s.qstate r := hlate.rd _ _ (by decide) rfl
    have hsame := hq r hr
    unfold State.qualified at hsame ⊢
    rwa [hstate]
  have hexec := exec_boundUpdate_late dev hts (by rw [(State.rebound_some dev hb).2]; exact hlimit)
  rw [State.followSelection_late (State.late_tstate _) (State.selected_none hunqualified)] at hexec
  have hchanged : (s.rebound dev).rd P.REF_TSTATE ≠ (s.rebound dev).late.rd P.REF_TSTATE := by
    rw [htstate, State.late_tstate]; decide
  have hlateBound : (s.rebound dev).late.bMod ((s.rebound dev).late.clock + 1000000) = some b := by
    rw [hlate.keeps.clock, State.late_bMod dev hts]; exact hb
  obtain ⟨hps, hnow⟩ := State.conclude_bound hchanged hlateBound 11
  exact ⟨_, hexec, hps, hnow, ((State.conclude_only ..).rd _ _ (by decide) rfl).trans (State.late_tstate _)⟩

end

/-! ### The bound code (R65) -/

theorem boundCode_least {b : Nat} (h : b < 2 ^ 31) : b ^ 8 ≤ 2 ^ boundCode b ∧ ∀ c, b ^ 8 ≤ 2 ^ c → boundCode b ≤ c := by
  unfold boundCode
  split
  · next hb =>
    have hone : b ^ 8 ≤ 1 ^ 8 := Nat.pow_le_pow_left hb 8
    exact ⟨by simpa using hone, fun c _ => Nat.zero_le c⟩
  · next hb =>
    have hpow : b ^ 8 < 2 ^ 248 := (Nat.pow_lt_pow_left h (by decide)).trans_eq (by norm_num)
    have hlow : 2 ≤ b ^ 8 := (by omega : 2 ≤ b).trans (Nat.le_self_pow (by decide) b)
    have hlog : (b ^ 8 - 1).log2 < 248 := (Nat.log2_lt (by omega)).mpr (by omega)
    have hself : b ^ 8 - 1 < 2 ^ ((b ^ 8 - 1).log2 + 1) := Nat.lt_log2_self
    rw [if_pos (by omega)]
    refine ⟨by omega, fun c hc => ?_⟩
    have hlt : (b ^ 8 - 1).log2 < c := (Nat.log2_lt (by omega)).mpr (by omega)
    exact hlt

end

/-- Settles O39: the steps by what they make of the timing plane, a bound update by the bound of the TSTATE in which it comes. -/
theorem moduleTimeStepsAndBounds : Obligations.ModuleTimeStepsAndBounds := by
  unfold Obligations.ModuleTimeStepsAndBounds
  refine ⟨?_, ?_, fun s => exec_setSecRollover_waits, ?_, ?_, fun sec nano s => exec_acquireLock_waits sec nano, ?_,
    fun s => exec_leapSecond_waits, ?_, ?_, ?_, ?_⟩
  · intro s sec hset hsec hts
    have hexec := exec_setSecRollover hset hsec
    rw [if_pos hts] at hexec
    obtain ⟨leapAt, htime⟩ := s.unset.stepTime_time ⟨sec, s.time.out.nano⟩
    refine ⟨_, hexec, ?_, ?_, ?_, ?_, (execSetSecRollover_only s).next _ hexec⟩
    all_goals rw [htime]; rfl
  · intro s sec hset hsec hts
    have hexec := exec_setSecRollover hset hsec
    rw [if_neg hts] at hexec
    exact ⟨_, hexec, rfl, (Only.refl _ s).set_time rfl _ rfl⟩
  · intro sec nano s hts hsince hkind
    have hexec := exec_acquireLock_time sec nano hts hsince hkind
    have hframe := (execAcquireLock_only sec nano s).next _ hexec
    obtain ⟨leapAt, htime⟩ := s.stepTime_time ⟨sec.toNat, nano.val⟩
    have hstep := s.stepTime_only ⟨sec.toNat, nano.val⟩
    generalize s.stepTime ⟨sec.toNat, nano.val⟩ = u at *
    have hlocked := (u.wr P.REF_TIME_SET 0 1).toLocked_only
    have hconclude := (u.wr P.REF_TIME_SET 0 1).toLocked.conclude_only s 12
    have hsame : (((u.wr P.REF_TIME_SET 0 1).toLocked).conclude s 12).time = u.time :=
      (hconclude.time rfl).trans (hlocked.time rfl)
    refine ⟨_, hexec, ?_, ?_, ?_, ?_, ?_, ?_, hframe⟩
    · rw [hsame, htime]; rfl
    · rw [hsame, htime]; rfl
    · rw [hsame, htime]; rfl
    · rw [hconclude.rd _ _ (by decide) rfl, hlocked.rd _ _ (by decide) rfl, State.rd_wr_self]
    · rw [hconclude.rd _ _ (by decide) rfl, State.toLocked_tstate]
    · rw [hconclude.rd _ _ (by decide) rfl, State.toLocked_active, State.rd_wr_base _ (by decide), hstep.rd _ _ (by decide) rfl]
  · intro sec nano s hts hsince hkind
    have hexec := exec_acquireLock_frequency sec nano hts hsince hkind
    have huntraceable := s.toUntraceable_only (s.rd P.REF_ACTIVE)
    have hconclude := (s.toUntraceable (s.rd P.REF_ACTIVE)).conclude_only s 12
    refine ⟨_, hexec, (hconclude.time rfl).trans (huntraceable.time rfl), ?_, ?_, (execAcquireLock_only sec nano s).next _ hexec⟩
    · rw [hconclude.rd _ _ (by decide) rfl, State.toUntraceable_tstate]
    · rw [hconclude.rd _ _ (by decide) rfl, huntraceable.rd _ _ (by decide) rfl]
  · intro s l hleap hsec
    have hexec := exec_leapSecond hleap hsec
    exact ⟨_, hexec, s.leapMoved_leap, rfl, s.leapMoved_offset, (execLeapSecond_only s).next _ hexec⟩
  · intro dev s hts hbref
    have hexec := exec_boundUpdate dev (s := s) (by rw [hts]; exact fun h => absurd h.1 (by decide))
    obtain ⟨hps, hnow⟩ := State.rebound_some dev (State.bMod_locked (s := s.warmed dev) hts hbref _)
    exact ⟨_, hexec, hps, hnow, ((s.rebound_only dev).rd _ _ (by decide) rfl).trans hts, (execBoundUpdate_only dev s).next _ hexec⟩
  · intro dev s hts
    have hexec := exec_boundUpdate dev (s := s) fun h => absurd (h.1 ▸ hts) (by decide)
    obtain ⟨hps, hnow⟩ := State.rebound_none dev (State.bMod_none (s := s.warmed dev) hts _)
    exact ⟨_, hexec, hps, hnow, (s.rebound_only dev).rd _ _ (by decide) rfl, (execBoundUpdate_only dev s).next _ hexec⟩
  · rintro dev s b _ hts hfrozen hq rfl
    have hb := State.warmed_bMod dev hts hfrozen (s.clock + 1000000)
    by_cases hlimit : overLimit (boundCode (b + Servo.growth { s.servo with dT := max s.servo.dT dev.natAbs } (s.clock + 1000000)))
        (s.rd P.TBS_BOUND_LIMIT) = true
    · obtain ⟨t, hexec, hps, hnow, htstate⟩ := State.late_concluded dev hts hq hb hlimit
      exact ⟨t, hexec, hps, hnow, by rw [htstate, if_pos hlimit], (execBoundUpdate_only dev s).next _ hexec⟩
    · obtain ⟨hps, hnow⟩ := State.rebound_some dev hb
      have hexec := exec_boundUpdate dev (s := s) fun h => hlimit (by rw [← hnow]; exact h.2)
      refine ⟨_, hexec, hps, hnow, ?_, (execBoundUpdate_only dev s).next _ hexec⟩
      rw [(s.rebound_only dev).rd _ _ (by decide) rfl, hts, if_neg hlimit]
  · exact fun b c hb => ⟨(boundCode_least hb).1, (boundCode_least hb).2 c⟩

end Sys2Proof.Machine
end

section
/-! ## Locked links: bits, link records and what a stamp is made of (R60 to R66, R96 to R109)

The rules of the state's operations that the messages of a port, its DDMTD and the IEEE 1588 service share. -/

namespace Sys2Proof.Machine

/-! ### Bits and signed fields -/

theorem clrBit_testBit_self (i v : Nat) : (clrBit i v).testBit i = false := by
  unfold clrBit
  split
  · next h =>
    have hv := Nat.testBit_two_pow_add_eq (v - 2 ^ i) i
    rw [Nat.add_sub_cancel' (Nat.ge_two_pow_of_testBit h), h] at hv
    simpa using hv.symm
  · next h => simpa using h

theorem clrBit_testBit_below {i j : Nat} (hj : j < i) (v : Nat) : (clrBit i v).testBit j = v.testBit j := by
  unfold clrBit
  split
  · next h =>
    have hv := Nat.testBit_two_pow_add_gt hj (v - 2 ^ i)
    rwa [Nat.add_sub_cancel' (Nat.ge_two_pow_of_testBit h), eq_comm] at hv
  · rfl

@[simp] theorem putBit_testBit_self (i v : Nat) (b : Bool) : (putBit i b v).testBit i = b := by
  cases b
  · exact clrBit_testBit_self i v
  · show (v ||| 2 ^ i).testBit i = true
    rw [Nat.testBit_or, Nat.testBit_two_pow_self, Bool.or_true]

theorem putBit_testBit_below {i j : Nat} (hj : j < i) (b : Bool) (v : Nat) : (putBit i b v).testBit j = v.testBit j := by
  cases b
  · exact clrBit_testBit_below hj v
  · show (v ||| 2 ^ i).testBit j = v.testBit j
    rw [Nat.testBit_or, Nat.testBit_two_pow_of_ne hj.ne', Bool.or_false]

/-- A signed field of `w` bits reads as the integer that it was given, held to the field (R509). -/
theorem sgn_raw_clampS {w : Nat} (hw : 0 < w) (x : Int) : sgn w (raw w (clampS w x)) = clampS w x := by
  have hpow : 2 ^ w = 2 * 2 ^ (w - 1) := by rw [← pow_succ', Nat.sub_add_cancel hw]
  have hpos : 0 < 2 ^ (w - 1) := Nat.two_pow_pos _
  have hrange : -(2 ^ (w - 1) : Nat) ≤ clampS w x ∧ clampS w x < (2 ^ (w - 1) : Nat) := by unfold clampS; omega
  generalize clampS w x = y at hrange
  unfold sgn raw
  rw [hpow]
  generalize 2 ^ (w - 1) = h at hpos hrange
  rcases Int.lt_or_le y 0 with hy | hy
  · have hmod : y % (2 * h : Nat) = y + (2 * h : Nat) := by
      rw [← Int.add_emod_right, Int.emod_eq_of_lt (by omega) (by omega)]
    rw [hmod, if_neg (by omega)]
    omega
  · rw [Int.emod_eq_of_lt hy (by omega), if_pos (by omega)]
    omega

theorem State.rdS_wrS (s : State) {w : Nat} (hw : 0 < w) (b i : Nat) (v : Int) : (s.wrS w b i v).rdS w b i = clampS w v := by
  unfold State.rdS State.wrS
  rw [State.rd_wr_self, sgn_raw_clampS hw]

/-! ### The link record of a port -/

section
variable (s : State) (p : Nat) (f : Link → Link)

theorem State.setLink_eq : ∃ ls, s.setLink p f = { s with links := ls } := by
  unfold State.setLink
  split <;> exact ⟨_, rfl⟩

@[simp] theorem State.setLink_rd (b i : Nat) : (s.setLink p f).rd b i = s.rd b i := by
  obtain ⟨ls, h⟩ := s.setLink_eq p f
  rw [h]; rfl

@[simp] theorem State.setLink_out : (s.setLink p f).out = s.out := by
  obtain ⟨ls, h⟩ := s.setLink_eq p f
  rw [h]

@[simp] theorem State.setLink_clock : (s.setLink p f).clock = s.clock := by
  obtain ⟨ls, h⟩ := s.setLink_eq p f
  rw [h]

@[simp] theorem State.setLink_cal : (s.setLink p f).cal = s.cal := by
  obtain ⟨ls, h⟩ := s.setLink_eq p f
  rw [h]

/-- The record of a port that is changed reads as it was changed to. -/
@[simp] theorem State.link_setLink (hf : ∀ l : Link, (f l).port = l.port) : (s.setLink p f).link p = f (s.link p) := by
  unfold State.setLink State.link
  split
  · next h =>
    obtain ⟨l, hl⟩ := Option.isSome_iff_exists.mp h
    rw [findBy_updBy _ _ _ hf, hl]
    rfl
  · next h =>
    have hnone : findBy Link.port p s.links = none := by simpa using h
    have hnew : findBy Link.port p [f (Link.blank p)] = some (f (Link.blank p)) := by
      simp [findBy, hf, Link.blank]
    unfold findBy at hnone hnew ⊢
    rw [List.find?_append, hnone, hnew]
    rfl

end

/-- The record of a port depends on the list of records only. -/
theorem State.link_congr {s t : State} (h : t.links = s.links) (p : Nat) : t.link p = s.link p := by
  unfold State.link; rw [h]

theorem Only.link {W : Option (List Nat)} {s t : State} (h : Only W s t) (hw : allows W F.links = false) (p : Nat) :
    t.link p = s.link p := State.link_congr (h.links hw) p

@[simp] theorem State.link_wr (s : State) (b i v p : Nat) : (s.wr b i v).link p = s.link p := rfl

/-! ### A frame that is stamped: nothing but the count of over-limit stamps -/

section
variable (s : State) (p : Nat)

theorem State.stamped_eq : ∃ regs, s.stamped p = { s with regs := regs } := by
  unfold State.stamped
  split
  · rw [State.count_plain _ _ (by decide)]; exact ⟨_, rfl⟩
  · exact ⟨_, rfl⟩

@[simp] theorem State.stamped_rd {b : Nat} (hb : b ≠ P.TBS_OVER_LIMIT_COUNT) (i : Nat) : (s.stamped p).rd b i = s.rd b i := by
  unfold State.stamped
  split
  · exact State.rd_count_plain _ _ _ _ (by decide) hb
  · rfl

@[simp] theorem State.stamped_link (q : Nat) : (s.stamped p).link q = s.link q :=
  State.link_congr ((s.stamped_only p).links rfl) q

@[simp] theorem State.stamped_clock : (s.stamped p).clock = s.clock := (s.stamped_only p).keeps.clock
@[simp] theorem State.stamped_time : (s.stamped p).time = s.time := (s.stamped_only p).time rfl
@[simp] theorem State.stamped_cal : (s.stamped p).cal = s.cal := (s.stamped_only p).cal rfl
@[simp] theorem State.stamped_grants : (s.stamped p).grants = s.grants := (s.stamped_only p).grants rfl
@[simp] theorem State.stamped_ptpSeq : (s.stamped p).ptpSeq = s.ptpSeq := (s.stamped_only p).ptpSeq rfl
@[simp] theorem State.stamped_linkRun : (s.stamped p).linkRun = s.linkRun := (s.stamped_only p).linkRun rfl

@[simp] theorem State.stamped_out : (s.stamped p).out = s.out := by
  obtain ⟨regs, h⟩ := s.stamped_eq p
  rw [h]

@[simp] theorem State.stamped_portMac (q : Nat) : (s.stamped p).portMac q = s.portMac q := by
  unfold State.portMac; rw [State.stamped_rd _ _ (by decide)]

@[simp] theorem State.stamped_lockedPort (q : Nat) : (s.stamped p).lockedPort q = s.lockedPort q := by
  unfold State.lockedPort; rw [State.stamped_rd _ _ (by decide)]

@[simp] theorem State.stamped_bPort (q : Nat) : (s.stamped p).bPort q = s.bPort q := by
  simp (disch := decide) [State.bPort]

@[simp] theorem State.stamped_bEvt (q : Nat) : (s.stamped p).bEvt q = s.bEvt q := by
  simp (disch := decide) [State.bEvt]

@[simp] theorem State.stamped_stampCode (bPort bEvt : Nat) : (s.stamped p).stampCode bPort bEvt = s.stampCode bPort bEvt := by
  unfold State.stampCode State.bSw State.inGap
  rw [State.stamped_rd _ _ (by decide), State.stamped_rd _ _ (by decide), State.stamped_time]

@[simp] theorem State.stamped_stampOf (t : Int) (bPort bEvt : Nat) (free : Bool) :
    (s.stamped p).stampOf t bPort bEvt free = s.stampOf t bPort bEvt free := by
  simp (disch := decide) [State.stampOf, State.stampFlags, State.inGap]

@[simp] theorem State.stamped_rxTime (q : Nat) (r : RawStamp) : (s.stamped p).rxTime q r = s.rxTime q r := by
  simp (disch := decide) [State.rxTime, State.rxEdge, State.ddmtdRuns, State.rateOf, State.rdb]

@[simp] theorem State.stamped_txTime (q : Nat) (r : RawStamp) : (s.stamped p).txTime q r = s.txTime q r := by
  simp (disch := decide) [State.txTime, State.txEdge, State.ddmtdRuns, State.rateOf, State.rdb]

@[simp] theorem State.stamped_rxMark (q : Nat) (r : RawStamp) : (s.stamped p).rxMark q r = s.rxMark q r := by
  simp [State.rxMark]

@[simp] theorem State.stamped_txMark (q : Nat) (r : RawStamp) : (s.stamped p).txMark q r = s.txMark q r := by
  simp [State.txMark]

end

end Sys2Proof.Machine
end

section
/-! ## Locked links: the IEEE 1588 service (R122 to R125) -/

namespace Sys2Proof.Machine

/-! ### A message of the service -/

/-- A message is the same from two states that agree on the address of the port, and is put after the same outbox. -/
theorem State.ptpSend_out_congr {s t : State} {p : Nat} (hout : t.out = s.out) (hmac : t.portMac p = s.portMac p) (dst : Nat)
    (path : PtpPath) (msg : List Byte) : (t.ptpSend p dst path msg).out = (s.ptpSend p dst path msg).out := by
  unfold State.ptpSend State.emit
  simp only [State.stamped_out, hout, hmac]

theorem State.ptpSend_out_length (s : State) (p dst : Nat) (path : PtpPath) (msg : List Byte) :
    (s.ptpSend p dst path msg).out.length = s.out.length + 1 := by
  simp [State.ptpSend, State.emit]

theorem State.ptpSend_ptpSeq (s : State) (p dst : Nat) (path : PtpPath) (msg : List Byte) :
    (s.ptpSend p dst path msg).ptpSeq = s.ptpSeq := (s.ptpSend_only p dst path msg).ptpSeq rfl

theorem State.ptpSend_grants (s : State) (p dst : Nat) (path : PtpPath) (msg : List Byte) :
    (s.ptpSend p dst path msg).grants = s.grants := (s.ptpSend_only p dst path msg).grants rfl

section
variable (s : State) (p type : Nat)

theorem State.ptpNext_snd : (s.ptpNext p type).2 = look (p, type) 0 s.ptpSeq := rfl

theorem State.ptpNext_header (q k len flags : Nat) (corr : Int) (seq : Nat) (interval : Int) :
    (s.ptpNext p type).1.ptpHeader q k len flags corr seq interval = s.ptpHeader q k len flags corr seq interval := rfl

theorem State.ptpNext_flags (uni : Bool) : (s.ptpNext p type).1.ptpFlags uni = s.ptpFlags uni := rfl

theorem State.ptpNext_announceBody (x : Stamp) : (s.ptpNext p type).1.announceBody x = s.announceBody x := rfl

theorem State.ptpNext_send_out (q dst : Nat) (path : PtpPath) (msg : List Byte) :
    ((s.ptpNext p type).1.ptpSend q dst path msg).out = (s.ptpSend q dst path msg).out :=
  State.ptpSend_out_congr (s := s) (t := (s.ptpNext p type).1) rfl rfl ..

end

/-- The sequence number of a port and message type that is taken moves on by one. -/
theorem State.ptpNext_seq (s : State) (p type : Nat) :
    look (p, type) 0 (s.ptpNext p type).1.ptpSeq = (look (p, type) 0 s.ptpSeq + 1) % 65536 := look_store_self ..

section
variable (s : State) (q p : Nat)

@[simp] theorem State.stamped_ptpRuns : (s.stamped q).ptpRuns p = s.ptpRuns p := by
  simp (disch := decide) [State.ptpRuns, State.rdb]

@[simp] theorem State.stamped_ptpHeader (type len flags : Nat) (corr : Int) (seq : Nat) (interval : Int) :
    (s.stamped q).ptpHeader p type len flags corr seq interval = s.ptpHeader p type len flags corr seq interval := by
  unfold State.ptpHeader
  rw [State.stamped_rd _ _ (by decide), State.stamped_rd _ _ (by decide)]

@[simp] theorem State.stamped_delayGranted (msg : List Byte) : (s.stamped q).delayGranted p msg = s.delayGranted p msg := by
  simp [State.delayGranted]

theorem State.stamped_ptpSend_out (dst : Nat) (path : PtpPath) (msg : List Byte) :
    ((s.stamped q).ptpSend p dst path msg).out = (s.ptpSend p dst path msg).out :=
  State.ptpSend_out_congr (s.stamped_out q) (s.stamped_portMac q p) ..

end

/-! ### PTP_SYNC_SEND -/

/-- A Sync or an Announce of port `p` sent to an address over a transport. -/
def State.ptpTimed (s : State) (p : Nat) (announce : Bool) (tx : RawStamp) (dst : Nat) (path : PtpPath) (uni : Bool) (interval : Int) :
    State :=
  let t := (s.ptpNext p (if announce then 11 else 0)).1
  if announce then
    t.ptpSend p dst path
      (s.ptpHeader p 11 64 (s.ptpFlags uni) 0 (look (p, 11) 0 s.ptpSeq) interval ++ s.announceBody (s.txMark p tx))
  else
    t.ptpSend p dst path (s.ptpHeader p 0 44 (if uni then 0x0400 else 0) (s.txMark p tx).sub (look (p, 0) 0 s.ptpSeq) interval ++
      ptpTime (s.txMark p tx))

section
variable (s : State) (p : Nat) (tx : RawStamp) (dst : Nat) (path : PtpPath) (uni : Bool) (interval : Int)

theorem State.ptpTimed_sync_out : (s.ptpTimed p false tx dst path uni interval).out =
    (s.ptpSend p dst path (s.ptpHeader p 0 44 (if uni then 0x0400 else 0) (s.txMark p tx).sub (look (p, 0) 0 s.ptpSeq) interval ++
      ptpTime (s.txMark p tx))).out := by
  rw [State.ptpTimed, if_neg Bool.false_ne_true]
  exact State.ptpNext_send_out ..

theorem State.ptpTimed_announce_out : (s.ptpTimed p true tx dst path uni interval).out =
    (s.ptpSend p dst path (s.ptpHeader p 11 64 (s.ptpFlags uni) 0 (look (p, 11) 0 s.ptpSeq) interval ++
      s.announceBody (s.txMark p tx))).out := by
  rw [State.ptpTimed, if_pos rfl]
  exact State.ptpNext_send_out ..

theorem State.ptpTimed_sync_seq :
    look (p, 0) 0 (s.ptpTimed p false tx dst path uni interval).ptpSeq = (look (p, 0) 0 s.ptpSeq + 1) % 65536 :=
  (congrArg (look (p, 0) 0) (State.ptpSend_ptpSeq ..)).trans (s.ptpNext_seq p 0)

theorem State.ptpTimed_announce_seq :
    look (p, 11) 0 (s.ptpTimed p true tx dst path uni interval).ptpSeq = (look (p, 11) 0 s.ptpSeq + 1) % 65536 :=
  (congrArg (look (p, 11) 0) (State.ptpSend_ptpSeq ..)).trans (s.ptpNext_seq p 11)

end

section
variable {s : State} {port : Fin 512}

theorem exec_ptpSyncSend_multicast (hruns : s.ptpRuns port.val = true) (announce : Bool) (tx : RawStamp) :
    exec (.ptpSyncSend port announce none tx) s = .next (s.ptpTimed port.val announce tx (groupMac false .ethernet) .ethernet false
      (if announce then s.rdS 4 P.LNK_PTP_LOG_ANN else s.rdS 4 P.LNK_PTP_LOG_SYNC)) :=
by
  show execPtpSyncSend port announce none tx s = _
  unfold execPtpSyncSend
  rw [if_neg (not_not_intro hruns)]
  cases announce <;>
    simp only [State.ptpTimed, State.ptpNext_snd, State.ptpNext_header, State.ptpNext_flags, State.ptpNext_announceBody, if_true,
      Bool.false_eq_true, if_false]

theorem exec_ptpSyncSend_unicast (hruns : s.ptpRuns port.val = true) {announce : Bool} {c m : Nat} {g : Grant}
    (hg : (s.grants.find? fun g => g.port == port.val && g.clock == c && g.number == m && g.msg == (if announce then 11 else 0) &&
      decide (s.clock < g.ends)) = some g) (tx : RawStamp) :
    exec (.ptpSyncSend port announce (some (c, m)) tx) s = .next (s.ptpTimed port.val announce tx g.mac g.path true g.period) := by
  show execPtpSyncSend port announce (some (c, m)) tx s = _
  unfold execPtpSyncSend
  rw [if_neg (not_not_intro hruns)]
  cases announce <;>
    simp only [State.ptpTimed, State.ptpNext_snd, State.ptpNext_header, State.ptpNext_flags, State.ptpNext_announceBody, if_true,
      Bool.false_eq_true, if_false] at hg ⊢ <;>
    simp only [hg]

theorem exec_ptpSyncSend_ungranted {c m : Nat}
    (hends : ∀ g ∈ s.grants, g.port = port.val → g.clock = c → g.number = m → g.ends ≤ s.clock) (announce : Bool) (tx : RawStamp) :
    exec (.ptpSyncSend port announce (some (c, m)) tx) s = .next s := by
  have hnone : (s.grants.find? fun g => g.port == port.val && g.clock == c && g.number == m && g.msg == (if announce then 11 else 0) &&
      decide (s.clock < g.ends)) = none := by
    rw [List.find?_eq_none]
    intro g hg h
    simp only [Bool.and_eq_true, beq_iff_eq, decide_eq_true_eq] at h
    obtain ⟨⟨⟨⟨hport, hclock⟩, hnumber⟩, -⟩, hlate⟩ := h
    exact absurd hlate (Nat.not_lt.mpr (hends g hg hport hclock hnumber))
  show execPtpSyncSend port announce (some (c, m)) tx s = _
  unfold execPtpSyncSend
  simp only [hnone, ite_self]

theorem exec_ptpSyncSend_off (hruns : s.ptpRuns port.val = false) (announce : Bool) (u : Option (Nat × Nat)) (tx : RawStamp) :
    exec (.ptpSyncSend port announce u tx) s = .next s := if_pos (by rw [hruns]; exact Bool.false_ne_true)

/-! ### PTP_UNICAST_REQUEST and GRANT_EXPIRY -/

/-- Whether a request is one that the service grants (R123). -/
def State.grantable (s : State) (c n msg : Nat) (period : BitVec 8) : Bool :=
  (msg == 0 || msg == 11 || msg == 9) && decide (-7 ≤ sgn 8 period.toNat) &&
    ((clientsOf s.grants).contains (c, n) || decide ((clientsOf s.grants).length < 4096))

theorem State.grantable_iff (s : State) (c n msg : Nat) (period : BitVec 8) :
    s.grantable c n msg period = true ↔ (msg = 0 ∨ msg = 9 ∨ msg = 11) ∧ -7 ≤ sgn 8 period.toNat ∧
      ((clientsOf s.grants).length < 4096 ∨ (c, n) ∈ clientsOf s.grants) := by
  simp only [State.grantable, Bool.and_eq_true, Bool.or_eq_true, beq_iff_eq, decide_eq_true_eq, List.contains_iff_mem]
  tauto

theorem State.stamped_grantable (s : State) (q c n msg : Nat) (period : BitVec 8) :
    (s.stamped q).grantable c n msg period = s.grantable c n msg period := by
  unfold State.grantable; rw [State.stamped_grants]

/-- The TLV that grants a unicast transmission for a duration in seconds; 0 s refuses it (R123). -/
def grantTlv (msg : Nat) (period : BitVec 8) (d : Nat) : List Byte :=
  [0x00, 0x05, 0x00, 0x08] ++ toBe 1 (msg * 16) ++ toBe 1 period.toNat ++ toBe 4 d ++ [0, 1]

/-- The answer to a request sent, with the duration that is granted. -/
def State.ptpAnswered (s : State) (p c n : Nat) (client : PtpClient) (msg : Nat) (period : BitVec 8) (d : Nat) : State :=
  (s.ptpNext p 12).1.ptpSend p client.mac.toNat client.path (s.ptpHeader p 12 56 0x0400 0 (look (p, 12) 0 s.ptpSeq) 0x7F ++
    toBe 8 c ++ toBe 2 n ++ grantTlv msg period d)

/-- A grant entered in place of the one that the client had for the same messages, and the clients counted. -/
def State.granted (s : State) (g : Grant) : State :=
  State.countClients { s with
    grants := (s.grants.filter fun x => !(x.port == g.port && x.clock == g.clock && x.number == g.number && x.msg == g.msg)) ++ [g] }

theorem State.ptpAnswered_out (s : State) (q p c n : Nat) (client : PtpClient) (msg : Nat) (period : BitVec 8) (d : Nat) :
    ((s.stamped q).ptpAnswered p c n client msg period d).out =
      (s.ptpSend p client.mac.toNat client.path (s.ptpHeader p 12 56 0x0400 0 (look (p, 12) 0 s.ptpSeq) 0x7F ++ toBe 8 c ++ toBe 2 n ++
        grantTlv msg period d)).out := by
  unfold State.ptpAnswered
  rw [State.stamped_ptpHeader, State.stamped_ptpSeq]
  exact State.ptpSend_out_congr (t := ((s.stamped q).ptpNext p 12).1) (s.stamped_out q) (s.stamped_portMac q p) ..

theorem State.ptpAnswered_grants (s : State) (p c n : Nat) (client : PtpClient) (msg : Nat) (period : BitVec 8) (d : Nat) :
    (s.ptpAnswered p c n client msg period d).grants = s.grants := State.ptpSend_grants ..

theorem State.ptpAnswered_refused (s : State) (p c n : Nat) (client : PtpClient) (msg : Nat) (period : BitVec 8) (d : Nat) :
    (s.ptpAnswered p c n client msg period d).rd P.LNK_PTP_REFUSED = s.rd P.LNK_PTP_REFUSED :=
  (State.ptpSend_only ..).rd _ _ (by decide) rfl

theorem State.countClients_unicast (s : State) :
    s.countClients.rd P.LNK_PTP_UNICAST = min 4096 (clientsOf s.countClients.grants).length := State.rd_wr_self ..

theorem State.mem_granted (s : State) (g : Grant) : g ∈ (s.granted g).grants := List.mem_append_right _ (List.mem_singleton.mpr rfl)

theorem State.granted_unicast (s : State) (g : Grant) :
    (s.granted g).rd P.LNK_PTP_UNICAST = min 4096 (clientsOf (s.granted g).grants).length := State.countClients_unicast _

theorem State.granted_out (s : State) (g : Grant) : (s.granted g).out = s.out := rfl

variable {clock : BitVec 64} {number : BitVec 16} {client : PtpClient} {msg : Fin 16} {period : BitVec 8} {duration : BitVec 32}

theorem exec_ptpUnicastRequest_grants (hruns : s.ptpRuns port.val = true)
    (hok : s.grantable clock.toNat number.toNat msg.val period = true) {d : Nat}
    (hd : d = min duration.toNat (s.rd P.LNK_PTP_GRANT_MAX)) :
    exec (.ptpUnicastRequest port clock number client msg period duration) s =
      .next (((s.stamped port.val).ptpAnswered port.val clock.toNat number.toNat client msg.val period d).granted
        ⟨port.val, clock.toNat, number.toNat, client.mac.toNat, client.path, msg.val, sgn 8 period.toNat, s.clock + d * 1000000000⟩) := by
  have hclock : ((s.stamped port.val).ptpAnswered port.val clock.toNat number.toNat client msg.val period d).clock = s.clock :=
    ((State.ptpSend_only ..).keeps.clock).trans (s.stamped_clock port.val)
  show execPtpUnicastRequest port clock number client msg period duration s = _
  unfold execPtpUnicastRequest
  extract_lets p t c n known ok d' tlv
  have hok' : ok = true := (s.stamped_grantable ..).trans hok
  have hd' : d' = d := by
    show (if ok then min duration.toNat (t.rd P.LNK_PTP_GRANT_MAX) else 0) = d
    rw [hok', if_pos rfl, hd, State.stamped_rd _ _ (by decide)]
  have htlv : tlv = grantTlv msg.val period d := congrArg (grantTlv msg.val period) hd'
  rw [if_neg (by rw [State.stamped_ptpRuns]; exact not_not_intro hruns), htlv, hd', ← hclock]
  simp only [State.ptpNext_snd, State.ptpNext_header, if_pos hok']
  rfl

theorem exec_ptpUnicastRequest_refuses (hruns : s.ptpRuns port.val = true)
    (hok : s.grantable clock.toNat number.toNat msg.val period = false) :
    exec (.ptpUnicastRequest port clock number client msg period duration) s =
      .next (((s.stamped port.val).ptpAnswered port.val clock.toNat number.toNat client msg.val period 0).wr P.LNK_PTP_REFUSED 0
        ((s.rd P.LNK_PTP_REFUSED + 1) % 2 ^ 48)) := by
  have hcount : ((s.stamped port.val).ptpAnswered port.val clock.toNat number.toNat client msg.val period 0).rd P.LNK_PTP_REFUSED =
      s.rd P.LNK_PTP_REFUSED := by
    rw [State.ptpAnswered_refused, State.stamped_rd _ _ (by decide)]
  rw [← hcount, ← State.count_plain _ _ (by decide)]
  show execPtpUnicastRequest port clock number client msg period duration s = _
  unfold execPtpUnicastRequest
  extract_lets p t c n known ok d tlv
  have hok' : ok = false := (s.stamped_grantable ..).trans hok
  have hd : d = 0 := if_neg (by rw [hok']; exact Bool.false_ne_true)
  have htlv : tlv = grantTlv msg.val period 0 := congrArg (grantTlv msg.val period) hd
  rw [if_neg (by rw [State.stamped_ptpRuns]; exact not_not_intro hruns), htlv]
  simp only [State.ptpNext_snd, State.ptpNext_header, hok', Bool.false_eq_true, if_false]
  rfl

theorem exec_ptpUnicastRequest_off (hruns : s.ptpRuns port.val = false) :
    exec (.ptpUnicastRequest port clock number client msg period duration) s = .next (s.stamped port.val) :=
  if_pos (by rw [State.stamped_ptpRuns, hruns]; exact Bool.false_ne_true)

theorem execGrantExpiry_grants (clock : BitVec 64) (number : BitVec 16) (s : State) : ∃ t : State,
    exec (.grantExpiry clock number) s = .next t ∧
      (∀ g, g ∈ t.grants ↔ g ∈ s.grants ∧ ¬ (g.clock = clock.toNat ∧ g.number = number.toNat ∧ g.ends ≤ s.clock)) ∧
      t.rd P.LNK_PTP_UNICAST = min 4096 (clientsOf t.grants).length := by
  refine ⟨_, rfl, fun g => ?_, State.countClients_unicast _⟩
  have hg : ∀ gs : List Grant, (State.countClients { s with grants := gs }).grants = gs := fun _ => rfl
  rw [hg, List.mem_filter, Bool.not_eq_true', Bool.eq_false_iff, ne_eq, Bool.and_eq_true, Bool.and_eq_true, beq_iff_eq, beq_iff_eq,
    decide_eq_true_eq, and_assoc]

/-! ### DELAY_REQ -/

/-- Whether the service takes a message on port `p`: it runs there, and the message is long enough and of its domain and version (R122). -/
def State.hearsPtp (s : State) (p : Nat) (msg : List Byte) : Prop :=
  s.ptpRuns p = true ∧ 44 ≤ msg.length ∧ beAt 4 1 msg = s.rd P.LNK_PTP_DOMAIN ∧ beAt 1 1 msg % 16 = 2

theorem State.hearsPtp_iff (s : State) (q p : Nat) (msg : List Byte) :
    s.hearsPtp p msg ↔ ¬ (¬ (s.stamped q).ptpRuns p = true ∨ msg.length < 44 ∨ beAt 4 1 msg ≠ (s.stamped q).rd P.LNK_PTP_DOMAIN ∨
      beAt 1 1 msg % 16 ≠ 2) := by
  rw [State.stamped_ptpRuns, State.stamped_rd _ _ (by decide)]
  simp only [State.hearsPtp, not_or, not_not, Nat.not_lt, ne_eq]

section
variable {msg : List Byte} {client : PtpClient} {rx tx : RawStamp} {uni : Bool}

/-- A Delay_Req whose client, if it asks in unicast, holds a grant is answered with a Delay_Resp (R123, R124). -/
theorem exec_delayReq_delay (hears : s.hearsPtp port.val msg) (htype : beAt 0 1 msg % 16 = 1) (hen : s.rd P.LNK_PTP_PORT_EN port.val = 1)
    (huni : (beAt 6 2 msg).testBit 10 = uni) (hgranted : uni = true → s.delayGranted port.val msg = true) :
    exec (.delayReq port msg client rx tx) s = .next ((s.stamped port.val).ptpSend port.val
      (if uni then client.mac.toNat else groupMac false client.path) (if uni then client.path else groupPath false client.path)
      (s.ptpHeader port.val 9 54 (if uni then 0x0400 else 0) (sgn 64 (beAt 8 8 msg) - (s.rxMark port.val rx).sub) (beAt 30 2 msg)
        (s.rdS 4 P.LNK_PTP_LOG_SYNC) ++ ptpTime (s.rxMark port.val rx) ++ slice 20 10 msg)) := by
  show execDelayReq port msg client rx tx s = _
  unfold execDelayReq
  rw [if_neg ((s.hearsPtp_iff ..).mp hears), State.stamped_rd _ _ (by decide), if_pos ⟨htype, hen⟩, State.stamped_delayGranted, huni,
    if_neg (fun h => h.2 (hgranted h.1)), htype, State.stamped_ptpHeader, State.stamped_rxMark, State.rdS,
    State.stamped_rd _ _ (by decide)]
  rfl

theorem exec_delayReq_ungranted (hears : s.hearsPtp port.val msg) (htype : beAt 0 1 msg % 16 = 1)
    (hen : s.rd P.LNK_PTP_PORT_EN port.val = 1) (huni : (beAt 6 2 msg).testBit 10 = true)
    (hgranted : s.delayGranted port.val msg = false) :
    exec (.delayReq port msg client rx tx) s = .next (s.stamped port.val) := by
  show execDelayReq port msg client rx tx s = _
  unfold execDelayReq
  rw [if_neg ((s.hearsPtp_iff ..).mp hears), State.stamped_rd _ _ (by decide), if_pos ⟨htype, hen⟩, State.stamped_delayGranted, huni,
    hgranted, if_pos ⟨rfl, Bool.false_ne_true⟩]

/-- A Pdelay_Req is answered with a one-step Pdelay_Resp (R124). -/
theorem exec_delayReq_pdelay (hears : s.hearsPtp port.val msg) (htype : beAt 0 1 msg % 16 = 2)
    (hen : s.rd P.LNK_PTP_PORT_EN port.val = 2) (huni : (beAt 6 2 msg).testBit 10 = uni) :
    exec (.delayReq port msg client rx tx) s = .next ((s.stamped port.val).ptpSend port.val
      (if uni then client.mac.toNat else groupMac true client.path) (if uni then client.path else groupPath true client.path)
      (s.ptpHeader port.val 3 54 (if uni then 0x0400 else 0)
        (sgn 64 (beAt 8 8 msg) + ((s.txMark port.val tx).units - (s.rxMark port.val rx).units)) (beAt 30 2 msg) 0x7F ++ zeros 10 ++
        slice 20 10 msg)) := by
  show execDelayReq port msg client rx tx s = _
  unfold execDelayReq
  rw [if_neg ((s.hearsPtp_iff ..).mp hears), State.stamped_rd _ _ (by decide), htype, hen, if_neg (by decide), if_pos ⟨rfl, rfl⟩, huni,
    State.stamped_ptpHeader, State.stamped_rxMark, State.stamped_txMark]
  rfl

theorem exec_delayReq_ignored (h : s.ptpRuns port.val = false ∨ msg.length < 44 ∨ beAt 4 1 msg ≠ s.rd P.LNK_PTP_DOMAIN ∨
      beAt 1 1 msg % 16 ≠ 2 ∨ beAt 0 1 msg % 16 ∉ [1, 2] ∨ s.rd P.LNK_PTP_PORT_EN port.val ≠ beAt 0 1 msg % 16) :
    exec (.delayReq port msg client rx tx) s = .next (s.stamped port.val) := by
  show execDelayReq port msg client rx tx s = _
  unfold execDelayReq
  by_cases hears : s.hearsPtp port.val msg
  · obtain ⟨hruns, hlen, hdom, hver⟩ := id hears
    have htype : ∀ k, k = 1 ∨ k = 2 → ¬ (beAt 0 1 msg % 16 = k ∧ s.rd P.LNK_PTP_PORT_EN port.val = k) := by
      rintro k hk ⟨htype, hen⟩
      rcases h with h | h | h | h | h | h
      · exact absurd (hruns.symm.trans h) (by decide)
      · exact Nat.not_lt.mpr hlen h
      · exact h hdom
      · exact h hver
      · exact h (by rw [htype]; rcases hk with rfl | rfl <;> decide)
      · exact h (hen.trans htype.symm)
    rw [if_neg ((s.hearsPtp_iff ..).mp hears), State.stamped_rd _ _ (by decide), if_neg (htype 1 (.inl rfl)), if_neg (htype 2 (.inr rfl))]
  · exact if_pos (not_not.mp (mt (s.hearsPtp_iff ..).mpr hears))

end

end

/-! ### The obligation -/

/-- Settles O44: the message that leaves is the one that the state before makes, since neither the count of over-limit stamps nor the next
sequence number enters a message. -/
theorem ptpServiceAnswersAndGrants : Obligations.PtpServiceAnswersAndGrants := by
  unfold Obligations.PtpServiceAnswersAndGrants
  refine ⟨?_, ?_, ?_, ?_, ?_, ?_, ?_, ?_, ?_, ?_, ?_, ?_⟩
  · rintro port tx s _ _ hruns rfl rfl
    have hexec := exec_ptpSyncSend_multicast hruns false tx
    exact ⟨_, hexec, s.ptpTimed_sync_out .., s.ptpTimed_sync_seq .., (execPtpSyncSend_only port false none tx s).next _ hexec⟩
  · rintro port tx s _ _ hruns rfl rfl
    have hexec := exec_ptpSyncSend_multicast hruns true tx
    exact ⟨_, hexec, s.ptpTimed_announce_out .., s.ptpTimed_announce_seq .., (execPtpSyncSend_only port true none tx s).next _ hexec⟩
  · rintro port c m tx s _ _ g hruns hg rfl rfl
    have hexec := exec_ptpSyncSend_unicast (announce := false) hruns hg tx
    exact ⟨_, hexec, s.ptpTimed_sync_out .., (execPtpSyncSend_only port false (some (c, m)) tx s).next _ hexec⟩
  · rintro port c m tx s _ _ g hruns hg rfl rfl
    have hexec := exec_ptpSyncSend_unicast (announce := true) hruns hg tx
    exact ⟨_, hexec, s.ptpTimed_announce_out .., (execPtpSyncSend_only port true (some (c, m)) tx s).next _ hexec⟩
  · exact fun port announce c m tx s hends => exec_ptpSyncSend_ungranted hends announce tx
  · intro port clock number mac path msg period duration s d hruns hmsg hperiod hroom hd
    have hexec := exec_ptpUnicastRequest_grants (client := ⟨mac, path⟩) hruns
      ((s.grantable_iff ..).mpr ⟨hmsg, hperiod, hroom⟩) hd
    exact ⟨_, hexec, State.mem_granted .., State.granted_unicast .., (State.granted_out ..).trans (s.ptpAnswered_out ..),
      (execPtpUnicastRequest_only port clock number ⟨mac, path⟩ msg period duration s).next _ hexec⟩
  · intro port clock number mac path msg period duration s hruns hbad
    have hok : s.grantable clock.toNat number.toNat msg.val period = false := by
      rw [Bool.eq_false_iff, ne_eq, State.grantable_iff]
      rintro ⟨hmsg, hperiod, hroom⟩
      rcases hbad with ⟨h0, h9, h11⟩ | hlow | ⟨hfull, hnew⟩
      · omega
      · omega
      · exact hroom.elim (fun h => by omega) hnew
    have hexec := exec_ptpUnicastRequest_refuses (client := ⟨mac, path⟩) (duration := duration) hruns hok
    refine ⟨_, hexec, ?_, State.rd_wr_self .., ?_, (execPtpUnicastRequest_only port clock number ⟨mac, path⟩ msg period duration s).next _ hexec⟩
    · rw [State.wr_grants, State.ptpAnswered_grants, State.stamped_grants]
    · rw [State.wr_out, State.ptpAnswered_out, State.ptpSend_out_length]
  · intro clock number s
    obtain ⟨t, hexec, hgrants, hcount⟩ := execGrantExpiry_grants clock number s
    exact ⟨t, hexec, hgrants, hcount, (execGrantExpiry_only clock number s).next t hexec⟩
  · rintro port msg mac path rx tx s _ hruns hlen hdom hver htype hen rfl
    have hears : s.hearsPtp port.val msg := ⟨hruns, hlen, hdom, hver⟩
    cases huni : (beAt 6 2 msg).testBit 10 with
    | false =>
      have hexec := exec_delayReq_delay (client := ⟨mac, path⟩) (rx := rx) (tx := tx) hears htype hen huni nofun
      exact ⟨_, hexec, fun _ => s.stamped_ptpSend_out .., nofun, nofun, (execDelayReq_only port msg ⟨mac, path⟩ rx tx s).next _ hexec⟩
    | true =>
      cases hgranted : s.delayGranted port.val msg with
      | false =>
        have hexec := exec_delayReq_ungranted (client := ⟨mac, path⟩) (rx := rx) (tx := tx) hears htype hen huni hgranted
        exact ⟨_, hexec, nofun, fun _ => nofun, fun _ _ => rfl, (execDelayReq_only port msg ⟨mac, path⟩ rx tx s).next _ hexec⟩
      | true =>
        have hexec := exec_delayReq_delay (client := ⟨mac, path⟩) (rx := rx) (tx := tx) hears htype hen huni fun _ => hgranted
        exact ⟨_, hexec, nofun, fun _ _ => s.stamped_ptpSend_out .., fun _ => nofun, (execDelayReq_only port msg ⟨mac, path⟩ rx tx s).next _ hexec⟩
  · intro port msg mac path rx tx s hruns hlen hdom hver htype hen
    have hears : s.hearsPtp port.val msg := ⟨hruns, hlen, hdom, hver⟩
    have hexec := fun uni huni => exec_delayReq_pdelay (client := ⟨mac, path⟩) (rx := rx) (tx := tx) (uni := uni) hears htype hen huni
    cases huni : (beAt 6 2 msg).testBit 10 with
    | false =>
      exact ⟨_, hexec _ huni, fun _ => s.stamped_ptpSend_out .., nofun, (execDelayReq_only port msg ⟨mac, path⟩ rx tx s).next _ (hexec _ huni)⟩
    | true =>
      exact ⟨_, hexec _ huni, nofun, fun _ => s.stamped_ptpSend_out .., (execDelayReq_only port msg ⟨mac, path⟩ rx tx s).next _ (hexec _ huni)⟩
  · exact fun port msg mac path rx tx s h => exec_delayReq_ignored h
  · exact fun port announce u tx clock number mac path msg period duration s hruns =>
      ⟨exec_ptpSyncSend_off hruns announce u tx, exec_ptpUnicastRequest_off hruns⟩

end Sys2Proof.Machine
end

section
/-! ## Locked links: what the operations of a time link leave (R98, R107 to R115)

One rule for each operation of the link state machine: the state of the port, its widening, and what its record keeps. -/

namespace Sys2Proof.Machine

/-! ### Stamps of a port whose DDMTD is valid or not (R98) -/

section
variable {W : Option (List Nat)} {s t : State} {p : Nat}

theorem Only.lockedPort (h : Only W s t) (hw : allows W P.LNK_CLASS = false) (p : Nat) : t.lockedPort p = s.lockedPort p := by
  unfold State.lockedPort; rw [h.rd _ _ (by decide) hw]

theorem State.bEvt_valid (hv : (s.link p).valid = true) : s.bEvt p = s.rd P.LNK_BEVT p :=
  if_neg (by simp [hv])

theorem State.bEvt_invalid (hlocked : s.lockedPort p = true) (hv : (s.link p).valid = false) : s.bEvt p = s.rd P.TBS_FREE_Q :=
  if_pos (by simp [hlocked, hv])

theorem State.linkFlags_invalid (s : State) (p : Nat) : (s.linkFlags p).testBit 2 = (s.lockedPort p && !(s.link p).valid) :=
  putBit_testBit_self ..

end

/-! ### What a link record keeps -/

/-- What a link record keeps while its port changes its state: the messages under way, the phase of the DDMTD, and what the last accepted
exchange left. -/
structure Link.Continues (l m : Link) : Prop where
  sent : m.sent = l.sent
  valid : m.valid = l.valid
  phase : m.phase = l.phase
  exchanges : m.exchanges = l.exchanges
  lastRt : m.lastRt = l.lastRt
  theta : m.theta = l.theta
  upBound : m.upBound = l.upBound
  hops : m.hops = l.hops
  sender : m.sender = l.sender

theorem Link.Continues.refl (l : Link) : l.Continues l := ⟨rfl, rfl, rfl, rfl, rfl, rfl, rfl, rfl, rfl⟩

theorem Link.Continues.trans {k l m : Link} (h : k.Continues l) (g : l.Continues m) : k.Continues m :=
  ⟨g.sent.trans h.sent, g.valid.trans h.valid, g.phase.trans h.phase, g.exchanges.trans h.exchanges, g.lastRt.trans h.lastRt,
    g.theta.trans h.theta, g.upBound.trans h.upBound, g.hops.trans h.hops, g.sender.trans h.sender⟩

/-- A part of the record that only the state of the port reads is changed. -/
theorem State.setLink_continues (s : State) (p : Nat) (f : Link → Link) (hp : ∀ l : Link, (f l).port = l.port)
    (hf : ∀ l : Link, l.Continues (f l)) : (s.link p).Continues ((s.setLink p f).link p) := by
  rw [State.link_setLink _ _ _ hp]; exact hf _

theorem Link.Continues.of_eq {l m : Link} (h : m = l) : l.Continues m := h ▸ .refl l

section
variable (s : State) (p : Nat)

/-! ### SYNTONIZING ends (R112) -/

theorem State.linkAdvance_state : (s.linkAdvance p).rd P.LNK_STATE p =
    if s.rd P.LNK_STATE p = 1 ∧ (s.link p).valid = true ∧ (s.link p).partner = true ∧ ¬ (s.rd P.LNK_FLAGS p).testBit 0 = true then 2
    else s.rd P.LNK_STATE p := by
  unfold State.linkAdvance
  split
  · rw [State.setLink_rd, State.rd_wr_self]
  · rfl

theorem State.linkAdvance_link : ∃ h, (s.linkAdvance p).link p = { s.link p with history := h } := by
  unfold State.linkAdvance
  split
  · exact ⟨_, State.link_setLink _ _ _ fun _ => rfl⟩
  · exact ⟨_, rfl⟩

theorem State.linkAdvance_continues : (s.link p).Continues ((s.linkAdvance p).link p) := by
  obtain ⟨h, hl⟩ := s.linkAdvance_link p
  rw [hl]; constructor <;> rfl

@[simp] theorem State.linkAdvance_out : (s.linkAdvance p).out = s.out := by
  unfold State.linkAdvance
  split
  · rw [State.setLink_out, State.wr_out]
  · rfl

/-! ### The widening of a port's stamps (R113) -/

theorem State.setBevt_bevt (v : Nat) : (s.setBevt p v).rd P.LNK_BEVT p = v :=
  ((State.linkBref_only ..).rd _ _ (by decide) rfl).trans (State.rd_wr_self ..)

theorem State.setBevt_link (v q : Nat) : (s.setBevt p v).link q = s.link q := (s.setBevt_only p v).link rfl q

/-! ### θ by the phase now (R107) -/

variable {s p}

theorem State.showTheta_offset {r f : Int} (hrole : s.rd P.LNK_ROLE p = 1) (hrt : (s.link p).lastRt = some (r, f)) :
    (s.showTheta p).rdS 64 P.LNK_OFFSET p = clampS 64 ((s.link p).theta + phasePs ((s.link p).phase - f)) := by
  have hshown : ∀ (c : Bool) (t : State) (a : Nat) (x y : Int), (if c = true then t.follow a x y else t).rd P.LNK_OFFSET p =
      t.rd P.LNK_OFFSET p := by
    intro c t a x y
    split
    · exact (State.follow_only ..).rd _ _ (by decide) rfl
    · rfl
  unfold State.showTheta
  simp only [hrt, hrole, if_true]
  rw [State.rdS, hshown]
  exact State.rdS_wrS _ (by decide) ..

end

section
variable (s : State) (p : Nat)

/-! ### The link calibration that ends with TRACKING (R118) -/

theorem State.abortLinkRun_lkt : (s.abortLinkRun p).cal.lkt = s.cal.lkt := by
  unfold State.abortLinkRun
  split
  · split
    · rw [(State.finish_only ..).cal rfl]
    · rfl
  · rfl

/-! ### REMEASURE (R112 to R114) -/

theorem State.remeasure_state : (s.remeasure p).rd P.LNK_STATE p = 4 := by
  unfold State.remeasure
  rw [(State.setBevt_only ..).rd _ _ (by decide) rfl, State.setLink_rd, (State.abortLinkRun_only ..).rd _ _ (by decide) rfl,
    State.rd_wr_self]

theorem State.remeasure_bevt : (s.remeasure p).rd P.LNK_BEVT p = max (s.rd P.LNK_SLIP_WIDEN) (s.link p).suspect := by
  have habort := (s.wr P.LNK_STATE p 4).abortLinkRun_only p
  unfold State.remeasure
  rw [State.setBevt_bevt, State.setLink_rd, State.link_setLink _ _ _ (by intro; rfl), habort.rd _ _ (by decide) rfl, habort.link rfl,
    State.rd_wr_base _ (by decide), State.link_wr]

theorem State.remeasure_link : ∃ q, (s.remeasure p).link p = { s.link p with history := [], discards := 0, preSlip := q } := by
  unfold State.remeasure
  rw [State.setBevt_link, State.link_setLink _ _ _ (by intro; rfl), (State.abortLinkRun_only ..).link rfl, State.link_wr]
  exact ⟨_, rfl⟩

theorem State.remeasure_continues : (s.link p).Continues ((s.remeasure p).link p) := by
  obtain ⟨q, hl⟩ := s.remeasure_link p
  rw [hl]; constructor <;> rfl

/-! ### A hop count of 8 or more (R111, R112) -/

/-- The references of a link lost one after another. -/
theorem State.loseRefs_only (rs : List Nat) : Only (some [F.cmd, F.fault, F.fresh, F.refs, F.rings, F.servo, P.CMD_NOTICE_DROP,
    P.HLT_FAULT_COUNT, P.HLT_STICKY, P.REF_ACTIVE, P.REF_DEV, P.REF_FLAGS, P.REF_HO_C, P.REF_HO_D, P.REF_HO_Y0, P.REF_QSTATE,
    P.REF_SWLOG_HEAD, P.REF_SWLOG_INFO, P.REF_SWLOG_TIME, P.REF_TSTATE, P.TBS_BOUND_NOW, P.TBS_BOUND_PS, P.TBS_DOM_SELECTED]) s
    (rs.foldl (fun u r => u.loseRef r 5) s) :=
  Only.fold _ _ (fun u r => u.loseRef_only r 5) (Only.refl _ _)

theorem State.hopLimited_state (h : s.rd P.LNK_STATE p = 3 ∨ s.rd P.LNK_STATE p = 4) : (s.hopLimited p).rd P.LNK_STATE p = 2 := by
  unfold State.hopLimited
  rw [if_pos h, (State.loseRefs_only ..).rd _ _ (by decide) rfl, State.rd_wr_base _ (by decide), State.setLink_rd,
    (State.abortLinkRun_only ..).rd _ _ (by decide) rfl, State.rd_wr_self]

theorem State.hopLimited_continues : (s.link p).Continues ((s.hopLimited p).link p) := by
  unfold State.hopLimited
  split
  · rw [(State.loseRefs_only ..).link rfl, State.link_wr, State.link_setLink _ _ _ (by intro; rfl),
      (State.abortLinkRun_only ..).link rfl, State.link_wr]
    constructor <;> rfl
  · exact .refl _

theorem State.hopLimited_lkt : (s.hopLimited p).cal.lkt = s.cal.lkt := by
  unfold State.hopLimited
  split
  · rw [(State.loseRefs_only ..).cal rfl, State.wr_cal, State.setLink_cal, State.abortLinkRun_lkt, State.wr_cal]
  · rfl

/-! ### The partner's widening (R103, R104, R112) -/

theorem State.partnerWiden_rises {w : Bool} (hw : w = true) (hs : (s.link p).widened = false) (h3 : s.rd P.LNK_STATE p = 3) :
    s.partnerWiden p w = (s.setLink p fun l => { l with widened := w }).remeasure p := by
  unfold State.partnerWiden
  exact if_pos (by simp [hw, hs, h3])

theorem State.partnerWiden_quiet {w : Bool} (h : w = false ∨ (s.link p).widened = true ∨ s.rd P.LNK_STATE p ≠ 3) :
    s.partnerWiden p w = s.setLink p fun l => { l with widened := w } := by
  unfold State.partnerWiden
  refine if_neg ?_
  rcases h with h | h | h <;> simp [h]

theorem State.partnerWiden_cases (w : Bool) : s.partnerWiden p w = (s.setLink p fun l => { l with widened := w }) ∨
    s.partnerWiden p w = (s.setLink p fun l => { l with widened := w }).remeasure p := by
  by_cases h : w = false ∨ (s.link p).widened = true ∨ s.rd P.LNK_STATE p ≠ 3
  · exact .inl (s.partnerWiden_quiet p h)
  · simp only [not_or, Bool.not_eq_false, Bool.not_eq_true, not_not] at h
    obtain ⟨hw, hs, h3⟩ := h
    exact .inr (s.partnerWiden_rises p hw hs h3)

theorem State.partnerWiden_continues (w : Bool) : (s.link p).Continues ((s.partnerWiden p w).link p) := by
  have hset := s.setLink_continues p (fun l => { l with widened := w }) (fun _ => rfl) fun _ => by constructor <;> rfl
  rcases s.partnerWiden_cases p w with h | h <;> rw [h]
  · exact hset
  · exact hset.trans (State.remeasure_continues ..)

/-- A port in TRACKING after a message of its partner was in TRACKING before it. -/
theorem State.partnerWiden_tracking {w : Bool} (h : (s.partnerWiden p w).rd P.LNK_STATE p = 3) : s.rd P.LNK_STATE p = 3 := by
  rcases s.partnerWiden_cases p w with hw | hw <;> rw [hw] at h
  · rwa [State.setLink_rd] at h
  · rw [State.remeasure_state] at h; exact absurd h (by decide)

/-! ### An exchange that is discarded (R108) -/

/-- The discard counted, before the port may measure again. -/
def State.discardCounted (s : State) (p : Nat) : State :=
  (s.wr P.LNK_DISCARDS p ((s.rd P.LNK_DISCARDS p + 1) % 2 ^ 48)).setLink p fun l => { l with discards := l.discards + 1 }

theorem State.discardCounted_rd {b : Nat} (hb : b ≠ P.LNK_DISCARDS) (i : Nat) : (s.discardCounted p).rd b i = s.rd b i := by
  rw [State.discardCounted, State.setLink_rd, State.rd_wr_base _ hb]

theorem State.discardCounted_link : (s.discardCounted p).link p = { s.link p with discards := (s.link p).discards + 1 } :=
  State.link_setLink _ _ _ fun _ => rfl

theorem State.discardExchange_eq : s.discardExchange p =
    if s.rd P.LNK_STATE p = 3 ∧ s.rd P.LNK_DISCARD_MAX ≤ (s.link p).discards + 1 then (s.discardCounted p).remeasure p
    else s.discardCounted p := by
  have hc : (s.count P.LNK_DISCARDS p).setLink p (fun l => { l with discards := l.discards + 1 }) = s.discardCounted p := by
    rw [State.count_plain _ _ (by simp [counterIndex, counterSet]), State.discardCounted]
  unfold State.discardExchange
  simp (disch := decide) only [hc, State.discardCounted_rd, State.discardCounted_link]

theorem State.discardExchange_counts :
    (s.discardExchange p).rd P.LNK_DISCARDS p = (s.rd P.LNK_DISCARDS p + 1) % 2 ^ 48 := by
  have hc : (s.discardCounted p).rd P.LNK_DISCARDS p = (s.rd P.LNK_DISCARDS p + 1) % 2 ^ 48 := by
    rw [State.discardCounted, State.setLink_rd, State.rd_wr_self]
  rw [State.discardExchange_eq]
  split
  · exact ((State.remeasure_only ..).rd _ _ (by decide) rfl).trans hc
  · exact hc

theorem State.discardExchange_continues : (s.link p).Continues ((s.discardExchange p).link p) := by
  have hc : (s.link p).Continues ((s.discardCounted p).link p) := by
    rw [State.discardCounted_link]
    constructor <;> rfl
  rw [State.discardExchange_eq]
  split
  · exact hc.trans (State.remeasure_continues ..)
  · exact hc

/-- Too many discards in a row take a port out of TRACKING (R108, R112). -/
theorem State.discardExchange_remeasures (h3 : s.rd P.LNK_STATE p = 3) (hmax : s.rd P.LNK_DISCARD_MAX ≤ (s.link p).discards + 1) :
    (s.discardExchange p).rd P.LNK_STATE p = 4 ∧
      (s.discardExchange p).rd P.LNK_BEVT p = max (s.rd P.LNK_SLIP_WIDEN) (s.link p).suspect := by
  rw [State.discardExchange_eq, if_pos ⟨h3, hmax⟩]
  refine ⟨State.remeasure_state .., ?_⟩
  rw [State.remeasure_bevt, State.discardCounted_rd _ _ (by decide), State.discardCounted_link]

/-! ### The end of MEASURING and REMEASURE (R112, R114) -/

theorem State.measured_tracking (h3 : s.rd P.LNK_STATE p = 3) : s.measured p = s := by
  unfold State.measured
  simp only [h3, Nat.reduceEqDiff, if_false, ite_self]

theorem State.measured_link : ∃ b, (s.measured p).link p = { s.link p with suspect := b } := by
  unfold State.measured
  extract_lets l d t b
  split
  · exact ⟨_, rfl⟩
  split
  · exact ⟨_, rfl⟩
  split
  · split
    · exact ⟨_, State.setBevt_link ..⟩
    · refine ⟨b, ?_⟩
      rw [State.setBevt_link, State.link_setLink _ _ _ (by intro; rfl)]
      rfl
  · exact ⟨_, rfl⟩

theorem State.measured_continues : (s.link p).Continues ((s.measured p).link p) := by
  obtain ⟨b, hl⟩ := s.measured_link p
  rw [hl]; constructor <;> rfl

/-! ### A round trip tested (R108) -/

/-- An accepted round trip taken into the history, with the averaged phase at it. -/
def State.tripTaken (s : State) (p : Nat) (rt phi : Int) : State :=
  (s.wr P.LNK_RT p rt.toNat).setLink p fun l => { l with
    lastRt := some (rt, phi), discards := 0, history := (rt :: l.history).take 256 }

theorem State.tripTaken_link (rt phi : Int) : (s.tripTaken p rt phi).link p =
    { s.link p with lastRt := some (rt, phi), discards := 0, history := (rt :: (s.link p).history).take 256 } :=
  State.link_setLink _ _ _ fun _ => rfl

theorem State.tripTaken_only (rt phi : Int) : Only (some [F.links, P.LNK_RT]) s (s.tripTaken p rt phi) :=
  ((Only.refl _ _).wr rfl _ _).step (State.setLink_only ..) rfl

theorem State.tripTaken_rt (rt phi : Int) : (s.tripTaken p rt phi).rd P.LNK_RT p = rt.toNat := by
  unfold State.tripTaken; rw [State.setLink_rd, State.rd_wr_self]

variable {s p} {rt phi : Int} {f : State → State}

theorem State.roundTrip_accepts (h0 : 0 ≤ rt) (hmax : rt ≤ 250000000)
    (hsteady : ∀ r0 f0, (s.link p).lastRt = some (r0, f0) → s.rd P.LNK_STATE p ≠ 3 ∨
      ((rt - r0) - phasePs (phi - f0)).natAbs ≤ s.rd P.LNK_RT_JUMP) :
    s.roundTrip p rt phi f = (f (s.tripTaken p rt phi)).measured p := by
  unfold State.roundTrip
  cases hrt : (s.link p).lastRt with
  | none =>
    simp only [hrt]
    exact if_pos (by simp [h0, hmax])
  | some x =>
    obtain ⟨r0, f0⟩ := x
    simp only [hrt]
    exact if_pos (by simpa [h0, hmax] using hsteady r0 f0 hrt)

theorem State.roundTrip_discards (h : rt < 0 ∨ 250000000 < rt ∨ ∃ r0 f0, (s.link p).lastRt = some (r0, f0) ∧ s.rd P.LNK_STATE p = 3 ∧
      s.rd P.LNK_RT_JUMP < ((rt - r0) - phasePs (phi - f0)).natAbs) : s.roundTrip p rt phi f = s.discardExchange p := by
  unfold State.roundTrip
  refine if_neg ?_
  rcases h with h | h | ⟨r0, f0, hrt, h3, hjump⟩
  · simp [Int.not_le.mpr h]
  · simp [Int.not_le.mpr h]
  · simp [hrt, h3, hjump]

end

end Sys2Proof.Machine
end

section
/-! ## Locked links: the DDMTD and the end of a slip (R97, R98, R107, R112, R115) -/

namespace Sys2Proof.Machine

/-! ### DDMTD_AVERAGE -/

/-- Whether an average that completes now has moved slowly enough since the one before while the CDR reports lock (R98). -/
def State.averageGood (s : State) (p span : Nat) (avg : Int) : Bool :=
  (match (s.link p).avgAt with
    | some t => decide ((avg - (s.link p).phase).natAbs * 2000 * 10 ^ 9 ≤ s.rd P.LNK_DDMTD_SLEW * max span (s.clock - t) * 2 ^ 24)
    | none => false) && decide (2 < s.rd P.LAN_STATE p)

/-- The record of a link with an average taken into it. -/
def Link.averaged (l : Link) (clock : Nat) (avg : Int) (good : Bool) : Link :=
  { l with phase := avg, avgAt := some clock, valid := l.valid && good,
           goodSince := if good then (match l.goodSince with | some x => some x | none => some clock) else none }

/-- The average shown and taken into the record of the port. -/
def State.averaged (s : State) (p : Nat) (avg : Int) (good : Bool) : State :=
  (s.wr P.LNK_PHASE p (roundDiv avg 1024 % 16384).toNat).setLink p fun l => l.averaged s.clock avg good

/-- The state that an average leaves: the references and θ follow it. -/
def State.averageShown (s : State) (p : Nat) (avg : Int) (good : Bool) : State := ((s.averaged p avg good).linkBref p).showTheta p

section
variable {s : State} {port : Fin 512} {firsts : List (Fin 16384)} {runs : List Nat}

theorem exec_ddmtdAverage_shown {beats : List (Fin 16384)} {avg : Int} {span : Nat}
    (hbeats : beats = beatEdges (s.rd P.LNK_DDMTD_GLITCH) firsts runs) (hlocked : s.lockedPort port.val = true)
    (hdivider : (s.link port.val).divider = true) (hlen : beats.length = 2 ^ s.rd P.LNK_DDMTD_AVG)
    (hspan : span = beatNs * 2 ^ s.rd P.LNK_DDMTD_AVG) (hgap : s.gapWithin span = false)
    (havg : avg = beatAverage (s.link port.val).phase beats) :
    exec (.ddmtdAverage port firsts runs) s =
      .next (s.averageShown port.val avg (s.averageGood port.val span avg)) := by
  subst hbeats hspan havg
  exact if_neg (by simp [hlocked, hdivider, hlen, hgap])

theorem exec_ddmtdAverage_discarded (h : s.lockedPort port.val = false ∨ (s.link port.val).divider = false ∨
      (beatEdges (s.rd P.LNK_DDMTD_GLITCH) firsts runs).length ≠ 2 ^ s.rd P.LNK_DDMTD_AVG ∨ s.time.gap ≠ none ∨
      ∃ t0, s.time.gapEnd = some t0 ∧ s.clock < t0 + beatNs * 2 ^ s.rd P.LNK_DDMTD_AVG) :
    exec (.ddmtdAverage port firsts runs) s = .next s := by
  refine if_pos ?_
  rcases h with h | h | h | h | ⟨t0, hend, hlate⟩
  · exact .inl (by simp [h])
  · exact .inr (.inl (by simp [h]))
  · exact .inr (.inr (.inl h))
  · exact .inr (.inr (.inr (by simp [State.gapWithin, State.inGap, Option.isSome_iff_ne_none, h])))
  · exact .inr (.inr (.inr (by simp [State.gapWithin, hend, hlate])))

end

section
variable (s : State) (p span : Nat) (avg : Int) (good : Bool)

theorem State.averaged_link : (s.averaged p avg good).link p = (s.link p).averaged s.clock avg good :=
  State.link_setLink _ _ _ fun _ => rfl

theorem State.averaged_phase : (s.averaged p avg good).rd P.LNK_PHASE p = (roundDiv avg 1024 % 16384).toNat := by
  unfold State.averaged; rw [State.setLink_rd, State.rd_wr_self]

theorem Link.averaged_good (l : Link) (clock : Nat) :
    (l.averaged clock avg true).valid = l.valid ∧ (l.averaged clock avg true).goodSince.isSome = true := by
  refine ⟨Bool.and_true _, ?_⟩
  show (match l.goodSince with | some x => some x | none => some clock).isSome = true
  cases l.goodSince <;> rfl

theorem Link.averaged_bad (l : Link) (clock : Nat) :
    (l.averaged clock avg false).valid = false ∧ (l.averaged clock avg false).goodSince = none := ⟨Bool.and_false _, rfl⟩

/-- An average is good just where there was one before, it has moved slowly enough, and the CDR reports lock. -/
theorem State.averageGood_iff : s.averageGood p span avg = true ↔ (∃ t0, (s.link p).avgAt = some t0 ∧
    (avg - (s.link p).phase).natAbs * 2000 * 10 ^ 9 ≤ s.rd P.LNK_DDMTD_SLEW * max span (s.clock - t0) * 2 ^ 24) ∧
      2 < s.rd P.LAN_STATE p := by
  unfold State.averageGood
  cases (s.link p).avgAt <;> simp

theorem State.averageShown_only : Only (some ([F.cmd, F.fault, F.fresh, F.refs, F.rings, F.servo, P.CMD_NOTICE_DROP, P.HLT_FAULT_COUNT,
    P.HLT_STICKY, P.LNK_OFFSET, P.REF_ACTIVE, P.REF_BREF, P.REF_DEV, P.REF_FLAGS] ++ [P.REF_HO_C, P.REF_HO_D, P.REF_HO_Y0, P.REF_KIND,
    P.REF_QSTATE, P.REF_SWLOG_HEAD, P.REF_SWLOG_INFO, P.REF_SWLOG_TIME, P.REF_TSTATE, P.TBS_BOUND_NOW, P.TBS_BOUND_PS,
    P.TBS_DOM_SELECTED])) (s.averaged p avg good) (s.averageShown p avg good) :=
  ((State.linkBref_only ..).mono rfl).step (State.showTheta_only ..) rfl

theorem State.averageShown_link : (s.averageShown p avg good).link p = (s.link p).averaged s.clock avg good :=
  ((s.averageShown_only p avg good).link rfl p).trans (s.averaged_link p avg good)

theorem State.averageShown_phase : (s.averageShown p avg good).rd P.LNK_PHASE p = (roundDiv avg 1024 % 16384).toNat :=
  ((s.averageShown_only p avg good).rd _ _ (by decide) rfl).trans (s.averaged_phase p avg good)

theorem State.averageShown_lockedPort : (s.averageShown p avg good).lockedPort p = s.lockedPort p :=
  ((s.averageShown_only p avg good).lockedPort rfl p).trans (by
    unfold State.lockedPort State.averaged; rw [State.setLink_rd, State.rd_wr_base _ (by decide)])

theorem State.averageShown_offset {r f : Int} (hrole : s.rd P.LNK_ROLE p = 1) (hrt : (s.link p).lastRt = some (r, f)) :
    (s.averageShown p avg good).rdS 64 P.LNK_OFFSET p = clampS 64 ((s.link p).theta + phasePs (avg - f)) := by
  have hframe := (s.averaged p avg good).linkBref_only p
  have hlink : ((s.averaged p avg good).linkBref p).link p = (s.link p).averaged s.clock avg good :=
    (hframe.link rfl p).trans (s.averaged_link p avg good)
  have hrole' : ((s.averaged p avg good).linkBref p).rd P.LNK_ROLE p = 1 := by
    rw [hframe.rd _ _ (by decide) rfl, State.averaged, State.setLink_rd, State.rd_wr_base _ (by decide), hrole]
  have hshown := State.showTheta_offset (f := f) hrole' (by rw [hlink]; exact hrt)
  rwa [hlink] at hshown

end

/-- An average that is not good makes the DDMTD invalid (R98). -/
theorem State.averageShown_bad {s : State} {p : Nat} (hlocked : s.lockedPort p = true) (avg : Int) :
    ((s.averageShown p avg false).link p).valid = false ∧ ((s.averageShown p avg false).linkFlags p).testBit 2 = true ∧
      (s.averageShown p avg false).bEvt p = (s.averageShown p avg false).rd P.TBS_FREE_Q ∧
      ((s.averageShown p avg false).link p).goodSince = none := by
  obtain ⟨hvalid, hsince⟩ := (s.link p).averaged_bad avg s.clock
  rw [← s.averageShown_link] at hvalid hsince
  have hl : (s.averageShown p avg false).lockedPort p = true := (s.averageShown_lockedPort p avg false).trans hlocked
  refine ⟨hvalid, ?_, State.bEvt_invalid hl hvalid, hsince⟩
  rw [State.linkFlags_invalid, hl, hvalid]; rfl

/-! ### DDMTD_SETTLE -/

/-- The DDMTD of a port is valid, and the references and the state of the link follow. -/
def State.settled (s : State) (p : Nat) : State := ((s.setLink p fun l => { l with valid := true }).linkBref p).linkAdvance p

section
variable {s : State} {port : Fin 512} {t0 : Nat}

theorem exec_ddmtdSettle_settles (hgood : (s.link port.val).goodSince = some t0) (hlocked : s.lockedPort port.val = true)
    (hdue : t0 + s.rd P.LNK_DDMTD_SETTLE * 1000000 ≤ s.clock) : exec (.ddmtdSettle port) s = .next (s.settled port.val) := by
  show execDdmtdSettle port s = _
  unfold execDdmtdSettle
  simp only [hgood]
  exact if_pos ⟨hlocked, hdue⟩

theorem exec_ddmtdSettle_waits (h : ∀ t0, (s.link port.val).goodSince = some t0 → s.lockedPort port.val = false ∨
      s.clock < t0 + s.rd P.LNK_DDMTD_SETTLE * 1000000) : exec (.ddmtdSettle port) s = .next s := by
  show execDdmtdSettle port s = _
  unfold execDdmtdSettle
  cases hgood : (s.link port.val).goodSince with
  | none => simp only [hgood]
  | some t0 =>
    simp only [hgood]
    refine if_neg ?_
    rintro ⟨hlocked, hdue⟩
    rcases h t0 hgood with hfree | hearly
    · rw [hfree] at hlocked; exact Bool.false_ne_true hlocked
    · exact absurd hdue (Nat.not_le.mpr hearly)

end

section
variable (s : State) (p : Nat)

theorem State.settled_valid : ((s.settled p).link p).valid = true := by
  have hframe := (s.setLink p fun l => { l with valid := true }).linkBref_only p
  refine ((State.linkAdvance_continues ..).valid).trans ?_
  rw [hframe.link rfl p, State.link_setLink _ _ _ (by intro; rfl)]

theorem State.settled_state : (s.settled p).rd P.LNK_STATE p =
    if s.rd P.LNK_STATE p = 1 ∧ (s.link p).partner = true ∧ (s.rd P.LNK_FLAGS p).testBit 0 = false then 2 else s.rd P.LNK_STATE p := by
  have hframe := (s.setLink p fun l => { l with valid := true }).linkBref_only p
  unfold State.settled
  rw [State.linkAdvance_state, hframe.rd _ _ (by decide) rfl, hframe.rd P.LNK_FLAGS _ (by decide) rfl, hframe.link rfl p,
    State.setLink_rd, State.setLink_rd, State.link_setLink _ _ _ (by intro; rfl)]
  simp only [true_and, Bool.not_eq_true]

end

/-! ### SLIP_HOLD_EXPIRY -/

/-- The hold of a slip is over: the widening is that of a suspected slip again. -/
def State.slipHeld (s : State) (p : Nat) : State := (s.setBevt p (s.link p).suspect).setLink p fun l => { l with slipUntil := none }

theorem exec_slipHoldExpiry_ends {s : State} {port : Fin 512} {t0 : Nat} (huntil : (s.link port.val).slipUntil = some t0)
    (hdue : t0 ≤ s.clock) : exec (.slipHoldExpiry port) s = .next (s.slipHeld port.val) := by
  show execSlipHoldExpiry port s = _
  unfold execSlipHoldExpiry
  simp only [huntil]
  exact if_pos hdue

theorem exec_slipHoldExpiry_waits {s : State} {port : Fin 512} (h : ∀ t0, (s.link port.val).slipUntil = some t0 → s.clock < t0) :
    exec (.slipHoldExpiry port) s = .next s := by
  show execSlipHoldExpiry port s = _
  unfold execSlipHoldExpiry
  cases huntil : (s.link port.val).slipUntil with
  | none => simp only [huntil]
  | some t0 =>
    simp only [huntil]
    exact if_neg (Nat.not_le.mpr (h t0 huntil))

/-! ### The obligation -/

/-- Settles O43: the references and θ that follow an average, a settled DDMTD or the end of a slip leave the link's record alone. -/
theorem linkPhaseAndSlips : Obligations.LinkPhaseAndSlips := by
  unfold Obligations.LinkPhaseAndSlips
  refine ⟨?_, ?_, ?_, ?_, ?_, ?_⟩
  · intro port firsts runs beats s avg span hbeats hlocked hdivider hlen hspan hgap havg
    have hexec := exec_ddmtdAverage_shown hbeats hlocked hdivider hlen hspan hgap havg
    have hlink := s.averageShown_link port.val avg (s.averageGood port.val span avg)
    refine ⟨_, hexec, s.averageShown_phase .., congrArg Link.phase hlink, congrArg Link.avgAt hlink, ?_, ?_,
      fun rt f hrole hrt => s.averageShown_offset _ _ _ hrole hrt, (execDdmtdAverage_only port firsts runs s).next _ hexec⟩
    · intro t0 hbefore hslow hlane
      have hgood : s.averageGood port.val span avg = true := (s.averageGood_iff ..).mpr ⟨⟨t0, hbefore, hslow⟩, hlane⟩
      rw [hlink, hgood]
      exact (s.link port.val).averaged_good avg s.clock
    · intro hbad
      have hgood : s.averageGood port.val span avg = false := by
        rw [Bool.eq_false_iff, ne_eq, State.averageGood_iff]
        rintro ⟨⟨t0, hbefore, hslow⟩, hlane⟩
        rcases hbad with hnone | hlock | ⟨t1, hbefore', hfast⟩
        · exact Option.some_ne_none t0 (hbefore.symm.trans hnone)
        · exact Nat.not_lt.mpr hlock hlane
        · obtain rfl : t0 = t1 := Option.some.inj (hbefore.symm.trans hbefore')
          exact Nat.not_lt.mpr hslow hfast
      rw [hgood]
      exact State.averageShown_bad hlocked avg
  · exact fun port firsts runs s h => exec_ddmtdAverage_discarded h
  · intro port s t0 hgood hlocked hdue
    have hexec := exec_ddmtdSettle_settles hgood hlocked hdue
    have hvalid := s.settled_valid port.val
    refine ⟨_, hexec, hvalid, ?_, State.bEvt_valid hvalid, s.settled_state .., (execDdmtdSettle_only port s).next _ hexec⟩
    rw [State.linkFlags_invalid, hvalid, Bool.not_true, Bool.and_false]
  · exact fun port s h => exec_ddmtdSettle_waits h
  · intro port s t0 huntil hdue
    have hexec := exec_slipHoldExpiry_ends huntil hdue
    refine ⟨_, hexec, (State.setLink_rd ..).trans (s.setBevt_bevt ..), ?_, (execSlipHoldExpiry_only port s).next _ hexec⟩
    rw [State.slipHeld, State.link_setLink _ _ _ (by intro; rfl)]
  · exact fun port s h => exec_slipHoldExpiry_waits h

end Sys2Proof.Machine
end

section
/-! ## Locked links: the bound of the references that a link carries, and the messages it sends (R101 to R110) -/

namespace Sys2Proof.Machine

/-! ### Registers on which two states agree -/

/-- Two states agree on the parameters listed. -/
def Agrees (reads : List Nat) (s t : State) : Prop := ∀ b ∈ reads, ∀ i, t.rd b i = s.rd b i

theorem Agrees.trans {reads : List Nat} {s t u : State} (h : Agrees reads s t) (g : Agrees reads t u) : Agrees reads s u :=
  fun b hb i => (g b hb i).trans (h b hb i)

/-- Whether a frame leaves all the parameters listed as they were. -/
def spares (W : Option (List Nat)) (reads : List Nat) : Bool := reads.all fun b => decide (62 ≤ b) && !allows W b

theorem Only.agrees {W : Option (List Nat)} {s t : State} (h : Only W s t) {reads : List Nat} (hr : spares W reads = true) :
    Agrees reads s t := by
  intro b hb i
  have hone := List.all_eq_true.mp hr b hb
  rw [Bool.and_eq_true, decide_eq_true_eq, Bool.not_eq_true'] at hone
  exact h.rd b i hone.1 hone.2

/-! ### B_ref of a LINK reference (R109) -/

/-- The parameters of which the bound of a link is made. -/
def boundReads : List Nat := [P.LNK_CLASS, P.LNK_ASYM_RES, P.LNK_ASYM_UNCAL_PPM, P.LNK_RT, P.LNK_BEVT, P.LNK_HOP_MARGIN, P.CAL_PORT_RES,
  P.TBS_FREE_Q]

section
variable {s t : State} {p : Nat}

theorem Agrees.bEvt (h : Agrees [P.LNK_CLASS, P.TBS_FREE_Q, P.LNK_BEVT] s t) (hv : (t.link p).valid = (s.link p).valid) :
    t.bEvt p = s.bEvt p := by
  unfold State.bEvt State.lockedPort
  rw [h _ (by decide), h _ (by decide), h _ (by decide), hv]

theorem Agrees.bPort (h : Agrees [P.LNK_CLASS, P.TBS_FREE_Q, P.CAL_PORT_RES] s t) (p : Nat) : t.bPort p = s.bPort p := by
  unfold State.bPort State.lockedPort
  rw [h _ (by decide), h _ (by decide), h _ (by decide)]

theorem Agrees.sub {reads some_ : List Nat} (h : Agrees reads s t) (hs : ∀ b ∈ some_, b ∈ reads) : Agrees some_ s t :=
  fun b hb => h b (hs b hb)

theorem Agrees.bHop (h : Agrees boundReads s t) (hv : (t.link p).valid = (s.link p).valid)
    (hs : (t.link p).sender = (s.link p).sender) : t.bHop p = s.bHop p := by
  unfold State.bHop State.bAsym
  rw [(h.sub (by decide)).bPort, (h.sub (by decide)).bEvt hv, hs, h _ (by decide), h _ (by decide), h _ (by decide), h _ (by decide)]

theorem Agrees.linkBound (h : Agrees boundReads s t) (hl : t.link p = s.link p) : t.linkBound p = s.linkBound p := by
  unfold State.linkBound
  rw [h.bHop (congrArg Link.valid hl) (congrArg Link.sender hl), hl]

end

/-- What a reference brought up to date may change beside its own B_ref. -/
def refreshFrame : Option (List Nat) := some ([F.cmd, F.fault, F.fresh, F.refs, F.rings, F.servo, P.CMD_NOTICE_DROP, P.HLT_FAULT_COUNT,
  P.HLT_STICKY, P.REF_ACTIVE, P.REF_DEV, P.REF_FLAGS, P.REF_HO_C, P.REF_HO_D, P.REF_HO_Y0, P.REF_KIND, P.REF_QSTATE, P.REF_SWLOG_HEAD] ++
  [P.REF_SWLOG_INFO, P.REF_SWLOG_TIME, P.REF_TSTATE, P.TBS_BOUND_NOW, P.TBS_BOUND_PS, P.TBS_DOM_SELECTED])

section
variable (s : State) (r : Nat)

/-- Beyond its B_ref, a reference that is brought up to date changes no B_ref. -/
theorem State.refreshRef_shown : Only refreshFrame (s.showBref r (s.brefOf r)) (s.refreshRef r) := by
  unfold State.refreshRef
  generalize s.showBref r (s.brefOf r) = u
  have henter : ∀ q, Only refreshFrame u (u.enterQ r q) := fun q => (u.enterQ_only r q).mono rfl
  have hreselect : ∀ (v : State) (cause lost : Nat), Only refreshFrame u v → Only refreshFrame u (v.reselect cause lost) :=
    fun v cause lost h => h.step (State.reselect_only ..) rfl
  have habsent : Only refreshFrame u (if u.qstate r = 6 then u.enterQ r 0 else u) := .cond _ (henter 0) (.refl _ _)
  have hkind : Only refreshFrame u (u.wr P.REF_KIND r 0) := (Only.refl _ _).wr rfl _ _
  extract_lets t k gone
  refine .cond _ (.cond _ (.cond _ ?_ habsent) ?_) (.cond _ hkind ?_)
  · exact habsent.step (State.keepWtr_only ..) rfl
  · exact hreselect _ _ _ (habsent.wr rfl _ _)
  · exact hreselect _ _ _ (hkind.step (State.enterQ_only ..) rfl)

theorem State.refreshRef_bref (i : Nat) : (s.refreshRef r).rd P.REF_BREF i = if i = r then s.brefOf r else s.rd P.REF_BREF i := by
  rw [(s.refreshRef_shown r).rd _ _ (by decide) rfl]
  unfold State.showBref
  rw [State.setMon_rd, State.rd_wr]
  simp

end

/-- The parameters of which B_ref of a LINK reference is made. -/
def linkReads : List Nat := [P.REF_LINK_PORT, P.LNK_ROLE] ++ boundReads

section
variable {s : State} {p r : Nat}

theorem State.mem_linkRefs : r ∈ s.linkRefs p ↔ (r = 3 ∨ r = 4 ∨ r = 5 ∨ r = 6) ∧ s.rd P.REF_LINK_PORT (r - 3) = p := by
  simp [State.linkRefs]

theorem Agrees.linkRefs {t : State} (h : Agrees [P.REF_LINK_PORT] s t) (p : Nat) : t.linkRefs p = s.linkRefs p := by
  unfold State.linkRefs
  simp only [h P.REF_LINK_PORT (by decide)]

/-- B_ref of a reference that takes its time over a TIME_IN port is the bound of the link (R67, R109). -/
theorem State.brefOf_link (hp : p < 512) (hlocked : s.lockedPort p = true) (hrole : s.rd P.LNK_ROLE p = 1) (hr : r ∈ s.linkRefs p) :
    s.brefOf r = s.linkBound p := by
  obtain ⟨hidx, hport⟩ := State.mem_linkRefs.mp hr
  have hconf : s.refConfigured r = true := by
    rcases hidx with rfl | rfl | rfl | rfl <;> simp only [State.refConfigured, Nat.reduceSub] at hport ⊢ <;>
      simp only [hport, hp, hlocked, hrole, decide_true, BEq.rfl, Bool.and_self]
  unfold State.brefOf
  rw [if_neg (not_not_intro hconf)]
  rcases hidx with rfl | rfl | rfl | rfl <;> simp only [hport]

theorem State.refreshRefs_bref (hp : p < 512) (hlocked : s.lockedPort p = true) (hrole : s.rd P.LNK_ROLE p = 1) (rs : List Nat)
    (hrs : ∀ x ∈ rs, x ∈ s.linkRefs p) (u : State) (hu : Agrees linkReads s u) (hlink : u.link p = s.link p)
    (hr : r ∈ rs ∨ u.rd P.REF_BREF r = s.linkBound p) : (rs.foldl State.refreshRef u).rd P.REF_BREF r = s.linkBound p := by
  induction rs generalizing u with
  | nil => exact hr.resolve_left List.not_mem_nil
  | cons x rs ih =>
    have hframe := u.refreshRef_only x
    have hlocked' : u.lockedPort p = true := by
      unfold State.lockedPort at hlocked ⊢; rw [hu _ (by decide)]; exact hlocked
    have hx : u.brefOf x = s.linkBound p := by
      rw [State.brefOf_link hp hlocked' ((hu _ (by decide) p).trans hrole)
        (by rw [(hu.sub (by decide)).linkRefs]; exact hrs x List.mem_cons_self), (hu.sub (by decide)).linkBound hlink]
    refine ih (fun y hy => hrs y (List.mem_cons_of_mem x hy)) _ (hu.trans (hframe.agrees rfl)) ((hframe.link rfl p).trans hlink) ?_
    rw [State.refreshRef_bref]
    by_cases hrx : r = x
    · exact .inr (by rw [if_pos hrx, hx])
    · rw [if_neg hrx]
      exact hr.imp_left fun h => (List.mem_cons.mp h).resolve_left hrx

theorem State.linkBref_bref (hp : p < 512) (hlocked : s.lockedPort p = true) (hrole : s.rd P.LNK_ROLE p = 1) (hr : r ∈ s.linkRefs p) :
    (s.linkBref p).rd P.REF_BREF r = s.linkBound p :=
  State.refreshRefs_bref hp hlocked hrole _ (fun _ h => h) s (fun _ _ _ => rfl) rfl (.inl hr)

end

/-! ### Messages that a port sends (R101, R407) -/

/-- The parameters of which a message of the module and its way out are made. -/
def messageReads : List Nat := [P.HIE_ENABLE, P.PRT_LINK_UP, P.LNK_ROLE, P.LNK_CLASS, P.HIE_PORT_EN, P.PWR_SHUTTER_STATE,
  P.HIE_PORT_MAC_BASE, P.HIE_PORT_VERSION, P.HIE_IDENTITY]

section
variable {s t : State} {p : Nat}

theorem Agrees.nhpRuns (h : Agrees messageReads s t) (p : Nat) : t.nhpRuns p = s.nhpRuns p := by
  unfold State.nhpRuns State.rdb
  rw [h _ (by decide), h _ (by decide), h _ (by decide), h _ (by decide), h _ (by decide), h _ (by decide)]

/-- A message sent from a state that agrees with another on what it is made of is the message of the other. -/
theorem Agrees.nhpSend_out (h : Agrees messageReads s t) (hruns : s.nhpRuns p = true) (hout : t.out = s.out) (type : Nat)
    (body : List Byte) : (t.nhpSend p type body).out =
      s.out ++ [.frame p (s.nhpFrame p (s.rd P.HIE_PORT_VERSION p) type 8 (s.rd P.HIE_IDENTITY) p body)] := by
  unfold State.nhpSend
  rw [if_pos ((h.nhpRuns p).trans hruns), State.emit_out, State.stamped_out, hout, h _ (by decide), h _ (by decide)]
  unfold State.nhpFrame State.portMac
  rw [h _ (by decide)]

theorem State.nhpSend_link (s : State) (p type : Nat) (body : List Byte) (q : Nat) : (s.nhpSend p type body).link q = s.link q :=
  (s.nhpSend_only p type body).link rfl q

theorem State.nhpSend_rd (s : State) (p type : Nat) (body : List Byte) {b : Nat} (hb : 62 ≤ b)
    (hw : allows (some [P.TBS_OVER_LIMIT_COUNT]) b = false) (i : Nat) : (s.nhpSend p type body).rd b i = s.rd b i :=
  (s.nhpSend_only p type body).rd b i hb hw

/-- The instant of a transmit stamp, without its code and flags, is made of the lane, the phase of CK_LKT and the calibration (R62). -/
theorem Agrees.txMark_time (h : Agrees [P.LNK_CLASS, P.LAN_RATE, P.PRT_FEC, P.CAL_DTX] s t)
    (hv : (t.link p).valid = (s.link p).valid) (hlkt : t.cal.lkt = s.cal.lkt) (r : RawStamp) :
    (t.txMark p r).ns = (s.txMark p r).ns ∧ (t.txMark p r).sub = (s.txMark p r).sub := by
  have htime : t.txTime p r = s.txTime p r := by
    unfold State.txTime State.txEdge State.ddmtdRuns State.lockedPort State.rateOf State.rdb
    rw [h _ (by decide), h _ (by decide), h _ (by decide), h _ (by decide), hv, hlkt]
  constructor
  · show (splitPs (t.txTime p r)).1 = (splitPs (s.txTime p r)).1
    rw [htime]
  · show (splitPs (t.txTime p r)).2 = (splitPs (s.txTime p r)).2
    rw [htime]

/-! ### The roles of the two ends (R100, R112) -/

theorem State.timingRuns_nhpRuns (h : s.timingRuns p = true) : s.nhpRuns p = true := by
  simp only [State.timingRuns, Bool.and_eq_true] at h
  exact h.1.1.1

theorem State.timingRuns_lockedPort (h : s.timingRuns p = true) : s.lockedPort p = true := by
  simp only [State.timingRuns, State.timeRole, Bool.and_eq_true] at h
  exact h.1.1.2.1

@[simp] theorem State.stamped_timingRuns (s : State) (q p : Nat) : (s.stamped q).timingRuns p = s.timingRuns p := by
  have hruns : (s.stamped q).nhpRuns p = s.nhpRuns p := ((s.stamped_only q).agrees rfl).nhpRuns p
  simp (disch := decide) [State.timingRuns, State.timeRole, hruns]

end

section
variable (s : State) (p : Nat)

/-- A message of the opposite role noted, before the port advances. -/
def State.partnerSeen (s : State) (p : Nat) : State := (s.linkFlag p 0 false).setLink p fun l => { l with partner := true }

theorem State.roleSeen_opposite : s.roleSeen p true = (s.partnerSeen p).linkAdvance p := rfl

theorem State.partnerSeen_rd {b : Nat} (hb : b ≠ P.LNK_FLAGS) (i : Nat) : (s.partnerSeen p).rd b i = s.rd b i := by
  rw [State.partnerSeen, State.setLink_rd, State.linkFlag, State.rd_wr_base _ hb]

theorem State.roleSeen_continues : (s.link p).Continues ((s.roleSeen p true).link p) := by
  rw [State.roleSeen_opposite]
  refine Link.Continues.trans ?_ (State.linkAdvance_continues ..)
  rw [State.partnerSeen, State.link_setLink _ _ _ (by intro; rfl)]
  constructor <;> rfl

theorem State.roleSeen_flag : ((s.roleSeen p true).rd P.LNK_FLAGS p).testBit 0 = false := by
  rw [State.roleSeen_opposite, (State.linkAdvance_only ..).rd _ _ (by decide) rfl, State.partnerSeen, State.setLink_rd, State.linkFlag,
    State.rd_wr_self, putBit_testBit_self]

/-- The partner's role takes a port out of SYNTONIZING at most. -/
theorem State.roleSeen_state (h : s.rd P.LNK_STATE p ≠ 1) : (s.roleSeen p true).rd P.LNK_STATE p = s.rd P.LNK_STATE p := by
  rw [State.roleSeen_opposite, State.linkAdvance_state, State.partnerSeen_rd _ _ (by decide), if_neg fun hc => h hc.1]

theorem State.roleSeen_tracking (h : (s.roleSeen p true).rd P.LNK_STATE p = 3) : s.rd P.LNK_STATE p = 3 := by
  by_cases h1 : s.rd P.LNK_STATE p = 1
  · rw [State.roleSeen_opposite, State.linkAdvance_state, State.partnerSeen_rd _ _ (by decide)] at h
    split at h
    · exact absurd h (by decide)
    · exact h
  · rwa [s.roleSeen_state p h1] at h

theorem State.roleSeen_out : (s.roleSeen p true).out = s.out := by
  rw [State.roleSeen_opposite, State.linkAdvance_out, State.partnerSeen, State.setLink_out, State.linkFlag, State.wr_out]

/-- A message of the same role while SYNTONIZING is a conflict of roles (R100). -/
theorem State.roleSeen_same (h1 : s.rd P.LNK_STATE p = 1) : s.roleSeen p false = s.linkFlag p 0 true := by
  unfold State.roleSeen
  rw [if_neg Bool.false_ne_true, if_pos h1]

theorem State.roleSeen_idle (h1 : s.rd P.LNK_STATE p ≠ 1) : s.roleSeen p false = s := by
  unfold State.roleSeen
  rw [if_neg Bool.false_ne_true, if_neg h1]

end

end Sys2Proof.Machine
end

section
/-! ## Locked links: the exchange of a time link (R58, R100 to R111, R119) -/

namespace Sys2Proof.Machine

/-! ### TSYNC_SEND (R105) -/

/-- A TSYNC sent with the next sequence number, and its transmit stamp kept. -/
def State.tsyncSent (s : State) (p : Nat) (raw1 : RawStamp) : State :=
  (s.nhpSend p 0x10 (s.tsyncBody (s.link p).seq (s.txMark p raw1))).setLink p fun l => { l with
    seq := ((s.link p).seq + 1) % 65536
    sent := (l.sent.filter fun y => y.1 != (s.link p).seq) ++ [((s.link p).seq, (s.txMark p raw1).units)] }

theorem State.tsyncSent_link (s : State) (p : Nat) (raw1 : RawStamp) : (s.tsyncSent p raw1).link p = { s.link p with
    seq := ((s.link p).seq + 1) % 65536
    sent := ((s.link p).sent.filter fun y => y.1 != (s.link p).seq) ++ [((s.link p).seq, (s.txMark p raw1).units)] } := by
  rw [State.tsyncSent, State.link_setLink _ _ _ (by intro; rfl), State.nhpSend_link]

section
variable {s : State} {port : Fin 512} {raw1 : RawStamp}

theorem exec_tsyncSend_sends (hruns : s.timingRuns port.val = true) (hrole : s.rd P.LNK_ROLE port.val = 2)
    (hfree : s.class7Free port.val = true) : exec (.tsyncSend port raw1) s = .next (s.tsyncSent port.val raw1) :=
  if_pos ⟨hruns, hrole, hfree⟩

theorem exec_tsyncSend_waits (h : s.timingRuns port.val = false ∨ s.rd P.LNK_ROLE port.val ≠ 2 ∨ s.class7Free port.val = false) :
    exec (.tsyncSend port raw1) s = .next s := by
  refine if_neg ?_
  rintro ⟨hruns, hrole, hfree⟩
  rcases h with h | h | h
  · exact Bool.false_ne_true (h.symm.trans hruns)
  · exact h hrole
  · exact Bool.false_ne_true (h.symm.trans hfree)

end

/-! ### TSYNC (R102, R105, R111) -/

section
variable (s : State) (p : Nat) (body : List Byte)

theorem State.announceLeap_out (l : Nat) : (s.announceLeap l).out = s.out := by
  unfold State.announceLeap
  split <;> rfl

theorem State.upstreamUtc_out : (s.upstreamUtc p body).out = s.out := by
  unfold State.upstreamUtc
  extract_lets a
  split
  · exact State.announceLeap_out ..
  · rfl

theorem State.upstreamUtc_other (h : s.rd P.TBS_UTC_SOURCE ≠ 2) : s.upstreamUtc p body = s := by
  unfold State.upstreamUtc
  exact if_neg fun hc => h hc.1

/-- What a TSYNC says of the partner's role and of UTC is taken. -/
def State.tsyncTaken (s : State) (p : Nat) (body : List Byte) : State := (s.roleSeen p true).upstreamUtc p body

theorem State.tsyncTaken_only : Only (some [F.links, F.shadows, F.time, P.LNK_FLAGS, P.LNK_STATE, P.TBS_LEAP, P.TBS_UTC_OFFSET,
    P.TBS_UTC_VALID]) s (s.tsyncTaken p body) := ((s.roleSeen_only p true).mono rfl).step (State.upstreamUtc_only ..) rfl

theorem State.tsyncTaken_continues : (s.link p).Continues ((s.tsyncTaken p body).link p) :=
  (s.roleSeen_continues p).trans (.of_eq ((State.upstreamUtc_only ..).link rfl p))

theorem State.tsyncTaken_out : (s.tsyncTaken p body).out = s.out := (State.upstreamUtc_out ..).trans (s.roleSeen_out p)

theorem State.tsyncTaken_flag : ((s.tsyncTaken p body).rd P.LNK_FLAGS p).testBit 0 = false := by
  rw [State.tsyncTaken, (State.upstreamUtc_only ..).rd _ _ (by decide) rfl, State.roleSeen_flag]

theorem State.tsyncTaken_state (h : s.rd P.LNK_STATE p ≠ 1) : (s.tsyncTaken p body).rd P.LNK_STATE p = s.rd P.LNK_STATE p := by
  rw [State.tsyncTaken, (State.upstreamUtc_only ..).rd _ _ (by decide) rfl, s.roleSeen_state p h]

theorem State.tsyncTaken_offset (h : s.rd P.TBS_UTC_SOURCE ≠ 2) : (s.tsyncTaken p body).rd P.TBS_UTC_OFFSET = s.rd P.TBS_UTC_OFFSET := by
  have hrole := s.roleSeen_only p true
  rw [State.tsyncTaken, State.upstreamUtc_other _ _ _ (by rwa [hrole.rd _ _ (by decide) rfl]), hrole.rd _ _ (by decide) rfl]

/-- A TSYNC taken, with the hop count that it names. -/
def State.tsyncHeard (s : State) (p : Nat) (body : List Byte) : State :=
  if 8 ≤ beAt 21 1 body then ((s.tsyncTaken p body).linkFlag p 4 true).hopLimited p else (s.tsyncTaken p body).linkFlag p 4 false

theorem State.tsyncHeard_near (h : beAt 21 1 body < 8) : s.tsyncHeard p body = (s.tsyncTaken p body).linkFlag p 4 false :=
  if_neg (Nat.not_le.mpr h)

theorem State.tsyncHeard_far (h : 8 ≤ beAt 21 1 body) : s.tsyncHeard p body = ((s.tsyncTaken p body).linkFlag p 4 true).hopLimited p :=
  if_pos h

theorem State.tsyncHeard_only : Only (some ([F.cal, F.cmd, F.fault, F.fresh, F.linkRun, F.links, F.refs, F.rings, F.servo, F.shadows,
    F.time, P.CMD_NOTICE_DROP, P.CMD_REFUSED_COUNT, P.HLT_FAULT_COUNT, P.HLT_STICKY, P.LNK_BEVT, P.LNK_FLAGS, P.LNK_STATE] ++
    [P.REF_ACTIVE, P.REF_DEV, P.REF_FLAGS, P.REF_HO_C, P.REF_HO_D, P.REF_HO_Y0, P.REF_QSTATE, P.REF_SWLOG_HEAD, P.REF_SWLOG_INFO,
    P.REF_SWLOG_TIME, P.REF_TSTATE, P.TBS_BOUND_NOW, P.TBS_BOUND_PS, P.TBS_DOM_SELECTED, P.TBS_LEAP, P.TBS_OVER_LIMIT_COUNT,
    P.TBS_UTC_OFFSET, P.TBS_UTC_VALID])) s (s.tsyncHeard p body) :=
  .cond _ ((((s.tsyncTaken_only p body).mono rfl).step (State.linkFlag_only ..) rfl).step (State.hopLimited_only ..) rfl)
    (((s.tsyncTaken_only p body).mono rfl).step (State.linkFlag_only ..) rfl)

theorem State.tsyncHeard_continues : (s.link p).Continues ((s.tsyncHeard p body).link p) := by
  have hflag : ∀ b, (s.link p).Continues (((s.tsyncTaken p body).linkFlag p 4 b).link p) := fun _ => s.tsyncTaken_continues p body
  unfold State.tsyncHeard
  split
  · exact (hflag true).trans (State.hopLimited_continues ..)
  · exact hflag false

theorem State.tsyncHeard_lkt : (s.tsyncHeard p body).cal.lkt = s.cal.lkt := by
  have hflag : ∀ b, ((s.tsyncTaken p body).linkFlag p 4 b).cal = s.cal := fun _ => (s.tsyncTaken_only p body).cal rfl
  unfold State.tsyncHeard
  split
  · rw [State.hopLimited_lkt, hflag]
  · rw [hflag]

/-- HOP_LIMIT stands while the hop count is 8 or more, and ROLE_CONFLICT is over (R100, R111). -/
theorem State.tsyncHeard_flags : ((s.tsyncHeard p body).rd P.LNK_FLAGS p).testBit 4 = decide (8 ≤ beAt 21 1 body) ∧
    ((s.tsyncHeard p body).rd P.LNK_FLAGS p).testBit 0 = false := by
  have hflags : (s.tsyncHeard p body).rd P.LNK_FLAGS p = putBit 4 (decide (8 ≤ beAt 21 1 body)) ((s.tsyncTaken p body).rd P.LNK_FLAGS p) := by
    by_cases h : 8 ≤ beAt 21 1 body
    · rw [s.tsyncHeard_far p body h, (State.hopLimited_only ..).rd _ _ (by decide) rfl, State.linkFlag, State.rd_wr_self, decide_eq_true h]
    · rw [s.tsyncHeard_near p body (Nat.not_le.mp h), State.linkFlag, State.rd_wr_self, decide_eq_false h]
  rw [hflags]
  exact ⟨putBit_testBit_self .., (putBit_testBit_below (by decide) ..).trans (s.tsyncTaken_flag p body)⟩

theorem State.tsyncHeard_state (hfar : 8 ≤ beAt 21 1 body) (h : s.rd P.LNK_STATE p = 3 ∨ s.rd P.LNK_STATE p = 4) :
    (s.tsyncHeard p body).rd P.LNK_STATE p = 2 := by
  have hstate : ((s.tsyncTaken p body).linkFlag p 4 true).rd P.LNK_STATE p = s.rd P.LNK_STATE p := by
    rw [State.linkFlag, State.rd_wr_base _ (by decide), State.tsyncTaken_state _ _ _ (by omega)]
  rw [s.tsyncHeard_far p body hfar]
  exact State.hopLimited_state _ _ (by rwa [hstate])

theorem State.tsyncHeard_offset (h : s.rd P.TBS_UTC_SOURCE ≠ 2) : (s.tsyncHeard p body).rd P.TBS_UTC_OFFSET = s.rd P.TBS_UTC_OFFSET := by
  have hflag : ∀ b, ((s.tsyncTaken p body).linkFlag p 4 b).rd P.TBS_UTC_OFFSET = s.rd P.TBS_UTC_OFFSET := fun b => by
    rw [State.linkFlag, State.rd_wr_base _ (by decide), s.tsyncTaken_offset p body h]
  unfold State.tsyncHeard
  split
  · rw [(State.hopLimited_only ..).rd _ _ (by decide) rfl, hflag]
  · exact hflag false

/-- What a TIME_IN port keeps of a TSYNC until its TDRESP arrives. -/
def State.tsyncExchange (s : State) (p : Nat) (body : List Byte) (x2 x3 : Stamp) : Exchange :=
  ⟨beAt 0 2 body, stampAt 4 body, x2.units, x3.units, s.clock, beAt 16 4 body, beAt 21 1 body, beAt 24 8 body, (s.link p).phase⟩

/-- The exchange of a TSYNC under way. -/
def State.tsyncKept (s : State) (p : Nat) (body : List Byte) (x2 x3 : Stamp) : State :=
  (s.tsyncHeard p body).setLink p fun l => { l with
    hops := beAt 21 1 body
    exchanges := (l.exchanges.filter fun y => y.seq != (s.tsyncExchange p body x2 x3).seq) ++ [s.tsyncExchange p body x2 x3] }

/-- The TDREQ that answers a TSYNC sent. -/
def State.tsyncAnswered (s : State) (p : Nat) (body : List Byte) (x2 x3 : Stamp) : State :=
  (s.tsyncKept p body x2 x3).nhpSend p 0x11
    (toBe 2 (beAt 0 2 body) ++ toBe 1 (b2n ((s.tsyncKept p body x2 x3).bEvt p != 0)) ++ [0] ++ x2.field ++ x3.field)

variable (x2 x3 : Stamp)

theorem State.tsyncAnswered_link : (s.tsyncAnswered p body x2 x3).link p = { (s.tsyncHeard p body).link p with
    hops := beAt 21 1 body
    exchanges := (((s.tsyncHeard p body).link p).exchanges.filter fun y => y.seq != (s.tsyncExchange p body x2 x3).seq) ++
      [s.tsyncExchange p body x2 x3] } := by
  rw [State.tsyncAnswered, State.nhpSend_link, State.tsyncKept, State.link_setLink _ _ _ (by intro; rfl)]

theorem State.tsyncAnswered_rd {b : Nat} (hb : 62 ≤ b) (hw : allows (some [P.TBS_OVER_LIMIT_COUNT]) b = false) (i : Nat) :
    (s.tsyncAnswered p body x2 x3).rd b i = (s.tsyncHeard p body).rd b i := by
  rw [State.tsyncAnswered, State.nhpSend_rd _ _ _ _ hb hw, State.tsyncKept, State.setLink_rd]

theorem State.tsyncAnswered_out (hruns : s.nhpRuns p = true) (hnear : beAt 21 1 body < 8) :
    (s.tsyncAnswered p body x2 x3).out = s.out ++ [.frame p (s.nhpFrame p (s.rd P.HIE_PORT_VERSION p) 0x11 8 (s.rd P.HIE_IDENTITY) p
      (toBe 2 (beAt 0 2 body) ++ toBe 1 (b2n (s.bEvt p != 0)) ++ [0] ++ x2.field ++ x3.field))] := by
  have hframe : Only (some [F.links, F.shadows, F.time, P.LNK_FLAGS, P.LNK_STATE, P.TBS_LEAP, P.TBS_UTC_OFFSET, P.TBS_UTC_VALID]) s
      (s.tsyncKept p body x2 x3) := by
    unfold State.tsyncKept
    rw [s.tsyncHeard_near p body hnear]
    exact ((s.tsyncTaken_only p body).step (State.linkFlag_only ..) rfl).step (State.setLink_only ..) rfl
  have hvalid : ((s.tsyncKept p body x2 x3).link p).valid = (s.link p).valid := by
    rw [State.tsyncKept, State.link_setLink _ _ _ (by intro; rfl)]
    exact (s.tsyncHeard_continues p body).valid
  have hout : (s.tsyncKept p body x2 x3).out = s.out := by
    rw [State.tsyncKept, State.setLink_out, s.tsyncHeard_near p body hnear, State.linkFlag, State.wr_out, State.tsyncTaken_out]
  rw [State.tsyncAnswered, (hframe.agrees rfl).bEvt hvalid, (hframe.agrees rfl).nhpSend_out hruns hout]

end

section
variable {s : State} {port : Fin 512} {body : List Byte} {raw2 raw3 : RawStamp}

theorem exec_tsync_hears (hlen : body.length = 32) (hruns : s.timingRuns port.val = true) (hrole : s.rd P.LNK_ROLE port.val = 1) :
    exec (.tsync port body raw2 raw3) s = .next ((s.stamped port.val).tsyncAnswered port.val body (s.rxMark port.val raw2)
      (((s.stamped port.val).tsyncHeard port.val body).txMark port.val raw3)) := by
  rw [← State.stamped_rxMark s port.val]
  show execTsync port body raw2 raw3 s = _
  unfold execTsync
  rw [if_neg (not_not_intro hlen), if_neg (not_not_intro ((s.stamped_timingRuns ..).trans hruns)),
    if_neg (not_not_intro ((s.stamped_rd _ (by decide) _).trans hrole))]
  rfl

theorem exec_tsync_sameRole (hlen : body.length = 32) (hruns : s.timingRuns port.val = true) (hrole : s.rd P.LNK_ROLE port.val ≠ 1) :
    exec (.tsync port body raw2 raw3) s = .next ((s.stamped port.val).roleSeen port.val false) := by
  show execTsync port body raw2 raw3 s = _
  unfold execTsync
  rw [if_neg (not_not_intro hlen), if_neg (not_not_intro ((s.stamped_timingRuns ..).trans hruns)),
    if_pos ((s.stamped_rd _ (by decide) _).trans_ne hrole)]

end

/-! ### TDREQ (R103 to R105) -/

section
variable (s : State) (p : Nat) (body : List Byte) (x4 : Stamp)

/-- What a TDREQ says of the partner's role and of its widening is taken. -/
def State.tdreqHeard (s : State) (p : Nat) (body : List Byte) : State := (s.roleSeen p true).partnerWiden p ((beAt 2 1 body).testBit 0)

/-- The TDRESP that answers a TDREQ sent. -/
def State.tdreqAnswered (s : State) (p : Nat) (body : List Byte) (x4 : Stamp) : State :=
  (s.tdreqHeard p body).nhpSend p 0x12 (toBe 2 (beAt 0 2 body) ++ toBe 1 (b2n ((s.tdreqHeard p body).bEvt p != 0)) ++ [0] ++ x4.field ++
    toBe 4 ((s.tdreqHeard p body).bPort p + (s.tdreqHeard p body).bEvt p))

/-- The stamp of a TSYNC taken from the record once its TDREQ is there. -/
def State.dropSent (s : State) (p seq : Nat) : State := s.setLink p fun l => { l with sent := l.sent.filter fun y => y.1 != seq }

/-- What a TIME_OUT port that knows the TSYNC of a TDREQ is when it tests the round trip. -/
def State.tripTested (s : State) (p : Nat) (body : List Byte) (x4 : Stamp) (seq : Nat) : State :=
  ((s.stamped p).tdreqAnswered p body x4).dropSent p seq

theorem State.tdreqHeard_only : Only (some ([F.cal, F.cmd, F.fault, F.fresh, F.linkRun, F.links, F.refs, F.rings, F.servo,
    P.CMD_NOTICE_DROP, P.CMD_REFUSED_COUNT, P.HLT_FAULT_COUNT, P.HLT_STICKY, P.LNK_BEVT, P.LNK_FLAGS, P.LNK_STATE, P.REF_ACTIVE] ++
    [P.REF_BREF, P.REF_DEV, P.REF_FLAGS, P.REF_HO_C, P.REF_HO_D, P.REF_HO_Y0, P.REF_KIND, P.REF_QSTATE, P.REF_SWLOG_HEAD,
    P.REF_SWLOG_INFO, P.REF_SWLOG_TIME, P.REF_TSTATE, P.TBS_BOUND_NOW, P.TBS_BOUND_PS, P.TBS_DOM_SELECTED, P.TBS_OVER_LIMIT_COUNT]))
    s (s.tdreqHeard p body) := ((s.roleSeen_only p true).mono rfl).step (State.partnerWiden_only ..) rfl

theorem State.tdreqHeard_continues : (s.link p).Continues ((s.tdreqHeard p body).link p) :=
  (s.roleSeen_continues p).trans (State.partnerWiden_continues ..)

theorem State.tdreqAnswered_continues : (s.link p).Continues ((s.tdreqAnswered p body x4).link p) :=
  (s.tdreqHeard_continues p body).trans (.of_eq (State.nhpSend_link ..))

theorem State.tdreqAnswered_rd {b : Nat} (hb : 62 ≤ b) (hw : allows (some [P.TBS_OVER_LIMIT_COUNT]) b = false) (i : Nat) :
    (s.tdreqAnswered p body x4).rd b i = (s.tdreqHeard p body).rd b i := State.nhpSend_rd _ _ _ _ hb hw i

theorem State.tdreqAnswered_tracking (h : (s.tdreqAnswered p body x4).rd P.LNK_STATE p = 3) : s.rd P.LNK_STATE p = 3 := by
  rw [State.tdreqAnswered_rd _ _ _ _ (by decide) rfl] at h
  exact s.roleSeen_tracking p (State.partnerWiden_tracking _ _ h)

theorem State.tdreqAnswered_out (hruns : s.nhpRuns p = true) (hquiet : (beAt 2 1 body).testBit 0 = false) :
    (s.tdreqAnswered p body x4).out = s.out ++ [.frame p (s.nhpFrame p (s.rd P.HIE_PORT_VERSION p) 0x12 8 (s.rd P.HIE_IDENTITY) p
      (toBe 2 (beAt 0 2 body) ++ toBe 1 (b2n (s.bEvt p != 0)) ++ [0] ++ x4.field ++ toBe 4 (s.bPort p + s.bEvt p)))] := by
  have heard : s.tdreqHeard p body = (s.roleSeen p true).setLink p fun l => { l with widened := (beAt 2 1 body).testBit 0 } :=
    State.partnerWiden_quiet _ _ (.inl hquiet)
  have hframe : Only (some [F.links, P.LNK_FLAGS, P.LNK_STATE]) s (s.tdreqHeard p body) := by
    rw [heard]
    exact (s.roleSeen_only p true).step (State.setLink_only ..) rfl
  have hout : (s.tdreqHeard p body).out = s.out := by rw [heard, State.setLink_out, State.roleSeen_out]
  rw [State.tdreqAnswered, (hframe.agrees rfl).bEvt (s.tdreqHeard_continues p body).valid, (hframe.agrees rfl).bPort,
    (hframe.agrees rfl).nhpSend_out hruns hout]

theorem State.dropSent_link (seq : Nat) : (s.dropSent p seq).link p =
    { s.link p with sent := (s.link p).sent.filter fun y => y.1 != seq } := State.link_setLink _ _ _ fun _ => rfl

theorem State.measureFibre_link (q : Nat) : (s.measureFibre p).link q = s.link q := (s.measureFibre_only p).link rfl q

end

section
variable {s : State} {port : Fin 512} {body : List Byte} {raw4 : RawStamp}

/-- A TDREQ whose TSYNC this port sent is answered, and its round trip is tested. -/
theorem exec_tdreq_known {seq : Nat} {t1 : Int} {x4 : Stamp} (hlen : body.length = 28) (hruns : s.timingRuns port.val = true)
    (hrole : s.rd P.LNK_ROLE port.val = 2) (hsent : ((s.link port.val).sent.find? fun y => y.1 == beAt 0 2 body) = some (seq, t1))
    (hx4 : x4 = s.rxMark port.val raw4) :
    exec (.tdreq port body raw4) s = .next (((s.tripTested port.val body x4 seq).roundTrip
      port.val (unitsPs ((x4.units - t1) - (stampAt 16 body - stampAt 4 body))) (s.link port.val).phase id).measureFibre port.val) := by
  have hcont := (s.stamped port.val).tdreqAnswered_continues port.val body x4
  rw [State.stamped_link] at hcont
  have hphase : ((s.tripTested port.val body x4 seq).link port.val).phase = (s.link port.val).phase := by
    rw [State.tripTested, State.dropSent_link]; exact hcont.phase
  rw [← hcont.sent] at hsent
  rw [← hphase]
  subst hx4
  rw [← State.stamped_rxMark s port.val] at hsent ⊢
  show execTdreq port body raw4 s = _
  unfold execTdreq
  rw [if_neg (not_not_intro hlen), if_neg (not_not_intro ((s.stamped_timingRuns ..).trans hruns)),
    if_neg (not_not_intro ((s.stamped_rd _ (by decide) _).trans hrole))]
  unfold State.tdreqAnswered State.tdreqHeard at hsent
  unfold State.tripTested State.tdreqAnswered State.tdreqHeard
  simp only [hsent]
  rfl

theorem exec_tdreq_unknown (hlen : body.length = 28) (hruns : s.timingRuns port.val = true)
    (hrole : s.rd P.LNK_ROLE port.val = 2) (hsent : ((s.link port.val).sent.find? fun y => y.1 == beAt 0 2 body) = none) :
    exec (.tdreq port body raw4) s =
      .next (((s.stamped port.val).tdreqAnswered port.val body (s.rxMark port.val raw4)).discardExchange port.val) := by
  have hcont := (s.stamped port.val).tdreqAnswered_continues port.val body (s.rxMark port.val raw4)
  rw [State.stamped_link] at hcont
  rw [← hcont.sent] at hsent
  rw [← State.stamped_rxMark s port.val] at hsent ⊢
  show execTdreq port body raw4 s = _
  unfold execTdreq
  rw [if_neg (not_not_intro hlen), if_neg (not_not_intro ((s.stamped_timingRuns ..).trans hruns)),
    if_neg (not_not_intro ((s.stamped_rd _ (by decide) _).trans hrole))]
  unfold State.tdreqAnswered State.tdreqHeard at hsent ⊢
  simp only [hsent]

theorem exec_tdreq_sameRole (hlen : body.length = 28) (hruns : s.timingRuns port.val = true) (hrole : s.rd P.LNK_ROLE port.val ≠ 2)
    (hstate : s.rd P.LNK_STATE port.val ≠ 1) : exec (.tdreq port body raw4) s = .next (s.stamped port.val) := by
  show execTdreq port body raw4 s = _
  unfold execTdreq
  rw [if_neg (not_not_intro hlen), if_neg (not_not_intro ((s.stamped_timingRuns ..).trans hruns)),
    if_pos ((s.stamped_rd _ (by decide) _).trans_ne hrole), State.roleSeen_idle _ _ ((s.stamped_rd _ (by decide) _).trans_ne hstate)]

end

/-! ### TDRESP (R105 to R110) -/

section
variable (s : State) (p : Nat) (body : List Byte)

/-- What a TDRESP says of the partner's widening is taken. -/
def State.tdrespHeard (s : State) (p : Nat) (body : List Byte) : State := (s.stamped p).partnerWiden p ((beAt 2 1 body).testBit 0)

theorem State.tdrespHeard_only : Only (some ([F.cal, F.cmd, F.fault, F.fresh, F.linkRun, F.links, F.refs, F.rings, F.servo,
    P.CMD_NOTICE_DROP, P.CMD_REFUSED_COUNT, P.HLT_FAULT_COUNT, P.HLT_STICKY, P.LNK_BEVT, P.LNK_STATE, P.REF_ACTIVE, P.REF_BREF] ++
    [P.REF_DEV, P.REF_FLAGS, P.REF_HO_C, P.REF_HO_D, P.REF_HO_Y0, P.REF_KIND, P.REF_QSTATE, P.REF_SWLOG_HEAD, P.REF_SWLOG_INFO,
    P.REF_SWLOG_TIME, P.REF_TSTATE, P.TBS_BOUND_NOW, P.TBS_BOUND_PS, P.TBS_DOM_SELECTED, P.TBS_OVER_LIMIT_COUNT]))
    s (s.tdrespHeard p body) := ((s.stamped_only p).mono rfl).step (State.partnerWiden_only ..) rfl

theorem State.tdrespHeard_continues : (s.link p).Continues ((s.tdrespHeard p body).link p) := by
  have h := (s.stamped p).partnerWiden_continues p ((beAt 2 1 body).testBit 0)
  rwa [State.stamped_link] at h

theorem State.tdrespHeard_tracking (h : (s.tdrespHeard p body).rd P.LNK_STATE p = 3) : s.rd P.LNK_STATE p = 3 :=
  (s.stamped_rd p (by decide) p).symm.trans (State.partnerWiden_tracking _ _ h)

theorem State.tdrespHeard_quiet (hquiet : (beAt 2 1 body).testBit 0 = false) :
    (s.tdrespHeard p body).rd P.LNK_STATE p = s.rd P.LNK_STATE p := by
  rw [State.tdrespHeard, State.partnerWiden_quiet _ _ (.inl hquiet), State.setLink_rd, State.stamped_rd _ _ (by decide)]

theorem State.dropExchange_link (seq : Nat) : (s.dropExchange p seq).link p =
    { s.link p with exchanges := (s.link p).exchanges.filter fun y => y.seq != seq } := State.link_setLink _ _ _ fun _ => rfl

theorem State.dropExchange_rd (seq b i : Nat) : (s.dropExchange p seq).rd b i = s.rd b i := State.setLink_rd ..

/-- No exchange of a sequence number is left once it is dropped and the rest of the exchange is discarded. -/
theorem State.discarded_exchanges (seq : Nat) : ∀ y ∈ (((s.dropExchange p seq).discardExchange p).link p).exchanges, y.seq ≠ seq := by
  rw [(State.discardExchange_continues ..).exchanges, State.dropExchange_link]
  intro y hy
  simpa using (List.mem_filter.mp hy).2

/-- The offset, the upstream bound and the sender's term that an accepted exchange gives, before the bounds follow. -/
def State.exchangeNoted (s : State) (p : Nat) (x : Exchange) (rt : Int) (sender : Nat) : State :=
  (s.wrS 64 P.LNK_OFFSET p (unitsPs (x.t2 - x.t1) - (rt + s.rdS 32 P.LNK_ASYM p) / 2)).setLink p fun l => { l with
    theta := unitsPs (x.t2 - x.t1) - (rt + s.rdS 32 P.LNK_ASYM p) / 2
    upBound := x.upBound, hops := x.hops, top := x.top, sender := sender }

variable (x : Exchange) (rt : Int) (sender : Nat)

theorem State.acceptExchange_eq : s.acceptExchange p x rt sender =
    (((s.exchangeNoted p x rt sender).linkBref p).linkDomains p).showTheta p := rfl

theorem State.exchangeNoted_link : (s.exchangeNoted p x rt sender).link p = { s.link p with
    theta := unitsPs (x.t2 - x.t1) - (rt + s.rdS 32 P.LNK_ASYM p) / 2
    upBound := x.upBound, hops := x.hops, top := x.top, sender := sender } := State.link_setLink _ _ _ fun _ => rfl

theorem State.exchangeNoted_only : Only (some [F.links, P.LNK_OFFSET]) s (s.exchangeNoted p x rt sender) :=
  ((Only.refl _ _).wrS rfl _ _ _).step (State.setLink_only ..) rfl

theorem State.acceptExchange_link : (s.acceptExchange p x rt sender).link p = (s.exchangeNoted p x rt sender).link p := by
  rw [State.acceptExchange_eq, (State.showTheta_only ..).link rfl, (State.linkDomains_only ..).link rfl, (State.linkBref_only ..).link rfl]

end

end Sys2Proof.Machine
end

section
/-! ## Locked links: the exchange completed, and the obligation over the messages of a time link (R105 to R111, R119) -/

namespace Sys2Proof.Machine

/-! ### An exchange accepted (R106 to R110) -/

section
variable {s : State} {p : Nat} {x : Exchange} {rt : Int} {sender : Nat}

/-- θ of the exchange, moved by the phase since the TSYNC, is shown in LNK_OFFSET (R106, R107). -/
theorem State.acceptExchange_offset (hrole : s.rd P.LNK_ROLE p = 1) (hrt : (s.link p).lastRt = some (rt, x.phi)) :
    (s.acceptExchange p x rt sender).rdS 64 P.LNK_OFFSET p =
      clampS 64 ((unitsPs (x.t2 - x.t1) - (rt + s.rdS 32 P.LNK_ASYM p) / 2) + phasePs ((s.link p).phase - x.phi)) := by
  have hrole' : (((s.exchangeNoted p x rt sender).linkBref p).linkDomains p).rd P.LNK_ROLE p = 1 := by
    rw [(State.linkDomains_only ..).rd _ _ (by decide) rfl, (State.linkBref_only ..).rd _ _ (by decide) rfl,
      (State.exchangeNoted_only ..).rd _ _ (by decide) rfl, hrole]
  have hlink : (((s.exchangeNoted p x rt sender).linkBref p).linkDomains p).link p = (s.exchangeNoted p x rt sender).link p := by
    rw [(State.linkDomains_only ..).link rfl, (State.linkBref_only ..).link rfl]
  rw [State.exchangeNoted_link] at hlink
  rw [State.acceptExchange_eq, State.showTheta_offset (r := rt) (f := x.phi) hrole' (by rw [hlink]; exact hrt), hlink]

/-- The bound of a reference carried by the port: the upstream bound and the hop term (R109). -/
theorem State.acceptExchange_bref {r : Nat} (hp : p < 512) (hlocked : s.lockedPort p = true) (hrole : s.rd P.LNK_ROLE p = 1)
    (hr : r ∈ s.linkRefs p) : (s.acceptExchange p x rt sender).rd P.REF_BREF r =
      if x.upBound = noBound then noBound else clampU 32 (x.upBound + (s.acceptExchange p x rt sender).bHop p) := by
  have hnoted := s.exchangeNoted_only p x rt sender
  have hlink := s.acceptExchange_link p x rt sender
  have hagrees : Agrees boundReads (s.exchangeNoted p x rt sender) (s.acceptExchange p x rt sender) := by
    rw [State.acceptExchange_eq]
    exact (((State.linkBref_only _ p).agrees rfl).trans ((State.linkDomains_only _ p).agrees rfl)).trans
      ((State.showTheta_only _ p).agrees rfl)
  have hbref : (s.acceptExchange p x rt sender).rd P.REF_BREF r = (s.exchangeNoted p x rt sender).linkBound p := by
    rw [State.acceptExchange_eq, (State.showTheta_only ..).rd _ _ (by decide) rfl, (State.linkDomains_only ..).rd _ _ (by decide) rfl]
    exact State.linkBref_bref hp ((hnoted.lockedPort rfl p).trans hlocked) ((hnoted.rd _ _ (by decide) rfl).trans hrole)
      (by rwa [(hnoted.agrees rfl).linkRefs])
  have hup : ((s.exchangeNoted p x rt sender).link p).upBound = x.upBound := by rw [State.exchangeNoted_link]
  rw [hbref, hagrees.bHop (congrArg Link.valid hlink) (congrArg Link.sender hlink), State.linkBound, hup]

end

/-! ### An exchange completed: accepted, and the port measured (R105, R108) -/

/-- What a TDRESP leaves of a state in which its exchange passes the tests. -/
def State.exchangeCompleted (h : State) (p : Nat) (x : Exchange) (rt : Int) (sender : Nat) : State :=
  (((h.dropExchange p x.seq).tripTaken p rt x.phi).acceptExchange p x rt sender).measured p

section
variable (h : State) (p : Nat) (x : Exchange) (rt : Int) (sender : Nat)

theorem State.tripReady_only : Only (some [F.links, P.LNK_RT]) h ((h.dropExchange p x.seq).tripTaken p rt x.phi) :=
  ((h.dropExchange_only p x.seq).mono rfl).step (State.tripTaken_only ..) rfl

theorem State.tripReady_link : ((h.dropExchange p x.seq).tripTaken p rt x.phi).link p = { h.link p with
    exchanges := (h.link p).exchanges.filter fun y => y.seq != x.seq
    lastRt := some (rt, x.phi), discards := 0, history := (rt :: (h.link p).history).take 256 } := by
  rw [State.tripTaken_link, State.dropExchange_link]

theorem State.exchangeCompleted_link : ∃ b, (h.exchangeCompleted p x rt sender).link p = { h.link p with
    exchanges := (h.link p).exchanges.filter fun y => y.seq != x.seq
    lastRt := some (rt, x.phi), discards := 0, history := (rt :: (h.link p).history).take 256
    theta := unitsPs (x.t2 - x.t1) - (rt + h.rdS 32 P.LNK_ASYM p) / 2
    upBound := x.upBound, hops := x.hops, top := x.top, sender := sender, suspect := b } := by
  obtain ⟨b, hb⟩ := (((h.dropExchange p x.seq).tripTaken p rt x.phi).acceptExchange p x rt sender).measured_link p
  refine ⟨b, hb.trans ?_⟩
  rw [State.acceptExchange_link, State.exchangeNoted_link, State.tripReady_link, State.rdS,
    (h.tripReady_only p x rt).rd _ _ (by decide) rfl]
  rfl

theorem State.exchangeCompleted_rt : (h.exchangeCompleted p x rt sender).rd P.LNK_RT p = rt.toNat := by
  rw [State.exchangeCompleted, (State.measured_only ..).rd _ _ (by decide) rfl, (State.acceptExchange_only ..).rd _ _ (by decide) rfl,
    State.tripTaken_rt]

theorem State.exchangeCompleted_offset (hrole : h.rd P.LNK_ROLE p = 1) : (h.exchangeCompleted p x rt sender).rdS 64 P.LNK_OFFSET p =
    clampS 64 ((unitsPs (x.t2 - x.t1) - (rt + h.rdS 32 P.LNK_ASYM p) / 2) + phasePs ((h.link p).phase - x.phi)) := by
  have hready := h.tripReady_only p x rt
  have hlink := h.tripReady_link p x rt
  have hasym : ((h.dropExchange p x.seq).tripTaken p rt x.phi).rdS 32 P.LNK_ASYM p = h.rdS 32 P.LNK_ASYM p := by
    rw [State.rdS, hready.rd _ _ (by decide) rfl]; rfl
  have hphase : (((h.dropExchange p x.seq).tripTaken p rt x.phi).link p).phase = (h.link p).phase := by rw [hlink]
  have hlast : (((h.dropExchange p x.seq).tripTaken p rt x.phi).link p).lastRt = some (rt, x.phi) := by rw [hlink]
  rw [State.exchangeCompleted, State.rdS, (State.measured_only ..).rd _ _ (by decide) rfl]
  rw [← hphase, ← hasym]
  exact State.acceptExchange_offset ((hready.rd _ _ (by decide) rfl).trans hrole) hlast

/-- A port that completes an exchange in TRACKING stays there, and its references take their bound (R109, R112). -/
theorem State.exchangeCompleted_tracking (hp : p < 512) (hlocked : h.lockedPort p = true) (hrole : h.rd P.LNK_ROLE p = 1)
    (h3 : h.rd P.LNK_STATE p = 3) : (h.exchangeCompleted p x rt sender).rd P.LNK_STATE p = 3 ∧ ∀ r ∈ h.linkRefs p,
      (h.exchangeCompleted p x rt sender).rd P.REF_BREF r =
        if x.upBound = noBound then noBound else clampU 32 (x.upBound + (h.exchangeCompleted p x rt sender).bHop p) := by
  have hready := h.tripReady_only p x rt
  have hstate : (((h.dropExchange p x.seq).tripTaken p rt x.phi).acceptExchange p x rt sender).rd P.LNK_STATE p = 3 := by
    rw [(State.acceptExchange_only ..).rd _ _ (by decide) rfl, hready.rd _ _ (by decide) rfl, h3]
  rw [State.exchangeCompleted, State.measured_tracking _ _ hstate]
  refine ⟨hstate, fun r hr => ?_⟩
  exact State.acceptExchange_bref hp ((hready.lockedPort rfl p).trans hlocked) ((hready.rd _ _ (by decide) rfl).trans hrole)
    (by rwa [(hready.agrees rfl).linkRefs])

end

/-! ### TDRESP by the exchange that it names (R105, R108) -/

/-- What a TDRESP leaves of a state that has taken what it says of the partner. -/
def State.exchangeAnswered (h : State) (p : Nat) (body : List Byte) : State :=
  match (h.link p).exchanges.find? fun x => x.seq == beAt 0 2 body with
  | some x =>
    if x.sentAt + h.rd P.LNK_RESP_TIMEOUT * 1000000 < h.clock then (h.dropExchange p x.seq).discardExchange p
    else (h.dropExchange p x.seq).roundTrip p (unitsPs ((stampAt 4 body - x.t1) - (x.t3 - x.t2))) x.phi fun t =>
      t.acceptExchange p x (unitsPs ((stampAt 4 body - x.t1) - (x.t3 - x.t2))) (beAt 16 4 body)
  | none =>
    match (h.link p).exchanges with
    | x :: _ => (h.dropExchange p x.seq).discardExchange p
    | [] => h

section
variable {s : State} {port : Fin 512} {body : List Byte}

theorem exec_tdresp_hears (hlen : body.length = 20) (hruns : s.timingRuns port.val = true) (hrole : s.rd P.LNK_ROLE port.val = 1) :
    exec (.tdresp port body) s = .next ((s.tdrespHeard port.val body).exchangeAnswered port.val body) := by
  have hruns' : (s.stamped port.val).timingRuns port.val = true := (s.stamped_timingRuns ..).trans hruns
  have hrole' : (s.stamped port.val).rd P.LNK_ROLE port.val = 1 := (s.stamped_rd _ (by decide) _).trans hrole
  show execTdresp port body s = _
  unfold execTdresp State.exchangeAnswered State.tdrespHeard
  rw [if_neg (not_not_intro hlen), if_neg (not_or_intro (not_not_intro hruns') (not_not_intro hrole'))]
  dsimp only
  generalize (s.stamped port.val).partnerWiden port.val ((beAt 2 1 body).testBit 0) = h
  cases (h.link port.val).exchanges.find? fun x => x.seq == beAt 0 2 body with
  | some x => dsimp only; split <;> rfl
  | none => dsimp only; cases (h.link port.val).exchanges <;> rfl

end

section
variable {h : State} {p : Nat} {body : List Byte} {x : Exchange} {rt : Int}

theorem State.exchangeAnswered_overdue (hx : ((h.link p).exchanges.find? fun x => x.seq == beAt 0 2 body) = some x)
    (hlate : x.sentAt + h.rd P.LNK_RESP_TIMEOUT * 1000000 < h.clock) :
    h.exchangeAnswered p body = (h.dropExchange p x.seq).discardExchange p := by
  unfold State.exchangeAnswered
  rw [hx]
  exact if_pos hlate

theorem State.exchangeAnswered_tested (hx : ((h.link p).exchanges.find? fun x => x.seq == beAt 0 2 body) = some x)
    (htime : h.clock ≤ x.sentAt + h.rd P.LNK_RESP_TIMEOUT * 1000000) (hrt : rt = unitsPs ((stampAt 4 body - x.t1) - (x.t3 - x.t2))) :
    h.exchangeAnswered p body =
      (h.dropExchange p x.seq).roundTrip p rt x.phi fun t => t.acceptExchange p x rt (beAt 16 4 body) := by
  subst hrt
  unfold State.exchangeAnswered
  rw [hx]
  exact if_neg (Nat.not_lt.mpr htime)

theorem State.exchangeAnswered_unmatched {xs : List Exchange}
    (hx : ((h.link p).exchanges.find? fun x => x.seq == beAt 0 2 body) = none) (hxs : (h.link p).exchanges = x :: xs) :
    h.exchangeAnswered p body = (h.dropExchange p x.seq).discardExchange p := by
  unfold State.exchangeAnswered
  rw [hx, hxs]

theorem State.exchangeAnswered_idle (hxs : (h.link p).exchanges = []) : h.exchangeAnswered p body = h := by
  unfold State.exchangeAnswered
  rw [hxs]
  rfl

end

/-- A round trip in range and steady completes the exchange (R108). -/
theorem State.exchangeAnswered_accepts {h : State} {p : Nat} {body : List Byte} {x : Exchange} {rt : Int}
    (hx : ((h.link p).exchanges.find? fun x => x.seq == beAt 0 2 body) = some x)
    (htime : h.clock ≤ x.sentAt + h.rd P.LNK_RESP_TIMEOUT * 1000000) (hrt : rt = unitsPs ((stampAt 4 body - x.t1) - (x.t3 - x.t2)))
    (h0 : 0 ≤ rt) (hmax : rt ≤ 250000000)
    (hsteady : ∀ r0 f0, (h.link p).lastRt = some (r0, f0) → h.rd P.LNK_STATE p ≠ 3 ∨
      ((rt - r0) - phasePs (x.phi - f0)).natAbs ≤ h.rd P.LNK_RT_JUMP) :
    h.exchangeAnswered p body = h.exchangeCompleted p x rt (beAt 16 4 body) := by
  rw [State.exchangeAnswered_tested hx htime hrt]
  refine State.roundTrip_accepts h0 hmax ?_
  rw [State.dropExchange_link, State.dropExchange_rd, State.dropExchange_rd]
  exact hsteady

/-- An exchange that is overdue, or whose round trip fails a test, is discarded (R105, R108). -/
theorem State.exchangeAnswered_discards {h : State} {p : Nat} {body : List Byte} {x : Exchange} {rt : Int}
    (hx : ((h.link p).exchanges.find? fun x => x.seq == beAt 0 2 body) = some x)
    (hrt : rt = unitsPs ((stampAt 4 body - x.t1) - (x.t3 - x.t2)))
    (hbad : x.sentAt + h.rd P.LNK_RESP_TIMEOUT * 1000000 < h.clock ∨ rt < 0 ∨ 250000000 < rt ∨
      ∃ r0 f0, (h.link p).lastRt = some (r0, f0) ∧ h.rd P.LNK_STATE p = 3 ∧
        h.rd P.LNK_RT_JUMP < ((rt - r0) - phasePs (x.phi - f0)).natAbs) :
    h.exchangeAnswered p body = (h.dropExchange p x.seq).discardExchange p := by
  rcases Nat.lt_or_ge (x.sentAt + h.rd P.LNK_RESP_TIMEOUT * 1000000) h.clock with hlate | htime
  · exact State.exchangeAnswered_overdue hx hlate
  · rw [State.exchangeAnswered_tested hx htime hrt]
    refine State.roundTrip_discards ?_
    rw [State.dropExchange_link, State.dropExchange_rd, State.dropExchange_rd]
    exact hbad.resolve_left (Nat.not_lt.mpr htime)

/-! ### An exchange dropped and discarded (R105) -/

section
variable (h : State) (p seq : Nat)

/-- Of an exchange under way that is dropped, the discard is counted and the round trip stays. -/
theorem State.dropped_discards : ((h.dropExchange p seq).discardExchange p).rd P.LNK_DISCARDS p = (h.rd P.LNK_DISCARDS p + 1) % 2 ^ 48 ∧
    ((h.dropExchange p seq).discardExchange p).rd P.LNK_RT p = h.rd P.LNK_RT p := by
  rw [State.discardExchange_counts, (State.discardExchange_only ..).rd _ _ (by decide) rfl, State.dropExchange_rd, State.dropExchange_rd]
  exact ⟨rfl, rfl⟩

end

section
variable {s : State} {port : Fin 512} {x : Exchange}

theorem exec_respTimeout_overdue
    (hx : ((s.link port.val).exchanges.find? fun x => decide (x.sentAt + s.rd P.LNK_RESP_TIMEOUT * 1000000 ≤ s.clock)) = some x) :
    exec (.respTimeout port) s = .next ((s.dropExchange port.val x.seq).discardExchange port.val) := by
  show execRespTimeout port s = _
  unfold execRespTimeout
  dsimp only
  rw [hx]

theorem exec_respTimeout_waits
    (hx : ∀ x ∈ (s.link port.val).exchanges, s.clock < x.sentAt + s.rd P.LNK_RESP_TIMEOUT * 1000000) :
    exec (.respTimeout port) s = .next s := by
  have hnone : ((s.link port.val).exchanges.find? fun x => decide (x.sentAt + s.rd P.LNK_RESP_TIMEOUT * 1000000 ≤ s.clock)) = none :=
    List.find?_eq_none.mpr fun x hm => by simpa using hx x hm
  show execRespTimeout port s = _
  unfold execRespTimeout
  dsimp only
  rw [hnone]

end

/-! ### TCAL (R119) -/

section
variable {s : State} {port : Fin 512} {body : List Byte}

theorem exec_tcal_request (hlen : body.length = 28) (hruns : s.timingRuns port.val = true) (hkind : beAt 2 1 body = 0)
    (hrole : s.rd P.LNK_ROLE port.val = 2) : exec (.tcal port body) s = .next { s.stamped port.val with
      tcal := dropBy TcalServe.port port.val (s.stamped port.val).tcal ++ [⟨port.val, beAt 0 2 body, beAt 4 2 body, 0⟩] } := by
  show execTcal port body s = _
  unfold execTcal
  rw [if_neg (not_not_intro hlen), if_neg (not_not_intro ((s.stamped_timingRuns ..).trans hruns))]
  simp only [hkind]
  exact if_pos ((s.stamped_rd _ (by decide) _).trans hrole)

theorem exec_tcal_report {r : LinkRun} (hlen : body.length = 28) (hruns : s.timingRuns port.val = true) (hkind : beAt 2 1 body = 1)
    (hrun : s.linkRun = some r) (hport : r.port = port.val) (hseq : r.seq = beAt 0 2 body) :
    exec (.tcal port body) s = .next { s.stamped port.val with linkRun := some { r with
      theirs := r.theirs ++ [stampAt 8 body], path := sgn 32 (beAt 20 4 body), pathU := beAt 24 2 body } } := by
  show execTcal port body s = _
  unfold execTcal
  rw [if_neg (not_not_intro hlen), if_neg (not_not_intro ((s.stamped_timingRuns ..).trans hruns))]
  simp only [hkind, State.stamped_linkRun, hrun]
  exact if_pos ⟨hport, hseq⟩

theorem exec_tcal_end (hlen : body.length = 28) (hruns : s.timingRuns port.val = true) (hkind : beAt 2 1 body = 2) :
    exec (.tcal port body) s = .next { s.stamped port.val with tcal := dropBy TcalServe.port port.val (s.stamped port.val).tcal } := by
  show execTcal port body s = _
  unfold execTcal
  rw [if_neg (not_not_intro hlen), if_neg (not_not_intro ((s.stamped_timingRuns ..).trans hruns))]
  simp only [hkind]

/-- A request to a port that does not serve, a report of no run of this module, and a kind that is not defined change nothing. -/
theorem exec_tcal_ignored (hlen : body.length = 28) (hother : (beAt 2 1 body = 0 ∧ s.rd P.LNK_ROLE port.val ≠ 2) ∨ 2 < beAt 2 1 body ∨
      (beAt 2 1 body = 1 ∧ ∀ r, s.linkRun = some r → r.port ≠ port.val ∨ r.seq ≠ beAt 0 2 body)) :
    exec (.tcal port body) s = .next (s.stamped port.val) := by
  show execTcal port body s = _
  unfold execTcal
  rw [if_neg (not_not_intro hlen)]
  split
  · rfl
  rcases hother with ⟨hkind, hrole⟩ | hkind | ⟨hkind, hrun⟩
  · simp only [hkind]
    exact if_neg ((s.stamped_rd _ (by decide) _).trans_ne hrole)
  · obtain ⟨n, hn⟩ := Nat.exists_eq_add_of_lt hkind
    have hn' : beAt 2 1 body = n + 3 := by omega
    simp only [hn']
  · simp only [hkind, State.stamped_linkRun]
    cases hr : s.linkRun with
    | none => rfl
    | some r => exact if_neg fun hc => (hrun r hr).elim (· hc.1) (· hc.2)

end

/-! ### Messages that are not taken (R101) -/

/-- The state after a message of a wrong length. -/
def State.malformed (s : State) (p : Nat) : State := (s.stamped p).count P.HIE_RX_DISCARD

section
variable (s : State) (p : Nat)

theorem State.malformed_counts : (s.malformed p).rd P.HIE_RX_DISCARD = (s.rd P.HIE_RX_DISCARD + 1) % 2 ^ 48 := by
  rw [State.malformed, State.count_plain _ _ (by decide), State.rd_wr_self, State.stamped_rd _ _ (by decide)]

theorem State.malformed_only : Only (some [P.HIE_RX_DISCARD, P.TBS_OVER_LIMIT_COUNT]) s (s.malformed p) :=
  ((s.stamped_only p).mono rfl).count_plain rfl (by decide) 0 1

end

section
variable {s : State} {port : Fin 512} {body : List Byte} {a b : RawStamp}

theorem exec_tsync_malformed (h : body.length ≠ 32) : exec (.tsync port body a b) s = .next (s.malformed port.val) := if_pos h

theorem exec_tdreq_malformed (h : body.length ≠ 28) : exec (.tdreq port body a) s = .next (s.malformed port.val) := if_pos h

theorem exec_tcal_malformed (h : body.length ≠ 28) : exec (.tcal port body) s = .next (s.malformed port.val) := if_pos h

theorem exec_tdresp_malformed (h : body.length ≠ 20) : exec (.tdresp port body) s = .next (s.malformed port.val) := if_pos h

variable (hidle : s.timingRuns port.val = false)
include hidle

theorem stamped_timing_idle : ¬ (s.stamped port.val).timingRuns port.val = true := by
  rw [State.stamped_timingRuns, hidle]; exact Bool.false_ne_true

theorem exec_tsync_idle (h : body.length = 32) : exec (.tsync port body a b) s = .next (s.stamped port.val) :=
  (if_neg (not_not_intro h)).trans (if_pos (stamped_timing_idle hidle))

theorem exec_tdreq_idle (h : body.length = 28) : exec (.tdreq port body a) s = .next (s.stamped port.val) :=
  (if_neg (not_not_intro h)).trans (if_pos (stamped_timing_idle hidle))

theorem exec_tcal_idle (h : body.length = 28) : exec (.tcal port body) s = .next (s.stamped port.val) :=
  (if_neg (not_not_intro h)).trans (if_pos (stamped_timing_idle hidle))

theorem exec_tdresp_idle (h : body.length = 20) : exec (.tdresp port body) s = .next (s.stamped port.val) :=
  (if_neg (not_not_intro h)).trans (if_pos (.inl (stamped_timing_idle hidle)))

end

end Sys2Proof.Machine
end

section
/-! ## Locked links: the obligation over the messages of a time link (R100 to R111, R119) -/

namespace Sys2Proof.Machine

section
variable (s : State) (p : Nat)

@[simp] theorem State.stamped_nhpRuns (q : Nat) : (s.stamped p).nhpRuns q = s.nhpRuns q :=
  ((s.stamped_only p).agrees rfl).nhpRuns q

@[simp] theorem State.stamped_nhpFrame (q version type hops sender port : Nat) (body : List Byte) :
    (s.stamped p).nhpFrame q version type hops sender port body = s.nhpFrame q version type hops sender port body := by
  unfold State.nhpFrame; rw [State.stamped_portMac]

end

/-! ### The frame of a TSYNC (R101, R102) -/

theorem tsyncSent_sends {s : State} {port : Fin 512} {raw1 : RawStamp} (hruns : s.timingRuns port.val = true) :
    (s.tsyncSent port.val raw1).out = s.out ++ [.frame port.val (s.nhpFrame port.val (s.rd P.HIE_PORT_VERSION port.val) 0x10 8
      (s.rd P.HIE_IDENTITY) port.val (s.tsyncBody (s.link port.val).seq (s.txMark port.val raw1)))] := by
  rw [State.tsyncSent, State.setLink_out]
  exact Agrees.nhpSend_out (fun _ _ _ => rfl) (State.timingRuns_nhpRuns hruns) rfl ..

/-! ### What a message taken off a stamped frame leaves, in terms of the state before the frame -/

section
variable (s : State) (p : Nat) (body : List Byte)

theorem State.tsyncExchange_stamped (x2 x3 : Stamp) :
    (s.stamped p).tsyncExchange p body x2 x3 = s.tsyncExchange p body x2 x3 := by
  simp only [State.tsyncExchange, State.stamped_clock, State.stamped_link]

/-- The transmit stamp of the TDREQ is taken of the state that heard the TSYNC, at the instant of the state before it. -/
theorem State.tsyncHeard_txMark (raw3 : RawStamp) :
    (((s.stamped p).tsyncHeard p body).txMark p raw3).ns = (s.txMark p raw3).ns ∧
      (((s.stamped p).tsyncHeard p body).txMark p raw3).sub = (s.txMark p raw3).sub := by
  have hheard := (s.stamped p).tsyncHeard_only p body
  rw [← s.stamped_txMark p p raw3]
  exact (hheard.agrees rfl).txMark_time ((s.stamped p).tsyncHeard_continues p body).valid ((s.stamped p).tsyncHeard_lkt p body) raw3

end

section
variable {s : State} {port : Fin 512} {body : List Byte}

/-- A TDRESP that completes its exchange, in terms of the state before its frame. -/
theorem tdresp_completes {x : Exchange} {rt : Int} (hlen : body.length = 20) (hruns : s.timingRuns port.val = true)
    (hrole : s.rd P.LNK_ROLE port.val = 1) (hx : ((s.link port.val).exchanges.find? fun x => x.seq == beAt 0 2 body) = some x)
    (htime : s.clock ≤ x.sentAt + s.rd P.LNK_RESP_TIMEOUT * 1000000) (hrt : rt = unitsPs ((stampAt 4 body - x.t1) - (x.t3 - x.t2)))
    (h0 : 0 ≤ rt) (hmax : rt ≤ 250000000)
    (hsteady : ∀ r0 f0, (s.link port.val).lastRt = some (r0, f0) → s.rd P.LNK_STATE port.val ≠ 3 ∨
      ((rt - r0) - phasePs (x.phi - f0)).natAbs ≤ s.rd P.LNK_RT_JUMP) :
    exec (.tdresp port body) s = .next ((s.tdrespHeard port.val body).exchangeCompleted port.val x rt (beAt 16 4 body)) := by
  have heard := s.tdrespHeard_only port.val body
  have hcont := s.tdrespHeard_continues port.val body
  rw [exec_tdresp_hears hlen hruns hrole, State.exchangeAnswered_accepts (by rwa [hcont.exchanges])
    (by rwa [heard.keeps.clock, heard.rd _ _ (by decide) rfl]) hrt h0 hmax ?_]
  intro r0 f0 hlast
  rw [hcont.lastRt] at hlast
  rw [heard.rd P.LNK_RT_JUMP _ (by decide) rfl]
  exact (hsteady r0 f0 hlast).imp_left fun hne h3 => hne (s.tdrespHeard_tracking port.val body h3)

/-- A TDRESP whose exchange is overdue or fails a test, in terms of the state before its frame. -/
theorem tdresp_discards {x : Exchange} {rt : Int} (hlen : body.length = 20) (hruns : s.timingRuns port.val = true)
    (hrole : s.rd P.LNK_ROLE port.val = 1) (hx : ((s.link port.val).exchanges.find? fun x => x.seq == beAt 0 2 body) = some x)
    (hrt : rt = unitsPs ((stampAt 4 body - x.t1) - (x.t3 - x.t2)))
    (hbad : x.sentAt + s.rd P.LNK_RESP_TIMEOUT * 1000000 < s.clock ∨ rt < 0 ∨ 250000000 < rt ∨
      ∃ r0 f0, (s.link port.val).lastRt = some (r0, f0) ∧ s.rd P.LNK_STATE port.val = 3 ∧ (beAt 2 1 body).testBit 0 = false ∧
        s.rd P.LNK_RT_JUMP < ((rt - r0) - phasePs (x.phi - f0)).natAbs) :
    exec (.tdresp port body) s = .next (((s.tdrespHeard port.val body).dropExchange port.val x.seq).discardExchange port.val) := by
  have heard := s.tdrespHeard_only port.val body
  have hcont := s.tdrespHeard_continues port.val body
  rw [exec_tdresp_hears hlen hruns hrole, State.exchangeAnswered_discards (by rwa [hcont.exchanges]) hrt ?_]
  rw [heard.keeps.clock, heard.rd _ _ (by decide) rfl, heard.rd P.LNK_RT_JUMP _ (by decide) rfl, hcont.lastRt]
  refine hbad.imp_right (.imp_right (.imp_right ?_))
  rintro ⟨r0, f0, hlast, h3, hquiet, hjump⟩
  exact ⟨r0, f0, hlast, (s.tdrespHeard_quiet port.val body hquiet).trans h3, hjump⟩

/-- A TDRESP taken leaves the counts of the port as they were before its frame. -/
theorem tdresp_dropped (x : Exchange) :
    (((s.tdrespHeard port.val body).dropExchange port.val x.seq).discardExchange port.val).rd P.LNK_DISCARDS port.val =
        (s.rd P.LNK_DISCARDS port.val + 1) % 2 ^ 48 ∧
      (((s.tdrespHeard port.val body).dropExchange port.val x.seq).discardExchange port.val).rd P.LNK_RT port.val =
        s.rd P.LNK_RT port.val := by
  have heard := s.tdrespHeard_only port.val body
  obtain ⟨hcount, hrt⟩ := (s.tdrespHeard port.val body).dropped_discards port.val x.seq
  exact ⟨hcount.trans (by rw [heard.rd _ _ (by decide) rfl]), hrt.trans (heard.rd _ _ (by decide) rfl)⟩

/-- A partner whose widening begins makes a TRACKING port measure again (R103, R112). -/
theorem State.tdrespHeard_widens (h3 : s.rd P.LNK_STATE port.val = 3) (hw : (s.link port.val).widened = false)
    (hbit : (beAt 2 1 body).testBit 0 = true) : (s.tdrespHeard port.val body).rd P.LNK_STATE port.val = 4 ∧
      (s.tdrespHeard port.val body).rd P.LNK_BEVT port.val = max (s.rd P.LNK_SLIP_WIDEN) (s.link port.val).suspect := by
  rw [State.tdrespHeard, State.partnerWiden_rises _ _ hbit (by rwa [State.stamped_link])
    ((s.stamped_rd _ (by decide) _).trans h3)]
  refine ⟨State.remeasure_state .., ?_⟩
  rw [State.remeasure_bevt, State.setLink_rd, State.stamped_rd _ _ (by decide), State.link_setLink _ _ _ (by intro; rfl),
    State.stamped_link]

end

/-! ### The round trip of a TIME_OUT port (R104, R108) -/

/-- A round trip is accepted or its exchange is discarded. -/
theorem State.roundTrip_cases (s : State) (p : Nat) (rt phi : Int) (f : State → State) :
    s.roundTrip p rt phi f = (f (s.tripTaken p rt phi)).measured p ∨ s.roundTrip p rt phi f = s.discardExchange p := by
  unfold State.roundTrip State.tripTaken
  extract_lets
  split
  · exact .inl rfl
  · exact .inr rfl

section
variable (s : State) (p : Nat) (body : List Byte) (x4 : Stamp) (seq : Nat) (rt phi : Int)

theorem State.tdreqAnswered_stamped_only : Only (some ([F.cal, F.cmd, F.fault, F.fresh, F.linkRun, F.links, F.refs, F.rings, F.servo,
    P.CMD_NOTICE_DROP, P.CMD_REFUSED_COUNT, P.HLT_FAULT_COUNT, P.HLT_STICKY, P.LNK_BEVT, P.LNK_FLAGS, P.LNK_STATE, P.REF_ACTIVE] ++
    [P.REF_BREF, P.REF_DEV, P.REF_FLAGS, P.REF_HO_C, P.REF_HO_D, P.REF_HO_Y0, P.REF_KIND, P.REF_QSTATE, P.REF_SWLOG_HEAD,
    P.REF_SWLOG_INFO, P.REF_SWLOG_TIME, P.REF_TSTATE, P.TBS_BOUND_NOW, P.TBS_BOUND_PS, P.TBS_DOM_SELECTED, P.TBS_OVER_LIMIT_COUNT]))
    s ((s.stamped p).tdreqAnswered p body x4) :=
  (((s.stamped_only p).mono rfl).step ((s.stamped p).tdreqHeard_only p body) rfl).step (State.nhpSend_only ..) rfl

theorem State.tripTested_rd (b i : Nat) :
    (s.tripTested p body x4 seq).rd b i = ((s.stamped p).tdreqAnswered p body x4).rd b i := State.setLink_rd ..

theorem tdreq_sent : ∀ y ∈ ((((s.tripTested p body x4 seq).roundTrip p rt phi id).measureFibre p).link p).sent, y.1 ≠ seq := by
  have hsent : (((s.tripTested p body x4 seq).roundTrip p rt phi id).link p).sent = ((s.tripTested p body x4 seq).link p).sent := by
    rcases (s.tripTested p body x4 seq).roundTrip_cases p rt phi id with h | h <;> rw [h]
    · rw [(State.measured_continues ..).sent, id_eq, State.tripTaken_link]
    · exact (State.discardExchange_continues ..).sent
  rw [State.measureFibre_link, hsent, State.tripTested, State.dropSent_link]
  intro y hy
  simpa using (List.mem_filter.mp hy).2

variable {s p body x4 seq rt phi}

/-- A round trip in range of a port that does not track is taken (R108). -/
theorem tdreq_accepts (h0 : 0 ≤ rt) (hmax : rt ≤ 250000000) (h3 : s.rd P.LNK_STATE p ≠ 3) :
    (((s.tripTested p body x4 seq).roundTrip p rt phi id).measureFibre p).rd P.LNK_RT p = rt.toNat ∧
      ((((s.tripTested p body x4 seq).roundTrip p rt phi id).measureFibre p).link p).lastRt = some (rt, phi) := by
  have hstate : (s.tripTested p body x4 seq).rd P.LNK_STATE p ≠ 3 := fun h =>
    h3 ((s.stamped_rd p (by decide) p).symm.trans
      ((s.stamped p).tdreqAnswered_tracking p body x4 ((s.tripTested_rd ..).symm.trans h)))
  rw [State.measureFibre_link, (State.measureFibre_only ..).rd _ _ (by decide) rfl,
    State.roundTrip_accepts h0 hmax fun _ _ _ => .inl hstate, (State.measured_only ..).rd _ _ (by decide) rfl, id_eq,
    State.tripTaken_rt, (State.measured_continues ..).lastRt, State.tripTaken_link]
  exact ⟨rfl, rfl⟩

/-- A round trip out of range is discarded and counted (R108). -/
theorem tdreq_discards (hbad : rt < 0 ∨ 250000000 < rt) :
    (((s.tripTested p body x4 seq).roundTrip p rt phi id).measureFibre p).rd P.LNK_RT p = s.rd P.LNK_RT p ∧
      (((s.tripTested p body x4 seq).roundTrip p rt phi id).measureFibre p).rd P.LNK_DISCARDS p =
        (s.rd P.LNK_DISCARDS p + 1) % 2 ^ 48 := by
  have hanswered := s.tdreqAnswered_stamped_only p body x4
  rw [(State.measureFibre_only ..).rd _ _ (by decide) rfl, (State.measureFibre_only ..).rd _ _ (by decide) rfl,
    State.roundTrip_discards (hbad.imp_right .inl), (State.discardExchange_only ..).rd _ _ (by decide) rfl,
    State.discardExchange_counts, State.tripTested_rd, State.tripTested_rd, hanswered.rd _ _ (by decide) rfl,
    hanswered.rd _ _ (by decide) rfl]
  exact ⟨rfl, rfl⟩

end

/-- The TDRESP goes out before the round trip is tested (R105). -/
theorem tdreq_answers {s : State} {p : Nat} {body : List Byte} (hruns : s.timingRuns p = true) (hquiet : (beAt 2 1 body).testBit 0 = false)
    {x4 : Stamp} {seq : Nat} {rt phi : Int} :
    (s.out ++ [.frame p (s.nhpFrame p (s.rd P.HIE_PORT_VERSION p) 0x12 8 (s.rd P.HIE_IDENTITY) p (toBe 2 (beAt 0 2 body) ++
      toBe 1 (b2n (s.bEvt p != 0)) ++ [0] ++ x4.field ++ toBe 4 (s.bPort p + s.bEvt p)))]) <+:
        (((s.tripTested p body x4 seq).roundTrip p rt phi id).measureFibre p).out := by
  have hout := (s.stamped p).tdreqAnswered_out p body x4 ((s.stamped_nhpRuns ..).trans (State.timingRuns_nhpRuns hruns)) hquiet
  simp (disch := decide) only [State.stamped_out, State.stamped_nhpFrame, State.stamped_rd, State.stamped_bEvt, State.stamped_bPort] at hout
  have hdrop : (s.tripTested p body x4 seq).out = ((s.stamped p).tdreqAnswered p body x4).out := State.setLink_out ..
  rw [← hout, ← hdrop]
  exact (State.roundTrip_only (W := none) _ p rt phi id (fun t => Only.refl _ t) rfl).keeps.out.trans (State.measureFibre_only ..).keeps.out

/-! ### The obligation -/

/-- Settles O42: each message is followed from the state that hears it to the round trip that accepts or discards its exchange. -/
theorem timeLinkExchange : Obligations.TimeLinkExchange := by
  unfold Obligations.TimeLinkExchange
  refine ⟨?_, ?_, ?_, ?_, ?_, ?_, ?_, ?_, ?_, ?_, ?_, ?_, ?_, ?_, ?_, ?_, ?_⟩
  · intro port raw1 s hruns hrole hfree
    have hexec := exec_tsyncSend_sends (raw1 := raw1) hruns hrole hfree
    have hlink := s.tsyncSent_link port.val raw1
    refine ⟨_, hexec, tsyncSent_sends hruns, congrArg Link.seq hlink, ?_, (execTsyncSend_only port raw1 s).next _ hexec⟩
    rw [hlink]
    exact List.mem_append_right _ List.mem_cons_self
  · exact fun port raw1 s h => exec_tsyncSend_waits h
  · intro port body raw2 raw3 s hlen hruns hrole
    have hexec := exec_tsync_hears (raw2 := raw2) (raw3 := raw3) hlen hruns hrole
    obtain ⟨hns, hsub⟩ := s.tsyncHeard_txMark port.val body raw3
    generalize hx3 : ((s.stamped port.val).tsyncHeard port.val body).txMark port.val raw3 = x3 at hexec hns hsub
    have hlink := (s.stamped port.val).tsyncAnswered_link port.val body (s.rxMark port.val raw2) x3
    have hflags := (s.stamped port.val).tsyncAnswered_rd port.val body (s.rxMark port.val raw2) x3 (b := P.LNK_FLAGS) (by decide) rfl
    obtain ⟨hfar, hconflict⟩ := (s.stamped port.val).tsyncHeard_flags port.val body
    refine ⟨_, _, x3, hexec, rfl, hns, hsub, ?_, (congrArg (Nat.testBit · 4) (hflags _)).trans hfar,
      (congrArg (Nat.testBit · 0) (hflags _)).trans hconflict, congrArg Link.hops hlink, ?_, ?_, ?_,
      (execTsync_only port body raw2 raw3 s).next _ hexec⟩
    · rw [hlink, State.tsyncExchange_stamped]
      exact List.mem_append_right _ List.mem_cons_self
    · intro hhops hstate
      rw [State.tsyncAnswered_rd _ _ _ _ _ (by decide) rfl]
      exact State.tsyncHeard_state _ _ _ hhops (by rwa [State.stamped_rd _ _ (by decide)])
    · intro hhops
      rw [State.tsyncAnswered_out _ _ _ _ _ ((s.stamped_nhpRuns ..).trans (State.timingRuns_nhpRuns hruns)) hhops]
      simp (disch := decide) only [State.stamped_out, State.stamped_nhpFrame, State.stamped_rd, State.stamped_bEvt]
    · intro hsource
      rw [State.tsyncAnswered_rd _ _ _ _ _ (by decide) rfl,
        State.tsyncHeard_offset _ _ _ ((s.stamped_rd _ (by decide) _).trans_ne hsource), State.stamped_rd _ _ (by decide)]
  · intro port body raw2 raw3 s hlen hruns hrole
    have hstate : (s.stamped port.val).rd P.LNK_STATE port.val = s.rd P.LNK_STATE port.val := s.stamped_rd _ (by decide) _
    refine ⟨_, exec_tsync_sameRole hlen hruns hrole, fun h1 => ?_, fun h1 => State.roleSeen_idle _ _ (hstate.trans_ne h1), ?_⟩
    · rw [State.roleSeen_same _ _ (hstate.trans h1), State.linkFlag, State.rd_wr_self]
      exact putBit_testBit_self ..
    · by_cases h1 : s.rd P.LNK_STATE port.val = 1
      · rw [State.roleSeen_same _ _ (hstate.trans h1)]
        exact ((s.stamped_only _).mono rfl).step (State.linkFlag_only ..) rfl
      · rw [State.roleSeen_idle _ _ (hstate.trans_ne h1)]
        exact (s.stamped_only _).mono rfl
  · intro port body raw4 s seq t1 rt x4 hlen hruns hrole hsent hx4 hrt
    have hexec := exec_tdreq_known hlen hruns hrole hsent hx4
    rw [← hrt] at hexec
    refine ⟨_, hexec, fun hquiet => tdreq_answers hruns hquiet, tdreq_sent _ _ _ _ _ _ _, fun h0 hmax h3 => ?_, fun hbad => ?_,
      (execTdreq_only port body raw4 s).next _ hexec⟩
    · exact tdreq_accepts h0 hmax h3
    · exact tdreq_discards hbad
  · intro port body raw4 s hlen hruns
    refine ⟨fun hrole hsent => ?_, fun hrole hstate => exec_tdreq_sameRole hlen hruns hrole hstate⟩
    have hexec := exec_tdreq_unknown (raw4 := raw4) hlen hruns hrole hsent
    have hanswered := s.tdreqAnswered_stamped_only port.val body (s.rxMark port.val raw4)
    refine ⟨_, hexec, ?_, ?_, (execTdreq_only port body raw4 s).next _ hexec⟩
    · rw [(State.discardExchange_only ..).rd _ _ (by decide) rfl, hanswered.rd _ _ (by decide) rfl]
    · rw [State.discardExchange_counts, hanswered.rd _ _ (by decide) rfl]
  · intro port body s x rt theta hlen hruns hrole hx htime hrt h0 hmax hsteady htheta
    have hexec := tdresp_completes hlen hruns hrole hx htime hrt h0 hmax hsteady
    have heard := s.tdrespHeard_only port.val body
    have hcont := s.tdrespHeard_continues port.val body
    have hrole' : (s.tdrespHeard port.val body).rd P.LNK_ROLE port.val = 1 := (heard.rd _ _ (by decide) rfl).trans hrole
    have hasym : (s.tdrespHeard port.val body).rdS 32 P.LNK_ASYM port.val = s.rdS 32 P.LNK_ASYM port.val := by
      rw [State.rdS, heard.rd _ _ (by decide) rfl]; rfl
    obtain ⟨b, hlink⟩ := (s.tdrespHeard port.val body).exchangeCompleted_link port.val x rt (beAt 16 4 body)
    refine ⟨_, hexec, State.exchangeCompleted_rt .., ?_, ?_, congrArg Link.lastRt hlink, congrArg Link.hops hlink,
      congrArg Link.upBound hlink, ?_, congrArg Link.discards hlink, fun h3 hquiet => ?_, (execTdresp_only port body s).next _ hexec⟩
    · rw [State.exchangeCompleted_offset _ _ _ _ _ hrole', hasym, hcont.phase, htheta]
    · rw [hlink, hasym, htheta]
    · rw [hlink]
      intro y hy
      simpa using (List.mem_filter.mp hy).2
    · rw [← (heard.agrees rfl).linkRefs]
      exact State.exchangeCompleted_tracking _ _ _ _ _ port.isLt ((heard.lockedPort rfl _).trans (State.timingRuns_lockedPort hruns)) hrole'
        ((s.tdrespHeard_quiet port.val body hquiet).trans h3)
  · intro port body s x rt hlen hruns hrole hx hrt hbad
    have hexec := tdresp_discards hlen hruns hrole hx hrt hbad
    obtain ⟨hcount, htrip⟩ := tdresp_dropped (s := s) (port := port) (body := body) x
    exact ⟨_, hexec, hcount, htrip, State.discarded_exchanges _ _ _, (execTdresp_only port body s).next _ hexec⟩
  · intro port body s hlen hruns hrole hnone
    have hexec := exec_tdresp_hears hlen hruns hrole
    have heard := s.tdrespHeard_only port.val body
    have hcont := s.tdrespHeard_continues port.val body
    rw [← hcont.exchanges] at hnone
    refine ⟨_, hexec, ?_, fun hidle => ?_, fun x r hxs => ?_, (execTdresp_only port body s).next _ hexec⟩
    · cases hxs : (s.link port.val).exchanges with
      | nil =>
        rw [State.exchangeAnswered_idle (hcont.exchanges.trans hxs), heard.rd _ _ (by decide) rfl]
      | cons x r =>
        rw [State.exchangeAnswered_unmatched hnone (hcont.exchanges.trans hxs)]
        exact (tdresp_dropped x).2
    · rw [State.exchangeAnswered_idle (hcont.exchanges.trans hidle), heard.rd _ _ (by decide) rfl]
    · rw [State.exchangeAnswered_unmatched hnone (hcont.exchanges.trans hxs)]
      exact ⟨(tdresp_dropped x).1, State.discarded_exchanges _ _ _⟩
  · intro port body s hlen hruns hrole h3 hw hbit hidle
    have hexec := exec_tdresp_hears hlen hruns hrole
    rw [State.exchangeAnswered_idle ((s.tdrespHeard_continues port.val body).exchanges.trans hidle)] at hexec
    obtain ⟨hstate, hbevt⟩ := State.tdrespHeard_widens h3 hw hbit
    exact ⟨_, hexec, hstate, hbevt, (execTdresp_only port body s).next _ hexec⟩
  · intro port s x hx
    have hexec := exec_respTimeout_overdue hx
    have hdrop := s.dropExchange_link port.val x.seq
    refine ⟨_, hexec, ?_, (s.dropped_discards port.val x.seq).1, fun h3 hmax => ?_, (execRespTimeout_only port s).next _ hexec⟩
    · rw [(State.discardExchange_continues ..).exchanges, hdrop]
    · have hmany := State.discardExchange_remeasures (s.dropExchange port.val x.seq) port.val ((s.dropExchange_rd ..).trans h3)
        (by rw [State.dropExchange_rd, hdrop]; exact hmax)
      rwa [State.dropExchange_rd, hdrop] at hmany
  · exact fun port s h => exec_respTimeout_waits h
  · intro port body s hlen hruns hkind hrole
    refine ⟨_, exec_tcal_request hlen hruns hkind hrole, List.mem_append_right _ List.mem_cons_self, ?_⟩
    exact ((s.stamped_only _).mono rfl).set_tcal rfl _
  · intro port body s r hlen hruns hkind hrun hport hseq
    exact ⟨_, exec_tcal_report hlen hruns hkind hrun hport hseq, rfl, ((s.stamped_only _).mono rfl).set_linkRun rfl _⟩
  · intro port body s hlen hruns hkind
    refine ⟨_, exec_tcal_end hlen hruns hkind, fun c hc => ?_, ((s.stamped_only _).mono rfl).set_tcal rfl _⟩
    simpa using (List.mem_filter.mp hc).2
  · exact fun port body s hlen hother => exec_tcal_ignored hlen hother
  · intro port body a b s
    have hcount := s.malformed_counts port.val
    have hframe := s.malformed_only port.val
    exact ⟨fun h => ⟨_, exec_tsync_malformed h, hcount, hframe⟩,
      fun h => ⟨_, exec_tdreq_malformed h, exec_tcal_malformed h, hcount, hframe⟩,
      fun h => ⟨_, exec_tdresp_malformed h, hcount, hframe⟩,
      fun hidle => ⟨exec_tsync_idle hidle, fun h => ⟨exec_tdreq_idle hidle h, exec_tcal_idle hidle h⟩, exec_tdresp_idle hidle⟩⟩

end Sys2Proof.Machine
end

section
/-! ## References: what every change of TSTATE brings with it (R141, R145, R146, R148, R149) -/

namespace Sys2Proof.Machine

/-! ### The servo and the flags while a change is concluded -/

/-- What the conclusion of a change keeps of the servo: B_frz and the loss that it dates from, the pull, and the start of ACQUIRE. The WTR
timer may be stopped. -/
structure Servo.Concludes (v w : Servo) : Prop where
  frozen : w.frozen = v.frozen
  lossAt : w.lossAt = v.lossAt
  phi : w.phi = v.phi
  acqSince : w.acqSince = v.acqSince
  wtr : w.wtr = v.wtr ∨ w.wtr = none

theorem Servo.Concludes.refl (v : Servo) : v.Concludes v := ⟨rfl, rfl, rfl, rfl, .inl rfl⟩

theorem Servo.Concludes.trans {u v w : Servo} (h : u.Concludes v) (g : v.Concludes w) : u.Concludes w where
  frozen := g.frozen.trans h.frozen
  lossAt := g.lossAt.trans h.lossAt
  phi := g.phi.trans h.phi
  acqSince := g.acqSince.trans h.acqSince
  wtr := g.wtr.elim (fun e => h.wtr.imp e.trans e.trans) .inr

/-- From `s` to `t` a change is concluded: the servo goes on, no flag falls, and whether a command gathers its changes stays, as does the
head of the switch log. -/
structure State.Concluding (s t : State) : Prop where
  servo : s.servo.Concludes t.servo
  batch : t.servo.batch = s.servo.batch
  flags : ∀ i, (s.rd P.REF_FLAGS).testBit i = true → (t.rd P.REF_FLAGS).testBit i = true
  head : t.rd P.REF_SWLOG_HEAD = s.rd P.REF_SWLOG_HEAD

theorem State.Concluding.refl (s : State) : s.Concluding s := ⟨.refl _, rfl, fun _ h => h, rfl⟩

section
variable {s t u : State} (h : s.Concluding t)
include h

theorem State.Concluding.trans (g : t.Concluding u) : s.Concluding u :=
  ⟨h.servo.trans g.servo, g.batch.trans h.batch, fun i e => g.flags i (h.flags i e), g.head.trans h.head⟩

/-- An operation whose frame leaves out the servo, the flags and the switch log. -/
theorem State.Concluding.only {W : Option (List Nat)} (g : Only W t u) (hv : allows W F.servo = false)
    (hf : spares W [P.REF_FLAGS, P.REF_SWLOG_HEAD] = true) : s.Concluding u := by
  refine h.trans ⟨?_, by rw [g.servo hv], fun i e => ?_, g.agrees hf _ (by decide) 0⟩
  · rw [g.servo hv]; exact .refl _
  · rwa [g.agrees hf P.REF_FLAGS (by decide)]

theorem State.Concluding.setServo (f : Servo → Servo) (hf : t.servo.Concludes (f t.servo)) (hb : (f t.servo).batch = t.servo.batch) :
    s.Concluding (t.setServo f) := h.trans ⟨hf, hb, fun _ e => e, rfl⟩

theorem State.Concluding.flag (m : Nat) : s.Concluding (t.orIn P.REF_FLAGS 0 m) := by
  refine h.trans ⟨.refl _, rfl, fun i e => ?_, State.rd_wr_base _ (by decide) ..⟩
  rw [State.orIn, State.rd_wr_self, Nat.testBit_or, e, Bool.true_or]

theorem State.Concluding.cond (c : Prop) [Decidable c] (g : s.Concluding u) : s.Concluding (if c then t else u) := by
  split <;> assumption

end

theorem State.refreshBound_concluding (s : State) : s.Concluding s.refreshBound := by
  have hwr : ∀ b n, s.Concluding ((s.wr P.TBS_BOUND_PS 0 b).wr P.TBS_BOUND_NOW 0 n) := fun b n =>
    (State.Concluding.refl s).only (W := some [P.TBS_BOUND_NOW, P.TBS_BOUND_PS]) (((Only.refl _ s).wr rfl _ _).wr rfl _ _) rfl rfl
  unfold State.refreshBound
  split
  · exact hwr ..
  · exact .cond ((hwr ..).setServo _ ⟨rfl, rfl, rfl, rfl, .inl rfl⟩ rfl) _ (hwr ..)

theorem State.steerNow_concluding (s : State) : s.Concluding s.steerNow := by
  unfold State.steerNow
  split
  · exact (State.Concluding.refl s).setServo _ ⟨rfl, rfl, rfl, rfl, .inl rfl⟩ rfl
  · exact (State.Concluding.refl s).setServo _ ⟨rfl, rfl, rfl, rfl, .inl rfl⟩ rfl
  · exact (State.Concluding.refl s).setServo _ ⟨rfl, rfl, rfl, rfl, .inl rfl⟩ rfl
  · exact .refl s

/-! ### The event of a change -/

theorem State.switchEvent_head (s : State) (fromRef cause : Nat) (again : Bool) :
    (s.switchEvent fromRef cause again).rd P.REF_SWLOG_HEAD = (s.rd P.REF_SWLOG_HEAD + 1) % 64 := by
  unfold State.switchEvent
  extract_lets h w t
  rw [(State.notice_only ..).rd _ _ (by decide) rfl, State.rd_wr_self]

/-- A change is concluded first, and then gathered by the command that makes it or written as a switch event. -/
theorem State.conclude_event {s before : State} (cause : Nat)
    (h : ¬ (before.rd P.REF_TSTATE = s.rd P.REF_TSTATE ∧ before.rd P.REF_ACTIVE = s.rd P.REF_ACTIVE)) :
    ∃ (u : State) (again : Bool), s.Concluding u ∧
      (∀ sofar, s.servo.batch = some sofar → s.conclude before cause = u.gather ⟨before.rd P.REF_ACTIVE, cause, again⟩ sofar) ∧
      (s.servo.batch = none → s.conclude before cause = u.switchEvent (before.rd P.REF_ACTIVE) cause again) := by
  unfold State.conclude
  extract_lets ts0 a0 ts a bounded dated steered timed dropped stopped faulted again
  rw [if_neg h]
  have hdated : s.Concluding dated :=
    .cond (s.refreshBound_concluding.setServo _ ⟨rfl, rfl, rfl, rfl, .inl rfl⟩ rfl) _ s.refreshBound_concluding
  have hsteered := hdated.trans dated.steerNow_concluding
  have htimed : s.Concluding timed := .cond (hsteered.setServo _ ⟨rfl, rfl, rfl, rfl, .inl rfl⟩ rfl) _ hsteered
  have hdropped : s.Concluding dropped := .cond (htimed.flag _) _ htimed
  have hstopped : s.Concluding stopped := .cond hdropped _ (hdropped.setServo _ ⟨rfl, rfl, rfl, rfl, .inr rfl⟩ rfl)
  have hfaulted : s.Concluding faulted := .cond (hstopped.only (State.sticky_only ..) rfl rfl) _ hstopped
  exact ⟨faulted, again, hfaulted, fun sofar hsome => by simp only [hfaulted.batch, hsome]; rfl,
    fun hnone => by simp only [hfaulted.batch, hnone]; rfl⟩

/-- What a concluded change keeps of the servo and of the flags. -/
theorem State.conclude_keeps (s before : State) (cause : Nat) : s.servo.Concludes (s.conclude before cause).servo ∧
    ∀ i, (s.rd P.REF_FLAGS).testBit i = true → ((s.conclude before cause).rd P.REF_FLAGS).testBit i = true := by
  by_cases hsame : before.rd P.REF_TSTATE = s.rd P.REF_TSTATE ∧ before.rd P.REF_ACTIVE = s.rd P.REF_ACTIVE
  · have hnone : s.conclude before cause = s := if_pos hsame
    rw [hnone]
    exact ⟨.refl _, fun _ h => h⟩
  · obtain ⟨u, again, hu, hgathered, hwritten⟩ := State.conclude_event cause hsame
    cases hbatch : s.servo.batch with
    | some sofar =>
      rw [hgathered sofar hbatch]
      exact ⟨hu.servo.trans ⟨rfl, rfl, rfl, rfl, .inl rfl⟩, hu.flags⟩
    | none =>
      have hframe := u.switchEvent_only (before.rd P.REF_ACTIVE) cause again
      rw [hwritten hbatch, hframe.servo rfl, hframe.rd _ _ (by decide) rfl]
      exact ⟨hu.servo, hu.flags⟩

/-- A change that no command gathers is one event of the switch log (R149). -/
theorem State.conclude_logs {s before : State} (cause : Nat) (hts : before.rd P.REF_TSTATE ≠ s.rd P.REF_TSTATE)
    (hbatch : s.servo.batch = none) :
    (s.conclude before cause).rd P.REF_SWLOG_HEAD = (s.rd P.REF_SWLOG_HEAD + 1) % 64 := by
  obtain ⟨u, again, hu, -, hwritten⟩ := State.conclude_event (s := s) (before := before) cause fun h => hts h.1
  rw [hwritten hbatch, State.switchEvent_head, hu.head]

theorem State.conclude_tstate (s before : State) (cause : Nat) : (s.conclude before cause).rd P.REF_TSTATE = s.rd P.REF_TSTATE :=
  (State.conclude_only ..).rd _ _ (by decide) rfl

theorem State.conclude_active (s before : State) (cause : Nat) : (s.conclude before cause).rd P.REF_ACTIVE = s.rd P.REF_ACTIVE :=
  (State.conclude_only ..).rd _ _ (by decide) rfl

end Sys2Proof.Machine
end

section
/-! ## References: the transitions that the pins call for (R138, R139, R145, R146, R148) -/

namespace Sys2Proof.Machine

section
variable {s : State}

/-! ### The reference that the pins name -/

theorem State.isAuto_pins (h : s.rd P.REF_PINS < 7) : s.isAuto = false := by
  unfold State.isAuto
  exact beq_eq_false_iff_ne.mpr h.ne

theorem State.qualified_iff (r : Nat) : s.qualified r = true ↔ r < 7 ∧ s.qstate r = 2 := by
  unfold State.qualified
  rw [Bool.and_eq_true, decide_eq_true_eq, beq_iff_eq]

theorem State.selected_pins {p : Nat} (hpins : s.rd P.REF_PINS = p) (hp : p < 7) (hq : s.qstate p = 2) : s.selected = some p := by
  unfold State.selected
  rw [State.isAuto_pins (hpins.trans_lt hp), hpins, if_neg Bool.false_ne_true, if_pos ((State.qualified_iff p).mpr ⟨hp, hq⟩)]

theorem State.selected_pins_none {p : Nat} (hpins : s.rd P.REF_PINS = p) (hp : p < 7) (hq : s.qstate p ≠ 2) : s.selected = none := by
  unfold State.selected
  rw [State.isAuto_pins (hpins.trans_lt hp), hpins, if_neg Bool.false_ne_true,
    if_neg fun h => hq ((State.qualified_iff p).mp h).2]

/-- What the selection by the pins looks at. -/
def pinReads : List Nat := [P.REF_PINS, P.REF_QSTATE]

theorem Agrees.selected_pins {t : State} (h : Agrees pinReads s t) (hpins : s.rd P.REF_PINS < 7) : t.selected = s.selected := by
  have hsame : t.rd P.REF_PINS = s.rd P.REF_PINS := h _ (by decide) 0
  have hqualified : ∀ r, t.qualified r = s.qualified r := fun r => by
    unfold State.qualified State.qstate
    rw [h _ (by decide)]
  unfold State.selected
  rw [State.isAuto_pins hpins, State.isAuto_pins (hsame.trans_lt hpins), hsame, hqualified, if_neg Bool.false_ne_true,
    if_neg Bool.false_ne_true]

/-! ### One transition -/

theorem State.followSelection_freerun {r : Nat} (hts : s.rd P.REF_TSTATE = 0) (hsel : s.selected = some r) (lost : Nat) :
    s.followSelection lost = s.toAcquire r := by
  unfold State.followSelection
  simp only [hts, hsel]

theorem State.followSelection_acquiring {r : Nat} (hts : s.rd P.REF_TSTATE = 1) (hsel : s.selected = some r)
    (ha : s.rd P.REF_ACTIVE = r) (lost : Nat) : s.followSelection lost = s := by
  unfold State.followSelection
  simp only [hts, hsel, ha, if_true]

theorem State.followSelection_moves {r : Nat} (hts : s.rd P.REF_TSTATE = 2) (hpins : s.isAuto = false) (hsel : s.selected = some r)
    (hkind : s.rd P.REF_KIND r = 1) (ha : r ≠ s.rd P.REF_ACTIVE) (lost : Nat) :
    s.followSelection lost = (s.freeze (s.leftAt (s.rd P.REF_ACTIVE) lost)).toPulling r false := by
  unfold State.followSelection
  simp only [hts, hpins, hsel, if_pos hkind, if_neg ha, Bool.false_eq_true, if_false]

theorem State.followSelection_loses (hts : s.rd P.REF_TSTATE = 2) (hpins : s.isAuto = false) (hsel : s.selected = none) (lost : Nat) :
    s.followSelection lost = (s.freeze lost).toHoldover := by
  unfold State.followSelection
  simp only [hts, hpins, hsel, Bool.false_eq_true, if_false]

theorem State.followSelection_pulling {r : Nat} (hts : s.rd P.REF_TSTATE = 3) (hpins : s.isAuto = false) (hsel : s.selected = some r)
    (hkind : s.rd P.REF_KIND r = 1) (ha : s.rd P.REF_ACTIVE = r) (lost : Nat) : s.followSelection lost = s := by
  unfold State.followSelection
  simp only [hts, hpins, hsel, ha, hkind, if_true, Bool.false_eq_true, if_false, not_true_eq_false, and_false, ne_eq]

theorem State.followSelection_held (hts : s.rd P.REF_TSTATE = 4 ∨ s.rd P.REF_TSTATE = 5) (hsel : s.selected = none) (lost : Nat) :
    s.followSelection lost = s := by
  unfold State.followSelection
  rcases hts with hts | hts <;> simp only [hts, hsel]

/-! ### What a transition leaves (R145, R146, R148) -/

theorem State.freeze_frozen (lost : Nat) : (s.freeze lost).servo.frozen =
    if s.frozenBref (s.rd P.REF_ACTIVE) = noBound then none else some (s.frozenBref (s.rd P.REF_ACTIVE)) := rfl

theorem State.toAcquire_tstate (r : Nat) : (s.toAcquire r).rd P.REF_TSTATE = 1 := by
  unfold State.toAcquire
  rw [State.setServo_rd, State.put_tstate]

theorem State.toAcquire_active (r : Nat) : (s.toAcquire r).rd P.REF_ACTIVE = r := by
  unfold State.toAcquire
  rw [State.setServo_rd, State.put_active]

/-- A pull that begins runs by the phase of its reference; what is frozen of the one left stays. -/
theorem State.toPulling_servo (r : Nat) (again : Bool) :
    (s.toPulling r again).servo.frozen = s.servo.frozen ∧ (s.toPulling r again).servo.lossAt = s.servo.lossAt ∧
      (s.toPulling r again).servo.phi = s.rdS 64 P.REF_PHASE r * 10000000 ∧ (s.toPulling r again).servo.wtr = none := by
  unfold State.toPulling State.pullBy
  dsimp only
  split <;> exact ⟨rfl, rfl, rfl, rfl⟩

theorem State.toPulling_tstate (r : Nat) (again : Bool) : (s.toPulling r again).rd P.REF_TSTATE = 3 := by
  unfold State.toPulling State.pullBy
  dsimp only
  split <;> simp only [State.setServo_rd, State.put_tstate]

theorem State.toPulling_active (r : Nat) (again : Bool) : (s.toPulling r again).rd P.REF_ACTIVE = r := by
  unfold State.toPulling State.pullBy
  dsimp only
  split <;> simp only [State.setServo_rd, State.put_active]

/-- HOLDOVER or HOLDOVER_LATE (R148): nothing is active, HOLDOVER_ENTERED is set and B_frz is `b`. -/
structure State.Held (t : State) (b : Option Nat) : Prop where
  tstate : t.rd P.REF_TSTATE = 4 ∨ t.rd P.REF_TSTATE = 5
  active : t.rd P.REF_ACTIVE = 8
  flag : (t.rd P.REF_FLAGS).testBit 4 = true
  frozen : t.servo.frozen = b

theorem State.late_held {b : Option Nat} (h : s.Held b) : s.late.Held b := by
  refine ⟨.inr s.late_tstate, (s.late_only.rd _ _ (by decide) rfl).trans h.active, ?_, h.frozen⟩
  rw [State.late, State.orIn, State.rd_wr_self, Nat.testBit_or, State.rd_wr_base _ (by decide), h.flag, Bool.true_or]

theorem State.heldFlag_held {b : Option Nat} (hts : s.rd P.REF_TSTATE = 4) (ha : s.rd P.REF_ACTIVE = 8) (hb : s.servo.frozen = b) :
    (s.orIn P.REF_FLAGS 0 16).Held b := by
  refine ⟨.inl ((State.rd_wr_base _ (by decide) ..).trans hts), (State.rd_wr_base _ (by decide) ..).trans ha, ?_, hb⟩
  rw [State.orIn, State.rd_wr_self, Nat.testBit_or, show (16 : Nat).testBit 4 = true from rfl, Bool.or_true]

/-- The growth so far and the instant from which it goes on are not B_frz. -/
theorem Servo.frozen_of_growth (v : Servo) (base start dT : Nat) :
    ({ v with hBase := base, hFrom := start, dT := dT } : Servo).frozen = v.frozen := rfl

theorem State.takeModel_frozen (s : State) (c : Nat) : (s.takeModel c).servo.frozen = s.servo.frozen := rfl

theorem State.modelFrom_frozen (s : State) (c : Nat) : (s.modelFrom c).servo.frozen = s.servo.frozen :=
  (State.takeModel_frozen ..).trans (Servo.frozen_of_growth ..)

theorem State.toHoldover_held (s : State) : s.toHoldover.Held s.servo.frozen := by
  unfold State.toHoldover
  extract_lets modelled continued entered
  have hmodelled : Only (some [F.fresh, P.REF_HO_C, P.REF_HO_D, P.REF_HO_Y0]) (s.put 4 8) modelled := State.holdoverModel_only _
  have hcontinued : Only (some [F.servo]) modelled continued := .cond _ (.refl _ _) (State.modelFrom_only ..)
  have hfrozen : continued.servo.frozen = modelled.servo.frozen := by
    dsimp only [continued]
    split
    · rfl
    · exact State.modelFrom_frozen ..
  have hentered : entered.Held s.servo.frozen := State.heldFlag_held
    ((hcontinued.rd _ _ (by decide) rfl).trans ((hmodelled.rd _ _ (by decide) rfl).trans (s.put_tstate 4 8)))
    ((hcontinued.rd _ _ (by decide) rfl).trans ((hmodelled.rd _ _ (by decide) rfl).trans (s.put_active 4 8)))
    (hfrozen.trans (by rw [hmodelled.servo rfl]; rfl))
  cases entered.bMod (entered.clock + 1000000) with
  | some b =>
    dsimp only
    split
    · exact State.late_held hentered
    · exact hentered
  | none => exact hentered

/-- A change that is concluded leaves the module in holdover. -/
theorem State.Held.conclude {t : State} {b : Option Nat} (h : t.Held b) (before : State) (cause : Nat) :
    (t.conclude before cause).Held b := by
  obtain ⟨hservo, hflags⟩ := t.conclude_keeps before cause
  exact ⟨by rw [State.conclude_tstate]; exact h.tstate, (State.conclude_active ..).trans h.active, hflags 4 h.flag,
    hservo.frozen.trans h.frozen⟩

/-! ### The selection looked at again -/

section
variable {p : Nat} (hpins : s.rd P.REF_PINS = p) (hp : p < 7)
include hpins hp

/-- In FREERUN the reference that the pins name is acquired (R148). -/
theorem State.reselect_acquires (hts : s.rd P.REF_TSTATE = 0) (hq : s.qstate p = 2) (cause lost : Nat) :
    s.reselect cause lost = (s.toAcquire p).conclude s cause := by
  have hsel := State.selected_pins hpins hp hq
  have hsel' : (s.toAcquire p).selected = some p :=
    (Agrees.selected_pins ((s.toAcquire_only p).agrees rfl) (hpins.trans_lt hp)).trans hsel
  rw [State.reselect, State.followSelection_freerun hts hsel,
    State.followSelection_acquiring (State.toAcquire_tstate p) hsel' (State.toAcquire_active p)]

/-- In LOCKED another time reference that the pins name is pulled to (R138, R146). -/
theorem State.reselect_pulls (hts : s.rd P.REF_TSTATE = 2) (hq : s.qstate p = 2) (hkind : s.rd P.REF_KIND p = 1)
    (ha : s.rd P.REF_ACTIVE ≠ p) (cause lost : Nat) :
    s.reselect cause lost = ((s.freeze (s.leftAt (s.rd P.REF_ACTIVE) lost)).toPulling p false).conclude s cause := by
  have hsel := State.selected_pins hpins hp hq
  have hframe := ((s.freeze_only (s.leftAt (s.rd P.REF_ACTIVE) lost)).mono rfl).trans (State.toPulling_only _ p false)
  have hauto := State.isAuto_pins (hpins.trans_lt hp)
  have hauto' := State.isAuto_pins ((hframe.rd P.REF_PINS 0 (by decide) rfl).trans_lt (hpins.trans_lt hp))
  have hsel' := (Agrees.selected_pins (hframe.agrees rfl) (hpins.trans_lt hp)).trans hsel
  rw [State.reselect, State.followSelection_moves hts hauto hsel hkind ha.symm,
    State.followSelection_pulling (State.toPulling_tstate ..) hauto' hsel' ((hframe.rd _ _ (by decide) rfl).trans hkind)
      (State.toPulling_active ..)]

/-- In LOCKED a reference that the pins name and that is not QUALIFIED leaves the module in holdover, with the bound of the active reference
frozen (R138, R146, R148). -/
theorem State.reselect_holds (hts : s.rd P.REF_TSTATE = 2) (hq : s.qstate p ≠ 2) (cause lost : Nat) :
    (s.reselect cause lost).Held (s.freeze lost).servo.frozen := by
  have hsel := State.selected_pins_none hpins hp hq
  have hframe := ((s.freeze_only lost).mono rfl).trans (State.toHoldover_only _)
  have hsel' := (Agrees.selected_pins (hframe.agrees rfl) (hpins.trans_lt hp)).trans hsel
  have hheld := (s.freeze lost).toHoldover_held
  rw [State.reselect, State.followSelection_loses hts (State.isAuto_pins (hpins.trans_lt hp)) hsel,
    State.followSelection_held hheld.tstate hsel']
  exact hheld.conclude ..

end

end

end Sys2Proof.Machine
end

section
/-! ## References: pins, timers, the pull and the phase window (R132, R138, R140, R145, R148, R149) -/

namespace Sys2Proof.Machine

section
variable {s : State}

/-! ### REFSEL_CHANGE (R138) -/

section
variable {pins : Fin 8}

/-- The state in which a new pin value is acted on. -/
def State.pinned (s : State) (pins : Nat) : State := s.wr P.REF_PINS 0 pins

theorem State.pinned_rd (pins : Nat) {b : Nat} (hb : b ≠ P.REF_PINS) (i : Nat) : (s.pinned pins).rd b i = s.rd b i :=
  State.rd_wr_base _ hb ..

theorem exec_refselChange : exec (.refselChange pins) s =
    .next ((s.pinned pins.val).reselect 0 (s.mon (s.rd P.REF_ACTIVE)).lastGood) := rfl

theorem exec_refselChange_pins {t : State} (h : exec (.refselChange pins) s = .next t) : t.rd P.REF_PINS = pins.val := by
  obtain rfl := Host.Outcome.next.inj (exec_refselChange.symm.trans h)
  exact ((State.reselect_only ..).rd _ _ (by decide) rfl).trans (State.rd_wr_self ..)

theorem exec_refselChange_acquires (hts : s.rd P.REF_TSTATE = 0) (hp : pins.val < 7) (hq : s.qstate pins.val = 2) :
    exec (.refselChange pins) s = .next (((s.pinned pins.val).toAcquire pins.val).conclude (s.pinned pins.val) 0) :=
  congrArg _ (State.reselect_acquires (State.rd_wr_self ..) hp ((State.pinned_rd _ (by decide) _).trans hts)
    ((State.pinned_rd _ (by decide) _).trans hq) ..)

theorem exec_refselChange_pulls (hts : s.rd P.REF_TSTATE = 2) (hp : pins.val < 7) (hq : s.qstate pins.val = 2)
    (hkind : s.rd P.REF_KIND pins.val = 1) (ha : s.rd P.REF_ACTIVE ≠ pins.val) : ∃ lost, exec (.refselChange pins) s =
      .next ((((s.pinned pins.val).freeze lost).toPulling pins.val false).conclude (s.pinned pins.val) 0) :=
  ⟨_, congrArg _ (State.reselect_pulls (State.rd_wr_self ..) hp ((State.pinned_rd _ (by decide) _).trans hts)
    ((State.pinned_rd _ (by decide) _).trans hq) ((State.pinned_rd _ (by decide) _).trans hkind)
    ((State.pinned_rd _ (by decide) _).trans_ne ha) ..)⟩

theorem State.pinned_frozenBref (pins r : Nat) : (s.pinned pins).frozenBref r = s.frozenBref r := by
  unfold State.frozenBref
  rw [State.pinned_rd pins (by decide)]
  rfl

end

/-! ### WTR_EXPIRY (R140) -/

theorem State.isAuto_iff : s.isAuto = true ↔ s.rd P.REF_PINS = 7 := beq_iff_eq

section
variable {r since : Nat} (hwtr : s.servo.wtr = some (r, since))
include hwtr

theorem exec_wtrExpiry_running (h : ¬ (s.rd P.REF_TSTATE = 2 ∧ s.isAuto = true ∧ since + s.rd P.REF_WTR * 1000000000 ≤ s.clock)) :
    exec .wtrExpiry s = .next s := by
  show execWtrExpiry s = _
  unfold execWtrExpiry
  simp only [hwtr, if_neg h]

variable (hts : s.rd P.REF_TSTATE = 2) (hpins : s.rd P.REF_PINS = 7) (htime : since + s.rd P.REF_WTR * 1000000000 ≤ s.clock)
include hts hpins htime

theorem exec_wtrExpiry_pulls (hbest : s.autoChoice = some r) (hrank : s.ranksAbove r (s.rd P.REF_ACTIVE) = true) :
    exec .wtrExpiry s = .next (((s.freeze s.clock).toPulling r false).conclude s 2) := by
  show execWtrExpiry s = _
  unfold execWtrExpiry
  simp only [hwtr, if_pos (And.intro hts (And.intro (State.isAuto_iff.mpr hpins) htime)), if_pos (And.intro hbest hrank)]

theorem exec_wtrExpiry_keeps (h : s.autoChoice ≠ some r ∨ s.ranksAbove r (s.rd P.REF_ACTIVE) = false) :
    exec .wtrExpiry s = .next s.keepWtr := by
  have hworse : ¬ (s.autoChoice = some r ∧ s.ranksAbove r (s.rd P.REF_ACTIVE) = true) := fun hbest =>
    h.elim (· hbest.1) fun hno => Bool.false_ne_true (hno.symm.trans hbest.2)
  show execWtrExpiry s = _
  unfold execWtrExpiry
  simp only [hwtr, if_pos (And.intro hts (And.intro (State.isAuto_iff.mpr hpins) htime)), if_neg hworse]

end

theorem exec_wtrExpiry_waits (h : s.rd P.REF_TSTATE ≠ 2 ∨ s.rd P.REF_PINS ≠ 7 ∨
    ∀ r since, s.servo.wtr = some (r, since) → s.clock < since + s.rd P.REF_WTR * 1000000000) : exec .wtrExpiry s = .next s := by
  cases hwtr : s.servo.wtr with
  | none =>
    show execWtrExpiry s = _
    unfold execWtrExpiry
    simp only [hwtr]
  | some x =>
    refine exec_wtrExpiry_running (r := x.1) (since := x.2) hwtr ?_
    rintro ⟨hts, hauto, htime⟩
    rcases h with h | h | h
    · exact h hts
    · exact h (State.isAuto_iff.mp hauto)
    · exact Nat.not_le.mpr (h _ _ hwtr) htime

/-- A WTR timer that is kept runs for the AUTO choice, above the active reference (R140). -/
theorem State.keepWtr_names {r since : Nat} (h : s.keepWtr.servo.wtr = some (r, since)) :
    s.autoChoice = some r ∧ s.ranksAbove r (s.rd P.REF_ACTIVE) = true := by
  unfold State.keepWtr at h
  dsimp only at h
  split at h
  · next x hbest =>
    split at h
    · next hkeep =>
      obtain ⟨-, -, -, hrank⟩ := hkeep
      have hx : x = r := by
        rw [State.setServo_servo] at h
        dsimp only at h
        split at h
        · split at h
          · next hsame => exact hsame.symm.trans (Prod.mk.inj (Option.some.inj h)).1
          · exact (Prod.mk.inj (Option.some.inj h)).1
        · exact (Prod.mk.inj (Option.some.inj h)).1
      exact hx ▸ ⟨hbest, hrank⟩
    · exact nomatch h
  · exact nomatch h

theorem State.keepWtr_drops {r since : Nat} (h : s.autoChoice ≠ some r ∨ s.ranksAbove r (s.rd P.REF_ACTIVE) = false) :
    s.keepWtr.servo.wtr ≠ some (r, since) := fun hkept => by
  obtain ⟨hbest, hrank⟩ := State.keepWtr_names hkept
  exact h.elim (· hbest) fun hno => Bool.false_ne_true (hno.symm.trans hrank)

/-! ### PULL_END (R145) -/

theorem exec_pullEnd (hts : s.rd P.REF_TSTATE = 3) (hphi : s.phiUnits.natAbs ≤ s.rd P.REF_PULL_DONE * 10000000) :
    exec .pullEnd s = .next (s.toLocked.conclude s 12) := if_pos ⟨hts, hphi⟩

theorem exec_pullEnd_waits (h : s.rd P.REF_TSTATE ≠ 3 ∨ s.rd P.REF_PULL_DONE * 10000000 < s.phiUnits.natAbs) :
    exec .pullEnd s = .next s := if_neg fun hc => h.elim (· hc.1) fun hlt => Nat.not_le.mpr hlt hc.2

theorem State.alignM_dev (s : State) : s.alignM.rd P.REF_DEV (s.rd P.REF_ACTIVE) = 0 := State.rd_wr_self ..

theorem State.alignM_mOff (s : State) : s.alignM.servo.mOff = s.servo.modOsc := rfl

theorem State.toLocked_dev (s : State) : s.toLocked.rd P.REF_DEV (s.rd P.REF_ACTIVE) = 0 := by
  have haligned := (s.put 2 (s.rd P.REF_ACTIVE)).alignM_dev
  rw [State.put_active] at haligned
  exact haligned

/-! ### PH_WINDOW_END (R132) -/

theorem exec_phWindowEnd (hts : s.rd P.REF_TSTATE = 2) (htime : s.servo.winSince + s.rd P.REF_PH_WINDOW * 1000000000 ≤ s.clock) :
    exec .phWindowEnd s = .next ((if s.servo.winGood = true then s.alignM else s).setServo fun v =>
      { v with winSince := s.clock, winGood := true }) := if_pos ⟨hts, htime⟩

theorem exec_phWindowEnd_waits (h : s.rd P.REF_TSTATE ≠ 2 ∨ s.clock < s.servo.winSince + s.rd P.REF_PH_WINDOW * 1000000000) :
    exec .phWindowEnd s = .next s := if_neg fun hc => h.elim (· hc.1) fun hlt => Nat.not_le.mpr hlt hc.2

end

/-! ### The obligation -/

/-- Settles O38: each transition is the one that the selection calls for, and its conclusion keeps what it set. -/
theorem trackingStateFollowsSelection : Obligations.TrackingStateFollowsSelection := by
  unfold Obligations.TrackingStateFollowsSelection
  refine ⟨?_, ?_, ?_, ?_, ?_, fun s => exec_wtrExpiry_waits, ?_, fun s => exec_pullEnd_waits, ?_, fun s => exec_phWindowEnd_waits⟩
  · intro pins s hts hp hq
    have hexec := exec_refselChange_acquires hts hp hq
    obtain ⟨hservo, -⟩ := ((s.pinned pins.val).toAcquire pins.val).conclude_keeps (s.pinned pins.val) 0
    refine ⟨_, hexec, exec_refselChange_pins hexec, ?_, ?_, hservo.acqSince, fun hbatch => ?_,
      (execRefselChange_only pins s).next _ hexec⟩
    · rw [State.conclude_tstate, State.toAcquire_tstate]
    · rw [State.conclude_active, State.toAcquire_active]
    · have hchanged : (s.pinned pins.val).rd P.REF_TSTATE ≠ ((s.pinned pins.val).toAcquire pins.val).rd P.REF_TSTATE := by
        rw [State.toAcquire_tstate, State.pinned_rd _ (by decide), hts]
        decide
      rw [State.conclude_logs 0 hchanged hbatch, (State.toAcquire_only ..).rd _ _ (by decide) rfl, State.pinned_rd _ (by decide)]
  · intro pins s hts hp hq hkind ha
    obtain ⟨lost, hexec⟩ := exec_refselChange_pulls hts hp hq hkind ha
    obtain ⟨hfrozen, -, hphi, -⟩ := State.toPulling_servo (s := (s.pinned pins.val).freeze lost) pins.val false
    obtain ⟨hservo, -⟩ := (((s.pinned pins.val).freeze lost).toPulling pins.val false).conclude_keeps (s.pinned pins.val) 0
    refine ⟨_, hexec, exec_refselChange_pins hexec, ?_, ?_, ?_, ?_, (execRefselChange_only pins s).next _ hexec⟩
    · rw [State.conclude_tstate, State.toPulling_tstate]
    · rw [State.conclude_active, State.toPulling_active]
    · rw [hservo.frozen, hfrozen, State.freeze_frozen, State.pinned_rd _ (by decide), State.pinned_frozenBref]
    · rw [hservo.phi, hphi, State.rdS, (State.freeze_only ..).rd _ _ (by decide) rfl, State.pinned_rd _ (by decide), ← State.rdS]
  · intro pins s hts hp hq
    have hheld := State.reselect_holds (s := s.pinned pins.val) (State.rd_wr_self ..) hp ((State.pinned_rd _ (by decide) _).trans hts)
      ((State.pinned_rd _ (by decide) _).trans_ne hq) 0 (s.mon (s.rd P.REF_ACTIVE)).lastGood
    exact ⟨_, exec_refselChange, exec_refselChange_pins exec_refselChange, hheld.tstate, hheld.active, hheld.flag,
      (execRefselChange_only pins s).next _ rfl⟩
  · intro s r since hwtr hts hpins htime hbest hrank
    have hexec := exec_wtrExpiry_pulls hwtr hts hpins htime hbest hrank
    obtain ⟨-, hlost, -, hnone⟩ := State.toPulling_servo (s := s.freeze s.clock) r false
    obtain ⟨hservo, -⟩ := ((s.freeze s.clock).toPulling r false).conclude_keeps s 2
    refine ⟨_, hexec, ?_, ?_, hservo.lossAt.trans hlost, ?_, (execWtrExpiry_only s).next _ hexec⟩
    · rw [State.conclude_tstate, State.toPulling_tstate]
    · rw [State.conclude_active, State.toPulling_active]
    · exact hservo.wtr.elim (·.trans hnone) id
  · intro s r since hwtr hts hpins htime hworse
    exact ⟨_, exec_wtrExpiry_keeps hwtr hts hpins htime hworse, State.keepWtr_drops hworse, s.keepWtr_only⟩
  · intro s hts hphi
    have hexec := exec_pullEnd hts hphi
    refine ⟨_, hexec, ?_, ?_, ?_, (execPullEnd_only s).next _ hexec⟩
    · rw [State.conclude_tstate, State.toLocked_tstate]
    · rw [State.conclude_active, State.toLocked_active]
    · rw [(State.conclude_only ..).rd _ _ (by decide) rfl, State.toLocked_dev]
  · intro s hts htime
    have hexec := exec_phWindowEnd hts htime
    refine ⟨_, hexec, rfl, rfl, fun hgood => ?_, fun hbad => ?_, (execPhWindowEnd_only s).next _ hexec⟩
    · rw [if_pos hgood]
      exact ⟨s.alignM_dev, s.alignM_mOff⟩
    · rw [if_neg (Bool.eq_false_iff.mp hbad)]
      exact ⟨rfl, rfl⟩

end Sys2Proof.Machine
end

section
/-! ## References: the monitors and the qualification (R130, R131, R133, R135, R136) -/

namespace Sys2Proof.Machine

/-! ### The monitors of a reference -/

theorem modAt_getD {α : Type} (f : α → α) (d : α) (i : Nat) (xs : List α) :
    (modAt i f xs).getD i d = if i < xs.length then f (xs.getD i d) else d := by
  induction xs generalizing i with
  | nil => rfl
  | cons x xs ih =>
    cases i with
    | zero => simp [modAt]
    | succ i => simpa [modAt] using ih i

section
variable (s : State) (r : Nat) (f : RefMon → RefMon)

theorem State.mon_setMon (h : r < s.refs.length) : (s.setMon r f).mon r = f (s.mon r) := by
  unfold State.mon
  rw [State.setMon_refs, modAt_getD, if_pos h]

/-- What a change of the monitors leaves alone, it leaves of a reference without monitors too. -/
theorem State.mon_setMon_keeps {α : Type} (g : RefMon → α) (hg : ∀ m, g (f m) = g m) : g ((s.setMon r f).mon r) = g (s.mon r) := by
  unfold State.mon
  rw [State.setMon_refs, modAt_getD]
  split
  · exact hg _
  · next hno => rw [List.getD_eq_default _ _ (Nat.not_lt.mp hno)]

end

section
variable (s : State) (r : Nat)

/-! ### Entering a qualification state (R130, R133, R136) -/

theorem State.enterQ_qstate (q : Nat) : (s.enterQ r q).qstate r = q := by
  unfold State.enterQ State.qstate
  extract_lets t
  have ht : t.rd P.REF_QSTATE r = q := State.rd_wr_self ..
  split
  · exact ht
  · split
    · exact (State.rd_wr_base _ (by decide) ..).trans ht
    · exact ht

/-- Only the anchor and the timer of a reference change as it enters a state. -/
theorem State.enterQ_mon_keeps {α : Type} (q : Nat) (g : RefMon → α) (hanchor : ∀ m a, g { m with anchor := a } = g m)
    (hsince : ∀ m n, g { m with since := n } = g m) : g ((s.enterQ r q).mon r) = g (s.mon r) := by
  unfold State.enterQ
  extract_lets t
  have ht : g (t.mon r) = g (s.mon r) := State.mon_setMon_keeps (s.wr P.REF_QSTATE r q) r _ g fun m => hsince m _
  split
  · exact (State.mon_setMon_keeps t r _ g fun m => hanchor m _).trans ht
  · split
    · exact (State.mon_setMon_keeps t r _ g fun m => hanchor m _).trans ht
    · exact ht

/-! ### The entry test (R135) -/

theorem State.tryEntry_passes (h : s.entryTest r = 0) : s.tryEntry r = s.enterQ r 1 := by
  unfold State.tryEntry
  simp only [h]

theorem State.entryTest_frequency (hf : s.freqInside r = true) (hk : s.rd P.REF_KIND r = 2) : s.entryTest r = 0 := by
  unfold State.entryTest
  rw [if_pos hf, if_pos (.inr (.inl hk))]

theorem State.tryEntry_mon_keeps {α : Type} (g : RefMon → α) (hanchor : ∀ m a, g { m with anchor := a } = g m)
    (hsince : ∀ m n, g { m with since := n } = g m) : g ((s.tryEntry r).mon r) = g (s.mon r) := by
  have henter := fun q => s.enterQ_mon_keeps r q g hanchor hsince
  unfold State.tryEntry
  split
  · exact henter 1
  · exact henter _
  · rfl

/-! ### Qualified, disqualified, lost (R136) -/

theorem State.reselect_qstate (cause lost : Nat) : (s.reselect cause lost).qstate r = s.qstate r :=
  (State.reselect_only ..).rd _ _ (by decide) rfl

theorem State.qualify_qstate (cause : Nat) : (s.qualify r cause).qstate r = 2 :=
  (State.reselect_qstate ..).trans (s.enterQ_qstate r 2)

/-- A reference disqualified is counted. -/
theorem State.disqualify_counts (cause : Nat) : (s.disqualify r cause).qstate r = 5 ∧
    (s.disqualify r cause).rd P.REF_DISQ_COUNT r = (s.rd P.REF_DISQ_COUNT r + 1) % 2 ^ 48 := by
  unfold State.disqualify
  rw [State.reselect_qstate, (State.reselect_only ..).rd _ _ (by decide) rfl, State.count_plain _ _ rfl, State.rd_wr_self,
    (State.enterQ_only ..).rd _ _ (by decide) rfl]
  exact ⟨(State.rd_wr_base _ (by decide) ..).trans (s.enterQ_qstate r 5), rfl⟩

theorem State.loseRef_qstate (cause : Nat) : (s.loseRef r cause).qstate r = if s.qstate r = 6 then 6 else 0 := by
  unfold State.loseRef
  by_cases h6 : s.qstate r = 6
  · rw [if_pos (.inr h6), if_pos h6, h6]
  · rw [if_neg h6]
    split
    · next h => exact h.resolve_right h6
    · exact (State.reselect_qstate ..).trans (s.enterQ_qstate r 0)

theorem State.loseRef_qualified (hq : s.qstate r = 2) (cause : Nat) :
    s.loseRef r cause = (s.enterQ r 0).reselect cause (s.mon r).lastGood := if_neg (by omega)

end

end Sys2Proof.Machine
end

section
/-! ## References: readings, edges, activity and the times of the qualification (R130, R131, R133, R136, R137) -/

namespace Sys2Proof.Machine

section
variable {s : State}

/-! ### MONITOR_READING (R131, R133) -/

/-- What follows the reading itself before the qualification state machine answers to it: the drift warnings, the learning and the loop. -/
def followingFrame : List Nat := [F.cmd, F.fresh, F.refs, F.rings, F.servo, F.time, P.CMD_NOTICE_DROP, P.REF_FLAGS, P.REF_HO_C,
  P.REF_HO_CU, P.REF_HO_D, P.REF_HO_DU, P.REF_HO_LEARNED, P.REF_HO_TMEAN, P.REF_HO_Y0, P.REF_HO_YU]

theorem State.writeReading_freq (s : State) (r : Nat) (freq phi osc : Int) :
    (s.writeReading r freq phi osc).rdS 32 P.REF_FREQ r = clampS 32 freq := by
  have hshown := s.rdS_wrS (w := 32) (by decide) P.REF_FREQ r freq
  unfold State.writeReading
  extract_lets shown sampled phased
  have hsampled : sampled.rdS 32 P.REF_FREQ r = clampS 32 freq := hshown
  have hphased : phased.rdS 32 P.REF_FREQ r = clampS 32 freq :=
    (congrArg (sgn 32) (State.rd_wr_base _ (by decide) ..)).trans hsampled
  split
  · split
    · exact (congrArg (sgn 32) (State.rd_wr_base _ (by decide) ..)).trans hphased
    · exact hphased
  · exact hsampled

/-- A reading of a configured reference is shown, and then the qualification state machine answers to it. -/
theorem State.monitorReading_judged {r : Nat} (freq phi osc : Int) (hq : s.qstate r ≠ 6) (hup : s.sharedUp = true) :
    ∃ u, s.monitorReading r freq phi osc = u.judge r ∧
      Only (some ([P.REF_DEV, P.REF_FREQ, P.REF_PHASE] ++ followingFrame)) s u ∧ u.rdS 32 P.REF_FREQ r = clampS 32 freq := by
  unfold State.monitorReading
  rw [if_neg (by simp [hq, hup])]
  extract_lets present warned counted learned
  have hpresent : Only (some [F.refs]) s present := .cond _ (State.setMon_only ..) (.refl _ _)
  have hread := (hpresent.mono (W := some ([P.REF_DEV, P.REF_FREQ, P.REF_PHASE] ++ followingFrame)) rfl).step
    (present.writeReading_only r freq phi osc) rfl
  have hshown := present.writeReading_freq r freq phi osc
  have hwarned : Only (some followingFrame) (present.writeReading r freq phi osc) warned := (State.drift_only ..).mono rfl
  have hcounted : Only (some followingFrame) (present.writeReading r freq phi osc) counted :=
    .cond _ (hwarned.step (State.setMon_only ..) rfl) hwarned
  have hlearned : Only (some followingFrame) (present.writeReading r freq phi osc) learned :=
    .cond _ ((hcounted.step (State.setServo_only ..) rfl).step (State.learnAll_only _) rfl) hcounted
  have hsteered := hlearned.step (learned.steered_only r phi) rfl
  exact ⟨_, rfl, hread.step hsteered rfl, (congrArg (sgn 32) (hsteered.rd _ _ (by decide) rfl)).trans hshown⟩

theorem State.monitorReading_idle {r : Nat} (freq phi osc : Int) (h : s.qstate r = 6 ∨ s.sharedUp = false) :
    s.monitorReading r freq phi osc = s := if_pos (h.imp_right Bool.eq_false_iff.mp)

theorem State.judge_rejects {r : Nat} (hq : s.qstate r = 2) (hf : s.freqBeyond r = true) : s.judge r = s.disqualify r 3 := by
  unfold State.judge
  simp only [hq, hf, if_true]

theorem State.judge_stays {r : Nat} (hq : s.qstate r = 2) (hf : s.freqBeyond r = false) (hk : s.rd P.REF_KIND r ≠ 1) : s.judge r = s := by
  have hdev : s.devBeyond r = false := by
    rw [State.devBeyond, beq_eq_false_iff_ne.mpr hk, Bool.false_and]
  unfold State.judge
  simp only [hq, hf, hdev, Bool.false_eq_true, if_false]

/-! ### REF_PPS_EDGE (R130) -/

section
variable {r : Fin 2} {phi osc : Int}

/-- The state in which a counted edge has made activity present. -/
def State.edgeNoted (s : State) (r : Nat) (phi osc : Int) : State :=
  s.setMon r fun m => { m with pps := true, lastGood := s.clock, lastDev := s.edgeDev r phi osc }

/-- The state in which a reference that was ABSENT is tested with the phase of its edge. -/
def State.edgeSampled (s : State) (r : Nat) (phi osc : Int) : State :=
  ((s.edgeNoted r phi osc).setServo fun v => { v with modOsc := osc }).wrS 64 P.REF_PHASE r phi

theorem State.counts_unanchored {i : Nat} (h : (s.mon i).anchor = none) : s.counts i phi osc = true := by
  have hdev : s.edgeDev i phi osc = 0 := by
    unfold State.edgeDev
    rw [h]
  simp [State.counts, hdev]

theorem State.counts_rejects {a : Int} (hmode : s.rd P.REF_EXT_MODE r.val ≠ 2) (ha : (s.mon (r.val + 1)).anchor = some a)
    (hdev : s.rd P.REF_PH_REJECT (r.val + 1) < (phi + osc - s.servo.mOff - a).natAbs) : s.counts (r.val + 1) phi osc = false := by
  have hinput : (r.val + 1 == 1 || r.val + 1 == 2) = true := by
    rw [Bool.or_eq_true, beq_iff_eq, beq_iff_eq]
    omega
  have hedge : s.edgeDev (r.val + 1) phi osc = phi + osc - s.servo.mOff - a := by
    unfold State.edgeDev
    rw [ha]
  rw [State.counts, hinput, hedge]
  simp [hmode, hdev]

theorem exec_refPpsEdge_idle (h : s.qstate (r.val + 1) = 6 ∨ s.rd P.REF_EXT_MODE r.val = 2 ∨ s.sharedUp = false) :
    exec (.refPpsEdge r phi osc) s = .next s := if_pos (h.imp_right (.imp_right Bool.eq_false_iff.mp))

theorem exec_refPpsEdge_uncounted (h : s.counts (r.val + 1) phi osc = false) : exec (.refPpsEdge r phi osc) s = .next s := by
  show execRefPpsEdge r phi osc s = _
  unfold execRefPpsEdge
  simp only [h, Bool.false_eq_true, if_false, ite_self]

theorem exec_refPpsEdge_counted (hq : s.qstate (r.val + 1) ≠ 6) (hmode : s.rd P.REF_EXT_MODE r.val ≠ 2) (hup : s.sharedUp = true)
    (hcounts : s.counts (r.val + 1) phi osc = true) : exec (.refPpsEdge r phi osc) s =
      if s.qstate (r.val + 1) = 0 ∧ (s.edgeNoted (r.val + 1) phi osc).refPresent (r.val + 1) = true then
        .next ((s.edgeSampled (r.val + 1) phi osc).tryEntry (r.val + 1))
      else .next (s.edgeNoted (r.val + 1) phi osc) :=
  (if_neg (by simp [hq, hmode, hup])).trans (if_pos hcounts)

theorem State.edgeNoted_mon {i : Nat} (h : i < s.refs.length) :
    ((s.edgeNoted i phi osc).mon i).pps = true ∧ ((s.edgeNoted i phi osc).mon i).lastGood = s.clock := by
  rw [State.edgeNoted, State.mon_setMon _ _ _ h]
  exact ⟨rfl, rfl⟩

/-- The input of a PPS reference without 10 MHz is present where its pulses are (R130). -/
theorem State.refPresent_pps (hmode : s.rd P.REF_EXT_MODE r.val = 1) : s.refPresent (r.val + 1) = (s.mon (r.val + 1)).pps := by
  unfold State.refPresent
  match r, hmode with
  | 0, hmode => simp only [Fin.val_zero, Nat.zero_add, Nat.sub_self] at hmode ⊢; simp only [hmode]
  | 1, hmode => simp only [Fin.val_one, Nat.reduceAdd, Nat.reduceSub] at hmode ⊢; simp only [hmode]

theorem State.edgeSampled_passes {i : Nat} (hf : s.freqInside i = true) (hk : s.rd P.REF_KIND i = 2) :
    ((s.edgeSampled i phi osc).tryEntry i).qstate i = 1 := by
  have hrd : ∀ b, b ≠ P.REF_PHASE → (s.edgeSampled i phi osc).rd b i = s.rd b i := fun b hb => State.rd_wr_base _ hb ..
  have hfreq : (s.edgeSampled i phi osc).freqInside i = s.freqInside i := by
    unfold State.freqInside State.rdS
    rw [hrd _ (by decide), hrd _ (by decide)]
  rw [State.tryEntry_passes _ _ (State.entryTest_frequency _ _ (hfreq.trans hf) ((hrd _ (by decide)).trans hk)), State.enterQ_qstate]

end

/-! ### Loss of activity (R130, R136, R146) -/

theorem exec_refFreqAbsent {r : Fin 2} (hmode : s.rd P.REF_EXT_MODE r.val ≠ 1) :
    exec (.refFreqAbsent r) s = .next ((s.setMon (r.val + 1) fun m => { m with mhz := false }).loseRef (r.val + 1) 5) := if_neg hmode

/-- Whether the expected pulses or readings of a reference are missing (R130). -/
def State.activityMissing (s : State) (r : Nat) : Bool :=
  if 3 ≤ r then !s.refPresent r
  else if r ≠ 0 ∧ s.rd P.REF_EXT_MODE (r - 1) = 2 then !(s.mon r).mhz
  else decide (s.missDue r ≤ s.clock)

theorem exec_activityLost {r : Fin 7} : exec (.activityLost r) s = if s.activityMissing r.val = true then
    .next ((s.setMon r.val fun m => { m with pps := false }).loseRef r.val 5) else .next s := rfl

theorem State.activityMissing_link {r : Nat} (h : 3 ≤ r) : s.activityMissing r = !s.refPresent r := if_pos h

theorem State.activityMissing_freq {r : Nat} (h : r = 1 ∨ r = 2) (hmode : s.rd P.REF_EXT_MODE (r - 1) = 2) :
    s.activityMissing r = !(s.mon r).mhz := (if_neg (by omega)).trans (if_pos ⟨by omega, hmode⟩)

theorem State.activityMissing_pulse {r : Nat} (h : r < 3) (hmode : r = 0 ∨ s.rd P.REF_EXT_MODE (r - 1) ≠ 2) :
    s.activityMissing r = decide (s.missDue r ≤ s.clock) :=
  (if_neg (by omega)).trans (if_neg fun hfreq => hmode.elim hfreq.1 (· hfreq.2))

/-- A QUALIFIED reference that the pins select is lost while LOCKED: the module falls into holdover, with the bound of the reference
frozen (R138, R146, R148). -/
theorem State.loseRef_holds {r : Nat} (hr : r < 7) (hq : s.qstate r = 2) (hts : s.rd P.REF_TSTATE = 2) (ha : s.rd P.REF_ACTIVE = r)
    (hpins : s.rd P.REF_PINS = r) (cause : Nat) :
    (s.loseRef r cause).Held (if s.frozenBref r = noBound then none else some (s.frozenBref r)) := by
  have henter := s.enterQ_only r 0
  have habsent : (s.enterQ r 0).qstate r ≠ 2 := by rw [State.enterQ_qstate]; decide
  have hbref : (s.enterQ r 0).frozenBref r = s.frozenBref r := by
    unfold State.frozenBref
    rw [henter.rd _ _ (by decide) rfl, s.enterQ_mon_keeps r 0 RefMon.lastBref (fun _ _ => rfl) fun _ _ => rfl]
  have hheld := State.reselect_holds ((henter.rd _ _ (by decide) rfl).trans hpins) hr ((henter.rd _ _ (by decide) rfl).trans hts)
    habsent cause (s.mon r).lastGood
  rwa [← State.loseRef_qualified _ _ hq, State.freeze_frozen, henter.rd P.REF_ACTIVE _ (by decide) rfl, ha, hbref] at hheld

/-! ### HOLDOFF_EXPIRY and CONFIRM_EXPIRY (R136) -/

section
variable {r : Fin 7}

theorem exec_holdoffExpiry (hq : s.qstate r.val = 1) (htime : (s.mon r.val).since + s.rd P.REF_HOLDOFF r.val * 100000000 ≤ s.clock) :
    exec (.holdoffExpiry r) s = .next (s.qualify r.val 6) := if_pos ⟨hq, htime⟩

theorem exec_holdoffExpiry_waits
    (h : s.qstate r.val ≠ 1 ∨ s.clock < (s.mon r.val).since + s.rd P.REF_HOLDOFF r.val * 100000000) :
    exec (.holdoffExpiry r) s = .next s := if_neg fun hc => h.elim (· hc.1) fun hlt => Nat.not_le.mpr hlt hc.2

theorem exec_confirmExpiry_suspect (hq : s.qstate r.val = 3) (htime : (s.mon r.val).since +
    max (s.rd P.REF_CONFIRM_TIME * 1000000000) (s.rd P.REF_HOLDOFF r.val * 100000000) ≤ s.clock) :
    exec (.confirmExpiry r) s = .next (s.qualify r.val 6) := if_pos ⟨hq, htime⟩

theorem exec_confirmExpiry_enters (hq : s.qstate r.val = 5) (htest : s.entryTest r.val = 0)
    (htime : (s.mon r.val).since + s.rd P.REF_CONFIRM_TIME * 1000000000 ≤ s.clock) :
    exec (.confirmExpiry r) s = .next (s.enterQ r.val 1) := by
  have hentered : (s.tryEntry r.val).qstate r.val ≠ 5 := by
    rw [State.tryEntry_passes _ _ htest, State.enterQ_qstate]
    decide
  refine (if_neg fun hc => absurd (hq.symm.trans hc.1) (by decide)).trans ((if_pos ⟨hq, htime⟩).trans ((if_neg hentered).trans ?_))
  rw [State.tryEntry_passes _ _ htest]

theorem exec_confirmExpiry_waits (h : (s.qstate r.val ≠ 3 ∧ s.qstate r.val ≠ 5) ∨
    s.clock < (s.mon r.val).since + s.rd P.REF_CONFIRM_TIME * 1000000000) : exec (.confirmExpiry r) s = .next s := by
  refine (if_neg fun hc => ?_).trans (if_neg fun hc => ?_)
  · obtain ⟨hq, htime⟩ := hc
    omega
  · obtain ⟨hq, htime⟩ := hc
    omega

end

end

/-! ### REF_ACCEPT (R137) -/

section
variable {s : State} {rq : Request} {x : Session}

theorem opRow_refAccept : opRow Op.REF_ACCEPT = some ⟨Op.REF_ACCEPT, 3, 2, size 4, refAccept⟩ := rfl

theorem exec_refAccept (h : s.taken Op.REF_ACCEPT rq x) : exec (.refAccept rq) s =
    .next (refAccept (originOf x Op.REF_ACCEPT rq) rq.payload (s.occupied Op.REF_ACCEPT rq x)).settle := by
  have e := exec_taken_slow (c := .refAccept rq) rfl h opRow_refAccept (by decide) (fastPath_slow rq (by decide) (by decide))
  exact e

theorem refAccept_suspect (o : Origin) {p : List Byte} (hr : beAt 0 1 p < 7) (hq : s.qstate (beAt 0 1 p) = 4) :
    refAccept o p s = (s.qualify (beAt 0 1 p) 7).finish o Status.OK [] := (if_neg (by omega)).trans (if_pos ⟨hr, hq⟩)

theorem refAccept_refused (o : Origin) {p : List Byte} (h : beAt 0 1 p ≥ 7 ∨ s.qstate (beAt 0 1 p) ≠ 4) :
    refAccept o p s = s.finish o (if 7 < beAt 0 1 p then Status.BAD_VALUE else Status.NOT_FOUND) [] := by
  have hno : ¬ (beAt 0 1 p < 7 ∧ s.qstate (beAt 0 1 p) = 4) := by omega
  unfold refAccept
  dsimp only
  rw [if_neg hno]
  split <;> rfl

theorem State.qualify_steady (s : State) (r cause : Nat) : Steady s (s.qualify r cause) :=
  ((Steady.refl s).only (s.enterQ_only r 2) rfl).trans (State.reselect_steady ..)

end

/-! ### The obligation -/

/-- Settles O37: each judgement by the state in which the qualification state machine makes it. -/
theorem referenceMonitorsJudge : Obligations.ReferenceMonitorsJudge := by
  unfold Obligations.ReferenceMonitorsJudge
  refine ⟨?_, ?_, ?_, ?_, ?_, ?_, ?_, ?_, fun r s => exec_holdoffExpiry_waits, ?_, fun r s => exec_confirmExpiry_waits, ?_, ?_⟩
  · intro r freq phi osc s hq hup
    obtain ⟨u, hjudged, hframe, hfreq⟩ := State.monitorReading_judged freq phi osc hq hup
    have hbeyond : u.freqBeyond r.val = decide (s.rd P.REF_FREQ_REJECT r.val * 1000 < (clampS 32 freq).natAbs) := by
      rw [State.freqBeyond, hfreq, hframe.rd _ _ (by decide) rfl]
    have hstate : u.qstate r.val = s.qstate r.val := hframe.rd _ _ (by decide) rfl
    refine ⟨u.judge r.val, congrArg _ hjudged, ?_, fun hq2 hout => ?_, fun hq2 hin hk => ?_, hjudged ▸ s.monitorReading_only ..⟩
    · exact (congrArg (sgn 32) ((u.judge_only r.val).rd _ _ (by decide) rfl)).trans hfreq
    · rw [State.judge_rejects (hstate.trans hq2) (hbeyond.trans (decide_eq_true hout)), ← hframe.rd P.REF_DISQ_COUNT _ (by decide) rfl]
      exact u.disqualify_counts r.val 3
    · rw [State.judge_stays (hstate.trans hq2) (hbeyond.trans (decide_eq_false (Nat.not_lt.mpr hin)))
        ((hframe.rd _ _ (by decide) rfl).trans_ne hk), hstate, hq2]
  · exact fun r freq phi osc s h => congrArg _ (State.monitorReading_idle freq phi osc h)
  · intro r phi osc s hq hmode hanchor hlen hup
    have hexec := exec_refPpsEdge_counted hq hmode hup (State.counts_unanchored (phi := phi) (osc := osc) hanchor)
    obtain ⟨hpps, hlast⟩ := State.edgeNoted_mon (s := s) (i := r.val + 1) (phi := phi) (osc := osc) (by omega)
    split at hexec
    · refine ⟨_, hexec, ?_, ?_, fun _ _ hf hk => State.edgeSampled_passes hf hk, (execRefPpsEdge_only r phi osc s).next _ hexec⟩
      · exact (State.tryEntry_mon_keeps _ _ RefMon.pps (fun _ _ => rfl) fun _ _ => rfl).trans hpps
      · exact (State.tryEntry_mon_keeps _ _ RefMon.lastGood (fun _ _ => rfl) fun _ _ => rfl).trans hlast
    · next habsent =>
      refine ⟨_, hexec, hpps, hlast, fun hq0 hmode1 _ _ => ?_, (execRefPpsEdge_only r phi osc s).next _ hexec⟩
      exact absurd ⟨hq0, (State.refPresent_pps (s := s.edgeNoted _ phi osc) hmode1).trans hpps⟩ habsent
  · rintro r phi osc s (h | h | h | ⟨a, ha, hdev⟩)
    · exact exec_refPpsEdge_idle (.inl h)
    · exact exec_refPpsEdge_idle (.inr (.inl h))
    · exact exec_refPpsEdge_idle (.inr (.inr h))
    · by_cases hmode : s.rd P.REF_EXT_MODE r.val = 2
      · exact exec_refPpsEdge_idle (.inr (.inl hmode))
      · exact exec_refPpsEdge_uncounted (State.counts_rejects hmode ha hdev)
  · intro r s hmode
    have hexec := exec_refFreqAbsent hmode
    exact ⟨_, hexec, State.loseRef_qstate .., (execRefFreqAbsent_only r s).next _ hexec⟩
  · intro r s hmissing
    have hdue : s.activityMissing r.val = true := by
      rcases hmissing with ⟨h, hno⟩ | ⟨h, hmode, hno⟩ | ⟨h, hmode, hdue⟩
      · rw [State.activityMissing_link h, hno, Bool.not_false]
      · rw [State.activityMissing_freq h hmode, hno, Bool.not_false]
      · rw [State.activityMissing_pulse h hmode, decide_eq_true hdue]
    have hexec := exec_activityLost.trans (if_pos hdue)
    have hbref := State.mon_setMon_keeps s r.val (fun m => { m with pps := false }) RefMon.lastBref fun _ => rfl
    refine ⟨_, hexec, State.loseRef_qstate .., fun hq hts ha hpins => ?_, (execActivityLost_only r s).next _ hexec⟩
    have hheld := State.loseRef_holds (s := s.setMon r.val fun m => { m with pps := false }) r.isLt hq hts ha hpins 5
    rw [State.frozenBref, hbref] at hheld
    exact ⟨hheld.tstate, hheld.active, hheld.frozen⟩
  · intro r s hpresent
    have hdue : s.activityMissing r.val = false := by
      rcases hpresent with ⟨h, hyes⟩ | ⟨h, hmode, hyes⟩ | ⟨h, hmode, hearly⟩
      · rw [State.activityMissing_link h, hyes, Bool.not_true]
      · rw [State.activityMissing_freq h hmode, hyes, Bool.not_true]
      · rw [State.activityMissing_pulse h hmode, decide_eq_false (Nat.not_le.mpr hearly)]
    exact exec_activityLost.trans (if_neg (Bool.eq_false_iff.mp hdue))
  · intro r s hq htime
    have hexec := exec_holdoffExpiry hq htime
    exact ⟨_, hexec, State.qualify_qstate .., (execHoldoffExpiry_only r s).next _ hexec⟩
  · rintro r s (hq | ⟨hq, htest⟩) htime
    · have hexec := exec_confirmExpiry_suspect hq htime
      exact ⟨_, hexec, (State.qualify_qstate ..).trans (if_pos hq).symm, (execConfirmExpiry_only r s).next _ hexec⟩
    · have hexec := exec_confirmExpiry_enters hq htest (by omega)
      exact ⟨_, hexec, (State.enterQ_qstate ..).trans (if_neg (by omega)).symm, (execConfirmExpiry_only r s).next _ hexec⟩
  · intro rq s x htaken hr hq
    have hbody := refAccept_suspect (originOf x Op.REF_ACCEPT rq) hr ((State.occupied_rd s Op.REF_ACCEPT rq x _ _).trans hq)
    have hexec := exec_refAccept htaken
    rw [hbody] at hexec
    refine ⟨_, hexec, ?_, State.taken_replied htaken (State.qualify_steady ..) .., ?_⟩
    · exact ((State.finish_only ..).rd _ _ (by decide) rfl).trans (State.qualify_qstate ..)
    · rw [← hbody]
      exact ((s.occupied_only ..).mono rfl).step (refAccept_only ..) rfl
  · intro rq s x htaken h
    have hexec := exec_refAccept htaken
    rw [refAccept_refused _ (by rwa [State.qstate, State.occupied_rd])] at hexec
    exact ⟨_, hexec, State.taken_replied htaken (.refl _) .., ((s.occupied_only ..).mono rfl).step (State.finish_only ..) rfl⟩

end Sys2Proof.Machine
end

section
/-! ## Timing cores: records, self-tests and the core that takes over (R157 to R163) -/

namespace Sys2Proof.Machine

/-! ### The record of a core -/

section
variable {s : State} (c : Nat) (f : Core → Core)

@[simp] theorem State.core_setCore : (s.setCore c f).core c = f (s.core c) := by
  unfold State.core State.setCore
  by_cases hc : c = 0 <;> simp only [hc, if_true, if_false]

/-- What a change of a core's record leaves alone, it leaves of every core. -/
theorem State.core_setCore_keeps {α : Type} (g : Core → α) (hg : ∀ x, g (f x) = g x) (d : Nat) :
    g ((s.setCore c f).core d) = g (s.core d) := by
  unfold State.core State.setCore
  by_cases hc : c = 0 <;> by_cases hd : d = 0 <;> simp only [hc, hd, if_true, if_false, hg]

@[simp] theorem State.setCore_gap : (s.setCore c f).time.gap = s.time.gap := by unfold State.setCore; split <;> rfl

@[simp] theorem State.setCore_gapEnd : (s.setCore c f).time.gapEnd = s.time.gapEnd := by unfold State.setCore; split <;> rfl

@[simp] theorem State.setCore_corState (d : Nat) : (s.setCore c f).corState d = s.corState d := State.setCore_rd ..

end

theorem State.core_congr {s t : State} (h : t.time = s.time) (c : Nat) : t.core c = s.core c := by
  unfold State.core
  rw [h]

/-! ### The core that may take over (R164) -/

theorem Agrees.mayTakeOver {s t : State} (h : Agrees [P.COR_STATE, P.COR_MIN_SCORE, P.COR_SCORE] s t) (c : Nat) :
    t.mayTakeOver c = s.mayTakeOver c := by
  unfold State.mayTakeOver State.corState
  rw [h P.COR_STATE (by decide), h P.COR_MIN_SCORE (by decide), h P.COR_SCORE (by decide)]

theorem State.mayTakeOver_iff {s : State} {c : Nat} :
    s.mayTakeOver c = true ↔ s.corState c = 3 ∧ s.rd P.COR_MIN_SCORE ≤ s.rd P.COR_SCORE c := by
  unfold State.mayTakeOver
  rw [Bool.and_eq_true, beq_iff_eq, decide_eq_true_eq]

/-! ### The results shown (R160) -/

section
variable {s : State} {c : Nat}

theorem State.showTests_testResult {gs : List Nat} (hlen : gs.length = 5) (d : Nat) {id : Nat} (hid : id < 5) :
    (s.showTests c gs).testResult d id = if d = c then gs.getD id 3 else s.testResult d id := by
  match gs, hlen with
  | [g0, g1, g2, g3, g4], _ =>
    unfold State.testResult State.showTests
    rw [State.rd_wr_base _ (by decide)]
    by_cases hd : d = c
    · subst hd
      interval_cases id <;> simp [List.range, List.range.loop, State.rd_wr]
    · have hne : ∀ k, k < 5 → 5 * d + id ≠ 5 * c + k := by omega
      rw [if_neg hd]
      simp [List.range, List.range.loop, State.rd_wr, hne]
      omega

theorem State.showTests_score (gs : List Nat) :
    (s.showTests c gs).rd P.COR_SCORE c = healthScore (s.corState c == 4) gs := State.rd_wr_self ..

theorem State.peerNotRun_testResult (d : Nat) {id : Nat} (hid : id < 5) :
    (s.peerNotRun c).testResult d id = if d = c ∧ 3 ≤ id then 3 else s.testResult d id := by
  unfold State.peerNotRun
  rw [State.showTests_testResult rfl d hid]
  have hshown : ((List.range 5).map fun id => if id < 3 then s.testResult c id else 3).getD id 3 =
      if id < 3 then s.testResult c id else 3 := by simp [List.getD, hid]
  rw [hshown]
  by_cases hd : d = c
  · subst hd
    by_cases hlow : id < 3
    · rw [if_pos rfl, if_pos hlow, if_neg fun h => absurd h.2 (by omega)]
    · rw [if_pos rfl, if_neg hlow, if_pos ⟨rfl, by omega⟩]
  · rw [if_neg hd, if_neg fun h => hd h.1]

end

/-! ### A core becomes ACTIVE (R163, R165, R168) -/

/-- The state once core `c` is ACTIVE with the count of the output stage, whose tests of a core that follows no longer run. -/
def State.activated (s : State) (c : Nat) : State :=
  (((s.wr P.COR_STATE c 4).wr P.COR_ACTIVE 0 c).setCore c fun x => { x with count := s.time.out }).peerNotRun c

section
variable {s : State} {c : Nat}

theorem State.activated_only : Only (some [F.time, P.COR_ACTIVE, P.COR_SCORE, P.COR_STATE, P.COR_TEST_RESULT]) s (s.activated c) :=
  ((((Only.refl _ s).wr rfl _ _).wr rfl _ _).step (State.setCore_only ..) rfl).step (State.peerNotRun_only ..) rfl

theorem State.activated_time :
    (s.activated c).time = (s.setCore c fun x => { x with count := s.time.out }).time := by
  unfold State.activated
  rw [(State.peerNotRun_only ..).time rfl]
  unfold State.setCore
  split <;> rfl

theorem State.activated_core : (s.activated c).core c = { s.core c with count := s.time.out } :=
  (State.core_congr State.activated_time c).trans (State.core_setCore ..)

theorem State.activated_corState (d : Nat) : (s.activated c).corState d = if d = c then 4 else s.corState d := by
  unfold State.activated State.corState
  rw [(State.peerNotRun_only ..).rd _ _ (by decide) rfl, State.setCore_rd, State.rd_wr_base _ (by decide), State.rd_wr]
  simp

theorem State.activated_active : (s.activated c).rd P.COR_ACTIVE = c := by
  unfold State.activated
  rw [(State.peerNotRun_only ..).rd _ _ (by decide) rfl, State.setCore_rd, State.rd_wr_self]

theorem State.activated_testResult (d : Nat) {id : Nat} (hid : id < 5) :
    (s.activated c).testResult d id = if d = c ∧ 3 ≤ id then 3 else s.testResult d id := by
  unfold State.activated
  rw [State.peerNotRun_testResult d hid]
  unfold State.testResult
  rw [State.setCore_rd, State.rd_wr_base _ (by decide), State.rd_wr_base _ (by decide)]

end

end Sys2Proof.Machine
end

section
/-! ## Timing cores: faults, and what they lead to (R148, R161, R163, R164) -/

namespace Sys2Proof.Machine

/-! ### Sticky faults are never cleared by what follows a change of TSTATE -/

/-- No sticky bit falls from `s` to `t`. -/
def State.KeepsSticky (s t : State) : Prop := ∀ n, (s.rd P.HLT_STICKY).testBit n = true → (t.rd P.HLT_STICKY).testBit n = true

section
variable {s t u : State}

theorem State.KeepsSticky.only {W : Option (List Nat)} (g : Only W s t) (hw : allows W P.HLT_STICKY = false) : s.KeepsSticky t :=
  fun n h => by rwa [g.rd _ _ (by decide) hw]

theorem State.KeepsSticky.trans (h : s.KeepsSticky t) (g : t.KeepsSticky u) : s.KeepsSticky u := fun n e => g n (h n e)

theorem State.sticky_keeps (s : State) (n d : Nat) : s.KeepsSticky (s.sticky n d) := fun k h => by
  rw [State.sticky_sets, Nat.testBit_or, h, Bool.true_or]

theorem State.sticky_bit (s : State) (n d : Nat) : ((s.sticky n d).rd P.HLT_STICKY).testBit n = true := by
  rw [State.sticky_sets, Nat.testBit_or, Nat.testBit_two_pow_self, Bool.or_true]

/-- What a change of TSTATE touches before the fault that it may raise. -/
def settlingFrame : List Nat := [F.servo, P.REF_FLAGS, P.TBS_BOUND_NOW, P.TBS_BOUND_PS]

/-- The one fault that a change of TSTATE raises is added to those that stand (R440). -/
theorem State.conclude_keepsSticky (s before : State) (cause : Nat) : s.KeepsSticky (s.conclude before cause) := by
  unfold State.conclude
  extract_lets ts0 a0 ts a bounded dated steered timed dropped stopped faulted again
  have hbounded : Only (some settlingFrame) s bounded := s.refreshBound_only.mono rfl
  have hdated : Only (some settlingFrame) s dated := .cond _ (hbounded.step (State.setServo_only ..) rfl) hbounded
  have hsteered : Only (some settlingFrame) s steered := hdated.step (State.steerNow_only dated) rfl
  have htimed : Only (some settlingFrame) s timed := .cond _ (hsteered.step (State.setServo_only ..) rfl) hsteered
  have hdropped : Only (some settlingFrame) s dropped := .cond _ (htimed.orIn rfl _ _) htimed
  have hstopped : Only (some settlingFrame) s stopped := .cond _ hdropped (hdropped.step (State.setServo_only ..) rfl)
  have hfaulted : s.KeepsSticky faulted := by
    refine (State.KeepsSticky.only hstopped rfl).trans ?_
    dsimp only [faulted]
    split
    · exact State.sticky_keeps stopped 22 _
    · exact fun _ h => h
  split
  · exact fun _ h => h
  · split
    · exact hfaulted.trans (.only (State.gather_only ..) rfl)
    · exact hfaulted.trans (.only (State.switchEvent_only ..) rfl)

end

/-! ### TSTATE becomes FAULT (R148, R164) -/

section
variable (s : State)

theorem State.toFault_eq : s.toFault = ((if s.rd P.REF_TSTATE = 2 then s.freeze s.clock else s).put 7 8).conclude s 9 := rfl

theorem State.toFault_tstate : s.toFault.rd P.REF_TSTATE = 7 := by
  rw [State.toFault_eq, State.conclude_tstate, State.put_tstate]

theorem State.toFault_active : s.toFault.rd P.REF_ACTIVE = 8 := by
  rw [State.toFault_eq, State.conclude_active, State.put_active]

theorem State.toFault_keepsSticky : s.KeepsSticky s.toFault := by
  have hfreeze : Only (some [F.servo]) s (if s.rd P.REF_TSTATE = 2 then s.freeze s.clock else s) :=
    .cond _ (s.freeze_only s.clock) (.refl _ s)
  have hput := (hfreeze.mono (W := some [F.servo, P.REF_ACTIVE, P.REF_TSTATE, P.TBS_DOM_SELECTED]) rfl).step
    (State.put_only _ 7 8) rfl
  exact (State.KeepsSticky.only hput rfl).trans (State.conclude_keepsSticky _ s 9)

end

/-! ### A switch-over gap that ends (R163, R164) -/

/-- The state with the gap ended now. -/
def State.gapClosed (s : State) : State := { s with time := { s.time with gap := none, gapEnd := some s.clock } }

theorem State.gapClosed_only (s : State) : Only (some [F.time]) s s.gapClosed := (Only.refl _ s).set_time rfl _ rfl

/-- The requests that waited for the end of a gap given their final reply. -/
def State.answerAll (s : State) (waiting : List Origin) (st : Nat) : State := waiting.foldl (fun u o => u.finish o st []) s

theorem State.answerAll_only (s : State) (waiting : List Origin) (st : Nat) :
    Only (some [F.cmd, F.rings, P.CMD_REFUSED_COUNT, P.TBS_OVER_LIMIT_COUNT]) s (s.answerAll waiting st) :=
  Only.fold _ _ (fun _ _ => State.finish_only ..) (.refl _ s)

/-- A final reply to a command that was accepted before. -/
theorem State.finish_answered {s : State} {o : Origin} (h : (s.sessionUid o.uid).isSome = true) (st : Nat) (pl : List Byte) :
    (s.finish o st pl).answered o st pl := by
  obtain ⟨y, hy⟩ := Option.isSome_iff_exists.mp h
  have hsent : (s.sendPacket o.transport o.chan (o.packet st true pl)).sessionUid o.uid = some y := by
    rw [← hy]; simp [State.sessionUid]
  have hfound := State.sessionUid_setSession (s.sendPacket o.transport o.chan (o.packet st true pl)) o.uid
    (fun z => { z with replies := z.keepReply o.tag o.opcode (o.packet st true pl),
                       blocked := if z.blocked = some o.tag then none else z.blocked }) fun _ => rfl
  rw [hsent] at hfound
  unfold State.finish
  rw [hy]
  exact ⟨_, hfound, y.mem_keepReply _ _ _⟩

theorem State.answerAll_answered {W : Option (List Nat)} {s t : State} (g : Only W s t) (hw : allows W F.sessions = false)
    {o : Origin} (h : (s.sessionUid o.uid).isSome = true) (st : Nat) : (t.answerAll [o] st).answered o st [] :=
  State.finish_answered ((g.sessionUid hw o.uid).trans h) st []

theorem State.abandonSwitch_eq {s : State} {g : Gap} (hgap : s.time.gap = some g) :
    s.abandonSwitch = s.gapClosed.answerAll g.waiting Status.NOT_READY := by
  unfold State.abandonSwitch
  rw [hgap]
  rfl

theorem State.abandonSwitch_time {s : State} {g : Gap} (hgap : s.time.gap = some g) : s.abandonSwitch.time = s.gapClosed.time := by
  rw [State.abandonSwitch_eq hgap, (State.answerAll_only ..).time rfl]

/-! ### A fault that leaves its core's power domain up (R161) -/

/-- What a core's state and record, the cores' flags and a sticky fault touch. -/
def faultFrame : List Nat :=
  [F.cmd, F.fault, F.rings, F.time, P.CMD_NOTICE_DROP, P.COR_FLAGS, P.COR_STATE, P.HLT_FAULT_COUNT, P.HLT_STICKY]

/-- The record of a core that fails: the cause of a missing edge or of a parity error is absent from the next tick on (R161). -/
def Core.failedAt (x : Core) (cause clock : Nat) : Core :=
  { x with okSince := if cause = 2 ∨ cause = 5 then some (clock + 2) else none, xlockSince := none }

/-- The state once core `c` has FAILED, before the fault is acted on. -/
def State.failed (s : State) (c cause : Nat) : State :=
  (((s.wr P.COR_STATE c 5).setCore c fun x => x.failedAt cause s.clock).orIn P.COR_FLAGS 0 (2 ^ c)).sticky 2 c

section
variable (s : State) (c cause : Nat)

theorem State.failed_only : Only (some faultFrame) s (s.failed c cause) :=
  ((((Only.refl _ s).wr rfl _ _).step (State.setCore_only ..) rfl).orIn rfl _ _).step (State.sticky_only ..) rfl

theorem State.failed_corState (d : Nat) : (s.failed c cause).corState d = if d = c then 5 else s.corState d := by
  unfold State.failed State.corState State.orIn
  rw [(State.sticky_only ..).rd _ _ (by decide) rfl, State.rd_wr_base _ (by decide), State.setCore_rd, State.rd_wr]
  simp

theorem State.failed_flag : ((s.failed c cause).rd P.COR_FLAGS).testBit c = true := by
  unfold State.failed State.orIn
  rw [(State.sticky_only ..).rd _ _ (by decide) rfl, State.rd_wr_self, Nat.testBit_or, Nat.testBit_two_pow_self, Bool.or_true]

theorem State.failed_sticky : ((s.failed c cause).rd P.HLT_STICKY).testBit 2 = true := State.sticky_bit ..

theorem State.failed_time : (s.failed c cause).time = (s.setCore c fun x => x.failedAt cause s.clock).time := by
  unfold State.failed
  rw [(State.sticky_only ..).time rfl]
  unfold State.setCore
  split <;> rfl

theorem State.failed_core : (s.failed c cause).core c = (s.core c).failedAt cause s.clock :=
  (State.core_congr (s.failed_time c cause) c).trans (State.core_setCore ..)

theorem State.failed_gap : (s.failed c cause).time.gap = s.time.gap := by rw [State.failed_time, State.setCore_gap]

theorem State.failed_mayTakeOver {c d : Nat} (h : d ≠ c) : (s.failed c cause).mayTakeOver d = s.mayTakeOver d := by
  unfold State.mayTakeOver
  rw [State.failed_corState, if_neg h, (s.failed_only c cause).rd P.COR_MIN_SCORE _ (by decide) rfl,
    (s.failed_only c cause).rd P.COR_SCORE _ (by decide) rfl]

end

/-! ### What a fault leads to -/

/-- What a switch-over, the end of one and a change of TSTATE to FAULT touch. -/
def actFrame : List Nat :=
  [F.cmd, F.fault, F.rings, F.servo, F.time, P.CMD_NOTICE_DROP, P.CMD_REFUSED_COUNT, P.HLT_FAULT_COUNT, P.HLT_STICKY, P.REF_ACTIVE,
    P.REF_FLAGS, P.REF_SWLOG_HEAD, P.REF_SWLOG_INFO, P.REF_SWLOG_TIME, P.REF_TSTATE, P.TBS_BOUND_NOW, P.TBS_BOUND_PS, P.TBS_DOM_SELECTED,
    P.TBS_OVER_LIMIT_COUNT]

/-- From `s` to `t` a fault has been acted on: by a switch-over, by its end, by TSTATE FAULT or not at all. The cores stay as they are, but
for the gap, and no sticky bit falls. -/
structure State.ActedOn (s t : State) : Prop where
  only : Only (some actFrame) s t
  core : ∀ c, t.core c = s.core c
  sticky : s.KeepsSticky t

theorem State.ActedOn.refl (s : State) : s.ActedOn s := ⟨.refl _ s, fun _ => rfl, fun _ h => h⟩

theorem State.ActedOn.trans {s t u : State} (h : s.ActedOn t) (g : t.ActedOn u) : s.ActedOn u :=
  ⟨h.only.trans g.only, fun c => (g.core c).trans (h.core c), h.sticky.trans g.sticky⟩

section
variable (s : State)

theorem State.toFault_actedOn : s.ActedOn s.toFault :=
  ⟨s.toFault_only.mono rfl, State.core_congr (s.toFault_only.time rfl), s.toFault_keepsSticky⟩

theorem State.beginSwitch_actedOn (fromCore toCore cause : Nat) (waiting : List Origin) :
    s.ActedOn (s.beginSwitch fromCore toCore cause waiting) :=
  ⟨(State.beginSwitch_only ..).mono rfl, fun _ => rfl, fun _ h => h⟩

theorem State.abandonSwitch_actedOn {g : Gap} (hgap : s.time.gap = some g) : s.ActedOn s.abandonSwitch :=
  ⟨s.abandonSwitch_only.mono rfl, fun c => State.core_congr (t := s.abandonSwitch) (s := s.gapClosed) (State.abandonSwitch_time hgap) c,
    .only s.abandonSwitch_only rfl⟩

end

section
variable {s : State} {c cause : Nat} (hcause : cause ≠ 1)
include hcause

/-- Outside a gap only a fault of the active core is acted on. -/
theorem State.coreFault_alone (hgap : s.time.gap = none) : s.coreFault c cause = if s.corState c = 4 then
    (if (s.failed c cause).mayTakeOver (1 - c) then (s.failed c cause).beginSwitch c (1 - c) cause [] else (s.failed c cause).toFault)
    else s.failed c cause := by
  have hnone := (s.failed_gap c cause).trans hgap
  unfold State.coreFault
  extract_lets was marked shown t
  have ht : t = s.failed c cause := by simp only [t, shown, marked, if_neg hcause]; rfl
  rw [ht, hnone]
  simp only [was, beq_iff_eq]

theorem State.coreFault_inGap {g : Gap} (hgap : s.time.gap = some g) : s.coreFault c cause = if g.toCore = c then
    (if (s.failed c cause).corState g.fromCore = 4 then (s.failed c cause).abandonSwitch else (s.failed c cause).abandonSwitch.toFault)
    else s.failed c cause := by
  have hsome := (s.failed_gap c cause).trans hgap
  unfold State.coreFault
  extract_lets was marked shown t
  have ht : t = s.failed c cause := by simp only [t, shown, marked, if_neg hcause]; rfl
  rw [ht, hsome]

/-- Whatever a fault of a core is met by, the core has failed. -/
theorem State.coreFault_actedOn : (s.failed c cause).ActedOn (s.coreFault c cause) := by
  cases hgap : s.time.gap with
  | none =>
    rw [State.coreFault_alone hcause hgap]
    split
    · split
      · exact State.beginSwitch_actedOn ..
      · exact State.toFault_actedOn _
    · exact .refl _
  | some g =>
    have habandon := (s.failed c cause).abandonSwitch_actedOn ((s.failed_gap c cause).trans hgap)
    rw [State.coreFault_inGap hcause hgap]
    split
    · split
      · exact habandon
      · exact habandon.trans (State.toFault_actedOn _)
    · exact .refl _

end

end Sys2Proof.Machine
end

section
/-! ## Timing cores: a core returns, and what a round of tests leads to (R157, R159, R160, R168) -/

namespace Sys2Proof.Machine

/-! ### A core returns in TSTATE FAULT (R168) -/

section
variable {s : State}

theorem State.takeFrom_tstate (r : Nat) : (s.takeFrom r).rd P.REF_TSTATE ≠ 7 := by
  unfold State.takeFrom
  split
  · split
    · rw [State.toPulling_tstate]; decide
    · rw [State.toAcquire_tstate]; decide
  · rw [State.toUntraceable_tstate]; decide

theorem State.followSelection_takes {r : Nat} (hts : s.rd P.REF_TSTATE = 4 ∨ s.rd P.REF_TSTATE = 5) (hsel : s.selected = some r)
    (lost : Nat) : s.followSelection lost = s.takeFrom r := by
  unfold State.followSelection
  rcases hts with hts | hts <;> simp only [hts, hsel]

theorem State.followSelection_free (hts : s.rd P.REF_TSTATE = 0) (hsel : s.selected = none) (lost : Nat) : s.followSelection lost = s := by
  unfold State.followSelection
  simp only [hts, hsel]

/-- A module that follows nothing takes what is selected, or stays as it is. -/
theorem State.followSelection_tstate (hts : s.rd P.REF_TSTATE = 0 ∨ s.rd P.REF_TSTATE = 4 ∨ s.rd P.REF_TSTATE = 5) (lost : Nat) :
    (s.followSelection lost).rd P.REF_TSTATE ≠ 7 := by
  rcases hts with hfree | hheld
  · cases hsel : s.selected with
    | none => rw [State.followSelection_free hfree hsel]; omega
    | some r => rw [State.followSelection_freerun hfree hsel, State.toAcquire_tstate]; decide
  · cases hsel : s.selected with
    | none => rw [State.followSelection_held hheld hsel]; omega
    | some r => rw [State.followSelection_takes hheld hsel]; exact State.takeFrom_tstate r

theorem State.dropAll_tstate (s : State) :
    s.dropAll.rd P.REF_TSTATE = 0 ∨ s.dropAll.rd P.REF_TSTATE = 4 ∨ s.dropAll.rd P.REF_TSTATE = 5 := by
  unfold State.dropAll
  split
  · exact .inr s.toHoldover_held.tstate
  · exact .inl (s.put_tstate 0 8)

end

section
variable (s : State) (c : Nat)

theorem State.coreReturn_eq :
    s.coreReturn c = ((s.activated c).dropAll.followSelection (s.activated c).dropAll.clock).conclude s 10 := rfl

theorem State.coreReturn_tstate : (s.coreReturn c).rd P.REF_TSTATE ≠ 7 := by
  rw [State.coreReturn_eq, State.conclude_tstate]
  exact State.followSelection_tstate (State.dropAll_tstate _) _

/-- Once it is ACTIVE, a core that returns has the references followed by the module and no part in it. -/
theorem State.coreReturn_activated : Only (some [F.cmd, F.fault, F.fresh, F.rings, F.servo, P.CMD_NOTICE_DROP, P.HLT_FAULT_COUNT,
    P.HLT_STICKY, P.REF_ACTIVE, P.REF_FLAGS, P.REF_HO_C, P.REF_HO_D, P.REF_HO_Y0, P.REF_SWLOG_HEAD, P.REF_SWLOG_INFO, P.REF_SWLOG_TIME,
    P.REF_TSTATE, P.TBS_BOUND_NOW, P.TBS_BOUND_PS, P.TBS_DOM_SELECTED]) (s.activated c) (s.coreReturn c) := by
  rw [State.coreReturn_eq]
  exact (((State.dropAll_only _).mono rfl).step (State.followSelection_only ..) rfl).step (State.conclude_only ..) rfl

theorem State.coreReturn_core : (s.coreReturn c).core c = { s.core c with count := s.time.out } :=
  (State.core_congr ((s.coreReturn_activated c).time rfl) c).trans State.activated_core

theorem State.coreReturn_corState : (s.coreReturn c).corState c = 4 :=
  ((s.coreReturn_activated c).rd _ _ (by decide) rfl).trans ((State.activated_corState c).trans (if_pos rfl))

theorem State.coreReturn_active : (s.coreReturn c).rd P.COR_ACTIVE = c :=
  ((s.coreReturn_activated c).rd _ _ (by decide) rfl).trans State.activated_active

end

theorem State.returnStandby_running {s : State} (hts : s.rd P.REF_TSTATE ≠ 7) : s.returnStandby = s := if_neg hts

/-! ### What becomes of a round's results -/

/-- From `s` to `t` the results that a round has shown stay: those of the oven, the oscillator and the servo, and the record of the round;
but in TSTATE FAULT, where a core may return, all of them and the scores. -/
structure State.KeepsRounds (s t : State) : Prop where
  results : ∀ c id, id < 3 → t.testResult c id = s.testResult c id
  shown : s.rd P.REF_TSTATE ≠ 7 → Agrees [P.COR_SCORE, P.COR_TEST_RESULT] s t
  roundAt : ∀ c, (t.core c).roundAt = (s.core c).roundAt
  measured : ∀ c, (t.core c).measured = (s.core c).measured

section
variable {s t u : State}

theorem State.KeepsRounds.refl (s : State) : s.KeepsRounds s := ⟨fun _ _ _ => rfl, fun _ _ _ _ => rfl, fun _ => rfl, fun _ => rfl⟩

theorem State.KeepsRounds.trans (h : s.KeepsRounds t) (hts : t.rd P.REF_TSTATE = s.rd P.REF_TSTATE) (g : t.KeepsRounds u) :
    s.KeepsRounds u where
  results c id hid := (g.results c id hid).trans (h.results c id hid)
  shown hs := (h.shown hs).trans (g.shown (hts.trans_ne hs))
  roundAt c := (g.roundAt c).trans (h.roundAt c)
  measured c := (g.measured c).trans (h.measured c)

/-- An operation whose frame leaves out the results, and that changes something else of one core's record. -/
theorem State.KeepsRounds.only {W : Option (List Nat)} {c : Nat} {f : Core → Core} (g : Only W s t)
    (hw : spares W [P.COR_SCORE, P.COR_TEST_RESULT] = true) (hcore : ∀ d, t.core d = (s.setCore c f).core d)
    (hround : ∀ x, (f x).roundAt = x.roundAt) (hmeasured : ∀ x, (f x).measured = x.measured) : s.KeepsRounds t where
  results d id _ := g.agrees hw P.COR_TEST_RESULT (by decide) (5 * d + id)
  shown _ := g.agrees hw
  roundAt d := by rw [hcore, s.core_setCore_keeps c f Core.roundAt hround]
  measured d := by rw [hcore, s.core_setCore_keeps c f Core.measured hmeasured]

theorem State.coreFault_keepsRounds {cause : Nat} (hcause : cause ≠ 1) (c : Nat) : s.KeepsRounds (s.coreFault c cause) := by
  have hacted := State.coreFault_actedOn (s := s) (c := c) hcause
  have hframe : Only (some (faultFrame ++ actFrame)) s (s.coreFault c cause) :=
    ((s.failed_only c cause).mono rfl).step hacted.only rfl
  exact .only hframe rfl (fun d => (hacted.core d).trans (State.core_congr (s.failed_time c cause) d)) (fun _ => rfl) fun _ => rfl

theorem State.coreReturn_keepsRounds (hts : s.rd P.REF_TSTATE = 7) (c : Nat) : s.KeepsRounds (s.coreReturn c) := by
  have hcore := fun d =>
    (State.core_congr ((s.coreReturn_activated c).time rfl) d).trans (State.core_congr State.activated_time d)
  refine ⟨fun d id hid => ?_, fun h => absurd hts h, fun d => ?_, fun d => ?_⟩
  · refine ((s.coreReturn_activated c).rd P.COR_TEST_RESULT _ (by decide) rfl).trans ?_
    exact (State.activated_testResult d (by omega)).trans (if_neg fun h => absurd h.2 (by omega))
  · exact (congrArg Core.roundAt (hcore d)).trans
      (s.core_setCore_keeps c (fun x => { x with count := s.time.out }) Core.roundAt (fun _ => rfl) d)
  · exact (congrArg Core.measured (hcore d)).trans
      (s.core_setCore_keeps c (fun x => { x with count := s.time.out }) Core.measured (fun _ => rfl) d)

theorem State.returnStandby_keepsRounds (s : State) : s.KeepsRounds s.returnStandby := by
  unfold State.returnStandby
  split
  · next hts =>
    split
    · exact State.coreReturn_keepsRounds hts 0
    · split
      · exact State.coreReturn_keepsRounds hts 1
      · exact .refl s
  · exact .refl s

end

/-! ### What a round leads to -/

/-- Whether the oven or the oscillator of core `c` tests FAIL (R161). -/
def State.roundBad (s : State) (c : Nat) : Bool := s.testResult c 0 == 2 || s.testResult c 1 == 2

/-- The record of a core that cross-locks: its count, and since when its PEER error has stayed within 20 ps (R157, R159). -/
def Core.followedBy (x : Core) (count : TimeCount) (peer : Int) (clock : Nat) : Core :=
  { x with
    count := count
    xlockSince := if peer.natAbs ≤ 20 then (match x.xlockSince with | some t => some t | none => some clock) else none }

/-- A core that cross-locks takes module time with its PEER error (R159); one that strays follows again, and its flag is raised. -/
def State.followed (s : State) (c : Nat) (m : CoreMeasure) : State :=
  let t := s.setCore c fun x => x.followedBy (s.followedCount m.peer) m.peer s.clock
  let t := if s.corState c = 3 ∧ 100 < m.peer.natAbs then t.wr P.COR_STATE c 2 else t
  if t.testResult c 3 = 2 then (t.orIn P.COR_FLAGS 0 4).sticky 1 c else t

/-- A core begins to cross-lock (R157). -/
def State.crosslocked (s : State) (c : Nat) : State := (s.wr P.COR_STATE c 2).setCore c fun x => { x with xlockSince := none }

theorem State.crosslocked_only (s : State) (c : Nat) : Only (some [F.time, P.COR_STATE]) s (s.crosslocked c) :=
  ((Only.refl _ s).wr rfl _ _).step (State.setCore_only ..) rfl

theorem State.crosslocked_time (s : State) (c : Nat) :
    (s.crosslocked c).time = (s.setCore c fun x => { x with xlockSince := none }).time := by
  unfold State.crosslocked State.setCore
  split <;> rfl

theorem State.crosslocked_corState (s : State) (c : Nat) : (s.crosslocked c).corState c = 2 :=
  (State.setCore_corState ..).trans (State.rd_wr_self ..)

section
variable {s : State} {c : Nat} (m : CoreMeasure)

theorem State.followed_only : Only (some faultFrame) s (s.followed c m) := by
  unfold State.followed
  extract_lets counted placed
  have hcounted : Only (some faultFrame) s counted := (State.setCore_only ..).mono rfl
  have hplaced : Only (some faultFrame) s placed := .cond _ (hcounted.wr rfl _ _) hcounted
  exact .cond _ ((hplaced.orIn rfl _ _).step (State.sticky_only ..) rfl) hplaced

theorem State.followed_time :
    (s.followed c m).time = (s.setCore c fun x => x.followedBy (s.followedCount m.peer) m.peer s.clock).time := by
  unfold State.followed
  extract_lets counted placed
  have hplaced : placed.time = counted.time := by
    dsimp only [placed]
    split <;> rfl
  split
  · exact ((State.sticky_only ..).time rfl).trans hplaced
  · exact hplaced

theorem State.followed_count : ((s.followed c m).core c).count = s.followedCount m.peer := by
  rw [State.core_congr (State.followed_time m), State.core_setCore]
  rfl

theorem State.followed_corState : (s.followed c m).corState c = if s.corState c = 3 ∧ 100 < m.peer.natAbs then 2 else s.corState c := by
  unfold State.followed
  extract_lets counted placed
  have hplaced : placed.corState c = if s.corState c = 3 ∧ 100 < m.peer.natAbs then 2 else s.corState c := by
    dsimp only [placed]
    split
    · exact State.rd_wr_self ..
    · exact State.setCore_corState ..
  split
  · exact ((State.sticky_only ..).rd _ _ (by decide) rfl).trans ((State.rd_wr_base _ (by decide) ..).trans hplaced)
  · exact hplaced

theorem State.followed_keepsRounds : s.KeepsRounds (s.followed c m) :=
  .only (State.followed_only m) rfl (State.core_congr (State.followed_time m)) (fun _ => rfl) fun _ => rfl

theorem State.afterTests_failed (h : s.corState c = 5) : s.afterTests c m = s.setCore c fun x => { x with
    okSince := if s.roundBad c then none else some (x.okSince.getD s.clock) } := by
  unfold State.afterTests
  simp only [h]
  refine congrArg (s.setCore c) (funext fun x => ?_)
  obtain ⟨count, okSince, xlockSince, roundAt, measured, applied⟩ := x
  cases okSince <;> rfl

theorem State.afterTests_bad (h0 : s.corState c ≠ 0) (h5 : s.corState c ≠ 5) (hbad : s.roundBad c = true) :
    s.afterTests c m = s.coreFault c (if s.testResult c 0 = 2 then 3 else 4) := by
  unfold State.afterTests
  extract_lets bad
  split
  · next h => exact absurd h h5
  · next h => exact absurd h h0
  · exact if_pos hbad

theorem State.afterTests_warming (h : s.corState c = 1) (hgood : s.roundBad c = false) : s.afterTests c m =
    if s.ovenWarm c then
      if s.rd P.REF_TSTATE = 7 then s.coreReturn c
      else if s.corState (1 - c) = 4 then s.crosslocked c
      else s
    else s := by
  unfold State.roundBad at hgood
  unfold State.afterTests
  simp only [h, hgood, Bool.false_eq_true, if_false, if_true]
  rfl

theorem State.afterTests_following (h : s.corState c = 2 ∨ s.corState c = 3) (hgood : s.roundBad c = false) :
    s.afterTests c m = (s.followed c m).returnStandby := by
  unfold State.roundBad at hgood
  unfold State.afterTests State.followed
  rcases h with h | h <;> simp [h, hgood] <;> rfl

/-- A good round of a core that neither warms, follows nor has failed leads to nothing. -/
theorem State.afterTests_idle (h1 : s.corState c ≠ 1) (h23 : ¬ (s.corState c = 2 ∨ s.corState c = 3)) (h5 : s.corState c ≠ 5)
    (hgood : s.roundBad c = false) : s.afterTests c m = s := by
  unfold State.afterTests
  extract_lets bad
  split
  · next h => exact absurd h h5
  · rfl
  · exact (if_neg (Bool.eq_false_iff.mp hgood)).trans ((if_neg h1).trans (if_neg h23))

theorem State.afterTests_keepsRounds (h0 : s.corState c ≠ 0) : s.KeepsRounds (s.afterTests c m) := by
  by_cases h5 : s.corState c = 5
  · rw [State.afterTests_failed m h5]
    exact .only (s.setCore_only c _) rfl (fun _ => rfl) (fun _ => rfl) fun _ => rfl
  cases hbad : s.roundBad c with
  | true =>
    rw [State.afterTests_bad m h0 h5 hbad]
    exact State.coreFault_keepsRounds (by split <;> decide) c
  | false =>
    by_cases h1 : s.corState c = 1
    · rw [State.afterTests_warming m h1 hbad]
      split
      · split
        · next hts => exact State.coreReturn_keepsRounds hts c
        · split
          · exact .only (s.crosslocked_only c) rfl (State.core_congr (s.crosslocked_time c)) (fun _ => rfl) fun _ => rfl
          · exact .refl s
      · exact .refl s
    by_cases h23 : s.corState c = 2 ∨ s.corState c = 3
    · rw [State.afterTests_following m h23 hbad]
      exact (State.followed_keepsRounds m).trans ((State.followed_only m).rd _ _ (by decide) rfl) (State.returnStandby_keepsRounds _)
    · rw [State.afterTests_idle m h1 h23 h5 hbad]
      exact .refl s

end

/-! ### A round of tests (R160, R162) -/

/-- The state in which the results, the score and the values of a round are shown. -/
def State.roundNoted (s : State) (c : Nat) (m : CoreMeasure) : State :=
  (s.showTests c (s.grades c m)).setCore c fun x => { x with
    roundAt := s.now, measured := [m.oven, m.dco, m.residual, m.peer.natAbs, (s.shadowMisses m).length] }

/-- The state once a core that follows has its mismatches counted and its PEER error shown besides. -/
def State.tested (s : State) (c : Nat) (m : CoreMeasure) : State :=
  if s.corState c == 2 || s.corState c == 3 then
    ((s.shadowMisses m).foldl (fun u p => u.count P.COR_SHADOW_MISMATCH p) (s.roundNoted c m)).wrS 32 P.COR_PEER_ERR c m.peer
  else s.roundNoted c m

section
variable (s : State) (c : Nat) (m : CoreMeasure)

theorem State.roundNoted_only : Only (some [F.time, P.COR_SCORE, P.COR_TEST_RESULT]) s (s.roundNoted c m) :=
  ((State.showTests_only ..).mono rfl).step (State.setCore_only ..) rfl

theorem State.tested_noted : Only (some [P.COR_PEER_ERR, P.COR_SHADOW_MISMATCH]) (s.roundNoted c m) (s.tested c m) :=
  .cond _ (Only.wrS (Only.fold _ _ (fun u _ => (Only.refl _ u).count_plain rfl rfl _ _) (.refl _ _)) rfl _ _ _) (.refl _ _)

theorem State.tested_only : Only (some [F.time, P.COR_PEER_ERR, P.COR_SCORE, P.COR_SHADOW_MISMATCH, P.COR_TEST_RESULT]) s (s.tested c m) :=
  ((s.roundNoted_only c m).mono rfl).step (s.tested_noted c m) rfl

theorem State.tested_testResult (d : Nat) {id : Nat} (hid : id < 5) :
    (s.tested c m).testResult d id = if d = c then (s.grades c m).getD id 3 else s.testResult d id :=
  ((s.tested_noted c m).rd _ _ (by decide) rfl).trans ((State.setCore_rd ..).trans (State.showTests_testResult rfl d hid))

theorem State.tested_score : (s.tested c m).rd P.COR_SCORE c = healthScore (s.corState c == 4) (s.grades c m) :=
  ((s.tested_noted c m).rd _ _ (by decide) rfl).trans ((State.setCore_rd ..).trans (State.showTests_score _))

theorem State.tested_core : (s.tested c m).core c = { s.core c with
    roundAt := s.now, measured := [m.oven, m.dco, m.residual, m.peer.natAbs, (s.shadowMisses m).length] } := by
  rw [State.core_congr ((s.tested_noted c m).time rfl), State.roundNoted, State.core_setCore,
    State.core_congr ((State.showTests_only ..).time rfl)]

theorem grade_fails {x marginal fail : Nat} : grade x marginal fail = 2 ↔ fail < x := by
  unfold grade
  split
  · next h => exact iff_of_true rfl h
  · next h => exact iff_of_false (by split <;> decide) h

theorem grade_passes {x marginal fail : Nat} (hm : x ≤ marginal) (hf : x ≤ fail) : grade x marginal fail = 0 := by
  unfold grade
  rw [if_neg (Nat.not_lt.mpr hf), if_neg (Nat.not_lt.mpr hm)]

theorem State.tested_oven :
    (s.tested c m).testResult c 0 = grade m.oven.natAbs (s.rd P.COR_OVEN_MARG) (s.rd P.COR_OVEN_FAIL) :=
  (s.tested_testResult c m c (by decide)).trans (if_pos rfl)

theorem State.tested_dco : (s.tested c m).testResult c 1 = grade m.dco 8000 9500 :=
  (s.tested_testResult c m c (by decide)).trans (if_pos rfl)

theorem State.tested_bad : (s.tested c m).roundBad c = true ↔ 9500 < m.dco ∨ s.rd P.COR_OVEN_FAIL < m.oven.natAbs := by
  unfold State.roundBad
  rw [Bool.or_eq_true, beq_iff_eq, beq_iff_eq, State.tested_oven, State.tested_dco, grade_fails, grade_fails, or_comm]

theorem State.tested_good (hoven : m.oven.natAbs ≤ s.rd P.COR_OVEN_FAIL) (hdco : m.dco ≤ 9500) : (s.tested c m).roundBad c = false :=
  Bool.eq_false_iff.mpr fun h => by have := (s.tested_bad c m).mp h; omega

theorem State.coreSelfTest_eq {s : State} {core : Fin 2} (h : s.corState core.val ≠ 0) (m : CoreMeasure) :
    s.coreSelfTest core m = (s.tested core.val m).afterTests core.val m := if_neg h

end

end Sys2Proof.Machine
end

section
/-! ## Timing cores: rounds of tests, missing edges and parity errors (R157, R160, R161, R163, R164) -/

namespace Sys2Proof.Machine

/-! ### A core has failed (R161) -/

section
variable {s : State} {c cause : Nat} (hcause : cause ≠ 1)
include hcause

theorem State.coreFault_corState (d : Nat) : (s.coreFault c cause).corState d = if d = c then 5 else s.corState d :=
  ((State.coreFault_actedOn hcause).only.rd _ _ (by decide) rfl).trans (s.failed_corState c cause d)

theorem State.coreFault_core : (s.coreFault c cause).core c = (s.core c).failedAt cause s.clock :=
  ((State.coreFault_actedOn hcause).core c).trans (s.failed_core c cause)

theorem State.coreFault_flag : ((s.coreFault c cause).rd P.COR_FLAGS).testBit c = true := by
  rw [(State.coreFault_actedOn hcause).only.rd _ _ (by decide) rfl]
  exact s.failed_flag c cause

theorem State.coreFault_sticky : ((s.coreFault c cause).rd P.HLT_STICKY).testBit 2 = true :=
  (State.coreFault_actedOn hcause).sticky 2 (s.failed_sticky c cause)

/-- A fault of a core that is not ACTIVE is not acted on outside a gap. -/
theorem State.coreFault_inactive (hgap : s.time.gap = none) (h : s.corState c ≠ 4) : s.coreFault c cause = s.failed c cause :=
  (State.coreFault_alone hcause hgap).trans (if_neg h)

theorem State.coreFault_switches (hgap : s.time.gap = none) (h : s.corState c = 4) (hother : 1 - c ≠ c)
    (hmay : s.mayTakeOver (1 - c) = true) : s.coreFault c cause = (s.failed c cause).beginSwitch c (1 - c) cause [] :=
  (State.coreFault_alone hcause hgap).trans ((if_pos h).trans (if_pos ((s.failed_mayTakeOver cause hother).trans hmay)))

theorem State.coreFault_stops (hgap : s.time.gap = none) (h : s.corState c = 4) (hother : 1 - c ≠ c)
    (hmay : s.mayTakeOver (1 - c) = false) : s.coreFault c cause = (s.failed c cause).toFault :=
  (State.coreFault_alone hcause hgap).trans ((if_pos h).trans
    (if_neg (Bool.eq_false_iff.mp ((s.failed_mayTakeOver cause hother).trans hmay))))

/-- A fault of the core to take over ends the gap; TSTATE is FAULT unless the former core is ACTIVE still (R164). -/
theorem State.coreFault_endsGap {g : Gap} (hgap : s.time.gap = some g) (hto : g.toCore = c) (hother : g.fromCore ≠ c) :
    s.coreFault c cause =
      if s.corState g.fromCore = 4 then (s.failed c cause).abandonSwitch else (s.failed c cause).abandonSwitch.toFault := by
  rw [State.coreFault_inGap hcause hgap, if_pos hto, State.failed_corState, if_neg hother]

end

theorem State.beginSwitch_gap (s : State) (fromCore toCore cause : Nat) :
    (s.beginSwitch fromCore toCore cause []).time.gap = some ⟨s.clock, fromCore, toCore, cause, []⟩ := rfl

/-! ### CORE_SELF_TEST (R160) -/

section
variable {s : State} {core : Fin 2} (h : s.corState core.val ≠ 0) (m : CoreMeasure)
include h

/-- What a round leaves of its results whatever it leads to. -/
theorem State.coreSelfTest_keepsRounds : (s.tested core.val m).KeepsRounds (s.coreSelfTest core m) := by
  rw [State.coreSelfTest_eq h]
  exact State.afterTests_keepsRounds m (((s.tested_only core.val m).rd _ _ (by decide) rfl).trans_ne h)

/-- A failing oven or oscillator is a fault of the core (R161). -/
theorem State.coreSelfTest_fails (h5 : s.corState core.val ≠ 5) (hbad : 9500 < m.dco ∨ s.rd P.COR_OVEN_FAIL < m.oven.natAbs) :
    (s.coreSelfTest core m).corState core.val = 5 ∧ ((s.coreSelfTest core m).rd P.COR_FLAGS).testBit core.val = true ∧
      ((s.coreSelfTest core m).rd P.HLT_STICKY).testBit 2 = true ∧ ((s.coreSelfTest core m).core core.val).okSince = none := by
  have hstate := (s.tested_only core.val m).rd P.COR_STATE core.val (by decide) rfl
  rw [State.coreSelfTest_eq h,
    State.afterTests_bad m (hstate.trans_ne h) (hstate.trans_ne h5) ((s.tested_bad core.val m).mpr hbad)]
  have hcause : ∀ p : Prop, [Decidable p] →
      (if p then 3 else 4) ≠ 1 ∧ ¬ ((if p then 3 else 4) = 2 ∨ (if p then 3 else 4) = 5) := by intro p _; split <;> decide
  obtain ⟨hlost, hstanding⟩ := hcause ((s.tested core.val m).testResult core.val 0 = 2)
  refine ⟨?_, State.coreFault_flag hlost, State.coreFault_sticky hlost, ?_⟩
  · rw [State.coreFault_corState hlost, if_pos rfl]
  · rw [State.coreFault_core hlost]
    exact if_neg hstanding

/-- A round of a core that has failed says whether its cause stands (R161). -/
theorem State.coreSelfTest_failed (h5 : s.corState core.val = 5) : (s.coreSelfTest core m).corState core.val = 5 ∧
    ((s.coreSelfTest core m).core core.val).okSince = if 9500 < m.dco ∨ s.rd P.COR_OVEN_FAIL < m.oven.natAbs then none
      else some ((s.core core.val).okSince.getD s.clock) := by
  have hframe := s.tested_only core.val m
  have hstate : (s.tested core.val m).corState core.val = 5 := (hframe.rd _ _ (by decide) rfl).trans h5
  rw [State.coreSelfTest_eq h, State.afterTests_failed m hstate, State.setCore_corState, State.core_setCore, State.tested_core,
    hframe.keeps.clock]
  refine ⟨hstate, ?_⟩
  simp only [State.tested_bad]

/-- A good round of a core that follows gives it module time with its PEER error (R159). -/
theorem State.coreSelfTest_follows (h23 : s.corState core.val = 2 ∨ s.corState core.val = 3)
    (hoven : m.oven.natAbs ≤ s.rd P.COR_OVEN_FAIL) (hdco : m.dco ≤ 9500) (hts : s.rd P.REF_TSTATE ≠ 7) :
    ((s.coreSelfTest core m).core core.val).count = s.followedCount m.peer ∧
      (s.coreSelfTest core m).corState core.val = if s.corState core.val = 3 ∧ m.peer.natAbs ≤ 100 then 3 else 2 := by
  have hframe := s.tested_only core.val m
  have hstate : (s.tested core.val m).corState core.val = s.corState core.val := hframe.rd _ _ (by decide) rfl
  have hrunning : ((s.tested core.val m).followed core.val m).rd P.REF_TSTATE ≠ 7 := by
    rwa [(State.followed_only m).rd _ _ (by decide) rfl, hframe.rd _ _ (by decide) rfl]
  have htime : (s.tested core.val m).followedCount m.peer = s.followedCount m.peer := by
    unfold State.followedCount State.modNs
    rw [hframe.timeOut rfl]
  rw [State.coreSelfTest_eq h, State.afterTests_following m (by rwa [hstate]) (s.tested_good core.val m hoven hdco),
    State.returnStandby_running hrunning, State.followed_count, State.followed_corState, htime, hstate]
  refine ⟨rfl, ?_⟩
  rcases h23 with h2 | h3
  · rw [h2, if_neg fun e => absurd e.1 (by decide), if_neg fun e => absurd e.1 (by decide)]
  · rw [h3]
    by_cases hnear : m.peer.natAbs ≤ 100
    · rw [if_neg fun e => absurd e.2 (Nat.not_lt.mpr hnear), if_pos ⟨rfl, hnear⟩]
    · rw [if_pos ⟨rfl, Nat.not_le.mp hnear⟩, if_neg fun e => hnear e.2]

/-- A WARMING core whose oven is warm follows the active one (R157). -/
theorem State.coreSelfTest_warms (h1 : s.corState core.val = 1) (hmarg : m.oven.natAbs ≤ s.rd P.COR_OVEN_MARG)
    (hoven : m.oven.natAbs ≤ s.rd P.COR_OVEN_FAIL) (hdco : m.dco ≤ 9500) (hts : s.rd P.REF_TSTATE ≠ 7)
    (hactive : s.corState (1 - core.val) = 4) : (s.coreSelfTest core m).corState core.val = 2 := by
  have hframe := s.tested_only core.val m
  have hstate : ∀ c, (s.tested core.val m).corState c = s.corState c := fun c => hframe.rd _ _ (by decide) rfl
  have hwarm : (s.tested core.val m).ovenWarm core.val = true := by
    unfold State.ovenWarm
    rw [State.tested_oven, grade_passes hmarg hoven]
    rfl
  rw [State.coreSelfTest_eq h, State.afterTests_warming m ((hstate _).trans h1) (s.tested_good core.val m hoven hdco), if_pos hwarm,
    if_neg ((hframe.rd _ _ (by decide) rfl).trans_ne hts), if_pos ((hstate _).trans hactive), State.crosslocked_corState]

end

/-! ### CK_TB_EDGE_MISSING (R163, R164) -/

section
variable {s : State}

theorem State.drives_alone (hgap : s.time.gap = none) (c : Nat) : s.drives c = (s.corState c == 4) := by
  unfold State.drives
  rw [hgap]

theorem State.drives_inGap {g : Gap} (hgap : s.time.gap = some g) (c : Nat) : s.drives c = (g.toCore == c) := by
  unfold State.drives
  rw [hgap]

/-- The edge that is missing is one of the core that the output stage awaits. -/
theorem State.edgeMissing_driven {c : Nat} (hc : c < 2) (h : s.drives c = true) (hother : s.drives (1 - c) = false) :
    s.edgeMissing = s.coreFault c 2 := by
  match c, hc with
  | 0, _ => exact if_pos h
  | 1, _ => exact (if_neg (Bool.eq_false_iff.mp hother)).trans (if_pos h)

theorem State.edgeMissing_alone {c : Nat} (hc : c < 2) (hgap : s.time.gap = none) (h : s.corState c = 4)
    (hother : s.corState (1 - c) ≠ 4) : s.edgeMissing = s.coreFault c 2 := by
  refine State.edgeMissing_driven hc ?_ ?_
  · rw [State.drives_alone hgap, h]; rfl
  · rw [State.drives_alone hgap]; exact beq_eq_false_iff_ne.mpr hother

theorem State.edgeMissing_inGap {g : Gap} (hgap : s.time.gap = some g) (hto : g.toCore < 2) :
    s.edgeMissing = s.coreFault g.toCore 2 := by
  refine State.edgeMissing_driven hto ?_ ?_
  · rw [State.drives_inGap hgap]; exact beq_self_eq_true _
  · rw [State.drives_inGap hgap]; exact beq_eq_false_iff_ne.mpr (by omega)

theorem State.edgeMissing_undriven (hgap : s.time.gap = none) (h0 : s.corState 0 ≠ 4) (h1 : s.corState 1 ≠ 4) : s.edgeMissing = s := by
  unfold State.edgeMissing
  rw [State.drives_alone hgap, State.drives_alone hgap, beq_eq_false_iff_ne.mpr h0, beq_eq_false_iff_ne.mpr h1]
  rfl

end

/-! ### CORE_PARITY_ERROR (R161) -/

section
variable {s : State} {core : Fin 2}

theorem State.parityError_failed (h : s.corState core.val = 5) :
    s.parityError core = s.setCore core.val fun x => { x with okSince := x.okSince.map fun _ => s.clock + 2 } :=
  (if_neg (h.trans_ne (by decide))).trans (if_pos h)

theorem State.parityError_fails (h0 : s.corState core.val ≠ 0) (h5 : s.corState core.val ≠ 5) :
    s.parityError core = s.coreFault core.val 5 := (if_neg h0).trans (if_neg h5)

end

/-! ### The obligation -/

/-- Settles O40: a round by the state of its core, a missing edge and a parity error by the fault that they are. -/
theorem coreTestsAndFaults : Obligations.CoreTestsAndFaults := by
  unfold Obligations.CoreTestsAndFaults
  refine ⟨?_, ?_, ?_, ?_, ?_, ?_, ?_, ?_⟩
  · intro core m s h
    have hkeeps := State.coreSelfTest_keepsRounds h m
    have hts : (s.tested core.val m).rd P.REF_TSTATE = s.rd P.REF_TSTATE := (s.tested_only core.val m).rd _ _ (by decide) rfl
    have hresult : ∀ id, id < 5 → (s.tested core.val m).testResult core.val id = (s.grades core.val m).getD id 3 := fun id hid =>
      (s.tested_testResult core.val m core.val hid).trans (if_pos rfl)
    refine ⟨_, rfl, fun id hid => (hkeeps.results _ id hid).trans (hresult id (by omega)), fun hrun => ?_, ?_, ?_,
      fun h5 hbad => State.coreSelfTest_fails h m h5 hbad, fun h5 => State.coreSelfTest_failed h m h5, fun h23 hoven hdco hrun => ?_,
      fun h1 hmarg hoven hdco hrun hactive => State.coreSelfTest_warms h m h1 hmarg hoven hdco hrun hactive,
      (s.coreSelfTest_only core m).mono rfl⟩
    · have hshown := hkeeps.shown (hts.trans_ne hrun)
      refine ⟨fun id hid => (hshown P.COR_TEST_RESULT (by decide) _).trans (hresult id hid),
        (hshown P.COR_SCORE (by decide) _).trans (s.tested_score core.val m), fun id hid => ?_⟩
      exact (hshown P.COR_TEST_RESULT (by decide) _).trans ((s.tested_testResult core.val m _ hid).trans (if_neg (by omega)))
    · rw [hkeeps.roundAt, State.tested_core]
    · rw [hkeeps.measured, State.tested_core]
    · exact State.coreSelfTest_follows h m (by simpa using h23) hoven hdco hrun
  · intro core m s h
    exact congrArg (fun t : State => Host.Outcome.next t.settle) (if_pos h : s.coreSelfTest core m = s)
  · intro a s ha hgap h4 h3 hscore
    have hmissing := State.edgeMissing_alone ha hgap h4 (by omega)
    have hswitch := State.coreFault_switches (cause := 2) (by decide) hgap h4 (by omega) (State.mayTakeOver_iff.mpr ⟨h3, hscore⟩)
    refine ⟨s.edgeMissing, rfl, ?_, ?_, ?_, ?_, ?_, ?_, ?_, s.edgeMissing_only⟩ <;> rw [hmissing]
    · rw [hswitch, State.beginSwitch_gap, (s.failed_only a 2).keeps.clock]
    · rw [State.coreFault_corState (by decide), if_pos rfl]
    · rw [State.coreFault_corState (by decide), if_neg (by omega), h3]
    · rw [State.coreFault_core (by decide)]; rfl
    · rw [hswitch]; exact (s.failed_only a 2).rd _ _ (by decide) rfl
    · exact State.coreFault_flag (by decide)
    · exact State.coreFault_sticky (by decide)
  · intro a s ha hgap h4 hother hno
    have hmissing := State.edgeMissing_alone ha hgap h4 hother
    have hmay : s.mayTakeOver (1 - a) = false := Bool.eq_false_iff.mpr fun e => by
      obtain ⟨h3, hscore⟩ := State.mayTakeOver_iff.mp e
      omega
    have hstop := State.coreFault_stops (cause := 2) (by decide) hgap h4 (by omega) hmay
    refine ⟨s.edgeMissing, rfl, ?_, ?_, ?_, ?_, s.edgeMissing_only.timeOut rfl, ?_, s.edgeMissing_only⟩ <;> rw [hmissing]
    · rw [hstop, (State.toFault_only _).time rfl, State.failed_gap, hgap]
    · rw [State.coreFault_corState (by decide), if_pos rfl]
    · rw [hstop, State.toFault_tstate]
    · rw [hstop, State.toFault_active]
    · exact State.coreFault_sticky (by decide)
  · intro s hgap h0 h1
    exact congrArg (fun t : State => Host.Outcome.next t.settle) (State.edgeMissing_undriven hgap h0 h1)
  · intro g s hgap hto hfrom
    have hmissing := State.edgeMissing_inGap hgap hto
    have hother : g.fromCore ≠ g.toCore := by omega
    have hends := State.coreFault_endsGap (cause := 2) (by decide) hgap rfl hother
    have hfailed := s.failed_only g.toCore 2
    have hgapOf := (s.failed_gap g.toCore 2).trans hgap
    have htime : s.edgeMissing.time = (s.failed g.toCore 2).gapClosed.time := by
      rw [hmissing, hends]
      split
      · exact State.abandonSwitch_time hgapOf
      · exact ((State.toFault_only _).time rfl).trans (State.abandonSwitch_time hgapOf)
    refine ⟨s.edgeMissing, rfl, ?_, ?_, ?_, ?_, ?_, fun o hwait hopen hactive => ?_, s.edgeMissing_only⟩
    · rw [htime]; rfl
    · rw [htime, ← hfailed.keeps.clock]; rfl
    · rw [hmissing, State.coreFault_corState (by decide), if_pos rfl]
    · rw [hmissing, State.coreFault_corState (by decide), if_neg hother]
    · rw [hmissing, hends]
      split
      · rw [(State.abandonSwitch_only _).rd _ _ (by decide) rfl, hfailed.rd _ _ (by decide) rfl]
      · rw [State.toFault_tstate]
    · rw [hmissing, hends, if_pos hactive, State.abandonSwitch_eq hgapOf, hwait]
      exact State.answerAll_answered (hfailed.step (State.gapClosed_only _) rfl) rfl hopen _
  · intro core s h
    have hframe := s.parityError_only core
    by_cases h5 : s.corState core.val = 5
    · refine ⟨s.parityError core, rfl, ?_, ?_, fun hno => absurd h5 hno, fun h4 => ?_, fun h123 => ?_, hframe⟩
      · rw [State.parityError_failed h5, State.setCore_corState, h5]
      · rw [State.parityError_failed h5, State.core_setCore, if_pos h5]
      · exact absurd (h5.symm.trans h4) (by decide)
      · exact absurd (h5 ▸ h123) (by decide)
    · refine ⟨s.parityError core, rfl, ?_, ?_, fun _ => ?_, fun h4 hgap hmay => ?_, fun h123 hgap => ?_, hframe⟩ <;>
        rw [State.parityError_fails h h5]
      · rw [State.coreFault_corState (by decide), if_pos rfl]
      · rw [State.coreFault_core (by decide), if_neg h5]; rfl
      · exact ⟨State.coreFault_flag (by decide), State.coreFault_sticky (by decide)⟩
      · rw [State.coreFault_switches (by decide) hgap h4 (by omega) hmay, State.beginSwitch_gap, (s.failed_only core.val 5).keeps.clock]
      · have h4 : s.corState core.val ≠ 4 := fun e => absurd (e ▸ h123) (by decide)
        rw [State.coreFault_inactive (by decide) hgap h4, State.failed_gap]
        exact ⟨hgap, (s.failed_only core.val 5).rd _ _ (by decide) rfl⟩
  · intro core s h
    exact congrArg (fun t : State => Host.Outcome.next t.settle) (if_pos h : s.parityError core = s)

end Sys2Proof.Machine
end

section
/-! ## Timing cores: the switch-over, recovery and the commands of the cores (R157, R162 to R168) -/

namespace Sys2Proof.Machine

/-! ### CORE_SWITCH (R164, R168) -/

section
variable {s : State} {rq : Request} {x : Session}

theorem opRow_coreSwitch : opRow Op.CORE_SWITCH = some ⟨Op.CORE_SWITCH, 2, 2, size 4, coreSwitch⟩ := rfl

theorem opRow_coreHealth : opRow Op.CORE_HEALTH = some ⟨Op.CORE_HEALTH, 2, 0, size 4, coreHealth⟩ := rfl

theorem exec_coreSwitch (h : s.taken Op.CORE_SWITCH rq x) : exec (.coreSwitch rq) s =
    .next (coreSwitch (originOf x Op.CORE_SWITCH rq) rq.payload (s.occupied Op.CORE_SWITCH rq x)).settle := by
  have hbody := exec_taken_slow (c := .coreSwitch rq) rfl h opRow_coreSwitch (by decide) (fastPath_slow rq (by decide) (by decide))
  exact hbody

theorem exec_coreHealth (h : s.taken Op.CORE_HEALTH rq x) : exec (.coreHealth rq) s =
    .next (coreHealth (originOf x Op.CORE_HEALTH rq) rq.payload (s.occupied Op.CORE_HEALTH rq x)).settle := by
  have hbody := exec_taken_slow (c := .coreHealth rq) rfl h opRow_coreHealth (by decide) (fastPath_slow rq (by decide) (by decide))
  exact hbody

theorem State.occupied_time (s : State) (op : Nat) (rq : Request) (x : Session) : (s.occupied op rq x).time = s.time :=
  (s.occupied_only op rq x).time rfl

theorem coreSwitch_occupied_only (s : State) (rq : Request) (x : Session) :
    Only (some [F.cmd, F.rings, F.time, P.CMD_REFUSED_COUNT, P.TBS_OVER_LIMIT_COUNT]) s
      (coreSwitch (originOf x Op.CORE_SWITCH rq) rq.payload (s.occupied Op.CORE_SWITCH rq x)) :=
  ((s.occupied_only ..).mono rfl).step (coreSwitch_only ..) rfl

end

section
variable {s : State} (o : Origin) {p : List Byte}

theorem coreSwitch_badValue (h : 1 < beAt 0 1 p) : coreSwitch o p s = s.finish o Status.BAD_VALUE [] := if_pos h

theorem coreSwitch_alone (hc : beAt 0 1 p ≤ 1) (hgap : s.time.gap = none) : coreSwitch o p s =
    if s.corState (beAt 0 1 p) = 4 then s.finish o Status.OK []
    else if s.rd P.REF_TSTATE ≠ 7 ∧ s.mayTakeOver (beAt 0 1 p) then s.beginSwitch (1 - beAt 0 1 p) (beAt 0 1 p) 0 [o]
    else s.finish o Status.NOT_READY [] := by
  unfold coreSwitch
  rw [hgap]
  exact if_neg (Nat.not_lt.mpr hc)

theorem coreSwitch_inGap {g : Gap} (hc : beAt 0 1 p ≤ 1) (hgap : s.time.gap = some g) : coreSwitch o p s =
    if g.toCore = beAt 0 1 p then { s with time := { s.time with gap := some { g with waiting := g.waiting ++ [o] } } }
    else s.finish o Status.NOT_READY [] := by
  unfold coreSwitch
  rw [hgap]
  exact if_neg (Nat.not_lt.mpr hc)

end

/-- Outside a gap a CORE_SWITCH is judged by the core that it names (R164, R168). -/
theorem coreSwitch_taken {s : State} {rq : Request} (x : Session) (hc : beAt 0 1 rq.payload ≤ 1) (hgap : s.time.gap = none) :
    coreSwitch (originOf x Op.CORE_SWITCH rq) rq.payload (s.occupied Op.CORE_SWITCH rq x) =
      if s.corState (beAt 0 1 rq.payload) = 4 then (s.occupied Op.CORE_SWITCH rq x).finish (originOf x Op.CORE_SWITCH rq) Status.OK []
      else if s.rd P.REF_TSTATE ≠ 7 ∧ s.mayTakeOver (beAt 0 1 rq.payload) then
        (s.occupied Op.CORE_SWITCH rq x).beginSwitch (1 - beAt 0 1 rq.payload) (beAt 0 1 rq.payload) 0 [originOf x Op.CORE_SWITCH rq]
      else (s.occupied Op.CORE_SWITCH rq x).finish (originOf x Op.CORE_SWITCH rq) Status.NOT_READY [] := by
  have hrd := fun b (_ : b ∈ [P.COR_STATE, P.COR_MIN_SCORE, P.COR_SCORE]) i => s.occupied_rd Op.CORE_SWITCH rq x b i
  rw [coreSwitch_alone _ hc ((congrArg Timing.gap (s.occupied_time ..)).trans hgap), State.occupied_rd, Agrees.mayTakeOver hrd,
    State.corState, State.occupied_rd]
  rfl

/-- A CORE_SWITCH that ends at once is answered by its status. -/
theorem State.coreSwitch_answers {s : State} {rq : Request} {x : Session} (h : s.taken Op.CORE_SWITCH rq x) {st : Nat}
    (hbody : coreSwitch (originOf x Op.CORE_SWITCH rq) rq.payload (s.occupied Op.CORE_SWITCH rq x) =
      (s.occupied Op.CORE_SWITCH rq x).finish (originOf x Op.CORE_SWITCH rq) st []) :
    ∃ t : State, exec (.coreSwitch rq) s = .next t.settle ∧ t.time = s.time ∧ t.replied x Op.CORE_SWITCH rq st [] ∧
      Only (some [F.cmd, F.rings, P.CMD_REFUSED_COUNT, P.TBS_OVER_LIMIT_COUNT]) s t := by
  have hexec := exec_coreSwitch h
  rw [hbody] at hexec
  exact ⟨_, hexec, ((State.finish_only ..).time rfl).trans (s.occupied_time ..), State.taken_replied h (.refl _) ..,
    ((s.occupied_only ..).mono rfl).step (State.finish_only ..) rfl⟩

/-! ### CORE_HEALTH (R162) -/

theorem State.occupied_healthReport (s : State) (op : Nat) (rq : Request) (x : Session) (c : Nat) :
    (s.occupied op rq x).healthReport c = s.healthReport c := by
  unfold State.healthReport State.corState State.testResult
  simp only [State.occupied_rd, State.core_congr (s.occupied_time op rq x)]

theorem coreHealth_report {s : State} (o : Origin) {p : List Byte} (hc : beAt 0 1 p ≤ 1) :
    coreHealth o p s = s.finish o Status.OK (s.healthReport (beAt 0 1 p)) := if_neg (Nat.not_lt.mpr hc)

/-! ### SWITCH_GAP_END (R163, R165) -/

/-- The former core stands by where the switch-over was commanded. -/
def State.relieved (s : State) (g : Gap) : State :=
  if g.cause = 0 ∧ s.corState g.fromCore = 4 then (s.wr P.COR_STATE g.fromCore 3).peerNotRun g.fromCore else s

/-- The state once the new core is ACTIVE and the switch-over is counted. -/
def State.switched (s : State) (g : Gap) : State :=
  (((s.gapClosed.activated g.toCore).relieved g).count P.COR_SWITCH_COUNT).wr P.COR_LAST_CAUSE 0 g.cause

/-- The state once the bound has grown by the switch-over, and its sticky fault is raised. -/
def State.switchNoted (s : State) (g : Gap) : State :=
  ((s.switched g).switchGrowth g.toCore).refreshBound.steerNow.sticky 0 (g.fromCore * 65536 + g.toCore * 256 + g.cause)

section
variable {s : State} {g : Gap}

theorem State.relieved_only : Only (some [P.COR_SCORE, P.COR_STATE, P.COR_TEST_RESULT]) s (s.relieved g) :=
  .cond _ (((Only.refl _ s).wr rfl _ _).step (State.peerNotRun_only ..) rfl) (.refl _ s)

theorem State.relieved_corState_other {d : Nat} (h : d ≠ g.fromCore) : (s.relieved g).corState d = s.corState d := by
  unfold State.relieved
  split
  · exact ((State.peerNotRun_only ..).rd _ _ (by decide) rfl).trans (State.rd_wr_elem _ _ _ h)
  · rfl

theorem State.relieved_corState : (s.relieved g).corState g.fromCore =
    if g.cause = 0 ∧ s.corState g.fromCore = 4 then 3 else s.corState g.fromCore := by
  unfold State.relieved
  split
  · exact ((State.peerNotRun_only ..).rd _ _ (by decide) rfl).trans (State.rd_wr_self ..)
  · rfl

theorem State.relieved_testResult {d id : Nat} (h : d ≠ g.fromCore) (hid : id < 5) :
    (s.relieved g).testResult d id = s.testResult d id := by
  unfold State.relieved
  split
  · exact (State.peerNotRun_testResult d hid).trans ((if_neg fun e => h e.1).trans (State.rd_wr_base _ (by decide) ..))
  · rfl

/-- The count of switch-overs and the cause of the last one are parameters of their own. -/
theorem State.switched_counted :
    Only (some [P.COR_LAST_CAUSE, P.COR_SWITCH_COUNT]) ((s.gapClosed.activated g.toCore).relieved g) (s.switched g) :=
  ((Only.refl _ _).count_plain rfl rfl _ _).wr rfl _ _

theorem State.switched_cause : (s.switched g).rd P.COR_LAST_CAUSE = g.cause := State.rd_wr_self ..

theorem State.switched_count : (s.switched g).rd P.COR_SWITCH_COUNT = (s.rd P.COR_SWITCH_COUNT + 1) % 2 ^ 48 := by
  unfold State.switched
  rw [State.rd_wr_base _ (by decide), State.count_plain _ _ rfl, State.rd_wr_self, State.relieved_only.rd _ _ (by decide) rfl,
    State.activated_only.rd _ _ (by decide) rfl]
  rfl

theorem State.switched_time : (s.switched g).time = (s.gapClosed.activated g.toCore).time :=
  (State.switched_counted.time rfl).trans (State.relieved_only.time rfl)

theorem State.switchNoted_only : Only (some [F.cmd, F.fault, F.rings, F.servo, P.CMD_NOTICE_DROP, P.HLT_FAULT_COUNT, P.HLT_STICKY,
    P.TBS_BOUND_NOW, P.TBS_BOUND_PS]) (s.switched g) (s.switchNoted g) :=
  ((((State.switchGrowth_only ..).mono rfl).step (State.refreshBound_only _) rfl).step (State.steerNow_only _) rfl).step
    (State.sticky_only ..) rfl

/-- A switch-over is noted, told and answered. -/
theorem State.endSwitch_eq (hgap : s.time.gap = some g) : ∃ told, s.endSwitch =
    ((s.switchNoted g).notice 7 told).answerAll g.waiting Status.OK := by
  unfold State.endSwitch
  rw [hgap]
  exact ⟨_, rfl⟩

/-- What follows a switch-over once it is counted. -/
theorem State.endSwitch_switched (hgap : s.time.gap = some g) : Only (some [F.cmd, F.fault, F.rings, F.servo, P.CMD_NOTICE_DROP,
    P.CMD_REFUSED_COUNT, P.HLT_FAULT_COUNT, P.HLT_STICKY, P.TBS_BOUND_NOW, P.TBS_BOUND_PS, P.TBS_OVER_LIMIT_COUNT])
    (s.switched g) s.endSwitch := by
  obtain ⟨told, heq⟩ := State.endSwitch_eq hgap
  rw [heq]
  exact ((State.switchNoted_only.mono rfl).step (State.notice_only ..) rfl).step (State.answerAll_only ..) rfl

theorem State.endSwitch_time (hgap : s.time.gap = some g) : s.endSwitch.time = (s.gapClosed.activated g.toCore).time :=
  ((State.endSwitch_switched hgap).time rfl).trans State.switched_time

theorem State.endSwitch_sticky (hgap : s.time.gap = some g) : (s.endSwitch.rd P.HLT_STICKY).testBit 0 = true := by
  obtain ⟨told, heq⟩ := State.endSwitch_eq hgap
  rw [heq, (State.answerAll_only ..).rd _ _ (by decide) rfl, (State.notice_only ..).rd _ _ (by decide) rfl]
  exact State.sticky_bit ..

/-- The cores stand as they do once the former core is relieved. -/
theorem State.endSwitch_corState (hgap : s.time.gap = some g) (d : Nat) :
    s.endSwitch.corState d = ((s.gapClosed.activated g.toCore).relieved g).corState d :=
  ((State.endSwitch_switched hgap).rd _ _ (by decide) rfl).trans (State.switched_counted.rd _ _ (by decide) rfl)

theorem State.endSwitch_testResult (hgap : s.time.gap = some g) (hother : g.toCore ≠ g.fromCore) {id : Nat} (h3 : 3 ≤ id)
    (hid : id < 5) : s.endSwitch.testResult g.toCore id = 3 := by
  refine ((State.endSwitch_switched hgap).rd P.COR_TEST_RESULT _ (by decide) rfl).trans ?_
  refine (State.switched_counted.rd P.COR_TEST_RESULT _ (by decide) rfl).trans ?_
  exact (State.relieved_testResult hother hid).trans ((State.activated_testResult g.toCore hid).trans (if_pos ⟨rfl, h3⟩))

theorem State.endSwitch_active (hgap : s.time.gap = some g) : s.endSwitch.rd P.COR_ACTIVE = g.toCore := by
  rw [(State.endSwitch_switched hgap).rd _ _ (by decide) rfl, State.switched_counted.rd _ _ (by decide) rfl,
    State.relieved_only.rd _ _ (by decide) rfl, State.activated_active]

theorem State.endSwitch_answered {o : Origin} (hgap : s.time.gap = some g) (hwait : g.waiting = [o])
    (h : (s.sessionUid o.uid).isSome = true) : s.endSwitch.answered o Status.OK [] := by
  obtain ⟨told, heq⟩ := State.endSwitch_eq hgap
  have hframe : Only (some [F.cmd, F.fault, F.rings, F.servo, F.time, P.CMD_NOTICE_DROP, P.COR_ACTIVE, P.COR_LAST_CAUSE, P.COR_SCORE,
      P.COR_STATE, P.COR_SWITCH_COUNT, P.COR_TEST_RESULT, P.HLT_FAULT_COUNT, P.HLT_STICKY, P.TBS_BOUND_NOW, P.TBS_BOUND_PS]) s
      ((s.switchNoted g).notice 7 told) :=
    (((((s.gapClosed_only.mono rfl).step State.activated_only rfl).step State.relieved_only rfl).step State.switched_counted rfl).step
      State.switchNoted_only rfl).step (State.notice_only ..) rfl
  rw [heq, hwait]
  exact State.answerAll_answered hframe rfl h _

theorem State.endSwitch_idle (hgap : s.time.gap = none) : s.endSwitch = s := by
  unfold State.endSwitch
  rw [hgap]

end

/-! ### CORE_RECOVER, CROSSLOCK_SETTLE and CORE_RETURN (R157, R161, R167, R168) -/

section
variable {s : State} {core : Fin 2}

theorem State.recovered_iff (c : Nat) : s.recovered c = true ↔
    ∃ t0, (s.core c).okSince = some t0 ∧ t0 + s.rd P.COR_RECOVER_TIME * 1000000000 ≤ s.clock := by
  unfold State.recovered
  cases (s.core c).okSince <;> simp

theorem exec_coreRecover_leaves (h5 : s.corState core.val = 5) (hrec : s.recovered core.val = true) (hts : s.rd P.REF_TSTATE ≠ 7) :
    exec (.coreRecover core) s = .next (s.wr P.COR_STATE core.val (if s.ovenWarm core.val then 2 else 1)) :=
  (if_pos ⟨h5, hrec⟩).trans (if_neg hts)

theorem exec_coreRecover_returns (h5 : s.corState core.val = 5) (hrec : s.recovered core.val = true) (hts : s.rd P.REF_TSTATE = 7) :
    exec (.coreRecover core) s = .next (s.coreReturn core.val) := (if_pos ⟨h5, hrec⟩).trans (if_pos hts)

theorem exec_coreRecover_waits (h : ¬ (s.corState core.val = 5 ∧ s.recovered core.val = true)) :
    exec (.coreRecover core) s = .next s := if_neg h

/-- A core whose cross-lock has settled stands by with the count of the output stage (R157). -/
def State.standsBy (s : State) (c : Nat) : State := (s.wr P.COR_STATE c 3).setCore c fun x => { x with count := s.time.out }

theorem State.standsBy_only (c : Nat) : Only (some [P.COR_STATE, F.time]) s (s.standsBy c) :=
  ((Only.refl _ s).wr rfl _ _).step (State.setCore_only ..) rfl

theorem exec_crosslockSettle_settles {t0 : Nat} (hsince : (s.core core.val).xlockSince = some t0) (h2 : s.corState core.val = 2)
    (htime : t0 + s.rd P.COR_XLOCK_SETTLE * 1000000000 ≤ s.clock) :
    exec (.crosslockSettle core) s = .next (s.standsBy core.val).returnStandby := by
  show execCrosslockSettle core s = _
  unfold execCrosslockSettle
  simp only [hsince]
  exact if_pos ⟨h2, htime⟩

theorem exec_crosslockSettle_waits (h : ∀ t0, (s.core core.val).xlockSince = some t0 →
    ¬ (s.corState core.val = 2 ∧ t0 + s.rd P.COR_XLOCK_SETTLE * 1000000000 ≤ s.clock)) : exec (.crosslockSettle core) s = .next s := by
  show execCrosslockSettle core s = _
  unfold execCrosslockSettle
  dsimp only
  split
  · next t0 hsince => exact if_neg (h t0 hsince)
  · rfl

/-- Whether core `c` qualifies to become ACTIVE in TSTATE FAULT (R168). -/
def State.mayReturn (s : State) (c : Nat) : Bool :=
  match s.corState c with
  | 5 => s.recovered c
  | 1 => s.ovenWarm c
  | 3 => s.mayTakeOver c
  | _ => false

theorem State.mayReturn_iff (c : Nat) : s.mayReturn c = true ↔ (s.corState c = 5 ∧ s.recovered c = true) ∨
    (s.corState c = 1 ∧ s.testResult c 0 ≤ 1) ∨ (s.corState c = 3 ∧ s.rd P.COR_MIN_SCORE ≤ s.rd P.COR_SCORE c) := by
  unfold State.mayReturn
  split
  · next h => simp [h]
  · next h => simp [h, State.ovenWarm]
  · next h => simp [h, State.mayTakeOver]
  · next h5 h1 h3 =>
    exact iff_of_false Bool.false_ne_true fun e => e.elim (fun e => h5 e.1) fun e => e.elim (fun e => h1 e.1) fun e => h3 e.1

theorem exec_coreReturn_eq : exec (.coreReturn core) s =
    if s.rd P.REF_TSTATE = 7 ∧ s.mayReturn core.val then .next (s.coreReturn core.val) else .next s := rfl

end

/-! ### The obligation -/

/-- Settles O41: CORE_SWITCH by what the cores stand at, the end of the gap by its parts, and each return by its guard. -/
theorem coresSwitchAndReturn : Obligations.CoresSwitchAndReturn := by
  unfold Obligations.CoresSwitchAndReturn
  refine ⟨?_, ?_, ?_, ?_, ?_, ?_, ?_, ?_, ?_, ?_, ?_, ?_, ?_, ?_, ?_⟩
  · rintro rq s x c h rfl hc hgap h3 hscore hts
    have hbody := coreSwitch_taken x hc hgap
    rw [if_neg (h3.trans_ne (by decide)), if_pos ⟨hts, State.mayTakeOver_iff.mpr ⟨h3, hscore⟩⟩] at hbody
    refine ⟨_, exec_coreSwitch h, ?_, coreSwitch_occupied_only s rq x⟩
    rw [hbody, State.beginSwitch, (s.occupied_only ..).keeps.clock]
  · rintro rq s x c st h rfl hgap hcases
    refine State.coreSwitch_answers h ?_
    rcases hcases with ⟨hc, rfl⟩ | hcases
    · exact coreSwitch_badValue _ hc
    have hc : beAt 0 1 rq.payload ≤ 1 := hcases.elim (fun e => e.1) fun e => e.1
    rw [coreSwitch_taken x hc hgap]
    rcases hcases with ⟨-, h4, rfl⟩ | ⟨-, h4, hno, rfl⟩
    · exact if_pos h4
    · exact (if_neg h4).trans (if_neg fun e => hno.elim (fun hmay => absurd e.2 (by simp [hmay])) e.1)
  · rintro rq s x c g h rfl hc hgap
    have hbody := coreSwitch_inGap (originOf x Op.CORE_SWITCH rq) hc
      ((congrArg Timing.gap (s.occupied_time Op.CORE_SWITCH rq x)).trans hgap)
    refine ⟨_, exec_coreSwitch h, fun hto => ?_, fun hto => ?_, coreSwitch_occupied_only s rq x⟩
    · rw [hbody, if_pos hto]
    · rw [hbody, if_neg hto]
      exact ⟨((State.finish_only ..).time rfl).trans (s.occupied_time ..), State.taken_replied h (.refl _) ..⟩
  · intro g s hgap hto hfrom
    have hother : g.fromCore ≠ g.toCore := by omega
    have htime := State.endSwitch_time hgap
    have hframe := State.endSwitch_switched hgap
    refine ⟨_, rfl, ?_, ?_, ?_, State.endSwitch_active hgap, ?_, s.endSwitch_only.timeOut rfl, ?_,
      State.endSwitch_testResult hgap hother.symm (by decide) (by decide),
      State.endSwitch_testResult hgap hother.symm (by decide) (by decide),
      (hframe.rd _ _ (by decide) rfl).trans State.switched_cause, (hframe.rd _ _ (by decide) rfl).trans State.switched_count,
      State.endSwitch_sticky hgap, s.endSwitch_only⟩
    · rw [htime, State.activated_time, State.setCore_gap]; rfl
    · rw [State.endSwitch_corState hgap, State.relieved_corState_other hother.symm, State.activated_corState, if_pos rfl]
    · rw [State.endSwitch_corState hgap, State.relieved_corState, State.activated_corState, if_neg hother]; rfl
    · rw [State.core_congr htime, State.activated_core]; rfl
    · rw [htime, State.activated_time, State.setCore_gapEnd]; rfl
  · exact fun g s o hgap hwait hopen => ⟨_, rfl, State.endSwitch_answered hgap hwait hopen⟩
  · intro s hgap
    exact congrArg (fun t : State => Host.Outcome.next t.settle) (State.endSwitch_idle hgap)
  · rintro rq s x c h rfl hc
    have hexec := exec_coreHealth h
    rw [coreHealth_report _ hc, State.occupied_healthReport] at hexec
    exact ⟨_, hexec, State.taken_replied h (.refl _) .., ((s.occupied_only ..).mono rfl).step (State.finish_only ..) rfl⟩
  · intro core s t0 h5 hts hsince htime
    refine ⟨_, exec_coreRecover_leaves h5 ((State.recovered_iff _).mpr ⟨t0, hsince, htime⟩) hts, ?_, (Only.refl _ s).wr rfl _ _⟩
    unfold State.corState State.ovenWarm
    rw [State.rd_wr_self]
    simp only [decide_eq_true_eq]
  · exact fun rq s x h hc => State.coreSwitch_answers h (coreSwitch_badValue _ hc)
  · intro core s t0 h5 hts hsince htime
    exact ⟨_, exec_coreRecover_returns h5 ((State.recovered_iff _).mpr ⟨t0, hsince, htime⟩) hts, s.coreReturn_corState _,
      s.coreReturn_active _, s.coreReturn_tstate _, (s.coreReturn_only _).mono rfl⟩
  · intro core s hno
    refine exec_coreRecover_waits fun ⟨h5, hrec⟩ => ?_
    obtain ⟨t0, hsince, htime⟩ := (State.recovered_iff _).mp hrec
    rcases hno with h | h | ⟨t1, h, hearly⟩
    · exact h h5
    · exact absurd (hsince.symm.trans h) (by simp)
    · cases hsince.symm.trans h
      omega
  · intro core s t0 hsince h2 htime hts
    have hexec := exec_crosslockSettle_settles hsince h2 htime
    rw [State.returnStandby_running (((State.standsBy_only _).rd _ _ (by decide) rfl).trans_ne hts)] at hexec
    refine ⟨_, hexec, (State.setCore_corState ..).trans (State.rd_wr_self ..), ?_, State.standsBy_only _⟩
    rw [State.standsBy, State.core_setCore]
  · intro core s hno
    refine exec_crosslockSettle_waits fun t0 hsince ⟨h2, htime⟩ => ?_
    rcases hno with h | h | ⟨t1, h, hearly⟩
    · exact h h2
    · exact absurd (hsince.symm.trans h) (by simp)
    · cases hsince.symm.trans h
      omega
  · intro core s hts hready
    have hmay : s.mayReturn core.val = true := by rwa [State.mayReturn_iff, State.recovered_iff]
    refine ⟨_, exec_coreReturn_eq.trans (if_pos ⟨hts, hmay⟩), s.coreReturn_corState _, s.coreReturn_active _, ?_,
      s.coreReturn_tstate _, (s.coreReturn_only _).mono rfl⟩
    rw [State.coreReturn_core]
  · intro core s hno
    refine exec_coreReturn_eq.trans (if_neg fun ⟨hts, hmay⟩ => ?_)
    simp only [List.mem_cons, List.not_mem_nil, or_false] at hno
    rcases (State.mayReturn_iff _).mp hmay with ⟨h5, hrec⟩ | ⟨h1, hwarm⟩ | ⟨h3, hscore⟩
    · simp only [hrec, Bool.true_eq_false, and_false, false_or] at hno
      omega
    · omega
    · omega

end Sys2Proof.Machine
end

section
/-! ## GNSS receiver: the antenna bias, the acquisition, the channels and the navigation words (R173, R175, R176, R188, R189) -/

namespace Sys2Proof.Machine

section
variable {s : State}

/-! ### ANT_BIAS_MEASURE (R173) -/

section
variable {ma : BitVec 16}

/-- The state in which a SHORT has removed the antenna bias, before its fault is raised. -/
def State.antShorted (s : State) : State :=
  ((s.wr P.GNS_ANT_STATUS 0 3).orIn P.GNS_FLAGS 0 2).setGnss fun g => { g with biasOff := true }

theorem exec_antBiasMeasure_off (h : s.gnssOn = false) : exec (.antBiasMeasure ma) s = .next s := if_pos (by simp [h])

theorem exec_antBiasMeasure_short (hon : s.gnssOn = true) (hma : 100 < ma.toNat) :
    exec (.antBiasMeasure ma) s = .next (s.antShorted.sticky 3 ma.toNat) := (if_neg (by simp [hon])).trans (if_pos hma)

theorem State.biasOn_iff : s.biasOn = true ↔ ¬ (s.rd P.GNS_ANT_BIAS = 0 ∨ s.gnss.biasOff = true) := by
  simp [State.biasOn]

theorem exec_antBiasMeasure_carried (hon : s.gnssOn = true) (hma : ma.toNat ≤ 100) : exec (.antBiasMeasure ma) s =
    .next (s.wr P.GNS_ANT_STATUS 0
      (if s.rd P.GNS_ANT_BIAS = 0 ∨ s.gnss.biasOff = true then 0 else if ma.toNat < 2 then 2 else 1)) := by
  refine (if_neg (by simp [hon])).trans ((if_neg (Nat.not_lt.mpr hma)).trans ?_)
  simp only [State.biasOn_iff, ite_not]

theorem State.antShorted_status (n d : Nat) : (s.antShorted.sticky n d).rd P.GNS_ANT_STATUS = 3 := by
  rw [(State.sticky_only ..).rd _ _ (by decide) rfl, State.antShorted, State.setGnss_rd, State.orIn, State.rd_wr_base _ (by decide),
    State.rd_wr_self]

theorem State.antShorted_flag (n d : Nat) : ((s.antShorted.sticky n d).rd P.GNS_FLAGS).testBit 1 = true := by
  rw [(State.sticky_only ..).rd _ _ (by decide) rfl, State.antShorted, State.setGnss_rd, State.orIn, State.rd_wr_self, Nat.testBit_or,
    show (2 : Nat).testBit 1 = true from rfl, Bool.or_true]

theorem State.antShorted_gnss (n d : Nat) : (s.antShorted.sticky n d).gnss = { s.gnss with biasOff := true } :=
  (State.sticky_only ..).gnss rfl

end

/-! ### The count of the satellites tracked -/

theorem State.gnssCount_tracked (h : s.gnssDuty = false) : s.gnssCount.rd P.GNS_SATS_TRACKED = s.gnss.channels.length := by
  rw [State.gnssCount, State.rd_wr_self, h]
  rfl

theorem State.gnssCount_duty (h : s.gnssDuty = true) : s.gnssCount.rd P.GNS_SATS_TRACKED = 0 := by
  rw [State.gnssCount, State.rd_wr_self, h]
  rfl

/-! ### ACQ_CELL_FOUND (R175, R176) -/

/-- The lowest of the channels in use that is below a new one; the new one itself where none is (R176). -/
def State.lowestBelow (s : State) (c : GnssChannel) : GnssChannel :=
  s.gnss.channels.foldl (fun (a : GnssChannel) x => if x.elev < a.elev then x else a) c

/-- Whether the signal of a satellite has a channel. -/
def State.follows (s : State) (signal sat : Nat) : Bool := s.gnss.channels.any fun x => x.signal == signal && x.sat == sat

/-- The state in which the acquisition bank has gone on from a target. -/
def State.searchedOn (s : State) (target : Nat × Nat) : State := s.setGnss fun g => { g with search := s.nextSearch target }

/-- The state in which the satellite of a cell that was found has received its channel, where it receives one. -/
def State.acquired (s : State) (c : GnssChannel) : State :=
  let t := s.searchedOn (c.signal, c.sat)
  if s.follows c.signal c.sat ∨ c.elev ≤ s.rd P.GNS_ELEV_MASK then t
  else if s.gnss.channels.length < 64 then (t.setGnss fun g => { g with channels := g.channels ++ [c] }).gnssCount
  else (if s.lowestBelow c = c then t
    else t.setGnss fun g => { g with channels := g.channels.erase (s.lowestBelow c) ++ [c] }).gnssCount

theorem State.follows_iff (signal sat : Nat) :
    s.follows signal sat = true ↔ ∃ y ∈ s.gnss.channels, y.signal = signal ∧ y.sat = sat := by
  simp [State.follows]

theorem State.follows_eq_false {signal sat : Nat} (h : ∀ y ∈ s.gnss.channels, y.signal ≠ signal ∨ y.sat ≠ sat) :
    s.follows signal sat = false := by
  rw [Bool.eq_false_iff]
  intro hfollows
  obtain ⟨y, hy, hsignal, hsat⟩ := (State.follows_iff signal sat).mp hfollows
  exact (h y hy).elim (· hsignal) (· hsat)

section
variable {c : GnssChannel}

theorem State.acquired_search : (s.acquired c).gnss.search = s.nextSearch (c.signal, c.sat) := by
  unfold State.acquired
  dsimp only
  split
  · rfl
  · split
    · rfl
    · split <;> rfl

theorem State.acquired_receives (hmask : s.rd P.GNS_ELEV_MASK < c.elev) (hnew : s.follows c.signal c.sat = false)
    (hroom : s.gnss.channels.length < 64) : (s.acquired c).gnss.channels = s.gnss.channels ++ [c] ∧
      (s.gnssDuty = false → (s.acquired c).rd P.GNS_SATS_TRACKED = s.gnss.channels.length + 1) := by
  have hreceived : s.acquired c = ((s.searchedOn (c.signal, c.sat)).setGnss fun g =>
      { g with channels := g.channels ++ [c] }).gnssCount :=
    (if_neg (by simp [hnew, hmask])).trans (if_pos hroom)
  rw [hreceived]
  refine ⟨rfl, fun hduty => ?_⟩
  rw [State.gnssCount_tracked (by exact hduty)]
  exact List.length_append

theorem State.lowestBelow_self (h : ∀ y ∈ s.gnss.channels, c.elev ≤ y.elev) : s.lowestBelow c = c := by
  unfold State.lowestBelow
  revert h
  induction s.gnss.channels with
  | nil => exact fun _ => rfl
  | cons y ys ih =>
    intro h
    rw [List.foldl_cons, if_neg (Nat.not_lt.mpr (h y List.mem_cons_self))]
    exact ih fun z hz => h z (List.mem_cons_of_mem _ hz)

/-- With 64 channels in use, all of them at least as high, a new satellite receives none. -/
theorem State.acquired_full (hmask : s.rd P.GNS_ELEV_MASK < c.elev) (hnew : s.follows c.signal c.sat = false)
    (hfull : 64 ≤ s.gnss.channels.length) (hlow : ∀ y ∈ s.gnss.channels, c.elev ≤ y.elev) :
    (s.acquired c).gnss.channels = s.gnss.channels := by
  have hkept : s.acquired c = (s.searchedOn (c.signal, c.sat)).gnssCount :=
    (if_neg (by simp [hnew, hmask])).trans ((if_neg (Nat.not_lt.mpr hfull)).trans
      (congrArg State.gnssCount (if_pos (State.lowestBelow_self hlow))))
  rw [hkept]
  rfl

theorem State.acquired_refused (h : c.elev ≤ s.rd P.GNS_ELEV_MASK ∨ s.follows c.signal c.sat = true) :
    (s.acquired c).gnss.channels = s.gnss.channels := by
  have hkept : s.acquired c = s.searchedOn (c.signal, c.sat) := if_pos h.symm
  rw [hkept]
  rfl

end

section
variable {signal : Fin 5} {sat : BitVec 8} {elev : Fin 91} {bin : Int} {chip first second : Nat}

theorem exec_acqCellFound_found (hon : s.gnssOn = true) (hduty : s.gnssDuty = false) (hfirst : s.rd P.GNS_ACQ_THRESH < first)
    (hsecond : s.rd P.GNS_ACQ_THRESH < second) (hbin : 500 * bin.natAbs ≤ s.rd P.GNS_ACQ_DOPPLER)
    (hsignal : (s.rd P.GNS_SIGNALS).testBit signal.val = true) : exec (.acqCellFound signal sat elev ⟨bin, chip⟩ first second) s =
      .next (s.acquired ⟨signal.val, sat.toNat, elev.val, bin, chip, false⟩) := by
  refine (if_neg (by simp [hon, hduty, hfirst, hsecond, hbin, bit, hsignal])).trans ?_
  unfold State.acquired
  dsimp only
  rw [apply_ite Host.Outcome.next, apply_ite Host.Outcome.next]
  rfl

theorem exec_acqCellFound_missed (h : s.gnssOn = false ∨ s.gnssDuty = true ∨ first ≤ s.rd P.GNS_ACQ_THRESH ∨
    second ≤ s.rd P.GNS_ACQ_THRESH ∨ s.rd P.GNS_ACQ_DOPPLER < 500 * bin.natAbs ∨ (s.rd P.GNS_SIGNALS).testBit signal.val = false) :
    exec (.acqCellFound signal sat elev ⟨bin, chip⟩ first second) s = .next s := by
  refine if_pos ?_
  simp only [bit, Bool.not_eq_true, Bool.and_eq_false_iff, decide_eq_false_iff_not, not_and_or, Nat.not_lt, Nat.not_le]
  rcases h with h | h | h | h | h | h <;> simp [h]

end

/-! ### CHANNEL_RELEASE (R176) -/

section
variable {signal : Fin 5} {sat : BitVec 8} {cn0 : BitVec 6}

/-- The state in which a channel is free again. -/
def State.channelFreed (s : State) (signal sat : Nat) : State :=
  (s.setGnss fun g => { g with channels := g.channels.filter fun x => !(x.signal == signal && x.sat == sat) }).gnssCount

theorem exec_channelRelease_weak (hon : s.gnssOn = true) (hduty : s.gnssDuty = false) (hweak : cn0.toNat < s.rd P.GNS_CN0_MIN) :
    exec (.channelRelease signal sat cn0) s = .next (s.channelFreed signal.val sat.toNat) := if_neg (by simp [hon, hduty, hweak])

theorem exec_channelRelease_kept (h : s.gnssOn = false ∨ s.gnssDuty = true ∨ s.rd P.GNS_CN0_MIN ≤ cn0.toNat) :
    exec (.channelRelease signal sat cn0) s = .next s := if_pos (h.imp_left Bool.eq_false_iff.mp)

theorem State.mem_channelFreed (signal sat : Nat) (y : GnssChannel) : y ∈ (s.channelFreed signal sat).gnss.channels ↔
    y ∈ s.gnss.channels ∧ ¬ (y.signal = signal ∧ y.sat = sat) := by
  have hfreed : (s.channelFreed signal sat).gnss.channels =
    s.gnss.channels.filter fun x => !(x.signal == signal && x.sat == sat) := rfl
  rw [hfreed, List.mem_filter, Bool.not_eq_true', Bool.and_eq_false_iff, beq_eq_false_iff_ne, beq_eq_false_iff_ne, not_and_or]

end

/-! ### NAV_WORD (R188, R189) -/

section
variable {message : Fin 5} {sat : BitVec 8} {ok l5 : Bool} {bits : BitVec 8} {time : BitVec 64} {data : List Byte}

theorem State.gnssRecord_sent (h : s.rd P.GNS_RING < 16) (type : Nat) (r : List Byte) :
    s.gnssRecord type r = (s.evtRing (s.rd P.GNS_RING) type r).1 := if_pos h

theorem State.gnssRecord_unsent (h : 16 ≤ s.rd P.GNS_RING) (type : Nat) (r : List Byte) : s.gnssRecord type r = s :=
  if_neg (Nat.not_lt.mpr h)

theorem exec_navWord_decoded (hon : s.gnssOn = true) (hduty : s.gnssDuty = false) :
    exec (.navWord message sat ok l5 bits time data) s = .next (s.gnssRecord 2 (toBe 1 message.val ++ toBe 1 sat.toNat ++
      toBe 1 (b2n ok + 2 * b2n l5) ++ toBe 1 bits.toNat ++ toBe 8 time.toNat ++ zeros 4 ++ data.take 80)) :=
  if_neg (by simp [hon, hduty])

theorem exec_navWord_unsent (h : s.gnssOn = false ∨ s.gnssDuty = true ∨ 16 ≤ s.rd P.GNS_RING) :
    exec (.navWord message sat ok l5 bits time data) s = .next s := by
  by_cases hidle : ¬ s.gnssOn = true ∨ s.gnssDuty = true
  · exact if_pos hidle
  · have hring : 16 ≤ s.rd P.GNS_RING := by
      rcases h with h | h | h
      · exact absurd (Or.inl (Bool.eq_false_iff.mp h)) hidle
      · exact absurd (Or.inr h) hidle
      · exact h
    exact (if_neg hidle).trans (congrArg _ (State.gnssRecord_unsent hring ..))

end

end

end Sys2Proof.Machine
end

section
/-! ## GNSS receiver: the second of a survey (R179, R181, R182) -/

namespace Sys2Proof.Machine

section
variable {s : State}

/-! ### A position counted (R179) -/

section
variable (p : Int × Int × Int)

/-- The state in which a position has joined the running mean of the survey. -/
def State.positionCounted (s : State) (p : Int × Int × Int) : State :=
  (s.setGnss fun g => g.addPosition p).wr P.GNS_SURVEY_DONE 0 (s.rd P.GNS_SURVEY_DONE + 1)

theorem State.surveyAdd_goesOn (h : s.rd P.GNS_SURVEY_DONE + 1 < s.rd P.GNS_SURVEY_TIME) : s.surveyAdd p = s.positionCounted p :=
  if_pos h

/-- The last second of a survey writes the mean of its positions and ends it. -/
theorem State.surveyAdd_ends (h : s.rd P.GNS_SURVEY_TIME ≤ s.rd P.GNS_SURVEY_DONE + 1) :
    ∃ sigma, s.surveyAdd p = (((((s.positionCounted p).wrS 64 P.GNS_SURV_X 0
        (roundDiv (s.gnss.sumX + p.1) (s.rd P.GNS_SURVEY_DONE + 1))).wrS 64 P.GNS_SURV_Y 0
        (roundDiv (s.gnss.sumY + p.2.1) (s.rd P.GNS_SURVEY_DONE + 1))).wrS 64 P.GNS_SURV_Z 0
        (roundDiv (s.gnss.sumZ + p.2.2) (s.rd P.GNS_SURVEY_DONE + 1))).wr P.GNS_SURV_SIGMA 0 sigma).wr P.GNS_SURVEY_STATE 0 2 :=
  ⟨_, if_neg (Nat.not_lt.mpr h)⟩

theorem State.surveyAdd_gnss : (s.surveyAdd p).gnss = s.gnss.addPosition p := by
  rcases Nat.lt_or_ge (s.rd P.GNS_SURVEY_DONE + 1) (s.rd P.GNS_SURVEY_TIME) with h | h
  · rw [State.surveyAdd_goesOn p h]
    rfl
  · obtain ⟨sigma, hend⟩ := State.surveyAdd_ends p h
    rw [hend]
    rfl

theorem State.surveyAdd_done : (s.surveyAdd p).rd P.GNS_SURVEY_DONE = s.rd P.GNS_SURVEY_DONE + 1 := by
  rcases Nat.lt_or_ge (s.rd P.GNS_SURVEY_DONE + 1) (s.rd P.GNS_SURVEY_TIME) with h | h
  · rw [State.surveyAdd_goesOn p h, State.positionCounted, State.rd_wr_self]
  · obtain ⟨sigma, hend⟩ := State.surveyAdd_ends p h
    simp [hend, State.wrS, State.rd_wr, State.positionCounted]

theorem State.surveyAdd_state_goesOn (h : s.rd P.GNS_SURVEY_DONE + 1 < s.rd P.GNS_SURVEY_TIME) :
    (s.surveyAdd p).rd P.GNS_SURVEY_STATE = s.rd P.GNS_SURVEY_STATE := by
  rw [State.surveyAdd_goesOn p h, State.positionCounted, State.rd_wr_base _ (by decide), State.setGnss_rd]

theorem State.surveyAdd_mean (h : s.rd P.GNS_SURVEY_TIME ≤ s.rd P.GNS_SURVEY_DONE + 1) :
    (s.surveyAdd p).rd P.GNS_SURVEY_STATE = 2 ∧
      (s.surveyAdd p).rdS 64 P.GNS_SURV_X = clampS 64 (roundDiv (s.gnss.sumX + p.1) (s.rd P.GNS_SURVEY_DONE + 1)) ∧
      (s.surveyAdd p).rdS 64 P.GNS_SURV_Y = clampS 64 (roundDiv (s.gnss.sumY + p.2.1) (s.rd P.GNS_SURVEY_DONE + 1)) ∧
      (s.surveyAdd p).rdS 64 P.GNS_SURV_Z = clampS 64 (roundDiv (s.gnss.sumZ + p.2.2) (s.rd P.GNS_SURVEY_DONE + 1)) := by
  obtain ⟨sigma, hend⟩ := State.surveyAdd_ends p h
  rw [hend]
  simp only [State.rdS, State.wrS, State.rd_wr]
  exact ⟨rfl, sgn_raw_clampS (by decide) _, sgn_raw_clampS (by decide) _, sgn_raw_clampS (by decide) _⟩

end

/-! ### A pause (R182) -/

/-- A survey is PAUSED, with its count and its running mean kept. -/
structure State.SurveyPaused (s t : State) : Prop where
  state : t.rd P.GNS_SURVEY_STATE = 1
  done : t.rd P.GNS_SURVEY_DONE = s.rd P.GNS_SURVEY_DONE
  sumX : t.gnss.sumX = s.gnss.sumX
  sumY : t.gnss.sumY = s.gnss.sumY
  sumZ : t.gnss.sumZ = s.gnss.sumZ

/-- The state in which a running survey is paused. -/
def State.surveyHeld (s : State) (missed : Nat) : State :=
  (s.wr P.GNS_SURVEY_STATE 0 1).setGnss fun g => { g with missed := missed, back := [] }

theorem State.surveyHeld_paused (s : State) (missed : Nat) : s.SurveyPaused (s.surveyHeld missed) :=
  ⟨by rw [State.surveyHeld, State.setGnss_rd, State.rd_wr_self],
    by rw [State.surveyHeld, State.setGnss_rd, State.rd_wr_base _ (by decide)], rfl, rfl, rfl⟩

theorem State.surveyGap_zero : s.surveyGap 0 = s := if_pos rfl

theorem State.surveyGap_running {k : Nat} (hk : 0 < k) (h : s.rd P.GNS_SURVEY_STATE = 0) : s.surveyGap k = s.surveyHeld k :=
  (if_neg hk.ne').trans (if_pos h)

theorem State.surveySecond_counts (h : s.rd P.GNS_SURVEY_STATE = 0) (p : Int × Int × Int) :
    s.surveySecond (some p) = s.surveyAdd p := by
  unfold State.surveySecond
  simp only [h]

theorem State.surveySecond_misses (h : s.rd P.GNS_SURVEY_STATE = 0) : s.surveySecond none = s.surveyHeld 1 := by
  unfold State.surveySecond
  simp only [h]
  rfl

/-- The first second after a pause began ends it in no case: ten positions are needed for that. -/
theorem State.surveyHeld_second (s : State) (missed : Nat) (position : Option (Int × Int × Int)) :
    s.SurveyPaused ((s.surveyHeld missed).surveySecond position) := by
  obtain ⟨hstate, hdone, hx, hy, hz⟩ := s.surveyHeld_paused missed
  have hkept : ∀ f : Gnss → Gnss, (∀ g, (f g).sumX = g.sumX ∧ (f g).sumY = g.sumY ∧ (f g).sumZ = g.sumZ) →
      s.SurveyPaused ((s.surveyHeld missed).setGnss f) := fun f hf =>
    ⟨hstate, hdone, (hf _).1.trans hx, (hf _).2.1.trans hy, (hf _).2.2.trans hz⟩
  unfold State.surveySecond
  cases position with
  | none =>
    simp only [hstate]
    exact hkept _ fun _ => ⟨rfl, rfl, rfl⟩
  | some p =>
    simp only [hstate]
    rw [if_pos (by simp [State.surveyHeld])]
    exact hkept _ fun _ => ⟨rfl, rfl, rfl⟩

/-- A running survey is paused by a gap of pulses, and by a second without a solution. -/
theorem State.surveySecond_pauses (h : s.rd P.GNS_SURVEY_STATE = 0) {k : Nat} {position : Option (Int × Int × Int)}
    (hno : 0 < k ∨ position = none) : s.SurveyPaused ((s.surveyGap k).surveySecond position) := by
  rcases Nat.eq_zero_or_pos k with rfl | hk
  · obtain rfl := hno.resolve_left (Nat.lt_irrefl 0)
    rw [State.surveyGap_zero, State.surveySecond_misses h]
    exact s.surveyHeld_paused 1
  · rw [State.surveyGap_running hk h]
    exact s.surveyHeld_second k position

end

end Sys2Proof.Machine
end

section
/-! ## GNSS receiver: the pulse of each second (R178, R184 to R188) -/

namespace Sys2Proof.Machine

/-! ### Big-endian fields at the front of a string -/

theorem be_append (xs ys : List Byte) : be (xs ++ ys) = be xs * 256 ^ ys.length + be ys := by
  induction ys using List.reverseRecOn with
  | nil => simp [be]
  | append_singleton ys y ih =>
    have hsnoc : ∀ zs : List Byte, be (zs ++ [y]) = be zs * 256 + y.toNat := fun zs => by simp [be]
    rw [← List.append_assoc, hsnoc, ih, hsnoc, List.length_append, List.length_singleton, pow_succ]
    ring

theorem be_toBe (n v : Nat) : be (toBe n v) = v % 256 ^ n := by
  induction n generalizing v with
  | zero => simp [toBe, toLe, be, Nat.mod_one]
  | succ n ih =>
    have hlow : be [BitVec.ofNat 8 v] = v % 256 := by simp [be]
    have hsplit : toBe (n + 1) v = toBe n (v / 256) ++ [BitVec.ofNat 8 v] := by simp [toBe, toLe]
    rw [hsplit, be_append, ih, hlow, List.length_singleton, pow_one, pow_succ', Nat.mod_mul, Nat.add_comm, Nat.mul_comm]

theorem beAt_zero_append {xs : List Byte} {n : Nat} (h : xs.length = n) (ys : List Byte) : beAt 0 n (xs ++ ys) = be xs := by
  unfold beAt slice
  rw [List.drop_zero, ← h, List.take_left]

/-! ### The record of a second (R184, R188) -/

/-- Bytes 0 to 7 of a GNS_PULSE record: the TAI second and the flags. -/
theorem beAt_pulse (sec flags : Nat) (rest : List Byte) (h : flags < 65536) :
    beAt 0 8 (toBe 6 sec ++ toBe 2 flags ++ rest) = 2 ^ 16 * (sec % 2 ^ 48) + flags := by
  rw [beAt_zero_append (by rw [List.length_append, toBe_length, toBe_length]), be_append, be_toBe, be_toBe, toBe_length,
    Nat.mod_eq_of_lt (show flags < 256 ^ 2 from h)]
  omega

/-- The flags of a GNS_PULSE record (R186). -/
def pulseFlags (valid surveying fixed excluded short spoof utc : Bool) : Nat :=
  b2n valid + 2 * b2n surveying + 4 * b2n fixed + 8 * b2n excluded + 16 * b2n short + 32 * b2n spoof + 64 * b2n utc

theorem pulseFlags_lt : ∀ v u m x h p c : Bool, pulseFlags v u m x h p c < 65536 := by decide

theorem pulseFlags_valid : ∀ v u m x h p c : Bool, (pulseFlags v u m x h p c).testBit 0 = v := by decide

theorem pulseFlags_excluded : ∀ v u m x h p c : Bool, (pulseFlags v u m x h p c).testBit 3 = x := by decide

section
variable {s : State}

theorem State.lastPulse_first (r : List Byte) : (s.lastPulse r).rd P.GNS_LAST_PULSE 0 = beAt 0 8 r := by
  simp [State.lastPulse, List.range_succ, State.rd_wr]

/-! ### What a second comes to -/

section
variable (s : State) (x : GnssFix)

/-- Whether the receiver surveys its position (R178). -/
def State.surveying : Bool := s.gnss.mode == 0 && s.rd P.GNS_SURVEY_STATE != 2

/-- The solution of a second, whether it stands, and whether a satellite was excluded (R178). -/
def State.pulseFix : GnssSolution × Bool × Bool := if s.surveying then (x.first, true, false) else residualCheck x.first false x.more

/-- Whether the satellites of a second's solution suffice. -/
def State.pulseEnough : Bool := (s.pulseFix x).2.1 && s.fixEnough (s.pulseFix x).1 s.surveying

/-- Whether the pulse of a second is valid (R187). -/
def State.pulseValid : Bool :=
  s.pulseEnough x && decide ((s.pulseFix x).1.sigma.toNat ≤ s.rd P.GNS_SIGMA_MAX) && !(s.rd P.GNS_ANT_STATUS == 3) &&
    (!bit 0 (s.rd P.GNS_FLAGS) || s.rd P.GNS_SPOOF_ACTION == 0)

/-- The flags of a second's record. -/
def State.pulseWord : Nat :=
  pulseFlags (s.pulseValid x) s.surveying (s.gnss.mode == 1) (s.pulseFix x).2.2 (s.rd P.GNS_ANT_STATUS == 3) (bit 0 (s.rd P.GNS_FLAGS))
    x.utc.isSome

/-- The state in which the code loops and the survey have taken a second. -/
def State.pulseSurveyed : State :=
  (if s.surveying then ((s.codeLoops x.cn0).surveyGap s.pulseGap).surveySecond (if s.pulseEnough x then (s.pulseFix x).1.position else none)
    else s.codeLoops x.cn0).setGnss fun g => { g with pulseAt := some s.clock }

/-- The state in which the record of a second has been written and sent. -/
def State.pulseShown (r : List Byte) : State := ((s.pulseSurveyed x).lastPulse r).gnssRecord 1 r

/-- The state in which a valid pulse is noted: its UTC offset, its B_ref and the activity of reference 0 (R67, R130, R187). -/
def State.pulseNoted (r : List Byte) : State :=
  (((s.pulseShown x r).gnssUtc x).wr P.REF_BREF 0
    (clampU 32 (ceilDiv (s.rd P.TBS_GNSS_K * (s.pulseFix x).1.sigma.toNat) 16 + s.rd P.GNS_ANT_U))).setMon 0 fun m => { m with pps := true }

/-- The state after a second with its record, whose phase is the reading of reference 0 where the pulse is valid (R185). -/
def State.secondTaken (freq osc phi : Int) (r : List Byte) : State :=
  if s.pulseValid x then (s.pulseNoted x r).monitorReading 0 freq phi osc else s.pulseShown x r

end

theorem exec_gnsPulse_idle {x : GnssFix} {freq osc : Int} (h : s.gnssOn = false ∨ s.gnssDuty = true) :
    exec (.gnsPulse x freq osc) s = .next s := if_pos (h.imp_left Bool.eq_false_iff.mp)

/-- A second without a new survey or mode: its record begins with its TAI second and its flags. -/
theorem exec_gnsPulse_second {x : GnssFix} {freq osc : Int} (hon : s.gnssOn = true) (hduty : s.gnssDuty = false)
    (hrenew : s.gnss.renew = false) : ∃ phi rest, exec (.gnsPulse x freq osc) s =
      .next (s.secondTaken x freq osc phi (toBe 6 (x.second.toNat + 19) ++ toBe 2 (s.pulseWord x) ++ rest)) := by
  show ∃ phi rest, execGnsPulse x freq osc s = _
  unfold execGnsPulse
  rw [if_neg (by simp [hon, hduty]), hrenew]
  extract_lets base surveying fix y enough surveyed timed sec at_ tick q short spoof valid flags r shown
  obtain ⟨rest, hr⟩ : ∃ rest, r = toBe 6 sec ++ toBe 2 flags ++ rest := ⟨_, by simp only [r, List.append_assoc]; rfl⟩
  refine ⟨sec * 1000000000000 - at_, rest, ?_⟩
  rw [show toBe 6 (x.second.toNat + 19) ++ toBe 2 (s.pulseWord x) ++ rest = r from hr.symm]
  exact (apply_ite Host.Outcome.next ..).symm

/-! ### What the reading of reference 0 leaves (R130, R133) -/

section
variable (r : Nat)

theorem State.mon_congr {s t : State} (h : t.refs = s.refs) (r : Nat) : t.mon r = s.mon r := by
  unfold State.mon
  rw [h]

theorem State.driftCheck_pps (mon : Nat) (reading : Int) (threshold : Nat) (inside armed : Bool) :
    ((s.driftCheck r mon reading threshold inside armed).mon r).pps = (s.mon r).pps := by
  have harm : ∀ (t : State) (b : Bool), ((t.setMon r fun m => if mon = 0 then { m with armF := b } else { m with armP := b }).mon r).pps =
      (t.mon r).pps := fun t b => State.mon_setMon_keeps t r _ RefMon.pps fun m => by split <;> rfl
  unfold State.driftCheck
  dsimp only
  split
  · exact (harm _ _).trans (congrArg RefMon.pps (State.mon_congr ((State.notice_only ..).refs rfl) r))
  · split
    · exact harm _ _
    · rfl

theorem State.drift_pps : ((s.drift r).mon r).pps = (s.mon r).pps := by
  unfold State.drift
  dsimp only
  split
  · exact (State.driftCheck_pps ..).trans (State.driftCheck_pps ..)
  · exact State.driftCheck_pps ..

theorem State.disqualify_pps (cause : Nat) : ((s.disqualify r cause).mon r).pps = (s.mon r).pps := by
  have hcount : Only (some [P.REF_DISQ_COUNT]) (s.enterQ r 5) ((s.enterQ r 5).count P.REF_DISQ_COUNT r) :=
    (Only.refl _ _).count_plain rfl (by decide) r 1
  unfold State.disqualify
  rw [State.mon_congr ((State.reselect_only ..).refs rfl), State.mon_congr (hcount.refs rfl)]
  exact s.enterQ_mon_keeps r 5 RefMon.pps (fun _ _ => rfl) fun _ _ => rfl

/-- The qualification state machine takes no activity from a reference. -/
theorem State.judge_pps : ((s.judge r).mon r).pps = (s.mon r).pps := by
  unfold State.judge
  split
  · split
    · exact s.tryEntry_mon_keeps r RefMon.pps (fun _ _ => rfl) fun _ _ => rfl
    · rfl
  · split
    · rfl
    · exact s.enterQ_mon_keeps r 1 RefMon.pps (fun _ _ => rfl) fun _ _ => rfl
  · split
    · exact s.disqualify_pps r 3
    · split
      · exact s.disqualify_pps r 4
      · rfl
  · split
    · exact s.disqualify_pps r 3
    · split
      · exact s.disqualify_pps r 4
      · rfl
  · split
    · exact s.disqualify_pps r 3
    · rfl
  · rfl

/-- A reading takes no activity from its reference. -/
theorem State.monitorReading_pps (freq phi osc : Int) : ((s.monitorReading r freq phi osc).mon r).pps = (s.mon r).pps := by
  unfold State.monitorReading
  split
  · rfl
  · extract_lets present warned counted learned
    have hpresent : (present.mon r).pps = (s.mon r).pps := by
      unfold present
      split
      · exact State.mon_setMon_keeps s r _ RefMon.pps fun _ => rfl
      · rfl
    have hread : ((present.writeReading r freq phi osc).mon r).pps = (present.mon r).pps :=
      congrArg RefMon.pps (State.mon_congr ((State.writeReading_only ..).refs rfl) r)
    have hwarned : (warned.mon r).pps = (s.mon r).pps := (State.drift_pps r).trans (hread.trans hpresent)
    have hcounted : (counted.mon r).pps = (s.mon r).pps := by
      unfold counted
      split
      · refine (State.mon_setMon_keeps warned r _ RefMon.pps ?_).trans hwarned
        exact fun _ => rfl
      · exact hwarned
    have hlearned : Only (some [F.fresh, F.servo, P.REF_HO_C, P.REF_HO_CU, P.REF_HO_D, P.REF_HO_DU, P.REF_HO_LEARNED, P.REF_HO_TMEAN,
        P.REF_HO_Y0, P.REF_HO_YU]) counted learned :=
      .cond _ ((((Only.refl _ _).step (State.setServo_only ..) rfl)).step (State.learnAll_only _) rfl) (.refl _ _)
    rw [State.judge_pps, State.mon_congr ((learned.steered_only r phi).refs rfl), State.mon_congr (hlearned.refs rfl), hcounted]

theorem State.monitorReading_freq (freq phi osc : Int) (hq : s.qstate r ≠ 6) (hup : s.sharedUp = true) :
    (s.monitorReading r freq phi osc).rdS 32 P.REF_FREQ r = clampS 32 freq := by
  obtain ⟨u, hjudged, -, hfreq⟩ := State.monitorReading_judged freq phi osc hq hup
  rw [hjudged, State.rdS, (u.judge_only r).rd _ _ (by decide) rfl]
  exact hfreq

end

/-! ### What the pulse leaves of the survey, and what it shows -/

section
variable {x : GnssFix} {freq osc phi : Int} {r : List Byte}

/-- What a pulse touches once the survey has taken its second. -/
def pulseFrame : List Nat :=
  [F.cmd, F.fault, F.fresh, F.refs, F.rings, F.servo, F.shadows, F.time, P.CMD_NOTICE_DROP, P.GNS_LAST_PULSE, P.HLT_FAULT_COUNT,
    P.HLT_STICKY, P.HST_EVT_DROP, P.REF_ACTIVE, P.REF_BREF, P.REF_DEV, P.REF_DISQ_COUNT, P.REF_FLAGS, P.REF_FREQ, P.REF_HO_C, P.REF_HO_CU,
    P.REF_HO_D, P.REF_HO_DU, P.REF_HO_LEARNED, P.REF_HO_TMEAN, P.REF_HO_Y0, P.REF_HO_YU, P.REF_PHASE, P.REF_QSTATE, P.REF_SWLOG_HEAD,
    P.REF_SWLOG_INFO, P.REF_SWLOG_TIME, P.REF_TSTATE, P.TBS_BOUND_NOW, P.TBS_BOUND_PS, P.TBS_DOM_SELECTED, P.TBS_LEAP, P.TBS_UTC_OFFSET,
    P.TBS_UTC_VALID]

theorem State.pulseShown_only : Only (some [F.rings, P.GNS_LAST_PULSE, P.HST_EVT_DROP]) (s.pulseSurveyed x) (s.pulseShown x r) :=
  ((State.lastPulse_only ..).mono rfl).step (State.gnssRecord_only ..) rfl

theorem State.pulseNoted_only : Only (some [F.refs, F.shadows, F.time, P.REF_BREF, P.TBS_LEAP, P.TBS_UTC_OFFSET, P.TBS_UTC_VALID])
    (s.pulseShown x r) (s.pulseNoted x r) :=
  (((State.gnssUtc_only ..).mono rfl).wr rfl _ _).step (State.setMon_only ..) rfl

theorem State.pulseNoted_surveyed : Only (some [F.refs, F.rings, F.shadows, F.time, P.GNS_LAST_PULSE, P.HST_EVT_DROP, P.REF_BREF,
    P.TBS_LEAP, P.TBS_UTC_OFFSET, P.TBS_UTC_VALID]) (s.pulseSurveyed x) (s.pulseNoted x r) :=
  (State.pulseShown_only.mono rfl).step State.pulseNoted_only rfl

theorem State.secondTaken_only : Only (some pulseFrame) (s.pulseSurveyed x) (s.secondTaken x freq osc phi r) :=
  .cond _ ((State.pulseNoted_surveyed.mono rfl).step (State.monitorReading_only ..) rfl)
    (State.pulseShown_only.mono rfl)

/-- The parameters of a survey (R179). -/
def surveyReads : List Nat := [P.GNS_SURVEY_DONE, P.GNS_SURVEY_STATE, P.GNS_SURV_X, P.GNS_SURV_Y, P.GNS_SURV_Z]

theorem State.secondTaken_survey : Agrees surveyReads (s.pulseSurveyed x) (s.secondTaken x freq osc phi r) :=
  State.secondTaken_only.agrees rfl

theorem State.secondTaken_lastPulse : (s.secondTaken x freq osc phi r).rd P.GNS_LAST_PULSE 0 = beAt 0 8 r := by
  have hshown : (s.pulseShown x r).rd P.GNS_LAST_PULSE 0 = beAt 0 8 r :=
    ((State.gnssRecord_only ..).rd _ _ (by decide) rfl).trans (State.lastPulse_first r)
  unfold State.secondTaken
  split
  · rw [(State.monitorReading_only ..).rd _ _ (by decide) rfl, State.pulseNoted_only.rd _ _ (by decide) rfl, hshown]
  · exact hshown

/-- The record of a second as GNS_LAST_PULSE shows it: its TAI second, its validity and the exclusion of a satellite. -/
theorem State.secondTaken_record {sec : Nat} {rest : List Byte} (hr : r = toBe 6 sec ++ toBe 2 (s.pulseWord x) ++ rest) :
    (s.secondTaken x freq osc phi r).rd P.GNS_LAST_PULSE 0 / 65536 = sec % 2 ^ 48 ∧
      ((s.secondTaken x freq osc phi r).rd P.GNS_LAST_PULSE 0).testBit 0 = s.pulseValid x ∧
      ((s.secondTaken x freq osc phi r).rd P.GNS_LAST_PULSE 0).testBit 3 = (s.pulseFix x).2.2 := by
  have hword : s.pulseWord x < 2 ^ 16 := pulseFlags_lt ..
  rw [State.secondTaken_lastPulse, hr, beAt_pulse _ _ _ hword, Nat.testBit_two_pow_mul_add _ hword, Nat.testBit_two_pow_mul_add _ hword]
  exact ⟨by omega, pulseFlags_valid .., pulseFlags_excluded ..⟩

theorem State.secondTaken_valid (h : s.pulseValid x = true) :
    s.secondTaken x freq osc phi r = (s.pulseNoted x r).monitorReading 0 freq phi osc := if_pos h

theorem State.secondTaken_invalid (h : s.pulseValid x = false) : s.secondTaken x freq osc phi r = s.pulseShown x r :=
  if_neg (Bool.eq_false_iff.mp h)

theorem State.pulseNoted_bref : (s.pulseNoted x r).rd P.REF_BREF 0 =
    clampU 32 (ceilDiv (s.rd P.TBS_GNSS_K * (s.pulseFix x).1.sigma.toNat) 16 + s.rd P.GNS_ANT_U) := by
  rw [State.pulseNoted, State.setMon_rd, State.rd_wr_self]

theorem State.pulseNoted_pps (h : 0 < (s.pulseSurveyed x).refs.length) : ((s.pulseNoted x r).mon 0).pps = true := by
  have hrefs : ((s.pulseShown x r).gnssUtc x).refs = (s.pulseSurveyed x).refs :=
    ((State.gnssUtc_only ..).refs rfl).trans (State.pulseShown_only.refs rfl)
  rw [State.pulseNoted, State.mon_setMon _ _ _ (by rw [State.wr_refs, hrefs]; exact h)]

end

/-! ### A second at a known position (R178, R187) -/

section
variable {x : GnssFix} {r : List Byte} (hmode : s.gnss.mode = 1)
include hmode

theorem State.surveying_fixed : s.surveying = false := by
  simp [State.surveying, hmode]

theorem State.pulseSurveyed_fixed : s.pulseSurveyed x = (s.codeLoops x.cn0).setGnss fun g => { g with pulseAt := some s.clock } := by
  unfold State.pulseSurveyed
  rw [State.surveying_fixed hmode]
  rfl

theorem State.pulseSurveyed_rd (b i : Nat) : (s.pulseSurveyed x).rd b i = s.rd b i := by
  rw [State.pulseSurveyed_fixed hmode]
  rfl

theorem State.pulseNoted_qstate (i : Nat) : (s.pulseNoted x r).qstate i = s.qstate i :=
  (State.pulseNoted_surveyed.rd _ _ (by decide) rfl).trans (State.pulseSurveyed_rd hmode ..)

theorem State.pulseNoted_sharedUp : (s.pulseNoted x r).sharedUp = s.sharedUp := by
  unfold State.sharedUp
  simp only [State.pulseNoted_surveyed.rd P.PWR_DOMAIN_STATE _ (by decide) rfl, State.pulseSurveyed_rd hmode]

theorem State.pulseFix_fixed : s.pulseFix x = residualCheck x.first false x.more := by
  unfold State.pulseFix
  rw [State.surveying_fixed hmode]
  rfl

theorem State.pulseValid_fixed {y : GnssSolution} {stands out : Bool} (hfix : residualCheck x.first false x.more = (y, stands, out)) :
    s.pulseValid x = decide (stands = true ∧ satsNeeded y false ≤ y.used.length ∧ s.rd P.GNS_MIN_SATS ≤ y.used.length ∧
      1 ≤ systemsOf y ∧ y.sigma.toNat ≤ s.rd P.GNS_SIGMA_MAX ∧ s.rd P.GNS_ANT_STATUS ≠ 3 ∧
      ((s.rd P.GNS_FLAGS).testBit 0 = false ∨ s.rd P.GNS_SPOOF_ACTION = 0)) := by
  unfold State.pulseValid State.pulseEnough State.fixEnough
  rw [State.pulseFix_fixed hmode, State.surveying_fixed hmode, hfix]
  rw [Bool.eq_iff_iff]
  simp only [Bool.and_eq_true, Bool.or_eq_true, Bool.not_eq_true', decide_eq_true_eq, beq_iff_eq, beq_eq_false_iff_ne, bit, Bool.not_false,
    true_or, and_true, and_assoc]

end

/-! ### A second of a survey (R179, R182) -/

section
variable {x : GnssFix} (hmode : s.gnss.mode = 0) (hstate : s.rd P.GNS_SURVEY_STATE = 0)
include hmode hstate

theorem State.surveying_runs : s.surveying = true := by
  simp [State.surveying, hmode, hstate]

theorem State.pulseFix_survey : s.pulseFix x = (x.first, true, false) := by
  unfold State.pulseFix
  rw [State.surveying_runs hmode hstate]
  rfl

theorem State.pulseSurveyed_survey : s.pulseSurveyed x = (((s.codeLoops x.cn0).surveyGap s.pulseGap).surveySecond
    (if s.pulseEnough x then x.first.position else none)).setGnss fun g => { g with pulseAt := some s.clock } := by
  unfold State.pulseSurveyed
  rw [State.surveying_runs hmode hstate, State.pulseFix_survey hmode hstate]
  rfl

theorem State.pulseSurveyed_counts {p : Int × Int × Int} (hgap : s.pulseGap = 0) (hp : x.first.position = some p)
    (hsystems : 1 ≤ systemsOf x.first) (hneeded : satsNeeded x.first true ≤ x.first.used.length)
    (hmin : s.rd P.GNS_MIN_SATS ≤ x.first.used.length) :
    s.pulseSurveyed x = ((s.codeLoops x.cn0).surveyAdd p).setGnss fun g => { g with pulseAt := some s.clock } := by
  have henough : s.pulseEnough x = true := by
    unfold State.pulseEnough State.fixEnough
    rw [State.pulseFix_survey hmode hstate, State.surveying_runs hmode hstate]
    simp [hsystems, hneeded, hmin, hp]
  rw [State.pulseSurveyed_survey hmode hstate, henough, hgap, if_pos rfl, hp, State.surveyGap_zero,
    State.surveySecond_counts (by exact hstate)]

theorem State.pulseSurveyed_pauses (hno : 0 < s.pulseGap ∨ x.first.position = none) : s.SurveyPaused (s.pulseSurveyed x) := by
  have hpos : 0 < s.pulseGap ∨ (if s.pulseEnough x = true then x.first.position else none) = none :=
    hno.imp_right fun h => by rw [h, ite_self]
  have hpaused := State.surveySecond_pauses (s := s.codeLoops x.cn0) (by exact hstate) hpos
  rw [State.pulseSurveyed_survey hmode hstate]
  exact ⟨hpaused.state, hpaused.done, hpaused.sumX, hpaused.sumY, hpaused.sumZ⟩

end

end

/-! ### The obligation -/

/-- Settles O45: a second's pulse by the state in which the survey has taken it, and the other events of the receiver by their states. -/
theorem gnssPulseAndRecords : Obligations.GnssPulseAndRecords := by
  unfold Obligations.GnssPulseAndRecords
  refine ⟨?_, ?_, ?_, ?_, ?_, ?_, ?_, ?_, fun signal sat cn0 s => exec_channelRelease_kept, ?_, ?_⟩
  · intro x freq osc s y stands out valid hon hduty hrenew hmode hrefs hfix hvalid
    obtain ⟨phi, rest, hexec⟩ := exec_gnsPulse_second (x := x) (freq := freq) (osc := osc) hon hduty hrenew
    have hvalid' : s.pulseValid x = valid := (State.pulseValid_fixed hmode hfix).trans hvalid.symm
    obtain ⟨hsec, hflag, hexcluded⟩ := State.secondTaken_record (s := s) (x := x) (freq := freq) (osc := osc) (phi := phi)
      (sec := x.second.toNat + 19) (rest := rest) rfl
    have hsurveyed := State.pulseSurveyed_fixed (x := x) hmode
    refine ⟨_, hexec, hsec, hflag.trans hvalid', ?_, ?_, ?_, ?_, ((execGnsPulse_only x freq osc s).next _ hexec).mono rfl⟩
    · rw [hexcluded, State.pulseFix_fixed hmode, hfix]
    · intro hv
      rw [State.secondTaken_valid (hvalid'.trans hv)]
      refine ⟨?_, ?_, fun hq hup => ?_⟩
      · rw [(State.monitorReading_only ..).rd _ _ (by decide) rfl, State.pulseNoted_bref, State.pulseFix_fixed hmode, hfix]
      · rw [State.monitorReading_pps, State.pulseNoted_pps (by rw [hsurveyed]; exact hrefs)]
      · exact State.monitorReading_freq 0 freq phi osc ((State.pulseNoted_qstate hmode 0).trans_ne hq)
          ((State.pulseNoted_sharedUp hmode).trans hup)
    · intro hv
      rw [State.secondTaken_invalid (hvalid'.trans hv), State.pulseShown_only.rd _ _ (by decide) rfl, State.pulseShown_only.refs rfl,
        State.pulseShown_only.rd _ _ (by decide) rfl, hsurveyed]
      exact ⟨rfl, rfl, rfl⟩
    · rw [State.secondTaken_only.gnss rfl, hsurveyed]
      rfl
  · intro x freq osc s p hon hduty hrenew hmode hstate hgap hp hsystems hneeded hmin
    obtain ⟨phi, rest, hexec⟩ := exec_gnsPulse_second (x := x) (freq := freq) (osc := osc) hon hduty hrenew
    have hcounts := State.pulseSurveyed_counts hmode hstate hgap hp hsystems hneeded hmin
    refine ⟨_, hexec, ?_⟩
    simp only [State.rdS, State.secondTaken_survey P.GNS_SURVEY_DONE (by decide), State.secondTaken_survey P.GNS_SURVEY_STATE (by decide),
      State.secondTaken_survey P.GNS_SURV_X (by decide), State.secondTaken_survey P.GNS_SURV_Y (by decide),
      State.secondTaken_survey P.GNS_SURV_Z (by decide), State.secondTaken_only.gnss rfl, hcounts]
    have hgnss := State.surveyAdd_gnss (s := s.codeLoops x.cn0) p
    refine ⟨State.surveyAdd_done p, ?_, ?_, ?_, fun hgoes => ?_, fun hends => State.surveyAdd_mean p hends,
      ((execGnsPulse_only x freq osc s).next _ hexec).mono rfl⟩
    · rw [State.setGnss_gnss, hgnss]; rfl
    · rw [State.setGnss_gnss, hgnss]; rfl
    · rw [State.setGnss_gnss, hgnss]; rfl
    · exact (State.surveyAdd_state_goesOn (s := s.codeLoops x.cn0) p hgoes).trans hstate
  · intro x freq osc s hon hduty hrenew hmode hstate hno
    obtain ⟨phi, rest, hexec⟩ := exec_gnsPulse_second (x := x) (freq := freq) (osc := osc) hon hduty hrenew
    obtain ⟨hpaused, hdone, hx, hy, hz⟩ := State.pulseSurveyed_pauses hmode hstate hno
    refine ⟨_, hexec, ?_⟩
    rw [State.secondTaken_survey _ (by decide), State.secondTaken_survey _ (by decide), State.secondTaken_only.gnss rfl]
    exact ⟨hpaused, hdone, hx, hy, hz, ((execGnsPulse_only x freq osc s).next _ hexec).mono rfl⟩
  · intro ma s hon hma
    have hexec := exec_antBiasMeasure_short hon hma
    exact ⟨_, hexec, State.antShorted_status .., State.antShorted_flag .., State.antShorted_gnss .., State.sticky_bit ..,
      (execAntBiasMeasure_only ma s).next _ hexec⟩
  · intro ma s hon hma
    refine ⟨_, exec_antBiasMeasure_carried hon hma, ?_, (Only.refl _ s).wr rfl _ _⟩
    rw [State.rd_wr_self]
  · intro signal sat elev bin chip first second s c hon hduty hfirst hsecond hbin hsignal hc
    subst hc
    have hexec := exec_acqCellFound_found (sat := sat) (elev := elev) (chip := chip) hon hduty hfirst hsecond hbin hsignal
    refine ⟨_, hexec, State.acquired_search, fun hmask hnew hroom => ?_, fun hmask hnew hfull hlow => ?_, fun hrefused => ?_,
      (execAcqCellFound_only ..).next _ hexec⟩
    · obtain ⟨hchannels, hcount⟩ := State.acquired_receives (c := ⟨signal.val, sat.toNat, elev.val, bin, chip, false⟩) hmask
        (State.follows_eq_false hnew) hroom
      exact ⟨hchannels, hcount hduty⟩
    · exact State.acquired_full hmask (State.follows_eq_false hnew) hfull hlow
    · exact State.acquired_refused (hrefused.imp_right (State.follows_iff ..).mpr)
  · exact fun signal sat elev bin chip first second s => exec_acqCellFound_missed
  · intro signal sat cn0 s hon hduty hweak
    have hexec := exec_channelRelease_weak (signal := signal) (sat := sat) hon hduty hweak
    exact ⟨_, hexec, State.mem_channelFreed _ _, State.gnssCount_tracked hduty, (execChannelRelease_only ..).next _ hexec⟩
  · intro message sat ok l5 bits time data s hon hduty hring
    have hexec := exec_navWord_decoded (message := message) (sat := sat) (ok := ok) (l5 := l5) (bits := bits) (time := time) (data := data)
      hon hduty
    exact ⟨_, hexec, State.gnssRecord_sent hring .., (execNavWord_only ..).next _ hexec⟩
  · intro x freq osc message sat ok l5 bits time data ma s
    exact ⟨exec_gnsPulse_idle, exec_navWord_unsent, exec_antBiasMeasure_off⟩

end Sys2Proof.Machine
end

section
/-! ## GNSS receiver: snapshots (R190 to R193, R395) -/

namespace Sys2Proof.Machine

theorem fit_length (n : Nat) (bs : List Byte) : (fit n bs).length = n := by
  simp [fit, zeros]

/-! ### The scratchpad areas of the two bands (R190) -/

section
variable (s : State) (l1 l5 : List Byte)

/-- The state in which the samples of the two bands stand in banks 8 and 12. -/
def State.samplesKept (s : State) (l1 l5 : List Byte) : State := (s.padWrite (8 * 0x200000) l1).padWrite (12 * 0x200000) l5

theorem State.samplesKept_l1 {i : Nat} (h : i < l1.length) (hroom : l1.length ≤ 0x800000) :
    (s.samplesKept l1 l5).padByte (0x1000000 + i) = l1.getD i 0 := by
  rw [State.samplesKept, State.padByte_padWrite, if_neg (by omega), State.padByte_padWrite, if_pos (by omega),
    show 0x1000000 + i - 8 * 0x200000 = i by omega]

theorem State.samplesKept_l5 {i : Nat} (h : i < l5.length) : (s.samplesKept l1 l5).padByte (0x1800000 + i) = l5.getD i 0 := by
  rw [State.samplesKept, State.padByte_padWrite, if_pos (by omega), show 0x1800000 + i - 12 * 0x200000 = i by omega]

end

/-! ### The offset of a processed snapshot (R191, R192) -/

section
variable {s : State}

/-- GNS_SNAP_OFFSET as processing leaves it: the least value where it found no solution. -/
def shownOffset (offset : Option Int) : Nat :=
  match offset with
  | some d => raw 64 (clampS 64 d)
  | none => 2 ^ 63

theorem State.snapOffset_shown (offset : Option Int) : (s.snapOffset offset).rd P.GNS_SNAP_OFFSET = shownOffset offset := by
  unfold State.snapOffset
  cases offset with
  | none => exact State.rd_wr_self ..
  | some d =>
    have hshown : (s.wrS 64 P.GNS_SNAP_OFFSET 0 d).rd P.GNS_SNAP_OFFSET = shownOffset (some d) := State.rd_wr_self ..
    dsimp only
    split
    · exact (State.rd_wr_base _ (by decide) ..).trans hshown
    · exact hshown

/-- An offset beyond GNS_SPOOF_TOL raises SPOOF_SUSPECT. -/
theorem State.snapOffset_suspects {d : Int} (h : s.rd P.GNS_SPOOF_TOL < d.natAbs) :
    ((s.snapOffset (some d)).rd P.GNS_FLAGS).testBit 0 = true := by
  have hraised : s.snapOffset (some d) = (s.wrS 64 P.GNS_SNAP_OFFSET 0 d).orIn P.GNS_FLAGS 0 1 := if_pos h
  rw [hraised, State.orIn, State.rd_wr_self, Nat.testBit_or, show (1 : Nat).testBit 0 = true from rfl, Bool.or_true]

end

/-! ### GNSS_SNAPSHOT (R190, R395) -/

/-- A command that is accepted frees its session for the next one (R39, R42). -/
theorem State.accept_accepted {s : State} {x y : Session} {op : Nat} {rq : Request} (hy : s.sessionUid x.uid = some y)
    (hb : y.blocked = some rq.tag.toNat) : (s.accept (originOf x op rq)).accepted x := by
  have hsent : (s.replyPart (originOf x op rq) Status.ACCEPTED []).sessionUid x.uid = some y := by
    rw [← hy]
    unfold State.replyPart
    split
    · simp [State.sessionUid]
    · rfl
  have hfound := State.sessionUid_setSession (s.replyPart (originOf x op rq) Status.ACCEPTED []) x.uid
    (fun z => if z.blocked = some rq.tag.toNat then { z with blocked := none } else z) fun z => by split <;> rfl
  rw [hsent, Option.map_some, if_pos hb] at hfound
  exact ⟨_, hfound, rfl⟩

section
variable {s : State} {rq : Request} {x : Session}

theorem opRow_gnsSnapshot : opRow Op.GNS_SNAPSHOT = some ⟨Op.GNS_SNAPSHOT, 3, 1, size 12, gnsSnapshot⟩ := rfl

theorem exec_gnsSnapshot (h : s.taken Op.GNS_SNAPSHOT rq x) : exec (.gnsSnapshot rq) s =
    .next (gnsSnapshot (originOf x Op.GNS_SNAPSHOT rq) rq.payload (s.occupied Op.GNS_SNAPSHOT rq x)).settle := by
  have hbody := exec_taken_slow (c := .gnsSnapshot rq) rfl h opRow_gnsSnapshot (by decide) (fastPath_slow rq (by decide) (by decide))
  exact hbody

/-- The ranges of a GNSS_SNAPSHOT: its length in ms, its bands and its action (R190). -/
def snapshotFits (b : List Byte) : Prop :=
  2 ≤ beAt 0 2 b ∧ beAt 0 2 b ≤ 128 ∧ 1 ≤ beAt 2 1 b ∧ beAt 2 1 b ≤ 3 ∧ beAt 3 1 b ≤ 2

section
variable (o : Origin) {b : List Byte}

theorem gnsSnapshot_badValue
    (h : beAt 0 2 b < 2 ∨ 128 < beAt 0 2 b ∨ beAt 2 1 b = 0 ∨ 3 < beAt 2 1 b ∨ 2 < beAt 3 1 b) :
    gnsSnapshot o b s = s.finish o Status.BAD_VALUE [] := if_pos h

/-- A request within its ranges is judged by the receiver, by the snapshot that runs and by its master. -/
theorem gnsSnapshot_fits (h : snapshotFits b) : gnsSnapshot o b s =
    if s.gnssOn = false then s.finish o Status.NOT_READY []
    else if s.gnss.capture.isSome = true then s.finish o Status.IN_PROGRESS []
    else if s.frozenMaster 13 = true then s.finish o Status.ABORTED []
    else (s.setGnss fun g => { g with
      capture := some ⟨o, beAt 0 2 b, beAt 2 1 b, beAt 3 1 b, beAt 4 8 b, s.now⟩ }).accept o := by
  obtain ⟨h2, h128, h1, h3, ha⟩ := h
  simp only [← Bool.not_eq_true (s.gnssOn)]
  exact if_neg (by omega)

end

theorem State.occupied_gnssOn (op : Nat) : (s.occupied op rq x).gnssOn = s.gnssOn := by
  unfold State.gnssOn State.rdb
  rw [State.occupied_rd, State.occupied_rd]

theorem State.occupied_frozenMaster (op m : Nat) : (s.occupied op rq x).frozenMaster m = s.frozenMaster m := by
  unfold State.frozenMaster
  rw [State.occupied_rd]

theorem State.occupied_gnss (op : Nat) : (s.occupied op rq x).gnss = s.gnss := (s.occupied_only op rq x).gnss rfl

/-- The state in which the capture of a request has begun and its session is free. -/
def State.captureBegun (s : State) (rq : Request) (x : Session) : State :=
  ((s.occupied Op.GNS_SNAPSHOT rq x).setGnss fun g => { g with capture := some ⟨originOf x Op.GNS_SNAPSHOT rq, beAt 0 2 rq.payload,
    beAt 2 1 rq.payload, beAt 3 1 rq.payload, beAt 4 8 rq.payload, s.now⟩ }).accept (originOf x Op.GNS_SNAPSHOT rq)

theorem State.captureBegun_only : Only (some [F.cmd, F.rings, F.gnss, P.CMD_REFUSED_COUNT, P.TBS_OVER_LIMIT_COUNT]) s
    (s.captureBegun rq x) :=
  (((s.occupied_only ..).mono rfl).step (State.setGnss_only ..) rfl).step (State.accept_only ..) rfl

theorem State.captureBegun_gnss : (s.captureBegun rq x).gnss = { s.gnss with capture := some ⟨originOf x Op.GNS_SNAPSHOT rq,
    beAt 0 2 rq.payload, beAt 2 1 rq.payload, beAt 3 1 rq.payload, beAt 4 8 rq.payload, s.now⟩ } := by
  rw [State.captureBegun, (State.accept_only ..).gnss rfl, State.setGnss_gnss, State.occupied_gnss]

theorem State.captureBegun_accepted (h : s.taken Op.GNS_SNAPSHOT rq x) : (s.captureBegun rq x).accepted x := by
  obtain ⟨y, hy, hblocked, -⟩ := State.reached_occupied h.1
  exact State.accept_accepted hy hblocked

theorem exec_gnsSnapshot_begins (h : s.taken Op.GNS_SNAPSHOT rq x) (hfits : snapshotFits rq.payload) (hon : s.gnssOn = true)
    (hidle : s.gnss.capture = none) (hmaster : s.frozenMaster 13 = false) :
    exec (.gnsSnapshot rq) s = .next (s.captureBegun rq x).settle := by
  have hnow : (s.occupied Op.GNS_SNAPSHOT rq x).now = s.now := congrArg (fun t => t.out.ns) (s.occupied_time ..)
  rw [exec_gnsSnapshot h, gnsSnapshot_fits _ hfits, State.occupied_gnssOn, State.occupied_gnss, State.occupied_frozenMaster, hon, hidle,
    hmaster, hnow]
  rfl

/-- The status by which a GNSS_SNAPSHOT is refused, by the first test that it fails. -/
theorem gnsSnapshot_refused {st : Nat}
    (hst : ((beAt 0 2 rq.payload < 2 ∨ 128 < beAt 0 2 rq.payload ∨ beAt 2 1 rq.payload = 0 ∨ 3 < beAt 2 1 rq.payload ∨
        2 < beAt 3 1 rq.payload) ∧ st = Status.BAD_VALUE) ∨
      (snapshotFits rq.payload ∧ ((s.gnssOn = false ∧ st = Status.NOT_READY) ∨
        (s.gnssOn = true ∧ s.gnss.capture.isSome = true ∧ st = Status.IN_PROGRESS) ∨
        (s.gnssOn = true ∧ s.gnss.capture = none ∧ s.frozenMaster 13 = true ∧ st = Status.ABORTED)))) :
    gnsSnapshot (originOf x Op.GNS_SNAPSHOT rq) rq.payload (s.occupied Op.GNS_SNAPSHOT rq x) =
      (s.occupied Op.GNS_SNAPSHOT rq x).finish (originOf x Op.GNS_SNAPSHOT rq) st [] := by
  rcases hst with ⟨hbad, rfl⟩ | ⟨hfits, hst⟩
  · exact gnsSnapshot_badValue _ hbad
  · rw [gnsSnapshot_fits _ hfits, State.occupied_gnssOn, State.occupied_gnss, State.occupied_frozenMaster]
    rcases hst with ⟨hoff, rfl⟩ | ⟨hon, hruns, rfl⟩ | ⟨hon, hidle, hmaster, rfl⟩
    · exact if_pos hoff
    · rw [if_neg (by simp [hon]), if_pos hruns]
    · rw [if_neg (by simp [hon]), if_neg (by simp [hidle]), if_pos hmaster]

end

/-! ### SNAPSHOT_CAPTURE_DONE (R190, R191, R395) -/

section
variable {s : State} {l1 l5 : List Byte} {offset : Option Int} {sats : Fin 65} {c : Capture}

/-- The samples of band `i` that a capture takes: none where the band is not asked for. -/
def Capture.samples (c : Capture) (i : Nat) (bs : List Byte) : List Byte := if bit i c.bands then fit (64000 * c.ms) bs else []

/-- The state in which no capture runs. -/
def State.captureEnded (s : State) : State := s.setGnss fun g => { g with capture := none }

/-- The state in which the samples of a capture have gone where its action sends them: the scratchpad, and the host for all but action 1. -/
def State.samplesStored (s : State) (c : Capture) (l1 l5 : List Byte) : State :=
  let t := s.captureEnded.samplesKept (c.samples 0 l1) (c.samples 1 l5)
  if c.action = 1 then t else t.emit (.hostWrite c.addr (c.samples 0 l1 ++ c.samples 1 l5))

/-- The state in which a capture has been processed, where its action asks for that. -/
def State.captureProcessed (s : State) (c : Capture) (l1 l5 : List Byte) (offset : Option Int) : State :=
  if c.action = 0 then s.samplesStored c l1 l5 else (s.samplesStored c l1 l5).snapOffset offset

/-- The offset in the final reply of a capture: none was sought with action 0. -/
def Capture.shown (c : Capture) (offset : Option Int) : Nat := shownOffset (if c.action = 0 then none else offset)

theorem exec_snapshotCaptureDone_none (h : s.gnss.capture = none) : exec (.snapshotCaptureDone l1 l5 offset sats) s = .next s := by
  show execSnapshotCaptureDone l1 l5 offset sats s = _
  unfold execSnapshotCaptureDone
  rw [h]

theorem exec_snapshotCaptureDone_aborts (h : s.gnss.capture = some c)
    (hfrozen : s.frozenMaster 13 = true ∨ (c.action ≠ 1 ∧ (s.frozenMaster 3 = true ∨ s.linkUp = false))) :
    exec (.snapshotCaptureDone l1 l5 offset sats) s = .next (s.captureEnded.finish c.origin Status.ABORTED []) := by
  show execSnapshotCaptureDone l1 l5 offset sats s = _
  unfold execSnapshotCaptureDone
  rw [h]
  exact if_pos (hfrozen.imp_right (And.imp_right (Or.imp_right Bool.eq_false_iff.mp)))

theorem State.samplesStored_padByte (a : Nat) :
    (s.samplesStored c l1 l5).padByte a = (s.captureEnded.samplesKept (c.samples 0 l1) (c.samples 1 l5)).padByte a := by
  unfold State.samplesStored
  dsimp only
  split <;> rfl

theorem State.samplesStored_only : Only (some [F.gnss, F.pad]) s (s.samplesStored c l1 l5) := by
  have hkept : Only (some [F.gnss, F.pad]) s (s.captureEnded.samplesKept (c.samples 0 l1) (c.samples 1 l5)) :=
    ((((Only.refl _ s).step (State.setGnss_only ..) rfl)).padWrite rfl _ _).padWrite rfl _ _
  exact .cond _ hkept (hkept.emit _)

theorem State.captureProcessed_stored :
    Only (some [P.GNS_FLAGS, P.GNS_SNAP_OFFSET]) (s.samplesStored c l1 l5) (s.captureProcessed c l1 l5 offset) :=
  .cond _ (.refl _ _) (State.snapOffset_only ..)

theorem State.captureProcessed_only : Only (some [F.gnss, F.pad, P.GNS_FLAGS, P.GNS_SNAP_OFFSET]) s
    (s.captureProcessed c l1 l5 offset) :=
  (State.samplesStored_only.mono rfl).step State.captureProcessed_stored rfl

theorem State.captureProcessed_gnss : (s.captureProcessed c l1 l5 offset).gnss = { s.gnss with capture := none } := by
  rw [State.captureProcessed_stored.gnss rfl]
  unfold State.samplesStored
  dsimp only
  split <;> rfl

theorem State.captureProcessed_padByte (a : Nat) : (s.captureProcessed c l1 l5 offset).padByte a =
    (s.captureEnded.samplesKept (c.samples 0 l1) (c.samples 1 l5)).padByte a := by
  rw [← State.samplesStored_padByte, State.padByte, State.captureProcessed_stored.pad rfl, ← State.padByte]

theorem State.captureProcessed_offset (ha : c.action ≠ 0) :
    (s.captureProcessed c l1 l5 offset).rd P.GNS_SNAP_OFFSET = c.shown offset := by
  rw [State.captureProcessed, if_neg ha, State.snapOffset_shown, Capture.shown, if_neg ha]

theorem State.captureProcessed_unsought (ha : c.action = 0) :
    (s.captureProcessed c l1 l5 offset).rd P.GNS_SNAP_OFFSET = s.rd P.GNS_SNAP_OFFSET := by
  rw [State.captureProcessed, if_pos ha, State.samplesStored_only.rd _ _ (by decide) rfl]

theorem State.captureProcessed_suspects {d : Int} (ha : c.action ≠ 0) (h : s.rd P.GNS_SPOOF_TOL < d.natAbs) :
    ((s.captureProcessed c l1 l5 (some d)).rd P.GNS_FLAGS).testBit 0 = true := by
  rw [State.captureProcessed, if_neg ha]
  exact State.snapOffset_suspects (by rwa [State.samplesStored_only.rd _ _ (by decide) rfl])

theorem exec_snapshotCaptureDone_completes (h : s.gnss.capture = some c) (h13 : s.frozenMaster 13 = false)
    (hhost : c.action = 1 ∨ (s.frozenMaster 3 = false ∧ s.linkUp = true)) :
    exec (.snapshotCaptureDone l1 l5 offset sats) s = .next ((s.captureProcessed c l1 l5 offset).finish c.origin Status.DONE
      (toBe 8 c.start ++ toBe 4 (64000 * c.ms) ++ toBe 8 (c.shown offset) ++
        toBe 1 (if c.action = 0 then 0 else sats.val) ++ zeros 3)) := by
  have hgoes : ¬ (s.frozenMaster 13 = true ∨ (c.action ≠ 1 ∧ (s.frozenMaster 3 = true ∨ ¬ s.linkUp = true))) := by
    rcases hhost with h1 | ⟨h3, hup⟩
    · simp [h13, h1]
    · simp [h13, h3, hup]
  have hshown : (if c.action = 0 then 2 ^ 63 else (s.captureProcessed c l1 l5 offset).rd P.GNS_SNAP_OFFSET) = c.shown offset := by
    by_cases ha : c.action = 0
    · rw [if_pos ha, Capture.shown, if_pos ha]
      rfl
    · rw [if_neg ha, State.captureProcessed_offset ha]
  rw [← hshown]
  show execSnapshotCaptureDone l1 l5 offset sats s = _
  unfold execSnapshotCaptureDone
  rw [h]
  exact if_neg hgoes

end

/-! ### DUTY_SNAPSHOT (R193) -/

section
variable {s : State} {l1 : List Byte} {offset : Option Int}

/-- The state in which a survey that ran when duty operation began is paused (R182, R193). -/
def State.dutyPaused (s : State) : State :=
  if s.gnss.mode = 0 ∧ s.rd P.GNS_SURVEY_STATE = 0 then s.surveyHeld 0 else s

/-- The state in which the samples of a duty snapshot stand in bank 8. -/
def State.dutyStored (s : State) (l1 : List Byte) : State :=
  (s.dutyPaused.padWrite (8 * 0x200000) (fit 1280000 l1)).setGnss fun g => { g with dutyAt := s.clock }

theorem State.dutyPaused_only (s : State) : Only (some [F.gnss, P.GNS_SURVEY_STATE]) s s.dutyPaused :=
  .cond _ (((Only.refl _ s).wr rfl _ _).step (State.setGnss_only ..) rfl) (.refl _ s)

theorem State.dutyPaused_channels (s : State) : s.dutyPaused.gnss.channels = s.gnss.channels := by
  unfold State.dutyPaused
  split <;> rfl

theorem State.dutyPaused_state (s : State) : s.dutyPaused.rd P.GNS_SURVEY_STATE =
    if s.gnss.mode = 0 ∧ s.rd P.GNS_SURVEY_STATE = 0 then 1 else s.rd P.GNS_SURVEY_STATE := by
  unfold State.dutyPaused
  split
  · exact (s.surveyHeld_paused 0).state
  · rfl

theorem exec_dutySnapshot_due (hon : s.gnssOn = true) (hduty : s.gnssDuty = true) (hmaster : s.frozenMaster 13 = false)
    (hdue : s.gnss.dutyAt + 1000000000 * s.rd P.GNS_DUTY_PERIOD ≤ s.clock) :
    exec (.dutySnapshot ⟨l1, offset⟩) s = .next ((s.dutyStored l1).snapOffset offset).gnssCount :=
  if_pos ⟨hon, hduty, by simp [hmaster], hdue⟩

theorem exec_dutySnapshot_idle (h : s.gnssOn = false ∨ s.gnssDuty = false ∨ s.frozenMaster 13 = true ∨
    s.clock < s.gnss.dutyAt + 1000000000 * s.rd P.GNS_DUTY_PERIOD) : exec (.dutySnapshot ⟨l1, offset⟩) s = .next s := by
  refine if_neg fun ⟨hon, hduty, hmaster, hdue⟩ => ?_
  rcases h with h | h | h | h
  · exact Bool.false_ne_true (h.symm.trans hon)
  · exact Bool.false_ne_true (h.symm.trans hduty)
  · exact hmaster h
  · exact Nat.not_le.mpr h hdue

theorem State.dutyStored_only : Only (some [F.gnss, F.pad, P.GNS_SURVEY_STATE]) s (s.dutyStored l1) :=
  ((s.dutyPaused_only.mono rfl).padWrite rfl _ _).step (State.setGnss_only ..) rfl

/-- What follows the storing of the samples: the offset and the count of satellites. -/
theorem State.dutyShown_only : Only (some [P.GNS_FLAGS, P.GNS_SATS_TRACKED, P.GNS_SNAP_OFFSET]) (s.dutyStored l1)
    ((s.dutyStored l1).snapOffset offset).gnssCount :=
  ((State.snapOffset_only ..).mono rfl).step (State.gnssCount_only _) rfl

theorem State.dutyStored_padByte {i : Nat} (h : i < 1280000) : (s.dutyStored l1).padByte (0x1000000 + i) = (fit 1280000 l1).getD i 0 := by
  have hlen := fit_length 1280000 l1
  have hbyte := State.padByte_padWrite s.dutyPaused (8 * 0x200000) (fit 1280000 l1) (0x1000000 + i)
  rw [if_pos (by omega), show 0x1000000 + i - 8 * 0x200000 = i by omega] at hbyte
  exact hbyte

theorem State.snapOffset_gnssDuty (t : State) : (t.snapOffset offset).gnssDuty = t.gnssDuty := by
  unfold State.gnssDuty State.rdb
  rw [(State.snapOffset_only ..).rd _ _ (by decide) rfl, (State.snapOffset_only ..).rd _ _ (by decide) rfl]

theorem State.dutyStored_gnssDuty : (s.dutyStored l1).gnssDuty = s.gnssDuty := by
  unfold State.gnssDuty State.rdb
  rw [State.dutyStored_only.rd _ _ (by decide) rfl, State.dutyStored_only.rd _ _ (by decide) rfl]

end

/-! ### The obligation -/

/-- Settles O46: a snapshot's request, its end, and a snapshot of duty operation, each by the state that it goes through. -/
theorem gnssSnapshotsComplete : Obligations.GnssSnapshotsComplete := by
  unfold Obligations.GnssSnapshotsComplete
  refine ⟨?_, ?_, ?_, ?_, fun l1 l5 offset sats s => exec_snapshotCaptureDone_none, ?_, fun l1 offset s => exec_dutySnapshot_idle⟩
  · intro rq s x h h2 h128 h1 h3 ha hon hidle hmaster
    exact ⟨_, exec_gnsSnapshot_begins h ⟨h2, h128, h1, h3, ha⟩ hon hidle hmaster, State.captureBegun_gnss,
      State.captureBegun_accepted h, State.captureBegun_only⟩
  · intro rq s x st h hst
    have hexec := exec_gnsSnapshot h
    rw [gnsSnapshot_refused (hst.imp_right fun ⟨h2, h128, h1, h3, ha, hst⟩ => ⟨⟨h2, h128, h1, h3, ha⟩, hst⟩)] at hexec
    exact ⟨_, hexec, State.taken_replied h (.refl _) ..,
      ((s.occupied_only ..).mono rfl).step (State.finish_only ..) rfl⟩
  · intro l1 l5 offset sats s c shown hc h13 hhost hms hsession hshown
    have hexec := exec_snapshotCaptureDone_completes (l1 := l1) (l5 := l5) (offset := offset) (sats := sats) hc h13 hhost
    have hfin := fun (t : State) st pl => State.finish_only t c.origin st pl
    obtain rfl : shown = c.shown offset := hshown
    refine ⟨_, hexec, ((hfin ..).gnss rfl).trans State.captureProcessed_gnss, ?_, ?_, ?_, ?_,
      State.finish_answered ((State.captureProcessed_only.sessionUid rfl _).trans hsession) ..,
      (execSnapshotCaptureDone_only l1 l5 offset sats s).next _ hexec⟩
    · intro i hi hband
      have hsamples : c.samples 0 l1 = fit (64000 * c.ms) l1 := if_pos hband
      rw [State.padByte, (hfin ..).pad rfl, ← State.padByte, State.captureProcessed_padByte, hsamples,
        State.samplesKept_l1 _ _ _ (by rwa [fit_length]) (by rw [fit_length]; omega)]
    · intro i hi hband
      have hsamples : c.samples 1 l5 = fit (64000 * c.ms) l5 := if_pos hband
      rw [State.padByte, (hfin ..).pad rfl, ← State.padByte, State.captureProcessed_padByte, hsamples,
        State.samplesKept_l5 _ _ _ (by rwa [fit_length])]
    · intro ha
      rw [(hfin ..).rd _ _ (by decide) rfl, (hfin ..).rd _ _ (by decide) rfl]
      refine ⟨State.captureProcessed_offset ha, ?_⟩
      rintro d rfl hd
      exact State.captureProcessed_suspects ha hd
    · intro ha
      exact ((hfin ..).rd _ _ (by decide) rfl).trans (State.captureProcessed_unsought ha)
  · intro l1 l5 offset sats s c hc hfrozen hsession
    have hended : Only (some [F.gnss]) s s.captureEnded := State.setGnss_only ..
    have hfin := State.finish_only s.captureEnded c.origin Status.ABORTED []
    exact ⟨_, exec_snapshotCaptureDone_aborts hc hfrozen, hfin.gnss rfl,
      State.finish_answered ((hended.sessionUid rfl _).trans hsession) .., hfin.pad rfl, (hended.mono rfl).step hfin rfl⟩
  · intro l1 offset s hon hduty hmaster hdue
    have hexec := exec_dutySnapshot_due (l1 := l1) (offset := offset) hon hduty hmaster hdue
    have hshown := State.dutyShown_only (s := s) (l1 := l1) (offset := offset)
    have hcount := State.gnssCount_only ((s.dutyStored l1).snapOffset offset)
    refine ⟨_, hexec, ?_, ?_, ?_, ?_, ?_, ?_, ?_, (execDutySnapshot_only ⟨l1, offset⟩ s).next _ hexec⟩
    · rw [hshown.gnss rfl]
      rfl
    · rw [hshown.gnss rfl]
      exact s.dutyPaused_channels
    · intro i hi
      rw [State.padByte, hshown.pad rfl, ← State.padByte, State.dutyStored_padByte hi]
    · exact (hcount.rd _ _ (by decide) rfl).trans (State.snapOffset_shown offset)
    · exact State.gnssCount_duty ((State.snapOffset_gnssDuty _).trans (State.dutyStored_gnssDuty.trans hduty))
    · rintro d rfl hd
      rw [hcount.rd _ _ (by decide) rfl]
      exact State.snapOffset_suspects (by rwa [State.dutyStored_only.rd _ _ (by decide) rfl])
    · rw [hshown.rd _ _ (by decide) rfl]
      exact s.dutyPaused_state

end Sys2Proof.Machine
end

section
/-! ## Calibration: the taps of the lanes and the trims of the outputs (R210) -/

namespace Sys2Proof.Machine

/-! ### TAP_STEP -/

section
variable {lane : Fin 512} {now : BitVec 32} {frac : Fin 100} {s : State} {target : Nat}

/-- The state in which the interval to the next step of a lane's tap has begun. -/
def State.tapTimed (s : State) (l : Nat) : State :=
  s.setCal fun c => { c with tapAt := store ltNat l 0 (s.clock + 1000000 * s.rd P.CAL_TAP_INTERVAL) c.tapAt }

/-- The state in which a lane's tap stands at another setting, with the delay that the tap table gives for it. -/
def State.tapSet (s : State) (l fine tap : Nat) : State :=
  ((s.tapTimed l).wr P.CAL_TXFD l tap).wr P.CAL_DTX l (s.tapMoved l fine (s.rd P.CAL_TXFD l) tap)

/-- The state in which a lane's tap stands at the end of its line, with the measured delay in force. -/
def State.tapEnded (s : State) (l d : Nat) : State := ((s.tapTimed l).orIn P.CAL_FLAGS 0 2).wr P.CAL_DTX l d

theorem State.tapTimed_only (s : State) (l : Nat) : Only (some [F.cal]) s (s.tapTimed l) := State.setCal_only ..

theorem State.tapTimed_tapAt (s : State) (l : Nat) :
    look l 0 (s.tapTimed l).cal.tapAt = s.clock + 1000000 * s.rd P.CAL_TAP_INTERVAL := look_store_self ..

theorem State.tapSet_setting (s : State) (l fine tap : Nat) : (s.tapSet l fine tap).rd P.CAL_TXFD l = tap := by
  rw [State.tapSet, State.rd_wr_base _ (by decide), State.rd_wr_self]

theorem State.tapSet_delay (s : State) (l fine tap : Nat) :
    (s.tapSet l fine tap).rd P.CAL_DTX l = s.tapMoved l fine (s.rd P.CAL_TXFD l) tap := State.rd_wr_self ..

theorem State.tapEnded_setting (s : State) (l d : Nat) : (s.tapEnded l d).rd P.CAL_TXFD l = s.rd P.CAL_TXFD l := by
  rw [State.tapEnded, State.rd_wr_base _ (by decide), State.orIn, State.rd_wr_base _ (by decide)]
  rfl

theorem State.tapEnded_flag (s : State) (l d : Nat) : ((s.tapEnded l d).rd P.CAL_FLAGS).testBit 1 = true := by
  rw [State.tapEnded, State.rd_wr_base _ (by decide), State.orIn, State.rd_wr_self, Nat.testBit_or,
    show (2 : Nat).testBit 1 = true from rfl, Bool.or_true]

/-- A step of a lane that is UP, off its target, and due. -/
theorem exec_tapStep_due (htarget : (s.cal.target.find? fun x => x.1 == lane.val) = some (lane.val, target))
    (hdue : look lane.val 0 s.cal.tapAt ≤ s.clock) (hup : s.laneState lane.val = 5) (hcal : s.calUp = true)
    (hoff : dtxPs now frac ≠ target) : exec (.tapStep lane now frac) s =
      if (target < dtxPs now frac ∧ s.rd P.CAL_TXFD lane.val = 0) ∨ (dtxPs now frac < target ∧ s.rd P.CAL_TXFD lane.val = 511) then
        .next (s.tapEnded lane.val (dtxPs now frac))
      else .next (s.tapSet lane.val (dtxFine now frac)
        (if target < dtxPs now frac then s.rd P.CAL_TXFD lane.val - 1 else s.rd P.CAL_TXFD lane.val + 1)) := by
  show execTapStep lane now frac s = _
  unfold execTapStep
  dsimp only
  rw [htarget]
  exact if_neg (by simp [Nat.not_lt.mpr hdue, hup, hoff, hcal])

theorem exec_tapStep_idle (h : (s.cal.target.find? fun x => x.1 == lane.val) = none ∨
    (s.cal.target.find? fun x => x.1 == lane.val) = some (lane.val, dtxPs now frac) ∨ s.clock < look lane.val 0 s.cal.tapAt ∨
    s.laneState lane.val ≠ 5 ∨ s.calUp = false) : exec (.tapStep lane now frac) s = .next s := by
  show execTapStep lane now frac s = _
  unfold execTapStep
  dsimp only
  cases htarget : s.cal.target.find? fun x => x.1 == lane.val with
  | none => rfl
  | some e =>
    refine if_pos ?_
    rw [htarget] at h
    rcases h with h | h | h | h | h
    · cases h
    · exact .inr (.inr (.inl (congrArg Prod.snd (Option.some.inj h)).symm))
    · exact .inl h
    · exact .inr (.inl h)
    · exact .inr (.inr (.inr (by simp [h])))

end

/-! ### TRIM_STEP -/

section
variable {output : Fin 8} {err : Int} {s : State}

/-- The state in which the second to the next step of an output's trim has begun. -/
def State.trimTimed (s : State) (k : Nat) : State :=
  s.setCal fun c => { c with trimAt := store ltNat k 0 (s.clock + 1000000000) c.trimAt }

theorem State.trimTimed_only (s : State) (k : Nat) : Only (some [F.cal]) s (s.trimTimed k) := State.setCal_only ..

theorem State.trimTimed_trimAt (s : State) (k : Nat) : look k 0 (s.trimTimed k).cal.trimAt = s.clock + 1000000000 := by
  rw [State.trimTimed, State.setCal_cal, look_store_self]

/-- A step of an output whose error is 3 ps or more, and due. -/
theorem exec_trimStep_due (hdue : look output.val 0 s.cal.trimAt ≤ s.clock) (herr : 3 ≤ err.natAbs) (hcal : s.calUp = true) :
    exec (.trimStep output err) s =
      if (0 < err ∧ s.rd P.CAL_OUT_TRIM output.val = 0) ∨ (err < 0 ∧ s.rd P.CAL_OUT_TRIM output.val = 255) then
        .next ((s.trimTimed output.val).orIn P.CAL_FLAGS 0 4)
      else .next ((s.trimTimed output.val).wr P.CAL_OUT_TRIM output.val
        (if 0 < err then s.rd P.CAL_OUT_TRIM output.val - 1 else s.rd P.CAL_OUT_TRIM output.val + 1)) :=
  if_neg (by simp [Nat.not_lt.mpr hdue, Nat.not_lt.mpr herr, hcal])

theorem exec_trimStep_idle (h : s.clock < look output.val 0 s.cal.trimAt ∨ err.natAbs < 3 ∨ s.calUp = false) :
    exec (.trimStep output err) s = .next s := if_pos (by simpa using h)

end

/-! ### The obligation -/

/-- Settles O49: a step is due or not, and one that is due ends at the end of the range or moves by one. -/
theorem tapsAndTrimsMoveOneStep : Obligations.TapsAndTrimsMoveOneStep := by
  unfold Obligations.TapsAndTrimsMoveOneStep
  refine ⟨?_, ?_, fun lane now frac s => exec_tapStep_idle, ?_, fun output err s => exec_trimStep_idle⟩
  · intro lane now frac s target htarget hdue hup hcal hoff hlow hhigh
    have hexec := exec_tapStep_due htarget hdue hup hcal hoff
    rw [if_neg (by rintro (⟨hd, h0⟩ | ⟨hd, h511⟩); exacts [hlow hd h0, hhigh hd h511])] at hexec
    refine ⟨_, hexec, ?_, State.tapSet_setting .., s.tapTimed_tapAt lane.val, ((s.tapTimed_only _).mono rfl |>.wr rfl _ _).wr rfl _ _⟩
    rw [State.tapSet_delay, State.tapSet_setting]
  · intro lane now frac s target htarget hdue hup hcal hend
    have hexec := exec_tapStep_due htarget hdue hup hcal (now := now) (frac := frac) (by omega)
    rw [if_pos hend] at hexec
    exact ⟨_, hexec, State.rd_wr_self .., State.tapEnded_setting .., State.tapEnded_flag ..,
      ((s.tapTimed_only _).mono rfl |>.orIn rfl _ _).wr rfl _ _⟩
  · intro output err s hdue herr hcal
    have hexec := exec_trimStep_due hdue herr hcal
    have htimed := (s.trimTimed_only output.val).mono (W := some [F.cal, P.CAL_OUT_TRIM, P.CAL_FLAGS]) rfl
    by_cases hend : (0 < err ∧ s.rd P.CAL_OUT_TRIM output.val = 0) ∨ (err < 0 ∧ s.rd P.CAL_OUT_TRIM output.val = 255)
    · rw [if_pos hend] at hexec
      refine ⟨_, hexec, ?_, fun _ => ⟨?_, ?_⟩, ?_, ?_, htimed.orIn rfl _ _⟩
      · rw [State.orIn, State.wr_cal, State.trimTimed_trimAt]
      · rw [State.orIn, State.rd_wr_base _ (by decide), State.trimTimed, State.setCal_rd]
      · rw [State.orIn, State.rd_wr_self, Nat.testBit_or, show (4 : Nat).testBit 2 = true from rfl, Bool.or_true]
      · intro hpos h0
        omega
      · intro hneg h255
        omega
    · rw [if_neg hend] at hexec
      refine ⟨_, hexec, ?_, fun h => absurd h hend, ?_, ?_, htimed.wr rfl _ _⟩
      · rw [State.wr_cal, State.trimTimed_trimAt]
      · intro hpos _
        rw [State.rd_wr_self, if_pos hpos]
      · intro hneg _
        rw [State.rd_wr_self, if_neg (by omega)]

end Sys2Proof.Machine
end

section
/-! ## Calibration: an automatic item and the wake queue (R215, R430)

The clause on an automatic item that asks for its wake says of the calibration alone that nothing is triggered, waits or runs. It does
not speak of the wake queue: a calibration request that stands there is admitted with the new one, and its item runs too. The state
below holds such a request without listing its item as waiting; it is not claimed to be reachable from reset, but the clause is about
every state. -/

namespace Sys2Proof.Machine

/-- The timing-die items of outputs 4 and 5. -/
def outputItem (k : Nat) : CalItem := ⟨2, k⟩

/-- A module at reset in which output 5 has been calibrated at 30.0 °C and the wake queue holds a request for the item of output 4. -/
def queuedItemState : State :=
  { State.reset with
    cal := { State.reset.cal with tcal := [(outputItem 5, 300)] },
    power := { State.reset.power with queue := [⟨.cal, (outputItem 4).code, 0, none⟩] } }

/-- The state after the sensor of output 5 has moved to 90.0 °C. -/
def bothItemsState : State :=
  match exec (.calAutoTrigger 2 5 900) queuedItemState with
  | .next t => t
  | _ => queuedItemState

theorem queuedItemState_exec : exec (.calAutoTrigger 2 5 900) queuedItemState = .next bothItemsState := rfl

/-- Both requests are admitted, in the order of the queue. -/
theorem bothItemsState_doing : bothItemsState.cal.doing = [outputItem 4, outputItem 5] := by decide

/-- Refutes O48: after the automatic trigger of output 5 the item of output 4 runs as well. -/
theorem not_calibrationRuns : ¬ Obligations.CalibrationRuns := by
  unfold Obligations.CalibrationRuns
  rintro ⟨-, -, -, -, -, -, -, -, -, -, -, -, -, -, -, hask, -, -⟩
  obtain ⟨t, hx, hcal, -⟩ := hask 2 5 900 queuedItemState (outputItem 5) 300 rfl (by decide) (by decide) (by decide) (by decide) rfl rfl
    rfl rfl (by decide)
  obtain rfl := Host.Outcome.next.inj (queuedItemState_exec.symm.trans hx)
  rcases hcal with hcal | hcal
  · cases bothItemsState_doing.symm.trans (congrArg Calibration.doing hcal)
  · cases bothItemsState_doing.symm.trans (congrArg Calibration.doing hcal)

end Sys2Proof.Machine
end

section
/-! ## Event inputs: what an input, an accumulator and an event ring hold after an edge (R196 to R206, R479) -/

namespace Sys2Proof.Machine

/-! ### Elements of a plain list, put in place by the number they carry -/

section
variable {α : Type} {key : α → Nat} {m n : Nat} {x : α}

theorem findBy_put (hx : key x = n) (xs : List α) : findBy key n (dropBy key n xs ++ [x]) = some x := by
  have hnone : findBy key n (dropBy key n xs) = none := List.find?_eq_none.mpr fun y hy => by simpa using (List.mem_filter.mp hy).2
  have happ : findBy key n (dropBy key n xs ++ [x]) = (findBy key n (dropBy key n xs)).or (findBy key n [x]) := List.find?_append
  rw [happ, hnone, Option.none_or]
  exact List.find?_cons_of_pos (by simpa using hx)

theorem findBy_dropBy_other (hmn : m ≠ n) (xs : List α) : findBy key m (dropBy key n xs) = findBy key m xs := by
  unfold findBy dropBy
  rw [List.find?_filter]
  congr 1
  funext y
  by_cases hy : key y = m
  · simp [hy, hmn]
  · simp [hy]

theorem findBy_put_other (hx : key x = n) (hmn : m ≠ n) (xs : List α) :
    findBy key m (dropBy key n xs ++ [x]) = findBy key m xs := by
  have hmiss : findBy key m [x] = none := List.find?_eq_none.mpr fun y hy => by
    simp [List.mem_singleton.mp hy, hx, Ne.symm hmn]
  have happ : findBy key m (dropBy key n xs ++ [x]) = (findBy key m (dropBy key n xs)).or (findBy key m [x]) := List.find?_append
  rw [happ, hmiss, Option.or_none, findBy_dropBy_other hmn]

end

/-! ### The state of an input -/

section
variable {s t : State} {i : Nat}

theorem State.evtInput_num (s : State) (i : Nat) : (s.evtInput i).num = i := by
  unfold State.evtInput
  cases h : findBy EvtInput.num i s.evtInputs with
  | none => rfl
  | some x => exact findBy_key h

theorem State.evtInput_setEvt {f : EvtInput → EvtInput} (hf : ∀ x, (f x).num = x.num) : (s.setEvt i f).evtInput i = f (s.evtInput i) := by
  rw [State.evtInput, State.setEvt_evtInputs, findBy_put ((hf _).trans (s.evtInput_num i)), Option.getD_some]

theorem State.evtInput_congr (h : t.evtInputs = s.evtInputs) (i : Nat) : t.evtInput i = s.evtInput i := by
  rw [State.evtInput, h, State.evtInput]

end

/-! ### Accumulators -/

section
variable {s t : State} {i k : Nat}

theorem State.acc_num (s : State) (k : Nat) : (s.acc k).num = k := by
  unfold State.acc
  cases h : findBy EvtAcc.num k s.evtAccs with
  | none => rfl
  | some x => exact findBy_key h

theorem State.acc_congr (h : t.evtAccs = s.evtAccs) (k : Nat) : t.acc k = s.acc k := by rw [State.acc, h, State.acc]

theorem State.acc_setAcc {x : EvtAcc} (hx : x.num = k) : (s.setAcc x).acc k = x := by
  rw [State.acc, State.setAcc_evtAccs, hx, findBy_put hx, Option.getD_some]

theorem State.acc_setAcc_other {x : EvtAcc} (hk : k ≠ x.num) : (s.setAcc x).acc k = s.acc k := by
  rw [State.acc, State.setAcc_evtAccs, findBy_put_other rfl hk, State.acc]

theorem EvtAcc.take_num (a : EvtAcc) (n : Nat) (x : Int) : (a.take n x).num = a.num := by
  unfold EvtAcc.take
  split <;> rfl

theorem EvtAcc.settle_num (n : Nat) (win now : Int) (later : Bool) (xs : List Int) :
    ∀ a : EvtAcc, (a.settle n win now later xs).num = a.num := by
  induction xs with
  | nil => exact fun _ => rfl
  | cons x xs ih =>
    intro a
    unfold EvtAcc.settle
    split
    · split
      · rw [ih, EvtAcc.take_num]
      · split
        · rw [ih]
        · rw [ih]
    · rw [ih]

/-- What an accumulator of intervals is after an edge of its input at an instant (R204). -/
def EvtAcc.interval (a : EvtAcc) (n : Nat) (t : Int) : EvtAcc :=
  { (match a.prev with | some x => a.take n (t - x) | none => a) with prev := some t }

theorem EvtAcc.interval_num (a : EvtAcc) (n : Nat) (t : Int) : (a.interval n t).num = a.num := by
  unfold EvtAcc.interval
  cases a.prev with
  | none => rfl
  | some x => exact a.take_num n _

/-- An edge enters an accumulator in its own place, or changes nothing. -/
theorem State.accEdge_cases (s : State) (i : Nat) (t : Int) (k : Nat) : s.accEdge i t k = s ∨ ∃ x : EvtAcc, x.num = k ∧ s.accEdge i t k = s.setAcc x := by
  have hnum := s.acc_num k
  unfold State.accEdge
  dsimp only
  split
  · exact .inl rfl
  · split
    · split
      · refine .inr ⟨_, ?_, rfl⟩
        exact ((s.acc k).interval_num (s.rd P.EVT_ACC_N k) t).trans hnum
      · exact .inl rfl
    · refine .inr ⟨_, ?_, rfl⟩
      dsimp only
      split
      · rw [EvtAcc.settle_num]
        split <;> split <;> exact hnum
      · split <;> split <;> exact hnum
    · split
      · exact .inr ⟨_, (EvtAcc.take_num ..).trans hnum, rfl⟩
      · exact .inl rfl
    · exact .inl rfl

theorem State.accEdge_other (t : Int) {j : Nat} (hjk : j ≠ k) : (s.accEdge i t k).acc j = s.acc j := by
  obtain h | ⟨x, rfl, h⟩ := s.accEdge_cases i t k
  · rw [h]
  · rw [h, State.acc_setAcc_other hjk]

/-- An accumulator takes the intervals of input `i`: it is in mode 1 with that input, has not all its samples, and master 6 runs. -/
structure State.TakesIntervals (s : State) (i k : Nat) : Prop where
  mode : s.rd P.EVT_ACC_MODE k = 1
  input : s.rd P.EVT_ACC_A k = i
  goes : (s.acc k).done = false
  master : s.frozenMaster 6 = false

theorem State.accEdge_interval (h : s.TakesIntervals i k) (t : Int) :
    (s.accEdge i t k).acc k = (s.acc k).interval (s.rd P.EVT_ACC_N k) t := by
  have hset : s.accEdge i t k = s.setAcc ((s.acc k).interval (s.rd P.EVT_ACC_N k) t) := by
    unfold State.accEdge
    simp only [h.mode, h.input, h.goes, h.master, Bool.or_self, Bool.false_eq_true, if_false, beq_self_eq_true, if_true]
    rfl
  rw [hset, State.acc_setAcc (((s.acc k).interval_num _ _).trans (s.acc_num k))]

theorem State.TakesIntervals.congr {W : Option (List Nat)} (h : s.TakesIntervals i k) (g : Only W s t) (hmode : allows W P.EVT_ACC_MODE = false)
    (hinput : allows W P.EVT_ACC_A = false) (hfrozen : allows W P.SPD_FROZEN = false) (hacc : t.acc k = s.acc k) : t.TakesIntervals i k where
  mode := (g.rd _ _ (by decide) hmode).trans h.mode
  input := (g.rd _ _ (by decide) hinput).trans h.input
  goes := by rw [hacc, h.goes]
  master := by rw [State.frozenMaster, g.rd _ _ (by decide) hfrozen, ← State.frozenMaster, h.master]

/-- The state in which an edge has entered the accumulators of a list, in order. -/
def State.accEdges (s : State) (i : Nat) (t : Int) (ks : List Nat) : State := ks.foldl (fun u k => u.accEdge i t k) s

theorem State.accEdges_only (s : State) (i : Nat) (t : Int) (ks : List Nat) : Only (some [F.evtAccs]) s (s.accEdges i t ks) :=
  Only.fold _ _ (fun u k => State.accEdge_only u i t k) (.refl _ s)

theorem State.accEdges_other (t : Int) {ks : List Nat} (hk : k ∉ ks) : (s.accEdges i t ks).acc k = s.acc k := by
  induction ks generalizing s with
  | nil => rfl
  | cons j ks ih =>
    exact (ih (s := s.accEdge i t j) (List.not_mem_of_not_mem_cons hk)).trans (State.accEdge_other t (List.ne_of_not_mem_cons hk))

theorem State.accEdges_interval (h : s.TakesIntervals i k) (t : Int) {ks : List Nat} (hks : ks.Nodup) (hk : k ∈ ks) :
    (s.accEdges i t ks).acc k = (s.acc k).interval (s.rd P.EVT_ACC_N k) t := by
  induction ks generalizing s with
  | nil => cases hk
  | cons j ks ih =>
    obtain ⟨hj, hnodup⟩ := List.nodup_cons.mp hks
    show ((s.accEdge i t j).accEdges i t ks).acc k = _
    rcases List.mem_cons.mp hk with rfl | hmem
    · rw [State.accEdges_other t hj, State.accEdge_interval h]
    · have honly := State.accEdge_only s i t j
      have hother : (s.accEdge i t j).acc k = s.acc k := State.accEdge_other t fun e => hj (e ▸ hmem)
      rw [ih (h.congr honly rfl rfl rfl hother) hnodup hmem, hother, honly.rd _ _ (by decide) rfl]

/-- The edges whose window has passed are settled in an accumulator in place (R205). -/
theorem State.accSettle_acc (s : State) (k : Nat) : (s.accSettle k).acc k =
    if (s.acc k).done = true ∨ s.frozenMaster 6 = true ∨ s.rd P.EVT_ACC_MODE k ≠ 2 then s.acc k
    else (s.acc k).settle (s.rd P.EVT_ACC_N k) (s.rd P.EVT_PAIR_WIN * 1000000 : Nat) (s.modNs * 1000 : Nat) false (s.acc k).edgesA := by
  unfold State.accSettle
  dsimp only
  split
  · rfl
  · exact State.acc_setAcc ((EvtAcc.settle_num ..).trans (s.acc_num k))

end

/-! ### Event rings -/

section
variable {s : State} {n type slots : Nat} {body : List Byte} {r : Ring}

theorem State.ring_congr {s t : State} (h : t.rings = s.rings) (g : Nat) : t.ring g = s.ring g := by rw [State.ring, h, State.ring]

theorem State.ring_setRing (g : Nat) {f : Ring → Ring} (hf : ∀ x, (f x).g = x.g) : (s.setRing g f).ring g = (s.ring g).map f :=
  findBy_updBy Ring.g g f hf s.rings

theorem State.ring_writeIndex (g index : Nat) : (s.writeIndex g index).ring g = (s.ring g).map fun r => { r with moved := true } := by
  unfold State.writeIndex
  rw [State.ring_setRing g (by intro _; rfl)]
  split <;> rfl

/-- A record is written where its ring is active, the link is up, and the slots before the ring's end have room for it. -/
theorem State.evtRing_written (hr : s.ring (144 + n) = some r) (hactive : s.rd P.HST_RING_STATE (144 + n) = 1) (hup : s.linkUp = true)
    (hslots : ceilDiv (4 + body.length) 16 = slots) (hleft : slots ≤ r.size - r.prod % r.size)
    (hroom : inUse r.prod r.cons + slots ≤ r.size) : (s.evtRing n type body).2 = true ∧
      (s.evtRing n type body).1.ring (144 + n) = some { r with prod := advance r.prod slots, moved := true } := by
  have hwritten : s.evtRing n type body = (((s.putEntry r (advance r.prod 0) slots (ringEntry type slots body)).setRing (144 + n)
      fun x => { x with prod := advance r.prod (0 + slots) }).writeIndex (144 + n) (advance r.prod (0 + slots)), true) := by
    unfold State.evtRing
    dsimp only
    rw [hr]
    dsimp only
    rw [if_neg (by simp [hactive, hup]), hslots, if_neg (Nat.not_lt.mpr hleft), if_neg (by omega), if_pos rfl]
  rw [hwritten]
  refine ⟨rfl, ?_⟩
  rw [State.ring_writeIndex, State.ring_setRing _ (by intro _; rfl), State.ring_congr ((State.putEntry_only ..).rings rfl), hr, Nat.zero_add]
  rfl

end

end Sys2Proof.Machine
end

section
/-! ## Event inputs: an edge stamped, missed or only seen (R196 to R200, R204) -/

namespace Sys2Proof.Machine

@[simp] theorem counterIndex_evtCount (i : Nat) : counterIndex P.EVT_COUNT i = none := by simp [counterIndex, counterSet]
@[simp] theorem counterIndex_evtMissed (i : Nat) : counterIndex P.EVT_MISSED i = none := by simp [counterIndex, counterSet]
@[simp] theorem counterIndex_evtOor (i : Nat) : counterIndex P.EVT_OOR i = none := by simp [counterIndex, counterSet]

section
variable {s : State} {i : Nat}

/-! ### The parts of a stamped edge -/

/-- The state in which an edge has been counted and its stamp taken. -/
def State.edgeCounted (s : State) (i : Nat) (ps : Int) : State :=
  (s.count P.EVT_COUNT i).setEvt i fun x => { x with last := some s.clock, stamp := some ps }

/-- The state in which an edge out of the vernier's range has been counted and flagged. -/
def State.edgeRanged (s : State) (i : Nat) (oor : Bool) : State := if oor then (s.count P.EVT_OOR i).orIn P.EVT_FLAGS 0 2 else s

/-- The state in which the record of an edge has gone to event ring `n`, where there is one; a record written takes the missed edges. -/
def State.edgeRecorded (s : State) (i n : Nat) (r : List Byte) : State :=
  if n < 16 then
    (if (s.evtRing n 0 r).2 then (s.evtRing n 0 r).1.setEvt i fun x => { x with missed := 0 } else (s.evtRing n 0 r).1)
  else s

/-- The stamp of an edge with its bound and flags (R200). -/
def State.edgeStamp (s : State) (i tick code : Nat) : Stamp :=
  s.stampOf (s.evtTime i tick code) (s.rd P.EVT_RES i + if code == 512 then 1000 else 0) 0 false

/-- The state in which an edge has been stamped, counted and recorded; its accumulators come next. -/
def State.edgeEntered (s : State) (i : Nat) (rising : Bool) (tick code : Nat) : State :=
  ((s.edgeCounted i (s.evtTime i tick code)).edgeRanged i (code == 512)).edgeRecorded i (s.rd P.EVT_RING i)
    (evtRecord i rising (code == 512) (s.edgeStamp i tick code) (s.evtInput i).missed)

theorem State.takeEdge_eq (s : State) (i : Nat) (rising : Bool) (tick code : Nat) : s.takeEdge i rising tick code =
    ((((s.edgeEntered i rising tick code).accEdges i (s.evtTime i tick code) (List.range 8)).calPulse (if i = 8 then 0 else i + 1)
      (s.edgeStamp i tick code)).tracePulse i (s.evtTime i tick code) ((s.edgeStamp i tick code).flags.testBit 1)) := rfl

theorem State.takeEdge_pulses (rising : Bool) (tick code : Nat) : Only (some [F.cal, F.linkRun, F.tcal, P.TBS_OVER_LIMIT_COUNT])
    ((s.edgeEntered i rising tick code).accEdges i (s.evtTime i tick code) (List.range 8)) (s.takeEdge i rising tick code) := by
  rw [State.takeEdge_eq]
  exact ((State.calPulse_only ..).mono rfl).step (State.tracePulse_only ..) rfl

/-- After an edge has been recorded, its accumulators and the calibrations that use its input take it. -/
theorem State.takeEdge_entered (rising : Bool) (tick code : Nat) : Only (some [F.cal, F.evtAccs, F.linkRun, F.tcal, P.TBS_OVER_LIMIT_COUNT])
    (s.edgeEntered i rising tick code) (s.takeEdge i rising tick code) :=
  ((State.accEdges_only ..).mono rfl).step (State.takeEdge_pulses ..) rfl

theorem State.edgeCounted_only (ps : Int) : Only (some [F.evtInputs, P.EVT_COUNT]) s (s.edgeCounted i ps) :=
  ((Only.refl _ s).count_plain rfl rfl _ _).step (State.setEvt_only ..) rfl

theorem State.edgeRanged_only (oor : Bool) : Only (some [P.EVT_FLAGS, P.EVT_OOR]) s (s.edgeRanged i oor) :=
  .cond _ (((Only.refl _ s).count_plain rfl rfl _ _).orIn rfl _ _) (.refl _ s)

theorem State.edgeRecorded_only (n : Nat) (r : List Byte) : Only (some [F.evtInputs, F.rings, P.HST_EVT_DROP]) s (s.edgeRecorded i n r) := by
  have hring : Only (some [F.evtInputs, F.rings, P.HST_EVT_DROP]) s (s.evtRing n 0 r).1 := (State.evtRing_only s n 0 r).fst.mono rfl
  exact .cond _ (.cond _ (hring.step (State.setEvt_only ..) rfl) hring) (.refl _ s)

theorem State.edgeCounted_evtInput (ps : Int) :
    (s.edgeCounted i ps).evtInput i = { s.evtInput i with last := some s.clock, stamp := some ps } := by
  rw [State.edgeCounted, State.evtInput_setEvt (by intro _; rfl),
    State.evtInput_congr (((Only.refl (some [P.EVT_COUNT]) s).count_plain rfl rfl i 1).evtInputs rfl)]

theorem State.edgeCounted_count (ps : Int) : (s.edgeCounted i ps).rd P.EVT_COUNT i = (s.rd P.EVT_COUNT i + 1) % 2 ^ 48 := by
  rw [State.edgeCounted, State.setEvt_rd, State.count_plain _ _ (by simp), State.rd_wr_self]

/-- The record of an edge leaves of its input all but the missed edges. -/
theorem State.edgeRecorded_evtInput (n : Nat) (r : List Byte) :
    ∃ m, (s.edgeRecorded i n r).evtInput i = { s.evtInput i with missed := m } := by
  have hring : (s.evtRing n 0 r).1.evtInput i = s.evtInput i := State.evtInput_congr ((State.evtRing_only s n 0 r).fst.evtInputs rfl) i
  unfold State.edgeRecorded
  split
  · split
    · exact ⟨0, by rw [State.evtInput_setEvt (by intro _; rfl), hring]⟩
    · exact ⟨_, hring⟩
  · exact ⟨_, rfl⟩

/-- The input of a recorded edge: its stamp and the instant of the edge. -/
theorem State.edgeEntered_evtInput (rising : Bool) (tick code : Nat) : ∃ m, (s.edgeEntered i rising tick code).evtInput i =
    { s.evtInput i with last := some s.clock, stamp := some (s.evtTime i tick code), missed := m } := by
  obtain ⟨m, hm⟩ := State.edgeRecorded_evtInput (s := (s.edgeCounted i (s.evtTime i tick code)).edgeRanged i (code == 512)) (i := i)
    (s.rd P.EVT_RING i) (evtRecord i rising (code == 512) (s.edgeStamp i tick code) (s.evtInput i).missed)
  refine ⟨m, hm.trans ?_⟩
  rw [State.evtInput_congr ((State.edgeRanged_only _).evtInputs rfl), State.edgeCounted_evtInput]

theorem State.edgeEntered_only (rising : Bool) (tick code : Nat) :
    Only (some [F.evtInputs, F.rings, P.EVT_COUNT, P.EVT_FLAGS, P.EVT_OOR, P.HST_EVT_DROP]) s (s.edgeEntered i rising tick code) :=
  (((State.edgeCounted_only _).mono rfl).step (State.edgeRanged_only _) rfl).step (State.edgeRecorded_only ..) rfl

/-! ### What a stamped edge leaves -/

section
variable (rising : Bool) (tick code : Nat)

theorem State.takeEdge_evtInput : ∃ m, (s.takeEdge i rising tick code).evtInput i =
    { s.evtInput i with last := some s.clock, stamp := some (s.evtTime i tick code), missed := m } := by
  obtain ⟨m, hm⟩ := State.edgeEntered_evtInput (s := s) (i := i) rising tick code
  exact ⟨m, (State.evtInput_congr ((State.takeEdge_entered ..).evtInputs rfl) i).trans hm⟩

/-- After the count of the edges out of range come the record, the accumulators and the calibrations. -/
theorem State.takeEdge_ranged : Only (some [F.cal, F.evtAccs, F.evtInputs, F.linkRun, F.rings, F.tcal, P.HST_EVT_DROP, P.TBS_OVER_LIMIT_COUNT])
    ((s.edgeCounted i (s.evtTime i tick code)).edgeRanged i (code == 512)) (s.takeEdge i rising tick code) :=
  ((State.edgeRecorded_only ..).mono rfl).step (State.takeEdge_entered ..) rfl

theorem State.takeEdge_count : (s.takeEdge i rising tick code).rd P.EVT_COUNT i = (s.rd P.EVT_COUNT i + 1) % 2 ^ 48 := by
  rw [(State.takeEdge_ranged ..).rd _ _ (by decide) rfl, (State.edgeRanged_only _).rd _ _ (by decide) rfl, State.edgeCounted_count]

theorem State.takeEdge_outOfRange : (s.takeEdge i rising tick 512).rd P.EVT_OOR i = (s.rd P.EVT_OOR i + 1) % 2 ^ 48 := by
  rw [(State.takeEdge_ranged ..).rd _ _ (by decide) rfl, State.edgeRanged, if_pos (beq_self_eq_true 512), State.orIn,
    State.rd_wr_base _ (by decide), State.count_plain _ _ (by simp), State.rd_wr_self, (State.edgeCounted_only _).rd _ _ (by decide) rfl]

theorem State.takeEdge_flagged : ((s.takeEdge i rising tick 512).rd P.EVT_FLAGS).testBit 1 = true := by
  rw [(State.takeEdge_ranged ..).rd _ _ (by decide) rfl, State.edgeRanged, if_pos (beq_self_eq_true 512), State.orIn, State.rd_wr_self,
    Nat.testBit_or, show (2 : Nat).testBit 1 = true from rfl, Bool.or_true]

theorem State.takeEdge_inRange (h : code ≠ 512) : (s.takeEdge i rising tick code).rd P.EVT_OOR i = s.rd P.EVT_OOR i := by
  rw [(State.takeEdge_ranged ..).rd _ _ (by decide) rfl, State.edgeRanged, if_neg (by simpa using h),
    (State.edgeCounted_only _).rd _ _ (by decide) rfl]

theorem State.takeEdge_interval {k : Nat} (hk : k < 8) (h : s.TakesIntervals i k) : (s.takeEdge i rising tick code).acc k =
    (s.acc k).interval (s.rd P.EVT_ACC_N k) (s.evtTime i tick code) := by
  have hnoted := State.edgeEntered_only (s := s) (i := i) rising tick code
  have hacc : (s.edgeEntered i rising tick code).acc k = s.acc k := State.acc_congr (hnoted.evtAccs rfl) k
  rw [State.acc_congr ((State.takeEdge_pulses ..).evtAccs rfl),
    State.accEdges_interval (h.congr hnoted rfl rfl rfl hacc) _ List.nodup_range (List.mem_range.mpr hk), hacc,
    hnoted.rd _ _ (by decide) rfl]

theorem evtRecord_length (oor : Bool) (st : Stamp) (missed : Nat) : (evtRecord i rising oor st missed).length = 16 := by
  simp [evtRecord, toBe_length]

/-- A stamped edge of an input whose ring has room for a record of two slots. -/
theorem State.takeEdge_recorded {n : Nat} {r : Ring} (hn : s.rd P.EVT_RING i = n) (h16 : n < 16) (hr : s.ring (144 + n) = some r)
    (hactive : s.rd P.HST_RING_STATE (144 + n) = 1) (hup : s.linkUp = true) (hleft : 2 ≤ r.size - r.prod % r.size)
    (hroom : inUse r.prod r.cons + 2 ≤ r.size) :
    (s.takeEdge i rising tick code).ring (144 + n) = some { r with prod := advance r.prod 2, moved := true } ∧
      ((s.takeEdge i rising tick code).evtInput i).missed = 0 := by
  have hbefore : Only (some [F.evtInputs, P.EVT_COUNT, P.EVT_FLAGS, P.EVT_OOR]) s
      ((s.edgeCounted i (s.evtTime i tick code)).edgeRanged i (code == 512)) :=
    ((State.edgeCounted_only _).mono rfl).step (State.edgeRanged_only _) rfl
  obtain ⟨hwritten, hring⟩ := State.evtRing_written (type := 0)
    (body := evtRecord i rising (code == 512) (s.edgeStamp i tick code) (s.evtInput i).missed) (slots := 2)
    ((State.ring_congr (hbefore.rings rfl) _).trans hr) ((hbefore.rd _ _ (by decide) rfl).trans hactive)
    (by rw [State.linkUp, hbefore.rd _ _ (by decide) rfl, ← State.linkUp, hup]) (by rw [evtRecord_length]; rfl) hleft hroom
  have hnoted : s.edgeEntered i rising tick code = (((s.edgeCounted i (s.evtTime i tick code)).edgeRanged i (code == 512)).evtRing n 0
      (evtRecord i rising (code == 512) (s.edgeStamp i tick code) (s.evtInput i).missed)).1.setEvt i fun x => { x with missed := 0 } := by
    rw [State.edgeEntered, State.edgeRecorded, hn, if_pos h16, if_pos hwritten]
  constructor
  · rw [State.ring_congr ((State.takeEdge_entered ..).rings rfl), hnoted]
    exact hring
  · rw [State.evtInput_congr ((State.takeEdge_entered ..).evtInputs rfl), hnoted, State.evtInput_setEvt (by intro _; rfl)]

end

/-! ### EVT_EDGE -/

/-- The state in which an input has seen an edge. -/
def State.edgeSeen (s : State) (i : Nat) : State := s.setEvt i fun x => { x with seen := some s.clock }

theorem State.edgeSeen_only (s : State) (i : Nat) : Only (some [F.evtInputs]) s (s.edgeSeen i) := State.setEvt_only ..

theorem State.edgeSeen_evtInput (s : State) (i : Nat) : (s.edgeSeen i).evtInput i = { s.evtInput i with seen := some s.clock } :=
  State.evtInput_setEvt (by intro _; rfl)

/-- Whether an edge now comes in the dead time after the last stamped one (R196). -/
def State.edgeDead (s : State) (i : Nat) : Bool :=
  match (s.evtInput i).last with
  | some c => decide (s.clock < c + 1250)
  | none => false

theorem State.edgeDead_some {c : Nat} (hlast : (s.evtInput i).last = some c) (h : s.clock < c + 1250) : s.edgeDead i = true := by
  rw [State.edgeDead, hlast]
  exact decide_eq_true h

theorem State.edgeDead_free (hfree : ∀ c, (s.evtInput i).last = some c → c + 1250 ≤ s.clock) : s.edgeDead i = false := by
  unfold State.edgeDead
  cases hlast : (s.evtInput i).last with
  | none => rfl
  | some c => exact decide_eq_false (Nat.not_lt.mpr (hfree c hlast))

section
variable {input : Fin 9} {rising : Bool} {tick : Nat} {code : Fin 513}

theorem exec_evtEdge_unseen (h : s.evtTakes input.val rising = false) :
    exec (.evtEdge input rising tick code) s = .next (s.edgeSeen input.val) := by
  show execEvtEdge input rising tick code s = _
  unfold execEvtEdge
  dsimp only
  rw [if_pos (by simp [h])]
  rfl

/-- An edge that its input takes comes within the dead time of the last stamped one, or is stamped. -/
theorem exec_evtEdge_taken (h : s.evtTakes input.val rising = true) : exec (.evtEdge input rising tick code) s =
    .next (if s.edgeDead input.val = true then (s.edgeSeen input.val).missEdge input.val
      else (s.edgeSeen input.val).takeEdge input.val rising tick code.val) := by
  show execEvtEdge input rising tick code s = _
  unfold execEvtEdge
  dsimp only
  rw [if_neg (by simp [h])]
  rfl

theorem exec_evtEdge_stamped (h : s.evtTakes input.val rising = true)
    (hfree : ∀ c, (s.evtInput input.val).last = some c → c + 1250 ≤ s.clock) :
    exec (.evtEdge input rising tick code) s = .next ((s.edgeSeen input.val).takeEdge input.val rising tick code.val) := by
  rw [exec_evtEdge_taken h, if_neg (by simp [State.edgeDead_free hfree])]

theorem exec_evtEdge_missed {c : Nat} (h : s.evtTakes input.val rising = true) (hlast : (s.evtInput input.val).last = some c)
    (hdead : s.clock < c + 1250) : exec (.evtEdge input rising tick code) s = .next ((s.edgeSeen input.val).missEdge input.val) := by
  rw [exec_evtEdge_taken h, if_pos (State.edgeDead_some hlast hdead)]

end

/-! ### A missed edge -/

/-- The state in which a missed edge has been counted; its accumulators come next. -/
def State.missCounted (s : State) (i : Nat) : State := (s.count P.EVT_MISSED i).setEvt i fun x => { x with missed := x.missed + 1 }

theorem State.missEdge_counted : Only (some [F.evtAccs]) (s.missCounted i) (s.missEdge i) :=
  Only.fold _ _ (fun u k => State.accMissed_only u i k) (.refl _ _)

theorem State.missEdge_count : (s.missEdge i).rd P.EVT_MISSED i = (s.rd P.EVT_MISSED i + 1) % 2 ^ 48 := by
  rw [State.missEdge_counted.rd _ _ (by decide) rfl, State.missCounted, State.setEvt_rd, State.count_plain _ _ (by simp), State.rd_wr_self]

theorem State.missEdge_evtInput : (s.missEdge i).evtInput i = { s.evtInput i with missed := (s.evtInput i).missed + 1 } := by
  rw [State.evtInput_congr (State.missEdge_counted.evtInputs rfl), State.missCounted, State.evtInput_setEvt (by intro _; rfl),
    State.evtInput_congr (((Only.refl (some [P.EVT_MISSED]) s).count_plain rfl rfl i 1).evtInputs rfl)]

end

end Sys2Proof.Machine
end

section
/-! ## Event inputs: statistics, code-density runs, and the change of a vernier unit (R202, R203, R206) -/

namespace Sys2Proof.Machine

/-! ### EVT_STATS -/

section
variable {s t : State} {rq : Request} {x : Session} {k : Nat}

theorem opRow_evtStats : opRow Op.EVT_STATS = some ⟨Op.EVT_STATS, 2, 0, size 4, evtStats⟩ := rfl

theorem exec_evtStats (h : s.taken Op.EVT_STATS rq x) : exec (.evtStats rq) s =
    .next (evtStats (originOf x Op.EVT_STATS rq) rq.payload (s.occupied Op.EVT_STATS rq x)).settle := by
  have hbody := exec_taken_slow (c := .evtStats rq) rfl h opRow_evtStats (by decide) (fastPath_slow rq (by decide) (by decide))
  exact hbody

/-- A settled accumulator depends on the accumulators, the registers and the time alone. -/
theorem State.accSettle_acc_congr (haccs : t.evtAccs = s.evtAccs) (hrd : ∀ b i, t.rd b i = s.rd b i) (htime : t.time = s.time) (k : Nat) :
    (t.accSettle k).acc k = (s.accSettle k).acc k := by
  simp only [State.accSettle_acc, State.acc_congr haccs, State.frozenMaster, State.modNs, hrd, htime]
  exact if_congr .rfl rfl rfl

theorem State.accSettle_occupied (s : State) (op : Nat) (rq : Request) (x : Session) (k : Nat) :
    ((s.occupied op rq x).accSettle k).acc k = (s.accSettle k).acc k :=
  State.accSettle_acc_congr ((s.occupied_only op rq x).evtAccs rfl) (s.occupied_rd op rq x) (s.occupied_time op rq x) k

/-- The state in which an accumulator has been settled, and cleared where that is asked for. -/
def State.accRead (s : State) (k : Nat) (clear : Bool) : State := if clear then (s.accSettle k).setAcc (EvtAcc.blank k) else s.accSettle k

theorem State.accRead_only (clear : Bool) : Only (some [F.evtAccs]) s (s.accRead k clear) :=
  .cond _ ((State.accSettle_only s k).step (State.setAcc_only ..) rfl) (State.accSettle_only s k)

theorem State.accRead_acc (clear : Bool) : (s.accRead k clear).acc k = if clear then EvtAcc.blank k else (s.accSettle k).acc k := by
  unfold State.accRead
  cases clear with
  | true => exact State.acc_setAcc rfl
  | false => rfl

theorem evtStats_figures {o : Origin} {b : List Byte} (hk : beAt 0 1 b ≤ 7) : evtStats o b s =
    (s.accRead (beAt 0 1 b) (bit 0 (beAt 1 1 b))).finish o Status.OK ((s.accSettle (beAt 0 1 b)).statsReply (beAt 0 1 b)) :=
  if_neg (Nat.not_lt.mpr hk)

theorem evtStats_refused {o : Origin} {b : List Byte} (hk : 7 < beAt 0 1 b) : evtStats o b s = s.finish o Status.BAD_VALUE [] :=
  if_pos hk

end

/-! ### CODE_DENSITY_END -/

section
variable {s : State} {f : Nat → Nat}

/-- What an element reads as after a list of values has been written to the elements from `o + k` on. -/
theorem State.rd_writes (b o : Nat) (h : List Nat) : ∀ (k : Nat) (s : State) (j : Nat),
    (((List.range' k h.length).zip h).foldl (fun v x => v.wr b (o + x.1) (f x.2)) s).rd b (o + j) =
      if k ≤ j ∧ j < k + h.length then f (h.getD (j - k) 0) else s.rd b (o + j) := by
  induction h with
  | nil => exact fun k s j => (if_neg (by simp)).symm
  | cons y h ih =>
    intro k s j
    show (((List.range' (k + 1) h.length).zip h).foldl _ (s.wr b (o + k) (f y))).rd b (o + j) = _
    rw [ih]
    simp only [List.length_cons]
    by_cases hj : j = k
    · subst hj
      rw [if_neg (by omega), if_pos (by omega), State.rd_wr_self, Nat.sub_self]
      rfl
    · rw [State.rd_wr_elem _ _ _ (by omega)]
      by_cases hin : k + 1 ≤ j ∧ j < k + 1 + h.length
      · rw [if_pos hin, if_pos (by omega), show j - k = (j - (k + 1)) + 1 by omega, List.getD_cons_succ]
      · rw [if_neg hin, if_neg (by omega)]

/-- The spare unit of an input. -/
def State.spareUnit (s : State) (i : Nat) : Nat := 2 * i + (1 - s.rd P.EVT_LIVE_UNIT i)

/-- The hits of a code-density run by code, one number for each of the 512 codes. -/
def hitTable (hits : List Nat) : List Nat := (hits ++ List.replicate 512 0).take 512

theorem hitTable_length (hits : List Nat) : (hitTable hits).length = 512 := by
  rw [hitTable, List.length_take, List.length_append, List.length_replicate]
  omega

/-- The width register of a code (R202). -/
def codeWidth (total hits : Nat) : Nat := clampU 16 (roundDiv ((hits * 2000000 : Nat) : Int) total).toNat

/-- The state in which the widths of unit `u` have been written. -/
def State.widthsSet (s : State) (u total : Nat) (h : List Nat) : State :=
  ((List.range 512).zip h).foldl (fun v x => v.wr P.EVT_CD_WIDTH (512 * u + x.1) (codeWidth total x.2)) s

theorem State.widthsSet_only (u total : Nat) (h : List Nat) : Only (some [P.EVT_CD_WIDTH]) s (s.widthsSet u total h) :=
  Only.fold _ _ (fun v _ => (Only.refl _ v).wr rfl _ _) (.refl _ s)

theorem State.widthsSet_width {u total c : Nat} {h : List Nat} (hlen : h.length = 512) (hc : c < 512) :
    (s.widthsSet u total h).rd P.EVT_CD_WIDTH (512 * u + c) = codeWidth total (h.getD c 0) := by
  have hread := State.rd_writes (f := codeWidth total) P.EVT_CD_WIDTH (512 * u) h 0 s c
  rw [← List.range_eq_range', hlen] at hread
  rw [State.widthsSet, hread, if_pos (by omega), Nat.sub_zero]

/-- What calibration holds once a spare unit's delay, hits and readiness are noted (R202). -/
def Calibration.unitReady (c : Calibration) (i u delay : Nat) (h : List Nat) : Calibration :=
  { c with evtDelay := Machine.store ltNat u 0 (offLeg 1 i 0 delay) c.evtDelay, hits := Machine.store ltNat u [] h c.hits,
           spare := if c.spare.contains i then c.spare else c.spare ++ [i] }

theorem Calibration.unitReady_spare (c : Calibration) (i u delay : Nat) (h : List Nat) : i ∈ (c.unitReady i u delay h).spare := by
  show i ∈ (if c.spare.contains i then c.spare else c.spare ++ [i])
  split
  · next hmem => exact List.contains_iff_mem.mp hmem
  · exact List.mem_append_right _ (List.mem_singleton_self i)

/-- The state after a good code-density run of the spare unit of input `i`, whose worst INL is `worst` (R202). -/
def State.unitTaken (s : State) (i total used worst rms delay : Nat) (h : List Nat) : State :=
  (((s.widthsSet (s.spareUnit i) total h).wr P.EVT_INL (s.spareUnit i) (clampU 16 (ceilDiv worst (total * used)))).wr
    P.EVT_SS_RMS (s.spareUnit i) rms).setCal fun c => c.unitReady i (s.spareUnit i) delay h

theorem State.unitTaken_cal (i total used worst rms delay : Nat) (h : List Nat) :
    (s.unitTaken i total used worst rms delay h).cal = s.cal.unitReady i (s.spareUnit i) delay h := by
  rw [State.unitTaken, State.setCal_cal, State.wr_cal, State.wr_cal, (State.widthsSet_only ..).cal rfl]

section
variable (i total used worst rms delay : Nat) (h : List Nat)

theorem State.unitTaken_width (hlen : h.length = 512) {c : Nat} (hc : c < 512) :
    (s.unitTaken i total used worst rms delay h).rd P.EVT_CD_WIDTH (512 * s.spareUnit i + c) = codeWidth total (h.getD c 0) := by
  rw [State.unitTaken, State.setCal_rd, State.rd_wr_base _ (by decide), State.rd_wr_base _ (by decide), State.widthsSet_width hlen hc]

theorem State.unitTaken_inl : (s.unitTaken i total used worst rms delay h).rd P.EVT_INL (s.spareUnit i) =
    clampU 16 (ceilDiv worst (total * used)) := by
  rw [State.unitTaken, State.setCal_rd, State.rd_wr_base _ (by decide), State.rd_wr_self]

theorem State.unitTaken_rms : (s.unitTaken i total used worst rms delay h).rd P.EVT_SS_RMS (s.spareUnit i) = rms := by
  rw [State.unitTaken, State.setCal_rd, State.rd_wr_self]

end

/-- A code-density run has every hit, no missing code, few codes out of range and an INL within its limit (R202). -/
structure State.GoodRun (s : State) (h : List Nat) (oor : Nat) : Prop where
  total : h.foldl (· + ·) 0 = 2 ^ s.rd P.EVT_CD_HITS
  codes : ∀ k, k < codesUsed h → h.getD k 0 ≠ 0
  range : oor ≤ 2 ^ (s.rd P.EVT_CD_HITS - 13)
  inl : inlWorst (h.foldl (· + ·) 0) (codesUsed h) h 0 0 0 ≤ s.rd P.EVT_INL_MAX * (h.foldl (· + ·) 0 * codesUsed h)

theorem take_all_ne_zero {h : List Nat} {n : Nat} (hn : ∀ k, k < n → h.getD k 0 ≠ 0) : ((h.take n).all fun x => x != 0) = true := by
  refine List.all_eq_true.mpr fun y hy => ?_
  obtain ⟨k, hk, rfl⟩ := List.mem_iff_getElem.mp hy
  have hlt : k < n ∧ k < h.length := by simpa using hk
  have hne := hn k hlt.1
  rw [List.getD_eq_getElem _ _ hlt.2] at hne
  simpa using hne

section
variable {input : Fin 9} {hits : List Nat} {oor : Nat} {rms : BitVec 16} {delay : BitVec 32}

theorem exec_codeDensityEnd_good (hcal : s.calUp = true) (hshared : s.sharedUp = true) (hgood : s.GoodRun (hitTable hits) oor) :
    exec (.codeDensityEnd input hits oor rms delay) s = .next (s.unitTaken input.val ((hitTable hits).foldl (· + ·) 0)
      (codesUsed (hitTable hits)) (inlWorst ((hitTable hits).foldl (· + ·) 0) (codesUsed (hitTable hits)) (hitTable hits) 0 0 0)
      rms.toNat delay.toNat (hitTable hits)) := by
  show execCodeDensityEnd input hits oor rms delay s = _
  unfold execCodeDensityEnd
  simp only [← hitTable.eq_def]
  rw [if_neg (by simp [hcal, hshared]), if_pos]
  · simp only [State.unitTaken, State.widthsSet, codeWidth, State.spareUnit, Calibration.unitReady]
  · rw [decide_eq_true hgood.total, take_all_ne_zero hgood.codes, decide_eq_true hgood.range, decide_eq_true hgood.inl]
    rfl

theorem exec_codeDensityEnd_bad (hcal : s.calUp = true) (hshared : s.sharedUp = true)
    (hbad : (hitTable hits).foldl (· + ·) 0 ≠ 2 ^ s.rd P.EVT_CD_HITS ∨ 2 ^ (s.rd P.EVT_CD_HITS - 13) < oor) :
    exec (.codeDensityEnd input hits oor rms delay) s = .next ((s.orIn P.EVT_FLAGS 0 1).sticky 4 (s.spareUnit input.val)) := by
  show execCodeDensityEnd input hits oor rms delay s = _
  unfold execCodeDensityEnd
  simp only [← hitTable.eq_def]
  rw [if_neg (by simp [hcal, hshared]), if_neg]
  · rfl
  · rintro hgood
    simp only [Bool.and_eq_true, decide_eq_true_eq] at hgood
    obtain ⟨⟨⟨htotal, -⟩, hrange⟩, -⟩ := hgood
    exact hbad.elim (· htotal) (Nat.not_lt.mpr hrange)

theorem exec_codeDensityEnd_unpowered (h : s.calUp = false ∨ s.sharedUp = false) :
    exec (.codeDensityEnd input hits oor rms delay) s = .next s := by
  show execCodeDensityEnd input hits oor rms delay s = _
  unfold execCodeDensityEnd
  exact if_pos (by simpa using h)

end

theorem State.sticky_flagged (n u : Nat) : (((s.orIn P.EVT_FLAGS 0 1).sticky n u).rd P.EVT_FLAGS).testBit 0 = true := by
  rw [(State.sticky_only ..).rd _ _ (by decide) rfl, State.orIn, State.rd_wr_self, Nat.testBit_or, show (1 : Nat).testBit 0 = true from rfl,
    Bool.or_true]

/-- An event flag with its fault leaves calibration and the widths as they are. -/
theorem State.flagged_only (n u : Nat) : Only (some [F.cmd, F.fault, F.rings, P.CMD_NOTICE_DROP, P.EVT_FLAGS, P.HLT_FAULT_COUNT, P.HLT_STICKY]) s
    ((s.orIn P.EVT_FLAGS 0 1).sticky n u) :=
  ((Only.refl _ s).orIn rfl _ _).step (State.sticky_only ..) rfl

end

/-! ### VERNIER_UNIT_CHANGE -/

section
variable {s : State} {i : Nat} {input : Fin 9}

/-- The state in which the ready spare unit of an input is live; its residual comes next. -/
def State.unitLive (s : State) (i : Nat) : State :=
  ((s.wr P.EVT_LIVE_UNIT i (1 - s.rd P.EVT_LIVE_UNIT i)).setCal fun c => { c with spare := c.spare.erase i }).showEvtDelay i

/-- The state after the change of an input's unit. -/
def State.unitChanged (s : State) (i : Nat) : State :=
  ((s.unitLive i).setCal fun c => { c with base := putItem ⟨1, i⟩ [(s.unitLive i).evtBase i] c.base }).showResidual ⟨1, i⟩

theorem State.unitLive_delay (s : State) (i : Nat) : (s.unitLive i).rd P.CAL_EVT_DELAY i = look (s.spareUnit i) 0 s.cal.evtDelay := by
  rw [State.unitLive, State.showEvtDelay, State.rd_wr_self, State.setCal_rd, State.rd_wr_self]
  rfl

theorem State.unitLive_unit (s : State) (i : Nat) : (s.unitLive i).rd P.EVT_LIVE_UNIT i = 1 - s.rd P.EVT_LIVE_UNIT i := by
  rw [State.unitLive, State.showEvtDelay, State.rd_wr_base _ (by decide), State.setCal_rd, State.rd_wr_self]

theorem State.unitChanged_rd {b : Nat} (hb : 62 ≤ b) (hunit : b = P.EVT_LIVE_UNIT ∨ b = P.CAL_EVT_DELAY) :
    (s.unitChanged i).rd b i = (s.unitLive i).rd b i := by
  rw [State.unitChanged, (State.showResidual_only ..).rd _ _ hb (by rcases hunit with rfl | rfl <;> rfl), State.setCal_rd]

theorem State.unitChanged_spare (s : State) (i : Nat) : (s.unitChanged i).cal.spare = s.cal.spare.erase i := by
  rw [State.unitChanged, (State.showResidual_only ..).cal rfl]
  rfl

/-- Whether an input has seen no edge for 2 µs (R203). -/
def State.unitQuiet (s : State) (i : Nat) : Bool :=
  match (s.evtInput i).seen with
  | some c => decide (c + 2000 ≤ s.clock)
  | none => true

theorem State.unitQuiet_since (h : ∀ c, (s.evtInput i).seen = some c → c + 2000 ≤ s.clock) : s.unitQuiet i = true := by
  unfold State.unitQuiet
  cases hseen : (s.evtInput i).seen with
  | none => rfl
  | some c => exact decide_eq_true (h c hseen)

theorem State.unitQuiet_seen {c : Nat} (hseen : (s.evtInput i).seen = some c) (h : s.clock < c + 2000) : s.unitQuiet i = false := by
  rw [State.unitQuiet, hseen]
  exact decide_eq_false (Nat.not_le.mpr h)

theorem exec_vernierUnitChange (input : Fin 9) (s : State) : exec (.vernierUnitChange input) s =
    if s.cal.spare.contains input.val ∧ s.unitQuiet input.val then .next (s.unitChanged input.val) else .next s := rfl

end

end Sys2Proof.Machine
end

section
/-! ## Event inputs: what an edge, a statistics request, a code-density run and a unit change do, put together -/

namespace Sys2Proof.Machine

section
variable {s : State} {i : Nat}

theorem State.edgeSeen_evtTime (s : State) (i j tick code : Nat) : (s.edgeSeen j).evtTime i tick code = s.evtTime i tick code := rfl

theorem State.edgeSeen_acc (s : State) (i k : Nat) : (s.edgeSeen i).acc k = s.acc k := State.acc_congr ((s.edgeSeen_only i).evtAccs rfl) k

theorem State.edgeSeen_rd (s : State) (i b j : Nat) : (s.edgeSeen i).rd b j = s.rd b j := State.setEvt_rd ..

theorem State.TakesIntervals.seen {k : Nat} (h : s.TakesIntervals i k) (j : Nat) : (s.edgeSeen j).TakesIntervals i k :=
  h.congr (s.edgeSeen_only j) rfl rfl rfl (s.edgeSeen_acc j k)

/-- A stamped edge touches no count of missed edges. -/
theorem State.takeEdge_missed (rising : Bool) (tick code : Nat) : (s.takeEdge i rising tick code).rd P.EVT_MISSED i = s.rd P.EVT_MISSED i := by
  rw [(State.takeEdge_entered ..).rd _ _ (by decide) rfl, (State.edgeEntered_only ..).rd _ _ (by decide) rfl]

end

/-- The figures that EVT_STATS returns of a settled accumulator. -/
theorem State.statsReply_occupied (s : State) (rq : Request) (x : Session) {k : Nat} {a : EvtAcc} (ha : a = (s.accSettle k).acc k) :
    ((s.occupied Op.EVT_STATS rq x).accSettle k).statsReply k = toBe 1 k ++ toBe 1 (s.rd P.EVT_ACC_MODE k) ++
      toBe 1 (if s.rd P.EVT_ACC_MODE k = 0 then 0 else if a.done = true then 2 else 1) ++ [0] ++ toBe 8 a.n ++
      toBe 8 (raw 64 (if a.n = 0 then 0 else roundDiv (1000 * a.sum) a.n)) ++ toBe 8 (clampU 64 a.sigmaFs) ++ toBe 8 (raw 64 a.least) ++
      toBe 8 (raw 64 a.most) ++ toBe 4 (clampU 32 a.unmatched) ++ toBe 4 (clampU 32 a.missed) := by
  unfold State.statsReply
  dsimp only
  rw [(State.accSettle_only ..).rd _ _ (by decide) rfl, State.occupied_rd, State.accSettle_occupied, ← ha]

/-- Settles O47: an edge is stamped, missed or only seen; statistics are answered; code-density runs and unit changes do as R202 and R203 say. -/
theorem eventInputsStampAndCount : Obligations.EventInputsStampAndCount := by
  unfold Obligations.EventInputsStampAndCount
  refine ⟨?stamped, ?missed, ?unseen, ?statistics, ?badAccumulator, ?goodRun, ?badRun, ?unpowered, ?unitChange, ?unitStays⟩
  case stamped =>
    intro input rising tick code s ps htakes hfree hps
    have hexec := exec_evtEdge_stamped (tick := tick) (code := code) htakes hfree
    obtain ⟨m, hinput⟩ := (s.edgeSeen input.val).takeEdge_evtInput (i := input.val) rising tick code.val
    refine ⟨_, hexec, ?_, ?_, ?_, ?_, ?_, ?_, ?_, ?_, (execEvtEdge_only ..).next _ hexec⟩
    · rw [hinput, hps, State.edgeSeen_evtTime]
    · rw [hinput]
      rfl
    · rw [State.takeEdge_count, State.edgeSeen_rd]
    · rw [State.takeEdge_missed, State.edgeSeen_rd]
    · intro hcode
      rw [hcode]
      exact ⟨by rw [State.takeEdge_outOfRange, State.edgeSeen_rd], State.takeEdge_flagged ..⟩
    · intro hcode
      rw [State.takeEdge_inRange _ _ _ hcode, State.edgeSeen_rd]
    · intro k hk hmode ha hgoes hmaster
      have htakesIntervals : s.TakesIntervals input.val k := ⟨hmode, ha, hgoes, hmaster⟩
      rw [State.takeEdge_interval _ _ _ hk (htakesIntervals.seen _), State.edgeSeen_acc, State.edgeSeen_rd,
        State.edgeSeen_evtTime, ← hps]
      rfl
    · intro n r hn h16 hr hactive hup hleft hroom
      obtain ⟨hring, hmissed⟩ := State.takeEdge_recorded (s := s.edgeSeen input.val) rising tick code.val hn h16 hr hactive hup hleft hroom
      exact ⟨_, hring, rfl, hmissed⟩
  case missed =>
    intro input rising tick code s c htakes hlast hdead
    refine ⟨_, exec_evtEdge_missed htakes hlast hdead, ?_, ?_, ((s.edgeSeen_only input.val).mono rfl).step (State.missEdge_only ..) rfl⟩
    · rw [State.missEdge_count, State.edgeSeen_rd]
    · rw [State.missEdge_evtInput, State.edgeSeen_evtInput]
  case unseen => exact fun _ _ _ _ _ htakes => exec_evtEdge_unseen htakes
  case statistics =>
    intro rq s x k a htaken hk hle ha
    subst hk
    have hbody := evtStats_figures (s := s.occupied Op.EVT_STATS rq x) (o := originOf x Op.EVT_STATS rq) hle
    have hframe := (s.occupied_only Op.EVT_STATS rq x).mono (W := some [F.cmd, F.rings, F.evtAccs, P.CMD_REFUSED_COUNT,
      P.TBS_OVER_LIMIT_COUNT]) rfl
    refine ⟨_, exec_evtStats htaken, ?_, ?_, ?_⟩
    · rw [hbody, State.statsReply_occupied s rq x ha]
      exact State.taken_replied htaken (.of_cmd ((State.accRead_only _).cmd rfl)) _ _
    · rw [hbody, State.acc_congr ((State.finish_only ..).evtAccs rfl), State.accRead_acc, State.accSettle_occupied, ha]
      rfl
    · exact hframe.step (evtStats_only ..) rfl
  case badAccumulator =>
    intro rq s x htaken hk
    have hbody := evtStats_refused (s := s.occupied Op.EVT_STATS rq x) (o := originOf x Op.EVT_STATS rq) hk
    refine ⟨_, exec_evtStats htaken, ?_, ?_⟩
    · rw [hbody]
      exact State.taken_replied htaken (.refl _) _ _
    · rw [hbody]
      exact ((s.occupied_only Op.EVT_STATS rq x).mono rfl).step (State.finish_only ..) rfl
  case goodRun =>
    intro input hits oor rms delay s u total used h hcal hshared hu hh htotal hused hall hcodes hoor hinl
    have hgood : s.GoodRun h oor := by
      rw [htotal] at hall hinl
      rw [hused] at hcodes hinl
      exact ⟨hall, hcodes, hoor, hinl⟩
    subst hu hused htotal hh
    have hexec := exec_codeDensityEnd_good (input := input) (hits := hits) (rms := rms) (delay := delay) hcal hshared hgood
    refine ⟨_, hexec, fun c hc => State.unitTaken_width _ _ _ _ _ _ _ (hitTable_length hits) hc, State.unitTaken_inl ..,
      State.unitTaken_rms .., ?_, ?_, ?_, (execCodeDensityEnd_only ..).next _ hexec⟩
    · rw [State.unitTaken_cal]
      exact look_store_self ..
    · rw [State.unitTaken_cal]
      exact look_store_self ..
    · rw [State.unitTaken_cal]
      exact Calibration.unitReady_spare ..
  case badRun =>
    intro input hits oor rms delay s hcal hshared hbad
    have hexec := exec_codeDensityEnd_bad (input := input) (rms := rms) (delay := delay) hcal hshared hbad
    have honly := s.flagged_only 4 (s.spareUnit input.val)
    exact ⟨_, hexec, State.sticky_flagged .., State.sticky_bit .., honly.cal rfl, fun c => honly.rd _ _ (by decide) rfl,
      (execCodeDensityEnd_only ..).next _ hexec⟩
  case unpowered => exact fun _ _ _ _ _ _ h => exec_codeDensityEnd_unpowered h
  case unitChange =>
    intro input s hspare hquiet
    have hexec := (exec_vernierUnitChange input s).trans
      (if_pos ⟨List.contains_iff_mem.mpr hspare, State.unitQuiet_since hquiet⟩)
    refine ⟨_, hexec, ?_, State.unitChanged_spare .., ?_, (execVernierUnitChange_only ..).next _ hexec⟩
    · rw [State.unitChanged_rd (by decide) (.inl rfl), State.unitLive_unit]
    · rw [State.unitChanged_rd (by decide) (.inr rfl), State.unitLive_delay]
      rfl
  case unitStays =>
    intro input s h
    rw [exec_vernierUnitChange, if_neg]
    rintro ⟨hspare, hquiet⟩
    rcases h with hout | ⟨c, hseen, hc⟩
    · exact hout (List.contains_iff_mem.mp hspare)
    · simp [State.unitQuiet_seen hseen hc] at hquiet

end Sys2Proof.Machine
end

section
/-! ## Fabric: the measured speed, the pace margin and VCORE (R239, R240, R242, R243) -/

namespace Sys2Proof.Machine

section
variable {s : State}

/-! ### STEP_RATE_MEASURE (R239, R240) -/

/-- The steps per ms since the last measurement. -/
def State.stepRate (s : State) : Nat := (s.rd P.FAB_STEP_COUNT - s.fabric.stepMark) * 1000000 / (s.clock - s.fabric.stepAt)

/-- The speedup in thousandths that a step rate gives. -/
def speedupOf (n : Nat) : Nat := clampU 16 (n * 1000 / 781250)

/-- The state in which a step rate has been measured and the margin looked at. -/
def State.rateTaken (s : State) (n : Nat) : State :=
  (((s.setFab fun x => { x with stepMark := s.rd P.FAB_STEP_COUNT, stepAt := s.clock }).wr P.FAB_STEP_RATE 0 (clampU 32 n)).wr
    P.FAB_SPEEDUP 0 (speedupOf n)).marginCheck (speedupOf n)

/-- The state in which the lowest speedup of a running fabric and its value at 25 °C are kept. -/
def State.speedupKept (s : State) (sp cold : Nat) : State :=
  (if sp < s.rd P.FAB_SPEEDUP_LOW then s.wr P.FAB_SPEEDUP_LOW 0 sp else s).wr P.FAB_SPEEDUP_25C 0 cold

theorem exec_stepRateMeasure_early (h : s.clock < s.fabric.stepAt + 1000000) : exec .stepRateMeasure s = .next s := if_pos h

theorem State.fabricRuns_iff : s.fabricRuns = true ↔ s.rd P.FAB_STATE = 2 ∨ s.rd P.FAB_STATE = 3 := by
  simp [State.fabricRuns]

theorem exec_stepRateMeasure_runs (hruns : s.fabricRuns = true) (hdue : s.fabric.stepAt + 1000000 ≤ s.clock) :
    exec .stepRateMeasure s = .next ((s.rateTaken s.stepRate).speedupKept (speedupOf s.stepRate)
      (clampU 16 (roundDiv ((speedupOf s.stepRate * 750000 : Nat) : Int)
        (paceFactor (s.rd P.FAB_PACE) (s.rdS 16 P.HLT_DIE_TEMP 2)).toNat).toNat)) := by
  refine (if_neg (Nat.not_lt.mpr hdue)).trans ?_
  simp only [hruns, if_true]
  rfl

theorem exec_stepRateMeasure_still (hruns : s.fabricRuns = false) (hdue : s.fabric.stepAt + 1000000 ≤ s.clock) :
    exec .stepRateMeasure s = .next (s.rateTaken 0) := by
  refine (if_neg (Nat.not_lt.mpr hdue)).trans ?_
  simp only [hruns, Bool.false_eq_true, if_false]
  rfl

theorem State.marginCheck_marks (sp : Nat) :
    (s.marginCheck sp).fabric.stepMark = s.fabric.stepMark ∧ (s.marginCheck sp).fabric.stepAt = s.fabric.stepAt := by
  unfold State.marginCheck
  dsimp only
  split
  · split <;> exact ⟨rfl, rfl⟩
  · exact ⟨rfl, rfl⟩

/-- A fabric that is not RUNNING has no speedup below the limit (R242). -/
theorem State.marginCheck_lowSince (h : s.rd P.FAB_STATE ≠ 2) (sp : Nat) : (s.marginCheck sp).fabric.lowSince = none := by
  have hruns : (s.rd P.FAB_STATE == 2) = false := beq_eq_false_iff_ne.mpr h
  unfold State.marginCheck
  simp only [hruns, Bool.and_false, Bool.false_eq_true, if_false]
  rfl

theorem State.rateTaken_rd (n b i : Nat) : (s.rateTaken n).rd b i =
    ((s.wr P.FAB_STEP_RATE 0 (clampU 32 n)).wr P.FAB_SPEEDUP 0 (speedupOf n)).rd b i := by
  unfold State.rateTaken State.marginCheck
  dsimp only
  split
  · split <;> rfl
  · rfl

theorem State.rateTaken_only (n : Nat) : Only (some [F.fabric, P.FAB_SPEEDUP, P.FAB_STEP_RATE]) s (s.rateTaken n) :=
  ((((Only.refl _ s).step (State.setFab_only ..) rfl).wr rfl _ _).wr rfl _ _).step (State.marginCheck_only ..) rfl

theorem State.speedupKept_only (sp cold : Nat) : Only (some [P.FAB_SPEEDUP_25C, P.FAB_SPEEDUP_LOW]) s (s.speedupKept sp cold) :=
  (Only.cond _ ((Only.refl _ s).wr rfl _ _) (.refl _ s)).wr rfl _ _

theorem State.speedupKept_low (sp cold : Nat) : (s.speedupKept sp cold).rd P.FAB_SPEEDUP_LOW = min sp (s.rd P.FAB_SPEEDUP_LOW) := by
  rw [State.speedupKept, State.rd_wr_base _ (by decide)]
  split
  case isTrue h => rw [State.rd_wr_self, Nat.min_eq_left h.le]
  case isFalse h => rw [Nat.min_eq_right (Nat.not_lt.mp h)]

/-- Up to 25 °C the speedup stands for itself (R240). -/
theorem speedup_cold {temp : Int} (h : temp ≤ 250) (pace n : Nat) :
    clampU 16 (roundDiv ((speedupOf n * 750000 : Nat) : Int) (paceFactor pace temp).toNat).toNat = speedupOf n := by
  have hfactor : paceFactor pace temp = 750000 := if_pos h
  have hround : roundDiv ((speedupOf n * 750000 : Nat) : Int) 750000 = speedupOf n := by
    unfold roundDiv
    push_cast
    omega
  rw [hfactor]
  exact (congrArg (fun z : Int => clampU 16 z.toNat) hround).trans (Nat.min_eq_left (Nat.min_le_right ..))

/-! ### PACE_MARGIN (R242) -/

/-- The state in which a speedup that has stayed below the margin limit is flagged. -/
def State.marginFlagged (s : State) : State :=
  (s.setFab fun x => { x with armed := false }).orIn P.FAB_FLAGS 0 (1 + 2 * b2n (decide (s.rd P.FAB_SPEEDUP < 1000)))

theorem exec_paceMargin_due {c : Nat} (hlow : s.fabric.lowSince = some c) (harmed : s.fabric.armed = true)
    (hstate : s.rd P.FAB_STATE = 2) (hdue : c + s.rd P.FAB_MARGIN_TIME * 1000000 ≤ s.clock) :
    ∃ data, exec .paceMargin s = .next (s.marginFlagged.notice 2 data) := by
  change ∃ data, execPaceMargin s = _
  unfold execPaceMargin
  rw [hlow]
  exact ⟨_, if_pos ⟨harmed, hstate, hdue⟩⟩

theorem exec_paceMargin_waits (h : s.fabric.armed = false ∨ s.rd P.FAB_STATE ≠ 2 ∨
    (∀ c, s.fabric.lowSince = some c → s.clock < c + s.rd P.FAB_MARGIN_TIME * 1000000)) : exec .paceMargin s = .next s := by
  change execPaceMargin s = _
  unfold execPaceMargin
  split
  case h_1 c hlow =>
    refine if_neg fun ⟨harmed, hstate, hdue⟩ => ?_
    rcases h with h | h | h
    · rw [h] at harmed
      cases harmed
    · exact h hstate
    · exact Nat.not_lt.mpr hdue (h c hlow)
  case h_2 => rfl

theorem State.marginFlagged_low : (s.marginFlagged.rd P.FAB_FLAGS).testBit 0 = true := by
  rw [State.marginFlagged, State.orIn, State.rd_wr_self, Nat.testBit_or]
  cases decide (s.rd P.FAB_SPEEDUP < 1000) <;> exact Bool.or_true _

theorem State.marginFlagged_below (h : s.rd P.FAB_SPEEDUP < 1000) : (s.marginFlagged.rd P.FAB_FLAGS).testBit 1 = true := by
  rw [State.marginFlagged, State.orIn, State.rd_wr_self, Nat.testBit_or, decide_eq_true h]
  exact Bool.or_true _

/-! ### VCORE (R243) -/

/-- The state in which a pace that has differed for 100 ms is flagged. -/
def State.paceFlagged (s : State) : State := (s.setFab fun x => { x with mismatch := none }).orIn P.FAB_FLAGS 0 4

theorem exec_vcoreMismatch_due {c : Nat} (hc : s.fabric.mismatch = some c) (hdue : c + 100000000 ≤ s.clock) :
    exec .vcoreMismatch s = .next (s.paceFlagged.sticky 6 (s.rd P.FAB_VCORE_MEAS)) := by
  change execVcoreMismatch s = _
  unfold execVcoreMismatch
  rw [hc]
  exact if_pos hdue

theorem exec_vcoreMismatch_waits (h : ∀ c, s.fabric.mismatch = some c → s.clock < c + 100000000) :
    exec .vcoreMismatch s = .next s := by
  change execVcoreMismatch s = _
  unfold execVcoreMismatch
  split
  case h_1 c hc => exact if_neg (Nat.not_le.mpr (h c hc))
  case h_2 => rfl

theorem State.paceFlagged_flag : (s.paceFlagged.rd P.FAB_FLAGS).testBit 2 = true := by
  rw [State.paceFlagged, State.orIn, State.rd_wr_self, Nat.testBit_or]
  exact Bool.or_true _

theorem State.paceFlagged_only : Only (some [F.fabric, P.FAB_FLAGS]) s s.paceFlagged :=
  ((Only.refl _ s).step (State.setFab_only ..) rfl).orIn rfl _ _

/-- A measured VCORE writes itself and the pace it stands for. -/
theorem State.vcore_rd (same : Bool) (mv b i : Nat) : (s.vcore same mv).rd b i =
    ((s.wr P.FAB_VCORE_MEAS 0 (clampU 10 mv)).wr P.FAB_PACE_NOW 0 (paceAt mv)).rd b i := by
  unfold State.vcore
  dsimp only
  split <;> rfl

end

/-! ### The obligation -/

/-- Settles O25: a measurement, the margin, a mismatch and a measured VCORE, each by the state in which it comes. -/
theorem fabricSpeedAndPace : Obligations.FabricSpeedAndPace := by
  unfold Obligations.FabricSpeedAndPace
  refine ⟨?runs, ?still, fun s => exec_stepRateMeasure_early, ?margin, fun s => exec_paceMargin_waits, ?mismatch,
    fun s => exec_vcoreMismatch_waits, ?vcore⟩
  case runs =>
    intro s hstate hdue
    have hexec := exec_stepRateMeasure_runs (State.fabricRuns_iff.mpr hstate) hdue
    have hkept := (s.rateTaken s.stepRate).speedupKept_only
    refine ⟨_, s.stepRate, hexec, rfl, ?_, ?_, ?_, fun hcold => ?_, ?_, ?_, (execStepRateMeasure_only s).next _ hexec⟩
    · rw [(hkept ..).rd _ _ (by decide) rfl, State.rateTaken_rd, State.rd_wr_base _ (by decide), State.rd_wr_self]
    · rw [(hkept ..).rd _ _ (by decide) rfl, State.rateTaken_rd, State.rd_wr_self]
      rfl
    · rw [State.speedupKept_low, (State.rateTaken_only _).rd _ _ (by decide) rfl]
      rfl
    · exact (State.rd_wr_self ..).trans (speedup_cold hcold ..)
    · rw [(hkept ..).fabric rfl]
      exact (State.marginCheck_marks _).1
    · rw [(hkept ..).fabric rfl]
      exact (State.marginCheck_marks _).2
  case still =>
    intro s h2 h3 hdue
    have hruns : s.fabricRuns = false := Bool.eq_false_iff.mpr fun h => (State.fabricRuns_iff.mp h).elim h2 h3
    refine ⟨_, exec_stepRateMeasure_still hruns hdue, ?_, ?_, State.marginCheck_lowSince ?_ _, State.rateTaken_only 0⟩
    · rw [State.rateTaken_rd, State.rd_wr_base _ (by decide), State.rd_wr_self]
      rfl
    · rw [State.rateTaken_rd, State.rd_wr_self]
      rfl
    · rw [State.rd_wr_base _ (by decide), State.rd_wr_base _ (by decide)]
      exact h2
  case margin =>
    intro s c hlow harmed hstate hdue
    obtain ⟨data, hexec⟩ := exec_paceMargin_due hlow harmed hstate hdue
    have hnotice := s.marginFlagged.notice_only 2 data
    refine ⟨_, hexec, ?_, fun h => ?_, hnotice.fabric rfl, (execPaceMargin_only s).next _ hexec⟩
    · rw [hnotice.rd _ _ (by decide) rfl]
      exact State.marginFlagged_low
    · rw [hnotice.rd _ _ (by decide) rfl]
      exact State.marginFlagged_below h
  case mismatch =>
    intro s c hc hdue
    have hexec := exec_vcoreMismatch_due hc hdue
    have hsticky := s.paceFlagged.sticky_only 6 (s.rd P.FAB_VCORE_MEAS)
    refine ⟨_, hexec, ?_, State.sticky_bit .., ?_, hsticky.fabric rfl, (execVcoreMismatch_only s).next _ hexec⟩
    · rw [hsticky.rd _ _ (by decide) rfl]
      exact State.paceFlagged_flag
    · rw [State.sticky_counts, State.paceFlagged_only.rd _ _ (by decide) rfl]
  case vcore =>
    intro mv s
    refine ⟨_, rfl, ?_, ?_, State.vcore_only ..⟩
    · rw [State.vcore_rd, State.rd_wr_base _ (by decide), State.rd_wr_self]
      exact Nat.min_eq_left (Nat.le_sub_one_of_lt mv.isLt)
    · rw [State.vcore_rd, State.rd_wr_self]
      rfl

end Sys2Proof.Machine
end

section
/-! ## Fabric: what leaves the cells where they are (R229, R233, R259 to R262, R270 to R275)

Frames leave the module, buffers are given and released, and the sluice chain is evaluated without a cell entering or leaving a
basin or a resequencer. Said once for each operation, so that a drain and a lost gap need only these lemmas. -/

namespace Sys2Proof.Machine

/-- From `s` to `t` the basins and the resequencers hold the same cells, and the end of a drain stays. -/
structure CellsStay (s t : State) : Prop where
  cells : t.fabric.cells = s.fabric.cells
  parked : t.fabric.parked = s.fabric.parked
  drainBy : t.fabric.drainBy = s.fabric.drainBy

/-! ### Composition -/

theorem CellsStay.of_fabric {s t : State} (h : t.fabric = s.fabric) : CellsStay s t := ⟨by rw [h], by rw [h], by rw [h]⟩

theorem CellsStay.refl (s : State) : CellsStay s s := ⟨rfl, rfl, rfl⟩

theorem CellsStay.trans {s t u : State} (h : CellsStay s t) (g : CellsStay t u) : CellsStay s u :=
  ⟨g.cells.trans h.cells, g.parked.trans h.parked, g.drainBy.trans h.drainBy⟩

/-- A further operation, named last to first as the state is written. -/
theorem CellsStay.after {s t u : State} (g : CellsStay t u) (h : CellsStay s t) : CellsStay s u := h.trans g

/-- An operation whose frame leaves out the fabric. -/
theorem CellsStay.only {W : Option (List Nat)} {s t u : State} (h : CellsStay s t) (g : Only W t u)
    (hw : allows W F.fabric = false) : CellsStay s u :=
  h.trans (.of_fabric (g.fabric hw))

theorem CellsStay.of_only {W : Option (List Nat)} {s t : State} (g : Only W s t) (hw : allows W F.fabric = false) : CellsStay s t :=
  .of_fabric (g.fabric hw)

theorem CellsStay.cond {s a b : State} (c : Prop) [Decidable c] (h : CellsStay s a) (g : CellsStay s b) :
    CellsStay s (if c then a else b) := by split <;> assumption

theorem CellsStay.fold {α : Type} {s t : State} (f : State → α → State) (l : List α) (h : ∀ u x, CellsStay u (f u x))
    (g : CellsStay s t) : CellsStay s (l.foldl f t) := by
  induction l generalizing t with
  | nil => exact g
  | cons x l ih => exact ih (g.trans (h t x))

/-- A change of the fabric beside its cells. -/
theorem CellsStay.setFab {s t : State} (h : CellsStay s t) (f : Fabric → Fabric) (hc : (f t.fabric).cells = t.fabric.cells)
    (hp : (f t.fabric).parked = t.fabric.parked) (hd : (f t.fabric).drainBy = t.fabric.drainBy) : CellsStay s (t.setFab f) :=
  h.trans ⟨hc, hp, hd⟩

/-! ### Counts and frames -/

theorem State.count_fabric (s : State) (b i n : Nat) : (s.count b i n).fabric = s.fabric := by
  unfold State.count State.bumpSet
  cases counterIndex b i with
  | none => rfl
  | some c => dsimp only; split <;> [split; skip] <;> rfl

theorem CellsStay.count {s t : State} (h : CellsStay s t) (b i n : Nat) : CellsStay s (t.count b i n) :=
  h.trans (.of_fabric (State.count_fabric ..))

theorem State.setFrame_cellsStay (s : State) (id : Nat) (f : Frame → Frame) : CellsStay s (s.setFrame id f) :=
  .setFab (.refl s) _ rfl rfl rfl

theorem State.retire_cellsStay (s : State) (id : Nat) : CellsStay s (s.retire id) :=
  .cond _ (State.setFrame_cellsStay ..) (.setFab (.refl s) _ rfl rfl rfl)

/-! ### Releases (R271 to R275) -/

theorem State.queueStop_cellsStay (s : State) (o c : Nat) : CellsStay s (s.queueStop o c) :=
  .cond _ (.setFab (.refl s) _ rfl rfl rfl) (.cond _ (.setFab (.refl s) _ rfl rfl rfl) (.refl s))

theorem State.queueBytes_cellsStay (s : State) (c : Copy) (f : Nat → Nat) : CellsStay s (s.queueBytes c f) := by
  unfold State.queueBytes
  split
  · exact .of_fabric rfl
  · exact (State.queueStop_cellsStay ..).after (.of_fabric rfl)

theorem State.freeEntry_cellsStay (s : State) (c : Copy) (agent : Nat) : CellsStay s (s.freeEntry c agent) := by
  unfold State.freeEntry
  extract_lets unlisted taken
  have hunlisted : CellsStay s unlisted := .only (.of_only (s.settleSlot_only c agent) rfl) (State.setQuay_only ..) rfl
  have htaken : CellsStay s taken := hunlisted.trans (State.queueBytes_cellsStay ..)
  exact .cond _ htaken (htaken.only (State.freeUnits_only ..) rfl)

theorem State.quarantine_cellsStay (s : State) (b : Buffer) : CellsStay s (s.quarantine b) := by
  unfold State.quarantine
  extract_lets lost freed released
  have hunlisted : CellsStay s (s.setQuay fun x => { x with buffers := x.buffers.erase b }) := .of_fabric rfl
  have hfreed : CellsStay s freed := hunlisted.only (State.freeUnits_only ..) rfl
  have hreleased : CellsStay s released := .fold _ _ (fun u c => (State.freeEntry_cellsStay ..).after
    (.cond _ ((CellsStay.refl u).count ..) (.refl u))) (hfreed.only (State.noteQuarantine_only ..) rfl)
  exact .cond _ hreleased (hreleased.trans (State.retire_cellsStay ..))

theorem State.releaseBuffer_cellsStay (s : State) (pool index agent : Nat) : CellsStay s (s.releaseBuffer pool index agent) := by
  unfold State.releaseBuffer
  split
  case h_1 b hb =>
    have hfreed : CellsStay s (s.setQuay fun x => { x with buffers := x.buffers.erase b, freed := x.freed ++ [(pool, index)] }) :=
      .of_fabric rfl
    exact .cond _ (State.quarantine_cellsStay ..) (.cond _ (.of_fabric rfl)
      ((hfreed.only (State.freeUnits_only ..) rfl).trans (State.retire_cellsStay ..)))
  case h_2 =>
    exact .cond _ (.refl s) (.cond _ (.of_only (State.noteQuarantine_only ..) rfl) (.of_only (State.doubleFree_only ..) rfl))

theorem State.releaseFrame_cellsStay (s : State) (id agent : Nat) : CellsStay s (s.releaseFrame id agent) := by
  unfold State.releaseFrame
  split
  · exact State.releaseBuffer_cellsStay ..
  · exact .cond _ (.refl s) (State.retire_cellsStay ..)

theorem State.releaseCopy_cellsStay (s : State) (c : Copy) (agent : Nat) : CellsStay s (s.releaseCopy c agent) := by
  refine .cond _ ((State.freeEntry_cellsStay s c agent).trans ?_) (.refl s)
  split
  · exact State.releaseBuffer_cellsStay ..
  · exact State.releaseFrame_cellsStay ..

/-! ### Flow control and the sluice chain (R259 to R262) -/

theorem State.flowNow_cellsStay (s : State) (p c : Nat) (on : Bool) : CellsStay s (s.flowNow p c on) := by
  have hsent : ∀ bs, CellsStay s ((s.stamped p).emit (.frame p bs)) := fun bs => .of_fabric ((s.stamped_only p).fabric rfl)
  exact .cond _ (((hsent _).setFab _ rfl rfl rfl).count ..) (hsent _)

theorem State.sendFlow_cellsStay (s : State) (p c : Nat) (on : Bool) : CellsStay s (s.sendFlow p c on) :=
  .cond _ (.setFab (.refl s) _ rfl rfl rfl) (State.flowNow_cellsStay ..)

theorem State.payFlow_cellsStay (s : State) (p : Nat) : CellsStay s (s.payFlow p) :=
  .fold _ _ (fun _ _ => State.flowNow_cellsStay ..) (.setFab (.refl s) _ rfl rfl rfl)

theorem State.slowOne_cellsStay (s : State) (k : Nat × Nat) : CellsStay s (s.slowOne k) :=
  .cond _ (.setFab (.refl s) _ rfl rfl rfl) (.cond _ (.setFab (.refl s) _ rfl rfl rfl) (.refl s))

theorem State.stopOne_cellsStay (s : State) (j : Nat) : CellsStay s (s.stopOne j) :=
  .cond _ (.setFab (.refl s) _ rfl rfl rfl) (.cond _ (.setFab (.refl s) _ rfl rfl rfl) (.refl s))

theorem State.fifoOne_cellsStay (s : State) (i : Nat) : CellsStay s (s.fifoOne i) :=
  .cond _ (.setFab (.refl s) _ rfl rfl rfl) (.cond _ (.setFab (.refl s) _ rfl rfl rfl) (.refl s))

theorem State.updateOff_cellsStay (s : State) : CellsStay s s.updateOff :=
  .fold _ _ (fun _ _ => State.sendFlow_cellsStay ..) (.fold _ _ (fun _ _ => State.sendFlow_cellsStay ..) (.setFab (.refl s) _ rfl rfl rfl))

theorem State.evaluateSluice_cellsStay (s : State) : CellsStay s s.evaluateSluice := by
  refine .trans ?_ (State.updateOff_cellsStay _)
  exact .fold _ _ State.fifoOne_cellsStay (.fold _ _ State.stopOne_cellsStay (.fold _ _ State.slowOne_cellsStay (.refl s)))

/-! ### Frames discarded by an outlet (R237, R238) -/

theorem State.cutSending_cellsStay (s : State) (f : Frame) (c : Copy) : CellsStay s (s.cutSending f c) := by
  unfold State.cutSending
  split
  case h_1 x hx =>
    have hinserted : CellsStay s (s.inserted x.port { f with data := f.data ++ zeros 4 } x.stamp).1 :=
      .of_only (State.inserted_only ..).fst rfl
    have hsent : ∀ e, CellsStay s ((s.inserted x.port { f with data := f.data ++ zeros 4 } x.stamp).1.emit e) :=
      fun e => hinserted.trans (.of_fabric rfl)
    exact (State.payFlow_cellsStay ..).after ((hsent _).only (State.setGap_only ..) rfl)
  case h_2 => exact .refl s

theorem State.discardAt_cellsStay (s : State) (id o counter : Nat) : CellsStay s (s.discardAt id o counter) := by
  unfold State.discardAt
  split
  · exact .refl s
  · refine .cond _ (State.retire_cellsStay ..) (.trans ?_ (State.retire_cellsStay ..))
    exact .fold _ _ (fun u c => (u.cutSending_cellsStay _ c).trans (State.releaseCopy_cellsStay ..))
      (.only ((CellsStay.refl s).count ..) (State.traceDrop_only ..) rfl)

/-! ### Reassembly (R238, R269, R270) -/

theorem State.growCopies_cellsStay (s : State) (f : Frame) (n : Nat) : CellsStay s (s.growCopies f n) :=
  .cond _ (.fold _ _ (fun u c => (CellsStay.of_only (State.setQuay_only ..) rfl).after (u.queueBytes_cellsStay c _)) (.refl s)) (.refl s)

theorem State.linkCopy_cellsStay (s : State) (f : Frame) (m : Member) : CellsStay s (s.linkCopy f m) := by
  unfold State.linkCopy
  extract_lets c linked
  have hlinked : CellsStay s linked := (State.queueBytes_cellsStay ..).after (.of_only (State.setQuay_only ..) rfl)
  exact .cond _ ((hlinked.count ..).trans (State.releaseCopy_cellsStay ..)) hlinked

theorem State.allocate_cellsStay (s : State) (f : Frame) (got : Nat) : CellsStay s (s.allocate f got) := by
  unfold State.allocate
  have hcopies : CellsStay s (s.copiesFor f).1 := .of_only (s.copiesFor_only f).fst rfl
  generalize s.copiesFor f = copies at hcopies ⊢
  refine .cond _ ((hcopies.count ..).trans (State.retire_cellsStay ..)) ?_
  extract_lets cleared
  have hcleared : CellsStay s cleared := hcopies.only (State.clearFor_only ..) rfl
  split
  · exact hcleared
  · split
    · exact hcleared
    · extract_lets taken held
      have htaken : CellsStay s taken := hcleared.trans (.of_fabric rfl)
      have hheld : CellsStay s held := .only (.cond _ htaken (htaken.count ..)) (State.holdUnits_only ..) rfl
      exact .fold _ _ (fun _ _ => State.linkCopy_cellsStay ..)
        ((hheld.only (State.holdUnits_only ..) rfl).only (State.traceEvent_only ..) rfl)

theorem State.segment_cellsStay (s : State) (k : Nat) (abort : Bool) (g : Seg) (last : Bool) :
    CellsStay s (s.segment k abort g last) := by
  unfold State.segment
  extract_lets o marked
  have hmarked : CellsStay s marked := .cond _ (State.setFrame_cellsStay ..) (.refl s)
  split
  · exact hmarked
  · extract_lets assembled filled grown whole traced
    have hassembled : CellsStay s assembled := hmarked.setFab _ rfl rfl rfl
    have hfilled : CellsStay s filled := .cond _ (hassembled.trans (State.allocate_cellsStay ..)) (hassembled.trans (.of_fabric rfl))
    have hgrown : CellsStay s grown := hfilled.trans (State.growCopies_cellsStay ..)
    have hwhole : CellsStay s whole := hgrown.trans (.of_fabric rfl)
    have htraced : CellsStay s traced := (hwhole.trans (State.growCopies_cellsStay ..)).only (State.traceEvent_only ..) rfl
    exact .cond _ (.cond _ (hgrown.trans (State.discardAt_cellsStay ..)) (.cond _ (htraced.trans (State.retire_cellsStay ..)) htraced)) hgrown

theorem State.segmentsOf_cellsStay (s : State) (k : Nat) (abort : Bool) (l : List Seg) : CellsStay s (s.segmentsOf k abort l) := by
  induction l generalizing s with
  | nil => exact .refl s
  | cons g l ih =>
    refine .cond _ (.trans ?_ (ih _)) (.trans (.trans ?_ (State.segment_cellsStay ..)) (ih _))
    · exact .cond _ (State.discardAt_cellsStay ..) (.refl s)
    · exact .setFab (.refl s) _ rfl rfl rfl

/-- What a resequencer's occupancy changes in the fabric is whether its outlet is in stall (R236). -/
theorem State.reseqOcc_fabric (s : State) (o : Nat) : ∃ stall, (s.reseqOcc o).fabric = { s.fabric with stall := stall } := by
  unfold State.reseqOcc
  extract_lets n noted
  have hnoted : noted.fabric = s.fabric := by
    dsimp only [noted]
    unfold State.peak
    split <;> rfl
  split
  · split
    · exact ⟨s.fabric.stall.erase o, by rw [State.setFab_fabric, hnoted]⟩
    · exact ⟨s.fabric.stall, hnoted⟩
  · split
    · exact ⟨s.fabric.stall ++ [o], by rw [State.count_fabric, State.setFab_fabric, hnoted]⟩
    · exact ⟨s.fabric.stall, hnoted⟩

end Sys2Proof.Machine
end

section
/-! ## Fabric: it starts, drains and goes OFF (R221, R233, R244 to R246) -/

namespace Sys2Proof.Machine

/-- What holds before a pass over `0 … n - 1` and is carried on by each of its turns holds after it. -/
theorem foldl_range_induct {α : Type} {f : α → Nat → α} {holds : Nat → α → Prop} {a : α} (h0 : holds 0 a) :
    ∀ {n : Nat}, (∀ k b, k < n → holds k b → holds (k + 1) (f b k)) → holds n ((List.range n).foldl f a)
  | 0, _ => h0
  | n + 1, h => by
    rw [List.range_succ, List.foldl_append]
    exact h n _ n.lt_succ_self (foldl_range_induct h0 fun k b hk => h k b (hk.trans n.lt_succ_self))

/-! ### FABRIC_ENABLE and FABRIC_DISABLE (R245) -/

theorem opRow_fabricEnable : opRow Op.FABRIC_ENABLE = some ⟨Op.FABRIC_ENABLE, 2, 1, size 0, fabricEnable⟩ := rfl

theorem opRow_fabricDisable : opRow Op.FABRIC_DISABLE = some ⟨Op.FABRIC_DISABLE, 2, 1, size 0, fabricDisable⟩ := rfl

section
variable {s : State} {rq : Request} {x : Session}

theorem exec_fabricEnable (h : s.taken Op.FABRIC_ENABLE rq x) : exec (.fabricEnable rq) s =
    .next (fabricEnable (originOf x Op.FABRIC_ENABLE rq) rq.payload (s.occupied Op.FABRIC_ENABLE rq x)).settle := by
  have hbody := exec_taken_slow (c := .fabricEnable rq) rfl h opRow_fabricEnable (by decide) (fastPath_slow rq (by decide) (by decide))
  exact hbody

theorem exec_fabricDisable (h : s.taken Op.FABRIC_DISABLE rq x) : exec (.fabricDisable rq) s =
    .next (fabricDisable (originOf x Op.FABRIC_DISABLE rq) rq.payload (s.occupied Op.FABRIC_DISABLE rq x)).settle := by
  have hbody := exec_taken_slow (c := .fabricDisable rq) rfl h opRow_fabricDisable (by decide) (fastPath_slow rq (by decide) (by decide))
  exact hbody

end

section
variable {s : State} (o : Origin) (p : List Byte)

theorem fabricEnable_starts (hshutter : s.rd P.PWR_SHUTTER_STATE = 0) (hon : s.rd P.FAB_STATE ≠ 0) (hrests : s.rd P.FAB_STATE ≠ 2)
    (hpace : s.rd P.FAB_PACE_NOW = s.rd P.FAB_PACE) : fabricEnable o p s = s.fabricStart.finish o Status.OK [] := by
  rw [fabricEnable, if_neg (not_not.mpr hshutter), if_neg hrests, if_neg (not_or.mpr ⟨hon, not_not.mpr hpace⟩)]

/-- A FABRIC_ENABLE that starts nothing is answered by the first of its tests that decides (R245). -/
theorem fabricEnable_answers {st : Nat} (h : (s.rd P.PWR_SHUTTER_STATE ≠ 0 ∧ st = Status.SHUTTER_ACTIVE) ∨
    (s.rd P.PWR_SHUTTER_STATE = 0 ∧ s.rd P.FAB_STATE = 2 ∧ st = Status.OK) ∨
    (s.rd P.PWR_SHUTTER_STATE = 0 ∧ s.rd P.FAB_STATE ≠ 2 ∧
      (s.rd P.FAB_STATE = 0 ∨ s.rd P.FAB_PACE_NOW ≠ s.rd P.FAB_PACE) ∧ st = Status.NOT_READY)) :
    fabricEnable o p s = s.finish o st [] := by
  unfold fabricEnable
  rcases h with ⟨hshutter, rfl⟩ | ⟨hshutter, hruns, rfl⟩ | ⟨hshutter, hrests, hbars, rfl⟩
  · rw [if_pos hshutter]
  · rw [if_neg (not_not.mpr hshutter), if_pos hruns]
  · rw [if_neg (not_not.mpr hshutter), if_neg hrests, if_pos hbars]

end

section
variable {s : State}

theorem State.fabricStart_state : s.fabricStart.rd P.FAB_STATE = 2 := by
  unfold State.fabricStart
  split
  · rw [State.setFab_rd, State.rd_wr_base _ (by decide), State.rd_wr_self]
  · rw [State.setFab_rd, State.rd_wr_self]

/-- From DISABLED the step count and every stream number start at 0 (R221, R233). -/
theorem State.fabricStart_anew (h : s.rd P.FAB_STATE = 1) : s.fabricStart.rd P.FAB_STEP_COUNT = 0 ∧
    s.fabricStart.fabric.seqOut = [] ∧ s.fabricStart.fabric.expect = [] := by
  rw [State.fabricStart, if_pos h]
  exact ⟨by rw [State.setFab_rd, State.rd_wr_self], rfl, rfl⟩

/-- From DRAINING they run on (R244). -/
theorem State.fabricStart_onward (h : s.rd P.FAB_STATE ≠ 1) : s.fabricStart.rd P.FAB_STEP_COUNT = s.rd P.FAB_STEP_COUNT ∧
    s.fabricStart.fabric.seqOut = s.fabric.seqOut := by
  rw [State.fabricStart, if_neg h]
  exact ⟨by rw [State.setFab_rd, State.rd_wr_base _ (by decide)], rfl⟩

/-- A RUNNING fabric told to stop drains; any other stays as it is (R245). -/
def State.stopped (s : State) : State := if s.rd P.FAB_STATE = 2 then s.wr P.FAB_STATE 0 3 else s

theorem State.stopped_state : s.stopped.rd P.FAB_STATE = if s.rd P.FAB_STATE = 2 then 3 else s.rd P.FAB_STATE := by
  unfold State.stopped
  split
  · exact State.rd_wr_self ..
  · rfl

theorem State.stopped_steady : Steady s s.stopped := .cond _ ((Steady.refl s).wr ..) (.refl s)

/-! ### DRAIN_COMPLETE (R244) -/

theorem exec_drainComplete_drained (hstate : s.rd P.FAB_STATE = 3) (hdrained : s.drained = true) : exec .drainComplete s =
    .next ((s.holdSettle.wr P.FAB_STATE 0 (if s.rd P.PWR_SHUTTER_STATE = 0 then 1 else 0)).setFab fun x => { x with drainBy := none }) :=
  if_pos ⟨hstate, hdrained⟩

theorem exec_drainComplete_waits (h : s.rd P.FAB_STATE ≠ 3 ∨ s.drained = false) : exec .drainComplete s = .next s :=
  if_neg fun ⟨hstate, hdrained⟩ => h.elim (· hstate) fun hleft => by rw [hleft] at hdrained; cases hdrained

/-! ### SHUTTER_DRAIN_EXPIRY (R244) -/

theorem exec_shutterDrainExpiry_due {e : Nat} (hstate : s.rd P.FAB_STATE = 3) (he : s.fabric.drainBy = some e) (hdue : e ≤ s.clock) :
    exec .shutterDrainExpiry s = .next s.fabricOff := by
  change execShutterDrainExpiry s = _
  unfold execShutterDrainExpiry
  rw [he]
  exact if_pos ⟨hstate, hdue⟩

theorem exec_shutterDrainExpiry_waits (h : s.rd P.FAB_STATE ≠ 3 ∨ ∀ e, s.fabric.drainBy = some e → s.clock < e) :
    exec .shutterDrainExpiry s = .next s := by
  change execShutterDrainExpiry s = _
  unfold execShutterDrainExpiry
  split
  case h_1 e he => exact if_neg fun ⟨hstate, hdue⟩ => h.elim (· hstate) fun hearly => Nat.not_lt.mpr hdue (hearly e he)
  case h_2 => rfl

/-- Basin `j` and the resequencer of outlet `j` show that they are empty. -/
def State.occZero (s : State) (j : Nat) : State := (s.wr P.FAB_BASIN_OCC j 0).wr P.FAB_RESEQ_OCC j 0

/-- The state in which every basin and every resequencer shows that it is empty. -/
def State.occCleared (s : State) : State := (List.range 64).foldl State.occZero s

/-- Whether the basins and the resequencers below `n` show that they are empty. -/
def State.OccZero (s : State) (n : Nat) : Prop := ∀ j, j < n → s.rd P.FAB_BASIN_OCC j = 0 ∧ s.rd P.FAB_RESEQ_OCC j = 0

theorem State.occZero_only (s : State) (j : Nat) : Only (some [P.FAB_BASIN_OCC, P.FAB_RESEQ_OCC]) s (s.occZero j) :=
  ((Only.refl _ s).wr rfl j 0).wr rfl j 0

theorem State.occCleared_fabric (s : State) : s.occCleared.fabric = s.fabric :=
  (Only.fold _ _ State.occZero_only (.refl _ s)).fabric rfl

theorem State.OccZero.turn {k : Nat} (h : s.OccZero k) : (s.occZero k).OccZero (k + 1) := by
  intro j hj
  unfold State.occZero
  rcases Nat.lt_succ_iff_lt_or_eq.mp hj with hlt | rfl
  · rw [State.rd_wr_base _ (by decide), State.rd_wr_elem _ _ _ hlt.ne, State.rd_wr_elem _ _ _ hlt.ne, State.rd_wr_base _ (by decide)]
    exact h j hlt
  · rw [State.rd_wr_base _ (by decide), State.rd_wr_self, State.rd_wr_self]
    exact ⟨rfl, rfl⟩

theorem State.occCleared_occ (s : State) : s.occCleared.OccZero 64 :=
  foldl_range_induct (holds := fun n u => State.OccZero u n) (fun j hj => absurd hj (Nat.not_lt_zero j)) fun _ _ _ h => h.turn

/-- A fabric that goes OFF loses its frames, shows that it is empty, and has the sluice chain looked at again. -/
theorem State.fabricOff_eq (h : s.rd P.FAB_STATE ≠ 0) : ∃ u : State, s.fabricOff = (u.occCleared.wr P.FAB_STATE 0 0).evaluateSluice ∧
    u.fabric.cells = [] ∧ u.fabric.parked = [] ∧ u.fabric.drainBy = none := by
  rw [State.fabricOff, if_neg h]
  exact ⟨_, rfl, rfl, rfl, rfl⟩

end

/-! ### The obligation -/

/-- Settles O23: the requests by the state in which they occupy their session, the ends of a drain by the state in which they come. -/
theorem fabricStartsAndDrains : Obligations.FabricStartsAndDrains := by
  unfold Obligations.FabricStartsAndDrains
  refine ⟨?starts, ?answers, ?disables, ?drained, fun s => exec_drainComplete_waits, ?expires, fun s => exec_shutterDrainExpiry_waits⟩
  case starts =>
    intro rq s x htaken hshutter hon hrests hpace
    have hrd := s.occupied_rd Op.FABRIC_ENABLE rq x
    have hfab := (s.occupied_only Op.FABRIC_ENABLE rq x).fabric rfl
    have hexec := exec_fabricEnable htaken
    rw [fabricEnable_starts _ _ ((hrd ..).trans hshutter) ((hrd ..).trans_ne hon) ((hrd ..).trans_ne hrests)
      ((hrd ..).trans (hpace.trans (hrd ..).symm))] at hexec
    have hreply := (s.occupied Op.FABRIC_ENABLE rq x).fabricStart.finish_only (originOf x Op.FABRIC_ENABLE rq) Status.OK []
    have hstart := (s.occupied Op.FABRIC_ENABLE rq x).fabricStart_only
    refine ⟨_, hexec, ?_, fun h => ?_, fun h => ?_, State.taken_replied htaken (.only (.refl _) hstart rfl) _ _, ?_⟩
    · rw [hreply.rd _ _ (by decide) rfl, State.fabricStart_state]
    · rw [hreply.rd _ _ (by decide) rfl, hreply.fabric rfl]
      exact State.fabricStart_anew ((hrd ..).trans h)
    · rw [hreply.rd _ _ (by decide) rfl, hreply.fabric rfl, ← hrd P.FAB_STEP_COUNT, ← hfab]
      exact State.fabricStart_onward ((hrd ..).trans_ne h)
    · exact (((s.occupied_only ..).mono rfl).step hstart rfl).step hreply rfl
  case answers =>
    intro rq s x st htaken h
    have hrd := s.occupied_rd Op.FABRIC_ENABLE rq x
    have hexec := exec_fabricEnable htaken
    rw [fabricEnable_answers _ _ (by simpa only [hrd] using h)] at hexec
    exact ⟨_, hexec, State.taken_replied htaken (.refl _) _ _, ((s.occupied_only ..).mono rfl).step (State.finish_only ..) rfl⟩
  case disables =>
    intro rq s x htaken
    have hexec := exec_fabricDisable htaken
    refine ⟨_, hexec, ?_, State.taken_replied htaken State.stopped_steady _ _, ((s.occupied_only ..).mono rfl).step (fabricDisable_only ..) rfl⟩
    exact (State.finish_rd _ _ _ _ _ (by decide) (by decide) (by decide)).trans (State.stopped_state.trans (by rw [State.occupied_rd]))
  case drained =>
    intro s hstate hdrained
    have hexec := exec_drainComplete_drained hstate hdrained
    refine ⟨_, hexec, State.rd_wr_self .., ?_, (execDrainComplete_only s).next _ hexec⟩
    rw [State.setFab_fabric, State.wr_fabric, s.holdSettle_only.fabric rfl]
  case expires =>
    intro s e hstate he hdue
    have hexec := exec_shutterDrainExpiry_due hstate he hdue
    obtain ⟨u, hoff, hcells, hparked, hdrainBy⟩ := State.fabricOff_eq (s := s) (by rw [hstate]; decide)
    have hsluice := (u.occCleared.wr P.FAB_STATE 0 0).evaluateSluice_only
    have hstay : CellsStay u (u.occCleared.wr P.FAB_STATE 0 0).evaluateSluice :=
      (State.evaluateSluice_cellsStay _).after (.of_fabric ((State.wr_fabric ..).trans u.occCleared_fabric))
    rw [hoff] at hexec
    refine ⟨_, hexec, ?_, hstay.cells.trans hcells, hstay.parked.trans hparked, hstay.drainBy.trans hdrainBy, fun j hj => ?_,
      (execShutterDrainExpiry_only s).next _ hexec⟩
    · rw [hsluice.rd _ _ (by decide) rfl, State.rd_wr_self]
    · rw [hsluice.rd _ _ (by decide) rfl, hsluice.rd _ _ (by decide) rfl, State.rd_wr_base _ (by decide), State.rd_wr_base _ (by decide)]
      exact u.occCleared_occ j hj

end Sys2Proof.Machine
end

section
/-! ## Fabric: a lost gap is skipped (R234, R237) -/

namespace Sys2Proof.Machine

/-- What an outlet touches when it discards frames. -/
def lossFrame : List Nat := [F.cmd, F.fabric, F.fault, F.hidden, F.pad, F.quay, F.rings, F.txSlots, F.windowAt, P.BUF_DF_AGENT,
  P.BUF_DF_INDEX, P.BUF_DF_POOL, P.BUF_DF_TIME, P.BUF_DOUBLE_FREE, P.BUF_FLAGS, P.BUF_HELD, P.BUF_QUARANTINED, P.BUF_SIGNALS,
  P.CMD_NOTICE_DROP, P.FAB_FAULT_FRAMES, P.HLT_FAULT_COUNT, P.HLT_STICKY, P.HST_RXQ_BYTES, P.OBS_OVF, P.OBS_TRACE_DROP,
  P.OBS_TRACE_HEAD, P.OBS_TRACE_OLDEST, P.PRT_EGQ_BYTES, P.PRT_LINKDOWN_DROP, P.PRT_PFC_TX_XOFF, P.TBS_OVER_LIMIT_COUNT,
  P.TBS_OVW_SKIP, P.TBS_PTP_SKIP, P.TBS_TRAILER_SKIP]

section
variable (s : State) (o : Nat) (c : Cell)

/-! ### The skip -/

/-- The state in which the frame in assembly of the stream that skips is discarded. -/
def State.assemblyLost : State :=
  if look c.stream 0 s.fabric.assembly = 0 then s else s.discardAt (look c.stream 0 s.fabric.assembly - 1) o P.FAB_FAULT_FRAMES

/-- The state in which the stream goes on with the cell. -/
def State.streamMoved : State :=
  (s.assemblyLost o c).setFab fun x => { x with
    expect := store ltNat c.stream 0 c.seq x.expect, assembly := store ltNat c.stream 0 0 x.assembly,
    skipping := if x.skipping.contains c.stream then x.skipping else x.skipping ++ [c.stream],
    quiet := store ltNat o 0 (s.rd P.FAB_STEP_COUNT) x.quiet }

/-- The state in which the parked cells that the stream has passed are discarded. -/
def State.passedLost : State :=
  ((s.streamMoved o c).fabric.parked.filter fun x => x.stream == c.stream && decide (32768 ≤ (s.streamMoved o c).ahead x)).foldl
    (fun u x => (u.setFab fun y => { y with parked := y.parked.erase x }).discardCell x) (s.streamMoved o c)

theorem State.skipTo_eq : s.skipTo o c = ((s.passedLost o c).count P.FAB_RESEQ_SKIPS o).orIn P.FAB_FLAGS 0 16 := rfl

theorem State.streamMoved_only : Only (some lossFrame) s (s.streamMoved o c) :=
  (Only.cond _ (.refl _ s) (State.discardAt_only _ _ _ _ rfl rfl)).step (State.setFab_only ..) rfl

theorem State.passedLost_only : Only (some lossFrame) s (s.passedLost o c) :=
  .fold _ _ (fun u x => ((u.setFab_only _).mono rfl).step (State.discardCell_only _ x) rfl) (s.streamMoved_only o c)

theorem State.skipTo_skips : (s.skipTo o c).rd P.FAB_RESEQ_SKIPS o = (s.rd P.FAB_RESEQ_SKIPS o + 1) % 2 ^ 48 := by
  have hcounter : counterIndex P.FAB_RESEQ_SKIPS o = none := by simp [counterIndex, counterSet]
  rw [State.skipTo_eq, State.orIn, State.rd_wr_base _ (by decide), State.count_plain _ _ hcounter, State.rd_wr_self,
    (s.passedLost_only o c).rd _ _ (by decide) rfl]

theorem State.skipTo_flag : ((s.skipTo o c).rd P.FAB_FLAGS).testBit 4 = true := by
  rw [State.skipTo_eq, State.orIn, State.rd_wr_self, Nat.testBit_or]
  exact Bool.or_true _

theorem State.streamMoved_parked : (s.streamMoved o c).fabric.parked = s.fabric.parked :=
  (CellsStay.cond _ (.refl s) (State.discardAt_cellsStay ..) : CellsStay s (s.assemblyLost o c)).parked

/-- The cell with which the stream goes on is in order. -/
theorem State.streamMoved_ahead : (s.streamMoved o c).ahead c = 0 := by
  have hexpected : (s.streamMoved o c).expected c.stream = c.seq := look_store_self ..
  rw [State.ahead, hexpected, Nat.add_sub_cancel_left]

variable {s c}

/-- The one cell that is parked stays parked. -/
theorem State.skipTo_parked (h : s.fabric.parked = [c]) : (s.skipTo o c).fabric.parked = [c] := by
  have hparked : (s.streamMoved o c).fabric.parked = [c] := (s.streamMoved_parked o c).trans h
  have hpassed : s.passedLost o c = s.streamMoved o c := by
    rw [State.passedLost, hparked, List.filter_cons_of_neg (by rw [State.streamMoved_ahead]; simp)]
    rfl
  rw [State.skipTo_eq, hpassed, State.orIn, State.wr_fabric, State.count_fabric, hparked]

/-! ### What is parked goes on -/

/-- A cell that no parked one follows passes alone (R234). -/
theorem State.pass_alone (h : s.fabric.parked = []) (n : Nat) : (s.pass (n + 1) c).fabric.parked = [] ∧
    look c.stream 0 (s.pass (n + 1) c).fabric.expect = (c.seq + 1) % 65536 := by
  unfold State.pass
  extract_lets k reassembled e moved
  have hparked : moved.fabric.parked = [] := (s.segmentsOf_cellsStay k c.abort c.segs).parked.trans h
  have hnone : (moved.fabric.parked.find? fun x => x.stream == k && x.seq == e) = none := by rw [hparked]; rfl
  rw [hnone]
  exact ⟨hparked, look_store_self ..⟩

/-- What an outlet does with its oldest parked cell once the stream has moved to it. -/
def State.gapResumed (s : State) (o : Nat) (c : Cell) : State :=
  (if (s.prepare c).cellFits c then ((s.prepare c).setFab fun x => { x with parked := x.parked.erase c }).pass 257 c
    else (s.prepare c).enterAllocStall o c).reseqOcc o

theorem State.gapResumed_agrees : Agrees [P.FAB_RESEQ_SKIPS, P.FAB_FLAGS] s (s.gapResumed o c) := by
  have hprepared : Agrees [P.FAB_RESEQ_SKIPS, P.FAB_FLAGS] s (s.prepare c) := (s.prepare_only c).agrees rfl
  refine (hprepared.trans ?_).trans ((State.reseqOcc_only ..).agrees rfl)
  split
  · exact (((s.prepare c).setFab_only _).agrees rfl).trans ((State.pass_only ..).agrees rfl)
  · exact (State.enterAllocStall_only ..).agrees rfl

theorem State.gapResumed_alone (h : s.fabric.parked = [c]) (hfits : (s.prepare c).cellFits c = true) :
    (s.gapResumed o c).fabric.parked = [] ∧ look c.stream 0 (s.gapResumed o c).fabric.expect = (c.seq + 1) % 65536 := by
  have hempty : ((s.prepare c).setFab fun x => { x with parked := x.parked.erase c }).fabric.parked = [] := by
    rw [State.setFab_fabric, (s.prepare_only c).fabric rfl, h]
    exact List.erase_cons_head ..
  obtain ⟨stall, hfabric⟩ := State.reseqOcc_fabric (((s.prepare c).setFab fun x => { x with parked := x.parked.erase c }).pass 257 c) o
  rw [State.gapResumed, if_pos hfits, hfabric]
  exact State.pass_alone hempty 256

end

/-! ### LOST_GAP (R237) -/

section
variable {s : State} {o : Fin 64}

theorem exec_lostGap_due {c : Cell} (hc : (s.fabric.parked.find? fun y => y.outlet == o.val) = some c)
    (hgoes : ((List.range 8).any fun k => s.stopping o.val k) = false)
    (hdue : look o.val 0 s.fabric.quiet + s.rd P.FAB_RESEQ_TIMEOUT ≤ s.rd P.FAB_STEP_COUNT) :
    exec (.lostGap o) s = .next ((s.skipTo o.val c).gapResumed o.val c) := by
  change execLostGap o s = _
  unfold execLostGap
  dsimp only
  rw [hc]
  exact if_pos (by rw [hgoes, decide_eq_true hdue]; rfl)

theorem exec_lostGap_waits (h : (∀ c ∈ s.fabric.parked, c.outlet ≠ o.val) ∨ ((List.range 8).any fun k => s.stopping o.val k) = true ∨
    s.rd P.FAB_STEP_COUNT < look o.val 0 s.fabric.quiet + s.rd P.FAB_RESEQ_TIMEOUT) : exec (.lostGap o) s = .next s := by
  change execLostGap o s = _
  unfold execLostGap
  dsimp only
  split
  case h_1 c hc =>
    refine if_neg fun hgoes => ?_
    obtain ⟨hgoes, hdue⟩ := (Bool.and_eq_true ..).mp hgoes
    rcases h with h | h | h
    · exact h c (List.mem_of_find?_eq_some hc) (by simpa using List.find?_some hc)
    · rw [h] at hgoes
      cases hgoes
    · exact Nat.not_le.mpr h (of_decide_eq_true hdue)
  case h_2 => rfl

end

end Sys2Proof.Machine
end

section
/-! ## Fabric: a step with nothing to move, and with one frame that waits (R221, R222, R224, R225, R227, R247) -/

namespace Sys2Proof.Machine

/-! ### Idle slots (R247) -/

section
variable {s : State}

/-- A counter that counts in the open is raised modulo 2^48, whether it is of the counter set or not (R451, R453). -/
theorem State.count_rd (hopen : s.rd P.OBS_FROZEN = 0) {b : Nat} (hb : b ≠ P.OBS_OVF) (i n j : Nat) :
    (s.count b i n).rd b j = if j = i then (s.rd b i + n) % 2 ^ 48 else s.rd b j := by
  unfold State.count
  cases counterIndex b i with
  | none => simp [State.rd_wr]
  | some c =>
    dsimp only
    rw [if_pos hopen, State.bumpSet]
    split
    · simp [State.rd_wr]
    · rw [State.rd_wr_base _ hb]
      simp [State.rd_wr]

theorem State.slot_idle (b unit : Nat) : s.slot b unit 2 256 = s.count b (4 * unit + 2) 256 := if_neg (by decide)

theorem State.slot_fabric (b unit cat n : Nat) : (s.slot b unit cat n).fabric = s.fabric := by
  unfold State.slot
  split
  · rfl
  · exact State.count_fabric ..

theorem State.slot_idle_rd (hopen : s.rd P.OBS_FROZEN = 0) {b : Nat} (hb : b ≠ P.OBS_OVF) (unit i : Nat) :
    (s.slot b unit 2 256).rd b (4 * i + 2) =
      if unit = i then (s.rd b (4 * i + 2) + 256) % 2 ^ 48 else s.rd b (4 * i + 2) := by
  rw [State.slot_idle, State.count_rd hopen hb]
  by_cases h : unit = i
  · rw [if_pos (by rw [h]), if_pos h, h]
  · rw [if_neg (by omega), if_neg h]

/-- A pass over 64 connections, each of which counts its own line idle, counts every line idle once. -/
theorem foldl_idle_slots {f : State → Nat → State} {keeps : State → Prop} {b : Nat} {line : Nat → Nat}
    (hkeeps : ∀ u k, keeps u → keeps (f u k))
    (hslot : ∀ u k i, keeps u → (f u k).rd b (4 * i + 2) =
      if line k = i then (u.rd b (4 * i + 2) + 256) % 2 ^ 48 else u.rd b (4 * i + 2))
    (hs : keeps s) {i j : Nat} (hj : j < 64) (hline : ∀ k, k < 64 → (line k = i ↔ k = j)) :
    ((List.range 64).foldl f s).rd b (4 * i + 2) = (s.rd b (4 * i + 2) + 256) % 2 ^ 48 := by
  have hpass := foldl_range_induct (f := f) (a := s) (n := 64) (holds := fun n u => keeps u ∧ u.rd b (4 * i + 2) =
    if j < n then (s.rd b (4 * i + 2) + 256) % 2 ^ 48 else s.rd b (4 * i + 2)) ⟨hs, rfl⟩ ?_
  · exact hpass.2.trans (if_pos hj)
  · rintro k u hk ⟨hu, hrd⟩
    refine ⟨hkeeps u k hu, ?_⟩
    rw [hslot u k i hu, hrd]
    by_cases hkj : k = j
    · rw [if_pos ((hline k hk).mpr hkj), if_neg (by omega), if_pos (by omega)]
    · rw [if_neg (mt (hline k hk).mp hkj)]
      exact if_congr (by omega) rfl rfl

end

/-! ### Nothing moves -/

/-- What a step reads of the parameters. -/
def stepReads : List Nat := [P.FAB_STATE, P.FAB_BALANCE_D, P.FAB_BASIN_RESERVE, P.OBS_FROZEN]

/-- From `s` to `t` nothing of the fabric has moved; at most a cell waits no longer for memory. -/
structure Unmoved (s t : State) : Prop where
  fabric : ∃ stalls, t.fabric = { s.fabric with allocStall := stalls }
  reads : Agrees stepReads s t

theorem Unmoved.refl (s : State) : Unmoved s s := ⟨⟨_, rfl⟩, fun _ _ _ => rfl⟩

theorem Unmoved.trans {s t u : State} (h : Unmoved s t) (g : Unmoved t u) : Unmoved s u := by
  obtain ⟨k, hk⟩ := h.fabric
  obtain ⟨l, hl⟩ := g.fabric
  exact ⟨⟨l, by rw [hl, hk]⟩, h.reads.trans g.reads⟩

/-- An operation whose frame leaves out the fabric and what a step reads. -/
theorem Unmoved.only {W : Option (List Nat)} {s t u : State} (h : Unmoved s t) (g : Only W t u) (hw : allows W F.fabric = false)
    (hr : spares W stepReads = true) : Unmoved s u :=
  h.trans ⟨⟨t.fabric.allocStall, g.fabric hw⟩, g.agrees hr⟩

section
variable {s : State}

/-- Where nothing is parked, a cell that waits for memory is at most offered again (R270). -/
theorem State.freeStalled_unmoved (h : s.fabric.parked = []) (o : Nat) (c : Cell) : Unmoved s (s.freeStalled o c) := by
  have hprepared : Unmoved s (s.prepare c) := (Unmoved.refl s).only (s.prepare_only c) rfl rfl
  have hparked : (s.prepare c).fabric.parked = [] := (congrArg Fabric.parked ((s.prepare_only c).fabric rfl)).trans h
  unfold State.freeStalled
  extract_lets prepared freed
  split
  · rw [if_neg (by rw [State.setFab_fabric, hparked]; simp)]
    exact hprepared.trans ⟨⟨_, rfl⟩, fun _ _ _ => rfl⟩
  · exact hprepared

theorem State.leaveAllocStall_unmoved (h : s.fabric.parked = []) (o : Nat) : Unmoved s (s.leaveAllocStall o) := by
  have hfold : ∀ (l : List (Nat × Cell)) (t : State), Unmoved s t → Unmoved s (l.foldl (fun t x => t.freeStalled o x.2) t) := by
    intro l
    induction l with
    | nil => exact fun t ht => ht
    | cons x l ih =>
      intro t ht
      obtain ⟨stalls, hfabric⟩ := ht.fabric
      exact ih _ (ht.trans (State.freeStalled_unmoved (by rw [hfabric]; exact h) o x.2))
  exact hfold _ s (.refl s)

variable (step : Nat) (faults : List (Nat × CellFault))

/-- A basin with no cell leaves its outlet's slot idle (R247). -/
theorem State.stage2_empty (hcells : s.fabric.cells = []) (hparked : s.fabric.parked = []) (j : Nat) : s.stage2 step faults j =
    (s.leaveAllocStall ((j + step) % 64)).slot P.FAB_SLOT_S2 ((j + step) % 64) 2 256 := by
  obtain ⟨stalls, hfabric⟩ := (State.leaveAllocStall_unmoved hparked ((j + step) % 64)).fabric
  have hnone : (s.leaveAllocStall ((j + step) % 64)).fabric.cells = [] := by rw [hfabric]; exact hcells
  unfold State.stage2
  simp only [hnone, List.filter_nil, basinHeads, List.find?_nil, if_true]

/-- An inlet with no frame leaves its slot idle (R247). -/
theorem State.stage1_empty {i : Nat} (h : s.queuedFrames i = []) : s.stage1 step i = s.slot P.FAB_SLOT_S1 i 2 256 := by
  unfold State.stage1
  rw [h]
  exact if_pos rfl

theorem State.slot1_unmoved (unit : Nat) : Unmoved s (s.slot P.FAB_SLOT_S1 unit 2 256) :=
  ⟨⟨_, State.slot_fabric ..⟩, (State.slot_only (W := some [F.hidden, P.FAB_SLOT_S1, P.OBS_OVF]) s _ unit 2 256 rfl rfl rfl).agrees rfl⟩

theorem State.slot2_unmoved (unit : Nat) : Unmoved s (s.slot P.FAB_SLOT_S2 unit 2 256) :=
  ⟨⟨_, State.slot_fabric ..⟩, (State.slot_only (W := some [F.hidden, P.FAB_SLOT_S2, P.OBS_OVF]) s _ unit 2 256 rfl rfl rfl).agrees rfl⟩

theorem State.stage2_unmoved (hcells : s.fabric.cells = []) (hparked : s.fabric.parked = []) (j : Nat) :
    Unmoved s (s.stage2 step faults j) := by
  rw [State.stage2_empty step faults hcells hparked]
  exact (State.leaveAllocStall_unmoved hparked _).trans (State.slot2_unmoved _)

end

/-! ### The two stages -/

/-- Stage 2 of a step, and stage 1 after it. -/
def State.stage2All (s : State) (step : Nat) (faults : List (Nat × CellFault)) : State :=
  (List.range 64).foldl (fun u j => u.stage2 step faults j) s
def State.stage1All (s : State) (step : Nat) : State := (List.range 64).foldl (fun u i => u.stage1 step i) s

/-- The state after a step of a fabric that runs. -/
def State.stepped (s : State) (faults : List (Nat × CellFault)) : State :=
  let t := (s.stage2All (s.rd P.FAB_STEP_COUNT % 64) faults).stage1All (s.rd P.FAB_STEP_COUNT % 64)
  (t.wr P.FAB_STEP_COUNT 0 ((t.rd P.FAB_STEP_COUNT + 1) % 2 ^ 64)).evaluateSluice

section
variable (s : State) (step : Nat) (faults : List (Nat × CellFault))

theorem State.stage2All_agrees : Agrees [P.FAB_STEP_COUNT, P.FAB_SLOT_S1] s (s.stage2All step faults) :=
  (Only.fold _ _ (fun u j => State.stage2_only u step faults j) (.refl _ s)).agrees rfl

theorem State.stage1All_agrees : Agrees [P.FAB_STEP_COUNT, P.FAB_SLOT_S2] s (s.stage1All step) :=
  (Only.fold _ _ (fun u i => State.stage1_only u step i) (.refl _ s)).agrees rfl

theorem State.stepped_count : (s.stepped faults).rd P.FAB_STEP_COUNT = (s.rd P.FAB_STEP_COUNT + 1) % 2 ^ 64 := by
  unfold State.stepped
  extract_lets t
  rw [(State.evaluateSluice_only _).rd _ _ (by decide) rfl, State.rd_wr_self, State.stage1All_agrees _ _ _ (by decide),
    State.stage2All_agrees _ _ _ _ (by decide)]

variable {s}

theorem State.stage2All_unmoved (hcells : s.fabric.cells = []) (hparked : s.fabric.parked = []) :
    Unmoved s (s.stage2All step faults) := by
  refine foldl_range_induct (holds := fun _ u => Unmoved s u) (.refl s) fun k u _ hu => ?_
  obtain ⟨stalls, hfabric⟩ := hu.fabric
  exact hu.trans (State.stage2_unmoved step faults (by rw [hfabric]; exact hcells) (by rw [hfabric]; exact hparked) k)

/-- With no cell anywhere every outlet's slot is idle (R247). -/
theorem State.stage2All_idle (hcells : s.fabric.cells = []) (hparked : s.fabric.parked = []) (hopen : s.rd P.OBS_FROZEN = 0)
    {i : Nat} (hi : i < 64) :
    (s.stage2All step faults).rd P.FAB_SLOT_S2 (4 * i + 2) = (s.rd P.FAB_SLOT_S2 (4 * i + 2) + 256) % 2 ^ 48 := by
  refine foldl_idle_slots (keeps := fun u => Unmoved s u) (line := fun j => (j + step) % 64) (j := (i + 64 - step % 64) % 64)
    (fun u k hu => ?_) (fun u k l hu => ?_) (.refl s) (Nat.mod_lt _ (by decide)) fun k hk => by omega
  all_goals
    obtain ⟨stalls, hfabric⟩ := hu.fabric
    have hcells' : u.fabric.cells = [] := by rw [hfabric]; exact hcells
    have hparked' : u.fabric.parked = [] := by rw [hfabric]; exact hparked
  · exact hu.trans (State.stage2_unmoved step faults hcells' hparked' k)
  · have hleft := State.leaveAllocStall_unmoved hparked' ((k + step) % 64)
    rw [State.stage2_empty step faults hcells' hparked',
      State.slot_idle_rd (((hu.trans hleft).reads _ (by decide) 0).trans hopen) (by decide), (State.leaveAllocStall_only ..).rd _ _ (by decide) rfl]

/-- With no frame waiting every inlet's slot is idle (R247). -/
theorem State.stage1All_idle (hqueued : s.fabric.queued = []) (hopen : s.rd P.OBS_FROZEN = 0) {i : Nat} (hi : i < 64) :
    (s.stage1All step).rd P.FAB_SLOT_S1 (4 * i + 2) = (s.rd P.FAB_SLOT_S1 (4 * i + 2) + 256) % 2 ^ 48 := by
  refine foldl_idle_slots (keeps := fun u => Unmoved s u) (line := id) (j := i)
    (fun u k hu => ?_) (fun u k l hu => ?_) (.refl s) hi fun k _ => Iff.rfl
  all_goals
    obtain ⟨stalls, hfabric⟩ := hu.fabric
    have hnone : u.queuedFrames k = [] := by rw [State.queuedFrames, hfabric]; exact congrArg (List.filterMap _) hqueued
    rw [State.stage1_empty step hnone]
  · exact hu.trans (State.slot1_unmoved k)
  · exact State.slot_idle_rd ((hu.reads _ (by decide) 0).trans hopen) (by decide) k l

theorem State.stepped_idle (hqueued : s.fabric.queued = []) (hcells : s.fabric.cells = []) (hparked : s.fabric.parked = [])
    (hopen : s.rd P.OBS_FROZEN = 0) {i : Nat} (hi : i < 64) :
    (s.stepped faults).rd P.FAB_SLOT_S1 (4 * i + 2) = (s.rd P.FAB_SLOT_S1 (4 * i + 2) + 256) % 2 ^ 48 ∧
    (s.stepped faults).rd P.FAB_SLOT_S2 (4 * i + 2) = (s.rd P.FAB_SLOT_S2 (4 * i + 2) + 256) % 2 ^ 48 := by
  have hstage2 := State.stage2All_unmoved (s.rd P.FAB_STEP_COUNT % 64) faults hcells hparked
  obtain ⟨stalls, hfabric⟩ := hstage2.fabric
  unfold State.stepped
  extract_lets t
  have hframe : ∀ b ∈ [P.FAB_SLOT_S1, P.FAB_SLOT_S2], ∀ j,
      (t.wr P.FAB_STEP_COUNT 0 ((t.rd P.FAB_STEP_COUNT + 1) % 2 ^ 64)).evaluateSluice.rd b j = t.rd b j :=
    ((((Only.refl (some [P.FAB_STEP_COUNT]) t).wr rfl 0 _).agrees rfl).trans ((State.evaluateSluice_only _).agrees rfl))
  rw [hframe _ (by decide), hframe _ (by decide)]
  constructor
  · rw [State.stage1All_idle _ (by rw [hfabric]; exact hqueued) ((hstage2.reads _ (by decide) 0).trans hopen) hi,
      State.stage2All_agrees _ _ _ _ (by decide)]
  · rw [State.stage1All_agrees _ _ _ (by decide), State.stage2All_idle _ _ hcells hparked hopen hi]

end

/-! ### One frame waits (R224 to R227) -/

/-- One ordinary frame waits in an inlet of a RUNNING fabric with no cell in a basin and no basin stopped. -/
structure State.Lone (s : State) (q : Queued) (f : Frame) : Prop where
  runs : s.rd P.FAB_STATE = 2
  queued : s.fabric.queued = [q]
  frame : s.frame q.frame = some f
  cls : f.cls < 8
  ordinary : f.express = false
  cells : s.fabric.cells = []
  sluice : s.fabric.sluice = []
  balance : 0 < s.rd P.FAB_BALANCE_D
  reserve : 0 < s.rd P.FAB_BASIN_RESERVE

section
variable {s t : State} {q : Queued} {f : Frame}

theorem State.Lone.unmoved (h : s.Lone q f) (g : Unmoved s t) : t.Lone q f := by
  obtain ⟨stalls, hfabric⟩ := g.fabric
  have hreads := fun b hb => g.reads b hb 0
  exact {
    runs := (hreads _ (by decide)).trans h.runs
    queued := by rw [hfabric]; exact h.queued
    frame := by rw [State.frame, hfabric]; exact h.frame
    cls := h.cls
    ordinary := h.ordinary
    cells := by rw [hfabric]; exact h.cells
    sluice := by rw [hfabric]; exact h.sluice
    balance := by rw [hreads _ (by decide)]; exact h.balance
    reserve := by rw [hreads _ (by decide)]; exact h.reserve }

theorem Unmoved.queuedFrames (g : Unmoved s t) (i : Nat) : t.queuedFrames i = s.queuedFrames i := by
  obtain ⟨stalls, hfabric⟩ := g.fabric
  unfold State.queuedFrames State.frame
  rw [hfabric]

theorem Unmoved.formCell (g : Unmoved s t) (i j : Nat) (x : Queued × Frame) : t.formCell i j x = s.formCell i j x := by
  obtain ⟨stalls, hfabric⟩ := g.fabric
  unfold State.formCell
  rw [g.queuedFrames, g.reads _ (by decide), hfabric]

/-- An inlet has no frame where every entry of the queues is of one frame of another inlet. -/
theorem State.queuedFrames_elsewhere {id i : Nat} (hall : ∀ y ∈ s.fabric.queued, y.frame = id) (hf : s.frame id = some f)
    (hi : f.inlet ≠ i) : s.queuedFrames i = [] := by
  refine List.filterMap_eq_nil_iff.mpr fun y hy => ?_
  rw [hall y hy, hf]
  exact if_neg hi

theorem takeSegs_frames {segs : List Seg} {qs : List Queued} {id : Nat} (h : ∀ y ∈ qs, y.frame = id) :
    ∀ y ∈ takeSegs segs qs, y.frame = id := by
  intro y hy
  obtain ⟨z, hz, hy⟩ := List.mem_filterMap.mp hy
  split at hy
  · split at hy
    · cases hy
    · cases hy
      exact h z hz
  · cases hy
    exact h _ hz

theorem State.Lone.queuedFrames (h : s.Lone q f) : s.queuedFrames f.inlet = [(q, f)] := by
  rw [State.queuedFrames, h.queued]
  simp [h.frame]

/-- The lone frame is ready for a cell, and neither the sluice nor its balance bars it (R225, R226, R232). -/
theorem State.Lone.ready (h : s.Lone q f) : s.cellReady (q, f) = true := by
  simp [State.cellReady, h.runs, h.ordinary]

theorem State.Lone.free (h : s.Lone q f) (j : Nat) : s.sluiced j f = false ∧ s.balances j f = false := by
  have hdepth : s.depth j f.outlet = 0 := by rw [State.depth, h.cells]; rfl
  refine ⟨by rw [State.sluiced, h.sluice]; rfl, ?_⟩
  rw [State.balances, hdepth]
  exact decide_eq_false (Nat.not_le.mpr (Nat.add_pos_right _ h.balance))

theorem State.Lone.fits (h : s.Lone q f) (j : Nat) : s.basinTakes j f.outlet f.cls = true := by
  have hqueue : s.basinQueue j f.outlet f.cls = [] := by rw [State.basinQueue, h.cells]; rfl
  rw [State.basinTakes, hqueue, List.length_nil, decide_eq_true h.reserve]
  rfl

/-- The state in which inlet `i` has put a cell of a head frame into basin `j` (R225, R227, R247). -/
def State.cellEntered (s : State) (i j : Nat) (x : Queued × Frame) : State :=
  let c := s.formCell i j x
  let t := s.setFab fun y => { y with
    cells := y.cells ++ [c], queued := takeSegs c.segs y.queued, seqOut := store ltNat c.stream 0 ((c.seq + 1) % 65536) y.seqOut }
  let t := (t.slot P.FAB_SLOT_S1 i 0 c.bytes).slot P.FAB_SLOT_S1 i 1 (256 - c.bytes)
  let first := match c.segs.find? fun g => g.sof with | some g => t.frame g.frame | none => none
  let t : State := match first with
    | some f => t.traceEvent f ⟨1, 0, none, i, s.fifoBytes i, 0⟩
    | none => t
  t.basinOcc j

/-- The heads of the queues of inlet `i` that can form a cell now (R225). -/
def State.cellHeads (s : State) (i : Nat) : List (Queued × Frame) := (headsOf (s.queuedFrames i) []).filter s.cellReady

/-- Those of them that basin `j` does not bar, of which a started express frame is never barred (R226, R232, R257). -/
def State.openHeads (s : State) (i j : Nat) : List (Queued × Frame) :=
  (s.cellHeads i).filter fun x => (x.2.express && decide (0 < x.1.taken)) || (!s.sluiced j x.2 && !s.balances j x.2)

/-- The first of the highest class (R226). -/
def topHead (xs : List (Queued × Frame)) : Option (Queued × Frame) :=
  [7, 6, 5, 4, 3, 2, 1, 0].findSome? fun c => xs.find? fun x => x.2.cls == c

theorem State.stage1_takes {i step : Nat} {x : Queued × Frame} (hheads : s.cellHeads i ≠ [])
    (htop : topHead (s.openHeads i ((i + step) % 64)) = some x)
    (htakes : s.basinTakes ((i + step) % 64) x.2.outlet x.2.cls = true) :
    s.stage1 step i = (s.fixLen x.2 (x.1.taken == 0)).cellEntered i ((i + step) % 64) x := by
  unfold topHead State.openHeads State.cellHeads at htop
  refine (if_neg hheads).trans ?_
  dsimp only
  rw [htop]
  dsimp only
  rw [htakes]
  rfl

/-- A lone head is taken whatever its class. -/
theorem topHead_single {x : Queued × Frame} (h : x.2.cls < 8) : topHead [x] = some x := by
  have hfind : ∀ k, ([x].find? fun y => y.2.cls == k) = if x.2.cls = k then some x else none := by
    intro k
    by_cases hk : x.2.cls = k <;> simp [hk]
  unfold topHead
  simp only [hfind]
  generalize x.2.cls = c at h
  interval_cases c <;> rfl

theorem State.Lone.cellHeads (h : s.Lone q f) : s.cellHeads f.inlet = [(q, f)] := by
  rw [State.cellHeads, h.queuedFrames]
  exact List.filter_cons_of_pos h.ready

theorem State.Lone.openHeads (h : s.Lone q f) (j : Nat) : s.openHeads f.inlet j = [(q, f)] := by
  obtain ⟨hsluice, hbalance⟩ := h.free j
  rw [State.openHeads, h.cellHeads]
  exact List.filter_cons_of_pos (by rw [hsluice, hbalance, h.ordinary]; rfl)

theorem State.Lone.stage1 (h : s.Lone q f) (step : Nat) :
    s.stage1 step f.inlet = s.cellEntered f.inlet ((f.inlet + step) % 64) (q, f) := by
  have hfix : s.fixLen f (q.taken == 0) = s := by rw [State.fixLen, h.ordinary]; rfl
  rw [State.stage1_takes (x := (q, f)) (by rw [h.cellHeads]; simp) ((congrArg topHead (h.openHeads _)).trans (topHead_single h.cls))
    (h.fits _), hfix]

/-- What a cell that enters a basin changes in the fabric: the basin, its inlet queue and its stream's number. -/
theorem State.cellEntered_fabric (i j : Nat) (x : Queued × Frame) : ∃ seqOut, (s.cellEntered i j x).fabric = { s.fabric with
    cells := s.fabric.cells ++ [s.formCell i j x], queued := takeSegs (s.formCell i j x).segs s.fabric.queued, seqOut := seqOut } := by
  refine ⟨store ltNat (s.formCell i j x).stream 0 (((s.formCell i j x).seq + 1) % 65536) s.fabric.seqOut, ?_⟩
  unfold State.cellEntered
  extract_lets c entered slotted first traced
  have hslotted : slotted.fabric = entered.fabric := (State.slot_fabric ..).trans (State.slot_fabric ..)
  have htraced : traced.fabric = slotted.fabric := by
    clear_value first
    dsimp only [traced]
    split
    · exact (State.traceEvent_only ..).fabric rfl
    · rfl
  exact ((State.basinOcc_only ..).fabric rfl).trans (htraced.trans hslotted)

/-- Once the cell of the lone frame has entered its basin, what is left in the queues is of that frame. -/
structure State.Entered (s : State) (c : Cell) (q : Queued) (f : Frame) : Prop where
  cells : s.fabric.cells = [c]
  queued : ∀ y ∈ s.fabric.queued, y.frame = q.frame
  frame : s.frame q.frame = some f

theorem State.Lone.enters (h : s.Lone q f) (step : Nat) :
    (s.stage1 step f.inlet).Entered (s.formCell f.inlet ((f.inlet + step) % 64) (q, f)) q f := by
  obtain ⟨seqOut, hfabric⟩ := s.cellEntered_fabric f.inlet ((f.inlet + step) % 64) (q, f)
  rw [h.stage1]
  refine ⟨?_, ?_, ?_⟩
  · rw [hfabric, h.cells]
    rfl
  · rw [hfabric, h.queued]
    exact takeSegs_frames fun y hy => by rw [List.mem_singleton.mp hy]
  · rw [State.frame, hfabric]
    exact h.frame

/-- The other inlets have no frame. -/
theorem State.Lone.elsewhere (h : s.Lone q f) (step : Nat) {i : Nat} (hi : f.inlet ≠ i) : Unmoved s (s.stage1 step i) := by
  rw [State.stage1_empty step (State.queuedFrames_elsewhere (by simp [h.queued]) h.frame hi)]
  exact State.slot1_unmoved i

theorem State.Entered.elsewhere {c : Cell} (h : s.Entered c q f) (step : Nat) {i : Nat} (hi : f.inlet ≠ i) :
    (s.stage1 step i).Entered c q f := by
  have hfabric : (s.stage1 step i).fabric = s.fabric := by
    rw [State.stage1_empty step (State.queuedFrames_elsewhere h.queued h.frame hi), State.slot_fabric]
  exact ⟨by rw [hfabric]; exact h.cells, by rw [hfabric]; exact h.queued, by rw [State.frame, hfabric]; exact h.frame⟩

/-- Stage 1 forms the cell of the lone frame at its own inlet and nothing at the others. -/
theorem State.Lone.stage1All (h : s.Lone q f) (step : Nat) (hinlet : f.inlet < 64) :
    (s.stage1All step).fabric.cells = [s.formCell f.inlet ((f.inlet + step) % 64) (q, f)] := by
  have hpass := foldl_range_induct (f := fun u i => State.stage1 u step i) (a := s) (n := 64)
    (holds := fun n u => (n ≤ f.inlet → Unmoved s u) ∧
      (f.inlet < n → u.Entered (s.formCell f.inlet ((f.inlet + step) % 64) (q, f)) q f))
    ⟨fun _ => .refl s, fun hn => absurd hn (Nat.not_lt_zero _)⟩ ?_
  · unfold State.stage1All
    exact (hpass.2 hinlet).cells
  · rintro k u - ⟨hbefore, hafter⟩
    rcases Nat.lt_trichotomy k f.inlet with hk | rfl | hk
    · exact ⟨fun _ => (hbefore hk.le).trans ((h.unmoved (hbefore hk.le)).elsewhere step hk.ne'), fun hn => by omega⟩
    · refine ⟨fun hn => by omega, fun _ => ?_⟩
      rw [← (hbefore le_rfl).formCell]
      exact (h.unmoved (hbefore le_rfl)).enters step
    · exact ⟨fun hn => by omega, fun _ => (hafter hk).elsewhere step hk.ne⟩

theorem State.Lone.stepped (h : s.Lone q f) (hinlet : f.inlet < 64) (hparked : s.fabric.parked = []) (faults : List (Nat × CellFault)) :
    (s.stepped faults).fabric.cells = [s.formCell f.inlet ((f.inlet + s.rd P.FAB_STEP_COUNT % 64) % 64) (q, f)] := by
  have hstage2 := State.stage2All_unmoved (s.rd P.FAB_STEP_COUNT % 64) faults h.cells hparked
  rw [← hstage2.formCell, State.stepped, (State.evaluateSluice_cellsStay _).cells, State.wr_fabric]
  exact (h.unmoved hstage2).stage1All _ hinlet

end

/-! ### FABRIC_STEP, and the obligation -/

section
variable {s : State} (faults : List (Fin 64 × CellFault)) (upsets : List QuayUpset)

theorem State.upsets_only (s : State) (upsets : List QuayUpset) : Only (some [F.quay]) s (upsets.foldl State.upset s) :=
  .fold _ _ State.upset_only (.refl _ s)

theorem exec_fabricStep_runs (h : s.rd P.FAB_STATE = 2 ∨ s.rd P.FAB_STATE = 3) : exec (.fabricStep faults upsets) s =
    .next ((upsets.foldl State.upset s).stepped (faults.map fun x => (x.1.val, x.2))) :=
  if_pos (State.fabricRuns_iff.mpr (by rwa [(s.upsets_only upsets).rd _ _ (by decide) rfl]))

theorem exec_fabricStep_still (h2 : s.rd P.FAB_STATE ≠ 2) (h3 : s.rd P.FAB_STATE ≠ 3) :
    exec (.fabricStep faults upsets) s = .next (upsets.foldl State.upset s) := by
  refine if_neg fun hruns => ?_
  have hstate := State.fabricRuns_iff.mp hruns
  rw [(s.upsets_only upsets).rd _ _ (by decide) rfl] at hstate
  exact hstate.elim h2 h3

end

/-- Settles O24: a step by its two stages, each a pass over 64 connections, and a lost gap by the skip and what follows it. -/
theorem fabricStepMovesCells : Obligations.FabricStepMovesCells := by
  unfold Obligations.FabricStepMovesCells
  refine ⟨?steps, fun faults upsets s => exec_fabricStep_still faults upsets, ?lone, ?gap, fun o s => exec_lostGap_waits⟩
  case steps =>
    intro faults upsets s hstate
    have hexec := exec_fabricStep_runs faults upsets hstate
    have hupset := s.upsets_only upsets
    have hfabric := hupset.fabric rfl
    refine ⟨_, hexec, ?_, fun hqueued hcells hparked hopen i hi => ?_, (execFabricStep_only faults upsets s).next _ hexec⟩
    · rw [State.stepped_count, hupset.rd _ _ (by decide) rfl]
    · rw [← hupset.rd P.FAB_SLOT_S1 _ (by decide) rfl, ← hupset.rd P.FAB_SLOT_S2 _ (by decide) rfl]
      exact State.stepped_idle _ (by rw [hfabric]; exact hqueued) (by rw [hfabric]; exact hcells) (by rw [hfabric]; exact hparked)
        ((hupset.rd _ _ (by decide) rfl).trans hopen) hi
  case lone =>
    intro s q f hruns hqueued hframe hinlet hcls hordinary hcells hparked hsluice hbalance hreserve
    have hlone : s.Lone q f := ⟨hruns, hqueued, hframe, hcls, hordinary, hcells, hsluice, hbalance, hreserve⟩
    have hexec : exec (.fabricStep [] []) s = .next (s.stepped []) := exec_fabricStep_runs [] [] (.inl hruns)
    exact ⟨_, hexec, hlone.stepped hinlet hparked [], (execFabricStep_only [] [] s).next _ hexec⟩
  case gap =>
    intro o s c hc hgoes hdue
    have hexec := exec_lostGap_due hc hgoes hdue
    have hresumed := (State.gapResumed_agrees (s := s.skipTo o.val c) o.val (c := c))
    refine ⟨_, hexec, ?_, ?_, fun hparked hfits => ?_, (execLostGap_only o s).next _ hexec⟩
    · rw [hresumed _ (by decide), State.skipTo_skips]
    · rw [hresumed _ (by decide)]
      exact State.skipTo_flag ..
    · exact State.gapResumed_alone o.val (State.skipTo_parked o.val hparked) hfits

end Sys2Proof.Machine
end

section
/-! ## Ports: frames, signals and copies as the operations around them leave them (R259 to R262, R271 to R277)

The sluice chain moves its signals and nothing else of the fabric, and a release lets copies go and adds none. Said once for each
operation, so that what a port takes in, sends and loses needs only these lemmas. -/

namespace Sys2Proof.Machine

/-! ### The sluice chain moves signals only (R259 to R262) -/

/-- From `s` to `t` the fabric has changed at most in the signals of its sluice chain and the pairs that they hold off. -/
def SignalsMove (s t : State) : Prop := ∃ slow sluice fifoHold off owed,
  t.fabric = { s.fabric with slow := slow, sluice := sluice, fifoHold := fifoHold, off := off, owed := owed }

theorem SignalsMove.of_fabric {s t : State} (h : t.fabric = s.fabric) : SignalsMove s t := ⟨_, _, _, _, _, h⟩

theorem SignalsMove.refl (s : State) : SignalsMove s s := .of_fabric rfl

theorem SignalsMove.trans {s t u : State} (h : SignalsMove s t) (g : SignalsMove t u) : SignalsMove s u := by
  obtain ⟨_, _, _, _, _, h⟩ := h
  obtain ⟨_, _, _, _, _, g⟩ := g
  exact ⟨_, _, _, _, _, by rw [g, h]⟩

/-- An operation whose frame leaves out the fabric. -/
theorem SignalsMove.of_only {W : Option (List Nat)} {s t : State} (g : Only W s t) (hw : allows W F.fabric = false) : SignalsMove s t :=
  .of_fabric (g.fabric hw)

theorem SignalsMove.cond {s a b : State} (c : Prop) [Decidable c] (h : SignalsMove s a) (g : SignalsMove s b) :
    SignalsMove s (if c then a else b) := by split <;> assumption

theorem SignalsMove.fold {α : Type} {s t : State} (f : State → α → State) (l : List α) (h : ∀ u x, SignalsMove u (f u x))
    (g : SignalsMove s t) : SignalsMove s (l.foldl f t) := by
  induction l generalizing t with
  | nil => exact g
  | cons x l ih => exact ih (g.trans (h t x))

/-- A change of the signals. -/
theorem SignalsMove.setFab {s t : State} (h : SignalsMove s t) (f : Fabric → Fabric)
    (hf : ∃ slow sluice fifoHold off owed,
      f t.fabric = { t.fabric with slow := slow, sluice := sluice, fifoHold := fifoHold, off := off, owed := owed }) :
    SignalsMove s (t.setFab f) := h.trans hf

theorem SignalsMove.count {s t : State} (h : SignalsMove s t) (b i n : Nat) : SignalsMove s (t.count b i n) :=
  h.trans (.of_fabric (State.count_fabric ..))

section
variable (s : State)

theorem State.flowNow_signals (p c : Nat) (on : Bool) : SignalsMove s (s.flowNow p c on) := by
  have hsent : ∀ bs, SignalsMove s ((s.stamped p).emit (.frame p bs)) := fun bs => .of_fabric ((s.stamped_only p).fabric rfl)
  exact .cond _ (((hsent _).setFab _ ⟨_, _, _, _, _, rfl⟩).count ..) (hsent _)

theorem State.sendFlow_signals (p c : Nat) (on : Bool) : SignalsMove s (s.sendFlow p c on) :=
  .cond _ (.setFab (.refl s) _ ⟨_, _, _, _, _, rfl⟩) (State.flowNow_signals ..)

theorem State.slowOne_signals (k : Nat × Nat) : SignalsMove s (s.slowOne k) :=
  .cond _ (.setFab (.refl s) _ ⟨_, _, _, _, _, rfl⟩) (.cond _ (.setFab (.refl s) _ ⟨_, _, _, _, _, rfl⟩) (.refl s))

theorem State.stopOne_signals (j : Nat) : SignalsMove s (s.stopOne j) :=
  .cond _ (.setFab (.refl s) _ ⟨_, _, _, _, _, rfl⟩) (.cond _ (.setFab (.refl s) _ ⟨_, _, _, _, _, rfl⟩) (.refl s))

theorem State.fifoOne_signals (i : Nat) : SignalsMove s (s.fifoOne i) :=
  .cond _ (.setFab (.refl s) _ ⟨_, _, _, _, _, rfl⟩) (.cond _ (.setFab (.refl s) _ ⟨_, _, _, _, _, rfl⟩) (.refl s))

theorem State.slowTakes_signals (f : Frame) : SignalsMove s (s.slowTakes f) := .setFab (.refl s) _ ⟨_, _, _, _, _, rfl⟩

theorem State.updateOff_signals : SignalsMove s s.updateOff :=
  .fold _ _ (fun _ _ => State.sendFlow_signals ..)
    (.fold _ _ (fun _ _ => State.sendFlow_signals ..) (.setFab (.refl s) _ ⟨_, _, _, _, _, rfl⟩))

theorem State.evaluateSluice_signals : SignalsMove s s.evaluateSluice := by
  refine .trans ?_ (State.updateOff_signals _)
  exact .fold _ _ State.fifoOne_signals (.fold _ _ State.stopOne_signals (.fold _ _ State.slowOne_signals (.refl s)))

end

section
variable {s t : State}

theorem SignalsMove.frames (h : SignalsMove s t) : t.fabric.frames = s.fabric.frames := by obtain ⟨_, _, _, _, _, h⟩ := h; rw [h]
theorem SignalsMove.nextFrame (h : SignalsMove s t) : t.fabric.nextFrame = s.fabric.nextFrame := by obtain ⟨_, _, _, _, _, h⟩ := h; rw [h]
theorem SignalsMove.waiting (h : SignalsMove s t) : t.fabric.waiting = s.fabric.waiting := by obtain ⟨_, _, _, _, _, h⟩ := h; rw [h]
theorem SignalsMove.queued (h : SignalsMove s t) : t.fabric.queued = s.fabric.queued := by obtain ⟨_, _, _, _, _, h⟩ := h; rw [h]
theorem SignalsMove.receiving (h : SignalsMove s t) : t.fabric.receiving = s.fabric.receiving := by obtain ⟨_, _, _, _, _, h⟩ := h; rw [h]
theorem SignalsMove.paused (h : SignalsMove s t) : t.fabric.paused = s.fabric.paused := by obtain ⟨_, _, _, _, _, h⟩ := h; rw [h]

theorem SignalsMove.frame (h : SignalsMove s t) (id : Nat) : t.frame id = s.frame id := by unfold State.frame; rw [h.frames]

end

/-! ### Frames by their numbers -/

section
variable {s t : State}

theorem State.frame_id {id : Nat} {f : Frame} (h : s.frame id = some f) : f.id = id := findBy_key h

theorem State.frame_count (b i n id : Nat) : (s.count b i n).frame id = s.frame id := by
  unfold State.frame
  rw [State.count_fabric]

theorem State.frame_setFrame_some {id : Nat} {f : Frame} {g : Frame → Frame} (hf : s.frame id = some f) (hg : ∀ x, (g x).id = x.id) :
    (s.setFrame id g).frame id = some (g f) :=
  (findBy_updBy Frame.id id g hg _).trans (congrArg (Option.map g) hf)

/-- The ingress FIFO holds as much where the frames and the inlets are the same. -/
theorem State.fifoBytes_congr (hframes : t.fabric.frames = s.fabric.frames) (hwaiting : t.fabric.waiting = s.fabric.waiting)
    (hqueued : t.fabric.queued = s.fabric.queued) (i : Nat) : t.fifoBytes i = s.fifoBytes i := by
  unfold State.fifoBytes State.untaken State.frame
  rw [hframes, hwaiting, hqueued]

theorem State.untouched_congr (hwaiting : t.fabric.waiting = s.fabric.waiting) (hqueued : t.fabric.queued = s.fabric.queued)
    (id : Nat) : t.untouched id = s.untouched id := by
  unfold State.untouched
  rw [hwaiting, hqueued]

end

/-! ### What a port reads of the parameters -/

section
variable {s t : State}

theorem Agrees.portUp (h : Agrees [P.PRT_LINK_UP] s t) (p : Nat) : t.portUp p = s.portUp p := by
  unfold State.portUp State.rdb
  rw [h _ (by decide)]

theorem Agrees.gbps (h : Agrees [P.LAN_RATE, P.PRT_LANES] s t) (p : Nat) : t.gbps p = s.gbps p := by
  unfold State.gbps State.rateOf
  rw [h _ (by decide), h _ (by decide)]

/-- The parameters of which a transmit stamp is made (R62, R66, R72). -/
def txStampReads : List Nat := [P.LNK_CLASS, P.TBS_FREE_Q, P.LNK_BEVT, P.CAL_PORT_RES, P.TBS_BOUND_PS, P.TBS_SWITCH_WIDEN,
  P.TBS_DOM_SELECTED, P.TBS_BOUND_LIMIT, P.REF_TSTATE, P.LAN_RATE, P.PRT_FEC, P.CAL_DTX]

/-- A transmit stamp is the same where nothing has changed of which it is made. -/
theorem Only.txMark {W : Option (List Nat)} (h : Only W s t) (hr : spares W txStampReads = true) (hlinks : allows W F.links = false)
    (htime : allows W F.time = false) (hcal : allows W F.cal = false) (p : Nat) (raw : RawStamp) : t.txMark p raw = s.txMark p raw := by
  have hreads : Agrees txStampReads s t := h.agrees hr
  have hrd : ∀ b ∈ txStampReads, ∀ i, t.rd b i = s.rd b i := hreads
  have hlink := State.link_congr (h.links hlinks) p
  unfold State.txMark State.stampOf State.stampCode State.stampFlags State.bSw State.inGap State.txTime State.txEdge State.ddmtdRuns
    State.lockedPort State.rateOf State.rdb
  rw [(hreads.sub (by decide)).bPort, (hreads.sub (by decide)).bEvt (congrArg Link.valid hlink), hlink, h.time htime, h.cal hcal]
  simp (disch := decide) only [hrd]

end

/-! ### Counters of the set (R450, R451) -/

/-- A counter of the set that counts in the open touches no hidden accumulator. -/
theorem Only.count_open {W : Option (List Nat)} {s t : State} (h : Only W s t) {b : Nat} (hb : allows W b = true)
    (ho : allows W P.OBS_OVF = true) (hopen : t.rd P.OBS_FROZEN = 0) (i n : Nat) : Only W s (t.count b i n) := by
  unfold State.count
  split
  · exact h.wr hb _ _
  · rw [if_pos hopen]
    exact h.bumpSet hb ho _ _ _

theorem State.count_rd_self {s : State} (hopen : s.rd P.OBS_FROZEN = 0) {b : Nat} (hb : b ≠ P.OBS_OVF) (i n : Nat) :
    (s.count b i n).rd b i = (s.rd b i + n) % 2 ^ 48 := (State.count_rd hopen hb i n i).trans (if_pos rfl)

theorem State.orIn_testBit {s : State} (b i : Nat) {m k : Nat} (h : m.testBit k = true) : ((s.orIn b i m).rd b i).testBit k = true := by
  rw [State.orIn, State.rd_wr_self, Nat.testBit_or, h, Bool.or_true]

/-! ### Copies are let go and none is added (R271 to R277) -/

/-- From `s` to `t` copies of the quay may have gone, and none has come. -/
def CopiesFall (s t : State) : Prop := t.quay.copies ⊆ s.quay.copies

theorem CopiesFall.refl (s : State) : CopiesFall s s := List.Subset.refl _

theorem CopiesFall.trans {s t u : State} (h : CopiesFall s t) (g : CopiesFall t u) : CopiesFall s u := List.Subset.trans g h

/-- An operation whose frame leaves out the quay. -/
theorem CopiesFall.only {W : Option (List Nat)} {s t u : State} (h : CopiesFall s t) (g : Only W t u)
    (hw : allows W F.quay = false) : CopiesFall s u := by
  unfold CopiesFall
  rw [g.quay hw]
  exact h

theorem CopiesFall.cond {s a b : State} (c : Prop) [Decidable c] (h : CopiesFall s a) (g : CopiesFall s b) :
    CopiesFall s (if c then a else b) := by split <;> assumption

theorem CopiesFall.fold {α : Type} {s t : State} (f : State → α → State) (l : List α) (h : ∀ u x, CopiesFall u (f u x))
    (g : CopiesFall s t) : CopiesFall s (l.foldl f t) := by
  induction l generalizing t with
  | nil => exact g
  | cons x l ih => exact ih (g.trans (h t x))

theorem CopiesFall.count {s t : State} (h : CopiesFall s t) (b i n : Nat) : CopiesFall s (t.count b i n) :=
  h.only (W := some [F.params, F.hidden]) ((Only.refl _ t).count_any rfl b rfl i n) rfl

section
variable (s : State)

theorem State.freeEntry_copies (c : Copy) (agent : Nat) :
    (s.freeEntry c agent).quay.copies = dropBy Copy.id c.id s.quay.copies := by
  unfold State.freeEntry
  extract_lets unlisted taken
  have hunlisted : unlisted.quay.copies = dropBy Copy.id c.id s.quay.copies := by
    rw [show s.quay = (s.settleSlot c agent).quay from ((s.settleSlot_only c agent).quay rfl).symm]
    rfl
  have htaken : taken.quay = unlisted.quay := (State.queueBytes_only ..).quay rfl
  split
  · rw [htaken, hunlisted]
  · rw [(State.freeUnits_only ..).quay rfl, htaken, hunlisted]

theorem State.freeEntry_fall (c : Copy) (agent : Nat) : CopiesFall s (s.freeEntry c agent) := by
  unfold CopiesFall
  rw [State.freeEntry_copies]
  exact List.filter_subset_self _

theorem State.noteQuarantine_fall (pool index : Nat) : CopiesFall s (s.noteQuarantine pool index) := by
  unfold State.noteQuarantine
  extract_lets t
  have hflagged : CopiesFall s ((t.wr P.BUF_QUARANTINED 0 (t.rd P.BUF_QUARANTINED + 1)).orIn P.BUF_FLAGS 0 2) := .refl s
  exact hflagged.only (State.sticky_only ..) rfl

theorem State.quarantine_fall (b : Buffer) : CopiesFall s (s.quarantine b) := by
  unfold State.quarantine
  extract_lets lost freed released
  have hunlisted : CopiesFall s (s.setQuay fun x => { x with buffers := x.buffers.erase b }) := .refl s
  have hfreed : CopiesFall s freed := hunlisted.only (State.freeUnits_only ..) rfl
  have hreleased : CopiesFall s released := .fold _ _ (fun u c => .trans (.cond _ ((CopiesFall.refl u).count ..) (.refl u))
    (State.freeEntry_fall ..)) (hfreed.trans (State.noteQuarantine_fall ..))
  exact .cond _ hreleased (hreleased.only (State.retire_only ..) rfl)

theorem State.releaseBuffer_fall (pool index agent : Nat) : CopiesFall s (s.releaseBuffer pool index agent) := by
  unfold State.releaseBuffer
  split
  case h_1 b hb =>
    have hfreed : CopiesFall s (s.setQuay fun x => { x with buffers := x.buffers.erase b, freed := x.freed ++ [(pool, index)] }) :=
      .refl s
    exact .cond _ (State.quarantine_fall ..) (.cond _ (.refl s)
      ((hfreed.only (State.freeUnits_only ..) rfl).only (State.retire_only ..) rfl))
  case h_2 =>
    exact .cond _ (.refl s) (.cond _ (State.noteQuarantine_fall ..) (.only (.refl s) (State.doubleFree_only ..) rfl))

theorem State.releaseFrame_fall (id agent : Nat) : CopiesFall s (s.releaseFrame id agent) := by
  unfold State.releaseFrame
  split
  · exact State.releaseBuffer_fall ..
  · exact .cond _ (.refl s) (.only (.refl s) (State.retire_only ..) rfl)

/-- A release frees the copy's entry, and what follows it adds no copy. -/
theorem State.releaseCopy_freed (c : Copy) (agent : Nat) (h : (s.quay.copies.any fun x => x.id == c.id) = true) :
    CopiesFall (s.freeEntry c agent) (s.releaseCopy c agent) := by
  unfold State.releaseCopy
  rw [if_pos h]
  extract_lets t
  split
  · exact State.releaseBuffer_fall ..
  · exact State.releaseFrame_fall ..

theorem State.releaseCopy_fall (c : Copy) (agent : Nat) : CopiesFall s (s.releaseCopy c agent) := by
  by_cases h : (s.quay.copies.any fun x => x.id == c.id) = true
  · exact (s.freeEntry_fall c agent).trans (s.releaseCopy_freed c agent h)
  · rw [State.releaseCopy, if_neg h]
    exact .refl s

/-- A copy that is released is in the quay no more (R272). -/
theorem State.releaseCopy_gone (c : Copy) (agent : Nat) : ∀ z ∈ (s.releaseCopy c agent).quay.copies, z.id ≠ c.id := by
  intro z hz
  by_cases h : (s.quay.copies.any fun x => x.id == c.id) = true
  · have hleft := s.releaseCopy_freed c agent h hz
    rw [State.freeEntry_copies, dropBy, List.mem_filter] at hleft
    simpa using hleft.2
  · rw [State.releaseCopy, if_neg h] at hz
    rw [Bool.not_eq_true, List.any_eq_false] at h
    simpa using h z hz

/-- A flush leaves none of the copies that it picks (R276). -/
theorem State.flushCopies_gone (pick : Copy → Bool) (agent : Nat) (note : State → Copy → State)
    (hnote : ∀ t c, CopiesFall t (note t c)) : ∀ z ∈ (s.flushCopies pick agent note).quay.copies, pick z = false := by
  have hturn : ∀ (u : State) (c : Copy), CopiesFall u ((note u c).releaseCopy c agent) :=
    fun u c => (hnote u c).trans (State.releaseCopy_fall ..)
  have hgone : ∀ (l : List Copy) (u : State),
      ∀ z ∈ (l.foldl (fun t c => (note t c).releaseCopy c agent) u).quay.copies, z ∉ l := by
    intro l
    induction l with
    | nil => exact fun _ _ _ => List.not_mem_nil
    | cons c l ih =>
      intro u z hz
      refine fun hzl => (List.mem_cons.mp hzl).elim (fun hzc => ?_) (ih _ z hz)
      exact State.releaseCopy_gone _ c agent z (CopiesFall.fold _ l hturn (.refl _) hz) (by rw [hzc])
  intro z hz
  have hmem : z ∈ s.quay.copies := CopiesFall.fold _ _ hturn (.refl s) hz
  exact Bool.eq_false_iff.mpr fun hpick => hgone _ s z hz (List.mem_filter.mpr ⟨hmem, hpick⟩)

end

end Sys2Proof.Machine
end

section
/-! ## Ports: pauses received, and XOFF told again (R251, R262, R263) -/

namespace Sys2Proof.Machine

/-! ### Pauses (R263) -/

/-- Until when a class of port `p` is paused by a number of quanta that comes now; 0 releases it. -/
def State.pauseUntil (s : State) (p quanta : Nat) : Nat := if quanta = 0 then 0 else s.clock + wireNs (quanta * 64) (s.gbps p)

/-- What received flow control may change. -/
def pauseWrites : Option (List Nat) := some [F.fabric, P.PRT_PFC_RX_XOFF, P.TBS_OVER_LIMIT_COUNT]

theorem Only.pauseUntil {s t : State} (h : Only pauseWrites s t) (p quanta : Nat) : t.pauseUntil p quanta = s.pauseUntil p quanta := by
  unfold State.pauseUntil
  rw [h.keeps.clock, (h.agrees rfl).gbps]

theorem State.pauseClass_paused (s : State) (p c quanta : Nat) :
    (s.pauseClass p c quanta).fabric.paused = store ltPair (p, c) 0 (s.pauseUntil p quanta) s.fabric.paused := rfl

/-- A pass over classes, each turn of which pauses its class, pauses those classes and no other. -/
theorem foldl_pauses {s : State} {f : State → Nat → State} {p : Nat} {till : Nat → Nat}
    (hf : ∀ u c, Only pauseWrites s u →
      Only pauseWrites s (f u c) ∧ (f u c).fabric.paused = store ltPair (p, c) 0 (till c) u.fabric.paused)
    (l : List Nat) {u : State} (hu : Only pauseWrites s u) (q c : Nat) :
    look (q, c) 0 (l.foldl f u).fabric.paused = if q = p ∧ c ∈ l then till c else look (q, c) 0 u.fabric.paused := by
  induction l generalizing u with
  | nil => simp
  | cons x l ih =>
    obtain ⟨hturn, hpaused⟩ := hf u x hu
    rw [List.foldl_cons, ih hturn, hpaused]
    by_cases hx : (q, c) = (p, x)
    · obtain ⟨rfl, rfl⟩ := Prod.mk.inj hx
      rw [look_store_self]
      simp
    · rw [look_store_other ltPair hx]
      refine if_congr (and_congr_right fun hq => ?_) rfl rfl
      have hcx : c ≠ x := fun hc => hx (by rw [hq, hc])
      simp [hcx]

/-! ### PFC_RECEIVED (R251, R263) -/

/-- The turn of one class of a PFC frame: counted unless it releases, and paused. -/
def State.pfcTurn (p : Nat) (bytes : List Byte) (t : State) (c : Nat) : State :=
  (if beAt (18 + 2 * c) 2 bytes = 0 then t else t.count P.PRT_PFC_RX_XOFF (8 * p + c)).pauseClass p c (beAt (18 + 2 * c) 2 bytes)

@[simp] theorem counterIndex_rxXoff (i : Nat) : counterIndex P.PRT_PFC_RX_XOFF i = none := by simp [counterIndex, counterSet]
@[simp] theorem counterIndex_txXoff (i : Nat) : counterIndex P.PRT_PFC_TX_XOFF i = none := by simp [counterIndex, counterSet]

section
variable {s : State} {p : Nat} {bytes : List Byte}

theorem State.pfcTurn_only {u : State} (h : Only pauseWrites s u) (c : Nat) : Only pauseWrites s (State.pfcTurn p bytes u c) :=
  .step (.cond _ h (h.count_plain rfl rfl _ _)) (State.pauseClass_only ..) rfl

theorem State.pfcTurn_paused {u : State} (h : Only pauseWrites s u) (c : Nat) : (State.pfcTurn p bytes u c).fabric.paused =
    store ltPair (p, c) 0 (s.pauseUntil p (beAt (18 + 2 * c) 2 bytes)) u.fabric.paused := by
  have hcounted : ∀ v : State, Only pauseWrites s v → v.fabric = u.fabric →
      (v.pauseClass p c (beAt (18 + 2 * c) 2 bytes)).fabric.paused =
        store ltPair (p, c) 0 (s.pauseUntil p (beAt (18 + 2 * c) 2 bytes)) u.fabric.paused :=
    fun v hv hfabric => by rw [State.pauseClass_paused, hv.pauseUntil, hfabric]
  unfold State.pfcTurn
  split
  · exact hcounted _ h rfl
  · exact hcounted _ (h.count_plain rfl rfl _ _) (State.count_fabric ..)

theorem State.pfcTurn_count (u : State) (x c : Nat) : (State.pfcTurn p bytes u x).rd P.PRT_PFC_RX_XOFF (8 * p + c) =
    if c = x ∧ beAt (18 + 2 * c) 2 bytes ≠ 0 then (u.rd P.PRT_PFC_RX_XOFF (8 * p + c) + 1) % 2 ^ 48
    else u.rd P.PRT_PFC_RX_XOFF (8 * p + c) := by
  unfold State.pfcTurn
  rw [(State.pauseClass_only ..).rd _ _ (by decide) rfl]
  by_cases hx : c = x
  · subst hx
    split
    · next hq => simp [hq]
    · next hq => simp [hq, State.count_plain]
  · have hother : 8 * p + c ≠ 8 * p + x := fun h => hx (Nat.add_left_cancel h)
    split
    · simp [hx]
    · simp [hx, State.count_plain, State.rd_wr_elem _ _ _ hother]

/-- Each class that a PFC frame pauses is counted once. -/
theorem foldl_pfcTurn_count {l : List Nat} (hl : l.Nodup) (u : State) (c : Nat) :
    (l.foldl (State.pfcTurn p bytes) u).rd P.PRT_PFC_RX_XOFF (8 * p + c) =
      if c ∈ l ∧ beAt (18 + 2 * c) 2 bytes ≠ 0 then (u.rd P.PRT_PFC_RX_XOFF (8 * p + c) + 1) % 2 ^ 48
      else u.rd P.PRT_PFC_RX_XOFF (8 * p + c) := by
  induction l generalizing u with
  | nil => simp
  | cons x l ih =>
    obtain ⟨hx, hl⟩ := List.nodup_cons.mp hl
    rw [List.foldl_cons, ih hl, State.pfcTurn_count]
    by_cases hc : c = x
    · subst hc
      simp [hx]
    · simp [hc]

end

theorem mem_setBits {n v i : Nat} : i ∈ setBits n v ↔ i < n ∧ v.testBit i = true := by
  simp [setBits]

theorem setBits_nodup (n v : Nat) : (setBits n v).Nodup := List.nodup_range.filter _

section
variable {s : State} {port : Fin 512} {bytes : List Byte}

/-- A MAC control frame that the port takes: good, on a port that is up (R251, R254). -/
structure State.TakesControl (s : State) (port : Fin 512) (bytes : List Byte) : Prop where
  up : s.portUp port.val = true
  control : isMacControl bytes = true
  good : s.badFrame port.val bytes false = none

theorem State.TakesControl.untaken (h : s.TakesControl port bytes) :
    ¬ (¬ s.portUp port.val = true ∨ ¬ isMacControl bytes = true ∨ (s.badFrame port.val bytes false).isSome = true) := by
  simp [h.up, h.control, h.good]

theorem State.stamped_usesPause (s : State) (p q : Nat) : (s.stamped p).usesPause q = s.usesPause q := by
  unfold State.usesPause State.rdb
  rw [State.stamped_rd _ _ (by decide)]

theorem exec_pfcReceived_pfc (h : s.TakesControl port bytes) (hop : beAt 14 2 bytes = 0x0101) (hmode : s.usesPause port.val = false) :
    exec (.pfcReceived port bytes) s =
      .next ((setBits 8 (beAt 16 2 bytes)).foldl (State.pfcTurn port.val bytes) (s.stamped port.val)) := by
  refine (if_neg h.untaken).trans ?_
  dsimp only
  rw [hop, State.stamped_usesPause, hmode]
  rfl

theorem exec_pfcReceived_pause (h : s.TakesControl port bytes) (hop : beAt 14 2 bytes = 0x0001) (hmode : s.usesPause port.val = true) :
    exec (.pfcReceived port bytes) s = .next ((List.range 8).foldl (fun t c => t.pauseClass port.val c (beAt 16 2 bytes))
      (if beAt 16 2 bytes = 0 then s.stamped port.val else (s.stamped port.val).count P.PRT_PFC_RX_XOFF (8 * port.val))) := by
  refine (if_neg h.untaken).trans ?_
  dsimp only
  rw [hop, State.stamped_usesPause, hmode]
  rfl

theorem exec_pfcReceived_other (h : s.TakesControl port bytes)
    (hop : beAt 14 2 bytes ≠ (if s.usesPause port.val = true then 0x0001 else 0x0101)) :
    exec (.pfcReceived port bytes) s = .next (s.stamped port.val) := by
  refine (if_neg h.untaken).trans ?_
  dsimp only
  split
  · next hop' hmode =>
    rw [State.stamped_usesPause] at hmode
    exact absurd hop' (by simpa [hmode] using hop)
  · next hop' hmode =>
    rw [State.stamped_usesPause] at hmode
    exact absurd hop' (by simpa [hmode] using hop)
  · rfl

theorem exec_pfcReceived_untaken (h : s.portUp port.val = false ∨ isMacControl bytes = false ∨ s.badFrame port.val bytes false ≠ none) :
    exec (.pfcReceived port bytes) s = .next s := by
  refine if_pos ?_
  simpa [Option.isSome_iff_ne_none] using h

/-! ### PAUSE_EXPIRY (R263) -/

variable {cls : Fin 8}

theorem exec_pauseExpiry_due (h : look (port.val, cls.val) 0 s.fabric.paused ≤ s.clock) : exec (.pauseExpiry port cls) s =
    .next (s.setFab fun x => { x with paused := without (port.val, cls.val) x.paused }) := if_pos h

theorem exec_pauseExpiry_waits (h : s.clock < look (port.val, cls.val) 0 s.fabric.paused) :
    exec (.pauseExpiry port cls) s = .next s := if_neg (Nat.not_le.mpr h)

end

/-! ### PFC_REPEAT (R262) -/

section
variable {s : State} {p c : Nat}

theorem State.count_out (s : State) (b i n : Nat) : (s.count b i n).out = s.out := by
  unfold State.count State.bumpSet
  cases counterIndex b i with
  | none => rfl
  | some c => dsimp only; split <;> [split; skip] <;> rfl

/-- An XOFF that is sent now goes out after all that has gone out before. -/
theorem State.flowNow_on_out : (s.flowNow p c true).out = s.out ++ [.frame p (if c = 8 then s.pauseFrame p (s.rd P.PRT_PFC_QUANTA)
    else s.pfcFrame p c (s.rd P.PRT_PFC_QUANTA))] := by
  have hsent : ∀ e, ((s.stamped p).emit e).out = s.out ++ [e] := fun e => by rw [State.emit_out, State.stamped_out]
  rw [State.flowNow, if_pos rfl, State.count_out]
  exact hsent _

theorem State.flowNow_on_count : (s.flowNow p c true).rd P.PRT_PFC_TX_XOFF (8 * p + c % 8) =
    (s.rd P.PRT_PFC_TX_XOFF (8 * p + c % 8) + 1) % 2 ^ 48 := by
  rw [State.flowNow, if_pos rfl, State.count_plain _ _ (counterIndex_txXoff _), State.rd_wr_self, State.setFab_rd, State.emit_rd,
    State.stamped_rd _ _ (by decide)]

/-- The pair that is told again is told now, for the quanta of now. -/
theorem State.flowNow_on_off {h : HoldOff} (hmem : h ∈ s.fabric.off) (hport : h.port = p) (hcls : h.cls = c) :
    (⟨p, c, s.clock, s.rd P.PRT_PFC_QUANTA⟩ : HoldOff) ∈ (s.flowNow p c true).fabric.off := by
  have hoff : (s.flowNow p c true).fabric.off = s.fabric.off.map fun y =>
      if y.port = p ∧ y.cls = c then { y with sentAt := s.clock, quanta := s.rd P.PRT_PFC_QUANTA } else y := by
    unfold State.flowNow
    simp [State.count_fabric, (s.stamped_only p).fabric rfl]
  rw [hoff]
  refine List.mem_map.mpr ⟨h, hmem, ?_⟩
  rw [if_pos ⟨hport, hcls⟩, ← hport, ← hcls]

end

section
variable {s : State} {port : Fin 512} {cls : Fin 9} {h : HoldOff}

theorem exec_pfcRepeat_due (hheld : (s.fabric.off.find? fun y => y.port == port.val && y.cls == cls.val) = some h)
    (hdue : h.sentAt * s.gbps port.val * 2 + h.quanta * 512 ≤ s.clock * s.gbps port.val * 2)
    (howed : s.fabric.owed.contains (port.val, cls.val, true) = false) :
    exec (.pfcRepeat port cls) s = .next (s.sendFlow port.val cls.val true) := by
  change execPfcRepeat port cls s = _
  unfold execPfcRepeat
  dsimp only
  rw [hheld]
  exact if_pos ⟨hdue, by rw [howed]; exact Bool.false_ne_true⟩

theorem exec_pfcRepeat_waits (hwaits : (∀ h ∈ s.fabric.off, h.port = port.val → h.cls = cls.val →
      s.clock * s.gbps port.val * 2 < h.sentAt * s.gbps port.val * 2 + h.quanta * 512) ∨
    s.fabric.owed.contains (port.val, cls.val, true) = true) : exec (.pfcRepeat port cls) s = .next s := by
  change execPfcRepeat port cls s = _
  unfold execPfcRepeat
  dsimp only
  split
  · next h hheld =>
    have hpair := List.find?_some hheld
    simp only [Bool.and_eq_true, beq_iff_eq] at hpair
    refine if_neg fun ⟨hdue, howed⟩ => hwaits.elim (fun hearly => ?_) howed
    exact Nat.not_le.mpr (hearly h (List.mem_of_find?_eq_some hheld) hpair.1 hpair.2) hdue
  · rfl

/-- While the port sends a frame, a flow control frame waits for its end. -/
theorem State.sendFlow_owed {p c : Nat} {on : Bool} {y : Sending} (hy : y ∈ s.quay.sending) (hport : y.port = p) :
    s.sendFlow p c on = s.setFab fun x => { x with owed := x.owed ++ [(p, c, on)] } :=
  if_pos (by simpa using ⟨y, hy, hport⟩)

theorem State.sendFlow_now {p c : Nat} {on : Bool} (h : ∀ y ∈ s.quay.sending, y.port ≠ p) : s.sendFlow p c on = s.flowNow p c on :=
  if_neg (by simpa using h)

end

/-! ### The obligation -/

/-- Settles O32: received flow control class by class, and the repeat of an XOFF by whether the port is sending. -/
theorem flowControlPausesAndRepeats : Obligations.FlowControlPausesAndRepeats := by
  unfold Obligations.FlowControlPausesAndRepeats
  refine ⟨?pfc, ?pause, fun port bytes s => exec_pfcReceived_untaken, ?other, ?expires, fun port cls s => exec_pauseExpiry_waits,
    ?now, ?owed, fun port cls s => exec_pfcRepeat_waits⟩
  case pfc =>
    intro port bytes s hup hcontrol hgood hop hmode
    have hexec := exec_pfcReceived_pfc ⟨hup, hcontrol, hgood⟩ hop hmode
    have hstamped : Only pauseWrites s (s.stamped port.val) := (s.stamped_only port.val).mono rfl
    have hpaused := foldl_pauses (f := State.pfcTurn port.val bytes) (fun u c hu => ⟨State.pfcTurn_only hu c, State.pfcTurn_paused hu c⟩)
      (setBits 8 (beAt 16 2 bytes)) hstamped
    rw [(s.stamped_only port.val).fabric rfl] at hpaused
    refine ⟨_, hexec, fun c hc hbit => ⟨?_, ?_⟩, fun p c hother => ?_, (execPfcReceived_only port bytes s).next _ hexec⟩
    · rw [hpaused, if_pos ⟨rfl, mem_setBits.mpr ⟨hc, hbit⟩⟩]
      rfl
    · rw [foldl_pfcTurn_count (setBits_nodup ..), State.stamped_rd _ _ (by decide)]
      simp only [mem_setBits.mpr ⟨hc, hbit⟩, true_and, ne_eq, ite_not]
    · rw [hpaused, if_neg]
      rintro ⟨rfl, hc⟩
      obtain ⟨hlt, hbit⟩ := mem_setBits.mp hc
      rcases hother with h | h | h
      · exact h rfl
      · omega
      · rw [hbit] at h
        cases h
  case pause =>
    intro port bytes s hup hcontrol hgood hop hmode
    have hexec := exec_pfcReceived_pause ⟨hup, hcontrol, hgood⟩ hop hmode
    have hstamped : Only pauseWrites s (s.stamped port.val) := (s.stamped_only port.val).mono rfl
    refine ⟨_, hexec, fun c hc => ?_, (execPfcReceived_only port bytes s).next _ hexec⟩
    rw [foldl_pauses (s := s) (p := port.val) (till := fun _ => s.pauseUntil port.val (beAt 16 2 bytes))
      (fun u k hu => ⟨hu.step (State.pauseClass_only ..) rfl, by rw [State.pauseClass_paused, hu.pauseUntil]⟩)
      _ (.cond _ hstamped (hstamped.count_plain rfl rfl _ _)), if_pos ⟨rfl, List.mem_range.mpr hc⟩]
    rfl
  case other =>
    intro port bytes s hup hcontrol hgood hop
    exact ⟨_, exec_pfcReceived_other ⟨hup, hcontrol, hgood⟩ hop, State.stamped_only ..⟩
  case expires =>
    intro port cls s hdue
    have hexec := exec_pauseExpiry_due hdue
    refine ⟨_, hexec, look_without_self .., ?_, (execPauseExpiry_only port cls s).next _ hexec⟩
    rw [State.pausedNow, State.setFab_fabric, look_without_self]
    exact decide_eq_false (Nat.not_lt_zero _)
  case now =>
    intro port cls s h hheld hdue howed hidle
    have hexec := exec_pfcRepeat_due hheld hdue howed
    have hpair := List.find?_some hheld
    simp only [Bool.and_eq_true, beq_iff_eq] at hpair
    have hclass : cls.val % 8 = if cls.val = 8 then 0 else cls.val := by split <;> omega
    rw [State.sendFlow_now hidle] at hexec
    refine ⟨_, hexec, State.flowNow_on_out, ?_, State.flowNow_on_off (List.mem_of_find?_eq_some hheld) hpair.1 hpair.2,
      State.flowNow_only ..⟩
    rw [← hclass]
    exact State.flowNow_on_count
  case owed =>
    intro port cls s h y hheld hdue howed hy hport
    have hexec := exec_pfcRepeat_due hheld hdue howed
    rwa [State.sendFlow_owed hy hport] at hexec

end Sys2Proof.Machine
end

section
/-! ## Ports: a frame taken into its inlet (R224, R228, R260, R334) -/

namespace Sys2Proof.Machine

/-- From `s` to `t` the frame `f` has come in: with its record once it has one, to wait or to be queued. -/
structure ComesIn (s t : State) (f : Frame) : Prop where
  frame : ∃ log, { f with log := log } ∈ t.fabric.frames
  held : f.id ∈ t.fabric.waiting ∨ (⟨f.id, 0⟩ : Queued) ∈ t.fabric.queued
  nextFrame : t.fabric.nextFrame = s.fabric.nextFrame + 1
  receiving : t.fabric.receiving = s.fabric.receiving

theorem ComesIn.signals {s t u : State} {f : Frame} (h : ComesIn s t f) (g : SignalsMove t u) : ComesIn s u f where
  frame := by rw [g.frames]; exact h.frame
  held := by rw [g.waiting, g.queued]; exact h.held
  nextFrame := g.nextFrame.trans h.nextFrame
  receiving := g.receiving.trans h.receiving

section
variable {s : State} {f : Frame}

/-- A frame that enters its inlet queue is marked with its record and leaves those that wait (R224, R334). -/
theorem State.enterQueue_fabric {id : Nat} {g : Frame} (h : s.frame id = some g) : ∃ log, (s.enterQueue id).fabric =
    { s.fabric with
      frames := updBy Frame.id id (fun x => { x with log := log }) s.fabric.frames,
      waiting := s.fabric.waiting.erase id, queued := s.fabric.queued ++ [⟨id, 0⟩] } := by
  refine ⟨(s.logFrame g.entry g).2, ?_⟩
  have hlog : (s.logFrame g.entry g).1.fabric = s.fabric := (State.logFrame_only ..).fst.fabric rfl
  unfold State.enterQueue
  rw [h, ← hlog]
  rfl

/-- The fabric with a frame that has been taken in, before it is queued or held. -/
def State.frameAdded (s : State) (f : Frame) : State :=
  ((s.setFab fun x => { x with nextFrame := x.nextFrame + 1 }).setFab fun x => { x with frames := x.frames ++ [f] })

theorem State.frameAdded_frame : ∃ g, (s.frameAdded f).frame f.id = some g :=
  Option.isSome_iff_exists.mp (List.find?_isSome.mpr ⟨f, List.mem_append_right _ List.mem_cons_self, BEq.rfl⟩)

/-- A frame that is added comes in by waiting. -/
theorem State.frameAdded_waits {t : State} (h : SignalsMove (s.frameAdded f) t) :
    ComesIn s (t.setFab fun x => { x with waiting := x.waiting ++ [f.id] }) f where
  frame := ⟨f.log, by rw [State.setFab_fabric, h.frames]; exact List.mem_append_right _ List.mem_cons_self⟩
  held := .inl (List.mem_append_right _ List.mem_cons_self)
  nextFrame := h.nextFrame
  receiving := h.receiving

/-- A frame that is added comes in by being queued. -/
theorem State.frameAdded_enters {t : State} (h : SignalsMove (s.frameAdded f) t) : ComesIn s (t.enterQueue f.id) f := by
  obtain ⟨g, hg⟩ := s.frameAdded_frame (f := f)
  obtain ⟨log, hfabric⟩ := State.enterQueue_fabric ((h.frame _).trans hg)
  refine ⟨⟨log, ?_⟩, ?_, ?_, ?_⟩ <;> rw [hfabric]
  · rw [h.frames]
    exact List.mem_map.mpr ⟨f, List.mem_append_right _ List.mem_cons_self, if_pos rfl⟩
  · exact .inr (List.mem_append_right _ List.mem_cons_self)
  · exact h.nextFrame
  · exact h.receiving

/-- A frame that its ingress FIFO can hold comes in (R224, R260). -/
theorem State.takeIn_comesIn (h : s.fifoBytes f.inlet + f.size ≤ 65536) : ComesIn s (s.takeIn f) f := by
  unfold State.takeIn
  extract_lets numbered added traced behind held
  rw [if_neg (show ¬ 65536 < numbered.fifoBytes f.inlet + f.size from Nat.not_lt.mpr h)]
  have htraced : SignalsMove (s.frameAdded f) traced :=
    (State.slowTakes_signals (s.frameAdded f) f).trans (.of_only (State.traceEvent_only ..) rfl)
  have hheld : ComesIn s held f := by
    clear_value behind traced
    dsimp only [held]
    split
    · exact State.frameAdded_waits htraced
    · exact State.frameAdded_enters htraced
  exact (hheld.signals (State.fifoOne_signals ..)).signals (State.updateOff_signals _)

/-- A frame that its ingress FIFO cannot hold is counted and nothing of it comes in (R260). -/
theorem State.takeIn_overrun (h : 65536 < s.fifoBytes f.inlet + f.size) :
    s.takeIn f = (s.setFab fun x => { x with nextFrame := x.nextFrame + 1 }).overrun f := if_pos h

theorem State.overrun_fabric : (s.overrun f).fabric = s.fabric := s.overrun_only f |>.fabric rfl

theorem State.overrun_count (hopen : s.rd P.OBS_FROZEN = 0) :
    (s.overrun f).rd P.PRT_RX_OVERRUN f.port = (s.rd P.PRT_RX_OVERRUN f.port + 1) % 2 ^ 48 := by
  rw [State.overrun, (State.traceDrop_only ..).rd _ _ (by decide) rfl, State.orIn, State.rd_wr_base _ (by decide),
    State.count_rd_self hopen (by decide)]

theorem State.overrun_flag : ((s.overrun f).rd P.PRT_FLAGS).testBit 1 = true := by
  rw [State.overrun, (State.traceDrop_only ..).rd _ _ (by decide) rfl]
  exact State.orIn_testBit _ _ (by decide)

end

/-! ### More of an express frame (R256, R260) -/

section
variable {s : State} {id : Nat} {f : Frame} {bytes : List Byte} {ended bad : Bool}

/-- An express frame that is still received, with what its port and its ingress FIFO can hold. -/
structure State.Grows (s : State) (id : Nat) (f : Frame) (bytes : List Byte) : Prop where
  frame : s.frame id = some f
  unended : f.ended = false
  allowed : bytes.length ≤ s.rd P.PRT_MAX_FRAME f.port
  fits : s.fifoBytes f.inlet + (bytes.length - f.size) ≤ 65536

/-- It takes the bytes received by now, and ends stomped where it ends bad. -/
theorem State.Grows.moreExpress (h : s.Grows id f bytes) : s.moreExpress id bytes ended bad =
    if ended = true ∧ (bad = true ∨ ¬ fcsGood bytes = true) then
      (s.setFrame id fun g => { g with data := bytes, ended := true, stomp := true }).count P.PRT_RX_STOMP f.port
    else s.setFrame id fun g => { g with data := bytes, ended := ended } := by
  unfold State.moreExpress
  rw [h.frame]
  dsimp only
  rw [if_neg (by rw [h.unended]; exact Bool.false_ne_true), if_neg (Nat.not_lt.mpr h.allowed), if_neg (Nat.not_lt.mpr h.fits)]

theorem State.Grows.good (h : s.Grows id f bytes) (hgood : ¬ (ended = true ∧ (bad = true ∨ ¬ fcsGood bytes = true))) :
    s.moreExpress id bytes ended bad = s.setFrame id fun g => { g with data := bytes, ended := ended } :=
  h.moreExpress.trans (if_neg hgood)

theorem State.Grows.stomped (h : s.Grows id f bytes) (hbad : bad = true ∨ ¬ fcsGood bytes = true) :
    s.moreExpress id bytes true bad =
      (s.setFrame id fun g => { g with data := bytes, ended := true, stomp := true }).count P.PRT_RX_STOMP f.port :=
  h.moreExpress.trans (if_pos ⟨rfl, hbad⟩)

/-- One that has passed the maximum of its port ends early (R256). -/
theorem State.moreExpress_over (hf : s.frame id = some f) (hopen : f.ended = false) (hover : s.rd P.PRT_MAX_FRAME f.port < bytes.length) :
    s.moreExpress id bytes ended bad = s.endEarly f (bytes.take (s.rd P.PRT_MAX_FRAME f.port - 4))
      fun t => (t.count P.PRT_RX_OVERSIZE f.port).traceDrop f 1 f.inlet P.PRT_RX_OVERSIZE := by
  unfold State.moreExpress
  rw [hf]
  dsimp only
  rw [if_neg (by rw [hopen]; exact Bool.false_ne_true), if_pos hover]

end

end Sys2Proof.Machine
end

section
/-! ## Ports: FRAME_RECEIVED (R224, R228, R254 to R256, R260, R265) -/

namespace Sys2Proof.Machine

/-! ### A frame that ends on a port -/

section
variable {s : State} {port : Fin 512} {bytes : List Byte} {bad e1 e2 : Bool} {raw : RawStamp}

theorem State.find_receiving_none {p : Nat} (h : ∀ k ∈ s.fabric.receiving, k.port ≠ p) :
    (s.fabric.receiving.find? fun k => k.port == p) = none :=
  List.find?_eq_none.mpr fun k hk => by simpa using h k hk

/-- The counter of a frame that is not good (R254). -/
theorem State.badFrame_counter {p ctr : Nat} (h : ((bad = true ∨ fcsGood bytes = false) ∧ ctr = P.PRT_RX_FCS_ERR) ∨
    (bad = false ∧ fcsGood bytes = true ∧ bytes.length < 64 ∧ ctr = P.PRT_RX_RUNT) ∨
    (bad = false ∧ fcsGood bytes = true ∧ 64 ≤ bytes.length ∧ s.rd P.PRT_MAX_FRAME p < bytes.length ∧ ctr = P.PRT_RX_OVERSIZE)) :
    s.badFrame p bytes bad = some ctr := by
  unfold State.badFrame
  rcases h with ⟨hbad, rfl⟩ | ⟨rfl, hfcs, hshort, rfl⟩ | ⟨rfl, hfcs, hlong, hover, rfl⟩
  · rw [if_pos (by simpa using hbad)]
  · rw [if_neg (by simp [hfcs]), if_pos hshort]
  · rw [if_neg (by simp [hfcs]), if_neg (Nat.not_lt.mpr hlong), if_pos hover]

theorem State.badFrame_good {p : Nat} (hfcs : fcsGood bytes = true) (hlong : 64 ≤ bytes.length)
    (hmax : bytes.length ≤ s.rd P.PRT_MAX_FRAME p) : s.badFrame p bytes false = none := by
  unfold State.badFrame
  rw [if_neg (by simp [hfcs]), if_neg (Nat.not_lt.mpr hlong), if_neg (Nat.not_lt.mpr hmax)]

/-- A port that is up, outside shutter mode. -/
structure State.Receives (s : State) (p : Nat) : Prop where
  up : s.portUp p = true
  normal : s.rd P.PWR_SHUTTER_STATE = 0

theorem exec_frameReceived_down (h : s.portUp port.val = false) : exec (.frameReceived port bytes bad e1 e2 raw) s = .next s :=
  if_pos (by rw [h]; exact Bool.false_ne_true)

theorem exec_frameReceived_bad {ctr : Nat} (h : s.Receives port.val) (hnone : ∀ k ∈ s.fabric.receiving, k.port ≠ port.val)
    (hbad : s.badFrame port.val bytes bad = some ctr) :
    exec (.frameReceived port bytes bad e1 e2 raw) s = .next ((s.stamped port.val).count ctr port.val) := by
  refine (if_neg (not_not_intro h.up)).trans ((if_neg (not_not_intro h.normal)).trans ?_)
  dsimp only
  rw [State.find_receiving_none hnone, hbad]

theorem exec_frameReceived_express {r : Receiving} (h : s.Receives port.val)
    (hr : (s.fabric.receiving.find? fun k => k.port == port.val) = some r) :
    exec (.frameReceived port bytes bad e1 e2 raw) s = .next (s.endExpress r bytes bad) := by
  refine (if_neg (not_not_intro h.up)).trans ((if_neg (not_not_intro h.normal)).trans ?_)
  dsimp only
  rw [hr]

/-- A MAC control frame, and an NHP frame where NHP runs, have commands of their own (R251, R407). -/
theorem exec_frameReceived_elsewhere (h : s.Receives port.val) (hnone : ∀ k ∈ s.fabric.receiving, k.port ≠ port.val)
    (hgood : s.badFrame port.val bytes false = none)
    (hown : isMacControl bytes = true ∨ (isNhp bytes = true ∧ s.nhpRuns port.val = true)) :
    exec (.frameReceived port bytes false e1 e2 raw) s = .next s := by
  refine (if_neg (not_not_intro h.up)).trans ((if_neg (not_not_intro h.normal)).trans ?_)
  dsimp only
  rw [State.find_receiving_none hnone, hgood]
  dsimp only
  split
  · rfl
  · next hcontrol =>
    obtain ⟨hnhp, hruns⟩ := hown.resolve_left hcontrol
    rw [if_pos hnhp, if_pos hruns]

/-! ### An ordinary frame (R224, R228, R283, R293) -/

/-- An ordinary frame stamped, looked up and asked to be learned, and the state with that. -/
def State.ordinaryFrame (s : State) (p : Nat) (bytes : List Byte) (e1 e2 : Bool) (raw : RawStamp) : State × Frame :=
  let stamped := s.rxStamp p raw
  let tagged := stamped.1.tagFrame (reachOf p)
  let found := tagged.1.lookup p bytes e1 e2
  let learnt := found.1.learnRequest p bytes found.2 stamped.2.ns
  (learnt, learnt.newFrame p bytes found.2 stamped.2 bytes.length false true tagged.2)

/-- What stamps, tags, lookups and learning may change. -/
def lookupWrites : Option (List Nat) := some [F.tables, F.tagRegs, P.OBS_TAG_COUNT, P.TBL_FLAGS, P.TBL_HAIRPIN, P.TBL_LEARN_DROP,
  P.TBL_OCCUPANCY, P.TBL_STASH_USED, P.TBL_STREAM_ECC, P.TBS_OVER_LIMIT_COUNT]

theorem State.ordinaryFrame_only (s : State) (p : Nat) (bytes : List Byte) (e1 e2 : Bool) (raw : RawStamp) :
    Only lookupWrites s (s.ordinaryFrame p bytes e1 e2 raw).1 := by
  unfold State.ordinaryFrame
  extract_lets stamped tagged found learnt
  have hstamped : Only lookupWrites s stamped.1 := (s.rxStamp_only p raw).fst.mono rfl
  have htagged : Only lookupWrites s tagged.1 := hstamped.fst (State.tagFrame_only ..) rfl
  have hfound : Only lookupWrites s found.1 := htagged.fst (State.lookup_only ..) rfl
  exact hfound.step (State.learnRequest_only ..) rfl

theorem State.ordinaryFrame_id (p : Nat) : (s.ordinaryFrame p bytes e1 e2 raw).2.id = s.fabric.nextFrame :=
  congrArg Fabric.nextFrame ((s.ordinaryFrame_only p bytes e1 e2 raw).fabric rfl)

theorem State.ordinaryFrame_fifoBytes (p i : Nat) : (s.ordinaryFrame p bytes e1 e2 raw).1.fifoBytes i = s.fifoBytes i := by
  have hfabric := (s.ordinaryFrame_only p bytes e1 e2 raw).fabric rfl
  exact State.fifoBytes_congr (by rw [hfabric]) (by rw [hfabric]) (by rw [hfabric]) i

theorem exec_frameReceived_ordinary (h : s.Receives port.val) (hnone : ∀ k ∈ s.fabric.receiving, k.port ≠ port.val)
    (hgood : s.badFrame port.val bytes false = none) (hcontrol : isMacControl bytes = false) (hnhp : isNhp bytes = false) :
    exec (.frameReceived port bytes false e1 e2 raw) s = .next
      ((s.ordinaryFrame port.val bytes e1 e2 raw).1.takeIn (s.ordinaryFrame port.val bytes e1 e2 raw).2) := by
  refine (if_neg (not_not_intro h.up)).trans ((if_neg (not_not_intro h.normal)).trans ?_)
  dsimp only
  rw [State.find_receiving_none hnone, hgood]
  dsimp only
  rw [if_neg (by simp [hcontrol]), if_neg (by simp [hnhp])]
  rfl

end

/-! ### The end of an express frame (R256) -/

section
variable {s : State} {r : Receiving} {f : Frame} {bytes : List Byte} {bad : Bool}

/-- The state in which a port receives no express frame any more. -/
def State.receptionOver (s : State) (r : Receiving) : State :=
  s.setFab fun x => { x with receiving := x.receiving.filter fun y => y.port != r.port }

/-- The state in which the express frame has its last bytes. -/
def State.bytesEnded (s : State) (r : Receiving) (bytes : List Byte) (bad : Bool) : State :=
  (s.receptionOver r).moreExpress r.frame bytes true bad

/-- Its end changes the fabric no further than by the signals of the sluice chain, and counts no frame. -/
theorem State.endExpress_signals : SignalsMove (s.bytesEnded r bytes bad) (s.endExpress r bytes bad) ∧
    Agrees [P.PRT_RX_STOMP, P.PRT_RX_OVERSIZE] (s.bytesEnded r bytes bad) (s.endExpress r bytes bad) := by
  unfold State.endExpress
  extract_lets closed ended learnt
  have hlearnt : Only (some [F.tables, P.TBL_LEARN_DROP]) ended learnt := .cond _ (State.learnRequest_only ..) (.refl _ _)
  exact ⟨(SignalsMove.of_only hlearnt rfl).trans (State.evaluateSluice_signals _),
    (hlearnt.agrees rfl).trans ((State.evaluateSluice_only _).agrees rfl)⟩

theorem State.receptionOver_receiving {port : Nat} (hr : r.port = port) : ∀ k ∈ (s.receptionOver r).fabric.receiving, k.port ≠ port := by
  intro k hk
  simpa [hr] using (List.mem_filter.mp hk).2

theorem State.receptionOver_fifoBytes (i : Nat) : (s.receptionOver r).fifoBytes i = s.fifoBytes i := State.fifoBytes_congr rfl rfl rfl i

theorem State.receptionOver_grows (hf : s.frame r.frame = some f) (hopen : f.ended = false)
    (hmax : bytes.length ≤ s.rd P.PRT_MAX_FRAME f.port) (hfits : s.fifoBytes f.inlet + (bytes.length - f.size) ≤ 65536) :
    (s.receptionOver r).Grows r.frame f bytes :=
  ⟨hf, hopen, hmax, by rwa [State.receptionOver_fifoBytes]⟩

/-- The bytes of an express frame that its port allows and its FIFO holds: the frame ends, stomped where it ends bad. -/
theorem State.bytesEnded_ends (hgrows : (s.receptionOver r).Grows r.frame f bytes) (hfrozen : s.rd P.OBS_FROZEN = 0) :
    ∃ g, (s.bytesEnded r bytes bad).frame r.frame = some g ∧ g.data = bytes ∧ g.ended = true ∧
      (s.bytesEnded r bytes bad).fabric.receiving = (s.receptionOver r).fabric.receiving ∧
      (bad = false → fcsGood bytes = true → g.stomp = f.stomp) ∧
      (bad = true ∨ fcsGood bytes = false → g.stomp = true ∧
        (s.bytesEnded r bytes bad).rd P.PRT_RX_STOMP f.port = (s.rd P.PRT_RX_STOMP f.port + 1) % 2 ^ 48) := by
  unfold State.bytesEnded
  by_cases hbad : bad = true ∨ ¬ fcsGood bytes = true
  · rw [hgrows.stomped hbad]
    refine ⟨{ f with data := bytes, ended := true, stomp := true }, ?_, rfl, rfl, ?_, fun hb hfcs => ?_, fun _ => ⟨rfl, ?_⟩⟩
    · rw [State.frame_count]
      exact State.frame_setFrame_some hgrows.frame (by intro _; rfl)
    · rw [State.count_fabric]
      rfl
    · rw [hb, hfcs] at hbad
      simp at hbad
    · rw [State.count_rd_self (by exact hfrozen) (by decide)]
      rfl
  · rw [hgrows.good fun h => hbad h.2]
    refine ⟨{ f with data := bytes, ended := true }, ?_, rfl, rfl, rfl, fun _ _ => rfl, fun hb => absurd ?_ hbad⟩
    · exact State.frame_setFrame_some hgrows.frame (by intro _; rfl)
    · simpa using hb

/-- One longer than its port allows is lost whole and counted while none of its cells has left, else ended with STOMP (R256). -/
theorem State.bytesEnded_over (hf : s.frame r.frame = some f) (hopen : f.ended = false) (hfrozen : s.rd P.OBS_FROZEN = 0)
    (hover : s.rd P.PRT_MAX_FRAME f.port < bytes.length) :
    (s.untouched f.id = true →
      (s.bytesEnded r bytes bad).rd P.PRT_RX_OVERSIZE f.port = (s.rd P.PRT_RX_OVERSIZE f.port + 1) % 2 ^ 48 ∧
      ∀ q ∈ (s.bytesEnded r bytes bad).fabric.queued, q.frame ≠ f.id) ∧
    (s.untouched f.id = false →
      (s.bytesEnded r bytes bad).rd P.PRT_RX_STOMP f.port = (s.rd P.PRT_RX_STOMP f.port + 1) % 2 ^ 48 ∧
      ∃ g, (s.bytesEnded r bytes bad).frame r.frame = some g ∧ g.ended = true ∧ g.stomp = true) := by
  have huntouched : (s.receptionOver r).untouched f.id = s.untouched f.id := State.untouched_congr rfl rfl f.id
  have hended : s.bytesEnded r bytes bad = _ := State.moreExpress_over hf hopen hover
  rw [hended, State.endEarly, huntouched]
  constructor <;> intro h
  · rw [if_pos h]
    refine ⟨?_, fun q hq => ?_⟩
    · rw [(State.withdraw_only ..).rd _ _ (by decide) rfl, (State.traceDrop_only ..).rd _ _ (by decide) rfl]
      rw [State.count_rd_self (by exact hfrozen) (by decide)]
      rfl
    · simpa using (List.mem_filter.mp hq).2
  · rw [if_neg (by rw [h]; exact Bool.false_ne_true)]
    refine ⟨?_, ?_⟩
    · rw [State.count_rd_self (by exact hfrozen) (by decide)]
      rfl
    · rw [State.frame_count, State.frame_id hf]
      exact ⟨_, State.frame_setFrame_some (s := s.receptionOver r) hf (by intro _; rfl), rfl, rfl⟩

end

/-! ### The obligation -/

/-- Settles O30: what ends on a port by whether it is bad, whether an express frame is being received, and whether its FIFO holds it. -/
theorem framesComeInOrAreCounted : Obligations.FramesComeInOrAreCounted := by
  unfold Obligations.FramesComeInOrAreCounted
  refine ⟨?bad, ?ordinary, ?overrun, ?express, ?oversize, fun port bytes e1 e2 raw s hup hnormal => exec_frameReceived_elsewhere ⟨hup, hnormal⟩,
    fun port bytes bad e1 e2 raw s => exec_frameReceived_down⟩
  case bad =>
    intro port bytes bad e1 e2 raw s ctr hup hnormal hfrozen hnone hfault
    have hexec := exec_frameReceived_bad (e1 := e1) (e2 := e2) (raw := raw) ⟨hup, hnormal⟩ hnone (State.badFrame_counter hfault)
    have hfrozen' : (s.stamped port.val).rd P.OBS_FROZEN = 0 := (State.stamped_rd _ _ (by decide) _).trans hfrozen
    have hctr : ctr ≠ P.OBS_OVF ∧ ctr ≠ P.TBS_OVER_LIMIT_COUNT ∧ allows (some [ctr, P.OBS_OVF, P.TBS_OVER_LIMIT_COUNT]) ctr = true := by
      rcases hfault with ⟨-, rfl⟩ | ⟨-, -, -, rfl⟩ | ⟨-, -, -, -, rfl⟩ <;> decide
    obtain ⟨hovf, hlimit, hallows⟩ := hctr
    refine ⟨_, hexec, ?_, fun p hp => ?_, Only.count_open ((s.stamped_only _).mono ?_) hallows ?_ hfrozen' ..⟩
    · rw [State.count_rd_self hfrozen' hovf, State.stamped_rd _ _ hlimit]
    · rw [State.count_rd hfrozen' hovf, if_neg hp, State.stamped_rd _ _ hlimit]
    · simp [within, allows]
    · simp [allows]
  case ordinary =>
    intro port bytes e1 e2 raw s hup hnormal hnone hfcs hlong hmax hcontrol hnhp hfits
    have hexec := exec_frameReceived_ordinary (e1 := e1) (e2 := e2) (raw := raw) ⟨hup, hnormal⟩ hnone
      (State.badFrame_good hfcs hlong hmax) hcontrol hnhp
    have hid := s.ordinaryFrame_id (bytes := bytes) (e1 := e1) (e2 := e2) (raw := raw) port.val
    obtain ⟨⟨log, hframe⟩, hheld, hnext, -⟩ := State.takeIn_comesIn (s := (s.ordinaryFrame port.val bytes e1 e2 raw).1)
      (f := (s.ordinaryFrame port.val bytes e1 e2 raw).2) (by rw [State.ordinaryFrame_fifoBytes]; exact hfits)
    rw [hid] at hheld
    rw [(s.ordinaryFrame_only ..).fabric rfl] at hnext
    exact ⟨_, _, hexec, hframe, hid, rfl, rfl, rfl, rfl, rfl, rfl, hnext, hheld, (execFrameReceived_only ..).next _ hexec⟩
  case overrun =>
    intro port bytes e1 e2 raw s hup hnormal hfrozen hnone hfcs hlong hmax hcontrol hnhp hfull
    have hexec := exec_frameReceived_ordinary (e1 := e1) (e2 := e2) (raw := raw) ⟨hup, hnormal⟩ hnone
      (State.badFrame_good hfcs hlong hmax) hcontrol hnhp
    have honly := s.ordinaryFrame_only port.val bytes e1 e2 raw
    have hover := State.takeIn_overrun (s := (s.ordinaryFrame port.val bytes e1 e2 raw).1)
      (f := (s.ordinaryFrame port.val bytes e1 e2 raw).2) (by rw [State.ordinaryFrame_fifoBytes]; exact hfull)
    rw [hover] at hexec
    refine ⟨_, hexec, ?_, ?_, State.overrun_flag, (execFrameReceived_only ..).next _ hexec⟩
    · rw [State.overrun_fabric, State.setFab_fabric, honly.fabric rfl]
    · refine (State.overrun_count ?_).trans ?_
      · rw [State.setFab_rd, honly.rd _ _ (by decide) rfl, hfrozen]
      · rw [State.setFab_rd, honly.rd _ _ (by decide) rfl]
        rfl
  case express =>
    intro port bytes bad e1 e2 raw s r f hup hnormal hfrozen hr hf hopen hport hmax hfits
    have hexec := exec_frameReceived_express (bytes := bytes) (bad := bad) (e1 := e1) (e2 := e2) (raw := raw) ⟨hup, hnormal⟩ hr
    have hrport : r.port = port.val := by simpa using List.find?_some hr
    obtain ⟨hsignals, hcounts⟩ := s.endExpress_signals (r := r) (bytes := bytes) (bad := bad)
    obtain ⟨g, hg, hdata, hended, hreceiving, hgood, hbad⟩ :=
      State.bytesEnded_ends (bad := bad) (State.receptionOver_grows hf hopen (by rwa [hport]) hfits) hfrozen
    refine ⟨_, g, hexec, (hsignals.frame _).trans hg, hdata, hended, ?_, hgood, fun h => ⟨(hbad h).1, ?_⟩,
      (execFrameReceived_only ..).next _ hexec⟩
    · rw [hsignals.receiving, hreceiving]
      exact State.receptionOver_receiving hrport
    · rw [hcounts _ (by decide), ← hport]
      exact (hbad h).2
  case oversize =>
    intro port bytes bad e1 e2 raw s r f hup hnormal hfrozen hr hf hopen hport hover
    have hexec := exec_frameReceived_express (bytes := bytes) (bad := bad) (e1 := e1) (e2 := e2) (raw := raw) ⟨hup, hnormal⟩ hr
    obtain ⟨hsignals, hcounts⟩ := s.endExpress_signals (r := r) (bytes := bytes) (bad := bad)
    obtain ⟨hwhole, hcut⟩ := State.bytesEnded_over (bad := bad) hf hopen hfrozen (by rwa [hport])
    rw [hport] at hwhole hcut
    refine ⟨_, hexec, fun h => ⟨?_, ?_⟩, fun h => ⟨?_, ?_⟩, (execFrameReceived_only ..).next _ hexec⟩
    · rw [hcounts _ (by decide)]
      exact (hwhole h).1
    · rw [hsignals.queued]
      exact (hwhole h).2
    · rw [hcounts _ (by decide)]
      exact (hcut h).1
    · rw [hsignals.frame]
      exact (hcut h).2

end Sys2Proof.Machine
end

section
/-! ## Ports: the express start test, and a frame admitted (R224, R244, R255, R260, R342) -/

namespace Sys2Proof.Machine

/-! ### EXPRESS_START_TEST (R255) -/

section
variable {s : State} {port : Fin 512} {bytes : List Byte} {ended bad e1 e2 : Bool} {raw : RawStamp}

/-- The start test of a frame is due: at its 128th byte or its end, on a port that is up, outside shutter mode. -/
structure State.TestDue (s : State) (p : Nat) (bytes : List Byte) (ended : Bool) : Prop where
  receives : s.Receives p
  reached : 128 ≤ bytes.length ∨ ended = true

theorem State.TestDue.not_early {p : Nat} (h : s.TestDue p bytes ended) :
    ¬ (s.rd P.PWR_SHUTTER_STATE ≠ 0 ∨ ¬ s.portUp p = true ∨ (bytes.length < 128 ∧ ¬ ended = true)) := by
  rintro (hshutter | hdown | ⟨hshort, hopen⟩)
  · exact hshutter h.receives.normal
  · exact hdown h.receives.up
  · exact h.reached.elim (Nat.not_le.mpr hshort) hopen

/-- A frame is eligible by its port or by the Stream entry of its lookup (R255). -/
def State.eligible (s : State) (p : Nat) (l : Lookup) : Prop := s.rdb P.PRT_EXPRESS p = true ∨ streamExpress l.entry = true

/-- An express frame looked up and stamped, the state with that, and the note of its reception (R228, R293). -/
def State.expressFrame (s : State) (p : Nat) (bytes : List Byte) (ended e1 e2 : Bool) (raw : RawStamp) : State × Frame × Receiving :=
  let found := s.lookup p bytes e1 e2
  let tagged := found.1.tagFrame (reachOf p)
  let stamped := tagged.1.rxStamp p raw
  let f := stamped.1.newFrame p bytes found.2 stamped.2 (bytes.length + if ended then 0 else 32768) true ended tagged.2
  (stamped.1, f, ⟨p, f.id, found.2.vid, found.2.entry, stamped.2.ns⟩)

theorem State.expressFrame_only (s : State) (p : Nat) (bytes : List Byte) (ended e1 e2 : Bool) (raw : RawStamp) :
    Only lookupWrites s (s.expressFrame p bytes ended e1 e2 raw).1 := by
  unfold State.expressFrame
  extract_lets found tagged stamped f
  have hfound : Only lookupWrites s found.1 := (s.lookup_only p bytes e1 e2).fst.mono rfl
  have htagged : Only lookupWrites s tagged.1 := hfound.fst (State.tagFrame_only ..) rfl
  have hstamped : Only lookupWrites s stamped.1 := htagged.fst (State.rxStamp_only ..) rfl
  exact hstamped

/-- The state in which an express frame has started. -/
def State.started (s : State) (p : Nat) (bytes : List Byte) (ended e1 e2 : Bool) (raw : RawStamp) : State :=
  ((s.expressFrame p bytes ended e1 e2 raw).1.takeIn (s.expressFrame p bytes ended e1 e2 raw).2.1).setFab fun y =>
    { y with receiving := y.receiving ++ [(s.expressFrame p bytes ended e1 e2 raw).2.2] }

theorem exec_expressStartTest_starts (h : s.TestDue port.val bytes ended) (hnone : ∀ k ∈ s.fabric.receiving, k.port ≠ port.val)
    (hclean : expressError bytes ended bad = false) (heligible : s.eligible port.val (s.lookup port.val bytes e1 e2).2)
    (hpasses : s.expressPasses port.val bytes (s.lookup port.val bytes e1 e2).2 = true) :
    exec (.expressStartTest port bytes ended bad e1 e2 raw) s = .next (s.started port.val bytes ended e1 e2 raw) := by
  refine (if_neg h.not_early).trans ?_
  dsimp only
  rw [State.find_receiving_none hnone]
  refine (if_neg (not_or.mpr ⟨?_, not_not_intro heligible⟩)).trans (if_neg (not_not_intro hpasses))
  rw [hclean]
  exact Bool.false_ne_true

theorem exec_expressStartTest_demotes (h : s.TestDue port.val bytes ended) (hnone : ∀ k ∈ s.fabric.receiving, k.port ≠ port.val)
    (hclean : expressError bytes ended bad = false) (heligible : s.eligible port.val (s.lookup port.val bytes e1 e2).2)
    (hpasses : s.expressPasses port.val bytes (s.lookup port.val bytes e1 e2).2 = false) :
    exec (.expressStartTest port bytes ended bad e1 e2 raw) s = .next (s.count P.PRT_EXPRESS_DEMOTED port.val) := by
  refine (if_neg h.not_early).trans ?_
  dsimp only
  rw [State.find_receiving_none hnone]
  refine (if_neg (not_or.mpr ⟨?_, not_not_intro heligible⟩)).trans (if_pos ?_)
  · rw [hclean]
    exact Bool.false_ne_true
  · rw [hpasses]
    exact Bool.false_ne_true

/-- A frame that is not eligible or in error is left alone. -/
theorem exec_expressStartTest_exempt (hnone : ∀ k ∈ s.fabric.receiving, k.port ≠ port.val)
    (hexempt : expressError bytes ended bad = true ∨ ¬ s.eligible port.val (s.lookup port.val bytes e1 e2).2) :
    exec (.expressStartTest port bytes ended bad e1 e2 raw) s = .next s := by
  change execExpressStartTest port bytes ended bad e1 e2 raw s = _
  unfold execExpressStartTest
  dsimp only
  split
  · rfl
  · rw [State.find_receiving_none hnone]
    exact if_pos hexempt

theorem exec_expressStartTest_early (h : s.rd P.PWR_SHUTTER_STATE ≠ 0 ∨ s.portUp port.val = false ∨ (bytes.length < 128 ∧ ended = false)) :
    exec (.expressStartTest port bytes ended bad e1 e2 raw) s = .next s :=
  if_pos (by simpa using h)

/-- The end of a frame that has started is FRAME_RECEIVED's. -/
theorem exec_expressStartTest_ended (h : ∃ k ∈ s.fabric.receiving, k.port = port.val) :
    exec (.expressStartTest port bytes true bad e1 e2 raw) s = .next s := by
  obtain ⟨k, hk, hport⟩ := h
  change execExpressStartTest port bytes true bad e1 e2 raw s = _
  unfold execExpressStartTest
  dsimp only
  split
  · rfl
  · split
    · rfl
    · next hnone => exact absurd (beq_iff_eq.mpr hport) (List.find?_eq_none.mp hnone k hk)

theorem exec_expressStartTest_grows {r : Receiving} (h : s.TestDue port.val bytes false)
    (hr : (s.fabric.receiving.find? fun k => k.port == port.val) = some r) : exec (.expressStartTest port bytes false bad e1 e2 raw) s =
    .next (s.moreExpress r.frame bytes false false).evaluateSluice := by
  refine (if_neg h.not_early).trans ?_
  dsimp only
  rw [hr]
  rfl

/-- One unicast port that is up, another and no faster, of a frame that is not for the module itself (R255). -/
theorem State.expressPasses_iff {p : Nat} {l : Lookup} : s.expressPasses p bytes l = true ↔
    l.kind = 0 ∧ s.portUp l.dest = true ∧ l.dest ≠ p ∧ s.gbps l.dest ≤ s.gbps p ∧ isMacControl bytes = false ∧ isNhp bytes = false := by
  simp [State.expressPasses, and_assoc]

end

/-! ### FRAME_ADMITTED (R224, R244, R342) -/

section
variable {s : State} {inlet : Fin 64}

/-- Whether a frame that waits is one of inlet `i` whose bar has lifted. -/
def State.admissible (s : State) (i id : Nat) : Bool :=
  match s.frame id with
  | some f => f.inlet == i && !s.barred f.entry
  | none => false

theorem exec_frameAdmitted_free {id : Nat} (h : s.fabric.waiting.find? (s.admissible inlet.val) = some id) :
    exec (.frameAdmitted inlet) s = .next (s.enterQueue id).evaluateSluice := by
  change execFrameAdmitted inlet s = _
  unfold execFrameAdmitted
  extract_lets i free
  have hfree : free = some id := h
  rw [hfree]

theorem exec_frameAdmitted_barred (h : s.fabric.waiting.find? (s.admissible inlet.val) = none) :
    exec (.frameAdmitted inlet) s = .next s := by
  change execFrameAdmitted inlet s = _
  unfold execFrameAdmitted
  extract_lets i free
  have hfree : free = none := h
  rw [hfree]

theorem State.admissible_frame {i id : Nat} (h : s.admissible i id = true) : ∃ f, s.frame id = some f := by
  unfold State.admissible at h
  split at h
  · next f hf => exact ⟨f, hf⟩
  · cases h

end

/-! ### The obligation -/

/-- Settles O31: the start test by eligibility and by what the frame may not do, and admission by the frame whose bar has lifted. -/
theorem expressStartAndAdmission : Obligations.ExpressStartAndAdmission := by
  unfold Obligations.ExpressStartAndAdmission
  refine ⟨?starts, ?demotes, ?exempt, ?grows, ?admits, fun inlet s h => exec_frameAdmitted_barred h⟩
  case starts =>
    rintro port bytes ended e1 e2 raw s l rfl hnormal hup heligible hcontrol hnhp hreached hnone hclean hkind hdestUp hother hrate hfits
    have hexec := exec_expressStartTest_starts (raw := raw) ⟨⟨hup, hnormal⟩, hreached⟩ hnone hclean heligible
      (State.expressPasses_iff.mpr ⟨hkind, hdestUp, hother, hrate, hcontrol, hnhp⟩)
    have honly := s.expressFrame_only port.val bytes ended e1 e2 raw
    have hfabric := honly.fabric rfl
    have hid : (s.expressFrame port.val bytes ended e1 e2 raw).2.1.id = s.fabric.nextFrame := congrArg Fabric.nextFrame hfabric
    have hfifo := State.fifoBytes_congr (congrArg Fabric.frames hfabric) (congrArg Fabric.waiting hfabric)
      (congrArg Fabric.queued hfabric) (port.val / 8)
    obtain ⟨⟨log, hframe⟩, -, -, hreceiving⟩ := State.takeIn_comesIn (s := (s.expressFrame port.val bytes ended e1 e2 raw).1)
      (f := (s.expressFrame port.val bytes ended e1 e2 raw).2.1) (by rw [← hfifo] at hfits; exact hfits)
    refine ⟨_, _, hexec, hframe, hid, rfl, rfl, rfl, rfl, rfl, ?_, ?_, (execExpressStartTest_only ..).next _ hexec⟩
    · rw [State.started, State.setFab_fabric]
      dsimp only
      rw [hreceiving, hfabric, ← hid]
      rfl
    · rw [State.started, State.setFab_rd, (State.takeIn_only ..).rd _ _ (by decide) rfl, honly.rd _ _ (by decide) rfl]
  case demotes =>
    rintro port bytes ended e1 e2 raw s l rfl hnormal hup hfrozen heligible hreached hnone hclean hfails
    have hexec := exec_expressStartTest_demotes (raw := raw) ⟨⟨hup, hnormal⟩, hreached⟩ hnone hclean heligible ?_
    · exact ⟨_, hexec, State.count_rd_self hfrozen (by decide) .., Only.count_open (.refl _ s) rfl rfl hfrozen ..⟩
    · refine Bool.eq_false_iff.mpr fun hpasses => ?_
      obtain ⟨hkind, hdestUp, hother, hrate, hcontrol, hnhp⟩ := State.expressPasses_iff.mp hpasses
      rcases hfails with h | h | h | h | h | h
      · exact h hkind
      · simp [h] at hdestUp
      · exact hother h
      · omega
      · simp [h] at hcontrol
      · simp [h] at hnhp
  case exempt =>
    rintro port bytes ended bad e1 e2 raw s l rfl (h | h | h | ⟨rfl, h⟩ | ⟨hnone, h⟩)
    · exact exec_expressStartTest_early (.inl h)
    · exact exec_expressStartTest_early (.inr (.inl h))
    · exact exec_expressStartTest_early (.inr (.inr h))
    · exact exec_expressStartTest_ended h
    · refine exec_expressStartTest_exempt hnone (h.symm.imp_right fun ⟨hport, hentry⟩ => ?_)
      simp [State.eligible, hport, hentry]
  case grows =>
    intro port bytes bad e1 e2 raw s r f hnormal hup hlong hr hf hopen hmax hfits
    have hexec := exec_expressStartTest_grows (bad := bad) (e1 := e1) (e2 := e2) (raw := raw) ⟨⟨hup, hnormal⟩, .inl hlong⟩ hr
    have hsignals := (s.moreExpress r.frame bytes false false).evaluateSluice_signals
    have hmore := (⟨hf, hopen, hmax, hfits⟩ : s.Grows r.frame f bytes).good (ended := false) (bad := false) (by simp)
    refine ⟨_, { f with data := bytes, ended := false }, hexec, ?_, rfl, rfl, ?_, (execExpressStartTest_only ..).next _ hexec⟩
    · rw [hsignals.frame, hmore]
      exact State.frame_setFrame_some hf (by intro _; rfl)
    · rw [hsignals.receiving, hmore]
      rfl
  case admits =>
    intro inlet s id hfree
    have hexec := exec_frameAdmitted_free hfree
    obtain ⟨f, hf⟩ := State.admissible_frame (List.find?_some hfree)
    obtain ⟨log, hfabric⟩ := State.enterQueue_fabric hf
    have hsignals := (s.enterQueue id).evaluateSluice_signals
    refine ⟨_, hexec, ?_, ?_, (execFrameAdmitted_only inlet s).next _ hexec⟩
    · rw [hsignals.queued, hfabric]
    · rw [hsignals.waiting, hfabric]

end Sys2Proof.Machine
end

section
/-! ## Ports: a copy starts, and a copy has left (R60, R253, R256, R257, R265, R272) -/

namespace Sys2Proof.Machine

/-! ### The copy a port starts (R253) -/

section
variable {s : State} {p : Nat}

theorem State.classQueue_cls {c : Nat} {k : Copy} (h : (s.classQueue p c).head? = some k) : k.cls = c := by
  have hpick := (List.mem_filter.mp (List.mem_of_mem_head? h)).2
  simp only [Bool.and_eq_true, beq_iff_eq] at hpick
  obtain ⟨⟨⟨⟨-, hcls⟩, -⟩, -⟩, -⟩ := hpick
  exact hcls

/-- In the classes from 7 down, every class above one of them stands before it. -/
theorem classes_above {l₁ l₂ : List Nat} {a c : Nat} (hsplit : [7, 6, 5, 4, 3, 2, 1, 0] = l₁ ++ a :: l₂) (hac : a < c) (hc : c < 8) :
    c ∈ l₁ := by
  have hmem : c ∈ l₁ ++ a :: l₂ := by rw [← hsplit]; interval_cases c <;> decide
  have hfalls : (l₁ ++ a :: l₂).Pairwise (· > ·) := by rw [← hsplit]; decide
  obtain ⟨-, hafter, -⟩ := List.pairwise_append.mp hfalls
  rcases List.mem_append.mp hmem with h | h
  · exact h
  · rcases List.mem_cons.mp h with rfl | h
    · exact absurd hac (Nat.lt_irrefl _)
    · exact absurd ((List.pairwise_cons.mp hafter).1 c h) (Nat.not_lt.mpr hac.le)

/-- A port starts a copy only where no head of a higher class may start. -/
theorem State.nextCopyOf_highest {k : Copy} {f : Frame} {o : Bool} (h : s.nextCopyOf p = some (k, f, o)) {c : Nat} {j : Copy} {g : Frame}
    (hkc : k.cls < c) (hc : c < 8) (hj : (s.classQueue p c).head? = some j) (hg : s.frame j.frame = some g) :
    s.mayStart p c j g = none := by
  obtain ⟨l₁, a, l₂, hsplit, ha, hbefore⟩ := List.findSome?_eq_some_iff.mp h
  have hcls : k.cls = a := by
    split at ha
    · next x hx =>
      split at ha
      · obtain ⟨_, -, hstart⟩ := Option.map_eq_some_iff.mp ha
        obtain ⟨rfl, -⟩ := Prod.mk.inj hstart
        exact State.classQueue_cls hx
      · cases ha
    · cases ha
  have hnone := hbefore c (classes_above hsplit (hcls ▸ hkc) hc)
  rw [hj] at hnone
  dsimp only at hnone
  rw [hg] at hnone
  exact Option.map_eq_none_iff.mp hnone

end

/-! ### FRAME_TRANSMIT_START (R253, R323, R328) -/

section
variable {s : State} {port : Fin 512} {raw : RawStamp} {k : Copy} {f : Frame} {o : Bool}

/-- The state in which a copy that overruns its gate is counted (R328). -/
def State.gateNoted (s : State) (p : Nat) (o : Bool) : State :=
  if o then (s.count P.LCK_GATE_OVERRUN p).orIn P.LCK_FLAGS 0 8 else s

theorem State.gateNoted_only (p : Nat) (o : Bool) : Only (some [P.LCK_GATE_OVERRUN, P.LCK_FLAGS]) s (s.gateNoted p o) :=
  .cond _ (((Only.refl _ s).count_plain rfl rfl _ _).orIn rfl _ _) (.refl _ s)

theorem State.gateNoted_overrun (p : Nat) : (s.gateNoted p true).rd P.LCK_GATE_OVERRUN p = (s.rd P.LCK_GATE_OVERRUN p + 1) % 2 ^ 48 ∧
    ((s.gateNoted p true).rd P.LCK_FLAGS).testBit 3 = true := by
  have hcounter : counterIndex P.LCK_GATE_OVERRUN p = none := by simp [counterIndex, counterSet]
  rw [State.gateNoted, if_pos rfl]
  refine ⟨?_, State.orIn_testBit _ _ (by decide)⟩
  rw [State.orIn, State.rd_wr_base _ (by decide), State.count_plain _ _ hcounter, State.rd_wr_self]

/-- The state in which a copy has begun transmission with its stamp. -/
def State.copyStarted (s : State) (p : Nat) (k : Copy) (f : Frame) (o : Bool) (raw : RawStamp) : State :=
  ((s.gateNoted p o).stamped p).beginSend p k f ((s.gateNoted p o).txMark p raw) 0

theorem exec_frameTransmitStart_starts (hup : s.portUp port.val = true) (hidle : s.portIdle port.val = true)
    (hnext : s.nextCopyOf port.val = some (k, f, o)) (hsize : f.size ≤ s.rd P.PRT_MAX_FRAME port.val) :
    exec (.frameTransmitStart port raw) s = .next (s.copyStarted port.val k f o raw) := by
  refine (if_pos ⟨hup, hidle⟩).trans ?_
  rw [hnext]
  exact if_neg (Nat.not_lt.mpr hsize)

theorem exec_frameTransmitStart_oversize (hup : s.portUp port.val = true) (hidle : s.portIdle port.val = true)
    (hnext : s.nextCopyOf port.val = some (k, f, o)) (hsize : s.rd P.PRT_MAX_FRAME port.val < f.size) :
    exec (.frameTransmitStart port raw) s = .next (s.oversizeCopy port.val k f).evaluateSluice := by
  refine (if_pos ⟨hup, hidle⟩).trans ?_
  rw [hnext]
  exact if_pos hsize

theorem exec_frameTransmitStart_rests (h : s.portUp port.val = false ∨ s.portIdle port.val = false ∨ s.nextCopyOf port.val = none) :
    exec (.frameTransmitStart port raw) s = .next s := by
  change execFrameTransmitStart port raw s = _
  unfold execFrameTransmitStart
  dsimp only
  split
  · next hready =>
    obtain ⟨hup, hidle⟩ := hready
    rw [(h.resolve_left (by simp [hup])).resolve_left (by simp [hidle])]
  · rfl

theorem State.copyStarted_quay : (s.copyStarted port.val k f o raw).quay =
    { s.quay with sending := s.quay.sending ++ [⟨port.val, k.id, (s.txStamp port.val raw).2⟩] } := by
  have hnoted := s.gateNoted_only port.val o
  have hstamped : ((s.gateNoted port.val o).stamped port.val).quay = s.quay :=
    ((State.stamped_only ..).quay rfl).trans (hnoted.quay rfl)
  have hmark : (s.gateNoted port.val o).txMark port.val raw = (s.txStamp port.val raw).2 := hnoted.txMark rfl rfl rfl rfl ..
  unfold State.copyStarted State.beginSend
  rw [(State.traceEvent_only ..).quay rfl, State.setQuay, hstamped, hmark]

theorem State.copyStarted_agrees : Agrees [P.LCK_GATE_OVERRUN, P.LCK_FLAGS] (s.gateNoted port.val o) (s.copyStarted port.val k f o raw) :=
  ((State.stamped_only ..).agrees rfl).trans ((State.beginSend_only ..).agrees rfl)

theorem State.oversizeCopy_gone (p : Nat) : ∀ z ∈ (s.oversizeCopy p k f).quay.copies, z.id ≠ k.id := State.releaseCopy_gone _ k _

theorem State.oversizeCopy_count (p : Nat) (hfrozen : s.rd P.OBS_FROZEN = 0) :
    (s.oversizeCopy p k f).rd P.PRT_TX_OVERSIZE p = (s.rd P.PRT_TX_OVERSIZE p + 1) % 2 ^ 48 := by
  rw [State.oversizeCopy, (State.releaseCopy_only ..).rd _ _ (by decide) rfl, (State.traceDrop_only ..).rd _ _ (by decide) rfl,
    State.count_rd_self hfrozen (by decide)]

end

/-! ### TRANSMIT_COMPLETE (R256, R257, R265, R272) -/

section
variable (s : State) (p : Nat) (f : Frame) (x : Stamp) (c : Copy) (underrun parity : Bool)

/-- Whether a frame has passed the maximum of its egress port (R265). -/
def State.outgrown : Bool := s.rd P.PRT_MAX_FRAME p < f.size

/-- Whether a frame leaves stomped: as it is, or cut short by an underrun (R256, R257). -/
def Frame.leavesStomped : Bool := f.stomp || (underrun && f.express)

/-- The bytes that leave before the FCS, and the state in which what keeps bytes back is counted. -/
def State.bodySent : State × List Byte :=
  if s.outgrown p f then (s.count P.PRT_TX_OVERSIZE p, f.data.take (s.rd P.PRT_MAX_FRAME p - 4)) else s.inserted p f x

/-- The frame on the wire. -/
def State.frameSent : State :=
  (s.bodySent p f x).1.emit (.frame p ((s.bodySent p f x).2 ++
    (if f.leavesStomped underrun || s.outgrown p f then stompedFcs (s.bodySent p f x).2 else fcsOf (s.bodySent p f x).2)))

/-- The frame counted where it left stomped, and the port in its inter-frame gap. -/
def State.frameLeft (long : Bool) : State :=
  let counted := if f.leavesStomped underrun && !long then s.count P.PRT_TX_STOMP p else s
  let flagged := if underrun && f.express then counted.orIn P.PRT_FLAGS 0 4 else counted
  let gapped := flagged.setGap p c.lock.isSome
  match gapped.bufferOf f.id with
  | some b => if parity then gapped.spoil b.pool b.index else gapped
  | none => gapped

/-- Its copy released, and what waited for its end sent. -/
def State.copyLeft (long : Bool) : State :=
  ((s.releaseCopy c (agentCode (if long then 3 else 0) p)).payFlow p).evaluateSluice

theorem State.inserted_out : (s.inserted p f x).1.out = s.out := by
  unfold State.inserted
  extract_lets body r off form b
  clear_value b
  split
  · split
    · dsimp only
      split
      · exact State.count_out ..
      · rfl
    · rfl
  · split
    · exact State.count_out ..
    · rfl
  · split
    · rfl
    · split
      · rfl
      · exact State.count_out ..
  · rfl

theorem State.bodySent_out : (s.bodySent p f x).1.out = s.out := by
  unfold State.bodySent
  split
  · exact State.count_out ..
  · exact State.inserted_out ..

theorem State.frameSent_out : (s.frameSent p f x underrun).out = s.out ++ [.frame p ((s.bodySent p f x).2 ++
    (if f.leavesStomped underrun || s.outgrown p f then stompedFcs (s.bodySent p f x).2 else fcsOf (s.bodySent p f x).2))] := by
  rw [State.frameSent, State.emit_out, State.bodySent_out]

theorem State.frameLeft_only (long : Bool) : Only (some [F.hidden, F.quay, P.OBS_OVF, P.PRT_FLAGS, P.PRT_TX_STOMP]) s
    (s.frameLeft p f c underrun parity long) := by
  unfold State.frameLeft
  extract_lets counted flagged gapped
  have hcounted : Only (some [F.hidden, F.quay, P.OBS_OVF, P.PRT_FLAGS, P.PRT_TX_STOMP]) s counted :=
    .cond _ ((Only.refl _ s).count rfl rfl rfl _ _) (.refl _ s)
  have hgapped : Only (some [F.hidden, F.quay, P.OBS_OVF, P.PRT_FLAGS, P.PRT_TX_STOMP]) s gapped :=
    .step (.cond _ (hcounted.orIn rfl _ _) hcounted) (State.setGap_only ..) rfl
  split
  · exact .cond _ (hgapped.step (State.spoil_only ..) rfl) hgapped
  · exact hgapped

theorem State.frameLeft_stomp (hfrozen : s.rd P.OBS_FROZEN = 0) (hstomped : f.leavesStomped underrun = true) :
    (s.frameLeft p f c underrun parity false).rd P.PRT_TX_STOMP p = (s.rd P.PRT_TX_STOMP p + 1) % 2 ^ 48 := by
  unfold State.frameLeft
  extract_lets counted flagged gapped
  have hcounted : counted = s.count P.PRT_TX_STOMP p := if_pos (by rw [hstomped]; rfl)
  have hgapped : Only (some [F.quay, P.PRT_FLAGS]) counted gapped :=
    .step (.cond _ ((Only.refl _ _).orIn rfl _ _) (.refl _ _)) (State.setGap_only ..) rfl
  rw [← State.count_rd_self hfrozen (b := P.PRT_TX_STOMP) (by decide) p 1, ← hcounted]
  split
  · exact (Only.cond _ (hgapped.step (State.spoil_only ..) rfl) hgapped).rd _ _ (by decide) rfl
  · exact hgapped.rd _ _ (by decide) rfl

theorem State.copyLeft_agrees (long : Bool) : Agrees [P.PRT_TX_STOMP, P.PRT_TX_OVERSIZE] s (s.copyLeft p c long) :=
  (((State.releaseCopy_only ..).agrees rfl).trans ((State.payFlow_only ..).agrees rfl)).trans ((State.evaluateSluice_only _).agrees rfl)

theorem State.copyLeft_out (long : Bool) : s.out <+: (s.copyLeft p c long).out :=
  ((State.releaseCopy_only ..).keeps.out.trans (State.payFlow_only ..).keeps.out).trans (State.evaluateSluice_only _).keeps.out

theorem State.copyLeft_gone (long : Bool) : ∀ z ∈ (s.copyLeft p c long).quay.copies, z.id ≠ c.id := by
  rw [State.copyLeft, (State.evaluateSluice_only _).quay rfl, (State.payFlow_only ..).quay rfl]
  exact State.releaseCopy_gone _ c _

end

section
variable {s : State} {port : Fin 512} {y : Sending} {c : Copy} {f : Frame} {underrun parity : Bool}

theorem exec_transmitComplete_leaves (hy : s.sendingOn port.val = some y) (hc : (s.quay.copies.find? fun z => z.id == y.copy) = some c)
    (hf : s.frame c.frame = some f) (hwhole : s.allInQuay f = true) : exec (.transmitComplete port underrun parity) s =
    .next (((s.frameSent port.val f y.stamp underrun).frameLeft port.val f c underrun parity (s.outgrown port.val f)).copyLeft port.val c
      (s.outgrown port.val f)) := by
  change execTransmitComplete port underrun parity s = _
  unfold execTransmitComplete
  dsimp only
  rw [hy]
  dsimp only
  rw [hc]
  dsimp only
  rw [hf]
  dsimp only
  rw [if_neg (not_not_intro hwhole)]
  rfl

theorem exec_transmitComplete_idle (h : s.sendingOn port.val = none) : exec (.transmitComplete port underrun parity) s = .next s := by
  change execTransmitComplete port underrun parity s = _
  unfold execTransmitComplete
  dsimp only
  rw [h]

end

end Sys2Proof.Machine
end

section
/-! ## Ports: PORT_LINK_DOWN (R246, R263, R265, R276) -/

namespace Sys2Proof.Machine

section
variable (s : State) (p : Nat)

/-- A copy lost with its port is traced and counted (R265). -/
def State.noteLoss (u : State) (c : Copy) : State :=
  (match u.frame c.frame with
   | some f => u.traceDrop f 5 0 P.PRT_LINKDOWN_DROP
   | none => u).count P.PRT_LINKDOWN_DROP p

/-- The state in which the port is marked down and its queues are flushed. -/
def State.portFlushed : State :=
  (((s.cutReception p).dropWaiting p).wr P.PRT_LINK_UP p 0).flushCopies (fun c => c.host.isNone && c.port == p) (agentCode 6 p)
    (State.noteLoss p)

/-- The state in which its hold-off, pause and gap are cleared too. -/
def State.portCleared : State :=
  ((s.portFlushed p).setFab fun x => { x with
    off := x.off.filter fun h => h.port != p, owed := x.owed.filter fun h => h.1 != p,
    paused := x.paused.filter fun k => k.1.1 != p }).setQuay fun q => { q with gaps := q.gaps.filter fun g => g.1 != p }

theorem State.portDown_eq (hup : s.portUp p = true) :
    s.portDown p = (((s.portCleared p).linkDown p).nhpSilent p).evaluateSluice := if_neg (not_not_intro hup)

theorem State.noteLoss_only (u : State) (c : Copy) : Only (some lossFrame) u (State.noteLoss p u c) := by
  unfold State.noteLoss
  refine Only.count ?_ rfl rfl rfl _ _
  split
  · exact (State.traceDrop_only ..).mono rfl
  · exact .refl _ u

theorem State.noteLoss_fall (u : State) (c : Copy) : CopiesFall u (State.noteLoss p u c) := by
  unfold State.noteLoss
  refine CopiesFall.count ?_ ..
  split
  · exact (CopiesFall.refl u).only (State.traceDrop_only ..) rfl
  · exact .refl u

theorem State.portFlushed_down : (s.portFlushed p).rd P.PRT_LINK_UP p = 0 := by
  unfold State.portFlushed
  rw [(State.flushCopies_only (W := some lossFrame) _ _ _ _ (State.noteLoss_only p) rfl).rd _ _ (by decide) rfl, State.rd_wr_self]

theorem State.portFlushed_gone : ∀ z ∈ (s.portFlushed p).quay.copies, ¬ (z.host = none ∧ z.port = p) := by
  intro z hz hmine
  have hkept := State.flushCopies_gone _ _ _ _ (State.noteLoss_fall p) z hz
  simp [hmine] at hkept

theorem State.linkDown_state : (s.linkDown p).rd P.LNK_STATE p = 0 := by
  unfold State.linkDown
  extract_lets t u v
  have hlost : Agrees [P.LNK_STATE] v ((v.linkRefs p).foldl (fun u r => u.loseRef r 5) v) :=
    (Only.fold _ _ (fun u r => u.loseRef_only r 5) (.refl _ v)).agrees rfl
  rw [hlost _ (by decide), State.rd_wr_base _ (by decide), (State.setLink_only ..).rd _ _ (by decide) rfl,
    (State.abortLinkRun_only ..).rd _ _ (by decide) rfl, State.rd_wr_self]

/-- What follows the flush touches neither the mark of the port nor the copies, and of the fabric the signals only. -/
theorem State.linkGone_only : Agrees [P.PRT_LINK_UP] s (((s.linkDown p).nhpSilent p).evaluateSluice) ∧
    (((s.linkDown p).nhpSilent p).evaluateSluice).quay = s.quay ∧ SignalsMove s ((s.linkDown p).nhpSilent p).evaluateSluice := by
  have hlink := s.linkDown_only p
  have hsilent := (s.linkDown p).nhpSilent_only p
  have hsluice := ((s.linkDown p).nhpSilent p).evaluateSluice_only
  exact ⟨((hlink.agrees rfl).trans (hsilent.agrees rfl)).trans (hsluice.agrees rfl),
    ((hsluice.quay rfl).trans (hsilent.quay rfl)).trans (hlink.quay rfl),
    ((SignalsMove.of_only hlink rfl).trans (.of_only hsilent rfl)).trans (State.evaluateSluice_signals _)⟩

theorem State.linkGone_state : (((s.linkDown p).nhpSilent p).evaluateSluice).rd P.LNK_STATE p = 0 := by
  rw [(State.evaluateSluice_only _).rd _ _ (by decide) rfl, (State.nhpSilent_only ..).rd _ _ (by decide) rfl, State.linkDown_state]

theorem State.portCleared_down : (s.portCleared p).portUp p = false := by
  rw [State.portUp, State.rdb, State.portCleared, State.setQuay_rd, State.setFab_rd, State.portFlushed_down]
  rfl

theorem State.portCleared_gone : ∀ z ∈ (s.portCleared p).quay.copies, ¬ (z.host = none ∧ z.port = p) := s.portFlushed_gone p

theorem State.portCleared_unpaused (c : Nat) : look (p, c) 0 (s.portCleared p).fabric.paused = 0 :=
  look_of_unlisted fun e he hkey => by simpa [hkey] using (List.mem_filter.mp he).2

/-- A port that has gone down is down, with no copy and no pause, and its link is DOWN. -/
theorem State.portDown_lost (hup : s.portUp p = true) : (s.portDown p).portUp p = false ∧
    (∀ c ∈ (s.portDown p).quay.copies, ¬ (c.host = none ∧ c.port = p)) ∧ (∀ c, (s.portDown p).pausedNow p c = false) ∧
    (s.portDown p).rd P.LNK_STATE p = 0 := by
  obtain ⟨hreads, hquay, hsignals⟩ := (s.portCleared p).linkGone_only p
  rw [State.portDown_eq s p hup]
  refine ⟨?_, ?_, fun c => ?_, State.linkGone_state ..⟩
  · rw [hreads.portUp, State.portCleared_down]
  · rw [hquay]
    exact s.portCleared_gone p
  · rw [State.pausedNow, hsignals.paused, State.portCleared_unpaused]
    exact decide_eq_false (Nat.not_lt_zero _)

end

section
variable {s : State} {port : Fin 512} {part : Bool} {upsets : List QuayUpset}

theorem State.upsets_portUp (p : Nat) : (upsets.foldl State.upset s).portUp p = s.portUp p :=
  ((s.upsets_only upsets).agrees rfl).portUp p

/-- The state in which a frame that was being received is counted as lost, where it has no place in an inlet yet (R265). -/
def State.partLost (s : State) (p : Nat) (part : Bool) : State :=
  if part ∧ ¬ (s.fabric.receiving.any fun x => x.port == p) then s.count P.PRT_LINKDOWN_DROP p else s

theorem State.partLost_portUp (p : Nat) : (s.partLost p part).portUp p = s.portUp p := by
  have hcounted : Only (some [F.hidden, P.OBS_OVF, P.PRT_LINKDOWN_DROP]) s (s.partLost p part) :=
    .cond _ ((Only.refl _ s).count rfl rfl rfl _ _) (.refl _ s)
  exact Agrees.portUp (hcounted.agrees rfl) p

theorem exec_portLinkDown_up (hup : s.portUp port.val = true) : exec (.portLinkDown port part upsets) s =
    .next (((upsets.foldl State.upset s).partLost port.val part).portDown port.val) :=
  if_neg (by rw [State.upsets_portUp]; exact not_not_intro hup)

theorem exec_portLinkDown_down (hdown : s.portUp port.val = false) :
    exec (.portLinkDown port part upsets) s = .next (upsets.foldl State.upset s) :=
  if_pos (by rw [State.upsets_portUp, hdown]; exact Bool.false_ne_true)

end

/-! ### The obligation -/

/-- Settles O33: a start by class, an end by whether the frame has outgrown its port, and a port that goes down by its flush. -/
theorem framesGoOutByPriority : Obligations.FramesGoOutByPriority := by
  unfold Obligations.FramesGoOutByPriority
  refine ⟨?starts, ?oversize, fun port raw s => exec_frameTransmitStart_rests, ?leaves, ?outgrown,
    fun port underrun parity s => exec_transmitComplete_idle, ?down, fun port part upsets s => exec_portLinkDown_down⟩
  case starts =>
    intro port raw s k f o hup hidle hnext hsize
    have hexec := exec_frameTransmitStart_starts (raw := raw) hup hidle hnext hsize
    refine ⟨_, hexec, State.copyStarted_quay, ?_, fun c j g hkc hc => State.nextCopyOf_highest hnext hkc hc,
      (execFrameTransmitStart_only ..).next _ hexec⟩
    rintro rfl
    rw [State.copyStarted_agrees _ (by decide), State.copyStarted_agrees _ (by decide)]
    exact State.gateNoted_overrun port.val
  case oversize =>
    intro port raw s k f o hup hidle hfrozen hnext hsize
    have hexec := exec_frameTransmitStart_oversize (raw := raw) hup hidle hnext hsize
    have hsluice := (s.oversizeCopy port.val k f).evaluateSluice_only
    refine ⟨_, hexec, ?_, ?_, (execFrameTransmitStart_only ..).next _ hexec⟩
    · rw [hsluice.quay rfl]
      exact State.oversizeCopy_gone port.val
    · rw [hsluice.rd _ _ (by decide) rfl, State.oversizeCopy_count _ hfrozen]
  case leaves =>
    intro port underrun parity s y c f hy hc hf hwhole hsize
    have hexec := exec_transmitComplete_leaves (underrun := underrun) (parity := parity) hy hc hf hwhole
    have hover : s.outgrown port.val f = false := decide_eq_false (Nat.not_lt.mpr hsize)
    have hbody : s.bodySent port.val f y.stamp = s.inserted port.val f y.stamp := by
      rw [State.bodySent, hover, if_neg Bool.false_ne_true]
    have hstomped : f.leavesStomped underrun = true ↔ f.stomp = true ∨ (underrun = true ∧ f.express = true) := by
      simp [Frame.leavesStomped]
    have hsent := s.frameSent_out port.val f y.stamp underrun
    simp only [hbody, hover, Bool.or_false, hstomped] at hsent
    have hinserted := (s.inserted_only port.val f y.stamp).fst
    have hbodyRd : ∀ b ∈ [P.PRT_TX_STOMP, P.OBS_FROZEN], ∀ i, (s.frameSent port.val f y.stamp underrun).rd b i = s.rd b i := by
      rw [State.frameSent, hbody]
      exact hinserted.agrees rfl
    refine ⟨_, hexec, ?_, State.copyLeft_gone _ _ c _, fun hfrozen h => ?_, (execTransmitComplete_only ..).next _ hexec⟩
    · rw [← hsent]
      exact (State.frameLeft_only ..).keeps.out.trans (State.copyLeft_out ..)
    · rw [State.copyLeft_agrees _ _ _ _ _ (by decide), hover,
        State.frameLeft_stomp _ _ _ _ _ _ ((hbodyRd _ (by decide) _).trans hfrozen) (hstomped.mpr h), hbodyRd _ (by decide)]
  case outgrown =>
    intro port underrun parity s y c f hy hc hf hwhole hsize hfrozen
    have hexec := exec_transmitComplete_leaves (underrun := underrun) (parity := parity) hy hc hf hwhole
    have hover : s.outgrown port.val f = true := decide_eq_true hsize
    have hbody : s.bodySent port.val f y.stamp =
        (s.count P.PRT_TX_OVERSIZE port.val, f.data.take (s.rd P.PRT_MAX_FRAME port.val - 4)) := by
      rw [State.bodySent, hover, if_pos rfl]
    have hsent := s.frameSent_out port.val f y.stamp underrun
    simp only [hbody, hover, Bool.or_true, if_true] at hsent
    refine ⟨_, hexec, ?_, State.copyLeft_gone _ _ c _, ?_, (execTransmitComplete_only ..).next _ hexec⟩
    · rw [← hsent]
      exact (State.frameLeft_only ..).keeps.out.trans (State.copyLeft_out ..)
    · rw [State.copyLeft_agrees _ _ _ _ _ (by decide), (State.frameLeft_only ..).rd _ _ (by decide) rfl, State.frameSent, hbody,
        State.emit_rd, State.count_rd_self hfrozen (by decide)]
  case down =>
    intro port part upsets s hup
    have hexec := exec_portLinkDown_up (part := part) (upsets := upsets) hup
    obtain ⟨hdown, hcopies, hpaused, hstate⟩ := State.portDown_lost ((upsets.foldl State.upset s).partLost port.val part) port.val
      (by rwa [State.partLost_portUp, State.upsets_portUp])
    exact ⟨_, hexec, hdown, hcopies, hpaused, hstate, (execPortLinkDown_only ..).next _ hexec⟩

end Sys2Proof.Machine
end
